-- ==== Sys2Proof/Word.lean ====
section
/-!
DEFINITION. The words of the module (R579: 32-bit registers, byte-addressed memories), its two halves (R14), and the pair
that holds one copy of a thing for each half.
-/
namespace Sys2Proof

/-- A register of the map (R579). -/
abbrev Word := BitVec 32

/-- A byte of an image, a record or a memory. -/
abbrev Byte := BitVec 8

/-- The two compute cartridges (R14). -/
inductive Half where
  | A
  | B
deriving DecidableEq, Repr

/-- The sibling. -/
def Half.other : Half → Half
  | .A => .B
  | .B => .A

/-- The code of a half in records and registers: 0 A, 1 B (R481). -/
def Half.code : Half → Nat
  | .A => 0
  | .B => 1

/-- One copy of a thing for each half. -/
structure Two (α : Type) where
  a : α
  b : α
deriving DecidableEq, Repr

/-- The copy of half `h`. -/
def Two.get {α : Type} (t : Two α) : Half → α
  | .A => t.a
  | .B => t.b

/-- The pair with half `h`'s copy replaced. -/
def Two.set {α : Type} (t : Two α) (h : Half) (x : α) : Two α :=
  match h with
  | .A => { t with a := x }
  | .B => { t with b := x }

/-- The pair with half `h`'s copy changed by `f`. -/
def Two.upd {α : Type} (t : Two α) (h : Half) (f : α → α) : Two α := t.set h (f (t.get h))

/-- The same thing in both halves. -/
def Two.both {α : Type} (x : α) : Two α := ⟨x, x⟩

/-- The operand of a fall: what pulled the line low (R25, R463). -/
inductive LowCause where
  | detect
  | supply
  | reset
  | watchdog
  | fence
  | wiring
deriving DecidableEq, Repr

end Sys2Proof
end

