-- ==== Sys2Proof/Machine/Store.lean ====
section
/-!
DEFINITION. Sparse stores: a list of (key, value) pairs in one canonical form, keys strictly rising and no entry equal to what
an unlisted key reads as. The memories (R516, R483, R287, R363) are such lists of addresses and bytes.
-/
namespace Sys2Proof

/-- A sparse map from numbers. -/
abbrev NMap (α : Type) := List (Nat × α)

namespace NMap

/-- What key `k` reads as, `d` where it is not listed. -/
def get {α : Type} (d : α) : NMap α → Nat → α
  | [], _ => d
  | (k, v) :: t, n => if n = k then v else get d t n

/-- The map with every entry of key `n` removed. -/
def del {α : Type} : NMap α → Nat → NMap α
  | [], _ => []
  | (k, v) :: t, n => if n = k then del t n else (k, v) :: del t n

/-- The map with `x` listed at `n`, in its place in the rising order. -/
def put {α : Type} : NMap α → Nat → α → NMap α
  | [], n, x => [(n, x)]
  | (k, v) :: t, n, x => if n < k then (n, x) :: (k, v) :: t else if n = k then (n, x) :: t else (k, v) :: put t n x

/-- The write that keeps the canonical form: writing what an unlisted key reads as removes the entry. -/
def set {α : Type} [DecidableEq α] (d : α) (m : NMap α) (n : Nat) (x : α) : NMap α :=
  if x = d then del m n else put m n x

/-- The entry at `n` changed by `f`. -/
def upd {α : Type} [DecidableEq α] (d : α) (m : NMap α) (n : Nat) (f : α → α) : NMap α := set d m n (f (get d m n))

/-- Every listed key lies above `lo`, keys rise strictly. -/
def rising {α : Type} : Option Nat → NMap α → Bool
  | _, [] => true
  | lo, (k, _) :: t => (match lo with | none => true | some l => decide (l < k)) && rising (some k) t

/-- No entry equals what an unlisted key reads as. -/
def tight {α : Type} [DecidableEq α] (d : Nat → α) : NMap α → Bool
  | [] => true
  | (k, v) :: t => (!decide (v = d k)) && tight d t

/-- The canonical form. -/
def wf {α : Type} [DecidableEq α] (d : Nat → α) (m : NMap α) : Bool := rising none m && tight d m

end NMap

/-- A byte-addressed memory: the canonical list of the bytes that differ from an unwritten one. -/
abbrev Memory := NMap Byte

namespace Memory

/-- What a byte that nothing has written reads as: 0 (DESIGN CHOICE, log entry 5). -/
def blank : Byte := 0

/-- One byte. -/
def read (m : Memory) (a : Nat) : Byte := NMap.get blank m a

/-- One byte written. -/
def write (m : Memory) (a : Nat) (x : Byte) : Memory := NMap.set blank m a x

/-- `n` bytes from `a` upward. -/
def readN (m : Memory) (a : Nat) : Nat → List Byte
  | 0 => []
  | n + 1 => read m a :: readN m (a + 1) n

/-- Bytes written from `a` upward. -/
def writeN (m : Memory) (a : Nat) : List Byte → Memory
  | [] => m
  | x :: t => writeN (write m a x) (a + 1) t

/-- The canonical form of a memory. -/
def wf (m : Memory) : Bool := NMap.wf (fun _ => blank) m

end Memory

end Sys2Proof
end

