-- ==== Sys2Proof/Machine/Types/Can.lean ====
section
/-!
DEFINITION. The CAN channels: chapter 14 of the spec.
-/
namespace Sys2Proof.Machine

/-- A channel entry of CANM (R427). -/
structure CanCfg where
  mode : Nat := 0
  term : Bool := false
  wake : Bool := false
  tdc : Bool := false
  selfRx : Bool := false
  order : Bool := false
  stack : Nat := 0
  prefSa : Nat := 0
  nbrp : Nat := 1
  ntseg1 : Nat := 2
  ntseg2 : Nat := 1
  nsjw : Nat := 1
  dbrp : Nat := 1
  dtseg1 : Nat := 1
  dtseg2 : Nat := 1
  dsjw : Nat := 1
  tdco : Nat := 0
  tdcf : Nat := 0
  boffLimit : Nat := 0
  name : Nat := 0
deriving DecidableEq, Repr

/-- A filter of CANM. -/
structure CanFlt where
  ch : Nat := 0
  ide : Bool := false
  queue : Bool := false
  decode : Bool := false
  stack : Bool := false
  msg : Nat := 0xFFFF
  id : Nat := 0
  mask : Nat := 0
deriving DecidableEq, Repr

/-- A message of CANM. -/
structure CanMsg where
  ch : Nat := 0
  dir : Nat := 0
  ide : Bool := false
  fdf : Bool := false
  brs : Bool := false
  dlc : Nat := 0
  id : Nat := 0
  owner : Nat := 0
  fill : Nat := 0
  period : Nat := 0
  phase : Nat := 0
  first : Nat := 0
  nSig : Nat := 0
deriving DecidableEq, Repr

/-- A signal of CANM. -/
structure CanSig where
  msg : Nat := 0
  start : Nat := 0
  len : Nat := 1
  sgn : Bool := false
  na : Bool := false
  kind : Nat := 0
  bind : Nat := 0
  scale : Rat := 1
  ofs : Rat := 0
  init : Nat := 0
deriving DecidableEq, Repr

/-- The CANM section as loaded (R427). -/
structure CanSec where
  chans : List CanCfg := []
  flts : List CanFlt := []
  msgs : List CanMsg := []
  sigs : List CanSig := []
deriving DecidableEq, Repr

/-- A frame on the bus. -/
structure CanFrame where
  ide : Bool
  rtr : Bool
  id : Nat
  fdf : Bool
  brs : Bool
  esi : Bool
  dlc : Nat
  data : List Byte
deriving DecidableEq, Repr

/-- A channel, beside its registers: its configuration, whether its stack has claimed an address, the ABORT requests on ACTIVE buffers,
the scheduled frames that wait for TB0 in order, the message in TB0, its COUNTER signals, its bus-offs of the last 60 s, whether
LOCKOUT has been cleared, whether RX_OVF has been told, the clash candidates and clashes told in the last second, and when its stack
last sent DM1. -/
structure CanCh where
  cfg : CanCfg := {}
  claimed : Bool := false
  abort : List Bool := [false, false, false]
  due : List (Nat × CanFrame) := []
  inTb0 : Option Nat := none
  ctr : NMap Nat := []
  boffs : List Nat := []
  cleared : Bool := false
  ovf : Bool := false
  cands : List (Nat × Nat) := []
  told : List (Nat × Nat) := []
  dm1At : Nat := 0
deriving DecidableEq, Repr

/-- The CAN channels: the section the halves hold, and the channels. -/
structure Cans where
  sec : CanSec := {}
  ch : NMap CanCh := []
deriving DecidableEq, Repr

end Sys2Proof.Machine
end

