-- ==== Sys2Proof/Machine/Types/Core.lean ====
section
/-!
DEFINITION. The state of the arbiter, the posted-write FIFOs, the event routers, the Crossing, the start stages, the Roast stores
and the service functions: chapters 01, 02, 03, 16, 17 and 23 of the spec.
-/
namespace Sys2Proof.Machine

/-- The state of a token (R22). A CLAIMING token knows the half it is passing to and, in a handover, its giver (R28). -/
inductive TokenSt where
  | orphan
  | owned (h : Half)
  | claiming (dst : Half) (giver : Option Half)
deriving DecidableEq, Repr

/-- The token of one backplane object: its state, the instant of its last ORPHAN entry or claim (R30, R31), whether its orphan
timer has expired, and its last owner (R28, R64). -/
structure Token where
  st : TokenSt := .orphan
  at_ : Nat := 0
  expired : Bool := true
  last : Option Half := none
deriving DecidableEq, Repr

/-- Why a half's alive line is low (R25); `wiring` is the fault of R463, none of R25's causes. -/
structure Low where
  detectOpen : Bool := false
  supplyBad : Bool := false
  heldReset : Bool := true
  watchdog : Bool := false
  fenced : Bool := false
  wiring : Bool := false
deriving DecidableEq, Repr

/-- The multi-token operation a half has in progress (R29). -/
inductive OwnOp where
  | none
  | claimAll
  | handoverAll
deriving DecidableEq, Repr

/-- The ownership arbiter (R22–R33). -/
structure Own where
  tok : NMap Token
  low : Two Low
  fellAt : Two Nat
  fallSet : Two (List Nat)
  hwIssued : Two Bool
  server : Option Half
  op : Two OwnOp
deriving DecidableEq, Repr

/-- A posted write: address and value (R16). -/
structure PWrite where
  addr : Nat
  val : Word
deriving DecidableEq, Repr

/-- An initiator's island boundary: its posted writes, oldest first, and the write it is stalled on (R16, R17); the outcome of its
last read (R19, R584): the word returned and whether it was a bus error. -/
structure Port where
  fifo : List PWrite := []
  stalled : Option PWrite := none
  lastRead : Word := 0
  busError : Bool := false
deriving DecidableEq, Repr

/-- The island boundaries of both halves, by initiator code 0–11 (OWN_VIOL.INIT). -/
structure Bus where
  port : Two (NMap Port)
deriving DecidableEq, Repr

/-- An event record (R481). -/
structure EvRec where
  stamp : Nat
  num : Nat
  flags : Nat
  count : Nat
  arg : Nat
deriving DecidableEq, Repr

/-- A route entry of EVTR (R486). -/
structure Route where
  event : Nat := 0
  clusters : Nat := 0
  vec : List Nat := [0, 0, 0]
  fwd : Bool := false
  matchObj : Nat := 0xFFFF
  react : Nat := 0
  target : Nat := 0
deriving DecidableEq, Repr

/-- A Knock slot's hidden part (R491): whether it is taken, by whom and when. -/
structure KnockSlot where
  taken : Bool := false
  init : Nat := 0
  start : Nat := 0
deriving DecidableEq, Repr

/-- The event router and the Knock path of a half (R479–R491), the log as shutdown step 2 wrote it to flash and the mirror of the sibling's
log (R483). -/
structure Router where
  queue : List EvRec
  us : Nat
  inUs : Nat
  lostDue : Bool
  routes : List Route
  slots : NMap KnockSlot
  flash : Memory
  sibLog : Memory
deriving DecidableEq, Repr

/-- A heartbeat frame (R38). -/
structure HbFrame where
  seq : Nat
  stage : Nat
  server : Bool
  digest : Nat
  load : Nat
  owned : Nat
  grade : Nat
  bloomDone : Bool
deriving DecidableEq, Repr

/-- The Crossing endpoint of a half (R34–R45, R590), beside its registers: the sequence number of the next frame of each type (R36), the
frames asked for again and sent again, the last HB frame on its way to the sibling with its number, the miss window's start,
whether heartbeat-loss evaluation is suspended (R95) and a loss waits for its sample (R39), the TSY exchanges in a row within and
outside 2 ns and the last one (R44), the millisecond of the CRC drops and their number in it, when UP was reached and a class last
lagged (R456), the classes received in full and due in full (R42, R459), when each class was last sent (R45), whether the sibling's
frames show Bloom complete, and the payloads sent and received in the last 100 ms. -/
structure Xng where
  seqTx : NMap Nat
  asked : List (Nat × Nat)
  resent : List (Nat × Nat)
  sent : Option HbFrame
  hbSeq : Nat
  winAt : Nat
  suspended : Bool
  lossDue : Bool
  within : Nat
  outside : Nat
  tsyAt : Nat
  crcMs : Nat
  crcInMs : Nat
  upAt : Nat
  lagAt : Nat
  fullRx : List Nat
  fullDue : List Nat
  lastSent : NMap Nat
  sibBloom : Bool
  txLog : List (Nat × Nat)
  rxLog : List (Nat × Nat)
deriving DecidableEq, Repr

/-- Where a half stands between reset and Pour (R89–R101, R463, R76): whether it runs, its reference instant (R89), standby, the Bloom step
reached, the verdict of its boot chain, the permit's refreshes (R26, R94, R458), the clocks of the Pour flags (R101), the islands
that are power-gated (R119), whether it fenced itself (R463), and the cause and the number of its resets (R478). -/
structure Run where
  running : Bool
  refAt : Nat
  standby : Bool
  bloomStep : Nat
  fwOk : Bool
  stwAt : Nat
  rtAt : List Nat
  rtJoined : List Bool
  greenHold : Bool
  flagsAt : Nat
  flagsGone : Nat
  pwrGated : List Nat
  selfFenced : Bool
  cause : Nat
  resets : Nat
deriving DecidableEq, Repr

/-- A GREN entry (R61). -/
structure Gren where
  kind : Nat := 0
  state : Nat := 0
  sor : Bool := false
  so : Bool := false
  entry : Nat := 0
  toff : Nat := 0
  level : Nat := 0
  rampMs : Nat := 0
  aux : Nat := 0
deriving DecidableEq, Repr

/-- A Roast slot of a half's flash (R51): the image and whether it stands verified. -/
structure Slot where
  image : List Byte := []
  valid : Bool := false
  digest : List Byte := []
deriving DecidableEq, Repr

/-- The Roast slots of a half, the TRIAL mark (R81) and the digest of the Roast it runs (R51). -/
structure Roasts where
  active : Slot
  pending : Slot
  trial : Bool
  running : List Byte
deriving DecidableEq, Repr

/-- The backplane's Roast records (R52). A bank lists the entries that differ from the factory Green entry (R53). -/
structure BpRoast where
  bank0 : NMap Gren
  bank1 : NMap Gren
  ptr : Bool
  boundId : List Byte
  seqFloor : Nat
  recOpen : Bool
  recDigest : List Byte
deriving DecidableEq, Repr

/-- A Roast activation in progress (R79–R85): the half that restarts first, the step reached, its start, and the commit. -/
structure Activation where
  newHalf : Half
  step : Nat
  start : Nat
  committed : Bool
deriving DecidableEq, Repr

/-- What the Cupping controller reads at the start of a run (R110, R113): its self-check, the highest die temperature (°C), the clock's
deviation (0.01 ppm) and the supply's (0.1 %). -/
structure CupCond where
  ctrlOk : Bool
  dieMax : Int
  ppm : Int
  vdev : Int
deriving DecidableEq, Repr

/-- What an island's test ends with (R114–R116): its count and whether that is N, END, whether the MISR matches and its syndrome, its
duration (ms), the die's temperature (°C) and the supply's deviation (0.1 %). -/
structure CupMeas where
  count : Nat := 0
  cntOk : Bool := false
  fin : Bool := false
  misr : Bool := false
  syndrome : Nat := 0
  dur : Nat := 0
  dieT : Int := 0
  vdev : Int := 0
deriving DecidableEq, Repr

/-- Where a half stands in the shutdown of R105: 0 not begun, 1 steps 1 and 2 done and outputs ramping, 4 Cupping, 5 held. -/
structure Shut where
  step : Nat
  trunc : Bool
  savedAt : Nat
  runAt : Nat
  order : List Nat
  tested : List Nat
  runN : Nat
  disabled : Bool
deriving DecidableEq, Repr

/-- The power latch (R102–R104) and LOGIC_IN's validity (R89): backplane. -/
structure Latch where
  logicValid : Bool
  validAt : Nat
  keyOn : Bool
  keyOffAt : Nat
  keySeen : Bool
  pwrHold : Bool
  startup : Bool
  forced : Bool
deriving DecidableEq, Repr

/-- The Steward's frame (R475–R478) and its watchdog. -/
structure Frame where
  start : Nat
  busy : Nat
  c0 : Nat
  c1 : Nat
  shed : Bool
  paused : Bool
  pausedRun : Nat
  rearm : NMap Nat
  wdKey : Bool
  wdAt : Nat
  served : Bool
deriving DecidableEq, Repr

/-- The service request, life counters and handback (R452–R472): backplane and Stewards. The half prepared for withdrawal and the tile
(its number plus 1; 0 none), whether a request is in progress, since when READY shows, the last handback, what of the present 0.1 h the
operating hours have counted (ns), the shutdowns, the presence pins and when each last closed (plus 1 ns; 0 since power-on). -/
structure Service where
  prepared : Option Half
  tile : Nat
  busy : Bool
  readyAt : Nat
  lastMove : Nat
  hoursAcc : Nat
  shutdowns : Nat
  presence : Two Bool
  present0 : Two Nat
deriving DecidableEq, Repr

end Sys2Proof.Machine
end

