-- ==== Sys2Proof/Machine/Types/Yield.lean ====
section
/-!
DEFINITION. The fused pose, the yield pipeline and the Ledger's lock: chapters 09, 12 (R384) and 19 of the spec.
-/
namespace Sys2Proof.Machine

/-- A published pose (R384): module time, latitude and longitude in 1e-9°, and the record's other fields in their units. -/
structure Pose where
  t : Nat := 0
  lat : Int := 0
  lon : Int := 0
  hgt : Int := 0
  hdg : Nat := 0
  pitch : Int := 0
  roll : Int := 0
  speed : Int := 0
  yaw : Int := 0
  sigH : Nat := 0
  sigPsi : Nat := 0
  q : Nat := 0
  flags : Nat := 0
deriving DecidableEq, Repr

/-- A crop entry of YILD (R294). -/
structure Crop where
  mStd : Nat := 0
  defMoist : Nat := 0
  rhoDef : Nat := 0
  rhoMin : Nat := 0
  rhoMax : Nat := 0
  pts : List (Rat × Rat) := []
deriving DecidableEq, Repr

/-- The YILD section as loaded (R294). -/
structure YildSec where
  cropDef : Nat := 0
  impact : Nat := 0
  elev : Nat := 0
  fill : Nat := 0
  moist : Nat := 0
  cut : Nat := 0
  edge : Nat := 0
  flowOut : Nat := 0
  yieldOut : Nat := 0
  tankOut : Nat := 0
  dFlow : Nat := 0
  dMoist : Nat := 0
  flush : Nat := 0
  headerW : Rat := 0
  cutHt : Rat := 0
  cutHys : Rat := 0
  wImp : Rat := 0
  volK : Rat := 0
  nRef : Rat := 1
  tileLen : Nat := 0
  moistHold : Nat := 0
  unloadKgs : Rat := 0
  tauRho : Nat := 1
  tankMax : Nat := 0
  cbX : Rat := 0
  cbY : Rat := 0
  crops : List Crop := []
deriving DecidableEq, Repr

/-- A slice (R278): its cycle number (100 ms of module time), and what it holds and receives. -/
structure Slice where
  k : Nat := 0
  cutting : Bool := false
  crop : Nat := 0
  lat : Rat := 0
  lon : Rat := 0
  posQ : Nat := 0
  noPos : Bool := true
  hdg : Rat := 0
  width : Rat := 0
  dist : Rat := 0
  flags : Nat := 0
  cal : Bool := false
  mass : Rat := 0
  moist : Option Rat := none
deriving DecidableEq, Repr

/-- A yield tile not yet published (R284): its first and last slice, whether it is closed, and what followed it. -/
structure YTile where
  first : Nat
  last : Nat
  closed : Bool := false
  part : Bool := false
  endCut : Bool := false
deriving DecidableEq, Repr

/-- A weighed load (R291): in SET_YLD_CAL.STATE's terms, with its sums. -/
structure CalLoad where
  start : Nat := 0
  stop : Nat := 0
  crop : Nat := 0
  mass : Rat := 0
  sMass : Rat := 0
  flow : Nat := 0
  bad : Nat := 0
  unloaded : Bool := false
deriving DecidableEq, Repr

/-- A stored load: crop slot, weight, measured mass, mean normalised signal. -/
structure CalStored where
  crop : Nat
  wt : Rat
  mass : Rat
  sMean : Rat
deriving DecidableEq, Repr

/-- What shutdown step 2 writes to flash (R272): the crop slot and its bulk density, the tank, the totals, the stored loads. -/
structure YKept where
  crop : Nat := 0
  rho : Rat := 0
  tank : Rat := 0
  totWet : Rat := 0
  totStd : Rat := 0
  totArea : Rat := 0
  unassigned : Rat := 0
  stored : List CalStored := []
deriving DecidableEq, Repr

/-- The yield pipeline of a half (R271–R293): its own state where it serves, its mirror (R272) where it does not. -/
structure Yield where
  sec : Option YildSec := none
  crop : Nat := 0
  rho : Rat := 0
  cutting : Bool := false
  slices : List Slice := []
  tiles : List YTile := []
  lastK : Nat := 0
  lastM : Rat := 0
  by_ : Option Half := none
  moist : Rat := 0
  moistAt : Option Nat := none
  tank : Rat := 0
  totWet : Rat := 0
  totStd : Rat := 0
  totArea : Rat := 0
  unassigned : Rat := 0
  load : CalLoad := {}
  stored : List CalStored := []
  kept : YKept := {}
deriving DecidableEq, Repr

/-- The Ledger's write lock (R518): the token drawn and who drew it, the half whose initiator holds the lock, its last write. -/
structure CalLock where
  token : Option Nat
  tokHalf : Half
  tokInit : Nat
  half : Half
  lastAt : Nat
deriving DecidableEq, Repr

end Sys2Proof.Machine
end

