-- ==== Sys2Proof/Machine/Types/Gnss.lean ====
section
/-!
DEFINITION. The satellite receiver: chapter 12 of the spec.
-/
namespace Sys2Proof.Machine

/-- A commit that waits for an integration boundary (R364). -/
structure Commit where
  carr : Int
  code : Nat
  slew : Int
  epochs : Nat
  at_ : Nat
  late : Bool := false
deriving DecidableEq, Repr

/-- A tracking channel (R362–R364): the rates in force, the phases accumulated since its start (2⁻³² chips, 2⁻³² cycles) up to an
instant, the waiting commit, and the run of late updates. -/
structure Track1 where
  carr : Int := 0
  code : Nat := 0
  codeAcc : Rat := 0
  carrAcc : Rat := 0
  accAt : Nat := 0
  pend : Option Commit := none
  lateRun : Nat := 0
  lateTold : Bool := false
  lateAt : Nat := 0
  lateSince : Bool := false
deriving DecidableEq, Repr

/-- An entry of a measurement record (R369): the f64 and f32 fields as their patterns, the lock time and elevation as coded. -/
structure MEntry where
  sys : Nat
  sv : Nat
  sig : Nat
  ant : Nat
  pll : Bool
  half : Bool
  slip : Bool
  pr : Nat
  adr : Nat
  dop : Nat
  cn0 : Nat
  lock : Nat
  ch : Nat
  elev : Int
  noEph : Bool
  flags : Nat := 0
  excl : Nat := 0
deriving DecidableEq, Repr

/-- A measurement record (R369). -/
structure MRec where
  half : Half
  aligned : Bool
  suspect : Bool
  t : Nat
  bias : Int
  drift : Int
  clk : Bool
  rate : Nat
  entries : List MEntry
deriving DecidableEq, Repr

/-- A solution of the position engine (R381) as the engine's software gives it: latitude and longitude in 1e-9°, height and 1σ in mm,
speed in mm/s, course in 0.01°; the satellites of the code solution and the systems used; those with code corrections (RTCM) and
with SBAS corrections; whether it is a carrier solution and the satellites it shares with the reference station; the ambiguities'
ratio in 0.01 and double differences fixed; the channels its residual test excluded, and whether it then passed. -/
structure Sol where
  lat : Int
  lon : Int
  hgt : Int
  sigH : Nat
  speed : Nat
  course : Nat
  sats : Nat
  systems : Nat
  dgnss : Nat
  sbas : Nat
  carrier : Bool
  common : Nat
  ratio : Nat
  dd : Nat
  raim : List Nat
  pass : Bool
deriving DecidableEq, Repr

/-- A correction source (R377–R379): the last MSM and reference message, since when it is valid, the frames of the last 2 s, and the
reference station. -/
structure CSrc where
  msmAt : Option Nat := none
  refAt : Option Nat := none
  validAt : Option Nat := none
  frames : List (Nat × List Byte) := []
deriving DecidableEq, Repr

/-- The aiding in flash (R360): the last position, the oscillator's offset, when it was stored. -/
structure Aiding where
  lat : Int
  lon : Int
  drift : Int
  at_ : Nat
deriving DecidableEq, Repr

/-- The receiver of a half, beside its registers. `notch`: the placed notches' frequencies from the chain's centre, Hz (key 4·chain +
notch). `excl`: exclusions in force, (satellite signal, reason, since); `seen`: those ever reported. `amb`: the integer map of R371. -/
structure Gnss where
  on : Bool := false
  ch : NMap Track1 := []
  notch : NMap Int := []
  excl : List (Nat × Nat × Nat) := []
  seen : List (Nat × Nat) := []
  latBuf : Nat := 0
  tm : Nat := 0
  own : Option MRec := none
  sent : Option MRec := none
  sib : Option MRec := none
  amb : List (Nat × Int) := []
  rate : Option Nat := none
  suspectAt : Nat := 0
  capped : Bool := false
  fixedRun : Nat := 0
  posQ : Nat := 0
  posAt : Option Nat := none
  imuSib : Bool := false
  imuBad : Bool := false
  pse : Nat := 0
  src : NMap CSrc := []
  active : Option Nat := none
  station : Option (Nat × Int × Int × Int) := none
  usedAt : Option Nat := none
  aid : Option (Nat × Nat) := none
  stored : Option Aiding := none
  base : Option Rat := none
deriving DecidableEq, Repr

end Sys2Proof.Machine
end

