-- ==== Sys2Proof/Machine/Types/Grind.lean ====
section
/-!
DEFINITION. The sensor planes, the Grind and the tracks: chapters 10 and 11 of the spec.
-/
namespace Sys2Proof.Machine

/-- A port entry of GRIN (R329). -/
structure GPort where
  role : Nat := 0
  sectors : Nat := 0
  cfa : Nat := 0
  width : Nat := 0
  height : Nat := 0
  period : Nat := 0
  silentMs : Nat := 0
  enc : Nat := 0
  health : Nat := 0
  serial : List Byte := []
deriving DecidableEq, Repr

/-- A channel entry of GRIN. -/
structure GChan where
  rule : Nat := 0
  conf : Nat := 0
  scale : Rat := 0
  ofs : Rat := 0
deriving DecidableEq, Repr

/-- A model entry of GRIN. -/
structure GModel where
  id : Nat := 0
  version : Nat := 0
  digest : List Byte := []
  kind : Nat := 0
  cls : Nat := 0
  mem : Nat := 0
  ports : Nat := 0
deriving DecidableEq, Repr

/-- A product entry of GRIN. -/
structure GProd where
  type_ : Nat := 0
  model : Nat := 0
  left : Bool := false
  ch : Nat := 0
  lo : Rat := 0
  hi : Rat := 0
  param : Rat := 0
deriving DecidableEq, Repr

/-- The GRIN section as loaded (R329). -/
structure GrinSec where
  x0 : Rat := 0
  headerW : Rat := 0
  cbX : Rat := 0
  cbY : Rat := 0
  blindMin : Nat := 0
  gqRate : Nat := 1
  gqAvg : Nat := 1
  ports : List GPort := []
  chans : List GChan := []
  models : List GModel := []
  prods : List GProd := []
deriving DecidableEq, Repr

/-- A sample under reassembly (R432): its port and SEQ, when its first segment came, its segments, and the length that the LAST one
gives. -/
structure Asm where
  port : Nat
  seq : Nat
  start : Nat
  segs : List (Nat × List Byte) := []
  len : Option Nat := none
deriving DecidableEq, Repr

/-- What ingest keeps of a port (R300–R303): the last SEQ, the last accepted sample, the drops of R300 of the last second, the
verdicts of R302 of the last second, the first frame's arrival, the last intrinsic record's arrival and serial. -/
structure PortSt where
  lastSeq : Option Nat := none
  lastOk : Nat := 0
  drops : List Nat := []
  syncs : List (Nat × Bool) := []
  frameAt : Option Nat := none
  intrAt : Option Nat := none
  serial : List Byte := []
deriving DecidableEq, Repr

/-- An accepted sample that waits for its gather: its port, and the stamps of what lies in the window — one frame's, or the block's
points'. -/
structure Sample where
  port : Nat
  tg : Nat
  stamps : List Nat
deriving DecidableEq, Repr

/-- One Grind from its instant to its publication: its instant and period, the own plane's features (R299) once they are complete,
the sequence number of its status frame (R320), and what has come of the sibling's plane. -/
structure Cycle where
  tg : Nat
  period : Nat
  closed : Bool := false
  own : Memory := []
  seq : Nat := 0
  sibSeq : Option Nat := none
  sibPorts : List Nat := []
  sibMres : List Nat := []
  sib : Memory := []
  got : List Nat := []
deriving DecidableEq, Repr

/-- A grain-quality analysis (R325). -/
structure Grain where
  at_ : Nat
  sib : Bool
  port : Nat
  damage : Rat
  trash : Rat
deriving DecidableEq, Repr

/-- The sensor plane and the Grind of a half, beside its registers. `since` tells, for each grade 1–4, since when the conditions have
allowed it (R327). `unpub` counts the instants since the last publication, `pubRun` the publications of consecutive instants (R101). `edge` holds the angle (rad) and the valid length (m) of each EDGE product, in
product order (R323). -/
structure Grind where
  sec : Option GrinSec := none
  asm : List Asm := []
  port : NMap PortSt := []
  gather : List Sample := []
  cycles : List Cycle := []
  sibPorts : Option (List Nat) := none
  sibMres : List Nat := []
  missing : Bool := true
  unpub : Nat := 0
  pubRun : Nat := 0
  buf : Nat := 0
  pubAt : Nat := 0
  pubTg : Nat := 0
  since : List (Option Nat) := [none, none, none, none]
  grain : List Grain := []
  late : List Nat := []
  edge : List (Rat × Rat) := []
deriving DecidableEq, Repr

/-- A detection of the OBSTACLE head or of the late path (R337, R342), in the odometry frame (mm), with the standard deviations of its
position, its class, its score in per cent, its size in cm and its source bits. -/
structure Det where
  x : Int
  y : Int
  sx : Nat
  sy : Nat
  cls : Nat
  score : Nat
  len : Nat
  wid : Nat
  hgt : Nat
  src : Nat
deriving DecidableEq, Repr

/-- One axis of a constant-velocity filter (R338): position, velocity, and their variances and covariance (mm, mm/s). -/
structure Axis where
  p : Rat := 0
  v : Rat := 0
  pp : Rat := 0
  pv : Rat := 0
  vv : Rat := 0
deriving DecidableEq, Repr

/-- A track (R336). `hist` holds the classes of the last 8 associated detections, `hitCyc` the cycles of its hits. -/
structure Track where
  id : Nat := 0
  state : Nat := 0
  ignored : Bool := false
  oos : Bool := false
  cls : Nat := 0
  hist : List Nat := []
  hits : Nat := 0
  misses : Nat := 0
  stop : Nat := 0
  kind : Nat := 0
  tUpd : Nat := 0
  x : Axis := {}
  y : Axis := {}
  len : Nat := 0
  wid : Nat := 0
  hgt : Nat := 0
  ttc : Nat := 0xFFFF
  dPath : Int := 0
  along : Int := 0
  tBirth : Nat := 0
  sense : Nat := 0
  hitCyc : List Nat := []
deriving DecidableEq, Repr

/-- A kept contribution (R346): kind, class, until when. -/
structure Held where
  kind : Nat
  cls : Nat
  until_ : Nat
deriving DecidableEq, Repr

/-- The track store a half holds: its tracks by slot, the next ID, the kept contributions, and, for each kind and level 1 and 2, the
last instant at which it was contributed (R345). `veh` is the vehicle's pose in the odometry frame: mm, mm, milliradians. -/
structure Tracks where
  slot : NMap Track := []
  next : Nat := 1
  held : List Held := []
  lastC : List (Option Nat) := [none, none, none, none]
  veh : Int × Int × Int := (0, 0, 0)
  latch : List Byte := []
  buf : Nat := 0
deriving DecidableEq, Repr

end Sys2Proof.Machine
end

