-- ==== Sys2Proof/Machine/Types/Opt.lean ====
section
/-!
DEFINITION. The setting optimizer (chapter 05 of the spec) and the verdict of a Roast's verification (chapter 02).
-/
namespace Sys2Proof.Machine

/-- A variable entry of OPTM (R179). `kind`: 0 SETTING, 1 THROUGHPUT, 2 FF_ONLY. -/
structure OVar where
  mf : Nat := 0
  kind : Nat := 0
  dither : Bool := false
  retreat : Bool := false
  assist : Bool := false
  tPa : Nat := 0
  lo : Rat := 0
  hi : Rat := 0
  step : Rat := 1
  r : Rat := 1
  dithAmp : Rat := 0
  dithHold : Nat := 1
  retreatUp : Bool := false
  latDecl : Nat := 0
  assistBand : Rat := 0
deriving DecidableEq, Repr

/-- An outcome entry of OPTM. -/
structure OOut where
  type_ : Nat := 0
  avg : Nat := 1
  ref : Nat := 0
  feedDelay : Nat := 0
  learn : Bool := false
  mask : Nat := 0
  w : Rat := 0
  param : Rat := 0
deriving DecidableEq, Repr

/-- A constraint entry of OPTM. -/
structure OCon where
  a : Nat := 0
  b : Nat := 0xFF
  ge : Bool := false
  prio : Nat := 0
  tgt : Nat := 0
  cb : Rat := 0
  limit : Rat := 0
  tgtMax : Rat := 0
deriving DecidableEq, Repr

/-- A crop profile of OPTM: GRAIN_FRAC, P0, the default set-points, and a row of THETA per outcome (R156's order). -/
structure OProf where
  grainFrac : Rat := 0
  p0 : Rat := 1
  dflt : List Rat := []
  theta : List (List Rat) := []
deriving DecidableEq, Repr

/-- The OPTM section as loaded (R179). -/
structure OptmSec where
  vars : List OVar := []
  outs : List OOut := []
  cons : List OCon := []
  stateMask : Nat := 0
  modeDef : Nat := 0
  lambda : Rat := 1
  pMax : Rat := 1
  horizon : Rat := 2
  wThru : Rat := 0
  feedRef : Nat := 0
  biomassRef : Nat := 0
  retreatN : Nat := 1
  profDef : Nat := 0
  dithMargin : Nat := 0
  headerW : Rat := 1
  holdAge : Nat := 0
  feedRefDelay : Nat := 0
  delay : List (List Nat) := []
  profs : List OProf := []
deriving DecidableEq, Repr

/-- What the solver ends a solve with (R159): the result code of its own run, its iterations, its duration (µs), its step Δx, the
multipliers of the constraints at the optimum, and for each class dropped (and for the last set, where that is infeasible) the
multipliers that show the set infeasible. -/
structure OptSol where
  res : Nat
  iter : Nat
  us : Nat
  dx : List Rat
  mu : List Rat
  farkas : List (List Rat)
deriving DecidableEq, Repr

/-- A point of the 60 s history at 50 Hz (R155): its instant, F_hdr, the ground speed and the variables' process values; which of them
were GOOD, and whether no variable's function was under lines 1–7 of R139 (R169). -/
structure OHist where
  t : Nat
  f : Rat
  v : Rat
  pv : List Rat
  fOk : Bool
  pvOk : List Bool
  clear : Bool
deriving DecidableEq, Repr

/-- An outcome's learning: its θ row, its P matrix, its samples of the last solves, newest first, with whether each was GOOD, the
squared errors of its last 50 accepted samples, and its run of discards (R167–R169). -/
structure OLearn where
  theta : List Rat := []
  p : List (List Rat) := []
  samples : List (Rat × Bool) := []
  errs : List Rat := []
  discards : Nat := 0
deriving DecidableEq, Repr

/-- The model saved at shutdown (R171): its profile, its stamp (ns), c, θ and P. -/
structure OSaved where
  prof : Nat := 0
  at_ : Nat := 0
  c : Rat := 1
  theta : List (List Rat) := []
  p : List (List (List Rat)) := []
deriving DecidableEq, Repr

/-- The optimizer of a half (R154–R178), mirrored in class M2: the section, the grain correction, the outcomes' learning, the history,
the set-points that the optimizer has in force (dither excluded), the ground speed and the feed-forward of the look-ahead, the mode
in force (a written one waits for the next solve), the dither's registers, whether its offsets are applied and when its conditions last
failed, the run of fallbacks, whether the last one followed a feasible solve and a relaxation an OK one, the run of feasible solves (R101), whether the next solve ends
IDLE and whether none has run since Bloom, and the saved model of the flash (R171). -/
structure Optim where
  sec : Option OptmSec := none
  c : Rat := 1
  learn : List OLearn := []
  hist : List OHist := []
  sp : List (Option Rat) := []
  vsp : Rat := 0
  ff : List Rat := []
  mode : Nat := 0
  lfsr : List Nat := []
  dithOn : Bool := false
  dithBadAt : Nat := 0
  fails : Nat := 0
  relaxed : Bool := false
  okRun : Nat := 0
  idle : Bool := true
  first : Bool := true
  saved : Option OSaved := none
deriving DecidableEq, Repr

/-- The result of a Roast's verification (R71): the result code, the section code and the entry index of R588 where it names them. -/
structure Verdict where
  res : Nat := 0
  sec : Nat := 0xFF
  idx : Nat := 0xFFFF
deriving DecidableEq, Repr

end Sys2Proof.Machine
end

