-- ==== Sys2Proof/Machine/Types/Upd.lean ====
section
/-!
DEFINITION. Update regions, sessions and the key store: chapter 18 of the spec.
-/
namespace Sys2Proof.Machine

/-- A registered key or anchor (R509, R510). `kind`: 1 image key, 2 OEM key, 3 fleet anchor, 4 service anchor, 5 debug key; the bytes of
the key, or of the certificate for an anchor. -/
structure KeyEnt where
  kind : Nat
  id : Nat
  usage : Nat
  key : List Byte
deriving DecidableEq, Repr

/-- The vault of a half's key store (R509): the root key that the digest of the one-time store stands for, the cartridge's serial, the
subject serialNumber of its device certificate, the registered keys in slot order, the revocation list, and the floors by region. -/
structure Vault where
  root : Option (List Byte) := none
  serial : List Byte := []
  certDev : List Byte := []
  keys : List KeyEnt := []
  revoked : List (Nat × Nat) := []
  floors : NMap Nat := []
deriving DecidableEq, Repr

/-- A region of a half's flash (R494, R500): its bytes, the length of the image, and what UPD_REGION and UPD_VER show of it. -/
structure Region where
  img : Memory := []
  len : Nat := 0
  valid : Bool := false
  restored : Bool := false
  rb : Nat := 0
  ver : Nat := 0
deriving DecidableEq, Repr

/-- A session (R496–R504): the source identity, the session number, the OPEN length, the indices written, the last request, and
whether Ahnyel opened it with a technician token (R73). -/
structure Session where
  source : Nat
  no : Nat
  len : Nat
  written : List Nat := []
  at_ : Nat := 0
  tech : Bool := false
deriving DecidableEq, Repr

/-- The parameters of an OPEN from the network (R496, R497): the source's tag, the image length, and whether Ahnyel opens it with a
technician token (R73). -/
structure UpdOpen where
  tag : Nat
  len : Nat
  tech : Bool
deriving DecidableEq, Repr

/-- The update and key state of a half. A restarted half waits until no other session is in transfer (R503): `restart`. `dbg` is the open
debug port: its scope and NOT_AFTER (R511). -/
structure Upd where
  vault : Vault := {}
  region : NMap Region := []
  sess : NMap Session := []
  restart : Bool := false
  nonce : Nat := 0
  dbg : Option (Nat × Nat) := none
deriving DecidableEq, Repr

/-- What another cartridge brings: its Roast slots, its regions and keys, its stored time, its Cupping records (key and word). -/
structure Cartridge where
  roast : Roasts
  upd : Upd
  stored : Nat
  cup : List (Nat × Word)
deriving DecidableEq, Repr

end Sys2Proof.Machine
end

