-- ==== Sys2Proof/Syntax.lean ====
section
/-!
DEFINITION. The commands of the module: one constructor per row of the opcode table, in its order. The operands name the half, the
initiator (OWN_VIOL.INIT) and the value of a register write, the unit a happening concerns, and what that unit measured or received. The
meanings' docstrings say what each operand is.
-/
namespace Sys2Proof

open Sys2Proof.Machine

/-- A command (an access to a register, a frame, a pin, an instant at which a unit acts). -/
inductive Instr where
  /-- REGISTER_WRITE (R16): A write to a register that has no row of its own retires at the island boundary FIFO, or stalls the initiator
  while that FIFO holds 8 posted writes. -/
  | registerWrite (h : Half) (init : Nat) (addr : Nat) (v : Nat)
  /-- WRITE_TAKES_EFFECT (R20): A posted write takes effect at its target; a write to a backplane object is checked against the token at
  that moment and is ignored with EVT_OWN_VIOLATION if the half does not own it. -/
  | writeTakesEffect (h : Half) (init : Nat)
  /-- READ_TIMEOUT (R19): A read that gets no answer within 20 µs completes with a bus error and returns 0. -/
  | readTimeout (h : Half) (init : Nat) (addr : Nat)
  /-- BUS_ERROR_ACCESS (R584): An access outside the mapped blocks, or one that is not an aligned 32-bit transfer, completes with a bus
  error, returns 0 and writes nothing. -/
  | busErrorAccess (h : Half) (init : Nat) (addr : Nat) (size : Nat)
  /-- SELECT_WRITE (R583): A write to a select register sets the initiator's select value; a value beyond the range is held and raises
  EVT_SEL_RANGE. -/
  | selectWrite (h : Half) (init : Nat) (blk : Nat) (v : Nat)
  /-- CLAIM (R27): OWN_CMD CLAIM moves an ORPHAN token to CLAIMING, refuses a token that the sibling owns, and resolves simultaneous
  claims under R31. -/
  | claim (h : Half) (k : Nat)
  /-- CLAIM_COMPLETE (R27): A CLAIMING token passes to the claiming half's OWNED state. -/
  | claimComplete (k : Nat)
  /-- RELEASE (R27): OWN_CMD RELEASE by the owner moves the token to ORPHAN and starts its orphan timer. -/
  | release (h : Half) (k : Nat)
  /-- HANDOVER (R27): OWN_CMD HANDOVER passes an owned token through CLAIMING to the sibling when the sibling is alive and has ACCEPT set,
  and is refused otherwise. -/
  | handover (h : Half) (k : Nat)
  /-- HANDOVER_COMPLETE (R27): A handed-over token reaches the sibling's OWNED state and EVT_OWN_HANDOVER is raised in both halves. -/
  | handoverComplete (k : Nat)
  /-- CLAIM_ALL (R29): OWN_CMD CLAIM_ALL claims every token that is ORPHAN when the operation starts, within 100 µs. -/
  | claimAll (h : Half)
  /-- HANDOVER_ALL (R29): OWN_CMD HANDOVER_ALL hands every token the half owns to its sibling within 200 µs. -/
  | handoverAll (h : Half)
  /-- SERVER_REQUEST (R32): OWN_CTRL.SERVER_REQ asks for SERVER, which the arbiter grants only under the conditions of R32. -/
  | serverRequest (h : Half)
  /-- ORPHAN_T_WRITE (R30): A write of OWN_ORPHAN_T within 2–300 applies at once to every running orphan timer, which expires at the
  change if its time is already reached. -/
  | orphanTWrite (h : Half) (init : Nat) (v : Nat)
  /-- ORPHAN_TIMER_EXPIRY (R30): An orphan timer reaches ORPHAN_T; the object enters its Green state and EVT_OWN_GREEN is raised. -/
  | orphanTimerExpiry (k : Nat)
  /-- OWNER_ALIVE_LOW_TIMEOUT (R27): An owner's alive line has been low for 20 µs and its OWNED tokens go to ORPHAN. -/
  | ownerAliveLowTimeout (h : Half)
  /-- ALIVE_LINE_FALL (R33): A half's alive line falls; the arbiter ignores its writes, its SERVER clears, its SOR objects enter Green and
  its tokens become ORPHAN. -/
  | aliveLineFall (h : Half) (c : LowCause)
  /-- ALIVE_LINE_RISE (R95): A half's alive line rises at reset release and the sibling suspends heartbeat-loss evaluation until its first
  valid HB frame. -/
  | aliveLineRise (h : Half) (c : LowCause)
  /-- HARDWARE_CLAIM_ALL (R33): The survivor's Crossing endpoint issues CLAIM_ALL for exactly the tokens that the fall made ORPHAN, as
  soon as they have entered ORPHAN. -/
  | hardwareClaimAll (h : Half)
  /-- TAKEOVER_COMPLETE (R33): The hardware CLAIM_ALL completes and EVT_OWN_TAKEOVER is raised in the surviving half. -/
  | takeoverComplete (h : Half)
  /-- HEARTBEAT_PERMIT_LAPSE (R26): The heartbeat permit has not been refreshed for 300 µs and the half fences itself. -/
  | heartbeatPermitLapse (h : Half)
  /-- STEWARD_PERMIT_CONTRIBUTION (R458): At each 100 µs multiple the Steward refreshes the heartbeat permit, unless a 1 kHz output
  deadline has been missed. -/
  | stewardPermitContribution (h : Half)
  /-- PERMIT_JOIN_TIMEOUT (R94): A real-time pair has not joined the permit within 1.0 s of start, so the permit lapses and the half
  fences. -/
  | permitJoinTimeout (h : Half)
  /-- SELF_FENCE (R463): A half that reads SELF_ALIVE low with no cause of R25 stops writing, raises EVT_AVL_SELF_FENCE and resets. -/
  | selfFence (h : Half)
  /-- ARBITER_ROUND_START (R46): A nested arbiter starts a round and gives each input a credit equal to its active leaf requesters. -/
  | arbiterRoundStart (a : Nat)
  /-- CROSSING_LANE_CHANGE (R35): A Crossing lane goes down or comes back; traffic continues on the remaining lane and EVT_XNG_LANE is
  raised. -/
  | crossingLaneChange (h : Half) (lane : Nat) (dir : Nat) (up : Bool)
  /-- CROSSING_FRAME_RECEIVED (R36): A Crossing frame arrives; it is dropped on a CRC failure, and a retransmission is requested for MIR,
  MSG, FEA and BLK. -/
  | crossingFrameReceived (h : Half) (ty : Nat) (seq : Nat) (len : Nat) (crcOk : Bool)
  /-- RETRANSMISSION_REQUEST (R36): A request for a frame by type and sequence number starts its retransmission within 10 µs. -/
  | retransmissionRequest (h : Half) (ty : Nat) (seq : Nat)
  /-- HB_FRAME_SEND (R38): Every 100 µs while the permit is valid, the endpoint samples the half's state and sends an HB frame. -/
  | hbFrameSend (h : Half)
  /-- HB_FRAME_RECEIVED (R38): A valid HB frame updates XNG_SIB_STATE, GRADE, OWNED and ROAST0–1 together and restarts the miss window. -/
  | hbFrameReceived (h : Half)
  /-- HB_WINDOW_EXPIRY (R39): A 100 µs window ends without a valid HB frame; the miss count rises and five consecutive misses are
  heartbeat loss. -/
  | hbWindowExpiry (h : Half)
  /-- HEARTBEAT_LOSS_SAMPLE (R39): After sampling the sibling's alive line for 20 µs, the endpoint either confirms the takeover or
  declares the Crossing faulty. -/
  | heartbeatLossSample (h : Half)
  /-- CROSSING_UP (R42): The Crossing reaches UP; each mirror class is resent in full, the split store is discarded and EVT_XNG_UP is
  raised. -/
  | crossingUp (h : Half)
  /-- XNG_ENABLE (R590): A write of XNG_CTRL.EN stops both directions of the endpoint when cleared, and restores the Crossing when set. -/
  | xngEnable (h : Half) (init : Nat) (v : Nat)
  /-- XNG_LOOPBACK (R590): A write of XNG_CTRL.LOOPBACK, honoured only in SERVICE, turns the transmit lanes back to the half's own
  receivers, or ends this. -/
  | xngLoopback (h : Half) (init : Nat) (v : Nat)
  /-- XNG_CLR_CNT (R49): XNG_CTRL.CLR_CNT clears XNG_ERR_CNT. -/
  | xngClrCnt (h : Half) (init : Nat)
  /-- TSY_EXCHANGE (R43): A TSY stamp exchange corrects the non-serving half's counter and updates XNG_TSYNC_OFS and TSYNC_OK. -/
  | tsyExchange (h : Half) (t1 : Int) (t2 : Int) (t3 : Int) (t4 : Int)
  /-- TSYNC_TIMEOUT (R44): No TSY exchange has completed for 10 ms, so TSYNC_OK clears and EVT_XNG_TSYNC is raised. -/
  | tsyncTimeout (h : Half)
  /-- MIRROR_RECORD_RECEIVED (R459): A MIR frame is taken if the digest prefixes match, and the newest complete record of each function is
  kept. -/
  | mirrorRecordReceived (h : Half) (k : Nat) (n : Nat) (full : Bool)
  /-- MIRROR_LAG_EXCEEDED (R45): A mirror class exceeds its lag bound, sets its XNG_MIR_STAT bit and raises EVT_XNG_MIRROR_LAG. -/
  | mirrorLagExceeded (h : Half) (k : Nat)
  /-- BACKPLANE_POWER_ON (R91): The backplane powers up, sets every token ORPHAN with its timer expired, and runs the Green sequencers
  from the Green shadow in the order of R91. -/
  | backplanePowerOn (t1 : Bool) (t0 : Bool) (tiles : Nat)
  /-- LOGIC_IN_VALID (R89): LOGIC_IN has stood at or above 8.0 V for 2 ms and becomes valid, which is the reference instant for the start
  bounds. -/
  | logicInValid (v : Nat)
  /-- HALF_RESET_RELEASE (R93): A half's reset is released and its Green sequencer brings up the supply and clock, loads the CUP records
  and releases the Steward. -/
  | halfResetRelease (h : Half)
  /-- BLOOM (R97): After Green the half runs the Bloom steps: boot verification, Crossing training, Roast verification, section load,
  claims and loop start. -/
  | bloom (h : Half) (k : Nat)
  /-- ROAST_SIBLING_FETCH (R76): A standby half with an invalid ACTIVE Roast fetches the serving sibling's Roast as BLK frames, verifies
  it and restarts. -/
  | roastSiblingFetch (h : Half) (pending : Bool)
  /-- ROAST_ACTIVATE_REQUEST (R79): An activation request is checked against its preconditions and, if accepted, runs the steps of R81. -/
  | roastActivateRequest (h : Half) (k : Nat)
  /-- POUR_ENTRY (R101): PERC_OK, POS_OK and OPT_OK have been set together for 2 s and the half enters Pour. -/
  | pourEntry (h : Half)
  /-- POUR_EXIT (R101): A Pour flag has been clear for 5 s and the half returns to Bloom, raising EVT_STAGE. -/
  | pourExit (h : Half)
  /-- KEY_IN_ON (R104): KEY_IN has read on for 10 ms and goes on. -/
  | keyInOn
  /-- KEY_IN_OFF (R104): KEY_IN has read off for 100 ms and goes off. -/
  | keyInOff
  /-- SHUTDOWN (R105): From KEY_IN off the half freezes transitions, drives outputs to Green, saves state, releases its tokens and goes to
  Cupping. -/
  | shutdown (h : Half) (k : Nat) (c : CupCond)
  /-- PWR_HOLD_STARTUP_EXPIRY (R102): 5 s after LOGIC_IN valid, the start-up reason for holding PWR_HOLD ends. -/
  | pwrHoldStartupExpiry
  /-- PWR_HOLD_FORCED_RELEASE (R103): 30 s after KEY_IN off, PWR_HOLD is released whatever the hold requests say, and FORCED is set. -/
  | pwrHoldForcedRelease
  /-- SECRET_CLEAR_DONE (R112): Secret clearing completes, CLEAR_DONE sets and scan is enabled. -/
  | secretClearDone (h : Half)
  /-- SECRET_CLEAR_TIMEOUT (R112): CLEAR_DONE is not set within 300 ms and all islands are recorded SKIPPED with SECRET. -/
  | secretClearTimeout (h : Half)
  /-- ISLAND_TEST_END (R116): An island's test ends and it receives PASS, FAIL or INCOMPLETE from the count, END and MISR. -/
  | islandTestEnd (h : Half) (n : Nat) (m : CupMeas)
  /-- ISLAND_CONDITION_FAIL (R111): Supply, clock or temperature leaves its range, so the island under test is stopped INCOMPLETE or a
  later one is SKIPPED. -/
  | islandConditionFail (h : Half) (n : Nat) (reason : Nat) (m : CupMeas)
  /-- CUPPING_BUDGET_EXPIRY (R116): The 7 s Cupping budget runs out and the test in progress is recorded INCOMPLETE with BUDGET. -/
  | cuppingBudgetExpiry (h : Half) (ms : List CupMeas)
  /-- CUPPING_RECORDS_WRITTEN (R105): The Cupping records are written, HOLD_REQ is cleared and the half is held in reset. -/
  | cuppingRecordsWritten (h : Half) (energy : Nat)
  /-- WAKE_REQUEST (R117): A wake request stops Cupping within 2 ms, resets the islands, writes WAKE records and restarts the half. -/
  | wakeRequest (h : Half) (can : Option Nat) (ms : List CupMeas)
  /-- CUP_ACK (R120): CUP_ACK acknowledges the FAIL report and clears CUP_REPORT. -/
  | cupAck (h : Half) (init : Nat)
  /-- SET_STATE_REQUEST (R126): A write of SET_STATE_REQ requests an operating-state transition, which is taken or refused under R127. -/
  | setStateRequest (h : Half) (init : Nat) (dst : Nat)
  /-- AUTO_TRANSITION (R126): An automatic entry's guard has been true for 200 ms in its FROM state and the transition is taken. -/
  | autoTransition (h : Half) (x : Nat)
  /-- EXECUTOR_CYCLE (R133): A rate-class cycle starts and each function reads inputs, takes its set-point, applies overrides, computes
  its law and writes its objects. -/
  | executorCycle (h : Half) (rate : Nat) (spread : Nat) (late : List Nat)
  /-- CYCLE_OVERRUN (R134): A function's outputs are not written within its class bound; the cycle is abandoned and EVT_SET_OVERRUN is
  raised. -/
  | cycleOverrun (h : Half) (n : Nat)
  /-- INTERLOCK_RELEASE (R138): An interlock's condition has been false for 200 ms and the interlock releases. -/
  | interlockRelease (h : Half) (n : Nat) (x : Nat)
  /-- CONFLICT_HOLD_EXPIRY (R139): A conflict HOLD reaches HOLD_T and the function goes to MANUAL. -/
  | conflictHoldExpiry (h : Half) (n : Nat)
  /-- SEQ_STEP_TIMEOUT (R135): A STATE or SEQ entry reaches its TIMEOUT and moves to ON_TO, raising EVT_SET_SEQ_TIMEOUT for a SEQ. -/
  | seqStepTimeout (h : Half) (n : Nat)
  /-- PAIR_RELEASE_TIMEOUT (R144): 30 ms pass without a release report from the off side of a pair, so it is treated as released. -/
  | pairReleaseTimeout (h : Half) (n : Nat)
  /-- MF_MANUAL (R140): A write of SET_MF_CMD.MANUAL, honoured only with MAN_OK, puts the function into or out of operator manual. -/
  | mfManual (h : Half) (init : Nat) (n : Nat) (on : Bool)
  /-- MF_SEQ_START (R135): SET_MF_CMD.START starts a SEQ at step 0. -/
  | mfSeqStart (h : Half) (init : Nat) (n : Nat)
  /-- MF_SEQ_STEP (R135): SET_MF_CMD.STEP satisfies a COND 3 condition. -/
  | mfSeqStep (h : Half) (init : Nat) (n : Nat)
  /-- MF_SEQ_ABORT (R135): SET_MF_CMD.ABORT ends a SEQ at once and holds the present output. -/
  | mfSeqAbort (h : Half) (init : Nat) (n : Nat)
  /-- SET_CLR_CNT (R134): SET_CTRL.CLR_CNT clears the overrun counts and jitter maxima. -/
  | setClrCnt (h : Half) (init : Nat)
  /-- STEER_ENGAGE (R150): SET_STEER_CTRL.ENGAGE engages steering only while every condition of R150 holds. -/
  | steerEngage (h : Half) (init : Nat)
  /-- STEER_DISENGAGE (R151): SET_STEER_CTRL.DISENGAGE releases steering with reason OPERATOR. -/
  | steerDisengage (h : Half) (init : Nat)
  /-- STEER_RELEASE_TIMEOUT (R151): Position below POS_MIN for 1 s or speed out of range for 0.5 s releases steering. -/
  | steerReleaseTimeout (h : Half)
  /-- STEER_ACK (R152): SET_STEER_CTRL.ACK acknowledges the audible request. -/
  | steerAck (h : Half) (init : Nat)
  /-- STEER_PASS_SELECT (R149): A write of SET_STEER_CTRL.PASS selects the pass that steering follows. -/
  | steerPassSelect (h : Half) (init : Nat) (v : Nat)
  /-- ALERT_MIN_EXPIRY (R152): The audible request has run for ALERT_MS, so it may end on operator action or ACK. -/
  | alertMinExpiry (h : Half)
  /-- LINE_LOAD (R148): SET_LINE_CMD.LOAD copies and checks a line record into a slot. -/
  | lineLoad (h : Half) (init : Nat) (k : Nat)
  /-- LINE_LOAD_COMPLETE (R148): A line load ends within 5 ms and its result is set in SET_LINE_STAT. -/
  | lineLoadComplete (h : Half)
  /-- LINE_CLEAR (R148): SET_LINE_CMD.CLEAR empties a line slot. -/
  | lineClear (h : Half) (init : Nat) (k : Nat)
  /-- OPT_SOLVE (R161): At each 200 ms multiple the optimizer updates the crop model, solves the setting problem and writes the set-
  points. -/
  | optSolve (h : Half) (sol : OptSol)
  /-- DITHER_STEP (R172): Every DITH_HOLD × 200 ms each dithered variable steps its LFSR and takes the sign of its offset. -/
  | ditherStep (h : Half) (x : Nat)
  /-- LOOKAHEAD_UPDATE (R175): At every 20 ms boundary the feed-forward terms and the ground-speed set-point are recomputed. -/
  | lookaheadUpdate (h : Half)
  /-- OPT_MODE_WRITE (R165): A write of SET_OPT_CTRL.MODE selects ADVISE, ASSIST or AUTO from the next solve. -/
  | optModeWrite (h : Half) (init : Nat) (v : Nat)
  /-- OPT_PROFILE_WRITE (R170): A write of SET_OPT_CTRL.PROFILE changes the crop profile and re-initialises the model. -/
  | optProfileWrite (h : Half) (init : Nat) (v : Nat)
  /-- OPT_RESET_MODEL (R170): SET_OPT_CTRL.RESET_MODEL re-initialises θ, P and c from the active profile. -/
  | optResetModel (h : Half) (init : Nat)
  /-- OPT_TARGET_WRITE (R166): A write of an operator target or PREF is clamped to its range and replaces the matching bound or limit. -/
  | optTargetWrite (h : Half) (init : Nat) (which : Nat) (v : Nat)
  /-- VLV_COMMAND (R190): A write of VLV_CMD.ON sets the command level of a valve channel. -/
  | vlvCommand (h : Half) (init : Nat) (on : Bool)
  /-- VLV_SETPOINT_WRITE (R194): A write of VLV_SETPOINT sets the set-point, which an SP operand tracks within one tick. -/
  | vlvSetpointWrite (h : Half) (init : Nat) (v : Nat)
  /-- VLV_CLR_FAULT (R211): VLV_CMD.CLR_FAULT with the command OFF clears the channel's fault. -/
  | vlvClrFault (h : Half) (init : Nat)
  /-- VLV_KNOCK (R213): VLV_CMD.KNOCK stops the engine within 50 µs, turns the channel off and sets KNOCKED. -/
  | vlvKnock (h : Half) (init : Nat)
  /-- VLV_CLR_CNT (R219): VLV_CTRL.CLR_CNT clears the VLV_CNT registers of the tile. -/
  | vlvClrCnt (h : Half) (init : Nat)
  /-- ENGINE_START (R191): A halted engine with command ON and KNOCKED clear starts at ENTRY or HOLD_ENTRY and clears its counters and
  flags. -/
  | engineStart (ch : Nat)
  /-- HALT (R195): Instruction HALT turns the channel off with the phase's mode and stops the engine. -/
  | halt (ch : Nat)
  /-- PHASE (R201): Instruction PHASE enters a phase with its turn-off mode and applies a pending band. -/
  | phase (ch : Nat)
  /-- SRC (R207): Instruction SRC selects NONE, BATT or BOOST, subject to bank admission. -/
  | src (ch : Nat)
  /-- SETI (R195): Instruction SETI sets the current target. -/
  | seti (ch : Nat)
  /-- RAMP (R195): Instruction RAMP moves the target linearly to its operand over the named time. -/
  | ramp (ch : Nat)
  /-- WAIT (R192): Instruction WAIT waits the named time, ending early at a change of command level with BRK. -/
  | wait (ch : Nat)
  /-- WAIT_END (R192): A WAIT's time runs out or its BRK condition occurs and the engine continues. -/
  | waitEnd (ch : Nat)
  /-- WAITI (R195): Instruction WAITI waits for the current to cross a threshold, with a timeout. -/
  | waiti (ch : Nat)
  /-- WAITI_END (R196): A WAITI ends at the crossing, or at its timeout with TIMEOUT set. -/
  | waitiEnd (ch : Nat) (x : Nat)
  /-- WAITK (R195): Instruction WAITK waits for a pull-in or closing kink in its window. -/
  | waitk (ch : Nat)
  /-- PULL_KINK_CONFIRM (R202): A pull-in dip is confirmed, the wait ends and the turn-on travel report is sent. -/
  | pullKinkConfirm (ch : Nat) (k : Nat)
  /-- CLOSE_KINK_DETECT (R203): The closing-kink detector finds its slope step, the wait ends and the release report is sent. -/
  | closeKinkDetect (ch : Nat) (k : Nat)
  /-- KINK_WINDOW_CLOSE (R204): A WAITK window closes without a kink; NOKINK is set and a NOKINK report is sent. -/
  | kinkWindowClose (ch : Nat)
  /-- DITH (R197): Instruction DITH sets or continues the dither on the current target. -/
  | dith (ch : Nat)
  /-- PWMV (R195): Instruction PWMV drives the low side at a fixed duty in voltage mode. -/
  | pwmv (ch : Nat)
  /-- JMP (R195): Instruction JMP jumps. -/
  | jmp (ch : Nat)
  /-- JC (R196): Instruction JC jumps if its condition, inverted by NEG, is true. -/
  | jc (ch : Nat)
  /-- LOOP (R196): Instruction LOOP arms or decrements a counter and jumps while it is nonzero. -/
  | loop (ch : Nat)
  /-- EVT (R195): Instruction EVT writes its code to LAST_EVT and raises EVT_VLV_RECIPE. -/
  | evt (ch : Nat)
  /-- OFF (R195): Instruction OFF sets source NONE and target 0 and turns the channel off with its mode. -/
  | off (ch : Nat)
  /-- LDP (R195): Instruction LDP loads a working register from an operand or a measurement. -/
  | ldp (ch : Nat) (x : Nat) (v : Int)
  /-- MEAS (R195): Instruction MEAS snapshots the mean current and coil voltage into VLV_MEAS. -/
  | meas (ch : Nat) (x : Nat) (v : Int)
  /-- RECIPE_ILLEGAL (R211): A parity error, a reserved opcode or execution past the last word stops the engine with fault ILLEGAL. -/
  | recipeIllegal (ch : Nat) (parity : Bool)
  /-- RECIPE_LOCK_RELEASE (R188): The tile's load lock is released and a waiting half compares the tags again. -/
  | recipeLockRelease (t : Nat)
  /-- RECIPE_BANK_ACTIVATE (R188): A written bank becomes active once its tag differs and every channel is ORPHAN or owned by a half with
  that Roast. -/
  | recipeBankActivate (t : Nat)
  /-- COIL_ESTIMATE (R200): Every 10 ms in a stable HOLD phase the tile estimates coil temperature and marks a band change as pending. -/
  | coilEstimate (ch : Nat) (v : Nat) (x : Nat)
  /-- DUTY_EVALUATION (R205): Every 1 ms the tile evaluates D and sets or clears DUTY_LIM. -/
  | dutyEvaluation (ch : Nat) (x : Nat)
  /-- BOOST_RAIL_LOW (R184): The boost rail falls below 30 V, the bank moves to the feed within 1 µs and EVT_VLV_BOOST is raised. -/
  | boostRailLow (t : Nat) (v : Nat)
  /-- BOOST_RAIL_RECOVER (R184): The rail is back above 44 V and BOOST_OK sets. -/
  | boostRailRecover (t : Nat) (v : Nat)
  /-- BANK_ADMISSION (R207): Headroom or the boost source frees up and the bank's waiting requests are admitted in order of arrival. -/
  | bankAdmission (bank : Nat)
  /-- BANK_WAIT_TIMEOUT (R207): A request has waited 2 ms; BOOST is refused or the increase is partly admitted, and EVT_BANK_CONFLICT is
  raised. -/
  | bankWaitTimeout (ch : Nat)
  /-- TWIN_PARTNER_LOSS (R210): The partner's twin line has been low 5 µs, so the survivor takes scale 1.0 and sets TWIN_SOLO. -/
  | twinPartnerLoss (ch : Nat)
  /-- TWIN_PARTNER_RETURN (R210): A returning partner starts at HOLD_ENTRY with scale 0, and both scales merge to 0.5 over 10 ms after its
  HOLD phase. -/
  | twinPartnerReturn (ch : Nat)
  /-- VLV_SHORT (R211): Channel current at or above 14.0 A for 2 µs faults the channel off with CLAMP. -/
  | vlvShort (ch : Nat) (x : Nat)
  /-- VLV_OPEN_LOAD (R211): The OPEN condition holds over 5 ms and the channel faults off. -/
  | vlvOpenLoad (ch : Nat) (x : Nat)
  /-- VLV_OVERTEMP (R211): The tile junction reaches 150 °C and every channel of the tile goes off. -/
  | vlvOvertemp (t : Nat) (temp : Int)
  /-- VLV_HS_SHORT (R211): Bank current at or above 36.0 A for 2 µs opens Hn and turns its four channels off. -/
  | vlvHsShort (bank : Nat) (x : Nat)
  /-- TILE_ABSENT (R211): The tile presence pin opens and every channel of the tile goes off within 50 µs. -/
  | tileAbsent (t : Nat)
  /-- TILE_INSERT (R470): The tile presence pin closes and the tile ignores writes until it is ready. -/
  | tileInsert (t : Nat)
  /-- TILE_READY (R470): The rail is charged, the recipes are loaded and the calibration is in place, so owners rewrite their channels. -/
  | tileReady (t : Nat) (rail : Nat) (serial : List Byte) (cal : List (List Byte))
  /-- VLV_PROBE (R212): At its 2 s probe instant an idle channel is probed for continuity and set OPEN if none is found. -/
  | vlvProbe (ch : Nat) (continuity : Bool)
  /-- LSW_COMMAND (R238): A write of LSW_CMD.ON turns a switch on through WAIT or turns it off. -/
  | lswCommand (h : Half) (init : Nat) (on : Bool)
  /-- LSW_PROFILE (R238): A write of LSW_CMD.PROF sets the profile for the next turn-on. -/
  | lswProfile (h : Half) (init : Nat) (v : Nat)
  /-- LSW_CLR_FAULT (R228): LSW_CMD.CLR_FAULT with the command OFF clears FAULT and LOCKOUT. -/
  | lswClrFault (h : Half) (init : Nat)
  /-- LSW_KNOCK (R240): LSW_CMD.KNOCK turns the switch off within 50 µs, releases its claim and sets KNOCKED. -/
  | lswKnock (h : Half) (init : Nat)
  /-- LSW_CLR_CNT (R243): LSW_CTRL.CLR_CNT clears the bank's LSW_CNT registers. -/
  | lswClrCnt (h : Half) (init : Nat)
  /-- INRUSH_END (R224): The profile's INRUSH ends, the switch enters ON and its claim is released. -/
  | inrushEnd (n : Nat)
  /-- LSW_SHORT_TRIP (R226): Current above the short comparator trips the switch off and it goes to RETRY_WAIT or LOCKOUT. -/
  | lswShortTrip (n : Nat) (x : Nat)
  /-- LSW_OVERLOAD_TRIP (R224): Current above TRIP_PCT for TRIP_MS trips the switch off. -/
  | lswOverloadTrip (n : Nat) (x : Nat)
  /-- LSW_THERMAL_TRIP (R225): The junction reaches 165 °C, the switch latches off and EVT_LSW_LATCH is raised. -/
  | lswThermalTrip (n : Nat) (tj : Int)
  /-- THERMAL_LATCH_CLEAR (R228): The junction has been below T_REL for 1 s, so the latch clears to RETRY_WAIT, LOCKOUT, OFF or WAIT. -/
  | thermalLatchClear (n : Nat) (tj : Int)
  /-- RETRY_WAIT_EXPIRY (R227): RETRY_T has passed with the junction below T_REL, so the counter is decremented and the switch enters
  WAIT. -/
  | retryWaitExpiry (n : Nat) (tj : Int)
  /-- RETRY_COUNTER_RELOAD (R227): A switch has been in ON for 10 s and its retry counter is reloaded. -/
  | retryCounterReload (n : Nat)
  /-- FEED_BUDGET_GRANT (R231): Every 100 µs per feed the arbiter grants one request, which is admitted to INRUSH once its claim fits the
  budget. -/
  | feedBudgetGrant (f : Nat)
  /-- BUDGET_WAIT_LONG (R232): A claim has waited 1 s; WAIT_LONG is set and EVT_LSW_BUDGET is raised. -/
  | budgetWaitLong (n : Nat)
  /-- FEED_OVERLOAD (R234): A feed exceeds 60 A for 8 s or 80 A for 1 s and its SHED 3 switches turn off. -/
  | feedOverload (f : Nat) (x : Nat)
  /-- SHED_STEP (R234): The feed is still above 60 A 500 ms later and the next SHED class turns off. -/
  | shedStep (f : Nat) (x : Nat)
  /-- FEED_LOST (R235): A feed reads below 4.5 V for 1 ms; its switches go OFF with NO_FEED. -/
  | feedLost (f : Nat) (v : Nat)
  /-- FEED_RETURN (R235): A feed reads at least 8 V for 10 ms; NO_FEED clears and switches commanded ON enter WAIT. -/
  | feedReturn (f : Nat) (v : Nat)
  /-- OPEN_ON_DETECT (R236): A switch in ON has stayed below OL_ON for 200 ms and reports OPEN_ON, or has stayed at or above it for 200 ms
  and clears it. -/
  | openOnDetect (n : Nat) (x : Nat)
  /-- LSW_PROBE (R237): Every 1 s a switch in OFF is probed for open load and short to battery. -/
  | lswProbe (n : Nat) (vProbe : Nat) (vIdle : Nat)
  /-- LSW_BANK_PRESENCE (R244): A load-switch bank presence pin changes and EVT_LSW_BANK is raised. -/
  | lswBankPresence (b : Nat) (present : Bool)
  /-- INPUT_SAMPLE (R245): Every 100 µs all 128 inputs are sampled together and each bound input runs its chain. -/
  | inputSample (codes : List Nat) (vs : List Nat)
  /-- INPUT_EDGE (R245): A comparator edge on an input is captured against module time. -/
  | inputEdge (n : Nat) (level : Bool) (both : Bool)
  /-- QUALITY_CONDITION_TIMER (R252): A quality condition has held for its time, such as 10 ms for FAULT or T_OUT for STALE, so the
  quality is entered or cleared. -/
  | qualityConditionTimer (h : Half) (b : Nat) (q : Nat) (reason : Nat) (on : Bool)
  /-- STUCK_TIMEOUT (R253): The stuck clock reaches T_STUCK and the binding becomes STUCK. -/
  | stuckTimeout (h : Half) (b : Nat)
  /-- TWIN_DIVERGENCE_TIMEOUT (R257): A twin pair has diverged for TIME and both bindings take CONFLICT. -/
  | twinDivergenceTimeout (h : Half) (k : Nat)
  /-- TWIN_AGREEMENT_TIMEOUT (R257): A twin pair has agreed for TIME and CONFLICT clears on both. -/
  | twinAgreementTimeout (h : Half) (k : Nat)
  /-- UIN_KNOCK (R255): UIN_CMD.KNOCK stops any wire measurement, clears the filter state and sets STALE. -/
  | uinKnock (h : Half) (init : Nat)
  /-- UIN_PRESET (R249): UIN_CMD.PRESET loads UIN_PRESET into the quadrature count. -/
  | uinPreset (h : Half) (init : Nat)
  /-- UIN_CLR_CNT (R268): UIN_CTRL.CLR_CNT clears every UIN_CNT. -/
  | uinClrCnt (h : Half) (init : Nat)
  /-- SUPPLY_LIMIT_TRIP (R250): A sensor supply has been in current limit for 10 ms, turns off and sets FAULT. -/
  | supplyLimitTrip (n : Nat) (x : Nat)
  /-- SUPPLY_RETRY (R250): A faulted supply with RETRY tries again after 1 s. -/
  | supplyRetry (n : Nat) (limited : Bool)
  /-- SUPPLY_ENABLE (R250): A write of UIN_SS.EN by the owner of U8n turns the supply off or on. -/
  | supplyEnable (h : Half) (init : Nat) (en : Bool)
  /-- EXTERNAL_BINDING_WRITE (R256): A CANM signal or YILD entry writes an EXTERNAL binding, which runs steps 3–6 of the chain. -/
  | externalBindingWrite (h : Half) (b : Nat) (v : Nat)
  /-- LOSS_HIT (R261): The envelope rises through THR_HIT; over 250 µs P, R and Z are taken and the hit is classified GRAIN or TRASH. -/
  | lossHit (k : Nat) (peak : Nat) (r : Nat) (z : Nat) (stamp : Nat)
  /-- LOSS_WINDOW (R263): A 100 ms window ends and the element and zone counts are published with the window number. -/
  | lossWindow
  /-- LOSS_BIAS_CHECK (R264): Every 1 s each element's bias check finds it open, shorted or passing. -/
  | lossBiasCheck (k : Nat) (pass : Bool)
  /-- LOSS_SILENT_TIMEOUT (R264): An element records no hit for SILENT_S in HARVEST and becomes STUCK. -/
  | lossSilentTimeout (k : Nat)
  /-- LOS_CLS_WRITE (R262): A write of LOS_CTRL.CLS selects the classifier set from the next window. -/
  | losClsWrite (h : Half) (init : Nat) (v : Nat)
  /-- LOS_CLR_CNT (R269): LOS_CTRL.CLR_CNT clears LOS_TOTAL. -/
  | losClrCnt (h : Half) (init : Nat)
  /-- YIELD_CYCLE (R271): Every 100 ms the yield pipeline fuses flow, opens a slice, assigns mass and moisture and publishes completed
  tiles. -/
  | yieldCycle (h : Half)
  /-- YIELD_CROP_CHANGE (R283): A write of SET_YLD_CTRL.CROP changes the crop slot at the next cycle start. -/
  | yieldCropChange (h : Half) (v : Nat)
  /-- TANK_ZERO (R288): SET_YLD_CTRL.TANK_ZERO sets the tank estimate to 0. -/
  | tankZero (h : Half)
  /-- TOT_CLR (R288): SET_YLD_CTRL.TOT_CLR clears the four totals. -/
  | totClr (h : Half)
  /-- YLD_CAL_START (R291): CAL_START opens a calibration load, or is refused with EMPTY or BUSY. -/
  | yldCalStart (h : Half)
  /-- YLD_CAL_STOP (R291): CAL_STOP ends a load while nothing is cutting, or is refused with CUTTING. -/
  | yldCalStop (h : Half)
  /-- YLD_CAL_FLUSH_COMPLETE (R291): FLUSH_T plus D_FLOW have passed; the load publishes its mass and awaits the weight. -/
  | yldCalFlushComplete (h : Half)
  /-- YLD_CAL_WEIGHT (R292): A write of SET_YLD_CAL_WT in state 3 completes the load, which is stored or refused. -/
  | yldCalWeight (h : Half) (kg : Nat)
  /-- YLD_CAL_ABORT (R291): CAL_ABORT discards the open load. -/
  | yldCalAbort (h : Half)
  /-- YLD_CAL_COMMIT (R293): CAL_COMMIT computes new factors from the stored loads and writes them to the Ledger, or is refused. -/
  | yldCalCommit (h : Half) (init : Nat)
  /-- YLD_CAL_CLEAR (R293): CAL_CLEAR discards the stored loads of every slot. -/
  | yldCalClear (h : Half)
  /-- SENSOR_SEGMENT (R432): A segment frame of a sensor sample arrives on a sensor port and is reassembled into its sample. -/
  | sensorSegment (h : Half) (p : Nat) (seq : Nat) (ofs : Nat) (flags : Nat) (data : List Byte)
  /-- SAMPLE_REASSEMBLY_TIMEOUT (R432): A sample not covered within 10 ms of its first segment is dropped and counted. -/
  | sampleReassemblyTimeout (h : Half) (p : Nat) (seq : Nat)
  /-- SENSOR_SAMPLE (R300): A complete sensor sample is checked, assigned to its Grind window, or sent to the late path. -/
  | sensorSample (h : Half) (p : Nat) (bs : List Byte)
  /-- PORT_STATE_TIMER (R303): A port condition has held, or been absent for 2 s, and the port changes state with EVT_PRC_PORT. -/
  | portStateTimer (h : Half) (p : Nat) (blind : Bool)
  /-- GRIND_INSTANT (R304): A Grind instant closes a window and the half evaluates its grade. -/
  | grindInstant (h : Half)
  /-- GATHER_CLOSE (R305): 30 ms after t_g the gather closes and projection and feature extraction of the plane proceed. -/
  | gatherClose (h : Half) (feats : List (Nat × Nat)) (rate : Nat) (meas : Nat) (fill : Nat) (load : List Nat)
  /-- FEATURE_CHUNK_RECEIVED (R320): A status or chunk FEA frame of the sibling's plane is received for the cycle. -/
  | featureChunkReceived (h : Half) (seq : Nat)
  /-- GRIND_PUBLISH (R321): Fusion completes and the Grind and its products are published. -/
  | grindPublish (h : Half) (vals : List Nat) (profs : List (List Nat)) (edge : List (Rat × Rat))
  /-- GRIND_DEADLINE (R309): A Grind is not published within its bound, is abandoned and raises EVT_GRD_MISS. -/
  | grindDeadline (h : Half)
  /-- GRADE_RISE (R327): A higher grade's condition has held for 2 s and the grade rises with EVT_GRD_GRADE. -/
  | gradeRise (h : Half)
  /-- GRIND_RATE_CHANGE (R328): At the next 80 ms multiple after the ambient crosses +70 °C, the Grind rate changes and EVT_GRD_RATE is
  raised. -/
  | grindRateChange (h : Half)
  /-- PRODUCT_STALE (R323): A product has not been published for three Grind periods and becomes STALE. -/
  | productStale (h : Half)
  /-- MODEL_LOAD (R318): Once the application cluster runs, each GRIN model is verified, unwrapped and decrypted. -/
  | modelLoad (h : Half) (m : Nat)
  /-- MODEL_LOAD_COMPLETE (R319): A model's load ends and its result is set, raising EVT_FEA_MODEL on failure. -/
  | modelLoadComplete (h : Half) (m : Nat) (res : Nat)
  /-- GRAIN_ANALYSIS (R325): At GQ_RATE the half analyses a GRAIN_CAM frame for damage and trash. -/
  | grainAnalysis (h : Half) (p : Nat) (damage : Nat) (trash : Nat)
  /-- PRJ_KNOCK (R315): PRJ_KNOCK stops a projection pipeline within 50 µs and moves its work to the others. -/
  | prjKnock (h : Half) (init : Nat) (mask : Nat)
  /-- FEA_KNOCK (R317): FEA_KNOCK ends every job of a class within 2 ms and discards its outputs. -/
  | feaKnock (h : Half) (init : Nat) (mask : Nat) (jobs : List Nat)
  /-- PRJ_CLR_CNT (R331): PRJ_CTRL.CLR_CNT clears the PRJ_PORT counts. -/
  | prjClrCnt (h : Half) (init : Nat)
  /-- FEA_CLR_CNT (R332): FEA_CTRL.CLR_CNT clears FEA_CNT. -/
  | feaClrCnt (h : Half) (init : Nat)
  /-- GRD_CLR_CNT (R333): GRD_CTRL.CLR_CNT clears GRD_LATE, GRD_XTRAP, GRD_MISS and GRD_PUB.MAX. -/
  | grdClrCnt (h : Half) (init : Nat)
  /-- TRACK_CYCLE (R337): After each Grind publication the track unit associates detections, updates, births and deletes tracks and
  derives stop requests. -/
  | trackCycle (h : Half) (veh : Int × Int × Int) (dets : List Det)
  /-- LATE_DETECTION (R342): A late-path detection is applied out of sequence if it is at most 200 ms old. -/
  | lateDetection (h : Half) (stamp : Nat) (dets : List Det)
  /-- STOP_LEVEL_FALL (R345): A stop level has had no contribution for 1 s and falls, raising EVT_TRK_STOP. -/
  | stopLevelFall (h : Half) (k : Nat)
  /-- STOP_HOLD_EXPIRY (R346): The 2 s hold of a lost track's STOP contribution ends and HOLD clears. -/
  | stopHoldExpiry (h : Half)
  /-- TRACK_IGNORE (R349): TRK_CMD.IGNORE sets IGNORED on a track, or is refused for classes 0–2. -/
  | trackIgnore (h : Half) (init : Nat) (v : Nat)
  /-- TRK_CLR_CNT (R349): TRK_CTRL.CLR_CNT clears TRK_CNT. -/
  | trkClrCnt (h : Half) (init : Nat)
  /-- ANTENNA_STATE (R353): The antenna bias current has stood in a class for 100 ms and the antenna becomes OK, OPEN or SHORT with
  EVT_GNS_ANT. -/
  | antennaState (a : Nat) (x : Nat) (v : Nat)
  /-- ANTENNA_BIAS_RETRY (R353): Every 5 s a shorted antenna's bias is tried again. -/
  | antennaBiasRetry (a : Nat)
  /-- NOTCH_DETECT (R354): Every 1 ms the spectral detector places a notch on a strong narrowband component. -/
  | notchDetect (h : Half) (k : Nat) (hz : Int) (db : Nat)
  /-- NOTCH_RELEASE (R354): A notch's component has been below 10 dB for 1 s and the notch is released. -/
  | notchRelease (h : Half) (k : Nat) (n : Nat)
  /-- JAM_LEVEL (R355): The jamming indicator holds a threshold for its time and the chain's level changes with EVT_GNS_JAM. -/
  | jamLevel (h : Half) (k : Nat) (db : Nat) (agc : Nat)
  /-- ACQ_GO (R357): GNS_ACQ_CMD.GO starts an engine on its search table. -/
  | acqGo (h : Half) (init : Nat) (v : Nat)
  /-- ACQ_ENTRY_COMPLETE (R358): A search entry ends HIT or MISS, with handoff to its channel when that channel is IDLE. -/
  | acqEntryComplete (h : Half) (e : Nat) (cn0 : Nat) (ratio : Nat) (code : Nat) (dop : Int) (tEnd : Nat)
  /-- ACQ_KNOCK (R365): GNS_ACQ_CMD.KNOCK ends the search within 1 ms and marks the entries KNOCKED. -/
  | acqKnock (h : Half) (init : Nat)
  /-- CH_START (R363): GNS_CH_CTRL.START starts a channel, or sets CFG_ERR. -/
  | chStart (h : Half) (init : Nat)
  /-- CH_STOP (R363): GNS_CH_CTRL.STOP returns a channel to IDLE. -/
  | chStop (h : Half) (init : Nat)
  /-- CH_KNOCK (R365): GNS_CH_CTRL.KNOCK stops the channel within 1 ms in state KNOCKED. -/
  | chKnock (h : Half) (init : Nat)
  /-- CH_COMMIT (R364): A write of GNS_CH_CODE commits the carrier rate, code rate and slew for the next boundary. -/
  | chCommit (h : Half) (init : Nat) (v : Nat)
  /-- CH_INTEGRATION_DUMP (R363): At an integration boundary the channel applies any commit and writes a dump record. -/
  | chIntegrationDump (h : Half) (c : Nat) (iq : List Int) (noise : Nat)
  /-- MEASUREMENT_LATCH (R366): At each measurement instant every running channel latches its phases into the latch table. -/
  | measurementLatch (h : Half)
  /-- MEAS_RATE_WRITE (R366): A write of GNS_MEAS_CFG.RATE in the serving half schedules a rate change. -/
  | measRateWrite (h : Half) (init : Nat) (v : Nat)
  /-- MEAS_RATE_APPLY (R366): At the next whole module-time second both halves take the new measurement rate. -/
  | measRateApply
  /-- MEASUREMENT_RECORD (R369): Real-time pair 0 completes the measurement record within 3 ms and sends it to the sibling. -/
  | measurementRecord (h : Half) (entries : List MEntry) (bias : Int) (drift : Int) (clk : Bool)
  /-- SIBLING_RECORD_RECEIVED (R373): A sibling measurement record arrives and the cross-half check runs on ALIGNED epochs. -/
  | siblingRecordReceived (h : Half) (ownOk : Bool) (sibOk : Bool)
  /-- POSITION_SOLUTION (R381): The position engine publishes a solution and quality, after RAIM, within 8 ms of t_m. -/
  | positionSolution (h : Half) (x : Sol)
  /-- HEADING_SOLUTION (R383): The heading engine solves the baseline and sets heading validity. -/
  | headingSolution (h : Half) (ratio : Nat) (common : Nat) (len : Nat) (az : Int) (sig : Nat)
  /-- POSE_PUBLISH (R384): Every 10 ms the pose filter publishes a pose record and judges trust under R385. -/
  | posePublish (h : Half) (p : Pose) (slew : Bool)
  /-- EXCLUSION_READMIT (R374): An excluded measurement's readmission time passes and it rejoins the solutions. -/
  | exclusionReadmit (h : Half) (key : Nat) (reason : Nat)
  /-- BB_SUSPECT_CLEAR (R373): A suspect baseband has passed its residual test for 60 s and BB_SUSPECT clears. -/
  | bbSuspectClear (h : Half)
  /-- IMU_FAULT (R384): The half's inertial unit faults and the filter uses the sibling's samples with IMU_SIB. -/
  | imuFault (h : Half) (bad : Bool)
  /-- CORRECTION_FRAME (R377): A write of GNS_CORR_CMD submits an RTCM frame, which is checked, copied and forwarded. -/
  | correctionFrame (h : Half) (init : Nat) (v : Nat)
  /-- CORRECTION_SOURCE_TIMEOUT (R378): A source's MSM or reference message ages past its limit, or a higher source has been valid for 10
  s, and the active source changes. -/
  | correctionSourceTimeout (h : Half)
  /-- TIME_AID (R360): A write of GNS_AID_TIME sets the GPS-time aid, re-plans the searches and may set the counter. -/
  | timeAid (h : Half) (init : Nat) (v : Nat)
  /-- GNSS_COLD (R360): GNS_CTRL.COLD discards the stored aiding, in SERVICE only. -/
  | gnssCold (h : Half) (init : Nat)
  /-- GNS_CLR_CNT (R386): GNS_CTRL.CLR_CNT clears GNS_CNT. -/
  | gnsClrCnt (h : Half) (init : Nat)
  /-- REFERENCE_VALID (R396): A time reference becomes valid and the offset leads to LOCKED, SLEWING or a step. -/
  | referenceValid (h : Half) (r : Nat) (ofs : Int) (leap : Option Nat)
  /-- REFERENCE_LOST (R393): The active reference is lost with no other valid and module time enters HOLDOVER. -/
  | referenceLost (h : Half) (r : Nat)
  /-- TIME_STEP (R397): At the announced whole second both halves load the counter with the new value and EVT_TIME_STEP is raised. -/
  | timeStep
  /-- SLEW_END (R396): The slew's residual reaches 1 µs or less, the state becomes LOCKED and EVT_TIME_SLEW is raised. -/
  | slewEnd (h : Half)
  /-- TIME_SET (R397): TIM_CMD.SET steps the counter to TIM_SET in UNSET, FREE or SERVICE. -/
  | timeSet (h : Half) (init : Nat)
  /-- TIME_REF_SELECT (R393): A write of TIM_CTRL.REF selects the reference source. -/
  | timeRefSelect (h : Half) (init : Nat) (v : Nat)
  /-- TIME_IN_EDGE (R401): A TIME_IN rising edge is captured and accepted or rejected. -/
  | timeInEdge (h : Half)
  /-- TIME_IN_LOST (R401): 2 s without an accepted TIME_IN edge makes TIME_IN invalid. -/
  | timeInLost (h : Half)
  /-- TIME_PULSE (R398): TIME_OUT rises on a whole second and stays high for 100 ms. -/
  | timePulse
  /-- TIME_QUALITY_MESSAGE (R400): Within 200 ms of a pulse the serving half sends the time-quality message. -/
  | timeQualityMessage (h : Half)
  /-- CAN_MODE_WRITE (R409): A write of CAN_CTRL.MODE changes the channel mode, with MONITOR changes honoured only in SERVICE. -/
  | canModeWrite (h : Half) (init : Nat) (v : Nat)
  /-- CAN_KNOCK (R425): CAN_CTRL.KNOCK stops dominant drive within 50 µs, aborts every buffer and sets KNOCKED. -/
  | canKnock (h : Half) (init : Nat)
  /-- CAN_CLR_LOCKOUT (R419): CAN_CTRL.CLR_LOCKOUT by the owner ends LOCKOUT. -/
  | canClrLockout (h : Half) (init : Nat)
  /-- CAN_CLR_CNT (R429): CAN_CTRL.CLR_CNT clears CAN_CNT. -/
  | canClrCnt (h : Half) (init : Nat)
  /-- CAN_TX_REQUEST (R414): CAN_TXCMD.REQ marks a transmit buffer PENDING. -/
  | canTxRequest (h : Half) (init : Nat) (mask : Nat)
  /-- CAN_TX_ABORT (R416): CAN_TXCMD.ABORT aborts a buffer at once or at the end of its frame, and 0b111 clears KNOCKED. -/
  | canTxAbort (h : Half) (init : Nat) (mask : Nat)
  /-- CAN_ARBITRATION (R415): At each start of arbitration the channel offers one pending buffer chosen by TX_ORDER. -/
  | canArbitration (n : Nat)
  /-- CAN_TX_COMPLETE (R416): A frame ends DONE, ARB_LOST, ERROR or is retried. -/
  | canTxComplete (n : Nat) (res : Nat) (ty : Nat) (fld : Nat) (pos : Nat) (tdcv : Nat)
  /-- CAN_TX_ERROR (R424): A bit error after arbitration is an identifier-clash candidate and ends the buffer or retries it. -/
  | canTxError (n : Nat) (ty : Nat) (fld : Nat) (pos : Nat)
  /-- CAN_FRAME_RECEIVED (R420): A received frame is filtered, decoded into bindings and/or queued with its SOF stamp. -/
  | canFrameReceived (n : Nat) (stamp : Nat) (self_ : Bool) (f : CanFrame)
  /-- CAN_RX_ACK (R421): A write of CAN_RXACK moves TAIL within (TAIL, HEAD]. -/
  | canRxAck (h : Half) (init : Nat) (v : Nat)
  /-- CAN_SCHEDULE_DUE (R417): At a due instant the scheduler composes a scheduled message and loads it into TB0. -/
  | canScheduleDue (n : Nat) (m : Nat)
  /-- CAN_BUS_OFF (R418): TEC exceeds 255, the channel goes bus-off and may enter LOCKOUT. -/
  | canBusOff (n : Nat)
  /-- CAN_BUS_OFF_RECOVERY (R418): After 128 sequences of 11 recessive bits the channel returns to error active. -/
  | canBusOffRecovery (n : Nat)
  /-- CAN_TRX_FAULT (R412): TXD or the bus has been dominant for 4 ms, or the condition has been absent for 10 ms, and TRX_FAULT sets or
  clears. -/
  | canTrxFault (n : Nat) (on : Bool) (txd : Bool)
  /-- CAN_WAKE (R413): A wake-up pattern is detected on a wake-capable channel. -/
  | canWake (n : Nat)
  /-- J1939_ADDRESS_CLAIM (R426): The stack claims its address and writes it to CAN_SA, or loses the claim with cause ADDRESS. -/
  | j1939AddressClaim (n : Nat) (sa : Nat) (lost : Bool)
  /-- ETH_LINK (R431): A port's link goes up or down and EVT_ETH_LINK is raised. -/
  | ethLink (k : Nat) (speed : Nat) (master : Bool)
  /-- GM_FOREIGN_ANNOUNCE (R435): A foreign Announce is ignored and counted, and the first raises EVT_ETH_GM. -/
  | gmForeignAnnounce (h : Half) (k : Nat)
  /-- ETH_CLR_CNT (R450): ETH_CTRL.CLR_CNT clears the port, ETH_GM and FLX_CNT counts. -/
  | ethClrCnt (h : Half) (init : Nat)
  /-- FLX_OPEN (R438): FLX_PEER_CMD.OPEN opens a session as client to the peer address and port. -/
  | flxOpen (h : Half) (k : Nat) (port : Nat)
  /-- FLX_CLOSE (R443): FLX_PEER_CMD.CLOSE closes a slot with reason NORMAL. -/
  | flxClose (h : Half) (k : Nat)
  /-- FLX_ACCEPT (R438): An incoming connection on port 47100 is accepted into a slot. -/
  | flxAccept (h : Half) (c : Nat) (ip : Nat)
  /-- FLX_HANDSHAKE_COMPLETE (R440): A TLS handshake ends and the peer certificate is accepted or refused. -/
  | flxHandshakeComplete (h : Half) (client : Bool) (k : Nat) (anchor : Nat) (inPeriod : Bool) (serial : List Byte)
  /-- FLX_MESSAGE_RECEIVED (R442): A Fleet Exchange message arrives, advances the ACK and is acted on by type or discarded. -/
  | flxMessageReceived (h : Half) (k : Nat) (ty : Nat) (seq : Nat) (ack : Nat) (p : List Byte)
  /-- HELLO (R441): A HELLO places the session and closes a duplicate under R441. -/
  | hello (h : Half) (client : Bool) (k : Nat) (role : Nat) (ver : Nat) (dev : List Byte)
  /-- RTCM (R443): An RTCM message from the server is written to the baseband as correction source 2. -/
  | rtcm (h : Half) (seq : Nat) (ack : Nat) (frame : List Byte)
  /-- CART_STATE (R445): A CART_STATE updates the cart, may make it active and clears STALE. -/
  | cartState (h : Half) (k : Nat) (seq : Nat) (ack : Nat) (p : List Byte)
  /-- FLX_HEARTBEAT_SEND (R442): A side that has sent nothing for 1 s sends HEARTBEAT. -/
  | flxHeartbeatSend (h : Half) (k : Nat)
  /-- FLX_SESSION_TIMEOUT (R442): Nothing has been received for 5 s and the session closes with TIMEOUT. -/
  | flxSessionTimeout (h : Half) (k : Nat)
  /-- FLX_KEY_UPDATE (R439): After 2^24 records or 1 h the side sends KeyUpdate. -/
  | flxKeyUpdate (h : Half) (k : Nat)
  /-- STATUS (R443): At 1 Hz the module sends STATUS to the server and combines. -/
  | status (h : Half)
  /-- CART_SYNC (R444): At every 50 ms instant the module sends CART_SYNC to every open cart session. -/
  | cartSync (h : Half)
  /-- CART_STALE (R446): No CART_STATE from the active cart for 250 ms sets STALE and raises EVT_FLX_CART. -/
  | cartStale (h : Half)
  /-- CART_SELECT (R445): FLX_CART_CMD.SEL makes the named cart active. -/
  | cartSelect (h : Half) (init : Nat) (k : Nat)
  /-- CART_RELEASE (R445): FLX_CART_CMD.RELEASE releases the active cart. -/
  | cartRelease (h : Half) (init : Nat)
  /-- PREPARE_HALF (R467): STW_SVC_CMD PREPARE_HALF moves the half's groups away, saves M3, fences the half and shows READY. -/
  | prepareHalf (h : Half) (init : Nat) (target : Nat)
  /-- PREPARE_TILE (R469): STW_SVC_CMD PREPARE_TILE stops probes on the tile if every active channel has a healthy twin, else it is
  refused with TWIN. -/
  | prepareTile (h : Half) (init : Nat) (t : Nat)
  /-- SVC_CANCEL (R467): STW_SVC_CMD CANCEL resets a fenced half and returns the service state to IDLE. -/
  | svcCancel (h : Half) (init : Nat)
  /-- FAN_RESET (R471): STW_SVC_CMD FAN_RESET, in SERVICE, resets the fan/pump life counter. -/
  | fanReset (h : Half) (init : Nat)
  /-- HOLDUP_RESET (R471): STW_SVC_CMD HOLDUP_RESET, in SERVICE, resets the hold-up pack life record. -/
  | holdupReset (h : Half) (init : Nat)
  /-- PREPARE_TIMEOUT (R467): A prepared cartridge not withdrawn within 30 min is reset and the state returns to IDLE with TIMEOUT. -/
  | prepareTimeout
  /-- CARTRIDGE_PRESENCE_OPEN (R452): A cartridge presence pin opens and the service state becomes REMOVED. -/
  | cartridgePresenceOpen (h : Half)
  /-- CARTRIDGE_INSERT (R452): A cartridge presence pin closes and its reset is released 100 ms later. -/
  | cartridgeInsert (h : Half) (c : Option Cartridge)
  /-- PLANNED_MOVE (R455): A function group is moved by HANDOVER after a FINAL commit and started in the receiver. -/
  | plannedMove (h : Half) (n : Nat)
  /-- HANDBACK_MOVE (R456): Every 20 ms while the conditions hold, the next group is moved to its home half. -/
  | handbackMove
  /-- STEWARD_FRAME (R475): A 10 ms Steward frame starts and the task classes run by priority. -/
  | stewardFrame (h : Half) (busy : Nat) (c0 : Nat) (c1 : Nat)
  /-- C3_SHED (R476): Busy time reaches 8.0 ms and the remaining C3 work of the frame is shed. -/
  | c3Shed (h : Half)
  /-- C2_PAUSE (R476): Busy time reaches 9.5 ms and C2 pauses until the next frame. -/
  | c2Pause (h : Half)
  /-- STW_LOAD_CLEAR (R477): STW_LOAD.CLR clears PEAK, SHED and PAUSED. -/
  | stwLoadClear (h : Half) (init : Nat)
  /-- WATCHDOG_SERVICE (R478): A write of STW_WDOG.KEY services the watchdog, or expires it if wrong or too early. -/
  | watchdogService (h : Half) (init : Nat) (v : Nat)
  /-- WATCHDOG_EXPIRY (R478): The watchdog has not been serviced for 30 ms; the alive line drops and the half resets. -/
  | watchdogExpiry (h : Half)
  /-- EVENT_RAISE (R482): A raise is stamped and merged, queued or dropped by the router. -/
  | eventRaise (h : Half) (num : Nat) (arg : Nat)
  /-- EVENT_RECORD_DELIVERY (R484): A queued record is logged, its route vectors are set pending and it is forwarded to the sibling. -/
  | eventRecordDelivery (h : Half)
  /-- EVT_CLR_CNT (R493): EVT_CTRL.CLR_CNT clears the EVT_STATUS counts and flags. -/
  | evtClrCnt (h : Half) (init : Nat)
  /-- KNOCK_CMD (R488): A write of EVT_KNOCK_CMD takes a slot and Knocks the named target, or is refused. -/
  | knockCmd (h : Half) (init : Nat) (cls : Nat) (idx : Nat) (tc : Nat) (jobs : List Nat)
  /-- KNOCK_COMPLETE (R488): A Knocked unit reaches its idle state and the slot records DONE. -/
  | knockComplete (h : Half) (k : Nat)
  /-- KNOCK_ESCALATION (R489): A Knock is not complete by its bound, the unit is reset and EVT_KNOCK_ESCALATED is raised. -/
  | knockEscalation (h : Half) (k : Nat)
  /-- UPD_OPEN (R497): An OPEN request takes a region's session lock, or is refused. -/
  | updOpen (h : Half) (r : Nat) (net : Option UpdOpen)
  /-- UPD_BLOCK (R501): A BLOCK request is checked and written, or refused. -/
  | updBlock (h : Half) (r : Nat) (net : Option (List Byte))
  /-- UPD_CLOSE (R502): A CLOSE request starts the check of the image. -/
  | updClose (h : Half) (r : Nat) (net : Bool)
  /-- UPD_CHECK_COMPLETE (R503): The image check ends; on success VALID and the floor are set, on failure the session ends FAILED. -/
  | updCheckComplete (h : Half) (r : Nat)
  /-- UPD_RESTART (R503): Once no other session is in transfer, the half restarts on the new image. -/
  | updRestart (h : Half)
  /-- UPD_ABORT (R504): An ABORT request Knocks the session, which ends KNOCKED or completes COMMITTED. -/
  | updAbort (h : Half) (r : Nat) (net : Bool)
  /-- UPD_SESSION_TIMEOUT (R502): A session with no request for 60 s is Knocked with TIMEOUT. -/
  | updSessionTimeout (h : Half) (r : Nat)
  /-- UPD_CLR_CNT (R513): UPD_CTRL.CLR_CNT clears UPD_CNT. -/
  | updClrCnt (h : Half) (init : Nat)
  /-- SIBLING_RESTORE (R506): A half restores an invalid or older region from its sibling by a SIBLING session. -/
  | siblingRestore (h : Half) (r : Nat)
  /-- DEBUG_UNLOCK (R512): KEY_DBG_CMD.OPEN checks an unlock token and opens the debug port. -/
  | debugUnlock (h : Half)
  /-- DEBUG_EXPIRY (R512): NOT_AFTER is reached, which closes the port and resets the half. -/
  | debugExpiry (h : Half)
  /-- CAL_TOKEN_REQUEST (R518): CAL_SESS.REQ draws a token visible only to the requesting initiator. -/
  | calTokenRequest (h : Half) (init : Nat) (tok : Nat)
  /-- CAL_KEY_OFFER (R518): A write of CAL_KEY spends the token and opens CAL_LOCK if it is correct. -/
  | calKeyOffer (h : Half) (init : Nat) (key : Nat)
  /-- CAL_LOCK_CLOSE (R518): CAL_SESS.CLOSE closes CAL_LOCK. -/
  | calLockClose (h : Half) (init : Nat)
  /-- CAL_LOCK_TIMEOUT (R518): 10 min without a write closes CAL_LOCK. -/
  | calLockTimeout
  /-- LEDGER_WRITE (R519): CAL_CMD WRITE replaces one entry through the journal, or is refused. -/
  | ledgerWrite (h : Half) (init : Nat) (ty : Nat) (k : Nat) (pl : List Byte)
  /-- LEDGER_RESTORE (R523): CAL_CMD RESTORE writes the masked entries from a signed calibration file in SERVICE. -/
  | ledgerRestore (h : Half) (init : Nat) (mask : Nat) (f : List Byte)
  /-- LOGIC_IN_STATE_CHANGE (R526): LOGIC_IN passes between NORMAL, LOW, HOLDUP and CLAMP and EVT_PWR_LOGIC is raised. -/
  | logicInStateChange (v : Nat) (x : Nat) (clamped : Bool)
  /-- POWER_FAIL (R531): LOGIC_IN does not return within 100 ms of HOLDUP; the halves write shutdown step 2 content and are held in reset.
  -/
  | powerFail (wrote : Bool) (ma : List CupMeas) (mb : List CupMeas)
  /-- POWER_FAIL_RECOVERY (R531): LOGIC_IN returns during a power-fail and the halves are released from reset 10 ms after both are held.
  -/
  | powerFailRecovery (v : Nat)
  /-- HOLDUP_READY (R531): The hold-up pack reaches 46.0 V and READY sets. -/
  | holdupReady (v : Nat)
  /-- FEED_MEASUREMENT (R529): Each feed's voltage and current are measured at 1 kHz. -/
  | feedMeasurement (f : Nat) (v : Nat) (x : Nat)
  /-- FUSE_OPEN (R530): A fuse-open or stud-low condition has held, or been absent, for 10 ms and the flag changes with EVT_PWR_FUSE. -/
  | fuseOpen (f : Nat) (stud : Nat) (behind : Nat)
  /-- FEED_CONNECT (R529): A write of PWR_FEEDn.CONNECT by the owner closes or opens the feed disconnect. -/
  | feedConnect (h : Half) (init : Nat) (f : Nat) (on : Bool)
  /-- PWR_CLR_CNT (R543): PWR_CTRL.CLR_CNT clears PWR_CNT. -/
  | pwrClrCnt (h : Half) (init : Nat)
  /-- DERATE_CHANGE (R533): The ambient rises above +70.0 °C, or stays at or below +67.0 °C for 60 s, and derating starts or ends. -/
  | derateChange (ta : Int)
  /-- COOLING_OVERRIDE (R535): TS crosses T_SH − 5 K or T_SH − 8 K and the 100 % cooling override starts or ends. -/
  | coolingOverride (ts : Int)
  /-- SYS_SHDN_ASSERT (R535): TS has been at or above T_SH for 1 s; SYS_SHDN is pulled low and outputs go to Green. -/
  | sysShdnAssert (ts : Int)
  /-- SYS_SHDN_HALF_RESET (R535): 200 ms after SYS_SHDN both halves are held in reset. -/
  | sysShdnHalfReset
  /-- SYS_SHDN_RELEASE (R535): TS has stayed below T_SH − 10 K for 60 s; SYS_SHDN is released and the halves start. -/
  | sysShdnRelease (ts : Int)
  /-- SYS_SHDN_EXTERNAL (R537): SYS_SHDN reads low while the comparator does not assert it and EVT_SHDN_EXT is raised. -/
  | sysShdnExternal (low : Bool)
  /-- COOLANT_TEMPERATURE_WARNING (R536): TC_OUT crosses a warning level, or a thermistor faults, and the matching cooling event is
  raised. -/
  | coolantTemperatureWarning (tin : Int) (tout : Int) (ta : Int)
  /-- FAN_FRAME (R538): A 40 ms frame switches a fan or pump supply on for its duty. -/
  | fanFrame (c : Nat)
  /-- FAN_SPEED_MEASURE (R540): Once per second a channel's speed is measured from two tachometer edges and the duty corrected. -/
  | fanSpeedMeasure (c : Nat) (e1 : Nat) (e2 : Nat)
  /-- FAN_SUSPECT (R542): A channel below 700 rpm for 2 s gets a tachometer bias check leading to kicks or TACH_OPEN. -/
  | fanSuspect (c : Nat) (v : Nat)
  /-- FAN_KICK_END (R542): A 2 s kick ends and the channel returns to its target or, after the third, sets STALL. -/
  | fanKickEnd (c : Nat) (rpm : Nat)
  /-- FAN_REKICK (R542): Every 5 min a stalled channel is kicked again. -/
  | fanRekick (c : Nat)
  /-- FAN_COMMAND (R539): A write of FAN_CMD sets the mode and target and makes any kick yield within 1 ms. -/
  | fanCommand (h : Half) (init : Nat) (v : Nat)
  /-- SEGMENT_FRAME (R547): A segment frame starts, applies a pending latch and measures the levels, blanking on a fault. -/
  | segmentFrame (vlcd : Nat) (v1 : Int) (v2 : Int)
  /-- SEGMENT_LATCH (R546): DSP_SEG_CMD.LATCH copies the shadow image at the next frame start. -/
  | segmentLatch (h : Half) (init : Nat)
  /-- SYMBOL_EVALUATION (R548): Every 100 ms the Steward evaluates the DISP symbols into the shadow and latches. -/
  | symbolEvaluation (h : Half)
  /-- PANEL_LOAD (R550): DSP_PNL_CMD.LOAD copies a frame into the store not shown. -/
  | panelLoad (h : Half) (init : Nat)
  /-- PANEL_COPY_COMPLETE (R550): The frame copy completes and the store is shown from the next frame. -/
  | panelCopyComplete
  /-- PANEL_ENABLE (R551): A write of DSP_CTRL.PNL_EN starts the panel power-up or orderly power-down. -/
  | panelEnable (h : Half) (init : Nat) (en : Bool)
  /-- PANEL_SEQUENCE_STEP (R551): A timed step of the panel sequence completes and the next starts. -/
  | panelSequenceStep
  /-- SAFE_OFF_ASSERT (R572): A SAFE_OFF pin has read low for 1 ms and SAFE_OFF switches off every object with SO set. -/
  | safeOffAssert (b : Bool)
  /-- SAFE_OFF_RELEASE (R572): A SAFE_OFF pin has read high for 20 ms and its channel is released. -/
  | safeOffRelease (b : Bool)
  /-- SAFE_OFF_DISCREPANCY (R572): The two channels disagree for 100 ms and DISC latches SAFE_OFF asserted. -/
  | safeOffDiscrepancy
  /-- REALTIME_PERMIT_REFRESH (R94): A real-time pair refreshes the heartbeat permit; its first refresh joins it to the permit. -/
  | realtimePermitRefresh (h : Half) (pair : Nat)
  /-- CAN_RX_ERROR (R418): A protocol error detected while receiving raises REC and may move the channel to error passive, with
  EVT_CAN_BUS. -/
  | canRxError (n : Nat) (ty : Nat) (dom : Bool)
  /-- DM1_BROADCAST (R426): Every 1 s the J1939 stack sends DM1 with the module's active diagnostic codes on TB1. -/
  | dm1Broadcast (n : Nat) (lamps : Nat) (codes : List Byte)
  /-- MIRROR_REFRESH (R45): A mirror class M2 or M3 is sent because its minimum period (40 ms or 1 s) has passed without a change. -/
  | mirrorRefresh (h : Half) (k : Nat)
  /-- TWIN_SCALE_MERGE_END (R210): The 10 ms linear merge of both twin scales to 0.5 ends; TWIN_SOLO clears and EVT_VLV_TWIN is raised. -/
  | twinScaleMergeEnd (ch : Nat)
  /-- GREEN_RAMP_END (R63): A Green RAMP entry reaches its end; a valve with Green OFF is then turned off with its TOFF and its release
  detector starts. -/
  | greenRampEnd (k : Nat)
  /-- SUPPLY_CLASS_SELECT (R525): 100 ms after LOGIC_IN becomes valid, its mean selects the 12 V or 24 V class and sets PWR_STATUS.SYS24.
  -/
  | supplyClassSelect (mean : Nat)
  /-- FAN_KICK_PAUSE_END (R542): The 1 s pause at 0 % between kicks of a suspect fan or pump channel ends and the next 2 s kick at 100 %
  starts. -/
  | fanKickPauseEnd (c : Nat)
deriving DecidableEq, Repr

end Sys2Proof
end

