-- ==== Sys2Proof/Config.lean ====
section
/-!
DEFINITION. What the spec leaves to the implementation or does not define: uninterpreted constants. Nothing in Lean can evaluate
one or prove a value of it, so a statement about it holds whatever it is.
-/
namespace Sys2Proof.Config

/-- What a rule computes from an f32 field that holds an infinity or a NaN (no rule states it; log entry 6). -/
opaque f32Special : Nat → Rat

/-- The free values: the n-th value drawn where the spec leaves a value open (log entry 3). -/
opaque freeWord : Nat → BitVec 32

/-- SHA-384 of a list of bytes, 48 bytes (R54, R495: the standard is named, not defined; log entry 7). -/
opaque sha384 : List Byte → List Byte

/-- Whether an ECDSA P-384 signature (key, digest, signature) is valid (R54, R495; log entry 7). -/
opaque ecdsaValid : List Byte → List Byte → List Byte → Bool

/-- The square root of a non-negative number (log entry 8). -/
opaque sqrtR : Rat → Rat

/-- The sine of an angle in radians (log entry 8). -/
opaque sinR : Rat → Rat

/-- The cosine of an angle in radians (log entry 8). -/
opaque cosR : Rat → Rat

/-- The angle of the vector (x, y), in radians: atan2 of y and x (log entry 8). -/
opaque atan2R : Rat → Rat → Rat

/-- The tangent of an angle in radians (log entry 8). -/
opaque tanR : Rat → Rat

/-- The natural logarithm of a positive number (log entry 8). -/
opaque lnR : Rat → Rat

/-- The exponential (log entry 8). -/
opaque expR : Rat → Rat

/-- East of an origin, m: of a latitude and longitude and the origin's (the local plane of R148 is not defined; log entry 8). -/
opaque eastOf : Rat → Rat → Rat → Rat → Rat

/-- North of an origin, m (log entry 8). -/
opaque northOf : Rat → Rat → Rat → Rat → Rat

/-- The latitude of a point east and north of an origin (log entry 8). -/
opaque latOf : Rat → Rat → Rat → Rat → Rat

/-- The longitude of a point east and north of an origin (log entry 8). -/
opaque lonOf : Rat → Rat → Rat → Rat → Rat

/-- The curvature of a guidance curve at a point of a segment: vertices in m, closed or open, segment, fraction (R147 takes the line's
curvature at the closest point; that of a polyline is not defined; log entry 8). -/
opaque curveAt : List (Rat × Rat) → Bool → Nat → Rat → Rat

/-- The spectral density of a track's acceleration noise (the filter of R338 does not give it; log entry 11). -/
opaque trackNoise : Rat

/-- The variance of each axis's velocity at a track's birth (log entry 11). -/
opaque birthVar : Rat

/-- The sector 0–7 of the forward field that holds a point of the vehicle frame, m (GRIN's sectors have no stated bounds, R298; log
entry 11). -/
opaque sectorOf : Rat → Rat → Nat

/-- The subject serialNumber of a DER device certificate (R509: the certificate's form is a standard's; log entry 7). -/
opaque certDevice : List Byte → List Byte

end Sys2Proof.Config
end

