-- ==== Sys2Proof/Machine/Bits.lean ====
section
/-!
DEFINITION. Bit fields of registers, little-endian records (R50, R495), IEEE 754 binary32 values (R554), CRC-32C (R36) and the
rounding and saturating arithmetic the rules use.
-/
namespace Sys2Proof

/-- Bits [lo + w − 1 : lo] of a number. -/
def bitsOf (v lo w : Nat) : Nat := v / 2 ^ lo % 2 ^ w

/-- Bit `i` of a number. -/
def bitOf (v i : Nat) : Bool := v / 2 ^ i % 2 = 1

/-- 1 for true. -/
def b2n (b : Bool) : Nat := if b then 1 else 0

/-- The `w` bits at `lo` of a register. -/
def Word.field (r : Word) (lo w : Nat) : Nat := (r.extractLsb' lo w).toNat

/-- The register with the `w` bits at `lo` replaced by `v` (its low `w` bits). -/
def Word.setField (r : Word) (lo w v : Nat) : Word :=
  (r &&& ~~~(((BitVec.allOnes w).setWidth 32) <<< lo)) ||| (((BitVec.ofNat w v).setWidth 32) <<< lo)

/-- A two's complement field of `w` bits. -/
def signed (w v : Nat) : Int := if v % 2 ^ w < 2 ^ (w - 1) then (v % 2 ^ w : Int) else (v % 2 ^ w : Int) - 2 ^ w

/-- The two's complement of `i` in `w` bits. -/
def toTwos (w : Nat) (i : Int) : Nat := (i % (2 ^ w : Int)).toNat

/-- A count in a field of `w` bits that saturates. -/
def satInc (w v : Nat) : Nat := if v + 1 < 2 ^ w then v + 1 else 2 ^ w - 1

/-- A number clamped to the top of a field of `w` bits. -/
def satTo (w v : Nat) : Nat := min v (2 ^ w - 1)

/-- A whole number clamped to [lo, hi]. -/
def clampI (lo hi v : Int) : Int := max lo (min hi v)

/-- A rational clamped to [lo, hi]. -/
def clampR (lo hi v : Rat) : Rat := if v < lo then lo else if hi < v then hi else v

/-- Rounding to the nearest whole number, halves away from zero. -/
def roundR (x : Rat) : Int := if x < 0 then -((-x + 1 / 2).floor) else (x + 1 / 2).floor

/-- Rounding to the nearest whole number, halves to the even one (IEEE 754). -/
def roundEven (x : Rat) : Int :=
  let f := x.floor
  let r := x - f
  if r < 1 / 2 then f else if 1 / 2 < r then f + 1 else if f % 2 = 0 then f else f + 1

/-- A rational rounded down to a natural number, 0 below 0. -/
def floorN (x : Rat) : Nat := x.floor.toNat

/-- A rational rounded to a natural number, 0 below 0. -/
def roundN (x : Rat) : Nat := (roundR x).toNat

/-- π, to 16 decimals. -/
def piR : Rat := 31415926535897932 / 10000000000000000

/-- The absolute value. -/
def absR (x : Rat) : Rat := if x < 0 then -x else x

/-- The sign: −1, 0 or 1. -/
def sgnR (x : Rat) : Rat := if x < 0 then -1 else if 0 < x then 1 else 0

/-- The sum of a list. -/
def sumR : List Rat → Rat
  | [] => 0
  | x :: t => x + sumR t

/-- Byte `i` of a record, 0 past its end. -/
def byteAt (bs : List Byte) (i : Nat) : Nat := (bs.getD i 0).toNat

/-- The little-endian number of `n` bytes at `i`. -/
def leAt (bs : List Byte) (i : Nat) : Nat → Nat
  | 0 => 0
  | n + 1 => byteAt bs i + 256 * leAt bs (i + 1) n

/-- A 16-bit field at `i`. -/
def u16At (bs : List Byte) (i : Nat) : Nat := leAt bs i 2

/-- A 32-bit field at `i`. -/
def u32At (bs : List Byte) (i : Nat) : Nat := leAt bs i 4

/-- A 64-bit field at `i`. -/
def u64At (bs : List Byte) (i : Nat) : Nat := leAt bs i 8

/-- The big-endian number of a list of bytes. -/
def beNat (bs : List Byte) : Nat := bs.foldl (fun a b => a * 256 + b.toNat) 0

/-- `n` bytes at `i`. -/
def slice (bs : List Byte) (i n : Nat) : List Byte := (bs.drop i).take n

/-- A number as `n` little-endian bytes. -/
def leBytes (v : Nat) : Nat → List Byte
  | 0 => []
  | n + 1 => BitVec.ofNat 8 v :: leBytes (v / 256) n

/-- Every byte is 0. -/
def allZero (bs : List Byte) : Bool := bs.all (fun b => b = 0)

/-- 2 to a whole power. -/
def pow2 (k : Int) : Rat := if k < 0 then 1 / ((2 ^ k.natAbs : Nat) : Rat) else ((2 ^ k.natAbs : Nat) : Rat)

/-- The value of a binary32 pattern (R554: f32 fields are IEEE 754 binary32); an infinity or a NaN has no stated value in any
rule and reads as an uninterpreted number (log entry 6). -/
def f32Val (w : Nat) : Rat :=
  let e := bitsOf w 23 8
  let m := bitsOf w 0 23
  let s : Rat := if bitOf w 31 then -1 else 1
  if e = 255 then Config.f32Special w
  else if e = 0 then s * (m : Rat) * pow2 (-149)
  else s * ((m + 2 ^ 23 : Nat) : Rat) * pow2 ((e : Int) - 150)

/-- Whether a binary32 pattern is a finite number. -/
def f32Finite (w : Nat) : Bool := bitsOf w 23 8 ≠ 255

/-- The binary exponent of a positive rational: the greatest k with 2^k ≤ x. -/
def expOf (x : Rat) : Int :=
  let k : Int := (Nat.log2 x.num.natAbs : Int) - (Nat.log2 x.den : Int)
  if x < pow2 k then k - 1 else k

/-- The binary32 pattern nearest a rational, halves to even, overflow to infinity (IEEE 754; log entry 6). -/
def f32Of (x : Rat) : Nat :=
  if x = 0 then 0 else
  let s := if x < 0 then 2 ^ 31 else 0
  let a := absR x
  let e := max (expOf a) (-126)
  let m := (roundEven (a * pow2 (23 - e))).toNat
  let m' := if m = 2 ^ 24 then 2 ^ 23 else m
  let e' := if m = 2 ^ 24 then e + 1 else e
  if e' > 127 then s + 255 * 2 ^ 23
  else if m' < 2 ^ 23 then s + m'
  else s + ((e' + 127).toNat) * 2 ^ 23 + (m' - 2 ^ 23)

/-- A stated decimal bound of an f32 field, as the field can hold it: the nearest binary32 value (log entry 6). -/
def f32Bound (x : Rat) : Rat := f32Val (f32Of x)

/-- The f32 field at byte `i`. -/
def f32At (bs : List Byte) (i : Nat) : Rat := f32Val (u32At bs i)

/-- `n` steps of the reflected CRC-32C register (polynomial 0x1EDC6F41). -/
def crcShift : Nat → BitVec 32 → BitVec 32
  | 0, c => c
  | n + 1, c => crcShift n (if c.getLsbD 0 then (c >>> 1) ^^^ 0x82F63B78#32 else c >>> 1)

/-- The register after the bytes. -/
def crcBytes : List Byte → BitVec 32 → BitVec 32
  | [], c => c
  | b :: t, c => crcBytes t (crcShift 8 (c ^^^ b.setWidth 32))

/-- CRC-32C of a list of bytes (R36, R50, R495). -/
def crc32c (bs : List Byte) : Nat := (crcBytes bs 0xFFFFFFFF#32 ^^^ 0xFFFFFFFF#32).toNat

/-- The ASCII bytes of a number list (serials, magics). -/
def bytesOf (l : List Nat) : List Byte := l.map (BitVec.ofNat 8)

/-- The first index at which a list holds a value that satisfies `p`. -/
def indexWhere {α : Type} (p : α → Bool) : List α → Nat → Option Nat
  | [], _ => none
  | x :: t, i => if p x then some i else indexWhere p t (i + 1)

/-- An element put in its place in a list sorted by `le`, behind its equals. -/
def insertBy {α : Type} (le : α → α → Bool) (x : α) : List α → List α
  | [] => [x]
  | y :: t => if le y x then y :: insertBy le x t else x :: y :: t

/-- A list sorted by `le`, equals in the order they stand in. -/
def sortBy {α : Type} (le : α → α → Bool) (l : List α) : List α := l.foldl (fun a x => insertBy le x a) []

/-- The list with element `i` replaced. -/
def listSet {α : Type} : List α → Nat → α → List α
  | [], _, _ => []
  | _ :: t, 0, x => x :: t
  | y :: t, i + 1, x => y :: listSet t i x

end Sys2Proof
end

