-- ==== Sys2Proof/Machine/Objects.lean ====
section
/-!
DEFINITION. The kinds of the backplane objects (R23, R587) and the Green table at delivery (R53).
-/
namespace Sys2Proof.Machine

/-- The KIND of object `k` (R587 item 2). -/
def kindOfObj (k : Nat) : Nat :=
  if k < 96 then 1 else if k < 144 then 2 else if k < 272 then 3 else if k < 336 then 4 else if k < 352 then 5 else if k < 354 then 6
  else if k < 357 then 7 else if k < 358 then 8 else 9

/-- The factory Green entry of object `k` (R53): OFF, STEP, SLOW; every feed ON. -/
def factoryGren (k : Nat) : Gren := { kind := kindOfObj k, state := if 358 ≤ k then 1 else 0 }

/-- The Green entry of object `k` in a bank. -/
def grenAt (bank : NMap Gren) (k : Nat) : Gren := NMap.get (factoryGren k) bank k

end Sys2Proof.Machine
end

