-- ==== Sys2Proof/Machine/Regs.lean ====
section
/-!
DEFINITION. The register map (R579, R585): every field of every register as its block and offset, its lowest bit and its width;
every register's place, its select, its reset value and the bits a write changes, as the register tables of the chapters give
them. `bp` marks the registers of backplane objects, of which both halves read the one copy (R21).
-/
namespace Sys2Proof

/-- A field of a register: `reg` is block × 2^20 + offset (of the first one of an array). -/
structure Field where
  reg : Nat
  lo : Nat
  w : Nat
  bp : Bool
deriving DecidableEq, Repr

/-- What the select of a block names for a register (R581). -/
inductive Sel where
  | none
  | channel
  | tile
  | bank
  | supply
  | engine
deriving DecidableEq, Repr

/-- A register (or an array of `cnt` of them, `stride` bytes apart, `words` words each). -/
structure RegDef where
  reg : Nat
  cnt : Nat
  stride : Nat
  words : Nat
  sel : Sel
  rw : Nat
  rwl : Nat
  w1c : Nat
  bp : Bool
deriving DecidableEq, Repr

namespace F

/-! Block STW. -/
abbrev STW_LOCK.OPEN : Field := ⟨0x14, 0, 1, false⟩
abbrev STW_LOAD.CLR : Field := ⟨0x40, 31, 1, false⟩
abbrev STW_LOAD.PAUSED : Field := ⟨0x40, 24, 7, false⟩
abbrev STW_LOAD.SHED : Field := ⟨0x40, 16, 8, false⟩
abbrev STW_LOAD.PEAK : Field := ⟨0x40, 8, 8, false⟩
abbrev STW_LOAD.LOAD : Field := ⟨0x40, 0, 8, false⟩
abbrev STW_WDOG.LEFT : Field := ⟨0x48, 8, 16, false⟩
abbrev STW_WDOG.KEY : Field := ⟨0x48, 0, 8, false⟩
abbrev STW_RESET.COUNT : Field := ⟨0x4c, 4, 4, false⟩
abbrev STW_RESET.CAUSE : Field := ⟨0x4c, 0, 4, false⟩
abbrev STW_STAGE.CUP_REPORT : Field := ⟨0x80, 7, 1, false⟩
abbrev STW_STAGE.OPT_OK : Field := ⟨0x80, 6, 1, false⟩
abbrev STW_STAGE.POS_OK : Field := ⟨0x80, 5, 1, false⟩
abbrev STW_STAGE.PERC_OK : Field := ⟨0x80, 4, 1, false⟩
abbrev STW_STAGE.BLOOM_DONE : Field := ⟨0x80, 3, 1, false⟩
abbrev STW_STAGE.STAGE : Field := ⟨0x80, 0, 3, false⟩
abbrev STW_START_T.POUR : Field := ⟨0x84, 20, 12, false⟩
abbrev STW_START_T.BLOOM : Field := ⟨0x84, 8, 12, false⟩
abbrev STW_START_T.GREEN : Field := ⟨0x84, 0, 8, false⟩
abbrev STW_HOLD.HOLD_LEFT : Field := ⟨0x88, 8, 8, false⟩
abbrev STW_HOLD.FORCED : Field := ⟨0x88, 3, 1, false⟩
abbrev STW_HOLD.PWR_HOLD : Field := ⟨0x88, 2, 1, false⟩
abbrev STW_HOLD.KEY : Field := ⟨0x88, 1, 1, false⟩
abbrev STW_HOLD.HOLD_REQ : Field := ⟨0x88, 0, 1, false⟩
abbrev STW_SVC_CMD.OP : Field := ⟨0xa0, 12, 4, false⟩
abbrev STW_SVC_CMD.TARGET : Field := ⟨0xa0, 0, 4, false⟩
abbrev STW_SVC_STAT.STATE : Field := ⟨0xa4, 28, 4, false⟩
abbrev STW_SVC_STAT.REASON : Field := ⟨0xa4, 24, 4, false⟩
abbrev STW_SVC_STAT.OP : Field := ⟨0xa4, 20, 4, false⟩
abbrev STW_SVC_STAT.TARGET : Field := ⟨0xa4, 16, 4, false⟩
abbrev STW_SVC_STAT.OBJ : Field := ⟨0xa4, 0, 9, false⟩
abbrev STW_HOME.HANDBACK : Field := ⟨0xa8, 31, 1, false⟩
abbrev STW_HOME.BALANCED : Field := ⟨0xa8, 30, 1, false⟩
abbrev STW_HOME.HOME_B : Field := ⟨0xa8, 0, 30, false⟩
abbrev STW_LIFE_HRS.HOURS : Field := ⟨0xb0, 0, 32, false⟩
abbrev STW_LIFE_FAN.DUE : Field := ⟨0xb4, 31, 1, false⟩
abbrev STW_LIFE_FAN.HOURS : Field := ⟨0xb4, 0, 20, false⟩
abbrev STW_LIFE_HOLD.DUE : Field := ⟨0xb8, 31, 1, false⟩
abbrev STW_LIFE_HOLD.FAIL : Field := ⟨0xb8, 30, 1, false⟩
abbrev STW_LIFE_HOLD.ENERGY : Field := ⟨0xb8, 0, 16, false⟩
/-! Block EVT. -/
abbrev EVT_CTRL.CLR_CNT : Field := ⟨0x100010, 1, 1, false⟩
abbrev EVT_CTRL.REACT_EN : Field := ⟨0x100010, 0, 1, false⟩
abbrev EVT_LOCK.OPEN : Field := ⟨0x100014, 0, 1, false⟩
abbrev EVT_STATUS.LOG_OVF : Field := ⟨0x100018, 31, 1, false⟩
abbrev EVT_STATUS.KNOCK_FULL : Field := ⟨0x100018, 30, 1, false⟩
abbrev EVT_STATUS.QUEUE : Field := ⟨0x100018, 16, 8, false⟩
abbrev EVT_STATUS.LOST : Field := ⟨0x100018, 0, 16, false⟩
abbrev EVT_LOG_BASE.VALUE : Field := ⟨0x100020, 0, 32, false⟩
abbrev EVT_LOG_HEAD.VALUE : Field := ⟨0x100024, 0, 32, false⟩
abbrev EVT_LOG_TAIL.VALUE : Field := ⟨0x100028, 0, 32, false⟩
abbrev EVT_VPEND.V : Field := ⟨0x100040, 0, 32, false⟩
abbrev EVT_VMASK.V : Field := ⟨0x100048, 0, 32, false⟩
abbrev EVT_KNOCK_CMD.CLASS : Field := ⟨0x100080, 28, 3, false⟩
abbrev EVT_KNOCK_CMD.INDEX : Field := ⟨0x100080, 0, 9, false⟩
abbrev EVT_KNOCK_RES.BUSY : Field := ⟨0x1000a0, 31, 1, false⟩
abbrev EVT_KNOCK_RES.RES : Field := ⟨0x1000a0, 28, 3, false⟩
abbrev EVT_KNOCK_RES.CLASS : Field := ⟨0x1000a0, 25, 3, false⟩
abbrev EVT_KNOCK_RES.INDEX : Field := ⟨0x1000a0, 16, 9, false⟩
abbrev EVT_KNOCK_RES.TIME : Field := ⟨0x1000a0, 0, 16, false⟩
/-! Block TIM. -/
abbrev TIM_CTRL.IN_DLY : Field := ⟨0x200010, 16, 16, false⟩
abbrev TIM_CTRL.OUT_EN : Field := ⟨0x200010, 2, 1, false⟩
abbrev TIM_CTRL.REF : Field := ⟨0x200010, 0, 2, false⟩
abbrev TIM_LOCK.OPEN : Field := ⟨0x200014, 0, 1, false⟩
abbrev TIM_STATUS.KEEPER_COAST : Field := ⟨0x200018, 9, 1, false⟩
abbrev TIM_STATUS.STEP_PEND : Field := ⟨0x200018, 8, 1, false⟩
abbrev TIM_STATUS.IN_VALID : Field := ⟨0x200018, 7, 1, false⟩
abbrev TIM_STATUS.GNSS_VALID : Field := ⟨0x200018, 6, 1, false⟩
abbrev TIM_STATUS.REF_ACT : Field := ⟨0x200018, 4, 2, false⟩
abbrev TIM_STATUS.HOLDOVER : Field := ⟨0x200018, 3, 1, false⟩
abbrev TIM_STATUS.STATE : Field := ⟨0x200018, 0, 3, false⟩
abbrev TIM_NOW_LO.T : Field := ⟨0x200020, 0, 32, false⟩
abbrev TIM_NOW_HI.T : Field := ⟨0x200024, 0, 32, false⟩
abbrev TIM_PPS_LO.T : Field := ⟨0x200028, 0, 32, false⟩
abbrev TIM_PPS_HI.T : Field := ⟨0x20002c, 0, 32, false⟩
abbrev TIM_IN_LO.T : Field := ⟨0x200030, 0, 32, false⟩
abbrev TIM_IN_HI.T : Field := ⟨0x200034, 0, 32, false⟩
abbrev TIM_SET_LO.T : Field := ⟨0x200038, 0, 32, false⟩
abbrev TIM_SET_HI.T : Field := ⟨0x20003c, 0, 32, false⟩
abbrev TIM_CMD.SET : Field := ⟨0x200040, 0, 1, false⟩
abbrev TIM_ERR.VALUE : Field := ⟨0x200044, 0, 32, false⟩
abbrev TIM_OFS.VALUE : Field := ⟨0x200048, 0, 32, false⟩
abbrev TIM_SLEW.VALUE : Field := ⟨0x20004c, 0, 32, false⟩
abbrev TIM_FREQ.VALUE : Field := ⟨0x200050, 0, 32, false⟩
abbrev TIM_CNT.STEPS : Field := ⟨0x200054, 24, 8, false⟩
abbrev TIM_CNT.SLEWS : Field := ⟨0x200054, 16, 8, false⟩
abbrev TIM_CNT.REJECT : Field := ⟨0x200054, 0, 16, false⟩
/-! Block XNG and OWN. -/
abbrev XNG_CTRL.CLR_CNT : Field := ⟨0x300010, 2, 1, false⟩
abbrev XNG_CTRL.LOOPBACK : Field := ⟨0x300010, 1, 1, false⟩
abbrev XNG_CTRL.EN : Field := ⟨0x300010, 0, 1, false⟩
abbrev XNG_STATUS.TSYNC_OK : Field := ⟨0x300014, 13, 1, false⟩
abbrev XNG_STATUS.FAULT : Field := ⟨0x300014, 12, 1, false⟩
abbrev XNG_STATUS.HB_MISS : Field := ⟨0x300014, 9, 3, false⟩
abbrev XNG_STATUS.HB_OK : Field := ⟨0x300014, 8, 1, false⟩
abbrev XNG_STATUS.SELF_ALIVE : Field := ⟨0x300014, 7, 1, false⟩
abbrev XNG_STATUS.SIB_ALIVE : Field := ⟨0x300014, 6, 1, false⟩
abbrev XNG_STATUS.LANE_RX : Field := ⟨0x300014, 4, 2, false⟩
abbrev XNG_STATUS.LANE_TX : Field := ⟨0x300014, 2, 2, false⟩
abbrev XNG_STATUS.UP : Field := ⟨0x300014, 0, 1, false⟩
abbrev XNG_SIB_STATE.HB_SEQ : Field := ⟨0x300018, 16, 16, false⟩
abbrev XNG_SIB_STATE.STW_LOAD : Field := ⟨0x300018, 8, 8, false⟩
abbrev XNG_SIB_STATE.SERVER : Field := ⟨0x300018, 3, 1, false⟩
abbrev XNG_SIB_STATE.STAGE : Field := ⟨0x300018, 0, 3, false⟩
abbrev XNG_SIB_GRADE.GRADE : Field := ⟨0x30001c, 0, 3, false⟩
abbrev XNG_SIB_ROAST0.DIGEST : Field := ⟨0x300020, 0, 32, false⟩
abbrev XNG_SIB_ROAST1.DIGEST : Field := ⟨0x300024, 0, 32, false⟩
abbrev XNG_TSYNC_OFS.OFS : Field := ⟨0x300028, 0, 32, false⟩
abbrev XNG_ERR_CNT.RETX : Field := ⟨0x30002c, 16, 16, false⟩
abbrev XNG_ERR_CNT.CRC : Field := ⟨0x30002c, 0, 16, false⟩
abbrev XNG_MIR_STAT.LAG : Field := ⟨0x300030, 0, 4, false⟩
abbrev XNG_BW.RX : Field := ⟨0x300034, 16, 16, false⟩
abbrev XNG_BW.TX : Field := ⟨0x300034, 0, 16, false⟩
abbrev XNG_SIB_OWNED.OWNED : Field := ⟨0x300038, 0, 9, false⟩
abbrev OWN_CTRL.TAKEOVER_EN : Field := ⟨0x300100, 2, 1, false⟩
abbrev OWN_CTRL.ACCEPT : Field := ⟨0x300100, 1, 1, false⟩
abbrev OWN_CTRL.SERVER_REQ : Field := ⟨0x300100, 0, 1, false⟩
abbrev OWN_LOCK.OPEN : Field := ⟨0x300104, 0, 1, false⟩
abbrev OWN_CMD.OP : Field := ⟨0x300108, 12, 3, false⟩
abbrev OWN_CMD.OBJ : Field := ⟨0x300108, 0, 9, false⟩
abbrev OWN_RESULT.BUSY : Field := ⟨0x30010c, 31, 1, false⟩
abbrev OWN_RESULT.OBJ : Field := ⟨0x30010c, 4, 9, false⟩
abbrev OWN_RESULT.RES : Field := ⟨0x30010c, 0, 3, false⟩
abbrev OWN_STATUS.CLAIMING_ANY : Field := ⟨0x300110, 26, 1, false⟩
abbrev OWN_STATUS.SIB_SERVER : Field := ⟨0x300110, 25, 1, false⟩
abbrev OWN_STATUS.SERVER : Field := ⟨0x300110, 24, 1, false⟩
abbrev OWN_STATUS.ORPHAN_CNT : Field := ⟨0x300110, 9, 9, false⟩
abbrev OWN_STATUS.OWNED_CNT : Field := ⟨0x300110, 0, 9, false⟩
abbrev OWN_ORPHAN_T.T : Field := ⟨0x300114, 0, 9, true⟩
abbrev OWN_VIOL.INIT : Field := ⟨0x300118, 12, 4, false⟩
abbrev OWN_VIOL.OBJ : Field := ⟨0x300118, 0, 9, false⟩
abbrev OWN_STATE.S : Field := ⟨0x300140, 0, 2, false⟩
abbrev OWN_MINE.M : Field := ⟨0x3001a0, 0, 1, false⟩
/-! Block SET. -/
abbrev SET_CTRL.CLR_CNT : Field := ⟨0x400010, 1, 1, false⟩
abbrev SET_CTRL.RUN : Field := ⟨0x400010, 0, 1, false⟩
abbrev SET_LOCK.OPEN : Field := ⟨0x400014, 0, 1, false⟩
abbrev SET_STATE.FROZEN : Field := ⟨0x400018, 16, 1, false⟩
abbrev SET_STATE.REFUSE : Field := ⟨0x400018, 8, 3, false⟩
abbrev SET_STATE.LAST_REQ : Field := ⟨0x400018, 4, 3, false⟩
abbrev SET_STATE.STATE : Field := ⟨0x400018, 0, 3, false⟩
abbrev SET_STATE_REQ.TO : Field := ⟨0x40001c, 0, 3, false⟩
abbrev SET_STATUS.ANY_OVERRUN : Field := ⟨0x400020, 10, 1, false⟩
abbrev SET_STATUS.ANY_ILK : Field := ⟨0x400020, 9, 1, false⟩
abbrev SET_STATUS.ANY_CONFLICT : Field := ⟨0x400020, 8, 1, false⟩
abbrev SET_STATUS.GRADE : Field := ⟨0x400020, 0, 3, false⟩
abbrev SET_JITTER0.HI : Field := ⟨0x400024, 16, 16, false⟩
abbrev SET_JITTER0.LO : Field := ⟨0x400024, 0, 16, false⟩
abbrev SET_JITTER1.HI : Field := ⟨0x400028, 16, 16, false⟩
abbrev SET_JITTER1.LO : Field := ⟨0x400028, 0, 16, false⟩
abbrev SET_STEER_CTRL.PASS : Field := ⟨0x400040, 16, 16, false⟩
abbrev SET_STEER_CTRL.LINE : Field := ⟨0x400040, 4, 3, false⟩
abbrev SET_STEER_CTRL.ACK : Field := ⟨0x400040, 2, 1, false⟩
abbrev SET_STEER_CTRL.DISENGAGE : Field := ⟨0x400040, 1, 1, false⟩
abbrev SET_STEER_CTRL.ENGAGE : Field := ⟨0x400040, 0, 1, false⟩
abbrev SET_STEER_STATUS.PASS : Field := ⟨0x400044, 16, 16, false⟩
abbrev SET_STEER_STATUS.POS_Q : Field := ⟨0x400044, 8, 2, false⟩
abbrev SET_STEER_STATUS.REASON : Field := ⟨0x400044, 4, 4, false⟩
abbrev SET_STEER_STATUS.ALERT : Field := ⟨0x400044, 2, 1, false⟩
abbrev SET_STEER_STATUS.ARMED : Field := ⟨0x400044, 1, 1, false⟩
abbrev SET_STEER_STATUS.ENGAGED : Field := ⟨0x400044, 0, 1, false⟩
abbrev SET_STEER_XTE.VALUE : Field := ⟨0x400048, 0, 32, false⟩
abbrev SET_STEER_HDG.VALUE : Field := ⟨0x40004c, 0, 32, false⟩
abbrev SET_STEER_CURV.VALUE : Field := ⟨0x400050, 0, 32, false⟩
abbrev SET_LINE_ADDR.ADDR : Field := ⟨0x400060, 0, 32, false⟩
abbrev SET_LINE_CMD.CLEAR : Field := ⟨0x400064, 9, 1, false⟩
abbrev SET_LINE_CMD.LOAD : Field := ⟨0x400064, 8, 1, false⟩
abbrev SET_LINE_CMD.SLOT : Field := ⟨0x400064, 0, 3, false⟩
abbrev SET_LINE_STAT.BUSY : Field := ⟨0x400068, 31, 1, false⟩
abbrev SET_LINE_STAT.RES : Field := ⟨0x400068, 8, 3, false⟩
abbrev SET_LINE_STAT.VALID : Field := ⟨0x400068, 0, 8, false⟩
abbrev SET_MF_STAT.OVERRUN : Field := ⟨0x400200, 24, 8, false⟩
abbrev SET_MF_STAT.STEP : Field := ⟨0x400200, 20, 4, false⟩
abbrev SET_MF_STAT.FF_ACTIVE : Field := ⟨0x400200, 17, 1, false⟩
abbrev SET_MF_STAT.CLAMPED : Field := ⟨0x400200, 16, 1, false⟩
abbrev SET_MF_STAT.ILK : Field := ⟨0x400200, 12, 4, false⟩
abbrev SET_MF_STAT.TWIN_SEL : Field := ⟨0x400200, 11, 1, false⟩
abbrev SET_MF_STAT.RESOLVED : Field := ⟨0x400200, 9, 2, false⟩
abbrev SET_MF_STAT.CONFLICT : Field := ⟨0x400200, 8, 1, false⟩
abbrev SET_MF_STAT.MODE : Field := ⟨0x400200, 0, 3, false⟩
abbrev SET_MF_SP.VALUE : Field := ⟨0x400280, 0, 32, false⟩
abbrev SET_MF_MAN.VALUE : Field := ⟨0x400300, 0, 32, false⟩
abbrev SET_MF_OUT.VALUE : Field := ⟨0x400380, 0, 32, false⟩
abbrev SET_MF_CMD.ABORT : Field := ⟨0x400400, 3, 1, false⟩
abbrev SET_MF_CMD.START : Field := ⟨0x400400, 2, 1, false⟩
abbrev SET_MF_CMD.STEP : Field := ⟨0x400400, 1, 1, false⟩
abbrev SET_MF_CMD.MANUAL : Field := ⟨0x400400, 0, 1, false⟩
abbrev SET_OPT_CTRL.DITH_EN : Field := ⟨0x400500, 9, 1, false⟩
abbrev SET_OPT_CTRL.RESET_MODEL : Field := ⟨0x400500, 8, 1, false⟩
abbrev SET_OPT_CTRL.PROFILE : Field := ⟨0x400500, 4, 3, false⟩
abbrev SET_OPT_CTRL.MODE : Field := ⟨0x400500, 0, 2, false⟩
abbrev SET_OPT_STATUS.TGT_CLAMP : Field := ⟨0x400504, 27, 1, false⟩
abbrev SET_OPT_STATUS.LAT_DEFAULT : Field := ⟨0x400504, 26, 1, false⟩
abbrev SET_OPT_STATUS.LATE_FF : Field := ⟨0x400504, 25, 1, false⟩
abbrev SET_OPT_STATUS.DITHER_ON : Field := ⟨0x400504, 24, 1, false⟩
abbrev SET_OPT_STATUS.RETREAT : Field := ⟨0x400504, 23, 1, false⟩
abbrev SET_OPT_STATUS.DROPPED : Field := ⟨0x400504, 20, 3, false⟩
abbrev SET_OPT_STATUS.FAILS : Field := ⟨0x400504, 16, 4, false⟩
abbrev SET_OPT_STATUS.ITER : Field := ⟨0x400504, 8, 7, false⟩
abbrev SET_OPT_STATUS.RES : Field := ⟨0x400504, 0, 3, false⟩
abbrev SET_OPT_TGT_THRU.VALUE : Field := ⟨0x400508, 0, 32, false⟩
abbrev SET_OPT_TGT_LOSS.VALUE : Field := ⟨0x40050c, 0, 32, false⟩
abbrev SET_OPT_TGT_DAMAGE.VALUE : Field := ⟨0x400510, 0, 32, false⟩
abbrev SET_OPT_TGT_TRASH.VALUE : Field := ⟨0x400514, 0, 32, false⟩
abbrev SET_OPT_PREF.PREF : Field := ⟨0x400518, 0, 7, false⟩
abbrev SET_OPT_CORR.SOLVE_T : Field := ⟨0x40051c, 16, 16, false⟩
abbrev SET_OPT_CORR.CORR : Field := ⟨0x40051c, 0, 16, false⟩
abbrev SET_OPT_SOLN.VALUE : Field := ⟨0x400540, 0, 32, false⟩
abbrev SET_OPT_FF.VALUE : Field := ⟨0x400580, 0, 32, false⟩
abbrev SET_OPT_LAT.TAU : Field := ⟨0x4005c0, 16, 16, false⟩
abbrev SET_OPT_LAT.LAT : Field := ⟨0x4005c0, 0, 16, false⟩
abbrev SET_YLD_CTRL.CAL_CLEAR : Field := ⟨0x400600, 16, 1, false⟩
abbrev SET_YLD_CTRL.CAL_COMMIT : Field := ⟨0x400600, 15, 1, false⟩
abbrev SET_YLD_CTRL.CAL_ABORT : Field := ⟨0x400600, 14, 1, false⟩
abbrev SET_YLD_CTRL.CAL_STOP : Field := ⟨0x400600, 13, 1, false⟩
abbrev SET_YLD_CTRL.CAL_START : Field := ⟨0x400600, 12, 1, false⟩
abbrev SET_YLD_CTRL.TOT_CLR : Field := ⟨0x400600, 9, 1, false⟩
abbrev SET_YLD_CTRL.TANK_ZERO : Field := ⟨0x400600, 8, 1, false⟩
abbrev SET_YLD_CTRL.CROP : Field := ⟨0x400600, 4, 3, false⟩
abbrev SET_YLD_CTRL.RUN : Field := ⟨0x400600, 0, 1, false⟩
abbrev SET_YLD_STATUS.CAL_ID : Field := ⟨0x400604, 8, 8, false⟩
abbrev SET_YLD_STATUS.OVF : Field := ⟨0x400604, 7, 1, false⟩
abbrev SET_YLD_STATUS.OUT_CURVE : Field := ⟨0x400604, 6, 1, false⟩
abbrev SET_YLD_STATUS.MSRC : Field := ⟨0x400604, 4, 2, false⟩
abbrev SET_YLD_STATUS.NOPOS : Field := ⟨0x400604, 3, 1, false⟩
abbrev SET_YLD_STATUS.CUTTING : Field := ⟨0x400604, 2, 1, false⟩
abbrev SET_YLD_STATUS.FSRC : Field := ⟨0x400604, 0, 2, false⟩
abbrev SET_YLD_FLOW.VALUE : Field := ⟨0x400608, 0, 32, false⟩
abbrev SET_YLD_RHO_MOIST.MOIST : Field := ⟨0x40060c, 16, 16, false⟩
abbrev SET_YLD_RHO_MOIST.RHO : Field := ⟨0x40060c, 0, 16, false⟩
abbrev SET_YLD_TANK.VALUE : Field := ⟨0x400610, 0, 32, false⟩
abbrev SET_YLD_TOT_WET.VALUE : Field := ⟨0x400614, 0, 32, false⟩
abbrev SET_YLD_TOT_STD.VALUE : Field := ⟨0x400618, 0, 32, false⟩
abbrev SET_YLD_TOT_AREA.VALUE : Field := ⟨0x40061c, 0, 32, false⟩
abbrev SET_YLD_UNASSIGNED.VALUE : Field := ⟨0x400620, 0, 32, false⟩
abbrev SET_YLD_RING_BASE.VALUE : Field := ⟨0x400630, 0, 32, false⟩
abbrev SET_YLD_RING_HEAD.VALUE : Field := ⟨0x400634, 0, 32, false⟩
abbrev SET_YLD_RING_TAIL.VALUE : Field := ⟨0x400638, 0, 32, false⟩
abbrev SET_YLD_CAL.FACTOR : Field := ⟨0x400640, 16, 16, false⟩
abbrev SET_YLD_CAL.LOADS : Field := ⟨0x400640, 8, 4, false⟩
abbrev SET_YLD_CAL.RES : Field := ⟨0x400640, 4, 4, false⟩
abbrev SET_YLD_CAL.STATE : Field := ⟨0x400640, 0, 3, false⟩
abbrev SET_YLD_CAL_MASS.KG : Field := ⟨0x400644, 0, 32, false⟩
abbrev SET_YLD_CAL_WT.KG : Field := ⟨0x400648, 0, 32, false⟩
/-! Block VLV. -/
abbrev VLV_SEL.CH : Field := ⟨0x500000, 0, 7, false⟩
abbrev VLV_CTRL.CLR_CNT : Field := ⟨0x500010, 1, 1, true⟩
abbrev VLV_CTRL.PROBE_EN : Field := ⟨0x500010, 0, 1, true⟩
abbrev VLV_LOCK.OPEN : Field := ⟨0x500014, 0, 1, false⟩
abbrev VLV_CMD.KNOCK : Field := ⟨0x500020, 3, 1, true⟩
abbrev VLV_CMD.CLR_FAULT : Field := ⟨0x500020, 2, 1, true⟩
abbrev VLV_CMD.ON : Field := ⟨0x500020, 0, 1, true⟩
abbrev VLV_SETPOINT.MA : Field := ⟨0x500024, 0, 14, true⟩
abbrev VLV_STATUS.FAULT : Field := ⟨0x500028, 28, 4, true⟩
abbrev VLV_STATUS.KNOCKED : Field := ⟨0x500028, 27, 1, true⟩
abbrev VLV_STATUS.GREEN : Field := ⟨0x500028, 26, 1, true⟩
abbrev VLV_STATUS.AUTONOMOUS : Field := ⟨0x500028, 25, 1, true⟩
abbrev VLV_STATUS.TWIN_SOLO : Field := ⟨0x500028, 24, 1, true⟩
abbrev VLV_STATUS.DOWNGRADED : Field := ⟨0x500028, 23, 1, true⟩
abbrev VLV_STATUS.LIMITED : Field := ⟨0x500028, 22, 1, true⟩
abbrev VLV_STATUS.DELAYED : Field := ⟨0x500028, 21, 1, true⟩
abbrev VLV_STATUS.DUTY_LIM : Field := ⟨0x500028, 20, 1, true⟩
abbrev VLV_STATUS.DUTY_HW : Field := ⟨0x500028, 19, 1, true⟩
abbrev VLV_STATUS.BAND_PEND : Field := ⟨0x500028, 17, 2, true⟩
abbrev VLV_STATUS.BAND : Field := ⟨0x500028, 15, 2, true⟩
abbrev VLV_STATUS.SRC : Field := ⟨0x500028, 13, 2, true⟩
abbrev VLV_STATUS.TOFF : Field := ⟨0x500028, 11, 2, true⟩
abbrev VLV_STATUS.PHASE : Field := ⟨0x500028, 8, 3, true⟩
abbrev VLV_STATUS.RUN : Field := ⟨0x500028, 7, 1, true⟩
abbrev VLV_STATUS.CMD : Field := ⟨0x500028, 6, 1, true⟩
abbrev VLV_STATUS.SP_CLAMP : Field := ⟨0x500028, 5, 1, true⟩
abbrev VLV_CUR.TARGET : Field := ⟨0x50002c, 16, 16, true⟩
abbrev VLV_CUR.I : Field := ⟨0x50002c, 0, 16, true⟩
abbrev VLV_TON.NOKINK : Field := ⟨0x500030, 31, 1, true⟩
abbrev VLV_TON.SEQ : Field := ⟨0x500030, 24, 7, true⟩
abbrev VLV_TON.T : Field := ⟨0x500030, 0, 24, true⟩
abbrev VLV_TOFF.NOKINK : Field := ⟨0x500034, 31, 1, true⟩
abbrev VLV_TOFF.SEQ : Field := ⟨0x500034, 24, 7, true⟩
abbrev VLV_TOFF.T : Field := ⟨0x500034, 0, 24, true⟩
abbrev VLV_MEAS.V : Field := ⟨0x500038, 16, 16, true⟩
abbrev VLV_MEAS.I : Field := ⟨0x500038, 0, 16, true⟩
abbrev VLV_COIL.RES : Field := ⟨0x50003c, 16, 16, true⟩
abbrev VLV_COIL.TEMP : Field := ⟨0x50003c, 8, 8, true⟩
abbrev VLV_DUTY.D : Field := ⟨0x500040, 0, 16, true⟩
abbrev VLV_ENG.LAST_EVT : Field := ⟨0x500044, 24, 8, true⟩
abbrev VLV_ENG.BANK : Field := ⟨0x500044, 11, 1, true⟩
abbrev VLV_ENG.PC : Field := ⟨0x500044, 0, 11, true⟩
abbrev VLV_RCP.TWIN : Field := ⟨0x500048, 31, 1, true⟩
abbrev VLV_RCP.PARTNER : Field := ⟨0x500048, 24, 7, true⟩
abbrev VLV_RCP.SLOT : Field := ⟨0x500048, 16, 5, true⟩
abbrev VLV_RCP.REF : Field := ⟨0x500048, 0, 16, true⟩
abbrev VLV_CNT.NOKINK : Field := ⟨0x50004c, 24, 8, true⟩
abbrev VLV_CNT.DELAYS : Field := ⟨0x50004c, 16, 8, true⟩
abbrev VLV_CNT.RELEASES : Field := ⟨0x50004c, 0, 16, true⟩
abbrev VLV_TILE.PRESENT : Field := ⟨0x500080, 31, 1, true⟩
abbrev VLV_TILE.BOOST_OK : Field := ⟨0x500080, 30, 1, true⟩
abbrev VLV_TILE.BANK_BUSY : Field := ⟨0x500080, 29, 1, true⟩
abbrev VLV_TILE.ACT_BANK : Field := ⟨0x500080, 28, 1, true⟩
abbrev VLV_TILE.LOADING : Field := ⟨0x500080, 27, 1, true⟩
abbrev VLV_TILE.HS_T : Field := ⟨0x500080, 16, 8, true⟩
abbrev VLV_TILE.RAIL : Field := ⟨0x500080, 0, 16, true⟩
abbrev VLV_ADC.N_ACT : Field := ⟨0x500084, 16, 5, true⟩
abbrev VLV_ADC.RATE : Field := ⟨0x500084, 0, 16, true⟩
abbrev VLV_BANK.BOOST_BUSY : Field := ⟨0x500088, 21, 1, true⟩
abbrev VLV_BANK.HS_ON : Field := ⟨0x500088, 20, 1, true⟩
abbrev VLV_BANK.HOLDER : Field := ⟨0x500088, 18, 2, true⟩
abbrev VLV_BANK.SUM : Field := ⟨0x500088, 0, 16, true⟩
/-! Block LSW. -/
abbrev LSW_SEL.CH : Field := ⟨0x600000, 0, 6, false⟩
abbrev LSW_CTRL.CLR_CNT : Field := ⟨0x600010, 1, 1, true⟩
abbrev LSW_CTRL.PROBE_EN : Field := ⟨0x600010, 0, 1, true⟩
abbrev LSW_LOCK.OPEN : Field := ⟨0x600014, 0, 1, false⟩
abbrev LSW_CMD.PROF : Field := ⟨0x600020, 8, 3, true⟩
abbrev LSW_CMD.KNOCK : Field := ⟨0x600020, 3, 1, true⟩
abbrev LSW_CMD.CLR_FAULT : Field := ⟨0x600020, 2, 1, true⟩
abbrev LSW_CMD.ON : Field := ⟨0x600020, 0, 1, true⟩
abbrev LSW_STATUS.FAULT : Field := ⟨0x600024, 28, 4, true⟩
abbrev LSW_STATUS.KNOCKED : Field := ⟨0x600024, 27, 1, true⟩
abbrev LSW_STATUS.GREEN : Field := ⟨0x600024, 26, 1, true⟩
abbrev LSW_STATUS.AUTONOMOUS : Field := ⟨0x600024, 25, 1, true⟩
abbrev LSW_STATUS.OPEN_ON : Field := ⟨0x600024, 24, 1, true⟩
abbrev LSW_STATUS.OPEN_OFF : Field := ⟨0x600024, 23, 1, true⟩
abbrev LSW_STATUS.STB : Field := ⟨0x600024, 22, 1, true⟩
abbrev LSW_STATUS.WAIT_LONG : Field := ⟨0x600024, 21, 1, true⟩
abbrev LSW_STATUS.RETRIES : Field := ⟨0x600024, 12, 4, true⟩
abbrev LSW_STATUS.PROF : Field := ⟨0x600024, 8, 3, true⟩
abbrev LSW_STATUS.CMD : Field := ⟨0x600024, 6, 1, true⟩
abbrev LSW_STATUS.STATE : Field := ⟨0x600024, 0, 3, true⟩
abbrev LSW_MEAS.V : Field := ⟨0x600028, 16, 16, true⟩
abbrev LSW_MEAS.I : Field := ⟨0x600028, 0, 16, true⟩
abbrev LSW_TEMP.LATCHES : Field := ⟨0x60002c, 24, 8, true⟩
abbrev LSW_TEMP.TJ_PEAK : Field := ⟨0x60002c, 8, 8, true⟩
abbrev LSW_TEMP.TJ : Field := ⟨0x60002c, 0, 8, true⟩
abbrev LSW_CNT.TRIPS : Field := ⟨0x600030, 24, 8, true⟩
abbrev LSW_CNT.RETRIES : Field := ⟨0x600030, 16, 8, true⟩
abbrev LSW_CNT.STARTS : Field := ⟨0x600030, 0, 16, true⟩
abbrev LSW_CFG.I_SET : Field := ⟨0x600034, 16, 16, true⟩
abbrev LSW_CFG.RETRY_N : Field := ⟨0x600034, 12, 4, true⟩
abbrev LSW_CFG.SHED : Field := ⟨0x600034, 10, 2, true⟩
abbrev LSW_CFG.CLASS : Field := ⟨0x600034, 8, 2, true⟩
abbrev LSW_CFG.PROF_DEF : Field := ⟨0x600034, 5, 3, true⟩
abbrev LSW_FEED.WAITING : Field := ⟨0x600080, 24, 8, true⟩
abbrev LSW_FEED.CLAIM : Field := ⟨0x600080, 16, 8, true⟩
abbrev LSW_FEED.SHED_STEP : Field := ⟨0x600080, 14, 2, true⟩
abbrev LSW_FEED.I : Field := ⟨0x600080, 0, 12, true⟩
abbrev LSW_BANK.PRESENT : Field := ⟨0x600088, 31, 1, true⟩
abbrev LSW_BANK.SUM : Field := ⟨0x600088, 0, 16, true⟩
/-! Block UIN. -/
abbrev UIN_SEL.CH : Field := ⟨0x700000, 0, 7, false⟩
abbrev UIN_CTRL.CLR_CNT : Field := ⟨0x700010, 1, 1, true⟩
abbrev UIN_CTRL.SAMPLE_EN : Field := ⟨0x700010, 0, 1, true⟩
abbrev UIN_LOCK.OPEN : Field := ⟨0x700014, 0, 1, false⟩
abbrev UIN_VALUE.VALUE : Field := ⟨0x700020, 0, 32, true⟩
abbrev UIN_STATUS.BIND : Field := ⟨0x700024, 23, 9, true⟩
abbrev UIN_STATUS.BOUND : Field := ⟨0x700024, 22, 1, true⟩
abbrev UIN_STATUS.MODE : Field := ⟨0x700024, 18, 4, true⟩
abbrev UIN_STATUS.LEVEL : Field := ⟨0x700024, 17, 1, true⟩
abbrev UIN_STATUS.FREASON : Field := ⟨0x700024, 11, 3, true⟩
abbrev UIN_STATUS.QUALITY : Field := ⟨0x700024, 0, 3, true⟩
abbrev UIN_RAW.CODE : Field := ⟨0x700028, 0, 16, true⟩
abbrev UIN_STAMP_LO.T : Field := ⟨0x70002c, 0, 32, true⟩
abbrev UIN_STAMP_HI.T : Field := ⟨0x700030, 0, 32, true⟩
abbrev UIN_FREQ.F : Field := ⟨0x700034, 0, 32, true⟩
abbrev UIN_COUNT.COUNT : Field := ⟨0x700038, 0, 32, true⟩
abbrev UIN_PRESET.COUNT : Field := ⟨0x70003c, 0, 32, true⟩
abbrev UIN_CMD.PRESET : Field := ⟨0x700040, 1, 1, true⟩
abbrev UIN_CMD.KNOCK : Field := ⟨0x700040, 0, 1, true⟩
abbrev UIN_CNT.REJECT : Field := ⟨0x700044, 24, 8, true⟩
abbrev UIN_CNT.QERR : Field := ⟨0x700044, 16, 8, true⟩
abbrev UIN_CNT.CHATTER : Field := ⟨0x700044, 8, 8, true⟩
abbrev UIN_CNT.STALE : Field := ⟨0x700044, 0, 8, true⟩
abbrev UIN_SS.LIMIT : Field := ⟨0x700080, 20, 1, true⟩
abbrev UIN_SS.FAULT : Field := ⟨0x700080, 19, 1, true⟩
abbrev UIN_SS.EN : Field := ⟨0x700080, 18, 1, true⟩
abbrev UIN_SS.LEVEL : Field := ⟨0x700080, 16, 2, true⟩
abbrev UIN_SS.I : Field := ⟨0x700080, 0, 16, true⟩
abbrev UIN_BVAL.VALUE : Field := ⟨0x701000, 0, 32, false⟩
abbrev UIN_BQ.AGE : Field := ⟨0x701004, 16, 16, false⟩
abbrev UIN_BQ.FS : Field := ⟨0x701004, 7, 1, false⟩
abbrev UIN_BQ.DIVERGE : Field := ⟨0x701004, 6, 1, false⟩
abbrev UIN_BQ.QUALITY : Field := ⟨0x701004, 0, 3, false⟩
/-! Block LOS. -/
abbrev LOS_SEL.CH : Field := ⟨0x800000, 0, 6, false⟩
abbrev LOS_CTRL.CLS : Field := ⟨0x800010, 4, 2, true⟩
abbrev LOS_CTRL.CLR_CNT : Field := ⟨0x800010, 1, 1, true⟩
abbrev LOS_CTRL.EN : Field := ⟨0x800010, 0, 1, true⟩
abbrev LOS_LOCK.OPEN : Field := ⟨0x800014, 0, 1, false⟩
abbrev LOS_STATUS.SENS : Field := ⟨0x800020, 16, 16, true⟩
abbrev LOS_STATUS.BIAS_OK : Field := ⟨0x800020, 4, 1, true⟩
abbrev LOS_STATUS.SAT : Field := ⟨0x800020, 3, 1, true⟩
abbrev LOS_STATUS.QUALITY : Field := ⟨0x800020, 0, 3, true⟩
abbrev LOS_COUNT.TRASH : Field := ⟨0x800024, 16, 16, true⟩
abbrev LOS_COUNT.GRAIN : Field := ⟨0x800024, 0, 16, true⟩
abbrev LOS_HIT.P : Field := ⟨0x800028, 20, 12, true⟩
abbrev LOS_HIT.GRAIN : Field := ⟨0x800028, 19, 1, true⟩
abbrev LOS_HIT.R : Field := ⟨0x800028, 8, 11, true⟩
abbrev LOS_HIT.Z : Field := ⟨0x800028, 0, 8, true⟩
abbrev LOS_ZONE_G.SIEVE : Field := ⟨0x800080, 16, 16, true⟩
abbrev LOS_ZONE_G.ROTOR : Field := ⟨0x800080, 0, 16, true⟩
abbrev LOS_ZONE_T.SIEVE : Field := ⟨0x800084, 16, 16, true⟩
abbrev LOS_ZONE_T.ROTOR : Field := ⟨0x800084, 0, 16, true⟩
abbrev LOS_WIN.WIN : Field := ⟨0x800088, 0, 32, true⟩
abbrev LOS_TOTAL.GRAIN : Field := ⟨0x80008c, 0, 32, true⟩
/-! Block CAN. -/
abbrev CAN_SEL.CH : Field := ⟨0x900000, 0, 4, false⟩
abbrev CAN_LOCK.OPEN : Field := ⟨0x900014, 0, 1, false⟩
abbrev CAN_CTRL.MODE : Field := ⟨0x900020, 9, 2, true⟩
abbrev CAN_CTRL.CLR_LOCKOUT : Field := ⟨0x900020, 8, 1, true⟩
abbrev CAN_CTRL.CLR_CNT : Field := ⟨0x900020, 7, 1, true⟩
abbrev CAN_CTRL.SELF_RX : Field := ⟨0x900020, 6, 1, true⟩
abbrev CAN_CTRL.TX_ORDER : Field := ⟨0x900020, 5, 1, true⟩
abbrev CAN_CTRL.TDC_EN : Field := ⟨0x900020, 4, 1, true⟩
abbrev CAN_CTRL.TERM : Field := ⟨0x900020, 3, 1, true⟩
abbrev CAN_CTRL.STANDBY : Field := ⟨0x900020, 2, 1, true⟩
abbrev CAN_CTRL.KNOCK : Field := ⟨0x900020, 1, 1, true⟩
abbrev CAN_NBT.NBRP : Field := ⟨0x900024, 23, 9, true⟩
abbrev CAN_NBT.NTSEG1 : Field := ⟨0x900024, 15, 8, true⟩
abbrev CAN_NBT.NTSEG2 : Field := ⟨0x900024, 8, 7, true⟩
abbrev CAN_NBT.NSJW : Field := ⟨0x900024, 0, 7, true⟩
abbrev CAN_DBT.DBRP : Field := ⟨0x900028, 16, 5, true⟩
abbrev CAN_DBT.DTSEG1 : Field := ⟨0x900028, 8, 5, true⟩
abbrev CAN_DBT.DTSEG2 : Field := ⟨0x900028, 4, 4, true⟩
abbrev CAN_DBT.DSJW : Field := ⟨0x900028, 0, 4, true⟩
abbrev CAN_TDC.TDCV : Field := ⟨0x90002c, 24, 7, true⟩
abbrev CAN_TDC.TDCF : Field := ⟨0x90002c, 8, 7, true⟩
abbrev CAN_TDC.TDCO : Field := ⟨0x90002c, 0, 7, true⟩
abbrev CAN_STATUS.LAST_ERR : Field := ⟨0x900030, 28, 4, true⟩
abbrev CAN_STATUS.WAKE : Field := ⟨0x900030, 27, 1, true⟩
abbrev CAN_STATUS.TRX_FAULT : Field := ⟨0x900030, 26, 1, true⟩
abbrev CAN_STATUS.KNOCKED : Field := ⟨0x900030, 25, 1, true⟩
abbrev CAN_STATUS.LOCKOUT : Field := ⟨0x900030, 24, 1, true⟩
abbrev CAN_STATUS.GREEN : Field := ⟨0x900030, 23, 1, true⟩
abbrev CAN_STATUS.AUTONOMOUS : Field := ⟨0x900030, 22, 1, true⟩
abbrev CAN_STATUS.TRX : Field := ⟨0x900030, 20, 2, true⟩
abbrev CAN_STATUS.STATE : Field := ⟨0x900030, 18, 2, true⟩
abbrev CAN_STATUS.RECOV : Field := ⟨0x900030, 8, 8, true⟩
abbrev CAN_STATUS.BOFF : Field := ⟨0x900030, 4, 4, true⟩
abbrev CAN_ERRC.REC : Field := ⟨0x900034, 16, 8, true⟩
abbrev CAN_ERRC.TEC : Field := ⟨0x900034, 0, 9, true⟩
abbrev CAN_SA.EN : Field := ⟨0x900038, 8, 1, true⟩
abbrev CAN_SA.SA : Field := ⟨0x900038, 0, 8, true⟩
abbrev CAN_TXCMD.ABORT : Field := ⟨0x900040, 4, 3, true⟩
abbrev CAN_TXCMD.REQ : Field := ⟨0x900040, 0, 3, true⟩
abbrev CAN_TXST.STATE : Field := ⟨0x900044, 29, 3, true⟩
abbrev CAN_TXST.SCHED : Field := ⟨0x900044, 28, 1, true⟩
abbrev CAN_TXST.ERR_TYPE : Field := ⟨0x900044, 25, 3, true⟩
abbrev CAN_TXST.ERR_FIELD : Field := ⟨0x900044, 22, 3, true⟩
abbrev CAN_TXST.ERR_POS : Field := ⟨0x900044, 12, 10, true⟩
abbrev CAN_TXST.ATTEMPTS : Field := ⟨0x900044, 0, 8, true⟩
abbrev CAN_RXQ.HEAD : Field := ⟨0x900060, 16, 16, true⟩
abbrev CAN_RXQ.TAIL : Field := ⟨0x900060, 0, 16, true⟩
abbrev CAN_RXACK.TAIL : Field := ⟨0x900064, 0, 16, true⟩
abbrev CAN_CNT.RX_OVF : Field := ⟨0x900068, 24, 8, true⟩
abbrev CAN_CNT.CLASH : Field := ⟨0x900068, 16, 8, true⟩
abbrev CAN_CNT.BOFF : Field := ⟨0x900068, 8, 8, true⟩
abbrev CAN_CNT.SKIP : Field := ⟨0x900068, 0, 8, true⟩
abbrev CAN_CLASH.KIND : Field := ⟨0x90006c, 31, 1, true⟩
abbrev CAN_CLASH.IDE : Field := ⟨0x90006c, 30, 1, true⟩
abbrev CAN_CLASH.ID : Field := ⟨0x90006c, 0, 29, true⟩
abbrev CAN_TXB_W0.IDE : Field := ⟨0x900100, 31, 1, true⟩
abbrev CAN_TXB_W0.RTR : Field := ⟨0x900100, 30, 1, true⟩
abbrev CAN_TXB_W0.ID : Field := ⟨0x900100, 0, 29, true⟩
abbrev CAN_TXB_W1.ONESHOT : Field := ⟨0x900104, 31, 1, true⟩
abbrev CAN_TXB_W1.FDF : Field := ⟨0x900104, 30, 1, true⟩
abbrev CAN_TXB_W1.BRS : Field := ⟨0x900104, 29, 1, true⟩
abbrev CAN_TXB_W1.DLC : Field := ⟨0x900104, 0, 4, true⟩
abbrev CAN_TXB_DATA.DATA : Field := ⟨0x900108, 0, 32, true⟩
abbrev CAN_SIGV.VALUE : Field := ⟨0x900800, 0, 32, false⟩
abbrev CAN_RXE_W0.IDE_RTR_ID : Field := ⟨0x901000, 0, 32, true⟩
abbrev CAN_RXE_W1.SEQ : Field := ⟨0x901004, 16, 16, true⟩
abbrev CAN_RXE_W1.FILTER : Field := ⟨0x901004, 10, 6, true⟩
abbrev CAN_RXE_W1.FDF : Field := ⟨0x901004, 9, 1, true⟩
abbrev CAN_RXE_W1.BRS : Field := ⟨0x901004, 8, 1, true⟩
abbrev CAN_RXE_W1.ESI : Field := ⟨0x901004, 7, 1, true⟩
abbrev CAN_RXE_W1.SELF : Field := ⟨0x901004, 6, 1, true⟩
abbrev CAN_RXE_W1.DLC : Field := ⟨0x901004, 0, 4, true⟩
abbrev CAN_RXE_STAMP.STAMP : Field := ⟨0x901008, 0, 32, true⟩
abbrev CAN_RXE_DATA.DATA : Field := ⟨0x901010, 0, 32, true⟩
/-! Block ETH and FLX. -/
abbrev ETH_CTRL.CLR_CNT : Field := ⟨0xa00010, 1, 1, false⟩
abbrev ETH_CTRL.S0_EN : Field := ⟨0xa00010, 0, 1, false⟩
abbrev ETH_LOCK.OPEN : Field := ⟨0xa00014, 0, 1, false⟩
abbrev ETH_PORT.ERR : Field := ⟨0xa00040, 24, 8, false⟩
abbrev ETH_PORT.DROP : Field := ⟨0xa00040, 16, 8, false⟩
abbrev ETH_PORT.FORCE : Field := ⟨0xa00040, 7, 1, false⟩
abbrev ETH_PORT.SPEED : Field := ⟨0xa00040, 4, 3, false⟩
abbrev ETH_PORT.FSPEED : Field := ⟨0xa00040, 2, 1, false⟩
abbrev ETH_PORT.MASTER : Field := ⟨0xa00040, 1, 1, false⟩
abbrev ETH_PORT.LINK : Field := ⟨0xa00040, 0, 1, false⟩
abbrev ETH_SW.SRV : Field := ⟨0xa00070, 1, 1, false⟩
abbrev ETH_SW.GM : Field := ⟨0xa00070, 0, 1, false⟩
abbrev ETH_GM.FOREIGN : Field := ⟨0xa00074, 8, 8, false⟩
abbrev ETH_GM.PRIO1 : Field := ⟨0xa00074, 0, 8, false⟩
abbrev FLX_CTRL.EN : Field := ⟨0xa00100, 0, 1, false⟩
abbrev FLX_STATUS.TIME_UNCHECKED : Field := ⟨0xa00104, 31, 1, false⟩
abbrev FLX_STATUS.OPEN : Field := ⟨0xa00104, 0, 16, false⟩
abbrev FLX_YLD.ACKED : Field := ⟨0xa00108, 0, 32, false⟩
abbrev FLX_CART.STALE : Field := ⟨0xa0010c, 31, 1, false⟩
abbrev FLX_CART.ACTIVE : Field := ⟨0xa0010c, 24, 4, false⟩
abbrev FLX_CART.MODE : Field := ⟨0xa0010c, 16, 8, false⟩
abbrev FLX_CART.AGE : Field := ⟨0xa0010c, 0, 16, false⟩
abbrev FLX_SPOUT.X : Field := ⟨0xa00110, 16, 16, false⟩
abbrev FLX_SPOUT.Y : Field := ⟨0xa00110, 0, 16, false⟩
abbrev FLX_CNT.AUTH : Field := ⟨0xa00114, 24, 8, false⟩
abbrev FLX_CNT.DUP : Field := ⟨0xa00114, 16, 8, false⟩
abbrev FLX_CNT.TILE_LOST : Field := ⟨0xa00114, 8, 8, false⟩
abbrev FLX_CNT.TIMEOUT : Field := ⟨0xa00114, 0, 8, false⟩
abbrev FLX_CART_CMD.RELEASE : Field := ⟨0xa00118, 9, 1, false⟩
abbrev FLX_CART_CMD.SEL : Field := ⟨0xa00118, 8, 1, false⟩
abbrev FLX_CART_CMD.SLOT : Field := ⟨0xa00118, 0, 4, false⟩
abbrev FLX_PEER_IP.ADDR : Field := ⟨0xa00120, 0, 32, false⟩
abbrev FLX_PEER_CMD.PORT : Field := ⟨0xa00124, 16, 16, false⟩
abbrev FLX_PEER_CMD.CLOSE : Field := ⟨0xa00124, 7, 1, false⟩
abbrev FLX_PEER_CMD.OPEN : Field := ⟨0xa00124, 6, 1, false⟩
abbrev FLX_PEER_CMD.SLOT : Field := ⟨0xa00124, 0, 4, false⟩
abbrev FLX_SESS.ROLE : Field := ⟨0xa00140, 30, 2, false⟩
abbrev FLX_SESS.CLIENT : Field := ⟨0xa00140, 29, 1, false⟩
abbrev FLX_SESS.CLOSE : Field := ⟨0xa00140, 20, 4, false⟩
abbrev FLX_SESS.STATE : Field := ⟨0xa00140, 16, 4, false⟩
abbrev FLX_SESS.UNACKED : Field := ⟨0xa00140, 0, 16, false⟩
/-! Block GNS. -/
abbrev GNS_SEL.CH : Field := ⟨0xb00000, 0, 8, false⟩
abbrev GNS_CTRL.CLR_CNT : Field := ⟨0xb00010, 2, 1, false⟩
abbrev GNS_CTRL.COLD : Field := ⟨0xb00010, 1, 1, false⟩
abbrev GNS_CTRL.EN : Field := ⟨0xb00010, 0, 1, false⟩
abbrev GNS_LOCK.OPEN : Field := ⟨0xb00014, 0, 1, false⟩
abbrev GNS_STATUS.BB_SUSPECT : Field := ⟨0xb00018, 31, 1, false⟩
abbrev GNS_STATUS.BB_SINGLE : Field := ⟨0xb00018, 30, 1, false⟩
abbrev GNS_STATUS.DUMP_OVF : Field := ⟨0xb00018, 29, 1, false⟩
abbrev GNS_STATUS.ALIGNED : Field := ⟨0xb00018, 28, 1, false⟩
abbrev GNS_STATUS.HDG_OK : Field := ⟨0xb00018, 27, 1, false⟩
abbrev GNS_STATUS.HEADING_ENG : Field := ⟨0xb00018, 26, 1, false⟩
abbrev GNS_STATUS.POSITION_ENG : Field := ⟨0xb00018, 25, 1, false⟩
abbrev GNS_STATUS.TRUSTED : Field := ⟨0xb00018, 24, 1, false⟩
abbrev GNS_STATUS.CH_RUN : Field := ⟨0xb00018, 16, 8, false⟩
abbrev GNS_STATUS.SV_USED : Field := ⟨0xb00018, 8, 8, false⟩
abbrev GNS_STATUS.Q : Field := ⟨0xb00018, 0, 3, false⟩
abbrev GNS_MEAS_CFG.ELEV_MASK : Field := ⟨0xb0001c, 8, 8, false⟩
abbrev GNS_MEAS_CFG.RATE : Field := ⟨0xb0001c, 0, 2, false⟩
abbrev GNS_RF.JAM_DB : Field := ⟨0xb00020, 24, 8, false⟩
abbrev GNS_RF.JAM : Field := ⟨0xb00020, 22, 2, false⟩
abbrev GNS_RF.NOTCH : Field := ⟨0xb00020, 16, 4, false⟩
abbrev GNS_RF.AGC : Field := ⟨0xb00020, 8, 8, false⟩
abbrev GNS_ANT.STATE : Field := ⟨0xb00040, 30, 2, true⟩
abbrev GNS_ANT.V : Field := ⟨0xb00040, 8, 8, true⟩
abbrev GNS_ANT.I : Field := ⟨0xb00040, 0, 8, true⟩
abbrev GNS_DUMP_BASE.VALUE : Field := ⟨0xb00060, 0, 32, false⟩
abbrev GNS_DUMP_HEAD.VALUE : Field := ⟨0xb00064, 0, 32, false⟩
abbrev GNS_DUMP_TAIL.VALUE : Field := ⟨0xb00068, 0, 32, false⟩
abbrev GNS_LAT_BUF.VALUE : Field := ⟨0xb00070, 0, 32, false⟩
abbrev GNS_LAT_SEQ.VALUE : Field := ⟨0xb00074, 0, 32, false⟩
abbrev GNS_MREC_OWN.VALUE : Field := ⟨0xb00078, 0, 32, false⟩
abbrev GNS_MREC_SIB.VALUE : Field := ⟨0xb0007c, 0, 32, false⟩
abbrev GNS_CORR_CFG.AGE_MAX : Field := ⟨0xb00080, 8, 6, false⟩
abbrev GNS_CORR_CFG.PRIO : Field := ⟨0xb00080, 0, 8, false⟩
abbrev GNS_CORR_ADDR.ADDR : Field := ⟨0xb00084, 0, 32, false⟩
abbrev GNS_CORR_CMD.SRC : Field := ⟨0xb00088, 16, 2, false⟩
abbrev GNS_CORR_CMD.LEN : Field := ⟨0xb00088, 0, 11, false⟩
abbrev GNS_CORR_STAT.BUSY : Field := ⟨0xb0008c, 31, 1, false⟩
abbrev GNS_CORR_STAT.RES : Field := ⟨0xb0008c, 28, 3, false⟩
abbrev GNS_CORR_STAT.ACTIVE : Field := ⟨0xb0008c, 26, 2, false⟩
abbrev GNS_CORR_STAT.ANY_VALID : Field := ⟨0xb0008c, 25, 1, false⟩
abbrev GNS_CORR_STAT.VALID : Field := ⟨0xb0008c, 20, 4, false⟩
abbrev GNS_CORR_STAT.AGE : Field := ⟨0xb0008c, 0, 16, false⟩
abbrev GNS_AID_TIME.GPS_S : Field := ⟨0xb00090, 0, 32, false⟩
abbrev GNS_POS_LAT.VALUE : Field := ⟨0xb000a0, 0, 32, false⟩
abbrev GNS_POS_LON.VALUE : Field := ⟨0xb000a4, 0, 32, false⟩
abbrev GNS_POS_HGT.VALUE : Field := ⟨0xb000a8, 0, 32, false⟩
abbrev GNS_POS_FINE.SIG_H : Field := ⟨0xb000ac, 16, 16, false⟩
abbrev GNS_POS_FINE.LAT_F : Field := ⟨0xb000ac, 8, 8, false⟩
abbrev GNS_POS_FINE.LON_F : Field := ⟨0xb000ac, 0, 8, false⟩
abbrev GNS_POS_VEL.COURSE : Field := ⟨0xb000b0, 16, 16, false⟩
abbrev GNS_POS_VEL.SPEED : Field := ⟨0xb000b0, 0, 16, false⟩
abbrev GNS_HDG.VALID : Field := ⟨0xb000b4, 31, 1, false⟩
abbrev GNS_HDG.SIG : Field := ⟨0xb000b4, 16, 15, false⟩
abbrev GNS_HDG.HDG : Field := ⟨0xb000b4, 0, 16, false⟩
abbrev GNS_PSE_BUF.ADDR : Field := ⟨0xb000c0, 0, 32, false⟩
abbrev GNS_CNT.LATE : Field := ⟨0xb000d0, 24, 8, false⟩
abbrev GNS_CNT.XHALF : Field := ⟨0xb000d0, 16, 8, false⟩
abbrev GNS_CNT.RAIM : Field := ⟨0xb000d0, 8, 8, false⟩
abbrev GNS_CNT.EPOCH : Field := ⟨0xb000d0, 0, 8, false⟩
abbrev GNS_CH_CFG.SV : Field := ⟨0xb00100, 24, 8, false⟩
abbrev GNS_CH_CFG.SYS : Field := ⟨0xb00100, 20, 4, false⟩
abbrev GNS_CH_CFG.SIG : Field := ⟨0xb00100, 16, 4, false⟩
abbrev GNS_CH_CFG.ANT : Field := ⟨0xb00100, 15, 1, false⟩
abbrev GNS_CH_CFG.INT : Field := ⟨0xb00100, 12, 3, false⟩
abbrev GNS_CH_CFG.SPACING : Field := ⟨0xb00100, 0, 6, false⟩
abbrev GNS_CH_CTRL.KNOCK : Field := ⟨0xb00104, 2, 1, false⟩
abbrev GNS_CH_CTRL.STOP : Field := ⟨0xb00104, 1, 1, false⟩
abbrev GNS_CH_CTRL.START : Field := ⟨0xb00104, 0, 1, false⟩
abbrev GNS_CH_CARR.RATE : Field := ⟨0xb00108, 0, 32, false⟩
abbrev GNS_CH_CODE.RATE : Field := ⟨0xb0010c, 0, 32, false⟩
abbrev GNS_CH_SLEW.EPOCHS : Field := ⟨0xb00110, 16, 5, false⟩
abbrev GNS_CH_SLEW.CODE : Field := ⟨0xb00110, 0, 16, false⟩
abbrev GNS_CH_STATUS.STATE : Field := ⟨0xb00114, 30, 2, false⟩
abbrev GNS_CH_STATUS.UPD_LATE : Field := ⟨0xb00114, 29, 1, false⟩
abbrev GNS_CH_STATUS.HANDOFF : Field := ⟨0xb00114, 28, 1, false⟩
abbrev GNS_CH_STATUS.CFG_ERR : Field := ⟨0xb00114, 27, 1, false⟩
abbrev GNS_CH_STATUS.SEQ : Field := ⟨0xb00114, 0, 16, false⟩
abbrev GNS_ACQ_TAB.ADDR : Field := ⟨0xb00140, 0, 32, false⟩
abbrev GNS_ACQ_CMD.N : Field := ⟨0xb00144, 8, 6, false⟩
abbrev GNS_ACQ_CMD.KNOCK : Field := ⟨0xb00144, 1, 1, false⟩
abbrev GNS_ACQ_CMD.GO : Field := ⟨0xb00144, 0, 1, false⟩
abbrev GNS_ACQ_STATUS.BUSY : Field := ⟨0xb00148, 31, 1, false⟩
abbrev GNS_ACQ_STATUS.KNOCKED : Field := ⟨0xb00148, 30, 1, false⟩
abbrev GNS_ACQ_STATUS.ENTRY : Field := ⟨0xb00148, 16, 6, false⟩
abbrev GNS_ACQ_STATUS.HITS : Field := ⟨0xb00148, 8, 8, false⟩
abbrev GNS_ACQ_STATUS.DONE : Field := ⟨0xb00148, 0, 8, false⟩
/-! Block PRJ. -/
abbrev PRJ_CTRL.CLR_CNT : Field := ⟨0xc00010, 1, 1, false⟩
abbrev PRJ_CTRL.EN : Field := ⟨0xc00010, 0, 1, false⟩
abbrev PRJ_LOCK.OPEN : Field := ⟨0xc00014, 0, 1, false⟩
abbrev PRJ_STATUS.GATED : Field := ⟨0xc00018, 16, 2, false⟩
abbrev PRJ_STATUS.FAULT : Field := ⟨0xc00018, 8, 8, false⟩
abbrev PRJ_STATUS.ACTIVE : Field := ⟨0xc00018, 0, 8, false⟩
abbrev PRJ_RATE.PEAK : Field := ⟨0xc0001c, 16, 16, false⟩
abbrev PRJ_RATE.RATE : Field := ⟨0xc0001c, 0, 16, false⟩
abbrev PRJ_KNOCK.PIPE : Field := ⟨0xc00020, 0, 8, false⟩
abbrev PRJ_GROUND.FILLED : Field := ⟨0xc00024, 16, 13, false⟩
abbrev PRJ_GROUND.MEASURED : Field := ⟨0xc00024, 0, 13, false⟩
abbrev PRJ_PORT.DROP : Field := ⟨0xc00040, 24, 8, false⟩
abbrev PRJ_PORT.SEQ_GAP : Field := ⟨0xc00040, 16, 8, false⟩
abbrev PRJ_PORT.AGE : Field := ⟨0xc00040, 4, 12, false⟩
abbrev PRJ_PORT.STATE : Field := ⟨0xc00040, 0, 3, false⟩
/-! Block FEA. -/
abbrev FEA_CTRL.CLR_CNT : Field := ⟨0xd00010, 1, 1, false⟩
abbrev FEA_CTRL.EN : Field := ⟨0xd00010, 0, 1, false⟩
abbrev FEA_LOCK.OPEN : Field := ⟨0xd00014, 0, 1, false⟩
abbrev FEA_STATUS.HALF_CLK : Field := ⟨0xd00018, 24, 1, false⟩
abbrev FEA_STATUS.TOPS : Field := ⟨0xd00018, 8, 16, false⟩
abbrev FEA_STATUS.SLICES : Field := ⟨0xd00018, 0, 8, false⟩
abbrev FEA_MODEL.LOADING : Field := ⟨0xd00020, 16, 1, false⟩
abbrev FEA_MODEL.LOADED : Field := ⟨0xd00020, 0, 16, false⟩
abbrev FEA_MRES.RES : Field := ⟨0xd00024, 0, 4, false⟩
abbrev FEA_LOAD.S : Field := ⟨0xd00030, 24, 8, false⟩
abbrev FEA_LOAD.L : Field := ⟨0xd00030, 16, 8, false⟩
abbrev FEA_LOAD.Q : Field := ⟨0xd00030, 8, 8, false⟩
abbrev FEA_LOAD.G : Field := ⟨0xd00030, 0, 8, false⟩
abbrev FEA_KNOCK.CLASS : Field := ⟨0xd00034, 0, 4, false⟩
abbrev FEA_CNT.L_DROP : Field := ⟨0xd00038, 16, 16, false⟩
abbrev FEA_CNT.ESCAL : Field := ⟨0xd00038, 8, 8, false⟩
abbrev FEA_CNT.KNOCKED : Field := ⟨0xd00038, 0, 8, false⟩
/-! Block GRD and TRK. -/
abbrev TRK_SEL.SLOT : Field := ⟨0xe00000, 0, 9, false⟩
abbrev TRK_CTRL.CLR_CNT : Field := ⟨0xe00010, 1, 1, false⟩
abbrev TRK_CTRL.EN : Field := ⟨0xe00010, 0, 1, false⟩
abbrev TRK_STATUS.IGN_REFUSED : Field := ⟨0xe00014, 22, 1, false⟩
abbrev TRK_STATUS.SPLIT : Field := ⟨0xe00014, 21, 1, false⟩
abbrev TRK_STATUS.FULL : Field := ⟨0xe00014, 20, 1, false⟩
abbrev TRK_STATUS.CONFIRMED : Field := ⟨0xe00014, 10, 10, false⟩
abbrev TRK_STATUS.IN_USE : Field := ⟨0xe00014, 0, 10, false⟩
abbrev TRK_STOP.CLASS_D : Field := ⟨0xe00018, 24, 8, false⟩
abbrev TRK_STOP.CLASS_H : Field := ⟨0xe00018, 16, 8, false⟩
abbrev TRK_STOP.BLIND : Field := ⟨0xe00018, 7, 1, false⟩
abbrev TRK_STOP.HOLD : Field := ⟨0xe00018, 6, 1, false⟩
abbrev TRK_STOP.HEADER : Field := ⟨0xe00018, 2, 2, false⟩
abbrev TRK_STOP.DRIVE : Field := ⟨0xe00018, 0, 2, false⟩
abbrev TRK_STOP_CFG.D_STOP : Field := ⟨0xe0001c, 24, 8, false⟩
abbrev TRK_STOP_CFG.T_SLOW : Field := ⟨0xe0001c, 16, 8, false⟩
abbrev TRK_STOP_CFG.T_STOP : Field := ⟨0xe0001c, 8, 8, false⟩
abbrev TRK_CYCLE.VALUE : Field := ⟨0xe00020, 0, 32, false⟩
abbrev TRK_BUF.VALUE : Field := ⟨0xe00024, 0, 32, false⟩
abbrev TRK_CMD.IGNORE : Field := ⟨0xe00028, 16, 1, false⟩
abbrev TRK_CMD.ID : Field := ⟨0xe00028, 0, 16, false⟩
abbrev TRK_CNT.FULL : Field := ⟨0xe0002c, 24, 8, false⟩
abbrev TRK_CNT.OOS_OLD : Field := ⟨0xe0002c, 16, 8, false⟩
abbrev TRK_CNT.OOS_USED : Field := ⟨0xe0002c, 0, 16, false⟩
abbrev TRK_REC.WORD : Field := ⟨0xe00040, 0, 32, false⟩
abbrev GRD_CTRL.CLR_CNT : Field := ⟨0xe00100, 1, 1, false⟩
abbrev GRD_CTRL.SLOW : Field := ⟨0xe00100, 0, 1, false⟩
abbrev GRD_LOCK.OPEN : Field := ⟨0xe00104, 0, 1, false⟩
abbrev GRD_STATUS.NO_OBST : Field := ⟨0xe00108, 18, 1, false⟩
abbrev GRD_STATUS.POSE_OK : Field := ⟨0xe00108, 17, 1, false⟩
abbrev GRD_STATUS.SIB : Field := ⟨0xe00108, 16, 1, false⟩
abbrev GRD_STATUS.COVER : Field := ⟨0xe00108, 8, 8, false⟩
abbrev GRD_STATUS.RATE : Field := ⟨0xe00108, 3, 1, false⟩
abbrev GRD_STATUS.GRADE : Field := ⟨0xe00108, 0, 3, false⟩
abbrev GRD_CYCLE.CYCLE : Field := ⟨0xe0010c, 0, 32, false⟩
abbrev GRD_BUF.ADDR : Field := ⟨0xe00110, 0, 32, false⟩
abbrev GRD_PUB.MAX : Field := ⟨0xe00114, 16, 16, false⟩
abbrev GRD_PUB.LAST : Field := ⟨0xe00114, 0, 16, false⟩
abbrev GRD_LATE.HI : Field := ⟨0xe00118, 16, 16, false⟩
abbrev GRD_LATE.LO : Field := ⟨0xe00118, 0, 16, false⟩
abbrev GRD_XTRAP.HI : Field := ⟨0xe0011c, 16, 16, false⟩
abbrev GRD_XTRAP.LO : Field := ⟨0xe0011c, 0, 16, false⟩
abbrev GRD_MISS.HI : Field := ⟨0xe00120, 16, 16, false⟩
abbrev GRD_MISS.LO : Field := ⟨0xe00120, 0, 16, false⟩
abbrev GRD_PVAL.VALUE : Field := ⟨0xe00180, 0, 32, false⟩
abbrev GRD_PQ.AGE : Field := ⟨0xe00200, 16, 16, false⟩
abbrev GRD_PQ.QUALITY : Field := ⟨0xe00200, 0, 3, false⟩
/-! Block DSP. -/
abbrev DSP_CTRL.PNL_EN : Field := ⟨0xf00010, 1, 1, true⟩
abbrev DSP_CTRL.SEG_EN : Field := ⟨0xf00010, 0, 1, true⟩
abbrev DSP_LOCK.OPEN : Field := ⟨0xf00014, 0, 1, false⟩
abbrev DSP_STATUS.LVL_FAULT : Field := ⟨0xf00018, 7, 1, true⟩
abbrev DSP_STATUS.COPYING : Field := ⟨0xf00018, 6, 1, true⟩
abbrev DSP_STATUS.STORE : Field := ⟨0xf00018, 5, 1, true⟩
abbrev DSP_STATUS.BL : Field := ⟨0xf00018, 4, 1, true⟩
abbrev DSP_STATUS.FAST : Field := ⟨0xf00018, 3, 1, true⟩
abbrev DSP_STATUS.PNL_STATE : Field := ⟨0xf00018, 0, 3, true⟩
abbrev DSP_LEVEL.V1_DEV : Field := ⟨0xf0001c, 24, 8, true⟩
abbrev DSP_LEVEL.V2_DEV : Field := ⟨0xf0001c, 16, 8, true⟩
abbrev DSP_LEVEL.VLCD : Field := ⟨0xf0001c, 0, 16, true⟩
abbrev DSP_SEG.BITS : Field := ⟨0xf00020, 0, 32, true⟩
abbrev DSP_SEG_CMD.LATCH : Field := ⟨0xf00048, 0, 1, true⟩
abbrev DSP_PNL_SRC.ADDR : Field := ⟨0xf00050, 0, 32, true⟩
abbrev DSP_PNL_CMD.LOAD : Field := ⟨0xf00054, 0, 1, true⟩
/-! Block FAN and PWR. -/
abbrev FAN_SEL.CH : Field := ⟨0x1000000, 0, 2, false⟩
abbrev PWR_CTRL.CLR_CNT : Field := ⟨0x1000010, 0, 1, true⟩
abbrev PWR_LOCK.OPEN : Field := ⟨0x1000014, 0, 1, false⟩
abbrev PWR_STATUS.LAST_LOSS : Field := ⟨0x1000018, 6, 2, true⟩
abbrev PWR_STATUS.DERATE : Field := ⟨0x1000018, 5, 1, true⟩
abbrev PWR_STATUS.SYS24 : Field := ⟨0x1000018, 4, 1, true⟩
abbrev PWR_STATUS.LSTATE : Field := ⟨0x1000018, 0, 3, true⟩
abbrev PWR_LOGIC.I : Field := ⟨0x100001c, 16, 16, true⟩
abbrev PWR_LOGIC.V : Field := ⟨0x100001c, 0, 16, true⟩
abbrev PWR_FEED.CONNECT : Field := ⟨0x1000020, 31, 1, true⟩
abbrev PWR_FEED.FUSE_OPEN : Field := ⟨0x1000020, 30, 1, true⟩
abbrev PWR_FEED.STUD_LOW : Field := ⟨0x1000020, 29, 1, true⟩
abbrev PWR_FEED.I : Field := ⟨0x1000020, 12, 12, true⟩
abbrev PWR_FEED.V : Field := ⟨0x1000020, 0, 12, true⟩
abbrev PWR_HOLDUP.READY : Field := ⟨0x1000030, 31, 1, true⟩
abbrev PWR_HOLDUP.ACTIVE : Field := ⟨0x1000030, 30, 1, true⟩
abbrev PWR_HOLDUP.V : Field := ⟨0x1000030, 0, 16, true⟩
abbrev PWR_TEMP.SENSOR_FAULT : Field := ⟨0x1000034, 31, 1, true⟩
abbrev PWR_TEMP.TA : Field := ⟨0x1000034, 16, 8, true⟩
abbrev PWR_TEMP.TC_OUT : Field := ⟨0x1000034, 8, 8, true⟩
abbrev PWR_TEMP.TC_IN : Field := ⟨0x1000034, 0, 8, true⟩
abbrev PWR_SHDN.ASSERTED : Field := ⟨0x1000038, 31, 1, true⟩
abbrev PWR_SHDN.PIN_LOW : Field := ⟨0x1000038, 30, 1, true⟩
abbrev PWR_SHDN.OVERRIDE : Field := ⟨0x1000038, 29, 1, true⟩
abbrev PWR_SHDN.T_SH : Field := ⟨0x1000038, 16, 8, true⟩
abbrev PWR_SHDN.TS : Field := ⟨0x1000038, 0, 8, true⟩
abbrev FAN_AUTO.T_HI : Field := ⟨0x100003c, 8, 8, true⟩
abbrev FAN_AUTO.T_LO : Field := ⟨0x100003c, 0, 8, true⟩
abbrev FAN_CMD.MANUAL : Field := ⟨0x1000040, 16, 1, true⟩
abbrev FAN_CMD.TARGET : Field := ⟨0x1000040, 0, 16, true⟩
abbrev FAN_STATUS.STALL : Field := ⟨0x1000044, 31, 1, true⟩
abbrev FAN_STATUS.TACH_OPEN : Field := ⟨0x1000044, 30, 1, true⟩
abbrev FAN_STATUS.KICKING : Field := ⟨0x1000044, 29, 1, true⟩
abbrev FAN_STATUS.SKIPPED : Field := ⟨0x1000044, 28, 1, true⟩
abbrev FAN_STATUS.AUTONOMOUS : Field := ⟨0x1000044, 27, 1, true⟩
abbrev FAN_STATUS.DUTY : Field := ⟨0x1000044, 16, 7, true⟩
abbrev FAN_STATUS.RPM : Field := ⟨0x1000044, 0, 16, true⟩
abbrev FAN_CFG.MAX_RPM : Field := ⟨0x1000048, 0, 16, true⟩
abbrev FAN_SKIP.HI : Field := ⟨0x1000060, 16, 16, true⟩
abbrev FAN_SKIP.LO : Field := ⟨0x1000060, 0, 16, true⟩
abbrev PWR_CNT.HOLDUP : Field := ⟨0x1000070, 24, 8, true⟩
abbrev PWR_CNT.CLAMP : Field := ⟨0x1000070, 16, 8, true⟩
abbrev PWR_CNT.SHDN : Field := ⟨0x1000070, 8, 8, true⟩
abbrev PWR_CNT.KICKS : Field := ⟨0x1000070, 0, 8, true⟩
abbrev PWR_SAFE.DISC : Field := ⟨0x1000074, 3, 1, true⟩
abbrev PWR_SAFE.ASSERTED : Field := ⟨0x1000074, 2, 1, true⟩
abbrev PWR_SAFE.B_REL : Field := ⟨0x1000074, 1, 1, true⟩
abbrev PWR_SAFE.A_REL : Field := ⟨0x1000074, 0, 1, true⟩
/-! Block UPD. -/
abbrev UPD_CTRL.CLR_CNT : Field := ⟨0x1100010, 1, 1, false⟩
abbrev UPD_CTRL.NET_EN : Field := ⟨0x1100010, 0, 1, false⟩
abbrev UPD_LOCK.OPEN : Field := ⟨0x1100014, 0, 1, false⟩
abbrev UPD_REQ_ADDR.ADDR : Field := ⟨0x1100020, 0, 32, false⟩
abbrev UPD_REQ_CMD.REGION : Field := ⟨0x1100024, 16, 3, false⟩
abbrev UPD_REQ_CMD.OP : Field := ⟨0x1100024, 0, 3, false⟩
abbrev UPD_RESULT.BUSY : Field := ⟨0x1100028, 31, 1, false⟩
abbrev UPD_RESULT.ROAST : Field := ⟨0x1100028, 27, 4, false⟩
abbrev UPD_RESULT.RES : Field := ⟨0x1100028, 16, 5, false⟩
abbrev UPD_RESULT.SESSION : Field := ⟨0x1100028, 0, 16, false⟩
abbrev UPD_HOLDER.SOURCE : Field := ⟨0x110002c, 0, 32, false⟩
abbrev UPD_SESS.STATE : Field := ⟨0x1100040, 28, 4, false⟩
abbrev UPD_SESS.KIND : Field := ⟨0x1100040, 24, 4, false⟩
abbrev UPD_SESS.BLOCKS : Field := ⟨0x1100040, 0, 24, false⟩
abbrev UPD_REGION.VALID : Field := ⟨0x1100060, 31, 1, false⟩
abbrev UPD_REGION.RESTORED : Field := ⟨0x1100060, 30, 1, false⟩
abbrev UPD_REGION.FLOOR : Field := ⟨0x1100060, 8, 6, false⟩
abbrev UPD_REGION.RB : Field := ⟨0x1100060, 0, 6, false⟩
abbrev UPD_VER.VERSION : Field := ⟨0x1100080, 0, 32, false⟩
abbrev UPD_CNT.REFUSED : Field := ⟨0x11000c0, 24, 8, false⟩
abbrev UPD_CNT.CRC : Field := ⟨0x11000c0, 16, 8, false⟩
abbrev UPD_CNT.RESTORES : Field := ⟨0x11000c0, 8, 8, false⟩
abbrev UPD_CNT.KNOCKS : Field := ⟨0x11000c0, 0, 8, false⟩
/-! Block CAL. -/
abbrev CAL_SESS.CLOSE : Field := ⟨0x1200010, 1, 1, false⟩
abbrev CAL_SESS.REQ : Field := ⟨0x1200010, 0, 1, false⟩
abbrev CAL_LOCK.HOLDER : Field := ⟨0x1200014, 1, 4, true⟩
abbrev CAL_LOCK.OPEN : Field := ⟨0x1200014, 0, 1, true⟩
abbrev CAL_TOKEN.TOKEN : Field := ⟨0x1200018, 0, 32, false⟩
abbrev CAL_KEY.KEY : Field := ⟨0x120001c, 0, 32, false⟩
abbrev CAL_ADDR.ADDR : Field := ⟨0x1200020, 0, 32, false⟩
abbrev CAL_FILE.ADDR : Field := ⟨0x1200024, 0, 32, false⟩
abbrev CAL_CMD.MASK : Field := ⟨0x1200028, 24, 8, false⟩
abbrev CAL_CMD.INDEX : Field := ⟨0x1200028, 16, 8, false⟩
abbrev CAL_CMD.TYPE : Field := ⟨0x1200028, 12, 4, false⟩
abbrev CAL_CMD.OP : Field := ⟨0x1200028, 0, 2, false⟩
abbrev CAL_STATUS.BUSY : Field := ⟨0x120002c, 31, 1, true⟩
abbrev CAL_STATUS.REPLAYED : Field := ⟨0x120002c, 30, 1, true⟩
abbrev CAL_STATUS.RES : Field := ⟨0x120002c, 26, 4, true⟩
abbrev CAL_STATUS.INVALID : Field := ⟨0x120002c, 17, 9, true⟩
abbrev CAL_STATUS.SKIPPED : Field := ⟨0x120002c, 10, 7, true⟩
abbrev CAL_STATUS.WRITES : Field := ⟨0x120002c, 0, 10, true⟩
/-! Block CUP. -/
abbrev CUP_CTRL.EN : Field := ⟨0x1300010, 0, 1, false⟩
abbrev CUP_LOCK.OPEN : Field := ⟨0x1300014, 0, 1, false⟩
abbrev CUP_STATUS.CLEAR_DONE : Field := ⟨0x1300018, 7, 1, false⟩
abbrev CUP_STATUS.CTRL_OK : Field := ⟨0x1300018, 6, 1, false⟩
abbrev CUP_STATUS.GROUP : Field := ⟨0x1300018, 3, 3, false⟩
abbrev CUP_STATUS.PHASE : Field := ⟨0x1300018, 0, 3, false⟩
abbrev CUP_SUMMARY.SKIPPED : Field := ⟨0x130001c, 24, 6, false⟩
abbrev CUP_SUMMARY.INCOMPLETE : Field := ⟨0x130001c, 16, 6, false⟩
abbrev CUP_SUMMARY.FAIL : Field := ⟨0x130001c, 8, 6, false⟩
abbrev CUP_SUMMARY.PASS : Field := ⟨0x130001c, 0, 6, false⟩
abbrev CUP_RUN.DURATION : Field := ⟨0x1300020, 16, 16, false⟩
abbrev CUP_RUN.RUN : Field := ⟨0x1300020, 0, 16, false⟩
abbrev CUP_ACK.ACK : Field := ⟨0x1300024, 0, 1, false⟩
abbrev CUP_COND.DIE_MAX : Field := ⟨0x1300028, 24, 8, false⟩
abbrev CUP_COND.CLK_PPM : Field := ⟨0x1300028, 8, 16, false⟩
abbrev CUP_COND.VDEV : Field := ⟨0x1300028, 0, 8, false⟩
abbrev CUP_REC_W0.VDEV : Field := ⟨0x1300200, 24, 8, false⟩
abbrev CUP_REC_W0.DIE_T : Field := ⟨0x1300200, 16, 8, false⟩
abbrev CUP_REC_W0.UNTESTED : Field := ⟨0x1300200, 12, 4, false⟩
abbrev CUP_REC_W0.CNT_OK : Field := ⟨0x1300200, 8, 1, false⟩
abbrev CUP_REC_W0.MISR_OK : Field := ⟨0x1300200, 7, 1, false⟩
abbrev CUP_REC_W0.END : Field := ⟨0x1300200, 6, 1, false⟩
abbrev CUP_REC_W0.REASON : Field := ⟨0x1300200, 2, 4, false⟩
abbrev CUP_REC_W0.RESULT : Field := ⟨0x1300200, 0, 2, false⟩
abbrev CUP_REC_W1.COUNT : Field := ⟨0x1300204, 0, 24, false⟩
abbrev CUP_REC_W2.SYNDROME : Field := ⟨0x1300208, 0, 32, false⟩
abbrev CUP_REC_W3.DURATION : Field := ⟨0x130020c, 0, 16, false⟩
/-! Block KEY. -/
abbrev KEY_LOCK.OPEN : Field := ⟨0x1400014, 0, 1, false⟩
abbrev KEY_STATUS.ROOT_OK : Field := ⟨0x1400018, 31, 1, false⟩
abbrev KEY_STATUS.CERT_OK : Field := ⟨0x1400018, 30, 1, false⟩
abbrev KEY_STATUS.DEBUG_OPEN : Field := ⟨0x1400018, 29, 1, false⟩
abbrev KEY_STATUS.OEM_N : Field := ⟨0x1400018, 16, 4, false⟩
abbrev KEY_STATUS.REVOKED : Field := ⟨0x1400018, 8, 8, false⟩
abbrev KEY_STATUS.ANCHORS : Field := ⟨0x1400018, 0, 8, false⟩
abbrev KEY_NONCE.NONCE : Field := ⟨0x1400020, 0, 32, false⟩
abbrev KEY_DBG_ADDR.ADDR : Field := ⟨0x1400024, 0, 32, false⟩
abbrev KEY_DBG_CMD.OPEN : Field := ⟨0x1400028, 0, 1, false⟩
abbrev KEY_DBG_STAT.RES : Field := ⟨0x140002c, 0, 4, false⟩
abbrev KEY_SERIAL.VALUE : Field := ⟨0x1400030, 0, 32, false⟩
abbrev KEY_DEVID.VALUE : Field := ⟨0x1400040, 0, 32, false⟩
abbrev KEY_OEM.VALUE : Field := ⟨0x1400080, 0, 32, false⟩

end F

/-- The reset value of a register by its block and offset (the Reset columns of the register tables); 0 where not listed. -/
def resetTable : List (Nat × Nat) := [
  (0x48, 0x753000),
  (0x88, 0x1e00),
  (0x100010, 0x1),
  (0x100048, 0xffffffff),
  (0x200010, 0x4),
  (0x200044, 0xffffffff),
  (0x300010, 0x1),
  (0x300100, 0x4),
  (0x300110, 0x2d400),
  (0x300114, 0x14),
  (0x400500, 0x200),
  (0x400504, 0x6),
  (0x400518, 0x32),
  (0x40051c, 0x3e8),
  (0x500010, 0x1),
  (0x500028, 0x6000000),
  (0x600010, 0x1),
  (0x600024, 0x6000000),
  (0x700010, 0x1),
  (0x700024, 0x80001),
  (0x700080, 0x40000),
  (0x701004, 0x1),
  (0x800010, 0x1),
  (0x800020, 0x1),
  (0x900030, 0xec0000),
  (0xa00010, 0x1),
  (0xa00074, 0x80),
  (0xa00100, 0x1),
  (0xa0010c, 0xf00ffff),
  (0xb00010, 0x1),
  (0xb0001c, 0xa00),
  (0xb00040, 0xc0000000),
  (0xb00080, 0xae4),
  (0xb0008c, 0xffff),
  (0xb000ac, 0xffff0000),
  (0xb000b4, 0x7fff0000),
  (0xb00100, 0x10),
  (0xb0010c, 0x3333333),
  (0xc00010, 0x1),
  (0xd00010, 0x1),
  (0xd00024, 0x66666666),
  (0xe00010, 0x1),
  (0xe0001c, 0x323c1e00),
  (0xe00200, 0xffff0001),
  (0x1000038, 0x6e0000),
  (0x100003c, 0x553c),
  (0x1000044, 0x8000000),
  (0x1000048, 0x12c0),
  (0x1000074, 0x4),
  (0x1100010, 0x1),
  (0x1300010, 0x1),
  (0x1300200, 0x3)]

/-- What a register reads as until it is written. -/
def regReset (reg : Nat) : Word := BitVec.ofNat 32 ((resetTable.lookup reg).getD 0)

/-- The registers of block STW. -/
def regDefs0 : List RegDef := [
  ⟨0x14, 1, 0x4, 1, .none, 0x1, 0x0, 0x0, false⟩,
  ⟨0x40, 1, 0x4, 1, .none, 0x0, 0x0, 0x0, false⟩,
  ⟨0x48, 1, 0x4, 1, .none, 0x0, 0x0, 0x0, false⟩,
  ⟨0x4c, 1, 0x4, 1, .none, 0x0, 0x0, 0x0, false⟩,
  ⟨0x80, 1, 0x4, 1, .none, 0x0, 0x0, 0x0, false⟩,
  ⟨0x84, 1, 0x4, 1, .none, 0x0, 0x0, 0x0, false⟩,
  ⟨0x88, 1, 0x4, 1, .none, 0x1, 0x0, 0x8, false⟩,
  ⟨0xa0, 1, 0x4, 1, .none, 0x0, 0x0, 0x0, false⟩,
  ⟨0xa4, 1, 0x4, 1, .none, 0x0, 0x0, 0x0, false⟩,
  ⟨0xa8, 1, 0x4, 1, .none, 0x0, 0x0, 0x0, false⟩,
  ⟨0xb0, 1, 0x4, 1, .none, 0x0, 0x0, 0x0, false⟩,
  ⟨0xb4, 1, 0x4, 1, .none, 0x0, 0x0, 0x0, false⟩,
  ⟨0xb8, 1, 0x4, 1, .none, 0x0, 0x0, 0x0, false⟩]

/-- The registers of block EVT. -/
def regDefs1 : List RegDef := [
  ⟨0x100010, 1, 0x4, 1, .none, 0x0, 0x1, 0x0, false⟩,
  ⟨0x100014, 1, 0x4, 1, .none, 0x1, 0x0, 0x0, false⟩,
  ⟨0x100018, 1, 0x4, 1, .none, 0x0, 0x0, 0x0, false⟩,
  ⟨0x100020, 1, 0x4, 1, .none, 0x0, 0x0, 0x0, false⟩,
  ⟨0x100024, 1, 0x4, 1, .none, 0x0, 0x0, 0x0, false⟩,
  ⟨0x100028, 1, 0x4, 1, .none, 0xffffffff, 0x0, 0x0, false⟩,
  ⟨0x100040, 2, 0x4, 1, .none, 0x0, 0x0, 0xffffffff, false⟩,
  ⟨0x100048, 2, 0x4, 1, .none, 0xffffffff, 0x0, 0x0, false⟩,
  ⟨0x100080, 1, 0x4, 1, .none, 0x0, 0x0, 0x0, false⟩,
  ⟨0x1000a0, 8, 0x4, 1, .none, 0x0, 0x0, 0x0, false⟩]

/-- The registers of block TIM. -/
def regDefs2 : List RegDef := [
  ⟨0x200010, 1, 0x4, 1, .none, 0xffff0003, 0x4, 0x0, false⟩,
  ⟨0x200014, 1, 0x4, 1, .none, 0x1, 0x0, 0x0, false⟩,
  ⟨0x200018, 1, 0x4, 1, .none, 0x0, 0x0, 0x0, false⟩,
  ⟨0x200020, 1, 0x4, 1, .none, 0x0, 0x0, 0x0, false⟩,
  ⟨0x200024, 1, 0x4, 1, .none, 0x0, 0x0, 0x0, false⟩,
  ⟨0x200028, 1, 0x4, 1, .none, 0x0, 0x0, 0x0, false⟩,
  ⟨0x20002c, 1, 0x4, 1, .none, 0x0, 0x0, 0x0, false⟩,
  ⟨0x200030, 1, 0x4, 1, .none, 0x0, 0x0, 0x0, false⟩,
  ⟨0x200034, 1, 0x4, 1, .none, 0x0, 0x0, 0x0, false⟩,
  ⟨0x200038, 1, 0x4, 1, .none, 0xffffffff, 0x0, 0x0, false⟩,
  ⟨0x20003c, 1, 0x4, 1, .none, 0xffffffff, 0x0, 0x0, false⟩,
  ⟨0x200040, 1, 0x4, 1, .none, 0x0, 0x0, 0x0, false⟩,
  ⟨0x200044, 1, 0x4, 1, .none, 0x0, 0x0, 0x0, false⟩,
  ⟨0x200048, 1, 0x4, 1, .none, 0x0, 0x0, 0x0, false⟩,
  ⟨0x20004c, 1, 0x4, 1, .none, 0x0, 0x0, 0x0, false⟩,
  ⟨0x200050, 1, 0x4, 1, .none, 0x0, 0x0, 0x0, false⟩,
  ⟨0x200054, 1, 0x4, 1, .none, 0x0, 0x0, 0x0, false⟩]

/-- The registers of block XNG and OWN. -/
def regDefs3 : List RegDef := [
  ⟨0x300010, 1, 0x4, 1, .none, 0x0, 0x3, 0x0, false⟩,
  ⟨0x300014, 1, 0x4, 1, .none, 0x0, 0x0, 0x0, false⟩,
  ⟨0x300018, 1, 0x4, 1, .none, 0x0, 0x0, 0x0, false⟩,
  ⟨0x30001c, 1, 0x4, 1, .none, 0x0, 0x0, 0x0, false⟩,
  ⟨0x300020, 1, 0x4, 1, .none, 0x0, 0x0, 0x0, false⟩,
  ⟨0x300024, 1, 0x4, 1, .none, 0x0, 0x0, 0x0, false⟩,
  ⟨0x300028, 1, 0x4, 1, .none, 0x0, 0x0, 0x0, false⟩,
  ⟨0x30002c, 1, 0x4, 1, .none, 0x0, 0x0, 0x0, false⟩,
  ⟨0x300030, 1, 0x4, 1, .none, 0x0, 0x0, 0xf, false⟩,
  ⟨0x300034, 1, 0x4, 1, .none, 0x0, 0x0, 0x0, false⟩,
  ⟨0x300038, 1, 0x4, 1, .none, 0x0, 0x0, 0x0, false⟩,
  ⟨0x300100, 1, 0x4, 1, .none, 0x2, 0x4, 0x0, false⟩,
  ⟨0x300104, 1, 0x4, 1, .none, 0x1, 0x0, 0x0, false⟩,
  ⟨0x300108, 1, 0x4, 1, .none, 0x0, 0x0, 0x0, false⟩,
  ⟨0x30010c, 1, 0x4, 1, .none, 0x0, 0x0, 0x0, false⟩,
  ⟨0x300110, 1, 0x4, 1, .none, 0x0, 0x0, 0x0, false⟩,
  ⟨0x300114, 1, 0x4, 1, .none, 0x0, 0x1ff, 0x0, true⟩,
  ⟨0x300118, 1, 0x4, 1, .none, 0x0, 0x0, 0x0, false⟩,
  ⟨0x300140, 23, 0x4, 1, .none, 0x0, 0x0, 0x0, false⟩,
  ⟨0x3001a0, 12, 0x4, 1, .none, 0x0, 0x0, 0x0, false⟩]

/-- The registers of block SET. -/
def regDefs4 : List RegDef := [
  ⟨0x400010, 1, 0x4, 1, .none, 0x0, 0x1, 0x0, false⟩,
  ⟨0x400014, 1, 0x4, 1, .none, 0x1, 0x0, 0x0, false⟩,
  ⟨0x400018, 1, 0x4, 1, .none, 0x0, 0x0, 0x0, false⟩,
  ⟨0x40001c, 1, 0x4, 1, .none, 0x0, 0x0, 0x0, false⟩,
  ⟨0x400020, 1, 0x4, 1, .none, 0x0, 0x0, 0x0, false⟩,
  ⟨0x400024, 1, 0x4, 1, .none, 0x0, 0x0, 0x0, false⟩,
  ⟨0x400028, 1, 0x4, 1, .none, 0x0, 0x0, 0x0, false⟩,
  ⟨0x400040, 1, 0x4, 1, .none, 0xffff0070, 0x0, 0x0, false⟩,
  ⟨0x400044, 1, 0x4, 1, .none, 0x0, 0x0, 0x0, false⟩,
  ⟨0x400048, 1, 0x4, 1, .none, 0x0, 0x0, 0x0, false⟩,
  ⟨0x40004c, 1, 0x4, 1, .none, 0x0, 0x0, 0x0, false⟩,
  ⟨0x400050, 1, 0x4, 1, .none, 0x0, 0x0, 0x0, false⟩,
  ⟨0x400060, 1, 0x4, 1, .none, 0xffffffff, 0x0, 0x0, false⟩,
  ⟨0x400064, 1, 0x4, 1, .none, 0x0, 0x0, 0x0, false⟩,
  ⟨0x400068, 1, 0x4, 1, .none, 0x0, 0x0, 0x0, false⟩,
  ⟨0x400200, 30, 0x4, 1, .none, 0x0, 0x0, 0x0, false⟩,
  ⟨0x400280, 30, 0x4, 1, .none, 0xffffffff, 0x0, 0x0, false⟩,
  ⟨0x400300, 30, 0x4, 1, .none, 0xffffffff, 0x0, 0x0, false⟩,
  ⟨0x400380, 30, 0x4, 1, .none, 0x0, 0x0, 0x0, false⟩,
  ⟨0x400400, 30, 0x4, 1, .none, 0x1, 0x0, 0x0, false⟩,
  ⟨0x400500, 1, 0x4, 1, .none, 0x273, 0x0, 0x0, false⟩,
  ⟨0x400504, 1, 0x4, 1, .none, 0x0, 0x0, 0x0, false⟩,
  ⟨0x400508, 1, 0x4, 1, .none, 0xffffffff, 0x0, 0x0, false⟩,
  ⟨0x40050c, 1, 0x4, 1, .none, 0xffffffff, 0x0, 0x0, false⟩,
  ⟨0x400510, 1, 0x4, 1, .none, 0xffffffff, 0x0, 0x0, false⟩,
  ⟨0x400514, 1, 0x4, 1, .none, 0xffffffff, 0x0, 0x0, false⟩,
  ⟨0x400518, 1, 0x4, 1, .none, 0x7f, 0x0, 0x0, false⟩,
  ⟨0x40051c, 1, 0x4, 1, .none, 0x0, 0x0, 0x0, false⟩,
  ⟨0x400540, 16, 0x4, 1, .none, 0x0, 0x0, 0x0, false⟩,
  ⟨0x400580, 16, 0x4, 1, .none, 0x0, 0x0, 0x0, false⟩,
  ⟨0x4005c0, 16, 0x4, 1, .none, 0x0, 0x0, 0x0, false⟩,
  ⟨0x400600, 1, 0x4, 1, .none, 0x70, 0x1, 0x0, false⟩,
  ⟨0x400604, 1, 0x4, 1, .none, 0x0, 0x0, 0x80, false⟩,
  ⟨0x400608, 1, 0x4, 1, .none, 0x0, 0x0, 0x0, false⟩,
  ⟨0x40060c, 1, 0x4, 1, .none, 0x0, 0x0, 0x0, false⟩,
  ⟨0x400610, 1, 0x4, 1, .none, 0x0, 0x0, 0x0, false⟩,
  ⟨0x400614, 1, 0x4, 1, .none, 0x0, 0x0, 0x0, false⟩,
  ⟨0x400618, 1, 0x4, 1, .none, 0x0, 0x0, 0x0, false⟩,
  ⟨0x40061c, 1, 0x4, 1, .none, 0x0, 0x0, 0x0, false⟩,
  ⟨0x400620, 1, 0x4, 1, .none, 0x0, 0x0, 0x0, false⟩,
  ⟨0x400630, 1, 0x4, 1, .none, 0x0, 0x0, 0x0, false⟩,
  ⟨0x400634, 1, 0x4, 1, .none, 0x0, 0x0, 0x0, false⟩,
  ⟨0x400638, 1, 0x4, 1, .none, 0xffffffff, 0x0, 0x0, false⟩,
  ⟨0x400640, 1, 0x4, 1, .none, 0x0, 0x0, 0x0, false⟩,
  ⟨0x400644, 1, 0x4, 1, .none, 0x0, 0x0, 0x0, false⟩,
  ⟨0x400648, 1, 0x4, 1, .none, 0xffffffff, 0x0, 0x0, false⟩]

/-- The registers of block VLV. -/
def regDefs5 : List RegDef := [
  ⟨0x500000, 1, 0x4, 1, .none, 0x7f, 0x0, 0x0, false⟩,
  ⟨0x500010, 1, 0x4, 1, .tile, 0x0, 0x1, 0x0, true⟩,
  ⟨0x500014, 1, 0x4, 1, .none, 0x1, 0x0, 0x0, false⟩,
  ⟨0x500020, 1, 0x4, 1, .channel, 0x1, 0x0, 0x0, true⟩,
  ⟨0x500024, 1, 0x4, 1, .channel, 0x3fff, 0x0, 0x0, true⟩,
  ⟨0x500028, 1, 0x4, 1, .channel, 0x0, 0x0, 0x0, true⟩,
  ⟨0x50002c, 1, 0x4, 1, .channel, 0x0, 0x0, 0x0, true⟩,
  ⟨0x500030, 1, 0x4, 1, .channel, 0x0, 0x0, 0x0, true⟩,
  ⟨0x500034, 1, 0x4, 1, .channel, 0x0, 0x0, 0x0, true⟩,
  ⟨0x500038, 1, 0x4, 1, .channel, 0x0, 0x0, 0x0, true⟩,
  ⟨0x50003c, 1, 0x4, 1, .channel, 0x0, 0x0, 0x0, true⟩,
  ⟨0x500040, 1, 0x4, 1, .channel, 0x0, 0x0, 0x0, true⟩,
  ⟨0x500044, 1, 0x4, 1, .channel, 0x0, 0x0, 0x0, true⟩,
  ⟨0x500048, 1, 0x4, 1, .channel, 0x0, 0x0, 0x0, true⟩,
  ⟨0x50004c, 1, 0x4, 1, .channel, 0x0, 0x0, 0x0, true⟩,
  ⟨0x500080, 1, 0x4, 1, .tile, 0x0, 0x0, 0x0, true⟩,
  ⟨0x500084, 1, 0x4, 1, .tile, 0x0, 0x0, 0x0, true⟩,
  ⟨0x500088, 4, 0x4, 1, .tile, 0x0, 0x0, 0x0, true⟩]

/-- The registers of block LSW. -/
def regDefs6 : List RegDef := [
  ⟨0x600000, 1, 0x4, 1, .none, 0x3f, 0x0, 0x0, false⟩,
  ⟨0x600010, 1, 0x4, 1, .bank, 0x0, 0x1, 0x0, true⟩,
  ⟨0x600014, 1, 0x4, 1, .none, 0x1, 0x0, 0x0, false⟩,
  ⟨0x600020, 1, 0x4, 1, .channel, 0x701, 0x0, 0x0, true⟩,
  ⟨0x600024, 1, 0x4, 1, .channel, 0x0, 0x0, 0x0, true⟩,
  ⟨0x600028, 1, 0x4, 1, .channel, 0x0, 0x0, 0x0, true⟩,
  ⟨0x60002c, 1, 0x4, 1, .channel, 0x0, 0x0, 0x0, true⟩,
  ⟨0x600030, 1, 0x4, 1, .channel, 0x0, 0x0, 0x0, true⟩,
  ⟨0x600034, 1, 0x4, 1, .channel, 0x0, 0x0, 0x0, true⟩,
  ⟨0x600080, 2, 0x4, 1, .none, 0x0, 0x0, 0x0, true⟩,
  ⟨0x600088, 1, 0x4, 1, .bank, 0x0, 0x0, 0x0, true⟩]

/-- The registers of block UIN. -/
def regDefs7 : List RegDef := [
  ⟨0x700000, 1, 0x4, 1, .none, 0x7f, 0x0, 0x0, false⟩,
  ⟨0x700010, 1, 0x4, 1, .none, 0x0, 0x1, 0x0, true⟩,
  ⟨0x700014, 1, 0x4, 1, .none, 0x1, 0x0, 0x0, false⟩,
  ⟨0x700020, 1, 0x4, 1, .channel, 0x0, 0x0, 0x0, true⟩,
  ⟨0x700024, 1, 0x4, 1, .channel, 0x0, 0x0, 0x0, true⟩,
  ⟨0x700028, 1, 0x4, 1, .channel, 0x0, 0x0, 0x0, true⟩,
  ⟨0x70002c, 1, 0x4, 1, .channel, 0x0, 0x0, 0x0, true⟩,
  ⟨0x700030, 1, 0x4, 1, .channel, 0x0, 0x0, 0x0, true⟩,
  ⟨0x700034, 1, 0x4, 1, .channel, 0x0, 0x0, 0x0, true⟩,
  ⟨0x700038, 1, 0x4, 1, .channel, 0x0, 0x0, 0x0, true⟩,
  ⟨0x70003c, 1, 0x4, 1, .channel, 0xffffffff, 0x0, 0x0, true⟩,
  ⟨0x700040, 1, 0x4, 1, .channel, 0x0, 0x0, 0x0, true⟩,
  ⟨0x700044, 1, 0x4, 1, .channel, 0x0, 0x0, 0x0, true⟩,
  ⟨0x700080, 1, 0x4, 1, .supply, 0x40000, 0x0, 0x0, true⟩,
  ⟨0x701000, 512, 0x8, 1, .none, 0x0, 0x0, 0x0, false⟩,
  ⟨0x701004, 512, 0x8, 1, .none, 0x0, 0x0, 0x0, false⟩]

/-- The registers of block LOS. -/
def regDefs8 : List RegDef := [
  ⟨0x800000, 1, 0x4, 1, .none, 0x3f, 0x0, 0x0, false⟩,
  ⟨0x800010, 1, 0x4, 1, .none, 0x30, 0x1, 0x0, true⟩,
  ⟨0x800014, 1, 0x4, 1, .none, 0x1, 0x0, 0x0, false⟩,
  ⟨0x800020, 1, 0x4, 1, .channel, 0x0, 0x0, 0x0, true⟩,
  ⟨0x800024, 1, 0x4, 1, .channel, 0x0, 0x0, 0x0, true⟩,
  ⟨0x800028, 1, 0x4, 1, .channel, 0x0, 0x0, 0x0, true⟩,
  ⟨0x800080, 1, 0x4, 1, .none, 0x0, 0x0, 0x0, true⟩,
  ⟨0x800084, 1, 0x4, 1, .none, 0x0, 0x0, 0x0, true⟩,
  ⟨0x800088, 1, 0x4, 1, .none, 0x0, 0x0, 0x0, true⟩,
  ⟨0x80008c, 1, 0x4, 1, .none, 0x0, 0x0, 0x0, true⟩]

/-- The registers of block CAN. -/
def regDefs9 : List RegDef := [
  ⟨0x900000, 1, 0x4, 1, .none, 0xf, 0x0, 0x0, false⟩,
  ⟨0x900014, 1, 0x4, 1, .none, 0x1, 0x0, 0x0, false⟩,
  ⟨0x900020, 1, 0x4, 1, .channel, 0x4, 0x678, 0x0, true⟩,
  ⟨0x900024, 1, 0x4, 1, .channel, 0x0, 0xffffff7f, 0x0, true⟩,
  ⟨0x900028, 1, 0x4, 1, .channel, 0x0, 0x1f1fff, 0x0, true⟩,
  ⟨0x90002c, 1, 0x4, 1, .channel, 0x0, 0x7f7f, 0x0, true⟩,
  ⟨0x900030, 1, 0x4, 1, .channel, 0x0, 0x0, 0x8000000, true⟩,
  ⟨0x900034, 1, 0x4, 1, .channel, 0x0, 0x0, 0x0, true⟩,
  ⟨0x900038, 1, 0x4, 1, .channel, 0x1ff, 0x0, 0x0, true⟩,
  ⟨0x900040, 1, 0x4, 1, .channel, 0x0, 0x0, 0x0, true⟩,
  ⟨0x900044, 3, 0x4, 1, .channel, 0x0, 0x0, 0x0, true⟩,
  ⟨0x900060, 1, 0x4, 1, .channel, 0x0, 0x0, 0x0, true⟩,
  ⟨0x900064, 1, 0x4, 1, .channel, 0x0, 0x0, 0x0, true⟩,
  ⟨0x900068, 1, 0x4, 1, .channel, 0x0, 0x0, 0x0, true⟩,
  ⟨0x90006c, 1, 0x4, 1, .channel, 0x0, 0x0, 0x0, true⟩,
  ⟨0x900100, 3, 0x80, 1, .channel, 0xdfffffff, 0x0, 0x0, true⟩,
  ⟨0x900104, 3, 0x80, 1, .channel, 0xe000000f, 0x0, 0x0, true⟩,
  ⟨0x900108, 3, 0x80, 16, .channel, 0xffffffff, 0x0, 0x0, true⟩,
  ⟨0x900800, 256, 0x4, 1, .none, 0xffffffff, 0x0, 0x0, false⟩,
  ⟨0x901000, 64, 0x80, 1, .channel, 0x0, 0x0, 0x0, true⟩,
  ⟨0x901004, 64, 0x80, 1, .channel, 0x0, 0x0, 0x0, true⟩,
  ⟨0x901008, 64, 0x80, 2, .channel, 0x0, 0x0, 0x0, true⟩,
  ⟨0x901010, 64, 0x80, 16, .channel, 0x0, 0x0, 0x0, true⟩]

/-- The registers of block ETH and FLX. -/
def regDefs10 : List RegDef := [
  ⟨0xa00010, 1, 0x4, 1, .none, 0x0, 0x1, 0x0, false⟩,
  ⟨0xa00014, 1, 0x4, 1, .none, 0x1, 0x0, 0x0, false⟩,
  ⟨0xa00040, 11, 0x4, 1, .none, 0x0, 0x84, 0x0, false⟩,
  ⟨0xa00070, 1, 0x4, 1, .none, 0x0, 0x0, 0x0, false⟩,
  ⟨0xa00074, 1, 0x4, 1, .none, 0xff, 0x0, 0x0, false⟩,
  ⟨0xa00100, 1, 0x4, 1, .none, 0x0, 0x1, 0x0, false⟩,
  ⟨0xa00104, 1, 0x4, 1, .none, 0x0, 0x0, 0x0, false⟩,
  ⟨0xa00108, 1, 0x4, 1, .none, 0x0, 0x0, 0x0, false⟩,
  ⟨0xa0010c, 1, 0x4, 1, .none, 0x0, 0x0, 0x0, false⟩,
  ⟨0xa00110, 1, 0x4, 1, .none, 0xffffffff, 0x0, 0x0, false⟩,
  ⟨0xa00114, 1, 0x4, 1, .none, 0x0, 0x0, 0x0, false⟩,
  ⟨0xa00118, 1, 0x4, 1, .none, 0xf, 0x0, 0x0, false⟩,
  ⟨0xa00120, 1, 0x4, 1, .none, 0xffffffff, 0x0, 0x0, false⟩,
  ⟨0xa00124, 1, 0x4, 1, .none, 0x0, 0x0, 0x0, false⟩,
  ⟨0xa00140, 16, 0x4, 1, .none, 0x0, 0x0, 0x0, false⟩]

/-- The registers of block GNS. -/
def regDefs11 : List RegDef := [
  ⟨0xb00000, 1, 0x4, 1, .none, 0xff, 0x0, 0x0, false⟩,
  ⟨0xb00010, 1, 0x4, 1, .none, 0x0, 0x1, 0x0, false⟩,
  ⟨0xb00014, 1, 0x4, 1, .none, 0x1, 0x0, 0x0, false⟩,
  ⟨0xb00018, 1, 0x4, 1, .none, 0x0, 0x0, 0x20000000, false⟩,
  ⟨0xb0001c, 1, 0x4, 1, .none, 0xff03, 0x0, 0x0, false⟩,
  ⟨0xb00020, 6, 0x4, 1, .none, 0x0, 0x0, 0x0, false⟩,
  ⟨0xb00040, 2, 0x4, 1, .none, 0x0, 0x0, 0x0, true⟩,
  ⟨0xb00060, 1, 0x4, 1, .none, 0x0, 0x0, 0x0, false⟩,
  ⟨0xb00064, 1, 0x4, 1, .none, 0x0, 0x0, 0x0, false⟩,
  ⟨0xb00068, 1, 0x4, 1, .none, 0xffffffff, 0x0, 0x0, false⟩,
  ⟨0xb00070, 1, 0x4, 1, .none, 0x0, 0x0, 0x0, false⟩,
  ⟨0xb00074, 1, 0x4, 1, .none, 0x0, 0x0, 0x0, false⟩,
  ⟨0xb00078, 1, 0x4, 1, .none, 0x0, 0x0, 0x0, false⟩,
  ⟨0xb0007c, 1, 0x4, 1, .none, 0x0, 0x0, 0x0, false⟩,
  ⟨0xb00080, 1, 0x4, 1, .none, 0x3fff, 0x0, 0x0, false⟩,
  ⟨0xb00084, 1, 0x4, 1, .none, 0xffffffff, 0x0, 0x0, false⟩,
  ⟨0xb00088, 1, 0x4, 1, .none, 0x0, 0x0, 0x0, false⟩,
  ⟨0xb0008c, 1, 0x4, 1, .none, 0x0, 0x0, 0x0, false⟩,
  ⟨0xb00090, 1, 0x4, 1, .none, 0xffffffff, 0x0, 0x0, false⟩,
  ⟨0xb000a0, 1, 0x4, 1, .none, 0x0, 0x0, 0x0, false⟩,
  ⟨0xb000a4, 1, 0x4, 1, .none, 0x0, 0x0, 0x0, false⟩,
  ⟨0xb000a8, 1, 0x4, 1, .none, 0x0, 0x0, 0x0, false⟩,
  ⟨0xb000ac, 1, 0x4, 1, .none, 0x0, 0x0, 0x0, false⟩,
  ⟨0xb000b0, 1, 0x4, 1, .none, 0x0, 0x0, 0x0, false⟩,
  ⟨0xb000b4, 1, 0x4, 1, .none, 0x0, 0x0, 0x0, false⟩,
  ⟨0xb000c0, 1, 0x4, 1, .none, 0x0, 0x0, 0x0, false⟩,
  ⟨0xb000d0, 1, 0x4, 1, .none, 0x0, 0x0, 0x0, false⟩,
  ⟨0xb00100, 1, 0x4, 1, .channel, 0xfffff03f, 0x0, 0x0, false⟩,
  ⟨0xb00104, 1, 0x4, 1, .channel, 0x0, 0x0, 0x0, false⟩,
  ⟨0xb00108, 1, 0x4, 1, .channel, 0xffffffff, 0x0, 0x0, false⟩,
  ⟨0xb0010c, 1, 0x4, 1, .channel, 0xffffffff, 0x0, 0x0, false⟩,
  ⟨0xb00110, 1, 0x4, 1, .channel, 0x1fffff, 0x0, 0x0, false⟩,
  ⟨0xb00114, 1, 0x4, 1, .channel, 0x0, 0x0, 0x0, false⟩,
  ⟨0xb00140, 1, 0x4, 1, .engine, 0xffffffff, 0x0, 0x0, false⟩,
  ⟨0xb00144, 1, 0x4, 1, .engine, 0x3f00, 0x0, 0x0, false⟩,
  ⟨0xb00148, 1, 0x4, 1, .engine, 0x0, 0x0, 0x0, false⟩]

/-- The registers of block PRJ. -/
def regDefs12 : List RegDef := [
  ⟨0xc00010, 1, 0x4, 1, .none, 0x0, 0x1, 0x0, false⟩,
  ⟨0xc00014, 1, 0x4, 1, .none, 0x1, 0x0, 0x0, false⟩,
  ⟨0xc00018, 1, 0x4, 1, .none, 0x0, 0x0, 0x0, false⟩,
  ⟨0xc0001c, 1, 0x4, 1, .none, 0x0, 0x0, 0x0, false⟩,
  ⟨0xc00020, 1, 0x4, 1, .none, 0x0, 0x0, 0x0, false⟩,
  ⟨0xc00024, 1, 0x4, 1, .none, 0x0, 0x0, 0x0, false⟩,
  ⟨0xc00040, 8, 0x4, 1, .none, 0x0, 0x0, 0x0, false⟩]

/-- The registers of block FEA. -/
def regDefs13 : List RegDef := [
  ⟨0xd00010, 1, 0x4, 1, .none, 0x0, 0x1, 0x0, false⟩,
  ⟨0xd00014, 1, 0x4, 1, .none, 0x1, 0x0, 0x0, false⟩,
  ⟨0xd00018, 1, 0x4, 1, .none, 0x0, 0x0, 0x0, false⟩,
  ⟨0xd00020, 1, 0x4, 1, .none, 0x0, 0x0, 0x0, false⟩,
  ⟨0xd00024, 2, 0x4, 1, .none, 0x0, 0x0, 0x0, false⟩,
  ⟨0xd00030, 1, 0x4, 1, .none, 0x0, 0x0, 0x0, false⟩,
  ⟨0xd00034, 1, 0x4, 1, .none, 0x0, 0x0, 0x0, false⟩,
  ⟨0xd00038, 1, 0x4, 1, .none, 0x0, 0x0, 0x0, false⟩]

/-- The registers of block GRD and TRK. -/
def regDefs14 : List RegDef := [
  ⟨0xe00000, 1, 0x4, 1, .none, 0x1ff, 0x0, 0x0, false⟩,
  ⟨0xe00010, 1, 0x4, 1, .none, 0x0, 0x1, 0x0, false⟩,
  ⟨0xe00014, 1, 0x4, 1, .none, 0x0, 0x0, 0x0, false⟩,
  ⟨0xe00018, 1, 0x4, 1, .none, 0x0, 0x0, 0x0, false⟩,
  ⟨0xe0001c, 1, 0x4, 1, .none, 0xffffff00, 0x0, 0x0, false⟩,
  ⟨0xe00020, 1, 0x4, 1, .none, 0x0, 0x0, 0x0, false⟩,
  ⟨0xe00024, 1, 0x4, 1, .none, 0x0, 0x0, 0x0, false⟩,
  ⟨0xe00028, 1, 0x4, 1, .none, 0x0, 0x0, 0x0, false⟩,
  ⟨0xe0002c, 1, 0x4, 1, .none, 0x0, 0x0, 0x0, false⟩,
  ⟨0xe00040, 16, 0x4, 1, .channel, 0x0, 0x0, 0x0, false⟩,
  ⟨0xe00100, 1, 0x4, 1, .none, 0x0, 0x1, 0x0, false⟩,
  ⟨0xe00104, 1, 0x4, 1, .none, 0x1, 0x0, 0x0, false⟩,
  ⟨0xe00108, 1, 0x4, 1, .none, 0x0, 0x0, 0x0, false⟩,
  ⟨0xe0010c, 1, 0x4, 1, .none, 0x0, 0x0, 0x0, false⟩,
  ⟨0xe00110, 1, 0x4, 1, .none, 0x0, 0x0, 0x0, false⟩,
  ⟨0xe00114, 1, 0x4, 1, .none, 0x0, 0x0, 0x0, false⟩,
  ⟨0xe00118, 1, 0x4, 1, .none, 0x0, 0x0, 0x0, false⟩,
  ⟨0xe0011c, 1, 0x4, 1, .none, 0x0, 0x0, 0x0, false⟩,
  ⟨0xe00120, 1, 0x4, 1, .none, 0x0, 0x0, 0x0, false⟩,
  ⟨0xe00180, 32, 0x4, 1, .none, 0x0, 0x0, 0x0, false⟩,
  ⟨0xe00200, 32, 0x4, 1, .none, 0x0, 0x0, 0x0, false⟩]

/-- The registers of block DSP. -/
def regDefs15 : List RegDef := [
  ⟨0xf00010, 1, 0x4, 1, .none, 0x2, 0x1, 0x0, true⟩,
  ⟨0xf00014, 1, 0x4, 1, .none, 0x1, 0x0, 0x0, false⟩,
  ⟨0xf00018, 1, 0x4, 1, .none, 0x0, 0x0, 0x0, true⟩,
  ⟨0xf0001c, 1, 0x4, 1, .none, 0x0, 0x0, 0x0, true⟩,
  ⟨0xf00020, 10, 0x4, 1, .none, 0xffffffff, 0x0, 0x0, true⟩,
  ⟨0xf00048, 1, 0x4, 1, .none, 0x0, 0x0, 0x0, true⟩,
  ⟨0xf00050, 1, 0x4, 1, .none, 0xffffffff, 0x0, 0x0, true⟩,
  ⟨0xf00054, 1, 0x4, 1, .none, 0x0, 0x0, 0x0, true⟩]

/-- The registers of block FAN and PWR. -/
def regDefs16 : List RegDef := [
  ⟨0x1000000, 1, 0x4, 1, .none, 0x3, 0x0, 0x0, false⟩,
  ⟨0x1000010, 1, 0x4, 1, .none, 0x0, 0x0, 0x0, true⟩,
  ⟨0x1000014, 1, 0x4, 1, .none, 0x1, 0x0, 0x0, false⟩,
  ⟨0x1000018, 1, 0x4, 1, .none, 0x0, 0x0, 0x0, true⟩,
  ⟨0x100001c, 1, 0x4, 1, .none, 0x0, 0x0, 0x0, true⟩,
  ⟨0x1000020, 4, 0x4, 1, .none, 0x80000000, 0x0, 0x0, true⟩,
  ⟨0x1000030, 1, 0x4, 1, .none, 0x0, 0x0, 0x0, true⟩,
  ⟨0x1000034, 1, 0x4, 1, .none, 0x0, 0x0, 0x0, true⟩,
  ⟨0x1000038, 1, 0x4, 1, .none, 0x0, 0x0, 0x0, true⟩,
  ⟨0x100003c, 1, 0x4, 1, .none, 0xffff, 0x0, 0x0, true⟩,
  ⟨0x1000040, 1, 0x4, 1, .channel, 0x1ffff, 0x0, 0x0, true⟩,
  ⟨0x1000044, 1, 0x4, 1, .channel, 0x0, 0x0, 0x0, true⟩,
  ⟨0x1000048, 1, 0x4, 1, .channel, 0x0, 0xffff, 0x0, true⟩,
  ⟨0x1000060, 4, 0x4, 1, .none, 0xffffffff, 0x0, 0x0, true⟩,
  ⟨0x1000070, 1, 0x4, 1, .none, 0x0, 0x0, 0x0, true⟩,
  ⟨0x1000074, 1, 0x4, 1, .none, 0x0, 0x0, 0x0, true⟩]

/-- The registers of block UPD. -/
def regDefs17 : List RegDef := [
  ⟨0x1100010, 1, 0x4, 1, .none, 0x0, 0x1, 0x0, false⟩,
  ⟨0x1100014, 1, 0x4, 1, .none, 0x1, 0x0, 0x0, false⟩,
  ⟨0x1100020, 1, 0x4, 1, .none, 0xffffffff, 0x0, 0x0, false⟩,
  ⟨0x1100024, 1, 0x4, 1, .none, 0x0, 0x0, 0x0, false⟩,
  ⟨0x1100028, 1, 0x4, 1, .none, 0x0, 0x0, 0x0, false⟩,
  ⟨0x110002c, 1, 0x4, 1, .none, 0x0, 0x0, 0x0, false⟩,
  ⟨0x1100040, 8, 0x4, 1, .none, 0x0, 0x0, 0x0, false⟩,
  ⟨0x1100060, 8, 0x4, 1, .none, 0x0, 0x0, 0x0, false⟩,
  ⟨0x1100080, 8, 0x4, 1, .none, 0x0, 0x0, 0x0, false⟩,
  ⟨0x11000c0, 1, 0x4, 1, .none, 0x0, 0x0, 0x0, false⟩]

/-- The registers of block CAL. -/
def regDefs18 : List RegDef := [
  ⟨0x1200010, 1, 0x4, 1, .none, 0x0, 0x0, 0x0, false⟩,
  ⟨0x1200014, 1, 0x4, 1, .none, 0x0, 0x0, 0x0, true⟩,
  ⟨0x1200018, 1, 0x4, 1, .none, 0x0, 0x0, 0x0, false⟩,
  ⟨0x120001c, 1, 0x4, 1, .none, 0x0, 0x0, 0x0, false⟩,
  ⟨0x1200020, 1, 0x4, 1, .none, 0xffffffff, 0x0, 0x0, false⟩,
  ⟨0x1200024, 1, 0x4, 1, .none, 0xffffffff, 0x0, 0x0, false⟩,
  ⟨0x1200028, 1, 0x4, 1, .none, 0x0, 0x0, 0x0, false⟩,
  ⟨0x120002c, 1, 0x4, 1, .none, 0x0, 0x0, 0x40000000, true⟩]

/-- The registers of block CUP. -/
def regDefs19 : List RegDef := [
  ⟨0x1300010, 1, 0x4, 1, .none, 0x0, 0x1, 0x0, false⟩,
  ⟨0x1300014, 1, 0x4, 1, .none, 0x1, 0x0, 0x0, false⟩,
  ⟨0x1300018, 1, 0x4, 1, .none, 0x0, 0x0, 0x0, false⟩,
  ⟨0x130001c, 1, 0x4, 1, .none, 0x0, 0x0, 0x0, false⟩,
  ⟨0x1300020, 1, 0x4, 1, .none, 0x0, 0x0, 0x0, false⟩,
  ⟨0x1300024, 1, 0x4, 1, .none, 0x0, 0x0, 0x0, false⟩,
  ⟨0x1300028, 1, 0x4, 1, .none, 0x0, 0x0, 0x0, false⟩,
  ⟨0x1300200, 40, 0x10, 1, .none, 0x0, 0x0, 0x0, false⟩,
  ⟨0x1300204, 40, 0x10, 1, .none, 0x0, 0x0, 0x0, false⟩,
  ⟨0x1300208, 40, 0x10, 1, .none, 0x0, 0x0, 0x0, false⟩,
  ⟨0x130020c, 40, 0x10, 1, .none, 0x0, 0x0, 0x0, false⟩]

/-- The registers of block KEY. -/
def regDefs20 : List RegDef := [
  ⟨0x1400014, 1, 0x4, 1, .none, 0x1, 0x0, 0x0, false⟩,
  ⟨0x1400018, 1, 0x4, 1, .none, 0x0, 0x0, 0x0, false⟩,
  ⟨0x1400020, 1, 0x4, 1, .none, 0x0, 0x0, 0x0, false⟩,
  ⟨0x1400024, 1, 0x4, 1, .none, 0xffffffff, 0x0, 0x0, false⟩,
  ⟨0x1400028, 1, 0x4, 1, .none, 0x0, 0x0, 0x0, false⟩,
  ⟨0x140002c, 1, 0x4, 1, .none, 0x0, 0x0, 0x0, false⟩,
  ⟨0x1400030, 4, 0x4, 1, .none, 0x0, 0x0, 0x0, false⟩,
  ⟨0x1400040, 4, 0x4, 1, .none, 0x0, 0x0, 0x0, false⟩,
  ⟨0x1400080, 8, 0x4, 1, .none, 0x0, 0x0, 0x0, false⟩]

/-- The registers of a block (R585). -/
def regDefsOf : Nat → List RegDef
  | 0 => regDefs0
  | 1 => regDefs1
  | 2 => regDefs2
  | 3 => regDefs3
  | 4 => regDefs4
  | 5 => regDefs5
  | 6 => regDefs6
  | 7 => regDefs7
  | 8 => regDefs8
  | 9 => regDefs9
  | 10 => regDefs10
  | 11 => regDefs11
  | 12 => regDefs12
  | 13 => regDefs13
  | 14 => regDefs14
  | 15 => regDefs15
  | 16 => regDefs16
  | 17 => regDefs17
  | 18 => regDefs18
  | 19 => regDefs19
  | 20 => regDefs20
  | _ => []

end Sys2Proof
end

