-- ==== Sys2Proof/Machine/Types/Flx.lean ====
section
/-!
DEFINITION. Ethernet ports and the Fleet Exchange: chapter 15 of the spec.
-/
namespace Sys2Proof.Machine

/-- A Fleet Exchange session (R437–R443): the peer's address, the subject serialNumber of its certificate once accepted, the DEVICE_ID of
its HELLO, the last SEQ sent, the highest received in order, the reliable messages not acknowledged (each SEQ with the last tile it
carries), the instants of the last message sent and received, the KeyUpdate clock and count, and the last message sent. -/
structure Sess where
  client : Bool := false
  ip : Nat := 0
  port : Nat := 0
  cert : Option (List Byte) := none
  dev : List Byte := []
  seqTx : Nat := 0
  seqRx : Nat := 0
  unacked : List (Nat × Nat) := []
  lastTx : Nat := 0
  lastRx : Nat := 0
  keyAt : Nat := 0
  records : Nat := 0
  updates : Nat := 0
  out : List Byte := []
  cartAt : Nat := 0
deriving DecidableEq, Repr

/-- The Fleet Exchange of a half: the slots' sessions, the accepted connections that wait for their HELLO, the tile last sent, the
DEVICE_ID of the active cart (mirrored, R445), the client peers (slot, address, port; mirrored, R448), the requests to become
active received since the last 50 ms instant, and the Announce sources already told. -/
structure Flx where
  slot : NMap Sess := []
  conn : NMap Sess := []
  tileSent : Nat := 0
  cart : Option (List Byte) := none
  peers : List (Nat × Nat × Nat) := []
  asks : List (Nat × List Byte) := []
  told : List Nat := []
deriving DecidableEq, Repr

end Sys2Proof.Machine
end

