-- ==== Sys2Proof/Machine/Types/Input.lean ====
section
/-!
DEFINITION. Bindings, twins, sensor supplies and the loss array: chapter 08 of the spec.
-/
namespace Sys2Proof.Machine

/-- A binding entry of BIND (R266). -/
structure BindCfg where
  src : Nat := 0
  mode : Nat := 0
  obj : Nat := 0
  pull : Nat := 0
  ratio : Bool := false
  fsAny : Bool := false
  invert : Bool := false
  supply : Nat := 0xFF
  filt : Nat := 0
  exp : Nat := 0
  gain : Rat := 1
  ofs : Rat := 0
  rngLo : Rat := 0
  rngHi : Rat := 0
  slew : Rat := 0
  tc : Rat := 0
  fsVal : Rat := 0
  stuckBand : Rat := 0
  fMax : Rat := 0
  tOut : Nat := 0
  tStuck : Nat := 0
  thrRise : Nat := 0
  thrFall : Nat := 0
  expObj : Nat := 0xFFFF
  gate : Nat := 0
  lmask : Nat := 0
deriving DecidableEq, Repr

/-- A twin entry (R266). -/
structure TwinCfg where
  a : Nat
  b : Nat
  tol : Rat
  time : Nat
deriving DecidableEq, Repr

/-- The loss configuration (R266): the sets in order, each zone's THR_HIT, W0, W1, W2, W3. -/
structure LossCfg where
  hitDead : Nat := 0
  silentS : Nat := 0
  clsDef : Nat := 0
  sets : List (List Rat) := []
deriving DecidableEq, Repr

/-- The BIND section as loaded (R266): the supplies' (level, RETRY), the loss configuration, bindings, twins. -/
structure BindSec where
  supplies : List (Nat × Bool) := []
  loss : LossCfg := {}
  binds : List BindCfg := []
  twins : List TwinCfg := []
deriving DecidableEq, Repr

/-- The state of a binding's chain (R251–R254): the conditions that hold, the values its rules report, and its clocks. -/
structure BindSt where
  fault : Nat := 0
  stale : Bool := true
  outRange : Bool := false
  chatter : Bool := false
  stuck : Bool := false
  conflict : Bool := false
  diverge : Bool := false
  group : Nat := 0
  acc : Rat := 0
  accAt : Nat := 0
  fresh : Bool := true
  filt : Rat := 0
  med : List Rat := []
  outRun : Nat := 0
  inRun : Nat := 0
  lastIn : Rat := 0
  lastOk : Rat := 0
  stable : Rat := 0
  stableAt : Nat := 0
  held : Rat := 0
  stuckClk : Nat := 0
  stuckFrom : Rat := 0
  clkAt : Nat := 0
  edges : List Nat := []
deriving DecidableEq, Repr

/-- What an input's comparator has captured (R245, R248, R249): rising edges in the gate, the last edges, the last full period and
high time, the debounce, the quadrature levels. -/
structure Comp where
  rises : List Nat := []
  rise : Nat := 0
  fall : Nat := 0
  period : Nat := 0
  high : Nat := 0
  level : Bool := false
  edgeAt : Nat := 0
  deb : Bool := false
deriving DecidableEq, Repr

/-- A sensor supply (R250): when it turned off, and whether it waits for an EN of 0 and then 1. -/
structure Supply where
  offAt : Nat := 0
  seenOff : Bool := false
deriving DecidableEq, Repr

/-- A loss element (R261–R264): its dead time's start, its last hit, its bias fault and its silence. -/
structure Elem where
  dead : Nat := 0
  any : Bool := false
  hitAt : Nat := 0
  fault : Bool := false
  silent : Bool := false
deriving DecidableEq, Repr

/-- A published window of the loss array (R263): its number, each element's grain count, and each element's quality. -/
structure LosWin where
  num : Nat
  grain : List Nat
  qual : List Nat
deriving DecidableEq, Repr

/-- The inputs, the bindings and the loss array. Bindings of sources EXTERNAL and MODULE have a copy for each half (R256). `twinAt`
is the instant at which a pair's divergence or agreement began. `hits` are the hits of windows not yet closed. -/
structure Inputs where
  cfg : BindSec
  loaded : Bool
  bind : NMap BindSt
  comp : NMap Comp
  twinAt : NMap (Nat × Bool)
  supply : NMap Supply
  elem : NMap Elem
  hits : List (Nat × Nat × Bool)
  wins : List LosWin
  cls : Nat
  lastGood : NMap Rat
deriving DecidableEq, Repr

end Sys2Proof.Machine
end

