-- ==== Sys2Proof/Machine/Types/Valve.lean ====
section
/-!
DEFINITION. The state of the valve tiles, the recipe engines and the load switches: chapters 06 and 07 of the spec.
-/
namespace Sys2Proof.Machine

/-- A recipe of a bank of recipe memory (R217): its RECP index, its directory fields, its words and its parameter entries (entry e
of band b at 16·b + e). -/
structure Recipe where
  idx : Nat := 0
  code : List Nat := []
  par : List Nat := []
  entry : Nat := 0
  holdEntry : Nat := 0
  flags : Nat := 0
  bandInit : Nat := 0
  coilR : Nat := 1
  t1 : Int := 0
  t2 : Int := 0
  t3 : Int := 0
  kinkN : Nat := 1
  hyst : Nat := 0
  iMax : Nat := 0
  iCont : Nat := 1
  dutyWin : Nat := 1
  dutyMax : Nat := 0
deriving DecidableEq, Repr

/-- What a FUNC record names for a channel of a tile (R189, R145): its RECP reference, the slot it lies in, and its twin. -/
structure ChanRef where
  ref : Nat := 0
  slot : Nat := 0
  twin : Option Nat := none
deriving DecidableEq, Repr

/-- A bank of recipe memory (R188): the tag (64 bits, 0 while unwritten), the recipes in slot order, the channels' references. -/
structure RBank where
  tag : Nat := 0
  recs : List Recipe := []
  chans : NMap ChanRef := []
deriving DecidableEq, Repr

/-- A tile's hidden state (R184, R188, R470): its two recipe banks, the half that holds the load lock, when it was inserted and
whether it is ready. -/
structure Tile where
  bank0 : RBank := {}
  bank1 : RBank := {}
  lock : Option Half := none
  ready : Bool := false
  insertedAt : Nat := 0
deriving DecidableEq, Repr

/-- How the low side of a channel is driven. -/
inductive Drive where
  | off
  | current
  | pwm (freq duty : Nat)
deriving DecidableEq, Repr

/-- A RAMP in progress (R195): from, to, start, duration in ns. -/
structure Ramp where
  src : Nat
  dst : Nat
  start : Nat
  dur : Nat
deriving DecidableEq, Repr

/-- The dither in force (R197): shape, amplitude mA, frequency 0.1 Hz, start instant. -/
structure Dith where
  shape : Nat := 0
  amp : Nat := 0
  freq : Nat := 0
  start : Nat := 0
deriving DecidableEq, Repr

/-- What an engine waits for (R192, R195). -/
inductive Wait where
  | none
  | time (ends : Nat) (brk cmd : Bool)
  | cross (below : Bool) (thr ends : Nat)
  | kink (close : Bool) (start opens closes thr : Nat)
deriving DecidableEq, Repr

/-- A request that waits for its bank (R207): for boost or for target, since when, whether it holds the engine, and whether its
2 ms have passed (the excess that is admitted later). -/
structure Req where
  boost : Bool
  since : Nat
  holds : Bool
  late : Bool
deriving DecidableEq, Repr

/-- A recipe engine and the drive of its channel, beside the registers of the channel (R190–R216). `want`/`wantAmp` are the
requested target and dither amplitude, `tgt` and `dith.amp` what is admitted; `scale` is the twin scale in thousandths. -/
structure Eng where
  slot : Nat := 0
  hold : Bool := false
  peak : Bool := false
  wk : List Nat := [0, 0, 0, 0]
  ctr : List (Option Nat) := [none, none]
  kink : Bool := false
  nokink : Bool := false
  timeout : Bool := false
  drive : Drive := .off
  want : Nat := 0
  wantAmp : Nat := 0
  tgt : Nat := 0
  track : Bool := false
  ramp : Option Ramp := none
  dith : Dith := {}
  est : Option Nat := none
  pend : Option Nat := none
  wait : Wait := .none
  req : Option Req := none
  startAt : Nat := 0
  noneAt : Option Nat := none
  offAt : Option Nat := none
  constAt : Nat := 0
  bins : List Nat := []
  bin : Nat := 0
  binAt : Nat := 0
  scale : Nat := 1000
  merge : Option Nat := none
  runPull : Nat := 0
  runClose : Nat := 0
  blank : Nat := 0
  level : Option Nat := none
  gramp : Option Ramp := none
  greenToff : Nat := 0
  relOn : Bool := false
  fast : Bool := false
  past : Bool := false
  probed : Bool := false
  travel : List Nat := []
  travelAt : Nat := 0
deriving DecidableEq, Repr

/-- The valve tiles: backplane objects. `round` is the round of each nested arbiter (R46): the active leaf requesters that still hold
their credit, of the current-sense arbiters of T0–T5 (0–5) and of the feed-budget arbiters of FEED0 and FEED1 (6, 7). -/
structure Valves where
  eng : NMap Eng
  tile : NMap Tile
  round : NMap (List Nat)
deriving DecidableEq, Repr

/-- A load profile (R224): VRAMP time (0 for HARD), points (ms, % of I_SET), overload trip. -/
structure Profile where
  vramp : Nat := 0
  pts : List (Nat × Nat) := []
  tripPct : Nat := 0
  tripMs : Nat := 0
deriving DecidableEq, Repr

/-- A switch entry of LOAD (R241). -/
structure SwCfg where
  used : Bool := false
  olOnEn : Bool := false
  probeEn : Bool := false
  profDef : Nat := 0
  shed : Nat := 0
  retryN : Nat := 0
  tRel : Nat := 0
  retryT : Nat := 0
  iSet : Nat := 0
  olOn : Nat := 0
deriving DecidableEq, Repr

/-- The LOAD section as held in bank memory (R233, R241). -/
structure LoadSec where
  uprof : List Profile := []
  budget0 : Nat := 0
  budget1 : Nat := 0
  sw : List SwCfg := []
deriving DecidableEq, Repr

/-- A switch, beside its registers: when it entered its state, its claim (mA), and what waits for its latch to clear. -/
structure Sw where
  since : Nat := 0
  claim : Nat := 0
  heldOn : Bool := false
  cancel : Bool := false
  blocked : Bool := false
deriving DecidableEq, Repr

/-- The load switches: backplane objects. `grant` is the request that holds a feed's grant (R231), `lost` the feeds without voltage. -/
structure Switches where
  sw : NMap Sw
  load : Option LoadSec
  grant : Option Nat × Option Nat
  lost : List Nat
deriving DecidableEq, Repr

end Sys2Proof.Machine
end

