-- ==== Sys2Proof/Machine/Types/Power.lean ====
section
/-!
DEFINITION. Power entry, the cooling loop and the displays: chapters 20 and 21 of the spec.
-/
namespace Sys2Proof.Machine

/-- A fan or pump channel beside its registers (R538–R542): the duty of its speed loop in percent, whether its Green state is in
force and the ramp toward it (0.1 %), the kick in progress (1–3; 0 none) and its start, the pause after it, the start of a low speed,
when a stalled channel was last kicked, when valid edges came back, the skip band that holds the target (its edge), the last target
asked for, the time by which the last measuring frame was stretched, and the on-time of the present frame (ns). -/
structure Fan where
  loop : Nat := 0
  green : Bool := true
  gramp : Option Ramp := none
  kick : Nat := 0
  pause : Bool := false
  kickAt : Nat := 0
  lowAt : Option Nat := none
  checkAt : Nat := 0
  stallAt : Nat := 0
  goodAt : Option Nat := none
  held : Option (Nat × Nat) := none
  last : Nat := 0
  owe : Nat := 0
  on : Nat := 0
deriving DecidableEq, Repr

/-- Power entry and cooling, beside the registers: the fans, when HOLDUP was entered, whether a power-fail is in progress (R531),
whether the clamp's event was raised (R527), whether the supply class is chosen (R525), the filtered ambient's 67.0 °C clock (R533),
the clocks of TS (R535), when SYS_SHDN was asserted, the firmware warnings in force and the thermistors' faults (TC_IN, TC_OUT, TA)
with the instant each reads valid again (R536). -/
structure Power where
  fan : NMap Fan := []
  holdAt : Nat := 0
  fail : Bool := false
  clampSeen : Bool := false
  classed : Bool := false
  coolAt : Option Nat := none
  hotAt : Option Nat := none
  coldAt : Option Nat := none
  shdnAt : Nat := 0
  warn : Bool := false
  crit : Bool := false
  bad : List Bool := [false, false, false]
  okAt : List (Option Nat) := [none, none, none]
deriving DecidableEq, Repr

/-- A symbol entry of DISP (R554). -/
structure Symbol where
  kind : Nat := 1
  src : Nat := 0
  ref : Nat := 0
  seg0 : Nat := 0
  n : Nat := 0
  blink : Bool := false
  thresh : Rat := 0
  scale : Rat := 1
deriving DecidableEq, Repr

/-- The DISP section as loaded (R554). -/
structure DispSec where
  hz : Nat := 64
  segEn : Bool := false
  panel : Bool := false
  clear : Nat := 0
  syms : List Symbol := []
deriving DecidableEq, Repr

/-- The display drivers beside their registers (R545–R553): the section, the displayed image's words, when a LATCH waits since, the
frame's phase, the frames in a row with every level in, whether each driver is in its Green state, the step of the panel's sequence
(0 OFF; 1–4 the power-up, 5–8 the power-down, 9–11 the fast path) and its start, the rails DSP_EN0–2, the copy in progress (the half
and the address) and the two frame stores. -/
structure Disp where
  sec : Option DispSec := none
  shown : List Nat := [0, 0, 0, 0, 0, 0, 0, 0, 0, 0]
  latchAt : Option Nat := none
  minus : Bool := false
  good : Nat := 0
  segGreen : Bool := true
  pnlGreen : Bool := true
  step : Nat := 0
  stepAt : Nat := 0
  en : List Bool := [false, false, false]
  copy : Option (Half × Nat) := none
  store0 : Memory := []
  store1 : Memory := []
deriving DecidableEq, Repr

end Sys2Proof.Machine
end

