-- ==== Sys2Proof/Machine/Types/Set.lean ====
section
/-!
DEFINITION. The Setting Engine's records and state: FUNC, transitions, schedules, state/step tables, guidance lines, steering
(chapter 04 of the spec).
-/
namespace Sys2Proof.Machine

/-- An interlock or guard (R138). -/
structure Cond where
  type_ : Nat := 0
  action : Nat := 0
  ref : Nat := 0
  thresh : Rat := 0
deriving DecidableEq, Repr

/-- A FUNC record (R129). -/
structure Func where
  used : Bool := false
  manOk : Bool := false
  law : Nat := 0
  rate : Nat := 0
  spSrc : Nat := 0
  stateMask : Nat := 0
  outState : Nat := 0
  policy : Nat := 0
  safeNeg : Bool := false
  pv : Nat := 0
  pvTwin : Nat := 0
  third : Nat := 0
  spRef : Nat := 0
  ffSrc : Nat := 0
  sched : Nat := 0xFF
  schedV1 : Nat := 0
  schedV2 : Nat := 0
  ffRef : Nat := 0
  kp : Rat := 0
  ki : Rat := 0
  kd : Rat := 0
  kff : Rat := 0
  td : Rat := 0
  spMin : Rat := 0
  spMax : Rat := 0
  spRate : Rat := 0
  outMin : Rat := 0
  outMax : Rat := 0
  outRate : Rat := 0
  deadband : Rat := 0
  startA : Rat := 0
  startB : Rat := 0
  outKind : Nat := 0
  tab : Nat := 0xFF
  objA : Nat := 0xFFFF
  objA2 : Nat := 0xFFFF
  objB : Nat := 0xFFFF
  objB2 : Nat := 0xFFFF
  rcpA : Nat := 0
  rcpB : Nat := 0
  outRef : Nat := 0
  ilk : List Cond := []
  grade : List Nat := [0, 0, 0, 0, 0]
  alertRef : Nat := 0
  holdT : Nat := 0
deriving DecidableEq, Repr

/-- A transition entry (R586). -/
structure Trans where
  src : Nat := 0
  dst : Nat := 0
  mode : Nat := 0
  guard : Cond := {}
deriving DecidableEq, Repr

/-- A gain schedule (R137): breakpoints and the cells' multipliers for KP, KI, KD and KFF. -/
structure Sched where
  v1 : List Rat := []
  v2 : List Rat := []
  cells : List (List Rat) := []
deriving DecidableEq, Repr

/-- An entry of a state/step table (R136). -/
structure TabEntry where
  out : Rat := 0
  cond : Nat := 0
  next : Nat := 0
  ref : Nat := 0
  thresh : Rat := 0
  timeout : Nat := 0
  onTo : Nat := 0
deriving DecidableEq, Repr

/-- The STEER block (R147). -/
structure SteerCfg where
  wheelbase : Rat := 0
  rear : Bool := false
  posMin : Nat := 0
  cpX : Rat := 0
  kY : Rat := 0
  kPsi : Rat := 0
  kappaMax : Rat := 0
  kappaRate : Rat := 0
  deltaMax : Rat := 0
  engXte : Rat := 0
  engHdg : Rat := 0
  vMin : Rat := 0
  vMax : Rat := 0
  ovrRef : Nat := 0
  ovrThr : Rat := 0
  alertMs : Nat := 0
deriving DecidableEq, Repr

/-- The FUNC section as loaded (R97 step 6, R129). -/
structure FuncSec where
  recs : List Func := []
  steer : SteerCfg := {}
  trans : List Trans := []
  scheds : List Sched := []
  tabs : List (List TabEntry) := []
deriving DecidableEq, Repr

/-- What governs a function in a cycle (R139). -/
inductive Over where
  | none
  | green
  | outOfState
  | inhibit
  | manual
  | limited
  | hold
  | safeOff
deriving DecidableEq, Repr

/-- The state of one machine function's loop (R133–R145): what its mirror record carries (R45, R459). `cycle` is the last cycle run,
counted from 1; `ran` tells whether the function has run in this half. The integrator, the filtered derivative and the process value
before; the set-point and the output in force; what governed the last cycle, and whether it put the objects in their Green states.
`step`, `stepAt`, `seqOn`, `seqSp` and the requests belong to STATE and SEQ; `fromFunc` is the set-point another function writes (R143).
`used` is the value of twins before they diverge, the next three fields the choice of R141, then the clock and the end of a conflict
HOLD. The interlocks with the instants since when their conditions have been false; the overruns; the schedule variables' last good
values. Of a pair: the side that is on, the side turned off last and not yet released, when, and its channels' report numbers. -/
structure FnSt where
  cycle : Nat := 0
  ran : Bool := false
  integ : Rat := 0
  dFil : Rat := 0
  lastPv : Rat := 0
  sp : Rat := 0
  out : Rat := 0
  ovr : Over := .none
  greened : Bool := false
  step : Nat := 0
  stepAt : Nat := 0
  seqOn : Bool := false
  seqSp : Rat := 0
  startReq : Bool := false
  stepReq : Bool := false
  fromFunc : Option Rat := none
  used : Option Rat := none
  conflict : Bool := false
  resolved : Nat := 0
  sel : Nat := 0
  conflictAt : Option Nat := none
  holdOver : Bool := false
  ilkOn : List Bool := [false, false, false, false]
  ilkOff : List (Option Nat) := [none, none, none, none]
  lateRun : Nat := 0
  onTime : Nat := 0
  held : Bool := false
  v1Good : Rat := 0
  v2Good : Rat := 0
  side : Int := 0
  off : Int := 0
  offAt : Nat := 0
  offSeq : List Nat := []
deriving DecidableEq, Repr

/-- A vertex of a guidance line, mm east and north of the line's origin (R148). -/
structure Vert where
  e : Int := 0
  n : Int := 0
deriving DecidableEq, Repr

/-- A guidance line in its slot (R148). -/
structure Line where
  type_ : Nat := 0
  closed : Bool := false
  edgeLeft : Bool := false
  lat0 : Int := 0
  lon0 : Int := 0
  width : Nat := 0
  offset : Int := 0
  param : Nat := 0
  lineId : Nat := 0
  verts : List Vert := []
deriving DecidableEq, Repr

/-- Steering (R146–R152), mirrored in class M0: the commanded curvature, the audible request with its start, whether its least time
has passed and it is acknowledged, whether the warning before a line's end sounds, the clocks of QUALITY and SPEED, and of an EDGE line
the distance run without the edge and the points steered, newest first, m east and north of the line's origin. -/
structure Steer where
  kappa : Rat := 0
  alertOn : Bool := false
  alertAt : Nat := 0
  alertMin : Bool := false
  alertAck : Bool := false
  warned : Bool := false
  lowQAt : Option Nat := none
  speedAt : Option Nat := none
  edgeLost : Rat := 0
  edgePath : List (Rat × Rat) := []
deriving DecidableEq, Repr

/-- The Setting Engine of a half: its section, its functions' state, the mirror of the functions it does not run (R45), since when each
automatic guard has been true (R126), the last transition, the guidance lines and the load in progress (R148), steering, the functions
homed to Half B (R453), and the last 1 kHz cycle whose outputs were written with the instant RUN was set (R458). -/
structure SetEng where
  sec : FuncSec
  fn : NMap FnSt
  mir : NMap FnSt
  guardAt : NMap Nat
  lastTrans : Nat
  lines : NMap Line
  loading : Option (Nat × List Byte)
  steer : Steer
  homeB : List Nat
  cycK : Nat
  runAt : Nat
deriving DecidableEq, Repr

end Sys2Proof.Machine
end

