-- ==== Sys2Proof/Machine/Types/Time.lean ====
section
/-!
DEFINITION. Module time and the time pulse: chapter 13 of the spec.
-/
namespace Sys2Proof.Machine

/-- A step decided and not yet applied (R397): by an offset, or to a value (TIM_CMD.SET). -/
inductive Step_ where
  | by_ (ofs : Int)
  | to_ (t : Nat)
deriving DecidableEq, Repr

/-- The counter of a half (R388): its offset from the time since power-on (`now`), the slew in progress (its start, and the whole
offset it removes), the step decided, GPS minus UTC where known (R389), when HOLDOVER was entered, the time stored at the last
shutdown (R390), the last TIME_IN edges and the phase the first one taken defines (R401), the second of the last rejection, the value a
read of TIM_NOW_LO latched, and the last time-quality message with the messages' count (R400). -/
structure TimSt where
  offset : Int := 0
  slew : Option (Nat × Int) := none
  step : Option Step_ := none
  leap : Option Nat := none
  holdAt : Nat := 0
  stored : Nat := 0
  edges : List Nat := []
  phase : Option Nat := none
  rejectAt : Nat := 0
  latch : Nat := 0
  msg : List Byte := []
  msgs : Nat := 0
deriving DecidableEq, Repr

/-- The pulse keeper (R398, R399): whether it runs, its last edge, whether it coasts, whether a step lies before its next edge, the
earliest instant of the next edge, and whether the last edge fell while a half served. -/
structure Keeper where
  on : Bool := false
  lastAt : Nat := 0
  coast : Bool := false
  stepped : Bool := false
  notBefore : Nat := 0
  served : Bool := false
deriving DecidableEq, Repr

/-- What a slew has removed after a time: 20 µs per second, to the whole (R394, R396). -/
def slewed (total : Int) (dt : Nat) : Int :=
  if total < 0 then -(min total.natAbs (dt / 50000) : Nat) else ((min total.natAbs (dt / 50000) : Nat) : Int)

/-- What the slew in progress has removed at the time `now`. -/
def TimSt.part (t : TimSt) (now : Nat) : Int :=
  match t.slew with
  | some (a, n) => slewed n (now - a)
  | none => 0

end Sys2Proof.Machine
end

