-- ==== Sys2Proof/Machine/State.lean ====
section
/-!
DEFINITION. The state of the module: plain data. Its reset.
-/
namespace Sys2Proof.Machine

/-- A register file: the registers that differ from their reset values (R579). -/
abbrev RegFile := NMap Word

/-- Everything but the queue, the boundary FIFOs, the arbiter and the Ledger: the time since the module was made, ns; the model's own
counter of free values (log entry 3); the registers of the halves and of the backplane objects; then the hidden state of each unit. -/
structure World where
  now : Nat
  fresh : Nat
  regs : Two RegFile
  bregs : RegFile
  run : Two Run
  evt : Two Router
  xng : Two Xng
  roast : Two Roasts
  bp : BpRoast
  devId : List Byte
  act : Option Activation
  shut : Two Shut
  frame : Two Frame
  svc : Service
  tim : Two TimSt
  set : Two SetEng
  opt : Two Optim
  vlv : Valves
  lsw : Switches
  uin : Inputs
  yld : Two Yield
  cal : CalLock
  dram : Two Memory
  pose : Two (Option Pose)
  grd : Two Grind
  trk : Two Tracks
  gns : Two Gnss
  keeper : Keeper
  can : Cans
  flx : Two Flx
  upd : Two Upd
  pwr : Power
  dsp : Disp
  latch : Latch
deriving DecidableEq, Repr

/-- The reasons to stop with a fault: none. Every command of the block has an outcome that the spec describes or leaves as an unstated
value, so no meaning faults; that is neither safe nor unsafe. -/
inductive Fault
deriving DecidableEq, Repr

/-- The reasons to refuse a command. -/
inductive Refusal where
  /-- The dispatcher: the command has no meaning yet (safe). No arm raises it. -/
  | notModelled (mnemonic : String)
deriving DecidableEq, Repr

/-- The state of the block: the boundary FIFOs, the arbiter, the Ledger, all else, and the commands that wait, first in, first out. -/
structure State where
  bus : Bus
  own : Own
  ledger : Memory
  w : World
  pending : List Instr
deriving DecidableEq, Repr

/-! What a half holds when its reset is released (R93), and at backplane power-on (R91). -/

/-- A router with nothing in it. -/
def Router.init : Router :=
  { queue := [], us := 0, inUs := 0, lostDue := false, routes := [], slots := [], flash := [], sibLog := [] }

/-- A Crossing endpoint before the lanes train. -/
def Xng.init : Xng :=
  { seqTx := [], asked := [], resent := [], sent := none, hbSeq := 0, winAt := 0, suspended := true, lossDue := false, within := 0, outside := 0
    tsyAt := 0, crcMs := 0, crcInMs := 0, upAt := 0, lagAt := 0, fullRx := [], fullDue := [], lastSent := [], sibBloom := false
    txLog := [], rxLog := [] }

/-- A half that does not run. -/
def Run.init : Run :=
  { running := false, refAt := 0, standby := false, bloomStep := 0, fwOk := false, stwAt := 0, rtAt := [0, 0], rtJoined := [false, false]
    greenHold := true, flagsAt := 0, flagsGone := 0, pwrGated := [], selfFenced := false, cause := 0
    resets := 0 }

/-- A shutdown not begun. -/
def Shut.init : Shut :=
  { step := 0, trunc := false, savedAt := 0, runAt := 0, order := [], tested := [], runN := 0, disabled := false }

/-- A Steward before its first frame. -/
def Frame.init : Frame :=
  { start := 0, busy := 0, c0 := 0, c1 := 0, shed := false, paused := false, pausedRun := 0, rearm := [], wdKey := false, wdAt := 0, served := false }

/-- A Setting Engine with nothing loaded. -/
def SetEng.init : SetEng :=
  { sec := {}, fn := [], mir := [], guardAt := [], lastTrans := 0, lines := [], loading := none, steer := {}, homeB := [], cycK := 0, runAt := 0 }

/-- The arbiter at backplane power-on (R27): every token ORPHAN, its timer expired. -/
def Own.init : Own :=
  { tok := [], low := Two.both {}, fellAt := Two.both 0, fallSet := Two.both [], hwIssued := Two.both false, server := none
    op := Two.both .none }

/-- The Roast stores at delivery (R52, R53): empty slots, the factory Green table in both banks, nothing bound. -/
def BpRoast.init : BpRoast :=
  { bank0 := [], bank1 := [], ptr := false, boundId := [], seqFloor := 0, recOpen := false, recDigest := [] }

/-- Empty slots. -/
def Roasts.init : Roasts := { active := {}, pending := {}, trial := false, running := [] }

/-- The power latch before LOGIC_IN is valid. -/
def Latch.init : Latch :=
  { logicValid := false, validAt := 0, keyOn := false, keyOffAt := 0, keySeen := false, pwrHold := false, startup := false, forced := false }

/-- No service request; both cartridges present. -/
def Service.init : Service :=
  { prepared := none, tile := 0, busy := false, readyAt := 0, lastMove := 0, hoursAcc := 0, shutdowns := 0, presence := Two.both true
    present0 := Two.both 0 }

/-- Tiles with nothing loaded. -/
def Valves.init : Valves := { eng := [], tile := [], round := [] }

/-- Switches at rest. -/
def Switches.init : Switches := { sw := [], load := none, grant := (none, none), lost := [] }

/-- Inputs without bindings. -/
def Inputs.init : Inputs :=
  { cfg := {}, loaded := false, bind := [], comp := [], twinAt := [], supply := [], elem := [], hits := [], wins := [], cls := 0, lastGood := [] }

/-- The Ledger's lock closed, no token drawn. -/
def CalLock.init : CalLock := { token := none, tokHalf := .A, tokInit := 0, half := .A, lastAt := 0 }

/-- Everything but the queue, the boundary FIFOs, the arbiter and the Ledger, before the backplane is powered. -/
def World.init : World :=
  { now := 0, fresh := 0, regs := Two.both [], bregs := [], run := Two.both Run.init, evt := Two.both Router.init, xng := Two.both Xng.init
    roast := Two.both Roasts.init, bp := BpRoast.init, devId := [], act := none, shut := Two.both Shut.init, frame := Two.both Frame.init
    svc := Service.init, tim := Two.both {}, set := Two.both SetEng.init, opt := Two.both {}, vlv := Valves.init, lsw := Switches.init
    uin := Inputs.init, yld := Two.both {}, cal := CalLock.init, dram := Two.both [], pose := Two.both none, grd := Two.both {}
    trk := Two.both {}, gns := Two.both {}, keeper := {}, can := {}, flx := Two.both {}, upd := Two.both {}, pwr := {}, dsp := {}
    latch := Latch.init }

/-- The machine right after reset: the module before its backplane is powered, every register at its reset value (R579), every token
ORPHAN with its timer expired (R27), both halves in reset, memories and stores as delivered, no command waiting. -/
def State.reset : State := { bus := { port := Two.both [] }, own := Own.init, ledger := [], w := World.init, pending := [] }

end Sys2Proof.Machine
end

