-- ==== Sys2Proof/Machine/Ops.lean ====
section
/-!
DEFINITION. The named operations over registers, memories, tokens, module time and events.
-/
namespace Sys2Proof.Machine

/-! Registers (R579, R581). A register's key holds its place and, above it, the object or array index it belongs to. -/

/-- The key of a field's register for index `i`. -/
def fieldKey (f : Field) (i : Nat) : Nat := i * 2 ^ 25 + f.reg

/-- The register file a field of half `h`'s window lies in (R21: the registers of backplane objects have one copy). -/
def World.file (w : World) (h : Half) (f : Field) : RegFile := if f.bp then w.bregs else w.regs.get h

/-- The register that holds field `f`, index `i`. -/
def World.reg (w : World) (h : Half) (f : Field) (i : Nat) : Word :=
  NMap.get (regReset f.reg) (w.file h f) (fieldKey f i)

/-- The register written. -/
def World.setReg (w : World) (h : Half) (f : Field) (i : Nat) (v : Word) : World :=
  if f.bp then { w with bregs := NMap.set (regReset f.reg) w.bregs (fieldKey f i) v }
  else { w with regs := w.regs.upd h (fun r => NMap.set (regReset f.reg) r (fieldKey f i) v) }

/-- The value of a field. -/
def World.rd (w : World) (h : Half) (f : Field) (i : Nat := 0) : Nat := (w.reg h f i).field f.lo f.w

/-- The world with a field set (its low bits). -/
def World.wr (w : World) (h : Half) (f : Field) (i : Nat) (v : Nat) : World :=
  w.setReg h f i ((w.reg h f i).setField f.lo f.w v)

/-- A one-bit field as a truth value. -/
def World.flag (w : World) (h : Half) (f : Field) (i : Nat := 0) : Bool := w.rd h f i = 1

/-- A signed field. -/
def World.rdI (w : World) (h : Half) (f : Field) (i : Nat := 0) : Int := signed f.w (w.rd h f i)

/-- A signed value stored in a field. -/
def World.wrI (w : World) (h : Half) (f : Field) (i : Nat) (v : Int) : World := w.wr h f i (toTwos f.w v)

/-- A saturating count in a field rises by one. -/
def World.bump (w : World) (h : Half) (f : Field) (i : Nat := 0) : World := w.wr h f i (satInc f.w (w.rd h f i))

/-- A field written the same in both halves. -/
def World.wrBoth (w : World) (f : Field) (i v : Nat) : World := (w.wr .A f i v).wr .B f i v

/-- The next free value, and the world with the counter advanced (log entry 3). -/
def World.free (w : World) : Word × World := (Config.freeWord w.fresh, { w with fresh := w.fresh + 1 })

/-! Module time (R388). -/

/-- The module time of a half, ns. -/
def World.mt (w : World) (h : Half) : Nat := ((w.now : Int) + (w.tim.get h).offset + (w.tim.get h).part w.now).toNat

/-- Seconds since 1970-01-01 00:00 UTC, or 0 while time is not locked to GPS or its offset to UTC is not known (R389, R517). -/
def World.utc (w : World) (h : Half) : Nat :=
  match (w.tim.get h).leap with
  | none => 0
  | some l => if w.rd h F.TIM_STATUS.STATE = 0 then 0 else w.mt h / 1000000000 + 315964800 - l

/-! Memory of a half. The blocks' rings and buffers have bases that the spec does not state (each reads 0 at reset): each region has its
own address space above 2^32 (log entry 9). -/

/-- The address of byte `a` of a region. -/
def region (r a : Nat) : Nat := r * 2 ^ 32 + a

/-- Bytes written in a region of a half's memory. -/
def World.putMem (w : World) (h : Half) (r a : Nat) (bs : List Byte) : World :=
  { w with dram := w.dram.upd h (fun m => m.writeN (region r a) bs) }

/-- Bytes read from a region of a half's memory. -/
def World.getMem (w : World) (h : Half) (r a n : Nat) : List Byte := (w.dram.get h).readN (region r a) n

/-- The part of a half's memory that holds its event log (R483). -/
def logOf (m : Memory) : Memory := m.filter (fun e => region 10 0 ≤ e.1 && e.1 < region 11 0)

/-! Events (R479–R483). -/

/-- The ARG of an event (R481): object, sub-index, cause. -/
def evArg (obj sub cause : Nat) : Nat := obj % 2 ^ 16 + sub % 256 * 2 ^ 16 + cause % 256 * 2 ^ 24

/-- The queue with a raise merged into the unprocessed record of the same source and ARG (R482), if there is one below 255. -/
def mergeRaise (num arg : Nat) : List EvRec → Option (List EvRec)
  | [] => none
  | r :: t =>
    if r.num = num ∧ r.arg = arg ∧ r.count < 255 then
      some ({ r with count := r.count + 1, flags := if bitOf r.flags 2 then r.flags else r.flags + 4 } :: t)
    else (mergeRaise num arg t).map (r :: ·)

/-- The queue with a record in its place: ordered by STAMP and then by NUM (R481). -/
def placeRec (x : EvRec) : List EvRec → List EvRec
  | [] => [x]
  | r :: t => if x.stamp < r.stamp ∨ (x.stamp = r.stamp ∧ x.num < r.num) then x :: r :: t else r :: placeRec x t

/-- Whether the router can accept one more raise now (R482): the microsecond's 32 and the queue's 256. -/
def Router.open_ (r : Router) (us : Nat) : Bool := (r.us ≠ us || r.inUs < 32) && r.queue.length < 256

/-- One raise taken into the queue; `none` where the router cannot accept it (R482). -/
def Router.take (r : Router) (stamp num flags arg : Nat) : Option Router :=
  let us := stamp / 1000
  let n := if r.us = us then r.inUs else 0
  if n ≥ 32 then none
  else match mergeRaise num arg r.queue with
    | some q => some { r with queue := q, us := us, inUs := n + 1 }
    | none =>
      if r.queue.length ≥ 256 then none
      else some { r with queue := placeRec ⟨stamp, num, flags, 1, arg⟩ r.queue, us := us, inUs := n + 1 }

/-- EVT_ROUTER_LOST once the router can accept a raise again after a drop (R482). -/
def Router.report (r : Router) (stamp flags : Nat) : Router :=
  if r.lostDue && r.open_ (stamp / 1000) then
    match r.take stamp 15 flags (evArg 0xFFFF 0xFF 0) with
    | some r' => { r' with lostDue := false }
    | none => r
  else r

/-- An event raised in half `h` (R479, R482): merged, queued, or dropped and counted. A half that is not running has no router. -/
def World.raise (w : World) (h : Half) (num arg : Nat) : World :=
  if (w.run.get h).running then
    let r := ((w.evt.get h).report (w.mt h) h.code)
    match r.take (w.mt h) num h.code arg with
    | some r' => { w with evt := w.evt.set h r' }
    | none => { w with evt := w.evt.set h { r with lostDue := true } }.bump h F.EVT_STATUS.LOST
  else w

/-- An event of a backplane object: raised in both halves (R479). -/
def World.raiseBoth (w : World) (num arg : Nat) : World := (w.raise .A num arg).raise .B num arg

/-- A change repeated for a list of indices. -/
def World.forAll {α : Type} (w : World) (l : List α) (f : World → α → World) : World := l.foldl f w

/-! Tokens (R22–R28). -/

/-- The number of backplane objects (R23). -/
def nObj : Nat := 362

/-- A half's alive line (R25): high while no cause holds it low. -/
def Low.alive (l : Low) : Bool := !(l.detectOpen || l.supplyBad || l.heldReset || l.watchdog || l.fenced || l.wiring)

/-- The alive line of half `h`. -/
def Own.alive (o : Own) (h : Half) : Bool := (o.low.get h).alive

/-- The token of object `k`. -/
def Own.token (o : Own) (k : Nat) : Token := NMap.get {} o.tok k

/-- The token of object `k` replaced. -/
def Own.setToken (o : Own) (k : Nat) (t : Token) : Own := { o with tok := NMap.set {} o.tok k t }

/-- Half `h` owns object `k`. -/
def Own.owns (o : Own) (h : Half) (k : Nat) : Bool := (o.token k).st = .owned h

/-- The owner of object `k`. -/
def Own.owner (o : Own) (k : Nat) : Option Half :=
  match (o.token k).st with
  | .owned h => some h
  | _ => none

/-- Half `h` holds SERVER (R32). -/
def Own.serves (o : Own) (h : Half) : Bool := o.server = some h

/-- The objects from `a`, `n` of them, that satisfy `p`. -/
def objsWhere (p : Nat → Bool) (a n : Nat) : List Nat := (List.range' a n).filter p

/-- Every object half `h` owns. -/
def Own.ownedBy (o : Own) (h : Half) : List Nat := objsWhere (o.owns h) 0 nObj

/-- Every ORPHAN object. -/
def Own.orphans (o : Own) : List Nat := objsWhere (fun k => (o.token k).st = .orphan) 0 nObj

/-- Half `h` owns at least one object of a range (R20). -/
def Own.ownsAny (o : Own) (h : Half) (a n : Nat) : Bool := (List.range' a n).any (o.owns h)

/-- A token enters ORPHAN at `now` (R27, R30): its timer starts, its last owner is kept (R28, R64). -/
def Own.toOrphan (o : Own) (k now : Nat) (last : Half) : Own :=
  o.setToken k { st := .orphan, at_ := now, expired := false, last := some last }

/-- The object index of a channel of a kind (R23). -/
def objV (n : Nat) : Nat := n
/-- Load switch. -/
def objL (n : Nat) : Nat := 96 + n
/-- Universal input. -/
def objU (n : Nat) : Nat := 144 + n
/-- Loss element. -/
def objLos (n : Nat) : Nat := 272 + n
/-- CAN channel. -/
def objC (n : Nat) : Nat := 336 + n
/-- The segment display driver. -/
def objSeg : Nat := 352
/-- The compatibility panel driver. -/
def objPnl : Nat := 353
/-- Fan or pump channel. -/
def objFan (n : Nat) : Nat := 354 + n
/-- Feed. -/
def objFeed (n : Nat) : Nat := 358 + n

/-- A violation recorded and raised (R20, R49): the initiator and the object of the ignored write. -/
def World.violation (w : World) (h : Half) (init obj : Nat) : World :=
  ((w.wr h F.OWN_VIOL.INIT 0 init).wr h F.OWN_VIOL.OBJ 0 obj).raise h 52 (evArg obj 0xFF init)

/-- A write that acts on object `k`, by initiator `init` of half `h`: taken if the half owns the object now, else ignored with
EVT_OWN_VIOLATION (R20). The arbiter ignores a half whose alive line is low (R25). -/
def gateObj (s : State) (h : Half) (init k : Nat) (f : World → World) : World :=
  if s.own.alive h then (if s.own.owns h k then f s.w else s.w.violation h init k) else s.w

/-- A write that acts on a tile, bank or block: taken for a half that owns at least one of its objects (R20). -/
def gateAny (s : State) (h : Half) (init a n sel : Nat) (f : World → World) : World :=
  if s.own.alive h then (if s.own.ownsAny h a n then f s.w else s.w.violation h init sel) else s.w

/-- The operating state of a half's copy is SERVICE (R125: code 5). -/
def World.inService (w : World) (h : Half) : Bool := w.rd h F.SET_STATE.STATE = 5

/-- The operating state of a half's copy is PARKED or SERVICE. -/
def World.parkedOrService (w : World) (h : Half) : Bool := w.rd h F.SET_STATE.STATE = 0 || w.rd h F.SET_STATE.STATE = 5

/-! Steps. -/

/-- The outcome of a command. -/
abbrev Out := Host.Outcome State Fault Refusal

/-- A command that acts on everything but the queue, the boundary FIFOs, the tokens and the Ledger. -/
def lift (s : State) (f : World → World) : Out := .next { s with w := f s.w }

/-- The outcome with a new world. -/
def putW (s : State) (w : World) : Out := .next { s with w := w }

/-- `f` if the condition holds, else nothing: an effect whose occasion may be absent. -/
def World.when (w : World) (c : Bool) (f : World → World) : World := if c then f w else w

/-- A microsecond, a millisecond and a second, ns. -/
def us : Nat := 1000
/-- A millisecond. -/
def ms : Nat := 1000000
/-- A second. -/
def sec : Nat := 1000000000

/-- The select value of an initiator (R581). -/
def World.sel (w : World) (h : Half) (f : Field) (init : Nat) : Nat := w.rd h f init

end Sys2Proof.Machine
end

