-- ==== Sys2Proof/Machine/Valve.lean ====
section
/-!
DEFINITION. Valve channels: the drive of a channel, bank admission, travel reports, faults, Green states and the commands of a
channel (R182–R220).
-/
namespace Sys2Proof.Machine

/-! Access. -/

/-- The engine of channel `ch`. -/
def World.eng (w : World) (ch : Nat) : Eng := NMap.get {} w.vlv.eng ch

/-- The engine of a channel changed. -/
def World.updEng (w : World) (ch : Nat) (f : Eng → Eng) : World :=
  { w with vlv := { w.vlv with eng := NMap.upd {} w.vlv.eng ch f } }

/-- The hidden state of tile `t`. -/
def World.tileSt (w : World) (t : Nat) : Tile := NMap.get {} w.vlv.tile t

/-- The hidden state of a tile changed. -/
def World.updTile (w : World) (t : Nat) (f : Tile → Tile) : World :=
  { w with vlv := { w.vlv with tile := NMap.upd {} w.vlv.tile t f } }

/-- A bank of a tile's recipe memory. -/
def Tile.bank (t : Tile) (b : Nat) : RBank := if b = 0 then t.bank0 else t.bank1

/-- A tile with a bank changed. -/
def Tile.updBank (t : Tile) (b : Nat) (f : RBank → RBank) : Tile :=
  if b = 0 then { t with bank0 := f t.bank0 } else { t with bank1 := f t.bank1 }

/-- The tile of a channel (R182). -/
def tileOf (ch : Nat) : Nat := ch / 16

/-- The channels of bank `n` (R182): V4n to V4n+3. -/
def bankChans (n : Nat) : List Nat := List.range' (4 * n) 4

/-- The channels of tile `t`. -/
def tileChans (t : Nat) : List Nat := List.range' (16 * t) 16

/-- The recipe that a channel's engine executes: of the bank active when it last started (R188). -/
def World.recipe (w : World) (ch : Nat) : Option Recipe :=
  ((w.tileSt (tileOf ch)).bank (w.rd .A F.VLV_ENG.BANK ch)).recs[(w.eng ch).slot]?

/-- What the active bank of the tile names for a channel (R189). -/
def World.chanRef (w : World) (ch : Nat) : ChanRef :=
  NMap.get {} ((w.tileSt (tileOf ch)).bank (w.rd .A F.VLV_TILE.ACT_BANK (tileOf ch))).chans ch

/-- The twin of a channel (R209), as VLV_RCP reports it. -/
def World.twin (w : World) (ch : Nat) : Option Nat :=
  if w.flag .A F.VLV_RCP.TWIN ch then some (w.rd .A F.VLV_RCP.PARTNER ch) else none

/-- The twin line of a channel (R209): high while it is present, unfaulted and not KNOCKED (SAFE_OFF sets KNOCKED, R214). -/
def World.twinLine (w : World) (ch : Nat) : Bool :=
  w.flag .A F.VLV_TILE.PRESENT (tileOf ch) && w.rd .A F.VLV_STATUS.FAULT ch = 0 && !w.flag .A F.VLV_STATUS.KNOCKED ch

/-- The GREN entry of an object, from the active bank of the Green shadow (R61, R88). -/
def World.gren (w : World) (k : Nat) : Gren := grenAt (if w.bp.ptr then w.bp.bank1 else w.bp.bank0) k

/-- SAFE_OFF is asserted on a channel of the input, or by DISC (R572). -/
def World.safeOff (w : World) : Bool := w.flag .A F.PWR_SAFE.ASSERTED

/-- SAFE_OFF acts on object `k` now: asserted, and its SO bit set (R65). -/
def World.safeOn (w : World) (k : Nat) : Bool := w.safeOff && (w.gren k).so

/-- An event of a tile (R220): it names the channel, or 0xFF for the whole tile. -/
def World.vlvEvent (w : World) (t k ch cause : Nat) : World := w.raiseBoth (64 + 8 * t + k) (evArg ch 0xFF cause)

/-! Targets (R194, R199, R207, R210). -/

/-- A ramp's value now: linear from its start over its time. -/
def Ramp.value (r : Ramp) (now : Nat) : Nat :=
  if r.dur ≤ now - r.start then r.dst
  else ((r.src : Int) + ((r.dst : Int) - r.src) * ((now - r.start : Nat) : Int) / r.dur).toNat

/-- The twin scale now, in thousandths: 10 ms linear to 500 during a merge (R210). -/
def Eng.scaleNow (e : Eng) (now : Nat) : Nat :=
  match e.merge with
  | none => e.scale
  | some t0 => Ramp.value ⟨e.scale, 500, t0, 10 * ms⟩ now

/-- The limit of the effective target (R199, R206): I_MAX, 12,000 mA, and 0.9 · I_CONT under the hardware duty limit. -/
def World.curLimit (w : World) (ch : Nat) : Nat :=
  match w.recipe ch with
  | none => 12000
  | some r => min (min r.iMax 12000) (if w.flag .A F.VLV_STATUS.DUTY_HW ch then 9 * r.iCont / 10 else 12000)

/-- The effective target without dither, mA (VLV_CUR.TARGET): the hold regulator's level in a Green LEVEL state, else the target
at the twin scale, limited. -/
def World.effTarget (w : World) (ch : Nat) : Nat :=
  let e := w.eng ch
  match e.gramp, e.level with
  | some r, _ => r.value w.now
  | none, some l => l
  | none, none =>
    let t := match e.ramp with
      | some r => min e.tgt (r.value w.now)
      | none => e.tgt
    min (t * e.scaleNow w.now / 1000) (w.curLimit ch)

/-- What a channel counts in its bank's sum (R207): its effective target plus the dither amplitude, while its source is not NONE. -/
def World.demand (w : World) (ch : Nat) : Nat :=
  if w.rd .A F.VLV_STATUS.SRC ch = 0 then 0 else w.effTarget ch + (w.eng ch).dith.amp

/-- The sum of the effective targets of a bank (VLV_BANK.SUM). -/
def World.bankSum (w : World) (n : Nat) : Nat := (bankChans n).foldl (fun a c => a + w.demand c) 0

/-- The bank limit, mA (R183). -/
def bankLimit : Nat := 28000

/-- A channel with a target and an amplitude in force. -/
def World.setTgt (w : World) (ch tgt amp : Nat) : World :=
  w.updEng ch fun e => { e with
    constAt := if e.tgt = tgt then e.constAt else w.now, tgt := tgt, dith := { e.dith with amp := amp } }

/-- Whether the requested target and amplitude of a channel fit its bank now, or ask for no increase (R207). -/
def World.fits (w : World) (ch : Nat) : Bool :=
  let e := w.eng ch
  let w' := w.setTgt ch e.want e.wantAmp
  w'.demand ch ≤ w.demand ch || w'.bankSum (ch / 4) ≤ bankLimit

/-- The target at which a channel fills the headroom left (R207): what its bank's limit leaves, taken back through the scale. -/
def World.headroomTgt (w : World) (ch : Nat) : Nat :=
  let e := w.eng ch
  let left := bankLimit - (w.bankSum (ch / 4) - w.demand ch) - e.dith.amp
  let sc := e.scaleNow w.now
  max e.tgt (min e.want (if sc = 0 then e.want else left * 1000 / sc))

/-- A request for a target and an amplitude (R207): taken if it fits, else it waits with DELAYED set. -/
def World.askTgt (w : World) (ch want amp : Nat) (holds : Bool) : World :=
  let w := w.updEng ch fun e => { e with want := want, wantAmp := amp }
  if w.fits ch then
    (((w.setTgt ch want amp).updEng ch fun e => { e with req := none }).wr .A F.VLV_STATUS.DELAYED ch 0).wr .A F.VLV_STATUS.LIMITED ch 0
  else
    (((w.updEng ch fun e => { e with req := some ⟨false, w.now, holds, false⟩ }).wr .A F.VLV_STATUS.DELAYED ch 1).wr .A F.VLV_STATUS.LIMITED ch 0).bump
      .A F.VLV_CNT.DELAYS ch

/-! Sources and turn-off (R185, R198, R207, R208). -/

/-- Whether boost can be admitted for a channel: no other channel of the bank in BOOST, the rail at 40 V at least (R207). -/
def World.boostFree (w : World) (ch : Nat) : Bool :=
  (bankChans (ch / 4)).all (fun c => c = ch || w.rd .A F.VLV_STATUS.SRC c ≠ 2) && 4000 ≤ w.rd .A F.VLV_TILE.RAIL (tileOf ch)

/-- A channel admitted to a source: a FAST decay of another channel of the bank goes on as CLAMP (R208); a Green LEVEL state ends
at the engine's first SRC (R216). -/
def World.admitSrc (w : World) (ch src : Nat) : World :=
  let w := w.wr .A F.VLV_STATUS.SRC ch src
  let w := w.forAll ((bankChans (ch / 4)).filter (· ≠ ch)) fun w c => w.updEng c fun e => { e with fast := false }
  let w := w.updEng ch fun e => { e with
    level := none, gramp := none, fast := false, req := none, blank := w.now, drive := if e.drive = .off then .current else e.drive }
  (w.wr .A F.VLV_STATUS.GREEN ch 0)

/-- A channel turned off with a mode: source NONE; FAST only while every other channel of the bank has source NONE, else CLAMP with
DOWNGRADED (R208). -/
def World.turnOff (w : World) (ch mode : Nat) : World :=
  let alone := (bankChans (ch / 4)).all (fun c => c = ch || w.rd .A F.VLV_STATUS.SRC c = 0)
  let w := (w.wr .A F.VLV_STATUS.SRC ch 0).wr .A F.VLV_STATUS.DOWNGRADED ch (b2n (mode = 2 && !alone))
  w.updEng ch fun e => { e with fast := mode = 2 && alone, drive := .off, blank := w.now }

/-- The engine of a channel stopped: no wait, no request, no dither (R197). -/
def World.stopEngine (w : World) (ch : Nat) : World :=
  (w.updEng ch fun e => { e with wait := .none, req := none, dith := {}, wantAmp := 0, ramp := none, track := false }).wr
    .A F.VLV_STATUS.RUN ch 0

/-- A fault of a channel (R211): engine halted, off with CLAMP, twin line down, EVT_VLV_FAULT; NORCP only sets its code. -/
def World.vlvFault (w : World) (ch code : Nat) : World :=
  let w := w.wr .A F.VLV_STATUS.FAULT ch code
  if code = 5 then w
  else (((w.turnOff ch 1).stopEngine ch).updEng ch fun e => { e with level := none, gramp := none, relOn := false }).vlvEvent
    (tileOf ch) 0 ch code

/-- A Knock of a channel (R213): engine stopped, off with the phase's mode, KNOCKED. -/
def World.knockValve (w : World) (ch mode : Nat) : World :=
  (((w.turnOff ch mode).stopEngine ch).updEng ch fun e => { e with level := none, gramp := none, relOn := false }).wr
    .A F.VLV_STATUS.KNOCKED ch 1

/-! Travel reports (R204). -/

/-- A time in 100 ns units in the 24-bit field T, saturating. -/
def travelT (from_ at_ : Nat) : Nat := satTo 24 ((at_ - from_) / 100)

/-- A report to VLV_TON (PULL) or VLV_TOFF (CLOSE), with its counts and EVT_VLV_NOKINK at the KINK_N-th in a row. -/
def World.travelReport (w : World) (ch : Nat) (close nokink : Bool) (t : Nat) : World :=
  let n := b2n nokink
  let w := if close then
      (((w.wr .A F.VLV_TOFF.T ch t).wr .A F.VLV_TOFF.NOKINK ch n).wr .A F.VLV_TOFF.SEQ ch (w.rd .A F.VLV_TOFF.SEQ ch + 1)).bump
        .A F.VLV_CNT.RELEASES ch
    else ((w.wr .A F.VLV_TON.T ch t).wr .A F.VLV_TON.NOKINK ch n).wr .A F.VLV_TON.SEQ ch (w.rd .A F.VLV_TON.SEQ ch + 1)
  let w := if nokink then w.bump .A F.VLV_CNT.NOKINK ch else w.wr .A F.VLV_CNT.NOKINK ch 0
  let w := w.updEng ch fun e => { e with
    runPull := if close then e.runPull else if nokink then e.runPull + 1 else 0
    runClose := if close then (if nokink then e.runClose + 1 else 0) else e.runClose
    travel := if nokink || t = 2 ^ 24 - 1 then e.travel else (t :: e.travel).take 16
    travelAt := if nokink || t = 2 ^ 24 - 1 then e.travelAt else w.now }
  let e := w.eng ch
  let run := if close then e.runClose else e.runPull
  w.when (nokink && (w.recipe ch).any (fun r => r.kinkN = run)) fun w => w.vlvEvent (tileOf ch) 1 ch (b2n close)

/-- The reference instant of a report (R204). -/
def Eng.reference (e : Eng) (close : Bool) (waitStart : Nat) : Nat :=
  if close then (match e.offAt, e.noneAt with
    | some t, _ => t
    | none, some t => t
    | none, none => waitStart)
  else e.startAt

/-! The Green state (R63, R216). -/

/-- The CLOSE detector of a Green OFF entry: window 0.2–100 ms, 200 mV/µs. -/
def World.greenDetect (w : World) (ch : Nat) : World :=
  w.updEng ch fun e => { e with
    wait := .kink true w.now (w.now + 200 * us) (w.now + 100 * ms) 200, relOn := true, noneAt := some w.now, offAt := none }

/-- A valve channel enters its Green state. -/
def World.greenValve (w : World) (ch : Nat) : World :=
  let g := w.gren (objV ch)
  let i := w.rd .A F.VLV_CUR.I ch
  let driving := w.rd .A F.VLV_STATUS.SRC ch ≠ 0 || 50 < i
  let live := w.flag .A F.VLV_TILE.PRESENT (tileOf ch) && w.rd .A F.VLV_STATUS.FAULT ch = 0 && !w.flag .A F.VLV_STATUS.KNOCKED ch
  let from_ := if w.rd .A F.VLV_STATUS.SRC ch = 0 then i else w.effTarget ch
  let w := ((w.stopEngine ch).wr .A F.VLV_STATUS.GREEN ch 1).wr .A F.VLV_STATUS.CMD ch 0
  let w := w.updEng ch fun e => { e with level := none, gramp := none, greenToff := g.toff, relOn := false }
  if !live then w
  else if g.state = 2 then
    (w.wr .A F.VLV_STATUS.SRC ch 1).updEng ch fun e => { e with
      level := some g.level, drive := .current, scale := 1000, merge := none,
      gramp := if g.entry = 1 then some ⟨from_, g.level, w.now, g.rampMs * ms⟩ else none }
  else if g.entry = 1 && driving then
    (w.wr .A F.VLV_STATUS.SRC ch 1).updEng ch fun e => { e with
      gramp := some ⟨from_, 0, w.now, g.rampMs * ms⟩, drive := .current }
  else
    let w := w.turnOff ch g.toff
    w.when driving (·.greenDetect ch)

/-! Commands of a channel. -/

/-- A write to a channel of the initiator's select, by the owner (R20): ignored while the tile is not ready (R470) or SAFE_OFF acts
on the channel (R214), and beyond the range of the select (R583). -/
def valveWrite (s : State) (h : Half) (init : Nat) (f : Nat → World → World) : Out :=
  let ch := s.w.sel h F.VLV_SEL.CH init
  if 96 ≤ ch then .next s
  else if !(s.w.tileSt (tileOf ch)).ready then .next s
  else putW s <| gateObj s h init (objV ch) fun w => if w.safeOn (objV ch) then w else f ch w

/-- The command level of a channel set (R189, R190, R213, R216). -/
def World.valveCmd (w : World) (ch : Nat) (on : Bool) : World :=
  let cmd := w.flag .A F.VLV_STATUS.CMD ch
  let green := w.flag .A F.VLV_STATUS.GREEN ch
  if on then
    if (w.chanRef ch).ref = 0 then w.wr .A F.VLV_STATUS.FAULT ch 5
    else
      let w := (w.wr .A F.VLV_CMD.ON ch 1).wr .A F.VLV_STATUS.CMD ch 1
      let w := w.updEng ch fun e => { e with probed := false }
      if cmd then w else if green && (w.eng ch).level.isNone then w.wr .A F.VLV_STATUS.GREEN ch 0 else w
  else
    let w := ((w.wr .A F.VLV_CMD.ON ch 0).wr .A F.VLV_STATUS.CMD ch 0).wr .A F.VLV_STATUS.KNOCKED ch 0
    let w := if cmd then w.updEng ch fun e => { e with offAt := some w.now } else w
    if green then
      if (w.eng ch).level.isSome then
        let t := w.free.1
        let w := w.free.2
        let w := w.updEng ch fun e => { e with level := none, gramp := none }
        ((w.turnOff ch (w.eng ch).greenToff).wr .A F.VLV_STATUS.GREEN ch 0).travelReport ch true true (t.toNat % 2 ^ 24)
      else w.wr .A F.VLV_STATUS.GREEN ch 0
    else w

/-- A write of VLV_CMD.ON (R190). -/
def execVlvCommand (h : Half) (init : Nat) (on : Bool) (s : State) : Out :=
  valveWrite s h init fun ch w => w.valveCmd ch on

/-- The set-point of a channel set; an SP operand tracks it, used up to I_MAX (R194). -/
def World.valveSetpoint (w : World) (ch v : Nat) : World :=
  let w := w.wr .A F.VLV_SETPOINT.MA ch v
  if (w.eng ch).track then
    let lim := ((w.recipe ch).map (·.iMax)).getD 12000
    let sp := w.rd .A F.VLV_SETPOINT.MA ch
    let w := w.wr .A F.VLV_STATUS.SP_CLAMP ch (b2n (lim < sp))
    let w := w.updEng ch fun e => { e with ramp := e.ramp.map fun r => { r with dst := min sp lim } }
    w.askTgt ch (min sp lim) (w.eng ch).wantAmp false
  else w

/-- A write of VLV_SETPOINT (R190, R194). -/
def execVlvSetpointWrite (h : Half) (init v : Nat) (s : State) : Out :=
  valveWrite s h init fun ch w => w.valveSetpoint ch v

/-- VLV_CMD.CLR_FAULT with the command OFF (R211). -/
def execVlvClrFault (h : Half) (init : Nat) (s : State) : Out :=
  valveWrite s h init fun ch w => w.when (!w.flag .A F.VLV_CMD.ON ch) fun w => w.wr .A F.VLV_STATUS.FAULT ch 0

/-- VLV_CMD.KNOCK (R213). -/
def execVlvKnock (h : Half) (init : Nat) (s : State) : Out :=
  valveWrite s h init fun ch w => w.knockValve ch (w.rd .A F.VLV_STATUS.TOFF ch)

/-- VLV_CTRL.CLR_CNT (R219): the counts of the tile of the initiator's select, for a half that owns a channel of it (R20). -/
def execVlvClrCnt (h : Half) (init : Nat) (s : State) : Out :=
  let ch := s.w.sel h F.VLV_SEL.CH init
  if 96 ≤ ch then .next s
  else putW s <| gateAny s h init (16 * tileOf ch) 16 (objV ch) fun w =>
    w.forAll (tileChans (tileOf ch)) fun w c => w.setReg .A F.VLV_CNT.NOKINK c 0

/-- The band a start takes (R200, R201): the channel's last estimate, else BAND_INIT. -/
def Eng.startBand (e : Eng) (r : Recipe) : Nat := e.est.getD r.bandInit

/-- The engine of a channel started at an entry (R191, R198, R201). -/
def World.startEngine (w : World) (ch : Nat) (atHold : Bool) (scale : Nat) : World :=
  let act := w.rd .A F.VLV_TILE.ACT_BANK (tileOf ch)
  let cr := w.chanRef ch
  let w := w.wr .A F.VLV_ENG.BANK ch act
  let w := ((w.wr .A F.VLV_RCP.REF ch cr.ref).wr .A F.VLV_RCP.SLOT ch cr.slot)
  let w := w.updEng ch fun e => { e with slot := cr.slot }
  match w.recipe ch with
  | none => w.vlvFault ch 4
  | some r =>
    let w := w.wr .A F.VLV_ENG.PC ch (if atHold then r.holdEntry else r.entry)
    let w := ((w.wr .A F.VLV_STATUS.RUN ch 1).wr .A F.VLV_STATUS.PHASE ch 0).wr .A F.VLV_STATUS.TOFF ch 0
    let band := (w.eng ch).startBand r
    let w := (w.wr .A F.VLV_STATUS.BAND ch band).wr .A F.VLV_STATUS.BAND_PEND ch band
    let w := w.updEng ch fun e => { e with
      hold := false, peak := false, wk := [0, 0, 0, 0], ctr := [none, none], kink := false, nokink := false, timeout := false,
      wait := .none, req := none, startAt := w.now, noneAt := none, offAt := none, pend := none, scale := scale, merge := none,
      relOn := false, probed := false, past := false }
    if (w.eng ch).level.isSome then w else w.wr .A F.VLV_STATUS.GREEN ch 0

/-- The twin partner of a channel runs in a phase marked HOLD (R191). -/
def World.partnerHolds (w : World) (ch : Nat) : Bool :=
  match w.twin ch with
  | none => false
  | some p => w.flag .A F.VLV_STATUS.RUN p && (w.eng p).hold

/-- A start under R191 of a channel that may start: at HOLD_ENTRY in a Green LEVEL state or beside a partner in HOLD; the twin scale
is 0.5 beside a healthy partner (R209), 0 for a partner returning beside a survivor (R210), else 1. -/
def World.engineStart (w : World) (ch : Nat) : World :=
  let atHold := (w.eng ch).level.isSome || w.partnerHolds ch
  match w.twin ch with
  | none => w.startEngine ch atHold 1000
  | some p =>
    if !w.twinLine p then w.startEngine ch atHold 1000
    else if w.partnerHolds ch && w.flag .A F.VLV_STATUS.TWIN_SOLO p then w.startEngine ch atHold 0
    else
      let solo := w.flag .A F.VLV_STATUS.TWIN_SOLO ch
      let w := (w.startEngine ch atHold 500).wr .A F.VLV_STATUS.TWIN_SOLO ch 0
      w.when solo fun w => w.vlvEvent (tileOf ch) 5 ch 0

/-- The channel may start (R191): command ON, not KNOCKED, halted, unfaulted, its tile ready and its recipe named. -/
def World.mayStart (w : World) (ch : Nat) : Bool :=
  w.flag .A F.VLV_STATUS.CMD ch && !w.flag .A F.VLV_STATUS.KNOCKED ch && !w.flag .A F.VLV_STATUS.RUN ch &&
    w.rd .A F.VLV_STATUS.FAULT ch = 0 && (w.tileSt (tileOf ch)).ready && (w.chanRef ch).ref ≠ 0

/-- STW_SVC_STAT in both halves: its state and reason, with EVT_AVL_SVC where the state changes (R466–R469, R474). -/
def World.svcState (w : World) (st reason : Nat) : World :=
  let was := w.rd .A F.STW_SVC_STAT.STATE
  let w := (w.wrBoth F.STW_SVC_STAT.STATE 0 st).wrBoth F.STW_SVC_STAT.REASON 0 reason
  if was = st then w else w.raiseBoth 7 (evArg 0xFFFF 0xFF 0)

/-- The start of an engine while its tile is prepared (R469): an untwinned channel brings the request back to REFUSED with TWIN. -/
def World.svcTwinLost (w : World) (ch : Nat) : World :=
  w.when (w.rd .A F.STW_SVC_STAT.STATE = 2 && w.rd .A F.STW_SVC_STAT.OP = 2 && w.rd .A F.STW_SVC_STAT.TARGET = tileOf ch &&
      (w.twin ch).isNone) fun w =>
    (w.wrBoth F.STW_SVC_STAT.OBJ 0 (objV ch)).svcState 3 4

/-- A halted engine starts (R191). -/
def execEngineStart (ch : Nat) (s : State) : Out :=
  lift s fun w => w.when (w.mayStart ch) fun w => (w.engineStart ch).svcTwinLost ch

/-- The end of a Green RAMP entry of a valve (R63, R216): the OFF state turns the channel off with its TOFF and starts the detector. -/
def World.valveRampEnd (w : World) (ch : Nat) : World :=
  match (w.eng ch).gramp with
  | none => w
  | some r =>
    if w.now < r.start + r.dur then w
    else
      let w := w.updEng ch fun e => { e with gramp := none }
      if (w.eng ch).level.isSome then w
      else (w.turnOff ch (w.eng ch).greenToff).greenDetect ch

/-! Bank admission (R207). -/

/-- The waiting channels of a bank in the order their requests arose, lowest channel first in a tick. -/
def World.waiting (w : World) (n : Nat) : List Nat :=
  sortBy (fun a b => decide (((w.eng a).req.map (·.since)).getD 0 ≤ ((w.eng b).req.map (·.since)).getD 0))
    ((bankChans n).filter (fun c => (w.eng c).req.isSome))

/-- The program counter of a channel moves to the next word. -/
def World.advance (w : World) (ch : Nat) : World :=
  let pc := w.rd .A F.VLV_ENG.PC ch
  if pc = 2047 then w.updEng ch fun e => { e with past := true } else w.wr .A F.VLV_ENG.PC ch (pc + 1)

/-- One waiting request decided: admitted if it fits now; an excess takes what headroom there is. -/
def World.decide_ (w : World) (ch : Nat) : World :=
  match (w.eng ch).req with
  | none => w
  | some r =>
    if r.boost then
      if w.boostFree ch then (w.admitSrc ch 2).when r.holds (·.advance ch) else w
    else if w.fits ch then
      let e := w.eng ch
      let w := (w.setTgt ch e.want e.wantAmp).updEng ch fun e => { e with req := none }
      (w.wr .A F.VLV_STATUS.LIMITED ch 0).when r.holds (·.advance ch)
    else if r.late then w.setTgt ch (w.headroomTgt ch) (w.eng ch).dith.amp
    else w

/-- Headroom or the boost source has freed up (R207). -/
def execBankAdmission (bank : Nat) (s : State) : Out :=
  lift s fun w => w.forAll (w.waiting bank) World.decide_

/-- A request has waited 2 ms (R207): BOOST is refused with TIMEOUT; an increase is admitted up to the headroom left. -/
def execBankWaitTimeout (ch : Nat) (s : State) : Out :=
  lift s fun w =>
    match (w.eng ch).req with
    | none => w
    | some r =>
      if r.late || w.now < r.since + 2 * ms then w
      else
        let w := w.vlvEvent (tileOf ch) 2 ch (b2n r.boost)
        let w := if r.boost then w.updEng ch fun e => { e with req := none, timeout := true }
          else ((w.setTgt ch (w.headroomTgt ch) (w.eng ch).dith.amp).updEng ch fun e => { e with
            req := some { r with late := true, holds := false } }).wr .A F.VLV_STATUS.LIMITED ch 1
        w.when r.holds (·.advance ch)

/-! Recipe memory (R188). -/

/-- The digest prefix of the Roast a half runs: the first 64 bits of its digest (R38, R69). -/
def World.roastPrefix (w : World) (h : Half) : Nat := leAt (w.roast.get h).running 0 8

/-- The bank of a tile that is not active. -/
def World.idleBank (w : World) (t : Nat) : Nat := 1 - w.rd .A F.VLV_TILE.ACT_BANK t

/-- A half writes the recipes of its Roast into the inactive bank of a tile: refused while an engine executes that bank; nothing to
do where a bank carries its tag; it waits where the sibling holds the lock. -/
def World.loadTile (w : World) (h : Half) (t : Nat) (recs : List Recipe) (chans : NMap ChanRef) : World :=
  let tag := w.roastPrefix h
  let ts := w.tileSt t
  if ts.bank0.tag = tag || ts.bank1.tag = tag || ts.lock.isSome || !w.flag .A F.VLV_TILE.PRESENT t then w
  else
    let b := w.idleBank t
    if (tileChans t).any (fun c => w.flag .A F.VLV_STATUS.RUN c && w.rd .A F.VLV_ENG.BANK c = b) then
      w.wr .A F.VLV_TILE.BANK_BUSY t 1
    else
      ((w.updTile t fun ts => { Tile.updBank ts b (fun _ => ⟨0, recs, chans⟩) with lock := some h }).wr .A F.VLV_TILE.LOADING t 1).wr
        .A F.VLV_TILE.BANK_BUSY t 0

/-- The load lock released with the tag set. -/
def World.unlockTile (w : World) (t : Nat) : World :=
  match (w.tileSt t).lock with
  | none => w
  | some h =>
    let tag := w.roastPrefix h
    let b := w.idleBank t
    (w.updTile t fun ts => { Tile.updBank ts b (fun rb => { rb with tag := tag }) with lock := none }).wr .A F.VLV_TILE.LOADING t 0

/-- The load lock of a holder whose alive line falls: released at once, the bank it was writing unwritten. -/
def World.dropTileLock (w : World) (h : Half) (t : Nat) : World :=
  if (w.tileSt t).lock = some h then
    let b := w.idleBank t
    (w.updTile t fun ts => { Tile.updBank ts b (fun _ => {}) with lock := none }).wr .A F.VLV_TILE.LOADING t 0
  else w

/-- The references of the active bank shown in VLV_RCP. -/
def World.showRefs (w : World) (t : Nat) : World :=
  w.forAll (tileChans t) fun w c =>
    let cr := w.chanRef c
    let w := w.wr .A F.VLV_RCP.TWIN c (b2n cr.twin.isSome)
    let w := w.wr .A F.VLV_RCP.PARTNER c (cr.twin.getD 0)
    if w.flag .A F.VLV_STATUS.RUN c then w else (w.wr .A F.VLV_RCP.REF c cr.ref).wr .A F.VLV_RCP.SLOT c cr.slot

/-- A written bank may become active (R188). -/
def bankMayActivate (s : State) (t : Nat) : Bool :=
  let ts := s.w.tileSt t
  let act := s.w.rd .A F.VLV_TILE.ACT_BANK t
  let tag := (ts.bank (1 - act)).tag
  tag ≠ 0 && tag ≠ (ts.bank act).tag && ts.lock.isNone &&
    (tileChans t).all fun c =>
      match (s.own.token (objV c)).st with
      | .orphan => true
      | .owned h => s.w.roastPrefix h = tag
      | .claiming _ _ => false

/-- The active bank of a tile changes (R188). -/
def execRecipeBankActivate (t : Nat) (s : State) : Out :=
  lift s fun w => w.when (bankMayActivate s t) fun w => (w.wr .A F.VLV_TILE.ACT_BANK t (w.idleBank t)).showRefs t

/-! Estimates, duty, rail (R184, R200, R205, R206). -/

/-- The band after an estimate: it rises at T_k+1, falls below T_k+1 − 4 K. -/
def Recipe.band (r : Recipe) (k : Nat) (t : Rat) : Nat :=
  let th (i : Nat) : Int := if i = 1 then r.t1 else if i = 2 then r.t2 else r.t3
  let up (k : Nat) : Nat := if k < 3 && (th (k + 1) : Rat) ≤ t then k + 1 else k
  let down (k : Nat) : Nat := if 0 < k && t < (th k : Rat) - 4 then k - 1 else k
  if (k < 3 && (th (k + 1) : Rat) ≤ t) then up (up (up k)) else down (down (down k))

/-- The coil estimate of a channel from the mean coil voltage (10 mV) and the mean current (mA). -/
def execCoilEstimate (ch v i : Nat) (s : State) : Out :=
  lift s fun w =>
    let e := w.eng ch
    match w.recipe ch with
    | none => w
    | some r =>
      if !(w.flag .A F.VLV_STATUS.RUN ch && e.hold && e.constAt + 20 * ms ≤ w.now) || i = 0 || r.coilR = 0 then w
      else
        let res : Rat := (10000 * v : Nat) / (i : Rat)
        let t : Rat := 20 + (res / r.coilR - 1) / (393 / 100000)
        let k := r.band (e.startBand r) t
        let w := (w.wr .A F.VLV_COIL.RES ch (satTo 16 (roundN res))).wrI .A F.VLV_COIL.TEMP ch (clampI (-128) 127 (roundR t))
        (w.updEng ch fun e => { e with est := some k, pend := some k }).wr .A F.VLV_STATUS.BAND_PEND ch k

/-- A duty bin's width, ns. -/
def Recipe.binNs (r : Recipe) : Nat := r.dutyWin * sec / 64

/-- A channel's D in 0.1 % units as a fraction of numbers (R205): the 63 closed bins and the open bin, mA²·ms. -/
def Eng.duty (e : Eng) (r : Recipe) : Rat :=
  (((e.bins.take 63).foldl (· + ·) 0 + e.bin : Nat) : Rat) / ((r.dutyWin * r.iCont * r.iCont : Nat) : Rat)

/-- One evaluation of D after a millisecond at the rms current `i` (R205), and the hardware duty limit (R206). -/
def execDutyEvaluation (ch i : Nat) (s : State) : Out :=
  lift s fun w =>
    match w.recipe ch with
    | none => w
    | some r =>
      let w := (w.wr .A F.VLV_CUR.I ch (satTo 16 i)).updEng ch fun e =>
        let e := { e with bin := e.bin + i * i }
        if e.binAt + r.binNs ≤ w.now then { e with bins := (e.bin :: e.bins).take 63, bin := 0, binAt := w.now } else e
      let d := (w.eng ch).duty r
      let w := (w.wr .A F.VLV_DUTY.D ch (min 2000 (floorN d))).wr .A F.VLV_STATUS.DUTY_LIM ch (b2n ((r.dutyMax : Rat) ≤ d))
      let hw := w.flag .A F.VLV_STATUS.DUTY_HW ch
      if !hw && 1000 ≤ d then (w.wr .A F.VLV_STATUS.DUTY_HW ch 1).vlvEvent (tileOf ch) 3 ch 0
      else if hw && d ≤ 950 then w.wr .A F.VLV_STATUS.DUTY_HW ch 0
      else w

/-- The boost rail below 30 V while a bank draws on it: the bank's source moves to the feed (R184). -/
def execBoostRailLow (t v : Nat) (s : State) : Out :=
  lift s fun w =>
    let w := w.wr .A F.VLV_TILE.RAIL t (satTo 16 v)
    w.when (v < 3000 && (w.flag .A F.VLV_TILE.BOOST_OK t || (tileChans t).any fun c => w.rd .A F.VLV_STATUS.SRC c = 2)) fun w =>
      let w := w.forAll (tileChans t) fun w c => w.when (w.rd .A F.VLV_STATUS.SRC c = 2) fun w => w.wr .A F.VLV_STATUS.SRC c 1
      (w.wr .A F.VLV_TILE.BOOST_OK t 0).vlvEvent t 4 0xFF 0

/-- The rail back above 44 V (R184). -/
def execBoostRailRecover (t v : Nat) (s : State) : Out :=
  lift s fun w => (w.wr .A F.VLV_TILE.RAIL t (satTo 16 v)).when (4400 < v) fun w => w.wr .A F.VLV_TILE.BOOST_OK t 1

/-! Twins (R209, R210). -/

/-- The partner's line has been low: the survivor takes scale 1.0. -/
def execTwinPartnerLoss (ch : Nat) (s : State) : Out :=
  lift s fun w =>
    match w.twin ch with
    | none => w
    | some p =>
      w.when (!w.twinLine p && w.twinLine ch && !w.flag .A F.VLV_STATUS.TWIN_SOLO ch) fun w =>
        let e := w.eng ch
        let held := e.tgt * e.scaleNow w.now / 1000
        let w := w.updEng ch fun e => { e with scale := 1000, merge := none, tgt := held }
        let w := w.askTgt ch e.tgt e.wantAmp false
        (w.wr .A F.VLV_STATUS.TWIN_SOLO ch 1).vlvEvent (tileOf ch) 5 ch 1

/-- A partner's line rises again: it starts at HOLD_ENTRY with scale 0 beside the survivor. -/
def execTwinPartnerReturn (ch : Nat) (s : State) : Out :=
  lift s fun w =>
    match w.twin ch with
    | none => w
    | some p =>
      w.when (w.twinLine ch && w.flag .A F.VLV_STATUS.TWIN_SOLO p && w.mayStart ch) fun w => w.startEngine ch true 0

/-- The returning partner has executed a phase marked HOLD: both scales begin their merge. -/
def World.beginMerge (w : World) (ch : Nat) : World :=
  match w.twin ch with
  | none => w
  | some p =>
    w.when ((w.eng ch).scale = 0 && (w.eng ch).merge.isNone && w.flag .A F.VLV_STATUS.TWIN_SOLO p) fun w =>
      (w.updEng ch fun e => { e with merge := some w.now }).updEng p fun e => { e with merge := some w.now }

/-- The 10 ms merge ends: both scales 0.5, TWIN_SOLO clears, EVT_VLV_TWIN. -/
def execTwinScaleMergeEnd (ch : Nat) (s : State) : Out :=
  lift s fun w =>
    match w.twin ch, (w.eng ch).merge with
    | some p, some t0 =>
      w.when (t0 + 10 * ms ≤ w.now) fun w =>
        let w := w.forAll [ch, p] fun w c => w.updEng c fun e => { e with scale := 500, merge := none }
        let solo := if w.flag .A F.VLV_STATUS.TWIN_SOLO p then p else ch
        ((w.wr .A F.VLV_STATUS.TWIN_SOLO ch 0).wr .A F.VLV_STATUS.TWIN_SOLO p 0).vlvEvent (tileOf solo) 5 solo 0
    | _, _ => w

/-! Faults (R211, R212). -/

/-- Channel current at or above 14.0 A for 2 µs. -/
def execVlvShort (ch i : Nat) (s : State) : Out :=
  lift s fun w => w.when (14000 ≤ i) fun w => (w.wr .A F.VLV_CUR.I ch (satTo 16 i)).vlvFault ch 1

/-- The OPEN condition over 5 ms: the low side on, the current below 100 mA and below 10 % of the target. -/
def execVlvOpenLoad (ch i : Nat) (s : State) : Out :=
  lift s fun w =>
    w.when (w.rd .A F.VLV_STATUS.SRC ch ≠ 0 && i < 100 && (10 * i < w.effTarget ch || (w.eng ch).drive ≠ .current)) fun w =>
      (w.wr .A F.VLV_CUR.I ch i).vlvFault ch 2

/-- The tile junction at 150 °C or above: every channel of the tile faults. -/
def execVlvOvertemp (t : Nat) (temp : Int) (s : State) : Out :=
  lift s fun w =>
    let w := w.wrI .A F.VLV_TILE.HS_T t (clampI (-128) 127 temp)
    w.when (150 ≤ temp) fun w => (w.forAll (tileChans t) fun w c => w.vlvFault c 3).vlvEvent t 7 0xFF 3

/-- Bank current at or above 36.0 A for 2 µs: Hn opened, its four channels off. -/
def execVlvHsShort (bank i : Nat) (s : State) : Out :=
  lift s fun w => w.when (36000 ≤ i) fun w => w.forAll (bankChans bank) fun w c => w.vlvFault c 6

/-- The presence pin of a tile opens: every channel off, the load lock let go. -/
def execTileAbsent (t : Nat) (s : State) : Out :=
  lift s fun w =>
    w.when (w.flag .A F.VLV_TILE.PRESENT t) fun w =>
      let w := (w.wr .A F.VLV_TILE.PRESENT t 0).wr .A F.VLV_TILE.BOOST_OK t 0
      let w := (w.updTile t fun _ => {}).wr .A F.VLV_TILE.LOADING t 0
      let w := (w.forAll (tileChans t) fun w c => w.vlvFault c 7).vlvEvent t 7 0xFF 7
      w.when (w.svc.tile = t + 1) fun w => w.svcState 4 0

/-- A probe at a channel's instant (R212): run on an idle channel of a tile with PROBE_EN whose command is OFF; no continuity sets
fault OPEN. Probes stop on a tile prepared for withdrawal (R469). -/
def execVlvProbe (ch : Nat) (continuity : Bool) (s : State) : Out :=
  lift s fun w =>
    let t := tileOf ch
    let prepared := [Half.A, Half.B].any fun h =>
      w.rd h F.STW_SVC_STAT.STATE = 2 && w.rd h F.STW_SVC_STAT.OP = 2 && w.rd h F.STW_SVC_STAT.TARGET = t
    w.when (w.flag .A F.VLV_CTRL.PROBE_EN t && w.flag .A F.VLV_TILE.PRESENT t && !w.flag .A F.VLV_STATUS.RUN ch &&
        !w.flag .A F.VLV_STATUS.CMD ch && w.rd .A F.VLV_CUR.I ch = 0 && w.rd .A F.VLV_STATUS.FAULT ch = 0 &&
        (w.eng ch).level.isNone && (w.eng ch).gramp.isNone && !prepared) fun w =>
      let w := w.updEng ch fun e => { e with probed := true }
      if continuity then w else w.vlvFault ch 2

/-- The active requesters of a tile's current-sense arbiter (R186). -/
def World.adcActive (w : World) (ch : Nat) : Bool :=
  w.flag .A F.VLV_STATUS.RUN ch || 50 < w.rd .A F.VLV_CUR.I ch || (w.eng ch).level.isSome || (w.eng ch).probed

/-- The count of active requesters of bank `n`. -/
def World.adcBank (w : World) (n : Nat) : Nat := ((bankChans n).filter w.adcActive).length

end Sys2Proof.Machine
end

