-- ==== Sys2Proof/Machine/Recipe.lean ====
section
/-!
DEFINITION. The recipe engine: operand formats (R193), one meaning per recipe instruction (R195) and the ends of its waits
(R192–R204). An instruction's command is the tick at which the engine of the channel executes the word at its program counter; where
that word is not this instruction, or the engine does not run or waits, the command has no occasion and changes nothing.
-/
namespace Sys2Proof.Machine

/-- The word at the program counter of a channel whose engine runs and waits for nothing. -/
def World.word (w : World) (ch : Nat) : Option Nat :=
  let e := w.eng ch
  if w.flag .A F.VLV_STATUS.RUN ch && e.wait = .none && !(e.req.any (·.holds)) && !e.past then
    ((w.recipe ch).map (fun r => r.code[w.rd .A F.VLV_ENG.PC ch]?)).join
  else none

/-- An instruction run on its word, if the word at the program counter has its opcode. -/
def World.instr (w : World) (ch op : Nat) (f : World → Nat → World) : World :=
  match w.word ch with
  | some v => if bitsOf v 27 5 = op then f w v else w
  | none => w

/-- Parameter entry `k` in the band in effect (R193, R201). -/
def World.param (w : World) (ch k : Nat) : Nat :=
  match w.recipe ch with
  | none => 0
  | some r => r.par.getD (16 * w.rd .A F.VLV_STATUS.BAND ch + k % 16) 0

/-- The I_MAX of the recipe a channel runs. -/
def World.iMax (w : World) (ch : Nat) : Nat := ((w.recipe ch).map (·.iMax)).getD 12000

/-- A CUR16 operand, mA (R193, R194). -/
def World.cur16 (w : World) (ch v : Nat) : Nat :=
  match bitsOf v 14 2 with
  | 0 => bitsOf v 0 14
  | 1 => w.param ch (bitsOf v 0 4)
  | 2 => min (w.rd .A F.VLV_SETPOINT.MA ch) (w.iMax ch)
  | _ => (w.eng ch).wk.getD (bitsOf v 0 2) 0

/-- The scaled time of a TIM19 value, ns; 0 lasts one tick (R192, R193). -/
def tim19 (v : Nat) : Nat :=
  max 100 (bitsOf v 0 16 * (match bitsOf v 16 2 with
    | 0 => 100
    | 1 => us
    | 2 => 10 * us
    | _ => ms))

/-- A TIM19 operand, ns. -/
def World.time19 (w : World) (ch v : Nat) : Nat :=
  if bitOf v 18 then tim19 (w.param ch (bitsOf v 0 4) % 2 ^ 18) else tim19 (v % 2 ^ 18)

/-- A time entry, ns. -/
def World.timeEntry (w : World) (ch k : Nat) : Nat := tim19 (w.param ch k % 2 ^ 18)

/-- A DUTY16 operand, 0.1 % units (R193). -/
def World.duty16 (w : World) (ch v : Nat) : Nat :=
  if bitsOf v 14 2 = 0 then bitsOf v 0 10 else w.param ch (bitsOf v 0 4)

/-- The flags KINK, NOKINK and TIMEOUT cleared: the next WAITI, WAITK or SRC has started (R196). -/
def Eng.clearFlags (e : Eng) : Eng := { e with kink := false, nokink := false, timeout := false }

/-- HALT: the channel off with the phase's mode if its source is not NONE; the engine stops. -/
def execHalt (ch : Nat) (s : State) : Out :=
  lift s fun w => w.instr ch 0x00 fun w _ =>
    (w.when (w.rd .A F.VLV_STATUS.SRC ch ≠ 0) fun w => w.turnOff ch (w.rd .A F.VLV_STATUS.TOFF ch)).stopEngine ch

/-- PHASE: a phase boundary; a pending band takes effect (R198, R201); a returning twin in HOLD begins the merge (R210). -/
def execPhase (ch : Nat) (s : State) : Out :=
  lift s fun w => w.instr ch 0x01 fun w v =>
    let w := (w.wr .A F.VLV_STATUS.PHASE ch (bitsOf v 24 3)).wr .A F.VLV_STATUS.TOFF ch (bitsOf v 22 2)
    let w := match (w.eng ch).pend with
      | some k => w.wr .A F.VLV_STATUS.BAND ch k
      | none => w
    let w := w.updEng ch fun e => { e with hold := bitOf v 21, peak := bitOf v 20, pend := none, constAt := if e.hold && bitOf v 21 then e.constAt else max e.constAt w.now }
    (w.when (bitOf v 21) (·.beginMerge ch)).advance ch

/-- SRC: NONE turns the low side off with the phase's mode and leaves the target; BATT is admitted at once; BOOST under R207, as BATT
under the hardware duty limit (R206). -/
def execSrc (ch : Nat) (s : State) : Out :=
  lift s fun w => w.instr ch 0x02 fun w v =>
    let src := bitsOf v 25 2
    let src := if src = 2 && w.flag .A F.VLV_STATUS.DUTY_HW ch then 1 else src
    let w := w.updEng ch Eng.clearFlags
    if src = 0 then
      ((w.turnOff ch (w.rd .A F.VLV_STATUS.TOFF ch)).updEng ch fun e => { e with noneAt := some w.now, level := none, gramp := none }).advance ch
    else if src = 1 then ((w.admitSrc ch 1).wr .A F.VLV_STATUS.DELAYED ch 0).advance ch
    else if w.boostFree ch then ((w.admitSrc ch 2).wr .A F.VLV_STATUS.DELAYED ch 0).advance ch
    else ((w.updEng ch fun e => { e with req := some ⟨true, w.now, true, false⟩ }).wr .A F.VLV_STATUS.DELAYED ch 1).bump
      .A F.VLV_CNT.DELAYS ch

/-- The instruction's target request, then the next word unless the request holds the engine. -/
def World.instrTgt (w : World) (ch want amp : Nat) : World :=
  let w := w.askTgt ch want amp true
  w.when (w.eng ch).req.isNone (·.advance ch)

/-- The set-point flagged where it exceeds I_MAX (R194). -/
def World.flagSp (w : World) (ch v : Nat) : World :=
  w.when (bitsOf v 14 2 = 2) fun w => w.wr .A F.VLV_STATUS.SP_CLAMP ch (b2n (w.iMax ch < w.rd .A F.VLV_SETPOINT.MA ch))

/-- SETI: the current target; with SP it tracks the set-point (R194). -/
def World.seti (w : World) (ch v : Nat) : World :=
  let t := w.cur16 ch v
  let w := (w.flagSp ch v).updEng ch fun e => { e with
    track := bitsOf v 14 2 = 2, ramp := none, drive := if w.rd .A F.VLV_STATUS.SRC ch = 0 then e.drive else .current }
  w.instrTgt ch t (w.eng ch).dith.amp

/-- SETI sets the current target. -/
def execSeti (ch : Nat) (s : State) : Out := lift s fun w => w.instr ch 0x03 fun w v => w.seti ch v

/-- RAMP: the target moves linearly from its present value over the time; 0 acts as SETI. -/
def execRamp (ch : Nat) (s : State) : Out :=
  lift s fun w => w.instr ch 0x04 fun w v =>
    let k := w.param ch (bitsOf v 22 4) % 2 ^ 18
    if bitsOf k 0 16 = 0 then w.seti ch v
    else
      let t := w.cur16 ch v
      let e := w.eng ch
      let cur := match e.ramp with
        | some r => min e.tgt (r.value w.now)
        | none => e.tgt
      let w := (w.flagSp ch v).updEng ch fun e => { e with
        track := bitsOf v 14 2 = 2, ramp := some ⟨cur, t, w.now, tim19 k⟩, tgt := max cur e.tgt
        drive := if w.rd .A F.VLV_STATUS.SRC ch = 0 then e.drive else .current }
      w.instrTgt ch (max cur t) (w.eng ch).dith.amp

/-- WAIT: waits the named time; with BRK it ends at a change of the command level. -/
def execWait (ch : Nat) (s : State) : Out :=
  lift s fun w => w.instr ch 0x05 fun w v =>
    w.updEng ch fun e => { e with wait := .time (w.now + w.time19 ch (bitsOf v 0 19)) (bitOf v 26) (w.flag .A F.VLV_STATUS.CMD ch) }

/-- A WAIT's time has run out or its BRK condition holds. -/
def execWaitEnd (ch : Nat) (s : State) : Out :=
  lift s fun w =>
    match (w.eng ch).wait with
    | .time ends brk cmd =>
      w.when (ends ≤ w.now || (brk && w.flag .A F.VLV_STATUS.CMD ch ≠ cmd)) fun w =>
        (w.updEng ch fun e => { e with wait := .none }).advance ch
    | _ => w

/-- WAITI: waits for the current to cross a threshold, with a timeout. -/
def execWaiti (ch : Nat) (s : State) : Out :=
  lift s fun w => w.instr ch 0x06 fun w v =>
    w.updEng ch fun e => { e.clearFlags with
      wait := .cross (bitOf v 26) (w.cur16 ch (bitsOf v 0 16)) (w.now + w.timeEntry ch (bitsOf v 22 4)) }

/-- A WAITI ends at the crossing (the measured current an operand), or at its timeout with TIMEOUT. -/
def execWaitiEnd (ch i : Nat) (s : State) : Out :=
  lift s fun w =>
    match (w.eng ch).wait with
    | .cross below thr ends =>
      let w := w.wr .A F.VLV_CUR.I ch (satTo 16 i)
      let hit := if below then i ≤ thr else thr ≤ i
      w.when (hit || ends ≤ w.now) fun w => (w.updEng ch fun e => { e with wait := .none, timeout := !hit }).advance ch
    | _ => w

/-- WAITK: waits for a kink in its window (R202, R203). -/
def execWaitk (ch : Nat) (s : State) : Out :=
  lift s fun w => w.instr ch 0x07 fun w v =>
    w.updEng ch fun e => { e.clearFlags with
      wait := .kink (bitOf v 26) w.now (w.now + w.timeEntry ch (bitsOf v 22 4)) (w.now + w.timeEntry ch (bitsOf v 18 4))
        (w.param ch (bitsOf v 14 4)) }

/-- The wait for a kink of a kind ended by the kink at instant `k`, with its report; the engine goes on. -/
def World.kinkFound (w : World) (ch k : Nat) (close : Bool) : World :=
  match (w.eng ch).wait with
  | .kink c start opens closes _ =>
    w.when (c = close && opens ≤ k && k ≤ closes && k ≤ w.now) fun w =>
      let e := w.eng ch
      let w := w.updEng ch fun e => { e with wait := .none, kink := true, relOn := false }
      (w.travelReport ch close false (travelT (e.reference close start) k)).when (w.flag .A F.VLV_STATUS.RUN ch) (·.advance ch)
  | _ => w

/-- A pull-in dip confirmed, with the instant of its minimum (R202). -/
def execPullKinkConfirm (ch k : Nat) (s : State) : Out := lift s fun w => w.kinkFound ch k false

/-- A closing kink found, with its instant (R203). -/
def execCloseKinkDetect (ch k : Nat) (s : State) : Out := lift s fun w => w.kinkFound ch k true

/-- A WAITK window closes without a kink (R204). -/
def execKinkWindowClose (ch : Nat) (s : State) : Out :=
  lift s fun w =>
    match (w.eng ch).wait with
    | .kink close start _ closes _ =>
      w.when (closes ≤ w.now) fun w =>
        let e := w.eng ch
        let w := w.updEng ch fun e => { e with wait := .none, nokink := true, relOn := false }
        (w.travelReport ch close true (travelT (e.reference close start) closes)).when (w.flag .A F.VLV_STATUS.RUN ch) (·.advance ch)
    | _ => w

/-- DITH: dither on the target; the dither in force goes on without a phase step (R197). -/
def execDith (ch : Nat) (s : State) : Out :=
  lift s fun w => w.instr ch 0x08 fun w v =>
    let shape := bitsOf v 25 2
    let amp := if shape = 0 then 0 else w.param ch (bitsOf v 20 4)
    let freq := if shape = 0 then 0 else w.param ch (bitsOf v 16 4)
    let same := (w.eng ch).dith.shape = shape && (w.eng ch).wantAmp = amp && (w.eng ch).dith.freq = freq
    let w := w.updEng ch fun e => { e with
      dith := { e.dith with shape := shape, freq := freq, start := if same then e.dith.start else w.now } }
    w.instrTgt ch (w.eng ch).want amp

/-- PWMV: the low side at a fixed duty; no current regulation, no dither (R197). -/
def execPwmv (ch : Nat) (s : State) : Out :=
  lift s fun w => w.instr ch 0x09 fun w v =>
    let d := w.duty16 ch (bitsOf v 0 16)
    let f := if d = 0 || d = 1000 then 0 else w.param ch (bitsOf v 23 4)
    (w.updEng ch fun e => { e with drive := .pwm f d, dith := {}, wantAmp := 0 }).advance ch

/-- The program counter of a channel set. -/
def World.jump (w : World) (ch v : Nat) : World := w.wr .A F.VLV_ENG.PC ch (bitsOf v 0 11)

/-- JMP jumps. -/
def execJmp (ch : Nat) (s : State) : Out := lift s fun w => w.instr ch 0x0A fun w v => w.jump ch v

/-- The conditions of JC (R196). -/
def World.cond (w : World) (ch c : Nat) : Bool :=
  let e := w.eng ch
  match c with
  | 0 => e.kink
  | 1 => e.nokink
  | 2 => e.timeout
  | 3 => w.rd .A F.VLV_STATUS.BAND ch = 0
  | 4 => w.rd .A F.VLV_STATUS.BAND ch = 1
  | 5 => w.rd .A F.VLV_STATUS.BAND ch = 2
  | 6 => w.rd .A F.VLV_STATUS.BAND ch = 3
  | 7 => w.flag .A F.VLV_STATUS.CMD ch
  | 8 => !w.flag .A F.VLV_STATUS.CMD ch
  | 9 => w.flag .A F.VLV_STATUS.DUTY_LIM ch
  | _ => false

/-- JC jumps if its condition, inverted by NEG, is true. -/
def execJc (ch : Nat) (s : State) : Out :=
  lift s fun w => w.instr ch 0x0B fun w v =>
    if (w.cond ch (bitsOf v 23 4)) != (bitOf v 22) then w.jump ch v else w.advance ch

/-- LOOP arms a counter, decrements it and jumps while it is nonzero (R196). -/
def execLoop (ch : Nat) (s : State) : Out :=
  lift s fun w => w.instr ch 0x0C fun w v =>
    let c := bitsOf v 26 1
    let n := (((w.eng ch).ctr.getD c none).getD (bitsOf v 16 10)) - 1
    let w := w.updEng ch fun e => { e with ctr := listSet e.ctr c (if n = 0 then none else some n) }
    if n = 0 then w.advance ch else w.jump ch v

/-- EVT writes its code to LAST_EVT and raises EVT_VLV_RECIPE. -/
def execEvt (ch : Nat) (s : State) : Out :=
  lift s fun w => w.instr ch 0x0D fun w v =>
    ((w.wr .A F.VLV_ENG.LAST_EVT ch (bitsOf v 0 8)).vlvEvent (tileOf ch) 6 ch (bitsOf v 0 8)).advance ch

/-- OFF: source NONE, target 0, off with the mode (3: the phase's). -/
def execOff (ch : Nat) (s : State) : Out :=
  lift s fun w => w.instr ch 0x0E fun w v =>
    let m := bitsOf v 25 2
    let w := w.turnOff ch (if m = 3 then w.rd .A F.VLV_STATUS.TOFF ch else m)
    (w.updEng ch fun e => { e with
      noneAt := some w.now, want := 0, wantAmp := 0, tgt := 0, track := false, ramp := none, dith := {}, level := none, gramp := none,
      constAt := w.now }).advance ch

/-- LDP loads a working register from an operand or a measurement (the mean current in mA, the mean coil voltage in 10 mV). -/
def execLdp (ch i : Nat) (v : Int) (s : State) : Out :=
  lift s fun w => w.instr ch 0x0F fun w x =>
    let val := match bitsOf x 25 2 with
      | 1 => i
      | 2 => toTwos 16 v
      | _ => w.cur16 ch (bitsOf x 0 16)
    (w.updEng ch fun e => { e with wk := listSet e.wk (bitsOf x 16 2) val }).advance ch

/-- MEAS snapshots the mean current and the coil voltage of the last 10 µs. -/
def execMeas (ch i : Nat) (v : Int) (s : State) : Out :=
  lift s fun w => w.instr ch 0x10 fun w _ =>
    (((w.wr .A F.VLV_MEAS.I ch (satTo 16 i)).wrI .A F.VLV_MEAS.V ch (clampI (-32768) 32767 v)).wr .A F.VLV_CUR.I ch (satTo 16 i)).advance ch

/-- A parity error (an operand: recipe memory reported it), a reserved opcode, or execution past the last word (R195, R211). -/
def execRecipeIllegal (ch : Nat) (parity : Bool) (s : State) : Out :=
  lift s fun w =>
    let e := w.eng ch
    w.when (w.flag .A F.VLV_STATUS.RUN ch && (parity || (e.wait = .none && !(e.req.any (·.holds)) &&
        (match w.word ch with
          | none => true
          | some v => 0x11 ≤ bitsOf v 27 5)))) fun w => w.vlvFault ch 4

end Sys2Proof.Machine
end

