-- ==== Sys2Proof/Machine/LedgerMem.lean ====
section
/-!
DEFINITION. The Ledger's memory: its layout, and what a consumer reads of an entry (R516, R517).
-/
namespace Sys2Proof.Machine

/-- The first slot of an entry type (R516). -/
def slotBase : Nat → Nat
  | 1 => 0x1000
  | 2 => 0x2800
  | 3 => 0x4800
  | 4 => 0x5800
  | 5 => 0x5880
  | 6 => 0x58C0
  | 7 => 0x5AC0
  | 8 => 0x5B40
  | _ => 0x5D40

/-- The number of entries of a type. -/
def slotCount : Nat → Nat
  | 1 => 96
  | 2 => 128
  | 3 => 64
  | 4 => 2
  | 5 => 1
  | 6 => 8
  | 7 => 2
  | 8 => 8
  | 9 => 6
  | _ => 0

/-- The payload length of a type. -/
def slotLen : Nat → Nat
  | 1 => 12
  | 2 => 40
  | 3 => 4
  | 4 => 48
  | 5 => 12
  | 6 => 24
  | 7 => 12
  | 8 => 24
  | 9 => 16
  | _ => 0

/-- The address of slot `k` of a type. -/
def slotAddr (ty k : Nat) : Nat := slotBase ty + 64 * k

/-- An f32 field within a range (a number, no infinity, no NaN). -/
def f32In (bs : List Byte) (i : Nat) (lo hi : Rat) : Bool :=
  f32Finite (u32At bs i) && f32Bound lo ≤ f32At bs i && f32At bs i ≤ f32Bound hi

/-- Every f32 of a payload is a number. -/
def f32sFinite (bs : List Byte) (n : Nat) : Bool := (List.range n).all (fun k => f32Finite (u32At bs (4 * k)))

/-- A payload within the ranges of the table of entry types (R516); of YLD within those of R290. -/
def payloadOk (ty : Nat) (bs : List Byte) : Bool :=
  bs.length = slotLen ty &&
    match ty with
    | 1 => f32In bs 0 (90 / 100) (110 / 100) && f32In bs 4 (-200) 200 && f32In bs 8 (95 / 100) (105 / 100)
    | 2 => (List.range 5).all (fun k => f32In bs (8 * k) (95 / 100) (105 / 100) && f32Finite (u32At bs (8 * k + 4)))
    | 3 => 200 ≤ u16At bs 0 && u16At bs 0 ≤ 20000 && u16At bs 2 = 0
    | 4 => f32sFinite bs 12
    | 5 => f32In bs 0 (1 / 2) 4 && f32sFinite bs 3
    | 6 => f32sFinite bs 6
    | 7 => (List.range 3).all (fun k => f32In bs (4 * k) (-1 / 10) (1 / 10))
    | 8 => (List.range 8).all (fun k => 8000 ≤ u16At bs (2 * k) && u16At bs (2 * k) ≤ 12500) && u16At bs 18 = 0
    | 9 => bs.all (fun b => 0x20 ≤ b.toNat && b.toNat < 0x7F || b = 0)
    | _ => false

/-- The payload of an entry that is valid (R517): VALID set, the CRC correct, every field in range. -/
def ledgerEntry (m : Memory) (ty k : Nat) : Option (List Byte) :=
  let a := slotAddr ty k
  let hd := m.readN a 16
  let pl := m.readN (a + 16) (slotLen ty)
  if byteAt hd 0 = ty && byteAt hd 1 = k && u16At hd 2 = slotLen ty && bitOf (byteAt hd 5) 0 &&
      u32At hd 12 = crc32c (hd.take 12 ++ pl) && payloadOk ty pl then some pl
  else none

end Sys2Proof.Machine
end

