-- ==== Sys2Proof/Machine/Grind.lean ====
section
/-!
DEFINITION. Perception ingest, projection, the feature engine, the Grind and its products, and the grades (R297–R333).
-/
namespace Sys2Proof.Machine

/-- The Grind state of a half changed. -/
def World.updGrind (w : World) (h : Half) (f : Grind → Grind) : World := { w with grd := w.grd.upd h f }

/-- The GRIN section a half has loaded (an empty one before Bloom). -/
def World.grin (w : World) (h : Half) : GrinSec := (w.grd.get h).sec.getD {}

/-- A port entry. -/
def GrinSec.port (g : GrinSec) (p : Nat) : GPort := g.ports.getD p {}

/-- Port `p` is of half `h`'s plane (R297). -/
def ownPlane (h : Half) (p : Nat) : Bool := p < 8 && p % 2 = h.code

/-- What ingest keeps of a port. -/
def World.portSt (w : World) (h : Half) (p : Nat) : PortSt := NMap.get {} (w.grd.get h).port p

/-- What ingest keeps of a port, changed. -/
def World.updPort (w : World) (h : Half) (p : Nat) (f : PortSt → PortSt) : World :=
  w.updGrind h fun g => { g with port := NMap.upd {} g.port p f }

/-- The load result of model `m` in a half (R319). -/
def World.mres (w : World) (h : Half) (m : Nat) : Nat := bitsOf (w.reg h F.FEA_MRES.RES (m / 8)).toNat (4 * (m % 8)) 4

/-- The load result set. -/
def World.setMres (w : World) (h : Half) (m v : Nat) : World :=
  w.setReg h F.FEA_MRES.RES (m / 8) ((w.reg h F.FEA_MRES.RES (m / 8)).setField (4 * (m % 8)) 4 v)

/-- A model failed to load (R319). -/
def World.modelFailed (w : World) (h : Half) (m : Nat) : Bool := 1 ≤ w.mres h m && w.mres h m ≤ 5

/-- A port of the half's own plane is usable (R303, R319). -/
def World.portUsable (w : World) (h : Half) (p : Nat) : Bool :=
  let e := (w.grin h).port p
  w.rd h F.PRJ_PORT.STATE p = 1 && !w.modelFailed h e.enc && !w.modelFailed h e.health

/-- A port of either plane is usable by half `h` (R298): one of the sibling's where its status frame reports it so. -/
def World.portAvail (w : World) (h : Half) (p : Nat) : Bool :=
  if ownPlane h p then w.portUsable h p
  else match (w.grd.get h).sibPorts with
    | some l =>
      let e := (w.grin h).port p
      let bad (m : Nat) : Bool := let r := (w.grd.get h).sibMres.getD m 0; 1 ≤ r && r ≤ 5
      l.getD p 0 = 1 && !bad e.enc && !bad e.health
    | none => false

/-- The ports of a role available to a half. -/
def World.availRole (w : World) (h : Half) (role : Nat) : List Nat :=
  (List.range 8).filter (fun p => ((w.grin h).port p).role = role && w.portAvail h p)

/-- The sectors covered by usable forward cameras (R298). -/
def World.cover (w : World) (h : Half) : Nat :=
  (w.availRole h 1).foldl (fun a p => a ||| ((w.grin h).port p).sectors) 0

/-! Ingest (R300–R308, R432). -/

/-- The Grind period in force (R304), ns. -/
def World.period (w : World) (h : Half) : Nat := if w.rd h F.GRD_STATUS.RATE = 1 then 80 * ms else 40 * ms

/-- The instant of the window that holds a stamp (R304, R307). -/
def windowOf (period t : Nat) : Nat := t / period * period + period

/-- A drop under R300 (with `bad`) or R302, counted. -/
def World.dropSample (w : World) (h : Half) (p : Nat) (bad : Bool) : World :=
  let now := w.mt h
  (w.bump h F.PRJ_PORT.DROP p).updPort h p fun s =>
    if bad then { s with drops := now :: s.drops.filter (fun t => now < t + sec) }
    else { s with syncs := (now, false) :: s.syncs.filter (fun x => now < x.1 + sec) }

/-- The payload bytes the header implies (R300, R301). -/
def payloadLen (e : GPort) (kind aux : Nat) : Nat :=
  if kind = 1 then e.width * e.height * 3 / 2 else if kind = 2 then 16 * aux else 52

/-- A sample's header is accepted by ingest (R300): its CRC, its KIND against the role, its LEN. -/
def headerOk (e : GPort) (bs : List Byte) : Bool :=
  let kind := byteAt bs 2
  32 ≤ bs.length && byteAt bs 0 = 0x53 && byteAt bs 1 = 0x58 && u32At bs 28 = crc32c (bs.take 28) &&
    (((e.role = 1 || e.role = 2) && (kind = 1 || kind = 3)) || (e.role = 3 && kind = 2)) &&
    u32At bs 24 = payloadLen e kind (u16At bs 22) && bs.length = 32 + u32At bs 24

/-- The stamps of a sample: a frame's own; each point's of a block (R301). -/
def sampleStamps (bs : List Byte) : List Nat :=
  let t := u64At bs 8
  if byteAt bs 2 = 2 then (List.range (u16At bs 22)).map (fun i => t + 1000 * u16At bs (32 + 16 * i + 12)) else [t]

/-- The uncertainty interval of a stamp contains a window boundary (R307). -/
def straddles (period unc t : Nat) : Bool := (t - unc + period - 1) / period * period ≤ t + unc

/-- A late stamp: passed to the late path, or discarded (R311). -/
def World.lateSample (w : World) (h : Half) (t : Nat) : World :=
  if w.mt h ≤ t + 200 * ms then (w.bump h F.GRD_LATE.LO).updGrind h fun g => { g with late := g.late ++ [t] }
  else w.bump h F.GRD_LATE.HI

/-- The stamps of a frame or block taken into their windows or sent to the late path (R305, R307, R311). -/
def World.takeStamps (w : World) (h : Half) (p unc : Nat) (ts : List Nat) : World :=
  let per := w.period h
  let w := w.forAll (ts.filter (straddles per unc)) fun w _ => w.bump h F.GRD_XTRAP.HI
  let late (t : Nat) : Bool := windowOf per t + 30 * ms ≤ w.mt h
  let w := w.forAll (ts.filter late) fun w t => w.lateSample h t
  let ok := ts.filter (fun t => !late t)
  let tgs := (ok.map (windowOf per)).dedup
  w.updGrind h fun g => { g with gather := g.gather ++ tgs.map (fun tg => ⟨p, tg, ok.filter (fun t => windowOf per t = tg)⟩) }

/-- An accepted sample: the port's counts and clocks (R300, R303). -/
def World.acceptSample (w : World) (h : Half) (p : Nat) (bs : List Byte) : World :=
  let now := w.mt h
  let kind := byteAt bs 2
  let seq := u32At bs 4
  let gap := match (w.portSt h p).lastSeq with
    | some l => (seq + 2 ^ 33 - l - 1) % 2 ^ 32
    | none => 0
  let w := w.when (kind ≠ 3) fun w => w.wr h F.PRJ_PORT.SEQ_GAP p (satTo 8 (w.rd h F.PRJ_PORT.SEQ_GAP p + gap))
  w.updPort h p fun s => { s with
    lastSeq := if kind = 3 then s.lastSeq else some seq
    lastOk := now
    syncs := (now, true) :: s.syncs.filter (fun x => now < x.1 + sec)
    frameAt := if kind = 1 && s.frameAt.isNone then some now else s.frameAt
    intrAt := if kind = 3 then some now else s.intrAt
    serial := if kind = 3 then slice bs 68 16 else s.serial }

/-- A complete sample of a port (R300–R307, R311). GRAIN_CAM frames do not enter the Grind (R305). -/
def World.sample (w : World) (h : Half) (p : Nat) (bs : List Byte) : World :=
  let e := (w.grin h).port p
  if !ownPlane h p || e.role = 0 then w
  else if !headerOk e bs then w.dropSample h p true
  else if !bitOf (byteAt bs 3) 0 || 100 < u16At bs 20 then w.dropSample h p false
  else
    let w := w.acceptSample h p bs
    if byteAt bs 2 = 3 || e.role = 2 then w else w.takeStamps h p (10 * u16At bs 20) (sampleStamps bs)

/-- The segments of a sample cover it without gap or overlap: its bytes, from offset `a` on. -/
def joinSegs (segs : List (Nat × List Byte)) (a : Nat) : Option (List Byte) :=
  match sortBy (fun x y => decide (x.1 ≤ y.1)) segs with
  | l => l.foldl (fun acc x => match acc with
      | some b => if x.1 = a + b.length then some (b ++ x.2) else none
      | none => none) (some [])

/-- A sample's assembly is complete: its bytes. -/
def Asm.whole (a : Asm) : Option (List Byte) :=
  match a.len, joinSegs a.segs 0 with
  | some n, some b => if b.length = n then some b else none
  | _, _ => none

/-- A segment frame: the header's SEQ, OFFSET, LEN and FLAGS, and the data (R432). -/
def execSensorSegment (h : Half) (p seq ofs flags : Nat) (data : List Byte) (s : State) : Out := lift s fun w =>
  let n := data.length
  if !ownPlane h p || n = 0 || 8960 < n || (n % 64 ≠ 0 && !bitOf flags 0) then w
  else
    let g := w.grd.get h
    let same (x : Asm) : Bool := x.port = p && x.seq = seq
    let a := (g.asm.find? same).getD { port := p, seq := seq, start := w.mt h }
    let a := { a with segs := a.segs ++ [(ofs, data)], len := if bitOf flags 0 then some (ofs + n) else a.len }
    let rest := g.asm.filter (fun x => !same x)
    match a.whole with
    | some bs => (w.updGrind h fun g => { g with asm := rest }).sample h p bs
    | none => w.updGrind h fun g => { g with asm := rest ++ [a] }

/-- 10 ms after the first segment a sample that is not covered is dropped and counted (R432). -/
def execSampleReassemblyTimeout (h : Half) (p seq : Nat) (s : State) : Out := lift s fun w =>
  let same (x : Asm) : Bool := x.port = p && x.seq = seq
  w.when ((w.grd.get h).asm.any same) fun w =>
    (w.updGrind h fun g => { g with asm := g.asm.filter (fun x => !same x) }).dropSample h p true

/-- A complete sample on a port of the half's plane (R300). -/
def execSensorSample (h : Half) (p : Nat) (bs : List Byte) (s : State) : Out := lift s fun w => w.sample h p bs

/-! Port states (R303). -/

/-- The condition of a port that governs (R303); `blind`: the health model's verdict. -/
def World.portCond (w : World) (led : Memory) (h : Half) (p : Nat) (blind : Bool) : Nat :=
  let e := (w.grin h).port p
  let x := w.portSt h p
  let now := w.mt h
  let cam := e.role = 1 || e.role = 2
  let noIntr := match x.frameAt, x.intrAt with
    | some f, none => f + 2 * sec ≤ now
    | _, _ => false
  let badSerial := x.intrAt.isSome && !allZero e.serial && x.serial ≠ e.serial
  if e.role = 0 then 0
  else if 10 < (x.drops.filter (fun t => now < t + sec)).length then 6
  else if (ledgerEntry led 6 p).isNone || (cam && (noIntr || badSerial)) then 4
  else
    let l := x.syncs.filter (fun y => now < y.1 + sec)
    if !l.isEmpty && l.all (fun y => !y.2) then 3
    else if x.lastOk + e.silentMs * ms ≤ now then 2
    else if blind then 5
    else 1

/-- A port's state set, with its event. -/
def World.setPort (w : World) (h : Half) (p st : Nat) : World :=
  if w.rd h F.PRJ_PORT.STATE p = st then w
  else (w.wr h F.PRJ_PORT.STATE p st).raise h 226 (evArg p 0xFF st)

/-- A port condition has held, or every one has been absent for 2 s: the port takes the state that governs now (R303). -/
def execPortStateTimer (h : Half) (p : Nat) (blind : Bool) (s : State) : Out := lift s fun w =>
  if ownPlane h p then w.setPort h p (w.portCond s.ledger h p blind) else w

/-! Grades (R326, R327). -/

/-- The half cannot run its Grind jobs (R316, R326): fewer than two usable slices, no usable projection island, or a unit off. -/
def World.cannotGrind (w : World) (h : Half) : Bool :=
  let n := ((List.range 8).filter (bitOf (w.rd h F.FEA_STATUS.SLICES))).length
  n < 2 || w.rd h F.PRJ_STATUS.GATED = 3 || (w.run.get h).pwrGated.contains 29 || (w.inService h && (w.rd h F.PRJ_CTRL.EN = 0 || w.rd h F.FEA_CTRL.EN = 0))

/-- The grade whose condition holds (R326). -/
def World.condGrade (w : World) (h : Half) : Nat :=
  let g := w.grd.get h
  let full := w.cover h = 0xFF
  let lidar := !(w.availRole h 3).isEmpty
  if w.rd h F.GRD_STATUS.POSE_OK = 0 then 0
  else if (!full && !lidar) || w.cannotGrind h || 3 ≤ g.unpub then 1
  else if !full || (w.availRole h 2).isEmpty then 2
  else if g.missing || (List.range 8).any (fun p => ((w.grin h).port p).role ≠ 0 && !w.portAvail h p) then 3
  else 4

/-- The grade set in its registers, with its event (R326, R327, R589). -/
def World.setGrade (w : World) (h : Half) (n : Nat) : World :=
  let old := w.rd h F.GRD_STATUS.GRADE
  if n = old then w
  else ((w.wr h F.GRD_STATUS.GRADE 0 n).wr h F.SET_STATUS.GRADE 0 n).raise h 224 (evArg 0xFFFF n old)

/-- BLIND (R346): no obstacle detection at all; a STOP in force when it begins is kept for 2 s. -/
def World.checkBlind (w : World) (h : Half) : World :=
  let blind := w.flag h F.GRD_STATUS.NO_OBST || w.rd h F.GRD_STATUS.GRADE ≤ 1
  let was := w.flag h F.TRK_STOP.BLIND
  let w := w.wr h F.TRK_STOP.BLIND 0 (b2n blind)
  if blind && !was then
    let cls (mask : Nat) : List Nat := (List.range 8).filter (bitOf mask)
    let keep (k lvl mask : Nat) : List Held := if lvl = 2 then (cls mask).map (fun c => ⟨k, c, w.mt h + 2 * sec⟩) else []
    let hd := keep 0 (w.rd h F.TRK_STOP.DRIVE) (w.rd h F.TRK_STOP.CLASS_D) ++
      keep 1 (w.rd h F.TRK_STOP.HEADER) (w.rd h F.TRK_STOP.CLASS_H)
    let w := { w with trk := w.trk.upd h fun t => { t with held := t.held ++ hd } }
    w.when (!hd.isEmpty) fun w => w.wr h F.TRK_STOP.HOLD 0 1
  else w

/-- The grade evaluated (R326, R327): a lower one at once; the clocks of the higher ones. -/
def World.evalGrade (w : World) (h : Half) : World :=
  let c := w.condGrade h
  let now := w.mt h
  let at_ (g : Grind) (i : Nat) : Option Nat := if i + 1 ≤ c then some ((g.since.getD i none).getD now) else none
  let w := w.updGrind h fun g => { g with since := (List.range 4).map (at_ g) }
  (w.when (c < w.rd h F.GRD_STATUS.GRADE) fun w => w.setGrade h c).checkBlind h

/-- The fused pose loses trust: G0 at once (R326). Its return is seen at the Grind instants. -/
def World.poseTrust (w : World) (h : Half) (ok : Bool) : World :=
  let w := w.wr h F.GRD_STATUS.POSE_OK 0 (b2n ok)
  if ok then w else w.evalGrade h

/-- A higher grade's condition has held at every instant for 2 s (R327). -/
def execGradeRise (h : Half) (s : State) : Out := lift s fun w =>
  let now := w.mt h
  let g := w.grd.get h
  let held (i : Nat) : Bool := match g.since.getD i none with
    | some t => t + 2 * sec ≤ now
    | none => false
  let best := (List.range 4).foldl (fun a i => if held i then i + 1 else a) 0
  (w.when (w.rd h F.GRD_STATUS.GRADE < best) fun w => w.setGrade h best).checkBlind h

/-! The cycle (R304–R311, R320–R322). -/

/-- A cycle abandoned (R309): counted, reported, its products not published. -/
def World.abandon (w : World) (h : Half) (tg : Nat) : World :=
  ((w.updGrind h fun g => { g with cycles := g.cycles.filter (fun c => c.tg ≠ tg) }).bump h F.GRD_MISS.LO).raise h 225
    (evArg 0xFFFF 0xFF 0)

/-- The Grind whose window contains a step of module time is not published, and samples stamped before the step are discarded
(R308). `t` is the instant of the step in the time before it. -/
def World.grindStep (w : World) (h : Half) (t : Nat) : World :=
  let hit (c : Cycle) : Bool := c.tg - c.period ≤ t && t < c.tg
  let n := if (w.grd.get h).sec.isSome then 1 else 0
  let w := w.forAll (List.replicate n 0) fun w _ => w.bump h F.GRD_MISS.LO
  w.updGrind h fun g => { g with cycles := g.cycles.filter (fun c => !hit c), gather := [] }

/-- Late-path jobs of samples aged past 200 ms that the engine did not run (FEA_CNT.L_DROP): no late model is loaded, or the engine
is off. -/
def World.ageLate (w : World) (h : Half) : World :=
  let now := w.mt h
  let g := w.grd.get h
  let late := (w.grin h).models.zipIdx.filter (fun x => x.1.kind = 7)
  let runs := late.any (fun x => w.mres h x.2 = 0) && !(w.inService h && w.rd h F.FEA_CTRL.EN = 0)
  let old := g.late.filter (fun t => t + 200 * ms < now)
  let w := w.updGrind h fun g => { g with late := g.late.filter (fun t => now ≤ t + 200 * ms) }
  if runs then w else w.forAll old fun w _ => w.bump h F.FEA_CNT.L_DROP

/-- A Grind instant (R304): the window that ends now is closed, its Grind begins if the half can run its jobs, and the grade is
evaluated (R326). Pipeline faults of the last Grind are forgotten. -/
def execGrindInstant (h : Half) (s : State) : Out := lift s fun w =>
  if (w.grd.get h).sec.isNone then w
  else
    let per := w.period h
    let tg := w.mt h / per * per
    let w := w.ageLate h
    let w := w.wr h F.PRJ_STATUS.FAULT 0 0
    let w := w.updGrind h fun g => { g with
      unpub := g.unpub + 1
      cycles := if w.cannotGrind h || g.cycles.any (fun c => c.tg = tg) then g.cycles else g.cycles ++ [{ tg := tg, period := per }] }
    (w.wr h F.GRD_STATUS.COVER 0 (w.cover h)).evalGrade h

/-- A stamp is projected into the Grind at `tg` (R306). -/
def World.projects (w : World) (h : Half) (tg t : Nat) : Bool :=
  match w.pose.get h with
  | some p => tg ≤ t + 60 * ms && tg ≤ p.t + 60 * ms
  | none => false

/-- Bytes written in a sparse grid. -/
def putCells (m : Memory) (l : List (Nat × Nat)) : Memory := l.foldl (fun m x => m.write x.1 (BitVec.ofNat 8 x.2)) m

/-- The gather of the oldest open cycle closes (R305, R306): the newest frame of each forward camera and the lidar points of its
window are projected, the rest counted; the encoders' features of the plane (`feats`: offset and code of each nonzero one, R299) are
complete and go to the sibling in a status frame and 3600 chunks (R320). `rate`: points projected, Mpoints/s; `meas`, `fill`: the
ground model's blocks (R314); `load`: the classes' shares G, Q, L, S (FEA_LOAD). -/
def execGatherClose (h : Half) (feats : List (Nat × Nat)) (rate meas fill : Nat) (load : List Nat) (s : State) : Out := lift s fun w =>
  match (w.grd.get h).cycles.find? (fun c => !c.closed) with
  | none => w
  | some c =>
    let g := w.grd.get h
    let here := g.gather.filter (fun x => x.tg = c.tg)
    let newest (x : Sample) : Bool := ((w.grin h).port x.port).role ≠ 1 ||
      here.all (fun y => y.port ≠ x.port || y.stamps.headD 0 ≤ x.stamps.headD 0)
    let gone := ((here.filter newest).flatMap (·.stamps)).filter (fun t => !w.projects h c.tg t)
    let w := w.forAll gone fun w _ => w.bump h F.GRD_XTRAP.LO
    let sq := (NMap.get 0 (w.xng.get h).seqTx 5) % 65536
    let w := { w with xng := w.xng.upd h fun x => { x with seqTx := NMap.set 0 x.seqTx 5 ((sq + 3601) % 65536) } }
    let c' := { c with closed := true, seq := sq, own := putCells [] feats }
    let w := w.updGrind h fun g => { g with
      gather := g.gather.filter (fun x => c.tg < x.tg)
      cycles := g.cycles.map (fun x => if x.tg = c.tg then c' else x) }
    let w := ((w.wr h F.PRJ_RATE.RATE 0 rate).wr h F.PRJ_RATE.PEAK 0 (max rate (w.rd h F.PRJ_RATE.PEAK))).wr h F.PRJ_STATUS.ACTIVE 0
      ((if bitOf (w.rd h F.PRJ_STATUS.GATED) 0 then 0 else 0x0F) + (if bitOf (w.rd h F.PRJ_STATUS.GATED) 1 then 0 else 0xF0))
    let w := (w.wr h F.PRJ_GROUND.MEASURED 0 meas).wr h F.PRJ_GROUND.FILLED 0 fill
    (((w.wr h F.FEA_LOAD.G 0 (load.getD 0 0)).wr h F.FEA_LOAD.Q 0 (load.getD 1 0)).wr h F.FEA_LOAD.L 0 (load.getD 2 0)).wr
      h F.FEA_LOAD.S 0 (load.getD 3 0)

/-- The sibling's cycle that a FEA frame's sequence number belongs to, and the frame's place in it: 0 the status frame, 1 + k chunk k. -/
def World.feaFrame (w : World) (h : Half) (seq : Nat) : Option (Cycle × Nat) :=
  let l := (w.grd.get h.other).cycles.filter (fun c => c.closed && (seq + 65536 - c.seq) % 65536 ≤ 3600)
  (l.getLast?).map (fun c => (c, (seq + 65536 - c.seq) % 65536))

/-- A FEA frame of the sibling's plane received (R320): the status frame gives the ports' states and the models' results; a chunk its
128 cells. Frames of a cycle that is no longer pending are discarded (R322). -/
def execFeatureChunkReceived (h : Half) (seq : Nat) (s : State) : Out := lift s fun w =>
  match w.feaFrame h seq with
  | none => w
  | some (c, k) =>
    let take (x : Cycle) : Cycle :=
      if x.tg ≠ c.tg then x
      else if k = 0 then
        { x with sibSeq := some seq, sibPorts := (List.range 8).map (fun p => w.rd h.other F.PRJ_PORT.STATE p)
                 sibMres := (List.range 16).map (fun m => w.mres h.other m) }
      else if x.got.contains (k - 1) then x
      else { x with got := (k - 1) :: x.got
                    sib := (c.own.filter (fun y => y.1 / 8192 = k - 1)).foldl (fun m y => m.write y.1 y.2) x.sib }
    w.updGrind h fun g => { g with cycles := g.cycles.map take }

/-- The sibling's plane is missing from a cycle (R322). -/
def World.planeMissing (w : World) (own : Own) (h : Half) (c : Cycle) : Bool :=
  c.sibSeq.isNone || c.got.length < 3600 || !own.alive h.other || w.rd h F.XNG_STATUS.UP = 0

/-- Rounding to the nearest code, ties upward (R321). -/
def nearestUp (n d : Nat) : Nat := (2 * n + d) / (2 * d)

/-- One cell's channel fused (R321). -/
def fuse (e : GChan) (a b ca cb : Nat) : Nat :=
  match e.rule with
  | 1 => max a b
  | 2 => min a b
  | _ => if ca + cb = 0 then 0 else nearestUp (a * ca + b * cb) (ca + cb)

/-- The offsets at which either grid holds a nonzero code. -/
def gridKeys (a b : Memory) : List Nat := ((a.map (·.1)) ++ (b.map (·.1))).dedup

/-- Two planes fused (R321), or the present one alone (R322). -/
def fusePlanes (g : GrinSec) (a b : Memory) (missing : Bool) : Memory :=
  if missing then a
  else (gridKeys a b).foldl (fun m k =>
    let e := g.chans.getD (k % 64) {}
    let cf := k / 64 * 64 + e.conf
    m.write k (BitVec.ofNat 8 (fuse e (a.read k).toNat (b.read k).toNat (a.read cf).toNat (b.read cf).toNat))) []

/-- The bytes of one Grind with 32 BIOMASS profiles of 800 entries behind it: the step between the three buffers of R310. -/
def bufStep : Nat := 29491200 + 32 * 1600

/-- A memory with a region's range [a, a + n) emptied. -/
def clearRange (m : Memory) (a n : Nat) : Memory := m.filter (fun x => x.1 < a || a + n ≤ x.1)

/-- The Grind written in the next buffer of the ring (R310): the grid, then the BIOMASS profiles in product order (GRD_BUF). -/
def World.putGrid (w : World) (h : Half) (grid : Memory) (profs : List (List Nat)) : World :=
  let b := ((w.grd.get h).buf + 1) % 3
  let base := b * bufStep
  let m := clearRange (w.dram.get h) (region 4 base) bufStep
  let m := grid.foldl (fun m x => m.write (region 4 (base + x.1)) x.2) m
  let m := m.writeN (region 4 (base + 29491200)) (profs.flatMap (fun p => (p.take 800).flatMap (leBytes · 2)))
  ({ w with dram := w.dram.set h m }.updGrind h fun g => { g with buf := b }).wr h F.GRD_BUF.ADDR 0 base

/-- The mean of the last GQ_AVG analyses, and whether half of them are fresh (R325). -/
def World.grainMean (w : World) (h : Half) (f : Grain → Rat) : Option (Rat × Bool) :=
  let g := w.grin h
  let ok (x : Grain) : Bool := if x.sib then (w.availRole h 2).contains x.port else w.portUsable h x.port
  let l := ((w.grd.get h).grain.filter ok).take g.gqAvg
  let fresh := l.filter (fun x => decide (w.mt h ≤ x.at_ + g.gqAvg * sec / g.gqRate))
  if l.isEmpty then none else some (sumR (l.map f) / ((l.length : Nat) : Rat), l.length ≤ 2 * fresh.length)

/-- A product's value and quality at a publication (R323, R325); `v` is what its model gave. -/
def World.product (w : World) (h : Half) (e : GProd) (v : Nat) : Nat × Nat :=
  let lidar := !(w.availRole h 3).isEmpty
  let fwd := w.cover h = 0xFF
  let failed := w.modelFailed h e.model
  let noSensor := match e.type_ with
    | 4 => !lidar
    | 5 => (w.availRole h 2).isEmpty
    | 6 => (w.availRole h 2).isEmpty
    | _ => !fwd && !lidar
  let range (x : Rat) : Nat := if x < e.lo || e.hi < x then 2 else 0
  if failed || noSensor then (v, 6)
  else match e.type_ with
    | 5 => match w.grainMean h (·.damage) with
      | some (x, fresh) => (f32Of x, if fresh then range x else 1)
      | none => (v, 1)
    | 6 => match w.grainMean h (·.trash) with
      | some (x, fresh) => (f32Of x, if fresh then range x else 1)
      | none => (v, 1)
    | 7 => (0, 0)
    | _ => (v, range (f32Val v))

/-- A product's quality set; leaving or regaining GOOD is reported (R334). -/
def World.setPq (w : World) (h : Half) (p q : Nat) : World :=
  let was := w.rd h F.GRD_PQ.QUALITY p
  let w := w.wr h F.GRD_PQ.QUALITY p q
  w.when ((was = 0) != (q = 0)) fun w => w.raise h 231 (evArg p 0xFF q)

/-- The sibling plane's presence in a cycle recorded (R322): every missing one counted, the first and the first return reported. -/
def World.planeSeen (w : World) (h : Half) (miss : Bool) : World :=
  let was := (w.grd.get h).missing
  let w := (w.wr h F.GRD_STATUS.SIB 0 (b2n (!miss))).updGrind h fun g => { g with missing := miss }
  let w := w.when miss fun w => w.bump h F.GRD_MISS.HI
  w.when (was != miss) fun w => w.raise h 227 (evArg 0xFFFF 0xFF (b2n (!miss)))

/-- The bound of publication (R309), ns. -/
def Cycle.bound (c : Cycle) : Nat := if c.period = 80 * ms then 180 * ms else 100 * ms

/-- Fusion completes and the oldest pending Grind is published within its bound (R309, R310, R321–R324). `vals`: the products'
values (f32); `profs`: the BIOMASS profiles in product order; `edge`: each EDGE product's angle and valid length. -/
def execGrindPublish (h : Half) (vals : List Nat) (profs : List (List Nat)) (edge : List (Rat × Rat)) (s : State) : Out := lift s fun w =>
  match (w.grd.get h).cycles with
  | [] => w
  | c :: rest =>
    if !c.closed || c.tg + c.bound < w.mt h then w
    else
      let miss := w.planeMissing s.own h c
      let w := (w.planeSeen h miss).updGrind h fun g => { g with
        cycles := rest, sibPorts := if miss then none else some c.sibPorts, sibMres := if miss then [] else c.sibMres
        unpub := 0, pubRun := if c.tg = g.pubTg + c.period then g.pubRun + 1 else 1, pubAt := w.mt h, pubTg := c.tg, edge := edge }
      let g := w.grin h
      let w := w.putGrid h (fusePlanes g c.own c.sib miss) profs
      let w := w.forAll (List.range g.prods.length) fun w p =>
        let (v, q) := w.product h (g.prods.getD p {}) (vals.getD p 0)
        ((w.wr h F.GRD_PVAL.VALUE p v).setPq h p q).wr h F.GRD_PQ.AGE p 0
      let t := satTo 16 ((w.mt h - c.tg) / 100000)
      let w := (w.wr h F.GRD_PUB.LAST 0 t).wr h F.GRD_PUB.MAX 0 (max t (w.rd h F.GRD_PUB.MAX))
      ((w.wr h F.GRD_CYCLE.CYCLE 0 (c.tg / (40 * ms))).wr h F.PRJ_STATUS.ACTIVE 0 0).wr h F.GRD_STATUS.COVER 0 (w.cover h)

/-- The bound of the oldest pending Grind has passed (R309): it is abandoned; a sibling plane not there by then is missing (R322). -/
def execGrindDeadline (h : Half) (s : State) : Out := lift s fun w =>
  match (w.grd.get h).cycles with
  | [] => w
  | c :: _ =>
    let miss := w.planeMissing s.own h c
    ((w.planeSeen h miss).updGrind h fun g => { g with
      sibPorts := if miss then none else some c.sibPorts, sibMres := if miss then [] else c.sibMres }).abandon h c.tg

/-- The Grind's rate follows the derating, and SLOW in SERVICE (R328, R533). -/
def execGrindRateChange (h : Half) (s : State) : Out := lift s fun w =>
  let slow := w.flag h F.PWR_STATUS.DERATE || (w.inService h && w.flag h F.GRD_CTRL.SLOW)
  if w.flag h F.GRD_STATUS.RATE = slow then w
  else ((w.wr h F.GRD_STATUS.RATE 0 (b2n slow)).wr h F.FEA_STATUS.HALF_CLK 0 (b2n slow)).raise h 228 (evArg 0xFFFF 0xFF (b2n slow))

/-- No publication for three Grind periods: every product that is not FAULT is STALE (R323). -/
def execProductStale (h : Half) (s : State) : Out := lift s fun w =>
  let g := w.grd.get h
  if g.sec.isSome && g.pubAt + 3 * w.period h ≤ w.mt h then
    w.forAll (List.range (w.grin h).prods.length) fun w p => if w.rd h F.GRD_PQ.QUALITY p = 6 then w else w.setPq h p 1
  else w

/-! Models (R318, R319) and grain quality (R325). -/

/-- The load of a model begins. -/
def execModelLoad (h : Half) (m : Nat) (s : State) : Out := lift s fun w =>
  if m < (w.grin h).models.length then (w.setMres h m 6).wr h F.FEA_MODEL.LOADING 0 1 else w

/-- A model's load ends with a result 0–5 of its steps (R318, R319). A failed OBSTACLE or late model sets NO_OBST. -/
def execModelLoadComplete (h : Half) (m res : Nat) (s : State) : Out := lift s fun w =>
  let ms_ := (w.grin h).models
  match ms_[m]? with
  | none => w
  | some e =>
    let w := w.setMres h m res
    let bit := 2 ^ m
    let l := w.rd h F.FEA_MODEL.LOADED
    let w := w.wr h F.FEA_MODEL.LOADED 0 (if res = 0 then l ||| bit else l &&& (65535 - bit))
    let w := w.wr h F.FEA_MODEL.LOADING 0 (b2n ((List.range ms_.length).any (fun i => w.mres h i = 6)))
    if 1 ≤ res && res ≤ 5 then
      let w := w.raise h 229 (evArg m 0xFF res)
      let w := w.when (e.kind = 5 || e.kind = 7) fun w => w.wr h F.GRD_STATUS.NO_OBST 0 1
      (w.forAll ((List.range (w.grin h).prods.length).filter (fun p => ((w.grin h).prods.getD p {}).model = m))
        fun w p => w.setPq h p 6).checkBlind h
    else w

/-- An analysis of a GRAIN_CAM frame of the half's plane (R325): the damaged-kernel and trash fractions, f32. The sibling has it from
the status frame. -/
def execGrainAnalysis (h : Half) (p damage trash : Nat) (s : State) : Out := lift s fun w =>
  if ownPlane h p && ((w.grin h).port p).role = 2 && w.portUsable h p then
    let x : Grain := ⟨w.mt h, false, p, f32Val damage, f32Val trash⟩
    let w := w.updGrind h fun g => { g with grain := (x :: g.grain).take 50 }
    w.when (w.rd h F.XNG_STATUS.UP = 1) fun w => w.updGrind h.other fun g => { g with grain := ({ x with sib := true } :: g.grain).take 50 }
  else w

/-! Knocks and counts (R315, R317, R331–R333). -/

/-- Pipelines Knocked (R315). -/
def World.knockPipes (w : World) (h : Half) (mask : Nat) : World :=
  w.forAll ((List.range 8).filter (bitOf mask)) fun w p =>
    (w.wr h F.PRJ_STATUS.FAULT 0 (w.rd h F.PRJ_STATUS.FAULT ||| 2 ^ p)).raise h 230 (evArg p 0xFF 0)

/-- Jobs of classes Knocked (R317): their outputs are discarded; class G abandons its Grinds. `jobs`: how many each class had. -/
def World.knockJobs (w : World) (h : Half) (mask : Nat) (jobs : List Nat) : World :=
  w.forAll ((List.range 4).filter (fun k => bitOf mask k && jobs.getD k 0 ≠ 0)) fun w k =>
    let w := w.wr h F.FEA_CNT.KNOCKED 0 (satTo 8 (w.rd h F.FEA_CNT.KNOCKED + jobs.getD k 0))
    if k = 0 then w.forAll (((w.grd.get h).cycles.filter (·.closed)).map (·.tg)) fun w tg => w.abandon h tg
    else if k = 2 then w.updGrind h fun g => { g with late := [] }
    else w

/-- PRJ_KNOCK.PIPE written. -/
def execPrjKnock (h : Half) (_init mask : Nat) (s : State) : Out := lift s fun w => w.knockPipes h mask

/-- FEA_KNOCK.CLASS written. -/
def execFeaKnock (h : Half) (_init mask : Nat) (jobs : List Nat) (s : State) : Out := lift s fun w => w.knockJobs h mask jobs

/-- PRJ_CTRL.CLR_CNT: the PRJ_PORT counts and the peak rate. -/
def execPrjClrCnt (h : Half) (_init : Nat) (s : State) : Out := lift s fun w =>
  (w.forAll (List.range 8) fun w p => (w.wr h F.PRJ_PORT.DROP p 0).wr h F.PRJ_PORT.SEQ_GAP p 0).wr h F.PRJ_RATE.PEAK 0 0

/-- FEA_CTRL.CLR_CNT. -/
def execFeaClrCnt (h : Half) (_init : Nat) (s : State) : Out := lift s fun w =>
  ((w.wr h F.FEA_CNT.L_DROP 0 0).wr h F.FEA_CNT.ESCAL 0 0).wr h F.FEA_CNT.KNOCKED 0 0

/-- GRD_CTRL.CLR_CNT. -/
def execGrdClrCnt (h : Half) (_init : Nat) (s : State) : Out := lift s fun w =>
  let z (w : World) (f : Field) : World := w.wr h f 0 0
  [F.GRD_LATE.HI, F.GRD_LATE.LO, F.GRD_XTRAP.HI, F.GRD_XTRAP.LO, F.GRD_MISS.HI, F.GRD_MISS.LO, F.GRD_PUB.MAX].foldl z w

/-! What readers take from the published products. -/

/-- A product's value where it is GOOD (R323). -/
def World.goodProduct (w : World) (h : Half) (p : Nat) : Option Rat :=
  if w.rd h F.GRD_PQ.QUALITY p = 0 then some (f32Val (w.rd h F.GRD_PVAL.VALUE p)) else none

/-- Entry `n` of the BIOMASS profile of product `p`, kg/m²; none where it holds no valid cell (R324). -/
def World.biomassAt (w : World) (h : Half) (p n : Nat) : Option Rat :=
  let pr := (w.grin h).prods
  let k := ((pr.take p).filter (fun e => e.type_ = 1)).length
  let a := w.rd h F.GRD_BUF.ADDR + 29491200 + 1600 * k + 2 * n
  let v := u16At (w.getMem h 4 a 2) 0
  if 800 ≤ n || v = 0xFFFF then none else some ((v : Rat) / 1000)

end Sys2Proof.Machine
end

