-- ==== Sys2Proof/Machine/Input.lean ====
section
/-!
DEFINITION. Universal inputs, bindings and their qualities, twins, sensor supplies and the loss array (R245–R270).
-/
namespace Sys2Proof.Machine

/-! Access. -/

/-- Binding entry `b` as loaded. -/
def World.bindCfg (w : World) (b : Nat) : BindCfg := w.uin.cfg.binds.getD b {}

/-- A source that each half evaluates for itself (R256). -/
def BindCfg.perHalf (c : BindCfg) : Bool := c.src = 3 || c.src = 4

/-- The place of a binding's chain state: one for the backplane's bindings, one in each half for EXTERNAL and MODULE. -/
def World.bindKey (w : World) (h : Half) (b : Nat) : Nat := if (w.bindCfg b).perHalf then b + 1024 * (1 + h.code) else b

/-- The state of a binding's chain, as half `h` sees it. -/
def World.bindSt (w : World) (h : Half) (b : Nat) : BindSt := NMap.get {} w.uin.bind (w.bindKey h b)

/-- The state of a binding's chain changed. -/
def World.updBind (w : World) (h : Half) (b : Nat) (f : BindSt → BindSt) : World :=
  { w with uin := { w.uin with bind := NMap.upd {} w.uin.bind (w.bindKey h b) f } }

/-- The halves that see a binding's state. -/
def World.bindHalves (w : World) (h : Half) (b : Nat) : List Half := if (w.bindCfg b).perHalf then [h] else [.A, .B]

/-- The comparator of an input. -/
def World.comp (w : World) (n : Nat) : Comp := NMap.get {} w.uin.comp n

/-- The comparator of an input changed. -/
def World.updComp (w : World) (n : Nat) (f : Comp → Comp) : World :=
  { w with uin := { w.uin with comp := NMap.upd {} w.uin.comp n f } }

/-- The binding that names an input (a QUAD binding names both inputs of its pair, R249). -/
def World.inputBinding (w : World) (n : Nat) : Option Nat :=
  indexWhere (fun c => (c.src = 1 && c.obj = objU n) || (c.src = 2 && (c.obj = objU n || c.obj + 1 = objU n))) w.uin.cfg.binds 0

/-- The input number a binding event names (R270): the input of an INPUT or QUAD binding, else 0xFF. -/
def BindCfg.inputNo (c : BindCfg) : Nat := if c.src = 1 || c.src = 2 then c.obj - 144 else 0xFF

/-! Quality and reported value (R252). -/

/-- The quality on a binding's own checks, and whether CONFLICT adds to it: the condition that stands highest. -/
def BindSt.quality (s : BindSt) : Nat :=
  if s.fault ≠ 0 then 6
  else if s.stale then 1
  else if s.outRange then 2
  else if s.chatter then 4
  else if s.stuck then 3
  else if s.conflict then 5
  else s.group

/-- The binding is GOOD or CONFLICT on its own checks (R258). -/
def BindSt.ownGood (s : BindSt) : Bool := ({ s with conflict := false } : BindSt).quality = 0

/-- The value reported under a quality (R252). -/
def BindSt.value (s : BindSt) (c : BindCfg) : Rat :=
  let q := s.quality
  if q = 0 || q = 5 then s.filt
  else if c.fsAny then c.fsVal
  else match q with
    | 6 => s.lastOk
    | 1 => s.acc
    | 2 => s.lastIn
    | 4 => s.stable
    | 3 => c.fsVal
    | _ => s.filt

/-- Whether FS_VAL is what is reported. -/
def BindSt.fs (s : BindSt) (c : BindCfg) : Bool :=
  let q := s.quality
  q ≠ 0 && q ≠ 5 && (c.fsAny || q = 3)

/-- The event of a quality (R270); CONFLICT has its own. -/
def qualityEvent : Nat → Option Nat
  | 0 => some 128
  | 1 => some 129
  | 2 => some 130
  | 3 => some 131
  | 4 => some 132
  | 6 => some 134
  | _ => none

/-- A binding's value and quality published in a half's UIN_BVAL and UIN_BQ; a change of quality raises its event. -/
def World.publishIn (w : World) (b : Nat) (h : Half) : World :=
  let c := w.bindCfg b
  let s := w.bindSt h b
  let was := w.rd h F.UIN_BQ.QUALITY b
  let q := s.quality
  let w := ((w.wr h F.UIN_BVAL.VALUE b (f32Of (s.value c))).wr h F.UIN_BQ.QUALITY b q).wr h F.UIN_BQ.FS b (b2n (s.fs c))
  let w := w.wr h F.UIN_BQ.DIVERGE b (b2n s.diverge)
  if q = was then w
  else match qualityEvent q with
    | some e => w.raise h e (evArg b c.inputNo (if q = 6 then s.fault else q))
    | none => w

/-- A binding published in the halves that see it; an input's own registers follow (R268). -/
def World.publish (w : World) (h : Half) (b : Nat) : World :=
  let c := w.bindCfg b
  let s := w.bindSt h b
  let was := w.rd h F.UIN_BQ.QUALITY b
  let w := (w.bindHalves h b).foldl (fun w h => w.publishIn b h) w
  let w := w.when (s.quality = 0 || s.quality = 5) fun w => w.updBind h b fun s => { s with lastOk := s.filt }
  if c.src = 1 || c.src = 2 then
    let n := c.obj - 144
    let w := ((w.wr .A F.UIN_VALUE.VALUE n (f32Of (s.value c))).wr .A F.UIN_STATUS.QUALITY n s.quality).wr
      .A F.UIN_STATUS.FREASON n s.fault
    let w := w.when (s.quality = 1 && was ≠ 1) fun w => w.bump .A F.UIN_CNT.STALE n
    w.when (s.quality = 4 && was ≠ 4) fun w => w.bump .A F.UIN_CNT.CHATTER n
  else w

/-! The chain (R251, R253, R254). -/

/-- The value of the low-pass after a time `dt` (s): first order with time constant TC. -/
def lowPass (y x tc dt : Rat) : Rat := if tc = 0 then x else y + (x - y) * (1 - Config.expR (-(dt / tc)))

/-- The middle of a list. -/
def median (l : List Rat) : Rat := (sortBy (fun a b => decide (a ≤ b)) l).getD (l.length / 2) 0

/-- Whether an object named by EXP_OBJ is commanded on (R253). -/
def World.expOn (w : World) (o : Nat) : Bool :=
  if o = 0xFFFF then true
  else if o < 96 then w.flag .A F.VLV_STATUS.CMD o
  else if o < 144 then w.flag .A F.LSW_STATUS.CMD (o - 96)
  else false

/-- A binding is expected to change now (R253). -/
def World.expected (w : World) (h : Half) (c : BindCfg) : Bool :=
  bitOf c.exp (w.rd h F.SET_STATE.STATE) && w.expOn c.expObj

/-- The stuck clock moved on to `now`, or restarted by a change beyond STUCK_BAND or an edge (R253). -/
def BindSt.stuckStep (s : BindSt) (c : BindCfg) (expected edge : Bool) (now : Nat) : BindSt :=
  if c.stuckBand < absR (s.filt - s.stuckFrom) || edge then
    { s with stuckClk := 0, stuckFrom := s.filt, clkAt := now, stuck := false }
  else { s with stuckClk := if expected then s.stuckClk + (now - s.clkAt) else s.stuckClk, clkAt := now }

/-- An accepted value: last accepted, filtered, and the range and stuck checks run on it. -/
def BindSt.accept (s : BindSt) (c : BindCfg) (x : Rat) (now : Nat) (expected edge : Bool) : BindSt :=
  let dt : Rat := ((now - s.accAt : Nat) : Rat) / sec
  let med := (x :: s.med).take 5
  let x' := if c.filt = 2 then median med else x
  let y := if c.filt = 0 then x else if s.fresh then x' else lowPass s.filt x' c.tc dt
  let inside := c.rngLo ≤ y && y ≤ c.rngHi
  let s := { s with
    stale := false, acc := x, accAt := now, fresh := false, filt := y, med := med
    outRun := if inside then 0 else s.outRun + 1, inRun := if inside then s.inRun + 1 else 0
    lastIn := if inside then y else s.lastIn
    held := x, stableAt := if x = s.held then s.stableAt else now }
  let s := { s with
    stable := if !s.chatter && c.fMax ≠ 0 && (2 : Rat) / c.fMax ≤ ((now - s.stableAt : Nat) : Rat) / sec then s.held else s.stable
    outRange := if 10 ≤ s.outRun then true else if 100 ≤ s.inRun then false else s.outRange }
  s.stuckStep c expected edge now

/-- Whether the slew check rejects a value (R251). -/
def BindSt.slewed (s : BindSt) (c : BindCfg) (x : Rat) (now : Nat) : Bool :=
  c.slew ≠ 0 && !s.stale && c.slew * (((now - s.accAt : Nat) : Rat) / sec) < absR (x - s.acc)

/-- Steps 3 to 5 of the chain on a value: rejected on slew with its count, else accepted. `srv` is the half whose operating state counts. -/
def World.chain (w : World) (srv h : Half) (b : Nat) (x : Rat) (edge : Bool) : World :=
  let c := w.bindCfg b
  let s := w.bindSt h b
  if s.slewed c x w.now then w.when (c.src = 1 || c.src = 2) fun w => w.bump .A F.UIN_CNT.REJECT (c.obj - 144)
  else
    let e := w.expected srv c
    let w := w.updBind h b fun s => s.accept c x w.now e edge
    w.when (c.src = 1 || c.src = 2) fun w =>
      (w.wr .A F.UIN_STAMP_LO.T (c.obj - 144) (w.mt srv % 2 ^ 32)).wr .A F.UIN_STAMP_HI.T (c.obj - 144) (w.mt srv / 2 ^ 32)

/-! Twins (R257, R258). -/

/-- The place of a pair's timer for half `h`. -/
def World.twinKey (w : World) (h : Half) (k : Nat) (t : TwinCfg) : Nat :=
  if (w.bindCfg t.a).perHalf || (w.bindCfg t.b).perHalf then k + 128 * (1 + h.code) else k

/-- CONFLICT of a binding set or cleared, with its event (R270). -/
def World.setConflict (w : World) (h : Half) (b : Nat) (on : Bool) : World :=
  if (w.bindSt h b).conflict = on then w
  else
    let w := w.updBind h b fun s => { s with conflict := on, diverge := false }
    (w.bindHalves h b).foldl (fun w h => w.raise h 133 (evArg b (w.bindCfg b).inputNo (b2n on))) w

/-- One comparison of a pair. -/
def World.compare (w : World) (h : Half) (k : Nat) (t : TwinCfg) : World :=
  let a := w.bindSt h t.a
  let b := w.bindSt h t.b
  let key := w.twinKey h k t
  if a.ownGood && b.ownGood then
    let div := t.tol < absR (a.filt - b.filt)
    let cur := NMap.get (0, false) w.uin.twinAt key
    let w := if cur.2 = div && cur.1 ≠ 0 then w
      else { w with uin := { w.uin with twinAt := NMap.set (0, false) w.uin.twinAt key (w.now + 1, div) } }
    let d := div && !a.conflict
    ((w.updBind h t.a fun s => { s with diverge := d }).updBind h t.b fun s => { s with diverge := d })
  else
    let w := { w with uin := { w.uin with twinAt := NMap.set (0, false) w.uin.twinAt key (0, false) } }
    let w := (w.setConflict h t.a false).setConflict h t.b false
    (w.updBind h t.a fun s => { s with diverge := false }).updBind h t.b fun s => { s with diverge := false }

/-- The pairs that hold a binding compared and their bindings published. -/
def World.compareOf (w : World) (h : Half) (p : Nat → Bool) : World :=
  w.uin.cfg.twins.zipIdx.foldl (fun w x =>
    if p x.1.a || p x.1.b then ((w.compare h x.2 x.1).publish h x.1.a).publish h x.1.b else w) w

/-- A binding updated: its pair compared, its value published. -/
def World.bindUpdated (w : World) (h : Half) (b : Nat) : World := (w.compareOf h (· = b)).publish h b

/-- A pair's timer has run for TIME: diverging sets CONFLICT on both, agreeing clears it (R257). -/
def World.twinTime (w : World) (h : Half) (k : Nat) (div : Bool) : World :=
  match w.uin.cfg.twins[k]? with
  | none => w
  | some t =>
    let cur := NMap.get (0, false) w.uin.twinAt (w.twinKey h k t)
    if cur.1 ≠ 0 && cur.2 = div && cur.1 + t.time * ms ≤ w.now + 1 then
      (((w.setConflict h t.a div).setConflict h t.b div).publish h t.a).publish h t.b
    else w

/-- A twin pair has diverged for TIME (R257). -/
def execTwinDivergenceTimeout (h : Half) (k : Nat) (s : State) : Out := lift s fun w => w.twinTime h k true

/-- A twin pair has agreed for TIME (R257). -/
def execTwinAgreementTimeout (h : Half) (k : Nat) (s : State) : Out := lift s fun w => w.twinTime h k false

/-! Samples and edges (R245–R249). -/

/-- The half whose operating state the backplane's chains take: the serving half (R125). -/
def State.srv (s : State) : Half := s.own.server.getD .A

/-- Full scale of a mode and its place in the UIN payload: V5, V10, V32 in volts, MA20 in mA, RES in Ω. -/
def modeScale : Nat → Rat
  | 0 => 5
  | 1 => 10
  | 2 => 32
  | 3 => 25
  | _ => 13107

/-- The calibrated reading of an input from a 16-bit conversion (R246, R247, R516): gain and offset of its mode in the Ledger. -/
def reading (led : Memory) (n mode code : Nat) : Rat :=
  let raw : Rat := (code : Rat) * modeScale mode / 65536
  match ledgerEntry led 2 n with
  | some p => raw * f32At p (8 * mode) + f32At p (8 * mode + 4)
  | none => raw

/-- The frequency of an input now, Hz (R248). -/
def Comp.freq (k : Comp) (gateMs now : Nat) : Rat :=
  let win := k.rises.filter (fun t => now - gateMs * ms ≤ t)
  if k.rise = 0 || 10 * sec ≤ now - k.rise then 0
  else match win with
    | t :: u :: r =>
      let first := (u :: r).getLastD u
      (((u :: r).length : Nat) : Rat) * sec / ((t - first : Nat) : Rat)
    | _ =>
      if k.period = 0 then 0
      else (sec : Rat) / ((max k.period (now - k.rise) : Nat) : Rat)

/-- The raw value of a binding's input in an edge mode. -/
def World.edgeValue (w : World) (c : BindCfg) : Rat :=
  let n := c.obj - 144
  let k := w.comp n
  if c.src = 2 || c.mode = 8 then ((w.rdI .A F.UIN_COUNT.COUNT n : Int) : Rat)
  else match c.mode with
    | 5 => k.freq c.gate w.now
    | 6 => if k.period = 0 then 0 else (k.high : Rat) / (k.period : Rat)
    | _ => if k.deb then 1 else 0

/-- Whether a reading lies outside the wire's range (R252): the FREASON it stands for, 0 none. -/
def wireReason (mode : Nat) (x : Rat) : Nat :=
  match mode with
  | 3 => if x < 36 / 10 then 1 else if 21 < x then 2 else 0
  | 4 => if 12000 < x then 1 else if x < 10 then 2 else 0
  | _ => 0

/-- The nominal voltage of a supply level. -/
def supplyNominal : Nat → Rat
  | 1 => 5
  | 2 => 10
  | _ => 0

/-- One input's sample through its chain: `code` the conversion, `vs` the measured supply voltages (10 mV). -/
def World.sampleInput (w : World) (led : Memory) (srv : Half) (codes vs : List Nat) (b : Nat) (c : BindCfg) : World :=
  let n := c.obj - 144
  let edge := c.src = 2 || 5 ≤ c.mode
  let w := w.when (c.mode = 7) fun w => w.updComp n fun k =>
    if k.edgeAt + c.gate * ms ≤ w.now then { k with deb := k.level != c.invert } else k
  let raw := if edge then w.edgeValue c else reading led n c.mode (codes.getD n 0)
  let meas : Rat := ((vs.getD c.supply 0 : Nat) : Rat) / 100
  let raw := if c.ratio && !edge then
      (if meas = 0 then 0 else raw / meas * supplyNominal (w.uin.cfg.supplies.getD c.supply (0, false)).1) else raw
  let x := c.gain * raw + c.ofs
  let w := w.updBind .A b fun s => { s with edges := s.edges.filter (fun t => w.now - 100 * ms ≤ t) }
  let w := w.updBind .A b fun s => { s with
    chatter := s.chatter || (c.fMax ≠ 0 && (2 / 10) * c.fMax < (s.edges.length : Rat)) }
  let w := w.when (c.mode = 5) fun w => w.wr .A F.UIN_FREQ.F n (satTo 32 (floorN (1000 * raw)))
  let w := w.when (c.mode = 6) fun w => w.wr .A F.UIN_FREQ.F n (satTo 32 (roundN (1000 * raw)))
  let w := w.when (c.mode = 7) fun w => w.wr .A F.UIN_STATUS.LEVEL n (b2n (w.comp n).deb)
  let seen := !edge || (w.bindSt .A b).edges.head? = some w.now || c.src = 2 || c.mode = 7 || (w.comp n).rise ≠ 0
  if (!edge && wireReason c.mode raw ≠ 0) || !seen then w else w.chain srv .A b x false

/-- All 128 inputs sampled together (R245): the conversions, and the measured supply voltages. -/
def execInputSample (codes vs : List Nat) (s : State) : Out :=
  lift s fun w =>
    if !w.flag .A F.UIN_CTRL.SAMPLE_EN then w
    else
      let w := w.forAll (List.range 128) fun w n => w.wr .A F.UIN_RAW.CODE n (codes.getD n 0)
      let own (b : Nat) : Bool := (w.bindCfg b).src = 1 || (w.bindCfg b).src = 2
      let w := w.uin.cfg.binds.zipIdx.foldl
        (fun w x => if x.1.src = 1 || x.1.src = 2 then w.sampleInput s.ledger s.srv codes vs x.2 x.1 else w) w
      let w := w.compareOf .A own
      w.uin.cfg.binds.zipIdx.foldl (fun w x => if x.1.src = 1 || x.1.src = 2 then w.publish .A x.2 else w) w

/-- An illegal quadrature transition: counted, EVT_UIN_QERR at the first after CLR_CNT (R249). -/
def World.quadError (w : World) (n b : Nat) : World :=
  let first := w.rd .A F.UIN_CNT.QERR n = 0
  (w.bump .A F.UIN_CNT.QERR n).when first fun w => w.raiseBoth 136 (evArg b n 0)

/-- A quadrature count moved by one, read through both inputs of the pair (R249). -/
def World.quadCount (w : World) (n : Nat) (d : Int) : World :=
  let v := w.rdI .A F.UIN_COUNT.COUNT n + d
  (w.wrI .A F.UIN_COUNT.COUNT n v).wrI .A F.UIN_COUNT.COUNT (n + 1) v

/-- A comparator edge of input `n` (R245): its new level, and whether the pair's other phase changed in the same capture. -/
def execInputEdge (n : Nat) (level both : Bool) (s : State) : Out :=
  let srv := s.srv
  lift s fun w =>
    match w.inputBinding n with
    | none => w
    | some b =>
      let c := w.bindCfg b
      let even := c.obj - 144
      let a := (w.comp even).level
      let q := (w.comp (even + 1)).level
      let w := w.updComp n fun k =>
        let k := { k with level := level, edgeAt := w.now }
        if level then { k with
          rises := w.now :: k.rises.filter (fun t => w.now - sec ≤ t), rise := w.now
          period := if k.rise = 0 then 0 else w.now - k.rise, high := k.fall - k.rise }
        else { k with fall := w.now }
      let w := w.updBind .A b fun s => if 6 ≤ c.mode || c.src = 2 then { s with edges := w.now :: s.edges } else s
      let w := w.updBind .A b fun s => s.stuckStep c (w.expected srv c) true w.now
      if c.src = 2 then
        if both then (w.updComp (if n = even then even + 1 else even) fun k => { k with level := !k.level }).quadError even b
        else
          let up := if n = even then level != q else level = a
          w.quadCount even (if up then 1 else -1)
      else w

/-- The conditions a timer ends in (R252): FAULT with its reason, STALE, OUTRANGE of a frequency, or CHATTER. -/
def BindSt.setCond (s : BindSt) (q reason : Nat) (on : Bool) : BindSt :=
  match q with
  | 6 => { s with fault := if on then reason else 0 }
  | 1 => if on then { s with stale := true, fresh := true } else s
  | 2 => { s with outRange := on }
  | 4 => { s with chatter := on }
  | _ => s

/-- A quality condition has held, or been absent, for its time (R252). STALE clears only by an accepted sample. -/
def execQualityConditionTimer (h : Half) (b q reason : Nat) (on : Bool) (s : State) : Out :=
  lift s fun w =>
    if w.uin.cfg.binds.length ≤ b || (w.bindCfg b).src = 0 then w
    else (w.updBind h b fun x => x.setCond q reason on).bindUpdated h b

/-- The stuck clock reaches T_STUCK (R253). -/
def execStuckTimeout (h : Half) (b : Nat) (s : State) : Out :=
  lift s fun w =>
    let c := w.bindCfg b
    let x := w.bindSt h b
    let run := if w.expected s.srv c then x.stuckClk + (w.now - x.clkAt) else x.stuckClk
    w.when (c.src ≠ 0 && c.tStuck ≠ 0 && c.tStuck * 100 * ms ≤ run) fun w =>
      (w.updBind h b fun x => { x with stuck := true }).bindUpdated h b

/-- A write to the input of the initiator's select, by its owner (R20). -/
def inputWrite (s : State) (h : Half) (init : Nat) (f : Nat → World → World) : Out :=
  let n := s.w.sel h F.UIN_SEL.CH init
  putW s <| gateObj s h init (objU n) (f n)

/-- An input Knocked (R255): filter, median, stuck clock and chatter window cleared, STALE; a QUAD count is not changed. -/
def World.knockInput (w : World) (n : Nat) : World :=
  match w.inputBinding n with
  | none => w
  | some b =>
    (w.updBind .A b fun s => { s with
      stale := true, fresh := true, med := [], outRun := 0, inRun := 0, outRange := false, chatter := false, edges := []
      stuck := false, stuckClk := 0, stuckFrom := s.filt, clkAt := w.now }).bindUpdated .A b

/-- UIN_CMD.KNOCK (R255). -/
def execUinKnock (h : Half) (init : Nat) (s : State) : Out := inputWrite s h init fun n w => w.knockInput n

/-- UIN_CMD.PRESET loads the pair's UIN_PRESET into its count (R249). -/
def execUinPreset (h : Half) (init : Nat) (s : State) : Out :=
  inputWrite s h init fun n w =>
    let e := n - n % 2
    let v := w.rd .A F.UIN_PRESET.COUNT e
    (w.wr .A F.UIN_COUNT.COUNT e v).wr .A F.UIN_COUNT.COUNT (e + 1) v

/-- UIN_CTRL.CLR_CNT: every UIN_CNT, for a half that owns an input (R20, R268). -/
def execUinClrCnt (h : Half) (init : Nat) (s : State) : Out :=
  putW s <| gateAny s h init (objU 0) 128 (objU (s.w.sel h F.UIN_SEL.CH init)) fun w =>
    w.forAll (List.range 128) fun w n => w.setReg .A F.UIN_CNT.QERR n 0

/-! Sensor supplies (R250). -/

/-- The hidden state of a supply. -/
def World.supplySt (w : World) (n : Nat) : Supply := NMap.get {} w.uin.supply n

/-- The hidden state of a supply changed. -/
def World.updSupply (w : World) (n : Nat) (f : Supply → Supply) : World :=
  { w with uin := { w.uin with supply := NMap.upd {} w.uin.supply n f } }

/-- FAULT with reason SUPPLY set on every binding of a supply that goes into fault (R252). -/
def World.supplyFault (w : World) (n : Nat) : World :=
  w.uin.cfg.binds.zipIdx.foldl (fun w x =>
    if x.1.supply = n && x.1.src ≠ 0 then (w.updBind .A x.2 fun s => { s with fault := 3 }).bindUpdated .A x.2 else w) w

/-- A supply has been in current limit for 10 ms. -/
def execSupplyLimitTrip (n i : Nat) (s : State) : Out :=
  lift s fun w =>
    w.when (w.flag .A F.UIN_SS.EN n && w.rd .A F.UIN_SS.LEVEL n ≠ 0 && !w.flag .A F.UIN_SS.FAULT n && 200 ≤ i) fun w =>
      let w := ((w.wr .A F.UIN_SS.FAULT n 1).wr .A F.UIN_SS.LIMIT n 0).wr .A F.UIN_SS.I n 0
      ((w.updSupply n fun _ => ⟨w.now, false⟩).raiseBoth 135 (evArg n 0xFF 1)).supplyFault n

/-- 1 s after a fault a supply with RETRY tries again; `limited` says whether the limit is met again. -/
def execSupplyRetry (n : Nat) (limited : Bool) (s : State) : Out :=
  lift s fun w =>
    w.when (w.flag .A F.UIN_SS.FAULT n && (w.uin.cfg.supplies.getD n (0, false)).2 && (w.supplySt n).offAt + sec ≤ w.now) fun w =>
      if limited then w.updSupply n fun x => { x with offAt := w.now }
      else (w.wr .A F.UIN_SS.FAULT n 0).raiseBoth 135 (evArg n 0xFF 0)

/-- A write of UIN_SS.EN by the owner of U8n (R250): 0 and then 1 ends a fault. -/
def execSupplyEnable (h : Half) (init : Nat) (en : Bool) (s : State) : Out :=
  let n := s.w.sel h F.UIN_SEL.CH init / 8
  putW s <| gateObj s h init (objU (8 * n)) fun w =>
    let w := w.wr .A F.UIN_SS.EN n (b2n en)
    if en then
      w.when (w.flag .A F.UIN_SS.FAULT n && (w.supplySt n).seenOff) fun w =>
        (w.wr .A F.UIN_SS.FAULT n 0).raiseBoth 135 (evArg n 0xFF 0)
    else w.updSupply n fun x => { x with seenOff := true }

/-! Other sources (R256). -/

/-- A CANM signal or YILD entry of half `h` writes an EXTERNAL binding; steps 3–6 run. -/
def World.externalWrite (w : World) (srv h : Half) (b : Nat) (x : Rat) : World :=
  if (w.bindCfg b).src = 3 then (w.chain srv h b x false).bindUpdated h b else w

/-- A write of an EXTERNAL binding with an f32 value. -/
def execExternalBindingWrite (h : Half) (b v : Nat) (s : State) : Out :=
  lift s fun w => w.externalWrite s.srv h b (f32Val v)

/-- A MODULE source updated in half `h`: STALE while invalid. -/
def World.moduleWrite (w : World) (srv h : Half) (obj : Nat) (valid : Bool) (x : Rat) : World :=
  w.uin.cfg.binds.zipIdx.foldl (fun w y =>
    if y.1.src = 4 && y.1.obj = obj then
      (if valid then w.chain srv h y.2 (y.1.gain * x + y.1.ofs) false
       else w.updBind h y.2 fun s => { s with stale := true, fresh := true }).bindUpdated h y.2
    else w) w

/-! The loss array (R260–R265). -/

/-- A loss element. -/
def World.elem (w : World) (k : Nat) : Elem := NMap.get {} w.uin.elem k

/-- A loss element changed. -/
def World.updElem (w : World) (k : Nat) (f : Elem → Elem) : World :=
  { w with uin := { w.uin with elem := NMap.upd {} w.uin.elem k f } }

/-- The zone of an element: 0 rotor (A0–A31), 1 sieve. -/
def losZone (k : Nat) : Nat := k / 32

/-- The weights of an element's zone in the active set: THR_HIT, W0, W1, W2, W3. -/
def World.losSet (w : World) (k : Nat) : List Rat := w.uin.cfg.loss.sets.getD (2 * w.uin.cls + losZone k) []

/-- The quality of an element on what its checks found (R264), SAT apart. -/
def World.losQuality (w : World) (k : Nat) : Nat :=
  let e := w.elem k
  if e.fault then 6 else if !w.flag .A F.LOS_CTRL.EN then 1 else if e.silent then 3 else 0

/-- A pulse of element `k` (R261, R262): the envelope peak in ADC counts, its rise time (µs), its zero crossings, and the stamp of the
peak. Under the dead time or below THR_HIT no hit begins. -/
def execLossHit (k peak r z stamp : Nat) (s : State) : Out :=
  lift s fun w =>
    match ledgerEntry s.ledger 3 k with
    | none => w.updElem k fun e => { e with fault := true }
    | some p =>
      let sk := u16At p 0
      let pk : Rat := (peak : Rat) / (sk : Rat)
      let c := w.losSet k
      let start := stamp - r * us
      if !w.flag .A F.LOS_CTRL.EN || pk < c.getD 0 0 || ((w.elem k).any && start < (w.elem k).dead + w.uin.cfg.loss.hitDead * us) then w
      else
        let r5 := r / 5 * 5
        let sc := c.getD 1 0 + c.getD 2 0 * Config.lnR pk + c.getD 3 0 * (r5 : Rat) + c.getD 4 0 * (z : Rat)
        let g := decide (0 ≤ sc)
        let w := w.updElem k fun e => { e with dead := start, any := true, hitAt := stamp, silent := false }
        let w := { w with uin := { w.uin with hits := w.uin.hits ++ [(k, stamp, g)] } }
        ((((w.wr .A F.LOS_HIT.P k (satTo 12 (floorN (100 * pk)))).wr .A F.LOS_HIT.GRAIN k (b2n g)).wr .A F.LOS_HIT.R k (satTo 11 r5)).wr
          .A F.LOS_HIT.Z k (satTo 8 z)).wr .A F.LOS_STATUS.SENS k sk

/-- The sum of an element mask over one window (R265): N, G and the GOOD elements' grain count. -/
def maskSum (x : LosWin) (mask : Nat) : Nat × Nat × Nat :=
  let ks := (List.range 64).filter (bitOf mask)
  let good := ks.filter (fun k => x.qual.getD k 1 = 0)
  (ks.length, good.length, good.foldl (fun a k => a + x.grain.getD k 0) 0)

/-- The precedence of a quality (R252), highest first: FAULT, STALE, OUTRANGE, CHATTER, STUCK, CONFLICT, GOOD. -/
def qualityRank : Nat → Nat
  | 6 => 6
  | 1 => 5
  | 2 => 4
  | 4 => 3
  | 3 => 2
  | 5 => 1
  | _ => 0

/-- The highest-precedence quality among a mask's elements. -/
def maskQuality (x : LosWin) (mask : Nat) : Nat :=
  ((List.range 64).filter (bitOf mask)).foldl
    (fun q k => if qualityRank q < qualityRank (x.qual.getD k 1) then x.qual.getD k 1 else q) 0

/-- The sum is GOOD: G ≥ ¾ N (R265). -/
def maskGood (x : LosWin) (mask : Nat) : Bool :=
  let (n, g, _) := maskSum x mask
  3 * n ≤ 4 * g && n ≠ 0

/-- A mask's scaled grain count in a window: the GOOD elements' count times N / G. -/
def maskCount (x : LosWin) (mask : Nat) : Rat :=
  let (n, g, c) := maskSum x mask
  if g = 0 then 0 else (c : Rat) * (n : Rat) / (g : Rat)

/-- EVT_LOS_GROUP on leaving or regaining GOOD (R270): `id` the binding, or 0x8000 + the outcome. -/
def World.losGroup (w : World) (id : Nat) (x : LosWin) (mask : Nat) (was : Bool) : World :=
  let g := maskGood x mask
  if g = was then w else w.raiseBoth 155 (evArg id (maskSum x mask).2.1 (b2n (!g)))

/-- One LOSS_GROUP binding after a window: hits per second; its quality GOOD, or the highest of its elements. -/
def World.losBinding (w : World) (x : LosWin) (b : Nat) (c : BindCfg) : World :=
  let good := maskGood x c.lmask
  let w := w.losGroup b x c.lmask ((w.bindSt .A b).group = 0)
  let w := w.updBind .A b fun s => { s with
    stale := false, group := if good then 0 else maskQuality x c.lmask, accAt := w.now
    filt := if good then 10 * maskCount x c.lmask else s.filt, acc := if good then 10 * maskCount x c.lmask else s.acc }
  w.bindUpdated .A b

/-- The LOSS_ZONE outcomes of the serving half after a window: EVT_LOS_GROUP where a mask leaves or regains GOOD since the last one. -/
def World.losOutcomes (w : World) (h : Half) (x : LosWin) (was : Option LosWin) : World :=
  ((((w.opt.get h).sec.map (·.outs)).getD []).zipIdx).foldl (fun w o =>
    if o.1.type_ = 1 then w.losGroup (0x8000 + o.2) x o.1.mask (was.all (fun y => maskGood y o.1.mask)) else w) w

/-- A 100 ms window ends (R263): each element's counts, the zone counts, LOS_TOTAL and the window number are published. -/
def execLossWindow (s : State) : Out :=
  lift s fun w =>
    let num := w.mt s.srv / (100 * ms) - 1
    let end_ := (num + 1) * (100 * ms)
    let mine := w.uin.hits.filter (fun x => x.2.1 < end_)
    let was := w.uin.wins.head?
    let cnt (k : Nat) (g : Bool) : Nat := (mine.filter (fun x => x.1 = k && x.2.2 = g)).length
    let sat (k : Nat) : Bool := 50 * ms < (cnt k true + cnt k false) * (w.uin.cfg.loss.hitDead * us)
    let qual (k : Nat) : Nat := if w.losQuality k = 6 || w.losQuality k = 1 then w.losQuality k else if sat k then 2 else w.losQuality k
    let quals := (List.range 64).map qual
    let grain (k : Nat) (g : Bool) : Nat := if quals.getD k 1 = 0 then cnt k g else 0
    let x : LosWin := ⟨num, (List.range 64).map (grain · true), quals⟩
    let zone (z : Nat) (g : Bool) : Nat := satTo 16 ((List.range' (32 * z) 32).foldl (fun a k => a + grain k g) 0)
    let w := w.forAll (List.range 64) fun w k =>
      let w := (w.wr .A F.LOS_COUNT.GRAIN k (satTo 16 (grain k true))).wr .A F.LOS_COUNT.TRASH k (satTo 16 (grain k false))
      let w := (w.wr .A F.LOS_STATUS.QUALITY k (qual k)).wr .A F.LOS_STATUS.SAT k (b2n (sat k))
      w.when (sat k) fun w => w.raiseBoth 153 (evArg k 0xFF (qual k))
    let w := ((w.wr .A F.LOS_ZONE_G.ROTOR 0 (zone 0 true)).wr .A F.LOS_ZONE_G.SIEVE 0 (zone 1 true)).wr .A F.LOS_ZONE_T.ROTOR 0 (zone 0 false)
    let w := (w.wr .A F.LOS_ZONE_T.SIEVE 0 (zone 1 false)).wr .A F.LOS_WIN.WIN 0 num
    let w := w.wr .A F.LOS_TOTAL.GRAIN 0 (satTo 32 (w.rd .A F.LOS_TOTAL.GRAIN + x.grain.foldl (· + ·) 0))
    let w := { w with uin := { w.uin with
      hits := w.uin.hits.filter (fun x => end_ ≤ x.2.1), wins := (x :: w.uin.wins).take 128, cls := w.rd .A F.LOS_CTRL.CLS } }
    let w := w.losOutcomes s.srv x was
    w.uin.cfg.binds.zipIdx.foldl (fun w y => if y.1.src = 5 then w.losBinding x y.2 y.1 else w) w

/-- The bias check of an element (R264): open, shorted, or passed. -/
def execLossBiasCheck (k : Nat) (pass : Bool) (s : State) : Out :=
  lift s fun w =>
    let bad := !pass || (ledgerEntry s.ledger 3 k).isNone
    let was := (w.elem k).fault
    let w := (w.updElem k fun e => { e with fault := bad }).wr .A F.LOS_STATUS.BIAS_OK k (b2n pass)
    let w := w.wr .A F.LOS_STATUS.QUALITY k (w.losQuality k)
    w.when (was ≠ bad) fun w => w.raiseBoth 152 (evArg k 0xFF (w.losQuality k))

/-- An element has recorded no hit for SILENT_S in HARVEST (R264; HARVEST is state 3 of R125). -/
def execLossSilentTimeout (k : Nat) (s : State) : Out :=
  lift s fun w =>
    let t := w.uin.cfg.loss.silentS
    w.when (t ≠ 0 && w.rd s.srv F.SET_STATE.STATE = 3 && (w.elem k).hitAt + t * sec ≤ w.now && !(w.elem k).silent) fun w =>
      let w := w.updElem k fun e => { e with silent := true }
      (w.wr .A F.LOS_STATUS.QUALITY k (w.losQuality k)).raiseBoth 154 (evArg k 0xFF (w.losQuality k))

/-- A write of LOS_CTRL.CLS (R262): the set takes effect at the next window boundary. -/
def execLosClsWrite (h : Half) (init v : Nat) (s : State) : Out :=
  putW s <| gateAny s h init (objLos 0) 64 (objLos (s.w.sel h F.LOS_SEL.CH init)) fun w => w.wr .A F.LOS_CTRL.CLS 0 v

/-- LOS_CTRL.CLR_CNT clears LOS_TOTAL (R269). -/
def execLosClrCnt (h : Half) (init : Nat) (s : State) : Out :=
  putW s <| gateAny s h init (objLos 0) 64 (objLos (s.w.sel h F.LOS_SEL.CH init)) fun w => w.wr .A F.LOS_TOTAL.GRAIN 0 0

end Sys2Proof.Machine
end

