-- ==== Sys2Proof/Machine/Gnss.lean ====
section
/-!
DEFINITION. The satellite receiver: front end, acquisition, tracking channels, measurement records, exclusions, corrections, position,
heading and the fused pose (R351–R386).
-/
namespace Sys2Proof.Machine

/-- The receiver of a half changed. -/
def World.updGnss (w : World) (h : Half) (f : Gnss → Gnss) : World := { w with gns := w.gns.upd h f }

/-- A binary64 pattern's value; an infinity or a NaN is uninterpreted (log entry 6). -/
def f64Val (v : Nat) : Rat :=
  let e := bitsOf v 52 11
  let m := bitsOf v 0 52
  let s : Rat := if bitOf v 63 then -1 else 1
  if e = 2047 then Config.f32Special v
  else if e = 0 then s * (m : Rat) * pow2 (-1074)
  else s * ((m + 2 ^ 52 : Nat) : Rat) * pow2 ((e : Int) - 1075)

/-- The offset of a signal's carrier from the centre of its chain, Hz, and its band (R351, R352). -/
def sigBand : Nat → Nat × Int
  | 0 => (0, 0)
  | 1 => (1, 0)
  | 2 => (2, -15345000)
  | 3 => (0, 0)
  | 4 => (2, -15345000)
  | 5 => (2, 15345000)
  | 6 => (0, 0)
  | 7 => (2, -15345000)
  | _ => (0, 0)

/-- The chain of a signal on an antenna: 3 · antenna + band. -/
def chainOf (sig ant : Nat) : Nat := 3 * ant + (sigBand sig).1

/-- A notch lies within 1.5 MHz of a signal's carrier (R354). -/
def World.notched (w : World) (h : Half) (sig ant : Nat) : Bool :=
  let k := chainOf sig ant
  (List.range 4).any (fun n => bitOf (w.rd h F.GNS_RF.NOTCH k) n &&
    ((NMap.get 0 (w.gns.get h).notch (4 * k + n)) - (sigBand sig).2).natAbs ≤ 1500000)

/-! Antennas and chains (R353–R355). -/

/-- An antenna's bias has stood in a class for 100 ms (R353): `i` mA, `v` 0.1 V. SHORT turns the bias off. -/
def execAntennaState (a i v : Nat) (s : State) : Out := lift s fun w =>
  let st := if i < 4 then 1 else if 120 < i then 2 else 0
  let was := w.rd .A F.GNS_ANT.STATE a
  if 2 ≤ a then w
  else
    let w := ((w.wr .A F.GNS_ANT.STATE a st).wr .A F.GNS_ANT.I a (satTo 8 i)).wr .A F.GNS_ANT.V a (if st = 2 then 0 else satTo 8 v)
    w.when (was ≠ st) fun w => w.raiseBoth 208 (evArg a 0xFF st)

/-- A shorted antenna's bias is tried again every 5 s (R353): it is on at 5.0 V until its current is classified. -/
def execAntennaBiasRetry (a : Nat) (s : State) : Out := lift s fun w =>
  if a < 2 && w.rd .A F.GNS_ANT.STATE a = 2 then w.wr .A F.GNS_ANT.V a 50 else w

/-- The spectral detector places a notch on a component at `hz` from the chain's centre, `db` above the noise density (R354); a fifth
component finds none free. -/
def execNotchDetect (h : Half) (k : Nat) (hz : Int) (db : Nat) (s : State) : Out := lift s fun w =>
  let on := w.rd h F.GNS_RF.NOTCH k
  match (List.range 4).find? (fun n => !bitOf on n) with
  | some n =>
    if k < 6 && 15 ≤ db then
      ((w.wr h F.GNS_RF.NOTCH k (on + 2 ^ n)).updGnss h fun g => { g with notch := NMap.set 0 g.notch (4 * k + n) hz }).raise
        h 210 (evArg k n 1)
    else w
  | none => w

/-- A notch is released 1 s after its component fell below 10 dB (R354). -/
def execNotchRelease (h : Half) (k n : Nat) (s : State) : Out := lift s fun w =>
  let on := w.rd h F.GNS_RF.NOTCH k
  if k < 6 && n < 4 && bitOf on n then
    ((w.wr h F.GNS_RF.NOTCH k (on - 2 ^ n)).updGnss h fun g => { g with notch := NMap.del g.notch (4 * k + n) }).raise
      h 210 (evArg k n 0)
  else w

/-- The jamming indicator has held a threshold for its time (R355). -/
def execJamLevel (h : Half) (k db agc : Nat) (s : State) : Out := lift s fun w =>
  let was := w.rd h F.GNS_RF.JAM k
  let lvl := if 25 ≤ db then 2 else if was = 2 && 20 ≤ db then 2 else if 10 ≤ db then 1 else if was ≠ 0 && 6 ≤ db then 1 else 0
  if 6 ≤ k then w
  else
    let w := ((w.wr h F.GNS_RF.JAM k lvl).wr h F.GNS_RF.JAM_DB k (min 60 db)).wr h F.GNS_RF.AGC k agc
    w.when (was ≠ lvl) fun w => w.raise h 209 (evArg k 0xFF lvl)

/-! Channels (R361–R365). -/

/-- A channel. -/
def World.chan (w : World) (h : Half) (c : Nat) : Track1 := NMap.get {} (w.gns.get h).ch c

/-- A channel changed. -/
def World.updChan (w : World) (h : Half) (c : Nat) (f : Track1 → Track1) : World :=
  w.updGnss h fun g => { g with ch := NMap.upd {} g.ch c f }

/-- The number of channels in RUN, shown in GNS_STATUS. -/
def World.countRun (w : World) (h : Half) : World :=
  w.wr h F.GNS_STATUS.CH_RUN 0 ((List.range 192).filter (fun c => w.rd h F.GNS_CH_STATUS.STATE c = 1)).length

/-- The baseband runs (R360, R372): on, not disabled in SERVICE, its RF island (35) not lost. -/
def World.baseband (w : World) (h : Half) : Bool :=
  (w.gns.get h).on && !(w.inService h && w.rd h F.GNS_CTRL.EN = 0) && !(w.run.get h).pwrGated.contains 35

/-- The channel's island has passed Cupping (R372). -/
def World.chanUp (w : World) (h : Half) (c : Nat) : Bool := w.baseband h && !(w.run.get h).pwrGated.contains (30 + c / 48)

/-- INT in ms (R386). -/
def intMs : Nat → Nat
  | 0 => 1
  | 1 => 2
  | 2 => 4
  | 3 => 5
  | 4 => 10
  | 5 => 20
  | _ => 0

/-- The primary code period of a signal, ms (R351, R363). -/
def codeMs : Nat → Nat
  | 1 => 20
  | 3 => 4
  | 6 => 10
  | _ => 1

/-- A channel's configuration lets it start (R363). -/
def World.chanCfgOk (w : World) (h : Half) (c : Nat) : Bool :=
  let i := intMs (w.rd h F.GNS_CH_CFG.INT c)
  let sp := w.rd h F.GNS_CH_CFG.SPACING c
  0 < i && i % codeMs (w.rd h F.GNS_CH_CFG.SIG c) = 0 && 1 ≤ sp && sp ≤ 32

/-- A channel started with given rates (R363, R358). -/
def World.startChan (w : World) (h : Half) (c : Nat) (carr : Int) (code : Nat) (handoff : Bool) : World :=
  if w.chanCfgOk h c then
    let w := w.updChan h c fun _ => { carr := carr, code := code, accAt := w.mt h }
    let w := ((w.wr h F.GNS_CH_STATUS.STATE c 1).wr h F.GNS_CH_STATUS.HANDOFF c (b2n handoff)).wr h F.GNS_CH_STATUS.CFG_ERR c 0
    ((w.wr h F.GNS_CH_STATUS.SEQ c 0).wr h F.GNS_CH_STATUS.UPD_LATE c 0).countRun h
  else w.wr h F.GNS_CH_STATUS.CFG_ERR c 1

/-- A channel stopped in a state: 0 IDLE, 2 KNOCKED. -/
def World.stopChan (w : World) (h : Half) (c st : Nat) : World := (w.wr h F.GNS_CH_STATUS.STATE c st).countRun h

/-- GNS_CH_CTRL.START: the selected channel starts from IDLE or KNOCKED with the committed rates (R363, R365). -/
def execChStart (h : Half) (init : Nat) (s : State) : Out := lift s fun w =>
  let c := w.sel h F.GNS_SEL.CH init
  if c < 192 && w.chanUp h c && w.rd h F.GNS_CH_STATUS.STATE c ≠ 1 then
    w.startChan h c (w.rdI h F.GNS_CH_CARR.RATE c) (w.rd h F.GNS_CH_CODE.RATE c) false
  else w

/-- GNS_CH_CTRL.STOP: to IDLE. -/
def execChStop (h : Half) (init : Nat) (s : State) : Out := lift s fun w =>
  let c := w.sel h F.GNS_SEL.CH init
  w.when (c < 192) fun w => w.stopChan h c 0

/-- A channel Knocked (R365): a running one stops in KNOCKED. -/
def World.knockChan (w : World) (h : Half) (c : Nat) : World :=
  w.when (c < 192 && w.rd h F.GNS_CH_STATUS.STATE c = 1) fun w => w.stopChan h c 2

/-- GNS_CH_CTRL.KNOCK. -/
def execChKnock (h : Half) (init : Nat) (s : State) : Out := lift s fun w => w.knockChan h (w.sel h F.GNS_SEL.CH init)

/-- GNS_CH_CODE written with `v`: CARR, CODE and SLEW are committed together for the next boundary (R364). -/
def execChCommit (h : Half) (init v : Nat) (s : State) : Out := lift s fun w =>
  let c := w.sel h F.GNS_SEL.CH init
  if c < 192 then
    let w := w.wr h F.GNS_CH_CODE.RATE c v
    let p : Commit := { carr := w.rdI h F.GNS_CH_CARR.RATE c, code := v, slew := w.rdI h F.GNS_CH_SLEW.CODE c
                        epochs := w.rd h F.GNS_CH_SLEW.EPOCHS c, at_ := w.mt h }
    w.updChan h c fun x => { x with pend := some p }
  else w

/-- Samples in a time, ns: 81.84 MS/s. -/
def samplesIn (t : Nat) : Rat := (((t : Nat)) : Rat) * 8184 / 100000

/-- A channel's phases carried to an instant with the rates in force (R362, R366). -/
def Track1.carry (x : Track1) (t : Nat) : Track1 :=
  let n := samplesIn (t - x.accAt)
  { x with codeAcc := x.codeAcc + ((x.code : Nat) : Rat) * n, carrAcc := x.carrAcc + ((x.carr : Int) : Rat) * n, accAt := t }

/-- A dump record written in the ring (R363), or dropped. `iq`: VE, E, P, L, VL, PD as I then Q; `flags` of the record. -/
def World.putDump (w : World) (h : Half) (c : Nat) (iq : List Int) (noise flags : Nat) : World :=
  let seq := (w.rd h F.GNS_CH_STATUS.SEQ c + 1) % 65536
  let w := w.wr h F.GNS_CH_STATUS.SEQ c seq
  let hd := w.rd h F.GNS_DUMP_HEAD.VALUE
  if 4096 ≤ (hd + 2 ^ 32 - w.rd h F.GNS_DUMP_TAIL.VALUE) % 2 ^ 32 then w.wr h F.GNS_STATUS.DUMP_OVF 0 1
  else
    let b := leBytes c 2 ++ leBytes seq 2 ++ leBytes (w.mt h) 8 ++ (List.range 12).flatMap (fun i => leBytes (toTwos 32 (iq.getD i 0)) 4) ++
      leBytes noise 2 ++ leBytes flags 2
    (w.putMem h 9 (w.rd h F.GNS_DUMP_BASE.VALUE + 64 * (hd % 4096)) b).wr h F.GNS_DUMP_HEAD.VALUE 0 ((hd + 1) % 2 ^ 32)

/-- A late update counted (R364): three consecutive ones raise EVT_GNS_LATE once, re-armed after 1 s without one. -/
def World.lateUpd (w : World) (h : Half) (c : Nat) : World :=
  let x := w.chan h c
  let rearm := x.lateAt + sec ≤ w.mt h
  let run := x.lateRun + 1
  let told := x.lateTold && !rearm
  let w := (w.bump h F.GNS_CNT.LATE).updChan h c fun x =>
    { x with lateRun := run, lateTold := told || decide (3 ≤ run), lateAt := w.mt h, lateSince := true }
  w.when (3 ≤ run && !told) fun w => w.raise h 212 (evArg c 0xFF 0)

/-- An integration boundary of channel `c` (R363, R364): a commit at least 20 µs old is applied, a later one waits one boundary more;
the dump is written. -/
def execChIntegrationDump (h : Half) (c : Nat) (iq : List Int) (noise : Nat) (s : State) : Out := lift s fun w =>
  if 192 ≤ c || w.rd h F.GNS_CH_STATUS.STATE c ≠ 1 then w
  else
    let t := w.mt h
    let x := (w.chan h c).carry t
    let nf := if w.notched h (w.rd h F.GNS_CH_CFG.SIG c) (w.rd h F.GNS_CH_CFG.ANT c) then 4 else 0
    match x.pend with
    | none => (w.updChan h c fun _ => { x with lateRun := 0 }).putDump h c iq noise nf
    | some p =>
      if t < p.at_ + 20 * us && !p.late then
        (w.updChan h c fun _ => { x with pend := some { p with late := true } }).putDump h c iq noise nf
      else
        let y := { x with carr := p.carr, code := p.code, pend := none
                          codeAcc := x.codeAcc + ((p.slew : Int) : Rat) * 2 ^ 28, lateRun := if p.late then x.lateRun else 0 }
        let w := (w.updChan h c fun _ => y).wr h F.GNS_CH_SLEW.CODE c 0
        let w := w.wr h F.GNS_CH_STATUS.UPD_LATE c (b2n p.late)
        let w := w.when p.late fun w => w.lateUpd h c
        w.putDump h c iq noise (1 + (if p.late then 2 else 0) + nf)

/-! Acquisition (R356–R360). Engine `e` is index 192 + e of the select. -/

/-- GNS_ACQ_CMD written with GO: the engine starts on its table, unless it is busy or the half does not search (R357, R372). -/
def execAcqGo (h : Half) (init v : Nat) (s : State) : Out := lift s fun w =>
  let c := w.sel h F.GNS_SEL.CH init
  if 192 ≤ c && c < 208 && w.baseband h && !(w.run.get h).pwrGated.contains 34 && !w.flag h F.GNS_ACQ_STATUS.BUSY (c - 192) then
    let e := c - 192
    let w := w.wr h F.GNS_ACQ_CMD.N e (bitsOf v 8 6)
    w.setReg h F.GNS_ACQ_STATUS.BUSY e (BitVec.ofNat 32 (2 ^ 31))
  else w

/-- An engine's table ends. -/
def World.acqDone (w : World) (h : Half) (e : Nat) (knocked : Bool) : World :=
  ((w.wr h F.GNS_ACQ_STATUS.BUSY e 0).wr h F.GNS_ACQ_STATUS.KNOCKED e (b2n knocked)).raise h 211 (evArg (192 + e) 0xFF (b2n knocked))

/-- The code rate a Doppler on a carrier gives, 2⁻³² chips per sample (R362 and the worked example): the Doppler scaled from the
carrier to the chip rate. -/
def codeRateOf (sig : Nat) (dop : Int) : Nat :=
  let carrier : Rat := match sig with
    | 0 => 157542
    | 1 => 122760
    | 2 => 117645
    | 3 => 157542
    | 4 => 117645
    | 5 => 120714
    | 6 => 157542
    | 7 => 117645
    | _ => 157542
  let chips : Rat := if sig = 2 || sig = 4 || sig = 5 || sig = 7 then 10230000 else 1023000
  let f := chips + ((dop : Int) : Rat) / 10 * chips / (carrier * 10000)
  roundN (f * 2 ^ 32 / 81840000)

/-- The carrier rate of a Doppler (0.1 Hz) with the signal's offset from its band centre, 2⁻³² cycles per sample (R362). -/
def carrRateOf (sig : Nat) (dop : Int) : Int :=
  roundR ((((dop : Int) : Rat) / 10 + (((sigBand sig).2 : Int) : Rat)) * 2 ^ 32 / 81840000)

/-- The entry in progress of engine `e` ends (R357, R358): the best cell's verification ratio decides HIT or MISS, and a HIT with HANDOFF
starts its channel if that one is IDLE. `cn0`, `ratio`, `code`, `dop`, `tEnd`: what the engine measured. -/
def execAcqEntryComplete (h : Half) (e cn0 ratio code : Nat) (dop : Int) (tEnd : Nat) (s : State) : Out := lift s fun w =>
  if 16 ≤ e || !w.flag h F.GNS_ACQ_STATUS.BUSY e then w
  else
    let i := w.rd h F.GNS_ACQ_STATUS.ENTRY e
    let a := w.rd h F.GNS_ACQ_TAB.ADDR e + 64 * i
    let bs := w.getMem h 0 a 64
    let hit : Bool := u16At bs 22 ≤ ratio
    let c := byteAt bs 24
    let hand := hit && bitOf (byteAt bs 3) 1
    let free := c < 192 && w.chanUp h c && w.rd h F.GNS_CH_STATUS.STATE c = 0
    let res := if !hit then 2 else if hand && !free then 4 else 1
    let w := w.putMem h 0 (a + 32) (leBytes res 1 ++ leBytes cn0 1 ++ leBytes ratio 2 ++ leBytes code 4 ++ leBytes (toTwos 32 dop) 4 ++
      leBytes 0 4 ++ leBytes tEnd 8)
    let w := w.when (hand && free) fun w =>
      let sig := byteAt bs 2
      let w := ((((w.wr h F.GNS_CH_CFG.SYS c (byteAt bs 0)).wr h F.GNS_CH_CFG.SV c (byteAt bs 1)).wr h F.GNS_CH_CFG.SIG c sig).wr
        h F.GNS_CH_CFG.ANT c (byteAt bs 3 % 2))
      let w := (w.wrI h F.GNS_CH_CARR.RATE c (carrRateOf sig dop)).wr h F.GNS_CH_CODE.RATE c (codeRateOf sig dop)
      w.startChan h c (carrRateOf sig dop) (codeRateOf sig dop) true
    let w := (w.bump h F.GNS_ACQ_STATUS.DONE e).when hit fun w => w.bump h F.GNS_ACQ_STATUS.HITS e
    if i = w.rd h F.GNS_ACQ_CMD.N e then w.acqDone h e false else w.wr h F.GNS_ACQ_STATUS.ENTRY e (i + 1)

/-- An engine Knocked (R365): its current and remaining entries are KNOCKED. -/
def World.knockAcq (w : World) (h : Half) (e : Nat) : World :=
  if e < 16 && w.flag h F.GNS_ACQ_STATUS.BUSY e then
    let i := w.rd h F.GNS_ACQ_STATUS.ENTRY e
    let n := w.rd h F.GNS_ACQ_CMD.N e
    (w.forAll (List.range' i (n + 1 - i)) fun w k => w.putMem h 0 (w.rd h F.GNS_ACQ_TAB.ADDR e + 64 * k + 32) (leBytes 3 1)).acqDone h e true
  else w

/-- GNS_ACQ_CMD.KNOCK. -/
def execAcqKnock (h : Half) (init : Nat) (s : State) : Out := lift s fun w =>
  let c := w.sel h F.GNS_SEL.CH init
  w.when (192 ≤ c) fun w => w.knockAcq h (c - 192)

/-! The common instant and the records (R366–R369). -/

/-- The measurement period, ns (R366). -/
def World.measPeriod (w : World) (h : Half) : Nat :=
  match w.rd h F.GNS_MEAS_CFG.RATE with
  | 0 => 100 * ms
  | 1 => 50 * ms
  | 2 => 20 * ms
  | _ => 10 * ms

/-- A measurement instant (R366, R367): every running channel's phases go into the latch table's other buffer. -/
def execMeasurementLatch (h : Half) (s : State) : Out := lift s fun w =>
  let per := w.measPeriod h
  let tm := w.mt h / per * per
  let b := ((w.gns.get h).latBuf + 1) % 2
  let entry (c : Nat) : List Byte :=
    if w.rd h F.GNS_CH_STATUS.STATE c = 1 then
      let x := (w.chan h c).carry tm
      leBytes c 1 ++ leBytes (1 + (if x.lateSince then 2 else 0)) 1 ++ leBytes 0 6 ++ leBytes (floorN x.codeAcc) 8 ++
        leBytes (toTwos 64 x.carrAcc.floor) 8 ++ leBytes (toTwos 32 x.carr) 4 ++ leBytes x.code 4
    else leBytes c 1 ++ leBytes 0 31
  let w := w.putMem h 6 (6144 * b) ((List.range 192).flatMap entry)
  let w := w.updGnss h fun g => { g with latBuf := b, tm := tm, ch := g.ch.map (fun x => (x.1, { x.2 with lateSince := false })) }
  let al := w.flag h F.XNG_STATUS.TSYNC_OK
  ((w.wr h F.GNS_LAT_BUF.VALUE 0 (6144 * b)).wr h F.GNS_LAT_SEQ.VALUE 0 (tm / (10 * ms))).wr h F.GNS_STATUS.ALIGNED 0 (b2n al)

/-- GNS_MEAS_CFG written (R366): ELEV_MASK at once when it is at most 30; RATE in the serving half, for the next whole second. -/
def execMeasRateWrite (h : Half) (_init v : Nat) (s : State) : Out := lift s fun w =>
  let w := w.when (bitsOf v 8 8 ≤ 30) fun w => w.wr h F.GNS_MEAS_CFG.ELEV_MASK 0 (bitsOf v 8 8)
  if s.own.serves h && bitsOf v 0 2 ≠ w.rd h F.GNS_MEAS_CFG.RATE then w.updGnss h fun g => { g with rate := some (bitsOf v 0 2) } else w

/-- The scheduled rate takes effect in both halves (R366). -/
def execMeasRateApply (s : State) : Out := lift s fun w =>
  match (w.gns.a.rate <|> w.gns.b.rate) with
  | some r =>
    let w := (w.updGnss .A fun g => { g with rate := none }).updGnss .B fun g => { g with rate := none }
    w.wrBoth F.GNS_MEAS_CFG.RATE 0 r
  | none => w

/-- The key of a signal on an antenna. -/
def MEntry.key (e : MEntry) : Nat := ((e.sys * 256 + e.sv) * 16 + e.sig) * 2 + e.ant

/-- An exclusion (R375): the first of a signal for a reason is reported. -/
def World.exclude (w : World) (h : Half) (key reason ch : Nat) : World :=
  let g := w.gns.get h
  let w := w.updGnss h fun g => { g with
    excl := (key, reason, w.mt h) :: g.excl.filter (fun x => !(x.1 = key && x.2.1 = reason)) }
  if g.seen.contains (key, reason) then w
  else (w.updGnss h fun g => { g with seen := (key, reason) :: g.seen }).raise h 213 (evArg ch 0xFF reason)

/-- The reason that excludes a signal now (R375): by its own measurement, or one in force. -/
def World.exclOf (w : World) (h : Half) (e : MEntry) : Nat :=
  let held (r : Nat) : Bool := (w.gns.get h).excl.any (fun x => x.1 = e.key && x.2.1 = r)
  if e.elev < 100 * ((w.rd h F.GNS_MEAS_CFG.ELEV_MASK : Nat) : Int) then 1
  else if e.cn0 < 2500 then 2
  else if e.slip || e.lock < 200 then 3
  else if held 4 then 4
  else if held 5 then 5
  else if e.noEph then 6
  else if w.rd h F.GNS_RF.JAM (chainOf e.sig e.ant) = 2 then 7
  else 0

/-- An entry with its flags and exclusion (R354, R355, R369, R375). -/
def World.markEntry (w : World) (h : Half) (e : MEntry) : MEntry :=
  let x := w.exclOf h e
  { e with excl := x
           flags := e.ant + (if e.pll then 2 else 0) + (if e.half then 4 else 0) + (if e.slip then 8 else 0) +
             (if w.notched h e.sig e.ant then 16 else 0) + (if w.rd h F.GNS_RF.JAM (chainOf e.sig e.ant) = 2 then 32 else 0) +
             (if x ≠ 0 then 64 else 0) }

/-- The bytes of an entry. -/
def MEntry.bytes (e : MEntry) : List Byte :=
  leBytes e.sys 1 ++ leBytes e.sv 1 ++ leBytes e.sig 1 ++ leBytes e.flags 1 ++ leBytes e.pr 8 ++ leBytes e.adr 8 ++ leBytes e.dop 4 ++
    leBytes e.cn0 2 ++ leBytes e.lock 2 ++ leBytes e.ch 1 ++ leBytes e.excl 1 ++ leBytes (toTwos 16 e.elev) 2

/-- The bytes of a record (R369). -/
def MRec.bytes (r : MRec) : List Byte :=
  let b := bytesOf [0x47, 0x4D] ++ leBytes r.half.code 1 ++
    leBytes (b2n r.aligned + 2 * b2n r.clk + 4 * b2n r.suspect) 1 ++ leBytes r.entries.length 2 ++ leBytes r.rate 2 ++ leBytes r.t 8 ++
    leBytes (toTwos 64 r.bias) 8 ++ leBytes (toTwos 32 r.drift) 4 ++ leBytes (r.t / (10 * ms)) 4 ++ r.entries.flatMap (·.bytes)
  b ++ leBytes (crc32c b) 4

/-- A record not produced or not complete in time (R368, R369). -/
def World.missEpoch (w : World) (h : Half) : World := (w.bump h F.GNS_CNT.EPOCH).raise h 220 (evArg 0xFF 0xFF 0)

/-- The measurement record of the last instant is complete (R369): kept, and sent to the sibling; after t_m + 3 ms it is not sent.
`entries`: what the loops measured; `bias` ps, `drift` ps/s, `clk`: their validity. -/
def execMeasurementRecord (h : Half) (entries : List MEntry) (bias drift : Int) (clk : Bool) (s : State) : Out := lift s fun w =>
  let tm := (w.gns.get h).tm
  let late : Bool := tm + 3 * ms < w.mt h
  if !w.baseband h then w
  else if late then w.missEpoch h
  else
    let es := (entries.take 192).map (w.markEntry h)
    let w := w.forAll (es.filter (fun e => e.excl ≠ 0 && e.excl ≠ 4 && e.excl ≠ 5)) fun w e =>
      if (w.gns.get h).seen.contains (e.key, e.excl) then w
      else (w.updGnss h fun g => { g with seen := (e.key, e.excl) :: g.seen }).raise h 213 (evArg e.ch 0xFF e.excl)
    let r : MRec := { half := h, aligned := w.flag h F.GNS_STATUS.ALIGNED, suspect := w.flag h F.GNS_STATUS.BB_SUSPECT, t := tm
                      bias := bias, drift := drift, clk := clk, rate := sec / w.measPeriod h, entries := es }
    let g := w.gns.get h
    let a := if w.rd h F.GNS_MREC_OWN.VALUE = 0x10000 then 0x18000 else 0x10000
    ((w.putMem h 7 a r.bytes).updGnss h fun _ => { g with own := some r, sent := some r }).wr h F.GNS_MREC_OWN.VALUE 0 a

/-! The cross-half check (R371, R373). -/

/-- The median of a list (the lower of the two middle ones). -/
def medianR (l : List Rat) : Rat := (sortBy (fun a b => decide (a ≤ b)) l).getD ((l.length - 1) / 2) 0

/-- The pairs of entries of one signal in two records. -/
def commonSignals (a b : MRec) : List (MEntry × MEntry) :=
  a.entries.filterMap (fun e => (b.entries.find? (fun f => f.key = e.key)).map (fun f => (e, f)))

/-- The carrier of a signal: signals of one carrier frequency share a fractional offset (R371). -/
def carrierOf (sig : Nat) : Nat :=
  match sig with
  | 1 => 1
  | 2 => 2
  | 4 => 2
  | 5 => 3
  | 7 => 2
  | _ => 0

/-- The integer map entries of the common signals (R371). -/
def ambMap (ps : List (MEntry × MEntry)) : List (Nat × Int) :=
  let d (p : MEntry × MEntry) : Rat := f64Val p.1.adr - f64Val p.2.adr
  let frac (x : Rat) : Rat := x - ((x.floor : Int) : Rat)
  let med (c : Nat) : Rat := medianR ((ps.filter (fun p => carrierOf p.1.sig = c)).map (fun p => frac (d p)))
  (ps.filter (fun p => p.1.half && p.2.half && !p.1.slip && !p.2.slip && 1000 ≤ p.1.lock && 1000 ≤ p.2.lock)).map
    (fun p => (p.1.key, (roundR (d p - med (carrierOf p.1.sig)))))

/-- A sibling's record arrives (R369, R373): kept; on ALIGNED epochs each signal's pseudorange difference and map entry are checked. On a
broad disagreement the residual tests `ownOk`, `sibOk` (R374) decide. -/
def execSiblingRecordReceived (h : Half) (ownOk sibOk : Bool) (s : State) : Out := lift s fun w =>
  match (w.gns.get h.other).sent with
  | none => w
  | some r =>
    let a := if w.rd h F.GNS_MREC_SIB.VALUE = 0x20000 then 0x28000 else 0x20000
    let w := ((w.putMem h 7 a r.bytes).updGnss h fun g => { g with sib := some r }).wr h F.GNS_MREC_SIB.VALUE 0 a
    match (w.gns.get h).own with
    | none => w
    | some o =>
      if !(o.aligned && r.aligned && o.t = r.t) then w
      else
        let ps := commonSignals o r
        let d (p : MEntry × MEntry) : Rat := f64Val p.1.pr - f64Val p.2.pr
        let med := medianR (ps.map d)
        let amb := ambMap ps
        let old := (w.gns.get h).amb
        let moved (k : Nat) : Bool := match amb.find? (fun x => x.1 = k), old.find? (fun x => x.1 = k) with
          | some x, some y => x.2 ≠ y.2
          | _, _ => false
        let bad := ps.filter (fun p => decide (5 < absR (d p - med)) || moved p.1.key)
        let w := w.updGnss h fun g => { g with amb := amb }
        if ps.length ≤ 4 * bad.length && !bad.isEmpty then
          let w := w.raise h 214 (evArg 0xFF 0xFF 1)
          let w := w.when (!ownOk) fun w =>
            (w.wr h F.GNS_STATUS.BB_SUSPECT 0 1).updGnss h fun g => { g with suspectAt := w.mt h }
          w.updGnss h fun g => { g with capped := ownOk = sibOk }
        else
          let w := w.updGnss h fun g => { g with capped := false }
          w.forAll bad fun w p => ((w.exclude h p.1.key 4 p.1.ch).bump h F.GNS_CNT.XHALF).raise h 214 (evArg p.1.ch 0xFF 0)

/-- A suspect baseband has passed its residual test for 60 s (R373). -/
def execBbSuspectClear (h : Half) (s : State) : Out := lift s fun w =>
  w.when ((w.gns.get h).suspectAt + 60 * sec ≤ w.mt h) fun w => w.wr h F.GNS_STATUS.BB_SUSPECT 0 0

/-- An excluded measurement's readmission time has passed (R373: 10 s; R374: 30 s). -/
def execExclusionReadmit (h : Half) (key reason : Nat) (s : State) : Out := lift s fun w =>
  let t := if reason = 5 then 30 * sec else if reason = 4 then 10 * sec else 2 * sec
  w.updGnss h fun g => { g with excl := g.excl.filter (fun x => !(x.1 = key && x.2.1 = reason && decide (x.2.2 + t ≤ w.mt h))) }

/-! Corrections (R376–R380). -/

/-- `n` steps of the CRC-24Q register. -/
def crc24Shift : Nat → Nat → Nat
  | 0, c => c
  | n + 1, c => crc24Shift n (let d := 2 * c; if bitOf d 24 then (d % 2 ^ 24) ^^^ 0x864CFB else d)

/-- CRC-24Q of a list of bytes (R376; the standard is named, log entry 12). -/
def crc24q (bs : List Byte) : Nat := bs.foldl (fun c b => crc24Shift 8 (c ^^^ (b.toNat * 65536))) 0

/-- `n` bits of a frame's payload from bit `i`, most significant first. -/
def beBits (bs : List Byte) (i n : Nat) : Nat :=
  (List.range n).foldl (fun a k => 2 * a + b2n (bitOf (byteAt bs ((i + k) / 8)) (7 - (i + k) % 8))) 0

/-- The message type of an RTCM payload. -/
def rtcmType (pl : List Byte) : Nat := beBits pl 0 12

/-- MSM4–MSM7 of GPS, Galileo, QZSS or BeiDou (R376). -/
def isMsm (t : Nat) : Bool := (1074 ≤ t && t ≤ 1077) || (1094 ≤ t && t ≤ 1097) || (1114 ≤ t && t ≤ 1117) || (1124 ≤ t && t ≤ 1127)

/-- The satellites of an MSM message: the ones in its 64-bit mask (log entry 12). -/
def msmSats (pl : List Byte) : Nat := ((List.range 64).filter (fun i => beBits pl (73 + i) 1 = 1)).length

/-- The station and position (0.1 mm) of a 1005 or 1006 message (log entry 12). -/
def stationOf (pl : List Byte) : Nat × Int × Int × Int :=
  (beBits pl 12 12, signed 38 (beBits pl 34 38), signed 38 (beBits pl 74 38), signed 38 (beBits pl 114 38))

/-- Source `s` is valid (R378). -/
def CSrc.valid (x : CSrc) (now : Nat) : Bool :=
  (match x.msmAt with | some t => decide (now ≤ t + 2 * sec) | none => false) &&
    (match x.refAt with | some t => decide (now ≤ t + 30 * sec) | none => false)

/-- The active source chosen (R378), with its event. -/
def World.corrEval (w : World) (h : Half) : World :=
  let now := w.mt h
  let w := w.updGnss h fun g => { g with src := g.src.map (fun x =>
    (x.1, { x.2 with validAt := if x.2.valid now then some (x.2.validAt.getD now) else none })) }
  let g := w.gns.get h
  let pr (k : Nat) : Nat := bitsOf (w.rd h F.GNS_CORR_CFG.PRIO) (2 * k) 2
  let ok := (List.range 4).filter (fun k => (NMap.get {} g.src k).valid now)
  let best (l : List Nat) : Option Nat := l.foldl (fun a k => match a with
    | some b => if pr k < pr b then some k else a
    | none => some k) none
  let long (k : Nat) : Bool := match (NMap.get {} g.src k).validAt with
    | some t => decide (t + 10 * sec ≤ now)
    | none => false
  let new := match g.active with
    | some a => if ok.contains a then best ([a] ++ ok.filter (fun k => pr k < pr a && long k)) else best ok
    | none => best ok
  let mask := ok.foldl (fun a k => a + 2 ^ k) 0
  let w := ((w.wr h F.GNS_CORR_STAT.VALID 0 mask).wr h F.GNS_CORR_STAT.ANY_VALID 0 (b2n (!ok.isEmpty))).wr
    h F.GNS_CORR_STAT.ACTIVE 0 (new.getD 0)
  let w := w.when (new ≠ g.active) fun w => w.raise h 217 (evArg (new.getD 0xFF) 0xFF 0)
  w.updGnss h fun g => { g with active := new }

/-- The reference station of the active source (R379): a new station, or one that moved by more than 0.1 m, discards the ambiguities. -/
def World.newStation (w : World) (h : Half) (st : Nat × Int × Int × Int) : World :=
  let g := w.gns.get h
  let far (a b : Nat × Int × Int × Int) : Bool :=
    let d (x y : Int) : Int := (x - y) * (x - y)
    a.1 ≠ b.1 || 1000000 < d a.2.1 b.2.1 + d a.2.2.1 b.2.2.1 + d a.2.2.2 b.2.2.2
  let changed := match g.station with
    | some o => far st o
    | none => false
  let w := w.updGnss h fun g => { g with station := some st, fixedRun := if changed then 0 else g.fixedRun }
  w.when changed fun w =>
    let w := w.when (w.rd h F.GNS_STATUS.Q = 4) fun w => (w.wr h F.GNS_STATUS.Q 0 3).raise h 215 (evArg 0xFF 0xFF 3)
    w.raise h 218 (evArg (g.active.getD 0xFF) 0xFF 0)

/-- A frame taken into a half's source `k` (R377, R378). -/
def World.takeFrame (w : World) (h : Half) (k : Nat) (bs : List Byte) : World :=
  let pl := slice bs 3 (bs.length - 6)
  let t := rtcmType pl
  let now := w.mt h
  let w := w.updGnss h fun g => { g with src := NMap.upd {} g.src k fun x => { x with
    frames := (now, bs) :: x.frames.filter (fun f => decide (now ≤ f.1 + 2 * sec))
    msmAt := if isMsm t && 4 ≤ msmSats pl then some now else x.msmAt
    refAt := if t = 1005 || t = 1006 then some now else x.refAt } }
  let w := w.corrEval h
  let act := (w.gns.get h).active = some k
  let w := w.when (isMsm t && act) fun w => w.updGnss h fun g => { g with usedAt := some now }
  if (t = 1005 || t = 1006) && act then w.newStation h (stationOf pl) else w

/-- Whether the module uses a message type (R376). -/
def usesType (t : Nat) : Bool := isMsm t || t = 1005 || t = 1006 || t = 1019 || t = 1042 || t = 1044 || t = 1046

/-- GNS_CORR_CMD written (R377): the frame at GNS_CORR_ADDR is checked, copied and forwarded to the sibling. -/
def execCorrectionFrame (h : Half) (_init v : Nat) (s : State) : Out := lift s fun w =>
  let k := bitsOf v 16 2
  let n := bitsOf v 0 11
  let bs := w.getMem h 0 (w.rd h F.GNS_CORR_ADDR.ADDR) n
  let res := if w.flag h F.GNS_CORR_STAT.BUSY then 5
    else if n < 6 || 1029 < n || byteAt bs 0 ≠ 0xD3 || (byteAt bs 1 % 4) * 256 + byteAt bs 2 + 6 ≠ n then 1
    else if crc24q (bs.take (n - 3)) ≠ byteAt bs (n - 3) * 65536 + byteAt bs (n - 2) * 256 + byteAt bs (n - 1) then 2
    else if (NMap.get {} (w.gns.get h).src k).frames.any (fun f => f.2 = bs && decide (w.mt h ≤ f.1 + 2 * sec)) then 4
    else if !usesType (rtcmType (slice bs 3 (n - 6))) then 3
    else 0
  let w := w.wr h F.GNS_CORR_STAT.RES 0 res
  if res = 0 || res = 3 then
    let w := w.takeFrame h k bs
    let dup := (NMap.get {} (w.gns.get h.other).src k).frames.any (fun f => f.2 = bs && decide (w.mt h.other ≤ f.1 + 2 * sec))
    w.when (w.rd h F.XNG_STATUS.UP = 1 && !dup) fun w => w.takeFrame h.other k bs
  else w

/-- A source ages out, or a higher one has been valid for 10 s (R378). -/
def execCorrectionSourceTimeout (h : Half) (s : State) : Out := lift s fun w => w.corrEval h

/-- Carrier solutions may use the corrections (R380). -/
def World.corrFresh (w : World) (h : Half) : Bool :=
  match (w.gns.get h).usedAt with
  | some t => decide (w.mt h ≤ t + w.rd h F.GNS_CORR_CFG.AGE_MAX * sec)
  | none => false

/-! Position, heading, pose (R370, R381–R385). -/

/-- The engines that run in a half (R370). `pair`: a sibling serves or stands by with Bloom complete, and the Crossing is UP. -/
def World.setEngines (w : World) (h : Half) (pos hdg : Bool) : World :=
  let p0 := w.flag h F.GNS_STATUS.POSITION_ENG
  let h0 := w.flag h F.GNS_STATUS.HEADING_ENG
  let w := (w.wr h F.GNS_STATUS.POSITION_ENG 0 (b2n pos)).wr h F.GNS_STATUS.HEADING_ENG 0 (b2n hdg)
  let w := w.when (p0 != pos) fun w => w.raise h 222 (evArg 0 0xFF (b2n pos))
  w.when (h0 != hdg) fun w => w.raise h 222 (evArg 1 0xFF (b2n hdg))

/-- The division of the engines made anew (R370). -/
def World.engines (w : World) (own : Own) : World :=
  let one (w : World) (h : Half) : World :=
    if !(w.gns.get h).on then w.setEngines h false false
    else
      let pair := own.alive h.other && (w.gns.get h.other).on && w.flag h.other F.STW_STAGE.BLOOM_DONE && own.server.isSome &&
        w.rd h F.XNG_STATUS.UP = 1
      let single := (w.run.get h).pwrGated.contains 35 || w.flag h F.GNS_STATUS.BB_SUSPECT
      let w := w.wr h F.GNS_STATUS.BB_SINGLE 0 (b2n (single || !pair))
      if pair then w.setEngines h (own.serves h) (!own.serves h) else w.setEngines h true true
  one (one w .A) .B

/-- The quality a solution's condition gives (R380, R381). -/
def World.solQuality (w : World) (h : Half) (x : Sol) : Nat :=
  let fresh := w.corrFresh h
  let code : Bool := 4 ≤ x.sats && (x.systems < 2 || 5 ≤ x.sats)
  let float : Bool := x.carrier && 5 ≤ x.common && fresh
  let q := if !x.pass then 0
    else if float && 300 ≤ x.ratio && 6 ≤ x.dd then 4
    else if float then 3
    else if (4 ≤ x.dgnss && fresh) || 4 ≤ x.sbas then 2
    else if code then 1
    else 0
  if (w.gns.get h).capped then min q 1 else q

/-- The quality published: RTK_FIXED after 3 consecutive epochs that meet its condition (R381). -/
def World.setQ (w : World) (h : Half) (q : Nat) : World :=
  let run := if q = 4 then (w.gns.get h).fixedRun + 1 else 0
  let was := w.rd h F.GNS_STATUS.Q
  let new := if q = 4 && was ≠ 4 && run < 3 then 3 else q
  let w := w.updGnss h fun g => { g with fixedRun := run, posQ := new, posAt := if 1 ≤ new then some (w.mt h) else g.posAt }
  let w := w.wr h F.GNS_STATUS.Q 0 new
  w.when (was ≠ new) fun w => w.raise h 215 (evArg 0xFF 0xFF new)

/-- A coordinate in 1e-9° as its 1e-7° field and the rest. -/
def split7 (x : Int) : Int × Int := let q := (x + 50) / 100; (q, x - 100 * q)

/-- A solution shown in a half's registers. -/
def World.showSol (w : World) (h : Half) (x : Sol) : World :=
  let (la, lf) := split7 x.lat
  let (lo, of) := split7 x.lon
  let w := ((w.wrI h F.GNS_POS_LAT.VALUE 0 la).wrI h F.GNS_POS_LON.VALUE 0 lo).wrI h F.GNS_POS_HGT.VALUE 0 x.hgt
  let w := ((w.wrI h F.GNS_POS_FINE.LAT_F 0 lf).wrI h F.GNS_POS_FINE.LON_F 0 of).wr h F.GNS_POS_FINE.SIG_H 0 (satTo 16 x.sigH)
  ((w.wr h F.GNS_POS_VEL.SPEED 0 (satTo 16 x.speed)).wr h F.GNS_POS_VEL.COURSE 0 x.course).wr h F.GNS_STATUS.SV_USED 0 (satTo 8 x.sats)

/-- The position engine publishes a solution (R374, R381); the sibling has it within 2 ms (R370). MODULE sources 0 and 1 follow (R256). -/
def execPositionSolution (h : Half) (x : Sol) (s : State) : Out := lift s fun w =>
  if !w.flag h F.GNS_STATUS.POSITION_ENG then w
  else
    let w := w.forAll (x.raim.take 3) fun w c =>
      match ((w.gns.get h).own.map (·.entries)).getD [] |>.find? (fun e => e.ch = c) with
      | some e => (w.exclude h e.key 5 c).bump h F.GNS_CNT.RAIM
      | none => w
    let q := w.solQuality h x
    let one (w : World) (k : Half) : World :=
      let w := w.setQ k q
      let w := w.when (q ≠ 0) fun w => w.showSol k x
      (w.moduleWrite s.srv k 0 (1 ≤ q) ((((x.speed : Nat)) : Rat) / 1000)).moduleWrite s.srv k 1 (1 ≤ q) ((((x.course : Nat)) : Rat) / 100)
    let w := one w h
    w.when (w.rd h F.XNG_STATUS.UP = 1 && !w.flag h.other F.GNS_STATUS.POSITION_ENG) fun w => one w h.other

/-- The heading engine solves the baseline (R383): ratio 0.01, satellites common to the antennas, fixed length mm, azimuth 0.001°,
1σ 0.001°. The Ledger's baseline and yaw offset apply; a baseline changed by more than 1 mm discards the fix. -/
def execHeadingSolution (h : Half) (ratio common len : Nat) (az : Int) (sig : Nat) (s : State) : Out := lift s fun w =>
  if !w.flag h F.GNS_STATUS.HEADING_ENG then w
  else
    let e := ledgerEntry s.ledger 5 0
    let base : Option Rat := e.map (fun b => f32At b 0 * 1000)
    let yaw : Rat := (e.map (fun b => f32At b 4)).getD 0
    let moved := match base, (w.gns.get h).base with
      | some b, some o => decide (1 < absR (b - o))
      | _, _ => false
    let ok := match base with
      | some b => !moved && decide (300 ≤ ratio) && decide (5 ≤ common) && decide (absR ((((len : Nat)) : Rat) - b) ≤ 20)
      | none => false
    let deg : Rat := ((az : Int) : Rat) / 1000 - yaw * 180 / piR
    let hd := ((roundR (deg * 100)) % 36000).toNat
    let one (w : World) (k : Half) : World :=
      let was := w.flag k F.GNS_STATUS.HDG_OK
      let w := (w.wr k F.GNS_STATUS.HDG_OK 0 (b2n ok)).wr k F.GNS_HDG.VALID 0 (b2n ok)
      let w := w.when ok fun w => (w.wr k F.GNS_HDG.HDG 0 hd).wr k F.GNS_HDG.SIG 0 (satTo 15 sig)
      w.when (was != ok) fun w => w.raise k 216 (evArg 0xFF 0xFF (b2n ok))
    let w := w.updGnss h fun g => { g with base := base }
    let w := one w h
    w.when (w.rd h F.XNG_STATUS.UP = 1 && !w.flag h.other F.GNS_STATUS.HEADING_ENG) fun w => one w h.other

/-- Trust in the fused pose judged (R385). -/
def World.judgeTrust (w : World) (h : Half) (p : Pose) : World :=
  let g := w.gns.get h
  let was := w.flag h F.GNS_STATUS.TRUSTED
  let src := !g.imuBad || g.imuSib
  let recent := match g.posAt with
    | some t => decide (w.mt h ≤ t + 10 * sec)
    | none => false
  let ok := src && recent && (if was then p.sigH ≤ 500 && p.sigPsi ≤ 1000 else p.sigH ≤ 300 && p.sigPsi ≤ 600 && decide (1 ≤ g.posQ))
  let w := w.wr h F.GNS_STATUS.TRUSTED 0 (b2n ok)
  let w := w.when (was != ok) fun w => w.raise h 219 (evArg 0xFF 0xFF (b2n ok))
  w.poseTrust h ok

/-- The bytes of a pose record (R384). -/
def Pose.bytes (p : Pose) : List Byte :=
  let (la, lf) := split7 p.lat
  let (lo, of) := split7 p.lon
  let b := leBytes p.t 8 ++ leBytes (toTwos 32 la) 4 ++ leBytes (toTwos 32 lo) 4 ++ leBytes (toTwos 8 lf) 1 ++ leBytes (toTwos 8 of) 1 ++
    leBytes 0 2 ++ leBytes (toTwos 32 p.hgt) 4 ++ leBytes p.hdg 4 ++ leBytes (toTwos 16 p.pitch) 2 ++ leBytes (toTwos 16 p.roll) 2 ++
    leBytes (toTwos 16 p.speed) 2 ++ leBytes (toTwos 16 p.yaw) 2 ++ leBytes p.sigH 2 ++ leBytes p.sigPsi 2 ++ leBytes p.q 1 ++
    leBytes p.flags 1 ++ leBytes 0 18
  b ++ leBytes (crc32c b) 4

/-- The pose filter publishes (R384, R385). `p`: what the filter gives (its time, quality and flags are set here); `slew`: it slews out a
step of the reference (R379). -/
def execPosePublish (h : Half) (p : Pose) (slew : Bool) (s : State) : Out := lift s fun w =>
  let t := w.mt h / (10 * ms) * (10 * ms)
  let w := w.judgeTrust h p
  let g := w.gns.get h
  let p := { p with t := t, q := g.posQ
                    flags := b2n (w.flag h F.GNS_STATUS.TRUSTED) + 2 * b2n (w.flag h F.GNS_STATUS.HDG_OK) + 4 * b2n g.imuSib + 8 * b2n slew }
  let i := (g.pse + 1) % 128
  let w := ((w.putMem h 8 (64 * i) p.bytes).updGnss h fun g => { g with pse := i }).wr h F.GNS_PSE_BUF.ADDR 0 (64 * i)
  let w := { w with pose := w.pose.set h (some p) }
  let src := !g.imuBad || g.imuSib
  let m (w : World) (k : Nat) (v : Int) : World := w.moduleWrite s.srv h k src (((v : Int) : Rat) / 100)
  m (m (m w 2 p.yaw) 3 p.pitch) 4 p.roll

/-- The half's inertial unit faults, or works again (R384): the filter uses the sibling's samples while they arrive. -/
def execImuFault (h : Half) (bad : Bool) (s : State) : Out := lift s fun w =>
  let g := w.gns.get h
  let sib := bad && s.own.alive h.other && w.rd h F.XNG_STATUS.UP = 1 && !(w.gns.get h.other).imuBad
  let w := w.updGnss h fun g => { g with imuBad := bad, imuSib := sib }
  let w := w.when (g.imuBad != bad || g.imuSib != sib) fun w => w.raise h 221 (evArg 0xFF 0xFF (b2n bad))
  if bad && !sib && w.flag h F.GNS_STATUS.TRUSTED then
    ((w.wr h F.GNS_STATUS.TRUSTED 0 0).raise h 219 (evArg 0xFF 0xFF 0)).poseTrust h false
  else w

/-- GNS_CTRL.COLD: the stored aiding is discarded, in SERVICE only (R360). -/
def execGnssCold (h : Half) (_init : Nat) (s : State) : Out := lift s fun w =>
  w.when (w.inService h) fun w => w.updGnss h fun g => { g with stored := none }

/-- GNS_CTRL.CLR_CNT. -/
def execGnsClrCnt (h : Half) (_init : Nat) (s : State) : Out := lift s fun w => w.setReg h F.GNS_CNT.LATE 0 0

/-- The aiding written to flash at shutdown (R360). -/
def World.storeAiding (w : World) (h : Half) : World :=
  let a : Aiding := { lat := w.rdI h F.GNS_POS_LAT.VALUE * 100, lon := w.rdI h F.GNS_POS_LON.VALUE * 100
                      drift := (((w.gns.get h).own.map (·.drift)).getD 0), at_ := w.mt h }
  w.updGnss h fun g => { g with stored := some a }

/-- The baseband starts (R360, Bloom step 4). -/
def World.gnssOn (w : World) (h : Half) : World := w.updGnss h fun g => { g with on := true }

/-- No record is produced for an instant whose period contains a step of module time (R368). -/
def World.gnssStep (w : World) (h : Half) : World := w.when ((w.gns.get h).on) fun w => w.missEpoch h

end Sys2Proof.Machine
end

