-- ==== Sys2Proof/Machine/FlxCore.lean ====
section
/-!
DEFINITION. The sending side of the Fleet Exchange: messages, yield tiles, and what a change of the serving half does to the sessions
(R442, R447, R448).
-/
namespace Sys2Proof.Machine

/-- The Fleet Exchange of a half changed. -/
def World.updFlx (w : World) (h : Half) (f : Flx → Flx) : World := { w with flx := w.flx.upd h f }

/-- The session of a slot. -/
def World.fsess (w : World) (h : Half) (k : Nat) : Sess := NMap.get {} (w.flx.get h).slot k

/-- The session of a slot replaced. -/
def World.setFsess (w : World) (h : Half) (k : Nat) (x : Sess) : World := w.updFlx h fun q => { q with slot := NMap.set {} q.slot k x }

/-- The state of a slot: 0 IDLE, 1 CONNECTING, 2 HANDSHAKE, 3 OPEN, 4 CLOSING. -/
def World.fstate (w : World) (h : Half) (k : Nat) : Nat := w.rd h F.FLX_SESS.STATE k

/-- A message (R442): header and payload. -/
def flxMessage (ty seq ack : Nat) (payload : List Byte) : List Byte :=
  bytesOf [0x46, 0x58, 1] ++ leBytes ty 1 ++ leBytes payload.length 4 ++ leBytes seq 4 ++ leBytes ack 4 ++ payload

/-- A message sent on a session. -/
def Sess.send (x : Sess) (now ty : Nat) (payload : List Byte) : Sess :=
  { x with seqTx := x.seqTx + 1, lastTx := now, records := x.records + 1, out := flxMessage ty (x.seqTx + 1) x.seqRx payload }

/-- A message sent on the session of a slot. -/
def World.flxSend (w : World) (h : Half) (k ty : Nat) (payload : List Byte) : World :=
  w.setFsess h k ((w.fsess h k).send w.now ty payload)

/-- UNACKED of a slot (R450). -/
def World.flxUnacked (w : World) (h : Half) (k : Nat) : World :=
  w.wr h F.FLX_SESS.UNACKED k (satTo 16 (w.fsess h k).unacked.length)

/-- The ring record of a tile (R287). -/
def World.tileBytes (w : World) (h : Half) (seq : Nat) : List Byte :=
  w.getMem h 3 (w.rd h F.SET_YLD_RING_BASE.VALUE + 64 * (seq % 4096)) 64

/-- One YIELD_TILES message with the tiles `a` … `a + n − 1` (R443). -/
def World.sendTiles (w : World) (h : Half) (a n : Nat) : World :=
  let w := w.flxSend h 0 0x10 (leBytes n 4 ++ (List.range' a n).flatMap (w.tileBytes h))
  let x := w.fsess h 0
  let w := w.setFsess h 0 { x with unacked := x.unacked ++ [(x.seqTx, a + n - 1)] }
  (w.updFlx h fun q => { q with tileSent := a + n - 1 }).flxUnacked h 0

/-- The published tiles not yet sent, 32 at most a message, of those the ring still holds. -/
def World.sendAllTiles : Nat → World → Half → World
  | 0, w, _ => w
  | n + 1, w, h =>
    let head := w.rd h F.SET_YLD_RING_HEAD.VALUE
    let a := max ((w.flx.get h).tileSent + 1) (head + 1 - 4096)
    if head < a then w else World.sendAllTiles n (w.sendTiles h a (min 32 (head + 1 - a))) h

/-- Tiles go to slot 0 while its session is open (R447). -/
def World.flxTiles (w : World) (h : Half) : World := w.when (w.fstate h 0 = 3) fun w => World.sendAllTiles 129 w h

/-- The ring has overwritten the tile 4096 before a new one (R447). -/
def World.flxTileOver (w : World) (h : Half) (seq : Nat) : World :=
  w.when (w.rd h F.FLX_YLD.ACKED + 4096 < seq) fun w => (w.bump h F.FLX_CNT.TILE_LOST).raise h 199 (evArg 0 0xFF 0)

/-- A slot begins a client session: CONNECTING. -/
def World.flxConnect (w : World) (h : Half) (k ip port : Nat) : World :=
  let w := w.setFsess h k { client := true, ip := ip, port := port, keyAt := w.now, lastTx := w.now, lastRx := w.now }
  ((w.wr h F.FLX_SESS.STATE k 1).wr h F.FLX_SESS.CLIENT k 1).wr h F.FLX_SESS.UNACKED k 0

/-- A half is granted SERVER (R448): the client sessions of its mirror are opened again; tiles are sent again from FLX_YLD + 1. -/
def World.flxServe (w : World) (h : Half) : World :=
  let w := w.updFlx h fun q => { q with tileSent := w.rd h F.FLX_YLD.ACKED }
  w.when (w.flag h F.FLX_CTRL.EN) fun w =>
    w.forAll ((w.flx.get h).peers.filter (fun p => w.fstate h p.1 = 0)) fun w p => w.flxConnect h p.1 p.2.1 p.2.2

end Sys2Proof.Machine
end

