-- ==== Sys2Proof/Machine/Ledger.lean ====
section
/-!
DEFINITION. Writing the Ledger: its lock, its journal, its commands (R518–R524).
-/
namespace Sys2Proof.Machine

/-! The journal (R519, R520): 48 records of 80 bytes from 0x0100: slot address, sequence number, image, CRC-32C of these, mark
(1 COMMITTED, 3 DONE), zeros. The spec gives the fields; their places are the model's (log entry 10). -/

/-- The address of journal record `i`. -/
def journalAddr (i : Nat) : Nat := 0x100 + 80 * i

/-- The sequence number of journal record `i`. -/
def journalSeq (m : Memory) (i : Nat) : Nat := u32At (m.readN (journalAddr i) 80) 4

/-- The highest sequence number in the journal. -/
def journalLast (m : Memory) : Nat := (List.range 48).foldl (fun a i => max a (journalSeq m i)) 0

/-- The image of a slot: entry header and payload (R517). -/
def slotImage (ty k src utc : Nat) (pl : List Byte) : List Byte :=
  let hd := leBytes ty 1 ++ leBytes k 1 ++ leBytes pl.length 2 ++ leBytes src 1 ++ leBytes 1 1 ++ leBytes 0 2 ++ leBytes utc 4
  let img := hd ++ leBytes (crc32c (hd ++ pl)) 4 ++ pl
  img ++ List.replicate (64 - img.length) 0

/-- A journal record of an image. -/
def journalRec (addr seq : Nat) (img : List Byte) (mark : Nat) : List Byte :=
  let b := leBytes addr 4 ++ leBytes seq 4 ++ img
  b ++ leBytes (crc32c b) 4 ++ leBytes mark 4

/-- One entry replaced through the journal: record written, COMMITTED, copied to its slot, DONE (R519). -/
def ledgerWrite (m : Memory) (ty k src utc : Nat) (pl : List Byte) : Memory :=
  let seq := journalLast m + 1
  let img := slotImage ty k src utc pl
  let a := slotAddr ty k
  let m := m.writeN (journalAddr (seq % 48)) (journalRec a seq img 1)
  (m.writeN a img).writeN (journalAddr (seq % 48)) (journalRec a seq img 3)

/-- A journal record that is COMMITTED, not DONE and has a correct CRC (R520). -/
def journalDue (m : Memory) (i : Nat) : Bool :=
  let r := m.readN (journalAddr i) 80
  u32At r 76 = 1 && u32At r 72 = crc32c (r.take 72)

/-- The journal read before any other access (R520): due records copied to their slots again, in their order. -/
def journalReplay (m : Memory) : Memory :=
  let due := sortBy (fun a b => decide (journalSeq m a ≤ journalSeq m b)) ((List.range 48).filter (journalDue m))
  due.foldl (fun m i =>
    let r := m.readN (journalAddr i) 80
    (m.writeN (u32At r 0) (slice r 8 64)).writeN (journalAddr i + 76) (leBytes 3 4)) m

/-- The journal replayed, with CAL_STATUS.REPLAYED where a record was due. -/
def State.replayJournal (s : State) : State :=
  if (List.range 48).any (journalDue s.ledger) then
    { s with ledger := journalReplay s.ledger, w := s.w.wr .A F.CAL_STATUS.REPLAYED 0 1 }
  else s

/-- The count of invalid entries at backplane power-on (R517). -/
def ledgerInvalid (m : Memory) : Nat :=
  (List.range' 1 9).foldl (fun a ty =>
    a + ((List.range (slotCount ty)).filter (fun k => (ledgerEntry m ty k).isNone)).length) 0

/-! The lock (R518). -/

/-- CAL_LOCK is open for an initiator of half `h`. -/
def World.calHolds (w : World) (h : Half) (init : Nat) : Bool :=
  w.flag .A F.CAL_LOCK.OPEN && w.rd .A F.CAL_LOCK.HOLDER = init && w.cal.half = h

/-- CAL_LOCK closed, any token void. -/
def World.calClose (w : World) : World :=
  let w := (w.wr .A F.CAL_LOCK.OPEN 0 0).wr .A F.CAL_LOCK.HOLDER 0 0
  { w with cal := { w.cal with token := none } }.wr w.cal.tokHalf F.CAL_TOKEN.TOKEN w.cal.tokInit 0

/-- CAL_SESS.REQ: the Steward draws a token (`tok`) and shows it to the requesting initiator only. -/
def execCalTokenRequest (h : Half) (init tok : Nat) (s : State) : Out :=
  if s.own.serves h then
    lift s fun w =>
      let w := w.wr w.cal.tokHalf F.CAL_TOKEN.TOKEN w.cal.tokInit 0
      let w := { w with cal := { w.cal with token := some (tok % 2 ^ 32), tokHalf := h, tokInit := init } }
      w.wr h F.CAL_TOKEN.TOKEN init tok
  else lift s fun w => w.wr .A F.CAL_STATUS.RES 0 2

/-- A write of CAL_KEY: a correct token opens CAL_LOCK for its initiator; right or wrong, the token is spent. -/
def execCalKeyOffer (h : Half) (init key : Nat) (s : State) : Out :=
  lift s fun w =>
    match w.cal.token with
    | none => w
    | some t =>
      let ok := t = key % 2 ^ 32 && w.cal.tokHalf = h && w.cal.tokInit = init
      let w := (w.wr w.cal.tokHalf F.CAL_TOKEN.TOKEN w.cal.tokInit 0)
      let w := { w with cal := { w.cal with token := none } }
      if ok then
        let w := (w.wr .A F.CAL_LOCK.OPEN 0 1).wr .A F.CAL_LOCK.HOLDER 0 init
        { w with cal := { w.cal with half := h, lastAt := w.now } }
      else w

/-- CAL_SESS.CLOSE. -/
def execCalLockClose (h : Half) (init : Nat) (s : State) : Out :=
  lift s fun w => w.when (w.calHolds h init) World.calClose

/-- 10 min without a write close the lock. -/
def execCalLockTimeout (s : State) : Out :=
  lift s fun w => w.when (w.flag .A F.CAL_LOCK.OPEN && w.cal.lastAt + 600 * sec ≤ w.now) World.calClose

/-! Requests (R519, R522, R523). -/

/-- A request's result. -/
def calRes (s : State) (r : Nat) : State := { s with w := s.w.wr .A F.CAL_STATUS.RES 0 r }

/-- Entry writes counted, and the lock's last write. -/
def World.calCount (w : World) (n : Nat) : World :=
  let w := w.wr .A F.CAL_STATUS.WRITES 0 (satTo 10 (w.rd .A F.CAL_STATUS.WRITES + n))
  { w with cal := { w.cal with lastAt := w.now } }

/-- CAL_CMD WRITE: one entry replaced by the payload at CAL_ADDR (an operand: the bytes there), or refused. -/
def execLedgerWrite (h : Half) (init ty k : Nat) (pl : List Byte) (s : State) : Out :=
  .next <|
    if !s.own.serves h then calRes s 2
    else if !s.w.calHolds h init then calRes s 1
    else if ty = 0 || 9 < ty || slotCount ty ≤ k then calRes s 3
    else if !payloadOk ty pl then calRes s 4
    else calRes { s with ledger := ledgerWrite s.ledger ty k 2 (s.w.utc h) pl, w := s.w.calCount 1 } 0

/-- The calibration file's entries: (type, index, payload) of each 64-byte slot. -/
def fileEntries (f : List Byte) : List (Nat × Nat × List Byte) :=
  (List.range (u16At f 6)).map fun i =>
    let e := slice f (128 + 64 * i) 64
    (byteAt e 0, byteAt e 1, slice e 16 (u16At e 2))

/-- The file is a calibration file signed by one of the image keys (R509, R522). -/
def fileSigned (f : List Byte) (keys : List (List Byte)) : Bool :=
  let n := 128 + 64 * u16At f 6
  f.take 4 = bytesOf [0x45, 0x58, 0x43, 0x46] && u16At f 4 = 1 &&
    keys.any (fun k => Config.ecdsaValid k (Config.sha384 (f.take n)) (slice f n 96))

/-- CAL_CMD RESTORE: the masked entries of a signed file written with SRC FILE, all or none; VLV entries of a tile that is not the
delivered one are skipped. `keys` are the registered image keys. -/
def restoreLedger (s : State) (h : Half) (init mask : Nat) (f : List Byte) (keys : List (List Byte)) : State :=
  if !s.own.serves h then calRes s 2
  else if !s.w.calHolds h init then calRes s 1
  else if !s.w.inService h then calRes s 8
  else if !fileSigned f keys then calRes s 5
  else if slice f 8 16 ≠ s.ledger.readN 8 16 then calRes s 6
  else
    let es := (fileEntries f).filter (fun e => 1 ≤ e.1 && e.1 ≤ 8 && bitOf mask (e.1 - 1))
    let fits (e : Nat × Nat × List Byte) : Bool :=
      e.1 ≠ 1 || ledgerEntry s.ledger 9 (e.2.1 / 16) = some (slice f (24 + 16 * (e.2.1 / 16)) 16)
    let put := es.filter fits
    if put.any (fun e => slotCount e.1 ≤ e.2.1) then calRes s 3
    else if put.any (fun e => !payloadOk e.1 e.2.2) then calRes s 4
    else
      let led := put.foldl (fun m e => ledgerWrite m e.1 e.2.1 4 (s.w.utc h) e.2.2) s.ledger
      let w := (s.w.wr .A F.CAL_STATUS.SKIPPED 0 (satTo 7 (es.length - put.length))).calCount put.length
      calRes { s with ledger := led, w := w } 0

end Sys2Proof.Machine
end

