-- ==== Sys2Proof/Machine/Yield.lean ====
section
/-!
DEFINITION. The yield pipeline: flow, slices, tiles, totals and weighed loads (R271–R296).
-/
namespace Sys2Proof.Machine

/-- The index of a reference (R58). -/
def refIndex (r : Nat) : Nat := bitsOf r 0 12

/-- A binding's value as a half reports it (UIN_BVAL). -/
def World.bval (w : World) (h : Half) (b : Nat) : Rat := f32Val (w.rd h F.UIN_BVAL.VALUE b)

/-- A binding is usable: GOOD or CONFLICT (R272). -/
def World.usable (w : World) (h : Half) (b : Nat) : Bool :=
  w.rd h F.UIN_BQ.QUALITY b = 0 || w.rd h F.UIN_BQ.QUALITY b = 5

/-- The value of a referenced binding, if it is usable. -/
def World.refVal (w : World) (h : Half) (r : Nat) : Option Rat :=
  if r ≠ 0 && w.usable h (refIndex r) then some (w.bval h (refIndex r)) else none

/-- The ground speed: the PV of MF01, or its twin where the PV is not usable, m/s. -/
def World.groundSpeed (w : World) (h : Half) : Rat :=
  match (w.set.get h).sec.recs[1]? with
  | none => 0
  | some f =>
    match w.refVal h f.pv with
    | some v => v
    | none => ((w.refVal h f.pvTwin).getD (w.bval h (refIndex f.pv)))

/-- The yield state of a half. -/
def World.yield (w : World) (h : Half) : Yield := w.yld.get h

/-- The yield state of a half changed. -/
def World.updYield (w : World) (h : Half) (f : Yield → Yield) : World := { w with yld := w.yld.upd h f }

/-- The factors of a crop slot: the yield-flow entry of the Ledger, in 1/10000; 1.0000 where it is invalid (R517). -/
def yieldFactors (led : Memory) (crop : Nat) : List Rat :=
  match ledgerEntry led 8 crop with
  | none => List.replicate 8 1
  | some p => (List.range 8).map (fun k => ((u16At p (2 * k) : Nat) : Rat) / 10000)

/-- A piecewise linear curve: 0 below its first point, its last segment extended. -/
def curveAt : List (Rat × Rat) → Rat → Rat
  | (s0, q0) :: (s1, q1) :: r, s =>
    if s < s0 then 0
    else if s ≤ s1 || r.isEmpty then q0 + (q1 - q0) * (s - s0) / (s1 - s0)
    else curveAt ((s1, q1) :: r) s
  | _, _ => 0

/-- A crop's curve with its factors. -/
def Crop.curve (c : Crop) (k : List Rat) : List (Rat × Rat) := (c.pts.zip k).map (fun x => (x.1.1, x.2 * x.1.2))

/-- The flow of one cycle (R273–R276). -/
structure Flow where
  sn : Rat
  imp : Option Rat
  vol : Option Rat
  vdot : Rat
  outCurve : Bool
  q : Rat
  flag : Nat
deriving DecidableEq, Repr

/-- The fused flow of a cycle with the density it starts with. -/
def World.flow (w : World) (led : Memory) (h : Half) (y : Yield) (s : YildSec) : Flow :=
  let c := s.crops.getD y.crop {}
  let fp := w.refVal h s.elev
  let f := fp.getD 0
  let imp := w.refVal h s.impact
  let fill := w.refVal h s.fill
  let sn := if f = 0 then 0 else (imp.getD 0) * s.nRef / f
  let pts := c.curve (yieldFactors led y.crop)
  let impOk := imp.isSome && fp.isSome && s.nRef / 4 ≤ f
  let qImp := if impOk then some (curveAt pts sn) else none
  let vdot := s.volK * fill.getD 0 * f / 1000
  let qVol := if fill.isSome && fp.isSome then some (y.rho * vdot) else none
  let q := match qImp, qVol with
    | some a, some b => s.wImp * a + (1 - s.wImp) * b
    | some a, none => a
    | none, some b => b
    | none, none => 0
  let flag := match qImp, qVol with
    | some _, none => if s.fill ≠ 0 then 1 else 0
    | none, some _ => if s.impact ≠ 0 then 2 else 0
    | none, none => 4
    | _, _ => 0
  { sn := sn, imp := qImp, vol := qVol, vdot := vdot
    outCurve := impOk && ((pts.getLast?).any (fun p => decide (p.1 < sn))), q := if q < 0 then 0 else q, flag := flag }

/-- The bulk density after a cycle (R275). -/
def Yield.rhoStep (y : Yield) (s : YildSec) (f : Flow) : Rat :=
  let c := s.crops.getD y.crop {}
  if s.impact = 0 then (c.rhoDef : Rat) / 1000
  else match f.imp, f.vol with
    | some qi, some _ =>
      if 2 ≤ qi && f.vdot ≠ 0 then
        clampR ((c.rhoMin : Rat) / 100) ((c.rhoMax : Rat) / 100) (y.rho + (1 / 10) / (s.tauRho : Rat) * (qi / f.vdot - y.rho))
      else y.rho
    | _, _ => y.rho

/-- The cutter-bar centre from a pose (R278): CB_X ahead, CB_Y left of the reference point. -/
def cutterBar (p : Pose) (s : YildSec) : Rat × Rat :=
  let hd : Rat := (p.hdg : Rat) / 1000 * piR / 180
  let lat : Rat := (p.lat : Rat) / 1000000000
  let lon : Rat := (p.lon : Rat) / 1000000000
  let e := s.cbX * Config.sinR hd - s.cbY * Config.cosR hd
  let n := s.cbX * Config.cosR hd + s.cbY * Config.sinR hd
  (Config.latOf e n lat lon, Config.lonOf e n lat lon)

/-- The slice a cycle opens (R278–R280). -/
def World.openSlice (w : World) (h : Half) (y : Yield) (s : YildSec) (k : Nat) (cut : Bool) : Slice :=
  let v := w.groundSpeed h
  let (wd, def_) :=
    if s.edge = 0 then (s.headerW, false)
    else if w.rd h F.GRD_PQ.QUALITY (refIndex s.edge) = 0 then
      (clampR 0 s.headerW (f32Val (w.rd h F.GRD_PVAL.VALUE (refIndex s.edge))), false)
    else (s.headerW, true)
  let base : Slice := { k := k, cutting := cut, crop := y.crop, width := wd, dist := v / 10, flags := if def_ then 128 else 0
                        cal := w.rd h F.SET_YLD_CAL.STATE = 1 }
  match w.pose.get h with
  | some p =>
    if p.q = 0 then { base with flags := base.flags ||| 256 }
    else
      let (la, lo) := cutterBar p s
      { base with lat := la, lon := lo, posQ := p.q - 1, noPos := false, hdg := (p.hdg : Rat) / 1000 }
  | none => { base with flags := base.flags ||| 256 }

/-- The slice of cycle `k`. -/
def Yield.slice (y : Yield) (k : Nat) : Option Slice := y.slices.find? (fun s => s.k = k)

/-- The slice of cycle `k` changed. -/
def Yield.updSlice (y : Yield) (k : Nat) (f : Slice → Slice) : Yield :=
  { y with slices := y.slices.map (fun s => if s.k = k then f s else s) }

/-- The slices of a tile, in order. -/
def Yield.tileSlices (y : Yield) (t : YTile) : List Slice :=
  (List.range' t.first (t.last + 1 - t.first)).filterMap y.slice

/-- The length of a tile. -/
def Yield.tileLen (y : Yield) (t : YTile) : Rat := sumR ((y.tileSlices t).map (·.dist))

/-- The tiles when the slice of cycle `k` is opened (R284): the open tile ends, or goes on with it; a cutting slice without an open tile
opens one. -/
def Yield.tileStep (y : Yield) (s : YildSec) (x : Slice) : Yield :=
  let len : Rat := (s.tileLen : Rat) / 10
  let close (t : YTile) : YTile :=
    if t.closed then t
    else
      let last := (y.slice t.last).getD {}
      let l := y.tileLen t
      if !x.cutting then { t with closed := true, endCut := true, part := decide (l < len) }
      else if x.crop ≠ last.crop then { t with closed := true, part := decide (l < len) }
      else if len ≤ l || 100 ≤ t.last + 1 - t.first || x.cal != last.cal then { t with closed := true }
      else { t with last := x.k }
  let ts := y.tiles.map close
  { y with tiles := if x.cutting && ts.all (·.closed) then ts ++ [⟨x.k, x.k, false, false, false⟩] else ts }

/-- The slice that receives the mass of cycle `k`, and whether by flushing (R281). -/
def Yield.receiver (y : Yield) (s : YildSec) (k : Nat) : Option (Nat × Bool) :=
  let j := k - s.dFlow
  match y.slice j with
  | some x =>
    if x.cutting then some (j, false)
    else match (y.slices.filter (fun z => z.cutting && z.k < j)).foldl (fun m z => max m z.k) 0 with
      | 0 => none
      | c => if j ≤ c + 1 + s.flush then some (c, true) else none
  | none => none

/-- The record of a tile (R286), from its slices, its sequence number and the WRITES of the Ledger entry in use. -/
def Yield.tileRecord (y : Yield) (s : YildSec) (t : YTile) (seq calId : Nat) (base : Nat) : List Byte × (Rat × Rat × Rat × Rat) :=
  let xs := y.tileSlices t
  let x0 := xs.headD {}
  let x1 := xs.getLastD {}
  let mass := sumR (xs.map (·.mass))
  let dist := sumR (xs.map (·.dist))
  let area := sumR (xs.map (fun x => x.width * x.dist))
  let m (x : Slice) : Rat := x.moist.getD ((((s.crops.getD x.crop {}).defMoist : Nat) : Rat) / 100)
  let moist := if mass = 0 then m x0 else sumR (xs.map (fun x => x.mass * m x)) / mass
  let mstd := ((((s.crops.getD x0.crop {}).mStd : Nat) : Rat)) / 100
  let std := mass * (100 - moist) / (100 - mstd)
  let noPos := xs.any (·.noPos)
  let width := if dist = 0 then 0 else area / dist
  let flags := xs.foldl (fun a x => a ||| x.flags) 0 ||| (if t.part then 512 else 0) ||| (if xs.any (·.cal) then 2048 else 0)
  let yld (v : Rat) : Nat := if area < 1 / 10 then 0xFFFF else satTo 16 (roundN (v / area * 10000))
  let hdg := if xs.isEmpty then 0 else sumR (xs.map (·.hdg)) / ((xs.length : Nat) : Rat)
  let pos (v : Rat) : Nat := if noPos then 0 else toTwos 32 (roundR (v * 10000000))
  let posQ := if noPos then 0xFF else xs.foldl (fun a x => min a x.posQ) 3
  let b := leBytes 0x5954 2 ++ leBytes flags 2 ++ leBytes seq 4 ++ leBytes (base + t.first * (100 * ms)) 8 ++
    leBytes (satTo 16 (100 * xs.length)) 2 ++ leBytes (satTo 16 (roundN (100 * width))) 2 ++ leBytes (pos x0.lat) 4 ++
    leBytes (pos x0.lon) 4 ++ leBytes (pos x1.lat) 4 ++ leBytes (pos x1.lon) 4 ++ leBytes (satTo 16 (roundN (100 * hdg))) 2 ++
    leBytes (satTo 16 (roundN (100 * dist))) 2 ++ leBytes (satTo 32 (roundN (1000 * mass))) 4 ++
    leBytes (satTo 32 (roundN (1000 * std))) 4 ++ leBytes (satTo 16 (roundN (100 * moist))) 2 ++ leBytes (yld mass) 2 ++
    leBytes (yld std) 2 ++ leBytes (satTo 16 (roundN (10 * area))) 2 ++ leBytes posQ 1 ++ leBytes x0.crop 1 ++ leBytes calId 1 ++
    leBytes 0 1
  (b ++ leBytes (crc32c b) 4, (mass, std, area, (if area < 1 / 10 then 0 else mass / area * 10)))

/-- The last assignment to a tile's slices is complete at cycle `k` (R285). -/
def YTile.complete (t : YTile) (s : YildSec) (k : Nat) : Bool :=
  t.closed && t.last + s.dFlow + (if t.endCut then 1 + s.flush else 0) ≤ k && t.last + s.dMoist ≤ k

/-- One tile published (R285, R287, R288). -/
def World.publishTile (w : World) (led : Memory) (srv h : Half) (s : YildSec) (t : YTile) : World :=
  let y := w.yield h
  let seq := (w.rd h F.SET_YLD_RING_HEAD.VALUE + 1) % 2 ^ 32
  let calId := ((ledgerEntry led 8 (((y.tileSlices t).headD {}).crop)).map (byteAt · 16)).getD 0
  let (rec_, m, sd, ar, yw) := y.tileRecord s t seq calId 0
  let used := (w.rd h F.SET_YLD_RING_HEAD.VALUE + 2 ^ 32 - w.rd h F.SET_YLD_RING_TAIL.VALUE) % 2 ^ 32
  let w := w.when (4096 ≤ used) fun w => w.wr h F.SET_YLD_STATUS.OVF 0 1
  let w := (w.putMem h 3 (w.rd h F.SET_YLD_RING_BASE.VALUE + 64 * (seq % 4096)) rec_).wr h F.SET_YLD_RING_HEAD.VALUE 0 seq
  let w := w.updYield h fun y => { y with
    totWet := y.totWet + m, totStd := y.totStd + sd, totArea := y.totArea + ar
    tiles := y.tiles.filter (fun z => z.first ≠ t.first) }
  let w := (w.flxTileOver h seq).flxTiles h
  w.when (s.yieldOut ≠ 0) fun w => w.externalWrite srv h (refIndex s.yieldOut) yw

/-- The totals shown in their registers (R296). -/
def World.showTotals (w : World) (h : Half) : World :=
  let y := w.yield h
  ((((w.wr h F.SET_YLD_TANK.VALUE 0 (satTo 32 (roundN y.tank))).wr h F.SET_YLD_TOT_WET.VALUE 0 (satTo 32 (roundN y.totWet))).wr
    h F.SET_YLD_TOT_STD.VALUE 0 (satTo 32 (roundN y.totStd))).wr h F.SET_YLD_TOT_AREA.VALUE 0 (satTo 32 (roundN y.totArea))).wr
    h F.SET_YLD_UNASSIGNED.VALUE 0 (satTo 32 (roundN y.unassigned))

/-- Linear interpolation halfway between two slices, for a cycle that neither half completed (R289). -/
def Slice.between (a b : Slice) (k : Nat) (mass : Rat) : Slice :=
  { b with k := k, cutting := a.cutting && b.cutting, lat := (a.lat + b.lat) / 2, lon := (a.lon + b.lon) / 2
           width := (a.width + b.width) / 2, dist := (a.dist + b.dist) / 2, noPos := a.noPos || b.noPos
           flags := b.flags ||| 64, mass := mass, moist := none }

/-- MF29's output is nonzero (R288). -/
def World.unloading (w : World) (h : Half) : Bool := f32Val (w.rd h F.SET_MF_OUT.VALUE 29) ≠ 0

/-- The mass of a cycle assigned (R281, R291): to its slice, to the latest cutting slice by flushing, or to UNASSIGNED. -/
def Yield.assign (y : Yield) (s : YildSec) (f : Flow) (k : Nat) (open_ : Bool) : Yield :=
  let m := f.q / 10
  match y.receiver s k with
  | none => { y with unassigned := y.unassigned + m }
  | some (j, fl) =>
    let y := y.updSlice j fun z => { z with
      mass := z.mass + m, flags := z.flags ||| f.flag ||| (if fl then 32 else 0) ||| (if f.outCurve then 1024 else 0) }
    if open_ && (y.slice j).any (fun z => z.cal) then
      let l := y.load
      let qi := f.imp.getD 0 / 10
      { y with load := { l with
          mass := l.mass + qi, sMass := l.sMass + f.sn * qi
          flow := l.flow + b2n (0 < f.q), bad := l.bad + b2n (decide (0 < f.q) && f.imp.isNone) } }
    else y

/-- The tank estimate after a cycle (R288), and the load's note of an unloading. -/
def Yield.tankStep (y : Yield) (s : YildSec) (m : Rat) (unloading open_ : Bool) (h : Half) (k : Nat) : Yield :=
  let out : Rat := if unloading then s.unloadKgs / 10 else 0
  let l := y.load
  { y with
    tank := clampR 0 ((10 * s.tankMax : Nat) : Rat) (y.tank + m - out)
    load := { l with unloaded := l.unloaded || (open_ && unloading) }
    lastM := m, lastK := k, by_ := some h }

/-- The moisture in use in a cycle and its source (R277): measured, held for MOIST_HOLD, or the crop's default. -/
def Yield.moistNow (y : Yield) (s : YildSec) (k : Nat) (smp : Option Rat) : Rat × Nat :=
  match smp with
  | some v => (v, 0)
  | none =>
    if y.moistAt.any (fun t => decide (k ≤ t + 10 * s.moistHold)) then (y.moist, 1)
    else (((((s.crops.getD y.crop {}).defMoist : Nat)) : Rat) / 100, 2)

/-- The moisture of a cycle assigned to its slice (R282). -/
def Yield.moistStep (y : Yield) (s : YildSec) (k : Nat) (smp : Option Rat) : Yield :=
  let (mv, src) := y.moistNow s k smp
  let y := match smp with
    | some v => { y with moist := v, moistAt := some k }
    | none => y
  match y.slice (k - s.dMoist) with
  | none => y
  | some z =>
    if z.cutting then y.updSlice z.k fun z => { z with
      moist := some mv, flags := z.flags ||| (if src = 1 then 8 else if src = 2 then 16 else 0) } else y

/-- The cutting decision of a cycle (R279). -/
def World.cutNow (w : World) (h : Half) (y : Yield) (s : YildSec) : Bool :=
  match w.refVal h s.cut with
  | none => y.cutting
  | some v => w.rd h F.SET_STATE.STATE = 3 && (if y.cutting then decide (v ≤ s.cutHt + s.cutHys) else decide (v < s.cutHt))

/-- The crop slot written before this cycle takes effect (R283). -/
def World.takeCrop (w : World) (h : Half) (s : YildSec) : World :=
  let want := w.rd h F.SET_YLD_CTRL.CROP
  w.when (want ≠ (w.yield h).crop) fun w => w.updYield h fun y => { y with
    crop := want, rho := ((((s.crops.getD want {}).rhoDef : Nat)) : Rat) / 1000 }

/-- The slice line and the tiles of a cycle: its slice opened, a cycle that neither half completed filled in (R289). -/
def Yield.open_ (y : Yield) (s : YildSec) (h : Half) (x : Slice) (m : Rat) : Yield :=
  let gap := y.by_ ≠ some h && y.by_.isSome && y.lastK + 2 = x.k
  let fill := ((y.slice y.lastK).getD {}).between x (x.k - 1) ((y.lastM + m) / 2)
  let y := if gap then { y with slices := fill :: y.slices } else y
  let y := { y with cutting := x.cutting, slices := x :: y.slices }
  y.tileStep s x

/-- The registers of a cycle (R296). -/
def World.showYield (w : World) (led : Memory) (h : Half) (f : Flow) (x : Slice) (mv : Rat) (src : Nat) : World :=
  let w := w.wr h F.SET_YLD_FLOW.VALUE 0 (f32Of (36 / 10 * f.q))
  let w := w.wr h F.SET_YLD_RHO_MOIST.RHO 0 (satTo 16 (roundN (1000 * (w.yield h).rho)))
  let w := w.wr h F.SET_YLD_RHO_MOIST.MOIST 0 (satTo 16 (roundN (100 * mv)))
  let w := w.wr h F.SET_YLD_STATUS.FSRC 0 (b2n f.imp.isSome + 2 * b2n f.vol.isSome)
  let w := w.wr h F.SET_YLD_STATUS.CUTTING 0 (b2n x.cutting)
  let w := w.wr h F.SET_YLD_STATUS.NOPOS 0 (b2n x.noPos)
  let w := w.wr h F.SET_YLD_STATUS.MSRC 0 src
  let w := w.wr h F.SET_YLD_STATUS.OUT_CURVE 0 (b2n f.outCurve)
  let w := w.wr h F.SET_YLD_STATUS.CAL_ID 0 (((ledgerEntry led 8 (w.yield h).crop).map (byteAt · 16)).getD 0)
  w.showTotals h

/-- One cycle of the pipeline in the serving half (R271). -/
def World.yieldCycle (w : World) (led : Memory) (srv h : Half) (s : YildSec) : World :=
  let k := w.mt h / (100 * ms)
  let w := w.takeCrop h s
  let y := w.yield h
  let f := w.flow led h y s
  let x := w.openSlice h y s k (w.cutNow h y s)
  let open_ := w.rd h F.SET_YLD_CAL.STATE = 1 || w.rd h F.SET_YLD_CAL.STATE = 2
  let smp := w.refVal h s.moist
  let y := y.open_ s h x (f.q / 10)
  let y := ({ y with rho := y.rhoStep s f } : Yield).assign s f k open_
  let y := y.tankStep s (f.q / 10) (w.unloading h) open_ h k
  let (mv, src) := y.moistNow s k smp
  let y := y.moistStep s k smp
  let w := w.updYield h fun _ => y
  let w := (y.tiles.filter (fun t => t.complete s k)).foldl (fun w t => w.publishTile led srv h s t) w
  let w := w.updYield h fun y => { y with
    slices := y.slices.filter (fun z => decide (k ≤ z.k + 300) || y.tiles.any (fun t => t.first ≤ z.k && z.k ≤ t.last)) }
  let w := w.when (f.flag ≠ 4) fun w => w.externalWrite srv h (refIndex s.flowOut) (36 / 10 * f.q)
  let w := w.when (s.tankOut ≠ 0) fun w => w.externalWrite srv h (refIndex s.tankOut) (w.yield h).tank
  w.showYield led h f x mv src

/-- The state of the pipeline mirrored to the sibling (R272), while the Crossing is up. -/
def World.mirrorYield (w : World) (h : Half) : World :=
  w.when (w.flag h F.XNG_STATUS.UP && w.flag h.other F.XNG_STATUS.UP && (w.run.get h.other).running) fun w =>
    let old := w.yield h.other
    let w := w.updYield h.other fun _ => { w.yield h with sec := old.sec, kept := old.kept }
    let w := [F.SET_YLD_RING_HEAD.VALUE, F.SET_YLD_RING_TAIL.VALUE, F.SET_YLD_CAL.STATE, F.SET_YLD_CAL.RES, F.SET_YLD_CAL.FACTOR,
      F.SET_YLD_CAL.LOADS, F.SET_YLD_CAL_MASS.KG, F.SET_YLD_CTRL.CROP].foldl (fun w f => w.wr h.other f 0 (w.rd h f)) w
    let ring (m : Memory) : Memory :=
      (w.dram.get h).foldl (fun m c => if 3 * 2 ^ 32 ≤ c.1 && c.1 < 4 * 2 ^ 32 then Memory.write m c.1 c.2 else m)
        (m.filter (fun c => c.1 < 3 * 2 ^ 32 || 4 * 2 ^ 32 ≤ c.1))
    World.showTotals { w with dram := w.dram.upd h.other ring } h.other

/-- A yield cycle starts (R271): in the half that serves, with RUN set and a YILD section. -/
def execYieldCycle (h : Half) (s : State) : Out :=
  lift s fun w =>
    match (w.yield h).sec with
    | none => w
    | some sec => if s.own.serves h && w.flag h F.SET_YLD_CTRL.RUN then (w.yieldCycle s.ledger s.srv h sec).mirrorYield h else w

/-- A write of SET_YLD_CTRL.CROP (R283, R296): a value at or above N_CROP is ignored; it takes effect at the next cycle start. -/
def execYieldCropChange (h : Half) (v : Nat) (s : State) : Out :=
  lift s fun w =>
    match (w.yield h).sec with
    | none => w
    | some sec => if v < sec.crops.length then w.wr h F.SET_YLD_CTRL.CROP 0 v else w

/-- TANK_ZERO (R288). -/
def execTankZero (h : Half) (s : State) : Out := lift s fun w => (w.updYield h fun y => { y with tank := 0 }).showTotals h

/-- TOT_CLR (R288): the four totals. -/
def execTotClr (h : Half) (s : State) : Out :=
  lift s fun w => (w.updYield h fun y => { y with totWet := 0, totStd := 0, totArea := 0, unassigned := 0 }).showTotals h

/-! Weighed loads (R291–R293). -/

/-- A result in SET_YLD_CAL. -/
def World.calResult (w : World) (h : Half) (r : Nat) : World := w.wr h F.SET_YLD_CAL.RES 0 r

/-- The stored loads of the active crop slot, in SET_YLD_CAL.LOADS. -/
def World.showLoads (w : World) (h : Half) : World :=
  w.wr h F.SET_YLD_CAL.LOADS 0 (((w.yield h).stored.filter (fun l => l.crop = (w.yield h).crop)).length)

/-- CAL_START: refused with BUSY while a load is open, with EMPTY while grain may be in the machine. -/
def execYldCalStart (h : Half) (s : State) : Out :=
  lift s fun w =>
    match (w.yield h).sec with
    | none => w
    | some sec =>
      let y := w.yield h
      let k := w.mt h / (100 * ms)
      if w.rd h F.SET_YLD_CAL.STATE ≠ 0 then w.calResult h 7
      else if y.slices.any (fun z => z.cutting && k ≤ z.k + max sec.dFlow sec.dMoist + sec.flush) then w.calResult h 1
      else
        ((w.updYield h fun y => { y with load := { start := k, crop := y.crop } }).wr h F.SET_YLD_CAL.STATE 0 1).calResult h 0

/-- CAL_STOP: refused with CUTTING while a slice is cutting. -/
def execYldCalStop (h : Half) (s : State) : Out :=
  lift s fun w =>
    if w.rd h F.SET_YLD_CAL.STATE ≠ 1 then w
    else if (w.yield h).cutting then w.calResult h 2
    else ((w.updYield h fun y => { y with load := { y.load with stop := w.mt h / (100 * ms) } }).wr h F.SET_YLD_CAL.STATE 0 2).calResult h 0

/-- FLUSH_T plus D_FLOW have passed: the measured mass is published and the weight awaited. -/
def execYldCalFlushComplete (h : Half) (s : State) : Out :=
  lift s fun w =>
    match (w.yield h).sec with
    | none => w
    | some sec =>
      let y := w.yield h
      w.when (w.rd h F.SET_YLD_CAL.STATE = 2 && y.load.stop + sec.dFlow + sec.flush ≤ w.mt h / (100 * ms)) fun w =>
        (w.wr h F.SET_YLD_CAL_MASS.KG 0 (satTo 32 (roundN y.load.mass))).wr h F.SET_YLD_CAL.STATE 0 3

/-- A write of SET_YLD_CAL_WT: in state 3 it completes the load, which is stored or refused (R292). -/
def execYldCalWeight (h : Half) (kg : Nat) (s : State) : Out :=
  lift s fun w =>
    let w := w.wr h F.SET_YLD_CAL_WT.KG 0 kg
    if w.rd h F.SET_YLD_CAL.STATE ≠ 3 then w
    else
      let y := w.yield h
      let l := y.load
      let ratio : Rat := if l.mass = 0 then 0 else (kg : Rat) / l.mass
      let res :=
        if l.mass < 2000 || l.stop < l.start + 600 then 3
        else if l.flow < 20 * l.bad then 4
        else if l.unloaded then 5
        else if ratio < 80 / 100 || 125 / 100 < ratio then 6
        else if 8 ≤ y.stored.length then 9
        else 0
      let w := ((w.wr h F.SET_YLD_CAL.STATE 0 0).calResult h res).wr h F.SET_YLD_CAL.FACTOR 0 (satTo 16 (roundN (10000 * ratio)))
      (w.updYield h fun y => { y with
        load := {}, stored := if res = 0 then y.stored ++ [⟨l.crop, kg, l.mass, l.sMass / l.mass⟩] else y.stored }).showLoads h

/-- CAL_ABORT discards the load in any state. -/
def execYldCalAbort (h : Half) (s : State) : Out :=
  lift s fun w => (w.updYield h fun y => { y with load := {} }).wr h F.SET_YLD_CAL.STATE 0 0

/-- The load factor at s, linear in the mean signal, the nearest load's beyond the outermost (R293). -/
def loadFactor : List (Rat × Rat) → Rat → Rat
  | [], _ => 1
  | [(_, f)], _ => f
  | (s0, f0) :: (s1, f1) :: r, s =>
    if s ≤ s0 then f0
    else if s ≤ s1 then f0 + (f1 - f0) * (s - s0) / (s1 - s0)
    else loadFactor ((s1, f1) :: r) s

/-- The new factors of a crop slot from its stored loads (R293). -/
def newFactors (c : Crop) (k : List Rat) (loads : List CalStored) : List Rat :=
  let srt := sortBy (fun a b => decide (a.sMean ≤ b.sMean)) loads
  let span := ((srt.getLast?.map (·.sMean)).getD 0) - ((srt.head?.map (·.sMean)).getD 0)
  let sLast := (c.pts.getLast?.map (·.1)).getD 0
  if 3 ≤ loads.length && 4 / 10 * sLast ≤ span then
    k.zipIdx.map fun x => match c.pts[x.2]? with
      | some p => x.1 * loadFactor (srt.map (fun l => (l.sMean, l.wt / l.mass))) p.1
      | none => x.1
  else
    let f := sumR (loads.map (·.wt)) / sumR (loads.map (·.mass))
    k.map (· * f)

/-- CAL_COMMIT: new factors for the active crop slot written to the Ledger, or a refusal (R293). -/
def execYldCalCommit (h : Half) (init : Nat) (s : State) : Out :=
  .next <| match (s.w.yield h).sec with
    | none => s
    | some sec =>
      let y := s.w.yield h
      let loads := y.stored.filter (fun l => l.crop = y.crop)
      let k := yieldFactors s.ledger y.crop
      let new := newFactors (sec.crops.getD y.crop {}) k loads
      let old := ledgerEntry s.ledger 8 y.crop
      let res :=
        if s.w.rd h F.SET_YLD_CAL.STATE ≠ 0 then 7
        else if !s.w.calHolds h init then 8
        else if loads.isEmpty then 3
        else if new.any (fun v => v < 80 / 100 || 125 / 100 < v) then 6
        else 0
      if res ≠ 0 then { s with w := s.w.calResult h res }
      else
        let u := s.w.utc h
        let pl := (new.map (fun v => leBytes (roundN (10000 * v)) 2)).flatten ++ leBytes (((old.map (byteAt · 16)).getD 0) + 1) 1 ++
          leBytes loads.length 1 ++ leBytes 0 2 ++ leBytes u 4
        let w := ((s.w.calResult h 0).updYield h fun y => { y with stored := y.stored.filter (fun l => l.crop ≠ y.crop) }).showLoads h
        { s with ledger := ledgerWrite s.ledger 8 y.crop 2 u pl, w := w.calCount 1 }

/-- CAL_CLEAR discards the stored loads of every slot. -/
def execYldCalClear (h : Half) (s : State) : Out :=
  lift s fun w => (w.updYield h fun y => { y with stored := [] }).showLoads h

end Sys2Proof.Machine
end

