-- ==== Sys2Proof/Machine/Display.lean ====
section
/-!
DEFINITION. The segment driver, the symbols of the status strip and the compatibility panel (R545–R557).
-/
namespace Sys2Proof.Machine

/-- The display drivers changed. -/
def World.updDsp (w : World) (f : Disp → Disp) : World := { w with dsp := f w.dsp }

/-- EVT_DSP of a driver with a cause (R557). -/
def World.dspEvent (w : World) (obj cause : Nat) : World := w.raiseBoth 252 (evArg obj 0xFF cause)

/-- The segment driver blanks: its Green state, SAFE_OFF with SO set, a level fault, the fast path, or SEG_EN clear (R546, R547, R553). -/
def World.segBlank (w : World) : Bool :=
  w.dsp.segGreen || w.safeOn objSeg || w.flag .A F.DSP_STATUS.LVL_FAULT || w.flag .A F.DSP_STATUS.FAST || !w.flag .A F.DSP_CTRL.SEG_EN

/-- The shadow image's words. -/
def World.shadow (w : World) : List Nat := (List.range 10).map (fun k => w.rd .A F.DSP_SEG.BITS k)

/-- A segment level is in: VLCD 2.7–16.0 V (10 mV), V1 and V2 within 3 % of their nominal fractions (0.1 %) (R547). -/
def levelsIn (vlcd : Nat) (v1 v2 : Int) : Bool := 270 ≤ vlcd && vlcd ≤ 1600 && v1.natAbs ≤ 30 && v2.natAbs ≤ 30

/-- A segment frame starts (R545–R547): a LATCH of an earlier instant is applied, the levels are measured. -/
def execSegmentFrame (vlcd : Nat) (v1 v2 : Int) (s : State) : Out := lift s fun w =>
  w.when (w.flag .A F.DSP_CTRL.SEG_EN) fun w =>
    let due := w.dsp.latchAt.any (fun t => decide (t < w.now))
    let img := w.shadow
    let w := w.updDsp fun d => { d with
      minus := !d.minus, shown := if due then img else d.shown, latchAt := if due then none else d.latchAt }
    let w := ((w.wr .A F.DSP_LEVEL.VLCD 0 (satTo 16 vlcd)).wrI .A F.DSP_LEVEL.V1_DEV 0 (clampI (-128) 127 v1)).wrI
      .A F.DSP_LEVEL.V2_DEV 0 (clampI (-128) 127 v2)
    if levelsIn vlcd v1 v2 then
      let w := w.updDsp fun d => { d with good := d.good + 1 }
      w.when (w.flag .A F.DSP_STATUS.LVL_FAULT && 10 ≤ w.dsp.good) fun w => (w.wr .A F.DSP_STATUS.LVL_FAULT 0 0).dspEvent objSeg 2
    else
      let w := w.updDsp fun d => { d with good := 0 }
      w.when (!w.flag .A F.DSP_STATUS.LVL_FAULT) fun w => (w.wr .A F.DSP_STATUS.LVL_FAULT 0 1).dspEvent objSeg 1

/-- The segment driver latches its shadow at the next frame start; a write by its owner ends its Green state (R30, R64). -/
def World.segLatch (w : World) : World := w.updDsp fun d => { d with latchAt := some w.now, segGreen := false }

/-- DSP_SEG_CMD.LATCH by the owner of the segment driver (R546). -/
def execSegmentLatch (h : Half) (init : Nat) (s : State) : Out := putW s <| gateObj s h init objSeg fun w => w.segLatch

/-! Symbols (R548). -/

/-- A value of a STATUS source: HALF_A_READY and HALF_B_READY are the READY state of PREPARE_HALF for that half. -/
def World.symStatus (w : World) (h : Half) (ref : Nat) : Nat :=
  let ready := w.rd h F.STW_SVC_STAT.STATE = 2
  let op := w.rd h F.STW_SVC_STAT.OP
  match ref with
  | 1 => w.rd h F.STW_STAGE.CUP_REPORT
  | 2 => b2n (ready && op = 1 && w.rd h F.STW_SVC_STAT.TARGET = 0)
  | 3 => b2n (ready && op = 1 && w.rd h F.STW_SVC_STAT.TARGET = 1)
  | 4 => b2n (ready && op = 2)
  | 5 => b2n (w.flag h F.STW_LIFE_FAN.DUE || w.flag h F.STW_LIFE_HOLD.DUE)
  | 6 => w.rd h F.GRD_STATUS.GRADE
  | 7 => w.rd h F.SET_STEER_STATUS.ENGAGED
  | _ => w.rd h F.TIM_STATUS.HOLDOVER

/-- The value of a symbol's source; none for a binding whose quality is not GOOD. -/
def World.symValue (w : World) (h : Half) (y : Symbol) : Option Rat :=
  match y.src with
  | 0 => some (w.symStatus h y.ref : Nat)
  | 1 => some (w.rd h F.SET_MF_STAT.MODE (refIndex y.ref) : Nat)
  | 2 => if w.rd h F.UIN_BQ.QUALITY (refIndex y.ref) = 0 then some (w.bval h (refIndex y.ref)) else none
  | _ => some (f32Val (if refIndex y.ref = 0 then w.rd h F.SET_YLD_TANK.VALUE else w.rd h F.SET_YLD_FLOW.VALUE))

/-- The segments a–g of a decimal digit, a in bit 0. -/
def digitSegs (d : Nat) : Nat := [0x3F, 0x06, 0x5B, 0x4F, 0x66, 0x6D, 0x7D, 0x07, 0x7F, 0x6F].getD d 0

/-- The image of a number in `k` digits, the most significant first (the first digit's segments in the low bits), with leading
zeros blank; all segments on above the largest shown value. -/
def digitsImage (k v : Nat) : Nat :=
  if 10 ^ k ≤ v then 2 ^ (7 * k) - 1
  else (List.range k).foldl (fun a i =>
    let p := 10 ^ (k - 1 - i)
    a + (if v < p && p ≠ 1 then 0 else digitSegs (v / p % 10)) * 2 ^ (7 * i)) 0

/-- The lit segments of a symbol, from bit 0 (R548); an unknown value shows blank. -/
def Symbol.image (y : Symbol) : Option Rat → Nat
  | none => 0
  | some v =>
    match y.kind with
    | 1 => if y.thresh ≤ v then 2 ^ y.n - 1 else 0
    | 2 => 2 ^ (min y.n (roundN (v * y.scale))) - 1
    | _ => digitsImage (y.n / 7) (roundN (v * y.scale))

/-- A bit of the shadow image written. -/
def World.putSeg (w : World) (i : Nat) (on : Bool) : World :=
  let v := w.rd .A F.DSP_SEG.BITS (i / 32)
  w.wr .A F.DSP_SEG.BITS (i / 32) (if bitOf v (i % 32) = on then v else if on then v + 2 ^ (i % 32) else v - 2 ^ (i % 32))

/-- The Steward of the owning half evaluates the symbols into the shadow and latches (R548); a half that does not own the segment driver
evaluates none. -/
def execSymbolEvaluation (h : Half) (s : State) : Out :=
  putW s <| match s.w.dsp.sec with
    | none => s.w
    | some d => s.w.when (s.own.alive h && s.own.owns h objSeg) fun w =>
      let dark := 500 ≤ w.mt h / ms % 1000
      (w.forAll d.syms fun w y =>
        let img := if y.blink && dark then 0 else y.image (w.symValue h y)
        w.forAll (List.range y.n) fun w i => w.putSeg (y.seg0 + i) (bitOf img i)).segLatch

/-! The panel (R549–R553). -/

/-- A step of the panel's sequence entered: its number, its rails and PNL_STATE. -/
def World.pnlStep (w : World) (k : Nat) : World :=
  let en := match k with
    | 1 => [true, false, false]
    | 2 => [true, true, false]
    | 3 => [true, true, true]
    | 4 => [true, true, true]
    | 7 => [true, true, false]
    | 8 => [true, false, false]
    | 10 => [w.dsp.en.getD 0 false, w.dsp.en.getD 1 false, false]
    | 11 => [w.dsp.en.getD 0 false, false, false]
    | 0 => [false, false, false]
    | _ => w.dsp.en
  let st := match k with
    | 0 => 0
    | 1 => 1
    | 2 => 1
    | 3 => 2
    | 4 => 3
    | 5 => 4
    | 6 => 5
    | 9 => 5
    | _ => 4
  ((w.updDsp fun d => { d with step := k, stepAt := w.now, en := en }).wr .A F.DSP_STATUS.PNL_STATE 0 st).wr .A F.DSP_STATUS.BL 0 (b2n (k = 4))

/-- SHOWING or OFF reached, with EVT_DSP. -/
def World.pnlReach (w : World) (k : Nat) : World := (w.pnlStep k).dspEvent objPnl (if k = 4 then 3 else 4)

/-- The fast path starts: backlight off, segments blank, discharge (R553). -/
def World.dspFast (w : World) : World :=
  if w.flag .A F.DSP_STATUS.FAST then w
  else ((w.pnlStep 9).wr .A F.DSP_STATUS.FAST 0 1).dspEvent objPnl 5

/-- The display's Green entry (R62, R63): the driver blanks and, for the panel, discharges. -/
def World.greenDsp (w : World) (k : Nat) : World :=
  if k = objSeg then w.updDsp fun d => { d with segGreen := true, latchAt := none }
  else (w.updDsp fun d => { d with pnlGreen := true }).dspFast

/-- Whether the panel may be powered: PNL_EN set, no Green state, no SAFE_OFF (R62, R65). -/
def World.pnlMayRun (w : World) : Bool := w.flag .A F.DSP_CTRL.PNL_EN && !w.dsp.pnlGreen && !w.safeOn objPnl

/-- The time of a step of the panel's sequence, ns (R551, R553). -/
def pnlTime : Nat → Nat
  | 1 => 10 * ms
  | 2 => 10 * ms
  | 3 => 33400 * us
  | 5 => 33400 * us
  | 6 => 20 * ms
  | 7 => 10 * ms
  | 8 => 10 * ms
  | 9 => 20 * ms
  | 10 => 2 * ms
  | 11 => 2 * ms
  | _ => 0

/-- A timed step of the panel's sequence completes and the next starts; a change of PNL_EN starts the opposite sequence from the point
reached (R551). -/
def execPanelSequenceStep (s : State) : Out := lift s fun w =>
  let k := w.dsp.step
  let en := w.flag .A F.DSP_CTRL.PNL_EN
  w.when (k ≠ 0 && k ≠ 4 && w.dsp.stepAt + pnlTime k ≤ w.now) fun w =>
    match k with
    | 1 => if en then w.pnlStep 2 else w.pnlReach 0
    | 2 => if en then w.pnlStep 3 else w.pnlStep 8
    | 3 => if en then w.pnlReach 4 else w.pnlStep 6
    | 5 => if en then w.pnlReach 4 else w.pnlStep 6
    | 6 => if en then w.pnlStep 3 else w.pnlStep 7
    | 7 => if en then w.pnlStep 3 else w.pnlStep 8
    | 8 => if en then w.pnlStep 2 else w.pnlReach 0
    | 9 => w.pnlStep 10
    | 10 => w.pnlStep 11
    | _ =>
      let w := (w.pnlReach 0).wr .A F.DSP_STATUS.FAST 0 0
      w.when w.pnlMayRun (·.pnlStep 1)

/-- PNL_EN set or cleared: the sequence starts where none is in progress. -/
def World.pnlEnable (w : World) (en : Bool) : World :=
  let w := (w.wr .A F.DSP_CTRL.PNL_EN 0 (b2n en)).updDsp fun d => { d with pnlGreen := false }
  if en then w.when (w.dsp.step = 0 && w.pnlMayRun) (·.pnlStep 1)
  else w.when (w.dsp.step = 4) (·.pnlStep 5)

/-- A write of DSP_CTRL.PNL_EN by the owner of the panel driver (R551). -/
def execPanelEnable (h : Half) (init : Nat) (en : Bool) (s : State) : Out := putW s <| gateObj s h init objPnl fun w => w.pnlEnable en

/-- DSP_PNL_CMD.LOAD by the owner of the panel driver (R550): the copy starts, or restarts with the newer address. -/
def execPanelLoad (h : Half) (init : Nat) (s : State) : Out :=
  putW s <| gateObj s h init objPnl fun w =>
    (w.updDsp fun d => { d with copy := some (h, w.rd .A F.DSP_PNL_SRC.ADDR) }).wr .A F.DSP_STATUS.COPYING 0 1

/-- A copy that loses its owner is abandoned (R550). -/
def World.copyLost (w : World) : World :=
  w.when w.dsp.copy.isSome fun w => ((w.updDsp fun d => { d with copy := none }).wr .A F.DSP_STATUS.COPYING 0 0).dspEvent objPnl 6

/-- The bytes of a frame: 800 × 480 pixels of 4 bytes. -/
def frameBytes : Nat := 1536000

/-- The copy completes: the store not shown holds the frame, and is shown from the next frame (R550). -/
def execPanelCopyComplete (s : State) : Out := lift s fun w =>
  match w.dsp.copy with
  | none => w
  | some (h, a) =>
    let m : Memory := (((w.dram.get h).filter (fun e => decide (region 0 a ≤ e.1 ∧ e.1 < region 0 a + frameBytes))).map
      (fun e => (e.1 - region 0 a, e.2)))
    let shown := w.rd .A F.DSP_STATUS.STORE
    let w := w.updDsp fun d =>
      if shown = 0 then { d with copy := none, store1 := m } else { d with copy := none, store0 := m }
    (w.wr .A F.DSP_STATUS.COPYING 0 0).wr .A F.DSP_STATUS.STORE 0 (1 - shown)

/-- DISP loaded at Bloom step 6 (R92, R554): CTRL from its FLAGS; the drivers leave the blank state of power-on. -/
def World.dspLoad (w : World) (d : DispSec) : World :=
  let first := w.dsp.sec.isNone
  let w := (w.updDsp fun x => { x with sec := some d }).wr .A F.DSP_CTRL.SEG_EN 0 (b2n d.segEn)
  w.when first fun w => (w.updDsp fun x => { x with segGreen := false }).pnlEnable d.panel

end Sys2Proof.Machine
end

