-- ==== Sys2Proof/Machine/Can.lean ====
section
/-!
DEFINITION. The CAN FD channels: modes, transmit buffers, the scheduler, errors, reception, signals, Knock and Green (R406–R429).
-/
namespace Sys2Proof.Machine

/-- A channel. -/
def World.canCh (w : World) (n : Nat) : CanCh := NMap.get {} w.can.ch n

/-- A channel changed. -/
def World.updCan (w : World) (n : Nat) (f : CanCh → CanCh) : World := { w with can := { w.can with ch := NMap.upd {} w.can.ch n f } }

/-- EVT_CAN_BUS of a channel with a cause (R430). -/
def World.canBus (w : World) (n cause : Nat) : World := w.raiseBoth (160 + 2 * n) (evArg n 0xFF cause)

/-- A register field of a channel (backplane). -/
def World.canRd (w : World) (n : Nat) (f : Field) : Nat := w.rd .A f n

/-- A register field of a channel written. -/
def World.canWr (w : World) (n : Nat) (f : Field) (v : Nat) : World := w.wr .A f n v

/-- A buffer's state (R416). -/
def World.tbState (w : World) (n b : Nat) : Nat := w.rd .A F.CAN_TXST.STATE (3 * n + b)

/-- A buffer's state set. -/
def World.setTb (w : World) (n b st : Nat) : World := w.wr .A F.CAN_TXST.STATE (3 * n + b) st

/-- Buffers in a state 0–6 that end ABORTED: the pending ones, and the active one if `act`. -/
def World.abortAll (w : World) (n : Nat) (act : Bool) : World :=
  w.forAll (List.range 3) fun w b =>
    if w.tbState n b = 1 || (act && w.tbState n b = 2) then w.setTb n b 6 else w

/-- The channel's transmitter may drive: in CLASSIC or FD, not Green, Knocked, locked out or off the bus (R407, R409, R418, R419, R425). -/
def World.canMayTx (w : World) (n : Nat) : Bool :=
  let m := w.canRd n F.CAN_CTRL.MODE
  let st := w.canRd n F.CAN_STATUS.STATE
  (m = 1 || m = 2) && (st = 0 || st = 1) && w.canRd n F.CAN_STATUS.GREEN = 0 && w.canRd n F.CAN_STATUS.KNOCKED = 0 &&
    w.canRd n F.CAN_STATUS.LOCKOUT = 0 && w.canRd n F.CAN_STATUS.TRX = 0

/-- The channel enters its Green state (R62, R408): AUX 0 turns the transmitter off, AUX 1 puts the transceiver in standby. -/
def World.greenCan (w : World) (n : Nat) : World :=
  let g := w.gren (objC n)
  let w := (w.canWr n F.CAN_STATUS.GREEN 1).canWr n F.CAN_STATUS.TRX (if g.aux = 1 then 1 else 2)
  (w.abortAll n true).updCan n fun c => { c with due := [], inTb0 := none }

/-- The channel leaves its Green state when its owner acts on it (R64). -/
def World.canLeaveGreen (w : World) (n : Nat) : World :=
  if w.canRd n F.CAN_STATUS.GREEN = 1 && w.canRd n F.CAN_CTRL.MODE ≠ 0 && !w.safeOn (objC n) then
    (w.canWr n F.CAN_STATUS.GREEN 0).canWr n F.CAN_STATUS.TRX 0
  else w

/-- A mode set (R409): the controller integrates anew; in OFF the transceiver follows STANDBY. -/
def World.setCanMode (w : World) (n m : Nat) : World :=
  if w.canRd n F.CAN_CTRL.MODE = m then w
  else
    let w := (w.canWr n F.CAN_CTRL.MODE m).canWr n F.CAN_STATUS.STATE 3
    if m = 0 then (w.abortAll n true).canWr n F.CAN_STATUS.TRX (if w.canRd n F.CAN_CTRL.STANDBY = 1 then 1 else 3)
    else w.canLeaveGreen n

/-- Bloom step 6: the owning half loads a channel's configuration from CANM (R407); one whose MODE is OFF keeps its Green state. -/
def World.canLoad (w : World) (n : Nat) : World :=
  let c := w.can.sec.chans.getD n {}
  let w := w.updCan n fun x => { x with cfg := c }
  if c.mode = 0 then w
  else
    let f (w : World) (x : Field × Nat) : World := w.canWr n x.1 x.2
    let w := [(F.CAN_CTRL.SELF_RX, b2n c.selfRx), (F.CAN_CTRL.TX_ORDER, b2n c.order), (F.CAN_CTRL.TDC_EN, b2n c.tdc)
             , (F.CAN_CTRL.TERM, b2n c.term), (F.CAN_NBT.NBRP, c.nbrp - 1), (F.CAN_NBT.NTSEG1, c.ntseg1 - 1)
             , (F.CAN_NBT.NTSEG2, c.ntseg2 - 1), (F.CAN_NBT.NSJW, c.nsjw - 1), (F.CAN_DBT.DBRP, c.dbrp - 1)
             , (F.CAN_DBT.DTSEG1, c.dtseg1 - 1), (F.CAN_DBT.DTSEG2, c.dtseg2 - 1), (F.CAN_DBT.DSJW, c.dsjw - 1)
             , (F.CAN_TDC.TDCO, c.tdco), (F.CAN_TDC.TDCF, c.tdcf)].foldl f w
    (w.setCanMode n c.mode).canLeaveGreen n

/-- Integration ends: 11 recessive bits seen, the channel is on its bus (R407, by step 7 of Bloom). -/
def World.canOnBus (w : World) (n : Nat) : World :=
  if w.canRd n F.CAN_STATUS.STATE = 3 && w.canRd n F.CAN_CTRL.MODE ≠ 0 then w.canWr n F.CAN_STATUS.STATE 0 else w

/-- The transmit signals' INIT values, loaded at Bloom (R429). -/
def World.canInit (w : World) : World :=
  w.forAll w.can.sec.sigs.zipIdx fun w x =>
    if (w.can.sec.msgs.getD x.1.msg {}).dir = 1 then w.wrBoth F.CAN_SIGV.VALUE x.2 x.1.init else w

/-- When the module leaves SERVICE each channel returns to its mode of CANM (R409). -/
def World.canLeaveService (w : World) : World :=
  w.forAll (List.range 16) fun w n => w.setCanMode n (w.canCh n).cfg.mode

/-- A channel's registers are written by its owner alone (R406). -/
def canGate (s : State) (h : Half) (init : Nat) (f : World → Nat → World) : World :=
  let n := s.w.sel h F.CAN_SEL.CH init
  gateObj s h init (objC n) fun w => f w n

/-- CAN_CTRL written (R409, R429): STANDBY always; the RWL fields while unlocked, MODE to or from MONITOR only in SERVICE unless CANM
configures the channel so. -/
def execCanModeWrite (h : Half) (init v : Nat) (s : State) : Out :=
  putW s <| canGate s h init fun w n =>
    let w := w.canWr n F.CAN_CTRL.STANDBY (bitsOf v 2 1)
    let w := w.when (w.flag h F.CAN_LOCK.OPEN) fun w =>
      let w := (((w.canWr n F.CAN_CTRL.SELF_RX (bitsOf v 6 1)).canWr n F.CAN_CTRL.TX_ORDER (bitsOf v 5 1)).canWr n
        F.CAN_CTRL.TDC_EN (bitsOf v 4 1)).canWr n F.CAN_CTRL.TERM (bitsOf v 3 1)
      let m := bitsOf v 9 2
      let old := w.canRd n F.CAN_CTRL.MODE
      let ok := w.inService h || !((m = 3 && (w.canCh n).cfg.mode ≠ 3) || (old = 3 && m ≠ 3))
      w.when ok fun w => w.setCanMode n m
    w.when (w.canRd n F.CAN_CTRL.MODE = 0 && w.canRd n F.CAN_STATUS.GREEN = 0) fun w =>
      w.canWr n F.CAN_STATUS.TRX (if w.canRd n F.CAN_CTRL.STANDBY = 1 then 1 else 3)

/-- A channel Knocked (R425): dominant drive stops, every buffer that is PENDING or ACTIVE ends ABORTED, the scheduler stops. -/
def World.knockCan (w : World) (n : Nat) : World :=
  ((w.abortAll n true).updCan n fun c => { c with due := [], inTb0 := none }).canWr n F.CAN_STATUS.KNOCKED 1

/-- CAN_CTRL.KNOCK. -/
def execCanKnock (h : Half) (init : Nat) (s : State) : Out := putW s <| canGate s h init fun w n => w.knockCan n

/-- CAN_CTRL.CLR_LOCKOUT by the owner: LOCKOUT ends and the channel recovers as from bus-off (R419). -/
def execCanClrLockout (h : Half) (init : Nat) (s : State) : Out :=
  putW s <| canGate s h init fun w n =>
    w.when (w.canRd n F.CAN_STATUS.LOCKOUT = 1) fun w =>
      ((w.canWr n F.CAN_STATUS.LOCKOUT 0).canWr n F.CAN_STATUS.RECOV 0).updCan n fun c => { c with cleared := true }

/-- CAN_CTRL.CLR_CNT. -/
def execCanClrCnt (h : Half) (init : Nat) (s : State) : Out :=
  putW s <| canGate s h init fun w n => w.setReg .A F.CAN_CNT.SKIP n 0

/-- CAN_TXCMD.REQ (R414): each named buffer that is not PENDING or ACTIVE, nor held by the scheduler, is PENDING; in LOCKOUT REQ is
ignored (R419). -/
def execCanTxRequest (h : Half) (init mask : Nat) (s : State) : Out :=
  putW s <| canGate s h init fun w n =>
    if w.canRd n F.CAN_STATUS.LOCKOUT = 1 then w
    else
      let w := w.when (mask % 8 ≠ 0) fun w => w.canLeaveGreen n
      w.forAll ((List.range 3).filter (bitOf mask)) fun w b =>
        if w.tbState n b = 1 || w.tbState n b = 2 || w.rd .A F.CAN_TXST.SCHED (3 * n + b) = 1 then w
        else w.setReg .A F.CAN_TXST.STATE (3 * n + b) (BitVec.ofNat 32 (2 ^ 29))

/-- CAN_TXCMD.ABORT (R416, R425): a PENDING buffer at once, an ACTIVE one at the end of its frame; 0b111 clears KNOCKED, unless SAFE_OFF
holds it. -/
def execCanTxAbort (h : Half) (init mask : Nat) (s : State) : Out :=
  putW s <| canGate s h init fun w n =>
    let w := w.forAll ((List.range 3).filter (bitOf mask)) fun w b =>
      if w.tbState n b = 1 then w.setTb n b 6
      else if w.tbState n b = 2 then w.updCan n fun c => { c with abort := listSet c.abort b true }
      else w
    w.when (mask % 8 = 7 && !w.safeOn (objC n)) fun w => w.canWr n F.CAN_STATUS.KNOCKED 0

/-! Frames (R415, R417, R423). -/

/-- The words of a frame in a transmit buffer (CAN_TXB). -/
def World.tbFrame (w : World) (n b : Nat) : CanFrame :=
  let i := 3 * n + b
  let fd := w.flag .A F.CAN_TXB_W1.FDF i
  { ide := w.flag .A F.CAN_TXB_W0.IDE i, rtr := w.flag .A F.CAN_TXB_W0.RTR i && !fd, id := w.rd .A F.CAN_TXB_W0.ID i, fdf := fd
    brs := w.flag .A F.CAN_TXB_W1.BRS i, esi := false, dlc := w.rd .A F.CAN_TXB_W1.DLC i
    data := (List.range 16).flatMap (fun k => leBytes (w.rd .A F.CAN_TXB_DATA.DATA (16 * i + k)) 4) }

/-- The arbitration field as a number: the lower wins on the bus (R415). -/
def CanFrame.arb (f : CanFrame) : Nat :=
  if f.ide then f.id / 2 ^ 18 % 2 ^ 11 * 2 ^ 21 + 3 * 2 ^ 19 + f.id % 2 ^ 18 * 2 + b2n f.rtr
  else f.id % 2 ^ 11 * 2 ^ 21 + b2n f.rtr * 2 ^ 20

/-- The buffer a start of arbitration offers (R415). -/
def World.offer (w : World) (n : Nat) : Option Nat :=
  let pend := (List.range 3).filter (fun b => w.tbState n b = 1)
  if w.canRd n F.CAN_CTRL.TX_ORDER = 1 then pend.head?
  else pend.foldl (fun a b => match a with
    | some c => if (w.tbFrame n b).arb < (w.tbFrame n c).arb then some b else a
    | none => some b) none

/-- A start of arbitration (R415): one pending buffer is ACTIVE, and its attempt is counted. -/
def execCanArbitration (n : Nat) (s : State) : Out := lift s fun w =>
  if 16 ≤ n then w
  else
    let w := w.canOnBus n
    if !w.canMayTx n || (List.range 3).any (fun b => w.tbState n b = 2) then w
    else match w.offer n with
      | some b => (w.setTb n b 2).bump .A F.CAN_TXST.ATTEMPTS (3 * n + b)
      | none => w

/-- The payload length of a DLC. -/
def dlcLen (fdf : Bool) (d : Nat) : Nat :=
  if d ≤ 8 then d
  else if !fdf then 8
  else match d with
    | 9 => 12
    | 10 => 16
    | 11 => 20
    | 12 => 24
    | 13 => 32
    | 14 => 48
    | _ => 64

/-- Bits written in a payload, least significant first (R423). -/
def putBits (bs : List Byte) (start len v : Nat) : List Byte :=
  bs.zipIdx.map fun x =>
    (List.range 8).foldl (fun (b : Byte) j =>
      let k := 8 * x.2 + j
      if start ≤ k && k < start + len then
        (if bitOf v (k - start) then b ||| BitVec.ofNat 8 (2 ^ j) else b &&& ~~~ BitVec.ofNat 8 (2 ^ j))
      else b) x.1

/-- A field of a payload, least significant bit first. -/
def getBits (bs : List Byte) (start len : Nat) : Nat :=
  (List.range len).foldl (fun a k => a + (if bitOf (byteAt bs ((start + k) / 8)) ((start + k) % 8) then 2 ^ k else 0)) 0

/-- The largest valid raw value under J1939_NA (R423). -/
def naMax (len : Nat) : Nat := if 8 ≤ len then 0xFB * 2 ^ (len - 8) - 1 else 2 ^ len - 3

/-- A transmit value as a raw field (R423). -/
def CanSig.raw (g : CanSig) (v : Rat) : Nat :=
  let r := roundR ((v - g.ofs) / g.scale)
  let hi : Int := if g.na then (naMax g.len : Int) else if g.sgn then 2 ^ (g.len - 1) - 1 else 2 ^ g.len - 1
  let lo : Int := if g.sgn then -(2 ^ (g.len - 1)) else 0
  toTwos g.len (clampI lo hi r)

/-- 8 steps of the SAE J1850 CRC register. -/
def crc8Shift : Nat → Nat → Nat
  | 0, c => c
  | n + 1, c => crc8Shift n (if bitOf c 7 then (2 * c % 256) ^^^ 0x1D else 2 * c % 256)

/-- The SAE J1850 CRC of a list of bytes (R423). -/
def crc8 (bs : List Byte) : Nat := (bs.foldl (fun c b => crc8Shift 8 (c ^^^ b.toNat)) 0xFF) ^^^ 0xFF

/-- The signals of a message with their indices. -/
def CanSec.sigsOf (c : CanSec) (m : Nat) : List (CanSig × Nat) :=
  let x := c.msgs.getD m {}
  (List.range' x.first x.nSig).map (fun i => (c.sigs.getD i {}, i))

/-- The identifier a scheduled message is sent with: the claimed address in bits 7–0 on a channel with a stack (R417). -/
def World.schedId (w : World) (n : Nat) (m : CanMsg) : Nat :=
  if m.ide && (w.canCh n).cfg.stack ≠ 0 then m.id / 256 * 256 + w.canRd n F.CAN_SA.SA else m.id

/-- A scheduled frame composed from the signal values (R417, R423): VALUE signals, COUNTERs that rise by one, then the CRC8. -/
def World.compose (w : World) (n m : Nat) : CanFrame × World :=
  let x := w.can.sec.msgs.getD m {}
  let sigs := w.can.sec.sigsOf m
  let w := w.forAll (sigs.filter (fun s => s.1.kind = 1)) fun w s =>
    w.updCan n fun c => { c with ctr := NMap.set 0 c.ctr s.2 ((NMap.get 0 c.ctr s.2 + 1) % 2 ^ s.1.len) }
  let base : List Byte := List.replicate (dlcLen x.fdf x.dlc) (BitVec.ofNat 8 x.fill)
  let bs := (sigs.filter (fun s => s.1.kind ≠ 2)).foldl (fun bs s =>
    let v := if s.1.kind = 1 then NMap.get 0 (w.canCh n).ctr s.2 else s.1.raw (f32Val (w.rd .A F.CAN_SIGV.VALUE s.2))
    putBits bs s.1.start s.1.len v) base
  let bs := match sigs.find? (fun s => s.1.kind = 2) with
    | some s => putBits bs s.1.start 8 (crc8 ((bs.zipIdx.filter (fun y => y.2 ≠ s.1.start / 8)).map (·.1)))
    | none => bs
  ({ ide := x.ide, rtr := false, id := w.schedId n x, fdf := x.fdf, brs := x.brs, esi := false, dlc := x.dlc, data := bs }, w)

/-- A frame put in TB0 by the scheduler (R417). -/
def World.loadTb0 (w : World) (n m : Nat) (f : CanFrame) : World :=
  let i := 3 * n
  let w := w.setReg .A F.CAN_TXB_W0.ID i (BitVec.ofNat 32 (f.id + (if f.ide then 2 ^ 31 else 0)))
  let w := w.setReg .A F.CAN_TXB_W1.DLC i (BitVec.ofNat 32 (f.dlc + (if f.fdf then 2 ^ 30 else 0) + (if f.brs then 2 ^ 29 else 0)))
  let w := w.forAll (List.range 16) fun w k => w.setReg .A F.CAN_TXB_DATA.DATA (16 * i + k) (BitVec.ofNat 32 (u32At f.data (4 * k)))
  (w.setReg .A F.CAN_TXST.STATE i (BitVec.ofNat 32 (2 ^ 29 + 2 ^ 28))).updCan n fun c => { c with inTb0 := some m }

/-- TB0 taken for the next waiting scheduled frame when the previous has finished (R417); after an ERROR or a lost arbitration too, since
scheduling resumes after a recovery (R418). -/
def World.feedTb0 (w : World) (n : Nat) : World :=
  let c := w.canCh n
  let st := w.tbState n 0
  if st = 1 || st = 2 then w
  else match c.due with
    | (m, f) :: t => (w.updCan n fun c => { c with due := t }).loadTb0 n m f
    | [] => w.updCan n fun c => { c with inTb0 := none }

/-- A due instant of scheduled message `m` (R417). A frame of the same message still pending is replaced and counted. -/
def execCanScheduleDue (n m : Nat) (s : State) : Out := lift s fun w =>
  match w.can.sec.msgs[m]? with
  | none => w
  | some x =>
    let c := w.canCh n
    let off := w.canRd n F.CAN_STATUS.GREEN = 1 || w.canRd n F.CAN_STATUS.KNOCKED = 1 || w.canRd n F.CAN_STATUS.LOCKOUT = 1
    let md := w.canRd n F.CAN_CTRL.MODE
    if x.ch ≠ n || x.dir ≠ 1 || x.owner ≠ 0 || off || !(md = 1 || md = 2) || (c.cfg.stack ≠ 0 && !c.claimed) then w
    else
      let f := (w.compose n m).1
      let w := (w.compose n m).2
      if w.tbState n 0 = 1 && c.inTb0 = some m then (w.loadTb0 n m f).bump .A F.CAN_CNT.SKIP n
      else if c.due.any (fun y => y.1 = m) then
        (w.updCan n fun c => { c with due := c.due.map (fun y => if y.1 = m then (m, f) else y) }).bump .A F.CAN_CNT.SKIP n
      else
        (w.updCan n fun c => { c with due := insertBy (fun a b => decide (a.2.id ≤ b.2.id)) (m, f) c.due }).feedTb0 n

/-! Errors (R416, R418, R419, R424). -/

/-- The error counters set, with the passage between error active and error passive (R418). -/
def World.setErrc (w : World) (n tec rec_ : Nat) : World :=
  let w := (w.canWr n F.CAN_ERRC.TEC (min tec 511)).canWr n F.CAN_ERRC.REC (min rec_ 255)
  let st := w.canRd n F.CAN_STATUS.STATE
  let passive : Bool := 128 ≤ tec || 128 ≤ rec_
  if st = 0 && passive then (w.canWr n F.CAN_STATUS.STATE 1).canBus n 1
  else if st = 1 && !passive then (w.canWr n F.CAN_STATUS.STATE 0).canBus n 2
  else w

/-- A buffer's frame ends in an error (R416): its fields, the counter, and retry, ERROR or ABORTED. Where TEC now exceeds 255 it stays
ACTIVE for the bus-off that follows. -/
def World.txError (w : World) (n b ty fld pos : Nat) : World :=
  let i := 3 * n + b
  let one := w.flag .A F.CAN_TXB_W1.ONESHOT i
  let ab := (w.canCh n).abort.getD b false
  let w := ((w.wr .A F.CAN_TXST.ERR_TYPE i ty).wr .A F.CAN_TXST.ERR_FIELD i fld).wr .A F.CAN_TXST.ERR_POS i pos
  let w := w.canWr n F.CAN_STATUS.LAST_ERR ty
  let ackPassive : Bool := ty = 6 && w.canRd n F.CAN_STATUS.STATE = 1
  let w := if ackPassive then w else w.setErrc n (w.canRd n F.CAN_ERRC.TEC + 8) (w.canRd n F.CAN_ERRC.REC)
  let off : Bool := 255 < w.canRd n F.CAN_ERRC.TEC
  let w := w.setTb n b (if one then 4 else if off then 2 else if ab then 6 else 1)
  let w := w.updCan n fun c => { c with abort := listSet c.abort b false }
  if b = 0 && (one || ab) && w.rd .A F.CAN_TXST.SCHED i = 1 then w.feedTb0 n else w

/-- A frame ends (R416): `res` 0 sent and acknowledged, 1 arbitration lost, 2 an error of type `ty` in field `fld` at bit `pos`. `tdcv`: the
loop delay that an FD frame measured (R411). -/
def execCanTxComplete (n res ty fld pos tdcv : Nat) (s : State) : Out := lift s fun w =>
  match (List.range 3).find? (fun b => w.tbState n b = 2) with
  | none => w
  | some b =>
    let w := w.when (w.flag .A F.CAN_TXB_W1.FDF (3 * n + b) && res ≠ 1) fun w => w.canWr n F.CAN_TDC.TDCV (min tdcv 127)
    let i := 3 * n + b
    if 2 ≤ res then w.txError n b ty fld pos
    else
      let one := w.flag .A F.CAN_TXB_W1.ONESHOT i
      let ab := (w.canCh n).abort.getD b false
      let st := if res = 0 then 3 else if one then 5 else if ab then 6 else 1
      let w := (w.setTb n b st).updCan n fun c => { c with abort := listSet c.abort b false }
      let w := w.when (res = 0) fun w => w.setErrc n (w.canRd n F.CAN_ERRC.TEC - 1) (w.canRd n F.CAN_ERRC.REC)
      if b = 0 && st ≠ 1 then w.feedTb0 n else w

/-- A clash recorded and reported at most once per identifier and second (R424). -/
def World.clash (w : World) (n kind : Nat) (ide : Bool) (id : Nat) : World :=
  let key := id + (if ide then 2 ^ 30 else 0)
  let now := w.now
  let told := (w.canCh n).told.any (fun x => x.1 = key && decide (now < x.2 + sec))
  let w := w.setReg .A F.CAN_CLASH.ID n (BitVec.ofNat 32 (key + kind * 2 ^ 31))
  if told then w
  else (w.updCan n fun c => { c with told := (key, now) :: c.told.filter (fun x => decide (now < x.2 + sec)) }).raiseBoth
    (161 + 2 * n) (key + kind * 2 ^ 31)

/-- A bit error after arbitration in the control, data or CRC field (R424): a clash candidate; two on one identifier within 1 s are a
clash. -/
def execCanTxError (n ty fld pos : Nat) (s : State) : Out := lift s fun w =>
  match (List.range 3).find? (fun b => w.tbState n b = 2) with
  | none => w
  | some b =>
    let f := w.tbFrame n b
    let key := f.id + (if f.ide then 2 ^ 30 else 0)
    let now := w.now
    let again := (w.canCh n).cands.any (fun x => x.1 = key && decide (now < x.2 + sec))
    let w := w.bump .A F.CAN_CNT.CLASH n
    let w := w.updCan n fun c => { c with cands := (key, now) :: c.cands.filter (fun x => decide (now < x.2 + sec)) }
    let w := if again then w.clash n 0 f.ide f.id else w
    w.txError n b ty fld pos

/-- TEC exceeds 255 (R416, R418): the channel is off the bus; its ACTIVE buffer ends ERROR, the pending ones wait. -/
def execCanBusOff (n : Nat) (s : State) : Out := lift s fun w =>
  let st := w.canRd n F.CAN_STATUS.STATE
  if w.canRd n F.CAN_ERRC.TEC ≤ 255 || st = 2 then w
  else
    let now := w.now
    let w := w.forAll (List.range 3) fun w b => if w.tbState n b = 2 then w.setTb n b 4 else w
    let w := w.updCan n fun c => { c with boffs := now :: c.boffs.filter (fun t => decide (now < t + 60 * sec)) }
    let w := (w.canWr n F.CAN_STATUS.STATE 2).canWr n F.CAN_STATUS.RECOV 0
    let w := (w.canWr n F.CAN_STATUS.BOFF (satTo 4 (w.canCh n).boffs.length)).bump .A F.CAN_CNT.BOFF n
    w.canBus n 3

/-- 128 sequences of 11 recessive bits have been seen (R418): the channel is error active again, unless it now enters LOCKOUT (R419). -/
def execCanBusOffRecovery (n : Nat) (s : State) : Out := lift s fun w =>
  if w.canRd n F.CAN_STATUS.STATE ≠ 2 || w.canRd n F.CAN_STATUS.LOCKOUT = 1 then w
  else
    let c := w.canCh n
    let recent := c.boffs.filter (fun t => decide (w.now < t + 60 * sec))
    if c.cfg.boffLimit ≠ 0 && c.cfg.boffLimit ≤ recent.length && !c.cleared then
      (((w.abortAll n true).updCan n fun c => { c with due := [], inTb0 := none }).canWr n F.CAN_STATUS.LOCKOUT 1).canBus n 5
    else
      let w := ((w.canWr n F.CAN_STATUS.STATE 0).canWr n F.CAN_STATUS.RECOV 128).updCan n fun c => { c with cleared := false }
      ((w.canWr n F.CAN_ERRC.TEC 0).canWr n F.CAN_ERRC.REC 0).canBus n 4 |>.feedTb0 n

/-- TXD (`txd`) or the bus has been dominant for 4 ms, or the condition has been absent for 10 ms (R412). -/
def execCanTrxFault (n : Nat) (on txd : Bool) (s : State) : Out := lift s fun w =>
  let was := w.canRd n F.CAN_STATUS.TRX_FAULT
  if on then
    let w := w.canWr n F.CAN_STATUS.TRX_FAULT 1
    let w := w.when (txd && w.canRd n F.CAN_STATUS.TRX = 0) fun w => w.canWr n F.CAN_STATUS.TRX 2
    w.when (was = 0) fun w => w.canBus n 7
  else
    let w := w.canWr n F.CAN_STATUS.TRX_FAULT 0
    w.when (was = 1 && w.canRd n F.CAN_STATUS.GREEN = 0 && w.canRd n F.CAN_STATUS.TRX = 2) fun w => w.canWr n F.CAN_STATUS.TRX 0

/-- A wake-up pattern on a channel with WAKE, while LOGIC_IN is present, in standby or normal mode (R413). -/
def execCanWake (n : Nat) (s : State) : Out := lift s fun w =>
  let trx := w.canRd n F.CAN_STATUS.TRX
  if (w.canCh n).cfg.wake && w.latch.logicValid && trx ≠ 3 then (w.canWr n F.CAN_STATUS.WAKE 1).canBus n 8 else w

/-- The stack claims an address, or loses its claim and sends only with the null address, 254 (R426). -/
def execJ1939AddressClaim (n sa : Nat) (lost : Bool) (s : State) : Out := lift s fun w =>
  if (w.canCh n).cfg.stack = 0 then w
  else if lost then ((w.canWr n F.CAN_SA.SA 254).updCan n fun c => { c with claimed := false }).canBus n 9
  else (w.canWr n F.CAN_SA.SA sa).updCan n fun c => { c with claimed := true }

/-- The words of a frame put into a transmit buffer, which becomes PENDING. -/
def World.putTb (w : World) (n b : Nat) (f : CanFrame) : World :=
  let i := 3 * n + b
  let w := w.setReg .A F.CAN_TXB_W0.ID i (BitVec.ofNat 32 (f.id + (if f.ide then 2 ^ 31 else 0)))
  let w := w.setReg .A F.CAN_TXB_W1.DLC i (BitVec.ofNat 32 (f.dlc + (if f.fdf then 2 ^ 30 else 0) + (if f.brs then 2 ^ 29 else 0)))
  let w := w.forAll (List.range 16) fun w k => w.setReg .A F.CAN_TXB_DATA.DATA (16 * i + k) (BitVec.ofNat 32 (u32At f.data (4 * k)))
  w.setReg .A F.CAN_TXST.STATE i (BitVec.ofNat 32 (2 ^ 29))

/-- DM1 of the module's active diagnostic codes, 4 bytes each, behind two bytes of lamps: one frame, or the announcement of the broadcast
that carries more than one code (SAE J1939-73 and -21: PRESUMED, log entry 54). -/
def dm1Frame (sa : Nat) (lamps : Nat) (codes : List Byte) : CanFrame :=
  let n := codes.length
  let one : List Byte := leBytes lamps 2 ++ (if n = 0 then leBytes 0 4 else codes) ++ leBytes 0xFFFF 2
  let bam : List Byte := leBytes 32 1 ++ leBytes (n + 2) 2 ++ leBytes ((n + 8) / 7) 1 ++ leBytes 0xFF 1 ++ leBytes 0xFECA 3
  { ide := true, rtr := false, id := (if n ≤ 4 then 0x18FECA00 else 0x1CECFF00) + sa % 256, fdf := false, brs := false, esi := false
    dlc := 8, data := if n ≤ 4 then one else bam }

/-- A channel's stack may send: J1939, its claim made or lost (R426), on the bus, none of its stops. -/
def World.stackSends (w : World) (n : Nat) : Bool :=
  let md := w.canRd n F.CAN_CTRL.MODE
  let c := w.canCh n
  n < 16 && c.cfg.stack = 1 && (c.claimed || w.canRd n F.CAN_SA.SA = 254) && (md = 1 || md = 2) && w.canRd n F.CAN_STATUS.GREEN = 0 &&
    w.canRd n F.CAN_STATUS.KNOCKED = 0 && w.canRd n F.CAN_STATUS.LOCKOUT = 0

/-- DM1 is sent on TB1 every 1 s by the stack on the real-time cluster of the owning half (R426). -/
def execDm1Broadcast (n lamps : Nat) (codes : List Byte) (s : State) : Out := lift s fun w =>
  let run : Bool := match s.own.owner (objC n) with
    | some h => (w.run.get h).running
    | none => false
  let at_ := (w.canCh n).dm1At
  let now := w.now
  w.when (run && w.stackSends n && at_ + sec ≤ now && w.tbState n 1 ≠ 1 && w.tbState n 1 ≠ 2) fun w =>
    (w.putTb n 1 (dm1Frame (w.canRd n F.CAN_SA.SA) lamps codes)).updCan n fun c => { c with dm1At := now }

/-! Reception (R420–R423). -/

/-- A protocol error while receiving (R418): REC rises by 8 where the receiver sees a dominant bit after its error flag, else by 1 (ISO
11898-1: PRESUMED, log entry 52). -/
def execCanRxError (n ty : Nat) (dom : Bool) (s : State) : Out := lift s fun w =>
  w.when (n < 16 && w.canRd n F.CAN_CTRL.MODE ≠ 0 && w.canRd n F.CAN_STATUS.STATE ≠ 2) fun w =>
    (w.canWr n F.CAN_STATUS.LAST_ERR ty).setErrc n (w.canRd n F.CAN_ERRC.TEC) (w.canRd n F.CAN_ERRC.REC + (if dom then 8 else 1))

/-- The first matching filter of a channel, with its index on the channel (R420). -/
def World.canFilter (w : World) (n : Nat) (f : CanFrame) : Option (CanFlt × Nat) :=
  ((w.can.sec.flts.filter (fun x => x.ch = n)).zipIdx).find? (fun x => (x.1.id ^^^ f.id) &&& x.1.mask = 0 && x.1.ide = f.ide)

/-- A receive message decoded in both halves (R420, R423): values above the largest valid one write nothing. -/
def World.canDecode (w : World) (srv : Half) (m : Nat) (f : CanFrame) : World :=
  w.forAll (w.can.sec.sigsOf m) fun w s =>
    let raw := getBits f.data s.1.start s.1.len
    if s.1.na && naMax s.1.len < raw then w
    else
      let v : Rat := (if s.1.sgn then ((signed s.1.len raw : Int) : Rat) else (((raw : Nat)) : Rat)) * s.1.scale + s.1.ofs
      let w := w.wrBoth F.CAN_SIGV.VALUE s.2 (f32Of v)
      if s.1.bind = 0 then w
      else (w.externalWrite srv .A (bitsOf s.1.bind 0 12) v).externalWrite srv .B (bitsOf s.1.bind 0 12) v

/-- A frame put in the receive queue (R421, R422), or discarded and counted. -/
def World.canQueue (w : World) (n flt stamp : Nat) (self_ : Bool) (f : CanFrame) : World :=
  let hd := w.canRd n F.CAN_RXQ.HEAD
  let used := (hd + 65536 - w.canRd n F.CAN_RXQ.TAIL) % 65536
  if 64 ≤ used then
    let w := w.bump .A F.CAN_CNT.RX_OVF n
    if (w.canCh n).ovf then w else (w.updCan n fun c => { c with ovf := true }).canBus n 6
  else
    let i := 64 * n + hd % 64
    let w := w.setReg .A F.CAN_RXE_W0.IDE_RTR_ID i (BitVec.ofNat 32 (f.id + (if f.rtr then 2 ^ 30 else 0) + (if f.ide then 2 ^ 31 else 0)))
    let w := w.setReg .A F.CAN_RXE_W1.DLC i (BitVec.ofNat 32 (hd * 65536 + flt % 64 * 1024 + 512 * b2n f.fdf + 256 * b2n f.brs +
      128 * b2n f.esi + 64 * b2n self_ + f.dlc))
    let w := (w.setReg .A F.CAN_RXE_STAMP.STAMP (2 * i) (BitVec.ofNat 32 stamp)).setReg .A F.CAN_RXE_STAMP.STAMP (2 * i + 1)
      (BitVec.ofNat 32 (stamp / 2 ^ 32))
    let w := w.forAll (List.range 16) fun w k => w.setReg .A F.CAN_RXE_DATA.DATA (16 * i + k) (BitVec.ofNat 32 (u32At f.data (4 * k)))
    w.canWr n F.CAN_RXQ.HEAD ((hd + 1) % 65536)

/-- A frame of another node that bears an identifier or address of the module (R424). -/
def World.foreignId (w : World) (n : Nat) (f : CanFrame) : Bool :=
  (w.can.sec.msgs.any (fun m => m.ch = n && m.dir = 1 && m.ide = f.ide && w.schedId n m = f.id)) ||
    (w.canRd n F.CAN_SA.EN = 1 && f.ide && f.id % 256 = w.canRd n F.CAN_SA.SA)

/-- A frame ends on the bus (R420–R424): `self_` where the channel sent it; `stamp` is the module time of its SOF bit. -/
def execCanFrameReceived (n stamp : Nat) (self_ : Bool) (f : CanFrame) (s : State) : Out := lift s fun w =>
  let md := w.canRd n F.CAN_CTRL.MODE
  let w := w.canOnBus n
  if md = 0 || w.canRd n F.CAN_STATUS.TRX = 1 || 16 ≤ n then w
  else if md = 1 && f.fdf then (w.bump .A F.CAN_CNT.SKIP n).canWr n F.CAN_STATUS.STATE 3
  else
    let w := if self_ || md = 3 then w else w.setErrc n (w.canRd n F.CAN_ERRC.TEC) (w.canRd n F.CAN_ERRC.REC - 1)
    let w := if !self_ && md ≠ 3 && w.foreignId n f then (w.bump .A F.CAN_CNT.CLASH n).clash n 1 f.ide f.id else w
    if self_ && md ≠ 3 && w.canRd n F.CAN_CTRL.SELF_RX = 0 then w
    else match w.canFilter n f with
      | none => w
      | some (x, k) =>
        let w := if x.decode then w.canDecode s.srv x.msg f else w
        if x.queue && !x.stack then w.canQueue n k stamp self_ f else w

/-- CAN_RXACK written (R421): the new TAIL lies in (TAIL, HEAD], else it is ignored. -/
def execCanRxAck (h : Half) (init v : Nat) (s : State) : Out :=
  putW s <| canGate s h init fun w n =>
    let hd := w.canRd n F.CAN_RXQ.HEAD
    let tl := w.canRd n F.CAN_RXQ.TAIL
    let d := (v % 65536 + 65536 - tl) % 65536
    if 0 < d && d ≤ (hd + 65536 - tl) % 65536 then
      (w.canWr n F.CAN_RXQ.TAIL (v % 65536)).updCan n fun c => { c with ovf := false }
    else w

/-- A transmit signal's value written by the owner of its channel (R406, R429). -/
def World.writeSig (w : World) (sg v : Nat) : World :=
  let m := w.can.sec.msgs.getD ((w.can.sec.sigs.getD sg {}).msg) {}
  if m.dir = 1 then (w.wrBoth F.CAN_SIGV.VALUE sg v).canLeaveGreen m.ch else w

end Sys2Proof.Machine
end

