-- ==== Sys2Proof/Machine/Switch.lean ====
section
/-!
DEFINITION. Load switches, their trips and retries, and the feed budget (R221–R244).
-/
namespace Sys2Proof.Machine

/-! Access. -/

/-- The hidden state of switch `n`. -/
def World.swSt (w : World) (n : Nat) : Sw := NMap.get {} w.lsw.sw n

/-- The hidden state of a switch changed. -/
def World.updSw (w : World) (n : Nat) (f : Sw → Sw) : World :=
  { w with lsw := { w.lsw with sw := NMap.upd {} w.lsw.sw n f } }

/-- The class of a switch (R221): 0 S, 1 M, 2 H. -/
def swClass (n : Nat) : Nat := if n < 16 then 0 else if n < 40 then 1 else 2

/-- The class rating, mA (R221). -/
def classRating : Nat → Nat
  | 0 => 5000
  | 1 => 10000
  | _ => 25000

/-- The linear-limit ceiling, mA (R221). -/
def classCeiling : Nat → Nat
  | 0 => 30000
  | 1 => 60000
  | _ => 120000

/-- The short comparator, mA (R221). -/
def classShort : Nat → Nat
  | 0 => 40000
  | 1 => 80000
  | _ => 160000

/-- The default OL_ON, mA (R221). -/
def classOlOn : Nat → Nat
  | 0 => 50
  | 1 => 100
  | _ => 300

/-- The feed of a switch (R222): LB0 and LB1 FEED0, LB2 FEED1. -/
def swFeed (n : Nat) : Nat := if n < 32 then 0 else 1

/-- The switches of a feed. -/
def feedSwitches (f : Nat) : List Nat := if f = 0 then List.range 32 else List.range' 32 16

/-- The switches of a bank. -/
def bankSwitches (b : Nat) : List Nat := List.range' (16 * b) 16

/-- The fixed profiles (R224). -/
def fixedProfile : Nat → Profile
  | 0 => ⟨0, [(0, 200), (20, 200), (30, 150)], 130, 200⟩
  | 1 => ⟨0, [(0, 600), (10, 600), (60, 200), (100, 150)], 130, 500⟩
  | 2 => ⟨0, [(0, 400), (200, 400), (1000, 200), (1200, 150)], 125, 2000⟩
  | 3 => ⟨20, [(0, 150)], 130, 200⟩
  | _ => ⟨0, [(0, 250), (100, 250), (150, 150)], 130, 500⟩

/-- A profile by its index: fixed 0–4, user 5–7 of LOAD. -/
def World.profile (w : World) (i : Nat) : Option Profile :=
  if i < 5 then some (fixedProfile i) else (w.lsw.load.map (fun l => l.uprof[i - 5]?)).join

/-- The LOAD entry of a switch. -/
def World.swCfg (w : World) (n : Nat) : SwCfg := ((w.lsw.load.map (fun l => l.sw[n]?)).join).getD {}

/-- I_SET in force: of LOAD, else I_CL (R233). -/
def World.iSet (w : World) (n : Nat) : Nat :=
  match w.lsw.load with
  | none => classRating (swClass n)
  | some _ => (w.swCfg n).iSet

/-- The claim of a switch under a profile, mA (R230): the highest envelope limit, capped at the class ceiling. -/
def World.swClaim (w : World) (n : Nat) (p : Profile) : Nat :=
  min (classCeiling (swClass n)) (p.pts.foldl (fun m q => max m q.2) 0 * w.iSet n / 100)

/-- The length of INRUSH under a profile, ms (R224). -/
def Profile.inrushMs (p : Profile) : Nat := max p.vramp (p.pts.foldl (fun m q => max m q.1) 0)

/-- The limit of the envelope at `t` ms (R224), % of I_SET: linear between neighbours; from a shared time on the second point. -/
def Profile.limAt : List (Nat × Nat) → Nat → Rat
  | [], _ => 0
  | [(_, l)], _ => l
  | (t0, l0) :: (t1, l1) :: r, t =>
    if t1 ≤ t then Profile.limAt ((t1, l1) :: r) t
    else (l0 : Rat) + ((l1 : Rat) - l0) * ((t : Rat) - t0) / ((t1 : Rat) - t0)

/-- The state of a switch (R223). -/
def World.swState (w : World) (n : Nat) : Nat := w.rd .A F.LSW_STATUS.STATE n

/-- A switch in a state from now on; it holds a claim only in INRUSH (R230). -/
def World.swGo (w : World) (n st : Nat) : World :=
  (w.updSw n fun x => { x with since := w.now, claim := if st = 2 then x.claim else 0 }).wr .A F.LSW_STATUS.STATE n st

/-- An event of a switch (R244). -/
def World.swEvent (w : World) (num n cause : Nat) : World := w.raiseBoth num (evArg n 0xFF cause)

/-- A switch can be driven: its bank present, its feed there, not KNOCKED and not under SAFE_OFF. -/
def World.swLive (w : World) (n : Nat) : Bool :=
  w.flag .A F.LSW_BANK.PRESENT (n / 16) && !w.lsw.lost.contains (swFeed n) && !w.flag .A F.LSW_STATUS.KNOCKED n &&
    !w.safeOn (objL n) && !(w.swSt n).blocked

/-- A switch enters WAIT with a profile (R230). -/
def World.swWait (w : World) (n prof : Nat) : World :=
  (((w.swGo n 1).wr .A F.LSW_STATUS.PROF n prof).wr .A F.LSW_STATUS.WAIT_LONG n 0)

/-- A switch turns off (R229, R232, R239, R240): a set latch runs its course with the retry cancelled, a lockout stays. -/
def World.swOff (w : World) (n : Nat) : World :=
  let st := w.swState n
  if st = 4 then w.updSw n fun x => { x with cancel := true, heldOn := false }
  else if st = 6 then w
  else (w.swGo n 0).wr .A F.LSW_STATUS.WAIT_LONG n 0

/-- Entry to LOCKOUT (R228). -/
def World.swLockout (w : World) (n : Nat) : World := (w.swGo n 6).swEvent 114 n 0

/-- After a SHORT or OVERLOAD trip or a cleared latch: RETRY_WAIT while the counter is nonzero, else LOCKOUT (R227, R228). -/
def World.swRetry (w : World) (n : Nat) : World :=
  if w.rd .A F.LSW_STATUS.RETRIES n = 0 then w.swLockout n else w.swGo n 5

/-- A switch enters its Green state (R239). -/
def World.greenSwitch (w : World) (n : Nat) : World :=
  let g := w.gren (objL n)
  let w := (w.wr .A F.LSW_STATUS.GREEN n 1).wr .A F.LSW_STATUS.CMD n (b2n (g.state = 1))
  if g.state = 1 then
    let st := w.swState n
    if st = 4 then w.updSw n fun x => { x with heldOn := true, cancel := false }
    else if (st = 0 || st = 1 || st = 5) && w.swLive n then
      match w.lsw.load with
      | none => ((w.updSw n fun x => { x with claim := 0 }).swGo n 2).wr .A F.LSW_STATUS.PROF n 0 |>.bump .A F.LSW_CNT.STARTS n
      | some _ => w.swWait n (w.swCfg n).profDef
    else w
  else w.swOff n

/-! Commands. -/

/-- A write to the switch of the initiator's select, by the owner (R20); SAFE_OFF overrides writes (R65); no switch beyond 47 (R583). -/
def switchWrite (s : State) (h : Half) (init : Nat) (f : Nat → World → World) : Out :=
  let n := s.w.sel h F.LSW_SEL.CH init
  if 48 ≤ n then .next s
  else putW s <| gateObj s h init (objL n) fun w => if w.safeOn (objL n) then w else f n w

/-- The command level of a switch set (R227, R229, R232, R238, R240). -/
def World.swCmd (w : World) (n : Nat) (on : Bool) : World :=
  let cmd := w.flag .A F.LSW_STATUS.CMD n
  let w := (w.wr .A F.LSW_CMD.ON n (b2n on)).wr .A F.LSW_STATUS.GREEN n 0
  if on then
    let p := w.rd .A F.LSW_CMD.PROF n
    if cmd then w
    else if (w.profile p).isNone then w.wr .A F.LSW_STATUS.FAULT n 7
    else
      let w := (w.wr .A F.LSW_STATUS.CMD n 1).wr .A F.LSW_STATUS.RETRIES n (w.swCfg n).retryN
      let w := w.updSw n fun x => { x with blocked := false }
      let st := w.swState n
      if st = 4 then w.updSw n fun x => { x with heldOn := true, cancel := false }
      else if st = 0 && w.swLive n then w.swWait n p
      else w
  else
    let w := ((w.wr .A F.LSW_STATUS.CMD n 0).wr .A F.LSW_STATUS.KNOCKED n 0).updSw n fun x => { x with blocked := false }
    w.swOff n

/-- A write of LSW_CMD.ON (R238). -/
def execLswCommand (h : Half) (init : Nat) (on : Bool) (s : State) : Out :=
  switchWrite s h init fun n w => w.swCmd n on

/-- A write of LSW_CMD.PROF (R238). -/
def execLswProfile (h : Half) (init v : Nat) (s : State) : Out :=
  switchWrite s h init fun n w => w.wr .A F.LSW_CMD.PROF n v

/-- LSW_CMD.CLR_FAULT with the command OFF (R228). -/
def execLswClrFault (h : Half) (init : Nat) (s : State) : Out :=
  switchWrite s h init fun n w => w.when (!w.flag .A F.LSW_CMD.ON n) fun w =>
    let w := w.when (w.rd .A F.LSW_STATUS.FAULT n ≠ 5) fun w => w.wr .A F.LSW_STATUS.FAULT n 0
    w.when (w.swState n = 6) fun w => w.swGo n 0

/-- A switch Knocked (R240): off, its claim released, its retry cancelled, KNOCKED. -/
def World.knockSwitch (w : World) (n : Nat) : World := (w.swOff n).wr .A F.LSW_STATUS.KNOCKED n 1

/-- LSW_CMD.KNOCK (R240). -/
def execLswKnock (h : Half) (init : Nat) (s : State) : Out := switchWrite s h init fun n w => w.knockSwitch n

/-- LSW_CTRL.CLR_CNT (R243): the counts of the bank of the select, for a half that owns a switch of it (R20). TJ_PEAK starts afresh. -/
def execLswClrCnt (h : Half) (init : Nat) (s : State) : Out :=
  let n := s.w.sel h F.LSW_SEL.CH init
  if 48 ≤ n then .next s
  else putW s <| gateAny s h init (objL (16 * (n / 16))) 16 (objL n) fun w =>
    w.forAll (bankSwitches (n / 16)) fun w k =>
      (w.setReg .A F.LSW_CNT.STARTS k 0).wr .A F.LSW_TEMP.TJ_PEAK k (w.rd .A F.LSW_TEMP.TJ k)

/-- The INRUSH of the profile ends; the claim is released (R224, R230). -/
def execInrushEnd (n : Nat) (s : State) : Out :=
  lift s fun w =>
    match w.profile (w.rd .A F.LSW_STATUS.PROF n) with
    | none => w
    | some p => w.when (w.swState n = 2 && (w.swSt n).since + p.inrushMs * ms ≤ w.now) fun w => w.swGo n 3

/-- The output is on. -/
def World.swOn (w : World) (n : Nat) : Bool := w.swState n = 2 || w.swState n = 3

/-- A SHORT or OVERLOAD trip (R226, R227). -/
def World.swTrip (w : World) (n code i : Nat) : World :=
  let w := ((w.wr .A F.LSW_STATUS.FAULT n code).bump .A F.LSW_CNT.TRIPS n).wr .A F.LSW_MEAS.I n (satTo 16 i)
  (w.swRetry n).swEvent 112 n code

/-- Current above the short comparator for 2 µs (R226). -/
def execLswShortTrip (n i : Nat) (s : State) : Out :=
  lift s fun w => w.when (w.swOn n && classShort (swClass n) < i) fun w => w.swTrip n 1 i

/-- Current above TRIP_PCT for TRIP_MS while ON (R224, R226). -/
def execLswOverloadTrip (n i : Nat) (s : State) : Out :=
  lift s fun w =>
    match w.profile (w.rd .A F.LSW_STATUS.PROF n) with
    | none => w
    | some p => w.when (w.swState n = 3 && p.tripPct * w.iSet n < 100 * i) fun w => w.swTrip n 2 i

/-- A junction reading: TJ and its peak. -/
def World.swTemp (w : World) (n : Nat) (tj : Int) : World :=
  let w := w.wrI .A F.LSW_TEMP.TJ n (clampI (-128) 127 tj)
  w.when (w.rdI .A F.LSW_TEMP.TJ_PEAK n < clampI (-128) 127 tj) fun w => w.wrI .A F.LSW_TEMP.TJ_PEAK n (clampI (-128) 127 tj)

/-- The junction at 165 °C: the thermal latch (R225, R226). -/
def execLswThermalTrip (n : Nat) (tj : Int) (s : State) : Out :=
  lift s fun w => w.when (w.swOn n && 165 ≤ tj) fun w =>
    let w := ((w.swTemp n tj).wr .A F.LSW_STATUS.FAULT n 3).bump .A F.LSW_TEMP.LATCHES n
    ((w.swGo n 4).updSw n fun x => { x with heldOn := false, cancel := false }).swEvent 113 n 0

/-- T_REL of a switch, °C; before LOAD none is stated (R233): 100, the lowest of its range. -/
def World.tRel (w : World) (n : Nat) : Int :=
  match w.lsw.load with
  | none => 100
  | some _ => ((w.swCfg n).tRel : Int)

/-- The junction has been below T_REL for 1 s: the latch clears (R228, R229). -/
def execThermalLatchClear (n : Nat) (tj : Int) (s : State) : Out :=
  lift s fun w => w.when (w.swState n = 4 && tj < w.tRel n) fun w =>
    let w := w.swTemp n tj
    let x := w.swSt n
    if x.heldOn && w.swLive n then
      w.swWait n (if w.flag .A F.LSW_STATUS.GREEN n then (w.swCfg n).profDef else w.rd .A F.LSW_CMD.PROF n)
    else if x.cancel || !w.flag .A F.LSW_STATUS.CMD n || !w.swLive n then w.swGo n 0
    else w.swRetry n

/-- RETRY_T has passed with the junction below T_REL (R227). -/
def execRetryWaitExpiry (n : Nat) (tj : Int) (s : State) : Out :=
  lift s fun w =>
    w.when (w.swState n = 5 && (w.swSt n).since + (w.swCfg n).retryT * 10 * ms ≤ w.now && tj < w.tRel n) fun w =>
      let w := (w.wr .A F.LSW_STATUS.RETRIES n (w.rd .A F.LSW_STATUS.RETRIES n - 1)).bump .A F.LSW_CNT.RETRIES n
      w.swWait n (w.rd .A F.LSW_STATUS.PROF n)

/-- A switch has been in ON for 10 s (R227). -/
def execRetryCounterReload (n : Nat) (s : State) : Out :=
  lift s fun w => w.when (w.swState n = 3 && (w.swSt n).since + 10 * sec ≤ w.now) fun w =>
    w.wr .A F.LSW_STATUS.RETRIES n (w.swCfg n).retryN

/-! The feed budget (R230–R232). -/

/-- The sum of the admitted claims of a feed, mA. -/
def World.claims (w : World) (f : Nat) : Nat := (feedSwitches f).foldl (fun a n => a + (w.swSt n).claim) 0

/-- The requests of a feed that wait for a claim. -/
def World.feedWaiting (w : World) (f : Nat) : List Nat := (feedSwitches f).filter (fun n => w.swState n = 1)

/-- The request that holds the grant of a feed. -/
def World.feedGrant (w : World) (f : Nat) : Option Nat := if f = 0 then w.lsw.grant.1 else w.lsw.grant.2

/-- The grant of a feed set. -/
def World.setGrant (w : World) (f : Nat) (g : Option Nat) : World :=
  { w with lsw := { w.lsw with grant := if f = 0 then (g, w.lsw.grant.2) else (w.lsw.grant.1, g) } }

/-- A round of arbiter `a` (R46). -/
def World.round (w : World) (a : Nat) : List Nat := NMap.get [] w.vlv.round a

/-- A round of an arbiter set. -/
def World.setRound (w : World) (a : Nat) (l : List Nat) : World :=
  { w with vlv := { w.vlv with round := NMap.set [] w.vlv.round a l } }

/-- The active leaf requesters of an arbiter: the channels of a tile (R186), or the waiting switches of a feed (R231). -/
def World.requesters (w : World) (a : Nat) : List Nat :=
  if a < 6 then (tileChans a).filter w.adcActive else w.feedWaiting (a - 6)

/-- A nested arbiter starts a round: each input receives a credit of its active requesters (R46, R47). -/
def execArbiterRoundStart (a : Nat) (s : State) : Out := lift s fun w => w.setRound a (w.requesters a)

/-- The next request of a feed: of the round's requesters that still wait; a spent round is followed by the next. -/
def World.nextGrant (w : World) (f : Nat) : Option Nat × World :=
  let left := (w.round (6 + f)).filter (fun n => w.swState n = 1)
  let l := if left.isEmpty then w.feedWaiting f else left
  (l.head?, w.setRound (6 + f) l.tail)

/-- The budget of a feed, mA; none before LOAD (R233). -/
def World.budget (w : World) (f : Nat) : Option Nat :=
  w.lsw.load.map fun l => 1000 * (if f = 0 then l.budget0 else l.budget1)

/-- The switch that holds the grant admitted to INRUSH once its claim fits. -/
def World.admitGrant (w : World) (f n : Nat) : World :=
  match w.profile (w.rd .A F.LSW_STATUS.PROF n) with
  | none => w.setGrant f none
  | some p =>
    let c := w.swClaim n p
    if (w.budget f).all (fun b => decide (w.claims f + c ≤ b)) then
      ((((w.setGrant f none).updSw n fun x => { x with claim := c }).swGo n 2).wr .A F.LSW_STATUS.WAIT_LONG n 0).bump .A F.LSW_CNT.STARTS n
    else w

/-- One grant of a feed (R231): a granted request keeps its grant until its claim fits. -/
def execFeedBudgetGrant (f : Nat) (s : State) : Out :=
  lift s fun w =>
    match (w.feedGrant f).filter (fun n => w.swState n = 1) with
    | some n => w.admitGrant f n
    | none =>
      let g := (w.nextGrant f).1
      let w := (w.nextGrant f).2
      match g with
      | some n => (w.setGrant f (some n)).admitGrant f n
      | none => w.setGrant f none

/-- A claim has waited 1 s (R232). -/
def execBudgetWaitLong (n : Nat) (s : State) : Out :=
  lift s fun w =>
    w.when (w.swState n = 1 && (w.swSt n).since + sec ≤ w.now && !w.flag .A F.LSW_STATUS.WAIT_LONG n) fun w =>
      (w.wr .A F.LSW_STATUS.WAIT_LONG n 1).swEvent 116 n 0

/-! Feeds (R234, R235). -/

/-- The switches of a feed with a SHED class turned off with FAULT SHED (R234). -/
def World.shedClass (w : World) (f k : Nat) : World :=
  w.forAll ((feedSwitches f).filter (fun n => (w.swCfg n).shed = k && w.swState n ≠ 0)) fun w n =>
    ((w.swOff n).wr .A F.LSW_STATUS.FAULT n 6).updSw n fun x => { x with blocked := true }

/-- A shedding step of a feed: its number and its event. -/
def World.shedTo (w : World) (f k : Nat) : World :=
  ((w.wr .A F.LSW_FEED.SHED_STEP f k).shedClass f (4 - k)).raiseBoth 117 (evArg 0xFF f k)

/-- A feed has been overloaded (R234): above 60 A for 8 s or 80 A for 1 s (`i` in 0.1 A). -/
def execFeedOverload (f i : Nat) (s : State) : Out :=
  lift s fun w =>
    let w := w.wr .A F.LSW_FEED.I f (satTo 12 i)
    w.when (600 < i && w.rd .A F.LSW_FEED.SHED_STEP f = 0) fun w => w.shedTo f 1

/-- 500 ms after a shedding step (R234). -/
def execShedStep (f i : Nat) (s : State) : Out :=
  lift s fun w =>
    let k := w.rd .A F.LSW_FEED.SHED_STEP f
    let w := w.wr .A F.LSW_FEED.I f (satTo 12 i)
    if k = 0 then w
    else if i ≤ 600 then w.wr .A F.LSW_FEED.SHED_STEP f 0
    else if k < 3 then w.shedTo f (k + 1)
    else w

/-- A feed is lost (R235): every switch on it goes OFF with FAULT NO_FEED, its retry counter unchanged. -/
def World.loseFeed (w : World) (f : Nat) : World :=
  w.when (!w.lsw.lost.contains f) fun w =>
    let w := w.forAll (feedSwitches f) fun w n =>
      ((w.swGo n 0).wr .A F.LSW_STATUS.FAULT n 4).wr .A F.LSW_STATUS.WAIT_LONG n 0
    ({ w with lsw := { w.lsw with lost := f :: w.lsw.lost } }).raiseBoth 118 (evArg 0xFF f 1)

/-- A feed below 4.5 V for 1 ms (`v` in 10 mV, R235). -/
def execFeedLost (f v : Nat) (s : State) : Out :=
  lift s fun w => w.when (v < 450) (·.loseFeed f)

/-- A feed at 8 V or above for 10 ms (R235). -/
def execFeedReturn (f v : Nat) (s : State) : Out :=
  lift s fun w =>
    w.when (800 ≤ v && w.lsw.lost.contains f) fun w =>
      let w := { w with lsw := { w.lsw with lost := w.lsw.lost.filter (· ≠ f) } }
      let w := w.forAll (feedSwitches f) fun w n =>
        let w := w.when (w.rd .A F.LSW_STATUS.FAULT n = 4) fun w => w.wr .A F.LSW_STATUS.FAULT n 0
        w.when (w.flag .A F.LSW_STATUS.CMD n && w.swState n = 0 && w.swLive n) fun w =>
          w.swWait n (if w.flag .A F.LSW_STATUS.GREEN n then (w.swCfg n).profDef else w.rd .A F.LSW_CMD.PROF n)
      w.raiseBoth 118 (evArg 0xFF f 0)

/-! Open load, short to battery, presence (R236, R237, R244). -/

/-- The OL_ON threshold of a switch, mA. -/
def World.olOn (w : World) (n : Nat) : Nat :=
  let o := (w.swCfg n).olOn
  if o = 0 then classOlOn (swClass n) else o

/-- The current of a switch in ON has stayed on one side of OL_ON for 200 ms (R236). -/
def execOpenOnDetect (n i : Nat) (s : State) : Out :=
  lift s fun w =>
    w.when (w.swState n = 3 && (w.swCfg n).olOnEn) fun w =>
      let w := w.wr .A F.LSW_MEAS.I n (satTo 16 i)
      if i < w.olOn n then
        if w.flag .A F.LSW_STATUS.OPEN_ON n then w else (w.wr .A F.LSW_STATUS.OPEN_ON n 1).swEvent 115 n 1
      else w.wr .A F.LSW_STATUS.OPEN_ON n 0

/-- A probe of a switch in OFF (R237): the output with the probe and without it, 10 mV. -/
def execLswProbe (n vProbe vIdle : Nat) (s : State) : Out :=
  lift s fun w =>
    w.when (w.swState n = 0 && !w.flag .A F.LSW_STATUS.CMD n && w.flag .A F.LSW_CTRL.PROBE_EN (n / 16) && (w.swCfg n).probeEn) fun w =>
      let opn := 250 < vProbe
      let stb := 10 * w.rd .A F.PWR_FEED.V (swFeed n) < 2 * vIdle
      let was := (w.flag .A F.LSW_STATUS.OPEN_OFF n, w.flag .A F.LSW_STATUS.STB n)
      let w := ((w.wr .A F.LSW_STATUS.OPEN_OFF n (b2n opn)).wr .A F.LSW_STATUS.STB n (b2n stb)).wr .A F.LSW_MEAS.V n (satTo 16 vIdle)
      w.when ((opn && !was.1) || (stb && !was.2)) fun w => w.swEvent 115 n (if stb && !was.2 then 3 else 2)

/-- The presence pin of a bank changes (R244): FAULT ABSENT on every switch of an absent bank. -/
def execLswBankPresence (b : Nat) (present : Bool) (s : State) : Out :=
  lift s fun w =>
    w.when (w.flag .A F.LSW_BANK.PRESENT b ≠ present) fun w =>
      let w := w.wr .A F.LSW_BANK.PRESENT b (b2n present)
      let w := w.forAll (bankSwitches b) fun w n =>
        if present then w.when (w.rd .A F.LSW_STATUS.FAULT n = 5) fun w => w.wr .A F.LSW_STATUS.FAULT n 0
        else (w.swGo n 0).wr .A F.LSW_STATUS.FAULT n 5
      w.raiseBoth 119 (evArg 0xFF b (b2n present))

end Sys2Proof.Machine
end

