-- ==== Sys2Proof/Machine/Power.lean ====
section
/-!
DEFINITION. Power entry, feeds, hold-up, the comparator chain's readings, and the fans and the pump (R525–R544). What holds the halves
in reset (power-fail, SYS_SHDN) lies with their start.
-/
namespace Sys2Proof.Machine

/-- Power entry and cooling changed. -/
def World.updPwr (w : World) (f : Power → Power) : World := { w with pwr := f w.pwr }

/-- An event of chapter 20 (R544): a feed's or a channel's object, or 0xFFFF. -/
def World.pwrEvent (w : World) (num obj : Nat) : World := w.raiseBoth num (evArg obj 0xFF 0)

/-! Fans and the pump (R538–R542). -/

/-- A fan or pump channel. -/
def World.fan (w : World) (c : Nat) : Fan := NMap.get {} w.pwr.fan c

/-- A channel changed. -/
def World.updFan (w : World) (c : Nat) (f : Fan → Fan) : World := w.updPwr fun p => { p with fan := NMap.upd {} p.fan c f }

/-- The minimum duty of a channel, percent (R538). -/
def minDuty (c : Nat) : Nat := if c = 3 then 40 else 20

/-- A channel in STALL. -/
def World.stalled (w : World) (c : Nat) : Bool := w.flag .A F.FAN_STATUS.STALL c

/-- What runs a channel at 100 % (R535, R536, R542): the override, a faulty thermistor, another channel's stall, an open tachometer. -/
def World.fanFull (w : World) (c : Nat) : Bool :=
  w.flag .A F.PWR_SHDN.OVERRIDE || w.flag .A F.PWR_TEMP.SENSOR_FAULT || w.flag .A F.FAN_STATUS.TACH_OPEN c ||
    (c < 3 && (List.range 4).any (fun k => k ≠ c && w.stalled k))

/-- The duty of a channel's Green state, percent (R62, R539): OFF the minimum duty. -/
def World.greenDuty (w : World) (c : Nat) : Nat :=
  let g := w.gren (objFan c)
  max (minDuty c) (if g.state = 1 then 100 else if g.state = 2 then roundN ((g.level : Rat) / 10) else 0)

/-- The duty a channel has in its mode: the Green state along its ramp, SAFE_OFF's off with SO set, or the speed loop's. -/
def World.modeDuty (w : World) (c : Nat) : Nat :=
  let f := w.fan c
  if w.safeOn (objFan c) then minDuty c
  else match f.green, f.gramp with
    | true, some r => max (minDuty c) (roundN ((r.value w.now : Nat) / 10))
    | true, none => w.greenDuty c
    | false, _ => max (minDuty c) (min 100 f.loop)

/-- The duty of a channel now (R535, R538, R542). -/
def World.fanDuty (w : World) (c : Nat) : Nat :=
  let f := w.fan c
  if w.rd .A F.PWR_STATUS.LSTATE = 3 || w.rd .A F.PWR_STATUS.LSTATE = 0 then 0
  else if f.pause then 0
  else if f.kick ≠ 0 then 100
  else if w.stalled c then 0
  else if w.fanFull c then 100
  else w.modeDuty c

/-- FAN_STATUS.DUTY of every channel brought up to date. -/
def World.fanDuties (w : World) : World := w.forAll (List.range 4) fun w c => w.wr .A F.FAN_STATUS.DUTY c (w.fanDuty c)

/-- A channel enters its Green state (R63): at once, or along a ramp from its present duty. -/
def World.greenFan (w : World) (c : Nat) : World :=
  let g := w.gren (objFan c)
  let d := 10 * w.rd .A F.FAN_STATUS.DUTY c
  let r : Option Ramp := if g.entry = 1 then some ⟨d, 10 * w.greenDuty c, w.now, g.rampMs * ms⟩ else none
  (w.updFan c fun f => { f with green := true, gramp := r, kick := f.kick }).fanDuties

/-- The target speed of a channel before the skip bands, rpm (R539). -/
def World.fanAsk (w : World) (c : Nat) : Nat :=
  if w.flag .A F.FAN_CMD.MANUAL c then w.rd .A F.FAN_CMD.TARGET c
  else
    let t : Rat := (w.rdI .A F.PWR_TEMP.TC_OUT : Int)
    let lo : Rat := if c = 3 then 50 else (w.rd .A F.FAN_AUTO.T_LO : Nat)
    let hi : Rat := if c = 3 then 80 else (w.rd .A F.FAN_AUTO.T_HI : Nat)
    let m : Rat := (minDuty c : Nat) / 100
    let x := if t ≤ lo then m else if hi ≤ t then 1 else m + (1 - m) * (t - lo) / (hi - lo)
    roundN (x * (w.rd .A F.FAN_CFG.MAX_RPM c : Nat))

/-- The skip band a speed lies in (R541): its edges. -/
def World.skipBand (w : World) (v : Nat) : Option (Nat × Nat) :=
  ((List.range 4).map (fun k => (w.rd .A F.FAN_SKIP.LO k, w.rd .A F.FAN_SKIP.HI k))).find?
    (fun b => decide (b.1 ≠ 0 ∧ b.1 ≤ v ∧ v ≤ b.2))

/-- The target of a channel under the skip bands, and the channel's memory of it: a target that enters a band from below is held at LO,
from above at HI, until it leaves the band. The pump has no bands. -/
def World.fanTarget (w : World) (c : Nat) : Nat × World :=
  let t := w.fanAsk c
  let f := w.fan c
  match (if c = 3 then none else w.skipBand t) with
  | none => (t, (w.updFan c fun f => { f with held := none, last := t }).wr .A F.FAN_STATUS.SKIPPED c 0)
  | some b =>
    let edge := match f.held with
      | some (lo, e) => if lo = b.1 then e else (if f.last < b.1 then b.1 else b.2)
      | none => if f.last < b.1 then b.1 else b.2
    (edge, (w.updFan c fun f => { f with held := some (b.1, edge), last := t }).wr .A F.FAN_STATUS.SKIPPED c 1)

/-- The on-time of a frame of 40 ms at a duty, ns. -/
def onTime (duty : Nat) : Nat := duty * 400 * us

/-- A frame of a channel starts (R538, R540): its on-time, less the stretch of the measuring frame before it. -/
def execFanFrame (c : Nat) (s : State) : Out := lift s fun w =>
  w.when (c < 4) fun w =>
    let w := w.fanDuties
    let d := w.fanDuty c
    w.updFan c fun f => { f with on := onTime d - f.owe, owe := 0 }

/-- The speed between two edges captured at `e1` and `e2` after the frame's start, ns (R540): two pulses a revolution; 0 unless both
fall within 50 ms, the first after 5 ms. -/
def fanRpm (e1 e2 : Nat) : Nat :=
  if 5 * ms ≤ e1 && e1 < e2 && e2 ≤ 50 * ms then roundN (30 * (sec : Rat) / ((e2 - e1 : Nat) : Rat)) else 0

/-- The duty corrected toward the target (R539, R541): by at most 5 % (how much is left open: a free value), or by 20 % inside a skip
band. -/
def World.fanLoop (w : World) (c tgt rpm : Nat) : World :=
  if rpm = tgt then w
  else
    let k := w.free.1
    let w := w.free.2
    let d := if c ≠ 3 && (w.skipBand rpm).isSome then 20 else k.toNat % 6
    w.updFan c fun f => { f with
      loop := if rpm < tgt then min 100 (max (minDuty c) f.loop + d) else max (minDuty c) (f.loop - d) }

/-- A channel's speed is measured (R540): the edges' instants after the frame's start, ns. -/
def execFanSpeedMeasure (c e1 e2 : Nat) (s : State) : Out := lift s fun w =>
  w.when (c < 4) fun w =>
    let rpm := fanRpm e1 e2
    let w := w.wr .A F.FAN_STATUS.RPM c (satTo 16 rpm)
    let on := (w.fan c).on
    let full := w.fanDuty c = 100
    let low := rpm < 700
    let w := w.updFan c fun f => { f with
      owe := if full then 0 else min e2 (50 * ms) - on
      lowAt := if low && f.kick = 0 && !f.pause then some (f.lowAt.getD w.now) else none
      goodAt := if rpm = 0 then none else some (f.goodAt.getD w.now) }
    let w := w.when (w.flag .A F.FAN_STATUS.TACH_OPEN c && (w.fan c).goodAt.any (fun t => decide (t + 2 * sec ≤ w.now))) fun w =>
      (w.wr .A F.FAN_STATUS.TACH_OPEN c 0).pwrEvent 27 (objFan c)
    let tgt := (w.fanTarget c).1
    let w := (w.fanTarget c).2
    let w := w.when (!(w.fan c).green && (w.fan c).kick = 0 && !w.stalled c && !w.flag .A F.FAN_STATUS.TACH_OPEN c) (·.fanLoop c tgt rpm)
    w.fanDuties

/-- A kick starts (R542). -/
def World.startKick (w : World) (c k : Nat) : World :=
  (((w.updFan c fun f => { f with kick := k, pause := false, kickAt := w.now, lowAt := none }).wr .A F.FAN_STATUS.KICKING c 1).bump
    .A F.PWR_CNT.KICKS).fanDuties

/-- A kick is over. -/
def World.endKick (w : World) (c : Nat) : World :=
  ((w.updFan c fun f => { f with kick := 0, pause := false, lowAt := none }).wr .A F.FAN_STATUS.KICKING c 0).fanDuties

/-- The bias check of a suspect channel (R542): the tachometer wire's voltage, 10 mV. -/
def execFanSuspect (c v : Nat) (s : State) : Out := lift s fun w =>
  let f := w.fan c
  w.when (c < 4 && f.kick = 0 && !f.pause && !w.stalled c && !w.flag .A F.FAN_STATUS.TACH_OPEN c &&
      minDuty c ≤ w.fanDuty c && f.lowAt.any (fun t => decide (t + 2 * sec ≤ w.now)) && f.checkAt ≤ w.now) fun w =>
    if v < 300 then w.startKick c 1
    else if 450 < v then
      ((w.updFan c fun f => { f with lowAt := none, goodAt := none }).wr .A F.FAN_STATUS.TACH_OPEN c 1).pwrEvent 27 (objFan c) |>.fanDuties
    else w.updFan c fun f => { f with checkAt := w.now + sec }

/-- A 2 s kick ends with a speed (R542): the channel returns to its target, pauses, or stalls after the third. -/
def execFanKickEnd (c rpm : Nat) (s : State) : Out := lift s fun w =>
  let f := w.fan c
  w.when (c < 4 && f.kick ≠ 0 && !f.pause && f.kickAt + 2 * sec ≤ w.now) fun w =>
    let w := w.wr .A F.FAN_STATUS.RPM c (satTo 16 rpm)
    if 700 ≤ rpm then
      let was := w.stalled c
      let w := (w.wr .A F.FAN_STATUS.STALL c 0).endKick c
      w.when was fun w => w.pwrEvent 26 (objFan c)
    else if w.stalled c then w.endKick c
    else if f.kick < 3 then (w.updFan c fun f => { f with pause := true, kickAt := w.now }).fanDuties
    else
      let w := ((w.wr .A F.FAN_STATUS.STALL c 1).updFan c fun f => { f with stallAt := w.now }).endKick c
      w.pwrEvent (if c = 3 then 28 else 26) (objFan c)

/-- The 1 s pause between kicks ends (R542). -/
def execFanKickPauseEnd (c : Nat) (s : State) : Out := lift s fun w =>
  let f := w.fan c
  w.when (c < 4 && f.pause && f.kickAt + sec ≤ w.now) fun w => w.startKick c (f.kick + 1)

/-- A stalled channel is kicked again every 5 min (R542). -/
def execFanRekick (c : Nat) (s : State) : Out := lift s fun w =>
  w.when (c < 4 && w.stalled c && (w.fan c).kick = 0 && (w.fan c).stallAt + 300 * sec ≤ w.now) fun w =>
    (w.updFan c fun f => { f with stallAt := w.now }).startKick c 3

/-- A write of FAN_CMD by the owner (R539): a kick or a bias check yields (R118, R542); the channel leaves its Green state at its present
duty (R30). -/
def execFanCommand (h : Half) (init v : Nat) (s : State) : Out :=
  let c := s.w.sel h F.FAN_SEL.CH init % 4
  putW s <| gateObj s h init (objFan c) fun w =>
    if w.safeOn (objFan c) then w
    else
      let w := (w.wr .A F.FAN_CMD.MANUAL c (bitsOf v 16 1)).wr .A F.FAN_CMD.TARGET c (bitsOf v 0 16)
      let w := w.updFan c fun f => { f with
        loop := if f.green then w.rd .A F.FAN_STATUS.DUTY c else f.loop, green := false, gramp := none }
      ((w.when ((w.fan c).kick ≠ 0) (·.endKick c)).fanTarget c).2.fanDuties

/-! LOGIC_IN (R525–R527, R531). -/

/-- The limit of the supply class, 10 mV (R526): 36.0 V until the class is chosen (log entry 20). -/
def World.classLimit (w : World) : Nat := if w.pwr.classed && !w.flag .A F.PWR_STATUS.SYS24 then 3500 else 3600

/-- The state of LOGIC_IN that a voltage (10 mV, held for the state's qualifying time) leads to from a state (R526). -/
def World.logicState (w : World) (st v : Nat) : Nat :=
  if st = 0 then 0
  else if st = 3 && v < 800 then 3
  else if w.classLimit < v then 4
  else if 900 ≤ v then 1
  else if 600 ≤ v then 2
  else 3

/-- LOGIC_IN passes between its states (R526, R527, R531): its voltage (10 mV) and current (mA); `clamped` says that the clamp has acted
for more than 1 ms. A power-fail that has begun is not cancelled. -/
def execLogicInStateChange (v i : Nat) (clamped : Bool) (s : State) : Out := lift s fun w =>
  let st := w.rd .A F.PWR_STATUS.LSTATE
  let w := (w.wr .A F.PWR_LOGIC.V 0 (satTo 16 v)).wr .A F.PWR_LOGIC.I 0 (satTo 16 i)
  let nx := if w.pwr.fail then st else w.logicState st v
  let w := if nx = st then w else (w.wr .A F.PWR_STATUS.LSTATE 0 nx).pwrEvent 16 0xFFFF
  let w := w.when (nx ≠ 4) fun w => w.updPwr fun p => { p with clampSeen := false }
  let w := w.when (nx = 4 && clamped && !w.pwr.clampSeen) fun w =>
    ((w.updPwr fun p => { p with clampSeen := true }).bump .A F.PWR_CNT.CLAMP).pwrEvent 18 0xFFFF
  let w := w.when (st ≠ 3 && nx = 3) fun w =>
    let orderly := !w.latch.pwrHold && !(w.run.get .A).running && !(w.run.get .B).running
    let w := ((w.updPwr fun p => { p with holdAt := w.now }).wr .A F.PWR_HOLDUP.ACTIVE 0 1).bump .A F.PWR_CNT.HOLDUP
    ((w.when orderly fun w =>
      let w := w.wr .A F.PWR_STATUS.LAST_LOSS 0 1
      { w with latch := { w.latch with logicValid := false } }).pwrEvent 17 0xFFFF).dspFast
  let w := w.when (st = 3 && nx ≠ 3) fun w => (w.wr .A F.PWR_HOLDUP.ACTIVE 0 0).pwrEvent 17 0xFFFF
  w.fanDuties

/-- The mean of LOGIC_IN over the first 100 ms selects the supply class, once a backplane power-on (R525; 10 mV). -/
def execSupplyClassSelect (mean : Nat) (s : State) : Out := lift s fun w =>
  w.when (w.latch.logicValid && !w.pwr.classed && w.latch.validAt + 100 * ms ≤ w.now) fun w =>
    (w.updPwr fun p => { p with classed := true }).wr .A F.PWR_STATUS.SYS24 0 (b2n (1800 < mean))

/-- The hold-up pack's voltage (10 mV): READY at 46.0 V and above (R531). -/
def execHoldupReady (v : Nat) (s : State) : Out := lift s fun w =>
  (w.wr .A F.PWR_HOLDUP.V 0 (satTo 16 v)).wr .A F.PWR_HOLDUP.READY 0 (b2n (4600 ≤ v))

/-- PWR_CTRL.CLR_CNT clears PWR_CNT (R543), for a half that owns an object of the block (R20). -/
def execPwrClrCnt (h : Half) (init : Nat) (s : State) : Out :=
  putW s <| gateAny s h init (objFan 0) 8 (objFan (s.w.sel h F.FAN_SEL.CH init)) fun w => w.setReg .A F.PWR_CNT.HOLDUP 0 0

/-! Feeds (R529, R530). -/

/-- A feed's stud voltage (0.1 V) and current (0.1 A) measured (R529). -/
def execFeedMeasurement (f v i : Nat) (s : State) : Out := lift s fun w =>
  w.when (f < 4) fun w => (w.wr .A F.PWR_FEED.V f (satTo 12 v)).wr .A F.PWR_FEED.I f (satTo 12 i)

/-- The loads behind a feed lose it (R235): its load switches; the tiles' boost supply shows at their rails (R184). -/
def World.feedGone (w : World) (f : Nat) : World := w.when (f < 2) (·.loseFeed f)

/-- The stud's and the fuse's voltages have held a condition for 10 ms (10 mV, R530). -/
def execFuseOpen (f stud behind : Nat) (s : State) : Out := lift s fun w =>
  w.when (f < 4) fun w =>
    let low := stud < 800
    let fuse := !low && behind < 450 && w.flag .A F.PWR_FEED.CONNECT f
    let was := (w.flag .A F.PWR_FEED.FUSE_OPEN f, w.flag .A F.PWR_FEED.STUD_LOW f)
    let w := (w.wr .A F.PWR_FEED.FUSE_OPEN f (b2n fuse)).wr .A F.PWR_FEED.STUD_LOW f (b2n low)
    let w := w.when (was.1 != fuse) fun w => w.pwrEvent 19 (objFeed f)
    let w := w.when (was.2 != low) fun w => w.pwrEvent 19 (objFeed f)
    w.when ((fuse && !was.1) || (low && !was.2)) (·.feedGone f)

/-- A write of PWR_FEEDn.CONNECT by the owner (R529). SAFE_OFF does not act on feeds. -/
def execFeedConnect (h : Half) (init f : Nat) (on : Bool) (s : State) : Out :=
  if 4 ≤ f then .next s
  else putW s <| gateObj s h init (objFeed f) fun w => w.wr .A F.PWR_FEED.CONNECT f (b2n on)

/-- A feed enters its Green state (R62): ON connected, OFF disconnected. -/
def World.greenFeed (w : World) (f : Nat) : World := w.wr .A F.PWR_FEED.CONNECT f (b2n ((w.gren (objFeed f)).state = 1))

/-! Temperatures (R533–R537). -/

/-- DERATE set or cleared, with its event (R533). -/
def World.setDerate (w : World) (on : Bool) : World :=
  if w.flag .A F.PWR_STATUS.DERATE = on then w
  else (w.wr .A F.PWR_STATUS.DERATE 0 (b2n on)).pwrEvent 20 0xFFFF

/-- The ambient, filtered over 10 s (0.1 °C): above 70.0 °C the module derates, at or below 67.0 °C for 60 s it returns; while TA is
faulty it stays derated (R533, R536). -/
def execDerateChange (ta : Int) (s : State) : Out := lift s fun w =>
  let w := w.wrI .A F.PWR_TEMP.TA 0 (clampI (-128) 127 (ta / 10))
  let w := w.updPwr fun p => { p with coolAt := if ta ≤ 670 then some (p.coolAt.getD w.now) else none }
  if 700 < ta || w.pwr.bad.getD 2 false then w.setDerate true
  else w.when (w.pwr.coolAt.any (fun t => decide (t + 60 * sec ≤ w.now))) (·.setDerate false)

/-- A thermistor reading that counts as open or shorted (R535, R536). -/
def badTemp (t : Int) : Bool := t < -50 || 150 < t

/-- A firmware thermistor's reading (0 TC_IN, 1 TC_OUT, 2 TA) taken for its fault (R536): set at once, cleared after 10 s of valid
readings. -/
def World.thermistor (w : World) (k : Nat) (t : Int) : World :=
  let was := w.pwr.bad.getD k false
  if badTemp t then
    let w := w.updPwr fun p => { p with bad := listSet p.bad k true, okAt := listSet p.okAt k none }
    let w := w.when (!was) fun w => (w.wr .A F.PWR_TEMP.SENSOR_FAULT 0 1).pwrEvent 23 0xFFFF
    w.when (k = 2) (·.setDerate true)
  else
    let w := w.updPwr fun p => { p with okAt := listSet p.okAt k (some ((p.okAt.getD k none).getD w.now)) }
    w.when (was && ((w.pwr.okAt.getD k none).any (fun a => decide (a + 10 * sec ≤ w.now)))) fun w =>
      let w := w.updPwr fun p => { p with bad := listSet p.bad k false }
      w.wr .A F.PWR_TEMP.SENSOR_FAULT 0 (b2n (w.pwr.bad.any id))

/-- T_SH, °C. -/
def World.tSh (w : World) : Int := (w.rd .A F.PWR_SHDN.T_SH : Nat)

/-- The firmware warnings from TC_OUT and the thermistors' faults (R536): the readings, °C. Each warning clears 3 K below its level. -/
def execCoolantTemperatureWarning (tin tout ta : Int) (s : State) : Out := lift s fun w =>
  let w := ((w.wrI .A F.PWR_TEMP.TC_IN 0 (clampI (-128) 127 tin)).wrI .A F.PWR_TEMP.TC_OUT 0 (clampI (-128) 127 tout))
  let w := ((w.thermistor 0 tin).thermistor 1 tout).thermistor 2 ta
  let w := if badTemp tout then w else
    let t := w.tSh
    let was := (w.pwr.warn, w.pwr.crit)
    let warn : Bool := t - 8 ≤ tout || (was.1 && t - 11 < tout)
    let crit : Bool := t - 4 ≤ tout || (was.2 && t - 7 < tout)
    let w := w.updPwr fun p => { p with warn := warn, crit := crit }
    let w := w.when (warn && !was.1) fun w => w.pwrEvent 21 0xFFFF
    w.when (crit && !was.2) fun w => w.pwrEvent 22 0xFFFF
  w.fanDuties

/-- A reading of TS taken by the comparator chain (R535): out of range counts as T_SH; its clocks at T_SH and below T_SH − 10. -/
def World.readTs (w : World) (ts : Int) : World :=
  let t := if badTemp ts then w.tSh else ts
  (w.wrI .A F.PWR_SHDN.TS 0 (clampI (-128) 127 ts)).updPwr fun p => { p with
    hotAt := if w.tSh ≤ t then some (p.hotAt.getD w.now) else none
    coldAt := if t < w.tSh - 10 then some (p.coldAt.getD w.now) else none }

/-- TS crosses T_SH − 5 or T_SH − 8: the 100 % override starts or ends (R535). -/
def execCoolingOverride (ts : Int) (s : State) : Out := lift s fun w =>
  let w := w.readTs ts
  let was := w.flag .A F.PWR_SHDN.OVERRIDE
  let now : Bool := badTemp ts || w.tSh - 5 ≤ ts || (was && w.tSh - 8 < ts)
  (if was = now then w else (w.wr .A F.PWR_SHDN.OVERRIDE 0 (b2n now)).pwrEvent 29 0xFFFF).fanDuties

/-- The level of SYS_SHDN read back (R537). -/
def execSysShdnExternal (low : Bool) (s : State) : Out := lift s fun w =>
  let own := w.flag .A F.PWR_SHDN.ASSERTED
  let was := w.flag .A F.PWR_SHDN.PIN_LOW
  let w := w.wr .A F.PWR_SHDN.PIN_LOW 0 (b2n (low || own))
  w.when (low && !own && !was) fun w => w.pwrEvent 25 0xFFFF

/-- The straps' threshold, °C (R534). -/
def strapTsh (t1 t0 : Bool) : Nat :=
  match t1, t0 with
  | false, false => 95
  | false, true => 100
  | true, false => 105
  | true, true => 110

end Sys2Proof.Machine
end

