-- ==== Sys2Proof/Machine/Green.lean ====
section
/-!
DEFINITION. Green states and SAFE_OFF of every backplane object (R61–R65, R91, R572).
-/
namespace Sys2Proof.Machine

/-- A sensor supply enters its Green state (R62): AUX 0 off, 1 5 V, 2 10 V. -/
def World.greenSupply (w : World) (n : Nat) : World :=
  let a := (w.gren (objU (8 * n))).aux
  (w.wr .A F.UIN_SS.LEVEL n a).wr .A F.UIN_SS.EN n (b2n (a ≠ 0))

/-- Object `k` enters its Green state, following its ENTRY (R62, R63). -/
def World.greenObj (w : World) (k : Nat) : World :=
  if k < 96 then w.greenValve k
  else if k < 144 then w.greenSwitch (k - 96)
  else if k < 272 then (if (k - 144) % 8 = 0 then w.greenSupply ((k - 144) / 8) else w)
  else if k < 336 then w
  else if k < 352 then w.greenCan (k - 336)
  else if k < 354 then w.greenDsp k
  else if k < 358 then w.greenFan (k - 354)
  else if k < 362 then w.greenFeed (k - 358)
  else w

/-- The output objects: every backplane object but the inputs and the loss elements. -/
def outputs : List Nat := List.range 144 ++ List.range' 336 26

/-- Every output object goes to its Green state (R535). -/
def World.greenAll (w : World) : World := w.forAll outputs World.greenObj

/-- A Green RAMP entry reaches its end (R63). -/
def execGreenRampEnd (k : Nat) (s : State) : Out := lift s fun w =>
  if k < 96 then w.valveRampEnd k
  else if 354 ≤ k && k < 358 then
    (match (w.fan (k - 354)).gramp with
      | none => w
      | some r => w.when (r.start + r.dur ≤ w.now) fun w => (w.updFan (k - 354) fun f => { f with gramp := none }).fanDuties)
  else w

/-- SAFE_OFF acts on an object with SO set (R65): a valve goes off with CLAMP, its engine halted, KNOCKED (R214); a load switch is
turned off, KNOCKED (R240); a CAN channel as by a Knock (R425); the panel takes the fast path (R553). -/
def World.safeObj (w : World) (k : Nat) : World :=
  if !(w.gren k).so then w
  else if k < 96 then w.knockValve k 1
  else if k < 144 then w.knockSwitch (k - 96)
  else if 336 ≤ k && k < 352 then w.knockCan (k - 336)
  else if k = objPnl then w.dspFast
  else w

/-- PWR_SAFE.ASSERTED brought up to date (R572): a channel asserted, or DISC. Its rise acts on every object with SO set; its fall
lets a channel restart whose command has been OFF (R214, R240). -/
def World.safeUpdate (w : World) : World :=
  let was := w.safeOff
  let now := !w.flag .A F.PWR_SAFE.A_REL || !w.flag .A F.PWR_SAFE.B_REL || w.flag .A F.PWR_SAFE.DISC
  let w := w.wr .A F.PWR_SAFE.ASSERTED 0 (b2n now)
  if now && !was then (w.forAll (List.range nObj) World.safeObj).fanDuties
  else if was && !now then
    let w := w.forAll (List.range 96) fun w ch =>
      w.when ((w.gren (objV ch)).so && !w.flag .A F.VLV_STATUS.CMD ch) fun w => w.wr .A F.VLV_STATUS.KNOCKED ch 0
    (w.forAll (List.range 48) fun w n =>
      w.when ((w.gren (objL n)).so && !w.flag .A F.LSW_STATUS.CMD n) fun w => w.wr .A F.LSW_STATUS.KNOCKED n 0).fanDuties
  else w

/-- The release bit of a SAFE_OFF channel. -/
def safeRel (b : Bool) : Field := if b then F.PWR_SAFE.B_REL else F.PWR_SAFE.A_REL

/-- A SAFE_OFF pin (channel B where `b`) has read low for 1 ms: its channel is asserted; both together clear DISC (R572). -/
def execSafeOffAssert (b : Bool) (s : State) : Out := lift s fun w =>
  let w := w.wr .A (safeRel b) 0 0
  let w := w.when (!w.flag .A F.PWR_SAFE.A_REL && !w.flag .A F.PWR_SAFE.B_REL) fun w => w.wr .A F.PWR_SAFE.DISC 0 0
  w.safeUpdate

/-- A SAFE_OFF pin has read high for 20 ms: its channel is released (R572). -/
def execSafeOffRelease (b : Bool) (s : State) : Out := lift s fun w => (w.wr .A (safeRel b) 0 1).safeUpdate

/-- The two channels have disagreed for more than 100 ms: DISC sets (R572). -/
def execSafeOffDiscrepancy (s : State) : Out := lift s fun w =>
  w.when (w.flag .A F.PWR_SAFE.A_REL != w.flag .A F.PWR_SAFE.B_REL) fun w => (w.wr .A F.PWR_SAFE.DISC 0 1).safeUpdate

end Sys2Proof.Machine
end

