-- ==== Sys2Proof/Machine/Sect.lean ====
section
/-!
DEFINITION. The Roast's container (R54–R57) and its sections GREN, EVTR, LOAD, YILD and DISP: what each holds, and the internal rules of
each (step 8 of R71). A rule's check names the first failing entry by its index of R588; 4095 is the section's header or the section
as a whole.
-/
namespace Sys2Proof.Machine

/-- The index of the first check that fails. -/
def firstFail : List (Bool × Nat) → Option Nat
  | [] => none
  | (ok, i) :: t => if ok then firstFail t else some i

/-- The entry index of a failure of a section's header, of its length, or of the section as a whole (R588). -/
def whole : Nat := 4095

/-- A number within bounds. -/
def within (lo hi v : Nat) : Bool := lo ≤ v && v ≤ hi

/-- `n` bytes at `i` are 0. -/
def zeros (bs : List Byte) (i n : Nat) : Bool := (List.range n).all (fun k => byteAt bs (i + k) = 0)

/-! The container. -/

/-- An entry of the section table (R55): the type's code (R57; 12 for SIGN), none for a type not listed. -/
structure SecEnt where
  code : Option Nat
  ofs : Nat
  len : Nat
  crc : Nat
deriving DecidableEq, Repr

/-- The types of R57 in the order of their codes. -/
def secTypes : List (List Nat × Nat) :=
  [([0x42, 0x49, 0x4E, 0x44], 1), ([0x52, 0x45, 0x43, 0x50], 2), ([0x4C, 0x4F, 0x41, 0x44], 3), ([0x43, 0x41, 0x4E, 0x4D], 4),
   ([0x47, 0x52, 0x49, 0x4E], 5), ([0x4F, 0x50, 0x54, 0x4D], 6), ([0x59, 0x49, 0x4C, 0x44], 7), ([0x44, 0x49, 0x53, 0x50], 8),
   ([0x45, 0x56, 0x54, 0x52], 9), ([0x47, 0x52, 0x45, 0x4E], 10), ([0x46, 0x55, 0x4E, 0x43], 11), ([0x53, 0x49, 0x47, 0x4E], 12)]

/-- SEC_CNT of the header. -/
def secCnt (img : List Byte) : Nat := u16At img 28

/-- Table entry `k`. -/
def secEnt (img : List Byte) (k : Nat) : SecEnt :=
  let a := 64 + 16 * k
  let ty := slice img a 4
  ⟨(secTypes.find? (fun t => decide (bytesOf t.1 = ty))).map (·.2), u32At img (a + 4), u32At img (a + 8), u32At img (a + 12)⟩

/-- The section table. -/
def secTable (img : List Byte) : List SecEnt := (List.range (secCnt img)).map (secEnt img)

/-- The bytes of the section with a code; none where it is absent. -/
def sectOf (img : List Byte) (code : Nat) : Option (List Byte) :=
  ((secTable img).find? (fun e => decide (e.code = some code))).map (fun e => slice img e.ofs e.len)

/-- Step 1 of R71. -/
def roastHeadOk (img : List Byte) : Bool :=
  slice img 0 4 = bytesOf [0x45, 0x58, 0x52, 0x4F] && u16At img 6 = 64 && byteAt img 4 = 1 && byteAt img 5 = 0 &&
    u32At img 60 = crc32c (slice img 0 60) && u16At img 30 < 2 && u32At img 24 ≠ 0 && u32At img 32 ≤ 8 * 2 ^ 20 &&
    u32At img 32 = img.length

/-- The first multiple of 16 at or above a number. -/
def align16 (n : Nat) : Nat := (n + 15) / 16 * 16

/-- Step 2 of R71: the section table under R56. -/
def tableOk (img : List Byte) : Bool :=
  let n := secCnt img
  let t := secTable img
  let total := u32At img 32
  let lo := 64 + 16 * n
  let codes := t.map (·.code)
  within 5 12 n && codes.all (·.isSome) && codes.eraseDups.length = n &&
    [11, 1, 9, 10, 12].all (fun c => codes.contains (some c)) &&
    t.all (fun e => e.ofs % 16 = 0 && lo ≤ e.ofs && e.ofs + e.len ≤ total) &&
    (t.map (·.ofs)).contains (align16 lo) &&
    (t.zipIdx).all (fun a => (t.zipIdx).all (fun b => a.2 = b.2 || a.1.ofs + a.1.len ≤ b.1.ofs || b.1.ofs + b.1.len ≤ a.1.ofs)) &&
    (match t.getLast? with
      | some e => decide (e.code = some 12) && e.len = 160 && e.ofs + e.len = total && t.all (fun x => x.ofs ≤ e.ofs)
      | none => false) &&
    (List.range' lo (total - lo)).all (fun a => t.any (fun e => e.ofs ≤ a && a < e.ofs + e.len) || byteAt img a = 0)

/-- Step 3 of R71: the table index of the first section, SIGN apart, whose CRC fails. -/
def crcFail (img : List Byte) : Option Nat :=
  firstFail ((secTable img).zipIdx.map (fun e => (e.1.code = some 12 || e.1.crc = crc32c (slice img e.1.ofs e.1.len), e.2)))

/-- The SIGN section. -/
def signOf (img : List Byte) : List Byte := (sectOf img 12).getD []

/-- The DIGEST field (R67). -/
def digestOf (img : List Byte) : List Byte := slice (signOf img) 8 48

/-- The bytes that DIGEST is taken over (R68): those before SIGN, with the CRC field of its table entry 0. -/
def digestBytes (img : List Byte) : List Byte :=
  let n := secCnt img
  let crcAt := 64 + 16 * (n - 1) + 12
  let ofs := (secEnt img (n - 1)).ofs
  slice img 0 crcAt ++ [0, 0, 0, 0] ++ slice img (crcAt + 4) (ofs - (crcAt + 4))

/-- Step 4's signature part (R68): ALG, the SIGN CRC, the digest and the signature, with an OEM key's 96 bytes. -/
def signatureOk (img : List Byte) (key : List Byte) : Bool :=
  let sg := signOf img
  let e := secEnt img (secCnt img - 1)
  u32At sg 0 = 1 && e.crc = crc32c sg && Config.sha384 (digestBytes img) = digestOf img &&
    Config.ecdsaValid key (digestOf img) (slice sg 56 96)

/-! GREN (R61, R62, R587). -/

/-- An entry of GREN. -/
def grenEntry (bs : List Byte) (k : Nat) : Gren :=
  let a := 16 + 8 * k
  let f := byteAt bs (a + 1)
  { kind := byteAt bs a, state := bitsOf f 0 2, sor := bitOf f 2, so := bitOf f 3, entry := bitsOf f 4 2, toff := bitsOf f 6 2,
    level := u16At bs (a + 2), rampMs := u16At bs (a + 4), aux := byteAt bs (a + 6) }

/-- What R62 and R587 permit an entry of object `k` to hold, besides its KIND. -/
def grenFieldsOk (k : Nat) (g : Gren) (byte7 : Nat) : Bool :=
  let kd := kindOfObj k
  let st := match kd with
    | 1 => g.state = 0 || g.state = 2
    | 2 => g.state ≤ 1
    | 7 => g.state ≤ 2
    | 8 => g.state ≤ 2
    | 9 => g.state ≤ 1
    | _ => g.state = 0
  let loss := kd ≠ 4 || (!g.sor && !g.so && g.entry = 0)
  let aux := match kd with
    | 3 => if (k - 144) % 8 = 0 then g.aux ≤ 2 else g.aux = 0
    | 5 => g.aux ≤ 1
    | _ => g.aux = 0
  st && loss && g.entry ≤ 1 && (if kd = 1 then g.toff ≤ 1 else g.toff = 0) &&
    (if g.state = 2 then g.level ≤ (if kd = 1 then 5000 else 1000) else g.level = 0) &&
    (if g.entry = 1 then within 1 10000 g.rampMs else g.rampMs = 0) && aux && byte7 = 0

/-- The internal rules of GREN (R587); `safe` are the output objects of MF00 and MF03 (R65). -/
def grenCheck (bs : List Byte) (safe : List Nat) : Option Nat :=
  firstFail ((u16At bs 0 = 1 && u16At bs 2 = 362 && within 2 300 (u16At bs 4) && zeros bs 6 10 && bs.length = 2912, whole) ::
    (List.range 362).map (fun k =>
      let g := grenEntry bs k
      (g.kind = kindOfObj k && grenFieldsOk k g (byteAt bs (16 + 8 * k + 7)) && (g.so || !safe.contains k), k)))

/-- A bank of the Green shadow from a GREN section. -/
def grenBank (bs : List Byte) : NMap Gren := (List.range 362).foldl (fun m k => NMap.set (factoryGren k) m k (grenEntry bs k)) []

/-! EVTR (R486, R487). -/

/-- A route entry. -/
def routeEntry (bs : List Byte) (i : Nat) : Route :=
  let a := 16 + 16 * i
  { event := byteAt bs a, clusters := byteAt bs (a + 1), vec := [byteAt bs (a + 2), byteAt bs (a + 3), byteAt bs (a + 4)],
    fwd := bitOf (byteAt bs (a + 5)) 0, matchObj := u16At bs (a + 6), react := byteAt bs (a + 8), target := u16At bs (a + 10) }

/-- The routes of an EVTR section. -/
def evtrRoutes (bs : List Byte) : List Route := (List.range (u16At bs 2)).map (routeEntry bs)

/-- The event numbers that the manual leaves spare (R544, R50, R479 and the chapters' tables). -/
def spareEvents : List Nat :=
  [30, 31, 38, 39, 40, 41, 42, 43, 51, 58, 59, 60, 61, 62, 63] ++ List.range' 120 8 ++ List.range' 137 15 ++ [156, 157, 158, 159] ++
    List.range' 200 8 ++ [223, 232, 233, 255]

/-- The internal rules of EVTR. -/
def evtrCheck (bs : List Byte) (spare : List Nat) : Option Nat :=
  let n := u16At bs 2
  firstFail ((u16At bs 0 = 1 && n ≤ 1024 && zeros bs 4 12 && bs.length = 16 + 16 * n, whole) ::
    (List.range n).map (fun i =>
      let a := 16 + 16 * i
      let r := routeEntry bs i
      (r.clusters < 8 && (List.range 3).all (fun c => if bitOf r.clusters c then r.vec.getD c 0 < 64 else r.vec.getD c 0 = 0) &&
        byteAt bs (a + 5) < 2 && r.react ≤ 2 && byteAt bs (a + 9) = 0 && zeros bs (a + 12) 4 &&
        (match r.react with
          | 1 => true
          | 2 => r.target < 30
          | _ => r.target = 0) &&
        !spare.contains r.event &&
        (r.react ≠ 1 || r.target < 272 || (336 ≤ r.target && r.target < 352)), i)))

/-! LOAD (R241, R242). -/

/-- A user profile. -/
def loadProfile (bs : List Byte) (k : Nat) : Profile :=
  let a := 64 + 128 * k
  { vramp := u16At bs (a + 10), tripPct := u16At bs (a + 12), tripMs := u16At bs (a + 14),
    pts := (List.range (byteAt bs (a + 8))).map (fun i => (u32At bs (a + 32 + 8 * i), u16At bs (a + 36 + 8 * i))) }

/-- A switch entry. -/
def loadSwitch (bs : List Byte) (np n : Nat) : SwCfg :=
  let a := 64 + 128 * np + 24 * n
  let f := byteAt bs (a + 1)
  { used := bitOf f 0, olOnEn := bitOf f 1, probeEn := bitOf f 2, profDef := byteAt bs (a + 2), shed := byteAt bs (a + 3),
    retryN := byteAt bs (a + 4), tRel := byteAt bs (a + 5), retryT := u16At bs (a + 6), iSet := u16At bs (a + 8),
    olOn := u16At bs (a + 10) }

/-- A LOAD section as loaded. -/
def loadSec (bs : List Byte) : LoadSec :=
  let np := byteAt bs 2
  { uprof := (List.range np).map (loadProfile bs), budget0 := u16At bs 4, budget1 := u16At bs 6,
    sw := (List.range 48).map (loadSwitch bs np) }

/-- No time descends, and no three points share one (R224). -/
def timesOk : List Nat → Bool
  | a :: b :: c :: t => a ≤ b && !(a = b && b = c) && timesOk (b :: c :: t)
  | [a, b] => a ≤ b
  | _ => true

/-- The internal rules of LOAD; the claim of switch `n` under profile `p` against its feed, and the profiles that FUNC records name for
it, are operands. -/
def loadCheck (bs : List Byte) (claimOk : LoadSec → Nat → Nat → Bool) (named : Nat → List Nat) (alert : Option Nat)
    (rating : Nat → Nat) : Option Nat :=
  let np := byteAt bs 2
  let s := loadSec bs
  firstFail ((u16At bs 0 = 1 && np ≤ 3 && byteAt bs 3 = 0 && within 20 80 (u16At bs 4) && within 20 80 (u16At bs 6) && zeros bs 8 56 &&
      bs.length = 64 + 128 * np + 1152, whole) ::
    (List.range np).map (fun k =>
      let a := 64 + 128 * k
      let p := loadProfile bs k
      let n := byteAt bs (a + 8)
      (within 1 8 n && (match byteAt bs (a + 9) with
          | 0 => p.vramp = 0
          | 1 => within 1 1000 p.vramp
          | _ => false) &&
        within 100 300 p.tripPct && within 10 10000 p.tripMs && zeros bs (a + 16) 16 && zeros bs (a + 96) 32 &&
        p.pts.all (fun q => q.1 ≤ 10000 && within 100 800 q.2) &&
        (List.range n).all (fun i => zeros bs (a + 38 + 8 * i) 2) && zeros bs (a + 32 + 8 * n) (8 * (8 - n)) &&
        (p.pts.head?.map (·.1)) = some 0 && timesOk (p.pts.map (·.1)), k)) ++
    (List.range 48).map (fun n =>
      let a := 64 + 128 * np + 24 * n
      let c := loadSwitch bs np n
      (byteAt bs a = n && byteAt bs (a + 1) < 8 && zeros bs (a + 12) 12 &&
        (!c.used || (c.profDef ≤ 7 && c.shed ≤ 3 && c.retryN ≤ 15 && within 100 150 c.tRel && within 1 6000 c.retryT &&
          within 100 (rating n) c.iSet && claimOk s n c.profDef && (named n).all (claimOk s n))) &&
        (alert ≠ some n || c.shed = 0), 16 + n)))

/-! YILD (R294, R295). -/

/-- A crop entry. -/
def yildCrop (bs : List Byte) (k : Nat) : Crop :=
  let a := 128 + 80 * k
  { mStd := u16At bs (a + 8), defMoist := u16At bs (a + 10), rhoDef := u16At bs (a + 12), rhoMin := byteAt bs (a + 14),
    rhoMax := byteAt bs (a + 15),
    pts := (List.range (byteAt bs (a + 6))).map (fun i => (f32At bs (a + 16 + 8 * i), f32At bs (a + 20 + 8 * i))) }

/-- A YILD section as loaded. -/
def yildSec (bs : List Byte) : YildSec :=
  { cropDef := byteAt bs 3, impact := u16At bs 4, elev := u16At bs 6, fill := u16At bs 8, moist := u16At bs 10, cut := u16At bs 12,
    edge := u16At bs 14, flowOut := u16At bs 16, yieldOut := u16At bs 18, tankOut := u16At bs 20, dFlow := u16At bs 22,
    dMoist := u16At bs 24, flush := u16At bs 26, headerW := f32At bs 28, cutHt := f32At bs 32, cutHys := f32At bs 36,
    wImp := f32At bs 40, volK := f32At bs 44, nRef := f32At bs 48, tileLen := u16At bs 52, moistHold := u16At bs 54,
    unloadKgs := f32At bs 56, tauRho := u16At bs 60, tankMax := u16At bs 62, cbX := f32At bs 64, cbY := f32At bs 68,
    crops := (List.range (byteAt bs 2)).map (yildCrop bs) }

/-- A list of numbers that ascends strictly. -/
def ascends : List Rat → Bool
  | a :: b :: t => a < b && ascends (b :: t)
  | _ => true

/-- A list of numbers that does not descend. -/
def climbs : List Rat → Bool
  | a :: b :: t => a ≤ b && climbs (b :: t)
  | _ => true

/-- The internal rules of YILD. -/
def yildCheck (bs : List Byte) : Option Nat :=
  let n := byteAt bs 2
  let s := yildSec bs
  firstFail ((u16At bs 0 = 1 && within 1 8 n && s.cropDef < n && within 10 250 s.dFlow && within 10 250 s.dMoist && s.flush ≤ 100 &&
      1 ≤ s.headerW && s.headerW ≤ 25 && 0 ≤ s.cutHys && 0 ≤ s.wImp && s.wImp ≤ 1 && 0 < s.volK && 0 < s.nRef &&
      within 5 500 s.tileLen && s.moistHold ≤ 600 && 0 ≤ s.unloadKgs && within 10 600 s.tauRho && zeros bs 72 56 &&
      bs.length = 128 + 80 * n && s.elev ≠ 0 && s.cut ≠ 0 && s.flowOut ≠ 0 && (s.impact ≠ 0 || s.fill ≠ 0) &&
      max s.dFlow s.dMoist + s.flush ≤ 300, whole) ::
    (List.range n).map (fun k =>
      let a := 128 + 80 * k
      let c := yildCrop bs k
      let np := byteAt bs (a + 6)
      (within 2 8 np && byteAt bs (a + 7) = 0 && c.mStd ≤ 5000 && c.defMoist ≤ 5000 && zeros bs (a + 16 + 8 * np) (8 * (8 - np)) &&
        (c.pts.head?.all (fun p => 0 ≤ p.1 && p.2 = 0)) && ascends (c.pts.map (·.1)) && climbs (c.pts.map (·.2)) &&
        10 * c.rhoMin ≤ c.rhoDef && c.rhoDef ≤ 10 * c.rhoMax, k)))

/-! DISP (R554, R555). -/

/-- A symbol entry. -/
def dispSymbol (bs : List Byte) (k : Nat) : Symbol :=
  let a := 64 + 16 * k
  { kind := byteAt bs a, src := byteAt bs (a + 1), ref := u16At bs (a + 2), seg0 := u16At bs (a + 4), n := byteAt bs (a + 6),
    blink := bitOf (byteAt bs (a + 7)) 0, thresh := f32At bs (a + 8), scale := f32At bs (a + 12) }

/-- A DISP section as loaded. -/
def dispSec (bs : List Byte) : DispSec :=
  { hz := u16At bs 4, segEn := bitOf (byteAt bs 6) 0, panel := bitOf (byteAt bs 6) 1, clear := byteAt bs 7,
    syms := (List.range (u16At bs 2)).map (dispSymbol bs) }

/-- The internal rules of DISP. -/
def dispCheck (bs : List Byte) : Option Nat :=
  let n := u16At bs 2
  let ys := (List.range n).map (dispSymbol bs)
  firstFail ((u16At bs 0 = 1 && n ≤ 128 && within 64 256 (u16At bs 4) && byteAt bs 6 < 4 && byteAt bs 7 ≤ 63 && zeros bs 8 56 &&
      bs.length = 64 + 16 * n, whole) ::
    ys.zipIdx.map (fun y =>
      (within 1 3 y.1.kind && y.1.src ≤ 3 && byteAt bs (64 + 16 * y.2 + 7) < 2 && 0 < y.1.scale && (y.1.kind ≠ 3 || y.1.n % 7 = 0) &&
        y.1.seg0 + y.1.n ≤ 320 &&
        (ys.take y.2).all (fun z => z.seg0 + z.n ≤ y.1.seg0 || y.1.seg0 + y.1.n ≤ z.seg0), y.2)))

end Sys2Proof.Machine
end

