-- ==== Sys2Proof/Machine/Sect2.lean ====
section
/-!
DEFINITION. The sections BIND, RECP and FUNC of a Roast: what each holds, and the internal rules of each (step 8 of R71).
-/
namespace Sys2Proof.Machine

/-! BIND (R266, R267). -/

/-- Binding `i`. -/
def bindEntry (bs : List Byte) (i : Nat) : BindCfg :=
  let a := 272 + 64 * i
  let f := byteAt bs (a + 4)
  { src := byteAt bs a, mode := byteAt bs (a + 1), obj := u16At bs (a + 2), pull := bitsOf f 0 2, ratio := bitOf f 2, fsAny := bitOf f 3
    invert := bitOf f 4, supply := byteAt bs (a + 5), filt := byteAt bs (a + 6), exp := byteAt bs (a + 7), gain := f32At bs (a + 8)
    ofs := f32At bs (a + 12), rngLo := f32At bs (a + 16), rngHi := f32At bs (a + 20), slew := f32At bs (a + 24), tc := f32At bs (a + 28)
    fsVal := f32At bs (a + 32), stuckBand := f32At bs (a + 36), fMax := f32At bs (a + 40), tOut := u16At bs (a + 44)
    tStuck := u16At bs (a + 46), thrRise := u16At bs (a + 48), thrFall := u16At bs (a + 50), expObj := u16At bs (a + 52)
    gate := u16At bs (a + 54), lmask := u64At bs (a + 56) }

/-- N_BIND. -/
def nBind (bs : List Byte) : Nat := u16At bs 2

/-- Twin entry `t`. -/
def twinEntry (bs : List Byte) (t : Nat) : TwinCfg :=
  let a := 272 + 64 * nBind bs + 12 * t
  ⟨u16At bs a, u16At bs (a + 2), f32At bs (a + 4), u16At bs (a + 8)⟩

/-- The five weights of a zone of a set, in the order of the section. -/
def lossZoneAt (bs : List Byte) (k : Nat) : List Rat := (List.range 5).map (fun i => f32At bs (112 + 20 * k + 4 * i))

/-- A BIND section as loaded. -/
def bindSec (bs : List Byte) : BindSec :=
  { supplies := (List.range 16).map (fun n => (byteAt bs (32 + 4 * n), bitOf (byteAt bs (33 + 4 * n)) 0))
    loss := { hitDead := u16At bs 96, silentS := u16At bs 98, clsDef := byteAt bs 100, sets := (List.range 8).map (lossZoneAt bs) }
    binds := (List.range (nBind bs)).map (bindEntry bs)
    twins := (List.range (u16At bs 4)).map (twinEntry bs) }

/-- A binding of a pair of inputs. -/
def BindCfg.quad (c : BindCfg) : Bool := c.src = 2 || (c.src = 1 && c.mode = 8)

/-- The inputs' objects that a binding names (R267 item 2). -/
def BindCfg.names (c : BindCfg) : List Nat :=
  if c.quad then [c.obj, c.obj + 1] else if c.src = 1 then [c.obj] else []

/-- The field ranges of a used binding. -/
def bindFieldsOk (c : BindCfg) (flags : Nat) : Bool :=
  c.src ≤ 5 && (if c.src = 1 then c.mode ≤ 8 else if c.src = 2 then c.mode = 8 else c.mode = 0) &&
    (if c.src = 1 || c.src = 2 then within 144 271 c.obj else if c.src = 4 then c.obj ≤ 4 else c.obj = 0) &&
    c.pull ≤ 2 && flags < 32 && (c.supply ≤ 15 || c.supply = 0xFF) && c.filt ≤ 2 && 0 ≤ c.tc && c.tc ≤ 100 && 0 ≤ c.stuckBand &&
    0 ≤ c.fMax && c.fMax ≤ 20000 && within 1 60000 c.tOut && c.thrRise ≤ 3200 && c.thrFall ≤ c.thrRise &&
    (c.expObj < 144 || c.expObj = 0xFFFF) &&
    (if c.mode = 5 then within 10 1000 c.gate else if c.mode = 7 then c.gate ≤ 255 else c.gate = 0) && (c.src = 5 || c.lmask = 0)

/-- Items 2, 3, 4 and 6 of R267 for binding `i`; a second binding of an input is the one at fault. -/
def bindRulesOk (s : BindSec) (c : BindCfg) (i : Nat) : Bool :=
  (!c.quad || c.obj % 2 = 0) && c.names.all (fun k => !((s.binds.take i).any (fun d => d.names.contains k))) &&
    (!(c.src = 2 || 5 ≤ c.mode) || (c.tOut ≠ 0 && 2 * c.gate ≤ c.tOut)) &&
    (c.supply = 0xFF || ((s.supplies.getD c.supply (0, false)).1 ≠ 0)) && (c.src ≠ 5 || c.lmask ≠ 0)

/-- The internal rules of BIND. -/
def bindCheck (bs : List Byte) : Option Nat :=
  let nb := nBind bs
  let nt := u16At bs 4
  let s := bindSec bs
  firstFail ((u16At bs 0 = 1 && within 1 512 nb && nt ≤ 64 && zeros bs 6 2 && u32At bs 8 = 272 && u32At bs 12 = 272 + 64 * nb &&
      zeros bs 16 16 && bs.length = 272 + 64 * nb + 12 * nt, whole) ::
    s.binds.zipIdx.map (fun x =>
      (x.1.src = 0 || (bindFieldsOk x.1 (byteAt bs (272 + 64 * x.2 + 4)) && bindRulesOk s x.1 x.2), x.2)) ++
    s.twins.zipIdx.map (fun x =>
      (x.1.a < nb && x.1.b < nb && x.1.a ≠ x.1.b && 0 < x.1.tol && within 1 10000 x.1.time && zeros bs (282 + 64 * nb + 12 * x.2) 2 &&
        (s.twins.take x.2).all (fun y => y.a ≠ x.1.a && y.a ≠ x.1.b && y.b ≠ x.1.a && y.b ≠ x.1.b), 512 + x.2)) ++
    (List.range 16).map (fun n =>
      (byteAt bs (32 + 4 * n) ≤ 2 && byteAt bs (33 + 4 * n) < 2 && zeros bs (34 + 4 * n) 2, 576 + n)) ++
    [(within 250 2000 s.loss.hitDead && s.loss.silentS ≤ 600 && s.loss.clsDef ≤ 3 && zeros bs 101 11 &&
        s.loss.sets.all (fun z => 0 < z.getD 0 0), 592)])

/-! RECP (R195, R217, R218). -/

/-- A number within a byte's signed range. -/
def i8At (bs : List Byte) (a : Nat) : Int := signed 8 (byteAt bs a)

/-- N_RCP. -/
def nRcp (bs : List Byte) : Nat := u16At bs 2

/-- CODE_OFS and PARAM_OFS of directory entry `i`. -/
def rcpOfs (bs : List Byte) (i : Nat) : Nat × Nat := (u32At bs (32 + 48 * i), u32At bs (36 + 48 * i))

/-- Recipe `i`: its directory entry, code and parameters. -/
def recipeEntry (bs : List Byte) (i : Nat) : Recipe :=
  let a := 16 + 48 * i
  let o := rcpOfs bs i
  { idx := i, code := (List.range (u16At bs (a + 8))).map (fun k => u32At bs (o.1 + 4 * k))
    par := (List.range 64).map (fun k => u32At bs (o.2 + 4 * k)), entry := u16At bs (a + 10), holdEntry := u16At bs (a + 12)
    flags := byteAt bs (a + 14), bandInit := byteAt bs (a + 15), coilR := u16At bs (a + 24), t1 := i8At bs (a + 26), t2 := i8At bs (a + 27)
    t3 := i8At bs (a + 28), kinkN := byteAt bs (a + 29), hyst := u16At bs (a + 30), iMax := u16At bs (a + 32), iCont := u16At bs (a + 34)
    dutyWin := u16At bs (a + 36), dutyMax := u16At bs (a + 38) }

/-- The bits that R195 lists for an opcode; 0 for a reserved one. -/
def opBits : Nat → Nat
  | 0x00 => 0xF8000000
  | 0x01 => 0xFFF00000
  | 0x02 => 0xFE000000
  | 0x03 => 0xF800FFFF
  | 0x04 => 0xFBC0FFFF
  | 0x05 => 0xFC07FFFF
  | 0x06 => 0xFFC0FFFF
  | 0x07 => 0xFFFFC000
  | 0x08 => 0xFEFF0000
  | 0x09 => 0xFF80FFFF
  | 0x0A => 0xF80007FF
  | 0x0B => 0xFFC007FF
  | 0x0C => 0xFFFF07FF
  | 0x0D => 0xF80000FF
  | 0x0E => 0xFE000000
  | 0x0F => 0xFE03FFFF
  | 0x10 => 0xF8000000
  | _ => 0

/-- A CUR16 operand has a defined value (R193). -/
def cur16Ok (v : Nat) : Bool :=
  match bitsOf v 14 2 with
  | 0 => bitsOf v 0 14 ≤ 12000
  | 1 => bitsOf v 4 10 = 0
  | 2 => bitsOf v 0 14 = 0
  | _ => bitsOf v 2 12 = 0

/-- A DUTY16 operand has a defined value (R193). -/
def duty16Ok (v : Nat) : Bool :=
  match bitsOf v 14 2 with
  | 0 => bitsOf v 10 4 = 0 && bitsOf v 0 10 ≤ 1000
  | 1 => bitsOf v 4 10 = 0
  | _ => false

/-- A word has a defined opcode, defined field values and 0 in every bit not listed (R218 item 2). -/
def wordDefined (v : Nat) : Bool :=
  let op := bitsOf v 27 5
  op ≤ 0x10 && v &&& opBits op = v &&
    (match op with
      | 0x01 => bitsOf v 22 2 ≤ 2
      | 0x02 => bitsOf v 25 2 ≤ 2
      | 0x03 => cur16Ok v
      | 0x04 => cur16Ok v
      | 0x05 => !bitOf v 18 || bitsOf v 4 14 = 0
      | 0x06 => cur16Ok v
      | 0x08 => bitsOf v 25 2 ≤ 2
      | 0x09 => duty16Ok v
      | 0x0B => bitsOf v 23 4 ≤ 9
      | 0x0C => 1 ≤ bitsOf v 16 10
      | 0x0F => bitsOf v 25 2 ≤ 2 && (if bitsOf v 25 2 = 0 then cur16Ok v else bitsOf v 0 16 = 0)
      | _ => true)

/-- The parameter entries an instruction reads, each with the range of its use (R218 items 4 and 6), from the recipe's I_MAX. -/
def wordReads (iMax v : Nat) : List (Nat × Nat × Nat) :=
  let time (k : Nat) : Nat × Nat × Nat := (k, 0, 2 ^ 18 - 1)
  let cur : List (Nat × Nat × Nat) := if bitsOf v 14 2 = 1 then [(bitsOf v 0 4, 0, iMax)] else []
  match bitsOf v 27 5 with
  | 0x03 => cur
  | 0x04 => time (bitsOf v 22 4) :: cur
  | 0x05 => if bitOf v 18 then [time (bitsOf v 0 4)] else []
  | 0x06 => time (bitsOf v 22 4) :: cur
  | 0x07 => [time (bitsOf v 22 4), time (bitsOf v 18 4), if bitOf v 26 then (bitsOf v 14 4, 10, 10000) else (bitsOf v 14 4, 10, iMax)]
  | 0x08 => if bitsOf v 25 2 = 0 then [] else [(bitsOf v 20 4, 0, 2000), (bitsOf v 16 4, 20, 5000)]
  | 0x09 =>
    if bitsOf v 14 2 = 1 then [(bitsOf v 0 4, 0, 1000), (bitsOf v 23 4, 100, 20000)]
    else if bitsOf v 0 10 = 0 || bitsOf v 0 10 = 1000 then [] else [(bitsOf v 23 4, 100, 20000)]
  | 0x0F => if bitsOf v 25 2 = 0 then cur else []
  | _ => []

/-- The immediate current of an instruction, if it has one. -/
def wordImm (v : Nat) : Option Nat :=
  let op := bitsOf v 27 5
  if (op = 3 || op = 4 || op = 6 || (op = 0x0F && bitsOf v 25 2 = 0)) && bitsOf v 14 2 = 0 then some (bitsOf v 0 14) else none

/-- Items 2 to 6 of R218 for one word of a recipe. -/
def wordOk (r : Recipe) (v : Nat) : Bool :=
  let op := bitsOf v 27 5
  wordDefined v && (!(op = 0x0A || op = 0x0B || op = 0x0C) || bitsOf v 0 11 < r.code.length) &&
    (wordImm v).all (fun i => i ≤ r.iMax) &&
    (bitOf r.flags 1 || !((op = 0x01 && bitsOf v 22 2 = 2) || (op = 0x0E && bitsOf v 25 2 = 2))) &&
    (bitOf r.flags 0 || !(op = 0x02 && bitsOf v 25 2 = 2)) &&
    (wordReads r.iMax v).all (fun e => (List.range 4).all (fun b => within e.2.1 e.2.2 (r.par.getD (16 * b + e.1) 0)))

/-- Two ranges of bytes (offset, length) that share none. -/
def apart (x y : Nat × Nat) : Bool := x.2 = 0 || y.2 = 0 || x.1 + x.2 ≤ y.1 || y.1 + y.2 ≤ x.1

/-- The code and parameter blocks of recipe `i`. -/
def rcpBlocks (bs : List Byte) (i : Nat) : List (Nat × Nat) :=
  let o := rcpOfs bs i
  [(o.1, 4 * u16At bs (24 + 48 * i)), (o.2, 256)]

/-- Item 1 of R218 for directory entry `i`; of two blocks that overlap, the later one is at fault. -/
def rcpFieldsOk (bs : List Byte) (i : Nat) : Bool :=
  let r := recipeEntry bs i
  let o := rcpOfs bs i
  within 1 2048 (u16At bs (24 + 48 * i)) && r.flags < 4 && r.bandInit ≤ 3 && o.1 % 4 = 0 && o.2 % 4 = 0 && within 500 60000 r.coilR &&
    r.t1 < r.t2 && r.t2 < r.t3 && 1 ≤ r.kinkN && within 10 500 r.hyst && within 100 12000 r.iMax && within 100 5000 r.iCont &&
    within 1 120 r.dutyWin && within 100 1000 r.dutyMax && zeros bs (56 + 48 * i) 8 &&
    (rcpBlocks bs i).all (fun x => x.1 + x.2 ≤ bs.length) && apart ((rcpBlocks bs i).getD 0 (0, 0)) ((rcpBlocks bs i).getD 1 (0, 0)) &&
    (rcpBlocks bs i).all (fun x =>
      ((0, 16 + 48 * nRcp bs) :: (List.range i).flatMap (rcpBlocks bs)).all (fun y => apart x y))

/-- The internal rules of RECP. -/
def recpCheck (bs : List Byte) : Option Nat :=
  let n := nRcp bs
  firstFail ((u16At bs 0 = 1 && within 1 64 n && u32At bs 4 = 16 && zeros bs 8 8 && 16 + 48 * n ≤ bs.length, whole) ::
    (List.range n).map (fun i =>
      let r := recipeEntry bs i
      (rcpFieldsOk bs i && r.entry < r.code.length && r.holdEntry < r.code.length && r.code.any (fun v => bitsOf v 27 5 = 0) &&
        r.code.all (wordOk r), i)))

/-! FUNC (R129–R131, R586, R128). -/

/-- A condition of an interlock or guard. -/
def condAt (bs : List Byte) (a : Nat) : Cond := ⟨byteAt bs a, byteAt bs (a + 1), u16At bs (a + 2), f32At bs (a + 4)⟩

/-- FUNC record `n`. -/
def funcRec (bs : List Byte) (n : Nat) : Func :=
  let a := 32 + 160 * n
  let b (i : Nat) := byteAt bs (a + i)
  let h (i : Nat) := u16At bs (a + i)
  let f (i : Nat) := f32At bs (a + i)
  { used := bitOf (b 1) 0, manOk := bitOf (b 1) 1, law := b 2, rate := b 3, spSrc := b 4, stateMask := b 5, outState := b 6
    policy := bitsOf (b 7) 0 2, safeNeg := bitOf (b 7) 2, pv := h 8, pvTwin := h 10, third := h 12, spRef := h 14, ffSrc := b 16
    sched := b 17, schedV1 := h 18, schedV2 := h 20, ffRef := h 22, kp := f 24, ki := f 28, kd := f 32, kff := f 36, td := f 40
    spMin := f 44, spMax := f 48, spRate := f 52, outMin := f 56, outMax := f 60, outRate := f 64, deadband := f 68, startA := f 72
    startB := f 76, outKind := b 80, tab := b 81, objA := h 82, objA2 := h 84, objB := h 86, objB2 := h 88, rcpA := h 90, rcpB := h 92
    outRef := h 94, ilk := (List.range 4).map (fun i => condAt bs (a + 96 + 8 * i))
    grade := (List.range 5).map (fun i => b (128 + i)), alertRef := h 134, holdT := h 136 }

/-- The STEER block. -/
def steerCfg (bs : List Byte) : SteerCfg :=
  let a := 4832
  let f (i : Nat) := f32At bs (a + i)
  { wheelbase := f 0, rear := byteAt bs (a + 4) = 1, posMin := byteAt bs (a + 5), cpX := f 8, kY := f 12, kPsi := f 16, kappaMax := f 20
    kappaRate := f 24, deltaMax := f 28, engXte := f 32, engHdg := f 36, vMin := f 40, vMax := f 44, ovrRef := u16At bs (a + 48)
    ovrThr := f 52, alertMs := u16At bs (a + 56) }

/-- Transition entry `i`. -/
def transEntry (bs : List Byte) (i : Nat) : Trans :=
  let a := u32At bs 8 + 16 * i
  ⟨byteAt bs a, byteAt bs (a + 1), byteAt bs (a + 2), condAt bs (a + 4)⟩

/-- The offset and the length of schedule table `i`. -/
def schedSpan (bs : List Byte) (i : Nat) : Nat × Nat :=
  let a := u32At bs (u32At bs 16 + 4 * i)
  (a, 4 + 4 * (byteAt bs a + byteAt bs (a + 1)) + 16 * byteAt bs a * byteAt bs (a + 1))

/-- Schedule table `i`. -/
def schedTable (bs : List Byte) (i : Nat) : Sched :=
  let a := u32At bs (u32At bs 16 + 4 * i)
  let n1 := byteAt bs a
  let n2 := byteAt bs (a + 1)
  { v1 := (List.range n1).map (fun k => f32At bs (a + 4 + 4 * k)), v2 := (List.range n2).map (fun k => f32At bs (a + 4 + 4 * n1 + 4 * k))
    cells := (List.range (n1 * n2)).map (fun c => (List.range 4).map (fun k => f32At bs (a + 4 + 4 * (n1 + n2) + 16 * c + 4 * k))) }

/-- The offset and the length of state/step table `i`. -/
def tabSpan (bs : List Byte) (i : Nat) : Nat × Nat :=
  let a := u32At bs (u32At bs 24 + 4 * i)
  (a, 4 + 16 * u32At bs a)

/-- Entry `k` of the state/step table at `a`. -/
def tabEntry (bs : List Byte) (a k : Nat) : TabEntry :=
  let b := a + 4 + 16 * k
  { out := f32At bs b, cond := byteAt bs (b + 4), next := byteAt bs (b + 5), ref := u16At bs (b + 6), thresh := f32At bs (b + 8)
    timeout := u16At bs (b + 12), onTo := byteAt bs (b + 14) }

/-- State/step table `i`; a table holds at most 16 entries. -/
def tabTable (bs : List Byte) (i : Nat) : List TabEntry :=
  let a := (tabSpan bs i).1
  (List.range (min 16 (u32At bs a))).map (tabEntry bs a)

/-- A FUNC section as loaded. -/
def funcSec (bs : List Byte) : FuncSec :=
  { recs := (List.range 30).map (funcRec bs), steer := steerCfg bs, trans := (List.range (u16At bs 12)).map (transEntry bs)
    scheds := (List.range (u16At bs 14)).map (schedTable bs), tabs := (List.range (u16At bs 20)).map (tabTable bs) }

/-- The output objects that a record names (R143). -/
def Func.outs (r : Func) : List Nat :=
  if 1 ≤ r.outKind && r.outKind ≤ 5 then [r.objA, r.objA2, r.objB, r.objB2].filter (fun o => o ≠ 0xFFFF) else []

/-- The functions that each function's output becomes an input of: SP_SRC FUNCTION and OUT_KIND FUNC (item 9 of R131). -/
def fnFeeds (recs : List Func) (n : Nat) : List Nat :=
  (List.range 30).filter (fun m =>
    ((recs[m]?).any (fun r => r.used && r.spSrc = 3 && r.spRef = n)) || ((recs[n]?).any (fun r => r.used && r.outKind = 7 && r.outRef = m)))

/-- The functions reached from a list of them in at most `k` steps. -/
def fnReach (recs : List Func) : Nat → List Nat → List Nat
  | 0, l => l
  | k + 1, l => fnReach recs k ((l ++ l.flatMap (fnFeeds recs)).eraseDups)

/-- Function `n` lies on a loop. -/
def fnLoop (recs : List Func) (n : Nat) : Bool := (fnReach recs 30 (fnFeeds recs n)).contains n

/-- PV and outputs twinned (R123). -/
def Func.twinned (r : Func) : Bool := r.pvTwin ≠ 0 && r.objA2 ≠ 0xFFFF && (r.objB = 0xFFFF || r.objB2 ≠ 0xFFFF)

/-- Two objects of the valve tiles lie on different tiles (item 4 of R131). -/
def tilesDiffer (a b : Nat) : Bool := b = 0xFFFF || 96 ≤ a || 96 ≤ b || a / 16 ≠ b / 16

/-- An interlock entry of a used record: TYPE and ACTION as R138 lists them. -/
def ilkOk (c : Cond) : Bool := c.type_ ≤ 6 && (if c.type_ = 0 then c.action ≤ 3 else within 1 3 c.action)

/-- The enumerated fields of a used record. -/
def funcEnumsOk (bs : List Byte) (n : Nat) (r : Func) (nSched nTab : Nat) : Bool :=
  let a := 32 + 160 * n
  byteAt bs (a + 1) < 4 && byteAt bs (a + 7) < 8 && r.policy ≤ 2 && r.spSrc ≤ 5 && r.outState ≤ 2 && r.ffSrc ≤ 2 &&
    (r.sched = 0xFF || r.sched < nSched) && (if r.law = 3 || r.law = 5 then r.tab < nTab else r.tab = 0xFF) &&
    byteAt bs (a + 133) = 0 && zeros bs (a + 138) 22 && r.grade.all (fun g => g ≤ 5) && r.ilk.all ilkOk && (n = 0 || r.alertRef = 0)

/-- Items 2 to 10 of R131 for a used record. -/
def funcRulesOk (recs : List Func) (n : Nat) (r : Func) : Bool :=
  r.stateMask ≠ 0 && within 1 6 r.law && r.rate ≤ 3 && within 1 7 r.outKind &&
    (if r.outKind = 3 || r.outKind = 4 then r.objA ≠ 0xFFFF && r.objB ≠ 0xFFFF else r.objB = 0xFFFF && r.objB2 = 0xFFFF) &&
    tilesDiffer r.objA r.objA2 && tilesDiffer r.objB r.objB2 &&
    r.spMin ≤ r.spMax && r.outMin ≤ r.outMax && 0 ≤ r.deadband &&
    (n = 0 || (r.law ≠ 6 && r.spSrc ≠ 5)) &&
    (n ≠ 0 || (r.rate = 0 && r.spSrc = 5 && r.twinned)) && (n ≠ 2 || r.outKind = 6) && (n ≠ 3 || r.twinned) &&
    (n ≠ 0 || r.grade.getD 0 0 = 4) && !fnLoop recs n &&
    (r.outKind ≠ 7 || (recs[r.outRef]?).all (fun t => !t.used || r.rate ≤ t.rate))

/-- Transition entry `i` under R586 and R128. -/
def transOk (bs : List Byte) (l : List Trans) (i : Nat) (t : Trans) : Bool :=
  let a := u32At bs 8 + 16 * i
  t.src ≤ 5 && t.dst ≤ 5 && t.src ≠ t.dst && within 1 3 t.mode && byteAt bs (a + 3) = 0 && zeros bs (a + 12) 4 && t.guard.type_ ≤ 6 &&
    t.guard.action = 0 && (l.take i).all (fun u => !(u.src = t.src && u.dst = t.dst)) && (t.dst ≠ 5 || t.src = 0) &&
    (t.src ≠ 5 || t.dst = 0)

/-- The parts of a FUNC section beside its transition table. -/
def funcParts (bs : List Byte) : List (Nat × Nat) :=
  [(0, 4896), (u32At bs 16, 4 * u16At bs 14), (u32At bs 24, 4 * u16At bs 20)] ++ (List.range (u16At bs 14)).map (schedSpan bs) ++
    (List.range (u16At bs 20)).map (tabSpan bs)

/-- The header of FUNC, with the places of its tables. -/
def funcHeadOk (bs : List Byte) : Bool :=
  let tr := (u32At bs 8, 16 * u16At bs 12)
  u16At bs 0 = 1 && u16At bs 2 = 160 && u32At bs 4 = 4832 && u16At bs 12 ≤ 30 && u16At bs 14 ≤ 30 && u16At bs 20 ≤ 30 && zeros bs 22 2 &&
    zeros bs 28 4 && 4896 ≤ bs.length && tr.1 % 4 = 0 && tr.1 + tr.2 ≤ bs.length &&
    u32At bs 16 + 4 * u16At bs 14 ≤ bs.length && u32At bs 24 + 4 * u16At bs 20 ≤ bs.length && (funcParts bs).all (fun p => apart tr p)

/-- The STEER block of a Roast that uses MF00: its codes, its reserved bytes and ALERT_MS. -/
def steerOk (bs : List Byte) : Bool :=
  byteAt bs 4836 ≤ 1 && byteAt bs 4837 ≤ 3 && zeros bs 4838 2 && zeros bs 4882 2 && within 3000 30000 (u16At bs 4888) && zeros bs 4890 6

/-- Schedule table `i` under R137. -/
def schedOk (bs : List Byte) (i : Nat) : Bool :=
  let sp := schedSpan bs i
  let t := schedTable bs i
  within 2 8 (byteAt bs sp.1) && within 1 8 (byteAt bs (sp.1 + 1)) && zeros bs (sp.1 + 2) 2 && sp.1 + sp.2 ≤ bs.length && ascends t.v1 &&
    ascends t.v2

/-- State/step table `i` under R136. -/
def tabOk (bs : List Byte) (i : Nat) : Bool :=
  let sp := tabSpan bs i
  within 1 16 (u32At bs sp.1) && sp.1 + sp.2 ≤ bs.length &&
    (tabTable bs i).zipIdx.all (fun e => e.1.cond ≤ 5 && byteAt bs (sp.1 + 19 + 16 * e.2) = 0)

/-- The internal rules of FUNC. -/
def funcCheck (bs : List Byte) : Option Nat :=
  let s := funcSec bs
  firstFail ((funcHeadOk bs, whole) ::
    s.recs.zipIdx.map (fun x =>
      let n := x.2
      (byteAt bs (32 + 160 * n) = n &&
        (if x.1.used then funcEnumsOk bs n x.1 s.scheds.length s.tabs.length && funcRulesOk s.recs n x.1
         else zeros bs (33 + 160 * n) 159), n)) ++
    [(!((s.recs.head?).any (·.used)) || steerOk bs, 30)] ++
    s.trans.zipIdx.map (fun x => (transOk bs s.trans x.2 x.1, 32 + x.2)) ++
    (List.range s.scheds.length).map (fun i => (schedOk bs i, 64 + i)) ++
    (List.range s.tabs.length).map (fun i => (tabOk bs i, 96 + i)))

end Sys2Proof.Machine
end

