-- ==== Sys2Proof/Machine/Sect3.lean ====
section
/-!
DEFINITION. The sections CANM, GRIN and OPTM of a Roast: what each holds, and the internal rules of each (step 8 of R71).
-/
namespace Sys2Proof.Machine

/-! CANM (R410, R427, R428). -/

/-- Channel entry `n`. -/
def canCfg (bs : List Byte) (n : Nat) : CanCfg :=
  let a := 64 + 64 * n
  let b (i : Nat) := byteAt bs (a + i)
  { mode := b 0, term := bitOf (b 1) 0, wake := bitOf (b 1) 1, tdc := bitOf (b 1) 2, selfRx := bitOf (b 1) 3, order := bitOf (b 1) 4
    stack := b 2, prefSa := b 3, nbrp := u16At bs (a + 4), ntseg1 := u16At bs (a + 6), ntseg2 := b 8, nsjw := b 9, dbrp := b 10
    dtseg1 := b 11, dtseg2 := b 12, dsjw := b 13, tdco := b 14, tdcf := b 15, boffLimit := b 16, name := u64At bs (a + 24) }

/-- N_FLT, N_MSG, N_SIG. -/
def canCounts (bs : List Byte) : Nat × Nat × Nat := (u16At bs 2, u16At bs 4, u16At bs 6)

/-- Filter `f`. -/
def canFlt (bs : List Byte) (f : Nat) : CanFlt :=
  let a := 1088 + 12 * f
  let g := byteAt bs (a + 1)
  { ch := byteAt bs a, ide := bitOf g 0, queue := bitOf g 1, decode := bitOf g 2, stack := bitOf g 3, msg := u16At bs (a + 2)
    id := u32At bs (a + 4), mask := u32At bs (a + 8) }

/-- Where message `m` lies. -/
def canMsgAt (bs : List Byte) (m : Nat) : Nat := 1088 + 12 * u16At bs 2 + 32 * m

/-- Message `m`. -/
def canMsg (bs : List Byte) (m : Nat) : CanMsg :=
  let a := canMsgAt bs m
  let g := byteAt bs (a + 2)
  { ch := byteAt bs a, dir := byteAt bs (a + 1), ide := bitOf g 0, fdf := bitOf g 1, brs := bitOf g 2, dlc := byteAt bs (a + 3)
    id := u32At bs (a + 4), owner := byteAt bs (a + 8), fill := byteAt bs (a + 9), period := u16At bs (a + 10), phase := u16At bs (a + 12)
    first := u16At bs (a + 14), nSig := u16At bs (a + 16) }

/-- Where signal `i` lies. -/
def canSigAt (bs : List Byte) (i : Nat) : Nat := canMsgAt bs (u16At bs 4) + 24 * i

/-- Signal `i`. -/
def canSig (bs : List Byte) (i : Nat) : CanSig :=
  let a := canSigAt bs i
  let g := byteAt bs (a + 5)
  { msg := u16At bs a, start := u16At bs (a + 2), len := byteAt bs (a + 4), sgn := bitOf g 0, na := bitOf g 1, kind := bitsOf g 2 2
    bind := u16At bs (a + 6), scale := f32At bs (a + 8), ofs := f32At bs (a + 12), init := u32At bs (a + 16) }

/-- A CANM section as loaded. -/
def canSec (bs : List Byte) : CanSec :=
  let c := canCounts bs
  { chans := (List.range 16).map (canCfg bs), flts := (List.range c.1).map (canFlt bs), msgs := (List.range c.2.1).map (canMsg bs)
    sigs := (List.range c.2.2).map (canSig bs) }

/-- A message that the scheduler sends. -/
def CanMsg.sched (m : CanMsg) : Bool := m.dir = 1 && m.owner = 0

/-- The timing of a used channel (R410 at 80 MHz; item 2 of R428). -/
def canTimingOk (c : CanCfg) : Bool :=
  let nq := c.nbrp * (1 + c.ntseg1 + c.ntseg2)
  let dq := c.dbrp * (1 + c.dtseg1 + c.dtseg2)
  within 1 512 c.nbrp && within 2 256 c.ntseg1 && within 1 128 c.ntseg2 && within 1 (min c.ntseg1 c.ntseg2) c.nsjw && within 1 32 c.dbrp &&
    within 1 32 c.dtseg1 && within 1 16 c.dtseg2 && within 1 (min c.dtseg1 c.dtseg2) c.dsjw && within 80 8000 nq && within 10 nq dq &&
    (c.tdc || 80 ≤ dq) && (!c.tdc || c.dbrp ≤ 2)

/-- Channel entry `n`: its ranges and items 2, 6 and 7 of R428. -/
def canChanOk (bs : List Byte) (s : CanSec) (n : Nat) (c : CanCfg) : Bool :=
  let a := 64 + 64 * n
  c.mode ≤ 3 && byteAt bs (a + 1) < 32 && c.stack ≤ 2 && c.prefSa ≤ 253 && c.tdco ≤ 127 && c.tdcf ≤ 127 && c.boffLimit ≤ 15 &&
    zeros bs (a + 17) 7 && zeros bs (a + 32) 32 && (c.mode = 0 || canTimingOk c) && (c.stack = 0 || c.name ≠ 0) &&
    (c.mode ≠ 3 || (c.stack = 0 && s.msgs.all (fun m => m.ch ≠ n || m.dir = 0) && s.flts.all (fun f => f.ch ≠ n || !f.stack)))

/-- The largest identifier of a format. -/
def idTop (ide : Bool) : Nat := if ide then 2 ^ 29 else 2 ^ 11

/-- A filter. -/
def canFltOk (bs : List Byte) (s : CanSec) (i : Nat) (f : CanFlt) : Bool :=
  f.ch ≤ 15 && byteAt bs (1089 + 12 * i) < 16 && f.id < idTop f.ide && f.mask < 2 ^ 29 &&
    (if f.decode then (s.msgs[f.msg]?).any (fun m => m.dir = 0) else f.msg = 0xFFFF)

/-- Message `m`: its ranges, and items 3 and 4 of R428. -/
def canMsgOk (bs : List Byte) (s : CanSec) (i : Nat) (m : CanMsg) : Bool :=
  m.ch ≤ 15 && m.dir ≤ 1 && byteAt bs (canMsgAt bs i + 2) < 8 && m.dlc ≤ (if m.fdf then 15 else 8) && m.id < idTop m.ide &&
    m.owner ≤ (if m.dir = 1 then 3 else 0) && (if m.sched then within 1 10000 m.period && m.phase < m.period else m.period = 0 && m.phase = 0) &&
    m.nSig ≤ 64 && zeros bs (canMsgAt bs i + 18) 14 && m.first + m.nSig ≤ max s.sigs.length m.first &&
    s.sigs.zipIdx.all (fun x => (x.1.msg = i) == (m.first ≤ x.2 && x.2 < m.first + m.nSig)) &&
    (m.dir = 1 || (s.flts.filter (fun f => f.decode && f.msg = i && f.ch = m.ch)).length = 1)

/-- Signal `i`: its ranges, and items 3 and 5 of R428; of two signals that overlap, or of two CRC8 signals, the later is at fault. -/
def canSigOk (bs : List Byte) (s : CanSec) (i : Nat) (g : CanSig) : Bool :=
  let a := canSigAt bs i
  byteAt bs (a + 5) < 16 && g.kind ≤ 2 && g.start ≤ 511 && within 1 64 g.len && g.scale ≠ 0 && zeros bs (a + 20) 4 &&
    (match s.msgs[g.msg]? with
      | none => false
      | some m =>
        g.start + g.len ≤ 8 * dlcLen m.fdf m.dlc && (m.dir = 0 || g.bind = 0) && (g.kind = 0 || m.sched) &&
          (s.sigs.take i).all (fun o => o.msg ≠ g.msg || (apart (o.start, o.len) (g.start, g.len) && !(o.kind = 2 && g.kind = 2))))

/-- The internal rules of CANM. -/
def canmCheck (bs : List Byte) : Option Nat :=
  let c := canCounts bs
  let s := canSec bs
  firstFail ((u16At bs 0 = 1 && c.1 ≤ 1024 && c.2.1 ≤ 512 && c.2.2 ≤ 256 && u32At bs 8 = 1088 && u32At bs 12 = canMsgAt bs 0 &&
      u32At bs 16 = canSigAt bs 0 && zeros bs 20 44 && bs.length = canSigAt bs c.2.2, whole) ::
    s.sigs.zipIdx.map (fun x => (canSigOk bs s x.2 x.1, x.2)) ++
    s.chans.zipIdx.map (fun x => (canChanOk bs s x.2 x.1, 256 + x.2)) ++
    s.flts.zipIdx.map (fun x => (canFltOk bs s x.2 x.1, 512 + x.2)) ++
    s.msgs.zipIdx.map (fun x => (canMsgOk bs s x.2 x.1, 2048 + x.2)))

/-! GRIN (R329, R330). -/

/-- Port entry `p`. -/
def grinPort (bs : List Byte) (p : Nat) : GPort :=
  let a := 128 + 64 * p
  { role := byteAt bs a, sectors := byteAt bs (a + 1), cfa := byteAt bs (a + 2), width := u16At bs (a + 4), height := u16At bs (a + 6)
    period := u16At bs (a + 8), silentMs := u16At bs (a + 10), enc := byteAt bs (a + 12), health := byteAt bs (a + 13)
    serial := slice bs (a + 16) 16 }

/-- Channel entry `c`. -/
def grinChan (bs : List Byte) (c : Nat) : GChan :=
  let a := 640 + 32 * c
  ⟨byteAt bs (a + 16), byteAt bs (a + 17), f32At bs (a + 20), f32At bs (a + 24)⟩

/-- Model entry `m`. -/
def grinModel (bs : List Byte) (m : Nat) : GModel :=
  let a := 2688 + 128 * m
  { id := u32At bs (a + 16), version := u32At bs (a + 20), digest := slice bs (a + 24) 8, kind := byteAt bs (a + 32)
    cls := byteAt bs (a + 33), mem := u32At bs (a + 36), ports := u16At bs (a + 48) }

/-- Product entry `p`. -/
def grinProd (bs : List Byte) (p : Nat) : GProd :=
  let a := 2688 + 128 * byteAt bs 2 + 32 * p
  { type_ := byteAt bs a, model := byteAt bs (a + 1), left := bitOf (byteAt bs (a + 2)) 0, ch := byteAt bs (a + 3), lo := f32At bs (a + 4)
    hi := f32At bs (a + 8), param := f32At bs (a + 12) }

/-- A GRIN section as loaded. -/
def grinSec (bs : List Byte) : GrinSec :=
  { x0 := f32At bs 4, headerW := f32At bs 8, cbX := f32At bs 12, cbY := f32At bs 16, blindMin := u16At bs 20, gqRate := byteAt bs 22
    gqAvg := byteAt bs 23, ports := (List.range 8).map (grinPort bs), chans := (List.range 64).map (grinChan bs)
    models := (List.range (byteAt bs 2)).map (grinModel bs), prods := (List.range (byteAt bs 3)).map (grinProd bs) }

/-- The forward sectors of a plane's cameras. -/
def planeSectors (s : GrinSec) (odd : Nat) : Nat :=
  (s.ports.zipIdx.filter (fun x => x.2 % 2 = odd && x.1.role = 1)).foldl (fun a x => a ||| x.1.sectors) 0

/-- Model `m` has the kind. -/
def GrinSec.kindIs (s : GrinSec) (m k : Nat) : Bool := (s.models[m]?).any (fun x => x.kind = k)

/-- A port entry; a port with no sensor names nothing. -/
def grinPortOk (bs : List Byte) (s : GrinSec) (i : Nat) (p : GPort) : Bool :=
  let a := 128 + 64 * i
  p.role ≤ 3 && (p.role = 1 || p.sectors = 0) && (if p.role = 1 || p.role = 2 then p.cfa ≤ 4 else p.cfa = 0 && p.width = 0 && p.height = 0) &&
    byteAt bs (a + 3) = 0 && zeros bs (a + 14) 2 && zeros bs (a + 32) 32 &&
    (p.role = 0 || (within 20 1000 p.silentMs && s.kindIs p.enc (if p.role = 3 then 2 else 1) && s.kindIs p.health 3))

/-- A port uses a model: as its encoder, its health model, or (the models that no port entry names) by having a sensor; a GRAIN model,
by its GRAIN_CAM. -/
def portUses (p : GPort) (m : Nat) (kind : Nat) : Bool :=
  if kind = 1 || kind = 2 then p.role ≠ 0 && p.enc = m else if kind = 3 then p.role ≠ 0 && p.health = m
  else if kind = 6 then p.role = 2 else p.role ≠ 0

/-- A model entry. -/
def grinModelOk (bs : List Byte) (s : GrinSec) (i : Nat) (m : GModel) : Bool :=
  let a := 2688 + 128 * i
  within 1 7 m.kind && m.cls ≤ 3 && m.ports < 256 && zeros bs (a + 34) 2 && zeros bs (a + 44) 4 && zeros bs (a + 50) 2 && zeros bs (a + 68) 60 &&
    (List.range 8).all (fun p => !bitOf m.ports p || (s.ports[p]?).any (fun x => portUses x i m.kind))

/-- A product entry. -/
def grinProdOk (bs : List Byte) (s : GrinSec) (i : Nat) (p : GProd) : Bool :=
  let a := 2688 + 128 * s.models.length + 32 * i
  within 1 8 p.type_ && byteAt bs (a + 2) ≤ (if p.type_ = 2 then 1 else 0) && (if p.type_ = 8 then p.ch < 64 else p.ch = 0) &&
    (p.type_ = 1 || p.type_ = 8 || p.param = 0) && zeros bs (a + 16) 16 &&
    s.kindIs p.model (if p.type_ = 5 || p.type_ = 6 then 6 else if p.type_ = 7 then 5 else 4)

/-- The internal rules of GRIN. -/
def grinCheck (bs : List Byte) : Option Nat :=
  let s := grinSec bs
  let nm := byteAt bs 2
  let np := byteAt bs 3
  firstFail ((u16At bs 0 = 1 && within 1 16 nm && within 1 32 np && -20 ≤ s.x0 && s.x0 ≤ 0 && 1 ≤ s.headerW && s.headerW ≤ 25 &&
      s.blindMin ≤ 1000 && within 1 15 s.gqRate && within 1 50 s.gqAvg && zeros bs 24 104 && bs.length = 2688 + 128 * nm + 32 * np &&
      planeSectors s 0 = 0xFF && planeSectors s 1 = 0xFF, whole) ::
    s.prods.zipIdx.map (fun x => (grinProdOk bs s x.2 x.1, x.2)) ++
    s.ports.zipIdx.map (fun x => (grinPortOk bs s x.2 x.1, 64 + x.2)) ++
    s.chans.zipIdx.map (fun x =>
      (x.1.rule ≤ 2 && x.1.conf < 64 && zeros bs (658 + 32 * x.2) 2 && zeros bs (668 + 32 * x.2) 4, 128 + x.2)) ++
    s.models.zipIdx.map (fun x => (grinModelOk bs s x.2 x.1, 256 + x.2)))

/-! OPTM (R157, R158, R179, R180). -/

/-- The offsets of the tables of OPTM: outcomes, constraints, delays, profiles, and the length of a profile. -/
def optmOfs (bs : List Byte) : Nat × Nat × Nat × Nat × Nat :=
  let nv := byteAt bs 2
  let no := byteAt bs 3
  let o := 48 + 32 * nv
  let c := o + 24 * no
  let d := c + 16 * byteAt bs 4
  (o, c, d, d + (nv * no + 3) / 4 * 4, 16 + 4 * nv + 4 * no * (nv + 2))

/-- Variable entry `i`. -/
def optVar (bs : List Byte) (i : Nat) : OVar :=
  let a := 48 + 32 * i
  let f := byteAt bs (a + 2)
  { mf := byteAt bs a, kind := byteAt bs (a + 1), dither := bitOf f 0, retreat := bitOf f 1, assist := bitOf f 2, tPa := byteAt bs (a + 3)
    lo := f32At bs (a + 4), hi := f32At bs (a + 8), step := f32At bs (a + 12), r := f32At bs (a + 16), dithAmp := f32At bs (a + 20)
    dithHold := byteAt bs (a + 24), retreatUp := byteAt bs (a + 25) = 1, latDecl := u16At bs (a + 26), assistBand := f32At bs (a + 28) }

/-- Outcome entry `j`. -/
def optOut (bs : List Byte) (j : Nat) : OOut :=
  let a := (optmOfs bs).1 + 24 * j
  { type_ := byteAt bs a, avg := byteAt bs (a + 1), ref := u16At bs (a + 2), feedDelay := u16At bs (a + 4)
    learn := bitOf (byteAt bs (a + 6)) 0, mask := u64At bs (a + 8), w := f32At bs (a + 16), param := f32At bs (a + 20) }

/-- Constraint entry `k`. -/
def optCon (bs : List Byte) (k : Nat) : OCon :=
  let a := (optmOfs bs).2.1 + 16 * k
  let m := byteAt bs (a + 2)
  { a := byteAt bs a, b := byteAt bs (a + 1), ge := bitOf m 0, prio := bitsOf m 1 2, tgt := byteAt bs (a + 3), cb := f32At bs (a + 4)
    limit := f32At bs (a + 8), tgtMax := f32At bs (a + 12) }

/-- Crop profile `p`. -/
def optProf (bs : List Byte) (p : Nat) : OProf :=
  let o := optmOfs bs
  let nv := byteAt bs 2
  let a := o.2.2.2.1 + o.2.2.2.2 * p
  { grainFrac := f32At bs (a + 8), p0 := f32At bs (a + 12), dflt := (List.range nv).map (fun i => f32At bs (a + 16 + 4 * i))
    theta := (List.range (byteAt bs 3)).map (fun j =>
      (List.range (nv + 2)).map (fun i => f32At bs (a + 16 + 4 * nv + 4 * (j * (nv + 2) + i)))) }

/-- An OPTM section as loaded. -/
def optmSec (bs : List Byte) : OptmSec :=
  let nv := byteAt bs 2
  let no := byteAt bs 3
  let dly := (optmOfs bs).2.2.1
  { vars := (List.range nv).map (optVar bs), outs := (List.range no).map (optOut bs), cons := (List.range (byteAt bs 4)).map (optCon bs)
    stateMask := byteAt bs 6, modeDef := byteAt bs 7, lambda := f32At bs 8, pMax := f32At bs 12, horizon := f32At bs 16
    wThru := f32At bs 20, feedRef := u16At bs 24, biomassRef := u16At bs 26, retreatN := byteAt bs 28, profDef := byteAt bs 29
    dithMargin := u16At bs 30, headerW := f32At bs 32, holdAge := u16At bs 36, feedRefDelay := u16At bs 38
    delay := (List.range nv).map (fun i => (List.range no).map (fun j => byteAt bs (dly + i * no + j)))
    profs := (List.range (byteAt bs 5)).map (optProf bs) }

/-- The gradient of outcome row θ in variable `i`: THROUGHPUT through the feed, SETTING through its own entry (R158). -/
def gradAt (v : OVar) (i : Nat) (row : List Rat) : Rat :=
  if v.kind = 1 then row.getD 1 0 else if v.kind = 0 then row.getD (i + 2) 0 else 0

/-- The bounds of R158 for a variable: [LO, HI], intersected with the function's range for SETTING. -/
def varBounds (v : OVar) (fn : Func) : Rat × Rat :=
  if v.kind = 0 then (max v.lo fn.spMin, min v.hi fn.spMax) else (v.lo, v.hi)

/-- A linear constraint on a step: Σ coefficient · Δx ≤ bound. -/
structure Lin where
  co : List Rat
  b : Rat
deriving DecidableEq, Repr

/-- A constraint of R157 on the step from the outcomes predicted at x⁰, with its limit. -/
def conLin (vars : List OVar) (theta : List (List Rat)) (pred : List Rat) (c : OCon) (limit : Rat) : Lin :=
  let cb := if c.b = 0xFF then 0 else c.cb
  let g := vars.zipIdx.map (fun x => gradAt x.1 x.2 (theta.getD c.a []) + cb * gradAt x.1 x.2 (theta.getD c.b []))
  let r := limit - (pred.getD c.a 0 + cb * pred.getD c.b 0)
  if c.ge then ⟨g.map (fun q => -q), -r⟩ else ⟨g, r⟩

/-- The bounds on a step: each variable's lowest and highest step. -/
def boxLins (box : List (Rat × Rat)) : List Lin :=
  box.zipIdx.flatMap (fun x =>
    let e := (List.range box.length).map (fun k => if k = x.2 then (1 : Rat) else 0)
    [⟨e, x.1.2⟩, ⟨e.map (fun q => -q), -x.1.1⟩])

/-- One variable eliminated (Fourier and Motzkin): the constraints that remain on the others. -/
def eliminate (l : List Lin) (i : Nat) : List Lin :=
  let pos := l.filter (fun x => 0 < x.co.getD i 0)
  let neg := l.filter (fun x => x.co.getD i 0 < 0)
  l.filter (fun x => x.co.getD i 0 = 0) ++
    pos.flatMap (fun p => neg.map (fun n =>
      let a := p.co.getD i 0
      let c := -(n.co.getD i 0)
      ⟨List.zipWith (fun u v => c * u + a * v) p.co n.co, c * p.b + a * n.b⟩))

/-- A set of linear constraints on `n` variables has a solution. -/
def feasible : Nat → List Lin → Bool
  | 0, l => l.all (fun x => 0 ≤ x.b)
  | n + 1, l => feasible n (eliminate l n)

/-- The outcomes that a model predicts at feed `f` and variable values `x` (R156). -/
def predict (theta : List (List Rat)) (f : Rat) (x : List Rat) : List Rat :=
  theta.map (fun row => row.getD 0 0 + row.getD 1 0 * f + sumR (List.zipWith (fun a b => a * b) (row.drop 2) x))

/-- Item 9 of R180 for a profile: from its default set-points, at F = 0, some step meets every constraint and bound. -/
def profFeasible (s : OptmSec) (recs : List Func) (p : OProf) : Bool :=
  let pred := predict p.theta 0 p.dflt
  let box := s.vars.zipIdx.map (fun x =>
    if x.1.kind = 2 then ((0 : Rat), (0 : Rat))
    else
      let b := varBounds x.1 (recs.getD x.1.mf {})
      let d := p.dflt.getD x.2 0
      (max (b.1 - d) (-x.1.step), min (b.2 - d) x.1.step))
  feasible s.vars.length (boxLins box ++ s.cons.map (fun c => conLin s.vars p.theta pred c c.limit))

/-- A variable entry: its ranges, and items 2, 3 and 5 of R180. -/
def optVarOk (bs : List Byte) (s : OptmSec) (recs : List Func) (i : Nat) (v : OVar) : Bool :=
  let fn := recs.getD v.mf {}
  v.mf < 30 && fn.used && v.kind ≤ 2 && byteAt bs (50 + 32 * i) < 8 && 0 < v.step && 0 < v.r && 0 ≤ v.dithAmp && v.dithAmp ≤ v.step &&
    within 1 50 v.dithHold && byteAt bs (73 + 32 * i) ≤ 1 && v.latDecl ≤ 30000 && 0 ≤ v.assistBand && v.lo ≤ v.hi &&
    (v.kind = 2 || fn.spSrc ≠ 2 || (s.vars.take i).all (fun u => u.kind = 2 || u.mf ≠ v.mf)) &&
    (v.kind ≠ 1 || (v.mf = 1 && fn.spSrc = 2 && (s.vars.take i).all (fun u => u.kind ≠ 1))) &&
    (v.kind ≠ 0 || (v.lo ≤ fn.spMax && fn.spMin ≤ v.hi))

/-- An outcome entry. -/
def optOutOk (bs : List Byte) (j : Nat) (o : OOut) : Bool :=
  let a := (optmOfs bs).1 + 24 * j
  o.type_ ≤ 5 && within 1 50 o.avg && (o.type_ ≠ 1 || o.ref = 0) && byteAt bs (a + 6) < 2 && byteAt bs (a + 7) = 0 &&
    (if o.type_ = 1 then o.mask ≠ 0 else o.mask = 0) && (within 1 3 o.type_ || o.param = 0)

/-- A constraint entry. -/
def optConOk (bs : List Byte) (s : OptmSec) (k : Nat) (c : OCon) : Bool :=
  byteAt bs ((optmOfs bs).2.1 + 16 * k + 2) < 8 && c.a < s.outs.length && (c.b < s.outs.length || (c.b = 0xFF && c.cb = 0)) &&
    (c.tgt = 0 || within 2 4 c.tgt) && (c.tgt ≠ 0 || c.tgtMax = 0)

/-- The functions that OPTM must list (items 2 and 4 of R180). -/
def optmCovers (s : OptmSec) (recs : List Func) : Bool :=
  recs.zipIdx.all (fun x => !x.1.used ||
    ((x.1.spSrc ≠ 2 || s.vars.any (fun v => v.mf = x.2 && v.kind ≤ 1)) && (x.1.ffSrc ≠ 2 || s.vars.any (fun v => v.mf = x.2))))

/-- The internal rules of OPTM; N_VAR above 16 and N_CON above 32 are step 10's (R180). -/
def optmCheck (bs : List Byte) (recs : List Func) : Option Nat :=
  let s := optmSec bs
  let o := optmOfs bs
  let nv := byteAt bs 2
  let no := byteAt bs 3
  let lo95 : Rat := f32Bound (95 / 100)
  firstFail ((u16At bs 0 = 1 && 1 ≤ nv && within 1 24 no && within 1 8 (byteAt bs 5) && s.modeDef ≤ 2 && lo95 ≤ s.lambda &&
      s.lambda ≤ f32Bound (9995 / 10000) && 0 < s.pMax && 2 ≤ s.horizon && s.horizon ≤ 8 && 0 ≤ s.wThru && within 1 25 s.retreatN &&
      s.profDef < byteAt bs 5 && s.dithMargin ≤ 1000 && 1 ≤ s.headerW && s.headerW ≤ 25 && s.holdAge ≤ 720 && zeros bs 40 8 &&
      zeros bs (o.2.2.1 + nv * no) (o.2.2.2.1 - (o.2.2.1 + nv * no)) && bs.length = o.2.2.2.1 + o.2.2.2.2 * byteAt bs 5 &&
      optmCovers s recs, whole) ::
    s.vars.zipIdx.map (fun x => (optVarOk bs s recs x.2 x.1, x.2)) ++
    s.outs.zipIdx.map (fun x => (optOutOk bs x.2 x.1, 16 + x.2)) ++
    s.cons.zipIdx.map (fun x => (optConOk bs s x.2 x.1, 48 + x.2)) ++
    s.profs.zipIdx.map (fun x =>
      (f32Bound (5 / 100) ≤ x.1.grainFrac && x.1.grainFrac ≤ lo95 && 0 < x.1.p0 &&
        x.1.theta.all (fun row => s.vars.zipIdx.all (fun v => v.1.kind = 0 || row.getD (v.2 + 2) 0 = 0)) && profFeasible s recs x.1,
        96 + x.2)))

end Sys2Proof.Machine
end

