-- ==== Sys2Proof/Machine/Verify.lean ====
section
/-!
DEFINITION. The verification of a Roast (R71, R588): the ten steps in order, the cross-references of R60 and of the sections'
chapters, and the fit.
-/
namespace Sys2Proof.Machine

/-- The sections of a Roast as loaded; the optional ones may be absent (R56). -/
structure Content where
  order : List Nat
  func : FuncSec
  bind : BindSec
  recp : Option (List Recipe)
  load : Option LoadSec
  canm : Option CanSec
  grin : Option GrinSec
  optm : Option OptmSec
  yild : Option YildSec
  disp : Option DispSec
  routes : List Route
  gren : NMap Gren
  orphanT : Nat
deriving DecidableEq, Repr

/-- The content of an image. -/
def content (img : List Byte) : Content :=
  let get (c : Nat) : List Byte := (sectOf img c).getD []
  { order := (secTable img).filterMap (·.code), func := funcSec (get 11), bind := bindSec (get 1)
    recp := (sectOf img 2).map (fun b => (List.range (nRcp b)).map (recipeEntry b)), load := (sectOf img 3).map loadSec
    canm := (sectOf img 4).map canSec, grin := (sectOf img 5).map grinSec, optm := (sectOf img 6).map optmSec
    yild := (sectOf img 7).map yildSec, disp := (sectOf img 8).map dispSec, routes := evtrRoutes (get 9), gren := grenBank (get 10)
    orphanT := u16At (get 10) 4 }

/-- The used FUNC records with their numbers. -/
def Content.used (c : Content) : List (Func × Nat) := c.func.recs.zipIdx.filter (fun x => x.1.used)

/-- Function `n` is used. -/
def Content.fnUsed (c : Content) (n : Nat) : Bool := (c.func.recs[n]?).any (·.used)

/-! Step 8. -/

/-- The claim of switch `n` under profile `p` is at most its feed's budget; the profile exists (R230, R242 item 3). -/
def claimFits (s : LoadSec) (n p : Nat) : Bool :=
  let prof := if p < 5 then some (fixedProfile p) else s.uprof[p - 5]?
  prof.any (fun q =>
    min (classCeiling (swClass n)) (q.pts.foldl (fun m x => max m x.2) 0 * (s.sw.getD n {}).iSet / 100) ≤
      1000 * (if swFeed n = 0 then s.budget0 else s.budget1))

/-- The profiles that FUNC records name for switch `n`. -/
def namedProfiles (recs : List Func) (n : Nat) : List Nat :=
  (recs.filter (fun r => r.used && r.outKind = 5 && (r.objA = objL n || r.objA2 = objL n) && bitsOf r.outRef 12 4 = 3)).map
    (fun r => bitsOf r.outRef 0 12)

/-- The switch that a LOAD reference names by its entry (R241). -/
def switchOfRef (ref : Nat) : Option Nat :=
  if bitsOf ref 12 4 = 3 && within 16 63 (bitsOf ref 0 12) then some (bitsOf ref 0 12 - 16) else none

/-- The internal rules of the section with a code. -/
def sectionCheck (c : Content) (code : Nat) (bs : List Byte) : Option Nat :=
  let recs := c.func.recs
  match code with
  | 1 => bindCheck bs
  | 2 => recpCheck bs
  | 3 => loadCheck bs claimFits (namedProfiles recs)
      ((recs.head?.filter (·.used)).bind (fun r => switchOfRef r.alertRef)) (fun n => classRating (swClass n))
  | 4 => canmCheck bs
  | 5 => grinCheck bs
  | 6 => optmCheck bs recs
  | 7 => yildCheck bs
  | 8 => dispCheck bs
  | 9 => evtrCheck bs spareEvents
  | 10 => grenCheck bs ((c.used.filter (fun x => x.2 = 0 || x.2 = 3)).flatMap (·.1.outs))
  | 11 => funcCheck bs
  | _ => none

/-- Step 8: the first section, in table order, that breaks its rules, with the entry. -/
def contentFail (img : List Byte) (c : Content) : Option (Nat × Nat) :=
  c.order.findSome? (fun code => (sectionCheck c code ((sectOf img code).getD [])).map (fun i => (code, i)))

/-! Step 9: references (R58–R60). -/

/-- The entries of a section. -/
def Content.entry (c : Content) (code idx : Nat) : Bool :=
  match code with
  | 1 => idx < c.bind.binds.length
  | 2 => idx < (c.recp.getD []).length
  | 3 => c.load.any (fun l => idx < 5 + l.uprof.length || within 16 63 idx)
  | 4 => c.canm.any (fun s => idx < s.sigs.length)
  | 5 => c.grin.any (fun s => idx < s.prods.length)
  | 7 => c.yild.isSome && idx < 2
  | 11 => idx < 30
  | _ => false

/-- A reference is absent, or names an entry of one of the sections allowed (R58, R60 item 1). -/
def Content.refOk (c : Content) (allowed : List Nat) (ref : Nat) : Bool :=
  ref = 0 || (allowed.contains (bitsOf ref 12 4) && c.entry (bitsOf ref 12 4) (bitsOf ref 0 12))

/-- A condition's REF resolves: a binding, or a function (R138). -/
def Content.condRefOk (c : Content) (k : Cond) : Bool :=
  match k.type_ with
  | 2 => k.ref ≠ 0 && c.refOk [1] k.ref
  | 3 => k.ref ≠ 0 && c.refOk [1] k.ref
  | 4 => k.ref < 30
  | 5 => k.ref ≠ 0 && c.refOk [1] k.ref
  | _ => true

/-- The references of a FUNC record resolve. -/
def Content.funcRefsOk (c : Content) (r : Func) : Bool :=
  c.refOk [1] r.pv && c.refOk [1] r.pvTwin && c.refOk [1, 5] r.third && c.refOk [1] r.schedV1 && c.refOk [1] r.schedV2 &&
    c.refOk [1, 5, 11] r.ffRef && c.refOk [2] r.rcpA && c.refOk [2] r.rcpB && c.refOk [3, 4] r.alertRef && r.ilk.all c.condRefOk &&
    (match r.spSrc with
      | 3 => r.spRef < 30
      | 4 => r.spRef ≠ 0 && c.refOk [1] r.spRef
      | _ => true) &&
    (match r.outKind with
      | 5 => r.outRef ≠ 0 && c.refOk [3] r.outRef && bitsOf r.outRef 0 12 < 8
      | 6 => r.outRef ≠ 0 && c.refOk [4] r.outRef
      | 7 => r.outRef < 30
      | _ => true)

/-- Item 1 of R60 for a section: its first entry with a reference that does not resolve. -/
def Content.item1 (c : Content) (code : Nat) : Option Nat :=
  match code with
  | 11 => firstFail (c.used.map (fun x => (c.funcRefsOk x.1, x.2)) ++
      [(!c.fnUsed 0 || c.refOk [1] c.func.steer.ovrRef, 30)] ++
      c.func.trans.zipIdx.map (fun x => (c.condRefOk x.1.guard, 32 + x.2)) ++
      c.func.tabs.zipIdx.map (fun t => (t.1.all (fun e => !(e.cond = 1 || e.cond = 2) || (e.ref ≠ 0 && c.refOk [1] e.ref)), 96 + t.2)))
  | 4 => (c.canm.map (fun s => firstFail (s.sigs.zipIdx.map (fun g => (c.refOk [1] g.1.bind, g.2))))).join
  | 6 => (c.optm.map (fun o => firstFail ((c.refOk [1] o.feedRef && c.refOk [5] o.biomassRef, whole) ::
      o.outs.zipIdx.map (fun x => (c.refOk (if x.1.type_ = 2 || x.1.type_ = 3 then [5] else [1]) x.1.ref, 16 + x.2))))).join
  | 7 => (c.yild.map (fun y => firstFail [([y.impact, y.elev, y.fill, y.moist, y.cut, y.flowOut, y.yieldOut, y.tankOut].all (c.refOk [1]) &&
      c.refOk [5] y.edge, whole)])).join
  | 8 => (c.disp.map (fun d => firstFail (d.syms.zipIdx.map (fun y =>
      (match y.1.src with
        | 0 => within 1 8 y.1.ref
        | 1 => y.1.ref ≠ 0 && c.refOk [11] y.1.ref
        | 2 => y.1.ref ≠ 0 && c.refOk [1] y.1.ref
        | _ => y.1.ref ≠ 0 && c.refOk [7] y.1.ref, y.2))))).join
  | _ => none

/-- The objects that an OUT_KIND writes (item 2). -/
def outRange (kind o : Nat) : Bool := if kind = 5 then within 96 143 o else o < 96

/-- Items 2, 3 and 5 of R60 for the FUNC section, by item. -/
def Content.funcItem (c : Content) (item : Nat) : Option Nat :=
  match item with
  | 2 => firstFail (c.used.map (fun x => (x.1.outs.all (outRange x.1.outKind), x.2)))
  | 3 => firstFail (c.used.map (fun x =>
      (x.1.outs.all (fun o => c.used.all (fun y => x.2 ≤ y.2 || !y.1.outs.contains o)), x.2)))
  | _ => firstFail (c.used.map (fun x =>
      (((x.1.spSrc ≠ 3 || c.fnUsed x.1.spRef) && (x.1.outKind ≠ 7 || c.fnUsed x.1.outRef) &&
        (bitsOf x.1.ffRef 12 4 ≠ 11 || c.fnUsed (bitsOf x.1.ffRef 0 12)) && x.1.ilk.all (fun k => k.type_ ≠ 4 || c.fnUsed k.ref)), x.2)) ++
      c.func.trans.zipIdx.map (fun x => (x.1.guard.type_ ≠ 4 || c.fnUsed x.1.guard.ref, 32 + x.2)))

/-- The FUNC records that write a signal of CANM (OUT_KIND CAN). -/
def Content.canWriters (c : Content) (sig : Nat) : List Nat :=
  (c.used.filter (fun x => x.1.outKind = 6 && bitsOf x.1.outRef 0 12 = sig)).map (·.2)

/-- Item 4: a message of a firmware stack that a FUNC record writes into. -/
def Content.item4 (c : Content) : Option Nat :=
  (c.canm.map (fun s => firstFail (s.msgs.zipIdx.map (fun m =>
    (!(m.1.dir = 1 && (m.1.owner = 1 || m.1.owner = 2)) ||
      s.sigs.zipIdx.all (fun g => g.1.msg ≠ m.2 || (c.canWriters g.2).isEmpty), 2048 + m.2))))).join

/-- Item 5 for the sections beside FUNC. -/
def Content.item5 (c : Content) (code : Nat) : Option Nat :=
  match code with
  | 11 => c.funcItem 5
  | 6 => (c.optm.map (fun o => firstFail (o.vars.zipIdx.map (fun v => (c.fnUsed v.1.mf, v.2))))).join
  | 8 => (c.disp.map (fun d => firstFail (d.syms.zipIdx.map (fun y => (y.1.src ≠ 1 || c.fnUsed (bitsOf y.1.ref 0 12), y.2))))).join
  | 9 => firstFail (c.routes.zipIdx.map (fun r => (r.1.react ≠ 2 || c.fnUsed r.1.target, r.2)))
  | _ => none

/-- The pairs of twinned objects, and of the valves of a double-acting pair. -/
def Content.twinObjs (c : Content) : List (Nat × Nat) :=
  (c.used.flatMap (fun x => if x.1.outs.isEmpty then [] else [(x.1.objA, x.1.objA2), (x.1.objB, x.1.objB2)])).filter
    (fun p => p.1 ≠ 0xFFFF && p.2 ≠ 0xFFFF)

/-- The valves of the double-acting pairs. -/
def Content.pairObjs (c : Content) : List (Nat × Nat) :=
  (c.used.filter (fun x => x.1.outKind = 3 || x.1.outKind = 4)).map (fun x => (x.1.objA, x.1.objB))

/-- The GREN entry of an object. -/
def Content.green (c : Content) (k : Nat) : Gren := grenAt c.gren k

/-- Items 6 and 7: the GREN entry of the higher-numbered object of a pair that breaks the item. -/
def Content.greenItem (c : Content) (pairs : List (Nat × Nat)) (bad : Gren → Gren → Bool) : Option Nat :=
  firstFail ((List.range 362).map (fun k => (!(pairs.any (fun p => max p.1 p.2 = k && bad (c.green p.1) (c.green p.2))), k)))

/-- The items of R60 in their order. -/
def Content.xref60 (c : Content) : Option (Nat × Nat) :=
  let each (f : Nat → Option Nat) : Option (Nat × Nat) := c.order.findSome? (fun k => (f k).map (fun i => (k, i)))
  (each c.item1).orElse fun _ =>
  ((c.funcItem 2).map (fun i => (11, i))).orElse fun _ =>
  ((c.funcItem 3).map (fun i => (11, i))).orElse fun _ =>
  (c.item4.map (fun i => (4, i))).orElse fun _ =>
  (each c.item5).orElse fun _ =>
  ((c.greenItem c.twinObjs (fun a b => a ≠ b)).map (fun i => (10, i))).orElse fun _ =>
  (c.greenItem c.pairObjs (fun a b => 1 ≤ a.state && 1 ≤ b.state)).map (fun i => (10, i))

/-! The cross-section checks of the chapters. -/

/-- How many entries of CANM and YILD write binding `i`. -/
def Content.writers (c : Content) (i : Nat) : Nat :=
  let isIt (ref : Nat) : Bool := ref = 0x1000 + i
  (c.canm.map (fun s => (s.sigs.filter (fun g => isIt g.bind && (s.msgs.getD g.msg {}).dir = 0)).length)).getD 0 +
    (c.yild.map (fun y => ([y.flowOut, y.yieldOut, y.tankOut].filter isIt).length)).getD 0

/-- The twin entry that pairs two bindings given by references. -/
def Content.twinOf (c : Content) (a b : Nat) : Option Nat :=
  if bitsOf a 12 4 = 1 && bitsOf b 12 4 = 1 then
    indexWhere (fun t => (t.a = bitsOf a 0 12 && t.b = bitsOf b 0 12) || (t.b = bitsOf a 0 12 && t.a = bitsOf b 0 12)) c.bind.twins 0
  else none

/-- The checks of R267. -/
def Content.xBind (c : Content) : Option (Nat × Nat) :=
  ((firstFail (c.bind.binds.zipIdx.map (fun x => (x.1.src ≠ 3 || c.writers x.2 = 1, x.2)))).map (fun i => (1, i))).orElse fun _ =>
  ((firstFail ((List.range 16).map (fun n =>
    ((c.bind.supplies.getD n (0, false)).1 = (c.green (144 + 8 * n)).aux, 576 + n)))).map (fun i => (1, i))).orElse fun _ =>
  ((firstFail (c.used.map (fun x => (x.1.pvTwin = 0 || (c.twinOf x.1.pv x.1.pvTwin).isSome, x.2)))).map (fun i => (11, i))).orElse fun _ =>
  (firstFail ((c.used.filter (fun x => (x.2 = 0 || x.2 = 3) && x.1.pvTwin ≠ 0)).map (fun x =>
    let t := (c.twinOf x.1.pv x.1.pvTwin).getD 0
    let sup (r : Nat) := (c.bind.binds.getD (bitsOf r 0 12) {}).supply
    (sup x.1.pv ≠ sup x.1.pvTwin || sup x.1.pv = 0xFF, 512 + t)))).map (fun i => (1, i))

/-- The checks of R428. -/
def Content.xCan (c : Content) : Option (Nat × Nat) :=
  (c.canm.map (fun s =>
    let msg (g : CanSig) : CanMsg := s.msgs.getD g.msg {}
    ((firstFail (s.sigs.zipIdx.map (fun g =>
      ((msg g.1).dir = 1 || (g.1.bind ≠ 0 && (c.bind.binds[bitsOf g.1.bind 0 12]?).any (fun b => b.src = 3)), g.2)))).map (fun i => (4, i))).orElse fun _ =>
    ((firstFail ((c.used.filter (fun x => x.1.outKind = 6)).map (fun x =>
      ((s.sigs[bitsOf x.1.outRef 0 12]?).any (fun g => g.kind = 0 && (msg g).sched), x.2)))).map (fun i => (11, i))).orElse fun _ =>
    (firstFail ((c.used.filter (fun x => x.1.outKind = 6)).map (fun x =>
      ((c.canWriters (bitsOf x.1.outRef 0 12)).all (fun n => x.2 ≤ n), x.2)))).map (fun i => (11, i)))).join

/-- The product type that a GRIN reference names. -/
def Content.prodType (c : Content) (ref : Nat) : Nat :=
  if bitsOf ref 12 4 = 5 then ((c.grin.map (fun g => (g.prods.getD (bitsOf ref 0 12) {}).type_)).getD 0) else 0

/-- The first reference to an OBSTACLE product from FUNC, OPTM or YILD, in section-table order (the last check of R330). -/
def Content.obstacleRef (c : Content) : Option (Nat × Nat) :=
  let obs (r : Nat) : Bool := c.prodType r = 7
  c.order.findSome? (fun code =>
    let r : Option Nat := match code with
      | 11 => firstFail (c.used.map (fun x => (!(obs x.1.third || obs x.1.ffRef), x.2)))
      | 6 => (c.optm.map (fun o => firstFail ((!obs o.biomassRef, whole) ::
          o.outs.zipIdx.map (fun x => (!obs x.1.ref, 16 + x.2))))).join
      | 7 => (c.yild.map (fun y => firstFail [(!obs y.edge, whole)])).join
      | _ => none
    r.map (fun i => (code, i)))

/-- The checks of R330. -/
def Content.xGrin (c : Content) : Option (Nat × Nat) :=
  (c.grin.map (fun g =>
    (firstFail [(c.optm.all (fun o => o.headerW = g.headerW) && c.yild.all (fun y => y.headerW = g.headerW) &&
        c.yild.all (fun y => y.cbX = g.cbX && y.cbY = g.cbY), whole)]).map (fun i => (5, i)))).join.orElse fun _ =>
  (c.optm.map (fun o => (firstFail ((o.biomassRef = 0 || c.prodType o.biomassRef = 1, whole) ::
    o.outs.zipIdx.map (fun x =>
      ((x.1.type_ ≠ 2 || c.prodType x.1.ref = 5) && (x.1.type_ ≠ 3 || c.prodType x.1.ref = 6), 16 + x.2)))).map (fun i => (6, i)))).join.orElse fun _ =>
  (c.yild.map (fun y => (firstFail [(y.edge = 0 || c.prodType y.edge = 3, whole)]).map (fun i => (7, i)))).join.orElse fun _ =>
  c.obstacleRef

/-- The checks of R295. -/
def Content.xYild (c : Content) : Option (Nat × Nat) :=
  (c.yild.map (fun y =>
    let ext (r : Nat) : Bool := r = 0 || (c.bind.binds[bitsOf r 0 12]?).any (fun b => b.src = 3)
    let outs := [y.flowOut, y.yieldOut, y.tankOut]
    (if outs.all ext && [y.impact, y.elev, y.fill, y.moist, y.cut].all (fun r => r = 0 || !outs.contains r) then none else some (7, whole)).orElse fun _ =>
    (c.optm.map (fun o => if o.feedRef = y.flowOut && o.feedRefDelay ≠ y.dFlow then some (6, whole) else none)).join)).join

/-- Step 9. -/
def Content.xref (c : Content) : Option (Nat × Nat) :=
  c.xref60.orElse fun _ => c.order.findSome? (fun code =>
    match code with
    | 1 => c.xBind
    | 4 => c.xCan
    | 5 => c.xGrin
    | 7 => c.xYild
    | _ => none)

/-! Step 10. -/

/-- The recipes that the channels of a tile run (R188). -/
def Content.tileRecipes (c : Content) (t : Nat) : List Nat :=
  ((c.used.filter (fun x => within 1 4 x.1.outKind)).flatMap (fun x =>
    [(x.1.objA, x.1.rcpA), (x.1.objA2, x.1.rcpA), (x.1.objB, x.1.rcpB), (x.1.objB2, x.1.rcpB)].filterMap (fun p =>
      if p.1 < 96 && p.1 / 16 = t && bitsOf p.2 12 4 = 2 then some (bitsOf p.2 0 12) else none))).eraseDups

/-- A section fits (R188, R428, R180, R487, R330). -/
def Content.fits (c : Content) (code : Nat) : Bool :=
  match code with
  | 2 => (List.range 6).all (fun t =>
      let l := c.tileRecipes t
      l.length ≤ 32 && (l.map (fun i => (((c.recp.getD [])[i]?).map (·.code.length)).getD 0)).sum ≤ 2048)
  | 4 => c.canm.all (fun s => (List.range 16).all (fun n =>
      (s.flts.filter (fun f => f.ch = n)).length ≤ 64 && (s.msgs.filter (fun m => m.sched && m.ch = n)).length ≤ 32))
  | 5 => c.grin.all (fun g => (g.models.map (·.mem)).sum ≤ 3 * 2 ^ 19)
  | 6 => c.optm.all (fun o => o.vars.length ≤ 16 && o.cons.length ≤ 32)
  | 9 => (List.range 256).all (fun n => (c.routes.filter (fun r => r.event = n)).length ≤ 4)
  | _ => true

/-- The first section, in table order, that does not fit. -/
def Content.fitFail (c : Content) : Option Nat := c.order.find? (fun code => !c.fits code)

/-! The verification. -/

/-- What a verification asks of its half and of the backplane: the OEM key of a KEY_ID (registered, not revoked, with usage ROAST), the
bound machine, the floor, whether REBIND is allowed (R73), the firmware's version. -/
structure VerEnv where
  oem : Nat → Option (List Byte)
  boundId : List Byte
  seqFloor : Nat
  rebindOk : Bool
  fw : Nat

/-- MACHINE_ID of an image. -/
def machineId (img : List Byte) : List Byte := slice img 8 16

/-- SEQ of an image. -/
def roastSeq (img : List Byte) : Nat := u32At img 24

/-- Steps 5 to 7. -/
def machineSteps (e : VerEnv) (img : List Byte) : Verdict :=
  if !(e.boundId = [] || e.boundId = machineId img || (bitOf (u16At img 30) 0 && e.rebindOk)) then { res := 6 }
  else if roastSeq img < e.seqFloor then { res := 7 }
  else if e.fw < u32At img 52 then { res := 8 }
  else {}

/-- Steps 8 to 10. -/
def contentSteps (img : List Byte) : Verdict :=
  let c := content img
  match contentFail img c with
  | some (s, i) => ⟨9, s, i⟩
  | none =>
    match c.xref with
    | some (s, i) => ⟨10, s, i⟩
    | none =>
      match c.fitFail with
      | some s => { res := 11, sec := s }
      | none => {}

/-- R71: the first failed step's result. -/
def verify (e : VerEnv) (img : List Byte) : Verdict :=
  if !roastHeadOk img then { res := 1 }
  else if !tableOk img then { res := 2 }
  else match crcFail img with
    | some i => { res := 3, idx := i }
    | none =>
      match e.oem (u32At img 36) with
      | none => { res := 4 }
      | some key =>
        if u32At (signOf img) 4 ≠ u32At img 36 then { res := 4 }
        else if !signatureOk img key then { res := 5 }
        else
          let m := machineSteps e img
          if m.res ≠ 0 then m else contentSteps img

end Sys2Proof.Machine
end

