-- ==== Sys2Proof/Machine/Load.lean ====
section
/-!
DEFINITION. What a half loads from its Roast into the valve tiles (R188, R189).
-/
namespace Sys2Proof.Machine

/-- The content of the Roast a half runs. -/
def World.ownContent (w : World) (h : Half) : Content := content (w.roast.get h).active.image

/-- The RECP indices that a tile holds, ascending: slots 0, 1, …. -/
def Content.tileSlots (c : Content) (t : Nat) : List Nat := sortBy (fun a b => decide (a ≤ b)) (c.tileRecipes t)

/-- A channel of a record: its object, its RECP reference and its twin. -/
def Func.chans (r : Func) : List (Nat × Nat × Nat) :=
  [(r.objA, r.rcpA, r.objA2), (r.objA2, r.rcpA, r.objA), (r.objB, r.rcpB, r.objB2), (r.objB2, r.rcpB, r.objB)]

/-- What the FUNC records name for the channels of a tile. -/
def Content.tileChanRefs (c : Content) (t : Nat) : NMap ChanRef :=
  let slots := c.tileSlots t
  ((c.used.filter (fun x => within 1 4 x.1.outKind)).flatMap (fun x => x.1.chans)).foldl (fun m p =>
    if p.1 < 96 && p.1 / 16 = t then
      NMap.set {} m p.1 ⟨p.2.1, (indexWhere (fun i => i = bitsOf p.2.1 0 12) slots 0).getD 0, if p.2.2 = 0xFFFF then none else some p.2.2⟩
    else m) []

/-- A half with a verified Roast writes the recipes of a tile (R188). -/
def World.tileLoad (w : World) (h : Half) (t : Nat) : World :=
  let c := w.ownContent h
  w.loadTile h t ((c.tileSlots t).map (fun i => (c.recp.getD []).getD i {})) (c.tileChanRefs t)

/-- A half that writes recipe memory: running, past Bloom step 5, not in standby. -/
def World.loads (w : World) (h : Half) : Bool :=
  (w.run.get h).running && 6 ≤ (w.run.get h).bloomStep && !(w.run.get h).standby

/-- The load lock of a tile is free: a half that waits for it compares the tags again (R188). -/
def World.tileRetry (w : World) (t : Nat) : World :=
  w.forAll [Half.A, Half.B] fun w h => w.when (w.loads h) (·.tileLoad h t)

/-- The write of a tile's bank ends within 10 ms: its tag is set, the lock released, a waiting half goes on (R188). -/
def execRecipeLockRelease (t : Nat) (s : State) : Out := lift s fun w =>
  w.when (w.tileSt t).lock.isSome fun w => (w.unlockTile t).tileRetry t

end Sys2Proof.Machine
end

