-- ==== Sys2Proof/Machine/Time.lean ====
section
/-!
DEFINITION. Module time, its references and steps, and the time pulse (R388–R404).
-/
namespace Sys2Proof.Machine

/-- The counter of a half changed. -/
def World.updTim (w : World) (h : Half) (f : TimSt → TimSt) : World := { w with tim := w.tim.upd h f }

/-- The registers of the discipline, mirrored in class M2 (R391). -/
def timMirrored : List Field :=
  [F.TIM_STATUS.STATE, F.TIM_STATUS.HOLDOVER, F.TIM_STATUS.REF_ACT, F.TIM_STATUS.STEP_PEND, F.TIM_OFS.VALUE, F.TIM_FREQ.VALUE
  , F.TIM_CTRL.REF, F.TIM_CTRL.IN_DLY, F.TIM_CNT.STEPS, F.TIM_CNT.SLEWS]

/-- The other half follows the serving half (R43, R391), while the Crossing is UP. -/
def World.timFollow (w : World) (h : Half) : World :=
  if w.rd h F.XNG_STATUS.UP = 0 then w
  else
    let t := w.tim.get h
    let w := w.updTim h.other fun o => { o with offset := t.offset, slew := t.slew, step := t.step, leap := t.leap, holdAt := t.holdAt }
    timMirrored.foldl (fun w f => w.wr h.other f 0 (w.rd h f)) w

/-- The state set; HOLDOVER is entered and left with its event (R394, R395). -/
def World.setTimState (w : World) (h : Half) (st : Nat) : World :=
  let was := w.rd h F.TIM_STATUS.STATE
  let w := (w.wr h F.TIM_STATUS.STATE 0 st).wr h F.TIM_STATUS.HOLDOVER 0 (b2n (st = 2))
  let w := w.when (st = 2 && was ≠ 2) fun w => w.updTim h fun t => { t with holdAt := w.now }
  w.when ((st = 2) != (was = 2)) fun w => w.raiseBoth 33 (evArg 0xFFFF 0xFF (b2n (st = 2)))

/-- The active reference set, with its event (R393). -/
def World.setRef (w : World) (h : Half) (r : Nat) : World :=
  let was := w.rd h F.TIM_STATUS.REF_ACT
  (w.wr h F.TIM_STATUS.REF_ACT 0 r).when (was ≠ r) fun w => w.raiseBoth 35 (evArg 0xFFFF 0xFF r)

/-- The reference that TIM_CTRL.REF and the validities select (R393). -/
def World.refChoice (w : World) (h : Half) : Nat :=
  let g := w.flag h F.TIM_STATUS.GNSS_VALID
  let t := w.flag h F.TIM_STATUS.IN_VALID
  match w.rd h F.TIM_CTRL.REF with
  | 0 => if g then 1 else if t then 2 else 0
  | 1 => if g then 1 else 0
  | 2 => if t then 2 else 0
  | _ => 0

/-- The slew in progress ends where it stands. -/
def World.endSlew (w : World) (h : Half) (all : Bool) : World :=
  w.updTim h fun t => { t with
    offset := t.offset + (match t.slew with | some (_, n) => if all then n else t.part w.now | none => 0), slew := none }

/-- A step decided (R397): it is applied by TIME_STEP at the announced instant. -/
def World.decideStep (w : World) (h : Half) (x : Step_) : World :=
  (w.updTim h fun t => { t with step := some x }).wr h F.TIM_STATUS.STEP_PEND 0 1

/-- An offset measured when a reference becomes valid (R396). Removing an offset of at most 1 µs is left to the discipline loop, whose
course is not stated. -/
def World.takeOffset (w : World) (h : Half) (ofs : Int) : World :=
  let w := (w.endSlew h false).wrI h F.TIM_OFS.VALUE 0 (clampI (-(2 ^ 31)) (2 ^ 31 - 1) ofs)
  let st := w.rd h F.TIM_STATUS.STATE
  if st = 0 || 500000 < ofs.natAbs then w.decideStep h (.by_ ofs)
  else if ofs.natAbs ≤ 1000 then w.setTimState h 1
  else
    let w := (w.updTim h fun t => { t with slew := some (w.now, ofs) }).setTimState h 3
    let w := w.bump h F.TIM_CNT.SLEWS
    let w := w.wrI h F.TIM_FREQ.VALUE 0 (if ofs < 0 then -20000000 else 20000000)
    w.raiseBoth 34 (evArg 0xFFFF 0xFF 1)

/-- A reference becomes valid (R393, R396): 1 GNSS, 2 TIME_IN, with its offset in ns, and GPS minus UTC where the broadcast data gives it
(R389). Only the serving half disciplines (R391). A reference that becomes valid where none has been accepted is measured too. -/
def execReferenceValid (h : Half) (r : Nat) (ofs : Int) (leap : Option Nat) (s : State) : Out := lift s fun w =>
  if !s.own.serves h || r = 0 || 2 < r then w
  else
    let w := w.wr h (if r = 1 then F.TIM_STATUS.GNSS_VALID else F.TIM_STATUS.IN_VALID) 0 1
    let w := w.updTim h fun t => { t with leap := match leap with | some l => some l | none => t.leap }
    let was := w.rd h F.TIM_STATUS.REF_ACT
    let new := w.refChoice h
    let st := w.rd h F.TIM_STATUS.STATE
    let w := w.setRef h new
    let w := w.when (new = r && (st = 0 || st = 2 || st = 3 || was = 0)) fun w => w.takeOffset h ofs
    w.timFollow h

/-- The active reference is lost: another valid one takes its place, else HOLDOVER (R393, R394). -/
def World.refLost (w : World) (h : Half) : World :=
  let new := w.refChoice h
  let had := w.rd h F.TIM_STATUS.REF_ACT ≠ 0
  let w := w.setRef h new
  (w.when (new = 0 && had && w.rd h F.TIM_STATUS.STATE ≠ 0) fun w => (w.endSlew h false).setTimState h 2).timFollow h

/-- A reference is lost (R393). -/
def execReferenceLost (h : Half) (r : Nat) (s : State) : Out := lift s fun w =>
  if !s.own.serves h || r = 0 || 2 < r then w
  else (w.wr h (if r = 1 then F.TIM_STATUS.GNSS_VALID else F.TIM_STATUS.IN_VALID) 0 0).refLost h

/-- The announced instant of a step (R397): both halves load the counter; the Grind and the measurement records of the stepped windows
are lost (R308, R368), and the next pulse moves (R399). -/
def execTimeStep (s : State) : Out := lift s fun w =>
  let h := s.srv
  match (w.tim.get h).step with
  | none => w
  | some x =>
    let t0 := w.mt h
    let d : Int := match x with
      | .by_ o => o
      | .to_ t => (t : Int) - (t0 : Int)
    let one (w : World) (k : Half) : World :=
      let w := ((w.grindStep k (w.mt k)).gnssStep k).endSlew k false
      let w := w.updTim k fun t => { t with offset := t.offset + d, step := none, phase := none }
      (w.wr k F.TIM_STATUS.STEP_PEND 0 0).bump k F.TIM_CNT.STEPS
    let w := one w h
    let w := if w.rd h F.XNG_STATUS.UP = 1 then one w h.other else w
    let free : Bool := match x with
      | .to_ _ => w.rd h F.TIM_CTRL.REF = 3
      | .by_ _ => false
    let w := w.setTimState h (if free then 4 else 1)
    let w := w.raiseBoth 32 (evArg 0xFFFF 0xFF 0)
    { w with keeper := { w.keeper with stepped := true, notBefore := w.now + 500 * ms } }.timFollow h

/-- A slew's residual is at most 1 µs (R394, R396). -/
def execSlewEnd (h : Half) (s : State) : Out := lift s fun w =>
  if s.own.serves h && (w.tim.get h).slew.isSome then
    (((w.endSlew h true).wrI h F.TIM_FREQ.VALUE 0 0).setTimState h 1).raiseBoth 34 (evArg 0xFFFF 0xFF 0) |>.timFollow h
  else w

/-- TIM_CMD.SET (R397): honoured in UNSET, FREE and SERVICE; the counter will be stepped to TIM_SET. -/
def execTimeSet (h : Half) (_init : Nat) (s : State) : Out := lift s fun w =>
  let st := w.rd h F.TIM_STATUS.STATE
  if s.own.serves h && (st = 0 || st = 4 || w.inService h) then
    (w.decideStep h (.to_ (w.rd h F.TIM_SET_LO.T 0 + 2 ^ 32 * w.rd h F.TIM_SET_HI.T 0))).timFollow h
  else w

/-- TIM_CTRL written (R393, R404): REF and IN_DLY take effect in the serving half and reach the sibling; OUT_EN while unlocked, 0 in
SERVICE only. -/
def execTimeRefSelect (h : Half) (_init v : Nat) (s : State) : Out := lift s fun w =>
  let w := w.when (w.flag h F.TIM_LOCK.OPEN && (bitOf v 2 || w.inService h)) fun w => w.wr h F.TIM_CTRL.OUT_EN 0 (bitsOf v 2 1)
  if s.own.serves h then
    let w := (w.wr h F.TIM_CTRL.REF 0 (bitsOf v 0 2)).wr h F.TIM_CTRL.IN_DLY 0 (bitsOf v 16 16)
    w.refLost h
  else w

/-- The distance of two phases of a second. -/
def phaseDist (a b : Nat) : Nat := let d := (a + sec - b % sec) % sec; min d (sec - d)

/-- A TIME_IN edge rejected (R401). -/
def World.rejectEdge (w : World) (h : Half) (t : Nat) : World :=
  let first := (w.tim.get h).rejectAt ≠ t / sec + 1
  let w := (w.bump h F.TIM_CNT.REJECT).updTim h fun x => { x with rejectAt := t / sec + 1 }
  w.when first fun w => w.raise h 36 (evArg 0xFFFF 0xFF 2)

/-- A rising edge of TIME_IN, after IN_DLY (R401). -/
def execTimeInEdge (h : Half) (s : State) : Out := lift s fun w =>
  let t := w.mt h - w.rd h F.TIM_CTRL.IN_DLY
  let x := w.tim.get h
  let put (w : World) : World := (w.wr h F.TIM_IN_LO.T 0 (t % 2 ^ 32)).wr h F.TIM_IN_HI.T 0 (t / 2 ^ 32)
  if w.flag h F.TIM_STATUS.IN_VALID then
    let ph := x.phase.getD (t % sec)
    if phaseDist (t % sec) ph ≤ 10000 then
      let ph' := if w.rd h F.TIM_STATUS.STATE = 1 || x.phase = some 0 then 0 else ph
      (put w).updTim h fun x => { x with phase := some ph', edges := [t] }
    else w.rejectEdge h t
  else
    let near (a b : Nat) : Bool := a + sec ≤ b + 10000 && b ≤ a + sec + 10000
    let es := match x.edges with
      | l :: _ => if near l t then (t :: x.edges).take 3 else [t]
      | [] => [t]
    if 3 ≤ es.length then
      ((w.updTim h fun x => { x with edges := [t], phase := none }).wr h F.TIM_STATUS.IN_VALID 0 1).raise h 36 (evArg 0xFFFF 0xFF 1)
    else w.updTim h fun x => { x with edges := es }

/-- 2 s without an accepted TIME_IN edge (R401). -/
def execTimeInLost (h : Half) (s : State) : Out := lift s fun w =>
  if w.flag h F.TIM_STATUS.IN_VALID then
    let w := ((w.wr h F.TIM_STATUS.IN_VALID 0 0).updTim h fun x => { x with edges := [], phase := none }).raise h 36 (evArg 0xFFFF 0xFF 0)
    w.when (s.own.serves h) fun w => w.refLost h
  else w

/-- A rising edge of TIME_OUT (R398, R399): produced by the keeper once a half with OUT_EN set has served; while none serves it coasts. -/
def execTimePulse (s : State) : Out := lift s fun w =>
  let k := w.keeper
  let h := s.srv
  let served := s.own.server.isSome
  let on := w.latch.logicValid && (k.on || (served && w.flag h F.TIM_CTRL.OUT_EN)) && !(served && !w.flag h F.TIM_CTRL.OUT_EN)
  if !on || (k.on && (w.now < k.lastAt + 500 * ms || w.now < k.notBefore)) then w
  else
    let w := w.when (served && k.coast) fun w => w.raiseBoth 37 (evArg 0xFFFF 0xFF 0)
    let one (w : World) (h : Half) : World :=
      let t := w.mt h
      ((w.wr h F.TIM_PPS_LO.T 0 (t % 2 ^ 32)).wr h F.TIM_PPS_HI.T 0 (t / 2 ^ 32)).wr h F.TIM_STATUS.KEEPER_COAST 0 (b2n (!served))
    let w := one (one w .A) .B
    { w with keeper := { k with on := true, lastAt := w.now, coast := !served, served := served
                                stepped := k.stepped && k.notBefore = 0, notBefore := 0 } }

/-- The reported error bound, ns (R394, R395). -/
def World.timErr (w : World) (h : Half) : Nat :=
  let t := w.tim.get h
  match w.rd h F.TIM_STATUS.STATE with
  | 1 => 100
  | 2 => satTo 32 (100 + (w.now - t.holdAt) / sec * 100)
  | 3 => match t.slew with
    | some (_, n) => satTo 32 ((n - t.part w.now).natAbs + 100)
    | none => 100
  | _ => 0xFFFFFFFF

/-- The time-quality message of the last pulse (R400). -/
def World.qualityMessage (w : World) (h : Half) : List Byte :=
  let t := w.tim.get h
  let st := w.rd h F.TIM_STATUS.STATE
  let b := bytesOf [0x54, 0x51, 1, st] ++ leBytes (w.rd h F.TIM_PPS_LO.T 0 + 2 ^ 32 * w.rd h F.TIM_PPS_HI.T 0) 8 ++ leBytes (w.timErr h) 4 ++
    leBytes (if st = 2 then (w.now - t.holdAt) / sec else 0) 4 ++ leBytes (w.rd h F.TIM_STATUS.REF_ACT) 1 ++
    leBytes (b2n (st = 2) + 2 * b2n (st = 3) + 4 * b2n w.keeper.stepped + 8 * b2n t.leap.isSome) 1 ++ leBytes (t.leap.getD 0) 1 ++
    leBytes h.code 1 ++ leBytes t.msgs 4
  b ++ leBytes (crc32c b) 4

/-- Within 200 ms of a pulse that fell while a half served, the serving half sends its message (R400). -/
def execTimeQualityMessage (h : Half) (s : State) : Out := lift s fun w =>
  if s.own.serves h && w.keeper.on && w.keeper.served then
    let m := w.qualityMessage h
    let w := w.updTim h fun t => { t with msg := m, msgs := (t.msgs + 1) % 2 ^ 32 }
    { w with keeper := { w.keeper with stepped := w.keeper.stepped && w.keeper.notBefore ≠ 0 } }
  else w

/-- GNS_AID_TIME written (R360, R390): stamped in module time; in UNSET it also steps the counter, as a returning reference. -/
def execTimeAid (h : Half) (_init v : Nat) (s : State) : Out := lift s fun w =>
  let w := (w.wr h F.GNS_AID_TIME.GPS_S 0 v).updGnss h fun g => { g with aid := some (v, w.mt h) }
  if w.rd h F.TIM_STATUS.STATE = 0 && (w.tim.get h).step.isNone && s.own.serves h then
    (w.takeOffset h ((v : Int) * 1000000000 - (w.mt h : Int))).timFollow h
  else w

/-- Bloom step 3 (R390): the first half to reach it loads the time stored at the last shutdown; a half whose sibling runs takes the
sibling's time. -/
def World.timBloom (w : World) (h : Half) : World :=
  if (w.run.get h.other).running && 3 ≤ (w.run.get h.other).bloomStep then
    let t := w.tim.get h.other
    let w := w.updTim h fun x => { x with offset := t.offset, slew := t.slew, step := t.step, leap := t.leap, holdAt := t.holdAt }
    timMirrored.foldl (fun w f => w.wr h f 0 (w.rd h.other f)) w
  else
    (w.updTim h fun t => { t with offset := (t.stored : Int) - (w.now : Int), slew := none, step := none }).setTimState h 0

/-- Module time stored at shutdown (R390). -/
def World.storeTime (w : World) (h : Half) : World := w.updTim h fun t => { t with stored := w.mt h }

end Sys2Proof.Machine
end

