-- ==== Sys2Proof/Machine/Track.lean ====
section
/-!
DEFINITION. The track store and the stop requests (R335–R349).
-/
namespace Sys2Proof.Machine

/-- The track store of a half changed. -/
def World.updTrk (w : World) (h : Half) (f : Tracks → Tracks) : World := { w with trk := w.trk.upd h f }

/-- The margin of a class, cm (R338). -/
def marginOf : Nat → Nat
  | 0 => 100
  | 1 => 200
  | 2 => 150
  | 3 => 100
  | 4 => 50
  | 6 => 50
  | _ => 0

/-- The stop kind of a class: 0 DRIVE, 1 HEADER. -/
def kindOf (c : Nat) : Nat := if c = 5 || c = 7 then 1 else 0

/-- The confirmation of a class: hits, in cycles (R339). -/
def confirmOf (c : Nat) : Nat × Nat := if c = 1 || c = 2 then (2, 3) else (3, 5)

/-! The filter (R338): constant velocity in each axis. -/

/-- An axis carried over `dt` seconds, forwards or back, with the process noise of the interval. -/
def Axis.predict (a : Axis) (dt : Rat) : Axis :=
  let q := Config.trackNoise * absR dt
  { p := a.p + a.v * dt, v := a.v
    pp := a.pp + 2 * dt * a.pv + dt * dt * a.vv + q * dt * dt / 3
    pv := a.pv + dt * a.vv + q * dt / 2, vv := a.vv + q }

/-- An axis updated with a measurement of variance `r`. -/
def Axis.update (a : Axis) (z r : Rat) : Axis :=
  let s := a.pp + r
  if s = 0 then { a with p := z }
  else
    let k := a.pp / s
    let l := a.pv / s
    { p := a.p + k * (z - a.p), v := a.v + l * (z - a.p)
      pp := (1 - k) * a.pp, pv := (1 - k) * a.pv, vv := a.vv - l * a.pv }

/-- Seconds from one instant to another, ns. -/
def dtOf (t0 t1 : Nat) : Rat := (((t1 : Int) - (t0 : Int) : Int) : Rat) / 1000000000

/-- A track's axes at the instant `t`. -/
def Track.at_ (x : Track) (t : Nat) : Axis × Axis := (x.x.predict (dtOf x.tUpd t), x.y.predict (dtOf x.tUpd t))

/-- A detection's variance along an axis. -/
def variance (s : Nat) : Rat := (s : Rat) * (s : Rat)

/-- The square of the Mahalanobis distance of a detection from a track's prediction at its stamp (R338). -/
def Track.dist2 (x : Track) (t : Nat) (d : Det) : Rat :=
  let (ax, ay) := x.at_ t
  let q (a : Axis) (z r : Rat) : Rat := if a.pp + r = 0 then (if a.p = z then 0 else 100) else (z - a.p) * (z - a.p) / (a.pp + r)
  q ax d.x (variance d.sx) + q ay d.y (variance d.sy)

/-- The square of the gate: 3.035. -/
def gate2 : Rat := 3035 * 3035 / 1000000

/-- The most frequent class of a history; a tie goes to the class with the larger margin (R338). -/
def classOf (hist : List Nat) : Nat :=
  let n (c : Nat) : Nat := hist.count c
  (List.range 8).foldl (fun a c => if n a < n c || (n a = n c && marginOf a < marginOf c) then c else a) (hist.headD 0)

/-- A track with a detection of the cycle `cyc` taken up: size, class and counts (R338, R339). -/
def Track.takeDet (x : Track) (d : Det) (cyc : Nat) : Track :=
  let hist := (min d.cls 7 :: x.hist).take 8
  { x with hist := hist, cls := classOf hist, hits := satInc 8 x.hits, misses := 0, len := d.len, wid := d.wid, hgt := d.hgt
           sense := x.sense ||| (d.src % 8), hitCyc := (cyc :: x.hitCyc).dedup.take 5 }

/-- An ordinary update at stamp `t` ≥ T_UPD. -/
def Track.hit (x : Track) (t : Nat) (d : Det) (cyc : Nat) : Track :=
  let (ax, ay) := x.at_ t
  { (x.takeDet d cyc) with x := ax.update d.x (variance d.sx), y := ay.update d.y (variance d.sy), tUpd := t, oos := false }

/-- A retrodicted update (R343): back to the stamp, the detection applied, forward to T_UPD, which stays. -/
def Track.hitLate (x : Track) (t : Nat) (d : Det) (cyc : Nat) : Track :=
  let (ax, ay) := x.at_ t
  let fwd (a : Axis) : Axis := a.predict (dtOf t x.tUpd)
  { (x.takeDet d cyc) with x := fwd (ax.update d.x (variance d.sx)), y := fwd (ay.update d.y (variance d.sy)), oos := true }

/-- The cycles of a track's hits meet its class's confirmation at cycle `cyc` (R339): M hits in the last N Grind cycles (`step`: 1 at
25 Hz, 2 at 12.5 Hz). -/
def Track.confirms (x : Track) (cyc step : Nat) : Bool :=
  let (m, n) := confirmOf x.cls
  m ≤ (x.hitCyc.filter (fun c => cyc < c + n * step)).length

/-! The path (R324, R336). -/

/-- The curvature of the predicted path, 1/m: the commanded one while steering is engaged, else yaw rate over speed. -/
def World.pathCurv (w : World) (h : Half) : Rat :=
  if w.flag h F.SET_STEER_STATUS.ENGAGED then (w.rdI h F.SET_STEER_CURV.VALUE : Rat) / 1000000
  else match w.pose.get h with
    | some p => if p.speed = 0 then 0 else ((p.yaw : Rat) / 1000 * piR / 180) / ((p.speed : Rat) / 1000)
    | none => 0

/-- A point of the vehicle frame, m, as distance along the path from the cutter-bar centre and offset to its left (R336). -/
def pathCoords (k dx dy : Rat) : Rat × Rat :=
  if k = 0 then (dx, dy)
  else
    let r := 1 / absR k
    let y := if k < 0 then -dy else dy
    let rho := Config.sqrtR (dx * dx + (y - r) * (y - r))
    let d := r - rho
    (r * Config.atan2R dx (r - y), if k < 0 then -d else d)

/-- A point of the odometry frame, mm, in the vehicle frame, m. -/
def toVehicle (veh : Int × Int × Int) (x y : Rat) : Rat × Rat :=
  let (x0, y0, a) := veh
  let dx := (x - (x0 : Rat)) / 1000
  let dy := (y - (y0 : Rat)) / 1000
  let c := Config.cosR ((a : Rat) / 1000)
  let s := Config.sinR ((a : Rat) / 1000)
  (c * dx + s * dy, c * dy - s * dx)

/-- A track's path quantities (R336, R344): ALONG and D_PATH in cm, TTC in 10 ms. -/
def World.pathOf (w : World) (h : Half) (veh : Int × Int × Int) (x : Track) : Track :=
  let g := w.grin h
  let (vx, vy) := toVehicle veh x.x.p x.y.p
  let k := w.pathCurv h
  let (al, d) := pathCoords k (vx - g.cbX) (vy - g.cbY)
  let dir := ((veh.2.2 : Int) : Rat) / 1000 + k * al
  let v := (x.x.v * Config.cosR dir + x.y.v * Config.sinR dir) / 1000
  let close := w.groundSpeed h - v
  { x with along := clampI (-32768) 32767 (roundR (al * 100)), dPath := clampI (-32768) 32767 (roundR (d * 100))
           ttc := if close < 1 / 10 then 0xFFFF else min 0xFFFE (floorN (al / close * 100)) }

/-- A track's predicted position lies inside the Grind in a covered sector (R340). -/
def World.inView (w : World) (h : Half) (veh : Int × Int × Int) (x : Track) (t : Nat) : Bool :=
  let (ax, ay) := x.at_ t
  let (vx, vy) := toVehicle veh ax.p ay.p
  let x0 := (w.grin h).x0
  x0 ≤ vx && vx < x0 + 96 && -24 ≤ vy && vy < 24 &&
    (bitOf (w.cover h) (Config.sectorOf vx vy) || !(w.availRole h 3).isEmpty)

/-! The store (R335–R341). -/

/-- The slots in use, in order. -/
def Tracks.used (t : Tracks) : List Nat := t.slot.map (·.1)

/-- A track of a store. -/
def Tracks.track (t : Tracks) (s : Nat) : Track := NMap.get {} t.slot s

/-- A track of a store replaced. -/
def Tracks.put (t : Tracks) (s : Nat) (x : Track) : Tracks := { t with slot := NMap.set {} t.slot s x }

/-- The IDs of a split store rise from 0x8001, those of the serving store from 0x0001 (R336, R348). -/
def nextId (split : Bool) (n : Nat) : Nat :=
  if split then (if n < 0x8001 || 0xFFFF ≤ n then 0x8001 else n + 1) else (if 0x7FFF ≤ n then 1 else n + 1)

/-- The next ID no track of the store carries. -/
def Tracks.freeId (t : Tracks) (split : Bool) : Nat → Nat → Nat
  | 0, n => n
  | k + 1, n => if t.slot.any (fun x => x.2.id = n) then t.freeId split k (nextId split n) else n

/-- The slot a birth takes (R339, R341): the lowest empty one, else that of the TENTATIVE track with the largest ALONG. -/
def Tracks.birthSlot (t : Tracks) : Option Nat :=
  match (List.range 512).find? (fun s => !(t.slot.any (fun x => x.1 = s))) with
  | some s => some s
  | none => ((t.slot.filter (fun x => x.2.state = 1)).foldl
      (fun (a : Option (Nat × Track)) x => match a with
        | some y => if y.2.along < x.2.along then some x else a
        | none => some x) none).map (·.1)

/-- A birth (R339), or its refusal counted (R341). -/
def World.birth (w : World) (h : Half) (t : Nat) (d : Det) (cyc : Nat) (veh : Int × Int × Int) : World :=
  if d.score < 50 then w
  else
    let ts := w.trk.get h
    match ts.birthSlot with
    | some s =>
      let id := ts.freeId (w.flag h F.TRK_STATUS.SPLIT) 600 ts.next
      let ax (z : Int) (sd : Nat) : Axis := { p := z, v := 0, pp := variance sd, pv := 0, vv := Config.birthVar }
      let x : Track := { id := id, state := 1, tUpd := t, tBirth := t, x := ax d.x d.sx, y := ax d.y d.sy }
      let x := w.pathOf h veh (x.takeDet d cyc)
      w.updTrk h fun ts => { (ts.put s x) with next := nextId (w.flag h F.TRK_STATUS.SPLIT) id }
    | none =>
      let first := !w.flag h F.TRK_STATUS.FULL
      let w := (w.bump h F.TRK_CNT.FULL).wr h F.TRK_STATUS.FULL 0 1
      w.when first fun w => w.raise h 237 (evArg 0 0xFF 0)

/-- The pairs of a detection (by index) and a slot within the gate, nearest first; equal distances go to the lower ID (R338). -/
def Tracks.pairs (ts : Tracks) (t : Nat) (dets : List Det) : List (Nat × Nat) :=
  let all := dets.zipIdx.flatMap fun d => (ts.slot.filter (fun x => x.2.tBirth ≤ t)).filterMap fun x =>
    let q := x.2.dist2 t d.1
    if q ≤ gate2 then some (q, x.2.id, d.2, x.1) else none
  (sortBy (fun a b => decide (a.1 < b.1 ∨ (a.1 = b.1 ∧ a.2.1 ≤ b.2.1))) all).map (fun x => (x.2.2.1, x.2.2.2))

/-- Global nearest neighbour: the pairs taken, each detection and each track once. -/
def takePairs (l : List (Nat × Nat)) : List (Nat × Nat) :=
  l.foldl (fun acc x => if acc.any (fun y => y.1 = x.1 || y.2 = x.2) then acc else acc ++ [x]) []

/-- A confirmation, if the track's hits meet it (R339, R340). -/
def World.confirm (w : World) (h : Half) (s cyc : Nat) : World :=
  let x := (w.trk.get h).track s
  let step := if w.rd h F.GRD_STATUS.RATE = 1 then 2 else 1
  if x.state = 1 && x.confirms cyc step then
    (w.updTrk h fun t => t.put s { x with state := 2 }).raise h 234 (evArg x.id 0xFF 0)
  else if x.state = 3 then w.updTrk h fun t => t.put s { x with state := 2 }
  else w

/-- A track deleted; where it contributed STOP and did not pass the cutter bar, its contribution is kept for 2 s (R346). -/
def World.deleteTrack (w : World) (h : Half) (s : Nat) (passed : Bool) : World :=
  let x := (w.trk.get h).track s
  let w := w.updTrk h fun t => { t with slot := NMap.del t.slot s }
  if x.stop = 2 && !passed then
    ((w.updTrk h fun t => { t with held := t.held ++ [⟨x.kind, x.cls, w.mt h + 2 * sec⟩] }).wr h F.TRK_STOP.HOLD 0 1).raise
      h 236 (evArg x.id 0xFF 0)
  else w

/-- A track's miss and its deletion in a cycle at `t` (R340). -/
def World.missStep (w : World) (h : Half) (t : Nat) (veh : Int × Int × Int) (hit : Bool) (s : Nat) : World :=
  let x := (w.trk.get h).track s
  let seen := !hit && w.inView h veh x t
  let x := if seen then { x with misses := satInc 8 x.misses, state := if x.state = 2 then 3 else x.state } else x
  let x := w.pathOf h veh x
  let (ax, ay) := x.at_ t
  let w := w.updTrk h fun ts => ts.put s x
  let passed : Bool := x.along < -500
  let wide : Bool := 4000000 < ax.pp || 4000000 < ay.pp
  if (x.state = 1 && 2 ≤ x.misses) || x.tUpd + sec ≤ t || wide || passed then w.deleteTrack h s passed else w

/-- The level a track contributes (R344). -/
def World.levelOf (w : World) (h : Half) (x : Track) : Nat :=
  let lim : Rat := (w.grin h).headerW * 50 + (((marginOf x.cls : Nat)) : Rat) + (((x.wid : Nat)) : Rat) / 2
  if (x.state = 2 || x.state = 3) && !x.ignored && 0 ≤ x.along && absR ((x.dPath : Int) : Rat) ≤ lim then
    if x.ttc ≤ 10 * w.rd h F.TRK_STOP_CFG.T_STOP || x.along ≤ 10 * w.rd h F.TRK_STOP_CFG.D_STOP then 2
    else if x.ttc ≤ 10 * w.rd h F.TRK_STOP_CFG.T_SLOW then 1
    else 0
  else 0

/-- The kind a track's contribution has (R344). -/
def Track.stopKind (x : Track) : Nat := if x.hgt < 30 then 1 else kindOf x.cls

/-- A kind's level and mask set in TRK_STOP, with the event of a change (R345). -/
def World.setStop (w : World) (h : Half) (k lvl mask : Nat) : World :=
  let (fl, fm) := if k = 0 then (F.TRK_STOP.DRIVE, F.TRK_STOP.CLASS_D) else (F.TRK_STOP.HEADER, F.TRK_STOP.CLASS_H)
  let was := w.rd h fl
  let w := (w.wr h fl 0 lvl).wr h fm 0 mask
  w.when (was ≠ lvl) fun w => w.raise h 235 (evArg 0 k lvl)

/-- What is contributed to a kind now (R345, R346): each contribution's level and class. -/
def Tracks.contribs (t : Tracks) (k : Nat) : List (Nat × Nat) :=
  ((t.slot.filter (fun x => x.2.stop ≠ 0 && x.2.kind = k)).map (fun x => (x.2.stop, x.2.cls))) ++
    ((t.held.filter (fun x => x.kind = k)).map (fun x => (2, x.cls)))

/-- The module's stop request of a kind (R345): a level rises at once and stays until 1 s has passed without a contribution at it or
above. -/
def World.stopOf (w : World) (h : Half) (k : Nat) : World :=
  let t := w.trk.get h
  let cs := t.contribs k
  let now := w.mt h
  let lvl := cs.foldl (fun a c => max a c.1) 0
  let lc (l : Nat) : Option Nat := if l ≤ lvl then some now else t.lastC.getD (2 * k + l - 1) none
  let recent (l : Nat) : Bool := match lc l with
    | some x => now < x + sec
    | none => false
  let new := if recent 2 then 2 else if recent 1 then 1 else 0
  let mask := cs.foldl (fun a c => a ||| 2 ^ c.2) 0
  let old := w.rd h (if k = 0 then F.TRK_STOP.CLASS_D else F.TRK_STOP.CLASS_H)
  let w := w.updTrk h fun t => { t with lastC := listSet (listSet t.lastC (2 * k) (lc 1)) (2 * k + 1) (lc 2) }
  w.setStop h k new (if cs.isEmpty && new ≠ 0 then old else mask)

/-- The record of a slot (R336). -/
def Track.record (x : Track) : List Byte :=
  let conf := if x.hist.isEmpty then 0 else 100 * x.hist.count x.cls / x.hist.length
  let sd (a : Axis) : Nat := satTo 16 (roundN (Config.sqrtR a.pp))
  let i (n : Nat) (v : Rat) : List Byte := leBytes (toTwos (8 * n) (clampI (-(2 ^ (8 * n - 1))) (2 ^ (8 * n - 1) - 1) (roundR v))) n
  let b := leBytes x.id 2 ++ leBytes (x.state + (if x.ignored then 8 else 0) + (if x.oos then 16 else 0)) 1 ++ leBytes x.cls 1 ++
    leBytes conf 1 ++ leBytes x.hits 1 ++ leBytes x.misses 1 ++ leBytes (x.stop + 4 * x.kind) 1 ++ leBytes x.tUpd 8 ++
    i 4 x.x.p ++ i 4 x.y.p ++ i 2 x.x.v ++ i 2 x.y.v ++ leBytes (sd x.x) 2 ++ leBytes (sd x.y) 2 ++ leBytes x.len 2 ++
    leBytes x.wid 2 ++ leBytes x.hgt 2 ++ leBytes x.ttc 2 ++ leBytes (toTwos 16 x.dPath) 2 ++ leBytes (toTwos 16 x.along) 2 ++
    leBytes x.tBirth 8 ++ leBytes x.sense 1 ++ List.replicate 7 0
  b ++ leBytes (crc32c b) 4

/-- The store published in the other of its two buffers (R335, R337); an empty slot's record is 0. -/
def World.publishStore (w : World) (h : Half) : World :=
  let t := w.trk.get h
  let b := (t.buf + 1) % 2
  let m := clearRange (w.dram.get h) (region 5 (32768 * b)) 32768
  let m := t.slot.foldl (fun m x => m.writeN (region 5 (32768 * b + 64 * x.1)) x.2.record) m
  let n := (t.slot.filter (fun x => x.2.state = 2 || x.2.state = 3)).length
  let w := { w with dram := w.dram.set h m }.updTrk h fun t => { t with buf := b }
  ((w.wr h F.TRK_BUF.VALUE 0 (32768 * b)).wr h F.TRK_STATUS.IN_USE 0 t.slot.length).wr h F.TRK_STATUS.CONFIRMED 0 n

/-- The registers of the stop requests and of the store that the sibling's copy shows. -/
def trkMirrored : List Field :=
  [F.TRK_STATUS.FULL, F.TRK_STATUS.CONFIRMED, F.TRK_STATUS.IN_USE, F.TRK_STOP.CLASS_D, F.TRK_STOP.CLASS_H, F.TRK_STOP.HOLD
  , F.TRK_STOP.HEADER, F.TRK_STOP.DRIVE, F.TRK_CYCLE.VALUE, F.TRK_STOP_CFG.D_STOP, F.TRK_STOP_CFG.T_SLOW, F.TRK_STOP_CFG.T_STOP]

/-- The sibling's copy (R335, mirror class M2), while the Crossing is UP and it holds no store of its own. -/
def World.mirrorTrk (w : World) (h : Half) : World :=
  if w.rd h F.XNG_STATUS.UP = 0 || w.flag h F.TRK_STATUS.SPLIT || w.flag h.other F.TRK_STATUS.SPLIT then w
  else
    let t := w.trk.get h
    let w := w.updTrk h.other fun o => { t with buf := o.buf, latch := o.latch }
    (trkMirrored.foldl (fun w f => w.wr h.other f 0 (w.rd h f)) w).publishStore h.other

/-- Half `h` runs the track unit: it serves, or holds a split store (R335, R348); EN = 0 is honoured only in SERVICE. -/
def World.trkRuns (w : World) (own : Own) (h : Half) : Bool :=
  (own.serves h || w.flag h F.TRK_STATUS.SPLIT) && !(w.inService h && w.rd h F.TRK_CTRL.EN = 0)

/-- The levels the tracks contribute now. -/
def World.setLevels (w : World) (h : Half) : World :=
  w.updTrk h fun t => { t with slot := t.slot.map fun x => (x.1, { x.2 with stop := w.levelOf h x.2, kind := x.2.stopKind }) }

/-- The detections of one stamp associated, applied and born (R338, R339); late ones out of sequence (R343). -/
def World.applyDets (w : World) (h : Half) (t cyc : Nat) (veh : Int × Int × Int) (late : Bool) (dets : List Det) : World × List Nat :=
  let ts := w.trk.get h
  let ps := takePairs (ts.pairs t dets)
  let w := w.forAll ps fun w p =>
    let d := dets.getD p.1 ⟨0, 0, 0, 0, 0, 0, 0, 0, 0, 0⟩
    let x := (w.trk.get h).track p.2
    let x' := if late && t < x.tUpd then x.hitLate t d cyc else x.hit t d cyc
    (w.updTrk h fun ts => ts.put p.2 x').confirm h p.2 cyc
  let new := dets.zipIdx.filter (fun d => ps.all (fun p => p.1 ≠ d.2))
  (w.forAll (new.map (·.2)) (fun w i => w.birth h t (dets.getD i ⟨0, 0, 0, 0, 0, 0, 0, 0, 0, 0⟩) cyc veh), ps.map (·.2))

/-- A track cycle, after a Grind's publication (R337): association, filtering, misses and deletions, births, the stop requests, and the
publication of the store. `veh`: the vehicle's pose in the odometry frame at t_g; `dets`: the Grind's detections. -/
def execTrackCycle (h : Half) (veh : Int × Int × Int) (dets : List Det) (s : State) : Out := lift s fun w =>
  if !w.trkRuns s.own h then w
  else
    let tg := (w.grd.get h).pubTg
    let cyc := w.rd h F.GRD_CYCLE.CYCLE
    let w := (w.wr h F.TRK_STATUS.FULL 0 0).updTrk h fun t => { t with veh := veh }
    let old := (w.trk.get h).used
    let found := w.applyDets h tg cyc veh false dets
    let w := found.1
    let hit := found.2
    let w := w.forAll old fun w k => if (w.trk.get h).used.contains k then w.missStep h tg veh (hit.contains k) k else w
    let w := w.setLevels h
    (((w.stopOf h 0).stopOf h 1).wr h F.TRK_CYCLE.VALUE 0 cyc).publishStore h |>.mirrorTrk h

/-- Detections of the late path (R342, R343), stamped `stamp`: used if at most 200 ms old, else discarded and counted. -/
def execLateDetection (h : Half) (stamp : Nat) (dets : List Det) (s : State) : Out := lift s fun w =>
  if !w.trkRuns s.own h then w
  else
    let w := w.updGrind h fun g => { g with late := g.late.filter (fun t => t ≠ stamp) }
    if stamp + 200 * ms < w.mt h then w.forAll (List.range dets.length) fun w _ => w.bump h F.TRK_CNT.OOS_OLD
    else
      let cyc := windowOf (w.period h) stamp / (40 * ms)
      let dets := dets.map (fun d => { d with src := d.src ||| 4 })
      let w := (w.applyDets h stamp cyc (w.trk.get h).veh true dets).1
      w.forAll (List.range dets.length) fun w _ => w.bump h F.TRK_CNT.OOS_USED

/-- A stop level has had no contribution for 1 s (R345). -/
def execStopLevelFall (h : Half) (k : Nat) (s : State) : Out := lift s fun w =>
  w.when (k < 2) fun w => (w.stopOf h k)

/-- The 2 s of a kept contribution have passed (R346). -/
def execStopHoldExpiry (h : Half) (s : State) : Out := lift s fun w =>
  let left := (w.trk.get h).held.filter (fun x => decide (w.mt h < x.until_))
  let w := w.updTrk h fun t => { t with held := left }
  w.when left.isEmpty fun w => w.wr h F.TRK_STOP.HOLD 0 0

/-- TRK_CMD written with IGNORE (R349): takes effect in the half whose unit runs; refused for classes 0–2. -/
def execTrackIgnore (h : Half) (_init v : Nat) (s : State) : Out := lift s fun w =>
  if !w.trkRuns s.own h || !bitOf v 16 then w
  else
    let id := bitsOf v 0 16
    match (w.trk.get h).slot.find? (fun x => x.2.id = id && id ≠ 0) with
    | none => w
    | some (k, x) =>
      let no : Bool := x.cls ≤ 2
      let w := w.wr h F.TRK_STATUS.IGN_REFUSED 0 (b2n no)
      let w := w.when (!no) fun w => w.updTrk h fun t => t.put k { x with ignored := true }
      (w.raise h 239 (evArg id 0xFF (b2n no))).mirrorTrk h

/-- TRK_CTRL.CLR_CNT. -/
def execTrkClrCnt (h : Half) (_init : Nat) (s : State) : Out := lift s fun w =>
  ((w.wr h F.TRK_CNT.FULL 0 0).wr h F.TRK_CNT.OOS_OLD 0 0).wr h F.TRK_CNT.OOS_USED 0 0

/-- After a takeover each stop level of the copy is held for at least 1 s (R348). -/
def World.trkTakeover (w : World) (h : Half) : World :=
  let now := w.mt h
  let keep (k l : Nat) (o : Option Nat) : Option Nat :=
    if l ≤ w.rd h (if k = 0 then F.TRK_STOP.DRIVE else F.TRK_STOP.HEADER) then some now else o
  w.updTrk h fun t => { t with lastC := [keep 0 1 (t.lastC.getD 0 none), keep 0 2 (t.lastC.getD 1 none)
                                        , keep 1 1 (t.lastC.getD 2 none), keep 1 2 (t.lastC.getD 3 none)] }

/-- Under R41 the non-serving half starts its own store from its copy (R348). -/
def World.trkSplit (w : World) (h : Half) : World :=
  if w.flag h F.TRK_STATUS.SPLIT then w
  else ((w.updTrk h fun t => { t with next := 0x8001 }).wr h F.TRK_STATUS.SPLIT 0 1).raise h 238 (evArg 0 0xFF 1)

/-- The Crossing is restored: the split store is discarded and the serving store resent in full (R348, R42). -/
def World.trkJoin (w : World) (h : Half) : World :=
  if w.flag h F.TRK_STATUS.SPLIT then
    ((w.wr h F.TRK_STATUS.SPLIT 0 0).raise h 238 (evArg 0 0xFF 0)).mirrorTrk h.other
  else w

/-- The condition of an interlock of TYPE 6 (R347), from the store the half holds. -/
def World.stopCond (w : World) (h : Half) (ref : Nat) (thr : Rat) : Bool :=
  let cls := ref % 256
  let on (lvl mask : Nat) : Bool := thr ≤ ((lvl : Nat) : Rat) && mask &&& cls ≠ 0
  (bitOf ref 8 && on (w.rd h F.TRK_STOP.DRIVE) (w.rd h F.TRK_STOP.CLASS_D)) ||
    (bitOf ref 9 && on (w.rd h F.TRK_STOP.HEADER) (w.rd h F.TRK_STOP.CLASS_H)) ||
    (bitOf ref 10 && w.flag h F.TRK_STOP.BLIND)

end Sys2Proof.Machine
end

