-- ==== Sys2Proof/Machine/Own.lean ====
section
/-!
DEFINITION. The ownership arbiter (R22–R33): tokens, SERVER, alive lines and takeover; the heartbeat permit (R26, R94, R458).
-/
namespace Sys2Proof.Machine

/-- The state with its world changed. -/
def State.onW (s : State) (f : World → World) : State := { s with w := f s.w }

/-- The state with its arbiter changed. -/
def State.onOwn (s : State) (f : Own → Own) : State := { s with own := f s.own }

/-- A change repeated for a list. -/
def State.forAll {α : Type} (s : State) (l : List α) (f : State → α → State) : State := l.foldl f s

/-- `f` if the condition holds. -/
def State.when (s : State) (c : Bool) (f : State → State) : State := if c then f s else s

/-! Tokens. -/

/-- OWN_RESULT of a half (R49). -/
def World.ownResult (w : World) (h : Half) (obj res : Nat) (busy : Bool) : World :=
  ((w.wr h F.OWN_RESULT.OBJ 0 obj).wr h F.OWN_RESULT.RES 0 res).wr h F.OWN_RESULT.BUSY 0 (b2n busy)

/-- The tokens that are CLAIMING toward a half. -/
def Own.toward (o : Own) (h : Half) : List Nat :=
  objsWhere (fun k => match (o.token k).st with
    | .claiming d _ => d = h
    | _ => false) 0 nObj

/-- The tokens that a half is handing over. -/
def Own.given (o : Own) (h : Half) : List Nat :=
  objsWhere (fun k => match (o.token k).st with
    | .claiming _ g => g = some h
    | _ => false) 0 nObj

/-- A token leaves its owner: a copy for the panel loses it (R550). -/
def State.leaves (s : State) (k : Nat) : State := s.when (k = objPnl) (·.onW World.copyLost)

/-- A token enters ORPHAN (R27): its timer starts, `last` counts as its owner (R28, R64); EVT_OWN_ORPHAN. -/
def State.orphan (s : State) (k : Nat) (last : Half) : State :=
  ((s.onOwn fun o => o.toOrphan k s.w.now last).leaves k).onW fun w => w.raiseBoth 54 (evArg k 0xFF 0)

/-- A token enters CLAIMING. -/
def State.claiming (s : State) (k : Nat) (dst : Half) (giver : Option Half) : State :=
  s.onOwn fun o => o.setToken k { o.token k with st := .claiming dst giver, at_ := s.w.now }

/-- A token reaches the half it is passing to. -/
def State.owned (s : State) (k : Nat) (h : Half) : State :=
  s.onOwn fun o => o.setToken k { o.token k with st := .owned h, last := some h }

/-- A half loses a simultaneous claim (R31). -/
def World.claimLost (w : World) (h : Half) (k : Nat) : World := (w.ownResult h k 3 false).raise h 56 (evArg k 0xFF 0)

/-- The half that wins a simultaneous claim (R31): the one that serves, else Half A. -/
def Own.winner (o : Own) : Half := o.server.getD .A

/-- OWN_CMD CLAIM (R27, R28, R31). -/
def State.claim (s : State) (h : Half) (k : Nat) : State :=
  if nObj ≤ k then s.onW fun w => w.ownResult h k 5 false
  else match (s.own.token k).st with
    | .orphan => (s.claiming k h none).onW fun w => w.ownResult h k 1 true
    | .owned o => s.onW fun w => w.ownResult h k (if o = h then 0 else 2) false
    | .claiming d g =>
      if d = h then s.onW fun w => w.ownResult h k 1 true
      else if g = none && (s.own.token k).at_ / 8 = s.w.now / 8 then
        if s.own.winner = h then
          ((s.claiming k h none).onW fun w => w.claimLost d k).onW fun w => w.ownResult h k 1 true
        else s.onW fun w => w.claimLost h k
      else s.onW fun w => w.ownResult h k 2 false

/-- OWN_CMD CLAIM; the arbiter ignores a half whose alive line is low. -/
def execClaim (h : Half) (k : Nat) (s : State) : Out := .next (s.when (s.own.alive h) (·.claim h k))

/-- The end of a claim or handover in OWN_RESULT: of a single operation on its object, of an operation on many when none is left. -/
def State.settle (s : State) (h : Half) (k : Nat) : State :=
  match s.own.op.get h with
  | .none => s.when (s.w.rd h F.OWN_RESULT.OBJ = k && s.w.flag h F.OWN_RESULT.BUSY) fun s => s.onW fun w => w.ownResult h k 0 false
  | .claimAll =>
    s.when (s.own.toward h).isEmpty fun s =>
      ((s.onOwn fun o => { o with op := o.op.set h .none }).onW fun w => w.ownResult h 0 0 false)
  | .handoverAll =>
    s.when (s.own.given h).isEmpty fun s =>
      ((s.onOwn fun o => { o with op := o.op.set h .none }).onW fun w =>
        (w.ownResult h 0 0 false).raiseBoth 57 (evArg 0xFFFF 0xFF 0))

/-- A claimed token passes to the claiming half (R27). -/
def execClaimComplete (k : Nat) (s : State) : Out :=
  match (s.own.token k).st with
  | .claiming d none => .next ((s.owned k d).settle d k)
  | _ => .next s

/-- OWN_CMD RELEASE by the owner (R27). -/
def State.release (s : State) (h : Half) (k : Nat) : State :=
  if nObj ≤ k then s.onW fun w => w.ownResult h k 5 false
  else if s.own.owns h k then (s.orphan k h).onW fun w => w.ownResult h k 0 false
  else s.onW fun w => w.ownResult h k 2 false

/-- OWN_CMD RELEASE. -/
def execRelease (h : Half) (k : Nat) (s : State) : Out := .next (s.when (s.own.alive h) (·.release h k))

/-- The sibling can receive a handover (R27): its alive line is high and it accepts. -/
def State.accepts (s : State) (h : Half) : Bool := s.own.alive h && s.w.flag h F.OWN_CTRL.ACCEPT

/-- OWN_CMD HANDOVER by the owner (R27). -/
def State.handover (s : State) (h : Half) (k : Nat) : State :=
  if nObj ≤ k then s.onW fun w => w.ownResult h k 5 false
  else if !s.own.owns h k then s.onW fun w => w.ownResult h k 2 false
  else if !s.accepts h.other then s.onW fun w => w.ownResult h k 4 false
  else ((s.claiming k h.other (some h)).leaves k).onW fun w => w.ownResult h k 1 true

/-- OWN_CMD HANDOVER. -/
def execHandover (h : Half) (k : Nat) (s : State) : Out := .next (s.when (s.own.alive h) (·.handover h k))

/-- A handed-over token reaches the sibling (R27): EVT_OWN_HANDOVER in both halves, once for an operation on all of them (R50). -/
def State.handoverDone (s : State) (k : Nat) : State :=
  match (s.own.token k).st with
  | .claiming d (some g) =>
    let all : Bool := s.own.op.get g = .handoverAll
    ((s.owned k d).when (!all) fun s => s.onW fun w => w.raiseBoth 57 (evArg k 0xFF 0)).settle g k
  | _ => s

/-- A handover of one token completes. -/
def execHandoverComplete (k : Nat) (s : State) : Out := .next (s.handoverDone k)

/-- CLAIM_ALL of a list of tokens (R29): each that is ORPHAN. -/
def State.claimAll (s : State) (h : Half) (l : List Nat) : State :=
  let l := l.filter (fun k => (s.own.token k).st = .orphan)
  if l.isEmpty then s.onW fun w => w.ownResult h 0 0 false
  else ((s.forAll l fun s k => s.claiming k h none).onOwn fun o => { o with op := o.op.set h .claimAll }).onW fun w => w.ownResult h 0 1 true

/-- OWN_CMD CLAIM_ALL. -/
def execClaimAll (h : Half) (s : State) : Out := .next (s.when (s.own.alive h) fun s => s.claimAll h s.own.orphans)

/-- HANDOVER_ALL (R29). -/
def State.handoverAll (s : State) (h : Half) : State :=
  if !s.accepts h.other then s.onW fun w => w.ownResult h 0 4 false
  else
    let l := s.own.ownedBy h
    if l.isEmpty then s.onW fun w => (w.ownResult h 0 0 false).raiseBoth 57 (evArg 0xFFFF 0xFF 0)
    else ((s.forAll l fun s k => (s.claiming k h.other (some h)).leaves k).onOwn fun o => { o with op := o.op.set h .handoverAll }).onW fun w =>
      w.ownResult h 0 1 true

/-- OWN_CMD HANDOVER_ALL. -/
def execHandoverAll (h : Half) (s : State) : Out := .next (s.when (s.own.alive h) (·.handoverAll h))

/-- HANDOVER_ALL run to its end: the step of a sequence that goes on only after it (R81, R467, R500, R512). -/
def State.handoverAllNow (s : State) (h : Half) : State :=
  let s := s.handoverAll h
  s.forAll (s.own.given h) State.handoverDone

/-! SERVER (R32). -/

/-- SERVER is granted: the server replays the Ledger's journal before any other access (R520). -/
def State.serve (s : State) (h : Half) : State :=
  let s := (s.onOwn fun o => { o with server := some h }).replayJournal
  s.onW fun w => (w.engines s.own).flxServe h

/-- OWN_CTRL.SERVER_REQ (R32). -/
def State.serverReq (s : State) (h : Half) : State :=
  s.when (s.own.alive h && (!s.own.alive h.other || s.own.server ≠ some h.other) && s.own.server ≠ some h) (·.serve h)

/-- OWN_CTRL.SERVER_REQ. -/
def execServerRequest (h : Half) (s : State) : Out := .next (s.serverReq h)

/-! Orphan timers (R30). -/

/-- ORPHAN_T in force, ns. -/
def World.orphanT (w : World) : Nat := w.rd .A F.OWN_ORPHAN_T.T * 100 * ms

/-- An orphan timer has reached ORPHAN_T. -/
def State.timerDue (s : State) (k : Nat) : Bool :=
  let t := s.own.token k
  t.st = .orphan && !t.expired && t.at_ + s.w.orphanT ≤ s.w.now

/-- The object of an expired timer enters its Green state; EVT_OWN_GREEN in every half whose alive line is high. -/
def State.expire (s : State) (k : Nat) : State :=
  (s.onOwn fun o => o.setToken k { o.token k with expired := true }).onW fun w =>
    let w := w.greenObj k
    let w := w.when (s.own.alive .A) fun w => w.raise .A 55 (evArg k 0xFF 0)
    w.when (s.own.alive .B) fun w => w.raise .B 55 (evArg k 0xFF 0)

/-- An orphan timer reaches ORPHAN_T. -/
def execOrphanTimerExpiry (k : Nat) (s : State) : Out := .next (s.when (s.timerDue k) (·.expire k))

/-- ORPHAN_T set for the module (R30): in force at once for every running timer. -/
def State.setOrphanT (s : State) (t : Nat) : State :=
  let s := s.onW fun w => w.wrBoth F.OWN_ORPHAN_T.T 0 t
  s.forAll ((List.range nObj).filter s.timerDue) State.expire

/-- OWN_ORPHAN_T written while OWN_LOCK is open; outside 2–300 ignored. -/
def execOrphanTWrite (h : Half) (_init v : Nat) (s : State) : Out :=
  let t := bitsOf v 0 9
  .next (s.when (s.own.alive h && s.w.flag h F.OWN_LOCK.OPEN && 2 ≤ t && t ≤ 300) (·.setOrphanT t))

/-! Alive lines (R25, R33). -/

/-- A cause set or cleared. -/
def Low.put (l : Low) (c : LowCause) (b : Bool) : Low :=
  match c with
  | .detect => { l with detectOpen := b }
  | .supply => { l with supplyBad := b }
  | .reset => { l with heldReset := b }
  | .watchdog => { l with watchdog := b }
  | .fence => { l with fenced := b }
  | .wiring => { l with wiring := b }

/-- What a fall does (R27, R32, R64, R188): SERVER clears; the tokens passing to the half go ORPHAN; the safe-on-reset objects that it
owned or was receiving enter their Green states at once; its load locks open. -/
def State.fallen (s : State) (h : Half) : State :=
  let toward := s.own.toward h
  let set := s.own.ownedBy h ++ toward
  let s := s.onOwn fun o => { o with
    server := if o.server = some h then none else o.server, fellAt := o.fellAt.set h s.w.now, fallSet := o.fallSet.set h set
    hwIssued := o.hwIssued.set h false, op := (o.op.set h .none) }
  let given := toward.any (fun k => (s.own.token k).st = .claiming h (some h.other))
  let s := s.forAll toward fun s k => s.orphan k h
  let s := s.when (given && (s.own.given h.other).isEmpty) fun s =>
    (s.onOwn fun o => { o with op := if o.op.get h.other = .handoverAll then o.op.set h.other .none else o.op }).onW fun w =>
      w.ownResult h.other (w.rd h.other F.OWN_RESULT.OBJ) 4 false
  s.onW fun w =>
    let w := w.forAll (set.filter (fun k => (w.gren k).sor)) World.greenObj
    let w := w.forAll (List.range 6) fun w t => w.when ((w.tileSt t).lock = some h) fun w => (w.dropTileLock h t).tileRetry t
    w.engines s.own

/-- A cause pulls a half's alive line low. -/
def State.fall (s : State) (h : Half) (c : LowCause) : State :=
  let was := s.own.alive h
  let s := s.onOwn fun o => { o with low := o.low.set h ((o.low.get h).put c true) }
  s.when was (·.fallen h)

/-- A half is held in reset, with the cause that STW_RESET keeps (R478, R492). -/
def State.hold (s : State) (h : Half) (cause : Nat) : State :=
  let s := s.onW fun w => { w with run := w.run.upd h fun r => { r with running := false, cause := cause } }
  s.fall h .reset

/-- A half is held in reset if it runs. -/
def State.resetHalf (s : State) (h : Half) (cause : Nat) : State := s.when (s.w.run.get h).running (·.hold h cause)

/-- An alive line falls for a cause of R25, or by a fault of the wiring or the backplane (R463). A half without its supply or its
cartridge, or after its watchdog, is in reset. -/
def execAliveLineFall (h : Half) (c : LowCause) (s : State) : Out :=
  let s := s.fall h c
  .next (match c with
    | .detect => s.hold h 0
    | .supply => s.hold h 3
    | .watchdog => s.hold h 1
    | .reset => s.hold h (s.w.run.get h).cause
    | .fence => s.onW fun w => { w with run := w.run.upd h fun r => { r with cause := 2 } }
    | .wiring => s)

/-- The sibling's endpoint suspends its heartbeat-loss evaluation when a half's line rises (R95). -/
def World.aliveRise (w : World) (h : Half) : World :=
  { w with xng := w.xng.upd h.other fun x => { x with suspended := true, lossDue := false } }

/-- A cause outside the half ends. A half in reset, fenced, or after its watchdog rises only when its reset is released (R25, R26). -/
def execAliveLineRise (h : Half) (c : LowCause) (s : State) : Out :=
  let was := s.own.alive h
  let s' := match c with
    | .detect => s.onOwn fun o => { o with low := o.low.set h ((o.low.get h).put .detect false) }
    | .supply => s.onOwn fun o => { o with low := o.low.set h ((o.low.get h).put .supply false) }
    | .wiring => s.onOwn fun o => { o with low := o.low.set h ((o.low.get h).put .wiring false) }
    | _ => s
  .next (s'.when (!was && s'.own.alive h) fun s => s.onW (·.aliveRise h))

/-- 20 µs after a fall, every token the half owned is ORPHAN (R27, R33). -/
def execOwnerAliveLowTimeout (h : Half) (s : State) : Out :=
  .next (s.when (!s.own.alive h && s.own.fellAt.get h + 20 * us ≤ s.w.now) fun s => s.forAll (s.own.ownedBy h) fun s k => s.orphan k h)

/-! The hardware CLAIM_ALL (R29, R33). -/

/-- The survivor's endpoint claims exactly the tokens that the fall made ORPHAN, once for each fall. -/
def execHardwareClaimAll (h : Half) (s : State) : Out :=
  let f := h.other
  let l := s.own.fallSet.get f
  .next (s.when (s.own.alive h && !s.own.alive f && s.w.flag h F.OWN_CTRL.TAKEOVER_EN && !l.isEmpty && !s.own.hwIssued.get f &&
      l.all (fun k => (s.own.token k).st = .orphan)) fun s =>
    (s.forAll l fun s k => s.claiming k h none).onOwn fun o => { o with hwIssued := o.hwIssued.set f true })

/-- The hardware CLAIM_ALL completes: EVT_OWN_TAKEOVER in the survivor; the stop levels of its copy are held (R348). -/
def execTakeoverComplete (h : Half) (s : State) : Out :=
  let f := h.other
  let l := (s.own.fallSet.get f).filter (fun k => (s.own.token k).st = .claiming h none)
  .next (s.when (s.own.hwIssued.get f && !l.isEmpty) fun s =>
    ((s.forAll l fun s k => s.owned k h).onOwn fun o => { o with fallSet := o.fallSet.set f [] }).onW fun w =>
      (w.raise h 53 (evArg 0xFFFF 0xFF 0)).trkTakeover h)

/-! The heartbeat permit (R26, R94, R458). -/

/-- A half fences itself (R26). -/
def State.fence (s : State) (h : Half) : State :=
  (s.onW fun w => { w with run := w.run.upd h fun r => { r with cause := 2 } }).fall h .fence

/-- Both real-time pairs have joined the permit. -/
def Run.joined (r : Run) : Bool := r.rtJoined.all id

/-- The permit has lapsed: a source that counts has not refreshed it for 300 µs. -/
def Run.lapsed (r : Run) (now : Nat) : Bool :=
  (!r.greenHold && r.stwAt + 300 * us ≤ now) || (r.joined && r.rtAt.any (fun t => t + 300 * us ≤ now))

/-- The permit of a half has not been refreshed for 300 µs. -/
def execHeartbeatPermitLapse (h : Half) (s : State) : Out :=
  let r := s.w.run.get h
  .next (s.when (r.running && s.own.alive h && r.lapsed s.w.now) (·.fence h))

/-- A 1 kHz cycle that started at least 150 µs ago has not had its outputs written (R458). -/
def World.missedCycle (w : World) (h : Half) : Bool :=
  let e := w.set.get h
  let k := (w.mt h - 150 * us) / ms
  w.flag h F.SET_CTRL.RUN && e.cycK < k && e.runAt < k * ms

/-- The Steward's contribution at a multiple of 100 µs, withheld for a missed output deadline. -/
def execStewardPermitContribution (h : Half) (s : State) : Out := lift s fun w =>
  w.when ((w.run.get h).running && !w.missedCycle h) fun w =>
    { w with run := w.run.upd h fun r => { r with stwAt := w.now, greenHold := false } }

/-- A real-time pair refreshes the permit; its first refresh joins it (R94). -/
def execRealtimePermitRefresh (h : Half) (pair : Nat) (s : State) : Out := lift s fun w =>
  w.when ((w.run.get h).running && pair < 2) fun w =>
    { w with run := w.run.upd h fun r => { r with rtAt := listSet r.rtAt pair w.now, rtJoined := listSet r.rtJoined pair true } }

/-- A pair has not joined within 1.0 s of start (R94). -/
def execPermitJoinTimeout (h : Half) (s : State) : Out :=
  let r := s.w.run.get h
  .next (s.when (r.running && s.own.alive h && !r.joined && r.refAt + sec ≤ s.w.now) (·.fence h))

/-- A half reads its alive line low for no cause of R25 (R463): EVT_AVL_SELF_FENCE, then reset. -/
def execSelfFence (h : Half) (s : State) : Out :=
  let l := s.own.low.get h
  .next (s.when ((s.w.run.get h).running && l.wiring && ({ l with wiring := false } : Low).alive) fun s =>
    ((s.onW fun w => w.raise h 8 (evArg 0xFFFF 0xFF 0)).onW fun w =>
      { w with run := w.run.upd h fun r => { r with selfFenced := true } }).hold h 8)

end Sys2Proof.Machine
end

