-- ==== Sys2Proof/Machine/Cross.lean ====
section
/-!
DEFINITION. The Crossing (R34–R45, R82, R95, R459, R590): lanes, frames, heartbeat, time sync and mirroring.
-/
namespace Sys2Proof.Machine

/-- The endpoint of a half changed. -/
def World.updXng (w : World) (h : Half) (f : Xng → Xng) : World := { w with xng := w.xng.upd h f }

/-- TSYNC_OK clears, with its event (R44). -/
def World.tsyncLost (w : World) (h : Half) : World :=
  (w.when (w.flag h F.XNG_STATUS.TSYNC_OK) fun w => (w.wr h F.XNG_STATUS.TSYNC_OK 0 0).raise h 48 (evArg 0xFFFF 0xFF 0)).updXng h fun x =>
    { x with within := 0, outside := 0 }

/-- The lanes' field of a direction: 0 transmit, 1 receive. -/
def laneField (dir : Nat) : Field := if dir = 0 then F.XNG_STATUS.LANE_TX else F.XNG_STATUS.LANE_RX

/-- A lane seen to change: EVT_XNG_LANE (R589). -/
def World.laneSet (w : World) (h : Half) (lane dir : Nat) (up : Bool) : World :=
  let v := w.rd h (laneField dir)
  if bitOf v lane = up then w
  else
    (w.wr h (laneField dir) 0 (if up then v + 2 ^ lane else v - 2 ^ lane)).raise h 45 (lane + dir * 2 ^ 16 + b2n (!up) * 2 ^ 24)

/-- At least one lane is up in each direction. -/
def World.lanesUp (w : World) (h : Half) : Bool := w.rd h F.XNG_STATUS.LANE_TX ≠ 0 && w.rd h F.XNG_STATUS.LANE_RX ≠ 0

/-- The Crossing leaves UP as a half sees it (R35, R44). -/
def State.xngDown (s : State) (h : Half) : State :=
  s.when (s.w.flag h F.XNG_STATUS.UP && !s.w.lanesUp h) fun s =>
    (s.onW fun w => (w.wr h F.XNG_STATUS.UP 0 0).tsyncLost h).onW fun w => w.engines s.own

/-- A lane of an endpoint goes down or comes back (R35). -/
def execCrossingLaneChange (h : Half) (lane dir : Nat) (up : Bool) (s : State) : Out :=
  .next (if (s.w.run.get h).running && lane < 2 && dir < 2 then (s.onW fun w => w.laneSet h lane dir up).xngDown h else s)

/-- The endpoints that pass frames: enabled, not in loopback (R590). -/
def World.linked (w : World) (h : Half) : Bool :=
  w.flag h F.XNG_CTRL.EN && !w.flag h F.XNG_CTRL.LOOPBACK && w.flag h.other F.XNG_CTRL.EN && !w.flag h.other F.XNG_CTRL.LOOPBACK

/-- A half's frames reach the sibling. -/
def World.sends (w : World) (h : Half) : Bool :=
  (w.run.get h).running && (w.run.get h.other).running && w.linked h && w.rd h F.XNG_STATUS.LANE_TX ≠ 0 && w.rd h.other F.XNG_STATUS.LANE_RX ≠ 0

/-- A payload counted in XNG_BW: the last 100 ms are kept. -/
def logBytes (l : List (Nat × Nat)) (now n : Nat) : List (Nat × Nat) := (now, n) :: l.filter (fun e => now < e.1 + 100 * ms)

/-- A frame of a type sent: its number, and its payload. -/
def World.xngSent (w : World) (h : Half) (ty len : Nat) : World :=
  w.updXng h fun x => { x with seqTx := NMap.upd 0 x.seqTx ty (fun n => (n + 1) % 65536), txLog := logBytes x.txLog w.now len }

/-- A payload received. -/
def World.xngGot (w : World) (h : Half) (len : Nat) : World := w.updXng h fun x => { x with rxLog := logBytes x.rxLog w.now len }

/-- A frame arrives (R36): one whose CRC fails is dropped, counted, and, of MIR, MSG, FEA and BLK, asked for again; EVT_XNG_CRC at the
17th drop within 1 ms. -/
def execCrossingFrameReceived (h : Half) (ty seq len : Nat) (crcOk : Bool) (s : State) : Out := lift s fun w =>
  if !(w.sends h.other) || ty = 0 || 6 < ty then w
  else if crcOk then (w.updXng h fun x => { x with asked := x.asked.filter (fun a => a ≠ (ty, seq)) }).xngGot h len
  else
    let x := w.xng.get h
    let k := w.now / ms
    let n := if x.crcMs = k then x.crcInMs + 1 else 1
    let w := (w.bump h F.XNG_ERR_CNT.CRC).updXng h fun x => { x with
      crcMs := k, crcInMs := n, asked := if 3 ≤ ty && !x.asked.contains (ty, seq) then x.asked ++ [(ty, seq)] else x.asked }
    w.when (n = 17) fun w => w.raise h 46 (evArg 0xFFFF 0xFF 0)

/-- A request of the sibling for a frame: sent again with its number, counted (R36). -/
def execRetransmissionRequest (h : Half) (ty seq : Nat) (s : State) : Out := lift s fun w =>
  w.when ((w.xng.get h.other).asked.contains (ty, seq) && w.sends h) fun w =>
    (w.bump h F.XNG_ERR_CNT.RETX).updXng h fun x => { x with resent := (x.resent.filter (fun a => a ≠ (ty, seq))) ++ [(ty, seq)] }

/-! Heartbeat (R38, R39). -/

/-- The frame an endpoint samples now. -/
def State.hbFrame (s : State) (h : Half) : HbFrame :=
  let w := s.w
  { seq := (w.xng.get h).hbSeq, stage := w.rd h F.STW_STAGE.STAGE, server := s.own.serves h, digest := w.roastPrefix h
    load := w.rd h F.STW_LOAD.LOAD, owned := (s.own.ownedBy h).length, grade := w.rd h F.GRD_STATUS.GRADE
    bloomDone := w.flag h F.STW_STAGE.BLOOM_DONE }

/-- Every 100 µs while the permit is valid (R38). -/
def execHbFrameSend (h : Half) (s : State) : Out :=
  let f := s.hbFrame h
  lift s fun w =>
    w.when (!(w.run.get h).lapsed w.now && w.sends h && s.own.alive h) fun w =>
      (w.updXng h fun x => { x with sent := some f, hbSeq := (x.hbSeq + 1) % 65536 }).xngSent h 1 48

/-- A valid HB frame: all its fields taken together; the miss window restarts; evaluation resumes (R38, R39, R95). The serving half
sends every class in full once the sibling's frames show Bloom complete and an equal digest (R459). -/
def execHbFrameReceived (h : Half) (s : State) : Out := lift s fun w =>
  match (w.xng.get h.other).sent with
  | none => w
  | some f =>
    if !w.sends h.other then w
    else
      let w := w.updXng h.other fun x => { x with sent := none }
      let w := (((w.wr h F.XNG_SIB_STATE.HB_SEQ 0 f.seq).wr h F.XNG_SIB_STATE.STW_LOAD 0 f.load).wr h F.XNG_SIB_STATE.SERVER 0
        (b2n f.server)).wr h F.XNG_SIB_STATE.STAGE 0 f.stage
      let w := (((w.wr h F.XNG_SIB_GRADE.GRADE 0 f.grade).wr h F.XNG_SIB_OWNED.OWNED 0 f.owned).wr h F.XNG_SIB_ROAST0.DIGEST 0
        (f.digest % 2 ^ 32)).wr h F.XNG_SIB_ROAST1.DIGEST 0 (f.digest / 2 ^ 32)
      let w := ((w.wr h F.XNG_STATUS.HB_OK 0 1).wr h F.XNG_STATUS.HB_MISS 0 0).wr h F.XNG_STATUS.FAULT 0 0
      let new := f.bloomDone && f.digest = w.roastPrefix h && !(w.xng.get h).sibBloom && s.own.serves h
      (w.updXng h fun x => { x with
        winAt := w.now, suspended := false, lossDue := false, sibBloom := f.bloomDone && f.digest = w.roastPrefix h
        fullDue := if new then [0, 1, 2, 3] else x.fullDue }).xngGot h 48

/-- A window of 100 µs without a valid frame: one miss; five are heartbeat loss (R39). -/
def execHbWindowExpiry (h : Half) (s : State) : Out := lift s fun w =>
  let x := w.xng.get h
  w.when ((w.run.get h).running && !x.suspended && x.winAt + 100 * us ≤ w.now) fun w =>
    let n := w.rd h F.XNG_STATUS.HB_MISS
    let w := (w.wr h F.XNG_STATUS.HB_MISS 0 (min 5 (n + 1))).wr h F.XNG_STATUS.HB_OK 0 0
    let w := w.when (n = 0) fun w => w.raise h 47 (evArg 0xFFFF 0xFF 0)
    w.updXng h fun x => { x with winAt := w.now, lossDue := x.lossDue || n = 4 }

/-- The sample of the sibling's line after heartbeat loss (R39): low confirms the takeover; high makes the Crossing faulty (R41), and the
half that does not serve goes on alone (R348, R371). -/
def execHeartbeatLossSample (h : Half) (s : State) : Out :=
  .next (s.when (s.w.xng.get h).lossDue fun s =>
    let s := s.onW fun w => w.updXng h fun x => { x with lossDue := false }
    s.when (s.own.alive h.other) fun s =>
      s.onW fun w =>
        let w := (w.wr h F.XNG_STATUS.FAULT 0 1).raise h 44 (evArg 0xFFFF 0xFF 0)
        (w.when (!s.own.serves h) (·.trkSplit h)).engines s.own)

/-- The Crossing reaches UP (R35, R36, R42): numbers start at 0, every class is due in full, a split store is discarded. -/
def execCrossingUp (h : Half) (s : State) : Out :=
  .next (s.when (s.w.linked h && (s.w.run.get h).running && (s.w.run.get h.other).running && s.w.lanesUp h && !s.w.flag h F.XNG_STATUS.UP) fun s =>
    s.onW fun w =>
      let w := (w.wr h F.XNG_STATUS.UP 0 1).wr h F.XNG_STATUS.FAULT 0 0
      let w := w.updXng h fun x => { x with
        seqTx := [], asked := [], resent := [], within := 0, outside := 0, tsyAt := w.now, upAt := w.now, winAt := w.now, fullRx := []
        fullDue := [0, 1, 2, 3], lossDue := false }
      ((w.raise h 50 (evArg 0xFFFF 0xFF 0)).trkJoin h).engines s.own)

/-! Control (R49, R590). -/

/-- All lanes of both endpoints are down. -/
def State.allLanesDown (s : State) : State :=
  s.forAll [Half.A, Half.B] fun s h =>
    (s.onW fun w => w.when (w.run.get h).running fun w =>
      (((w.laneSet h 0 0 false).laneSet h 1 0 false).laneSet h 0 1 false).laneSet h 1 1 false).xngDown h

/-- XNG_CTRL.EN written while OWN_LOCK is open: clear stops both directions; set lets the lanes train again (R590). -/
def execXngEnable (h : Half) (_init v : Nat) (s : State) : Out :=
  .next (s.when (s.w.flag h F.OWN_LOCK.OPEN) fun s =>
    (s.onW fun w => w.wr h F.XNG_CTRL.EN 0 (v % 2)).when (v % 2 = 0) State.allLanesDown)

/-- XNG_CTRL.LOOPBACK written while OWN_LOCK is open, honoured in SERVICE (R590). -/
def execXngLoopback (h : Half) (_init v : Nat) (s : State) : Out :=
  .next (s.when (s.w.flag h F.OWN_LOCK.OPEN && (v % 2 = 0 || s.w.inService h)) fun s =>
    (s.onW fun w => w.wr h F.XNG_CTRL.LOOPBACK 0 (v % 2)).when (v % 2 = 1) State.allLanesDown)

/-- XNG_CTRL.CLR_CNT. -/
def execXngClrCnt (h : Half) (_init : Nat) (s : State) : Out := lift s fun w => w.setReg h F.XNG_ERR_CNT.CRC 0 0

/-! Time sync (R43, R44, R462). -/

/-- An exchange of TSY stamps, 0.1 ns: sent and received by the half (`t1`, `t4`), received and sent by the sibling (`t2`, `t3`). The
half that does not serve corrects its counter: at once within 2 ns, else at 20 µs/s. -/
def execTsyExchange (h : Half) (t1 t2 t3 t4 : Int) (s : State) : Out := lift s fun w =>
  if !w.flag h F.XNG_STATUS.UP then w
  else
    let ofs := ((t2 - t1) + (t3 - t4)) / 2
    let near : Bool := ofs.natAbs ≤ 20
    let w := w.wrI h F.XNG_TSYNC_OFS.OFS 0 ofs
    let w := w.when (!s.own.serves h) fun w =>
      w.updTim h fun t => if near then { t with offset := t.offset + ofs / 10 } else { t with slew := t.slew.orElse (fun _ => some (w.now, ofs / 10)) }
    let w := (w.updXng h fun x => { x with
      tsyAt := w.now, within := if near then min 10 (x.within + 1) else 0, outside := if near then 0 else x.outside + 1 }).xngSent h 2 16
    let x := w.xng.get h
    if near && x.within = 10 then w.wr h F.XNG_STATUS.TSYNC_OK 0 1
    else w.when (!near && 10 < x.outside) (·.tsyncLost h)

/-- No exchange for 10 ms (R44). -/
def execTsyncTimeout (h : Half) (s : State) : Out := lift s fun w =>
  w.when (w.flag h F.XNG_STATUS.UP && (w.xng.get h).tsyAt + 10 * ms ≤ w.now) (·.tsyncLost h)

/-! Mirroring (R45, R82, R459). -/

/-- The class that mirrors a function, by its RATE (R124). -/
def mirrorClass (rate : Nat) : Nat := if rate = 0 then 0 else if rate ≤ 2 then 1 else 2

/-- The half takes MIR frames of its sibling: the Crossing is UP and the digest prefixes are equal (R82). -/
def World.mirrors (w : World) (h : Half) : Bool :=
  w.flag h F.XNG_STATUS.UP && w.sends h.other && w.rd h F.XNG_SIB_ROAST0.DIGEST + 2 ^ 32 * w.rd h F.XNG_SIB_ROAST1.DIGEST = w.roastPrefix h

/-- The optimizer's registers, mirrored in class M2 (R45). -/
def optMirrored : List Field :=
  [F.SET_OPT_STATUS.RES, F.SET_OPT_STATUS.ITER, F.SET_OPT_STATUS.FAILS, F.SET_OPT_STATUS.DROPPED, F.SET_OPT_STATUS.RETREAT
  , F.SET_OPT_CTRL.MODE, F.SET_OPT_CTRL.PROFILE, F.SET_OPT_CTRL.DITH_EN, F.SET_OPT_TGT_THRU.VALUE, F.SET_OPT_TGT_LOSS.VALUE
  , F.SET_OPT_TGT_DAMAGE.VALUE, F.SET_OPT_TGT_TRASH.VALUE, F.SET_OPT_PREF.PREF, F.SET_OPT_CORR.CORR]

/-- The registers of steering, mirrored in class M0 (R152). -/
def steerMirrored : List Field :=
  [F.SET_STEER_STATUS.ENGAGED, F.SET_STEER_STATUS.ALERT, F.SET_STEER_STATUS.REASON, F.SET_STEER_STATUS.PASS, F.SET_STEER_CTRL.LINE
  , F.SET_STEER_CTRL.PASS, F.SET_STEER_XTE.VALUE, F.SET_STEER_HDG.VALUE, F.SET_STEER_CURV.VALUE]

/-- Fields copied from the sibling. -/
def World.copyFields (w : World) (h : Half) (l : List Field) : World := l.foldl (fun w f => w.wr h f 0 (w.rd h.other f)) w

/-- A function's record taken: the newest complete one is kept (R459), with its output and what the operator has set, and steering for
MF00. -/
def World.takeFn (w : World) (h : Half) (n : Nat) : World :=
  let x := NMap.get {} (w.set.get h.other).fn n
  let old := NMap.get {} (w.set.get h).mir n
  if !x.ran || x.cycle < old.cycle then w
  else
    let w := { w with set := w.set.upd h fun e => { e with mir := NMap.set {} e.mir n x } }
    let w := [F.SET_MF_OUT.VALUE, F.SET_MF_SP.VALUE, F.SET_MF_MAN.VALUE, F.SET_MF_CMD.MANUAL].foldl (fun w f => w.wr h f n (w.rd h.other f n)) w
    if n = 0 then
      ({ w with set := w.set.upd h fun e => { e with steer := (w.set.get h.other).steer, lines := (w.set.get h.other).lines } }).copyFields h
        steerMirrored
    else w

/-- The rest of a class taken: M1, the operating state; M2, the optimizer with its registers, and the Fleet Exchange's peers and
active cart (R445, R448); M3, the event log (R483) and the last tile acknowledged (R447). -/
def World.takeClass (w : World) (h : Half) (k : Nat) : World :=
  match k with
  | 1 => w.wr h F.SET_STATE.STATE 0 (w.rd h.other F.SET_STATE.STATE)
  | 2 =>
    let o := w.opt.get h.other
    let w := { w with opt := w.opt.upd h fun m => { o with saved := m.saved } }
    let w := w.copyFields h optMirrored
    { w with flx := w.flx.upd h fun x => { x with cart := (w.flx.get h.other).cart, peers := (w.flx.get h.other).peers } }
  | 3 =>
    let log := logOf (w.dram.get h.other)
    { w with evt := w.evt.upd h fun r => { r with sibLog := log } }.wr h F.FLX_YLD.ACKED 0 (w.rd h.other F.FLX_YLD.ACKED)
  | _ => w

/-- A MIR frame of class `k` arrives: the record of function `n`, or (n above 29) what else the class carries; `full`: with it the class
has been received in full. -/
def execMirrorRecordReceived (h : Half) (k n : Nat) (full : Bool) (s : State) : Out := lift s fun w =>
  if !w.mirrors h || 4 ≤ k then w
  else
    let w := if n < 30 then w.takeFn h n else w.takeClass h k
    let w := (w.xngSent h.other 3 0).updXng h.other fun x => { x with
      lastSent := NMap.set 0 x.lastSent k w.now, fullDue := if full then x.fullDue.filter (· ≠ k) else x.fullDue }
    w.updXng h fun x => { x with fullRx := if full && !x.fullRx.contains k then x.fullRx ++ [k] else x.fullRx }

/-- A mirror class exceeds its lag bound (R45). -/
def execMirrorLagExceeded (h : Half) (k : Nat) (s : State) : Out := lift s fun w =>
  w.when (k < 4 && w.flag h F.XNG_STATUS.UP) fun w =>
    ((w.wr h F.XNG_MIR_STAT.LAG 0 (w.rd h F.XNG_MIR_STAT.LAG ||| 2 ^ k)).raise h 49 (evArg 0xFFFF k 0)).updXng h fun x =>
      { x with lagAt := w.now }

/-- Class M2 or M3 is sent because its least period has passed without a change (R45). -/
def execMirrorRefresh (h : Half) (k : Nat) (s : State) : Out := lift s fun w =>
  w.when ((k = 2 || k = 3) && w.flag h F.XNG_STATUS.UP && w.sends h &&
      NMap.get 0 (w.xng.get h).lastSent k + (if k = 2 then 40 * ms else sec) ≤ w.now) fun w =>
    let w := (w.updXng h fun x => { x with lastSent := NMap.set 0 x.lastSent k w.now }).xngSent h 3 0
    w.when (w.mirrors h.other) fun w => w.takeClass h.other k

/-- XNG_BW (R49): the payload of the last 100 ms in Mbit/s. -/
def World.xngBw (w : World) (h : Half) : Nat :=
  let sum (l : List (Nat × Nat)) := satTo 16 (((l.filter (fun e => w.now < e.1 + 100 * ms)).map (·.2)).sum * 8 / 100000)
  sum (w.xng.get h).txLog + 2 ^ 16 * sum (w.xng.get h).rxLog

end Sys2Proof.Machine
end

