-- ==== Sys2Proof/Machine/Upd.lean ====
section
/-!
DEFINITION. Update regions and sessions, sibling restore, the key store and the debug port (R494–R515).
-/
namespace Sys2Proof.Machine

/-! Regions (R494). -/

/-- The maximum size of a region. -/
def regionMax : Nat → Nat
  | 1 => 8 * 2 ^ 20
  | 2 => 32 * 2 ^ 20
  | 3 => 8 * 2 ^ 20
  | 4 => 4 * 2 ^ 30
  | 5 => 16 * 2 ^ 30
  | 6 => 8 * 2 ^ 20
  | 7 => 256 * 2 ^ 10
  | _ => 0

/-- A region written over the running image. -/
def overRunning (r : Nat) : Bool := 1 ≤ r && r ≤ 5

/-- The update state of a half changed. -/
def World.updUpd (w : World) (h : Half) (f : Upd → Upd) : World := { w with upd := w.upd.upd h f }

/-- A region of a half. -/
def World.region (w : World) (h : Half) (r : Nat) : Region := NMap.get {} (w.upd.get h).region r

/-- A region stored, and shown in UPD_REGION and UPD_VER (R513). -/
def World.setRegion (w : World) (h : Half) (r : Nat) (x : Region) : World :=
  let w := w.updUpd h fun u => { u with region := NMap.set {} u.region r x }
  let floor := NMap.get 0 (w.upd.get h).vault.floors r
  ((((w.wr h F.UPD_REGION.VALID r (b2n x.valid)).wr h F.UPD_REGION.RESTORED r (b2n x.restored)).wr h F.UPD_REGION.FLOOR r floor).wr h
    F.UPD_REGION.RB r x.rb).wr h F.UPD_VER.VERSION r x.ver

/-- The image in a region. -/
def Region.bytes (x : Region) : List Byte := x.img.readN 0 x.len

/-! The vault (R509). -/

/-- A key registered and not revoked. -/
def Vault.key (v : Vault) (kind id : Nat) : Option KeyEnt :=
  if v.revoked.contains (kind, id) then none else v.keys.find? (fun k => k.kind = kind && k.id = id)

/-- The slots of a kind. -/
def vaultSlots : Nat → Nat
  | 1 => 4
  | 2 => 8
  | 3 => 8
  | 4 => 4
  | 5 => 4
  | _ => 0

/-- A half's environment for the verification of a Roast (R70, R71): its OEM keys with usage ROAST, the firmware's version (that of the
STEWARD region; the spec does not say which). -/
def World.verEnv (w : World) (h : Half) (tech : Bool) : VerEnv :=
  let v := (w.upd.get h).vault
  { oem := fun id => (v.key 2 id).bind (fun k => if bitOf k.usage 0 then some k.key else none)
    boundId := w.bp.boundId, seqFloor := w.bp.seqFloor, rebindOk := tech && w.inService h, fw := (w.region h 1).ver }

/-- KEY_STATUS, KEY_SERIAL, KEY_DEVID and KEY_OEM show the vault (R514). -/
def World.showKeys (w : World) (h : Half) : World :=
  let v := (w.upd.get h).vault
  let oem := v.keys.filter (·.kind = 2)
  let w := (((((w.wr h F.KEY_STATUS.ROOT_OK 0 (b2n v.root.isSome)).wr h F.KEY_STATUS.CERT_OK 0
    (b2n (v.certDev ≠ [] && v.certDev = w.devId))).wr h F.KEY_STATUS.OEM_N 0 oem.length).wr h F.KEY_STATUS.REVOKED 0 v.revoked.length).wr h
    F.KEY_STATUS.ANCHORS 0 (v.keys.filter (fun k => k.kind = 3 || k.kind = 4)).length).wr h F.KEY_NONCE.NONCE 0 (w.upd.get h).nonce
  let w := w.forAll (List.range 8) fun w k => w.wr h F.KEY_OEM.VALUE k (((oem[k]?).map (·.id)).getD 0)
  w.forAll (List.range 4) fun w k => (w.wr h F.KEY_SERIAL.VALUE k (u32At v.serial (4 * k))).wr h F.KEY_DEVID.VALUE k (u32At w.devId (4 * k))

/-! The check of an image (R495, R502). -/

/-- The header of an image of regions 1–5. -/
def imageHeadOk (r : Nat) (len : Nat) (img : List Byte) : Bool :=
  img.take 4 = bytesOf [0x45, 0x58, 0x49, 0x4D] && byteAt img 4 = 1 && byteAt img 5 = r && u16At img 6 = 256 &&
    u32At img 252 = crc32c (img.take 252) && allZero (slice img 13 3) && allZero (slice img 36 20) && allZero (slice img 200 52) &&
    256 + u64At img 16 = len

/-- The blocks of an image. -/
def blockCount (len : Nat) : Nat := (len + 4095) / 4096

/-- R502, items 2 to 5, for regions 1–5: 0, or the code of the first failure. -/
def imageCheck (v : Vault) (r : Nat) (img : List Byte) : Nat :=
  if !imageHeadOk r img.length img then 13
  else match v.key 1 (u32At img 24) with
    | none => 14
    | some k =>
      let pay := img.drop 256
      if Config.sha384 pay ≠ slice img 56 48 ||
          !Config.ecdsaValid k.key (Config.sha384 (img.take 104)) (slice img 104 96) then 15
      else if byteAt img 12 < NMap.get 0 v.floors r then 16
      else 0

/-! Key records (R510). -/

/-- A key record. -/
structure KeyRec where
  head : List Byte
  body : List Byte
  sig : List Byte
deriving DecidableEq, Repr

/-- The records of a KEYS image; `none` where the bytes are no sequence of records. -/
def keyRecs : Nat → List Byte → Option (List KeyRec)
  | 0, bs => if bs.isEmpty then some [] else none
  | n + 1, bs =>
    if bs.isEmpty then some []
    else
      let len := u16At bs 8
      if bs.length < 112 + len then none
      else (keyRecs n (bs.drop (112 + len))).map (⟨bs.take 16, slice bs 16 len, slice bs (16 + len) 96⟩ :: ·)

/-- OP, KIND and KEY_ID of a record. -/
def KeyRec.op (k : KeyRec) : Nat := byteAt k.head 0
def KeyRec.kind (k : KeyRec) : Nat := byteAt k.head 1
def KeyRec.id (k : KeyRec) : Nat := u32At k.head 4

/-- The 16-byte SERIAL that ends a body (the place is the model's), and what stands before it. -/
def KeyRec.serial (k : KeyRec) : List Byte := k.body.drop (k.body.length - 16)
def KeyRec.material (k : KeyRec) : List Byte := k.body.take (k.body.length - 16)

/-- The fields of a record's header and the length of its body. -/
def KeyRec.formed (k : KeyRec) : Bool :=
  1 ≤ k.op && k.op ≤ 3 && (k.op = 3 || (1 ≤ k.kind && k.kind ≤ 5)) && (byteAt k.head 2 = 0 || k.kind = 2) && byteAt k.head 3 = 0 &&
    allZero (k.head.drop 10) && 16 ≤ k.body.length && (k.op ≠ 1 || k.kind = 3 || k.kind = 4 || k.body.length = 113)

/-- The signature of a record: a fleet anchor by a registered OEM key with usage FLEET, every other kind by the root key. -/
def KeyRec.signed (k : KeyRec) (v : Vault) : Bool :=
  let by_ (key : List Byte) : Bool := Config.ecdsaValid key (Config.sha384 (k.head ++ k.body)) k.sig
  if k.op ≠ 3 && k.kind = 3 then
    v.keys.any (fun e => e.kind = 2 && bitOf e.usage 1 && !v.revoked.contains (2, e.id) && by_ e.key)
  else v.root.any by_

/-- A record applied to a vault, or the code of its refusal: 13 not a record, 15 its signature fails, 14 its SERIAL names another module
or its table is full, 21 it would revoke the key of an ACTIVE Roast (`inUse`). -/
def KeyRec.apply (k : KeyRec) (devId : List Byte) (inUse : List Nat) (v : Vault) : Except Nat Vault :=
  if !k.formed then .error 13
  else if !k.signed v then .error 15
  else if !allZero k.serial && k.serial ≠ devId then .error 14
  else if k.op = 3 then .ok { v with certDev := Config.certDevice k.material }
  else if k.op = 2 then
    if k.kind = 2 && inUse.contains k.id then .error 21
    else if v.revoked.contains (k.kind, k.id) then .ok v
    else if 64 ≤ v.revoked.length then .error 14
    else .ok { v with revoked := v.revoked ++ [(k.kind, k.id)] }
  else
    let e : KeyEnt := ⟨k.kind, k.id, byteAt k.head 2, k.material⟩
    if v.keys.any (fun x => x.kind = k.kind && x.id = k.id) then
      .ok { v with keys := v.keys.map (fun x => if x.kind = k.kind && x.id = k.id then e else x) }
    else if vaultSlots k.kind ≤ (v.keys.filter (·.kind = k.kind)).length then .error 14
    else .ok { v with keys := v.keys ++ [e] }

/-- Every record of an image, in order: the new vault, or the first refusal. -/
def applyKeys (devId : List Byte) (inUse : List Nat) : List KeyRec → Vault → Except Nat Vault
  | [], v => .ok v
  | k :: t, v =>
    match k.apply devId inUse v with
    | .ok v' => applyKeys devId inUse t v'
    | .error e => .error e

/-- The OEM keys of the Roasts in both ACTIVE slots. -/
def World.keysInUse (w : World) : List Nat :=
  [Half.A, Half.B].filterMap (fun h => if (w.roast.get h).active.valid then some (u32At (w.roast.get h).active.image 36) else none)

/-- The records of a KEYS image applied in a half: EVT_KEY for each. -/
def World.keysApplied (w : World) (h : Half) (v : Vault) (n : Nat) : World :=
  (w.updUpd h fun u => { u with vault := v }).showKeys h |>.forAll (List.range n) fun w _ => w.raise h 251 (evArg 7 0xFF 0)

/-! Sessions (R496–R505). -/

/-- The state of a region's session (UPD_SESS): 1 TRANSFER, 2 CHECK, 3 ACTIVATING and 4 RESTART hold the lock. -/
def World.sessState (w : World) (h : Half) (r : Nat) : Nat := w.rd h F.UPD_SESS.STATE r

/-- The lock of a region is held. -/
def World.sessOpen (w : World) (h : Half) (r : Nat) : Bool := 1 ≤ w.sessState h r && w.sessState h r ≤ 4

/-- A half holds a session of any region. -/
def World.anySess (w : World) (h : Half) : Bool := (List.range' 1 7).any (w.sessOpen h)

/-- A half holds a session over a running image. -/
def World.anyOver (w : World) (h : Half) : Bool := (List.range' 1 5).any (w.sessOpen h)

/-- The session of a region. -/
def World.sess (w : World) (h : Half) (r : Nat) : Session := NMap.get ⟨0, 0, 0, [], 0, false⟩ (w.upd.get h).sess r

/-- The session of a region changed. -/
def World.updSess (w : World) (h : Half) (r : Nat) (x : Session) : World :=
  w.updUpd h fun u => { u with sess := NMap.put u.sess r x }

/-- UPD_RESULT.RES. -/
def World.updRes (w : World) (h : Half) (res : Nat) : World := (w.wr h F.UPD_RESULT.RES 0 res).wr h F.UPD_RESULT.BUSY 0 0

/-- The sibling can take the half's objects (R497). -/
def State.siblingTakes (s : State) (h : Half) : Bool :=
  let w := s.w
  s.own.alive h.other && w.flag h.other F.STW_STAGE.BLOOM_DONE && !(w.run.get h.other).standby && w.flag h F.XNG_STATUS.UP &&
    !w.anyOver h.other

/-- What refuses an OPEN before the lock is looked at (R497). -/
def State.openRefused (s : State) (h : Half) (r len : Nat) : Nat :=
  let w := s.w
  if regionMax r < len then 5
  else if !w.latch.keyOn then 6
  else if w.act.isSome then 7
  else if overRunning r && !w.parkedOrService h then 3
  else if overRunning r && !s.siblingTakes h && !(!s.own.alive h.other && w.inService h) then 4
  else 0

/-- An OPEN refused by a held lock (R498, R499). -/
def World.lockRefusal (w : World) (h : Half) (r source : Nat) : Nat :=
  if !w.sessOpen h r then 0
  else if w.sessState h r = 1 && (w.sess h r).source ≠ source then 1
  else 2

/-- An OPEN refused: counted, told. -/
def World.openFails (w : World) (h : Half) (r res : Nat) : World :=
  let w := w.when (res = 1 || res = 2) fun w => w.wr h F.UPD_HOLDER.SOURCE 0 (w.sess h r).source
  ((w.updRes h res).bump h F.UPD_CNT.REFUSED).raise h 248 (evArg r 0xFF res)

/-- An OPEN accepted: the lock is taken. -/
def World.openTakes (w : World) (h : Half) (r source len : Nat) (tech : Bool) : World :=
  let v := w.free.1
  let w := w.free.2
  let no := v.toNat % 65536
  let w := w.updSess h r { source := source, no := no, len := len, written := [], at_ := w.now, tech := tech }
  let w := ((w.wr h F.UPD_SESS.STATE r 1).wr h F.UPD_SESS.KIND r (source / 2 ^ 28)).wr h F.UPD_SESS.BLOCKS r 0
  ((w.updRes h 0).wr h F.UPD_RESULT.SESSION 0 no).raise h 248 (evArg r 0xFF 0)

/-- The decision on an OPEN. -/
def State.upOpen (s : State) (h : Half) (r source len : Nat) (tech : Bool) : State :=
  let res := s.openRefused h r len
  let res := if res = 0 then s.w.lockRefusal h r source else res
  s.onW fun w => if res = 0 then w.openTakes h r source len tech else w.openFails h r res

/-- OPEN, from the network or from the registers (the 16 bytes at UPD_REQ_ADDR). A network request is not accepted while NET_EN is 0. -/
def execUpdOpen (h : Half) (r : Nat) (net : Option UpdOpen) (s : State) : Out :=
  let w := s.w
  .next (s.when ((w.run.get h).running && 1 ≤ r && r ≤ 7) fun s =>
    match net with
    | some o => s.when (w.flag h F.UPD_CTRL.NET_EN) fun s => s.upOpen h r (2 * 2 ^ 28 + o.tag % 2 ^ 28) o.len o.tech
    | none =>
      let p := w.getMem h 0 (w.rd h F.UPD_REQ_ADDR.ADDR) 16
      s.upOpen h r (2 ^ 28 + u32At p 0 % 2 ^ 28) (u64At p 4) false)

/-- Before the first block of a session over a running image (R500): the objects handed over, or released where the sibling is absent;
stage Update. -/
def State.leaveForUpdate (s : State) (h : Half) : State :=
  let s := if s.own.alive h.other then s.handoverAllNow h
    else (s.forAll (s.own.ownedBy h) fun s k => s.orphan k h)
  s.onW fun w => w.wr h F.STW_STAGE.STAGE 0 4

/-- The region loses its VALID flag before its first block; a Roast's PENDING slot is no longer valid (R77, R500, R504). -/
def World.clearValid (w : World) (h : Half) (r len : Nat) : World :=
  let x := w.region h r
  let w := w.setRegion h r { x with img := [], len := len, valid := false }
  w.when (r = 6) fun w => { w with roast := w.roast.upd h fun q => { q with pending := {} } }

/-- The code that refuses a block, or 0 (R501). -/
def World.blockRefused (w : World) (h : Half) (r : Nat) (b : List Byte) : Nat :=
  let x := w.sess h r
  let n := u16At b 8
  let i := u32At b 4
  if w.sessState h r ≠ 1 || x.no ≠ u16At b 0 then 8
  else if u32At b 12 ≠ crc32c (b.take 12 ++ slice b 16 n) then 9
  else if n = 0 || 4096 < n || x.len < 4096 * i + n || (n ≠ 4096 && 4096 * i + n ≠ x.len) then 10
  else if x.written.contains i then 11
  else 0

/-- A block of a region: written, or refused. -/
def State.upBlock (s : State) (h : Half) (r : Nat) (b : List Byte) : State :=
  let w := s.w
  let res := w.blockRefused h r b
  if res ≠ 0 then
    s.onW fun w =>
      let w := (w.updRes h res).when (res = 9) fun w => w.bump h F.UPD_CNT.CRC
      w.when (res ≠ 8) fun w => w.updSess h r { w.sess h r with at_ := w.now }
  else
    let x := w.sess h r
    let i := u32At b 4
    let first := x.written.isEmpty
    let s := s.when (first && overRunning r) (·.leaveForUpdate h)
    s.onW fun w =>
      let w := w.when first fun w => w.clearValid h r x.len
      let g := w.region h r
      let w := w.setRegion h r { g with img := g.img.writeN (4096 * i) (slice b 16 (u16At b 8)) }
      let w := w.updSess h r { x with written := i :: x.written, at_ := w.now }
      (w.wr h F.UPD_SESS.BLOCKS r (satTo 24 (x.written.length + 1))).updRes h 0

/-- BLOCK, from the network or at UPD_REQ_ADDR. -/
def execUpdBlock (h : Half) (r : Nat) (net : Option (List Byte)) (s : State) : Out :=
  let w := s.w
  .next (s.when ((w.run.get h).running && 1 ≤ r && r ≤ 7 && (net.isNone || w.flag h F.UPD_CTRL.NET_EN)) fun s =>
    let a := w.rd h F.UPD_REQ_ADDR.ADDR
    s.upBlock h r (net.getD (w.getMem h 0 a (16 + u16At (w.getMem h 0 a 16) 8))))

/-- CLOSE: the check begins (R502). -/
def execUpdClose (h : Half) (r : Nat) (net : Bool) (s : State) : Out := lift s fun w =>
  w.when ((w.run.get h).running && 1 ≤ r && r ≤ 7 && (!net || w.flag h F.UPD_CTRL.NET_EN)) fun w =>
    if w.sessState h r = 1 then
      let w := w.updSess h r { w.sess h r with at_ := w.now }
      (w.wr h F.UPD_SESS.STATE r 2).wr h F.UPD_RESULT.BUSY 0 1
    else w.updRes h 8

/-- The stage returns from Update when no session that has written a block holds the half (R90). -/
def World.updStageEnd (w : World) (h : Half) : World :=
  w.when (w.rd h F.STW_STAGE.STAGE = 4 &&
      !(List.range' 1 5).any (fun r => w.sessOpen h r && !(w.sess h r).written.isEmpty)) fun w =>
    w.wr h F.STW_STAGE.STAGE 0 1

/-- A session ends: its state, its result, its lock. -/
def World.sessEnd (w : World) (h : Half) (r st res : Nat) : World :=
  let w := w.updUpd h fun u => { u with sess := NMap.del u.sess r }
  (((w.wr h F.UPD_SESS.STATE r st).updRes h res).raise h 248 (evArg r 0xFF res)).updStageEnd h

/-- EVT_ROAST_REJECT (R71, R589). -/
def World.roastReject (w : World) (h : Half) (v : Verdict) : World :=
  w.raise h 10 (evArg v.idx v.sec v.res)

/-- The check of regions 1–5 has succeeded (R503): VALID, the floor, EVT_UPD_ACTIVE; the half restarts when it can. -/
def World.imageActive (w : World) (h : Half) (r : Nat) (restored : Bool) (img : List Byte) : World :=
  let rb := byteAt img 12
  let w := w.updUpd h fun u => { u with vault := { u.vault with floors := NMap.upd 0 u.vault.floors r (max rb ·) }, restart := true }
  let x := w.region h r
  let w := w.setRegion h r { x with valid := true, restored := restored, rb := rb, ver := u32At img 8 }
  w.raise h 249 (evArg r 0xFF 0)

/-- The end of a ROAST check: the verdict in UPD_RESULT.ROAST; a valid Roast stands in PENDING (R75, R77). -/
def World.roastChecked (w : World) (h : Half) (tech : Bool) : World :=
  let img := (w.region h 6).bytes
  let v := verify (w.verEnv h tech) img
  let w := w.wr h F.UPD_RESULT.ROAST 0 v.res
  if v.res = 0 then
    let w := { w with roast := w.roast.upd h fun q => { q with pending := { image := img, valid := true, digest := digestOf img } } }
    let x := w.region h 6
    ((w.setRegion h 6 { x with valid := true, restored := false }).raise h 249 (evArg 6 0xFF 0)).sessEnd h 6 5 0
  else
    let w := { w with roast := w.roast.upd h fun q => { q with pending := { q.pending with valid := false } } }
    let x := w.region h 6
    ((w.setRegion h 6 { x with valid := false }).roastReject h v).sessEnd h 6 6 17

/-- The end of a KEYS check: the records apply at once in both halves, or none does (R503, R510). -/
def World.keysChecked (w : World) (h : Half) : World :=
  let img := (w.region h 7).bytes
  match keyRecs img.length img with
  | none => (w.raise h 251 (evArg 7 0xFF 13)).sessEnd h 7 6 13
  | some recs =>
    match applyKeys w.devId w.keysInUse recs (w.upd.get h).vault with
    | .error e => (w.raise h 251 (evArg 7 0xFF e)).sessEnd h 7 6 e
    | .ok v =>
      let w := w.keysApplied h v recs.length
      let w := match applyKeys w.devId w.keysInUse recs (w.upd.get h.other).vault with
        | .ok v' => w.keysApplied h.other v' recs.length
        | .error _ => w
      let x := w.region h 7
      ((w.setRegion h 7 { x with valid := true, restored := false }).raise h 249 (evArg 7 0xFF 0)).sessEnd h 7 5 0

/-- The check of R502 and what follows it. -/
def World.checked (w : World) (h : Half) (r : Nat) : World :=
  let x := w.sess h r
  if !(List.range (blockCount x.len)).all (fun i => x.written.contains i) || x.written.isEmpty then w.sessEnd h r 6 12
  else if r = 6 then w.roastChecked h x.tech
  else if r = 7 then w.keysChecked h
  else
    let img := (w.region h r).bytes
    let res := imageCheck (w.upd.get h).vault r img
    if res ≠ 0 then w.sessEnd h r 6 res
    else ((w.imageActive h r false img).wr h F.UPD_SESS.STATE r 3).updRes h 0

/-- The check of an image ends. -/
def execUpdCheckComplete (h : Half) (r : Nat) (s : State) : Out := lift s fun w =>
  w.when ((w.run.get h).running && w.sessState h r = 2 && 1 ≤ r && r ≤ 7) (·.checked h r)

/-- A session Knocked (R504), with the result that tells why. -/
def World.knockSess (w : World) (h : Half) (r why : Nat) : World :=
  if w.sessState h r = 3 || w.sessState h r = 4 then w.updRes h 20
  else if w.sessOpen h r then (w.bump h F.UPD_CNT.KNOCKS).sessEnd h r 6 why
  else w.updRes h 8

/-- ABORT. -/
def execUpdAbort (h : Half) (r : Nat) (net : Bool) (s : State) : Out := lift s fun w =>
  w.when ((w.run.get h).running && 1 ≤ r && r ≤ 7 && (!net || w.flag h F.UPD_CTRL.NET_EN)) fun w => w.knockSess h r 18

/-- A session without a request for 60 s. -/
def execUpdSessionTimeout (h : Half) (r : Nat) (s : State) : Out := lift s fun w =>
  w.when ((w.sessState h r = 1 || w.sessState h r = 2) && (w.sess h r).at_ + 60 * sec ≤ w.now) fun w => w.knockSess h r 19

/-- UPD_CTRL.CLR_CNT. -/
def execUpdClrCnt (h : Half) (_init : Nat) (s : State) : Out := lift s fun w => w.setReg h F.UPD_CNT.REFUSED 0 0

/-! Sibling restore (R506, R507). -/

/-- The occasion of a restore: the region is invalid, or older than that of a sibling whose Bloom is complete. -/
def World.restoreDue (w : World) (h : Half) (r : Nat) : Bool :=
  let sib := w.region h.other r
  w.flag h F.XNG_STATUS.UP && sib.valid &&
    (!(w.region h r).valid || ((w.region h r).ver < sib.ver && w.flag h.other F.STW_STAGE.BLOOM_DONE))

/-- What refuses a SIBLING session: R497; a half that owns nothing writes over no running image. -/
def State.restoreRefused (s : State) (h : Half) (r : Nat) : Nat :=
  let len := (s.w.region h.other r).len
  let res := s.openRefused h r len
  let res := if (res = 3 || res = 4) && (s.own.ownedBy h).isEmpty then 0 else res
  if res ≠ 0 then res else if s.w.sessOpen h r then (if s.w.sessState h r = 1 then 1 else 2) else 0

/-- The region taken from the sibling, checked under R502 before VALID is set. -/
def World.restored (w : World) (h : Half) (r : Nat) : World :=
  let sib := w.region h.other r
  let w := (w.bump h F.UPD_CNT.RESTORES).setRegion h r { img := sib.img, len := sib.len, valid := false, restored := true }
  let res := imageCheck (w.upd.get h).vault r sib.bytes
  if res ≠ 0 then ((w.raise h 250 (evArg r 0xFF res)).sessEnd h r 6 res)
  else (((w.imageActive h r true sib.bytes).wr h F.UPD_SESS.STATE r 3).updRes h 0).raise h 250 (evArg r 0xFF 0)

/-- A restore: a session of kind SIBLING; the sibling's blocks come over the Crossing. -/
def execSiblingRestore (h : Half) (r : Nat) (s : State) : Out :=
  .next (s.when ((s.w.run.get h).running && overRunning r && s.w.restoreDue h r) fun s =>
    let res := s.restoreRefused h r
    if res ≠ 0 then s.onW fun w => w.openFails h r res
    else
      let s := s.onW fun w => (w.openTakes h r (3 * 2 ^ 28) (w.region h.other r).len false).raise h 250 (evArg r 0xFF 0)
      let s := s.leaveForUpdate h
      s.onW (·.restored h r))

/-! The debug port (R511, R512). -/

/-- A new nonce. -/
def World.drawNonce (w : World) (h : Half) : World :=
  let v := w.free.1
  let w := w.free.2
  (w.updUpd h fun u => { u with nonce := v.toNat }).wr h F.KEY_NONCE.NONCE 0 v.toNat

/-- The checks of an unlock token, in order: 0, or the code of the first failure. -/
def World.tokenCheck (w : World) (h : Half) (t : List Byte) : Nat :=
  let v := (w.upd.get h).vault
  let na := u64At t 28
  if !w.inService h then 1
  else if w.rd h F.TIM_STATUS.STATE ≠ 1 then 2
  else if slice t 4 16 ≠ v.serial then 3
  else if u32At t 24 ≠ (w.upd.get h).nonce then 4
  else if na ≤ w.mt h || w.mt h + 8 * 3600 * sec < na then 5
  else if t.take 4 ≠ bytesOf [0x45, 0x58, 0x44, 0x42] || !allZero (slice t 21 3) then 6
  else match v.key 5 (u32At t 36) with
    | none => 6
    | some k => if Config.ecdsaValid k.key (Config.sha384 (t.take 40)) (slice t 40 96) then 0 else 6

/-- KEY_DBG_CMD.OPEN with the token at KEY_DBG_ADDR. -/
def execDebugUnlock (h : Half) (s : State) : Out :=
  .next (s.when (s.w.run.get h).running fun s =>
    let t := s.w.getMem h 0 (s.w.rd h F.KEY_DBG_ADDR.ADDR) 136
    let res := s.w.tokenCheck h t
    let s := s.onW fun w => (w.drawNonce h).wr h F.KEY_DBG_STAT.RES 0 res
    if res ≠ 0 then s
    else
      let s := (s.handoverAllNow h).onW fun w =>
        ((w.updUpd h fun u => { u with dbg := some (byteAt t 20, u64At t 28) }).wr h F.KEY_STATUS.DEBUG_OPEN 0 1).raise h 251 (evArg 0xFFFF 0xFF 0)
      s.fence h)

/-- NOT_AFTER is reached: the port closes, the half is reset. -/
def execDebugExpiry (h : Half) (s : State) : Out :=
  match (s.w.upd.get h).dbg with
  | none => .next s
  | some d =>
    .next (s.when (d.2 ≤ s.w.mt h) fun s =>
      (s.onW fun w => ((w.updUpd h fun u => { u with dbg := none }).wr h F.KEY_STATUS.DEBUG_OPEN 0 0).raise h 251 (evArg 0xFFFF 0xFF 0)).hold h
        (s.w.run.get h).cause)

/-! A calibration file (R523). -/

/-- CAL_CMD RESTORE: the file at CAL_ADDR (an operand), checked with the registered image keys. -/
def execLedgerRestore (h : Half) (init mask : Nat) (f : List Byte) (s : State) : Out :=
  let v := (s.w.upd.get h).vault
  .next (restoreLedger s h init mask f ((v.keys.filter (fun k => k.kind = 1 && (v.key 1 k.id).isSome)).map (·.key)))

end Sys2Proof.Machine
end

