-- ==== Sys2Proof/Machine/Flx.lean ====
section
/-!
DEFINITION. Ethernet ports and the Fleet Exchange: links, sessions, messages, grain carts (R431–R451).
-/
namespace Sys2Proof.Machine

/-! Ports. -/

/-- The half whose sensor plane a port P0–P7 is in (R297). -/
def portHalf (k : Nat) : Half := if k % 2 = 0 then .A else .B

/-- A port's link as a half shows it. -/
def World.showLink (w : World) (h : Half) (k speed : Nat) (master : Bool) : World :=
  ((w.wr h F.ETH_PORT.LINK k (b2n (speed ≠ 0))).wr h F.ETH_PORT.SPEED k speed).wr h F.ETH_PORT.MASTER k (b2n (speed ≠ 0 && master))

/-- The speed at which a sensor port's link comes up (R431): negotiated to 2.5 or 5 Gbit/s, or FSPEED. -/
def World.sensorSpeed (w : World) (h : Half) (k speed : Nat) : Nat :=
  if speed = 0 then 0
  else if w.flag h F.ETH_PORT.FORCE k then (if w.flag h F.ETH_PORT.FSPEED k then 4 else 3)
  else if speed = 4 then 4 else 3

/-- A link goes up (`speed` 1–4) or down (0). A sensor port's PHY is MASTER; B0 is the slave, B1 the master; S0 negotiates (`master`) and
has a link only while it is enabled (R431, R433, R450). -/
def execEthLink (k speed : Nat) (master : Bool) (s : State) : Out := lift s fun w =>
  if k < 8 then
    let h := portHalf k
    w.when (w.run.get h).running fun w => (w.showLink h k (w.sensorSpeed h k speed) true).raise h 192 (evArg k 0xFF (b2n (speed = 0)))
  else if k < 11 then
    let v := if speed = 0 then 0 else if k < 10 then 2 else min speed 2
    let en := k ≠ 10 || speed = 0 || w.flag .A F.ETH_CTRL.S0_EN || w.flag .B F.ETH_CTRL.S0_EN
    let m := k = 9 || (k = 10 && master)
    w.when en fun w => ((w.showLink .A k v m).showLink .B k v m).raiseBoth 192 (evArg k 0xFF (b2n (speed = 0)))
  else w

/-- An Announce of another node: ignored, counted; the first raises EVT_ETH_GM (R435). -/
def execGmForeignAnnounce (h : Half) (k : Nat) (s : State) : Out := lift s fun w =>
  w.when ((w.run.get h).running && k < 11) fun w =>
    let first := (w.flx.get h).told.isEmpty
    let w := w.bump h F.ETH_GM.FOREIGN
    w.when first fun w => (w.updFlx h fun q => { q with told := [k] }).raise h 194 (evArg k 0xFF 0)

/-- ETH_CTRL.CLR_CNT: the port, ETH_GM and FLX_CNT counts. -/
def execEthClrCnt (h : Half) (_init : Nat) (s : State) : Out := lift s fun w =>
  let w := w.forAll (List.range 11) fun w k => (w.wr h F.ETH_PORT.ERR k 0).wr h F.ETH_PORT.DROP k 0
  (w.wr h F.ETH_GM.FOREIGN 0 0).setReg h F.FLX_CNT.AUTH 0 0

/-! Sessions. -/

/-- The Fleet Exchange of a half runs: it serves, its application cluster runs, EN is set (R41, R437). -/
def State.flxRuns (s : State) (h : Half) : Bool :=
  s.own.serves h && (s.w.run.get h).running && s.w.flag h F.FLX_CTRL.EN

/-- The peers and the active cart mirrored to the sibling (R445, R447, R448). -/
def World.flxMirror (w : World) (h : Half) : World :=
  let q := w.flx.get h
  w.when (w.flag h F.XNG_STATUS.UP && (w.run.get h.other).running) fun w =>
    (w.updFlx h.other fun o => { o with peers := q.peers, cart := q.cart }).wr h.other F.FLX_YLD.ACKED 0 (w.rd h F.FLX_YLD.ACKED)

/-- A cart becomes active, or none (R445): EVT_FLX_CART. -/
def World.cartActive (w : World) (h : Half) (k : Option Nat) : World :=
  let dev := k.map (fun k => (w.fsess h k).dev)
  let w := w.updFlx h fun q => { q with cart := dev }
  let w := ((w.wr h F.FLX_CART.ACTIVE 0 (k.getD 0xF)).wr h F.FLX_CART.STALE 0 0).wr h F.FLX_CART.MODE 0 0
  (w.raise h 198 (evArg (k.getD 0xFFFF) 0xFF 0)).flxMirror h

/-- The session of a slot ends, with the reason of its CLOSE (R443). -/
def World.flxClose (w : World) (h : Half) (k reason : Nat) : World :=
  let was := w.fstate h k = 3
  let w := w.when was fun w => w.flxSend h k 3 (leBytes reason 4)
  let open_ := w.rd h F.FLX_STATUS.OPEN
  let w := w.updFlx h fun q => { q with slot := NMap.del q.slot k, peers := q.peers.filter (fun p => p.1 ≠ k) }
  let w := ((((w.wr h F.FLX_SESS.STATE k 0).wr h F.FLX_SESS.ROLE k 0).wr h F.FLX_SESS.CLIENT k 0).wr h F.FLX_SESS.CLOSE k reason).wr h
    F.FLX_SESS.UNACKED k 0
  let w := w.wr h F.FLX_STATUS.OPEN 0 (if bitOf open_ k then open_ - 2 ^ k else open_)
  let w := (w.when was fun w => w.raise h 195 (evArg k 0xFF 0)).flxMirror h
  w.when (w.rd h F.FLX_CART.ACTIVE = k) fun w => w.cartActive h none

/-- FLX_PEER_CMD.OPEN: slot `k` as client to FLX_PEER_IP and the port (R438); none without a device certificate (R509). -/
def execFlxOpen (h : Half) (k port : Nat) (s : State) : Out := lift s fun w =>
  w.when (s.flxRuns h && k < 16 && w.fstate h k = 0 && w.flag h F.KEY_STATUS.CERT_OK) fun w =>
    w.flxConnect h k (w.rd h F.FLX_PEER_IP.ADDR) (port % 65536)

/-- FLX_PEER_CMD.CLOSE: reason NORMAL. -/
def execFlxClose (h : Half) (k : Nat) (s : State) : Out := lift s fun w =>
  w.when (s.flxRuns h && k < 16 && w.fstate h k ≠ 0) fun w => w.flxClose h k 1

/-- A connection `c` on port 47100: it waits for its HELLO, which names its role (R438). -/
def execFlxAccept (h : Half) (c ip : Nat) (s : State) : Out := lift s fun w =>
  w.when (s.flxRuns h && w.flag h F.KEY_STATUS.CERT_OK) fun w =>
    w.updFlx h fun q => { q with conn := NMap.put q.conn c { ip := ip, keyAt := w.now, lastTx := w.now, lastRx := w.now } }

/-- The module's HELLO (R443). -/
def World.helloPayload (w : World) (h : Half) : List Byte :=
  bytesOf [1, 0, 0, 0] ++ w.devId ++ machineId (w.roast.get h).active.image ++ leBytes (w.rd h F.UPD_VER.VERSION 1) 4 ++
    leBytes (w.roastPrefix h) 8

/-- A certificate refused: counted, told (R440). -/
def World.flxAuth (w : World) (h : Half) (k : Nat) : World := (w.bump h F.FLX_CNT.AUTH).raise h 196 (evArg k 0xFF 0)

/-- A handshake ends: of slot `k` where the module is client, else of connection `k`. The peer's certificate chains to anchor
`anchor`, is within its validity period or not, carries `serial` (R440). The period counts only while module time is set. -/
def execFlxHandshakeComplete (h : Half) (client : Bool) (k anchor : Nat) (inPeriod : Bool) (serial : List Byte) (s : State) : Out :=
  lift s fun w =>
    let unset := w.rd h F.TIM_STATUS.STATE = 0 || w.rd h F.TIM_STATUS.STATE = 4
    let ok := ((w.upd.get h).vault.key 3 anchor).isSome && (unset || inPeriod)
    w.when (s.flxRuns h) fun w =>
      let w := w.wr h F.FLX_STATUS.TIME_UNCHECKED 0 (b2n unset)
      if client then
        w.when (k < 16 && w.fstate h k = 1) fun w =>
          if ok then
            let w := (w.setFsess h k { w.fsess h k with cert := some serial, keyAt := w.now, lastRx := w.now }).wr h F.FLX_SESS.STATE k 2
            w.flxSend h k 1 (w.helloPayload h)
          else (w.flxAuth h k).flxClose h k 7
      else
        match (w.flx.get h).conn.find? (fun e => e.1 = k) with
        | none => w
        | some e =>
          if ok then
            let x : Sess := { e.2 with cert := some serial, keyAt := w.now, lastRx := w.now }
            let x := x.send w.now 1 (w.helloPayload h)
            w.updFlx h fun q => { q with conn := NMap.put q.conn k x }
          else (w.flxAuth h 0xFFFF).updFlx h fun q => { q with conn := NMap.del q.conn k }

/-! HELLO (R438, R440, R441, R448). -/

/-- The slots of a role. -/
def roleSlots : Nat → List Nat
  | 1 => List.range' 4 12
  | 2 => [1, 2, 3]
  | 3 => [0]
  | _ => []

/-- The DEVICE_ID of a session's TLS client. -/
def World.clientId (w : World) (x : Sess) (peer : List Byte) : List Byte := if x.client then w.devId else peer

/-- Bytewise order. -/
def bytesLt (a b : List Byte) : Bool := a.length = b.length && beNat a < beNat b

/-- A session is placed: OPEN, its role; the server's tiles follow; the mirrored active cart is active again. -/
def World.flxPlace (w : World) (h : Half) (k role : Nat) (x : Sess) : World :=
  let w := w.setFsess h k x
  let w := (((w.wr h F.FLX_SESS.STATE k 3).wr h F.FLX_SESS.ROLE k role).wr h F.FLX_SESS.CLIENT k (b2n x.client)).wr h
    F.FLX_STATUS.OPEN 0 (if bitOf (w.rd h F.FLX_STATUS.OPEN) k then w.rd h F.FLX_STATUS.OPEN else w.rd h F.FLX_STATUS.OPEN + 2 ^ k)
  let w := w.when x.client fun w => w.updFlx h fun q => { q with peers := q.peers.filter (fun p => p.1 ≠ k) ++ [(k, x.ip, x.port)] }
  let w := (w.raise h 195 (evArg k 0xFF 1)).flxMirror h
  let w := w.when (role = 2 && (w.flx.get h).cart = some x.dev && w.rd h F.FLX_CART.ACTIVE = 0xF) fun w => w.cartActive h (some k)
  w.flxTiles h

/-- A session that is refused at its HELLO. -/
def World.flxDrop (w : World) (h : Half) (client : Bool) (k reason : Nat) : World :=
  if client then w.flxClose h k reason else w.updFlx h fun q => { q with conn := NMap.del q.conn k }

/-- The decision on a HELLO of a session `x` (slot or connection `k`). -/
def World.flxHello (w : World) (h : Half) (client : Bool) (k role ver : Nat) (dev : List Byte) (x : Sess) : World :=
  if ver ≠ 1 then w.flxDrop h client k 4
  else if x.cert ≠ some dev then (w.flxAuth h (if client then k else 0xFFFF)).flxDrop h client k 7
  else
    let x := { x with dev := dev, seqRx := 1, lastRx := w.now }
    let dup := (List.range 16).find? (fun j => w.fstate h j = 3 && (w.fsess h j).dev = dev && !(client && j = k))
    let lose := dup.any (fun j => !bytesLt (w.clientId x dev) (w.clientId (w.fsess h j) dev))
    let w := w.when dup.isSome fun w => (w.bump h F.FLX_CNT.DUP).raise h 197 (evArg (dup.getD 0) 0xFF 0)
    if lose then w.flxDrop h client k 3
    else
      let w := match dup with
        | some j => w.flxClose h j 3
        | none => w
      if client then w.flxPlace h k role x
      else match (roleSlots role).find? (fun j => w.fstate h j = 0) with
        | none => w.flxDrop h client k 6
        | some j => (w.updFlx h fun q => { q with conn := NMap.del q.conn k }).flxPlace h j role x

/-- A HELLO on slot `k` (the module is client) or on the accepted connection `k`. -/
def execHello (h : Half) (client : Bool) (k role ver : Nat) (dev : List Byte) (s : State) : Out := lift s fun w =>
  w.when (s.flxRuns h) fun w =>
    if client then w.when (k < 16 && w.fstate h k = 2) fun w => w.flxHello h client k role ver dev (w.fsess h k)
    else match (w.flx.get h).conn.find? (fun e => e.1 = k) with
      | none => w
      | some e => w.flxHello h client k role ver dev e.2

/-! Messages received. -/

/-- The server's ACK moves FLX_YLD to the last tile of the messages it covers (R447). -/
def World.flxAcked (w : World) (h : Half) (k ack : Nat) : World :=
  let x := w.fsess h k
  let done := x.unacked.filter (fun u => u.1 ≤ ack)
  let w := w.setFsess h k { x with unacked := x.unacked.filter (fun u => ack < u.1) }
  let last := done.foldl (fun a u => max a u.2) (w.rd h F.FLX_YLD.ACKED)
  (w.when (k = 0) fun w => w.wr h F.FLX_YLD.ACKED 0 last).flxUnacked h k |>.flxMirror h

/-- A message taken on an open session: ACK, in-order SEQ, the instant. -/
def World.flxTake (w : World) (h : Half) (k seq ack : Nat) : World :=
  let w := w.flxAcked h k ack
  let x := w.fsess h k
  w.setFsess h k { x with lastRx := w.now, seqRx := if seq = x.seqRx + 1 then seq else x.seqRx }

/-- CART_STATE of the cart in slot `k` (R445, R446). -/
def World.cartState (w : World) (h : Half) (k : Nat) (p : List Byte) : World :=
  w.when (1 ≤ k && k ≤ 3 && p.length = 32) fun w =>
    let w := w.setFsess h k { w.fsess h k with cartAt := w.now }
    let mode := byteAt p 22
    if w.rd h F.FLX_CART.ACTIVE = k then
      if mode = 3 then w.cartActive h none
      else (w.wr h F.FLX_CART.MODE 0 mode).wr h F.FLX_CART.STALE 0 0
    else
      w.when (bitOf (byteAt p 23) 0 && mode ≠ 3) fun w => w.updFlx h fun q => { q with asks := q.asks ++ [(k, (w.fsess h k).dev)] }

/-- What a message's type does; an unknown one is discarded. -/
def World.flxAct (w : World) (h : Half) (k ty : Nat) (p : List Byte) : World :=
  if ty = 3 then w.flxClose h k (u32At p 0)
  else if ty = 0x12 && k = 0 then w.takeFrame h 2 p
  else if ty = 0x21 then w.cartState h k p
  else w

/-- A message on an open session. -/
def State.flxGot (s : State) (h : Half) (k ty seq ack : Nat) (p : List Byte) : Out := lift s fun w =>
  w.when (s.flxRuns h && k < 16 && w.fstate h k = 3) fun w => (w.flxTake h k seq ack).flxAct h k ty p

/-- A Fleet Exchange message of any type (R442, R443). -/
def execFlxMessageReceived (h : Half) (k ty seq ack : Nat) (p : List Byte) (s : State) : Out := s.flxGot h k ty seq ack p

/-- RTCM from the server: correction source 2 (R377, R443). -/
def execRtcm (h : Half) (seq ack : Nat) (frame : List Byte) (s : State) : Out := s.flxGot h 0 0x12 seq ack frame

/-- CART_STATE from a cart. -/
def execCartState (h : Half) (k seq ack : Nat) (p : List Byte) (s : State) : Out := s.flxGot h k 0x21 seq ack p

/-! Time-driven messages. -/

/-- Nothing sent for 1 s (R442). -/
def execFlxHeartbeatSend (h : Half) (k : Nat) (s : State) : Out := lift s fun w =>
  w.when (s.flxRuns h && k < 16 && w.fstate h k = 3 && (w.fsess h k).lastTx + sec ≤ w.now) fun w => w.flxSend h k 2 []

/-- Nothing received for 5 s (R442). -/
def execFlxSessionTimeout (h : Half) (k : Nat) (s : State) : Out := lift s fun w =>
  w.when (s.flxRuns h && k < 16 && w.fstate h k ≠ 0 && (w.fsess h k).lastRx + 5 * sec ≤ w.now) fun w =>
    (w.bump h F.FLX_CNT.TIMEOUT).flxClose h k 2

/-- 2^24 records or 1 h (R439). -/
def execFlxKeyUpdate (h : Half) (k : Nat) (s : State) : Out := lift s fun w =>
  let x := w.fsess h k
  w.when (s.flxRuns h && k < 16 && w.fstate h k = 3 && (2 ^ 24 ≤ x.records || x.keyAt + 3600 * sec ≤ w.now)) fun w =>
    w.setFsess h k { x with records := 0, keyAt := w.now, updates := x.updates + 1 }

/-- The output of a function is nonzero. -/
def World.outNonzero (w : World) (h : Half) (n : Nat) : Bool := f32Val (w.rd h F.SET_MF_OUT.VALUE n) ≠ 0

/-- The STATUS payload (R443). -/
def World.statusPayload (w : World) (h : Half) : List Byte :=
  let flags := b2n (w.flag h F.GNS_STATUS.TRUSTED) + 2 * b2n (w.flag h F.SET_STEER_STATUS.ENGAGED) +
    4 * b2n (w.flag h F.SET_YLD_STATUS.CUTTING) + 8 * b2n (w.outNonzero h 29)
  leBytes (w.mt h) 8 ++ leBytes (w.rd h F.SET_STATE.STATE) 1 ++ leBytes (w.rd h F.SET_STATUS.GRADE) 1 ++ leBytes (w.rd h F.GNS_STATUS.Q) 1 ++
    leBytes flags 1 ++ slice (((w.pose.get h).getD {}).bytes) 8 20 ++ leBytes (w.rd h F.SET_YLD_TANK.VALUE) 4

/-- STATUS at 1 Hz to the server and the combines. -/
def execStatus (h : Half) (s : State) : Out := lift s fun w =>
  w.when (s.flxRuns h) fun w =>
    let p := w.statusPayload h
    w.forAll ((0 :: List.range' 4 12).filter (fun k => w.fstate h k = 3)) fun w k => w.flxSend h k 0x11 p

/-- The CART_SYNC payload of instant `t` for slot `k` (R444). -/
def World.cartPayload (w : World) (h : Half) (t k : Nat) : List Byte :=
  let b := ((w.pose.get h).getD {}).bytes
  let active := w.rd h F.FLX_CART.ACTIVE = k
  let flags := b2n (w.flag h F.GNS_STATUS.TRUSTED) + 2 * b2n active + 4 * b2n (f32Val (w.rd h F.SET_MF_OUT.VALUE 28) = 1) +
    8 * b2n (w.outNonzero h 29)
  leBytes t 8 ++ slice b 8 8 ++ slice b 24 4 ++ slice b 32 2 ++ slice b 40 1 ++ leBytes flags 1 ++ leBytes (w.rd h F.FLX_SPOUT.X) 2 ++
    leBytes (w.rd h F.FLX_SPOUT.Y) 2 ++ leBytes (w.rd h F.SET_YLD_TANK.VALUE) 4 ++ slice b 34 2 ++ leBytes 0 14

/-- The cart that the requests of a 50 ms interval make active: that of the lowest DEVICE_ID, while none is active (R445). -/
def World.cartChoose (w : World) (h : Half) : World :=
  let asks := (w.flx.get h).asks.filter (fun a => w.fstate h a.1 = 3)
  let w := w.updFlx h fun q => { q with asks := [] }
  if w.rd h F.FLX_CART.ACTIVE ≠ 0xF then w
  else match asks with
    | [] => w
    | a :: t => w.cartActive h (some (t.foldl (fun m x => if bytesLt x.2 m.2 then x else m) a).1)

/-- CART_SYNC at a multiple of 50 ms to every open cart session. -/
def execCartSync (h : Half) (s : State) : Out := lift s fun w =>
  w.when (s.flxRuns h) fun w =>
    let w := w.cartChoose h
    let t := w.mt h / (50 * ms) * (50 * ms)
    w.forAll ([1, 2, 3].filter (fun k => w.fstate h k = 3)) fun w k => w.flxSend h k 0x20 (w.cartPayload h t k)

/-- No CART_STATE of the active cart for 250 ms (R446). -/
def execCartStale (h : Half) (s : State) : Out := lift s fun w =>
  let k := w.rd h F.FLX_CART.ACTIVE
  w.when (s.flxRuns h && k ≠ 0xF && !w.flag h F.FLX_CART.STALE && (w.fsess h k).cartAt + 250 * ms ≤ w.now) fun w =>
    (w.wr h F.FLX_CART.STALE 0 1).raise h 198 (evArg k 0xFF 1)

/-- FLX_CART_CMD.SEL: the cart in the slot becomes active. -/
def execCartSelect (h : Half) (_init k : Nat) (s : State) : Out := lift s fun w =>
  let w := w.wr h F.FLX_CART_CMD.SLOT 0 k
  w.when (s.flxRuns h && 1 ≤ k && k ≤ 3 && w.fstate h k = 3) fun w => w.cartActive h (some k)

/-- FLX_CART_CMD.RELEASE. -/
def execCartRelease (h : Half) (_init : Nat) (s : State) : Out := lift s fun w =>
  w.when (s.flxRuns h && w.rd h F.FLX_CART.ACTIVE ≠ 0xF) fun w => w.cartActive h none

/-- Every session of a half closed at shutdown (R449). -/
def World.flxShutdown (w : World) (h : Half) : World :=
  w.forAll ((List.range 16).filter (fun k => w.fstate h k ≠ 0)) fun w k => w.flxClose h k 5

end Sys2Proof.Machine
end

