-- ==== Sys2Proof/Machine/FnIn.lean ====
section
/-!
DEFINITION. What a machine function reads: its objects and the half it runs in, conditions, interlocks, twins, schedules, set-point and
feed-forward (R123, R124, R126, R133, R137–R142).
-/
namespace Sys2Proof.Machine

/-! Records and state. -/

/-- The FUNC section a half runs. -/
def World.funcs (w : World) (h : Half) : FuncSec := (w.set.get h).sec

/-- The record of function `n`. -/
def World.func (w : World) (h : Half) (n : Nat) : Func := (w.funcs h).recs.getD n {}

/-- The state of function `n` in a half. -/
def World.fn (w : World) (h : Half) (n : Nat) : FnSt := NMap.get {} (w.set.get h).fn n

/-- The Setting Engine of a half changed. -/
def World.updSet (w : World) (h : Half) (f : SetEng → SetEng) : World := { w with set := w.set.upd h f }

/-- The state of function `n` changed. -/
def World.updFn (w : World) (h : Half) (n : Nat) (f : FnSt → FnSt) : World :=
  w.updSet h fun e => { e with fn := NMap.upd {} e.fn n f }

/-- The period of a rate class (R132), ns. -/
def ratePeriod : Nat → Nat
  | 0 => ms
  | 1 => 5 * ms
  | 2 => 20 * ms
  | _ => 100 * ms

/-- The period of a rate class, s. -/
def rateDt (rate : Nat) : Rat := ((ratePeriod rate : Nat) : Rat) / 1000000000

/-- The CAN channel of a signal. -/
def World.sigChan (w : World) (ref : Nat) : Nat :=
  (w.can.sec.msgs.getD ((w.can.sec.sigs.getD (bitsOf ref 0 12) {}).msg) {}).ch

/-- The output objects of a function (R124): those its record names, the CAN channel of its signal, or those of the function it writes. -/
def World.fnObjs (w : World) (h : Half) : Nat → Nat → List Nat
  | 0, _ => []
  | k + 1, n =>
    let r := w.func h n
    if !r.used then []
    else if r.outKind = 6 then [objC (w.sigChan r.outRef)]
    else if r.outKind = 7 then World.fnObjs w h k r.outRef
    else r.outs

/-- A function runs in the half that owns its output objects (R124); one without objects runs in the serving half. -/
def World.fnRuns (w : World) (own : Own) (h : Half) (n : Nat) : Bool :=
  let l := w.fnObjs h 31 n
  (w.func h n).used && (if l.isEmpty then own.serves h else l.all (own.owns h))

/-- The operating state of a half's copy (R125). -/
def World.opState (w : World) (h : Half) : Nat := w.rd h F.SET_STATE.STATE

/-- The grade of a half (R140). -/
def World.gradeOf (w : World) (h : Half) : Nat := w.rd h F.GRD_STATUS.GRADE

/-- The last output of a function, before mapping. -/
def World.mfOut (w : World) (h : Half) (n : Nat) : Rat := f32Val (w.rd h F.SET_MF_OUT.VALUE n)

/-- A binding's quality. -/
def World.bq (w : World) (h : Half) (ref : Nat) : Nat := w.rd h F.UIN_BQ.QUALITY (refIndex ref)

/-- A binding's value. -/
def World.bv (w : World) (h : Half) (ref : Nat) : Rat := w.bval h (refIndex ref)

/-! Interlocks and guards (R138, R586). -/

/-- The condition of a TYPE other than 0. -/
def World.condHolds (w : World) (h : Half) (c : Cond) : Bool :=
  match c.type_ with
  | 1 => bitOf (floorN c.thresh) (w.opState h)
  | 2 => c.thresh < w.bv h c.ref
  | 3 => w.bv h c.ref < c.thresh
  | 4 => w.mfOut h c.ref ≠ 0
  | 5 => w.bq h c.ref ≠ 0
  | 6 => w.stopCond h c.ref c.thresh
  | _ => false

/-- A guard is true; one of TYPE 0 always (R586). -/
def World.guardHolds (w : World) (h : Half) (c : Cond) : Bool := c.type_ = 0 || w.condHolds h c

/-- An interlock looked at in a cycle (R138): it becomes active with EVT_SET_INTERLOCK; the instant since when its condition is false. -/
def World.ilkStep (w : World) (h : Half) (n i : Nat) : World :=
  let c := (w.func h n).ilk.getD i {}
  let x := w.fn h n
  if c.type_ = 0 then w
  else if w.condHolds h c then
    let was := x.ilkOn.getD i false
    let w := w.updFn h n fun x => { x with ilkOn := listSet x.ilkOn i true, ilkOff := listSet x.ilkOff i none }
    w.when (!was) fun w => w.raise h 242 (evArg n i c.action)
  else if x.ilkOn.getD i false && (x.ilkOff.getD i none).isNone then
    w.updFn h n fun x => { x with ilkOff := listSet x.ilkOff i (some w.now) }
  else w

/-- An interlock with an action is active. -/
def World.ilkActive (w : World) (h : Half) (n action : Nat) : Bool :=
  (List.range 4).any (fun i => (w.fn h n).ilkOn.getD i false && ((w.func h n).ilk.getD i {}).action = action)

/-- The condition has been false for 200 ms (R138): the interlock releases. -/
def execInterlockRelease (h : Half) (n i : Nat) (s : State) : Out := lift s fun w =>
  w.when (n < 30 && i < 4) fun w =>
    match (w.fn h n).ilkOff.getD i none with
    | some t =>
      w.when (t + 200 * ms ≤ w.now) fun w =>
        w.updFn h n fun x => { x with ilkOn := listSet x.ilkOn i false, ilkOff := listSet x.ilkOff i none }
    | none => w

/-! Twins (R141, R142). -/

/-- The choice of a process value: the value, RESOLVED, TWIN_SEL, CONFLICT, and the policy that the override table applies (1 HOLD,
2 MANUAL). -/
structure PvSel where
  pv : Rat
  resolved : Nat := 0
  sel : Nat := 0
  conflict : Bool := false
  policy : Nat := 0
deriving DecidableEq, Repr

/-- The tolerance of a twin pair (R257). -/
def World.twinTol (w : World) (a b : Nat) : Rat :=
  ((w.uin.cfg.twins.find? (fun t => (t.a = refIndex a && t.b = refIndex b) || (t.b = refIndex a && t.a = refIndex b))).map (·.tol)).getD 0

/-- The third reference: its value where it is GOOD. -/
def World.thirdVal (w : World) (h : Half) (r : Func) : Option Rat :=
  match bitsOf r.third 12 4 with
  | 1 => if w.bq h r.third = 0 then some (w.bv h r.third) else none
  | 5 => w.goodProduct h (refIndex r.third)
  | _ => none

/-- The law's gain counts as positive (R142). -/
def Func.gainPos (r : Func) : Bool :=
  if r.law = 4 || r.law = 3 || r.law = 5 then true
  else if r.kp ≠ 0 then decide (0 < r.kp) else if r.ki ≠ 0 then decide (0 < r.ki) else if r.kd ≠ 0 then decide (0 < r.kd) else true

/-- The conflict policy (R142). -/
def Func.policySel (r : Func) (a b : Rat) : PvSel :=
  match r.policy with
  | 0 =>
    let low : Bool := r.gainPos != r.safeNeg
    let second : Bool := if low then decide (b < a) else decide (a < b)
    { pv := if second then b else a, resolved := 2, sel := b2n second, conflict := true }
  | p => { pv := a, resolved := 2, conflict := true, policy := p }

/-- The process value of a function (R141); of one without a twin, what its binding reports. -/
def World.pvSel (w : World) (h : Half) (n : Nat) : PvSel :=
  let r := w.func h n
  let a := w.bv h r.pv
  if r.pvTwin = 0 then { pv := a }
  else
    let b := w.bv h r.pvTwin
    let qa := w.bq h r.pv
    let qb := w.bq h r.pvTwin
    if qa = 5 || qb = 5 then
      let tol := w.twinTol r.pv r.pvTwin
      match w.thirdVal h r with
      | some v =>
        let na : Bool := absR (v - a) ≤ tol
        let nb : Bool := absR (v - b) ≤ tol
        if na && !nb then { pv := a, resolved := 1, conflict := true }
        else if nb && !na then { pv := b, resolved := 1, sel := 1, conflict := true }
        else r.policySel a b
      | none => r.policySel a b
    else if qa = 0 && qb = 0 then
      if w.flag h F.UIN_BQ.DIVERGE (refIndex r.pv) then
        let x := w.fn h n
        { pv := x.used.getD ((a + b) / 2), sel := x.sel }
      else { pv := (a + b) / 2 }
    else if qa = 0 then { pv := a }
    else if qb = 0 then { pv := b, sel := 1 }
    else { pv := (w.fn h n).used.getD a, resolved := 2, policy := 2 }

/-- The choice noted: EVT_SET_CONFLICT of a change (R142, R589), the clock of a HOLD. -/
def World.noteSel (w : World) (h : Half) (n : Nat) (p : PvSel) : World :=
  let r := w.func h n
  let x := w.fn h n
  let div := r.pvTwin ≠ 0 && w.flag h F.UIN_BQ.DIVERGE (refIndex r.pv)
  let cause := if p.conflict && !x.conflict then 1 else if !p.conflict && x.conflict then 4 else if p.resolved ≠ x.resolved then 2
    else if p.conflict && p.sel ≠ x.sel then 3 else 0
  let w := w.updFn h n fun x => { x with
    conflict := p.conflict, resolved := p.resolved, sel := p.sel, used := if div then x.used else some p.pv
    conflictAt := if p.policy = 1 then (if x.conflictAt.isSome then x.conflictAt else some w.now) else none
    holdOver := x.holdOver && p.conflict }
  w.when (cause ≠ 0) fun w => w.raise h 241 (evArg n p.resolved cause)

/-- A conflict HOLD has lasted HOLD_T (R139 line 7): MANUAL from now on. -/
def World.holdExpired (w : World) (h : Half) (n : Nat) : Bool :=
  let r := w.func h n
  match (w.fn h n).conflictAt with
  | some t => r.holdT ≠ 0 && t + r.holdT * 10 * ms ≤ w.now
  | none => false

/-! Gain schedules (R137). -/

/-- The place of a value among ascending breakpoints: the segment and the fraction in it, clamped to the ends. -/
def bracket : List Rat → Rat → Nat × Rat
  | a :: b :: t, v =>
    if v ≤ a then (0, 0)
    else if v < b then (0, (v - a) / (b - a))
    else match t with
      | [] => (0, 1)
      | _ => let (i, f) := bracket (b :: t) v; (i + 1, f)
  | _, _ => (0, 0)

/-- Multiplier `k` of a cell. -/
def Sched.cell (s : Sched) (i j k : Nat) : Rat := (s.cells.getD (j * s.v1.length + i) []).getD k 1

/-- Multiplier `k` at two values. -/
def Sched.mult (s : Sched) (a b : Rat) (k : Nat) : Rat :=
  let (i, f) := bracket s.v1 a
  let row (j : Nat) : Rat := if f = 0 then s.cell i j k else s.cell i j k * (1 - f) + s.cell (i + 1) j k * f
  if s.v2.length ≤ 1 then row 0
  else
    let (j, g) := bracket s.v2 b
    if g = 0 then row j else row j * (1 - g) + row (j + 1) * g

/-- A schedule variable: its value while GOOD, else its last good value. -/
def World.schedVar (w : World) (h : Half) (ref : Nat) (good : Rat) : Rat := if ref ≠ 0 && w.bq h ref = 0 then w.bv h ref else good

/-- The schedule variables of a cycle kept. -/
def World.noteSched (w : World) (h : Half) (n : Nat) : World :=
  let r := w.func h n
  w.updFn h n fun x => { x with v1Good := w.schedVar h r.schedV1 x.v1Good, v2Good := w.schedVar h r.schedV2 x.v2Good }

/-- A function's multiplier: 0 KP, 1 KI, 2 KD, 3 KFF. -/
def World.gain (w : World) (h : Half) (n k : Nat) : Rat :=
  match (w.funcs h).scheds[(w.func h n).sched]? with
  | some s => s.mult (w.fn h n).v1Good (w.fn h n).v2Good k
  | none => 1

/-! Set-point and feed-forward (R133, R135, R164). -/

/-- The entry of OPTM that carries a function. -/
def OptmSec.varOf (o : OptmSec) (n : Nat) : Option (Nat × OVar) := (o.vars.zipIdx.find? (fun v => v.1.mf = n)).map (fun v => (v.2, v.1))

/-- The offset that the probing dither gives a variable: bit 0 of its register is the sign (R172). -/
def Optim.ditherOf (o : Optim) (i : Nat) (v : OVar) : Rat :=
  if !v.dither then 0 else if o.lfsr.getD i 0 % 2 = 1 then v.dithAmp else -v.dithAmp

/-- The offset in force. -/
def Optim.offset (o : Optim) (i : Nat) (v : OVar) : Rat := if o.dithOn then o.ditherOf i v else 0

/-- The bounds of a variable before its mode narrows them (R158). -/
def OVar.bounds (v : OVar) (r : Func) : Rat × Rat := if v.kind = 0 then (max v.lo r.spMin, min v.hi r.spMax) else (v.lo, v.hi)

/-- The set-point that the optimizer's mode gives a function (R164): SET_MF_SP in ADVISE, and in ASSIST without FLAGS.ASSIST. -/
def World.optSp (w : World) (h : Half) (n : Nat) : Rat :=
  let o := w.opt.get h
  let op := f32Val (w.rd h F.SET_MF_SP.VALUE n)
  match o.sec.bind (fun s => s.varOf n) with
  | none => op
  | some (i, v) =>
    if v.kind = 2 || o.mode = 0 || (o.mode = 1 && !v.assist) then op
    else if v.kind = 1 then o.vsp
    else match o.sp.getD i none with
      | none => op
      | some x => let b := v.bounds (w.func h n); clampR b.1 b.2 (x + o.offset i v)

/-- The set-point of a function before its limits: SP_SRC, or what another function writes into it (R143). -/
def World.spRaw (w : World) (h : Half) (n : Nat) (steer : Rat) : Rat :=
  let r := w.func h n
  match (w.fn h n).fromFunc with
  | some v => v
  | none =>
    match r.spSrc with
    | 0 => r.spMin
    | 1 => f32Val (w.rd h F.SET_MF_SP.VALUE n)
    | 2 => w.optSp h n
    | 3 => w.mfOut h r.spRef
    | 4 => w.bv h r.spRef
    | _ => steer

/-- A change limited to a rate (0: unlimited) over a time. -/
def rateLimit (from_ to_ rate dt : Rat) : Rat := if rate = 0 then to_ else clampR (from_ - rate * dt) (from_ + rate * dt) to_

/-- The feed-forward term of a function, if it is valid. -/
def World.ffVal (w : World) (h : Half) (n : Nat) : Option Rat :=
  let r := w.func h n
  match r.ffSrc with
  | 1 => (match bitsOf r.ffRef 12 4 with
    | 1 => if w.bq h r.ffRef = 0 then some (w.bv h r.ffRef) else none
    | 5 => w.goodProduct h (refIndex r.ffRef)
    | 11 => some (w.mfOut h (refIndex r.ffRef))
    | _ => none)
  | 2 =>
    let o := w.opt.get h
    (o.sec.bind (fun s => s.varOf n)).bind (fun v => o.ff[v.1]?)
  | _ => none

end Sys2Proof.Machine
end

