-- ==== Sys2Proof/Machine/FnOut.lean ====
section
/-!
DEFINITION. The laws of the machine functions and the mapping of outputs onto objects (R99, R133–R136, R143–R145).
-/
namespace Sys2Proof.Machine

/-! Objects written by the Setting Engine of the half that runs the function. -/

/-- A write to a valve channel: the command level, after a new set-point where there is one (R190). -/
def World.putValve (w : World) (k : Nat) (mA : Option Nat) (on : Bool) : World :=
  w.when (k < 96 && (w.tileSt (tileOf k)).ready && !w.safeOn (objV k)) fun w =>
    let w := match mA with
      | some v => if on then w.valveSetpoint k (satTo F.VLV_SETPOINT.MA.w v) else w
      | none => w
    w.valveCmd k on

/-- The channels of one side with its twin (R145): 1 the A side, −1 the B side. -/
def Func.sideObjs (r : Func) (side : Int) : List Nat :=
  (if side = 1 then [r.objA, r.objA2] else if side = -1 then [r.objB, r.objB2] else []).filter (fun k => k ≠ 0xFFFF)

/-- A side written. -/
def World.putSide (w : World) (r : Func) (side : Int) (mA : Option Nat) (on : Bool) : World :=
  w.forAll (r.sideObjs side) fun w k => w.putValve k mA on

/-- A load switch written, with its profile. -/
def World.putSwitch (w : World) (k prof : Nat) (on : Bool) : World :=
  w.when (96 ≤ k && k < 144 && !w.safeOn k) fun w =>
    (if on then w.wr .A F.LSW_CMD.PROF (k - 96) prof else w).swCmd (k - 96) on

/-! Read back (R99). -/

/-- The current of a channel in force, mA: the hold regulator's level in a Green LEVEL state, the set-point while it is commanded on. -/
def World.mANow (w : World) (k : Nat) : Rat :=
  match (w.eng k).level with
  | some l => l
  | none => if w.flag .A F.VLV_STATUS.CMD k then w.rd .A F.VLV_SETPOINT.MA k else 0

/-- A channel is on. -/
def World.valveOn (w : World) (k : Nat) : Bool := (w.eng k).level.isSome || w.flag .A F.VLV_STATUS.CMD k

/-- The output that the present state of a function's objects stands for. -/
def World.outNow (w : World) (h : Half) (n : Nat) : Rat :=
  let r := w.func h n
  match r.outKind with
  | 1 => w.mANow r.objA
  | 2 => b2n (w.valveOn r.objA)
  | 3 => if w.valveOn r.objA then r.deadband + w.mANow r.objA - r.startA
    else if w.valveOn r.objB then -(r.deadband + w.mANow r.objB - r.startB) else 0
  | 4 => if w.valveOn r.objA then 1 else if w.valveOn r.objB then -1 else 0
  | 5 => b2n (w.flag .A F.LSW_STATUS.CMD (r.objA - 96))
  | 6 => f32Val (w.rd h F.CAN_SIGV.VALUE (refIndex r.outRef))
  | _ => (w.fn h r.outRef).sp

/-- The side of a pair that is on. -/
def World.sideNow (w : World) (h : Half) (n : Nat) : Int :=
  let r := w.func h n
  if r.outKind = 3 || r.outKind = 4 then (if w.valveOn r.objA then 1 else if w.valveOn r.objB then -1 else 0) else 0

/-! Pairs (R144). -/

/-- The report numbers of a side's channels (VLV_TOFF.SEQ). -/
def World.offSeqs (w : World) (r : Func) (side : Int) : List Nat := (r.sideObjs side).map (fun k => w.rd .A F.VLV_TOFF.SEQ k)

/-- The side turned off has reported release, at least 2 ms ago (R144). -/
def World.pairReleased (w : World) (r : Func) (x : FnSt) : Bool :=
  x.offAt + 2 * ms ≤ w.now && ((w.offSeqs r x.off).zip x.offSeq).all (fun p => p.1 ≠ p.2)

/-- A pair driven to side `d` with a current: the other side goes off first, and `d` on once that side has released. -/
def World.pairDrive (w : World) (h : Half) (n : Nat) (d : Int) (mA : Option Nat) : World :=
  let r := w.func h n
  let w := w.when ((w.fn h n).off ≠ 0 && w.pairReleased r (w.fn h n)) fun w => w.updFn h n fun x => { x with off := 0 }
  let side := (w.fn h n).side
  let w := w.when (side ≠ 0 && side ≠ d) fun w =>
    (w.putSide r side none false).updFn h n fun x => { x with side := 0, off := side, offAt := w.now, offSeq := w.offSeqs r side }
  let x := w.fn h n
  if d ≠ 0 && (x.off = 0 || x.off = d) then
    (w.putSide r d mA true).updFn h n fun x => { x with side := d, off := 0 }
  else if d = 0 then (w.putSide r 1 none false).putSide r (-1) none false
  else w

/-- 30 ms have passed without a report (R144): the side counts as released. -/
def execPairReleaseTimeout (h : Half) (n : Nat) (s : State) : Out := lift s fun w =>
  let x := w.fn h n
  w.when (n < 30 && x.off ≠ 0 && x.offAt + 30 * ms ≤ w.now) fun w => w.updFn h n fun x => { x with off := 0 }

/-! The mapping (R143). -/

/-- An output mapped onto its objects. -/
def World.mapOut (w : World) (h : Half) (n : Nat) (u : Rat) : World :=
  let r := w.func h n
  match r.outKind with
  | 1 => w.putSide r 1 (some (roundN u)) (0 < roundN u)
  | 2 => w.putSide r 1 none (1 / 2 ≤ u)
  | 3 =>
    if r.deadband < u then w.pairDrive h n 1 (some (roundN (r.startA + (u - r.deadband))))
    else if u < -r.deadband then w.pairDrive h n (-1) (some (roundN (r.startB + (-u - r.deadband))))
    else w.pairDrive h n 0 none
  | 4 => w.pairDrive h n (if 1 / 2 ≤ u then 1 else if u ≤ -1 / 2 then -1 else 0) none
  | 5 => w.forAll (r.sideObjs 1) fun w k => w.putSwitch k (refIndex r.outRef) (1 / 2 ≤ u)
  | 6 => w.writeSig (refIndex r.outRef) (f32Of u)
  | 7 => w.updFn h r.outRef fun x => { x with fromFunc := some u }
  | _ => w

/-! Laws (R135, R136). -/

/-- What a law gives: the output after its limits, whether a limit acts, the integrator and the filtered derivative. -/
structure LawOut where
  u : Rat
  clamped : Bool := false
  integ : Rat := 0
  dFil : Rat := 0
deriving DecidableEq, Repr

/-- The output's range and rate (R133 step 5). -/
def Func.limit (r : Func) (last dt u : Rat) : Rat := rateLimit last (clampR r.outMin r.outMax u) r.outRate dt

/-- PID and PIDFF: `kp` to `kd` are the scheduled gains, `ff` the scheduled feed-forward term; with `preset` the first output of the law
equals the last one written (R136). -/
def Func.pid (r : Func) (x : FnSt) (kp ki kd ff e pv dt : Rat) (preset : Bool) : LawOut :=
  if preset then { u := x.out, integ := x.out - kp * e - ff, dFil := 0 }
  else
    let d := (r.td * x.dFil - (pv - x.lastPv)) / (r.td + dt)
    let i := x.integ + ki * e * dt
    let v := kp * e + i + kd * d + ff
    let lim := r.limit x.out dt v
    let deep : Bool := (decide (lim < v) && decide (0 < ki * e)) || (decide (v < lim) && decide (ki * e < 0))
    let i := if deep then x.integ else i
    let v := kp * e + i + kd * d + ff
    let lim := r.limit x.out dt v
    { u := lim, clamped := decide (lim ≠ v), integ := i, dFil := d }

/-- PASS, and the outputs of STATE and SEQ: the value under the limits. -/
def Func.pass (r : Func) (x : FnSt) (v dt : Rat) : LawOut :=
  let lim := r.limit x.out dt v
  { u := lim, clamped := decide (lim ≠ v) }

/-- The condition of a table entry (R135). -/
def World.tabCond (w : World) (h : Half) (n : Nat) (e : TabEntry) : Bool :=
  match e.cond with
  | 1 => e.thresh < w.bv h e.ref
  | 2 => w.bv h e.ref < e.thresh
  | 3 => (w.fn h n).stepReq
  | 4 => e.thresh = (w.opState h : Rat)
  | 5 => (w.eng (w.func h n).objA).kink
  | _ => false

/-- The table of a function. -/
def World.table (w : World) (h : Half) (n : Nat) : List TabEntry := (w.funcs h).tabs.getD (w.func h n).tab []

/-- A state or step entered. -/
def FnSt.enter (x : FnSt) (k now : Nat) : FnSt := { x with step := k, stepAt := now, stepReq := false }

/-- The state or step after one cycle: STATE follows its set-point, SEQ its starts; both advance by the condition; a SEQ stops at
a step whose NEXT is 0xFF; an entry that the table does not hold ends a SEQ and leaves a STATE where it is. -/
def World.tabStep (w : World) (h : Half) (n : Nat) (sp : Rat) (fresh : Bool) : World :=
  let r := w.func h n
  let t := w.table h n
  let x := w.fn h n
  let asked : Bool := !fresh && decide (sp ≠ x.seqSp)
  let x1 := { x with seqSp := sp, startReq := false }
  let want := roundN sp
  if r.law = 3 then
    if (fresh || asked) && want < t.length then w.updFn h n fun _ => { x1.enter want w.now with seqOn := true }
    else
      let e := t.getD x.step {}
      let go : Bool := x.seqOn && w.tabCond h n e && e.next < t.length
      w.updFn h n fun _ => if go then x1.enter e.next w.now else { x1 with stepReq := false }
  else if x.startReq || (asked && sp ≠ 0) then w.updFn h n fun _ => { x1.enter 0 w.now with seqOn := true }
  else
    let e := t.getD x.step {}
    if x.seqOn && e.next = 0xFF then w.updFn h n fun _ => { x1 with stepReq := false }
    else if x.seqOn && w.tabCond h n e then
      w.updFn h n fun _ => if e.next < t.length then x1.enter e.next w.now else { x1 with seqOn := false, stepReq := false }
    else w.updFn h n fun _ => { x1 with stepReq := x.stepReq && x.seqOn }

/-- The output of STATE or SEQ: its entry's OUT; before a first start and after an abort, the present output. -/
def World.tabOut (w : World) (h : Half) (n : Nat) : Rat :=
  let x := w.fn h n
  if !x.seqOn then x.out else ((w.table h n)[x.step]?.map (·.out)).getD x.out

/-- A STATE or SEQ entry reaches its TIMEOUT (R135): ON_TO; a SEQ raises EVT_SET_SEQ_TIMEOUT. -/
def execSeqStepTimeout (h : Half) (n : Nat) (s : State) : Out := lift s fun w =>
  let r := w.func h n
  let x := w.fn h n
  let e := (w.table h n).getD x.step {}
  w.when (n < 30 && (r.law = 3 || r.law = 5) && x.ran && x.seqOn && (x.ovr = .none || x.ovr = .limited) && e.timeout ≠ 0 &&
      (r.law = 3 || e.next ≠ 0xFF) && x.stepAt + e.timeout * 10 * ms ≤ w.now)
    fun w =>
      let inTab : Bool := e.onTo < (w.table h n).length
      let w := w.updFn h n fun x => if inTab then x.enter e.onTo w.now else { x with seqOn := r.law = 3 && x.seqOn }
      let w := w.wr h F.SET_MF_STAT.STEP n (w.fn h n).step
      w.when (r.law = 5) fun w => w.raise h 245 (evArg n x.step 0)

/-- SET_MF_CMD.START. -/
def execMfSeqStart (h : Half) (_init n : Nat) (s : State) : Out := lift s fun w =>
  w.when (n < 30 && (w.func h n).law = 5) fun w => w.updFn h n fun x => { x with startReq := true }

/-- SET_MF_CMD.STEP. -/
def execMfSeqStep (h : Half) (_init n : Nat) (s : State) : Out := lift s fun w =>
  w.when (n < 30) fun w => w.updFn h n fun x => { x with stepReq := true }

/-- SET_MF_CMD.ABORT: the sequence ends at once, the present output is held. -/
def execMfSeqAbort (h : Half) (_init n : Nat) (s : State) : Out := lift s fun w =>
  w.when (n < 30 && (w.func h n).law = 5) fun w => w.updFn h n fun x => { x with seqOn := false, startReq := false }

/-- SET_MF_CMD.MANUAL: honoured only with MAN_OK (R140). -/
def execMfManual (h : Half) (_init n : Nat) (on : Bool) (s : State) : Out := lift s fun w =>
  w.when (n < 30 && (w.func h n).manOk) fun w => w.wr h F.SET_MF_CMD.MANUAL n (b2n on)

end Sys2Proof.Machine
end

