-- ==== Sys2Proof/Machine/Steer.lean ====
section
/-!
DEFINITION. Steering: the prediction of the pose, guidance lines, the law, engagement and release (R146–R152).
-/
namespace Sys2Proof.Machine

/-! Geometry. The line's local plane is that of `Config.eastOf` and `northOf`; angles are in radians, positive counter-clockwise. -/

/-- An angle brought into (−π, π]. -/
def wrapPi (x : Rat) : Rat := x - 2 * piR * (((x - piR) / (2 * piR)).ceil : Int)

/-- Where a point stands to a line: the lateral distance to pass 0 without its offset, positive left, m; the line's heading at the
closest point; its curvature there; the length left of an open line. -/
structure OnLine where
  d : Rat
  psi : Rat
  kappa : Rat := 0
  left_ : Option Rat := none
deriving DecidableEq, Repr

/-- A point to the straight line through `a` with heading `psi`. -/
def onStraight (a : Rat × Rat) (psi : Rat) (p : Rat × Rat) : OnLine :=
  { d := Config.cosR psi * (p.2 - a.2) - Config.sinR psi * (p.1 - a.1), psi := psi }

/-- A point to a circle run counter-clockwise. -/
def onCircle (c : Rat × Rat) (r : Rat) (p : Rat × Rat) : OnLine :=
  let e := p.1 - c.1
  let n := p.2 - c.2
  { d := r - Config.sqrtR (e * e + n * n), psi := Config.atan2R n e + piR / 2, kappa := if r = 0 then 0 else 1 / r }

/-- The length of a segment. -/
def segLen (a b : Rat × Rat) : Rat := Config.sqrtR ((b.1 - a.1) * (b.1 - a.1) + (b.2 - a.2) * (b.2 - a.2))

/-- The fraction of a segment at which it comes closest to a point, and the square of the distance there. -/
def closest (a b p : Rat × Rat) : Rat × Rat :=
  let e := b.1 - a.1
  let n := b.2 - a.2
  let l2 := e * e + n * n
  let t := if l2 = 0 then 0 else clampR 0 1 (((p.1 - a.1) * e + (p.2 - a.2) * n) / l2)
  let x := p.1 - (a.1 + t * e)
  let y := p.2 - (a.2 + t * n)
  (t, x * x + y * y)

/-- The segments of a polyline, with the closing one of a closed curve. -/
def segments (vs : List (Rat × Rat)) (closed : Bool) : List ((Rat × Rat) × (Rat × Rat)) :=
  (vs.zip vs.tail) ++ (if closed then (match vs.getLast?, vs.head? with | some a, some b => [(a, b)] | _, _ => []) else [])

/-- The segment that comes closest to a point: its number and fraction. -/
def nearestSeg (segs : List ((Rat × Rat) × (Rat × Rat))) (p : Rat × Rat) : Nat × Rat :=
  (segs.zipIdx.foldl (fun best s =>
    let c := closest s.1.1 s.1.2 p
    match best with
    | none => some (s.2, c.1, c.2)
    | some b => if c.2 < b.2.2 then some (s.2, c.1, c.2) else best) (none : Option (Nat × Rat × Rat))).map (fun b => (b.1, b.2.1)) |>.getD (0, 0)

/-- A point to a curve of vertices: the curvature of a polyline is no number of the spec (`Config.curveAt`). -/
def onCurve (vs : List (Rat × Rat)) (closed : Bool) (p : Rat × Rat) : OnLine :=
  let segs := segments vs closed
  let (i, t) := nearestSeg segs p
  let (a, b) := segs.getD i ((0, 0), (0, 0))
  let psi := Config.atan2R (b.2 - a.2) (b.1 - a.1)
  let rest := (segs.drop (i + 1)).foldl (fun x s => x + segLen s.1 s.2) ((1 - t) * segLen a b)
  { onStraight a psi p with kappa := Config.curveAt vs closed i t, left_ := if closed then none else some rest }

/-- A vertex in metres. -/
def Vert.m (v : Vert) : Rat × Rat := ((v.e : Rat) / 1000, (v.n : Rat) / 1000)

/-! The pose (R146). -/

/-- The predicted pose: latitude and longitude (1e-9°) as the last one gives them, east and north moved by the speed, the heading in
radians counter-clockwise from east, the speed in m/s. -/
structure SteerPose where
  lat : Rat
  lon : Rat
  de : Rat
  dn : Rat
  psi : Rat
  v : Rat
deriving DecidableEq, Repr

/-- The last fused pose predicted to now; none where it is not newer than 50 ms. -/
def World.steerPose (w : World) (h : Half) : Option SteerPose :=
  match w.pose.get h with
  | none => none
  | some p =>
    if p.t + 50 * ms ≤ w.mt h then none
    else
      let dt : Rat := ((w.mt h - p.t : Nat) : Rat) / 1000000000
      let v : Rat := (p.speed : Rat) / 1000
      let psi0 := piR / 2 - (p.hdg : Rat) / 1000 * piR / 180
      let yaw := (p.yaw : Rat) / 100 * piR / 180
      let mid := psi0 + yaw * dt / 2
      some { lat := (p.lat : Rat) / 1000000000, lon := (p.lon : Rat) / 1000000000, de := v * dt * Config.cosR mid
             dn := v * dt * Config.sinR mid, psi := psi0 + yaw * dt, v := v }

/-- The control point in a line's plane: CP_X ahead of the rear axle, which the pose's reference point lies on (log entry 13). -/
def SteerPose.cp (p : SteerPose) (l : Line) (cpX : Rat) : Rat × Rat :=
  let lat0 := (l.lat0 : Rat) / 10000000
  let lon0 := (l.lon0 : Rat) / 10000000
  (Config.eastOf p.lat p.lon lat0 lon0 + p.de + cpX * Config.cosR p.psi, Config.northOf p.lat p.lon lat0 lon0 + p.dn + cpX * Config.sinR p.psi)

/-! Lines (R148, R149). -/

/-- The line of a slot, if it is valid. -/
def World.line (w : World) (h : Half) (k : Nat) : Option Line :=
  if bitOf (w.rd h F.SET_LINE_STAT.VALID) k then some (NMap.get {} (w.set.get h).lines k) else none

/-- The EDGE product of a line's side: offset, angle, while it is GOOD and the grade is G2 or higher. -/
def World.edgeOf (w : World) (h : Half) (l : Line) : Option (Rat × Rat) :=
  let ps := (w.grin h).prods
  match indexWhere (fun e => e.type_ = 2 && e.left = l.edgeLeft) ps 0 with
  | none => none
  | some p =>
    if w.gradeOf h < 2 then none
    else
      let j := ((ps.take p).filter (·.type_ = 2)).length
      (w.goodProduct h p).map (fun v => (v, ((w.grd.get h).edge.getD j (0, 0)).1))

/-- The control point to an EDGE line: the line runs PARAM from the edge; without the edge, along the last 20 m steered. -/
def World.onEdge (w : World) (h : Half) (l : Line) (p : SteerPose) (cp : Rat × Rat) : OnLine :=
  let target := (l.param : Rat) / 1000
  match w.edgeOf h l with
  | some (ofs, ang) => { d := (if l.edgeLeft then target else -target) - ofs, psi := p.psi + ang }
  | none =>
    let path := (w.set.get h).steer.edgePath
    match path.head?, path.getLast? with
    | some b, some a => onStraight b (Config.atan2R (b.2 - a.2) (b.1 - a.1)) cp
    | _, _ => { d := 0, psi := p.psi }

/-- The control point to a line of any type. -/
def World.onLine (w : World) (h : Half) (l : Line) (p : SteerPose) (cp : Rat × Rat) : OnLine :=
  let vs := l.verts.map Vert.m
  match l.type_ with
  | 1 =>
    let a := vs.getD 0 (0, 0)
    let b := vs.getD 1 (0, 0)
    onStraight a (Config.atan2R (b.2 - a.2) (b.1 - a.1)) cp
  | 2 => onStraight (vs.getD 0 (0, 0)) (piR / 2 - (l.param : Rat) / 1000 * piR / 180) cp
  | 3 => onCurve vs l.closed cp
  | 4 => onCircle (vs.getD 0 (0, 0)) ((l.param : Rat) / 1000) cp
  | _ => w.onEdge h l p cp

/-- The lateral place of pass `k`, m. -/
def Line.passAt (l : Line) (k : Int) : Rat := ((l.offset + k * (l.width : Int) : Int) : Rat) / 1000

/-- The pass nearest a lateral distance (R149). -/
def Line.nearest (l : Line) (d : Rat) : Int := roundR ((d * 1000 - (l.offset : Rat)) / (l.width : Rat))

/-- The length of a line record with `n` vertices. -/
def lineLen (n : Nat) : Nat := 32 + 8 * n

/-- A line record's fields and vertices (R148). -/
def lineOf (bs : List Byte) : Line :=
  let i (a : Nat) : Int := signed 32 (u32At bs a)
  { type_ := byteAt bs 0, closed := bitOf (byteAt bs 1) 0, edgeLeft := bitOf (byteAt bs 1) 1, lat0 := i 4, lon0 := i 8, width := u32At bs 12
    offset := i 16, param := u32At bs 20, lineId := u32At bs 24
    verts := (List.range (u16At bs 2)).map (fun k => ⟨i (32 + 8 * k), i (36 + 8 * k)⟩) }

/-- The vertices that a type has. -/
def vertsOk (ty n : Nat) : Bool :=
  match ty with
  | 1 => n = 2
  | 2 => n = 1
  | 3 => 2 ≤ n && n ≤ 4096
  | 4 => n = 1
  | 5 => n = 0
  | _ => false

/-- The check of a line record (R148): 1 CRC, 2 FORMAT, 4 RANGE. -/
def lineCheck (bs : List Byte) : Nat :=
  if u32At bs 28 ≠ crc32c (bs.take 28 ++ bs.drop 32) then 1
  else if !vertsOk (byteAt bs 0) (u16At bs 2) || 4 ≤ byteAt bs 1 then 2
  else if !(1000 ≤ u32At bs 12 && u32At bs 12 ≤ 60000) || (byteAt bs 0 = 2 && 360000 ≤ u32At bs 20) then 4
  else 0

/-- SET_LINE_CMD.LOAD (R148): the record at SET_LINE_ADDR is copied. -/
def execLineLoad (h : Half) (_init k : Nat) (s : State) : Out := lift s fun w =>
  w.when ((w.run.get h).running && k < 8 && !w.flag h F.SET_LINE_STAT.BUSY) fun w =>
    let a := w.rd h F.SET_LINE_ADDR.ADDR
    let n := min 4096 (u16At (w.getMem h 0 a 4) 2)
    (w.updSet h fun e => { e with loading := some (k, w.getMem h 0 a (lineLen n)) }).wr h F.SET_LINE_STAT.BUSY 0 1

/-- The active slot is engaged. -/
def World.lineEngaged (w : World) (h : Half) (k : Nat) : Bool :=
  w.flag h F.SET_STEER_STATUS.ENGAGED && w.rd h F.SET_STEER_CTRL.LINE = k

/-- The load ends with its result; a failed one leaves the slot. -/
def execLineLoadComplete (h : Half) (s : State) : Out := lift s fun w =>
  match (w.set.get h).loading with
  | none => w
  | some (k, bs) =>
    let w := (w.updSet h fun e => { e with loading := none }).wr h F.SET_LINE_STAT.BUSY 0 0
    let res := if w.lineEngaged h k then 3 else lineCheck bs
    let w := w.wr h F.SET_LINE_STAT.RES 0 res
    w.when (res = 0) fun w =>
      let v := w.rd h F.SET_LINE_STAT.VALID
      (w.updSet h fun e => { e with lines := NMap.put e.lines k (lineOf bs) }).wr h F.SET_LINE_STAT.VALID 0 (if bitOf v k then v else v + 2 ^ k)

/-- SET_LINE_CMD.CLEAR: the slot is empty; an engaged one stays. -/
def execLineClear (h : Half) (_init k : Nat) (s : State) : Out := lift s fun w =>
  w.when (k < 8 && !w.lineEngaged h k) fun w =>
    let v := w.rd h F.SET_LINE_STAT.VALID
    (w.updSet h fun e => { e with lines := NMap.del e.lines k }).wr h F.SET_LINE_STAT.VALID 0 (if bitOf v k then v - 2 ^ k else v)

/-! The audible request (R152). -/

/-- The audible output driven: the switch or signal that ALERT_REF names, where the half owns it. -/
def World.putAlert (w : World) (own : Own) (h : Half) : World :=
  let x := (w.set.get h).steer
  let on := x.alertOn || x.warned
  let w := w.wr h F.SET_STEER_STATUS.ALERT 0 (b2n on)
  let ref := (w.func h 0).alertRef
  match switchOfRef ref with
  | some k => w.when (own.owns h (objL k) && !w.safeOn (objL k) && w.flag .A F.LSW_STATUS.CMD k != on) fun w => w.swCmd k on
  | none =>
    w.when (bitsOf ref 12 4 = 4 && own.owns h (objC (w.sigChan ref))) fun w => w.writeSig (refIndex ref) (f32Of (b2n on))

/-- Steering changed. -/
def World.updSteer (w : World) (h : Half) (f : Steer → Steer) : World := w.updSet h fun e => { e with steer := f e.steer }

/-- The request ends once its least time has passed and it is acknowledged. -/
def World.alertEnd (w : World) (own : Own) (h : Half) : World :=
  let x := (w.set.get h).steer
  w.when (x.alertOn && x.alertMin && x.alertAck) fun w => (w.updSteer h fun x => { x with alertOn := false }).putAlert own h

/-- Steering is released (R151): the pair off, the inner integrator cleared, REASON, EVT_SET_STEER_RELEASE, the audible request. -/
def World.steerRelease (w : World) (own : Own) (h : Half) (reason : Nat) : World :=
  w.when (w.flag h F.SET_STEER_STATUS.ENGAGED) fun w =>
    let w := (w.wr h F.SET_STEER_STATUS.ENGAGED 0 0).wr h F.SET_STEER_STATUS.REASON 0 reason
    let w := w.pairDrive h 0 0 none
    let w := w.updFn h 0 fun x => { x with integ := 0, out := 0, ovr := .manual }
    let w := w.updSteer h fun x => { x with
      warned := false, kappa := 0, alertOn := x.alertOn || reason ≠ 1, alertAt := if reason ≠ 1 then w.now else x.alertAt
      alertMin := x.alertMin && reason = 1, alertAck := x.alertAck && reason = 1, lowQAt := none, speedAt := none, edgeLost := 0, edgePath := [] }
    (w.raise h 244 (evArg 0 0xFF reason)).putAlert own h

/-- SET_STEER_CTRL.ACK. -/
def execSteerAck (h : Half) (_init : Nat) (s : State) : Out := lift s fun w =>
  (w.updSteer h fun x => { x with alertAck := x.alertOn }).alertEnd s.own h

/-- The audible request has run for ALERT_MS. -/
def execAlertMinExpiry (h : Half) (s : State) : Out := lift s fun w =>
  let x := (w.set.get h).steer
  w.when (x.alertOn && x.alertAt + (w.funcs h).steer.alertMs * ms ≤ w.now) fun w =>
    (w.updSteer h fun x => { x with alertMin := true }).alertEnd s.own h

/-- SET_STEER_CTRL.DISENGAGE: reason OPERATOR. -/
def execSteerDisengage (h : Half) (_init : Nat) (s : State) : Out := lift s fun w => w.steerRelease s.own h 1

/-- Position below POS_MIN for 1 s, or the speed out of range for 0.5 s (R151). -/
def execSteerReleaseTimeout (h : Half) (s : State) : Out := lift s fun w =>
  let x := (w.set.get h).steer
  if x.lowQAt.any (fun t => t + sec ≤ w.now) then w.steerRelease s.own h 4
  else if x.speedAt.any (fun t => t + 500 * ms ≤ w.now) then w.steerRelease s.own h 5
  else w

/-- SET_STEER_CTRL.PASS (R149): steering follows the pass written. -/
def execSteerPassSelect (h : Half) (_init v : Nat) (s : State) : Out := lift s fun w =>
  let w := w.wr h F.SET_STEER_CTRL.PASS 0 v
  w.when (w.flag h F.SET_STEER_STATUS.ENGAGED) fun w => w.wr h F.SET_STEER_STATUS.PASS 0 v

/-! Errors, arming and engagement (R147, R150). -/

/-- What steering sees now: the pose, the line, the errors to the pass in force (SET_STEER_CTRL.PASS). -/
structure SteerSee where
  p : SteerPose
  l : Line
  at_ : OnLine
  ey : Rat
  epsi : Rat
deriving DecidableEq, Repr

/-- Pose and active line, if both are there. -/
def World.steerSee (w : World) (h : Half) : Option SteerSee :=
  match w.steerPose h, w.line h (w.rd h F.SET_STEER_CTRL.LINE) with
  | some p, some l =>
    let o := w.onLine h l p (p.cp l (w.funcs h).steer.cpX)
    let k := if w.flag h F.SET_STEER_STATUS.ENGAGED then w.rdI h F.SET_STEER_CTRL.PASS else l.nearest o.d
    some { p := p, l := l, at_ := o, ey := o.d - l.passAt k, epsi := wrapPi (p.psi - o.psi) }
  | _, _ => none

/-- POS_Q, coded as POS_MIN (R147, R381). -/
def World.steerQ (w : World) (h : Half) : Nat := w.rd h F.GNS_STATUS.Q - 1

/-- The position satisfies POS_MIN. -/
def World.steerQOk (w : World) (h : Half) : Bool := 1 ≤ w.rd h F.GNS_STATUS.Q && (w.funcs h).steer.posMin ≤ w.steerQ h

/-- The speed lies within V_MIN–V_MAX. -/
def World.steerVOk (w : World) (h : Half) (v : Rat) : Bool := (w.funcs h).steer.vMin ≤ v && v ≤ (w.funcs h).steer.vMax

/-- The conditions of R150, beside those of the overrides (`clear`: none of lines 1–7 applies). -/
def World.armed (w : World) (h : Half) (clear : Bool) : Bool :=
  let c := (w.funcs h).steer
  match w.steerSee h with
  | none => false
  | some x =>
    clear && absR x.ey ≤ c.engXte && absR x.epsi ≤ c.engHdg && w.steerVOk h x.p.v && w.steerQOk h && w.flag h F.GNS_STATUS.HDG_OK &&
      bitOf (w.func h 0).stateMask (w.opState h)

/-- SET_STEER_CTRL.ENGAGE: taken only while ARMED and every condition of R150 holds; the nearest pass is selected. -/
def execSteerEngage (h : Half) (_init : Nat) (s : State) : Out := lift s fun w =>
  w.when (w.flag h F.SET_STEER_STATUS.ARMED && !w.flag h F.SET_STEER_STATUS.ENGAGED && w.fnRuns s.own h 0 && w.armed h true) fun w =>
    match w.steerSee h with
    | none => w
    | some x =>
      let k := toTwos 16 (x.l.nearest x.at_.d)
      let curv := w.pathCurv h
      let w := (((w.wr h F.SET_STEER_STATUS.ENGAGED 0 1).wr h F.SET_STEER_STATUS.REASON 0 0).wr h F.SET_STEER_STATUS.PASS 0 k).wr h
        F.SET_STEER_CTRL.PASS 0 k
      w.updSteer h fun z => { z with kappa := curv, lowQAt := none, speedAt := none, edgeLost := 0, edgePath := [] }

/-! The law (R147). -/

/-- The points steered along an EDGE line in the last 20 m. -/
def keepPath (path : List (Rat × Rat)) (p : Rat × Rat) : List (Rat × Rat) :=
  let near := path.filter (fun q => (p.1 - q.1) * (p.1 - q.1) + (p.2 - q.2) * (p.2 - q.2) ≤ 400)
  p :: near

/-- The curvature commanded, and the wheel angle that is the inner loop's set-point. -/
def SteerCfg.law (c : SteerCfg) (ks kappaLine ey epsi last dt : Rat) : Rat × Rat :=
  let k := clampR (-c.kappaMax) c.kappaMax (kappaLine - c.kY * ks * ey - c.kPsi * ks * epsi)
  let k := clampR (last - c.kappaRate * dt) (last + c.kappaRate * dt) k
  let d := Config.atan2R (c.wheelbase * k) 1
  (k, clampR (-c.deltaMax) c.deltaMax (if c.rear then -d else d))

/-- The clocks of QUALITY and SPEED (R151). -/
def World.steerClocks (w : World) (h : Half) (v : Rat) : World :=
  let q := w.steerQOk h
  let sp := w.steerVOk h v
  w.updSteer h fun x => { x with
    lowQAt := if q then none else x.lowQAt.orElse fun _ => some w.now, speedAt := if sp then none else x.speedAt.orElse fun _ => some w.now }

/-- The edge of an EDGE line kept, or its loss measured (R149). -/
def World.steerEdge (w : World) (h : Half) (x : SteerSee) : World :=
  if x.l.type_ ≠ 5 then w
  else if (w.edgeOf h x.l).isSome then
    let cp := x.p.cp x.l (w.funcs h).steer.cpX
    let foot := (cp.1 + x.ey * Config.sinR x.at_.psi, cp.2 - x.ey * Config.cosR x.at_.psi)
    w.updSteer h fun z => { z with edgeLost := 0, edgePath := keepPath z.edgePath foot }
  else w.updSteer h fun z => { z with edgeLost := z.edgeLost + absR x.p.v / 1000 }

/-- The operator acts on the steering-input sensor (R151, R152). -/
def World.operatorSteers (w : World) (h : Half) : Bool :=
  let c := (w.funcs h).steer
  c.ovrRef ≠ 0 && c.ovrThr < absR (w.bv h c.ovrRef)

/-- One 1 kHz cycle of steering before the inner loop: acknowledgement, errors, ARMED, the releases that its own inputs cause, and the
law. The second value is the wheel angle. `clear`: no override of lines 1–7 applies. -/
def World.steerCycle (w : World) (own : Own) (h : Half) (clear : Bool) : World × Rat :=
  let c := (w.funcs h).steer
  let ovr := w.operatorSteers h
  let w := w.when ovr fun w => (w.updSteer h fun x => { x with alertAck := x.alertAck || x.alertOn }).alertEnd own h
  let w := (w.wr h F.SET_STEER_STATUS.POS_Q 0 (w.steerQ h)).wr h F.SET_STEER_STATUS.ARMED 0 (b2n (w.armed h clear))
  match w.steerSee h with
  | none => ((if (w.steerPose h).isNone then w.steerRelease own h 3 else w.steerRelease own h 6), 0)
  | some x =>
    let w := (w.wrI h F.SET_STEER_XTE.VALUE 0 (roundR (x.ey * 1000))).wrI h F.SET_STEER_HDG.VALUE 0 (roundR (x.epsi * 180000 / piR))
    if !w.flag h F.SET_STEER_STATUS.ENGAGED then (w.wr h F.SET_STEER_CURV.VALUE 0 0, 0)
    else
      let w := (w.steerClocks h x.p.v).steerEdge h x
      let ended : Bool := x.at_.left_.any (fun l => l ≤ 0)
      let near : Bool := x.at_.left_.any (fun l => l ≤ 20)
      let w := w.when ((w.set.get h).steer.warned != near) fun w => (w.updSteer h fun z => { z with warned := near }).putAlert own h
      if ovr then (w.steerRelease own h 1, 0)
      else if w.gradeOf h = 0 then (w.steerRelease own h 2, 0)
      else if ended then (w.steerRelease own h 6, 0)
      else if !bitOf (w.func h 0).stateMask (w.opState h) then (w.steerRelease own h 7, 0)
      else if 30 < (w.set.get h).steer.edgeLost then (w.steerRelease own h 8, 0)
      else
        let (k, d) := c.law (w.gain h 0 0) x.at_.kappa x.ey x.epsi (w.set.get h).steer.kappa (1 / 1000)
        ((w.updSteer h fun z => { z with kappa := k }).wrI h F.SET_STEER_CURV.VALUE 0 (roundR (k * 1000000)), d)

end Sys2Proof.Machine
end

