-- ==== Sys2Proof/Machine/Exec.lean ====
section
/-!
DEFINITION. The executor: the overrides of a function and its cycle (R132–R136, R139), the operating state (R125–R128, R586).
-/
namespace Sys2Proof.Machine

/-! Overrides (R139, R140). -/

/-- MANUAL of line 6: from the grade, from the conflict policy or the end of a HOLD, or by the operator with MAN_OK. -/
def World.manualOn (w : World) (h : Half) (n : Nat) (p : PvSel) : Bool :=
  let r := w.func h n
  r.grade.getD (w.gradeOf h) 0 = 4 || p.policy = 2 || (w.fn h n).holdOver || (r.manOk && w.flag h F.SET_MF_CMD.MANUAL n)

/-- The line of the precedence table that governs a function. -/
def World.governs (w : World) (h : Half) (n : Nat) (p : PvSel) : Nat :=
  let r := w.func h n
  let g := r.grade.getD (w.gradeOf h) 0
  if (w.fnObjs h 31 n).any w.safeOn then 1
  else if w.ilkActive h n 3 then 2
  else if !bitOf r.stateMask (w.opState h) then 3
  else if g = 5 then 4
  else if w.ilkActive h n 2 then 5
  else if w.manualOn h n p then 6
  else if p.policy = 1 then 7
  else if w.ilkActive h n 1 || (w.fn h n).held || g = 3 then 8
  else if g = 1 || g = 2 then 9
  else 10

/-- What a line makes of a function: 0 frozen, 1 Green, 2 output 0, 3 manual, 4 the law. -/
def Func.action (r : Func) (line : Nat) : Nat :=
  match line with
  | 2 => 1
  | 3 => if r.outState = 1 then 1 else if r.outState = 2 then 2 else 0
  | 4 => 1
  | 5 => 2
  | 6 => 3
  | 9 => 4
  | 10 => 4
  | _ => 0

/-- SET_MF_STAT.MODE of a line: 1 OUT_OF_STATE, 2 NORMAL, 3 HOLD, 4 MANUAL, 5 GREEN, 6 INHIBIT. -/
def modeOf (line : Nat) : Nat :=
  match line with
  | 2 => 5
  | 3 => 1
  | 4 => 5
  | 5 => 6
  | 6 => 4
  | 9 => 2
  | 10 => 2
  | _ => 3

/-- The override kept with a function's state. -/
def overOf (line : Nat) : Over :=
  match line with
  | 1 => .safeOff
  | 2 => .green
  | 3 => .outOfState
  | 4 => .green
  | 5 => .inhibit
  | 6 => .manual
  | 9 => .limited
  | 10 => .none
  | _ => .hold

/-- The function returns to its law in this cycle (R136): from another override, or from none at its first cycle. -/
def FnSt.returns (x : FnSt) (line : Nat) : Bool :=
  9 ≤ line && (!x.ran || (x.ovr ≠ .none && !(x.ovr = .limited && line = 9)))

/-! The cycle (R133). -/

/-- A function that has not run in this half starts from the mirrored record where there is one, and from the outputs as found (R99). -/
def World.fnStart (w : World) (h : Half) (n : Nat) : World :=
  let x := w.fn h n
  if x.ran then w
  else
    let m := NMap.get {} (w.set.get h).mir n
    let out := w.outNow h n
    let side := w.sideNow h n
    w.updFn h n fun x =>
      let b : FnSt := if m.ran then m else x
      { b with ran := false, out := out, side := side, off := 0, seqSp := b.seqSp, fromFunc := x.fromFunc.orElse fun _ => b.fromFunc }

/-- The set-point of a cycle (R133 step 2): clamped, its change limited; a frozen one stays. -/
def World.spStep (w : World) (h : Half) (n : Nat) (steer pv : Rat) (preset frozen : Bool) : Rat :=
  let r := w.func h n
  let x := w.fn h n
  if frozen then x.sp
  else
    let base := if !preset then x.sp else if r.law = 4 then x.out else pv
    rateLimit base (clampR r.spMin r.spMax (w.spRaw h n steer)) r.spRate (rateDt r.rate)

/-- The law and its limits (R133 steps 4 and 5). -/
def World.lawStep (w : World) (h : Half) (n : Nat) (sp pv f : Rat) (preset fresh : Bool) : World × LawOut :=
  let r := w.func h n
  let dt := rateDt r.rate
  let x := w.fn h n
  let e := sp - pv
  let kp := r.kp * w.gain h n 0
  let ki := r.ki * w.gain h n 1
  let kd := r.kd * w.gain h n 2
  match r.law with
  | 1 => (w, r.pid x kp ki kd 0 e pv dt preset)
  | 2 => (w, r.pid x kp ki kd (r.kff * w.gain h n 3 * f) e pv dt preset)
  | 6 => (w, r.pid x kp ki kd 0 e pv dt preset)
  | 4 => (w, r.pass x sp dt)
  | 3 => let w := w.tabStep h n sp fresh; (w, r.pass (w.fn h n) (w.tabOut h n) dt)
  | 5 =>
    let w := if fresh then w.updFn h n fun x => { x with seqSp := sp } else w
    let w := w.tabStep h n sp fresh
    (w, r.pass (w.fn h n) (w.tabOut h n) dt)
  | _ => (w, { u := x.out })

/-- The registers of a function after its cycle. -/
def World.fnRegs (w : World) (h : Half) (n mode : Nat) (p : PvSel) (clamped ff : Bool) : World :=
  let x := w.fn h n
  let ilk := (List.range 4).foldl (fun a i => if x.ilkOn.getD i false then a + 2 ^ i else a) 0
  let w := w.wr h F.SET_MF_OUT.VALUE n (f32Of x.out)
  [(F.SET_MF_STAT.MODE, mode), (F.SET_MF_STAT.CONFLICT, b2n p.conflict), (F.SET_MF_STAT.RESOLVED, p.resolved), (F.SET_MF_STAT.TWIN_SEL, p.sel)
  , (F.SET_MF_STAT.ILK, ilk), (F.SET_MF_STAT.CLAMPED, b2n clamped), (F.SET_MF_STAT.FF_ACTIVE, b2n ff), (F.SET_MF_STAT.STEP, x.step)].foldl
    (fun w f => w.wr h f.1 n f.2) w

/-- The reason with which a governing line releases steering (R139 line 6, R151); 0 where it does not. -/
def World.steerReason (w : World) (h : Half) (line : Nat) (p : PvSel) : Nat :=
  match line with
  | 1 => 10
  | 3 => 7
  | 6 =>
    if (w.func h 0).grade.getD (w.gradeOf h) 0 = 4 then 2
    else if p.policy = 2 || (w.fn h 0).holdOver then 9 else 1
  | _ => 0

/-- The cycle's end: what governed it is kept, with the process value and the cycle's number (step 7); a cycle on time. -/
def World.fnCommit (w : World) (h : Half) (n line k : Nat) (pv sp : Rat) : World :=
  w.updFn h n fun x => { x with
    ran := true, ovr := overOf line, greened := (w.func h n).action line = 1, lastPv := pv, sp := sp, cycle := k, lateRun := 0
    onTime := x.onTime + 1, held := x.held && x.onTime + 1 < 10 }

/-- An override's effect on the output (R139): frozen, Green, 0 or manual. -/
def World.fnOverride (w : World) (h : Half) (n line : Nat) : World × Bool :=
  let r := w.func h n
  let x := w.fn h n
  match r.action line with
  | 1 =>
    let w := w.when (!x.greened) fun w => w.forAll (w.fnObjs h 31 n) World.greenObj
    let out := w.outNow h n
    let side := w.sideNow h n
    (w.updFn h n fun x => { x with out := out, side := side, off := 0 }, false)
  | 2 => ((w.updFn h n fun x => { x with out := 0 }).mapOut h n 0, false)
  | 3 =>
    let o := r.pass x (f32Val (w.rd h F.SET_MF_MAN.VALUE n)) (rateDt r.rate)
    ((w.updFn h n fun x => { x with out := o.u }).mapOut h n o.u, o.clamped)
  | _ => (w.when (line ≠ 1 && x.off ≠ 0) fun w => w.mapOut h n x.out, false)

/-- Steering that is not engaged (R151): both sides off, and the operator's hand steering unit governs. -/
def World.handSteer (w : World) (h : Half) (line k : Nat) (p : PvSel) : World :=
  let a := (w.func h 0).action line
  let w := if a = 1 then (w.fnOverride h 0 line).1
    else if line = 1 then w
    else (w.updFn h 0 fun x => { x with out := 0 }).pairDrive h 0 0 none
  let w := (w.fnCommit h 0 line k p.pv 0).updFn h 0 fun x => { x with ovr := if x.ovr = .none || x.ovr = .limited then .manual else x.ovr }
  w.fnRegs h 0 (if 6 ≤ line then 4 else modeOf line) p false false

/-- One cycle of function `n` (R133); `k` is the cycle's number. -/
def World.fnCycle (w : World) (own : Own) (h : Half) (n k : Nat) : World :=
  let w := w.fnStart h n
  let r := w.func h n
  let fresh := !(w.fn h n).ran && !(NMap.get {} (w.set.get h).mir n).ran
  let p := w.pvSel h n
  let w := (w.noteSel h n p).noteSched h n
  let w := w.forAll (List.range 4) fun w i => w.ilkStep h n i
  let line := w.governs h n p
  let steered := if n = 0 then w.steerCycle own h (7 < line) else (w, 0)
  let w := steered.1
  let steer := steered.2
  let why := if n = 0 then w.steerReason h line p else 0
  let w := w.when (why ≠ 0) fun w => w.steerRelease own h why
  if n = 0 && !w.flag h F.SET_STEER_STATUS.ENGAGED then w.handSteer h line k p
  else
    let preset := (w.fn h n).returns line
    let g := r.grade.getD (w.gradeOf h) 0
    let frozen := line = 9 && g = 2 && (w.fn h n).ran
    let sp := w.spStep h n steer p.pv preset frozen
    if line < 9 then
      let forced := w.fnOverride h n line
      let w := forced.1
      let clamped := forced.2
      (w.fnCommit h n line k p.pv sp).fnRegs h n (modeOf line) p clamped false
    else
      let ff := if r.law = 2 && !(line = 9 && g = 1) then w.ffVal h n else none
      let lawful := w.lawStep h n sp p.pv (ff.getD 0) preset fresh
      let w := lawful.1
      let o := lawful.2
      let w := w.updFn h n fun x => { x with integ := o.integ, dFil := o.dFil, out := o.u }
      let w := w.mapOut h n o.u
      (w.fnCommit h n line k p.pv sp).fnRegs h n (modeOf line) p o.clamped ff.isSome

/-- SET_STATUS of a half. -/
def World.setStatus (w : World) (h : Half) : World :=
  let fs := (List.range 30).map (w.fn h)
  let w := w.wr h F.SET_STATUS.ANY_OVERRUN 0 (b2n (fs.any (·.held)))
  let w := w.wr h F.SET_STATUS.ANY_ILK 0 (b2n (fs.any (fun x => x.ilkOn.any id)))
  let w := w.wr h F.SET_STATUS.ANY_CONFLICT 0 (b2n (fs.any (·.conflict)))
  w.wr h F.SET_STATUS.GRADE 0 (w.gradeOf h)

/-- The instants since when the automatic guards of the present state have been true (R126). -/
def World.guardTimes (w : World) (h : Half) (m : NMap Nat) : NMap Nat :=
  (w.funcs h).trans.zipIdx.foldl (fun m t =>
    if (t.1.mode = 2 || t.1.mode = 3) && t.1.src = w.opState h && w.guardHolds h t.1.guard then
      (if NMap.get 0 m t.2 = 0 then NMap.put m t.2 (w.now + 1) else m)
    else NMap.del m t.2) m

/-- Those instants kept. -/
def World.noteGuards (w : World) (h : Half) : World := w.updSet h fun e => { e with guardAt := w.guardTimes h e.guardAt }

/-- The executor of a half runs. -/
def World.execRuns (w : World) (h : Half) : Bool := (w.run.get h).running && w.flag h F.SET_CTRL.RUN

/-- The field with the largest spread of a rate class (SET_JITTER0, SET_JITTER1). -/
def jitterField : Nat → Field
  | 0 => F.SET_JITTER0.LO
  | 1 => F.SET_JITTER0.HI
  | 2 => F.SET_JITTER1.LO
  | _ => F.SET_JITTER1.HI

/-- A cycle of rate class `rate` (R132, R133): its functions in ascending order, each in the half that owns its objects; those of `late`
are abandoned (R134). `spread` is the spread of the write instants, 0.1 µs. -/
def execExecutorCycle (h : Half) (rate spread : Nat) (late : List Nat) (s : State) : Out := lift s fun w =>
  w.when (w.execRuns h && rate < 4) fun w =>
    let k := w.mt h / ratePeriod rate
    let l := (List.range 30).filter (fun n => (w.func h n).used && (w.func h n).rate = rate)
    let w := w.forAll l fun w n =>
      if !w.fnRuns s.own h n then w.updSet h fun e => { e with fn := NMap.del e.fn n }
      else if late.contains n then w
      else w.fnCycle s.own h n (k + 1)
    let w := w.wr h (jitterField rate) 0 (max (w.rd h (jitterField rate)) (satTo 16 spread))
    let missed := l.any (fun n => late.contains n && w.fnRuns s.own h n)
    let w := w.when (rate = 0) fun w => (w.noteGuards h).updSet h fun e => { e with cycK := if missed then e.cycK else k }
    w.setStatus h

/-- A function's outputs are not written within the bound of its class (R134): counted, held after three in a row. -/
def execCycleOverrun (h : Half) (n : Nat) (s : State) : Out := lift s fun w =>
  w.when (w.execRuns h && n < 30 && w.fnRuns s.own h n) fun w =>
    let w := w.updFn h n fun x => { x with lateRun := x.lateRun + 1, onTime := 0, held := x.held || 3 ≤ x.lateRun + 1 }
    let w := (w.bump h F.SET_MF_STAT.OVERRUN n).setStatus h
    w.raise h 240 (evArg n (w.func h n).rate (b2n (w.fn h n).held))

/-- A conflict HOLD reaches HOLD_T (R139 line 7): MANUAL; steering is released with CONFLICT (R151). -/
def execConflictHoldExpiry (h : Half) (n : Nat) (s : State) : Out := lift s fun w =>
  w.when (n < 30 && w.holdExpired h n && !(w.fn h n).holdOver) fun w =>
    let w := (w.updFn h n fun x => { x with holdOver := true, ovr := .manual }).wr h F.SET_MF_STAT.MODE n 4
    w.when (n = 0) fun w => w.steerRelease s.own h 9

/-- SET_CTRL.CLR_CNT: the overrun counts and the jitter maxima. -/
def execSetClrCnt (h : Half) (_init : Nat) (s : State) : Out := lift s fun w =>
  let w := w.forAll (List.range 30) fun w n => w.wr h F.SET_MF_STAT.OVERRUN n 0
  w.forAll (List.range 4) fun w r => w.wr h (jitterField r) 0 0

/-! The operating state (R125–R128, R80). -/

/-- The state is frozen: an activation (R80) or a shutdown (R105). -/
def World.stateFrozen (w : World) (h : Half) : Bool := w.act.isSome || (w.shut.get h).step ≠ 0

/-- Why a transition out of the present state is refused whatever its entry (R127: 3 to 6); 0 where it is not. -/
def World.stateRefusal (w : World) (h : Half) : Nat :=
  let st := w.opState h
  if w.stateFrozen h then 3
  else if st = 0 && (w.flag .A F.STW_STAGE.CUP_REPORT || w.flag .B F.STW_STAGE.CUP_REPORT) then 4
  else if (st = 0 || st = 5) && (w.anySess .A || w.anySess .B) then 5
  else if (w.set.get h).lastTrans ≠ 0 && w.now < (w.set.get h).lastTrans + 10 * ms then 6
  else 0

/-- A transition taken (R126). On leaving SERVICE the channels go back to their modes (R409) and a loopback ends (R590). -/
def World.transit (w : World) (h : Half) (dst : Nat) : World :=
  let old := w.opState h
  let w := (w.wr h F.SET_STATE.STATE 0 dst).updSet h fun e => { e with lastTrans := w.now, guardAt := [] }
  let w := w.when (old = 5 && dst ≠ 5) fun w => w.canLeaveService.wrBoth F.XNG_CTRL.LOOPBACK 0 0
  w.raise h 243 (evArg dst old 0)

/-- SET_STATE_REQ written: the serving half takes or refuses the transition (R126, R127, R80). -/
def execSetStateRequest (h : Half) (_init dst : Nat) (s : State) : Out := lift s fun w =>
  let dst := dst % 8
  w.when ((w.run.get h).running && s.own.serves h) fun w =>
    let st := w.opState h
    let w := w.wr h F.SET_STATE.LAST_REQ 0 dst
    let code :=
      match (w.funcs h).trans.find? (fun t => t.src = st && t.dst = dst && (t.mode = 1 || t.mode = 3)) with
      | none => 1
      | some t => if !w.guardHolds h t.guard then 2 else w.stateRefusal h
    if code = 0 then w.transit h dst
    else
      let w := (w.wr h F.SET_STATE.REFUSE 0 code).raise h 243 (evArg dst st code)
      w.when (w.act.isSome) fun w => w.raise h 11 (evArg 0xFFFF 0xFF 0)

/-- An automatic entry is due: its guard has been true for 200 ms. -/
def World.autoDue (w : World) (h : Half) (i : Nat) : Bool :=
  match (w.funcs h).trans[i]? with
  | none => false
  | some t =>
    let at_ := NMap.get 0 (w.set.get h).guardAt i
    (t.mode = 2 || t.mode = 3) && t.src = w.opState h && at_ ≠ 0 && at_ - 1 + 200 * ms ≤ w.now && w.guardHolds h t.guard

/-- An automatic transition falls due (R126): the entry of the lowest index is taken; one that meets a refusal is not. -/
def execAutoTransition (h : Half) (i : Nat) (s : State) : Out := lift s fun w =>
  w.when (w.execRuns h && s.own.serves h && w.autoDue h i && !(List.range i).any (w.autoDue h) && w.stateRefusal h = 0) fun w =>
    w.transit h (((w.funcs h).trans.getD i {}).dst)

end Sys2Proof.Machine
end

