-- ==== Sys2Proof/Machine/OptModel.lean ====
section
/-!
DEFINITION. The optimizer's crop model, its history and the look-ahead (R155, R156, R166–R176), and its registers' writes.
-/
namespace Sys2Proof.Machine

/-- The optimizer of a half changed. -/
def World.updOpt (w : World) (h : Half) (f : Optim → Optim) : World := { w with opt := w.opt.upd h f }

/-- The OPTM section in force (an empty one before Bloom). -/
def World.optm (w : World) (h : Half) : OptmSec := (w.opt.get h).sec.getD {}

/-- The optimizer runs: in the serving half, from Bloom step 9 on (R162). -/
def World.optRuns (w : World) (own : Own) (h : Half) : Bool := w.execRuns h && own.serves h && (w.opt.get h).sec.isSome

/-- The active crop profile. -/
def World.optProfile (w : World) (h : Half) : OProf := (w.optm h).profs.getD (w.rd h F.SET_OPT_CTRL.PROFILE) {}

/-! The model (R156, R167, R170). -/

/-- P0 · I with the rows of THROUGHPUT and FF_ONLY variables held at 0 (R167). -/
def OptmSec.p0 (o : OptmSec) (p0 : Rat) : List (List Rat) :=
  let n := o.vars.length + 2
  (List.range n).map fun i => (List.range n).map fun j =>
    if i = j && (i < 2 || (o.vars.getD (i - 2) {}).kind = 0) then p0 else 0

/-- θ, P and c from the active profile (R170); the solve that follows has result IDLE. -/
def World.optReset (w : World) (h : Half) : World :=
  let o := w.optm h
  let p := w.optProfile h
  let learn := (List.range o.outs.length).map fun j => ({ theta := p.theta.getD j [], p := o.p0 p.p0 } : OLearn)
  let w := w.updOpt h fun m => { m with c := 1, learn := learn, idle := true }
  (w.wr h F.SET_OPT_STATUS.RES 0 6).wr h F.SET_OPT_CORR.CORR 0 1000

/-- A saved model that may be used (R171): its profile is the active one, and it is at most HOLD_AGE hours old. -/
def World.optSaved (w : World) (h : Half) : Option OSaved :=
  match (w.opt.get h).saved with
  | none => none
  | some m =>
    if m.prof = w.rd h F.SET_OPT_CTRL.PROFILE && w.mt h ≤ m.at_ + (w.optm h).holdAge * 3600 * sec && (w.optm h).holdAge ≠ 0 then some m else none

/-- The model a profile starts from: the saved one where it may be used, else the profile's (R170, R171). -/
def World.optStart (w : World) (h : Half) : World :=
  match w.optSaved h with
  | none => w.optReset h
  | some m =>
    let learn := (m.theta.zip m.p).map fun x => ({ theta := x.1, p := x.2 } : OLearn)
    let w := w.updOpt h fun o => { o with c := m.c, learn := learn, idle := false }
    (w.wr h F.SET_OPT_STATUS.RES 0 6).wr h F.SET_OPT_CORR.CORR 0 (satTo 16 (roundN (m.c * 1000)))

/-- Shutdown step 2: the serving half saves its model (R171). -/
def World.optSave (w : World) (h : Half) : World :=
  let o := w.opt.get h
  let m : OSaved :=
    { prof := w.rd h F.SET_OPT_CTRL.PROFILE, at_ := w.mt h, c := o.c, theta := o.learn.map (·.theta), p := o.learn.map (·.p) }
  w.updOpt h fun o => { o with saved := some m }

/-- The default of target `t` (R166): HI of the THROUGHPUT variable, or the LIMIT of the first constraint that names it. -/
def OptmSec.tgtDef (o : OptmSec) (t : Nat) : Rat :=
  if t = 1 then ((o.vars.find? (fun v => v.kind = 1)).map (·.hi)).getD 0 else ((o.cons.find? (fun c => c.tgt = t)).map (·.limit)).getD 0

/-- The register of target `t`: 1 throughput, 2 loss, 3 damage, 4 trash. -/
def tgtField : Nat → Field
  | 1 => F.SET_OPT_TGT_THRU.VALUE
  | 2 => F.SET_OPT_TGT_LOSS.VALUE
  | 3 => F.SET_OPT_TGT_DAMAGE.VALUE
  | _ => F.SET_OPT_TGT_TRASH.VALUE

/-- OPTM loaded at Bloom (R97 step 6, R164, R166, R170–R172): mode, profile, targets, default set-points, the dither's seeds. -/
def World.optLoad (w : World) (h : Half) (sec : Option OptmSec) : World :=
  let o := sec.getD {}
  let w := (w.wr h F.SET_OPT_CTRL.MODE 0 o.modeDef).wr h F.SET_OPT_CTRL.PROFILE 0 o.profDef
  let w := w.forAll [1, 2, 3, 4] fun w t => w.wr h (tgtField t) 0 (f32Of (o.tgtDef t))
  let dflt := (o.profs.getD o.profDef {}).dflt
  let w := w.updOpt h fun m =>
    { sec := sec, sp := dflt.map some, mode := o.modeDef, lfsr := (List.range o.vars.length).map (· + 1), dithBadAt := w.now, saved := m.saved }
  w.when sec.isSome fun w => w.optStart h

/-! Writes (R161, R165, R166, R170). -/

/-- SET_OPT_CTRL.MODE: in force from the next solve; 3 is ignored. -/
def execOptModeWrite (h : Half) (_init v : Nat) (s : State) : Out := lift s fun w => w.when (v < 3) fun w => w.wr h F.SET_OPT_CTRL.MODE 0 v

/-- SET_OPT_CTRL.PROFILE: a change re-initialises the model; a value from N_PROF on is ignored. Before the first solve a saved model of the
profile written is used (R171). -/
def execOptProfileWrite (h : Half) (_init v : Nat) (s : State) : Out := lift s fun w =>
  w.when (v < (w.optm h).profs.length && v ≠ w.rd h F.SET_OPT_CTRL.PROFILE) fun w =>
    let w := w.wr h F.SET_OPT_CTRL.PROFILE 0 v
    if (w.opt.get h).first then w.optStart h else w.optReset h

/-- SET_OPT_CTRL.RESET_MODEL. -/
def execOptResetModel (h : Half) (_init : Nat) (s : State) : Out := lift s fun w => w.when (w.opt.get h).sec.isSome fun w => w.optReset h

/-- The largest value that target `t` accepts, where there is one. -/
def OptmSec.tgtMaxOf (o : OptmSec) (t : Nat) : Option Rat :=
  if t = 1 then (o.vars.find? (fun v => v.kind = 1)).map (·.hi)
  else match (o.cons.filter (fun c => c.tgt = t)).map (·.tgtMax) with
    | [] => none
    | a :: l => some (l.foldl max a)

/-- A target register written (R166): 1 THRU, 2 LOSS, 3 DAMAGE, 4 TRASH, 5 PREF; clamped, with TGT_CLAMP. -/
def execOptTargetWrite (h : Half) (_init which v : Nat) (s : State) : Out := lift s fun w =>
  if which = 5 then
    (w.wr h F.SET_OPT_PREF.PREF 0 (min v 100)).wr h F.SET_OPT_STATUS.TGT_CLAMP 0 (b2n (100 < v))
  else w.when (1 ≤ which && which ≤ 4) fun w =>
    let x := f32Val v
    let top := (w.optm h).tgtMaxOf which
    let above : Bool := top.any (fun t => t < x)
    let under : Bool := which ≠ 1 && x < 0
    let lower : Bool := (w.optm h).cons.any (fun c => c.tgt = which && c.tgtMax < x)
    let new := if above then f32Of (top.getD 0) else if under then 0 else v
    (w.wr h (tgtField which) 0 new).wr h F.SET_OPT_STATUS.TGT_CLAMP 0 (b2n (above || under || lower))

/-! History and density (R155, R173–R176). -/

/-- The point of the history at an instant: the newest not after it. -/
def Optim.histAt (o : Optim) (t : Nat) : Option OHist := o.hist.find? (fun x => x.t ≤ t)

/-- What a half knows of function `n`: its own record, or the sibling's mirrored one. -/
def World.fnSeen (w : World) (h : Half) (n : Nat) : FnSt :=
  let x := w.fn h n
  if x.ran then x else NMap.get {} (w.set.get h).mir n

/-- The ground speed, m/s: the process value of MF01. -/
def World.groundV (w : World) (h : Half) : Rat := w.bv h (w.func h 1).pv

/-- FEED_REF, where it is GOOD. -/
def World.feedRefV (w : World) (h : Half) : Option Rat := if w.bq h (w.optm h).feedRef = 0 then some (w.bv h (w.optm h).feedRef) else none

/-- The biomass-ahead product is stale (R176). -/
def World.biomassStale (w : World) (h : Half) : Bool := (w.grd.get h).pubTg + 3 * w.period h < w.mt h

/-- ρ_g(d, t) (R155, R324): c · GRAIN_FRAC · biomass at distance d; none where the product is stale, not GOOD or without a valid cell. -/
def World.densityAhead (w : World) (h : Half) (d : Rat) : Option Rat :=
  let p := refIndex (w.optm h).biomassRef
  if w.biomassStale h || w.rd h F.GRD_PQ.QUALITY p ≠ 0 then none
  else
    let s := w.groundV h * (((w.mt h - (w.grd.get h).pubTg : Nat) : Rat) / 1000000000)
    (w.biomassAt h p (floorN ((d + s) * 10))).map fun b => (w.opt.get h).c * (w.optProfile h).grainFrac * b

/-- The measured density (R176): FEED_REF over the intake's speed at the time; none while that stood still or FEED_REF is not GOOD. -/
def World.densityMeas (w : World) (h : Half) : Option Rat :=
  let o := w.optm h
  let v := (((w.opt.get h).histAt (w.mt h - o.feedRefDelay * 100 * ms)).map (·.v)).getD (w.groundV h)
  match w.feedRefV h with
  | some f => if v = 0 then none else some (f / (36 / 10 * o.headerW * v))
  | none => none

/-- Look-ahead is off: grades G1 and G0 (R177). -/
def World.lookOff (w : World) (h : Half) : Bool := w.gradeOf h ≤ 1

/-- The density used at distance `d`: ahead, or measured while that is stale or the look-ahead is off (R176, R177). -/
def World.density (w : World) (h : Half) (d : Rat) : Option Rat :=
  if w.lookOff h then w.densityMeas h
  else match w.densityAhead h d with
    | some x => some x
    | none => w.densityMeas h

/-- The measured valve latency of a function (R173), s; none where its objects are no valves or no report has come. -/
def World.valveLat (w : World) (h : Half) (n : Nat) : Option Rat :=
  let k := (w.func h n).objA
  if 96 ≤ k then none
  else match (w.eng k).travel with
    | [] => none
    | l => some (((l.foldl (· + ·) 0 : Nat) : Rat) / (l.length : Rat) / 10000000)

/-- The actuator latency L of a variable, s. -/
def World.optLat (w : World) (h : Half) (v : OVar) : Rat := (v.latDecl : Rat) / 1000 + (w.valveLat h v.mf).getD 0

/-- The horizon of the grade (R177), s. -/
def World.horizon (w : World) (h : Half) : Rat :=
  match w.gradeOf h with
  | 4 => (w.optm h).horizon
  | 3 => min (w.optm h).horizon 4
  | 2 => min (w.optm h).horizon 4
  | _ => 0

/-- τ of a variable before its clamp (R174). -/
def World.optTau (w : World) (h : Half) (v : OVar) : Rat := w.optLat h v - (if v.mf = 1 then 0 else (v.tPa : Rat) / 10)

/-- The optimizer governs a variable's set-point in the mode in force (R164). -/
def Optim.governs (o : Optim) (v : OVar) : Bool := o.mode = 2 || (o.mode = 1 && v.assist)

/-- SP_op of the THROUGHPUT variable (R164); none without a density. -/
def World.opThroughput (w : World) (h : Half) : Option Rat :=
  (w.density h 0).map fun r => 36 / 10 * (w.optm h).headerW * f32Val (w.rd h F.SET_MF_SP.VALUE 1) * r

/-- The THROUGHPUT variable. -/
def OptmSec.throughput (o : OptmSec) : Option (Nat × OVar) := (o.vars.zipIdx.find? (fun v => v.1.kind = 1)).map (fun v => (v.2, v.1))

/-- HI of the THROUGHPUT variable, lowered by TGT_THRU (R166). -/
def World.thruHi (w : World) (h : Half) (v : OVar) : Rat := min v.hi (f32Val (w.rd h F.SET_OPT_TGT_THRU.VALUE))

/-- Q*, the throughput set-point in force (R175): the optimizer's with its dither, or the operator's; F_hdr where MF01 is unused. -/
def World.qStar (w : World) (h : Half) (f : Rat) : Rat :=
  let o := w.opt.get h
  match (w.optm h).throughput with
  | none => f
  | some (i, v) =>
    if !(w.func h 1).used then f
    else if o.governs v then
      (match o.sp.getD i none with
      | some x => clampR v.lo (w.thruHi h v) (x + o.offset i v)
      | none => (w.opThroughput h).getD f)
    else (w.opThroughput h).getD f

/-- A point of the history, with the free value that stands where no density gives F_hdr. -/
def World.histPoint (w : World) (h : Half) (u : Rat) : OHist :=
  let o := w.optm h
  let v := w.groundV h
  let f := if v = 0 then 0 else match w.density h 0 with
    | some r => 36 / 10 * o.headerW * v * r
    | none => u
  let pvr := o.vars.map (fun x => (w.func h x.mf).pv)
  { t := w.mt h, f := f, v := v, pv := pvr.map (w.bv h), fOk := w.bq h (w.func h 1).pv = 0 && (v = 0 || (w.density h 0).isSome)
    pvOk := pvr.map (fun r => w.bq h r = 0)
    clear := o.vars.all (fun x =>
      let z := w.fnSeen h x.mf
      z.ovr = .none || z.ovr = .limited || (z.ovr = .hold && z.conflictAt.isNone)) }

/-- The grain correction (R155), while both feeds of its quotient exceed 10 t/h; time constant 30 s. -/
def World.optCorr (w : World) (h : Half) (f : Rat) : World :=
  let o := w.opt.get h
  match w.feedRefV h, o.histAt (w.mt h - (w.optm h).feedRefDelay * 100 * ms) with
  | some x, some p =>
    w.when (decide (10 < f) && decide (10 < p.f)) fun w =>
      let c := clampR (1 / 2) 2 (o.c + (x / p.f - o.c) * (1 - Config.expR (-(1 : Rat) / 1500)))
      (w.updOpt h fun m => { m with c := c }).wr h F.SET_OPT_CORR.CORR 0 (satTo 16 (roundN (c * 1000)))
  | _, _ => w

/-- F_pa of a variable (R174). -/
def World.feedAt (w : World) (h : Half) (tau : Rat) : Option Rat :=
  if 0 ≤ tau then (w.densityAhead h (w.groundV h * tau)).map fun r => 36 / 10 * (w.optm h).headerW * w.groundV h * r
  else ((w.opt.get h).histAt (w.mt h - floorN (-tau * 1000000000))).map (·.f)

/-- The feed-forward of a variable (R175, R176): 0 while the biomass is stale or the look-ahead off, for the THROUGHPUT variable and for a
function without FF_SRC 2. -/
def World.ffOf (w : World) (h : Half) (v : OVar) (q : Rat) : Rat :=
  if v.kind = 1 || (w.func h v.mf).ffSrc ≠ 2 || w.lookOff h || (w.densityAhead h 0).isNone then 0
  else ((w.feedAt h (min (w.optTau h v) (w.horizon h))).map (· - q)).getD 0

/-- The ground-speed set-point (R175); with the free value where no density gives it. -/
def World.speedSp (w : World) (h : Half) (v : OVar) (q u : Rat) : Rat :=
  let r := w.func h 1
  match w.density h (w.groundV h * w.optLat h v) with
  | some d => clampR r.spMin r.spMax (if d = 0 then u else q / (36 / 10 * (w.optm h).headerW * d))
  | none => clampR r.spMin r.spMax u

/-- A 20 ms boundary (R175): the history's point, the correction, the latencies, the feed-forwards and the ground speed. -/
def execLookaheadUpdate (h : Half) (s : State) : Out := lift s fun w =>
  w.when (w.optRuns s.own h) fun w =>
    let u := w.free.1
    let w := w.free.2
    let u2 := w.free.1
    let w := w.free.2
    let p := w.histPoint h (f32Val u.toNat)
    let w := w.updOpt h fun o => { o with hist := (p :: o.hist).filter (fun x => w.mt h ≤ x.t + 60 * sec) }
    let w := w.optCorr h p.f
    let o := w.optm h
    let q := w.qStar h p.f
    let ff := o.vars.map (fun v => w.ffOf h v q)
    let vsp := (o.throughput.map (fun v => w.speedSp h v.2 q (f32Val u2.toNat))).getD (w.opt.get h).vsp
    let w := w.updOpt h fun m => { m with ff := ff, vsp := vsp }
    let w := w.forAll o.vars.zipIdx fun w x =>
      let tau := min (w.optTau h x.1) (w.horizon h)
      let w := w.wr h F.SET_OPT_LAT.LAT x.2 (satTo 16 (roundN (w.optLat h x.1 * 1000)))
      let w := w.wrI h F.SET_OPT_LAT.TAU x.2 (clampI (-32768) 32767 (roundR (tau * 100)))
      w.wr h F.SET_OPT_FF.VALUE x.2 (f32Of (ff.getD x.2 0))
    let late := o.vars.any (fun v => decide (w.horizon h < w.optTau h v))
    (w.wr h F.SET_OPT_STATUS.LATE_FF 0 (b2n late)).wr h F.SET_OPT_STATUS.LAT_DEFAULT 0 (b2n (o.vars.any (fun v => (w.valveLat h v.mf).isNone)))

/-! Probing dither (R172). -/

/-- One step of the 15-bit register with characteristic polynomial x^15 + x^14 + 1. -/
def lfsrStep (r : Nat) : Nat := r / 2 + (if (r % 2 + r / 2 ^ 14) % 2 = 1 then 2 ^ 14 else 0)

/-- DITH_HOLD × 200 ms have passed for variable `i`. -/
def execDitherStep (h : Half) (i : Nat) (s : State) : Out := lift s fun w =>
  w.when (w.optRuns s.own h && ((w.optm h).vars.getD i {}).dither) fun w =>
    w.updOpt h fun o => { o with lfsr := listSet o.lfsr i (lfsrStep (o.lfsr.getD i 0)) }

end Sys2Proof.Machine
end

