-- ==== Sys2Proof/Machine/OptSolve.lean ====
section
/-!
DEFINITION. The solve of the setting problem (R157–R169, R172, R177, R178).
-/
namespace Sys2Proof.Machine

/-! Vectors. -/

/-- The scalar product. -/
def dotR (a b : List Rat) : Rat := sumR (List.zipWith (fun x y => x * y) a b)

/-- A matrix times a vector. -/
def matVec (m : List (List Rat)) (v : List Rat) : List Rat := m.map (fun r => dotR r v)

/-- A matrix scaled. -/
def matScale (k : Rat) (m : List (List Rat)) : List (List Rat) := m.map (fun r => r.map (fun x => k * x))

/-- The trace. -/
def trace (m : List (List Rat)) : Rat := sumR (m.zipIdx.map (fun r => r.1.getD r.2 0))

/-! Outcome samples (R168, R265). -/

/-- The grain-classified hit rate of a mask in the solve interval, hits/s, and whether it is GOOD: the sum of the last two windows, a
window that is not GOOD taking the last GOOD one's value. -/
def World.hitRate (w : World) (mask : Nat) : Rat × Bool :=
  let val (k : Nat) : Rat := (((w.uin.wins.drop k).find? (fun x => maskGood x mask)).map (fun x => maskCount x mask)).getD 0
  (5 * (val 0 + val 1), 2 ≤ w.uin.wins.length && (w.uin.wins.take 2).all (fun x => maskGood x mask))

/-- An outcome's sample of this solve; a loss at no measured feed has no stated value: `u` is the free value. -/
def World.outcome (w : World) (h : Half) (o : OOut) (u : Rat) : Rat × Bool :=
  match o.type_ with
  | 1 =>
    let (r, g) := w.hitRate o.mask
    (match w.feedRefV h with
    | some f => (if f = 0 then u else 36 / 100 * r * o.param / f, g)
    | none => (u, false))
  | 2 => (f32Val (w.rd h F.GRD_PVAL.VALUE (refIndex o.ref)), w.rd h F.GRD_PQ.QUALITY (refIndex o.ref) = 0)
  | 3 => (f32Val (w.rd h F.GRD_PVAL.VALUE (refIndex o.ref)), w.rd h F.GRD_PQ.QUALITY (refIndex o.ref) = 0)
  | _ => (w.bv h o.ref, w.bq h o.ref = 0)

/-! Learning (R167–R169, R177). -/

/-- The regressor of an outcome, and whether the feed, the bindings and the overrides allow its sample; none before the history
reaches back far enough. -/
def World.regressor (w : World) (h : Half) (j : Nat) (o : OOut) : Option (List Rat × Bool) :=
  let sec := w.optm h
  let m := w.opt.get h
  let now := w.mt h
  let ds := (List.range sec.vars.length).map (fun i => (sec.delay.getD i []).getD j 0 * 200 * ms)
  let fd := o.feedDelay * 100 * ms
  let pts := ds.map (fun d => m.histAt (now - d))
  let oldest := now - ds.foldl max fd
  match m.histAt (now - fd) with
  | none => none
  | some f =>
    if pts.any (·.isNone) then none
    else
      let pvs := pts.zipIdx.map (fun p => ((p.1.map (·.pv)).getD []).getD p.2 0)
      let oks := pts.zipIdx.all (fun p => ((p.1.map (·.pvOk)).getD []).getD p.2 false)
      some (1 :: f.f :: pvs, f.fOk && oks && decide (10 ≤ f.f) && (m.hist.filter (fun x => oldest ≤ x.t)).all (·.clear))

/-- One accepted sample of the recursive least squares (R167). -/
def OLearn.update (l : OLearn) (o : OptmSec) (phi : List Rat) (e : Rat) : OLearn :=
  let pphi := matVec l.p phi
  let k := pphi.map (fun x => x / (o.lambda + dotR phi pphi))
  let p := matScale (1 / o.lambda) (List.zipWith (fun row ki => List.zipWith (fun x y => x - ki * y) row pphi) l.p k)
  let p := if o.pMax < trace p then matScale (o.pMax / trace p) p else p
  { l with theta := List.zipWith (fun t ki => t + ki * e) l.theta k, p := p, errs := (e * e :: l.errs).take 50, discards := 0 }

/-- The running check of R169: |e| ≤ 5 · (λ + φᵀPφ)^½ · σ, in squares; before a first accepted sample there is no σ, and it passes. -/
def OLearn.accepts (l : OLearn) (o : OptmSec) (phi : List Rat) (e : Rat) : Bool :=
  l.errs.isEmpty || decide (e * e * (l.errs.length : Rat) ≤ 25 * (o.lambda + dotR phi (matVec l.p phi)) * sumR l.errs)

/-- One outcome at a solve: its sample joins those of the last AVG solves, and updates the model where all conditions of R169 hold;
25 discards in a row reset P. `frozen`: the grade keeps the model as it is. -/
def World.learnOne (w : World) (h : Half) (u : Rat) (frozen : Bool) (j : Nat) (l : OLearn) : OLearn :=
  let sec := w.optm h
  let o := sec.outs.getD j {}
  let l := { l with samples := (w.outcome h o u :: l.samples).take o.avg }
  if !o.learn || frozen || w.opState h ≠ 3 || !l.samples.all (·.2) then l
  else match w.regressor h j o with
    | some (phi, true) =>
      let y := sumR (l.samples.map (·.1)) / (l.samples.length : Rat)
      let e := y - dotR l.theta phi
      if l.accepts sec phi e then l.update sec phi e
      else if l.discards + 1 = 25 then { l with p := sec.p0 (w.optProfile h).p0, discards := 0 }
      else { l with discards := l.discards + 1 }
    | _ => l

/-- The model update of a solve: nothing at G0; DAMAGE and TRASH frozen from G2 down. -/
def World.optLearn (w : World) (h : Half) (u : Rat) : World :=
  let g := w.gradeOf h
  let learn := (w.opt.get h).learn.zipIdx.map fun x =>
    let ty := ((w.optm h).outs.getD x.2 {}).type_
    w.learnOne h u (g = 0 || (g ≤ 2 && (ty = 2 || ty = 3))) x.2 x.1
  w.updOpt h fun m => { m with learn := learn }

/-! The problem (R157, R158, R163, R164, R166, R177, R178). -/

/-- A SETTING variable whose function is overridden or out of its states (R163). -/
def World.optHeld (w : World) (h : Half) (v : OVar) : Bool :=
  let z := (w.fnSeen h v.mf).ovr
  v.kind = 0 && (!(z = .none || z = .limited) || !bitOf (w.func h v.mf).stateMask (w.opState h))

/-- A variable of a function that the sibling runs while the Crossing is not UP (R178). -/
def World.optCut (w : World) (own : Own) (h : Half) (v : OVar) : Bool :=
  v.kind ≠ 2 && !w.fnRuns own h v.mf && !w.flag h F.XNG_STATUS.UP

/-- x⁰ of a variable: the set-point in force; the process value of a held one. -/
def World.optX0 (w : World) (h : Half) (i : Nat) (v : OVar) : Rat :=
  let o := w.opt.get h
  let f := ((o.hist.head?).map (·.f)).getD 0
  if v.kind = 2 then 0
  else if w.optHeld h v then (w.fnSeen h v.mf).lastPv
  else
    let op := if v.kind = 1 then (w.opThroughput h).getD f else f32Val (w.rd h F.SET_MF_SP.VALUE v.mf)
    if o.governs v then (o.sp.getD i none).getD op else op

/-- [lo, hi] of a variable (R158): narrowed by TGT_THRU and, in ASSIST, to the operator's value. -/
def World.optRange (w : World) (h : Half) (v : OVar) : Rat × Rat :=
  let b := v.bounds (w.func h v.mf)
  let b := if v.kind = 1 then (b.1, w.thruHi h v) else b
  if (w.opt.get h).mode = 1 && v.assist then
    let op := if v.kind = 1 then (w.opThroughput h).getD 0 else f32Val (w.rd h F.SET_MF_SP.VALUE v.mf)
    (max b.1 (op - v.assistBand), min b.2 (op + v.assistBand))
  else b

/-- LIMIT of a constraint in force: the operator's target where it names one; tightened by PARAM of each DAMAGE or TRASH outcome in it
from G2 down. -/
def World.optLimit (w : World) (h : Half) (c : OCon) : Rat :=
  let l := if c.tgt = 0 then c.limit else min (f32Val (w.rd h (tgtField c.tgt))) c.tgtMax
  let outs := (w.optm h).outs
  let tight (k : Nat) : Rat := let o := outs.getD k {}; if o.type_ = 2 || o.type_ = 3 then o.param else 0
  if 2 < w.gradeOf h then l
  else
    let t := tight c.a + (if c.b = 0xFF then 0 else tight c.b)
    if c.ge then l + t else l - t

/-- A solve's problem: the point it starts from, each variable's R and gradient, the bounds of its step, and the constraints with their
priorities and limits. -/
structure OptProb where
  x0 : List Rat
  r : List Rat
  grad : List Rat
  box : List (Rat × Rat)
  cons : List (Nat × Rat × Lin)
deriving DecidableEq, Repr

/-- The problem of a solve. -/
def World.optProb (w : World) (own : Own) (h : Half) : OptProb :=
  let sec := w.optm h
  let o := w.opt.get h
  let theta := o.learn.map (·.theta)
  let x0 := sec.vars.zipIdx.map (fun x => w.optX0 h x.2 x.1)
  let feed := match sec.throughput with
    | some (i, _) => x0.getD i 0
    | none => ((o.hist.head?).map (·.f)).getD 0
  let pred := predict theta feed x0
  let wt := sec.wThru * (w.rd h F.SET_OPT_PREF.PREF : Rat) / 50
  { x0 := x0, r := sec.vars.map (·.r)
    grad := sec.vars.zipIdx.map (fun x =>
      sumR (sec.outs.zipIdx.map (fun y => y.1.w * gradAt x.1 x.2 (theta.getD y.2 []))) - (if x.1.kind = 1 then wt else 0))
    box := sec.vars.zipIdx.map (fun x =>
      if x.1.kind = 2 || w.optHeld h x.1 || w.optCut own h x.1 then ((0 : Rat), (0 : Rat))
      else
        let b := w.optRange h x.1
        let a := x0.getD x.2 0
        (max (b.1 - a) (-x.1.step), min (b.2 - a) x.1.step))
    cons := sec.cons.map (fun c => let l := w.optLimit h c; (c.prio, l, conLin sec.vars theta pred c l)) }

/-! The solver's result (R159): the multipliers show that the step is the one optimum, and that a set dropped from is infeasible. -/

/-- The constraints and bounds left once `k` classes are dropped: 3, then 2, then 1. -/
def OptProb.kept (p : OptProb) (k : Nat) : List Lin := ((p.cons.filter (fun c => c.1 + k ≤ 3 || c.1 = 0)).map (·.2.2)) ++ boxLins p.box

/-- The multipliers show that a set has no solution. -/
def farkasOk (n : Nat) (l : List Lin) (y : List Rat) : Bool :=
  y.length = l.length && y.all (fun q => 0 ≤ q) && dotR y (l.map (·.b)) < 0 &&
    (List.range n).all (fun i => dotR y (l.map (fun c => c.co.getD i 0)) = 0)

/-- A step meets every constraint of a set. -/
def stepOk (l : List Lin) (dx : List Rat) : Bool := l.all (fun c => dotR c.co dx ≤ c.b)

/-- The step is the optimum of the set, by its multipliers. -/
def OptProb.kkt (p : OptProb) (l : List Lin) (dx mu : List Rat) : Bool :=
  dx.length = p.x0.length && stepOk l dx && mu.length = l.length && mu.all (fun q => 0 ≤ q) &&
    (l.zip mu).all (fun c => c.2 * (c.1.b - dotR c.1.co dx) = 0) &&
    (List.range dx.length).all (fun i =>
      p.r.getD i 0 * dx.getD i 0 + p.grad.getD i 0 + dotR mu (l.map (fun c => c.co.getD i 0)) = 0)

/-- J of a step. -/
def OptProb.cost (p : OptProb) (dx : List Rat) : Rat :=
  dotR p.r (dx.map (fun x => x * x)) / 2 + dotR p.grad dx

/-- The result is one that R159 gives. -/
def OptProb.valid (p : OptProb) (s : OptSol) : Bool :=
  let k := s.farkas.length
  let certs := s.farkas.zipIdx.all (fun y => farkasOk p.x0.length (p.kept y.2) y.1)
  s.iter ≤ 64 && certs &&
    (match s.res with
    | 0 => k = 0 && p.kkt (p.kept 0) s.dx s.mu
    | 1 => 1 ≤ k && k ≤ 3 && p.kkt (p.kept k) s.dx s.mu
    | 2 => k ≤ 3 && s.iter = 64 && s.dx.length = p.x0.length && stepOk (p.kept k) s.dx && p.cost s.dx ≤ 0
    | 3 => k = 4
    | 4 => k ≤ 3 && s.iter = 64
    | _ => false)

/-! The solve (R159–R165, R172). -/

/-- The mode written takes effect (R165): where the optimizer lets go of a variable, its last set-point is copied into SET_MF_SP. -/
def World.optMode (w : World) (h : Half) : World :=
  let o := w.opt.get h
  let new := w.rd h F.SET_OPT_CTRL.MODE
  let w := w.forAll ((w.optm h).vars.filter (fun v => v.kind ≠ 2 && o.governs v && !({ o with mode := new } : Optim).governs v)) fun w v =>
    w.wr h F.SET_MF_SP.VALUE v.mf (f32Of (w.optSp h v.mf))
  w.updOpt h fun m => { m with mode := new }

/-- Set-points may be written: ASSIST or AUTO, in a state of STATE_MASK (R162). -/
def World.optWrites (w : World) (h : Half) : Bool := (w.opt.get h).mode ≠ 0 && bitOf (w.optm h).stateMask (w.opState h)

/-- The set-points in force after a solve: `x` gives the new ones of the governed variables. -/
def World.optApply (w : World) (own : Own) (h : Half) (p : OptProb) (x : Nat → OVar → Rat) : World :=
  let o := w.opt.get h
  let wr := w.optWrites h
  let sp := (w.optm h).vars.zipIdx.map fun v =>
    if v.1.kind = 2 then none
    else if wr && o.governs v.1 && !w.optHeld h v.1 && !w.optCut own h v.1 then some (x v.2 v.1) else some (p.x0.getD v.2 0)
  w.updOpt h fun m => { m with sp := sp }

/-- The dither's conditions after a solve (R172), with the offsets that the next step applies. -/
def World.ditherCond (w : World) (h : Half) (p : OptProb) (s : OptSol) : Bool :=
  let o := w.opt.get h
  let sec := w.optm h
  let off := sec.vars.zipIdx.map (fun v => if w.optHeld h v.1 then 0 else o.ditherOf v.2 v.1)
  o.mode = 2 && w.flag h F.SET_OPT_CTRL.DITH_EN && w.opState h = 3 && 1 ≤ w.gradeOf h && s.res = 0 &&
    p.cons.all (fun c => (sec.dithMargin : Rat) / 1000 * absR c.2.1 ≤ c.2.2.b - dotR c.2.2.co (List.zipWith (fun a b => a + b) s.dx off))

/-- The dither after a solve: off where a condition fails, on again 5 s after all hold. -/
def World.ditherSet (w : World) (h : Half) (ok : Bool) : World :=
  let bad := if ok then (w.opt.get h).dithBadAt else w.now
  let on := ok && bad + 5 * sec ≤ w.now
  (w.updOpt h fun m => { m with dithOn := on, dithBadAt := bad }).wr h F.SET_OPT_STATUS.DITHER_ON 0 (b2n on)

/-- The registers of a solve. -/
def World.optResult (w : World) (h : Half) (res iter dur dropped : Nat) : World :=
  (((w.wr h F.SET_OPT_STATUS.RES 0 res).wr h F.SET_OPT_STATUS.ITER 0 iter).wr h F.SET_OPT_STATUS.DROPPED 0 dropped).wr h
    F.SET_OPT_CORR.SOLVE_T 0 (satTo 16 dur)

/-- The classes dropped after `k` relaxations, as DROPPED shows them. -/
def droppedBits : Nat → Nat
  | 0 => 0
  | 1 => 4
  | 2 => 6
  | _ => 7

/-- A feasible solve (R159): the solution is published and written; EVT_OPT_RELAXED on the first RELAXED one after an OK one. -/
def World.optFeasible (w : World) (own : Own) (h : Half) (p : OptProb) (s : OptSol) : World :=
  let x (i : Nat) : Rat := p.x0.getD i 0 + s.dx.getD i 0
  let w := w.forAll (w.optm h).vars.zipIdx fun w v => w.wr h F.SET_OPT_SOLN.VALUE v.2 (f32Of (x v.2))
  let w := w.optApply own h p (fun i _ => x i)
  let w := w.when (s.res = 1 && !(w.opt.get h).relaxed) fun w => w.raise h 247 (evArg 0xFFFF 0xFF 0)
  let w := w.updOpt h fun m => { m with fails := 0, okRun := m.okRun + 1, relaxed := s.res = 1 || (m.relaxed && s.res ≠ 0) }
  (w.wr h F.SET_OPT_STATUS.FAILS 0 0).wr h F.SET_OPT_STATUS.RETREAT 0 0

/-- A fallback (R160): the last set-points stay; once the retreat has begun its variables move by STEP at every solve. -/
def World.optFallback (w : World) (own : Own) (h : Half) (p : OptProb) : World :=
  let back := w.flag h F.SET_OPT_STATUS.RETREAT
  let w := w.when back fun w => w.optApply own h p fun i v =>
    let b := w.optRange h v
    let a := p.x0.getD i 0
    if v.retreat then clampR b.1 b.2 (if v.retreatUp then a + v.step else a - v.step) else a
  let n := (w.opt.get h).fails + 1
  let w := (w.updOpt h fun m => { m with fails := n, okRun := 0 }).wr h F.SET_OPT_STATUS.FAILS 0 (satTo 4 n)
  let w := w.when (n = 1) fun w => w.raise h 246 (evArg 0xFFFF 0xFF 0)
  w.when (n = (w.optm h).retreatN) fun w => (w.wr h F.SET_OPT_STATUS.RETREAT 0 1).raise h 246 (evArg 0xFFFF 0xFF 0)

/-- A solve at a multiple of 200 ms (R161). `sol` is what the solver ends with; one that R159 does not give has no effect. -/
def execOptSolve (h : Half) (sol : OptSol) (s : State) : Out := lift s fun w =>
  if !w.optRuns s.own h then w
  else
    let u := w.free.1
    let w1 := w.free.2
    let w1 := (w1.optMode h).optLearn h (f32Val u.toNat)
    let idle := (w1.opt.get h).idle
    let g := w1.gradeOf h
    let w1 := w1.updOpt h fun m => { m with idle := false, first := false, okRun := if idle || g = 0 then 0 else m.okRun }
    if idle then (w1.optResult h 6 0 sol.us 0).ditherSet h false
    else if w1.gradeOf h = 0 then (w1.optResult h 5 0 sol.us 0).ditherSet h false
    else
      let p := w1.optProb s.own h
      if !p.valid sol then w
      else
        let w1 := w1.optResult h sol.res sol.iter sol.us (droppedBits sol.farkas.length)
        let ok := w1.ditherCond h p sol
        let w1 := if sol.res ≤ 2 then w1.optFeasible s.own h p sol else w1.optFallback s.own h p
        w1.ditherSet h ok

end Sys2Proof.Machine
end

