-- ==== Sys2Proof/Machine/Latch.lean ====
section
/-!
DEFINITION. The power latch and KEY_IN (R102–R104, R106), LOGIC_IN's validity (R89).
-/
namespace Sys2Proof.Machine

/-- The latch changed. -/
def World.updLatch (w : World) (f : Latch → Latch) : World := { w with latch := f w.latch }

/-- Either half requests the hold. -/
def World.holdReq (w : World) : Bool := w.flag .A F.STW_HOLD.HOLD_REQ || w.flag .B F.STW_HOLD.HOLD_REQ

/-- 30 s have passed since KEY_IN went off (R103). -/
def World.holdOver (w : World) : Bool := w.latch.keySeen && !w.latch.keyOn && w.latch.keyOffAt + 30 * sec ≤ w.now

/-- PWR_HOLD (R102, R103), shown in both halves. -/
def World.latchEval (w : World) : World :=
  let on := !w.holdOver && (w.latch.keyOn || w.latch.startup || w.holdReq)
  (w.updLatch fun l => { l with pwrHold := on }).wrBoth F.STW_HOLD.PWR_HOLD 0 (b2n on)

/-- HOLD_REQ of a half. -/
def World.setHoldReq (w : World) (h : Half) (on : Bool) : World := (w.wr h F.STW_HOLD.HOLD_REQ 0 (b2n on)).latchEval

/-- LOGIC_IN has stood at or above 8.0 V for 2 ms (R89): its voltage, 10 mV. The filtered KEY_IN is off, the 5 s of R102 start. -/
def execLogicInValid (v : Nat) (s : State) : Out := lift s fun w =>
  w.when (!w.latch.logicValid && !w.pwr.fail && 800 ≤ v) fun w =>
    let w := { w with latch := { Latch.init with logicValid := true, validAt := w.now, startup := true, forced := w.latch.forced } }
    let w := (w.wr .A F.PWR_STATUS.LSTATE 0 (if w.classLimit < v then 4 else if 900 ≤ v then 1 else 2)).wr .A F.PWR_LOGIC.V 0 (satTo 16 v)
    (w.wrBoth F.STW_HOLD.KEY 0 0).latchEval

/-- KEY_IN has read on for 10 ms (R104): a shutdown that has not reached Cupping is cancelled (R106). -/
def State.cancelShutdown (s : State) (h : Half) : State :=
  s.when ((s.w.shut.get h).step ≠ 0 && (s.w.shut.get h).step < 4 && (s.w.run.get h).running) fun s =>
    let s := s.onW fun w =>
      let w := { w with shut := w.shut.set h Shut.init }
      let w := w.updSet h fun e => { e with fn := [], mir := [] }
      w.wr h F.SET_STATE.STATE 0 0
    s.when (s.own.serves h) fun s => s.claimAll h s.own.orphans

/-- KEY_IN goes on (R104). -/
def execKeyInOn (s : State) : Out :=
  .next (s.when (s.w.latch.logicValid && !s.w.latch.keyOn) fun s =>
    let s := s.onW fun w =>
      ((w.updLatch fun l => { l with keyOn := true, keySeen := true }).wrBoth F.STW_HOLD.KEY 0 1).latchEval
    (s.cancelShutdown .A).cancelShutdown .B)

/-- KEY_IN has read off for 100 ms (R104): the 30 s of R103 start. The shutdown begins with its own command. -/
def execKeyInOff (s : State) : Out := lift s fun w =>
  w.when (w.latch.logicValid && (w.latch.keyOn || !w.latch.keySeen)) fun w =>
    ((w.updLatch fun l => { l with keyOn := false, keySeen := true, keyOffAt := w.now }).wrBoth F.STW_HOLD.KEY 0 0).latchEval

/-- 5 s after LOGIC_IN became valid (R102). -/
def execPwrHoldStartupExpiry (s : State) : Out := lift s fun w =>
  w.when (w.latch.startup && w.latch.validAt + 5 * sec ≤ w.now) fun w => (w.updLatch fun l => { l with startup := false }).latchEval

/-- 30 s after KEY_IN went off PWR_HOLD is released whatever the requests say (R103). -/
def execPwrHoldForcedRelease (s : State) : Out := lift s fun w =>
  w.when (w.holdOver && w.latch.pwrHold) fun w =>
    ((w.updLatch fun l => { l with forced := true }).wrBoth F.STW_HOLD.FORCED 0 1).latchEval

end Sys2Proof.Machine
end

