-- ==== Sys2Proof/Machine/Home.lean ====
section
/-!
DEFINITION. Function groups and the home halves of functions and objects (R453, R454).
-/
namespace Sys2Proof.Machine

/-- The functions that function `n` is joined to: by a SP_SRC FUNCTION or OUT_KIND FUNC reference of either. -/
def fnJoined (recs : List Func) (n : Nat) : List Nat :=
  let refs (k : Nat) : List Nat :=
    let r := recs.getD k {}
    if !r.used then [] else (if r.spSrc = 3 then [r.spRef] else []) ++ (if r.outKind = 7 then [r.outRef] else [])
  refs n ++ (List.range 30).filter (fun k => (refs k).contains n)

/-- A set of functions closed under the joins. -/
def fnClose (recs : List Func) : Nat → List Nat → List Nat
  | 0, l => l
  | k + 1, l => fnClose recs k ((List.range 30).filter (fun n => l.contains n || l.any (fun m => (fnJoined recs m).contains n)))

/-- The group of function `n`, ascending. -/
def fnGroup (recs : List Func) (n : Nat) : List Nat := fnClose recs 30 [n]

/-- Every group, by its lowest function. -/
def fnGroups (recs : List Func) : List (List Nat) :=
  ((List.range 30).filter (fun n => (recs.getD n {}).used && (fnGroup recs n).head? = some n)).map
    (fun n => (fnGroup recs n).filter (fun k => (recs.getD k {}).used))

/-- A group is homed to the serving half: it contains a function of OUT_KIND CAN. -/
def groupServed (recs : List Func) (g : List Nat) : Bool := g.any (fun n => (recs.getD n {}).outKind = 6)

/-- The home of a group, with the half that serves. -/
def groupHome (recs : List Func) (srv : Half) (g : List Nat) : Half :=
  if groupServed recs g then srv else if (g.headD 0) % 2 = 0 then .A else .B

/-- The functions homed to Half B by their numbers. -/
def homesB (recs : List Func) : List Nat :=
  (fnGroups recs).flatMap (fun g => if !groupServed recs g && g.headD 0 % 2 = 1 then g else [])

/-- The output objects of a group. -/
def World.groupObjs (w : World) (h : Half) (g : List Nat) : List Nat := (List.range nObj).filter (fun k => g.any (fun n => ((w.func h n).outs).contains k))

/-- The home of function `n` (STW_HOME): as found at Bloom step 6; what is homed to the serving half follows it. -/
def World.fnHome (w : World) (h srv : Half) (n : Nat) : Half :=
  let recs := (w.funcs h).recs
  if (w.set.get h).homeB.contains n then .B
  else if groupServed recs (fnGroup recs n) then srv else .A

/-- The home of object `k` (R453 items 4 and 5). -/
def World.objHome (w : World) (h srv : Half) (k : Nat) : Half :=
  match (List.range 30).find? (fun n => (w.func h n).used && ((w.func h n).outs).contains k) with
  | some n => if k < 144 then w.fnHome h srv n else srv
  | none => srv

end Sys2Proof.Machine
end

