-- ==== Sys2Proof/Machine/Start.lean ====
section
/-!
DEFINITION. Power-on of the backplane, Green, the release of a half's reset, Bloom, Pour (R76, R86–R101, R453, R508).
-/
namespace Sys2Proof.Machine

/-- What runs of a half changed. -/
def World.updRun (w : World) (h : Half) (f : Run → Run) : World := { w with run := w.run.upd h f }

/-! Green of the backplane (R91). -/

/-- The order in which the Green sequencers act: feeds; pump and fans; sensor supplies; CAN; load switches; valves; displays. -/
def greenOrder : List Nat :=
  List.range' 358 4 ++ List.range' 354 4 ++ (List.range 16).map (fun n => objU (8 * n)) ++ List.range' 336 16 ++ List.range' 96 48 ++
    List.range 96 ++ [352, 353]

/-- The registers of a half that outlast a backplane power-off: the life counters and the Cupping records (backplane memory and record
store), the latch's flag. -/
def keptOff (reg : Nat) : Bool :=
  [0xb0, 0xb4, 0xb8, 0x88, 0x130001c, 0x1300020, 0x1300028].contains reg || (0x1300200 ≤ reg && reg < 0x1300480)

/-- The registers of a half that outlast its reset: those, and what the backplane or the half's memory holds. -/
def keptReset (reg : Nat) : Bool :=
  keptOff reg || [0xa4, 0xa8, F.OWN_ORPHAN_T.T.reg, F.FLX_YLD.ACKED.reg, F.SET_YLD_RING_HEAD.VALUE.reg, F.SET_YLD_RING_TAIL.VALUE.reg].contains reg

/-- The part of a register file with the registers that satisfy `p`. -/
def keepRegs (p : Nat → Bool) (r : RegFile) : RegFile := r.filter (fun e => p (e.1 % 2 ^ 25))

/-- A half without power: nothing of it runs. -/
def World.halfOff (w : World) (h : Half) : World :=
  let w := { w with regs := w.regs.upd h (keepRegs keptOff), shut := w.shut.set h { Shut.init with trunc := (w.shut.get h).trunc } }
  { w with run := w.run.set h Run.init, dram := w.dram.set h [] }

/-- The backplane of a powered-off module powers up (R91): the straps of T_SH, the tiles present. -/
def State.backplaneOn (s : State) (t1 t0 : Bool) (tiles : Nat) : State :=
  let w := s.w
  let lst := w.rd .A F.PWR_STATUS.LSTATE
  let loss := w.rd .A F.PWR_STATUS.LAST_LOSS
  let w := { w with
    bregs := [], vlv := Valves.init, lsw := Switches.init, uin := Inputs.init, can := {}, dsp := {}, pwr := {}, keeper := {}, act := none
    cal := { w.cal with token := none } }
  let w := (w.halfOff .A).halfOff .B
  let w := (w.wr .A F.PWR_STATUS.LSTATE 0 lst).wr .A F.PWR_STATUS.LAST_LOSS 0 loss
  let w := (w.wr .A F.PWR_SHDN.T_SH 0 (strapTsh t1 t0)).wrBoth F.STW_HOLD.HOLD_REQ 0 0
  let w := { w with svc := { w.svc with prepared := none, tile := 0, busy := false } }
  let w := w.forAll ((List.range 6).filter (bitOf tiles)) fun w t =>
    (w.wr .A F.VLV_TILE.PRESENT t 1).updTile t fun x => { x with ready := true }
  let w := w.wr .A F.CAL_STATUS.INVALID 0 (satTo 9 (ledgerInvalid s.ledger))
  let w := w.forAll (List.range nObj) World.safeObj
  let w := (w.forAll greenOrder World.greenObj).latchEval
  let low (h : Half) : Low := { (s.own.low.get h) with heldReset := true, watchdog := false, fenced := false }
  { s with w := w, own := { Own.init with low := ⟨low .A, low .B⟩ } }

/-- Backplane power-on: while no half runs; the journal is read before any other access of the Ledger (R520). -/
def execBackplanePowerOn (t1 t0 : Bool) (tiles : Nat) (s : State) : Out :=
  .next (s.when (!(s.w.run.get .A).running && !(s.w.run.get .B).running) fun s =>
    let due := (List.range 48).any (journalDue s.ledger)
    (s.replayJournal.backplaneOn t1 t0 tiles).onW fun w => w.when due fun w => w.wr .A F.CAL_STATUS.REPLAYED 0 1)

/-! The release of a half's reset (R89, R93). -/

/-- What a half that comes out of reset starts with: registers at their reset values but for those that outlast the reset, empty
queues and engines; its flash (regions, Roasts, keys, and what shutdown step 2 stored) and its memory stay. -/
def World.halfFresh (w : World) (h : Half) (cause : Nat) : World :=
  let r := w.run.get h
  let ctrlOk := w.rd h F.CUP_STATUS.CTRL_OK
  let w := { w with regs := w.regs.upd h (keepRegs keptReset) }
  let w := w.updRun h fun _ => { Run.init with
    running := true, refAt := w.now, stwAt := w.now, cause := cause, selfFenced := r.selfFenced, resets := r.resets + 1 }
  let w := { w with
    evt := w.evt.upd h (fun e => { Router.init with flash := e.flash }), xng := w.xng.set h Xng.init, shut := w.shut.set h { Shut.init with trunc := (w.shut.get h).trunc }
    frame := w.frame.set h { Frame.init with start := w.now, wdAt := w.now }, set := w.set.set h SetEng.init
    opt := w.opt.set h { saved := (w.opt.get h).saved }, pose := w.pose.set h none, grd := w.grd.set h {}, trk := w.trk.set h {} }
  let w := { w with
    yld := w.yld.upd h (fun y => { kept := y.kept }), gns := w.gns.upd h (fun g => { stored := g.stored })
    tim := w.tim.upd h (fun t => { stored := t.stored }), flx := w.flx.set h {}
    upd := w.upd.upd h (fun u => { u with sess := [], restart := false })
    uin := { w.uin with bind := w.uin.bind.filter (fun e => e.1 / 1024 ≠ 1 + h.code) } }
  let w := ((w.wr h F.STW_RESET.CAUSE 0 cause).wr h F.STW_RESET.COUNT 0 (min 15 r.resets)).wr h F.CUP_STATUS.CTRL_OK 0 ctrlOk
  let w := w.forAll (List.range' 1 7) fun w k => w.setRegion h k (w.region h k)
  ((w.showKeys h).drawNonce h).latchEval

/-- A half is released from reset, nothing posted: its alive line rises (R25) unless another cause holds it low. -/
def State.letRun (s : State) (h : Half) (cause : Nat) : State :=
  let was := s.own.alive h
  let s := { s with bus := { s.bus with port := s.bus.port.set h [] } }.onW (·.halfFresh h cause)
  let s := s.onOwn fun o => { o with low := o.low.upd h fun l => { l with heldReset := false, watchdog := false, fenced := false } }
  s.when (!was && s.own.alive h) fun s => s.onW (·.aliveRise h)

/-- The supply and the backplane allow a half to run: LOGIC_IN valid, its presence pin closed for 100 ms (R452), its core supply in range, no
SYS_SHDN, no power-fail, not prepared for withdrawal, no open debug port. -/
def State.mayRun (s : State) (h : Half) : Bool :=
  let w := s.w
  let l := s.own.low.get h
  let p := w.svc.present0.get h
  w.latch.logicValid && w.svc.presence.get h && !l.detectOpen && !l.supplyBad && !w.flag .A F.PWR_SHDN.ASSERTED && !w.pwr.fail && (w.shut.get h).step < 4 &&
    w.svc.prepared ≠ some h && (w.upd.get h).dbg.isNone && (p = 0 || p - 1 + 100 * ms ≤ w.now)

/-- A half's reset is released: one held in reset, or fenced (it stays fenced until it is reset, R26). -/
def execHalfResetRelease (h : Half) (s : State) : Out :=
  let r := s.w.run.get h
  .next (s.when (s.mayRun h && (!r.running || (s.own.low.get h).fenced)) (·.letRun h r.cause))

/-- A half restarts through Green and Bloom. -/
def State.restart (s : State) (h : Half) (cause : Nat) : State := (s.hold h cause).when ((s.hold h cause).mayRun h) (·.letRun h cause)

/-- The restart on a new image, once no other session of the half is in transfer (R503). -/
def execUpdRestart (h : Half) (s : State) : Out :=
  .next (s.when ((s.w.run.get h).running && (s.w.upd.get h).restart && (List.range' 1 7).all (fun r => s.w.sessState h r ≠ 1)) (·.restart h 5))

/-! Bloom (R97). -/

/-- A half stays in Green as standby (R76, R87, R119, R463, R507). -/
def World.standby (w : World) (h : Half) : World := (w.updRun h fun r => { r with standby := true }).wr h F.STW_STAGE.STAGE 0 0

/-- A region's image is valid, signed and not rolled back (R508); one that fails loses its VALID flag (R506). -/
def World.bootRegion (w : World) (h : Half) (r : Nat) : World × Bool :=
  let x := w.region h r
  if x.valid && imageCheck (w.upd.get h).vault r x.bytes = 0 then (w, true)
  else (w.setRegion h r { x with valid := false }, false)

/-- A step goes on, or the half stays in standby. -/
def World.orStandby (w : World) (h : Half) (ok : Bool) : World := if ok then w else w.standby h

/-- Step 1: Green is complete; the boot ROM verifies the Steward image. -/
def World.bloom1 (w : World) (h : Half) : World :=
  let r := w.run.get h
  let w := (w.wr h F.STW_STAGE.STAGE 0 1).wr h F.STW_START_T.GREEN 0 (satTo 8 ((w.now - r.refAt) / ms))
  let ok := (w.bootRegion h 1).2
  let w := (w.bootRegion h 1).1
  let w := w.updRun h fun r => { r with fwOk := ok }
  (w.when (r.cause ≠ 0) fun w => w.raise h 1 (evArg 0xFFFF 0xFF r.cause)).orStandby h ok

/-- The islands of class E (R108). -/
def classE : List Nat := 0 :: 39 :: List.range' 10 9

/-- The islands with a FAIL record. -/
def World.cupFails (w : World) (h : Half) : List Nat := (List.range 40).filter (fun n => w.rd h F.CUP_REC_W0.RESULT n = 1)

/-- A half has a class E island with a FAIL record. -/
def World.cupFailE (w : World) (h : Half) : Bool := (w.cupFails h).any classE.contains

/-- Islands power-gated for this power cycle (R119): the projection islands and the feature slices show it. -/
def World.gateIslands (w : World) (h : Half) (l : List Nat) : World :=
  let slices := (List.range 8).filter (fun i => !l.contains (19 + i))
  let w := w.updRun h fun r => { r with pwrGated := l }
  let w := (w.wr h F.FEA_STATUS.SLICES 0 (slices.foldl (fun a i => a + 2 ^ i) 0)).wr h F.FEA_STATUS.TOPS 0 (20 * slices.length)
  w.wr h F.PRJ_STATUS.GATED 0 (b2n (l.contains 27) + 2 * b2n (l.contains 28))

/-- The sibling that a half with a class E FAIL leaves the module to: present, not in standby, without such a FAIL itself. -/
def State.siblingFit (s : State) (h : Half) : Bool :=
  s.own.alive h.other && !(s.w.run.get h.other).standby && !s.w.cupFailE h.other

/-- Step 2: the last Cupping records (R119–R121). -/
def State.bloom2 (s : State) (h : Half) : State :=
  let fails := s.w.cupFails h
  let fit := s.siblingFit h
  s.onW fun w =>
    let w := w.forAll fails fun w n => w.raise h 253 (evArg n 0xFF 0)
    let w := w.forAll ((List.range 40).filter (fun n => 3 ≤ w.rd h F.CUP_REC_W0.UNTESTED n)) fun w n => w.raise h 254 (evArg n 0xFF 0)
    let w := w.when (!fails.isEmpty) fun w => w.wr h F.STW_STAGE.CUP_REPORT 0 1
    (w.gateIslands h (fails.filter (fun n => !classE.contains n))).orStandby h (!(w.cupFailE h && fit))

/-- Step 4: the real-time pairs' and the Setting Engine's images, the application's beside it; the baseband starts (R360). -/
def World.bloom4 (w : World) (h : Half) : World :=
  let a := (w.bootRegion h 2).2
  let w := (w.bootRegion h 2).1
  let b := (w.bootRegion h 3).2
  let w := (w.bootRegion h 3).1
  let c := (w.bootRegion h 4).2
  let w := (w.bootRegion h 4).1
  (w.gnssOn h).orStandby h (a && b && c)

/-- The slots exchanged; region ROAST shows the PENDING slot (R513). -/
def World.swapRoast (w : World) (h : Half) : World :=
  let w := { w with roast := w.roast.upd h fun q => { q with active := q.pending, pending := q.active } }
  let p := (w.roast.get h).pending
  w.setRegion h 6 { img := Memory.writeN [] 0 p.image, len := p.image.length, valid := p.valid }

/-- The TRIAL mark of a half's ACTIVE slot. -/
def World.setTrial (w : World) (h : Half) (on : Bool) : World := { w with roast := w.roast.upd h fun q => { q with trial := on } }

/-- The activation record checked at start (R86); the half that an activation in progress restarts keeps its new Roast. The flag is false
where no slot holds the Roast of an open record. -/
def World.recordCheck (w : World) (h : Half) : World × Bool :=
  let q := w.roast.get h
  if (w.act.map (·.newHalf)) = some h then (w, true)
  else if w.bp.recOpen then
    if q.active.digest = w.bp.recDigest then (w, true)
    else if q.pending.digest = w.bp.recDigest && q.pending.valid then (w.swapRoast h, true)
    else (w, false)
  else if q.trial then ((w.swapRoast h).setTrial h false, true)
  else (w, true)

/-- Step 5: the record, and the ACTIVE Roast in full (R71, R86). The Roast under activation keeps the REBIND it was accepted with (R73). -/
def World.bloom5 (w : World) (h : Half) : World :=
  let there := (w.recordCheck h).2
  let w := (w.recordCheck h).1
  let q := w.roast.get h
  let e : VerEnv := { w.verEnv h false with rebindOk := q.trial || (w.bp.recOpen && q.active.digest = w.bp.recDigest) }
  let v := verify e q.active.image
  let ok := there && v.res = 0
  let w := { w with roast := w.roast.upd h fun q => { q with
    active := { q.active with valid := v.res = 0, digest := digestOf q.active.image }, running := if ok then digestOf q.active.image else [] } }
  (w.when (v.res ≠ 0) fun w => w.roastReject h v).orStandby h ok

/-- BIND loaded into the input chains (R246, R249, R250, R266): modes, bindings, supplies, the active loss set. -/
def World.bindLoad (w : World) (c : BindSec) : World :=
  let w := { w with uin := { w.uin with cfg := c, loaded := true, cls := c.loss.clsDef } }
  let w := w.wr .A F.LOS_CTRL.CLS 0 c.loss.clsDef
  let w := w.forAll (List.range 128) fun w n =>
    match w.inputBinding n with
    | none => (w.wr .A F.UIN_STATUS.BOUND n 0).wr .A F.UIN_STATUS.MODE n 0
    | some b => ((w.wr .A F.UIN_STATUS.BOUND n 1).wr .A F.UIN_STATUS.BIND n b).wr .A F.UIN_STATUS.MODE n (w.bindCfg b).mode
  w.forAll c.supplies.zipIdx fun w x => (w.wr .A F.UIN_SS.LEVEL x.2 x.1.1).wr .A F.UIN_SS.EN x.2 (b2n (x.1.1 ≠ 0))

/-- The sections that the backplane holds for both halves: BIND, LOAD, CANM, DISP. -/
def World.sharedLoad (w : World) (c : Content) : World :=
  let w := w.bindLoad c.bind
  let w := { w with lsw := { w.lsw with load := c.load }, can := { w.can with sec := c.canm.getD {} } }
  let w := (w.forAll (List.range 16) World.canLoad).canInit
  w.dspLoad (c.disp.getD {})

/-- The sibling runs on a Roast whose sections the backplane holds. -/
def World.sharedHeld (w : World) (h : Half) : Bool := let r := w.run.get h.other; r.running && 6 ≤ r.bloomStep && !r.standby

/-- YILD loaded (R272): the crop slot's bulk density is restored when the slot is unchanged. -/
def World.yieldLoad (w : World) (h : Half) (sec : Option YildSec) : World :=
  let c := ((sec.map (·.cropDef)).getD 0)
  let rho : Rat := ((((sec.map (fun s => (s.crops.getD c {}).rhoDef)).getD 0 : Nat)) : Rat) / 1000
  let w := (w.wr h F.SET_YLD_CTRL.CROP 0 c).updYield h fun y =>
    let k := y.kept
    { y with
      sec := sec, crop := c, rho := if k.crop = c && k.rho ≠ 0 then k.rho else rho, tank := k.tank, totWet := k.totWet, totStd := k.totStd
      totArea := k.totArea, unassigned := k.unassigned, stored := k.stored }
  (w.showTotals h).showLoads h

/-- Step 6: the sections loaded (R97, R188, R407, R453, R486), ORPHAN_T (R66). -/
def State.bloom6 (s : State) (h : Half) : State :=
  let c := s.w.ownContent h
  let s := s.onW fun w =>
    let w := w.when (!w.sharedHeld h) (·.sharedLoad c)
    let w := { w with evt := w.evt.upd h fun r => { r with routes := c.routes } }
    let w := w.updSet h fun e => { e with sec := c.func, homeB := homesB c.func.recs }
    let w := (w.updGrind h fun g => { g with sec := c.grin }).yieldLoad h c.yild
    w.optLoad h c.optm
  let s := s.when (s.w.act.isNone) fun s => s.setOrphanT c.orphanT
  s.onW fun w => w.forAll (List.range 6) fun w t => w.when (w.tileSt t).ready fun w => w.tileLoad h t

/-- Step 7: the inputs' qualities shown, the CAN channels on their buses. -/
def World.bloom7 (w : World) (h : Half) : World :=
  let w := w.forAll (List.range w.uin.cfg.binds.length) fun w b => w.publishIn b h
  w.forAll (List.range 16) World.canOnBus

/-- The sibling serves with its Bloom complete. -/
def State.siblingServes (s : State) (h : Half) : Bool := s.own.serves h.other && s.w.flag h.other F.STW_STAGE.BLOOM_DONE

/-- The Roast of the sibling's HB frames differs from the half's own (R87). -/
def World.otherRoast (w : World) (h : Half) : Bool :=
  w.flag h F.XNG_STATUS.UP && w.rd h F.XNG_SIB_ROAST0.DIGEST + 2 ^ 32 * w.rd h F.XNG_SIB_ROAST1.DIGEST ≠ w.roastPrefix h

/-- Step 8: SERVER requested, every ORPHAN token claimed by the first half to come here (R32, R87, R99); none by the half of an activation
in progress. A half whose alive line stays low after a self-fence does neither (R463). -/
def State.bloom8 (s : State) (h : Half) : State :=
  if (s.w.run.get h).selfFenced && !s.own.alive h then s.onW (·.standby h)
  else if s.w.act.isSome then s
  else if s.own.serves h.other then
    s.when (!s.w.bp.recOpen && s.w.otherRoast h) fun s => s.onW (·.standby h)
  else
    let s := s.serverReq h
    s.when (s.own.serves h) fun s => s.claimAll h s.own.orphans

/-- The Green shadow brought to the half's GREN (R88): written into the inactive bank, the pointer flipped. -/
def World.writeGreen (w : World) (bank : NMap Gren) : World :=
  { w with bp := if w.bp.ptr then { w.bp with bank0 := bank, ptr := false } else { w.bp with bank1 := bank, ptr := true } }

/-- The active bank of the Green shadow. -/
def World.greenBank (w : World) : NMap Gren := if w.bp.ptr then w.bp.bank1 else w.bp.bank0

/-- The Green shadow compared by the serving half (R88). -/
def World.greenSync (w : World) (h : Half) : World :=
  let g := (w.ownContent h).gren
  w.when (g ≠ w.greenBank) fun w => (w.writeGreen g).raise h 13 (evArg 0xFFFF 0xFF 0)

/-- EVT_LIFE_DUE for each unit with DUE or FAIL set (R471, R474). -/
def World.lifeDue (w : World) (h : Half) : World :=
  let w := w.when (w.flag h F.STW_LIFE_FAN.DUE) fun w => w.raise h 9 (evArg 0xFFFF 0xFF 0)
  w.when (w.flag h F.STW_LIFE_HOLD.DUE || w.flag h F.STW_LIFE_HOLD.FAIL) fun w => w.raise h 9 (evArg 0xFFFF 0xFF 0)

/-- A 3-D fix: the position quality code is 1 or above (R381). -/
def World.posFix (w : World) (h : Half) : Bool := 1 ≤ w.rd h F.GNS_STATUS.Q

/-- Step 9: the loops run (R97, R104, R125). -/
def State.bloom9 (s : State) (h : Half) : State :=
  let serves := s.own.serves h
  let mirrored := s.siblingServes h
  s.onW fun w =>
    let w := (w.wr h F.SET_CTRL.RUN 0 1).wr h F.STW_STAGE.BLOOM_DONE 0 1
    let w := (w.wr h F.SET_YLD_CTRL.RUN 0 (b2n (w.yield h).sec.isSome)).wr h F.OWN_CTRL.ACCEPT 0 1
    let w := w.updSet h fun e => { e with runAt := w.mt h, cycK := w.mt h / ms }
    let w := w.wr h F.STW_START_T.BLOOM 0 (satTo 12 ((w.now - (w.run.get h).refAt) / (10 * ms)))
    let w := w.wr h F.SET_STATE.STATE 0 (if mirrored then w.rd h.other F.SET_STATE.STATE else 0)
    let w := (w.updTrk h fun t => { t with veh := (0, 0, 0) }).setHoldReq h true
    let w := w.raise h 2 (evArg 0xFFFF 1 1)
    let w := w.when (serves && w.latch.forced) fun w => (w.updLatch fun l => { l with forced := false }).raise h 3 (evArg 0xFFFF 0xFF 0)
    let w := w.when (w.shut.get h).trunc fun w =>
      { w with shut := w.shut.upd h fun x => { x with trunc := false } }.raise h 4 (evArg 0xFFFF 0xFF 0)
    let w := w.lifeDue h
    let w := w.when (serves && w.act.isNone) (·.greenSync h)
    let w := w.when (w.grd.get h).sec.isNone fun w => w.wr h F.STW_STAGE.PERC_OK 0 1
    let w := w.when (w.opt.get h).sec.isNone fun w => w.wr h F.STW_STAGE.OPT_OK 0 1
    (w.when (!(w.func h 0).used && w.posFix h) fun w => w.wr h F.STW_STAGE.POS_OK 0 1).engines s.own

/-- A step of Bloom. -/
def State.bloomStep (s : State) (h : Half) (k : Nat) : State :=
  match k with
  | 1 => s.onW (·.bloom1 h)
  | 2 => s.bloom2 h
  | 3 => s.onW (·.timBloom h)
  | 4 => s.onW (·.bloom4 h)
  | 5 => s.onW (·.bloom5 h)
  | 6 => s.bloom6 h
  | 7 => s.onW (·.bloom7 h)
  | 8 => s.bloom8 h
  | 9 => s.bloom9 h
  | _ => s

/-- Step `k` of Bloom (R97), each after the one before it. -/
def execBloom (h : Half) (k : Nat) (s : State) : Out :=
  let r := s.w.run.get h
  .next (s.when (r.running && !r.standby && 1 ≤ k && k ≤ 9 && r.bloomStep + 1 = k) fun s =>
    (s.onW fun w => w.updRun h fun r => { r with bloomStep := k }).bloomStep h k)

/-! Pour (R101). -/

/-- Every model that GRIN names is loaded: its result is neither a failure nor still loading. -/
def World.modelsLoaded (w : World) (h : Half) : Bool :=
  (List.range (w.grin h).models.length).all (fun m => w.mres h m = 0)

/-- PERC_OK, POS_OK and OPT_OK now. -/
def World.pourFlags (w : World) (h : Half) : Bool × Bool × Bool :=
  let g := w.grd.get h
  let perc : Bool := g.sec.isNone || (w.modelsLoaded h && 40 ≤ g.pubRun && w.rd h F.GRD_STATUS.GRADE = w.condGrade h)
  let pos : Bool := if (w.func h 0).used then w.steerQOk h && w.flag h F.GNS_STATUS.HDG_OK else w.posFix h
  let o := w.opt.get h
  (perc, pos, o.sec.isNone || 3 ≤ o.okRun)

/-- The flags brought up to date, with the instants since when all are set and since when one is clear. -/
def World.notePour (w : World) (h : Half) : World :=
  let (a, b, c) := w.pourFlags h
  let w := ((w.wr h F.STW_STAGE.PERC_OK 0 (b2n a)).wr h F.STW_STAGE.POS_OK 0 (b2n b)).wr h F.STW_STAGE.OPT_OK 0 (b2n c)
  let all : Bool := a && b && c
  w.updRun h fun r => { r with
    flagsAt := if all then (if r.flagsAt = 0 then w.now + 1 else r.flagsAt) else 0
    flagsGone := if all then 0 else (if r.flagsGone = 0 then w.now + 1 else r.flagsGone) }

/-- The three flags have been set together for 2 s. -/
def execPourEntry (h : Half) (s : State) : Out := lift s fun w =>
  let r := w.run.get h
  w.when (r.running && w.flag h F.STW_STAGE.BLOOM_DONE && w.rd h F.STW_STAGE.STAGE = 1 && r.flagsAt ≠ 0 && r.flagsAt - 1 + 2 * sec ≤ w.now) fun w =>
    let w := w.when (w.rd h F.STW_START_T.POUR = 0) fun w => w.wr h F.STW_START_T.POUR 0 (satTo 12 ((w.now - r.refAt) / sec))
    (w.wr h F.STW_STAGE.STAGE 0 2).raise h 2 (evArg 0xFFFF 2 2)

/-- One of the flags has been clear for 5 s. -/
def execPourExit (h : Half) (s : State) : Out := lift s fun w =>
  let r := w.run.get h
  w.when (r.running && w.rd h F.STW_STAGE.STAGE = 2 && r.flagsGone ≠ 0 && r.flagsGone - 1 + 5 * sec ≤ w.now) fun w =>
    (w.wr h F.STW_STAGE.STAGE 0 1).raise h 2 (evArg 0xFFFF 1 3)

end Sys2Proof.Machine
end

