-- ==== Sys2Proof/Machine/Activate.lean ====
section
/-!
DEFINITION. The sibling's Roast, and the activation of a new Roast (R76–R87).
-/
namespace Sys2Proof.Machine

/-! The sibling's Roast (R76, R78, R87). -/

/-- A slot with a verified image. -/
def goodSlot (img : List Byte) : Slot := { image := img, valid := true, digest := digestOf img }

/-- A standby half whose ACTIVE Roast is invalid, or differs from the serving sibling's. -/
def State.needsRoast (s : State) (h : Half) : Bool :=
  let w := s.w
  (w.run.get h).running && (w.run.get h).standby && 5 ≤ (w.run.get h).bloomStep && s.siblingServes h && w.flag h F.XNG_STATUS.UP &&
    (!(w.roast.get h).active.valid || (w.roast.get h).active.digest ≠ (w.roast.get h.other).active.digest)

/-- A half fetches its sibling's Roast as BLK frames and verifies the copy in full: the ACTIVE one into its own ACTIVE slot, after which it
restarts (R76); or, at Ahnyel's request, the PENDING one into its own PENDING slot (R78). -/
def execRoastSiblingFetch (h : Half) (pending : Bool) (s : State) : Out :=
  let sib := s.w.roast.get h.other
  let img := if pending then sib.pending.image else sib.active.image
  let v := verify (s.w.verEnv h false) img
  if pending then
    .next (s.when ((s.w.run.get h).running && s.w.flag h F.XNG_STATUS.UP && sib.pending.valid && s.w.act.isNone && !s.w.sessOpen h 6) fun s =>
      s.onW fun w =>
        let w := w.wr h F.UPD_RESULT.ROAST 0 v.res
        let w := { w with roast := w.roast.upd h fun q => { q with pending := if v.res = 0 then goodSlot img else {} } }
        let w := w.setRegion h 6 { img := Memory.writeN [] 0 img, len := img.length, valid := v.res = 0 }
        w.when (v.res ≠ 0) fun w => w.roastReject h v)
  else
    .next (s.when (s.needsRoast h) fun s =>
      if v.res = 0 then
        (s.onW fun w => { w with roast := w.roast.upd h fun q => { q with active := goodSlot img, trial := false } }).restart h 6
      else s.onW fun w => w.roastReject h v)

/-! The activation (R79–R85). -/

/-- The halves that are present. -/
def State.halvesOn (s : State) : List Half := [Half.A, Half.B].filter (fun h => (s.w.run.get h).running && s.own.alive h)

/-- The module waits for a Roast (R76): every half that is present is in standby. -/
def State.roastless (s : State) : Bool := s.own.server.isNone && s.halvesOn.all (fun h => (s.w.run.get h).standby)

/-- Both PENDING slots verified, with one digest. -/
def World.pendingPair (w : World) (l : List Half) : Bool :=
  l.all (fun h => (w.roast.get h).pending.valid) &&
    l.all (fun h => l.all (fun k => (w.roast.get h).pending.digest = (w.roast.get k).pending.digest))

/-- The code that refuses a request, or 0 (R79). A module that waits for its first Roast needs only the half or halves present (R76). -/
def State.activateRefusal (s : State) (h : Half) : Nat :=
  let w := s.w
  let lone := s.roastless
  let l := if lone then s.halvesOn else [.A, .B]
  let srv := s.own.server.getD h
  if !w.parkedOrService srv then 12
  else if !w.pendingPair l then 13
  else if !lone && !(w.flag .A F.XNG_STATUS.UP && w.flag .B F.XNG_STATUS.UP && s.own.alive .A && s.own.alive .B) then 14
  else if w.anySess .A || w.anySess .B || w.act.isSome then 15
  else 0

/-- The half that restarts first: the one that does not serve. -/
def State.firstHalf (s : State) (h : Half) : Half := (s.own.server.map Half.other).getD h

/-- A request of Ahnyel through half `h` (R79). -/
def State.activateAsk (s : State) (h : Half) : State :=
  let code := s.activateRefusal h
  let n := s.firstHalf h
  s.onW fun w =>
    let w := w.wr h F.UPD_RESULT.ROAST 0 code
    w.when (code = 0) fun w => { w with act := some { newHalf := n, step := 0, start := w.now, committed := false } }

/-- The step of an activation. -/
def State.setStep (s : State) (a : Activation) (k : Nat) : State := s.onW fun w => { w with act := some { a with step := k, committed := a.committed || k = 3 } }

/-- Step 2: the new half exchanges its slots, marks TRIAL and restarts. -/
def State.activateTrial (s : State) (n : Half) : State := (s.onW fun w => (w.swapRoast n).setTrial n true).restart n 6

/-- The new half is up on the new Roast. -/
def State.newUp (s : State) (n : Half) : Bool :=
  s.own.alive n && (s.w.run.get n).running && !(s.w.run.get n).standby && s.w.flag n F.STW_STAGE.BLOOM_DONE

/-- Step 3, the commit: the new GREN into the inactive bank; the pointer flips and the record opens in one write. -/
def World.commitRoast (w : World) (n : Half) : World :=
  let w := w.writeGreen (w.ownContent n).gren
  { w with bp := { w.bp with recOpen := true, recDigest := (w.roast.get n).active.digest } }

/-- Step 4: the serving half hands over everything and resets; the new half serves, with ORPHAN_T of its GREN. -/
def State.activatePass (s : State) (n : Half) : State :=
  let o := n.other
  let s := s.when (s.own.serves o) fun s => (s.handoverAllNow o).hold o 6
  (s.serverReq n).setOrphanT ((s.w.ownContent n).orphanT)

/-- Step 5: the new half adopts the outputs as found, but for those with SOR, and starts its loops with fresh state. -/
def State.activateAdopt (s : State) (n : Half) : State :=
  let own := s.own
  let s := s.onW fun w =>
    let w := w.forAll ((w.ownContent n).gren.map (·.1) |>.filter (fun k => own.owns n k && (w.gren k).sor)) World.greenObj
    let w := (w.sharedLoad (w.ownContent n)).bloom7 n
    w.updSet n fun e => { e with fn := [], mir := [] }
  s.when (s.own.serves n) fun s => s.claimAll n s.own.orphans

/-- Step 6: the old half, where it is present, exchanges its slots and restarts. -/
def State.activateOld (s : State) (o : Half) : State :=
  let q := s.w.roast.get o
  let s := s.onW fun w => w.when (q.active.digest ≠ w.bp.recDigest && q.pending.valid && q.pending.digest = w.bp.recDigest) (·.swapRoast o)
  s.restart o 6

/-- A half runs the Roast of the activation record with its Bloom complete. -/
def State.runsNew (s : State) (h : Half) : Bool := s.newUp h && (s.w.roast.get h).running = s.w.bp.recDigest

/-- Step 7: TRIAL cleared, the record closed once both halves run the new Roast, SEQ_FLOOR raised, BOUND_ID set (R73, R74, R85). -/
def State.activateEnd (s : State) : State :=
  let l := [Half.A, Half.B].filter s.runsNew
  let n := l.headD .A
  let img := (s.w.roast.get n).active.image
  let both := s.runsNew .A && s.runsNew .B
  let told := s.w.act.isSome
  s.onW fun w =>
    let w := w.forAll l fun w h => w.setTrial h false
    let w := { w with
      bp := { w.bp with seqFloor := max w.bp.seqFloor (roastSeq img), boundId := machineId img, recOpen := w.bp.recOpen && !both }, act := none }
    w.when told fun w => w.forAll l fun w h => w.raise h 12 (evArg 0xFFFF 0xFF 0)

/-- The activation ends without its commit (R83, R84): a half that has taken the new Roast goes back to the old one and restarts. -/
def State.activateDrop (s : State) (a : Activation) : State :=
  let n := a.newHalf
  let s := s.onW fun w => { w with act := none }
  if (s.w.roast.get n).trial then
    let s := s.onW fun w => (w.swapRoast n).setTrial n false
    s.when (s.w.run.get n).running (·.restart n 6)
  else s

/-- A Knock on the activation (R83): before the commit it is dropped, after it nothing is reversed; the flag tells which. -/
def State.activateKnock (s : State) : State × Bool :=
  match s.w.act with
  | none => (s, false)
  | some a => if a.committed then (s, true) else (s.activateDrop a, false)

/-- A half of a running activation has failed (R84): one that is down, or the new half in standby. -/
def State.activateFailed (s : State) (a : Activation) : Bool :=
  let down (h : Half) : Bool := !(s.w.run.get h).running || !s.own.alive h
  down a.newHalf || (s.w.run.get a.newHalf).standby && 2 ≤ a.step || (s.own.server.isSome && down a.newHalf.other)

/-- A request (step 0), or the next step of the activation in progress (1–7 of R81); 8: a half has failed before the commit (R84). After the
commit the steps go on whatever half is left (R85). Step 7 also closes a record that was left open. -/
def execRoastActivateRequest (h : Half) (k : Nat) (s : State) : Out :=
  if k = 0 then .next (s.when (s.w.run.get h).running (·.activateAsk h))
  else match s.w.act with
    | none =>
      .next (s.when (k = 7 && s.w.bp.recOpen && s.runsNew .A && s.runsNew .B) State.activateEnd)
    | some a =>
      let n := a.newHalf
      let next : Bool := a.step + 1 = k
      match k with
      | 1 => .next (s.when next fun s => (s.when (s.own.serves n.other) (·.handoverAllNow n)).setStep a 1)
      | 2 => .next (s.when (next && !s.activateFailed a) fun s => (s.setStep a 2).activateTrial n)
      | 3 => .next (s.when (next && s.newUp n) fun s => (s.setStep a 3).onW (·.commitRoast n))
      | 4 => .next (s.when (next && s.newUp n) fun s => (s.setStep a 4).activatePass n)
      | 5 => .next (s.when (next && s.newUp n) fun s => (s.setStep a 5).activateAdopt n)
      | 6 => .next (s.when (a.committed && 3 ≤ a.step && a.step < 6 && (next || !s.newUp n)) fun s => (s.setStep a 6).activateOld n.other)
      | 7 => .next (s.when (next && (s.runsNew .A || s.runsNew .B) && [Half.A, Half.B].all (fun x => s.runsNew x || !s.own.alive x))
          State.activateEnd)
      | 8 => .next (s.when (!a.committed && s.activateFailed a) (·.activateDrop a))
      | _ => .next s

end Sys2Proof.Machine
end

