-- ==== Sys2Proof/Machine/Cup.lean ====
section
/-!
DEFINITION. Cupping (R108–R121).
-/
namespace Sys2Proof.Machine

/-- The shutdown state of a half changed. -/
def World.updShut (w : World) (h : Half) (f : Shut → Shut) : World := { w with shut := w.shut.upd h f }

/-- The islands of a group (R108). -/
def cupGroup : Nat → List Nat
  | 1 => List.range' 10 9 ++ [39]
  | 2 => List.range' 19 10
  | 3 => List.range' 1 9 ++ [29]
  | 4 => 0 :: List.range' 30 9
  | _ => []

/-- An island has gone three or more runs without a result (R121). -/
def World.untested3 (w : World) (h : Half) (n : Nat) : Bool := 3 ≤ w.rd h F.CUP_REC_W0.UNTESTED n

/-- The order of the groups (R110): one with such an island first. -/
def World.cupOrder (w : World) (h : Half) : List Nat :=
  let due (g : Nat) : Bool := (cupGroup g).any (w.untested3 h)
  (List.range' 1 4).filter due ++ (List.range' 1 4).filter (fun g => !due g)

/-- UNTESTED after a run (R121): 0 on PASS or FAIL. -/
def World.untestedNext (w : World) (h : Half) (n res : Nat) : Nat := if res ≤ 1 then 0 else min 15 (w.rd h F.CUP_REC_W0.UNTESTED n + 1)

/-- A record with a result: what the test ended with. -/
def World.cupRecord (w : World) (h : Half) (n res reason : Nat) (m : CupMeas) : World :=
  let u := w.untestedNext h n res
  let w := [(F.CUP_REC_W0.RESULT, res), (F.CUP_REC_W0.REASON, reason), (F.CUP_REC_W0.END, b2n m.fin), (F.CUP_REC_W0.MISR_OK, b2n m.misr)
           , (F.CUP_REC_W0.CNT_OK, b2n m.cntOk), (F.CUP_REC_W0.UNTESTED, u), (F.CUP_REC_W1.COUNT, satTo 24 m.count)
           , (F.CUP_REC_W2.SYNDROME, m.syndrome), (F.CUP_REC_W3.DURATION, satTo 16 m.dur)].foldl (fun w f => w.wr h f.1 n f.2) w
  let w := (w.wrI h F.CUP_REC_W0.DIE_T n (clampI (-128) 127 m.dieT)).wrI h F.CUP_REC_W0.VDEV n (clampI (-128) 127 m.vdev)
  w.updShut h fun x => { x with tested := n :: x.tested }

/-- An island SKIPPED with a reason: nothing was applied; what the spec does not say of its syndrome, temperature and supply is free. -/
def World.cupSkip (w : World) (h : Half) (reason n : Nat) : World :=
  let a := w.free.1
  let w := w.free.2
  let b := w.free.1
  let w := w.free.2
  let m : CupMeas := { syndrome := a.toNat, dieT := signed 8 (b.toNat % 256), vdev := signed 8 (b.toNat / 256 % 256) }
  w.cupRecord h n 3 reason m

/-- The result of a test that ran (R116): without a cause it ended by itself. -/
def cupResult (m : CupMeas) (cause : Option Nat) : Nat × Nat :=
  match cause with
  | some c => (2, c)
  | none =>
    if !m.cntOk then (2, 11)
    else if !m.fin then (2, 12)
    else if m.misr then (0, 0)
    else (1, 1)

/-- A test that ended recorded. -/
def World.cupEnd (w : World) (h : Half) (n : Nat) (m : CupMeas) (cause : Option Nat) : World :=
  let r := cupResult m cause
  w.cupRecord h n r.1 r.2 m

/-- The islands under test: those of the group in scan without a record of this run. -/
def World.underTest (w : World) (h : Half) : List Nat :=
  (cupGroup (w.rd h F.CUP_STATUS.GROUP)).filter (fun n => !(w.shut.get h).tested.contains n)

/-- The islands without a record of this run. -/
def World.unrecorded (w : World) (h : Half) : List Nat := (List.range 40).filter (fun n => !(w.shut.get h).tested.contains n)

/-- PHASE of CUP_STATUS. -/
def World.cupPhase (w : World) (h : Half) (p : Nat) : World := w.wr h F.CUP_STATUS.PHASE 0 p

/-- The next group starts once none of the present one is under test; after the last one the records are due. -/
def World.cupNext (w : World) (h : Half) : World :=
  if !(w.underTest h).isEmpty then w
  else match (w.shut.get h).order.find? (fun g => (cupGroup g).any (fun n => !(w.shut.get h).tested.contains n)) with
    | some g => w.wr h F.CUP_STATUS.GROUP 0 g
    | none => (w.wr h F.CUP_STATUS.GROUP 0 0).cupPhase h 4

/-- Every island without a record of this run SKIPPED; the records are due. -/
def World.cupSkipAll (w : World) (h : Half) (reason : Nat) : World :=
  ((w.forAll (w.unrecorded h) fun w n => w.cupSkip h reason n).wr h F.CUP_STATUS.GROUP 0 0).cupPhase h 4

/-- The run stopped (R107, R116, R117): what is under test INCOMPLETE, with what each test shows, the rest SKIPPED. -/
def World.cupStop (w : World) (h : Half) (reason : Nat) (ms_ : List CupMeas) : World :=
  let w := w.forAll (w.underTest h).zipIdx fun w x => w.cupEnd h x.1 (ms_.getD x.2 {}) (some reason)
  w.cupSkipAll h reason

/-- Cupping starts (R105 step 4, R110): the half is held; its self-check; off in SERVICE (CUP_CTRL.EN). -/
def State.cupStart (s : State) (h : Half) (c : CupCond) : State :=
  let disabled : Bool := !s.w.flag h F.CUP_CTRL.EN && s.w.inService h
  let s := s.hold h 0
  s.onW fun w =>
    let order := w.cupOrder h
    let w := w.updShut h fun x => { x with step := 4, runAt := w.now, order := order, tested := [], disabled := disabled }
    let w := (((w.wr h F.STW_STAGE.STAGE 0 3).wr h F.CUP_STATUS.CLEAR_DONE 0 0).wr h F.CUP_STATUS.GROUP 0 0).cupPhase h 1
    if disabled then w.cupSkipAll h 9
    else
      let w := (w.wrI h F.CUP_COND.DIE_MAX 0 (clampI (-128) 127 c.dieMax)).wrI h F.CUP_COND.CLK_PPM 0 (clampI (-32768) 32767 c.ppm)
      let w := (w.wrI h F.CUP_COND.VDEV 0 (clampI (-128) 127 c.vdev)).wr h F.CUP_STATUS.CTRL_OK 0 (b2n c.ctrlOk)
      if c.ctrlOk then w.cupPhase h 2 else w.cupSkipAll h 8

/-- Cupping of a half stands in a phase. -/
def World.cupIn (w : World) (h : Half) (p : Nat) : Bool := (w.shut.get h).step = 4 && w.rd h F.CUP_STATUS.PHASE = p

/-- Secret clearing completes (R112): scan is enabled, the first group starts. -/
def execSecretClearDone (h : Half) (s : State) : Out := lift s fun w =>
  w.when (w.cupIn h 2) fun w => ((w.wr h F.CUP_STATUS.CLEAR_DONE 0 1).cupPhase h 3).cupNext h

/-- CLEAR_DONE is not set within 300 ms (R112). -/
def execSecretClearTimeout (h : Half) (s : State) : Out := lift s fun w =>
  w.when (w.cupIn h 2 && (w.shut.get h).runAt + 300 * ms ≤ w.now) fun w => w.cupSkipAll h 7

/-- An island's test ends (R116). -/
def execIslandTestEnd (h : Half) (n : Nat) (m : CupMeas) (s : State) : Out := lift s fun w =>
  w.when (w.cupIn h 3 && (w.underTest h).contains n) fun w => (w.cupEnd h n m none).cupNext h

/-- Supply, clock or temperature leaves its range (R111; reason 4, 5 or 6): an island under test is stopped, one of a later group skipped. -/
def execIslandConditionFail (h : Half) (n reason : Nat) (m : CupMeas) (s : State) : Out := lift s fun w =>
  w.when (w.cupIn h 3 && 4 ≤ reason && reason ≤ 6 && (w.unrecorded h).contains n) fun w =>
    if (w.underTest h).contains n then (w.cupEnd h n m (some reason)).cupNext h
    else (w.cupSkip h reason n).cupNext h

/-- The 7 s of the run are over (R110, R116). -/
def execCuppingBudgetExpiry (h : Half) (ms_ : List CupMeas) (s : State) : Out := lift s fun w =>
  w.when ((w.cupIn h 2 || w.cupIn h 3) && (w.shut.get h).runAt + 7 * sec ≤ w.now) fun w => w.cupStop h 10 ms_

/-- The count of the records with a result. -/
def World.cupCount (w : World) (h : Half) (r : Nat) : Nat := ((List.range 40).filter (fun n => w.rd h F.CUP_REC_W0.RESULT n = r)).length

/-- The records of a run written: the summary, the run's number and duration. -/
def World.cupWritten (w : World) (h : Half) : World :=
  let w := (((w.wr h F.CUP_SUMMARY.PASS 0 (w.cupCount h 0)).wr h F.CUP_SUMMARY.FAIL 0 (w.cupCount h 1)).wr h F.CUP_SUMMARY.INCOMPLETE 0
    (w.cupCount h 2)).wr h F.CUP_SUMMARY.SKIPPED 0 (w.cupCount h 3)
  let w := w.wr h F.CUP_RUN.DURATION 0 (satTo 16 ((w.now - (w.shut.get h).runAt) / (10 * ms)))
  (w.wr h F.CUP_RUN.RUN 0 (w.rd h F.CUP_RUN.RUN + 1)).cupPhase h 5

/-- The hold-up pack measured at every tenth shutdown (R472): usable energy, 0.1 J. -/
def World.holdupMeasure (w : World) (energy : Nat) : World :=
  let w := { w with svc := { w.svc with shutdowns := w.svc.shutdowns + 1 } }
  w.when (w.svc.shutdowns % 10 = 0) fun w =>
    ((w.wrBoth F.STW_LIFE_HOLD.ENERGY 0 (satTo 16 energy)).wrBoth F.STW_LIFE_HOLD.DUE 0 (b2n (energy < 660))).wrBoth F.STW_LIFE_HOLD.FAIL 0
      (b2n (energy < 600))

/-- A half is not part of the shutdown any more, or never was: held after its records, or not there. -/
def State.shutDone (s : State) (h : Half) : Bool := (s.w.shut.get h).step = 5 || (!(s.w.run.get h).running && (s.w.shut.get h).step = 0)

/-- The records are written (R105 step 5): HOLD_REQ clears, the half stays held; PWR_HOLD follows (step 6). -/
def execCuppingRecordsWritten (h : Half) (energy : Nat) (s : State) : Out :=
  .next (s.when (s.w.cupIn h 4) fun s =>
    let s := s.onW fun w => ((w.cupWritten h).updShut h fun x => { x with step := 5 }).setHoldReq h false
    s.when (s.shutDone h.other) fun s => s.onW (·.holdupMeasure energy))

/-- A wake request (R117): KEY_IN on, or a wake-up pattern on a wake-capable channel. Cupping stops, the records are written, the half
restarts; a half already held is released in the same way while the relay is closed. -/
def execWakeRequest (h : Half) (can : Option Nat) (ms_ : List CupMeas) (s : State) : Out :=
  let w := s.w
  let x := w.shut.get h
  let asks : Bool := match can with
    | none => w.latch.keyOn
    | some n => (w.canCh n).cfg.wake
  .next (s.when (asks && 4 ≤ x.step && (x.step = 4 || w.latch.pwrHold)) fun s =>
    let s := s.onW fun w =>
      let w := w.when (x.step = 4) fun w =>
        (w.when (w.rd h F.CUP_STATUS.PHASE ≠ 4) (·.cupStop h 2 ms_)).cupWritten h
      w.updShut h fun y => { Shut.init with trunc := y.trunc }
    s.when (s.mayRun h) (·.letRun h 7))

/-- CUP_ACK acknowledges the FAIL report (R120). -/
def execCupAck (h : Half) (_init : Nat) (s : State) : Out := lift s fun w =>
  w.when (w.run.get h).running fun w => w.wr h F.STW_STAGE.CUP_REPORT 0 0

end Sys2Proof.Machine
end

