-- ==== Sys2Proof/Machine/Shutdown.lean ====
section
/-!
DEFINITION. The shutdown of a half (R105–R107), power-fail (R531), the thermal shutdown (R535).
-/
namespace Sys2Proof.Machine

/-- The longest RAMP_MS among the RAMP entries of the objects of a list, ns (R105). -/
def World.longestRamp (w : World) (l : List Nat) : Nat :=
  (l.map (fun k => let g := w.gren k; if g.entry = 1 then g.rampMs * ms else 0)).foldl max 0

/-- What shutdown step 2 writes to flash (R105, R171, R272, R360, R390, R483): the serving half also keeps the model and the yield. -/
def World.saveStep2 (w : World) (h : Half) (serves : Bool) : World :=
  let w := (w.storeTime h).storeAiding h
  let w := { w with evt := w.evt.upd h fun e => { e with flash := logOf (w.dram.get h) } }
  let w := w.when (serves && (w.opt.get h).sec.isSome) (·.optSave h)
  let w := w.when serves fun w => w.updYield h fun y => { y with
    kept := { crop := y.crop, rho := y.rho, tank := y.tank, totWet := y.totWet, totStd := y.totStd, totArea := y.totArea
              unassigned := y.unassigned, stored := y.stored } }
  (w.flxShutdown h).updShut h fun x => { x with savedAt := w.now }

/-- Step 2: the content written, the Ledger's journal closed by the server. -/
def State.shutStep2 (s : State) (h : Half) : State :=
  let serves := s.own.serves h
  (s.when serves State.replayJournal).onW (·.saveStep2 h serves)

/-- Steps 1 and 2: transitions frozen; every output the half owns goes to its Green state. -/
def State.shutBegin (s : State) (h : Half) : State :=
  let l := (s.own.ownedBy h).filter outputs.contains
  let s := s.onW fun w => (w.updShut h fun x => { x with step := 1, runAt := w.now }).forAll l World.greenObj
  s.shutStep2 h

/-- Step 3: every token released, once the longest ramp is over. -/
def State.shutRelease (s : State) (h : Half) : State :=
  let l := s.own.ownedBy h
  s.when ((s.w.shut.get h).runAt + s.w.longestRamp l ≤ s.w.now) fun s =>
    (s.forAll l fun s k => s.orphan k h).onW fun w => w.updShut h fun x => { x with step := 3 }

/-- A half that skips steps 1 to 3: in standby, or without a valid Roast. -/
def World.skipsShut (w : World) (h : Half) : Bool := (w.run.get h).standby || (5 ≤ (w.run.get h).bloomStep && !(w.roast.get h).active.valid)

/-- A step of the shutdown from KEY_IN off (R100, R105): 1 with 2; 3; 4, Cupping, which waits for a session of the half (R505). A half that
has not completed Bloom completes it first. -/
def execShutdown (h : Half) (k : Nat) (c : CupCond) (s : State) : Out :=
  let w := s.w
  let at_ := (w.shut.get h).step
  let off : Bool := w.latch.keySeen && !w.latch.keyOn && (w.run.get h).running
  .next (match k with
    | 1 => s.when (off && at_ = 0 && w.flag h F.STW_STAGE.BLOOM_DONE && !w.skipsShut h) (·.shutBegin h)
    | 3 => s.when (off && at_ = 1) (·.shutRelease h)
    | 4 => s.when (off && (at_ = 3 || (at_ = 0 && w.skipsShut h)) && !w.anySess h) (·.cupStart h c)
    | _ => s)

/-! Power-fail (R107, R531). -/

/-- The hold-up pack has carried the logic for 100 ms, or stands at its lower working limit. -/
def World.failDue (w : World) : Bool :=
  w.rd .A F.PWR_STATUS.LSTATE = 3 && !w.pwr.fail && (w.pwr.holdAt + 100 * ms ≤ w.now || w.rd .A F.PWR_HOLDUP.V ≤ 2400)

/-- Every island SKIPPED with reason POWER, in a run of its own. -/
def World.cupPower (w : World) (h : Half) : World :=
  ((w.updShut h fun x => { x with tested := [], runAt := w.now }).cupSkipAll h 3).cupWritten h

/-- A power-fail in a half: one that runs writes what step 2 writes (unless the pack ends first, `wrote` false) and is held; one in
Cupping stops it. -/
def State.failHalf (s : State) (h : Half) (wrote : Bool) (ms_ : List CupMeas) : State :=
  let x := s.w.shut.get h
  if x.step = 4 then
    s.onW fun w =>
      let w := (w.when (w.rd h F.CUP_STATUS.PHASE ≠ 4) (·.cupStop h 3 ms_)).cupWritten h
      (w.updShut h fun x => { x with step := 5 }).setHoldReq h false
  else if !(s.w.run.get h).running then s
  else
    let saved : Bool := x.step ≠ 0
    let s := s.when (wrote && !saved) (·.shutStep2 h)
    let s := s.onW fun w =>
      let w := ((w.cupPower h).setHoldReq h false).wr .A F.PWR_STATUS.LAST_LOSS 0 2
      w.updShut h fun x => { x with step := 5, trunc := x.trunc || !(wrote || saved) }
    s.hold h 3

/-- LOGIC_IN does not return within 100 ms of HOLDUP (R531). -/
def execPowerFail (wrote : Bool) (ma mb : List CupMeas) (s : State) : Out :=
  .next (s.when s.w.failDue fun s =>
    let s := s.onW fun w => (w.updPwr fun p => { p with fail := true }).updLatch fun l => { l with logicValid := false }
    ((s.failHalf .A wrote ma).failHalf .B wrote mb).onW World.latchEval)

/-- A half leaves the hold that a power-fail or a thermal shutdown put it in. -/
def State.startAgain (s : State) (h : Half) (cause : Nat) : State :=
  s.when (!(s.w.run.get h).running) fun s =>
    let s := s.onW fun w => w.updShut h fun x => { Shut.init with trunc := x.trunc }
    s.when (s.mayRun h) (·.letRun h cause)

/-- LOGIC_IN (10 mV) returns for 2 ms during a power-fail: 10 ms after both halves are held they are released (R531). -/
def execPowerFailRecovery (v : Nat) (s : State) : Out :=
  .next (s.when (s.w.pwr.fail && 800 ≤ v && !(s.w.run.get .A).running && !(s.w.run.get .B).running) fun s =>
    let s := s.onW fun w =>
      let w := (w.updPwr fun p => { p with fail := false }).updLatch fun l => { l with logicValid := true, validAt := w.now, startup := true }
      let w := ((w.wr .A F.PWR_STATUS.LSTATE 0 (w.logicState 3 v)).wr .A F.PWR_HOLDUP.ACTIVE 0 0).wr .A F.PWR_LOGIC.V 0 (satTo 16 v)
      w.fanDuties.latchEval
    (s.startAgain .A 3).startAgain .B 3)

/-! The thermal shutdown (R535). -/

/-- TS has been at or above T_SH for 1 s: SYS_SHDN is pulled low, every output goes to its Green state. -/
def execSysShdnAssert (ts : Int) (s : State) : Out := lift s fun w =>
  let w := w.readTs ts
  w.when (!w.flag .A F.PWR_SHDN.ASSERTED && w.pwr.hotAt.any (fun t => decide (t + sec ≤ w.now))) fun w =>
    let w := ((w.wr .A F.PWR_SHDN.ASSERTED 0 1).wr .A F.PWR_SHDN.PIN_LOW 0 1).bump .A F.PWR_CNT.SHDN
    ((w.updPwr fun p => { p with shdnAt := w.now }).pwrEvent 24 0xFFFF).greenAll

/-- 200 ms after SYS_SHDN both halves are held in reset. -/
def execSysShdnHalfReset (s : State) : Out :=
  .next (s.when (s.w.flag .A F.PWR_SHDN.ASSERTED && s.w.pwr.shdnAt + 200 * ms ≤ s.w.now) fun s => (s.resetHalf .A 3).resetHalf .B 3)

/-- TS has stayed below T_SH − 10 K for 60 s: SYS_SHDN is released, the halves start. -/
def execSysShdnRelease (ts : Int) (s : State) : Out :=
  let s := s.onW (·.readTs ts)
  .next (s.when (s.w.flag .A F.PWR_SHDN.ASSERTED && s.w.pwr.coldAt.any (fun t => decide (t + 60 * sec ≤ s.w.now))) fun s =>
    let s := s.onW fun w => ((w.wr .A F.PWR_SHDN.ASSERTED 0 0).wr .A F.PWR_SHDN.PIN_LOW 0 0).pwrEvent 24 0xFFFF
    let one (s : State) (h : Half) : State := if (s.w.shut.get h).step < 4 then s.startAgain h 3 else s
    one (one s .A) .B)

end Sys2Proof.Machine
end

