-- ==== Sys2Proof/Machine/Avail.lean ====
section
/-!
DEFINITION. Planned moves, handback, service requests, replacement of a cartridge or a tile, service life (R452–R472).
-/
namespace Sys2Proof.Machine

/-- The service functions changed. -/
def World.updSvc (w : World) (f : Service → Service) : World := { w with svc := f w.svc }

/-! Moves of ownership (R455, R456). -/

/-- A group moved by its owner (R455): each function's state committed as FINAL, each object handed over, the functions started in the
receiver from there. -/
def State.moveGroup (s : State) (giver : Half) (g : List Nat) : State :=
  let r := giver.other
  let low := g.headD 0
  let objs := (s.w.groupObjs giver g).filter (s.own.owns giver)
  let s := s.onW fun w => w.raise giver 6 (evArg low 0xFF 0)
  let s := s.onW fun w => w.when (w.mirrors r) fun w => w.forAll g fun w n => w.takeFn r n
  let s := s.forAll objs fun s k => (s.handover giver k).handoverDone k
  let s := s.onW fun w => w.updSet giver fun e => { e with fn := g.foldl NMap.del e.fn }
  s.onW fun w => w.raise giver 6 (evArg low 0xFF 1)

/-- The group of function `n` in the Roast a half runs. -/
def World.groupOf (w : World) (h : Half) (n : Nat) : List Nat :=
  (fnGroup (w.funcs h).recs n).filter (fun k => (w.func h k).used)

/-- A half owns a group: every object of it, and there is one. -/
def State.ownsGroup (s : State) (h : Half) (g : List Nat) : Bool :=
  let l := s.w.groupObjs h g
  !l.isEmpty && l.all (s.own.owns h)

/-- A planned move of the group of function `n` from half `h` (R455). A HANDOVER that the sibling does not accept moves nothing. -/
def execPlannedMove (h : Half) (n : Nat) (s : State) : Out :=
  let g := s.w.groupOf h n
  .next (s.when ((s.w.run.get h).running && s.ownsGroup h g) fun s =>
    if s.accepts h.other then s.moveGroup h g else s.onW fun w => w.ownResult h ((s.w.groupObjs h g).headD 0) 4 false)

/-- A half qualifies for handback (R456), against the half that owns. -/
def State.qualifies (s : State) (h : Half) : Bool :=
  let w := s.w
  let x := w.xng.get h
  (w.run.get h).running && s.own.alive h && w.flag h F.STW_STAGE.BLOOM_DONE && !(w.run.get h).standby &&
    w.roastPrefix h = w.roastPrefix h.other && w.flag h F.XNG_STATUS.UP && x.upAt + 10 * sec ≤ w.now &&
    [0, 1, 2, 3].all x.fullRx.contains && (x.lagAt = 0 || x.lagAt + sec ≤ w.now) &&
    w.rd h.other F.GRD_STATUS.GRADE ≤ w.rd h F.GRD_STATUS.GRADE && !w.anySess .A && !w.anySess .B && w.act.isNone

/-- A group away from its home: it is owned whole by the other half. -/
def State.awayGroup (s : State) (srv : Half) (g : List Nat) : Bool :=
  let home := groupHome ((s.w.funcs srv).recs) srv g
  s.ownsGroup home.other g

/-- The groups that handback has to move, in ascending order of their lowest function. -/
def State.awayGroups (s : State) : List (List Nat) :=
  match s.own.server with
  | none => []
  | some srv => (fnGroups (s.w.funcs srv).recs).filter (s.awayGroup srv)

/-- Every object is owned by its home half (R454). -/
def State.balanced (s : State) : Bool :=
  match s.own.server with
  | none => false
  | some srv => (List.range nObj).all (fun k => s.own.owns (s.w.objHome srv srv k) k)

/-- A move is pending under R456. -/
def State.handback (s : State) : Bool :=
  match s.own.server with
  | none => false
  | some srv => s.awayGroups.any (fun g => s.qualifies (groupHome ((s.w.funcs srv).recs) srv g))

/-- The next group goes home: one every 20 ms (R456). A restored half that qualifies makes the service state DONE (R468). -/
def execHandbackMove (s : State) : Out :=
  match s.own.server with
  | none => .next s
  | some srv =>
    let o := srv.other
    let s := s.onW fun w => w.when (w.rd .A F.STW_SVC_STAT.STATE = 5 && s.qualifies o) fun w => w.svcState 6 0
    let due := s.awayGroups.find? (fun g => s.qualifies (groupHome ((s.w.funcs srv).recs) srv g))
    match due with
    | none => .next s
    | some g =>
      .next (s.when (s.w.svc.lastMove + 20 * ms ≤ s.w.now || s.w.svc.lastMove = 0) fun s =>
        let giver := (groupHome ((s.w.funcs srv).recs) srv g).other
        (s.onW fun w => w.updSvc fun v => { v with lastMove := w.now }).when (s.accepts giver.other) (·.moveGroup giver g))

/-! Service requests (R466–R469). -/

/-- The operation and target of a request in STW_SVC_STAT. -/
def World.svcAsk (w : World) (op target : Nat) : World :=
  ((w.wrBoth F.STW_SVC_STAT.OP 0 op).wrBoth F.STW_SVC_STAT.TARGET 0 target).wrBoth F.STW_SVC_STAT.OBJ 0 0

/-- The half a target names. -/
def halfOf (t : Nat) : Half := if t = 0 then .A else .B

/-- A session or an activation is open (R466). -/
def World.updating (w : World) : Bool := w.anySess .A || w.anySess .B || w.act.isSome

/-- The reason that refuses PREPARE_HALF, or 0. -/
def State.prepareRefusal (s : State) (x : Half) : Nat :=
  let w := s.w
  let o := x.other
  if !(w.run.get x).running || !s.own.alive x then 5
  else if !(s.own.alive o && w.flag o F.STW_STAGE.BLOOM_DONE && !(w.run.get o).standby && !w.cupFailE o) then 1
  else if !w.flag x F.XNG_STATUS.UP then 2
  else if w.updating then 3
  else if w.svc.busy then 7
  else 0

/-- Half `x` prepared (R467): its groups and what else it owns moved, its M3 content with the sibling, its journal closed, itself fenced. -/
def State.prepareHalf (s : State) (x : Half) : State :=
  let o := x.other
  let s := s.onW fun w => (w.updSvc fun v => { v with busy := true }).svcState 1 0
  let s := s.forAll (fnGroups (s.w.funcs x).recs) fun s g => s.when (s.ownsGroup x g && s.accepts o) (·.moveGroup x g)
  let s := s.handoverAllNow x
  let s := s.onW fun w => w.when (w.mirrors o) fun w => (w.takeClass o 3).mirrorYield x
  let s := s.when (s.own.serves x) State.replayJournal
  let s := (s.fence x).serverReq o
  s.onW fun w => (w.updSvc fun v => { v with prepared := some x, readyAt := w.now }).svcState 2 0

/-- STW_SVC_CMD = PREPARE_HALF. -/
def execPrepareHalf (h : Half) (_init target : Nat) (s : State) : Out :=
  .next (s.when ((s.w.run.get h).running && s.own.alive h) fun s =>
    let x := halfOf target
    let why := if 2 ≤ target then 5 else s.prepareRefusal x
    let s := s.onW fun w => w.svcAsk 1 target
    if why ≠ 0 then s.onW fun w => w.svcState 3 why else s.prepareHalf x)

/-- A channel of a tile that PREPARE_TILE looks at: running, carrying more than 50 mA, or in a Green LEVEL state. -/
def World.chanBusy (w : World) (ch : Nat) : Bool :=
  w.flag .A F.VLV_STATUS.RUN ch || 50 < w.rd .A F.VLV_CUR.I ch || (w.eng ch).level.isSome

/-- A channel has a partner on another tile, present and unfaulted. -/
def World.twinHealthy (w : World) (ch : Nat) : Bool :=
  match w.twin ch with
  | none => false
  | some p => tileOf p ≠ tileOf ch && w.flag .A F.VLV_TILE.PRESENT (tileOf p) && w.rd .A F.VLV_STATUS.FAULT p = 0

/-- STW_SVC_CMD = PREPARE_TILE (R469). -/
def execPrepareTile (h : Half) (_init t : Nat) (s : State) : Out :=
  .next (s.when ((s.w.run.get h).running && s.own.alive h) fun s => s.onW fun w =>
    let w := w.svcAsk 2 t
    if 6 ≤ t || !w.flag .A F.VLV_TILE.PRESENT t then w.svcState 3 5
    else if w.updating then w.svcState 3 3
    else if w.svc.busy then w.svcState 3 7
    else match (tileChans t).find? (fun c => w.chanBusy c && !w.twinHealthy c) with
      | some c => (w.wrBoth F.STW_SVC_STAT.OBJ 0 (objV c)).svcState 3 4
      | none => (w.updSvc fun v => { v with tile := t + 1, busy := true, readyAt := w.now }).svcState 2 0)

/-- The request in progress ends: a fenced half is reset, the state returns to IDLE with TIMEOUT (R467). -/
def State.svcEnd (s : State) : State :=
  let x := s.w.svc.prepared
  let s := s.onW fun w => (w.updSvc fun v => { v with prepared := none, tile := 0, busy := false }).svcState 0 6
  match x with
  | some x => s.restart x 2
  | none => s

/-- STW_SVC_CMD = CANCEL: the same effect at once. -/
def execSvcCancel (h : Half) (_init : Nat) (s : State) : Out :=
  .next (s.when ((s.w.run.get h).running && s.own.alive h && s.w.svc.busy) State.svcEnd)

/-- A prepared cartridge has not been withdrawn for 30 min (R467). -/
def execPrepareTimeout (s : State) : Out :=
  .next (s.when (s.w.svc.prepared.isSome && s.w.svc.readyAt + 1800 * sec ≤ s.w.now) State.svcEnd)

/-- STW_SVC_CMD = FAN_RESET, honoured only in SERVICE (R471, R473). -/
def execFanReset (h : Half) (_init : Nat) (s : State) : Out :=
  .next (s.when ((s.w.run.get h).running && s.own.alive h) fun s => s.onW fun w =>
    let w := w.svcAsk 4 0
    if w.inService h then ((w.wrBoth F.STW_LIFE_FAN.HOURS 0 0).wrBoth F.STW_LIFE_FAN.DUE 0 0).svcState 6 0 else w.svcState 3 8)

/-- STW_SVC_CMD = HOLDUP_RESET, honoured only in SERVICE. -/
def execHoldupReset (h : Half) (_init : Nat) (s : State) : Out :=
  .next (s.when ((s.w.run.get h).running && s.own.alive h) fun s => s.onW fun w =>
    let w := w.svcAsk 5 0
    if w.inService h then
      (((w.wrBoth F.STW_LIFE_HOLD.ENERGY 0 0).wrBoth F.STW_LIFE_HOLD.DUE 0 0).wrBoth F.STW_LIFE_HOLD.FAIL 0 0).svcState 6 0
    else w.svcState 3 8)

/-! A cartridge withdrawn and inserted (R452, R467, R468). -/

/-- A presence pin opens: the alive line falls, the half is without power; the service state is REMOVED. -/
def execCartridgePresenceOpen (h : Half) (s : State) : Out :=
  .next (s.when (s.w.svc.presence.get h) fun s =>
    let s := (s.fall h .detect).hold h 0
    s.onW fun w =>
      let w := w.updSvc fun v => { v with
        presence := v.presence.set h false, busy := v.busy && v.tile ≠ 0, prepared := if v.prepared = some h then none else v.prepared }
      (w.updRun h fun r => { r with selfFenced := false }).svcState 4 0)

/-- A cartridge inserted: the one that was there, or another one (`c`). Its reset may be released after 100 ms; the state is RESTORING. -/
def execCartridgeInsert (h : Half) (c : Option Cartridge) (s : State) : Out :=
  .next (s.when (!s.w.svc.presence.get h && !s.own.alive h) fun s =>
    let s := s.onOwn fun o => { o with low := o.low.upd h fun l => { l with detectOpen := false, heldReset := true, watchdog := false, fenced := false } }
    s.onW fun w =>
      let w := w.halfOff h
      let w := match c with
        | none => w
        | some c =>
          let r := keepRegs (fun k => k < 0x1300000) (w.regs.get h)
          let put (r : RegFile) (x : Nat × Word) : RegFile :=
            let k := x.1 % 2 ^ 25
            if 0x1300200 ≤ k && k < 0x1300480 then NMap.set (regReset k) r x.1 x.2 else r
          let r := c.cup.foldl put r
          { w with
            roast := w.roast.set h c.roast, upd := w.upd.set h c.upd, regs := w.regs.set h r, opt := w.opt.set h {}, yld := w.yld.set h {}
            gns := w.gns.set h {}, tim := w.tim.set h { stored := c.stored } }
      (w.updSvc fun v => { v with presence := v.presence.set h true, present0 := v.present0.set h (w.now + 1) }).svcState 5 0)

/-! A valve tile (R470). -/

/-- A tile's presence pin closes: its channels stay off and ignore writes until it is ready; the halves load its recipes. -/
def execTileInsert (t : Nat) (s : State) : Out := lift s fun w =>
  w.when (t < 6 && !w.flag .A F.VLV_TILE.PRESENT t) fun w =>
    ((w.wr .A F.VLV_TILE.PRESENT t 1).updTile t fun _ => { insertedAt := w.now }).tileRetry t

/-- Each owning half has loaded the recipes of the tile's channels (R188, R470). -/
def State.tileLoaded (s : State) (t : Nat) : Bool :=
  let ts := s.w.tileSt t
  ts.lock.isNone && (tileChans t).all fun c =>
    match s.own.owner (objV c) with
    | some h => let g := s.w.roastPrefix h; ts.bank0.tag = g || ts.bank1.tag = g
    | none => true

/-- The new tile's factory record (R470): where its serial differs from the Ledger's, its 16 entries and the serial go into the Ledger. -/
def State.tileCal (s : State) (t : Nat) (serial : List Byte) (cal : List (List Byte)) : State :=
  if ledgerEntry s.ledger 9 t = some serial then s
  else
    let utc := s.w.utc s.srv
    let put (m : Memory) (ty k : Nat) (pl : List Byte) : Memory := if payloadOk ty pl then ledgerWrite m ty k 3 utc pl else m
    let m := cal.zipIdx.foldl (fun m x => if x.2 < 16 then put m 1 (16 * t + x.2) x.1 else m) s.ledger
    { s with ledger := put m 9 t serial }

/-- An owner rewrites the command and set-point of a channel of a tile that is ready: what its absence left is cleared. -/
def World.chanAgain (w : World) (ch : Nat) : World :=
  w.when (w.rd .A F.VLV_STATUS.FAULT ch = 7) fun w => w.wr .A F.VLV_STATUS.FAULT ch 0

/-- The rail (10 mV) is charged, the recipes are loaded, the calibration is in place: the tile is ready. -/
def execTileReady (t rail : Nat) (serial : List Byte) (cal : List (List Byte)) (s : State) : Out :=
  let ts := s.w.tileSt t
  .next (s.when (t < 6 && s.w.flag .A F.VLV_TILE.PRESENT t && !ts.ready && 4400 < rail && s.tileLoaded t) fun s =>
    let s := s.tileCal t serial cal
    let own := s.own
    s.onW fun w =>
      let w := ((w.updTile t fun x => { x with ready := true }).wr .A F.VLV_TILE.BOOST_OK t 1).wr .A F.VLV_TILE.RAIL t (satTo 16 rail)
      let w := w.forAll ((tileChans t).filter (fun c => (own.owner (objV c)).isSome)) World.chanAgain
      let w := w.when (!w.svc.busy || w.svc.tile = t + 1) fun w => w.svcState 6 0
      w.when (w.svc.tile = t + 1) fun w => w.updSvc fun v => { v with tile := 0, busy := false })

/-! Service life (R471). -/

/-- 0.1 h of operation, ns. -/
def tenthHour : Nat := 360 * sec

/-- Operating hours: the time while LOGIC_IN is valid. -/
def World.lifeTick (w : World) (dt : Nat) : World :=
  if !w.latch.logicValid then w
  else
    let acc := w.svc.hoursAcc + dt
    if acc < tenthHour then w.updSvc fun v => { v with hoursAcc := acc }
    else
      let w := w.updSvc fun v => { v with hoursAcc := acc - tenthHour }
      let fan := satInc 20 (w.rd .A F.STW_LIFE_FAN.HOURS)
      let w := (w.wrBoth F.STW_LIFE_HRS.HOURS 0 (w.rd .A F.STW_LIFE_HRS.HOURS + 1)).wrBoth F.STW_LIFE_FAN.HOURS 0 fan
      w.when (100000 ≤ fan) fun w => w.wrBoth F.STW_LIFE_FAN.DUE 0 1

end Sys2Proof.Machine
end

