-- ==== Sys2Proof/Machine/Steward.lean ====
section
/-!
DEFINITION. The Steward's frame and its watchdog (R475–R478).
-/
namespace Sys2Proof.Machine

/-- The frame of a half changed. -/
def World.updFrame (w : World) (h : Half) (f : Frame → Frame) : World := { w with frame := w.frame.upd h f }

/-- A cause of EVT_STW_OVERLOAD has come up (R477): the event, if the cause is armed; it re-arms after 100 frames without it. `n`: the frames
to count down from, 101 within a frame, whose own end counts one of them. -/
def World.overload (w : World) (h : Half) (cause n : Nat) : World :=
  let armed : Bool := NMap.get 0 (w.frame.get h).rearm cause = 0
  (w.when armed fun w => w.raise h 0 (evArg 0xFFFF 0xFF cause)).updFrame h fun f => { f with rearm := NMap.set 0 f.rearm cause n }

/-- A frame ends: its load, the frames that C2 stood paused in a row, the causes counted down. -/
def World.frameEnd (w : World) (h : Half) (busy : Nat) : World :=
  let load := min 100 (busy / 100)
  let w := (w.wr h F.STW_LOAD.LOAD 0 load).wr h F.STW_LOAD.PEAK 0 (max load (w.rd h F.STW_LOAD.PEAK))
  w.updFrame h fun f => { f with
    busy := busy, pausedRun := if f.paused then min 100 (f.pausedRun + 1) else 0
    rearm := (List.range 6).foldl (fun m c => NMap.set 0 m c (NMap.get 0 m c - 1)) f.rearm }

/-- The frame of a multiple of 10 ms starts (R475); `busy`, `c0`, `c1`: the busy time of the frame before it and what C0 and C1 took of it, µs. -/
def World.frameStart (w : World) (h : Half) (busy c0 c1 : Nat) : World :=
  let w := w.frameEnd h busy
  let w := w.when (2000 < c1) fun w => w.overload h 3 100
  let w := w.when (3000 < c0) fun w => w.overload h 4 100
  let w := w.when ((w.frame.get h).pausedRun = 100) fun w => w.overload h 5 100
  (w.updFrame h fun f => { f with start := w.mt h / (10 * ms) * (10 * ms), c0 := c0, c1 := c1, shed := false, paused := false }).notePour h

/-- A 10 ms frame starts: module time has reached another multiple of 10 ms. -/
def execStewardFrame (h : Half) (busy c0 c1 : Nat) (s : State) : Out := lift s fun w =>
  w.when ((w.run.get h).running && w.mt h / (10 * ms) ≠ (w.frame.get h).start / (10 * ms)) fun w => w.frameStart h busy c0 c1

/-- Busy time reaches 8.0 ms (R476): the rest of C3 is shed, counted, reported (R477). -/
def execC3Shed (h : Half) (s : State) : Out := lift s fun w =>
  let f := w.frame.get h
  w.when ((w.run.get h).running && !f.shed && f.start + 8 * ms ≤ w.mt h) fun w =>
    ((w.bump h F.STW_LOAD.SHED).overload h 1 101).updFrame h fun f => { f with shed := true }

/-- Busy time reaches 9.5 ms (R476): C2 is paused until the next frame, counted, reported. -/
def execC2Pause (h : Half) (s : State) : Out := lift s fun w =>
  let f := w.frame.get h
  w.when ((w.run.get h).running && !f.paused && f.start + 9500 * us ≤ w.mt h) fun w =>
    ((w.bump h F.STW_LOAD.PAUSED).overload h 2 101).updFrame h fun f => { f with paused := true }

/-- STW_LOAD.CLR. -/
def execStwLoadClear (h : Half) (_init : Nat) (s : State) : Out := lift s fun w =>
  ((w.wr h F.STW_LOAD.PEAK 0 0).wr h F.STW_LOAD.SHED 0 0).wr h F.STW_LOAD.PAUSED 0 0

/-- The watchdog expires (R478): the alive line drops and the half is held in reset, the cause kept. -/
def State.watchdogExpire (s : State) (h : Half) : State := (s.fall h .watchdog).hold h 1

/-- What a byte written to STW_WDOG.KEY does: it arms, services, or (false) expires the watchdog. -/
def Frame.key (f : Frame) (now v : Nat) : Frame × Bool :=
  if v = 0x5A && !f.wdKey then ({ f with wdKey := true }, true)
  else if v = 0xA5 && f.wdKey && (!f.served || f.wdAt + 5 * ms ≤ now) then
    ({ f with wdKey := false, served := true, wdAt := now }, true)
  else (f, false)

/-- STW_WDOG.KEY written. -/
def execWatchdogService (h : Half) (_init v : Nat) (s : State) : Out :=
  let (f, ok) := (s.w.frame.get h).key s.w.now (v % 256)
  .next (s.when (s.w.run.get h).running fun s =>
    if ok then s.onW fun w => w.updFrame h fun _ => f else s.watchdogExpire h)

/-- 30 ms without a service. -/
def execWatchdogExpiry (h : Half) (s : State) : Out :=
  let f := s.w.frame.get h
  .next (s.when ((s.w.run.get h).running && f.served && f.wdAt + 30 * ms ≤ s.w.now) (·.watchdogExpire h))

end Sys2Proof.Machine
end

