-- ==== Sys2Proof/Machine/Events.lean ====
section
/-!
DEFINITION. The event router (R479–R485, R493): raises, the log, vectors, reactions.
-/
namespace Sys2Proof.Machine

/-- A router changed. -/
def World.updEvt (w : World) (h : Half) (f : Router → Router) : World := { w with evt := w.evt.upd h f }

/-- An event raised by source `num` with its ARG. -/
def execEventRaise (h : Half) (num arg : Nat) (s : State) : Out := lift s fun w =>
  w.when (num < 256) fun w => w.raise h num (arg % 2 ^ 32)

/-! The log (R481, R483). -/

/-- The 16 bytes of a record. -/
def EvRec.bytes (r : EvRec) : List Byte :=
  leBytes r.stamp 8 ++ leBytes r.num 1 ++ leBytes r.flags 1 ++ leBytes r.count 1 ++ leBytes 0 1 ++ leBytes r.arg 4

/-- A record written to a half's log: LOG_OVF when it overwrites one not consumed. -/
def World.logRec (w : World) (h : Half) (r : EvRec) : World :=
  let n := w.rd h F.EVT_LOG_HEAD.VALUE
  let left_ := (n + 2 ^ 32 - w.rd h F.EVT_LOG_TAIL.VALUE) % 2 ^ 32
  let w := w.when (4096 ≤ left_) fun w => w.wr h F.EVT_STATUS.LOG_OVF 0 1
  (w.putMem h 10 (16 * (n % 4096)) r.bytes).wr h F.EVT_LOG_HEAD.VALUE 0 ((n + 1) % 2 ^ 32)

/-! Knocks of objects (R488, R490): valves, switches, inputs, CAN channels. -/

/-- The kinds that a Knock of class 0 and KNOCK_OBJ name. -/
def knockKind (k : Nat) : Bool := [1, 2, 3, 5].contains (kindOfObj k) && k < nObj

/-- An object Knocked. -/
def World.knockObj (w : World) (k : Nat) : World :=
  match kindOfObj k with
  | 1 => w.knockValve k (w.rd .A F.VLV_STATUS.TOFF k)
  | 2 => w.knockSwitch (k - 96)
  | 3 => w.knockInput (k - 144)
  | 5 => w.knockCan (k - 336)
  | _ => w

/-- An object shows itself Knocked and not restarted. -/
def World.objKnocked (w : World) (k : Nat) : Bool :=
  match kindOfObj k with
  | 1 => w.flag .A F.VLV_STATUS.KNOCKED k
  | 2 => w.flag .A F.LSW_STATUS.KNOCKED (k - 96)
  | 5 => w.canRd (k - 336) F.CAN_STATUS.KNOCKED = 1
  | _ => false

/-! Delivery (R484, R485). -/

/-- Whether a route applies to a record (R486). -/
def Route.fits (t : Route) (r : EvRec) : Bool := t.event = r.num && (t.matchObj = 0xFFFF || t.matchObj = r.arg % 2 ^ 16)

/-- The vectors of a route set pending: cluster `c` (0 application, 1 real-time, 2 Steward), words at indices 2 c and 2 c + 1. -/
def World.pendVec (w : World) (h : Half) (t : Route) : World :=
  w.forAll ((List.range 3).filter (bitOf t.clusters)) fun w c =>
    let v := t.vec.getD c 0
    let i := 2 * c + v / 32
    w.wr h F.EVT_VPEND.V i (w.rd h F.EVT_VPEND.V i ||| 2 ^ (v % 32))

/-- The objects of a route's reaction. -/
def World.reactObjs (w : World) (h : Half) (t : Route) : List Nat :=
  match t.react with
  | 1 => [t.target]
  | 2 => (w.func h t.target).outs
  | _ => []

/-- The owned objects that a record's routes Knock, while reactions are enabled. -/
def State.reactions (s : State) (h : Half) (l : List Route) : List Nat :=
  if s.w.flag h F.EVT_CTRL.REACT_EN && s.own.alive h then
    (l.flatMap (s.w.reactObjs h)).filter (fun k => knockKind k && s.own.owns h k)
  else []

/-- A record with REACTED set. -/
def EvRec.react (r : EvRec) (on : Bool) : EvRec := if on && !bitOf r.flags 3 then { r with flags := r.flags + 8 } else r

/-- The oldest record delivered: reactions, vectors, the log, the sibling's log. -/
def State.deliver (s : State) (h : Half) (r : EvRec) (rest : List EvRec) : State :=
  let routes := (s.w.evt.get h).routes.filter (·.fits r)
  let objs := s.reactions h routes
  let r := r.react (!objs.isEmpty)
  s.onW fun w =>
    let w := w.updEvt h fun e => { e with queue := rest }
    let w := (w.forAll objs World.knockObj).forAll routes fun w t => w.pendVec h t
    let w := w.logRec h r
    let w := w.when (routes.any (·.fwd) && w.flag h F.XNG_STATUS.UP && (w.run.get h.other).running) fun w =>
      ((w.logRec h.other { r with flags := r.flags + 2 }).xngSent h 4 16).xngGot h.other 16
    w.updEvt h fun e => e.report (w.mt h) h.code

/-- The record at the head of the input queue is delivered. -/
def execEventRecordDelivery (h : Half) (s : State) : Out :=
  match (s.w.evt.get h).queue with
  | [] => .next s
  | r :: rest => .next (s.when (s.w.run.get h).running (·.deliver h r rest))

/-- EVT_CTRL.CLR_CNT: the counts and flags of EVT_STATUS. -/
def execEvtClrCnt (h : Half) (_init : Nat) (s : State) : Out := lift s fun w =>
  ((w.wr h F.EVT_STATUS.LOST 0 0).wr h F.EVT_STATUS.LOG_OVF 0 0).wr h F.EVT_STATUS.KNOCK_FULL 0 0

end Sys2Proof.Machine
end

