-- ==== Sys2Proof/Machine/Knock.lean ====
section
/-!
DEFINITION. The Knock path (R488–R491).
-/
namespace Sys2Proof.Machine

/-- Slot `k` of the Knock path. -/
def World.slot (w : World) (h : Half) (k : Nat) : KnockSlot := NMap.get {} (w.evt.get h).slots k

/-- Slot `k` replaced. -/
def World.setSlot (w : World) (h : Half) (k : Nat) (x : KnockSlot) : World :=
  w.updEvt h fun r => { r with slots := NMap.set {} r.slots k x }

/-- A slot's Knock is in progress. -/
def World.slotBusy (w : World) (h : Half) (k : Nat) : Bool := w.flag h F.EVT_KNOCK_RES.BUSY k

/-- The completed slots of an initiator become free (R491). -/
def World.freeSlots (w : World) (h : Half) (init : Nat) : World :=
  w.forAll ((List.range 8).filter (fun k => (w.slot h k).taken && (w.slot h k).init = init && !w.slotBusy h k)) fun w k =>
    (w.setSlot h k {}).setReg h F.EVT_KNOCK_RES.BUSY k 0

/-- The lowest free slot. -/
def World.freeSlot (w : World) (h : Half) : Option Nat := (List.range 8).find? (fun k => !(w.slot h k).taken)

/-- EVT_KNOCK_RES of a slot. -/
def World.slotRes (w : World) (h : Half) (k : Nat) (busy : Bool) (res cls idx : Nat) : World :=
  ((((w.wr h F.EVT_KNOCK_RES.BUSY k (b2n busy)).wr h F.EVT_KNOCK_RES.RES k res).wr h F.EVT_KNOCK_RES.CLASS k cls).wr h
    F.EVT_KNOCK_RES.INDEX k idx).wr h F.EVT_KNOCK_RES.TIME k 0

/-- A Knock of the same target is in progress, or escalating, in a slot. -/
def World.knockPending (w : World) (h : Half) (cls idx : Nat) : Bool :=
  (List.range 8).any (fun k => w.slotBusy h k && w.rd h F.EVT_KNOCK_RES.CLASS k = cls && w.rd h F.EVT_KNOCK_RES.INDEX k = idx)

/-- How a Knock that found a slot goes on: refused with a result, complete at once, or in progress. -/
inductive KnockStart where
  | refused (res : Nat)
  | done
  | busy
deriving DecidableEq, Repr

/-- Knock of an object (R490): BAD_TARGET, NOT_OWNER with EVT_OWN_VIOLATION, or the Knock. -/
def State.knockClass0 (s : State) (h : Half) (init idx : Nat) (again : Bool) : State × KnockStart :=
  if !knockKind idx then (s, .refused 4)
  else if !(s.own.alive h && s.own.owns h idx) then (s.when (s.own.alive h) (·.onW fun w => w.violation h init idx), .refused 3)
  else if again then (s, .busy)
  else if s.w.objKnocked idx then (s, .done)
  else (s.onW fun w => w.knockObj idx, .busy)

/-- Knock of a satellite channel (0–191) or an acquisition engine (192–207). -/
def State.knockClass2 (s : State) (h : Half) (idx : Nat) : State × KnockStart :=
  if idx < 192 then
    if s.w.rd h F.GNS_CH_STATUS.STATE idx = 2 then (s, .done) else (s.onW fun w => w.knockChan h idx, .busy)
  else if s.w.flag h F.GNS_ACQ_STATUS.KNOCKED (idx - 192) && !s.w.flag h F.GNS_ACQ_STATUS.BUSY (idx - 192) then (s, .done)
  else (s.onW fun w => w.knockAcq h (idx - 192), .busy)

/-- Knock of an update session or of the activation (R83, R504). -/
def State.knockClass5 (s : State) (h : Half) (idx : Nat) : State :=
  if idx = 0xFF then
    let late := s.activateKnock.2
    let s := s.activateKnock.1
    s.when late (·.onW fun w => w.updRes h 20)
  else s.onW fun w => w.knockSess h idx 18

/-- A Knock of a class and index; `tc`: the class of the Steward task it names; `jobs`: the jobs each feature class has. `again`: an earlier
Knock of the target is still in progress. -/
def State.knock (s : State) (h : Half) (init cls idx tc : Nat) (jobs : List Nat) (again : Bool) : State × KnockStart :=
  match cls with
  | 0 => s.knockClass0 h init idx again
  | 1 => if 8 ≤ idx then (s, .refused 4) else (s.when (!again) (·.onW fun w => w.knockPipes h (2 ^ idx)), .busy)
  | 2 => if 208 ≤ idx then (s, .refused 4) else if again then (s, .busy) else s.knockClass2 h idx
  | 3 => if 4 ≤ idx then (s, .refused 4) else (s.when (!again) (·.onW fun w => w.knockJobs h (2 ^ idx) jobs), .busy)
  | 4 => if 64 ≤ idx then (s, .refused 4) else if tc < 2 then (s, .refused 2) else (s, .busy)
  | 5 =>
    if (1 ≤ idx && idx ≤ 7) || idx = 0xFF then (s.when (!again) (·.knockClass5 h idx), .busy) else (s, .refused 4)
  | _ => (s, .refused 4)

/-- The write of EVT_KNOCK_CMD with a free slot. -/
def State.knockIn (s : State) (h : Half) (init cls idx tc : Nat) (jobs : List Nat) (k : Nat) : State :=
  let again := s.w.knockPending h cls idx
  let done := s.knock h init cls idx tc jobs again
  let r := done.2
  let s := done.1
  s.onW fun w =>
    let w := w.setSlot h k ⟨true, init, w.now⟩
    match r with
    | .refused n => w.slotRes h k false n cls idx
    | .done => w.slotRes h k false 0 cls idx
    | .busy => w.slotRes h k true 0 cls idx

/-- EVT_KNOCK_CMD written by initiator `init`: CLASS and INDEX. -/
def execKnockCmd (h : Half) (init cls idx tc : Nat) (jobs : List Nat) (s : State) : Out :=
  .next (s.when (s.w.run.get h).running fun s =>
    let s := s.onW fun w => w.freeSlots h init
    match s.w.freeSlot h with
    | none => s.onW fun w => w.wr h F.EVT_STATUS.KNOCK_FULL 0 1
    | some k => s.knockIn h init (cls % 8) (idx % 512) tc jobs k)

/-- A slot completes: with DONE, or with the ESCALATED it already shows. -/
def World.slotDone (w : World) (h : Half) (k : Nat) : World :=
  (w.wr h F.EVT_KNOCK_RES.BUSY k 0).wr h F.EVT_KNOCK_RES.TIME k (satTo 16 ((w.now - (w.slot h k).start) / us))

/-- The slots in progress for the target of slot `k`. -/
def World.sameTarget (w : World) (h : Half) (k : Nat) : List Nat :=
  (List.range 8).filter (fun j => w.slotBusy h j && w.rd h F.EVT_KNOCK_RES.CLASS j = w.rd h F.EVT_KNOCK_RES.CLASS k &&
    w.rd h F.EVT_KNOCK_RES.INDEX j = w.rd h F.EVT_KNOCK_RES.INDEX k)

/-- The unit of a Knock in progress reaches its idle state: every slot of that target completes with the same result. -/
def execKnockComplete (h : Half) (k : Nat) (s : State) : Out := lift s fun w =>
  w.when (k < 8 && w.slotBusy h k) fun w => w.forAll (w.sameTarget h k) fun w j => w.slotDone h j

/-- The completion bound of a class, ns. -/
def knockBound (cls : Nat) : Nat :=
  match cls with
  | 0 => 50 * us
  | 1 => 50 * us
  | 2 => ms
  | 3 => 2 * ms
  | 4 => 5 * ms
  | _ => 20 * ms

/-- A Knock is not complete by its bound (R489): the unit is reset by hardware, the result is ESCALATED, EVT_KNOCK_ESCALATED. -/
def execKnockEscalation (h : Half) (k : Nat) (s : State) : Out := lift s fun w =>
  let cls := w.rd h F.EVT_KNOCK_RES.CLASS k
  let idx := w.rd h F.EVT_KNOCK_RES.INDEX k
  w.when (k < 8 && w.slotBusy h k && w.rd h F.EVT_KNOCK_RES.RES k = 0 && (w.slot h k).start + knockBound cls ≤ w.now) fun w =>
    let w := w.forAll (w.sameTarget h k) fun w j => w.wr h F.EVT_KNOCK_RES.RES j 1
    (w.when (cls = 3) fun w => w.bump h F.FEA_CNT.ESCAL).raise h 5 (evArg idx 0xFF cls)

end Sys2Proof.Machine
end

