-- ==== Sys2Proof/Machine/Bus.lean ====
section
/-!
DEFINITION. Register access (R16–R20, R49, R579–R585): the boundary FIFOs, selects, locks, and what a posted write to a register that has
no command of its own does.
-/
namespace Sys2Proof.Machine

/-! Addresses (R579, R585). -/

/-- The initiators of a half (OWN_VIOL.INIT): 0–7 application cores, 8 and 9 real-time pairs, 10 Steward, 11 Setting Engine. -/
def nInit : Nat := 12

/-- The code of the Steward. -/
def steward : Nat := 10

/-- A register a definition covers, with its place in the array and the word of it. -/
def defAt (d : RegDef) (reg : Nat) : Option (Nat × Nat) :=
  if reg < d.reg then none
  else
    let k := (reg - d.reg) / d.stride
    let r := (reg - d.reg) % d.stride
    if k < d.cnt && r / 4 < d.words && r % 4 = 0 then some (k, r / 4) else none

/-- The first of a list of definitions that covers a register. -/
def findDef (reg : Nat) : List RegDef → Option (RegDef × Nat × Nat)
  | [] => none
  | d :: t =>
    match defAt d reg with
    | some (k, x) => some (d, k, x)
    | none => findDef reg t

/-- The register of an address of the peripheral window: its block and offset. -/
def regOf (addr : Nat) : Nat := addr % 2 ^ 28

/-- An address of the 21 blocks. -/
def mapped (addr : Nat) : Bool := 64 ≤ addr / 2 ^ 24 && addr / 2 ^ 20 < 1045

/-- The definition of the register at an address. -/
def regAt (addr : Nat) : Option (RegDef × Nat × Nat) := findDef (regOf addr) (regDefsOf (regOf addr / 2 ^ 20))

/-! Selects (R581, R583). -/

/-- The select field of a block. -/
def selField : Nat → Option Field
  | 5 => some F.VLV_SEL.CH
  | 6 => some F.LSW_SEL.CH
  | 7 => some F.UIN_SEL.CH
  | 8 => some F.LOS_SEL.CH
  | 9 => some F.CAN_SEL.CH
  | 11 => some F.GNS_SEL.CH
  | 14 => some F.TRK_SEL.SLOT
  | 16 => some F.FAN_SEL.CH
  | _ => none

/-- The values in a block's range. -/
def selCount : Nat → Nat
  | 5 => 96
  | 6 => 48
  | 7 => 128
  | 8 => 64
  | 9 => 16
  | 11 => 208
  | 14 => 512
  | 16 => 4
  | _ => 0

/-- The select value of an initiator in a block. -/
def World.selOf (w : World) (h : Half) (blk init : Nat) : Nat :=
  match selField blk with
  | some f => w.sel h f init
  | none => 0

/-- The index that a select value gives a register: `none` where the register reads 0 and ignores writes (R583, R386). -/
def selIndex (blk sel : Nat) (k : Sel) : Option Nat :=
  if k = .none then some 0
  else if selCount blk ≤ sel then none
  else match k with
    | .none => some 0
    | .channel => if blk = 11 && 192 ≤ sel then none else some sel
    | .tile => some (sel / 16)
    | .bank => some (sel / 16)
    | .supply => some (sel / 8)
    | .engine => if sel < 192 then none else some (sel - 192)

/-- The index of a register's word: the select, the place in the array, the word. -/
def defIndex (d : RegDef) (sel k x : Nat) : Nat := (sel * d.cnt + k) * d.words + x

/-- A write of a select register: the value is held; EVT_SEL_RANGE beyond the range (R583). -/
def World.writeSel (w : World) (h : Half) (init blk v : Nat) : World :=
  match selField blk with
  | some f =>
    let v := v % 2 ^ f.w
    let w := w.wr h f init v
    w.when (selCount blk ≤ v) fun w => w.raise h 14 (evArg v blk init)
  | none => w

/-- The select register of block `blk` written by initiator `init`. -/
def execSelectWrite (h : Half) (init blk v : Nat) (s : State) : Out := lift s fun w =>
  w.when ((w.run.get h).running && init < nInit) fun w => w.writeSel h init blk v

/-! Locks and the gates of single fields. -/

/-- The LOCK of a block (R585, R49, R333). -/
def lockReg (blk : Nat) : Nat := if blk = 3 then F.OWN_LOCK.OPEN.reg else if blk = 14 then F.GRD_LOCK.OPEN.reg else blk * 2 ^ 20 + 0x14

/-- The bits of a register that a command of their own writes; all others of its writable bits are written by the bus. -/
def ownBits : List (Nat × Nat) := [
  (0x88, 0xFFFFFFFF), (0x300010, 0x3), (0x300114, 0xFFFFFFFF), (0x400040, 0xFFFF0000), (0x400400, 0x1), (0x400500, 0x73)
  , (0x400508, 0xFFFFFFFF), (0x40050c, 0xFFFFFFFF), (0x400510, 0xFFFFFFFF), (0x400514, 0xFFFFFFFF), (0x400518, 0xFFFFFFFF)
  , (0x500020, 0xFFFFFFFF), (0x500024, 0xFFFFFFFF), (0x600020, 0xFFFFFFFF), (0x700080, 0xFFFFFFFF), (0x800010, 0x30)
  , (0x400600, 0x70), (0x400648, 0xFFFFFFFF), (0xb0001c, 0xFFFFFFFF), (0xb0010c, 0xFFFFFFFF), (0xb00090, 0xFFFFFFFF)
  , (0x200010, 0xFFFFFFFF), (0x900020, 0xFFFFFFFF), (0x1000020, 0xFFFFFFFF), (0x1000040, 0xFFFFFFFF), (0xf00010, 0x2)]

/-- The enables whose 0 is honoured only in SERVICE: register and bit. -/
def keptOn : List (Nat × Nat) := [
  (0x300100, 2), (0x1300010, 0), (0x700010, 0), (0x800010, 0), (0xc00010, 0), (0xd00010, 0), (0xe00010, 0), (0xb00010, 0), (0x100010, 0)]

/-- The word after a write with a mask. -/
def maskWrite (old v : Word) (m : Nat) : Word := (old &&& ~~~(BitVec.ofNat 32 m)) ||| (v &&& BitVec.ofNat 32 m)

/-- The word after a write: RW fields, RWL fields while the lock is open, W1C fields. -/
def defWritten (d : RegDef) (openL : Bool) (old v : Word) : Word :=
  let own := (ownBits.lookup d.reg).getD 0
  let m := (d.rw ||| (if openL then d.rwl else 0)) &&& (0xFFFFFFFF - own)
  maskWrite old v m &&& ~~~(v &&& BitVec.ofNat 32 d.w1c)

/-- The word with the fields that are honoured only in SERVICE, or only in a range, left as they were. -/
def serviceBits (reg : Nat) (service : Bool) (old new : Word) : Word :=
  let new := match keptOn.lookup reg with
    | some b => if service then new else new ||| (old &&& BitVec.ofNat 32 (2 ^ b))
    | none => new
  if reg = F.GRD_CTRL.SLOW.reg && !service then maskWrite old new 0xFFFFFFFE
  else if reg = F.GNS_CORR_CFG.AGE_MAX.reg && !(2 ≤ new.field 8 6 && new.field 8 6 ≤ 60) then maskWrite old new 0xFFFFC0FF
  else new

/-- A write that its register's own condition lets pass (R337, R409, R430, R386, R543). -/
def World.writeOk (w : World) (h : Half) (serves : Bool) (reg i k : Nat) (v : Word) : Bool :=
  if reg = F.FAN_AUTO.T_LO.reg then v.field 0 8 < v.field 8 8
  else if reg = F.FAN_SKIP.LO.reg then v.field 0 16 < v.field 16 16
  else if reg = F.TRK_STOP_CFG.T_STOP.reg then serves && v.field 8 8 ≤ v.field 16 8
  else if reg = F.CAN_TXB_W0.ID.reg || reg = F.CAN_TXB_W1.DLC.reg then w.tbState (i / 3) k ≠ 1 && w.tbState (i / 3) k ≠ 2
  else if reg = F.CAN_TXB_DATA.DATA.reg then w.tbState (i / 48) k ≠ 1 && w.tbState (i / 48) k ≠ 2
  else if reg = F.GNS_CH_CFG.SV.reg then w.rd h F.GNS_CH_STATUS.STATE i = 0
  else if reg = F.ETH_PORT.FORCE.reg then k < 8
  else true

/-! Ownership (R20, R49). -/

/-- What a write must own: nothing, an object, or any object of a range (with the object that a violation names). -/
inductive Gate where
  | free
  | obj (k : Nat)
  | anyOf (a n k : Nat)
deriving DecidableEq, Repr

/-- The gate of a register's write; `k`: its place in its array. -/
def World.gateOf (w : World) (d : RegDef) (blk sel k : Nat) : Gate :=
  if d.reg = F.CAN_SIGV.VALUE.reg then .obj (objC ((w.can.sec.msgs.getD ((w.can.sec.sigs.getD k {}).msg) {}).ch))
  else if !d.bp then .free
  else match blk with
    | 5 => if d.sel = .tile then .anyOf (sel / 16 * 16) 16 (objV sel) else .obj (objV sel)
    | 6 => if d.sel = .bank then .anyOf (objL (sel / 16 * 16)) 16 (objL sel) else if d.sel = .channel then .obj (objL sel) else .free
    | 7 =>
      if d.sel = .channel then .obj (objU sel) else if d.sel = .supply then .obj (objU (sel / 8 * 8)) else .anyOf (objU 0) 128 (objU sel)
    | 8 => .anyOf (objLos 0) 64 (objLos sel)
    | 9 => .obj (objC sel)
    | 15 => if d.reg = F.DSP_PNL_SRC.ADDR.reg then .obj objPnl else .obj objSeg
    | 16 => if d.sel = .channel then .obj (objFan sel) else .anyOf (objFan 0) 4 (objFan sel)
    | _ => .free

/-- A write through its gate. -/
def gateWrite (s : State) (h : Half) (init : Nat) (g : Gate) (f : World → World) : World :=
  match g with
  | .free => f s.w
  | .obj k => gateObj s h init k f
  | .anyOf a n k => gateAny s h init a n k f

/-! What the bus writes. -/

/-- The cluster whose EVT_VPEND and EVT_VMASK an initiator sees (R484): application, real-time, Steward; the Setting Engine has none. -/
def clusterOf (init : Nat) : Option Nat := if init < 8 then some 0 else if init < 10 then some 1 else if init = 10 then some 2 else none

/-- A plain register written. -/
def World.plainWrite (w : World) (h : Half) (serves : Bool) (d : RegDef) (blk i k : Nat) (v : Word) : World :=
  let f : Field := ⟨d.reg, 0, 32, d.bp⟩
  let old := w.reg h f i
  let openL : Bool := w.rd h ⟨lockReg blk, 0, 1, false⟩ = 1
  let new := serviceBits d.reg (w.inService h) old (defWritten d openL old v)
  w.when (w.writeOk h serves d.reg i k v) fun w =>
    let w := w.setReg h f i new
    w.when (d.reg = F.TRK_STOP_CFG.T_STOP.reg && w.flag h F.XNG_STATUS.UP) fun w => w.setReg h.other f i new

/-- STW_HOLD written: 1 to FORCED clears it in both halves; the Steward sets HOLD_REQ, which only the Cupping controller clears (R102, R104). -/
def World.writeHold (w : World) (h : Half) (init : Nat) (v : Word) : World :=
  let w := w.when (v.field 3 1 = 1) fun w => w.wrBoth F.STW_HOLD.FORCED 0 0
  w.when (v.field 0 1 = 1 && init = steward) fun w => w.setHoldReq h true

/-- A LOCK written: by the Steward; another initiator's write is ignored, and of OWN_LOCK it is a violation that names no object (R49). -/
def World.writeLock (w : World) (h : Half) (init blk : Nat) (v : Word) : World :=
  if init = steward then w.wr h ⟨lockReg blk, 0, 1, false⟩ 0 (v.field 0 1)
  else w.when (blk = 3) fun w => w.violation h init 0x1FF

/-- EVT_VPEND (write 1 to clear) or EVT_VMASK of the initiator's cluster. -/
def World.writeVec (w : World) (h : Half) (init reg k : Nat) (v : Word) : World :=
  match clusterOf init with
  | none => w
  | some c =>
    let i := 2 * c + k
    if reg = F.EVT_VPEND.V.reg then w.setReg h F.EVT_VPEND.V i (w.reg h F.EVT_VPEND.V i &&& ~~~v) else w.setReg h F.EVT_VMASK.V i v

/-- A write of the register `d`, word `x` of place `k`, index `i`: the select registers, the locks, STW_HOLD and the event vectors have
rules of their own; a register with no bit that a write changes ignores it. -/
def State.regWrite (s : State) (h : Half) (init blk : Nat) (d : RegDef) (k x sel i : Nat) (v : Word) : World :=
  if (selField blk).isSome && d.reg = blk * 2 ^ 20 then s.w.writeSel h init blk v.toNat
  else if d.reg = lockReg blk && d.rw ≠ 0 then s.w.writeLock h init blk v
  else if d.reg = F.STW_HOLD.HOLD_REQ.reg then s.w.writeHold h init v
  else if d.reg = F.EVT_VPEND.V.reg || d.reg = F.EVT_VMASK.V.reg then s.w.writeVec h init d.reg k v
  else if d.rw = 0 && d.rwl = 0 && d.w1c = 0 then s.w
  else if d.reg = F.CAN_SIGV.VALUE.reg then gateWrite s h init (s.w.gateOf d blk sel k) fun w => w.writeSig k v.toNat
  else gateWrite s h init (s.w.gateOf d blk sel k) fun w => w.plainWrite h (s.own.serves h) d blk (defIndex d i k x) k v

/-- What a posted write does to the registers when it takes effect: nothing where the address names none, or the initiator's select no
channel of it (R583). -/
def State.writeWorld (s : State) (h : Half) (init : Nat) (p : PWrite) : World :=
  match regAt p.addr with
  | none => s.w
  | some (d, k, x) =>
    let blk := regOf p.addr / 2 ^ 20
    let sel := s.w.selOf h blk init
    match selIndex blk sel d.sel with
    | none => s.w
    | some i => s.regWrite h init blk d k x sel i p.val

/-- A posted write takes effect. -/
def State.busWrite (s : State) (h : Half) (init : Nat) (p : PWrite) : State := { s with w := s.writeWorld h init p }

/-! The boundary FIFO (R16, R17). -/

/-- The boundary of an initiator. -/
def State.port (s : State) (h : Half) (init : Nat) : Port := NMap.get {} (s.bus.port.get h) init

/-- The boundary replaced. -/
def State.setPort (s : State) (h : Half) (init : Nat) (p : Port) : State :=
  { s with bus := { s.bus with port := s.bus.port.upd h fun m => NMap.set {} m init p } }

/-- A write issued: it retires into the FIFO, or stalls the initiator while that holds 8. A stalled initiator issues none. -/
def Port.post (p : Port) (x : PWrite) : Port :=
  if p.stalled.isSome then p else if p.fifo.length < 8 then { p with fifo := p.fifo ++ [x] } else { p with stalled := some x }

/-- A place is free: the stalled write retires. -/
def Port.pop (p : Port) : Port :=
  let t := p.fifo.drop 1
  match p.stalled with
  | some x => { p with fifo := t ++ [x], stalled := none }
  | none => { p with fifo := t }

/-- A write issued by initiator `init`. -/
def execRegisterWrite (h : Half) (init addr v : Nat) (s : State) : Out :=
  .next (s.when ((s.w.run.get h).running && init < nInit && mapped addr && addr % 4 = 0) fun s =>
    s.setPort h init ((s.port h init).post ⟨addr, BitVec.ofNat 32 v⟩))

/-- The oldest posted write of an initiator takes effect (R16, R20). -/
def execWriteTakesEffect (h : Half) (init : Nat) (s : State) : Out :=
  match (s.port h init).fifo with
  | [] => .next s
  | p :: _ => .next (s.when (s.w.run.get h).running fun s => (s.setPort h init (s.port h init).pop).busWrite h init p)

/-- A bus error: the access returns 0. -/
def State.busErr (s : State) (h : Half) (init : Nat) : State :=
  s.setPort h init { s.port h init with lastRead := 0, busError := true }

/-- A read without an answer for 20 µs (R19). -/
def execReadTimeout (h : Half) (init addr : Nat) (s : State) : Out :=
  .next (s.when ((s.w.run.get h).running && init < nInit && mapped addr && addr % 4 = 0) (·.busErr h init))

/-- An access of `size` bytes outside the mapped blocks, or not aligned, or not of 32 bits (R584). -/
def execBusErrorAccess (h : Half) (init addr size : Nat) (s : State) : Out :=
  .next (s.when ((s.w.run.get h).running && init < nInit && addr / 2 ^ 28 = 4 &&
      (!mapped addr || addr % 4 ≠ 0 || size ≠ 4)) (·.busErr h init))

end Sys2Proof.Machine
end

