-- ==== Sys2Proof/Machine/Views.lean ====
section
/-!
DEFINITION. What a read returns (R18, R21, R579, R581, R583–R585): the registers as held, and the fields that show other state.
-/
namespace Sys2Proof.Machine

/-! Fields that show other state. -/

/-- The code of a token's state (R22). -/
def TokenSt.code : TokenSt → Nat
  | .orphan => 0
  | .owned .A => 1
  | .owned .B => 2
  | .claiming _ _ => 3

/-- OWN_STATE: two bits for each of 16 objects. -/
def Own.stateWord (o : Own) (m : Nat) : Nat :=
  (List.range 16).foldl (fun a j => a + (if 16 * m + j < nObj then (o.token (16 * m + j)).st.code else 0) * 4 ^ j) 0

/-- OWN_MINE: a bit for each of 32 objects. -/
def Own.mineWord (o : Own) (h : Half) (m : Nat) : Nat :=
  (List.range 32).foldl (fun a j => a + b2n (32 * m + j < nObj && o.owns h (32 * m + j)) * 2 ^ j) 0

/-- OWN_STATUS. -/
def Own.statusWord (o : Own) (h : Half) : Nat :=
  let claiming (k : Nat) : Bool := (o.token k).st.code = 3
  (o.ownedBy h).length + 2 ^ 9 * o.orphans.length + 2 ^ 24 * b2n (o.serves h) + 2 ^ 25 * b2n (o.serves h.other) +
    2 ^ 26 * b2n ((List.range nObj).any claiming)

/-- A channel is an active requester of its tile's current sensing (R186); a probe lasts less than a step. -/
def World.senseActive (w : World) (ch : Nat) : Bool :=
  w.flag .A F.VLV_STATUS.RUN ch || 50 < w.rd .A F.VLV_CUR.I ch || (w.eng ch).level.isSome || (w.eng ch).gramp.isSome

/-- VLV_ADC of a tile: the requesters, and the rate each is sampled at. -/
def World.adcWord (w : World) (t : Nat) : Nat :=
  let n := ((tileChans t).filter w.senseActive).length
  (if n = 0 then 8000 else min 8000 (32000 / n)) + 2 ^ 16 * n

/-- VLV_BANK of bank `n`. -/
def World.bankWord (w : World) (n : Nat) : Nat :=
  let src (c : Nat) : Nat := w.rd .A F.VLV_STATUS.SRC c
  let boost : Option Nat := (bankChans n).find? (fun c => src c = 2)
  satTo 16 (w.bankSum n) + 2 ^ 18 * ((boost.map (· % 4)).getD 0) + 2 ^ 20 * b2n ((bankChans n).any (fun c => src c ≠ 0)) +
    2 ^ 21 * b2n boost.isSome

/-- LSW_CFG of a switch. -/
def World.swCfgWord (w : World) (n : Nat) : Nat :=
  let c := w.swCfg n
  2 ^ 16 * (w.iSet n % 2 ^ 16) + 2 ^ 12 * (c.retryN % 16) + 2 ^ 10 * (c.shed % 4) + 2 ^ 8 * swClass n + 2 ^ 5 * (c.profDef % 8)

/-- Milliseconds since an instant, in a field of `w` bits. -/
def World.ageMs (w : World) (t b : Nat) : Nat := satTo b ((w.now - t) / ms)

/-- STW_HOME. -/
def State.homeWord (s : State) (h : Half) : Nat :=
  let srv := s.own.server.getD .A
  (List.range 30).foldl (fun a n => a + b2n ((s.w.func h n).used && s.w.fnHome h srv n = .B) * 2 ^ n) 0 + 2 ^ 30 * b2n s.balanced +
    2 ^ 31 * b2n s.handback

/-- The seconds left of the 30 s of the latch (R103). -/
def World.holdLeft (w : World) : Nat :=
  let l := w.latch
  if l.keySeen && !l.keyOn then 30 - (w.now - l.keyOffAt) / sec else 30

/-- The microseconds left to the watchdog (R478). -/
def World.wdLeft (w : World) (h : Half) : Nat :=
  let f := w.frame.get h
  if f.served then 30000 - (w.now - f.wdAt) / us else 30000

/-- The correction age (R380), 0.1 s. -/
def World.corrAge (w : World) (h : Half) : Nat :=
  let g := w.gns.get h
  match g.usedAt with
  | some t => satTo 16 ((w.mt h - t) / (100 * ms))
  | none => 0xFFFF

/-- The age of the active cart's CART_STATE. -/
def World.cartAge (w : World) (h : Half) : Nat :=
  let k := w.rd h F.FLX_CART.ACTIVE
  if k = 0xF then 0xFFFF else w.ageMs (w.fsess h k).cartAt 16

/-- What remains of a slew, ns. -/
def World.slewLeft (w : World) (h : Half) : Nat :=
  let t := w.tim.get h
  match t.slew with
  | some (_, n) => toTwos 32 (n - t.part w.now)
  | none => 0

/-- A word of the record of a slot in the last publication (R349). -/
def World.trkWord (w : World) (h : Half) (slot k : Nat) : Nat :=
  leAt (w.getMem h 5 (w.rd h F.TRK_BUF.VALUE + 64 * slot + 4 * k) 4) 0 4

/-- The object of a register's select is not owned by either half. -/
def State.autonomous (s : State) (k : Nat) : Nat := b2n (s.own.owner k).isNone

/-! The read. -/

/-- A register with the fields that show other state; `i` its index, `k` its place in its array. -/
def State.shown (s : State) (h : Half) (reg i k : Nat) (v : Word) : Word :=
  let w := s.w
  if reg = F.OWN_STATE.S.reg then BitVec.ofNat 32 (s.own.stateWord k)
  else if reg = F.OWN_MINE.M.reg then BitVec.ofNat 32 (s.own.mineWord h k)
  else if reg = F.OWN_STATUS.OWNED_CNT.reg then BitVec.ofNat 32 (s.own.statusWord h)
  else if reg = F.XNG_STATUS.UP.reg then (v.setField 7 1 (b2n (s.own.alive h))).setField 6 1 (b2n (s.own.alive h.other))
  else if reg = F.XNG_BW.TX.reg then BitVec.ofNat 32 (w.xngBw h)
  else if reg = F.EVT_STATUS.LOST.reg then v.setField 16 8 (satTo 8 (w.evt.get h).queue.length)
  else if reg = F.STW_WDOG.LEFT.reg then BitVec.ofNat 32 (2 ^ 8 * w.wdLeft h)
  else if reg = F.STW_HOLD.HOLD_REQ.reg then v.setField 8 8 w.holdLeft
  else if reg = F.STW_HOME.HOME_B.reg then BitVec.ofNat 32 (s.homeWord h)
  else if reg = F.TIM_NOW_LO.T.reg then BitVec.ofNat 32 (w.mt h)
  else if reg = F.TIM_NOW_HI.T.reg then BitVec.ofNat 32 (w.tim.get h).latch
  else if reg = F.TIM_ERR.VALUE.reg then BitVec.ofNat 32 (w.timErr h)
  else if reg = F.TIM_SLEW.VALUE.reg then BitVec.ofNat 32 (w.slewLeft h)
  else if reg = F.SET_STATE.STATE.reg then v.setField 16 1 (b2n (w.stateFrozen h))
  else if reg = F.VLV_STATUS.RUN.reg then v.setField F.VLV_STATUS.AUTONOMOUS.lo 1 (s.autonomous (objV i))
  else if reg = F.VLV_CUR.I.reg then v.setField 16 16 (w.effTarget i)
  else if reg = F.VLV_ADC.RATE.reg then BitVec.ofNat 32 (w.adcWord i)
  else if reg = F.VLV_BANK.SUM.reg then BitVec.ofNat 32 (w.bankWord i)
  else if reg = F.LSW_STATUS.STATE.reg then v.setField 25 1 (s.autonomous (objL i))
  else if reg = F.LSW_CFG.I_SET.reg then BitVec.ofNat 32 (w.swCfgWord i)
  else if reg = F.LSW_FEED.I.reg then
    (v.setField 24 8 ((feedSwitches k).filter (fun n => w.swState n = 1)).length).setField 16 8
      (((feedSwitches k).map (fun n => (w.swSt n).claim)).sum / 1000)
  else if reg = F.LSW_BANK.SUM.reg then v.setField 0 16 (satTo 16 (((bankSwitches i).map (fun n => w.rd .A F.LSW_MEAS.I n)).sum / 10))
  else if reg = F.UIN_BVAL.VALUE.reg then if k < w.uin.cfg.binds.length then v else 0
  else if reg = F.UIN_BQ.AGE.reg then
    if k < w.uin.cfg.binds.length then v.setField 16 16 (w.ageMs (w.bindSt h k).accAt 16) else 0
  else if reg = F.CAN_STATUS.STATE.reg then v.setField F.CAN_STATUS.AUTONOMOUS.lo 1 (s.autonomous (objC i))
  else if reg = F.ETH_SW.SRV.reg then BitVec.ofNat 32 (b2n (s.own.serves h) + 2 * b2n (s.own.server = some .B))
  else if reg = F.FLX_CART.AGE.reg then v.setField 0 16 (w.cartAge h)
  else if reg = F.GNS_CORR_STAT.AGE.reg then v.setField 0 16 (w.corrAge h)
  else if reg = F.PRJ_PORT.AGE.reg then v.setField 4 12 (w.ageMs (w.portSt h k).lastOk 12)
  else if reg = F.GRD_PQ.AGE.reg then if v.field 16 16 = 0 then v.setField 16 16 (satTo 16 ((w.mt h - (w.grd.get h).pubAt) / ms)) else v
  else if reg = F.TRK_REC.WORD.reg then
    if k = 0 then BitVec.ofNat 32 (w.trkWord h (i / 16) 0) else BitVec.ofNat 32 (leAt (w.trk.get h).latch (4 * k) 4)
  else if reg = F.FAN_STATUS.RPM.reg then v.setField F.FAN_STATUS.AUTONOMOUS.lo 1 (s.autonomous (objFan i))
  else v

/-- What initiator `init` of half `h` reads at an address of a mapped block. -/
def State.readWord (s : State) (h : Half) (init addr : Nat) : Word :=
  let reg := regOf addr
  let blk := reg / 2 ^ 20
  let ofs := reg % 2 ^ 20
  if !mapped addr || addr % 4 ≠ 0 then 0
  else if ofs = 4 then BitVec.ofNat 32 (blk * 2 ^ 16 + 0x100)
  else if blk = 18 && 0x10000 ≤ ofs && ofs < 0x50000 then BitVec.ofNat 32 (leAt (s.ledger.readN (ofs - 0x10000) 4) 0 4)
  else match regAt addr with
    | none => 0
    | some (d, k, x) =>
      let sel := s.w.selOf h blk init
      if (selField blk).isSome && ofs = 0 then BitVec.ofNat 32 sel
      else if d.reg = F.EVT_VPEND.V.reg || d.reg = F.EVT_VMASK.V.reg then
        match clusterOf init with
        | none => 0
        | some c => s.w.reg h ⟨d.reg, 0, 32, false⟩ (2 * c + k)
      else match selIndex blk sel d.sel with
        | none => 0
        | some i => let j := defIndex d i k x; s.shown h d.reg j k (s.w.reg h ⟨d.reg, 0, 32, d.bp⟩ j)

/-- A read: its word, and the state after it — a read of TIM_NOW_LO latches TIM_NOW_HI (R388), one of TRK_REC0 the record's other words
(R349). The table has no command for a read that is answered. -/
def State.read (s : State) (h : Half) (init addr : Nat) : Word × State :=
  let v := s.readWord h init addr
  let reg := regOf addr
  let s := s.onW fun w =>
    if reg = F.TIM_NOW_LO.T.reg then w.updTim h fun t => { t with latch := w.mt h / 2 ^ 32 }
    else if reg = F.TRK_REC.WORD.reg then
      let slot := w.selOf h 14 init
      let rec_ := w.getMem h 5 (w.rd h F.TRK_BUF.VALUE + 64 * slot) 64
      w.updTrk h fun t => { t with latch := rec_ }
    else w
  (v, s.setPort h init { s.port h init with lastRead := v, busError := false })

end Sys2Proof.Machine
end

