-- ==== Sys2Proof/Machine/Tick.lean ====
section
/-!
DEFINITION. The tick of 1 µs: what a step does while no command waits (log entry 2).
-/
namespace Sys2Proof.Machine

/-- A router that lost a raise reports it once it can accept one again (R482). -/
def World.reportLost (w : World) (h : Half) : World :=
  w.when (w.run.get h).running fun w => w.updEvt h fun r => r.report (w.mt h) h.code

/-- 1 µs passes: the life counters count (R471), the routers report. -/
def State.tick (s : State) : State :=
  s.onW fun w => (((({ w with now := w.now + 1000 } : World).lifeTick 1000).reportLost .A).reportLost .B)

end Sys2Proof.Machine
end

