-- ==== Sys2Proof/Machine/Dispatch.lean ====
section
/-!
DEFINITION. One arm per command, in the order of the opcode table: each a direct call of its meaning.
-/
namespace Sys2Proof.Machine

/-- The effect of a command on everything but the queue. -/
def exec (i : Instr) (s : State) : Host.Outcome State Fault Refusal :=
  match i with
  | .registerWrite h init addr v => Sys2Proof.Machine.execRegisterWrite h init addr v s
  | .writeTakesEffect h init => Sys2Proof.Machine.execWriteTakesEffect h init s
  | .readTimeout h init addr => Sys2Proof.Machine.execReadTimeout h init addr s
  | .busErrorAccess h init addr size => Sys2Proof.Machine.execBusErrorAccess h init addr size s
  | .selectWrite h init blk v => Sys2Proof.Machine.execSelectWrite h init blk v s
  | .claim h k => Sys2Proof.Machine.execClaim h k s
  | .claimComplete k => Sys2Proof.Machine.execClaimComplete k s
  | .release h k => Sys2Proof.Machine.execRelease h k s
  | .handover h k => Sys2Proof.Machine.execHandover h k s
  | .handoverComplete k => Sys2Proof.Machine.execHandoverComplete k s
  | .claimAll h => Sys2Proof.Machine.execClaimAll h s
  | .handoverAll h => Sys2Proof.Machine.execHandoverAll h s
  | .serverRequest h => Sys2Proof.Machine.execServerRequest h s
  | .orphanTWrite h init v => Sys2Proof.Machine.execOrphanTWrite h init v s
  | .orphanTimerExpiry k => Sys2Proof.Machine.execOrphanTimerExpiry k s
  | .ownerAliveLowTimeout h => Sys2Proof.Machine.execOwnerAliveLowTimeout h s
  | .aliveLineFall h c => Sys2Proof.Machine.execAliveLineFall h c s
  | .aliveLineRise h c => Sys2Proof.Machine.execAliveLineRise h c s
  | .hardwareClaimAll h => Sys2Proof.Machine.execHardwareClaimAll h s
  | .takeoverComplete h => Sys2Proof.Machine.execTakeoverComplete h s
  | .heartbeatPermitLapse h => Sys2Proof.Machine.execHeartbeatPermitLapse h s
  | .stewardPermitContribution h => Sys2Proof.Machine.execStewardPermitContribution h s
  | .permitJoinTimeout h => Sys2Proof.Machine.execPermitJoinTimeout h s
  | .selfFence h => Sys2Proof.Machine.execSelfFence h s
  | .arbiterRoundStart a => Sys2Proof.Machine.execArbiterRoundStart a s
  | .crossingLaneChange h lane dir up => Sys2Proof.Machine.execCrossingLaneChange h lane dir up s
  | .crossingFrameReceived h ty seq len crcOk => Sys2Proof.Machine.execCrossingFrameReceived h ty seq len crcOk s
  | .retransmissionRequest h ty seq => Sys2Proof.Machine.execRetransmissionRequest h ty seq s
  | .hbFrameSend h => Sys2Proof.Machine.execHbFrameSend h s
  | .hbFrameReceived h => Sys2Proof.Machine.execHbFrameReceived h s
  | .hbWindowExpiry h => Sys2Proof.Machine.execHbWindowExpiry h s
  | .heartbeatLossSample h => Sys2Proof.Machine.execHeartbeatLossSample h s
  | .crossingUp h => Sys2Proof.Machine.execCrossingUp h s
  | .xngEnable h init v => Sys2Proof.Machine.execXngEnable h init v s
  | .xngLoopback h init v => Sys2Proof.Machine.execXngLoopback h init v s
  | .xngClrCnt h init => Sys2Proof.Machine.execXngClrCnt h init s
  | .tsyExchange h t1 t2 t3 t4 => Sys2Proof.Machine.execTsyExchange h t1 t2 t3 t4 s
  | .tsyncTimeout h => Sys2Proof.Machine.execTsyncTimeout h s
  | .mirrorRecordReceived h k n full => Sys2Proof.Machine.execMirrorRecordReceived h k n full s
  | .mirrorLagExceeded h k => Sys2Proof.Machine.execMirrorLagExceeded h k s
  | .backplanePowerOn t1 t0 tiles => Sys2Proof.Machine.execBackplanePowerOn t1 t0 tiles s
  | .logicInValid v => Sys2Proof.Machine.execLogicInValid v s
  | .halfResetRelease h => Sys2Proof.Machine.execHalfResetRelease h s
  | .bloom h k => Sys2Proof.Machine.execBloom h k s
  | .roastSiblingFetch h pending => Sys2Proof.Machine.execRoastSiblingFetch h pending s
  | .roastActivateRequest h k => Sys2Proof.Machine.execRoastActivateRequest h k s
  | .pourEntry h => Sys2Proof.Machine.execPourEntry h s
  | .pourExit h => Sys2Proof.Machine.execPourExit h s
  | .keyInOn => Sys2Proof.Machine.execKeyInOn s
  | .keyInOff => Sys2Proof.Machine.execKeyInOff s
  | .shutdown h k c => Sys2Proof.Machine.execShutdown h k c s
  | .pwrHoldStartupExpiry => Sys2Proof.Machine.execPwrHoldStartupExpiry s
  | .pwrHoldForcedRelease => Sys2Proof.Machine.execPwrHoldForcedRelease s
  | .secretClearDone h => Sys2Proof.Machine.execSecretClearDone h s
  | .secretClearTimeout h => Sys2Proof.Machine.execSecretClearTimeout h s
  | .islandTestEnd h n m => Sys2Proof.Machine.execIslandTestEnd h n m s
  | .islandConditionFail h n reason m => Sys2Proof.Machine.execIslandConditionFail h n reason m s
  | .cuppingBudgetExpiry h ms => Sys2Proof.Machine.execCuppingBudgetExpiry h ms s
  | .cuppingRecordsWritten h energy => Sys2Proof.Machine.execCuppingRecordsWritten h energy s
  | .wakeRequest h can ms => Sys2Proof.Machine.execWakeRequest h can ms s
  | .cupAck h init => Sys2Proof.Machine.execCupAck h init s
  | .setStateRequest h init dst => Sys2Proof.Machine.execSetStateRequest h init dst s
  | .autoTransition h x => Sys2Proof.Machine.execAutoTransition h x s
  | .executorCycle h rate spread late => Sys2Proof.Machine.execExecutorCycle h rate spread late s
  | .cycleOverrun h n => Sys2Proof.Machine.execCycleOverrun h n s
  | .interlockRelease h n x => Sys2Proof.Machine.execInterlockRelease h n x s
  | .conflictHoldExpiry h n => Sys2Proof.Machine.execConflictHoldExpiry h n s
  | .seqStepTimeout h n => Sys2Proof.Machine.execSeqStepTimeout h n s
  | .pairReleaseTimeout h n => Sys2Proof.Machine.execPairReleaseTimeout h n s
  | .mfManual h init n on => Sys2Proof.Machine.execMfManual h init n on s
  | .mfSeqStart h init n => Sys2Proof.Machine.execMfSeqStart h init n s
  | .mfSeqStep h init n => Sys2Proof.Machine.execMfSeqStep h init n s
  | .mfSeqAbort h init n => Sys2Proof.Machine.execMfSeqAbort h init n s
  | .setClrCnt h init => Sys2Proof.Machine.execSetClrCnt h init s
  | .steerEngage h init => Sys2Proof.Machine.execSteerEngage h init s
  | .steerDisengage h init => Sys2Proof.Machine.execSteerDisengage h init s
  | .steerReleaseTimeout h => Sys2Proof.Machine.execSteerReleaseTimeout h s
  | .steerAck h init => Sys2Proof.Machine.execSteerAck h init s
  | .steerPassSelect h init v => Sys2Proof.Machine.execSteerPassSelect h init v s
  | .alertMinExpiry h => Sys2Proof.Machine.execAlertMinExpiry h s
  | .lineLoad h init k => Sys2Proof.Machine.execLineLoad h init k s
  | .lineLoadComplete h => Sys2Proof.Machine.execLineLoadComplete h s
  | .lineClear h init k => Sys2Proof.Machine.execLineClear h init k s
  | .optSolve h sol => Sys2Proof.Machine.execOptSolve h sol s
  | .ditherStep h x => Sys2Proof.Machine.execDitherStep h x s
  | .lookaheadUpdate h => Sys2Proof.Machine.execLookaheadUpdate h s
  | .optModeWrite h init v => Sys2Proof.Machine.execOptModeWrite h init v s
  | .optProfileWrite h init v => Sys2Proof.Machine.execOptProfileWrite h init v s
  | .optResetModel h init => Sys2Proof.Machine.execOptResetModel h init s
  | .optTargetWrite h init which v => Sys2Proof.Machine.execOptTargetWrite h init which v s
  | .vlvCommand h init on => Sys2Proof.Machine.execVlvCommand h init on s
  | .vlvSetpointWrite h init v => Sys2Proof.Machine.execVlvSetpointWrite h init v s
  | .vlvClrFault h init => Sys2Proof.Machine.execVlvClrFault h init s
  | .vlvKnock h init => Sys2Proof.Machine.execVlvKnock h init s
  | .vlvClrCnt h init => Sys2Proof.Machine.execVlvClrCnt h init s
  | .engineStart ch => Sys2Proof.Machine.execEngineStart ch s
  | .halt ch => Sys2Proof.Machine.execHalt ch s
  | .phase ch => Sys2Proof.Machine.execPhase ch s
  | .src ch => Sys2Proof.Machine.execSrc ch s
  | .seti ch => Sys2Proof.Machine.execSeti ch s
  | .ramp ch => Sys2Proof.Machine.execRamp ch s
  | .wait ch => Sys2Proof.Machine.execWait ch s
  | .waitEnd ch => Sys2Proof.Machine.execWaitEnd ch s
  | .waiti ch => Sys2Proof.Machine.execWaiti ch s
  | .waitiEnd ch x => Sys2Proof.Machine.execWaitiEnd ch x s
  | .waitk ch => Sys2Proof.Machine.execWaitk ch s
  | .pullKinkConfirm ch k => Sys2Proof.Machine.execPullKinkConfirm ch k s
  | .closeKinkDetect ch k => Sys2Proof.Machine.execCloseKinkDetect ch k s
  | .kinkWindowClose ch => Sys2Proof.Machine.execKinkWindowClose ch s
  | .dith ch => Sys2Proof.Machine.execDith ch s
  | .pwmv ch => Sys2Proof.Machine.execPwmv ch s
  | .jmp ch => Sys2Proof.Machine.execJmp ch s
  | .jc ch => Sys2Proof.Machine.execJc ch s
  | .loop ch => Sys2Proof.Machine.execLoop ch s
  | .evt ch => Sys2Proof.Machine.execEvt ch s
  | .off ch => Sys2Proof.Machine.execOff ch s
  | .ldp ch x v => Sys2Proof.Machine.execLdp ch x v s
  | .meas ch x v => Sys2Proof.Machine.execMeas ch x v s
  | .recipeIllegal ch parity => Sys2Proof.Machine.execRecipeIllegal ch parity s
  | .recipeLockRelease t => Sys2Proof.Machine.execRecipeLockRelease t s
  | .recipeBankActivate t => Sys2Proof.Machine.execRecipeBankActivate t s
  | .coilEstimate ch v x => Sys2Proof.Machine.execCoilEstimate ch v x s
  | .dutyEvaluation ch x => Sys2Proof.Machine.execDutyEvaluation ch x s
  | .boostRailLow t v => Sys2Proof.Machine.execBoostRailLow t v s
  | .boostRailRecover t v => Sys2Proof.Machine.execBoostRailRecover t v s
  | .bankAdmission bank => Sys2Proof.Machine.execBankAdmission bank s
  | .bankWaitTimeout ch => Sys2Proof.Machine.execBankWaitTimeout ch s
  | .twinPartnerLoss ch => Sys2Proof.Machine.execTwinPartnerLoss ch s
  | .twinPartnerReturn ch => Sys2Proof.Machine.execTwinPartnerReturn ch s
  | .vlvShort ch x => Sys2Proof.Machine.execVlvShort ch x s
  | .vlvOpenLoad ch x => Sys2Proof.Machine.execVlvOpenLoad ch x s
  | .vlvOvertemp t temp => Sys2Proof.Machine.execVlvOvertemp t temp s
  | .vlvHsShort bank x => Sys2Proof.Machine.execVlvHsShort bank x s
  | .tileAbsent t => Sys2Proof.Machine.execTileAbsent t s
  | .tileInsert t => Sys2Proof.Machine.execTileInsert t s
  | .tileReady t rail serial cal => Sys2Proof.Machine.execTileReady t rail serial cal s
  | .vlvProbe ch continuity => Sys2Proof.Machine.execVlvProbe ch continuity s
  | .lswCommand h init on => Sys2Proof.Machine.execLswCommand h init on s
  | .lswProfile h init v => Sys2Proof.Machine.execLswProfile h init v s
  | .lswClrFault h init => Sys2Proof.Machine.execLswClrFault h init s
  | .lswKnock h init => Sys2Proof.Machine.execLswKnock h init s
  | .lswClrCnt h init => Sys2Proof.Machine.execLswClrCnt h init s
  | .inrushEnd n => Sys2Proof.Machine.execInrushEnd n s
  | .lswShortTrip n x => Sys2Proof.Machine.execLswShortTrip n x s
  | .lswOverloadTrip n x => Sys2Proof.Machine.execLswOverloadTrip n x s
  | .lswThermalTrip n tj => Sys2Proof.Machine.execLswThermalTrip n tj s
  | .thermalLatchClear n tj => Sys2Proof.Machine.execThermalLatchClear n tj s
  | .retryWaitExpiry n tj => Sys2Proof.Machine.execRetryWaitExpiry n tj s
  | .retryCounterReload n => Sys2Proof.Machine.execRetryCounterReload n s
  | .feedBudgetGrant f => Sys2Proof.Machine.execFeedBudgetGrant f s
  | .budgetWaitLong n => Sys2Proof.Machine.execBudgetWaitLong n s
  | .feedOverload f x => Sys2Proof.Machine.execFeedOverload f x s
  | .shedStep f x => Sys2Proof.Machine.execShedStep f x s
  | .feedLost f v => Sys2Proof.Machine.execFeedLost f v s
  | .feedReturn f v => Sys2Proof.Machine.execFeedReturn f v s
  | .openOnDetect n x => Sys2Proof.Machine.execOpenOnDetect n x s
  | .lswProbe n vProbe vIdle => Sys2Proof.Machine.execLswProbe n vProbe vIdle s
  | .lswBankPresence b present => Sys2Proof.Machine.execLswBankPresence b present s
  | .inputSample codes vs => Sys2Proof.Machine.execInputSample codes vs s
  | .inputEdge n level both => Sys2Proof.Machine.execInputEdge n level both s
  | .qualityConditionTimer h b q reason on => Sys2Proof.Machine.execQualityConditionTimer h b q reason on s
  | .stuckTimeout h b => Sys2Proof.Machine.execStuckTimeout h b s
  | .twinDivergenceTimeout h k => Sys2Proof.Machine.execTwinDivergenceTimeout h k s
  | .twinAgreementTimeout h k => Sys2Proof.Machine.execTwinAgreementTimeout h k s
  | .uinKnock h init => Sys2Proof.Machine.execUinKnock h init s
  | .uinPreset h init => Sys2Proof.Machine.execUinPreset h init s
  | .uinClrCnt h init => Sys2Proof.Machine.execUinClrCnt h init s
  | .supplyLimitTrip n x => Sys2Proof.Machine.execSupplyLimitTrip n x s
  | .supplyRetry n limited => Sys2Proof.Machine.execSupplyRetry n limited s
  | .supplyEnable h init en => Sys2Proof.Machine.execSupplyEnable h init en s
  | .externalBindingWrite h b v => Sys2Proof.Machine.execExternalBindingWrite h b v s
  | .lossHit k peak r z stamp => Sys2Proof.Machine.execLossHit k peak r z stamp s
  | .lossWindow => Sys2Proof.Machine.execLossWindow s
  | .lossBiasCheck k pass => Sys2Proof.Machine.execLossBiasCheck k pass s
  | .lossSilentTimeout k => Sys2Proof.Machine.execLossSilentTimeout k s
  | .losClsWrite h init v => Sys2Proof.Machine.execLosClsWrite h init v s
  | .losClrCnt h init => Sys2Proof.Machine.execLosClrCnt h init s
  | .yieldCycle h => Sys2Proof.Machine.execYieldCycle h s
  | .yieldCropChange h v => Sys2Proof.Machine.execYieldCropChange h v s
  | .tankZero h => Sys2Proof.Machine.execTankZero h s
  | .totClr h => Sys2Proof.Machine.execTotClr h s
  | .yldCalStart h => Sys2Proof.Machine.execYldCalStart h s
  | .yldCalStop h => Sys2Proof.Machine.execYldCalStop h s
  | .yldCalFlushComplete h => Sys2Proof.Machine.execYldCalFlushComplete h s
  | .yldCalWeight h kg => Sys2Proof.Machine.execYldCalWeight h kg s
  | .yldCalAbort h => Sys2Proof.Machine.execYldCalAbort h s
  | .yldCalCommit h init => Sys2Proof.Machine.execYldCalCommit h init s
  | .yldCalClear h => Sys2Proof.Machine.execYldCalClear h s
  | .sensorSegment h p seq ofs flags data => Sys2Proof.Machine.execSensorSegment h p seq ofs flags data s
  | .sampleReassemblyTimeout h p seq => Sys2Proof.Machine.execSampleReassemblyTimeout h p seq s
  | .sensorSample h p bs => Sys2Proof.Machine.execSensorSample h p bs s
  | .portStateTimer h p blind => Sys2Proof.Machine.execPortStateTimer h p blind s
  | .grindInstant h => Sys2Proof.Machine.execGrindInstant h s
  | .gatherClose h feats rate meas fill load => Sys2Proof.Machine.execGatherClose h feats rate meas fill load s
  | .featureChunkReceived h seq => Sys2Proof.Machine.execFeatureChunkReceived h seq s
  | .grindPublish h vals profs edge => Sys2Proof.Machine.execGrindPublish h vals profs edge s
  | .grindDeadline h => Sys2Proof.Machine.execGrindDeadline h s
  | .gradeRise h => Sys2Proof.Machine.execGradeRise h s
  | .grindRateChange h => Sys2Proof.Machine.execGrindRateChange h s
  | .productStale h => Sys2Proof.Machine.execProductStale h s
  | .modelLoad h m => Sys2Proof.Machine.execModelLoad h m s
  | .modelLoadComplete h m res => Sys2Proof.Machine.execModelLoadComplete h m res s
  | .grainAnalysis h p damage trash => Sys2Proof.Machine.execGrainAnalysis h p damage trash s
  | .prjKnock h init mask => Sys2Proof.Machine.execPrjKnock h init mask s
  | .feaKnock h init mask jobs => Sys2Proof.Machine.execFeaKnock h init mask jobs s
  | .prjClrCnt h init => Sys2Proof.Machine.execPrjClrCnt h init s
  | .feaClrCnt h init => Sys2Proof.Machine.execFeaClrCnt h init s
  | .grdClrCnt h init => Sys2Proof.Machine.execGrdClrCnt h init s
  | .trackCycle h veh dets => Sys2Proof.Machine.execTrackCycle h veh dets s
  | .lateDetection h stamp dets => Sys2Proof.Machine.execLateDetection h stamp dets s
  | .stopLevelFall h k => Sys2Proof.Machine.execStopLevelFall h k s
  | .stopHoldExpiry h => Sys2Proof.Machine.execStopHoldExpiry h s
  | .trackIgnore h init v => Sys2Proof.Machine.execTrackIgnore h init v s
  | .trkClrCnt h init => Sys2Proof.Machine.execTrkClrCnt h init s
  | .antennaState a x v => Sys2Proof.Machine.execAntennaState a x v s
  | .antennaBiasRetry a => Sys2Proof.Machine.execAntennaBiasRetry a s
  | .notchDetect h k hz db => Sys2Proof.Machine.execNotchDetect h k hz db s
  | .notchRelease h k n => Sys2Proof.Machine.execNotchRelease h k n s
  | .jamLevel h k db agc => Sys2Proof.Machine.execJamLevel h k db agc s
  | .acqGo h init v => Sys2Proof.Machine.execAcqGo h init v s
  | .acqEntryComplete h e cn0 ratio code dop tEnd => Sys2Proof.Machine.execAcqEntryComplete h e cn0 ratio code dop tEnd s
  | .acqKnock h init => Sys2Proof.Machine.execAcqKnock h init s
  | .chStart h init => Sys2Proof.Machine.execChStart h init s
  | .chStop h init => Sys2Proof.Machine.execChStop h init s
  | .chKnock h init => Sys2Proof.Machine.execChKnock h init s
  | .chCommit h init v => Sys2Proof.Machine.execChCommit h init v s
  | .chIntegrationDump h c iq noise => Sys2Proof.Machine.execChIntegrationDump h c iq noise s
  | .measurementLatch h => Sys2Proof.Machine.execMeasurementLatch h s
  | .measRateWrite h init v => Sys2Proof.Machine.execMeasRateWrite h init v s
  | .measRateApply => Sys2Proof.Machine.execMeasRateApply s
  | .measurementRecord h entries bias drift clk => Sys2Proof.Machine.execMeasurementRecord h entries bias drift clk s
  | .siblingRecordReceived h ownOk sibOk => Sys2Proof.Machine.execSiblingRecordReceived h ownOk sibOk s
  | .positionSolution h x => Sys2Proof.Machine.execPositionSolution h x s
  | .headingSolution h ratio common len az sig => Sys2Proof.Machine.execHeadingSolution h ratio common len az sig s
  | .posePublish h p slew => Sys2Proof.Machine.execPosePublish h p slew s
  | .exclusionReadmit h key reason => Sys2Proof.Machine.execExclusionReadmit h key reason s
  | .bbSuspectClear h => Sys2Proof.Machine.execBbSuspectClear h s
  | .imuFault h bad => Sys2Proof.Machine.execImuFault h bad s
  | .correctionFrame h init v => Sys2Proof.Machine.execCorrectionFrame h init v s
  | .correctionSourceTimeout h => Sys2Proof.Machine.execCorrectionSourceTimeout h s
  | .timeAid h init v => Sys2Proof.Machine.execTimeAid h init v s
  | .gnssCold h init => Sys2Proof.Machine.execGnssCold h init s
  | .gnsClrCnt h init => Sys2Proof.Machine.execGnsClrCnt h init s
  | .referenceValid h r ofs leap => Sys2Proof.Machine.execReferenceValid h r ofs leap s
  | .referenceLost h r => Sys2Proof.Machine.execReferenceLost h r s
  | .timeStep => Sys2Proof.Machine.execTimeStep s
  | .slewEnd h => Sys2Proof.Machine.execSlewEnd h s
  | .timeSet h init => Sys2Proof.Machine.execTimeSet h init s
  | .timeRefSelect h init v => Sys2Proof.Machine.execTimeRefSelect h init v s
  | .timeInEdge h => Sys2Proof.Machine.execTimeInEdge h s
  | .timeInLost h => Sys2Proof.Machine.execTimeInLost h s
  | .timePulse => Sys2Proof.Machine.execTimePulse s
  | .timeQualityMessage h => Sys2Proof.Machine.execTimeQualityMessage h s
  | .canModeWrite h init v => Sys2Proof.Machine.execCanModeWrite h init v s
  | .canKnock h init => Sys2Proof.Machine.execCanKnock h init s
  | .canClrLockout h init => Sys2Proof.Machine.execCanClrLockout h init s
  | .canClrCnt h init => Sys2Proof.Machine.execCanClrCnt h init s
  | .canTxRequest h init mask => Sys2Proof.Machine.execCanTxRequest h init mask s
  | .canTxAbort h init mask => Sys2Proof.Machine.execCanTxAbort h init mask s
  | .canArbitration n => Sys2Proof.Machine.execCanArbitration n s
  | .canTxComplete n res ty fld pos tdcv => Sys2Proof.Machine.execCanTxComplete n res ty fld pos tdcv s
  | .canTxError n ty fld pos => Sys2Proof.Machine.execCanTxError n ty fld pos s
  | .canFrameReceived n stamp self_ f => Sys2Proof.Machine.execCanFrameReceived n stamp self_ f s
  | .canRxAck h init v => Sys2Proof.Machine.execCanRxAck h init v s
  | .canScheduleDue n m => Sys2Proof.Machine.execCanScheduleDue n m s
  | .canBusOff n => Sys2Proof.Machine.execCanBusOff n s
  | .canBusOffRecovery n => Sys2Proof.Machine.execCanBusOffRecovery n s
  | .canTrxFault n on txd => Sys2Proof.Machine.execCanTrxFault n on txd s
  | .canWake n => Sys2Proof.Machine.execCanWake n s
  | .j1939AddressClaim n sa lost => Sys2Proof.Machine.execJ1939AddressClaim n sa lost s
  | .ethLink k speed master => Sys2Proof.Machine.execEthLink k speed master s
  | .gmForeignAnnounce h k => Sys2Proof.Machine.execGmForeignAnnounce h k s
  | .ethClrCnt h init => Sys2Proof.Machine.execEthClrCnt h init s
  | .flxOpen h k port => Sys2Proof.Machine.execFlxOpen h k port s
  | .flxClose h k => Sys2Proof.Machine.execFlxClose h k s
  | .flxAccept h c ip => Sys2Proof.Machine.execFlxAccept h c ip s
  | .flxHandshakeComplete h client k anchor inPeriod serial => Sys2Proof.Machine.execFlxHandshakeComplete h client k anchor inPeriod serial s
  | .flxMessageReceived h k ty seq ack p => Sys2Proof.Machine.execFlxMessageReceived h k ty seq ack p s
  | .hello h client k role ver dev => Sys2Proof.Machine.execHello h client k role ver dev s
  | .rtcm h seq ack frame => Sys2Proof.Machine.execRtcm h seq ack frame s
  | .cartState h k seq ack p => Sys2Proof.Machine.execCartState h k seq ack p s
  | .flxHeartbeatSend h k => Sys2Proof.Machine.execFlxHeartbeatSend h k s
  | .flxSessionTimeout h k => Sys2Proof.Machine.execFlxSessionTimeout h k s
  | .flxKeyUpdate h k => Sys2Proof.Machine.execFlxKeyUpdate h k s
  | .status h => Sys2Proof.Machine.execStatus h s
  | .cartSync h => Sys2Proof.Machine.execCartSync h s
  | .cartStale h => Sys2Proof.Machine.execCartStale h s
  | .cartSelect h init k => Sys2Proof.Machine.execCartSelect h init k s
  | .cartRelease h init => Sys2Proof.Machine.execCartRelease h init s
  | .prepareHalf h init target => Sys2Proof.Machine.execPrepareHalf h init target s
  | .prepareTile h init t => Sys2Proof.Machine.execPrepareTile h init t s
  | .svcCancel h init => Sys2Proof.Machine.execSvcCancel h init s
  | .fanReset h init => Sys2Proof.Machine.execFanReset h init s
  | .holdupReset h init => Sys2Proof.Machine.execHoldupReset h init s
  | .prepareTimeout => Sys2Proof.Machine.execPrepareTimeout s
  | .cartridgePresenceOpen h => Sys2Proof.Machine.execCartridgePresenceOpen h s
  | .cartridgeInsert h c => Sys2Proof.Machine.execCartridgeInsert h c s
  | .plannedMove h n => Sys2Proof.Machine.execPlannedMove h n s
  | .handbackMove => Sys2Proof.Machine.execHandbackMove s
  | .stewardFrame h busy c0 c1 => Sys2Proof.Machine.execStewardFrame h busy c0 c1 s
  | .c3Shed h => Sys2Proof.Machine.execC3Shed h s
  | .c2Pause h => Sys2Proof.Machine.execC2Pause h s
  | .stwLoadClear h init => Sys2Proof.Machine.execStwLoadClear h init s
  | .watchdogService h init v => Sys2Proof.Machine.execWatchdogService h init v s
  | .watchdogExpiry h => Sys2Proof.Machine.execWatchdogExpiry h s
  | .eventRaise h num arg => Sys2Proof.Machine.execEventRaise h num arg s
  | .eventRecordDelivery h => Sys2Proof.Machine.execEventRecordDelivery h s
  | .evtClrCnt h init => Sys2Proof.Machine.execEvtClrCnt h init s
  | .knockCmd h init cls idx tc jobs => Sys2Proof.Machine.execKnockCmd h init cls idx tc jobs s
  | .knockComplete h k => Sys2Proof.Machine.execKnockComplete h k s
  | .knockEscalation h k => Sys2Proof.Machine.execKnockEscalation h k s
  | .updOpen h r net => Sys2Proof.Machine.execUpdOpen h r net s
  | .updBlock h r net => Sys2Proof.Machine.execUpdBlock h r net s
  | .updClose h r net => Sys2Proof.Machine.execUpdClose h r net s
  | .updCheckComplete h r => Sys2Proof.Machine.execUpdCheckComplete h r s
  | .updRestart h => Sys2Proof.Machine.execUpdRestart h s
  | .updAbort h r net => Sys2Proof.Machine.execUpdAbort h r net s
  | .updSessionTimeout h r => Sys2Proof.Machine.execUpdSessionTimeout h r s
  | .updClrCnt h init => Sys2Proof.Machine.execUpdClrCnt h init s
  | .siblingRestore h r => Sys2Proof.Machine.execSiblingRestore h r s
  | .debugUnlock h => Sys2Proof.Machine.execDebugUnlock h s
  | .debugExpiry h => Sys2Proof.Machine.execDebugExpiry h s
  | .calTokenRequest h init tok => Sys2Proof.Machine.execCalTokenRequest h init tok s
  | .calKeyOffer h init key => Sys2Proof.Machine.execCalKeyOffer h init key s
  | .calLockClose h init => Sys2Proof.Machine.execCalLockClose h init s
  | .calLockTimeout => Sys2Proof.Machine.execCalLockTimeout s
  | .ledgerWrite h init ty k pl => Sys2Proof.Machine.execLedgerWrite h init ty k pl s
  | .ledgerRestore h init mask f => Sys2Proof.Machine.execLedgerRestore h init mask f s
  | .logicInStateChange v x clamped => Sys2Proof.Machine.execLogicInStateChange v x clamped s
  | .powerFail wrote ma mb => Sys2Proof.Machine.execPowerFail wrote ma mb s
  | .powerFailRecovery v => Sys2Proof.Machine.execPowerFailRecovery v s
  | .holdupReady v => Sys2Proof.Machine.execHoldupReady v s
  | .feedMeasurement f v x => Sys2Proof.Machine.execFeedMeasurement f v x s
  | .fuseOpen f stud behind => Sys2Proof.Machine.execFuseOpen f stud behind s
  | .feedConnect h init f on => Sys2Proof.Machine.execFeedConnect h init f on s
  | .pwrClrCnt h init => Sys2Proof.Machine.execPwrClrCnt h init s
  | .derateChange ta => Sys2Proof.Machine.execDerateChange ta s
  | .coolingOverride ts => Sys2Proof.Machine.execCoolingOverride ts s
  | .sysShdnAssert ts => Sys2Proof.Machine.execSysShdnAssert ts s
  | .sysShdnHalfReset => Sys2Proof.Machine.execSysShdnHalfReset s
  | .sysShdnRelease ts => Sys2Proof.Machine.execSysShdnRelease ts s
  | .sysShdnExternal low => Sys2Proof.Machine.execSysShdnExternal low s
  | .coolantTemperatureWarning tin tout ta => Sys2Proof.Machine.execCoolantTemperatureWarning tin tout ta s
  | .fanFrame c => Sys2Proof.Machine.execFanFrame c s
  | .fanSpeedMeasure c e1 e2 => Sys2Proof.Machine.execFanSpeedMeasure c e1 e2 s
  | .fanSuspect c v => Sys2Proof.Machine.execFanSuspect c v s
  | .fanKickEnd c rpm => Sys2Proof.Machine.execFanKickEnd c rpm s
  | .fanRekick c => Sys2Proof.Machine.execFanRekick c s
  | .fanCommand h init v => Sys2Proof.Machine.execFanCommand h init v s
  | .segmentFrame vlcd v1 v2 => Sys2Proof.Machine.execSegmentFrame vlcd v1 v2 s
  | .segmentLatch h init => Sys2Proof.Machine.execSegmentLatch h init s
  | .symbolEvaluation h => Sys2Proof.Machine.execSymbolEvaluation h s
  | .panelLoad h init => Sys2Proof.Machine.execPanelLoad h init s
  | .panelCopyComplete => Sys2Proof.Machine.execPanelCopyComplete s
  | .panelEnable h init en => Sys2Proof.Machine.execPanelEnable h init en s
  | .panelSequenceStep => Sys2Proof.Machine.execPanelSequenceStep s
  | .safeOffAssert b => Sys2Proof.Machine.execSafeOffAssert b s
  | .safeOffRelease b => Sys2Proof.Machine.execSafeOffRelease b s
  | .safeOffDiscrepancy => Sys2Proof.Machine.execSafeOffDiscrepancy s
  | .realtimePermitRefresh h pair => Sys2Proof.Machine.execRealtimePermitRefresh h pair s
  | .canRxError n ty dom => Sys2Proof.Machine.execCanRxError n ty dom s
  | .dm1Broadcast n lamps codes => Sys2Proof.Machine.execDm1Broadcast n lamps codes s
  | .mirrorRefresh h k => Sys2Proof.Machine.execMirrorRefresh h k s
  | .twinScaleMergeEnd ch => Sys2Proof.Machine.execTwinScaleMergeEnd ch s
  | .greenRampEnd k => Sys2Proof.Machine.execGreenRampEnd k s
  | .supplyClassSelect mean => Sys2Proof.Machine.execSupplyClassSelect mean s
  | .fanKickPauseEnd c => Sys2Proof.Machine.execFanKickPauseEnd c s

end Sys2Proof.Machine
end

