-- ==== Sys2Proof/Safety.lean ====
section
/-!
DEFINITION. What claims are stated in: a command that completes, what it leaves as it was, and the states that every run keeps to.
-/
namespace Sys2Proof.Machine

/-- Command `c` executed on `s` answers a next state, and `post` holds of it. -/
def Completes (c : Instr) (s : State) (post : State → Prop) : Prop := ∃ t, exec c s = .next t ∧ post t

/-- The tokens, the Ledger, the boundary FIFOs and the queue are as they were. -/
def State.Quiet (s t : State) : Prop := t.own = s.own ∧ t.ledger = s.ledger ∧ t.bus = s.bus ∧ t.pending = s.pending

/-- OWN_RESULT of half `h` shows object `obj`, result `res` and BUSY `busy` (R49). -/
def State.ResultIs (s : State) (h : Half) (obj res busy : Nat) : Prop :=
  s.w.rd h F.OWN_RESULT.OBJ = obj ∧ s.w.rd h F.OWN_RESULT.RES = res ∧ s.w.rd h F.OWN_RESULT.BUSY = busy

/-- Every token but those of `ks` is as it was. -/
def State.TokensBut (ks : List Nat) (s t : State) : Prop := ∀ k, k ∉ ks → t.own.token k = s.own.token k

/-- The parts of the state: the tokens, the Ledger, the island boundaries, the named units of the world, each register of the map by its
offset (at every index, in both halves), and all registers together. -/
inductive Part where
  | own
  | ledger
  | bus
  | now
  | fresh
  | run
  | evt
  | xng
  | roast
  | bp
  | devId
  | act
  | shut
  | frame
  | svc
  | tim
  | set
  | opt
  | vlv
  | lsw
  | uin
  | yld
  | cal
  | dram
  | pose
  | grd
  | trk
  | gns
  | keeper
  | can
  | flx
  | upd
  | pwr
  | dsp
  | latch
  | reg (offset : Nat)
  | regs
deriving DecidableEq, Repr

/-- `x` is one of the parts of `q`, or a register where `q` names them all. -/
def partIn (q : List Part) (x : Part) : Bool :=
  q.contains x || (q.contains .regs && match x with | .reg _ => true | _ => false)

/-- A register file without the registers of `q`. -/
def restRegs (q : List Part) (r : RegFile) : RegFile := r.filter (fun e => !partIn q (.reg (e.1 % 2 ^ 25)))

/-- The world with the parts of `q` blanked: what two worlds share that differ in those parts alone. -/
def World.rest (q : List Part) (w : World) : World := {
  now := if partIn q .now then World.init.now else w.now
  fresh := if partIn q .fresh then World.init.fresh else w.fresh
  run := if partIn q .run then World.init.run else w.run
  evt := if partIn q .evt then World.init.evt else w.evt
  xng := if partIn q .xng then World.init.xng else w.xng
  roast := if partIn q .roast then World.init.roast else w.roast
  bp := if partIn q .bp then World.init.bp else w.bp
  devId := if partIn q .devId then World.init.devId else w.devId
  act := if partIn q .act then World.init.act else w.act
  shut := if partIn q .shut then World.init.shut else w.shut
  frame := if partIn q .frame then World.init.frame else w.frame
  svc := if partIn q .svc then World.init.svc else w.svc
  tim := if partIn q .tim then World.init.tim else w.tim
  set := if partIn q .set then World.init.set else w.set
  opt := if partIn q .opt then World.init.opt else w.opt
  vlv := if partIn q .vlv then World.init.vlv else w.vlv
  lsw := if partIn q .lsw then World.init.lsw else w.lsw
  uin := if partIn q .uin then World.init.uin else w.uin
  yld := if partIn q .yld then World.init.yld else w.yld
  cal := if partIn q .cal then World.init.cal else w.cal
  dram := if partIn q .dram then World.init.dram else w.dram
  pose := if partIn q .pose then World.init.pose else w.pose
  grd := if partIn q .grd then World.init.grd else w.grd
  trk := if partIn q .trk then World.init.trk else w.trk
  gns := if partIn q .gns then World.init.gns else w.gns
  keeper := if partIn q .keeper then World.init.keeper else w.keeper
  can := if partIn q .can then World.init.can else w.can
  flx := if partIn q .flx then World.init.flx else w.flx
  upd := if partIn q .upd then World.init.upd else w.upd
  pwr := if partIn q .pwr then World.init.pwr else w.pwr
  dsp := if partIn q .dsp then World.init.dsp else w.dsp
  latch := if partIn q .latch then World.init.latch else w.latch
  regs := ⟨restRegs q w.regs.a, restRegs q w.regs.b⟩
  bregs := restRegs q w.bregs }

/-- The state with the parts of `q` blanked; its queue stays. -/
def State.rest (q : List Part) (s : State) : State := {
  bus := if partIn q .bus then State.reset.bus else s.bus
  own := if partIn q .own then State.reset.own else s.own
  ledger := if partIn q .ledger then State.reset.ledger else s.ledger
  w := s.w.rest q
  pending := s.pending }

/-- Every register whose block and offset is not listed holds what it held, at every index and in both halves. -/
def World.RegsBut (ks : List Nat) (v w : World) : Prop :=
  ∀ h f i, f.reg < 2 ^ 25 → f.reg ∉ ks → w.reg h f i = v.reg h f i

/-- Every register of a block that is not listed holds what it held, at every index and in both halves. -/
def World.BlocksBut (bs : List Nat) (v w : World) : Prop :=
  ∀ h f i, f.reg < 2 ^ 25 → f.reg / 2 ^ 20 ∉ bs → w.reg h f i = v.reg h f i

/-- The arbiter as every step keeps it: no token past the last object ever leaves ORPHAN (R23); a token passes only to a half whose alive
line is high (R27, R28); SERVER is held only by a half whose alive line is high (R32); the tokens that a fall names are objects (R33). -/
structure Own.Ok (o : Own) : Prop where
  objects : ∀ k, nObj ≤ k → (o.token k).st = .orphan
  passing : ∀ k d g, (o.token k).st = .claiming d g → o.alive d = true
  server : ∀ h, o.server = some h → o.alive h = true
  fallen : ∀ h k, k ∈ o.fallSet.get h → k < nObj

/-- The states that every step keeps to: a canonical Ledger; boundary FIFOs of at most 8 posted writes, their initiator stalled only
behind a full one (R17); the arbiter as above. -/
structure State.Inv (s : State) : Prop where
  ledger : s.ledger.wf = true
  fifo : ∀ h i, (s.port h i).fifo.length ≤ 8
  stall : ∀ h i, (s.port h i).stalled.isSome = true → (s.port h i).fifo.length = 8
  own : s.own.Ok

/-- Every memory in its canonical form: what the halves hold, their saved and mirrored event logs, the panel's two frame stores. -/
structure State.MemOk (s : State) : Prop where
  half : ∀ h, (s.w.dram.get h).wf = true
  log : ∀ h, (s.w.evt.get h).flash.wf = true ∧ (s.w.evt.get h).sibLog.wf = true
  panel : s.w.dsp.store0.wf = true ∧ s.w.dsp.store1.wf = true

/-- The program counter of a recipe engine has moved to the next word, or past the last one (R192). -/
def World.Stepped (v w : World) (ch : Nat) : Prop :=
  (v.rd .A F.VLV_ENG.PC ch < 2047 → w.rd .A F.VLV_ENG.PC ch = v.rd .A F.VLV_ENG.PC ch + 1) ∧
  (v.rd .A F.VLV_ENG.PC ch = 2047 → w.rd .A F.VLV_ENG.PC ch = 2047 ∧ (w.eng ch).past = true)

/-- The world with the modes written in force and the outcomes learnt: what a solve begins with (R161, R165, R167). -/
def World.learnt (w : World) (h : Half) : World := (w.free.2.optMode h).optLearn h (f32Val w.free.1.toNat)

/-- The world that a solve's problem is made from. -/
def World.atSolve (w : World) (h : Half) : World :=
  (w.learnt h).updOpt h fun m => { m with idle := false, first := false, okRun := if m.idle || (w.learnt h).gradeOf h = 0 then 0 else m.okRun }

end Sys2Proof.Machine
end

