-- ==== Sys2Proof/Machine/Footprint.lean ====
section
/-!
DEFINITION. The footprint of every command: the parts of the state that it may change, its destination registers by name among them (`.reg F.X.Y.reg`
is the whole register X).
Whatever is not listed, no form of the command changes.
-/
namespace Sys2Proof.Machine

/-- The parts of the state that a command may change: units of the state that have no register, and registers (at any index, in either
half). Its queue is no part: no command changes it. -/
def footprint (c : Instr) : List Part :=
  match c with
  | .registerWrite _ _ _ _ => [.bus]
  | .writeTakesEffect _ _ => [.bus, .evt, .latch, .regs]
  | .readTimeout _ _ _ => [.bus]
  | .busErrorAccess _ _ _ _ => [.bus]
  | .selectWrite _ _ _ _ => [.evt, .reg F.EVT_STATUS.LOG_OVF.reg, .reg F.VLV_SEL.CH.reg, .reg F.LSW_SEL.CH.reg, .reg F.UIN_SEL.CH.reg,
      .reg F.LOS_SEL.CH.reg, .reg F.CAN_SEL.CH.reg, .reg F.GNS_SEL.CH.reg, .reg F.TRK_SEL.SLOT.reg, .reg F.FAN_SEL.CH.reg]
  | .claim _ _ => [.own, .evt, .reg F.EVT_STATUS.LOG_OVF.reg, .reg F.OWN_RESULT.BUSY.reg]
  | .claimComplete _ => [.own, .evt, .reg F.EVT_STATUS.LOG_OVF.reg, .reg F.OWN_RESULT.BUSY.reg]
  | .release _ _ => [.own, .evt, .dsp, .reg F.EVT_STATUS.LOG_OVF.reg, .reg F.OWN_RESULT.BUSY.reg, .reg F.DSP_STATUS.LVL_FAULT.reg]
  | .handover _ _ => [.own, .evt, .dsp, .reg F.EVT_STATUS.LOG_OVF.reg, .reg F.OWN_RESULT.BUSY.reg, .reg F.DSP_STATUS.LVL_FAULT.reg]
  | .handoverComplete _ => [.own, .evt, .reg F.EVT_STATUS.LOG_OVF.reg, .reg F.OWN_RESULT.BUSY.reg]
  | .claimAll _ => [.own, .reg F.OWN_RESULT.BUSY.reg]
  | .handoverAll _ => [.own, .evt, .dsp, .reg F.EVT_STATUS.LOG_OVF.reg, .reg F.OWN_RESULT.BUSY.reg, .reg F.DSP_STATUS.LVL_FAULT.reg]
  | .serverRequest _ => [.own, .ledger, .evt, .flx, .reg F.EVT_STATUS.LOG_OVF.reg, .reg F.FLX_SESS.ROLE.reg, .reg F.GNS_STATUS.BB_SUSPECT.reg,
      .reg F.CAL_STATUS.BUSY.reg]
  | .orphanTWrite _ _ _ => [.own, .evt, .vlv, .lsw, .can, .pwr, .dsp, .reg F.EVT_STATUS.LOG_OVF.reg, .reg F.OWN_ORPHAN_T.T.reg,
      .reg F.VLV_STATUS.FAULT.reg, .reg F.LSW_STATUS.FAULT.reg, .reg F.LSW_CNT.TRIPS.reg, .reg F.UIN_SS.LIMIT.reg, .reg F.CAN_STATUS.LAST_ERR.reg,
      .reg F.CAN_TXST.STATE.reg, .reg F.DSP_STATUS.LVL_FAULT.reg, .reg F.PWR_FEED.CONNECT.reg, .reg F.FAN_STATUS.STALL.reg]
  | .orphanTimerExpiry _ => [.own, .evt, .vlv, .lsw, .can, .pwr, .dsp, .reg F.EVT_STATUS.LOG_OVF.reg, .reg F.VLV_STATUS.FAULT.reg,
      .reg F.LSW_STATUS.FAULT.reg, .reg F.LSW_CNT.TRIPS.reg, .reg F.UIN_SS.LIMIT.reg, .reg F.CAN_STATUS.LAST_ERR.reg, .reg F.CAN_TXST.STATE.reg,
      .reg F.DSP_STATUS.LVL_FAULT.reg, .reg F.PWR_FEED.CONNECT.reg, .reg F.FAN_STATUS.STALL.reg]
  | .ownerAliveLowTimeout _ => [.own, .evt, .dsp, .reg F.EVT_STATUS.LOG_OVF.reg, .reg F.DSP_STATUS.LVL_FAULT.reg]
  | .aliveLineFall _ _ => [.own, .run, .evt, .vlv, .lsw, .can, .pwr, .dsp, .reg F.EVT_STATUS.LOG_OVF.reg, .reg F.OWN_RESULT.BUSY.reg,
      .reg F.VLV_STATUS.FAULT.reg, .reg F.VLV_TILE.PRESENT.reg, .reg F.LSW_STATUS.FAULT.reg, .reg F.LSW_CNT.TRIPS.reg, .reg F.UIN_SS.LIMIT.reg,
      .reg F.CAN_STATUS.LAST_ERR.reg, .reg F.CAN_TXST.STATE.reg, .reg F.GNS_STATUS.BB_SUSPECT.reg, .reg F.DSP_STATUS.LVL_FAULT.reg,
      .reg F.PWR_FEED.CONNECT.reg, .reg F.FAN_STATUS.STALL.reg]
  | .aliveLineRise _ _ => [.own, .xng]
  | .hardwareClaimAll _ => [.own]
  | .takeoverComplete _ => [.own, .evt, .trk, .reg F.EVT_STATUS.LOG_OVF.reg]
  | .heartbeatPermitLapse _ => [.own, .run, .evt, .vlv, .lsw, .can, .pwr, .dsp, .reg F.EVT_STATUS.LOG_OVF.reg, .reg F.OWN_RESULT.BUSY.reg,
      .reg F.VLV_STATUS.FAULT.reg, .reg F.VLV_TILE.PRESENT.reg, .reg F.LSW_STATUS.FAULT.reg, .reg F.LSW_CNT.TRIPS.reg, .reg F.UIN_SS.LIMIT.reg,
      .reg F.CAN_STATUS.LAST_ERR.reg, .reg F.CAN_TXST.STATE.reg, .reg F.GNS_STATUS.BB_SUSPECT.reg, .reg F.DSP_STATUS.LVL_FAULT.reg,
      .reg F.PWR_FEED.CONNECT.reg, .reg F.FAN_STATUS.STALL.reg]
  | .stewardPermitContribution _ => [.run]
  | .permitJoinTimeout _ => [.own, .run, .evt, .vlv, .lsw, .can, .pwr, .dsp, .reg F.EVT_STATUS.LOG_OVF.reg, .reg F.OWN_RESULT.BUSY.reg,
      .reg F.VLV_STATUS.FAULT.reg, .reg F.VLV_TILE.PRESENT.reg, .reg F.LSW_STATUS.FAULT.reg, .reg F.LSW_CNT.TRIPS.reg, .reg F.UIN_SS.LIMIT.reg,
      .reg F.CAN_STATUS.LAST_ERR.reg, .reg F.CAN_TXST.STATE.reg, .reg F.GNS_STATUS.BB_SUSPECT.reg, .reg F.DSP_STATUS.LVL_FAULT.reg,
      .reg F.PWR_FEED.CONNECT.reg, .reg F.FAN_STATUS.STALL.reg]
  | .selfFence _ => [.own, .run, .evt, .vlv, .lsw, .can, .pwr, .dsp, .reg F.EVT_STATUS.LOG_OVF.reg, .reg F.OWN_RESULT.BUSY.reg,
      .reg F.VLV_STATUS.FAULT.reg, .reg F.VLV_TILE.PRESENT.reg, .reg F.LSW_STATUS.FAULT.reg, .reg F.LSW_CNT.TRIPS.reg, .reg F.UIN_SS.LIMIT.reg,
      .reg F.CAN_STATUS.LAST_ERR.reg, .reg F.CAN_TXST.STATE.reg, .reg F.GNS_STATUS.BB_SUSPECT.reg, .reg F.DSP_STATUS.LVL_FAULT.reg,
      .reg F.PWR_FEED.CONNECT.reg, .reg F.FAN_STATUS.STALL.reg]
  | .arbiterRoundStart _ => [.vlv]
  | .crossingLaneChange _ _ _ _ => [.evt, .xng, .reg F.EVT_STATUS.LOG_OVF.reg, .reg F.XNG_STATUS.TSYNC_OK.reg, .reg F.GNS_STATUS.BB_SUSPECT.reg]
  | .crossingFrameReceived _ _ _ _ _ => [.evt, .xng, .reg F.EVT_STATUS.LOG_OVF.reg, .reg F.XNG_ERR_CNT.RETX.reg]
  | .retransmissionRequest _ _ _ => [.xng, .reg F.XNG_ERR_CNT.RETX.reg]
  | .hbFrameSend _ => [.xng]
  | .hbFrameReceived _ => [.xng, .reg F.XNG_STATUS.TSYNC_OK.reg, .reg F.XNG_SIB_STATE.HB_SEQ.reg, .reg F.XNG_SIB_GRADE.GRADE.reg,
      .reg F.XNG_SIB_ROAST0.DIGEST.reg, .reg F.XNG_SIB_ROAST1.DIGEST.reg, .reg F.XNG_SIB_OWNED.OWNED.reg]
  | .hbWindowExpiry _ => [.evt, .xng, .reg F.EVT_STATUS.LOG_OVF.reg, .reg F.XNG_STATUS.TSYNC_OK.reg]
  | .heartbeatLossSample _ => [.evt, .xng, .trk, .reg F.EVT_STATUS.LOG_OVF.reg, .reg F.XNG_STATUS.TSYNC_OK.reg, .reg F.GNS_STATUS.BB_SUSPECT.reg,
      .reg F.TRK_STATUS.IGN_REFUSED.reg]
  | .crossingUp _ => [.evt, .xng, .dram, .trk, .reg F.EVT_STATUS.LOG_OVF.reg, .reg F.XNG_STATUS.TSYNC_OK.reg, .reg F.GNS_STATUS.BB_SUSPECT.reg,
      .reg F.TRK_STATUS.IGN_REFUSED.reg, .reg F.TRK_STOP.CLASS_D.reg, .reg F.TRK_STOP_CFG.D_STOP.reg, .reg F.TRK_CYCLE.VALUE.reg,
      .reg F.TRK_BUF.VALUE.reg]
  | .xngEnable _ _ _ => [.evt, .xng, .reg F.EVT_STATUS.LOG_OVF.reg, .reg F.XNG_CTRL.CLR_CNT.reg, .reg F.XNG_STATUS.TSYNC_OK.reg,
      .reg F.GNS_STATUS.BB_SUSPECT.reg]
  | .xngLoopback _ _ _ => [.evt, .xng, .reg F.EVT_STATUS.LOG_OVF.reg, .reg F.XNG_CTRL.CLR_CNT.reg, .reg F.XNG_STATUS.TSYNC_OK.reg,
      .reg F.GNS_STATUS.BB_SUSPECT.reg]
  | .xngClrCnt _ _ => [.reg F.XNG_ERR_CNT.RETX.reg]
  | .tsyExchange _ _ _ _ _ => [.evt, .xng, .tim, .reg F.EVT_STATUS.LOG_OVF.reg, .reg F.XNG_STATUS.TSYNC_OK.reg, .reg F.XNG_TSYNC_OFS.OFS.reg]
  | .tsyncTimeout _ => [.evt, .xng, .reg F.EVT_STATUS.LOG_OVF.reg, .reg F.XNG_STATUS.TSYNC_OK.reg]
  | .mirrorRecordReceived _ _ _ _ => [.evt, .xng, .set, .opt, .flx, .reg F.SET_STATE.FROZEN.reg, .reg F.SET_STEER_CTRL.PASS.reg,
      .reg F.SET_STEER_STATUS.PASS.reg, .reg F.SET_STEER_XTE.VALUE.reg, .reg F.SET_STEER_HDG.VALUE.reg, .reg F.SET_STEER_CURV.VALUE.reg,
      .reg F.SET_MF_SP.VALUE.reg, .reg F.SET_MF_MAN.VALUE.reg, .reg F.SET_MF_OUT.VALUE.reg, .reg F.SET_MF_CMD.ABORT.reg,
      .reg F.SET_OPT_CTRL.DITH_EN.reg, .reg F.SET_OPT_STATUS.TGT_CLAMP.reg, .reg F.SET_OPT_TGT_THRU.VALUE.reg, .reg F.SET_OPT_TGT_LOSS.VALUE.reg,
      .reg F.SET_OPT_TGT_DAMAGE.VALUE.reg, .reg F.SET_OPT_TGT_TRASH.VALUE.reg, .reg F.SET_OPT_PREF.PREF.reg, .reg F.SET_OPT_CORR.SOLVE_T.reg,
      .reg F.FLX_YLD.ACKED.reg]
  | .mirrorLagExceeded _ _ => [.evt, .xng, .reg F.EVT_STATUS.LOG_OVF.reg, .reg F.XNG_MIR_STAT.LAG.reg]
  | .backplanePowerOn _ _ _ => [.own, .ledger, .run, .evt, .act, .shut, .svc, .vlv, .lsw, .uin, .cal, .dram, .keeper, .can, .pwr, .dsp, .latch, .regs]
  | .logicInValid _ => [.latch, .regs]
  | .halfResetRelease _ => [.own, .bus, .fresh, .run, .evt, .xng, .shut, .frame, .tim, .set, .opt, .uin, .yld, .pose, .grd, .trk, .gns, .flx, .upd,
      .latch, .regs]
  | .bloom _ _ => [.own, .ledger, .run, .evt, .roast, .bp, .shut, .tim, .set, .opt, .vlv, .lsw, .uin, .yld, .grd, .trk, .gns, .can, .flx, .upd,
      .pwr, .dsp, .latch, .regs]
  | .roastSiblingFetch _ _ => [.own, .bus, .fresh, .run, .evt, .xng, .roast, .shut, .frame, .tim, .set, .opt, .vlv, .lsw, .uin, .yld, .pose, .grd,
      .trk, .gns, .can, .flx, .upd, .pwr, .dsp, .latch, .regs]
  | .roastActivateRequest _ _ => [.own, .ledger, .bus, .fresh, .run, .evt, .xng, .roast, .bp, .act, .shut, .frame, .tim, .set, .opt, .vlv, .lsw,
      .uin, .yld, .pose, .grd, .trk, .gns, .can, .flx, .upd, .pwr, .dsp, .latch, .regs]
  | .pourEntry _ => [.evt, .reg F.STW_STAGE.CUP_REPORT.reg, .reg F.STW_START_T.POUR.reg, .reg F.EVT_STATUS.LOG_OVF.reg]
  | .pourExit _ => [.evt, .reg F.STW_STAGE.CUP_REPORT.reg, .reg F.EVT_STATUS.LOG_OVF.reg]
  | .keyInOn => [.own, .shut, .set, .latch, .regs]
  | .keyInOff => [.latch, .reg F.STW_HOLD.HOLD_LEFT.reg]
  | .shutdown _ _ _ => [.own, .ledger, .fresh, .run, .evt, .shut, .tim, .opt, .vlv, .lsw, .yld, .gns, .can, .flx, .pwr, .dsp,
      .reg F.STW_STAGE.CUP_REPORT.reg, .reg F.EVT_STATUS.LOG_OVF.reg, .reg F.OWN_RESULT.BUSY.reg, .reg F.VLV_STATUS.FAULT.reg,
      .reg F.VLV_TILE.PRESENT.reg, .reg F.LSW_STATUS.FAULT.reg, .reg F.LSW_CNT.TRIPS.reg, .reg F.UIN_SS.LIMIT.reg, .reg F.CAN_STATUS.LAST_ERR.reg,
      .reg F.CAN_TXST.STATE.reg, .reg F.FLX_STATUS.TIME_UNCHECKED.reg, .reg F.FLX_YLD.ACKED.reg, .reg F.FLX_CART.STALE.reg,
      .reg F.FLX_SESS.ROLE.reg, .reg F.GNS_STATUS.BB_SUSPECT.reg, .reg F.DSP_STATUS.LVL_FAULT.reg, .reg F.PWR_FEED.CONNECT.reg,
      .reg F.FAN_STATUS.STALL.reg, .reg F.CAL_STATUS.BUSY.reg, .reg F.CUP_STATUS.CLEAR_DONE.reg, .reg F.CUP_COND.DIE_MAX.reg,
      .reg F.CUP_REC_W0.VDEV.reg, .reg F.CUP_REC_W1.COUNT.reg, .reg F.CUP_REC_W2.SYNDROME.reg, .reg F.CUP_REC_W3.DURATION.reg]
  | .pwrHoldStartupExpiry => [.latch, .reg F.STW_HOLD.HOLD_LEFT.reg]
  | .pwrHoldForcedRelease => [.latch, .reg F.STW_HOLD.HOLD_LEFT.reg]
  | .secretClearDone _ => [.reg F.CUP_STATUS.CLEAR_DONE.reg]
  | .secretClearTimeout _ => [.fresh, .shut, .reg F.CUP_STATUS.CLEAR_DONE.reg, .reg F.CUP_REC_W0.VDEV.reg, .reg F.CUP_REC_W1.COUNT.reg,
      .reg F.CUP_REC_W2.SYNDROME.reg, .reg F.CUP_REC_W3.DURATION.reg]
  | .islandTestEnd _ _ _ => [.shut, .reg F.CUP_STATUS.CLEAR_DONE.reg, .reg F.CUP_REC_W0.VDEV.reg, .reg F.CUP_REC_W1.COUNT.reg,
      .reg F.CUP_REC_W2.SYNDROME.reg, .reg F.CUP_REC_W3.DURATION.reg]
  | .islandConditionFail _ _ _ _ => [.fresh, .shut, .reg F.CUP_STATUS.CLEAR_DONE.reg, .reg F.CUP_REC_W0.VDEV.reg, .reg F.CUP_REC_W1.COUNT.reg,
      .reg F.CUP_REC_W2.SYNDROME.reg, .reg F.CUP_REC_W3.DURATION.reg]
  | .cuppingBudgetExpiry _ _ => [.fresh, .shut, .reg F.CUP_STATUS.CLEAR_DONE.reg, .reg F.CUP_REC_W0.VDEV.reg, .reg F.CUP_REC_W1.COUNT.reg,
      .reg F.CUP_REC_W2.SYNDROME.reg, .reg F.CUP_REC_W3.DURATION.reg]
  | .cuppingRecordsWritten _ _ => [.shut, .svc, .latch, .reg F.STW_HOLD.HOLD_LEFT.reg, .reg F.STW_LIFE_HOLD.DUE.reg,
      .reg F.CUP_STATUS.CLEAR_DONE.reg, .reg F.CUP_SUMMARY.SKIPPED.reg, .reg F.CUP_RUN.DURATION.reg]
  | .wakeRequest _ _ _ => [.own, .bus, .fresh, .run, .evt, .xng, .shut, .frame, .tim, .set, .opt, .uin, .yld, .pose, .grd, .trk, .gns, .flx, .upd,
      .latch, .regs]
  | .cupAck _ _ => [.reg F.STW_STAGE.CUP_REPORT.reg]
  | .setStateRequest _ _ _ => [.evt, .set, .reg F.EVT_STATUS.LOG_OVF.reg, .reg F.XNG_CTRL.CLR_CNT.reg, .reg F.SET_STATE.FROZEN.reg,
      .reg F.CAN_CTRL.MODE.reg, .reg F.CAN_STATUS.LAST_ERR.reg, .reg F.CAN_TXST.STATE.reg]
  | .autoTransition _ _ => [.evt, .set, .reg F.EVT_STATUS.LOG_OVF.reg, .reg F.XNG_CTRL.CLR_CNT.reg, .reg F.SET_STATE.FROZEN.reg,
      .reg F.CAN_CTRL.MODE.reg, .reg F.CAN_STATUS.LAST_ERR.reg, .reg F.CAN_TXST.STATE.reg]
  | .executorCycle _ _ _ _ => [.fresh, .evt, .set, .vlv, .lsw, .can, .pwr, .dsp, .reg F.EVT_STATUS.LOG_OVF.reg, .reg F.SET_STATUS.ANY_OVERRUN.reg,
      .reg F.SET_JITTER0.HI.reg, .reg F.SET_JITTER1.HI.reg, .reg F.SET_STEER_STATUS.PASS.reg, .reg F.SET_STEER_XTE.VALUE.reg,
      .reg F.SET_STEER_HDG.VALUE.reg, .reg F.SET_STEER_CURV.VALUE.reg, .reg F.SET_MF_STAT.OVERRUN.reg, .reg F.SET_MF_OUT.VALUE.reg,
      .reg F.VLV_CMD.KNOCK.reg, .reg F.VLV_SETPOINT.MA.reg, .reg F.VLV_STATUS.FAULT.reg, .reg F.VLV_TON.NOKINK.reg, .reg F.VLV_TOFF.NOKINK.reg,
      .reg F.VLV_CNT.NOKINK.reg, .reg F.LSW_CMD.PROF.reg, .reg F.LSW_STATUS.FAULT.reg, .reg F.LSW_CNT.TRIPS.reg, .reg F.UIN_SS.LIMIT.reg,
      .reg F.CAN_STATUS.LAST_ERR.reg, .reg F.CAN_TXST.STATE.reg, .reg F.CAN_SIGV.VALUE.reg, .reg F.DSP_STATUS.LVL_FAULT.reg,
      .reg F.PWR_FEED.CONNECT.reg, .reg F.FAN_STATUS.STALL.reg]
  | .cycleOverrun _ _ => [.evt, .set, .reg F.EVT_STATUS.LOG_OVF.reg, .reg F.SET_STATUS.ANY_OVERRUN.reg, .reg F.SET_MF_STAT.OVERRUN.reg]
  | .interlockRelease _ _ _ => [.set]
  | .conflictHoldExpiry _ _ => [.fresh, .evt, .set, .vlv, .lsw, .reg F.EVT_STATUS.LOG_OVF.reg, .reg F.SET_STEER_STATUS.PASS.reg,
      .reg F.SET_MF_STAT.OVERRUN.reg, .reg F.VLV_CMD.KNOCK.reg, .reg F.VLV_SETPOINT.MA.reg, .reg F.VLV_STATUS.FAULT.reg, .reg F.VLV_TON.NOKINK.reg,
      .reg F.VLV_TOFF.NOKINK.reg, .reg F.VLV_CNT.NOKINK.reg, .reg F.LSW_CMD.PROF.reg, .reg F.LSW_STATUS.FAULT.reg, .reg F.CAN_STATUS.LAST_ERR.reg,
      .reg F.CAN_SIGV.VALUE.reg]
  | .seqStepTimeout _ _ => [.evt, .set, .reg F.EVT_STATUS.LOG_OVF.reg, .reg F.SET_MF_STAT.OVERRUN.reg]
  | .pairReleaseTimeout _ _ => [.set]
  | .mfManual _ _ _ _ => [.reg F.SET_MF_CMD.ABORT.reg]
  | .mfSeqStart _ _ _ => [.set]
  | .mfSeqStep _ _ _ => [.set]
  | .mfSeqAbort _ _ _ => [.set]
  | .setClrCnt _ _ => [.reg F.SET_JITTER0.HI.reg, .reg F.SET_JITTER1.HI.reg, .reg F.SET_MF_STAT.OVERRUN.reg]
  | .steerEngage _ _ => [.set, .reg F.SET_STEER_CTRL.PASS.reg, .reg F.SET_STEER_STATUS.PASS.reg]
  | .steerDisengage _ _ => [.fresh, .evt, .set, .vlv, .lsw, .reg F.EVT_STATUS.LOG_OVF.reg, .reg F.SET_STEER_STATUS.PASS.reg,
      .reg F.VLV_CMD.KNOCK.reg, .reg F.VLV_SETPOINT.MA.reg, .reg F.VLV_STATUS.FAULT.reg, .reg F.VLV_TON.NOKINK.reg, .reg F.VLV_TOFF.NOKINK.reg,
      .reg F.VLV_CNT.NOKINK.reg, .reg F.LSW_CMD.PROF.reg, .reg F.LSW_STATUS.FAULT.reg, .reg F.CAN_STATUS.LAST_ERR.reg, .reg F.CAN_SIGV.VALUE.reg]
  | .steerReleaseTimeout _ => [.fresh, .evt, .set, .vlv, .lsw, .reg F.EVT_STATUS.LOG_OVF.reg, .reg F.SET_STEER_STATUS.PASS.reg,
      .reg F.VLV_CMD.KNOCK.reg, .reg F.VLV_SETPOINT.MA.reg, .reg F.VLV_STATUS.FAULT.reg, .reg F.VLV_TON.NOKINK.reg, .reg F.VLV_TOFF.NOKINK.reg,
      .reg F.VLV_CNT.NOKINK.reg, .reg F.LSW_CMD.PROF.reg, .reg F.LSW_STATUS.FAULT.reg, .reg F.CAN_STATUS.LAST_ERR.reg, .reg F.CAN_SIGV.VALUE.reg]
  | .steerAck _ _ => [.set, .lsw, .reg F.SET_STEER_STATUS.PASS.reg, .reg F.LSW_CMD.PROF.reg, .reg F.LSW_STATUS.FAULT.reg,
      .reg F.CAN_STATUS.LAST_ERR.reg, .reg F.CAN_SIGV.VALUE.reg]
  | .steerPassSelect _ _ _ => [.reg F.SET_STEER_CTRL.PASS.reg, .reg F.SET_STEER_STATUS.PASS.reg]
  | .alertMinExpiry _ => [.set, .lsw, .reg F.SET_STEER_STATUS.PASS.reg, .reg F.LSW_CMD.PROF.reg, .reg F.LSW_STATUS.FAULT.reg,
      .reg F.CAN_STATUS.LAST_ERR.reg, .reg F.CAN_SIGV.VALUE.reg]
  | .lineLoad _ _ _ => [.set, .reg F.SET_LINE_STAT.BUSY.reg]
  | .lineLoadComplete _ => [.set, .reg F.SET_LINE_STAT.BUSY.reg]
  | .lineClear _ _ _ => [.set, .reg F.SET_LINE_STAT.BUSY.reg]
  | .optSolve _ _ => [.fresh, .evt, .opt, .reg F.EVT_STATUS.LOG_OVF.reg, .reg F.SET_MF_SP.VALUE.reg, .reg F.SET_OPT_STATUS.TGT_CLAMP.reg,
      .reg F.SET_OPT_CORR.SOLVE_T.reg, .reg F.SET_OPT_SOLN.VALUE.reg]
  | .ditherStep _ _ => [.opt]
  | .lookaheadUpdate _ => [.fresh, .opt, .reg F.SET_OPT_STATUS.TGT_CLAMP.reg, .reg F.SET_OPT_CORR.SOLVE_T.reg, .reg F.SET_OPT_FF.VALUE.reg,
      .reg F.SET_OPT_LAT.TAU.reg]
  | .optModeWrite _ _ _ => [.reg F.SET_OPT_CTRL.DITH_EN.reg]
  | .optProfileWrite _ _ _ => [.opt, .reg F.SET_OPT_CTRL.DITH_EN.reg, .reg F.SET_OPT_STATUS.TGT_CLAMP.reg, .reg F.SET_OPT_CORR.SOLVE_T.reg]
  | .optResetModel _ _ => [.opt, .reg F.SET_OPT_STATUS.TGT_CLAMP.reg, .reg F.SET_OPT_CORR.SOLVE_T.reg]
  | .optTargetWrite _ _ _ _ => [.reg F.SET_OPT_STATUS.TGT_CLAMP.reg, .reg F.SET_OPT_TGT_THRU.VALUE.reg, .reg F.SET_OPT_TGT_LOSS.VALUE.reg,
      .reg F.SET_OPT_TGT_DAMAGE.VALUE.reg, .reg F.SET_OPT_TGT_TRASH.VALUE.reg, .reg F.SET_OPT_PREF.PREF.reg]
  | .vlvCommand _ _ _ => [.fresh, .evt, .vlv, .reg F.EVT_STATUS.LOG_OVF.reg, .reg F.OWN_VIOL.INIT.reg, .reg F.VLV_CMD.KNOCK.reg,
      .reg F.VLV_STATUS.FAULT.reg, .reg F.VLV_TON.NOKINK.reg, .reg F.VLV_TOFF.NOKINK.reg, .reg F.VLV_CNT.NOKINK.reg]
  | .vlvSetpointWrite _ _ _ => [.evt, .vlv, .reg F.EVT_STATUS.LOG_OVF.reg, .reg F.OWN_VIOL.INIT.reg, .reg F.VLV_SETPOINT.MA.reg,
      .reg F.VLV_STATUS.FAULT.reg, .reg F.VLV_CNT.NOKINK.reg]
  | .vlvClrFault _ _ => [.evt, .reg F.EVT_STATUS.LOG_OVF.reg, .reg F.OWN_VIOL.INIT.reg, .reg F.VLV_STATUS.FAULT.reg]
  | .vlvKnock _ _ => [.evt, .vlv, .reg F.EVT_STATUS.LOG_OVF.reg, .reg F.OWN_VIOL.INIT.reg, .reg F.VLV_STATUS.FAULT.reg]
  | .vlvClrCnt _ _ => [.evt, .reg F.EVT_STATUS.LOG_OVF.reg, .reg F.OWN_VIOL.INIT.reg, .reg F.VLV_CNT.NOKINK.reg]
  | .engineStart _ => [.evt, .vlv, .reg F.STW_SVC_STAT.STATE.reg, .reg F.EVT_STATUS.LOG_OVF.reg, .reg F.VLV_STATUS.FAULT.reg,
      .reg F.VLV_ENG.LAST_EVT.reg, .reg F.VLV_RCP.TWIN.reg]
  | .halt _ => [.vlv, .reg F.VLV_STATUS.FAULT.reg]
  | .phase _ => [.vlv, .reg F.VLV_STATUS.FAULT.reg, .reg F.VLV_ENG.LAST_EVT.reg]
  | .src _ => [.vlv, .reg F.VLV_STATUS.FAULT.reg, .reg F.VLV_ENG.LAST_EVT.reg, .reg F.VLV_CNT.NOKINK.reg]
  | .seti _ => [.vlv, .reg F.VLV_STATUS.FAULT.reg, .reg F.VLV_ENG.LAST_EVT.reg, .reg F.VLV_CNT.NOKINK.reg]
  | .ramp _ => [.vlv, .reg F.VLV_STATUS.FAULT.reg, .reg F.VLV_ENG.LAST_EVT.reg, .reg F.VLV_CNT.NOKINK.reg]
  | .wait _ => [.vlv]
  | .waitEnd _ => [.vlv, .reg F.VLV_ENG.LAST_EVT.reg]
  | .waiti _ => [.vlv]
  | .waitiEnd _ _ => [.vlv, .reg F.VLV_CUR.TARGET.reg, .reg F.VLV_ENG.LAST_EVT.reg]
  | .waitk _ => [.vlv]
  | .pullKinkConfirm _ _ => [.evt, .vlv, .reg F.EVT_STATUS.LOG_OVF.reg, .reg F.VLV_TON.NOKINK.reg, .reg F.VLV_TOFF.NOKINK.reg,
      .reg F.VLV_ENG.LAST_EVT.reg, .reg F.VLV_CNT.NOKINK.reg]
  | .closeKinkDetect _ _ => [.evt, .vlv, .reg F.EVT_STATUS.LOG_OVF.reg, .reg F.VLV_TON.NOKINK.reg, .reg F.VLV_TOFF.NOKINK.reg,
      .reg F.VLV_ENG.LAST_EVT.reg, .reg F.VLV_CNT.NOKINK.reg]
  | .kinkWindowClose _ => [.evt, .vlv, .reg F.EVT_STATUS.LOG_OVF.reg, .reg F.VLV_TON.NOKINK.reg, .reg F.VLV_TOFF.NOKINK.reg,
      .reg F.VLV_ENG.LAST_EVT.reg, .reg F.VLV_CNT.NOKINK.reg]
  | .dith _ => [.vlv, .reg F.VLV_STATUS.FAULT.reg, .reg F.VLV_ENG.LAST_EVT.reg, .reg F.VLV_CNT.NOKINK.reg]
  | .pwmv _ => [.vlv, .reg F.VLV_ENG.LAST_EVT.reg]
  | .jmp _ => [.reg F.VLV_ENG.LAST_EVT.reg]
  | .jc _ => [.vlv, .reg F.VLV_ENG.LAST_EVT.reg]
  | .loop _ => [.vlv, .reg F.VLV_ENG.LAST_EVT.reg]
  | .evt _ => [.evt, .vlv, .reg F.EVT_STATUS.LOG_OVF.reg, .reg F.VLV_ENG.LAST_EVT.reg]
  | .off _ => [.vlv, .reg F.VLV_STATUS.FAULT.reg, .reg F.VLV_ENG.LAST_EVT.reg]
  | .ldp _ _ _ => [.vlv, .reg F.VLV_ENG.LAST_EVT.reg]
  | .meas _ _ _ => [.vlv, .reg F.VLV_CUR.TARGET.reg, .reg F.VLV_MEAS.V.reg, .reg F.VLV_ENG.LAST_EVT.reg]
  | .recipeIllegal _ _ => [.evt, .vlv, .reg F.EVT_STATUS.LOG_OVF.reg, .reg F.VLV_STATUS.FAULT.reg]
  | .recipeLockRelease _ => [.vlv, .reg F.VLV_TILE.PRESENT.reg]
  | .recipeBankActivate _ => [.reg F.VLV_RCP.TWIN.reg, .reg F.VLV_TILE.PRESENT.reg]
  | .coilEstimate _ _ _ => [.vlv, .reg F.VLV_STATUS.FAULT.reg, .reg F.VLV_COIL.RES.reg]
  | .dutyEvaluation _ _ => [.evt, .vlv, .reg F.EVT_STATUS.LOG_OVF.reg, .reg F.VLV_STATUS.FAULT.reg, .reg F.VLV_CUR.TARGET.reg, .reg F.VLV_DUTY.D.reg]
  | .boostRailLow _ _ => [.evt, .reg F.EVT_STATUS.LOG_OVF.reg, .reg F.VLV_STATUS.FAULT.reg, .reg F.VLV_TILE.PRESENT.reg]
  | .boostRailRecover _ _ => [.reg F.VLV_TILE.PRESENT.reg]
  | .bankAdmission _ => [.vlv, .reg F.VLV_STATUS.FAULT.reg, .reg F.VLV_ENG.LAST_EVT.reg]
  | .bankWaitTimeout _ => [.evt, .vlv, .reg F.EVT_STATUS.LOG_OVF.reg, .reg F.VLV_STATUS.FAULT.reg, .reg F.VLV_ENG.LAST_EVT.reg]
  | .twinPartnerLoss _ => [.evt, .vlv, .reg F.EVT_STATUS.LOG_OVF.reg, .reg F.VLV_STATUS.FAULT.reg, .reg F.VLV_CNT.NOKINK.reg]
  | .twinPartnerReturn _ => [.evt, .vlv, .reg F.EVT_STATUS.LOG_OVF.reg, .reg F.VLV_STATUS.FAULT.reg, .reg F.VLV_ENG.LAST_EVT.reg,
      .reg F.VLV_RCP.TWIN.reg]
  | .vlvShort _ _ => [.evt, .vlv, .reg F.EVT_STATUS.LOG_OVF.reg, .reg F.VLV_STATUS.FAULT.reg, .reg F.VLV_CUR.TARGET.reg]
  | .vlvOpenLoad _ _ => [.evt, .vlv, .reg F.EVT_STATUS.LOG_OVF.reg, .reg F.VLV_STATUS.FAULT.reg, .reg F.VLV_CUR.TARGET.reg]
  | .vlvOvertemp _ _ => [.evt, .vlv, .reg F.EVT_STATUS.LOG_OVF.reg, .reg F.VLV_STATUS.FAULT.reg, .reg F.VLV_TILE.PRESENT.reg]
  | .vlvHsShort _ _ => [.evt, .vlv, .reg F.EVT_STATUS.LOG_OVF.reg, .reg F.VLV_STATUS.FAULT.reg]
  | .tileAbsent _ => [.evt, .vlv, .reg F.STW_SVC_STAT.STATE.reg, .reg F.EVT_STATUS.LOG_OVF.reg, .reg F.VLV_STATUS.FAULT.reg,
      .reg F.VLV_TILE.PRESENT.reg]
  | .tileInsert _ => [.vlv, .reg F.VLV_TILE.PRESENT.reg]
  | .tileReady _ _ _ _ => [.ledger, .evt, .svc, .vlv, .reg F.STW_SVC_STAT.STATE.reg, .reg F.EVT_STATUS.LOG_OVF.reg, .reg F.VLV_STATUS.FAULT.reg,
      .reg F.VLV_TILE.PRESENT.reg]
  | .vlvProbe _ _ => [.evt, .vlv, .reg F.EVT_STATUS.LOG_OVF.reg, .reg F.VLV_STATUS.FAULT.reg]
  | .lswCommand _ _ _ => [.evt, .lsw, .reg F.EVT_STATUS.LOG_OVF.reg, .reg F.OWN_VIOL.INIT.reg, .reg F.LSW_CMD.PROF.reg, .reg F.LSW_STATUS.FAULT.reg]
  | .lswProfile _ _ _ => [.evt, .reg F.EVT_STATUS.LOG_OVF.reg, .reg F.OWN_VIOL.INIT.reg, .reg F.LSW_CMD.PROF.reg]
  | .lswClrFault _ _ => [.evt, .lsw, .reg F.EVT_STATUS.LOG_OVF.reg, .reg F.OWN_VIOL.INIT.reg, .reg F.LSW_STATUS.FAULT.reg]
  | .lswKnock _ _ => [.evt, .lsw, .reg F.EVT_STATUS.LOG_OVF.reg, .reg F.OWN_VIOL.INIT.reg, .reg F.LSW_STATUS.FAULT.reg]
  | .lswClrCnt _ _ => [.evt, .reg F.EVT_STATUS.LOG_OVF.reg, .reg F.OWN_VIOL.INIT.reg, .reg F.LSW_TEMP.LATCHES.reg, .reg F.LSW_CNT.TRIPS.reg]
  | .inrushEnd _ => [.lsw, .reg F.LSW_STATUS.FAULT.reg]
  | .lswShortTrip _ _ => [.evt, .lsw, .reg F.EVT_STATUS.LOG_OVF.reg, .reg F.LSW_STATUS.FAULT.reg, .reg F.LSW_MEAS.V.reg, .reg F.LSW_CNT.TRIPS.reg]
  | .lswOverloadTrip _ _ => [.evt, .lsw, .reg F.EVT_STATUS.LOG_OVF.reg, .reg F.LSW_STATUS.FAULT.reg, .reg F.LSW_MEAS.V.reg, .reg F.LSW_CNT.TRIPS.reg]
  | .lswThermalTrip _ _ => [.evt, .lsw, .reg F.EVT_STATUS.LOG_OVF.reg, .reg F.LSW_STATUS.FAULT.reg, .reg F.LSW_TEMP.LATCHES.reg]
  | .thermalLatchClear _ _ => [.evt, .lsw, .reg F.EVT_STATUS.LOG_OVF.reg, .reg F.LSW_STATUS.FAULT.reg, .reg F.LSW_TEMP.LATCHES.reg]
  | .retryWaitExpiry _ _ => [.lsw, .reg F.LSW_STATUS.FAULT.reg, .reg F.LSW_CNT.TRIPS.reg]
  | .retryCounterReload _ => [.reg F.LSW_STATUS.FAULT.reg]
  | .feedBudgetGrant _ => [.vlv, .lsw, .reg F.LSW_STATUS.FAULT.reg, .reg F.LSW_CNT.TRIPS.reg]
  | .budgetWaitLong _ => [.evt, .reg F.EVT_STATUS.LOG_OVF.reg, .reg F.LSW_STATUS.FAULT.reg]
  | .feedOverload _ _ => [.evt, .lsw, .reg F.EVT_STATUS.LOG_OVF.reg, .reg F.LSW_STATUS.FAULT.reg, .reg F.LSW_FEED.WAITING.reg]
  | .shedStep _ _ => [.evt, .lsw, .reg F.EVT_STATUS.LOG_OVF.reg, .reg F.LSW_STATUS.FAULT.reg, .reg F.LSW_FEED.WAITING.reg]
  | .feedLost _ _ => [.evt, .lsw, .reg F.EVT_STATUS.LOG_OVF.reg, .reg F.LSW_STATUS.FAULT.reg]
  | .feedReturn _ _ => [.evt, .lsw, .reg F.EVT_STATUS.LOG_OVF.reg, .reg F.LSW_STATUS.FAULT.reg]
  | .openOnDetect _ _ => [.evt, .reg F.EVT_STATUS.LOG_OVF.reg, .reg F.LSW_STATUS.FAULT.reg, .reg F.LSW_MEAS.V.reg]
  | .lswProbe _ _ _ => [.evt, .reg F.EVT_STATUS.LOG_OVF.reg, .reg F.LSW_STATUS.FAULT.reg, .reg F.LSW_MEAS.V.reg]
  | .lswBankPresence _ _ => [.evt, .lsw, .reg F.EVT_STATUS.LOG_OVF.reg, .reg F.LSW_STATUS.FAULT.reg, .reg F.LSW_BANK.PRESENT.reg]
  | .inputSample _ _ => [.evt, .uin, .reg F.EVT_STATUS.LOG_OVF.reg, .reg F.UIN_VALUE.VALUE.reg, .reg F.UIN_STATUS.BIND.reg, .reg F.UIN_RAW.CODE.reg,
      .reg F.UIN_STAMP_LO.T.reg, .reg F.UIN_STAMP_HI.T.reg, .reg F.UIN_FREQ.F.reg, .reg F.UIN_CNT.REJECT.reg, .reg F.UIN_BVAL.VALUE.reg,
      .reg F.UIN_BQ.AGE.reg]
  | .inputEdge _ _ _ => [.evt, .uin, .reg F.EVT_STATUS.LOG_OVF.reg, .reg F.UIN_COUNT.COUNT.reg, .reg F.UIN_CNT.REJECT.reg]
  | .qualityConditionTimer _ _ _ _ _ => [.evt, .uin, .reg F.EVT_STATUS.LOG_OVF.reg, .reg F.UIN_VALUE.VALUE.reg, .reg F.UIN_STATUS.BIND.reg,
      .reg F.UIN_CNT.REJECT.reg, .reg F.UIN_BVAL.VALUE.reg, .reg F.UIN_BQ.AGE.reg]
  | .stuckTimeout _ _ => [.evt, .uin, .reg F.EVT_STATUS.LOG_OVF.reg, .reg F.UIN_VALUE.VALUE.reg, .reg F.UIN_STATUS.BIND.reg,
      .reg F.UIN_CNT.REJECT.reg, .reg F.UIN_BVAL.VALUE.reg, .reg F.UIN_BQ.AGE.reg]
  | .twinDivergenceTimeout _ _ => [.evt, .uin, .reg F.EVT_STATUS.LOG_OVF.reg, .reg F.UIN_VALUE.VALUE.reg, .reg F.UIN_STATUS.BIND.reg,
      .reg F.UIN_CNT.REJECT.reg, .reg F.UIN_BVAL.VALUE.reg, .reg F.UIN_BQ.AGE.reg]
  | .twinAgreementTimeout _ _ => [.evt, .uin, .reg F.EVT_STATUS.LOG_OVF.reg, .reg F.UIN_VALUE.VALUE.reg, .reg F.UIN_STATUS.BIND.reg,
      .reg F.UIN_CNT.REJECT.reg, .reg F.UIN_BVAL.VALUE.reg, .reg F.UIN_BQ.AGE.reg]
  | .uinKnock _ _ => [.evt, .uin, .reg F.EVT_STATUS.LOG_OVF.reg, .reg F.OWN_VIOL.INIT.reg, .reg F.UIN_VALUE.VALUE.reg, .reg F.UIN_STATUS.BIND.reg,
      .reg F.UIN_CNT.REJECT.reg, .reg F.UIN_BVAL.VALUE.reg, .reg F.UIN_BQ.AGE.reg]
  | .uinPreset _ _ => [.evt, .reg F.EVT_STATUS.LOG_OVF.reg, .reg F.OWN_VIOL.INIT.reg, .reg F.UIN_COUNT.COUNT.reg]
  | .uinClrCnt _ _ => [.evt, .reg F.EVT_STATUS.LOG_OVF.reg, .reg F.OWN_VIOL.INIT.reg, .reg F.UIN_CNT.REJECT.reg]
  | .supplyLimitTrip _ _ => [.evt, .uin, .reg F.EVT_STATUS.LOG_OVF.reg, .reg F.UIN_VALUE.VALUE.reg, .reg F.UIN_STATUS.BIND.reg,
      .reg F.UIN_CNT.REJECT.reg, .reg F.UIN_SS.LIMIT.reg, .reg F.UIN_BVAL.VALUE.reg, .reg F.UIN_BQ.AGE.reg]
  | .supplyRetry _ _ => [.evt, .uin, .reg F.EVT_STATUS.LOG_OVF.reg, .reg F.UIN_SS.LIMIT.reg]
  | .supplyEnable _ _ _ => [.evt, .uin, .reg F.EVT_STATUS.LOG_OVF.reg, .reg F.OWN_VIOL.INIT.reg, .reg F.UIN_SS.LIMIT.reg]
  | .externalBindingWrite _ _ _ => [.evt, .uin, .reg F.EVT_STATUS.LOG_OVF.reg, .reg F.UIN_VALUE.VALUE.reg, .reg F.UIN_STATUS.BIND.reg,
      .reg F.UIN_STAMP_LO.T.reg, .reg F.UIN_STAMP_HI.T.reg, .reg F.UIN_CNT.REJECT.reg, .reg F.UIN_BVAL.VALUE.reg, .reg F.UIN_BQ.AGE.reg]
  | .lossHit _ _ _ _ _ => [.uin, .reg F.LOS_STATUS.SENS.reg, .reg F.LOS_HIT.P.reg]
  | .lossWindow => [.evt, .uin, .reg F.EVT_STATUS.LOG_OVF.reg, .reg F.UIN_VALUE.VALUE.reg, .reg F.UIN_STATUS.BIND.reg, .reg F.UIN_CNT.REJECT.reg,
      .reg F.UIN_BVAL.VALUE.reg, .reg F.UIN_BQ.AGE.reg, .reg F.LOS_STATUS.SENS.reg, .reg F.LOS_COUNT.TRASH.reg, .reg F.LOS_ZONE_G.SIEVE.reg,
      .reg F.LOS_ZONE_T.SIEVE.reg, .reg F.LOS_WIN.WIN.reg, .reg F.LOS_TOTAL.GRAIN.reg]
  | .lossBiasCheck _ _ => [.evt, .uin, .reg F.EVT_STATUS.LOG_OVF.reg, .reg F.LOS_STATUS.SENS.reg]
  | .lossSilentTimeout _ => [.evt, .uin, .reg F.EVT_STATUS.LOG_OVF.reg, .reg F.LOS_STATUS.SENS.reg]
  | .losClsWrite _ _ _ => [.evt, .reg F.EVT_STATUS.LOG_OVF.reg, .reg F.OWN_VIOL.INIT.reg, .reg F.LOS_CTRL.CLS.reg]
  | .losClrCnt _ _ => [.evt, .reg F.EVT_STATUS.LOG_OVF.reg, .reg F.OWN_VIOL.INIT.reg, .reg F.LOS_TOTAL.GRAIN.reg]
  | .yieldCycle _ => [.evt, .uin, .yld, .dram, .flx, .reg F.EVT_STATUS.LOG_OVF.reg, .reg F.SET_YLD_CTRL.CAL_CLEAR.reg,
      .reg F.SET_YLD_STATUS.CAL_ID.reg, .reg F.SET_YLD_FLOW.VALUE.reg, .reg F.SET_YLD_RHO_MOIST.MOIST.reg, .reg F.SET_YLD_TANK.VALUE.reg,
      .reg F.SET_YLD_TOT_WET.VALUE.reg, .reg F.SET_YLD_TOT_STD.VALUE.reg, .reg F.SET_YLD_TOT_AREA.VALUE.reg, .reg F.SET_YLD_UNASSIGNED.VALUE.reg,
      .reg F.SET_YLD_RING_HEAD.VALUE.reg, .reg F.SET_YLD_RING_TAIL.VALUE.reg, .reg F.SET_YLD_CAL.FACTOR.reg, .reg F.SET_YLD_CAL_MASS.KG.reg,
      .reg F.UIN_VALUE.VALUE.reg, .reg F.UIN_STATUS.BIND.reg, .reg F.UIN_STAMP_LO.T.reg, .reg F.UIN_STAMP_HI.T.reg, .reg F.UIN_CNT.REJECT.reg,
      .reg F.UIN_BVAL.VALUE.reg, .reg F.UIN_BQ.AGE.reg, .reg F.FLX_CNT.AUTH.reg, .reg F.FLX_SESS.ROLE.reg]
  | .yieldCropChange _ _ => [.reg F.SET_YLD_CTRL.CAL_CLEAR.reg]
  | .tankZero _ => [.yld, .reg F.SET_YLD_TANK.VALUE.reg, .reg F.SET_YLD_TOT_WET.VALUE.reg, .reg F.SET_YLD_TOT_STD.VALUE.reg,
      .reg F.SET_YLD_TOT_AREA.VALUE.reg, .reg F.SET_YLD_UNASSIGNED.VALUE.reg]
  | .totClr _ => [.yld, .reg F.SET_YLD_TANK.VALUE.reg, .reg F.SET_YLD_TOT_WET.VALUE.reg, .reg F.SET_YLD_TOT_STD.VALUE.reg,
      .reg F.SET_YLD_TOT_AREA.VALUE.reg, .reg F.SET_YLD_UNASSIGNED.VALUE.reg]
  | .yldCalStart _ => [.yld, .reg F.SET_YLD_CAL.FACTOR.reg]
  | .yldCalStop _ => [.yld, .reg F.SET_YLD_CAL.FACTOR.reg]
  | .yldCalFlushComplete _ => [.reg F.SET_YLD_CAL.FACTOR.reg, .reg F.SET_YLD_CAL_MASS.KG.reg]
  | .yldCalWeight _ _ => [.yld, .reg F.SET_YLD_CAL.FACTOR.reg, .reg F.SET_YLD_CAL_WT.KG.reg]
  | .yldCalAbort _ => [.yld, .reg F.SET_YLD_CAL.FACTOR.reg]
  | .yldCalCommit _ _ => [.ledger, .yld, .cal, .reg F.SET_YLD_CAL.FACTOR.reg, .reg F.CAL_STATUS.BUSY.reg]
  | .yldCalClear _ => [.yld, .reg F.SET_YLD_CAL.FACTOR.reg]
  | .sensorSegment _ _ _ _ _ _ => [.grd, .reg F.PRJ_PORT.DROP.reg, .reg F.GRD_LATE.HI.reg, .reg F.GRD_XTRAP.HI.reg]
  | .sampleReassemblyTimeout _ _ _ => [.grd, .reg F.PRJ_PORT.DROP.reg]
  | .sensorSample _ _ _ => [.grd, .reg F.PRJ_PORT.DROP.reg, .reg F.GRD_LATE.HI.reg, .reg F.GRD_XTRAP.HI.reg]
  | .portStateTimer _ _ _ => [.evt, .reg F.EVT_STATUS.LOG_OVF.reg, .reg F.PRJ_PORT.DROP.reg]
  | .grindInstant _ => [.evt, .grd, .trk, .reg F.EVT_STATUS.LOG_OVF.reg, .reg F.SET_STATUS.ANY_OVERRUN.reg, .reg F.PRJ_STATUS.GATED.reg,
      .reg F.FEA_CNT.L_DROP.reg, .reg F.TRK_STOP.CLASS_D.reg, .reg F.GRD_STATUS.NO_OBST.reg]
  | .gatherClose _ _ _ _ _ _ => [.xng, .grd, .reg F.PRJ_STATUS.GATED.reg, .reg F.PRJ_RATE.PEAK.reg, .reg F.PRJ_GROUND.FILLED.reg,
      .reg F.FEA_LOAD.S.reg, .reg F.GRD_XTRAP.HI.reg]
  | .featureChunkReceived _ _ => [.grd]
  | .grindPublish _ _ _ _ => [.evt, .dram, .grd, .reg F.EVT_STATUS.LOG_OVF.reg, .reg F.PRJ_STATUS.GATED.reg, .reg F.GRD_STATUS.NO_OBST.reg,
      .reg F.GRD_CYCLE.CYCLE.reg, .reg F.GRD_BUF.ADDR.reg, .reg F.GRD_PUB.MAX.reg, .reg F.GRD_MISS.HI.reg, .reg F.GRD_PVAL.VALUE.reg,
      .reg F.GRD_PQ.AGE.reg]
  | .grindDeadline _ => [.evt, .grd, .reg F.EVT_STATUS.LOG_OVF.reg, .reg F.GRD_STATUS.NO_OBST.reg, .reg F.GRD_MISS.HI.reg]
  | .gradeRise _ => [.evt, .trk, .reg F.EVT_STATUS.LOG_OVF.reg, .reg F.SET_STATUS.ANY_OVERRUN.reg, .reg F.TRK_STOP.CLASS_D.reg,
      .reg F.GRD_STATUS.NO_OBST.reg]
  | .grindRateChange _ => [.evt, .reg F.EVT_STATUS.LOG_OVF.reg, .reg F.FEA_STATUS.HALF_CLK.reg, .reg F.GRD_STATUS.NO_OBST.reg]
  | .productStale _ => [.evt, .reg F.EVT_STATUS.LOG_OVF.reg, .reg F.GRD_PQ.AGE.reg]
  | .modelLoad _ _ => [.reg F.FEA_MODEL.LOADING.reg, .reg F.FEA_MRES.RES.reg]
  | .modelLoadComplete _ _ _ => [.evt, .trk, .reg F.EVT_STATUS.LOG_OVF.reg, .reg F.FEA_MODEL.LOADING.reg, .reg F.FEA_MRES.RES.reg,
      .reg F.TRK_STOP.CLASS_D.reg, .reg F.GRD_STATUS.NO_OBST.reg, .reg F.GRD_PQ.AGE.reg]
  | .grainAnalysis _ _ _ _ => [.grd]
  | .prjKnock _ _ _ => [.evt, .reg F.EVT_STATUS.LOG_OVF.reg, .reg F.PRJ_STATUS.GATED.reg]
  | .feaKnock _ _ _ _ => [.evt, .grd, .reg F.EVT_STATUS.LOG_OVF.reg, .reg F.FEA_CNT.L_DROP.reg, .reg F.GRD_MISS.HI.reg]
  | .prjClrCnt _ _ => [.reg F.PRJ_RATE.PEAK.reg, .reg F.PRJ_PORT.DROP.reg]
  | .feaClrCnt _ _ => [.reg F.FEA_CNT.L_DROP.reg]
  | .grdClrCnt _ _ => [.reg F.GRD_PUB.MAX.reg, .reg F.GRD_LATE.HI.reg, .reg F.GRD_XTRAP.HI.reg, .reg F.GRD_MISS.HI.reg]
  | .trackCycle _ _ _ => [.evt, .dram, .trk, .reg F.EVT_STATUS.LOG_OVF.reg, .reg F.TRK_STATUS.IGN_REFUSED.reg, .reg F.TRK_STOP.CLASS_D.reg,
      .reg F.TRK_STOP_CFG.D_STOP.reg, .reg F.TRK_CYCLE.VALUE.reg, .reg F.TRK_BUF.VALUE.reg, .reg F.TRK_CNT.FULL.reg]
  | .lateDetection _ _ _ => [.evt, .grd, .trk, .reg F.EVT_STATUS.LOG_OVF.reg, .reg F.TRK_STATUS.IGN_REFUSED.reg, .reg F.TRK_CNT.FULL.reg]
  | .stopLevelFall _ _ => [.evt, .trk, .reg F.EVT_STATUS.LOG_OVF.reg, .reg F.TRK_STOP.CLASS_D.reg]
  | .stopHoldExpiry _ => [.trk, .reg F.TRK_STOP.CLASS_D.reg]
  | .trackIgnore _ _ _ => [.evt, .dram, .trk, .reg F.EVT_STATUS.LOG_OVF.reg, .reg F.TRK_STATUS.IGN_REFUSED.reg, .reg F.TRK_STOP.CLASS_D.reg,
      .reg F.TRK_STOP_CFG.D_STOP.reg, .reg F.TRK_CYCLE.VALUE.reg, .reg F.TRK_BUF.VALUE.reg]
  | .trkClrCnt _ _ => [.reg F.TRK_CNT.FULL.reg]
  | .antennaState _ _ _ => [.evt, .reg F.EVT_STATUS.LOG_OVF.reg, .reg F.GNS_ANT.STATE.reg]
  | .antennaBiasRetry _ => [.reg F.GNS_ANT.STATE.reg]
  | .notchDetect _ _ _ _ => [.evt, .gns, .reg F.EVT_STATUS.LOG_OVF.reg, .reg F.GNS_RF.JAM_DB.reg]
  | .notchRelease _ _ _ => [.evt, .gns, .reg F.EVT_STATUS.LOG_OVF.reg, .reg F.GNS_RF.JAM_DB.reg]
  | .jamLevel _ _ _ _ => [.evt, .reg F.EVT_STATUS.LOG_OVF.reg, .reg F.GNS_RF.JAM_DB.reg]
  | .acqGo _ _ _ => [.reg F.GNS_ACQ_CMD.N.reg, .reg F.GNS_ACQ_STATUS.BUSY.reg]
  | .acqEntryComplete _ _ _ _ _ _ _ => [.evt, .dram, .gns, .reg F.EVT_STATUS.LOG_OVF.reg, .reg F.GNS_STATUS.BB_SUSPECT.reg,
      .reg F.GNS_CH_CFG.SV.reg, .reg F.GNS_CH_CARR.RATE.reg, .reg F.GNS_CH_CODE.RATE.reg, .reg F.GNS_CH_STATUS.STATE.reg,
      .reg F.GNS_ACQ_STATUS.BUSY.reg]
  | .acqKnock _ _ => [.evt, .dram, .reg F.EVT_STATUS.LOG_OVF.reg, .reg F.GNS_ACQ_STATUS.BUSY.reg]
  | .chStart _ _ => [.gns, .reg F.GNS_STATUS.BB_SUSPECT.reg, .reg F.GNS_CH_STATUS.STATE.reg]
  | .chStop _ _ => [.reg F.GNS_STATUS.BB_SUSPECT.reg, .reg F.GNS_CH_STATUS.STATE.reg]
  | .chKnock _ _ => [.reg F.GNS_STATUS.BB_SUSPECT.reg, .reg F.GNS_CH_STATUS.STATE.reg]
  | .chCommit _ _ _ => [.gns, .reg F.GNS_CH_CODE.RATE.reg]
  | .chIntegrationDump _ _ _ _ => [.evt, .dram, .gns, .reg F.EVT_STATUS.LOG_OVF.reg, .reg F.GNS_STATUS.BB_SUSPECT.reg,
      .reg F.GNS_DUMP_HEAD.VALUE.reg, .reg F.GNS_CNT.LATE.reg, .reg F.GNS_CH_SLEW.EPOCHS.reg, .reg F.GNS_CH_STATUS.STATE.reg]
  | .measurementLatch _ => [.dram, .gns, .reg F.GNS_STATUS.BB_SUSPECT.reg, .reg F.GNS_LAT_BUF.VALUE.reg, .reg F.GNS_LAT_SEQ.VALUE.reg]
  | .measRateWrite _ _ _ => [.gns, .reg F.GNS_MEAS_CFG.ELEV_MASK.reg]
  | .measRateApply => [.gns, .reg F.GNS_MEAS_CFG.ELEV_MASK.reg]
  | .measurementRecord _ _ _ _ _ => [.evt, .dram, .gns, .reg F.EVT_STATUS.LOG_OVF.reg, .reg F.GNS_MREC_OWN.VALUE.reg, .reg F.GNS_CNT.LATE.reg]
  | .siblingRecordReceived _ _ _ => [.evt, .dram, .gns, .reg F.EVT_STATUS.LOG_OVF.reg, .reg F.GNS_STATUS.BB_SUSPECT.reg,
      .reg F.GNS_MREC_SIB.VALUE.reg, .reg F.GNS_CNT.LATE.reg]
  | .positionSolution _ _ => [.evt, .uin, .gns, .reg F.EVT_STATUS.LOG_OVF.reg, .reg F.UIN_VALUE.VALUE.reg, .reg F.UIN_STATUS.BIND.reg,
      .reg F.UIN_STAMP_LO.T.reg, .reg F.UIN_STAMP_HI.T.reg, .reg F.UIN_CNT.REJECT.reg, .reg F.UIN_BVAL.VALUE.reg, .reg F.UIN_BQ.AGE.reg,
      .reg F.GNS_STATUS.BB_SUSPECT.reg, .reg F.GNS_POS_LAT.VALUE.reg, .reg F.GNS_POS_LON.VALUE.reg, .reg F.GNS_POS_HGT.VALUE.reg,
      .reg F.GNS_POS_FINE.SIG_H.reg, .reg F.GNS_POS_VEL.COURSE.reg, .reg F.GNS_CNT.LATE.reg]
  | .headingSolution _ _ _ _ _ _ => [.evt, .gns, .reg F.EVT_STATUS.LOG_OVF.reg, .reg F.GNS_STATUS.BB_SUSPECT.reg, .reg F.GNS_HDG.VALID.reg]
  | .posePublish _ _ _ => [.evt, .uin, .dram, .pose, .grd, .trk, .gns, .reg F.EVT_STATUS.LOG_OVF.reg, .reg F.SET_STATUS.ANY_OVERRUN.reg,
      .reg F.UIN_VALUE.VALUE.reg, .reg F.UIN_STATUS.BIND.reg, .reg F.UIN_STAMP_LO.T.reg, .reg F.UIN_STAMP_HI.T.reg, .reg F.UIN_CNT.REJECT.reg,
      .reg F.UIN_BVAL.VALUE.reg, .reg F.UIN_BQ.AGE.reg, .reg F.GNS_STATUS.BB_SUSPECT.reg, .reg F.GNS_PSE_BUF.ADDR.reg, .reg F.TRK_STOP.CLASS_D.reg,
      .reg F.GRD_STATUS.NO_OBST.reg]
  | .exclusionReadmit _ _ _ => [.gns]
  | .bbSuspectClear _ => [.reg F.GNS_STATUS.BB_SUSPECT.reg]
  | .imuFault _ _ => [.evt, .grd, .trk, .gns, .reg F.EVT_STATUS.LOG_OVF.reg, .reg F.SET_STATUS.ANY_OVERRUN.reg, .reg F.GNS_STATUS.BB_SUSPECT.reg,
      .reg F.TRK_STOP.CLASS_D.reg, .reg F.GRD_STATUS.NO_OBST.reg]
  | .correctionFrame _ _ _ => [.evt, .gns, .reg F.EVT_STATUS.LOG_OVF.reg, .reg F.GNS_STATUS.BB_SUSPECT.reg, .reg F.GNS_CORR_STAT.BUSY.reg]
  | .correctionSourceTimeout _ => [.evt, .gns, .reg F.EVT_STATUS.LOG_OVF.reg, .reg F.GNS_CORR_STAT.BUSY.reg]
  | .timeAid _ _ _ => [.evt, .tim, .gns, .reg F.EVT_STATUS.LOG_OVF.reg, .reg F.TIM_CTRL.IN_DLY.reg, .reg F.TIM_STATUS.KEEPER_COAST.reg,
      .reg F.TIM_OFS.VALUE.reg, .reg F.TIM_FREQ.VALUE.reg, .reg F.TIM_CNT.STEPS.reg, .reg F.GNS_AID_TIME.GPS_S.reg]
  | .gnssCold _ _ => [.gns]
  | .gnsClrCnt _ _ => [.reg F.GNS_CNT.LATE.reg]
  | .referenceValid _ _ _ _ => [.evt, .tim, .reg F.EVT_STATUS.LOG_OVF.reg, .reg F.TIM_CTRL.IN_DLY.reg, .reg F.TIM_STATUS.KEEPER_COAST.reg,
      .reg F.TIM_OFS.VALUE.reg, .reg F.TIM_FREQ.VALUE.reg, .reg F.TIM_CNT.STEPS.reg]
  | .referenceLost _ _ => [.evt, .tim, .reg F.EVT_STATUS.LOG_OVF.reg, .reg F.TIM_CTRL.IN_DLY.reg, .reg F.TIM_STATUS.KEEPER_COAST.reg,
      .reg F.TIM_OFS.VALUE.reg, .reg F.TIM_FREQ.VALUE.reg, .reg F.TIM_CNT.STEPS.reg]
  | .timeStep => [.evt, .tim, .grd, .keeper, .reg F.EVT_STATUS.LOG_OVF.reg, .reg F.TIM_CTRL.IN_DLY.reg, .reg F.TIM_STATUS.KEEPER_COAST.reg,
      .reg F.TIM_OFS.VALUE.reg, .reg F.TIM_FREQ.VALUE.reg, .reg F.TIM_CNT.STEPS.reg, .reg F.GNS_CNT.LATE.reg, .reg F.GRD_MISS.HI.reg]
  | .slewEnd _ => [.evt, .tim, .reg F.EVT_STATUS.LOG_OVF.reg, .reg F.TIM_CTRL.IN_DLY.reg, .reg F.TIM_STATUS.KEEPER_COAST.reg,
      .reg F.TIM_OFS.VALUE.reg, .reg F.TIM_FREQ.VALUE.reg, .reg F.TIM_CNT.STEPS.reg]
  | .timeSet _ _ => [.tim, .reg F.TIM_CTRL.IN_DLY.reg, .reg F.TIM_STATUS.KEEPER_COAST.reg, .reg F.TIM_OFS.VALUE.reg, .reg F.TIM_FREQ.VALUE.reg,
      .reg F.TIM_CNT.STEPS.reg]
  | .timeRefSelect _ _ _ => [.evt, .tim, .reg F.EVT_STATUS.LOG_OVF.reg, .reg F.TIM_CTRL.IN_DLY.reg, .reg F.TIM_STATUS.KEEPER_COAST.reg,
      .reg F.TIM_OFS.VALUE.reg, .reg F.TIM_FREQ.VALUE.reg, .reg F.TIM_CNT.STEPS.reg]
  | .timeInEdge _ => [.evt, .tim, .reg F.EVT_STATUS.LOG_OVF.reg, .reg F.TIM_STATUS.KEEPER_COAST.reg, .reg F.TIM_IN_LO.T.reg, .reg F.TIM_IN_HI.T.reg,
      .reg F.TIM_CNT.STEPS.reg]
  | .timeInLost _ => [.evt, .tim, .reg F.EVT_STATUS.LOG_OVF.reg, .reg F.TIM_CTRL.IN_DLY.reg, .reg F.TIM_STATUS.KEEPER_COAST.reg,
      .reg F.TIM_OFS.VALUE.reg, .reg F.TIM_FREQ.VALUE.reg, .reg F.TIM_CNT.STEPS.reg]
  | .timePulse => [.evt, .keeper, .reg F.EVT_STATUS.LOG_OVF.reg, .reg F.TIM_STATUS.KEEPER_COAST.reg, .reg F.TIM_PPS_LO.T.reg, .reg F.TIM_PPS_HI.T.reg]
  | .timeQualityMessage _ => [.tim, .keeper]
  | .canModeWrite _ _ _ => [.evt, .reg F.EVT_STATUS.LOG_OVF.reg, .reg F.OWN_VIOL.INIT.reg, .reg F.CAN_CTRL.MODE.reg, .reg F.CAN_STATUS.LAST_ERR.reg,
      .reg F.CAN_TXST.STATE.reg]
  | .canKnock _ _ => [.evt, .can, .reg F.EVT_STATUS.LOG_OVF.reg, .reg F.OWN_VIOL.INIT.reg, .reg F.CAN_STATUS.LAST_ERR.reg, .reg F.CAN_TXST.STATE.reg]
  | .canClrLockout _ _ => [.evt, .can, .reg F.EVT_STATUS.LOG_OVF.reg, .reg F.OWN_VIOL.INIT.reg, .reg F.CAN_STATUS.LAST_ERR.reg]
  | .canClrCnt _ _ => [.evt, .reg F.EVT_STATUS.LOG_OVF.reg, .reg F.OWN_VIOL.INIT.reg, .reg F.CAN_CNT.RX_OVF.reg]
  | .canTxRequest _ _ _ => [.evt, .reg F.EVT_STATUS.LOG_OVF.reg, .reg F.OWN_VIOL.INIT.reg, .reg F.CAN_STATUS.LAST_ERR.reg, .reg F.CAN_TXST.STATE.reg]
  | .canTxAbort _ _ _ => [.evt, .can, .reg F.EVT_STATUS.LOG_OVF.reg, .reg F.OWN_VIOL.INIT.reg, .reg F.CAN_STATUS.LAST_ERR.reg,
      .reg F.CAN_TXST.STATE.reg]
  | .canArbitration _ => [.reg F.CAN_STATUS.LAST_ERR.reg, .reg F.CAN_TXST.STATE.reg]
  | .canTxComplete _ _ _ _ _ _ => [.evt, .can, .reg F.EVT_STATUS.LOG_OVF.reg, .reg F.CAN_TDC.TDCV.reg, .reg F.CAN_STATUS.LAST_ERR.reg,
      .reg F.CAN_ERRC.REC.reg, .reg F.CAN_TXST.STATE.reg, .reg F.CAN_TXB_W0.IDE.reg, .reg F.CAN_TXB_W1.ONESHOT.reg, .reg F.CAN_TXB_DATA.DATA.reg]
  | .canTxError _ _ _ _ => [.evt, .can, .reg F.EVT_STATUS.LOG_OVF.reg, .reg F.CAN_STATUS.LAST_ERR.reg, .reg F.CAN_ERRC.REC.reg,
      .reg F.CAN_TXST.STATE.reg, .reg F.CAN_CNT.RX_OVF.reg, .reg F.CAN_CLASH.KIND.reg, .reg F.CAN_TXB_W0.IDE.reg, .reg F.CAN_TXB_W1.ONESHOT.reg,
      .reg F.CAN_TXB_DATA.DATA.reg]
  | .canFrameReceived _ _ _ _ => [.evt, .uin, .can, .reg F.EVT_STATUS.LOG_OVF.reg, .reg F.UIN_VALUE.VALUE.reg, .reg F.UIN_STATUS.BIND.reg,
      .reg F.UIN_STAMP_LO.T.reg, .reg F.UIN_STAMP_HI.T.reg, .reg F.UIN_CNT.REJECT.reg, .reg F.UIN_BVAL.VALUE.reg, .reg F.UIN_BQ.AGE.reg,
      .reg F.CAN_STATUS.LAST_ERR.reg, .reg F.CAN_ERRC.REC.reg, .reg F.CAN_RXQ.HEAD.reg, .reg F.CAN_CNT.RX_OVF.reg, .reg F.CAN_CLASH.KIND.reg,
      .reg F.CAN_SIGV.VALUE.reg, .reg F.CAN_RXE_W0.IDE_RTR_ID.reg, .reg F.CAN_RXE_W1.SEQ.reg, .reg F.CAN_RXE_STAMP.STAMP.reg,
      .reg F.CAN_RXE_DATA.DATA.reg]
  | .canRxAck _ _ _ => [.evt, .can, .reg F.EVT_STATUS.LOG_OVF.reg, .reg F.OWN_VIOL.INIT.reg, .reg F.CAN_RXQ.HEAD.reg]
  | .canScheduleDue _ _ => [.can, .reg F.CAN_TXST.STATE.reg, .reg F.CAN_CNT.RX_OVF.reg, .reg F.CAN_TXB_W0.IDE.reg, .reg F.CAN_TXB_W1.ONESHOT.reg,
      .reg F.CAN_TXB_DATA.DATA.reg]
  | .canBusOff _ => [.evt, .can, .reg F.EVT_STATUS.LOG_OVF.reg, .reg F.CAN_STATUS.LAST_ERR.reg, .reg F.CAN_TXST.STATE.reg, .reg F.CAN_CNT.RX_OVF.reg]
  | .canBusOffRecovery _ => [.evt, .can, .reg F.EVT_STATUS.LOG_OVF.reg, .reg F.CAN_STATUS.LAST_ERR.reg, .reg F.CAN_ERRC.REC.reg,
      .reg F.CAN_TXST.STATE.reg, .reg F.CAN_TXB_W0.IDE.reg, .reg F.CAN_TXB_W1.ONESHOT.reg, .reg F.CAN_TXB_DATA.DATA.reg]
  | .canTrxFault _ _ _ => [.evt, .reg F.EVT_STATUS.LOG_OVF.reg, .reg F.CAN_STATUS.LAST_ERR.reg]
  | .canWake _ => [.evt, .reg F.EVT_STATUS.LOG_OVF.reg, .reg F.CAN_STATUS.LAST_ERR.reg]
  | .j1939AddressClaim _ _ _ => [.evt, .can, .reg F.EVT_STATUS.LOG_OVF.reg, .reg F.CAN_SA.EN.reg]
  | .ethLink _ _ _ => [.evt, .reg F.EVT_STATUS.LOG_OVF.reg, .reg F.ETH_PORT.ERR.reg]
  | .gmForeignAnnounce _ _ => [.evt, .flx, .reg F.EVT_STATUS.LOG_OVF.reg, .reg F.ETH_GM.FOREIGN.reg]
  | .ethClrCnt _ _ => [.reg F.ETH_PORT.ERR.reg, .reg F.ETH_GM.FOREIGN.reg, .reg F.FLX_CNT.AUTH.reg]
  | .flxOpen _ _ _ => [.flx, .reg F.FLX_SESS.ROLE.reg]
  | .flxClose _ _ => [.evt, .flx, .reg F.EVT_STATUS.LOG_OVF.reg, .reg F.FLX_STATUS.TIME_UNCHECKED.reg, .reg F.FLX_YLD.ACKED.reg,
      .reg F.FLX_CART.STALE.reg, .reg F.FLX_SESS.ROLE.reg]
  | .flxAccept _ _ _ => [.flx]
  | .flxHandshakeComplete _ _ _ _ _ _ => [.evt, .flx, .reg F.EVT_STATUS.LOG_OVF.reg, .reg F.FLX_STATUS.TIME_UNCHECKED.reg, .reg F.FLX_YLD.ACKED.reg,
      .reg F.FLX_CART.STALE.reg, .reg F.FLX_CNT.AUTH.reg, .reg F.FLX_SESS.ROLE.reg]
  | .flxMessageReceived _ _ _ _ _ _ => [.evt, .gns, .flx, .reg F.EVT_STATUS.LOG_OVF.reg, .reg F.FLX_STATUS.TIME_UNCHECKED.reg,
      .reg F.FLX_YLD.ACKED.reg, .reg F.FLX_CART.STALE.reg, .reg F.FLX_SESS.ROLE.reg, .reg F.GNS_STATUS.BB_SUSPECT.reg,
      .reg F.GNS_CORR_STAT.BUSY.reg]
  | .hello _ _ _ _ _ _ => [.evt, .flx, .reg F.EVT_STATUS.LOG_OVF.reg, .reg F.FLX_STATUS.TIME_UNCHECKED.reg, .reg F.FLX_YLD.ACKED.reg,
      .reg F.FLX_CART.STALE.reg, .reg F.FLX_CNT.AUTH.reg, .reg F.FLX_SESS.ROLE.reg]
  | .rtcm _ _ _ _ => [.evt, .gns, .flx, .reg F.EVT_STATUS.LOG_OVF.reg, .reg F.FLX_STATUS.TIME_UNCHECKED.reg, .reg F.FLX_YLD.ACKED.reg,
      .reg F.FLX_CART.STALE.reg, .reg F.FLX_SESS.ROLE.reg, .reg F.GNS_STATUS.BB_SUSPECT.reg, .reg F.GNS_CORR_STAT.BUSY.reg]
  | .cartState _ _ _ _ _ => [.evt, .gns, .flx, .reg F.EVT_STATUS.LOG_OVF.reg, .reg F.FLX_STATUS.TIME_UNCHECKED.reg, .reg F.FLX_YLD.ACKED.reg,
      .reg F.FLX_CART.STALE.reg, .reg F.FLX_SESS.ROLE.reg, .reg F.GNS_STATUS.BB_SUSPECT.reg, .reg F.GNS_CORR_STAT.BUSY.reg]
  | .flxHeartbeatSend _ _ => [.flx]
  | .flxSessionTimeout _ _ => [.evt, .flx, .reg F.EVT_STATUS.LOG_OVF.reg, .reg F.FLX_STATUS.TIME_UNCHECKED.reg, .reg F.FLX_YLD.ACKED.reg,
      .reg F.FLX_CART.STALE.reg, .reg F.FLX_CNT.AUTH.reg, .reg F.FLX_SESS.ROLE.reg]
  | .flxKeyUpdate _ _ => [.flx]
  | .status _ => [.flx]
  | .cartSync _ => [.evt, .flx, .reg F.EVT_STATUS.LOG_OVF.reg, .reg F.FLX_YLD.ACKED.reg, .reg F.FLX_CART.STALE.reg]
  | .cartStale _ => [.evt, .reg F.EVT_STATUS.LOG_OVF.reg, .reg F.FLX_CART.STALE.reg]
  | .cartSelect _ _ _ => [.evt, .flx, .reg F.EVT_STATUS.LOG_OVF.reg, .reg F.FLX_YLD.ACKED.reg, .reg F.FLX_CART.STALE.reg,
      .reg F.FLX_CART_CMD.RELEASE.reg]
  | .cartRelease _ _ => [.evt, .flx, .reg F.EVT_STATUS.LOG_OVF.reg, .reg F.FLX_YLD.ACKED.reg, .reg F.FLX_CART.STALE.reg]
  | .prepareHalf _ _ _ => [.own, .ledger, .run, .evt, .svc, .set, .opt, .vlv, .lsw, .yld, .dram, .can, .flx, .pwr, .dsp,
      .reg F.STW_SVC_STAT.STATE.reg, .reg F.EVT_STATUS.LOG_OVF.reg, .reg F.OWN_RESULT.BUSY.reg, .reg F.SET_STATE.FROZEN.reg,
      .reg F.SET_STEER_CTRL.PASS.reg, .reg F.SET_STEER_STATUS.PASS.reg, .reg F.SET_STEER_XTE.VALUE.reg, .reg F.SET_STEER_HDG.VALUE.reg,
      .reg F.SET_STEER_CURV.VALUE.reg, .reg F.SET_MF_SP.VALUE.reg, .reg F.SET_MF_MAN.VALUE.reg, .reg F.SET_MF_OUT.VALUE.reg,
      .reg F.SET_MF_CMD.ABORT.reg, .reg F.SET_OPT_CTRL.DITH_EN.reg, .reg F.SET_OPT_STATUS.TGT_CLAMP.reg, .reg F.SET_OPT_TGT_THRU.VALUE.reg,
      .reg F.SET_OPT_TGT_LOSS.VALUE.reg, .reg F.SET_OPT_TGT_DAMAGE.VALUE.reg, .reg F.SET_OPT_TGT_TRASH.VALUE.reg, .reg F.SET_OPT_PREF.PREF.reg,
      .reg F.SET_OPT_CORR.SOLVE_T.reg, .reg F.SET_YLD_CTRL.CAL_CLEAR.reg, .reg F.SET_YLD_TANK.VALUE.reg, .reg F.SET_YLD_TOT_WET.VALUE.reg,
      .reg F.SET_YLD_TOT_STD.VALUE.reg, .reg F.SET_YLD_TOT_AREA.VALUE.reg, .reg F.SET_YLD_UNASSIGNED.VALUE.reg, .reg F.SET_YLD_RING_HEAD.VALUE.reg,
      .reg F.SET_YLD_RING_TAIL.VALUE.reg, .reg F.SET_YLD_CAL.FACTOR.reg, .reg F.SET_YLD_CAL_MASS.KG.reg, .reg F.VLV_STATUS.FAULT.reg,
      .reg F.VLV_TILE.PRESENT.reg, .reg F.LSW_STATUS.FAULT.reg, .reg F.LSW_CNT.TRIPS.reg, .reg F.UIN_SS.LIMIT.reg, .reg F.CAN_STATUS.LAST_ERR.reg,
      .reg F.CAN_TXST.STATE.reg, .reg F.FLX_YLD.ACKED.reg, .reg F.FLX_SESS.ROLE.reg, .reg F.GNS_STATUS.BB_SUSPECT.reg,
      .reg F.DSP_STATUS.LVL_FAULT.reg, .reg F.PWR_FEED.CONNECT.reg, .reg F.FAN_STATUS.STALL.reg, .reg F.CAL_STATUS.BUSY.reg]
  | .prepareTile _ _ _ => [.evt, .svc, .reg F.STW_SVC_STAT.STATE.reg, .reg F.EVT_STATUS.LOG_OVF.reg]
  | .svcCancel _ _ => [.own, .bus, .fresh, .run, .evt, .xng, .shut, .frame, .svc, .tim, .set, .opt, .vlv, .lsw, .uin, .yld, .pose, .grd, .trk, .gns,
      .can, .flx, .upd, .pwr, .dsp, .latch, .regs]
  | .fanReset _ _ => [.evt, .reg F.STW_SVC_STAT.STATE.reg, .reg F.STW_LIFE_FAN.DUE.reg, .reg F.EVT_STATUS.LOG_OVF.reg]
  | .holdupReset _ _ => [.evt, .reg F.STW_SVC_STAT.STATE.reg, .reg F.STW_LIFE_HOLD.DUE.reg, .reg F.EVT_STATUS.LOG_OVF.reg]
  | .prepareTimeout => [.own, .bus, .fresh, .run, .evt, .xng, .shut, .frame, .svc, .tim, .set, .opt, .vlv, .lsw, .uin, .yld, .pose, .grd, .trk,
      .gns, .can, .flx, .upd, .pwr, .dsp, .latch, .regs]
  | .cartridgePresenceOpen _ => [.own, .run, .evt, .svc, .vlv, .lsw, .can, .pwr, .dsp, .reg F.STW_SVC_STAT.STATE.reg, .reg F.EVT_STATUS.LOG_OVF.reg,
      .reg F.OWN_RESULT.BUSY.reg, .reg F.VLV_STATUS.FAULT.reg, .reg F.VLV_TILE.PRESENT.reg, .reg F.LSW_STATUS.FAULT.reg, .reg F.LSW_CNT.TRIPS.reg,
      .reg F.UIN_SS.LIMIT.reg, .reg F.CAN_STATUS.LAST_ERR.reg, .reg F.CAN_TXST.STATE.reg, .reg F.GNS_STATUS.BB_SUSPECT.reg,
      .reg F.DSP_STATUS.LVL_FAULT.reg, .reg F.PWR_FEED.CONNECT.reg, .reg F.FAN_STATUS.STALL.reg]
  | .cartridgeInsert _ _ => [.own, .run, .evt, .roast, .shut, .svc, .tim, .opt, .yld, .dram, .gns, .upd, .regs]
  | .plannedMove _ _ => [.own, .evt, .set, .dsp, .reg F.EVT_STATUS.LOG_OVF.reg, .reg F.OWN_RESULT.BUSY.reg, .reg F.SET_STEER_CTRL.PASS.reg,
      .reg F.SET_STEER_STATUS.PASS.reg, .reg F.SET_STEER_XTE.VALUE.reg, .reg F.SET_STEER_HDG.VALUE.reg, .reg F.SET_STEER_CURV.VALUE.reg,
      .reg F.SET_MF_SP.VALUE.reg, .reg F.SET_MF_MAN.VALUE.reg, .reg F.SET_MF_OUT.VALUE.reg, .reg F.SET_MF_CMD.ABORT.reg,
      .reg F.DSP_STATUS.LVL_FAULT.reg]
  | .handbackMove => [.own, .evt, .svc, .set, .dsp, .reg F.STW_SVC_STAT.STATE.reg, .reg F.EVT_STATUS.LOG_OVF.reg, .reg F.OWN_RESULT.BUSY.reg,
      .reg F.SET_STEER_CTRL.PASS.reg, .reg F.SET_STEER_STATUS.PASS.reg, .reg F.SET_STEER_XTE.VALUE.reg, .reg F.SET_STEER_HDG.VALUE.reg,
      .reg F.SET_STEER_CURV.VALUE.reg, .reg F.SET_MF_SP.VALUE.reg, .reg F.SET_MF_MAN.VALUE.reg, .reg F.SET_MF_OUT.VALUE.reg,
      .reg F.SET_MF_CMD.ABORT.reg, .reg F.DSP_STATUS.LVL_FAULT.reg]
  | .stewardFrame _ _ _ _ => [.run, .evt, .frame, .reg F.STW_LOAD.CLR.reg, .reg F.STW_STAGE.CUP_REPORT.reg, .reg F.EVT_STATUS.LOG_OVF.reg]
  | .c3Shed _ => [.evt, .frame, .reg F.STW_LOAD.CLR.reg, .reg F.EVT_STATUS.LOG_OVF.reg]
  | .c2Pause _ => [.evt, .frame, .reg F.STW_LOAD.CLR.reg, .reg F.EVT_STATUS.LOG_OVF.reg]
  | .stwLoadClear _ _ => [.reg F.STW_LOAD.CLR.reg]
  | .watchdogService _ _ _ => [.own, .run, .evt, .frame, .vlv, .lsw, .can, .pwr, .dsp, .reg F.EVT_STATUS.LOG_OVF.reg, .reg F.OWN_RESULT.BUSY.reg,
      .reg F.VLV_STATUS.FAULT.reg, .reg F.VLV_TILE.PRESENT.reg, .reg F.LSW_STATUS.FAULT.reg, .reg F.LSW_CNT.TRIPS.reg, .reg F.UIN_SS.LIMIT.reg,
      .reg F.CAN_STATUS.LAST_ERR.reg, .reg F.CAN_TXST.STATE.reg, .reg F.GNS_STATUS.BB_SUSPECT.reg, .reg F.DSP_STATUS.LVL_FAULT.reg,
      .reg F.PWR_FEED.CONNECT.reg, .reg F.FAN_STATUS.STALL.reg]
  | .watchdogExpiry _ => [.own, .run, .evt, .vlv, .lsw, .can, .pwr, .dsp, .reg F.EVT_STATUS.LOG_OVF.reg, .reg F.OWN_RESULT.BUSY.reg,
      .reg F.VLV_STATUS.FAULT.reg, .reg F.VLV_TILE.PRESENT.reg, .reg F.LSW_STATUS.FAULT.reg, .reg F.LSW_CNT.TRIPS.reg, .reg F.UIN_SS.LIMIT.reg,
      .reg F.CAN_STATUS.LAST_ERR.reg, .reg F.CAN_TXST.STATE.reg, .reg F.GNS_STATUS.BB_SUSPECT.reg, .reg F.DSP_STATUS.LVL_FAULT.reg,
      .reg F.PWR_FEED.CONNECT.reg, .reg F.FAN_STATUS.STALL.reg]
  | .eventRaise _ _ _ => [.evt, .reg F.EVT_STATUS.LOG_OVF.reg]
  | .eventRecordDelivery _ => [.evt, .xng, .vlv, .lsw, .uin, .dram, .can, .reg F.EVT_STATUS.LOG_OVF.reg, .reg F.EVT_LOG_HEAD.VALUE.reg,
      .reg F.EVT_VPEND.V.reg, .reg F.VLV_STATUS.FAULT.reg, .reg F.LSW_STATUS.FAULT.reg, .reg F.UIN_VALUE.VALUE.reg, .reg F.UIN_STATUS.BIND.reg,
      .reg F.UIN_CNT.REJECT.reg, .reg F.UIN_BVAL.VALUE.reg, .reg F.UIN_BQ.AGE.reg, .reg F.CAN_STATUS.LAST_ERR.reg, .reg F.CAN_TXST.STATE.reg]
  | .evtClrCnt _ _ => [.reg F.EVT_STATUS.LOG_OVF.reg]
  | .knockCmd _ _ _ _ _ _ => [.own, .bus, .fresh, .run, .evt, .xng, .roast, .act, .shut, .frame, .tim, .set, .opt, .vlv, .lsw, .uin, .yld, .dram,
      .pose, .grd, .trk, .gns, .can, .flx, .upd, .pwr, .dsp, .latch, .regs]
  | .knockComplete _ _ => [.reg F.EVT_KNOCK_RES.BUSY.reg]
  | .knockEscalation _ _ => [.evt, .reg F.EVT_STATUS.LOG_OVF.reg, .reg F.EVT_KNOCK_RES.BUSY.reg, .reg F.FEA_CNT.L_DROP.reg]
  | .updOpen _ _ _ => [.fresh, .evt, .upd, .reg F.EVT_STATUS.LOG_OVF.reg, .reg F.UPD_RESULT.BUSY.reg, .reg F.UPD_HOLDER.SOURCE.reg,
      .reg F.UPD_SESS.STATE.reg, .reg F.UPD_CNT.REFUSED.reg]
  | .updBlock _ _ _ => [.own, .evt, .roast, .upd, .dsp, .reg F.STW_STAGE.CUP_REPORT.reg, .reg F.EVT_STATUS.LOG_OVF.reg, .reg F.OWN_RESULT.BUSY.reg,
      .reg F.DSP_STATUS.LVL_FAULT.reg, .reg F.UPD_RESULT.BUSY.reg, .reg F.UPD_SESS.STATE.reg, .reg F.UPD_REGION.VALID.reg,
      .reg F.UPD_VER.VERSION.reg, .reg F.UPD_CNT.REFUSED.reg]
  | .updClose _ _ _ => [.upd, .reg F.UPD_RESULT.BUSY.reg, .reg F.UPD_SESS.STATE.reg]
  | .updCheckComplete _ _ => [.evt, .roast, .upd, .reg F.STW_STAGE.CUP_REPORT.reg, .reg F.EVT_STATUS.LOG_OVF.reg, .reg F.UPD_RESULT.BUSY.reg,
      .reg F.UPD_SESS.STATE.reg, .reg F.UPD_REGION.VALID.reg, .reg F.UPD_VER.VERSION.reg, .reg F.UPD_CNT.REFUSED.reg, .reg F.KEY_STATUS.ROOT_OK.reg,
      .reg F.KEY_NONCE.NONCE.reg, .reg F.KEY_SERIAL.VALUE.reg, .reg F.KEY_DEVID.VALUE.reg, .reg F.KEY_OEM.VALUE.reg]
  | .updRestart _ => [.own, .bus, .fresh, .run, .evt, .xng, .shut, .frame, .tim, .set, .opt, .vlv, .lsw, .uin, .yld, .pose, .grd, .trk, .gns, .can,
      .flx, .upd, .pwr, .dsp, .latch, .regs]
  | .updAbort _ _ _ => [.evt, .upd, .reg F.STW_STAGE.CUP_REPORT.reg, .reg F.EVT_STATUS.LOG_OVF.reg, .reg F.UPD_RESULT.BUSY.reg,
      .reg F.UPD_SESS.STATE.reg, .reg F.UPD_CNT.REFUSED.reg]
  | .updSessionTimeout _ _ => [.evt, .upd, .reg F.STW_STAGE.CUP_REPORT.reg, .reg F.EVT_STATUS.LOG_OVF.reg, .reg F.UPD_RESULT.BUSY.reg,
      .reg F.UPD_SESS.STATE.reg, .reg F.UPD_CNT.REFUSED.reg]
  | .updClrCnt _ _ => [.reg F.UPD_CNT.REFUSED.reg]
  | .siblingRestore _ _ => [.own, .fresh, .evt, .upd, .dsp, .reg F.STW_STAGE.CUP_REPORT.reg, .reg F.EVT_STATUS.LOG_OVF.reg,
      .reg F.OWN_RESULT.BUSY.reg, .reg F.DSP_STATUS.LVL_FAULT.reg, .reg F.UPD_RESULT.BUSY.reg, .reg F.UPD_HOLDER.SOURCE.reg,
      .reg F.UPD_SESS.STATE.reg, .reg F.UPD_REGION.VALID.reg, .reg F.UPD_VER.VERSION.reg, .reg F.UPD_CNT.REFUSED.reg]
  | .debugUnlock _ => [.own, .fresh, .run, .evt, .vlv, .lsw, .can, .upd, .pwr, .dsp, .reg F.EVT_STATUS.LOG_OVF.reg, .reg F.OWN_RESULT.BUSY.reg,
      .reg F.VLV_STATUS.FAULT.reg, .reg F.VLV_TILE.PRESENT.reg, .reg F.LSW_STATUS.FAULT.reg, .reg F.LSW_CNT.TRIPS.reg, .reg F.UIN_SS.LIMIT.reg,
      .reg F.CAN_STATUS.LAST_ERR.reg, .reg F.CAN_TXST.STATE.reg, .reg F.GNS_STATUS.BB_SUSPECT.reg, .reg F.DSP_STATUS.LVL_FAULT.reg,
      .reg F.PWR_FEED.CONNECT.reg, .reg F.FAN_STATUS.STALL.reg, .reg F.KEY_STATUS.ROOT_OK.reg, .reg F.KEY_NONCE.NONCE.reg,
      .reg F.KEY_DBG_STAT.RES.reg]
  | .debugExpiry _ => [.own, .run, .evt, .vlv, .lsw, .can, .upd, .pwr, .dsp, .reg F.EVT_STATUS.LOG_OVF.reg, .reg F.OWN_RESULT.BUSY.reg,
      .reg F.VLV_STATUS.FAULT.reg, .reg F.VLV_TILE.PRESENT.reg, .reg F.LSW_STATUS.FAULT.reg, .reg F.LSW_CNT.TRIPS.reg, .reg F.UIN_SS.LIMIT.reg,
      .reg F.CAN_STATUS.LAST_ERR.reg, .reg F.CAN_TXST.STATE.reg, .reg F.GNS_STATUS.BB_SUSPECT.reg, .reg F.DSP_STATUS.LVL_FAULT.reg,
      .reg F.PWR_FEED.CONNECT.reg, .reg F.FAN_STATUS.STALL.reg, .reg F.KEY_STATUS.ROOT_OK.reg]
  | .calTokenRequest _ _ _ => [.cal, .reg F.CAL_TOKEN.TOKEN.reg, .reg F.CAL_STATUS.BUSY.reg]
  | .calKeyOffer _ _ _ => [.cal, .reg F.CAL_LOCK.HOLDER.reg, .reg F.CAL_TOKEN.TOKEN.reg]
  | .calLockClose _ _ => [.cal, .reg F.CAL_LOCK.HOLDER.reg, .reg F.CAL_TOKEN.TOKEN.reg]
  | .calLockTimeout => [.cal, .reg F.CAL_LOCK.HOLDER.reg, .reg F.CAL_TOKEN.TOKEN.reg]
  | .ledgerWrite _ _ _ _ _ => [.ledger, .cal, .reg F.CAL_STATUS.BUSY.reg]
  | .ledgerRestore _ _ _ _ => [.ledger, .cal, .reg F.CAL_STATUS.BUSY.reg]
  | .logicInStateChange _ _ _ => [.evt, .pwr, .dsp, .latch, .reg F.EVT_STATUS.LOG_OVF.reg, .reg F.DSP_STATUS.LVL_FAULT.reg,
      .reg F.PWR_STATUS.LAST_LOSS.reg, .reg F.PWR_LOGIC.I.reg, .reg F.PWR_HOLDUP.READY.reg, .reg F.FAN_STATUS.STALL.reg, .reg F.PWR_CNT.HOLDUP.reg]
  | .powerFail _ _ _ => [.own, .ledger, .fresh, .run, .evt, .shut, .tim, .opt, .vlv, .lsw, .yld, .gns, .can, .flx, .pwr, .dsp, .latch,
      .reg F.STW_HOLD.HOLD_LEFT.reg, .reg F.EVT_STATUS.LOG_OVF.reg, .reg F.OWN_RESULT.BUSY.reg, .reg F.VLV_STATUS.FAULT.reg,
      .reg F.VLV_TILE.PRESENT.reg, .reg F.LSW_STATUS.FAULT.reg, .reg F.LSW_CNT.TRIPS.reg, .reg F.UIN_SS.LIMIT.reg, .reg F.CAN_STATUS.LAST_ERR.reg,
      .reg F.CAN_TXST.STATE.reg, .reg F.FLX_STATUS.TIME_UNCHECKED.reg, .reg F.FLX_YLD.ACKED.reg, .reg F.FLX_CART.STALE.reg,
      .reg F.FLX_SESS.ROLE.reg, .reg F.GNS_STATUS.BB_SUSPECT.reg, .reg F.DSP_STATUS.LVL_FAULT.reg, .reg F.PWR_STATUS.LAST_LOSS.reg,
      .reg F.PWR_FEED.CONNECT.reg, .reg F.FAN_STATUS.STALL.reg, .reg F.CAL_STATUS.BUSY.reg, .reg F.CUP_STATUS.CLEAR_DONE.reg,
      .reg F.CUP_SUMMARY.SKIPPED.reg, .reg F.CUP_RUN.DURATION.reg, .reg F.CUP_REC_W0.VDEV.reg, .reg F.CUP_REC_W1.COUNT.reg,
      .reg F.CUP_REC_W2.SYNDROME.reg, .reg F.CUP_REC_W3.DURATION.reg]
  | .powerFailRecovery _ => [.own, .bus, .fresh, .run, .evt, .xng, .shut, .frame, .tim, .set, .opt, .uin, .yld, .pose, .grd, .trk, .gns, .flx, .upd,
      .pwr, .latch, .regs]
  | .holdupReady _ => [.reg F.PWR_HOLDUP.READY.reg]
  | .feedMeasurement _ _ _ => [.reg F.PWR_FEED.CONNECT.reg]
  | .fuseOpen _ _ _ => [.evt, .lsw, .reg F.EVT_STATUS.LOG_OVF.reg, .reg F.LSW_STATUS.FAULT.reg, .reg F.PWR_FEED.CONNECT.reg]
  | .feedConnect _ _ _ _ => [.evt, .reg F.EVT_STATUS.LOG_OVF.reg, .reg F.OWN_VIOL.INIT.reg, .reg F.PWR_FEED.CONNECT.reg]
  | .pwrClrCnt _ _ => [.evt, .reg F.EVT_STATUS.LOG_OVF.reg, .reg F.OWN_VIOL.INIT.reg, .reg F.PWR_CNT.HOLDUP.reg]
  | .derateChange _ => [.evt, .pwr, .reg F.EVT_STATUS.LOG_OVF.reg, .reg F.PWR_STATUS.LAST_LOSS.reg, .reg F.PWR_TEMP.SENSOR_FAULT.reg]
  | .coolingOverride _ => [.evt, .pwr, .reg F.EVT_STATUS.LOG_OVF.reg, .reg F.PWR_SHDN.ASSERTED.reg, .reg F.FAN_STATUS.STALL.reg]
  | .sysShdnAssert _ => [.evt, .vlv, .lsw, .can, .pwr, .dsp, .reg F.EVT_STATUS.LOG_OVF.reg, .reg F.VLV_STATUS.FAULT.reg,
      .reg F.LSW_STATUS.FAULT.reg, .reg F.LSW_CNT.TRIPS.reg, .reg F.UIN_SS.LIMIT.reg, .reg F.CAN_STATUS.LAST_ERR.reg, .reg F.CAN_TXST.STATE.reg,
      .reg F.DSP_STATUS.LVL_FAULT.reg, .reg F.PWR_FEED.CONNECT.reg, .reg F.PWR_SHDN.ASSERTED.reg, .reg F.FAN_STATUS.STALL.reg,
      .reg F.PWR_CNT.HOLDUP.reg]
  | .sysShdnHalfReset => [.own, .run, .evt, .vlv, .lsw, .can, .pwr, .dsp, .reg F.EVT_STATUS.LOG_OVF.reg, .reg F.OWN_RESULT.BUSY.reg,
      .reg F.VLV_STATUS.FAULT.reg, .reg F.VLV_TILE.PRESENT.reg, .reg F.LSW_STATUS.FAULT.reg, .reg F.LSW_CNT.TRIPS.reg, .reg F.UIN_SS.LIMIT.reg,
      .reg F.CAN_STATUS.LAST_ERR.reg, .reg F.CAN_TXST.STATE.reg, .reg F.GNS_STATUS.BB_SUSPECT.reg, .reg F.DSP_STATUS.LVL_FAULT.reg,
      .reg F.PWR_FEED.CONNECT.reg, .reg F.FAN_STATUS.STALL.reg]
  | .sysShdnRelease _ => [.own, .bus, .fresh, .run, .evt, .xng, .shut, .frame, .tim, .set, .opt, .uin, .yld, .pose, .grd, .trk, .gns, .flx, .upd,
      .pwr, .latch, .regs]
  | .sysShdnExternal _ => [.evt, .reg F.EVT_STATUS.LOG_OVF.reg, .reg F.PWR_SHDN.ASSERTED.reg]
  | .coolantTemperatureWarning _ _ _ => [.evt, .pwr, .reg F.EVT_STATUS.LOG_OVF.reg, .reg F.PWR_STATUS.LAST_LOSS.reg,
      .reg F.PWR_TEMP.SENSOR_FAULT.reg, .reg F.FAN_STATUS.STALL.reg]
  | .fanFrame _ => [.pwr, .reg F.FAN_STATUS.STALL.reg]
  | .fanSpeedMeasure _ _ _ => [.fresh, .evt, .pwr, .reg F.EVT_STATUS.LOG_OVF.reg, .reg F.FAN_STATUS.STALL.reg]
  | .fanSuspect _ _ => [.evt, .pwr, .reg F.EVT_STATUS.LOG_OVF.reg, .reg F.FAN_STATUS.STALL.reg, .reg F.PWR_CNT.HOLDUP.reg]
  | .fanKickEnd _ _ => [.evt, .pwr, .reg F.EVT_STATUS.LOG_OVF.reg, .reg F.FAN_STATUS.STALL.reg]
  | .fanRekick _ => [.pwr, .reg F.FAN_STATUS.STALL.reg, .reg F.PWR_CNT.HOLDUP.reg]
  | .fanCommand _ _ _ => [.evt, .pwr, .reg F.EVT_STATUS.LOG_OVF.reg, .reg F.OWN_VIOL.INIT.reg, .reg F.FAN_CMD.MANUAL.reg, .reg F.FAN_STATUS.STALL.reg]
  | .segmentFrame _ _ _ => [.evt, .dsp, .reg F.EVT_STATUS.LOG_OVF.reg, .reg F.DSP_STATUS.LVL_FAULT.reg, .reg F.DSP_LEVEL.V1_DEV.reg]
  | .segmentLatch _ _ => [.evt, .dsp, .reg F.EVT_STATUS.LOG_OVF.reg, .reg F.OWN_VIOL.INIT.reg]
  | .symbolEvaluation _ => [.dsp, .reg F.DSP_SEG.BITS.reg]
  | .panelLoad _ _ => [.evt, .dsp, .reg F.EVT_STATUS.LOG_OVF.reg, .reg F.OWN_VIOL.INIT.reg, .reg F.DSP_STATUS.LVL_FAULT.reg]
  | .panelCopyComplete => [.dsp, .reg F.DSP_STATUS.LVL_FAULT.reg]
  | .panelEnable _ _ _ => [.evt, .dsp, .reg F.EVT_STATUS.LOG_OVF.reg, .reg F.OWN_VIOL.INIT.reg, .reg F.DSP_CTRL.PNL_EN.reg,
      .reg F.DSP_STATUS.LVL_FAULT.reg]
  | .panelSequenceStep => [.evt, .dsp, .reg F.EVT_STATUS.LOG_OVF.reg, .reg F.DSP_STATUS.LVL_FAULT.reg]
  | .safeOffAssert _ => [.evt, .vlv, .lsw, .can, .dsp, .reg F.EVT_STATUS.LOG_OVF.reg, .reg F.VLV_STATUS.FAULT.reg, .reg F.LSW_STATUS.FAULT.reg,
      .reg F.CAN_STATUS.LAST_ERR.reg, .reg F.CAN_TXST.STATE.reg, .reg F.DSP_STATUS.LVL_FAULT.reg, .reg F.FAN_STATUS.STALL.reg,
      .reg F.PWR_SAFE.DISC.reg]
  | .safeOffRelease _ => [.evt, .vlv, .lsw, .can, .dsp, .reg F.EVT_STATUS.LOG_OVF.reg, .reg F.VLV_STATUS.FAULT.reg, .reg F.LSW_STATUS.FAULT.reg,
      .reg F.CAN_STATUS.LAST_ERR.reg, .reg F.CAN_TXST.STATE.reg, .reg F.DSP_STATUS.LVL_FAULT.reg, .reg F.FAN_STATUS.STALL.reg,
      .reg F.PWR_SAFE.DISC.reg]
  | .safeOffDiscrepancy => [.evt, .vlv, .lsw, .can, .dsp, .reg F.EVT_STATUS.LOG_OVF.reg, .reg F.VLV_STATUS.FAULT.reg, .reg F.LSW_STATUS.FAULT.reg,
      .reg F.CAN_STATUS.LAST_ERR.reg, .reg F.CAN_TXST.STATE.reg, .reg F.DSP_STATUS.LVL_FAULT.reg, .reg F.FAN_STATUS.STALL.reg,
      .reg F.PWR_SAFE.DISC.reg]
  | .realtimePermitRefresh _ _ => [.run]
  | .canRxError _ _ _ => [.evt, .reg F.EVT_STATUS.LOG_OVF.reg, .reg F.CAN_STATUS.LAST_ERR.reg, .reg F.CAN_ERRC.REC.reg]
  | .dm1Broadcast _ _ _ => [.can, .reg F.CAN_TXST.STATE.reg, .reg F.CAN_TXB_W0.IDE.reg, .reg F.CAN_TXB_W1.ONESHOT.reg, .reg F.CAN_TXB_DATA.DATA.reg]
  | .mirrorRefresh _ _ => [.evt, .xng, .opt, .flx, .reg F.SET_STATE.FROZEN.reg, .reg F.SET_OPT_CTRL.DITH_EN.reg,
      .reg F.SET_OPT_STATUS.TGT_CLAMP.reg, .reg F.SET_OPT_TGT_THRU.VALUE.reg, .reg F.SET_OPT_TGT_LOSS.VALUE.reg,
      .reg F.SET_OPT_TGT_DAMAGE.VALUE.reg, .reg F.SET_OPT_TGT_TRASH.VALUE.reg, .reg F.SET_OPT_PREF.PREF.reg, .reg F.SET_OPT_CORR.SOLVE_T.reg,
      .reg F.FLX_YLD.ACKED.reg]
  | .twinScaleMergeEnd _ => [.evt, .vlv, .reg F.EVT_STATUS.LOG_OVF.reg, .reg F.VLV_STATUS.FAULT.reg]
  | .greenRampEnd _ => [.vlv, .pwr, .reg F.VLV_STATUS.FAULT.reg, .reg F.FAN_STATUS.STALL.reg]
  | .supplyClassSelect _ => [.pwr, .reg F.PWR_STATUS.LAST_LOSS.reg]
  | .fanKickPauseEnd _ => [.pwr, .reg F.FAN_STATUS.STALL.reg, .reg F.PWR_CNT.HOLDUP.reg]

end Sys2Proof.Machine
end

