-- ==== Sys2Proof/Certificates/Slice0/Obligations.lean ====
section
/-!
DEFINITION. The statements for the provers. Each clause of the per-chapter statements says that a command completes and what holds of the
state it leaves, under hypotheses on the state and the operands alone.
-/

section Statements
open Sys2Proof Sys2Proof.Machine

/-- A step with command c at the front of the queue is exec of c on the state with the queue's rest; with no command waiting it is the
tick (log entry 2: the model's choice). -/
def Obligations.stepRunsTheFront : Prop :=
  (∀ (s : State) (c : Instr) (rest : List Instr), s.pending = c :: rest → step s = exec c { s with pending := rest }) ∧
  (∀ s : State, s.pending = [] → step s = .next s.tick ∧ s.tick.w.now = s.w.now + 1000 ∧ s.tick.own = s.own ∧ s.tick.ledger = s.ledger ∧
    s.tick.bus = s.bus ∧ s.tick.pending = [])

/-- Every command completes on every state, and changes no part of the state outside its footprint: neither the queue, nor a unit, nor a
register that is not listed for it, at any index and in either half. -/
def Obligations.frameOfEveryCommand : Prop :=
  ∀ (c : Instr) (s : State), Completes c s fun t =>
    t.pending = s.pending ∧ t.rest (footprint c) = s.rest (footprint c) ∧
    ∀ h f i, f.reg < 2 ^ 25 → partIn (footprint c) (.reg f.reg) = false → t.w.reg h f i = s.w.reg h f i

/-- The invariant (R17, R23, R27, R28, R32, R33): a canonical Ledger, boundary FIFOs of at most 8 posted writes with a stall only behind a
full one, tokens that leave ORPHAN only for objects, that pass only to a half whose alive line is high, SERVER only with such a half. Every
step keeps it. -/
def Obligations.everyStepKeepsTheArbiter : Prop := ∀ s t : State, s.Inv → step s = .next t → t.Inv

/-- Every step keeps the memories that the module's engines write (the halves' memory, the event logs saved and mirrored, the panel's frame
stores) in their canonical form: addresses strictly rising, no byte listed that an unlisted address reads as (log entry 5). -/
def Obligations.everyStepKeepsTheMemories : Prop := ∀ s t : State, s.MemOk → step s = .next t → t.MemOk

/-- Right after reset (R27, R49, R404, R579, R581 and the reset columns of the register tables): the invariant and the memories hold, no
command waits, every token is ORPHAN with its timer expired, no half serves or runs, every register reads its reset value. -/
def Obligations.resetLeaves : Prop :=
  State.reset.Inv ∧ State.reset.MemOk ∧ State.reset.pending = [] ∧ State.reset.own.server = none ∧
  (∀ k, (State.reset.own.token k).st = .orphan ∧ (State.reset.own.token k).expired = true) ∧
  (∀ h, (State.reset.w.run.get h).running = false ∧ State.reset.w.rd h F.XNG_CTRL.EN = 1 ∧ State.reset.w.rd h F.XNG_STATUS.UP = 0) ∧
  (∀ h i, State.reset.port h i = {}) ∧ (∀ h blk init, State.reset.w.selOf h blk init = 0) ∧
  (∀ h f i, State.reset.w.reg h f i = regReset f.reg)

/-- Parts of R27, R28, R31, R49: CLAIM, by the state of the token. The arbiter ignores a half whose alive line is low (R25).
Parts of R27, R28: the ends of a claim and of a handover of one token; RELEASE and HANDOVER by the owner, and by a half that is not.
Parts of R29, R32, R33: the operations on many tokens, the hardware CLAIM_ALL of the survivor, and SERVER.
Where the spec leaves the model a choice: log entry 18. -/
def Obligations.tokensPass : Prop :=
  (∀ (h : Half) (k : Nat) (s : State),
    Completes (.claim h k) s fun t =>
      (s.own.alive h = false → t = s) ∧
  (s.own.alive h = true → nObj ≤ k → k < 512 → t.own = s.own ∧ t.ResultIs h k 5 0) ∧
  (s.own.alive h = true → k < nObj → State.TokensBut [k] s t ∧
    ((s.own.token k).st = .orphan → (t.own.token k).st = .claiming h none ∧ t.ResultIs h k 1 1) ∧
    ((s.own.token k).st = .owned h → t.own = s.own ∧ t.ResultIs h k 0 0) ∧
    ((s.own.token k).st = .owned h.other → t.own = s.own ∧ t.ResultIs h k 2 0) ∧
    ((s.own.token k).st = .claiming h.other none → (s.own.token k).at_ / 8 = s.w.now / 8 →
      (s.own.server = some h ∨ (s.own.server = none ∧ h = .A) →
        (t.own.token k).st = .claiming h none ∧ t.ResultIs h k 1 1 ∧ t.ResultIs h.other k 3 0) ∧
      (s.own.server = some h.other ∨ (s.own.server = none ∧ h = .B) → t.own = s.own ∧ t.ResultIs h k 3 0)) ∧
    ((s.own.token k).st = .claiming h.other none → (s.own.token k).at_ / 8 ≠ s.w.now / 8 → t.own = s.own ∧ t.ResultIs h k 2 0))) ∧
  (∀ (k : Nat) (d : Half) (s : State), (s.own.token k).st = .claiming d none →
    Completes (.claimComplete k) s fun t =>
      (t.own.token k).st = .owned d ∧ State.TokensBut [k] s t) ∧
  (∀ (k : Nat) (d g : Half) (s : State), (s.own.token k).st = .claiming d (some g) →
    Completes (.handoverComplete k) s fun t =>
      (t.own.token k).st = .owned d ∧ State.TokensBut [k] s t) ∧
  (∀ (h : Half) (k : Nat) (s : State), s.own.alive h = true → k < nObj →
    Completes (.release h k) s fun t =>
      State.TokensBut [k] s t ∧
    ((s.own.token k).st = .owned h →
      t.own.token k = { st := .orphan, at_ := s.w.now, expired := false, last := some h } ∧ t.ResultIs h k 0 0) ∧
    ((s.own.token k).st ≠ .owned h → t.own = s.own ∧ t.ResultIs h k 2 0)) ∧
  (∀ (h : Half) (k : Nat) (s : State), s.own.alive h = true → k < nObj →
    Completes (.handover h k) s fun t =>
      State.TokensBut [k] s t ∧
    ((s.own.token k).st = .owned h → s.own.alive h.other = true → s.w.flag h.other F.OWN_CTRL.ACCEPT = true →
      (t.own.token k).st = .claiming h.other (some h) ∧ t.ResultIs h k 1 1) ∧
    ((s.own.token k).st = .owned h → ¬ (s.own.alive h.other = true ∧ s.w.flag h.other F.OWN_CTRL.ACCEPT = true) →
      t.own = s.own ∧ t.ResultIs h k 4 0) ∧
    ((s.own.token k).st ≠ .owned h → t.own = s.own ∧ t.ResultIs h k 2 0)) ∧
  (∀ (h : Half) (s : State), s.own.alive h = true →
    Completes (.claimAll h) s fun t =>
      ∀ k, k < nObj →
    ((s.own.token k).st = .orphan → (t.own.token k).st = .claiming h none) ∧
    ((s.own.token k).st ≠ .orphan → t.own.token k = s.own.token k)) ∧
  (∀ (h : Half) (s : State), s.own.alive h = true → s.own.alive h.other = true → s.w.flag h.other F.OWN_CTRL.ACCEPT = true →
    Completes (.handoverAll h) s fun t =>
      ∀ k, k < nObj →
      ((s.own.token k).st = .owned h → (t.own.token k).st = .claiming h.other (some h)) ∧
      ((s.own.token k).st ≠ .owned h → t.own.token k = s.own.token k)) ∧
  (∀ (h : Half) (s : State), s.own.alive h = true → s.own.server ≠ some h.other ∨ s.own.alive h.other = false →
    Completes (.serverRequest h) s fun t =>
      t.own.server = some h ∧ ∀ k, t.own.token k = s.own.token k) ∧
  (∀ (h : Half) (s : State), s.own.alive h = true → s.own.alive h.other = true → s.own.server = some h.other →
    Completes (.serverRequest h) s fun t =>
      t = s) ∧
  (∀ (h : Half) (s : State), s.own.alive h = true → s.own.alive h.other = false → s.w.flag h F.OWN_CTRL.TAKEOVER_EN = true →
    s.own.fallSet.get h.other ≠ [] → s.own.hwIssued.get h.other = false → (∀ k ∈ s.own.fallSet.get h.other, (s.own.token k).st =
    .orphan) →
    Completes (.hardwareClaimAll h) s fun t =>
      t.own.hwIssued.get h.other = true ∧
      (∀ k, k ∈ s.own.fallSet.get h.other → (t.own.token k).st = .claiming h none) ∧
      (∀ k, k ∉ s.own.fallSet.get h.other → t.own.token k = s.own.token k)) ∧
  (∀ (h : Half) (s : State), s.own.hwIssued.get h.other = true → (∃ k ∈ s.own.fallSet.get h.other, (s.own.token k).st = .claiming h
    none) →
    Completes (.takeoverComplete h) s fun t =>
      t.own.fallSet.get h.other = [] ∧
      ∀ k, (k ∈ s.own.fallSet.get h.other → (s.own.token k).st = .claiming h none → (t.own.token k).st = .owned h) ∧
        (k ∉ s.own.fallSet.get h.other ∨ (s.own.token k).st ≠ .claiming h none → t.own.token k = s.own.token k))

/-- Parts of R30, R27, R33: the orphan timers, and the tokens of a half whose line has been low for 20 µs. -/
def Obligations.orphanTimers : Prop :=
  (∀ (k : Nat) (s : State), (s.own.token k).st = .orphan → (s.own.token k).expired = false → (s.own.token k).at_ + s.w.rd .A
    F.OWN_ORPHAN_T.T * 100000000 ≤ s.w.now →
    Completes (.orphanTimerExpiry k) s fun t =>
      t.own.token k = { s.own.token k with expired := true } ∧ State.TokensBut [k] s t) ∧
  (∀ (k : Nat) (s : State), s.w.now < (s.own.token k).at_ + s.w.rd .A F.OWN_ORPHAN_T.T * 100000000 →
    Completes (.orphanTimerExpiry k) s fun t =>
      t = s) ∧
  (∀ (h : Half) (init v : Nat) (s : State), s.own.alive h = true → s.w.flag h F.OWN_LOCK.OPEN = true → 2 ≤ v → v ≤ 300 →
    Completes (.orphanTWrite h init v) s fun t =>
      (∀ k, (t.own.token k).st = (s.own.token k).st) ∧
      ∀ k, k < nObj → (s.own.token k).st = .orphan → (s.own.token k).at_ + v * 100000000 ≤ s.w.now → (t.own.token k).expired = true) ∧
  (∀ (h : Half) (init v : Nat) (s : State), bitsOf v 0 9 < 2 ∨ 300 < bitsOf v 0 9 →
    Completes (.orphanTWrite h init v) s fun t =>
      t = s) ∧
  (∀ (h : Half) (s : State), s.own.alive h = false → s.own.fellAt.get h + 20000 ≤ s.w.now →
    Completes (.ownerAliveLowTimeout h) s fun t =>
      ∀ k, k < nObj →
      ((s.own.token k).st = .owned h →
        t.own.token k = { st := .orphan, at_ := s.w.now, expired := false, last := some h }) ∧
      ((s.own.token k).st ≠ .owned h → t.own.token k = s.own.token k))

/-- Parts of R25, R26, R32, R94, R458, R463: what pulls a half's alive line low, and what the permit counts. -/
def Obligations.aliveLines : Prop :=
  (∀ (h : Half) (c : LowCause) (s : State),
    Completes (.aliveLineFall h c) s fun t =>
      t.own.alive h = false ∧ (s.own.alive h = true → t.own.server ≠ some h) ∧
    (s.own.alive h = true → ∀ k, k < nObj → ((s.own.token k).st = .claiming h none ∨ (s.own.token k).st = .claiming h (some h.other)) →
      t.own.token k = { st := .orphan, at_ := s.w.now, expired := false, last := some h })) ∧
  (∀ (h : Half) (s : State), s.own.low.get h = { wiring := true, heldReset := false } →
    Completes (.aliveLineRise h .wiring) s fun t =>
      t.own.alive h = true) ∧
  (∀ (h : Half) (s : State), (s.w.run.get h).running = true → s.own.alive h = true → (s.w.run.get h).greenHold = false → (s.w.run.get
    h).stwAt + 300000 ≤ s.w.now →
    Completes (.heartbeatPermitLapse h) s fun t =>
      (t.own.low.get h).fenced = true ∧ t.own.alive h = false) ∧
  (∀ (h : Half) (s : State), (s.w.run.get h).running = true → s.own.alive h = true → (s.w.run.get h).rtJoined = [true, true] → (∃ a ∈
    (s.w.run.get h).rtAt, a + 300000 ≤ s.w.now) →
    Completes (.heartbeatPermitLapse h) s fun t =>
      (t.own.low.get h).fenced = true ∧ t.own.alive h = false) ∧
  (∀ (h : Half) (s : State), (s.w.run.get h).running = true → s.w.missedCycle h = false →
    Completes (.stewardPermitContribution h) s fun t =>
      (t.w.run.get h).stwAt = s.w.now ∧ t.own = s.own) ∧
  (∀ (h : Half) (s : State), s.w.missedCycle h = true →
    Completes (.stewardPermitContribution h) s fun t =>
      t = s) ∧
  (∀ (h : Half) (p : Nat) (s : State), (s.w.run.get h).running = true → p < 2 → (s.w.run.get h).rtAt.length = 2 → (s.w.run.get
    h).rtJoined.length = 2 →
    Completes (.realtimePermitRefresh h p) s fun t =>
      (t.w.run.get h).rtAt.getD p 0 = s.w.now ∧ (t.w.run.get h).rtJoined.getD p false = true ∧ t.own = s.own) ∧
  (∀ (h : Half) (s : State), (s.w.run.get h).running = true → s.own.alive h = true → (∃ j ∈ (s.w.run.get h).rtJoined, j = false) →
    (s.w.run.get h).refAt + 1000000000 ≤ s.w.now →
    Completes (.permitJoinTimeout h) s fun t =>
      (t.own.low.get h).fenced = true ∧ t.own.alive h = false) ∧
  (∀ (h : Half) (s : State), (s.w.run.get h).running = true → s.own.low.get h = { wiring := true, heldReset := false } →
    Completes (.selfFence h) s fun t =>
      (t.w.run.get h).running = false ∧ (t.w.run.get h).cause = 8 ∧ (t.own.low.get h).heldReset = true)

/-- R17: each boundary FIFO holds 8 posted writes, a ninth write from the same initiator stalls that initiator until a place is free, and it
is not dropped. -/
def Obligations.boundaryHoldsEight : Prop :=
  (∀ (h : Half) (init addr v : Nat) (s : State), (s.w.run.get h).running = true → init < 12 → mapped addr = true → addr % 4 = 0 →
    (s.port h init).stalled = none →
    Completes (.registerWrite h init addr v) s fun t =>
      t.w = s.w ∧ t.own = s.own ∧ t.ledger = s.ledger ∧
      ((s.port h init).fifo.length < 8 → (t.port h init).stalled = none ∧
        (t.port h init).fifo = (s.port h init).fifo ++ [⟨addr, BitVec.ofNat 32 v⟩]) ∧
      ((s.port h init).fifo.length = 8 → (t.port h init).stalled = some ⟨addr, BitVec.ofNat 32 v⟩ ∧
        (t.port h init).fifo = (s.port h init).fifo) ∧
      ∀ g j, (g, j) ≠ (h, init) → t.port g j = s.port g j) ∧
  (∀ (h : Half) (init addr v : Nat) (s : State), (s.port h init).stalled.isSome = true →
    Completes (.registerWrite h init addr v) s fun t =>
      t.w = s.w ∧ t.own = s.own ∧ t.ledger = s.ledger ∧ ∀ g j, t.port g j = s.port g j) ∧
  (∀ (h : Half) (init : Nat) (s : State) (p q : PWrite) (rest : List PWrite), (s.w.run.get h).running = true → (s.port h init).fifo =
    p :: rest → (s.port h init).stalled = some q →
    Completes (.writeTakesEffect h init) s fun t =>
      t.own = s.own ∧ t.ledger = s.ledger ∧ (t.port h init).fifo = rest ++ [q] ∧ (t.port h init).stalled = none ∧
      ∀ g j, (g, j) ≠ (h, init) → t.port g j = s.port g j) ∧
  (∀ (h : Half) (init : Nat) (s : State) (p : PWrite) (rest : List PWrite), (s.w.run.get h).running = true → (s.port h init).fifo = p
    :: rest → (s.port h init).stalled = none →
    Completes (.writeTakesEffect h init) s fun t =>
      t.own = s.own ∧ t.ledger = s.ledger ∧ (t.port h init).fifo = rest ∧ (t.port h init).stalled = none ∧
      ∀ g j, (g, j) ≠ (h, init) → t.port g j = s.port g j)

/-- R583: the selects of blocks 5, 6 and 11 (VLV_SEL, LSW_SEL, GNS_SEL) hold the values 96–127, 48–63 and 208–255 beyond their ranges, no
other select has such a value; while one is held, every selected register reads 0 for that initiator and ignores its writes; the write of
the select raises EVT_SEL_RANGE (source 14) with the value, the low byte of BLK and the initiator. -/
def Obligations.selectsHoldEveryValue : Prop :=
  (∀ (h : Half) (init blk : Nat) (f : Field) (v : Nat) (s : State), (s.w.run.get h).running = true → init < 12 → selField blk = some f
    →
    Completes (.selectWrite h init blk v) s fun t =>
      t.w.rd h f init = v % 2 ^ f.w ∧ t.own = s.own ∧ t.ledger = s.ledger ∧
      ((blk = 5 ∧ 96 ≤ v % 2 ^ f.w ∧ v % 2 ^ f.w ≤ 127) ∨ (blk = 6 ∧ 48 ≤ v % 2 ^ f.w ∧ v % 2 ^ f.w ≤ 63) ∨
          (blk = 11 ∧ 208 ≤ v % 2 ^ f.w ∧ v % 2 ^ f.w ≤ 255) →
        t.w = (s.w.wr h f init (v % 2 ^ f.w)).raise h 14 (v % 2 ^ f.w + blk * 65536 + init * 16777216) ∧
        ∀ addr (d : RegDef) k x, regAt addr = some (d, k, x) → regOf addr / 2 ^ 20 = blk → d.sel ≠ .none → t.readWord h init addr = 0) ∧
      (¬ ((blk = 5 ∧ 96 ≤ v % 2 ^ f.w) ∨ (blk = 6 ∧ 48 ≤ v % 2 ^ f.w) ∨ (blk = 11 ∧ 208 ≤ v % 2 ^ f.w)) →
        v % 2 ^ f.w < selCount blk ∧ t.w = s.w.wr h f init (v % 2 ^ f.w))) ∧
  (∀ (h : Half) (init blk addr : Nat) (d : RegDef) (k x : Nat) (s : State) (v : Word) (rest : List PWrite), (s.w.run.get h).running =
    true → (s.port h init).fifo = ⟨addr, v⟩ :: rest → regAt addr = some (d, k, x) → regOf addr / 2 ^ 20 = blk → d.sel ≠ .none →
    selCount blk ≤ s.w.selOf h blk init →
    Completes (.writeTakesEffect h init) s fun t =>
      t.w = s.w ∧ t.own = s.own ∧ t.ledger = s.ledger)

/-- Parts of R16, R17, R18: a write retires into the boundary FIFO of its initiator, and the oldest takes effect first.
Parts of R20, R21, R585: a posted write that takes effect. A register of the half's own block holds the value; a register of a backplane
object holds it if the half owns the object at that moment, and both halves then read it; else the write is a recorded violation.
Parts of R18, R584: a read that gets no answer and a wrong access are bus errors that change nothing else.
Parts of R46: the round of a nested arbiter gives each active requester its credit. -/
def Obligations.writesTakeEffect : Prop :=
  (∀ (h : Half) (init addr : Nat) (s : State), (s.w.run.get h).running = true → init < 12 → mapped addr = true → addr % 4 = 0 →
    Completes (.readTimeout h init addr) s fun t =>
      t.w = s.w ∧ t.own = s.own ∧ t.ledger = s.ledger ∧
      (t.port h init).busError = true ∧ (t.port h init).lastRead = 0 ∧ (t.port h init).fifo = (s.port h init).fifo) ∧
  (∀ (h : Half) (init addr size : Nat) (s : State), (s.w.run.get h).running = true → init < 12 → 0x40000000 ≤ addr → addr < 0x50000000
    → mapped addr = false ∨ addr % 4 ≠ 0 ∨ size ≠ 4 →
    Completes (.busErrorAccess h init addr size) s fun t =>
      t.w = s.w ∧ t.own = s.own ∧ t.ledger = s.ledger ∧
      (t.port h init).busError = true ∧ (t.port h init).lastRead = 0 ∧ (t.port h init).fifo = (s.port h init).fifo) ∧
  (∀ (h : Half) (init : Nat) (s : State) (v : Word) (rest : List PWrite), (s.w.run.get h).running = true → (s.port h init).fifo =
    ⟨0x40200038, v⟩ :: rest →
    Completes (.writeTakesEffect h init) s fun t =>
      t.w.reg h F.TIM_SET_LO.T 0 = v ∧
      World.RegsBut [F.TIM_SET_LO.T.reg] s.w t.w) ∧
  (∀ (h : Half) (init : Nat) (s : State) (v : Word) (rest : List PWrite) (n : Nat), (s.w.run.get h).running = true → n < 4 →
    s.own.alive h = true → s.own.owns h (354 + n) = true → s.w.rd h F.FAN_SEL.CH init = n → v.field 0 16 < v.field 16 16 → (s.port h
    init).fifo = ⟨0x41000060 + 4 * n, v⟩ :: rest →
    Completes (.writeTakesEffect h init) s fun t =>
      (∀ g, t.w.reg g F.FAN_SKIP.LO n = v) ∧
      World.RegsBut [F.FAN_SKIP.LO.reg] s.w t.w) ∧
  (∀ (h : Half) (init : Nat) (s : State) (v : Word) (rest : List PWrite) (n : Nat), (s.w.run.get h).running = true → n < 4 →
    s.own.alive h = true → (∀ k, k < 4 → s.own.owns h (354 + k) = false) → s.w.rd h F.FAN_SEL.CH init = n → (s.port h init).fifo =
    ⟨0x41000060 + 4 * n, v⟩ :: rest →
    Completes (.writeTakesEffect h init) s fun t =>
      t.w.rd h F.OWN_VIOL.INIT = init % 16 ∧ t.w.rd h F.OWN_VIOL.OBJ = 354 + n ∧
      World.RegsBut [F.OWN_VIOL.OBJ.reg, F.EVT_STATUS.LOST.reg] s.w t.w) ∧
  (∀ (h : Half) (init : Nat) (s : State) (v : Word) (rest : List PWrite) (n : Nat), (s.w.run.get h).running = true → n < 4 →
    s.own.alive h = false → s.w.rd h F.FAN_SEL.CH init = n → (s.port h init).fifo = ⟨0x41000060 + 4 * n, v⟩ :: rest →
    Completes (.writeTakesEffect h init) s fun t =>
      t.w = s.w) ∧
  (∀ (a : Nat) (s : State),
    Completes (.arbiterRoundStart a) s fun t =>
      t.w.round a = s.w.requesters a ∧ (∀ b, b ≠ a → t.w.round b = s.w.round b) ∧
    World.RegsBut [] s.w t.w ∧ t.own = s.own ∧ t.ledger = s.ledger)

/-- Parts of R35, R36, R49, R590: lanes, frames whose CRC fails, retransmission, enable and loopback, the error count.
Parts of R35, R38, R39, R41, R42: heartbeat frames and windows, the sample after heartbeat loss, the Crossing back up. No token moves. -/
def Obligations.crossingCarries : Prop :=
  (∀ (h : Half) (l : Nat) (up : Bool) (s : State), (s.w.run.get h).running = true → l < 2 →
    Completes (.crossingLaneChange h l 0 up) s fun t =>
      bitOf (t.w.rd h F.XNG_STATUS.LANE_TX) l = up ∧
      bitOf (t.w.rd h F.XNG_STATUS.LANE_TX) (1 - l) = bitOf (s.w.rd h F.XNG_STATUS.LANE_TX) (1 - l) ∧
      t.w.rd h F.XNG_STATUS.LANE_RX = s.w.rd h F.XNG_STATUS.LANE_RX ∧
      (t.w.rd h F.XNG_STATUS.LANE_TX = 0 → t.w.rd h F.XNG_STATUS.UP = 0)) ∧
  (∀ (h : Half) (ty seq len : Nat) (s : State), s.w.sends h.other = true → 1 ≤ ty → ty ≤ 6 →
    Completes (.crossingFrameReceived h ty seq len false) s fun t =>
      t.w.rd h F.XNG_ERR_CNT.CRC = satInc 16 (s.w.rd h F.XNG_ERR_CNT.CRC) ∧
      ((ty, seq) ∈ (t.w.xng.get h).asked ↔ 3 ≤ ty ∨ (ty, seq) ∈ (s.w.xng.get h).asked) ∧ s.Quiet t) ∧
  (∀ (h : Half) (ty seq len : Nat) (s : State), s.w.sends h.other = true → 1 ≤ ty → ty ≤ 6 →
    Completes (.crossingFrameReceived h ty seq len true) s fun t =>
      (ty, seq) ∉ (t.w.xng.get h).asked ∧
      World.RegsBut [] s.w t.w ∧ s.Quiet t) ∧
  (∀ (h : Half) (ty seq : Nat) (s : State), (ty, seq) ∈ (s.w.xng.get h.other).asked → s.w.sends h = true →
    Completes (.retransmissionRequest h ty seq) s fun t =>
      (ty, seq) ∈ (t.w.xng.get h).resent ∧
      (t.w.xng.get h).seqTx = (s.w.xng.get h).seqTx ∧
      t.w.rd h F.XNG_ERR_CNT.RETX = satInc 16 (s.w.rd h F.XNG_ERR_CNT.RETX) ∧ s.Quiet t) ∧
  (∀ (h : Half) (init v : Nat) (s : State), s.w.flag h F.OWN_LOCK.OPEN = true →
    Completes (.xngEnable h init v) s fun t =>
      t.w.rd h F.XNG_CTRL.EN = v % 2 ∧ t.own = s.own ∧ t.ledger = s.ledger) ∧
  (∀ (h : Half) (init v : Nat) (s : State), s.w.flag h F.OWN_LOCK.OPEN = false →
    Completes (.xngEnable h init v) s fun t =>
      t = s) ∧
  (∀ (h : Half) (init v : Nat) (s : State), s.w.flag h F.OWN_LOCK.OPEN = true → s.w.inService h = true →
    Completes (.xngLoopback h init v) s fun t =>
      t.w.rd h F.XNG_CTRL.LOOPBACK = v % 2 ∧ t.own = s.own ∧ t.ledger = s.ledger) ∧
  (∀ (h : Half) (init v : Nat) (s : State), v % 2 = 1 → s.w.inService h = false →
    Completes (.xngLoopback h init v) s fun t =>
      t = s) ∧
  (∀ (h : Half) (init : Nat) (s : State),
    Completes (.xngClrCnt h init) s fun t =>
      t.w.reg h F.XNG_ERR_CNT.CRC 0 = 0 ∧
    World.RegsBut [F.XNG_ERR_CNT.CRC.reg] s.w t.w ∧ s.Quiet t) ∧
  (∀ (h : Half) (s : State), (s.w.run.get h).lapsed s.w.now = false → s.w.sends h = true → s.own.alive h = true →
    Completes (.hbFrameSend h) s fun t =>
      (t.w.xng.get h).sent = some (s.hbFrame h) ∧
      (t.w.xng.get h).hbSeq = ((s.w.xng.get h).hbSeq + 1) % 65536 ∧ s.Quiet t) ∧
  (∀ (h : Half) (s : State), s.own.alive h = false →
    Completes (.hbFrameSend h) s fun t =>
      t = s) ∧
  (∀ (h : Half) (s : State) (f : HbFrame), (s.w.xng.get h.other).sent = some f → s.w.sends h.other = true →
    Completes (.hbFrameReceived h) s fun t =>
      t.w.rd h F.XNG_SIB_STATE.HB_SEQ = f.seq % 65536 ∧
      t.w.rd h F.XNG_SIB_STATE.STAGE = f.stage % 8 ∧ t.w.rd h F.XNG_SIB_STATE.SERVER = b2n f.server ∧
      t.w.rd h F.XNG_SIB_STATE.STW_LOAD = f.load % 256 ∧ t.w.rd h F.XNG_SIB_GRADE.GRADE = f.grade % 8 ∧
      t.w.rd h F.XNG_SIB_OWNED.OWNED = f.owned % 512 ∧ t.w.rd h F.XNG_SIB_ROAST0.DIGEST = f.digest % 2 ^ 32 ∧
      t.w.rd h F.XNG_STATUS.HB_OK = 1 ∧ t.w.rd h F.XNG_STATUS.HB_MISS = 0 ∧ t.w.rd h F.XNG_STATUS.FAULT = 0 ∧
      (t.w.xng.get h).winAt = s.w.now ∧ (t.w.xng.get h).suspended = false ∧ s.Quiet t) ∧
  (∀ (h : Half) (s : State), (s.w.run.get h).running = true → (s.w.xng.get h).suspended = false → (s.w.xng.get h).winAt + 100000 ≤
    s.w.now →
    Completes (.hbWindowExpiry h) s fun t =>
      t.w.rd h F.XNG_STATUS.HB_MISS = min 5 (s.w.rd h F.XNG_STATUS.HB_MISS + 1) ∧ t.w.rd h F.XNG_STATUS.HB_OK = 0 ∧
      (t.w.xng.get h).winAt = s.w.now ∧ ((t.w.xng.get h).lossDue = true ↔
        (s.w.xng.get h).lossDue = true ∨ s.w.rd h F.XNG_STATUS.HB_MISS = 4) ∧ s.Quiet t) ∧
  (∀ (h : Half) (s : State), (s.w.xng.get h).suspended = true →
    Completes (.hbWindowExpiry h) s fun t =>
      t = s) ∧
  (∀ (h : Half) (s : State), (s.w.xng.get h).lossDue = true →
    Completes (.heartbeatLossSample h) s fun t =>
      (t.w.xng.get h).lossDue = false ∧ s.Quiet t ∧ t.w.rd h F.XNG_STATUS.FAULT =
      if s.own.alive h.other then 1 else s.w.rd h F.XNG_STATUS.FAULT) ∧
  (∀ (h : Half) (s : State), s.w.linked h = true → (s.w.run.get h).running = true → (s.w.run.get h.other).running = true → s.w.lanesUp
    h = true → s.w.flag h F.XNG_STATUS.UP = false →
    Completes (.crossingUp h) s fun t =>
      t.w.rd h F.XNG_STATUS.UP = 1 ∧ t.w.rd h F.XNG_STATUS.FAULT = 0 ∧
      (t.w.xng.get h).seqTx = [] ∧ (t.w.xng.get h).fullDue = [0, 1, 2, 3] ∧ s.Quiet t)

/-- Parts of R43, R44, R45, R82, R459: the exchange of time stamps, its loss, and the mirror classes.
Where the spec leaves the model a choice: log entry 19. -/
def Obligations.timeSyncAndMirror : Prop :=
  (∀ (h : Half) (t1 t2 t3 t4 : Int) (s : State), s.w.flag h F.XNG_STATUS.UP = true →
    Completes (.tsyExchange h t1 t2 t3 t4) s fun t =>
      s.Quiet t ∧
      t.w.rd h F.XNG_TSYNC_OFS.OFS = toTwos 32 (((t2 - t1) + (t3 - t4)) / 2) ∧
      (s.own.serves h = false → (((t2 - t1) + (t3 - t4)) / 2).natAbs ≤ 20 →
        (t.w.tim.get h).offset = (s.w.tim.get h).offset + ((t2 - t1) + (t3 - t4)) / 2 / 10) ∧
      (s.own.serves h = true → t.w.tim = s.w.tim) ∧
      ((((t2 - t1) + (t3 - t4)) / 2).natAbs ≤ 20 → 9 ≤ (s.w.xng.get h).within → t.w.rd h F.XNG_STATUS.TSYNC_OK = 1) ∧
      ((((t2 - t1) + (t3 - t4)) / 2).natAbs ≤ 20 → (s.w.xng.get h).within < 9 →
        t.w.rd h F.XNG_STATUS.TSYNC_OK = s.w.rd h F.XNG_STATUS.TSYNC_OK) ∧
      (20 < (((t2 - t1) + (t3 - t4)) / 2).natAbs → 10 ≤ (s.w.xng.get h).outside → t.w.rd h F.XNG_STATUS.TSYNC_OK = 0)) ∧
  (∀ (h : Half) (s : State), s.w.flag h F.XNG_STATUS.UP = true → (s.w.xng.get h).tsyAt + 10000000 ≤ s.w.now →
    Completes (.tsyncTimeout h) s fun t =>
      t.w.rd h F.XNG_STATUS.TSYNC_OK = 0 ∧ (t.w.xng.get h).within = 0 ∧ s.Quiet t) ∧
  (∀ (h : Half) (s : State), s.w.mirrors h = true →
    Completes (.mirrorRecordReceived h 1 30 true) s fun t =>
      t.w.rd h F.SET_STATE.STATE = s.w.rd h.other F.SET_STATE.STATE ∧
      1 ∈ (t.w.xng.get h).fullRx ∧ 1 ∉ (t.w.xng.get h.other).fullDue ∧ s.Quiet t) ∧
  (∀ (h : Half) (s : State) (n : Nat) (full : Bool), s.w.mirrors h = true → 1 ≤ n → n < 30 → (NMap.get {} (s.w.set.get h.other).fn
    n).ran = true → (NMap.get {} (s.w.set.get h).mir n).cycle ≤ (NMap.get {} (s.w.set.get h.other).fn n).cycle →
    Completes (.mirrorRecordReceived h 0 n full) s fun t =>
      NMap.get {} (t.w.set.get h).mir n = NMap.get {} (s.w.set.get h.other).fn n ∧
      t.w.rd h F.SET_MF_OUT.VALUE n = s.w.rd h.other F.SET_MF_OUT.VALUE n ∧ s.Quiet t) ∧
  (∀ (h : Half) (s : State) (k n : Nat) (full : Bool), s.w.mirrors h = false →
    Completes (.mirrorRecordReceived h k n full) s fun t =>
      t = s) ∧
  (∀ (h : Half) (k : Nat) (s : State), k < 4 → s.w.flag h F.XNG_STATUS.UP = true →
    Completes (.mirrorLagExceeded h k) s fun t =>
      bitOf (t.w.rd h F.XNG_MIR_STAT.LAG) k = true ∧ s.Quiet t) ∧
  (∀ (h : Half) (s : State), s.w.flag h F.XNG_STATUS.UP = true → s.w.sends h = true → NMap.get 0 (s.w.xng.get h).lastSent 3 +
    1000000000 ≤ s.w.now → s.w.mirrors h.other = true →
    Completes (.mirrorRefresh h 3) s fun t =>
      (t.w.evt.get h.other).sibLog = logOf (s.w.dram.get h) ∧
      t.w.rd h.other F.FLX_YLD.ACKED = s.w.rd h F.FLX_YLD.ACKED ∧ NMap.get 0 (t.w.xng.get h).lastSent 3 = s.w.now ∧ s.Quiet t)

/-- Parts of R27, R89, R91, R93, R97: backplane power-on, the release of a half's reset, and the steps of Bloom, each after the one before it.
Parts of R32, R87, R97, R101: Bloom step 8 claims for the first half there; Pour begins and ends with its flags.
Where the spec leaves the model a choice: log entries 1, 22. -/
def Obligations.startStages : Prop :=
  (∀ (t1 t0 : Bool) (tiles : Nat) (s : State), (s.w.run.get .A).running = false → (s.w.run.get .B).running = false →
    Completes (.backplanePowerOn t1 t0 tiles) s fun t =>
      t.own.server = none ∧ t.own.alive .A = false ∧ t.own.alive .B = false ∧
      ∀ k, (t.own.token k).st = .orphan ∧ (t.own.token k).expired = true) ∧
  (∀ (t1 t0 : Bool) (tiles : Nat) (h : Half) (s : State), (s.w.run.get h).running = true →
    Completes (.backplanePowerOn t1 t0 tiles) s fun t =>
      t = s) ∧
  (∀ (h : Half) (s : State), s.mayRun h = true → (s.w.run.get h).running = false → (s.own.low.get h).wiring = false →
    Completes (.halfResetRelease h) s fun t =>
      (t.w.run.get h).running = true ∧ (t.w.run.get h).bloomStep = 0 ∧
      (t.w.run.get h).refAt = s.w.now ∧ t.own.alive h = true ∧ (∀ k, t.own.token k = s.own.token k) ∧
      (∀ i, t.port h i = {}) ∧ t.w.rd h F.SET_CTRL.RUN = 0 ∧ t.w.rd h F.STW_RESET.CAUSE = (s.w.run.get h).cause % 16) ∧
  (∀ (h : Half) (s : State), s.mayRun h = false →
    Completes (.halfResetRelease h) s fun t =>
      t = s) ∧
  (∀ (h : Half) (s : State), (s.w.run.get h).running = true → (s.w.run.get h).standby = false → (s.w.run.get h).bloomStep = 0 →
    Completes (.bloom h 1) s fun t =>
      (t.w.run.get h).bloomStep = 1 ∧
      (t.w.rd h F.STW_STAGE.STAGE = 1 ∧ (t.w.run.get h).standby = false ∨
        t.w.rd h F.STW_STAGE.STAGE = 0 ∧ (t.w.run.get h).standby = true)) ∧
  (∀ (h : Half) (s : State), (s.w.run.get h).running = true → (s.w.run.get h).standby = false → (s.w.run.get h).bloomStep = 8 →
    Completes (.bloom h 9) s fun t =>
      t.w.rd h F.STW_STAGE.BLOOM_DONE = 1 ∧ t.w.rd h F.SET_CTRL.RUN = 1 ∧
      t.w.rd h F.OWN_CTRL.ACCEPT = 1 ∧ t.w.rd h F.STW_HOLD.HOLD_REQ = 1 ∧ t.own = s.own) ∧
  (∀ (h : Half) (k : Nat) (s : State), (s.w.run.get h).running = false ∨ (s.w.run.get h).standby = true ∨ (s.w.run.get h).bloomStep +
    1 ≠ k ∨ 9 < k →
    Completes (.bloom h k) s fun t =>
      t = s) ∧
  (∀ (h : Half) (s : State), (s.w.run.get h).running = true → (s.w.run.get h).standby = false → (s.w.run.get h).bloomStep = 7 →
    (s.w.run.get h).selfFenced = false → s.w.act = none → s.own.alive h = true → s.own.server = none →
    Completes (.bloom h 8) s fun t =>
      t.own.server = some h ∧ ∀ k, k < nObj →
      ((s.own.token k).st = .orphan → (t.own.token k).st = .claiming h none) ∧
      ((s.own.token k).st ≠ .orphan → t.own.token k = s.own.token k)) ∧
  (∀ (h : Half) (s : State), (s.w.run.get h).running = true → (s.w.run.get h).standby = false → (s.w.run.get h).bloomStep = 7 →
    (s.w.run.get h).selfFenced = false → s.w.act = none → s.own.server = some h.other →
    Completes (.bloom h 8) s fun t =>
      t.own = s.own) ∧
  (∀ (h : Half) (s : State), (s.w.run.get h).running = true → s.w.rd h F.STW_STAGE.BLOOM_DONE = 1 → s.w.rd h F.STW_STAGE.STAGE = 1 →
    (s.w.run.get h).flagsAt ≠ 0 → (s.w.run.get h).flagsAt - 1 + 2000000000 ≤ s.w.now →
    Completes (.pourEntry h) s fun t =>
      t.w.rd h F.STW_STAGE.STAGE = 2 ∧ t.own = s.own ∧
      World.RegsBut [F.STW_STAGE.STAGE.reg, F.STW_START_T.POUR.reg, F.EVT_STATUS.LOST.reg] s.w t.w) ∧
  (∀ (h : Half) (s : State), (s.w.run.get h).flagsAt = 0 →
    Completes (.pourEntry h) s fun t =>
      t = s) ∧
  (∀ (h : Half) (s : State), (s.w.run.get h).running = true → s.w.rd h F.STW_STAGE.STAGE = 2 → (s.w.run.get h).flagsGone ≠ 0 →
    (s.w.run.get h).flagsGone - 1 + 5000000000 ≤ s.w.now →
    Completes (.pourExit h) s fun t =>
      t.w.rd h F.STW_STAGE.STAGE = 1 ∧ t.own = s.own ∧
      World.RegsBut [F.STW_STAGE.STAGE.reg, F.EVT_STATUS.LOST.reg] s.w t.w) ∧
  (∀ (h : Half) (s : State), (s.w.run.get h).flagsGone = 0 →
    Completes (.pourExit h) s fun t =>
      t = s)

/-- Parts of R76, R78–R85: the sibling's Roast fetched, and the activation: the request, the commit in one write, the drop before it.
Where the spec leaves the model a choice: log entry 24. -/
def Obligations.roastActivation : Prop :=
  (∀ (h : Half) (s : State), (s.w.run.get h).running = true → s.w.rd h F.XNG_STATUS.UP = 1 → (s.w.roast.get h.other).pending.valid =
    true → s.w.act = none → s.w.sessOpen h 6 = false →
    Completes (.roastSiblingFetch h true) s fun t =>
      t.own = s.own ∧ t.ledger = s.ledger ∧
      t.w.rd h F.UPD_RESULT.ROAST = (verify (s.w.verEnv h false) (s.w.roast.get h.other).pending.image).res % 2 ^ F.UPD_RESULT.ROAST.w ∧
      ((verify (s.w.verEnv h false) (s.w.roast.get h.other).pending.image).res = 0 →
        (t.w.roast.get h).pending = goodSlot (s.w.roast.get h.other).pending.image) ∧
      ((verify (s.w.verEnv h false) (s.w.roast.get h.other).pending.image).res ≠ 0 → (t.w.roast.get h).pending = {}) ∧
      (t.w.roast.get h).active = (s.w.roast.get h).active) ∧
  (∀ (h : Half) (s : State), s.needsRoast h = true →
    Completes (.roastSiblingFetch h false) s fun t =>
      ((verify (s.w.verEnv h false) (s.w.roast.get h.other).active.image).res = 0 →
        (t.w.roast.get h).active = goodSlot (s.w.roast.get h.other).active.image) ∧
      ((verify (s.w.verEnv h false) (s.w.roast.get h.other).active.image).res ≠ 0 → t.w.roast = s.w.roast ∧ s.Quiet t)) ∧
  (∀ (h : Half) (s : State), (s.w.run.get h).running = true →
    Completes (.roastActivateRequest h 0) s fun t =>
      s.Quiet t ∧
      t.w.rd h F.UPD_RESULT.ROAST = s.activateRefusal h % 2 ^ F.UPD_RESULT.ROAST.w ∧
      (s.activateRefusal h = 0 → t.w.act = some { newHalf := s.firstHalf h, step := 0, start := s.w.now, committed := false }) ∧
      (s.activateRefusal h ≠ 0 → t.w.act = s.w.act)) ∧
  (∀ (h : Half) (s : State) (a : Activation), s.w.act = some a → a.step = 2 → s.newUp a.newHalf = true →
    Completes (.roastActivateRequest h 3) s fun t =>
      t.w.act = some { a with step := 3, committed := true } ∧
      t.w.bp.recOpen = true ∧ t.w.bp.recDigest = (s.w.roast.get a.newHalf).active.digest ∧ t.w.bp.ptr = !s.w.bp.ptr ∧
      t.w.greenBank = (s.w.ownContent a.newHalf).gren ∧ s.Quiet t) ∧
  (∀ (h : Half) (s : State) (a : Activation), s.w.act = some a → a.committed = false → s.activateFailed a = true → (s.w.roast.get
    a.newHalf).trial = false →
    Completes (.roastActivateRequest h 8) s fun t =>
      t.w.act = none ∧ t.w.bp = s.w.bp ∧ s.Quiet t) ∧
  (∀ (h : Half) (s : State) (a : Activation), s.w.act = some a → a.committed = true →
    Completes (.roastActivateRequest h 8) s fun t =>
      t = s)

/-- Parts of R102–R104, R106: KEY_IN, the 5 s after LOGIC_IN, the forced release, and PWR_HOLD in both halves. -/
def Obligations.powerLatch : Prop :=
  (∀ (v : Nat) (s : State), s.w.latch.logicValid = false → s.w.pwr.fail = false → 800 ≤ v →
    Completes (.logicInValid v) s fun t =>
      t.w.latch.logicValid = true ∧ t.w.latch.keyOn = false ∧ t.w.latch.pwrHold = true ∧
      (∀ g, t.w.rd g F.STW_HOLD.PWR_HOLD = 1 ∧ t.w.rd g F.STW_HOLD.KEY = 0) ∧ s.Quiet t) ∧
  (∀ (v : Nat) (s : State), v < 800 →
    Completes (.logicInValid v) s fun t =>
      t = s) ∧
  (∀ (s : State), s.w.latch.logicValid = true → s.w.latch.keyOn = false → (∀ g, (s.w.shut.get g).step = 0) →
    Completes .keyInOn s fun t =>
      t.w.latch.keyOn = true ∧ (∀ g, t.w.rd g F.STW_HOLD.KEY = 1 ∧ t.w.rd g F.STW_HOLD.PWR_HOLD = 1) ∧
      s.Quiet t) ∧
  (∀ (s : State) (h : Half), s.w.latch.logicValid = true → s.w.latch.keyOn = false → (s.w.shut.get h).step = 1 → (s.w.run.get
    h).running = true →
    Completes .keyInOn s fun t =>
      t.w.latch.keyOn = true ∧ (t.w.shut.get h).step = 0 ∧ t.w.rd h F.SET_STATE.STATE = 0) ∧
  (∀ (s : State), s.w.latch.logicValid = true → s.w.latch.keyOn = true →
    Completes .keyInOff s fun t =>
      t.w.latch.keyOn = false ∧ t.w.latch.keyOffAt = s.w.now ∧ s.Quiet t ∧
      ∀ g, t.w.rd g F.STW_HOLD.KEY = 0 ∧ t.w.rd g F.STW_HOLD.PWR_HOLD = b2n (s.w.latch.startup || s.w.holdReq)) ∧
  (∀ (s : State), s.w.latch.startup = true → s.w.latch.validAt + 5000000000 ≤ s.w.now → s.w.latch.keyOn = false → s.w.holdReq = false
    →
    Completes .pwrHoldStartupExpiry s fun t =>
      t.w.latch.startup = false ∧ t.w.latch.pwrHold = false ∧
      (∀ g, t.w.rd g F.STW_HOLD.PWR_HOLD = 0) ∧ s.Quiet t) ∧
  (∀ (s : State), s.w.latch.keySeen = true → s.w.latch.keyOn = false → s.w.latch.keyOffAt + 30000000000 ≤ s.w.now → s.w.latch.pwrHold
    = true →
    Completes .pwrHoldForcedRelease s fun t =>
      t.w.latch.pwrHold = false ∧
      (∀ g, t.w.rd g F.STW_HOLD.PWR_HOLD = 0 ∧ t.w.rd g F.STW_HOLD.FORCED = 1) ∧ s.Quiet t) ∧
  (∀ (s : State), s.w.latch.keyOn = true →
    Completes .pwrHoldForcedRelease s fun t =>
      t = s)

/-- Parts of R105–R107, R117: the shutdown's steps in their order, its end, and the wake that stops it.
Parts of R110–R112, R116, R121: secrets cleared before any scan, and what each end of an island's test records.
Where the spec leaves the model a choice: log entries 3, 26. -/
def Obligations.shutdownAndCupping : Prop :=
  (∀ (h : Half) (c : CupCond) (s : State), s.w.latch.keySeen = true → s.w.latch.keyOn = false → (s.w.run.get h).running = true →
    (s.w.shut.get h).step = 0 → s.w.rd h F.STW_STAGE.BLOOM_DONE = 1 → s.w.skipsShut h = false →
    Completes (.shutdown h 1 c) s fun t =>
      (t.w.shut.get h).step = 1 ∧ (t.w.shut.get h).runAt = s.w.now ∧
      (t.w.evt.get h).flash = logOf (t.w.dram.get h) ∧ t.own = s.own) ∧
  (∀ (h : Half) (c : CupCond) (s : State), s.w.latch.keySeen = true → s.w.latch.keyOn = false → (s.w.run.get h).running = true →
    (s.w.shut.get h).step = 1 → (s.w.shut.get h).runAt + s.w.longestRamp (s.own.ownedBy h) ≤ s.w.now →
    Completes (.shutdown h 3 c) s fun t =>
      (t.w.shut.get h).step = 3 ∧ ∀ k, k < nObj →
      ((s.own.token k).st = .owned h → t.own.token k = { st := .orphan, at_ := s.w.now, expired := false, last := some h }) ∧
      ((s.own.token k).st ≠ .owned h → t.own.token k = s.own.token k)) ∧
  (∀ (h : Half) (c : CupCond) (s : State), s.w.latch.keySeen = true → s.w.latch.keyOn = false → (s.w.run.get h).running = true →
    (s.w.shut.get h).step = 3 → s.w.anySess h = false → c.ctrlOk = true → s.w.rd h F.CUP_CTRL.EN = 1 →
    Completes (.shutdown h 4 c) s fun t =>
      (t.w.shut.get h).step = 4 ∧ (t.w.shut.get h).tested = [] ∧ (t.w.run.get h).running = false ∧
      t.own.alive h = false ∧ t.w.rd h F.STW_STAGE.STAGE = 3 ∧ t.w.rd h F.CUP_STATUS.PHASE = 2) ∧
  (∀ (h : Half) (k : Nat) (c : CupCond) (s : State), s.w.latch.keyOn = true →
    Completes (.shutdown h k c) s fun t =>
      t = s) ∧
  (∀ (h : Half) (e : Nat) (s : State), (s.w.shut.get h).step = 4 → s.w.rd h F.CUP_STATUS.PHASE = 4 →
    Completes (.cuppingRecordsWritten h e) s fun t =>
      (t.w.shut.get h).step = 5 ∧ t.w.rd h F.STW_HOLD.HOLD_REQ = 0 ∧
      t.w.rd h F.CUP_STATUS.PHASE = 5 ∧ t.w.rd h F.CUP_RUN.RUN = (s.w.rd h F.CUP_RUN.RUN + 1) % 65536 ∧
      t.w.rd h F.CUP_SUMMARY.PASS = s.w.cupCount h 0 ∧ t.w.rd h F.CUP_SUMMARY.FAIL = s.w.cupCount h 1 ∧ s.Quiet t) ∧
  (∀ (h : Half) (m : List CupMeas) (s : State), s.w.latch.keyOn = true → 4 ≤ (s.w.shut.get h).step → s.w.latch.pwrHold = true →
    (s.w.run.get h).running = false →
    Completes (.wakeRequest h none m) s fun t =>
      (t.w.run.get h).running = t.mayRun h ∧ (t.mayRun h = true → (t.w.run.get h).cause = 7) ∧ (t.w.shut.get h).step = 0 ∧ t.ledger = s.ledger) ∧
  (∀ (h : Half) (init : Nat) (s : State), (s.w.run.get h).running = true →
    Completes (.cupAck h init) s fun t =>
      t.w.rd h F.STW_STAGE.CUP_REPORT = 0 ∧
    World.RegsBut [F.STW_STAGE.CUP_REPORT.reg] s.w t.w ∧ s.Quiet t) ∧
  (∀ (h : Half) (s : State), (s.w.shut.get h).step = 4 → s.w.rd h F.CUP_STATUS.PHASE = 2 → (s.w.shut.get h).order = [1, 2, 3, 4] →
    (s.w.shut.get h).tested = [] → s.w.rd h F.CUP_STATUS.GROUP = 0 →
    Completes (.secretClearDone h) s fun t =>
      t.w.rd h F.CUP_STATUS.CLEAR_DONE = 1 ∧ t.w.rd h F.CUP_STATUS.PHASE = 3 ∧
      t.w.rd h F.CUP_STATUS.GROUP = 1 ∧ s.Quiet t) ∧
  (∀ (h : Half) (s : State), s.w.rd h F.CUP_STATUS.PHASE ≠ 2 →
    Completes (.secretClearDone h) s fun t =>
      t = s) ∧
  (∀ (h : Half) (s : State), (s.w.shut.get h).step = 4 → s.w.rd h F.CUP_STATUS.PHASE = 2 → (s.w.shut.get h).runAt + 300000000 ≤
    s.w.now →
    Completes (.secretClearTimeout h) s fun t =>
      t.w.rd h F.CUP_STATUS.PHASE = 4 ∧
      (∀ n, n < 40 → n ∉ (s.w.shut.get h).tested →
        t.w.rd h F.CUP_REC_W0.RESULT n = 3 ∧ t.w.rd h F.CUP_REC_W0.REASON n = 7 ∧
        t.w.rd h F.CUP_REC_W0.UNTESTED n = min 15 (s.w.rd h F.CUP_REC_W0.UNTESTED n + 1)) ∧ s.Quiet t) ∧
  (∀ (h : Half) (n : Nat) (m : CupMeas) (s : State), (s.w.shut.get h).step = 4 → s.w.rd h F.CUP_STATUS.PHASE = 3 → n ∈ s.w.underTest h
    →
    Completes (.islandTestEnd h n m) s fun t =>
      n ∈ (t.w.shut.get h).tested ∧ s.Quiet t ∧
      (m.cntOk = true → m.fin = true → m.misr = true → t.w.rd h F.CUP_REC_W0.RESULT n = 0 ∧ t.w.rd h F.CUP_REC_W0.UNTESTED n = 0) ∧
      (m.cntOk = true → m.fin = true → m.misr = false → t.w.rd h F.CUP_REC_W0.RESULT n = 1 ∧ t.w.rd h F.CUP_REC_W0.UNTESTED n = 0 ∧
        t.w.rd h F.CUP_REC_W2.SYNDROME n = m.syndrome % 2 ^ 32) ∧
      (m.cntOk = false → t.w.rd h F.CUP_REC_W0.RESULT n = 2 ∧ t.w.rd h F.CUP_REC_W0.REASON n = 11 ∧
        t.w.rd h F.CUP_REC_W0.UNTESTED n = min 15 (s.w.rd h F.CUP_REC_W0.UNTESTED n + 1)) ∧
      (m.cntOk = true → m.fin = false → t.w.rd h F.CUP_REC_W0.RESULT n = 2 ∧ t.w.rd h F.CUP_REC_W0.REASON n = 12)) ∧
  (∀ (h : Half) (n r : Nat) (m : CupMeas) (s : State), (s.w.shut.get h).step = 4 → s.w.rd h F.CUP_STATUS.PHASE = 3 → 4 ≤ r → r ≤ 6 → n
    < 40 → n ∉ (s.w.shut.get h).tested →
    Completes (.islandConditionFail h n r m) s fun t =>
      n ∈ (t.w.shut.get h).tested ∧ t.w.rd h F.CUP_REC_W0.REASON n = r ∧
      t.w.rd h F.CUP_REC_W0.RESULT n = (if n ∈ s.w.underTest h then 2 else 3) ∧ s.Quiet t) ∧
  (∀ (h : Half) (m : List CupMeas) (s : State), (s.w.shut.get h).step = 4 → s.w.rd h F.CUP_STATUS.PHASE = 3 → (s.w.shut.get h).runAt +
    7000000000 ≤ s.w.now →
    Completes (.cuppingBudgetExpiry h m) s fun t =>
      t.w.rd h F.CUP_STATUS.PHASE = 4 ∧ t.w.rd h F.CUP_STATUS.GROUP = 0 ∧
      (∀ n, n < 40 → n ∉ (s.w.shut.get h).tested → t.w.rd h F.CUP_REC_W0.REASON n = 10 ∧
        t.w.rd h F.CUP_REC_W0.RESULT n = (if n ∈ s.w.underTest h then 2 else 3)) ∧ s.Quiet t) ∧
  (∀ (h : Half) (m : List CupMeas) (s : State), s.w.now < (s.w.shut.get h).runAt + 7000000000 →
    Completes (.cuppingBudgetExpiry h m) s fun t =>
      t = s)

/-- Parts of R80, R125–R127: a requested transition is taken, or refused for the first reason that holds, and the state stays; an automatic
entry is
taken when its guard has held for 200 ms.
Where the spec leaves the model a choice: log entry 27. -/
def Obligations.operatingState : Prop :=
  (∀ (h : Half) (init dst : Nat) (s : State) (e : Trans), (s.w.run.get h).running = true → s.own.server = some h → (s.w.funcs
    h).trans.find? (fun t => t.src = s.w.opState h && t.dst = dst % 8 && (t.mode = 1 || t.mode = 3)) = some e → s.w.guardHolds h
    e.guard = true → s.w.act = none → (s.w.shut.get h).step = 0 → s.w.opState h ≠ 0 → s.w.opState h ≠ 5 → (s.w.set.get h).lastTrans +
    10000000 ≤ s.w.now →
    Completes (.setStateRequest h init dst) s fun t =>
      t.w.rd h F.SET_STATE.STATE = dst % 8 ∧ t.w.rd h F.SET_STATE.LAST_REQ = dst % 8 ∧
      (t.w.set.get h).lastTrans = s.w.now ∧ s.Quiet t) ∧
  (∀ (h : Half) (init dst : Nat) (s : State), (s.w.run.get h).running = true → s.own.server = some h → (∀ e ∈ (s.w.funcs h).trans, ¬
    (e.src = s.w.opState h ∧ e.dst = dst % 8 ∧ (e.mode = 1 ∨ e.mode = 3))) →
    Completes (.setStateRequest h init dst) s fun t =>
      t.w.rd h F.SET_STATE.STATE = s.w.rd h F.SET_STATE.STATE ∧
      t.w.rd h F.SET_STATE.REFUSE = 1 ∧ t.w.set = s.w.set ∧ s.Quiet t) ∧
  (∀ (h : Half) (init dst : Nat) (s : State) (e : Trans), (s.w.run.get h).running = true → s.own.server = some h → (s.w.funcs
    h).trans.find? (fun t => t.src = s.w.opState h && t.dst = dst % 8 && (t.mode = 1 || t.mode = 3)) = some e →
    Completes (.setStateRequest h init dst) s fun t =>
      (s.w.guardHolds h e.guard = false → t.w.rd h F.SET_STATE.REFUSE = 2 ∧ t.w.rd h F.SET_STATE.STATE = s.w.rd h F.SET_STATE.STATE) ∧
      (s.w.guardHolds h e.guard = true → s.w.act.isSome = true ∨ (s.w.shut.get h).step ≠ 0 →
        t.w.rd h F.SET_STATE.REFUSE = 3 ∧ t.w.rd h F.SET_STATE.STATE = s.w.rd h F.SET_STATE.STATE) ∧
      (s.w.guardHolds h e.guard = true → s.w.act = none → (s.w.shut.get h).step = 0 → s.w.opState h = 0 →
        s.w.rd h F.STW_STAGE.CUP_REPORT = 1 →
        t.w.rd h F.SET_STATE.REFUSE = 4 ∧ t.w.rd h F.SET_STATE.STATE = s.w.rd h F.SET_STATE.STATE)) ∧
  (∀ (h : Half) (init dst : Nat) (s : State), s.own.server ≠ some h →
    Completes (.setStateRequest h init dst) s fun t =>
      t = s) ∧
  (∀ (h : Half) (i : Nat) (s : State) (e : Trans), s.w.execRuns h = true → s.own.server = some h → (s.w.funcs h).trans[i]? = some e →
    e.mode = 2 ∨ e.mode = 3 → e.src = s.w.opState h → s.w.guardHolds h e.guard = true → NMap.get 0 (s.w.set.get h).guardAt i ≠ 0 →
    NMap.get 0 (s.w.set.get h).guardAt i - 1 + 200000000 ≤ s.w.now → (∀ j, j < i → s.w.autoDue h j = false) → s.w.stateRefusal h = 0 →
    Completes (.autoTransition h i) s fun t =>
      t.w.rd h F.SET_STATE.STATE = e.dst % 8 ∧ (t.w.set.get h).lastTrans = s.w.now ∧ s.Quiet t) ∧
  (∀ (h : Half) (i : Nat) (s : State), s.w.stateRefusal h ≠ 0 →
    Completes (.autoTransition h i) s fun t =>
      t = s)

/-- Parts of R132–R134, R139: the cycle of a rate class. With one function to run, its record and its registers agree at the cycle's end; a
function
that is late keeps its record; three late cycles in a row hold it; the counters are cleared on request.
Where the spec leaves the model a choice: log entry 28. -/
def Obligations.executorCycles : Prop :=
  (∀ (h : Half) (rate spread : Nat) (s : State) (n : Nat), s.w.execRuns h = true → rate < 4 → 1 ≤ n → n < 30 → (s.w.func h n).used =
    true → (s.w.func h n).rate = rate → (∀ m, m < 30 → (s.w.func h m).used = true → (s.w.func h m).rate = rate → m = n) → s.w.fnRuns
    s.own h n = true →
    Completes (.executorCycle h rate spread []) s fun t =>
      s.Quiet t ∧ (t.w.fn h n).ran = true ∧ (t.w.fn h n).lateRun = 0 ∧
      (t.w.fn h n).cycle = s.w.mt h / ratePeriod rate + 1 ∧ t.w.rd h F.SET_MF_OUT.VALUE n = f32Of (t.w.fn h n).out % 2 ^ 32 ∧
      ∃ line, 1 ≤ line ∧ line ≤ 10 ∧ (t.w.fn h n).ovr = overOf line ∧ t.w.rd h F.SET_MF_STAT.MODE n = modeOf line) ∧
  (∀ (h : Half) (rate spread : Nat) (late : List Nat) (s : State), s.w.execRuns h = true → rate < 4 → (∀ n, n < 30 → (s.w.func h
    n).used = true → (s.w.func h n).rate = rate → n ∈ late ∧ s.w.fnRuns s.own h n = true) →
    Completes (.executorCycle h rate spread late) s fun t =>
      s.Quiet t ∧ (∀ n, t.w.fn h n = s.w.fn h n) ∧
      t.w.rd h (jitterField rate) = max (s.w.rd h (jitterField rate)) (satTo 16 spread) ∧
      ((∃ n, n < 30 ∧ (s.w.func h n).used = true ∧ (s.w.func h n).rate = rate) → (t.w.set.get h).cycK = (s.w.set.get h).cycK)) ∧
  (∀ (h : Half) (rate spread : Nat) (late : List Nat) (s : State), s.w.execRuns h = false →
    Completes (.executorCycle h rate spread late) s fun t =>
      t = s) ∧
  (∀ (h : Half) (n : Nat) (s : State), s.w.execRuns h = true → n < 30 → s.w.fnRuns s.own h n = true →
    Completes (.cycleOverrun h n) s fun t =>
      s.Quiet t ∧ (t.w.fn h n).lateRun = (s.w.fn h n).lateRun + 1 ∧ (t.w.fn h n).onTime = 0 ∧
      ((t.w.fn h n).held = true ↔ (s.w.fn h n).held = true ∨ 2 ≤ (s.w.fn h n).lateRun) ∧
      t.w.rd h F.SET_MF_STAT.OVERRUN n = satInc 8 (s.w.rd h F.SET_MF_STAT.OVERRUN n)) ∧
  (∀ (h : Half) (init : Nat) (s : State),
    Completes (.setClrCnt h init) s fun t =>
      s.Quiet t ∧ (∀ n, n < 30 → t.w.rd h F.SET_MF_STAT.OVERRUN n = 0) ∧
    t.w.rd h F.SET_JITTER0.LO = 0 ∧ t.w.rd h F.SET_JITTER0.HI = 0 ∧ t.w.rd h F.SET_JITTER1.LO = 0 ∧ t.w.rd h F.SET_JITTER1.HI = 0)

/-- Parts of R135, R138–R140, R144: interlocks, holds, pairs, sequences and hand operation of a function. -/
def Obligations.functionTimersAndCommands : Prop :=
  (∀ (h : Half) (n i t0 : Nat) (s : State), n < 30 → i < 4 → (s.w.fn h n).ilkOff.getD i none = some t0 → t0 + 200000000 ≤ s.w.now →
    (s.w.fn h n).ilkOn.length = 4 →
    Completes (.interlockRelease h n i) s fun t =>
      (t.w.fn h n).ilkOn.getD i false = false ∧ s.Quiet t ∧
      ∀ m, m ≠ n → t.w.fn h m = s.w.fn h m) ∧
  (∀ (h : Half) (n i t0 : Nat) (s : State), (s.w.fn h n).ilkOff.getD i none = some t0 → s.w.now < t0 + 200000000 →
    Completes (.interlockRelease h n i) s fun t =>
      t = s) ∧
  (∀ (h : Half) (n : Nat) (s : State), 1 ≤ n → n < 30 → s.w.holdExpired h n = true → (s.w.fn h n).holdOver = false →
    Completes (.conflictHoldExpiry h n) s fun t =>
      (t.w.fn h n).holdOver = true ∧ (t.w.fn h n).ovr = .manual ∧
      t.w.rd h F.SET_MF_STAT.MODE n = 4 ∧ s.Quiet t) ∧
  (∀ (h : Half) (n : Nat) (s : State), n < 30 → (s.w.fn h n).off ≠ 0 → (s.w.fn h n).offAt + 30000000 ≤ s.w.now →
    Completes (.pairReleaseTimeout h n) s fun t =>
      t.w.fn h n = { s.w.fn h n with off := 0 } ∧ s.Quiet t) ∧
  (∀ (h : Half) (n : Nat) (s : State), n < 30 → s.w.now < (s.w.fn h n).offAt + 30000000 →
    Completes (.pairReleaseTimeout h n) s fun t =>
      t = s) ∧
  (∀ (h : Half) (n : Nat) (s : State), n < 30 → (s.w.func h n).law = 5 → (s.w.fn h n).ran = true → (s.w.fn h n).seqOn = true → (s.w.fn
    h n).ovr = .none → ((s.w.table h n).getD (s.w.fn h n).step {}).timeout ≠ 0 → ((s.w.table h n).getD (s.w.fn h n).step {}).next ≠
    0xFF → (s.w.fn h n).stepAt + ((s.w.table h n).getD (s.w.fn h n).step {}).timeout * 10000000 ≤ s.w.now →
    Completes (.seqStepTimeout h n) s fun t =>
      s.Quiet t ∧
      (((s.w.table h n).getD (s.w.fn h n).step {}).onTo < (s.w.table h n).length →
        (t.w.fn h n).step = ((s.w.table h n).getD (s.w.fn h n).step {}).onTo ∧ (t.w.fn h n).stepAt = s.w.now) ∧
      ((s.w.table h n).length ≤ ((s.w.table h n).getD (s.w.fn h n).step {}).onTo → (t.w.fn h n).seqOn = false)) ∧
  (∀ (h : Half) (init n : Nat) (s : State), n < 30 → (s.w.func h n).law = 5 →
    Completes (.mfSeqStart h init n) s fun t =>
      t.w.fn h n = { s.w.fn h n with startReq := true } ∧ s.Quiet t) ∧
  (∀ (h : Half) (init n : Nat) (s : State), n < 30 →
    Completes (.mfSeqStep h init n) s fun t =>
      t.w.fn h n = { s.w.fn h n with stepReq := true } ∧ s.Quiet t) ∧
  (∀ (h : Half) (init n : Nat) (s : State), n < 30 → (s.w.func h n).law = 5 →
    Completes (.mfSeqAbort h init n) s fun t =>
      t.w.fn h n = { s.w.fn h n with seqOn := false, startReq := false } ∧ s.Quiet t) ∧
  (∀ (h : Half) (init n : Nat) (on : Bool) (s : State), n < 30 → (s.w.func h n).manOk = true →
    Completes (.mfManual h init n on) s fun t =>
      t.w.rd h F.SET_MF_CMD.MANUAL n = b2n on ∧ s.Quiet t) ∧
  (∀ (h : Half) (init n : Nat) (on : Bool) (s : State), (s.w.func h n).manOk = false →
    Completes (.mfManual h init n on) s fun t =>
      t = s)

/-- R75: a Roast that fails in the PENDING slot is marked invalid there; the ACTIVE Roast, the running loops, the tokens and the Green shadow
are not touched.
Where the spec leaves the model a choice: log entry 7. -/
def Obligations.failedRoastTouchesNothing : Prop :=
  (∀ (h : Half) (s : State), (s.w.run.get h).running = true → s.w.sessState h 6 = 2 → (s.w.sess h 6).written ≠ [] → (∀ i, i <
    blockCount (s.w.sess h 6).len → i ∈ (s.w.sess h 6).written) → (verify (s.w.verEnv h (s.w.sess h 6).tech) (s.w.region h
    6).bytes).res ≠ 0 →
    Completes (.updCheckComplete h 6) s fun t =>
      (t.w.roast.get h).pending.valid = false ∧ t.w.rd h F.UPD_REGION.VALID 6 = 0 ∧ (t.w.roast.get h).active = (s.w.roast.get h).active ∧
      (t.w.roast.get h).running = (s.w.roast.get h).running ∧ t.w.roast.get h.other = s.w.roast.get h.other ∧
      t.w.set = s.w.set ∧ t.w.run = s.w.run ∧ t.own = s.own ∧ t.w.bp = s.w.bp ∧
      t.w.rd h F.UPD_RESULT.ROAST = (verify (s.w.verEnv h (s.w.sess h 6).tech) (s.w.region h 6).bytes).res % 16)

/-- Parts of R147, R149–R152: ENGAGE while armed, the release with its reason, the acknowledged alert, the pass selected.
Where the spec leaves the model a choice: log entries 8, 30. -/
def Obligations.steeringEngages : Prop :=
  (∀ (h : Half) (init : Nat) (s : State), s.w.flag h F.SET_STEER_STATUS.ARMED = true → s.w.flag h F.SET_STEER_STATUS.ENGAGED = false →
    s.w.fnRuns s.own h 0 = true → s.w.armed h true = true →
    Completes (.steerEngage h init) s fun t =>
      t.w.rd h F.SET_STEER_STATUS.ENGAGED = 1 ∧ t.w.rd h F.SET_STEER_STATUS.REASON = 0 ∧
      (∀ x ∈ s.w.steerSee h, t.w.rd h F.SET_STEER_STATUS.PASS = toTwos 16 (x.l.nearest x.at_.d) ∧
        t.w.rd h F.SET_STEER_CTRL.PASS = toTwos 16 (x.l.nearest x.at_.d)) ∧ s.Quiet t) ∧
  (∀ (h : Half) (init : Nat) (s : State), s.w.flag h F.SET_STEER_STATUS.ARMED = false →
    Completes (.steerEngage h init) s fun t =>
      t = s) ∧
  (∀ (h : Half) (init : Nat) (s : State), s.w.flag h F.SET_STEER_STATUS.ENGAGED = true →
    Completes (.steerDisengage h init) s fun t =>
      t.w.rd h F.SET_STEER_STATUS.ENGAGED = 0 ∧ t.w.rd h F.SET_STEER_STATUS.REASON = 1 ∧ (t.w.fn h 0).integ = 0 ∧
      (t.w.fn h 0).out = 0 ∧ (t.w.set.get h).steer.kappa = 0 ∧
      (t.w.set.get h).steer.alertOn = (s.w.set.get h).steer.alertOn ∧ s.Quiet t) ∧
  (∀ (h : Half) (init : Nat) (s : State), s.w.flag h F.SET_STEER_STATUS.ENGAGED = false →
    Completes (.steerDisengage h init) s fun t =>
      t = s) ∧
  (∀ (h : Half) (s : State) (t0 : Nat), s.w.flag h F.SET_STEER_STATUS.ENGAGED = true → (s.w.set.get h).steer.lowQAt = some t0 → t0 +
    1000000000 ≤ s.w.now →
    Completes (.steerReleaseTimeout h) s fun t =>
      t.w.rd h F.SET_STEER_STATUS.ENGAGED = 0 ∧ t.w.rd h F.SET_STEER_STATUS.REASON = 4 ∧
      (t.w.set.get h).steer.alertOn = true ∧ (t.w.set.get h).steer.alertAt = s.w.now ∧ s.Quiet t) ∧
  (∀ (h : Half) (s : State) (t0 : Nat), s.w.flag h F.SET_STEER_STATUS.ENGAGED = true → (s.w.set.get h).steer.lowQAt = none →
    (s.w.set.get h).steer.speedAt = some t0 → t0 + 500000000 ≤ s.w.now →
    Completes (.steerReleaseTimeout h) s fun t =>
      t.w.rd h F.SET_STEER_STATUS.ENGAGED = 0 ∧ t.w.rd h F.SET_STEER_STATUS.REASON = 5 ∧
      (t.w.set.get h).steer.alertOn = true ∧ s.Quiet t) ∧
  (∀ (h : Half) (s : State), (s.w.set.get h).steer.lowQAt = none → (s.w.set.get h).steer.speedAt = none →
    Completes (.steerReleaseTimeout h) s fun t =>
      t = s) ∧
  (∀ (h : Half) (init : Nat) (s : State), (s.w.set.get h).steer.alertOn = true →
    Completes (.steerAck h init) s fun t =>
      ((s.w.set.get h).steer.alertMin = true → (t.w.set.get h).steer.alertOn = false ∧
        t.w.rd h F.SET_STEER_STATUS.ALERT = b2n (s.w.set.get h).steer.warned) ∧
      ((s.w.set.get h).steer.alertMin = false → (t.w.set.get h).steer = { (s.w.set.get h).steer with alertAck := true }) ∧ s.Quiet t) ∧
  (∀ (h : Half) (s : State), (s.w.set.get h).steer.alertOn = true → (s.w.set.get h).steer.alertAt + (s.w.funcs h).steer.alertMs *
    1000000 ≤ s.w.now →
    Completes (.alertMinExpiry h) s fun t =>
      (t.w.set.get h).steer.alertMin = true ∧
      ((t.w.set.get h).steer.alertOn = true ↔ (s.w.set.get h).steer.alertAck = false) ∧ s.Quiet t) ∧
  (∀ (h : Half) (s : State), s.w.now < (s.w.set.get h).steer.alertAt + (s.w.funcs h).steer.alertMs * 1000000 →
    Completes (.alertMinExpiry h) s fun t =>
      t = s) ∧
  (∀ (h : Half) (init v : Nat) (s : State),
    Completes (.steerPassSelect h init v) s fun t =>
      t.w.rd h F.SET_STEER_CTRL.PASS = v % 65536 ∧ t.w.rd h F.SET_STEER_STATUS.PASS =
        (if s.w.flag h F.SET_STEER_STATUS.ENGAGED then v % 65536 else s.w.rd h F.SET_STEER_STATUS.PASS) ∧
      World.RegsBut [F.SET_STEER_CTRL.PASS.reg, F.SET_STEER_STATUS.PASS.reg] s.w t.w ∧ s.Quiet t)

/-- Parts of R148: LOAD takes the record, its check gives the result, only a good one fills its slot; CLEAR empties a slot that steering does
not follow.
Where the spec leaves the model a choice: log entry 31. -/
def Obligations.guidanceLines : Prop :=
  (∀ (h : Half) (init k : Nat) (s : State), (s.w.run.get h).running = true → k < 8 → s.w.rd h F.SET_LINE_STAT.BUSY = 0 →
    Completes (.lineLoad h init k) s fun t =>
      t.w.rd h F.SET_LINE_STAT.BUSY = 1 ∧ s.Quiet t ∧ (t.w.set.get h).loading =
        some (k, s.w.getMem h 0 (s.w.rd h F.SET_LINE_ADDR.ADDR) (32 + 8 * min 4096 (u16At (s.w.getMem h 0 (s.w.rd h F.SET_LINE_ADDR.ADDR) 4) 2)))) ∧
  (∀ (h : Half) (init k : Nat) (s : State), s.w.rd h F.SET_LINE_STAT.BUSY = 1 →
    Completes (.lineLoad h init k) s fun t =>
      t = s) ∧
  (∀ (h : Half) (k : Nat) (bs : List Byte) (s : State), (s.w.set.get h).loading = some (k, bs) → k < 8 →
    Completes (.lineLoadComplete h) s fun t =>
      t.w.rd h F.SET_LINE_STAT.BUSY = 0 ∧ (t.w.set.get h).loading = none ∧ s.Quiet t ∧
      (s.w.lineEngaged h k = true → t.w.rd h F.SET_LINE_STAT.RES = 3 ∧ (t.w.set.get h).lines = (s.w.set.get h).lines) ∧
      (s.w.lineEngaged h k = false → t.w.rd h F.SET_LINE_STAT.RES = lineCheck bs) ∧
      (s.w.lineEngaged h k = false → lineCheck bs = 0 → bitOf (t.w.rd h F.SET_LINE_STAT.VALID) k = true ∧
        NMap.get {} (t.w.set.get h).lines k = lineOf bs) ∧
      (s.w.lineEngaged h k = false → lineCheck bs ≠ 0 → t.w.rd h F.SET_LINE_STAT.VALID = s.w.rd h F.SET_LINE_STAT.VALID ∧
        (t.w.set.get h).lines = (s.w.set.get h).lines)) ∧
  (∀ (h : Half) (s : State), (s.w.set.get h).loading = none →
    Completes (.lineLoadComplete h) s fun t =>
      t = s) ∧
  (∀ (h : Half) (init k : Nat) (s : State), k < 8 → s.w.lineEngaged h k = false →
    Completes (.lineClear h init k) s fun t =>
      bitOf (t.w.rd h F.SET_LINE_STAT.VALID) k = false ∧ NMap.get {} (t.w.set.get h).lines k = {} ∧
      (∀ j, j < 8 → j ≠ k → bitOf (t.w.rd h F.SET_LINE_STAT.VALID) j = bitOf (s.w.rd h F.SET_LINE_STAT.VALID) j) ∧ s.Quiet t) ∧
  (∀ (h : Half) (init k : Nat) (s : State), s.w.lineEngaged h k = true →
    Completes (.lineClear h init k) s fun t =>
      t = s)

/-- Parts of R159–R161, R165: what each end of a solve leaves in SET_OPT_STATUS, SET_OPT_SOLN and the run of fallbacks.
Parts of R155, R161, R165, R166, R170–R176: the 20 ms boundary, a dither step, MODE, PROFILE, RESET_MODEL and the targets.
Where the spec leaves the model a choice: log entries 32, 33. -/
def Obligations.optimizerSolves : Prop :=
  (∀ (h : Half) (sol : OptSol) (s : State), s.w.optRuns s.own h = true → ((s.w.learnt h).opt.get h).idle = true →
    Completes (.optSolve h sol) s fun t =>
      t.w.rd h F.SET_OPT_STATUS.RES = 6 ∧ t.w.rd h F.SET_OPT_STATUS.ITER = 0 ∧ t.w.rd h F.SET_OPT_STATUS.DROPPED = 0 ∧
      t.w.rd h F.SET_OPT_STATUS.DITHER_ON = 0 ∧ (t.w.opt.get h).idle = false ∧ s.Quiet t) ∧
  (∀ (h : Half) (sol : OptSol) (s : State), s.w.optRuns s.own h = true → ((s.w.learnt h).opt.get h).idle = false → (s.w.learnt
    h).gradeOf h = 0 →
    Completes (.optSolve h sol) s fun t =>
      t.w.rd h F.SET_OPT_STATUS.RES = 5 ∧ t.w.rd h F.SET_OPT_STATUS.ITER = 0 ∧ t.w.rd h F.SET_OPT_STATUS.DITHER_ON = 0 ∧ s.Quiet t) ∧
  (∀ (h : Half) (sol : OptSol) (s : State), s.w.optRuns s.own h = true → ((s.w.learnt h).opt.get h).idle = false → (s.w.learnt
    h).gradeOf h ≠ 0 → ((s.w.atSolve h).optProb s.own h).valid sol = true → sol.res ≤ 2 →
    Completes (.optSolve h sol) s fun t =>
      t.w.rd h F.SET_OPT_STATUS.RES = sol.res ∧ t.w.rd h F.SET_OPT_STATUS.ITER = sol.iter ∧
      t.w.rd h F.SET_OPT_STATUS.DROPPED = droppedBits sol.farkas.length ∧ t.w.rd h F.SET_OPT_CORR.SOLVE_T = satTo 16 sol.us ∧
      t.w.rd h F.SET_OPT_STATUS.FAILS = 0 ∧ t.w.rd h F.SET_OPT_STATUS.RETREAT = 0 ∧ s.Quiet t ∧
      ∀ i, i < ((s.w.atSolve h).optm h).vars.length → t.w.rd h F.SET_OPT_SOLN.VALUE i =
        f32Of (((s.w.atSolve h).optProb s.own h).x0.getD i 0 + sol.dx.getD i 0) % 2 ^ 32) ∧
  (∀ (h : Half) (sol : OptSol) (s : State), s.w.optRuns s.own h = true → ((s.w.learnt h).opt.get h).idle = false → (s.w.learnt
    h).gradeOf h ≠ 0 → ((s.w.atSolve h).optProb s.own h).valid sol = true → 3 ≤ sol.res →
    Completes (.optSolve h sol) s fun t =>
      t.w.rd h F.SET_OPT_STATUS.RES = sol.res ∧ (t.w.opt.get h).fails = ((s.w.atSolve h).opt.get h).fails + 1 ∧
      t.w.rd h F.SET_OPT_STATUS.FAILS = satTo 4 (((s.w.atSolve h).opt.get h).fails + 1) ∧
      (((s.w.atSolve h).opt.get h).fails + 1 = ((s.w.atSolve h).optm h).retreatN → t.w.rd h F.SET_OPT_STATUS.RETREAT = 1) ∧
      (∀ i, t.w.rd h F.SET_OPT_SOLN.VALUE i = s.w.rd h F.SET_OPT_SOLN.VALUE i) ∧ s.Quiet t) ∧
  (∀ (h : Half) (sol : OptSol) (s : State), s.w.optRuns s.own h = false →
    Completes (.optSolve h sol) s fun t =>
      t = s) ∧
  (∀ (h : Half) (s : State), s.w.optRuns s.own h = true →
    Completes (.lookaheadUpdate h) s fun t =>
      s.Quiet t ∧ t.w.fresh = s.w.fresh + 2 ∧ (t.w.opt.get h).ff.length = (s.w.optm h).vars.length ∧
      (∀ i, i < (s.w.optm h).vars.length → t.w.rd h F.SET_OPT_FF.VALUE i = f32Of ((t.w.opt.get h).ff.getD i 0) % 2 ^ 32) ∧
      (∀ x ∈ (t.w.opt.get h).hist, s.w.mt h ≤ x.t + 60000000000) ∧ ∃ p ∈ (t.w.opt.get h).hist, p.t = s.w.mt h) ∧
  (∀ (h : Half) (s : State), s.w.optRuns s.own h = false →
    Completes (.lookaheadUpdate h) s fun t =>
      t = s) ∧
  (∀ (h : Half) (i : Nat) (s : State), s.w.optRuns s.own h = true → ((s.w.optm h).vars.getD i {}).dither = true → i < (s.w.opt.get
    h).lfsr.length →
    Completes (.ditherStep h i) s fun t =>
      (t.w.opt.get h).lfsr.getD i 0 = lfsrStep ((s.w.opt.get h).lfsr.getD i 0) ∧
      (∀ j, j ≠ i → (t.w.opt.get h).lfsr.getD j 0 = (s.w.opt.get h).lfsr.getD j 0) ∧ World.RegsBut [] s.w t.w ∧ s.Quiet t) ∧
  (∀ (h : Half) (init v : Nat) (s : State), v < 3 →
    Completes (.optModeWrite h init v) s fun t =>
      t.w.rd h F.SET_OPT_CTRL.MODE = v ∧ (t.w.opt.get h).mode = (s.w.opt.get h).mode ∧
      World.RegsBut [F.SET_OPT_CTRL.MODE.reg] s.w t.w ∧ s.Quiet t) ∧
  (∀ (h : Half) (init v : Nat) (s : State), 3 ≤ v →
    Completes (.optModeWrite h init v) s fun t =>
      t = s) ∧
  (∀ (h : Half) (init v : Nat) (s : State), v < (s.w.optm h).profs.length → v < 8 → v ≠ s.w.rd h F.SET_OPT_CTRL.PROFILE → (s.w.opt.get
    h).first = false →
    Completes (.optProfileWrite h init v) s fun t =>
      t.w.rd h F.SET_OPT_CTRL.PROFILE = v ∧ (t.w.opt.get h).c = 1 ∧ (t.w.opt.get h).idle = true ∧
      t.w.rd h F.SET_OPT_STATUS.RES = 6 ∧ t.w.rd h F.SET_OPT_CORR.CORR = 1000 ∧
      (t.w.opt.get h).learn.map (·.theta) = (List.range (s.w.optm h).outs.length).map (fun j => ((s.w.optm h).profs.getD v {}).theta.getD j []) ∧
      s.Quiet t) ∧
  (∀ (h : Half) (init v : Nat) (s : State), (s.w.optm h).profs.length ≤ v →
    Completes (.optProfileWrite h init v) s fun t =>
      t = s) ∧
  (∀ (h : Half) (init : Nat) (s : State), (s.w.opt.get h).sec.isSome = true →
    Completes (.optResetModel h init) s fun t =>
      (t.w.opt.get h).c = 1 ∧ (t.w.opt.get h).idle = true ∧ (t.w.opt.get h).learn.length = (s.w.optm h).outs.length ∧
      t.w.rd h F.SET_OPT_STATUS.RES = 6 ∧ t.w.rd h F.SET_OPT_CORR.CORR = 1000 ∧
      World.RegsBut [F.SET_OPT_STATUS.RES.reg, F.SET_OPT_CORR.CORR.reg] s.w t.w ∧ s.Quiet t) ∧
  (∀ (h : Half) (init which v : Nat) (s : State), 1 ≤ which → which ≤ 4 → v < 2 ^ 32 → (s.w.optm h).tgtMaxOf which = none → which = 1
    ∨ 0 ≤ f32Val v → (s.w.optm h).cons = [] →
    Completes (.optTargetWrite h init which v) s fun t =>
      t.w.rd h (tgtField which) = v ∧ t.w.rd h F.SET_OPT_STATUS.TGT_CLAMP = 0 ∧
      World.RegsBut [(tgtField which).reg, F.SET_OPT_STATUS.TGT_CLAMP.reg] s.w t.w ∧ s.Quiet t) ∧
  (∀ (h : Half) (init which v : Nat) (s : State) (top : Rat), 1 ≤ which → which ≤ 4 → (s.w.optm h).tgtMaxOf which = some top → top <
    f32Val v →
    Completes (.optTargetWrite h init which v) s fun t =>
      t.w.rd h (tgtField which) = f32Of top % 2 ^ 32 ∧ t.w.rd h F.SET_OPT_STATUS.TGT_CLAMP = 1 ∧ s.Quiet t) ∧
  (∀ (h : Half) (init v : Nat) (s : State),
    Completes (.optTargetWrite h init 5 v) s fun t =>
      t.w.rd h F.SET_OPT_PREF.PREF = min v 100 ∧ t.w.rd h F.SET_OPT_STATUS.TGT_CLAMP = b2n (100 < v) ∧
      World.RegsBut [F.SET_OPT_PREF.PREF.reg, F.SET_OPT_STATUS.TGT_CLAMP.reg] s.w t.w ∧ s.Quiet t)

/-- Parts of R193–R198, R201, R206–R208: an engine that runs and waits for nothing executes the word at its program counter. -/
def Obligations.recipeInstructions : Prop :=
  (∀ (ch v : Nat) (s : State), s.w.word ch = some v → bitsOf v 27 5 = 0x00 →
    Completes (.halt ch) s fun t =>
      t.w.rd .A F.VLV_STATUS.RUN ch = 0 ∧ t.w.rd .A F.VLV_STATUS.SRC ch = 0 ∧ (t.w.eng ch).wait = .none ∧ (t.w.eng ch).req = none ∧
      (t.w.eng ch).dith = {} ∧ t.w.rd .A F.VLV_ENG.PC ch = s.w.rd .A F.VLV_ENG.PC ch ∧ s.Quiet t) ∧
  (∀ (ch v : Nat) (s : State), s.w.word ch = some v → bitsOf v 27 5 = 0x01 →
    Completes (.phase ch) s fun t =>
      t.w.rd .A F.VLV_STATUS.PHASE ch = bitsOf v 24 3 ∧ t.w.rd .A F.VLV_STATUS.TOFF ch = bitsOf v 22 2 ∧
      ((t.w.eng ch).hold = bitOf v 21) ∧ ((t.w.eng ch).peak = bitOf v 20) ∧ (t.w.eng ch).pend = none ∧
      t.w.rd .A F.VLV_STATUS.BAND ch = ((s.w.eng ch).pend.getD (s.w.rd .A F.VLV_STATUS.BAND ch)) % 4 ∧
      s.w.Stepped t.w ch ∧ s.Quiet t) ∧
  (∀ (ch v : Nat) (s : State), s.w.word ch = some v → bitsOf v 27 5 = 0x02 → bitsOf v 25 2 = 0 →
    Completes (.src ch) s fun t =>
      t.w.rd .A F.VLV_STATUS.SRC ch = 0 ∧ (t.w.eng ch).noneAt = some s.w.now ∧ (t.w.eng ch).tgt = (s.w.eng ch).tgt ∧
      (t.w.eng ch).drive = .off ∧ (t.w.eng ch).kink = false ∧ s.w.Stepped t.w ch ∧ s.Quiet t) ∧
  (∀ (ch v : Nat) (s : State), s.w.word ch = some v → bitsOf v 27 5 = 0x02 → bitsOf v 25 2 = 1 ∨ bitsOf v 25 2 = 2 ∧ s.w.flag .A
    F.VLV_STATUS.DUTY_HW ch = true →
    Completes (.src ch) s fun t =>
      t.w.rd .A F.VLV_STATUS.SRC ch = 1 ∧ t.w.rd .A F.VLV_STATUS.DELAYED ch = 0 ∧ t.w.rd .A F.VLV_STATUS.GREEN ch = 0 ∧
      (t.w.eng ch).level = none ∧ (t.w.eng ch).timeout = false ∧ s.w.Stepped t.w ch ∧ s.Quiet t) ∧
  (∀ (ch v : Nat) (s : State), s.w.word ch = some v → bitsOf v 27 5 = 0x02 → bitsOf v 25 2 = 2 → s.w.flag .A F.VLV_STATUS.DUTY_HW ch =
    false →
    Completes (.src ch) s fun t =>
      (s.w.boostFree ch = true → t.w.rd .A F.VLV_STATUS.SRC ch = 2 ∧ t.w.rd .A F.VLV_STATUS.DELAYED ch = 0 ∧ s.w.Stepped t.w ch) ∧
      (s.w.boostFree ch = false → t.w.rd .A F.VLV_STATUS.SRC ch = s.w.rd .A F.VLV_STATUS.SRC ch ∧
        t.w.rd .A F.VLV_STATUS.DELAYED ch = 1 ∧ (t.w.eng ch).req = some ⟨true, s.w.now, true, false⟩ ∧
        t.w.rd .A F.VLV_CNT.DELAYS ch = satInc 8 (s.w.rd .A F.VLV_CNT.DELAYS ch) ∧
        t.w.rd .A F.VLV_ENG.PC ch = s.w.rd .A F.VLV_ENG.PC ch) ∧ s.Quiet t) ∧
  (∀ (ch v : Nat) (s : State), s.w.word ch = some v → bitsOf v 27 5 = 0x03 →
    Completes (.seti ch) s fun t =>
      (t.w.eng ch).want = s.w.cur16 ch v ∧ ((t.w.eng ch).track = decide (bitsOf v 14 2 = 2)) ∧ (t.w.eng ch).ramp = none ∧
      (s.w.rd .A F.VLV_STATUS.SRC ch = 0 → (t.w.eng ch).req = none) ∧
      ((t.w.eng ch).req = none → (t.w.eng ch).tgt = s.w.cur16 ch v ∧ t.w.rd .A F.VLV_STATUS.DELAYED ch = 0 ∧ s.w.Stepped t.w ch) ∧
      ((t.w.eng ch).req ≠ none → (t.w.eng ch).tgt = (s.w.eng ch).tgt ∧ t.w.rd .A F.VLV_STATUS.DELAYED ch = 1 ∧
        t.w.rd .A F.VLV_ENG.PC ch = s.w.rd .A F.VLV_ENG.PC ch) ∧ s.Quiet t) ∧
  (∀ (ch v : Nat) (s : State), s.w.word ch = some v → bitsOf v 27 5 = 0x04 → bitsOf (s.w.param ch (bitsOf v 22 4)) 0 16 ≠ 0 → (s.w.eng
    ch).ramp = none →
    Completes (.ramp ch) s fun t =>
      (t.w.eng ch).ramp = some ⟨(s.w.eng ch).tgt, s.w.cur16 ch v, s.w.now, tim19 (s.w.param ch (bitsOf v 22 4) % 2 ^ 18)⟩ ∧
      (t.w.eng ch).want = max (s.w.eng ch).tgt (s.w.cur16 ch v) ∧
      (s.w.rd .A F.VLV_STATUS.SRC ch = 0 → (t.w.eng ch).req = none) ∧
      ((t.w.eng ch).req = none → (t.w.eng ch).tgt = max (s.w.eng ch).tgt (s.w.cur16 ch v) ∧ s.w.Stepped t.w ch) ∧
      ((t.w.eng ch).req ≠ none → t.w.rd .A F.VLV_ENG.PC ch = s.w.rd .A F.VLV_ENG.PC ch) ∧ s.Quiet t) ∧
  (∀ (ch v : Nat) (s : State), s.w.word ch = some v → bitsOf v 27 5 = 0x05 →
    Completes (.wait ch) s fun t =>
      (t.w.eng ch).wait = .time (s.w.now + s.w.time19 ch (bitsOf v 0 19)) (bitOf v 26) (s.w.flag .A F.VLV_STATUS.CMD ch) ∧
      World.RegsBut [] s.w t.w ∧ s.Quiet t) ∧
  (∀ (ch v : Nat) (s : State), s.w.word ch = some v → bitsOf v 27 5 = 0x06 →
    Completes (.waiti ch) s fun t =>
      (t.w.eng ch).wait = .cross (bitOf v 26) (s.w.cur16 ch (bitsOf v 0 16)) (s.w.now + s.w.timeEntry ch (bitsOf v 22 4)) ∧
      (t.w.eng ch).timeout = false ∧ World.RegsBut [] s.w t.w ∧ s.Quiet t) ∧
  (∀ (ch v : Nat) (s : State), s.w.word ch = some v → bitsOf v 27 5 = 0x07 →
    Completes (.waitk ch) s fun t =>
      (t.w.eng ch).wait = .kink (bitOf v 26) s.w.now (s.w.now + s.w.timeEntry ch (bitsOf v 22 4)) (s.w.now + s.w.timeEntry ch (bitsOf v 18 4))
        (s.w.param ch (bitsOf v 14 4)) ∧
      (t.w.eng ch).kink = false ∧ (t.w.eng ch).nokink = false ∧ World.RegsBut [] s.w t.w ∧ s.Quiet t) ∧
  (∀ (ch v : Nat) (s : State), s.w.word ch = some v → bitsOf v 27 5 = 0x08 → s.w.rd .A F.VLV_STATUS.SRC ch = 0 →
    Completes (.dith ch) s fun t =>
      (t.w.eng ch).dith.shape = bitsOf v 25 2 ∧
      (t.w.eng ch).dith.amp = (if bitsOf v 25 2 = 0 then 0 else s.w.param ch (bitsOf v 20 4)) ∧
      (t.w.eng ch).dith.freq = (if bitsOf v 25 2 = 0 then 0 else s.w.param ch (bitsOf v 16 4)) ∧ (t.w.eng ch).tgt = (s.w.eng ch).want ∧
      s.w.Stepped t.w ch ∧ s.Quiet t) ∧
  (∀ (ch v : Nat) (s : State), s.w.word ch = some v → bitsOf v 27 5 = 0x09 →
    Completes (.pwmv ch) s fun t =>
      (t.w.eng ch).drive = .pwm (if s.w.duty16 ch (bitsOf v 0 16) = 0 ∨ s.w.duty16 ch (bitsOf v 0 16) = 1000 then 0
        else s.w.param ch (bitsOf v 23 4)) (s.w.duty16 ch (bitsOf v 0 16)) ∧
      (t.w.eng ch).dith = {} ∧ s.w.Stepped t.w ch ∧ World.RegsBut [F.VLV_ENG.PC.reg] s.w t.w ∧ s.Quiet t) ∧
  (∀ (ch v : Nat) (s : State), s.w.word ch = some v → bitsOf v 27 5 = 0x0A →
    Completes (.jmp ch) s fun t =>
      t.w.rd .A F.VLV_ENG.PC ch = bitsOf v 0 11 ∧ World.RegsBut [F.VLV_ENG.PC.reg] s.w t.w ∧ t.w.vlv = s.w.vlv ∧ s.Quiet t) ∧
  (∀ (ch v : Nat) (s : State), s.w.word ch = some v → bitsOf v 27 5 = 0x0B →
    Completes (.jc ch) s fun t =>
      (s.w.cond ch (bitsOf v 23 4) ≠ bitOf v 22 → t.w.rd .A F.VLV_ENG.PC ch = bitsOf v 0 11 ∧ t.w.vlv = s.w.vlv) ∧
      (s.w.cond ch (bitsOf v 23 4) = bitOf v 22 → s.w.Stepped t.w ch) ∧ World.RegsBut [F.VLV_ENG.PC.reg] s.w t.w ∧ s.Quiet t) ∧
  (∀ (ch v : Nat) (s : State) (n : Nat), s.w.word ch = some v → bitsOf v 27 5 = 0x0C → (s.w.eng ch).ctr.length = 2 → n = ((s.w.eng
    ch).ctr.getD (bitsOf v 26 1) none).getD (bitsOf v 16 10) - 1 →
    Completes (.loop ch) s fun t =>
      (n = 0 → (t.w.eng ch).ctr.getD (bitsOf v 26 1) none = none ∧ s.w.Stepped t.w ch) ∧
      (n ≠ 0 → (t.w.eng ch).ctr.getD (bitsOf v 26 1) none = some n ∧ t.w.rd .A F.VLV_ENG.PC ch = bitsOf v 0 11) ∧
      World.RegsBut [F.VLV_ENG.PC.reg] s.w t.w ∧ s.Quiet t) ∧
  (∀ (ch v : Nat) (s : State), s.w.word ch = some v → bitsOf v 27 5 = 0x0D →
    Completes (.evt ch) s fun t =>
      t.w.rd .A F.VLV_ENG.LAST_EVT ch = bitsOf v 0 8 ∧ s.w.Stepped t.w ch ∧ t.w.vlv.tile = s.w.vlv.tile ∧
      World.RegsBut [F.VLV_ENG.PC.reg, F.EVT_STATUS.LOST.reg] s.w t.w ∧ s.Quiet t) ∧
  (∀ (ch v : Nat) (s : State), s.w.word ch = some v → bitsOf v 27 5 = 0x0E →
    Completes (.off ch) s fun t =>
      t.w.rd .A F.VLV_STATUS.SRC ch = 0 ∧ (t.w.eng ch).tgt = 0 ∧ (t.w.eng ch).want = 0 ∧ (t.w.eng ch).dith = {} ∧
      (t.w.eng ch).noneAt = some s.w.now ∧ (t.w.eng ch).drive = .off ∧ s.w.Stepped t.w ch ∧ s.Quiet t) ∧
  (∀ (ch i : Nat) (v : Int) (x : Nat) (s : State), s.w.word ch = some x → bitsOf x 27 5 = 0x0F → (s.w.eng ch).wk.length = 4 →
    Completes (.ldp ch i v) s fun t =>
      (t.w.eng ch).wk.getD (bitsOf x 16 2) 0 = (if bitsOf x 25 2 = 1 then i else if bitsOf x 25 2 = 2 then toTwos 16 v
        else s.w.cur16 ch (bitsOf x 0 16)) ∧
      (∀ j, j ≠ bitsOf x 16 2 → (t.w.eng ch).wk.getD j 0 = (s.w.eng ch).wk.getD j 0) ∧
      s.w.Stepped t.w ch ∧ World.RegsBut [F.VLV_ENG.PC.reg] s.w t.w ∧ s.Quiet t) ∧
  (∀ (ch i : Nat) (v : Int) (x : Nat) (s : State), s.w.word ch = some x → bitsOf x 27 5 = 0x10 →
    Completes (.meas ch i v) s fun t =>
      t.w.rd .A F.VLV_MEAS.I ch = satTo 16 i ∧ t.w.rd .A F.VLV_MEAS.V ch = toTwos 16 (clampI (-32768) 32767 v) ∧
      t.w.rd .A F.VLV_CUR.I ch = satTo 16 i ∧ s.w.Stepped t.w ch ∧
      World.RegsBut [F.VLV_ENG.PC.reg, F.VLV_MEAS.I.reg, F.VLV_CUR.I.reg] s.w t.w ∧ s.Quiet t) ∧
  (∀ (ch v : Nat) (c : Instr) (s : State), s.w.word ch = some v → c ∈ ([.halt ch, .phase ch, .src ch, .seti ch, .ramp ch, .wait ch,
    .waiti ch, .waitk ch, .dith ch, .pwmv ch, .jmp ch, .jc ch, .loop ch, .evt ch, .off ch] : List Instr) → 0x10 ≤ bitsOf v 27 5 →
    Completes c s fun t =>
      t = s) ∧
  (∀ (ch : Nat) (parity : Bool) (s : State), s.w.rd .A F.VLV_STATUS.RUN ch = 1 → parity = true ∨ (s.w.eng ch).wait = .none ∧ (s.w.eng
    ch).req = none ∧ s.w.word ch = none →
    Completes (.recipeIllegal ch parity) s fun t =>
      t.w.rd .A F.VLV_STATUS.FAULT ch = 4 ∧ t.w.rd .A F.VLV_STATUS.RUN ch = 0 ∧ t.w.rd .A F.VLV_STATUS.SRC ch = 0 ∧ s.Quiet t) ∧
  (∀ (ch v : Nat) (s : State), s.w.word ch = some v → 0x11 ≤ bitsOf v 27 5 →
    Completes (.recipeIllegal ch false) s fun t =>
      t.w.rd .A F.VLV_STATUS.FAULT ch = 4 ∧ t.w.rd .A F.VLV_STATUS.RUN ch = 0 ∧ t.w.rd .A F.VLV_STATUS.SRC ch = 0 ∧ s.Quiet t)

/-- Parts of R192, R195, R202–R204: a WAIT, a WAITI and a WAITK end at their conditions and not before; the reports in VLV_TON and VLV_TOFF. -/
def Obligations.recipeWaitsEnd : Prop :=
  (∀ (ch ends : Nat) (brk cmd : Bool) (s : State), (s.w.eng ch).wait = .time ends brk cmd → ends ≤ s.w.now ∨ brk = true ∧ s.w.flag .A
    F.VLV_STATUS.CMD ch ≠ cmd →
    Completes (.waitEnd ch) s fun t =>
      (t.w.eng ch).wait = .none ∧ s.w.Stepped t.w ch ∧ World.RegsBut [F.VLV_ENG.PC.reg] s.w t.w ∧ s.Quiet t) ∧
  (∀ (ch ends : Nat) (cmd : Bool) (s : State), (s.w.eng ch).wait = .time ends false cmd → s.w.now < ends →
    Completes (.waitEnd ch) s fun t =>
      t = s) ∧
  (∀ (ch i : Nat) (below : Bool) (thr ends : Nat) (s : State), (s.w.eng ch).wait = .cross below thr ends →
    Completes (.waitiEnd ch i) s fun t =>
      t.w.rd .A F.VLV_CUR.I ch = satTo 16 i ∧ s.Quiet t ∧
      ((below = true ∧ i ≤ thr ∨ below = false ∧ thr ≤ i) →
        (t.w.eng ch).wait = .none ∧ (t.w.eng ch).timeout = false ∧ s.w.Stepped t.w ch) ∧
      (¬ (below = true ∧ i ≤ thr ∨ below = false ∧ thr ≤ i) → ends ≤ s.w.now →
        (t.w.eng ch).wait = .none ∧ (t.w.eng ch).timeout = true ∧ s.w.Stepped t.w ch) ∧
      (¬ (below = true ∧ i ≤ thr ∨ below = false ∧ thr ≤ i) → s.w.now < ends → t.w.vlv = s.w.vlv)) ∧
  (∀ (ch k start opens closes thr : Nat) (s : State), (s.w.eng ch).wait = .kink false start opens closes thr → opens ≤ k → k ≤ closes
    → k ≤ s.w.now →
    Completes (.pullKinkConfirm ch k) s fun t =>
      (t.w.eng ch).wait = .none ∧ (t.w.eng ch).kink = true ∧ t.w.rd .A F.VLV_TON.T ch = satTo 24 ((k - (s.w.eng ch).startAt) / 100) ∧
      t.w.rd .A F.VLV_TON.NOKINK ch = 0 ∧ t.w.rd .A F.VLV_TON.SEQ ch = (s.w.rd .A F.VLV_TON.SEQ ch + 1) % 128 ∧
      t.w.rd .A F.VLV_CNT.NOKINK ch = 0 ∧ (s.w.flag .A F.VLV_STATUS.RUN ch = true → s.w.Stepped t.w ch) ∧ s.Quiet t) ∧
  (∀ (ch k start opens closes thr : Nat) (s : State), (s.w.eng ch).wait = .kink true start opens closes thr → opens ≤ k → k ≤ closes →
    k ≤ s.w.now →
    Completes (.closeKinkDetect ch k) s fun t =>
      (t.w.eng ch).wait = .none ∧ (t.w.eng ch).kink = true ∧
      t.w.rd .A F.VLV_TOFF.T ch = satTo 24 ((k - (s.w.eng ch).reference true start) / 100) ∧ t.w.rd .A F.VLV_TOFF.NOKINK ch = 0 ∧
      t.w.rd .A F.VLV_TOFF.SEQ ch = (s.w.rd .A F.VLV_TOFF.SEQ ch + 1) % 128 ∧
      t.w.rd .A F.VLV_CNT.RELEASES ch = satInc 16 (s.w.rd .A F.VLV_CNT.RELEASES ch) ∧
      (s.w.flag .A F.VLV_STATUS.RUN ch = true → s.w.Stepped t.w ch) ∧ s.Quiet t) ∧
  (∀ (ch : Nat) (close : Bool) (start opens closes thr : Nat) (s : State), (s.w.eng ch).wait = .kink close start opens closes thr →
    closes ≤ s.w.now →
    Completes (.kinkWindowClose ch) s fun t =>
      (t.w.eng ch).wait = .none ∧ (t.w.eng ch).nokink = true ∧ t.w.rd .A (if close then F.VLV_TOFF.NOKINK else F.VLV_TON.NOKINK) ch = 1 ∧
      t.w.rd .A (if close then F.VLV_TOFF.T else F.VLV_TON.T) ch = satTo 24 ((closes - (s.w.eng ch).reference close start) / 100) ∧
      t.w.rd .A F.VLV_CNT.NOKINK ch = satInc 8 (s.w.rd .A F.VLV_CNT.NOKINK ch) ∧
      (s.w.flag .A F.VLV_STATUS.RUN ch = true → s.w.Stepped t.w ch) ∧ s.Quiet t) ∧
  (∀ (ch k : Nat) (close : Bool) (start opens closes thr : Nat) (s : State), (s.w.eng ch).wait = .kink close start opens closes thr →
    k < opens ∨ closes < k ∨ s.w.now < k →
    Completes (.pullKinkConfirm ch k) s fun t =>
      t = s)

/-- Parts of R20, R187, R189, R190, R194, R211, R213, R214, R219: the command level, the set-point, CLR_FAULT, KNOCK, CLR_CNT; a write by a
half that does not own the channel is a violation.
Where the spec leaves the model a choice: log entries 3, 34. -/
def Obligations.valveChannelCommands : Prop :=
  (∀ (h : Half) (init : Nat) (s : State) (ch : Nat), s.own.alive h = true → s.w.rd h F.VLV_SEL.CH init = ch → ch < 96 → (s.w.tileSt
    (tileOf ch)).ready = true → s.own.owns h ch = true → s.w.safeOn ch = false → (s.w.chanRef ch).ref ≠ 0 →
    Completes (.vlvCommand h init true) s fun t =>
      t.w.rd .A F.VLV_CMD.ON ch = 1 ∧ t.w.rd .A F.VLV_STATUS.CMD ch = 1 ∧ t.w.rd .A F.VLV_STATUS.KNOCKED ch = s.w.rd .A F.VLV_STATUS.KNOCKED ch ∧
      World.RegsBut [F.VLV_CMD.ON.reg, F.VLV_STATUS.CMD.reg] s.w t.w ∧ s.Quiet t) ∧
  (∀ (h : Half) (init : Nat) (s : State) (ch : Nat), s.own.alive h = true → s.w.rd h F.VLV_SEL.CH init = ch → ch < 96 → (s.w.tileSt
    (tileOf ch)).ready = true → s.own.owns h ch = true → s.w.safeOn ch = false → (s.w.chanRef ch).ref = 0 →
    Completes (.vlvCommand h init true) s fun t =>
      t.w.rd .A F.VLV_STATUS.FAULT ch = 5 ∧ t.w.rd .A F.VLV_STATUS.CMD ch = s.w.rd .A F.VLV_STATUS.CMD ch ∧
      World.RegsBut [F.VLV_STATUS.FAULT.reg] s.w t.w ∧ s.Quiet t) ∧
  (∀ (h : Half) (init : Nat) (s : State) (ch : Nat), s.own.alive h = true → s.w.rd h F.VLV_SEL.CH init = ch → ch < 96 → (s.w.tileSt
    (tileOf ch)).ready = true → s.own.owns h ch = true → s.w.safeOn ch = false →
    Completes (.vlvCommand h init false) s fun t =>
      t.w.rd .A F.VLV_CMD.ON ch = 0 ∧ t.w.rd .A F.VLV_STATUS.CMD ch = 0 ∧ t.w.rd .A F.VLV_STATUS.KNOCKED ch = 0 ∧
      (s.w.flag .A F.VLV_STATUS.CMD ch = true → (t.w.eng ch).offAt = some s.w.now) ∧
      (s.w.flag .A F.VLV_STATUS.GREEN ch = true → t.w.rd .A F.VLV_STATUS.GREEN ch = 0) ∧ s.Quiet t) ∧
  (∀ (h : Half) (init v : Nat) (s : State) (ch : Nat), s.own.alive h = true → s.w.rd h F.VLV_SEL.CH init = ch → ch < 96 → (s.w.tileSt
    (tileOf ch)).ready = true → s.own.owns h ch = true → s.w.safeOn ch = false →
    Completes (.vlvSetpointWrite h init v) s fun t =>
      t.w.rd .A F.VLV_SETPOINT.MA ch = v % 2 ^ 14 ∧
      ((s.w.eng ch).track = true → (t.w.eng ch).want = min (v % 2 ^ 14) (s.w.iMax ch)) ∧
      ((s.w.eng ch).track = false → World.RegsBut [F.VLV_SETPOINT.MA.reg] s.w t.w ∧ t.w.vlv = s.w.vlv) ∧ s.Quiet t) ∧
  (∀ (h : Half) (init : Nat) (s : State) (ch : Nat), s.own.alive h = true → s.w.rd h F.VLV_SEL.CH init = ch → ch < 96 → (s.w.tileSt
    (tileOf ch)).ready = true → s.own.owns h ch = true → s.w.safeOn ch = false →
    Completes (.vlvClrFault h init) s fun t =>
      t.w.rd .A F.VLV_STATUS.FAULT ch = (if s.w.rd .A F.VLV_CMD.ON ch = 1 then s.w.rd .A F.VLV_STATUS.FAULT ch else 0) ∧
      World.RegsBut [F.VLV_STATUS.FAULT.reg] s.w t.w ∧ s.Quiet t) ∧
  (∀ (h : Half) (init : Nat) (s : State) (ch : Nat), s.own.alive h = true → s.w.rd h F.VLV_SEL.CH init = ch → ch < 96 → (s.w.tileSt
    (tileOf ch)).ready = true → s.own.owns h ch = true → s.w.safeOn ch = false →
    Completes (.vlvKnock h init) s fun t =>
      t.w.rd .A F.VLV_STATUS.KNOCKED ch = 1 ∧ t.w.rd .A F.VLV_STATUS.RUN ch = 0 ∧ t.w.rd .A F.VLV_STATUS.SRC ch = 0 ∧
      (t.w.eng ch).level = none ∧ (t.w.eng ch).wait = .none ∧ s.Quiet t) ∧
  (∀ (h : Half) (init : Nat) (s : State) (ch : Nat), s.own.alive h = true → s.w.rd h F.VLV_SEL.CH init = ch → ch < 96 → s.own.ownsAny
    h (16 * (ch / 16)) 16 = true →
    Completes (.vlvClrCnt h init) s fun t =>
      (∀ j, 16 * (ch / 16) ≤ j → j < 16 * (ch / 16) + 16 → t.w.reg .A F.VLV_CNT.NOKINK j = 0) ∧
      World.RegsBut [F.VLV_CNT.NOKINK.reg] s.w t.w ∧ t.w.vlv = s.w.vlv ∧ s.Quiet t) ∧
  (∀ (h : Half) (init : Nat) (on : Bool) (v : Nat) (c : Instr) (s : State) (ch : Nat), c ∈ [Instr.vlvCommand h init on,
    .vlvSetpointWrite h init v, .vlvClrFault h init, .vlvKnock h init] → s.own.alive h = true → s.w.rd h F.VLV_SEL.CH init = ch → ch <
    96 → (s.w.tileSt (tileOf ch)).ready = true → s.own.owns h ch = false →
    Completes c s fun t =>
      t.w.rd h F.OWN_VIOL.OBJ = ch ∧ t.w.rd h F.OWN_VIOL.INIT = init % 16 ∧ t.w.vlv = s.w.vlv ∧
      World.RegsBut [F.OWN_VIOL.OBJ.reg, F.EVT_STATUS.LOST.reg] s.w t.w ∧ s.Quiet t) ∧
  (∀ (h : Half) (init : Nat) (on : Bool) (v : Nat) (c : Instr) (s : State), c ∈ [Instr.vlvCommand h init on, .vlvSetpointWrite h init
    v, .vlvClrFault h init, .vlvKnock h init] → s.own.alive h = false ∨ (s.w.tileSt (tileOf (s.w.rd h F.VLV_SEL.CH init))).ready =
    false ∨ s.w.safeOn (s.w.rd h F.VLV_SEL.CH init) = true ∧ s.own.owns h (s.w.rd h F.VLV_SEL.CH init) = true →
    Completes c s fun t =>
      t = s)

/-- Parts of R191, R198, R201, R207, R209, R210: the start at the entry, admission and its 2 ms limit, a twin's loss, return and merge. -/
def Obligations.valveEngineStarts : Prop :=
  (∀ (ch : Nat) (s : State) (r : Recipe), s.w.mayStart ch = true → s.w.twin ch = none → (s.w.eng ch).level = none → ((s.w.tileSt
    (tileOf ch)).bank (s.w.rd .A F.VLV_TILE.ACT_BANK (tileOf ch))).recs[(s.w.chanRef ch).slot]? = some r → s.w.rd .A
    F.STW_SVC_STAT.STATE ≠ 2 →
    Completes (.engineStart ch) s fun t =>
      t.w.rd .A F.VLV_STATUS.RUN ch = 1 ∧ t.w.rd .A F.VLV_ENG.PC ch = r.entry % 2 ^ 11 ∧ t.w.rd .A F.VLV_STATUS.PHASE ch = 0 ∧
      t.w.rd .A F.VLV_STATUS.BAND ch = (s.w.eng ch).est.getD r.bandInit % 4 ∧ t.w.rd .A F.VLV_STATUS.GREEN ch = 0 ∧
      (t.w.eng ch).startAt = s.w.now ∧ (t.w.eng ch).wait = .none ∧ (t.w.eng ch).scale = 1000 ∧ s.Quiet t) ∧
  (∀ (ch : Nat) (s : State), s.w.mayStart ch = false →
    Completes (.engineStart ch) s fun t =>
      t = s) ∧
  (∀ (bank ch : Nat) (s : State), s.w.waiting bank = [ch] → (s.w.eng ch).req.map (·.boost) = some true → s.w.boostFree ch = true →
    Completes (.bankAdmission bank) s fun t =>
      t.w.rd .A F.VLV_STATUS.SRC ch = 2 ∧ (t.w.eng ch).req = none ∧ s.Quiet t) ∧
  (∀ (bank ch : Nat) (s : State), s.w.waiting bank = [ch] → (s.w.eng ch).req.map (·.boost) = some false → s.w.fits ch = true →
    Completes (.bankAdmission bank) s fun t =>
      (t.w.eng ch).tgt = (s.w.eng ch).want ∧ (t.w.eng ch).dith.amp = (s.w.eng ch).wantAmp ∧ (t.w.eng ch).req = none ∧
      t.w.rd .A F.VLV_STATUS.LIMITED ch = 0 ∧ s.Quiet t) ∧
  (∀ (bank : Nat) (s : State), s.w.waiting bank = [] →
    Completes (.bankAdmission bank) s fun t =>
      t = s) ∧
  (∀ (ch : Nat) (s : State) (r : Req), (s.w.eng ch).req = some r → r.late = false → r.since + 2000000 ≤ s.w.now →
    Completes (.bankWaitTimeout ch) s fun t =>
      (r.boost = true → (t.w.eng ch).req = none ∧ (t.w.eng ch).timeout = true) ∧
      (r.boost = false → (t.w.eng ch).req = some { r with late := true, holds := false } ∧ t.w.rd .A F.VLV_STATUS.LIMITED ch = 1 ∧
        (s.w.eng ch).tgt ≤ (t.w.eng ch).tgt) ∧
      (r.holds = true → s.w.Stepped t.w ch) ∧ s.Quiet t) ∧
  (∀ (ch : Nat) (s : State) (r : Req), (s.w.eng ch).req = some r → s.w.now < r.since + 2000000 →
    Completes (.bankWaitTimeout ch) s fun t =>
      t = s) ∧
  (∀ (ch p : Nat) (s : State), s.w.twin ch = some p → s.w.twinLine p = false → s.w.twinLine ch = true → s.w.rd .A
    F.VLV_STATUS.TWIN_SOLO ch = 0 →
    Completes (.twinPartnerLoss ch) s fun t =>
      t.w.rd .A F.VLV_STATUS.TWIN_SOLO ch = 1 ∧ (t.w.eng ch).scale = 1000 ∧ (t.w.eng ch).merge = none ∧
      (t.w.eng ch).want = (s.w.eng ch).tgt ∧ s.Quiet t) ∧
  (∀ (ch p : Nat) (s : State), s.w.twin ch = some p → s.w.twinLine p = true →
    Completes (.twinPartnerLoss ch) s fun t =>
      t = s) ∧
  (∀ (ch p : Nat) (s : State) (r : Recipe), s.w.twin ch = some p → s.w.twinLine ch = true → s.w.rd .A F.VLV_STATUS.TWIN_SOLO p = 1 →
    s.w.mayStart ch = true → ((s.w.tileSt (tileOf ch)).bank (s.w.rd .A F.VLV_TILE.ACT_BANK (tileOf ch))).recs[(s.w.chanRef ch).slot]? =
    some r →
    Completes (.twinPartnerReturn ch) s fun t =>
      t.w.rd .A F.VLV_STATUS.RUN ch = 1 ∧ t.w.rd .A F.VLV_ENG.PC ch = r.holdEntry % 2 ^ 11 ∧ (t.w.eng ch).scale = 0 ∧ s.Quiet t) ∧
  (∀ (ch p : Nat) (s : State), s.w.twin ch = some p → s.w.rd .A F.VLV_STATUS.TWIN_SOLO p = 0 →
    Completes (.twinPartnerReturn ch) s fun t =>
      t = s) ∧
  (∀ (ch p t0 : Nat) (s : State), s.w.twin ch = some p → (s.w.eng ch).merge = some t0 → t0 + 10000000 ≤ s.w.now →
    Completes (.twinScaleMergeEnd ch) s fun t =>
      (t.w.eng ch).scale = 500 ∧ (t.w.eng p).scale = 500 ∧ (t.w.eng ch).merge = none ∧ (t.w.eng p).merge = none ∧
      t.w.rd .A F.VLV_STATUS.TWIN_SOLO ch = 0 ∧ t.w.rd .A F.VLV_STATUS.TWIN_SOLO p = 0 ∧ s.Quiet t) ∧
  (∀ (ch t0 : Nat) (s : State), (s.w.eng ch).merge = some t0 → s.w.now < t0 + 10000000 →
    Completes (.twinScaleMergeEnd ch) s fun t =>
      t = s)

/-- Parts of R184, R188, R200, R205, R206, R211, R212, R216, R470: what each fault leaves, the estimate, the duty, the rail, the load of a
bank and the tile's presence. -/
def Obligations.valveFaults : Prop :=
  (∀ (ch i : Nat) (s : State), 14000 ≤ i →
    Completes (.vlvShort ch i) s fun t =>
      t.w.rd .A F.VLV_STATUS.FAULT ch = 1 ∧ t.w.rd .A F.VLV_STATUS.SRC ch = 0 ∧ t.w.rd .A F.VLV_STATUS.RUN ch = 0 ∧
      t.w.rd .A F.VLV_CUR.I ch = satTo 16 i ∧ s.Quiet t) ∧
  (∀ (ch i : Nat) (s : State), i < 14000 →
    Completes (.vlvShort ch i) s fun t =>
      t = s) ∧
  (∀ (ch i : Nat) (s : State), s.w.rd .A F.VLV_STATUS.SRC ch ≠ 0 → i < 100 → 10 * i < s.w.effTarget ch ∨ (s.w.eng ch).drive ≠ .current
    →
    Completes (.vlvOpenLoad ch i) s fun t =>
      t.w.rd .A F.VLV_STATUS.FAULT ch = 2 ∧ t.w.rd .A F.VLV_STATUS.SRC ch = 0 ∧ t.w.rd .A F.VLV_STATUS.RUN ch = 0 ∧
      t.w.rd .A F.VLV_CUR.I ch = i ∧ s.Quiet t) ∧
  (∀ (ch i : Nat) (s : State), s.w.rd .A F.VLV_STATUS.SRC ch = 0 ∨ 100 ≤ i →
    Completes (.vlvOpenLoad ch i) s fun t =>
      t = s) ∧
  (∀ (k : Nat) (temp : Int) (s : State), 150 ≤ temp →
    Completes (.vlvOvertemp k temp) s fun t =>
      (∀ ch ∈ tileChans k, t.w.rd .A F.VLV_STATUS.FAULT ch = 3 ∧ t.w.rd .A F.VLV_STATUS.SRC ch = 0 ∧ t.w.rd .A F.VLV_STATUS.RUN ch = 0) ∧
      (∀ ch, ch ∉ tileChans k → t.w.rd .A F.VLV_STATUS.FAULT ch = s.w.rd .A F.VLV_STATUS.FAULT ch) ∧ s.Quiet t) ∧
  (∀ (k : Nat) (temp : Int) (s : State), temp < 150 →
    Completes (.vlvOvertemp k temp) s fun t =>
      t.w.rd .A F.VLV_TILE.HS_T k = toTwos 8 (clampI (-128) 127 temp) ∧ World.RegsBut [F.VLV_TILE.HS_T.reg] s.w t.w ∧ t.w.vlv = s.w.vlv ∧ s.Quiet t) ∧
  (∀ (bank i : Nat) (s : State), 36000 ≤ i →
    Completes (.vlvHsShort bank i) s fun t =>
      (∀ ch ∈ bankChans bank, t.w.rd .A F.VLV_STATUS.FAULT ch = 6 ∧ t.w.rd .A F.VLV_STATUS.SRC ch = 0 ∧ t.w.rd .A F.VLV_STATUS.RUN ch = 0) ∧
      (∀ ch, ch ∉ bankChans bank → t.w.rd .A F.VLV_STATUS.FAULT ch = s.w.rd .A F.VLV_STATUS.FAULT ch) ∧ s.Quiet t) ∧
  (∀ (bank i : Nat) (s : State), i < 36000 →
    Completes (.vlvHsShort bank i) s fun t =>
      t = s) ∧
  (∀ (k : Nat) (s : State), s.w.rd .A F.VLV_TILE.PRESENT k = 1 →
    Completes (.tileAbsent k) s fun t =>
      t.w.rd .A F.VLV_TILE.PRESENT k = 0 ∧ t.w.rd .A F.VLV_TILE.LOADING k = 0 ∧ t.w.tileSt k = {} ∧
      (∀ ch ∈ tileChans k, t.w.rd .A F.VLV_STATUS.FAULT ch = 7 ∧ t.w.rd .A F.VLV_STATUS.SRC ch = 0) ∧ s.Quiet t) ∧
  (∀ (k : Nat) (s : State), s.w.rd .A F.VLV_TILE.PRESENT k = 0 →
    Completes (.tileAbsent k) s fun t =>
      t = s) ∧
  (∀ (k : Nat) (s : State), k < 6 → s.w.rd .A F.VLV_TILE.PRESENT k = 0 → s.w.loads .A = false → s.w.loads .B = false →
    Completes (.tileInsert k) s fun t =>
      t.w.rd .A F.VLV_TILE.PRESENT k = 1 ∧ t.w.tileSt k = { insertedAt := s.w.now } ∧ World.RegsBut [F.VLV_TILE.PRESENT.reg] s.w t.w ∧ s.Quiet t) ∧
  (∀ (k rail : Nat) (serial : List Byte) (cal : List (List Byte)) (s : State), k < 6 → s.w.rd .A F.VLV_TILE.PRESENT k = 1 →
    (s.w.tileSt k).ready = false → 4400 < rail → s.tileLoaded k = true →
    Completes (.tileReady k rail serial cal) s fun t =>
      (t.w.tileSt k).ready = true ∧ t.w.rd .A F.VLV_TILE.BOOST_OK k = 1 ∧ t.w.rd .A F.VLV_TILE.RAIL k = satTo 16 rail ∧ t.own = s.own) ∧
  (∀ (k rail : Nat) (serial : List Byte) (cal : List (List Byte)) (s : State), rail ≤ 4400 →
    Completes (.tileReady k rail serial cal) s fun t =>
      t = s) ∧
  (∀ (ch : Nat) (c : Bool) (s : State), s.w.rd .A F.VLV_CTRL.PROBE_EN (tileOf ch) = 1 → s.w.rd .A F.VLV_TILE.PRESENT (tileOf ch) = 1 →
    s.w.rd .A F.VLV_STATUS.RUN ch = 0 → s.w.rd .A F.VLV_STATUS.CMD ch = 0 → s.w.rd .A F.VLV_CUR.I ch = 0 → s.w.rd .A F.VLV_STATUS.FAULT
    ch = 0 → (s.w.eng ch).level = none → (s.w.eng ch).gramp = none → s.w.rd .A F.STW_SVC_STAT.STATE ≠ 2 → s.w.rd .B
    F.STW_SVC_STAT.STATE ≠ 2 →
    Completes (.vlvProbe ch c) s fun t =>
      t.w.rd .A F.VLV_STATUS.FAULT ch = (if c then 0 else 2) ∧ (t.w.eng ch).probed = true ∧ s.Quiet t) ∧
  (∀ (ch : Nat) (c : Bool) (s : State), s.w.rd .A F.VLV_CTRL.PROBE_EN (tileOf ch) = 0 ∨ s.w.rd .A F.VLV_STATUS.RUN ch = 1 →
    Completes (.vlvProbe ch c) s fun t =>
      t = s) ∧
  (∀ (ch v i : Nat) (s : State) (r : Recipe), s.w.recipe ch = some r → s.w.rd .A F.VLV_STATUS.RUN ch = 1 → (s.w.eng ch).hold = true →
    (s.w.eng ch).constAt + 20000000 ≤ s.w.now → 0 < i → r.coilR ≠ 0 →
    Completes (.coilEstimate ch v i) s fun t =>
      t.w.rd .A F.VLV_COIL.RES ch = satTo 16 (roundN ((10000 * v : Nat) / (i : Rat))) ∧
      (t.w.eng ch).est = some (r.band ((s.w.eng ch).est.getD r.bandInit) (20 + (((10000 * v : Nat) / (i : Rat)) / r.coilR - 1) / (393 / 100000))) ∧
      (t.w.eng ch).pend = (t.w.eng ch).est ∧ t.w.rd .A F.VLV_STATUS.BAND_PEND ch = (t.w.eng ch).est.getD 0 % 4 ∧
      t.w.rd .A F.VLV_STATUS.BAND ch = s.w.rd .A F.VLV_STATUS.BAND ch ∧ s.Quiet t) ∧
  (∀ (ch v i : Nat) (s : State), (s.w.eng ch).hold = false →
    Completes (.coilEstimate ch v i) s fun t =>
      t = s) ∧
  (∀ (ch i : Nat) (s : State) (r : Recipe), s.w.recipe ch = some r →
    Completes (.dutyEvaluation ch i) s fun t =>
      t.w.rd .A F.VLV_CUR.I ch = satTo 16 i ∧ t.w.rd .A F.VLV_DUTY.D ch = min 2000 (floorN ((t.w.eng ch).duty r)) ∧
      t.w.rd .A F.VLV_STATUS.DUTY_LIM ch = b2n ((r.dutyMax : Rat) ≤ (t.w.eng ch).duty r) ∧
      (1000 ≤ (t.w.eng ch).duty r → t.w.rd .A F.VLV_STATUS.DUTY_HW ch = 1) ∧
      ((t.w.eng ch).duty r ≤ 950 → t.w.rd .A F.VLV_STATUS.DUTY_HW ch = 0) ∧
      (950 < (t.w.eng ch).duty r → (t.w.eng ch).duty r < 1000 → t.w.rd .A F.VLV_STATUS.DUTY_HW ch = s.w.rd .A F.VLV_STATUS.DUTY_HW ch) ∧
      ((s.w.eng ch).binAt + r.binNs ≤ s.w.now → (t.w.eng ch).bins = (((s.w.eng ch).bin + i * i) :: (s.w.eng ch).bins).take 63 ∧ (t.w.eng ch).bin = 0) ∧
      (s.w.now < (s.w.eng ch).binAt + r.binNs → (t.w.eng ch).bin = (s.w.eng ch).bin + i * i) ∧ s.Quiet t) ∧
  (∀ (k v : Nat) (s : State), v < 3000 → s.w.rd .A F.VLV_TILE.BOOST_OK k = 1 →
    Completes (.boostRailLow k v) s fun t =>
      t.w.rd .A F.VLV_TILE.BOOST_OK k = 0 ∧ t.w.rd .A F.VLV_TILE.RAIL k = v ∧ s.Quiet t ∧
      ∀ ch ∈ tileChans k, t.w.rd .A F.VLV_STATUS.SRC ch = (if s.w.rd .A F.VLV_STATUS.SRC ch = 2 then 1 else s.w.rd .A F.VLV_STATUS.SRC ch)) ∧
  (∀ (k v : Nat) (s : State),
    Completes (.boostRailRecover k v) s fun t =>
      t.w.rd .A F.VLV_TILE.BOOST_OK k = (if 4400 < v then 1 else s.w.rd .A F.VLV_TILE.BOOST_OK k) ∧ t.w.rd .A F.VLV_TILE.RAIL k = satTo 16 v ∧
      World.RegsBut [F.VLV_TILE.RAIL.reg] s.w t.w ∧ s.Quiet t) ∧
  (∀ (k : Nat) (g : Half) (s : State), (s.w.tileSt k).lock = some g → s.w.roastPrefix .A = s.w.roastPrefix .B →
    Completes (.recipeLockRelease k) s fun t =>
      (t.w.tileSt k).lock = none ∧ t.w.rd .A F.VLV_TILE.LOADING k = 0 ∧ ((t.w.tileSt k).bank (s.w.idleBank k)).tag = s.w.roastPrefix g ∧
      ((t.w.tileSt k).bank (s.w.idleBank k)).recs = ((s.w.tileSt k).bank (s.w.idleBank k)).recs ∧ s.Quiet t) ∧
  (∀ (k : Nat) (s : State), (s.w.tileSt k).lock = none →
    Completes (.recipeLockRelease k) s fun t =>
      t = s) ∧
  (∀ (k : Nat) (s : State), bankMayActivate s k = true →
    Completes (.recipeBankActivate k) s fun t =>
      t.w.rd .A F.VLV_TILE.ACT_BANK k = 1 - s.w.rd .A F.VLV_TILE.ACT_BANK k ∧ t.w.vlv = s.w.vlv ∧ s.Quiet t) ∧
  (∀ (k : Nat) (s : State), bankMayActivate s k = false →
    Completes (.recipeBankActivate k) s fun t =>
      t = s) ∧
  (∀ (ch : Nat) (r : Ramp) (s : State), ch < 96 → (s.w.eng ch).gramp = some r → r.start + r.dur ≤ s.w.now →
    Completes (.greenRampEnd ch) s fun t =>
      (t.w.eng ch).gramp = none ∧ ((s.w.eng ch).level = none → t.w.rd .A F.VLV_STATUS.SRC ch = 0 ∧ (t.w.eng ch).relOn = true) ∧
      ((s.w.eng ch).level ≠ none → World.RegsBut [] s.w t.w) ∧ s.Quiet t) ∧
  (∀ (n : Nat) (r : Ramp) (s : State), n < 4 → (s.w.fan n).gramp = some r → r.start + r.dur ≤ s.w.now →
    Completes (.greenRampEnd (354 + n)) s fun t =>
      (t.w.fan n).gramp = none ∧ s.Quiet t)

/-- Parts of R20, R223, R227–R229, R232, R238, R240, R243: ON and OFF, PROF, CLR_FAULT, KNOCK, CLR_CNT, and the writes that are a violation
or without effect. -/
def Obligations.switchCommands : Prop :=
  (∀ (h : Half) (init : Nat) (s : State) (n : Nat), s.own.alive h = true → s.w.rd h F.LSW_SEL.CH init = n → n < 48 → s.own.owns h (96
    + n) = true → s.w.safeOn (96 + n) = false → s.w.rd .A F.LSW_STATUS.CMD n = 0 → (s.w.profile (s.w.rd .A F.LSW_CMD.PROF n)).isSome =
    true →
    Completes (.lswCommand h init true) s fun t =>
      t.w.rd .A F.LSW_STATUS.CMD n = 1 ∧ t.w.rd .A F.LSW_CMD.ON n = 1 ∧ t.w.rd .A F.LSW_STATUS.GREEN n = 0 ∧
      t.w.rd .A F.LSW_STATUS.RETRIES n = (s.w.swCfg n).retryN % 2 ^ F.LSW_STATUS.RETRIES.w ∧
      (s.w.rd .A F.LSW_STATUS.STATE n = 0 → s.w.rd .A F.LSW_BANK.PRESENT (n / 16) = 1 → s.w.lsw.lost = [] →
        s.w.rd .A F.LSW_STATUS.KNOCKED n = 0 →
        t.w.rd .A F.LSW_STATUS.STATE n = 1 ∧ t.w.rd .A F.LSW_STATUS.PROF n = s.w.rd .A F.LSW_CMD.PROF n) ∧
      (s.w.rd .A F.LSW_STATUS.STATE n ≠ 0 → t.w.rd .A F.LSW_STATUS.STATE n = s.w.rd .A F.LSW_STATUS.STATE n) ∧ s.Quiet t) ∧
  (∀ (h : Half) (init : Nat) (s : State) (n : Nat), s.own.alive h = true → s.w.rd h F.LSW_SEL.CH init = n → n < 48 → s.own.owns h (96
    + n) = true → s.w.safeOn (96 + n) = false → s.w.rd .A F.LSW_STATUS.CMD n = 0 → s.w.profile (s.w.rd .A F.LSW_CMD.PROF n) = none →
    Completes (.lswCommand h init true) s fun t =>
      t.w.rd .A F.LSW_STATUS.FAULT n = 7 ∧ t.w.rd .A F.LSW_STATUS.CMD n = 0 ∧
      t.w.rd .A F.LSW_STATUS.STATE n = s.w.rd .A F.LSW_STATUS.STATE n ∧ s.Quiet t) ∧
  (∀ (h : Half) (init : Nat) (s : State) (n : Nat), s.own.alive h = true → s.w.rd h F.LSW_SEL.CH init = n → n < 48 → s.own.owns h (96
    + n) = true → s.w.safeOn (96 + n) = false →
    Completes (.lswCommand h init false) s fun t =>
      t.w.rd .A F.LSW_STATUS.CMD n = 0 ∧ t.w.rd .A F.LSW_CMD.ON n = 0 ∧ t.w.rd .A F.LSW_STATUS.KNOCKED n = 0 ∧
      t.w.rd .A F.LSW_STATUS.STATE n = (if s.w.rd .A F.LSW_STATUS.STATE n = 4 ∨ s.w.rd .A F.LSW_STATUS.STATE n = 6 then
        s.w.rd .A F.LSW_STATUS.STATE n else 0) ∧
      (s.w.rd .A F.LSW_STATUS.STATE n = 4 → (t.w.swSt n).cancel = true) ∧ s.Quiet t) ∧
  (∀ (h : Half) (init v : Nat) (s : State) (n : Nat), s.own.alive h = true → s.w.rd h F.LSW_SEL.CH init = n → n < 48 → s.own.owns h
    (96 + n) = true → s.w.safeOn (96 + n) = false →
    Completes (.lswProfile h init v) s fun t =>
      t.w.rd .A F.LSW_CMD.PROF n = v % 2 ^ F.LSW_CMD.PROF.w ∧ World.RegsBut [F.LSW_CMD.PROF.reg] s.w t.w ∧ t.w.lsw = s.w.lsw ∧ s.Quiet t) ∧
  (∀ (h : Half) (init : Nat) (s : State) (n : Nat), s.own.alive h = true → s.w.rd h F.LSW_SEL.CH init = n → n < 48 → s.own.owns h (96
    + n) = true → s.w.safeOn (96 + n) = false →
    Completes (.lswClrFault h init) s fun t =>
      (s.w.rd .A F.LSW_CMD.ON n = 0 →
        t.w.rd .A F.LSW_STATUS.FAULT n = (if s.w.rd .A F.LSW_STATUS.FAULT n = 5 then 5 else 0) ∧
        t.w.rd .A F.LSW_STATUS.STATE n = (if s.w.rd .A F.LSW_STATUS.STATE n = 6 then 0 else s.w.rd .A F.LSW_STATUS.STATE n)) ∧
      (s.w.rd .A F.LSW_CMD.ON n = 1 → t = s) ∧ s.Quiet t) ∧
  (∀ (h : Half) (init : Nat) (s : State) (n : Nat), s.own.alive h = true → s.w.rd h F.LSW_SEL.CH init = n → n < 48 → s.own.owns h (96
    + n) = true → s.w.safeOn (96 + n) = false →
    Completes (.lswKnock h init) s fun t =>
      t.w.rd .A F.LSW_STATUS.KNOCKED n = 1 ∧ t.w.rd .A F.LSW_STATUS.CMD n = s.w.rd .A F.LSW_STATUS.CMD n ∧
      t.w.rd .A F.LSW_STATUS.STATE n = (if s.w.rd .A F.LSW_STATUS.STATE n = 4 ∨ s.w.rd .A F.LSW_STATUS.STATE n = 6 then
        s.w.rd .A F.LSW_STATUS.STATE n else 0) ∧ s.Quiet t) ∧
  (∀ (h : Half) (init : Nat) (s : State) (n : Nat), s.own.alive h = true → s.w.rd h F.LSW_SEL.CH init = n → n < 48 → s.own.ownsAny h
    (96 + 16 * (n / 16)) 16 = true →
    Completes (.lswClrCnt h init) s fun t =>
      (∀ j, 16 * (n / 16) ≤ j → j < 16 * (n / 16) + 16 → t.w.reg .A F.LSW_CNT.STARTS j = 0 ∧
        t.w.rd .A F.LSW_TEMP.TJ_PEAK j = s.w.rd .A F.LSW_TEMP.TJ j) ∧
      World.RegsBut [F.LSW_CNT.STARTS.reg, F.LSW_TEMP.TJ.reg] s.w t.w ∧ s.Quiet t) ∧
  (∀ (h : Half) (init : Nat) (on : Bool) (v : Nat) (c : Instr) (s : State) (n : Nat), c ∈ [Instr.lswCommand h init on, .lswProfile h
    init v, .lswClrFault h init, .lswKnock h init] → s.own.alive h = true → s.w.rd h F.LSW_SEL.CH init = n → n < 48 → s.own.owns h (96
    + n) = false →
    Completes c s fun t =>
      t.w.rd h F.OWN_VIOL.OBJ = 96 + n ∧ t.w.rd h F.OWN_VIOL.INIT = init % 16 ∧ t.w.lsw = s.w.lsw ∧
      World.RegsBut [F.OWN_VIOL.OBJ.reg, F.EVT_STATUS.LOST.reg] s.w t.w ∧ s.Quiet t) ∧
  (∀ (h : Half) (init : Nat) (on : Bool) (v : Nat) (c : Instr) (s : State), c ∈ [Instr.lswCommand h init on, .lswProfile h init v,
    .lswClrFault h init, .lswKnock h init] → s.own.alive h = false ∨ 48 ≤ s.w.rd h F.LSW_SEL.CH init →
    Completes c s fun t =>
      t = s)

/-- Parts of R224–R229, R236, R237: the end of INRUSH, the trips, the thermal latch, the retry and its counter, the open-load checks. -/
def Obligations.switchProtects : Prop :=
  (∀ (n : Nat) (p : Profile) (s : State), s.w.profile (s.w.rd .A F.LSW_STATUS.PROF n) = some p → s.w.rd .A F.LSW_STATUS.STATE n = 2 →
    (s.w.swSt n).since + p.inrushMs * 1000000 ≤ s.w.now →
    Completes (.inrushEnd n) s fun t =>
      t.w.rd .A F.LSW_STATUS.STATE n = 3 ∧ (t.w.swSt n).claim = 0 ∧ (t.w.swSt n).since = s.w.now ∧
      World.RegsBut [F.LSW_STATUS.STATE.reg] s.w t.w ∧ s.Quiet t) ∧
  (∀ (n : Nat) (s : State), s.w.rd .A F.LSW_STATUS.STATE n ≠ 2 →
    Completes (.inrushEnd n) s fun t =>
      t = s) ∧
  (∀ (n i : Nat) (s : State), s.w.rd .A F.LSW_STATUS.STATE n = 2 ∨ s.w.rd .A F.LSW_STATUS.STATE n = 3 → classShort (swClass n) < i →
    Completes (.lswShortTrip n i) s fun t =>
      t.w.rd .A F.LSW_STATUS.FAULT n = 1 ∧ t.w.rd .A F.LSW_STATUS.STATE n = (if s.w.rd .A F.LSW_STATUS.RETRIES n = 0 then 6 else 5) ∧
      t.w.rd .A F.LSW_CNT.TRIPS n = satInc F.LSW_CNT.TRIPS.w (s.w.rd .A F.LSW_CNT.TRIPS n) ∧ t.w.rd .A F.LSW_MEAS.I n = satTo 16 i ∧
      (t.w.swSt n).claim = 0 ∧ s.Quiet t) ∧
  (∀ (n i : Nat) (s : State), i ≤ classShort (swClass n) →
    Completes (.lswShortTrip n i) s fun t =>
      t = s) ∧
  (∀ (n i : Nat) (p : Profile) (s : State), s.w.profile (s.w.rd .A F.LSW_STATUS.PROF n) = some p → s.w.rd .A F.LSW_STATUS.STATE n = 3
    → p.tripPct * s.w.iSet n < 100 * i →
    Completes (.lswOverloadTrip n i) s fun t =>
      t.w.rd .A F.LSW_STATUS.FAULT n = 2 ∧ t.w.rd .A F.LSW_STATUS.STATE n = (if s.w.rd .A F.LSW_STATUS.RETRIES n = 0 then 6 else 5) ∧
      t.w.rd .A F.LSW_CNT.TRIPS n = satInc F.LSW_CNT.TRIPS.w (s.w.rd .A F.LSW_CNT.TRIPS n) ∧ s.Quiet t) ∧
  (∀ (n i : Nat) (p : Profile) (s : State), s.w.profile (s.w.rd .A F.LSW_STATUS.PROF n) = some p → 100 * i ≤ p.tripPct * s.w.iSet n →
    Completes (.lswOverloadTrip n i) s fun t =>
      t = s) ∧
  (∀ (n : Nat) (tj : Int) (s : State), s.w.rd .A F.LSW_STATUS.STATE n = 2 ∨ s.w.rd .A F.LSW_STATUS.STATE n = 3 → 165 ≤ tj →
    Completes (.lswThermalTrip n tj) s fun t =>
      t.w.rd .A F.LSW_STATUS.STATE n = 4 ∧ t.w.rd .A F.LSW_STATUS.FAULT n = 3 ∧
      t.w.rd .A F.LSW_TEMP.LATCHES n = satInc F.LSW_TEMP.LATCHES.w (s.w.rd .A F.LSW_TEMP.LATCHES n) ∧
      (t.w.swSt n).claim = 0 ∧ (t.w.swSt n).cancel = false ∧ s.Quiet t) ∧
  (∀ (n : Nat) (tj : Int) (s : State), tj < 165 →
    Completes (.lswThermalTrip n tj) s fun t =>
      t = s) ∧
  (∀ (n : Nat) (tj : Int) (s : State), s.w.rd .A F.LSW_STATUS.STATE n = 4 → tj < s.w.tRel n → (s.w.swSt n).heldOn = false →
    Completes (.thermalLatchClear n tj) s fun t =>
      ((s.w.swSt n).cancel = true ∨ s.w.rd .A F.LSW_STATUS.CMD n = 0 ∨ s.w.swLive n = false → t.w.rd .A F.LSW_STATUS.STATE n = 0) ∧
      ((s.w.swSt n).cancel = false → s.w.rd .A F.LSW_STATUS.CMD n = 1 → s.w.swLive n = true →
        t.w.rd .A F.LSW_STATUS.STATE n = if s.w.rd .A F.LSW_STATUS.RETRIES n = 0 then 6 else 5) ∧ s.Quiet t) ∧
  (∀ (n : Nat) (tj : Int) (s : State), s.w.rd .A F.LSW_STATUS.STATE n = 4 → tj < s.w.tRel n → (s.w.swSt n).heldOn = true → s.w.swLive
    n = true → s.w.rd .A F.LSW_STATUS.GREEN n = 0 →
    Completes (.thermalLatchClear n tj) s fun t =>
      t.w.rd .A F.LSW_STATUS.STATE n = 1 ∧ t.w.rd .A F.LSW_STATUS.PROF n = s.w.rd .A F.LSW_CMD.PROF n ∧ s.Quiet t) ∧
  (∀ (n : Nat) (tj : Int) (s : State), s.w.tRel n ≤ tj →
    Completes (.thermalLatchClear n tj) s fun t =>
      t = s) ∧
  (∀ (n : Nat) (tj : Int) (s : State), s.w.rd .A F.LSW_STATUS.STATE n = 5 → (s.w.swSt n).since + (s.w.swCfg n).retryT * 10000000 ≤
    s.w.now → tj < s.w.tRel n →
    Completes (.retryWaitExpiry n tj) s fun t =>
      t.w.rd .A F.LSW_STATUS.STATE n = 1 ∧ t.w.rd .A F.LSW_STATUS.RETRIES n = s.w.rd .A F.LSW_STATUS.RETRIES n - 1 ∧
      t.w.rd .A F.LSW_CNT.RETRIES n = satInc F.LSW_CNT.RETRIES.w (s.w.rd .A F.LSW_CNT.RETRIES n) ∧
      t.w.rd .A F.LSW_STATUS.PROF n = s.w.rd .A F.LSW_STATUS.PROF n ∧ s.Quiet t) ∧
  (∀ (n : Nat) (tj : Int) (s : State), s.w.rd .A F.LSW_STATUS.STATE n ≠ 5 →
    Completes (.retryWaitExpiry n tj) s fun t =>
      t = s) ∧
  (∀ (n : Nat) (s : State), s.w.rd .A F.LSW_STATUS.STATE n = 3 → (s.w.swSt n).since + 10000000000 ≤ s.w.now →
    Completes (.retryCounterReload n) s fun t =>
      t.w.rd .A F.LSW_STATUS.RETRIES n = (s.w.swCfg n).retryN % 2 ^ F.LSW_STATUS.RETRIES.w ∧
      World.RegsBut [F.LSW_STATUS.RETRIES.reg] s.w t.w ∧ t.w.lsw = s.w.lsw ∧ s.Quiet t) ∧
  (∀ (n : Nat) (s : State), s.w.now < (s.w.swSt n).since + 10000000000 →
    Completes (.retryCounterReload n) s fun t =>
      t = s) ∧
  (∀ (n i : Nat) (s : State), s.w.rd .A F.LSW_STATUS.STATE n = 3 → (s.w.swCfg n).olOnEn = true →
    Completes (.openOnDetect n i) s fun t =>
      t.w.rd .A F.LSW_STATUS.OPEN_ON n = b2n (i < s.w.olOn n) ∧ t.w.rd .A F.LSW_MEAS.I n = satTo 16 i ∧ t.w.lsw = s.w.lsw ∧ s.Quiet t) ∧
  (∀ (n i : Nat) (s : State), (s.w.swCfg n).olOnEn = false →
    Completes (.openOnDetect n i) s fun t =>
      t = s) ∧
  (∀ (n vp vi : Nat) (s : State), s.w.rd .A F.LSW_STATUS.STATE n = 0 → s.w.rd .A F.LSW_STATUS.CMD n = 0 → s.w.rd .A
    F.LSW_CTRL.PROBE_EN (n / 16) = 1 → (s.w.swCfg n).probeEn = true →
    Completes (.lswProbe n vp vi) s fun t =>
      t.w.rd .A F.LSW_STATUS.OPEN_OFF n = b2n (250 < vp) ∧ t.w.rd .A F.LSW_STATUS.STB n = b2n (10 * s.w.rd .A F.PWR_FEED.V (swFeed n) < 2 * vi) ∧
      t.w.rd .A F.LSW_MEAS.V n = satTo 16 vi ∧ t.w.rd .A F.LSW_STATUS.STATE n = 0 ∧ s.Quiet t) ∧
  (∀ (n vp vi : Nat) (s : State), s.w.rd .A F.LSW_STATUS.STATE n ≠ 0 →
    Completes (.lswProbe n vp vi) s fun t =>
      t = s)

/-- Parts of R230–R235, R244: a grant that fits, the long wait, the shedding steps, the feed's loss and return, the presence of a bank. -/
def Obligations.feedBudget : Prop :=
  (∀ (f n : Nat) (p : Profile) (s : State), s.w.feedGrant f = some n → s.w.rd .A F.LSW_STATUS.STATE n = 1 → s.w.profile (s.w.rd .A
    F.LSW_STATUS.PROF n) = some p → s.w.budget f = none ∨ ∃ b, s.w.budget f = some b ∧ s.w.claims f + s.w.swClaim n p ≤ b →
    Completes (.feedBudgetGrant f) s fun t =>
      t.w.rd .A F.LSW_STATUS.STATE n = 2 ∧ (t.w.swSt n).claim = s.w.swClaim n p ∧ t.w.feedGrant f = none ∧
      t.w.rd .A F.LSW_STATUS.WAIT_LONG n = 0 ∧ t.w.rd .A F.LSW_CNT.STARTS n = satInc F.LSW_CNT.STARTS.w (s.w.rd .A F.LSW_CNT.STARTS n) ∧ s.Quiet t) ∧
  (∀ (f n : Nat) (p : Profile) (b : Nat) (s : State), s.w.feedGrant f = some n → s.w.rd .A F.LSW_STATUS.STATE n = 1 → s.w.profile
    (s.w.rd .A F.LSW_STATUS.PROF n) = some p → s.w.budget f = some b → b < s.w.claims f + s.w.swClaim n p →
    Completes (.feedBudgetGrant f) s fun t =>
      t = s) ∧
  (∀ (n : Nat) (s : State), s.w.rd .A F.LSW_STATUS.STATE n = 1 → (s.w.swSt n).since + 1000000000 ≤ s.w.now → s.w.rd .A
    F.LSW_STATUS.WAIT_LONG n = 0 →
    Completes (.budgetWaitLong n) s fun t =>
      t.w.rd .A F.LSW_STATUS.WAIT_LONG n = 1 ∧ t.w.rd .A F.LSW_STATUS.STATE n = 1 ∧ t.w.lsw = s.w.lsw ∧ s.Quiet t) ∧
  (∀ (n : Nat) (s : State), s.w.now < (s.w.swSt n).since + 1000000000 →
    Completes (.budgetWaitLong n) s fun t =>
      t = s) ∧
  (∀ (f i : Nat) (s : State), 600 < i → s.w.rd .A F.LSW_FEED.SHED_STEP f = 0 → f < 2 →
    Completes (.feedOverload f i) s fun t =>
      t.w.rd .A F.LSW_FEED.SHED_STEP f = 1 ∧ t.w.rd .A F.LSW_FEED.I f = satTo 12 i ∧ s.Quiet t ∧
      ∀ n ∈ feedSwitches f, (s.w.swCfg n).shed = 3 → s.w.rd .A F.LSW_STATUS.STATE n = 2 ∨ s.w.rd .A F.LSW_STATUS.STATE n = 3 →
        t.w.rd .A F.LSW_STATUS.STATE n = 0 ∧ t.w.rd .A F.LSW_STATUS.FAULT n = 6) ∧
  (∀ (f i : Nat) (s : State), i ≤ 600 →
    Completes (.feedOverload f i) s fun t =>
      t.w.rd .A F.LSW_FEED.I f = satTo 12 i ∧ World.RegsBut [F.LSW_FEED.I.reg] s.w t.w ∧ t.w.lsw = s.w.lsw ∧
      t.w.rd .A F.LSW_FEED.SHED_STEP f = s.w.rd .A F.LSW_FEED.SHED_STEP f ∧ s.Quiet t) ∧
  (∀ (f i : Nat) (s : State), f < 2 →
    Completes (.shedStep f i) s fun t =>
      t.w.rd .A F.LSW_FEED.I f = satTo 12 i ∧ t.w.rd .A F.LSW_FEED.SHED_STEP f = (if s.w.rd .A F.LSW_FEED.SHED_STEP f = 0 ∨ i ≤ 600 then 0
        else min 3 (s.w.rd .A F.LSW_FEED.SHED_STEP f + 1)) ∧ s.Quiet t ∧
      (s.w.rd .A F.LSW_FEED.SHED_STEP f = 1 → 600 < i → ∀ n ∈ feedSwitches f, (s.w.swCfg n).shed = 2 →
        s.w.rd .A F.LSW_STATUS.STATE n = 2 ∨ s.w.rd .A F.LSW_STATUS.STATE n = 3 →
        t.w.rd .A F.LSW_STATUS.STATE n = 0 ∧ t.w.rd .A F.LSW_STATUS.FAULT n = 6)) ∧
  (∀ (f v : Nat) (s : State), v < 450 → f ∉ s.w.lsw.lost →
    Completes (.feedLost f v) s fun t =>
      f ∈ t.w.lsw.lost ∧ s.Quiet t ∧ ∀ n ∈ feedSwitches f, t.w.rd .A F.LSW_STATUS.STATE n = 0 ∧ t.w.rd .A F.LSW_STATUS.FAULT n = 4 ∧
        (t.w.swSt n).claim = 0 ∧ t.w.rd .A F.LSW_STATUS.RETRIES n = s.w.rd .A F.LSW_STATUS.RETRIES n) ∧
  (∀ (f v : Nat) (s : State), 450 ≤ v ∨ f ∈ s.w.lsw.lost →
    Completes (.feedLost f v) s fun t =>
      t = s) ∧
  (∀ (f v : Nat) (s : State), 800 ≤ v → f ∈ s.w.lsw.lost →
    Completes (.feedReturn f v) s fun t =>
      f ∉ t.w.lsw.lost ∧ s.Quiet t ∧ ∀ n ∈ feedSwitches f,
        t.w.rd .A F.LSW_STATUS.FAULT n = (if s.w.rd .A F.LSW_STATUS.FAULT n = 4 then 0 else s.w.rd .A F.LSW_STATUS.FAULT n) ∧
        (s.w.rd .A F.LSW_STATUS.CMD n = 0 → t.w.rd .A F.LSW_STATUS.STATE n = s.w.rd .A F.LSW_STATUS.STATE n)) ∧
  (∀ (f v : Nat) (s : State), v < 800 →
    Completes (.feedReturn f v) s fun t =>
      t = s) ∧
  (∀ (b : Nat) (s : State), s.w.rd .A F.LSW_BANK.PRESENT b = 1 →
    Completes (.lswBankPresence b false) s fun t =>
      t.w.rd .A F.LSW_BANK.PRESENT b = 0 ∧ s.Quiet t ∧
      ∀ n ∈ bankSwitches b, t.w.rd .A F.LSW_STATUS.STATE n = 0 ∧ t.w.rd .A F.LSW_STATUS.FAULT n = 5 ∧ (t.w.swSt n).claim = 0) ∧
  (∀ (b : Nat) (s : State), s.w.rd .A F.LSW_BANK.PRESENT b = 0 →
    Completes (.lswBankPresence b true) s fun t =>
      t.w.rd .A F.LSW_BANK.PRESENT b = 1 ∧ s.Quiet t ∧
      ∀ n ∈ bankSwitches b, t.w.rd .A F.LSW_STATUS.FAULT n = if s.w.rd .A F.LSW_STATUS.FAULT n = 5 then 0 else s.w.rd .A F.LSW_STATUS.FAULT n)

/-- Parts of R20, R245–R249, R251, R255, R268: a sample through the chain, an edge, a quadrature count, KNOCK, PRESET and CLR_CNT. -/
def Obligations.inputsSample : Prop :=
  (∀ (codes vs : List Nat) (s : State), s.w.rd .A F.UIN_CTRL.SAMPLE_EN = 1 →
    Completes (.inputSample codes vs) s fun t =>
      ∀ n, n < 128 → t.w.rd .A F.UIN_RAW.CODE n = codes.getD n 0 % 65536) ∧
  (∀ (codes vs : List Nat) (s : State) (c : BindCfg) (n : Nat), s.w.rd .A F.UIN_CTRL.SAMPLE_EN = 1 → s.w.uin.cfg.binds = [c] → c.src =
    1 → c.mode ≤ 2 → c.obj = 144 + n → c.ratio = false → c.slew = 0 →
    Completes (.inputSample codes vs) s fun t =>
      (t.w.bindSt .A 0).acc = c.gain * reading s.ledger n c.mode (codes.getD n 0) + c.ofs ∧ (t.w.bindSt .A 0).stale = false ∧
      (c.filt = 0 → (t.w.bindSt .A 0).filt = c.gain * reading s.ledger n c.mode (codes.getD n 0) + c.ofs) ∧ s.Quiet t) ∧
  (∀ (codes vs : List Nat) (s : State), s.w.rd .A F.UIN_CTRL.SAMPLE_EN = 0 →
    Completes (.inputSample codes vs) s fun t =>
      t = s) ∧
  (∀ (n b : Nat) (s : State), s.w.inputBinding n = some b → (s.w.bindCfg b).src = 1 →
    Completes (.inputEdge n true false) s fun t =>
      (t.w.comp n).level = true ∧ (t.w.comp n).rise = s.w.now ∧
      (t.w.comp n).period = (if (s.w.comp n).rise = 0 then 0 else s.w.now - (s.w.comp n).rise) ∧
      (∀ m, m ≠ n → t.w.comp m = s.w.comp m) ∧ World.RegsBut [] s.w t.w ∧ s.Quiet t) ∧
  (∀ (n b : Nat) (level : Bool) (s : State), s.w.inputBinding n = some b → (s.w.bindCfg b).src = 2 → (s.w.bindCfg b).obj = 144 + n →
    Completes (.inputEdge n level false) s fun t =>
      t.w.rd .A F.UIN_COUNT.COUNT n = toTwos 32 (s.w.rdI .A F.UIN_COUNT.COUNT n + if level = (s.w.comp (n + 1)).level then -1 else 1) ∧
      t.w.rd .A F.UIN_COUNT.COUNT (n + 1) = t.w.rd .A F.UIN_COUNT.COUNT n ∧ (t.w.comp n).level = level ∧ s.Quiet t) ∧
  (∀ (n b : Nat) (level : Bool) (s : State), s.w.inputBinding (n + 1) = some b → (s.w.bindCfg b).src = 2 → (s.w.bindCfg b).obj = 144 +
    n →
    Completes (.inputEdge (n + 1) level false) s fun t =>
      t.w.rd .A F.UIN_COUNT.COUNT n = toTwos 32 (s.w.rdI .A F.UIN_COUNT.COUNT n + if level = (s.w.comp n).level then 1 else -1) ∧
      t.w.rd .A F.UIN_COUNT.COUNT (n + 1) = t.w.rd .A F.UIN_COUNT.COUNT n ∧ (t.w.comp (n + 1)).level = level ∧ s.Quiet t) ∧
  (∀ (n b : Nat) (level : Bool) (s : State), s.w.inputBinding n = some b → (s.w.bindCfg b).src = 2 → (s.w.bindCfg b).obj = 144 + n →
    Completes (.inputEdge n level true) s fun t =>
      t.w.rd .A F.UIN_CNT.QERR n = satInc 8 (s.w.rd .A F.UIN_CNT.QERR n) ∧ t.w.rd .A F.UIN_COUNT.COUNT n = s.w.rd .A F.UIN_COUNT.COUNT n ∧ s.Quiet t) ∧
  (∀ (n : Nat) (level both : Bool) (s : State), s.w.inputBinding n = none →
    Completes (.inputEdge n level both) s fun t =>
      t = s) ∧
  (∀ (h : Half) (init : Nat) (s : State) (n b : Nat), s.own.alive h = true → s.w.rd h F.UIN_SEL.CH init = n → s.own.owns h (144 + n) =
    true → s.w.inputBinding n = some b →
    Completes (.uinKnock h init) s fun t =>
      (t.w.bindSt .A b).stale = true ∧ (t.w.bindSt .A b).med = [] ∧ (t.w.bindSt .A b).stuck = false ∧ (t.w.bindSt .A b).stuckClk = 0 ∧
      (t.w.bindSt .A b).chatter = false ∧ (∀ m, t.w.rd .A F.UIN_COUNT.COUNT m = s.w.rd .A F.UIN_COUNT.COUNT m) ∧ s.Quiet t) ∧
  (∀ (h : Half) (init : Nat) (s : State) (n : Nat), s.own.alive h = true → s.w.rd h F.UIN_SEL.CH init = n → s.own.owns h (144 + n) =
    true →
    Completes (.uinPreset h init) s fun t =>
      t.w.rd .A F.UIN_COUNT.COUNT (n - n % 2) = s.w.rd .A F.UIN_PRESET.COUNT (n - n % 2) ∧
      t.w.rd .A F.UIN_COUNT.COUNT (n - n % 2 + 1) = s.w.rd .A F.UIN_PRESET.COUNT (n - n % 2) ∧
      World.RegsBut [F.UIN_COUNT.COUNT.reg] s.w t.w ∧ t.w.uin = s.w.uin ∧ s.Quiet t) ∧
  (∀ (h : Half) (init : Nat) (s : State), s.own.alive h = true → s.own.ownsAny h 144 128 = true →
    Completes (.uinClrCnt h init) s fun t =>
      (∀ n, n < 128 → t.w.reg .A F.UIN_CNT.QERR n = 0) ∧ World.RegsBut [F.UIN_CNT.QERR.reg] s.w t.w ∧ t.w.uin = s.w.uin ∧ s.Quiet t) ∧
  (∀ (h : Half) (init : Nat) (c : Instr) (s : State) (n : Nat), c ∈ [Instr.uinKnock h init, .uinPreset h init] → s.own.alive h = true
    → s.w.rd h F.UIN_SEL.CH init = n → s.own.owns h (144 + n) = false →
    Completes c s fun t =>
      t.w.rd h F.OWN_VIOL.OBJ = 144 + n ∧ t.w.rd h F.OWN_VIOL.INIT = init % 16 ∧ t.w.uin = s.w.uin ∧
      World.RegsBut [F.OWN_VIOL.OBJ.reg, F.EVT_STATUS.LOST.reg] s.w t.w ∧ s.Quiet t)

/-- Parts of R251–R258: a condition that has held for its time, the stuck clock, a pair's divergence and agreement, an EXTERNAL binding. -/
def Obligations.bindingQuality : Prop :=
  (∀ (h : Half) (b reason : Nat) (s : State), b < s.w.uin.cfg.binds.length → (s.w.bindCfg b).src ≠ 0 → reason ≠ 0 →
    Completes (.qualityConditionTimer h b 6 reason true) s fun t =>
      (t.w.bindSt h b).fault = reason ∧ t.w.rd h F.UIN_BQ.QUALITY b = 6 ∧ s.Quiet t) ∧
  (∀ (h : Half) (b q reason : Nat) (on : Bool) (s : State), b < s.w.uin.cfg.binds.length → (s.w.bindCfg b).src ≠ 0 →
    Completes (.qualityConditionTimer h b q reason on) s fun t =>
      (q = 6 → (t.w.bindSt h b).fault = if on then reason else 0) ∧ (q = 2 → (t.w.bindSt h b).outRange = on) ∧
      (q = 4 → (t.w.bindSt h b).chatter = on) ∧
      (q = 1 → (t.w.bindSt h b).stale = (on || (s.w.bindSt h b).stale)) ∧
      t.w.rd h F.UIN_BQ.QUALITY b = (t.w.bindSt h b).quality % 8 ∧ s.Quiet t) ∧
  (∀ (h : Half) (b q reason : Nat) (on : Bool) (s : State), s.w.uin.cfg.binds.length ≤ b →
    Completes (.qualityConditionTimer h b q reason on) s fun t =>
      t = s) ∧
  (∀ (h : Half) (b : Nat) (s : State), (s.w.bindCfg b).src ≠ 0 → (s.w.bindCfg b).tStuck ≠ 0 → (s.w.bindCfg b).tStuck * 100000000 ≤
    (s.w.bindSt h b).stuckClk →
    Completes (.stuckTimeout h b) s fun t =>
      (t.w.bindSt h b).stuck = true ∧ t.w.rd h F.UIN_BQ.QUALITY b = (t.w.bindSt h b).quality % 8 ∧ s.Quiet t) ∧
  (∀ (h : Half) (b : Nat) (s : State), (s.w.bindCfg b).tStuck = 0 ∨ s.w.expected s.srv (s.w.bindCfg b) = false ∧ (s.w.bindSt h
    b).stuckClk < (s.w.bindCfg b).tStuck * 100000000 →
    Completes (.stuckTimeout h b) s fun t =>
      t = s) ∧
  (∀ (h : Half) (k : Nat) (p : TwinCfg) (at_ : Nat) (s : State), s.w.uin.cfg.twins[k]? = some p → NMap.get (0, false) s.w.uin.twinAt
    (s.w.twinKey h k p) = (at_, true) → at_ ≠ 0 → at_ + p.time * 1000000 ≤ s.w.now + 1 →
    Completes (.twinDivergenceTimeout h k) s fun t =>
      (t.w.bindSt h p.a).conflict = true ∧ (t.w.bindSt h p.b).conflict = true ∧ s.Quiet t) ∧
  (∀ (h : Half) (k : Nat) (p : TwinCfg) (at_ : Nat) (s : State), s.w.uin.cfg.twins[k]? = some p → NMap.get (0, false) s.w.uin.twinAt
    (s.w.twinKey h k p) = (at_, false) → at_ ≠ 0 → at_ + p.time * 1000000 ≤ s.w.now + 1 →
    Completes (.twinAgreementTimeout h k) s fun t =>
      (t.w.bindSt h p.a).conflict = false ∧ (t.w.bindSt h p.b).conflict = false ∧ s.Quiet t) ∧
  (∀ (h : Half) (k : Nat) (p : TwinCfg) (at_ : Nat) (div : Bool) (s : State), s.w.uin.cfg.twins[k]? = some p → NMap.get (0, false)
    s.w.uin.twinAt (s.w.twinKey h k p) = (at_, div) → s.w.now + 1 < at_ + p.time * 1000000 →
    Completes (.twinDivergenceTimeout h k) s fun t =>
      t = s) ∧
  (∀ (h : Half) (b v : Nat) (s : State), (s.w.bindCfg b).src = 3 → (s.w.bindSt h b).slewed (s.w.bindCfg b) (f32Val v) s.w.now = false
    →
    Completes (.externalBindingWrite h b v) s fun t =>
      (t.w.bindSt h b).acc = f32Val v ∧ (t.w.bindSt h b).stale = false ∧ (t.w.bindSt h b).accAt = s.w.now ∧ s.Quiet t) ∧
  (∀ (h : Half) (b v : Nat) (s : State), (s.w.bindCfg b).src ≠ 3 →
    Completes (.externalBindingWrite h b v) s fun t =>
      t = s)

/-- Parts of R250, R252: the current limit, the retry after 1 s, EN, and FAULT with reason SUPPLY on the supply's bindings. -/
def Obligations.supplyFaults : Prop :=
  (∀ (n i : Nat) (s : State), s.w.rd .A F.UIN_SS.EN n = 1 → s.w.rd .A F.UIN_SS.LEVEL n ≠ 0 → s.w.rd .A F.UIN_SS.FAULT n = 0 → 200 ≤ i
    →
    Completes (.supplyLimitTrip n i) s fun t =>
      t.w.rd .A F.UIN_SS.FAULT n = 1 ∧ t.w.rd .A F.UIN_SS.I n = 0 ∧ t.w.supplySt n = ⟨s.w.now, false⟩ ∧ s.Quiet t ∧
      ∀ b, b < s.w.uin.cfg.binds.length → (s.w.bindCfg b).supply = n → (s.w.bindCfg b).src ≠ 0 → (t.w.bindSt .A b).fault = 3) ∧
  (∀ (n i : Nat) (s : State), i < 200 ∨ s.w.rd .A F.UIN_SS.EN n = 0 →
    Completes (.supplyLimitTrip n i) s fun t =>
      t = s) ∧
  (∀ (n : Nat) (limited : Bool) (s : State), s.w.rd .A F.UIN_SS.FAULT n = 1 → (s.w.uin.cfg.supplies.getD n (0, false)).2 = true →
    (s.w.supplySt n).offAt + 1000000000 ≤ s.w.now →
    Completes (.supplyRetry n limited) s fun t =>
      t.w.rd .A F.UIN_SS.FAULT n = b2n limited ∧ (limited = true → (t.w.supplySt n).offAt = s.w.now) ∧ s.Quiet t) ∧
  (∀ (n : Nat) (limited : Bool) (s : State), (s.w.uin.cfg.supplies.getD n (0, false)).2 = false ∨ s.w.now < (s.w.supplySt n).offAt +
    1000000000 →
    Completes (.supplyRetry n limited) s fun t =>
      t = s) ∧
  (∀ (h : Half) (init : Nat) (en : Bool) (s : State) (n : Nat), s.own.alive h = true → s.w.rd h F.UIN_SEL.CH init / 8 = n → s.own.owns
    h (144 + 8 * n) = true →
    Completes (.supplyEnable h init en) s fun t =>
      t.w.rd .A F.UIN_SS.EN n = b2n en ∧ (en = false → (t.w.supplySt n).seenOff = true) ∧
      (en = true → (s.w.supplySt n).seenOff = true → t.w.rd .A F.UIN_SS.FAULT n = 0) ∧
      (en = true → (s.w.supplySt n).seenOff = false → t.w.rd .A F.UIN_SS.FAULT n = s.w.rd .A F.UIN_SS.FAULT n) ∧ s.Quiet t)

/-- Parts of R260–R265, R269: a hit over the threshold, the window's counts, the bias check, silence, the class set and CLR_CNT. -/
def Obligations.lossArray : Prop :=
  (∀ (k peak r z stamp : Nat) (p : List Byte) (s : State), ledgerEntry s.ledger 3 k = some p → s.w.rd .A F.LOS_CTRL.EN = 1 →
    (s.w.losSet k).getD 0 0 ≤ (peak : Rat) / (u16At p 0 : Rat) → (s.w.elem k).any = false ∨ (s.w.elem k).dead +
    s.w.uin.cfg.loss.hitDead * 1000 ≤ stamp - r * 1000 →
    Completes (.lossHit k peak r z stamp) s fun t =>
      (t.w.elem k).hitAt = stamp ∧ (t.w.elem k).silent = false ∧ t.w.rd .A F.LOS_HIT.P k = satTo 12 (floorN (100 * ((peak : Rat) / (u16At p 0 : Rat)))) ∧
      t.w.rd .A F.LOS_HIT.R k = satTo 11 (r / 5 * 5) ∧ t.w.rd .A F.LOS_HIT.Z k = satTo 8 z ∧ s.Quiet t ∧
      ∃ g, t.w.uin.hits = s.w.uin.hits ++ [(k, stamp, g)] ∧ t.w.rd .A F.LOS_HIT.GRAIN k = b2n g ∧
        (g = true ↔ 0 ≤ (s.w.losSet k).getD 1 0 + (s.w.losSet k).getD 2 0 * Config.lnR ((peak : Rat) / (u16At p 0 : Rat)) +
          (s.w.losSet k).getD 3 0 * ((r / 5 * 5 : Nat) : Rat) + (s.w.losSet k).getD 4 0 * (z : Rat))) ∧
  (∀ (k peak r z stamp : Nat) (s : State), ledgerEntry s.ledger 3 k = none →
    Completes (.lossHit k peak r z stamp) s fun t =>
      (t.w.elem k).fault = true ∧ t.w.uin.hits = s.w.uin.hits ∧ World.RegsBut [] s.w t.w ∧ s.Quiet t) ∧
  (∀ (k peak r z stamp : Nat) (s : State), (ledgerEntry s.ledger 3 k).isSome = true → s.w.rd .A F.LOS_CTRL.EN = 0 →
    Completes (.lossHit k peak r z stamp) s fun t =>
      t = s) ∧
  (∀ (s : State) (k : Nat), k < 64 → s.w.rd .A F.LOS_CTRL.EN = 1 → (s.w.elem k).fault = false → (s.w.elem k).silent = false →
    s.w.uin.hits.length * (s.w.uin.cfg.loss.hitDead * 1000) ≤ 50000000 →
    Completes .lossWindow s fun t =>
      t.w.rd .A F.LOS_COUNT.GRAIN k = satTo 16 (s.w.uin.hits.filter fun x =>
          decide (x.2.1 < (s.w.mt s.srv / 100000000 - 1 + 1) * 100000000) && (x.1 = k && x.2.2 = true)).length ∧
      t.w.rd .A F.LOS_COUNT.TRASH k = satTo 16 (s.w.uin.hits.filter fun x =>
          decide (x.2.1 < (s.w.mt s.srv / 100000000 - 1 + 1) * 100000000) && (x.1 = k && x.2.2 = false)).length ∧
      t.w.rd .A F.LOS_WIN.WIN = (s.w.mt s.srv / 100000000 - 1) % 2 ^ 32 ∧ t.w.rd .A F.LOS_STATUS.QUALITY k = 0 ∧
      t.w.uin.hits = s.w.uin.hits.filter (fun x => (s.w.mt s.srv / 100000000 - 1 + 1) * 100000000 ≤ x.2.1) ∧
      t.w.uin.cls = s.w.rd .A F.LOS_CTRL.CLS ∧ s.Quiet t) ∧
  (∀ (k : Nat) (pass : Bool) (s : State),
    Completes (.lossBiasCheck k pass) s fun t =>
      (t.w.elem k).fault = (!pass || (ledgerEntry s.ledger 3 k).isNone) ∧ t.w.rd .A F.LOS_STATUS.BIAS_OK k = b2n pass ∧
      ((t.w.elem k).fault = true → t.w.rd .A F.LOS_STATUS.QUALITY k = 6) ∧ (∀ j, j ≠ k → t.w.elem j = s.w.elem j) ∧ s.Quiet t) ∧
  (∀ (k : Nat) (s : State), s.w.uin.cfg.loss.silentS ≠ 0 → s.w.rd s.srv F.SET_STATE.STATE = 3 → (s.w.elem k).hitAt +
    s.w.uin.cfg.loss.silentS * 1000000000 ≤ s.w.now →
    Completes (.lossSilentTimeout k) s fun t =>
      (t.w.elem k).silent = true ∧ ((s.w.elem k).silent = false → (s.w.elem k).fault = false → s.w.rd .A F.LOS_CTRL.EN = 1 → t.w.rd .A F.LOS_STATUS.QUALITY k = 3) ∧ s.Quiet t) ∧
  (∀ (k : Nat) (s : State), s.w.uin.cfg.loss.silentS = 0 ∨ s.w.rd s.srv F.SET_STATE.STATE ≠ 3 →
    Completes (.lossSilentTimeout k) s fun t =>
      t = s) ∧
  (∀ (h : Half) (init v : Nat) (s : State), s.own.alive h = true → s.own.ownsAny h 272 64 = true →
    Completes (.losClsWrite h init v) s fun t =>
      t.w.rd .A F.LOS_CTRL.CLS = v % 4 ∧ World.RegsBut [F.LOS_CTRL.CLS.reg] s.w t.w ∧ t.w.uin = s.w.uin ∧ s.Quiet t) ∧
  (∀ (h : Half) (init : Nat) (s : State), s.own.alive h = true → s.own.ownsAny h 272 64 = true →
    Completes (.losClrCnt h init) s fun t =>
      t.w.rd .A F.LOS_TOTAL.GRAIN = 0 ∧ World.RegsBut [F.LOS_TOTAL.GRAIN.reg] s.w t.w ∧ t.w.uin = s.w.uin ∧ s.Quiet t) ∧
  (∀ (h : Half) (init v : Nat) (c : Instr) (s : State), c ∈ [Instr.losClsWrite h init v, .losClrCnt h init] → s.own.alive h = true →
    s.own.ownsAny h 272 64 = false →
    Completes c s fun t =>
      t.w.rd h F.OWN_VIOL.OBJ = 272 + s.w.rd h F.LOS_SEL.CH init ∧ t.w.rd h F.OWN_VIOL.INIT = init % 16 ∧
      World.RegsBut [F.OWN_VIOL.OBJ.reg, F.EVT_STATUS.LOST.reg] s.w t.w ∧ s.Quiet t)

/-- Parts of R271, R278, R279, R283, R288, R296: a cycle in the serving half, the crop slot, TANK_ZERO and TOT_CLR.
Parts of R291–R293: CAL_START to CAL_CLEAR, each with what refuses it.
Where the spec leaves the model a choice: log entry 39. -/
def Obligations.yieldPipeline : Prop :=
  (∀ (h : Half) (s : State) (sec : YildSec), (s.w.yield h).sec = some sec → s.own.server = some h → s.w.rd h F.SET_YLD_CTRL.RUN = 1 →
    Completes (.yieldCycle h) s fun t =>
      (t.w.yield h).lastK = s.w.mt h / 100000000 ∧ (t.w.yield h).by_ = some h ∧
      (∃ x ∈ (t.w.yield h).slices, x.k = s.w.mt h / 100000000 ∧ t.w.rd h F.SET_YLD_STATUS.CUTTING = b2n x.cutting) ∧
      0 ≤ (t.w.yield h).tank ∧ (t.w.yield h).tank ≤ ((10 * sec.tankMax : Nat) : Rat) ∧
      (t.w.yield h).crop = s.w.rd h F.SET_YLD_CTRL.CROP ∧ s.Quiet t) ∧
  (∀ (h : Half) (s : State), s.own.server ≠ some h ∨ s.w.rd h F.SET_YLD_CTRL.RUN = 0 →
    Completes (.yieldCycle h) s fun t =>
      t = s) ∧
  (∀ (h : Half) (v : Nat) (s : State) (sec : YildSec), (s.w.yield h).sec = some sec → v < 8 →
    Completes (.yieldCropChange h v) s fun t =>
      t.w.rd h F.SET_YLD_CTRL.CROP = (if v < sec.crops.length then v else s.w.rd h F.SET_YLD_CTRL.CROP) ∧
      World.RegsBut [F.SET_YLD_CTRL.CROP.reg] s.w t.w ∧ t.w.yld = s.w.yld ∧ s.Quiet t) ∧
  (∀ (h : Half) (s : State),
    Completes (.tankZero h) s fun t =>
      (t.w.yield h).tank = 0 ∧ t.w.rd h F.SET_YLD_TANK.VALUE = 0 ∧ (t.w.yield h).totWet = (s.w.yield h).totWet ∧ s.Quiet t) ∧
  (∀ (h : Half) (s : State),
    Completes (.totClr h) s fun t =>
      (t.w.yield h).totWet = 0 ∧ (t.w.yield h).totStd = 0 ∧ (t.w.yield h).totArea = 0 ∧ (t.w.yield h).unassigned = 0 ∧
      t.w.rd h F.SET_YLD_TOT_WET.VALUE = 0 ∧ t.w.rd h F.SET_YLD_TOT_STD.VALUE = 0 ∧ t.w.rd h F.SET_YLD_TOT_AREA.VALUE = 0 ∧
      t.w.rd h F.SET_YLD_UNASSIGNED.VALUE = 0 ∧ (t.w.yield h).tank = (s.w.yield h).tank ∧ s.Quiet t) ∧
  (∀ (h : Half) (s : State) (sec : YildSec), (s.w.yield h).sec = some sec →
    Completes (.yldCalStart h) s fun t =>
      (s.w.rd h F.SET_YLD_CAL.STATE ≠ 0 → t.w.rd h F.SET_YLD_CAL.RES = 7 ∧ t.w.yld = s.w.yld) ∧
      (s.w.rd h F.SET_YLD_CAL.STATE = 0 → (s.w.yield h).slices = [] → t.w.rd h F.SET_YLD_CAL.RES = 0 ∧ t.w.rd h F.SET_YLD_CAL.STATE = 1 ∧
        (t.w.yield h).load = { start := s.w.mt h / 100000000, crop := (s.w.yield h).crop }) ∧
      (s.w.rd h F.SET_YLD_CAL.STATE = 0 →
        (∃ z ∈ (s.w.yield h).slices, z.cutting = true ∧ s.w.mt h / 100000000 ≤ z.k + max sec.dFlow sec.dMoist + sec.flush) →
        t.w.rd h F.SET_YLD_CAL.RES = 1 ∧ t.w.rd h F.SET_YLD_CAL.STATE = 0 ∧ t.w.yld = s.w.yld) ∧ s.Quiet t) ∧
  (∀ (h : Half) (s : State), s.w.rd h F.SET_YLD_CAL.STATE = 1 →
    Completes (.yldCalStop h) s fun t =>
      ((s.w.yield h).cutting = true → t.w.rd h F.SET_YLD_CAL.RES = 2 ∧ t.w.rd h F.SET_YLD_CAL.STATE = 1) ∧
      ((s.w.yield h).cutting = false → t.w.rd h F.SET_YLD_CAL.RES = 0 ∧ t.w.rd h F.SET_YLD_CAL.STATE = 2 ∧
        (t.w.yield h).load = { (s.w.yield h).load with stop := s.w.mt h / 100000000 }) ∧ s.Quiet t) ∧
  (∀ (h : Half) (s : State), s.w.rd h F.SET_YLD_CAL.STATE ≠ 1 →
    Completes (.yldCalStop h) s fun t =>
      t = s) ∧
  (∀ (h : Half) (s : State) (sec : YildSec), (s.w.yield h).sec = some sec → s.w.rd h F.SET_YLD_CAL.STATE = 2 → (s.w.yield h).load.stop
    + sec.dFlow + sec.flush ≤ s.w.mt h / 100000000 →
    Completes (.yldCalFlushComplete h) s fun t =>
      t.w.rd h F.SET_YLD_CAL.STATE = 3 ∧ t.w.rd h F.SET_YLD_CAL_MASS.KG = satTo 32 (roundN (s.w.yield h).load.mass) ∧
      World.RegsBut [F.SET_YLD_CAL.STATE.reg, F.SET_YLD_CAL_MASS.KG.reg] s.w t.w ∧ t.w.yld = s.w.yld ∧ s.Quiet t) ∧
  (∀ (h : Half) (kg : Nat) (s : State), s.w.rd h F.SET_YLD_CAL.STATE = 3 → 2000 ≤ (s.w.yield h).load.mass → (s.w.yield h).load.start +
    600 ≤ (s.w.yield h).load.stop → 20 * (s.w.yield h).load.bad ≤ (s.w.yield h).load.flow → (s.w.yield h).load.unloaded = false → 80 /
    100 ≤ (kg : Rat) / (s.w.yield h).load.mass → (kg : Rat) / (s.w.yield h).load.mass ≤ 125 / 100 → (s.w.yield h).stored.length < 8 →
    Completes (.yldCalWeight h kg) s fun t =>
      t.w.rd h F.SET_YLD_CAL.STATE = 0 ∧ t.w.rd h F.SET_YLD_CAL.RES = 0 ∧ t.w.rd h F.SET_YLD_CAL_WT.KG = kg % 2 ^ 32 ∧
      t.w.rd h F.SET_YLD_CAL.FACTOR = satTo 16 (roundN (10000 * ((kg : Rat) / (s.w.yield h).load.mass))) ∧
      (t.w.yield h).stored = (s.w.yield h).stored ++
        [⟨(s.w.yield h).load.crop, kg, (s.w.yield h).load.mass, (s.w.yield h).load.sMass / (s.w.yield h).load.mass⟩] ∧ s.Quiet t) ∧
  (∀ (h : Half) (kg : Nat) (s : State), s.w.rd h F.SET_YLD_CAL.STATE = 3 →
    Completes (.yldCalWeight h kg) s fun t =>
      t.w.rd h F.SET_YLD_CAL.STATE = 0 ∧ (t.w.yield h).load = {} ∧
      ((s.w.yield h).load.mass < 2000 ∨ (s.w.yield h).load.stop < (s.w.yield h).load.start + 600 → t.w.rd h F.SET_YLD_CAL.RES = 3) ∧
      (2000 ≤ (s.w.yield h).load.mass → (s.w.yield h).load.start + 600 ≤ (s.w.yield h).load.stop →
        20 * (s.w.yield h).load.bad ≤ (s.w.yield h).load.flow → (s.w.yield h).load.unloaded = true → t.w.rd h F.SET_YLD_CAL.RES = 5) ∧
      (t.w.rd h F.SET_YLD_CAL.RES ≠ 0 → (t.w.yield h).stored = (s.w.yield h).stored) ∧ s.Quiet t) ∧
  (∀ (h : Half) (kg : Nat) (s : State), s.w.rd h F.SET_YLD_CAL.STATE ≠ 3 →
    Completes (.yldCalWeight h kg) s fun t =>
      t.w.rd h F.SET_YLD_CAL_WT.KG = kg % 2 ^ 32 ∧ World.RegsBut [F.SET_YLD_CAL_WT.KG.reg] s.w t.w ∧ t.w.yld = s.w.yld ∧ s.Quiet t) ∧
  (∀ (h : Half) (s : State),
    Completes (.yldCalAbort h) s fun t =>
      t.w.rd h F.SET_YLD_CAL.STATE = 0 ∧ (t.w.yield h).load = {} ∧ (t.w.yield h).stored = (s.w.yield h).stored ∧
      World.RegsBut [F.SET_YLD_CAL.STATE.reg] s.w t.w ∧ s.Quiet t) ∧
  (∀ (h : Half) (init : Nat) (s : State) (sec : YildSec) (loads : List CalStored) (new : List Rat), (s.w.yield h).sec = some sec →
    loads = (s.w.yield h).stored.filter (fun l => l.crop = (s.w.yield h).crop) → new = newFactors (sec.crops.getD (s.w.yield h).crop
    {}) (yieldFactors s.ledger (s.w.yield h).crop) loads →
    Completes (.yldCalCommit h init) s fun t =>
      (s.w.rd h F.SET_YLD_CAL.STATE ≠ 0 → t.w.rd h F.SET_YLD_CAL.RES = 7 ∧ t.ledger = s.ledger) ∧
      (s.w.rd h F.SET_YLD_CAL.STATE = 0 → s.w.calHolds h init = false → t.w.rd h F.SET_YLD_CAL.RES = 8 ∧ t.ledger = s.ledger) ∧
      (s.w.rd h F.SET_YLD_CAL.STATE = 0 → s.w.calHolds h init = true → loads = [] → t.w.rd h F.SET_YLD_CAL.RES = 3 ∧ t.ledger = s.ledger) ∧
      (s.w.rd h F.SET_YLD_CAL.STATE = 0 → s.w.calHolds h init = true → loads ≠ [] → (∃ v ∈ new, v < 80 / 100 ∨ 125 / 100 < v) →
        t.w.rd h F.SET_YLD_CAL.RES = 6 ∧ t.ledger = s.ledger ∧ (t.w.yield h).stored = (s.w.yield h).stored) ∧
      (s.w.rd h F.SET_YLD_CAL.STATE = 0 → s.w.calHolds h init = true → loads ≠ [] → (∀ v ∈ new, 80 / 100 ≤ v ∧ v ≤ 125 / 100) →
        t.w.rd h F.SET_YLD_CAL.RES = 0 ∧ (t.w.yield h).stored = (s.w.yield h).stored.filter (fun l => l.crop ≠ (s.w.yield h).crop) ∧
        t.ledger = ledgerWrite s.ledger 8 (s.w.yield h).crop 2 (s.w.utc h) ((new.map (fun v => leBytes (roundN (10000 * v)) 2)).flatten ++
          leBytes ((((ledgerEntry s.ledger 8 (s.w.yield h).crop).map (byteAt · 16)).getD 0) + 1) 1 ++ leBytes loads.length 1 ++
          leBytes 0 2 ++ leBytes (s.w.utc h) 4)) ∧ t.own = s.own) ∧
  (∀ (h : Half) (s : State),
    Completes (.yldCalClear h) s fun t =>
      (t.w.yield h).stored = [] ∧ t.w.rd h F.SET_YLD_CAL.LOADS = 0 ∧ World.RegsBut [F.SET_YLD_CAL.LOADS.reg] s.w t.w ∧ s.Quiet t)

/-- Parts of R517–R523: the token, the key, the lock's ends, WRITE and RESTORE with what refuses them.
Where the spec leaves the model a choice: log entry 10. -/
def Obligations.ledgerCommands : Prop :=
  (∀ (h : Half) (init tok : Nat) (s : State), s.own.server = some h → init < 12 →
    Completes (.calTokenRequest h init tok) s fun t =>
      t.w.rd h F.CAL_TOKEN.TOKEN init = tok % 2 ^ 32 ∧ t.w.cal.token = some (tok % 2 ^ 32) ∧ t.w.cal.tokHalf = h ∧ t.w.cal.tokInit = init ∧ s.Quiet t) ∧
  (∀ (h : Half) (init tok : Nat) (s : State), s.own.server ≠ some h →
    Completes (.calTokenRequest h init tok) s fun t =>
      t.w.rd .A F.CAL_STATUS.RES = 2 ∧ t.w.cal = s.w.cal ∧ World.RegsBut [F.CAL_STATUS.RES.reg] s.w t.w ∧ s.Quiet t) ∧
  (∀ (h : Half) (init key : Nat) (s : State) (tok : Nat), s.w.cal.token = some tok →
    Completes (.calKeyOffer h init key) s fun t =>
      t.w.cal.token = none ∧ s.Quiet t ∧
      (tok = key % 2 ^ 32 → s.w.cal.tokHalf = h → s.w.cal.tokInit = init → init < 16 →
        t.w.rd .A F.CAL_LOCK.OPEN = 1 ∧ t.w.rd .A F.CAL_LOCK.HOLDER = init ∧ t.w.cal.half = h ∧ t.w.cal.lastAt = s.w.now) ∧
      (tok ≠ key % 2 ^ 32 ∨ s.w.cal.tokHalf ≠ h ∨ s.w.cal.tokInit ≠ init →
        t.w.rd .A F.CAL_LOCK.OPEN = s.w.rd .A F.CAL_LOCK.OPEN ∧ t.w.rd .A F.CAL_LOCK.HOLDER = s.w.rd .A F.CAL_LOCK.HOLDER)) ∧
  (∀ (h : Half) (init key : Nat) (s : State), s.w.cal.token = none →
    Completes (.calKeyOffer h init key) s fun t =>
      t = s) ∧
  (∀ (h : Half) (init : Nat) (s : State), s.w.calHolds h init = true →
    Completes (.calLockClose h init) s fun t =>
      t.w.rd .A F.CAL_LOCK.OPEN = 0 ∧ t.w.rd .A F.CAL_LOCK.HOLDER = 0 ∧ t.w.cal.token = none ∧ s.Quiet t) ∧
  (∀ (h : Half) (init : Nat) (s : State), s.w.calHolds h init = false →
    Completes (.calLockClose h init) s fun t =>
      t = s) ∧
  (∀ (s : State), s.w.rd .A F.CAL_LOCK.OPEN = 1 → s.w.cal.lastAt + 600000000000 ≤ s.w.now →
    Completes .calLockTimeout s fun t =>
      t.w.rd .A F.CAL_LOCK.OPEN = 0 ∧ t.w.cal.token = none ∧ s.Quiet t) ∧
  (∀ (s : State), s.w.now < s.w.cal.lastAt + 600000000000 →
    Completes .calLockTimeout s fun t =>
      t = s) ∧
  (∀ (h : Half) (init ty k : Nat) (pl : List Byte) (s : State),
    Completes (.ledgerWrite h init ty k pl) s fun t =>
      (s.own.server ≠ some h → t.w.rd .A F.CAL_STATUS.RES = 2 ∧ t.ledger = s.ledger) ∧
      (s.own.server = some h → s.w.calHolds h init = false → t.w.rd .A F.CAL_STATUS.RES = 1 ∧ t.ledger = s.ledger) ∧
      (s.own.server = some h → s.w.calHolds h init = true → ty = 0 ∨ 9 < ty ∨ slotCount ty ≤ k →
        t.w.rd .A F.CAL_STATUS.RES = 3 ∧ t.ledger = s.ledger) ∧
      (s.own.server = some h → s.w.calHolds h init = true → 1 ≤ ty → ty ≤ 9 → k < slotCount ty → payloadOk ty pl = false →
        t.w.rd .A F.CAL_STATUS.RES = 4 ∧ t.ledger = s.ledger) ∧ t.own = s.own) ∧
  (∀ (h : Half) (init ty k : Nat) (pl : List Byte) (s : State), s.own.server = some h → s.w.calHolds h init = true → 1 ≤ ty → ty ≤ 9 →
    k < slotCount ty → payloadOk ty pl = true →
    Completes (.ledgerWrite h init ty k pl) s fun t =>
      t.w.rd .A F.CAL_STATUS.RES = 0 ∧ t.ledger = ledgerWrite s.ledger ty k 2 (s.w.utc h) pl ∧
      t.w.rd .A F.CAL_STATUS.WRITES = satTo 10 (s.w.rd .A F.CAL_STATUS.WRITES + 1) ∧ t.w.cal.lastAt = s.w.now ∧ t.own = s.own) ∧
  (∀ (h : Half) (init mask : Nat) (f : List Byte) (s : State),
    Completes (.ledgerRestore h init mask f) s fun t =>
      (s.own.server ≠ some h → t.w.rd .A F.CAL_STATUS.RES = 2 ∧ t.ledger = s.ledger) ∧
      (s.own.server = some h → s.w.calHolds h init = false → t.w.rd .A F.CAL_STATUS.RES = 1 ∧ t.ledger = s.ledger) ∧
      (s.own.server = some h → s.w.calHolds h init = true → s.w.inService h = false → t.w.rd .A F.CAL_STATUS.RES = 8 ∧ t.ledger = s.ledger) ∧
      (s.own.server = some h → s.w.calHolds h init = true → s.w.inService h = true →
        fileSigned f (((s.w.upd.get h).vault.keys.filter (fun k => k.kind = 1 && ((s.w.upd.get h).vault.key 1 k.id).isSome)).map (·.key)) = true →
        slice f 8 16 = s.ledger.readN 8 16 → u16At f 6 = 0 → t.w.rd .A F.CAL_STATUS.RES = 0 ∧ t.ledger = s.ledger) ∧
      (t.w.rd .A F.CAL_STATUS.RES ≠ 0 → t.ledger = s.ledger) ∧ t.own = s.own)

/-- Parts of R516, R519, R520, R523, R293, R470: an entry's slot of 64 bytes and the journal's next record of 80; a restore, within the
masked types and the journal; a tile's record, within its 16 entries, its serial and the journal. With no journal record due, the
commands that read the journal leave the Ledger as it was.
Where the spec leaves the model a choice: log entries 10, 5. -/
def Obligations.ledgerBytes : Prop :=
  (∀ (h : Half) (init ty k : Nat) (pl : List Byte) (b : Nat) (s : State),
    Completes (.ledgerWrite h init ty k pl) s fun t =>
      (b < slotAddr ty k ∨ slotAddr ty k + 64 ≤ b) →
      (b < journalAddr ((journalLast s.ledger + 1) % 48) ∨ journalAddr ((journalLast s.ledger + 1) % 48) + 80 ≤ b) →
      t.ledger.read b = s.ledger.read b) ∧
  (∀ (h : Half) (init b : Nat) (s : State),
    Completes (.yldCalCommit h init) s fun t =>
      (b < slotAddr 8 (s.w.yield h).crop ∨ slotAddr 8 (s.w.yield h).crop + 64 ≤ b) →
      (b < journalAddr ((journalLast s.ledger + 1) % 48) ∨ journalAddr ((journalLast s.ledger + 1) % 48) + 80 ≤ b) →
      t.ledger.read b = s.ledger.read b) ∧
  (∀ (h : Half) (init mask : Nat) (f : List Byte) (b : Nat) (s : State),
    Completes (.ledgerRestore h init mask f) s fun t =>
      (b < 0x100 ∨ 0x1000 ≤ b) →
      (∀ ty, 1 ≤ ty → ty ≤ 8 → bitOf mask (ty - 1) = true → b < slotBase ty ∨ slotBase ty + 64 * slotCount ty ≤ b) →
      t.ledger.read b = s.ledger.read b) ∧
  (∀ (n rail : Nat) (serial : List Byte) (cal : List (List Byte)) (b : Nat) (s : State),
    Completes (.tileReady n rail serial cal) s fun t =>
      (b < 0x100 ∨ 0x1000 ≤ b) → (b < slotAddr 1 (16 * n) ∨ slotAddr 1 (16 * n) + 1024 ≤ b) → (b < slotAddr 9 n ∨ slotAddr 9 n + 64 ≤ b) →
      t.ledger.read b = s.ledger.read b) ∧
  (∀ (h : Half) (k : Nat) (cc : CupCond) (wrote : Bool) (ma mb : List CupMeas) (init target : Nat) (t1 t0 : Bool) (tiles : Nat) (c :
    Instr) (s : State), c ∈ [Instr.backplanePowerOn t1 t0 tiles, .serverRequest h, .bloom h k, .roastActivateRequest h k, .shutdown h k
    cc, .prepareHalf h init target, .powerFail wrote ma mb] → (∀ i, i < 48 → journalDue s.ledger i = false) →
    Completes c s fun t =>
      t.ledger = s.ledger) ∧
  (∀ (t1 t0 : Bool) (tiles : Nat) (s : State), (s.w.run.get .A).running = false → (s.w.run.get .B).running = false → (∃ i, i < 48 ∧
    journalDue s.ledger i = true) →
    Completes (.backplanePowerOn t1 t0 tiles) s fun t =>
      t.ledger = journalReplay s.ledger ∧ t.w.rd .A F.CAL_STATUS.REPLAYED = 1 ∧ t.w.rd .A F.CAL_STATUS.INVALID = satTo 9 (ledgerInvalid t.ledger))

/-- Parts of R483, R287, R363, R357, R366, R369, R384, R310, R335, R452, R467: the event log, the yield ring, the dump ring, the acquisition
tables, the latch table, the measurement records, the pose ring, the Grind's buffers and the track store. The address stored to is the
one that the meaning computes; every byte outside the bytes stored reads as before.
Where the spec leaves the model a choice: log entries 9, 5. -/
def Obligations.memoryBytes : Prop :=
  (∀ (h g : Half) (b : Nat) (s : State) (r : EvRec) (rest : List EvRec), (s.w.run.get h).running = true → (s.w.evt.get h).queue = r ::
    rest →
    Completes (.eventRecordDelivery h) s fun t =>
      (t.w.getMem h 10 (16 * (s.w.rd h F.EVT_LOG_HEAD.VALUE % 4096)) 8 = leBytes r.stamp 8) ∧
      (b < region 10 (16 * (s.w.rd g F.EVT_LOG_HEAD.VALUE % 4096)) ∨ region 10 (16 * (s.w.rd g F.EVT_LOG_HEAD.VALUE % 4096)) + 16 ≤ b →
        (t.w.dram.get g).read b = (s.w.dram.get g).read b)) ∧
  (∀ (h : Half) (n : Nat) (iq : List Int) (noise : Nat) (g : Half) (b : Nat) (s : State),
    Completes (.chIntegrationDump h n iq noise) s fun t =>
      g ≠ h ∨ b < region 9 (s.w.rd h F.GNS_DUMP_BASE.VALUE + 64 * (s.w.rd h F.GNS_DUMP_HEAD.VALUE % 4096)) ∨
        region 9 (s.w.rd h F.GNS_DUMP_BASE.VALUE + 64 * (s.w.rd h F.GNS_DUMP_HEAD.VALUE % 4096)) + 64 ≤ b →
      (t.w.dram.get g).read b = (s.w.dram.get g).read b) ∧
  (∀ (h : Half) (e cn0 ratio code : Nat) (dop : Int) (tEnd : Nat) (g : Half) (b : Nat) (s : State),
    Completes (.acqEntryComplete h e cn0 ratio code dop tEnd) s fun t =>
      g ≠ h ∨ b < region 0 (s.w.rd h F.GNS_ACQ_TAB.ADDR e + 64 * s.w.rd h F.GNS_ACQ_STATUS.ENTRY e + 32) ∨
        region 0 (s.w.rd h F.GNS_ACQ_TAB.ADDR e + 64 * s.w.rd h F.GNS_ACQ_STATUS.ENTRY e + 32) + 24 ≤ b →
      (t.w.dram.get g).read b = (s.w.dram.get g).read b) ∧
  (∀ (h : Half) (init : Nat) (g : Half) (b : Nat) (s : State),
    Completes (.acqKnock h init) s fun t =>
      g ≠ h ∨ (∀ e k, e < 16 → k < 64 → b ≠ region 0 (s.w.rd h F.GNS_ACQ_TAB.ADDR e + 64 * k + 32)) →
      (t.w.dram.get g).read b = (s.w.dram.get g).read b) ∧
  (∀ (h : Half) (init cls idx tc : Nat) (jobs : List Nat) (g : Half) (b : Nat) (s : State),
    Completes (.knockCmd h init cls idx tc jobs) s fun t =>
      g ≠ h ∨ (∀ e k, e < 16 → k < 64 → b ≠ region 0 (s.w.rd h F.GNS_ACQ_TAB.ADDR e + 64 * k + 32)) →
      (t.w.dram.get g).read b = (s.w.dram.get g).read b) ∧
  (∀ (h g : Half) (b : Nat) (s : State),
    Completes (.measurementLatch h) s fun t =>
      g ≠ h ∨ b < region 6 (6144 * (((s.w.gns.get h).latBuf + 1) % 2)) ∨ region 6 (6144 * (((s.w.gns.get h).latBuf + 1) % 2)) + 6144 ≤ b →
      (t.w.dram.get g).read b = (s.w.dram.get g).read b) ∧
  (∀ (h : Half) (entries : List MEntry) (bias drift : Int) (clk : Bool) (g : Half) (b : Nat) (s : State) (r : MRec),
    Completes (.measurementRecord h entries bias drift clk) s fun t =>
      ((t.w.gns.get h).own = none → t.w.dram = s.w.dram) ∧
      ((t.w.gns.get h).own = some r →
        g ≠ h ∨ b < region 7 (if s.w.rd h F.GNS_MREC_OWN.VALUE = 0x10000 then 0x18000 else 0x10000) ∨
          region 7 (if s.w.rd h F.GNS_MREC_OWN.VALUE = 0x10000 then 0x18000 else 0x10000) + r.bytes.length ≤ b →
        (t.w.dram.get g).read b = (s.w.dram.get g).read b)) ∧
  (∀ (h : Half) (ownOk sibOk : Bool) (g : Half) (b : Nat) (s : State) (r : MRec), (s.w.gns.get h.other).sent = some r →
    Completes (.siblingRecordReceived h ownOk sibOk) s fun t =>
      (t.w.getMem h 7 (if s.w.rd h F.GNS_MREC_SIB.VALUE = 0x20000 then 0x28000 else 0x20000) r.bytes.length = r.bytes) ∧
      (g ≠ h ∨ b < region 7 (if s.w.rd h F.GNS_MREC_SIB.VALUE = 0x20000 then 0x28000 else 0x20000) ∨
        region 7 (if s.w.rd h F.GNS_MREC_SIB.VALUE = 0x20000 then 0x28000 else 0x20000) + r.bytes.length ≤ b →
      (t.w.dram.get g).read b = (s.w.dram.get g).read b)) ∧
  (∀ (h : Half) (p : Pose) (slew : Bool) (g : Half) (b : Nat) (s : State),
    Completes (.posePublish h p slew) s fun t =>
      (t.w.getMem h 8 (64 * (((s.w.gns.get h).pse + 1) % 128)) 8 = leBytes (s.w.mt h / 10000000 * 10000000) 8) ∧
      (g ≠ h ∨ b < region 8 (64 * (((s.w.gns.get h).pse + 1) % 128)) ∨ region 8 (64 * (((s.w.gns.get h).pse + 1) % 128)) + 64 ≤ b →
      (t.w.dram.get g).read b = (s.w.dram.get g).read b)) ∧
  (∀ (h : Half) (vals : List Nat) (profs : List (List Nat)) (edge : List (Rat × Rat)) (g : Half) (b : Nat) (s : State) (c : Cycle)
    (rest : List Cycle), (s.w.grd.get h).cycles = c :: rest →
    Completes (.grindPublish h vals profs edge) s fun t =>
      g ≠ h ∨ ((b < region 4 (((s.w.grd.get h).buf + 1) % 3 * bufStep) ∨ region 4 (((s.w.grd.get h).buf + 1) % 3 * bufStep) + bufStep ≤ b) ∧
        (∀ x ∈ c.own ++ c.sib, b ≠ region 4 (((s.w.grd.get h).buf + 1) % 3 * bufStep + x.1)) ∧
        (b < region 4 (((s.w.grd.get h).buf + 1) % 3 * bufStep + 29491200) ∨
          region 4 (((s.w.grd.get h).buf + 1) % 3 * bufStep + 29491200) + 1600 * profs.length ≤ b)) →
      (t.w.dram.get g).read b = (s.w.dram.get g).read b) ∧
  (∀ (h : Half) (veh : Int × Int × Int) (dets : List Det) (v init : Nat) (c : Instr) (g : Half) (b : Nat) (s : State), c ∈
    [Instr.trackCycle h veh dets, .trackIgnore h init v, .crossingUp h] →
    Completes c s fun t =>
      (b < region 5 (32768 * (((s.w.trk.get g).buf + 1) % 2)) ∨ region 5 (32768 * (((s.w.trk.get g).buf + 1) % 2)) + 32768 ≤ b) →
      (∀ x ∈ (t.w.trk.get g).slot, b < region 5 (32768 * (((s.w.trk.get g).buf + 1) % 2) + 64 * x.1) ∨
        region 5 (32768 * (((s.w.trk.get g).buf + 1) % 2) + 64 * x.1) + 64 ≤ b) →
      (t.w.dram.get g).read b = (s.w.dram.get g).read b) ∧
  (∀ (h g : Half) (b : Nat) (s : State),
    Completes (.yieldCycle h) s fun t =>
      ((g = h ∧ (b < region 3 (s.w.rd h F.SET_YLD_RING_BASE.VALUE) ∨ region 3 (s.w.rd h F.SET_YLD_RING_BASE.VALUE) + 262144 ≤ b)) ∨
        (g ≠ h ∧ (b < region 3 0 ∨ region 4 0 ≤ b))) →
      (t.w.dram.get g).read b = (s.w.dram.get g).read b) ∧
  (∀ (h : Half) (init target : Nat) (g : Half) (b : Nat) (s : State),
    Completes (.prepareHalf h init target) s fun t =>
      g ≠ (halfOf target).other ∨ b < region 3 0 ∨ region 4 0 ≤ b → (t.w.dram.get g).read b = (s.w.dram.get g).read b) ∧
  (∀ (t1 t0 : Bool) (tiles : Nat) (g : Half) (s : State), (s.w.run.get .A).running = false → (s.w.run.get .B).running = false →
    Completes (.backplanePowerOn t1 t0 tiles) s fun t =>
      ∀ b, (t.w.dram.get g).read b = 0) ∧
  (∀ (h : Half) (c : Option Cartridge) (g : Half) (s : State), s.w.svc.presence.get h = false → s.own.alive h = false →
    Completes (.cartridgeInsert h c) s fun t =>
      ∀ b, (t.w.dram.get g).read b = if g = h then 0 else (s.w.dram.get g).read b)

/-- Parts of R297, R300–R303, R305, R307, R311, R432: the segments of a sample, the headers accepted, the drops, and the state of a port. -/
def Obligations.sensorIngest : Prop :=
  (∀ (h : Half) (p seq ofs flags : Nat) (data : List Byte) (s : State), ownPlane h p = true → data.length ≠ 0 → data.length ≤ 8960 →
    data.length % 64 = 0 ∨ bitOf flags 0 = true → ∀ x ∈ (s.w.grd.get h).asm, x.port = p → x.seq ≠ seq → bitOf flags 0 = false ∨ ofs ≠ 0
    →
    Completes (.sensorSegment h p seq ofs flags data) s fun t =>
      (t.w.grd.get h).asm = (s.w.grd.get h).asm ++
        [{ port := p, seq := seq, start := s.w.mt h, segs := [(ofs, data)], len := if bitOf flags 0 then some (ofs + data.length) else none }] ∧
      World.RegsBut [] s.w t.w ∧ s.Quiet t) ∧
  (∀ (h : Half) (p seq flags : Nat) (data more : List Byte) (s : State) (x : Asm), ownPlane h p = true → more.length ≠ 0 → more.length
    ≤ 8960 → bitOf flags 0 = true → (s.w.grd.get h).asm = [x] → x.port = p → x.seq = seq → x.segs = [(0, data)] →
    Completes (.sensorSegment h p seq data.length flags more) s fun t =>
      (t.w.grd.get h).asm = [] ∧
      exec (.sensorSample h p (data ++ more)) { s with w := s.w.updGrind h fun g => { g with asm := [] } } = .next t) ∧
  (∀ (h : Half) (p seq ofs flags : Nat) (data : List Byte) (s : State), ownPlane h p = false ∨ data.length = 0 ∨ 8960 < data.length ∨
    (data.length % 64 ≠ 0 ∧ bitOf flags 0 = false) →
    Completes (.sensorSegment h p seq ofs flags data) s fun t =>
      t = s) ∧
  (∀ (h : Half) (p seq : Nat) (s : State) (x : Asm), x ∈ (s.w.grd.get h).asm → x.port = p → x.seq = seq →
    Completes (.sampleReassemblyTimeout h p seq) s fun t =>
      (t.w.grd.get h).asm = (s.w.grd.get h).asm.filter (fun y => decide (y.port ≠ p ∨ y.seq ≠ seq)) ∧
      t.w.rd h F.PRJ_PORT.DROP p = satTo 8 (s.w.rd h F.PRJ_PORT.DROP p + 1) ∧
      (t.w.portSt h p).drops = s.w.mt h :: (s.w.portSt h p).drops.filter (fun z => decide (s.w.mt h < z + sec)) ∧
      World.RegsBut [F.PRJ_PORT.DROP.reg] s.w t.w ∧ s.Quiet t) ∧
  (∀ (h : Half) (p seq : Nat) (s : State), ∀ x ∈ (s.w.grd.get h).asm, x.port = p → x.seq ≠ seq →
    Completes (.sampleReassemblyTimeout h p seq) s fun t =>
      t = s) ∧
  (∀ (h : Half) (p : Nat) (bs : List Byte) (s : State), ownPlane h p = true → ((s.w.grin h).port p).role ≠ 0 → headerOk ((s.w.grin
    h).port p) bs = true → bitOf (byteAt bs 3) 0 = true → u16At bs 20 ≤ 100 →
    Completes (.sensorSample h p bs) s fun t =>
      (t.w.portSt h p).lastOk = s.w.mt h ∧ t.w.rd h F.PRJ_PORT.DROP p = s.w.rd h F.PRJ_PORT.DROP p ∧
      (byteAt bs 2 = 3 → (t.w.portSt h p).intrAt = some (s.w.mt h) ∧ (t.w.portSt h p).serial = slice bs 68 16 ∧
        t.w.rd h F.PRJ_PORT.SEQ_GAP p = s.w.rd h F.PRJ_PORT.SEQ_GAP p) ∧
      (byteAt bs 2 ≠ 3 → (t.w.portSt h p).lastSeq = some (u32At bs 4) ∧
        ∀ n, (s.w.portSt h p).lastSeq = some n → t.w.rd h F.PRJ_PORT.SEQ_GAP p =
          satTo 8 (s.w.rd h F.PRJ_PORT.SEQ_GAP p + (u32At bs 4 + 2 ^ 33 - n - 1) % 2 ^ 32)) ∧
      (byteAt bs 2 = 3 ∨ ((s.w.grin h).port p).role = 2 → (t.w.grd.get h).gather = (s.w.grd.get h).gather) ∧
      (byteAt bs 2 = 1 → ((s.w.grin h).port p).role = 1 → s.w.mt h < windowOf (s.w.period h) (u64At bs 8) + 30 * ms →
        (t.w.grd.get h).gather = (s.w.grd.get h).gather ++ [⟨p, windowOf (s.w.period h) (u64At bs 8), [u64At bs 8]⟩]) ∧
      World.RegsBut [F.PRJ_PORT.DROP.reg, F.GRD_XTRAP.HI.reg, F.GRD_LATE.LO.reg] s.w t.w ∧ s.Quiet t) ∧
  (∀ (h : Half) (p : Nat) (bs : List Byte) (s : State), ownPlane h p = true → ((s.w.grin h).port p).role ≠ 0 → headerOk ((s.w.grin
    h).port p) bs = false →
    Completes (.sensorSample h p bs) s fun t =>
      t.w.rd h F.PRJ_PORT.DROP p = satTo 8 (s.w.rd h F.PRJ_PORT.DROP p + 1) ∧ World.RegsBut [F.PRJ_PORT.DROP.reg] s.w t.w ∧
      (t.w.portSt h p).drops = s.w.mt h :: (s.w.portSt h p).drops.filter (fun z => decide (s.w.mt h < z + sec)) ∧ s.Quiet t) ∧
  (∀ (h : Half) (p : Nat) (bs : List Byte) (s : State), ownPlane h p = true → ((s.w.grin h).port p).role ≠ 0 → headerOk ((s.w.grin
    h).port p) bs = true → bitOf (byteAt bs 3) 0 = false ∨ 100 < u16At bs 20 →
    Completes (.sensorSample h p bs) s fun t =>
      t.w.rd h F.PRJ_PORT.DROP p = satTo 8 (s.w.rd h F.PRJ_PORT.DROP p + 1) ∧ World.RegsBut [F.PRJ_PORT.DROP.reg] s.w t.w ∧
      (t.w.portSt h p).drops = (s.w.portSt h p).drops ∧
      (t.w.portSt h p).syncs = (s.w.mt h, false) :: (s.w.portSt h p).syncs.filter (fun x => decide (s.w.mt h < x.1 + sec)) ∧ s.Quiet t) ∧
  (∀ (h : Half) (p : Nat) (bs : List Byte) (s : State), ownPlane h p = false ∨ ((s.w.grin h).port p).role = 0 →
    Completes (.sensorSample h p bs) s fun t =>
      t = s) ∧
  (∀ (h : Half) (p : Nat) (blind : Bool) (s : State), ownPlane h p = true →
    Completes (.portStateTimer h p blind) s fun t =>
      t.w.rd h F.PRJ_PORT.STATE p = s.w.portCond s.ledger h p blind ∧
      World.RegsBut [F.PRJ_PORT.STATE.reg, F.EVT_STATUS.LOST.reg] s.w t.w ∧ s.Quiet t) ∧
  (∀ (h : Half) (p : Nat) (blind : Bool) (s : State), ownPlane h p = false →
    Completes (.portStateTimer h p blind) s fun t =>
      t = s) ∧
  (∀ (h : Half) (p damage trash : Nat) (s : State), ownPlane h p = true → ((s.w.grin h).port p).role = 2 → s.w.portUsable h p = true →
    
    Completes (.grainAnalysis h p damage trash) s fun t =>
      (t.w.grd.get h).grain = (⟨s.w.mt h, false, p, f32Val damage, f32Val trash⟩ :: (s.w.grd.get h).grain).take 50 ∧
      (t.w.grd.get h.other).grain = (if s.w.rd h F.XNG_STATUS.UP = 1 then
        (⟨s.w.mt h, true, p, f32Val damage, f32Val trash⟩ :: (s.w.grd.get h.other).grain).take 50 else (s.w.grd.get h.other).grain) ∧
      World.RegsBut [] s.w t.w ∧ s.Quiet t) ∧
  (∀ (h : Half) (p damage trash : Nat) (s : State), ownPlane h p = false ∨ ((s.w.grin h).port p).role ≠ 2 ∨ s.w.portUsable h p = false
    →
    Completes (.grainAnalysis h p damage trash) s fun t =>
      t = s)

/-- Parts of R304–R310, R320–R323: the instant, the gather, the sibling's frames, the publication, the deadline, and the products' staleness.
Where the spec leaves the model a choice: log entry 40. -/
def Obligations.grindCycle : Prop :=
  (∀ (h : Half) (s : State), (s.w.grd.get h).sec.isSome = true →
    Completes (.grindInstant h) s fun t =>
      (t.w.grd.get h).unpub = (s.w.grd.get h).unpub + 1 ∧ t.w.rd h F.PRJ_STATUS.FAULT = 0 ∧
      t.w.rd h F.GRD_STATUS.COVER = s.w.cover h % 256 ∧
      (t.w.grd.get h).cycles = (if s.w.cannotGrind h = true ∨ ∃ c ∈ (s.w.grd.get h).cycles, c.tg = s.w.mt h / s.w.period h * s.w.period h then
        (s.w.grd.get h).cycles else
        (s.w.grd.get h).cycles ++ [{ tg := s.w.mt h / s.w.period h * s.w.period h, period := s.w.period h }]) ∧
      t.w.rd h F.GRD_STATUS.GRADE = min (s.w.rd h F.GRD_STATUS.GRADE) (t.w.condGrade h) ∧ s.Quiet t) ∧
  (∀ (h : Half) (s : State), (s.w.grd.get h).sec = none →
    Completes (.grindInstant h) s fun t =>
      t = s) ∧
  (∀ (h : Half) (feats : List (Nat × Nat)) (rate meas fill : Nat) (load : List Nat) (s : State) (c : Cycle), (s.w.grd.get h).cycles =
    [c] → c.closed = false →
    Completes (.gatherClose h feats rate meas fill load) s fun t =>
      (t.w.grd.get h).cycles.length = 1 ∧ (∃ d ∈ (t.w.grd.get h).cycles, d.closed = true ∧ d.tg = c.tg ∧ d.own = putCells [] feats ∧
        d.seq = NMap.get 0 (s.w.xng.get h).seqTx 5 % 65536) ∧
      (t.w.grd.get h).gather = (s.w.grd.get h).gather.filter (fun x => decide (c.tg < x.tg)) ∧
      t.w.rd h F.PRJ_RATE.RATE = rate % 2 ^ 16 ∧ t.w.rd h F.PRJ_RATE.PEAK = max rate (s.w.rd h F.PRJ_RATE.PEAK) % 2 ^ 16 ∧
      t.w.rd h F.PRJ_GROUND.MEASURED = meas % 2 ^ 13 ∧ t.w.rd h F.PRJ_GROUND.FILLED = fill % 2 ^ 13 ∧
      t.w.rd h F.FEA_LOAD.G = load.getD 0 0 % 256 ∧ t.w.rd h F.FEA_LOAD.S = load.getD 3 0 % 256 ∧ s.Quiet t) ∧
  (∀ (h : Half) (feats : List (Nat × Nat)) (rate meas fill : Nat) (load : List Nat) (s : State), ∀ c ∈ (s.w.grd.get h).cycles,
    c.closed = true →
    Completes (.gatherClose h feats rate meas fill load) s fun t =>
      t = s) ∧
  (∀ (h : Half) (seq : Nat) (s : State) (c x : Cycle) (k : Nat), s.w.feaFrame h seq = some (c, k) → (s.w.grd.get h).cycles = [x] →
    x.tg = c.tg →
    Completes (.featureChunkReceived h seq) s fun t =>
      (k = 0 → (t.w.grd.get h).cycles = [{ x with sibSeq := some seq, sibPorts := (List.range 8).map (fun p => s.w.rd h.other F.PRJ_PORT.STATE p), sibMres := (List.range 16).map (fun m => s.w.mres h.other m) }]) ∧
      (k ≠ 0 → x.got.contains (k - 1) = true → (t.w.grd.get h).cycles = [x]) ∧
      (k ≠ 0 → x.got.contains (k - 1) = false → (t.w.grd.get h).cycles.length = 1 ∧ ∃ y ∈ (t.w.grd.get h).cycles, y.got = (k - 1) :: x.got ∧ y.own = x.own) ∧
      World.RegsBut [] s.w t.w ∧ s.Quiet t) ∧
  (∀ (h : Half) (seq : Nat) (s : State), s.w.feaFrame h seq = none →
    Completes (.featureChunkReceived h seq) s fun t =>
      t = s) ∧
  (∀ (h : Half) (vals : List Nat) (profs : List (List Nat)) (edge : List (Rat × Rat)) (s : State) (c : Cycle) (rest : List Cycle),
    (s.w.grd.get h).cycles = c :: rest → c.closed = true → s.w.mt h ≤ c.tg + c.bound →
    Completes (.grindPublish h vals profs edge) s fun t =>
      (t.w.grd.get h).cycles = rest ∧ (t.w.grd.get h).unpub = 0 ∧ (t.w.grd.get h).pubTg = c.tg ∧ (t.w.grd.get h).edge = edge ∧
      (t.w.grd.get h).buf = ((s.w.grd.get h).buf + 1) % 3 ∧ t.w.rd h F.GRD_BUF.ADDR = ((s.w.grd.get h).buf + 1) % 3 * bufStep ∧
      t.w.rd h F.GRD_CYCLE.CYCLE = c.tg / (40 * ms) % 2 ^ 32 ∧
      t.w.rd h F.GRD_PUB.LAST = satTo 16 ((s.w.mt h - c.tg) / 100000) ∧
      t.w.rd h F.GRD_PUB.MAX = max (satTo 16 ((s.w.mt h - c.tg) / 100000)) (s.w.rd h F.GRD_PUB.MAX) ∧
      t.w.rd h F.GRD_STATUS.SIB = b2n (!s.w.planeMissing s.own h c) ∧
      t.w.rd h F.GRD_MISS.HI = (if s.w.planeMissing s.own h c = true then satTo 16 (s.w.rd h F.GRD_MISS.HI + 1) else s.w.rd h F.GRD_MISS.HI) ∧
      (∀ p, p < (s.w.grin h).prods.length → t.w.rd h F.GRD_PQ.AGE p = 0 ∧
        t.w.rd h F.GRD_PVAL.VALUE p = (t.w.product h ((s.w.grin h).prods.getD p {}) (vals.getD p 0)).1 % 2 ^ 32 ∧
        t.w.rd h F.GRD_PQ.QUALITY p = (t.w.product h ((s.w.grin h).prods.getD p {}) (vals.getD p 0)).2) ∧ s.Quiet t) ∧
  (∀ (h : Half) (vals : List Nat) (profs : List (List Nat)) (edge : List (Rat × Rat)) (s : State), ∀ c, (s.w.grd.get h).cycles.head? =
    some c → c.closed = false ∨ c.tg + c.bound < s.w.mt h →
    Completes (.grindPublish h vals profs edge) s fun t =>
      t = s) ∧
  (∀ (h : Half) (s : State) (c : Cycle) (rest : List Cycle), (s.w.grd.get h).cycles = c :: rest →
    Completes (.grindDeadline h) s fun t =>
      (t.w.grd.get h).cycles = (c :: rest).filter (fun x => decide (x.tg ≠ c.tg)) ∧
      t.w.rd h F.GRD_MISS.LO = satTo 16 (s.w.rd h F.GRD_MISS.LO + 1) ∧
      t.w.rd h F.GRD_MISS.HI = (if s.w.planeMissing s.own h c = true then satTo 16 (s.w.rd h F.GRD_MISS.HI + 1) else s.w.rd h F.GRD_MISS.HI) ∧
      t.w.rd h F.GRD_STATUS.SIB = b2n (!s.w.planeMissing s.own h c) ∧
      World.RegsBut [F.GRD_MISS.LO.reg, F.GRD_STATUS.SIB.reg, F.EVT_STATUS.LOST.reg] s.w t.w ∧ s.Quiet t) ∧
  (∀ (h : Half) (s : State), (s.w.grd.get h).cycles = [] →
    Completes (.grindDeadline h) s fun t =>
      t = s) ∧
  (∀ (h : Half) (s : State), (s.w.grd.get h).sec.isSome = true → (s.w.grd.get h).pubAt + 3 * s.w.period h ≤ s.w.mt h →
    Completes (.productStale h) s fun t =>
      (∀ p, p < (s.w.grin h).prods.length →
        t.w.rd h F.GRD_PQ.QUALITY p = (if s.w.rd h F.GRD_PQ.QUALITY p = 6 then 6 else 1)) ∧
      World.RegsBut [F.GRD_PQ.QUALITY.reg, F.EVT_STATUS.LOST.reg] s.w t.w ∧ s.Quiet t) ∧
  (∀ (h : Half) (s : State), (s.w.grd.get h).sec = none ∨ s.w.mt h < (s.w.grd.get h).pubAt + 3 * s.w.period h →
    Completes (.productStale h) s fun t =>
      t = s)

/-- Parts of R315, R317–R319, R326–R328, R331–R333: the grade, the rate, the models, PRJ_KNOCK and FEA_KNOCK, and the counts cleared.
Where the spec leaves the model a choice: log entry 40. -/
def Obligations.gradesAndModels : Prop :=
  (∀ (h : Half) (s : State) (i x : Nat), i < 4 → (s.w.grd.get h).since.getD i none = some x → x + 2 * sec ≤ s.w.mt h → s.w.rd h
    F.GRD_STATUS.GRADE ≤ i → ∀ j, i < j → j < 4 → ∀ y, (s.w.grd.get h).since.getD j none = some y → s.w.mt h < y + 2 * sec →
    Completes (.gradeRise h) s fun t =>
      t.w.rd h F.GRD_STATUS.GRADE = i + 1 ∧ t.w.rd h F.SET_STATUS.GRADE = i + 1 ∧
      World.RegsBut [F.GRD_STATUS.GRADE.reg, F.SET_STATUS.GRADE.reg, F.TRK_STOP.BLIND.reg, F.EVT_STATUS.LOST.reg] s.w t.w ∧ s.Quiet t) ∧
  (∀ (h : Half) (s : State), ∀ j, j < 4 → ∀ y, (s.w.grd.get h).since.getD j none = some y → y + 2 * sec ≤ s.w.mt h → j < s.w.rd h
    F.GRD_STATUS.GRADE →
    Completes (.gradeRise h) s fun t =>
      t.w.rd h F.GRD_STATUS.GRADE = s.w.rd h F.GRD_STATUS.GRADE ∧
      t.w.rd h F.TRK_STOP.BLIND = b2n (decide (s.w.rd h F.GRD_STATUS.NO_OBST = 1 ∨ s.w.rd h F.GRD_STATUS.GRADE ≤ 1)) ∧
      World.RegsBut [F.TRK_STOP.BLIND.reg] s.w t.w ∧ s.Quiet t) ∧
  (∀ (h : Half) (s : State),
    Completes (.grindRateChange h) s fun t =>
      t.w.rd h F.GRD_STATUS.RATE = (if s.w.rd h F.PWR_STATUS.DERATE = 1 ∨ (s.w.inService h = true ∧ s.w.rd h F.GRD_CTRL.SLOW = 1) then 1 else 0) ∧
      (t.w.rd h F.GRD_STATUS.RATE ≠ s.w.rd h F.GRD_STATUS.RATE → t.w.rd h F.FEA_STATUS.HALF_CLK = t.w.rd h F.GRD_STATUS.RATE) ∧
      World.RegsBut [F.GRD_STATUS.RATE.reg, F.FEA_STATUS.HALF_CLK.reg, F.EVT_STATUS.LOST.reg] s.w t.w ∧ s.Quiet t) ∧
  (∀ (h : Half) (m : Nat) (s : State), m < (s.w.grin h).models.length →
    Completes (.modelLoad h m) s fun t =>
      t.w.mres h m = 6 ∧ t.w.rd h F.FEA_MODEL.LOADING = 1 ∧ World.RegsBut [F.FEA_MRES.RES.reg, F.FEA_MODEL.LOADING.reg] s.w t.w ∧ s.Quiet t) ∧
  (∀ (h : Half) (m : Nat) (s : State), (s.w.grin h).models.length ≤ m →
    Completes (.modelLoad h m) s fun t =>
      t = s) ∧
  (∀ (h : Half) (m res : Nat) (s : State) (e : GModel), (s.w.grin h).models[m]? = some e → m < 16 → res ≤ 5 →
    Completes (.modelLoadComplete h m res) s fun t =>
      t.w.mres h m = res ∧ bitOf (t.w.rd h F.FEA_MODEL.LOADED) m = decide (res = 0) ∧
      (∀ j, j < 16 → j ≠ m → bitOf (t.w.rd h F.FEA_MODEL.LOADED) j = bitOf (s.w.rd h F.FEA_MODEL.LOADED) j) ∧
      (1 ≤ res → e.kind = 5 ∨ e.kind = 7 → t.w.rd h F.GRD_STATUS.NO_OBST = 1 ∧ t.w.rd h F.TRK_STOP.BLIND = 1) ∧
      (1 ≤ res → ∀ p, p < (s.w.grin h).prods.length → ((s.w.grin h).prods.getD p {}).model = m → t.w.rd h F.GRD_PQ.QUALITY p = 6) ∧
      (res = 0 → World.RegsBut [F.FEA_MRES.RES.reg, F.FEA_MODEL.LOADED.reg] s.w t.w) ∧ s.Quiet t) ∧
  (∀ (h : Half) (m res : Nat) (s : State), (s.w.grin h).models[m]? = none →
    Completes (.modelLoadComplete h m res) s fun t =>
      t = s) ∧
  (∀ (h : Half) (init mask : Nat) (s : State),
    Completes (.prjKnock h init mask) s fun t =>
      t.w.rd h F.PRJ_STATUS.FAULT = s.w.rd h F.PRJ_STATUS.FAULT ||| (mask % 256) ∧
      World.RegsBut [F.PRJ_STATUS.FAULT.reg, F.EVT_STATUS.LOST.reg] s.w t.w ∧ s.Quiet t) ∧
  (∀ (h : Half) (init mask : Nat) (jobs : List Nat) (s : State),
    Completes (.feaKnock h init mask jobs) s fun t =>
      t.w.rd h F.FEA_CNT.KNOCKED = satTo 8 (s.w.rd h F.FEA_CNT.KNOCKED + (((List.range 4).filter (bitOf mask)).map (fun k => jobs.getD k 0)).sum) ∧
      (bitOf mask 2 = true → jobs.getD 2 0 ≠ 0 → (t.w.grd.get h).late = []) ∧
      (bitOf mask 0 = true → jobs.getD 0 0 ≠ 0 → ∀ c ∈ (t.w.grd.get h).cycles, c.closed = false) ∧
      World.RegsBut [F.FEA_CNT.KNOCKED.reg, F.GRD_MISS.LO.reg, F.EVT_STATUS.LOST.reg] s.w t.w ∧ s.Quiet t) ∧
  (∀ (h : Half) (init : Nat) (s : State),
    Completes (.prjClrCnt h init) s fun t =>
      (∀ p, p < 8 → t.w.rd h F.PRJ_PORT.DROP p = 0 ∧ t.w.rd h F.PRJ_PORT.SEQ_GAP p = 0 ∧
        t.w.rd h F.PRJ_PORT.STATE p = s.w.rd h F.PRJ_PORT.STATE p) ∧
      t.w.rd h F.PRJ_RATE.PEAK = 0 ∧ t.w.rd h F.PRJ_RATE.RATE = s.w.rd h F.PRJ_RATE.RATE ∧
      World.RegsBut [F.PRJ_PORT.DROP.reg, F.PRJ_RATE.PEAK.reg] s.w t.w ∧ s.Quiet t) ∧
  (∀ (h : Half) (init : Nat) (s : State),
    Completes (.feaClrCnt h init) s fun t =>
      t.w.reg h F.FEA_CNT.L_DROP 0 = 0 ∧ World.RegsBut [F.FEA_CNT.L_DROP.reg] s.w t.w ∧ s.Quiet t) ∧
  (∀ (h : Half) (init : Nat) (s : State),
    Completes (.grdClrCnt h init) s fun t =>
      t.w.reg h F.GRD_LATE.HI 0 = 0 ∧ t.w.reg h F.GRD_XTRAP.HI 0 = 0 ∧ t.w.reg h F.GRD_MISS.HI 0 = 0 ∧ t.w.rd h F.GRD_PUB.MAX = 0 ∧
      t.w.rd h F.GRD_PUB.LAST = s.w.rd h F.GRD_PUB.LAST ∧
      World.RegsBut [F.GRD_LATE.HI.reg, F.GRD_XTRAP.HI.reg, F.GRD_MISS.HI.reg, F.GRD_PUB.MAX.reg] s.w t.w ∧ s.Quiet t)

/-- Parts of R335–R346, R348, R349: a cycle, a birth, a hit, late detections, the stop levels, the kept contributions, IGNORE and CLR_CNT.
Where the spec leaves the model a choice: log entries 11, 42. -/
def Obligations.trackStore : Prop :=
  (∀ (h : Half) (veh : Int × Int × Int) (dets : List Det) (s : State), s.w.trkRuns s.own h = true →
    Completes (.trackCycle h veh dets) s fun t =>
      t.w.rd h F.TRK_CYCLE.VALUE = s.w.rd h F.GRD_CYCLE.CYCLE ∧ (t.w.trk.get h).veh = veh ∧
      (t.w.trk.get h).buf = ((s.w.trk.get h).buf + 1) % 2 ∧ t.w.rd h F.TRK_BUF.VALUE = 32768 * (t.w.trk.get h).buf ∧
      t.w.rd h F.TRK_STATUS.IN_USE = (t.w.trk.get h).slot.length % 1024 ∧
      (∀ x ∈ (t.w.trk.get h).slot, x.2.stop = t.w.levelOf h x.2 ∧ x.2.kind = x.2.stopKind ∧
        x.2.stop ≤ t.w.rd h (if x.2.kind = 0 then F.TRK_STOP.DRIVE else F.TRK_STOP.HEADER)) ∧ s.Quiet t) ∧
  (∀ (h : Half) (veh : Int × Int × Int) (dets : List Det) (s : State), s.w.trkRuns s.own h = false →
    Completes (.trackCycle h veh dets) s fun t =>
      t = s) ∧
  (∀ (h : Half) (veh : Int × Int × Int) (d : Det) (s : State), s.w.trkRuns s.own h = true → (s.w.trk.get h).slot = [] →
    Completes (.trackCycle h veh [d]) s fun t =>
      (d.score < 50 → (t.w.trk.get h).slot = []) ∧
      (50 ≤ d.score → (t.w.trk.get h).slot.length = 1 ∧ ∃ x ∈ (t.w.trk.get h).slot, x.1 = 0 ∧ x.2.state = 1 ∧ x.2.stop = 0 ∧
        x.2.id = (s.w.trk.get h).next ∧ x.2.cls = min d.cls 7 ∧ x.2.hits = 1 ∧ x.2.misses = 0 ∧ x.2.tBirth = (s.w.grd.get h).pubTg ∧
        x.2.x.p = (d.x : Int) ∧ x.2.y.p = (d.y : Int))) ∧
  (∀ (h : Half) (veh : Int × Int × Int) (d : Det) (s : State) (k : Nat) (x : Track), s.w.trkRuns s.own h = true → (s.w.trk.get h).slot
    = [(k, x)] → x.tBirth ≤ (s.w.grd.get h).pubTg →
    Completes (.trackCycle h veh [d]) s fun t =>
      x.dist2 (s.w.grd.get h).pubTg d ≤ gate2 → ∀ y ∈ (t.w.trk.get h).slot, y.1 = k ∧ y.2.id = x.id ∧ y.2.hits = satTo 8 (x.hits + 1) ∧ y.2.misses = 0 ∧
        y.2.tUpd = (s.w.grd.get h).pubTg ∧ y.2.oos = false ∧ y.2.len = d.len ∧ y.2.hgt = d.hgt ∧
        (x.state = 1 → y.2.state = 1 ∨ y.2.state = 2) ∧ (x.state = 2 ∨ x.state = 3 → y.2.state = 2)) ∧
  (∀ (h : Half) (stamp : Nat) (dets : List Det) (s : State), s.w.trkRuns s.own h = true →
    Completes (.lateDetection h stamp dets) s fun t =>
      (s.w.mt h ≤ stamp + 200 * ms → t.w.rd h F.TRK_CNT.OOS_USED = satTo 16 (s.w.rd h F.TRK_CNT.OOS_USED + dets.length) ∧
        t.w.rd h F.TRK_CNT.OOS_OLD = s.w.rd h F.TRK_CNT.OOS_OLD) ∧
      (stamp + 200 * ms < s.w.mt h → t.w.rd h F.TRK_CNT.OOS_OLD = satTo 8 (s.w.rd h F.TRK_CNT.OOS_OLD + dets.length) ∧
        t.w.trk = s.w.trk ∧ World.RegsBut [F.TRK_CNT.OOS_OLD.reg] s.w t.w) ∧
      (t.w.grd.get h).late = (s.w.grd.get h).late.filter (fun x => decide (x ≠ stamp)) ∧ s.Quiet t) ∧
  (∀ (h : Half) (stamp : Nat) (dets : List Det) (s : State), s.w.trkRuns s.own h = false →
    Completes (.lateDetection h stamp dets) s fun t =>
      t = s) ∧
  (∀ (h : Half) (k : Nat) (s : State), k < 2 →
    Completes (.stopLevelFall h k) s fun t =>
      (∀ x ∈ (s.w.trk.get h).contribs k, min x.1 2 ≤ t.w.rd h (if k = 0 then F.TRK_STOP.DRIVE else F.TRK_STOP.HEADER)) ∧
      ((s.w.trk.get h).contribs k = [] →
        (∀ l y, 1 ≤ l → l ≤ 2 → (s.w.trk.get h).lastC.getD (2 * k + l - 1) none = some y → y + sec ≤ s.w.mt h) →
        t.w.rd h (if k = 0 then F.TRK_STOP.DRIVE else F.TRK_STOP.HEADER) = 0 ∧
        t.w.rd h (if k = 0 then F.TRK_STOP.CLASS_D else F.TRK_STOP.CLASS_H) = 0) ∧
      ((s.w.trk.get h).contribs k = [] →
        (∃ y, (s.w.trk.get h).lastC.getD (2 * k + 1) none = some y ∧ s.w.mt h < y + sec) →
        t.w.rd h (if k = 0 then F.TRK_STOP.DRIVE else F.TRK_STOP.HEADER) = 2 ∧
        t.w.rd h (if k = 0 then F.TRK_STOP.CLASS_D else F.TRK_STOP.CLASS_H) =
          s.w.rd h (if k = 0 then F.TRK_STOP.CLASS_D else F.TRK_STOP.CLASS_H)) ∧
      World.RegsBut [F.TRK_STOP.DRIVE.reg, F.EVT_STATUS.LOST.reg] s.w t.w ∧ s.Quiet t) ∧
  (∀ (h : Half) (k : Nat) (s : State), 2 ≤ k →
    Completes (.stopLevelFall h k) s fun t =>
      t = s) ∧
  (∀ (h : Half) (s : State),
    Completes (.stopHoldExpiry h) s fun t =>
      (t.w.trk.get h).held = (s.w.trk.get h).held.filter (fun x => decide (s.w.mt h < x.until_)) ∧
      t.w.rd h F.TRK_STOP.HOLD = (if (t.w.trk.get h).held = [] then 0 else s.w.rd h F.TRK_STOP.HOLD) ∧
      World.RegsBut [F.TRK_STOP.HOLD.reg] s.w t.w ∧ s.Quiet t) ∧
  (∀ (h : Half) (init v : Nat) (s : State) (k : Nat) (x : Track), s.w.trkRuns s.own h = true → bitOf v 16 = true → bitsOf v 0 16 ≠ 0 →
    (s.w.trk.get h).slot = [(k, x)] → x.id = bitsOf v 0 16 →
    Completes (.trackIgnore h init v) s fun t =>
      (x.cls ≤ 2 → t.w.rd h F.TRK_STATUS.IGN_REFUSED = 1 ∧ (t.w.trk.get h).slot = (s.w.trk.get h).slot) ∧
      (2 < x.cls → t.w.rd h F.TRK_STATUS.IGN_REFUSED = 0 ∧ (t.w.trk.get h).slot = [(k, { x with ignored := true })]) ∧ s.Quiet t) ∧
  (∀ (h : Half) (init v : Nat) (s : State), s.w.trkRuns s.own h = false ∨ bitOf v 16 = false ∨ ∀ x ∈ (s.w.trk.get h).slot, x.2.id ≠
    bitsOf v 0 16 →
    Completes (.trackIgnore h init v) s fun t =>
      t = s) ∧
  (∀ (h : Half) (init : Nat) (s : State),
    Completes (.trkClrCnt h init) s fun t =>
      t.w.reg h F.TRK_CNT.FULL 0 = 0 ∧ World.RegsBut [F.TRK_CNT.FULL.reg] s.w t.w ∧ s.Quiet t)

/-- Parts of R353–R358, R362–R366, R372: each with its states, its refusals and its counts. -/
def Obligations.gnssChannels : Prop :=
  (∀ (a i v : Nat) (s : State), a < 2 →
    Completes (.antennaState a i v) s fun t =>
      t.w.rd .A F.GNS_ANT.STATE a = (if i < 4 then 1 else if 120 < i then 2 else 0) ∧ t.w.rd .A F.GNS_ANT.I a = satTo 8 i ∧
      (120 < i → t.w.rd .A F.GNS_ANT.V a = 0) ∧ (i ≤ 120 → t.w.rd .A F.GNS_ANT.V a = satTo 8 v) ∧
      World.RegsBut [F.GNS_ANT.STATE.reg, F.EVT_STATUS.LOST.reg] s.w t.w ∧ s.Quiet t) ∧
  (∀ (a i v : Nat) (s : State), 2 ≤ a →
    Completes (.antennaState a i v) s fun t =>
      t = s) ∧
  (∀ (a : Nat) (s : State),
    Completes (.antennaBiasRetry a) s fun t =>
      t.w.rd .A F.GNS_ANT.V a = (if a < 2 ∧ s.w.rd .A F.GNS_ANT.STATE a = 2 then 50 else s.w.rd .A F.GNS_ANT.V a) ∧
      t.w.rd .A F.GNS_ANT.STATE a = s.w.rd .A F.GNS_ANT.STATE a ∧ World.RegsBut [F.GNS_ANT.V.reg] s.w t.w ∧ s.Quiet t) ∧
  (∀ (h : Half) (k db : Nat) (s : State) (n : Nat) (hz : Int), k < 6 → 15 ≤ db → n < 4 → bitOf (s.w.rd h F.GNS_RF.NOTCH k) n = false →
    ∀ j, j < n → bitOf (s.w.rd h F.GNS_RF.NOTCH k) j = true →
    Completes (.notchDetect h k hz db) s fun t =>
      t.w.rd h F.GNS_RF.NOTCH k = s.w.rd h F.GNS_RF.NOTCH k + 2 ^ n ∧ NMap.get 0 (t.w.gns.get h).notch (4 * k + n) = hz ∧
      World.RegsBut [F.GNS_RF.NOTCH.reg, F.EVT_STATUS.LOST.reg] s.w t.w ∧ s.Quiet t) ∧
  (∀ (h : Half) (k db : Nat) (s : State) (hz : Int), 6 ≤ k ∨ db < 15 ∨ s.w.rd h F.GNS_RF.NOTCH k = 15 →
    Completes (.notchDetect h k hz db) s fun t =>
      t = s) ∧
  (∀ (h : Half) (k n : Nat) (s : State), k < 6 → n < 4 → bitOf (s.w.rd h F.GNS_RF.NOTCH k) n = true →
    Completes (.notchRelease h k n) s fun t =>
      t.w.rd h F.GNS_RF.NOTCH k = s.w.rd h F.GNS_RF.NOTCH k - 2 ^ n ∧ bitOf (t.w.rd h F.GNS_RF.NOTCH k) n = false ∧
      World.RegsBut [F.GNS_RF.NOTCH.reg, F.EVT_STATUS.LOST.reg] s.w t.w ∧ s.Quiet t) ∧
  (∀ (h : Half) (k n : Nat) (s : State), 6 ≤ k ∨ 4 ≤ n ∨ bitOf (s.w.rd h F.GNS_RF.NOTCH k) n = false →
    Completes (.notchRelease h k n) s fun t =>
      t = s) ∧
  (∀ (h : Half) (k db agc : Nat) (s : State), k < 6 →
    Completes (.jamLevel h k db agc) s fun t =>
      t.w.rd h F.GNS_RF.JAM_DB k = min 60 db ∧ t.w.rd h F.GNS_RF.AGC k = agc % 256 ∧
      (25 ≤ db → t.w.rd h F.GNS_RF.JAM k = 2) ∧ (20 ≤ db → s.w.rd h F.GNS_RF.JAM k = 2 → t.w.rd h F.GNS_RF.JAM k = 2) ∧
      (20 ≤ db → db < 25 → s.w.rd h F.GNS_RF.JAM k ≠ 2 → t.w.rd h F.GNS_RF.JAM k = 1) ∧
      (10 ≤ db → db < 20 → t.w.rd h F.GNS_RF.JAM k = 1) ∧
      (6 ≤ db → db < 10 → t.w.rd h F.GNS_RF.JAM k = (if s.w.rd h F.GNS_RF.JAM k = 0 then 0 else 1)) ∧
      (db < 6 → t.w.rd h F.GNS_RF.JAM k = 0) ∧ World.RegsBut [F.GNS_RF.JAM.reg, F.EVT_STATUS.LOST.reg] s.w t.w ∧ s.Quiet t) ∧
  (∀ (h : Half) (k db agc : Nat) (s : State), 6 ≤ k →
    Completes (.jamLevel h k db agc) s fun t =>
      t = s) ∧
  (∀ (h : Half) (init : Nat) (s : State) (n : Nat), s.w.rd h F.GNS_SEL.CH init = n → n < 192 → s.w.chanUp h n = true → s.w.rd h
    F.GNS_CH_STATUS.STATE n ≠ 1 →
    Completes (.chStart h init) s fun t =>
      (s.w.chanCfgOk h n = false → t.w.rd h F.GNS_CH_STATUS.CFG_ERR n = 1 ∧ t.w.rd h F.GNS_CH_STATUS.STATE n = s.w.rd h F.GNS_CH_STATUS.STATE n ∧
        t.w.gns = s.w.gns) ∧
      (s.w.chanCfgOk h n = true → t.w.rd h F.GNS_CH_STATUS.STATE n = 1 ∧ t.w.rd h F.GNS_CH_STATUS.CFG_ERR n = 0 ∧
        t.w.rd h F.GNS_CH_STATUS.HANDOFF n = 0 ∧ t.w.rd h F.GNS_CH_STATUS.SEQ n = 0 ∧ (t.w.chan h n).accAt = s.w.mt h ∧
        (t.w.chan h n).carr = s.w.rdI h F.GNS_CH_CARR.RATE n ∧ (t.w.chan h n).code = s.w.rd h F.GNS_CH_CODE.RATE n ∧
        (t.w.chan h n).codeAcc = 0 ∧ (t.w.chan h n).pend = none) ∧
      World.RegsBut [F.GNS_CH_STATUS.STATE.reg, F.GNS_STATUS.CH_RUN.reg] s.w t.w ∧ s.Quiet t) ∧
  (∀ (h : Half) (init : Nat) (s : State), 192 ≤ s.w.rd h F.GNS_SEL.CH init ∨ s.w.chanUp h (s.w.rd h F.GNS_SEL.CH init) = false ∨
    s.w.rd h F.GNS_CH_STATUS.STATE (s.w.rd h F.GNS_SEL.CH init) = 1 →
    Completes (.chStart h init) s fun t =>
      t = s) ∧
  (∀ (h : Half) (init : Nat) (s : State) (n : Nat), s.w.rd h F.GNS_SEL.CH init = n → n < 192 →
    Completes (.chStop h init) s fun t =>
      t.w.rd h F.GNS_CH_STATUS.STATE n = 0 ∧ t.w.gns = s.w.gns ∧
      t.w.rd h F.GNS_STATUS.CH_RUN = ((List.range 192).filter (fun c => decide (t.w.rd h F.GNS_CH_STATUS.STATE c = 1))).length ∧
      World.RegsBut [F.GNS_CH_STATUS.STATE.reg, F.GNS_STATUS.CH_RUN.reg] s.w t.w ∧ s.Quiet t) ∧
  (∀ (h : Half) (init : Nat) (s : State) (n : Nat), s.w.rd h F.GNS_SEL.CH init = n → n < 192 → s.w.rd h F.GNS_CH_STATUS.STATE n = 1 →
    Completes (.chKnock h init) s fun t =>
      t.w.rd h F.GNS_CH_STATUS.STATE n = 2 ∧ t.w.gns = s.w.gns ∧
      World.RegsBut [F.GNS_CH_STATUS.STATE.reg, F.GNS_STATUS.CH_RUN.reg] s.w t.w ∧ s.Quiet t) ∧
  (∀ (h : Half) (init : Nat) (c : Instr) (s : State), c ∈ [Instr.chStop h init, .chKnock h init] → 192 ≤ s.w.rd h F.GNS_SEL.CH init →
    Completes c s fun t =>
      t = s) ∧
  (∀ (h : Half) (init v : Nat) (s : State) (n : Nat), s.w.rd h F.GNS_SEL.CH init = n → n < 192 →
    Completes (.chCommit h init v) s fun t =>
      t.w.rd h F.GNS_CH_CODE.RATE n = v % 2 ^ 32 ∧
      (t.w.chan h n).pend = some { carr := s.w.rdI h F.GNS_CH_CARR.RATE n, code := v, slew := s.w.rdI h F.GNS_CH_SLEW.CODE n, epochs := s.w.rd h F.GNS_CH_SLEW.EPOCHS n, at_ := s.w.mt h } ∧
      (t.w.chan h n).code = (s.w.chan h n).code ∧ World.RegsBut [F.GNS_CH_CODE.RATE.reg] s.w t.w ∧ s.Quiet t) ∧
  (∀ (h : Half) (init v : Nat) (s : State), 192 ≤ s.w.rd h F.GNS_SEL.CH init →
    Completes (.chCommit h init v) s fun t =>
      t = s) ∧
  (∀ (h : Half) (n : Nat) (iq : List Int) (noise : Nat) (s : State) (p : Commit), n < 192 → s.w.rd h F.GNS_CH_STATUS.STATE n = 1 →
    (s.w.chan h n).pend = some p →
    Completes (.chIntegrationDump h n iq noise) s fun t =>
      (p.at_ + 20 * us ≤ s.w.mt h ∨ p.late = true →
        (t.w.chan h n).carr = p.carr ∧ (t.w.chan h n).code = p.code ∧ (t.w.chan h n).pend = none ∧
        (t.w.chan h n).codeAcc = ((s.w.chan h n).carry (s.w.mt h)).codeAcc + ((p.slew : Int) : Rat) * 2 ^ 28 ∧
        t.w.rd h F.GNS_CH_SLEW.CODE n = 0 ∧ t.w.rd h F.GNS_CH_STATUS.UPD_LATE n = b2n p.late) ∧
      (p.late = true → t.w.rd h F.GNS_CNT.LATE = satTo 8 (s.w.rd h F.GNS_CNT.LATE + 1)) ∧
      (s.w.mt h < p.at_ + 20 * us → p.late = false → (t.w.chan h n).pend = some { p with late := true } ∧
        (t.w.chan h n).code = (s.w.chan h n).code) ∧
      t.w.rd h F.GNS_CH_STATUS.SEQ n = (s.w.rd h F.GNS_CH_STATUS.SEQ n + 1) % 65536 ∧ s.Quiet t) ∧
  (∀ (h : Half) (n : Nat) (iq : List Int) (noise : Nat) (s : State), n < 192 → s.w.rd h F.GNS_CH_STATUS.STATE n = 1 → (s.w.chan h
    n).pend = none →
    Completes (.chIntegrationDump h n iq noise) s fun t =>
      (4096 ≤ (s.w.rd h F.GNS_DUMP_HEAD.VALUE + 2 ^ 32 - s.w.rd h F.GNS_DUMP_TAIL.VALUE) % 2 ^ 32 →
        t.w.rd h F.GNS_STATUS.DUMP_OVF = 1 ∧ t.w.rd h F.GNS_DUMP_HEAD.VALUE = s.w.rd h F.GNS_DUMP_HEAD.VALUE ∧ t.w.dram = s.w.dram) ∧
      ((s.w.rd h F.GNS_DUMP_HEAD.VALUE + 2 ^ 32 - s.w.rd h F.GNS_DUMP_TAIL.VALUE) % 2 ^ 32 < 4096 →
        t.w.rd h F.GNS_DUMP_HEAD.VALUE = (s.w.rd h F.GNS_DUMP_HEAD.VALUE + 1) % 2 ^ 32) ∧
      (t.w.chan h n).code = (s.w.chan h n).code ∧ t.w.rd h F.GNS_CH_STATUS.SEQ n = (s.w.rd h F.GNS_CH_STATUS.SEQ n + 1) % 65536 ∧ s.Quiet t) ∧
  (∀ (h : Half) (n : Nat) (iq : List Int) (noise : Nat) (s : State), 192 ≤ n ∨ s.w.rd h F.GNS_CH_STATUS.STATE n ≠ 1 →
    Completes (.chIntegrationDump h n iq noise) s fun t =>
      t = s) ∧
  (∀ (h : Half) (init v : Nat) (s : State) (e : Nat), s.w.rd h F.GNS_SEL.CH init = 192 + e → e < 16 → s.w.baseband h = true → 34 ∉
    (s.w.run.get h).pwrGated → s.w.rd h F.GNS_ACQ_STATUS.BUSY e = 0 →
    Completes (.acqGo h init v) s fun t =>
      t.w.rd h F.GNS_ACQ_STATUS.BUSY e = 1 ∧ t.w.rd h F.GNS_ACQ_STATUS.ENTRY e = 0 ∧ t.w.rd h F.GNS_ACQ_STATUS.HITS e = 0 ∧
      t.w.rd h F.GNS_ACQ_STATUS.DONE e = 0 ∧ t.w.rd h F.GNS_ACQ_CMD.N e = bitsOf v 8 6 ∧
      World.RegsBut [F.GNS_ACQ_STATUS.BUSY.reg, F.GNS_ACQ_CMD.N.reg] s.w t.w ∧ s.Quiet t) ∧
  (∀ (h : Half) (init v : Nat) (s : State), s.w.rd h F.GNS_SEL.CH init < 192 ∨ 208 ≤ s.w.rd h F.GNS_SEL.CH init ∨ s.w.baseband h =
    false ∨ 34 ∈ (s.w.run.get h).pwrGated ∨ s.w.rd h F.GNS_ACQ_STATUS.BUSY (s.w.rd h F.GNS_SEL.CH init - 192) = 1 →
    Completes (.acqGo h init v) s fun t =>
      t = s) ∧
  (∀ (h : Half) (e cn0 ratio code : Nat) (dop : Int) (tEnd : Nat) (s : State) (a : Nat) (bs : List Byte), e < 16 → s.w.rd h
    F.GNS_ACQ_STATUS.BUSY e = 1 → a = s.w.rd h F.GNS_ACQ_TAB.ADDR e + 64 * s.w.rd h F.GNS_ACQ_STATUS.ENTRY e → bs = s.w.getMem h 0 a 64
    →
    Completes (.acqEntryComplete h e cn0 ratio code dop tEnd) s fun t =>
      (s.w.rd h F.GNS_ACQ_STATUS.ENTRY e = s.w.rd h F.GNS_ACQ_CMD.N e → t.w.rd h F.GNS_ACQ_STATUS.BUSY e = 0 ∧ t.w.rd h F.GNS_ACQ_STATUS.KNOCKED e = 0) ∧
      (s.w.rd h F.GNS_ACQ_STATUS.ENTRY e < s.w.rd h F.GNS_ACQ_CMD.N e → t.w.rd h F.GNS_ACQ_STATUS.BUSY e = 1 ∧
        t.w.rd h F.GNS_ACQ_STATUS.ENTRY e = s.w.rd h F.GNS_ACQ_STATUS.ENTRY e + 1) ∧
      t.w.rd h F.GNS_ACQ_STATUS.DONE e = satTo 8 (s.w.rd h F.GNS_ACQ_STATUS.DONE e + 1) ∧
      t.w.rd h F.GNS_ACQ_STATUS.HITS e = satTo 8 (s.w.rd h F.GNS_ACQ_STATUS.HITS e + (if u16At bs 22 ≤ ratio then 1 else 0)) ∧
      (u16At bs 22 ≤ ratio → bitOf (byteAt bs 3) 1 = true → byteAt bs 24 < 192 → s.w.chanUp h (byteAt bs 24) = true →
        s.w.rd h F.GNS_CH_STATUS.STATE (byteAt bs 24) = 0 →
        t.w.rd h F.GNS_CH_CODE.RATE (byteAt bs 24) = codeRateOf (byteAt bs 2) dop % 2 ^ 32 ∧
        (t.w.chanCfgOk h (byteAt bs 24) = true → t.w.rd h F.GNS_CH_STATUS.STATE (byteAt bs 24) = 1 ∧
          t.w.rd h F.GNS_CH_STATUS.HANDOFF (byteAt bs 24) = 1)) ∧
      (ratio < u16At bs 22 → t.w.gns = s.w.gns) ∧ s.Quiet t) ∧
  (∀ (h : Half) (e cn0 ratio code : Nat) (dop : Int) (tEnd : Nat) (s : State), 16 ≤ e ∨ s.w.rd h F.GNS_ACQ_STATUS.BUSY e = 0 →
    Completes (.acqEntryComplete h e cn0 ratio code dop tEnd) s fun t =>
      t = s) ∧
  (∀ (h : Half) (init : Nat) (s : State) (e : Nat), s.w.rd h F.GNS_SEL.CH init = 192 + e → e < 16 → s.w.rd h F.GNS_ACQ_STATUS.BUSY e =
    1 →
    Completes (.acqKnock h init) s fun t =>
      t.w.rd h F.GNS_ACQ_STATUS.BUSY e = 0 ∧ t.w.rd h F.GNS_ACQ_STATUS.KNOCKED e = 1 ∧
      World.RegsBut [F.GNS_ACQ_STATUS.BUSY.reg, F.EVT_STATUS.LOST.reg] s.w t.w ∧ s.Quiet t) ∧
  (∀ (h : Half) (init : Nat) (s : State), s.w.rd h F.GNS_SEL.CH init < 192 ∨ 208 ≤ s.w.rd h F.GNS_SEL.CH init ∨ s.w.rd h
    F.GNS_ACQ_STATUS.BUSY (s.w.rd h F.GNS_SEL.CH init - 192) = 0 →
    Completes (.acqKnock h init) s fun t =>
      t = s)

/-- Parts of R360, R366–R369, R371, R373–R374, R376–R378, R381, R383–R386: each with what it writes, what stops it, and the counts.
Where the spec leaves the model a choice: log entries 12, 43. -/
def Obligations.gnssRecords : Prop :=
  (∀ (h : Half) (s : State),
    Completes (.measurementLatch h) s fun t =>
      (t.w.gns.get h).tm = s.w.mt h / s.w.measPeriod h * s.w.measPeriod h ∧
      t.w.rd h F.GNS_LAT_SEQ.VALUE = (t.w.gns.get h).tm / (10 * ms) % 2 ^ 32 ∧
      t.w.rd h F.GNS_LAT_BUF.VALUE = 6144 * (((s.w.gns.get h).latBuf + 1) % 2) ∧ (t.w.gns.get h).latBuf = ((s.w.gns.get h).latBuf + 1) % 2 ∧
      t.w.rd h F.GNS_STATUS.ALIGNED = s.w.rd h F.XNG_STATUS.TSYNC_OK ∧
      World.RegsBut [F.GNS_LAT_BUF.VALUE.reg, F.GNS_LAT_SEQ.VALUE.reg, F.GNS_STATUS.ALIGNED.reg] s.w t.w ∧ s.Quiet t) ∧
  (∀ (h : Half) (init v : Nat) (s : State),
    Completes (.measRateWrite h init v) s fun t =>
      t.w.rd h F.GNS_MEAS_CFG.ELEV_MASK = (if bitsOf v 8 8 ≤ 30 then bitsOf v 8 8 else s.w.rd h F.GNS_MEAS_CFG.ELEV_MASK) ∧
      t.w.rd h F.GNS_MEAS_CFG.RATE = s.w.rd h F.GNS_MEAS_CFG.RATE ∧
      (t.w.gns.get h).rate = (if s.own.server = some h ∧ bitsOf v 0 2 ≠ s.w.rd h F.GNS_MEAS_CFG.RATE then some (bitsOf v 0 2) else
        (s.w.gns.get h).rate) ∧ World.RegsBut [F.GNS_MEAS_CFG.RATE.reg] s.w t.w ∧ s.Quiet t) ∧
  (∀ (s : State) (r : Nat), s.w.gns.a.rate = some r ∨ (s.w.gns.a.rate = none ∧ s.w.gns.b.rate = some r) →
    Completes .measRateApply s fun t =>
      (∀ h, t.w.rd h F.GNS_MEAS_CFG.RATE = r % 4 ∧ (t.w.gns.get h).rate = none) ∧ World.RegsBut [F.GNS_MEAS_CFG.RATE.reg] s.w t.w ∧ s.Quiet t) ∧
  (∀ (s : State), s.w.gns.a.rate = none → s.w.gns.b.rate = none →
    Completes .measRateApply s fun t =>
      t = s) ∧
  (∀ (h : Half) (entries : List MEntry) (bias drift : Int) (clk : Bool) (s : State), s.w.baseband h = true →
    Completes (.measurementRecord h entries bias drift clk) s fun t =>
      ((s.w.gns.get h).tm + 3 * ms < s.w.mt h → t.w.rd h F.GNS_CNT.EPOCH = satTo 8 (s.w.rd h F.GNS_CNT.EPOCH + 1) ∧ t.w.gns = s.w.gns ∧
        World.RegsBut [F.GNS_CNT.EPOCH.reg, F.EVT_STATUS.LOST.reg] s.w t.w) ∧
      (s.w.mt h ≤ (s.w.gns.get h).tm + 3 * ms → (t.w.gns.get h).sent = (t.w.gns.get h).own ∧
        (t.w.gns.get h).own = some { half := h, aligned := s.w.flag h F.GNS_STATUS.ALIGNED, suspect := s.w.flag h F.GNS_STATUS.BB_SUSPECT, t := (s.w.gns.get h).tm, bias := bias, drift := drift, clk := clk, rate := sec / s.w.measPeriod h, entries := (entries.take 192).map (s.w.markEntry h) } ∧
        t.w.rd h F.GNS_MREC_OWN.VALUE = (if s.w.rd h F.GNS_MREC_OWN.VALUE = 0x10000 then 0x18000 else 0x10000) ∧
        World.RegsBut [F.GNS_MREC_OWN.VALUE.reg, F.EVT_STATUS.LOST.reg] s.w t.w) ∧ s.Quiet t) ∧
  (∀ (h : Half) (entries : List MEntry) (bias drift : Int) (clk : Bool) (s : State), s.w.baseband h = false →
    Completes (.measurementRecord h entries bias drift clk) s fun t =>
      t = s) ∧
  (∀ (h : Half) (ownOk sibOk : Bool) (s : State) (r : MRec), (s.w.gns.get h.other).sent = some r →
    Completes (.siblingRecordReceived h ownOk sibOk) s fun t =>
      (t.w.gns.get h).sib = some r ∧
      t.w.rd h F.GNS_MREC_SIB.VALUE = (if s.w.rd h F.GNS_MREC_SIB.VALUE = 0x20000 then 0x28000 else 0x20000) ∧
      ((s.w.gns.get h).own = none → World.RegsBut [F.GNS_MREC_SIB.VALUE.reg] s.w t.w) ∧
      (∀ o, (s.w.gns.get h).own = some o → o.aligned = false ∨ r.aligned = false ∨ o.t ≠ r.t →
        World.RegsBut [F.GNS_MREC_SIB.VALUE.reg] s.w t.w ∧ (t.w.gns.get h).excl = (s.w.gns.get h).excl) ∧
      (ownOk = true → t.w.rd h F.GNS_STATUS.BB_SUSPECT = s.w.rd h F.GNS_STATUS.BB_SUSPECT) ∧
      World.RegsBut [F.GNS_MREC_SIB.VALUE.reg, F.GNS_STATUS.BB_SUSPECT.reg, F.GNS_CNT.XHALF.reg, F.EVT_STATUS.LOST.reg] s.w t.w ∧ s.Quiet t) ∧
  (∀ (h : Half) (ownOk sibOk : Bool) (s : State), (s.w.gns.get h.other).sent = none →
    Completes (.siblingRecordReceived h ownOk sibOk) s fun t =>
      t = s) ∧
  (∀ (h : Half) (s : State),
    Completes (.bbSuspectClear h) s fun t =>
      t.w.rd h F.GNS_STATUS.BB_SUSPECT = (if (s.w.gns.get h).suspectAt + 60 * sec ≤ s.w.mt h then 0 else s.w.rd h F.GNS_STATUS.BB_SUSPECT) ∧
      World.RegsBut [F.GNS_STATUS.BB_SUSPECT.reg] s.w t.w ∧ t.w.gns = s.w.gns ∧ s.Quiet t) ∧
  (∀ (h : Half) (key reason : Nat) (s : State),
    Completes (.exclusionReadmit h key reason) s fun t =>
      (t.w.gns.get h).excl = (s.w.gns.get h).excl.filter (fun x => decide (x.1 ≠ key ∨ x.2.1 ≠ reason ∨
        s.w.mt h < x.2.2 + (if reason = 5 then 30 else if reason = 4 then 10 else 2) * sec)) ∧
      World.RegsBut [] s.w t.w ∧ s.Quiet t) ∧
  (∀ (h : Half) (init v : Nat) (s : State) (n : Nat) (bs : List Byte), n = bitsOf v 0 11 → bs = s.w.getMem h 0 (s.w.rd h
    F.GNS_CORR_ADDR.ADDR) n →
    Completes (.correctionFrame h init v) s fun t =>
      (s.w.rd h F.GNS_CORR_STAT.BUSY = 1 → t.w.rd h F.GNS_CORR_STAT.RES = 5) ∧
      (s.w.rd h F.GNS_CORR_STAT.BUSY = 0 → n < 6 ∨ 1029 < n ∨ byteAt bs 0 ≠ 0xD3 → t.w.rd h F.GNS_CORR_STAT.RES = 1) ∧
      (t.w.rd h F.GNS_CORR_STAT.RES = 0 → crc24q (bs.take (n - 3)) = byteAt bs (n - 3) * 65536 + byteAt bs (n - 2) * 256 + byteAt bs (n - 1) ∧
        usesType (rtcmType (slice bs 3 (n - 6))) = true ∧ (∃ f ∈ (NMap.get ({} : CSrc) (t.w.gns.get h).src (bitsOf v 16 2)).frames, f.2 = bs)) ∧
      (t.w.rd h F.GNS_CORR_STAT.RES ≠ 0 → t.w.rd h F.GNS_CORR_STAT.RES ≠ 3 → t.w.gns = s.w.gns ∧
        World.RegsBut [F.GNS_CORR_STAT.RES.reg] s.w t.w) ∧ s.Quiet t) ∧
  (∀ (h : Half) (s : State),
    Completes (.correctionSourceTimeout h) s fun t =>
      t.w.rd h F.GNS_CORR_STAT.VALID =
        (((List.range 4).filter (fun k => (NMap.get {} (t.w.gns.get h).src k).valid (s.w.mt h))).map (fun k => 2 ^ k)).sum ∧
      t.w.rd h F.GNS_CORR_STAT.ANY_VALID = (if t.w.rd h F.GNS_CORR_STAT.VALID = 0 then 0 else 1) ∧
      (t.w.rd h F.GNS_CORR_STAT.VALID = 0 → (t.w.gns.get h).active = none) ∧
      (∀ k, (t.w.gns.get h).active = some k → t.w.rd h F.GNS_CORR_STAT.ACTIVE = k ∧ (NMap.get {} (t.w.gns.get h).src k).valid (s.w.mt h) = true) ∧
      World.RegsBut [F.GNS_CORR_STAT.VALID.reg, F.EVT_STATUS.LOST.reg] s.w t.w ∧ s.Quiet t) ∧
  (∀ (h : Half) (x : Sol) (s : State), s.w.rd h F.GNS_STATUS.POSITION_ENG = 1 →
    Completes (.positionSolution h x) s fun t =>
      t.w.rd h F.GNS_STATUS.Q = (if s.w.solQuality h x = 4 ∧ s.w.rd h F.GNS_STATUS.Q ≠ 4 ∧ (s.w.gns.get h).fixedRun < 2 then 3 else s.w.solQuality h x) ∧
      (t.w.gns.get h).posQ = t.w.rd h F.GNS_STATUS.Q ∧
      (s.w.solQuality h x ≠ 0 → t.w.rdI h F.GNS_POS_LAT.VALUE = signed 32 (toTwos 32 ((x.lat + 50) / 100)) ∧
        t.w.rd h F.GNS_POS_VEL.SPEED = satTo 16 x.speed ∧ t.w.rd h F.GNS_STATUS.SV_USED = satTo 8 x.sats ∧
        t.w.rd h F.GNS_POS_FINE.SIG_H = satTo 16 x.sigH) ∧
      (s.w.solQuality h x = 0 → t.w.rd h F.GNS_POS_LAT.VALUE = s.w.rd h F.GNS_POS_LAT.VALUE ∧
        t.w.rd h F.GNS_POS_VEL.SPEED = s.w.rd h F.GNS_POS_VEL.SPEED) ∧ s.Quiet t) ∧
  (∀ (h : Half) (x : Sol) (s : State), s.w.rd h F.GNS_STATUS.POSITION_ENG = 0 →
    Completes (.positionSolution h x) s fun t =>
      t = s) ∧
  (∀ (h : Half) (ratio common len : Nat) (az : Int) (sig : Nat) (s : State), s.w.rd h F.GNS_STATUS.HEADING_ENG = 1 →
    Completes (.headingSolution h ratio common len az sig) s fun t =>
      (ledgerEntry s.ledger 5 0 = none ∨ ratio < 300 ∨ common < 5 →
        t.w.rd h F.GNS_STATUS.HDG_OK = 0 ∧ t.w.rd h F.GNS_HDG.VALID = 0 ∧ t.w.rd h F.GNS_HDG.HDG = s.w.rd h F.GNS_HDG.HDG) ∧
      (∀ b, ledgerEntry s.ledger 5 0 = some b → 300 ≤ ratio → 5 ≤ common → absR ((len : Rat) - f32At b 0 * 1000) ≤ 20 →
        (∀ o, (s.w.gns.get h).base = some o → absR (f32At b 0 * 1000 - o) ≤ 1) →
        t.w.rd h F.GNS_STATUS.HDG_OK = 1 ∧ t.w.rd h F.GNS_HDG.VALID = 1 ∧ t.w.rd h F.GNS_HDG.SIG = satTo 15 sig ∧
        t.w.rd h F.GNS_HDG.HDG = ((roundR (((az : Rat) / 1000 - f32At b 4 * 180 / piR) * 100)) % 36000).toNat) ∧
      (t.w.gns.get h).base = (ledgerEntry s.ledger 5 0).map (fun b => f32At b 0 * 1000) ∧ s.Quiet t) ∧
  (∀ (h : Half) (ratio common len : Nat) (az : Int) (sig : Nat) (s : State), s.w.rd h F.GNS_STATUS.HEADING_ENG = 0 →
    Completes (.headingSolution h ratio common len az sig) s fun t =>
      t = s) ∧
  (∀ (h : Half) (p : Pose) (slew : Bool) (s : State),
    Completes (.posePublish h p slew) s fun t =>
      (∃ q, t.w.pose.get h = some q ∧ q.t = s.w.mt h / (10 * ms) * (10 * ms) ∧ q.lat = p.lat ∧ q.lon = p.lon ∧ q.hdg = p.hdg ∧ q.speed = p.speed ∧
        q.q = (s.w.gns.get h).posQ ∧ bitOf q.flags 0 = t.w.flag h F.GNS_STATUS.TRUSTED ∧ bitOf q.flags 3 = slew) ∧
      t.w.rd h F.GNS_PSE_BUF.ADDR = 64 * (((s.w.gns.get h).pse + 1) % 128) ∧
      ((s.w.gns.get h).imuBad = true → (s.w.gns.get h).imuSib = false → t.w.rd h F.GNS_STATUS.TRUSTED = 0) ∧
      (500 < p.sigH ∨ 1000 < p.sigPsi → t.w.rd h F.GNS_STATUS.TRUSTED = 0) ∧
      t.w.rd h F.GRD_STATUS.POSE_OK = t.w.rd h F.GNS_STATUS.TRUSTED ∧ s.Quiet t) ∧
  (∀ (h : Half) (bad : Bool) (s : State),
    Completes (.imuFault h bad) s fun t =>
      (t.w.gns.get h).imuBad = bad ∧
      (t.w.gns.get h).imuSib = (bad && s.own.alive h.other && decide (s.w.rd h F.XNG_STATUS.UP = 1) && !(s.w.gns.get h.other).imuBad) ∧
      t.w.rd h F.GNS_STATUS.TRUSTED = (if bad = true ∧ (t.w.gns.get h).imuSib = false then 0 else s.w.rd h F.GNS_STATUS.TRUSTED) ∧ s.Quiet t) ∧
  (∀ (h : Half) (init : Nat) (s : State),
    Completes (.gnssCold h init) s fun t =>
      (t.w.gns.get h).stored = (if s.w.inService h = true then none else (s.w.gns.get h).stored) ∧ World.RegsBut [] s.w t.w ∧ s.Quiet t) ∧
  (∀ (h : Half) (init : Nat) (s : State),
    Completes (.gnsClrCnt h init) s fun t =>
      t.w.reg h F.GNS_CNT.LATE 0 = 0 ∧ World.RegsBut [F.GNS_CNT.LATE.reg] s.w t.w ∧ t.w.gns = s.w.gns ∧ s.Quiet t)

/-- Parts of R390–R401, R404: the references, the measured offset, the step, the slew, TIM_CMD and TIM_CTRL, TIME_IN, TIME_OUT, the quality
message.
Where the spec leaves the model a choice: log entry 44. -/
def Obligations.moduleTime : Prop :=
  (∀ (h : Half) (r : Nat) (ofs : Int) (s : State) (leap : Option Nat), s.own.server = some h → r = 1 ∨ r = 2 →
    Completes (.referenceValid h r ofs leap) s fun t =>
      t.w.rd h (if r = 1 then F.TIM_STATUS.GNSS_VALID else F.TIM_STATUS.IN_VALID) = 1 ∧
      t.w.rd h F.TIM_STATUS.REF_ACT = t.w.refChoice h ∧ (∀ l, leap = some l → (t.w.tim.get h).leap = some l) ∧
      (t.w.refChoice h = r → s.w.rd h F.TIM_STATUS.STATE = 0 ∨ (s.w.rd h F.TIM_STATUS.STATE = 2 ∧ 500000 < ofs.natAbs) →
        (t.w.tim.get h).step = some (.by_ ofs) ∧ t.w.rd h F.TIM_STATUS.STEP_PEND = 1) ∧
      (t.w.refChoice h = r → s.w.rd h F.TIM_STATUS.STATE = 2 → ofs.natAbs ≤ 1000 → t.w.rd h F.TIM_STATUS.STATE = 1 ∧ t.w.rd h F.TIM_STATUS.HOLDOVER = 0) ∧
      (t.w.refChoice h = r → s.w.rd h F.TIM_STATUS.STATE = 2 → 1000 < ofs.natAbs → ofs.natAbs ≤ 500000 → t.w.rd h F.TIM_STATUS.STATE = 3 ∧
        (t.w.tim.get h).slew = some (s.w.now, ofs) ∧ t.w.rd h F.TIM_CNT.SLEWS = satTo 8 (s.w.rd h F.TIM_CNT.SLEWS + 1)) ∧ s.Quiet t) ∧
  (∀ (h : Half) (r : Nat) (ofs : Int) (leap : Option Nat) (s : State), s.own.server ≠ some h ∨ r = 0 ∨ 2 < r →
    Completes (.referenceValid h r ofs leap) s fun t =>
      t = s) ∧
  (∀ (h : Half) (r : Nat) (s : State), s.own.server = some h → r = 1 ∨ r = 2 →
    Completes (.referenceLost h r) s fun t =>
      t.w.rd h (if r = 1 then F.TIM_STATUS.GNSS_VALID else F.TIM_STATUS.IN_VALID) = 0 ∧ t.w.rd h F.TIM_STATUS.REF_ACT = t.w.refChoice h ∧
      (t.w.refChoice h = 0 → s.w.rd h F.TIM_STATUS.REF_ACT ≠ 0 → s.w.rd h F.TIM_STATUS.STATE ≠ 0 → t.w.rd h F.TIM_STATUS.STATE = 2 ∧
        t.w.rd h F.TIM_STATUS.HOLDOVER = 1 ∧ (t.w.tim.get h).slew = none) ∧
      (t.w.refChoice h ≠ 0 ∨ s.w.rd h F.TIM_STATUS.REF_ACT = 0 ∨ s.w.rd h F.TIM_STATUS.STATE = 0 →
        t.w.rd h F.TIM_STATUS.STATE = s.w.rd h F.TIM_STATUS.STATE) ∧ s.Quiet t) ∧
  (∀ (h : Half) (r : Nat) (s : State), s.own.server ≠ some h ∨ r = 0 ∨ 2 < r →
    Completes (.referenceLost h r) s fun t =>
      t = s) ∧
  (∀ (s : State) (h : Half) (o : Int), s.own.server = some h → (s.w.tim.get h).step = some (.by_ o) →
    Completes .timeStep s fun t =>
      (t.w.tim.get h).offset = (s.w.tim.get h).offset + (s.w.tim.get h).part s.w.now + o ∧ t.w.rd h F.TIM_STATUS.STATE = 1 ∧
      (t.w.tim.get h).step = none ∧ (t.w.tim.get h).slew = none ∧ t.w.rd h F.TIM_STATUS.STEP_PEND = 0 ∧
      t.w.rd h F.TIM_CNT.STEPS = satTo 8 (s.w.rd h F.TIM_CNT.STEPS + 1) ∧
      t.w.keeper.stepped = true ∧ t.w.keeper.notBefore = s.w.now + 500 * ms ∧ (t.w.grd.get h).gather = [] ∧ s.Quiet t) ∧
  (∀ (s : State) (h : Half) (n : Nat), s.own.server = some h → (s.w.tim.get h).step = some (.to_ n) → 0 ≤ (s.w.now : Int) +
    (s.w.tim.get h).offset + (s.w.tim.get h).part s.w.now →
    Completes .timeStep s fun t =>
      t.w.mt h = n ∧ t.w.rd h F.TIM_STATUS.STATE = (if s.w.rd h F.TIM_CTRL.REF = 3 then 4 else 1) ∧
      (t.w.tim.get h).step = none ∧ t.w.rd h F.TIM_STATUS.STEP_PEND = 0 ∧ t.w.rd h F.TIM_CNT.STEPS = satTo 8 (s.w.rd h F.TIM_CNT.STEPS + 1) ∧
      s.Quiet t) ∧
  (∀ (s : State), (s.w.tim.get s.srv).step = none →
    Completes .timeStep s fun t =>
      t = s) ∧
  (∀ (h : Half) (s : State) (k : Nat) (n : Int), s.own.server = some h → (s.w.tim.get h).slew = some (k, n) →
    Completes (.slewEnd h) s fun t =>
      (t.w.tim.get h).slew = none ∧ (t.w.tim.get h).offset = (s.w.tim.get h).offset + n ∧ t.w.rd h F.TIM_STATUS.STATE = 1 ∧
      t.w.rd h F.TIM_FREQ.VALUE = 0 ∧ s.Quiet t) ∧
  (∀ (h : Half) (s : State), s.own.server ≠ some h ∨ (s.w.tim.get h).slew = none →
    Completes (.slewEnd h) s fun t =>
      t = s) ∧
  (∀ (h : Half) (init : Nat) (s : State), s.own.server = some h → s.w.rd h F.TIM_STATUS.STATE = 0 ∨ s.w.rd h F.TIM_STATUS.STATE = 4 ∨
    s.w.inService h = true →
    Completes (.timeSet h init) s fun t =>
      (t.w.tim.get h).step = some (.to_ (s.w.rd h F.TIM_SET_LO.T + 2 ^ 32 * s.w.rd h F.TIM_SET_HI.T)) ∧
      t.w.rd h F.TIM_STATUS.STEP_PEND = 1 ∧ t.w.mt h = s.w.mt h ∧ s.Quiet t) ∧
  (∀ (h : Half) (init : Nat) (s : State), s.own.server ≠ some h ∨ (s.w.rd h F.TIM_STATUS.STATE ≠ 0 ∧ s.w.rd h F.TIM_STATUS.STATE ≠ 4 ∧
    s.w.inService h = false) →
    Completes (.timeSet h init) s fun t =>
      t = s) ∧
  (∀ (h : Half) (init v : Nat) (s : State),
    Completes (.timeRefSelect h init v) s fun t =>
      t.w.rd h F.TIM_CTRL.OUT_EN = (if s.w.rd h F.TIM_LOCK.OPEN = 1 ∧ (bitOf v 2 = true ∨ s.w.inService h = true) then bitsOf v 2 1 else
        s.w.rd h F.TIM_CTRL.OUT_EN) ∧
      (s.own.server = some h → t.w.rd h F.TIM_CTRL.REF = bitsOf v 0 2 ∧ t.w.rd h F.TIM_CTRL.IN_DLY = bitsOf v 16 16 ∧
        t.w.rd h F.TIM_STATUS.REF_ACT = t.w.refChoice h) ∧
      (s.own.server ≠ some h → World.RegsBut [F.TIM_CTRL.OUT_EN.reg] s.w t.w ∧ t.w.rd h F.TIM_CTRL.REF = s.w.rd h F.TIM_CTRL.REF) ∧ s.Quiet t) ∧
  (∀ (h : Half) (s : State) (x : Nat), x = s.w.mt h - s.w.rd h F.TIM_CTRL.IN_DLY →
    Completes (.timeInEdge h) s fun t =>
      (s.w.rd h F.TIM_STATUS.IN_VALID = 1 → (s.w.tim.get h).phase = some 0 → phaseDist (x % sec) 0 ≤ 10000 →
        t.w.rd h F.TIM_IN_LO.T = x % 2 ^ 32 ∧ t.w.rd h F.TIM_IN_HI.T = x / 2 ^ 32 % 2 ^ 32 ∧
        t.w.rd h F.TIM_CNT.REJECT = s.w.rd h F.TIM_CNT.REJECT) ∧
      (s.w.rd h F.TIM_STATUS.IN_VALID = 1 → (s.w.tim.get h).phase = some 0 → 10000 < phaseDist (x % sec) 0 →
        t.w.rd h F.TIM_CNT.REJECT = satTo 16 (s.w.rd h F.TIM_CNT.REJECT + 1) ∧ t.w.rd h F.TIM_IN_LO.T = s.w.rd h F.TIM_IN_LO.T) ∧
      (s.w.rd h F.TIM_STATUS.IN_VALID = 0 → ∀ a b, (s.w.tim.get h).edges = [a, b] → a + sec = x → t.w.rd h F.TIM_STATUS.IN_VALID = 1) ∧
      (s.w.rd h F.TIM_STATUS.IN_VALID = 0 → (s.w.tim.get h).edges.length ≤ 1 → t.w.rd h F.TIM_STATUS.IN_VALID = 0) ∧
      World.RegsBut [F.TIM_IN_LO.T.reg, F.TIM_IN_HI.T.reg, F.TIM_CNT.REJECT.reg, F.TIM_STATUS.IN_VALID.reg, F.EVT_STATUS.LOST.reg] s.w t.w ∧
      s.Quiet t) ∧
  (∀ (h : Half) (s : State), s.w.rd h F.TIM_STATUS.IN_VALID = 1 →
    Completes (.timeInLost h) s fun t =>
      t.w.rd h F.TIM_STATUS.IN_VALID = 0 ∧ (t.w.tim.get h).edges = [] ∧
      (s.own.server = some h → t.w.rd h F.TIM_STATUS.REF_ACT = t.w.refChoice h) ∧ s.Quiet t) ∧
  (∀ (h : Half) (s : State), s.w.rd h F.TIM_STATUS.IN_VALID = 0 →
    Completes (.timeInLost h) s fun t =>
      t = s) ∧
  (∀ (s : State) (h : Half), s.own.server = some h → s.w.latch.logicValid = true → s.w.rd h F.TIM_CTRL.OUT_EN = 1 → s.w.keeper.on =
    false ∨ (s.w.keeper.lastAt + 500 * ms ≤ s.w.now ∧ s.w.keeper.notBefore ≤ s.w.now) →
    Completes .timePulse s fun t =>
      t.w.keeper.on = true ∧ t.w.keeper.lastAt = s.w.now ∧ t.w.keeper.coast = false ∧ t.w.keeper.served = true ∧
      (∀ g, t.w.rd g F.TIM_PPS_LO.T = s.w.mt g % 2 ^ 32 ∧ t.w.rd g F.TIM_STATUS.KEEPER_COAST = 0) ∧
      World.RegsBut [F.TIM_PPS_LO.T.reg, F.TIM_PPS_HI.T.reg, F.TIM_STATUS.KEEPER_COAST.reg, F.EVT_STATUS.LOST.reg] s.w t.w ∧ s.Quiet t) ∧
  (∀ (s : State), s.w.latch.logicValid = false ∨ (s.w.keeper.on = false ∧ s.own.server = none) →
    Completes .timePulse s fun t =>
      t = s) ∧
  (∀ (h : Half) (s : State), s.own.server = some h → s.w.keeper.on = true → s.w.keeper.served = true →
    Completes (.timeQualityMessage h) s fun t =>
      (t.w.tim.get h).msg = s.w.qualityMessage h ∧ (t.w.tim.get h).msg.length = 32 ∧
      (t.w.tim.get h).msgs = ((s.w.tim.get h).msgs + 1) % 2 ^ 32 ∧ World.RegsBut [] s.w t.w ∧ s.Quiet t) ∧
  (∀ (h : Half) (s : State), s.own.server ≠ some h ∨ s.w.keeper.on = false ∨ s.w.keeper.served = false →
    Completes (.timeQualityMessage h) s fun t =>
      t = s) ∧
  (∀ (h : Half) (init v : Nat) (s : State),
    Completes (.timeAid h init v) s fun t =>
      t.w.rd h F.GNS_AID_TIME.GPS_S = v % 2 ^ 32 ∧ (t.w.gns.get h).aid = some (v, s.w.mt h) ∧
      (s.w.rd h F.TIM_STATUS.STATE = 0 → (s.w.tim.get h).step = none → s.own.server = some h →
        (t.w.tim.get h).step = some (.by_ ((v : Int) * 1000000000 - (s.w.mt h : Int))) ∧ t.w.rd h F.TIM_STATUS.STEP_PEND = 1) ∧
      (s.w.rd h F.TIM_STATUS.STATE ≠ 0 → t.w.tim = s.w.tim ∧ World.RegsBut [F.GNS_AID_TIME.GPS_S.reg] s.w t.w) ∧ s.Quiet t)

/-- Parts of R406, R407, R409, R414–R416, R418, R419, R425, R426: modes, REQ and ABORT, KNOCK and LOCKOUT, arbitration, the frame's end,
bus-off.
Where the spec leaves the model a choice: log entry 52. -/
def Obligations.canTransmit : Prop :=
  (∀ (h : Half) (init v : Nat) (s : State) (n : Nat), s.own.alive h = true → s.w.rd h F.CAN_SEL.CH init = n → s.own.owns h (336 + n) =
    true →
    Completes (.canModeWrite h init v) s fun t =>
      t.w.rd .A F.CAN_CTRL.STANDBY n = bitsOf v 2 1 ∧
      (s.w.rd h F.CAN_LOCK.OPEN = 0 → t.w.rd .A F.CAN_CTRL.MODE n = s.w.rd .A F.CAN_CTRL.MODE n ∧
        t.w.rd .A F.CAN_CTRL.TERM n = s.w.rd .A F.CAN_CTRL.TERM n) ∧
      (s.w.rd h F.CAN_LOCK.OPEN = 1 → t.w.rd .A F.CAN_CTRL.TERM n = bitsOf v 3 1 ∧ t.w.rd .A F.CAN_CTRL.TDC_EN n = bitsOf v 4 1 ∧
        t.w.rd .A F.CAN_CTRL.TX_ORDER n = bitsOf v 5 1 ∧ t.w.rd .A F.CAN_CTRL.SELF_RX n = bitsOf v 6 1 ∧
        (s.w.inService h = true ∨ (bitsOf v 9 2 ≠ 3 ∧ s.w.rd .A F.CAN_CTRL.MODE n ≠ 3) → t.w.rd .A F.CAN_CTRL.MODE n = bitsOf v 9 2 ∧
          (bitsOf v 9 2 ≠ s.w.rd .A F.CAN_CTRL.MODE n → t.w.rd .A F.CAN_STATUS.STATE n = 3)) ∧
        (s.w.inService h = false → bitsOf v 9 2 = 3 → (s.w.canCh n).cfg.mode ≠ 3 →
          t.w.rd .A F.CAN_CTRL.MODE n = s.w.rd .A F.CAN_CTRL.MODE n)) ∧ s.Quiet t) ∧
  (∀ (h : Half) (init : Nat) (s : State) (n : Nat), s.own.alive h = true → s.w.rd h F.CAN_SEL.CH init = n → s.own.owns h (336 + n) =
    true →
    Completes (.canKnock h init) s fun t =>
      t.w.rd .A F.CAN_STATUS.KNOCKED n = 1 ∧ (t.w.canCh n).due = [] ∧
      (∀ b, b < 3 → t.w.tbState n b = (if s.w.tbState n b = 1 ∨ s.w.tbState n b = 2 then 6 else s.w.tbState n b)) ∧
      World.RegsBut [F.CAN_STATUS.KNOCKED.reg, F.CAN_TXST.STATE.reg] s.w t.w ∧ s.Quiet t) ∧
  (∀ (h : Half) (init : Nat) (s : State) (n : Nat), s.own.alive h = true → s.w.rd h F.CAN_SEL.CH init = n → s.own.owns h (336 + n) =
    true →
    Completes (.canClrLockout h init) s fun t =>
      t.w.rd .A F.CAN_STATUS.LOCKOUT n = 0 ∧ (s.w.rd .A F.CAN_STATUS.LOCKOUT n = 1 → t.w.rd .A F.CAN_STATUS.RECOV n = 0 ∧ (t.w.canCh n).cleared = true) ∧
      (s.w.rd .A F.CAN_STATUS.LOCKOUT n = 0 → t = s) ∧ World.RegsBut [F.CAN_STATUS.LOCKOUT.reg] s.w t.w ∧ s.Quiet t) ∧
  (∀ (h : Half) (init : Nat) (s : State) (n : Nat), s.own.alive h = true → s.w.rd h F.CAN_SEL.CH init = n → s.own.owns h (336 + n) =
    true →
    Completes (.canClrCnt h init) s fun t =>
      t.w.reg .A F.CAN_CNT.SKIP n = 0 ∧ World.RegsBut [F.CAN_CNT.SKIP.reg] s.w t.w ∧ t.w.can = s.w.can ∧ s.Quiet t) ∧
  (∀ (h : Half) (init mask : Nat) (s : State) (n : Nat), s.own.alive h = true → s.w.rd h F.CAN_SEL.CH init = n → s.own.owns h (336 +
    n) = true →
    Completes (.canTxRequest h init mask) s fun t =>
      (s.w.rd .A F.CAN_STATUS.LOCKOUT n = 1 → t = s) ∧
      (s.w.rd .A F.CAN_STATUS.LOCKOUT n = 0 → ∀ b, b < 3 → t.w.tbState n b = (if bitOf mask b = true ∧ s.w.tbState n b ≠ 1 ∧ s.w.tbState n b ≠ 2 ∧
          s.w.rd .A F.CAN_TXST.SCHED (3 * n + b) = 0 then 1 else s.w.tbState n b)) ∧
      World.RegsBut [F.CAN_TXST.STATE.reg, F.CAN_STATUS.GREEN.reg] s.w t.w ∧ s.Quiet t) ∧
  (∀ (h : Half) (init mask : Nat) (s : State) (n : Nat), s.own.alive h = true → s.w.rd h F.CAN_SEL.CH init = n → s.own.owns h (336 +
    n) = true →
    Completes (.canTxAbort h init mask) s fun t =>
      (∀ b, b < 3 → t.w.tbState n b = (if bitOf mask b = true ∧ s.w.tbState n b = 1 then 6 else s.w.tbState n b)) ∧
      ((s.w.canCh n).abort.length = 3 → ∀ b, b < 3 → bitOf mask b = true → s.w.tbState n b = 2 → (t.w.canCh n).abort.getD b false = true) ∧
      t.w.rd .A F.CAN_STATUS.KNOCKED n = (if mask % 8 = 7 ∧ s.w.safeOn (336 + n) = false then 0 else s.w.rd .A F.CAN_STATUS.KNOCKED n) ∧
      World.RegsBut [F.CAN_TXST.STATE.reg, F.CAN_STATUS.KNOCKED.reg] s.w t.w ∧ s.Quiet t) ∧
  (∀ (h : Half) (init v mask : Nat) (c : Instr) (s : State) (n : Nat), c ∈ [Instr.canModeWrite h init v, .canKnock h init,
    .canClrLockout h init, .canClrCnt h init, .canTxRequest h init mask, .canTxAbort h init mask, .canRxAck h init v] → s.own.alive h =
    true → s.w.rd h F.CAN_SEL.CH init = n → s.own.owns h (336 + n) = false →
    Completes c s fun t =>
      t.w.rd h F.OWN_VIOL.OBJ = 336 + n ∧ t.w.rd h F.OWN_VIOL.INIT = init % 16 ∧ t.w.can = s.w.can ∧
      World.RegsBut [F.OWN_VIOL.OBJ.reg, F.EVT_STATUS.LOST.reg] s.w t.w ∧ s.Quiet t) ∧
  (∀ (h : Half) (init v mask : Nat) (c : Instr) (s : State), c ∈ [Instr.canModeWrite h init v, .canKnock h init, .canClrLockout h
    init, .canClrCnt h init, .canTxRequest h init mask, .canTxAbort h init mask, .canRxAck h init v] → s.own.alive h = false →
    Completes c s fun t =>
      t = s) ∧
  (∀ (n : Nat) (s : State) (b : Nat), n < 16 → (s.w.canOnBus n).canMayTx n = true → ∀ j, j < 3 → s.w.tbState n j ≠ 2 → s.w.offer n =
    some b →
    Completes (.canArbitration n) s fun t =>
      t.w.tbState n b = 2 ∧ t.w.rd .A F.CAN_TXST.ATTEMPTS (3 * n + b) = satTo 8 (s.w.rd .A F.CAN_TXST.ATTEMPTS (3 * n + b) + 1) ∧
      World.RegsBut [F.CAN_TXST.STATE.reg, F.CAN_STATUS.STATE.reg] s.w t.w ∧ t.w.can = s.w.can ∧ s.Quiet t) ∧
  (∀ (n : Nat) (s : State), n < 16 → (s.w.canOnBus n).canMayTx n = false ∨ s.w.offer n = none ∨ ∃ j < 3, s.w.tbState n j = 2 →
    Completes (.canArbitration n) s fun t =>
      World.RegsBut [F.CAN_STATUS.STATE.reg] s.w t.w ∧ t.w.can = s.w.can ∧
      t.w.rd .A F.CAN_STATUS.STATE n = (if s.w.rd .A F.CAN_STATUS.STATE n = 3 ∧ s.w.rd .A F.CAN_CTRL.MODE n ≠ 0 then 0 else
        s.w.rd .A F.CAN_STATUS.STATE n) ∧ s.Quiet t) ∧
  (∀ (n res ty fld pos tdcv : Nat) (s : State) (b : Nat), b < 3 → s.w.tbState n b = 2 → ∀ j, j < b → s.w.tbState n j ≠ 2 → b ≠ 0 ∨
    (s.w.canCh n).due = [] →
    Completes (.canTxComplete n res ty fld pos tdcv) s fun t =>
      (res = 0 → t.w.tbState n b = 3 ∧ t.w.rd .A F.CAN_ERRC.TEC n = s.w.rd .A F.CAN_ERRC.TEC n - 1) ∧
      (res = 1 → t.w.tbState n b = (if s.w.rd .A F.CAN_TXB_W1.ONESHOT (3 * n + b) = 1 then 5 else
          if (s.w.canCh n).abort.getD b false = true then 6 else 1) ∧ t.w.rd .A F.CAN_ERRC.TEC n = s.w.rd .A F.CAN_ERRC.TEC n) ∧
      (2 ≤ res → t.w.rd .A F.CAN_TXST.ERR_TYPE (3 * n + b) = ty % 8 ∧ t.w.rd .A F.CAN_TXST.ERR_FIELD (3 * n + b) = fld % 8 ∧
        t.w.rd .A F.CAN_TXST.ERR_POS (3 * n + b) = pos % 1024 ∧ t.w.rd .A F.CAN_STATUS.LAST_ERR n = ty % 16 ∧
        t.w.rd .A F.CAN_ERRC.TEC n = (if ty = 6 ∧ s.w.rd .A F.CAN_STATUS.STATE n = 1 then s.w.rd .A F.CAN_ERRC.TEC n else
          min (s.w.rd .A F.CAN_ERRC.TEC n + 8) 511) ∧
        t.w.tbState n b = (if s.w.rd .A F.CAN_TXB_W1.ONESHOT (3 * n + b) = 1 then 4 else if 255 < t.w.rd .A F.CAN_ERRC.TEC n then 2 else
          if (s.w.canCh n).abort.getD b false = true then 6 else 1)) ∧ s.Quiet t) ∧
  (∀ (n res ty fld pos tdcv : Nat) (c : Instr) (s : State), c ∈ [Instr.canTxComplete n res ty fld pos tdcv, .canTxError n ty fld pos]
    → ∀ j, j < 3 → s.w.tbState n j ≠ 2 →
    Completes c s fun t =>
      t = s) ∧
  (∀ (n ty fld pos : Nat) (s : State) (b : Nat), b < 3 → s.w.tbState n b = 2 → ∀ j, j < b → s.w.tbState n j ≠ 2 → b ≠ 0 ∨ (s.w.canCh
    n).due = [] →
    Completes (.canTxError n ty fld pos) s fun t =>
      t.w.rd .A F.CAN_CNT.CLASH n = satTo 8 (s.w.rd .A F.CAN_CNT.CLASH n + 1) ∧ t.w.rd .A F.CAN_TXST.ERR_TYPE (3 * n + b) = ty % 8 ∧
      ((s.w.canCh n).cands = [] → t.w.reg .A F.CAN_CLASH.ID n = s.w.reg .A F.CAN_CLASH.ID n) ∧
      (∀ x ∈ (s.w.canCh n).cands, x.1 = (s.w.tbFrame n b).id + (if (s.w.tbFrame n b).ide then 2 ^ 30 else 0) → s.w.now < x.2 + sec →
        t.w.rd .A F.CAN_CLASH.ID n = (s.w.tbFrame n b).id % 2 ^ 29 ∧ t.w.rd .A F.CAN_CLASH.KIND n = 0) ∧
      t.w.rd .A F.CAN_ERRC.TEC n = (if ty = 6 ∧ s.w.rd .A F.CAN_STATUS.STATE n = 1 then s.w.rd .A F.CAN_ERRC.TEC n else
        min (s.w.rd .A F.CAN_ERRC.TEC n + 8) 511) ∧ s.Quiet t) ∧
  (∀ (n : Nat) (s : State), 255 < s.w.rd .A F.CAN_ERRC.TEC n → s.w.rd .A F.CAN_STATUS.STATE n ≠ 2 →
    Completes (.canBusOff n) s fun t =>
      t.w.rd .A F.CAN_STATUS.STATE n = 2 ∧ t.w.rd .A F.CAN_STATUS.RECOV n = 0 ∧ t.w.rd .A F.CAN_CNT.BOFF n = satTo 8 (s.w.rd .A F.CAN_CNT.BOFF n + 1) ∧
      (∀ b, b < 3 → t.w.tbState n b = (if s.w.tbState n b = 2 then 4 else s.w.tbState n b)) ∧
      (t.w.canCh n).boffs = s.w.now :: (s.w.canCh n).boffs.filter (fun x => decide (s.w.now < x + 60 * sec)) ∧
      t.w.rd .A F.CAN_STATUS.BOFF n = satTo 4 (t.w.canCh n).boffs.length ∧
      World.RegsBut [F.CAN_STATUS.STATE.reg, F.CAN_CNT.BOFF.reg, F.CAN_TXST.STATE.reg, F.EVT_STATUS.LOST.reg] s.w t.w ∧ s.Quiet t) ∧
  (∀ (n : Nat) (s : State), s.w.rd .A F.CAN_ERRC.TEC n ≤ 255 ∨ s.w.rd .A F.CAN_STATUS.STATE n = 2 →
    Completes (.canBusOff n) s fun t =>
      t = s) ∧
  (∀ (n : Nat) (s : State) (recent : Nat), s.w.rd .A F.CAN_STATUS.STATE n = 2 → s.w.rd .A F.CAN_STATUS.LOCKOUT n = 0 → recent =
    ((s.w.canCh n).boffs.filter (fun x => decide (s.w.now < x + 60 * sec))).length →
    Completes (.canBusOffRecovery n) s fun t =>
      ((s.w.canCh n).cfg.boffLimit ≠ 0 → (s.w.canCh n).cfg.boffLimit ≤ recent → (s.w.canCh n).cleared = false →
        t.w.rd .A F.CAN_STATUS.LOCKOUT n = 1 ∧ t.w.rd .A F.CAN_STATUS.STATE n = 2 ∧ (t.w.canCh n).due = [] ∧
        ∀ b, b < 3 → t.w.tbState n b ≠ 1 ∧ t.w.tbState n b ≠ 2) ∧
      ((s.w.canCh n).cfg.boffLimit = 0 ∨ recent < (s.w.canCh n).cfg.boffLimit ∨ (s.w.canCh n).cleared = true →
        t.w.rd .A F.CAN_STATUS.LOCKOUT n = 0 ∧ t.w.rd .A F.CAN_STATUS.STATE n = 0 ∧ t.w.rd .A F.CAN_STATUS.RECOV n = 128 ∧
        t.w.rd .A F.CAN_ERRC.TEC n = 0 ∧ t.w.rd .A F.CAN_ERRC.REC n = 0 ∧ (t.w.canCh n).cleared = false) ∧ s.Quiet t) ∧
  (∀ (n : Nat) (s : State), s.w.rd .A F.CAN_STATUS.STATE n ≠ 2 ∨ s.w.rd .A F.CAN_STATUS.LOCKOUT n = 1 →
    Completes (.canBusOffRecovery n) s fun t =>
      t = s)

/-- Parts of R412, R413, R417, R418, R420–R424, R426: the scheduled frames, the queue and its acknowledgement, the transceiver, J1939 and DM1.
Where the spec leaves the model a choice: log entries 52, 54. -/
def Obligations.canReceive : Prop :=
  (∀ (n m : Nat) (s : State) (x : CanMsg), s.w.can.sec.msgs[m]? = some x → x.ch = n → x.dir = 1 → x.owner = 0 → s.w.rd .A
    F.CAN_STATUS.GREEN n = 0 → s.w.rd .A F.CAN_STATUS.KNOCKED n = 0 → s.w.rd .A F.CAN_STATUS.LOCKOUT n = 0 → s.w.rd .A F.CAN_CTRL.MODE
    n = 1 ∨ s.w.rd .A F.CAN_CTRL.MODE n = 2 → (s.w.canCh n).cfg.stack = 0 ∨ (s.w.canCh n).claimed = true →
    Completes (.canScheduleDue n m) s fun t =>
      (s.w.tbState n 0 ≠ 1 → s.w.tbState n 0 ≠ 2 → (s.w.canCh n).due = [] → t.w.tbState n 0 = 1 ∧ t.w.rd .A F.CAN_TXST.SCHED (3 * n) = 1 ∧
        (t.w.canCh n).inTb0 = some m ∧ t.w.rd .A F.CAN_TXB_W1.DLC (3 * n) = x.dlc % 16 ∧
        (x.ide = false → t.w.rd .A F.CAN_TXB_W0.ID (3 * n) = x.id % 2 ^ 29)) ∧
      (s.w.tbState n 0 = 1 → (s.w.canCh n).inTb0 = some m → t.w.rd .A F.CAN_CNT.SKIP n = satTo 8 (s.w.rd .A F.CAN_CNT.SKIP n + 1) ∧
        t.w.tbState n 0 = 1) ∧
      (s.w.tbState n 0 = 2 → (s.w.canCh n).due = [] → t.w.tbState n 0 = 2 ∧ (t.w.canCh n).due.length = 1) ∧ s.Quiet t) ∧
  (∀ (n m : Nat) (s : State), s.w.can.sec.msgs[m]? = none ∨ s.w.rd .A F.CAN_STATUS.GREEN n = 1 ∨ s.w.rd .A F.CAN_STATUS.KNOCKED n = 1
    ∨ s.w.rd .A F.CAN_STATUS.LOCKOUT n = 1 ∨ s.w.rd .A F.CAN_CTRL.MODE n = 0 ∨ s.w.rd .A F.CAN_CTRL.MODE n = 3 →
    Completes (.canScheduleDue n m) s fun t =>
      t = s) ∧
  (∀ (n ty : Nat) (dom : Bool) (s : State), n < 16 → s.w.rd .A F.CAN_CTRL.MODE n ≠ 0 → s.w.rd .A F.CAN_STATUS.STATE n ≠ 2 →
    Completes (.canRxError n ty dom) s fun t =>
      t.w.rd .A F.CAN_ERRC.REC n = min (s.w.rd .A F.CAN_ERRC.REC n + (if dom then 8 else 1)) 255 ∧
      t.w.rd .A F.CAN_ERRC.TEC n = s.w.rd .A F.CAN_ERRC.TEC n ∧ t.w.rd .A F.CAN_STATUS.LAST_ERR n = ty % 16 ∧
      (s.w.rd .A F.CAN_STATUS.STATE n = 0 → t.w.rd .A F.CAN_STATUS.STATE n =
        (if 128 ≤ s.w.rd .A F.CAN_ERRC.TEC n ∨ 128 ≤ t.w.rd .A F.CAN_ERRC.REC n then 1 else 0)) ∧
      World.RegsBut [F.CAN_ERRC.REC.reg, F.CAN_STATUS.STATE.reg, F.EVT_STATUS.LOST.reg] s.w t.w ∧ t.w.can = s.w.can ∧ s.Quiet t) ∧
  (∀ (n ty : Nat) (dom : Bool) (s : State), 16 ≤ n ∨ s.w.rd .A F.CAN_CTRL.MODE n = 0 ∨ s.w.rd .A F.CAN_STATUS.STATE n = 2 →
    Completes (.canRxError n ty dom) s fun t =>
      t = s) ∧
  (∀ (n stamp : Nat) (self_ : Bool) (f : CanFrame) (s : State), n < 16 → s.w.rd .A F.CAN_CTRL.MODE n = 1 → s.w.rd .A F.CAN_STATUS.TRX
    n ≠ 1 → f.fdf = true →
    Completes (.canFrameReceived n stamp self_ f) s fun t =>
      t.w.rd .A F.CAN_CNT.SKIP n = satTo 8 (s.w.rd .A F.CAN_CNT.SKIP n + 1) ∧ t.w.rd .A F.CAN_STATUS.STATE n = 3 ∧
      World.RegsBut [F.CAN_CNT.SKIP.reg, F.CAN_STATUS.STATE.reg] s.w t.w ∧ t.w.can = s.w.can ∧ s.Quiet t) ∧
  (∀ (n stamp : Nat) (self_ : Bool) (f : CanFrame) (s : State) (x : CanFlt) (k hd used : Nat), n < 16 → s.w.rd .A F.CAN_CTRL.MODE n =
    2 ∨ (s.w.rd .A F.CAN_CTRL.MODE n = 1 ∧ f.fdf = false) ∨ s.w.rd .A F.CAN_CTRL.MODE n = 3 → s.w.rd .A F.CAN_STATUS.TRX n ≠ 1 → self_
    = false ∨ s.w.rd .A F.CAN_CTRL.SELF_RX n = 1 ∨ s.w.rd .A F.CAN_CTRL.MODE n = 3 → s.w.canFilter n f = some (x, k) → x.decode = false
    → x.queue = true → x.stack = false → hd = s.w.rd .A F.CAN_RXQ.HEAD n → used = (hd + 65536 - s.w.rd .A F.CAN_RXQ.TAIL n) % 65536 →
    Completes (.canFrameReceived n stamp self_ f) s fun t =>
      (used < 64 → t.w.rd .A F.CAN_RXQ.HEAD n = (hd + 1) % 65536 ∧ t.w.rd .A F.CAN_RXE_STAMP.STAMP (2 * (64 * n + hd % 64)) = stamp % 2 ^ 32 ∧
        (f.dlc < 16 → t.w.rd .A F.CAN_RXE_W1.SEQ (64 * n + hd % 64) = hd ∧ t.w.rd .A F.CAN_RXE_W1.DLC (64 * n + hd % 64) = f.dlc ∧ t.w.rd .A F.CAN_RXE_W1.FILTER (64 * n + hd % 64) = k % 64 ∧
          t.w.rd .A F.CAN_RXE_W1.SELF (64 * n + hd % 64) = b2n self_) ∧
        ∀ j, j < 16 → t.w.rd .A F.CAN_RXE_DATA.DATA (16 * (64 * n + hd % 64) + j) = u32At f.data (4 * j)) ∧
      (64 ≤ used → t.w.rd .A F.CAN_RXQ.HEAD n = hd ∧ t.w.rd .A F.CAN_CNT.RX_OVF n = satTo 8 (s.w.rd .A F.CAN_CNT.RX_OVF n + 1) ∧
        (t.w.canCh n).ovf = true) ∧ t.w.rd .A F.CAN_RXQ.TAIL n = s.w.rd .A F.CAN_RXQ.TAIL n ∧ s.Quiet t) ∧
  (∀ (n stamp : Nat) (self_ : Bool) (f : CanFrame) (s : State), s.w.rd .A F.CAN_CTRL.MODE n = 0 →
    Completes (.canFrameReceived n stamp self_ f) s fun t =>
      t = s) ∧
  (∀ (h : Half) (init v : Nat) (s : State) (n hd tl : Nat), s.own.alive h = true → s.w.rd h F.CAN_SEL.CH init = n → s.own.owns h (336
    + n) = true → hd = s.w.rd .A F.CAN_RXQ.HEAD n → tl = s.w.rd .A F.CAN_RXQ.TAIL n →
    Completes (.canRxAck h init v) s fun t =>
      t.w.rd .A F.CAN_RXQ.TAIL n = (if 0 < (v % 65536 + 65536 - tl) % 65536 ∧ (v % 65536 + 65536 - tl) % 65536 ≤ (hd + 65536 - tl) % 65536 then v % 65536 else tl) ∧
      t.w.rd .A F.CAN_RXQ.HEAD n = hd ∧ (t.w.rd .A F.CAN_RXQ.TAIL n ≠ tl → (t.w.canCh n).ovf = false) ∧
      World.RegsBut [F.CAN_RXQ.TAIL.reg] s.w t.w ∧ s.Quiet t) ∧
  (∀ (n : Nat) (up txd : Bool) (s : State),
    Completes (.canTrxFault n up txd) s fun t =>
      t.w.rd .A F.CAN_STATUS.TRX_FAULT n = b2n up ∧
      (up = true → t.w.rd .A F.CAN_STATUS.TRX n = (if txd = true ∧ s.w.rd .A F.CAN_STATUS.TRX n = 0 then 2 else s.w.rd .A F.CAN_STATUS.TRX n)) ∧
      (up = false → t.w.rd .A F.CAN_STATUS.TRX n = (if s.w.rd .A F.CAN_STATUS.TRX_FAULT n = 1 ∧ s.w.rd .A F.CAN_STATUS.GREEN n = 0 ∧
        s.w.rd .A F.CAN_STATUS.TRX n = 2 then 0 else s.w.rd .A F.CAN_STATUS.TRX n)) ∧
      World.RegsBut [F.CAN_STATUS.TRX.reg, F.EVT_STATUS.LOST.reg] s.w t.w ∧ s.Quiet t) ∧
  (∀ (n : Nat) (s : State),
    Completes (.canWake n) s fun t =>
      t.w.rd .A F.CAN_STATUS.WAKE n = (if (s.w.canCh n).cfg.wake = true ∧ s.w.latch.logicValid = true ∧ s.w.rd .A F.CAN_STATUS.TRX n ≠ 3 then 1 else
        s.w.rd .A F.CAN_STATUS.WAKE n) ∧ World.RegsBut [F.CAN_STATUS.WAKE.reg, F.EVT_STATUS.LOST.reg] s.w t.w ∧ s.Quiet t) ∧
  (∀ (n sa : Nat) (lost : Bool) (s : State), (s.w.canCh n).cfg.stack ≠ 0 →
    Completes (.j1939AddressClaim n sa lost) s fun t =>
      t.w.rd .A F.CAN_SA.SA n = (if lost then 254 else sa % 256) ∧ (t.w.canCh n).claimed = !lost ∧
      World.RegsBut [F.CAN_SA.SA.reg, F.EVT_STATUS.LOST.reg] s.w t.w ∧ s.Quiet t) ∧
  (∀ (n sa : Nat) (lost : Bool) (s : State), (s.w.canCh n).cfg.stack = 0 →
    Completes (.j1939AddressClaim n sa lost) s fun t =>
      t = s) ∧
  (∀ (n lamps : Nat) (codes : List Byte) (s : State) (h : Half), s.own.owns h (336 + n) = true → (s.w.run.get h).running = true →
    s.w.stackSends n = true → (s.w.canCh n).dm1At + sec ≤ s.w.now → s.w.tbState n 1 ≠ 1 → s.w.tbState n 1 ≠ 2 →
    Completes (.dm1Broadcast n lamps codes) s fun t =>
      t.w.tbState n 1 = 1 ∧ (t.w.canCh n).dm1At = s.w.now ∧ t.w.rd .A F.CAN_TXB_W0.IDE (3 * n + 1) = 1 ∧ t.w.rd .A F.CAN_TXB_W1.DLC (3 * n + 1) = 8 ∧
      t.w.rd .A F.CAN_TXB_W0.ID (3 * n + 1) = (if codes.length ≤ 4 then 0x18FECA00 else 0x1CECFF00) + s.w.rd .A F.CAN_SA.SA n ∧ s.Quiet t) ∧
  (∀ (n lamps : Nat) (codes : List Byte) (s : State), s.w.stackSends n = false ∨ s.w.now < (s.w.canCh n).dm1At + sec ∨ s.own.owner
    (336 + n) = none →
    Completes (.dm1Broadcast n lamps codes) s fun t =>
      t = s)

/-- Parts of R431, R433, R435, R437, R438, R440, R441, R443, R450: ports, OPEN and CLOSE, connections, handshakes and HELLO.
Where the spec leaves the model a choice: log entries 7, 47. -/
def Obligations.fleetSessions : Prop :=
  (∀ (k speed : Nat) (master : Bool) (s : State) (h : Half), k < 8 → h = portHalf k → (s.w.run.get h).running = true →
    Completes (.ethLink k speed master) s fun t =>
      t.w.rd h F.ETH_PORT.LINK k = b2n (decide (speed ≠ 0)) ∧ t.w.rd h F.ETH_PORT.MASTER k = b2n (decide (speed ≠ 0)) ∧
      t.w.rd h F.ETH_PORT.SPEED k = (if speed = 0 then 0 else if s.w.rd h F.ETH_PORT.FORCE k = 1 then 3 + s.w.rd h F.ETH_PORT.FSPEED k else
        if speed = 4 then 4 else 3) ∧ World.RegsBut [F.ETH_PORT.LINK.reg, F.EVT_STATUS.LOST.reg] s.w t.w ∧ s.Quiet t) ∧
  (∀ (k speed : Nat) (master : Bool) (s : State) (g : Half), 8 ≤ k → k < 11 → k ≠ 10 ∨ speed = 0 ∨ s.w.rd .A F.ETH_CTRL.S0_EN = 1 ∨
    s.w.rd .B F.ETH_CTRL.S0_EN = 1 →
    Completes (.ethLink k speed master) s fun t =>
      t.w.rd g F.ETH_PORT.LINK k = b2n (decide (speed ≠ 0)) ∧
      t.w.rd g F.ETH_PORT.SPEED k = (if speed = 0 then 0 else if k < 10 then 2 else min speed 2) ∧
      t.w.rd g F.ETH_PORT.MASTER k = b2n (decide (speed ≠ 0 ∧ (k = 9 ∨ (k = 10 ∧ master = true)))) ∧
      World.RegsBut [F.ETH_PORT.LINK.reg, F.EVT_STATUS.LOST.reg] s.w t.w ∧ s.Quiet t) ∧
  (∀ (k speed : Nat) (master : Bool) (s : State), (k < 8 ∧ (s.w.run.get (portHalf k)).running = false) ∨ 11 ≤ k ∨ (k = 10 ∧ speed ≠ 0
    ∧ s.w.rd .A F.ETH_CTRL.S0_EN = 0 ∧ s.w.rd .B F.ETH_CTRL.S0_EN = 0) →
    Completes (.ethLink k speed master) s fun t =>
      t = s) ∧
  (∀ (h : Half) (k : Nat) (s : State), (s.w.run.get h).running = true → k < 11 →
    Completes (.gmForeignAnnounce h k) s fun t =>
      t.w.rd h F.ETH_GM.FOREIGN = satTo 8 (s.w.rd h F.ETH_GM.FOREIGN + 1) ∧ (t.w.flx.get h).told ≠ [] ∧
      World.RegsBut [F.ETH_GM.FOREIGN.reg, F.EVT_STATUS.LOST.reg] s.w t.w ∧ s.Quiet t) ∧
  (∀ (h : Half) (k : Nat) (s : State), (s.w.run.get h).running = false ∨ 11 ≤ k →
    Completes (.gmForeignAnnounce h k) s fun t =>
      t = s) ∧
  (∀ (h : Half) (init : Nat) (s : State),
    Completes (.ethClrCnt h init) s fun t =>
      (∀ k, k < 11 → t.w.rd h F.ETH_PORT.ERR k = 0 ∧ t.w.rd h F.ETH_PORT.DROP k = 0 ∧ t.w.rd h F.ETH_PORT.LINK k = s.w.rd h F.ETH_PORT.LINK k) ∧
      t.w.rd h F.ETH_GM.FOREIGN = 0 ∧ t.w.reg h F.FLX_CNT.AUTH 0 = 0 ∧
      World.RegsBut [F.ETH_PORT.ERR.reg, F.ETH_GM.FOREIGN.reg, F.FLX_CNT.AUTH.reg] s.w t.w ∧ s.Quiet t) ∧
  (∀ (h : Half) (k port : Nat) (s : State), s.flxRuns h = true → k < 16 → s.w.fstate h k = 0 → s.w.rd h F.KEY_STATUS.CERT_OK = 1 →
    Completes (.flxOpen h k port) s fun t =>
      t.w.fstate h k = 1 ∧ t.w.rd h F.FLX_SESS.CLIENT k = 1 ∧ t.w.rd h F.FLX_SESS.UNACKED k = 0 ∧
      t.w.fsess h k = { client := true, ip := s.w.rd h F.FLX_PEER_IP.ADDR, port := port % 65536, keyAt := s.w.now, lastTx := s.w.now, lastRx := s.w.now } ∧
      World.RegsBut [F.FLX_SESS.STATE.reg] s.w t.w ∧ s.Quiet t) ∧
  (∀ (h : Half) (k port : Nat) (s : State), s.flxRuns h = false ∨ 16 ≤ k ∨ s.w.fstate h k ≠ 0 ∨ s.w.rd h F.KEY_STATUS.CERT_OK = 0 →
    Completes (.flxOpen h k port) s fun t =>
      t = s) ∧
  (∀ (h : Half) (k : Nat) (s : State), s.flxRuns h = true → k < 16 → s.w.fstate h k ≠ 0 →
    Completes (.flxClose h k) s fun t =>
      t.w.fstate h k = 0 ∧ t.w.rd h F.FLX_SESS.ROLE k = 0 ∧ t.w.rd h F.FLX_SESS.CLOSE k = 1 ∧ t.w.rd h F.FLX_SESS.UNACKED k = 0 ∧
      t.w.fsess h k = {} ∧ bitOf (t.w.rd h F.FLX_STATUS.OPEN) k = false ∧
      (∀ j, j < 16 → j ≠ k → bitOf (t.w.rd h F.FLX_STATUS.OPEN) j = bitOf (s.w.rd h F.FLX_STATUS.OPEN) j ∧ t.w.fstate h j = s.w.fstate h j) ∧
      t.w.rd h F.FLX_CART.ACTIVE = (if s.w.rd h F.FLX_CART.ACTIVE = k then 15 else s.w.rd h F.FLX_CART.ACTIVE) ∧ s.Quiet t) ∧
  (∀ (h : Half) (k : Nat) (s : State), s.flxRuns h = false ∨ 16 ≤ k ∨ s.w.fstate h k = 0 →
    Completes (.flxClose h k) s fun t =>
      t = s) ∧
  (∀ (h : Half) (m ip : Nat) (s : State), s.flxRuns h = true → s.w.rd h F.KEY_STATUS.CERT_OK = 1 →
    Completes (.flxAccept h m ip) s fun t =>
      NMap.get {} (t.w.flx.get h).conn m = { ip := ip, keyAt := s.w.now, lastTx := s.w.now, lastRx := s.w.now } ∧
      World.RegsBut [] s.w t.w ∧ s.Quiet t) ∧
  (∀ (h : Half) (m ip : Nat) (s : State), s.flxRuns h = false ∨ s.w.rd h F.KEY_STATUS.CERT_OK = 0 →
    Completes (.flxAccept h m ip) s fun t =>
      t = s) ∧
  (∀ (h : Half) (k anchor : Nat) (s : State) (inPeriod : Bool) (serial : List Byte), s.flxRuns h = true → k < 16 → s.w.fstate h k = 1
    →
    Completes (.flxHandshakeComplete h true k anchor inPeriod serial) s fun t =>
      t.w.rd h F.FLX_STATUS.TIME_UNCHECKED = b2n (decide (s.w.rd h F.TIM_STATUS.STATE = 0 ∨ s.w.rd h F.TIM_STATUS.STATE = 4)) ∧
      (((s.w.upd.get h).vault.key 3 anchor).isSome = true → inPeriod = true ∨ s.w.rd h F.TIM_STATUS.STATE = 0 ∨ s.w.rd h F.TIM_STATUS.STATE = 4 →
        t.w.fstate h k = 2 ∧ (t.w.fsess h k).cert = some serial ∧ (t.w.fsess h k).seqTx = (s.w.fsess h k).seqTx + 1) ∧
      (((s.w.upd.get h).vault.key 3 anchor).isSome = false → t.w.fstate h k = 0 ∧ t.w.rd h F.FLX_SESS.CLOSE k = 7 ∧
        t.w.rd h F.FLX_CNT.AUTH = satTo 8 (s.w.rd h F.FLX_CNT.AUTH + 1)) ∧ s.Quiet t) ∧
  (∀ (h : Half) (k anchor : Nat) (s : State) (inPeriod : Bool) (serial : List Byte) (x : Sess), s.flxRuns h = true → (s.w.flx.get
    h).conn = [(k, x)] →
    Completes (.flxHandshakeComplete h false k anchor inPeriod serial) s fun t =>
      (((s.w.upd.get h).vault.key 3 anchor).isSome = false → (t.w.flx.get h).conn = [] ∧
        t.w.rd h F.FLX_CNT.AUTH = satTo 8 (s.w.rd h F.FLX_CNT.AUTH + 1)) ∧
      (((s.w.upd.get h).vault.key 3 anchor).isSome = true → inPeriod = true →
        (NMap.get {} (t.w.flx.get h).conn k).cert = some serial ∧ (NMap.get {} (t.w.flx.get h).conn k).lastRx = s.w.now) ∧ s.Quiet t) ∧
  (∀ (h : Half) (k anchor : Nat) (s : State) (client inPeriod : Bool) (serial : List Byte), s.flxRuns h = false →
    Completes (.flxHandshakeComplete h client k anchor inPeriod serial) s fun t =>
      t = s) ∧
  (∀ (h : Half) (k role ver : Nat) (dev : List Byte) (s : State), s.flxRuns h = true → k < 16 → s.w.fstate h k = 2 →
    Completes (.hello h true k role ver dev) s fun t =>
      (ver ≠ 1 → t.w.fstate h k = 0 ∧ t.w.rd h F.FLX_SESS.CLOSE k = 4) ∧
      (ver = 1 → (s.w.fsess h k).cert ≠ some dev → t.w.fstate h k = 0 ∧ t.w.rd h F.FLX_SESS.CLOSE k = 7 ∧
        t.w.rd h F.FLX_CNT.AUTH = satTo 8 (s.w.rd h F.FLX_CNT.AUTH + 1)) ∧
      (ver = 1 → (s.w.fsess h k).cert = some dev → (∀ j, j < 16 → s.w.fstate h j = 3 → (s.w.fsess h j).dev ≠ dev) →
        t.w.fstate h k = 3 ∧ t.w.rd h F.FLX_SESS.ROLE k = role % 4 ∧ bitOf (t.w.rd h F.FLX_STATUS.OPEN) k = true ∧
        (t.w.fsess h k).dev = dev) ∧ s.Quiet t) ∧
  (∀ (h : Half) (k role ver : Nat) (dev : List Byte) (s : State) (j : Nat) (x : Sess), s.flxRuns h = true → (s.w.flx.get h).conn =
    [(k, x)] → ver = 1 → x.cert = some dev → ∀ i, i < 16 → s.w.fstate h i = 3 → (s.w.fsess h i).dev ≠ dev → (roleSlots role).find? (fun
    i => decide (s.w.fstate h i = 0)) = some j →
    Completes (.hello h false k role ver dev) s fun t =>
      t.w.fstate h j = 3 ∧ t.w.rd h F.FLX_SESS.ROLE j = role % 4 ∧ bitOf (t.w.rd h F.FLX_STATUS.OPEN) j = true ∧
      (t.w.fsess h j).dev = dev ∧ (t.w.flx.get h).conn = [] ∧ s.Quiet t) ∧
  (∀ (h : Half) (k role ver : Nat) (client : Bool) (dev : List Byte) (s : State), s.flxRuns h = false →
    Completes (.hello h client k role ver dev) s fun t =>
      t = s)

/-- Parts of R439, R442–R447: receptions with their acknowledgements, the time-driven messages, and the active cart. -/
def Obligations.fleetMessages : Prop :=
  (∀ (h : Half) (k ty seq ack : Nat) (p : List Byte) (s : State), s.flxRuns h = true → k < 16 → s.w.fstate h k = 3 →
    Completes (.flxMessageReceived h k ty seq ack p) s fun t =>
      (ty = 3 → t.w.fstate h k = 0 ∧ t.w.rd h F.FLX_SESS.CLOSE k = u32At p 0 % 16) ∧
      (ty ≠ 3 → t.w.fstate h k = 3 ∧ (t.w.fsess h k).lastRx = s.w.now ∧
        (t.w.fsess h k).seqRx = (if seq = (s.w.fsess h k).seqRx + 1 then seq else (s.w.fsess h k).seqRx) ∧
        (t.w.fsess h k).unacked = (s.w.fsess h k).unacked.filter (fun u => decide (ack < u.1))) ∧
      (k = 0 → t.w.rd h F.FLX_YLD.ACKED = (((s.w.fsess h 0).unacked.filter (fun u => decide (u.1 ≤ ack))).foldl
        (fun a u => max a u.2) (s.w.rd h F.FLX_YLD.ACKED)) % 2 ^ 32) ∧ s.Quiet t) ∧
  (∀ (h : Half) (k ty seq ack : Nat) (p : List Byte) (s : State), s.flxRuns h = false ∨ 16 ≤ k ∨ s.w.fstate h k ≠ 3 →
    Completes (.flxMessageReceived h k ty seq ack p) s fun t =>
      t = s) ∧
  (∀ (h : Half) (seq ack : Nat) (frame : List Byte) (s : State),
    Completes (.rtcm h seq ack frame) s fun t =>
      exec (.flxMessageReceived h 0 0x12 seq ack frame) s = .next t) ∧
  (∀ (h : Half) (k seq ack : Nat) (p : List Byte) (s : State), s.flxRuns h = true → 1 ≤ k → k ≤ 3 → s.w.fstate h k = 3 → p.length = 32
    →
    Completes (.cartState h k seq ack p) s fun t =>
      (t.w.fsess h k).cartAt = s.w.now ∧
      (s.w.rd h F.FLX_CART.ACTIVE = k → byteAt p 22 ≠ 3 → t.w.rd h F.FLX_CART.MODE = byteAt p 22 ∧ t.w.rd h F.FLX_CART.STALE = 0) ∧
      (s.w.rd h F.FLX_CART.ACTIVE = k → byteAt p 22 = 3 → t.w.rd h F.FLX_CART.ACTIVE = 15) ∧
      (s.w.rd h F.FLX_CART.ACTIVE ≠ k → t.w.rd h F.FLX_CART.ACTIVE = s.w.rd h F.FLX_CART.ACTIVE ∧
        (t.w.flx.get h).asks = (if bitOf (byteAt p 23) 0 = true ∧ byteAt p 22 ≠ 3 then
          (s.w.flx.get h).asks ++ [(k, (s.w.fsess h k).dev)] else (s.w.flx.get h).asks)) ∧
      exec (.flxMessageReceived h k 0x21 seq ack p) s = .next t ∧ s.Quiet t) ∧
  (∀ (h : Half) (k seq ack : Nat) (p : List Byte) (s : State), s.flxRuns h = false ∨ 16 ≤ k ∨ s.w.fstate h k ≠ 3 →
    Completes (.cartState h k seq ack p) s fun t =>
      t = s) ∧
  (∀ (h : Half) (k : Nat) (s : State), s.flxRuns h = true → k < 16 → s.w.fstate h k = 3 → (s.w.fsess h k).lastTx + sec ≤ s.w.now →
    Completes (.flxHeartbeatSend h k) s fun t =>
      (t.w.fsess h k).out = flxMessage 2 ((s.w.fsess h k).seqTx + 1) (s.w.fsess h k).seqRx [] ∧ (t.w.fsess h k).lastTx = s.w.now ∧
      (t.w.fsess h k).seqTx = (s.w.fsess h k).seqTx + 1 ∧ World.RegsBut [] s.w t.w ∧ s.Quiet t) ∧
  (∀ (h : Half) (k : Nat) (s : State), s.flxRuns h = false ∨ 16 ≤ k ∨ s.w.fstate h k ≠ 3 ∨ s.w.now < (s.w.fsess h k).lastTx + sec →
    Completes (.flxHeartbeatSend h k) s fun t =>
      t = s) ∧
  (∀ (h : Half) (k : Nat) (s : State), s.flxRuns h = true → k < 16 → s.w.fstate h k ≠ 0 → (s.w.fsess h k).lastRx + 5 * sec ≤ s.w.now →
    
    Completes (.flxSessionTimeout h k) s fun t =>
      t.w.fstate h k = 0 ∧ t.w.rd h F.FLX_SESS.CLOSE k = 2 ∧ t.w.rd h F.FLX_CNT.TIMEOUT = satTo 8 (s.w.rd h F.FLX_CNT.TIMEOUT + 1) ∧ s.Quiet t) ∧
  (∀ (h : Half) (k : Nat) (s : State), s.flxRuns h = false ∨ 16 ≤ k ∨ s.w.fstate h k = 0 ∨ s.w.now < (s.w.fsess h k).lastRx + 5 * sec
    →
    Completes (.flxSessionTimeout h k) s fun t =>
      t = s) ∧
  (∀ (h : Half) (k : Nat) (s : State), s.flxRuns h = true → k < 16 → s.w.fstate h k = 3 → 2 ^ 24 ≤ (s.w.fsess h k).records ∨
    (s.w.fsess h k).keyAt + 3600 * sec ≤ s.w.now →
    Completes (.flxKeyUpdate h k) s fun t =>
      (t.w.fsess h k).records = 0 ∧ (t.w.fsess h k).keyAt = s.w.now ∧ (t.w.fsess h k).updates = (s.w.fsess h k).updates + 1 ∧
      World.RegsBut [] s.w t.w ∧ s.Quiet t) ∧
  (∀ (h : Half) (k : Nat) (s : State), s.flxRuns h = false ∨ 16 ≤ k ∨ s.w.fstate h k ≠ 3 ∨ ((s.w.fsess h k).records < 2 ^ 24 ∧ s.w.now
    < (s.w.fsess h k).keyAt + 3600 * sec) →
    Completes (.flxKeyUpdate h k) s fun t =>
      t = s) ∧
  (∀ (h : Half) (s : State), s.flxRuns h = true →
    Completes (.status h) s fun t =>
      (∀ k, k < 16 → k = 0 ∨ 4 ≤ k → s.w.fstate h k = 3 → (t.w.fsess h k).out =
        flxMessage 0x11 ((s.w.fsess h k).seqTx + 1) (s.w.fsess h k).seqRx (s.w.statusPayload h) ∧ (t.w.fsess h k).lastTx = s.w.now) ∧
      (∀ k, s.w.fstate h k ≠ 3 → t.w.fsess h k = s.w.fsess h k) ∧ World.RegsBut [] s.w t.w ∧ s.Quiet t) ∧
  (∀ (h : Half) (s : State), s.flxRuns h = true →
    Completes (.cartSync h) s fun t =>
      (t.w.flx.get h).asks = [] ∧
      (∀ k, 1 ≤ k → k ≤ 3 → s.w.fstate h k = 3 → (t.w.fsess h k).seqTx = (s.w.fsess h k).seqTx + 1 ∧ (t.w.fsess h k).lastTx = s.w.now ∧
        (t.w.fsess h k).out = flxMessage 0x20 ((s.w.fsess h k).seqTx + 1) (s.w.fsess h k).seqRx
          (t.w.cartPayload h (s.w.mt h / (50 * ms) * (50 * ms)) k)) ∧
      (s.w.rd h F.FLX_CART.ACTIVE ≠ 15 → t.w.rd h F.FLX_CART.ACTIVE = s.w.rd h F.FLX_CART.ACTIVE) ∧
      (∀ x ∈ (s.w.flx.get h).asks, (s.w.flx.get h).asks.length = 1 → s.w.rd h F.FLX_CART.ACTIVE = 15 → x.1 ≤ 3 → s.w.fstate h x.1 = 3 →
        t.w.rd h F.FLX_CART.ACTIVE = x.1) ∧ s.Quiet t) ∧
  (∀ (h : Half) (s : State) (c : Instr), c ∈ [Instr.status h, .cartSync h] → s.flxRuns h = false →
    Completes c s fun t =>
      t = s) ∧
  (∀ (h : Half) (s : State) (k : Nat), s.flxRuns h = true → k = s.w.rd h F.FLX_CART.ACTIVE → k ≠ 15 → s.w.rd h F.FLX_CART.STALE = 0 →
    (s.w.fsess h k).cartAt + 250 * ms ≤ s.w.now →
    Completes (.cartStale h) s fun t =>
      t.w.rd h F.FLX_CART.STALE = 1 ∧ t.w.rd h F.FLX_CART.ACTIVE = k ∧ World.RegsBut [F.FLX_CART.STALE.reg, F.EVT_STATUS.LOST.reg] s.w t.w ∧ s.Quiet t) ∧
  (∀ (h : Half) (s : State), s.flxRuns h = false ∨ s.w.rd h F.FLX_CART.ACTIVE = 15 ∨ s.w.rd h F.FLX_CART.STALE = 1 ∨ s.w.now <
    (s.w.fsess h (s.w.rd h F.FLX_CART.ACTIVE)).cartAt + 250 * ms →
    Completes (.cartStale h) s fun t =>
      t = s) ∧
  (∀ (h : Half) (init k : Nat) (s : State),
    Completes (.cartSelect h init k) s fun t =>
      t.w.rd h F.FLX_CART_CMD.SLOT = k % 16 ∧
      t.w.rd h F.FLX_CART.ACTIVE = (if s.flxRuns h = true ∧ 1 ≤ k ∧ k ≤ 3 ∧ s.w.fstate h k = 3 then k else s.w.rd h F.FLX_CART.ACTIVE) ∧
      (s.flxRuns h = false → World.RegsBut [F.FLX_CART_CMD.SLOT.reg] s.w t.w) ∧ s.Quiet t) ∧
  (∀ (h : Half) (init : Nat) (s : State),
    Completes (.cartRelease h init) s fun t =>
      t.w.rd h F.FLX_CART.ACTIVE = (if s.flxRuns h = true then 15 else s.w.rd h F.FLX_CART.ACTIVE) ∧ (s.flxRuns h = false → t = s) ∧ s.Quiet t)

/-- Parts of R452, R455, R456, R466–R469, R471, R473: what each request does, and what refuses it.
Where the spec leaves the model a choice: log entry 48. -/
def Obligations.serviceRequests : Prop :=
  (∀ (h : Half) (n : Nat) (s : State) (g : List Nat), g = s.w.groupOf h n → (s.w.run.get h).running = true → s.ownsGroup h g = true →
    Completes (.plannedMove h n) s fun t =>
      (s.accepts h.other = true → ∀ k ∈ s.w.groupObjs h g, t.own.owns h.other k = true) ∧
      (s.accepts h.other = false → t.own = s.own ∧ t.w.rd h F.OWN_RESULT.RES = 4) ∧
      State.TokensBut (s.w.groupObjs h g) s t ∧ t.ledger = s.ledger ∧ t.bus = s.bus) ∧
  (∀ (h : Half) (n : Nat) (s : State), (s.w.run.get h).running = false ∨ s.ownsGroup h (s.w.groupOf h n) = false →
    Completes (.plannedMove h n) s fun t =>
      t = s) ∧
  (∀ (s : State) (h g : Half) (l : List Nat), s.own.server = some h → s.w.rd .A F.STW_SVC_STAT.STATE ≠ 5 → s.awayGroups.find? (fun g
    => s.qualifies (groupHome ((s.w.funcs h).recs) h g)) = some l → g = groupHome ((s.w.funcs h).recs) h l → s.w.svc.lastMove + 20 * ms
    ≤ s.w.now → s.accepts g = true →
    Completes .handbackMove s fun t =>
      (∀ k ∈ s.w.groupObjs g.other l, t.own.owns g k = true) ∧ State.TokensBut (s.w.groupObjs g.other l) s t ∧
      t.w.svc.lastMove = s.w.now ∧ t.ledger = s.ledger) ∧
  (∀ (s : State), s.own.server = none ∨ (s.w.rd .A F.STW_SVC_STAT.STATE ≠ 5 ∧ ∀ g ∈ s.awayGroups, ∀ h, s.qualifies h = false) →
    Completes .handbackMove s fun t =>
      t = s) ∧
  (∀ (h : Half) (init target : Nat) (s : State) (x : Half), (s.w.run.get h).running = true → s.own.alive h = true → target < 2 → x =
    halfOf target → s.prepareRefusal x = 0 →
    Completes (.prepareHalf h init target) s fun t =>
      t.w.rd h F.STW_SVC_STAT.STATE = 2 ∧ t.w.rd h F.STW_SVC_STAT.OP = 1 ∧ t.w.rd h F.STW_SVC_STAT.TARGET = target ∧
      t.w.svc.prepared = some x ∧ t.w.svc.busy = true ∧ t.own.alive x = false ∧ t.own.server = some x.other) ∧
  (∀ (h : Half) (init target : Nat) (s : State), (s.w.run.get h).running = true → s.own.alive h = true → 2 ≤ target ∨ s.prepareRefusal
    (halfOf target) ≠ 0 →
    Completes (.prepareHalf h init target) s fun t =>
      t.w.rd h F.STW_SVC_STAT.STATE = 3 ∧ t.w.rd h F.STW_SVC_STAT.REASON = (if 2 ≤ target then 5 else s.prepareRefusal (halfOf target)) ∧
      t.w.svc = s.w.svc ∧ World.RegsBut [F.STW_SVC_STAT.STATE.reg, F.EVT_STATUS.LOST.reg] s.w t.w ∧ s.Quiet t) ∧
  (∀ (h : Half) (init tl : Nat) (s : State), (s.w.run.get h).running = true → s.own.alive h = true →
    Completes (.prepareTile h init tl) s fun t =>
      (6 ≤ tl ∨ s.w.rd .A F.VLV_TILE.PRESENT tl = 0 → t.w.rd h F.STW_SVC_STAT.STATE = 3 ∧ t.w.rd h F.STW_SVC_STAT.REASON = 5) ∧
      (tl < 6 → s.w.rd .A F.VLV_TILE.PRESENT tl = 1 → s.w.updating = true → t.w.rd h F.STW_SVC_STAT.STATE = 3 ∧ t.w.rd h F.STW_SVC_STAT.REASON = 3) ∧
      (tl < 6 → s.w.rd .A F.VLV_TILE.PRESENT tl = 1 → s.w.updating = false → s.w.svc.busy = true →
        t.w.rd h F.STW_SVC_STAT.STATE = 3 ∧ t.w.rd h F.STW_SVC_STAT.REASON = 7) ∧
      (tl < 6 → s.w.rd .A F.VLV_TILE.PRESENT tl = 1 → s.w.updating = false → s.w.svc.busy = false →
        (∀ c ∈ tileChans tl, s.w.chanBusy c = false ∨ s.w.twinHealthy c = true) →
        t.w.rd h F.STW_SVC_STAT.STATE = 2 ∧ t.w.svc.tile = tl + 1 ∧ t.w.svc.busy = true ∧ t.w.svc.readyAt = s.w.now) ∧
      (tl < 6 → s.w.rd .A F.VLV_TILE.PRESENT tl = 1 → s.w.updating = false → s.w.svc.busy = false →
        (∃ c ∈ tileChans tl, s.w.chanBusy c = true ∧ s.w.twinHealthy c = false) →
        t.w.rd h F.STW_SVC_STAT.STATE = 3 ∧ t.w.rd h F.STW_SVC_STAT.REASON = 4 ∧ t.w.svc = s.w.svc) ∧
      t.w.rd h F.STW_SVC_STAT.OP = 2 ∧ World.RegsBut [F.STW_SVC_STAT.STATE.reg, F.EVT_STATUS.LOST.reg] s.w t.w ∧ s.Quiet t) ∧
  (∀ (h : Half) (init : Nat) (s : State), (s.w.run.get h).running = true → s.own.alive h = true →
    Completes (.fanReset h init) s fun t =>
      t.w.rd h F.STW_SVC_STAT.OP = 4 ∧
      (s.w.inService h = true → t.w.rd h F.STW_LIFE_FAN.HOURS = 0 ∧ t.w.rd h F.STW_LIFE_FAN.DUE = 0 ∧ t.w.rd h F.STW_SVC_STAT.STATE = 6) ∧
      (s.w.inService h = false → t.w.rd h F.STW_SVC_STAT.STATE = 3 ∧ t.w.rd h F.STW_SVC_STAT.REASON = 8 ∧
        t.w.rd h F.STW_LIFE_FAN.HOURS = s.w.rd h F.STW_LIFE_FAN.HOURS) ∧
      World.RegsBut [F.STW_SVC_STAT.STATE.reg, F.STW_LIFE_FAN.HOURS.reg, F.EVT_STATUS.LOST.reg] s.w t.w ∧ s.Quiet t) ∧
  (∀ (h : Half) (init : Nat) (s : State), (s.w.run.get h).running = true → s.own.alive h = true →
    Completes (.holdupReset h init) s fun t =>
      t.w.rd h F.STW_SVC_STAT.OP = 5 ∧
      (s.w.inService h = true → t.w.rd h F.STW_LIFE_HOLD.ENERGY = 0 ∧ t.w.rd h F.STW_LIFE_HOLD.DUE = 0 ∧
        t.w.rd h F.STW_LIFE_HOLD.FAIL = 0 ∧ t.w.rd h F.STW_SVC_STAT.STATE = 6) ∧
      (s.w.inService h = false → t.w.rd h F.STW_SVC_STAT.STATE = 3 ∧ t.w.rd h F.STW_SVC_STAT.REASON = 8 ∧
        t.w.reg h F.STW_LIFE_HOLD.ENERGY 0 = s.w.reg h F.STW_LIFE_HOLD.ENERGY 0) ∧
      World.RegsBut [F.STW_SVC_STAT.STATE.reg, F.STW_LIFE_HOLD.ENERGY.reg, F.EVT_STATUS.LOST.reg] s.w t.w ∧ s.Quiet t) ∧
  (∀ (h : Half) (init : Nat) (s : State), (s.w.run.get h).running = true → s.own.alive h = true → s.w.svc.busy = true →
    s.w.svc.prepared = none →
    Completes (.svcCancel h init) s fun t =>
      t.w.rd h F.STW_SVC_STAT.STATE = 0 ∧ t.w.rd h F.STW_SVC_STAT.REASON = 6 ∧ t.w.svc.busy = false ∧ t.w.svc.tile = 0 ∧
      World.RegsBut [F.STW_SVC_STAT.STATE.reg, F.EVT_STATUS.LOST.reg] s.w t.w ∧ s.Quiet t) ∧
  (∀ (h : Half) (init : Nat) (s : State), (s.w.run.get h).running = true → s.own.alive h = true → s.w.svc.busy = true →
    s.w.svc.prepared = some h.other →
    Completes (.svcCancel h init) s fun t =>
      t.w.rd h F.STW_SVC_STAT.STATE = 0 ∧ t.w.rd h F.STW_SVC_STAT.REASON = 6 ∧ t.w.svc.busy = false ∧ t.w.svc.prepared = none) ∧
  (∀ (h : Half) (init : Nat) (s : State) (c : Instr) (target : Nat), c ∈ [Instr.prepareHalf h init target, .prepareTile h init target,
    .svcCancel h init, .fanReset h init, .holdupReset h init] → (s.w.run.get h).running = false ∨ s.own.alive h = false →
    Completes c s fun t =>
      t = s) ∧
  (∀ (s : State) (x : Half), s.w.svc.prepared = some x → s.w.svc.readyAt + 1800 * sec ≤ s.w.now →
    Completes .prepareTimeout s fun t =>
      t.w.rd (Half.other x) F.STW_SVC_STAT.STATE = 0 ∧ t.w.rd (Half.other x) F.STW_SVC_STAT.REASON = 6 ∧ t.w.svc.prepared = none ∧ t.w.svc.busy = false) ∧
  (∀ (s : State), s.w.svc.prepared = none ∨ s.w.now < s.w.svc.readyAt + 1800 * sec →
    Completes .prepareTimeout s fun t =>
      t = s) ∧
  (∀ (h : Half) (s : State), s.w.svc.presence.get h = true →
    Completes (.cartridgePresenceOpen h) s fun t =>
      t.w.svc.presence.get h = false ∧ t.own.alive h = false ∧ (t.w.run.get h).running = false ∧ (s.own.alive h = true → t.own.server ≠ some h) ∧
      t.w.rd h.other F.STW_SVC_STAT.STATE = 4 ∧ (s.w.svc.prepared = some h → t.w.svc.prepared = none) ∧ t.ledger = s.ledger ∧ t.bus = s.bus) ∧
  (∀ (h : Half) (s : State), s.w.svc.presence.get h = false →
    Completes (.cartridgePresenceOpen h) s fun t =>
      t = s) ∧
  (∀ (h : Half) (s : State) (k : Option Cartridge), s.w.svc.presence.get h = false → s.own.alive h = false →
    Completes (.cartridgeInsert h k) s fun t =>
      t.w.svc.presence.get h = true ∧ t.own.alive h = false ∧ (t.own.low.get h).detectOpen = false ∧ (t.own.low.get h).heldReset = true ∧
      t.w.rd h.other F.STW_SVC_STAT.STATE = 5 ∧ State.TokensBut [] s t ∧ t.ledger = s.ledger ∧ t.bus = s.bus) ∧
  (∀ (h : Half) (s : State) (k : Option Cartridge), s.w.svc.presence.get h = true ∨ s.own.alive h = true →
    Completes (.cartridgeInsert h k) s fun t =>
      t = s)

/-- Parts of R475–R478: a frame's start, C3 shed, C2 paused, the counts cleared, STW_WDOG.
Where the spec leaves the model a choice: log entry 49. -/
def Obligations.stewardFrames : Prop :=
  (∀ (h : Half) (busy c0 c1 : Nat) (s : State), (s.w.run.get h).running = true → s.w.mt h / (10 * ms) ≠ (s.w.frame.get h).start / (10
    * ms) →
    Completes (.stewardFrame h busy c0 c1) s fun t =>
      t.w.rd h F.STW_LOAD.LOAD = min 100 (busy / 100) ∧ t.w.rd h F.STW_LOAD.PEAK = max (min 100 (busy / 100)) (s.w.rd h F.STW_LOAD.PEAK) ∧
      (t.w.frame.get h).start = s.w.mt h / (10 * ms) * (10 * ms) ∧ (t.w.frame.get h).shed = false ∧ (t.w.frame.get h).paused = false ∧
      (t.w.frame.get h).c0 = c0 ∧ (t.w.frame.get h).c1 = c1 ∧
      (t.w.frame.get h).pausedRun = (if (s.w.frame.get h).paused = true then min 100 ((s.w.frame.get h).pausedRun + 1) else 0) ∧ s.Quiet t) ∧
  (∀ (h : Half) (s : State), (s.w.run.get h).running = true → (s.w.frame.get h).shed = false → (s.w.frame.get h).start + 8 * ms ≤
    s.w.mt h →
    Completes (.c3Shed h) s fun t =>
      (t.w.frame.get h).shed = true ∧ t.w.rd h F.STW_LOAD.SHED = satTo 8 (s.w.rd h F.STW_LOAD.SHED + 1) ∧
      World.RegsBut [F.STW_LOAD.SHED.reg, F.EVT_STATUS.LOST.reg] s.w t.w ∧ s.Quiet t) ∧
  (∀ (h : Half) (s : State), (s.w.run.get h).running = true → (s.w.frame.get h).paused = false → (s.w.frame.get h).start + 9500 * us ≤
    s.w.mt h →
    Completes (.c2Pause h) s fun t =>
      (t.w.frame.get h).paused = true ∧ t.w.rd h F.STW_LOAD.PAUSED = satTo 7 (s.w.rd h F.STW_LOAD.PAUSED + 1) ∧
      World.RegsBut [F.STW_LOAD.PAUSED.reg, F.EVT_STATUS.LOST.reg] s.w t.w ∧ s.Quiet t) ∧
  (∀ (h : Half) (busy c0 c1 : Nat) (c : Instr) (s : State), c ∈ [Instr.stewardFrame h busy c0 c1, .c3Shed h, .c2Pause h] →
    (s.w.run.get h).running = false ∨ ((s.w.frame.get h).start = s.w.mt h / (10 * ms) * (10 * ms) ∧ s.w.mt h < (s.w.frame.get h).start
    + 8 * ms) →
    Completes c s fun t =>
      t = s) ∧
  (∀ (h : Half) (init : Nat) (s : State),
    Completes (.stwLoadClear h init) s fun t =>
      t.w.rd h F.STW_LOAD.PEAK = 0 ∧ t.w.rd h F.STW_LOAD.SHED = 0 ∧ t.w.rd h F.STW_LOAD.PAUSED = 0 ∧
      t.w.rd h F.STW_LOAD.LOAD = s.w.rd h F.STW_LOAD.LOAD ∧ World.RegsBut [F.STW_LOAD.PEAK.reg] s.w t.w ∧ s.Quiet t) ∧
  (∀ (h : Half) (init v : Nat) (s : State), (s.w.run.get h).running = true →
    Completes (.watchdogService h init v) s fun t =>
      (v % 256 = 0x5A → (s.w.frame.get h).wdKey = false → (t.w.frame.get h).wdKey = true ∧ World.RegsBut [] s.w t.w ∧ s.Quiet t) ∧
      (v % 256 = 0xA5 → (s.w.frame.get h).wdKey = true → (s.w.frame.get h).served = false ∨ (s.w.frame.get h).wdAt + 5 * ms ≤ s.w.now →
        (t.w.frame.get h).wdKey = false ∧ (t.w.frame.get h).served = true ∧ (t.w.frame.get h).wdAt = s.w.now ∧
        World.RegsBut [] s.w t.w ∧ s.Quiet t) ∧
      ((v % 256 ≠ 0x5A ∧ v % 256 ≠ 0xA5) ∨ (v % 256 = 0x5A ∧ (s.w.frame.get h).wdKey = true) ∨
          (v % 256 = 0xA5 ∧ ((s.w.frame.get h).wdKey = false ∨ ((s.w.frame.get h).served = true ∧ s.w.now < (s.w.frame.get h).wdAt + 5 * ms))) →
        t.own.alive h = false ∧ (t.w.run.get h).running = false ∧ (t.w.run.get h).cause = 1) ∧ t.ledger = s.ledger) ∧
  (∀ (h : Half) (s : State), (s.w.run.get h).running = true → (s.w.frame.get h).served = true → (s.w.frame.get h).wdAt + 30 * ms ≤
    s.w.now →
    Completes (.watchdogExpiry h) s fun t =>
      t.own.alive h = false ∧ (t.w.run.get h).running = false ∧ (t.w.run.get h).cause = 1 ∧ (s.own.alive h = true → t.own.server ≠ some h) ∧ t.ledger = s.ledger) ∧
  (∀ (h : Half) (init v : Nat) (c : Instr) (s : State), c ∈ [Instr.watchdogService h init v, .watchdogExpiry h] → (s.w.run.get
    h).running = false →
    Completes c s fun t =>
      t = s)

/-- Parts of R479, R481–R484, R488–R491: EVENT_RAISE, the delivery, the counts, EVT_KNOCK_CMD, the end and the escalation of a Knock.
Where the spec leaves the model a choice: log entries 50, 51. -/
def Obligations.eventsAndKnocks : Prop :=
  (∀ (h : Half) (num arg : Nat) (s : State), num < 256 → (s.w.run.get h).running = true → (s.w.evt.get h).lostDue = false →
    Completes (.eventRaise h num arg) s fun t =>
      ((s.w.evt.get h).queue = [] → ((s.w.evt.get h).us ≠ s.w.mt h / 1000 ∨ (s.w.evt.get h).inUs < 32) →
        (t.w.evt.get h).queue = [⟨s.w.mt h, num, h.code, 1, arg % 2 ^ 32⟩] ∧ t.w.rd h F.EVT_STATUS.LOST = s.w.rd h F.EVT_STATUS.LOST) ∧
      ((s.w.evt.get h).us = s.w.mt h / 1000 → 32 ≤ (s.w.evt.get h).inUs → (t.w.evt.get h).lostDue = true ∧
        (t.w.evt.get h).queue = (s.w.evt.get h).queue ∧ t.w.rd h F.EVT_STATUS.LOST = satTo 16 (s.w.rd h F.EVT_STATUS.LOST + 1)) ∧
      (t.w.evt.get h).queue.length ≤ max 256 (s.w.evt.get h).queue.length ∧
      World.RegsBut [F.EVT_STATUS.LOST.reg] s.w t.w ∧ s.Quiet t) ∧
  (∀ (h : Half) (num arg : Nat) (s : State), 256 ≤ num ∨ (s.w.run.get h).running = false →
    Completes (.eventRaise h num arg) s fun t =>
      t = s) ∧
  (∀ (h : Half) (s : State) (r : EvRec) (rest : List EvRec) (n : Nat), (s.w.evt.get h).queue = r :: rest → (s.w.run.get h).running =
    true → (s.w.evt.get h).routes = [] → (s.w.evt.get h).lostDue = false → n = s.w.rd h F.EVT_LOG_HEAD.VALUE →
    Completes (.eventRecordDelivery h) s fun t =>
      (t.w.evt.get h).queue = rest ∧ t.w.rd h F.EVT_LOG_HEAD.VALUE = (n + 1) % 2 ^ 32 ∧
      ((s.w.dram.get h).wf = true → t.w.getMem h 10 (16 * (n % 4096)) 16 = r.bytes) ∧
      (4096 ≤ (n + 2 ^ 32 - s.w.rd h F.EVT_LOG_TAIL.VALUE) % 2 ^ 32 → t.w.rd h F.EVT_STATUS.LOG_OVF = 1) ∧
      World.RegsBut [F.EVT_LOG_HEAD.VALUE.reg, F.EVT_STATUS.LOG_OVF.reg] s.w t.w ∧ s.Quiet t) ∧
  (∀ (h : Half) (s : State) (r : EvRec) (rest : List EvRec) (x : Route), (s.w.evt.get h).queue = r :: rest → (s.w.run.get h).running =
    true → x ∈ (s.w.evt.get h).routes → x.fits r = true → s.w.rd h F.EVT_CTRL.REACT_EN = 1 → s.own.alive h = true → x.react = 1 →
    kindOfObj x.target = 2 → x.target < 362 → s.own.owns h x.target = true →
    Completes (.eventRecordDelivery h) s fun t =>
      t.w.rd .A F.LSW_STATUS.KNOCKED (x.target - 96) = 1 ∧ t.own = s.own ∧ t.ledger = s.ledger) ∧
  (∀ (h : Half) (s : State), (s.w.evt.get h).queue = [] ∨ (s.w.run.get h).running = false →
    Completes (.eventRecordDelivery h) s fun t =>
      t = s) ∧
  (∀ (h : Half) (init : Nat) (s : State),
    Completes (.evtClrCnt h init) s fun t =>
      t.w.rd h F.EVT_STATUS.LOST = 0 ∧ t.w.rd h F.EVT_STATUS.LOG_OVF = 0 ∧ t.w.rd h F.EVT_STATUS.KNOCK_FULL = 0 ∧
      World.RegsBut [F.EVT_STATUS.LOST.reg] s.w t.w ∧ t.w.evt = s.w.evt ∧ s.Quiet t) ∧
  (∀ (h : Half) (init cls idx tc : Nat) (jobs : List Nat) (s : State) (k : Nat), (s.w.run.get h).running = true → (s.w.freeSlots h
    init).freeSlot h = some k → (s.w.freeSlots h init).knockPending h (cls % 8) (idx % 512) = false →
    Completes (.knockCmd h init cls idx tc jobs) s fun t =>
      t.w.rd h F.EVT_KNOCK_RES.CLASS k = cls % 8 ∧ t.w.rd h F.EVT_KNOCK_RES.INDEX k = idx % 512 ∧ (t.w.slot h k).taken = true ∧
      (t.w.slot h k).init = init ∧
      (cls % 8 = 0 → knockKind (idx % 512) = false → t.w.rd h F.EVT_KNOCK_RES.BUSY k = 0 ∧ t.w.rd h F.EVT_KNOCK_RES.RES k = 4) ∧
      (cls % 8 = 0 → knockKind (idx % 512) = true → s.own.alive h = true → s.own.owns h (idx % 512) = false →
        t.w.rd h F.EVT_KNOCK_RES.BUSY k = 0 ∧ t.w.rd h F.EVT_KNOCK_RES.RES k = 3 ∧ t.w.rd h F.OWN_VIOL.OBJ = idx % 512) ∧
      (cls % 8 = 0 → kindOfObj (idx % 512) = 2 → idx % 512 < 362 → s.own.alive h = true → s.own.owns h (idx % 512) = true →
        t.w.rd .A F.LSW_STATUS.KNOCKED (idx % 512 - 96) = 1 ∧ t.w.rd h F.EVT_KNOCK_RES.RES k = 0) ∧
      (cls % 8 = 1 → 8 ≤ idx % 512 → t.w.rd h F.EVT_KNOCK_RES.RES k = 4) ∧
      (cls % 8 = 4 → idx % 512 < 64 → tc < 2 → t.w.rd h F.EVT_KNOCK_RES.RES k = 2 ∧ t.w.rd h F.EVT_KNOCK_RES.BUSY k = 0)) ∧
  (∀ (h : Half) (init cls idx tc : Nat) (jobs : List Nat) (s : State), (s.w.run.get h).running = true → ∀ k, k < 8 → (s.w.slot h
    k).taken = true ∧ ((s.w.slot h k).init ≠ init ∨ s.w.slotBusy h k = true) →
    Completes (.knockCmd h init cls idx tc jobs) s fun t =>
      t.w.rd h F.EVT_STATUS.KNOCK_FULL = 1 ∧ World.RegsBut [F.EVT_STATUS.KNOCK_FULL.reg] s.w t.w ∧ t.w.evt = s.w.evt ∧ s.Quiet t) ∧
  (∀ (h : Half) (init cls idx tc : Nat) (jobs : List Nat) (s : State), (s.w.run.get h).running = false →
    Completes (.knockCmd h init cls idx tc jobs) s fun t =>
      t = s) ∧
  (∀ (h : Half) (k : Nat) (s : State), k < 8 → s.w.slotBusy h k = true →
    Completes (.knockComplete h k) s fun t =>
      (∀ j, j < 8 → t.w.slotBusy h j = (s.w.slotBusy h j && !(s.w.sameTarget h k).contains j)) ∧ t.w.slotBusy h k = false ∧
      t.w.rd h F.EVT_KNOCK_RES.RES k = s.w.rd h F.EVT_KNOCK_RES.RES k ∧
      t.w.rd h F.EVT_KNOCK_RES.TIME k = satTo 16 ((s.w.now - (s.w.slot h k).start) / us) ∧
      World.RegsBut [F.EVT_KNOCK_RES.BUSY.reg] s.w t.w ∧ s.Quiet t) ∧
  (∀ (h : Half) (k : Nat) (s : State), k < 8 → s.w.slotBusy h k = true → s.w.rd h F.EVT_KNOCK_RES.RES k = 0 → (s.w.slot h k).start +
    knockBound (s.w.rd h F.EVT_KNOCK_RES.CLASS k) ≤ s.w.now →
    Completes (.knockEscalation h k) s fun t =>
      t.w.rd h F.EVT_KNOCK_RES.RES k = 1 ∧ t.w.slotBusy h k = true ∧
      (s.w.rd h F.EVT_KNOCK_RES.CLASS k = 3 → t.w.rd h F.FEA_CNT.ESCAL = satTo 8 (s.w.rd h F.FEA_CNT.ESCAL + 1)) ∧
      World.RegsBut [F.EVT_KNOCK_RES.RES.reg, F.FEA_CNT.ESCAL.reg, F.EVT_STATUS.LOST.reg] s.w t.w ∧ s.Quiet t) ∧
  (∀ (h : Half) (k : Nat) (c : Instr) (s : State), c ∈ [Instr.knockComplete h k, .knockEscalation h k] → 8 ≤ k ∨ s.w.slotBusy h k =
    false →
    Completes c s fun t =>
      t = s)

/-- Parts of R494–R506, R510–R512: OPEN, BLOCK, CLOSE, the check, ABORT, the time limit, the restart, SIBLING, and the debug port.
Where the spec leaves the model a choice: log entries 7, 53. -/
def Obligations.updateSessions : Prop :=
  (∀ (h : Half) (r : Nat) (s : State) (o : UpdOpen) (src len : Nat), (s.w.run.get h).running = true → 1 ≤ r → r ≤ 7 → s.w.rd h
    F.UPD_CTRL.NET_EN = 1 → src = 2 * 2 ^ 28 + o.tag % 2 ^ 28 → len = o.len →
    Completes (.updOpen h r (some o)) s fun t =>
      (s.openRefused h r len = 0 → s.w.lockRefusal h r src = 0 → t.w.sessState h r = 1 ∧ t.w.rd h F.UPD_SESS.KIND r = 2 ∧
        t.w.rd h F.UPD_SESS.BLOCKS r = 0 ∧ t.w.rd h F.UPD_RESULT.RES = 0 ∧ t.w.rd h F.UPD_RESULT.BUSY = 0 ∧
        t.w.sess h r = { source := src, no := t.w.rd h F.UPD_RESULT.SESSION, len := len, written := [], at_ := s.w.now, tech := o.tech }) ∧
      (s.openRefused h r len ≠ 0 → t.w.rd h F.UPD_RESULT.RES = s.openRefused h r len ∧ t.w.upd = s.w.upd ∧
        t.w.rd h F.UPD_CNT.REFUSED = satTo 8 (s.w.rd h F.UPD_CNT.REFUSED + 1) ∧ t.w.sessState h r = s.w.sessState h r) ∧
      (s.openRefused h r len = 0 → s.w.lockRefusal h r src ≠ 0 → t.w.rd h F.UPD_RESULT.RES = s.w.lockRefusal h r src ∧
        t.w.rd h F.UPD_HOLDER.SOURCE = (s.w.sess h r).source % 2 ^ 32 ∧ t.w.upd = s.w.upd) ∧ s.Quiet t) ∧
  (∀ (h : Half) (r : Nat) (s : State) (p : List Byte) (src len : Nat), (s.w.run.get h).running = true → 1 ≤ r → r ≤ 7 → p = s.w.getMem
    h 0 (s.w.rd h F.UPD_REQ_ADDR.ADDR) 16 → src = 2 ^ 28 + u32At p 0 % 2 ^ 28 → len = u64At p 4 →
    Completes (.updOpen h r none) s fun t =>
      (s.openRefused h r len = 0 → s.w.lockRefusal h r src = 0 → t.w.sessState h r = 1 ∧ t.w.rd h F.UPD_SESS.KIND r = 1 ∧
        t.w.rd h F.UPD_RESULT.RES = 0 ∧ (t.w.sess h r).source = src ∧ (t.w.sess h r).len = len) ∧
      (s.openRefused h r len ≠ 0 → t.w.rd h F.UPD_RESULT.RES = s.openRefused h r len ∧ t.w.upd = s.w.upd) ∧ s.Quiet t) ∧
  (∀ (h : Half) (r : Nat) (s : State) (net : Option UpdOpen), (s.w.run.get h).running = false ∨ r = 0 ∨ 7 < r ∨ (net.isSome = true ∧
    s.w.rd h F.UPD_CTRL.NET_EN = 0) →
    Completes (.updOpen h r net) s fun t =>
      t = s) ∧
  (∀ (h : Half) (r : Nat) (s : State) (b : List Byte) (x : Session), (s.w.run.get h).running = true → 1 ≤ r → r ≤ 7 → s.w.rd h
    F.UPD_CTRL.NET_EN = 1 → x = s.w.sess h r →
    Completes (.updBlock h r (some b)) s fun t =>
      (s.w.sessState h r ≠ 1 ∨ x.no ≠ u16At b 0 → t.w.rd h F.UPD_RESULT.RES = 8 ∧ t.w.upd = s.w.upd ∧ s.Quiet t) ∧
      (s.w.blockRefused h r b ≠ 0 → t.w.rd h F.UPD_RESULT.RES = s.w.blockRefused h r b ∧ (t.w.sess h r).written = x.written ∧
        t.w.region h r = s.w.region h r ∧
        t.w.rd h F.UPD_CNT.CRC = (if s.w.blockRefused h r b = 9 then satTo 8 (s.w.rd h F.UPD_CNT.CRC + 1) else s.w.rd h F.UPD_CNT.CRC) ∧ s.Quiet t) ∧
      (s.w.blockRefused h r b = 0 → t.w.rd h F.UPD_RESULT.RES = 0 ∧ t.w.sess h r = { x with written := u32At b 4 :: x.written, at_ := s.w.now } ∧
        t.w.rd h F.UPD_SESS.BLOCKS r = satTo 24 (x.written.length + 1) ∧
        (x.written = [] → t.w.rd h F.UPD_REGION.VALID r = 0 ∧ (r ≤ 5 → t.w.rd h F.STW_STAGE.STAGE = 4) ∧
          (r = 6 → (t.w.roast.get h).pending = {})) ∧ (x.written ≠ [] ∨ 6 ≤ r → s.Quiet t))) ∧
  (∀ (h : Half) (r : Nat) (s : State) (a : Nat), (s.w.run.get h).running = true → 1 ≤ r → r ≤ 7 → s.w.rd h F.UPD_CTRL.NET_EN = 1 → a =
    s.w.rd h F.UPD_REQ_ADDR.ADDR →
    Completes (.updBlock h r none) s fun t =>
      exec (.updBlock h r (some (s.w.getMem h 0 a (16 + u16At (s.w.getMem h 0 a 16) 8)))) s = .next t) ∧
  (∀ (h : Half) (r : Nat) (s : State), (s.w.run.get h).running = true → 1 ≤ r → r ≤ 7 → s.w.rd h F.UPD_CTRL.NET_EN = 0 → s.w.sessState
    h r ≠ 1 →
    Completes (.updBlock h r none) s fun t =>
      t.w.rd h F.UPD_RESULT.RES = 8 ∧ t.w.upd = s.w.upd ∧ World.RegsBut [F.UPD_RESULT.RES.reg] s.w t.w ∧ s.Quiet t) ∧
  (∀ (h : Half) (r : Nat) (s : State) (net : Option (List Byte)), (s.w.run.get h).running = false ∨ r = 0 ∨ 7 < r ∨ (net.isSome = true
    ∧ s.w.rd h F.UPD_CTRL.NET_EN = 0) →
    Completes (.updBlock h r net) s fun t =>
      t = s) ∧
  (∀ (h : Half) (r : Nat) (net : Bool) (s : State), (s.w.run.get h).running = true → 1 ≤ r → r ≤ 7 → net = false ∨ s.w.rd h
    F.UPD_CTRL.NET_EN = 1 →
    Completes (.updClose h r net) s fun t =>
      (s.w.sessState h r = 1 → t.w.sessState h r = 2 ∧ t.w.rd h F.UPD_RESULT.BUSY = 1 ∧ t.w.sess h r = { s.w.sess h r with at_ := s.w.now }) ∧
      (s.w.sessState h r ≠ 1 → t.w.rd h F.UPD_RESULT.RES = 8 ∧ t.w.sessState h r = s.w.sessState h r ∧ t.w.upd = s.w.upd) ∧
      World.RegsBut [F.UPD_SESS.STATE.reg, F.UPD_RESULT.RES.reg] s.w t.w ∧ s.Quiet t) ∧
  (∀ (h : Half) (r : Nat) (s : State) (x : Session), (s.w.run.get h).running = true → s.w.sessState h r = 2 → 1 ≤ r → r ≤ 7 → x =
    s.w.sess h r →
    Completes (.updCheckComplete h r) s fun t =>
      (x.written = [] ∨ (∃ i < blockCount x.len, i ∉ x.written) → t.w.sessState h r = 6 ∧ t.w.rd h F.UPD_RESULT.RES = 12) ∧
      (x.written ≠ [] → (∀ i < blockCount x.len, i ∈ x.written) → r ≤ 5 →
        (imageCheck (s.w.upd.get h).vault r (s.w.region h r).bytes = 0 → t.w.sessState h r = 3 ∧ t.w.rd h F.UPD_RESULT.RES = 0 ∧
          t.w.rd h F.UPD_REGION.VALID r = 1 ∧ (t.w.upd.get h).restart = true) ∧
        (imageCheck (s.w.upd.get h).vault r (s.w.region h r).bytes ≠ 0 → t.w.sessState h r = 6 ∧
          t.w.rd h F.UPD_RESULT.RES = imageCheck (s.w.upd.get h).vault r (s.w.region h r).bytes)) ∧
      (x.written ≠ [] → (∀ i < blockCount x.len, i ∈ x.written) → r = 6 →
        t.w.rd h F.UPD_RESULT.ROAST = (verify (s.w.verEnv h x.tech) (s.w.region h 6).bytes).res % 16 ∧
        ((verify (s.w.verEnv h x.tech) (s.w.region h 6).bytes).res = 0 → t.w.sessState h 6 = 5 ∧ t.w.rd h F.UPD_RESULT.RES = 0 ∧
          (t.w.roast.get h).pending.valid = true ∧ (t.w.roast.get h).pending.image = (s.w.region h 6).bytes) ∧
        ((verify (s.w.verEnv h x.tech) (s.w.region h 6).bytes).res ≠ 0 → t.w.sessState h 6 = 6 ∧ t.w.rd h F.UPD_RESULT.RES = 17 ∧
          (t.w.roast.get h).active = (s.w.roast.get h).active ∧ (t.w.roast.get h).pending.valid = false)) ∧ s.Quiet t) ∧
  (∀ (h : Half) (r : Nat) (s : State), (s.w.run.get h).running = false ∨ s.w.sessState h r ≠ 2 ∨ r = 0 ∨ 7 < r →
    Completes (.updCheckComplete h r) s fun t =>
      t = s) ∧
  (∀ (h : Half) (r : Nat) (net : Bool) (s : State), (s.w.run.get h).running = true → 1 ≤ r → r ≤ 7 → net = false ∨ s.w.rd h
    F.UPD_CTRL.NET_EN = 1 →
    Completes (.updAbort h r net) s fun t =>
      (s.w.sessState h r = 3 ∨ s.w.sessState h r = 4 → t.w.rd h F.UPD_RESULT.RES = 20 ∧ t.w.sessState h r = s.w.sessState h r) ∧
      (s.w.sessState h r = 1 ∨ s.w.sessState h r = 2 → t.w.sessState h r = 6 ∧ t.w.rd h F.UPD_RESULT.RES = 18 ∧
        t.w.rd h F.UPD_CNT.KNOCKS = satTo 8 (s.w.rd h F.UPD_CNT.KNOCKS + 1) ∧ t.w.sess h r = ⟨0, 0, 0, [], 0, false⟩) ∧
      (s.w.sessOpen h r = false → t.w.rd h F.UPD_RESULT.RES = 8 ∧ t.w.upd = s.w.upd) ∧ s.Quiet t) ∧
  (∀ (h : Half) (r : Nat) (net : Bool) (c : Instr) (s : State), c ∈ [Instr.updClose h r net, .updAbort h r net] → (s.w.run.get
    h).running = false ∨ r = 0 ∨ 7 < r ∨ (net = true ∧ s.w.rd h F.UPD_CTRL.NET_EN = 0) →
    Completes c s fun t =>
      t = s) ∧
  (∀ (h : Half) (r : Nat) (s : State), s.w.sessState h r = 1 ∨ s.w.sessState h r = 2 → (s.w.sess h r).at_ + 60 * sec ≤ s.w.now →
    Completes (.updSessionTimeout h r) s fun t =>
      t.w.sessState h r = 6 ∧ t.w.rd h F.UPD_RESULT.RES = 19 ∧ t.w.rd h F.UPD_CNT.KNOCKS = satTo 8 (s.w.rd h F.UPD_CNT.KNOCKS + 1) ∧ s.Quiet t) ∧
  (∀ (h : Half) (r : Nat) (s : State), (s.w.sessState h r ≠ 1 ∧ s.w.sessState h r ≠ 2) ∨ s.w.now < (s.w.sess h r).at_ + 60 * sec →
    Completes (.updSessionTimeout h r) s fun t =>
      t = s) ∧
  (∀ (h : Half) (s : State), (s.w.run.get h).running = true → (s.w.upd.get h).restart = true → ∀ r, 1 ≤ r → r ≤ 7 → s.w.sessState h r
    ≠ 1 →
    Completes (.updRestart h) s fun t =>
      (s.mayRun h = true → (t.w.run.get h).running = true ∧ (t.w.run.get h).cause = 5 ∧ (t.own.low.get h).heldReset = false) ∧
      (s.mayRun h = false → (t.w.run.get h).running = false ∧ t.own.alive h = false) ∧ t.ledger = s.ledger) ∧
  (∀ (h : Half) (s : State), (s.w.run.get h).running = false ∨ (s.w.upd.get h).restart = false ∨ ∃ r, 1 ≤ r ∧ r ≤ 7 ∧ s.w.sessState h
    r = 1 →
    Completes (.updRestart h) s fun t =>
      t = s) ∧
  (∀ (h : Half) (init : Nat) (s : State),
    Completes (.updClrCnt h init) s fun t =>
      t.w.reg h F.UPD_CNT.REFUSED 0 = 0 ∧ World.RegsBut [F.UPD_CNT.REFUSED.reg] s.w t.w ∧ t.w.upd = s.w.upd ∧ s.Quiet t) ∧
  (∀ (h : Half) (r : Nat) (s : State), (s.w.run.get h).running = true → 1 ≤ r → r ≤ 5 → s.w.restoreDue h r = true →
    Completes (.siblingRestore h r) s fun t =>
      (s.restoreRefused h r ≠ 0 → t.w.rd h F.UPD_RESULT.RES = s.restoreRefused h r ∧ t.w.rd h F.UPD_CNT.REFUSED = satTo 8 (s.w.rd h F.UPD_CNT.REFUSED + 1) ∧
        t.w.upd = s.w.upd ∧ s.Quiet t) ∧
      (s.restoreRefused h r = 0 → t.w.rd h F.UPD_CNT.RESTORES = satTo 8 (s.w.rd h F.UPD_CNT.RESTORES + 1) ∧
        (imageCheck (s.w.upd.get h).vault r (s.w.region h.other r).bytes = 0 → t.w.sessState h r = 3 ∧ t.w.rd h F.UPD_REGION.VALID r = 1 ∧
          t.w.rd h F.UPD_REGION.RESTORED r = 1 ∧ (t.w.region h r).img = (s.w.region h.other r).img) ∧
        (imageCheck (s.w.upd.get h).vault r (s.w.region h.other r).bytes ≠ 0 → t.w.sessState h r = 6 ∧ t.w.rd h F.UPD_REGION.VALID r = 0 ∧
          t.w.rd h F.UPD_RESULT.RES = imageCheck (s.w.upd.get h).vault r (s.w.region h.other r).bytes)) ∧ t.ledger = s.ledger) ∧
  (∀ (h : Half) (r : Nat) (s : State), (s.w.run.get h).running = false ∨ r = 0 ∨ 5 < r ∨ s.w.restoreDue h r = false →
    Completes (.siblingRestore h r) s fun t =>
      t = s) ∧
  (∀ (h : Half) (s : State) (b : List Byte), (s.w.run.get h).running = true → b = s.w.getMem h 0 (s.w.rd h F.KEY_DBG_ADDR.ADDR) 136 →
    Completes (.debugUnlock h) s fun t =>
      t.w.rd h F.KEY_DBG_STAT.RES = s.w.tokenCheck h b ∧
      (s.w.tokenCheck h b ≠ 0 → (t.w.upd.get h).dbg = (s.w.upd.get h).dbg ∧
        World.RegsBut [F.KEY_DBG_STAT.RES.reg, F.KEY_NONCE.NONCE.reg] s.w t.w ∧ s.Quiet t) ∧
      (s.w.tokenCheck h b = 0 → (t.w.upd.get h).dbg = some (byteAt b 20, u64At b 28) ∧ t.w.rd h F.KEY_STATUS.DEBUG_OPEN = 1 ∧
        t.own.alive h = false)) ∧
  (∀ (h : Half) (s : State), (s.w.run.get h).running = false →
    Completes (.debugUnlock h) s fun t =>
      t = s) ∧
  (∀ (h : Half) (s : State) (scope na : Nat), (s.w.upd.get h).dbg = some (scope, na) → na ≤ s.w.mt h →
    Completes (.debugExpiry h) s fun t =>
      (t.w.upd.get h).dbg = none ∧ t.w.rd h F.KEY_STATUS.DEBUG_OPEN = 0 ∧ (t.w.run.get h).running = false ∧ t.own.alive h = false ∧ t.ledger = s.ledger) ∧
  (∀ (h : Half) (s : State), ∀ d ∈ (s.w.upd.get h).dbg, s.w.mt h < d.2 →
    Completes (.debugExpiry h) s fun t =>
      t = s)

/-- Parts of R525–R527, R529–R531, R543: the states of LOGIC_IN with HOLDUP and its end, the clamp, the supply class, READY, a feed's
measurement, fuse and disconnect, and the power counters.
Where the spec leaves the model a choice: log entries 20, 55. -/
def Obligations.powerEntry : Prop :=
  (∀ (v i : Nat) (clamped : Bool) (s : State), s.w.pwr.fail = false → s.w.rd .A F.PWR_STATUS.LSTATE ≠ 0 →
    Completes (.logicInStateChange v i clamped) s fun t =>
      t.w.rd .A F.PWR_LOGIC.V = satTo 16 v ∧ t.w.rd .A F.PWR_LOGIC.I = satTo 16 i ∧
      t.w.rd .A F.PWR_STATUS.LSTATE = (if s.w.rd .A F.PWR_STATUS.LSTATE = 3 ∧ v < 800 then 3
        else if (if s.w.pwr.classed = true ∧ s.w.rd .A F.PWR_STATUS.SYS24 = 0 then 3500 else 3600) < v then 4
        else if 900 ≤ v then 1 else if 600 ≤ v then 2 else 3) ∧ s.Quiet t) ∧
  (∀ (v i : Nat) (clamped : Bool) (s : State), s.w.pwr.fail = false → s.w.rd .A F.PWR_STATUS.LSTATE ≠ 0 → s.w.rd .A
    F.PWR_STATUS.LSTATE ≠ 3 → v < 600 →
    Completes (.logicInStateChange v i clamped) s fun t =>
      t.w.rd .A F.PWR_HOLDUP.ACTIVE = 1 ∧ t.w.pwr.holdAt = s.w.now ∧ t.w.rd .A F.PWR_CNT.HOLDUP = satInc F.PWR_CNT.HOLDUP.w (s.w.rd .A F.PWR_CNT.HOLDUP) ∧
      t.w.rd .A F.DSP_STATUS.FAST = 1 ∧ t.w.rd .A F.DSP_STATUS.BL = 0 ∧ (∀ c, c < 4 → t.w.rd .A F.FAN_STATUS.DUTY c = 0) ∧
      t.w.rd .A F.PWR_STATUS.LAST_LOSS = (if s.w.latch.pwrHold = false ∧ (s.w.run.get .A).running = false ∧ (s.w.run.get .B).running = false then 1
        else s.w.rd .A F.PWR_STATUS.LAST_LOSS) ∧ s.Quiet t) ∧
  (∀ (v i : Nat) (clamped : Bool) (s : State), s.w.pwr.fail = false → s.w.rd .A F.PWR_STATUS.LSTATE = 3 → 800 ≤ v →
    Completes (.logicInStateChange v i clamped) s fun t =>
      t.w.rd .A F.PWR_HOLDUP.ACTIVE = 0 ∧ t.w.rd .A F.PWR_STATUS.LSTATE ≠ 3 ∧ t.w.run = s.w.run ∧ t.w.latch = s.w.latch ∧ t.w.dsp = s.w.dsp ∧ s.Quiet t) ∧
  (∀ (v i : Nat) (s : State), s.w.pwr.fail = false → s.w.rd .A F.PWR_STATUS.LSTATE = 4 → 3600 < v → s.w.pwr.clampSeen = false →
    Completes (.logicInStateChange v i true) s fun t =>
      t.w.pwr.clampSeen = true ∧ t.w.rd .A F.PWR_CNT.CLAMP = satInc F.PWR_CNT.CLAMP.w (s.w.rd .A F.PWR_CNT.CLAMP) ∧ t.w.rd .A F.PWR_STATUS.LSTATE = 4 ∧ s.Quiet t) ∧
  (∀ (v i : Nat) (clamped : Bool) (s : State), s.w.pwr.fail = true ∨ s.w.rd .A F.PWR_STATUS.LSTATE = 0 →
    Completes (.logicInStateChange v i clamped) s fun t =>
      t.w.rd .A F.PWR_STATUS.LSTATE = s.w.rd .A F.PWR_STATUS.LSTATE ∧ t.w.rd .A F.PWR_HOLDUP.ACTIVE = s.w.rd .A F.PWR_HOLDUP.ACTIVE ∧ s.Quiet t) ∧
  (∀ (mean : Nat) (s : State), s.w.latch.logicValid = true → s.w.pwr.classed = false → s.w.latch.validAt + 100000000 ≤ s.w.now →
    Completes (.supplyClassSelect mean) s fun t =>
      t.w.rd .A F.PWR_STATUS.SYS24 = (if mean ≤ 1800 then 0 else 1) ∧ t.w.pwr = { s.w.pwr with classed := true } ∧
      World.RegsBut [F.PWR_STATUS.SYS24.reg] s.w t.w ∧ s.Quiet t) ∧
  (∀ (mean : Nat) (s : State), s.w.latch.logicValid = false ∨ s.w.pwr.classed = true ∨ s.w.now < s.w.latch.validAt + 100000000 →
    Completes (.supplyClassSelect mean) s fun t =>
      t = s) ∧
  (∀ (v : Nat) (s : State),
    Completes (.holdupReady v) s fun t =>
      t.w.rd .A F.PWR_HOLDUP.V = satTo 16 v ∧ t.w.rd .A F.PWR_HOLDUP.READY = (if 4600 ≤ v then 1 else 0) ∧
      World.RegsBut [F.PWR_HOLDUP.V.reg] s.w t.w ∧ t.w.rd .A F.PWR_HOLDUP.ACTIVE = s.w.rd .A F.PWR_HOLDUP.ACTIVE ∧ t.w.pwr = s.w.pwr ∧ s.Quiet t) ∧
  (∀ (f v i : Nat) (s : State), f < 4 →
    Completes (.feedMeasurement f v i) s fun t =>
      t.w.rd .A F.PWR_FEED.V f = satTo 12 v ∧ t.w.rd .A F.PWR_FEED.I f = satTo 12 i ∧ t.w.rd .A F.PWR_FEED.CONNECT f = s.w.rd .A F.PWR_FEED.CONNECT f ∧
      (∀ g, g < 4 → g ≠ f → t.w.reg .A F.PWR_FEED.V g = s.w.reg .A F.PWR_FEED.V g) ∧ World.RegsBut [F.PWR_FEED.V.reg] s.w t.w ∧ s.Quiet t) ∧
  (∀ (f v i : Nat) (s : State), 4 ≤ f →
    Completes (.feedMeasurement f v i) s fun t =>
      t = s) ∧
  (∀ (f stud behind : Nat) (s : State), f < 4 → 800 ≤ stud →
    Completes (.fuseOpen f stud behind) s fun t =>
      t.w.rd .A F.PWR_FEED.STUD_LOW f = 0 ∧
      t.w.rd .A F.PWR_FEED.FUSE_OPEN f = (if behind < 450 ∧ s.w.rd .A F.PWR_FEED.CONNECT f = 1 then 1 else 0) ∧
      (behind < 450 → s.w.rd .A F.PWR_FEED.CONNECT f = 1 → s.w.rd .A F.PWR_FEED.FUSE_OPEN f = 0 → f < 2 → f ∈ t.w.lsw.lost) ∧
      (450 ≤ behind → t.w.lsw = s.w.lsw) ∧ s.Quiet t) ∧
  (∀ (f stud behind : Nat) (s : State), f < 4 → stud < 800 →
    Completes (.fuseOpen f stud behind) s fun t =>
      t.w.rd .A F.PWR_FEED.STUD_LOW f = 1 ∧ t.w.rd .A F.PWR_FEED.FUSE_OPEN f = 0 ∧
      (s.w.rd .A F.PWR_FEED.STUD_LOW f = 0 → f < 2 → f ∈ t.w.lsw.lost) ∧
      (s.w.rd .A F.PWR_FEED.STUD_LOW f = 1 → t.w.lsw = s.w.lsw) ∧ s.Quiet t) ∧
  (∀ (f stud behind : Nat) (s : State), 4 ≤ f →
    Completes (.fuseOpen f stud behind) s fun t =>
      t = s) ∧
  (∀ (h : Half) (init f : Nat) (on : Bool) (s : State), f < 4 → s.own.alive h = true → s.own.owns h (358 + f) = true →
    Completes (.feedConnect h init f on) s fun t =>
      t.w.rd .A F.PWR_FEED.CONNECT f = (if on = true then 1 else 0) ∧ World.RegsBut [F.PWR_FEED.V.reg] s.w t.w ∧ t.w.lsw = s.w.lsw ∧
      t.w.rd .A F.PWR_FEED.V f = s.w.rd .A F.PWR_FEED.V f ∧ s.Quiet t) ∧
  (∀ (h : Half) (init f : Nat) (on : Bool) (s : State), f < 4 → s.own.alive h = true → s.own.owns h (358 + f) = false →
    Completes (.feedConnect h init f on) s fun t =>
      t.w.rd h F.OWN_VIOL.OBJ = 358 + f ∧ t.w.rd h F.OWN_VIOL.INIT = init % 16 ∧ World.RegsBut [F.OWN_VIOL.OBJ.reg, F.EVT_STATUS.LOST.reg] s.w t.w ∧ s.Quiet t) ∧
  (∀ (h : Half) (init f : Nat) (on : Bool) (s : State), 4 ≤ f ∨ s.own.alive h = false →
    Completes (.feedConnect h init f on) s fun t =>
      t = s) ∧
  (∀ (h : Half) (init : Nat) (s : State), s.own.alive h = true → s.own.ownsAny h 354 8 = true →
    Completes (.pwrClrCnt h init) s fun t =>
      t.w.reg .A F.PWR_CNT.HOLDUP 0 = 0 ∧ World.RegsBut [F.PWR_CNT.HOLDUP.reg] s.w t.w ∧ t.w.pwr = s.w.pwr ∧ s.Quiet t) ∧
  (∀ (h : Half) (init : Nat) (s : State), s.own.alive h = true → s.own.ownsAny h 354 8 = false →
    Completes (.pwrClrCnt h init) s fun t =>
      t.w.rd h F.OWN_VIOL.OBJ = 354 + s.w.sel h F.FAN_SEL.CH init ∧ t.w.rd h F.OWN_VIOL.INIT = init % 16 ∧
      World.RegsBut [F.OWN_VIOL.OBJ.reg, F.EVT_STATUS.LOST.reg] s.w t.w ∧ s.Quiet t)

/-- Parts of R107, R478, R531, R535, R537: what a power-fail leaves in each half, the recovery, SYS_SHDN, the reset 200 ms later, the
release, and an external low. -/
def Obligations.powerLoss : Prop :=
  (∀ (wrote : Bool) (ma mb : List CupMeas) (s : State), s.w.rd .A F.PWR_STATUS.LSTATE = 3 → s.w.pwr.fail = false → s.w.pwr.holdAt +
    100000000 ≤ s.w.now ∨ s.w.rd .A F.PWR_HOLDUP.V ≤ 2400 →
    Completes (.powerFail wrote ma mb) s fun t =>
      t.w.pwr.fail = true ∧ t.w.latch.logicValid = false ∧ (∀ h, (s.w.shut.get h).step ≠ 4 → (t.w.run.get h).running = false) ∧ t.ledger = s.ledger ∧
      (∀ h, (s.w.run.get h).running = true → (s.w.shut.get h).step ≠ 4 → t.own.alive h = false ∧ (t.w.run.get h).cause = 3 ∧
        t.w.rd h F.STW_HOLD.HOLD_REQ = 0 ∧ t.w.rd .A F.PWR_STATUS.LAST_LOSS = 2 ∧ (t.w.shut.get h).step = 5 ∧
        (wrote = false → (s.w.shut.get h).step = 0 → (t.w.shut.get h).trunc = true) ∧
        ∀ n, n < 40 → t.w.rd h F.CUP_REC_W0.RESULT n = 3 ∧ t.w.rd h F.CUP_REC_W0.REASON n = 3) ∧
      (∀ h, (s.w.shut.get h).step = 4 → (t.w.shut.get h).step = 5 ∧ t.w.rd h F.STW_HOLD.HOLD_REQ = 0 ∧ t.w.rd h F.CUP_STATUS.PHASE = 5)) ∧
  (∀ (wrote : Bool) (ma mb : List CupMeas) (s : State), s.w.rd .A F.PWR_STATUS.LSTATE ≠ 3 ∨ s.w.pwr.fail = true ∨ s.w.now <
    s.w.pwr.holdAt + 100000000 ∧ 2400 < s.w.rd .A F.PWR_HOLDUP.V →
    Completes (.powerFail wrote ma mb) s fun t =>
      t = s) ∧
  (∀ (v : Nat) (s : State), s.w.pwr.fail = true → 800 ≤ v → (s.w.run.get .A).running = false → (s.w.run.get .B).running = false →
    Completes (.powerFailRecovery v) s fun t =>
      t.w.pwr.fail = false ∧ t.w.latch.logicValid = true ∧ t.w.latch.validAt = s.w.now ∧ t.w.latch.startup = true ∧
      t.w.rd .A F.PWR_STATUS.LSTATE = (if s.w.classLimit < v then 4 else if 900 ≤ v then 1 else 2) ∧
      t.w.rd .A F.PWR_HOLDUP.ACTIVE = 0 ∧ t.w.rd .A F.PWR_STATUS.LAST_LOSS = s.w.rd .A F.PWR_STATUS.LAST_LOSS ∧ t.ledger = s.ledger ∧
      ∀ h, (t.w.run.get h).running = t.mayRun h ∧ (t.w.shut.get h).step = 0 ∧ (t.mayRun h = true → (t.w.run.get h).cause = 3)) ∧
  (∀ (v : Nat) (s : State), s.w.pwr.fail = false ∨ v < 800 ∨ (s.w.run.get .A).running = true ∨ (s.w.run.get .B).running = true →
    Completes (.powerFailRecovery v) s fun t =>
      t = s) ∧
  (∀ (ts : Int) (t0 : Nat) (s : State), s.w.rd .A F.PWR_SHDN.ASSERTED = 0 → s.w.pwr.hotAt = some t0 → t0 + 1000000000 ≤ s.w.now →
    (s.w.rd .A F.PWR_SHDN.T_SH : Int) ≤ ts ∨ ts < -50 →
    Completes (.sysShdnAssert ts) s fun t =>
      t.w.rd .A F.PWR_SHDN.ASSERTED = 1 ∧ t.w.rd .A F.PWR_SHDN.PIN_LOW = 1 ∧ t.w.rdI .A F.PWR_SHDN.TS = clampI (-128) 127 ts ∧
      t.w.rd .A F.PWR_CNT.SHDN = satInc F.PWR_CNT.SHDN.w (s.w.rd .A F.PWR_CNT.SHDN) ∧ t.w.pwr.shdnAt = s.w.now ∧
      (∀ f, f < 4 → t.w.rd .A F.PWR_FEED.CONNECT f = if (s.w.gren (358 + f)).state = 1 then 1 else 0) ∧
      (∀ c, c < 4 → (t.w.fan c).green = true) ∧ t.w.dsp.segGreen = true ∧ t.w.dsp.pnlGreen = true ∧ t.w.rd .A F.DSP_STATUS.FAST = 1 ∧ s.Quiet t) ∧
  (∀ (ts : Int) (s : State), s.w.rd .A F.PWR_SHDN.ASSERTED = 1 ∨ s.w.pwr.hotAt = none →
    Completes (.sysShdnAssert ts) s fun t =>
      t.w.rdI .A F.PWR_SHDN.TS = clampI (-128) 127 ts ∧ t.w.rd .A F.PWR_SHDN.ASSERTED = s.w.rd .A F.PWR_SHDN.ASSERTED ∧
      t.w.pwr.shdnAt = s.w.pwr.shdnAt ∧ World.RegsBut [F.PWR_SHDN.TS.reg] s.w t.w ∧ s.Quiet t) ∧
  (∀ (s : State), s.w.rd .A F.PWR_SHDN.ASSERTED = 1 → s.w.pwr.shdnAt + 200000000 ≤ s.w.now →
    Completes .sysShdnHalfReset s fun t =>
      (∀ h, (t.w.run.get h).running = false ∧ ((s.w.run.get h).running = true → t.own.alive h = false ∧ (t.w.run.get h).cause = 3)) ∧
      t.w.latch = s.w.latch ∧ t.ledger = s.ledger) ∧
  (∀ (s : State), s.w.rd .A F.PWR_SHDN.ASSERTED = 0 ∨ s.w.now < s.w.pwr.shdnAt + 200000000 →
    Completes .sysShdnHalfReset s fun t =>
      t = s) ∧
  (∀ (ts : Int) (t0 : Nat) (s : State), s.w.rd .A F.PWR_SHDN.ASSERTED = 1 → s.w.pwr.coldAt = some t0 → t0 + 60000000000 ≤ s.w.now →
    -50 ≤ ts → ts < (s.w.rd .A F.PWR_SHDN.T_SH : Int) - 10 →
    Completes (.sysShdnRelease ts) s fun t =>
      t.w.rd .A F.PWR_SHDN.ASSERTED = 0 ∧ t.w.rd .A F.PWR_SHDN.PIN_LOW = 0 ∧ t.w.rdI .A F.PWR_SHDN.TS = clampI (-128) 127 ts ∧ t.ledger = s.ledger ∧
      ∀ h, ((s.w.run.get h).running = false → (s.w.shut.get h).step < 4 → (t.w.run.get h).running = t.mayRun h ∧
        (t.mayRun h = true → (t.w.run.get h).cause = 3)) ∧ (4 ≤ (s.w.shut.get h).step → (t.w.run.get h).running = (s.w.run.get h).running)) ∧
  (∀ (ts : Int) (s : State), s.w.rd .A F.PWR_SHDN.ASSERTED = 0 ∨ s.w.pwr.coldAt = none →
    Completes (.sysShdnRelease ts) s fun t =>
      t.w.rd .A F.PWR_SHDN.ASSERTED = s.w.rd .A F.PWR_SHDN.ASSERTED ∧ t.w.rdI .A F.PWR_SHDN.TS = clampI (-128) 127 ts ∧ t.w.run = s.w.run ∧
      World.RegsBut [F.PWR_SHDN.TS.reg] s.w t.w ∧ s.Quiet t) ∧
  (∀ (low : Bool) (s : State),
    Completes (.sysShdnExternal low) s fun t =>
      t.w.rd .A F.PWR_SHDN.PIN_LOW = (if low = true ∨ s.w.rd .A F.PWR_SHDN.ASSERTED = 1 then 1 else 0) ∧
      t.w.rd .A F.PWR_SHDN.ASSERTED = s.w.rd .A F.PWR_SHDN.ASSERTED ∧ t.w.pwr = s.w.pwr ∧ t.w.run = s.w.run ∧
      World.RegsBut [F.PWR_SHDN.TS.reg, F.EVT_STATUS.LOST.reg] s.w t.w ∧ s.Quiet t)

/-- Parts of R533, R535, R536: derating with its 3 K and 60 s, the 100 % override between T_SH − 8 and T_SH − 5, the warnings from TC_OUT, a
faulty thermistor.
Parts of R538–R542: the on-time of a frame, the measured speed and the correction, the command of the owner with the skip bands, and what
a suspect or stalled channel does.
Where the spec leaves the model a choice: log entries 3, 55. -/
def Obligations.coolingAndFans : Prop :=
  (∀ (ta : Int) (s : State), 700 < ta →
    Completes (.derateChange ta) s fun t =>
      t.w.rd .A F.PWR_STATUS.DERATE = 1 ∧ t.w.rdI .A F.PWR_TEMP.TA = clampI (-128) 127 (ta / 10) ∧ t.w.pwr.coolAt = none ∧
      World.RegsBut [F.PWR_STATUS.DERATE.reg, F.PWR_TEMP.TA.reg, F.EVT_STATUS.LOST.reg] s.w t.w ∧ s.Quiet t) ∧
  (∀ (ta : Int) (t0 : Nat) (s : State), ta ≤ 670 → s.w.pwr.bad.getD 2 false = false → s.w.pwr.coolAt = some t0 →
    Completes (.derateChange ta) s fun t =>
      t.w.rd .A F.PWR_STATUS.DERATE = (if t0 + 60000000000 ≤ s.w.now then 0 else s.w.rd .A F.PWR_STATUS.DERATE) ∧ t.w.pwr.coolAt = some t0 ∧
      t.w.rdI .A F.PWR_TEMP.TA = clampI (-128) 127 (ta / 10) ∧ s.Quiet t) ∧
  (∀ (ta : Int) (s : State), ta ≤ 700 → 670 < ta ∨ s.w.pwr.coolAt = none → s.w.pwr.bad.getD 2 false = false →
    Completes (.derateChange ta) s fun t =>
      t.w.rd .A F.PWR_STATUS.DERATE = s.w.rd .A F.PWR_STATUS.DERATE ∧ t.w.pwr.coolAt = (if ta ≤ 670 then some s.w.now else none) ∧ s.Quiet t) ∧
  (∀ (ta : Int) (s : State), s.w.pwr.bad.getD 2 false = true →
    Completes (.derateChange ta) s fun t =>
      t.w.rd .A F.PWR_STATUS.DERATE = 1 ∧ s.Quiet t) ∧
  (∀ (ts : Int) (s : State),
    Completes (.coolingOverride ts) s fun t =>
      t.w.rdI .A F.PWR_SHDN.TS = clampI (-128) 127 ts ∧
      t.w.rd .A F.PWR_SHDN.OVERRIDE = (if ts < -50 ∨ 150 < ts ∨ (s.w.rd .A F.PWR_SHDN.T_SH : Int) - 5 ≤ ts then 1
        else if ts ≤ (s.w.rd .A F.PWR_SHDN.T_SH : Int) - 8 then 0 else s.w.rd .A F.PWR_SHDN.OVERRIDE) ∧
      (∀ c, c < 4 → t.w.rd .A F.PWR_SHDN.OVERRIDE = 1 → s.w.rd .A F.PWR_STATUS.LSTATE ≠ 0 → s.w.rd .A F.PWR_STATUS.LSTATE ≠ 3 →
        (s.w.fan c).pause = false → s.w.stalled c = false → t.w.rd .A F.FAN_STATUS.DUTY c = 100) ∧
      t.w.rd .A F.PWR_SHDN.ASSERTED = s.w.rd .A F.PWR_SHDN.ASSERTED ∧
      World.RegsBut [F.PWR_SHDN.TS.reg, F.FAN_STATUS.DUTY.reg, F.EVT_STATUS.LOST.reg] s.w t.w ∧ s.Quiet t) ∧
  (∀ (tin tout ta : Int) (s : State), -50 ≤ tout → tout ≤ 150 →
    Completes (.coolantTemperatureWarning tin tout ta) s fun t =>
      t.w.rdI .A F.PWR_TEMP.TC_IN = clampI (-128) 127 tin ∧ t.w.rdI .A F.PWR_TEMP.TC_OUT = clampI (-128) 127 tout ∧
      ((s.w.rd .A F.PWR_SHDN.T_SH : Int) - 8 ≤ tout → t.w.pwr.warn = true) ∧ (tout ≤ (s.w.rd .A F.PWR_SHDN.T_SH : Int) - 11 → t.w.pwr.warn = false) ∧
      ((s.w.rd .A F.PWR_SHDN.T_SH : Int) - 4 ≤ tout → t.w.pwr.crit = true) ∧ (tout ≤ (s.w.rd .A F.PWR_SHDN.T_SH : Int) - 7 → t.w.pwr.crit = false) ∧
      ((s.w.rd .A F.PWR_SHDN.T_SH : Int) - 11 < tout → tout < (s.w.rd .A F.PWR_SHDN.T_SH : Int) - 8 → t.w.pwr.warn = s.w.pwr.warn) ∧
      ((s.w.rd .A F.PWR_SHDN.T_SH : Int) - 7 < tout → tout < (s.w.rd .A F.PWR_SHDN.T_SH : Int) - 4 → t.w.pwr.crit = s.w.pwr.crit) ∧ s.Quiet t) ∧
  (∀ (tin tout ta : Int) (s : State), tin < -50 ∨ 150 < tin ∨ tout < -50 ∨ 150 < tout ∨ ta < -50 ∨ 150 < ta → s.w.pwr.bad = [false,
    false, false] →
    Completes (.coolantTemperatureWarning tin tout ta) s fun t =>
      t.w.rd .A F.PWR_TEMP.SENSOR_FAULT = 1 ∧
      t.w.pwr.bad = [decide (tin < -50 ∨ 150 < tin), decide (tout < -50 ∨ 150 < tout), decide (ta < -50 ∨ 150 < ta)] ∧
      (ta < -50 ∨ 150 < ta → t.w.rd .A F.PWR_STATUS.DERATE = 1) ∧
      (tout < -50 ∨ 150 < tout → t.w.pwr.warn = s.w.pwr.warn ∧ t.w.pwr.crit = s.w.pwr.crit) ∧
      (∀ c, c < 4 → s.w.rd .A F.PWR_STATUS.LSTATE ≠ 0 → s.w.rd .A F.PWR_STATUS.LSTATE ≠ 3 → (s.w.fan c).pause = false → s.w.stalled c = false →
        t.w.rd .A F.FAN_STATUS.DUTY c = 100) ∧ s.Quiet t) ∧
  (∀ (tin tout ta : Int) (t0 : Nat) (s : State), -50 ≤ tin → tin ≤ 150 → -50 ≤ tout → tout ≤ 150 → -50 ≤ ta → ta ≤ 150 → s.w.pwr.bad =
    [true, false, false] → s.w.pwr.okAt.getD 0 none = some t0 → s.w.pwr.okAt.length = 3 →
    Completes (.coolantTemperatureWarning tin tout ta) s fun t =>
      (t0 + 10000000000 ≤ s.w.now → t.w.rd .A F.PWR_TEMP.SENSOR_FAULT = 0 ∧ t.w.pwr.bad = [false, false, false]) ∧
      (s.w.now < t0 + 10000000000 → t.w.rd .A F.PWR_TEMP.SENSOR_FAULT = s.w.rd .A F.PWR_TEMP.SENSOR_FAULT ∧ t.w.pwr.bad = [true, false, false]) ∧ s.Quiet t) ∧
  (∀ (c : Nat) (s : State), c < 4 →
    Completes (.fanFrame c) s fun t =>
      (t.w.fan c).on = s.w.fanDuty c * 400000 - (s.w.fan c).owe ∧ (t.w.fan c).owe = 0 ∧
      (∀ k, k < 4 → t.w.rd .A F.FAN_STATUS.DUTY k = s.w.fanDuty k % 128) ∧ World.RegsBut [F.FAN_STATUS.DUTY.reg] s.w t.w ∧
      (s.w.rd .A F.PWR_STATUS.LSTATE = 3 → t.w.rd .A F.FAN_STATUS.DUTY c = 0) ∧
      (s.w.rd .A F.PWR_STATUS.LSTATE ≠ 0 → s.w.rd .A F.PWR_STATUS.LSTATE ≠ 3 → (s.w.fan c).pause = false → (s.w.fan c).kick = 0 →
        s.w.stalled c = false → (s.w.fan c).green = false → (if c = 3 then 40 else 20) ≤ t.w.rd .A F.FAN_STATUS.DUTY c ∧ t.w.rd .A F.FAN_STATUS.DUTY c ≤ 100) ∧ s.Quiet t) ∧
  (∀ (c : Nat) (c4 : Instr) (s : State), 4 ≤ c → c4 ∈ [Instr.fanFrame c, .fanSpeedMeasure c 0 1, .fanSuspect c 200, .fanKickEnd c 900,
    .fanKickPauseEnd c, .fanRekick c] →
    Completes c4 s fun t =>
      t = s) ∧
  (∀ (c e1 e2 : Nat) (s : State), c < 4 →
    Completes (.fanSpeedMeasure c e1 e2) s fun t =>
      t.w.rd .A F.FAN_STATUS.RPM c = satTo 16 (fanRpm e1 e2) ∧
      (5000000 ≤ e1 → e1 < e2 → e2 ≤ 50000000 → fanRpm e1 e2 = roundN (30000000000 / ((e2 - e1 : Nat) : Rat))) ∧
      (e1 < 5000000 ∨ e2 ≤ e1 ∨ 50000000 < e2 → fanRpm e1 e2 = 0) ∧
      (c < 3 → t.w.rd .A F.FAN_STATUS.SKIPPED c = b2n (s.w.skipBand (s.w.fanAsk c)).isSome) ∧
      (s.w.fanDuty c = 100 → (t.w.fan c).owe = 0) ∧ (s.w.fanDuty c ≠ 100 → (t.w.fan c).owe = min e2 50000000 - (s.w.fan c).on) ∧ s.Quiet t) ∧
  (∀ (c e1 e2 tgt : Nat) (s : State), c < 4 → (s.w.fan c).green = false → (s.w.fan c).kick = 0 → s.w.stalled c = false → s.w.rd .A
    F.FAN_STATUS.TACH_OPEN c = 0 → (s.w.fanTarget c).1 = tgt → minDuty c ≤ (s.w.fan c).loop → (s.w.fan c).loop ≤ 100 → c = 3 ∨
    s.w.skipBand (fanRpm e1 e2) = none →
    Completes (.fanSpeedMeasure c e1 e2) s fun t =>
      (fanRpm e1 e2 = tgt → (t.w.fan c).loop = (s.w.fan c).loop) ∧
      (fanRpm e1 e2 < tgt → (s.w.fan c).loop ≤ (t.w.fan c).loop ∧ (t.w.fan c).loop ≤ min 100 ((s.w.fan c).loop + 5)) ∧
      (tgt < fanRpm e1 e2 → max (minDuty c) ((s.w.fan c).loop - 5) ≤ (t.w.fan c).loop ∧ (t.w.fan c).loop ≤ (s.w.fan c).loop)) ∧
  (∀ (c e1 e2 t0 : Nat) (s : State), c < 4 → s.w.rd .A F.FAN_STATUS.TACH_OPEN c = 1 → (s.w.fan c).goodAt = some t0 → t0 + 2000000000 ≤
    s.w.now → fanRpm e1 e2 ≠ 0 →
    Completes (.fanSpeedMeasure c e1 e2) s fun t =>
      t.w.rd .A F.FAN_STATUS.TACH_OPEN c = 0 ∧ t.w.rd .A F.FAN_STATUS.RPM c = satTo 16 (fanRpm e1 e2) ∧ s.Quiet t) ∧
  (∀ (h : Half) (init v c : Nat) (s : State), s.own.alive h = true → s.w.sel h F.FAN_SEL.CH init = c → c < 4 → s.own.owns h (354 + c)
    = true → s.w.safeOn (354 + c) = false →
    Completes (.fanCommand h init v) s fun t =>
      t.w.rd .A F.FAN_CMD.TARGET c = v % 65536 ∧ t.w.rd .A F.FAN_CMD.MANUAL c = v / 65536 % 2 ∧ (t.w.fan c).green = false ∧ (t.w.fan c).kick = 0 ∧
      (t.w.fan c).pause = (if (s.w.fan c).kick = 0 then (s.w.fan c).pause else false) ∧
      ((s.w.fan c).green = true → (t.w.fan c).loop = s.w.rd .A F.FAN_STATUS.DUTY c) ∧ ((s.w.fan c).green = false → (t.w.fan c).loop = (s.w.fan c).loop) ∧
      (v / 65536 % 2 = 1 → t.w.fanAsk c = v % 65536) ∧ s.Quiet t) ∧
  (∀ (h : Half) (init v c lo hi : Nat) (s : State), s.own.alive h = true → s.w.sel h F.FAN_SEL.CH init = c → c < 3 → s.own.owns h (354
    + c) = true → s.w.safeOn (354 + c) = false → v / 65536 % 2 = 1 → s.w.rd .A F.FAN_SKIP.LO 0 = lo → s.w.rd .A F.FAN_SKIP.HI 0 = hi →
    lo ≠ 0 → lo ≤ v % 65536 → v % 65536 ≤ hi → (s.w.fan c).held = none →
    Completes (.fanCommand h init v) s fun t =>
      t.w.rd .A F.FAN_STATUS.SKIPPED c = 1 ∧ ((s.w.fan c).last < lo → (t.w.fanTarget c).1 = lo) ∧ (hi < (s.w.fan c).last → (t.w.fanTarget c).1 = hi)) ∧
  (∀ (h : Half) (init v c : Nat) (s : State), s.own.alive h = true → s.w.sel h F.FAN_SEL.CH init = c → c < 4 → s.own.owns h (354 + c)
    = false →
    Completes (.fanCommand h init v) s fun t =>
      t.w.rd h F.OWN_VIOL.OBJ = 354 + c ∧ t.w.rd h F.OWN_VIOL.INIT = init % 16 ∧ t.w.pwr = s.w.pwr ∧
      World.RegsBut [F.OWN_VIOL.OBJ.reg, F.EVT_STATUS.LOST.reg] s.w t.w ∧ s.Quiet t) ∧
  (∀ (h : Half) (init v : Nat) (s : State), s.own.alive h = false ∨ s.w.safeOn (354 + s.w.sel h F.FAN_SEL.CH init) = true ∧ s.own.owns
    h (354 + s.w.sel h F.FAN_SEL.CH init) = true ∧ s.w.sel h F.FAN_SEL.CH init < 4 →
    Completes (.fanCommand h init v) s fun t =>
      t = s) ∧
  (∀ (c v t0 : Nat) (s : State), c < 4 → (s.w.fan c).kick = 0 → (s.w.fan c).pause = false → s.w.stalled c = false → s.w.rd .A
    F.FAN_STATUS.TACH_OPEN c = 0 → minDuty c ≤ s.w.fanDuty c → (s.w.fan c).lowAt = some t0 → t0 + 2000000000 ≤ s.w.now → (s.w.fan
    c).checkAt ≤ s.w.now →
    Completes (.fanSuspect c v) s fun t =>
      (v < 300 → (t.w.fan c).kick = 1 ∧ (t.w.fan c).kickAt = s.w.now ∧ t.w.rd .A F.FAN_STATUS.KICKING c = 1 ∧ t.w.rd .A F.FAN_STATUS.DUTY c = 100 ∧
        t.w.rd .A F.PWR_CNT.KICKS = satInc F.PWR_CNT.KICKS.w (s.w.rd .A F.PWR_CNT.KICKS)) ∧
      (450 < v → t.w.rd .A F.FAN_STATUS.TACH_OPEN c = 1 ∧ t.w.rd .A F.FAN_STATUS.DUTY c = 100 ∧ (t.w.fan c).kick = 0) ∧
      (300 ≤ v → v ≤ 450 → (t.w.fan c).checkAt = s.w.now + 1000000000 ∧ World.RegsBut [] s.w t.w) ∧ s.Quiet t) ∧
  (∀ (c v : Nat) (s : State), (s.w.fan c).lowAt = none ∨ s.w.stalled c = true ∨ s.w.rd .A F.FAN_STATUS.TACH_OPEN c = 1 →
    Completes (.fanSuspect c v) s fun t =>
      t = s) ∧
  (∀ (c rpm : Nat) (s : State), c < 4 → (s.w.fan c).kick ≠ 0 → (s.w.fan c).pause = false → (s.w.fan c).kickAt + 2000000000 ≤ s.w.now →
    
    Completes (.fanKickEnd c rpm) s fun t =>
      t.w.rd .A F.FAN_STATUS.RPM c = satTo 16 rpm ∧
      (700 ≤ rpm → t.w.rd .A F.FAN_STATUS.STALL c = 0 ∧ t.w.rd .A F.FAN_STATUS.KICKING c = 0 ∧ (t.w.fan c).kick = 0) ∧
      (rpm < 700 → s.w.stalled c = false → (s.w.fan c).kick < 3 → (t.w.fan c).pause = true ∧ (t.w.fan c).kick = (s.w.fan c).kick ∧
        t.w.rd .A F.FAN_STATUS.DUTY c = 0 ∧ t.w.rd .A F.FAN_STATUS.STALL c = 0) ∧
      (rpm < 700 → s.w.stalled c = false → 3 ≤ (s.w.fan c).kick → t.w.rd .A F.FAN_STATUS.STALL c = 1 ∧ (t.w.fan c).kick = 0 ∧
        t.w.rd .A F.FAN_STATUS.KICKING c = 0 ∧ t.w.rd .A F.FAN_STATUS.DUTY c = 0) ∧
      (∀ k, k < 3 → k ≠ c → t.w.rd .A F.FAN_STATUS.STALL c = 1 → s.w.rd .A F.PWR_STATUS.LSTATE ≠ 0 ∧ s.w.rd .A F.PWR_STATUS.LSTATE ≠ 3 ∧
        (s.w.fan k).pause = false ∧ s.w.stalled k = false → t.w.rd .A F.FAN_STATUS.DUTY k = 100) ∧
      (rpm < 700 → s.w.stalled c = true → t.w.rd .A F.FAN_STATUS.STALL c = 1 ∧ (t.w.fan c).kick = 0 ∧ t.w.rd .A F.FAN_STATUS.DUTY c = 0) ∧ s.Quiet t) ∧
  (∀ (c rpm : Nat) (s : State), (s.w.fan c).kick = 0 ∨ (s.w.fan c).pause = true ∨ s.w.now < (s.w.fan c).kickAt + 2000000000 →
    Completes (.fanKickEnd c rpm) s fun t =>
      t = s) ∧
  (∀ (c : Nat) (s : State), c < 4 → (s.w.fan c).pause = true → (s.w.fan c).kickAt + 1000000000 ≤ s.w.now →
    Completes (.fanKickPauseEnd c) s fun t =>
      (t.w.fan c).kick = (s.w.fan c).kick + 1 ∧ (t.w.fan c).pause = false ∧ (t.w.fan c).kickAt = s.w.now ∧ t.w.rd .A F.FAN_STATUS.KICKING c = 1 ∧
      t.w.rd .A F.PWR_CNT.KICKS = satInc F.PWR_CNT.KICKS.w (s.w.rd .A F.PWR_CNT.KICKS) ∧ s.Quiet t) ∧
  (∀ (c : Nat) (s : State), (s.w.fan c).pause = false ∨ s.w.now < (s.w.fan c).kickAt + 1000000000 →
    Completes (.fanKickPauseEnd c) s fun t =>
      t = s) ∧
  (∀ (c : Nat) (s : State), c < 4 → s.w.stalled c = true → (s.w.fan c).kick = 0 → (s.w.fan c).stallAt + 300000000000 ≤ s.w.now →
    Completes (.fanRekick c) s fun t =>
      (t.w.fan c).kick ≠ 0 ∧ (t.w.fan c).stallAt = s.w.now ∧ (t.w.fan c).kickAt = s.w.now ∧ t.w.rd .A F.FAN_STATUS.KICKING c = 1 ∧
      t.w.rd .A F.FAN_STATUS.STALL c = 1 ∧ t.w.rd .A F.PWR_CNT.KICKS = satInc F.PWR_CNT.KICKS.w (s.w.rd .A F.PWR_CNT.KICKS) ∧ s.Quiet t) ∧
  (∀ (c : Nat) (s : State), s.w.stalled c = false ∨ s.w.now < (s.w.fan c).stallAt + 300000000000 →
    Completes (.fanRekick c) s fun t =>
      t = s)

/-- Parts of R546–R548, R550–R553, R557: a frame with its latch and levels, LATCH, the symbols, LOAD and the copy, PNL_EN and the panel's
sequences with the fast path.
Where the spec leaves the model a choice: log entry 56. -/
def Obligations.displayDrivers : Prop :=
  (∀ (vlcd : Nat) (v1 v2 : Int) (t0 : Nat) (s : State), s.w.rd .A F.DSP_CTRL.SEG_EN = 1 → s.w.dsp.latchAt = some t0 →
    Completes (.segmentFrame vlcd v1 v2) s fun t =>
      (t0 < s.w.now → t.w.dsp.shown = (List.range 10).map (fun k => s.w.rd .A F.DSP_SEG.BITS k) ∧ t.w.dsp.latchAt = none) ∧
      (s.w.now ≤ t0 → t.w.dsp.shown = s.w.dsp.shown ∧ t.w.dsp.latchAt = some t0) ∧ t.w.dsp.minus = !s.w.dsp.minus ∧
      t.w.rd .A F.DSP_LEVEL.VLCD = satTo 16 vlcd ∧ t.w.rdI .A F.DSP_LEVEL.V1_DEV = clampI (-128) 127 v1 ∧
      t.w.rdI .A F.DSP_LEVEL.V2_DEV = clampI (-128) 127 v2 ∧ s.Quiet t) ∧
  (∀ (vlcd : Nat) (v1 v2 : Int) (s : State), s.w.rd .A F.DSP_CTRL.SEG_EN = 1 → vlcd < 270 ∨ 1600 < vlcd ∨ 30 < v1 ∨ v1 < -30 ∨ 30 < v2
    ∨ v2 < -30 →
    Completes (.segmentFrame vlcd v1 v2) s fun t =>
      t.w.rd .A F.DSP_STATUS.LVL_FAULT = 1 ∧ t.w.dsp.good = 0 ∧ t.w.segBlank = true ∧
      World.RegsBut [F.DSP_STATUS.LVL_FAULT.reg, F.DSP_LEVEL.VLCD.reg, F.EVT_STATUS.LOST.reg] s.w t.w ∧ s.Quiet t) ∧
  (∀ (vlcd : Nat) (v1 v2 : Int) (s : State), s.w.rd .A F.DSP_CTRL.SEG_EN = 1 → 270 ≤ vlcd → vlcd ≤ 1600 → -30 ≤ v1 → v1 ≤ 30 → -30 ≤
    v2 → v2 ≤ 30 →
    Completes (.segmentFrame vlcd v1 v2) s fun t =>
      t.w.rd .A F.DSP_STATUS.LVL_FAULT = (if 9 ≤ s.w.dsp.good then 0 else s.w.rd .A F.DSP_STATUS.LVL_FAULT) ∧ t.w.dsp.good = s.w.dsp.good + 1 ∧ s.Quiet t) ∧
  (∀ (vlcd : Nat) (v1 v2 : Int) (s : State), s.w.rd .A F.DSP_CTRL.SEG_EN = 0 →
    Completes (.segmentFrame vlcd v1 v2) s fun t =>
      t = s) ∧
  (∀ (h : Half) (init : Nat) (s : State), s.own.alive h = true → s.own.owns h 352 = true →
    Completes (.segmentLatch h init) s fun t =>
      t.w.dsp = { s.w.dsp with latchAt := some s.w.now, segGreen := false } ∧ World.RegsBut [] s.w t.w ∧ s.Quiet t) ∧
  (∀ (h : Half) (d : DispSec) (y : Symbol) (s : State), s.w.dsp.sec = some d → d.syms = [y] → y.seg0 + y.n ≤ 320 → s.own.alive h =
    true → s.own.owns h 352 = true →
    Completes (.symbolEvaluation h) s fun t =>
      (∀ i, i < y.n → bitOf (t.w.rd .A F.DSP_SEG.BITS ((y.seg0 + i) / 32)) ((y.seg0 + i) % 32) =
        bitOf (if y.blink = true ∧ 500 ≤ s.w.mt h / 1000000 % 1000 then 0 else y.image (s.w.symValue h y)) i) ∧
      (∀ i, i < 320 → i < y.seg0 ∨ y.seg0 + y.n ≤ i →
        bitOf (t.w.rd .A F.DSP_SEG.BITS (i / 32)) (i % 32) = bitOf (s.w.rd .A F.DSP_SEG.BITS (i / 32)) (i % 32)) ∧
      (∀ v ∈ s.w.symValue h y, y.kind = 1 → y.image (some v) = if y.thresh ≤ v then 2 ^ y.n - 1 else 0) ∧
      (∀ v ∈ s.w.symValue h y, y.kind = 2 → y.image (some v) = 2 ^ min y.n (roundN (v * y.scale)) - 1) ∧
      (s.w.symValue h y = none → y.image (s.w.symValue h y) = 0) ∧
      t.w.dsp.latchAt = some s.w.now ∧ t.w.dsp.segGreen = false ∧ World.RegsBut [F.DSP_SEG.BITS.reg] s.w t.w ∧ s.Quiet t) ∧
  (∀ (h : Half) (s : State), s.w.dsp.sec = none ∨ s.own.alive h = false ∨ s.own.owns h 352 = false →
    Completes (.symbolEvaluation h) s fun t =>
      t = s) ∧
  (∀ (h : Half) (init : Nat) (s : State), s.own.alive h = true → s.own.owns h 353 = true →
    Completes (.panelLoad h init) s fun t =>
      t.w.dsp = { s.w.dsp with copy := some (h, s.w.rd .A F.DSP_PNL_SRC.ADDR) } ∧ t.w.rd .A F.DSP_STATUS.COPYING = 1 ∧
      t.w.rd .A F.DSP_STATUS.STORE = s.w.rd .A F.DSP_STATUS.STORE ∧ World.RegsBut [F.DSP_STATUS.COPYING.reg] s.w t.w ∧ s.Quiet t) ∧
  (∀ (h : Half) (a : Nat) (s : State), s.w.dsp.copy = some (h, a) →
    Completes .panelCopyComplete s fun t =>
      t.w.rd .A F.DSP_STATUS.COPYING = 0 ∧ t.w.rd .A F.DSP_STATUS.STORE = 1 - s.w.rd .A F.DSP_STATUS.STORE ∧ t.w.dsp.copy = none ∧
      (s.w.rd .A F.DSP_STATUS.STORE = 0 → t.w.dsp.store0 = s.w.dsp.store0) ∧ (s.w.rd .A F.DSP_STATUS.STORE = 1 → t.w.dsp.store1 = s.w.dsp.store1) ∧
      t.w.dram = s.w.dram ∧ World.RegsBut [F.DSP_STATUS.COPYING.reg] s.w t.w ∧ s.Quiet t) ∧
  (∀ (s : State), s.w.dsp.copy = none →
    Completes .panelCopyComplete s fun t =>
      t = s) ∧
  (∀ (h : Half) (init : Nat) (en : Bool) (s : State), s.own.alive h = true → s.own.owns h 353 = true →
    Completes (.panelEnable h init en) s fun t =>
      t.w.rd .A F.DSP_CTRL.PNL_EN = (if en = true then 1 else 0) ∧
      (en = true → s.w.dsp.step = 0 → s.w.safeOn 353 = false → t.w.dsp.step = 1 ∧ t.w.dsp.en = [true, false, false] ∧ t.w.rd .A F.DSP_STATUS.PNL_STATE = 1) ∧
      (en = false → s.w.dsp.step = 4 → t.w.dsp.step = 5 ∧ t.w.rd .A F.DSP_STATUS.BL = 0 ∧ t.w.rd .A F.DSP_STATUS.PNL_STATE = 4) ∧
      (s.w.dsp.step ≠ 0 → s.w.dsp.step ≠ 4 → t.w.dsp.step = s.w.dsp.step ∧ t.w.dsp.stepAt = s.w.dsp.stepAt ∧ t.w.dsp.en = s.w.dsp.en) ∧ s.Quiet t) ∧
  (∀ (s : State), s.w.dsp.step ∈ [1, 2, 3, 5, 6, 7, 8] → s.w.dsp.stepAt + pnlTime s.w.dsp.step ≤ s.w.now → s.w.rd .A F.DSP_CTRL.PNL_EN
    = 1 →
    Completes .panelSequenceStep s fun t =>
      (s.w.dsp.step, t.w.dsp.step) ∈ [(1, 2), (2, 3), (3, 4), (5, 4), (6, 3), (7, 3), (8, 2)] ∧ t.w.dsp.stepAt = s.w.now ∧
      t.w.dsp.en = [true, true, decide (t.w.dsp.step ≠ 2)] ∧ t.w.rd .A F.DSP_STATUS.BL = b2n (t.w.dsp.step = 4) ∧
      t.w.rd .A F.DSP_STATUS.PNL_STATE = t.w.dsp.step - 1 ∧ s.Quiet t) ∧
  (∀ (s : State), s.w.dsp.step ∈ [1, 2, 3, 5, 6, 7, 8] → s.w.dsp.stepAt + pnlTime s.w.dsp.step ≤ s.w.now → s.w.rd .A F.DSP_CTRL.PNL_EN
    = 0 →
    Completes .panelSequenceStep s fun t =>
      (s.w.dsp.step, t.w.dsp.step) ∈ [(1, 0), (2, 8), (3, 6), (5, 6), (6, 7), (7, 8), (8, 0)] ∧ t.w.dsp.stepAt = s.w.now ∧ t.w.rd .A F.DSP_STATUS.BL = 0 ∧
      (t.w.dsp.step = 7 → t.w.dsp.en = [true, true, false]) ∧ (t.w.dsp.step = 8 → t.w.dsp.en = [true, false, false]) ∧
      (t.w.dsp.step = 0 → t.w.dsp.en = [false, false, false] ∧ t.w.rd .A F.DSP_STATUS.PNL_STATE = 0) ∧
      (t.w.dsp.step = 6 → t.w.dsp.en = s.w.dsp.en ∧ t.w.rd .A F.DSP_STATUS.PNL_STATE = 5) ∧ s.Quiet t) ∧
  (∀ (s : State), s.w.dsp.step = 9 ∨ s.w.dsp.step = 10 → s.w.dsp.stepAt + pnlTime s.w.dsp.step ≤ s.w.now →
    Completes .panelSequenceStep s fun t =>
      t.w.dsp.step = s.w.dsp.step + 1 ∧ t.w.dsp.en.getD 2 false = false ∧ (s.w.dsp.step = 10 → t.w.dsp.en.getD 1 false = false) ∧
      t.w.rd .A F.DSP_STATUS.BL = 0 ∧ t.w.rd .A F.DSP_STATUS.FAST = s.w.rd .A F.DSP_STATUS.FAST ∧ s.Quiet t) ∧
  (∀ (s : State), s.w.dsp.step = 11 → s.w.dsp.stepAt + 2000000 ≤ s.w.now →
    Completes .panelSequenceStep s fun t =>
      t.w.rd .A F.DSP_STATUS.FAST = 0 ∧ t.w.rd .A F.DSP_STATUS.BL = 0 ∧
      t.w.dsp.step = (if s.w.rd .A F.DSP_CTRL.PNL_EN = 1 ∧ s.w.dsp.pnlGreen = false ∧ s.w.safeOn 353 = false then 1 else 0) ∧
      t.w.dsp.en = [decide (t.w.dsp.step = 1), false, false] ∧ s.Quiet t) ∧
  (∀ (s : State), s.w.dsp.step = 0 ∨ s.w.dsp.step = 4 ∨ s.w.now < s.w.dsp.stepAt + pnlTime s.w.dsp.step →
    Completes .panelSequenceStep s fun t =>
      t = s) ∧
  (∀ (h : Half) (init : Nat) (en : Bool) (c : Instr) (k : Nat) (s : State), c ∈ [Instr.segmentLatch h init, .panelLoad h init,
    .panelEnable h init en] → k = (if c = .segmentLatch h init then 352 else 353) → s.own.alive h = true → s.own.owns h k = false →
    Completes c s fun t =>
      t.w.rd h F.OWN_VIOL.OBJ = k ∧ t.w.rd h F.OWN_VIOL.INIT = init % 16 ∧ t.w.dsp = s.w.dsp ∧
      World.RegsBut [F.OWN_VIOL.OBJ.reg, F.EVT_STATUS.LOST.reg] s.w t.w ∧ s.Quiet t) ∧
  (∀ (h : Half) (init : Nat) (en : Bool) (c : Instr) (s : State), c ∈ [Instr.segmentLatch h init, .panelLoad h init, .panelEnable h
    init en] → s.own.alive h = false →
    Completes c s fun t =>
      t = s)

/-- Parts of R65, R214, R240, R553, R572: a channel's low and high, the disagreement, and what the rise of SAFE_OFF does to a valve, a load
switch and the panel that follow it.
Where the spec leaves the model a choice: log entry 21. -/
def Obligations.safeOffChannels : Prop :=
  (∀ (b : Bool) (s : State),
    Completes (.safeOffAssert b) s fun t =>
      t.w.rd .A F.PWR_SAFE.ASSERTED = 1 ∧ t.w.rd .A (if b = true then F.PWR_SAFE.B_REL else F.PWR_SAFE.A_REL) = 0 ∧
      t.w.rd .A (if b = true then F.PWR_SAFE.A_REL else F.PWR_SAFE.B_REL) = s.w.rd .A (if b = true then F.PWR_SAFE.A_REL else F.PWR_SAFE.B_REL) ∧
      t.w.rd .A F.PWR_SAFE.DISC = (if s.w.rd .A (if b = true then F.PWR_SAFE.A_REL else F.PWR_SAFE.B_REL) = 0 then 0 else s.w.rd .A F.PWR_SAFE.DISC) ∧
      (s.w.safeOff = true → t.w.vlv = s.w.vlv ∧ t.w.lsw = s.w.lsw ∧ t.w.dsp = s.w.dsp ∧ World.RegsBut [F.PWR_SAFE.DISC.reg] s.w t.w) ∧ s.Quiet t) ∧
  (∀ (b : Bool) (s : State), s.w.safeOff = false →
    Completes (.safeOffAssert b) s fun t =>
      (∀ ch, ch < 96 → (s.w.gren ch).so = true →
        t.w.rd .A F.VLV_STATUS.KNOCKED ch = 1 ∧ t.w.rd .A F.VLV_STATUS.RUN ch = 0 ∧ (t.w.eng ch).level = none) ∧
      (∀ n, n < 48 → (s.w.gren (96 + n)).so = true → t.w.rd .A F.LSW_STATUS.KNOCKED n = 1 ∧
        t.w.rd .A F.LSW_STATUS.STATE n ≠ 2 ∧ t.w.rd .A F.LSW_STATUS.STATE n ≠ 3) ∧
      ((s.w.gren 353).so = true → t.w.rd .A F.DSP_STATUS.FAST = 1) ∧
      (∀ f, f < 4 → t.w.rd .A F.PWR_FEED.CONNECT f = s.w.rd .A F.PWR_FEED.CONNECT f) ∧ s.Quiet t) ∧
  (∀ (b : Bool) (s : State),
    Completes (.safeOffRelease b) s fun t =>
      t.w.rd .A (if b = true then F.PWR_SAFE.B_REL else F.PWR_SAFE.A_REL) = 1 ∧ t.w.rd .A F.PWR_SAFE.DISC = s.w.rd .A F.PWR_SAFE.DISC ∧
      t.w.rd .A (if b = true then F.PWR_SAFE.A_REL else F.PWR_SAFE.B_REL) = s.w.rd .A (if b = true then F.PWR_SAFE.A_REL else F.PWR_SAFE.B_REL) ∧
      t.w.rd .A F.PWR_SAFE.ASSERTED = (if s.w.rd .A F.PWR_SAFE.DISC = 1 ∨ s.w.rd .A (if b = true then F.PWR_SAFE.A_REL else F.PWR_SAFE.B_REL) = 0 then 1 else 0) ∧ s.Quiet t) ∧
  (∀ (b : Bool) (s : State), s.w.safeOff = true → s.w.rd .A F.PWR_SAFE.DISC = 0 → s.w.rd .A (if b = true then F.PWR_SAFE.A_REL else
    F.PWR_SAFE.B_REL) = 1 →
    Completes (.safeOffRelease b) s fun t =>
      t.w.safeOff = false ∧ (∀ ch, ch < 96 → (s.w.gren ch).so = true → t.w.rd .A F.VLV_STATUS.KNOCKED ch =
        if s.w.rd .A F.VLV_STATUS.CMD ch = 0 then 0 else s.w.rd .A F.VLV_STATUS.KNOCKED ch) ∧
      (∀ n, n < 48 → (s.w.gren (96 + n)).so = true → t.w.rd .A F.LSW_STATUS.KNOCKED n =
        if s.w.rd .A F.LSW_STATUS.CMD n = 0 then 0 else s.w.rd .A F.LSW_STATUS.KNOCKED n) ∧ s.Quiet t) ∧
  (∀ (s : State), s.w.rd .A F.PWR_SAFE.A_REL ≠ s.w.rd .A F.PWR_SAFE.B_REL →
    Completes .safeOffDiscrepancy s fun t =>
      t.w.rd .A F.PWR_SAFE.DISC = 1 ∧ t.w.rd .A F.PWR_SAFE.ASSERTED = 1 ∧ t.w.rd .A F.PWR_SAFE.A_REL = s.w.rd .A F.PWR_SAFE.A_REL ∧
      t.w.rd .A F.PWR_SAFE.B_REL = s.w.rd .A F.PWR_SAFE.B_REL ∧ s.Quiet t) ∧
  (∀ (s : State), s.w.rd .A F.PWR_SAFE.A_REL = s.w.rd .A F.PWR_SAFE.B_REL →
    Completes .safeOffDiscrepancy s fun t =>
      t = s)

end Statements
end

