-- ==== Sys2Proof/Laws/Store.lean ====
section
/-!
SUPPORT. Laws of the sparse stores: what a write leaves readable, and the canonical form that every write keeps.
-/
namespace Sys2Proof

namespace NMap

variable {α : Type}

theorem get_del_same (d : α) (m : NMap α) (n : Nat) : get d (del m n) n = d := by
  induction m with
  | nil => rfl
  | cons e t ih =>
    obtain ⟨k, v⟩ := e
    by_cases h : n = k
    · simp [del, h]; rw [← h]; exact ih
    · simp [del, h, get, ih]

theorem get_del_ne (d : α) (m : NMap α) {n j : Nat} (h : j ≠ n) : get d (del m n) j = get d m j := by
  induction m with
  | nil => rfl
  | cons e t ih =>
    obtain ⟨k, v⟩ := e
    by_cases hk : n = k
    · subst hk; simp [del, get, h, ih]
    · by_cases hj : j = k
      · subst hj; simp [del, get, hk]
      · simp [del, get, hk, hj, ih]

theorem get_put_same (d : α) (m : NMap α) (n : Nat) (x : α) : get d (put m n x) n = x := by
  induction m with
  | nil => simp [put, get]
  | cons e t ih =>
    obtain ⟨k, v⟩ := e
    by_cases h1 : n < k
    · simp [put, get, h1]
    · by_cases h2 : n = k
      · simp [put, get, h2]
      · simp [put, get, h1, h2, ih]

theorem get_put_ne (d : α) (m : NMap α) {n j : Nat} (x : α) (h : j ≠ n) : get d (put m n x) j = get d m j := by
  induction m with
  | nil => simp [put, get, h]
  | cons e t ih =>
    obtain ⟨k, v⟩ := e
    by_cases h1 : n < k
    · simp [put, get, h1, h]
    · by_cases h2 : n = k
      · subst h2; simp [put, get, h]
      · by_cases hj : j = k
        · subst hj; simp [put, get, h1, h2]
        · simp [put, get, h1, h2, hj, ih]

/-- Reading what was written. -/
@[simp] theorem get_set_same [DecidableEq α] (d : α) (m : NMap α) (n : Nat) (x : α) : get d (set d m n x) n = x := by
  unfold set
  split
  · next h => rw [get_del_same, h]
  · exact get_put_same d m n x

/-- A write leaves every other key alone, whatever default the reader has. -/
theorem get_set_other [DecidableEq α] (d e : α) (m : NMap α) {n j : Nat} (x : α) (h : j ≠ n) :
    get e (set d m n x) j = get e m j := by
  unfold set
  split
  · exact get_del_ne e m h
  · exact get_put_ne e m x h

/-- A write leaves every other key alone. -/
theorem get_set_ne [DecidableEq α] (d : α) (m : NMap α) {n j : Nat} (x : α) (h : j ≠ n) : get d (set d m n x) j = get d m j :=
  get_set_other d d m x h

/-- A write, read anywhere. -/
theorem get_set [DecidableEq α] (d : α) (m : NMap α) (n j : Nat) (x : α) :
    get d (set d m n x) j = if j = n then x else get d m j := by
  by_cases h : j = n
  · subst h; simp
  · simp [h, get_set_ne d m x h]

/-! The canonical form. -/

theorem rising_mono {lo hi : Option Nat} {m : NMap α} (h : rising hi m = true) (hl : ∀ a b, lo = some a → hi = some b → a ≤ b)
    (hn : hi = none → lo = none) : rising lo m = true := by
  cases m with
  | nil => rfl
  | cons e t =>
    obtain ⟨k, v⟩ := e
    simp only [rising, Bool.and_eq_true] at h ⊢
    refine ⟨?_, h.2⟩
    cases lo with
    | none => rfl
    | some a =>
      cases hi with
      | none => simp at hn
      | some b =>
        have := hl a b rfl rfl
        have h1 := h.1
        simp only [decide_eq_true_eq] at h1 ⊢
        omega

theorem rising_del {lo : Option Nat} {m : NMap α} (n : Nat) (h : rising lo m = true) : rising lo (del m n) = true := by
  induction m generalizing lo with
  | nil => rfl
  | cons e t ih =>
    obtain ⟨k, v⟩ := e
    simp only [rising, Bool.and_eq_true] at h
    by_cases hk : n = k
    · simp only [del, hk, if_true]
      have h1 := ih (lo := some k) h.2
      rw [hk] at h1
      refine rising_mono h1 ?_ (by simp)
      intro a b ha hb
      cases hb
      subst ha
      have := h.1
      simp only [decide_eq_true_eq] at this
      omega
    · simp only [del, hk, if_false, rising, Bool.and_eq_true]
      exact ⟨h.1, ih h.2⟩

/-- The lower bound of a rising list, as a fact about numbers. -/
theorem rising_cons {lo : Option Nat} {k : Nat} {v : α} {t : NMap α} :
    rising lo ((k, v) :: t) = true ↔ (∀ a, lo = some a → a < k) ∧ rising (some k) t = true := by
  cases lo <;> simp [rising]

theorem rising_put {lo : Option Nat} {m : NMap α} (n : Nat) (x : α) (h : rising lo m = true) (hn : ∀ a, lo = some a → a < n) :
    rising lo (put m n x) = true := by
  induction m generalizing lo with
  | nil => exact rising_cons.mpr ⟨hn, rfl⟩
  | cons e t ih =>
    obtain ⟨k, v⟩ := e
    have h' := rising_cons.mp h
    by_cases h1 : n < k
    · simp only [put, h1, if_true]
      exact rising_cons.mpr ⟨hn, rising_cons.mpr ⟨by intro a ha; cases ha; exact h1, h'.2⟩⟩
    · by_cases h2 : n = k
      · subst h2
        simp only [put, lt_irrefl, if_false, if_true]
        exact rising_cons.mpr ⟨hn, h'.2⟩
      · simp only [put, h1, h2, if_false]
        exact rising_cons.mpr ⟨h'.1, ih h'.2 (by intro a ha; cases ha; omega)⟩

theorem tight_del [DecidableEq α] {d : Nat → α} {m : NMap α} (n : Nat) (h : tight d m = true) : tight d (del m n) = true := by
  induction m with
  | nil => rfl
  | cons e t ih =>
    obtain ⟨k, v⟩ := e
    simp only [tight, Bool.and_eq_true] at h
    by_cases hk : n = k
    · simp only [del, hk, if_true]; rw [← hk]; exact ih h.2
    · simp only [del, hk, if_false, tight, Bool.and_eq_true]
      exact ⟨h.1, ih h.2⟩

theorem tight_put [DecidableEq α] {d : Nat → α} {m : NMap α} (n : Nat) (x : α) (hx : x ≠ d n) (h : tight d m = true) :
    tight d (put m n x) = true := by
  induction m with
  | nil => simp [put, tight, hx]
  | cons e t ih =>
    obtain ⟨k, v⟩ := e
    have h' := h
    simp only [tight, Bool.and_eq_true] at h'
    by_cases h1 : n < k
    · simp only [put, h1, if_true]
      rw [tight, h]
      simp [hx]
    · by_cases h2 : n = k
      · subst h2
        simp only [put, lt_irrefl, if_false, if_true, tight, Bool.and_eq_true]
        exact ⟨by simp [hx], h'.2⟩
      · simp only [put, h1, h2, if_false, tight, Bool.and_eq_true]
        exact ⟨h'.1, ih h'.2⟩

/-- Every write keeps the canonical form of a map with one default. -/
theorem wf_set [DecidableEq α] (d : α) (m : NMap α) (n : Nat) (x : α) (h : wf (fun _ => d) m = true) :
    wf (fun _ => d) (set d m n x) = true := by
  unfold wf at h ⊢
  simp only [Bool.and_eq_true] at h ⊢
  unfold set
  split
  · exact ⟨rising_del n h.1, tight_del n h.2⟩
  · next hx => exact ⟨rising_put n x h.1 (by simp), tight_put n x hx h.2⟩

/-- A part of a rising list is rising. -/
theorem rising_filter {lo : Option Nat} {m : NMap α} (p : Nat × α → Bool) (h : rising lo m = true) : rising lo (m.filter p) = true := by
  induction m generalizing lo with
  | nil => rfl
  | cons e t ih =>
    obtain ⟨k, v⟩ := e
    have h' := rising_cons.mp h
    by_cases hp : p (k, v) = true
    · rw [List.filter_cons_of_pos hp]
      exact rising_cons.mpr ⟨h'.1, ih h'.2⟩
    · rw [List.filter_cons_of_neg hp]
      refine rising_mono (ih h'.2) ?_ (by simp)
      intro a b ha hb
      cases hb
      exact Nat.le_of_lt (h'.1 a ha)

theorem tight_filter [DecidableEq α] {d : Nat → α} {m : NMap α} (p : Nat × α → Bool) (h : tight d m = true) :
    tight d (m.filter p) = true := by
  induction m with
  | nil => rfl
  | cons e t ih =>
    obtain ⟨k, v⟩ := e
    simp only [tight, Bool.and_eq_true] at h
    by_cases hp : p (k, v) = true
    · rw [List.filter_cons_of_pos hp]
      simp only [tight, Bool.and_eq_true]
      exact ⟨h.1, ih h.2⟩
    · rw [List.filter_cons_of_neg hp]
      exact ih h.2

/-- A part of a canonical map is canonical. -/
theorem wf_filter [DecidableEq α] {d : Nat → α} {m : NMap α} (p : Nat × α → Bool) (h : wf d m = true) : wf d (m.filter p) = true := by
  unfold wf at h ⊢
  simp only [Bool.and_eq_true] at h ⊢
  exact ⟨rising_filter p h.1, tight_filter p h.2⟩

end NMap

namespace Memory

/-- A part of a memory keeps the canonical form. -/
theorem wf_filter (m : Memory) (p : Nat × Byte → Bool) (h : m.wf = true) : Memory.wf (m.filter p) = true := NMap.wf_filter p h

/-- A byte written reads back. -/
@[simp] theorem read_write_same (m : Memory) (a : Nat) (x : Byte) : (m.write a x).read a = x := by
  simp [read, write]

/-- A write leaves every other byte alone. -/
theorem read_write_ne (m : Memory) {a b : Nat} (x : Byte) (h : b ≠ a) : (m.write a x).read b = m.read b :=
  NMap.get_set_ne _ _ _ h

/-- Every write of a memory keeps its canonical form. -/
theorem wf_write (m : Memory) (a : Nat) (x : Byte) (h : m.wf = true) : (m.write a x).wf = true := NMap.wf_set _ _ _ _ h

/-- A write of several bytes keeps the canonical form. -/
theorem wf_writeN (m : Memory) (a : Nat) (bs : List Byte) (h : m.wf = true) : (m.writeN a bs).wf = true := by
  induction bs generalizing m a with
  | nil => exact h
  | cons x t ih => exact ih _ _ (wf_write m a x h)

/-- Bytes outside a write of several bytes are left alone. -/
theorem read_writeN_out (m : Memory) (a b : Nat) (bs : List Byte) (h : b < a ∨ a + bs.length ≤ b) :
    (m.writeN a bs).read b = m.read b := by
  induction bs generalizing m a with
  | nil => rfl
  | cons x t ih =>
    simp only [List.length_cons] at h
    rw [writeN, ih _ _ (by omega), read_write_ne]
    omega

end Memory

end Sys2Proof
end

