-- ==== Sys2Proof/Laws/Regs.lean ====
section
/-!
SUPPORT. Laws of register fields: what a write of a field leaves readable in it, in the other fields of its register, and in every
other register, index, half and file.
-/
namespace Sys2Proof

/-! Halves and pairs. -/

@[simp] theorem Two.get_both {α : Type} (x : α) (h : Half) : (Two.both x).get h = x := by cases h <;> rfl

@[simp] theorem Two.get_set_same {α : Type} (t : Two α) (h : Half) (x : α) : (t.set h x).get h = x := by cases h <;> rfl

theorem Two.get_set_ne {α : Type} (t : Two α) {h g : Half} (x : α) (hn : g ≠ h) : (t.set h x).get g = t.get g := by
  cases h <;> cases g <;> first | rfl | exact absurd rfl hn

@[simp] theorem Two.get_upd_same {α : Type} (t : Two α) (h : Half) (f : α → α) : (t.upd h f).get h = f (t.get h) := by
  simp [Two.upd]

theorem Two.get_upd_ne {α : Type} (t : Two α) {h g : Half} (f : α → α) (hn : g ≠ h) : (t.upd h f).get g = t.get g :=
  t.get_set_ne _ hn

theorem Two.get_upd {α : Type} (t : Two α) (h g : Half) (f : α → α) :
    (t.upd h f).get g = if g = h then f (t.get h) else t.get g := by
  by_cases hg : g = h
  · subst hg; simp
  · simp [hg, t.get_upd_ne f hg]

@[simp] theorem Half.other_other (h : Half) : h.other.other = h := by cases h <;> rfl
@[simp] theorem Half.other_ne (h : Half) : h.other ≠ h := by cases h <;> decide
@[simp] theorem Half.ne_other (h : Half) : h ≠ h.other := by cases h <;> decide

/-! Bits of a word. -/

/-- A field just written holds the low bits written. -/
theorem Word.field_setField_same (r : Word) (lo w v : Nat) (hw : lo + w ≤ 32) :
    (r.setField lo w v).field lo w = v % 2 ^ w := by
  have hb : ((r.setField lo w v).extractLsb' lo w) = BitVec.ofNat w v := by
    apply BitVec.eq_of_getLsbD_eq
    intro i hi
    have h1 : lo + i < 32 := by omega
    simp [Word.setField, hi, h1]
  rw [Word.field, hb, BitVec.toNat_ofNat]

/-- A write of a field leaves the bits above and below it. -/
theorem Word.field_setField_apart (r : Word) (lo w v lo' w' : Nat) (h : lo' + w' ≤ lo ∨ lo + w ≤ lo') :
    (r.setField lo w v).field lo' w' = r.field lo' w' := by
  have hb : ((r.setField lo w v).extractLsb' lo' w') = r.extractLsb' lo' w' := by
    apply BitVec.eq_of_getLsbD_eq
    intro i hi
    simp only [Word.setField, BitVec.getLsbD_extractLsb', hi, decide_true, Bool.true_and, BitVec.getLsbD_or,
      BitVec.getLsbD_and, BitVec.getLsbD_not, BitVec.getLsbD_shiftLeft, BitVec.getLsbD_setWidth, BitVec.getLsbD_allOnes,
      BitVec.getLsbD_ofNat]
    rcases h with h | h
    · have : lo' + i < lo := by omega
      by_cases h32 : lo' + i < 32 <;> simp [this, h32]
      exact (BitVec.getLsbD_of_ge r _ (by exact Nat.le_of_not_lt h32))
    · have h1 : ¬ lo' + i - lo < w := by omega
      by_cases h32 : lo' + i < 32 <;> simp [h1, h32]
      exact (BitVec.getLsbD_of_ge r _ (by exact Nat.le_of_not_lt h32))
  rw [Word.field, hb, Word.field]

/-- A field's value fits its width. -/
theorem Word.field_lt (r : Word) (lo w : Nat) : r.field lo w < 2 ^ w := (r.extractLsb' lo w).isLt

namespace Machine

/-- Two fields lie apart: other files, other registers, or other bits of one register. -/
def fieldsApart (f g : Field) : Bool :=
  (f.bp != g.bp) || (decide (f.reg < 2 ^ 25 ∧ g.reg < 2 ^ 25) && (decide (f.reg ≠ g.reg) || decide (g.lo + g.w ≤ f.lo ∨ f.lo + f.w ≤ g.lo)))

/-- A field lies in one register of the map. -/
def Fits (f : Field) : Prop := f.lo + f.w ≤ 32

theorem fieldKey_inj {f g : Field} {i j : Nat} (hf : f.reg < 2 ^ 25) (hg : g.reg < 2 ^ 25) (h : fieldKey f i = fieldKey g j) :
    i = j ∧ f.reg = g.reg := by
  simp only [fieldKey] at h
  omega

/-! A register written whole. -/

/-- A register just written reads as written. -/
theorem World.reg_setReg_same (w : World) (h : Half) (f : Field) (i : Nat) (v : Word) : (w.setReg h f i v).reg h f i = v := by
  cases hb : f.bp <;> simp [World.setReg, World.reg, World.file, hb]

/-- A write of a register leaves every register with another key. -/
theorem World.reg_setReg_ne (w : World) (h h' : Half) (f g : Field) (i j : Nat) (v : Word)
    (hk : fieldKey g j ≠ fieldKey f i) : (w.setReg h f i v).reg h' g j = w.reg h' g j := by
  cases hf : f.bp <;> cases hg : g.bp <;> simp only [World.setReg, World.reg, World.file, hf, hg, if_true, if_false, Bool.false_eq_true]
  · by_cases hh : h' = h
    · subst hh; rw [Two.get_upd_same, NMap.get_set_other _ _ _ _ hk]
    · rw [Two.get_upd_ne _ _ hh]
  · exact NMap.get_set_other _ _ _ _ hk

/-- A write in one half's file leaves the other half's. -/
theorem World.reg_setReg_half (w : World) {h h' : Half} (f g : Field) (i j : Nat) (v : Word) (hh : h' ≠ h) (hf : f.bp = false) :
    (w.setReg h f i v).reg h' g j = w.reg h' g j := by
  cases hg : g.bp <;> simp [World.setReg, World.reg, World.file, hf, hg, Two.get_upd_ne _ _ hh]

/-- A write in a half's file leaves the backplane's, and the other way round. -/
theorem World.reg_setReg_file (w : World) (h h' : Half) (f g : Field) (i j : Nat) (v : Word) (hb : f.bp ≠ g.bp) :
    (w.setReg h f i v).reg h' g j = w.reg h' g j := by
  cases hf : f.bp <;> cases hg : g.bp <;> simp_all [World.setReg, World.reg, World.file]

/-- The halves read one copy of a backplane object's register (R21). -/
theorem World.reg_bp (w : World) (h h' : Half) (f : Field) (i : Nat) (hb : f.bp = true) : w.reg h f i = w.reg h' f i := by
  simp [World.reg, World.file, hb]

theorem World.setReg_backplane (w : World) (h h' : Half) (f : Field) (i : Nat) (v : Word) (hb : f.bp = true) :
    w.setReg h f i v = w.setReg h' f i v := by
  simp [World.setReg, hb]

/-! A field written. -/

/-- A field just written holds the low bits written. -/
theorem World.rd_wr_same (w : World) (h : Half) (f : Field) (i v : Nat) (hf : f.lo + f.w ≤ 32) :
    (w.wr h f i v).rd h f i = v % 2 ^ f.w := by
  rw [World.rd, World.wr, World.reg_setReg_same, Word.field_setField_same _ _ _ _ hf]

/-- A backplane field just written, read by any half. -/
theorem World.rd_wr_bp (w : World) (h h' : Half) (f : Field) (i v : Nat) (hf : f.lo + f.w ≤ 32) (hb : f.bp = true) :
    (w.wr h f i v).rd h' f i = v % 2 ^ f.w := by
  rw [World.rd, World.reg_bp _ h' h f i hb, World.wr, World.reg_setReg_same, Word.field_setField_same _ _ _ _ hf]

/-- A write of a field leaves every field that lies apart, at every index and in both halves. -/
theorem World.rd_wr_apart (w : World) (h h' : Half) (f g : Field) (i j v : Nat) (ha : fieldsApart f g = true) :
    (w.wr h f i v).rd h' g j = w.rd h' g j := by
  simp only [fieldsApart, Bool.or_eq_true, bne_iff_ne, Bool.and_eq_true, decide_eq_true_eq] at ha
  rw [World.rd, World.rd, World.wr]
  rcases ha with hb | ⟨⟨hf, hg⟩, hr⟩
  · rw [World.reg_setReg_file _ _ _ _ _ _ _ _ hb]
  · by_cases hk : fieldKey g j = fieldKey f i
    · obtain ⟨hij, hreg⟩ := fieldKey_inj hg hf hk
      subst hij
      have hbits : g.lo + g.w ≤ f.lo ∨ f.lo + f.w ≤ g.lo := by
        rcases hr with hr | hr
        · exact absurd hreg.symm hr
        · exact hr
      by_cases hb : f.bp = g.bp
      · by_cases hh : h' = h ∨ g.bp = true
        · have hsame : ∀ u : World, u.reg h' g j = u.reg h f j := by
            intro u
            rcases hh with hh | hh
            · subst hh; simp [World.reg, World.file, hb, hk, hreg]
            · rw [World.reg_bp u h' h g j hh]; simp [World.reg, World.file, hb, hk, hreg]
          rw [hsame, World.reg_setReg_same, Word.field_setField_apart _ _ _ _ _ _ hbits, hsame]
        · simp only [not_or, Bool.not_eq_true] at hh
          rw [World.reg_setReg_half _ _ _ _ _ _ hh.1 (hb.trans hh.2)]
      · rw [World.reg_setReg_file _ _ _ _ _ _ _ _ hb]
    · rw [World.reg_setReg_ne _ _ _ _ _ _ _ _ hk]

/-- A write at one index leaves the field at every other. -/
theorem World.rd_wr_idx (w : World) (h h' : Half) (f g : Field) {i j : Nat} (v : Nat) (hf : f.reg < 2 ^ 25) (hg : g.reg < 2 ^ 25)
    (hij : j ≠ i) : (w.wr h f i v).rd h' g j = w.rd h' g j := by
  rw [World.rd, World.rd, World.wr, World.reg_setReg_ne]
  intro hk
  exact hij (fieldKey_inj hg hf hk).1

/-- A write in one half's file leaves the other half's. -/
theorem World.rd_wr_half (w : World) {h h' : Half} (f g : Field) (i j v : Nat) (hh : h' ≠ h) (hf : f.bp = false) :
    (w.wr h f i v).rd h' g j = w.rd h' g j := by
  rw [World.rd, World.rd, World.wr, World.reg_setReg_half _ _ _ _ _ _ hh hf]

/-- The halves read one copy of a backplane object's field (R21). -/
theorem World.rd_bp (w : World) (h h' : Half) (f : Field) (i : Nat) (hb : f.bp = true) : w.rd h f i = w.rd h' f i := by
  rw [World.rd, World.rd, World.reg_bp w h h' f i hb]

/-- A field's value fits its width. -/
theorem World.rd_lt (w : World) (h : Half) (f : Field) (i : Nat) : w.rd h f i < 2 ^ f.w := Word.field_lt _ _ _

/-- Registers depend on the two register files alone. -/
def World.ofRegs (r : Two RegFile) (b : RegFile) : World := { World.init with regs := r, bregs := b }

theorem World.rd_ofRegs (w : World) (h : Half) (f : Field) (i : Nat) : (World.ofRegs w.regs w.bregs).rd h f i = w.rd h f i := rfl

theorem World.reg_ofRegs (w : World) (h : Half) (f : Field) (i : Nat) : (World.ofRegs w.regs w.bregs).reg h f i = w.reg h f i := rfl

end Machine

end Sys2Proof
end

