-- ==== Sys2Proof/Laws/State.lean ====
section
/-!
SUPPORT. One lemma for each field of the world and each named update: what the update leaves. Reads of registers after updates of
hidden state and after raises.
-/
namespace Sys2Proof.Machine

/-! What the register writes leave: everything but the register files. -/

/-! setReg. -/

@[simp] theorem World.setReg_now (w : World) (h : Half) (f : Field) (i : Nat) (v : Word) : (w.setReg h f i v).now = w.now := by unfold World.setReg; split <;> rfl
@[simp] theorem World.setReg_fresh (w : World) (h : Half) (f : Field) (i : Nat) (v : Word) : (w.setReg h f i v).fresh = w.fresh := by unfold World.setReg; split <;> rfl
@[simp] theorem World.setReg_run (w : World) (h : Half) (f : Field) (i : Nat) (v : Word) : (w.setReg h f i v).run = w.run := by unfold World.setReg; split <;> rfl
@[simp] theorem World.setReg_evt (w : World) (h : Half) (f : Field) (i : Nat) (v : Word) : (w.setReg h f i v).evt = w.evt := by unfold World.setReg; split <;> rfl
@[simp] theorem World.setReg_xng (w : World) (h : Half) (f : Field) (i : Nat) (v : Word) : (w.setReg h f i v).xng = w.xng := by unfold World.setReg; split <;> rfl
@[simp] theorem World.setReg_roast (w : World) (h : Half) (f : Field) (i : Nat) (v : Word) : (w.setReg h f i v).roast = w.roast := by unfold World.setReg; split <;> rfl
@[simp] theorem World.setReg_bp (w : World) (h : Half) (f : Field) (i : Nat) (v : Word) : (w.setReg h f i v).bp = w.bp := by unfold World.setReg; split <;> rfl
@[simp] theorem World.setReg_devId (w : World) (h : Half) (f : Field) (i : Nat) (v : Word) : (w.setReg h f i v).devId = w.devId := by unfold World.setReg; split <;> rfl
@[simp] theorem World.setReg_act (w : World) (h : Half) (f : Field) (i : Nat) (v : Word) : (w.setReg h f i v).act = w.act := by unfold World.setReg; split <;> rfl
@[simp] theorem World.setReg_shut (w : World) (h : Half) (f : Field) (i : Nat) (v : Word) : (w.setReg h f i v).shut = w.shut := by unfold World.setReg; split <;> rfl
@[simp] theorem World.setReg_frame (w : World) (h : Half) (f : Field) (i : Nat) (v : Word) : (w.setReg h f i v).frame = w.frame := by unfold World.setReg; split <;> rfl
@[simp] theorem World.setReg_svc (w : World) (h : Half) (f : Field) (i : Nat) (v : Word) : (w.setReg h f i v).svc = w.svc := by unfold World.setReg; split <;> rfl
@[simp] theorem World.setReg_tim (w : World) (h : Half) (f : Field) (i : Nat) (v : Word) : (w.setReg h f i v).tim = w.tim := by unfold World.setReg; split <;> rfl
@[simp] theorem World.setReg_set (w : World) (h : Half) (f : Field) (i : Nat) (v : Word) : (w.setReg h f i v).set = w.set := by unfold World.setReg; split <;> rfl
@[simp] theorem World.setReg_opt (w : World) (h : Half) (f : Field) (i : Nat) (v : Word) : (w.setReg h f i v).opt = w.opt := by unfold World.setReg; split <;> rfl
@[simp] theorem World.setReg_vlv (w : World) (h : Half) (f : Field) (i : Nat) (v : Word) : (w.setReg h f i v).vlv = w.vlv := by unfold World.setReg; split <;> rfl
@[simp] theorem World.setReg_lsw (w : World) (h : Half) (f : Field) (i : Nat) (v : Word) : (w.setReg h f i v).lsw = w.lsw := by unfold World.setReg; split <;> rfl
@[simp] theorem World.setReg_uin (w : World) (h : Half) (f : Field) (i : Nat) (v : Word) : (w.setReg h f i v).uin = w.uin := by unfold World.setReg; split <;> rfl
@[simp] theorem World.setReg_yld (w : World) (h : Half) (f : Field) (i : Nat) (v : Word) : (w.setReg h f i v).yld = w.yld := by unfold World.setReg; split <;> rfl
@[simp] theorem World.setReg_cal (w : World) (h : Half) (f : Field) (i : Nat) (v : Word) : (w.setReg h f i v).cal = w.cal := by unfold World.setReg; split <;> rfl
@[simp] theorem World.setReg_dram (w : World) (h : Half) (f : Field) (i : Nat) (v : Word) : (w.setReg h f i v).dram = w.dram := by unfold World.setReg; split <;> rfl
@[simp] theorem World.setReg_pose (w : World) (h : Half) (f : Field) (i : Nat) (v : Word) : (w.setReg h f i v).pose = w.pose := by unfold World.setReg; split <;> rfl
@[simp] theorem World.setReg_grd (w : World) (h : Half) (f : Field) (i : Nat) (v : Word) : (w.setReg h f i v).grd = w.grd := by unfold World.setReg; split <;> rfl
@[simp] theorem World.setReg_trk (w : World) (h : Half) (f : Field) (i : Nat) (v : Word) : (w.setReg h f i v).trk = w.trk := by unfold World.setReg; split <;> rfl
@[simp] theorem World.setReg_gns (w : World) (h : Half) (f : Field) (i : Nat) (v : Word) : (w.setReg h f i v).gns = w.gns := by unfold World.setReg; split <;> rfl
@[simp] theorem World.setReg_keeper (w : World) (h : Half) (f : Field) (i : Nat) (v : Word) : (w.setReg h f i v).keeper = w.keeper := by unfold World.setReg; split <;> rfl
@[simp] theorem World.setReg_can (w : World) (h : Half) (f : Field) (i : Nat) (v : Word) : (w.setReg h f i v).can = w.can := by unfold World.setReg; split <;> rfl
@[simp] theorem World.setReg_flx (w : World) (h : Half) (f : Field) (i : Nat) (v : Word) : (w.setReg h f i v).flx = w.flx := by unfold World.setReg; split <;> rfl
@[simp] theorem World.setReg_upd (w : World) (h : Half) (f : Field) (i : Nat) (v : Word) : (w.setReg h f i v).upd = w.upd := by unfold World.setReg; split <;> rfl
@[simp] theorem World.setReg_pwr (w : World) (h : Half) (f : Field) (i : Nat) (v : Word) : (w.setReg h f i v).pwr = w.pwr := by unfold World.setReg; split <;> rfl
@[simp] theorem World.setReg_dsp (w : World) (h : Half) (f : Field) (i : Nat) (v : Word) : (w.setReg h f i v).dsp = w.dsp := by unfold World.setReg; split <;> rfl
@[simp] theorem World.setReg_latch (w : World) (h : Half) (f : Field) (i : Nat) (v : Word) : (w.setReg h f i v).latch = w.latch := by unfold World.setReg; split <;> rfl

/-! wr. -/

@[simp] theorem World.wr_now (w : World) (h : Half) (f : Field) (i v : Nat) : (w.wr h f i v).now = w.now := by simp [World.wr]
@[simp] theorem World.wr_fresh (w : World) (h : Half) (f : Field) (i v : Nat) : (w.wr h f i v).fresh = w.fresh := by simp [World.wr]
@[simp] theorem World.wr_run (w : World) (h : Half) (f : Field) (i v : Nat) : (w.wr h f i v).run = w.run := by simp [World.wr]
@[simp] theorem World.wr_evt (w : World) (h : Half) (f : Field) (i v : Nat) : (w.wr h f i v).evt = w.evt := by simp [World.wr]
@[simp] theorem World.wr_xng (w : World) (h : Half) (f : Field) (i v : Nat) : (w.wr h f i v).xng = w.xng := by simp [World.wr]
@[simp] theorem World.wr_roast (w : World) (h : Half) (f : Field) (i v : Nat) : (w.wr h f i v).roast = w.roast := by simp [World.wr]
@[simp] theorem World.wr_bp (w : World) (h : Half) (f : Field) (i v : Nat) : (w.wr h f i v).bp = w.bp := by simp [World.wr]
@[simp] theorem World.wr_devId (w : World) (h : Half) (f : Field) (i v : Nat) : (w.wr h f i v).devId = w.devId := by simp [World.wr]
@[simp] theorem World.wr_act (w : World) (h : Half) (f : Field) (i v : Nat) : (w.wr h f i v).act = w.act := by simp [World.wr]
@[simp] theorem World.wr_shut (w : World) (h : Half) (f : Field) (i v : Nat) : (w.wr h f i v).shut = w.shut := by simp [World.wr]
@[simp] theorem World.wr_frame (w : World) (h : Half) (f : Field) (i v : Nat) : (w.wr h f i v).frame = w.frame := by simp [World.wr]
@[simp] theorem World.wr_svc (w : World) (h : Half) (f : Field) (i v : Nat) : (w.wr h f i v).svc = w.svc := by simp [World.wr]
@[simp] theorem World.wr_tim (w : World) (h : Half) (f : Field) (i v : Nat) : (w.wr h f i v).tim = w.tim := by simp [World.wr]
@[simp] theorem World.wr_set (w : World) (h : Half) (f : Field) (i v : Nat) : (w.wr h f i v).set = w.set := by simp [World.wr]
@[simp] theorem World.wr_opt (w : World) (h : Half) (f : Field) (i v : Nat) : (w.wr h f i v).opt = w.opt := by simp [World.wr]
@[simp] theorem World.wr_vlv (w : World) (h : Half) (f : Field) (i v : Nat) : (w.wr h f i v).vlv = w.vlv := by simp [World.wr]
@[simp] theorem World.wr_lsw (w : World) (h : Half) (f : Field) (i v : Nat) : (w.wr h f i v).lsw = w.lsw := by simp [World.wr]
@[simp] theorem World.wr_uin (w : World) (h : Half) (f : Field) (i v : Nat) : (w.wr h f i v).uin = w.uin := by simp [World.wr]
@[simp] theorem World.wr_yld (w : World) (h : Half) (f : Field) (i v : Nat) : (w.wr h f i v).yld = w.yld := by simp [World.wr]
@[simp] theorem World.wr_cal (w : World) (h : Half) (f : Field) (i v : Nat) : (w.wr h f i v).cal = w.cal := by simp [World.wr]
@[simp] theorem World.wr_dram (w : World) (h : Half) (f : Field) (i v : Nat) : (w.wr h f i v).dram = w.dram := by simp [World.wr]
@[simp] theorem World.wr_pose (w : World) (h : Half) (f : Field) (i v : Nat) : (w.wr h f i v).pose = w.pose := by simp [World.wr]
@[simp] theorem World.wr_grd (w : World) (h : Half) (f : Field) (i v : Nat) : (w.wr h f i v).grd = w.grd := by simp [World.wr]
@[simp] theorem World.wr_trk (w : World) (h : Half) (f : Field) (i v : Nat) : (w.wr h f i v).trk = w.trk := by simp [World.wr]
@[simp] theorem World.wr_gns (w : World) (h : Half) (f : Field) (i v : Nat) : (w.wr h f i v).gns = w.gns := by simp [World.wr]
@[simp] theorem World.wr_keeper (w : World) (h : Half) (f : Field) (i v : Nat) : (w.wr h f i v).keeper = w.keeper := by simp [World.wr]
@[simp] theorem World.wr_can (w : World) (h : Half) (f : Field) (i v : Nat) : (w.wr h f i v).can = w.can := by simp [World.wr]
@[simp] theorem World.wr_flx (w : World) (h : Half) (f : Field) (i v : Nat) : (w.wr h f i v).flx = w.flx := by simp [World.wr]
@[simp] theorem World.wr_upd (w : World) (h : Half) (f : Field) (i v : Nat) : (w.wr h f i v).upd = w.upd := by simp [World.wr]
@[simp] theorem World.wr_pwr (w : World) (h : Half) (f : Field) (i v : Nat) : (w.wr h f i v).pwr = w.pwr := by simp [World.wr]
@[simp] theorem World.wr_dsp (w : World) (h : Half) (f : Field) (i v : Nat) : (w.wr h f i v).dsp = w.dsp := by simp [World.wr]
@[simp] theorem World.wr_latch (w : World) (h : Half) (f : Field) (i v : Nat) : (w.wr h f i v).latch = w.latch := by simp [World.wr]

/-! wrI. -/

@[simp] theorem World.wrI_now (w : World) (h : Half) (f : Field) (i : Nat) (v : Int) : (w.wrI h f i v).now = w.now := by simp [World.wrI]
@[simp] theorem World.wrI_fresh (w : World) (h : Half) (f : Field) (i : Nat) (v : Int) : (w.wrI h f i v).fresh = w.fresh := by simp [World.wrI]
@[simp] theorem World.wrI_run (w : World) (h : Half) (f : Field) (i : Nat) (v : Int) : (w.wrI h f i v).run = w.run := by simp [World.wrI]
@[simp] theorem World.wrI_evt (w : World) (h : Half) (f : Field) (i : Nat) (v : Int) : (w.wrI h f i v).evt = w.evt := by simp [World.wrI]
@[simp] theorem World.wrI_xng (w : World) (h : Half) (f : Field) (i : Nat) (v : Int) : (w.wrI h f i v).xng = w.xng := by simp [World.wrI]
@[simp] theorem World.wrI_roast (w : World) (h : Half) (f : Field) (i : Nat) (v : Int) : (w.wrI h f i v).roast = w.roast := by simp [World.wrI]
@[simp] theorem World.wrI_bp (w : World) (h : Half) (f : Field) (i : Nat) (v : Int) : (w.wrI h f i v).bp = w.bp := by simp [World.wrI]
@[simp] theorem World.wrI_devId (w : World) (h : Half) (f : Field) (i : Nat) (v : Int) : (w.wrI h f i v).devId = w.devId := by simp [World.wrI]
@[simp] theorem World.wrI_act (w : World) (h : Half) (f : Field) (i : Nat) (v : Int) : (w.wrI h f i v).act = w.act := by simp [World.wrI]
@[simp] theorem World.wrI_shut (w : World) (h : Half) (f : Field) (i : Nat) (v : Int) : (w.wrI h f i v).shut = w.shut := by simp [World.wrI]
@[simp] theorem World.wrI_frame (w : World) (h : Half) (f : Field) (i : Nat) (v : Int) : (w.wrI h f i v).frame = w.frame := by simp [World.wrI]
@[simp] theorem World.wrI_svc (w : World) (h : Half) (f : Field) (i : Nat) (v : Int) : (w.wrI h f i v).svc = w.svc := by simp [World.wrI]
@[simp] theorem World.wrI_tim (w : World) (h : Half) (f : Field) (i : Nat) (v : Int) : (w.wrI h f i v).tim = w.tim := by simp [World.wrI]
@[simp] theorem World.wrI_set (w : World) (h : Half) (f : Field) (i : Nat) (v : Int) : (w.wrI h f i v).set = w.set := by simp [World.wrI]
@[simp] theorem World.wrI_opt (w : World) (h : Half) (f : Field) (i : Nat) (v : Int) : (w.wrI h f i v).opt = w.opt := by simp [World.wrI]
@[simp] theorem World.wrI_vlv (w : World) (h : Half) (f : Field) (i : Nat) (v : Int) : (w.wrI h f i v).vlv = w.vlv := by simp [World.wrI]
@[simp] theorem World.wrI_lsw (w : World) (h : Half) (f : Field) (i : Nat) (v : Int) : (w.wrI h f i v).lsw = w.lsw := by simp [World.wrI]
@[simp] theorem World.wrI_uin (w : World) (h : Half) (f : Field) (i : Nat) (v : Int) : (w.wrI h f i v).uin = w.uin := by simp [World.wrI]
@[simp] theorem World.wrI_yld (w : World) (h : Half) (f : Field) (i : Nat) (v : Int) : (w.wrI h f i v).yld = w.yld := by simp [World.wrI]
@[simp] theorem World.wrI_cal (w : World) (h : Half) (f : Field) (i : Nat) (v : Int) : (w.wrI h f i v).cal = w.cal := by simp [World.wrI]
@[simp] theorem World.wrI_dram (w : World) (h : Half) (f : Field) (i : Nat) (v : Int) : (w.wrI h f i v).dram = w.dram := by simp [World.wrI]
@[simp] theorem World.wrI_pose (w : World) (h : Half) (f : Field) (i : Nat) (v : Int) : (w.wrI h f i v).pose = w.pose := by simp [World.wrI]
@[simp] theorem World.wrI_grd (w : World) (h : Half) (f : Field) (i : Nat) (v : Int) : (w.wrI h f i v).grd = w.grd := by simp [World.wrI]
@[simp] theorem World.wrI_trk (w : World) (h : Half) (f : Field) (i : Nat) (v : Int) : (w.wrI h f i v).trk = w.trk := by simp [World.wrI]
@[simp] theorem World.wrI_gns (w : World) (h : Half) (f : Field) (i : Nat) (v : Int) : (w.wrI h f i v).gns = w.gns := by simp [World.wrI]
@[simp] theorem World.wrI_keeper (w : World) (h : Half) (f : Field) (i : Nat) (v : Int) : (w.wrI h f i v).keeper = w.keeper := by simp [World.wrI]
@[simp] theorem World.wrI_can (w : World) (h : Half) (f : Field) (i : Nat) (v : Int) : (w.wrI h f i v).can = w.can := by simp [World.wrI]
@[simp] theorem World.wrI_flx (w : World) (h : Half) (f : Field) (i : Nat) (v : Int) : (w.wrI h f i v).flx = w.flx := by simp [World.wrI]
@[simp] theorem World.wrI_upd (w : World) (h : Half) (f : Field) (i : Nat) (v : Int) : (w.wrI h f i v).upd = w.upd := by simp [World.wrI]
@[simp] theorem World.wrI_pwr (w : World) (h : Half) (f : Field) (i : Nat) (v : Int) : (w.wrI h f i v).pwr = w.pwr := by simp [World.wrI]
@[simp] theorem World.wrI_dsp (w : World) (h : Half) (f : Field) (i : Nat) (v : Int) : (w.wrI h f i v).dsp = w.dsp := by simp [World.wrI]
@[simp] theorem World.wrI_latch (w : World) (h : Half) (f : Field) (i : Nat) (v : Int) : (w.wrI h f i v).latch = w.latch := by simp [World.wrI]

/-! bump. -/

@[simp] theorem World.bump_now (w : World) (h : Half) (f : Field) (i : Nat) : (w.bump h f i).now = w.now := by simp [World.bump]
@[simp] theorem World.bump_fresh (w : World) (h : Half) (f : Field) (i : Nat) : (w.bump h f i).fresh = w.fresh := by simp [World.bump]
@[simp] theorem World.bump_run (w : World) (h : Half) (f : Field) (i : Nat) : (w.bump h f i).run = w.run := by simp [World.bump]
@[simp] theorem World.bump_evt (w : World) (h : Half) (f : Field) (i : Nat) : (w.bump h f i).evt = w.evt := by simp [World.bump]
@[simp] theorem World.bump_xng (w : World) (h : Half) (f : Field) (i : Nat) : (w.bump h f i).xng = w.xng := by simp [World.bump]
@[simp] theorem World.bump_roast (w : World) (h : Half) (f : Field) (i : Nat) : (w.bump h f i).roast = w.roast := by simp [World.bump]
@[simp] theorem World.bump_bp (w : World) (h : Half) (f : Field) (i : Nat) : (w.bump h f i).bp = w.bp := by simp [World.bump]
@[simp] theorem World.bump_devId (w : World) (h : Half) (f : Field) (i : Nat) : (w.bump h f i).devId = w.devId := by simp [World.bump]
@[simp] theorem World.bump_act (w : World) (h : Half) (f : Field) (i : Nat) : (w.bump h f i).act = w.act := by simp [World.bump]
@[simp] theorem World.bump_shut (w : World) (h : Half) (f : Field) (i : Nat) : (w.bump h f i).shut = w.shut := by simp [World.bump]
@[simp] theorem World.bump_frame (w : World) (h : Half) (f : Field) (i : Nat) : (w.bump h f i).frame = w.frame := by simp [World.bump]
@[simp] theorem World.bump_svc (w : World) (h : Half) (f : Field) (i : Nat) : (w.bump h f i).svc = w.svc := by simp [World.bump]
@[simp] theorem World.bump_tim (w : World) (h : Half) (f : Field) (i : Nat) : (w.bump h f i).tim = w.tim := by simp [World.bump]
@[simp] theorem World.bump_set (w : World) (h : Half) (f : Field) (i : Nat) : (w.bump h f i).set = w.set := by simp [World.bump]
@[simp] theorem World.bump_opt (w : World) (h : Half) (f : Field) (i : Nat) : (w.bump h f i).opt = w.opt := by simp [World.bump]
@[simp] theorem World.bump_vlv (w : World) (h : Half) (f : Field) (i : Nat) : (w.bump h f i).vlv = w.vlv := by simp [World.bump]
@[simp] theorem World.bump_lsw (w : World) (h : Half) (f : Field) (i : Nat) : (w.bump h f i).lsw = w.lsw := by simp [World.bump]
@[simp] theorem World.bump_uin (w : World) (h : Half) (f : Field) (i : Nat) : (w.bump h f i).uin = w.uin := by simp [World.bump]
@[simp] theorem World.bump_yld (w : World) (h : Half) (f : Field) (i : Nat) : (w.bump h f i).yld = w.yld := by simp [World.bump]
@[simp] theorem World.bump_cal (w : World) (h : Half) (f : Field) (i : Nat) : (w.bump h f i).cal = w.cal := by simp [World.bump]
@[simp] theorem World.bump_dram (w : World) (h : Half) (f : Field) (i : Nat) : (w.bump h f i).dram = w.dram := by simp [World.bump]
@[simp] theorem World.bump_pose (w : World) (h : Half) (f : Field) (i : Nat) : (w.bump h f i).pose = w.pose := by simp [World.bump]
@[simp] theorem World.bump_grd (w : World) (h : Half) (f : Field) (i : Nat) : (w.bump h f i).grd = w.grd := by simp [World.bump]
@[simp] theorem World.bump_trk (w : World) (h : Half) (f : Field) (i : Nat) : (w.bump h f i).trk = w.trk := by simp [World.bump]
@[simp] theorem World.bump_gns (w : World) (h : Half) (f : Field) (i : Nat) : (w.bump h f i).gns = w.gns := by simp [World.bump]
@[simp] theorem World.bump_keeper (w : World) (h : Half) (f : Field) (i : Nat) : (w.bump h f i).keeper = w.keeper := by simp [World.bump]
@[simp] theorem World.bump_can (w : World) (h : Half) (f : Field) (i : Nat) : (w.bump h f i).can = w.can := by simp [World.bump]
@[simp] theorem World.bump_flx (w : World) (h : Half) (f : Field) (i : Nat) : (w.bump h f i).flx = w.flx := by simp [World.bump]
@[simp] theorem World.bump_upd (w : World) (h : Half) (f : Field) (i : Nat) : (w.bump h f i).upd = w.upd := by simp [World.bump]
@[simp] theorem World.bump_pwr (w : World) (h : Half) (f : Field) (i : Nat) : (w.bump h f i).pwr = w.pwr := by simp [World.bump]
@[simp] theorem World.bump_dsp (w : World) (h : Half) (f : Field) (i : Nat) : (w.bump h f i).dsp = w.dsp := by simp [World.bump]
@[simp] theorem World.bump_latch (w : World) (h : Half) (f : Field) (i : Nat) : (w.bump h f i).latch = w.latch := by simp [World.bump]

/-! wrBoth. -/

@[simp] theorem World.wrBoth_now (w : World) (f : Field) (i v : Nat) : (w.wrBoth f i v).now = w.now := by simp [World.wrBoth]
@[simp] theorem World.wrBoth_fresh (w : World) (f : Field) (i v : Nat) : (w.wrBoth f i v).fresh = w.fresh := by simp [World.wrBoth]
@[simp] theorem World.wrBoth_run (w : World) (f : Field) (i v : Nat) : (w.wrBoth f i v).run = w.run := by simp [World.wrBoth]
@[simp] theorem World.wrBoth_evt (w : World) (f : Field) (i v : Nat) : (w.wrBoth f i v).evt = w.evt := by simp [World.wrBoth]
@[simp] theorem World.wrBoth_xng (w : World) (f : Field) (i v : Nat) : (w.wrBoth f i v).xng = w.xng := by simp [World.wrBoth]
@[simp] theorem World.wrBoth_roast (w : World) (f : Field) (i v : Nat) : (w.wrBoth f i v).roast = w.roast := by simp [World.wrBoth]
@[simp] theorem World.wrBoth_bp (w : World) (f : Field) (i v : Nat) : (w.wrBoth f i v).bp = w.bp := by simp [World.wrBoth]
@[simp] theorem World.wrBoth_devId (w : World) (f : Field) (i v : Nat) : (w.wrBoth f i v).devId = w.devId := by simp [World.wrBoth]
@[simp] theorem World.wrBoth_act (w : World) (f : Field) (i v : Nat) : (w.wrBoth f i v).act = w.act := by simp [World.wrBoth]
@[simp] theorem World.wrBoth_shut (w : World) (f : Field) (i v : Nat) : (w.wrBoth f i v).shut = w.shut := by simp [World.wrBoth]
@[simp] theorem World.wrBoth_frame (w : World) (f : Field) (i v : Nat) : (w.wrBoth f i v).frame = w.frame := by simp [World.wrBoth]
@[simp] theorem World.wrBoth_svc (w : World) (f : Field) (i v : Nat) : (w.wrBoth f i v).svc = w.svc := by simp [World.wrBoth]
@[simp] theorem World.wrBoth_tim (w : World) (f : Field) (i v : Nat) : (w.wrBoth f i v).tim = w.tim := by simp [World.wrBoth]
@[simp] theorem World.wrBoth_set (w : World) (f : Field) (i v : Nat) : (w.wrBoth f i v).set = w.set := by simp [World.wrBoth]
@[simp] theorem World.wrBoth_opt (w : World) (f : Field) (i v : Nat) : (w.wrBoth f i v).opt = w.opt := by simp [World.wrBoth]
@[simp] theorem World.wrBoth_vlv (w : World) (f : Field) (i v : Nat) : (w.wrBoth f i v).vlv = w.vlv := by simp [World.wrBoth]
@[simp] theorem World.wrBoth_lsw (w : World) (f : Field) (i v : Nat) : (w.wrBoth f i v).lsw = w.lsw := by simp [World.wrBoth]
@[simp] theorem World.wrBoth_uin (w : World) (f : Field) (i v : Nat) : (w.wrBoth f i v).uin = w.uin := by simp [World.wrBoth]
@[simp] theorem World.wrBoth_yld (w : World) (f : Field) (i v : Nat) : (w.wrBoth f i v).yld = w.yld := by simp [World.wrBoth]
@[simp] theorem World.wrBoth_cal (w : World) (f : Field) (i v : Nat) : (w.wrBoth f i v).cal = w.cal := by simp [World.wrBoth]
@[simp] theorem World.wrBoth_dram (w : World) (f : Field) (i v : Nat) : (w.wrBoth f i v).dram = w.dram := by simp [World.wrBoth]
@[simp] theorem World.wrBoth_pose (w : World) (f : Field) (i v : Nat) : (w.wrBoth f i v).pose = w.pose := by simp [World.wrBoth]
@[simp] theorem World.wrBoth_grd (w : World) (f : Field) (i v : Nat) : (w.wrBoth f i v).grd = w.grd := by simp [World.wrBoth]
@[simp] theorem World.wrBoth_trk (w : World) (f : Field) (i v : Nat) : (w.wrBoth f i v).trk = w.trk := by simp [World.wrBoth]
@[simp] theorem World.wrBoth_gns (w : World) (f : Field) (i v : Nat) : (w.wrBoth f i v).gns = w.gns := by simp [World.wrBoth]
@[simp] theorem World.wrBoth_keeper (w : World) (f : Field) (i v : Nat) : (w.wrBoth f i v).keeper = w.keeper := by simp [World.wrBoth]
@[simp] theorem World.wrBoth_can (w : World) (f : Field) (i v : Nat) : (w.wrBoth f i v).can = w.can := by simp [World.wrBoth]
@[simp] theorem World.wrBoth_flx (w : World) (f : Field) (i v : Nat) : (w.wrBoth f i v).flx = w.flx := by simp [World.wrBoth]
@[simp] theorem World.wrBoth_upd (w : World) (f : Field) (i v : Nat) : (w.wrBoth f i v).upd = w.upd := by simp [World.wrBoth]
@[simp] theorem World.wrBoth_pwr (w : World) (f : Field) (i v : Nat) : (w.wrBoth f i v).pwr = w.pwr := by simp [World.wrBoth]
@[simp] theorem World.wrBoth_dsp (w : World) (f : Field) (i v : Nat) : (w.wrBoth f i v).dsp = w.dsp := by simp [World.wrBoth]
@[simp] theorem World.wrBoth_latch (w : World) (f : Field) (i v : Nat) : (w.wrBoth f i v).latch = w.latch := by simp [World.wrBoth]

/-! raise. -/

@[simp] theorem World.raise_now (w : World) (h : Half) (num arg : Nat) : (w.raise h num arg).now = w.now := by unfold World.raise; split <;> (dsimp only; try split) <;> simp
@[simp] theorem World.raise_fresh (w : World) (h : Half) (num arg : Nat) : (w.raise h num arg).fresh = w.fresh := by unfold World.raise; split <;> (dsimp only; try split) <;> simp
@[simp] theorem World.raise_run (w : World) (h : Half) (num arg : Nat) : (w.raise h num arg).run = w.run := by unfold World.raise; split <;> (dsimp only; try split) <;> simp
@[simp] theorem World.raise_xng (w : World) (h : Half) (num arg : Nat) : (w.raise h num arg).xng = w.xng := by unfold World.raise; split <;> (dsimp only; try split) <;> simp
@[simp] theorem World.raise_roast (w : World) (h : Half) (num arg : Nat) : (w.raise h num arg).roast = w.roast := by unfold World.raise; split <;> (dsimp only; try split) <;> simp
@[simp] theorem World.raise_bp (w : World) (h : Half) (num arg : Nat) : (w.raise h num arg).bp = w.bp := by unfold World.raise; split <;> (dsimp only; try split) <;> simp
@[simp] theorem World.raise_devId (w : World) (h : Half) (num arg : Nat) : (w.raise h num arg).devId = w.devId := by unfold World.raise; split <;> (dsimp only; try split) <;> simp
@[simp] theorem World.raise_act (w : World) (h : Half) (num arg : Nat) : (w.raise h num arg).act = w.act := by unfold World.raise; split <;> (dsimp only; try split) <;> simp
@[simp] theorem World.raise_shut (w : World) (h : Half) (num arg : Nat) : (w.raise h num arg).shut = w.shut := by unfold World.raise; split <;> (dsimp only; try split) <;> simp
@[simp] theorem World.raise_frame (w : World) (h : Half) (num arg : Nat) : (w.raise h num arg).frame = w.frame := by unfold World.raise; split <;> (dsimp only; try split) <;> simp
@[simp] theorem World.raise_svc (w : World) (h : Half) (num arg : Nat) : (w.raise h num arg).svc = w.svc := by unfold World.raise; split <;> (dsimp only; try split) <;> simp
@[simp] theorem World.raise_tim (w : World) (h : Half) (num arg : Nat) : (w.raise h num arg).tim = w.tim := by unfold World.raise; split <;> (dsimp only; try split) <;> simp
@[simp] theorem World.raise_set (w : World) (h : Half) (num arg : Nat) : (w.raise h num arg).set = w.set := by unfold World.raise; split <;> (dsimp only; try split) <;> simp
@[simp] theorem World.raise_opt (w : World) (h : Half) (num arg : Nat) : (w.raise h num arg).opt = w.opt := by unfold World.raise; split <;> (dsimp only; try split) <;> simp
@[simp] theorem World.raise_vlv (w : World) (h : Half) (num arg : Nat) : (w.raise h num arg).vlv = w.vlv := by unfold World.raise; split <;> (dsimp only; try split) <;> simp
@[simp] theorem World.raise_lsw (w : World) (h : Half) (num arg : Nat) : (w.raise h num arg).lsw = w.lsw := by unfold World.raise; split <;> (dsimp only; try split) <;> simp
@[simp] theorem World.raise_uin (w : World) (h : Half) (num arg : Nat) : (w.raise h num arg).uin = w.uin := by unfold World.raise; split <;> (dsimp only; try split) <;> simp
@[simp] theorem World.raise_yld (w : World) (h : Half) (num arg : Nat) : (w.raise h num arg).yld = w.yld := by unfold World.raise; split <;> (dsimp only; try split) <;> simp
@[simp] theorem World.raise_cal (w : World) (h : Half) (num arg : Nat) : (w.raise h num arg).cal = w.cal := by unfold World.raise; split <;> (dsimp only; try split) <;> simp
@[simp] theorem World.raise_dram (w : World) (h : Half) (num arg : Nat) : (w.raise h num arg).dram = w.dram := by unfold World.raise; split <;> (dsimp only; try split) <;> simp
@[simp] theorem World.raise_pose (w : World) (h : Half) (num arg : Nat) : (w.raise h num arg).pose = w.pose := by unfold World.raise; split <;> (dsimp only; try split) <;> simp
@[simp] theorem World.raise_grd (w : World) (h : Half) (num arg : Nat) : (w.raise h num arg).grd = w.grd := by unfold World.raise; split <;> (dsimp only; try split) <;> simp
@[simp] theorem World.raise_trk (w : World) (h : Half) (num arg : Nat) : (w.raise h num arg).trk = w.trk := by unfold World.raise; split <;> (dsimp only; try split) <;> simp
@[simp] theorem World.raise_gns (w : World) (h : Half) (num arg : Nat) : (w.raise h num arg).gns = w.gns := by unfold World.raise; split <;> (dsimp only; try split) <;> simp
@[simp] theorem World.raise_keeper (w : World) (h : Half) (num arg : Nat) : (w.raise h num arg).keeper = w.keeper := by unfold World.raise; split <;> (dsimp only; try split) <;> simp
@[simp] theorem World.raise_can (w : World) (h : Half) (num arg : Nat) : (w.raise h num arg).can = w.can := by unfold World.raise; split <;> (dsimp only; try split) <;> simp
@[simp] theorem World.raise_flx (w : World) (h : Half) (num arg : Nat) : (w.raise h num arg).flx = w.flx := by unfold World.raise; split <;> (dsimp only; try split) <;> simp
@[simp] theorem World.raise_upd (w : World) (h : Half) (num arg : Nat) : (w.raise h num arg).upd = w.upd := by unfold World.raise; split <;> (dsimp only; try split) <;> simp
@[simp] theorem World.raise_pwr (w : World) (h : Half) (num arg : Nat) : (w.raise h num arg).pwr = w.pwr := by unfold World.raise; split <;> (dsimp only; try split) <;> simp
@[simp] theorem World.raise_dsp (w : World) (h : Half) (num arg : Nat) : (w.raise h num arg).dsp = w.dsp := by unfold World.raise; split <;> (dsimp only; try split) <;> simp
@[simp] theorem World.raise_latch (w : World) (h : Half) (num arg : Nat) : (w.raise h num arg).latch = w.latch := by unfold World.raise; split <;> (dsimp only; try split) <;> simp

/-! raiseBoth. -/

@[simp] theorem World.raiseBoth_now (w : World) (num arg : Nat) : (w.raiseBoth num arg).now = w.now := by simp [World.raiseBoth]
@[simp] theorem World.raiseBoth_fresh (w : World) (num arg : Nat) : (w.raiseBoth num arg).fresh = w.fresh := by simp [World.raiseBoth]
@[simp] theorem World.raiseBoth_run (w : World) (num arg : Nat) : (w.raiseBoth num arg).run = w.run := by simp [World.raiseBoth]
@[simp] theorem World.raiseBoth_xng (w : World) (num arg : Nat) : (w.raiseBoth num arg).xng = w.xng := by simp [World.raiseBoth]
@[simp] theorem World.raiseBoth_roast (w : World) (num arg : Nat) : (w.raiseBoth num arg).roast = w.roast := by simp [World.raiseBoth]
@[simp] theorem World.raiseBoth_bp (w : World) (num arg : Nat) : (w.raiseBoth num arg).bp = w.bp := by simp [World.raiseBoth]
@[simp] theorem World.raiseBoth_devId (w : World) (num arg : Nat) : (w.raiseBoth num arg).devId = w.devId := by simp [World.raiseBoth]
@[simp] theorem World.raiseBoth_act (w : World) (num arg : Nat) : (w.raiseBoth num arg).act = w.act := by simp [World.raiseBoth]
@[simp] theorem World.raiseBoth_shut (w : World) (num arg : Nat) : (w.raiseBoth num arg).shut = w.shut := by simp [World.raiseBoth]
@[simp] theorem World.raiseBoth_frame (w : World) (num arg : Nat) : (w.raiseBoth num arg).frame = w.frame := by simp [World.raiseBoth]
@[simp] theorem World.raiseBoth_svc (w : World) (num arg : Nat) : (w.raiseBoth num arg).svc = w.svc := by simp [World.raiseBoth]
@[simp] theorem World.raiseBoth_tim (w : World) (num arg : Nat) : (w.raiseBoth num arg).tim = w.tim := by simp [World.raiseBoth]
@[simp] theorem World.raiseBoth_set (w : World) (num arg : Nat) : (w.raiseBoth num arg).set = w.set := by simp [World.raiseBoth]
@[simp] theorem World.raiseBoth_opt (w : World) (num arg : Nat) : (w.raiseBoth num arg).opt = w.opt := by simp [World.raiseBoth]
@[simp] theorem World.raiseBoth_vlv (w : World) (num arg : Nat) : (w.raiseBoth num arg).vlv = w.vlv := by simp [World.raiseBoth]
@[simp] theorem World.raiseBoth_lsw (w : World) (num arg : Nat) : (w.raiseBoth num arg).lsw = w.lsw := by simp [World.raiseBoth]
@[simp] theorem World.raiseBoth_uin (w : World) (num arg : Nat) : (w.raiseBoth num arg).uin = w.uin := by simp [World.raiseBoth]
@[simp] theorem World.raiseBoth_yld (w : World) (num arg : Nat) : (w.raiseBoth num arg).yld = w.yld := by simp [World.raiseBoth]
@[simp] theorem World.raiseBoth_cal (w : World) (num arg : Nat) : (w.raiseBoth num arg).cal = w.cal := by simp [World.raiseBoth]
@[simp] theorem World.raiseBoth_dram (w : World) (num arg : Nat) : (w.raiseBoth num arg).dram = w.dram := by simp [World.raiseBoth]
@[simp] theorem World.raiseBoth_pose (w : World) (num arg : Nat) : (w.raiseBoth num arg).pose = w.pose := by simp [World.raiseBoth]
@[simp] theorem World.raiseBoth_grd (w : World) (num arg : Nat) : (w.raiseBoth num arg).grd = w.grd := by simp [World.raiseBoth]
@[simp] theorem World.raiseBoth_trk (w : World) (num arg : Nat) : (w.raiseBoth num arg).trk = w.trk := by simp [World.raiseBoth]
@[simp] theorem World.raiseBoth_gns (w : World) (num arg : Nat) : (w.raiseBoth num arg).gns = w.gns := by simp [World.raiseBoth]
@[simp] theorem World.raiseBoth_keeper (w : World) (num arg : Nat) : (w.raiseBoth num arg).keeper = w.keeper := by simp [World.raiseBoth]
@[simp] theorem World.raiseBoth_can (w : World) (num arg : Nat) : (w.raiseBoth num arg).can = w.can := by simp [World.raiseBoth]
@[simp] theorem World.raiseBoth_flx (w : World) (num arg : Nat) : (w.raiseBoth num arg).flx = w.flx := by simp [World.raiseBoth]
@[simp] theorem World.raiseBoth_upd (w : World) (num arg : Nat) : (w.raiseBoth num arg).upd = w.upd := by simp [World.raiseBoth]
@[simp] theorem World.raiseBoth_pwr (w : World) (num arg : Nat) : (w.raiseBoth num arg).pwr = w.pwr := by simp [World.raiseBoth]
@[simp] theorem World.raiseBoth_dsp (w : World) (num arg : Nat) : (w.raiseBoth num arg).dsp = w.dsp := by simp [World.raiseBoth]
@[simp] theorem World.raiseBoth_latch (w : World) (num arg : Nat) : (w.raiseBoth num arg).latch = w.latch := by simp [World.raiseBoth]

/-! violation. -/

@[simp] theorem World.violation_now (w : World) (h : Half) (init obj : Nat) : (w.violation h init obj).now = w.now := by simp [World.violation]
@[simp] theorem World.violation_fresh (w : World) (h : Half) (init obj : Nat) : (w.violation h init obj).fresh = w.fresh := by simp [World.violation]
@[simp] theorem World.violation_run (w : World) (h : Half) (init obj : Nat) : (w.violation h init obj).run = w.run := by simp [World.violation]
@[simp] theorem World.violation_xng (w : World) (h : Half) (init obj : Nat) : (w.violation h init obj).xng = w.xng := by simp [World.violation]
@[simp] theorem World.violation_roast (w : World) (h : Half) (init obj : Nat) : (w.violation h init obj).roast = w.roast := by simp [World.violation]
@[simp] theorem World.violation_bp (w : World) (h : Half) (init obj : Nat) : (w.violation h init obj).bp = w.bp := by simp [World.violation]
@[simp] theorem World.violation_devId (w : World) (h : Half) (init obj : Nat) : (w.violation h init obj).devId = w.devId := by simp [World.violation]
@[simp] theorem World.violation_act (w : World) (h : Half) (init obj : Nat) : (w.violation h init obj).act = w.act := by simp [World.violation]
@[simp] theorem World.violation_shut (w : World) (h : Half) (init obj : Nat) : (w.violation h init obj).shut = w.shut := by simp [World.violation]
@[simp] theorem World.violation_frame (w : World) (h : Half) (init obj : Nat) : (w.violation h init obj).frame = w.frame := by simp [World.violation]
@[simp] theorem World.violation_svc (w : World) (h : Half) (init obj : Nat) : (w.violation h init obj).svc = w.svc := by simp [World.violation]
@[simp] theorem World.violation_tim (w : World) (h : Half) (init obj : Nat) : (w.violation h init obj).tim = w.tim := by simp [World.violation]
@[simp] theorem World.violation_set (w : World) (h : Half) (init obj : Nat) : (w.violation h init obj).set = w.set := by simp [World.violation]
@[simp] theorem World.violation_opt (w : World) (h : Half) (init obj : Nat) : (w.violation h init obj).opt = w.opt := by simp [World.violation]
@[simp] theorem World.violation_vlv (w : World) (h : Half) (init obj : Nat) : (w.violation h init obj).vlv = w.vlv := by simp [World.violation]
@[simp] theorem World.violation_lsw (w : World) (h : Half) (init obj : Nat) : (w.violation h init obj).lsw = w.lsw := by simp [World.violation]
@[simp] theorem World.violation_uin (w : World) (h : Half) (init obj : Nat) : (w.violation h init obj).uin = w.uin := by simp [World.violation]
@[simp] theorem World.violation_yld (w : World) (h : Half) (init obj : Nat) : (w.violation h init obj).yld = w.yld := by simp [World.violation]
@[simp] theorem World.violation_cal (w : World) (h : Half) (init obj : Nat) : (w.violation h init obj).cal = w.cal := by simp [World.violation]
@[simp] theorem World.violation_dram (w : World) (h : Half) (init obj : Nat) : (w.violation h init obj).dram = w.dram := by simp [World.violation]
@[simp] theorem World.violation_pose (w : World) (h : Half) (init obj : Nat) : (w.violation h init obj).pose = w.pose := by simp [World.violation]
@[simp] theorem World.violation_grd (w : World) (h : Half) (init obj : Nat) : (w.violation h init obj).grd = w.grd := by simp [World.violation]
@[simp] theorem World.violation_trk (w : World) (h : Half) (init obj : Nat) : (w.violation h init obj).trk = w.trk := by simp [World.violation]
@[simp] theorem World.violation_gns (w : World) (h : Half) (init obj : Nat) : (w.violation h init obj).gns = w.gns := by simp [World.violation]
@[simp] theorem World.violation_keeper (w : World) (h : Half) (init obj : Nat) : (w.violation h init obj).keeper = w.keeper := by simp [World.violation]
@[simp] theorem World.violation_can (w : World) (h : Half) (init obj : Nat) : (w.violation h init obj).can = w.can := by simp [World.violation]
@[simp] theorem World.violation_flx (w : World) (h : Half) (init obj : Nat) : (w.violation h init obj).flx = w.flx := by simp [World.violation]
@[simp] theorem World.violation_upd (w : World) (h : Half) (init obj : Nat) : (w.violation h init obj).upd = w.upd := by simp [World.violation]
@[simp] theorem World.violation_pwr (w : World) (h : Half) (init obj : Nat) : (w.violation h init obj).pwr = w.pwr := by simp [World.violation]
@[simp] theorem World.violation_dsp (w : World) (h : Half) (init obj : Nat) : (w.violation h init obj).dsp = w.dsp := by simp [World.violation]
@[simp] theorem World.violation_latch (w : World) (h : Half) (init obj : Nat) : (w.violation h init obj).latch = w.latch := by simp [World.violation]

/-! putMem. -/

@[simp] theorem World.putMem_now (w : World) (h : Half) (r a : Nat) (bs : List Byte) : (w.putMem h r a bs).now = w.now := by rfl
@[simp] theorem World.putMem_fresh (w : World) (h : Half) (r a : Nat) (bs : List Byte) : (w.putMem h r a bs).fresh = w.fresh := by rfl
@[simp] theorem World.putMem_run (w : World) (h : Half) (r a : Nat) (bs : List Byte) : (w.putMem h r a bs).run = w.run := by rfl
@[simp] theorem World.putMem_evt (w : World) (h : Half) (r a : Nat) (bs : List Byte) : (w.putMem h r a bs).evt = w.evt := by rfl
@[simp] theorem World.putMem_xng (w : World) (h : Half) (r a : Nat) (bs : List Byte) : (w.putMem h r a bs).xng = w.xng := by rfl
@[simp] theorem World.putMem_roast (w : World) (h : Half) (r a : Nat) (bs : List Byte) : (w.putMem h r a bs).roast = w.roast := by rfl
@[simp] theorem World.putMem_bp (w : World) (h : Half) (r a : Nat) (bs : List Byte) : (w.putMem h r a bs).bp = w.bp := by rfl
@[simp] theorem World.putMem_devId (w : World) (h : Half) (r a : Nat) (bs : List Byte) : (w.putMem h r a bs).devId = w.devId := by rfl
@[simp] theorem World.putMem_act (w : World) (h : Half) (r a : Nat) (bs : List Byte) : (w.putMem h r a bs).act = w.act := by rfl
@[simp] theorem World.putMem_shut (w : World) (h : Half) (r a : Nat) (bs : List Byte) : (w.putMem h r a bs).shut = w.shut := by rfl
@[simp] theorem World.putMem_frame (w : World) (h : Half) (r a : Nat) (bs : List Byte) : (w.putMem h r a bs).frame = w.frame := by rfl
@[simp] theorem World.putMem_svc (w : World) (h : Half) (r a : Nat) (bs : List Byte) : (w.putMem h r a bs).svc = w.svc := by rfl
@[simp] theorem World.putMem_tim (w : World) (h : Half) (r a : Nat) (bs : List Byte) : (w.putMem h r a bs).tim = w.tim := by rfl
@[simp] theorem World.putMem_set (w : World) (h : Half) (r a : Nat) (bs : List Byte) : (w.putMem h r a bs).set = w.set := by rfl
@[simp] theorem World.putMem_opt (w : World) (h : Half) (r a : Nat) (bs : List Byte) : (w.putMem h r a bs).opt = w.opt := by rfl
@[simp] theorem World.putMem_vlv (w : World) (h : Half) (r a : Nat) (bs : List Byte) : (w.putMem h r a bs).vlv = w.vlv := by rfl
@[simp] theorem World.putMem_lsw (w : World) (h : Half) (r a : Nat) (bs : List Byte) : (w.putMem h r a bs).lsw = w.lsw := by rfl
@[simp] theorem World.putMem_uin (w : World) (h : Half) (r a : Nat) (bs : List Byte) : (w.putMem h r a bs).uin = w.uin := by rfl
@[simp] theorem World.putMem_yld (w : World) (h : Half) (r a : Nat) (bs : List Byte) : (w.putMem h r a bs).yld = w.yld := by rfl
@[simp] theorem World.putMem_cal (w : World) (h : Half) (r a : Nat) (bs : List Byte) : (w.putMem h r a bs).cal = w.cal := by rfl
@[simp] theorem World.putMem_pose (w : World) (h : Half) (r a : Nat) (bs : List Byte) : (w.putMem h r a bs).pose = w.pose := by rfl
@[simp] theorem World.putMem_grd (w : World) (h : Half) (r a : Nat) (bs : List Byte) : (w.putMem h r a bs).grd = w.grd := by rfl
@[simp] theorem World.putMem_trk (w : World) (h : Half) (r a : Nat) (bs : List Byte) : (w.putMem h r a bs).trk = w.trk := by rfl
@[simp] theorem World.putMem_gns (w : World) (h : Half) (r a : Nat) (bs : List Byte) : (w.putMem h r a bs).gns = w.gns := by rfl
@[simp] theorem World.putMem_keeper (w : World) (h : Half) (r a : Nat) (bs : List Byte) : (w.putMem h r a bs).keeper = w.keeper := by rfl
@[simp] theorem World.putMem_can (w : World) (h : Half) (r a : Nat) (bs : List Byte) : (w.putMem h r a bs).can = w.can := by rfl
@[simp] theorem World.putMem_flx (w : World) (h : Half) (r a : Nat) (bs : List Byte) : (w.putMem h r a bs).flx = w.flx := by rfl
@[simp] theorem World.putMem_upd (w : World) (h : Half) (r a : Nat) (bs : List Byte) : (w.putMem h r a bs).upd = w.upd := by rfl
@[simp] theorem World.putMem_pwr (w : World) (h : Half) (r a : Nat) (bs : List Byte) : (w.putMem h r a bs).pwr = w.pwr := by rfl
@[simp] theorem World.putMem_dsp (w : World) (h : Half) (r a : Nat) (bs : List Byte) : (w.putMem h r a bs).dsp = w.dsp := by rfl
@[simp] theorem World.putMem_latch (w : World) (h : Half) (r a : Nat) (bs : List Byte) : (w.putMem h r a bs).latch = w.latch := by rfl

/-! Reads of registers. -/

@[simp] theorem World.rd_putMem (w : World) (h g : Half) (r a : Nat) (bs : List Byte) (f : Field) (i : Nat) :
    (w.putMem h r a bs).rd g f i = w.rd g f i := rfl

/-- A raise changes no register but the count of dropped raises (R482). -/
theorem World.reg_raise (w : World) (h g : Half) (num arg : Nat) (f : Field) (i : Nat) (hf : f.reg < 2 ^ 25)
    (hl : f.reg ≠ 0x100018) : (w.raise h num arg).reg g f i = w.reg g f i := by
  unfold World.raise
  split
  · dsimp only
    split
    · rfl
    · rw [World.bump, World.wr, World.reg_setReg_ne]
      · rfl
      · intro hk
        exact hl (fieldKey_inj hf (by decide) hk).2
  · rfl

/-- A raise changes no field of a register but the count of dropped raises (R482). -/
theorem World.rd_raise (w : World) (h g : Half) (num arg : Nat) (f : Field) (i : Nat)
    (hf : (decide (f.reg < 2 ^ 25) && decide (f.reg ≠ 0x100018)) = true) : (w.raise h num arg).rd g f i = w.rd g f i := by
  simp only [Bool.and_eq_true, decide_eq_true_eq] at hf
  rw [World.rd, World.rd, World.reg_raise w h g num arg f i hf.1 hf.2]

theorem World.rd_raiseBoth (w : World) (g : Half) (num arg : Nat) (f : Field) (i : Nat)
    (hf : (decide (f.reg < 2 ^ 25) && decide (f.reg ≠ 0x100018)) = true) : (w.raiseBoth num arg).rd g f i = w.rd g f i := by
  rw [World.raiseBoth, World.rd_raise _ _ _ _ _ _ _ hf, World.rd_raise _ _ _ _ _ _ _ hf]

/-- A count that rises saturates at the top of its field. -/
theorem World.rd_bump_same (w : World) (h : Half) (f : Field) (i : Nat) (hf : f.lo + f.w ≤ 32) :
    (w.bump h f i).rd h f i = satInc f.w (w.rd h f i) := by
  rw [World.bump, World.rd_wr_same _ _ _ _ _ hf, Nat.mod_eq_of_lt]
  unfold satInc
  have h0 : 0 < 2 ^ f.w := Nat.two_pow_pos _
  split <;> omega

theorem World.rd_bump_apart (w : World) (h g : Half) (f k : Field) (i j : Nat) (ha : fieldsApart f k = true) :
    (w.bump h f i).rd g k j = w.rd g k j := World.rd_wr_apart _ _ _ _ _ _ _ _ ha

theorem World.rd_wrI_apart (w : World) (h g : Half) (f k : Field) (i j : Nat) (v : Int) (ha : fieldsApart f k = true) :
    (w.wrI h f i v).rd g k j = w.rd g k j := World.rd_wr_apart _ _ _ _ _ _ _ _ ha

theorem World.rd_wrBoth_apart (w : World) (g : Half) (f k : Field) (i j v : Nat) (ha : fieldsApart f k = true) :
    (w.wrBoth f i v).rd g k j = w.rd g k j := by
  rw [World.wrBoth, World.rd_wr_apart _ _ _ _ _ _ _ _ ha, World.rd_wr_apart _ _ _ _ _ _ _ _ ha]

theorem World.rd_wrBoth_same (w : World) (g : Half) (f : Field) (i v : Nat) (hf : f.lo + f.w ≤ 32) :
    (w.wrBoth f i v).rd g f i = v % 2 ^ f.w := by
  rw [World.wrBoth]
  by_cases hb : f.bp = true
  · rw [World.rd_wr_bp _ _ _ _ _ _ hf hb]
  · cases g
    · rw [World.rd_wr_half _ _ _ _ _ _ (by decide) (by simpa using hb), World.rd_wr_same _ _ _ _ _ hf]
    · rw [World.rd_wr_same _ _ _ _ _ hf]

/-! Outcomes. -/

@[simp] theorem lift_next (s : State) (f : World → World) : lift s f = .next { s with w := f s.w } := rfl
@[simp] theorem putW_next (s : State) (w : World) : putW s w = .next { s with w := w } := rfl
@[simp] theorem World.when_true (w : World) (f : World → World) : w.when true f = f w := rfl
@[simp] theorem World.when_false (w : World) (f : World → World) : w.when false f = w := rfl

/-- A write that acts on an object its half owns is taken. -/
theorem gateObj_owned (s : State) (h : Half) (init k : Nat) (f : World → World) (ha : s.own.alive h = true)
    (ho : s.own.owns h k = true) : gateObj s h init k f = f s.w := by simp [gateObj, ha, ho]

/-- A write that acts on an object its half does not own is ignored and recorded (R20). -/
theorem gateObj_refused (s : State) (h : Half) (init k : Nat) (f : World → World) (ha : s.own.alive h = true)
    (ho : s.own.owns h k = false) : gateObj s h init k f = s.w.violation h init k := by simp [gateObj, ha, ho]

/-- The arbiter ignores a half whose alive line is low (R25). -/
theorem gateObj_low (s : State) (h : Half) (init k : Nat) (f : World → World) (ha : s.own.alive h = false) :
    gateObj s h init k f = s.w := by simp [gateObj, ha]

/-! Tokens. -/

@[simp] theorem Own.token_setToken_same (o : Own) (k : Nat) (t : Token) : (o.setToken k t).token k = t := by
  simp [Own.token, Own.setToken]

theorem Own.token_setToken_ne (o : Own) {k j : Nat} (t : Token) (h : j ≠ k) : (o.setToken k t).token j = o.token j :=
  NMap.get_set_ne _ _ _ h

theorem Own.token_setToken (o : Own) (k j : Nat) (t : Token) :
    (o.setToken k t).token j = if j = k then t else o.token j := NMap.get_set _ _ _ _ _

@[simp] theorem Own.setToken_low (o : Own) (k : Nat) (t : Token) : (o.setToken k t).low = o.low := rfl
@[simp] theorem Own.setToken_server (o : Own) (k : Nat) (t : Token) : (o.setToken k t).server = o.server := rfl
@[simp] theorem Own.setToken_fellAt (o : Own) (k : Nat) (t : Token) : (o.setToken k t).fellAt = o.fellAt := rfl
@[simp] theorem Own.setToken_fallSet (o : Own) (k : Nat) (t : Token) : (o.setToken k t).fallSet = o.fallSet := rfl
@[simp] theorem Own.setToken_hwIssued (o : Own) (k : Nat) (t : Token) : (o.setToken k t).hwIssued = o.hwIssued := rfl
@[simp] theorem Own.setToken_op (o : Own) (k : Nat) (t : Token) : (o.setToken k t).op = o.op := rfl
@[simp] theorem Own.setToken_alive (o : Own) (k : Nat) (t : Token) (h : Half) : (o.setToken k t).alive h = o.alive h := rfl

/-- A token has one owner (R14, R22). -/
theorem Own.owns_other (o : Own) (h : Half) (k : Nat) (ho : o.owns h k = true) : o.owns h.other k = false := by
  simp only [Own.owns, decide_eq_true_eq] at ho ⊢
  simp [ho]

end Sys2Proof.Machine
end

