-- ==== Sys2Proof/Laws/Own.lean ====
section
/-!
SUPPORT. Laws of the arbiter's operations: OWN_RESULT, the passing of a token, ORPHAN entry.
-/
namespace Sys2Proof.Machine

/-- What OWN_RESULT shows after its write. -/
theorem World.rd_ownResult (w : World) (h : Half) (obj res : Nat) (busy : Bool) :
    (w.ownResult h obj res busy).rd h F.OWN_RESULT.OBJ = obj % 512 ∧ (w.ownResult h obj res busy).rd h F.OWN_RESULT.RES = res % 8 ∧
      (w.ownResult h obj res busy).rd h F.OWN_RESULT.BUSY = b2n busy := by
  refine ⟨?_, ?_, ?_⟩
  · rw [ownResult, rd_wr_apart _ _ _ _ _ _ _ _ (by decide), rd_wr_apart _ _ _ _ _ _ _ _ (by decide), rd_wr_same _ _ _ _ _ (by decide)]
    rfl
  · rw [ownResult, rd_wr_apart _ _ _ _ _ _ _ _ (by decide), rd_wr_same _ _ _ _ _ (by decide)]
    rfl
  · rw [ownResult, rd_wr_same _ _ _ _ _ (by decide)]
    cases busy <;> rfl

/-- A write of OWN_RESULT leaves every other register, and the other half's. -/
theorem World.rd_ownResult_other (w : World) (h g : Half) (obj res i : Nat) (busy : Bool) (f : Field)
    (hf : (fieldsApart F.OWN_RESULT.OBJ f && fieldsApart F.OWN_RESULT.RES f && fieldsApart F.OWN_RESULT.BUSY f) = true) :
    (w.ownResult h obj res busy).rd g f i = w.rd g f i := by
  simp only [Bool.and_eq_true] at hf
  rw [ownResult, rd_wr_apart _ _ _ _ _ _ _ _ hf.2, rd_wr_apart _ _ _ _ _ _ _ _ hf.1.2, rd_wr_apart _ _ _ _ _ _ _ _ hf.1.1]

theorem World.rd_ownResult_half (w : World) {h g : Half} (obj res i : Nat) (busy : Bool) (f : Field) (hg : g ≠ h) :
    (w.ownResult h obj res busy).rd g f i = w.rd g f i := by
  rw [ownResult, rd_wr_half _ _ _ _ _ _ hg rfl, rd_wr_half _ _ _ _ _ _ hg rfl, rd_wr_half _ _ _ _ _ _ hg rfl]

@[simp] theorem State.onW_own (s : State) (f : World → World) : (s.onW f).own = s.own := rfl
@[simp] theorem State.onW_w (s : State) (f : World → World) : (s.onW f).w = f s.w := rfl
@[simp] theorem State.onW_ledger (s : State) (f : World → World) : (s.onW f).ledger = s.ledger := rfl
@[simp] theorem State.onW_bus (s : State) (f : World → World) : (s.onW f).bus = s.bus := rfl
@[simp] theorem State.onW_pending (s : State) (f : World → World) : (s.onW f).pending = s.pending := rfl
@[simp] theorem State.onOwn_own (s : State) (f : Own → Own) : (s.onOwn f).own = f s.own := rfl
@[simp] theorem State.onOwn_w (s : State) (f : Own → Own) : (s.onOwn f).w = s.w := rfl
@[simp] theorem State.onOwn_ledger (s : State) (f : Own → Own) : (s.onOwn f).ledger = s.ledger := rfl
@[simp] theorem State.onOwn_bus (s : State) (f : Own → Own) : (s.onOwn f).bus = s.bus := rfl
@[simp] theorem State.onOwn_pending (s : State) (f : Own → Own) : (s.onOwn f).pending = s.pending := rfl
@[simp] theorem State.when_true (s : State) (f : State → State) : s.when true f = f s := rfl
@[simp] theorem State.when_false (s : State) (f : State → State) : s.when false f = s := rfl

/-- OWN_RESULT after an operation has written it. -/
theorem State.resultIs_onW (s : State) (h : Half) (obj res : Nat) (busy : Bool) (ho : obj < 512) (hr : res < 8) :
    (s.onW fun w => w.ownResult h obj res busy).ResultIs h obj res (b2n busy) := by
  have := s.w.rd_ownResult h obj res busy
  rw [Nat.mod_eq_of_lt ho, Nat.mod_eq_of_lt hr] at this
  exact this

/-! Tokens through the named operations. -/

@[simp] theorem State.leaves_own (s : State) (k : Nat) : (s.leaves k).own = s.own := by
  unfold State.leaves State.when; split <;> rfl
@[simp] theorem State.leaves_ledger (s : State) (k : Nat) : (s.leaves k).ledger = s.ledger := by
  unfold State.leaves State.when; split <;> rfl
@[simp] theorem State.leaves_bus (s : State) (k : Nat) : (s.leaves k).bus = s.bus := by
  unfold State.leaves State.when; split <;> rfl
@[simp] theorem State.leaves_pending (s : State) (k : Nat) : (s.leaves k).pending = s.pending := by
  unfold State.leaves State.when; split <;> rfl

theorem State.token_claiming (s : State) (k j : Nat) (d : Half) (g : Option Half) :
    (s.claiming k d g).own.token j = if j = k then { s.own.token k with st := .claiming d g, at_ := s.w.now } else s.own.token j := by
  simp [State.claiming, Own.token_setToken]

theorem State.token_owned (s : State) (k j : Nat) (h : Half) :
    (s.owned k h).own.token j = if j = k then { s.own.token k with st := .owned h, last := some h } else s.own.token j := by
  simp [State.owned, Own.token_setToken]

theorem State.token_orphan (s : State) (k j : Nat) (l : Half) :
    (s.orphan k l).own.token j =
      if j = k then { st := .orphan, at_ := s.w.now, expired := false, last := some l } else s.own.token j := by
  simp [State.orphan, Own.toOrphan, Own.token_setToken]

@[simp] theorem State.settle_token (s : State) (h : Half) (k j : Nat) : (s.settle h k).own.token j = s.own.token j := by
  unfold State.settle State.when
  split <;> split <;> rfl

@[simp] theorem State.handoverDone_token (s : State) (k j : Nat) : (s.handoverDone k).own.token j =
    match (s.own.token k).st with
    | .claiming d (some _) => if j = k then { s.own.token k with st := .owned d, last := some d } else s.own.token j
    | _ => s.own.token j := by
  unfold State.handoverDone
  cases hs : (s.own.token k).st with
  | orphan => rfl
  | owned h => rfl
  | claiming d g =>
    cases g with
    | none => rfl
    | some g =>
      simp only [State.settle_token]
      unfold State.when
      split <;> simp [State.token_owned]

/-- What a change of one token each, repeated for a list, does to every token. -/
theorem State.token_forAll (f : State → Nat → State) (g : Nat → Token → Token)
    (hf : ∀ s k j, (f s k).own.token j = if j = k then g s.w.now (s.own.token k) else s.own.token j)
    (hn : ∀ s k, (f s k).w.now = s.w.now) (hg : ∀ n t, g n (g n t) = g n t) (l : List Nat) (s : State) (j : Nat) :
    (s.forAll l f).own.token j = if j ∈ l then g s.w.now (s.own.token j) else s.own.token j := by
  induction l generalizing s with
  | nil => simp [State.forAll]
  | cons k t ih =>
    have : s.forAll (k :: t) f = (f s k).forAll t f := rfl
    rw [this, ih, hn, hf]
    by_cases hj : j = k
    · subst hj; simp [hg]
    · simp [hj]

@[simp] theorem mem_objsWhere (p : Nat → Bool) (n k : Nat) : k ∈ objsWhere p 0 n ↔ k < n ∧ p k = true := by
  simp [objsWhere, List.mem_range'_1]

end Sys2Proof.Machine
end

