-- ==== Sys2Proof/Laws/Rest.lean ====
section
/-!
SUPPORT. Laws of `World.rest`: what each named operation leaves alone. `Rest q w v` says that `w` and `v` differ in the parts of `q` alone.
-/
namespace Sys2Proof.Machine

/-- Two worlds that differ in the parts of `q` alone. -/
def Rest (q : List Part) (w v : World) : Prop := World.rest q w = World.rest q v

theorem Rest.refl (q : List Part) (w : World) : Rest q w w := rfl

theorem Rest.trans {q : List Part} {u v w : World} (a : Rest q u v) (b : Rest q v w) : Rest q u w := Eq.trans a b

/-- Every part of `p` is a part of `q`. -/
def partsLe (p q : List Part) : Bool := p.all (fun x => partIn q x)

theorem partIn_regs (q : List Part) : partIn q .regs = q.contains .regs := by simp [partIn]

theorem partsLe_mem {p q : List Part} (h : partsLe p q = true) (x : Part) (hx : partIn q x = false) : partIn p x = false := by
  by_contra hc
  have hc : partIn p x = true := by simpa using hc
  have hm : ∀ y, p.contains y = true → partIn q y = true := fun y hy => List.all_eq_true.mp h y (by simpa using hy)
  unfold partIn at hc
  rw [Bool.or_eq_true, Bool.and_eq_true] at hc
  rcases hc with hc | ⟨hc, hr⟩
  · rw [hm x hc] at hx; exact absurd hx (by decide)
  · have h1 := hm _ hc
    rw [partIn_regs] at h1
    unfold partIn at hx
    rw [h1, hr] at hx
    simp at hx

theorem restRegs_mono {p q : List Part} (h : partsLe p q = true) {r r' : RegFile} (e : restRegs p r = restRegs p r') :
    restRegs q r = restRegs q r' := by
  have key : ∀ r : RegFile, restRegs q (restRegs p r) = restRegs q r := by
    intro r
    simp only [restRegs, List.filter_filter]
    congr 1
    funext e
    cases hq : partIn q (.reg (e.1 % 2 ^ 25))
    · have := partsLe_mem h _ hq
      simp only [this, Bool.not_false, Bool.and_self]
    · rfl
  rw [← key r, ← key r', e]

/-- What differs in few parts differs in more. -/
theorem Rest.mono {p q : List Part} {w v : World} (e : Rest p w v) (h : partsLe p q = true) : Rest q w v := by
  unfold Rest World.rest at e ⊢
  simp only [World.mk.injEq, Two.mk.injEq] at e ⊢
  have f : ∀ {α : Type} (x : Part) (a b c : α), ((if partIn p x = true then c else a) = if partIn p x = true then c else b) →
      ((if partIn q x = true then c else a) = if partIn q x = true then c else b) := by
    intro α x a b c e
    cases hq : partIn q x
    · rw [partsLe_mem h x hq] at e; simpa using e
    · rfl

  obtain ⟨h_now, h_fresh, ⟨h_ra, h_rb⟩, h_b, h_run, h_evt, h_xng, h_roast, h_bp, h_devId, h_act, h_shut, h_frame, h_svc, h_tim, h_set, h_opt, h_vlv, h_lsw, h_uin, h_yld, h_cal, h_dram, h_pose, h_grd, h_trk, h_gns, h_keeper, h_can, h_flx, h_upd, h_pwr, h_dsp, h_latch⟩ := e
  exact ⟨f _ _ _ _ h_now, f _ _ _ _ h_fresh, ⟨restRegs_mono h h_ra, restRegs_mono h h_rb⟩, restRegs_mono h h_b, f _ _ _ _ h_run, f _ _ _ _ h_evt, f _ _ _ _ h_xng, f _ _ _ _ h_roast, f _ _ _ _ h_bp, f _ _ _ _ h_devId, f _ _ _ _ h_act, f _ _ _ _ h_shut, f _ _ _ _ h_frame, f _ _ _ _ h_svc, f _ _ _ _ h_tim, f _ _ _ _ h_set, f _ _ _ _ h_opt, f _ _ _ _ h_vlv, f _ _ _ _ h_lsw, f _ _ _ _ h_uin, f _ _ _ _ h_yld, f _ _ _ _ h_cal, f _ _ _ _ h_dram, f _ _ _ _ h_pose, f _ _ _ _ h_grd, f _ _ _ _ h_trk, f _ _ _ _ h_gns, f _ _ _ _ h_keeper, f _ _ _ _ h_can, f _ _ _ _ h_flx, f _ _ _ _ h_upd, f _ _ _ _ h_pwr, f _ _ _ _ h_dsp, f _ _ _ _ h_latch⟩

/-! Single parts replaced. -/

theorem Rest.set_now {q : List Part} {w v : World} (hq : partIn q .now = true) (h : Rest q w v) (x) : Rest q { w with now := x } v := by
  refine Eq.trans ?_ h; unfold World.rest; simp only [hq, if_true]
theorem Rest.set_fresh {q : List Part} {w v : World} (hq : partIn q .fresh = true) (h : Rest q w v) (x) : Rest q { w with fresh := x } v := by
  refine Eq.trans ?_ h; unfold World.rest; simp only [hq, if_true]
theorem Rest.set_run {q : List Part} {w v : World} (hq : partIn q .run = true) (h : Rest q w v) (x) : Rest q { w with run := x } v := by
  refine Eq.trans ?_ h; unfold World.rest; simp only [hq, if_true]
theorem Rest.set_evt {q : List Part} {w v : World} (hq : partIn q .evt = true) (h : Rest q w v) (x) : Rest q { w with evt := x } v := by
  refine Eq.trans ?_ h; unfold World.rest; simp only [hq, if_true]
theorem Rest.set_xng {q : List Part} {w v : World} (hq : partIn q .xng = true) (h : Rest q w v) (x) : Rest q { w with xng := x } v := by
  refine Eq.trans ?_ h; unfold World.rest; simp only [hq, if_true]
theorem Rest.set_roast {q : List Part} {w v : World} (hq : partIn q .roast = true) (h : Rest q w v) (x) : Rest q { w with roast := x } v := by
  refine Eq.trans ?_ h; unfold World.rest; simp only [hq, if_true]
theorem Rest.set_bp {q : List Part} {w v : World} (hq : partIn q .bp = true) (h : Rest q w v) (x) : Rest q { w with bp := x } v := by
  refine Eq.trans ?_ h; unfold World.rest; simp only [hq, if_true]
theorem Rest.set_devId {q : List Part} {w v : World} (hq : partIn q .devId = true) (h : Rest q w v) (x) : Rest q { w with devId := x } v := by
  refine Eq.trans ?_ h; unfold World.rest; simp only [hq, if_true]
theorem Rest.set_act {q : List Part} {w v : World} (hq : partIn q .act = true) (h : Rest q w v) (x) : Rest q { w with act := x } v := by
  refine Eq.trans ?_ h; unfold World.rest; simp only [hq, if_true]
theorem Rest.set_shut {q : List Part} {w v : World} (hq : partIn q .shut = true) (h : Rest q w v) (x) : Rest q { w with shut := x } v := by
  refine Eq.trans ?_ h; unfold World.rest; simp only [hq, if_true]
theorem Rest.set_frame {q : List Part} {w v : World} (hq : partIn q .frame = true) (h : Rest q w v) (x) : Rest q { w with frame := x } v := by
  refine Eq.trans ?_ h; unfold World.rest; simp only [hq, if_true]
theorem Rest.set_svc {q : List Part} {w v : World} (hq : partIn q .svc = true) (h : Rest q w v) (x) : Rest q { w with svc := x } v := by
  refine Eq.trans ?_ h; unfold World.rest; simp only [hq, if_true]
theorem Rest.set_tim {q : List Part} {w v : World} (hq : partIn q .tim = true) (h : Rest q w v) (x) : Rest q { w with tim := x } v := by
  refine Eq.trans ?_ h; unfold World.rest; simp only [hq, if_true]
theorem Rest.set_set {q : List Part} {w v : World} (hq : partIn q .set = true) (h : Rest q w v) (x) : Rest q { w with set := x } v := by
  refine Eq.trans ?_ h; unfold World.rest; simp only [hq, if_true]
theorem Rest.set_opt {q : List Part} {w v : World} (hq : partIn q .opt = true) (h : Rest q w v) (x) : Rest q { w with opt := x } v := by
  refine Eq.trans ?_ h; unfold World.rest; simp only [hq, if_true]
theorem Rest.set_vlv {q : List Part} {w v : World} (hq : partIn q .vlv = true) (h : Rest q w v) (x) : Rest q { w with vlv := x } v := by
  refine Eq.trans ?_ h; unfold World.rest; simp only [hq, if_true]
theorem Rest.set_lsw {q : List Part} {w v : World} (hq : partIn q .lsw = true) (h : Rest q w v) (x) : Rest q { w with lsw := x } v := by
  refine Eq.trans ?_ h; unfold World.rest; simp only [hq, if_true]
theorem Rest.set_uin {q : List Part} {w v : World} (hq : partIn q .uin = true) (h : Rest q w v) (x) : Rest q { w with uin := x } v := by
  refine Eq.trans ?_ h; unfold World.rest; simp only [hq, if_true]
theorem Rest.set_yld {q : List Part} {w v : World} (hq : partIn q .yld = true) (h : Rest q w v) (x) : Rest q { w with yld := x } v := by
  refine Eq.trans ?_ h; unfold World.rest; simp only [hq, if_true]
theorem Rest.set_cal {q : List Part} {w v : World} (hq : partIn q .cal = true) (h : Rest q w v) (x) : Rest q { w with cal := x } v := by
  refine Eq.trans ?_ h; unfold World.rest; simp only [hq, if_true]
theorem Rest.set_dram {q : List Part} {w v : World} (hq : partIn q .dram = true) (h : Rest q w v) (x) : Rest q { w with dram := x } v := by
  refine Eq.trans ?_ h; unfold World.rest; simp only [hq, if_true]
theorem Rest.set_pose {q : List Part} {w v : World} (hq : partIn q .pose = true) (h : Rest q w v) (x) : Rest q { w with pose := x } v := by
  refine Eq.trans ?_ h; unfold World.rest; simp only [hq, if_true]
theorem Rest.set_grd {q : List Part} {w v : World} (hq : partIn q .grd = true) (h : Rest q w v) (x) : Rest q { w with grd := x } v := by
  refine Eq.trans ?_ h; unfold World.rest; simp only [hq, if_true]
theorem Rest.set_trk {q : List Part} {w v : World} (hq : partIn q .trk = true) (h : Rest q w v) (x) : Rest q { w with trk := x } v := by
  refine Eq.trans ?_ h; unfold World.rest; simp only [hq, if_true]
theorem Rest.set_gns {q : List Part} {w v : World} (hq : partIn q .gns = true) (h : Rest q w v) (x) : Rest q { w with gns := x } v := by
  refine Eq.trans ?_ h; unfold World.rest; simp only [hq, if_true]
theorem Rest.set_keeper {q : List Part} {w v : World} (hq : partIn q .keeper = true) (h : Rest q w v) (x) : Rest q { w with keeper := x } v := by
  refine Eq.trans ?_ h; unfold World.rest; simp only [hq, if_true]
theorem Rest.set_can {q : List Part} {w v : World} (hq : partIn q .can = true) (h : Rest q w v) (x) : Rest q { w with can := x } v := by
  refine Eq.trans ?_ h; unfold World.rest; simp only [hq, if_true]
theorem Rest.set_flx {q : List Part} {w v : World} (hq : partIn q .flx = true) (h : Rest q w v) (x) : Rest q { w with flx := x } v := by
  refine Eq.trans ?_ h; unfold World.rest; simp only [hq, if_true]
theorem Rest.set_upd {q : List Part} {w v : World} (hq : partIn q .upd = true) (h : Rest q w v) (x) : Rest q { w with upd := x } v := by
  refine Eq.trans ?_ h; unfold World.rest; simp only [hq, if_true]
theorem Rest.set_pwr {q : List Part} {w v : World} (hq : partIn q .pwr = true) (h : Rest q w v) (x) : Rest q { w with pwr := x } v := by
  refine Eq.trans ?_ h; unfold World.rest; simp only [hq, if_true]
theorem Rest.set_dsp {q : List Part} {w v : World} (hq : partIn q .dsp = true) (h : Rest q w v) (x) : Rest q { w with dsp := x } v := by
  refine Eq.trans ?_ h; unfold World.rest; simp only [hq, if_true]
theorem Rest.set_latch {q : List Part} {w v : World} (hq : partIn q .latch = true) (h : Rest q w v) (x) : Rest q { w with latch := x } v := by
  refine Eq.trans ?_ h; unfold World.rest; simp only [hq, if_true]

/-! Registers. -/

theorem Rest.set_regs {q : List Part} {w v : World} (hq : partIn q .regs = true) (h : Rest q w v) (x) : Rest q { w with regs := x } v := by
  have hr : ∀ r, restRegs q r = [] := fun r => by
    rw [partIn_regs] at hq
    unfold restRegs
    have : (fun e : Nat × Word => !partIn q (.reg (e.1 % 2 ^ 25))) = fun _ => false := by
      funext e; unfold partIn; rw [hq]; simp
    rw [this]; exact List.filter_eq_nil_iff.mpr (by simp)
  refine Eq.trans ?_ h; unfold World.rest; simp only [hr]

theorem Rest.set_bregs {q : List Part} {w v : World} (hq : partIn q .regs = true) (h : Rest q w v) (x) : Rest q { w with bregs := x } v := by
  have hr : ∀ r, restRegs q r = [] := fun r => by
    rw [partIn_regs] at hq
    unfold restRegs
    have : (fun e : Nat × Word => !partIn q (.reg (e.1 % 2 ^ 25))) = fun _ => false := by
      funext e; unfold partIn; rw [hq]; simp
    rw [this]; exact List.filter_eq_nil_iff.mpr (by simp)
  refine Eq.trans ?_ h; unfold World.rest; simp only [hr]

theorem filter_put {α : Type} (p : Nat → Bool) (m : NMap α) (n : Nat) (x : α) (hp : p n = false) :
    (NMap.put m n x).filter (fun e => p e.1) = m.filter (fun e => p e.1) := by
  induction m with
  | nil => simp [NMap.put, hp]
  | cons e t ih =>
    obtain ⟨k, v⟩ := e
    by_cases h1 : n < k
    · simp [NMap.put, h1, hp]
    · by_cases h2 : n = k
      · subst h2; simp [NMap.put, hp]
      · simp only [NMap.put, h1, h2, if_false, List.filter_cons, ih]

theorem filter_del {α : Type} (p : Nat → Bool) (m : NMap α) (n : Nat) (hp : p n = false) :
    (NMap.del m n).filter (fun e => p e.1) = m.filter (fun e => p e.1) := by
  induction m with
  | nil => rfl
  | cons e t ih =>
    obtain ⟨k, v⟩ := e
    by_cases h2 : n = k
    · subst h2; simp [NMap.del, hp, ih]
    · simp only [NMap.del, h2, if_false, List.filter_cons, ih]

theorem restRegs_set {q : List Part} (d : Word) (r : RegFile) (f : Field) (i : Nat) (x : Word)
    (hq : (partIn q (.reg f.reg) && decide (f.reg < 2 ^ 25)) = true) :
    restRegs q (NMap.set d r (fieldKey f i) x) = restRegs q r := by
  simp only [Bool.and_eq_true, decide_eq_true_eq] at hq
  have hp : (fun n => !partIn q (.reg (n % 2 ^ 25))) (fieldKey f i) = false := by
    have : fieldKey f i % 2 ^ 25 = f.reg := by unfold fieldKey; omega
    simp only [this, hq.1, Bool.not_true]
  unfold restRegs NMap.set
  split
  · exact filter_del (fun n => !partIn q (.reg (n % 2 ^ 25))) _ _ hp
  · exact filter_put (fun n => !partIn q (.reg (n % 2 ^ 25))) _ _ _ hp

theorem Rest.setReg {q : List Part} {w v : World} (h : Half) (f : Field) (i : Nat) (x : Word)
    (hq : (partIn q (.reg f.reg) && decide (f.reg < 2 ^ 25)) = true) (e : Rest q w v) : Rest q (w.setReg h f i x) v := by
  refine Eq.trans ?_ e
  unfold World.setReg
  split
  · simp only [World.rest, restRegs_set _ _ _ _ _ hq]
  · cases h <;> simp only [World.rest, Two.upd, Two.set, Two.get, restRegs_set _ _ _ _ _ hq]

theorem Rest.wr {q : List Part} {w v : World} (h : Half) (f : Field) (i x : Nat)
    (hq : (partIn q (.reg f.reg) && decide (f.reg < 2 ^ 25)) = true) (e : Rest q w v) : Rest q (w.wr h f i x) v :=
  Rest.setReg _ _ _ _ hq e

theorem Rest.wrI {q : List Part} {w v : World} (h : Half) (f : Field) (i : Nat) (x : Int)
    (hq : (partIn q (.reg f.reg) && decide (f.reg < 2 ^ 25)) = true) (e : Rest q w v) : Rest q (w.wrI h f i x) v :=
  Rest.setReg _ _ _ _ hq e

theorem Rest.bump {q : List Part} {w v : World} (h : Half) (f : Field) (i : Nat)
    (hq : (partIn q (.reg f.reg) && decide (f.reg < 2 ^ 25)) = true) (e : Rest q w v) : Rest q (w.bump h f i) v :=
  Rest.setReg _ _ _ _ hq e

theorem Rest.wrBoth {q : List Part} {w v : World} (f : Field) (i x : Nat)
    (hq : (partIn q (.reg f.reg) && decide (f.reg < 2 ^ 25)) = true) (e : Rest q w v) : Rest q (w.wrBoth f i x) v :=
  Rest.wr _ _ _ _ hq (Rest.wr _ _ _ _ hq e)

/-! Control. -/

theorem Rest.ite {q : List Part} {v : World} {c : Prop} [Decidable c] {a b : World} (ha : Rest q a v) (hb : Rest q b v) :
    Rest q (if c then a else b) v := by split <;> assumption

theorem Rest.when {q : List Part} {w v : World} {c : Bool} {f : World → World} (h : Rest q w v)
    (hf : ∀ u, Rest q u v → Rest q (f u) v) : Rest q (w.when c f) v := by
  unfold World.when
  split
  · exact hf _ h
  · exact h

theorem Rest.forAll {α : Type} {q : List Part} {w v : World} {l : List α} {f : World → α → World} (h : Rest q w v)
    (hf : ∀ u a, Rest q u v → Rest q (f u a) v) : Rest q (w.forAll l f) v := by
  unfold World.forAll
  induction l generalizing w with
  | nil => exact h
  | cons a t ih => exact ih (hf _ _ h)

theorem Rest.foldl {α : Type} {q : List Part} {w v : World} {l : List α} {f : World → α → World} (h : Rest q w v)
    (hf : ∀ u a, Rest q u v → Rest q (f u a) v) : Rest q (l.foldl f w) v := Rest.forAll h hf

theorem Rest.onW {q : List Part} {s : State} {v : World} {f : World → World} (h : Rest q s.w v)
    (hf : ∀ u, Rest q u v → Rest q (f u) v) : Rest q (s.onW f).w v := hf _ h

theorem Rest.onOwn {q : List Part} {s : State} {v : World} {f : Own → Own} (h : Rest q s.w v) : Rest q (s.onOwn f).w v := h

theorem Rest.whenS {q : List Part} {s : State} {v : World} {c : Bool} {f : State → State} (h : Rest q s.w v)
    (hf : ∀ u : State, Rest q u.w v → Rest q (f u).w v) : Rest q (s.when c f).w v := by
  unfold State.when
  split
  · exact hf _ h
  · exact h

theorem Rest.forAllS {α : Type} {q : List Part} {s : State} {v : World} {l : List α} {f : State → α → State} (h : Rest q s.w v)
    (hf : ∀ (u : State) a, Rest q u.w v → Rest q (f u a).w v) : Rest q (s.forAll l f).w v := by
  unfold State.forAll
  induction l generalizing s with
  | nil => exact h
  | cons a t ih => exact ih (hf _ _ h)

theorem Rest.iteS {q : List Part} {v : World} {c : Prop} [Decidable c] {a b : State} (ha : Rest q a.w v) (hb : Rest q b.w v) :
    Rest q (if c then a else b).w v := by split <;> assumption

theorem Rest.copyFields {q : List Part} {w v : World} {l : List Field} (h k : Half)
    (hl : l.all (fun f => partIn q (.reg f.reg) && decide (f.reg < 2 ^ 25)) = true) (e : Rest q w v) :
    Rest q (l.foldl (fun w f => w.wr h f 0 (w.rd k f)) w) v := by
  induction l generalizing w with
  | nil => exact e
  | cons f t ih =>
    rw [List.all_cons, Bool.and_eq_true] at hl
    exact ih hl.2 (Rest.wr _ _ _ _ hl.1 e)

theorem Rest.copyFieldsAt {q : List Part} {w v : World} {l : List Field} (h k : Half) (n : Nat)
    (hl : l.all (fun f => partIn q (.reg f.reg) && decide (f.reg < 2 ^ 25)) = true) (e : Rest q w v) :
    Rest q (l.foldl (fun w f => w.wr h f n (w.rd k f n)) w) v := by
  induction l generalizing w with
  | nil => exact e
  | cons f t ih =>
    rw [List.all_cons, Bool.and_eq_true] at hl
    exact ih hl.2 (Rest.wr _ _ _ _ hl.1 e)

/-! The shared operations. -/

theorem Rest.raise {q : List Part} {w v : World} (h : Half) (num arg : Nat) (hq : (partIn q .evt && partIn q (.reg 0x100018)) = true)
    (e : Rest q w v) : Rest q (w.raise h num arg) v := by
  simp only [Bool.and_eq_true] at hq
  unfold World.raise
  split
  · dsimp only
    split
    · exact Rest.set_evt hq.1 e _
    · exact Rest.bump _ _ _ (by rw [Bool.and_eq_true]; exact ⟨hq.2, rfl⟩) (Rest.set_evt hq.1 e _)
  · exact e

theorem Rest.raiseBoth {q : List Part} {w v : World} (num arg : Nat) (hq : (partIn q .evt && partIn q (.reg 0x100018)) = true)
    (e : Rest q w v) : Rest q (w.raiseBoth num arg) v := Rest.raise _ _ _ hq (Rest.raise _ _ _ hq e)

theorem Rest.putMem {q : List Part} {w v : World} (h : Half) (r a : Nat) (bs : List Byte) (hq : partIn q .dram = true)
    (e : Rest q w v) : Rest q (w.putMem h r a bs) v := Rest.set_dram hq e _

theorem Rest.free {q : List Part} {w v : World} (hq : partIn q .fresh = true) (e : Rest q w v) : Rest q w.free.2 v :=
  Rest.set_fresh hq e _

theorem Rest.violation {q : List Part} {w v : World} (h : Half) (i k : Nat)
    (hq : partsLe [.evt, .reg 0x100018, .reg 0x300118] q = true) (e : Rest q w v) : Rest q (w.violation h i k) v := by
  have hm : ∀ u : World, Rest [.evt, .reg 0x100018, .reg 0x300118] (u.violation h i k) u := fun u =>
    Rest.raise _ _ _ (by decide) (Rest.wr _ _ _ _ (by decide) (Rest.wr _ _ _ _ (by decide) (Rest.refl _ _)))
  exact ((hm w).mono hq).trans e

theorem Rest.gateObj {q : List Part} {s : State} {v : World} (h : Half) (i k : Nat) {f : World → World}
    (hq : partsLe [.evt, .reg 0x100018, .reg 0x300118] q = true) (e : Rest q s.w v) (hf : ∀ u, Rest q u v → Rest q (f u) v) :
    Rest q (gateObj s h i k f) v := by
  unfold Machine.gateObj
  split
  · split
    · exact hf _ e
    · exact Rest.violation _ _ _ hq e
  · exact e

theorem Rest.gateAny {q : List Part} {s : State} {v : World} (h : Half) (i a n k : Nat) {f : World → World}
    (hq : partsLe [.evt, .reg 0x100018, .reg 0x300118] q = true) (e : Rest q s.w v) (hf : ∀ u, Rest q u v → Rest q (f u) v) :
    Rest q (gateAny s h i a n k f) v := by
  unfold Machine.gateAny
  split
  · split
    · exact hf _ e
    · exact Rest.violation _ _ _ hq e
  · exact e

/-! What `Rest` says of a register. -/

theorem get_filter {α : Type} (p : Nat → Bool) (d : α) (m : NMap α) (n : Nat) (hp : p n = true) :
    NMap.get d (m.filter (fun e => p e.1)) n = NMap.get d m n := by
  induction m with
  | nil => rfl
  | cons e t ih =>
    obtain ⟨k, v⟩ := e
    by_cases h2 : n = k
    · subst h2; simp [NMap.get, hp]
    · cases hk : p k <;> simp [NMap.get, h2, hk, ih]

/-- A register of a block outside the parts reads the same. -/
theorem Rest.reg {q : List Part} {w v : World} (e : Rest q w v) (h : Half) (f : Field) (i : Nat)
    (hq : (!partIn q (.reg f.reg) && decide (f.reg < 2 ^ 25)) = true) : w.reg h f i = v.reg h f i := by
  simp only [Bool.and_eq_true, decide_eq_true_eq] at hq
  have hp : (fun n => !partIn q (.reg (n % 2 ^ 25))) (fieldKey f i) = true := by
    have : fieldKey f i % 2 ^ 25 = f.reg := by unfold fieldKey; omega
    simp only [this, hq.1]
  have key : ∀ r r' : RegFile, restRegs q r = restRegs q r' → ∀ d : Word, NMap.get d r (fieldKey f i) = NMap.get d r' (fieldKey f i) := by
    intro r r' hr d
    rw [← get_filter (fun n => !partIn q (.reg (n % 2 ^ 25))) d r _ hp,
      ← get_filter (fun n => !partIn q (.reg (n % 2 ^ 25))) d r' _ hp]
    exact congrArg (fun m => NMap.get d m (fieldKey f i)) hr
  have ha := congrArg (fun x => x.regs.a) e
  have hb := congrArg (fun x => x.regs.b) e
  have hc := congrArg (fun x => x.bregs) e
  unfold World.reg World.file
  split
  · exact key _ _ hc _
  · cases h
    · exact key _ _ ha _
    · exact key _ _ hb _

theorem Rest.rd {q : List Part} {w v : World} (e : Rest q w v) (h : Half) (f : Field) (i : Nat)
    (hq : (!partIn q (.reg f.reg) && decide (f.reg < 2 ^ 25)) = true) : w.rd h f i = v.rd h f i := by
  rw [World.rd, World.rd, e.reg h f i hq]

theorem Rest.now {q : List Part} {w v : World} (e : Rest q w v) (hq : partIn q .now = false) : w.now = v.now := by
  have := congrArg (fun x => x.now) e; simpa only [World.rest, hq, Bool.false_eq_true, if_false] using this
theorem Rest.fresh {q : List Part} {w v : World} (e : Rest q w v) (hq : partIn q .fresh = false) : w.fresh = v.fresh := by
  have := congrArg (fun x => x.fresh) e; simpa only [World.rest, hq, Bool.false_eq_true, if_false] using this
theorem Rest.run {q : List Part} {w v : World} (e : Rest q w v) (hq : partIn q .run = false) : w.run = v.run := by
  have := congrArg (fun x => x.run) e; simpa only [World.rest, hq, Bool.false_eq_true, if_false] using this
theorem Rest.evt {q : List Part} {w v : World} (e : Rest q w v) (hq : partIn q .evt = false) : w.evt = v.evt := by
  have := congrArg (fun x => x.evt) e; simpa only [World.rest, hq, Bool.false_eq_true, if_false] using this
theorem Rest.xng {q : List Part} {w v : World} (e : Rest q w v) (hq : partIn q .xng = false) : w.xng = v.xng := by
  have := congrArg (fun x => x.xng) e; simpa only [World.rest, hq, Bool.false_eq_true, if_false] using this
theorem Rest.roast {q : List Part} {w v : World} (e : Rest q w v) (hq : partIn q .roast = false) : w.roast = v.roast := by
  have := congrArg (fun x => x.roast) e; simpa only [World.rest, hq, Bool.false_eq_true, if_false] using this
theorem Rest.bp {q : List Part} {w v : World} (e : Rest q w v) (hq : partIn q .bp = false) : w.bp = v.bp := by
  have := congrArg (fun x => x.bp) e; simpa only [World.rest, hq, Bool.false_eq_true, if_false] using this
theorem Rest.devId {q : List Part} {w v : World} (e : Rest q w v) (hq : partIn q .devId = false) : w.devId = v.devId := by
  have := congrArg (fun x => x.devId) e; simpa only [World.rest, hq, Bool.false_eq_true, if_false] using this
theorem Rest.act {q : List Part} {w v : World} (e : Rest q w v) (hq : partIn q .act = false) : w.act = v.act := by
  have := congrArg (fun x => x.act) e; simpa only [World.rest, hq, Bool.false_eq_true, if_false] using this
theorem Rest.shut {q : List Part} {w v : World} (e : Rest q w v) (hq : partIn q .shut = false) : w.shut = v.shut := by
  have := congrArg (fun x => x.shut) e; simpa only [World.rest, hq, Bool.false_eq_true, if_false] using this
theorem Rest.frame {q : List Part} {w v : World} (e : Rest q w v) (hq : partIn q .frame = false) : w.frame = v.frame := by
  have := congrArg (fun x => x.frame) e; simpa only [World.rest, hq, Bool.false_eq_true, if_false] using this
theorem Rest.svc {q : List Part} {w v : World} (e : Rest q w v) (hq : partIn q .svc = false) : w.svc = v.svc := by
  have := congrArg (fun x => x.svc) e; simpa only [World.rest, hq, Bool.false_eq_true, if_false] using this
theorem Rest.tim {q : List Part} {w v : World} (e : Rest q w v) (hq : partIn q .tim = false) : w.tim = v.tim := by
  have := congrArg (fun x => x.tim) e; simpa only [World.rest, hq, Bool.false_eq_true, if_false] using this
theorem Rest.set {q : List Part} {w v : World} (e : Rest q w v) (hq : partIn q .set = false) : w.set = v.set := by
  have := congrArg (fun x => x.set) e; simpa only [World.rest, hq, Bool.false_eq_true, if_false] using this
theorem Rest.opt {q : List Part} {w v : World} (e : Rest q w v) (hq : partIn q .opt = false) : w.opt = v.opt := by
  have := congrArg (fun x => x.opt) e; simpa only [World.rest, hq, Bool.false_eq_true, if_false] using this
theorem Rest.vlv {q : List Part} {w v : World} (e : Rest q w v) (hq : partIn q .vlv = false) : w.vlv = v.vlv := by
  have := congrArg (fun x => x.vlv) e; simpa only [World.rest, hq, Bool.false_eq_true, if_false] using this
theorem Rest.lsw {q : List Part} {w v : World} (e : Rest q w v) (hq : partIn q .lsw = false) : w.lsw = v.lsw := by
  have := congrArg (fun x => x.lsw) e; simpa only [World.rest, hq, Bool.false_eq_true, if_false] using this
theorem Rest.uin {q : List Part} {w v : World} (e : Rest q w v) (hq : partIn q .uin = false) : w.uin = v.uin := by
  have := congrArg (fun x => x.uin) e; simpa only [World.rest, hq, Bool.false_eq_true, if_false] using this
theorem Rest.yld {q : List Part} {w v : World} (e : Rest q w v) (hq : partIn q .yld = false) : w.yld = v.yld := by
  have := congrArg (fun x => x.yld) e; simpa only [World.rest, hq, Bool.false_eq_true, if_false] using this
theorem Rest.cal {q : List Part} {w v : World} (e : Rest q w v) (hq : partIn q .cal = false) : w.cal = v.cal := by
  have := congrArg (fun x => x.cal) e; simpa only [World.rest, hq, Bool.false_eq_true, if_false] using this
theorem Rest.dram {q : List Part} {w v : World} (e : Rest q w v) (hq : partIn q .dram = false) : w.dram = v.dram := by
  have := congrArg (fun x => x.dram) e; simpa only [World.rest, hq, Bool.false_eq_true, if_false] using this
theorem Rest.pose {q : List Part} {w v : World} (e : Rest q w v) (hq : partIn q .pose = false) : w.pose = v.pose := by
  have := congrArg (fun x => x.pose) e; simpa only [World.rest, hq, Bool.false_eq_true, if_false] using this
theorem Rest.grd {q : List Part} {w v : World} (e : Rest q w v) (hq : partIn q .grd = false) : w.grd = v.grd := by
  have := congrArg (fun x => x.grd) e; simpa only [World.rest, hq, Bool.false_eq_true, if_false] using this
theorem Rest.trk {q : List Part} {w v : World} (e : Rest q w v) (hq : partIn q .trk = false) : w.trk = v.trk := by
  have := congrArg (fun x => x.trk) e; simpa only [World.rest, hq, Bool.false_eq_true, if_false] using this
theorem Rest.gns {q : List Part} {w v : World} (e : Rest q w v) (hq : partIn q .gns = false) : w.gns = v.gns := by
  have := congrArg (fun x => x.gns) e; simpa only [World.rest, hq, Bool.false_eq_true, if_false] using this
theorem Rest.keeper {q : List Part} {w v : World} (e : Rest q w v) (hq : partIn q .keeper = false) : w.keeper = v.keeper := by
  have := congrArg (fun x => x.keeper) e; simpa only [World.rest, hq, Bool.false_eq_true, if_false] using this
theorem Rest.can {q : List Part} {w v : World} (e : Rest q w v) (hq : partIn q .can = false) : w.can = v.can := by
  have := congrArg (fun x => x.can) e; simpa only [World.rest, hq, Bool.false_eq_true, if_false] using this
theorem Rest.flx {q : List Part} {w v : World} (e : Rest q w v) (hq : partIn q .flx = false) : w.flx = v.flx := by
  have := congrArg (fun x => x.flx) e; simpa only [World.rest, hq, Bool.false_eq_true, if_false] using this
theorem Rest.upd {q : List Part} {w v : World} (e : Rest q w v) (hq : partIn q .upd = false) : w.upd = v.upd := by
  have := congrArg (fun x => x.upd) e; simpa only [World.rest, hq, Bool.false_eq_true, if_false] using this
theorem Rest.pwr {q : List Part} {w v : World} (e : Rest q w v) (hq : partIn q .pwr = false) : w.pwr = v.pwr := by
  have := congrArg (fun x => x.pwr) e; simpa only [World.rest, hq, Bool.false_eq_true, if_false] using this
theorem Rest.dsp {q : List Part} {w v : World} (e : Rest q w v) (hq : partIn q .dsp = false) : w.dsp = v.dsp := by
  have := congrArg (fun x => x.dsp) e; simpa only [World.rest, hq, Bool.false_eq_true, if_false] using this
theorem Rest.latch {q : List Part} {w v : World} (e : Rest q w v) (hq : partIn q .latch = false) : w.latch = v.latch := by
  have := congrArg (fun x => x.latch) e; simpa only [World.rest, hq, Bool.false_eq_true, if_false] using this

end Sys2Proof.Machine
end

