-- ==== Sys2Proof/Laws/RestDrive.lean ====
section
/-!
SUPPORT. What each operation of these units leaves alone.
-/
set_option linter.unreachableTactic false
set_option linter.unusedTactic false

namespace Sys2Proof.Machine

/-! Several parts replaced at once. -/

theorem Rest.set_bp_act {q : List Part} {w v : World} (hq : partsLe [.bp, .act] q = true) (h : Rest q w v) (x0 x1) :
    Rest q { w with bp := x0, act := x1 } v := by
  have h0 : partIn q .bp = true := List.all_eq_true.mp hq .bp (by simp)
  have h1 : partIn q .act = true := List.all_eq_true.mp hq .act (by simp)
  exact (Rest.set_act h1 (Rest.set_bp h0 h x0) x1)

theorem Rest.set_bregs_vlv_lsw_uin_can_dsp_pwr_keeper_act_cal {q : List Part} {w v : World} (hq : partsLe [.regs, .vlv, .lsw, .uin, .can, .dsp, .pwr, .keeper, .act, .cal] q = true) (h : Rest q w v) (x0 x1 x2 x3 x4 x5 x6 x7 x8 x9) :
    Rest q { w with bregs := x0, vlv := x1, lsw := x2, uin := x3, can := x4, dsp := x5, pwr := x6, keeper := x7, act := x8, cal := x9 } v := by
  have h0 : partIn q .regs = true := List.all_eq_true.mp hq .regs (by simp)
  have h1 : partIn q .vlv = true := List.all_eq_true.mp hq .vlv (by simp)
  have h2 : partIn q .lsw = true := List.all_eq_true.mp hq .lsw (by simp)
  have h3 : partIn q .uin = true := List.all_eq_true.mp hq .uin (by simp)
  have h4 : partIn q .can = true := List.all_eq_true.mp hq .can (by simp)
  have h5 : partIn q .dsp = true := List.all_eq_true.mp hq .dsp (by simp)
  have h6 : partIn q .pwr = true := List.all_eq_true.mp hq .pwr (by simp)
  have h7 : partIn q .keeper = true := List.all_eq_true.mp hq .keeper (by simp)
  have h8 : partIn q .act = true := List.all_eq_true.mp hq .act (by simp)
  have h9 : partIn q .cal = true := List.all_eq_true.mp hq .cal (by simp)
  exact (Rest.set_cal h9 (Rest.set_act h8 (Rest.set_keeper h7 (Rest.set_pwr h6 (Rest.set_dsp h5 (Rest.set_can h4 (Rest.set_uin h3 (Rest.set_lsw h2 (Rest.set_vlv h1 (Rest.set_bregs h0 h x0) x1) x2) x3) x4) x5) x6) x7) x8) x9)

theorem Rest.set_evt_xng_shut_frame_set_opt_pose_grd_trk {q : List Part} {w v : World} (hq : partsLe [.evt, .xng, .shut, .frame, .set, .opt, .pose, .grd, .trk] q = true) (h : Rest q w v) (x0 x1 x2 x3 x4 x5 x6 x7 x8) :
    Rest q { w with evt := x0, xng := x1, shut := x2, frame := x3, set := x4, opt := x5, pose := x6, grd := x7, trk := x8 } v := by
  have h0 : partIn q .evt = true := List.all_eq_true.mp hq .evt (by simp)
  have h1 : partIn q .xng = true := List.all_eq_true.mp hq .xng (by simp)
  have h2 : partIn q .shut = true := List.all_eq_true.mp hq .shut (by simp)
  have h3 : partIn q .frame = true := List.all_eq_true.mp hq .frame (by simp)
  have h4 : partIn q .set = true := List.all_eq_true.mp hq .set (by simp)
  have h5 : partIn q .opt = true := List.all_eq_true.mp hq .opt (by simp)
  have h6 : partIn q .pose = true := List.all_eq_true.mp hq .pose (by simp)
  have h7 : partIn q .grd = true := List.all_eq_true.mp hq .grd (by simp)
  have h8 : partIn q .trk = true := List.all_eq_true.mp hq .trk (by simp)
  exact (Rest.set_trk h8 (Rest.set_grd h7 (Rest.set_pose h6 (Rest.set_opt h5 (Rest.set_set h4 (Rest.set_frame h3 (Rest.set_shut h2 (Rest.set_xng h1 (Rest.set_evt h0 h x0) x1) x2) x3) x4) x5) x6) x7) x8)

theorem Rest.set_lsw_can {q : List Part} {w v : World} (hq : partsLe [.lsw, .can] q = true) (h : Rest q w v) (x0 x1) :
    Rest q { w with lsw := x0, can := x1 } v := by
  have h0 : partIn q .lsw = true := List.all_eq_true.mp hq .lsw (by simp)
  have h1 : partIn q .can = true := List.all_eq_true.mp hq .can (by simp)
  exact (Rest.set_can h1 (Rest.set_lsw h0 h x0) x1)

theorem Rest.set_regs_shut {q : List Part} {w v : World} (hq : partsLe [.regs, .shut] q = true) (h : Rest q w v) (x0 x1) :
    Rest q { w with regs := x0, shut := x1 } v := by
  have h0 : partIn q .regs = true := List.all_eq_true.mp hq .regs (by simp)
  have h1 : partIn q .shut = true := List.all_eq_true.mp hq .shut (by simp)
  exact (Rest.set_shut h1 (Rest.set_regs h0 h x0) x1)

theorem Rest.set_roast_upd_regs_opt_yld_gns_tim {q : List Part} {w v : World} (hq : partsLe [.roast, .upd, .regs, .opt, .yld, .gns, .tim] q = true) (h : Rest q w v) (x0 x1 x2 x3 x4 x5 x6) :
    Rest q { w with roast := x0, upd := x1, regs := x2, opt := x3, yld := x4, gns := x5, tim := x6 } v := by
  have h0 : partIn q .roast = true := List.all_eq_true.mp hq .roast (by simp)
  have h1 : partIn q .upd = true := List.all_eq_true.mp hq .upd (by simp)
  have h2 : partIn q .regs = true := List.all_eq_true.mp hq .regs (by simp)
  have h3 : partIn q .opt = true := List.all_eq_true.mp hq .opt (by simp)
  have h4 : partIn q .yld = true := List.all_eq_true.mp hq .yld (by simp)
  have h5 : partIn q .gns = true := List.all_eq_true.mp hq .gns (by simp)
  have h6 : partIn q .tim = true := List.all_eq_true.mp hq .tim (by simp)
  exact (Rest.set_tim h6 (Rest.set_gns h5 (Rest.set_yld h4 (Rest.set_opt h3 (Rest.set_regs h2 (Rest.set_upd h1 (Rest.set_roast h0 h x0) x1) x2) x3) x4) x5) x6)

theorem Rest.set_run_dram {q : List Part} {w v : World} (hq : partsLe [.run, .dram] q = true) (h : Rest q w v) (x0 x1) :
    Rest q { w with run := x0, dram := x1 } v := by
  have h0 : partIn q .run = true := List.all_eq_true.mp hq .run (by simp)
  have h1 : partIn q .dram = true := List.all_eq_true.mp hq .dram (by simp)
  exact (Rest.set_dram h1 (Rest.set_run h0 h x0) x1)

theorem Rest.set_yld_gns_tim_flx_upd_uin {q : List Part} {w v : World} (hq : partsLe [.yld, .gns, .tim, .flx, .upd, .uin] q = true) (h : Rest q w v) (x0 x1 x2 x3 x4 x5) :
    Rest q { w with yld := x0, gns := x1, tim := x2, flx := x3, upd := x4, uin := x5 } v := by
  have h0 : partIn q .yld = true := List.all_eq_true.mp hq .yld (by simp)
  have h1 : partIn q .gns = true := List.all_eq_true.mp hq .gns (by simp)
  have h2 : partIn q .tim = true := List.all_eq_true.mp hq .tim (by simp)
  have h3 : partIn q .flx = true := List.all_eq_true.mp hq .flx (by simp)
  have h4 : partIn q .upd = true := List.all_eq_true.mp hq .upd (by simp)
  have h5 : partIn q .uin = true := List.all_eq_true.mp hq .uin (by simp)
  exact (Rest.set_uin h5 (Rest.set_upd h4 (Rest.set_flx h3 (Rest.set_tim h2 (Rest.set_gns h1 (Rest.set_yld h0 h x0) x1) x2) x3) x4) x5)

theorem World.updEng_rest {q0 : List Part} {w : World} {v' : World} {ch : Nat} {f : Eng → Eng}
    (hq : partsLe [.vlv] q0 = true) (e0 : Rest q0 w v') : Rest q0 (World.updEng w ch f) v' := by
  refine Rest.trans (Rest.mono (p := [.vlv]) ?_ hq) e0
  unfold World.updEng
  try dsimp only
  repeat' first
    | with_reducible exact Rest.refl _ _ | with_reducible assumption | with_reducible refine Rest.ite ?_ ?_
    | with_reducible refine Rest.set_vlv (by decide) ?_ _ | dsimp only | split | intro _

theorem World.updTile_rest {q0 : List Part} {w : World} {v' : World} {t : Nat} {f : Tile → Tile}
    (hq : partsLe [.vlv] q0 = true) (e0 : Rest q0 w v') : Rest q0 (World.updTile w t f) v' := by
  refine Rest.trans (Rest.mono (p := [.vlv]) ?_ hq) e0
  unfold World.updTile
  try dsimp only
  repeat' first
    | with_reducible exact Rest.refl _ _ | with_reducible assumption | with_reducible refine Rest.ite ?_ ?_
    | with_reducible refine Rest.set_vlv (by decide) ?_ _ | dsimp only | split | intro _

theorem World.vlvEvent_rest {q0 : List Part} {w : World} {v' : World} {t k ch cause : Nat}
    (hq : partsLe [.evt, .reg 0x100018] q0 = true) (e0 : Rest q0 w v') : Rest q0 (World.vlvEvent w t k ch cause) v' := by
  refine Rest.trans (Rest.mono (p := [.evt, .reg 0x100018]) ?_ hq) e0
  unfold World.vlvEvent
  try dsimp only
  repeat' first
    | with_reducible exact Rest.refl _ _ | with_reducible assumption | with_reducible refine Rest.raiseBoth _ _ (by decide) ?_
    | with_reducible refine Rest.ite ?_ ?_ | dsimp only | split | intro _

theorem World.setTgt_rest {q0 : List Part} {w : World} {v' : World} {ch tgt amp : Nat}
    (hq : partsLe [.vlv] q0 = true) (e0 : Rest q0 w v') : Rest q0 (World.setTgt w ch tgt amp) v' := by
  refine Rest.trans (Rest.mono (p := [.vlv]) ?_ hq) e0
  unfold World.setTgt
  try dsimp only
  repeat' first
    | with_reducible exact Rest.refl _ _ | with_reducible assumption | with_reducible refine World.updEng_rest (by decide) ?_
    | with_reducible refine Rest.ite ?_ ?_ | dsimp only | split | intro _

theorem World.askTgt_rest {q0 : List Part} {w : World} {v' : World} {ch want amp : Nat} {holds : Bool}
    (hq : partsLe [.vlv, .reg 0x500028, .reg 0x50004C] q0 = true) (e0 : Rest q0 w v') : Rest q0 (World.askTgt w ch want amp holds) v' := by
  refine Rest.trans (Rest.mono (p := [.vlv, .reg 0x500028, .reg 0x50004C]) ?_ hq) e0
  unfold World.askTgt
  try dsimp only
  repeat' first
    | with_reducible exact Rest.refl _ _ | with_reducible assumption | with_reducible refine Rest.wr _ _ _ _ (by decide) ?_
    | with_reducible refine Rest.bump _ _ _ (by decide) ?_ | with_reducible refine World.setTgt_rest (by decide) ?_
    | with_reducible refine World.updEng_rest (by decide) ?_ | with_reducible refine Rest.ite ?_ ?_ | dsimp only | split | intro _

theorem World.admitSrc_rest {q0 : List Part} {w : World} {v' : World} {ch src : Nat}
    (hq : partsLe [.vlv, .reg 0x500028] q0 = true) (e0 : Rest q0 w v') : Rest q0 (World.admitSrc w ch src) v' := by
  refine Rest.trans (Rest.mono (p := [.vlv, .reg 0x500028]) ?_ hq) e0
  unfold World.admitSrc
  try dsimp only
  repeat' first
    | with_reducible exact Rest.refl _ _ | with_reducible assumption | with_reducible refine Rest.wr _ _ _ _ (by decide) ?_
    | with_reducible refine Rest.forAll ?_ ?_ | with_reducible refine World.updEng_rest (by decide) ?_ | with_reducible refine Rest.ite ?_ ?_
    | dsimp only | split | intro _

theorem World.turnOff_rest {q0 : List Part} {w : World} {v' : World} {ch mode : Nat}
    (hq : partsLe [.vlv, .reg 0x500028] q0 = true) (e0 : Rest q0 w v') : Rest q0 (World.turnOff w ch mode) v' := by
  refine Rest.trans (Rest.mono (p := [.vlv, .reg 0x500028]) ?_ hq) e0
  unfold World.turnOff
  try dsimp only
  repeat' first
    | with_reducible exact Rest.refl _ _ | with_reducible assumption | with_reducible refine Rest.wr _ _ _ _ (by decide) ?_
    | with_reducible refine World.updEng_rest (by decide) ?_ | with_reducible refine Rest.ite ?_ ?_ | dsimp only | split | intro _

theorem World.stopEngine_rest {q0 : List Part} {w : World} {v' : World} {ch : Nat}
    (hq : partsLe [.vlv, .reg 0x500028] q0 = true) (e0 : Rest q0 w v') : Rest q0 (World.stopEngine w ch) v' := by
  refine Rest.trans (Rest.mono (p := [.vlv, .reg 0x500028]) ?_ hq) e0
  unfold World.stopEngine
  try dsimp only
  repeat' first
    | with_reducible exact Rest.refl _ _ | with_reducible assumption | with_reducible refine Rest.wr _ _ _ _ (by decide) ?_
    | with_reducible refine World.updEng_rest (by decide) ?_ | with_reducible refine Rest.ite ?_ ?_ | dsimp only | split | intro _

theorem World.vlvFault_rest {q0 : List Part} {w : World} {v' : World} {ch code : Nat}
    (hq : partsLe [.evt, .vlv, .reg 0x100018, .reg 0x500028] q0 = true) (e0 : Rest q0 w v') : Rest q0 (World.vlvFault w ch code) v' := by
  refine Rest.trans (Rest.mono (p := [.evt, .vlv, .reg 0x100018, .reg 0x500028]) ?_ hq) e0
  unfold World.vlvFault
  try dsimp only
  repeat' first
    | with_reducible exact Rest.refl _ _ | with_reducible assumption | with_reducible refine Rest.wr _ _ _ _ (by decide) ?_
    | with_reducible refine World.stopEngine_rest (by decide) ?_ | with_reducible refine World.turnOff_rest (by decide) ?_
    | with_reducible refine World.updEng_rest (by decide) ?_ | with_reducible refine World.vlvEvent_rest (by decide) ?_
    | with_reducible refine Rest.ite ?_ ?_ | dsimp only | split | intro _

theorem World.knockValve_rest {q0 : List Part} {w : World} {v' : World} {ch mode : Nat}
    (hq : partsLe [.vlv, .reg 0x500028] q0 = true) (e0 : Rest q0 w v') : Rest q0 (World.knockValve w ch mode) v' := by
  refine Rest.trans (Rest.mono (p := [.vlv, .reg 0x500028]) ?_ hq) e0
  unfold World.knockValve
  try dsimp only
  repeat' first
    | with_reducible exact Rest.refl _ _ | with_reducible assumption | with_reducible refine Rest.wr _ _ _ _ (by decide) ?_
    | with_reducible refine World.stopEngine_rest (by decide) ?_ | with_reducible refine World.turnOff_rest (by decide) ?_
    | with_reducible refine World.updEng_rest (by decide) ?_ | with_reducible refine Rest.ite ?_ ?_ | dsimp only | split | intro _

theorem World.travelReport_rest {q0 : List Part} {w : World} {v' : World} {ch : Nat} {close nokink : Bool} {t : Nat}
    (hq : partsLe [.evt, .vlv, .reg 0x100018, .reg 0x500030, .reg 0x500034, .reg 0x50004C] q0 = true) (e0 : Rest q0 w v') : Rest q0 (World.travelReport w ch close nokink t) v' := by
  refine Rest.trans (Rest.mono (p := [.evt, .vlv, .reg 0x100018, .reg 0x500030, .reg 0x500034, .reg 0x50004C]) ?_ hq) e0
  unfold World.travelReport
  try dsimp only
  repeat' first
    | with_reducible exact Rest.refl _ _ | with_reducible assumption | with_reducible refine Rest.wr _ _ _ _ (by decide) ?_
    | with_reducible refine Rest.bump _ _ _ (by decide) ?_ | with_reducible refine Rest.when ?_ ?_
    | with_reducible refine World.updEng_rest (by decide) ?_ | with_reducible refine World.vlvEvent_rest (by decide) ?_
    | with_reducible refine Rest.ite ?_ ?_ | dsimp only | split | intro _

theorem World.greenDetect_rest {q0 : List Part} {w : World} {v' : World} {ch : Nat}
    (hq : partsLe [.vlv] q0 = true) (e0 : Rest q0 w v') : Rest q0 (World.greenDetect w ch) v' := by
  refine Rest.trans (Rest.mono (p := [.vlv]) ?_ hq) e0
  unfold World.greenDetect
  try dsimp only
  repeat' first
    | with_reducible exact Rest.refl _ _ | with_reducible assumption | with_reducible refine World.updEng_rest (by decide) ?_
    | with_reducible refine Rest.ite ?_ ?_ | dsimp only | split | intro _

theorem World.greenValve_rest {q0 : List Part} {w : World} {v' : World} {ch : Nat}
    (hq : partsLe [.vlv, .reg 0x500028] q0 = true) (e0 : Rest q0 w v') : Rest q0 (World.greenValve w ch) v' := by
  refine Rest.trans (Rest.mono (p := [.vlv, .reg 0x500028]) ?_ hq) e0
  unfold World.greenValve
  try dsimp only
  repeat' first
    | with_reducible exact Rest.refl _ _ | with_reducible assumption | with_reducible refine Rest.wr _ _ _ _ (by decide) ?_
    | with_reducible refine Rest.when ?_ ?_ | with_reducible refine World.greenDetect_rest (by decide) ?_
    | with_reducible refine World.stopEngine_rest (by decide) ?_ | with_reducible refine World.turnOff_rest (by decide) ?_
    | with_reducible refine World.updEng_rest (by decide) ?_ | with_reducible refine Rest.ite ?_ ?_ | dsimp only | split | intro _

theorem World.valveCmd_rest {q0 : List Part} {w : World} {v' : World} {ch : Nat} {on : Bool}
    (hq : partsLe [.fresh, .evt, .vlv, .reg 0x100018, .reg 0x500020, .reg 0x500028, .reg 0x500030, .reg 0x500034, .reg 0x50004C] q0 = true) (e0 : Rest q0 w v') : Rest q0 (World.valveCmd w ch on) v' := by
  refine Rest.trans (Rest.mono (p := [.fresh, .evt, .vlv, .reg 0x100018, .reg 0x500020, .reg 0x500028, .reg 0x500030, .reg 0x500034, .reg 0x50004C]) ?_ hq) e0
  unfold World.valveCmd
  try dsimp only
  repeat' first
    | with_reducible exact Rest.refl _ _ | with_reducible assumption | with_reducible refine Rest.wr _ _ _ _ (by decide) ?_
    | with_reducible refine World.travelReport_rest (by decide) ?_ | with_reducible refine World.turnOff_rest (by decide) ?_
    | with_reducible refine World.updEng_rest (by decide) ?_ | with_reducible refine Rest.ite ?_ ?_ | with_reducible refine Rest.free (by decide) ?_
    | dsimp only | split | intro _

theorem World.valveSetpoint_rest {q0 : List Part} {w : World} {v' : World} {ch v : Nat}
    (hq : partsLe [.vlv, .reg 0x500024, .reg 0x500028, .reg 0x50004C] q0 = true) (e0 : Rest q0 w v') : Rest q0 (World.valveSetpoint w ch v) v' := by
  refine Rest.trans (Rest.mono (p := [.vlv, .reg 0x500024, .reg 0x500028, .reg 0x50004C]) ?_ hq) e0
  unfold World.valveSetpoint
  try dsimp only
  repeat' first
    | with_reducible exact Rest.refl _ _ | with_reducible assumption | with_reducible refine Rest.wr _ _ _ _ (by decide) ?_
    | with_reducible refine World.askTgt_rest (by decide) ?_ | with_reducible refine World.updEng_rest (by decide) ?_
    | with_reducible refine Rest.ite ?_ ?_ | dsimp only | split | intro _

theorem World.startEngine_rest {q0 : List Part} {w : World} {v' : World} {ch : Nat} {atHold : Bool} {scale : Nat}
    (hq : partsLe [.evt, .vlv, .reg 0x100018, .reg 0x500028, .reg 0x500044, .reg 0x500048] q0 = true) (e0 : Rest q0 w v') : Rest q0 (World.startEngine w ch atHold scale) v' := by
  refine Rest.trans (Rest.mono (p := [.evt, .vlv, .reg 0x100018, .reg 0x500028, .reg 0x500044, .reg 0x500048]) ?_ hq) e0
  unfold World.startEngine
  try dsimp only
  repeat' first
    | with_reducible exact Rest.refl _ _ | with_reducible assumption | with_reducible refine Rest.wr _ _ _ _ (by decide) ?_
    | with_reducible refine World.updEng_rest (by decide) ?_ | with_reducible refine World.vlvFault_rest (by decide) ?_
    | with_reducible refine Rest.ite ?_ ?_ | dsimp only | split | intro _

theorem World.engineStart_rest {q0 : List Part} {w : World} {v' : World} {ch : Nat}
    (hq : partsLe [.evt, .vlv, .reg 0x100018, .reg 0x500028, .reg 0x500044, .reg 0x500048] q0 = true) (e0 : Rest q0 w v') : Rest q0 (World.engineStart w ch) v' := by
  refine Rest.trans (Rest.mono (p := [.evt, .vlv, .reg 0x100018, .reg 0x500028, .reg 0x500044, .reg 0x500048]) ?_ hq) e0
  unfold World.engineStart
  try dsimp only
  repeat' first
    | with_reducible exact Rest.refl _ _ | with_reducible assumption | with_reducible refine Rest.wr _ _ _ _ (by decide) ?_
    | with_reducible refine Rest.when ?_ ?_ | with_reducible refine World.startEngine_rest (by decide) ?_
    | with_reducible refine World.vlvEvent_rest (by decide) ?_ | with_reducible refine Rest.ite ?_ ?_ | dsimp only | split | intro _

theorem World.svcState_rest {q0 : List Part} {w : World} {v' : World} {st reason : Nat}
    (hq : partsLe [.evt, .reg 0xA4, .reg 0x100018] q0 = true) (e0 : Rest q0 w v') : Rest q0 (World.svcState w st reason) v' := by
  refine Rest.trans (Rest.mono (p := [.evt, .reg 0xA4, .reg 0x100018]) ?_ hq) e0
  unfold World.svcState
  try dsimp only
  repeat' first
    | with_reducible exact Rest.refl _ _ | with_reducible assumption | with_reducible refine Rest.wrBoth _ _ _ (by decide) ?_
    | with_reducible refine Rest.raiseBoth _ _ (by decide) ?_ | with_reducible refine Rest.ite ?_ ?_ | dsimp only | split | intro _

theorem World.svcTwinLost_rest {q0 : List Part} {w : World} {v' : World} {ch : Nat}
    (hq : partsLe [.evt, .reg 0xA4, .reg 0x100018] q0 = true) (e0 : Rest q0 w v') : Rest q0 (World.svcTwinLost w ch) v' := by
  refine Rest.trans (Rest.mono (p := [.evt, .reg 0xA4, .reg 0x100018]) ?_ hq) e0
  unfold World.svcTwinLost
  try dsimp only
  repeat' first
    | with_reducible exact Rest.refl _ _ | with_reducible assumption | with_reducible refine Rest.wrBoth _ _ _ (by decide) ?_
    | with_reducible refine Rest.when ?_ ?_ | with_reducible refine World.svcState_rest (by decide) ?_ | with_reducible refine Rest.ite ?_ ?_
    | dsimp only | split | intro _

theorem World.valveRampEnd_rest {q0 : List Part} {w : World} {v' : World} {ch : Nat}
    (hq : partsLe [.vlv, .reg 0x500028] q0 = true) (e0 : Rest q0 w v') : Rest q0 (World.valveRampEnd w ch) v' := by
  refine Rest.trans (Rest.mono (p := [.vlv, .reg 0x500028]) ?_ hq) e0
  unfold World.valveRampEnd
  try dsimp only
  repeat' first
    | with_reducible exact Rest.refl _ _ | with_reducible assumption | with_reducible refine World.greenDetect_rest (by decide) ?_
    | with_reducible refine World.turnOff_rest (by decide) ?_ | with_reducible refine World.updEng_rest (by decide) ?_
    | with_reducible refine Rest.ite ?_ ?_ | dsimp only | split | intro _

theorem World.advance_rest {q0 : List Part} {w : World} {v' : World} {ch : Nat}
    (hq : partsLe [.vlv, .reg 0x500044] q0 = true) (e0 : Rest q0 w v') : Rest q0 (World.advance w ch) v' := by
  refine Rest.trans (Rest.mono (p := [.vlv, .reg 0x500044]) ?_ hq) e0
  unfold World.advance
  try dsimp only
  repeat' first
    | with_reducible exact Rest.refl _ _ | with_reducible assumption | with_reducible refine Rest.wr _ _ _ _ (by decide) ?_
    | with_reducible refine World.updEng_rest (by decide) ?_ | with_reducible refine Rest.ite ?_ ?_ | dsimp only | split | intro _

theorem World.decide_rest {q0 : List Part} {w : World} {v' : World} {ch : Nat}
    (hq : partsLe [.vlv, .reg 0x500028, .reg 0x500044] q0 = true) (e0 : Rest q0 w v') : Rest q0 (World.decide_ w ch) v' := by
  refine Rest.trans (Rest.mono (p := [.vlv, .reg 0x500028, .reg 0x500044]) ?_ hq) e0
  unfold World.decide_
  try dsimp only
  repeat' first
    | with_reducible exact Rest.refl _ _ | with_reducible assumption | with_reducible refine Rest.wr _ _ _ _ (by decide) ?_
    | with_reducible refine Rest.when ?_ ?_ | with_reducible refine World.admitSrc_rest (by decide) ?_
    | with_reducible refine World.advance_rest (by decide) ?_ | with_reducible refine World.setTgt_rest (by decide) ?_
    | with_reducible refine World.updEng_rest (by decide) ?_ | with_reducible refine Rest.ite ?_ ?_ | dsimp only | split | intro _

theorem World.loadTile_rest {q0 : List Part} {w : World} {v' : World} {h : Half} {t : Nat} {recs : List Recipe} {chans : NMap ChanRef}
    (hq : partsLe [.vlv, .reg 0x500080] q0 = true) (e0 : Rest q0 w v') : Rest q0 (World.loadTile w h t recs chans) v' := by
  refine Rest.trans (Rest.mono (p := [.vlv, .reg 0x500080]) ?_ hq) e0
  unfold World.loadTile
  try dsimp only
  repeat' first
    | with_reducible exact Rest.refl _ _ | with_reducible assumption | with_reducible refine Rest.wr _ _ _ _ (by decide) ?_
    | with_reducible refine World.updTile_rest (by decide) ?_ | with_reducible refine Rest.ite ?_ ?_ | dsimp only | split | intro _

theorem World.unlockTile_rest {q0 : List Part} {w : World} {v' : World} {t : Nat}
    (hq : partsLe [.vlv, .reg 0x500080] q0 = true) (e0 : Rest q0 w v') : Rest q0 (World.unlockTile w t) v' := by
  refine Rest.trans (Rest.mono (p := [.vlv, .reg 0x500080]) ?_ hq) e0
  unfold World.unlockTile
  try dsimp only
  repeat' first
    | with_reducible exact Rest.refl _ _ | with_reducible assumption | with_reducible refine Rest.wr _ _ _ _ (by decide) ?_
    | with_reducible refine World.updTile_rest (by decide) ?_ | with_reducible refine Rest.ite ?_ ?_ | dsimp only | split | intro _

theorem World.dropTileLock_rest {q0 : List Part} {w : World} {v' : World} {h : Half} {t : Nat}
    (hq : partsLe [.vlv, .reg 0x500080] q0 = true) (e0 : Rest q0 w v') : Rest q0 (World.dropTileLock w h t) v' := by
  refine Rest.trans (Rest.mono (p := [.vlv, .reg 0x500080]) ?_ hq) e0
  unfold World.dropTileLock
  try dsimp only
  repeat' first
    | with_reducible exact Rest.refl _ _ | with_reducible assumption | with_reducible refine Rest.wr _ _ _ _ (by decide) ?_
    | with_reducible refine World.updTile_rest (by decide) ?_ | with_reducible refine Rest.ite ?_ ?_ | dsimp only | split | intro _

theorem World.showRefs_rest {q0 : List Part} {w : World} {v' : World} {t : Nat}
    (hq : partsLe [.reg 0x500048] q0 = true) (e0 : Rest q0 w v') : Rest q0 (World.showRefs w t) v' := by
  refine Rest.trans (Rest.mono (p := [.reg 0x500048]) ?_ hq) e0
  unfold World.showRefs
  try dsimp only
  repeat' first
    | with_reducible exact Rest.refl _ _ | with_reducible assumption | with_reducible refine Rest.wr _ _ _ _ (by decide) ?_
    | with_reducible refine Rest.forAll ?_ ?_ | with_reducible refine Rest.ite ?_ ?_ | dsimp only | split | intro _

theorem World.beginMerge_rest {q0 : List Part} {w : World} {v' : World} {ch : Nat}
    (hq : partsLe [.vlv] q0 = true) (e0 : Rest q0 w v') : Rest q0 (World.beginMerge w ch) v' := by
  refine Rest.trans (Rest.mono (p := [.vlv]) ?_ hq) e0
  unfold World.beginMerge
  try dsimp only
  repeat' first
    | with_reducible exact Rest.refl _ _ | with_reducible assumption | with_reducible refine Rest.when ?_ ?_
    | with_reducible refine World.updEng_rest (by decide) ?_ | with_reducible refine Rest.ite ?_ ?_ | dsimp only | split | intro _

theorem World.updBind_rest {q0 : List Part} {w : World} {v' : World} {h : Half} {b : Nat} {f : BindSt → BindSt}
    (hq : partsLe [.uin] q0 = true) (e0 : Rest q0 w v') : Rest q0 (World.updBind w h b f) v' := by
  refine Rest.trans (Rest.mono (p := [.uin]) ?_ hq) e0
  unfold World.updBind
  try dsimp only
  repeat' first
    | with_reducible exact Rest.refl _ _ | with_reducible assumption | with_reducible refine Rest.ite ?_ ?_
    | with_reducible refine Rest.set_uin (by decide) ?_ _ | dsimp only | split | intro _

theorem World.updComp_rest {q0 : List Part} {w : World} {v' : World} {n : Nat} {f : Comp → Comp}
    (hq : partsLe [.uin] q0 = true) (e0 : Rest q0 w v') : Rest q0 (World.updComp w n f) v' := by
  refine Rest.trans (Rest.mono (p := [.uin]) ?_ hq) e0
  unfold World.updComp
  try dsimp only
  repeat' first
    | with_reducible exact Rest.refl _ _ | with_reducible assumption | with_reducible refine Rest.ite ?_ ?_
    | with_reducible refine Rest.set_uin (by decide) ?_ _ | dsimp only | split | intro _

theorem World.publishIn_rest {q0 : List Part} {w : World} {v' : World} {b : Nat} {h : Half}
    (hq : partsLe [.evt, .reg 0x100018, .reg 0x701000, .reg 0x701004] q0 = true) (e0 : Rest q0 w v') : Rest q0 (World.publishIn w b h) v' := by
  refine Rest.trans (Rest.mono (p := [.evt, .reg 0x100018, .reg 0x701000, .reg 0x701004]) ?_ hq) e0
  unfold World.publishIn
  try dsimp only
  repeat' first
    | with_reducible exact Rest.refl _ _ | with_reducible assumption | with_reducible refine Rest.wr _ _ _ _ (by decide) ?_
    | with_reducible refine Rest.raise _ _ _ (by decide) ?_ | with_reducible refine Rest.ite ?_ ?_ | dsimp only | split | intro _

theorem World.publish_rest {q0 : List Part} {w : World} {v' : World} {h : Half} {b : Nat}
    (hq : partsLe [.evt, .uin, .reg 0x100018, .reg 0x700020, .reg 0x700024, .reg 0x700044, .reg 0x701000, .reg 0x701004] q0 = true) (e0 : Rest q0 w v') : Rest q0 (World.publish w h b) v' := by
  refine Rest.trans (Rest.mono (p := [.evt, .uin, .reg 0x100018, .reg 0x700020, .reg 0x700024, .reg 0x700044, .reg 0x701000, .reg 0x701004]) ?_ hq) e0
  unfold World.publish
  try dsimp only
  repeat' first
    | with_reducible exact Rest.refl _ _ | with_reducible assumption | with_reducible refine Rest.wr _ _ _ _ (by decide) ?_
    | with_reducible refine Rest.bump _ _ _ (by decide) ?_ | with_reducible refine Rest.when ?_ ?_ | with_reducible refine Rest.foldl ?_ ?_
    | with_reducible refine World.publishIn_rest (by decide) ?_ | with_reducible refine World.updBind_rest (by decide) ?_
    | with_reducible refine Rest.ite ?_ ?_ | dsimp only | split | intro _

theorem World.chain_rest {q0 : List Part} {w : World} {v' : World} {srv h : Half} {b : Nat} {x : Rat} {edge : Bool}
    (hq : partsLe [.uin, .reg 0x70002C, .reg 0x700030, .reg 0x700044] q0 = true) (e0 : Rest q0 w v') : Rest q0 (World.chain w srv h b x edge) v' := by
  refine Rest.trans (Rest.mono (p := [.uin, .reg 0x70002C, .reg 0x700030, .reg 0x700044]) ?_ hq) e0
  unfold World.chain
  try dsimp only
  repeat' first
    | with_reducible exact Rest.refl _ _ | with_reducible assumption | with_reducible refine Rest.wr _ _ _ _ (by decide) ?_
    | with_reducible refine Rest.bump _ _ _ (by decide) ?_ | with_reducible refine Rest.when ?_ ?_
    | with_reducible refine World.updBind_rest (by decide) ?_ | with_reducible refine Rest.ite ?_ ?_ | dsimp only | split | intro _

theorem World.setConflict_rest {q0 : List Part} {w : World} {v' : World} {h : Half} {b : Nat} {on : Bool}
    (hq : partsLe [.evt, .uin, .reg 0x100018] q0 = true) (e0 : Rest q0 w v') : Rest q0 (World.setConflict w h b on) v' := by
  refine Rest.trans (Rest.mono (p := [.evt, .uin, .reg 0x100018]) ?_ hq) e0
  unfold World.setConflict
  try dsimp only
  repeat' first
    | with_reducible exact Rest.refl _ _ | with_reducible assumption | with_reducible refine Rest.raise _ _ _ (by decide) ?_
    | with_reducible refine Rest.foldl ?_ ?_ | with_reducible refine World.updBind_rest (by decide) ?_ | with_reducible refine Rest.ite ?_ ?_
    | dsimp only | split | intro _

theorem World.compare_rest {q0 : List Part} {w : World} {v' : World} {h : Half} {k : Nat} {t : TwinCfg}
    (hq : partsLe [.evt, .uin, .reg 0x100018] q0 = true) (e0 : Rest q0 w v') : Rest q0 (World.compare w h k t) v' := by
  refine Rest.trans (Rest.mono (p := [.evt, .uin, .reg 0x100018]) ?_ hq) e0
  unfold World.compare
  try dsimp only
  repeat' first
    | with_reducible exact Rest.refl _ _ | with_reducible assumption | with_reducible refine World.setConflict_rest (by decide) ?_
    | with_reducible refine World.updBind_rest (by decide) ?_ | with_reducible refine Rest.ite ?_ ?_
    | with_reducible refine Rest.set_uin (by decide) ?_ _ | dsimp only | split | intro _

theorem World.compareOf_rest {q0 : List Part} {w : World} {v' : World} {h : Half} {p : Nat → Bool}
    (hq : partsLe [.evt, .uin, .reg 0x100018, .reg 0x700020, .reg 0x700024, .reg 0x700044, .reg 0x701000, .reg 0x701004] q0 = true) (e0 : Rest q0 w v') : Rest q0 (World.compareOf w h p) v' := by
  refine Rest.trans (Rest.mono (p := [.evt, .uin, .reg 0x100018, .reg 0x700020, .reg 0x700024, .reg 0x700044, .reg 0x701000, .reg 0x701004]) ?_ hq) e0
  unfold World.compareOf
  try dsimp only
  repeat' first
    | with_reducible exact Rest.refl _ _ | with_reducible assumption | with_reducible refine Rest.foldl ?_ ?_
    | with_reducible refine World.compare_rest (by decide) ?_ | with_reducible refine World.publish_rest (by decide) ?_
    | with_reducible refine Rest.ite ?_ ?_ | dsimp only | split | intro _

theorem World.bindUpdated_rest {q0 : List Part} {w : World} {v' : World} {h : Half} {b : Nat}
    (hq : partsLe [.evt, .uin, .reg 0x100018, .reg 0x700020, .reg 0x700024, .reg 0x700044, .reg 0x701000, .reg 0x701004] q0 = true) (e0 : Rest q0 w v') : Rest q0 (World.bindUpdated w h b) v' := by
  refine Rest.trans (Rest.mono (p := [.evt, .uin, .reg 0x100018, .reg 0x700020, .reg 0x700024, .reg 0x700044, .reg 0x701000, .reg 0x701004]) ?_ hq) e0
  unfold World.bindUpdated
  try dsimp only
  repeat' first
    | with_reducible exact Rest.refl _ _ | with_reducible assumption | with_reducible refine World.compareOf_rest (by decide) ?_
    | with_reducible refine World.publish_rest (by decide) ?_ | with_reducible refine Rest.ite ?_ ?_ | dsimp only | split | intro _

theorem World.twinTime_rest {q0 : List Part} {w : World} {v' : World} {h : Half} {k : Nat} {div : Bool}
    (hq : partsLe [.evt, .uin, .reg 0x100018, .reg 0x700020, .reg 0x700024, .reg 0x700044, .reg 0x701000, .reg 0x701004] q0 = true) (e0 : Rest q0 w v') : Rest q0 (World.twinTime w h k div) v' := by
  refine Rest.trans (Rest.mono (p := [.evt, .uin, .reg 0x100018, .reg 0x700020, .reg 0x700024, .reg 0x700044, .reg 0x701000, .reg 0x701004]) ?_ hq) e0
  unfold World.twinTime
  try dsimp only
  repeat' first
    | with_reducible exact Rest.refl _ _ | with_reducible assumption | with_reducible refine World.publish_rest (by decide) ?_
    | with_reducible refine World.setConflict_rest (by decide) ?_ | with_reducible refine Rest.ite ?_ ?_ | dsimp only | split | intro _

theorem World.sampleInput_rest {q0 : List Part} {w : World} {v' : World} {led : Memory} {srv : Half} {codes vs : List Nat} {b : Nat} {c : BindCfg}
    (hq : partsLe [.uin, .reg 0x700024, .reg 0x70002C, .reg 0x700030, .reg 0x700034, .reg 0x700044] q0 = true) (e0 : Rest q0 w v') : Rest q0 (World.sampleInput w led srv codes vs b c) v' := by
  refine Rest.trans (Rest.mono (p := [.uin, .reg 0x700024, .reg 0x70002C, .reg 0x700030, .reg 0x700034, .reg 0x700044]) ?_ hq) e0
  unfold World.sampleInput
  try dsimp only
  repeat' first
    | with_reducible exact Rest.refl _ _ | with_reducible assumption | with_reducible refine Rest.wr _ _ _ _ (by decide) ?_
    | with_reducible refine Rest.when ?_ ?_ | with_reducible refine World.chain_rest (by decide) ?_
    | with_reducible refine World.updBind_rest (by decide) ?_ | with_reducible refine World.updComp_rest (by decide) ?_
    | with_reducible refine Rest.ite ?_ ?_ | dsimp only | split | intro _

theorem World.quadError_rest {q0 : List Part} {w : World} {v' : World} {n b : Nat}
    (hq : partsLe [.evt, .reg 0x100018, .reg 0x700044] q0 = true) (e0 : Rest q0 w v') : Rest q0 (World.quadError w n b) v' := by
  refine Rest.trans (Rest.mono (p := [.evt, .reg 0x100018, .reg 0x700044]) ?_ hq) e0
  unfold World.quadError
  try dsimp only
  repeat' first
    | with_reducible exact Rest.refl _ _ | with_reducible assumption | with_reducible refine Rest.bump _ _ _ (by decide) ?_
    | with_reducible refine Rest.raiseBoth _ _ (by decide) ?_ | with_reducible refine Rest.when ?_ ?_ | with_reducible refine Rest.ite ?_ ?_
    | dsimp only | split | intro _

theorem World.quadCount_rest {q0 : List Part} {w : World} {v' : World} {n : Nat} {d : Int}
    (hq : partsLe [.reg 0x700038] q0 = true) (e0 : Rest q0 w v') : Rest q0 (World.quadCount w n d) v' := by
  refine Rest.trans (Rest.mono (p := [.reg 0x700038]) ?_ hq) e0
  unfold World.quadCount
  try dsimp only
  repeat' first
    | with_reducible exact Rest.refl _ _ | with_reducible assumption | with_reducible refine Rest.wrI _ _ _ _ (by decide) ?_
    | with_reducible refine Rest.ite ?_ ?_ | dsimp only | split | intro _

theorem World.knockInput_rest {q0 : List Part} {w : World} {v' : World} {n : Nat}
    (hq : partsLe [.evt, .uin, .reg 0x100018, .reg 0x700020, .reg 0x700024, .reg 0x700044, .reg 0x701000, .reg 0x701004] q0 = true) (e0 : Rest q0 w v') : Rest q0 (World.knockInput w n) v' := by
  refine Rest.trans (Rest.mono (p := [.evt, .uin, .reg 0x100018, .reg 0x700020, .reg 0x700024, .reg 0x700044, .reg 0x701000, .reg 0x701004]) ?_ hq) e0
  unfold World.knockInput
  try dsimp only
  repeat' first
    | with_reducible exact Rest.refl _ _ | with_reducible assumption | with_reducible refine World.bindUpdated_rest (by decide) ?_
    | with_reducible refine World.updBind_rest (by decide) ?_ | with_reducible refine Rest.ite ?_ ?_ | dsimp only | split | intro _

theorem World.updSupply_rest {q0 : List Part} {w : World} {v' : World} {n : Nat} {f : Supply → Supply}
    (hq : partsLe [.uin] q0 = true) (e0 : Rest q0 w v') : Rest q0 (World.updSupply w n f) v' := by
  refine Rest.trans (Rest.mono (p := [.uin]) ?_ hq) e0
  unfold World.updSupply
  try dsimp only
  repeat' first
    | with_reducible exact Rest.refl _ _ | with_reducible assumption | with_reducible refine Rest.ite ?_ ?_
    | with_reducible refine Rest.set_uin (by decide) ?_ _ | dsimp only | split | intro _

theorem World.supplyFault_rest {q0 : List Part} {w : World} {v' : World} {n : Nat}
    (hq : partsLe [.evt, .uin, .reg 0x100018, .reg 0x700020, .reg 0x700024, .reg 0x700044, .reg 0x701000, .reg 0x701004] q0 = true) (e0 : Rest q0 w v') : Rest q0 (World.supplyFault w n) v' := by
  refine Rest.trans (Rest.mono (p := [.evt, .uin, .reg 0x100018, .reg 0x700020, .reg 0x700024, .reg 0x700044, .reg 0x701000, .reg 0x701004]) ?_ hq) e0
  unfold World.supplyFault
  try dsimp only
  repeat' first
    | with_reducible exact Rest.refl _ _ | with_reducible assumption | with_reducible refine Rest.foldl ?_ ?_
    | with_reducible refine World.bindUpdated_rest (by decide) ?_ | with_reducible refine World.updBind_rest (by decide) ?_
    | with_reducible refine Rest.ite ?_ ?_ | dsimp only | split | intro _

theorem World.externalWrite_rest {q0 : List Part} {w : World} {v' : World} {srv h : Half} {b : Nat} {x : Rat}
    (hq : partsLe [.evt, .uin, .reg 0x100018, .reg 0x700020, .reg 0x700024, .reg 0x70002C, .reg 0x700030, .reg 0x700044, .reg 0x701000, .reg 0x701004] q0 = true) (e0 : Rest q0 w v') : Rest q0 (World.externalWrite w srv h b x) v' := by
  refine Rest.trans (Rest.mono (p := [.evt, .uin, .reg 0x100018, .reg 0x700020, .reg 0x700024, .reg 0x70002C, .reg 0x700030, .reg 0x700044, .reg 0x701000, .reg 0x701004]) ?_ hq) e0
  unfold World.externalWrite
  try dsimp only
  repeat' first
    | with_reducible exact Rest.refl _ _ | with_reducible assumption | with_reducible refine World.bindUpdated_rest (by decide) ?_
    | with_reducible refine World.chain_rest (by decide) ?_ | with_reducible refine Rest.ite ?_ ?_ | dsimp only | split | intro _

theorem World.moduleWrite_rest {q0 : List Part} {w : World} {v' : World} {srv h : Half} {obj : Nat} {valid : Bool} {x : Rat}
    (hq : partsLe [.evt, .uin, .reg 0x100018, .reg 0x700020, .reg 0x700024, .reg 0x70002C, .reg 0x700030, .reg 0x700044, .reg 0x701000, .reg 0x701004] q0 = true) (e0 : Rest q0 w v') : Rest q0 (World.moduleWrite w srv h obj valid x) v' := by
  refine Rest.trans (Rest.mono (p := [.evt, .uin, .reg 0x100018, .reg 0x700020, .reg 0x700024, .reg 0x70002C, .reg 0x700030, .reg 0x700044, .reg 0x701000, .reg 0x701004]) ?_ hq) e0
  unfold World.moduleWrite
  try dsimp only
  repeat' first
    | with_reducible exact Rest.refl _ _ | with_reducible assumption | with_reducible refine Rest.foldl ?_ ?_
    | with_reducible refine World.bindUpdated_rest (by decide) ?_ | with_reducible refine World.chain_rest (by decide) ?_
    | with_reducible refine World.updBind_rest (by decide) ?_ | with_reducible refine Rest.ite ?_ ?_ | dsimp only | split | intro _

theorem World.updElem_rest {q0 : List Part} {w : World} {v' : World} {k : Nat} {f : Elem → Elem}
    (hq : partsLe [.uin] q0 = true) (e0 : Rest q0 w v') : Rest q0 (World.updElem w k f) v' := by
  refine Rest.trans (Rest.mono (p := [.uin]) ?_ hq) e0
  unfold World.updElem
  try dsimp only
  repeat' first
    | with_reducible exact Rest.refl _ _ | with_reducible assumption | with_reducible refine Rest.ite ?_ ?_
    | with_reducible refine Rest.set_uin (by decide) ?_ _ | dsimp only | split | intro _

theorem World.losGroup_rest {q0 : List Part} {w : World} {v' : World} {id : Nat} {x : LosWin} {mask : Nat} {was : Bool}
    (hq : partsLe [.evt, .reg 0x100018] q0 = true) (e0 : Rest q0 w v') : Rest q0 (World.losGroup w id x mask was) v' := by
  refine Rest.trans (Rest.mono (p := [.evt, .reg 0x100018]) ?_ hq) e0
  unfold World.losGroup
  try dsimp only
  repeat' first
    | with_reducible exact Rest.refl _ _ | with_reducible assumption | with_reducible refine Rest.raiseBoth _ _ (by decide) ?_
    | with_reducible refine Rest.ite ?_ ?_ | dsimp only | split | intro _

theorem World.losBinding_rest {q0 : List Part} {w : World} {v' : World} {x : LosWin} {b : Nat} {c : BindCfg}
    (hq : partsLe [.evt, .uin, .reg 0x100018, .reg 0x700020, .reg 0x700024, .reg 0x700044, .reg 0x701000, .reg 0x701004] q0 = true) (e0 : Rest q0 w v') : Rest q0 (World.losBinding w x b c) v' := by
  refine Rest.trans (Rest.mono (p := [.evt, .uin, .reg 0x100018, .reg 0x700020, .reg 0x700024, .reg 0x700044, .reg 0x701000, .reg 0x701004]) ?_ hq) e0
  unfold World.losBinding
  try dsimp only
  repeat' first
    | with_reducible exact Rest.refl _ _ | with_reducible assumption | with_reducible refine World.bindUpdated_rest (by decide) ?_
    | with_reducible refine World.losGroup_rest (by decide) ?_ | with_reducible refine World.updBind_rest (by decide) ?_
    | with_reducible refine Rest.ite ?_ ?_ | dsimp only | split | intro _

theorem World.losOutcomes_rest {q0 : List Part} {w : World} {v' : World} {h : Half} {x : LosWin} {was : Option LosWin}
    (hq : partsLe [.evt, .reg 0x100018] q0 = true) (e0 : Rest q0 w v') : Rest q0 (World.losOutcomes w h x was) v' := by
  refine Rest.trans (Rest.mono (p := [.evt, .reg 0x100018]) ?_ hq) e0
  unfold World.losOutcomes
  try dsimp only
  repeat' first
    | with_reducible exact Rest.refl _ _ | with_reducible assumption | with_reducible refine Rest.foldl ?_ ?_
    | with_reducible refine World.losGroup_rest (by decide) ?_ | with_reducible refine Rest.ite ?_ ?_ | dsimp only | split | intro _

theorem World.instrTgt_rest {q0 : List Part} {w : World} {v' : World} {ch want amp : Nat}
    (hq : partsLe [.vlv, .reg 0x500028, .reg 0x500044, .reg 0x50004C] q0 = true) (e0 : Rest q0 w v') : Rest q0 (World.instrTgt w ch want amp) v' := by
  refine Rest.trans (Rest.mono (p := [.vlv, .reg 0x500028, .reg 0x500044, .reg 0x50004C]) ?_ hq) e0
  unfold World.instrTgt
  try dsimp only
  repeat' first
    | with_reducible exact Rest.refl _ _ | with_reducible assumption | with_reducible refine Rest.when ?_ ?_
    | with_reducible refine World.advance_rest (by decide) ?_ | with_reducible refine World.askTgt_rest (by decide) ?_
    | with_reducible refine Rest.ite ?_ ?_ | dsimp only | split | intro _

theorem World.flagSp_rest {q0 : List Part} {w : World} {v' : World} {ch v : Nat}
    (hq : partsLe [.reg 0x500028] q0 = true) (e0 : Rest q0 w v') : Rest q0 (World.flagSp w ch v) v' := by
  refine Rest.trans (Rest.mono (p := [.reg 0x500028]) ?_ hq) e0
  unfold World.flagSp
  try dsimp only
  repeat' first
    | with_reducible exact Rest.refl _ _ | with_reducible assumption | with_reducible refine Rest.wr _ _ _ _ (by decide) ?_
    | with_reducible refine Rest.when ?_ ?_ | with_reducible refine Rest.ite ?_ ?_ | dsimp only | split | intro _

theorem World.seti_rest {q0 : List Part} {w : World} {v' : World} {ch v : Nat}
    (hq : partsLe [.vlv, .reg 0x500028, .reg 0x500044, .reg 0x50004C] q0 = true) (e0 : Rest q0 w v') : Rest q0 (World.seti w ch v) v' := by
  refine Rest.trans (Rest.mono (p := [.vlv, .reg 0x500028, .reg 0x500044, .reg 0x50004C]) ?_ hq) e0
  unfold World.seti
  try dsimp only
  repeat' first
    | with_reducible exact Rest.refl _ _ | with_reducible assumption | with_reducible refine World.flagSp_rest (by decide) ?_
    | with_reducible refine World.instrTgt_rest (by decide) ?_ | with_reducible refine World.updEng_rest (by decide) ?_
    | with_reducible refine Rest.ite ?_ ?_ | dsimp only | split | intro _

theorem World.kinkFound_rest {q0 : List Part} {w : World} {v' : World} {ch k : Nat} {close : Bool}
    (hq : partsLe [.evt, .vlv, .reg 0x100018, .reg 0x500030, .reg 0x500034, .reg 0x500044, .reg 0x50004C] q0 = true) (e0 : Rest q0 w v') : Rest q0 (World.kinkFound w ch k close) v' := by
  refine Rest.trans (Rest.mono (p := [.evt, .vlv, .reg 0x100018, .reg 0x500030, .reg 0x500034, .reg 0x500044, .reg 0x50004C]) ?_ hq) e0
  unfold World.kinkFound
  try dsimp only
  repeat' first
    | with_reducible exact Rest.refl _ _ | with_reducible assumption | with_reducible refine Rest.when ?_ ?_
    | with_reducible refine World.advance_rest (by decide) ?_ | with_reducible refine World.travelReport_rest (by decide) ?_
    | with_reducible refine World.updEng_rest (by decide) ?_ | with_reducible refine Rest.ite ?_ ?_ | dsimp only | split | intro _

theorem World.jump_rest {q0 : List Part} {w : World} {v' : World} {ch v : Nat}
    (hq : partsLe [.reg 0x500044] q0 = true) (e0 : Rest q0 w v') : Rest q0 (World.jump w ch v) v' := by
  refine Rest.trans (Rest.mono (p := [.reg 0x500044]) ?_ hq) e0
  unfold World.jump
  try dsimp only
  repeat' first
    | with_reducible exact Rest.refl _ _ | with_reducible assumption | with_reducible refine Rest.wr _ _ _ _ (by decide) ?_
    | with_reducible refine Rest.ite ?_ ?_ | dsimp only | split | intro _

end Sys2Proof.Machine
end

