-- ==== Sys2Proof/Laws/RestSense.lean ====
section
/-!
SUPPORT. What each operation of these units leaves alone.
-/
set_option linter.unreachableTactic false
set_option linter.unusedTactic false

namespace Sys2Proof.Machine

theorem World.canWr_rest {q : List Part} {w v : World} (n : Nat) (f : Field) (x : Nat)
    (hq : (partIn q (.reg f.reg) && decide (f.reg < 2 ^ 25)) = true) (e : Rest q w v) : Rest q (w.canWr n f x) v :=
  Rest.wr _ _ _ _ hq e

theorem World.updGrind_rest {q0 : List Part} {w : World} {v' : World} {h : Half} {f : Grind → Grind}
    (hq : partsLe [.grd] q0 = true) (e0 : Rest q0 w v') : Rest q0 (World.updGrind w h f) v' := by
  refine Rest.trans (Rest.mono (p := [.grd]) ?_ hq) e0
  unfold World.updGrind
  try dsimp only
  repeat' first
    | with_reducible exact Rest.refl _ _ | with_reducible assumption | with_reducible refine Rest.ite ?_ ?_
    | with_reducible refine Rest.set_grd (by decide) ?_ _ | dsimp only | split | intro _

theorem World.updPort_rest {q0 : List Part} {w : World} {v' : World} {h : Half} {p : Nat} {f : PortSt → PortSt}
    (hq : partsLe [.grd] q0 = true) (e0 : Rest q0 w v') : Rest q0 (World.updPort w h p f) v' := by
  refine Rest.trans (Rest.mono (p := [.grd]) ?_ hq) e0
  unfold World.updPort
  try dsimp only
  repeat' first
    | with_reducible exact Rest.refl _ _ | with_reducible assumption | with_reducible refine World.updGrind_rest (by decide) ?_
    | with_reducible refine Rest.ite ?_ ?_ | dsimp only | split | intro _

theorem World.setMres_rest {q0 : List Part} {w : World} {v' : World} {h : Half} {m v : Nat}
    (hq : partsLe [.reg 0xD00024] q0 = true) (e0 : Rest q0 w v') : Rest q0 (World.setMres w h m v) v' := by
  refine Rest.trans (Rest.mono (p := [.reg 0xD00024]) ?_ hq) e0
  unfold World.setMres
  try dsimp only
  repeat' first
    | with_reducible exact Rest.refl _ _ | with_reducible assumption | with_reducible refine Rest.setReg _ _ _ _ (by decide) ?_
    | with_reducible refine Rest.ite ?_ ?_ | dsimp only | split | intro _

theorem World.dropSample_rest {q0 : List Part} {w : World} {v' : World} {h : Half} {p : Nat} {bad : Bool}
    (hq : partsLe [.grd, .reg 0xC00040] q0 = true) (e0 : Rest q0 w v') : Rest q0 (World.dropSample w h p bad) v' := by
  refine Rest.trans (Rest.mono (p := [.grd, .reg 0xC00040]) ?_ hq) e0
  unfold World.dropSample
  try dsimp only
  repeat' first
    | with_reducible exact Rest.refl _ _ | with_reducible assumption | with_reducible refine Rest.bump _ _ _ (by decide) ?_
    | with_reducible refine World.updPort_rest (by decide) ?_ | with_reducible refine Rest.ite ?_ ?_ | dsimp only | split | intro _

theorem World.lateSample_rest {q0 : List Part} {w : World} {v' : World} {h : Half} {t : Nat}
    (hq : partsLe [.grd, .reg 0xE00118] q0 = true) (e0 : Rest q0 w v') : Rest q0 (World.lateSample w h t) v' := by
  refine Rest.trans (Rest.mono (p := [.grd, .reg 0xE00118]) ?_ hq) e0
  unfold World.lateSample
  try dsimp only
  repeat' first
    | with_reducible exact Rest.refl _ _ | with_reducible assumption | with_reducible refine Rest.bump _ _ _ (by decide) ?_
    | with_reducible refine World.updGrind_rest (by decide) ?_ | with_reducible refine Rest.ite ?_ ?_ | dsimp only | split | intro _

theorem World.takeStamps_rest {q0 : List Part} {w : World} {v' : World} {h : Half} {p unc : Nat} {ts : List Nat}
    (hq : partsLe [.grd, .reg 0xE00118, .reg 0xE0011C] q0 = true) (e0 : Rest q0 w v') : Rest q0 (World.takeStamps w h p unc ts) v' := by
  refine Rest.trans (Rest.mono (p := [.grd, .reg 0xE00118, .reg 0xE0011C]) ?_ hq) e0
  unfold World.takeStamps
  try dsimp only
  repeat' first
    | with_reducible exact Rest.refl _ _ | with_reducible assumption | with_reducible refine Rest.bump _ _ _ (by decide) ?_
    | with_reducible refine Rest.forAll ?_ ?_ | with_reducible refine World.lateSample_rest (by decide) ?_
    | with_reducible refine World.updGrind_rest (by decide) ?_ | with_reducible refine Rest.ite ?_ ?_ | dsimp only | split | intro _

theorem World.acceptSample_rest {q0 : List Part} {w : World} {v' : World} {h : Half} {p : Nat} {bs : List Byte}
    (hq : partsLe [.grd, .reg 0xC00040] q0 = true) (e0 : Rest q0 w v') : Rest q0 (World.acceptSample w h p bs) v' := by
  refine Rest.trans (Rest.mono (p := [.grd, .reg 0xC00040]) ?_ hq) e0
  unfold World.acceptSample
  try dsimp only
  repeat' first
    | with_reducible exact Rest.refl _ _ | with_reducible assumption | with_reducible refine Rest.wr _ _ _ _ (by decide) ?_
    | with_reducible refine Rest.when ?_ ?_ | with_reducible refine World.updPort_rest (by decide) ?_ | with_reducible refine Rest.ite ?_ ?_
    | dsimp only | split | intro _

theorem World.sample_rest {q0 : List Part} {w : World} {v' : World} {h : Half} {p : Nat} {bs : List Byte}
    (hq : partsLe [.grd, .reg 0xC00040, .reg 0xE00118, .reg 0xE0011C] q0 = true) (e0 : Rest q0 w v') : Rest q0 (World.sample w h p bs) v' := by
  refine Rest.trans (Rest.mono (p := [.grd, .reg 0xC00040, .reg 0xE00118, .reg 0xE0011C]) ?_ hq) e0
  unfold World.sample
  try dsimp only
  repeat' first
    | with_reducible exact Rest.refl _ _ | with_reducible assumption | with_reducible refine World.acceptSample_rest (by decide) ?_
    | with_reducible refine World.dropSample_rest (by decide) ?_ | with_reducible refine World.takeStamps_rest (by decide) ?_
    | with_reducible refine Rest.ite ?_ ?_ | dsimp only | split | intro _

theorem World.setPort_rest {q0 : List Part} {w : World} {v' : World} {h : Half} {p st : Nat}
    (hq : partsLe [.evt, .reg 0x100018, .reg 0xC00040] q0 = true) (e0 : Rest q0 w v') : Rest q0 (World.setPort w h p st) v' := by
  refine Rest.trans (Rest.mono (p := [.evt, .reg 0x100018, .reg 0xC00040]) ?_ hq) e0
  unfold World.setPort
  try dsimp only
  repeat' first
    | with_reducible exact Rest.refl _ _ | with_reducible assumption | with_reducible refine Rest.wr _ _ _ _ (by decide) ?_
    | with_reducible refine Rest.raise _ _ _ (by decide) ?_ | with_reducible refine Rest.ite ?_ ?_ | dsimp only | split | intro _

theorem World.setGrade_rest {q0 : List Part} {w : World} {v' : World} {h : Half} {n : Nat}
    (hq : partsLe [.evt, .reg 0x100018, .reg 0x400020, .reg 0xE00108] q0 = true) (e0 : Rest q0 w v') : Rest q0 (World.setGrade w h n) v' := by
  refine Rest.trans (Rest.mono (p := [.evt, .reg 0x100018, .reg 0x400020, .reg 0xE00108]) ?_ hq) e0
  unfold World.setGrade
  try dsimp only
  repeat' first
    | with_reducible exact Rest.refl _ _ | with_reducible assumption | with_reducible refine Rest.wr _ _ _ _ (by decide) ?_
    | with_reducible refine Rest.raise _ _ _ (by decide) ?_ | with_reducible refine Rest.ite ?_ ?_ | dsimp only | split | intro _

theorem World.checkBlind_rest {q0 : List Part} {w : World} {v' : World} {h : Half}
    (hq : partsLe [.trk, .reg 0xE00018] q0 = true) (e0 : Rest q0 w v') : Rest q0 (World.checkBlind w h) v' := by
  refine Rest.trans (Rest.mono (p := [.trk, .reg 0xE00018]) ?_ hq) e0
  unfold World.checkBlind
  try dsimp only
  repeat' first
    | with_reducible exact Rest.refl _ _ | with_reducible assumption | with_reducible refine Rest.wr _ _ _ _ (by decide) ?_
    | with_reducible refine Rest.when ?_ ?_ | with_reducible refine Rest.ite ?_ ?_ | with_reducible refine Rest.set_trk (by decide) ?_ _ | dsimp only
    | split | intro _

theorem World.evalGrade_rest {q0 : List Part} {w : World} {v' : World} {h : Half}
    (hq : partsLe [.evt, .grd, .trk, .reg 0x100018, .reg 0x400020, .reg 0xE00018, .reg 0xE00108] q0 = true) (e0 : Rest q0 w v') : Rest q0 (World.evalGrade w h) v' := by
  refine Rest.trans (Rest.mono (p := [.evt, .grd, .trk, .reg 0x100018, .reg 0x400020, .reg 0xE00018, .reg 0xE00108]) ?_ hq) e0
  unfold World.evalGrade
  try dsimp only
  repeat' first
    | with_reducible exact Rest.refl _ _ | with_reducible assumption | with_reducible refine Rest.when ?_ ?_
    | with_reducible refine World.checkBlind_rest (by decide) ?_ | with_reducible refine World.setGrade_rest (by decide) ?_
    | with_reducible refine World.updGrind_rest (by decide) ?_ | with_reducible refine Rest.ite ?_ ?_ | dsimp only | split | intro _

theorem World.poseTrust_rest {q0 : List Part} {w : World} {v' : World} {h : Half} {ok : Bool}
    (hq : partsLe [.evt, .grd, .trk, .reg 0x100018, .reg 0x400020, .reg 0xE00018, .reg 0xE00108] q0 = true) (e0 : Rest q0 w v') : Rest q0 (World.poseTrust w h ok) v' := by
  refine Rest.trans (Rest.mono (p := [.evt, .grd, .trk, .reg 0x100018, .reg 0x400020, .reg 0xE00018, .reg 0xE00108]) ?_ hq) e0
  unfold World.poseTrust
  try dsimp only
  repeat' first
    | with_reducible exact Rest.refl _ _ | with_reducible assumption | with_reducible refine Rest.wr _ _ _ _ (by decide) ?_
    | with_reducible refine World.evalGrade_rest (by decide) ?_ | with_reducible refine Rest.ite ?_ ?_ | dsimp only | split | intro _

theorem World.abandon_rest {q0 : List Part} {w : World} {v' : World} {h : Half} {tg : Nat}
    (hq : partsLe [.evt, .grd, .reg 0x100018, .reg 0xE00120] q0 = true) (e0 : Rest q0 w v') : Rest q0 (World.abandon w h tg) v' := by
  refine Rest.trans (Rest.mono (p := [.evt, .grd, .reg 0x100018, .reg 0xE00120]) ?_ hq) e0
  unfold World.abandon
  try dsimp only
  repeat' first
    | with_reducible exact Rest.refl _ _ | with_reducible assumption | with_reducible refine Rest.bump _ _ _ (by decide) ?_
    | with_reducible refine Rest.raise _ _ _ (by decide) ?_ | with_reducible refine World.updGrind_rest (by decide) ?_
    | with_reducible refine Rest.ite ?_ ?_ | dsimp only | split | intro _

theorem World.grindStep_rest {q0 : List Part} {w : World} {v' : World} {h : Half} {t : Nat}
    (hq : partsLe [.grd, .reg 0xE00120] q0 = true) (e0 : Rest q0 w v') : Rest q0 (World.grindStep w h t) v' := by
  refine Rest.trans (Rest.mono (p := [.grd, .reg 0xE00120]) ?_ hq) e0
  unfold World.grindStep
  try dsimp only
  repeat' first
    | with_reducible exact Rest.refl _ _ | with_reducible assumption | with_reducible refine Rest.bump _ _ _ (by decide) ?_
    | with_reducible refine Rest.forAll ?_ ?_ | with_reducible refine World.updGrind_rest (by decide) ?_ | with_reducible refine Rest.ite ?_ ?_
    | dsimp only | split | intro _

theorem World.ageLate_rest {q0 : List Part} {w : World} {v' : World} {h : Half}
    (hq : partsLe [.grd, .reg 0xD00038] q0 = true) (e0 : Rest q0 w v') : Rest q0 (World.ageLate w h) v' := by
  refine Rest.trans (Rest.mono (p := [.grd, .reg 0xD00038]) ?_ hq) e0
  unfold World.ageLate
  try dsimp only
  repeat' first
    | with_reducible exact Rest.refl _ _ | with_reducible assumption | with_reducible refine Rest.bump _ _ _ (by decide) ?_
    | with_reducible refine Rest.forAll ?_ ?_ | with_reducible refine World.updGrind_rest (by decide) ?_ | with_reducible refine Rest.ite ?_ ?_
    | dsimp only | split | intro _

theorem World.putGrid_rest {q0 : List Part} {w : World} {v' : World} {h : Half} {grid : Memory} {profs : List (List Nat)}
    (hq : partsLe [.dram, .grd, .reg 0xE00110] q0 = true) (e0 : Rest q0 w v') : Rest q0 (World.putGrid w h grid profs) v' := by
  refine Rest.trans (Rest.mono (p := [.dram, .grd, .reg 0xE00110]) ?_ hq) e0
  unfold World.putGrid
  try dsimp only
  repeat' first
    | with_reducible exact Rest.refl _ _ | with_reducible assumption | with_reducible refine Rest.wr _ _ _ _ (by decide) ?_
    | with_reducible refine Rest.foldl ?_ ?_ | with_reducible refine World.updGrind_rest (by decide) ?_ | with_reducible refine Rest.ite ?_ ?_
    | with_reducible refine Rest.set_dram (by decide) ?_ _ | dsimp only | split | intro _

theorem World.setPq_rest {q0 : List Part} {w : World} {v' : World} {h : Half} {p q : Nat}
    (hq : partsLe [.evt, .reg 0x100018, .reg 0xE00200] q0 = true) (e0 : Rest q0 w v') : Rest q0 (World.setPq w h p q) v' := by
  refine Rest.trans (Rest.mono (p := [.evt, .reg 0x100018, .reg 0xE00200]) ?_ hq) e0
  unfold World.setPq
  try dsimp only
  repeat' first
    | with_reducible exact Rest.refl _ _ | with_reducible assumption | with_reducible refine Rest.wr _ _ _ _ (by decide) ?_
    | with_reducible refine Rest.raise _ _ _ (by decide) ?_ | with_reducible refine Rest.when ?_ ?_ | with_reducible refine Rest.ite ?_ ?_
    | dsimp only | split | intro _

theorem World.planeSeen_rest {q0 : List Part} {w : World} {v' : World} {h : Half} {miss : Bool}
    (hq : partsLe [.evt, .grd, .reg 0x100018, .reg 0xE00108, .reg 0xE00120] q0 = true) (e0 : Rest q0 w v') : Rest q0 (World.planeSeen w h miss) v' := by
  refine Rest.trans (Rest.mono (p := [.evt, .grd, .reg 0x100018, .reg 0xE00108, .reg 0xE00120]) ?_ hq) e0
  unfold World.planeSeen
  try dsimp only
  repeat' first
    | with_reducible exact Rest.refl _ _ | with_reducible assumption | with_reducible refine Rest.wr _ _ _ _ (by decide) ?_
    | with_reducible refine Rest.bump _ _ _ (by decide) ?_ | with_reducible refine Rest.raise _ _ _ (by decide) ?_
    | with_reducible refine Rest.when ?_ ?_ | with_reducible refine World.updGrind_rest (by decide) ?_ | with_reducible refine Rest.ite ?_ ?_
    | dsimp only | split | intro _

theorem World.knockPipes_rest {q0 : List Part} {w : World} {v' : World} {h : Half} {mask : Nat}
    (hq : partsLe [.evt, .reg 0x100018, .reg 0xC00018] q0 = true) (e0 : Rest q0 w v') : Rest q0 (World.knockPipes w h mask) v' := by
  refine Rest.trans (Rest.mono (p := [.evt, .reg 0x100018, .reg 0xC00018]) ?_ hq) e0
  unfold World.knockPipes
  try dsimp only
  repeat' first
    | with_reducible exact Rest.refl _ _ | with_reducible assumption | with_reducible refine Rest.wr _ _ _ _ (by decide) ?_
    | with_reducible refine Rest.raise _ _ _ (by decide) ?_ | with_reducible refine Rest.forAll ?_ ?_ | with_reducible refine Rest.ite ?_ ?_
    | dsimp only | split | intro _

theorem World.knockJobs_rest {q0 : List Part} {w : World} {v' : World} {h : Half} {mask : Nat} {jobs : List Nat}
    (hq : partsLe [.evt, .grd, .reg 0x100018, .reg 0xD00038, .reg 0xE00120] q0 = true) (e0 : Rest q0 w v') : Rest q0 (World.knockJobs w h mask jobs) v' := by
  refine Rest.trans (Rest.mono (p := [.evt, .grd, .reg 0x100018, .reg 0xD00038, .reg 0xE00120]) ?_ hq) e0
  unfold World.knockJobs
  try dsimp only
  repeat' first
    | with_reducible exact Rest.refl _ _ | with_reducible assumption | with_reducible refine Rest.wr _ _ _ _ (by decide) ?_
    | with_reducible refine Rest.forAll ?_ ?_ | with_reducible refine World.abandon_rest (by decide) ?_
    | with_reducible refine World.updGrind_rest (by decide) ?_ | with_reducible refine Rest.ite ?_ ?_ | dsimp only | split | intro _

theorem World.updGnss_rest {q0 : List Part} {w : World} {v' : World} {h : Half} {f : Gnss → Gnss}
    (hq : partsLe [.gns] q0 = true) (e0 : Rest q0 w v') : Rest q0 (World.updGnss w h f) v' := by
  refine Rest.trans (Rest.mono (p := [.gns]) ?_ hq) e0
  unfold World.updGnss
  try dsimp only
  repeat' first
    | with_reducible exact Rest.refl _ _ | with_reducible assumption | with_reducible refine Rest.ite ?_ ?_
    | with_reducible refine Rest.set_gns (by decide) ?_ _ | dsimp only | split | intro _

theorem World.updChan_rest {q0 : List Part} {w : World} {v' : World} {h : Half} {c : Nat} {f : Track1 → Track1}
    (hq : partsLe [.gns] q0 = true) (e0 : Rest q0 w v') : Rest q0 (World.updChan w h c f) v' := by
  refine Rest.trans (Rest.mono (p := [.gns]) ?_ hq) e0
  unfold World.updChan
  try dsimp only
  repeat' first
    | with_reducible exact Rest.refl _ _ | with_reducible assumption | with_reducible refine World.updGnss_rest (by decide) ?_
    | with_reducible refine Rest.ite ?_ ?_ | dsimp only | split | intro _

theorem World.countRun_rest {q0 : List Part} {w : World} {v' : World} {h : Half}
    (hq : partsLe [.reg 0xB00018] q0 = true) (e0 : Rest q0 w v') : Rest q0 (World.countRun w h) v' := by
  refine Rest.trans (Rest.mono (p := [.reg 0xB00018]) ?_ hq) e0
  unfold World.countRun
  try dsimp only
  repeat' first
    | with_reducible exact Rest.refl _ _ | with_reducible assumption | with_reducible refine Rest.wr _ _ _ _ (by decide) ?_
    | with_reducible refine Rest.ite ?_ ?_ | dsimp only | split | intro _

theorem World.startChan_rest {q0 : List Part} {w : World} {v' : World} {h : Half} {c : Nat} {carr : Int} {code : Nat} {handoff : Bool}
    (hq : partsLe [.gns, .reg 0xB00018, .reg 0xB00114] q0 = true) (e0 : Rest q0 w v') : Rest q0 (World.startChan w h c carr code handoff) v' := by
  refine Rest.trans (Rest.mono (p := [.gns, .reg 0xB00018, .reg 0xB00114]) ?_ hq) e0
  unfold World.startChan
  try dsimp only
  repeat' first
    | with_reducible exact Rest.refl _ _ | with_reducible assumption | with_reducible refine Rest.wr _ _ _ _ (by decide) ?_
    | with_reducible refine World.countRun_rest (by decide) ?_ | with_reducible refine World.updChan_rest (by decide) ?_
    | with_reducible refine Rest.ite ?_ ?_ | dsimp only | split | intro _

theorem World.stopChan_rest {q0 : List Part} {w : World} {v' : World} {h : Half} {c st : Nat}
    (hq : partsLe [.reg 0xB00018, .reg 0xB00114] q0 = true) (e0 : Rest q0 w v') : Rest q0 (World.stopChan w h c st) v' := by
  refine Rest.trans (Rest.mono (p := [.reg 0xB00018, .reg 0xB00114]) ?_ hq) e0
  unfold World.stopChan
  try dsimp only
  repeat' first
    | with_reducible exact Rest.refl _ _ | with_reducible assumption | with_reducible refine Rest.wr _ _ _ _ (by decide) ?_
    | with_reducible refine World.countRun_rest (by decide) ?_ | with_reducible refine Rest.ite ?_ ?_ | dsimp only | split | intro _

theorem World.knockChan_rest {q0 : List Part} {w : World} {v' : World} {h : Half} {c : Nat}
    (hq : partsLe [.reg 0xB00018, .reg 0xB00114] q0 = true) (e0 : Rest q0 w v') : Rest q0 (World.knockChan w h c) v' := by
  refine Rest.trans (Rest.mono (p := [.reg 0xB00018, .reg 0xB00114]) ?_ hq) e0
  unfold World.knockChan
  try dsimp only
  repeat' first
    | with_reducible exact Rest.refl _ _ | with_reducible assumption | with_reducible refine Rest.when ?_ ?_
    | with_reducible refine World.stopChan_rest (by decide) ?_ | with_reducible refine Rest.ite ?_ ?_ | dsimp only | split | intro _

theorem World.putDump_rest {q0 : List Part} {w : World} {v' : World} {h : Half} {c : Nat} {iq : List Int} {noise flags : Nat}
    (hq : partsLe [.dram, .reg 0xB00018, .reg 0xB00064, .reg 0xB00114] q0 = true) (e0 : Rest q0 w v') : Rest q0 (World.putDump w h c iq noise flags) v' := by
  refine Rest.trans (Rest.mono (p := [.dram, .reg 0xB00018, .reg 0xB00064, .reg 0xB00114]) ?_ hq) e0
  unfold World.putDump
  try dsimp only
  repeat' first
    | with_reducible exact Rest.refl _ _ | with_reducible assumption | with_reducible refine Rest.wr _ _ _ _ (by decide) ?_
    | with_reducible refine Rest.putMem _ _ _ _ (by decide) ?_ | with_reducible refine Rest.ite ?_ ?_ | dsimp only | split | intro _

theorem World.lateUpd_rest {q0 : List Part} {w : World} {v' : World} {h : Half} {c : Nat}
    (hq : partsLe [.evt, .gns, .reg 0x100018, .reg 0xB000D0] q0 = true) (e0 : Rest q0 w v') : Rest q0 (World.lateUpd w h c) v' := by
  refine Rest.trans (Rest.mono (p := [.evt, .gns, .reg 0x100018, .reg 0xB000D0]) ?_ hq) e0
  unfold World.lateUpd
  try dsimp only
  repeat' first
    | with_reducible exact Rest.refl _ _ | with_reducible assumption | with_reducible refine Rest.bump _ _ _ (by decide) ?_
    | with_reducible refine Rest.raise _ _ _ (by decide) ?_ | with_reducible refine Rest.when ?_ ?_
    | with_reducible refine World.updChan_rest (by decide) ?_ | with_reducible refine Rest.ite ?_ ?_ | dsimp only | split | intro _

theorem World.acqDone_rest {q0 : List Part} {w : World} {v' : World} {h : Half} {e : Nat} {knocked : Bool}
    (hq : partsLe [.evt, .reg 0x100018, .reg 0xB00148] q0 = true) (e0 : Rest q0 w v') : Rest q0 (World.acqDone w h e knocked) v' := by
  refine Rest.trans (Rest.mono (p := [.evt, .reg 0x100018, .reg 0xB00148]) ?_ hq) e0
  unfold World.acqDone
  try dsimp only
  repeat' first
    | with_reducible exact Rest.refl _ _ | with_reducible assumption | with_reducible refine Rest.wr _ _ _ _ (by decide) ?_
    | with_reducible refine Rest.raise _ _ _ (by decide) ?_ | with_reducible refine Rest.ite ?_ ?_ | dsimp only | split | intro _

theorem World.knockAcq_rest {q0 : List Part} {w : World} {v' : World} {h : Half} {e : Nat}
    (hq : partsLe [.evt, .dram, .reg 0x100018, .reg 0xB00148] q0 = true) (e0 : Rest q0 w v') : Rest q0 (World.knockAcq w h e) v' := by
  refine Rest.trans (Rest.mono (p := [.evt, .dram, .reg 0x100018, .reg 0xB00148]) ?_ hq) e0
  unfold World.knockAcq
  try dsimp only
  repeat' first
    | with_reducible exact Rest.refl _ _ | with_reducible assumption | with_reducible refine Rest.forAll ?_ ?_
    | with_reducible refine Rest.putMem _ _ _ _ (by decide) ?_ | with_reducible refine World.acqDone_rest (by decide) ?_
    | with_reducible refine Rest.ite ?_ ?_ | dsimp only | split | intro _

theorem World.exclude_rest {q0 : List Part} {w : World} {v' : World} {h : Half} {key reason ch : Nat}
    (hq : partsLe [.evt, .gns, .reg 0x100018] q0 = true) (e0 : Rest q0 w v') : Rest q0 (World.exclude w h key reason ch) v' := by
  refine Rest.trans (Rest.mono (p := [.evt, .gns, .reg 0x100018]) ?_ hq) e0
  unfold World.exclude
  try dsimp only
  repeat' first
    | with_reducible exact Rest.refl _ _ | with_reducible assumption | with_reducible refine Rest.raise _ _ _ (by decide) ?_
    | with_reducible refine World.updGnss_rest (by decide) ?_ | with_reducible refine Rest.ite ?_ ?_ | dsimp only | split | intro _

theorem World.missEpoch_rest {q0 : List Part} {w : World} {v' : World} {h : Half}
    (hq : partsLe [.evt, .reg 0x100018, .reg 0xB000D0] q0 = true) (e0 : Rest q0 w v') : Rest q0 (World.missEpoch w h) v' := by
  refine Rest.trans (Rest.mono (p := [.evt, .reg 0x100018, .reg 0xB000D0]) ?_ hq) e0
  unfold World.missEpoch
  try dsimp only
  repeat' first
    | with_reducible exact Rest.refl _ _ | with_reducible assumption | with_reducible refine Rest.bump _ _ _ (by decide) ?_
    | with_reducible refine Rest.raise _ _ _ (by decide) ?_ | with_reducible refine Rest.ite ?_ ?_ | dsimp only | split | intro _

theorem World.corrEval_rest {q0 : List Part} {w : World} {v' : World} {h : Half}
    (hq : partsLe [.evt, .gns, .reg 0x100018, .reg 0xB0008C] q0 = true) (e0 : Rest q0 w v') : Rest q0 (World.corrEval w h) v' := by
  refine Rest.trans (Rest.mono (p := [.evt, .gns, .reg 0x100018, .reg 0xB0008C]) ?_ hq) e0
  unfold World.corrEval
  try dsimp only
  repeat' first
    | with_reducible exact Rest.refl _ _ | with_reducible assumption | with_reducible refine Rest.wr _ _ _ _ (by decide) ?_
    | with_reducible refine Rest.raise _ _ _ (by decide) ?_ | with_reducible refine Rest.when ?_ ?_ | with_reducible refine Rest.foldl ?_ ?_
    | with_reducible refine World.updGnss_rest (by decide) ?_ | with_reducible refine Rest.ite ?_ ?_ | dsimp only | split | intro _

theorem World.newStation_rest {q0 : List Part} {w : World} {v' : World} {h : Half} {st : Nat × Int × Int × Int}
    (hq : partsLe [.evt, .gns, .reg 0x100018, .reg 0xB00018] q0 = true) (e0 : Rest q0 w v') : Rest q0 (World.newStation w h st) v' := by
  refine Rest.trans (Rest.mono (p := [.evt, .gns, .reg 0x100018, .reg 0xB00018]) ?_ hq) e0
  unfold World.newStation
  try dsimp only
  repeat' first
    | with_reducible exact Rest.refl _ _ | with_reducible assumption | with_reducible refine Rest.wr _ _ _ _ (by decide) ?_
    | with_reducible refine Rest.raise _ _ _ (by decide) ?_ | with_reducible refine Rest.when ?_ ?_
    | with_reducible refine World.updGnss_rest (by decide) ?_ | with_reducible refine Rest.ite ?_ ?_ | dsimp only | split | intro _

theorem World.takeFrame_rest {q0 : List Part} {w : World} {v' : World} {h : Half} {k : Nat} {bs : List Byte}
    (hq : partsLe [.evt, .gns, .reg 0x100018, .reg 0xB00018, .reg 0xB0008C] q0 = true) (e0 : Rest q0 w v') : Rest q0 (World.takeFrame w h k bs) v' := by
  refine Rest.trans (Rest.mono (p := [.evt, .gns, .reg 0x100018, .reg 0xB00018, .reg 0xB0008C]) ?_ hq) e0
  unfold World.takeFrame
  try dsimp only
  repeat' first
    | with_reducible exact Rest.refl _ _ | with_reducible assumption | with_reducible refine Rest.when ?_ ?_
    | with_reducible refine World.corrEval_rest (by decide) ?_ | with_reducible refine World.newStation_rest (by decide) ?_
    | with_reducible refine World.updGnss_rest (by decide) ?_ | with_reducible refine Rest.ite ?_ ?_ | dsimp only | split | intro _

theorem World.setEngines_rest {q0 : List Part} {w : World} {v' : World} {h : Half} {pos hdg : Bool}
    (hq : partsLe [.evt, .reg 0x100018, .reg 0xB00018] q0 = true) (e0 : Rest q0 w v') : Rest q0 (World.setEngines w h pos hdg) v' := by
  refine Rest.trans (Rest.mono (p := [.evt, .reg 0x100018, .reg 0xB00018]) ?_ hq) e0
  unfold World.setEngines
  try dsimp only
  repeat' first
    | with_reducible exact Rest.refl _ _ | with_reducible assumption | with_reducible refine Rest.wr _ _ _ _ (by decide) ?_
    | with_reducible refine Rest.raise _ _ _ (by decide) ?_ | with_reducible refine Rest.when ?_ ?_ | with_reducible refine Rest.ite ?_ ?_
    | dsimp only | split | intro _

theorem World.engines_rest {q0 : List Part} {w : World} {v' : World} {own : Own}
    (hq : partsLe [.evt, .reg 0x100018, .reg 0xB00018] q0 = true) (e0 : Rest q0 w v') : Rest q0 (World.engines w own) v' := by
  refine Rest.trans (Rest.mono (p := [.evt, .reg 0x100018, .reg 0xB00018]) ?_ hq) e0
  unfold World.engines
  try dsimp only
  repeat' first
    | with_reducible exact Rest.refl _ _ | with_reducible assumption | with_reducible refine Rest.wr _ _ _ _ (by decide) ?_
    | with_reducible refine World.setEngines_rest (by decide) ?_ | with_reducible refine Rest.ite ?_ ?_ | dsimp only | split | intro _

theorem World.setQ_rest {q0 : List Part} {w : World} {v' : World} {h : Half} {q : Nat}
    (hq : partsLe [.evt, .gns, .reg 0x100018, .reg 0xB00018] q0 = true) (e0 : Rest q0 w v') : Rest q0 (World.setQ w h q) v' := by
  refine Rest.trans (Rest.mono (p := [.evt, .gns, .reg 0x100018, .reg 0xB00018]) ?_ hq) e0
  unfold World.setQ
  try dsimp only
  repeat' first
    | with_reducible exact Rest.refl _ _ | with_reducible assumption | with_reducible refine Rest.wr _ _ _ _ (by decide) ?_
    | with_reducible refine Rest.raise _ _ _ (by decide) ?_ | with_reducible refine Rest.when ?_ ?_
    | with_reducible refine World.updGnss_rest (by decide) ?_ | with_reducible refine Rest.ite ?_ ?_ | dsimp only | split | intro _

theorem World.showSol_rest {q0 : List Part} {w : World} {v' : World} {h : Half} {x : Sol}
    (hq : partsLe [.reg 0xB00018, .reg 0xB000A0, .reg 0xB000A4, .reg 0xB000A8, .reg 0xB000AC, .reg 0xB000B0] q0 = true) (e0 : Rest q0 w v') : Rest q0 (World.showSol w h x) v' := by
  refine Rest.trans (Rest.mono (p := [.reg 0xB00018, .reg 0xB000A0, .reg 0xB000A4, .reg 0xB000A8, .reg 0xB000AC, .reg 0xB000B0]) ?_ hq) e0
  unfold World.showSol
  try dsimp only
  repeat' first
    | with_reducible exact Rest.refl _ _ | with_reducible assumption | with_reducible refine Rest.wr _ _ _ _ (by decide) ?_
    | with_reducible refine Rest.wrI _ _ _ _ (by decide) ?_ | with_reducible refine Rest.ite ?_ ?_ | dsimp only | split | intro _

theorem World.judgeTrust_rest {q0 : List Part} {w : World} {v' : World} {h : Half} {p : Pose}
    (hq : partsLe [.evt, .grd, .trk, .reg 0x100018, .reg 0x400020, .reg 0xB00018, .reg 0xE00018, .reg 0xE00108] q0 = true) (e0 : Rest q0 w v') : Rest q0 (World.judgeTrust w h p) v' := by
  refine Rest.trans (Rest.mono (p := [.evt, .grd, .trk, .reg 0x100018, .reg 0x400020, .reg 0xB00018, .reg 0xE00018, .reg 0xE00108]) ?_ hq) e0
  unfold World.judgeTrust
  try dsimp only
  repeat' first
    | with_reducible exact Rest.refl _ _ | with_reducible assumption | with_reducible refine Rest.wr _ _ _ _ (by decide) ?_
    | with_reducible refine Rest.raise _ _ _ (by decide) ?_ | with_reducible refine Rest.when ?_ ?_
    | with_reducible refine World.poseTrust_rest (by decide) ?_ | with_reducible refine Rest.ite ?_ ?_ | dsimp only | split | intro _

theorem World.storeAiding_rest {q0 : List Part} {w : World} {v' : World} {h : Half}
    (hq : partsLe [.gns] q0 = true) (e0 : Rest q0 w v') : Rest q0 (World.storeAiding w h) v' := by
  refine Rest.trans (Rest.mono (p := [.gns]) ?_ hq) e0
  unfold World.storeAiding
  try dsimp only
  repeat' first
    | with_reducible exact Rest.refl _ _ | with_reducible assumption | with_reducible refine World.updGnss_rest (by decide) ?_
    | with_reducible refine Rest.ite ?_ ?_ | dsimp only | split | intro _

theorem World.gnssOn_rest {q0 : List Part} {w : World} {v' : World} {h : Half}
    (hq : partsLe [.gns] q0 = true) (e0 : Rest q0 w v') : Rest q0 (World.gnssOn w h) v' := by
  refine Rest.trans (Rest.mono (p := [.gns]) ?_ hq) e0
  unfold World.gnssOn
  try dsimp only
  repeat' first
    | with_reducible exact Rest.refl _ _ | with_reducible assumption | with_reducible refine World.updGnss_rest (by decide) ?_
    | with_reducible refine Rest.ite ?_ ?_ | dsimp only | split | intro _

theorem World.gnssStep_rest {q0 : List Part} {w : World} {v' : World} {h : Half}
    (hq : partsLe [.evt, .reg 0x100018, .reg 0xB000D0] q0 = true) (e0 : Rest q0 w v') : Rest q0 (World.gnssStep w h) v' := by
  refine Rest.trans (Rest.mono (p := [.evt, .reg 0x100018, .reg 0xB000D0]) ?_ hq) e0
  unfold World.gnssStep
  try dsimp only
  repeat' first
    | with_reducible exact Rest.refl _ _ | with_reducible assumption | with_reducible refine Rest.when ?_ ?_
    | with_reducible refine World.missEpoch_rest (by decide) ?_ | with_reducible refine Rest.ite ?_ ?_ | dsimp only | split | intro _

theorem World.updCan_rest {q0 : List Part} {w : World} {v' : World} {n : Nat} {f : CanCh → CanCh}
    (hq : partsLe [.can] q0 = true) (e0 : Rest q0 w v') : Rest q0 (World.updCan w n f) v' := by
  refine Rest.trans (Rest.mono (p := [.can]) ?_ hq) e0
  unfold World.updCan
  try dsimp only
  repeat' first
    | with_reducible exact Rest.refl _ _ | with_reducible assumption | with_reducible refine Rest.ite ?_ ?_
    | with_reducible refine Rest.set_can (by decide) ?_ _ | dsimp only | split | intro _

theorem World.canBus_rest {q0 : List Part} {w : World} {v' : World} {n cause : Nat}
    (hq : partsLe [.evt, .reg 0x100018] q0 = true) (e0 : Rest q0 w v') : Rest q0 (World.canBus w n cause) v' := by
  refine Rest.trans (Rest.mono (p := [.evt, .reg 0x100018]) ?_ hq) e0
  unfold World.canBus
  try dsimp only
  repeat' first
    | with_reducible exact Rest.refl _ _ | with_reducible assumption | with_reducible refine Rest.raiseBoth _ _ (by decide) ?_
    | with_reducible refine Rest.ite ?_ ?_ | dsimp only | split | intro _

theorem World.setTb_rest {q0 : List Part} {w : World} {v' : World} {n b st : Nat}
    (hq : partsLe [.reg 0x900044] q0 = true) (e0 : Rest q0 w v') : Rest q0 (World.setTb w n b st) v' := by
  refine Rest.trans (Rest.mono (p := [.reg 0x900044]) ?_ hq) e0
  unfold World.setTb
  try dsimp only
  repeat' first
    | with_reducible exact Rest.refl _ _ | with_reducible assumption | with_reducible refine Rest.wr _ _ _ _ (by decide) ?_
    | with_reducible refine Rest.ite ?_ ?_ | dsimp only | split | intro _

theorem World.abortAll_rest {q0 : List Part} {w : World} {v' : World} {n : Nat} {act : Bool}
    (hq : partsLe [.reg 0x900044] q0 = true) (e0 : Rest q0 w v') : Rest q0 (World.abortAll w n act) v' := by
  refine Rest.trans (Rest.mono (p := [.reg 0x900044]) ?_ hq) e0
  unfold World.abortAll
  try dsimp only
  repeat' first
    | with_reducible exact Rest.refl _ _ | with_reducible assumption | with_reducible refine Rest.forAll ?_ ?_
    | with_reducible refine World.setTb_rest (by decide) ?_ | with_reducible refine Rest.ite ?_ ?_ | dsimp only | split | intro _

theorem World.greenCan_rest {q0 : List Part} {w : World} {v' : World} {n : Nat}
    (hq : partsLe [.can, .reg 0x900030, .reg 0x900044] q0 = true) (e0 : Rest q0 w v') : Rest q0 (World.greenCan w n) v' := by
  refine Rest.trans (Rest.mono (p := [.can, .reg 0x900030, .reg 0x900044]) ?_ hq) e0
  unfold World.greenCan
  try dsimp only
  repeat' first
    | with_reducible exact Rest.refl _ _ | with_reducible assumption | with_reducible refine World.canWr_rest _ _ _ (by decide) ?_
    | with_reducible refine World.abortAll_rest (by decide) ?_ | with_reducible refine World.updCan_rest (by decide) ?_
    | with_reducible refine Rest.ite ?_ ?_ | dsimp only | split | intro _

theorem World.canLeaveGreen_rest {q0 : List Part} {w : World} {v' : World} {n : Nat}
    (hq : partsLe [.reg 0x900030] q0 = true) (e0 : Rest q0 w v') : Rest q0 (World.canLeaveGreen w n) v' := by
  refine Rest.trans (Rest.mono (p := [.reg 0x900030]) ?_ hq) e0
  unfold World.canLeaveGreen
  try dsimp only
  repeat' first
    | with_reducible exact Rest.refl _ _ | with_reducible assumption | with_reducible refine World.canWr_rest _ _ _ (by decide) ?_
    | with_reducible refine Rest.ite ?_ ?_ | dsimp only | split | intro _

theorem World.setCanMode_rest {q0 : List Part} {w : World} {v' : World} {n m : Nat}
    (hq : partsLe [.reg 0x900020, .reg 0x900030, .reg 0x900044] q0 = true) (e0 : Rest q0 w v') : Rest q0 (World.setCanMode w n m) v' := by
  refine Rest.trans (Rest.mono (p := [.reg 0x900020, .reg 0x900030, .reg 0x900044]) ?_ hq) e0
  unfold World.setCanMode
  try dsimp only
  repeat' first
    | with_reducible exact Rest.refl _ _ | with_reducible assumption | with_reducible refine World.canWr_rest _ _ _ (by decide) ?_
    | with_reducible refine World.abortAll_rest (by decide) ?_ | with_reducible refine World.canLeaveGreen_rest (by decide) ?_
    | with_reducible refine Rest.ite ?_ ?_ | dsimp only | split | intro _

theorem World.canLoad_rest {q0 : List Part} {w : World} {v' : World} {n : Nat}
    (hq : partsLe [.can, .reg 0x900020, .reg 0x900024, .reg 0x900028, .reg 0x90002C, .reg 0x900030, .reg 0x900044] q0 = true) (e0 : Rest q0 w v') : Rest q0 (World.canLoad w n) v' := by
  refine Rest.trans (Rest.mono (p := [.can, .reg 0x900020, .reg 0x900024, .reg 0x900028, .reg 0x90002C, .reg 0x900030, .reg 0x900044]) ?_ hq) e0
  unfold World.canLoad
  try dsimp only
  simp only [List.foldl_cons, List.foldl_nil]
  repeat' first
    | with_reducible exact Rest.refl _ _ | with_reducible assumption | with_reducible refine World.canWr_rest _ _ _ (by decide) ?_
    | with_reducible refine Rest.foldl ?_ ?_ | with_reducible refine World.canLeaveGreen_rest (by decide) ?_
    | with_reducible refine World.setCanMode_rest (by decide) ?_ | with_reducible refine World.updCan_rest (by decide) ?_
    | with_reducible refine Rest.ite ?_ ?_ | dsimp only | split | intro _

theorem World.canOnBus_rest {q0 : List Part} {w : World} {v' : World} {n : Nat}
    (hq : partsLe [.reg 0x900030] q0 = true) (e0 : Rest q0 w v') : Rest q0 (World.canOnBus w n) v' := by
  refine Rest.trans (Rest.mono (p := [.reg 0x900030]) ?_ hq) e0
  unfold World.canOnBus
  try dsimp only
  repeat' first
    | with_reducible exact Rest.refl _ _ | with_reducible assumption | with_reducible refine World.canWr_rest _ _ _ (by decide) ?_
    | with_reducible refine Rest.ite ?_ ?_ | dsimp only | split | intro _

theorem World.canInit_rest {q0 : List Part} {w : World} {v' : World} 
    (hq : partsLe [.regs] q0 = true) (e0 : Rest q0 w v') : Rest q0 (World.canInit w ) v' := by
  refine Rest.trans (Rest.mono (p := [.regs]) ?_ hq) e0
  unfold World.canInit
  try dsimp only
  repeat' first
    | with_reducible exact Rest.refl _ _ | with_reducible assumption | with_reducible refine Rest.wrBoth _ _ _ (by decide) ?_
    | with_reducible refine Rest.forAll ?_ ?_ | with_reducible refine World.init_rest (by decide) ?_ | with_reducible refine Rest.ite ?_ ?_
    | dsimp only | split | intro _

theorem World.canLeaveService_rest {q0 : List Part} {w : World} {v' : World} 
    (hq : partsLe [.reg 0x900020, .reg 0x900030, .reg 0x900044] q0 = true) (e0 : Rest q0 w v') : Rest q0 (World.canLeaveService w ) v' := by
  refine Rest.trans (Rest.mono (p := [.reg 0x900020, .reg 0x900030, .reg 0x900044]) ?_ hq) e0
  unfold World.canLeaveService
  try dsimp only
  repeat' first
    | with_reducible exact Rest.refl _ _ | with_reducible assumption | with_reducible refine Rest.forAll ?_ ?_
    | with_reducible refine World.setCanMode_rest (by decide) ?_ | with_reducible refine Rest.ite ?_ ?_ | dsimp only | split | intro _

theorem World.knockCan_rest {q0 : List Part} {w : World} {v' : World} {n : Nat}
    (hq : partsLe [.can, .reg 0x900030, .reg 0x900044] q0 = true) (e0 : Rest q0 w v') : Rest q0 (World.knockCan w n) v' := by
  refine Rest.trans (Rest.mono (p := [.can, .reg 0x900030, .reg 0x900044]) ?_ hq) e0
  unfold World.knockCan
  try dsimp only
  repeat' first
    | with_reducible exact Rest.refl _ _ | with_reducible assumption | with_reducible refine World.canWr_rest _ _ _ (by decide) ?_
    | with_reducible refine World.abortAll_rest (by decide) ?_ | with_reducible refine World.updCan_rest (by decide) ?_
    | with_reducible refine Rest.ite ?_ ?_ | dsimp only | split | intro _

theorem World.compose_rest {q0 : List Part} {w : World} {v' : World} {n m : Nat}
    (hq : partsLe [.can] q0 = true) (e0 : Rest q0 w v') : Rest q0 (World.compose w n m).2 v' := by
  refine Rest.trans (Rest.mono (p := [.can]) ?_ hq) e0
  unfold World.compose
  try dsimp only
  repeat' first
    | with_reducible exact Rest.refl _ _ | with_reducible assumption | with_reducible refine Rest.forAll ?_ ?_
    | with_reducible refine Rest.foldl ?_ ?_ | with_reducible refine World.updCan_rest (by decide) ?_ | with_reducible refine Rest.ite ?_ ?_
    | dsimp only | split | intro _

theorem World.loadTb0_rest {q0 : List Part} {w : World} {v' : World} {n m : Nat} {f : CanFrame}
    (hq : partsLe [.can, .reg 0x900044, .reg 0x900100, .reg 0x900104, .reg 0x900108] q0 = true) (e0 : Rest q0 w v') : Rest q0 (World.loadTb0 w n m f) v' := by
  refine Rest.trans (Rest.mono (p := [.can, .reg 0x900044, .reg 0x900100, .reg 0x900104, .reg 0x900108]) ?_ hq) e0
  unfold World.loadTb0
  try dsimp only
  repeat' first
    | with_reducible exact Rest.refl _ _ | with_reducible assumption | with_reducible refine Rest.setReg _ _ _ _ (by decide) ?_
    | with_reducible refine Rest.forAll ?_ ?_ | with_reducible refine World.updCan_rest (by decide) ?_ | with_reducible refine Rest.ite ?_ ?_
    | dsimp only | split | intro _

theorem World.feedTb0_rest {q0 : List Part} {w : World} {v' : World} {n : Nat}
    (hq : partsLe [.can, .reg 0x900044, .reg 0x900100, .reg 0x900104, .reg 0x900108] q0 = true) (e0 : Rest q0 w v') : Rest q0 (World.feedTb0 w n) v' := by
  refine Rest.trans (Rest.mono (p := [.can, .reg 0x900044, .reg 0x900100, .reg 0x900104, .reg 0x900108]) ?_ hq) e0
  unfold World.feedTb0
  try dsimp only
  repeat' first
    | with_reducible exact Rest.refl _ _ | with_reducible assumption | with_reducible refine World.loadTb0_rest (by decide) ?_
    | with_reducible refine World.updCan_rest (by decide) ?_ | with_reducible refine Rest.ite ?_ ?_ | dsimp only | split | intro _

theorem World.setErrc_rest {q0 : List Part} {w : World} {v' : World} {n tec rec_ : Nat}
    (hq : partsLe [.evt, .reg 0x100018, .reg 0x900030, .reg 0x900034] q0 = true) (e0 : Rest q0 w v') : Rest q0 (World.setErrc w n tec rec_) v' := by
  refine Rest.trans (Rest.mono (p := [.evt, .reg 0x100018, .reg 0x900030, .reg 0x900034]) ?_ hq) e0
  unfold World.setErrc
  try dsimp only
  repeat' first
    | with_reducible exact Rest.refl _ _ | with_reducible assumption | with_reducible refine World.canWr_rest _ _ _ (by decide) ?_
    | with_reducible refine World.canBus_rest (by decide) ?_ | with_reducible refine Rest.ite ?_ ?_ | dsimp only | split | intro _

theorem World.txError_rest {q0 : List Part} {w : World} {v' : World} {n b ty fld pos : Nat}
    (hq : partsLe [.evt, .can, .reg 0x100018, .reg 0x900030, .reg 0x900034, .reg 0x900044, .reg 0x900100, .reg 0x900104, .reg 0x900108] q0 = true) (e0 : Rest q0 w v') : Rest q0 (World.txError w n b ty fld pos) v' := by
  refine Rest.trans (Rest.mono (p := [.evt, .can, .reg 0x100018, .reg 0x900030, .reg 0x900034, .reg 0x900044, .reg 0x900100, .reg 0x900104, .reg 0x900108]) ?_ hq) e0
  unfold World.txError
  try dsimp only
  repeat' first
    | with_reducible exact Rest.refl _ _ | with_reducible assumption | with_reducible refine Rest.wr _ _ _ _ (by decide) ?_
    | with_reducible refine World.canWr_rest _ _ _ (by decide) ?_ | with_reducible refine World.feedTb0_rest (by decide) ?_
    | with_reducible refine World.setErrc_rest (by decide) ?_ | with_reducible refine World.setTb_rest (by decide) ?_
    | with_reducible refine World.updCan_rest (by decide) ?_ | with_reducible refine Rest.ite ?_ ?_ | dsimp only | split | intro _

theorem World.clash_rest {q0 : List Part} {w : World} {v' : World} {n kind : Nat} {ide : Bool} {id : Nat}
    (hq : partsLe [.evt, .can, .reg 0x100018, .reg 0x90006C] q0 = true) (e0 : Rest q0 w v') : Rest q0 (World.clash w n kind ide id) v' := by
  refine Rest.trans (Rest.mono (p := [.evt, .can, .reg 0x100018, .reg 0x90006C]) ?_ hq) e0
  unfold World.clash
  try dsimp only
  repeat' first
    | with_reducible exact Rest.refl _ _ | with_reducible assumption | with_reducible refine Rest.setReg _ _ _ _ (by decide) ?_
    | with_reducible refine Rest.raiseBoth _ _ (by decide) ?_ | with_reducible refine World.updCan_rest (by decide) ?_
    | with_reducible refine Rest.ite ?_ ?_ | dsimp only | split | intro _

theorem World.putTb_rest {q0 : List Part} {w : World} {v' : World} {n b : Nat} {f : CanFrame}
    (hq : partsLe [.reg 0x900044, .reg 0x900100, .reg 0x900104, .reg 0x900108] q0 = true) (e0 : Rest q0 w v') : Rest q0 (World.putTb w n b f) v' := by
  refine Rest.trans (Rest.mono (p := [.reg 0x900044, .reg 0x900100, .reg 0x900104, .reg 0x900108]) ?_ hq) e0
  unfold World.putTb
  try dsimp only
  repeat' first
    | with_reducible exact Rest.refl _ _ | with_reducible assumption | with_reducible refine Rest.setReg _ _ _ _ (by decide) ?_
    | with_reducible refine Rest.forAll ?_ ?_ | with_reducible refine Rest.ite ?_ ?_ | dsimp only | split | intro _

theorem World.canDecode_rest {q0 : List Part} {w : World} {v' : World} {srv : Half} {m : Nat} {f : CanFrame}
    (hq : partsLe [.evt, .uin, .reg 0x100018, .reg 0x700020, .reg 0x700024, .reg 0x70002C, .reg 0x700030, .reg 0x700044, .reg 0x701000, .reg 0x701004, .reg 0x900800] q0 = true) (e0 : Rest q0 w v') : Rest q0 (World.canDecode w srv m f) v' := by
  refine Rest.trans (Rest.mono (p := [.evt, .uin, .reg 0x100018, .reg 0x700020, .reg 0x700024, .reg 0x70002C, .reg 0x700030, .reg 0x700044, .reg 0x701000, .reg 0x701004, .reg 0x900800]) ?_ hq) e0
  unfold World.canDecode
  try dsimp only
  repeat' first
    | with_reducible exact Rest.refl _ _ | with_reducible assumption | with_reducible refine Rest.wrBoth _ _ _ (by decide) ?_
    | with_reducible refine Rest.forAll ?_ ?_ | with_reducible refine World.externalWrite_rest (by decide) ?_ | with_reducible refine Rest.ite ?_ ?_
    | dsimp only | split | intro _

theorem World.canQueue_rest {q0 : List Part} {w : World} {v' : World} {n flt stamp : Nat} {self_ : Bool} {f : CanFrame}
    (hq : partsLe [.evt, .can, .reg 0x100018, .reg 0x900060, .reg 0x900068, .reg 0x901000, .reg 0x901004, .reg 0x901008, .reg 0x901010] q0 = true) (e0 : Rest q0 w v') : Rest q0 (World.canQueue w n flt stamp self_ f) v' := by
  refine Rest.trans (Rest.mono (p := [.evt, .can, .reg 0x100018, .reg 0x900060, .reg 0x900068, .reg 0x901000, .reg 0x901004, .reg 0x901008, .reg 0x901010]) ?_ hq) e0
  unfold World.canQueue
  try dsimp only
  repeat' first
    | with_reducible exact Rest.refl _ _ | with_reducible assumption | with_reducible refine World.canWr_rest _ _ _ (by decide) ?_
    | with_reducible refine Rest.bump _ _ _ (by decide) ?_ | with_reducible refine Rest.setReg _ _ _ _ (by decide) ?_
    | with_reducible refine Rest.forAll ?_ ?_ | with_reducible refine World.canBus_rest (by decide) ?_
    | with_reducible refine World.updCan_rest (by decide) ?_ | with_reducible refine Rest.ite ?_ ?_ | dsimp only | split | intro _

theorem World.writeSig_rest {q0 : List Part} {w : World} {v' : World} {sg v : Nat}
    (hq : partsLe [.reg 0x900030, .reg 0x900800] q0 = true) (e0 : Rest q0 w v') : Rest q0 (World.writeSig w sg v) v' := by
  refine Rest.trans (Rest.mono (p := [.reg 0x900030, .reg 0x900800]) ?_ hq) e0
  unfold World.writeSig
  try dsimp only
  repeat' first
    | with_reducible exact Rest.refl _ _ | with_reducible assumption | with_reducible refine Rest.wrBoth _ _ _ (by decide) ?_
    | with_reducible refine World.canLeaveGreen_rest (by decide) ?_ | with_reducible refine Rest.ite ?_ ?_ | dsimp only | split | intro _

end Sys2Proof.Machine
end

