-- ==== Sys2Proof/Laws/RestPlant.lean ====
section
/-!
SUPPORT. What each operation of these units leaves alone.
-/
set_option linter.unreachableTactic false
set_option linter.unusedTactic false

namespace Sys2Proof.Machine

theorem World.updSw_rest {q0 : List Part} {w : World} {v' : World} {n : Nat} {f : Sw → Sw}
    (hq : partsLe [.lsw] q0 = true) (e0 : Rest q0 w v') : Rest q0 (World.updSw w n f) v' := by
  refine Rest.trans (Rest.mono (p := [.lsw]) ?_ hq) e0
  unfold World.updSw
  try dsimp only
  repeat' first
    | with_reducible exact Rest.refl _ _ | with_reducible assumption | with_reducible refine Rest.ite ?_ ?_
    | with_reducible refine Rest.set_lsw (by decide) ?_ _ | dsimp only | split | intro _

theorem World.swGo_rest {q0 : List Part} {w : World} {v' : World} {n st : Nat}
    (hq : partsLe [.lsw, .reg 0x600024] q0 = true) (e0 : Rest q0 w v') : Rest q0 (World.swGo w n st) v' := by
  refine Rest.trans (Rest.mono (p := [.lsw, .reg 0x600024]) ?_ hq) e0
  unfold World.swGo
  try dsimp only
  repeat' first
    | with_reducible exact Rest.refl _ _ | with_reducible assumption | with_reducible refine Rest.wr _ _ _ _ (by decide) ?_
    | with_reducible refine World.updSw_rest (by decide) ?_ | with_reducible refine Rest.ite ?_ ?_ | dsimp only | split | intro _

theorem World.swEvent_rest {q0 : List Part} {w : World} {v' : World} {num n cause : Nat}
    (hq : partsLe [.evt, .reg 0x100018] q0 = true) (e0 : Rest q0 w v') : Rest q0 (World.swEvent w num n cause) v' := by
  refine Rest.trans (Rest.mono (p := [.evt, .reg 0x100018]) ?_ hq) e0
  unfold World.swEvent
  try dsimp only
  repeat' first
    | with_reducible exact Rest.refl _ _ | with_reducible assumption | with_reducible refine Rest.raiseBoth _ _ (by decide) ?_
    | with_reducible refine Rest.ite ?_ ?_ | dsimp only | split | intro _

theorem World.swWait_rest {q0 : List Part} {w : World} {v' : World} {n prof : Nat}
    (hq : partsLe [.lsw, .reg 0x600024] q0 = true) (e0 : Rest q0 w v') : Rest q0 (World.swWait w n prof) v' := by
  refine Rest.trans (Rest.mono (p := [.lsw, .reg 0x600024]) ?_ hq) e0
  unfold World.swWait
  try dsimp only
  repeat' first
    | with_reducible exact Rest.refl _ _ | with_reducible assumption | with_reducible refine Rest.wr _ _ _ _ (by decide) ?_
    | with_reducible refine World.swGo_rest (by decide) ?_ | with_reducible refine Rest.ite ?_ ?_ | dsimp only | split | intro _

theorem World.swOff_rest {q0 : List Part} {w : World} {v' : World} {n : Nat}
    (hq : partsLe [.lsw, .reg 0x600024] q0 = true) (e0 : Rest q0 w v') : Rest q0 (World.swOff w n) v' := by
  refine Rest.trans (Rest.mono (p := [.lsw, .reg 0x600024]) ?_ hq) e0
  unfold World.swOff
  try dsimp only
  repeat' first
    | with_reducible exact Rest.refl _ _ | with_reducible assumption | with_reducible refine Rest.wr _ _ _ _ (by decide) ?_
    | with_reducible refine World.swGo_rest (by decide) ?_ | with_reducible refine World.updSw_rest (by decide) ?_
    | with_reducible refine Rest.ite ?_ ?_ | dsimp only | split | intro _

theorem World.swLockout_rest {q0 : List Part} {w : World} {v' : World} {n : Nat}
    (hq : partsLe [.evt, .lsw, .reg 0x100018, .reg 0x600024] q0 = true) (e0 : Rest q0 w v') : Rest q0 (World.swLockout w n) v' := by
  refine Rest.trans (Rest.mono (p := [.evt, .lsw, .reg 0x100018, .reg 0x600024]) ?_ hq) e0
  unfold World.swLockout
  try dsimp only
  repeat' first
    | with_reducible exact Rest.refl _ _ | with_reducible assumption | with_reducible refine World.swEvent_rest (by decide) ?_
    | with_reducible refine World.swGo_rest (by decide) ?_ | with_reducible refine Rest.ite ?_ ?_ | dsimp only | split | intro _

theorem World.swRetry_rest {q0 : List Part} {w : World} {v' : World} {n : Nat}
    (hq : partsLe [.evt, .lsw, .reg 0x100018, .reg 0x600024] q0 = true) (e0 : Rest q0 w v') : Rest q0 (World.swRetry w n) v' := by
  refine Rest.trans (Rest.mono (p := [.evt, .lsw, .reg 0x100018, .reg 0x600024]) ?_ hq) e0
  unfold World.swRetry
  try dsimp only
  repeat' first
    | with_reducible exact Rest.refl _ _ | with_reducible assumption | with_reducible refine World.swGo_rest (by decide) ?_
    | with_reducible refine World.swLockout_rest (by decide) ?_ | with_reducible refine Rest.ite ?_ ?_ | dsimp only | split | intro _

theorem World.greenSwitch_rest {q0 : List Part} {w : World} {v' : World} {n : Nat}
    (hq : partsLe [.lsw, .reg 0x600024, .reg 0x600030] q0 = true) (e0 : Rest q0 w v') : Rest q0 (World.greenSwitch w n) v' := by
  refine Rest.trans (Rest.mono (p := [.lsw, .reg 0x600024, .reg 0x600030]) ?_ hq) e0
  unfold World.greenSwitch
  try dsimp only
  repeat' first
    | with_reducible exact Rest.refl _ _ | with_reducible assumption | with_reducible refine Rest.wr _ _ _ _ (by decide) ?_
    | with_reducible refine Rest.bump _ _ _ (by decide) ?_ | with_reducible refine World.swGo_rest (by decide) ?_
    | with_reducible refine World.swOff_rest (by decide) ?_ | with_reducible refine World.swWait_rest (by decide) ?_
    | with_reducible refine World.updSw_rest (by decide) ?_ | with_reducible refine Rest.ite ?_ ?_ | dsimp only | split | intro _

theorem World.swCmd_rest {q0 : List Part} {w : World} {v' : World} {n : Nat} {on : Bool}
    (hq : partsLe [.lsw, .reg 0x600020, .reg 0x600024] q0 = true) (e0 : Rest q0 w v') : Rest q0 (World.swCmd w n on) v' := by
  refine Rest.trans (Rest.mono (p := [.lsw, .reg 0x600020, .reg 0x600024]) ?_ hq) e0
  unfold World.swCmd
  try dsimp only
  repeat' first
    | with_reducible exact Rest.refl _ _ | with_reducible assumption | with_reducible refine Rest.wr _ _ _ _ (by decide) ?_
    | with_reducible refine World.swOff_rest (by decide) ?_ | with_reducible refine World.swWait_rest (by decide) ?_
    | with_reducible refine World.updSw_rest (by decide) ?_ | with_reducible refine Rest.ite ?_ ?_ | dsimp only | split | intro _

theorem World.knockSwitch_rest {q0 : List Part} {w : World} {v' : World} {n : Nat}
    (hq : partsLe [.lsw, .reg 0x600024] q0 = true) (e0 : Rest q0 w v') : Rest q0 (World.knockSwitch w n) v' := by
  refine Rest.trans (Rest.mono (p := [.lsw, .reg 0x600024]) ?_ hq) e0
  unfold World.knockSwitch
  try dsimp only
  repeat' first
    | with_reducible exact Rest.refl _ _ | with_reducible assumption | with_reducible refine Rest.wr _ _ _ _ (by decide) ?_
    | with_reducible refine World.swOff_rest (by decide) ?_ | with_reducible refine Rest.ite ?_ ?_ | dsimp only | split | intro _

theorem World.swTrip_rest {q0 : List Part} {w : World} {v' : World} {n code i : Nat}
    (hq : partsLe [.evt, .lsw, .reg 0x100018, .reg 0x600024, .reg 0x600028, .reg 0x600030] q0 = true) (e0 : Rest q0 w v') : Rest q0 (World.swTrip w n code i) v' := by
  refine Rest.trans (Rest.mono (p := [.evt, .lsw, .reg 0x100018, .reg 0x600024, .reg 0x600028, .reg 0x600030]) ?_ hq) e0
  unfold World.swTrip
  try dsimp only
  repeat' first
    | with_reducible exact Rest.refl _ _ | with_reducible assumption | with_reducible refine Rest.wr _ _ _ _ (by decide) ?_
    | with_reducible refine Rest.bump _ _ _ (by decide) ?_ | with_reducible refine World.swEvent_rest (by decide) ?_
    | with_reducible refine World.swRetry_rest (by decide) ?_ | with_reducible refine Rest.ite ?_ ?_ | dsimp only | split | intro _

theorem World.swTemp_rest {q0 : List Part} {w : World} {v' : World} {n : Nat} {tj : Int}
    (hq : partsLe [.reg 0x60002C] q0 = true) (e0 : Rest q0 w v') : Rest q0 (World.swTemp w n tj) v' := by
  refine Rest.trans (Rest.mono (p := [.reg 0x60002C]) ?_ hq) e0
  unfold World.swTemp
  try dsimp only
  repeat' first
    | with_reducible exact Rest.refl _ _ | with_reducible assumption | with_reducible refine Rest.wrI _ _ _ _ (by decide) ?_
    | with_reducible refine Rest.when ?_ ?_ | with_reducible refine Rest.ite ?_ ?_ | dsimp only | split | intro _

theorem World.setGrant_rest {q0 : List Part} {w : World} {v' : World} {f : Nat} {g : Option Nat}
    (hq : partsLe [.lsw] q0 = true) (e0 : Rest q0 w v') : Rest q0 (World.setGrant w f g) v' := by
  refine Rest.trans (Rest.mono (p := [.lsw]) ?_ hq) e0
  unfold World.setGrant
  try dsimp only
  repeat' first
    | with_reducible exact Rest.refl _ _ | with_reducible assumption | with_reducible refine Rest.ite ?_ ?_
    | with_reducible refine Rest.set_lsw (by decide) ?_ _ | dsimp only | split | intro _

theorem World.setRound_rest {q0 : List Part} {w : World} {v' : World} {a : Nat} {l : List Nat}
    (hq : partsLe [.vlv] q0 = true) (e0 : Rest q0 w v') : Rest q0 (World.setRound w a l) v' := by
  refine Rest.trans (Rest.mono (p := [.vlv]) ?_ hq) e0
  unfold World.setRound
  try dsimp only
  repeat' first
    | with_reducible exact Rest.refl _ _ | with_reducible assumption | with_reducible refine Rest.ite ?_ ?_
    | with_reducible refine Rest.set_vlv (by decide) ?_ _ | dsimp only | split | intro _

theorem World.nextGrant_rest {q0 : List Part} {w : World} {v' : World} {f : Nat}
    (hq : partsLe [.vlv] q0 = true) (e0 : Rest q0 w v') : Rest q0 (World.nextGrant w f).2 v' := by
  refine Rest.trans (Rest.mono (p := [.vlv]) ?_ hq) e0
  unfold World.nextGrant
  try dsimp only
  repeat' first
    | with_reducible exact Rest.refl _ _ | with_reducible assumption | with_reducible refine World.setRound_rest (by decide) ?_
    | with_reducible refine Rest.ite ?_ ?_ | dsimp only | split | intro _

theorem World.admitGrant_rest {q0 : List Part} {w : World} {v' : World} {f n : Nat}
    (hq : partsLe [.lsw, .reg 0x600024, .reg 0x600030] q0 = true) (e0 : Rest q0 w v') : Rest q0 (World.admitGrant w f n) v' := by
  refine Rest.trans (Rest.mono (p := [.lsw, .reg 0x600024, .reg 0x600030]) ?_ hq) e0
  unfold World.admitGrant
  try dsimp only
  repeat' first
    | with_reducible exact Rest.refl _ _ | with_reducible assumption | with_reducible refine Rest.wr _ _ _ _ (by decide) ?_
    | with_reducible refine Rest.bump _ _ _ (by decide) ?_ | with_reducible refine World.setGrant_rest (by decide) ?_
    | with_reducible refine World.swGo_rest (by decide) ?_ | with_reducible refine World.updSw_rest (by decide) ?_
    | with_reducible refine Rest.ite ?_ ?_ | dsimp only | split | intro _

theorem World.shedClass_rest {q0 : List Part} {w : World} {v' : World} {f k : Nat}
    (hq : partsLe [.lsw, .reg 0x600024] q0 = true) (e0 : Rest q0 w v') : Rest q0 (World.shedClass w f k) v' := by
  refine Rest.trans (Rest.mono (p := [.lsw, .reg 0x600024]) ?_ hq) e0
  unfold World.shedClass
  try dsimp only
  repeat' first
    | with_reducible exact Rest.refl _ _ | with_reducible assumption | with_reducible refine Rest.wr _ _ _ _ (by decide) ?_
    | with_reducible refine Rest.forAll ?_ ?_ | with_reducible refine World.swOff_rest (by decide) ?_
    | with_reducible refine World.updSw_rest (by decide) ?_ | with_reducible refine Rest.ite ?_ ?_ | dsimp only | split | intro _

theorem World.shedTo_rest {q0 : List Part} {w : World} {v' : World} {f k : Nat}
    (hq : partsLe [.evt, .lsw, .reg 0x100018, .reg 0x600024, .reg 0x600080] q0 = true) (e0 : Rest q0 w v') : Rest q0 (World.shedTo w f k) v' := by
  refine Rest.trans (Rest.mono (p := [.evt, .lsw, .reg 0x100018, .reg 0x600024, .reg 0x600080]) ?_ hq) e0
  unfold World.shedTo
  try dsimp only
  repeat' first
    | with_reducible exact Rest.refl _ _ | with_reducible assumption | with_reducible refine Rest.wr _ _ _ _ (by decide) ?_
    | with_reducible refine Rest.raiseBoth _ _ (by decide) ?_ | with_reducible refine World.shedClass_rest (by decide) ?_
    | with_reducible refine Rest.ite ?_ ?_ | dsimp only | split | intro _

theorem World.loseFeed_rest {q0 : List Part} {w : World} {v' : World} {f : Nat}
    (hq : partsLe [.evt, .lsw, .reg 0x100018, .reg 0x600024] q0 = true) (e0 : Rest q0 w v') : Rest q0 (World.loseFeed w f) v' := by
  refine Rest.trans (Rest.mono (p := [.evt, .lsw, .reg 0x100018, .reg 0x600024]) ?_ hq) e0
  unfold World.loseFeed
  try dsimp only
  repeat' first
    | with_reducible exact Rest.refl _ _ | with_reducible assumption | with_reducible refine Rest.wr _ _ _ _ (by decide) ?_
    | with_reducible refine Rest.raiseBoth _ _ (by decide) ?_ | with_reducible refine Rest.when ?_ ?_ | with_reducible refine Rest.forAll ?_ ?_
    | with_reducible refine World.swGo_rest (by decide) ?_ | with_reducible refine Rest.ite ?_ ?_
    | with_reducible refine Rest.set_lsw (by decide) ?_ _ | dsimp only | split | intro _

theorem State.replayJournal_rest {q0 : List Part} {s : State} {v' : World} 
    (hq : partsLe [.reg 0x120002C] q0 = true) (e0 : Rest q0 s.w v') : Rest q0 (State.replayJournal s ).w v' := by
  refine Rest.trans (Rest.mono (p := [.reg 0x120002C]) ?_ hq) e0
  unfold State.replayJournal
  try dsimp only
  repeat' first
    | with_reducible exact Rest.refl _ _ | with_reducible assumption | with_reducible refine Rest.wr _ _ _ _ (by decide) ?_
    | with_reducible refine Rest.onW ?_ ?_ | with_reducible refine Rest.onOwn ?_ | with_reducible refine Rest.whenS ?_ ?_
    | with_reducible refine Rest.forAllS ?_ ?_ | with_reducible refine Rest.iteS ?_ ?_ | with_reducible refine Rest.ite ?_ ?_ | dsimp only | split
    | intro _

theorem World.calClose_rest {q0 : List Part} {w : World} {v' : World} 
    (hq : partsLe [.cal, .reg 0x1200014, .reg 0x1200018] q0 = true) (e0 : Rest q0 w v') : Rest q0 (World.calClose w ) v' := by
  refine Rest.trans (Rest.mono (p := [.cal, .reg 0x1200014, .reg 0x1200018]) ?_ hq) e0
  unfold World.calClose
  try dsimp only
  repeat' first
    | with_reducible exact Rest.refl _ _ | with_reducible assumption | with_reducible refine Rest.wr _ _ _ _ (by decide) ?_
    | with_reducible refine Rest.ite ?_ ?_ | with_reducible refine Rest.set_cal (by decide) ?_ _ | dsimp only | split | intro _

theorem World.calCount_rest {q0 : List Part} {w : World} {v' : World} {n : Nat}
    (hq : partsLe [.cal, .reg 0x120002C] q0 = true) (e0 : Rest q0 w v') : Rest q0 (World.calCount w n) v' := by
  refine Rest.trans (Rest.mono (p := [.cal, .reg 0x120002C]) ?_ hq) e0
  unfold World.calCount
  try dsimp only
  repeat' first
    | with_reducible exact Rest.refl _ _ | with_reducible assumption | with_reducible refine Rest.wr _ _ _ _ (by decide) ?_
    | with_reducible refine Rest.ite ?_ ?_ | with_reducible refine Rest.set_cal (by decide) ?_ _ | dsimp only | split | intro _

theorem World.updFlx_rest {q0 : List Part} {w : World} {v' : World} {h : Half} {f : Flx → Flx}
    (hq : partsLe [.flx] q0 = true) (e0 : Rest q0 w v') : Rest q0 (World.updFlx w h f) v' := by
  refine Rest.trans (Rest.mono (p := [.flx]) ?_ hq) e0
  unfold World.updFlx
  try dsimp only
  repeat' first
    | with_reducible exact Rest.refl _ _ | with_reducible assumption | with_reducible refine Rest.ite ?_ ?_
    | with_reducible refine Rest.set_flx (by decide) ?_ _ | dsimp only | split | intro _

theorem World.setFsess_rest {q0 : List Part} {w : World} {v' : World} {h : Half} {k : Nat} {x : Sess}
    (hq : partsLe [.flx] q0 = true) (e0 : Rest q0 w v') : Rest q0 (World.setFsess w h k x) v' := by
  refine Rest.trans (Rest.mono (p := [.flx]) ?_ hq) e0
  unfold World.setFsess
  try dsimp only
  repeat' first
    | with_reducible exact Rest.refl _ _ | with_reducible assumption | with_reducible refine World.updFlx_rest (by decide) ?_
    | with_reducible refine Rest.ite ?_ ?_ | dsimp only | split | intro _

theorem World.flxSend_rest {q0 : List Part} {w : World} {v' : World} {h : Half} {k ty : Nat} {payload : List Byte}
    (hq : partsLe [.flx] q0 = true) (e0 : Rest q0 w v') : Rest q0 (World.flxSend w h k ty payload) v' := by
  refine Rest.trans (Rest.mono (p := [.flx]) ?_ hq) e0
  unfold World.flxSend
  try dsimp only
  repeat' first
    | with_reducible exact Rest.refl _ _ | with_reducible assumption | with_reducible refine World.setFsess_rest (by decide) ?_
    | with_reducible refine Rest.ite ?_ ?_ | dsimp only | split | intro _

theorem World.flxUnacked_rest {q0 : List Part} {w : World} {v' : World} {h : Half} {k : Nat}
    (hq : partsLe [.reg 0xA00140] q0 = true) (e0 : Rest q0 w v') : Rest q0 (World.flxUnacked w h k) v' := by
  refine Rest.trans (Rest.mono (p := [.reg 0xA00140]) ?_ hq) e0
  unfold World.flxUnacked
  try dsimp only
  repeat' first
    | with_reducible exact Rest.refl _ _ | with_reducible assumption | with_reducible refine Rest.wr _ _ _ _ (by decide) ?_
    | with_reducible refine Rest.ite ?_ ?_ | dsimp only | split | intro _

theorem World.sendTiles_rest {q0 : List Part} {w : World} {v' : World} {h : Half} {a n : Nat}
    (hq : partsLe [.flx, .reg 0xA00140] q0 = true) (e0 : Rest q0 w v') : Rest q0 (World.sendTiles w h a n) v' := by
  refine Rest.trans (Rest.mono (p := [.flx, .reg 0xA00140]) ?_ hq) e0
  unfold World.sendTiles
  try dsimp only
  repeat' first
    | with_reducible exact Rest.refl _ _ | with_reducible assumption | with_reducible refine World.flxSend_rest (by decide) ?_
    | with_reducible refine World.flxUnacked_rest (by decide) ?_ | with_reducible refine World.setFsess_rest (by decide) ?_
    | with_reducible refine World.updFlx_rest (by decide) ?_ | with_reducible refine Rest.ite ?_ ?_ | dsimp only | split | intro _

theorem World.sendAllTiles_rest {q0 : List Part} {w v : World} {n : Nat} {h : Half} (hq : partsLe [.flx, .reg 0xA00140] q0 = true)
    (e0 : Rest q0 w v) : Rest q0 (World.sendAllTiles n w h) v := by
  induction n generalizing w with
  | zero => exact e0
  | succ n ih =>
    unfold World.sendAllTiles
    dsimp only
    split
    · exact e0
    · exact ih (World.sendTiles_rest hq e0)

theorem World.flxTiles_rest {q0 : List Part} {w : World} {v' : World} {h : Half}
    (hq : partsLe [.flx, .reg 0xA00140] q0 = true) (e0 : Rest q0 w v') : Rest q0 (World.flxTiles w h) v' := by
  refine Rest.trans (Rest.mono (p := [.flx, .reg 0xA00140]) ?_ hq) e0
  unfold World.flxTiles
  try dsimp only
  repeat' first
    | with_reducible exact Rest.refl _ _ | with_reducible assumption | with_reducible refine Rest.when ?_ ?_
    | with_reducible refine World.sendAllTiles_rest (by decide) ?_ | with_reducible refine Rest.ite ?_ ?_ | dsimp only | split | intro _

theorem World.flxTileOver_rest {q0 : List Part} {w : World} {v' : World} {h : Half} {seq : Nat}
    (hq : partsLe [.evt, .reg 0x100018, .reg 0xA00114] q0 = true) (e0 : Rest q0 w v') : Rest q0 (World.flxTileOver w h seq) v' := by
  refine Rest.trans (Rest.mono (p := [.evt, .reg 0x100018, .reg 0xA00114]) ?_ hq) e0
  unfold World.flxTileOver
  try dsimp only
  repeat' first
    | with_reducible exact Rest.refl _ _ | with_reducible assumption | with_reducible refine Rest.bump _ _ _ (by decide) ?_
    | with_reducible refine Rest.raise _ _ _ (by decide) ?_ | with_reducible refine Rest.when ?_ ?_ | with_reducible refine Rest.ite ?_ ?_
    | dsimp only | split | intro _

theorem World.flxConnect_rest {q0 : List Part} {w : World} {v' : World} {h : Half} {k ip port : Nat}
    (hq : partsLe [.flx, .reg 0xA00140] q0 = true) (e0 : Rest q0 w v') : Rest q0 (World.flxConnect w h k ip port) v' := by
  refine Rest.trans (Rest.mono (p := [.flx, .reg 0xA00140]) ?_ hq) e0
  unfold World.flxConnect
  try dsimp only
  repeat' first
    | with_reducible exact Rest.refl _ _ | with_reducible assumption | with_reducible refine Rest.wr _ _ _ _ (by decide) ?_
    | with_reducible refine World.setFsess_rest (by decide) ?_ | with_reducible refine Rest.ite ?_ ?_ | dsimp only | split | intro _

theorem World.flxServe_rest {q0 : List Part} {w : World} {v' : World} {h : Half}
    (hq : partsLe [.flx, .reg 0xA00140] q0 = true) (e0 : Rest q0 w v') : Rest q0 (World.flxServe w h) v' := by
  refine Rest.trans (Rest.mono (p := [.flx, .reg 0xA00140]) ?_ hq) e0
  unfold World.flxServe
  try dsimp only
  repeat' first
    | with_reducible exact Rest.refl _ _ | with_reducible assumption | with_reducible refine Rest.when ?_ ?_ | with_reducible refine Rest.forAll ?_ ?_
    | with_reducible refine World.flxConnect_rest (by decide) ?_ | with_reducible refine World.updFlx_rest (by decide) ?_
    | with_reducible refine Rest.ite ?_ ?_ | dsimp only | split | intro _

theorem World.updYield_rest {q0 : List Part} {w : World} {v' : World} {h : Half} {f : Yield → Yield}
    (hq : partsLe [.yld] q0 = true) (e0 : Rest q0 w v') : Rest q0 (World.updYield w h f) v' := by
  refine Rest.trans (Rest.mono (p := [.yld]) ?_ hq) e0
  unfold World.updYield
  try dsimp only
  repeat' first
    | with_reducible exact Rest.refl _ _ | with_reducible assumption | with_reducible refine Rest.ite ?_ ?_
    | with_reducible refine Rest.set_yld (by decide) ?_ _ | dsimp only | split | intro _

theorem World.publishTile_rest {q0 : List Part} {w : World} {v' : World} {led : Memory} {srv h : Half} {s : YildSec} {t : YTile}
    (hq : partsLe [.evt, .uin, .yld, .dram, .flx, .reg 0x100018, .reg 0x400604, .reg 0x400634, .reg 0x700020, .reg 0x700024, .reg 0x70002C, .reg 0x700030, .reg 0x700044, .reg 0x701000, .reg 0x701004, .reg 0xA00114, .reg 0xA00140] q0 = true) (e0 : Rest q0 w v') : Rest q0 (World.publishTile w led srv h s t) v' := by
  refine Rest.trans (Rest.mono (p := [.evt, .uin, .yld, .dram, .flx, .reg 0x100018, .reg 0x400604, .reg 0x400634, .reg 0x700020, .reg 0x700024, .reg 0x70002C, .reg 0x700030, .reg 0x700044, .reg 0x701000, .reg 0x701004, .reg 0xA00114, .reg 0xA00140]) ?_ hq) e0
  unfold World.publishTile
  try dsimp only
  repeat' first
    | with_reducible exact Rest.refl _ _ | with_reducible assumption | with_reducible refine Rest.wr _ _ _ _ (by decide) ?_
    | with_reducible refine Rest.when ?_ ?_ | with_reducible refine Rest.putMem _ _ _ _ (by decide) ?_
    | with_reducible refine World.externalWrite_rest (by decide) ?_ | with_reducible refine World.flxTileOver_rest (by decide) ?_
    | with_reducible refine World.flxTiles_rest (by decide) ?_ | with_reducible refine World.updYield_rest (by decide) ?_
    | with_reducible refine Rest.ite ?_ ?_ | dsimp only | split | intro _

theorem World.showTotals_rest {q0 : List Part} {w : World} {v' : World} {h : Half}
    (hq : partsLe [.reg 0x400610, .reg 0x400614, .reg 0x400618, .reg 0x40061C, .reg 0x400620] q0 = true) (e0 : Rest q0 w v') : Rest q0 (World.showTotals w h) v' := by
  refine Rest.trans (Rest.mono (p := [.reg 0x400610, .reg 0x400614, .reg 0x400618, .reg 0x40061C, .reg 0x400620]) ?_ hq) e0
  unfold World.showTotals
  try dsimp only
  repeat' first
    | with_reducible exact Rest.refl _ _ | with_reducible assumption | with_reducible refine Rest.wr _ _ _ _ (by decide) ?_
    | with_reducible refine Rest.ite ?_ ?_ | dsimp only | split | intro _

theorem World.takeCrop_rest {q0 : List Part} {w : World} {v' : World} {h : Half} {s : YildSec}
    (hq : partsLe [.yld] q0 = true) (e0 : Rest q0 w v') : Rest q0 (World.takeCrop w h s) v' := by
  refine Rest.trans (Rest.mono (p := [.yld]) ?_ hq) e0
  unfold World.takeCrop
  try dsimp only
  repeat' first
    | with_reducible exact Rest.refl _ _ | with_reducible assumption | with_reducible refine Rest.when ?_ ?_
    | with_reducible refine World.updYield_rest (by decide) ?_ | with_reducible refine Rest.ite ?_ ?_ | dsimp only | split | intro _

theorem World.showYield_rest {q0 : List Part} {w : World} {v' : World} {led : Memory} {h : Half} {f : Flow} {x : Slice} {mv : Rat} {src : Nat}
    (hq : partsLe [.reg 0x400604, .reg 0x400608, .reg 0x40060C, .reg 0x400610, .reg 0x400614, .reg 0x400618, .reg 0x40061C, .reg 0x400620] q0 = true) (e0 : Rest q0 w v') : Rest q0 (World.showYield w led h f x mv src) v' := by
  refine Rest.trans (Rest.mono (p := [.reg 0x400604, .reg 0x400608, .reg 0x40060C, .reg 0x400610, .reg 0x400614, .reg 0x400618, .reg 0x40061C, .reg 0x400620]) ?_ hq) e0
  unfold World.showYield
  try dsimp only
  repeat' first
    | with_reducible exact Rest.refl _ _ | with_reducible assumption | with_reducible refine Rest.wr _ _ _ _ (by decide) ?_
    | with_reducible refine World.showTotals_rest (by decide) ?_ | with_reducible refine Rest.ite ?_ ?_ | dsimp only | split | intro _

theorem World.yieldCycle_rest {q0 : List Part} {w : World} {v' : World} {led : Memory} {srv h : Half} {s : YildSec}
    (hq : partsLe [.evt, .uin, .yld, .dram, .flx, .reg 0x100018, .reg 0x400604, .reg 0x400608, .reg 0x40060C, .reg 0x400610, .reg 0x400614, .reg 0x400618, .reg 0x40061C, .reg 0x400620, .reg 0x400634, .reg 0x700020, .reg 0x700024, .reg 0x70002C, .reg 0x700030, .reg 0x700044, .reg 0x701000, .reg 0x701004, .reg 0xA00114, .reg 0xA00140] q0 = true) (e0 : Rest q0 w v') : Rest q0 (World.yieldCycle w led srv h s) v' := by
  refine Rest.trans (Rest.mono (p := [.evt, .uin, .yld, .dram, .flx, .reg 0x100018, .reg 0x400604, .reg 0x400608, .reg 0x40060C, .reg 0x400610, .reg 0x400614, .reg 0x400618, .reg 0x40061C, .reg 0x400620, .reg 0x400634, .reg 0x700020, .reg 0x700024, .reg 0x70002C, .reg 0x700030, .reg 0x700044, .reg 0x701000, .reg 0x701004, .reg 0xA00114, .reg 0xA00140]) ?_ hq) e0
  unfold World.yieldCycle
  try dsimp only
  repeat' first
    | with_reducible exact Rest.refl _ _ | with_reducible assumption | with_reducible refine Rest.when ?_ ?_ | with_reducible refine Rest.foldl ?_ ?_
    | with_reducible refine World.externalWrite_rest (by decide) ?_ | with_reducible refine World.publishTile_rest (by decide) ?_
    | with_reducible refine World.showYield_rest (by decide) ?_ | with_reducible refine World.takeCrop_rest (by decide) ?_
    | with_reducible refine World.updYield_rest (by decide) ?_ | with_reducible refine Rest.ite ?_ ?_ | dsimp only | split | intro _

theorem World.mirrorYield_rest {q0 : List Part} {w : World} {v' : World} {h : Half}
    (hq : partsLe [.yld, .dram, .reg 0x400600, .reg 0x400610, .reg 0x400614, .reg 0x400618, .reg 0x40061C, .reg 0x400620, .reg 0x400634, .reg 0x400638, .reg 0x400640, .reg 0x400644] q0 = true) (e0 : Rest q0 w v') : Rest q0 (World.mirrorYield w h) v' := by
  refine Rest.trans (Rest.mono (p := [.yld, .dram, .reg 0x400600, .reg 0x400610, .reg 0x400614, .reg 0x400618, .reg 0x40061C, .reg 0x400620, .reg 0x400634, .reg 0x400638, .reg 0x400640, .reg 0x400644]) ?_ hq) e0
  unfold World.mirrorYield
  try dsimp only
  refine Rest.when (Rest.refl _ _) fun u hu => World.showTotals_rest (by decide) (Rest.set_dram (by decide) (Rest.copyFields _ _ (by decide) (World.updYield_rest (by decide) hu)) _)
  repeat' first
    | with_reducible exact Rest.refl _ _ | with_reducible assumption | with_reducible refine Rest.copyFields _ _ (by decide) ?_
    | with_reducible refine Rest.wr _ _ _ _ (by decide) ?_ | with_reducible refine Rest.when ?_ ?_ | with_reducible refine Rest.foldl ?_ ?_
    | with_reducible refine World.showTotals_rest (by decide) ?_ | with_reducible refine World.updYield_rest (by decide) ?_
    | with_reducible refine Rest.ite ?_ ?_ | with_reducible refine Rest.set_dram (by decide) ?_ _ | dsimp only | split | intro _

theorem World.calResult_rest {q0 : List Part} {w : World} {v' : World} {h : Half} {r : Nat}
    (hq : partsLe [.reg 0x400640] q0 = true) (e0 : Rest q0 w v') : Rest q0 (World.calResult w h r) v' := by
  refine Rest.trans (Rest.mono (p := [.reg 0x400640]) ?_ hq) e0
  unfold World.calResult
  try dsimp only
  repeat' first
    | with_reducible exact Rest.refl _ _ | with_reducible assumption | with_reducible refine Rest.wr _ _ _ _ (by decide) ?_
    | with_reducible refine Rest.ite ?_ ?_ | dsimp only | split | intro _

theorem World.showLoads_rest {q0 : List Part} {w : World} {v' : World} {h : Half}
    (hq : partsLe [.reg 0x400640] q0 = true) (e0 : Rest q0 w v') : Rest q0 (World.showLoads w h) v' := by
  refine Rest.trans (Rest.mono (p := [.reg 0x400640]) ?_ hq) e0
  unfold World.showLoads
  try dsimp only
  repeat' first
    | with_reducible exact Rest.refl _ _ | with_reducible assumption | with_reducible refine Rest.wr _ _ _ _ (by decide) ?_
    | with_reducible refine Rest.ite ?_ ?_ | dsimp only | split | intro _

theorem World.updDsp_rest {q0 : List Part} {w : World} {v' : World} {f : Disp → Disp}
    (hq : partsLe [.dsp] q0 = true) (e0 : Rest q0 w v') : Rest q0 (World.updDsp w f) v' := by
  refine Rest.trans (Rest.mono (p := [.dsp]) ?_ hq) e0
  unfold World.updDsp
  try dsimp only
  repeat' first
    | with_reducible exact Rest.refl _ _ | with_reducible assumption | with_reducible refine Rest.ite ?_ ?_
    | with_reducible refine Rest.set_dsp (by decide) ?_ _ | dsimp only | split | intro _

theorem World.dspEvent_rest {q0 : List Part} {w : World} {v' : World} {obj cause : Nat}
    (hq : partsLe [.evt, .reg 0x100018] q0 = true) (e0 : Rest q0 w v') : Rest q0 (World.dspEvent w obj cause) v' := by
  refine Rest.trans (Rest.mono (p := [.evt, .reg 0x100018]) ?_ hq) e0
  unfold World.dspEvent
  try dsimp only
  repeat' first
    | with_reducible exact Rest.refl _ _ | with_reducible assumption | with_reducible refine Rest.raiseBoth _ _ (by decide) ?_
    | with_reducible refine Rest.ite ?_ ?_ | dsimp only | split | intro _

theorem World.segLatch_rest {q0 : List Part} {w : World} {v' : World} 
    (hq : partsLe [.dsp] q0 = true) (e0 : Rest q0 w v') : Rest q0 (World.segLatch w ) v' := by
  refine Rest.trans (Rest.mono (p := [.dsp]) ?_ hq) e0
  unfold World.segLatch
  try dsimp only
  repeat' first
    | with_reducible exact Rest.refl _ _ | with_reducible assumption | with_reducible refine World.updDsp_rest (by decide) ?_
    | with_reducible refine Rest.ite ?_ ?_ | dsimp only | split | intro _

theorem World.putSeg_rest {q0 : List Part} {w : World} {v' : World} {i : Nat} {on : Bool}
    (hq : partsLe [.reg 0xF00020] q0 = true) (e0 : Rest q0 w v') : Rest q0 (World.putSeg w i on) v' := by
  refine Rest.trans (Rest.mono (p := [.reg 0xF00020]) ?_ hq) e0
  unfold World.putSeg
  try dsimp only
  repeat' first
    | with_reducible exact Rest.refl _ _ | with_reducible assumption | with_reducible refine Rest.wr _ _ _ _ (by decide) ?_
    | with_reducible refine Rest.ite ?_ ?_ | dsimp only | split | intro _

theorem World.pnlStep_rest {q0 : List Part} {w : World} {v' : World} {k : Nat}
    (hq : partsLe [.dsp, .reg 0xF00018] q0 = true) (e0 : Rest q0 w v') : Rest q0 (World.pnlStep w k) v' := by
  refine Rest.trans (Rest.mono (p := [.dsp, .reg 0xF00018]) ?_ hq) e0
  unfold World.pnlStep
  try dsimp only
  repeat' first
    | with_reducible exact Rest.refl _ _ | with_reducible assumption | with_reducible refine Rest.wr _ _ _ _ (by decide) ?_
    | with_reducible refine World.updDsp_rest (by decide) ?_ | with_reducible refine Rest.ite ?_ ?_ | dsimp only | split | intro _

theorem World.pnlReach_rest {q0 : List Part} {w : World} {v' : World} {k : Nat}
    (hq : partsLe [.evt, .dsp, .reg 0x100018, .reg 0xF00018] q0 = true) (e0 : Rest q0 w v') : Rest q0 (World.pnlReach w k) v' := by
  refine Rest.trans (Rest.mono (p := [.evt, .dsp, .reg 0x100018, .reg 0xF00018]) ?_ hq) e0
  unfold World.pnlReach
  try dsimp only
  repeat' first
    | with_reducible exact Rest.refl _ _ | with_reducible assumption | with_reducible refine World.dspEvent_rest (by decide) ?_
    | with_reducible refine World.pnlStep_rest (by decide) ?_ | with_reducible refine Rest.ite ?_ ?_ | dsimp only | split | intro _

theorem World.dspFast_rest {q0 : List Part} {w : World} {v' : World} 
    (hq : partsLe [.evt, .dsp, .reg 0x100018, .reg 0xF00018] q0 = true) (e0 : Rest q0 w v') : Rest q0 (World.dspFast w ) v' := by
  refine Rest.trans (Rest.mono (p := [.evt, .dsp, .reg 0x100018, .reg 0xF00018]) ?_ hq) e0
  unfold World.dspFast
  try dsimp only
  repeat' first
    | with_reducible exact Rest.refl _ _ | with_reducible assumption | with_reducible refine Rest.wr _ _ _ _ (by decide) ?_
    | with_reducible refine World.dspEvent_rest (by decide) ?_ | with_reducible refine World.pnlStep_rest (by decide) ?_
    | with_reducible refine Rest.ite ?_ ?_ | dsimp only | split | intro _

theorem World.greenDsp_rest {q0 : List Part} {w : World} {v' : World} {k : Nat}
    (hq : partsLe [.evt, .dsp, .reg 0x100018, .reg 0xF00018] q0 = true) (e0 : Rest q0 w v') : Rest q0 (World.greenDsp w k) v' := by
  refine Rest.trans (Rest.mono (p := [.evt, .dsp, .reg 0x100018, .reg 0xF00018]) ?_ hq) e0
  unfold World.greenDsp
  try dsimp only
  repeat' first
    | with_reducible exact Rest.refl _ _ | with_reducible assumption | with_reducible refine World.dspFast_rest (by decide) ?_
    | with_reducible refine World.updDsp_rest (by decide) ?_ | with_reducible refine Rest.ite ?_ ?_ | dsimp only | split | intro _

theorem World.pnlEnable_rest {q0 : List Part} {w : World} {v' : World} {en : Bool}
    (hq : partsLe [.dsp, .reg 0xF00010, .reg 0xF00018] q0 = true) (e0 : Rest q0 w v') : Rest q0 (World.pnlEnable w en) v' := by
  refine Rest.trans (Rest.mono (p := [.dsp, .reg 0xF00010, .reg 0xF00018]) ?_ hq) e0
  unfold World.pnlEnable
  try dsimp only
  repeat' first
    | with_reducible exact Rest.refl _ _ | with_reducible assumption | with_reducible refine Rest.wr _ _ _ _ (by decide) ?_
    | with_reducible refine Rest.when ?_ ?_ | with_reducible refine World.pnlStep_rest (by decide) ?_
    | with_reducible refine World.updDsp_rest (by decide) ?_ | with_reducible refine Rest.ite ?_ ?_ | dsimp only | split | intro _

theorem World.copyLost_rest {q0 : List Part} {w : World} {v' : World} 
    (hq : partsLe [.evt, .dsp, .reg 0x100018, .reg 0xF00018] q0 = true) (e0 : Rest q0 w v') : Rest q0 (World.copyLost w ) v' := by
  refine Rest.trans (Rest.mono (p := [.evt, .dsp, .reg 0x100018, .reg 0xF00018]) ?_ hq) e0
  unfold World.copyLost
  try dsimp only
  repeat' first
    | with_reducible exact Rest.refl _ _ | with_reducible assumption | with_reducible refine Rest.wr _ _ _ _ (by decide) ?_
    | with_reducible refine Rest.when ?_ ?_ | with_reducible refine World.dspEvent_rest (by decide) ?_
    | with_reducible refine World.updDsp_rest (by decide) ?_ | with_reducible refine Rest.ite ?_ ?_ | dsimp only | split | intro _

theorem World.dspLoad_rest {q0 : List Part} {w : World} {v' : World} {d : DispSec}
    (hq : partsLe [.dsp, .reg 0xF00010, .reg 0xF00018] q0 = true) (e0 : Rest q0 w v') : Rest q0 (World.dspLoad w d) v' := by
  refine Rest.trans (Rest.mono (p := [.dsp, .reg 0xF00010, .reg 0xF00018]) ?_ hq) e0
  unfold World.dspLoad
  try dsimp only
  repeat' first
    | with_reducible exact Rest.refl _ _ | with_reducible assumption | with_reducible refine Rest.wr _ _ _ _ (by decide) ?_
    | with_reducible refine Rest.when ?_ ?_ | with_reducible refine World.pnlEnable_rest (by decide) ?_
    | with_reducible refine World.updDsp_rest (by decide) ?_ | with_reducible refine Rest.ite ?_ ?_ | dsimp only | split | intro _

theorem World.updPwr_rest {q0 : List Part} {w : World} {v' : World} {f : Power → Power}
    (hq : partsLe [.pwr] q0 = true) (e0 : Rest q0 w v') : Rest q0 (World.updPwr w f) v' := by
  refine Rest.trans (Rest.mono (p := [.pwr]) ?_ hq) e0
  unfold World.updPwr
  try dsimp only
  repeat' first
    | with_reducible exact Rest.refl _ _ | with_reducible assumption | with_reducible refine Rest.ite ?_ ?_
    | with_reducible refine Rest.set_pwr (by decide) ?_ _ | dsimp only | split | intro _

theorem World.pwrEvent_rest {q0 : List Part} {w : World} {v' : World} {num obj : Nat}
    (hq : partsLe [.evt, .reg 0x100018] q0 = true) (e0 : Rest q0 w v') : Rest q0 (World.pwrEvent w num obj) v' := by
  refine Rest.trans (Rest.mono (p := [.evt, .reg 0x100018]) ?_ hq) e0
  unfold World.pwrEvent
  try dsimp only
  repeat' first
    | with_reducible exact Rest.refl _ _ | with_reducible assumption | with_reducible refine Rest.raiseBoth _ _ (by decide) ?_
    | with_reducible refine Rest.ite ?_ ?_ | dsimp only | split | intro _

theorem World.updFan_rest {q0 : List Part} {w : World} {v' : World} {c : Nat} {f : Fan → Fan}
    (hq : partsLe [.pwr] q0 = true) (e0 : Rest q0 w v') : Rest q0 (World.updFan w c f) v' := by
  refine Rest.trans (Rest.mono (p := [.pwr]) ?_ hq) e0
  unfold World.updFan
  try dsimp only
  repeat' first
    | with_reducible exact Rest.refl _ _ | with_reducible assumption | with_reducible refine World.updPwr_rest (by decide) ?_
    | with_reducible refine Rest.ite ?_ ?_ | dsimp only | split | intro _

theorem World.fanDuties_rest {q0 : List Part} {w : World} {v' : World} 
    (hq : partsLe [.reg 0x1000044] q0 = true) (e0 : Rest q0 w v') : Rest q0 (World.fanDuties w ) v' := by
  refine Rest.trans (Rest.mono (p := [.reg 0x1000044]) ?_ hq) e0
  unfold World.fanDuties
  try dsimp only
  repeat' first
    | with_reducible exact Rest.refl _ _ | with_reducible assumption | with_reducible refine Rest.wr _ _ _ _ (by decide) ?_
    | with_reducible refine Rest.forAll ?_ ?_ | with_reducible refine Rest.ite ?_ ?_ | dsimp only | split | intro _

theorem World.greenFan_rest {q0 : List Part} {w : World} {v' : World} {c : Nat}
    (hq : partsLe [.pwr, .reg 0x1000044] q0 = true) (e0 : Rest q0 w v') : Rest q0 (World.greenFan w c) v' := by
  refine Rest.trans (Rest.mono (p := [.pwr, .reg 0x1000044]) ?_ hq) e0
  unfold World.greenFan
  try dsimp only
  repeat' first
    | with_reducible exact Rest.refl _ _ | with_reducible assumption | with_reducible refine World.fanDuties_rest (by decide) ?_
    | with_reducible refine World.updFan_rest (by decide) ?_ | with_reducible refine Rest.ite ?_ ?_ | dsimp only | split | intro _

theorem World.fanTarget_rest {q0 : List Part} {w : World} {v' : World} {c : Nat}
    (hq : partsLe [.pwr, .reg 0x1000044] q0 = true) (e0 : Rest q0 w v') : Rest q0 (World.fanTarget w c).2 v' := by
  refine Rest.trans (Rest.mono (p := [.pwr, .reg 0x1000044]) ?_ hq) e0
  unfold World.fanTarget
  try dsimp only
  repeat' first
    | with_reducible exact Rest.refl _ _ | with_reducible assumption | with_reducible refine Rest.wr _ _ _ _ (by decide) ?_
    | with_reducible refine World.updFan_rest (by decide) ?_ | with_reducible refine Rest.ite ?_ ?_ | dsimp only | split | intro _

theorem World.fanLoop_rest {q0 : List Part} {w : World} {v' : World} {c tgt rpm : Nat}
    (hq : partsLe [.fresh, .pwr] q0 = true) (e0 : Rest q0 w v') : Rest q0 (World.fanLoop w c tgt rpm) v' := by
  refine Rest.trans (Rest.mono (p := [.fresh, .pwr]) ?_ hq) e0
  unfold World.fanLoop
  try dsimp only
  repeat' first
    | with_reducible exact Rest.refl _ _ | with_reducible assumption | with_reducible refine World.updFan_rest (by decide) ?_
    | with_reducible refine Rest.ite ?_ ?_ | with_reducible refine Rest.free (by decide) ?_ | dsimp only | split | intro _

theorem World.startKick_rest {q0 : List Part} {w : World} {v' : World} {c k : Nat}
    (hq : partsLe [.pwr, .reg 0x1000044, .reg 0x1000070] q0 = true) (e0 : Rest q0 w v') : Rest q0 (World.startKick w c k) v' := by
  refine Rest.trans (Rest.mono (p := [.pwr, .reg 0x1000044, .reg 0x1000070]) ?_ hq) e0
  unfold World.startKick
  try dsimp only
  repeat' first
    | with_reducible exact Rest.refl _ _ | with_reducible assumption | with_reducible refine Rest.wr _ _ _ _ (by decide) ?_
    | with_reducible refine Rest.bump _ _ _ (by decide) ?_ | with_reducible refine World.fanDuties_rest (by decide) ?_
    | with_reducible refine World.updFan_rest (by decide) ?_ | with_reducible refine Rest.ite ?_ ?_ | dsimp only | split | intro _

theorem World.endKick_rest {q0 : List Part} {w : World} {v' : World} {c : Nat}
    (hq : partsLe [.pwr, .reg 0x1000044] q0 = true) (e0 : Rest q0 w v') : Rest q0 (World.endKick w c) v' := by
  refine Rest.trans (Rest.mono (p := [.pwr, .reg 0x1000044]) ?_ hq) e0
  unfold World.endKick
  try dsimp only
  repeat' first
    | with_reducible exact Rest.refl _ _ | with_reducible assumption | with_reducible refine Rest.wr _ _ _ _ (by decide) ?_
    | with_reducible refine World.fanDuties_rest (by decide) ?_ | with_reducible refine World.updFan_rest (by decide) ?_
    | with_reducible refine Rest.ite ?_ ?_ | dsimp only | split | intro _

theorem World.feedGone_rest {q0 : List Part} {w : World} {v' : World} {f : Nat}
    (hq : partsLe [.evt, .lsw, .reg 0x100018, .reg 0x600024] q0 = true) (e0 : Rest q0 w v') : Rest q0 (World.feedGone w f) v' := by
  refine Rest.trans (Rest.mono (p := [.evt, .lsw, .reg 0x100018, .reg 0x600024]) ?_ hq) e0
  unfold World.feedGone
  try dsimp only
  repeat' first
    | with_reducible exact Rest.refl _ _ | with_reducible assumption | with_reducible refine Rest.when ?_ ?_
    | with_reducible refine World.loseFeed_rest (by decide) ?_ | with_reducible refine Rest.ite ?_ ?_ | dsimp only | split | intro _

theorem World.greenFeed_rest {q0 : List Part} {w : World} {v' : World} {f : Nat}
    (hq : partsLe [.reg 0x1000020] q0 = true) (e0 : Rest q0 w v') : Rest q0 (World.greenFeed w f) v' := by
  refine Rest.trans (Rest.mono (p := [.reg 0x1000020]) ?_ hq) e0
  unfold World.greenFeed
  try dsimp only
  repeat' first
    | with_reducible exact Rest.refl _ _ | with_reducible assumption | with_reducible refine Rest.wr _ _ _ _ (by decide) ?_
    | with_reducible refine Rest.ite ?_ ?_ | dsimp only | split | intro _

theorem World.setDerate_rest {q0 : List Part} {w : World} {v' : World} {on : Bool}
    (hq : partsLe [.evt, .reg 0x100018, .reg 0x1000018] q0 = true) (e0 : Rest q0 w v') : Rest q0 (World.setDerate w on) v' := by
  refine Rest.trans (Rest.mono (p := [.evt, .reg 0x100018, .reg 0x1000018]) ?_ hq) e0
  unfold World.setDerate
  try dsimp only
  repeat' first
    | with_reducible exact Rest.refl _ _ | with_reducible assumption | with_reducible refine Rest.wr _ _ _ _ (by decide) ?_
    | with_reducible refine World.pwrEvent_rest (by decide) ?_ | with_reducible refine Rest.ite ?_ ?_ | dsimp only | split | intro _

theorem World.thermistor_rest {q0 : List Part} {w : World} {v' : World} {k : Nat} {t : Int}
    (hq : partsLe [.evt, .pwr, .reg 0x100018, .reg 0x1000018, .reg 0x1000034] q0 = true) (e0 : Rest q0 w v') : Rest q0 (World.thermistor w k t) v' := by
  refine Rest.trans (Rest.mono (p := [.evt, .pwr, .reg 0x100018, .reg 0x1000018, .reg 0x1000034]) ?_ hq) e0
  unfold World.thermistor
  try dsimp only
  repeat' first
    | with_reducible exact Rest.refl _ _ | with_reducible assumption | with_reducible refine Rest.wr _ _ _ _ (by decide) ?_
    | with_reducible refine Rest.when ?_ ?_ | with_reducible refine World.pwrEvent_rest (by decide) ?_
    | with_reducible refine World.setDerate_rest (by decide) ?_ | with_reducible refine World.updPwr_rest (by decide) ?_
    | with_reducible refine Rest.ite ?_ ?_ | dsimp only | split | intro _

theorem World.readTs_rest {q0 : List Part} {w : World} {v' : World} {ts : Int}
    (hq : partsLe [.pwr, .reg 0x1000038] q0 = true) (e0 : Rest q0 w v') : Rest q0 (World.readTs w ts) v' := by
  refine Rest.trans (Rest.mono (p := [.pwr, .reg 0x1000038]) ?_ hq) e0
  unfold World.readTs
  try dsimp only
  repeat' first
    | with_reducible exact Rest.refl _ _ | with_reducible assumption | with_reducible refine Rest.wrI _ _ _ _ (by decide) ?_
    | with_reducible refine World.updPwr_rest (by decide) ?_ | with_reducible refine Rest.ite ?_ ?_ | dsimp only | split | intro _

theorem World.greenSupply_rest {q0 : List Part} {w : World} {v' : World} {n : Nat}
    (hq : partsLe [.reg 0x700080] q0 = true) (e0 : Rest q0 w v') : Rest q0 (World.greenSupply w n) v' := by
  refine Rest.trans (Rest.mono (p := [.reg 0x700080]) ?_ hq) e0
  unfold World.greenSupply
  try dsimp only
  repeat' first
    | with_reducible exact Rest.refl _ _ | with_reducible assumption | with_reducible refine Rest.wr _ _ _ _ (by decide) ?_
    | with_reducible refine Rest.ite ?_ ?_ | dsimp only | split | intro _

theorem World.greenObj_rest {q0 : List Part} {w : World} {v' : World} {k : Nat}
    (hq : partsLe [.evt, .vlv, .lsw, .can, .pwr, .dsp, .reg 0x100018, .reg 0x500028, .reg 0x600024, .reg 0x600030, .reg 0x700080, .reg 0x900030, .reg 0x900044, .reg 0xF00018, .reg 0x1000020, .reg 0x1000044] q0 = true) (e0 : Rest q0 w v') : Rest q0 (World.greenObj w k) v' := by
  refine Rest.trans (Rest.mono (p := [.evt, .vlv, .lsw, .can, .pwr, .dsp, .reg 0x100018, .reg 0x500028, .reg 0x600024, .reg 0x600030, .reg 0x700080, .reg 0x900030, .reg 0x900044, .reg 0xF00018, .reg 0x1000020, .reg 0x1000044]) ?_ hq) e0
  unfold World.greenObj
  try dsimp only
  repeat' first
    | with_reducible exact Rest.refl _ _ | with_reducible assumption | with_reducible refine World.greenCan_rest (by decide) ?_
    | with_reducible refine World.greenDsp_rest (by decide) ?_ | with_reducible refine World.greenFan_rest (by decide) ?_
    | with_reducible refine World.greenFeed_rest (by decide) ?_ | with_reducible refine World.greenSupply_rest (by decide) ?_
    | with_reducible refine World.greenSwitch_rest (by decide) ?_ | with_reducible refine World.greenValve_rest (by decide) ?_
    | with_reducible refine Rest.ite ?_ ?_ | dsimp only | split | intro _

theorem World.greenAll_rest {q0 : List Part} {w : World} {v' : World} 
    (hq : partsLe [.evt, .vlv, .lsw, .can, .pwr, .dsp, .reg 0x100018, .reg 0x500028, .reg 0x600024, .reg 0x600030, .reg 0x700080, .reg 0x900030, .reg 0x900044, .reg 0xF00018, .reg 0x1000020, .reg 0x1000044] q0 = true) (e0 : Rest q0 w v') : Rest q0 (World.greenAll w ) v' := by
  refine Rest.trans (Rest.mono (p := [.evt, .vlv, .lsw, .can, .pwr, .dsp, .reg 0x100018, .reg 0x500028, .reg 0x600024, .reg 0x600030, .reg 0x700080, .reg 0x900030, .reg 0x900044, .reg 0xF00018, .reg 0x1000020, .reg 0x1000044]) ?_ hq) e0
  unfold World.greenAll
  try dsimp only
  repeat' first
    | with_reducible exact Rest.refl _ _ | with_reducible assumption | with_reducible refine Rest.forAll ?_ ?_
    | with_reducible refine World.greenObj_rest (by decide) ?_ | with_reducible refine Rest.ite ?_ ?_ | dsimp only | split | intro _

theorem World.safeObj_rest {q0 : List Part} {w : World} {v' : World} {k : Nat}
    (hq : partsLe [.evt, .vlv, .lsw, .can, .dsp, .reg 0x100018, .reg 0x500028, .reg 0x600024, .reg 0x900030, .reg 0x900044, .reg 0xF00018] q0 = true) (e0 : Rest q0 w v') : Rest q0 (World.safeObj w k) v' := by
  refine Rest.trans (Rest.mono (p := [.evt, .vlv, .lsw, .can, .dsp, .reg 0x100018, .reg 0x500028, .reg 0x600024, .reg 0x900030, .reg 0x900044, .reg 0xF00018]) ?_ hq) e0
  unfold World.safeObj
  try dsimp only
  repeat' first
    | with_reducible exact Rest.refl _ _ | with_reducible assumption | with_reducible refine World.dspFast_rest (by decide) ?_
    | with_reducible refine World.knockCan_rest (by decide) ?_ | with_reducible refine World.knockSwitch_rest (by decide) ?_
    | with_reducible refine World.knockValve_rest (by decide) ?_ | with_reducible refine Rest.ite ?_ ?_ | dsimp only | split | intro _

theorem World.safeUpdate_rest {q0 : List Part} {w : World} {v' : World} 
    (hq : partsLe [.evt, .vlv, .lsw, .can, .dsp, .reg 0x100018, .reg 0x500028, .reg 0x600024, .reg 0x900030, .reg 0x900044, .reg 0xF00018, .reg 0x1000044, .reg 0x1000074] q0 = true) (e0 : Rest q0 w v') : Rest q0 (World.safeUpdate w ) v' := by
  refine Rest.trans (Rest.mono (p := [.evt, .vlv, .lsw, .can, .dsp, .reg 0x100018, .reg 0x500028, .reg 0x600024, .reg 0x900030, .reg 0x900044, .reg 0xF00018, .reg 0x1000044, .reg 0x1000074]) ?_ hq) e0
  unfold World.safeUpdate
  try dsimp only
  repeat' first
    | with_reducible exact Rest.refl _ _ | with_reducible assumption | with_reducible refine Rest.wr _ _ _ _ (by decide) ?_
    | with_reducible refine Rest.when ?_ ?_ | with_reducible refine Rest.forAll ?_ ?_ | with_reducible refine World.fanDuties_rest (by decide) ?_
    | with_reducible refine World.safeObj_rest (by decide) ?_ | with_reducible refine Rest.ite ?_ ?_ | dsimp only | split | intro _

theorem World.tileLoad_rest {q0 : List Part} {w : World} {v' : World} {h : Half} {t : Nat}
    (hq : partsLe [.vlv, .reg 0x500080] q0 = true) (e0 : Rest q0 w v') : Rest q0 (World.tileLoad w h t) v' := by
  refine Rest.trans (Rest.mono (p := [.vlv, .reg 0x500080]) ?_ hq) e0
  unfold World.tileLoad
  try dsimp only
  repeat' first
    | with_reducible exact Rest.refl _ _ | with_reducible assumption | with_reducible refine World.loadTile_rest (by decide) ?_
    | with_reducible refine Rest.ite ?_ ?_ | dsimp only | split | intro _

theorem World.tileRetry_rest {q0 : List Part} {w : World} {v' : World} {t : Nat}
    (hq : partsLe [.vlv, .reg 0x500080] q0 = true) (e0 : Rest q0 w v') : Rest q0 (World.tileRetry w t) v' := by
  refine Rest.trans (Rest.mono (p := [.vlv, .reg 0x500080]) ?_ hq) e0
  unfold World.tileRetry
  try dsimp only
  repeat' first
    | with_reducible exact Rest.refl _ _ | with_reducible assumption | with_reducible refine Rest.when ?_ ?_ | with_reducible refine Rest.forAll ?_ ?_
    | with_reducible refine World.tileLoad_rest (by decide) ?_ | with_reducible refine Rest.ite ?_ ?_ | dsimp only | split | intro _

theorem World.updTim_rest {q0 : List Part} {w : World} {v' : World} {h : Half} {f : TimSt → TimSt}
    (hq : partsLe [.tim] q0 = true) (e0 : Rest q0 w v') : Rest q0 (World.updTim w h f) v' := by
  refine Rest.trans (Rest.mono (p := [.tim]) ?_ hq) e0
  unfold World.updTim
  try dsimp only
  repeat' first
    | with_reducible exact Rest.refl _ _ | with_reducible assumption | with_reducible refine Rest.ite ?_ ?_
    | with_reducible refine Rest.set_tim (by decide) ?_ _ | dsimp only | split | intro _

theorem World.timFollow_rest {q0 : List Part} {w : World} {v' : World} {h : Half}
    (hq : partsLe [.tim, .reg 0x200010, .reg 0x200018, .reg 0x200048, .reg 0x200050, .reg 0x200054] q0 = true) (e0 : Rest q0 w v') : Rest q0 (World.timFollow w h) v' := by
  refine Rest.trans (Rest.mono (p := [.tim, .reg 0x200010, .reg 0x200018, .reg 0x200048, .reg 0x200050, .reg 0x200054]) ?_ hq) e0
  unfold World.timFollow
  try dsimp only
  repeat' first
    | with_reducible exact Rest.refl _ _ | with_reducible assumption | with_reducible refine Rest.copyFields _ _ (by decide) ?_
    | with_reducible refine Rest.wr _ _ _ _ (by decide) ?_ | with_reducible refine Rest.foldl ?_ ?_
    | with_reducible refine World.updTim_rest (by decide) ?_ | with_reducible refine Rest.ite ?_ ?_ | dsimp only | split | intro _

theorem World.setTimState_rest {q0 : List Part} {w : World} {v' : World} {h : Half} {st : Nat}
    (hq : partsLe [.evt, .tim, .reg 0x100018, .reg 0x200018] q0 = true) (e0 : Rest q0 w v') : Rest q0 (World.setTimState w h st) v' := by
  refine Rest.trans (Rest.mono (p := [.evt, .tim, .reg 0x100018, .reg 0x200018]) ?_ hq) e0
  unfold World.setTimState
  try dsimp only
  repeat' first
    | with_reducible exact Rest.refl _ _ | with_reducible assumption | with_reducible refine Rest.wr _ _ _ _ (by decide) ?_
    | with_reducible refine Rest.raiseBoth _ _ (by decide) ?_ | with_reducible refine Rest.when ?_ ?_
    | with_reducible refine World.updTim_rest (by decide) ?_ | with_reducible refine Rest.ite ?_ ?_ | dsimp only | split | intro _

theorem World.setRef_rest {q0 : List Part} {w : World} {v' : World} {h : Half} {r : Nat}
    (hq : partsLe [.evt, .reg 0x100018, .reg 0x200018] q0 = true) (e0 : Rest q0 w v') : Rest q0 (World.setRef w h r) v' := by
  refine Rest.trans (Rest.mono (p := [.evt, .reg 0x100018, .reg 0x200018]) ?_ hq) e0
  unfold World.setRef
  try dsimp only
  repeat' first
    | with_reducible exact Rest.refl _ _ | with_reducible assumption | with_reducible refine Rest.wr _ _ _ _ (by decide) ?_
    | with_reducible refine Rest.raiseBoth _ _ (by decide) ?_ | with_reducible refine Rest.when ?_ ?_ | with_reducible refine Rest.ite ?_ ?_
    | dsimp only | split | intro _

theorem World.endSlew_rest {q0 : List Part} {w : World} {v' : World} {h : Half} {all : Bool}
    (hq : partsLe [.tim] q0 = true) (e0 : Rest q0 w v') : Rest q0 (World.endSlew w h all) v' := by
  refine Rest.trans (Rest.mono (p := [.tim]) ?_ hq) e0
  unfold World.endSlew
  try dsimp only
  repeat' first
    | with_reducible exact Rest.refl _ _ | with_reducible assumption | with_reducible refine World.updTim_rest (by decide) ?_
    | with_reducible refine Rest.ite ?_ ?_ | dsimp only | split | intro _

theorem World.decideStep_rest {q0 : List Part} {w : World} {v' : World} {h : Half} {x : Step_}
    (hq : partsLe [.tim, .reg 0x200018] q0 = true) (e0 : Rest q0 w v') : Rest q0 (World.decideStep w h x) v' := by
  refine Rest.trans (Rest.mono (p := [.tim, .reg 0x200018]) ?_ hq) e0
  unfold World.decideStep
  try dsimp only
  repeat' first
    | with_reducible exact Rest.refl _ _ | with_reducible assumption | with_reducible refine Rest.wr _ _ _ _ (by decide) ?_
    | with_reducible refine World.updTim_rest (by decide) ?_ | with_reducible refine Rest.ite ?_ ?_ | dsimp only | split | intro _

theorem World.takeOffset_rest {q0 : List Part} {w : World} {v' : World} {h : Half} {ofs : Int}
    (hq : partsLe [.evt, .tim, .reg 0x100018, .reg 0x200018, .reg 0x200048, .reg 0x200050, .reg 0x200054] q0 = true) (e0 : Rest q0 w v') : Rest q0 (World.takeOffset w h ofs) v' := by
  refine Rest.trans (Rest.mono (p := [.evt, .tim, .reg 0x100018, .reg 0x200018, .reg 0x200048, .reg 0x200050, .reg 0x200054]) ?_ hq) e0
  unfold World.takeOffset
  try dsimp only
  repeat' first
    | with_reducible exact Rest.refl _ _ | with_reducible assumption | with_reducible refine Rest.wrI _ _ _ _ (by decide) ?_
    | with_reducible refine Rest.bump _ _ _ (by decide) ?_ | with_reducible refine Rest.raiseBoth _ _ (by decide) ?_
    | with_reducible refine World.decideStep_rest (by decide) ?_ | with_reducible refine World.endSlew_rest (by decide) ?_
    | with_reducible refine World.setTimState_rest (by decide) ?_ | with_reducible refine World.updTim_rest (by decide) ?_
    | with_reducible refine Rest.ite ?_ ?_ | dsimp only | split | intro _

theorem World.refLost_rest {q0 : List Part} {w : World} {v' : World} {h : Half}
    (hq : partsLe [.evt, .tim, .reg 0x100018, .reg 0x200010, .reg 0x200018, .reg 0x200048, .reg 0x200050, .reg 0x200054] q0 = true) (e0 : Rest q0 w v') : Rest q0 (World.refLost w h) v' := by
  refine Rest.trans (Rest.mono (p := [.evt, .tim, .reg 0x100018, .reg 0x200010, .reg 0x200018, .reg 0x200048, .reg 0x200050, .reg 0x200054]) ?_ hq) e0
  unfold World.refLost
  try dsimp only
  repeat' first
    | with_reducible exact Rest.refl _ _ | with_reducible assumption | with_reducible refine Rest.when ?_ ?_
    | with_reducible refine World.endSlew_rest (by decide) ?_ | with_reducible refine World.setRef_rest (by decide) ?_
    | with_reducible refine World.setTimState_rest (by decide) ?_ | with_reducible refine World.timFollow_rest (by decide) ?_
    | with_reducible refine Rest.ite ?_ ?_ | dsimp only | split | intro _

theorem World.rejectEdge_rest {q0 : List Part} {w : World} {v' : World} {h : Half} {t : Nat}
    (hq : partsLe [.evt, .tim, .reg 0x100018, .reg 0x200054] q0 = true) (e0 : Rest q0 w v') : Rest q0 (World.rejectEdge w h t) v' := by
  refine Rest.trans (Rest.mono (p := [.evt, .tim, .reg 0x100018, .reg 0x200054]) ?_ hq) e0
  unfold World.rejectEdge
  try dsimp only
  repeat' first
    | with_reducible exact Rest.refl _ _ | with_reducible assumption | with_reducible refine Rest.bump _ _ _ (by decide) ?_
    | with_reducible refine Rest.raise _ _ _ (by decide) ?_ | with_reducible refine Rest.when ?_ ?_
    | with_reducible refine World.updTim_rest (by decide) ?_ | with_reducible refine Rest.ite ?_ ?_ | dsimp only | split | intro _

theorem World.timBloom_rest {q0 : List Part} {w : World} {v' : World} {h : Half}
    (hq : partsLe [.evt, .tim, .reg 0x100018, .reg 0x200010, .reg 0x200018, .reg 0x200048, .reg 0x200050, .reg 0x200054] q0 = true) (e0 : Rest q0 w v') : Rest q0 (World.timBloom w h) v' := by
  refine Rest.trans (Rest.mono (p := [.evt, .tim, .reg 0x100018, .reg 0x200010, .reg 0x200018, .reg 0x200048, .reg 0x200050, .reg 0x200054]) ?_ hq) e0
  unfold World.timBloom
  try dsimp only
  repeat' first
    | with_reducible exact Rest.refl _ _ | with_reducible assumption | with_reducible refine Rest.copyFields _ _ (by decide) ?_
    | with_reducible refine Rest.wr _ _ _ _ (by decide) ?_ | with_reducible refine Rest.foldl ?_ ?_
    | with_reducible refine World.setTimState_rest (by decide) ?_ | with_reducible refine World.updTim_rest (by decide) ?_
    | with_reducible refine Rest.ite ?_ ?_ | dsimp only | split | intro _

theorem World.storeTime_rest {q0 : List Part} {w : World} {v' : World} {h : Half}
    (hq : partsLe [.tim] q0 = true) (e0 : Rest q0 w v') : Rest q0 (World.storeTime w h) v' := by
  refine Rest.trans (Rest.mono (p := [.tim]) ?_ hq) e0
  unfold World.storeTime
  try dsimp only
  repeat' first
    | with_reducible exact Rest.refl _ _ | with_reducible assumption | with_reducible refine World.updTim_rest (by decide) ?_
    | with_reducible refine Rest.ite ?_ ?_ | dsimp only | split | intro _

theorem World.updTrk_rest {q0 : List Part} {w : World} {v' : World} {h : Half} {f : Tracks → Tracks}
    (hq : partsLe [.trk] q0 = true) (e0 : Rest q0 w v') : Rest q0 (World.updTrk w h f) v' := by
  refine Rest.trans (Rest.mono (p := [.trk]) ?_ hq) e0
  unfold World.updTrk
  try dsimp only
  repeat' first
    | with_reducible exact Rest.refl _ _ | with_reducible assumption | with_reducible refine Rest.ite ?_ ?_
    | with_reducible refine Rest.set_trk (by decide) ?_ _ | dsimp only | split | intro _

theorem World.birth_rest {q0 : List Part} {w : World} {v' : World} {h : Half} {t : Nat} {d : Det} {cyc : Nat} {veh : Int × Int × Int}
    (hq : partsLe [.evt, .trk, .reg 0x100018, .reg 0xE00014, .reg 0xE0002C] q0 = true) (e0 : Rest q0 w v') : Rest q0 (World.birth w h t d cyc veh) v' := by
  refine Rest.trans (Rest.mono (p := [.evt, .trk, .reg 0x100018, .reg 0xE00014, .reg 0xE0002C]) ?_ hq) e0
  unfold World.birth
  try dsimp only
  repeat' first
    | with_reducible exact Rest.refl _ _ | with_reducible assumption | with_reducible refine Rest.wr _ _ _ _ (by decide) ?_
    | with_reducible refine Rest.bump _ _ _ (by decide) ?_ | with_reducible refine Rest.raise _ _ _ (by decide) ?_
    | with_reducible refine Rest.when ?_ ?_ | with_reducible refine World.updTrk_rest (by decide) ?_ | with_reducible refine Rest.ite ?_ ?_
    | dsimp only | split | intro _

theorem World.confirm_rest {q0 : List Part} {w : World} {v' : World} {h : Half} {s cyc : Nat}
    (hq : partsLe [.evt, .trk, .reg 0x100018] q0 = true) (e0 : Rest q0 w v') : Rest q0 (World.confirm w h s cyc) v' := by
  refine Rest.trans (Rest.mono (p := [.evt, .trk, .reg 0x100018]) ?_ hq) e0
  unfold World.confirm
  try dsimp only
  repeat' first
    | with_reducible exact Rest.refl _ _ | with_reducible assumption | with_reducible refine Rest.raise _ _ _ (by decide) ?_
    | with_reducible refine World.updTrk_rest (by decide) ?_ | with_reducible refine Rest.ite ?_ ?_ | dsimp only | split | intro _

theorem World.deleteTrack_rest {q0 : List Part} {w : World} {v' : World} {h : Half} {s : Nat} {passed : Bool}
    (hq : partsLe [.evt, .trk, .reg 0x100018, .reg 0xE00018] q0 = true) (e0 : Rest q0 w v') : Rest q0 (World.deleteTrack w h s passed) v' := by
  refine Rest.trans (Rest.mono (p := [.evt, .trk, .reg 0x100018, .reg 0xE00018]) ?_ hq) e0
  unfold World.deleteTrack
  try dsimp only
  repeat' first
    | with_reducible exact Rest.refl _ _ | with_reducible assumption | with_reducible refine Rest.wr _ _ _ _ (by decide) ?_
    | with_reducible refine Rest.raise _ _ _ (by decide) ?_ | with_reducible refine World.updTrk_rest (by decide) ?_
    | with_reducible refine Rest.ite ?_ ?_ | dsimp only | split | intro _

theorem World.missStep_rest {q0 : List Part} {w : World} {v' : World} {h : Half} {t : Nat} {veh : Int × Int × Int} {hit : Bool} {s : Nat}
    (hq : partsLe [.evt, .trk, .reg 0x100018, .reg 0xE00018] q0 = true) (e0 : Rest q0 w v') : Rest q0 (World.missStep w h t veh hit s) v' := by
  refine Rest.trans (Rest.mono (p := [.evt, .trk, .reg 0x100018, .reg 0xE00018]) ?_ hq) e0
  unfold World.missStep
  try dsimp only
  repeat' first
    | with_reducible exact Rest.refl _ _ | with_reducible assumption | with_reducible refine World.deleteTrack_rest (by decide) ?_
    | with_reducible refine World.updTrk_rest (by decide) ?_ | with_reducible refine Rest.ite ?_ ?_ | dsimp only | split | intro _

theorem World.setStop_rest {q0 : List Part} {w : World} {v' : World} {h : Half} {k lvl mask : Nat}
    (hq : partsLe [.evt, .reg 0x100018, .reg 0xE00018] q0 = true) (e0 : Rest q0 w v') : Rest q0 (World.setStop w h k lvl mask) v' := by
  refine Rest.trans (Rest.mono (p := [.evt, .reg 0x100018, .reg 0xE00018]) ?_ hq) e0
  unfold World.setStop
  try dsimp only
  repeat' first
    | with_reducible exact Rest.refl _ _ | with_reducible assumption | with_reducible refine Rest.wr _ _ _ _ (by decide) ?_
    | with_reducible refine Rest.raise _ _ _ (by decide) ?_ | with_reducible refine Rest.when ?_ ?_ | with_reducible refine Rest.ite ?_ ?_
    | dsimp only | split | intro _

theorem World.stopOf_rest {q0 : List Part} {w : World} {v' : World} {h : Half} {k : Nat}
    (hq : partsLe [.evt, .trk, .reg 0x100018, .reg 0xE00018] q0 = true) (e0 : Rest q0 w v') : Rest q0 (World.stopOf w h k) v' := by
  refine Rest.trans (Rest.mono (p := [.evt, .trk, .reg 0x100018, .reg 0xE00018]) ?_ hq) e0
  unfold World.stopOf
  try dsimp only
  repeat' first
    | with_reducible exact Rest.refl _ _ | with_reducible assumption | with_reducible refine Rest.foldl ?_ ?_
    | with_reducible refine World.setStop_rest (by decide) ?_ | with_reducible refine World.updTrk_rest (by decide) ?_
    | with_reducible refine Rest.ite ?_ ?_ | dsimp only | split | intro _

theorem World.publishStore_rest {q0 : List Part} {w : World} {v' : World} {h : Half}
    (hq : partsLe [.dram, .trk, .reg 0xE00014, .reg 0xE00024] q0 = true) (e0 : Rest q0 w v') : Rest q0 (World.publishStore w h) v' := by
  refine Rest.trans (Rest.mono (p := [.dram, .trk, .reg 0xE00014, .reg 0xE00024]) ?_ hq) e0
  unfold World.publishStore
  try dsimp only
  repeat' first
    | with_reducible exact Rest.refl _ _ | with_reducible assumption | with_reducible refine Rest.wr _ _ _ _ (by decide) ?_
    | with_reducible refine Rest.foldl ?_ ?_ | with_reducible refine World.updTrk_rest (by decide) ?_ | with_reducible refine Rest.ite ?_ ?_
    | with_reducible refine Rest.set_dram (by decide) ?_ _ | dsimp only | split | intro _

theorem World.mirrorTrk_rest {q0 : List Part} {w : World} {v' : World} {h : Half}
    (hq : partsLe [.dram, .trk, .reg 0xE00014, .reg 0xE00018, .reg 0xE0001C, .reg 0xE00020, .reg 0xE00024] q0 = true) (e0 : Rest q0 w v') : Rest q0 (World.mirrorTrk w h) v' := by
  refine Rest.trans (Rest.mono (p := [.dram, .trk, .reg 0xE00014, .reg 0xE00018, .reg 0xE0001C, .reg 0xE00020, .reg 0xE00024]) ?_ hq) e0
  unfold World.mirrorTrk
  try dsimp only
  repeat' first
    | with_reducible exact Rest.refl _ _ | with_reducible assumption | with_reducible refine Rest.copyFields _ _ (by decide) ?_
    | with_reducible refine Rest.wr _ _ _ _ (by decide) ?_ | with_reducible refine Rest.foldl ?_ ?_
    | with_reducible refine World.publishStore_rest (by decide) ?_ | with_reducible refine World.updTrk_rest (by decide) ?_
    | with_reducible refine Rest.ite ?_ ?_ | dsimp only | split | intro _

theorem World.setLevels_rest {q0 : List Part} {w : World} {v' : World} {h : Half}
    (hq : partsLe [.trk] q0 = true) (e0 : Rest q0 w v') : Rest q0 (World.setLevels w h) v' := by
  refine Rest.trans (Rest.mono (p := [.trk]) ?_ hq) e0
  unfold World.setLevels
  try dsimp only
  repeat' first
    | with_reducible exact Rest.refl _ _ | with_reducible assumption | with_reducible refine World.updTrk_rest (by decide) ?_
    | with_reducible refine Rest.ite ?_ ?_ | dsimp only | split | intro _

theorem World.applyDets_rest {q0 : List Part} {w : World} {v' : World} {h : Half} {t cyc : Nat} {veh : Int × Int × Int} {late : Bool} {dets : List Det}
    (hq : partsLe [.evt, .trk, .reg 0x100018, .reg 0xE00014, .reg 0xE0002C] q0 = true) (e0 : Rest q0 w v') : Rest q0 (World.applyDets w h t cyc veh late dets).1 v' := by
  refine Rest.trans (Rest.mono (p := [.evt, .trk, .reg 0x100018, .reg 0xE00014, .reg 0xE0002C]) ?_ hq) e0
  unfold World.applyDets
  try dsimp only
  repeat' first
    | with_reducible exact Rest.refl _ _ | with_reducible assumption | with_reducible refine Rest.forAll ?_ ?_
    | with_reducible refine World.birth_rest (by decide) ?_ | with_reducible refine World.confirm_rest (by decide) ?_
    | with_reducible refine World.updTrk_rest (by decide) ?_ | with_reducible refine Rest.ite ?_ ?_ | dsimp only | split | intro _

theorem World.trkTakeover_rest {q0 : List Part} {w : World} {v' : World} {h : Half}
    (hq : partsLe [.trk] q0 = true) (e0 : Rest q0 w v') : Rest q0 (World.trkTakeover w h) v' := by
  refine Rest.trans (Rest.mono (p := [.trk]) ?_ hq) e0
  unfold World.trkTakeover
  try dsimp only
  repeat' first
    | with_reducible exact Rest.refl _ _ | with_reducible assumption | with_reducible refine World.updTrk_rest (by decide) ?_
    | with_reducible refine Rest.ite ?_ ?_ | dsimp only | split | intro _

theorem World.trkSplit_rest {q0 : List Part} {w : World} {v' : World} {h : Half}
    (hq : partsLe [.evt, .trk, .reg 0x100018, .reg 0xE00014] q0 = true) (e0 : Rest q0 w v') : Rest q0 (World.trkSplit w h) v' := by
  refine Rest.trans (Rest.mono (p := [.evt, .trk, .reg 0x100018, .reg 0xE00014]) ?_ hq) e0
  unfold World.trkSplit
  try dsimp only
  repeat' first
    | with_reducible exact Rest.refl _ _ | with_reducible assumption | with_reducible refine Rest.wr _ _ _ _ (by decide) ?_
    | with_reducible refine Rest.raise _ _ _ (by decide) ?_ | with_reducible refine World.updTrk_rest (by decide) ?_
    | with_reducible refine Rest.ite ?_ ?_ | dsimp only | split | intro _

theorem World.trkJoin_rest {q0 : List Part} {w : World} {v' : World} {h : Half}
    (hq : partsLe [.evt, .dram, .trk, .reg 0x100018, .reg 0xE00014, .reg 0xE00018, .reg 0xE0001C, .reg 0xE00020, .reg 0xE00024] q0 = true) (e0 : Rest q0 w v') : Rest q0 (World.trkJoin w h) v' := by
  refine Rest.trans (Rest.mono (p := [.evt, .dram, .trk, .reg 0x100018, .reg 0xE00014, .reg 0xE00018, .reg 0xE0001C, .reg 0xE00020, .reg 0xE00024]) ?_ hq) e0
  unfold World.trkJoin
  try dsimp only
  repeat' first
    | with_reducible exact Rest.refl _ _ | with_reducible assumption | with_reducible refine Rest.wr _ _ _ _ (by decide) ?_
    | with_reducible refine Rest.raise _ _ _ (by decide) ?_ | with_reducible refine World.mirrorTrk_rest (by decide) ?_
    | with_reducible refine Rest.ite ?_ ?_ | dsimp only | split | intro _

end Sys2Proof.Machine
end

