-- ==== Sys2Proof/Laws/RestOwn.lean ====
section
/-!
SUPPORT. What each operation of these units leaves alone.
-/
set_option linter.unreachableTactic false
set_option linter.unusedTactic false

namespace Sys2Proof.Machine

theorem World.copyFields_rest {q : List Part} {w v : World} {h : Half} {l : List Field}
    (hl : l.all (fun f => partIn q (.reg f.reg) && decide (f.reg < 2 ^ 25)) = true) (e : Rest q w v) :
    Rest q (w.copyFields h l) v := Rest.copyFields _ _ hl e

theorem World.ownResult_rest {q0 : List Part} {w : World} {v' : World} {h : Half} {obj res : Nat} {busy : Bool}
    (hq : partsLe [.reg 0x30010C] q0 = true) (e0 : Rest q0 w v') : Rest q0 (World.ownResult w h obj res busy) v' := by
  refine Rest.trans (Rest.mono (p := [.reg 0x30010C]) ?_ hq) e0
  unfold World.ownResult
  try dsimp only
  repeat' first
    | with_reducible exact Rest.refl _ _ | with_reducible assumption | with_reducible refine Rest.wr _ _ _ _ (by decide) ?_
    | with_reducible refine Rest.ite ?_ ?_ | dsimp only | split | intro _

theorem State.leaves_rest {q0 : List Part} {s : State} {v' : World} {k : Nat}
    (hq : partsLe [.evt, .dsp, .reg 0x100018, .reg 0xF00018] q0 = true) (e0 : Rest q0 s.w v') : Rest q0 (State.leaves s k).w v' := by
  refine Rest.trans (Rest.mono (p := [.evt, .dsp, .reg 0x100018, .reg 0xF00018]) ?_ hq) e0
  unfold State.leaves
  try dsimp only
  repeat' first
    | with_reducible exact Rest.refl _ _ | with_reducible assumption | with_reducible refine Rest.when ?_ ?_ | with_reducible refine Rest.onW ?_ ?_
    | with_reducible refine Rest.onOwn ?_ | with_reducible refine Rest.whenS ?_ ?_ | with_reducible refine Rest.forAllS ?_ ?_
    | with_reducible refine Rest.iteS ?_ ?_ | with_reducible refine World.copyLost_rest (by decide) ?_ | with_reducible refine Rest.ite ?_ ?_
    | dsimp only | split | intro _

theorem State.orphan_rest {q0 : List Part} {s : State} {v' : World} {k : Nat} {last : Half}
    (hq : partsLe [.evt, .dsp, .reg 0x100018, .reg 0xF00018] q0 = true) (e0 : Rest q0 s.w v') : Rest q0 (State.orphan s k last).w v' := by
  refine Rest.trans (Rest.mono (p := [.evt, .dsp, .reg 0x100018, .reg 0xF00018]) ?_ hq) e0
  unfold State.orphan
  try dsimp only
  repeat' first
    | with_reducible exact Rest.refl _ _ | with_reducible assumption | with_reducible refine Rest.raiseBoth _ _ (by decide) ?_
    | with_reducible refine Rest.onW ?_ ?_ | with_reducible refine Rest.onOwn ?_ | with_reducible refine Rest.whenS ?_ ?_
    | with_reducible refine Rest.forAllS ?_ ?_ | with_reducible refine Rest.iteS ?_ ?_ | with_reducible refine State.leaves_rest (by decide) ?_
    | with_reducible refine Rest.ite ?_ ?_ | dsimp only | split | intro _

theorem State.claiming_rest {q0 : List Part} {s : State} {v' : World} {k : Nat} {dst : Half} {giver : Option Half}
    (hq : partsLe [] q0 = true) (e0 : Rest q0 s.w v') : Rest q0 (State.claiming s k dst giver).w v' := by
  refine Rest.trans (Rest.mono (p := []) ?_ hq) e0
  unfold State.claiming
  try dsimp only
  repeat' first
    | with_reducible exact Rest.refl _ _ | with_reducible assumption | with_reducible refine Rest.onW ?_ ?_ | with_reducible refine Rest.onOwn ?_
    | with_reducible refine Rest.whenS ?_ ?_ | with_reducible refine Rest.forAllS ?_ ?_ | with_reducible refine Rest.iteS ?_ ?_
    | with_reducible refine Rest.ite ?_ ?_ | dsimp only | split | intro _

theorem State.owned_rest {q0 : List Part} {s : State} {v' : World} {k : Nat} {h : Half}
    (hq : partsLe [] q0 = true) (e0 : Rest q0 s.w v') : Rest q0 (State.owned s k h).w v' := by
  refine Rest.trans (Rest.mono (p := []) ?_ hq) e0
  unfold State.owned
  try dsimp only
  repeat' first
    | with_reducible exact Rest.refl _ _ | with_reducible assumption | with_reducible refine Rest.onW ?_ ?_ | with_reducible refine Rest.onOwn ?_
    | with_reducible refine Rest.whenS ?_ ?_ | with_reducible refine Rest.forAllS ?_ ?_ | with_reducible refine Rest.iteS ?_ ?_
    | with_reducible refine Rest.ite ?_ ?_ | dsimp only | split | intro _

theorem World.claimLost_rest {q0 : List Part} {w : World} {v' : World} {h : Half} {k : Nat}
    (hq : partsLe [.evt, .reg 0x100018, .reg 0x30010C] q0 = true) (e0 : Rest q0 w v') : Rest q0 (World.claimLost w h k) v' := by
  refine Rest.trans (Rest.mono (p := [.evt, .reg 0x100018, .reg 0x30010C]) ?_ hq) e0
  unfold World.claimLost
  try dsimp only
  repeat' first
    | with_reducible exact Rest.refl _ _ | with_reducible assumption | with_reducible refine Rest.raise _ _ _ (by decide) ?_
    | with_reducible refine World.ownResult_rest (by decide) ?_ | with_reducible refine Rest.ite ?_ ?_ | dsimp only | split | intro _

theorem State.claim_rest {q0 : List Part} {s : State} {v' : World} {h : Half} {k : Nat}
    (hq : partsLe [.evt, .reg 0x100018, .reg 0x30010C] q0 = true) (e0 : Rest q0 s.w v') : Rest q0 (State.claim s h k).w v' := by
  refine Rest.trans (Rest.mono (p := [.evt, .reg 0x100018, .reg 0x30010C]) ?_ hq) e0
  unfold State.claim
  try dsimp only
  repeat' first
    | with_reducible exact Rest.refl _ _ | with_reducible assumption | with_reducible refine Rest.onW ?_ ?_ | with_reducible refine Rest.onOwn ?_
    | with_reducible refine Rest.whenS ?_ ?_ | with_reducible refine Rest.forAllS ?_ ?_ | with_reducible refine Rest.iteS ?_ ?_
    | with_reducible refine State.claiming_rest (by decide) ?_ | with_reducible refine World.claimLost_rest (by decide) ?_
    | with_reducible refine World.ownResult_rest (by decide) ?_ | with_reducible refine Rest.ite ?_ ?_ | dsimp only | split | intro _

theorem State.settle_rest {q0 : List Part} {s : State} {v' : World} {h : Half} {k : Nat}
    (hq : partsLe [.evt, .reg 0x100018, .reg 0x30010C] q0 = true) (e0 : Rest q0 s.w v') : Rest q0 (State.settle s h k).w v' := by
  refine Rest.trans (Rest.mono (p := [.evt, .reg 0x100018, .reg 0x30010C]) ?_ hq) e0
  unfold State.settle
  try dsimp only
  repeat' first
    | with_reducible exact Rest.refl _ _ | with_reducible assumption | with_reducible refine Rest.raiseBoth _ _ (by decide) ?_
    | with_reducible refine Rest.when ?_ ?_ | with_reducible refine Rest.onW ?_ ?_ | with_reducible refine Rest.onOwn ?_
    | with_reducible refine Rest.whenS ?_ ?_ | with_reducible refine Rest.forAllS ?_ ?_ | with_reducible refine Rest.iteS ?_ ?_
    | with_reducible refine World.ownResult_rest (by decide) ?_ | with_reducible refine Rest.ite ?_ ?_ | dsimp only | split | intro _

theorem State.release_rest {q0 : List Part} {s : State} {v' : World} {h : Half} {k : Nat}
    (hq : partsLe [.evt, .dsp, .reg 0x100018, .reg 0x30010C, .reg 0xF00018] q0 = true) (e0 : Rest q0 s.w v') : Rest q0 (State.release s h k).w v' := by
  refine Rest.trans (Rest.mono (p := [.evt, .dsp, .reg 0x100018, .reg 0x30010C, .reg 0xF00018]) ?_ hq) e0
  unfold State.release
  try dsimp only
  repeat' first
    | with_reducible exact Rest.refl _ _ | with_reducible assumption | with_reducible refine Rest.onW ?_ ?_ | with_reducible refine Rest.onOwn ?_
    | with_reducible refine Rest.whenS ?_ ?_ | with_reducible refine Rest.forAllS ?_ ?_ | with_reducible refine Rest.iteS ?_ ?_
    | with_reducible refine State.orphan_rest (by decide) ?_ | with_reducible refine World.ownResult_rest (by decide) ?_
    | with_reducible refine Rest.ite ?_ ?_ | dsimp only | split | intro _

theorem State.handover_rest {q0 : List Part} {s : State} {v' : World} {h : Half} {k : Nat}
    (hq : partsLe [.evt, .dsp, .reg 0x100018, .reg 0x30010C, .reg 0xF00018] q0 = true) (e0 : Rest q0 s.w v') : Rest q0 (State.handover s h k).w v' := by
  refine Rest.trans (Rest.mono (p := [.evt, .dsp, .reg 0x100018, .reg 0x30010C, .reg 0xF00018]) ?_ hq) e0
  unfold State.handover
  try dsimp only
  repeat' first
    | with_reducible exact Rest.refl _ _ | with_reducible assumption | with_reducible refine Rest.onW ?_ ?_ | with_reducible refine Rest.onOwn ?_
    | with_reducible refine Rest.whenS ?_ ?_ | with_reducible refine Rest.forAllS ?_ ?_ | with_reducible refine Rest.iteS ?_ ?_
    | with_reducible refine State.claiming_rest (by decide) ?_ | with_reducible refine State.leaves_rest (by decide) ?_
    | with_reducible refine World.ownResult_rest (by decide) ?_ | with_reducible refine Rest.ite ?_ ?_ | dsimp only | split | intro _

theorem State.handoverDone_rest {q0 : List Part} {s : State} {v' : World} {k : Nat}
    (hq : partsLe [.evt, .reg 0x100018, .reg 0x30010C] q0 = true) (e0 : Rest q0 s.w v') : Rest q0 (State.handoverDone s k).w v' := by
  refine Rest.trans (Rest.mono (p := [.evt, .reg 0x100018, .reg 0x30010C]) ?_ hq) e0
  unfold State.handoverDone
  try dsimp only
  repeat' first
    | with_reducible exact Rest.refl _ _ | with_reducible assumption | with_reducible refine Rest.raiseBoth _ _ (by decide) ?_
    | with_reducible refine Rest.when ?_ ?_ | with_reducible refine Rest.onW ?_ ?_ | with_reducible refine Rest.onOwn ?_
    | with_reducible refine Rest.whenS ?_ ?_ | with_reducible refine Rest.forAllS ?_ ?_ | with_reducible refine Rest.iteS ?_ ?_
    | with_reducible refine State.owned_rest (by decide) ?_ | with_reducible refine State.settle_rest (by decide) ?_
    | with_reducible refine Rest.ite ?_ ?_ | dsimp only | split | intro _

theorem State.claimAll_rest {q0 : List Part} {s : State} {v' : World} {h : Half} {l : List Nat}
    (hq : partsLe [.reg 0x30010C] q0 = true) (e0 : Rest q0 s.w v') : Rest q0 (State.claimAll s h l).w v' := by
  refine Rest.trans (Rest.mono (p := [.reg 0x30010C]) ?_ hq) e0
  unfold State.claimAll
  try dsimp only
  repeat' first
    | with_reducible exact Rest.refl _ _ | with_reducible assumption | with_reducible refine Rest.forAll ?_ ?_ | with_reducible refine Rest.onW ?_ ?_
    | with_reducible refine Rest.onOwn ?_ | with_reducible refine Rest.whenS ?_ ?_ | with_reducible refine Rest.forAllS ?_ ?_
    | with_reducible refine Rest.iteS ?_ ?_ | with_reducible refine State.claiming_rest (by decide) ?_
    | with_reducible refine World.ownResult_rest (by decide) ?_ | with_reducible refine Rest.ite ?_ ?_ | dsimp only | split | intro _

theorem State.handoverAll_rest {q0 : List Part} {s : State} {v' : World} {h : Half}
    (hq : partsLe [.evt, .dsp, .reg 0x100018, .reg 0x30010C, .reg 0xF00018] q0 = true) (e0 : Rest q0 s.w v') : Rest q0 (State.handoverAll s h).w v' := by
  refine Rest.trans (Rest.mono (p := [.evt, .dsp, .reg 0x100018, .reg 0x30010C, .reg 0xF00018]) ?_ hq) e0
  unfold State.handoverAll
  try dsimp only
  repeat' first
    | with_reducible exact Rest.refl _ _ | with_reducible assumption | with_reducible refine Rest.raiseBoth _ _ (by decide) ?_
    | with_reducible refine Rest.forAll ?_ ?_ | with_reducible refine Rest.onW ?_ ?_ | with_reducible refine Rest.onOwn ?_
    | with_reducible refine Rest.whenS ?_ ?_ | with_reducible refine Rest.forAllS ?_ ?_ | with_reducible refine Rest.iteS ?_ ?_
    | with_reducible refine State.claiming_rest (by decide) ?_ | with_reducible refine State.leaves_rest (by decide) ?_
    | with_reducible refine World.ownResult_rest (by decide) ?_ | with_reducible refine Rest.ite ?_ ?_ | dsimp only | split | intro _

theorem State.handoverAllNow_rest {q0 : List Part} {s : State} {v' : World} {h : Half}
    (hq : partsLe [.evt, .dsp, .reg 0x100018, .reg 0x30010C, .reg 0xF00018] q0 = true) (e0 : Rest q0 s.w v') : Rest q0 (State.handoverAllNow s h).w v' := by
  refine Rest.trans (Rest.mono (p := [.evt, .dsp, .reg 0x100018, .reg 0x30010C, .reg 0xF00018]) ?_ hq) e0
  unfold State.handoverAllNow
  try dsimp only
  repeat' first
    | with_reducible exact Rest.refl _ _ | with_reducible assumption | with_reducible refine Rest.forAll ?_ ?_ | with_reducible refine Rest.onW ?_ ?_
    | with_reducible refine Rest.onOwn ?_ | with_reducible refine Rest.whenS ?_ ?_ | with_reducible refine Rest.forAllS ?_ ?_
    | with_reducible refine Rest.iteS ?_ ?_ | with_reducible refine State.handoverAll_rest (by decide) ?_
    | with_reducible refine State.handoverDone_rest (by decide) ?_ | with_reducible refine Rest.ite ?_ ?_ | dsimp only | split | intro _

theorem State.serve_rest {q0 : List Part} {s : State} {v' : World} {h : Half}
    (hq : partsLe [.evt, .flx, .reg 0x100018, .reg 0xA00140, .reg 0xB00018, .reg 0x120002C] q0 = true) (e0 : Rest q0 s.w v') : Rest q0 (State.serve s h).w v' := by
  refine Rest.trans (Rest.mono (p := [.evt, .flx, .reg 0x100018, .reg 0xA00140, .reg 0xB00018, .reg 0x120002C]) ?_ hq) e0
  unfold State.serve
  try dsimp only
  repeat' first
    | with_reducible exact Rest.refl _ _ | with_reducible assumption | with_reducible refine Rest.onW ?_ ?_ | with_reducible refine Rest.onOwn ?_
    | with_reducible refine Rest.whenS ?_ ?_ | with_reducible refine Rest.forAllS ?_ ?_ | with_reducible refine Rest.iteS ?_ ?_
    | with_reducible refine State.replayJournal_rest (by decide) ?_ | with_reducible refine World.engines_rest (by decide) ?_
    | with_reducible refine World.flxServe_rest (by decide) ?_ | with_reducible refine Rest.ite ?_ ?_ | dsimp only | split | intro _

theorem State.serverReq_rest {q0 : List Part} {s : State} {v' : World} {h : Half}
    (hq : partsLe [.evt, .flx, .reg 0x100018, .reg 0xA00140, .reg 0xB00018, .reg 0x120002C] q0 = true) (e0 : Rest q0 s.w v') : Rest q0 (State.serverReq s h).w v' := by
  refine Rest.trans (Rest.mono (p := [.evt, .flx, .reg 0x100018, .reg 0xA00140, .reg 0xB00018, .reg 0x120002C]) ?_ hq) e0
  unfold State.serverReq
  try dsimp only
  repeat' first
    | with_reducible exact Rest.refl _ _ | with_reducible assumption | with_reducible refine Rest.when ?_ ?_ | with_reducible refine Rest.onW ?_ ?_
    | with_reducible refine Rest.onOwn ?_ | with_reducible refine Rest.whenS ?_ ?_ | with_reducible refine Rest.forAllS ?_ ?_
    | with_reducible refine Rest.iteS ?_ ?_ | with_reducible refine State.serve_rest (by decide) ?_ | with_reducible refine Rest.ite ?_ ?_
    | dsimp only | split | intro _

theorem State.expire_rest {q0 : List Part} {s : State} {v' : World} {k : Nat}
    (hq : partsLe [.evt, .vlv, .lsw, .can, .pwr, .dsp, .reg 0x100018, .reg 0x500028, .reg 0x600024, .reg 0x600030, .reg 0x700080, .reg 0x900030, .reg 0x900044, .reg 0xF00018, .reg 0x1000020, .reg 0x1000044] q0 = true) (e0 : Rest q0 s.w v') : Rest q0 (State.expire s k).w v' := by
  refine Rest.trans (Rest.mono (p := [.evt, .vlv, .lsw, .can, .pwr, .dsp, .reg 0x100018, .reg 0x500028, .reg 0x600024, .reg 0x600030, .reg 0x700080, .reg 0x900030, .reg 0x900044, .reg 0xF00018, .reg 0x1000020, .reg 0x1000044]) ?_ hq) e0
  unfold State.expire
  try dsimp only
  repeat' first
    | with_reducible exact Rest.refl _ _ | with_reducible assumption | with_reducible refine Rest.raise _ _ _ (by decide) ?_
    | with_reducible refine Rest.when ?_ ?_ | with_reducible refine Rest.onW ?_ ?_ | with_reducible refine Rest.onOwn ?_
    | with_reducible refine Rest.whenS ?_ ?_ | with_reducible refine Rest.forAllS ?_ ?_ | with_reducible refine Rest.iteS ?_ ?_
    | with_reducible refine World.greenObj_rest (by decide) ?_ | with_reducible refine Rest.ite ?_ ?_ | dsimp only | split | intro _

theorem State.setOrphanT_rest {q0 : List Part} {s : State} {v' : World} {t : Nat}
    (hq : partsLe [.evt, .vlv, .lsw, .can, .pwr, .dsp, .reg 0x100018, .reg 0x300114, .reg 0x500028, .reg 0x600024, .reg 0x600030, .reg 0x700080, .reg 0x900030, .reg 0x900044, .reg 0xF00018, .reg 0x1000020, .reg 0x1000044] q0 = true) (e0 : Rest q0 s.w v') : Rest q0 (State.setOrphanT s t).w v' := by
  refine Rest.trans (Rest.mono (p := [.evt, .vlv, .lsw, .can, .pwr, .dsp, .reg 0x100018, .reg 0x300114, .reg 0x500028, .reg 0x600024, .reg 0x600030, .reg 0x700080, .reg 0x900030, .reg 0x900044, .reg 0xF00018, .reg 0x1000020, .reg 0x1000044]) ?_ hq) e0
  unfold State.setOrphanT
  try dsimp only
  repeat' first
    | with_reducible exact Rest.refl _ _ | with_reducible assumption | with_reducible refine Rest.wrBoth _ _ _ (by decide) ?_
    | with_reducible refine Rest.forAll ?_ ?_ | with_reducible refine Rest.onW ?_ ?_ | with_reducible refine Rest.onOwn ?_
    | with_reducible refine Rest.whenS ?_ ?_ | with_reducible refine Rest.forAllS ?_ ?_ | with_reducible refine Rest.iteS ?_ ?_
    | with_reducible refine State.expire_rest (by decide) ?_ | with_reducible refine Rest.ite ?_ ?_ | dsimp only | split | intro _

theorem State.fallen_rest {q0 : List Part} {s : State} {v' : World} {h : Half}
    (hq : partsLe [.evt, .vlv, .lsw, .can, .pwr, .dsp, .reg 0x100018, .reg 0x30010C, .reg 0x500028, .reg 0x500080, .reg 0x600024, .reg 0x600030, .reg 0x700080, .reg 0x900030, .reg 0x900044, .reg 0xB00018, .reg 0xF00018, .reg 0x1000020, .reg 0x1000044] q0 = true) (e0 : Rest q0 s.w v') : Rest q0 (State.fallen s h).w v' := by
  refine Rest.trans (Rest.mono (p := [.evt, .vlv, .lsw, .can, .pwr, .dsp, .reg 0x100018, .reg 0x30010C, .reg 0x500028, .reg 0x500080, .reg 0x600024, .reg 0x600030, .reg 0x700080, .reg 0x900030, .reg 0x900044, .reg 0xB00018, .reg 0xF00018, .reg 0x1000020, .reg 0x1000044]) ?_ hq) e0
  unfold State.fallen
  try dsimp only
  repeat' first
    | with_reducible exact Rest.refl _ _ | with_reducible assumption | with_reducible refine Rest.when ?_ ?_ | with_reducible refine Rest.forAll ?_ ?_
    | with_reducible refine Rest.onW ?_ ?_ | with_reducible refine Rest.onOwn ?_ | with_reducible refine Rest.whenS ?_ ?_
    | with_reducible refine Rest.forAllS ?_ ?_ | with_reducible refine Rest.iteS ?_ ?_ | with_reducible refine State.orphan_rest (by decide) ?_
    | with_reducible refine World.dropTileLock_rest (by decide) ?_ | with_reducible refine World.engines_rest (by decide) ?_
    | with_reducible refine World.greenObj_rest (by decide) ?_ | with_reducible refine World.ownResult_rest (by decide) ?_
    | with_reducible refine World.tileRetry_rest (by decide) ?_ | with_reducible refine Rest.ite ?_ ?_ | dsimp only | split | intro _

theorem State.fall_rest {q0 : List Part} {s : State} {v' : World} {h : Half} {c : LowCause}
    (hq : partsLe [.evt, .vlv, .lsw, .can, .pwr, .dsp, .reg 0x100018, .reg 0x30010C, .reg 0x500028, .reg 0x500080, .reg 0x600024, .reg 0x600030, .reg 0x700080, .reg 0x900030, .reg 0x900044, .reg 0xB00018, .reg 0xF00018, .reg 0x1000020, .reg 0x1000044] q0 = true) (e0 : Rest q0 s.w v') : Rest q0 (State.fall s h c).w v' := by
  refine Rest.trans (Rest.mono (p := [.evt, .vlv, .lsw, .can, .pwr, .dsp, .reg 0x100018, .reg 0x30010C, .reg 0x500028, .reg 0x500080, .reg 0x600024, .reg 0x600030, .reg 0x700080, .reg 0x900030, .reg 0x900044, .reg 0xB00018, .reg 0xF00018, .reg 0x1000020, .reg 0x1000044]) ?_ hq) e0
  unfold State.fall
  try dsimp only
  repeat' first
    | with_reducible exact Rest.refl _ _ | with_reducible assumption | with_reducible refine Rest.when ?_ ?_ | with_reducible refine Rest.onW ?_ ?_
    | with_reducible refine Rest.onOwn ?_ | with_reducible refine Rest.whenS ?_ ?_ | with_reducible refine Rest.forAllS ?_ ?_
    | with_reducible refine Rest.iteS ?_ ?_ | with_reducible refine State.fallen_rest (by decide) ?_ | with_reducible refine Rest.ite ?_ ?_
    | dsimp only | split | intro _

theorem State.hold_rest {q0 : List Part} {s : State} {v' : World} {h : Half} {cause : Nat}
    (hq : partsLe [.run, .evt, .vlv, .lsw, .can, .pwr, .dsp, .reg 0x100018, .reg 0x30010C, .reg 0x500028, .reg 0x500080, .reg 0x600024, .reg 0x600030, .reg 0x700080, .reg 0x900030, .reg 0x900044, .reg 0xB00018, .reg 0xF00018, .reg 0x1000020, .reg 0x1000044] q0 = true) (e0 : Rest q0 s.w v') : Rest q0 (State.hold s h cause).w v' := by
  refine Rest.trans (Rest.mono (p := [.run, .evt, .vlv, .lsw, .can, .pwr, .dsp, .reg 0x100018, .reg 0x30010C, .reg 0x500028, .reg 0x500080, .reg 0x600024, .reg 0x600030, .reg 0x700080, .reg 0x900030, .reg 0x900044, .reg 0xB00018, .reg 0xF00018, .reg 0x1000020, .reg 0x1000044]) ?_ hq) e0
  unfold State.hold
  try dsimp only
  repeat' first
    | with_reducible exact Rest.refl _ _ | with_reducible assumption | with_reducible refine Rest.onW ?_ ?_ | with_reducible refine Rest.onOwn ?_
    | with_reducible refine Rest.whenS ?_ ?_ | with_reducible refine Rest.forAllS ?_ ?_ | with_reducible refine Rest.iteS ?_ ?_
    | with_reducible refine State.fall_rest (by decide) ?_ | with_reducible refine Rest.ite ?_ ?_
    | with_reducible refine Rest.set_run (by decide) ?_ _ | dsimp only | split | intro _

theorem State.resetHalf_rest {q0 : List Part} {s : State} {v' : World} {h : Half} {cause : Nat}
    (hq : partsLe [.run, .evt, .vlv, .lsw, .can, .pwr, .dsp, .reg 0x100018, .reg 0x30010C, .reg 0x500028, .reg 0x500080, .reg 0x600024, .reg 0x600030, .reg 0x700080, .reg 0x900030, .reg 0x900044, .reg 0xB00018, .reg 0xF00018, .reg 0x1000020, .reg 0x1000044] q0 = true) (e0 : Rest q0 s.w v') : Rest q0 (State.resetHalf s h cause).w v' := by
  refine Rest.trans (Rest.mono (p := [.run, .evt, .vlv, .lsw, .can, .pwr, .dsp, .reg 0x100018, .reg 0x30010C, .reg 0x500028, .reg 0x500080, .reg 0x600024, .reg 0x600030, .reg 0x700080, .reg 0x900030, .reg 0x900044, .reg 0xB00018, .reg 0xF00018, .reg 0x1000020, .reg 0x1000044]) ?_ hq) e0
  unfold State.resetHalf
  try dsimp only
  repeat' first
    | with_reducible exact Rest.refl _ _ | with_reducible assumption | with_reducible refine Rest.when ?_ ?_ | with_reducible refine Rest.onW ?_ ?_
    | with_reducible refine Rest.onOwn ?_ | with_reducible refine Rest.whenS ?_ ?_ | with_reducible refine Rest.forAllS ?_ ?_
    | with_reducible refine Rest.iteS ?_ ?_ | with_reducible refine State.hold_rest (by decide) ?_ | with_reducible refine Rest.ite ?_ ?_ | dsimp only
    | split | intro _

theorem World.aliveRise_rest {q0 : List Part} {w : World} {v' : World} {h : Half}
    (hq : partsLe [.xng] q0 = true) (e0 : Rest q0 w v') : Rest q0 (World.aliveRise w h) v' := by
  refine Rest.trans (Rest.mono (p := [.xng]) ?_ hq) e0
  unfold World.aliveRise
  try dsimp only
  repeat' first
    | with_reducible exact Rest.refl _ _ | with_reducible assumption | with_reducible refine Rest.ite ?_ ?_
    | with_reducible refine Rest.set_xng (by decide) ?_ _ | dsimp only | split | intro _

theorem State.fence_rest {q0 : List Part} {s : State} {v' : World} {h : Half}
    (hq : partsLe [.run, .evt, .vlv, .lsw, .can, .pwr, .dsp, .reg 0x100018, .reg 0x30010C, .reg 0x500028, .reg 0x500080, .reg 0x600024, .reg 0x600030, .reg 0x700080, .reg 0x900030, .reg 0x900044, .reg 0xB00018, .reg 0xF00018, .reg 0x1000020, .reg 0x1000044] q0 = true) (e0 : Rest q0 s.w v') : Rest q0 (State.fence s h).w v' := by
  refine Rest.trans (Rest.mono (p := [.run, .evt, .vlv, .lsw, .can, .pwr, .dsp, .reg 0x100018, .reg 0x30010C, .reg 0x500028, .reg 0x500080, .reg 0x600024, .reg 0x600030, .reg 0x700080, .reg 0x900030, .reg 0x900044, .reg 0xB00018, .reg 0xF00018, .reg 0x1000020, .reg 0x1000044]) ?_ hq) e0
  unfold State.fence
  try dsimp only
  repeat' first
    | with_reducible exact Rest.refl _ _ | with_reducible assumption | with_reducible refine Rest.onW ?_ ?_ | with_reducible refine Rest.onOwn ?_
    | with_reducible refine Rest.whenS ?_ ?_ | with_reducible refine Rest.forAllS ?_ ?_ | with_reducible refine Rest.iteS ?_ ?_
    | with_reducible refine State.fall_rest (by decide) ?_ | with_reducible refine Rest.ite ?_ ?_
    | with_reducible refine Rest.set_run (by decide) ?_ _ | dsimp only | split | intro _

theorem World.updXng_rest {q0 : List Part} {w : World} {v' : World} {h : Half} {f : Xng → Xng}
    (hq : partsLe [.xng] q0 = true) (e0 : Rest q0 w v') : Rest q0 (World.updXng w h f) v' := by
  refine Rest.trans (Rest.mono (p := [.xng]) ?_ hq) e0
  unfold World.updXng
  try dsimp only
  repeat' first
    | with_reducible exact Rest.refl _ _ | with_reducible assumption | with_reducible refine Rest.ite ?_ ?_
    | with_reducible refine Rest.set_xng (by decide) ?_ _ | dsimp only | split | intro _

theorem World.tsyncLost_rest {q0 : List Part} {w : World} {v' : World} {h : Half}
    (hq : partsLe [.evt, .xng, .reg 0x100018, .reg 0x300014] q0 = true) (e0 : Rest q0 w v') : Rest q0 (World.tsyncLost w h) v' := by
  refine Rest.trans (Rest.mono (p := [.evt, .xng, .reg 0x100018, .reg 0x300014]) ?_ hq) e0
  unfold World.tsyncLost
  try dsimp only
  repeat' first
    | with_reducible exact Rest.refl _ _ | with_reducible assumption | with_reducible refine Rest.wr _ _ _ _ (by decide) ?_
    | with_reducible refine Rest.raise _ _ _ (by decide) ?_ | with_reducible refine Rest.when ?_ ?_
    | with_reducible refine World.updXng_rest (by decide) ?_ | with_reducible refine Rest.ite ?_ ?_ | dsimp only | split | intro _

theorem World.laneSet_rest {q0 : List Part} {w : World} {v' : World} {h : Half} {lane dir : Nat} {up : Bool}
    (hq : partsLe [.evt, .reg 0x100018, .reg 0x300014] q0 = true) (e0 : Rest q0 w v') : Rest q0 (World.laneSet w h lane dir up) v' := by
  refine Rest.trans (Rest.mono (p := [.evt, .reg 0x100018, .reg 0x300014]) ?_ hq) e0
  have hb : (partIn ([.evt, .reg 0x100018, .reg 0x300014] : List Part) (.reg (laneField dir).reg) && decide ((laneField dir).reg < 2 ^ 25)) = true := by
    unfold laneField; split <;> decide
  unfold World.laneSet
  dsimp only
  split
  · exact Rest.refl _ _
  · exact Rest.raise _ _ _ (by decide) (Rest.wr _ _ _ _ hb (Rest.refl _ _))

theorem State.xngDown_rest {q0 : List Part} {s : State} {v' : World} {h : Half}
    (hq : partsLe [.evt, .xng, .reg 0x100018, .reg 0x300014, .reg 0xB00018] q0 = true) (e0 : Rest q0 s.w v') : Rest q0 (State.xngDown s h).w v' := by
  refine Rest.trans (Rest.mono (p := [.evt, .xng, .reg 0x100018, .reg 0x300014, .reg 0xB00018]) ?_ hq) e0
  unfold State.xngDown
  try dsimp only
  repeat' first
    | with_reducible exact Rest.refl _ _ | with_reducible assumption | with_reducible refine Rest.wr _ _ _ _ (by decide) ?_
    | with_reducible refine Rest.when ?_ ?_ | with_reducible refine Rest.onW ?_ ?_ | with_reducible refine Rest.onOwn ?_
    | with_reducible refine Rest.whenS ?_ ?_ | with_reducible refine Rest.forAllS ?_ ?_ | with_reducible refine Rest.iteS ?_ ?_
    | with_reducible refine World.engines_rest (by decide) ?_ | with_reducible refine World.tsyncLost_rest (by decide) ?_
    | with_reducible refine Rest.ite ?_ ?_ | dsimp only | split | intro _

theorem World.xngSent_rest {q0 : List Part} {w : World} {v' : World} {h : Half} {ty len : Nat}
    (hq : partsLe [.xng] q0 = true) (e0 : Rest q0 w v') : Rest q0 (World.xngSent w h ty len) v' := by
  refine Rest.trans (Rest.mono (p := [.xng]) ?_ hq) e0
  unfold World.xngSent
  try dsimp only
  repeat' first
    | with_reducible exact Rest.refl _ _ | with_reducible assumption | with_reducible refine World.updXng_rest (by decide) ?_
    | with_reducible refine Rest.ite ?_ ?_ | dsimp only | split | intro _

theorem World.xngGot_rest {q0 : List Part} {w : World} {v' : World} {h : Half} {len : Nat}
    (hq : partsLe [.xng] q0 = true) (e0 : Rest q0 w v') : Rest q0 (World.xngGot w h len) v' := by
  refine Rest.trans (Rest.mono (p := [.xng]) ?_ hq) e0
  unfold World.xngGot
  try dsimp only
  repeat' first
    | with_reducible exact Rest.refl _ _ | with_reducible assumption | with_reducible refine World.updXng_rest (by decide) ?_
    | with_reducible refine Rest.ite ?_ ?_ | dsimp only | split | intro _

theorem State.allLanesDown_rest {q0 : List Part} {s : State} {v' : World} 
    (hq : partsLe [.evt, .xng, .reg 0x100018, .reg 0x300014, .reg 0xB00018] q0 = true) (e0 : Rest q0 s.w v') : Rest q0 (State.allLanesDown s ).w v' := by
  refine Rest.trans (Rest.mono (p := [.evt, .xng, .reg 0x100018, .reg 0x300014, .reg 0xB00018]) ?_ hq) e0
  unfold State.allLanesDown
  try dsimp only
  repeat' first
    | with_reducible exact Rest.refl _ _ | with_reducible assumption | with_reducible refine Rest.when ?_ ?_ | with_reducible refine Rest.forAll ?_ ?_
    | with_reducible refine Rest.onW ?_ ?_ | with_reducible refine Rest.onOwn ?_ | with_reducible refine Rest.whenS ?_ ?_
    | with_reducible refine Rest.forAllS ?_ ?_ | with_reducible refine Rest.iteS ?_ ?_ | with_reducible refine State.xngDown_rest (by decide) ?_
    | with_reducible refine World.laneSet_rest (by decide) ?_ | with_reducible refine Rest.ite ?_ ?_ | dsimp only | split | intro _

theorem World.takeFn_rest {q0 : List Part} {w : World} {v' : World} {h : Half} {n : Nat}
    (hq : partsLe [.set, .reg 0x400040, .reg 0x400044, .reg 0x400048, .reg 0x40004C, .reg 0x400050, .reg 0x400280, .reg 0x400300, .reg 0x400380, .reg 0x400400] q0 = true) (e0 : Rest q0 w v') : Rest q0 (World.takeFn w h n) v' := by
  refine Rest.trans (Rest.mono (p := [.set, .reg 0x400040, .reg 0x400044, .reg 0x400048, .reg 0x40004C, .reg 0x400050, .reg 0x400280, .reg 0x400300, .reg 0x400380, .reg 0x400400]) ?_ hq) e0
  unfold World.takeFn
  extract_lets x old w1 w2
  have h1 : Rest [.set, .reg 0x400040, .reg 0x400044, .reg 0x400048, .reg 0x40004C, .reg 0x400050, .reg 0x400280, .reg 0x400300, .reg 0x400380, .reg 0x400400] w1 w := Rest.set_set (by decide) (Rest.refl _ _) _
  have h2 : Rest [.set, .reg 0x400040, .reg 0x400044, .reg 0x400048, .reg 0x40004C, .reg 0x400050, .reg 0x400280, .reg 0x400300, .reg 0x400380, .reg 0x400400] w2 w := Rest.copyFieldsAt _ _ _ (by decide) h1
  clear_value w1 w2
  split
  · exact Rest.refl _ _
  · split
    · exact World.copyFields_rest (by decide) (Rest.set_set (by decide) h2 _)
    · exact h2

theorem World.takeClass_rest {q0 : List Part} {w : World} {v' : World} {h : Half} {k : Nat}
    (hq : partsLe [.evt, .opt, .flx, .reg 0x400018, .reg 0x400500, .reg 0x400504, .reg 0x400508, .reg 0x40050C, .reg 0x400510, .reg 0x400514, .reg 0x400518, .reg 0x40051C, .reg 0xA00108] q0 = true) (e0 : Rest q0 w v') : Rest q0 (World.takeClass w h k) v' := by
  refine Rest.trans (Rest.mono (p := [.evt, .opt, .flx, .reg 0x400018, .reg 0x400500, .reg 0x400504, .reg 0x400508, .reg 0x40050C, .reg 0x400510, .reg 0x400514, .reg 0x400518, .reg 0x40051C, .reg 0xA00108]) ?_ hq) e0
  unfold World.takeClass
  split
  · exact Rest.wr _ _ _ _ (by decide) (Rest.refl _ _)
  · exact Rest.set_flx (by decide) (World.copyFields_rest (by decide) (Rest.set_opt (by decide) (Rest.refl _ _) _)) _
  · exact Rest.wr _ _ _ _ (by decide) (Rest.set_evt (by decide) (Rest.refl _ _) _)
  · exact Rest.refl _ _

theorem World.updUpd_rest {q0 : List Part} {w : World} {v' : World} {h : Half} {f : Upd → Upd}
    (hq : partsLe [.upd] q0 = true) (e0 : Rest q0 w v') : Rest q0 (World.updUpd w h f) v' := by
  refine Rest.trans (Rest.mono (p := [.upd]) ?_ hq) e0
  unfold World.updUpd
  try dsimp only
  repeat' first
    | with_reducible exact Rest.refl _ _ | with_reducible assumption | with_reducible refine Rest.ite ?_ ?_
    | with_reducible refine Rest.set_upd (by decide) ?_ _ | dsimp only | split | intro _

theorem World.setRegion_rest {q0 : List Part} {w : World} {v' : World} {h : Half} {r : Nat} {x : Region}
    (hq : partsLe [.evt, .upd, .reg 0x80, .reg 0x100018, .reg 0x1100028, .reg 0x1100040, .reg 0x1100060, .reg 0x1100080, .reg 0x11000C0] q0 = true) (e0 : Rest q0 w v') : Rest q0 (World.setRegion w h r x) v' := by
  refine Rest.trans (Rest.mono (p := [.evt, .upd, .reg 0x80, .reg 0x100018, .reg 0x1100028, .reg 0x1100040, .reg 0x1100060, .reg 0x1100080, .reg 0x11000C0]) ?_ hq) e0
  unfold World.setRegion
  try dsimp only
  repeat' first
    | with_reducible exact Rest.refl _ _ | with_reducible assumption | with_reducible refine Rest.wr _ _ _ _ (by decide) ?_
    | with_reducible refine World.restored_rest (by decide) ?_ | with_reducible refine World.updUpd_rest (by decide) ?_
    | with_reducible refine Rest.ite ?_ ?_ | dsimp only | split | intro _

theorem World.showKeys_rest {q0 : List Part} {w : World} {v' : World} {h : Half}
    (hq : partsLe [.reg 0x1400018, .reg 0x1400020, .reg 0x1400030, .reg 0x1400040, .reg 0x1400080] q0 = true) (e0 : Rest q0 w v') : Rest q0 (World.showKeys w h) v' := by
  refine Rest.trans (Rest.mono (p := [.reg 0x1400018, .reg 0x1400020, .reg 0x1400030, .reg 0x1400040, .reg 0x1400080]) ?_ hq) e0
  unfold World.showKeys
  try dsimp only
  repeat' first
    | with_reducible exact Rest.refl _ _ | with_reducible assumption | with_reducible refine Rest.wr _ _ _ _ (by decide) ?_
    | with_reducible refine Rest.forAll ?_ ?_ | with_reducible refine Rest.ite ?_ ?_ | dsimp only | split | intro _

theorem World.keysApplied_rest {q0 : List Part} {w : World} {v' : World} {h : Half} {v : Vault} {n : Nat}
    (hq : partsLe [.evt, .upd, .reg 0x100018, .reg 0x1400018, .reg 0x1400020, .reg 0x1400030, .reg 0x1400040, .reg 0x1400080] q0 = true) (e0 : Rest q0 w v') : Rest q0 (World.keysApplied w h v n) v' := by
  refine Rest.trans (Rest.mono (p := [.evt, .upd, .reg 0x100018, .reg 0x1400018, .reg 0x1400020, .reg 0x1400030, .reg 0x1400040, .reg 0x1400080]) ?_ hq) e0
  unfold World.keysApplied
  try dsimp only
  repeat' first
    | with_reducible exact Rest.refl _ _ | with_reducible assumption | with_reducible refine Rest.raise _ _ _ (by decide) ?_
    | with_reducible refine Rest.forAll ?_ ?_ | with_reducible refine World.showKeys_rest (by decide) ?_
    | with_reducible refine World.updUpd_rest (by decide) ?_ | with_reducible refine Rest.ite ?_ ?_ | dsimp only | split | intro _

theorem World.updSess_rest {q0 : List Part} {w : World} {v' : World} {h : Half} {r : Nat} {x : Session}
    (hq : partsLe [.upd] q0 = true) (e0 : Rest q0 w v') : Rest q0 (World.updSess w h r x) v' := by
  refine Rest.trans (Rest.mono (p := [.upd]) ?_ hq) e0
  unfold World.updSess
  try dsimp only
  repeat' first
    | with_reducible exact Rest.refl _ _ | with_reducible assumption | with_reducible refine World.updUpd_rest (by decide) ?_
    | with_reducible refine Rest.ite ?_ ?_ | dsimp only | split | intro _

theorem World.updRes_rest {q0 : List Part} {w : World} {v' : World} {h : Half} {res : Nat}
    (hq : partsLe [.reg 0x1100028] q0 = true) (e0 : Rest q0 w v') : Rest q0 (World.updRes w h res) v' := by
  refine Rest.trans (Rest.mono (p := [.reg 0x1100028]) ?_ hq) e0
  unfold World.updRes
  try dsimp only
  repeat' first
    | with_reducible exact Rest.refl _ _ | with_reducible assumption | with_reducible refine Rest.wr _ _ _ _ (by decide) ?_
    | with_reducible refine Rest.ite ?_ ?_ | dsimp only | split | intro _

theorem World.openFails_rest {q0 : List Part} {w : World} {v' : World} {h : Half} {r res : Nat}
    (hq : partsLe [.evt, .reg 0x100018, .reg 0x1100028, .reg 0x110002C, .reg 0x11000C0] q0 = true) (e0 : Rest q0 w v') : Rest q0 (World.openFails w h r res) v' := by
  refine Rest.trans (Rest.mono (p := [.evt, .reg 0x100018, .reg 0x1100028, .reg 0x110002C, .reg 0x11000C0]) ?_ hq) e0
  unfold World.openFails
  try dsimp only
  repeat' first
    | with_reducible exact Rest.refl _ _ | with_reducible assumption | with_reducible refine Rest.wr _ _ _ _ (by decide) ?_
    | with_reducible refine Rest.bump _ _ _ (by decide) ?_ | with_reducible refine Rest.raise _ _ _ (by decide) ?_
    | with_reducible refine Rest.when ?_ ?_ | with_reducible refine World.updRes_rest (by decide) ?_ | with_reducible refine Rest.ite ?_ ?_
    | dsimp only | split | intro _

theorem World.openTakes_rest {q0 : List Part} {w : World} {v' : World} {h : Half} {r source len : Nat} {tech : Bool}
    (hq : partsLe [.fresh, .evt, .upd, .reg 0x100018, .reg 0x1100028, .reg 0x1100040] q0 = true) (e0 : Rest q0 w v') : Rest q0 (World.openTakes w h r source len tech) v' := by
  refine Rest.trans (Rest.mono (p := [.fresh, .evt, .upd, .reg 0x100018, .reg 0x1100028, .reg 0x1100040]) ?_ hq) e0
  unfold World.openTakes
  try dsimp only
  repeat' first
    | with_reducible exact Rest.refl _ _ | with_reducible assumption | with_reducible refine Rest.wr _ _ _ _ (by decide) ?_
    | with_reducible refine Rest.raise _ _ _ (by decide) ?_ | with_reducible refine World.updRes_rest (by decide) ?_
    | with_reducible refine World.updSess_rest (by decide) ?_ | with_reducible refine Rest.ite ?_ ?_ | with_reducible refine Rest.free (by decide) ?_
    | dsimp only | split | intro _

theorem State.upOpen_rest {q0 : List Part} {s : State} {v' : World} {h : Half} {r source len : Nat} {tech : Bool}
    (hq : partsLe [.fresh, .evt, .upd, .reg 0x100018, .reg 0x1100028, .reg 0x110002C, .reg 0x1100040, .reg 0x11000C0] q0 = true) (e0 : Rest q0 s.w v') : Rest q0 (State.upOpen s h r source len tech).w v' := by
  refine Rest.trans (Rest.mono (p := [.fresh, .evt, .upd, .reg 0x100018, .reg 0x1100028, .reg 0x110002C, .reg 0x1100040, .reg 0x11000C0]) ?_ hq) e0
  unfold State.upOpen
  try dsimp only
  repeat' first
    | with_reducible exact Rest.refl _ _ | with_reducible assumption | with_reducible refine Rest.onW ?_ ?_ | with_reducible refine Rest.onOwn ?_
    | with_reducible refine Rest.whenS ?_ ?_ | with_reducible refine Rest.forAllS ?_ ?_ | with_reducible refine Rest.iteS ?_ ?_
    | with_reducible refine World.openFails_rest (by decide) ?_ | with_reducible refine World.openTakes_rest (by decide) ?_
    | with_reducible refine Rest.ite ?_ ?_ | dsimp only | split | intro _

theorem State.leaveForUpdate_rest {q0 : List Part} {s : State} {v' : World} {h : Half}
    (hq : partsLe [.evt, .dsp, .reg 0x80, .reg 0x100018, .reg 0x30010C, .reg 0xF00018] q0 = true) (e0 : Rest q0 s.w v') : Rest q0 (State.leaveForUpdate s h).w v' := by
  refine Rest.trans (Rest.mono (p := [.evt, .dsp, .reg 0x80, .reg 0x100018, .reg 0x30010C, .reg 0xF00018]) ?_ hq) e0
  unfold State.leaveForUpdate
  try dsimp only
  repeat' first
    | with_reducible exact Rest.refl _ _ | with_reducible assumption | with_reducible refine Rest.wr _ _ _ _ (by decide) ?_
    | with_reducible refine Rest.forAll ?_ ?_ | with_reducible refine Rest.onW ?_ ?_ | with_reducible refine Rest.onOwn ?_
    | with_reducible refine Rest.whenS ?_ ?_ | with_reducible refine Rest.forAllS ?_ ?_ | with_reducible refine Rest.iteS ?_ ?_
    | with_reducible refine State.handoverAllNow_rest (by decide) ?_ | with_reducible refine State.orphan_rest (by decide) ?_
    | with_reducible refine Rest.ite ?_ ?_ | dsimp only | split | intro _

theorem World.clearValid_rest {q0 : List Part} {w : World} {v' : World} {h : Half} {r len : Nat}
    (hq : partsLe [.evt, .roast, .upd, .reg 0x80, .reg 0x100018, .reg 0x1100028, .reg 0x1100040, .reg 0x1100060, .reg 0x1100080, .reg 0x11000C0] q0 = true) (e0 : Rest q0 w v') : Rest q0 (World.clearValid w h r len) v' := by
  refine Rest.trans (Rest.mono (p := [.evt, .roast, .upd, .reg 0x80, .reg 0x100018, .reg 0x1100028, .reg 0x1100040, .reg 0x1100060, .reg 0x1100080, .reg 0x11000C0]) ?_ hq) e0
  unfold World.clearValid
  try dsimp only
  repeat' first
    | with_reducible exact Rest.refl _ _ | with_reducible assumption | with_reducible refine Rest.when ?_ ?_
    | with_reducible refine World.setRegion_rest (by decide) ?_ | with_reducible refine Rest.ite ?_ ?_
    | with_reducible refine Rest.set_roast (by decide) ?_ _ | dsimp only | split | intro _

theorem State.upBlock_rest {q0 : List Part} {s : State} {v' : World} {h : Half} {r : Nat} {b : List Byte}
    (hq : partsLe [.evt, .roast, .upd, .dsp, .reg 0x80, .reg 0x100018, .reg 0x30010C, .reg 0xF00018, .reg 0x1100028, .reg 0x1100040, .reg 0x1100060, .reg 0x1100080, .reg 0x11000C0] q0 = true) (e0 : Rest q0 s.w v') : Rest q0 (State.upBlock s h r b).w v' := by
  refine Rest.trans (Rest.mono (p := [.evt, .roast, .upd, .dsp, .reg 0x80, .reg 0x100018, .reg 0x30010C, .reg 0xF00018, .reg 0x1100028, .reg 0x1100040, .reg 0x1100060, .reg 0x1100080, .reg 0x11000C0]) ?_ hq) e0
  unfold State.upBlock
  try dsimp only
  repeat' first
    | with_reducible exact Rest.refl _ _ | with_reducible assumption | with_reducible refine Rest.wr _ _ _ _ (by decide) ?_
    | with_reducible refine Rest.bump _ _ _ (by decide) ?_ | with_reducible refine Rest.when ?_ ?_ | with_reducible refine Rest.onW ?_ ?_
    | with_reducible refine Rest.onOwn ?_ | with_reducible refine Rest.whenS ?_ ?_ | with_reducible refine Rest.forAllS ?_ ?_
    | with_reducible refine Rest.iteS ?_ ?_ | with_reducible refine State.leaveForUpdate_rest (by decide) ?_
    | with_reducible refine World.clearValid_rest (by decide) ?_ | with_reducible refine World.setRegion_rest (by decide) ?_
    | with_reducible refine World.updRes_rest (by decide) ?_ | with_reducible refine World.updSess_rest (by decide) ?_
    | with_reducible refine Rest.ite ?_ ?_ | dsimp only | split | intro _

theorem World.updStageEnd_rest {q0 : List Part} {w : World} {v' : World} {h : Half}
    (hq : partsLe [.reg 0x80] q0 = true) (e0 : Rest q0 w v') : Rest q0 (World.updStageEnd w h) v' := by
  refine Rest.trans (Rest.mono (p := [.reg 0x80]) ?_ hq) e0
  unfold World.updStageEnd
  try dsimp only
  repeat' first
    | with_reducible exact Rest.refl _ _ | with_reducible assumption | with_reducible refine Rest.wr _ _ _ _ (by decide) ?_
    | with_reducible refine Rest.when ?_ ?_ | with_reducible refine Rest.ite ?_ ?_ | dsimp only | split | intro _

theorem World.sessEnd_rest {q0 : List Part} {w : World} {v' : World} {h : Half} {r st res : Nat}
    (hq : partsLe [.evt, .upd, .reg 0x80, .reg 0x100018, .reg 0x1100028, .reg 0x1100040] q0 = true) (e0 : Rest q0 w v') : Rest q0 (World.sessEnd w h r st res) v' := by
  refine Rest.trans (Rest.mono (p := [.evt, .upd, .reg 0x80, .reg 0x100018, .reg 0x1100028, .reg 0x1100040]) ?_ hq) e0
  unfold World.sessEnd
  try dsimp only
  repeat' first
    | with_reducible exact Rest.refl _ _ | with_reducible assumption | with_reducible refine Rest.wr _ _ _ _ (by decide) ?_
    | with_reducible refine Rest.raise _ _ _ (by decide) ?_ | with_reducible refine World.updRes_rest (by decide) ?_
    | with_reducible refine World.updStageEnd_rest (by decide) ?_ | with_reducible refine World.updUpd_rest (by decide) ?_
    | with_reducible refine Rest.ite ?_ ?_ | dsimp only | split | intro _

theorem World.roastReject_rest {q0 : List Part} {w : World} {v' : World} {h : Half} {v : Verdict}
    (hq : partsLe [.evt, .reg 0x100018] q0 = true) (e0 : Rest q0 w v') : Rest q0 (World.roastReject w h v) v' := by
  refine Rest.trans (Rest.mono (p := [.evt, .reg 0x100018]) ?_ hq) e0
  unfold World.roastReject
  try dsimp only
  repeat' first
    | with_reducible exact Rest.refl _ _ | with_reducible assumption | with_reducible refine Rest.raise _ _ _ (by decide) ?_
    | with_reducible refine Rest.ite ?_ ?_ | dsimp only | split | intro _

theorem World.imageActive_rest {q0 : List Part} {w : World} {v' : World} {h : Half} {r : Nat} {restored : Bool} {img : List Byte}
    (hq : partsLe [.evt, .upd, .reg 0x80, .reg 0x100018, .reg 0x1100028, .reg 0x1100040, .reg 0x1100060, .reg 0x1100080, .reg 0x11000C0] q0 = true) (e0 : Rest q0 w v') : Rest q0 (World.imageActive w h r restored img) v' := by
  refine Rest.trans (Rest.mono (p := [.evt, .upd, .reg 0x80, .reg 0x100018, .reg 0x1100028, .reg 0x1100040, .reg 0x1100060, .reg 0x1100080, .reg 0x11000C0]) ?_ hq) e0
  unfold World.imageActive
  try dsimp only
  repeat' first
    | with_reducible exact Rest.refl _ _ | with_reducible assumption | with_reducible refine Rest.raise _ _ _ (by decide) ?_
    | with_reducible refine World.setRegion_rest (by decide) ?_ | with_reducible refine World.updUpd_rest (by decide) ?_
    | with_reducible refine Rest.ite ?_ ?_ | dsimp only | split | intro _

theorem World.roastChecked_rest {q0 : List Part} {w : World} {v' : World} {h : Half} {tech : Bool}
    (hq : partsLe [.evt, .roast, .upd, .reg 0x80, .reg 0x100018, .reg 0x1100028, .reg 0x1100040, .reg 0x1100060, .reg 0x1100080, .reg 0x11000C0] q0 = true) (e0 : Rest q0 w v') : Rest q0 (World.roastChecked w h tech) v' := by
  refine Rest.trans (Rest.mono (p := [.evt, .roast, .upd, .reg 0x80, .reg 0x100018, .reg 0x1100028, .reg 0x1100040, .reg 0x1100060, .reg 0x1100080, .reg 0x11000C0]) ?_ hq) e0
  unfold World.roastChecked
  try dsimp only
  repeat' first
    | with_reducible exact Rest.refl _ _ | with_reducible assumption | with_reducible refine Rest.wr _ _ _ _ (by decide) ?_
    | with_reducible refine Rest.raise _ _ _ (by decide) ?_ | with_reducible refine World.roastReject_rest (by decide) ?_
    | with_reducible refine World.sessEnd_rest (by decide) ?_ | with_reducible refine World.setRegion_rest (by decide) ?_
    | with_reducible refine Rest.ite ?_ ?_ | with_reducible refine Rest.set_roast (by decide) ?_ _ | dsimp only | split | intro _

theorem World.keysChecked_rest {q0 : List Part} {w : World} {v' : World} {h : Half}
    (hq : partsLe [.evt, .upd, .reg 0x80, .reg 0x100018, .reg 0x1100028, .reg 0x1100040, .reg 0x1100060, .reg 0x1100080, .reg 0x11000C0, .reg 0x1400018, .reg 0x1400020, .reg 0x1400030, .reg 0x1400040, .reg 0x1400080] q0 = true) (e0 : Rest q0 w v') : Rest q0 (World.keysChecked w h) v' := by
  refine Rest.trans (Rest.mono (p := [.evt, .upd, .reg 0x80, .reg 0x100018, .reg 0x1100028, .reg 0x1100040, .reg 0x1100060, .reg 0x1100080, .reg 0x11000C0, .reg 0x1400018, .reg 0x1400020, .reg 0x1400030, .reg 0x1400040, .reg 0x1400080]) ?_ hq) e0
  unfold World.keysChecked
  try dsimp only
  repeat' first
    | with_reducible exact Rest.refl _ _ | with_reducible assumption | with_reducible refine Rest.raise _ _ _ (by decide) ?_
    | with_reducible refine World.keysApplied_rest (by decide) ?_ | with_reducible refine World.sessEnd_rest (by decide) ?_
    | with_reducible refine World.setRegion_rest (by decide) ?_ | with_reducible refine Rest.ite ?_ ?_ | dsimp only | split | intro _

theorem World.checked_rest {q0 : List Part} {w : World} {v' : World} {h : Half} {r : Nat}
    (hq : partsLe [.evt, .roast, .upd, .reg 0x80, .reg 0x100018, .reg 0x1100028, .reg 0x1100040, .reg 0x1100060, .reg 0x1100080, .reg 0x11000C0, .reg 0x1400018, .reg 0x1400020, .reg 0x1400030, .reg 0x1400040, .reg 0x1400080] q0 = true) (e0 : Rest q0 w v') : Rest q0 (World.checked w h r) v' := by
  refine Rest.trans (Rest.mono (p := [.evt, .roast, .upd, .reg 0x80, .reg 0x100018, .reg 0x1100028, .reg 0x1100040, .reg 0x1100060, .reg 0x1100080, .reg 0x11000C0, .reg 0x1400018, .reg 0x1400020, .reg 0x1400030, .reg 0x1400040, .reg 0x1400080]) ?_ hq) e0
  unfold World.checked
  try dsimp only
  repeat' first
    | with_reducible exact Rest.refl _ _ | with_reducible assumption | with_reducible refine Rest.wr _ _ _ _ (by decide) ?_
    | with_reducible refine World.imageActive_rest (by decide) ?_ | with_reducible refine World.keysChecked_rest (by decide) ?_
    | with_reducible refine World.roastChecked_rest (by decide) ?_ | with_reducible refine World.sessEnd_rest (by decide) ?_
    | with_reducible refine World.updRes_rest (by decide) ?_ | with_reducible refine Rest.ite ?_ ?_ | dsimp only | split | intro _

theorem World.knockSess_rest {q0 : List Part} {w : World} {v' : World} {h : Half} {r why : Nat}
    (hq : partsLe [.evt, .upd, .reg 0x80, .reg 0x100018, .reg 0x1100028, .reg 0x1100040, .reg 0x11000C0] q0 = true) (e0 : Rest q0 w v') : Rest q0 (World.knockSess w h r why) v' := by
  refine Rest.trans (Rest.mono (p := [.evt, .upd, .reg 0x80, .reg 0x100018, .reg 0x1100028, .reg 0x1100040, .reg 0x11000C0]) ?_ hq) e0
  unfold World.knockSess
  try dsimp only
  repeat' first
    | with_reducible exact Rest.refl _ _ | with_reducible assumption | with_reducible refine Rest.bump _ _ _ (by decide) ?_
    | with_reducible refine World.sessEnd_rest (by decide) ?_ | with_reducible refine World.updRes_rest (by decide) ?_
    | with_reducible refine Rest.ite ?_ ?_ | dsimp only | split | intro _

theorem World.restored_rest {q0 : List Part} {w : World} {v' : World} {h : Half} {r : Nat}
    (hq : partsLe [.evt, .upd, .reg 0x80, .reg 0x100018, .reg 0x1100028, .reg 0x1100040, .reg 0x1100060, .reg 0x1100080, .reg 0x11000C0] q0 = true) (e0 : Rest q0 w v') : Rest q0 (World.restored w h r) v' := by
  refine Rest.trans (Rest.mono (p := [.evt, .upd, .reg 0x80, .reg 0x100018, .reg 0x1100028, .reg 0x1100040, .reg 0x1100060, .reg 0x1100080, .reg 0x11000C0]) ?_ hq) e0
  unfold World.restored
  try dsimp only
  repeat' first
    | with_reducible exact Rest.refl _ _ | with_reducible assumption | with_reducible refine Rest.wr _ _ _ _ (by decide) ?_
    | with_reducible refine Rest.bump _ _ _ (by decide) ?_ | with_reducible refine Rest.raise _ _ _ (by decide) ?_
    | with_reducible refine World.imageActive_rest (by decide) ?_ | with_reducible refine World.sessEnd_rest (by decide) ?_
    | with_reducible refine World.setRegion_rest (by decide) ?_ | with_reducible refine World.updRes_rest (by decide) ?_
    | with_reducible refine Rest.ite ?_ ?_ | dsimp only | split | intro _

theorem World.drawNonce_rest {q0 : List Part} {w : World} {v' : World} {h : Half}
    (hq : partsLe [.fresh, .upd, .reg 0x1400020] q0 = true) (e0 : Rest q0 w v') : Rest q0 (World.drawNonce w h) v' := by
  refine Rest.trans (Rest.mono (p := [.fresh, .upd, .reg 0x1400020]) ?_ hq) e0
  unfold World.drawNonce
  try dsimp only
  repeat' first
    | with_reducible exact Rest.refl _ _ | with_reducible assumption | with_reducible refine Rest.wr _ _ _ _ (by decide) ?_
    | with_reducible refine World.updUpd_rest (by decide) ?_ | with_reducible refine Rest.ite ?_ ?_ | with_reducible refine Rest.free (by decide) ?_
    | dsimp only | split | intro _

theorem World.showLink_rest {q0 : List Part} {w : World} {v' : World} {h : Half} {k speed : Nat} {master : Bool}
    (hq : partsLe [.reg 0xA00040] q0 = true) (e0 : Rest q0 w v') : Rest q0 (World.showLink w h k speed master) v' := by
  refine Rest.trans (Rest.mono (p := [.reg 0xA00040]) ?_ hq) e0
  unfold World.showLink
  try dsimp only
  repeat' first
    | with_reducible exact Rest.refl _ _ | with_reducible assumption | with_reducible refine Rest.wr _ _ _ _ (by decide) ?_
    | with_reducible refine Rest.ite ?_ ?_ | dsimp only | split | intro _

theorem World.flxMirror_rest {q0 : List Part} {w : World} {v' : World} {h : Half}
    (hq : partsLe [.flx, .reg 0xA00108] q0 = true) (e0 : Rest q0 w v') : Rest q0 (World.flxMirror w h) v' := by
  refine Rest.trans (Rest.mono (p := [.flx, .reg 0xA00108]) ?_ hq) e0
  unfold World.flxMirror
  try dsimp only
  repeat' first
    | with_reducible exact Rest.refl _ _ | with_reducible assumption | with_reducible refine Rest.wr _ _ _ _ (by decide) ?_
    | with_reducible refine Rest.when ?_ ?_ | with_reducible refine World.updFlx_rest (by decide) ?_ | with_reducible refine Rest.ite ?_ ?_
    | dsimp only | split | intro _

theorem World.cartActive_rest {q0 : List Part} {w : World} {v' : World} {h : Half} {k : Option Nat}
    (hq : partsLe [.evt, .flx, .reg 0x100018, .reg 0xA00108, .reg 0xA0010C] q0 = true) (e0 : Rest q0 w v') : Rest q0 (World.cartActive w h k) v' := by
  refine Rest.trans (Rest.mono (p := [.evt, .flx, .reg 0x100018, .reg 0xA00108, .reg 0xA0010C]) ?_ hq) e0
  unfold World.cartActive
  try dsimp only
  repeat' first
    | with_reducible exact Rest.refl _ _ | with_reducible assumption | with_reducible refine Rest.wr _ _ _ _ (by decide) ?_
    | with_reducible refine Rest.raise _ _ _ (by decide) ?_ | with_reducible refine World.flxMirror_rest (by decide) ?_
    | with_reducible refine World.updFlx_rest (by decide) ?_ | with_reducible refine Rest.ite ?_ ?_ | dsimp only | split | intro _

theorem World.flxClose_rest {q0 : List Part} {w : World} {v' : World} {h : Half} {k reason : Nat}
    (hq : partsLe [.evt, .flx, .reg 0x100018, .reg 0xA00104, .reg 0xA00108, .reg 0xA0010C, .reg 0xA00140] q0 = true) (e0 : Rest q0 w v') : Rest q0 (World.flxClose w h k reason) v' := by
  refine Rest.trans (Rest.mono (p := [.evt, .flx, .reg 0x100018, .reg 0xA00104, .reg 0xA00108, .reg 0xA0010C, .reg 0xA00140]) ?_ hq) e0
  unfold World.flxClose
  try dsimp only
  repeat' first
    | with_reducible exact Rest.refl _ _ | with_reducible assumption | with_reducible refine Rest.wr _ _ _ _ (by decide) ?_
    | with_reducible refine Rest.raise _ _ _ (by decide) ?_ | with_reducible refine Rest.when ?_ ?_
    | with_reducible refine World.cartActive_rest (by decide) ?_ | with_reducible refine World.flxMirror_rest (by decide) ?_
    | with_reducible refine World.flxSend_rest (by decide) ?_ | with_reducible refine World.updFlx_rest (by decide) ?_
    | with_reducible refine Rest.ite ?_ ?_ | dsimp only | split | intro _

theorem World.flxAuth_rest {q0 : List Part} {w : World} {v' : World} {h : Half} {k : Nat}
    (hq : partsLe [.evt, .reg 0x100018, .reg 0xA00114] q0 = true) (e0 : Rest q0 w v') : Rest q0 (World.flxAuth w h k) v' := by
  refine Rest.trans (Rest.mono (p := [.evt, .reg 0x100018, .reg 0xA00114]) ?_ hq) e0
  unfold World.flxAuth
  try dsimp only
  repeat' first
    | with_reducible exact Rest.refl _ _ | with_reducible assumption | with_reducible refine Rest.bump _ _ _ (by decide) ?_
    | with_reducible refine Rest.raise _ _ _ (by decide) ?_ | with_reducible refine Rest.ite ?_ ?_ | dsimp only | split | intro _

theorem World.flxPlace_rest {q0 : List Part} {w : World} {v' : World} {h : Half} {k role : Nat} {x : Sess}
    (hq : partsLe [.evt, .flx, .reg 0x100018, .reg 0xA00104, .reg 0xA00108, .reg 0xA0010C, .reg 0xA00140] q0 = true) (e0 : Rest q0 w v') : Rest q0 (World.flxPlace w h k role x) v' := by
  refine Rest.trans (Rest.mono (p := [.evt, .flx, .reg 0x100018, .reg 0xA00104, .reg 0xA00108, .reg 0xA0010C, .reg 0xA00140]) ?_ hq) e0
  unfold World.flxPlace
  try dsimp only
  repeat' first
    | with_reducible exact Rest.refl _ _ | with_reducible assumption | with_reducible refine Rest.wr _ _ _ _ (by decide) ?_
    | with_reducible refine Rest.raise _ _ _ (by decide) ?_ | with_reducible refine Rest.when ?_ ?_
    | with_reducible refine World.cartActive_rest (by decide) ?_ | with_reducible refine World.flxMirror_rest (by decide) ?_
    | with_reducible refine World.flxTiles_rest (by decide) ?_ | with_reducible refine World.setFsess_rest (by decide) ?_
    | with_reducible refine World.updFlx_rest (by decide) ?_ | with_reducible refine Rest.ite ?_ ?_ | dsimp only | split | intro _

theorem World.flxDrop_rest {q0 : List Part} {w : World} {v' : World} {h : Half} {client : Bool} {k reason : Nat}
    (hq : partsLe [.evt, .flx, .reg 0x100018, .reg 0xA00104, .reg 0xA00108, .reg 0xA0010C, .reg 0xA00140] q0 = true) (e0 : Rest q0 w v') : Rest q0 (World.flxDrop w h client k reason) v' := by
  refine Rest.trans (Rest.mono (p := [.evt, .flx, .reg 0x100018, .reg 0xA00104, .reg 0xA00108, .reg 0xA0010C, .reg 0xA00140]) ?_ hq) e0
  unfold World.flxDrop
  try dsimp only
  repeat' first
    | with_reducible exact Rest.refl _ _ | with_reducible assumption | with_reducible refine World.flxClose_rest (by decide) ?_
    | with_reducible refine World.updFlx_rest (by decide) ?_ | with_reducible refine Rest.ite ?_ ?_ | dsimp only | split | intro _

theorem World.flxHello_rest {q0 : List Part} {w : World} {v' : World} {h : Half} {client : Bool} {k role ver : Nat} {dev : List Byte} {x : Sess}
    (hq : partsLe [.evt, .flx, .reg 0x100018, .reg 0xA00104, .reg 0xA00108, .reg 0xA0010C, .reg 0xA00114, .reg 0xA00140] q0 = true) (e0 : Rest q0 w v') : Rest q0 (World.flxHello w h client k role ver dev x) v' := by
  refine Rest.trans (Rest.mono (p := [.evt, .flx, .reg 0x100018, .reg 0xA00104, .reg 0xA00108, .reg 0xA0010C, .reg 0xA00114, .reg 0xA00140]) ?_ hq) e0
  unfold World.flxHello
  try dsimp only
  repeat' first
    | with_reducible exact Rest.refl _ _ | with_reducible assumption | with_reducible refine Rest.bump _ _ _ (by decide) ?_
    | with_reducible refine Rest.raise _ _ _ (by decide) ?_ | with_reducible refine Rest.when ?_ ?_
    | with_reducible refine World.flxAuth_rest (by decide) ?_ | with_reducible refine World.flxClose_rest (by decide) ?_
    | with_reducible refine World.flxDrop_rest (by decide) ?_ | with_reducible refine World.flxPlace_rest (by decide) ?_
    | with_reducible refine World.updFlx_rest (by decide) ?_ | with_reducible refine Rest.ite ?_ ?_ | dsimp only | split | intro _

theorem World.flxAcked_rest {q0 : List Part} {w : World} {v' : World} {h : Half} {k ack : Nat}
    (hq : partsLe [.flx, .reg 0xA00108, .reg 0xA00140] q0 = true) (e0 : Rest q0 w v') : Rest q0 (World.flxAcked w h k ack) v' := by
  refine Rest.trans (Rest.mono (p := [.flx, .reg 0xA00108, .reg 0xA00140]) ?_ hq) e0
  unfold World.flxAcked
  try dsimp only
  repeat' first
    | with_reducible exact Rest.refl _ _ | with_reducible assumption | with_reducible refine Rest.wr _ _ _ _ (by decide) ?_
    | with_reducible refine Rest.when ?_ ?_ | with_reducible refine Rest.foldl ?_ ?_ | with_reducible refine World.flxMirror_rest (by decide) ?_
    | with_reducible refine World.flxUnacked_rest (by decide) ?_ | with_reducible refine World.setFsess_rest (by decide) ?_
    | with_reducible refine Rest.ite ?_ ?_ | dsimp only | split | intro _

theorem World.flxTake_rest {q0 : List Part} {w : World} {v' : World} {h : Half} {k seq ack : Nat}
    (hq : partsLe [.flx, .reg 0xA00108, .reg 0xA00140] q0 = true) (e0 : Rest q0 w v') : Rest q0 (World.flxTake w h k seq ack) v' := by
  refine Rest.trans (Rest.mono (p := [.flx, .reg 0xA00108, .reg 0xA00140]) ?_ hq) e0
  unfold World.flxTake
  try dsimp only
  repeat' first
    | with_reducible exact Rest.refl _ _ | with_reducible assumption | with_reducible refine World.flxAcked_rest (by decide) ?_
    | with_reducible refine World.setFsess_rest (by decide) ?_ | with_reducible refine Rest.ite ?_ ?_ | dsimp only | split | intro _

theorem World.cartState_rest {q0 : List Part} {w : World} {v' : World} {h : Half} {k : Nat} {p : List Byte}
    (hq : partsLe [.evt, .flx, .reg 0x100018, .reg 0xA00108, .reg 0xA0010C] q0 = true) (e0 : Rest q0 w v') : Rest q0 (World.cartState w h k p) v' := by
  refine Rest.trans (Rest.mono (p := [.evt, .flx, .reg 0x100018, .reg 0xA00108, .reg 0xA0010C]) ?_ hq) e0
  unfold World.cartState
  try dsimp only
  repeat' first
    | with_reducible exact Rest.refl _ _ | with_reducible assumption | with_reducible refine Rest.wr _ _ _ _ (by decide) ?_
    | with_reducible refine Rest.when ?_ ?_ | with_reducible refine World.cartActive_rest (by decide) ?_
    | with_reducible refine World.setFsess_rest (by decide) ?_ | with_reducible refine World.updFlx_rest (by decide) ?_
    | with_reducible refine Rest.ite ?_ ?_ | dsimp only | split | intro _

theorem World.flxAct_rest {q0 : List Part} {w : World} {v' : World} {h : Half} {k ty : Nat} {p : List Byte}
    (hq : partsLe [.evt, .gns, .flx, .reg 0x100018, .reg 0xA00104, .reg 0xA00108, .reg 0xA0010C, .reg 0xA00140, .reg 0xB00018, .reg 0xB0008C] q0 = true) (e0 : Rest q0 w v') : Rest q0 (World.flxAct w h k ty p) v' := by
  refine Rest.trans (Rest.mono (p := [.evt, .gns, .flx, .reg 0x100018, .reg 0xA00104, .reg 0xA00108, .reg 0xA0010C, .reg 0xA00140, .reg 0xB00018, .reg 0xB0008C]) ?_ hq) e0
  unfold World.flxAct
  try dsimp only
  repeat' first
    | with_reducible exact Rest.refl _ _ | with_reducible assumption | with_reducible refine World.cartState_rest (by decide) ?_
    | with_reducible refine World.flxClose_rest (by decide) ?_ | with_reducible refine World.takeFrame_rest (by decide) ?_
    | with_reducible refine Rest.ite ?_ ?_ | dsimp only | split | intro _

theorem World.cartChoose_rest {q0 : List Part} {w : World} {v' : World} {h : Half}
    (hq : partsLe [.evt, .flx, .reg 0x100018, .reg 0xA00108, .reg 0xA0010C] q0 = true) (e0 : Rest q0 w v') : Rest q0 (World.cartChoose w h) v' := by
  refine Rest.trans (Rest.mono (p := [.evt, .flx, .reg 0x100018, .reg 0xA00108, .reg 0xA0010C]) ?_ hq) e0
  unfold World.cartChoose
  try dsimp only
  repeat' first
    | with_reducible exact Rest.refl _ _ | with_reducible assumption | with_reducible refine Rest.foldl ?_ ?_
    | with_reducible refine World.cartActive_rest (by decide) ?_ | with_reducible refine World.updFlx_rest (by decide) ?_
    | with_reducible refine Rest.ite ?_ ?_ | dsimp only | split | intro _

theorem World.flxShutdown_rest {q0 : List Part} {w : World} {v' : World} {h : Half}
    (hq : partsLe [.evt, .flx, .reg 0x100018, .reg 0xA00104, .reg 0xA00108, .reg 0xA0010C, .reg 0xA00140] q0 = true) (e0 : Rest q0 w v') : Rest q0 (World.flxShutdown w h) v' := by
  refine Rest.trans (Rest.mono (p := [.evt, .flx, .reg 0x100018, .reg 0xA00104, .reg 0xA00108, .reg 0xA0010C, .reg 0xA00140]) ?_ hq) e0
  unfold World.flxShutdown
  try dsimp only
  repeat' first
    | with_reducible exact Rest.refl _ _ | with_reducible assumption | with_reducible refine Rest.forAll ?_ ?_
    | with_reducible refine World.flxClose_rest (by decide) ?_ | with_reducible refine Rest.ite ?_ ?_ | dsimp only | split | intro _

end Sys2Proof.Machine
end

