-- ==== Sys2Proof/Laws/RestFn.lean ====
section
/-!
SUPPORT. What each operation of these units leaves alone.
-/
set_option linter.unreachableTactic false
set_option linter.unusedTactic false

namespace Sys2Proof.Machine

theorem World.updSet_rest {q0 : List Part} {w : World} {v' : World} {h : Half} {f : SetEng → SetEng}
    (hq : partsLe [.set] q0 = true) (e0 : Rest q0 w v') : Rest q0 (World.updSet w h f) v' := by
  refine Rest.trans (Rest.mono (p := [.set]) ?_ hq) e0
  unfold World.updSet
  try dsimp only
  repeat' first
    | with_reducible exact Rest.refl _ _ | with_reducible assumption | with_reducible refine Rest.ite ?_ ?_
    | with_reducible refine Rest.set_set (by decide) ?_ _ | dsimp only | split | intro _

theorem World.updFn_rest {q0 : List Part} {w : World} {v' : World} {h : Half} {n : Nat} {f : FnSt → FnSt}
    (hq : partsLe [.set] q0 = true) (e0 : Rest q0 w v') : Rest q0 (World.updFn w h n f) v' := by
  refine Rest.trans (Rest.mono (p := [.set]) ?_ hq) e0
  unfold World.updFn
  try dsimp only
  repeat' first
    | with_reducible exact Rest.refl _ _ | with_reducible assumption | with_reducible refine World.updSet_rest (by decide) ?_
    | with_reducible refine Rest.ite ?_ ?_ | dsimp only | split | intro _

theorem World.ilkStep_rest {q0 : List Part} {w : World} {v' : World} {h : Half} {n i : Nat}
    (hq : partsLe [.evt, .set, .reg 0x100018] q0 = true) (e0 : Rest q0 w v') : Rest q0 (World.ilkStep w h n i) v' := by
  refine Rest.trans (Rest.mono (p := [.evt, .set, .reg 0x100018]) ?_ hq) e0
  unfold World.ilkStep
  try dsimp only
  repeat' first
    | with_reducible exact Rest.refl _ _ | with_reducible assumption | with_reducible refine Rest.raise _ _ _ (by decide) ?_
    | with_reducible refine Rest.when ?_ ?_ | with_reducible refine World.updFn_rest (by decide) ?_ | with_reducible refine Rest.ite ?_ ?_
    | dsimp only | split | intro _

theorem World.noteSel_rest {q0 : List Part} {w : World} {v' : World} {h : Half} {n : Nat} {p : PvSel}
    (hq : partsLe [.evt, .set, .reg 0x100018] q0 = true) (e0 : Rest q0 w v') : Rest q0 (World.noteSel w h n p) v' := by
  refine Rest.trans (Rest.mono (p := [.evt, .set, .reg 0x100018]) ?_ hq) e0
  unfold World.noteSel
  try dsimp only
  repeat' first
    | with_reducible exact Rest.refl _ _ | with_reducible assumption | with_reducible refine Rest.raise _ _ _ (by decide) ?_
    | with_reducible refine Rest.when ?_ ?_ | with_reducible refine World.updFn_rest (by decide) ?_ | with_reducible refine Rest.ite ?_ ?_
    | dsimp only | split | intro _

theorem World.noteSched_rest {q0 : List Part} {w : World} {v' : World} {h : Half} {n : Nat}
    (hq : partsLe [.set] q0 = true) (e0 : Rest q0 w v') : Rest q0 (World.noteSched w h n) v' := by
  refine Rest.trans (Rest.mono (p := [.set]) ?_ hq) e0
  unfold World.noteSched
  try dsimp only
  repeat' first
    | with_reducible exact Rest.refl _ _ | with_reducible assumption | with_reducible refine World.updFn_rest (by decide) ?_
    | with_reducible refine Rest.ite ?_ ?_ | dsimp only | split | intro _

theorem World.putValve_rest {q0 : List Part} {w : World} {v' : World} {k : Nat} {mA : Option Nat} {on : Bool}
    (hq : partsLe [.fresh, .evt, .vlv, .reg 0x100018, .reg 0x500020, .reg 0x500024, .reg 0x500028, .reg 0x500030, .reg 0x500034, .reg 0x50004C] q0 = true) (e0 : Rest q0 w v') : Rest q0 (World.putValve w k mA on) v' := by
  refine Rest.trans (Rest.mono (p := [.fresh, .evt, .vlv, .reg 0x100018, .reg 0x500020, .reg 0x500024, .reg 0x500028, .reg 0x500030, .reg 0x500034, .reg 0x50004C]) ?_ hq) e0
  unfold World.putValve
  try dsimp only
  repeat' first
    | with_reducible exact Rest.refl _ _ | with_reducible assumption | with_reducible refine Rest.when ?_ ?_
    | with_reducible refine World.valveCmd_rest (by decide) ?_ | with_reducible refine World.valveSetpoint_rest (by decide) ?_
    | with_reducible refine Rest.ite ?_ ?_ | dsimp only | split | intro _

theorem World.putSide_rest {q0 : List Part} {w : World} {v' : World} {r : Func} {side : Int} {mA : Option Nat} {on : Bool}
    (hq : partsLe [.fresh, .evt, .vlv, .reg 0x100018, .reg 0x500020, .reg 0x500024, .reg 0x500028, .reg 0x500030, .reg 0x500034, .reg 0x50004C] q0 = true) (e0 : Rest q0 w v') : Rest q0 (World.putSide w r side mA on) v' := by
  refine Rest.trans (Rest.mono (p := [.fresh, .evt, .vlv, .reg 0x100018, .reg 0x500020, .reg 0x500024, .reg 0x500028, .reg 0x500030, .reg 0x500034, .reg 0x50004C]) ?_ hq) e0
  unfold World.putSide
  try dsimp only
  repeat' first
    | with_reducible exact Rest.refl _ _ | with_reducible assumption | with_reducible refine Rest.forAll ?_ ?_
    | with_reducible refine World.putValve_rest (by decide) ?_ | with_reducible refine Rest.ite ?_ ?_ | dsimp only | split | intro _

theorem World.putSwitch_rest {q0 : List Part} {w : World} {v' : World} {k prof : Nat} {on : Bool}
    (hq : partsLe [.lsw, .reg 0x600020, .reg 0x600024] q0 = true) (e0 : Rest q0 w v') : Rest q0 (World.putSwitch w k prof on) v' := by
  refine Rest.trans (Rest.mono (p := [.lsw, .reg 0x600020, .reg 0x600024]) ?_ hq) e0
  unfold World.putSwitch
  try dsimp only
  repeat' first
    | with_reducible exact Rest.refl _ _ | with_reducible assumption | with_reducible refine Rest.wr _ _ _ _ (by decide) ?_
    | with_reducible refine Rest.when ?_ ?_ | with_reducible refine World.swCmd_rest (by decide) ?_ | with_reducible refine Rest.ite ?_ ?_
    | dsimp only | split | intro _

theorem World.pairDrive_rest {q0 : List Part} {w : World} {v' : World} {h : Half} {n : Nat} {d : Int} {mA : Option Nat}
    (hq : partsLe [.fresh, .evt, .set, .vlv, .reg 0x100018, .reg 0x500020, .reg 0x500024, .reg 0x500028, .reg 0x500030, .reg 0x500034, .reg 0x50004C] q0 = true) (e0 : Rest q0 w v') : Rest q0 (World.pairDrive w h n d mA) v' := by
  refine Rest.trans (Rest.mono (p := [.fresh, .evt, .set, .vlv, .reg 0x100018, .reg 0x500020, .reg 0x500024, .reg 0x500028, .reg 0x500030, .reg 0x500034, .reg 0x50004C]) ?_ hq) e0
  unfold World.pairDrive
  try dsimp only
  repeat' first
    | with_reducible exact Rest.refl _ _ | with_reducible assumption | with_reducible refine Rest.when ?_ ?_
    | with_reducible refine World.putSide_rest (by decide) ?_ | with_reducible refine World.updFn_rest (by decide) ?_
    | with_reducible refine Rest.ite ?_ ?_ | dsimp only | split | intro _

theorem World.mapOut_rest {q0 : List Part} {w : World} {v' : World} {h : Half} {n : Nat} {u : Rat}
    (hq : partsLe [.fresh, .evt, .set, .vlv, .lsw, .reg 0x100018, .reg 0x500020, .reg 0x500024, .reg 0x500028, .reg 0x500030, .reg 0x500034, .reg 0x50004C, .reg 0x600020, .reg 0x600024, .reg 0x900030, .reg 0x900800] q0 = true) (e0 : Rest q0 w v') : Rest q0 (World.mapOut w h n u) v' := by
  refine Rest.trans (Rest.mono (p := [.fresh, .evt, .set, .vlv, .lsw, .reg 0x100018, .reg 0x500020, .reg 0x500024, .reg 0x500028, .reg 0x500030, .reg 0x500034, .reg 0x50004C, .reg 0x600020, .reg 0x600024, .reg 0x900030, .reg 0x900800]) ?_ hq) e0
  unfold World.mapOut
  try dsimp only
  repeat' first
    | with_reducible exact Rest.refl _ _ | with_reducible assumption | with_reducible refine Rest.forAll ?_ ?_
    | with_reducible refine World.pairDrive_rest (by decide) ?_ | with_reducible refine World.putSide_rest (by decide) ?_
    | with_reducible refine World.putSwitch_rest (by decide) ?_ | with_reducible refine World.updFn_rest (by decide) ?_
    | with_reducible refine World.writeSig_rest (by decide) ?_ | with_reducible refine Rest.ite ?_ ?_ | dsimp only | split | intro _

theorem World.tabStep_rest {q0 : List Part} {w : World} {v' : World} {h : Half} {n : Nat} {sp : Rat} {fresh : Bool}
    (hq : partsLe [.set] q0 = true) (e0 : Rest q0 w v') : Rest q0 (World.tabStep w h n sp fresh) v' := by
  refine Rest.trans (Rest.mono (p := [.set]) ?_ hq) e0
  unfold World.tabStep
  try dsimp only
  repeat' first
    | with_reducible exact Rest.refl _ _ | with_reducible assumption | with_reducible refine World.updFn_rest (by decide) ?_
    | with_reducible refine Rest.ite ?_ ?_ | dsimp only | split | intro _

theorem World.putAlert_rest {q0 : List Part} {w : World} {v' : World} {own : Own} {h : Half}
    (hq : partsLe [.lsw, .reg 0x400044, .reg 0x600020, .reg 0x600024, .reg 0x900030, .reg 0x900800] q0 = true) (e0 : Rest q0 w v') : Rest q0 (World.putAlert w own h) v' := by
  refine Rest.trans (Rest.mono (p := [.lsw, .reg 0x400044, .reg 0x600020, .reg 0x600024, .reg 0x900030, .reg 0x900800]) ?_ hq) e0
  unfold World.putAlert
  try dsimp only
  repeat' first
    | with_reducible exact Rest.refl _ _ | with_reducible assumption | with_reducible refine Rest.wr _ _ _ _ (by decide) ?_
    | with_reducible refine Rest.when ?_ ?_ | with_reducible refine World.swCmd_rest (by decide) ?_
    | with_reducible refine World.writeSig_rest (by decide) ?_ | with_reducible refine Rest.ite ?_ ?_ | dsimp only | split | intro _

theorem World.updSteer_rest {q0 : List Part} {w : World} {v' : World} {h : Half} {f : Steer → Steer}
    (hq : partsLe [.set] q0 = true) (e0 : Rest q0 w v') : Rest q0 (World.updSteer w h f) v' := by
  refine Rest.trans (Rest.mono (p := [.set]) ?_ hq) e0
  unfold World.updSteer
  try dsimp only
  repeat' first
    | with_reducible exact Rest.refl _ _ | with_reducible assumption | with_reducible refine World.updSet_rest (by decide) ?_
    | with_reducible refine Rest.ite ?_ ?_ | dsimp only | split | intro _

theorem World.alertEnd_rest {q0 : List Part} {w : World} {v' : World} {own : Own} {h : Half}
    (hq : partsLe [.set, .lsw, .reg 0x400044, .reg 0x600020, .reg 0x600024, .reg 0x900030, .reg 0x900800] q0 = true) (e0 : Rest q0 w v') : Rest q0 (World.alertEnd w own h) v' := by
  refine Rest.trans (Rest.mono (p := [.set, .lsw, .reg 0x400044, .reg 0x600020, .reg 0x600024, .reg 0x900030, .reg 0x900800]) ?_ hq) e0
  unfold World.alertEnd
  try dsimp only
  repeat' first
    | with_reducible exact Rest.refl _ _ | with_reducible assumption | with_reducible refine Rest.when ?_ ?_
    | with_reducible refine World.putAlert_rest (by decide) ?_ | with_reducible refine World.updSteer_rest (by decide) ?_
    | with_reducible refine Rest.ite ?_ ?_ | dsimp only | split | intro _

theorem World.steerRelease_rest {q0 : List Part} {w : World} {v' : World} {own : Own} {h : Half} {reason : Nat}
    (hq : partsLe [.fresh, .evt, .set, .vlv, .lsw, .reg 0x100018, .reg 0x400044, .reg 0x500020, .reg 0x500024, .reg 0x500028, .reg 0x500030, .reg 0x500034, .reg 0x50004C, .reg 0x600020, .reg 0x600024, .reg 0x900030, .reg 0x900800] q0 = true) (e0 : Rest q0 w v') : Rest q0 (World.steerRelease w own h reason) v' := by
  refine Rest.trans (Rest.mono (p := [.fresh, .evt, .set, .vlv, .lsw, .reg 0x100018, .reg 0x400044, .reg 0x500020, .reg 0x500024, .reg 0x500028, .reg 0x500030, .reg 0x500034, .reg 0x50004C, .reg 0x600020, .reg 0x600024, .reg 0x900030, .reg 0x900800]) ?_ hq) e0
  unfold World.steerRelease
  try dsimp only
  repeat' first
    | with_reducible exact Rest.refl _ _ | with_reducible assumption | with_reducible refine Rest.wr _ _ _ _ (by decide) ?_
    | with_reducible refine Rest.raise _ _ _ (by decide) ?_ | with_reducible refine Rest.when ?_ ?_
    | with_reducible refine World.pairDrive_rest (by decide) ?_ | with_reducible refine World.putAlert_rest (by decide) ?_
    | with_reducible refine World.updFn_rest (by decide) ?_ | with_reducible refine World.updSteer_rest (by decide) ?_
    | with_reducible refine Rest.ite ?_ ?_ | dsimp only | split | intro _

theorem World.steerClocks_rest {q0 : List Part} {w : World} {v' : World} {h : Half} {v : Rat}
    (hq : partsLe [.set] q0 = true) (e0 : Rest q0 w v') : Rest q0 (World.steerClocks w h v) v' := by
  refine Rest.trans (Rest.mono (p := [.set]) ?_ hq) e0
  unfold World.steerClocks
  try dsimp only
  repeat' first
    | with_reducible exact Rest.refl _ _ | with_reducible assumption | with_reducible refine World.updSteer_rest (by decide) ?_
    | with_reducible refine Rest.ite ?_ ?_ | dsimp only | split | intro _

theorem World.steerEdge_rest {q0 : List Part} {w : World} {v' : World} {h : Half} {x : SteerSee}
    (hq : partsLe [.set] q0 = true) (e0 : Rest q0 w v') : Rest q0 (World.steerEdge w h x) v' := by
  refine Rest.trans (Rest.mono (p := [.set]) ?_ hq) e0
  unfold World.steerEdge
  try dsimp only
  repeat' first
    | with_reducible exact Rest.refl _ _ | with_reducible assumption | with_reducible refine World.updSteer_rest (by decide) ?_
    | with_reducible refine Rest.ite ?_ ?_ | dsimp only | split | intro _

theorem World.steerCycle_rest {q0 : List Part} {w : World} {v' : World} {own : Own} {h : Half} {clear : Bool}
    (hq : partsLe [.fresh, .evt, .set, .vlv, .lsw, .reg 0x100018, .reg 0x400044, .reg 0x400048, .reg 0x40004C, .reg 0x400050, .reg 0x500020, .reg 0x500024, .reg 0x500028, .reg 0x500030, .reg 0x500034, .reg 0x50004C, .reg 0x600020, .reg 0x600024, .reg 0x900030, .reg 0x900800] q0 = true) (e0 : Rest q0 w v') : Rest q0 (World.steerCycle w own h clear).1 v' := by
  refine Rest.trans (Rest.mono (p := [.fresh, .evt, .set, .vlv, .lsw, .reg 0x100018, .reg 0x400044, .reg 0x400048, .reg 0x40004C, .reg 0x400050, .reg 0x500020, .reg 0x500024, .reg 0x500028, .reg 0x500030, .reg 0x500034, .reg 0x50004C, .reg 0x600020, .reg 0x600024, .reg 0x900030, .reg 0x900800]) ?_ hq) e0
  unfold World.steerCycle
  try dsimp only
  repeat' first
    | with_reducible exact Rest.refl _ _ | with_reducible assumption | with_reducible refine Rest.wr _ _ _ _ (by decide) ?_
    | with_reducible refine Rest.wrI _ _ _ _ (by decide) ?_ | with_reducible refine Rest.when ?_ ?_
    | with_reducible refine World.alertEnd_rest (by decide) ?_ | with_reducible refine World.putAlert_rest (by decide) ?_
    | with_reducible refine World.steerClocks_rest (by decide) ?_ | with_reducible refine World.steerEdge_rest (by decide) ?_
    | with_reducible refine World.steerRelease_rest (by decide) ?_ | with_reducible refine World.updSteer_rest (by decide) ?_
    | with_reducible refine Rest.ite ?_ ?_ | dsimp only | split | intro _

theorem World.fnStart_rest {q0 : List Part} {w : World} {v' : World} {h : Half} {n : Nat}
    (hq : partsLe [.set] q0 = true) (e0 : Rest q0 w v') : Rest q0 (World.fnStart w h n) v' := by
  refine Rest.trans (Rest.mono (p := [.set]) ?_ hq) e0
  unfold World.fnStart
  try dsimp only
  repeat' first
    | with_reducible exact Rest.refl _ _ | with_reducible assumption | with_reducible refine World.updFn_rest (by decide) ?_
    | with_reducible refine Rest.ite ?_ ?_ | dsimp only | split | intro _

theorem World.lawStep_rest {q0 : List Part} {w : World} {v' : World} {h : Half} {n : Nat} {sp pv f : Rat} {preset fresh : Bool}
    (hq : partsLe [.set] q0 = true) (e0 : Rest q0 w v') : Rest q0 (World.lawStep w h n sp pv f preset fresh).1 v' := by
  refine Rest.trans (Rest.mono (p := [.set]) ?_ hq) e0
  unfold World.lawStep
  try dsimp only
  repeat' first
    | with_reducible exact Rest.refl _ _ | with_reducible assumption | with_reducible refine World.tabStep_rest (by decide) ?_
    | with_reducible refine World.updFn_rest (by decide) ?_ | with_reducible refine Rest.ite ?_ ?_ | dsimp only | split | intro _

theorem World.fnRegs_rest {q0 : List Part} {w : World} {v' : World} {h : Half} {n mode : Nat} {p : PvSel} {clamped ff : Bool}
    (hq : partsLe [.reg 0x400200, .reg 0x400380] q0 = true) (e0 : Rest q0 w v') : Rest q0 (World.fnRegs w h n mode p clamped ff) v' := by
  refine Rest.trans (Rest.mono (p := [.reg 0x400200, .reg 0x400380]) ?_ hq) e0
  unfold World.fnRegs
  try dsimp only
  simp only [List.foldl_cons, List.foldl_nil]
  repeat' first
    | with_reducible exact Rest.refl _ _ | with_reducible assumption | with_reducible refine Rest.wr _ _ _ _ (by decide) ?_
    | with_reducible refine Rest.foldl ?_ ?_ | with_reducible refine Rest.ite ?_ ?_ | dsimp only | split | intro _

theorem World.fnCommit_rest {q0 : List Part} {w : World} {v' : World} {h : Half} {n line k : Nat} {pv sp : Rat}
    (hq : partsLe [.set] q0 = true) (e0 : Rest q0 w v') : Rest q0 (World.fnCommit w h n line k pv sp) v' := by
  refine Rest.trans (Rest.mono (p := [.set]) ?_ hq) e0
  unfold World.fnCommit
  try dsimp only
  repeat' first
    | with_reducible exact Rest.refl _ _ | with_reducible assumption | with_reducible refine World.updFn_rest (by decide) ?_
    | with_reducible refine Rest.ite ?_ ?_ | dsimp only | split | intro _

theorem World.fnOverride_rest {q0 : List Part} {w : World} {v' : World} {h : Half} {n line : Nat}
    (hq : partsLe [.fresh, .evt, .set, .vlv, .lsw, .can, .pwr, .dsp, .reg 0x100018, .reg 0x500020, .reg 0x500024, .reg 0x500028, .reg 0x500030, .reg 0x500034, .reg 0x50004C, .reg 0x600020, .reg 0x600024, .reg 0x600030, .reg 0x700080, .reg 0x900030, .reg 0x900044, .reg 0x900800, .reg 0xF00018, .reg 0x1000020, .reg 0x1000044] q0 = true) (e0 : Rest q0 w v') : Rest q0 (World.fnOverride w h n line).1 v' := by
  refine Rest.trans (Rest.mono (p := [.fresh, .evt, .set, .vlv, .lsw, .can, .pwr, .dsp, .reg 0x100018, .reg 0x500020, .reg 0x500024, .reg 0x500028, .reg 0x500030, .reg 0x500034, .reg 0x50004C, .reg 0x600020, .reg 0x600024, .reg 0x600030, .reg 0x700080, .reg 0x900030, .reg 0x900044, .reg 0x900800, .reg 0xF00018, .reg 0x1000020, .reg 0x1000044]) ?_ hq) e0
  unfold World.fnOverride
  try dsimp only
  repeat' first
    | with_reducible exact Rest.refl _ _ | with_reducible assumption | with_reducible refine Rest.when ?_ ?_ | with_reducible refine Rest.forAll ?_ ?_
    | with_reducible refine World.greenObj_rest (by decide) ?_ | with_reducible refine World.mapOut_rest (by decide) ?_
    | with_reducible refine World.updFn_rest (by decide) ?_ | with_reducible refine Rest.ite ?_ ?_ | dsimp only | split | intro _

theorem World.handSteer_rest {q0 : List Part} {w : World} {v' : World} {h : Half} {line k : Nat} {p : PvSel}
    (hq : partsLe [.fresh, .evt, .set, .vlv, .lsw, .can, .pwr, .dsp, .reg 0x100018, .reg 0x400200, .reg 0x400380, .reg 0x500020, .reg 0x500024, .reg 0x500028, .reg 0x500030, .reg 0x500034, .reg 0x50004C, .reg 0x600020, .reg 0x600024, .reg 0x600030, .reg 0x700080, .reg 0x900030, .reg 0x900044, .reg 0x900800, .reg 0xF00018, .reg 0x1000020, .reg 0x1000044] q0 = true) (e0 : Rest q0 w v') : Rest q0 (World.handSteer w h line k p) v' := by
  refine Rest.trans (Rest.mono (p := [.fresh, .evt, .set, .vlv, .lsw, .can, .pwr, .dsp, .reg 0x100018, .reg 0x400200, .reg 0x400380, .reg 0x500020, .reg 0x500024, .reg 0x500028, .reg 0x500030, .reg 0x500034, .reg 0x50004C, .reg 0x600020, .reg 0x600024, .reg 0x600030, .reg 0x700080, .reg 0x900030, .reg 0x900044, .reg 0x900800, .reg 0xF00018, .reg 0x1000020, .reg 0x1000044]) ?_ hq) e0
  unfold World.handSteer
  try dsimp only
  repeat' first
    | with_reducible exact Rest.refl _ _ | with_reducible assumption | with_reducible refine World.fnCommit_rest (by decide) ?_
    | with_reducible refine World.fnOverride_rest (by decide) ?_ | with_reducible refine World.fnRegs_rest (by decide) ?_
    | with_reducible refine World.pairDrive_rest (by decide) ?_ | with_reducible refine World.updFn_rest (by decide) ?_
    | with_reducible refine Rest.ite ?_ ?_ | dsimp only | split | intro _

theorem World.fnCycle_rest {q0 : List Part} {w : World} {v' : World} {own : Own} {h : Half} {n k : Nat}
    (hq : partsLe [.fresh, .evt, .set, .vlv, .lsw, .can, .pwr, .dsp, .reg 0x100018, .reg 0x400044, .reg 0x400048, .reg 0x40004C, .reg 0x400050, .reg 0x400200, .reg 0x400380, .reg 0x500020, .reg 0x500024, .reg 0x500028, .reg 0x500030, .reg 0x500034, .reg 0x50004C, .reg 0x600020, .reg 0x600024, .reg 0x600030, .reg 0x700080, .reg 0x900030, .reg 0x900044, .reg 0x900800, .reg 0xF00018, .reg 0x1000020, .reg 0x1000044] q0 = true) (e0 : Rest q0 w v') : Rest q0 (World.fnCycle w own h n k) v' := by
  refine Rest.trans (Rest.mono (p := [.fresh, .evt, .set, .vlv, .lsw, .can, .pwr, .dsp, .reg 0x100018, .reg 0x400044, .reg 0x400048, .reg 0x40004C, .reg 0x400050, .reg 0x400200, .reg 0x400380, .reg 0x500020, .reg 0x500024, .reg 0x500028, .reg 0x500030, .reg 0x500034, .reg 0x50004C, .reg 0x600020, .reg 0x600024, .reg 0x600030, .reg 0x700080, .reg 0x900030, .reg 0x900044, .reg 0x900800, .reg 0xF00018, .reg 0x1000020, .reg 0x1000044]) ?_ hq) e0
  unfold World.fnCycle
  try dsimp only
  repeat' first
    | with_reducible exact Rest.refl _ _ | with_reducible assumption | with_reducible refine Rest.when ?_ ?_ | with_reducible refine Rest.forAll ?_ ?_
    | with_reducible refine World.fnCommit_rest (by decide) ?_ | with_reducible refine World.fnOverride_rest (by decide) ?_
    | with_reducible refine World.fnRegs_rest (by decide) ?_ | with_reducible refine World.fnStart_rest (by decide) ?_
    | with_reducible refine World.handSteer_rest (by decide) ?_ | with_reducible refine World.ilkStep_rest (by decide) ?_
    | with_reducible refine World.lawStep_rest (by decide) ?_ | with_reducible refine World.mapOut_rest (by decide) ?_
    | with_reducible refine World.noteSched_rest (by decide) ?_ | with_reducible refine World.noteSel_rest (by decide) ?_
    | with_reducible refine World.steerCycle_rest (by decide) ?_ | with_reducible refine World.steerRelease_rest (by decide) ?_
    | with_reducible refine World.updFn_rest (by decide) ?_ | with_reducible refine Rest.ite ?_ ?_ | dsimp only | split | intro _

theorem World.setStatus_rest {q0 : List Part} {w : World} {v' : World} {h : Half}
    (hq : partsLe [.reg 0x400020] q0 = true) (e0 : Rest q0 w v') : Rest q0 (World.setStatus w h) v' := by
  refine Rest.trans (Rest.mono (p := [.reg 0x400020]) ?_ hq) e0
  unfold World.setStatus
  try dsimp only
  repeat' first
    | with_reducible exact Rest.refl _ _ | with_reducible assumption | with_reducible refine Rest.wr _ _ _ _ (by decide) ?_
    | with_reducible refine Rest.ite ?_ ?_ | dsimp only | split | intro _

theorem World.noteGuards_rest {q0 : List Part} {w : World} {v' : World} {h : Half}
    (hq : partsLe [.set] q0 = true) (e0 : Rest q0 w v') : Rest q0 (World.noteGuards w h) v' := by
  refine Rest.trans (Rest.mono (p := [.set]) ?_ hq) e0
  unfold World.noteGuards
  try dsimp only
  repeat' first
    | with_reducible exact Rest.refl _ _ | with_reducible assumption | with_reducible refine World.updSet_rest (by decide) ?_
    | with_reducible refine Rest.ite ?_ ?_ | dsimp only | split | intro _

theorem World.transit_rest {q0 : List Part} {w : World} {v' : World} {h : Half} {dst : Nat}
    (hq : partsLe [.evt, .set, .reg 0x100018, .reg 0x300010, .reg 0x400018, .reg 0x900020, .reg 0x900030, .reg 0x900044] q0 = true) (e0 : Rest q0 w v') : Rest q0 (World.transit w h dst) v' := by
  refine Rest.trans (Rest.mono (p := [.evt, .set, .reg 0x100018, .reg 0x300010, .reg 0x400018, .reg 0x900020, .reg 0x900030, .reg 0x900044]) ?_ hq) e0
  unfold World.transit
  try dsimp only
  repeat' first
    | with_reducible exact Rest.refl _ _ | with_reducible assumption | with_reducible refine Rest.wr _ _ _ _ (by decide) ?_
    | with_reducible refine Rest.wrBoth _ _ _ (by decide) ?_ | with_reducible refine Rest.raise _ _ _ (by decide) ?_
    | with_reducible refine Rest.when ?_ ?_ | with_reducible refine World.canLeaveService_rest (by decide) ?_
    | with_reducible refine World.updSet_rest (by decide) ?_ | with_reducible refine Rest.ite ?_ ?_ | dsimp only | split | intro _

theorem World.updOpt_rest {q0 : List Part} {w : World} {v' : World} {h : Half} {f : Optim → Optim}
    (hq : partsLe [.opt] q0 = true) (e0 : Rest q0 w v') : Rest q0 (World.updOpt w h f) v' := by
  refine Rest.trans (Rest.mono (p := [.opt]) ?_ hq) e0
  unfold World.updOpt
  try dsimp only
  repeat' first
    | with_reducible exact Rest.refl _ _ | with_reducible assumption | with_reducible refine Rest.ite ?_ ?_
    | with_reducible refine Rest.set_opt (by decide) ?_ _ | dsimp only | split | intro _

theorem World.optReset_rest {q0 : List Part} {w : World} {v' : World} {h : Half}
    (hq : partsLe [.opt, .reg 0x400504, .reg 0x40051C] q0 = true) (e0 : Rest q0 w v') : Rest q0 (World.optReset w h) v' := by
  refine Rest.trans (Rest.mono (p := [.opt, .reg 0x400504, .reg 0x40051C]) ?_ hq) e0
  unfold World.optReset
  try dsimp only
  repeat' first
    | with_reducible exact Rest.refl _ _ | with_reducible assumption | with_reducible refine Rest.wr _ _ _ _ (by decide) ?_
    | with_reducible refine World.updOpt_rest (by decide) ?_ | with_reducible refine Rest.ite ?_ ?_ | dsimp only | split | intro _

theorem World.optStart_rest {q0 : List Part} {w : World} {v' : World} {h : Half}
    (hq : partsLe [.opt, .reg 0x400504, .reg 0x40051C] q0 = true) (e0 : Rest q0 w v') : Rest q0 (World.optStart w h) v' := by
  refine Rest.trans (Rest.mono (p := [.opt, .reg 0x400504, .reg 0x40051C]) ?_ hq) e0
  unfold World.optStart
  try dsimp only
  repeat' first
    | with_reducible exact Rest.refl _ _ | with_reducible assumption | with_reducible refine Rest.wr _ _ _ _ (by decide) ?_
    | with_reducible refine World.optReset_rest (by decide) ?_ | with_reducible refine World.updOpt_rest (by decide) ?_
    | with_reducible refine Rest.ite ?_ ?_ | dsimp only | split | intro _

theorem World.optSave_rest {q0 : List Part} {w : World} {v' : World} {h : Half}
    (hq : partsLe [.opt] q0 = true) (e0 : Rest q0 w v') : Rest q0 (World.optSave w h) v' := by
  refine Rest.trans (Rest.mono (p := [.opt]) ?_ hq) e0
  unfold World.optSave
  try dsimp only
  repeat' first
    | with_reducible exact Rest.refl _ _ | with_reducible assumption | with_reducible refine World.updOpt_rest (by decide) ?_
    | with_reducible refine Rest.ite ?_ ?_ | dsimp only | split | intro _

theorem World.optLoad_rest {q0 : List Part} {w : World} {v' : World} {h : Half} {sec : Option OptmSec}
    (hq : partsLe [.opt, .reg 0x400500, .reg 0x400504, .reg 0x400508, .reg 0x40050C, .reg 0x400510, .reg 0x400514, .reg 0x40051C] q0 = true) (e0 : Rest q0 w v') : Rest q0 (World.optLoad w h sec) v' := by
  refine Rest.trans (Rest.mono (p := [.opt, .reg 0x400500, .reg 0x400504, .reg 0x400508, .reg 0x40050C, .reg 0x400510, .reg 0x400514, .reg 0x40051C]) ?_ hq) e0
  unfold World.optLoad
  try dsimp only
  simp only [World.forAll, List.foldl_cons, List.foldl_nil, tgtField]
  repeat' first
    | with_reducible exact Rest.refl _ _ | with_reducible assumption | with_reducible refine Rest.wr _ _ _ _ (by decide) ?_
    | with_reducible refine Rest.when ?_ ?_ | with_reducible refine Rest.forAll ?_ ?_ | with_reducible refine World.optStart_rest (by decide) ?_
    | with_reducible refine World.updOpt_rest (by decide) ?_ | with_reducible refine Rest.ite ?_ ?_ | dsimp only | split | intro _

theorem World.optCorr_rest {q0 : List Part} {w : World} {v' : World} {h : Half} {f : Rat}
    (hq : partsLe [.opt, .reg 0x40051C] q0 = true) (e0 : Rest q0 w v') : Rest q0 (World.optCorr w h f) v' := by
  refine Rest.trans (Rest.mono (p := [.opt, .reg 0x40051C]) ?_ hq) e0
  unfold World.optCorr
  try dsimp only
  repeat' first
    | with_reducible exact Rest.refl _ _ | with_reducible assumption | with_reducible refine Rest.wr _ _ _ _ (by decide) ?_
    | with_reducible refine Rest.when ?_ ?_ | with_reducible refine World.updOpt_rest (by decide) ?_ | with_reducible refine Rest.ite ?_ ?_
    | dsimp only | split | intro _

theorem World.optLearn_rest {q0 : List Part} {w : World} {v' : World} {h : Half} {u : Rat}
    (hq : partsLe [.opt] q0 = true) (e0 : Rest q0 w v') : Rest q0 (World.optLearn w h u) v' := by
  refine Rest.trans (Rest.mono (p := [.opt]) ?_ hq) e0
  unfold World.optLearn
  try dsimp only
  repeat' first
    | with_reducible exact Rest.refl _ _ | with_reducible assumption | with_reducible refine World.updOpt_rest (by decide) ?_
    | with_reducible refine Rest.ite ?_ ?_ | dsimp only | split | intro _

theorem World.optMode_rest {q0 : List Part} {w : World} {v' : World} {h : Half}
    (hq : partsLe [.opt, .reg 0x400280] q0 = true) (e0 : Rest q0 w v') : Rest q0 (World.optMode w h) v' := by
  refine Rest.trans (Rest.mono (p := [.opt, .reg 0x400280]) ?_ hq) e0
  unfold World.optMode
  try dsimp only
  repeat' first
    | with_reducible exact Rest.refl _ _ | with_reducible assumption | with_reducible refine Rest.wr _ _ _ _ (by decide) ?_
    | with_reducible refine Rest.forAll ?_ ?_ | with_reducible refine World.updOpt_rest (by decide) ?_ | with_reducible refine Rest.ite ?_ ?_
    | dsimp only | split | intro _

theorem World.optApply_rest {q0 : List Part} {w : World} {v' : World} {own : Own} {h : Half} {p : OptProb} {x : Nat → OVar → Rat}
    (hq : partsLe [.opt] q0 = true) (e0 : Rest q0 w v') : Rest q0 (World.optApply w own h p x) v' := by
  refine Rest.trans (Rest.mono (p := [.opt]) ?_ hq) e0
  unfold World.optApply
  try dsimp only
  repeat' first
    | with_reducible exact Rest.refl _ _ | with_reducible assumption | with_reducible refine World.updOpt_rest (by decide) ?_
    | with_reducible refine Rest.ite ?_ ?_ | dsimp only | split | intro _

theorem World.ditherSet_rest {q0 : List Part} {w : World} {v' : World} {h : Half} {ok : Bool}
    (hq : partsLe [.opt, .reg 0x400504] q0 = true) (e0 : Rest q0 w v') : Rest q0 (World.ditherSet w h ok) v' := by
  refine Rest.trans (Rest.mono (p := [.opt, .reg 0x400504]) ?_ hq) e0
  unfold World.ditherSet
  try dsimp only
  repeat' first
    | with_reducible exact Rest.refl _ _ | with_reducible assumption | with_reducible refine Rest.wr _ _ _ _ (by decide) ?_
    | with_reducible refine World.updOpt_rest (by decide) ?_ | with_reducible refine Rest.ite ?_ ?_ | dsimp only | split | intro _

theorem World.optResult_rest {q0 : List Part} {w : World} {v' : World} {h : Half} {res iter dur dropped : Nat}
    (hq : partsLe [.reg 0x400504, .reg 0x40051C] q0 = true) (e0 : Rest q0 w v') : Rest q0 (World.optResult w h res iter dur dropped) v' := by
  refine Rest.trans (Rest.mono (p := [.reg 0x400504, .reg 0x40051C]) ?_ hq) e0
  unfold World.optResult
  try dsimp only
  repeat' first
    | with_reducible exact Rest.refl _ _ | with_reducible assumption | with_reducible refine Rest.wr _ _ _ _ (by decide) ?_
    | with_reducible refine Rest.ite ?_ ?_ | dsimp only | split | intro _

theorem World.optFeasible_rest {q0 : List Part} {w : World} {v' : World} {own : Own} {h : Half} {p : OptProb} {s : OptSol}
    (hq : partsLe [.evt, .opt, .reg 0x100018, .reg 0x400504, .reg 0x400540] q0 = true) (e0 : Rest q0 w v') : Rest q0 (World.optFeasible w own h p s) v' := by
  refine Rest.trans (Rest.mono (p := [.evt, .opt, .reg 0x100018, .reg 0x400504, .reg 0x400540]) ?_ hq) e0
  unfold World.optFeasible
  try dsimp only
  repeat' first
    | with_reducible exact Rest.refl _ _ | with_reducible assumption | with_reducible refine Rest.wr _ _ _ _ (by decide) ?_
    | with_reducible refine Rest.raise _ _ _ (by decide) ?_ | with_reducible refine Rest.when ?_ ?_ | with_reducible refine Rest.forAll ?_ ?_
    | with_reducible refine World.optApply_rest (by decide) ?_ | with_reducible refine World.updOpt_rest (by decide) ?_
    | with_reducible refine Rest.ite ?_ ?_ | dsimp only | split | intro _

theorem World.optFallback_rest {q0 : List Part} {w : World} {v' : World} {own : Own} {h : Half} {p : OptProb}
    (hq : partsLe [.evt, .opt, .reg 0x100018, .reg 0x400504] q0 = true) (e0 : Rest q0 w v') : Rest q0 (World.optFallback w own h p) v' := by
  refine Rest.trans (Rest.mono (p := [.evt, .opt, .reg 0x100018, .reg 0x400504]) ?_ hq) e0
  unfold World.optFallback
  try dsimp only
  repeat' first
    | with_reducible exact Rest.refl _ _ | with_reducible assumption | with_reducible refine Rest.wr _ _ _ _ (by decide) ?_
    | with_reducible refine Rest.raise _ _ _ (by decide) ?_ | with_reducible refine Rest.when ?_ ?_
    | with_reducible refine World.optApply_rest (by decide) ?_ | with_reducible refine World.updOpt_rest (by decide) ?_
    | with_reducible refine Rest.ite ?_ ?_ | dsimp only | split | intro _

end Sys2Proof.Machine
end

