-- ==== Sys2Proof/Laws/RestLife.lean ====
section
/-!
SUPPORT. What each operation of these units leaves alone.
-/
set_option linter.unreachableTactic false
set_option linter.unusedTactic false

namespace Sys2Proof.Machine

theorem World.updLatch_rest {q0 : List Part} {w : World} {v' : World} {f : Latch → Latch}
    (hq : partsLe [.latch] q0 = true) (e0 : Rest q0 w v') : Rest q0 (World.updLatch w f) v' := by
  refine Rest.trans (Rest.mono (p := [.latch]) ?_ hq) e0
  unfold World.updLatch
  try dsimp only
  repeat' first
    | with_reducible exact Rest.refl _ _ | with_reducible assumption | with_reducible refine Rest.ite ?_ ?_
    | with_reducible refine Rest.set_latch (by decide) ?_ _ | dsimp only | split | intro _

theorem World.latchEval_rest {q0 : List Part} {w : World} {v' : World} 
    (hq : partsLe [.latch, .reg 0x88] q0 = true) (e0 : Rest q0 w v') : Rest q0 (World.latchEval w ) v' := by
  refine Rest.trans (Rest.mono (p := [.latch, .reg 0x88]) ?_ hq) e0
  unfold World.latchEval
  try dsimp only
  repeat' first
    | with_reducible exact Rest.refl _ _ | with_reducible assumption | with_reducible refine Rest.wrBoth _ _ _ (by decide) ?_
    | with_reducible refine World.updLatch_rest (by decide) ?_ | with_reducible refine Rest.ite ?_ ?_ | dsimp only | split | intro _

theorem World.setHoldReq_rest {q0 : List Part} {w : World} {v' : World} {h : Half} {on : Bool}
    (hq : partsLe [.latch, .reg 0x88] q0 = true) (e0 : Rest q0 w v') : Rest q0 (World.setHoldReq w h on) v' := by
  refine Rest.trans (Rest.mono (p := [.latch, .reg 0x88]) ?_ hq) e0
  unfold World.setHoldReq
  try dsimp only
  repeat' first
    | with_reducible exact Rest.refl _ _ | with_reducible assumption | with_reducible refine Rest.wr _ _ _ _ (by decide) ?_
    | with_reducible refine World.latchEval_rest (by decide) ?_ | with_reducible refine Rest.ite ?_ ?_ | dsimp only | split | intro _

theorem State.cancelShutdown_rest {q0 : List Part} {s : State} {v' : World} {h : Half}
    (hq : partsLe [.shut, .set, .regs] q0 = true) (e0 : Rest q0 s.w v') : Rest q0 (State.cancelShutdown s h).w v' := by
  refine Rest.trans (Rest.mono (p := [.shut, .set, .regs]) ?_ hq) e0
  unfold State.cancelShutdown
  try dsimp only
  repeat' first
    | with_reducible exact Rest.refl _ _ | with_reducible assumption | with_reducible refine Rest.wr _ _ _ _ (by decide) ?_
    | with_reducible refine Rest.when ?_ ?_ | with_reducible refine Rest.onW ?_ ?_ | with_reducible refine Rest.onOwn ?_
    | with_reducible refine Rest.whenS ?_ ?_ | with_reducible refine Rest.forAllS ?_ ?_ | with_reducible refine Rest.iteS ?_ ?_
    | with_reducible refine State.claimAll_rest (by decide) ?_ | with_reducible refine World.init_rest (by decide) ?_
    | with_reducible refine World.updSet_rest (by decide) ?_ | with_reducible refine Rest.ite ?_ ?_
    | with_reducible refine Rest.set_shut (by decide) ?_ _ | dsimp only | split | intro _

theorem World.updRun_rest {q0 : List Part} {w : World} {v' : World} {h : Half} {f : Run → Run}
    (hq : partsLe [.run] q0 = true) (e0 : Rest q0 w v') : Rest q0 (World.updRun w h f) v' := by
  refine Rest.trans (Rest.mono (p := [.run]) ?_ hq) e0
  unfold World.updRun
  try dsimp only
  repeat' first
    | with_reducible exact Rest.refl _ _ | with_reducible assumption | with_reducible refine Rest.ite ?_ ?_
    | with_reducible refine Rest.set_run (by decide) ?_ _ | dsimp only | split | intro _

theorem World.halfOff_rest {q0 : List Part} {w : World} {v' : World} {h : Half}
    (hq : partsLe [.run, .shut, .dram, .regs] q0 = true) (e0 : Rest q0 w v') : Rest q0 (World.halfOff w h) v' := by
  refine Rest.trans (Rest.mono (p := [.run, .shut, .dram, .regs]) ?_ hq) e0
  unfold World.halfOff
  extract_lets x1 w1
  have h1 : Rest [.run, .shut, .dram, .regs] w1 w := Rest.set_regs_shut (by decide) (Rest.refl _ _) _ _
  clear_value w1
  exact Rest.set_run_dram (by decide) h1 _ _

theorem State.backplaneOn_rest {q0 : List Part} {s : State} {v' : World} {t1 t0 : Bool} {tiles : Nat}
    (hq : partsLe [.run, .evt, .act, .shut, .svc, .vlv, .lsw, .uin, .cal, .dram, .keeper, .can, .pwr, .dsp, .latch, .regs] q0 = true) (e0 : Rest q0 s.w v') : Rest q0 (State.backplaneOn s t1 t0 tiles).w v' := by
  refine Rest.trans (Rest.mono (p := [.run, .evt, .act, .shut, .svc, .vlv, .lsw, .uin, .cal, .dram, .keeper, .can, .pwr, .dsp, .latch, .regs]) ?_ hq) e0
  unfold State.backplaneOn
  extract_lets w0 lst loss x1 w1 w2 w3 w4 x2 w5 w6 w7 w8 w9 low
  have h1 : Rest [.run, .evt, .act, .shut, .svc, .vlv, .lsw, .uin, .cal, .dram, .keeper, .can, .pwr, .dsp, .latch, .regs] w1 s.w := Rest.set_bregs_vlv_lsw_uin_can_dsp_pwr_keeper_act_cal (by decide) (Rest.refl _ _) _ _ _ _ _ _ _ _ _ _
  have h2 : Rest [.run, .evt, .act, .shut, .svc, .vlv, .lsw, .uin, .cal, .dram, .keeper, .can, .pwr, .dsp, .latch, .regs] w2 s.w := World.halfOff_rest (by decide) (World.halfOff_rest (by decide) h1)
  clear_value w1
  have h3 : Rest [.run, .evt, .act, .shut, .svc, .vlv, .lsw, .uin, .cal, .dram, .keeper, .can, .pwr, .dsp, .latch, .regs] w3 s.w := Rest.wr _ _ _ _ (by decide) (Rest.wr _ _ _ _ (by decide) h2)
  clear_value w2
  have h4 : Rest [.run, .evt, .act, .shut, .svc, .vlv, .lsw, .uin, .cal, .dram, .keeper, .can, .pwr, .dsp, .latch, .regs] w4 s.w := Rest.wrBoth _ _ _ (by decide) (Rest.wr _ _ _ _ (by decide) h3)
  clear_value w3
  have h5 : Rest [.run, .evt, .act, .shut, .svc, .vlv, .lsw, .uin, .cal, .dram, .keeper, .can, .pwr, .dsp, .latch, .regs] w5 s.w := Rest.set_svc (by decide) h4 _
  clear_value w4
  have h6 : Rest [.run, .evt, .act, .shut, .svc, .vlv, .lsw, .uin, .cal, .dram, .keeper, .can, .pwr, .dsp, .latch, .regs] w6 s.w := Rest.forAll h5 fun u a hu => World.updTile_rest (by decide) (Rest.wr _ _ _ _ (by decide) hu)
  clear_value w5
  have h7 : Rest [.run, .evt, .act, .shut, .svc, .vlv, .lsw, .uin, .cal, .dram, .keeper, .can, .pwr, .dsp, .latch, .regs] w7 s.w := Rest.wr _ _ _ _ (by decide) h6
  clear_value w6
  have h8 : Rest [.run, .evt, .act, .shut, .svc, .vlv, .lsw, .uin, .cal, .dram, .keeper, .can, .pwr, .dsp, .latch, .regs] w8 s.w := Rest.forAll h7 fun u a hu => World.safeObj_rest (by decide) hu
  clear_value w7
  exact World.latchEval_rest (by decide) (Rest.forAll h8 fun u a hu => World.greenObj_rest (by decide) hu)

theorem World.halfFresh_rest {q0 : List Part} {w : World} {v' : World} {h : Half} {cause : Nat}
    (hq : partsLe [.fresh, .run, .evt, .xng, .shut, .frame, .tim, .set, .opt, .uin, .yld, .pose, .grd, .trk, .gns, .flx, .upd, .latch, .regs] q0 = true) (e0 : Rest q0 w v') : Rest q0 (World.halfFresh w h cause) v' := by
  refine Rest.trans (Rest.mono (p := [.fresh, .run, .evt, .xng, .shut, .frame, .tim, .set, .opt, .uin, .yld, .pose, .grd, .trk, .gns, .flx, .upd, .latch, .regs]) ?_ hq) e0
  unfold World.halfFresh
  extract_lets r ok w1 x1 w2 x2 x3 x4 w3 x5 w4 w5 w6
  have h1 : Rest [.fresh, .run, .evt, .xng, .shut, .frame, .tim, .set, .opt, .uin, .yld, .pose, .grd, .trk, .gns, .flx, .upd, .latch, .regs] w1 w := Rest.set_regs (by decide) (Rest.refl _ _) _
  have h2 : Rest [.fresh, .run, .evt, .xng, .shut, .frame, .tim, .set, .opt, .uin, .yld, .pose, .grd, .trk, .gns, .flx, .upd, .latch, .regs] w2 w := World.updRun_rest (by decide) h1
  clear_value w1
  have h3 : Rest [.fresh, .run, .evt, .xng, .shut, .frame, .tim, .set, .opt, .uin, .yld, .pose, .grd, .trk, .gns, .flx, .upd, .latch, .regs] w3 w := Rest.set_evt_xng_shut_frame_set_opt_pose_grd_trk (by decide) h2 _ _ _ _ _ _ _ _ _
  clear_value w2
  have h4 : Rest [.fresh, .run, .evt, .xng, .shut, .frame, .tim, .set, .opt, .uin, .yld, .pose, .grd, .trk, .gns, .flx, .upd, .latch, .regs] w4 w := Rest.set_yld_gns_tim_flx_upd_uin (by decide) h3 _ _ _ _ _ _
  clear_value w3
  have h5 : Rest [.fresh, .run, .evt, .xng, .shut, .frame, .tim, .set, .opt, .uin, .yld, .pose, .grd, .trk, .gns, .flx, .upd, .latch, .regs] w5 w := Rest.wr _ _ _ _ (by decide) (Rest.wr _ _ _ _ (by decide) (Rest.wr _ _ _ _ (by decide) h4))
  clear_value w4
  have h6 : Rest [.fresh, .run, .evt, .xng, .shut, .frame, .tim, .set, .opt, .uin, .yld, .pose, .grd, .trk, .gns, .flx, .upd, .latch, .regs] w6 w := Rest.forAll h5 fun u a hu => World.setRegion_rest (by decide) hu
  clear_value w5 w6
  exact World.latchEval_rest (by decide) (World.drawNonce_rest (by decide) (World.showKeys_rest (by decide) h6))

theorem State.letRun_rest {q0 : List Part} {s : State} {v' : World} {h : Half} {cause : Nat}
    (hq : partsLe [.fresh, .run, .evt, .xng, .shut, .frame, .tim, .set, .opt, .uin, .yld, .pose, .grd, .trk, .gns, .flx, .upd, .latch, .regs] q0 = true) (e0 : Rest q0 s.w v') : Rest q0 (State.letRun s h cause).w v' := by
  refine Rest.trans (Rest.mono (p := [.fresh, .run, .evt, .xng, .shut, .frame, .tim, .set, .opt, .uin, .yld, .pose, .grd, .trk, .gns, .flx, .upd, .latch, .regs]) ?_ hq) e0
  unfold State.letRun
  try dsimp only
  repeat' first
    | with_reducible exact Rest.refl _ _ | with_reducible assumption | with_reducible refine Rest.when ?_ ?_ | with_reducible refine Rest.onW ?_ ?_
    | with_reducible refine Rest.onOwn ?_ | with_reducible refine Rest.whenS ?_ ?_ | with_reducible refine Rest.forAllS ?_ ?_
    | with_reducible refine Rest.iteS ?_ ?_ | with_reducible refine World.aliveRise_rest (by decide) ?_
    | with_reducible refine World.halfFresh_rest (by decide) ?_ | with_reducible refine Rest.ite ?_ ?_ | dsimp only | split | intro _

theorem State.restart_rest {q0 : List Part} {s : State} {v' : World} {h : Half} {cause : Nat}
    (hq : partsLe [.fresh, .run, .evt, .xng, .shut, .frame, .tim, .set, .opt, .vlv, .lsw, .uin, .yld, .pose, .grd, .trk, .gns, .can, .flx, .upd, .pwr, .dsp, .latch, .regs] q0 = true) (e0 : Rest q0 s.w v') : Rest q0 (State.restart s h cause).w v' := by
  refine Rest.trans (Rest.mono (p := [.fresh, .run, .evt, .xng, .shut, .frame, .tim, .set, .opt, .vlv, .lsw, .uin, .yld, .pose, .grd, .trk, .gns, .can, .flx, .upd, .pwr, .dsp, .latch, .regs]) ?_ hq) e0
  unfold State.restart
  try dsimp only
  repeat' first
    | with_reducible exact Rest.refl _ _ | with_reducible assumption | with_reducible refine Rest.when ?_ ?_ | with_reducible refine Rest.onW ?_ ?_
    | with_reducible refine Rest.onOwn ?_ | with_reducible refine Rest.whenS ?_ ?_ | with_reducible refine Rest.forAllS ?_ ?_
    | with_reducible refine Rest.iteS ?_ ?_ | with_reducible refine State.hold_rest (by decide) ?_
    | with_reducible refine State.letRun_rest (by decide) ?_ | with_reducible refine Rest.ite ?_ ?_ | dsimp only | split | intro _

theorem World.standby_rest {q0 : List Part} {w : World} {v' : World} {h : Half}
    (hq : partsLe [.run, .reg 0x80] q0 = true) (e0 : Rest q0 w v') : Rest q0 (World.standby w h) v' := by
  refine Rest.trans (Rest.mono (p := [.run, .reg 0x80]) ?_ hq) e0
  unfold World.standby
  try dsimp only
  repeat' first
    | with_reducible exact Rest.refl _ _ | with_reducible assumption | with_reducible refine Rest.wr _ _ _ _ (by decide) ?_
    | with_reducible refine World.updRun_rest (by decide) ?_ | with_reducible refine Rest.ite ?_ ?_ | dsimp only | split | intro _

theorem World.bootRegion_rest {q0 : List Part} {w : World} {v' : World} {h : Half} {r : Nat}
    (hq : partsLe [.evt, .upd, .reg 0x80, .reg 0x100018, .reg 0x1100028, .reg 0x1100040, .reg 0x1100060, .reg 0x1100080, .reg 0x11000C0] q0 = true) (e0 : Rest q0 w v') : Rest q0 (World.bootRegion w h r).1 v' := by
  refine Rest.trans (Rest.mono (p := [.evt, .upd, .reg 0x80, .reg 0x100018, .reg 0x1100028, .reg 0x1100040, .reg 0x1100060, .reg 0x1100080, .reg 0x11000C0]) ?_ hq) e0
  unfold World.bootRegion
  try dsimp only
  repeat' first
    | with_reducible exact Rest.refl _ _ | with_reducible assumption | with_reducible refine World.setRegion_rest (by decide) ?_
    | with_reducible refine Rest.ite ?_ ?_ | dsimp only | split | intro _

theorem World.orStandby_rest {q0 : List Part} {w : World} {v' : World} {h : Half} {ok : Bool}
    (hq : partsLe [.run, .reg 0x80] q0 = true) (e0 : Rest q0 w v') : Rest q0 (World.orStandby w h ok) v' := by
  refine Rest.trans (Rest.mono (p := [.run, .reg 0x80]) ?_ hq) e0
  unfold World.orStandby
  try dsimp only
  repeat' first
    | with_reducible exact Rest.refl _ _ | with_reducible assumption | with_reducible refine World.standby_rest (by decide) ?_
    | with_reducible refine Rest.ite ?_ ?_ | dsimp only | split | intro _

theorem World.bloom1_rest {q0 : List Part} {w : World} {v' : World} {h : Half}
    (hq : partsLe [.run, .evt, .upd, .reg 0x80, .reg 0x84, .reg 0x100018, .reg 0x1100028, .reg 0x1100040, .reg 0x1100060, .reg 0x1100080, .reg 0x11000C0] q0 = true) (e0 : Rest q0 w v') : Rest q0 (World.bloom1 w h) v' := by
  refine Rest.trans (Rest.mono (p := [.run, .evt, .upd, .reg 0x80, .reg 0x84, .reg 0x100018, .reg 0x1100028, .reg 0x1100040, .reg 0x1100060, .reg 0x1100080, .reg 0x11000C0]) ?_ hq) e0
  unfold World.bloom1
  try dsimp only
  repeat' first
    | with_reducible exact Rest.refl _ _ | with_reducible assumption | with_reducible refine Rest.wr _ _ _ _ (by decide) ?_
    | with_reducible refine Rest.raise _ _ _ (by decide) ?_ | with_reducible refine Rest.when ?_ ?_
    | with_reducible refine World.bootRegion_rest (by decide) ?_ | with_reducible refine World.orStandby_rest (by decide) ?_
    | with_reducible refine World.updRun_rest (by decide) ?_ | with_reducible refine Rest.ite ?_ ?_ | dsimp only | split | intro _

theorem World.gateIslands_rest {q0 : List Part} {w : World} {v' : World} {h : Half} {l : List Nat}
    (hq : partsLe [.run, .reg 0xC00018, .reg 0xD00018] q0 = true) (e0 : Rest q0 w v') : Rest q0 (World.gateIslands w h l) v' := by
  refine Rest.trans (Rest.mono (p := [.run, .reg 0xC00018, .reg 0xD00018]) ?_ hq) e0
  unfold World.gateIslands
  try dsimp only
  repeat' first
    | with_reducible exact Rest.refl _ _ | with_reducible assumption | with_reducible refine Rest.wr _ _ _ _ (by decide) ?_
    | with_reducible refine Rest.foldl ?_ ?_ | with_reducible refine World.updRun_rest (by decide) ?_ | with_reducible refine Rest.ite ?_ ?_
    | dsimp only | split | intro _

theorem State.bloom2_rest {q0 : List Part} {s : State} {v' : World} {h : Half}
    (hq : partsLe [.run, .evt, .reg 0x80, .reg 0x100018, .reg 0xC00018, .reg 0xD00018] q0 = true) (e0 : Rest q0 s.w v') : Rest q0 (State.bloom2 s h).w v' := by
  refine Rest.trans (Rest.mono (p := [.run, .evt, .reg 0x80, .reg 0x100018, .reg 0xC00018, .reg 0xD00018]) ?_ hq) e0
  unfold State.bloom2
  try dsimp only
  repeat' first
    | with_reducible exact Rest.refl _ _ | with_reducible assumption | with_reducible refine Rest.wr _ _ _ _ (by decide) ?_
    | with_reducible refine Rest.raise _ _ _ (by decide) ?_ | with_reducible refine Rest.when ?_ ?_ | with_reducible refine Rest.forAll ?_ ?_
    | with_reducible refine Rest.onW ?_ ?_ | with_reducible refine Rest.onOwn ?_ | with_reducible refine Rest.whenS ?_ ?_
    | with_reducible refine Rest.forAllS ?_ ?_ | with_reducible refine Rest.iteS ?_ ?_ | with_reducible refine World.gateIslands_rest (by decide) ?_
    | with_reducible refine World.orStandby_rest (by decide) ?_ | with_reducible refine Rest.ite ?_ ?_ | dsimp only | split | intro _

theorem World.bloom4_rest {q0 : List Part} {w : World} {v' : World} {h : Half}
    (hq : partsLe [.run, .evt, .gns, .upd, .reg 0x80, .reg 0x100018, .reg 0x1100028, .reg 0x1100040, .reg 0x1100060, .reg 0x1100080, .reg 0x11000C0] q0 = true) (e0 : Rest q0 w v') : Rest q0 (World.bloom4 w h) v' := by
  refine Rest.trans (Rest.mono (p := [.run, .evt, .gns, .upd, .reg 0x80, .reg 0x100018, .reg 0x1100028, .reg 0x1100040, .reg 0x1100060, .reg 0x1100080, .reg 0x11000C0]) ?_ hq) e0
  unfold World.bloom4
  try dsimp only
  repeat' first
    | with_reducible exact Rest.refl _ _ | with_reducible assumption | with_reducible refine World.bootRegion_rest (by decide) ?_
    | with_reducible refine World.gnssOn_rest (by decide) ?_ | with_reducible refine World.orStandby_rest (by decide) ?_
    | with_reducible refine Rest.ite ?_ ?_ | dsimp only | split | intro _

theorem World.swapRoast_rest {q0 : List Part} {w : World} {v' : World} {h : Half}
    (hq : partsLe [.evt, .roast, .upd, .reg 0x80, .reg 0x100018, .reg 0x1100028, .reg 0x1100040, .reg 0x1100060, .reg 0x1100080, .reg 0x11000C0] q0 = true) (e0 : Rest q0 w v') : Rest q0 (World.swapRoast w h) v' := by
  refine Rest.trans (Rest.mono (p := [.evt, .roast, .upd, .reg 0x80, .reg 0x100018, .reg 0x1100028, .reg 0x1100040, .reg 0x1100060, .reg 0x1100080, .reg 0x11000C0]) ?_ hq) e0
  unfold World.swapRoast
  try dsimp only
  repeat' first
    | with_reducible exact Rest.refl _ _ | with_reducible assumption | with_reducible refine World.setRegion_rest (by decide) ?_
    | with_reducible refine Rest.ite ?_ ?_ | with_reducible refine Rest.set_roast (by decide) ?_ _ | dsimp only | split | intro _

theorem World.setTrial_rest {q0 : List Part} {w : World} {v' : World} {h : Half} {on : Bool}
    (hq : partsLe [.roast] q0 = true) (e0 : Rest q0 w v') : Rest q0 (World.setTrial w h on) v' := by
  refine Rest.trans (Rest.mono (p := [.roast]) ?_ hq) e0
  unfold World.setTrial
  try dsimp only
  repeat' first
    | with_reducible exact Rest.refl _ _ | with_reducible assumption | with_reducible refine Rest.ite ?_ ?_
    | with_reducible refine Rest.set_roast (by decide) ?_ _ | dsimp only | split | intro _

theorem World.recordCheck_rest {q0 : List Part} {w : World} {v' : World} {h : Half}
    (hq : partsLe [.evt, .roast, .upd, .reg 0x80, .reg 0x100018, .reg 0x1100028, .reg 0x1100040, .reg 0x1100060, .reg 0x1100080, .reg 0x11000C0] q0 = true) (e0 : Rest q0 w v') : Rest q0 (World.recordCheck w h).1 v' := by
  refine Rest.trans (Rest.mono (p := [.evt, .roast, .upd, .reg 0x80, .reg 0x100018, .reg 0x1100028, .reg 0x1100040, .reg 0x1100060, .reg 0x1100080, .reg 0x11000C0]) ?_ hq) e0
  unfold World.recordCheck
  try dsimp only
  repeat' first
    | with_reducible exact Rest.refl _ _ | with_reducible assumption | with_reducible refine World.setTrial_rest (by decide) ?_
    | with_reducible refine World.swapRoast_rest (by decide) ?_ | with_reducible refine Rest.ite ?_ ?_ | dsimp only | split | intro _

theorem World.bloom5_rest {q0 : List Part} {w : World} {v' : World} {h : Half}
    (hq : partsLe [.run, .evt, .roast, .upd, .reg 0x80, .reg 0x100018, .reg 0x1100028, .reg 0x1100040, .reg 0x1100060, .reg 0x1100080, .reg 0x11000C0] q0 = true) (e0 : Rest q0 w v') : Rest q0 (World.bloom5 w h) v' := by
  refine Rest.trans (Rest.mono (p := [.run, .evt, .roast, .upd, .reg 0x80, .reg 0x100018, .reg 0x1100028, .reg 0x1100040, .reg 0x1100060, .reg 0x1100080, .reg 0x11000C0]) ?_ hq) e0
  unfold World.bloom5
  try dsimp only
  repeat' first
    | with_reducible exact Rest.refl _ _ | with_reducible assumption | with_reducible refine Rest.when ?_ ?_
    | with_reducible refine World.orStandby_rest (by decide) ?_ | with_reducible refine World.recordCheck_rest (by decide) ?_
    | with_reducible refine World.roastReject_rest (by decide) ?_ | with_reducible refine Rest.ite ?_ ?_
    | with_reducible refine Rest.set_roast (by decide) ?_ _ | dsimp only | split | intro _

theorem World.bindLoad_rest {q0 : List Part} {w : World} {v' : World} {c : BindSec}
    (hq : partsLe [.uin, .reg 0x700024, .reg 0x700080, .reg 0x800010] q0 = true) (e0 : Rest q0 w v') : Rest q0 (World.bindLoad w c) v' := by
  refine Rest.trans (Rest.mono (p := [.uin, .reg 0x700024, .reg 0x700080, .reg 0x800010]) ?_ hq) e0
  unfold World.bindLoad
  try dsimp only
  repeat' first
    | with_reducible exact Rest.refl _ _ | with_reducible assumption | with_reducible refine Rest.wr _ _ _ _ (by decide) ?_
    | with_reducible refine Rest.forAll ?_ ?_ | with_reducible refine Rest.ite ?_ ?_ | with_reducible refine Rest.set_uin (by decide) ?_ _
    | dsimp only | split | intro _

theorem World.sharedLoad_rest {q0 : List Part} {w : World} {v' : World} {c : Content}
    (hq : partsLe [.lsw, .uin, .can, .dsp, .regs] q0 = true) (e0 : Rest q0 w v') : Rest q0 (World.sharedLoad w c) v' := by
  refine Rest.trans (Rest.mono (p := [.lsw, .uin, .can, .dsp, .regs]) ?_ hq) e0
  unfold World.sharedLoad
  try dsimp only
  repeat' first
    | with_reducible exact Rest.refl _ _ | with_reducible assumption | with_reducible refine Rest.forAll ?_ ?_
    | with_reducible refine World.bindLoad_rest (by decide) ?_ | with_reducible refine World.canInit_rest (by decide) ?_
    | with_reducible refine World.canLoad_rest (by decide) ?_ | with_reducible refine World.dspLoad_rest (by decide) ?_
    | with_reducible refine Rest.ite ?_ ?_ | with_reducible refine Rest.set_lsw (by decide) ?_ _ | with_reducible refine Rest.set_can (by decide) ?_ _
    | with_reducible refine Rest.set_lsw_can (by decide) ?_ _ _ | dsimp only | split | intro _

theorem World.yieldLoad_rest {q0 : List Part} {w : World} {v' : World} {h : Half} {sec : Option YildSec}
    (hq : partsLe [.yld, .reg 0x400600, .reg 0x400610, .reg 0x400614, .reg 0x400618, .reg 0x40061C, .reg 0x400620, .reg 0x400640] q0 = true) (e0 : Rest q0 w v') : Rest q0 (World.yieldLoad w h sec) v' := by
  refine Rest.trans (Rest.mono (p := [.yld, .reg 0x400600, .reg 0x400610, .reg 0x400614, .reg 0x400618, .reg 0x40061C, .reg 0x400620, .reg 0x400640]) ?_ hq) e0
  unfold World.yieldLoad
  try dsimp only
  repeat' first
    | with_reducible exact Rest.refl _ _ | with_reducible assumption | with_reducible refine Rest.wr _ _ _ _ (by decide) ?_
    | with_reducible refine World.showLoads_rest (by decide) ?_ | with_reducible refine World.showTotals_rest (by decide) ?_
    | with_reducible refine World.updYield_rest (by decide) ?_ | with_reducible refine Rest.ite ?_ ?_ | dsimp only | split | intro _

theorem State.bloom6_rest {q0 : List Part} {s : State} {v' : World} {h : Half}
    (hq : partsLe [.evt, .set, .opt, .vlv, .lsw, .uin, .yld, .grd, .can, .pwr, .dsp, .regs] q0 = true) (e0 : Rest q0 s.w v') : Rest q0 (State.bloom6 s h).w v' := by
  refine Rest.trans (Rest.mono (p := [.evt, .set, .opt, .vlv, .lsw, .uin, .yld, .grd, .can, .pwr, .dsp, .regs]) ?_ hq) e0
  unfold State.bloom6
  try dsimp only
  repeat' first
    | with_reducible exact Rest.refl _ _ | with_reducible assumption | with_reducible refine Rest.when ?_ ?_ | with_reducible refine Rest.forAll ?_ ?_
    | with_reducible refine Rest.onW ?_ ?_ | with_reducible refine Rest.onOwn ?_ | with_reducible refine Rest.whenS ?_ ?_
    | with_reducible refine Rest.forAllS ?_ ?_ | with_reducible refine Rest.iteS ?_ ?_ | with_reducible refine State.setOrphanT_rest (by decide) ?_
    | with_reducible refine World.optLoad_rest (by decide) ?_ | with_reducible refine World.sharedLoad_rest (by decide) ?_
    | with_reducible refine World.tileLoad_rest (by decide) ?_ | with_reducible refine World.updGrind_rest (by decide) ?_
    | with_reducible refine World.updSet_rest (by decide) ?_ | with_reducible refine World.yieldLoad_rest (by decide) ?_
    | with_reducible refine Rest.ite ?_ ?_ | with_reducible refine Rest.set_evt (by decide) ?_ _ | dsimp only | split | intro _

theorem World.bloom7_rest {q0 : List Part} {w : World} {v' : World} {h : Half}
    (hq : partsLe [.evt, .reg 0x100018, .reg 0x701000, .reg 0x701004, .reg 0x900030] q0 = true) (e0 : Rest q0 w v') : Rest q0 (World.bloom7 w h) v' := by
  refine Rest.trans (Rest.mono (p := [.evt, .reg 0x100018, .reg 0x701000, .reg 0x701004, .reg 0x900030]) ?_ hq) e0
  unfold World.bloom7
  try dsimp only
  repeat' first
    | with_reducible exact Rest.refl _ _ | with_reducible assumption | with_reducible refine Rest.forAll ?_ ?_
    | with_reducible refine World.canOnBus_rest (by decide) ?_ | with_reducible refine World.publishIn_rest (by decide) ?_
    | with_reducible refine Rest.ite ?_ ?_ | dsimp only | split | intro _

theorem State.bloom8_rest {q0 : List Part} {s : State} {v' : World} {h : Half}
    (hq : partsLe [.run, .evt, .flx, .reg 0x80, .reg 0x100018, .reg 0x30010C, .reg 0xA00140, .reg 0xB00018, .reg 0x120002C] q0 = true) (e0 : Rest q0 s.w v') : Rest q0 (State.bloom8 s h).w v' := by
  refine Rest.trans (Rest.mono (p := [.run, .evt, .flx, .reg 0x80, .reg 0x100018, .reg 0x30010C, .reg 0xA00140, .reg 0xB00018, .reg 0x120002C]) ?_ hq) e0
  unfold State.bloom8
  try dsimp only
  repeat' first
    | with_reducible exact Rest.refl _ _ | with_reducible assumption | with_reducible refine Rest.when ?_ ?_ | with_reducible refine Rest.onW ?_ ?_
    | with_reducible refine Rest.onOwn ?_ | with_reducible refine Rest.whenS ?_ ?_ | with_reducible refine Rest.forAllS ?_ ?_
    | with_reducible refine Rest.iteS ?_ ?_ | with_reducible refine State.claimAll_rest (by decide) ?_
    | with_reducible refine State.serverReq_rest (by decide) ?_ | with_reducible refine World.standby_rest (by decide) ?_
    | with_reducible refine Rest.ite ?_ ?_ | dsimp only | split | intro _

theorem World.writeGreen_rest {q0 : List Part} {w : World} {v' : World} {bank : NMap Gren}
    (hq : partsLe [.bp] q0 = true) (e0 : Rest q0 w v') : Rest q0 (World.writeGreen w bank) v' := by
  refine Rest.trans (Rest.mono (p := [.bp]) ?_ hq) e0
  unfold World.writeGreen
  try dsimp only
  repeat' first
    | with_reducible exact Rest.refl _ _ | with_reducible assumption | with_reducible refine Rest.ite ?_ ?_
    | with_reducible refine Rest.set_bp (by decide) ?_ _ | dsimp only | split | intro _

theorem World.greenSync_rest {q0 : List Part} {w : World} {v' : World} {h : Half}
    (hq : partsLe [.evt, .bp, .reg 0x100018] q0 = true) (e0 : Rest q0 w v') : Rest q0 (World.greenSync w h) v' := by
  refine Rest.trans (Rest.mono (p := [.evt, .bp, .reg 0x100018]) ?_ hq) e0
  unfold World.greenSync
  try dsimp only
  repeat' first
    | with_reducible exact Rest.refl _ _ | with_reducible assumption | with_reducible refine Rest.raise _ _ _ (by decide) ?_
    | with_reducible refine Rest.when ?_ ?_ | with_reducible refine World.writeGreen_rest (by decide) ?_ | with_reducible refine Rest.ite ?_ ?_
    | dsimp only | split | intro _

theorem World.lifeDue_rest {q0 : List Part} {w : World} {v' : World} {h : Half}
    (hq : partsLe [.evt, .reg 0x100018] q0 = true) (e0 : Rest q0 w v') : Rest q0 (World.lifeDue w h) v' := by
  refine Rest.trans (Rest.mono (p := [.evt, .reg 0x100018]) ?_ hq) e0
  unfold World.lifeDue
  try dsimp only
  repeat' first
    | with_reducible exact Rest.refl _ _ | with_reducible assumption | with_reducible refine Rest.raise _ _ _ (by decide) ?_
    | with_reducible refine Rest.when ?_ ?_ | with_reducible refine Rest.ite ?_ ?_ | dsimp only | split | intro _

theorem State.bloom9_rest {q0 : List Part} {s : State} {v' : World} {h : Half}
    (hq : partsLe [.evt, .bp, .shut, .set, .trk, .latch, .reg 0x80, .reg 0x84, .reg 0x88, .reg 0x100018, .reg 0x300100, .reg 0x400010, .reg 0x400018, .reg 0x400600, .reg 0xB00018] q0 = true) (e0 : Rest q0 s.w v') : Rest q0 (State.bloom9 s h).w v' := by
  refine Rest.trans (Rest.mono (p := [.evt, .bp, .shut, .set, .trk, .latch, .reg 0x80, .reg 0x84, .reg 0x88, .reg 0x100018, .reg 0x300100, .reg 0x400010, .reg 0x400018, .reg 0x400600, .reg 0xB00018]) ?_ hq) e0
  unfold State.bloom9
  try dsimp only
  repeat' first
    | with_reducible exact Rest.refl _ _ | with_reducible assumption | with_reducible refine Rest.wr _ _ _ _ (by decide) ?_
    | with_reducible refine Rest.raise _ _ _ (by decide) ?_ | with_reducible refine Rest.when ?_ ?_ | with_reducible refine Rest.onW ?_ ?_
    | with_reducible refine Rest.onOwn ?_ | with_reducible refine Rest.whenS ?_ ?_ | with_reducible refine Rest.forAllS ?_ ?_
    | with_reducible refine Rest.iteS ?_ ?_ | with_reducible refine World.engines_rest (by decide) ?_
    | with_reducible refine World.greenSync_rest (by decide) ?_ | with_reducible refine World.lifeDue_rest (by decide) ?_
    | with_reducible refine World.setHoldReq_rest (by decide) ?_ | with_reducible refine World.updLatch_rest (by decide) ?_
    | with_reducible refine World.updSet_rest (by decide) ?_ | with_reducible refine World.updTrk_rest (by decide) ?_
    | with_reducible refine Rest.ite ?_ ?_ | with_reducible refine Rest.set_shut (by decide) ?_ _ | dsimp only | split | intro _

theorem State.bloomStep_rest {q0 : List Part} {s : State} {v' : World} {h : Half} {k : Nat}
    (hq : partsLe [.run, .evt, .roast, .bp, .shut, .tim, .set, .opt, .vlv, .lsw, .uin, .yld, .grd, .trk, .gns, .can, .flx, .upd, .pwr, .dsp, .latch, .regs] q0 = true) (e0 : Rest q0 s.w v') : Rest q0 (State.bloomStep s h k).w v' := by
  refine Rest.trans (Rest.mono (p := [.run, .evt, .roast, .bp, .shut, .tim, .set, .opt, .vlv, .lsw, .uin, .yld, .grd, .trk, .gns, .can, .flx, .upd, .pwr, .dsp, .latch, .regs]) ?_ hq) e0
  unfold State.bloomStep
  try dsimp only
  repeat' first
    | with_reducible exact Rest.refl _ _ | with_reducible assumption | with_reducible refine Rest.onW ?_ ?_ | with_reducible refine Rest.onOwn ?_
    | with_reducible refine Rest.whenS ?_ ?_ | with_reducible refine Rest.forAllS ?_ ?_ | with_reducible refine Rest.iteS ?_ ?_
    | with_reducible refine State.bloom2_rest (by decide) ?_ | with_reducible refine State.bloom6_rest (by decide) ?_
    | with_reducible refine State.bloom8_rest (by decide) ?_ | with_reducible refine State.bloom9_rest (by decide) ?_
    | with_reducible refine World.bloom1_rest (by decide) ?_ | with_reducible refine World.bloom4_rest (by decide) ?_
    | with_reducible refine World.bloom5_rest (by decide) ?_ | with_reducible refine World.bloom7_rest (by decide) ?_
    | with_reducible refine World.timBloom_rest (by decide) ?_ | with_reducible refine Rest.ite ?_ ?_ | dsimp only | split | intro _

theorem World.notePour_rest {q0 : List Part} {w : World} {v' : World} {h : Half}
    (hq : partsLe [.run, .reg 0x80] q0 = true) (e0 : Rest q0 w v') : Rest q0 (World.notePour w h) v' := by
  refine Rest.trans (Rest.mono (p := [.run, .reg 0x80]) ?_ hq) e0
  unfold World.notePour
  try dsimp only
  repeat' first
    | with_reducible exact Rest.refl _ _ | with_reducible assumption | with_reducible refine Rest.wr _ _ _ _ (by decide) ?_
    | with_reducible refine World.updRun_rest (by decide) ?_ | with_reducible refine Rest.ite ?_ ?_ | dsimp only | split | intro _

theorem State.activateAsk_rest {q0 : List Part} {s : State} {v' : World} {h : Half}
    (hq : partsLe [.act, .reg 0x1100028] q0 = true) (e0 : Rest q0 s.w v') : Rest q0 (State.activateAsk s h).w v' := by
  refine Rest.trans (Rest.mono (p := [.act, .reg 0x1100028]) ?_ hq) e0
  unfold State.activateAsk
  try dsimp only
  repeat' first
    | with_reducible exact Rest.refl _ _ | with_reducible assumption | with_reducible refine Rest.wr _ _ _ _ (by decide) ?_
    | with_reducible refine Rest.when ?_ ?_ | with_reducible refine Rest.onW ?_ ?_ | with_reducible refine Rest.onOwn ?_
    | with_reducible refine Rest.whenS ?_ ?_ | with_reducible refine Rest.forAllS ?_ ?_ | with_reducible refine Rest.iteS ?_ ?_
    | with_reducible refine Rest.ite ?_ ?_ | with_reducible refine Rest.set_act (by decide) ?_ _ | dsimp only | split | intro _

theorem State.setStep_rest {q0 : List Part} {s : State} {v' : World} {a : Activation} {k : Nat}
    (hq : partsLe [.act] q0 = true) (e0 : Rest q0 s.w v') : Rest q0 (State.setStep s a k).w v' := by
  refine Rest.trans (Rest.mono (p := [.act]) ?_ hq) e0
  unfold State.setStep
  try dsimp only
  repeat' first
    | with_reducible exact Rest.refl _ _ | with_reducible assumption | with_reducible refine Rest.onW ?_ ?_ | with_reducible refine Rest.onOwn ?_
    | with_reducible refine Rest.whenS ?_ ?_ | with_reducible refine Rest.forAllS ?_ ?_ | with_reducible refine Rest.iteS ?_ ?_
    | with_reducible refine Rest.ite ?_ ?_ | with_reducible refine Rest.set_act (by decide) ?_ _ | dsimp only | split | intro _

theorem State.activateTrial_rest {q0 : List Part} {s : State} {v' : World} {n : Half}
    (hq : partsLe [.fresh, .run, .evt, .xng, .roast, .shut, .frame, .tim, .set, .opt, .vlv, .lsw, .uin, .yld, .pose, .grd, .trk, .gns, .can, .flx, .upd, .pwr, .dsp, .latch, .regs] q0 = true) (e0 : Rest q0 s.w v') : Rest q0 (State.activateTrial s n).w v' := by
  refine Rest.trans (Rest.mono (p := [.fresh, .run, .evt, .xng, .roast, .shut, .frame, .tim, .set, .opt, .vlv, .lsw, .uin, .yld, .pose, .grd, .trk, .gns, .can, .flx, .upd, .pwr, .dsp, .latch, .regs]) ?_ hq) e0
  unfold State.activateTrial
  try dsimp only
  repeat' first
    | with_reducible exact Rest.refl _ _ | with_reducible assumption | with_reducible refine Rest.onW ?_ ?_ | with_reducible refine Rest.onOwn ?_
    | with_reducible refine Rest.whenS ?_ ?_ | with_reducible refine Rest.forAllS ?_ ?_ | with_reducible refine Rest.iteS ?_ ?_
    | with_reducible refine State.restart_rest (by decide) ?_ | with_reducible refine World.setTrial_rest (by decide) ?_
    | with_reducible refine World.swapRoast_rest (by decide) ?_ | with_reducible refine Rest.ite ?_ ?_ | dsimp only | split | intro _

theorem World.commitRoast_rest {q0 : List Part} {w : World} {v' : World} {n : Half}
    (hq : partsLe [.bp] q0 = true) (e0 : Rest q0 w v') : Rest q0 (World.commitRoast w n) v' := by
  refine Rest.trans (Rest.mono (p := [.bp]) ?_ hq) e0
  unfold World.commitRoast
  try dsimp only
  repeat' first
    | with_reducible exact Rest.refl _ _ | with_reducible assumption | with_reducible refine World.writeGreen_rest (by decide) ?_
    | with_reducible refine Rest.ite ?_ ?_ | with_reducible refine Rest.set_bp (by decide) ?_ _ | dsimp only | split | intro _

theorem State.activatePass_rest {q0 : List Part} {s : State} {v' : World} {n : Half}
    (hq : partsLe [.run, .evt, .vlv, .lsw, .can, .flx, .pwr, .dsp, .reg 0x100018, .reg 0x30010C, .reg 0x300114, .reg 0x500028, .reg 0x500080, .reg 0x600024, .reg 0x600030, .reg 0x700080, .reg 0x900030, .reg 0x900044, .reg 0xA00140, .reg 0xB00018, .reg 0xF00018, .reg 0x1000020, .reg 0x1000044, .reg 0x120002C] q0 = true) (e0 : Rest q0 s.w v') : Rest q0 (State.activatePass s n).w v' := by
  refine Rest.trans (Rest.mono (p := [.run, .evt, .vlv, .lsw, .can, .flx, .pwr, .dsp, .reg 0x100018, .reg 0x30010C, .reg 0x300114, .reg 0x500028, .reg 0x500080, .reg 0x600024, .reg 0x600030, .reg 0x700080, .reg 0x900030, .reg 0x900044, .reg 0xA00140, .reg 0xB00018, .reg 0xF00018, .reg 0x1000020, .reg 0x1000044, .reg 0x120002C]) ?_ hq) e0
  unfold State.activatePass
  try dsimp only
  repeat' first
    | with_reducible exact Rest.refl _ _ | with_reducible assumption | with_reducible refine Rest.when ?_ ?_ | with_reducible refine Rest.onW ?_ ?_
    | with_reducible refine Rest.onOwn ?_ | with_reducible refine Rest.whenS ?_ ?_ | with_reducible refine Rest.forAllS ?_ ?_
    | with_reducible refine Rest.iteS ?_ ?_ | with_reducible refine State.handoverAllNow_rest (by decide) ?_
    | with_reducible refine State.hold_rest (by decide) ?_ | with_reducible refine State.serverReq_rest (by decide) ?_
    | with_reducible refine State.setOrphanT_rest (by decide) ?_ | with_reducible refine Rest.ite ?_ ?_ | dsimp only | split | intro _

theorem State.activateAdopt_rest {q0 : List Part} {s : State} {v' : World} {n : Half}
    (hq : partsLe [.evt, .set, .vlv, .lsw, .uin, .can, .pwr, .dsp, .regs] q0 = true) (e0 : Rest q0 s.w v') : Rest q0 (State.activateAdopt s n).w v' := by
  refine Rest.trans (Rest.mono (p := [.evt, .set, .vlv, .lsw, .uin, .can, .pwr, .dsp, .regs]) ?_ hq) e0
  unfold State.activateAdopt
  try dsimp only
  repeat' first
    | with_reducible exact Rest.refl _ _ | with_reducible assumption | with_reducible refine Rest.when ?_ ?_ | with_reducible refine Rest.forAll ?_ ?_
    | with_reducible refine Rest.onW ?_ ?_ | with_reducible refine Rest.onOwn ?_ | with_reducible refine Rest.whenS ?_ ?_
    | with_reducible refine Rest.forAllS ?_ ?_ | with_reducible refine Rest.iteS ?_ ?_ | with_reducible refine State.claimAll_rest (by decide) ?_
    | with_reducible refine World.bloom7_rest (by decide) ?_ | with_reducible refine World.greenObj_rest (by decide) ?_
    | with_reducible refine World.sharedLoad_rest (by decide) ?_ | with_reducible refine World.updSet_rest (by decide) ?_
    | with_reducible refine Rest.ite ?_ ?_ | dsimp only | split | intro _

theorem State.activateOld_rest {q0 : List Part} {s : State} {v' : World} {o : Half}
    (hq : partsLe [.fresh, .run, .evt, .xng, .roast, .shut, .frame, .tim, .set, .opt, .vlv, .lsw, .uin, .yld, .pose, .grd, .trk, .gns, .can, .flx, .upd, .pwr, .dsp, .latch, .regs] q0 = true) (e0 : Rest q0 s.w v') : Rest q0 (State.activateOld s o).w v' := by
  refine Rest.trans (Rest.mono (p := [.fresh, .run, .evt, .xng, .roast, .shut, .frame, .tim, .set, .opt, .vlv, .lsw, .uin, .yld, .pose, .grd, .trk, .gns, .can, .flx, .upd, .pwr, .dsp, .latch, .regs]) ?_ hq) e0
  unfold State.activateOld
  try dsimp only
  repeat' first
    | with_reducible exact Rest.refl _ _ | with_reducible assumption | with_reducible refine Rest.when ?_ ?_ | with_reducible refine Rest.onW ?_ ?_
    | with_reducible refine Rest.onOwn ?_ | with_reducible refine Rest.whenS ?_ ?_ | with_reducible refine Rest.forAllS ?_ ?_
    | with_reducible refine Rest.iteS ?_ ?_ | with_reducible refine State.restart_rest (by decide) ?_
    | with_reducible refine World.swapRoast_rest (by decide) ?_ | with_reducible refine Rest.ite ?_ ?_ | dsimp only | split | intro _

theorem State.activateEnd_rest {q0 : List Part} {s : State} {v' : World} 
    (hq : partsLe [.evt, .roast, .bp, .act, .reg 0x100018] q0 = true) (e0 : Rest q0 s.w v') : Rest q0 (State.activateEnd s ).w v' := by
  refine Rest.trans (Rest.mono (p := [.evt, .roast, .bp, .act, .reg 0x100018]) ?_ hq) e0
  unfold State.activateEnd
  try dsimp only
  repeat' first
    | with_reducible exact Rest.refl _ _ | with_reducible assumption | with_reducible refine Rest.raise _ _ _ (by decide) ?_
    | with_reducible refine Rest.when ?_ ?_ | with_reducible refine Rest.forAll ?_ ?_ | with_reducible refine Rest.onW ?_ ?_
    | with_reducible refine Rest.onOwn ?_ | with_reducible refine Rest.whenS ?_ ?_ | with_reducible refine Rest.forAllS ?_ ?_
    | with_reducible refine Rest.iteS ?_ ?_ | with_reducible refine World.setTrial_rest (by decide) ?_ | with_reducible refine Rest.ite ?_ ?_
    | with_reducible refine Rest.set_act (by decide) ?_ _ | with_reducible refine Rest.set_bp (by decide) ?_ _
    | with_reducible refine Rest.set_bp_act (by decide) ?_ _ _ | dsimp only | split | intro _

theorem State.activateDrop_rest {q0 : List Part} {s : State} {v' : World} {a : Activation}
    (hq : partsLe [.fresh, .run, .evt, .xng, .roast, .act, .shut, .frame, .tim, .set, .opt, .vlv, .lsw, .uin, .yld, .pose, .grd, .trk, .gns, .can, .flx, .upd, .pwr, .dsp, .latch, .regs] q0 = true) (e0 : Rest q0 s.w v') : Rest q0 (State.activateDrop s a).w v' := by
  refine Rest.trans (Rest.mono (p := [.fresh, .run, .evt, .xng, .roast, .act, .shut, .frame, .tim, .set, .opt, .vlv, .lsw, .uin, .yld, .pose, .grd, .trk, .gns, .can, .flx, .upd, .pwr, .dsp, .latch, .regs]) ?_ hq) e0
  unfold State.activateDrop
  try dsimp only
  repeat' first
    | with_reducible exact Rest.refl _ _ | with_reducible assumption | with_reducible refine Rest.when ?_ ?_ | with_reducible refine Rest.onW ?_ ?_
    | with_reducible refine Rest.onOwn ?_ | with_reducible refine Rest.whenS ?_ ?_ | with_reducible refine Rest.forAllS ?_ ?_
    | with_reducible refine Rest.iteS ?_ ?_ | with_reducible refine State.restart_rest (by decide) ?_
    | with_reducible refine World.setTrial_rest (by decide) ?_ | with_reducible refine World.swapRoast_rest (by decide) ?_
    | with_reducible refine Rest.ite ?_ ?_ | with_reducible refine Rest.set_act (by decide) ?_ _ | dsimp only | split | intro _

theorem State.activateKnock_rest {q0 : List Part} {s : State} {v' : World} 
    (hq : partsLe [.fresh, .run, .evt, .xng, .roast, .act, .shut, .frame, .tim, .set, .opt, .vlv, .lsw, .uin, .yld, .pose, .grd, .trk, .gns, .can, .flx, .upd, .pwr, .dsp, .latch, .regs] q0 = true) (e0 : Rest q0 s.w v') : Rest q0 (State.activateKnock s ).1.w v' := by
  refine Rest.trans (Rest.mono (p := [.fresh, .run, .evt, .xng, .roast, .act, .shut, .frame, .tim, .set, .opt, .vlv, .lsw, .uin, .yld, .pose, .grd, .trk, .gns, .can, .flx, .upd, .pwr, .dsp, .latch, .regs]) ?_ hq) e0
  unfold State.activateKnock
  try dsimp only
  repeat' first
    | with_reducible exact Rest.refl _ _ | with_reducible assumption | with_reducible refine Rest.onW ?_ ?_ | with_reducible refine Rest.onOwn ?_
    | with_reducible refine Rest.whenS ?_ ?_ | with_reducible refine Rest.forAllS ?_ ?_ | with_reducible refine Rest.iteS ?_ ?_
    | with_reducible refine State.activateDrop_rest (by decide) ?_ | with_reducible refine Rest.ite ?_ ?_ | dsimp only | split | intro _

theorem World.updShut_rest {q0 : List Part} {w : World} {v' : World} {h : Half} {f : Shut → Shut}
    (hq : partsLe [.shut] q0 = true) (e0 : Rest q0 w v') : Rest q0 (World.updShut w h f) v' := by
  refine Rest.trans (Rest.mono (p := [.shut]) ?_ hq) e0
  unfold World.updShut
  try dsimp only
  repeat' first
    | with_reducible exact Rest.refl _ _ | with_reducible assumption | with_reducible refine Rest.ite ?_ ?_
    | with_reducible refine Rest.set_shut (by decide) ?_ _ | dsimp only | split | intro _

theorem World.cupRecord_rest {q0 : List Part} {w : World} {v' : World} {h : Half} {n res reason : Nat} {m : CupMeas}
    (hq : partsLe [.shut, .reg 0x1300200, .reg 0x1300204, .reg 0x1300208, .reg 0x130020C] q0 = true) (e0 : Rest q0 w v') : Rest q0 (World.cupRecord w h n res reason m) v' := by
  refine Rest.trans (Rest.mono (p := [.shut, .reg 0x1300200, .reg 0x1300204, .reg 0x1300208, .reg 0x130020C]) ?_ hq) e0
  unfold World.cupRecord
  try dsimp only
  simp only [List.foldl_cons, List.foldl_nil]
  repeat' first
    | with_reducible exact Rest.refl _ _ | with_reducible assumption | with_reducible refine Rest.wr _ _ _ _ (by decide) ?_
    | with_reducible refine Rest.wrI _ _ _ _ (by decide) ?_ | with_reducible refine Rest.foldl ?_ ?_
    | with_reducible refine World.updShut_rest (by decide) ?_ | with_reducible refine Rest.ite ?_ ?_ | dsimp only | split | intro _

theorem World.cupSkip_rest {q0 : List Part} {w : World} {v' : World} {h : Half} {reason n : Nat}
    (hq : partsLe [.fresh, .shut, .reg 0x1300200, .reg 0x1300204, .reg 0x1300208, .reg 0x130020C] q0 = true) (e0 : Rest q0 w v') : Rest q0 (World.cupSkip w h reason n) v' := by
  refine Rest.trans (Rest.mono (p := [.fresh, .shut, .reg 0x1300200, .reg 0x1300204, .reg 0x1300208, .reg 0x130020C]) ?_ hq) e0
  unfold World.cupSkip
  try dsimp only
  repeat' first
    | with_reducible exact Rest.refl _ _ | with_reducible assumption | with_reducible refine World.cupRecord_rest (by decide) ?_
    | with_reducible refine Rest.ite ?_ ?_ | with_reducible refine Rest.free (by decide) ?_ | dsimp only | split | intro _

theorem World.cupEnd_rest {q0 : List Part} {w : World} {v' : World} {h : Half} {n : Nat} {m : CupMeas} {cause : Option Nat}
    (hq : partsLe [.shut, .reg 0x1300200, .reg 0x1300204, .reg 0x1300208, .reg 0x130020C] q0 = true) (e0 : Rest q0 w v') : Rest q0 (World.cupEnd w h n m cause) v' := by
  refine Rest.trans (Rest.mono (p := [.shut, .reg 0x1300200, .reg 0x1300204, .reg 0x1300208, .reg 0x130020C]) ?_ hq) e0
  unfold World.cupEnd
  try dsimp only
  repeat' first
    | with_reducible exact Rest.refl _ _ | with_reducible assumption | with_reducible refine World.cupRecord_rest (by decide) ?_
    | with_reducible refine Rest.ite ?_ ?_ | dsimp only | split | intro _

theorem World.cupPhase_rest {q0 : List Part} {w : World} {v' : World} {h : Half} {p : Nat}
    (hq : partsLe [.reg 0x1300018] q0 = true) (e0 : Rest q0 w v') : Rest q0 (World.cupPhase w h p) v' := by
  refine Rest.trans (Rest.mono (p := [.reg 0x1300018]) ?_ hq) e0
  unfold World.cupPhase
  try dsimp only
  repeat' first
    | with_reducible exact Rest.refl _ _ | with_reducible assumption | with_reducible refine Rest.wr _ _ _ _ (by decide) ?_
    | with_reducible refine Rest.ite ?_ ?_ | dsimp only | split | intro _

theorem World.cupNext_rest {q0 : List Part} {w : World} {v' : World} {h : Half}
    (hq : partsLe [.reg 0x1300018] q0 = true) (e0 : Rest q0 w v') : Rest q0 (World.cupNext w h) v' := by
  refine Rest.trans (Rest.mono (p := [.reg 0x1300018]) ?_ hq) e0
  unfold World.cupNext
  try dsimp only
  repeat' first
    | with_reducible exact Rest.refl _ _ | with_reducible assumption | with_reducible refine Rest.wr _ _ _ _ (by decide) ?_
    | with_reducible refine World.cupPhase_rest (by decide) ?_ | with_reducible refine Rest.ite ?_ ?_ | dsimp only | split | intro _

theorem World.cupSkipAll_rest {q0 : List Part} {w : World} {v' : World} {h : Half} {reason : Nat}
    (hq : partsLe [.fresh, .shut, .reg 0x1300018, .reg 0x1300200, .reg 0x1300204, .reg 0x1300208, .reg 0x130020C] q0 = true) (e0 : Rest q0 w v') : Rest q0 (World.cupSkipAll w h reason) v' := by
  refine Rest.trans (Rest.mono (p := [.fresh, .shut, .reg 0x1300018, .reg 0x1300200, .reg 0x1300204, .reg 0x1300208, .reg 0x130020C]) ?_ hq) e0
  unfold World.cupSkipAll
  try dsimp only
  repeat' first
    | with_reducible exact Rest.refl _ _ | with_reducible assumption | with_reducible refine Rest.wr _ _ _ _ (by decide) ?_
    | with_reducible refine Rest.forAll ?_ ?_ | with_reducible refine World.cupPhase_rest (by decide) ?_
    | with_reducible refine World.cupSkip_rest (by decide) ?_ | with_reducible refine Rest.ite ?_ ?_ | dsimp only | split | intro _

theorem World.cupStop_rest {q0 : List Part} {w : World} {v' : World} {h : Half} {reason : Nat} {ms_ : List CupMeas}
    (hq : partsLe [.fresh, .shut, .reg 0x1300018, .reg 0x1300200, .reg 0x1300204, .reg 0x1300208, .reg 0x130020C] q0 = true) (e0 : Rest q0 w v') : Rest q0 (World.cupStop w h reason ms_) v' := by
  refine Rest.trans (Rest.mono (p := [.fresh, .shut, .reg 0x1300018, .reg 0x1300200, .reg 0x1300204, .reg 0x1300208, .reg 0x130020C]) ?_ hq) e0
  unfold World.cupStop
  try dsimp only
  repeat' first
    | with_reducible exact Rest.refl _ _ | with_reducible assumption | with_reducible refine Rest.forAll ?_ ?_
    | with_reducible refine World.cupEnd_rest (by decide) ?_ | with_reducible refine World.cupSkipAll_rest (by decide) ?_
    | with_reducible refine Rest.ite ?_ ?_ | dsimp only | split | intro _

theorem State.cupStart_rest {q0 : List Part} {s : State} {v' : World} {h : Half} {c : CupCond}
    (hq : partsLe [.fresh, .run, .evt, .shut, .vlv, .lsw, .can, .pwr, .dsp, .reg 0x80, .reg 0x100018, .reg 0x30010C, .reg 0x500028, .reg 0x500080, .reg 0x600024, .reg 0x600030, .reg 0x700080, .reg 0x900030, .reg 0x900044, .reg 0xB00018, .reg 0xF00018, .reg 0x1000020, .reg 0x1000044, .reg 0x1300018, .reg 0x1300028, .reg 0x1300200, .reg 0x1300204, .reg 0x1300208, .reg 0x130020C] q0 = true) (e0 : Rest q0 s.w v') : Rest q0 (State.cupStart s h c).w v' := by
  refine Rest.trans (Rest.mono (p := [.fresh, .run, .evt, .shut, .vlv, .lsw, .can, .pwr, .dsp, .reg 0x80, .reg 0x100018, .reg 0x30010C, .reg 0x500028, .reg 0x500080, .reg 0x600024, .reg 0x600030, .reg 0x700080, .reg 0x900030, .reg 0x900044, .reg 0xB00018, .reg 0xF00018, .reg 0x1000020, .reg 0x1000044, .reg 0x1300018, .reg 0x1300028, .reg 0x1300200, .reg 0x1300204, .reg 0x1300208, .reg 0x130020C]) ?_ hq) e0
  unfold State.cupStart
  try dsimp only
  repeat' first
    | with_reducible exact Rest.refl _ _ | with_reducible assumption | with_reducible refine Rest.wr _ _ _ _ (by decide) ?_
    | with_reducible refine Rest.wrI _ _ _ _ (by decide) ?_ | with_reducible refine Rest.onW ?_ ?_ | with_reducible refine Rest.onOwn ?_
    | with_reducible refine Rest.whenS ?_ ?_ | with_reducible refine Rest.forAllS ?_ ?_ | with_reducible refine Rest.iteS ?_ ?_
    | with_reducible refine State.hold_rest (by decide) ?_ | with_reducible refine World.cupPhase_rest (by decide) ?_
    | with_reducible refine World.cupSkipAll_rest (by decide) ?_ | with_reducible refine World.updShut_rest (by decide) ?_
    | with_reducible refine Rest.ite ?_ ?_ | dsimp only | split | intro _

theorem World.cupWritten_rest {q0 : List Part} {w : World} {v' : World} {h : Half}
    (hq : partsLe [.reg 0x1300018, .reg 0x130001C, .reg 0x1300020] q0 = true) (e0 : Rest q0 w v') : Rest q0 (World.cupWritten w h) v' := by
  refine Rest.trans (Rest.mono (p := [.reg 0x1300018, .reg 0x130001C, .reg 0x1300020]) ?_ hq) e0
  unfold World.cupWritten
  try dsimp only
  repeat' first
    | with_reducible exact Rest.refl _ _ | with_reducible assumption | with_reducible refine Rest.wr _ _ _ _ (by decide) ?_
    | with_reducible refine World.cupPhase_rest (by decide) ?_ | with_reducible refine Rest.ite ?_ ?_ | dsimp only | split | intro _

theorem World.holdupMeasure_rest {q0 : List Part} {w : World} {v' : World} {energy : Nat}
    (hq : partsLe [.svc, .reg 0xB8] q0 = true) (e0 : Rest q0 w v') : Rest q0 (World.holdupMeasure w energy) v' := by
  refine Rest.trans (Rest.mono (p := [.svc, .reg 0xB8]) ?_ hq) e0
  unfold World.holdupMeasure
  try dsimp only
  repeat' first
    | with_reducible exact Rest.refl _ _ | with_reducible assumption | with_reducible refine Rest.wrBoth _ _ _ (by decide) ?_
    | with_reducible refine Rest.when ?_ ?_ | with_reducible refine Rest.ite ?_ ?_ | with_reducible refine Rest.set_svc (by decide) ?_ _ | dsimp only
    | split | intro _

theorem World.saveStep2_rest {q0 : List Part} {w : World} {v' : World} {h : Half} {serves : Bool}
    (hq : partsLe [.evt, .shut, .tim, .opt, .yld, .gns, .flx, .reg 0x100018, .reg 0xA00104, .reg 0xA00108, .reg 0xA0010C, .reg 0xA00140] q0 = true) (e0 : Rest q0 w v') : Rest q0 (World.saveStep2 w h serves) v' := by
  refine Rest.trans (Rest.mono (p := [.evt, .shut, .tim, .opt, .yld, .gns, .flx, .reg 0x100018, .reg 0xA00104, .reg 0xA00108, .reg 0xA0010C, .reg 0xA00140]) ?_ hq) e0
  unfold World.saveStep2
  try dsimp only
  repeat' first
    | with_reducible exact Rest.refl _ _ | with_reducible assumption | with_reducible refine Rest.when ?_ ?_
    | with_reducible refine World.flxShutdown_rest (by decide) ?_ | with_reducible refine World.optSave_rest (by decide) ?_
    | with_reducible refine World.storeAiding_rest (by decide) ?_ | with_reducible refine World.storeTime_rest (by decide) ?_
    | with_reducible refine World.updShut_rest (by decide) ?_ | with_reducible refine World.updYield_rest (by decide) ?_
    | with_reducible refine Rest.ite ?_ ?_ | with_reducible refine Rest.set_evt (by decide) ?_ _ | dsimp only | split | intro _

theorem State.shutStep2_rest {q0 : List Part} {s : State} {v' : World} {h : Half}
    (hq : partsLe [.evt, .shut, .tim, .opt, .yld, .gns, .flx, .reg 0x100018, .reg 0xA00104, .reg 0xA00108, .reg 0xA0010C, .reg 0xA00140, .reg 0x120002C] q0 = true) (e0 : Rest q0 s.w v') : Rest q0 (State.shutStep2 s h).w v' := by
  refine Rest.trans (Rest.mono (p := [.evt, .shut, .tim, .opt, .yld, .gns, .flx, .reg 0x100018, .reg 0xA00104, .reg 0xA00108, .reg 0xA0010C, .reg 0xA00140, .reg 0x120002C]) ?_ hq) e0
  unfold State.shutStep2
  try dsimp only
  repeat' first
    | with_reducible exact Rest.refl _ _ | with_reducible assumption | with_reducible refine Rest.when ?_ ?_ | with_reducible refine Rest.onW ?_ ?_
    | with_reducible refine Rest.onOwn ?_ | with_reducible refine Rest.whenS ?_ ?_ | with_reducible refine Rest.forAllS ?_ ?_
    | with_reducible refine Rest.iteS ?_ ?_ | with_reducible refine State.replayJournal_rest (by decide) ?_
    | with_reducible refine World.saveStep2_rest (by decide) ?_ | with_reducible refine Rest.ite ?_ ?_ | dsimp only | split | intro _

theorem State.shutBegin_rest {q0 : List Part} {s : State} {v' : World} {h : Half}
    (hq : partsLe [.evt, .shut, .tim, .opt, .vlv, .lsw, .yld, .gns, .can, .flx, .pwr, .dsp, .reg 0x100018, .reg 0x500028, .reg 0x600024, .reg 0x600030, .reg 0x700080, .reg 0x900030, .reg 0x900044, .reg 0xA00104, .reg 0xA00108, .reg 0xA0010C, .reg 0xA00140, .reg 0xF00018, .reg 0x1000020, .reg 0x1000044, .reg 0x120002C] q0 = true) (e0 : Rest q0 s.w v') : Rest q0 (State.shutBegin s h).w v' := by
  refine Rest.trans (Rest.mono (p := [.evt, .shut, .tim, .opt, .vlv, .lsw, .yld, .gns, .can, .flx, .pwr, .dsp, .reg 0x100018, .reg 0x500028, .reg 0x600024, .reg 0x600030, .reg 0x700080, .reg 0x900030, .reg 0x900044, .reg 0xA00104, .reg 0xA00108, .reg 0xA0010C, .reg 0xA00140, .reg 0xF00018, .reg 0x1000020, .reg 0x1000044, .reg 0x120002C]) ?_ hq) e0
  unfold State.shutBegin
  try dsimp only
  repeat' first
    | with_reducible exact Rest.refl _ _ | with_reducible assumption | with_reducible refine Rest.forAll ?_ ?_ | with_reducible refine Rest.onW ?_ ?_
    | with_reducible refine Rest.onOwn ?_ | with_reducible refine Rest.whenS ?_ ?_ | with_reducible refine Rest.forAllS ?_ ?_
    | with_reducible refine Rest.iteS ?_ ?_ | with_reducible refine State.shutStep2_rest (by decide) ?_
    | with_reducible refine World.greenObj_rest (by decide) ?_ | with_reducible refine World.updShut_rest (by decide) ?_
    | with_reducible refine Rest.ite ?_ ?_ | dsimp only | split | intro _

theorem State.shutRelease_rest {q0 : List Part} {s : State} {v' : World} {h : Half}
    (hq : partsLe [.evt, .shut, .dsp, .reg 0x100018, .reg 0xF00018] q0 = true) (e0 : Rest q0 s.w v') : Rest q0 (State.shutRelease s h).w v' := by
  refine Rest.trans (Rest.mono (p := [.evt, .shut, .dsp, .reg 0x100018, .reg 0xF00018]) ?_ hq) e0
  unfold State.shutRelease
  try dsimp only
  repeat' first
    | with_reducible exact Rest.refl _ _ | with_reducible assumption | with_reducible refine Rest.when ?_ ?_ | with_reducible refine Rest.forAll ?_ ?_
    | with_reducible refine Rest.onW ?_ ?_ | with_reducible refine Rest.onOwn ?_ | with_reducible refine Rest.whenS ?_ ?_
    | with_reducible refine Rest.forAllS ?_ ?_ | with_reducible refine Rest.iteS ?_ ?_ | with_reducible refine State.orphan_rest (by decide) ?_
    | with_reducible refine World.updShut_rest (by decide) ?_ | with_reducible refine Rest.ite ?_ ?_ | dsimp only | split | intro _

theorem World.cupPower_rest {q0 : List Part} {w : World} {v' : World} {h : Half}
    (hq : partsLe [.fresh, .shut, .reg 0x1300018, .reg 0x130001C, .reg 0x1300020, .reg 0x1300200, .reg 0x1300204, .reg 0x1300208, .reg 0x130020C] q0 = true) (e0 : Rest q0 w v') : Rest q0 (World.cupPower w h) v' := by
  refine Rest.trans (Rest.mono (p := [.fresh, .shut, .reg 0x1300018, .reg 0x130001C, .reg 0x1300020, .reg 0x1300200, .reg 0x1300204, .reg 0x1300208, .reg 0x130020C]) ?_ hq) e0
  unfold World.cupPower
  try dsimp only
  repeat' first
    | with_reducible exact Rest.refl _ _ | with_reducible assumption | with_reducible refine World.cupSkipAll_rest (by decide) ?_
    | with_reducible refine World.cupWritten_rest (by decide) ?_ | with_reducible refine World.updShut_rest (by decide) ?_
    | with_reducible refine Rest.ite ?_ ?_ | dsimp only | split | intro _

theorem State.failHalf_rest {q0 : List Part} {s : State} {v' : World} {h : Half} {wrote : Bool} {ms_ : List CupMeas}
    (hq : partsLe [.fresh, .run, .evt, .shut, .tim, .opt, .vlv, .lsw, .yld, .gns, .can, .flx, .pwr, .dsp, .latch, .reg 0x88, .reg 0x100018, .reg 0x30010C, .reg 0x500028, .reg 0x500080, .reg 0x600024, .reg 0x600030, .reg 0x700080, .reg 0x900030, .reg 0x900044, .reg 0xA00104, .reg 0xA00108, .reg 0xA0010C, .reg 0xA00140, .reg 0xB00018, .reg 0xF00018, .reg 0x1000018, .reg 0x1000020, .reg 0x1000044, .reg 0x120002C, .reg 0x1300018, .reg 0x130001C, .reg 0x1300020, .reg 0x1300200, .reg 0x1300204, .reg 0x1300208, .reg 0x130020C] q0 = true) (e0 : Rest q0 s.w v') : Rest q0 (State.failHalf s h wrote ms_).w v' := by
  refine Rest.trans (Rest.mono (p := [.fresh, .run, .evt, .shut, .tim, .opt, .vlv, .lsw, .yld, .gns, .can, .flx, .pwr, .dsp, .latch, .reg 0x88, .reg 0x100018, .reg 0x30010C, .reg 0x500028, .reg 0x500080, .reg 0x600024, .reg 0x600030, .reg 0x700080, .reg 0x900030, .reg 0x900044, .reg 0xA00104, .reg 0xA00108, .reg 0xA0010C, .reg 0xA00140, .reg 0xB00018, .reg 0xF00018, .reg 0x1000018, .reg 0x1000020, .reg 0x1000044, .reg 0x120002C, .reg 0x1300018, .reg 0x130001C, .reg 0x1300020, .reg 0x1300200, .reg 0x1300204, .reg 0x1300208, .reg 0x130020C]) ?_ hq) e0
  unfold State.failHalf
  try dsimp only
  repeat' first
    | with_reducible exact Rest.refl _ _ | with_reducible assumption | with_reducible refine Rest.wr _ _ _ _ (by decide) ?_
    | with_reducible refine Rest.when ?_ ?_ | with_reducible refine Rest.onW ?_ ?_ | with_reducible refine Rest.onOwn ?_
    | with_reducible refine Rest.whenS ?_ ?_ | with_reducible refine Rest.forAllS ?_ ?_ | with_reducible refine Rest.iteS ?_ ?_
    | with_reducible refine State.hold_rest (by decide) ?_ | with_reducible refine State.shutStep2_rest (by decide) ?_
    | with_reducible refine World.cupPower_rest (by decide) ?_ | with_reducible refine World.cupStop_rest (by decide) ?_
    | with_reducible refine World.cupWritten_rest (by decide) ?_ | with_reducible refine World.setHoldReq_rest (by decide) ?_
    | with_reducible refine World.updShut_rest (by decide) ?_ | with_reducible refine Rest.ite ?_ ?_ | dsimp only | split | intro _

theorem State.startAgain_rest {q0 : List Part} {s : State} {v' : World} {h : Half} {cause : Nat}
    (hq : partsLe [.fresh, .run, .evt, .xng, .shut, .frame, .tim, .set, .opt, .uin, .yld, .pose, .grd, .trk, .gns, .flx, .upd, .latch, .regs] q0 = true) (e0 : Rest q0 s.w v') : Rest q0 (State.startAgain s h cause).w v' := by
  refine Rest.trans (Rest.mono (p := [.fresh, .run, .evt, .xng, .shut, .frame, .tim, .set, .opt, .uin, .yld, .pose, .grd, .trk, .gns, .flx, .upd, .latch, .regs]) ?_ hq) e0
  unfold State.startAgain
  try dsimp only
  repeat' first
    | with_reducible exact Rest.refl _ _ | with_reducible assumption | with_reducible refine Rest.when ?_ ?_ | with_reducible refine Rest.onW ?_ ?_
    | with_reducible refine Rest.onOwn ?_ | with_reducible refine Rest.whenS ?_ ?_ | with_reducible refine Rest.forAllS ?_ ?_
    | with_reducible refine Rest.iteS ?_ ?_ | with_reducible refine State.letRun_rest (by decide) ?_
    | with_reducible refine World.init_rest (by decide) ?_ | with_reducible refine World.updShut_rest (by decide) ?_
    | with_reducible refine Rest.ite ?_ ?_ | dsimp only | split | intro _

theorem World.updSvc_rest {q0 : List Part} {w : World} {v' : World} {f : Service → Service}
    (hq : partsLe [.svc] q0 = true) (e0 : Rest q0 w v') : Rest q0 (World.updSvc w f) v' := by
  refine Rest.trans (Rest.mono (p := [.svc]) ?_ hq) e0
  unfold World.updSvc
  try dsimp only
  repeat' first
    | with_reducible exact Rest.refl _ _ | with_reducible assumption | with_reducible refine Rest.ite ?_ ?_
    | with_reducible refine Rest.set_svc (by decide) ?_ _ | dsimp only | split | intro _

theorem State.moveGroup_rest {q0 : List Part} {s : State} {v' : World} {giver : Half} {g : List Nat}
    (hq : partsLe [.evt, .set, .dsp, .reg 0x100018, .reg 0x30010C, .reg 0x400040, .reg 0x400044, .reg 0x400048, .reg 0x40004C, .reg 0x400050, .reg 0x400280, .reg 0x400300, .reg 0x400380, .reg 0x400400, .reg 0xF00018] q0 = true) (e0 : Rest q0 s.w v') : Rest q0 (State.moveGroup s giver g).w v' := by
  refine Rest.trans (Rest.mono (p := [.evt, .set, .dsp, .reg 0x100018, .reg 0x30010C, .reg 0x400040, .reg 0x400044, .reg 0x400048, .reg 0x40004C, .reg 0x400050, .reg 0x400280, .reg 0x400300, .reg 0x400380, .reg 0x400400, .reg 0xF00018]) ?_ hq) e0
  unfold State.moveGroup
  try dsimp only
  repeat' first
    | with_reducible exact Rest.refl _ _ | with_reducible assumption | with_reducible refine Rest.raise _ _ _ (by decide) ?_
    | with_reducible refine Rest.when ?_ ?_ | with_reducible refine Rest.forAll ?_ ?_ | with_reducible refine Rest.foldl ?_ ?_
    | with_reducible refine Rest.onW ?_ ?_ | with_reducible refine Rest.onOwn ?_ | with_reducible refine Rest.whenS ?_ ?_
    | with_reducible refine Rest.forAllS ?_ ?_ | with_reducible refine Rest.iteS ?_ ?_ | with_reducible refine State.handover_rest (by decide) ?_
    | with_reducible refine State.handoverDone_rest (by decide) ?_ | with_reducible refine World.takeFn_rest (by decide) ?_
    | with_reducible refine World.updSet_rest (by decide) ?_ | with_reducible refine Rest.ite ?_ ?_ | dsimp only | split | intro _

theorem World.svcAsk_rest {q0 : List Part} {w : World} {v' : World} {op target : Nat}
    (hq : partsLe [.reg 0xA4] q0 = true) (e0 : Rest q0 w v') : Rest q0 (World.svcAsk w op target) v' := by
  refine Rest.trans (Rest.mono (p := [.reg 0xA4]) ?_ hq) e0
  unfold World.svcAsk
  try dsimp only
  repeat' first
    | with_reducible exact Rest.refl _ _ | with_reducible assumption | with_reducible refine Rest.wrBoth _ _ _ (by decide) ?_
    | with_reducible refine Rest.ite ?_ ?_ | dsimp only | split | intro _

/-- What preparing a half touches. -/
abbrev prepareParts : List Part := [.run, .evt, .svc, .set, .opt, .vlv, .lsw, .yld, .dram, .can, .flx, .pwr, .dsp, .reg 0xA4, .reg 0x100018, .reg 0x30010C, .reg 0x400018, .reg 0x400040, .reg 0x400044, .reg 0x400048, .reg 0x40004C, .reg 0x400050, .reg 0x400280, .reg 0x400300, .reg 0x400380, .reg 0x400400, .reg 0x400500, .reg 0x400504, .reg 0x400508, .reg 0x40050C, .reg 0x400510, .reg 0x400514, .reg 0x400518, .reg 0x40051C, .reg 0x400600, .reg 0x400610, .reg 0x400614, .reg 0x400618, .reg 0x40061C, .reg 0x400620, .reg 0x400634, .reg 0x400638, .reg 0x400640, .reg 0x400644, .reg 0x500028, .reg 0x500080, .reg 0x600024, .reg 0x600030, .reg 0x700080, .reg 0x900030, .reg 0x900044, .reg 0xA00108, .reg 0xA00140, .reg 0xB00018, .reg 0xF00018, .reg 0x1000020, .reg 0x1000044, .reg 0x120002C]

theorem State.prepareHalf_rest {q0 : List Part} {s : State} {v' : World} {x : Half}
    (hq : partsLe prepareParts q0 = true) (e0 : Rest q0 s.w v') : Rest q0 (State.prepareHalf s x).w v' := by
  refine Rest.trans (Rest.mono (p := prepareParts) ?_ hq) e0
  unfold State.prepareHalf
  extract_lets o s1 s2 s3 s4 s5 s6
  have h1 : Rest prepareParts s1.w s.w := Rest.onW (Rest.refl _ _) fun u hu => World.svcState_rest (by decide) (World.updSvc_rest (by decide) hu)
  have h2 : Rest prepareParts s2.w s.w := Rest.forAllS h1 fun u a hu => Rest.whenS hu fun u hu => State.moveGroup_rest (by decide) hu
  clear_value s1
  have h3 : Rest prepareParts s3.w s.w := State.handoverAllNow_rest (by decide) h2
  clear_value s2
  have h4 : Rest prepareParts s4.w s.w := Rest.onW h3 fun u hu => Rest.when hu fun u hu => World.mirrorYield_rest (by decide) (World.takeClass_rest (by decide) hu)
  clear_value s3
  have h5 : Rest prepareParts s5.w s.w := Rest.whenS h4 fun u hu => State.replayJournal_rest (by decide) hu
  clear_value s4
  have h6 : Rest prepareParts s6.w s.w := State.serverReq_rest (by decide) (State.fence_rest (by decide) h5)
  clear_value s5 s6
  exact Rest.onW h6 fun u hu => World.svcState_rest (by decide) (World.updSvc_rest (by decide) hu)

theorem State.svcEnd_rest {q0 : List Part} {s : State} {v' : World} 
    (hq : partsLe [.fresh, .run, .evt, .xng, .shut, .frame, .svc, .tim, .set, .opt, .vlv, .lsw, .uin, .yld, .pose, .grd, .trk, .gns, .can, .flx, .upd, .pwr, .dsp, .latch, .regs] q0 = true) (e0 : Rest q0 s.w v') : Rest q0 (State.svcEnd s ).w v' := by
  refine Rest.trans (Rest.mono (p := [.fresh, .run, .evt, .xng, .shut, .frame, .svc, .tim, .set, .opt, .vlv, .lsw, .uin, .yld, .pose, .grd, .trk, .gns, .can, .flx, .upd, .pwr, .dsp, .latch, .regs]) ?_ hq) e0
  unfold State.svcEnd
  try dsimp only
  repeat' first
    | with_reducible exact Rest.refl _ _ | with_reducible assumption | with_reducible refine Rest.onW ?_ ?_ | with_reducible refine Rest.onOwn ?_
    | with_reducible refine Rest.whenS ?_ ?_ | with_reducible refine Rest.forAllS ?_ ?_ | with_reducible refine Rest.iteS ?_ ?_
    | with_reducible refine State.restart_rest (by decide) ?_ | with_reducible refine World.svcState_rest (by decide) ?_
    | with_reducible refine World.updSvc_rest (by decide) ?_ | with_reducible refine Rest.ite ?_ ?_ | dsimp only | split | intro _

theorem State.tileCal_rest {q0 : List Part} {s : State} {v' : World} {t : Nat} {serial : List Byte} {cal : List (List Byte)}
    (hq : partsLe [] q0 = true) (e0 : Rest q0 s.w v') : Rest q0 (State.tileCal s t serial cal).w v' := by
  refine Rest.trans (Rest.mono (p := []) ?_ hq) e0
  unfold State.tileCal
  try dsimp only
  repeat' first
    | with_reducible exact Rest.refl _ _ | with_reducible assumption | with_reducible refine Rest.foldl ?_ ?_ | with_reducible refine Rest.onW ?_ ?_
    | with_reducible refine Rest.onOwn ?_ | with_reducible refine Rest.whenS ?_ ?_ | with_reducible refine Rest.forAllS ?_ ?_
    | with_reducible refine Rest.iteS ?_ ?_ | with_reducible refine Rest.ite ?_ ?_ | dsimp only | split | intro _

theorem World.chanAgain_rest {q0 : List Part} {w : World} {v' : World} {ch : Nat}
    (hq : partsLe [.reg 0x500028] q0 = true) (e0 : Rest q0 w v') : Rest q0 (World.chanAgain w ch) v' := by
  refine Rest.trans (Rest.mono (p := [.reg 0x500028]) ?_ hq) e0
  unfold World.chanAgain
  try dsimp only
  repeat' first
    | with_reducible exact Rest.refl _ _ | with_reducible assumption | with_reducible refine Rest.wr _ _ _ _ (by decide) ?_
    | with_reducible refine Rest.when ?_ ?_ | with_reducible refine Rest.ite ?_ ?_ | dsimp only | split | intro _

theorem World.lifeTick_rest {q0 : List Part} {w : World} {v' : World} {dt : Nat}
    (hq : partsLe [.svc, .reg 0xB0, .reg 0xB4] q0 = true) (e0 : Rest q0 w v') : Rest q0 (World.lifeTick w dt) v' := by
  refine Rest.trans (Rest.mono (p := [.svc, .reg 0xB0, .reg 0xB4]) ?_ hq) e0
  unfold World.lifeTick
  try dsimp only
  repeat' first
    | with_reducible exact Rest.refl _ _ | with_reducible assumption | with_reducible refine Rest.wrBoth _ _ _ (by decide) ?_
    | with_reducible refine Rest.when ?_ ?_ | with_reducible refine World.updSvc_rest (by decide) ?_ | with_reducible refine Rest.ite ?_ ?_
    | dsimp only | split | intro _

end Sys2Proof.Machine
end

