-- ==== Sys2Proof/Laws/RestTop.lean ====
section
/-!
SUPPORT. What each operation of these units leaves alone.
-/
set_option linter.unreachableTactic false
set_option linter.unusedTactic false

namespace Sys2Proof.Machine

theorem World.updFrame_rest {q0 : List Part} {w : World} {v' : World} {h : Half} {f : Frame → Frame}
    (hq : partsLe [.frame] q0 = true) (e0 : Rest q0 w v') : Rest q0 (World.updFrame w h f) v' := by
  refine Rest.trans (Rest.mono (p := [.frame]) ?_ hq) e0
  unfold World.updFrame
  try dsimp only
  repeat' first
    | with_reducible exact Rest.refl _ _ | with_reducible assumption | with_reducible refine Rest.ite ?_ ?_
    | with_reducible refine Rest.set_frame (by decide) ?_ _ | dsimp only | split | intro _

theorem World.overload_rest {q0 : List Part} {w : World} {v' : World} {h : Half} {cause n : Nat}
    (hq : partsLe [.evt, .frame, .reg 0x100018] q0 = true) (e0 : Rest q0 w v') : Rest q0 (World.overload w h cause n) v' := by
  refine Rest.trans (Rest.mono (p := [.evt, .frame, .reg 0x100018]) ?_ hq) e0
  unfold World.overload
  try dsimp only
  repeat' first
    | with_reducible exact Rest.refl _ _ | with_reducible assumption | with_reducible refine Rest.raise _ _ _ (by decide) ?_
    | with_reducible refine Rest.when ?_ ?_ | with_reducible refine World.updFrame_rest (by decide) ?_ | with_reducible refine Rest.ite ?_ ?_
    | dsimp only | split | intro _

theorem World.frameEnd_rest {q0 : List Part} {w : World} {v' : World} {h : Half} {busy : Nat}
    (hq : partsLe [.frame, .reg 0x40] q0 = true) (e0 : Rest q0 w v') : Rest q0 (World.frameEnd w h busy) v' := by
  refine Rest.trans (Rest.mono (p := [.frame, .reg 0x40]) ?_ hq) e0
  unfold World.frameEnd
  try dsimp only
  repeat' first
    | with_reducible exact Rest.refl _ _ | with_reducible assumption | with_reducible refine Rest.wr _ _ _ _ (by decide) ?_
    | with_reducible refine Rest.foldl ?_ ?_ | with_reducible refine World.updFrame_rest (by decide) ?_ | with_reducible refine Rest.ite ?_ ?_
    | dsimp only | split | intro _

theorem World.frameStart_rest {q0 : List Part} {w : World} {v' : World} {h : Half} {busy c0 c1 : Nat}
    (hq : partsLe [.run, .evt, .frame, .reg 0x40, .reg 0x80, .reg 0x100018] q0 = true) (e0 : Rest q0 w v') : Rest q0 (World.frameStart w h busy c0 c1) v' := by
  refine Rest.trans (Rest.mono (p := [.run, .evt, .frame, .reg 0x40, .reg 0x80, .reg 0x100018]) ?_ hq) e0
  unfold World.frameStart
  try dsimp only
  repeat' first
    | with_reducible exact Rest.refl _ _ | with_reducible assumption | with_reducible refine Rest.when ?_ ?_
    | with_reducible refine World.frameEnd_rest (by decide) ?_ | with_reducible refine World.notePour_rest (by decide) ?_
    | with_reducible refine World.overload_rest (by decide) ?_ | with_reducible refine World.updFrame_rest (by decide) ?_
    | with_reducible refine Rest.ite ?_ ?_ | dsimp only | split | intro _

theorem State.watchdogExpire_rest {q0 : List Part} {s : State} {v' : World} {h : Half}
    (hq : partsLe [.run, .evt, .vlv, .lsw, .can, .pwr, .dsp, .reg 0x100018, .reg 0x30010C, .reg 0x500028, .reg 0x500080, .reg 0x600024, .reg 0x600030, .reg 0x700080, .reg 0x900030, .reg 0x900044, .reg 0xB00018, .reg 0xF00018, .reg 0x1000020, .reg 0x1000044] q0 = true) (e0 : Rest q0 s.w v') : Rest q0 (State.watchdogExpire s h).w v' := by
  refine Rest.trans (Rest.mono (p := [.run, .evt, .vlv, .lsw, .can, .pwr, .dsp, .reg 0x100018, .reg 0x30010C, .reg 0x500028, .reg 0x500080, .reg 0x600024, .reg 0x600030, .reg 0x700080, .reg 0x900030, .reg 0x900044, .reg 0xB00018, .reg 0xF00018, .reg 0x1000020, .reg 0x1000044]) ?_ hq) e0
  unfold State.watchdogExpire
  try dsimp only
  repeat' first
    | with_reducible exact Rest.refl _ _ | with_reducible assumption | with_reducible refine Rest.onW ?_ ?_ | with_reducible refine Rest.onOwn ?_
    | with_reducible refine Rest.whenS ?_ ?_ | with_reducible refine Rest.forAllS ?_ ?_ | with_reducible refine Rest.iteS ?_ ?_
    | with_reducible refine State.fall_rest (by decide) ?_ | with_reducible refine State.hold_rest (by decide) ?_
    | with_reducible refine Rest.ite ?_ ?_ | dsimp only | split | intro _

theorem World.updEvt_rest {q0 : List Part} {w : World} {v' : World} {h : Half} {f : Router → Router}
    (hq : partsLe [.evt] q0 = true) (e0 : Rest q0 w v') : Rest q0 (World.updEvt w h f) v' := by
  refine Rest.trans (Rest.mono (p := [.evt]) ?_ hq) e0
  unfold World.updEvt
  try dsimp only
  repeat' first
    | with_reducible exact Rest.refl _ _ | with_reducible assumption | with_reducible refine Rest.ite ?_ ?_
    | with_reducible refine Rest.set_evt (by decide) ?_ _ | dsimp only | split | intro _

theorem World.logRec_rest {q0 : List Part} {w : World} {v' : World} {h : Half} {r : EvRec}
    (hq : partsLe [.dram, .reg 0x100018, .reg 0x100024] q0 = true) (e0 : Rest q0 w v') : Rest q0 (World.logRec w h r) v' := by
  refine Rest.trans (Rest.mono (p := [.dram, .reg 0x100018, .reg 0x100024]) ?_ hq) e0
  unfold World.logRec
  try dsimp only
  repeat' first
    | with_reducible exact Rest.refl _ _ | with_reducible assumption | with_reducible refine Rest.wr _ _ _ _ (by decide) ?_
    | with_reducible refine Rest.when ?_ ?_ | with_reducible refine Rest.putMem _ _ _ _ (by decide) ?_ | with_reducible refine Rest.ite ?_ ?_
    | dsimp only | split | intro _

theorem World.knockObj_rest {q0 : List Part} {w : World} {v' : World} {k : Nat}
    (hq : partsLe [.evt, .vlv, .lsw, .uin, .can, .reg 0x100018, .reg 0x500028, .reg 0x600024, .reg 0x700020, .reg 0x700024, .reg 0x700044, .reg 0x701000, .reg 0x701004, .reg 0x900030, .reg 0x900044] q0 = true) (e0 : Rest q0 w v') : Rest q0 (World.knockObj w k) v' := by
  refine Rest.trans (Rest.mono (p := [.evt, .vlv, .lsw, .uin, .can, .reg 0x100018, .reg 0x500028, .reg 0x600024, .reg 0x700020, .reg 0x700024, .reg 0x700044, .reg 0x701000, .reg 0x701004, .reg 0x900030, .reg 0x900044]) ?_ hq) e0
  unfold World.knockObj
  try dsimp only
  repeat' first
    | with_reducible exact Rest.refl _ _ | with_reducible assumption | with_reducible refine World.knockCan_rest (by decide) ?_
    | with_reducible refine World.knockInput_rest (by decide) ?_ | with_reducible refine World.knockSwitch_rest (by decide) ?_
    | with_reducible refine World.knockValve_rest (by decide) ?_ | with_reducible refine Rest.ite ?_ ?_ | dsimp only | split | intro _

theorem World.pendVec_rest {q0 : List Part} {w : World} {v' : World} {h : Half} {t : Route}
    (hq : partsLe [.reg 0x100040] q0 = true) (e0 : Rest q0 w v') : Rest q0 (World.pendVec w h t) v' := by
  refine Rest.trans (Rest.mono (p := [.reg 0x100040]) ?_ hq) e0
  unfold World.pendVec
  try dsimp only
  repeat' first
    | with_reducible exact Rest.refl _ _ | with_reducible assumption | with_reducible refine Rest.wr _ _ _ _ (by decide) ?_
    | with_reducible refine Rest.forAll ?_ ?_ | with_reducible refine Rest.ite ?_ ?_ | dsimp only | split | intro _

theorem State.deliver_rest {q0 : List Part} {s : State} {v' : World} {h : Half} {r : EvRec} {rest : List EvRec}
    (hq : partsLe [.evt, .xng, .vlv, .lsw, .uin, .dram, .can, .reg 0x100018, .reg 0x100024, .reg 0x100040, .reg 0x500028, .reg 0x600024, .reg 0x700020, .reg 0x700024, .reg 0x700044, .reg 0x701000, .reg 0x701004, .reg 0x900030, .reg 0x900044] q0 = true) (e0 : Rest q0 s.w v') : Rest q0 (State.deliver s h r rest).w v' := by
  refine Rest.trans (Rest.mono (p := [.evt, .xng, .vlv, .lsw, .uin, .dram, .can, .reg 0x100018, .reg 0x100024, .reg 0x100040, .reg 0x500028, .reg 0x600024, .reg 0x700020, .reg 0x700024, .reg 0x700044, .reg 0x701000, .reg 0x701004, .reg 0x900030, .reg 0x900044]) ?_ hq) e0
  unfold State.deliver
  try dsimp only
  repeat' first
    | with_reducible exact Rest.refl _ _ | with_reducible assumption | with_reducible refine Rest.when ?_ ?_ | with_reducible refine Rest.forAll ?_ ?_
    | with_reducible refine Rest.onW ?_ ?_ | with_reducible refine Rest.onOwn ?_ | with_reducible refine Rest.whenS ?_ ?_
    | with_reducible refine Rest.forAllS ?_ ?_ | with_reducible refine Rest.iteS ?_ ?_ | with_reducible refine World.knockObj_rest (by decide) ?_
    | with_reducible refine World.logRec_rest (by decide) ?_ | with_reducible refine World.pendVec_rest (by decide) ?_
    | with_reducible refine World.updEvt_rest (by decide) ?_ | with_reducible refine World.xngGot_rest (by decide) ?_
    | with_reducible refine World.xngSent_rest (by decide) ?_ | with_reducible refine Rest.ite ?_ ?_ | dsimp only | split | intro _

theorem World.setSlot_rest {q0 : List Part} {w : World} {v' : World} {h : Half} {k : Nat} {x : KnockSlot}
    (hq : partsLe [.evt] q0 = true) (e0 : Rest q0 w v') : Rest q0 (World.setSlot w h k x) v' := by
  refine Rest.trans (Rest.mono (p := [.evt]) ?_ hq) e0
  unfold World.setSlot
  try dsimp only
  repeat' first
    | with_reducible exact Rest.refl _ _ | with_reducible assumption | with_reducible refine World.updEvt_rest (by decide) ?_
    | with_reducible refine Rest.ite ?_ ?_ | dsimp only | split | intro _

theorem World.freeSlots_rest {q0 : List Part} {w : World} {v' : World} {h : Half} {init : Nat}
    (hq : partsLe [.evt, .regs] q0 = true) (e0 : Rest q0 w v') : Rest q0 (World.freeSlots w h init) v' := by
  refine Rest.trans (Rest.mono (p := [.evt, .regs]) ?_ hq) e0
  unfold World.freeSlots
  try dsimp only
  repeat' first
    | with_reducible exact Rest.refl _ _ | with_reducible assumption | with_reducible refine Rest.setReg _ _ _ _ (by decide) ?_
    | with_reducible refine Rest.forAll ?_ ?_ | with_reducible refine World.init_rest (by decide) ?_
    | with_reducible refine World.setSlot_rest (by decide) ?_ | with_reducible refine Rest.ite ?_ ?_ | dsimp only | split | intro _

theorem World.slotRes_rest {q0 : List Part} {w : World} {v' : World} {h : Half} {k : Nat} {busy : Bool} {res cls idx : Nat}
    (hq : partsLe [.reg 0x1000A0] q0 = true) (e0 : Rest q0 w v') : Rest q0 (World.slotRes w h k busy res cls idx) v' := by
  refine Rest.trans (Rest.mono (p := [.reg 0x1000A0]) ?_ hq) e0
  unfold World.slotRes
  try dsimp only
  repeat' first
    | with_reducible exact Rest.refl _ _ | with_reducible assumption | with_reducible refine Rest.wr _ _ _ _ (by decide) ?_
    | with_reducible refine Rest.ite ?_ ?_ | dsimp only | split | intro _

theorem State.knockClass0_rest {q0 : List Part} {s : State} {v' : World} {h : Half} {init idx : Nat} {again : Bool}
    (hq : partsLe [.evt, .vlv, .lsw, .uin, .can, .reg 0x100018, .reg 0x300118, .reg 0x500028, .reg 0x600024, .reg 0x700020, .reg 0x700024, .reg 0x700044, .reg 0x701000, .reg 0x701004, .reg 0x900030, .reg 0x900044] q0 = true) (e0 : Rest q0 s.w v') : Rest q0 (State.knockClass0 s h init idx again).1.w v' := by
  refine Rest.trans (Rest.mono (p := [.evt, .vlv, .lsw, .uin, .can, .reg 0x100018, .reg 0x300118, .reg 0x500028, .reg 0x600024, .reg 0x700020, .reg 0x700024, .reg 0x700044, .reg 0x701000, .reg 0x701004, .reg 0x900030, .reg 0x900044]) ?_ hq) e0
  unfold State.knockClass0
  try dsimp only
  repeat' first
    | with_reducible exact Rest.refl _ _ | with_reducible assumption | with_reducible refine Rest.when ?_ ?_
    | with_reducible refine Rest.violation _ _ _ (by decide) ?_ | with_reducible refine Rest.onW ?_ ?_ | with_reducible refine Rest.onOwn ?_
    | with_reducible refine Rest.whenS ?_ ?_ | with_reducible refine Rest.forAllS ?_ ?_ | with_reducible refine Rest.iteS ?_ ?_
    | with_reducible refine World.knockObj_rest (by decide) ?_ | with_reducible refine Rest.ite ?_ ?_ | dsimp only | split | intro _

theorem State.knockClass2_rest {q0 : List Part} {s : State} {v' : World} {h : Half} {idx : Nat}
    (hq : partsLe [.evt, .dram, .reg 0x100018, .reg 0xB00018, .reg 0xB00114, .reg 0xB00148] q0 = true) (e0 : Rest q0 s.w v') : Rest q0 (State.knockClass2 s h idx).1.w v' := by
  refine Rest.trans (Rest.mono (p := [.evt, .dram, .reg 0x100018, .reg 0xB00018, .reg 0xB00114, .reg 0xB00148]) ?_ hq) e0
  unfold State.knockClass2
  try dsimp only
  repeat' first
    | with_reducible exact Rest.refl _ _ | with_reducible assumption | with_reducible refine Rest.onW ?_ ?_ | with_reducible refine Rest.onOwn ?_
    | with_reducible refine Rest.whenS ?_ ?_ | with_reducible refine Rest.forAllS ?_ ?_ | with_reducible refine Rest.iteS ?_ ?_
    | with_reducible refine World.knockAcq_rest (by decide) ?_ | with_reducible refine World.knockChan_rest (by decide) ?_
    | with_reducible refine Rest.ite ?_ ?_ | dsimp only | split | intro _

theorem State.knockClass5_rest {q0 : List Part} {s : State} {v' : World} {h : Half} {idx : Nat}
    (hq : partsLe [.fresh, .run, .evt, .xng, .roast, .act, .shut, .frame, .tim, .set, .opt, .vlv, .lsw, .uin, .yld, .pose, .grd, .trk, .gns, .can, .flx, .upd, .pwr, .dsp, .latch, .regs] q0 = true) (e0 : Rest q0 s.w v') : Rest q0 (State.knockClass5 s h idx).w v' := by
  refine Rest.trans (Rest.mono (p := [.fresh, .run, .evt, .xng, .roast, .act, .shut, .frame, .tim, .set, .opt, .vlv, .lsw, .uin, .yld, .pose, .grd, .trk, .gns, .can, .flx, .upd, .pwr, .dsp, .latch, .regs]) ?_ hq) e0
  unfold State.knockClass5
  try dsimp only
  repeat' first
    | with_reducible exact Rest.refl _ _ | with_reducible assumption | with_reducible refine Rest.when ?_ ?_ | with_reducible refine Rest.onW ?_ ?_
    | with_reducible refine Rest.onOwn ?_ | with_reducible refine Rest.whenS ?_ ?_ | with_reducible refine Rest.forAllS ?_ ?_
    | with_reducible refine Rest.iteS ?_ ?_ | with_reducible refine State.activateKnock_rest (by decide) ?_
    | with_reducible refine World.knockSess_rest (by decide) ?_ | with_reducible refine World.updRes_rest (by decide) ?_
    | with_reducible refine Rest.ite ?_ ?_ | dsimp only | split | intro _

theorem State.knock_rest {q0 : List Part} {s : State} {v' : World} {h : Half} {init cls idx tc : Nat} {jobs : List Nat} {again : Bool}
    (hq : partsLe [.fresh, .run, .evt, .xng, .roast, .act, .shut, .frame, .tim, .set, .opt, .vlv, .lsw, .uin, .yld, .dram, .pose, .grd, .trk, .gns, .can, .flx, .upd, .pwr, .dsp, .latch, .regs] q0 = true) (e0 : Rest q0 s.w v') : Rest q0 (State.knock s h init cls idx tc jobs again).1.w v' := by
  refine Rest.trans (Rest.mono (p := [.fresh, .run, .evt, .xng, .roast, .act, .shut, .frame, .tim, .set, .opt, .vlv, .lsw, .uin, .yld, .dram, .pose, .grd, .trk, .gns, .can, .flx, .upd, .pwr, .dsp, .latch, .regs]) ?_ hq) e0
  unfold State.knock
  try dsimp only
  repeat' first
    | with_reducible exact Rest.refl _ _ | with_reducible assumption | with_reducible refine Rest.when ?_ ?_ | with_reducible refine Rest.onW ?_ ?_
    | with_reducible refine Rest.onOwn ?_ | with_reducible refine Rest.whenS ?_ ?_ | with_reducible refine Rest.forAllS ?_ ?_
    | with_reducible refine Rest.iteS ?_ ?_ | with_reducible refine State.knockClass0_rest (by decide) ?_
    | with_reducible refine State.knockClass2_rest (by decide) ?_ | with_reducible refine State.knockClass5_rest (by decide) ?_
    | with_reducible refine World.knockJobs_rest (by decide) ?_ | with_reducible refine World.knockPipes_rest (by decide) ?_
    | with_reducible refine Rest.ite ?_ ?_ | dsimp only | split | intro _

theorem State.knockIn_rest {q0 : List Part} {s : State} {v' : World} {h : Half} {init cls idx tc : Nat} {jobs : List Nat} {k : Nat}
    (hq : partsLe [.fresh, .run, .evt, .xng, .roast, .act, .shut, .frame, .tim, .set, .opt, .vlv, .lsw, .uin, .yld, .dram, .pose, .grd, .trk, .gns, .can, .flx, .upd, .pwr, .dsp, .latch, .regs] q0 = true) (e0 : Rest q0 s.w v') : Rest q0 (State.knockIn s h init cls idx tc jobs k).w v' := by
  refine Rest.trans (Rest.mono (p := [.fresh, .run, .evt, .xng, .roast, .act, .shut, .frame, .tim, .set, .opt, .vlv, .lsw, .uin, .yld, .dram, .pose, .grd, .trk, .gns, .can, .flx, .upd, .pwr, .dsp, .latch, .regs]) ?_ hq) e0
  unfold State.knockIn
  try dsimp only
  repeat' first
    | with_reducible exact Rest.refl _ _ | with_reducible assumption | with_reducible refine Rest.onW ?_ ?_ | with_reducible refine Rest.onOwn ?_
    | with_reducible refine Rest.whenS ?_ ?_ | with_reducible refine Rest.forAllS ?_ ?_ | with_reducible refine Rest.iteS ?_ ?_
    | with_reducible refine State.knock_rest (by decide) ?_ | with_reducible refine World.setSlot_rest (by decide) ?_
    | with_reducible refine World.slotRes_rest (by decide) ?_ | with_reducible refine Rest.ite ?_ ?_ | dsimp only | split | intro _

theorem World.slotDone_rest {q0 : List Part} {w : World} {v' : World} {h : Half} {k : Nat}
    (hq : partsLe [.reg 0x1000A0] q0 = true) (e0 : Rest q0 w v') : Rest q0 (World.slotDone w h k) v' := by
  refine Rest.trans (Rest.mono (p := [.reg 0x1000A0]) ?_ hq) e0
  unfold World.slotDone
  try dsimp only
  repeat' first
    | with_reducible exact Rest.refl _ _ | with_reducible assumption | with_reducible refine Rest.wr _ _ _ _ (by decide) ?_
    | with_reducible refine Rest.ite ?_ ?_ | dsimp only | split | intro _

theorem World.reportLost_rest {q0 : List Part} {w : World} {v' : World} {h : Half}
    (hq : partsLe [.evt] q0 = true) (e0 : Rest q0 w v') : Rest q0 (World.reportLost w h) v' := by
  refine Rest.trans (Rest.mono (p := [.evt]) ?_ hq) e0
  unfold World.reportLost
  try dsimp only
  repeat' first
    | with_reducible exact Rest.refl _ _ | with_reducible assumption | with_reducible refine Rest.when ?_ ?_
    | with_reducible refine World.updEvt_rest (by decide) ?_ | with_reducible refine Rest.ite ?_ ?_ | dsimp only | split | intro _

end Sys2Proof.Machine
end

