-- ==== Sys2Proof/Laws/Side.lean ====
section
/-!
SUPPORT. Laws of `State.rest`: what the operations on the whole state leave alone of the tokens, the Ledger, the boundaries and the queue.
-/
namespace Sys2Proof.Machine

/-- Two states that agree on the queue, and on the tokens, the Ledger and the boundaries where `q` does not name them. -/
def Side (q : List Part) (t s : State) : Prop :=
  t.pending = s.pending ∧ (partIn q .own = false → t.own = s.own) ∧ (partIn q .ledger = false → t.ledger = s.ledger) ∧
    (partIn q .bus = false → t.bus = s.bus)

theorem Side.refl (q : List Part) (s : State) : Side q s s := ⟨rfl, fun _ => rfl, fun _ => rfl, fun _ => rfl⟩

theorem Side.trans {q : List Part} {u t s : State} (a : Side q u t) (b : Side q t s) : Side q u s :=
  ⟨a.1.trans b.1, fun h => (a.2.1 h).trans (b.2.1 h), fun h => (a.2.2.1 h).trans (b.2.2.1 h), fun h => (a.2.2.2 h).trans (b.2.2.2 h)⟩

theorem Side.mono {p q : List Part} {t s : State} (e : Side p t s) (h : partsLe p q = true) : Side q t s :=
  ⟨e.1, fun x => e.2.1 (partsLe_mem h _ x), fun x => e.2.2.1 (partsLe_mem h _ x), fun x => e.2.2.2 (partsLe_mem h _ x)⟩

theorem Side.set_w {q : List Part} {t s : State} (e : Side q t s) (x : World) : Side q { t with w := x } s := e

theorem Side.set_own {q : List Part} {t s : State} (h : partIn q .own = true) (e : Side q t s) (x : Own) : Side q { t with own := x } s :=
  ⟨e.1, fun a => absurd (h.symm.trans a) (by decide), e.2.2.1, e.2.2.2⟩

theorem Side.set_ledger {q : List Part} {t s : State} (h : partIn q .ledger = true) (e : Side q t s) (x : Memory) :
    Side q { t with ledger := x } s :=
  ⟨e.1, e.2.1, fun a => absurd (h.symm.trans a) (by decide), e.2.2.2⟩

theorem Side.set_bus {q : List Part} {t s : State} (h : partIn q .bus = true) (e : Side q t s) (x : Bus) : Side q { t with bus := x } s :=
  ⟨e.1, e.2.1, e.2.2.1, fun a => absurd (h.symm.trans a) (by decide)⟩

theorem Side.set_own_w {q : List Part} {t s : State} (h : partIn q .own = true) (e : Side q t s) (x : Own) (y : World) :
    Side q { t with own := x, w := y } s := Side.set_own h (Side.set_w e y) x

theorem Side.set_ledger_w {q : List Part} {t s : State} (h : partIn q .ledger = true) (e : Side q t s) (x : Memory) (y : World) :
    Side q { t with ledger := x, w := y } s := Side.set_ledger h (Side.set_w e y) x

theorem Side.set_bus_w {q : List Part} {t s : State} (h : partIn q .bus = true) (e : Side q t s) (x : Bus) (y : World) :
    Side q { t with bus := x, w := y } s := Side.set_bus h (Side.set_w e y) x

theorem Side.onW {q : List Part} {t s : State} {f : World → World} (e : Side q t s) : Side q (t.onW f) s := e

theorem Side.onOwn {q : List Part} {t s : State} {f : Own → Own} (h : partIn q .own = true) (e : Side q t s) : Side q (t.onOwn f) s :=
  Side.set_own h e _

theorem Side.ite {q : List Part} {s : State} {c : Prop} [Decidable c] {a b : State} (ha : Side q a s) (hb : Side q b s) :
    Side q (if c then a else b) s := by split <;> assumption

theorem Side.when {q : List Part} {t s : State} {c : Bool} {f : State → State} (e : Side q t s) (hf : ∀ u, Side q u s → Side q (f u) s) :
    Side q (t.when c f) s := by
  unfold State.when
  split
  · exact hf _ e
  · exact e

theorem Side.forAll {α : Type} {q : List Part} {t s : State} {l : List α} {f : State → α → State} (e : Side q t s)
    (hf : ∀ u a, Side q u s → Side q (f u a) s) : Side q (t.forAll l f) s := by
  unfold State.forAll
  induction l generalizing t with
  | nil => exact e
  | cons a r ih => exact ih (hf _ _ e)

/-- The outcome is a next state that differs in the parts of `q` alone. -/
def Keeps (q : List Part) (o : Out) (s : State) : Prop := ∃ t, o = .next t ∧ State.rest q t = State.rest q s

theorem Keeps.next {q : List Part} {t s : State} (a : Side q t s) (b : Rest q t.w s.w) : Keeps q (.next t) s := by
  refine ⟨t, rfl, ?_⟩
  unfold State.rest
  rw [a.1, show t.w.rest q = s.w.rest q from b]
  cases h1 : partIn q .own <;> cases h2 : partIn q .ledger <;> cases h3 : partIn q .bus <;>
    simp only [Bool.false_eq_true, if_true, if_false] <;>
    (try rw [a.2.1 h1]) <;> (try rw [a.2.2.1 h2]) <;> (try rw [a.2.2.2 h3])

theorem Keeps.lift {q : List Part} {s : State} {f : World → World} (h : Rest q (f s.w) s.w) : Keeps q (lift s f) s :=
  Keeps.next ⟨rfl, fun _ => rfl, fun _ => rfl, fun _ => rfl⟩ h

theorem Keeps.putW {q : List Part} {s : State} {w : World} (h : Rest q w s.w) : Keeps q (putW s w) s :=
  Keeps.next ⟨rfl, fun _ => rfl, fun _ => rfl, fun _ => rfl⟩ h

theorem Keeps.ite {q : List Part} {s : State} {c : Prop} [Decidable c] {a b : Out} (ha : Keeps q a s) (hb : Keeps q b s) :
    Keeps q (if c then a else b) s := by split <;> assumption

end Sys2Proof.Machine
end

