-- ==== Sys2Proof/Laws/SideOps.lean ====
section
/-!
SUPPORT. What each operation on the whole state leaves alone besides the world.
-/
set_option linter.unreachableTactic false
set_option linter.unusedTactic false

namespace Sys2Proof.Machine

theorem State.replayJournal_side {q0 : List Part} {s v' : State} 
    (hq : partsLe [.ledger] q0 = true) (e0 : Side q0 s v') : Side q0 (State.replayJournal s ) v' := by
  refine Side.trans (Side.mono (p := [.ledger]) ?_ hq) e0
  unfold State.replayJournal
  try dsimp only
  repeat' first
    | with_reducible exact Side.refl _ _ | with_reducible assumption | with_reducible refine Side.ite ?_ ?_ | with_reducible refine Side.set_w ?_ _
    | with_reducible refine Side.set_ledger (by decide) ?_ _ | with_reducible refine Side.set_ledger_w (by decide) ?_ _ _ | dsimp only | split
    | intro _

theorem calRes_side {q0 : List Part} {s v' : State} {r : Nat}
    (hq : partsLe [] q0 = true) (e0 : Side q0 s v') : Side q0 (calRes s r) v' := by
  refine Side.trans (Side.mono (p := []) ?_ hq) e0
  unfold calRes
  try dsimp only
  repeat' first
    | with_reducible exact Side.refl _ _ | with_reducible assumption | with_reducible refine Side.ite ?_ ?_ | with_reducible refine Side.set_w ?_ _
    | dsimp only | split | intro _

theorem restoreLedger_side {q0 : List Part} {s v' : State} {h : Half} {init mask : Nat} {f : List Byte} {keys : List (List Byte)}
    (hq : partsLe [.ledger] q0 = true) (e0 : Side q0 s v') : Side q0 (restoreLedger s h init mask f keys) v' := by
  refine Side.trans (Side.mono (p := [.ledger]) ?_ hq) e0
  unfold restoreLedger
  try dsimp only
  repeat' first
    | with_reducible exact Side.refl _ _ | with_reducible assumption | with_reducible refine Side.forAll ?_ ?_
    | with_reducible refine calRes_side (by decide) ?_ | with_reducible refine Side.ite ?_ ?_ | with_reducible refine Side.set_w ?_ _
    | with_reducible refine Side.set_ledger (by decide) ?_ _ | with_reducible refine Side.set_ledger_w (by decide) ?_ _ _ | dsimp only | split
    | intro _

theorem State.leaves_side {q0 : List Part} {s v' : State} {k : Nat}
    (hq : partsLe [] q0 = true) (e0 : Side q0 s v') : Side q0 (State.leaves s k) v' := by
  refine Side.trans (Side.mono (p := []) ?_ hq) e0
  unfold State.leaves
  try dsimp only
  repeat' first
    | with_reducible exact Side.refl _ _ | with_reducible assumption | with_reducible refine Side.onW ?_ | with_reducible refine Side.when ?_ ?_
    | with_reducible refine Side.ite ?_ ?_ | dsimp only | split | intro _

theorem State.orphan_side {q0 : List Part} {s v' : State} {k : Nat} {last : Half}
    (hq : partsLe [.own] q0 = true) (e0 : Side q0 s v') : Side q0 (State.orphan s k last) v' := by
  refine Side.trans (Side.mono (p := [.own]) ?_ hq) e0
  unfold State.orphan
  try dsimp only
  repeat' first
    | with_reducible exact Side.refl _ _ | with_reducible assumption | with_reducible refine Side.onW ?_
    | with_reducible refine Side.onOwn (by decide) ?_ | with_reducible refine State.leaves_side (by decide) ?_ | with_reducible refine Side.ite ?_ ?_
    | dsimp only | split | intro _

theorem State.claiming_side {q0 : List Part} {s v' : State} {k : Nat} {dst : Half} {giver : Option Half}
    (hq : partsLe [.own] q0 = true) (e0 : Side q0 s v') : Side q0 (State.claiming s k dst giver) v' := by
  refine Side.trans (Side.mono (p := [.own]) ?_ hq) e0
  unfold State.claiming
  try dsimp only
  repeat' first
    | with_reducible exact Side.refl _ _ | with_reducible assumption | with_reducible refine Side.onOwn (by decide) ?_
    | with_reducible refine Side.ite ?_ ?_ | dsimp only | split | intro _

theorem State.owned_side {q0 : List Part} {s v' : State} {k : Nat} {h : Half}
    (hq : partsLe [.own] q0 = true) (e0 : Side q0 s v') : Side q0 (State.owned s k h) v' := by
  refine Side.trans (Side.mono (p := [.own]) ?_ hq) e0
  unfold State.owned
  try dsimp only
  repeat' first
    | with_reducible exact Side.refl _ _ | with_reducible assumption | with_reducible refine Side.onOwn (by decide) ?_
    | with_reducible refine Side.ite ?_ ?_ | dsimp only | split | intro _

theorem State.claim_side {q0 : List Part} {s v' : State} {h : Half} {k : Nat}
    (hq : partsLe [.own] q0 = true) (e0 : Side q0 s v') : Side q0 (State.claim s h k) v' := by
  refine Side.trans (Side.mono (p := [.own]) ?_ hq) e0
  unfold State.claim
  try dsimp only
  repeat' first
    | with_reducible exact Side.refl _ _ | with_reducible assumption | with_reducible refine Side.onW ?_
    | with_reducible refine State.claiming_side (by decide) ?_ | with_reducible refine Side.ite ?_ ?_ | dsimp only | split | intro _

theorem State.settle_side {q0 : List Part} {s v' : State} {h : Half} {k : Nat}
    (hq : partsLe [.own] q0 = true) (e0 : Side q0 s v') : Side q0 (State.settle s h k) v' := by
  refine Side.trans (Side.mono (p := [.own]) ?_ hq) e0
  unfold State.settle
  try dsimp only
  repeat' first
    | with_reducible exact Side.refl _ _ | with_reducible assumption | with_reducible refine Side.onW ?_
    | with_reducible refine Side.onOwn (by decide) ?_ | with_reducible refine Side.when ?_ ?_ | with_reducible refine Side.ite ?_ ?_ | dsimp only
    | split | intro _

theorem State.release_side {q0 : List Part} {s v' : State} {h : Half} {k : Nat}
    (hq : partsLe [.own] q0 = true) (e0 : Side q0 s v') : Side q0 (State.release s h k) v' := by
  refine Side.trans (Side.mono (p := [.own]) ?_ hq) e0
  unfold State.release
  try dsimp only
  repeat' first
    | with_reducible exact Side.refl _ _ | with_reducible assumption | with_reducible refine Side.onW ?_
    | with_reducible refine State.orphan_side (by decide) ?_ | with_reducible refine Side.ite ?_ ?_ | dsimp only | split | intro _

theorem State.handover_side {q0 : List Part} {s v' : State} {h : Half} {k : Nat}
    (hq : partsLe [.own] q0 = true) (e0 : Side q0 s v') : Side q0 (State.handover s h k) v' := by
  refine Side.trans (Side.mono (p := [.own]) ?_ hq) e0
  unfold State.handover
  try dsimp only
  repeat' first
    | with_reducible exact Side.refl _ _ | with_reducible assumption | with_reducible refine Side.onW ?_
    | with_reducible refine State.claiming_side (by decide) ?_ | with_reducible refine State.leaves_side (by decide) ?_
    | with_reducible refine Side.ite ?_ ?_ | dsimp only | split | intro _

theorem State.handoverDone_side {q0 : List Part} {s v' : State} {k : Nat}
    (hq : partsLe [.own] q0 = true) (e0 : Side q0 s v') : Side q0 (State.handoverDone s k) v' := by
  refine Side.trans (Side.mono (p := [.own]) ?_ hq) e0
  unfold State.handoverDone
  try dsimp only
  repeat' first
    | with_reducible exact Side.refl _ _ | with_reducible assumption | with_reducible refine Side.onW ?_ | with_reducible refine Side.when ?_ ?_
    | with_reducible refine State.owned_side (by decide) ?_ | with_reducible refine State.settle_side (by decide) ?_
    | with_reducible refine Side.ite ?_ ?_ | dsimp only | split | intro _

theorem State.claimAll_side {q0 : List Part} {s v' : State} {h : Half} {l : List Nat}
    (hq : partsLe [.own] q0 = true) (e0 : Side q0 s v') : Side q0 (State.claimAll s h l) v' := by
  refine Side.trans (Side.mono (p := [.own]) ?_ hq) e0
  unfold State.claimAll
  try dsimp only
  repeat' first
    | with_reducible exact Side.refl _ _ | with_reducible assumption | with_reducible refine Side.onW ?_
    | with_reducible refine Side.onOwn (by decide) ?_ | with_reducible refine Side.forAll ?_ ?_
    | with_reducible refine State.claiming_side (by decide) ?_ | with_reducible refine Side.ite ?_ ?_ | dsimp only | split | intro _

theorem State.handoverAll_side {q0 : List Part} {s v' : State} {h : Half}
    (hq : partsLe [.own] q0 = true) (e0 : Side q0 s v') : Side q0 (State.handoverAll s h) v' := by
  refine Side.trans (Side.mono (p := [.own]) ?_ hq) e0
  unfold State.handoverAll
  try dsimp only
  repeat' first
    | with_reducible exact Side.refl _ _ | with_reducible assumption | with_reducible refine Side.onW ?_
    | with_reducible refine Side.onOwn (by decide) ?_ | with_reducible refine Side.forAll ?_ ?_
    | with_reducible refine State.claiming_side (by decide) ?_ | with_reducible refine State.leaves_side (by decide) ?_
    | with_reducible refine Side.ite ?_ ?_ | dsimp only | split | intro _

theorem State.handoverAllNow_side {q0 : List Part} {s v' : State} {h : Half}
    (hq : partsLe [.own] q0 = true) (e0 : Side q0 s v') : Side q0 (State.handoverAllNow s h) v' := by
  refine Side.trans (Side.mono (p := [.own]) ?_ hq) e0
  unfold State.handoverAllNow
  try dsimp only
  repeat' first
    | with_reducible exact Side.refl _ _ | with_reducible assumption | with_reducible refine Side.forAll ?_ ?_
    | with_reducible refine State.handoverAll_side (by decide) ?_ | with_reducible refine State.handoverDone_side (by decide) ?_
    | with_reducible refine Side.ite ?_ ?_ | dsimp only | split | intro _

theorem State.serve_side {q0 : List Part} {s v' : State} {h : Half}
    (hq : partsLe [.own, .ledger] q0 = true) (e0 : Side q0 s v') : Side q0 (State.serve s h) v' := by
  refine Side.trans (Side.mono (p := [.own, .ledger]) ?_ hq) e0
  unfold State.serve
  try dsimp only
  repeat' first
    | with_reducible exact Side.refl _ _ | with_reducible assumption | with_reducible refine Side.onW ?_
    | with_reducible refine Side.onOwn (by decide) ?_ | with_reducible refine State.replayJournal_side (by decide) ?_
    | with_reducible refine Side.ite ?_ ?_ | dsimp only | split | intro _

theorem State.serverReq_side {q0 : List Part} {s v' : State} {h : Half}
    (hq : partsLe [.own, .ledger] q0 = true) (e0 : Side q0 s v') : Side q0 (State.serverReq s h) v' := by
  refine Side.trans (Side.mono (p := [.own, .ledger]) ?_ hq) e0
  unfold State.serverReq
  try dsimp only
  repeat' first
    | with_reducible exact Side.refl _ _ | with_reducible assumption | with_reducible refine Side.when ?_ ?_
    | with_reducible refine State.serve_side (by decide) ?_ | with_reducible refine Side.ite ?_ ?_ | dsimp only | split | intro _

theorem State.expire_side {q0 : List Part} {s v' : State} {k : Nat}
    (hq : partsLe [.own] q0 = true) (e0 : Side q0 s v') : Side q0 (State.expire s k) v' := by
  refine Side.trans (Side.mono (p := [.own]) ?_ hq) e0
  unfold State.expire
  try dsimp only
  repeat' first
    | with_reducible exact Side.refl _ _ | with_reducible assumption | with_reducible refine Side.onW ?_
    | with_reducible refine Side.onOwn (by decide) ?_ | with_reducible refine Side.when ?_ ?_ | with_reducible refine Side.ite ?_ ?_ | dsimp only
    | split | intro _

theorem State.setOrphanT_side {q0 : List Part} {s v' : State} {t : Nat}
    (hq : partsLe [.own] q0 = true) (e0 : Side q0 s v') : Side q0 (State.setOrphanT s t) v' := by
  refine Side.trans (Side.mono (p := [.own]) ?_ hq) e0
  unfold State.setOrphanT
  try dsimp only
  repeat' first
    | with_reducible exact Side.refl _ _ | with_reducible assumption | with_reducible refine Side.onW ?_ | with_reducible refine Side.forAll ?_ ?_
    | with_reducible refine State.expire_side (by decide) ?_ | with_reducible refine Side.ite ?_ ?_ | dsimp only | split | intro _

theorem State.fallen_side {q0 : List Part} {s v' : State} {h : Half}
    (hq : partsLe [.own] q0 = true) (e0 : Side q0 s v') : Side q0 (State.fallen s h) v' := by
  refine Side.trans (Side.mono (p := [.own]) ?_ hq) e0
  unfold State.fallen
  try dsimp only
  repeat' first
    | with_reducible exact Side.refl _ _ | with_reducible assumption | with_reducible refine Side.onW ?_
    | with_reducible refine Side.onOwn (by decide) ?_ | with_reducible refine Side.when ?_ ?_ | with_reducible refine Side.forAll ?_ ?_
    | with_reducible refine State.orphan_side (by decide) ?_ | with_reducible refine Side.ite ?_ ?_ | dsimp only | split | intro _

theorem State.fall_side {q0 : List Part} {s v' : State} {h : Half} {c : LowCause}
    (hq : partsLe [.own] q0 = true) (e0 : Side q0 s v') : Side q0 (State.fall s h c) v' := by
  refine Side.trans (Side.mono (p := [.own]) ?_ hq) e0
  unfold State.fall
  try dsimp only
  repeat' first
    | with_reducible exact Side.refl _ _ | with_reducible assumption | with_reducible refine Side.onOwn (by decide) ?_
    | with_reducible refine Side.when ?_ ?_ | with_reducible refine State.fallen_side (by decide) ?_ | with_reducible refine Side.ite ?_ ?_
    | dsimp only | split | intro _

theorem State.hold_side {q0 : List Part} {s v' : State} {h : Half} {cause : Nat}
    (hq : partsLe [.own] q0 = true) (e0 : Side q0 s v') : Side q0 (State.hold s h cause) v' := by
  refine Side.trans (Side.mono (p := [.own]) ?_ hq) e0
  unfold State.hold
  try dsimp only
  repeat' first
    | with_reducible exact Side.refl _ _ | with_reducible assumption | with_reducible refine Side.onW ?_
    | with_reducible refine State.fall_side (by decide) ?_ | with_reducible refine Side.ite ?_ ?_ | dsimp only | split | intro _

theorem State.resetHalf_side {q0 : List Part} {s v' : State} {h : Half} {cause : Nat}
    (hq : partsLe [.own] q0 = true) (e0 : Side q0 s v') : Side q0 (State.resetHalf s h cause) v' := by
  refine Side.trans (Side.mono (p := [.own]) ?_ hq) e0
  unfold State.resetHalf
  try dsimp only
  repeat' first
    | with_reducible exact Side.refl _ _ | with_reducible assumption | with_reducible refine Side.when ?_ ?_
    | with_reducible refine State.hold_side (by decide) ?_ | with_reducible refine Side.ite ?_ ?_ | dsimp only | split | intro _

theorem State.fence_side {q0 : List Part} {s v' : State} {h : Half}
    (hq : partsLe [.own] q0 = true) (e0 : Side q0 s v') : Side q0 (State.fence s h) v' := by
  refine Side.trans (Side.mono (p := [.own]) ?_ hq) e0
  unfold State.fence
  try dsimp only
  repeat' first
    | with_reducible exact Side.refl _ _ | with_reducible assumption | with_reducible refine Side.onW ?_
    | with_reducible refine State.fall_side (by decide) ?_ | with_reducible refine Side.ite ?_ ?_ | dsimp only | split | intro _

theorem State.xngDown_side {q0 : List Part} {s v' : State} {h : Half}
    (hq : partsLe [] q0 = true) (e0 : Side q0 s v') : Side q0 (State.xngDown s h) v' := by
  refine Side.trans (Side.mono (p := []) ?_ hq) e0
  unfold State.xngDown
  try dsimp only
  repeat' first
    | with_reducible exact Side.refl _ _ | with_reducible assumption | with_reducible refine Side.onW ?_ | with_reducible refine Side.when ?_ ?_
    | with_reducible refine Side.ite ?_ ?_ | dsimp only | split | intro _

theorem State.allLanesDown_side {q0 : List Part} {s v' : State} 
    (hq : partsLe [] q0 = true) (e0 : Side q0 s v') : Side q0 (State.allLanesDown s ) v' := by
  refine Side.trans (Side.mono (p := []) ?_ hq) e0
  unfold State.allLanesDown
  try dsimp only
  repeat' first
    | with_reducible exact Side.refl _ _ | with_reducible assumption | with_reducible refine Side.onW ?_ | with_reducible refine Side.when ?_ ?_
    | with_reducible refine Side.forAll ?_ ?_ | with_reducible refine State.xngDown_side (by decide) ?_ | with_reducible refine Side.ite ?_ ?_
    | dsimp only | split | intro _

theorem State.upOpen_side {q0 : List Part} {s v' : State} {h : Half} {r source len : Nat} {tech : Bool}
    (hq : partsLe [] q0 = true) (e0 : Side q0 s v') : Side q0 (State.upOpen s h r source len tech) v' := by
  refine Side.trans (Side.mono (p := []) ?_ hq) e0
  unfold State.upOpen
  try dsimp only
  repeat' first
    | with_reducible exact Side.refl _ _ | with_reducible assumption | with_reducible refine Side.onW ?_ | with_reducible refine Side.ite ?_ ?_
    | dsimp only | split | intro _

theorem State.leaveForUpdate_side {q0 : List Part} {s v' : State} {h : Half}
    (hq : partsLe [.own] q0 = true) (e0 : Side q0 s v') : Side q0 (State.leaveForUpdate s h) v' := by
  refine Side.trans (Side.mono (p := [.own]) ?_ hq) e0
  unfold State.leaveForUpdate
  try dsimp only
  repeat' first
    | with_reducible exact Side.refl _ _ | with_reducible assumption | with_reducible refine Side.onW ?_ | with_reducible refine Side.forAll ?_ ?_
    | with_reducible refine State.handoverAllNow_side (by decide) ?_ | with_reducible refine State.orphan_side (by decide) ?_
    | with_reducible refine Side.ite ?_ ?_ | dsimp only | split | intro _

theorem State.upBlock_side {q0 : List Part} {s v' : State} {h : Half} {r : Nat} {b : List Byte}
    (hq : partsLe [.own] q0 = true) (e0 : Side q0 s v') : Side q0 (State.upBlock s h r b) v' := by
  refine Side.trans (Side.mono (p := [.own]) ?_ hq) e0
  unfold State.upBlock
  try dsimp only
  repeat' first
    | with_reducible exact Side.refl _ _ | with_reducible assumption | with_reducible refine Side.onW ?_ | with_reducible refine Side.when ?_ ?_
    | with_reducible refine State.leaveForUpdate_side (by decide) ?_ | with_reducible refine Side.ite ?_ ?_ | dsimp only | split | intro _

theorem State.cancelShutdown_side {q0 : List Part} {s v' : State} {h : Half}
    (hq : partsLe [.own] q0 = true) (e0 : Side q0 s v') : Side q0 (State.cancelShutdown s h) v' := by
  refine Side.trans (Side.mono (p := [.own]) ?_ hq) e0
  unfold State.cancelShutdown
  try dsimp only
  repeat' first
    | with_reducible exact Side.refl _ _ | with_reducible assumption | with_reducible refine Side.onW ?_ | with_reducible refine Side.when ?_ ?_
    | with_reducible refine State.claimAll_side (by decide) ?_ | with_reducible refine Side.ite ?_ ?_ | dsimp only | split | intro _

theorem State.backplaneOn_side {q0 : List Part} {s v' : State} {t1 t0 : Bool} {tiles : Nat}
    (hq : partsLe [.own] q0 = true) (e0 : Side q0 s v') : Side q0 (State.backplaneOn s t1 t0 tiles) v' := by
  refine Side.trans (Side.mono (p := [.own]) ?_ hq) e0
  unfold State.backplaneOn
  try dsimp only
  repeat' first
    | with_reducible exact Side.refl _ _ | with_reducible assumption | with_reducible refine Side.forAll ?_ ?_ | with_reducible refine Side.ite ?_ ?_
    | with_reducible refine Side.set_w ?_ _ | with_reducible refine Side.set_own (by decide) ?_ _
    | with_reducible refine Side.set_own_w (by decide) ?_ _ _ | dsimp only | split | intro _

theorem State.letRun_side {q0 : List Part} {s v' : State} {h : Half} {cause : Nat}
    (hq : partsLe [.own, .bus] q0 = true) (e0 : Side q0 s v') : Side q0 (State.letRun s h cause) v' := by
  refine Side.trans (Side.mono (p := [.own, .bus]) ?_ hq) e0
  unfold State.letRun
  try dsimp only
  repeat' first
    | with_reducible exact Side.refl _ _ | with_reducible assumption | with_reducible refine Side.onW ?_
    | with_reducible refine Side.onOwn (by decide) ?_ | with_reducible refine Side.when ?_ ?_ | with_reducible refine Side.ite ?_ ?_
    | with_reducible refine Side.set_bus (by decide) ?_ _ | with_reducible refine Side.set_bus_w (by decide) ?_ _ _ | dsimp only | split | intro _

theorem State.restart_side {q0 : List Part} {s v' : State} {h : Half} {cause : Nat}
    (hq : partsLe [.own, .bus] q0 = true) (e0 : Side q0 s v') : Side q0 (State.restart s h cause) v' := by
  refine Side.trans (Side.mono (p := [.own, .bus]) ?_ hq) e0
  unfold State.restart
  try dsimp only
  repeat' first
    | with_reducible exact Side.refl _ _ | with_reducible assumption | with_reducible refine Side.when ?_ ?_
    | with_reducible refine State.hold_side (by decide) ?_ | with_reducible refine State.letRun_side (by decide) ?_
    | with_reducible refine Side.ite ?_ ?_ | dsimp only | split | intro _

theorem State.bloom2_side {q0 : List Part} {s v' : State} {h : Half}
    (hq : partsLe [] q0 = true) (e0 : Side q0 s v') : Side q0 (State.bloom2 s h) v' := by
  refine Side.trans (Side.mono (p := []) ?_ hq) e0
  unfold State.bloom2
  try dsimp only
  repeat' first
    | with_reducible exact Side.refl _ _ | with_reducible assumption | with_reducible refine Side.onW ?_ | with_reducible refine Side.when ?_ ?_
    | with_reducible refine Side.forAll ?_ ?_ | with_reducible refine Side.ite ?_ ?_ | dsimp only | split | intro _

theorem State.bloom6_side {q0 : List Part} {s v' : State} {h : Half}
    (hq : partsLe [.own] q0 = true) (e0 : Side q0 s v') : Side q0 (State.bloom6 s h) v' := by
  refine Side.trans (Side.mono (p := [.own]) ?_ hq) e0
  unfold State.bloom6
  try dsimp only
  repeat' first
    | with_reducible exact Side.refl _ _ | with_reducible assumption | with_reducible refine Side.onW ?_ | with_reducible refine Side.when ?_ ?_
    | with_reducible refine Side.forAll ?_ ?_ | with_reducible refine State.setOrphanT_side (by decide) ?_ | with_reducible refine Side.ite ?_ ?_
    | dsimp only | split | intro _

theorem State.bloom8_side {q0 : List Part} {s v' : State} {h : Half}
    (hq : partsLe [.own, .ledger] q0 = true) (e0 : Side q0 s v') : Side q0 (State.bloom8 s h) v' := by
  refine Side.trans (Side.mono (p := [.own, .ledger]) ?_ hq) e0
  unfold State.bloom8
  try dsimp only
  repeat' first
    | with_reducible exact Side.refl _ _ | with_reducible assumption | with_reducible refine Side.onW ?_ | with_reducible refine Side.when ?_ ?_
    | with_reducible refine State.claimAll_side (by decide) ?_ | with_reducible refine State.serverReq_side (by decide) ?_
    | with_reducible refine Side.ite ?_ ?_ | dsimp only | split | intro _

theorem State.bloom9_side {q0 : List Part} {s v' : State} {h : Half}
    (hq : partsLe [] q0 = true) (e0 : Side q0 s v') : Side q0 (State.bloom9 s h) v' := by
  refine Side.trans (Side.mono (p := []) ?_ hq) e0
  unfold State.bloom9
  try dsimp only
  repeat' first
    | with_reducible exact Side.refl _ _ | with_reducible assumption | with_reducible refine Side.onW ?_ | with_reducible refine Side.when ?_ ?_
    | with_reducible refine Side.ite ?_ ?_ | dsimp only | split | intro _

theorem State.bloomStep_side {q0 : List Part} {s v' : State} {h : Half} {k : Nat}
    (hq : partsLe [.own, .ledger] q0 = true) (e0 : Side q0 s v') : Side q0 (State.bloomStep s h k) v' := by
  refine Side.trans (Side.mono (p := [.own, .ledger]) ?_ hq) e0
  unfold State.bloomStep
  try dsimp only
  repeat' first
    | with_reducible exact Side.refl _ _ | with_reducible assumption | with_reducible refine Side.onW ?_
    | with_reducible refine State.bloom2_side (by decide) ?_ | with_reducible refine State.bloom6_side (by decide) ?_
    | with_reducible refine State.bloom8_side (by decide) ?_ | with_reducible refine State.bloom9_side (by decide) ?_
    | with_reducible refine Side.ite ?_ ?_ | dsimp only | split | intro _

theorem State.activateAsk_side {q0 : List Part} {s v' : State} {h : Half}
    (hq : partsLe [] q0 = true) (e0 : Side q0 s v') : Side q0 (State.activateAsk s h) v' := by
  refine Side.trans (Side.mono (p := []) ?_ hq) e0
  unfold State.activateAsk
  try dsimp only
  repeat' first
    | with_reducible exact Side.refl _ _ | with_reducible assumption | with_reducible refine Side.onW ?_ | with_reducible refine Side.when ?_ ?_
    | with_reducible refine Side.ite ?_ ?_ | dsimp only | split | intro _

theorem State.setStep_side {q0 : List Part} {s v' : State} {a : Activation} {k : Nat}
    (hq : partsLe [] q0 = true) (e0 : Side q0 s v') : Side q0 (State.setStep s a k) v' := by
  refine Side.trans (Side.mono (p := []) ?_ hq) e0
  unfold State.setStep
  try dsimp only
  repeat' first
    | with_reducible exact Side.refl _ _ | with_reducible assumption | with_reducible refine Side.onW ?_ | with_reducible refine Side.ite ?_ ?_
    | dsimp only | split | intro _

theorem State.activateTrial_side {q0 : List Part} {s v' : State} {n : Half}
    (hq : partsLe [.own, .bus] q0 = true) (e0 : Side q0 s v') : Side q0 (State.activateTrial s n) v' := by
  refine Side.trans (Side.mono (p := [.own, .bus]) ?_ hq) e0
  unfold State.activateTrial
  try dsimp only
  repeat' first
    | with_reducible exact Side.refl _ _ | with_reducible assumption | with_reducible refine Side.onW ?_
    | with_reducible refine State.restart_side (by decide) ?_ | with_reducible refine Side.ite ?_ ?_ | dsimp only | split | intro _

theorem State.activatePass_side {q0 : List Part} {s v' : State} {n : Half}
    (hq : partsLe [.own, .ledger] q0 = true) (e0 : Side q0 s v') : Side q0 (State.activatePass s n) v' := by
  refine Side.trans (Side.mono (p := [.own, .ledger]) ?_ hq) e0
  unfold State.activatePass
  try dsimp only
  repeat' first
    | with_reducible exact Side.refl _ _ | with_reducible assumption | with_reducible refine Side.when ?_ ?_
    | with_reducible refine State.handoverAllNow_side (by decide) ?_ | with_reducible refine State.hold_side (by decide) ?_
    | with_reducible refine State.serverReq_side (by decide) ?_ | with_reducible refine State.setOrphanT_side (by decide) ?_
    | with_reducible refine Side.ite ?_ ?_ | dsimp only | split | intro _

theorem State.activateAdopt_side {q0 : List Part} {s v' : State} {n : Half}
    (hq : partsLe [.own] q0 = true) (e0 : Side q0 s v') : Side q0 (State.activateAdopt s n) v' := by
  refine Side.trans (Side.mono (p := [.own]) ?_ hq) e0
  unfold State.activateAdopt
  try dsimp only
  repeat' first
    | with_reducible exact Side.refl _ _ | with_reducible assumption | with_reducible refine Side.onW ?_ | with_reducible refine Side.when ?_ ?_
    | with_reducible refine Side.forAll ?_ ?_ | with_reducible refine State.claimAll_side (by decide) ?_ | with_reducible refine Side.ite ?_ ?_
    | dsimp only | split | intro _

theorem State.activateOld_side {q0 : List Part} {s v' : State} {o : Half}
    (hq : partsLe [.own, .bus] q0 = true) (e0 : Side q0 s v') : Side q0 (State.activateOld s o) v' := by
  refine Side.trans (Side.mono (p := [.own, .bus]) ?_ hq) e0
  unfold State.activateOld
  try dsimp only
  repeat' first
    | with_reducible exact Side.refl _ _ | with_reducible assumption | with_reducible refine Side.onW ?_ | with_reducible refine Side.when ?_ ?_
    | with_reducible refine State.restart_side (by decide) ?_ | with_reducible refine Side.ite ?_ ?_ | dsimp only | split | intro _

theorem State.activateEnd_side {q0 : List Part} {s v' : State} 
    (hq : partsLe [] q0 = true) (e0 : Side q0 s v') : Side q0 (State.activateEnd s ) v' := by
  refine Side.trans (Side.mono (p := []) ?_ hq) e0
  unfold State.activateEnd
  try dsimp only
  repeat' first
    | with_reducible exact Side.refl _ _ | with_reducible assumption | with_reducible refine Side.onW ?_ | with_reducible refine Side.when ?_ ?_
    | with_reducible refine Side.forAll ?_ ?_ | with_reducible refine Side.ite ?_ ?_ | dsimp only | split | intro _

theorem State.activateDrop_side {q0 : List Part} {s v' : State} {a : Activation}
    (hq : partsLe [.own, .bus] q0 = true) (e0 : Side q0 s v') : Side q0 (State.activateDrop s a) v' := by
  refine Side.trans (Side.mono (p := [.own, .bus]) ?_ hq) e0
  unfold State.activateDrop
  try dsimp only
  repeat' first
    | with_reducible exact Side.refl _ _ | with_reducible assumption | with_reducible refine Side.onW ?_ | with_reducible refine Side.when ?_ ?_
    | with_reducible refine State.restart_side (by decide) ?_ | with_reducible refine Side.ite ?_ ?_ | dsimp only | split | intro _

theorem State.activateKnock_side {q0 : List Part} {s v' : State} 
    (hq : partsLe [.own, .bus] q0 = true) (e0 : Side q0 s v') : Side q0 (State.activateKnock s ).1 v' := by
  refine Side.trans (Side.mono (p := [.own, .bus]) ?_ hq) e0
  unfold State.activateKnock
  try dsimp only
  repeat' first
    | with_reducible exact Side.refl _ _ | with_reducible assumption | with_reducible refine State.activateDrop_side (by decide) ?_
    | with_reducible refine Side.ite ?_ ?_ | dsimp only | split | intro _

theorem State.cupStart_side {q0 : List Part} {s v' : State} {h : Half} {c : CupCond}
    (hq : partsLe [.own] q0 = true) (e0 : Side q0 s v') : Side q0 (State.cupStart s h c) v' := by
  refine Side.trans (Side.mono (p := [.own]) ?_ hq) e0
  unfold State.cupStart
  try dsimp only
  repeat' first
    | with_reducible exact Side.refl _ _ | with_reducible assumption | with_reducible refine Side.onW ?_
    | with_reducible refine State.hold_side (by decide) ?_ | with_reducible refine Side.ite ?_ ?_ | dsimp only | split | intro _

theorem State.shutStep2_side {q0 : List Part} {s v' : State} {h : Half}
    (hq : partsLe [.ledger] q0 = true) (e0 : Side q0 s v') : Side q0 (State.shutStep2 s h) v' := by
  refine Side.trans (Side.mono (p := [.ledger]) ?_ hq) e0
  unfold State.shutStep2
  try dsimp only
  repeat' first
    | with_reducible exact Side.refl _ _ | with_reducible assumption | with_reducible refine Side.onW ?_ | with_reducible refine Side.when ?_ ?_
    | with_reducible refine State.replayJournal_side (by decide) ?_ | with_reducible refine Side.ite ?_ ?_ | dsimp only | split | intro _

theorem State.shutBegin_side {q0 : List Part} {s v' : State} {h : Half}
    (hq : partsLe [.ledger] q0 = true) (e0 : Side q0 s v') : Side q0 (State.shutBegin s h) v' := by
  refine Side.trans (Side.mono (p := [.ledger]) ?_ hq) e0
  unfold State.shutBegin
  try dsimp only
  repeat' first
    | with_reducible exact Side.refl _ _ | with_reducible assumption | with_reducible refine Side.onW ?_ | with_reducible refine Side.forAll ?_ ?_
    | with_reducible refine State.shutStep2_side (by decide) ?_ | with_reducible refine Side.ite ?_ ?_ | dsimp only | split | intro _

theorem State.shutRelease_side {q0 : List Part} {s v' : State} {h : Half}
    (hq : partsLe [.own] q0 = true) (e0 : Side q0 s v') : Side q0 (State.shutRelease s h) v' := by
  refine Side.trans (Side.mono (p := [.own]) ?_ hq) e0
  unfold State.shutRelease
  try dsimp only
  repeat' first
    | with_reducible exact Side.refl _ _ | with_reducible assumption | with_reducible refine Side.onW ?_ | with_reducible refine Side.when ?_ ?_
    | with_reducible refine Side.forAll ?_ ?_ | with_reducible refine State.orphan_side (by decide) ?_ | with_reducible refine Side.ite ?_ ?_
    | dsimp only | split | intro _

theorem State.failHalf_side {q0 : List Part} {s v' : State} {h : Half} {wrote : Bool} {ms_ : List CupMeas}
    (hq : partsLe [.own, .ledger] q0 = true) (e0 : Side q0 s v') : Side q0 (State.failHalf s h wrote ms_) v' := by
  refine Side.trans (Side.mono (p := [.own, .ledger]) ?_ hq) e0
  unfold State.failHalf
  try dsimp only
  repeat' first
    | with_reducible exact Side.refl _ _ | with_reducible assumption | with_reducible refine Side.onW ?_ | with_reducible refine Side.when ?_ ?_
    | with_reducible refine State.hold_side (by decide) ?_ | with_reducible refine State.shutStep2_side (by decide) ?_
    | with_reducible refine Side.ite ?_ ?_ | dsimp only | split | intro _

theorem State.startAgain_side {q0 : List Part} {s v' : State} {h : Half} {cause : Nat}
    (hq : partsLe [.own, .bus] q0 = true) (e0 : Side q0 s v') : Side q0 (State.startAgain s h cause) v' := by
  refine Side.trans (Side.mono (p := [.own, .bus]) ?_ hq) e0
  unfold State.startAgain
  try dsimp only
  repeat' first
    | with_reducible exact Side.refl _ _ | with_reducible assumption | with_reducible refine Side.onW ?_ | with_reducible refine Side.when ?_ ?_
    | with_reducible refine State.letRun_side (by decide) ?_ | with_reducible refine Side.ite ?_ ?_ | dsimp only | split | intro _

theorem State.moveGroup_side {q0 : List Part} {s v' : State} {giver : Half} {g : List Nat}
    (hq : partsLe [.own] q0 = true) (e0 : Side q0 s v') : Side q0 (State.moveGroup s giver g) v' := by
  refine Side.trans (Side.mono (p := [.own]) ?_ hq) e0
  unfold State.moveGroup
  try dsimp only
  repeat' first
    | with_reducible exact Side.refl _ _ | with_reducible assumption | with_reducible refine Side.onW ?_ | with_reducible refine Side.when ?_ ?_
    | with_reducible refine Side.forAll ?_ ?_ | with_reducible refine State.handover_side (by decide) ?_
    | with_reducible refine State.handoverDone_side (by decide) ?_ | with_reducible refine Side.ite ?_ ?_ | dsimp only | split | intro _

theorem State.prepareHalf_side {q0 : List Part} {s v' : State} {x : Half}
    (hq : partsLe [.own, .ledger] q0 = true) (e0 : Side q0 s v') : Side q0 (State.prepareHalf s x) v' := by
  refine Side.trans (Side.mono (p := [.own, .ledger]) ?_ hq) e0
  unfold State.prepareHalf
  try dsimp only
  repeat' first
    | with_reducible exact Side.refl _ _ | with_reducible assumption | with_reducible refine Side.onW ?_ | with_reducible refine Side.when ?_ ?_
    | with_reducible refine Side.forAll ?_ ?_ | with_reducible refine State.fence_side (by decide) ?_
    | with_reducible refine State.handoverAllNow_side (by decide) ?_ | with_reducible refine State.moveGroup_side (by decide) ?_
    | with_reducible refine State.replayJournal_side (by decide) ?_ | with_reducible refine State.serverReq_side (by decide) ?_
    | with_reducible refine Side.ite ?_ ?_ | dsimp only | split | intro _

theorem State.svcEnd_side {q0 : List Part} {s v' : State} 
    (hq : partsLe [.own, .bus] q0 = true) (e0 : Side q0 s v') : Side q0 (State.svcEnd s ) v' := by
  refine Side.trans (Side.mono (p := [.own, .bus]) ?_ hq) e0
  unfold State.svcEnd
  try dsimp only
  repeat' first
    | with_reducible exact Side.refl _ _ | with_reducible assumption | with_reducible refine Side.onW ?_
    | with_reducible refine State.restart_side (by decide) ?_ | with_reducible refine Side.ite ?_ ?_ | dsimp only | split | intro _

theorem State.tileCal_side {q0 : List Part} {s v' : State} {t : Nat} {serial : List Byte} {cal : List (List Byte)}
    (hq : partsLe [.ledger] q0 = true) (e0 : Side q0 s v') : Side q0 (State.tileCal s t serial cal) v' := by
  refine Side.trans (Side.mono (p := [.ledger]) ?_ hq) e0
  unfold State.tileCal
  try dsimp only
  repeat' first
    | with_reducible exact Side.refl _ _ | with_reducible assumption | with_reducible refine Side.forAll ?_ ?_ | with_reducible refine Side.ite ?_ ?_
    | with_reducible refine Side.set_ledger (by decide) ?_ _ | with_reducible refine Side.set_ledger_w (by decide) ?_ _ _ | dsimp only | split
    | intro _

theorem State.watchdogExpire_side {q0 : List Part} {s v' : State} {h : Half}
    (hq : partsLe [.own] q0 = true) (e0 : Side q0 s v') : Side q0 (State.watchdogExpire s h) v' := by
  refine Side.trans (Side.mono (p := [.own]) ?_ hq) e0
  unfold State.watchdogExpire
  try dsimp only
  repeat' first
    | with_reducible exact Side.refl _ _ | with_reducible assumption | with_reducible refine State.fall_side (by decide) ?_
    | with_reducible refine State.hold_side (by decide) ?_ | with_reducible refine Side.ite ?_ ?_ | dsimp only | split | intro _

theorem State.deliver_side {q0 : List Part} {s v' : State} {h : Half} {r : EvRec} {rest : List EvRec}
    (hq : partsLe [] q0 = true) (e0 : Side q0 s v') : Side q0 (State.deliver s h r rest) v' := by
  refine Side.trans (Side.mono (p := []) ?_ hq) e0
  unfold State.deliver
  try dsimp only
  repeat' first
    | with_reducible exact Side.refl _ _ | with_reducible assumption | with_reducible refine Side.onW ?_ | with_reducible refine Side.when ?_ ?_
    | with_reducible refine Side.forAll ?_ ?_ | with_reducible refine Side.ite ?_ ?_ | dsimp only | split | intro _

theorem State.knockClass0_side {q0 : List Part} {s v' : State} {h : Half} {init idx : Nat} {again : Bool}
    (hq : partsLe [] q0 = true) (e0 : Side q0 s v') : Side q0 (State.knockClass0 s h init idx again).1 v' := by
  refine Side.trans (Side.mono (p := []) ?_ hq) e0
  unfold State.knockClass0
  try dsimp only
  repeat' first
    | with_reducible exact Side.refl _ _ | with_reducible assumption | with_reducible refine Side.onW ?_ | with_reducible refine Side.when ?_ ?_
    | with_reducible refine Side.ite ?_ ?_ | dsimp only | split | intro _

theorem State.knockClass2_side {q0 : List Part} {s v' : State} {h : Half} {idx : Nat}
    (hq : partsLe [] q0 = true) (e0 : Side q0 s v') : Side q0 (State.knockClass2 s h idx).1 v' := by
  refine Side.trans (Side.mono (p := []) ?_ hq) e0
  unfold State.knockClass2
  try dsimp only
  repeat' first
    | with_reducible exact Side.refl _ _ | with_reducible assumption | with_reducible refine Side.onW ?_ | with_reducible refine Side.ite ?_ ?_
    | dsimp only | split | intro _

theorem State.knockClass5_side {q0 : List Part} {s v' : State} {h : Half} {idx : Nat}
    (hq : partsLe [.own, .bus] q0 = true) (e0 : Side q0 s v') : Side q0 (State.knockClass5 s h idx) v' := by
  refine Side.trans (Side.mono (p := [.own, .bus]) ?_ hq) e0
  unfold State.knockClass5
  try dsimp only
  repeat' first
    | with_reducible exact Side.refl _ _ | with_reducible assumption | with_reducible refine Side.onW ?_ | with_reducible refine Side.when ?_ ?_
    | with_reducible refine State.activateKnock_side (by decide) ?_ | with_reducible refine Side.ite ?_ ?_ | dsimp only | split | intro _

theorem State.knock_side {q0 : List Part} {s v' : State} {h : Half} {init cls idx tc : Nat} {jobs : List Nat} {again : Bool}
    (hq : partsLe [.own, .bus] q0 = true) (e0 : Side q0 s v') : Side q0 (State.knock s h init cls idx tc jobs again).1 v' := by
  refine Side.trans (Side.mono (p := [.own, .bus]) ?_ hq) e0
  unfold State.knock
  try dsimp only
  repeat' first
    | with_reducible exact Side.refl _ _ | with_reducible assumption | with_reducible refine Side.onW ?_ | with_reducible refine Side.when ?_ ?_
    | with_reducible refine State.knockClass0_side (by decide) ?_ | with_reducible refine State.knockClass2_side (by decide) ?_
    | with_reducible refine State.knockClass5_side (by decide) ?_ | with_reducible refine Side.ite ?_ ?_ | dsimp only | split | intro _

theorem State.knockIn_side {q0 : List Part} {s v' : State} {h : Half} {init cls idx tc : Nat} {jobs : List Nat} {k : Nat}
    (hq : partsLe [.own, .bus] q0 = true) (e0 : Side q0 s v') : Side q0 (State.knockIn s h init cls idx tc jobs k) v' := by
  refine Side.trans (Side.mono (p := [.own, .bus]) ?_ hq) e0
  unfold State.knockIn
  try dsimp only
  repeat' first
    | with_reducible exact Side.refl _ _ | with_reducible assumption | with_reducible refine Side.onW ?_
    | with_reducible refine State.knock_side (by decide) ?_ | with_reducible refine Side.ite ?_ ?_ | dsimp only | split | intro _

theorem State.busWrite_side {q0 : List Part} {s v' : State} {h : Half} {init : Nat} {p : PWrite}
    (hq : partsLe [] q0 = true) (e0 : Side q0 s v') : Side q0 (State.busWrite s h init p) v' := by
  refine Side.trans (Side.mono (p := []) ?_ hq) e0
  unfold State.busWrite
  try dsimp only
  repeat' first
    | with_reducible exact Side.refl _ _ | with_reducible assumption | with_reducible refine Side.ite ?_ ?_ | with_reducible refine Side.set_w ?_ _
    | dsimp only | split | intro _

theorem State.setPort_side {q0 : List Part} {s v' : State} {h : Half} {init : Nat} {p : Port}
    (hq : partsLe [.bus] q0 = true) (e0 : Side q0 s v') : Side q0 (State.setPort s h init p) v' := by
  refine Side.trans (Side.mono (p := [.bus]) ?_ hq) e0
  unfold State.setPort
  try dsimp only
  repeat' first
    | with_reducible exact Side.refl _ _ | with_reducible assumption | with_reducible refine Side.ite ?_ ?_
    | with_reducible refine Side.set_bus (by decide) ?_ _ | with_reducible refine Side.set_bus_w (by decide) ?_ _ _ | dsimp only | split | intro _

theorem State.busErr_side {q0 : List Part} {s v' : State} {h : Half} {init : Nat}
    (hq : partsLe [.bus] q0 = true) (e0 : Side q0 s v') : Side q0 (State.busErr s h init) v' := by
  refine Side.trans (Side.mono (p := [.bus]) ?_ hq) e0
  unfold State.busErr
  try dsimp only
  repeat' first
    | with_reducible exact Side.refl _ _ | with_reducible assumption | with_reducible refine State.setPort_side (by decide) ?_
    | with_reducible refine Side.ite ?_ ?_ | dsimp only | split | intro _

end Sys2Proof.Machine
end

