-- ==== Sys2Proof/Laws/FrameGate.lean ====
section
/-!
SUPPORT. What the gated writes of the selected channel leave alone, given what the write behind the gate leaves alone.
-/
namespace Sys2Proof.Machine

theorem valveWrite_keeps {q : List Part} {s : State} {h : Half} {init : Nat} {f : Nat → World → World}
    (hq : partsLe [.evt, .reg 0x100018, .reg 0x300118] q = true) (hf : ∀ n u, Rest q u s.w → Rest q (f n u) s.w) :
    Keeps q (valveWrite s h init f) s := by
  unfold valveWrite
  dsimp only
  split
  · exact Keeps.next (Side.refl _ _) (Rest.refl _ _)
  · split
    · exact Keeps.next (Side.refl _ _) (Rest.refl _ _)
    · exact Keeps.putW (Rest.gateObj _ _ _ hq (Rest.refl _ _) fun u hu => Rest.ite hu (hf _ u hu))

theorem inputWrite_keeps {q : List Part} {s : State} {h : Half} {init : Nat} {f : Nat → World → World}
    (hq : partsLe [.evt, .reg 0x100018, .reg 0x300118] q = true) (hf : ∀ n u, Rest q u s.w → Rest q (f n u) s.w) :
    Keeps q (inputWrite s h init f) s :=
  Keeps.putW (Rest.gateObj _ _ _ hq (Rest.refl _ _) fun u hu => hf _ u hu)

theorem switchWrite_keeps {q : List Part} {s : State} {h : Half} {init : Nat} {f : Nat → World → World}
    (hq : partsLe [.evt, .reg 0x100018, .reg 0x300118] q = true) (hf : ∀ n u, Rest q u s.w → Rest q (f n u) s.w) :
    Keeps q (switchWrite s h init f) s := by
  unfold switchWrite
  dsimp only
  split
  · exact Keeps.next (Side.refl _ _) (Rest.refl _ _)
  · exact Keeps.putW (Rest.gateObj _ _ _ hq (Rest.refl _ _) fun u hu => Rest.ite hu (hf _ u hu))

theorem canGate_rest {q : List Part} {s : State} {v : World} {h : Half} {init : Nat} {f : World → Nat → World}
    (hq : partsLe [.evt, .reg 0x100018, .reg 0x300118] q = true) (e : Rest q s.w v) (hf : ∀ u n, Rest q u v → Rest q (f u n) v) :
    Rest q (canGate s h init f) v :=
  Rest.gateObj _ _ _ hq e fun u hu => hf u _ hu

theorem Rest.instr {q : List Part} {w v : World} {ch op : Nat} {f : World → Nat → World} (e : Rest q w v)
    (hf : ∀ u x, Rest q u v → Rest q (f u x) v) : Rest q (w.instr ch op f) v := by
  unfold World.instr
  split
  · exact Rest.ite (hf _ _ e) e
  · exact e

theorem calRes_rest {q : List Part} {s : State} {v : World} {r : Nat} (hq : partIn q (.reg 0x120002C) = true) (e : Rest q s.w v) :
    Rest q (calRes s r).w v := Rest.wr _ _ _ _ (by rw [Bool.and_eq_true]; exact ⟨hq, rfl⟩) e

theorem restoreLedger_rest {q : List Part} {s : State} {v : World} {h : Half} {init mask : Nat} {f : List Byte} {keys : List (List Byte)}
    (hq : partsLe [.cal, .reg 0x120002C] q = true) (e : Rest q s.w v) : Rest q (restoreLedger s h init mask f keys).w v := by
  refine Rest.trans (Rest.mono (p := [.cal, .reg 0x120002C]) ?_ hq) e
  unfold restoreLedger
  repeat' first
    | with_reducible exact Rest.refl _ _ | with_reducible refine Rest.iteS ?_ ?_ | with_reducible refine calRes_rest (by decide) ?_
    | with_reducible refine World.calCount_rest (by decide) ?_ | with_reducible refine Rest.wr _ _ _ _ (by decide) ?_

theorem State.flxGot_keeps {s : State} {h : Half} {k ty seq ack : Nat} {p : List Byte} :
    Keeps [.evt, .gns, .flx, .reg 0x100018, .reg 0xA00104, .reg 0xA00108, .reg 0xA0010C, .reg 0xA00140, .reg 0xB00018, .reg 0xB0008C] (s.flxGot h k ty seq ack p) s := by
  refine Keeps.lift (Rest.when (Rest.refl _ _) fun u hu => ?_)
  exact World.flxAct_rest (by decide) (World.flxTake_rest (by decide) hu)

/-- The registers of the selects. -/
def selRegs : List Part := [.reg 0x500000, .reg 0x600000, .reg 0x700000, .reg 0x800000, .reg 0x900000, .reg 0xB00000, .reg 0xE00000, .reg 0x1000000]

theorem World.writeSel_rest {q : List Part} {w v' : World} {h : Half} {init blk v : Nat}
    (hq : partsLe (.evt :: .reg 0x100018 :: selRegs) q = true) (e : Rest q w v') : Rest q (w.writeSel h init blk v) v' := by
  refine Rest.trans (Rest.mono (p := .evt :: .reg 0x100018 :: selRegs) ?_ hq) e
  unfold World.writeSel
  split
  · rename_i f hf
    have hr : (partIn (.evt :: .reg 0x100018 :: selRegs) (.reg f.reg) && decide (f.reg < 2 ^ 25)) = true := by
      unfold selField at hf
      split at hf <;> simp only [Option.some.injEq, reduceCtorEq] at hf <;> subst hf <;> decide
    dsimp only
    refine Rest.when (Rest.wr _ _ _ _ hr (Rest.refl _ _)) fun u hu => ?_
    exact Rest.raise _ _ _ (by decide) hu
  · exact Rest.refl _ _

theorem partIn_reg {q : List Part} (hq : q.contains .regs = true) (n : Nat) : partIn q (.reg n) = true := by
  unfold partIn; rw [hq]; simp

theorem Rest.setReg_any {q : List Part} {w v : World} (h : Half) (f : Field) (i : Nat) (x : Word) (hq : q.contains .regs = true)
    (e : Rest q w v) : Rest q (w.setReg h f i x) v := by
  have hr : partIn q .regs = true := by rw [partIn_regs, hq]
  unfold World.setReg
  split
  · exact Rest.set_bregs hr e _
  · exact Rest.set_regs hr e _

theorem State.writeWorld_rest {q : List Part} {s : State} {v' : World} {h : Half} {init : Nat} {p : PWrite}
    (hq : partsLe [.evt, .latch, .regs] q = true) (e : Rest q s.w v') : Rest q (s.writeWorld h init p) v' := by
  refine Rest.trans (Rest.mono (p := [.evt, .latch, .regs]) ?_ hq) e
  have hg : ∀ (g : Gate) (f : World → World), (∀ u, Rest [.evt, .latch, .regs] u s.w → Rest [.evt, .latch, .regs] (f u) s.w) →
      Rest [.evt, .latch, .regs] (gateWrite s h init g f) s.w := by
    intro g f hf
    unfold gateWrite
    split
    · exact hf _ (Rest.refl _ _)
    · exact Rest.gateObj _ _ _ (by decide) (Rest.refl _ _) hf
    · exact Rest.gateAny _ _ _ _ _ (by decide) (Rest.refl _ _) hf
  unfold State.writeWorld
  split
  · exact Rest.refl _ _
  · dsimp only
    split
    · exact Rest.refl _ _
    · unfold State.regWrite
      refine Rest.ite (World.writeSel_rest (by decide) (Rest.refl _ _)) (Rest.ite ?_ (Rest.ite ?_ (Rest.ite ?_ (Rest.ite (Rest.refl _ _) (Rest.ite ?_ ?_)))))
      · unfold World.writeLock
        exact Rest.ite (Rest.setReg_any _ _ _ _ (by decide) (Rest.refl _ _)) (Rest.when (Rest.refl _ _) fun u hu => Rest.violation _ _ _ (by decide) hu)
      · unfold World.writeHold
        exact Rest.when (Rest.when (Rest.refl _ _) fun u hu => Rest.wrBoth _ _ _ (by decide) hu) fun u hu => World.setHoldReq_rest (by decide) hu
      · unfold World.writeVec
        split
        · exact Rest.refl _ _
        · exact Rest.ite (Rest.setReg_any _ _ _ _ (by decide) (Rest.refl _ _)) (Rest.setReg_any _ _ _ _ (by decide) (Rest.refl _ _))
      · exact hg _ _ fun u hu => World.writeSig_rest (by decide) hu
      · refine hg _ _ fun u hu => ?_
        unfold World.plainWrite
        exact Rest.when hu fun u hu => Rest.when (Rest.setReg_any _ _ _ _ (by decide) hu) fun u hu => Rest.setReg_any _ _ _ _ (by decide) hu

end Sys2Proof.Machine
end

