-- ==== Sys2Proof/Laws/FrameDrive.lean ====
section
/-!
SUPPORT. What each command of these units leaves alone.
-/
set_option linter.unreachableTactic false
set_option linter.unusedTactic false

namespace Sys2Proof.Machine

theorem execVlvCommand_keeps {h : Half} {init : Nat} {on : Bool} {s : State} : Keeps [.fresh, .evt, .vlv, .reg 0x100018, .reg 0x300118, .reg 0x500020, .reg 0x500028, .reg 0x500030, .reg 0x500034, .reg 0x50004C] (execVlvCommand h init on s) s := by
  unfold execVlvCommand
  try dsimp only
  repeat' first
    | with_reducible exact Rest.refl _ _ | with_reducible exact Side.refl _ _ | with_reducible assumption
    | with_reducible refine valveWrite_keeps (by decide) ?_ | with_reducible refine Keeps.ite ?_ ?_ | with_reducible refine Rest.iteS ?_ ?_
    | with_reducible refine World.valveCmd_rest (by decide) ?_ | with_reducible refine Rest.ite ?_ ?_ | dsimp only | split | intro _

theorem execVlvSetpointWrite_keeps {h : Half} {init v : Nat} {s : State} : Keeps [.evt, .vlv, .reg 0x100018, .reg 0x300118, .reg 0x500024, .reg 0x500028, .reg 0x50004C] (execVlvSetpointWrite h init v s) s := by
  unfold execVlvSetpointWrite
  try dsimp only
  repeat' first
    | with_reducible exact Rest.refl _ _ | with_reducible exact Side.refl _ _ | with_reducible assumption
    | with_reducible refine valveWrite_keeps (by decide) ?_ | with_reducible refine Keeps.ite ?_ ?_ | with_reducible refine Rest.iteS ?_ ?_
    | with_reducible refine World.valveSetpoint_rest (by decide) ?_ | with_reducible refine Rest.ite ?_ ?_ | dsimp only | split | intro _

theorem execVlvClrFault_keeps {h : Half} {init : Nat} {s : State} : Keeps [.evt, .reg 0x100018, .reg 0x300118, .reg 0x500028] (execVlvClrFault h init s) s := by
  unfold execVlvClrFault
  try dsimp only
  repeat' first
    | with_reducible exact Rest.refl _ _ | with_reducible exact Side.refl _ _ | with_reducible assumption
    | with_reducible refine valveWrite_keeps (by decide) ?_ | with_reducible refine Keeps.ite ?_ ?_
    | with_reducible refine Rest.wr _ _ _ _ (by decide) ?_ | with_reducible refine Rest.when ?_ ?_ | with_reducible refine Rest.iteS ?_ ?_
    | with_reducible refine Rest.ite ?_ ?_ | dsimp only | split | intro _

theorem execVlvKnock_keeps {h : Half} {init : Nat} {s : State} : Keeps [.evt, .vlv, .reg 0x100018, .reg 0x300118, .reg 0x500028] (execVlvKnock h init s) s := by
  unfold execVlvKnock
  try dsimp only
  repeat' first
    | with_reducible exact Rest.refl _ _ | with_reducible exact Side.refl _ _ | with_reducible assumption
    | with_reducible refine valveWrite_keeps (by decide) ?_ | with_reducible refine Keeps.ite ?_ ?_ | with_reducible refine Rest.iteS ?_ ?_
    | with_reducible refine World.knockValve_rest (by decide) ?_ | with_reducible refine Rest.ite ?_ ?_ | dsimp only | split | intro _

theorem execVlvClrCnt_keeps {h : Half} {init : Nat} {s : State} : Keeps [.evt, .reg 0x100018, .reg 0x300118, .reg 0x50004C] (execVlvClrCnt h init s) s := by
  unfold execVlvClrCnt
  try dsimp only
  repeat' first
    | with_reducible exact Rest.refl _ _ | with_reducible exact Side.refl _ _ | with_reducible assumption | with_reducible refine Keeps.putW ?_
    | with_reducible refine Keeps.next ?_ ?_ | with_reducible refine Side.forAll ?_ ?_ | with_reducible refine Side.ite ?_ ?_
    | with_reducible refine Side.set_w ?_ _ | with_reducible refine Keeps.ite ?_ ?_ | with_reducible refine Rest.setReg _ _ _ _ (by decide) ?_
    | with_reducible refine Rest.forAll ?_ ?_ | with_reducible refine Rest.iteS ?_ ?_ | with_reducible refine Rest.gateAny _ _ _ _ _ (by decide) ?_ ?_
    | with_reducible refine Rest.ite ?_ ?_ | dsimp only | split | intro _

theorem execEngineStart_keeps {ch : Nat} {s : State} : Keeps [.evt, .vlv, .reg 0xA4, .reg 0x100018, .reg 0x500028, .reg 0x500044, .reg 0x500048] (execEngineStart ch s) s := by
  unfold execEngineStart
  try dsimp only
  repeat' first
    | with_reducible exact Rest.refl _ _ | with_reducible exact Side.refl _ _ | with_reducible assumption | with_reducible refine Keeps.lift ?_
    | with_reducible refine Keeps.ite ?_ ?_ | with_reducible refine Rest.when ?_ ?_ | with_reducible refine Rest.iteS ?_ ?_
    | with_reducible refine World.engineStart_rest (by decide) ?_ | with_reducible refine World.svcTwinLost_rest (by decide) ?_
    | with_reducible refine Rest.ite ?_ ?_ | dsimp only | split | intro _

theorem execBankAdmission_keeps {bank : Nat} {s : State} : Keeps [.vlv, .reg 0x500028, .reg 0x500044] (execBankAdmission bank s) s := by
  unfold execBankAdmission
  try dsimp only
  repeat' first
    | with_reducible exact Rest.refl _ _ | with_reducible exact Side.refl _ _ | with_reducible assumption | with_reducible refine Keeps.lift ?_
    | with_reducible refine Keeps.ite ?_ ?_ | with_reducible refine Rest.forAll ?_ ?_ | with_reducible refine Rest.iteS ?_ ?_
    | with_reducible refine World.decide_rest (by decide) ?_ | with_reducible refine Rest.ite ?_ ?_ | dsimp only | split | intro _

theorem execBankWaitTimeout_keeps {ch : Nat} {s : State} : Keeps [.evt, .vlv, .reg 0x100018, .reg 0x500028, .reg 0x500044] (execBankWaitTimeout ch s) s := by
  unfold execBankWaitTimeout
  try dsimp only
  repeat' first
    | with_reducible exact Rest.refl _ _ | with_reducible exact Side.refl _ _ | with_reducible assumption | with_reducible refine Keeps.lift ?_
    | with_reducible refine Keeps.ite ?_ ?_ | with_reducible refine Rest.wr _ _ _ _ (by decide) ?_ | with_reducible refine Rest.when ?_ ?_
    | with_reducible refine Rest.iteS ?_ ?_ | with_reducible refine World.advance_rest (by decide) ?_
    | with_reducible refine World.setTgt_rest (by decide) ?_ | with_reducible refine World.updEng_rest (by decide) ?_
    | with_reducible refine World.vlvEvent_rest (by decide) ?_ | with_reducible refine Rest.ite ?_ ?_ | dsimp only | split | intro _

theorem execRecipeBankActivate_keeps {t : Nat} {s : State} : Keeps [.reg 0x500048, .reg 0x500080] (execRecipeBankActivate t s) s := by
  unfold execRecipeBankActivate
  try dsimp only
  repeat' first
    | with_reducible exact Rest.refl _ _ | with_reducible exact Side.refl _ _ | with_reducible assumption | with_reducible refine Keeps.lift ?_
    | with_reducible refine Keeps.ite ?_ ?_ | with_reducible refine Rest.wr _ _ _ _ (by decide) ?_ | with_reducible refine Rest.when ?_ ?_
    | with_reducible refine Rest.iteS ?_ ?_ | with_reducible refine World.showRefs_rest (by decide) ?_ | with_reducible refine Rest.ite ?_ ?_
    | dsimp only | split | intro _

theorem execCoilEstimate_keeps {ch v i : Nat} {s : State} : Keeps [.vlv, .reg 0x500028, .reg 0x50003C] (execCoilEstimate ch v i s) s := by
  unfold execCoilEstimate
  try dsimp only
  repeat' first
    | with_reducible exact Rest.refl _ _ | with_reducible exact Side.refl _ _ | with_reducible assumption | with_reducible refine Keeps.lift ?_
    | with_reducible refine Keeps.ite ?_ ?_ | with_reducible refine Rest.wr _ _ _ _ (by decide) ?_
    | with_reducible refine Rest.wrI _ _ _ _ (by decide) ?_ | with_reducible refine Rest.iteS ?_ ?_
    | with_reducible refine World.updEng_rest (by decide) ?_ | with_reducible refine Rest.ite ?_ ?_ | dsimp only | split | intro _

theorem execDutyEvaluation_keeps {ch i : Nat} {s : State} : Keeps [.evt, .vlv, .reg 0x100018, .reg 0x500028, .reg 0x50002C, .reg 0x500040] (execDutyEvaluation ch i s) s := by
  unfold execDutyEvaluation
  try dsimp only
  repeat' first
    | with_reducible exact Rest.refl _ _ | with_reducible exact Side.refl _ _ | with_reducible assumption | with_reducible refine Keeps.lift ?_
    | with_reducible refine Keeps.ite ?_ ?_ | with_reducible refine Rest.wr _ _ _ _ (by decide) ?_ | with_reducible refine Rest.iteS ?_ ?_
    | with_reducible refine World.updEng_rest (by decide) ?_ | with_reducible refine World.vlvEvent_rest (by decide) ?_
    | with_reducible refine Rest.ite ?_ ?_ | dsimp only | split | intro _

theorem execBoostRailLow_keeps {t v : Nat} {s : State} : Keeps [.evt, .reg 0x100018, .reg 0x500028, .reg 0x500080] (execBoostRailLow t v s) s := by
  unfold execBoostRailLow
  try dsimp only
  repeat' first
    | with_reducible exact Rest.refl _ _ | with_reducible exact Side.refl _ _ | with_reducible assumption | with_reducible refine Keeps.lift ?_
    | with_reducible refine Keeps.ite ?_ ?_ | with_reducible refine Rest.wr _ _ _ _ (by decide) ?_ | with_reducible refine Rest.when ?_ ?_
    | with_reducible refine Rest.forAll ?_ ?_ | with_reducible refine Rest.iteS ?_ ?_ | with_reducible refine World.vlvEvent_rest (by decide) ?_
    | with_reducible refine Rest.ite ?_ ?_ | dsimp only | split | intro _

theorem execBoostRailRecover_keeps {t v : Nat} {s : State} : Keeps [.reg 0x500080] (execBoostRailRecover t v s) s := by
  unfold execBoostRailRecover
  try dsimp only
  repeat' first
    | with_reducible exact Rest.refl _ _ | with_reducible exact Side.refl _ _ | with_reducible assumption | with_reducible refine Keeps.lift ?_
    | with_reducible refine Keeps.ite ?_ ?_ | with_reducible refine Rest.wr _ _ _ _ (by decide) ?_ | with_reducible refine Rest.when ?_ ?_
    | with_reducible refine Rest.whenS ?_ ?_ | with_reducible refine Rest.iteS ?_ ?_ | with_reducible refine Rest.ite ?_ ?_ | dsimp only | split
    | intro _

theorem execTwinPartnerLoss_keeps {ch : Nat} {s : State} : Keeps [.evt, .vlv, .reg 0x100018, .reg 0x500028, .reg 0x50004C] (execTwinPartnerLoss ch s) s := by
  unfold execTwinPartnerLoss
  try dsimp only
  repeat' first
    | with_reducible exact Rest.refl _ _ | with_reducible exact Side.refl _ _ | with_reducible assumption | with_reducible refine Keeps.lift ?_
    | with_reducible refine Keeps.ite ?_ ?_ | with_reducible refine Rest.wr _ _ _ _ (by decide) ?_ | with_reducible refine Rest.when ?_ ?_
    | with_reducible refine Rest.iteS ?_ ?_ | with_reducible refine World.askTgt_rest (by decide) ?_
    | with_reducible refine World.updEng_rest (by decide) ?_ | with_reducible refine World.vlvEvent_rest (by decide) ?_
    | with_reducible refine Rest.ite ?_ ?_ | dsimp only | split | intro _

theorem execTwinPartnerReturn_keeps {ch : Nat} {s : State} : Keeps [.evt, .vlv, .reg 0x100018, .reg 0x500028, .reg 0x500044, .reg 0x500048] (execTwinPartnerReturn ch s) s := by
  unfold execTwinPartnerReturn
  try dsimp only
  repeat' first
    | with_reducible exact Rest.refl _ _ | with_reducible exact Side.refl _ _ | with_reducible assumption | with_reducible refine Keeps.lift ?_
    | with_reducible refine Keeps.ite ?_ ?_ | with_reducible refine Rest.when ?_ ?_ | with_reducible refine Rest.iteS ?_ ?_
    | with_reducible refine World.startEngine_rest (by decide) ?_ | with_reducible refine Rest.ite ?_ ?_ | dsimp only | split | intro _

theorem execTwinScaleMergeEnd_keeps {ch : Nat} {s : State} : Keeps [.evt, .vlv, .reg 0x100018, .reg 0x500028] (execTwinScaleMergeEnd ch s) s := by
  unfold execTwinScaleMergeEnd
  try dsimp only
  repeat' first
    | with_reducible exact Rest.refl _ _ | with_reducible exact Side.refl _ _ | with_reducible assumption | with_reducible refine Keeps.lift ?_
    | with_reducible refine Keeps.ite ?_ ?_ | with_reducible refine Rest.wr _ _ _ _ (by decide) ?_ | with_reducible refine Rest.when ?_ ?_
    | with_reducible refine Rest.forAll ?_ ?_ | with_reducible refine Rest.iteS ?_ ?_ | with_reducible refine World.updEng_rest (by decide) ?_
    | with_reducible refine World.vlvEvent_rest (by decide) ?_ | with_reducible refine Rest.ite ?_ ?_ | dsimp only | split | intro _

theorem execVlvShort_keeps {ch i : Nat} {s : State} : Keeps [.evt, .vlv, .reg 0x100018, .reg 0x500028, .reg 0x50002C] (execVlvShort ch i s) s := by
  unfold execVlvShort
  try dsimp only
  repeat' first
    | with_reducible exact Rest.refl _ _ | with_reducible exact Side.refl _ _ | with_reducible assumption | with_reducible refine Keeps.lift ?_
    | with_reducible refine Keeps.ite ?_ ?_ | with_reducible refine Rest.wr _ _ _ _ (by decide) ?_ | with_reducible refine Rest.when ?_ ?_
    | with_reducible refine Rest.iteS ?_ ?_ | with_reducible refine World.vlvFault_rest (by decide) ?_ | with_reducible refine Rest.ite ?_ ?_
    | dsimp only | split | intro _

theorem execVlvOpenLoad_keeps {ch i : Nat} {s : State} : Keeps [.evt, .vlv, .reg 0x100018, .reg 0x500028, .reg 0x50002C] (execVlvOpenLoad ch i s) s := by
  unfold execVlvOpenLoad
  try dsimp only
  repeat' first
    | with_reducible exact Rest.refl _ _ | with_reducible exact Side.refl _ _ | with_reducible assumption | with_reducible refine Keeps.lift ?_
    | with_reducible refine Keeps.ite ?_ ?_ | with_reducible refine Rest.wr _ _ _ _ (by decide) ?_ | with_reducible refine Rest.when ?_ ?_
    | with_reducible refine Rest.iteS ?_ ?_ | with_reducible refine World.vlvFault_rest (by decide) ?_ | with_reducible refine Rest.ite ?_ ?_
    | dsimp only | split | intro _

theorem execVlvOvertemp_keeps {t : Nat} {temp : Int} {s : State} : Keeps [.evt, .vlv, .reg 0x100018, .reg 0x500028, .reg 0x500080] (execVlvOvertemp t temp s) s := by
  unfold execVlvOvertemp
  try dsimp only
  repeat' first
    | with_reducible exact Rest.refl _ _ | with_reducible exact Side.refl _ _ | with_reducible assumption | with_reducible refine Keeps.lift ?_
    | with_reducible refine Keeps.ite ?_ ?_ | with_reducible refine Rest.wrI _ _ _ _ (by decide) ?_ | with_reducible refine Rest.when ?_ ?_
    | with_reducible refine Rest.forAll ?_ ?_ | with_reducible refine Rest.iteS ?_ ?_ | with_reducible refine World.vlvEvent_rest (by decide) ?_
    | with_reducible refine World.vlvFault_rest (by decide) ?_ | with_reducible refine Rest.ite ?_ ?_ | dsimp only | split | intro _

theorem execVlvHsShort_keeps {bank i : Nat} {s : State} : Keeps [.evt, .vlv, .reg 0x100018, .reg 0x500028] (execVlvHsShort bank i s) s := by
  unfold execVlvHsShort
  try dsimp only
  repeat' first
    | with_reducible exact Rest.refl _ _ | with_reducible exact Side.refl _ _ | with_reducible assumption | with_reducible refine Keeps.lift ?_
    | with_reducible refine Keeps.ite ?_ ?_ | with_reducible refine Rest.when ?_ ?_ | with_reducible refine Rest.forAll ?_ ?_
    | with_reducible refine Rest.iteS ?_ ?_ | with_reducible refine World.vlvFault_rest (by decide) ?_ | with_reducible refine Rest.ite ?_ ?_
    | dsimp only | split | intro _

theorem execTileAbsent_keeps {t : Nat} {s : State} : Keeps [.evt, .vlv, .reg 0xA4, .reg 0x100018, .reg 0x500028, .reg 0x500080] (execTileAbsent t s) s := by
  unfold execTileAbsent
  try dsimp only
  repeat' first
    | with_reducible exact Rest.refl _ _ | with_reducible exact Side.refl _ _ | with_reducible assumption | with_reducible refine Keeps.lift ?_
    | with_reducible refine Keeps.ite ?_ ?_ | with_reducible refine Rest.wr _ _ _ _ (by decide) ?_ | with_reducible refine Rest.when ?_ ?_
    | with_reducible refine Rest.forAll ?_ ?_ | with_reducible refine Rest.iteS ?_ ?_ | with_reducible refine World.svcState_rest (by decide) ?_
    | with_reducible refine World.updTile_rest (by decide) ?_ | with_reducible refine World.vlvEvent_rest (by decide) ?_
    | with_reducible refine World.vlvFault_rest (by decide) ?_ | with_reducible refine Rest.ite ?_ ?_ | dsimp only | split | intro _

theorem execVlvProbe_keeps {ch : Nat} {continuity : Bool} {s : State} : Keeps [.evt, .vlv, .reg 0x100018, .reg 0x500028] (execVlvProbe ch continuity s) s := by
  unfold execVlvProbe
  try dsimp only
  repeat' first
    | with_reducible exact Rest.refl _ _ | with_reducible exact Side.refl _ _ | with_reducible assumption | with_reducible refine Keeps.lift ?_
    | with_reducible refine Keeps.ite ?_ ?_ | with_reducible refine Rest.when ?_ ?_ | with_reducible refine Rest.iteS ?_ ?_
    | with_reducible refine World.updEng_rest (by decide) ?_ | with_reducible refine World.vlvFault_rest (by decide) ?_
    | with_reducible refine Rest.ite ?_ ?_ | dsimp only | split | intro _

theorem execTwinDivergenceTimeout_keeps {h : Half} {k : Nat} {s : State} : Keeps [.evt, .uin, .reg 0x100018, .reg 0x700020, .reg 0x700024, .reg 0x700044, .reg 0x701000, .reg 0x701004] (execTwinDivergenceTimeout h k s) s := by
  unfold execTwinDivergenceTimeout
  try dsimp only
  repeat' first
    | with_reducible exact Rest.refl _ _ | with_reducible exact Side.refl _ _ | with_reducible assumption | with_reducible refine Keeps.lift ?_
    | with_reducible refine Keeps.ite ?_ ?_ | with_reducible refine Rest.iteS ?_ ?_ | with_reducible refine World.twinTime_rest (by decide) ?_
    | with_reducible refine Rest.ite ?_ ?_ | dsimp only | split | intro _

theorem execTwinAgreementTimeout_keeps {h : Half} {k : Nat} {s : State} : Keeps [.evt, .uin, .reg 0x100018, .reg 0x700020, .reg 0x700024, .reg 0x700044, .reg 0x701000, .reg 0x701004] (execTwinAgreementTimeout h k s) s := by
  unfold execTwinAgreementTimeout
  try dsimp only
  repeat' first
    | with_reducible exact Rest.refl _ _ | with_reducible exact Side.refl _ _ | with_reducible assumption | with_reducible refine Keeps.lift ?_
    | with_reducible refine Keeps.ite ?_ ?_ | with_reducible refine Rest.iteS ?_ ?_ | with_reducible refine World.twinTime_rest (by decide) ?_
    | with_reducible refine Rest.ite ?_ ?_ | dsimp only | split | intro _

theorem execInputSample_keeps {codes vs : List Nat} {s : State} : Keeps [.evt, .uin, .reg 0x100018, .reg 0x700020, .reg 0x700024, .reg 0x700028, .reg 0x70002C, .reg 0x700030, .reg 0x700034, .reg 0x700044, .reg 0x701000, .reg 0x701004] (execInputSample codes vs s) s := by
  unfold execInputSample
  try dsimp only
  repeat' first
    | with_reducible exact Rest.refl _ _ | with_reducible exact Side.refl _ _ | with_reducible assumption | with_reducible refine Keeps.lift ?_
    | with_reducible refine Keeps.ite ?_ ?_ | with_reducible refine Rest.wr _ _ _ _ (by decide) ?_ | with_reducible refine Rest.forAll ?_ ?_
    | with_reducible refine Rest.foldl ?_ ?_ | with_reducible refine Rest.iteS ?_ ?_ | with_reducible refine World.compareOf_rest (by decide) ?_
    | with_reducible refine World.publish_rest (by decide) ?_ | with_reducible refine World.sampleInput_rest (by decide) ?_
    | with_reducible refine Rest.ite ?_ ?_ | dsimp only | split | intro _

theorem execInputEdge_keeps {n : Nat} {level both : Bool} {s : State} : Keeps [.evt, .uin, .reg 0x100018, .reg 0x700038, .reg 0x700044] (execInputEdge n level both s) s := by
  unfold execInputEdge
  try dsimp only
  repeat' first
    | with_reducible exact Rest.refl _ _ | with_reducible exact Side.refl _ _ | with_reducible assumption | with_reducible refine Keeps.lift ?_
    | with_reducible refine Keeps.ite ?_ ?_ | with_reducible refine Rest.iteS ?_ ?_ | with_reducible refine World.quadCount_rest (by decide) ?_
    | with_reducible refine World.quadError_rest (by decide) ?_ | with_reducible refine World.updBind_rest (by decide) ?_
    | with_reducible refine World.updComp_rest (by decide) ?_ | with_reducible refine Rest.ite ?_ ?_ | dsimp only | split | intro _

theorem execQualityConditionTimer_keeps {h : Half} {b q reason : Nat} {on : Bool} {s : State} : Keeps [.evt, .uin, .reg 0x100018, .reg 0x700020, .reg 0x700024, .reg 0x700044, .reg 0x701000, .reg 0x701004] (execQualityConditionTimer h b q reason on s) s := by
  unfold execQualityConditionTimer
  try dsimp only
  repeat' first
    | with_reducible exact Rest.refl _ _ | with_reducible exact Side.refl _ _ | with_reducible assumption | with_reducible refine Keeps.lift ?_
    | with_reducible refine Keeps.ite ?_ ?_ | with_reducible refine Rest.iteS ?_ ?_ | with_reducible refine World.bindUpdated_rest (by decide) ?_
    | with_reducible refine World.updBind_rest (by decide) ?_ | with_reducible refine Rest.ite ?_ ?_ | dsimp only | split | intro _

theorem execStuckTimeout_keeps {h : Half} {b : Nat} {s : State} : Keeps [.evt, .uin, .reg 0x100018, .reg 0x700020, .reg 0x700024, .reg 0x700044, .reg 0x701000, .reg 0x701004] (execStuckTimeout h b s) s := by
  unfold execStuckTimeout
  try dsimp only
  repeat' first
    | with_reducible exact Rest.refl _ _ | with_reducible exact Side.refl _ _ | with_reducible assumption | with_reducible refine Keeps.lift ?_
    | with_reducible refine Keeps.ite ?_ ?_ | with_reducible refine Rest.when ?_ ?_ | with_reducible refine Rest.iteS ?_ ?_
    | with_reducible refine World.bindUpdated_rest (by decide) ?_ | with_reducible refine World.updBind_rest (by decide) ?_
    | with_reducible refine Rest.ite ?_ ?_ | dsimp only | split | intro _

theorem execUinKnock_keeps {h : Half} {init : Nat} {s : State} : Keeps [.evt, .uin, .reg 0x100018, .reg 0x300118, .reg 0x700020, .reg 0x700024, .reg 0x700044, .reg 0x701000, .reg 0x701004] (execUinKnock h init s) s := by
  unfold execUinKnock
  try dsimp only
  repeat' first
    | with_reducible exact Rest.refl _ _ | with_reducible exact Side.refl _ _ | with_reducible assumption | with_reducible refine Keeps.putW ?_
    | with_reducible refine inputWrite_keeps (by decide) ?_ | with_reducible refine Keeps.ite ?_ ?_ | with_reducible refine Rest.iteS ?_ ?_
    | with_reducible refine World.knockInput_rest (by decide) ?_ | with_reducible refine Rest.ite ?_ ?_ | dsimp only | split | intro _

theorem execUinPreset_keeps {h : Half} {init : Nat} {s : State} : Keeps [.evt, .reg 0x100018, .reg 0x300118, .reg 0x700038] (execUinPreset h init s) s := by
  unfold execUinPreset
  try dsimp only
  repeat' first
    | with_reducible exact Rest.refl _ _ | with_reducible exact Side.refl _ _ | with_reducible assumption | with_reducible refine Keeps.putW ?_
    | with_reducible refine inputWrite_keeps (by decide) ?_ | with_reducible refine Keeps.ite ?_ ?_
    | with_reducible refine Rest.wr _ _ _ _ (by decide) ?_ | with_reducible refine Rest.iteS ?_ ?_ | with_reducible refine Rest.ite ?_ ?_ | dsimp only
    | split | intro _

theorem execUinClrCnt_keeps {h : Half} {init : Nat} {s : State} : Keeps [.evt, .reg 0x100018, .reg 0x300118, .reg 0x700044] (execUinClrCnt h init s) s := by
  unfold execUinClrCnt
  try dsimp only
  repeat' first
    | with_reducible exact Rest.refl _ _ | with_reducible exact Side.refl _ _ | with_reducible assumption | with_reducible refine Keeps.putW ?_
    | with_reducible refine Keeps.ite ?_ ?_ | with_reducible refine Rest.setReg _ _ _ _ (by decide) ?_ | with_reducible refine Rest.forAll ?_ ?_
    | with_reducible refine Rest.iteS ?_ ?_ | with_reducible refine Rest.gateAny _ _ _ _ _ (by decide) ?_ ?_ | with_reducible refine Rest.ite ?_ ?_
    | dsimp only | split | intro _

theorem execSupplyLimitTrip_keeps {n i : Nat} {s : State} : Keeps [.evt, .uin, .reg 0x100018, .reg 0x700020, .reg 0x700024, .reg 0x700044, .reg 0x700080, .reg 0x701000, .reg 0x701004] (execSupplyLimitTrip n i s) s := by
  unfold execSupplyLimitTrip
  try dsimp only
  repeat' first
    | with_reducible exact Rest.refl _ _ | with_reducible exact Side.refl _ _ | with_reducible assumption | with_reducible refine Keeps.lift ?_
    | with_reducible refine Keeps.ite ?_ ?_ | with_reducible refine Rest.wr _ _ _ _ (by decide) ?_
    | with_reducible refine Rest.raiseBoth _ _ (by decide) ?_ | with_reducible refine Rest.when ?_ ?_ | with_reducible refine Rest.iteS ?_ ?_
    | with_reducible refine World.supplyFault_rest (by decide) ?_ | with_reducible refine World.updSupply_rest (by decide) ?_
    | with_reducible refine Rest.ite ?_ ?_ | dsimp only | split | intro _

theorem execSupplyRetry_keeps {n : Nat} {limited : Bool} {s : State} : Keeps [.evt, .uin, .reg 0x100018, .reg 0x700080] (execSupplyRetry n limited s) s := by
  unfold execSupplyRetry
  try dsimp only
  repeat' first
    | with_reducible exact Rest.refl _ _ | with_reducible exact Side.refl _ _ | with_reducible assumption | with_reducible refine Keeps.lift ?_
    | with_reducible refine Keeps.ite ?_ ?_ | with_reducible refine Rest.wr _ _ _ _ (by decide) ?_
    | with_reducible refine Rest.raiseBoth _ _ (by decide) ?_ | with_reducible refine Rest.when ?_ ?_ | with_reducible refine Rest.iteS ?_ ?_
    | with_reducible refine World.updSupply_rest (by decide) ?_ | with_reducible refine Rest.ite ?_ ?_ | dsimp only | split | intro _

theorem execSupplyEnable_keeps {h : Half} {init : Nat} {en : Bool} {s : State} : Keeps [.evt, .uin, .reg 0x100018, .reg 0x300118, .reg 0x700080] (execSupplyEnable h init en s) s := by
  unfold execSupplyEnable
  try dsimp only
  repeat' first
    | with_reducible exact Rest.refl _ _ | with_reducible exact Side.refl _ _ | with_reducible assumption | with_reducible refine Keeps.putW ?_
    | with_reducible refine Keeps.ite ?_ ?_ | with_reducible refine Rest.wr _ _ _ _ (by decide) ?_
    | with_reducible refine Rest.raiseBoth _ _ (by decide) ?_ | with_reducible refine Rest.when ?_ ?_ | with_reducible refine Rest.iteS ?_ ?_
    | with_reducible refine World.updSupply_rest (by decide) ?_ | with_reducible refine Rest.gateObj _ _ _ (by decide) ?_ ?_
    | with_reducible refine Rest.ite ?_ ?_ | dsimp only | split | intro _

theorem execExternalBindingWrite_keeps {h : Half} {b v : Nat} {s : State} : Keeps [.evt, .uin, .reg 0x100018, .reg 0x700020, .reg 0x700024, .reg 0x70002C, .reg 0x700030, .reg 0x700044, .reg 0x701000, .reg 0x701004] (execExternalBindingWrite h b v s) s := by
  unfold execExternalBindingWrite
  try dsimp only
  repeat' first
    | with_reducible exact Rest.refl _ _ | with_reducible exact Side.refl _ _ | with_reducible assumption | with_reducible refine Keeps.lift ?_
    | with_reducible refine Keeps.ite ?_ ?_ | with_reducible refine Rest.iteS ?_ ?_ | with_reducible refine World.externalWrite_rest (by decide) ?_
    | with_reducible refine Rest.ite ?_ ?_ | dsimp only | split | intro _

theorem execLossHit_keeps {k peak r z stamp : Nat} {s : State} : Keeps [.uin, .reg 0x800020, .reg 0x800028] (execLossHit k peak r z stamp s) s := by
  unfold execLossHit
  refine Keeps.lift ?_
  beta_reduce
  split
  · exact World.updElem_rest (by decide) (Rest.refl _ _)
  · extract_lets sk pk c start r5 sc g w1 x1 w2
    have h1 : Rest [.uin, .reg 0x800020, .reg 0x800028] w1 s.w := World.updElem_rest (by decide) (Rest.refl _ _)
    have h2 : Rest [.uin, .reg 0x800020, .reg 0x800028] w2 s.w := Rest.set_uin (by decide) h1 _
    clear_value w1 w2
    split
    · exact Rest.refl _ _
    · exact Rest.wr _ _ _ _ (by decide) (Rest.wr _ _ _ _ (by decide) (Rest.wr _ _ _ _ (by decide) (Rest.wr _ _ _ _ (by decide) (Rest.wr _ _ _ _ (by decide) h2))))

theorem execLossWindow_keeps {s : State} : Keeps [.evt, .uin, .reg 0x100018, .reg 0x700020, .reg 0x700024, .reg 0x700044, .reg 0x701000, .reg 0x701004, .reg 0x800020, .reg 0x800024, .reg 0x800080, .reg 0x800084, .reg 0x800088, .reg 0x80008C] (execLossWindow s) s := by
  unfold execLossWindow
  try dsimp only
  repeat' first
    | with_reducible exact Rest.refl _ _ | with_reducible exact Side.refl _ _ | with_reducible assumption | with_reducible refine Keeps.lift ?_
    | with_reducible refine Keeps.ite ?_ ?_ | with_reducible refine Rest.wr _ _ _ _ (by decide) ?_
    | with_reducible refine Rest.raiseBoth _ _ (by decide) ?_ | with_reducible refine Rest.when ?_ ?_ | with_reducible refine Rest.forAll ?_ ?_
    | with_reducible refine Rest.foldl ?_ ?_ | with_reducible refine Rest.iteS ?_ ?_ | with_reducible refine World.losBinding_rest (by decide) ?_
    | with_reducible refine World.losOutcomes_rest (by decide) ?_ | with_reducible refine Rest.ite ?_ ?_
    | with_reducible refine Rest.set_uin (by decide) ?_ _ | dsimp only | split | intro _

theorem execLossBiasCheck_keeps {k : Nat} {pass : Bool} {s : State} : Keeps [.evt, .uin, .reg 0x100018, .reg 0x800020] (execLossBiasCheck k pass s) s := by
  unfold execLossBiasCheck
  try dsimp only
  repeat' first
    | with_reducible exact Rest.refl _ _ | with_reducible exact Side.refl _ _ | with_reducible assumption | with_reducible refine Keeps.lift ?_
    | with_reducible refine Keeps.ite ?_ ?_ | with_reducible refine Rest.wr _ _ _ _ (by decide) ?_
    | with_reducible refine Rest.raiseBoth _ _ (by decide) ?_ | with_reducible refine Rest.when ?_ ?_ | with_reducible refine Rest.iteS ?_ ?_
    | with_reducible refine World.updElem_rest (by decide) ?_ | with_reducible refine Rest.ite ?_ ?_ | dsimp only | split | intro _

theorem execLossSilentTimeout_keeps {k : Nat} {s : State} : Keeps [.evt, .uin, .reg 0x100018, .reg 0x800020] (execLossSilentTimeout k s) s := by
  unfold execLossSilentTimeout
  try dsimp only
  repeat' first
    | with_reducible exact Rest.refl _ _ | with_reducible exact Side.refl _ _ | with_reducible assumption | with_reducible refine Keeps.lift ?_
    | with_reducible refine Keeps.ite ?_ ?_ | with_reducible refine Rest.wr _ _ _ _ (by decide) ?_
    | with_reducible refine Rest.raiseBoth _ _ (by decide) ?_ | with_reducible refine Rest.when ?_ ?_ | with_reducible refine Rest.iteS ?_ ?_
    | with_reducible refine World.updElem_rest (by decide) ?_ | with_reducible refine Rest.ite ?_ ?_ | dsimp only | split | intro _

theorem execLosClsWrite_keeps {h : Half} {init v : Nat} {s : State} : Keeps [.evt, .reg 0x100018, .reg 0x300118, .reg 0x800010] (execLosClsWrite h init v s) s := by
  unfold execLosClsWrite
  try dsimp only
  repeat' first
    | with_reducible exact Rest.refl _ _ | with_reducible exact Side.refl _ _ | with_reducible assumption | with_reducible refine Keeps.putW ?_
    | with_reducible refine Keeps.ite ?_ ?_ | with_reducible refine Rest.wr _ _ _ _ (by decide) ?_ | with_reducible refine Rest.iteS ?_ ?_
    | with_reducible refine Rest.gateAny _ _ _ _ _ (by decide) ?_ ?_ | with_reducible refine Rest.ite ?_ ?_ | dsimp only | split | intro _

theorem execLosClrCnt_keeps {h : Half} {init : Nat} {s : State} : Keeps [.evt, .reg 0x100018, .reg 0x300118, .reg 0x80008C] (execLosClrCnt h init s) s := by
  unfold execLosClrCnt
  try dsimp only
  repeat' first
    | with_reducible exact Rest.refl _ _ | with_reducible exact Side.refl _ _ | with_reducible assumption | with_reducible refine Keeps.putW ?_
    | with_reducible refine Keeps.ite ?_ ?_ | with_reducible refine Rest.wr _ _ _ _ (by decide) ?_ | with_reducible refine Rest.iteS ?_ ?_
    | with_reducible refine Rest.gateAny _ _ _ _ _ (by decide) ?_ ?_ | with_reducible refine Rest.ite ?_ ?_ | dsimp only | split | intro _

theorem execHalt_keeps {ch : Nat} {s : State} : Keeps [.vlv, .reg 0x500028] (execHalt ch s) s := by
  unfold execHalt
  try dsimp only
  repeat' first
    | with_reducible exact Rest.refl _ _ | with_reducible exact Side.refl _ _ | with_reducible assumption | with_reducible refine Keeps.lift ?_
    | with_reducible refine Keeps.ite ?_ ?_ | with_reducible refine Rest.instr ?_ ?_ | with_reducible refine Rest.when ?_ ?_
    | with_reducible refine Rest.iteS ?_ ?_ | with_reducible refine World.stopEngine_rest (by decide) ?_
    | with_reducible refine World.turnOff_rest (by decide) ?_ | with_reducible refine Rest.ite ?_ ?_ | dsimp only | split | intro _

theorem execPhase_keeps {ch : Nat} {s : State} : Keeps [.vlv, .reg 0x500028, .reg 0x500044] (execPhase ch s) s := by
  unfold execPhase
  try dsimp only
  repeat' first
    | with_reducible exact Rest.refl _ _ | with_reducible exact Side.refl _ _ | with_reducible assumption | with_reducible refine Keeps.lift ?_
    | with_reducible refine Keeps.ite ?_ ?_ | with_reducible refine Rest.wr _ _ _ _ (by decide) ?_ | with_reducible refine Rest.instr ?_ ?_
    | with_reducible refine Rest.when ?_ ?_ | with_reducible refine Rest.iteS ?_ ?_ | with_reducible refine World.advance_rest (by decide) ?_
    | with_reducible refine World.beginMerge_rest (by decide) ?_ | with_reducible refine World.updEng_rest (by decide) ?_
    | with_reducible refine Rest.ite ?_ ?_ | dsimp only | split | intro _

theorem execSrc_keeps {ch : Nat} {s : State} : Keeps [.vlv, .reg 0x500028, .reg 0x500044, .reg 0x50004C] (execSrc ch s) s := by
  unfold execSrc
  try dsimp only
  repeat' first
    | with_reducible exact Rest.refl _ _ | with_reducible exact Side.refl _ _ | with_reducible assumption | with_reducible refine Keeps.lift ?_
    | with_reducible refine Keeps.ite ?_ ?_ | with_reducible refine Rest.wr _ _ _ _ (by decide) ?_
    | with_reducible refine Rest.bump _ _ _ (by decide) ?_ | with_reducible refine Rest.instr ?_ ?_ | with_reducible refine Rest.iteS ?_ ?_
    | with_reducible refine World.admitSrc_rest (by decide) ?_ | with_reducible refine World.advance_rest (by decide) ?_
    | with_reducible refine World.turnOff_rest (by decide) ?_ | with_reducible refine World.updEng_rest (by decide) ?_
    | with_reducible refine Rest.ite ?_ ?_ | dsimp only | split | intro _

theorem execSeti_keeps {ch : Nat} {s : State} : Keeps [.vlv, .reg 0x500028, .reg 0x500044, .reg 0x50004C] (execSeti ch s) s := by
  unfold execSeti
  try dsimp only
  repeat' first
    | with_reducible exact Rest.refl _ _ | with_reducible exact Side.refl _ _ | with_reducible assumption | with_reducible refine Keeps.lift ?_
    | with_reducible refine Keeps.ite ?_ ?_ | with_reducible refine Rest.instr ?_ ?_ | with_reducible refine Rest.iteS ?_ ?_
    | with_reducible refine World.seti_rest (by decide) ?_ | with_reducible refine Rest.ite ?_ ?_ | dsimp only | split | intro _

theorem execRamp_keeps {ch : Nat} {s : State} : Keeps [.vlv, .reg 0x500028, .reg 0x500044, .reg 0x50004C] (execRamp ch s) s := by
  unfold execRamp
  try dsimp only
  repeat' first
    | with_reducible exact Rest.refl _ _ | with_reducible exact Side.refl _ _ | with_reducible assumption | with_reducible refine Keeps.lift ?_
    | with_reducible refine Keeps.ite ?_ ?_ | with_reducible refine Rest.instr ?_ ?_ | with_reducible refine Rest.iteS ?_ ?_
    | with_reducible refine World.flagSp_rest (by decide) ?_ | with_reducible refine World.instrTgt_rest (by decide) ?_
    | with_reducible refine World.seti_rest (by decide) ?_ | with_reducible refine World.updEng_rest (by decide) ?_
    | with_reducible refine Rest.ite ?_ ?_ | dsimp only | split | intro _

theorem execWait_keeps {ch : Nat} {s : State} : Keeps [.vlv] (execWait ch s) s := by
  unfold execWait
  try dsimp only
  repeat' first
    | with_reducible exact Rest.refl _ _ | with_reducible exact Side.refl _ _ | with_reducible assumption | with_reducible refine Keeps.lift ?_
    | with_reducible refine Keeps.ite ?_ ?_ | with_reducible refine Rest.instr ?_ ?_ | with_reducible refine Rest.iteS ?_ ?_
    | with_reducible refine World.updEng_rest (by decide) ?_ | with_reducible refine Rest.ite ?_ ?_ | dsimp only | split | intro _

theorem execWaitEnd_keeps {ch : Nat} {s : State} : Keeps [.vlv, .reg 0x500044] (execWaitEnd ch s) s := by
  unfold execWaitEnd
  try dsimp only
  repeat' first
    | with_reducible exact Rest.refl _ _ | with_reducible exact Side.refl _ _ | with_reducible assumption | with_reducible refine Keeps.lift ?_
    | with_reducible refine Keeps.ite ?_ ?_ | with_reducible refine Rest.when ?_ ?_ | with_reducible refine Rest.iteS ?_ ?_
    | with_reducible refine World.advance_rest (by decide) ?_ | with_reducible refine World.updEng_rest (by decide) ?_
    | with_reducible refine Rest.ite ?_ ?_ | dsimp only | split | intro _

theorem execWaiti_keeps {ch : Nat} {s : State} : Keeps [.vlv] (execWaiti ch s) s := by
  unfold execWaiti
  try dsimp only
  repeat' first
    | with_reducible exact Rest.refl _ _ | with_reducible exact Side.refl _ _ | with_reducible assumption | with_reducible refine Keeps.lift ?_
    | with_reducible refine Keeps.ite ?_ ?_ | with_reducible refine Rest.instr ?_ ?_ | with_reducible refine Rest.iteS ?_ ?_
    | with_reducible refine World.updEng_rest (by decide) ?_ | with_reducible refine Rest.ite ?_ ?_ | dsimp only | split | intro _

theorem execWaitiEnd_keeps {ch i : Nat} {s : State} : Keeps [.vlv, .reg 0x50002C, .reg 0x500044] (execWaitiEnd ch i s) s := by
  unfold execWaitiEnd
  try dsimp only
  repeat' first
    | with_reducible exact Rest.refl _ _ | with_reducible exact Side.refl _ _ | with_reducible assumption | with_reducible refine Keeps.lift ?_
    | with_reducible refine Keeps.ite ?_ ?_ | with_reducible refine Rest.wr _ _ _ _ (by decide) ?_ | with_reducible refine Rest.when ?_ ?_
    | with_reducible refine Rest.iteS ?_ ?_ | with_reducible refine World.advance_rest (by decide) ?_
    | with_reducible refine World.updEng_rest (by decide) ?_ | with_reducible refine Rest.ite ?_ ?_ | dsimp only | split | intro _

theorem execWaitk_keeps {ch : Nat} {s : State} : Keeps [.vlv] (execWaitk ch s) s := by
  unfold execWaitk
  try dsimp only
  repeat' first
    | with_reducible exact Rest.refl _ _ | with_reducible exact Side.refl _ _ | with_reducible assumption | with_reducible refine Keeps.lift ?_
    | with_reducible refine Keeps.ite ?_ ?_ | with_reducible refine Rest.instr ?_ ?_ | with_reducible refine Rest.iteS ?_ ?_
    | with_reducible refine World.updEng_rest (by decide) ?_ | with_reducible refine Rest.ite ?_ ?_ | dsimp only | split | intro _

theorem execPullKinkConfirm_keeps {ch k : Nat} {s : State} : Keeps [.evt, .vlv, .reg 0x100018, .reg 0x500030, .reg 0x500034, .reg 0x500044, .reg 0x50004C] (execPullKinkConfirm ch k s) s := by
  unfold execPullKinkConfirm
  try dsimp only
  repeat' first
    | with_reducible exact Rest.refl _ _ | with_reducible exact Side.refl _ _ | with_reducible assumption | with_reducible refine Keeps.lift ?_
    | with_reducible refine Keeps.ite ?_ ?_ | with_reducible refine Rest.iteS ?_ ?_ | with_reducible refine World.kinkFound_rest (by decide) ?_
    | with_reducible refine Rest.ite ?_ ?_ | dsimp only | split | intro _

theorem execCloseKinkDetect_keeps {ch k : Nat} {s : State} : Keeps [.evt, .vlv, .reg 0x100018, .reg 0x500030, .reg 0x500034, .reg 0x500044, .reg 0x50004C] (execCloseKinkDetect ch k s) s := by
  unfold execCloseKinkDetect
  try dsimp only
  repeat' first
    | with_reducible exact Rest.refl _ _ | with_reducible exact Side.refl _ _ | with_reducible assumption | with_reducible refine Keeps.lift ?_
    | with_reducible refine Keeps.ite ?_ ?_ | with_reducible refine Rest.iteS ?_ ?_ | with_reducible refine World.kinkFound_rest (by decide) ?_
    | with_reducible refine Rest.ite ?_ ?_ | dsimp only | split | intro _

theorem execKinkWindowClose_keeps {ch : Nat} {s : State} : Keeps [.evt, .vlv, .reg 0x100018, .reg 0x500030, .reg 0x500034, .reg 0x500044, .reg 0x50004C] (execKinkWindowClose ch s) s := by
  unfold execKinkWindowClose
  try dsimp only
  repeat' first
    | with_reducible exact Rest.refl _ _ | with_reducible exact Side.refl _ _ | with_reducible assumption | with_reducible refine Keeps.lift ?_
    | with_reducible refine Keeps.ite ?_ ?_ | with_reducible refine Rest.when ?_ ?_ | with_reducible refine Rest.whenS ?_ ?_
    | with_reducible refine Rest.iteS ?_ ?_ | with_reducible refine World.advance_rest (by decide) ?_
    | with_reducible refine World.travelReport_rest (by decide) ?_ | with_reducible refine World.updEng_rest (by decide) ?_
    | with_reducible refine Rest.ite ?_ ?_ | dsimp only | split | intro _

theorem execDith_keeps {ch : Nat} {s : State} : Keeps [.vlv, .reg 0x500028, .reg 0x500044, .reg 0x50004C] (execDith ch s) s := by
  unfold execDith
  try dsimp only
  repeat' first
    | with_reducible exact Rest.refl _ _ | with_reducible exact Side.refl _ _ | with_reducible assumption | with_reducible refine Keeps.lift ?_
    | with_reducible refine Keeps.ite ?_ ?_ | with_reducible refine Rest.instr ?_ ?_ | with_reducible refine Rest.iteS ?_ ?_
    | with_reducible refine World.instrTgt_rest (by decide) ?_ | with_reducible refine World.updEng_rest (by decide) ?_
    | with_reducible refine Rest.ite ?_ ?_ | dsimp only | split | intro _

theorem execPwmv_keeps {ch : Nat} {s : State} : Keeps [.vlv, .reg 0x500044] (execPwmv ch s) s := by
  unfold execPwmv
  try dsimp only
  repeat' first
    | with_reducible exact Rest.refl _ _ | with_reducible exact Side.refl _ _ | with_reducible assumption | with_reducible refine Keeps.lift ?_
    | with_reducible refine Keeps.ite ?_ ?_ | with_reducible refine Rest.instr ?_ ?_ | with_reducible refine Rest.iteS ?_ ?_
    | with_reducible refine World.advance_rest (by decide) ?_ | with_reducible refine World.updEng_rest (by decide) ?_
    | with_reducible refine Rest.ite ?_ ?_ | dsimp only | split | intro _

theorem execJmp_keeps {ch : Nat} {s : State} : Keeps [.reg 0x500044] (execJmp ch s) s := by
  unfold execJmp
  try dsimp only
  repeat' first
    | with_reducible exact Rest.refl _ _ | with_reducible exact Side.refl _ _ | with_reducible assumption | with_reducible refine Keeps.lift ?_
    | with_reducible refine Keeps.ite ?_ ?_ | with_reducible refine Rest.instr ?_ ?_ | with_reducible refine Rest.iteS ?_ ?_
    | with_reducible refine World.jump_rest (by decide) ?_ | with_reducible refine Rest.ite ?_ ?_ | dsimp only | split | intro _

theorem execJc_keeps {ch : Nat} {s : State} : Keeps [.vlv, .reg 0x500044] (execJc ch s) s := by
  unfold execJc
  try dsimp only
  repeat' first
    | with_reducible exact Rest.refl _ _ | with_reducible exact Side.refl _ _ | with_reducible assumption | with_reducible refine Keeps.lift ?_
    | with_reducible refine Keeps.ite ?_ ?_ | with_reducible refine Rest.instr ?_ ?_ | with_reducible refine Rest.iteS ?_ ?_
    | with_reducible refine World.advance_rest (by decide) ?_ | with_reducible refine World.jump_rest (by decide) ?_
    | with_reducible refine Rest.ite ?_ ?_ | dsimp only | split | intro _

theorem execLoop_keeps {ch : Nat} {s : State} : Keeps [.vlv, .reg 0x500044] (execLoop ch s) s := by
  unfold execLoop
  try dsimp only
  repeat' first
    | with_reducible exact Rest.refl _ _ | with_reducible exact Side.refl _ _ | with_reducible assumption | with_reducible refine Keeps.lift ?_
    | with_reducible refine Keeps.ite ?_ ?_ | with_reducible refine Rest.instr ?_ ?_ | with_reducible refine Rest.iteS ?_ ?_
    | with_reducible refine World.advance_rest (by decide) ?_ | with_reducible refine World.jump_rest (by decide) ?_
    | with_reducible refine World.updEng_rest (by decide) ?_ | with_reducible refine Rest.ite ?_ ?_ | dsimp only | split | intro _

theorem execEvt_keeps {ch : Nat} {s : State} : Keeps [.evt, .vlv, .reg 0x100018, .reg 0x500044] (execEvt ch s) s := by
  unfold execEvt
  try dsimp only
  repeat' first
    | with_reducible exact Rest.refl _ _ | with_reducible exact Side.refl _ _ | with_reducible assumption | with_reducible refine Keeps.lift ?_
    | with_reducible refine Keeps.ite ?_ ?_ | with_reducible refine Rest.wr _ _ _ _ (by decide) ?_ | with_reducible refine Rest.instr ?_ ?_
    | with_reducible refine Rest.iteS ?_ ?_ | with_reducible refine World.advance_rest (by decide) ?_
    | with_reducible refine World.vlvEvent_rest (by decide) ?_ | with_reducible refine Rest.ite ?_ ?_ | dsimp only | split | intro _

theorem execOff_keeps {ch : Nat} {s : State} : Keeps [.vlv, .reg 0x500028, .reg 0x500044] (execOff ch s) s := by
  unfold execOff
  try dsimp only
  repeat' first
    | with_reducible exact Rest.refl _ _ | with_reducible exact Side.refl _ _ | with_reducible assumption | with_reducible refine Keeps.lift ?_
    | with_reducible refine Keeps.ite ?_ ?_ | with_reducible refine Rest.instr ?_ ?_ | with_reducible refine Rest.iteS ?_ ?_
    | with_reducible refine World.advance_rest (by decide) ?_ | with_reducible refine World.turnOff_rest (by decide) ?_
    | with_reducible refine World.updEng_rest (by decide) ?_ | with_reducible refine Rest.ite ?_ ?_ | dsimp only | split | intro _

theorem execLdp_keeps {ch i : Nat} {v : Int} {s : State} : Keeps [.vlv, .reg 0x500044] (execLdp ch i v s) s := by
  unfold execLdp
  try dsimp only
  repeat' first
    | with_reducible exact Rest.refl _ _ | with_reducible exact Side.refl _ _ | with_reducible assumption | with_reducible refine Keeps.lift ?_
    | with_reducible refine Keeps.ite ?_ ?_ | with_reducible refine Rest.instr ?_ ?_ | with_reducible refine Rest.iteS ?_ ?_
    | with_reducible refine World.advance_rest (by decide) ?_ | with_reducible refine World.updEng_rest (by decide) ?_
    | with_reducible refine Rest.ite ?_ ?_ | dsimp only | split | intro _

theorem execMeas_keeps {ch i : Nat} {v : Int} {s : State} : Keeps [.vlv, .reg 0x50002C, .reg 0x500038, .reg 0x500044] (execMeas ch i v s) s := by
  unfold execMeas
  try dsimp only
  repeat' first
    | with_reducible exact Rest.refl _ _ | with_reducible exact Side.refl _ _ | with_reducible assumption | with_reducible refine Keeps.lift ?_
    | with_reducible refine Keeps.ite ?_ ?_ | with_reducible refine Rest.wr _ _ _ _ (by decide) ?_
    | with_reducible refine Rest.wrI _ _ _ _ (by decide) ?_ | with_reducible refine Rest.instr ?_ ?_ | with_reducible refine Rest.iteS ?_ ?_
    | with_reducible refine World.advance_rest (by decide) ?_ | with_reducible refine Rest.ite ?_ ?_ | dsimp only | split | intro _

theorem execRecipeIllegal_keeps {ch : Nat} {parity : Bool} {s : State} : Keeps [.evt, .vlv, .reg 0x100018, .reg 0x500028] (execRecipeIllegal ch parity s) s := by
  unfold execRecipeIllegal
  try dsimp only
  repeat' first
    | with_reducible exact Rest.refl _ _ | with_reducible exact Side.refl _ _ | with_reducible assumption | with_reducible refine Keeps.lift ?_
    | with_reducible refine Keeps.ite ?_ ?_ | with_reducible refine Rest.when ?_ ?_ | with_reducible refine Rest.iteS ?_ ?_
    | with_reducible refine World.vlvFault_rest (by decide) ?_ | with_reducible refine Rest.ite ?_ ?_ | dsimp only | split | intro _

end Sys2Proof.Machine
end

