-- ==== Sys2Proof/Laws/FrameFn.lean ====
section
/-!
SUPPORT. What each command of these units leaves alone.
-/
set_option linter.unreachableTactic false
set_option linter.unusedTactic false

namespace Sys2Proof.Machine

theorem execInterlockRelease_keeps {h : Half} {n i : Nat} {s : State} : Keeps [.set] (execInterlockRelease h n i s) s := by
  unfold execInterlockRelease
  try dsimp only
  repeat' first
    | with_reducible exact Rest.refl _ _ | with_reducible exact Side.refl _ _ | with_reducible assumption | with_reducible refine Keeps.lift ?_
    | with_reducible refine Keeps.ite ?_ ?_ | with_reducible refine Rest.when ?_ ?_ | with_reducible refine Rest.iteS ?_ ?_
    | with_reducible refine World.updFn_rest (by decide) ?_ | with_reducible refine Rest.ite ?_ ?_ | dsimp only | split | intro _

theorem execPairReleaseTimeout_keeps {h : Half} {n : Nat} {s : State} : Keeps [.set] (execPairReleaseTimeout h n s) s := by
  unfold execPairReleaseTimeout
  try dsimp only
  repeat' first
    | with_reducible exact Rest.refl _ _ | with_reducible exact Side.refl _ _ | with_reducible assumption | with_reducible refine Keeps.lift ?_
    | with_reducible refine Keeps.ite ?_ ?_ | with_reducible refine Rest.when ?_ ?_ | with_reducible refine Rest.iteS ?_ ?_
    | with_reducible refine World.updFn_rest (by decide) ?_ | with_reducible refine Rest.ite ?_ ?_ | dsimp only | split | intro _

theorem execSeqStepTimeout_keeps {h : Half} {n : Nat} {s : State} : Keeps [.evt, .set, .reg 0x100018, .reg 0x400200] (execSeqStepTimeout h n s) s := by
  unfold execSeqStepTimeout
  try dsimp only
  repeat' first
    | with_reducible exact Rest.refl _ _ | with_reducible exact Side.refl _ _ | with_reducible assumption | with_reducible refine Keeps.lift ?_
    | with_reducible refine Keeps.next ?_ ?_ | with_reducible refine Side.when ?_ ?_ | with_reducible refine Side.ite ?_ ?_
    | with_reducible refine Side.set_w ?_ _ | with_reducible refine Keeps.ite ?_ ?_ | with_reducible refine Rest.wr _ _ _ _ (by decide) ?_
    | with_reducible refine Rest.raise _ _ _ (by decide) ?_ | with_reducible refine Rest.when ?_ ?_ | with_reducible refine Rest.iteS ?_ ?_
    | with_reducible refine World.updFn_rest (by decide) ?_ | with_reducible refine Rest.ite ?_ ?_ | dsimp only | split | intro _

theorem execMfSeqStart_keeps {h : Half} {init n : Nat} {s : State} : Keeps [.set] (execMfSeqStart h init n s) s := by
  unfold execMfSeqStart
  try dsimp only
  repeat' first
    | with_reducible exact Rest.refl _ _ | with_reducible exact Side.refl _ _ | with_reducible assumption | with_reducible refine Keeps.lift ?_
    | with_reducible refine Keeps.ite ?_ ?_ | with_reducible refine Rest.when ?_ ?_ | with_reducible refine Rest.iteS ?_ ?_
    | with_reducible refine World.updFn_rest (by decide) ?_ | with_reducible refine Rest.ite ?_ ?_ | dsimp only | split | intro _

theorem execMfSeqStep_keeps {h : Half} {init n : Nat} {s : State} : Keeps [.set] (execMfSeqStep h init n s) s := by
  unfold execMfSeqStep
  try dsimp only
  repeat' first
    | with_reducible exact Rest.refl _ _ | with_reducible exact Side.refl _ _ | with_reducible assumption | with_reducible refine Keeps.lift ?_
    | with_reducible refine Keeps.ite ?_ ?_ | with_reducible refine Rest.when ?_ ?_ | with_reducible refine Rest.iteS ?_ ?_
    | with_reducible refine World.updFn_rest (by decide) ?_ | with_reducible refine Rest.ite ?_ ?_ | dsimp only | split | intro _

theorem execMfSeqAbort_keeps {h : Half} {init n : Nat} {s : State} : Keeps [.set] (execMfSeqAbort h init n s) s := by
  unfold execMfSeqAbort
  try dsimp only
  repeat' first
    | with_reducible exact Rest.refl _ _ | with_reducible exact Side.refl _ _ | with_reducible assumption | with_reducible refine Keeps.lift ?_
    | with_reducible refine Keeps.ite ?_ ?_ | with_reducible refine Rest.when ?_ ?_ | with_reducible refine Rest.iteS ?_ ?_
    | with_reducible refine World.updFn_rest (by decide) ?_ | with_reducible refine Rest.ite ?_ ?_ | dsimp only | split | intro _

theorem execMfManual_keeps {h : Half} {init n : Nat} {on : Bool} {s : State} : Keeps [.reg 0x400400] (execMfManual h init n on s) s := by
  unfold execMfManual
  try dsimp only
  repeat' first
    | with_reducible exact Rest.refl _ _ | with_reducible exact Side.refl _ _ | with_reducible assumption | with_reducible refine Keeps.lift ?_
    | with_reducible refine Keeps.ite ?_ ?_ | with_reducible refine Rest.wr _ _ _ _ (by decide) ?_ | with_reducible refine Rest.when ?_ ?_
    | with_reducible refine Rest.iteS ?_ ?_ | with_reducible refine Rest.ite ?_ ?_ | dsimp only | split | intro _

theorem execLineLoad_keeps {h : Half} {init k : Nat} {s : State} : Keeps [.set, .reg 0x400068] (execLineLoad h init k s) s := by
  unfold execLineLoad
  try dsimp only
  repeat' first
    | with_reducible exact Rest.refl _ _ | with_reducible exact Side.refl _ _ | with_reducible assumption | with_reducible refine Keeps.lift ?_
    | with_reducible refine Keeps.ite ?_ ?_ | with_reducible refine Rest.wr _ _ _ _ (by decide) ?_ | with_reducible refine Rest.when ?_ ?_
    | with_reducible refine Rest.iteS ?_ ?_ | with_reducible refine World.updSet_rest (by decide) ?_ | with_reducible refine Rest.ite ?_ ?_
    | dsimp only | split | intro _

theorem execLineLoadComplete_keeps {h : Half} {s : State} : Keeps [.set, .reg 0x400068] (execLineLoadComplete h s) s := by
  unfold execLineLoadComplete
  try dsimp only
  repeat' first
    | with_reducible exact Rest.refl _ _ | with_reducible exact Side.refl _ _ | with_reducible assumption | with_reducible refine Keeps.lift ?_
    | with_reducible refine Keeps.ite ?_ ?_ | with_reducible refine Rest.wr _ _ _ _ (by decide) ?_ | with_reducible refine Rest.when ?_ ?_
    | with_reducible refine Rest.iteS ?_ ?_ | with_reducible refine World.updSet_rest (by decide) ?_ | with_reducible refine Rest.ite ?_ ?_
    | dsimp only | split | intro _

theorem execLineClear_keeps {h : Half} {init k : Nat} {s : State} : Keeps [.set, .reg 0x400068] (execLineClear h init k s) s := by
  unfold execLineClear
  try dsimp only
  repeat' first
    | with_reducible exact Rest.refl _ _ | with_reducible exact Side.refl _ _ | with_reducible assumption | with_reducible refine Keeps.lift ?_
    | with_reducible refine Keeps.ite ?_ ?_ | with_reducible refine Rest.wr _ _ _ _ (by decide) ?_ | with_reducible refine Rest.when ?_ ?_
    | with_reducible refine Rest.iteS ?_ ?_ | with_reducible refine World.updSet_rest (by decide) ?_ | with_reducible refine Rest.ite ?_ ?_
    | dsimp only | split | intro _

theorem execSteerAck_keeps {h : Half} {init : Nat} {s : State} : Keeps [.set, .lsw, .reg 0x400044, .reg 0x600020, .reg 0x600024, .reg 0x900030, .reg 0x900800] (execSteerAck h init s) s := by
  unfold execSteerAck
  try dsimp only
  repeat' first
    | with_reducible exact Rest.refl _ _ | with_reducible exact Side.refl _ _ | with_reducible assumption | with_reducible refine Keeps.lift ?_
    | with_reducible refine Keeps.ite ?_ ?_ | with_reducible refine Rest.iteS ?_ ?_ | with_reducible refine World.alertEnd_rest (by decide) ?_
    | with_reducible refine World.updSteer_rest (by decide) ?_ | with_reducible refine Rest.ite ?_ ?_ | dsimp only | split | intro _

theorem execAlertMinExpiry_keeps {h : Half} {s : State} : Keeps [.set, .lsw, .reg 0x400044, .reg 0x600020, .reg 0x600024, .reg 0x900030, .reg 0x900800] (execAlertMinExpiry h s) s := by
  unfold execAlertMinExpiry
  try dsimp only
  repeat' first
    | with_reducible exact Rest.refl _ _ | with_reducible exact Side.refl _ _ | with_reducible assumption | with_reducible refine Keeps.lift ?_
    | with_reducible refine Keeps.ite ?_ ?_ | with_reducible refine Rest.when ?_ ?_ | with_reducible refine Rest.iteS ?_ ?_
    | with_reducible refine World.alertEnd_rest (by decide) ?_ | with_reducible refine World.updSteer_rest (by decide) ?_
    | with_reducible refine Rest.ite ?_ ?_ | dsimp only | split | intro _

theorem execSteerDisengage_keeps {h : Half} {init : Nat} {s : State} : Keeps [.fresh, .evt, .set, .vlv, .lsw, .reg 0x100018, .reg 0x400044, .reg 0x500020, .reg 0x500024, .reg 0x500028, .reg 0x500030, .reg 0x500034, .reg 0x50004C, .reg 0x600020, .reg 0x600024, .reg 0x900030, .reg 0x900800] (execSteerDisengage h init s) s := by
  unfold execSteerDisengage
  try dsimp only
  repeat' first
    | with_reducible exact Rest.refl _ _ | with_reducible exact Side.refl _ _ | with_reducible assumption | with_reducible refine Keeps.lift ?_
    | with_reducible refine Keeps.ite ?_ ?_ | with_reducible refine Rest.iteS ?_ ?_ | with_reducible refine World.steerRelease_rest (by decide) ?_
    | with_reducible refine Rest.ite ?_ ?_ | dsimp only | split | intro _

theorem execSteerReleaseTimeout_keeps {h : Half} {s : State} : Keeps [.fresh, .evt, .set, .vlv, .lsw, .reg 0x100018, .reg 0x400044, .reg 0x500020, .reg 0x500024, .reg 0x500028, .reg 0x500030, .reg 0x500034, .reg 0x50004C, .reg 0x600020, .reg 0x600024, .reg 0x900030, .reg 0x900800] (execSteerReleaseTimeout h s) s := by
  unfold execSteerReleaseTimeout
  try dsimp only
  repeat' first
    | with_reducible exact Rest.refl _ _ | with_reducible exact Side.refl _ _ | with_reducible assumption | with_reducible refine Keeps.lift ?_
    | with_reducible refine Keeps.ite ?_ ?_ | with_reducible refine Rest.iteS ?_ ?_ | with_reducible refine World.steerRelease_rest (by decide) ?_
    | with_reducible refine Rest.ite ?_ ?_ | dsimp only | split | intro _

theorem execSteerPassSelect_keeps {h : Half} {init v : Nat} {s : State} : Keeps [.reg 0x400040, .reg 0x400044] (execSteerPassSelect h init v s) s := by
  unfold execSteerPassSelect
  try dsimp only
  repeat' first
    | with_reducible exact Rest.refl _ _ | with_reducible exact Side.refl _ _ | with_reducible assumption | with_reducible refine Keeps.lift ?_
    | with_reducible refine Keeps.ite ?_ ?_ | with_reducible refine Rest.wr _ _ _ _ (by decide) ?_ | with_reducible refine Rest.when ?_ ?_
    | with_reducible refine Rest.iteS ?_ ?_ | with_reducible refine Rest.ite ?_ ?_ | dsimp only | split | intro _

theorem execSteerEngage_keeps {h : Half} {init : Nat} {s : State} : Keeps [.set, .reg 0x400040, .reg 0x400044] (execSteerEngage h init s) s := by
  unfold execSteerEngage
  try dsimp only
  repeat' first
    | with_reducible exact Rest.refl _ _ | with_reducible exact Side.refl _ _ | with_reducible assumption | with_reducible refine Keeps.lift ?_
    | with_reducible refine Keeps.ite ?_ ?_ | with_reducible refine Rest.wr _ _ _ _ (by decide) ?_ | with_reducible refine Rest.when ?_ ?_
    | with_reducible refine Rest.iteS ?_ ?_ | with_reducible refine World.updSteer_rest (by decide) ?_ | with_reducible refine Rest.ite ?_ ?_
    | dsimp only | split | intro _

/-- What the cycle touches. -/
abbrev cycleParts : List Part := [.fresh, .evt, .set, .vlv, .lsw, .can, .pwr, .dsp, .reg 0x100018, .reg 0x400020, .reg 0x400024, .reg 0x400028, .reg 0x400044, .reg 0x400048, .reg 0x40004C, .reg 0x400050, .reg 0x400200, .reg 0x400380, .reg 0x500020, .reg 0x500024, .reg 0x500028, .reg 0x500030, .reg 0x500034, .reg 0x50004C, .reg 0x600020, .reg 0x600024, .reg 0x600030, .reg 0x700080, .reg 0x900030, .reg 0x900044, .reg 0x900800, .reg 0xF00018, .reg 0x1000020, .reg 0x1000044]

theorem execExecutorCycle_keeps {h : Half} {rate spread : Nat} {late : List Nat} {s : State} : Keeps cycleParts (execExecutorCycle h rate spread late s) s := by
  unfold execExecutorCycle
  refine Keeps.lift (Rest.when (Rest.refl _ _) fun u hu => ?_)
  extract_lets k l w1 w2 missed w3
  have h1 : Rest cycleParts w1 s.w := Rest.forAll hu fun u a hu =>
    Rest.ite (World.updSet_rest (by decide) hu) (Rest.ite hu (World.fnCycle_rest (by decide) hu))
  clear_value w1
  have h2 : Rest cycleParts w2 s.w := Rest.wr _ _ _ _ (by unfold jitterField; split <;> decide) h1
  clear_value w2
  have h3 : Rest cycleParts w3 s.w := Rest.when h2 fun u hu => World.updSet_rest (by decide) (World.noteGuards_rest (by decide) hu)
  clear_value w3
  exact World.setStatus_rest (by decide) h3

theorem execCycleOverrun_keeps {h : Half} {n : Nat} {s : State} : Keeps [.evt, .set, .reg 0x100018, .reg 0x400020, .reg 0x400200] (execCycleOverrun h n s) s := by
  unfold execCycleOverrun
  try dsimp only
  repeat' first
    | with_reducible exact Rest.refl _ _ | with_reducible exact Side.refl _ _ | with_reducible assumption | with_reducible refine Keeps.lift ?_
    | with_reducible refine Keeps.ite ?_ ?_ | with_reducible refine Rest.bump _ _ _ (by decide) ?_
    | with_reducible refine Rest.raise _ _ _ (by decide) ?_ | with_reducible refine Rest.when ?_ ?_ | with_reducible refine Rest.iteS ?_ ?_
    | with_reducible refine World.setStatus_rest (by decide) ?_ | with_reducible refine World.updFn_rest (by decide) ?_
    | with_reducible refine Rest.ite ?_ ?_ | dsimp only | split | intro _

theorem execConflictHoldExpiry_keeps {h : Half} {n : Nat} {s : State} : Keeps [.fresh, .evt, .set, .vlv, .lsw, .reg 0x100018, .reg 0x400044, .reg 0x400200, .reg 0x500020, .reg 0x500024, .reg 0x500028, .reg 0x500030, .reg 0x500034, .reg 0x50004C, .reg 0x600020, .reg 0x600024, .reg 0x900030, .reg 0x900800] (execConflictHoldExpiry h n s) s := by
  unfold execConflictHoldExpiry
  try dsimp only
  repeat' first
    | with_reducible exact Rest.refl _ _ | with_reducible exact Side.refl _ _ | with_reducible assumption | with_reducible refine Keeps.lift ?_
    | with_reducible refine Keeps.ite ?_ ?_ | with_reducible refine Rest.wr _ _ _ _ (by decide) ?_ | with_reducible refine Rest.when ?_ ?_
    | with_reducible refine Rest.iteS ?_ ?_ | with_reducible refine World.steerRelease_rest (by decide) ?_
    | with_reducible refine World.updFn_rest (by decide) ?_ | with_reducible refine Rest.ite ?_ ?_ | dsimp only | split | intro _

theorem execSetClrCnt_keeps {h : Half} {init : Nat} {s : State} : Keeps [.reg 0x400024, .reg 0x400028, .reg 0x400200] (execSetClrCnt h init s) s := by
  exact Keeps.lift (Rest.forAll (Rest.forAll (Rest.refl _ _) fun u a hu => Rest.wr _ _ _ _ (by decide) hu) fun u a hu =>
    Rest.wr _ _ _ _ (by unfold jitterField; split <;> decide) hu)

theorem execSetStateRequest_keeps {h : Half} {init dst : Nat} {s : State} : Keeps [.evt, .set, .reg 0x100018, .reg 0x300010, .reg 0x400018, .reg 0x900020, .reg 0x900030, .reg 0x900044] (execSetStateRequest h init dst s) s := by
  unfold execSetStateRequest
  try dsimp only
  repeat' first
    | with_reducible exact Rest.refl _ _ | with_reducible exact Side.refl _ _ | with_reducible assumption | with_reducible refine Keeps.lift ?_
    | with_reducible refine Keeps.ite ?_ ?_ | with_reducible refine Rest.wr _ _ _ _ (by decide) ?_
    | with_reducible refine Rest.raise _ _ _ (by decide) ?_ | with_reducible refine Rest.when ?_ ?_ | with_reducible refine Rest.iteS ?_ ?_
    | with_reducible refine World.transit_rest (by decide) ?_ | with_reducible refine Rest.ite ?_ ?_ | dsimp only | split | intro _

theorem execAutoTransition_keeps {h : Half} {i : Nat} {s : State} : Keeps [.evt, .set, .reg 0x100018, .reg 0x300010, .reg 0x400018, .reg 0x900020, .reg 0x900030, .reg 0x900044] (execAutoTransition h i s) s := by
  unfold execAutoTransition
  try dsimp only
  repeat' first
    | with_reducible exact Rest.refl _ _ | with_reducible exact Side.refl _ _ | with_reducible assumption | with_reducible refine Keeps.lift ?_
    | with_reducible refine Keeps.ite ?_ ?_ | with_reducible refine Rest.when ?_ ?_ | with_reducible refine Rest.iteS ?_ ?_
    | with_reducible refine World.transit_rest (by decide) ?_ | with_reducible refine Rest.ite ?_ ?_ | dsimp only | split | intro _

theorem execOptModeWrite_keeps {h : Half} {init v : Nat} {s : State} : Keeps [.reg 0x400500] (execOptModeWrite h init v s) s := by
  unfold execOptModeWrite
  try dsimp only
  repeat' first
    | with_reducible exact Rest.refl _ _ | with_reducible exact Side.refl _ _ | with_reducible assumption | with_reducible refine Keeps.lift ?_
    | with_reducible refine Keeps.ite ?_ ?_ | with_reducible refine Rest.wr _ _ _ _ (by decide) ?_ | with_reducible refine Rest.when ?_ ?_
    | with_reducible refine Rest.iteS ?_ ?_ | with_reducible refine Rest.ite ?_ ?_ | dsimp only | split | intro _

theorem execOptProfileWrite_keeps {h : Half} {init v : Nat} {s : State} : Keeps [.opt, .reg 0x400500, .reg 0x400504, .reg 0x40051C] (execOptProfileWrite h init v s) s := by
  unfold execOptProfileWrite
  try dsimp only
  repeat' first
    | with_reducible exact Rest.refl _ _ | with_reducible exact Side.refl _ _ | with_reducible assumption | with_reducible refine Keeps.lift ?_
    | with_reducible refine Keeps.ite ?_ ?_ | with_reducible refine Rest.wr _ _ _ _ (by decide) ?_ | with_reducible refine Rest.when ?_ ?_
    | with_reducible refine Rest.iteS ?_ ?_ | with_reducible refine World.optReset_rest (by decide) ?_
    | with_reducible refine World.optStart_rest (by decide) ?_ | with_reducible refine Rest.ite ?_ ?_ | dsimp only | split | intro _

theorem execOptResetModel_keeps {h : Half} {init : Nat} {s : State} : Keeps [.opt, .reg 0x400504, .reg 0x40051C] (execOptResetModel h init s) s := by
  unfold execOptResetModel
  try dsimp only
  repeat' first
    | with_reducible exact Rest.refl _ _ | with_reducible exact Side.refl _ _ | with_reducible assumption | with_reducible refine Keeps.lift ?_
    | with_reducible refine Keeps.ite ?_ ?_ | with_reducible refine Rest.when ?_ ?_ | with_reducible refine Rest.iteS ?_ ?_
    | with_reducible refine World.optReset_rest (by decide) ?_ | with_reducible refine Rest.ite ?_ ?_ | dsimp only | split | intro _

theorem execOptTargetWrite_keeps {h : Half} {init which v : Nat} {s : State} : Keeps [.reg 0x400504, .reg 0x400508, .reg 0x40050C, .reg 0x400510, .reg 0x400514, .reg 0x400518] (execOptTargetWrite h init which v s) s := by
  refine Keeps.lift (Rest.ite ?_ (Rest.when (Rest.refl _ _) fun u hu => ?_))
  · exact Rest.wr _ _ _ _ (by decide) (Rest.wr _ _ _ _ (by decide) (Rest.refl _ _))
  · exact Rest.wr _ _ _ _ (by decide) (Rest.wr _ _ _ _ (by unfold tgtField; split <;> decide) hu)

theorem execLookaheadUpdate_keeps {h : Half} {s : State} : Keeps [.fresh, .opt, .reg 0x400504, .reg 0x40051C, .reg 0x400580, .reg 0x4005C0] (execLookaheadUpdate h s) s := by
  unfold execLookaheadUpdate
  try dsimp only
  repeat' first
    | with_reducible exact Rest.refl _ _ | with_reducible exact Side.refl _ _ | with_reducible assumption | with_reducible refine Keeps.lift ?_
    | with_reducible refine Keeps.ite ?_ ?_ | with_reducible refine Rest.wr _ _ _ _ (by decide) ?_
    | with_reducible refine Rest.wrI _ _ _ _ (by decide) ?_ | with_reducible refine Rest.when ?_ ?_ | with_reducible refine Rest.forAll ?_ ?_
    | with_reducible refine Rest.iteS ?_ ?_ | with_reducible refine World.optCorr_rest (by decide) ?_
    | with_reducible refine World.updOpt_rest (by decide) ?_ | with_reducible refine Rest.ite ?_ ?_ | with_reducible refine Rest.free (by decide) ?_
    | dsimp only | split | intro _

theorem execDitherStep_keeps {h : Half} {i : Nat} {s : State} : Keeps [.opt] (execDitherStep h i s) s := by
  unfold execDitherStep
  try dsimp only
  repeat' first
    | with_reducible exact Rest.refl _ _ | with_reducible exact Side.refl _ _ | with_reducible assumption | with_reducible refine Keeps.lift ?_
    | with_reducible refine Keeps.ite ?_ ?_ | with_reducible refine Rest.when ?_ ?_ | with_reducible refine Rest.iteS ?_ ?_
    | with_reducible refine World.updOpt_rest (by decide) ?_ | with_reducible refine Rest.ite ?_ ?_ | dsimp only | split | intro _

theorem execOptSolve_keeps {h : Half} {sol : OptSol} {s : State} : Keeps [.fresh, .evt, .opt, .reg 0x100018, .reg 0x400280, .reg 0x400504, .reg 0x40051C, .reg 0x400540] (execOptSolve h sol s) s := by
  unfold execOptSolve
  try dsimp only
  repeat' first
    | with_reducible exact Rest.refl _ _ | with_reducible exact Side.refl _ _ | with_reducible assumption | with_reducible refine Keeps.lift ?_
    | with_reducible refine Keeps.ite ?_ ?_ | with_reducible refine Rest.iteS ?_ ?_ | with_reducible refine World.ditherSet_rest (by decide) ?_
    | with_reducible refine World.optFallback_rest (by decide) ?_ | with_reducible refine World.optFeasible_rest (by decide) ?_
    | with_reducible refine World.optLearn_rest (by decide) ?_ | with_reducible refine World.optMode_rest (by decide) ?_
    | with_reducible refine World.optResult_rest (by decide) ?_ | with_reducible refine World.updOpt_rest (by decide) ?_
    | with_reducible refine Rest.ite ?_ ?_ | with_reducible refine Rest.free (by decide) ?_ | dsimp only | split | intro _

end Sys2Proof.Machine
end

