-- ==== Sys2Proof/Laws/FrameLife.lean ====
section
/-!
SUPPORT. What each command of these units leaves alone.
-/
set_option linter.unreachableTactic false
set_option linter.unusedTactic false

namespace Sys2Proof.Machine

theorem execLogicInValid_keeps {v : Nat} {s : State} : Keeps [.latch, .regs] (execLogicInValid v s) s := by
  unfold execLogicInValid
  try dsimp only
  repeat' first
    | with_reducible exact Rest.refl _ _ | with_reducible exact Side.refl _ _ | with_reducible assumption | with_reducible refine Keeps.lift ?_
    | with_reducible refine Keeps.ite ?_ ?_ | with_reducible refine Rest.wr _ _ _ _ (by decide) ?_
    | with_reducible refine Rest.wrBoth _ _ _ (by decide) ?_ | with_reducible refine Rest.when ?_ ?_ | with_reducible refine Rest.iteS ?_ ?_
    | with_reducible refine World.init_rest (by decide) ?_ | with_reducible refine World.latchEval_rest (by decide) ?_
    | with_reducible refine Rest.ite ?_ ?_ | with_reducible refine Rest.set_latch (by decide) ?_ _ | dsimp only | split | intro _

theorem execKeyInOn_keeps {s : State} : Keeps [.own, .shut, .set, .latch, .regs] (execKeyInOn s) s := by
  unfold execKeyInOn
  try dsimp only
  repeat' first
    | with_reducible exact Rest.refl _ _ | with_reducible exact Side.refl _ _ | with_reducible assumption | with_reducible refine Keeps.next ?_ ?_
    | with_reducible refine Side.onW ?_ | with_reducible refine Side.when ?_ ?_ | with_reducible refine State.cancelShutdown_side (by decide) ?_
    | with_reducible refine Side.ite ?_ ?_ | with_reducible refine Side.set_w ?_ _ | with_reducible refine Keeps.ite ?_ ?_
    | with_reducible refine Rest.wrBoth _ _ _ (by decide) ?_ | with_reducible refine Rest.when ?_ ?_ | with_reducible refine Rest.onW ?_ ?_
    | with_reducible refine Rest.whenS ?_ ?_ | with_reducible refine Rest.iteS ?_ ?_ | with_reducible refine State.cancelShutdown_rest (by decide) ?_
    | with_reducible refine World.latchEval_rest (by decide) ?_ | with_reducible refine World.updLatch_rest (by decide) ?_
    | with_reducible refine Rest.ite ?_ ?_ | dsimp only | split | intro _

theorem execKeyInOff_keeps {s : State} : Keeps [.latch, .reg 0x88] (execKeyInOff s) s := by
  unfold execKeyInOff
  try dsimp only
  repeat' first
    | with_reducible exact Rest.refl _ _ | with_reducible exact Side.refl _ _ | with_reducible assumption | with_reducible refine Keeps.lift ?_
    | with_reducible refine Keeps.ite ?_ ?_ | with_reducible refine Rest.wrBoth _ _ _ (by decide) ?_ | with_reducible refine Rest.when ?_ ?_
    | with_reducible refine Rest.iteS ?_ ?_ | with_reducible refine World.latchEval_rest (by decide) ?_
    | with_reducible refine World.updLatch_rest (by decide) ?_ | with_reducible refine Rest.ite ?_ ?_ | dsimp only | split | intro _

theorem execPwrHoldStartupExpiry_keeps {s : State} : Keeps [.latch, .reg 0x88] (execPwrHoldStartupExpiry s) s := by
  unfold execPwrHoldStartupExpiry
  try dsimp only
  repeat' first
    | with_reducible exact Rest.refl _ _ | with_reducible exact Side.refl _ _ | with_reducible assumption | with_reducible refine Keeps.lift ?_
    | with_reducible refine Keeps.ite ?_ ?_ | with_reducible refine Rest.when ?_ ?_ | with_reducible refine Rest.iteS ?_ ?_
    | with_reducible refine World.latchEval_rest (by decide) ?_ | with_reducible refine World.updLatch_rest (by decide) ?_
    | with_reducible refine Rest.ite ?_ ?_ | dsimp only | split | intro _

theorem execPwrHoldForcedRelease_keeps {s : State} : Keeps [.latch, .reg 0x88] (execPwrHoldForcedRelease s) s := by
  unfold execPwrHoldForcedRelease
  try dsimp only
  repeat' first
    | with_reducible exact Rest.refl _ _ | with_reducible exact Side.refl _ _ | with_reducible assumption | with_reducible refine Keeps.lift ?_
    | with_reducible refine Keeps.ite ?_ ?_ | with_reducible refine Rest.wrBoth _ _ _ (by decide) ?_ | with_reducible refine Rest.when ?_ ?_
    | with_reducible refine Rest.iteS ?_ ?_ | with_reducible refine World.latchEval_rest (by decide) ?_
    | with_reducible refine World.updLatch_rest (by decide) ?_ | with_reducible refine Rest.ite ?_ ?_ | dsimp only | split | intro _

theorem execBackplanePowerOn_keeps {t1 t0 : Bool} {tiles : Nat} {s : State} : Keeps [.own, .ledger, .run, .evt, .act, .shut, .svc, .vlv, .lsw, .uin, .cal, .dram, .keeper, .can, .pwr, .dsp, .latch, .regs] (execBackplanePowerOn t1 t0 tiles s) s := by
  unfold execBackplanePowerOn
  try dsimp only
  repeat' first
    | with_reducible exact Rest.refl _ _ | with_reducible exact Side.refl _ _ | with_reducible assumption | with_reducible refine Keeps.next ?_ ?_
    | with_reducible refine Side.onW ?_ | with_reducible refine Rest.onW ?_ ?_ | with_reducible refine State.replayJournal_side (by decide) ?_ | with_reducible refine State.replayJournal_rest (by decide) ?_ | with_reducible refine Rest.wr _ _ _ _ (by decide) ?_
    | with_reducible refine Side.when ?_ ?_ | with_reducible refine State.backplaneOn_side (by decide) ?_ | with_reducible refine Side.ite ?_ ?_
    | with_reducible refine Side.set_w ?_ _ | with_reducible refine Keeps.ite ?_ ?_ | with_reducible refine Rest.when ?_ ?_
    | with_reducible refine Rest.whenS ?_ ?_ | with_reducible refine Rest.iteS ?_ ?_ | with_reducible refine State.backplaneOn_rest (by decide) ?_
    | with_reducible refine Rest.ite ?_ ?_ | dsimp only | split | intro _

theorem execHalfResetRelease_keeps {h : Half} {s : State} : Keeps [.own, .bus, .fresh, .run, .evt, .xng, .shut, .frame, .tim, .set, .opt, .uin, .yld, .pose, .grd, .trk, .gns, .flx, .upd, .latch, .regs] (execHalfResetRelease h s) s := by
  unfold execHalfResetRelease
  try dsimp only
  repeat' first
    | with_reducible exact Rest.refl _ _ | with_reducible exact Side.refl _ _ | with_reducible assumption | with_reducible refine Keeps.next ?_ ?_
    | with_reducible refine Side.when ?_ ?_ | with_reducible refine State.letRun_side (by decide) ?_ | with_reducible refine Side.ite ?_ ?_
    | with_reducible refine Side.set_w ?_ _ | with_reducible refine Keeps.ite ?_ ?_ | with_reducible refine Rest.when ?_ ?_
    | with_reducible refine Rest.whenS ?_ ?_ | with_reducible refine Rest.iteS ?_ ?_ | with_reducible refine State.letRun_rest (by decide) ?_
    | with_reducible refine Rest.ite ?_ ?_ | dsimp only | split | intro _

theorem execUpdRestart_keeps {h : Half} {s : State} : Keeps [.own, .bus, .fresh, .run, .evt, .xng, .shut, .frame, .tim, .set, .opt, .vlv, .lsw, .uin, .yld, .pose, .grd, .trk, .gns, .can, .flx, .upd, .pwr, .dsp, .latch, .regs] (execUpdRestart h s) s := by
  unfold execUpdRestart
  try dsimp only
  repeat' first
    | with_reducible exact Rest.refl _ _ | with_reducible exact Side.refl _ _ | with_reducible assumption | with_reducible refine Keeps.next ?_ ?_
    | with_reducible refine Side.when ?_ ?_ | with_reducible refine State.restart_side (by decide) ?_ | with_reducible refine Side.ite ?_ ?_
    | with_reducible refine Side.set_w ?_ _ | with_reducible refine Keeps.ite ?_ ?_ | with_reducible refine Rest.when ?_ ?_
    | with_reducible refine Rest.whenS ?_ ?_ | with_reducible refine Rest.iteS ?_ ?_ | with_reducible refine State.restart_rest (by decide) ?_
    | with_reducible refine Rest.ite ?_ ?_ | dsimp only | split | intro _

theorem execBloom_keeps {h : Half} {k : Nat} {s : State} : Keeps [.own, .ledger, .run, .evt, .roast, .bp, .shut, .tim, .set, .opt, .vlv, .lsw, .uin, .yld, .grd, .trk, .gns, .can, .flx, .upd, .pwr, .dsp, .latch, .regs] (execBloom h k s) s := by
  unfold execBloom
  try dsimp only
  repeat' first
    | with_reducible exact Rest.refl _ _ | with_reducible exact Side.refl _ _ | with_reducible assumption | with_reducible refine Keeps.next ?_ ?_
    | with_reducible refine Side.onW ?_ | with_reducible refine Side.when ?_ ?_ | with_reducible refine State.bloomStep_side (by decide) ?_
    | with_reducible refine Side.ite ?_ ?_ | with_reducible refine Side.set_w ?_ _ | with_reducible refine Keeps.ite ?_ ?_
    | with_reducible refine Rest.when ?_ ?_ | with_reducible refine Rest.onW ?_ ?_ | with_reducible refine Rest.whenS ?_ ?_
    | with_reducible refine Rest.iteS ?_ ?_ | with_reducible refine State.bloomStep_rest (by decide) ?_
    | with_reducible refine World.standby_rest (by decide) ?_ | with_reducible refine World.updRun_rest (by decide) ?_
    | with_reducible refine Rest.ite ?_ ?_ | dsimp only | split | intro _

theorem execPourEntry_keeps {h : Half} {s : State} : Keeps [.evt, .reg 0x80, .reg 0x84, .reg 0x100018] (execPourEntry h s) s := by
  unfold execPourEntry
  try dsimp only
  repeat' first
    | with_reducible exact Rest.refl _ _ | with_reducible exact Side.refl _ _ | with_reducible assumption | with_reducible refine Keeps.lift ?_
    | with_reducible refine Keeps.ite ?_ ?_ | with_reducible refine Rest.wr _ _ _ _ (by decide) ?_
    | with_reducible refine Rest.raise _ _ _ (by decide) ?_ | with_reducible refine Rest.when ?_ ?_ | with_reducible refine Rest.iteS ?_ ?_
    | with_reducible refine Rest.ite ?_ ?_ | dsimp only | split | intro _

theorem execPourExit_keeps {h : Half} {s : State} : Keeps [.evt, .reg 0x80, .reg 0x100018] (execPourExit h s) s := by
  unfold execPourExit
  try dsimp only
  repeat' first
    | with_reducible exact Rest.refl _ _ | with_reducible exact Side.refl _ _ | with_reducible assumption | with_reducible refine Keeps.lift ?_
    | with_reducible refine Keeps.ite ?_ ?_ | with_reducible refine Rest.wr _ _ _ _ (by decide) ?_
    | with_reducible refine Rest.raise _ _ _ (by decide) ?_ | with_reducible refine Rest.when ?_ ?_ | with_reducible refine Rest.iteS ?_ ?_
    | with_reducible refine Rest.ite ?_ ?_ | dsimp only | split | intro _

theorem execRoastSiblingFetch_keeps {h : Half} {pending : Bool} {s : State} : Keeps [.own, .bus, .fresh, .run, .evt, .xng, .roast, .shut, .frame, .tim, .set, .opt, .vlv, .lsw, .uin, .yld, .pose, .grd, .trk, .gns, .can, .flx, .upd, .pwr, .dsp, .latch, .regs] (execRoastSiblingFetch h pending s) s := by
  unfold execRoastSiblingFetch
  try dsimp only
  repeat' first
    | with_reducible exact Rest.refl _ _ | with_reducible exact Side.refl _ _ | with_reducible assumption | with_reducible refine Keeps.next ?_ ?_
    | with_reducible refine Side.onW ?_ | with_reducible refine Side.when ?_ ?_ | with_reducible refine State.restart_side (by decide) ?_
    | with_reducible refine Side.ite ?_ ?_ | with_reducible refine Side.set_w ?_ _ | with_reducible refine Keeps.ite ?_ ?_
    | with_reducible refine Rest.wr _ _ _ _ (by decide) ?_ | with_reducible refine Rest.when ?_ ?_ | with_reducible refine Rest.onW ?_ ?_
    | with_reducible refine Rest.whenS ?_ ?_ | with_reducible refine Rest.iteS ?_ ?_ | with_reducible refine State.restart_rest (by decide) ?_
    | with_reducible refine World.roastReject_rest (by decide) ?_ | with_reducible refine World.setRegion_rest (by decide) ?_
    | with_reducible refine Rest.ite ?_ ?_ | with_reducible refine Rest.set_roast (by decide) ?_ _ | dsimp only | split | intro _

theorem execRoastActivateRequest_keeps {h : Half} {k : Nat} {s : State} : Keeps [.own, .ledger, .bus, .fresh, .run, .evt, .xng, .roast, .bp, .act, .shut, .frame, .tim, .set, .opt, .vlv, .lsw, .uin, .yld, .pose, .grd, .trk, .gns, .can, .flx, .upd, .pwr, .dsp, .latch, .regs] (execRoastActivateRequest h k s) s := by
  unfold execRoastActivateRequest
  try dsimp only
  repeat' first
    | with_reducible exact Rest.refl _ _ | with_reducible exact Side.refl _ _ | with_reducible assumption | with_reducible refine Keeps.next ?_ ?_
    | with_reducible refine Side.onW ?_ | with_reducible refine Side.when ?_ ?_ | with_reducible refine State.activateAdopt_side (by decide) ?_
    | with_reducible refine State.activateAsk_side (by decide) ?_ | with_reducible refine State.activateDrop_side (by decide) ?_
    | with_reducible refine State.activateEnd_side (by decide) ?_ | with_reducible refine State.activateOld_side (by decide) ?_
    | with_reducible refine State.activatePass_side (by decide) ?_ | with_reducible refine State.activateTrial_side (by decide) ?_
    | with_reducible refine State.handoverAllNow_side (by decide) ?_ | with_reducible refine State.setStep_side (by decide) ?_
    | with_reducible refine Side.ite ?_ ?_ | with_reducible refine Side.set_w ?_ _ | with_reducible refine Keeps.ite ?_ ?_
    | with_reducible refine Rest.when ?_ ?_ | with_reducible refine Rest.onW ?_ ?_ | with_reducible refine Rest.whenS ?_ ?_
    | with_reducible refine Rest.iteS ?_ ?_ | with_reducible refine State.activateAdopt_rest (by decide) ?_
    | with_reducible refine State.activateAsk_rest (by decide) ?_ | with_reducible refine State.activateDrop_rest (by decide) ?_
    | with_reducible refine State.activateEnd_rest (by decide) ?_ | with_reducible refine State.activateOld_rest (by decide) ?_
    | with_reducible refine State.activatePass_rest (by decide) ?_ | with_reducible refine State.activateTrial_rest (by decide) ?_
    | with_reducible refine State.handoverAllNow_rest (by decide) ?_ | with_reducible refine State.setStep_rest (by decide) ?_
    | with_reducible refine World.commitRoast_rest (by decide) ?_ | with_reducible refine Rest.ite ?_ ?_ | dsimp only | split | intro _

theorem execSecretClearDone_keeps {h : Half} {s : State} : Keeps [.reg 0x1300018] (execSecretClearDone h s) s := by
  unfold execSecretClearDone
  try dsimp only
  repeat' first
    | with_reducible exact Rest.refl _ _ | with_reducible exact Side.refl _ _ | with_reducible assumption | with_reducible refine Keeps.lift ?_
    | with_reducible refine Keeps.ite ?_ ?_ | with_reducible refine Rest.wr _ _ _ _ (by decide) ?_ | with_reducible refine Rest.when ?_ ?_
    | with_reducible refine Rest.iteS ?_ ?_ | with_reducible refine World.cupNext_rest (by decide) ?_
    | with_reducible refine World.cupPhase_rest (by decide) ?_ | with_reducible refine Rest.ite ?_ ?_ | dsimp only | split | intro _

theorem execSecretClearTimeout_keeps {h : Half} {s : State} : Keeps [.fresh, .shut, .reg 0x1300018, .reg 0x1300200, .reg 0x1300204, .reg 0x1300208, .reg 0x130020C] (execSecretClearTimeout h s) s := by
  unfold execSecretClearTimeout
  try dsimp only
  repeat' first
    | with_reducible exact Rest.refl _ _ | with_reducible exact Side.refl _ _ | with_reducible assumption | with_reducible refine Keeps.lift ?_
    | with_reducible refine Keeps.ite ?_ ?_ | with_reducible refine Rest.when ?_ ?_ | with_reducible refine Rest.iteS ?_ ?_
    | with_reducible refine World.cupSkipAll_rest (by decide) ?_ | with_reducible refine Rest.ite ?_ ?_ | dsimp only | split | intro _

theorem execIslandTestEnd_keeps {h : Half} {n : Nat} {m : CupMeas} {s : State} : Keeps [.shut, .reg 0x1300018, .reg 0x1300200, .reg 0x1300204, .reg 0x1300208, .reg 0x130020C] (execIslandTestEnd h n m s) s := by
  unfold execIslandTestEnd
  try dsimp only
  repeat' first
    | with_reducible exact Rest.refl _ _ | with_reducible exact Side.refl _ _ | with_reducible assumption | with_reducible refine Keeps.lift ?_
    | with_reducible refine Keeps.ite ?_ ?_ | with_reducible refine Rest.when ?_ ?_ | with_reducible refine Rest.iteS ?_ ?_
    | with_reducible refine World.cupEnd_rest (by decide) ?_ | with_reducible refine World.cupNext_rest (by decide) ?_
    | with_reducible refine Rest.ite ?_ ?_ | dsimp only | split | intro _

theorem execIslandConditionFail_keeps {h : Half} {n reason : Nat} {m : CupMeas} {s : State} : Keeps [.fresh, .shut, .reg 0x1300018, .reg 0x1300200, .reg 0x1300204, .reg 0x1300208, .reg 0x130020C] (execIslandConditionFail h n reason m s) s := by
  unfold execIslandConditionFail
  try dsimp only
  repeat' first
    | with_reducible exact Rest.refl _ _ | with_reducible exact Side.refl _ _ | with_reducible assumption | with_reducible refine Keeps.lift ?_
    | with_reducible refine Keeps.ite ?_ ?_ | with_reducible refine Rest.when ?_ ?_ | with_reducible refine Rest.iteS ?_ ?_
    | with_reducible refine World.cupEnd_rest (by decide) ?_ | with_reducible refine World.cupNext_rest (by decide) ?_
    | with_reducible refine World.cupSkip_rest (by decide) ?_ | with_reducible refine Rest.ite ?_ ?_ | dsimp only | split | intro _

theorem execCuppingBudgetExpiry_keeps {h : Half} {ms_ : List CupMeas} {s : State} : Keeps [.fresh, .shut, .reg 0x1300018, .reg 0x1300200, .reg 0x1300204, .reg 0x1300208, .reg 0x130020C] (execCuppingBudgetExpiry h ms_ s) s := by
  unfold execCuppingBudgetExpiry
  try dsimp only
  repeat' first
    | with_reducible exact Rest.refl _ _ | with_reducible exact Side.refl _ _ | with_reducible assumption | with_reducible refine Keeps.lift ?_
    | with_reducible refine Keeps.ite ?_ ?_ | with_reducible refine Rest.when ?_ ?_ | with_reducible refine Rest.iteS ?_ ?_
    | with_reducible refine World.cupStop_rest (by decide) ?_ | with_reducible refine Rest.ite ?_ ?_ | dsimp only | split | intro _

theorem execCuppingRecordsWritten_keeps {h : Half} {energy : Nat} {s : State} : Keeps [.shut, .svc, .latch, .reg 0x88, .reg 0xB8, .reg 0x1300018, .reg 0x130001C, .reg 0x1300020] (execCuppingRecordsWritten h energy s) s := by
  unfold execCuppingRecordsWritten
  try dsimp only
  repeat' first
    | with_reducible exact Rest.refl _ _ | with_reducible exact Side.refl _ _ | with_reducible assumption | with_reducible refine Keeps.next ?_ ?_
    | with_reducible refine Side.onW ?_ | with_reducible refine Side.when ?_ ?_ | with_reducible refine Side.ite ?_ ?_
    | with_reducible refine Side.set_w ?_ _ | with_reducible refine Keeps.ite ?_ ?_ | with_reducible refine Rest.when ?_ ?_
    | with_reducible refine Rest.onW ?_ ?_ | with_reducible refine Rest.whenS ?_ ?_ | with_reducible refine Rest.iteS ?_ ?_
    | with_reducible refine World.cupWritten_rest (by decide) ?_ | with_reducible refine World.holdupMeasure_rest (by decide) ?_
    | with_reducible refine World.setHoldReq_rest (by decide) ?_ | with_reducible refine World.updShut_rest (by decide) ?_
    | with_reducible refine Rest.ite ?_ ?_ | dsimp only | split | intro _

theorem execWakeRequest_keeps {h : Half} {can : Option Nat} {ms_ : List CupMeas} {s : State} : Keeps [.own, .bus, .fresh, .run, .evt, .xng, .shut, .frame, .tim, .set, .opt, .uin, .yld, .pose, .grd, .trk, .gns, .flx, .upd, .latch, .regs] (execWakeRequest h can ms_ s) s := by
  unfold execWakeRequest
  try dsimp only
  repeat' first
    | with_reducible exact Rest.refl _ _ | with_reducible exact Side.refl _ _ | with_reducible assumption | with_reducible refine Keeps.next ?_ ?_
    | with_reducible refine Side.onW ?_ | with_reducible refine Side.when ?_ ?_ | with_reducible refine State.letRun_side (by decide) ?_
    | with_reducible refine Side.ite ?_ ?_ | with_reducible refine Side.set_w ?_ _ | with_reducible refine Keeps.ite ?_ ?_
    | with_reducible refine Rest.when ?_ ?_ | with_reducible refine Rest.onW ?_ ?_ | with_reducible refine Rest.whenS ?_ ?_
    | with_reducible refine Rest.iteS ?_ ?_ | with_reducible refine State.letRun_rest (by decide) ?_
    | with_reducible refine World.cupStop_rest (by decide) ?_ | with_reducible refine World.cupWritten_rest (by decide) ?_
    | with_reducible refine World.init_rest (by decide) ?_ | with_reducible refine World.updShut_rest (by decide) ?_
    | with_reducible refine Rest.ite ?_ ?_ | dsimp only | split | intro _

theorem execCupAck_keeps {h : Half} {init : Nat} {s : State} : Keeps [.reg 0x80] (execCupAck h init s) s := by
  unfold execCupAck
  try dsimp only
  repeat' first
    | with_reducible exact Rest.refl _ _ | with_reducible exact Side.refl _ _ | with_reducible assumption | with_reducible refine Keeps.lift ?_
    | with_reducible refine Keeps.ite ?_ ?_ | with_reducible refine Rest.wr _ _ _ _ (by decide) ?_ | with_reducible refine Rest.when ?_ ?_
    | with_reducible refine Rest.iteS ?_ ?_ | with_reducible refine Rest.ite ?_ ?_ | dsimp only | split | intro _

theorem execShutdown_keeps {h : Half} {k : Nat} {c : CupCond} {s : State} : Keeps [.own, .ledger, .fresh, .run, .evt, .shut, .tim, .opt, .vlv, .lsw, .yld, .gns, .can, .flx, .pwr, .dsp, .reg 0x80, .reg 0x100018, .reg 0x30010C, .reg 0x500028, .reg 0x500080, .reg 0x600024, .reg 0x600030, .reg 0x700080, .reg 0x900030, .reg 0x900044, .reg 0xA00104, .reg 0xA00108, .reg 0xA0010C, .reg 0xA00140, .reg 0xB00018, .reg 0xF00018, .reg 0x1000020, .reg 0x1000044, .reg 0x120002C, .reg 0x1300018, .reg 0x1300028, .reg 0x1300200, .reg 0x1300204, .reg 0x1300208, .reg 0x130020C] (execShutdown h k c s) s := by
  unfold execShutdown
  dsimp only
  refine Keeps.next ?_ ?_ <;> split
  · exact Side.when (Side.refl _ _) fun u hu => State.shutBegin_side (by decide) hu
  · exact Side.when (Side.refl _ _) fun u hu => State.shutRelease_side (by decide) hu
  · exact Side.when (Side.refl _ _) fun u hu => State.cupStart_side (by decide) hu
  · exact Side.refl _ _
  · exact Rest.whenS (Rest.refl _ _) fun u hu => State.shutBegin_rest (by decide) hu
  · exact Rest.whenS (Rest.refl _ _) fun u hu => State.shutRelease_rest (by decide) hu
  · exact Rest.whenS (Rest.refl _ _) fun u hu => State.cupStart_rest (by decide) hu
  · exact Rest.refl _ _

theorem execPowerFail_keeps {wrote : Bool} {ma mb : List CupMeas} {s : State} : Keeps [.own, .ledger, .fresh, .run, .evt, .shut, .tim, .opt, .vlv, .lsw, .yld, .gns, .can, .flx, .pwr, .dsp, .latch, .reg 0x88, .reg 0x100018, .reg 0x30010C, .reg 0x500028, .reg 0x500080, .reg 0x600024, .reg 0x600030, .reg 0x700080, .reg 0x900030, .reg 0x900044, .reg 0xA00104, .reg 0xA00108, .reg 0xA0010C, .reg 0xA00140, .reg 0xB00018, .reg 0xF00018, .reg 0x1000018, .reg 0x1000020, .reg 0x1000044, .reg 0x120002C, .reg 0x1300018, .reg 0x130001C, .reg 0x1300020, .reg 0x1300200, .reg 0x1300204, .reg 0x1300208, .reg 0x130020C] (execPowerFail wrote ma mb s) s := by
  unfold execPowerFail
  try dsimp only
  repeat' first
    | with_reducible exact Rest.refl _ _ | with_reducible exact Side.refl _ _ | with_reducible assumption | with_reducible refine Keeps.next ?_ ?_
    | with_reducible refine Side.onW ?_ | with_reducible refine Side.when ?_ ?_ | with_reducible refine State.failHalf_side (by decide) ?_
    | with_reducible refine Side.ite ?_ ?_ | with_reducible refine Side.set_w ?_ _ | with_reducible refine Keeps.ite ?_ ?_
    | with_reducible refine Rest.when ?_ ?_ | with_reducible refine Rest.onW ?_ ?_ | with_reducible refine Rest.whenS ?_ ?_
    | with_reducible refine Rest.iteS ?_ ?_ | with_reducible refine State.failHalf_rest (by decide) ?_
    | with_reducible refine World.latchEval_rest (by decide) ?_ | with_reducible refine World.updLatch_rest (by decide) ?_
    | with_reducible refine World.updPwr_rest (by decide) ?_ | with_reducible refine Rest.ite ?_ ?_ | dsimp only | split | intro _

theorem execPowerFailRecovery_keeps {v : Nat} {s : State} : Keeps [.own, .bus, .fresh, .run, .evt, .xng, .shut, .frame, .tim, .set, .opt, .uin, .yld, .pose, .grd, .trk, .gns, .flx, .upd, .pwr, .latch, .regs] (execPowerFailRecovery v s) s := by
  unfold execPowerFailRecovery
  try dsimp only
  repeat' first
    | with_reducible exact Rest.refl _ _ | with_reducible exact Side.refl _ _ | with_reducible assumption | with_reducible refine Keeps.next ?_ ?_
    | with_reducible refine Side.onW ?_ | with_reducible refine Side.when ?_ ?_ | with_reducible refine State.startAgain_side (by decide) ?_
    | with_reducible refine Side.ite ?_ ?_ | with_reducible refine Side.set_w ?_ _ | with_reducible refine Keeps.ite ?_ ?_
    | with_reducible refine Rest.wr _ _ _ _ (by decide) ?_ | with_reducible refine Rest.when ?_ ?_ | with_reducible refine Rest.onW ?_ ?_
    | with_reducible refine Rest.whenS ?_ ?_ | with_reducible refine Rest.iteS ?_ ?_ | with_reducible refine State.startAgain_rest (by decide) ?_
    | with_reducible refine World.fanDuties_rest (by decide) ?_ | with_reducible refine World.latchEval_rest (by decide) ?_
    | with_reducible refine World.updLatch_rest (by decide) ?_ | with_reducible refine World.updPwr_rest (by decide) ?_
    | with_reducible refine Rest.ite ?_ ?_ | dsimp only | split | intro _

theorem execSysShdnAssert_keeps {ts : Int} {s : State} : Keeps [.evt, .vlv, .lsw, .can, .pwr, .dsp, .reg 0x100018, .reg 0x500028, .reg 0x600024, .reg 0x600030, .reg 0x700080, .reg 0x900030, .reg 0x900044, .reg 0xF00018, .reg 0x1000020, .reg 0x1000038, .reg 0x1000044, .reg 0x1000070] (execSysShdnAssert ts s) s := by
  unfold execSysShdnAssert
  try dsimp only
  repeat' first
    | with_reducible exact Rest.refl _ _ | with_reducible exact Side.refl _ _ | with_reducible assumption | with_reducible refine Keeps.lift ?_
    | with_reducible refine Keeps.ite ?_ ?_ | with_reducible refine Rest.wr _ _ _ _ (by decide) ?_
    | with_reducible refine Rest.bump _ _ _ (by decide) ?_ | with_reducible refine Rest.when ?_ ?_ | with_reducible refine Rest.iteS ?_ ?_
    | with_reducible refine World.greenAll_rest (by decide) ?_ | with_reducible refine World.pwrEvent_rest (by decide) ?_
    | with_reducible refine World.readTs_rest (by decide) ?_ | with_reducible refine World.updPwr_rest (by decide) ?_
    | with_reducible refine Rest.ite ?_ ?_ | dsimp only | split | intro _

theorem execSysShdnHalfReset_keeps {s : State} : Keeps [.own, .run, .evt, .vlv, .lsw, .can, .pwr, .dsp, .reg 0x100018, .reg 0x30010C, .reg 0x500028, .reg 0x500080, .reg 0x600024, .reg 0x600030, .reg 0x700080, .reg 0x900030, .reg 0x900044, .reg 0xB00018, .reg 0xF00018, .reg 0x1000020, .reg 0x1000044] (execSysShdnHalfReset s) s := by
  unfold execSysShdnHalfReset
  try dsimp only
  repeat' first
    | with_reducible exact Rest.refl _ _ | with_reducible exact Side.refl _ _ | with_reducible assumption | with_reducible refine Keeps.next ?_ ?_
    | with_reducible refine Side.when ?_ ?_ | with_reducible refine State.resetHalf_side (by decide) ?_ | with_reducible refine Side.ite ?_ ?_
    | with_reducible refine Side.set_w ?_ _ | with_reducible refine Keeps.ite ?_ ?_ | with_reducible refine Rest.when ?_ ?_
    | with_reducible refine Rest.whenS ?_ ?_ | with_reducible refine Rest.iteS ?_ ?_ | with_reducible refine State.resetHalf_rest (by decide) ?_
    | with_reducible refine Rest.ite ?_ ?_ | dsimp only | split | intro _

theorem execSysShdnRelease_keeps {ts : Int} {s : State} : Keeps [.own, .bus, .fresh, .run, .evt, .xng, .shut, .frame, .tim, .set, .opt, .uin, .yld, .pose, .grd, .trk, .gns, .flx, .upd, .pwr, .latch, .regs] (execSysShdnRelease ts s) s := by
  unfold execSysShdnRelease
  try dsimp only
  repeat' first
    | with_reducible exact Rest.refl _ _ | with_reducible exact Side.refl _ _ | with_reducible assumption | with_reducible refine Keeps.next ?_ ?_
    | with_reducible refine Side.onW ?_ | with_reducible refine Side.when ?_ ?_ | with_reducible refine State.startAgain_side (by decide) ?_
    | with_reducible refine Side.ite ?_ ?_ | with_reducible refine Side.set_w ?_ _ | with_reducible refine Keeps.ite ?_ ?_
    | with_reducible refine Rest.wr _ _ _ _ (by decide) ?_ | with_reducible refine Rest.when ?_ ?_ | with_reducible refine Rest.onW ?_ ?_
    | with_reducible refine Rest.whenS ?_ ?_ | with_reducible refine Rest.iteS ?_ ?_ | with_reducible refine State.startAgain_rest (by decide) ?_
    | with_reducible refine World.pwrEvent_rest (by decide) ?_ | with_reducible refine World.readTs_rest (by decide) ?_
    | with_reducible refine Rest.ite ?_ ?_ | dsimp only | split | intro _

theorem execPlannedMove_keeps {h : Half} {n : Nat} {s : State} : Keeps [.own, .evt, .set, .dsp, .reg 0x100018, .reg 0x30010C, .reg 0x400040, .reg 0x400044, .reg 0x400048, .reg 0x40004C, .reg 0x400050, .reg 0x400280, .reg 0x400300, .reg 0x400380, .reg 0x400400, .reg 0xF00018] (execPlannedMove h n s) s := by
  unfold execPlannedMove
  try dsimp only
  repeat' first
    | with_reducible exact Rest.refl _ _ | with_reducible exact Side.refl _ _ | with_reducible assumption | with_reducible refine Keeps.next ?_ ?_
    | with_reducible refine Side.onW ?_ | with_reducible refine Side.when ?_ ?_ | with_reducible refine State.moveGroup_side (by decide) ?_
    | with_reducible refine Side.ite ?_ ?_ | with_reducible refine Side.set_w ?_ _ | with_reducible refine Keeps.ite ?_ ?_
    | with_reducible refine Rest.when ?_ ?_ | with_reducible refine Rest.onW ?_ ?_ | with_reducible refine Rest.whenS ?_ ?_
    | with_reducible refine Rest.iteS ?_ ?_ | with_reducible refine State.moveGroup_rest (by decide) ?_
    | with_reducible refine World.ownResult_rest (by decide) ?_ | with_reducible refine Rest.ite ?_ ?_ | dsimp only | split | intro _

theorem execHandbackMove_keeps {s : State} : Keeps [.own, .evt, .svc, .set, .dsp, .reg 0xA4, .reg 0x100018, .reg 0x30010C, .reg 0x400040, .reg 0x400044, .reg 0x400048, .reg 0x40004C, .reg 0x400050, .reg 0x400280, .reg 0x400300, .reg 0x400380, .reg 0x400400, .reg 0xF00018] (execHandbackMove s) s := by
  unfold execHandbackMove
  try dsimp only
  repeat' first
    | with_reducible exact Rest.refl _ _ | with_reducible exact Side.refl _ _ | with_reducible assumption | with_reducible refine Keeps.next ?_ ?_
    | with_reducible refine Side.onW ?_ | with_reducible refine Side.when ?_ ?_ | with_reducible refine State.moveGroup_side (by decide) ?_
    | with_reducible refine Side.ite ?_ ?_ | with_reducible refine Side.set_w ?_ _ | with_reducible refine Keeps.ite ?_ ?_
    | with_reducible refine Rest.when ?_ ?_ | with_reducible refine Rest.onW ?_ ?_ | with_reducible refine Rest.whenS ?_ ?_
    | with_reducible refine Rest.iteS ?_ ?_ | with_reducible refine State.moveGroup_rest (by decide) ?_
    | with_reducible refine World.svcState_rest (by decide) ?_ | with_reducible refine World.updSvc_rest (by decide) ?_
    | with_reducible refine Rest.ite ?_ ?_ | dsimp only | split | intro _

theorem execPrepareHalf_keeps {h : Half} {init target : Nat} {s : State} : Keeps [.own, .ledger, .run, .evt, .svc, .set, .opt, .vlv, .lsw, .yld, .dram, .can, .flx, .pwr, .dsp, .reg 0xA4, .reg 0x100018, .reg 0x30010C, .reg 0x400018, .reg 0x400040, .reg 0x400044, .reg 0x400048, .reg 0x40004C, .reg 0x400050, .reg 0x400280, .reg 0x400300, .reg 0x400380, .reg 0x400400, .reg 0x400500, .reg 0x400504, .reg 0x400508, .reg 0x40050C, .reg 0x400510, .reg 0x400514, .reg 0x400518, .reg 0x40051C, .reg 0x400600, .reg 0x400610, .reg 0x400614, .reg 0x400618, .reg 0x40061C, .reg 0x400620, .reg 0x400634, .reg 0x400638, .reg 0x400640, .reg 0x400644, .reg 0x500028, .reg 0x500080, .reg 0x600024, .reg 0x600030, .reg 0x700080, .reg 0x900030, .reg 0x900044, .reg 0xA00108, .reg 0xA00140, .reg 0xB00018, .reg 0xF00018, .reg 0x1000020, .reg 0x1000044, .reg 0x120002C] (execPrepareHalf h init target s) s := by
  unfold execPrepareHalf
  try dsimp only
  repeat' first
    | with_reducible exact Rest.refl _ _ | with_reducible exact Side.refl _ _ | with_reducible assumption | with_reducible refine Keeps.next ?_ ?_
    | with_reducible refine Side.onW ?_ | with_reducible refine Side.when ?_ ?_ | with_reducible refine State.prepareHalf_side (by decide) ?_
    | with_reducible refine Side.ite ?_ ?_ | with_reducible refine Side.set_w ?_ _ | with_reducible refine Keeps.ite ?_ ?_
    | with_reducible refine Rest.when ?_ ?_ | with_reducible refine Rest.onW ?_ ?_ | with_reducible refine Rest.whenS ?_ ?_
    | with_reducible refine Rest.iteS ?_ ?_ | with_reducible refine State.prepareHalf_rest (by decide) ?_
    | with_reducible refine World.svcAsk_rest (by decide) ?_ | with_reducible refine World.svcState_rest (by decide) ?_
    | with_reducible refine Rest.ite ?_ ?_ | dsimp only | split | intro _

theorem execPrepareTile_keeps {h : Half} {init t : Nat} {s : State} : Keeps [.evt, .svc, .reg 0xA4, .reg 0x100018] (execPrepareTile h init t s) s := by
  unfold execPrepareTile
  try dsimp only
  repeat' first
    | with_reducible exact Rest.refl _ _ | with_reducible exact Side.refl _ _ | with_reducible assumption | with_reducible refine Keeps.next ?_ ?_
    | with_reducible refine Side.onW ?_ | with_reducible refine Side.when ?_ ?_ | with_reducible refine Side.ite ?_ ?_
    | with_reducible refine Side.set_w ?_ _ | with_reducible refine Keeps.ite ?_ ?_ | with_reducible refine Rest.wrBoth _ _ _ (by decide) ?_
    | with_reducible refine Rest.when ?_ ?_ | with_reducible refine Rest.onW ?_ ?_ | with_reducible refine Rest.whenS ?_ ?_
    | with_reducible refine Rest.iteS ?_ ?_ | with_reducible refine World.svcAsk_rest (by decide) ?_
    | with_reducible refine World.svcState_rest (by decide) ?_ | with_reducible refine World.updSvc_rest (by decide) ?_
    | with_reducible refine Rest.ite ?_ ?_ | dsimp only | split | intro _

theorem execSvcCancel_keeps {h : Half} {init : Nat} {s : State} : Keeps [.own, .bus, .fresh, .run, .evt, .xng, .shut, .frame, .svc, .tim, .set, .opt, .vlv, .lsw, .uin, .yld, .pose, .grd, .trk, .gns, .can, .flx, .upd, .pwr, .dsp, .latch, .regs] (execSvcCancel h init s) s := by
  unfold execSvcCancel
  try dsimp only
  repeat' first
    | with_reducible exact Rest.refl _ _ | with_reducible exact Side.refl _ _ | with_reducible assumption | with_reducible refine Keeps.next ?_ ?_
    | with_reducible refine Side.when ?_ ?_ | with_reducible refine State.svcEnd_side (by decide) ?_ | with_reducible refine Side.ite ?_ ?_
    | with_reducible refine Side.set_w ?_ _ | with_reducible refine Keeps.ite ?_ ?_ | with_reducible refine Rest.when ?_ ?_
    | with_reducible refine Rest.whenS ?_ ?_ | with_reducible refine Rest.iteS ?_ ?_ | with_reducible refine State.svcEnd_rest (by decide) ?_
    | with_reducible refine Rest.ite ?_ ?_ | dsimp only | split | intro _

theorem execPrepareTimeout_keeps {s : State} : Keeps [.own, .bus, .fresh, .run, .evt, .xng, .shut, .frame, .svc, .tim, .set, .opt, .vlv, .lsw, .uin, .yld, .pose, .grd, .trk, .gns, .can, .flx, .upd, .pwr, .dsp, .latch, .regs] (execPrepareTimeout s) s := by
  unfold execPrepareTimeout
  try dsimp only
  repeat' first
    | with_reducible exact Rest.refl _ _ | with_reducible exact Side.refl _ _ | with_reducible assumption | with_reducible refine Keeps.next ?_ ?_
    | with_reducible refine Side.when ?_ ?_ | with_reducible refine State.svcEnd_side (by decide) ?_ | with_reducible refine Side.ite ?_ ?_
    | with_reducible refine Side.set_w ?_ _ | with_reducible refine Keeps.ite ?_ ?_ | with_reducible refine Rest.when ?_ ?_
    | with_reducible refine Rest.whenS ?_ ?_ | with_reducible refine Rest.iteS ?_ ?_ | with_reducible refine State.svcEnd_rest (by decide) ?_
    | with_reducible refine Rest.ite ?_ ?_ | dsimp only | split | intro _

theorem execFanReset_keeps {h : Half} {init : Nat} {s : State} : Keeps [.evt, .reg 0xA4, .reg 0xB4, .reg 0x100018] (execFanReset h init s) s := by
  unfold execFanReset
  try dsimp only
  repeat' first
    | with_reducible exact Rest.refl _ _ | with_reducible exact Side.refl _ _ | with_reducible assumption | with_reducible refine Keeps.next ?_ ?_
    | with_reducible refine Side.onW ?_ | with_reducible refine Side.when ?_ ?_ | with_reducible refine Side.ite ?_ ?_
    | with_reducible refine Side.set_w ?_ _ | with_reducible refine Keeps.ite ?_ ?_ | with_reducible refine Rest.wrBoth _ _ _ (by decide) ?_
    | with_reducible refine Rest.when ?_ ?_ | with_reducible refine Rest.onW ?_ ?_ | with_reducible refine Rest.whenS ?_ ?_
    | with_reducible refine Rest.iteS ?_ ?_ | with_reducible refine World.svcAsk_rest (by decide) ?_
    | with_reducible refine World.svcState_rest (by decide) ?_ | with_reducible refine Rest.ite ?_ ?_ | dsimp only | split | intro _

theorem execHoldupReset_keeps {h : Half} {init : Nat} {s : State} : Keeps [.evt, .reg 0xA4, .reg 0xB8, .reg 0x100018] (execHoldupReset h init s) s := by
  unfold execHoldupReset
  try dsimp only
  repeat' first
    | with_reducible exact Rest.refl _ _ | with_reducible exact Side.refl _ _ | with_reducible assumption | with_reducible refine Keeps.next ?_ ?_
    | with_reducible refine Side.onW ?_ | with_reducible refine Side.when ?_ ?_ | with_reducible refine Side.ite ?_ ?_
    | with_reducible refine Side.set_w ?_ _ | with_reducible refine Keeps.ite ?_ ?_ | with_reducible refine Rest.wrBoth _ _ _ (by decide) ?_
    | with_reducible refine Rest.when ?_ ?_ | with_reducible refine Rest.onW ?_ ?_ | with_reducible refine Rest.whenS ?_ ?_
    | with_reducible refine Rest.iteS ?_ ?_ | with_reducible refine World.svcAsk_rest (by decide) ?_
    | with_reducible refine World.svcState_rest (by decide) ?_ | with_reducible refine Rest.ite ?_ ?_ | dsimp only | split | intro _

theorem execCartridgePresenceOpen_keeps {h : Half} {s : State} : Keeps [.own, .run, .evt, .svc, .vlv, .lsw, .can, .pwr, .dsp, .reg 0xA4, .reg 0x100018, .reg 0x30010C, .reg 0x500028, .reg 0x500080, .reg 0x600024, .reg 0x600030, .reg 0x700080, .reg 0x900030, .reg 0x900044, .reg 0xB00018, .reg 0xF00018, .reg 0x1000020, .reg 0x1000044] (execCartridgePresenceOpen h s) s := by
  unfold execCartridgePresenceOpen
  try dsimp only
  repeat' first
    | with_reducible exact Rest.refl _ _ | with_reducible exact Side.refl _ _ | with_reducible assumption | with_reducible refine Keeps.next ?_ ?_
    | with_reducible refine Side.onW ?_ | with_reducible refine Side.when ?_ ?_ | with_reducible refine State.fall_side (by decide) ?_
    | with_reducible refine State.hold_side (by decide) ?_ | with_reducible refine Side.ite ?_ ?_ | with_reducible refine Side.set_w ?_ _
    | with_reducible refine Keeps.ite ?_ ?_ | with_reducible refine Rest.when ?_ ?_ | with_reducible refine Rest.onW ?_ ?_
    | with_reducible refine Rest.whenS ?_ ?_ | with_reducible refine Rest.iteS ?_ ?_ | with_reducible refine State.fall_rest (by decide) ?_
    | with_reducible refine State.hold_rest (by decide) ?_ | with_reducible refine World.svcState_rest (by decide) ?_
    | with_reducible refine World.updRun_rest (by decide) ?_ | with_reducible refine World.updSvc_rest (by decide) ?_
    | with_reducible refine Rest.ite ?_ ?_ | dsimp only | split | intro _

theorem execCartridgeInsert_keeps {h : Half} {c : Option Cartridge} {s : State} : Keeps [.own, .run, .evt, .roast, .shut, .svc, .tim, .opt, .yld, .dram, .gns, .upd, .regs] (execCartridgeInsert h c s) s := by
  unfold execCartridgeInsert
  try dsimp only
  repeat' first
    | with_reducible exact Rest.refl _ _ | with_reducible exact Side.refl _ _ | with_reducible assumption | with_reducible refine Keeps.next ?_ ?_
    | with_reducible refine Side.onW ?_ | with_reducible refine Side.onOwn (by decide) ?_ | with_reducible refine Side.when ?_ ?_
    | with_reducible refine Side.ite ?_ ?_ | with_reducible refine Side.set_w ?_ _ | with_reducible refine Keeps.ite ?_ ?_
    | with_reducible refine Rest.when ?_ ?_ | with_reducible refine Rest.foldl ?_ ?_ | with_reducible refine Rest.onW ?_ ?_
    | with_reducible refine Rest.onOwn ?_ | with_reducible refine Rest.whenS ?_ ?_ | with_reducible refine Rest.iteS ?_ ?_
    | with_reducible refine World.halfOff_rest (by decide) ?_ | with_reducible refine World.svcState_rest (by decide) ?_
    | with_reducible refine World.updSvc_rest (by decide) ?_ | with_reducible refine Rest.ite ?_ ?_
    | with_reducible refine Rest.set_gns (by decide) ?_ _ | with_reducible refine Rest.set_opt (by decide) ?_ _
    | with_reducible refine Rest.set_regs (by decide) ?_ _ | with_reducible refine Rest.set_roast (by decide) ?_ _
    | with_reducible refine Rest.set_tim (by decide) ?_ _ | with_reducible refine Rest.set_upd (by decide) ?_ _
    | with_reducible refine Rest.set_yld (by decide) ?_ _ | with_reducible refine Rest.set_roast_upd_regs_opt_yld_gns_tim (by decide) ?_ _ _ _ _ _ _ _
    | dsimp only | split | intro _

theorem execTileInsert_keeps {t : Nat} {s : State} : Keeps [.vlv, .reg 0x500080] (execTileInsert t s) s := by
  unfold execTileInsert
  try dsimp only
  repeat' first
    | with_reducible exact Rest.refl _ _ | with_reducible exact Side.refl _ _ | with_reducible assumption | with_reducible refine Keeps.lift ?_
    | with_reducible refine Keeps.ite ?_ ?_ | with_reducible refine Rest.wr _ _ _ _ (by decide) ?_ | with_reducible refine Rest.when ?_ ?_
    | with_reducible refine Rest.iteS ?_ ?_ | with_reducible refine World.tileRetry_rest (by decide) ?_
    | with_reducible refine World.updTile_rest (by decide) ?_ | with_reducible refine Rest.ite ?_ ?_ | dsimp only | split | intro _

theorem execTileReady_keeps {t rail : Nat} {serial : List Byte} {cal : List (List Byte)} {s : State} : Keeps [.ledger, .evt, .svc, .vlv, .reg 0xA4, .reg 0x100018, .reg 0x500028, .reg 0x500080] (execTileReady t rail serial cal s) s := by
  unfold execTileReady
  try dsimp only
  repeat' first
    | with_reducible exact Rest.refl _ _ | with_reducible exact Side.refl _ _ | with_reducible assumption | with_reducible refine Keeps.next ?_ ?_
    | with_reducible refine Side.onW ?_ | with_reducible refine Side.when ?_ ?_ | with_reducible refine Side.forAll ?_ ?_
    | with_reducible refine State.tileCal_side (by decide) ?_ | with_reducible refine Side.ite ?_ ?_ | with_reducible refine Side.set_w ?_ _
    | with_reducible refine Side.set_own (by decide) ?_ _ | with_reducible refine Side.set_own_w (by decide) ?_ _ _
    | with_reducible refine Keeps.ite ?_ ?_ | with_reducible refine Rest.wr _ _ _ _ (by decide) ?_ | with_reducible refine Rest.when ?_ ?_
    | with_reducible refine Rest.forAll ?_ ?_ | with_reducible refine Rest.onW ?_ ?_ | with_reducible refine Rest.whenS ?_ ?_
    | with_reducible refine Rest.iteS ?_ ?_ | with_reducible refine State.tileCal_rest (by decide) ?_
    | with_reducible refine World.chanAgain_rest (by decide) ?_ | with_reducible refine World.svcState_rest (by decide) ?_
    | with_reducible refine World.updSvc_rest (by decide) ?_ | with_reducible refine World.updTile_rest (by decide) ?_
    | with_reducible refine Rest.ite ?_ ?_ | dsimp only | split | intro _

end Sys2Proof.Machine
end

