-- ==== Sys2Proof/Laws/FrameOwn.lean ====
section
/-!
SUPPORT. What each command of these units leaves alone.
-/
set_option linter.unreachableTactic false
set_option linter.unusedTactic false

namespace Sys2Proof.Machine

theorem execClaim_keeps {h : Half} {k : Nat} {s : State} : Keeps [.own, .evt, .reg 0x100018, .reg 0x30010C] (execClaim h k s) s := by
  unfold execClaim
  try dsimp only
  repeat' first
    | with_reducible exact Rest.refl _ _ | with_reducible exact Side.refl _ _ | with_reducible assumption | with_reducible refine Keeps.next ?_ ?_
    | with_reducible refine Side.when ?_ ?_ | with_reducible refine State.claim_side (by decide) ?_ | with_reducible refine Side.ite ?_ ?_
    | with_reducible refine Side.set_w ?_ _ | with_reducible refine Keeps.ite ?_ ?_ | with_reducible refine Rest.when ?_ ?_
    | with_reducible refine Rest.whenS ?_ ?_ | with_reducible refine Rest.iteS ?_ ?_ | with_reducible refine State.claim_rest (by decide) ?_
    | with_reducible refine Rest.ite ?_ ?_ | dsimp only | split | intro _

theorem execClaimComplete_keeps {k : Nat} {s : State} : Keeps [.own, .evt, .reg 0x100018, .reg 0x30010C] (execClaimComplete k s) s := by
  unfold execClaimComplete
  try dsimp only
  repeat' first
    | with_reducible exact Rest.refl _ _ | with_reducible exact Side.refl _ _ | with_reducible assumption | with_reducible refine Keeps.next ?_ ?_
    | with_reducible refine State.owned_side (by decide) ?_ | with_reducible refine State.settle_side (by decide) ?_
    | with_reducible refine Side.ite ?_ ?_ | with_reducible refine Side.set_w ?_ _ | with_reducible refine Keeps.ite ?_ ?_
    | with_reducible refine Rest.iteS ?_ ?_ | with_reducible refine State.owned_rest (by decide) ?_
    | with_reducible refine State.settle_rest (by decide) ?_ | with_reducible refine Rest.ite ?_ ?_ | dsimp only | split | intro _

theorem execRelease_keeps {h : Half} {k : Nat} {s : State} : Keeps [.own, .evt, .dsp, .reg 0x100018, .reg 0x30010C, .reg 0xF00018] (execRelease h k s) s := by
  unfold execRelease
  try dsimp only
  repeat' first
    | with_reducible exact Rest.refl _ _ | with_reducible exact Side.refl _ _ | with_reducible assumption | with_reducible refine Keeps.next ?_ ?_
    | with_reducible refine Side.when ?_ ?_ | with_reducible refine State.release_side (by decide) ?_ | with_reducible refine Side.ite ?_ ?_
    | with_reducible refine Side.set_w ?_ _ | with_reducible refine Keeps.ite ?_ ?_ | with_reducible refine Rest.when ?_ ?_
    | with_reducible refine Rest.whenS ?_ ?_ | with_reducible refine Rest.iteS ?_ ?_ | with_reducible refine State.release_rest (by decide) ?_
    | with_reducible refine Rest.ite ?_ ?_ | dsimp only | split | intro _

theorem execHandover_keeps {h : Half} {k : Nat} {s : State} : Keeps [.own, .evt, .dsp, .reg 0x100018, .reg 0x30010C, .reg 0xF00018] (execHandover h k s) s := by
  unfold execHandover
  try dsimp only
  repeat' first
    | with_reducible exact Rest.refl _ _ | with_reducible exact Side.refl _ _ | with_reducible assumption | with_reducible refine Keeps.next ?_ ?_
    | with_reducible refine Side.when ?_ ?_ | with_reducible refine State.handover_side (by decide) ?_ | with_reducible refine Side.ite ?_ ?_
    | with_reducible refine Side.set_w ?_ _ | with_reducible refine Keeps.ite ?_ ?_ | with_reducible refine Rest.when ?_ ?_
    | with_reducible refine Rest.whenS ?_ ?_ | with_reducible refine Rest.iteS ?_ ?_ | with_reducible refine State.handover_rest (by decide) ?_
    | with_reducible refine Rest.ite ?_ ?_ | dsimp only | split | intro _

theorem execHandoverComplete_keeps {k : Nat} {s : State} : Keeps [.own, .evt, .reg 0x100018, .reg 0x30010C] (execHandoverComplete k s) s := by
  unfold execHandoverComplete
  try dsimp only
  repeat' first
    | with_reducible exact Rest.refl _ _ | with_reducible exact Side.refl _ _ | with_reducible assumption | with_reducible refine Keeps.next ?_ ?_
    | with_reducible refine State.handoverDone_side (by decide) ?_ | with_reducible refine Side.ite ?_ ?_ | with_reducible refine Side.set_w ?_ _
    | with_reducible refine Keeps.ite ?_ ?_ | with_reducible refine Rest.iteS ?_ ?_ | with_reducible refine State.handoverDone_rest (by decide) ?_
    | with_reducible refine Rest.ite ?_ ?_ | dsimp only | split | intro _

theorem execClaimAll_keeps {h : Half} {s : State} : Keeps [.own, .reg 0x30010C] (execClaimAll h s) s := by
  unfold execClaimAll
  try dsimp only
  repeat' first
    | with_reducible exact Rest.refl _ _ | with_reducible exact Side.refl _ _ | with_reducible assumption | with_reducible refine Keeps.next ?_ ?_
    | with_reducible refine Side.when ?_ ?_ | with_reducible refine State.claimAll_side (by decide) ?_ | with_reducible refine Side.ite ?_ ?_
    | with_reducible refine Side.set_w ?_ _ | with_reducible refine Keeps.ite ?_ ?_ | with_reducible refine Rest.when ?_ ?_
    | with_reducible refine Rest.whenS ?_ ?_ | with_reducible refine Rest.iteS ?_ ?_ | with_reducible refine State.claimAll_rest (by decide) ?_
    | with_reducible refine Rest.ite ?_ ?_ | dsimp only | split | intro _

theorem execHandoverAll_keeps {h : Half} {s : State} : Keeps [.own, .evt, .dsp, .reg 0x100018, .reg 0x30010C, .reg 0xF00018] (execHandoverAll h s) s := by
  unfold execHandoverAll
  try dsimp only
  repeat' first
    | with_reducible exact Rest.refl _ _ | with_reducible exact Side.refl _ _ | with_reducible assumption | with_reducible refine Keeps.next ?_ ?_
    | with_reducible refine Side.when ?_ ?_ | with_reducible refine State.handoverAll_side (by decide) ?_ | with_reducible refine Side.ite ?_ ?_
    | with_reducible refine Side.set_w ?_ _ | with_reducible refine Keeps.ite ?_ ?_ | with_reducible refine Rest.when ?_ ?_
    | with_reducible refine Rest.whenS ?_ ?_ | with_reducible refine Rest.iteS ?_ ?_ | with_reducible refine State.handoverAll_rest (by decide) ?_
    | with_reducible refine Rest.ite ?_ ?_ | dsimp only | split | intro _

theorem execServerRequest_keeps {h : Half} {s : State} : Keeps [.own, .ledger, .evt, .flx, .reg 0x100018, .reg 0xA00140, .reg 0xB00018, .reg 0x120002C] (execServerRequest h s) s := by
  unfold execServerRequest
  try dsimp only
  repeat' first
    | with_reducible exact Rest.refl _ _ | with_reducible exact Side.refl _ _ | with_reducible assumption | with_reducible refine Keeps.next ?_ ?_
    | with_reducible refine State.serverReq_side (by decide) ?_ | with_reducible refine Side.ite ?_ ?_ | with_reducible refine Side.set_w ?_ _
    | with_reducible refine Keeps.ite ?_ ?_ | with_reducible refine Rest.iteS ?_ ?_ | with_reducible refine State.serverReq_rest (by decide) ?_
    | with_reducible refine Rest.ite ?_ ?_ | dsimp only | split | intro _

theorem execOrphanTimerExpiry_keeps {k : Nat} {s : State} : Keeps [.own, .evt, .vlv, .lsw, .can, .pwr, .dsp, .reg 0x100018, .reg 0x500028, .reg 0x600024, .reg 0x600030, .reg 0x700080, .reg 0x900030, .reg 0x900044, .reg 0xF00018, .reg 0x1000020, .reg 0x1000044] (execOrphanTimerExpiry k s) s := by
  unfold execOrphanTimerExpiry
  try dsimp only
  repeat' first
    | with_reducible exact Rest.refl _ _ | with_reducible exact Side.refl _ _ | with_reducible assumption | with_reducible refine Keeps.next ?_ ?_
    | with_reducible refine Side.when ?_ ?_ | with_reducible refine State.expire_side (by decide) ?_ | with_reducible refine Side.ite ?_ ?_
    | with_reducible refine Side.set_w ?_ _ | with_reducible refine Keeps.ite ?_ ?_ | with_reducible refine Rest.when ?_ ?_
    | with_reducible refine Rest.whenS ?_ ?_ | with_reducible refine Rest.iteS ?_ ?_ | with_reducible refine State.expire_rest (by decide) ?_
    | with_reducible refine Rest.ite ?_ ?_ | dsimp only | split | intro _

theorem execOrphanTWrite_keeps {h : Half} {init v : Nat} {s : State} : Keeps [.own, .evt, .vlv, .lsw, .can, .pwr, .dsp, .reg 0x100018, .reg 0x300114, .reg 0x500028, .reg 0x600024, .reg 0x600030, .reg 0x700080, .reg 0x900030, .reg 0x900044, .reg 0xF00018, .reg 0x1000020, .reg 0x1000044] (execOrphanTWrite h init v s) s := by
  unfold execOrphanTWrite
  try dsimp only
  repeat' first
    | with_reducible exact Rest.refl _ _ | with_reducible exact Side.refl _ _ | with_reducible assumption | with_reducible refine Keeps.next ?_ ?_
    | with_reducible refine Side.when ?_ ?_ | with_reducible refine State.setOrphanT_side (by decide) ?_ | with_reducible refine Side.ite ?_ ?_
    | with_reducible refine Side.set_w ?_ _ | with_reducible refine Keeps.ite ?_ ?_ | with_reducible refine Rest.when ?_ ?_
    | with_reducible refine Rest.whenS ?_ ?_ | with_reducible refine Rest.iteS ?_ ?_ | with_reducible refine State.setOrphanT_rest (by decide) ?_
    | with_reducible refine Rest.ite ?_ ?_ | dsimp only | split | intro _

theorem execAliveLineFall_keeps {h : Half} {c : LowCause} {s : State} : Keeps [.own, .run, .evt, .vlv, .lsw, .can, .pwr, .dsp, .reg 0x100018, .reg 0x30010C, .reg 0x500028, .reg 0x500080, .reg 0x600024, .reg 0x600030, .reg 0x700080, .reg 0x900030, .reg 0x900044, .reg 0xB00018, .reg 0xF00018, .reg 0x1000020, .reg 0x1000044] (execAliveLineFall h c s) s := by
  unfold execAliveLineFall
  have a : Side [.own, .run, .evt, .vlv, .lsw, .can, .pwr, .dsp, .reg 0x100018, .reg 0x30010C, .reg 0x500028, .reg 0x500080, .reg 0x600024, .reg 0x600030, .reg 0x700080, .reg 0x900030, .reg 0x900044, .reg 0xB00018, .reg 0xF00018, .reg 0x1000020, .reg 0x1000044] (s.fall h c) s := State.fall_side (by decide) (Side.refl _ _)
  have b : Rest [.own, .run, .evt, .vlv, .lsw, .can, .pwr, .dsp, .reg 0x100018, .reg 0x30010C, .reg 0x500028, .reg 0x500080, .reg 0x600024, .reg 0x600030, .reg 0x700080, .reg 0x900030, .reg 0x900044, .reg 0xB00018, .reg 0xF00018, .reg 0x1000020, .reg 0x1000044] (s.fall h c).w s.w := State.fall_rest (by decide) (Rest.refl _ _)
  dsimp only
  generalize s.fall h c = u at a b ⊢
  refine Keeps.next ?_ ?_ <;> split
  all_goals first
    | exact a
    | exact b
    | exact State.hold_side (by decide) a
    | exact State.hold_rest (by decide) b
    | exact Rest.onW b fun u hu => Rest.set_run (by decide) hu _

theorem execAliveLineRise_keeps {h : Half} {c : LowCause} {s : State} : Keeps [.own, .xng] (execAliveLineRise h c s) s := by
  unfold execAliveLineRise
  extract_lets was s'
  have a : Side [.own, .xng] s' s := by
    show Side [.own, .xng] (match c with | _ => _) s
    cases c <;> first | exact Side.refl _ _ | exact Side.onOwn (by decide) (Side.refl _ _)
  have b : Rest [.own, .xng] s'.w s.w := by
    show Rest [.own, .xng] (State.w (match c with | _ => _)) s.w
    cases c <;> exact Rest.refl _ _
  clear_value s'
  refine Keeps.next ?_ ?_
  · exact Side.when a fun u hu => Side.onW hu
  · exact Rest.whenS b fun u hu => Rest.onW hu fun u hu => World.aliveRise_rest (by decide) hu

theorem execOwnerAliveLowTimeout_keeps {h : Half} {s : State} : Keeps [.own, .evt, .dsp, .reg 0x100018, .reg 0xF00018] (execOwnerAliveLowTimeout h s) s := by
  unfold execOwnerAliveLowTimeout
  try dsimp only
  repeat' first
    | with_reducible exact Rest.refl _ _ | with_reducible exact Side.refl _ _ | with_reducible assumption | with_reducible refine Keeps.next ?_ ?_
    | with_reducible refine Side.when ?_ ?_ | with_reducible refine Side.forAll ?_ ?_ | with_reducible refine State.orphan_side (by decide) ?_
    | with_reducible refine Side.ite ?_ ?_ | with_reducible refine Side.set_w ?_ _ | with_reducible refine Keeps.ite ?_ ?_
    | with_reducible refine Rest.when ?_ ?_ | with_reducible refine Rest.forAll ?_ ?_ | with_reducible refine Rest.whenS ?_ ?_
    | with_reducible refine Rest.forAllS ?_ ?_ | with_reducible refine Rest.iteS ?_ ?_ | with_reducible refine State.orphan_rest (by decide) ?_
    | with_reducible refine Rest.ite ?_ ?_ | dsimp only | split | intro _

theorem execHardwareClaimAll_keeps {h : Half} {s : State} : Keeps [.own] (execHardwareClaimAll h s) s := by
  unfold execHardwareClaimAll
  try dsimp only
  repeat' first
    | with_reducible exact Rest.refl _ _ | with_reducible exact Side.refl _ _ | with_reducible assumption | with_reducible refine Keeps.next ?_ ?_
    | with_reducible refine Side.onOwn (by decide) ?_ | with_reducible refine Side.when ?_ ?_ | with_reducible refine Side.forAll ?_ ?_
    | with_reducible refine State.claiming_side (by decide) ?_ | with_reducible refine Side.ite ?_ ?_ | with_reducible refine Side.set_w ?_ _
    | with_reducible refine Keeps.ite ?_ ?_ | with_reducible refine Rest.when ?_ ?_ | with_reducible refine Rest.forAll ?_ ?_
    | with_reducible refine Rest.onOwn ?_ | with_reducible refine Rest.whenS ?_ ?_ | with_reducible refine Rest.forAllS ?_ ?_
    | with_reducible refine Rest.iteS ?_ ?_ | with_reducible refine State.claiming_rest (by decide) ?_ | with_reducible refine Rest.ite ?_ ?_
    | dsimp only | split | intro _

theorem execTakeoverComplete_keeps {h : Half} {s : State} : Keeps [.own, .evt, .trk, .reg 0x100018] (execTakeoverComplete h s) s := by
  unfold execTakeoverComplete
  try dsimp only
  repeat' first
    | with_reducible exact Rest.refl _ _ | with_reducible exact Side.refl _ _ | with_reducible assumption | with_reducible refine Keeps.next ?_ ?_
    | with_reducible refine Side.onW ?_ | with_reducible refine Side.onOwn (by decide) ?_ | with_reducible refine Side.when ?_ ?_
    | with_reducible refine Side.forAll ?_ ?_ | with_reducible refine State.owned_side (by decide) ?_ | with_reducible refine Side.ite ?_ ?_
    | with_reducible refine Side.set_w ?_ _ | with_reducible refine Keeps.ite ?_ ?_ | with_reducible refine Rest.raise _ _ _ (by decide) ?_
    | with_reducible refine Rest.when ?_ ?_ | with_reducible refine Rest.forAll ?_ ?_ | with_reducible refine Rest.onW ?_ ?_
    | with_reducible refine Rest.onOwn ?_ | with_reducible refine Rest.whenS ?_ ?_ | with_reducible refine Rest.forAllS ?_ ?_
    | with_reducible refine Rest.iteS ?_ ?_ | with_reducible refine State.owned_rest (by decide) ?_
    | with_reducible refine World.trkTakeover_rest (by decide) ?_ | with_reducible refine Rest.ite ?_ ?_ | dsimp only | split | intro _

theorem execHeartbeatPermitLapse_keeps {h : Half} {s : State} : Keeps [.own, .run, .evt, .vlv, .lsw, .can, .pwr, .dsp, .reg 0x100018, .reg 0x30010C, .reg 0x500028, .reg 0x500080, .reg 0x600024, .reg 0x600030, .reg 0x700080, .reg 0x900030, .reg 0x900044, .reg 0xB00018, .reg 0xF00018, .reg 0x1000020, .reg 0x1000044] (execHeartbeatPermitLapse h s) s := by
  unfold execHeartbeatPermitLapse
  try dsimp only
  repeat' first
    | with_reducible exact Rest.refl _ _ | with_reducible exact Side.refl _ _ | with_reducible assumption | with_reducible refine Keeps.next ?_ ?_
    | with_reducible refine Side.when ?_ ?_ | with_reducible refine State.fence_side (by decide) ?_ | with_reducible refine Side.ite ?_ ?_
    | with_reducible refine Side.set_w ?_ _ | with_reducible refine Keeps.ite ?_ ?_ | with_reducible refine Rest.when ?_ ?_
    | with_reducible refine Rest.whenS ?_ ?_ | with_reducible refine Rest.iteS ?_ ?_ | with_reducible refine State.fence_rest (by decide) ?_
    | with_reducible refine Rest.ite ?_ ?_ | dsimp only | split | intro _

theorem execStewardPermitContribution_keeps {h : Half} {s : State} : Keeps [.run] (execStewardPermitContribution h s) s := by
  unfold execStewardPermitContribution
  try dsimp only
  repeat' first
    | with_reducible exact Rest.refl _ _ | with_reducible exact Side.refl _ _ | with_reducible assumption | with_reducible refine Keeps.lift ?_
    | with_reducible refine Keeps.ite ?_ ?_ | with_reducible refine Rest.when ?_ ?_ | with_reducible refine Rest.iteS ?_ ?_
    | with_reducible refine Rest.ite ?_ ?_ | with_reducible refine Rest.set_run (by decide) ?_ _ | dsimp only | split | intro _

theorem execRealtimePermitRefresh_keeps {h : Half} {pair : Nat} {s : State} : Keeps [.run] (execRealtimePermitRefresh h pair s) s := by
  unfold execRealtimePermitRefresh
  try dsimp only
  repeat' first
    | with_reducible exact Rest.refl _ _ | with_reducible exact Side.refl _ _ | with_reducible assumption | with_reducible refine Keeps.lift ?_
    | with_reducible refine Keeps.ite ?_ ?_ | with_reducible refine Rest.when ?_ ?_ | with_reducible refine Rest.iteS ?_ ?_
    | with_reducible refine Rest.ite ?_ ?_ | with_reducible refine Rest.set_run (by decide) ?_ _ | dsimp only | split | intro _

theorem execPermitJoinTimeout_keeps {h : Half} {s : State} : Keeps [.own, .run, .evt, .vlv, .lsw, .can, .pwr, .dsp, .reg 0x100018, .reg 0x30010C, .reg 0x500028, .reg 0x500080, .reg 0x600024, .reg 0x600030, .reg 0x700080, .reg 0x900030, .reg 0x900044, .reg 0xB00018, .reg 0xF00018, .reg 0x1000020, .reg 0x1000044] (execPermitJoinTimeout h s) s := by
  unfold execPermitJoinTimeout
  try dsimp only
  repeat' first
    | with_reducible exact Rest.refl _ _ | with_reducible exact Side.refl _ _ | with_reducible assumption | with_reducible refine Keeps.next ?_ ?_
    | with_reducible refine Side.when ?_ ?_ | with_reducible refine State.fence_side (by decide) ?_ | with_reducible refine Side.ite ?_ ?_
    | with_reducible refine Side.set_w ?_ _ | with_reducible refine Keeps.ite ?_ ?_ | with_reducible refine Rest.when ?_ ?_
    | with_reducible refine Rest.whenS ?_ ?_ | with_reducible refine Rest.iteS ?_ ?_ | with_reducible refine State.fence_rest (by decide) ?_
    | with_reducible refine Rest.ite ?_ ?_ | dsimp only | split | intro _

theorem execSelfFence_keeps {h : Half} {s : State} : Keeps [.own, .run, .evt, .vlv, .lsw, .can, .pwr, .dsp, .reg 0x100018, .reg 0x30010C, .reg 0x500028, .reg 0x500080, .reg 0x600024, .reg 0x600030, .reg 0x700080, .reg 0x900030, .reg 0x900044, .reg 0xB00018, .reg 0xF00018, .reg 0x1000020, .reg 0x1000044] (execSelfFence h s) s := by
  unfold execSelfFence
  try dsimp only
  repeat' first
    | with_reducible exact Rest.refl _ _ | with_reducible exact Side.refl _ _ | with_reducible assumption | with_reducible refine Keeps.next ?_ ?_
    | with_reducible refine Side.onW ?_ | with_reducible refine Side.when ?_ ?_ | with_reducible refine State.hold_side (by decide) ?_
    | with_reducible refine Side.ite ?_ ?_ | with_reducible refine Side.set_w ?_ _ | with_reducible refine Keeps.ite ?_ ?_
    | with_reducible refine Rest.raise _ _ _ (by decide) ?_ | with_reducible refine Rest.when ?_ ?_ | with_reducible refine Rest.onW ?_ ?_
    | with_reducible refine Rest.whenS ?_ ?_ | with_reducible refine Rest.iteS ?_ ?_ | with_reducible refine State.hold_rest (by decide) ?_
    | with_reducible refine Rest.ite ?_ ?_ | with_reducible refine Rest.set_run (by decide) ?_ _ | dsimp only | split | intro _

theorem execCrossingLaneChange_keeps {h : Half} {lane dir : Nat} {up : Bool} {s : State} : Keeps [.evt, .xng, .reg 0x100018, .reg 0x300014, .reg 0xB00018] (execCrossingLaneChange h lane dir up s) s := by
  unfold execCrossingLaneChange
  try dsimp only
  repeat' first
    | with_reducible exact Rest.refl _ _ | with_reducible exact Side.refl _ _ | with_reducible assumption | with_reducible refine Keeps.next ?_ ?_
    | with_reducible refine Side.onW ?_ | with_reducible refine State.xngDown_side (by decide) ?_ | with_reducible refine Side.ite ?_ ?_
    | with_reducible refine Side.set_w ?_ _ | with_reducible refine Keeps.ite ?_ ?_ | with_reducible refine Rest.onW ?_ ?_
    | with_reducible refine Rest.iteS ?_ ?_ | with_reducible refine State.xngDown_rest (by decide) ?_
    | with_reducible refine World.laneSet_rest (by decide) ?_ | with_reducible refine Rest.ite ?_ ?_ | dsimp only | split | intro _

theorem execCrossingFrameReceived_keeps {h : Half} {ty seq len : Nat} {crcOk : Bool} {s : State} : Keeps [.evt, .xng, .reg 0x100018, .reg 0x30002C] (execCrossingFrameReceived h ty seq len crcOk s) s := by
  unfold execCrossingFrameReceived
  try dsimp only
  repeat' first
    | with_reducible exact Rest.refl _ _ | with_reducible exact Side.refl _ _ | with_reducible assumption | with_reducible refine Keeps.lift ?_
    | with_reducible refine Keeps.ite ?_ ?_ | with_reducible refine Rest.bump _ _ _ (by decide) ?_
    | with_reducible refine Rest.raise _ _ _ (by decide) ?_ | with_reducible refine Rest.when ?_ ?_ | with_reducible refine Rest.iteS ?_ ?_
    | with_reducible refine World.updXng_rest (by decide) ?_ | with_reducible refine World.xngGot_rest (by decide) ?_
    | with_reducible refine Rest.ite ?_ ?_ | dsimp only | split | intro _

theorem execRetransmissionRequest_keeps {h : Half} {ty seq : Nat} {s : State} : Keeps [.xng, .reg 0x30002C] (execRetransmissionRequest h ty seq s) s := by
  unfold execRetransmissionRequest
  try dsimp only
  repeat' first
    | with_reducible exact Rest.refl _ _ | with_reducible exact Side.refl _ _ | with_reducible assumption | with_reducible refine Keeps.lift ?_
    | with_reducible refine Keeps.ite ?_ ?_ | with_reducible refine Rest.bump _ _ _ (by decide) ?_ | with_reducible refine Rest.when ?_ ?_
    | with_reducible refine Rest.iteS ?_ ?_ | with_reducible refine World.updXng_rest (by decide) ?_ | with_reducible refine Rest.ite ?_ ?_
    | dsimp only | split | intro _

theorem execHbFrameSend_keeps {h : Half} {s : State} : Keeps [.xng] (execHbFrameSend h s) s := by
  unfold execHbFrameSend
  try dsimp only
  repeat' first
    | with_reducible exact Rest.refl _ _ | with_reducible exact Side.refl _ _ | with_reducible assumption | with_reducible refine Keeps.lift ?_
    | with_reducible refine Keeps.ite ?_ ?_ | with_reducible refine Rest.when ?_ ?_ | with_reducible refine Rest.iteS ?_ ?_
    | with_reducible refine World.updXng_rest (by decide) ?_ | with_reducible refine World.xngSent_rest (by decide) ?_
    | with_reducible refine Rest.ite ?_ ?_ | dsimp only | split | intro _

theorem execHbFrameReceived_keeps {h : Half} {s : State} : Keeps [.xng, .reg 0x300014, .reg 0x300018, .reg 0x30001C, .reg 0x300020, .reg 0x300024, .reg 0x300038] (execHbFrameReceived h s) s := by
  unfold execHbFrameReceived
  try dsimp only
  repeat' first
    | with_reducible exact Rest.refl _ _ | with_reducible exact Side.refl _ _ | with_reducible assumption | with_reducible refine Keeps.lift ?_
    | with_reducible refine Keeps.ite ?_ ?_ | with_reducible refine Rest.wr _ _ _ _ (by decide) ?_ | with_reducible refine Rest.iteS ?_ ?_
    | with_reducible refine World.updXng_rest (by decide) ?_ | with_reducible refine World.xngGot_rest (by decide) ?_
    | with_reducible refine Rest.ite ?_ ?_ | dsimp only | split | intro _

theorem execHbWindowExpiry_keeps {h : Half} {s : State} : Keeps [.evt, .xng, .reg 0x100018, .reg 0x300014] (execHbWindowExpiry h s) s := by
  unfold execHbWindowExpiry
  try dsimp only
  repeat' first
    | with_reducible exact Rest.refl _ _ | with_reducible exact Side.refl _ _ | with_reducible assumption | with_reducible refine Keeps.lift ?_
    | with_reducible refine Keeps.ite ?_ ?_ | with_reducible refine Rest.wr _ _ _ _ (by decide) ?_
    | with_reducible refine Rest.raise _ _ _ (by decide) ?_ | with_reducible refine Rest.when ?_ ?_ | with_reducible refine Rest.iteS ?_ ?_
    | with_reducible refine World.updXng_rest (by decide) ?_ | with_reducible refine Rest.ite ?_ ?_ | dsimp only | split | intro _

theorem execHeartbeatLossSample_keeps {h : Half} {s : State} : Keeps [.evt, .xng, .trk, .reg 0x100018, .reg 0x300014, .reg 0xB00018, .reg 0xE00014] (execHeartbeatLossSample h s) s := by
  unfold execHeartbeatLossSample
  try dsimp only
  repeat' first
    | with_reducible exact Rest.refl _ _ | with_reducible exact Side.refl _ _ | with_reducible assumption | with_reducible refine Keeps.next ?_ ?_
    | with_reducible refine Side.onW ?_ | with_reducible refine Side.when ?_ ?_ | with_reducible refine Side.ite ?_ ?_
    | with_reducible refine Side.set_w ?_ _ | with_reducible refine Keeps.ite ?_ ?_ | with_reducible refine Rest.wr _ _ _ _ (by decide) ?_
    | with_reducible refine Rest.raise _ _ _ (by decide) ?_ | with_reducible refine Rest.when ?_ ?_ | with_reducible refine Rest.onW ?_ ?_
    | with_reducible refine Rest.whenS ?_ ?_ | with_reducible refine Rest.iteS ?_ ?_ | with_reducible refine World.engines_rest (by decide) ?_
    | with_reducible refine World.trkSplit_rest (by decide) ?_ | with_reducible refine World.updXng_rest (by decide) ?_
    | with_reducible refine Rest.ite ?_ ?_ | dsimp only | split | intro _

theorem execCrossingUp_keeps {h : Half} {s : State} : Keeps [.evt, .xng, .dram, .trk, .reg 0x100018, .reg 0x300014, .reg 0xB00018, .reg 0xE00014, .reg 0xE00018, .reg 0xE0001C, .reg 0xE00020, .reg 0xE00024] (execCrossingUp h s) s := by
  unfold execCrossingUp
  try dsimp only
  repeat' first
    | with_reducible exact Rest.refl _ _ | with_reducible exact Side.refl _ _ | with_reducible assumption | with_reducible refine Keeps.next ?_ ?_
    | with_reducible refine Side.onW ?_ | with_reducible refine Side.when ?_ ?_ | with_reducible refine Side.ite ?_ ?_
    | with_reducible refine Side.set_w ?_ _ | with_reducible refine Keeps.ite ?_ ?_ | with_reducible refine Rest.wr _ _ _ _ (by decide) ?_
    | with_reducible refine Rest.raise _ _ _ (by decide) ?_ | with_reducible refine Rest.when ?_ ?_ | with_reducible refine Rest.onW ?_ ?_
    | with_reducible refine Rest.whenS ?_ ?_ | with_reducible refine Rest.iteS ?_ ?_ | with_reducible refine World.engines_rest (by decide) ?_
    | with_reducible refine World.trkJoin_rest (by decide) ?_ | with_reducible refine World.updXng_rest (by decide) ?_
    | with_reducible refine Rest.ite ?_ ?_ | dsimp only | split | intro _

theorem execXngEnable_keeps {h : Half} {init v : Nat} {s : State} : Keeps [.evt, .xng, .reg 0x100018, .reg 0x300010, .reg 0x300014, .reg 0xB00018] (execXngEnable h init v s) s := by
  unfold execXngEnable
  try dsimp only
  repeat' first
    | with_reducible exact Rest.refl _ _ | with_reducible exact Side.refl _ _ | with_reducible assumption | with_reducible refine Keeps.next ?_ ?_
    | with_reducible refine Side.onW ?_ | with_reducible refine Side.when ?_ ?_ | with_reducible refine State.allLanesDown_side (by decide) ?_
    | with_reducible refine Side.ite ?_ ?_ | with_reducible refine Side.set_w ?_ _ | with_reducible refine Keeps.ite ?_ ?_
    | with_reducible refine Rest.wr _ _ _ _ (by decide) ?_ | with_reducible refine Rest.when ?_ ?_ | with_reducible refine Rest.onW ?_ ?_
    | with_reducible refine Rest.whenS ?_ ?_ | with_reducible refine Rest.iteS ?_ ?_ | with_reducible refine State.allLanesDown_rest (by decide) ?_
    | with_reducible refine Rest.ite ?_ ?_ | dsimp only | split | intro _

theorem execXngLoopback_keeps {h : Half} {init v : Nat} {s : State} : Keeps [.evt, .xng, .reg 0x100018, .reg 0x300010, .reg 0x300014, .reg 0xB00018] (execXngLoopback h init v s) s := by
  unfold execXngLoopback
  try dsimp only
  repeat' first
    | with_reducible exact Rest.refl _ _ | with_reducible exact Side.refl _ _ | with_reducible assumption | with_reducible refine Keeps.next ?_ ?_
    | with_reducible refine Side.onW ?_ | with_reducible refine Side.when ?_ ?_ | with_reducible refine State.allLanesDown_side (by decide) ?_
    | with_reducible refine Side.ite ?_ ?_ | with_reducible refine Side.set_w ?_ _ | with_reducible refine Keeps.ite ?_ ?_
    | with_reducible refine Rest.wr _ _ _ _ (by decide) ?_ | with_reducible refine Rest.when ?_ ?_ | with_reducible refine Rest.onW ?_ ?_
    | with_reducible refine Rest.whenS ?_ ?_ | with_reducible refine Rest.iteS ?_ ?_ | with_reducible refine State.allLanesDown_rest (by decide) ?_
    | with_reducible refine Rest.ite ?_ ?_ | dsimp only | split | intro _

theorem execXngClrCnt_keeps {h : Half} {init : Nat} {s : State} : Keeps [.reg 0x30002C] (execXngClrCnt h init s) s := by
  unfold execXngClrCnt
  try dsimp only
  repeat' first
    | with_reducible exact Rest.refl _ _ | with_reducible exact Side.refl _ _ | with_reducible assumption | with_reducible refine Keeps.lift ?_
    | with_reducible refine Keeps.ite ?_ ?_ | with_reducible refine Rest.setReg _ _ _ _ (by decide) ?_ | with_reducible refine Rest.iteS ?_ ?_
    | with_reducible refine Rest.ite ?_ ?_ | dsimp only | split | intro _

theorem execTsyExchange_keeps {h : Half} {t1 t2 t3 t4 : Int} {s : State} : Keeps [.evt, .xng, .tim, .reg 0x100018, .reg 0x300014, .reg 0x300028] (execTsyExchange h t1 t2 t3 t4 s) s := by
  unfold execTsyExchange
  try dsimp only
  repeat' first
    | with_reducible exact Rest.refl _ _ | with_reducible exact Side.refl _ _ | with_reducible assumption | with_reducible refine Keeps.lift ?_
    | with_reducible refine Keeps.ite ?_ ?_ | with_reducible refine Rest.wr _ _ _ _ (by decide) ?_
    | with_reducible refine Rest.wrI _ _ _ _ (by decide) ?_ | with_reducible refine Rest.when ?_ ?_ | with_reducible refine Rest.iteS ?_ ?_
    | with_reducible refine World.tsyncLost_rest (by decide) ?_ | with_reducible refine World.updTim_rest (by decide) ?_
    | with_reducible refine World.updXng_rest (by decide) ?_ | with_reducible refine World.xngSent_rest (by decide) ?_
    | with_reducible refine Rest.ite ?_ ?_ | dsimp only | split | intro _

theorem execTsyncTimeout_keeps {h : Half} {s : State} : Keeps [.evt, .xng, .reg 0x100018, .reg 0x300014] (execTsyncTimeout h s) s := by
  unfold execTsyncTimeout
  try dsimp only
  repeat' first
    | with_reducible exact Rest.refl _ _ | with_reducible exact Side.refl _ _ | with_reducible assumption | with_reducible refine Keeps.lift ?_
    | with_reducible refine Keeps.ite ?_ ?_ | with_reducible refine Rest.when ?_ ?_ | with_reducible refine Rest.iteS ?_ ?_
    | with_reducible refine World.tsyncLost_rest (by decide) ?_ | with_reducible refine Rest.ite ?_ ?_ | dsimp only | split | intro _

theorem execMirrorRecordReceived_keeps {h : Half} {k n : Nat} {full : Bool} {s : State} : Keeps [.evt, .xng, .set, .opt, .flx, .reg 0x400018, .reg 0x400040, .reg 0x400044, .reg 0x400048, .reg 0x40004C, .reg 0x400050, .reg 0x400280, .reg 0x400300, .reg 0x400380, .reg 0x400400, .reg 0x400500, .reg 0x400504, .reg 0x400508, .reg 0x40050C, .reg 0x400510, .reg 0x400514, .reg 0x400518, .reg 0x40051C, .reg 0xA00108] (execMirrorRecordReceived h k n full s) s := by
  unfold execMirrorRecordReceived
  try dsimp only
  repeat' first
    | with_reducible exact Rest.refl _ _ | with_reducible exact Side.refl _ _ | with_reducible assumption | with_reducible refine Keeps.lift ?_
    | with_reducible refine Keeps.ite ?_ ?_ | with_reducible refine Rest.iteS ?_ ?_ | with_reducible refine World.takeClass_rest (by decide) ?_
    | with_reducible refine World.takeFn_rest (by decide) ?_ | with_reducible refine World.updXng_rest (by decide) ?_
    | with_reducible refine World.xngSent_rest (by decide) ?_ | with_reducible refine Rest.ite ?_ ?_ | dsimp only | split | intro _

theorem execMirrorLagExceeded_keeps {h : Half} {k : Nat} {s : State} : Keeps [.evt, .xng, .reg 0x100018, .reg 0x300030] (execMirrorLagExceeded h k s) s := by
  unfold execMirrorLagExceeded
  try dsimp only
  repeat' first
    | with_reducible exact Rest.refl _ _ | with_reducible exact Side.refl _ _ | with_reducible assumption | with_reducible refine Keeps.lift ?_
    | with_reducible refine Keeps.ite ?_ ?_ | with_reducible refine Rest.wr _ _ _ _ (by decide) ?_
    | with_reducible refine Rest.raise _ _ _ (by decide) ?_ | with_reducible refine Rest.when ?_ ?_ | with_reducible refine Rest.iteS ?_ ?_
    | with_reducible refine World.updXng_rest (by decide) ?_ | with_reducible refine Rest.ite ?_ ?_ | dsimp only | split | intro _

theorem execMirrorRefresh_keeps {h : Half} {k : Nat} {s : State} : Keeps [.evt, .xng, .opt, .flx, .reg 0x400018, .reg 0x400500, .reg 0x400504, .reg 0x400508, .reg 0x40050C, .reg 0x400510, .reg 0x400514, .reg 0x400518, .reg 0x40051C, .reg 0xA00108] (execMirrorRefresh h k s) s := by
  unfold execMirrorRefresh
  try dsimp only
  repeat' first
    | with_reducible exact Rest.refl _ _ | with_reducible exact Side.refl _ _ | with_reducible assumption | with_reducible refine Keeps.lift ?_
    | with_reducible refine Keeps.ite ?_ ?_ | with_reducible refine Rest.when ?_ ?_ | with_reducible refine Rest.iteS ?_ ?_
    | with_reducible refine World.takeClass_rest (by decide) ?_ | with_reducible refine World.updXng_rest (by decide) ?_
    | with_reducible refine World.xngSent_rest (by decide) ?_ | with_reducible refine Rest.ite ?_ ?_ | dsimp only | split | intro _

theorem execUpdOpen_keeps {h : Half} {r : Nat} {net : Option UpdOpen} {s : State} : Keeps [.fresh, .evt, .upd, .reg 0x100018, .reg 0x1100028, .reg 0x110002C, .reg 0x1100040, .reg 0x11000C0] (execUpdOpen h r net s) s := by
  unfold execUpdOpen
  try dsimp only
  repeat' first
    | with_reducible exact Rest.refl _ _ | with_reducible exact Side.refl _ _ | with_reducible assumption | with_reducible refine Keeps.next ?_ ?_
    | with_reducible refine Side.when ?_ ?_ | with_reducible refine State.upOpen_side (by decide) ?_ | with_reducible refine Side.ite ?_ ?_
    | with_reducible refine Side.set_w ?_ _ | with_reducible refine Keeps.ite ?_ ?_ | with_reducible refine Rest.when ?_ ?_
    | with_reducible refine Rest.whenS ?_ ?_ | with_reducible refine Rest.iteS ?_ ?_ | with_reducible refine State.upOpen_rest (by decide) ?_
    | with_reducible refine Rest.ite ?_ ?_ | dsimp only | split | intro _

theorem execUpdBlock_keeps {h : Half} {r : Nat} {net : Option (List Byte)} {s : State} : Keeps [.own, .evt, .roast, .upd, .dsp, .reg 0x80, .reg 0x100018, .reg 0x30010C, .reg 0xF00018, .reg 0x1100028, .reg 0x1100040, .reg 0x1100060, .reg 0x1100080, .reg 0x11000C0] (execUpdBlock h r net s) s := by
  unfold execUpdBlock
  try dsimp only
  repeat' first
    | with_reducible exact Rest.refl _ _ | with_reducible exact Side.refl _ _ | with_reducible assumption | with_reducible refine Keeps.next ?_ ?_
    | with_reducible refine Side.when ?_ ?_ | with_reducible refine State.upBlock_side (by decide) ?_ | with_reducible refine Side.ite ?_ ?_
    | with_reducible refine Side.set_w ?_ _ | with_reducible refine Keeps.ite ?_ ?_ | with_reducible refine Rest.when ?_ ?_
    | with_reducible refine Rest.whenS ?_ ?_ | with_reducible refine Rest.iteS ?_ ?_ | with_reducible refine State.upBlock_rest (by decide) ?_
    | with_reducible refine Rest.ite ?_ ?_ | dsimp only | split | intro _

theorem execUpdClose_keeps {h : Half} {r : Nat} {net : Bool} {s : State} : Keeps [.upd, .reg 0x1100028, .reg 0x1100040] (execUpdClose h r net s) s := by
  unfold execUpdClose
  try dsimp only
  repeat' first
    | with_reducible exact Rest.refl _ _ | with_reducible exact Side.refl _ _ | with_reducible assumption | with_reducible refine Keeps.lift ?_
    | with_reducible refine Keeps.ite ?_ ?_ | with_reducible refine Rest.wr _ _ _ _ (by decide) ?_ | with_reducible refine Rest.when ?_ ?_
    | with_reducible refine Rest.iteS ?_ ?_ | with_reducible refine World.updRes_rest (by decide) ?_
    | with_reducible refine World.updSess_rest (by decide) ?_ | with_reducible refine Rest.ite ?_ ?_ | dsimp only | split | intro _

theorem execUpdCheckComplete_keeps {h : Half} {r : Nat} {s : State} : Keeps [.evt, .roast, .upd, .reg 0x80, .reg 0x100018, .reg 0x1100028, .reg 0x1100040, .reg 0x1100060, .reg 0x1100080, .reg 0x11000C0, .reg 0x1400018, .reg 0x1400020, .reg 0x1400030, .reg 0x1400040, .reg 0x1400080] (execUpdCheckComplete h r s) s := by
  unfold execUpdCheckComplete
  try dsimp only
  repeat' first
    | with_reducible exact Rest.refl _ _ | with_reducible exact Side.refl _ _ | with_reducible assumption | with_reducible refine Keeps.lift ?_
    | with_reducible refine Keeps.ite ?_ ?_ | with_reducible refine Rest.when ?_ ?_ | with_reducible refine Rest.iteS ?_ ?_
    | with_reducible refine World.checked_rest (by decide) ?_ | with_reducible refine Rest.ite ?_ ?_ | dsimp only | split | intro _

theorem execUpdAbort_keeps {h : Half} {r : Nat} {net : Bool} {s : State} : Keeps [.evt, .upd, .reg 0x80, .reg 0x100018, .reg 0x1100028, .reg 0x1100040, .reg 0x11000C0] (execUpdAbort h r net s) s := by
  unfold execUpdAbort
  try dsimp only
  repeat' first
    | with_reducible exact Rest.refl _ _ | with_reducible exact Side.refl _ _ | with_reducible assumption | with_reducible refine Keeps.lift ?_
    | with_reducible refine Keeps.ite ?_ ?_ | with_reducible refine Rest.when ?_ ?_ | with_reducible refine Rest.iteS ?_ ?_
    | with_reducible refine World.knockSess_rest (by decide) ?_ | with_reducible refine Rest.ite ?_ ?_ | dsimp only | split | intro _

theorem execUpdSessionTimeout_keeps {h : Half} {r : Nat} {s : State} : Keeps [.evt, .upd, .reg 0x80, .reg 0x100018, .reg 0x1100028, .reg 0x1100040, .reg 0x11000C0] (execUpdSessionTimeout h r s) s := by
  unfold execUpdSessionTimeout
  try dsimp only
  repeat' first
    | with_reducible exact Rest.refl _ _ | with_reducible exact Side.refl _ _ | with_reducible assumption | with_reducible refine Keeps.lift ?_
    | with_reducible refine Keeps.ite ?_ ?_ | with_reducible refine Rest.when ?_ ?_ | with_reducible refine Rest.iteS ?_ ?_
    | with_reducible refine World.knockSess_rest (by decide) ?_ | with_reducible refine Rest.ite ?_ ?_ | dsimp only | split | intro _

theorem execUpdClrCnt_keeps {h : Half} {init : Nat} {s : State} : Keeps [.reg 0x11000C0] (execUpdClrCnt h init s) s := by
  unfold execUpdClrCnt
  try dsimp only
  repeat' first
    | with_reducible exact Rest.refl _ _ | with_reducible exact Side.refl _ _ | with_reducible assumption | with_reducible refine Keeps.lift ?_
    | with_reducible refine Keeps.ite ?_ ?_ | with_reducible refine Rest.setReg _ _ _ _ (by decide) ?_ | with_reducible refine Rest.iteS ?_ ?_
    | with_reducible refine Rest.ite ?_ ?_ | dsimp only | split | intro _

theorem execSiblingRestore_keeps {h : Half} {r : Nat} {s : State} : Keeps [.own, .fresh, .evt, .upd, .dsp, .reg 0x80, .reg 0x100018, .reg 0x30010C, .reg 0xF00018, .reg 0x1100028, .reg 0x110002C, .reg 0x1100040, .reg 0x1100060, .reg 0x1100080, .reg 0x11000C0] (execSiblingRestore h r s) s := by
  unfold execSiblingRestore
  try dsimp only
  repeat' first
    | with_reducible exact Rest.refl _ _ | with_reducible exact Side.refl _ _ | with_reducible assumption | with_reducible refine Keeps.next ?_ ?_
    | with_reducible refine Side.onW ?_ | with_reducible refine Side.when ?_ ?_ | with_reducible refine State.leaveForUpdate_side (by decide) ?_
    | with_reducible refine Side.ite ?_ ?_ | with_reducible refine Side.set_w ?_ _ | with_reducible refine Keeps.ite ?_ ?_
    | with_reducible refine Rest.raise _ _ _ (by decide) ?_ | with_reducible refine Rest.when ?_ ?_ | with_reducible refine Rest.onW ?_ ?_
    | with_reducible refine Rest.whenS ?_ ?_ | with_reducible refine Rest.iteS ?_ ?_ | with_reducible refine State.leaveForUpdate_rest (by decide) ?_
    | with_reducible refine World.openFails_rest (by decide) ?_ | with_reducible refine World.openTakes_rest (by decide) ?_
    | with_reducible refine World.restored_rest (by decide) ?_ | with_reducible refine Rest.ite ?_ ?_ | dsimp only | split | intro _

theorem execDebugUnlock_keeps {h : Half} {s : State} : Keeps [.own, .fresh, .run, .evt, .vlv, .lsw, .can, .upd, .pwr, .dsp, .reg 0x100018, .reg 0x30010C, .reg 0x500028, .reg 0x500080, .reg 0x600024, .reg 0x600030, .reg 0x700080, .reg 0x900030, .reg 0x900044, .reg 0xB00018, .reg 0xF00018, .reg 0x1000020, .reg 0x1000044, .reg 0x1400018, .reg 0x1400020, .reg 0x140002C] (execDebugUnlock h s) s := by
  unfold execDebugUnlock
  try dsimp only
  repeat' first
    | with_reducible exact Rest.refl _ _ | with_reducible exact Side.refl _ _ | with_reducible assumption | with_reducible refine Keeps.next ?_ ?_
    | with_reducible refine Side.onW ?_ | with_reducible refine Side.when ?_ ?_ | with_reducible refine State.fence_side (by decide) ?_
    | with_reducible refine State.handoverAllNow_side (by decide) ?_ | with_reducible refine Side.ite ?_ ?_ | with_reducible refine Side.set_w ?_ _
    | with_reducible refine Keeps.ite ?_ ?_ | with_reducible refine Rest.wr _ _ _ _ (by decide) ?_
    | with_reducible refine Rest.raise _ _ _ (by decide) ?_ | with_reducible refine Rest.when ?_ ?_ | with_reducible refine Rest.onW ?_ ?_
    | with_reducible refine Rest.whenS ?_ ?_ | with_reducible refine Rest.iteS ?_ ?_ | with_reducible refine State.fence_rest (by decide) ?_
    | with_reducible refine State.handoverAllNow_rest (by decide) ?_ | with_reducible refine World.drawNonce_rest (by decide) ?_
    | with_reducible refine World.updUpd_rest (by decide) ?_ | with_reducible refine Rest.ite ?_ ?_ | dsimp only | split | intro _

theorem execDebugExpiry_keeps {h : Half} {s : State} : Keeps [.own, .run, .evt, .vlv, .lsw, .can, .upd, .pwr, .dsp, .reg 0x100018, .reg 0x30010C, .reg 0x500028, .reg 0x500080, .reg 0x600024, .reg 0x600030, .reg 0x700080, .reg 0x900030, .reg 0x900044, .reg 0xB00018, .reg 0xF00018, .reg 0x1000020, .reg 0x1000044, .reg 0x1400018] (execDebugExpiry h s) s := by
  unfold execDebugExpiry
  try dsimp only
  repeat' first
    | with_reducible exact Rest.refl _ _ | with_reducible exact Side.refl _ _ | with_reducible assumption | with_reducible refine Keeps.next ?_ ?_
    | with_reducible refine Side.onW ?_ | with_reducible refine Side.when ?_ ?_ | with_reducible refine State.hold_side (by decide) ?_
    | with_reducible refine Side.ite ?_ ?_ | with_reducible refine Side.set_w ?_ _ | with_reducible refine Keeps.ite ?_ ?_
    | with_reducible refine Rest.wr _ _ _ _ (by decide) ?_ | with_reducible refine Rest.raise _ _ _ (by decide) ?_
    | with_reducible refine Rest.when ?_ ?_ | with_reducible refine Rest.onW ?_ ?_ | with_reducible refine Rest.whenS ?_ ?_
    | with_reducible refine Rest.iteS ?_ ?_ | with_reducible refine State.hold_rest (by decide) ?_
    | with_reducible refine World.updUpd_rest (by decide) ?_ | with_reducible refine Rest.ite ?_ ?_ | dsimp only | split | intro _

theorem execLedgerRestore_keeps {h : Half} {init mask : Nat} {f : List Byte} {s : State} : Keeps [.ledger, .cal, .reg 0x120002C] (execLedgerRestore h init mask f s) s := by
  unfold execLedgerRestore
  try dsimp only
  repeat' first
    | with_reducible exact Rest.refl _ _ | with_reducible exact Side.refl _ _ | with_reducible assumption | with_reducible refine Keeps.next ?_ ?_
    | with_reducible refine restoreLedger_side (by decide) ?_ | with_reducible refine Side.ite ?_ ?_ | with_reducible refine Side.set_w ?_ _
    | with_reducible refine Keeps.ite ?_ ?_ | with_reducible refine restoreLedger_rest (by decide) ?_ | with_reducible refine Rest.iteS ?_ ?_
    | with_reducible refine Rest.ite ?_ ?_ | dsimp only | split | intro _

theorem execEthLink_keeps {k speed : Nat} {master : Bool} {s : State} : Keeps [.evt, .reg 0x100018, .reg 0xA00040] (execEthLink k speed master s) s := by
  unfold execEthLink
  try dsimp only
  repeat' first
    | with_reducible exact Rest.refl _ _ | with_reducible exact Side.refl _ _ | with_reducible assumption | with_reducible refine Keeps.lift ?_
    | with_reducible refine Keeps.ite ?_ ?_ | with_reducible refine Rest.raise _ _ _ (by decide) ?_
    | with_reducible refine Rest.raiseBoth _ _ (by decide) ?_ | with_reducible refine Rest.when ?_ ?_ | with_reducible refine Rest.iteS ?_ ?_
    | with_reducible refine World.showLink_rest (by decide) ?_ | with_reducible refine Rest.ite ?_ ?_ | dsimp only | split | intro _

theorem execGmForeignAnnounce_keeps {h : Half} {k : Nat} {s : State} : Keeps [.evt, .flx, .reg 0x100018, .reg 0xA00074] (execGmForeignAnnounce h k s) s := by
  unfold execGmForeignAnnounce
  try dsimp only
  repeat' first
    | with_reducible exact Rest.refl _ _ | with_reducible exact Side.refl _ _ | with_reducible assumption | with_reducible refine Keeps.lift ?_
    | with_reducible refine Keeps.ite ?_ ?_ | with_reducible refine Rest.bump _ _ _ (by decide) ?_
    | with_reducible refine Rest.raise _ _ _ (by decide) ?_ | with_reducible refine Rest.when ?_ ?_ | with_reducible refine Rest.iteS ?_ ?_
    | with_reducible refine World.updFlx_rest (by decide) ?_ | with_reducible refine Rest.ite ?_ ?_ | dsimp only | split | intro _

theorem execEthClrCnt_keeps {h : Half} {init : Nat} {s : State} : Keeps [.reg 0xA00040, .reg 0xA00074, .reg 0xA00114] (execEthClrCnt h init s) s := by
  unfold execEthClrCnt
  try dsimp only
  repeat' first
    | with_reducible exact Rest.refl _ _ | with_reducible exact Side.refl _ _ | with_reducible assumption | with_reducible refine Keeps.lift ?_
    | with_reducible refine Keeps.ite ?_ ?_ | with_reducible refine Rest.setReg _ _ _ _ (by decide) ?_
    | with_reducible refine Rest.wr _ _ _ _ (by decide) ?_ | with_reducible refine Rest.forAll ?_ ?_ | with_reducible refine Rest.iteS ?_ ?_
    | with_reducible refine Rest.ite ?_ ?_ | dsimp only | split | intro _

theorem execFlxOpen_keeps {h : Half} {k port : Nat} {s : State} : Keeps [.flx, .reg 0xA00140] (execFlxOpen h k port s) s := by
  unfold execFlxOpen
  try dsimp only
  repeat' first
    | with_reducible exact Rest.refl _ _ | with_reducible exact Side.refl _ _ | with_reducible assumption | with_reducible refine Keeps.lift ?_
    | with_reducible refine Keeps.ite ?_ ?_ | with_reducible refine Rest.when ?_ ?_ | with_reducible refine Rest.iteS ?_ ?_
    | with_reducible refine World.flxConnect_rest (by decide) ?_ | with_reducible refine Rest.ite ?_ ?_ | dsimp only | split | intro _

theorem execFlxClose_keeps {h : Half} {k : Nat} {s : State} : Keeps [.evt, .flx, .reg 0x100018, .reg 0xA00104, .reg 0xA00108, .reg 0xA0010C, .reg 0xA00140] (execFlxClose h k s) s := by
  unfold execFlxClose
  try dsimp only
  repeat' first
    | with_reducible exact Rest.refl _ _ | with_reducible exact Side.refl _ _ | with_reducible assumption | with_reducible refine Keeps.lift ?_
    | with_reducible refine Keeps.ite ?_ ?_ | with_reducible refine Rest.when ?_ ?_ | with_reducible refine Rest.iteS ?_ ?_
    | with_reducible refine World.flxClose_rest (by decide) ?_ | with_reducible refine Rest.ite ?_ ?_ | dsimp only | split | intro _

theorem execFlxAccept_keeps {h : Half} {c ip : Nat} {s : State} : Keeps [.flx] (execFlxAccept h c ip s) s := by
  unfold execFlxAccept
  try dsimp only
  repeat' first
    | with_reducible exact Rest.refl _ _ | with_reducible exact Side.refl _ _ | with_reducible assumption | with_reducible refine Keeps.lift ?_
    | with_reducible refine Keeps.ite ?_ ?_ | with_reducible refine Rest.when ?_ ?_ | with_reducible refine Rest.iteS ?_ ?_
    | with_reducible refine World.updFlx_rest (by decide) ?_ | with_reducible refine Rest.ite ?_ ?_ | dsimp only | split | intro _

theorem execFlxHandshakeComplete_keeps {h : Half} {client : Bool} {k anchor : Nat} {inPeriod : Bool} {serial : List Byte} {s : State} : Keeps [.evt, .flx, .reg 0x100018, .reg 0xA00104, .reg 0xA00108, .reg 0xA0010C, .reg 0xA00114, .reg 0xA00140] (execFlxHandshakeComplete h client k anchor inPeriod serial s) s := by
  unfold execFlxHandshakeComplete
  try dsimp only
  repeat' first
    | with_reducible exact Rest.refl _ _ | with_reducible exact Side.refl _ _ | with_reducible assumption | with_reducible refine Keeps.lift ?_
    | with_reducible refine Keeps.ite ?_ ?_ | with_reducible refine Rest.wr _ _ _ _ (by decide) ?_ | with_reducible refine Rest.when ?_ ?_
    | with_reducible refine Rest.iteS ?_ ?_ | with_reducible refine World.flxAuth_rest (by decide) ?_
    | with_reducible refine World.flxClose_rest (by decide) ?_ | with_reducible refine World.flxSend_rest (by decide) ?_
    | with_reducible refine World.setFsess_rest (by decide) ?_ | with_reducible refine World.updFlx_rest (by decide) ?_
    | with_reducible refine Rest.ite ?_ ?_ | dsimp only | split | intro _

theorem execHello_keeps {h : Half} {client : Bool} {k role ver : Nat} {dev : List Byte} {s : State} : Keeps [.evt, .flx, .reg 0x100018, .reg 0xA00104, .reg 0xA00108, .reg 0xA0010C, .reg 0xA00114, .reg 0xA00140] (execHello h client k role ver dev s) s := by
  unfold execHello
  try dsimp only
  repeat' first
    | with_reducible exact Rest.refl _ _ | with_reducible exact Side.refl _ _ | with_reducible assumption | with_reducible refine Keeps.lift ?_
    | with_reducible refine Keeps.ite ?_ ?_ | with_reducible refine Rest.when ?_ ?_ | with_reducible refine Rest.iteS ?_ ?_
    | with_reducible refine World.flxHello_rest (by decide) ?_ | with_reducible refine Rest.ite ?_ ?_ | dsimp only | split | intro _

theorem execFlxMessageReceived_keeps {h : Half} {k ty seq ack : Nat} {p : List Byte} {s : State} : Keeps [.evt, .gns, .flx, .reg 0x100018, .reg 0xA00104, .reg 0xA00108, .reg 0xA0010C, .reg 0xA00140, .reg 0xB00018, .reg 0xB0008C] (execFlxMessageReceived h k ty seq ack p s) s := by
  unfold execFlxMessageReceived
  try dsimp only
  repeat' first
    | with_reducible exact Rest.refl _ _ | with_reducible exact Side.refl _ _ | with_reducible assumption | with_reducible exact State.flxGot_keeps
    | with_reducible refine Keeps.ite ?_ ?_ | with_reducible refine Rest.iteS ?_ ?_ | with_reducible refine Rest.ite ?_ ?_ | dsimp only | split
    | intro _

theorem execRtcm_keeps {h : Half} {seq ack : Nat} {frame : List Byte} {s : State} : Keeps [.evt, .gns, .flx, .reg 0x100018, .reg 0xA00104, .reg 0xA00108, .reg 0xA0010C, .reg 0xA00140, .reg 0xB00018, .reg 0xB0008C] (execRtcm h seq ack frame s) s := by
  unfold execRtcm
  try dsimp only
  repeat' first
    | with_reducible exact Rest.refl _ _ | with_reducible exact Side.refl _ _ | with_reducible assumption | with_reducible exact State.flxGot_keeps
    | with_reducible refine Keeps.ite ?_ ?_ | with_reducible refine Rest.iteS ?_ ?_ | with_reducible refine Rest.ite ?_ ?_ | dsimp only | split
    | intro _

theorem execCartState_keeps {h : Half} {k seq ack : Nat} {p : List Byte} {s : State} : Keeps [.evt, .gns, .flx, .reg 0x100018, .reg 0xA00104, .reg 0xA00108, .reg 0xA0010C, .reg 0xA00140, .reg 0xB00018, .reg 0xB0008C] (execCartState h k seq ack p s) s := by
  unfold execCartState
  try dsimp only
  repeat' first
    | with_reducible exact Rest.refl _ _ | with_reducible exact Side.refl _ _ | with_reducible assumption | with_reducible exact State.flxGot_keeps
    | with_reducible refine Keeps.ite ?_ ?_ | with_reducible refine Rest.iteS ?_ ?_ | with_reducible refine Rest.ite ?_ ?_ | dsimp only | split
    | intro _

theorem execFlxHeartbeatSend_keeps {h : Half} {k : Nat} {s : State} : Keeps [.flx] (execFlxHeartbeatSend h k s) s := by
  unfold execFlxHeartbeatSend
  try dsimp only
  repeat' first
    | with_reducible exact Rest.refl _ _ | with_reducible exact Side.refl _ _ | with_reducible assumption | with_reducible refine Keeps.lift ?_
    | with_reducible refine Keeps.ite ?_ ?_ | with_reducible refine Rest.when ?_ ?_ | with_reducible refine Rest.iteS ?_ ?_
    | with_reducible refine World.flxSend_rest (by decide) ?_ | with_reducible refine Rest.ite ?_ ?_ | dsimp only | split | intro _

theorem execFlxSessionTimeout_keeps {h : Half} {k : Nat} {s : State} : Keeps [.evt, .flx, .reg 0x100018, .reg 0xA00104, .reg 0xA00108, .reg 0xA0010C, .reg 0xA00114, .reg 0xA00140] (execFlxSessionTimeout h k s) s := by
  unfold execFlxSessionTimeout
  try dsimp only
  repeat' first
    | with_reducible exact Rest.refl _ _ | with_reducible exact Side.refl _ _ | with_reducible assumption | with_reducible refine Keeps.lift ?_
    | with_reducible refine Keeps.ite ?_ ?_ | with_reducible refine Rest.bump _ _ _ (by decide) ?_ | with_reducible refine Rest.when ?_ ?_
    | with_reducible refine Rest.iteS ?_ ?_ | with_reducible refine World.flxClose_rest (by decide) ?_ | with_reducible refine Rest.ite ?_ ?_
    | dsimp only | split | intro _

theorem execFlxKeyUpdate_keeps {h : Half} {k : Nat} {s : State} : Keeps [.flx] (execFlxKeyUpdate h k s) s := by
  unfold execFlxKeyUpdate
  try dsimp only
  repeat' first
    | with_reducible exact Rest.refl _ _ | with_reducible exact Side.refl _ _ | with_reducible assumption | with_reducible refine Keeps.lift ?_
    | with_reducible refine Keeps.ite ?_ ?_ | with_reducible refine Rest.when ?_ ?_ | with_reducible refine Rest.iteS ?_ ?_
    | with_reducible refine World.setFsess_rest (by decide) ?_ | with_reducible refine Rest.ite ?_ ?_ | dsimp only | split | intro _

theorem execStatus_keeps {h : Half} {s : State} : Keeps [.flx] (execStatus h s) s := by
  unfold execStatus
  try dsimp only
  repeat' first
    | with_reducible exact Rest.refl _ _ | with_reducible exact Side.refl _ _ | with_reducible assumption | with_reducible refine Keeps.lift ?_
    | with_reducible refine Keeps.ite ?_ ?_ | with_reducible refine Rest.when ?_ ?_ | with_reducible refine Rest.forAll ?_ ?_
    | with_reducible refine Rest.iteS ?_ ?_ | with_reducible refine World.flxSend_rest (by decide) ?_ | with_reducible refine Rest.ite ?_ ?_
    | dsimp only | split | intro _

theorem execCartSync_keeps {h : Half} {s : State} : Keeps [.evt, .flx, .reg 0x100018, .reg 0xA00108, .reg 0xA0010C] (execCartSync h s) s := by
  unfold execCartSync
  try dsimp only
  repeat' first
    | with_reducible exact Rest.refl _ _ | with_reducible exact Side.refl _ _ | with_reducible assumption | with_reducible refine Keeps.lift ?_
    | with_reducible refine Keeps.ite ?_ ?_ | with_reducible refine Rest.when ?_ ?_ | with_reducible refine Rest.forAll ?_ ?_
    | with_reducible refine Rest.iteS ?_ ?_ | with_reducible refine World.cartChoose_rest (by decide) ?_
    | with_reducible refine World.flxSend_rest (by decide) ?_ | with_reducible refine Rest.ite ?_ ?_ | dsimp only | split | intro _

theorem execCartStale_keeps {h : Half} {s : State} : Keeps [.evt, .reg 0x100018, .reg 0xA0010C] (execCartStale h s) s := by
  unfold execCartStale
  try dsimp only
  repeat' first
    | with_reducible exact Rest.refl _ _ | with_reducible exact Side.refl _ _ | with_reducible assumption | with_reducible refine Keeps.lift ?_
    | with_reducible refine Keeps.ite ?_ ?_ | with_reducible refine Rest.wr _ _ _ _ (by decide) ?_
    | with_reducible refine Rest.raise _ _ _ (by decide) ?_ | with_reducible refine Rest.when ?_ ?_ | with_reducible refine Rest.iteS ?_ ?_
    | with_reducible refine Rest.ite ?_ ?_ | dsimp only | split | intro _

theorem execCartSelect_keeps {h : Half} {init k : Nat} {s : State} : Keeps [.evt, .flx, .reg 0x100018, .reg 0xA00108, .reg 0xA0010C, .reg 0xA00118] (execCartSelect h init k s) s := by
  unfold execCartSelect
  try dsimp only
  repeat' first
    | with_reducible exact Rest.refl _ _ | with_reducible exact Side.refl _ _ | with_reducible assumption | with_reducible refine Keeps.lift ?_
    | with_reducible refine Keeps.ite ?_ ?_ | with_reducible refine Rest.wr _ _ _ _ (by decide) ?_ | with_reducible refine Rest.when ?_ ?_
    | with_reducible refine Rest.iteS ?_ ?_ | with_reducible refine World.cartActive_rest (by decide) ?_ | with_reducible refine Rest.ite ?_ ?_
    | dsimp only | split | intro _

theorem execCartRelease_keeps {h : Half} {init : Nat} {s : State} : Keeps [.evt, .flx, .reg 0x100018, .reg 0xA00108, .reg 0xA0010C] (execCartRelease h init s) s := by
  unfold execCartRelease
  try dsimp only
  repeat' first
    | with_reducible exact Rest.refl _ _ | with_reducible exact Side.refl _ _ | with_reducible assumption | with_reducible refine Keeps.lift ?_
    | with_reducible refine Keeps.ite ?_ ?_ | with_reducible refine Rest.when ?_ ?_ | with_reducible refine Rest.iteS ?_ ?_
    | with_reducible refine World.cartActive_rest (by decide) ?_ | with_reducible refine Rest.ite ?_ ?_ | dsimp only | split | intro _

end Sys2Proof.Machine
end

