-- ==== Sys2Proof/Laws/FramePlant.lean ====
section
/-!
SUPPORT. What each command of these units leaves alone.
-/
set_option linter.unreachableTactic false
set_option linter.unusedTactic false

namespace Sys2Proof.Machine

theorem execLswCommand_keeps {h : Half} {init : Nat} {on : Bool} {s : State} : Keeps [.evt, .lsw, .reg 0x100018, .reg 0x300118, .reg 0x600020, .reg 0x600024] (execLswCommand h init on s) s := by
  unfold execLswCommand
  try dsimp only
  repeat' first
    | with_reducible exact Rest.refl _ _ | with_reducible exact Side.refl _ _ | with_reducible assumption
    | with_reducible refine switchWrite_keeps (by decide) ?_ | with_reducible refine Keeps.ite ?_ ?_ | with_reducible refine Rest.iteS ?_ ?_
    | with_reducible refine World.swCmd_rest (by decide) ?_ | with_reducible refine Rest.ite ?_ ?_ | dsimp only | split | intro _

theorem execLswProfile_keeps {h : Half} {init v : Nat} {s : State} : Keeps [.evt, .reg 0x100018, .reg 0x300118, .reg 0x600020] (execLswProfile h init v s) s := by
  unfold execLswProfile
  try dsimp only
  repeat' first
    | with_reducible exact Rest.refl _ _ | with_reducible exact Side.refl _ _ | with_reducible assumption
    | with_reducible refine switchWrite_keeps (by decide) ?_ | with_reducible refine Keeps.ite ?_ ?_
    | with_reducible refine Rest.wr _ _ _ _ (by decide) ?_ | with_reducible refine Rest.iteS ?_ ?_ | with_reducible refine Rest.ite ?_ ?_ | dsimp only
    | split | intro _

theorem execLswClrFault_keeps {h : Half} {init : Nat} {s : State} : Keeps [.evt, .lsw, .reg 0x100018, .reg 0x300118, .reg 0x600024] (execLswClrFault h init s) s := by
  unfold execLswClrFault
  try dsimp only
  repeat' first
    | with_reducible exact Rest.refl _ _ | with_reducible exact Side.refl _ _ | with_reducible assumption
    | with_reducible refine switchWrite_keeps (by decide) ?_ | with_reducible refine Keeps.ite ?_ ?_
    | with_reducible refine Rest.wr _ _ _ _ (by decide) ?_ | with_reducible refine Rest.when ?_ ?_ | with_reducible refine Rest.iteS ?_ ?_
    | with_reducible refine World.swGo_rest (by decide) ?_ | with_reducible refine Rest.ite ?_ ?_ | dsimp only | split | intro _

theorem execLswKnock_keeps {h : Half} {init : Nat} {s : State} : Keeps [.evt, .lsw, .reg 0x100018, .reg 0x300118, .reg 0x600024] (execLswKnock h init s) s := by
  unfold execLswKnock
  try dsimp only
  repeat' first
    | with_reducible exact Rest.refl _ _ | with_reducible exact Side.refl _ _ | with_reducible assumption
    | with_reducible refine switchWrite_keeps (by decide) ?_ | with_reducible refine Keeps.ite ?_ ?_ | with_reducible refine Rest.iteS ?_ ?_
    | with_reducible refine World.knockSwitch_rest (by decide) ?_ | with_reducible refine Rest.ite ?_ ?_ | dsimp only | split | intro _

theorem execLswClrCnt_keeps {h : Half} {init : Nat} {s : State} : Keeps [.evt, .reg 0x100018, .reg 0x300118, .reg 0x60002C, .reg 0x600030] (execLswClrCnt h init s) s := by
  unfold execLswClrCnt
  try dsimp only
  repeat' first
    | with_reducible exact Rest.refl _ _ | with_reducible exact Side.refl _ _ | with_reducible assumption | with_reducible refine Keeps.putW ?_
    | with_reducible refine Keeps.next ?_ ?_ | with_reducible refine Side.forAll ?_ ?_ | with_reducible refine Side.ite ?_ ?_
    | with_reducible refine Side.set_w ?_ _ | with_reducible refine Keeps.ite ?_ ?_ | with_reducible refine Rest.setReg _ _ _ _ (by decide) ?_
    | with_reducible refine Rest.wr _ _ _ _ (by decide) ?_ | with_reducible refine Rest.forAll ?_ ?_ | with_reducible refine Rest.iteS ?_ ?_
    | with_reducible refine Rest.gateAny _ _ _ _ _ (by decide) ?_ ?_ | with_reducible refine Rest.ite ?_ ?_ | dsimp only | split | intro _

theorem execInrushEnd_keeps {n : Nat} {s : State} : Keeps [.lsw, .reg 0x600024] (execInrushEnd n s) s := by
  unfold execInrushEnd
  try dsimp only
  repeat' first
    | with_reducible exact Rest.refl _ _ | with_reducible exact Side.refl _ _ | with_reducible assumption | with_reducible refine Keeps.lift ?_
    | with_reducible refine Keeps.ite ?_ ?_ | with_reducible refine Rest.when ?_ ?_ | with_reducible refine Rest.iteS ?_ ?_
    | with_reducible refine World.swGo_rest (by decide) ?_ | with_reducible refine Rest.ite ?_ ?_ | dsimp only | split | intro _

theorem execLswShortTrip_keeps {n i : Nat} {s : State} : Keeps [.evt, .lsw, .reg 0x100018, .reg 0x600024, .reg 0x600028, .reg 0x600030] (execLswShortTrip n i s) s := by
  unfold execLswShortTrip
  try dsimp only
  repeat' first
    | with_reducible exact Rest.refl _ _ | with_reducible exact Side.refl _ _ | with_reducible assumption | with_reducible refine Keeps.lift ?_
    | with_reducible refine Keeps.ite ?_ ?_ | with_reducible refine Rest.when ?_ ?_ | with_reducible refine Rest.iteS ?_ ?_
    | with_reducible refine World.swTrip_rest (by decide) ?_ | with_reducible refine Rest.ite ?_ ?_ | dsimp only | split | intro _

theorem execLswOverloadTrip_keeps {n i : Nat} {s : State} : Keeps [.evt, .lsw, .reg 0x100018, .reg 0x600024, .reg 0x600028, .reg 0x600030] (execLswOverloadTrip n i s) s := by
  unfold execLswOverloadTrip
  try dsimp only
  repeat' first
    | with_reducible exact Rest.refl _ _ | with_reducible exact Side.refl _ _ | with_reducible assumption | with_reducible refine Keeps.lift ?_
    | with_reducible refine Keeps.ite ?_ ?_ | with_reducible refine Rest.when ?_ ?_ | with_reducible refine Rest.iteS ?_ ?_
    | with_reducible refine World.swTrip_rest (by decide) ?_ | with_reducible refine Rest.ite ?_ ?_ | dsimp only | split | intro _

theorem execLswThermalTrip_keeps {n : Nat} {tj : Int} {s : State} : Keeps [.evt, .lsw, .reg 0x100018, .reg 0x600024, .reg 0x60002C] (execLswThermalTrip n tj s) s := by
  unfold execLswThermalTrip
  try dsimp only
  repeat' first
    | with_reducible exact Rest.refl _ _ | with_reducible exact Side.refl _ _ | with_reducible assumption | with_reducible refine Keeps.lift ?_
    | with_reducible refine Keeps.ite ?_ ?_ | with_reducible refine Rest.wr _ _ _ _ (by decide) ?_
    | with_reducible refine Rest.bump _ _ _ (by decide) ?_ | with_reducible refine Rest.when ?_ ?_ | with_reducible refine Rest.iteS ?_ ?_
    | with_reducible refine World.swEvent_rest (by decide) ?_ | with_reducible refine World.swGo_rest (by decide) ?_
    | with_reducible refine World.swTemp_rest (by decide) ?_ | with_reducible refine World.updSw_rest (by decide) ?_
    | with_reducible refine Rest.ite ?_ ?_ | dsimp only | split | intro _

theorem execThermalLatchClear_keeps {n : Nat} {tj : Int} {s : State} : Keeps [.evt, .lsw, .reg 0x100018, .reg 0x600024, .reg 0x60002C] (execThermalLatchClear n tj s) s := by
  unfold execThermalLatchClear
  try dsimp only
  repeat' first
    | with_reducible exact Rest.refl _ _ | with_reducible exact Side.refl _ _ | with_reducible assumption | with_reducible refine Keeps.lift ?_
    | with_reducible refine Keeps.ite ?_ ?_ | with_reducible refine Rest.when ?_ ?_ | with_reducible refine Rest.iteS ?_ ?_
    | with_reducible refine World.swGo_rest (by decide) ?_ | with_reducible refine World.swRetry_rest (by decide) ?_
    | with_reducible refine World.swTemp_rest (by decide) ?_ | with_reducible refine World.swWait_rest (by decide) ?_
    | with_reducible refine Rest.ite ?_ ?_ | dsimp only | split | intro _

theorem execRetryWaitExpiry_keeps {n : Nat} {tj : Int} {s : State} : Keeps [.lsw, .reg 0x600024, .reg 0x600030] (execRetryWaitExpiry n tj s) s := by
  unfold execRetryWaitExpiry
  try dsimp only
  repeat' first
    | with_reducible exact Rest.refl _ _ | with_reducible exact Side.refl _ _ | with_reducible assumption | with_reducible refine Keeps.lift ?_
    | with_reducible refine Keeps.ite ?_ ?_ | with_reducible refine Rest.wr _ _ _ _ (by decide) ?_
    | with_reducible refine Rest.bump _ _ _ (by decide) ?_ | with_reducible refine Rest.when ?_ ?_ | with_reducible refine Rest.iteS ?_ ?_
    | with_reducible refine World.swWait_rest (by decide) ?_ | with_reducible refine Rest.ite ?_ ?_ | dsimp only | split | intro _

theorem execRetryCounterReload_keeps {n : Nat} {s : State} : Keeps [.reg 0x600024] (execRetryCounterReload n s) s := by
  unfold execRetryCounterReload
  try dsimp only
  repeat' first
    | with_reducible exact Rest.refl _ _ | with_reducible exact Side.refl _ _ | with_reducible assumption | with_reducible refine Keeps.lift ?_
    | with_reducible refine Keeps.ite ?_ ?_ | with_reducible refine Rest.wr _ _ _ _ (by decide) ?_ | with_reducible refine Rest.when ?_ ?_
    | with_reducible refine Rest.iteS ?_ ?_ | with_reducible refine Rest.ite ?_ ?_ | dsimp only | split | intro _

theorem execArbiterRoundStart_keeps {a : Nat} {s : State} : Keeps [.vlv] (execArbiterRoundStart a s) s := by
  unfold execArbiterRoundStart
  try dsimp only
  repeat' first
    | with_reducible exact Rest.refl _ _ | with_reducible exact Side.refl _ _ | with_reducible assumption | with_reducible refine Keeps.lift ?_
    | with_reducible refine Keeps.ite ?_ ?_ | with_reducible refine Rest.iteS ?_ ?_ | with_reducible refine World.setRound_rest (by decide) ?_
    | with_reducible refine Rest.ite ?_ ?_ | dsimp only | split | intro _

theorem execFeedBudgetGrant_keeps {f : Nat} {s : State} : Keeps [.vlv, .lsw, .reg 0x600024, .reg 0x600030] (execFeedBudgetGrant f s) s := by
  unfold execFeedBudgetGrant
  try dsimp only
  repeat' first
    | with_reducible exact Rest.refl _ _ | with_reducible exact Side.refl _ _ | with_reducible assumption | with_reducible refine Keeps.lift ?_
    | with_reducible refine Keeps.next ?_ ?_ | with_reducible refine Side.ite ?_ ?_ | with_reducible refine Side.set_w ?_ _
    | with_reducible refine Keeps.ite ?_ ?_ | with_reducible refine Rest.iteS ?_ ?_ | with_reducible refine World.admitGrant_rest (by decide) ?_
    | with_reducible refine World.nextGrant_rest (by decide) ?_ | with_reducible refine World.setGrant_rest (by decide) ?_
    | with_reducible refine Rest.ite ?_ ?_ | dsimp only | split | intro _

theorem execBudgetWaitLong_keeps {n : Nat} {s : State} : Keeps [.evt, .reg 0x100018, .reg 0x600024] (execBudgetWaitLong n s) s := by
  unfold execBudgetWaitLong
  try dsimp only
  repeat' first
    | with_reducible exact Rest.refl _ _ | with_reducible exact Side.refl _ _ | with_reducible assumption | with_reducible refine Keeps.lift ?_
    | with_reducible refine Keeps.ite ?_ ?_ | with_reducible refine Rest.wr _ _ _ _ (by decide) ?_ | with_reducible refine Rest.when ?_ ?_
    | with_reducible refine Rest.iteS ?_ ?_ | with_reducible refine World.swEvent_rest (by decide) ?_ | with_reducible refine Rest.ite ?_ ?_
    | dsimp only | split | intro _

theorem execFeedOverload_keeps {f i : Nat} {s : State} : Keeps [.evt, .lsw, .reg 0x100018, .reg 0x600024, .reg 0x600080] (execFeedOverload f i s) s := by
  unfold execFeedOverload
  try dsimp only
  repeat' first
    | with_reducible exact Rest.refl _ _ | with_reducible exact Side.refl _ _ | with_reducible assumption | with_reducible refine Keeps.lift ?_
    | with_reducible refine Keeps.ite ?_ ?_ | with_reducible refine Rest.wr _ _ _ _ (by decide) ?_ | with_reducible refine Rest.when ?_ ?_
    | with_reducible refine Rest.iteS ?_ ?_ | with_reducible refine World.shedTo_rest (by decide) ?_ | with_reducible refine Rest.ite ?_ ?_
    | dsimp only | split | intro _

theorem execShedStep_keeps {f i : Nat} {s : State} : Keeps [.evt, .lsw, .reg 0x100018, .reg 0x600024, .reg 0x600080] (execShedStep f i s) s := by
  unfold execShedStep
  try dsimp only
  repeat' first
    | with_reducible exact Rest.refl _ _ | with_reducible exact Side.refl _ _ | with_reducible assumption | with_reducible refine Keeps.lift ?_
    | with_reducible refine Keeps.ite ?_ ?_ | with_reducible refine Rest.wr _ _ _ _ (by decide) ?_ | with_reducible refine Rest.iteS ?_ ?_
    | with_reducible refine World.shedTo_rest (by decide) ?_ | with_reducible refine Rest.ite ?_ ?_ | dsimp only | split | intro _

theorem execFeedLost_keeps {f v : Nat} {s : State} : Keeps [.evt, .lsw, .reg 0x100018, .reg 0x600024] (execFeedLost f v s) s := by
  unfold execFeedLost
  try dsimp only
  repeat' first
    | with_reducible exact Rest.refl _ _ | with_reducible exact Side.refl _ _ | with_reducible assumption | with_reducible refine Keeps.lift ?_
    | with_reducible refine Keeps.ite ?_ ?_ | with_reducible refine Rest.when ?_ ?_ | with_reducible refine Rest.iteS ?_ ?_
    | with_reducible refine World.loseFeed_rest (by decide) ?_ | with_reducible refine Rest.ite ?_ ?_ | dsimp only | split | intro _

theorem execFeedReturn_keeps {f v : Nat} {s : State} : Keeps [.evt, .lsw, .reg 0x100018, .reg 0x600024] (execFeedReturn f v s) s := by
  unfold execFeedReturn
  try dsimp only
  repeat' first
    | with_reducible exact Rest.refl _ _ | with_reducible exact Side.refl _ _ | with_reducible assumption | with_reducible refine Keeps.lift ?_
    | with_reducible refine Keeps.ite ?_ ?_ | with_reducible refine Rest.wr _ _ _ _ (by decide) ?_
    | with_reducible refine Rest.raiseBoth _ _ (by decide) ?_ | with_reducible refine Rest.when ?_ ?_ | with_reducible refine Rest.forAll ?_ ?_
    | with_reducible refine Rest.iteS ?_ ?_ | with_reducible refine World.swWait_rest (by decide) ?_ | with_reducible refine Rest.ite ?_ ?_
    | with_reducible refine Rest.set_lsw (by decide) ?_ _ | dsimp only | split | intro _

theorem execOpenOnDetect_keeps {n i : Nat} {s : State} : Keeps [.evt, .reg 0x100018, .reg 0x600024, .reg 0x600028] (execOpenOnDetect n i s) s := by
  unfold execOpenOnDetect
  try dsimp only
  repeat' first
    | with_reducible exact Rest.refl _ _ | with_reducible exact Side.refl _ _ | with_reducible assumption | with_reducible refine Keeps.lift ?_
    | with_reducible refine Keeps.ite ?_ ?_ | with_reducible refine Rest.wr _ _ _ _ (by decide) ?_ | with_reducible refine Rest.when ?_ ?_
    | with_reducible refine Rest.iteS ?_ ?_ | with_reducible refine World.swEvent_rest (by decide) ?_ | with_reducible refine Rest.ite ?_ ?_
    | dsimp only | split | intro _

theorem execLswProbe_keeps {n vProbe vIdle : Nat} {s : State} : Keeps [.evt, .reg 0x100018, .reg 0x600024, .reg 0x600028] (execLswProbe n vProbe vIdle s) s := by
  unfold execLswProbe
  try dsimp only
  repeat' first
    | with_reducible exact Rest.refl _ _ | with_reducible exact Side.refl _ _ | with_reducible assumption | with_reducible refine Keeps.lift ?_
    | with_reducible refine Keeps.ite ?_ ?_ | with_reducible refine Rest.wr _ _ _ _ (by decide) ?_ | with_reducible refine Rest.when ?_ ?_
    | with_reducible refine Rest.iteS ?_ ?_ | with_reducible refine World.swEvent_rest (by decide) ?_ | with_reducible refine Rest.ite ?_ ?_
    | dsimp only | split | intro _

theorem execLswBankPresence_keeps {b : Nat} {present : Bool} {s : State} : Keeps [.evt, .lsw, .reg 0x100018, .reg 0x600024, .reg 0x600088] (execLswBankPresence b present s) s := by
  unfold execLswBankPresence
  try dsimp only
  repeat' first
    | with_reducible exact Rest.refl _ _ | with_reducible exact Side.refl _ _ | with_reducible assumption | with_reducible refine Keeps.lift ?_
    | with_reducible refine Keeps.ite ?_ ?_ | with_reducible refine Rest.wr _ _ _ _ (by decide) ?_
    | with_reducible refine Rest.raiseBoth _ _ (by decide) ?_ | with_reducible refine Rest.when ?_ ?_ | with_reducible refine Rest.forAll ?_ ?_
    | with_reducible refine Rest.iteS ?_ ?_ | with_reducible refine World.swGo_rest (by decide) ?_ | with_reducible refine Rest.ite ?_ ?_ | dsimp only
    | split | intro _

theorem execCalTokenRequest_keeps {h : Half} {init tok : Nat} {s : State} : Keeps [.cal, .reg 0x1200018, .reg 0x120002C] (execCalTokenRequest h init tok s) s := by
  unfold execCalTokenRequest
  try dsimp only
  repeat' first
    | with_reducible exact Rest.refl _ _ | with_reducible exact Side.refl _ _ | with_reducible assumption | with_reducible refine Keeps.lift ?_
    | with_reducible refine Keeps.ite ?_ ?_ | with_reducible refine Rest.wr _ _ _ _ (by decide) ?_ | with_reducible refine Rest.iteS ?_ ?_
    | with_reducible refine Rest.ite ?_ ?_ | with_reducible refine Rest.set_cal (by decide) ?_ _ | dsimp only | split | intro _

theorem execCalKeyOffer_keeps {h : Half} {init key : Nat} {s : State} : Keeps [.cal, .reg 0x1200014, .reg 0x1200018] (execCalKeyOffer h init key s) s := by
  unfold execCalKeyOffer
  refine Keeps.lift ?_
  beta_reduce
  split
  · exact Rest.refl _ _
  · extract_lets ok w1 x1 w2
    have h1 : Rest [.cal, .reg 0x1200014, .reg 0x1200018] w1 s.w := Rest.wr _ _ _ _ (by decide) (Rest.refl _ _)
    have h2 : Rest [.cal, .reg 0x1200014, .reg 0x1200018] w2 s.w := Rest.set_cal (by decide) h1 _
    clear_value w1 w2
    split
    · exact Rest.set_cal (by decide) (Rest.wr _ _ _ _ (by decide) (Rest.wr _ _ _ _ (by decide) h2)) _
    · exact h2

theorem execCalLockClose_keeps {h : Half} {init : Nat} {s : State} : Keeps [.cal, .reg 0x1200014, .reg 0x1200018] (execCalLockClose h init s) s := by
  unfold execCalLockClose
  try dsimp only
  repeat' first
    | with_reducible exact Rest.refl _ _ | with_reducible exact Side.refl _ _ | with_reducible assumption | with_reducible refine Keeps.lift ?_
    | with_reducible refine Keeps.ite ?_ ?_ | with_reducible refine Rest.when ?_ ?_ | with_reducible refine Rest.iteS ?_ ?_
    | with_reducible refine World.calClose_rest (by decide) ?_ | with_reducible refine Rest.ite ?_ ?_ | dsimp only | split | intro _

theorem execCalLockTimeout_keeps {s : State} : Keeps [.cal, .reg 0x1200014, .reg 0x1200018] (execCalLockTimeout s) s := by
  unfold execCalLockTimeout
  try dsimp only
  repeat' first
    | with_reducible exact Rest.refl _ _ | with_reducible exact Side.refl _ _ | with_reducible assumption | with_reducible refine Keeps.lift ?_
    | with_reducible refine Keeps.ite ?_ ?_ | with_reducible refine Rest.when ?_ ?_ | with_reducible refine Rest.iteS ?_ ?_
    | with_reducible refine World.calClose_rest (by decide) ?_ | with_reducible refine Rest.ite ?_ ?_ | dsimp only | split | intro _

theorem execLedgerWrite_keeps {h : Half} {init ty k : Nat} {pl : List Byte} {s : State} : Keeps [.ledger, .cal, .reg 0x120002C] (execLedgerWrite h init ty k pl s) s := by
  unfold execLedgerWrite
  refine Keeps.next ?_ ?_
  · repeat' first
      | with_reducible exact Side.refl _ _ | with_reducible refine Side.ite ?_ ?_ | with_reducible refine calRes_side (by decide) ?_
      | with_reducible refine Side.set_ledger_w (by decide) ?_ _ _ | dsimp only
  · repeat' first
      | with_reducible exact Rest.refl _ _ | with_reducible refine Rest.iteS ?_ ?_ | with_reducible refine calRes_rest (by decide) ?_
      | with_reducible refine World.calCount_rest (by decide) ?_ | dsimp only

theorem execYieldCycle_keeps {h : Half} {s : State} : Keeps [.evt, .uin, .yld, .dram, .flx, .reg 0x100018, .reg 0x400600, .reg 0x400604, .reg 0x400608, .reg 0x40060C, .reg 0x400610, .reg 0x400614, .reg 0x400618, .reg 0x40061C, .reg 0x400620, .reg 0x400634, .reg 0x400638, .reg 0x400640, .reg 0x400644, .reg 0x700020, .reg 0x700024, .reg 0x70002C, .reg 0x700030, .reg 0x700044, .reg 0x701000, .reg 0x701004, .reg 0xA00114, .reg 0xA00140] (execYieldCycle h s) s := by
  unfold execYieldCycle
  try dsimp only
  repeat' first
    | with_reducible exact Rest.refl _ _ | with_reducible exact Side.refl _ _ | with_reducible assumption | with_reducible refine Keeps.lift ?_
    | with_reducible refine Keeps.ite ?_ ?_ | with_reducible refine Rest.iteS ?_ ?_ | with_reducible refine World.mirrorYield_rest (by decide) ?_
    | with_reducible refine World.yieldCycle_rest (by decide) ?_ | with_reducible refine Rest.ite ?_ ?_ | dsimp only | split | intro _

theorem execYieldCropChange_keeps {h : Half} {v : Nat} {s : State} : Keeps [.reg 0x400600] (execYieldCropChange h v s) s := by
  unfold execYieldCropChange
  try dsimp only
  repeat' first
    | with_reducible exact Rest.refl _ _ | with_reducible exact Side.refl _ _ | with_reducible assumption | with_reducible refine Keeps.lift ?_
    | with_reducible refine Keeps.ite ?_ ?_ | with_reducible refine Rest.wr _ _ _ _ (by decide) ?_ | with_reducible refine Rest.iteS ?_ ?_
    | with_reducible refine Rest.ite ?_ ?_ | dsimp only | split | intro _

theorem execTankZero_keeps {h : Half} {s : State} : Keeps [.yld, .reg 0x400610, .reg 0x400614, .reg 0x400618, .reg 0x40061C, .reg 0x400620] (execTankZero h s) s := by
  unfold execTankZero
  try dsimp only
  repeat' first
    | with_reducible exact Rest.refl _ _ | with_reducible exact Side.refl _ _ | with_reducible assumption | with_reducible refine Keeps.lift ?_
    | with_reducible refine Keeps.ite ?_ ?_ | with_reducible refine Rest.iteS ?_ ?_ | with_reducible refine World.showTotals_rest (by decide) ?_
    | with_reducible refine World.updYield_rest (by decide) ?_ | with_reducible refine Rest.ite ?_ ?_ | dsimp only | split | intro _

theorem execTotClr_keeps {h : Half} {s : State} : Keeps [.yld, .reg 0x400610, .reg 0x400614, .reg 0x400618, .reg 0x40061C, .reg 0x400620] (execTotClr h s) s := by
  unfold execTotClr
  try dsimp only
  repeat' first
    | with_reducible exact Rest.refl _ _ | with_reducible exact Side.refl _ _ | with_reducible assumption | with_reducible refine Keeps.lift ?_
    | with_reducible refine Keeps.ite ?_ ?_ | with_reducible refine Rest.iteS ?_ ?_ | with_reducible refine World.showTotals_rest (by decide) ?_
    | with_reducible refine World.updYield_rest (by decide) ?_ | with_reducible refine Rest.ite ?_ ?_ | dsimp only | split | intro _

theorem execYldCalStart_keeps {h : Half} {s : State} : Keeps [.yld, .reg 0x400640] (execYldCalStart h s) s := by
  unfold execYldCalStart
  try dsimp only
  repeat' first
    | with_reducible exact Rest.refl _ _ | with_reducible exact Side.refl _ _ | with_reducible assumption | with_reducible refine Keeps.lift ?_
    | with_reducible refine Keeps.ite ?_ ?_ | with_reducible refine Rest.wr _ _ _ _ (by decide) ?_ | with_reducible refine calRes_rest (by decide) ?_
    | with_reducible refine Rest.iteS ?_ ?_ | with_reducible refine World.calResult_rest (by decide) ?_
    | with_reducible refine World.updYield_rest (by decide) ?_ | with_reducible refine Rest.ite ?_ ?_ | dsimp only | split | intro _

theorem execYldCalStop_keeps {h : Half} {s : State} : Keeps [.yld, .reg 0x400640] (execYldCalStop h s) s := by
  unfold execYldCalStop
  try dsimp only
  repeat' first
    | with_reducible exact Rest.refl _ _ | with_reducible exact Side.refl _ _ | with_reducible assumption | with_reducible refine Keeps.lift ?_
    | with_reducible refine Keeps.ite ?_ ?_ | with_reducible refine Rest.wr _ _ _ _ (by decide) ?_ | with_reducible refine calRes_rest (by decide) ?_
    | with_reducible refine Rest.iteS ?_ ?_ | with_reducible refine World.calResult_rest (by decide) ?_
    | with_reducible refine World.updYield_rest (by decide) ?_ | with_reducible refine Rest.ite ?_ ?_ | dsimp only | split | intro _

theorem execYldCalFlushComplete_keeps {h : Half} {s : State} : Keeps [.reg 0x400640, .reg 0x400644] (execYldCalFlushComplete h s) s := by
  unfold execYldCalFlushComplete
  try dsimp only
  repeat' first
    | with_reducible exact Rest.refl _ _ | with_reducible exact Side.refl _ _ | with_reducible assumption | with_reducible refine Keeps.lift ?_
    | with_reducible refine Keeps.ite ?_ ?_ | with_reducible refine Rest.wr _ _ _ _ (by decide) ?_ | with_reducible refine Rest.when ?_ ?_
    | with_reducible refine Rest.iteS ?_ ?_ | with_reducible refine Rest.ite ?_ ?_ | dsimp only | split | intro _

theorem execYldCalWeight_keeps {h : Half} {kg : Nat} {s : State} : Keeps [.yld, .reg 0x400640, .reg 0x400648] (execYldCalWeight h kg s) s := by
  unfold execYldCalWeight
  try dsimp only
  repeat' first
    | with_reducible exact Rest.refl _ _ | with_reducible exact Side.refl _ _ | with_reducible assumption | with_reducible refine Keeps.lift ?_
    | with_reducible refine Keeps.ite ?_ ?_ | with_reducible refine Rest.wr _ _ _ _ (by decide) ?_ | with_reducible refine calRes_rest (by decide) ?_
    | with_reducible refine Rest.iteS ?_ ?_ | with_reducible refine World.calResult_rest (by decide) ?_
    | with_reducible refine World.showLoads_rest (by decide) ?_ | with_reducible refine World.updYield_rest (by decide) ?_
    | with_reducible refine Rest.ite ?_ ?_ | dsimp only | split | intro _

theorem execYldCalAbort_keeps {h : Half} {s : State} : Keeps [.yld, .reg 0x400640] (execYldCalAbort h s) s := by
  unfold execYldCalAbort
  try dsimp only
  repeat' first
    | with_reducible exact Rest.refl _ _ | with_reducible exact Side.refl _ _ | with_reducible assumption | with_reducible refine Keeps.lift ?_
    | with_reducible refine Keeps.ite ?_ ?_ | with_reducible refine Rest.wr _ _ _ _ (by decide) ?_ | with_reducible refine Rest.iteS ?_ ?_
    | with_reducible refine World.updYield_rest (by decide) ?_ | with_reducible refine Rest.ite ?_ ?_ | dsimp only | split | intro _

theorem execYldCalCommit_keeps {h : Half} {init : Nat} {s : State} : Keeps [.ledger, .yld, .cal, .reg 0x400640, .reg 0x120002C] (execYldCalCommit h init s) s := by
  unfold execYldCalCommit
  refine Keeps.next ?_ ?_ <;> split
  · exact Side.refl _ _
  · extract_lets y loads k new old res u pl w1
    clear_value res
    split
    · exact Side.set_w (Side.refl _ _) _
    · exact Side.set_ledger_w (by decide) (Side.refl _ _) _ _
  · exact Rest.refl _ _
  · extract_lets y loads k new old res u pl w1
    clear_value res
    split
    · exact World.calResult_rest (by decide) (Rest.refl _ _)
    · have h1 : Rest [.ledger, .yld, .cal, .reg 0x400640, .reg 0x120002C] w1 s.w := World.showLoads_rest (by decide) (World.updYield_rest (by decide) (World.calResult_rest (by decide) (Rest.refl _ _)))
      clear_value w1
      exact World.calCount_rest (by decide) h1

theorem execYldCalClear_keeps {h : Half} {s : State} : Keeps [.yld, .reg 0x400640] (execYldCalClear h s) s := by
  unfold execYldCalClear
  try dsimp only
  repeat' first
    | with_reducible exact Rest.refl _ _ | with_reducible exact Side.refl _ _ | with_reducible assumption | with_reducible refine Keeps.lift ?_
    | with_reducible refine Keeps.ite ?_ ?_ | with_reducible refine Rest.iteS ?_ ?_ | with_reducible refine World.showLoads_rest (by decide) ?_
    | with_reducible refine World.updYield_rest (by decide) ?_ | with_reducible refine Rest.ite ?_ ?_ | dsimp only | split | intro _

theorem execSegmentFrame_keeps {vlcd : Nat} {v1 v2 : Int} {s : State} : Keeps [.evt, .dsp, .reg 0x100018, .reg 0xF00018, .reg 0xF0001C] (execSegmentFrame vlcd v1 v2 s) s := by
  unfold execSegmentFrame
  try dsimp only
  repeat' first
    | with_reducible exact Rest.refl _ _ | with_reducible exact Side.refl _ _ | with_reducible assumption | with_reducible refine Keeps.lift ?_
    | with_reducible refine Keeps.ite ?_ ?_ | with_reducible refine Rest.wr _ _ _ _ (by decide) ?_
    | with_reducible refine Rest.wrI _ _ _ _ (by decide) ?_ | with_reducible refine Rest.when ?_ ?_ | with_reducible refine Rest.iteS ?_ ?_
    | with_reducible refine World.dspEvent_rest (by decide) ?_ | with_reducible refine World.updDsp_rest (by decide) ?_
    | with_reducible refine Rest.ite ?_ ?_ | dsimp only | split | intro _

theorem execSegmentLatch_keeps {h : Half} {init : Nat} {s : State} : Keeps [.evt, .dsp, .reg 0x100018, .reg 0x300118] (execSegmentLatch h init s) s := by
  unfold execSegmentLatch
  try dsimp only
  repeat' first
    | with_reducible exact Rest.refl _ _ | with_reducible exact Side.refl _ _ | with_reducible assumption | with_reducible refine Keeps.putW ?_
    | with_reducible refine Keeps.ite ?_ ?_ | with_reducible refine Rest.iteS ?_ ?_ | with_reducible refine World.segLatch_rest (by decide) ?_
    | with_reducible refine Rest.gateObj _ _ _ (by decide) ?_ ?_ | with_reducible refine Rest.ite ?_ ?_ | dsimp only | split | intro _

theorem execSymbolEvaluation_keeps {h : Half} {s : State} : Keeps [.dsp, .reg 0xF00020] (execSymbolEvaluation h s) s := by
  unfold execSymbolEvaluation
  try dsimp only
  repeat' first
    | with_reducible exact Rest.refl _ _ | with_reducible exact Side.refl _ _ | with_reducible assumption | with_reducible refine Keeps.putW ?_
    | with_reducible refine Keeps.ite ?_ ?_ | with_reducible refine Rest.forAll ?_ ?_ | with_reducible refine Rest.iteS ?_ ?_
    | with_reducible refine World.putSeg_rest (by decide) ?_ | with_reducible refine World.segLatch_rest (by decide) ?_
    | with_reducible refine Rest.when ?_ ?_ | with_reducible refine Rest.ite ?_ ?_ | dsimp only | split | intro _

theorem execPanelSequenceStep_keeps {s : State} : Keeps [.evt, .dsp, .reg 0x100018, .reg 0xF00018] (execPanelSequenceStep s) s := by
  unfold execPanelSequenceStep
  try dsimp only
  repeat' first
    | with_reducible exact Rest.refl _ _ | with_reducible exact Side.refl _ _ | with_reducible assumption | with_reducible refine Keeps.lift ?_
    | with_reducible refine Keeps.ite ?_ ?_ | with_reducible refine Rest.wr _ _ _ _ (by decide) ?_ | with_reducible refine Rest.when ?_ ?_
    | with_reducible refine Rest.iteS ?_ ?_ | with_reducible refine World.pnlReach_rest (by decide) ?_
    | with_reducible refine World.pnlStep_rest (by decide) ?_ | with_reducible refine Rest.ite ?_ ?_ | dsimp only | split | intro _

theorem execPanelEnable_keeps {h : Half} {init : Nat} {en : Bool} {s : State} : Keeps [.evt, .dsp, .reg 0x100018, .reg 0x300118, .reg 0xF00010, .reg 0xF00018] (execPanelEnable h init en s) s := by
  unfold execPanelEnable
  try dsimp only
  repeat' first
    | with_reducible exact Rest.refl _ _ | with_reducible exact Side.refl _ _ | with_reducible assumption | with_reducible refine Keeps.putW ?_
    | with_reducible refine Keeps.ite ?_ ?_ | with_reducible refine Rest.iteS ?_ ?_ | with_reducible refine World.pnlEnable_rest (by decide) ?_
    | with_reducible refine Rest.gateObj _ _ _ (by decide) ?_ ?_ | with_reducible refine Rest.ite ?_ ?_ | dsimp only | split | intro _

theorem execPanelLoad_keeps {h : Half} {init : Nat} {s : State} : Keeps [.evt, .dsp, .reg 0x100018, .reg 0x300118, .reg 0xF00018] (execPanelLoad h init s) s := by
  unfold execPanelLoad
  try dsimp only
  repeat' first
    | with_reducible exact Rest.refl _ _ | with_reducible exact Side.refl _ _ | with_reducible assumption | with_reducible refine Keeps.putW ?_
    | with_reducible refine Keeps.ite ?_ ?_ | with_reducible refine Rest.wr _ _ _ _ (by decide) ?_ | with_reducible refine Rest.iteS ?_ ?_
    | with_reducible refine World.updDsp_rest (by decide) ?_ | with_reducible refine Rest.gateObj _ _ _ (by decide) ?_ ?_
    | with_reducible refine Rest.ite ?_ ?_ | dsimp only | split | intro _

theorem execPanelCopyComplete_keeps {s : State} : Keeps [.dsp, .reg 0xF00018] (execPanelCopyComplete s) s := by
  unfold execPanelCopyComplete
  try dsimp only
  repeat' first
    | with_reducible exact Rest.refl _ _ | with_reducible exact Side.refl _ _ | with_reducible assumption | with_reducible refine Keeps.lift ?_
    | with_reducible refine Keeps.ite ?_ ?_ | with_reducible refine Rest.wr _ _ _ _ (by decide) ?_ | with_reducible refine Rest.iteS ?_ ?_
    | with_reducible refine World.updDsp_rest (by decide) ?_ | with_reducible refine Rest.ite ?_ ?_ | dsimp only | split | intro _

theorem execFanFrame_keeps {c : Nat} {s : State} : Keeps [.pwr, .reg 0x1000044] (execFanFrame c s) s := by
  unfold execFanFrame
  try dsimp only
  repeat' first
    | with_reducible exact Rest.refl _ _ | with_reducible exact Side.refl _ _ | with_reducible assumption | with_reducible refine Keeps.lift ?_
    | with_reducible refine Keeps.ite ?_ ?_ | with_reducible refine Rest.when ?_ ?_ | with_reducible refine Rest.iteS ?_ ?_
    | with_reducible refine World.fanDuties_rest (by decide) ?_ | with_reducible refine World.updFan_rest (by decide) ?_
    | with_reducible refine Rest.ite ?_ ?_ | dsimp only | split | intro _

theorem execFanSpeedMeasure_keeps {c e1 e2 : Nat} {s : State} : Keeps [.fresh, .evt, .pwr, .reg 0x100018, .reg 0x1000044] (execFanSpeedMeasure c e1 e2 s) s := by
  unfold execFanSpeedMeasure
  try dsimp only
  repeat' first
    | with_reducible exact Rest.refl _ _ | with_reducible exact Side.refl _ _ | with_reducible assumption | with_reducible refine Keeps.lift ?_
    | with_reducible refine Keeps.ite ?_ ?_ | with_reducible refine Rest.wr _ _ _ _ (by decide) ?_ | with_reducible refine Rest.when ?_ ?_
    | with_reducible refine Rest.iteS ?_ ?_ | with_reducible refine World.fanDuties_rest (by decide) ?_
    | with_reducible refine World.fanLoop_rest (by decide) ?_ | with_reducible refine World.fanTarget_rest (by decide) ?_
    | with_reducible refine World.pwrEvent_rest (by decide) ?_ | with_reducible refine World.updFan_rest (by decide) ?_
    | with_reducible refine Rest.ite ?_ ?_ | dsimp only | split | intro _

theorem execFanSuspect_keeps {c v : Nat} {s : State} : Keeps [.evt, .pwr, .reg 0x100018, .reg 0x1000044, .reg 0x1000070] (execFanSuspect c v s) s := by
  unfold execFanSuspect
  try dsimp only
  repeat' first
    | with_reducible exact Rest.refl _ _ | with_reducible exact Side.refl _ _ | with_reducible assumption | with_reducible refine Keeps.lift ?_
    | with_reducible refine Keeps.ite ?_ ?_ | with_reducible refine Rest.wr _ _ _ _ (by decide) ?_ | with_reducible refine Rest.when ?_ ?_
    | with_reducible refine Rest.iteS ?_ ?_ | with_reducible refine World.fanDuties_rest (by decide) ?_
    | with_reducible refine World.pwrEvent_rest (by decide) ?_ | with_reducible refine World.startKick_rest (by decide) ?_
    | with_reducible refine World.updFan_rest (by decide) ?_ | with_reducible refine Rest.ite ?_ ?_ | dsimp only | split | intro _

theorem execFanKickEnd_keeps {c rpm : Nat} {s : State} : Keeps [.evt, .pwr, .reg 0x100018, .reg 0x1000044] (execFanKickEnd c rpm s) s := by
  unfold execFanKickEnd
  try dsimp only
  repeat' first
    | with_reducible exact Rest.refl _ _ | with_reducible exact Side.refl _ _ | with_reducible assumption | with_reducible refine Keeps.lift ?_
    | with_reducible refine Keeps.ite ?_ ?_ | with_reducible refine Rest.wr _ _ _ _ (by decide) ?_ | with_reducible refine Rest.when ?_ ?_
    | with_reducible refine Rest.iteS ?_ ?_ | with_reducible refine World.endKick_rest (by decide) ?_
    | with_reducible refine World.fanDuties_rest (by decide) ?_ | with_reducible refine World.pwrEvent_rest (by decide) ?_
    | with_reducible refine World.updFan_rest (by decide) ?_ | with_reducible refine Rest.ite ?_ ?_ | dsimp only | split | intro _

theorem execFanKickPauseEnd_keeps {c : Nat} {s : State} : Keeps [.pwr, .reg 0x1000044, .reg 0x1000070] (execFanKickPauseEnd c s) s := by
  unfold execFanKickPauseEnd
  try dsimp only
  repeat' first
    | with_reducible exact Rest.refl _ _ | with_reducible exact Side.refl _ _ | with_reducible assumption | with_reducible refine Keeps.lift ?_
    | with_reducible refine Keeps.ite ?_ ?_ | with_reducible refine Rest.when ?_ ?_ | with_reducible refine Rest.iteS ?_ ?_
    | with_reducible refine World.startKick_rest (by decide) ?_ | with_reducible refine Rest.ite ?_ ?_ | dsimp only | split | intro _

theorem execFanRekick_keeps {c : Nat} {s : State} : Keeps [.pwr, .reg 0x1000044, .reg 0x1000070] (execFanRekick c s) s := by
  unfold execFanRekick
  try dsimp only
  repeat' first
    | with_reducible exact Rest.refl _ _ | with_reducible exact Side.refl _ _ | with_reducible assumption | with_reducible refine Keeps.lift ?_
    | with_reducible refine Keeps.ite ?_ ?_ | with_reducible refine Rest.when ?_ ?_ | with_reducible refine Rest.iteS ?_ ?_
    | with_reducible refine World.startKick_rest (by decide) ?_ | with_reducible refine World.updFan_rest (by decide) ?_
    | with_reducible refine Rest.ite ?_ ?_ | dsimp only | split | intro _

theorem execFanCommand_keeps {h : Half} {init v : Nat} {s : State} : Keeps [.evt, .pwr, .reg 0x100018, .reg 0x300118, .reg 0x1000040, .reg 0x1000044] (execFanCommand h init v s) s := by
  unfold execFanCommand
  try dsimp only
  repeat' first
    | with_reducible exact Rest.refl _ _ | with_reducible exact Side.refl _ _ | with_reducible assumption | with_reducible refine Keeps.putW ?_
    | with_reducible refine Keeps.ite ?_ ?_ | with_reducible refine Rest.wr _ _ _ _ (by decide) ?_ | with_reducible refine Rest.when ?_ ?_
    | with_reducible refine Rest.iteS ?_ ?_ | with_reducible refine World.endKick_rest (by decide) ?_
    | with_reducible refine World.fanDuties_rest (by decide) ?_ | with_reducible refine World.fanTarget_rest (by decide) ?_
    | with_reducible refine World.updFan_rest (by decide) ?_ | with_reducible refine Rest.gateObj _ _ _ (by decide) ?_ ?_
    | with_reducible refine Rest.ite ?_ ?_ | dsimp only | split | intro _

theorem execLogicInStateChange_keeps {v i : Nat} {clamped : Bool} {s : State} : Keeps [.evt, .pwr, .dsp, .latch, .reg 0x100018, .reg 0xF00018, .reg 0x1000018, .reg 0x100001C, .reg 0x1000030, .reg 0x1000044, .reg 0x1000070] (execLogicInStateChange v i clamped s) s := by
  unfold execLogicInStateChange
  try dsimp only
  repeat' first
    | with_reducible exact Rest.refl _ _ | with_reducible exact Side.refl _ _ | with_reducible assumption | with_reducible refine Keeps.lift ?_
    | with_reducible refine Keeps.ite ?_ ?_ | with_reducible refine Rest.wr _ _ _ _ (by decide) ?_
    | with_reducible refine Rest.bump _ _ _ (by decide) ?_ | with_reducible refine Rest.when ?_ ?_ | with_reducible refine Rest.iteS ?_ ?_
    | with_reducible refine World.dspFast_rest (by decide) ?_ | with_reducible refine World.fanDuties_rest (by decide) ?_
    | with_reducible refine World.pwrEvent_rest (by decide) ?_ | with_reducible refine World.updPwr_rest (by decide) ?_
    | with_reducible refine Rest.ite ?_ ?_ | with_reducible refine Rest.set_latch (by decide) ?_ _ | dsimp only | split | intro _

theorem execSupplyClassSelect_keeps {mean : Nat} {s : State} : Keeps [.pwr, .reg 0x1000018] (execSupplyClassSelect mean s) s := by
  unfold execSupplyClassSelect
  try dsimp only
  repeat' first
    | with_reducible exact Rest.refl _ _ | with_reducible exact Side.refl _ _ | with_reducible assumption | with_reducible refine Keeps.lift ?_
    | with_reducible refine Keeps.ite ?_ ?_ | with_reducible refine Rest.wr _ _ _ _ (by decide) ?_ | with_reducible refine Rest.when ?_ ?_
    | with_reducible refine Rest.iteS ?_ ?_ | with_reducible refine World.updPwr_rest (by decide) ?_ | with_reducible refine Rest.ite ?_ ?_
    | dsimp only | split | intro _

theorem execHoldupReady_keeps {v : Nat} {s : State} : Keeps [.reg 0x1000030] (execHoldupReady v s) s := by
  unfold execHoldupReady
  try dsimp only
  repeat' first
    | with_reducible exact Rest.refl _ _ | with_reducible exact Side.refl _ _ | with_reducible assumption | with_reducible refine Keeps.lift ?_
    | with_reducible refine Keeps.ite ?_ ?_ | with_reducible refine Rest.wr _ _ _ _ (by decide) ?_ | with_reducible refine Rest.iteS ?_ ?_
    | with_reducible refine Rest.ite ?_ ?_ | dsimp only | split | intro _

theorem execPwrClrCnt_keeps {h : Half} {init : Nat} {s : State} : Keeps [.evt, .reg 0x100018, .reg 0x300118, .reg 0x1000070] (execPwrClrCnt h init s) s := by
  unfold execPwrClrCnt
  try dsimp only
  repeat' first
    | with_reducible exact Rest.refl _ _ | with_reducible exact Side.refl _ _ | with_reducible assumption | with_reducible refine Keeps.putW ?_
    | with_reducible refine Keeps.ite ?_ ?_ | with_reducible refine Rest.setReg _ _ _ _ (by decide) ?_ | with_reducible refine Rest.iteS ?_ ?_
    | with_reducible refine Rest.gateAny _ _ _ _ _ (by decide) ?_ ?_ | with_reducible refine Rest.ite ?_ ?_ | dsimp only | split | intro _

theorem execFeedMeasurement_keeps {f v i : Nat} {s : State} : Keeps [.reg 0x1000020] (execFeedMeasurement f v i s) s := by
  unfold execFeedMeasurement
  try dsimp only
  repeat' first
    | with_reducible exact Rest.refl _ _ | with_reducible exact Side.refl _ _ | with_reducible assumption | with_reducible refine Keeps.lift ?_
    | with_reducible refine Keeps.ite ?_ ?_ | with_reducible refine Rest.wr _ _ _ _ (by decide) ?_ | with_reducible refine Rest.when ?_ ?_
    | with_reducible refine Rest.iteS ?_ ?_ | with_reducible refine Rest.ite ?_ ?_ | dsimp only | split | intro _

theorem execFuseOpen_keeps {f stud behind : Nat} {s : State} : Keeps [.evt, .lsw, .reg 0x100018, .reg 0x600024, .reg 0x1000020] (execFuseOpen f stud behind s) s := by
  unfold execFuseOpen
  try dsimp only
  repeat' first
    | with_reducible exact Rest.refl _ _ | with_reducible exact Side.refl _ _ | with_reducible assumption | with_reducible refine Keeps.lift ?_
    | with_reducible refine Keeps.ite ?_ ?_ | with_reducible refine Rest.wr _ _ _ _ (by decide) ?_ | with_reducible refine Rest.when ?_ ?_
    | with_reducible refine Rest.iteS ?_ ?_ | with_reducible refine World.feedGone_rest (by decide) ?_
    | with_reducible refine World.pwrEvent_rest (by decide) ?_ | with_reducible refine Rest.ite ?_ ?_ | dsimp only | split | intro _

theorem execFeedConnect_keeps {h : Half} {init f : Nat} {on : Bool} {s : State} : Keeps [.evt, .reg 0x100018, .reg 0x300118, .reg 0x1000020] (execFeedConnect h init f on s) s := by
  unfold execFeedConnect
  try dsimp only
  repeat' first
    | with_reducible exact Rest.refl _ _ | with_reducible exact Side.refl _ _ | with_reducible assumption | with_reducible refine Keeps.putW ?_
    | with_reducible refine Keeps.next ?_ ?_ | with_reducible refine Side.ite ?_ ?_ | with_reducible refine Side.set_w ?_ _
    | with_reducible refine Keeps.ite ?_ ?_ | with_reducible refine Rest.wr _ _ _ _ (by decide) ?_ | with_reducible refine Rest.iteS ?_ ?_
    | with_reducible refine Rest.gateObj _ _ _ (by decide) ?_ ?_ | with_reducible refine Rest.ite ?_ ?_ | dsimp only | split | intro _

theorem execDerateChange_keeps {ta : Int} {s : State} : Keeps [.evt, .pwr, .reg 0x100018, .reg 0x1000018, .reg 0x1000034] (execDerateChange ta s) s := by
  unfold execDerateChange
  try dsimp only
  repeat' first
    | with_reducible exact Rest.refl _ _ | with_reducible exact Side.refl _ _ | with_reducible assumption | with_reducible refine Keeps.lift ?_
    | with_reducible refine Keeps.ite ?_ ?_ | with_reducible refine Rest.wrI _ _ _ _ (by decide) ?_ | with_reducible refine Rest.when ?_ ?_
    | with_reducible refine Rest.iteS ?_ ?_ | with_reducible refine World.setDerate_rest (by decide) ?_
    | with_reducible refine World.updPwr_rest (by decide) ?_ | with_reducible refine Rest.ite ?_ ?_ | dsimp only | split | intro _

theorem execCoolantTemperatureWarning_keeps {tin tout ta : Int} {s : State} : Keeps [.evt, .pwr, .reg 0x100018, .reg 0x1000018, .reg 0x1000034, .reg 0x1000044] (execCoolantTemperatureWarning tin tout ta s) s := by
  unfold execCoolantTemperatureWarning
  try dsimp only
  repeat' first
    | with_reducible exact Rest.refl _ _ | with_reducible exact Side.refl _ _ | with_reducible assumption | with_reducible refine Keeps.lift ?_
    | with_reducible refine Keeps.ite ?_ ?_ | with_reducible refine Rest.wrI _ _ _ _ (by decide) ?_ | with_reducible refine Rest.when ?_ ?_
    | with_reducible refine Rest.iteS ?_ ?_ | with_reducible refine World.fanDuties_rest (by decide) ?_
    | with_reducible refine World.pwrEvent_rest (by decide) ?_ | with_reducible refine World.thermistor_rest (by decide) ?_
    | with_reducible refine World.updPwr_rest (by decide) ?_ | with_reducible refine Rest.ite ?_ ?_ | dsimp only | split | intro _

theorem execCoolingOverride_keeps {ts : Int} {s : State} : Keeps [.evt, .pwr, .reg 0x100018, .reg 0x1000038, .reg 0x1000044] (execCoolingOverride ts s) s := by
  unfold execCoolingOverride
  try dsimp only
  repeat' first
    | with_reducible exact Rest.refl _ _ | with_reducible exact Side.refl _ _ | with_reducible assumption | with_reducible refine Keeps.lift ?_
    | with_reducible refine Keeps.ite ?_ ?_ | with_reducible refine Rest.wr _ _ _ _ (by decide) ?_ | with_reducible refine Rest.iteS ?_ ?_
    | with_reducible refine World.fanDuties_rest (by decide) ?_ | with_reducible refine World.pwrEvent_rest (by decide) ?_
    | with_reducible refine World.readTs_rest (by decide) ?_ | with_reducible refine Rest.ite ?_ ?_ | dsimp only | split | intro _

theorem execSysShdnExternal_keeps {low : Bool} {s : State} : Keeps [.evt, .reg 0x100018, .reg 0x1000038] (execSysShdnExternal low s) s := by
  unfold execSysShdnExternal
  try dsimp only
  repeat' first
    | with_reducible exact Rest.refl _ _ | with_reducible exact Side.refl _ _ | with_reducible assumption | with_reducible refine Keeps.lift ?_
    | with_reducible refine Keeps.ite ?_ ?_ | with_reducible refine Rest.wr _ _ _ _ (by decide) ?_ | with_reducible refine Rest.when ?_ ?_
    | with_reducible refine Rest.iteS ?_ ?_ | with_reducible refine World.pwrEvent_rest (by decide) ?_ | with_reducible refine Rest.ite ?_ ?_
    | dsimp only | split | intro _

theorem execGreenRampEnd_keeps {k : Nat} {s : State} : Keeps [.vlv, .pwr, .reg 0x500028, .reg 0x1000044] (execGreenRampEnd k s) s := by
  unfold execGreenRampEnd
  try dsimp only
  repeat' first
    | with_reducible exact Rest.refl _ _ | with_reducible exact Side.refl _ _ | with_reducible assumption | with_reducible refine Keeps.lift ?_
    | with_reducible refine Keeps.ite ?_ ?_ | with_reducible refine Rest.when ?_ ?_ | with_reducible refine Rest.iteS ?_ ?_
    | with_reducible refine World.fanDuties_rest (by decide) ?_ | with_reducible refine World.updFan_rest (by decide) ?_
    | with_reducible refine World.valveRampEnd_rest (by decide) ?_ | with_reducible refine Rest.ite ?_ ?_ | dsimp only | split | intro _

theorem execSafeOffAssert_keeps {b : Bool} {s : State} : Keeps [.evt, .vlv, .lsw, .can, .dsp, .reg 0x100018, .reg 0x500028, .reg 0x600024, .reg 0x900030, .reg 0x900044, .reg 0xF00018, .reg 0x1000044, .reg 0x1000074] (execSafeOffAssert b s) s := by
  refine Keeps.lift (World.safeUpdate_rest (by decide) (Rest.when (Rest.wr _ _ _ _ ?_ (Rest.refl _ _)) fun u hu => Rest.wr _ _ _ _ (by decide) hu))
  unfold safeRel; split <;> decide

theorem execSafeOffRelease_keeps {b : Bool} {s : State} : Keeps [.evt, .vlv, .lsw, .can, .dsp, .reg 0x100018, .reg 0x500028, .reg 0x600024, .reg 0x900030, .reg 0x900044, .reg 0xF00018, .reg 0x1000044, .reg 0x1000074] (execSafeOffRelease b s) s := by
  refine Keeps.lift (World.safeUpdate_rest (by decide) (Rest.wr _ _ _ _ ?_ (Rest.refl _ _)))
  unfold safeRel; split <;> decide

theorem execSafeOffDiscrepancy_keeps {s : State} : Keeps [.evt, .vlv, .lsw, .can, .dsp, .reg 0x100018, .reg 0x500028, .reg 0x600024, .reg 0x900030, .reg 0x900044, .reg 0xF00018, .reg 0x1000044, .reg 0x1000074] (execSafeOffDiscrepancy s) s := by
  unfold execSafeOffDiscrepancy
  try dsimp only
  repeat' first
    | with_reducible exact Rest.refl _ _ | with_reducible exact Side.refl _ _ | with_reducible assumption | with_reducible refine Keeps.lift ?_
    | with_reducible refine Keeps.ite ?_ ?_ | with_reducible refine Rest.wr _ _ _ _ (by decide) ?_ | with_reducible refine Rest.when ?_ ?_
    | with_reducible refine Rest.iteS ?_ ?_ | with_reducible refine World.safeUpdate_rest (by decide) ?_ | with_reducible refine Rest.ite ?_ ?_
    | dsimp only | split | intro _

theorem execRecipeLockRelease_keeps {t : Nat} {s : State} : Keeps [.vlv, .reg 0x500080] (execRecipeLockRelease t s) s := by
  unfold execRecipeLockRelease
  try dsimp only
  repeat' first
    | with_reducible exact Rest.refl _ _ | with_reducible exact Side.refl _ _ | with_reducible assumption | with_reducible refine Keeps.lift ?_
    | with_reducible refine Keeps.ite ?_ ?_ | with_reducible refine Rest.when ?_ ?_ | with_reducible refine Rest.iteS ?_ ?_
    | with_reducible refine World.tileRetry_rest (by decide) ?_ | with_reducible refine World.unlockTile_rest (by decide) ?_
    | with_reducible refine Rest.ite ?_ ?_ | dsimp only | split | intro _

theorem execReferenceValid_keeps {h : Half} {r : Nat} {ofs : Int} {leap : Option Nat} {s : State} : Keeps [.evt, .tim, .reg 0x100018, .reg 0x200010, .reg 0x200018, .reg 0x200048, .reg 0x200050, .reg 0x200054] (execReferenceValid h r ofs leap s) s := by
  unfold execReferenceValid
  try dsimp only
  repeat' first
    | with_reducible exact Rest.refl _ _ | with_reducible exact Side.refl _ _ | with_reducible assumption | with_reducible refine Keeps.lift ?_
    | with_reducible refine Keeps.ite ?_ ?_ | with_reducible refine Rest.wr _ _ _ _ (by decide) ?_ | with_reducible refine Rest.when ?_ ?_
    | with_reducible refine Rest.iteS ?_ ?_ | with_reducible refine World.setRef_rest (by decide) ?_
    | with_reducible refine World.takeOffset_rest (by decide) ?_ | with_reducible refine World.timFollow_rest (by decide) ?_
    | with_reducible refine World.updTim_rest (by decide) ?_ | with_reducible refine Rest.ite ?_ ?_ | dsimp only | split | intro _

theorem execReferenceLost_keeps {h : Half} {r : Nat} {s : State} : Keeps [.evt, .tim, .reg 0x100018, .reg 0x200010, .reg 0x200018, .reg 0x200048, .reg 0x200050, .reg 0x200054] (execReferenceLost h r s) s := by
  unfold execReferenceLost
  try dsimp only
  repeat' first
    | with_reducible exact Rest.refl _ _ | with_reducible exact Side.refl _ _ | with_reducible assumption | with_reducible refine Keeps.lift ?_
    | with_reducible refine Keeps.ite ?_ ?_ | with_reducible refine Rest.wr _ _ _ _ (by decide) ?_ | with_reducible refine Rest.iteS ?_ ?_
    | with_reducible refine World.refLost_rest (by decide) ?_ | with_reducible refine Rest.ite ?_ ?_ | dsimp only | split | intro _

theorem execTimeStep_keeps {s : State} : Keeps [.evt, .tim, .grd, .keeper, .reg 0x100018, .reg 0x200010, .reg 0x200018, .reg 0x200048, .reg 0x200050, .reg 0x200054, .reg 0xB000D0, .reg 0xE00120] (execTimeStep s) s := by
  unfold execTimeStep
  refine Keeps.lift ?_
  beta_reduce
  extract_lets h
  split
  · exact Rest.refl _ _
  · extract_lets d one w1 w2 free w3 w4 x4
    have ho : ∀ u k, Rest [.evt, .tim, .grd, .keeper, .reg 0x100018, .reg 0x200010, .reg 0x200018, .reg 0x200048, .reg 0x200050, .reg 0x200054, .reg 0xB000D0, .reg 0xE00120] u s.w → Rest [.evt, .tim, .grd, .keeper, .reg 0x100018, .reg 0x200010, .reg 0x200018, .reg 0x200048, .reg 0x200050, .reg 0x200054, .reg 0xB000D0, .reg 0xE00120] (one u k) s.w := fun u k hu =>
      Rest.bump _ _ _ (by decide) (Rest.wr _ _ _ _ (by decide) (World.updTim_rest (by decide) (World.endSlew_rest (by decide)
        (World.gnssStep_rest (by decide) (World.grindStep_rest (by decide) hu)))))
    clear_value one
    have h1 : Rest [.evt, .tim, .grd, .keeper, .reg 0x100018, .reg 0x200010, .reg 0x200018, .reg 0x200048, .reg 0x200050, .reg 0x200054, .reg 0xB000D0, .reg 0xE00120] w1 s.w := ho _ _ (Rest.refl _ _)
    clear_value w1
    have h2 : Rest [.evt, .tim, .grd, .keeper, .reg 0x100018, .reg 0x200010, .reg 0x200018, .reg 0x200048, .reg 0x200050, .reg 0x200054, .reg 0xB000D0, .reg 0xE00120] w2 s.w := Rest.ite (ho _ _ h1) h1
    clear_value w2
    have h3 : Rest [.evt, .tim, .grd, .keeper, .reg 0x100018, .reg 0x200010, .reg 0x200018, .reg 0x200048, .reg 0x200050, .reg 0x200054, .reg 0xB000D0, .reg 0xE00120] w3 s.w := World.setTimState_rest (by decide) h2
    clear_value w3
    have h4 : Rest [.evt, .tim, .grd, .keeper, .reg 0x100018, .reg 0x200010, .reg 0x200018, .reg 0x200048, .reg 0x200050, .reg 0x200054, .reg 0xB000D0, .reg 0xE00120] w4 s.w := Rest.raiseBoth _ _ (by decide) h3
    clear_value w4
    exact World.timFollow_rest (by decide) (Rest.set_keeper (by decide) h4 _)

theorem execSlewEnd_keeps {h : Half} {s : State} : Keeps [.evt, .tim, .reg 0x100018, .reg 0x200010, .reg 0x200018, .reg 0x200048, .reg 0x200050, .reg 0x200054] (execSlewEnd h s) s := by
  unfold execSlewEnd
  try dsimp only
  repeat' first
    | with_reducible exact Rest.refl _ _ | with_reducible exact Side.refl _ _ | with_reducible assumption | with_reducible refine Keeps.lift ?_
    | with_reducible refine Keeps.ite ?_ ?_ | with_reducible refine Rest.wrI _ _ _ _ (by decide) ?_
    | with_reducible refine Rest.raiseBoth _ _ (by decide) ?_ | with_reducible refine Rest.iteS ?_ ?_
    | with_reducible refine World.endSlew_rest (by decide) ?_ | with_reducible refine World.setTimState_rest (by decide) ?_
    | with_reducible refine World.timFollow_rest (by decide) ?_ | with_reducible refine Rest.ite ?_ ?_ | dsimp only | split | intro _

theorem execTimeSet_keeps {h : Half} {init : Nat} {s : State} : Keeps [.tim, .reg 0x200010, .reg 0x200018, .reg 0x200048, .reg 0x200050, .reg 0x200054] (execTimeSet h init s) s := by
  unfold execTimeSet
  try dsimp only
  repeat' first
    | with_reducible exact Rest.refl _ _ | with_reducible exact Side.refl _ _ | with_reducible assumption | with_reducible refine Keeps.lift ?_
    | with_reducible refine Keeps.ite ?_ ?_ | with_reducible refine Rest.iteS ?_ ?_ | with_reducible refine World.decideStep_rest (by decide) ?_
    | with_reducible refine World.timFollow_rest (by decide) ?_ | with_reducible refine Rest.ite ?_ ?_ | dsimp only | split | intro _

theorem execTimeRefSelect_keeps {h : Half} {init v : Nat} {s : State} : Keeps [.evt, .tim, .reg 0x100018, .reg 0x200010, .reg 0x200018, .reg 0x200048, .reg 0x200050, .reg 0x200054] (execTimeRefSelect h init v s) s := by
  unfold execTimeRefSelect
  try dsimp only
  repeat' first
    | with_reducible exact Rest.refl _ _ | with_reducible exact Side.refl _ _ | with_reducible assumption | with_reducible refine Keeps.lift ?_
    | with_reducible refine Keeps.ite ?_ ?_ | with_reducible refine Rest.wr _ _ _ _ (by decide) ?_ | with_reducible refine Rest.when ?_ ?_
    | with_reducible refine Rest.iteS ?_ ?_ | with_reducible refine World.refLost_rest (by decide) ?_ | with_reducible refine Rest.ite ?_ ?_
    | dsimp only | split | intro _

theorem execTimeInEdge_keeps {h : Half} {s : State} : Keeps [.evt, .tim, .reg 0x100018, .reg 0x200018, .reg 0x200030, .reg 0x200034, .reg 0x200054] (execTimeInEdge h s) s := by
  unfold execTimeInEdge
  try dsimp only
  repeat' first
    | with_reducible exact Rest.refl _ _ | with_reducible exact Side.refl _ _ | with_reducible assumption | with_reducible refine Keeps.lift ?_
    | with_reducible refine Keeps.ite ?_ ?_ | with_reducible refine Rest.wr _ _ _ _ (by decide) ?_
    | with_reducible refine Rest.raise _ _ _ (by decide) ?_ | with_reducible refine Rest.iteS ?_ ?_
    | with_reducible refine World.rejectEdge_rest (by decide) ?_ | with_reducible refine World.updTim_rest (by decide) ?_
    | with_reducible refine Rest.ite ?_ ?_ | dsimp only | split | intro _

theorem execTimeInLost_keeps {h : Half} {s : State} : Keeps [.evt, .tim, .reg 0x100018, .reg 0x200010, .reg 0x200018, .reg 0x200048, .reg 0x200050, .reg 0x200054] (execTimeInLost h s) s := by
  unfold execTimeInLost
  try dsimp only
  repeat' first
    | with_reducible exact Rest.refl _ _ | with_reducible exact Side.refl _ _ | with_reducible assumption | with_reducible refine Keeps.lift ?_
    | with_reducible refine Keeps.ite ?_ ?_ | with_reducible refine Rest.wr _ _ _ _ (by decide) ?_
    | with_reducible refine Rest.raise _ _ _ (by decide) ?_ | with_reducible refine Rest.when ?_ ?_ | with_reducible refine Rest.iteS ?_ ?_
    | with_reducible refine World.refLost_rest (by decide) ?_ | with_reducible refine World.updTim_rest (by decide) ?_
    | with_reducible refine Rest.ite ?_ ?_ | dsimp only | split | intro _

theorem execTimePulse_keeps {s : State} : Keeps [.evt, .keeper, .reg 0x100018, .reg 0x200018, .reg 0x200028, .reg 0x20002C] (execTimePulse s) s := by
  unfold execTimePulse
  try dsimp only
  repeat' first
    | with_reducible exact Rest.refl _ _ | with_reducible exact Side.refl _ _ | with_reducible assumption | with_reducible refine Keeps.lift ?_
    | with_reducible refine Keeps.ite ?_ ?_ | with_reducible refine Rest.wr _ _ _ _ (by decide) ?_
    | with_reducible refine Rest.raiseBoth _ _ (by decide) ?_ | with_reducible refine Rest.when ?_ ?_ | with_reducible refine Rest.iteS ?_ ?_
    | with_reducible refine Rest.ite ?_ ?_ | with_reducible refine Rest.set_keeper (by decide) ?_ _ | dsimp only | split | intro _

theorem execTimeQualityMessage_keeps {h : Half} {s : State} : Keeps [.tim, .keeper] (execTimeQualityMessage h s) s := by
  unfold execTimeQualityMessage
  try dsimp only
  repeat' first
    | with_reducible exact Rest.refl _ _ | with_reducible exact Side.refl _ _ | with_reducible assumption | with_reducible refine Keeps.lift ?_
    | with_reducible refine Keeps.ite ?_ ?_ | with_reducible refine Rest.iteS ?_ ?_ | with_reducible refine World.updTim_rest (by decide) ?_
    | with_reducible refine Rest.ite ?_ ?_ | with_reducible refine Rest.set_keeper (by decide) ?_ _ | dsimp only | split | intro _

theorem execTimeAid_keeps {h : Half} {init v : Nat} {s : State} : Keeps [.evt, .tim, .gns, .reg 0x100018, .reg 0x200010, .reg 0x200018, .reg 0x200048, .reg 0x200050, .reg 0x200054, .reg 0xB00090] (execTimeAid h init v s) s := by
  unfold execTimeAid
  try dsimp only
  repeat' first
    | with_reducible exact Rest.refl _ _ | with_reducible exact Side.refl _ _ | with_reducible assumption | with_reducible refine Keeps.lift ?_
    | with_reducible refine Keeps.ite ?_ ?_ | with_reducible refine Rest.wr _ _ _ _ (by decide) ?_ | with_reducible refine Rest.iteS ?_ ?_
    | with_reducible refine World.takeOffset_rest (by decide) ?_ | with_reducible refine World.timFollow_rest (by decide) ?_
    | with_reducible refine World.updGnss_rest (by decide) ?_ | with_reducible refine Rest.ite ?_ ?_ | dsimp only | split | intro _

theorem execTrackCycle_keeps {h : Half} {veh : Int × Int × Int} {dets : List Det} {s : State} : Keeps [.evt, .dram, .trk, .reg 0x100018, .reg 0xE00014, .reg 0xE00018, .reg 0xE0001C, .reg 0xE00020, .reg 0xE00024, .reg 0xE0002C] (execTrackCycle h veh dets s) s := by
  unfold execTrackCycle
  try dsimp only
  repeat' first
    | with_reducible exact Rest.refl _ _ | with_reducible exact Side.refl _ _ | with_reducible assumption | with_reducible refine Keeps.lift ?_
    | with_reducible refine Keeps.ite ?_ ?_ | with_reducible refine Rest.wr _ _ _ _ (by decide) ?_ | with_reducible refine Rest.forAll ?_ ?_
    | with_reducible refine Rest.iteS ?_ ?_ | with_reducible refine World.applyDets_rest (by decide) ?_
    | with_reducible refine World.mirrorTrk_rest (by decide) ?_ | with_reducible refine World.missStep_rest (by decide) ?_
    | with_reducible refine World.publishStore_rest (by decide) ?_ | with_reducible refine World.setLevels_rest (by decide) ?_
    | with_reducible refine World.stopOf_rest (by decide) ?_ | with_reducible refine World.updTrk_rest (by decide) ?_
    | with_reducible refine Rest.ite ?_ ?_ | dsimp only | split | intro _

theorem execLateDetection_keeps {h : Half} {stamp : Nat} {dets : List Det} {s : State} : Keeps [.evt, .grd, .trk, .reg 0x100018, .reg 0xE00014, .reg 0xE0002C] (execLateDetection h stamp dets s) s := by
  unfold execLateDetection
  try dsimp only
  repeat' first
    | with_reducible exact Rest.refl _ _ | with_reducible exact Side.refl _ _ | with_reducible assumption | with_reducible refine Keeps.lift ?_
    | with_reducible refine Keeps.ite ?_ ?_ | with_reducible refine Rest.bump _ _ _ (by decide) ?_ | with_reducible refine Rest.forAll ?_ ?_
    | with_reducible refine Rest.iteS ?_ ?_ | with_reducible refine World.applyDets_rest (by decide) ?_
    | with_reducible refine World.updGrind_rest (by decide) ?_ | with_reducible refine Rest.ite ?_ ?_ | dsimp only | split | intro _

theorem execStopLevelFall_keeps {h : Half} {k : Nat} {s : State} : Keeps [.evt, .trk, .reg 0x100018, .reg 0xE00018] (execStopLevelFall h k s) s := by
  unfold execStopLevelFall
  try dsimp only
  repeat' first
    | with_reducible exact Rest.refl _ _ | with_reducible exact Side.refl _ _ | with_reducible assumption | with_reducible refine Keeps.lift ?_
    | with_reducible refine Keeps.ite ?_ ?_ | with_reducible refine Rest.when ?_ ?_ | with_reducible refine Rest.iteS ?_ ?_
    | with_reducible refine World.stopOf_rest (by decide) ?_ | with_reducible refine Rest.ite ?_ ?_ | dsimp only | split | intro _

theorem execStopHoldExpiry_keeps {h : Half} {s : State} : Keeps [.trk, .reg 0xE00018] (execStopHoldExpiry h s) s := by
  unfold execStopHoldExpiry
  try dsimp only
  repeat' first
    | with_reducible exact Rest.refl _ _ | with_reducible exact Side.refl _ _ | with_reducible assumption | with_reducible refine Keeps.lift ?_
    | with_reducible refine Keeps.ite ?_ ?_ | with_reducible refine Rest.wr _ _ _ _ (by decide) ?_ | with_reducible refine Rest.when ?_ ?_
    | with_reducible refine Rest.iteS ?_ ?_ | with_reducible refine World.updTrk_rest (by decide) ?_ | with_reducible refine Rest.ite ?_ ?_
    | dsimp only | split | intro _

theorem execTrackIgnore_keeps {h : Half} {init v : Nat} {s : State} : Keeps [.evt, .dram, .trk, .reg 0x100018, .reg 0xE00014, .reg 0xE00018, .reg 0xE0001C, .reg 0xE00020, .reg 0xE00024] (execTrackIgnore h init v s) s := by
  unfold execTrackIgnore
  try dsimp only
  repeat' first
    | with_reducible exact Rest.refl _ _ | with_reducible exact Side.refl _ _ | with_reducible assumption | with_reducible refine Keeps.lift ?_
    | with_reducible refine Keeps.ite ?_ ?_ | with_reducible refine Rest.wr _ _ _ _ (by decide) ?_
    | with_reducible refine Rest.raise _ _ _ (by decide) ?_ | with_reducible refine Rest.when ?_ ?_ | with_reducible refine Rest.iteS ?_ ?_
    | with_reducible refine World.mirrorTrk_rest (by decide) ?_ | with_reducible refine World.updTrk_rest (by decide) ?_
    | with_reducible refine Rest.ite ?_ ?_ | dsimp only | split | intro _

theorem execTrkClrCnt_keeps {h : Half} {init : Nat} {s : State} : Keeps [.reg 0xE0002C] (execTrkClrCnt h init s) s := by
  unfold execTrkClrCnt
  try dsimp only
  repeat' first
    | with_reducible exact Rest.refl _ _ | with_reducible exact Side.refl _ _ | with_reducible assumption | with_reducible refine Keeps.lift ?_
    | with_reducible refine Keeps.ite ?_ ?_ | with_reducible refine Rest.wr _ _ _ _ (by decide) ?_ | with_reducible refine Rest.iteS ?_ ?_
    | with_reducible refine Rest.ite ?_ ?_ | dsimp only | split | intro _

end Sys2Proof.Machine
end

