-- ==== Sys2Proof/Laws/FrameSense.lean ====
section
/-!
SUPPORT. What each command of these units leaves alone.
-/
set_option linter.unreachableTactic false
set_option linter.unusedTactic false

namespace Sys2Proof.Machine

theorem execSensorSegment_keeps {h : Half} {p seq ofs flags : Nat} {data : List Byte} {s : State} : Keeps [.grd, .reg 0xC00040, .reg 0xE00118, .reg 0xE0011C] (execSensorSegment h p seq ofs flags data s) s := by
  unfold execSensorSegment
  try dsimp only
  repeat' first
    | with_reducible exact Rest.refl _ _ | with_reducible exact Side.refl _ _ | with_reducible assumption | with_reducible refine Keeps.lift ?_
    | with_reducible refine Keeps.ite ?_ ?_ | with_reducible refine Rest.iteS ?_ ?_ | with_reducible refine World.sample_rest (by decide) ?_
    | with_reducible refine World.updGrind_rest (by decide) ?_ | with_reducible refine Rest.ite ?_ ?_ | dsimp only | split | intro _

theorem execSampleReassemblyTimeout_keeps {h : Half} {p seq : Nat} {s : State} : Keeps [.grd, .reg 0xC00040] (execSampleReassemblyTimeout h p seq s) s := by
  unfold execSampleReassemblyTimeout
  try dsimp only
  repeat' first
    | with_reducible exact Rest.refl _ _ | with_reducible exact Side.refl _ _ | with_reducible assumption | with_reducible refine Keeps.lift ?_
    | with_reducible refine Keeps.ite ?_ ?_ | with_reducible refine Rest.when ?_ ?_ | with_reducible refine Rest.iteS ?_ ?_
    | with_reducible refine World.dropSample_rest (by decide) ?_ | with_reducible refine World.updGrind_rest (by decide) ?_
    | with_reducible refine Rest.ite ?_ ?_ | dsimp only | split | intro _

theorem execSensorSample_keeps {h : Half} {p : Nat} {bs : List Byte} {s : State} : Keeps [.grd, .reg 0xC00040, .reg 0xE00118, .reg 0xE0011C] (execSensorSample h p bs s) s := by
  unfold execSensorSample
  try dsimp only
  repeat' first
    | with_reducible exact Rest.refl _ _ | with_reducible exact Side.refl _ _ | with_reducible assumption | with_reducible refine Keeps.lift ?_
    | with_reducible refine Keeps.ite ?_ ?_ | with_reducible refine Rest.iteS ?_ ?_ | with_reducible refine World.sample_rest (by decide) ?_
    | with_reducible refine Rest.ite ?_ ?_ | dsimp only | split | intro _

theorem execPortStateTimer_keeps {h : Half} {p : Nat} {blind : Bool} {s : State} : Keeps [.evt, .reg 0x100018, .reg 0xC00040] (execPortStateTimer h p blind s) s := by
  unfold execPortStateTimer
  try dsimp only
  repeat' first
    | with_reducible exact Rest.refl _ _ | with_reducible exact Side.refl _ _ | with_reducible assumption | with_reducible refine Keeps.lift ?_
    | with_reducible refine Keeps.ite ?_ ?_ | with_reducible refine Rest.iteS ?_ ?_ | with_reducible refine World.setPort_rest (by decide) ?_
    | with_reducible refine Rest.ite ?_ ?_ | dsimp only | split | intro _

theorem execGradeRise_keeps {h : Half} {s : State} : Keeps [.evt, .trk, .reg 0x100018, .reg 0x400020, .reg 0xE00018, .reg 0xE00108] (execGradeRise h s) s := by
  unfold execGradeRise
  try dsimp only
  repeat' first
    | with_reducible exact Rest.refl _ _ | with_reducible exact Side.refl _ _ | with_reducible assumption | with_reducible refine Keeps.lift ?_
    | with_reducible refine Keeps.ite ?_ ?_ | with_reducible refine Rest.when ?_ ?_ | with_reducible refine Rest.foldl ?_ ?_
    | with_reducible refine Rest.iteS ?_ ?_ | with_reducible refine World.checkBlind_rest (by decide) ?_
    | with_reducible refine World.setGrade_rest (by decide) ?_ | with_reducible refine Rest.ite ?_ ?_ | dsimp only | split | intro _

theorem execGrindInstant_keeps {h : Half} {s : State} : Keeps [.evt, .grd, .trk, .reg 0x100018, .reg 0x400020, .reg 0xC00018, .reg 0xD00038, .reg 0xE00018, .reg 0xE00108] (execGrindInstant h s) s := by
  unfold execGrindInstant
  try dsimp only
  repeat' first
    | with_reducible exact Rest.refl _ _ | with_reducible exact Side.refl _ _ | with_reducible assumption | with_reducible refine Keeps.lift ?_
    | with_reducible refine Keeps.ite ?_ ?_ | with_reducible refine Rest.wr _ _ _ _ (by decide) ?_ | with_reducible refine Rest.iteS ?_ ?_
    | with_reducible refine World.ageLate_rest (by decide) ?_ | with_reducible refine World.evalGrade_rest (by decide) ?_
    | with_reducible refine World.updGrind_rest (by decide) ?_ | with_reducible refine Rest.ite ?_ ?_ | dsimp only | split | intro _

theorem execGatherClose_keeps {h : Half} {feats : List (Nat × Nat)} {rate meas fill : Nat} {load : List Nat} {s : State} : Keeps [.xng, .grd, .reg 0xC00018, .reg 0xC0001C, .reg 0xC00024, .reg 0xD00030, .reg 0xE0011C] (execGatherClose h feats rate meas fill load s) s := by
  unfold execGatherClose
  refine Keeps.lift ?_
  beta_reduce
  split
  · exact Rest.refl _ _
  · extract_lets g here newest gone w1 sq w2 c' w3 w4 w5
    have h1 : Rest [.xng, .grd, .reg 0xC00018, .reg 0xC0001C, .reg 0xC00024, .reg 0xD00030, .reg 0xE0011C] w1 s.w := Rest.forAll (Rest.refl _ _) fun u a hu => Rest.bump _ _ _ (by decide) hu
    have h2 : Rest [.xng, .grd, .reg 0xC00018, .reg 0xC0001C, .reg 0xC00024, .reg 0xD00030, .reg 0xE0011C] w2 s.w := Rest.set_xng (by decide) h1 _
    clear_value w1
    have h3 : Rest [.xng, .grd, .reg 0xC00018, .reg 0xC0001C, .reg 0xC00024, .reg 0xD00030, .reg 0xE0011C] w3 s.w := World.updGrind_rest (by decide) h2
    clear_value w2
    have h4 : Rest [.xng, .grd, .reg 0xC00018, .reg 0xC0001C, .reg 0xC00024, .reg 0xD00030, .reg 0xE0011C] w4 s.w := Rest.wr _ _ _ _ (by decide) (Rest.wr _ _ _ _ (by decide) (Rest.wr _ _ _ _ (by decide) h3))
    clear_value w3
    have h5 : Rest [.xng, .grd, .reg 0xC00018, .reg 0xC0001C, .reg 0xC00024, .reg 0xD00030, .reg 0xE0011C] w5 s.w := Rest.wr _ _ _ _ (by decide) (Rest.wr _ _ _ _ (by decide) h4)
    clear_value w4 w5
    exact Rest.wr _ _ _ _ (by decide) (Rest.wr _ _ _ _ (by decide) (Rest.wr _ _ _ _ (by decide) (Rest.wr _ _ _ _ (by decide) h5)))

theorem execFeatureChunkReceived_keeps {h : Half} {seq : Nat} {s : State} : Keeps [.grd] (execFeatureChunkReceived h seq s) s := by
  unfold execFeatureChunkReceived
  try dsimp only
  repeat' first
    | with_reducible exact Rest.refl _ _ | with_reducible exact Side.refl _ _ | with_reducible assumption | with_reducible refine Keeps.lift ?_
    | with_reducible refine Keeps.ite ?_ ?_ | with_reducible refine Rest.foldl ?_ ?_ | with_reducible refine Rest.iteS ?_ ?_
    | with_reducible refine World.updGrind_rest (by decide) ?_ | with_reducible refine Rest.ite ?_ ?_ | dsimp only | split | intro _

theorem execGrindPublish_keeps {h : Half} {vals : List Nat} {profs : List (List Nat)} {edge : List (Rat × Rat)} {s : State} : Keeps [.evt, .dram, .grd, .reg 0x100018, .reg 0xC00018, .reg 0xE00108, .reg 0xE0010C, .reg 0xE00110, .reg 0xE00114, .reg 0xE00120, .reg 0xE00180, .reg 0xE00200] (execGrindPublish h vals profs edge s) s := by
  unfold execGrindPublish
  try dsimp only
  repeat' first
    | with_reducible exact Rest.refl _ _ | with_reducible exact Side.refl _ _ | with_reducible assumption | with_reducible refine Keeps.lift ?_
    | with_reducible refine Keeps.ite ?_ ?_ | with_reducible refine Rest.wr _ _ _ _ (by decide) ?_ | with_reducible refine Rest.forAll ?_ ?_
    | with_reducible refine Rest.iteS ?_ ?_ | with_reducible refine World.planeSeen_rest (by decide) ?_
    | with_reducible refine World.putGrid_rest (by decide) ?_ | with_reducible refine World.setPq_rest (by decide) ?_
    | with_reducible refine World.updGrind_rest (by decide) ?_ | with_reducible refine Rest.ite ?_ ?_ | dsimp only | split | intro _

theorem execGrindDeadline_keeps {h : Half} {s : State} : Keeps [.evt, .grd, .reg 0x100018, .reg 0xE00108, .reg 0xE00120] (execGrindDeadline h s) s := by
  unfold execGrindDeadline
  try dsimp only
  repeat' first
    | with_reducible exact Rest.refl _ _ | with_reducible exact Side.refl _ _ | with_reducible assumption | with_reducible refine Keeps.lift ?_
    | with_reducible refine Keeps.ite ?_ ?_ | with_reducible refine Rest.iteS ?_ ?_ | with_reducible refine World.abandon_rest (by decide) ?_
    | with_reducible refine World.planeSeen_rest (by decide) ?_ | with_reducible refine World.updGrind_rest (by decide) ?_
    | with_reducible refine Rest.ite ?_ ?_ | dsimp only | split | intro _

theorem execGrindRateChange_keeps {h : Half} {s : State} : Keeps [.evt, .reg 0x100018, .reg 0xD00018, .reg 0xE00108] (execGrindRateChange h s) s := by
  unfold execGrindRateChange
  try dsimp only
  repeat' first
    | with_reducible exact Rest.refl _ _ | with_reducible exact Side.refl _ _ | with_reducible assumption | with_reducible refine Keeps.lift ?_
    | with_reducible refine Keeps.ite ?_ ?_ | with_reducible refine Rest.wr _ _ _ _ (by decide) ?_
    | with_reducible refine Rest.raise _ _ _ (by decide) ?_ | with_reducible refine Rest.iteS ?_ ?_ | with_reducible refine Rest.ite ?_ ?_
    | dsimp only | split | intro _

theorem execProductStale_keeps {h : Half} {s : State} : Keeps [.evt, .reg 0x100018, .reg 0xE00200] (execProductStale h s) s := by
  unfold execProductStale
  try dsimp only
  repeat' first
    | with_reducible exact Rest.refl _ _ | with_reducible exact Side.refl _ _ | with_reducible assumption | with_reducible refine Keeps.lift ?_
    | with_reducible refine Keeps.ite ?_ ?_ | with_reducible refine Rest.forAll ?_ ?_ | with_reducible refine Rest.iteS ?_ ?_
    | with_reducible refine World.setPq_rest (by decide) ?_ | with_reducible refine Rest.ite ?_ ?_ | dsimp only | split | intro _

theorem execModelLoad_keeps {h : Half} {m : Nat} {s : State} : Keeps [.reg 0xD00020, .reg 0xD00024] (execModelLoad h m s) s := by
  unfold execModelLoad
  try dsimp only
  repeat' first
    | with_reducible exact Rest.refl _ _ | with_reducible exact Side.refl _ _ | with_reducible assumption | with_reducible refine Keeps.lift ?_
    | with_reducible refine Keeps.ite ?_ ?_ | with_reducible refine Rest.wr _ _ _ _ (by decide) ?_ | with_reducible refine Rest.iteS ?_ ?_
    | with_reducible refine World.setMres_rest (by decide) ?_ | with_reducible refine Rest.ite ?_ ?_ | dsimp only | split | intro _

theorem execModelLoadComplete_keeps {h : Half} {m res : Nat} {s : State} : Keeps [.evt, .trk, .reg 0x100018, .reg 0xD00020, .reg 0xD00024, .reg 0xE00018, .reg 0xE00108, .reg 0xE00200] (execModelLoadComplete h m res s) s := by
  unfold execModelLoadComplete
  try dsimp only
  repeat' first
    | with_reducible exact Rest.refl _ _ | with_reducible exact Side.refl _ _ | with_reducible assumption | with_reducible refine Keeps.lift ?_
    | with_reducible refine Keeps.ite ?_ ?_ | with_reducible refine Rest.wr _ _ _ _ (by decide) ?_
    | with_reducible refine Rest.raise _ _ _ (by decide) ?_ | with_reducible refine Rest.when ?_ ?_ | with_reducible refine Rest.forAll ?_ ?_
    | with_reducible refine Rest.iteS ?_ ?_ | with_reducible refine World.checkBlind_rest (by decide) ?_
    | with_reducible refine World.setMres_rest (by decide) ?_ | with_reducible refine World.setPq_rest (by decide) ?_
    | with_reducible refine Rest.ite ?_ ?_ | dsimp only | split | intro _

theorem execGrainAnalysis_keeps {h : Half} {p damage trash : Nat} {s : State} : Keeps [.grd] (execGrainAnalysis h p damage trash s) s := by
  unfold execGrainAnalysis
  try dsimp only
  repeat' first
    | with_reducible exact Rest.refl _ _ | with_reducible exact Side.refl _ _ | with_reducible assumption | with_reducible refine Keeps.lift ?_
    | with_reducible refine Keeps.ite ?_ ?_ | with_reducible refine Rest.when ?_ ?_ | with_reducible refine Rest.iteS ?_ ?_
    | with_reducible refine World.updGrind_rest (by decide) ?_ | with_reducible refine Rest.ite ?_ ?_ | dsimp only | split | intro _

theorem execPrjKnock_keeps {h : Half} {init mask : Nat} {s : State} : Keeps [.evt, .reg 0x100018, .reg 0xC00018] (execPrjKnock h init mask s) s := by
  unfold execPrjKnock
  try dsimp only
  repeat' first
    | with_reducible exact Rest.refl _ _ | with_reducible exact Side.refl _ _ | with_reducible assumption | with_reducible refine Keeps.lift ?_
    | with_reducible refine Keeps.ite ?_ ?_ | with_reducible refine Rest.iteS ?_ ?_ | with_reducible refine World.knockPipes_rest (by decide) ?_
    | with_reducible refine Rest.ite ?_ ?_ | dsimp only | split | intro _

theorem execFeaKnock_keeps {h : Half} {init mask : Nat} {jobs : List Nat} {s : State} : Keeps [.evt, .grd, .reg 0x100018, .reg 0xD00038, .reg 0xE00120] (execFeaKnock h init mask jobs s) s := by
  unfold execFeaKnock
  try dsimp only
  repeat' first
    | with_reducible exact Rest.refl _ _ | with_reducible exact Side.refl _ _ | with_reducible assumption | with_reducible refine Keeps.lift ?_
    | with_reducible refine Keeps.ite ?_ ?_ | with_reducible refine Rest.iteS ?_ ?_ | with_reducible refine World.knockJobs_rest (by decide) ?_
    | with_reducible refine Rest.ite ?_ ?_ | dsimp only | split | intro _

theorem execPrjClrCnt_keeps {h : Half} {init : Nat} {s : State} : Keeps [.reg 0xC0001C, .reg 0xC00040] (execPrjClrCnt h init s) s := by
  unfold execPrjClrCnt
  try dsimp only
  repeat' first
    | with_reducible exact Rest.refl _ _ | with_reducible exact Side.refl _ _ | with_reducible assumption | with_reducible refine Keeps.lift ?_
    | with_reducible refine Keeps.ite ?_ ?_ | with_reducible refine Rest.wr _ _ _ _ (by decide) ?_ | with_reducible refine Rest.forAll ?_ ?_
    | with_reducible refine Rest.iteS ?_ ?_ | with_reducible refine Rest.ite ?_ ?_ | dsimp only | split | intro _

theorem execFeaClrCnt_keeps {h : Half} {init : Nat} {s : State} : Keeps [.reg 0xD00038] (execFeaClrCnt h init s) s := by
  unfold execFeaClrCnt
  try dsimp only
  repeat' first
    | with_reducible exact Rest.refl _ _ | with_reducible exact Side.refl _ _ | with_reducible assumption | with_reducible refine Keeps.lift ?_
    | with_reducible refine Keeps.ite ?_ ?_ | with_reducible refine Rest.wr _ _ _ _ (by decide) ?_ | with_reducible refine Rest.iteS ?_ ?_
    | with_reducible refine Rest.ite ?_ ?_ | dsimp only | split | intro _

theorem execGrdClrCnt_keeps {h : Half} {init : Nat} {s : State} : Keeps [.reg 0xE00114, .reg 0xE00118, .reg 0xE0011C, .reg 0xE00120] (execGrdClrCnt h init s) s := by
  unfold execGrdClrCnt
  refine Keeps.lift ?_
  simp only [List.foldl_cons, List.foldl_nil]
  iterate 7 refine Rest.wr _ _ _ _ (by decide) ?_
  exact Rest.refl _ _

theorem execAntennaState_keeps {a i v : Nat} {s : State} : Keeps [.evt, .reg 0x100018, .reg 0xB00040] (execAntennaState a i v s) s := by
  unfold execAntennaState
  try dsimp only
  repeat' first
    | with_reducible exact Rest.refl _ _ | with_reducible exact Side.refl _ _ | with_reducible assumption | with_reducible refine Keeps.lift ?_
    | with_reducible refine Keeps.ite ?_ ?_ | with_reducible refine Rest.wr _ _ _ _ (by decide) ?_
    | with_reducible refine Rest.raiseBoth _ _ (by decide) ?_ | with_reducible refine Rest.when ?_ ?_ | with_reducible refine Rest.iteS ?_ ?_
    | with_reducible refine Rest.ite ?_ ?_ | dsimp only | split | intro _

theorem execAntennaBiasRetry_keeps {a : Nat} {s : State} : Keeps [.reg 0xB00040] (execAntennaBiasRetry a s) s := by
  unfold execAntennaBiasRetry
  try dsimp only
  repeat' first
    | with_reducible exact Rest.refl _ _ | with_reducible exact Side.refl _ _ | with_reducible assumption | with_reducible refine Keeps.lift ?_
    | with_reducible refine Keeps.ite ?_ ?_ | with_reducible refine Rest.wr _ _ _ _ (by decide) ?_ | with_reducible refine Rest.iteS ?_ ?_
    | with_reducible refine Rest.ite ?_ ?_ | dsimp only | split | intro _

theorem execNotchDetect_keeps {h : Half} {k : Nat} {hz : Int} {db : Nat} {s : State} : Keeps [.evt, .gns, .reg 0x100018, .reg 0xB00020] (execNotchDetect h k hz db s) s := by
  unfold execNotchDetect
  try dsimp only
  repeat' first
    | with_reducible exact Rest.refl _ _ | with_reducible exact Side.refl _ _ | with_reducible assumption | with_reducible refine Keeps.lift ?_
    | with_reducible refine Keeps.ite ?_ ?_ | with_reducible refine Rest.wr _ _ _ _ (by decide) ?_
    | with_reducible refine Rest.raise _ _ _ (by decide) ?_ | with_reducible refine Rest.iteS ?_ ?_
    | with_reducible refine World.updGnss_rest (by decide) ?_ | with_reducible refine Rest.ite ?_ ?_ | dsimp only | split | intro _

theorem execNotchRelease_keeps {h : Half} {k n : Nat} {s : State} : Keeps [.evt, .gns, .reg 0x100018, .reg 0xB00020] (execNotchRelease h k n s) s := by
  unfold execNotchRelease
  try dsimp only
  repeat' first
    | with_reducible exact Rest.refl _ _ | with_reducible exact Side.refl _ _ | with_reducible assumption | with_reducible refine Keeps.lift ?_
    | with_reducible refine Keeps.ite ?_ ?_ | with_reducible refine Rest.wr _ _ _ _ (by decide) ?_
    | with_reducible refine Rest.raise _ _ _ (by decide) ?_ | with_reducible refine Rest.iteS ?_ ?_
    | with_reducible refine World.updGnss_rest (by decide) ?_ | with_reducible refine Rest.ite ?_ ?_ | dsimp only | split | intro _

theorem execJamLevel_keeps {h : Half} {k db agc : Nat} {s : State} : Keeps [.evt, .reg 0x100018, .reg 0xB00020] (execJamLevel h k db agc s) s := by
  unfold execJamLevel
  try dsimp only
  repeat' first
    | with_reducible exact Rest.refl _ _ | with_reducible exact Side.refl _ _ | with_reducible assumption | with_reducible refine Keeps.lift ?_
    | with_reducible refine Keeps.ite ?_ ?_ | with_reducible refine Rest.wr _ _ _ _ (by decide) ?_
    | with_reducible refine Rest.raise _ _ _ (by decide) ?_ | with_reducible refine Rest.when ?_ ?_ | with_reducible refine Rest.iteS ?_ ?_
    | with_reducible refine Rest.ite ?_ ?_ | dsimp only | split | intro _

theorem execChStart_keeps {h : Half} {init : Nat} {s : State} : Keeps [.gns, .reg 0xB00018, .reg 0xB00114] (execChStart h init s) s := by
  unfold execChStart
  try dsimp only
  repeat' first
    | with_reducible exact Rest.refl _ _ | with_reducible exact Side.refl _ _ | with_reducible assumption | with_reducible refine Keeps.lift ?_
    | with_reducible refine Keeps.ite ?_ ?_ | with_reducible refine Rest.iteS ?_ ?_ | with_reducible refine World.startChan_rest (by decide) ?_
    | with_reducible refine Rest.ite ?_ ?_ | dsimp only | split | intro _

theorem execChStop_keeps {h : Half} {init : Nat} {s : State} : Keeps [.reg 0xB00018, .reg 0xB00114] (execChStop h init s) s := by
  unfold execChStop
  try dsimp only
  repeat' first
    | with_reducible exact Rest.refl _ _ | with_reducible exact Side.refl _ _ | with_reducible assumption | with_reducible refine Keeps.lift ?_
    | with_reducible refine Keeps.ite ?_ ?_ | with_reducible refine Rest.when ?_ ?_ | with_reducible refine Rest.iteS ?_ ?_
    | with_reducible refine World.stopChan_rest (by decide) ?_ | with_reducible refine Rest.ite ?_ ?_ | dsimp only | split | intro _

theorem execChKnock_keeps {h : Half} {init : Nat} {s : State} : Keeps [.reg 0xB00018, .reg 0xB00114] (execChKnock h init s) s := by
  unfold execChKnock
  try dsimp only
  repeat' first
    | with_reducible exact Rest.refl _ _ | with_reducible exact Side.refl _ _ | with_reducible assumption | with_reducible refine Keeps.lift ?_
    | with_reducible refine Keeps.ite ?_ ?_ | with_reducible refine Rest.iteS ?_ ?_ | with_reducible refine World.knockChan_rest (by decide) ?_
    | with_reducible refine Rest.ite ?_ ?_ | dsimp only | split | intro _

theorem execChCommit_keeps {h : Half} {init v : Nat} {s : State} : Keeps [.gns, .reg 0xB0010C] (execChCommit h init v s) s := by
  unfold execChCommit
  try dsimp only
  repeat' first
    | with_reducible exact Rest.refl _ _ | with_reducible exact Side.refl _ _ | with_reducible assumption | with_reducible refine Keeps.lift ?_
    | with_reducible refine Keeps.ite ?_ ?_ | with_reducible refine Rest.wr _ _ _ _ (by decide) ?_ | with_reducible refine Rest.iteS ?_ ?_
    | with_reducible refine World.updChan_rest (by decide) ?_ | with_reducible refine Rest.ite ?_ ?_ | dsimp only | split | intro _

theorem execChIntegrationDump_keeps {h : Half} {c : Nat} {iq : List Int} {noise : Nat} {s : State} : Keeps [.evt, .dram, .gns, .reg 0x100018, .reg 0xB00018, .reg 0xB00064, .reg 0xB000D0, .reg 0xB00110, .reg 0xB00114] (execChIntegrationDump h c iq noise s) s := by
  unfold execChIntegrationDump
  try dsimp only
  repeat' first
    | with_reducible exact Rest.refl _ _ | with_reducible exact Side.refl _ _ | with_reducible assumption | with_reducible refine Keeps.lift ?_
    | with_reducible refine Keeps.ite ?_ ?_ | with_reducible refine Rest.wr _ _ _ _ (by decide) ?_ | with_reducible refine Rest.when ?_ ?_
    | with_reducible refine Rest.iteS ?_ ?_ | with_reducible refine World.lateUpd_rest (by decide) ?_
    | with_reducible refine World.putDump_rest (by decide) ?_ | with_reducible refine World.updChan_rest (by decide) ?_
    | with_reducible refine Rest.ite ?_ ?_ | dsimp only | split | intro _

theorem execAcqGo_keeps {h : Half} {init v : Nat} {s : State} : Keeps [.reg 0xB00144, .reg 0xB00148] (execAcqGo h init v s) s := by
  unfold execAcqGo
  try dsimp only
  repeat' first
    | with_reducible exact Rest.refl _ _ | with_reducible exact Side.refl _ _ | with_reducible assumption | with_reducible refine Keeps.lift ?_
    | with_reducible refine Keeps.ite ?_ ?_ | with_reducible refine Rest.setReg _ _ _ _ (by decide) ?_
    | with_reducible refine Rest.wr _ _ _ _ (by decide) ?_ | with_reducible refine Rest.iteS ?_ ?_ | with_reducible refine Rest.ite ?_ ?_ | dsimp only
    | split | intro _

theorem execAcqEntryComplete_keeps {h : Half} {e cn0 ratio code : Nat} {dop : Int} {tEnd : Nat} {s : State} : Keeps [.evt, .dram, .gns, .reg 0x100018, .reg 0xB00018, .reg 0xB00100, .reg 0xB00108, .reg 0xB0010C, .reg 0xB00114, .reg 0xB00148] (execAcqEntryComplete h e cn0 ratio code dop tEnd s) s := by
  unfold execAcqEntryComplete
  try dsimp only
  repeat' first
    | with_reducible exact Rest.refl _ _ | with_reducible exact Side.refl _ _ | with_reducible assumption | with_reducible refine Keeps.lift ?_
    | with_reducible refine Keeps.ite ?_ ?_ | with_reducible refine Rest.wr _ _ _ _ (by decide) ?_
    | with_reducible refine Rest.wrI _ _ _ _ (by decide) ?_ | with_reducible refine Rest.bump _ _ _ (by decide) ?_
    | with_reducible refine Rest.putMem _ _ _ _ (by decide) ?_ | with_reducible refine Rest.when ?_ ?_ | with_reducible refine Rest.whenS ?_ ?_
    | with_reducible refine Rest.iteS ?_ ?_ | with_reducible refine World.acqDone_rest (by decide) ?_
    | with_reducible refine World.startChan_rest (by decide) ?_ | with_reducible refine Rest.ite ?_ ?_ | dsimp only | split | intro _

theorem execAcqKnock_keeps {h : Half} {init : Nat} {s : State} : Keeps [.evt, .dram, .reg 0x100018, .reg 0xB00148] (execAcqKnock h init s) s := by
  unfold execAcqKnock
  try dsimp only
  repeat' first
    | with_reducible exact Rest.refl _ _ | with_reducible exact Side.refl _ _ | with_reducible assumption | with_reducible refine Keeps.lift ?_
    | with_reducible refine Keeps.ite ?_ ?_ | with_reducible refine Rest.when ?_ ?_ | with_reducible refine Rest.iteS ?_ ?_
    | with_reducible refine World.knockAcq_rest (by decide) ?_ | with_reducible refine Rest.ite ?_ ?_ | dsimp only | split | intro _

theorem execMeasurementLatch_keeps {h : Half} {s : State} : Keeps [.dram, .gns, .reg 0xB00018, .reg 0xB00070, .reg 0xB00074] (execMeasurementLatch h s) s := by
  unfold execMeasurementLatch
  try dsimp only
  repeat' first
    | with_reducible exact Rest.refl _ _ | with_reducible exact Side.refl _ _ | with_reducible assumption | with_reducible refine Keeps.lift ?_
    | with_reducible refine Keeps.ite ?_ ?_ | with_reducible refine Rest.wr _ _ _ _ (by decide) ?_
    | with_reducible refine Rest.putMem _ _ _ _ (by decide) ?_ | with_reducible refine Rest.iteS ?_ ?_
    | with_reducible refine World.updGnss_rest (by decide) ?_ | with_reducible refine Rest.ite ?_ ?_ | dsimp only | split | intro _

theorem execMeasRateWrite_keeps {h : Half} {init v : Nat} {s : State} : Keeps [.gns, .reg 0xB0001C] (execMeasRateWrite h init v s) s := by
  unfold execMeasRateWrite
  try dsimp only
  repeat' first
    | with_reducible exact Rest.refl _ _ | with_reducible exact Side.refl _ _ | with_reducible assumption | with_reducible refine Keeps.lift ?_
    | with_reducible refine Keeps.ite ?_ ?_ | with_reducible refine Rest.wr _ _ _ _ (by decide) ?_ | with_reducible refine Rest.when ?_ ?_
    | with_reducible refine Rest.iteS ?_ ?_ | with_reducible refine World.updGnss_rest (by decide) ?_ | with_reducible refine Rest.ite ?_ ?_
    | dsimp only | split | intro _

theorem execMeasRateApply_keeps {s : State} : Keeps [.gns, .reg 0xB0001C] (execMeasRateApply s) s := by
  unfold execMeasRateApply
  try dsimp only
  repeat' first
    | with_reducible exact Rest.refl _ _ | with_reducible exact Side.refl _ _ | with_reducible assumption | with_reducible refine Keeps.lift ?_
    | with_reducible refine Keeps.ite ?_ ?_ | with_reducible refine Rest.wrBoth _ _ _ (by decide) ?_ | with_reducible refine Rest.iteS ?_ ?_
    | with_reducible refine World.updGnss_rest (by decide) ?_ | with_reducible refine Rest.ite ?_ ?_ | dsimp only | split | intro _

theorem execMeasurementRecord_keeps {h : Half} {entries : List MEntry} {bias drift : Int} {clk : Bool} {s : State} : Keeps [.evt, .dram, .gns, .reg 0x100018, .reg 0xB00078, .reg 0xB000D0] (execMeasurementRecord h entries bias drift clk s) s := by
  unfold execMeasurementRecord
  try dsimp only
  repeat' first
    | with_reducible exact Rest.refl _ _ | with_reducible exact Side.refl _ _ | with_reducible assumption | with_reducible refine Keeps.lift ?_
    | with_reducible refine Keeps.ite ?_ ?_ | with_reducible refine Rest.wr _ _ _ _ (by decide) ?_
    | with_reducible refine Rest.raise _ _ _ (by decide) ?_ | with_reducible refine Rest.putMem _ _ _ _ (by decide) ?_
    | with_reducible refine Rest.forAll ?_ ?_ | with_reducible refine Rest.iteS ?_ ?_ | with_reducible refine World.missEpoch_rest (by decide) ?_
    | with_reducible refine World.updGnss_rest (by decide) ?_ | with_reducible refine Rest.ite ?_ ?_ | dsimp only | split | intro _

theorem execSiblingRecordReceived_keeps {h : Half} {ownOk sibOk : Bool} {s : State} : Keeps [.evt, .dram, .gns, .reg 0x100018, .reg 0xB00018, .reg 0xB0007C, .reg 0xB000D0] (execSiblingRecordReceived h ownOk sibOk s) s := by
  unfold execSiblingRecordReceived
  try dsimp only
  repeat' first
    | with_reducible exact Rest.refl _ _ | with_reducible exact Side.refl _ _ | with_reducible assumption | with_reducible refine Keeps.lift ?_
    | with_reducible refine Keeps.ite ?_ ?_ | with_reducible refine Rest.wr _ _ _ _ (by decide) ?_
    | with_reducible refine Rest.bump _ _ _ (by decide) ?_ | with_reducible refine Rest.raise _ _ _ (by decide) ?_
    | with_reducible refine Rest.putMem _ _ _ _ (by decide) ?_ | with_reducible refine Rest.when ?_ ?_ | with_reducible refine Rest.forAll ?_ ?_
    | with_reducible refine Rest.iteS ?_ ?_ | with_reducible refine World.exclude_rest (by decide) ?_
    | with_reducible refine World.updGnss_rest (by decide) ?_ | with_reducible refine Rest.ite ?_ ?_ | dsimp only | split | intro _

theorem execBbSuspectClear_keeps {h : Half} {s : State} : Keeps [.reg 0xB00018] (execBbSuspectClear h s) s := by
  unfold execBbSuspectClear
  try dsimp only
  repeat' first
    | with_reducible exact Rest.refl _ _ | with_reducible exact Side.refl _ _ | with_reducible assumption | with_reducible refine Keeps.lift ?_
    | with_reducible refine Keeps.ite ?_ ?_ | with_reducible refine Rest.wr _ _ _ _ (by decide) ?_ | with_reducible refine Rest.when ?_ ?_
    | with_reducible refine Rest.iteS ?_ ?_ | with_reducible refine Rest.ite ?_ ?_ | dsimp only | split | intro _

theorem execExclusionReadmit_keeps {h : Half} {key reason : Nat} {s : State} : Keeps [.gns] (execExclusionReadmit h key reason s) s := by
  unfold execExclusionReadmit
  try dsimp only
  repeat' first
    | with_reducible exact Rest.refl _ _ | with_reducible exact Side.refl _ _ | with_reducible assumption | with_reducible refine Keeps.lift ?_
    | with_reducible refine Keeps.ite ?_ ?_ | with_reducible refine Rest.iteS ?_ ?_ | with_reducible refine World.updGnss_rest (by decide) ?_
    | with_reducible refine Rest.ite ?_ ?_ | dsimp only | split | intro _

theorem execCorrectionFrame_keeps {h : Half} {init v : Nat} {s : State} : Keeps [.evt, .gns, .reg 0x100018, .reg 0xB00018, .reg 0xB0008C] (execCorrectionFrame h init v s) s := by
  unfold execCorrectionFrame
  try dsimp only
  repeat' first
    | with_reducible exact Rest.refl _ _ | with_reducible exact Side.refl _ _ | with_reducible assumption | with_reducible refine Keeps.lift ?_
    | with_reducible refine Keeps.ite ?_ ?_ | with_reducible refine Rest.wr _ _ _ _ (by decide) ?_ | with_reducible refine Rest.when ?_ ?_
    | with_reducible refine Rest.iteS ?_ ?_ | with_reducible refine World.takeFrame_rest (by decide) ?_ | with_reducible refine Rest.ite ?_ ?_
    | dsimp only | split | intro _

theorem execCorrectionSourceTimeout_keeps {h : Half} {s : State} : Keeps [.evt, .gns, .reg 0x100018, .reg 0xB0008C] (execCorrectionSourceTimeout h s) s := by
  unfold execCorrectionSourceTimeout
  try dsimp only
  repeat' first
    | with_reducible exact Rest.refl _ _ | with_reducible exact Side.refl _ _ | with_reducible assumption | with_reducible refine Keeps.lift ?_
    | with_reducible refine Keeps.ite ?_ ?_ | with_reducible refine Rest.iteS ?_ ?_ | with_reducible refine World.corrEval_rest (by decide) ?_
    | with_reducible refine Rest.ite ?_ ?_ | dsimp only | split | intro _

theorem execPositionSolution_keeps {h : Half} {x : Sol} {s : State} : Keeps [.evt, .uin, .gns, .reg 0x100018, .reg 0x700020, .reg 0x700024, .reg 0x70002C, .reg 0x700030, .reg 0x700044, .reg 0x701000, .reg 0x701004, .reg 0xB00018, .reg 0xB000A0, .reg 0xB000A4, .reg 0xB000A8, .reg 0xB000AC, .reg 0xB000B0, .reg 0xB000D0] (execPositionSolution h x s) s := by
  unfold execPositionSolution
  try dsimp only
  repeat' first
    | with_reducible exact Rest.refl _ _ | with_reducible exact Side.refl _ _ | with_reducible assumption | with_reducible refine Keeps.lift ?_
    | with_reducible refine Keeps.ite ?_ ?_ | with_reducible refine Rest.bump _ _ _ (by decide) ?_ | with_reducible refine Rest.when ?_ ?_
    | with_reducible refine Rest.forAll ?_ ?_ | with_reducible refine Rest.iteS ?_ ?_ | with_reducible refine World.exclude_rest (by decide) ?_
    | with_reducible refine World.moduleWrite_rest (by decide) ?_ | with_reducible refine World.setQ_rest (by decide) ?_
    | with_reducible refine World.showSol_rest (by decide) ?_ | with_reducible refine Rest.ite ?_ ?_ | dsimp only | split | intro _

theorem execHeadingSolution_keeps {h : Half} {ratio common len : Nat} {az : Int} {sig : Nat} {s : State} : Keeps [.evt, .gns, .reg 0x100018, .reg 0xB00018, .reg 0xB000B4] (execHeadingSolution h ratio common len az sig s) s := by
  unfold execHeadingSolution
  try dsimp only
  repeat' first
    | with_reducible exact Rest.refl _ _ | with_reducible exact Side.refl _ _ | with_reducible assumption | with_reducible refine Keeps.lift ?_
    | with_reducible refine Keeps.ite ?_ ?_ | with_reducible refine Rest.wr _ _ _ _ (by decide) ?_
    | with_reducible refine Rest.raise _ _ _ (by decide) ?_ | with_reducible refine Rest.when ?_ ?_ | with_reducible refine Rest.iteS ?_ ?_
    | with_reducible refine World.updGnss_rest (by decide) ?_ | with_reducible refine Rest.ite ?_ ?_ | dsimp only | split | intro _

theorem execPosePublish_keeps {h : Half} {p : Pose} {slew : Bool} {s : State} : Keeps [.evt, .uin, .dram, .pose, .grd, .trk, .gns, .reg 0x100018, .reg 0x400020, .reg 0x700020, .reg 0x700024, .reg 0x70002C, .reg 0x700030, .reg 0x700044, .reg 0x701000, .reg 0x701004, .reg 0xB00018, .reg 0xB000C0, .reg 0xE00018, .reg 0xE00108] (execPosePublish h p slew s) s := by
  unfold execPosePublish
  try dsimp only
  repeat' first
    | with_reducible exact Rest.refl _ _ | with_reducible exact Side.refl _ _ | with_reducible assumption | with_reducible refine Keeps.lift ?_
    | with_reducible refine Keeps.ite ?_ ?_ | with_reducible refine Rest.wr _ _ _ _ (by decide) ?_
    | with_reducible refine Rest.putMem _ _ _ _ (by decide) ?_ | with_reducible refine Rest.iteS ?_ ?_
    | with_reducible refine World.judgeTrust_rest (by decide) ?_ | with_reducible refine World.moduleWrite_rest (by decide) ?_
    | with_reducible refine World.updGnss_rest (by decide) ?_ | with_reducible refine Rest.ite ?_ ?_
    | with_reducible refine Rest.set_pose (by decide) ?_ _ | dsimp only | split | intro _

theorem execImuFault_keeps {h : Half} {bad : Bool} {s : State} : Keeps [.evt, .grd, .trk, .gns, .reg 0x100018, .reg 0x400020, .reg 0xB00018, .reg 0xE00018, .reg 0xE00108] (execImuFault h bad s) s := by
  unfold execImuFault
  try dsimp only
  repeat' first
    | with_reducible exact Rest.refl _ _ | with_reducible exact Side.refl _ _ | with_reducible assumption | with_reducible refine Keeps.lift ?_
    | with_reducible refine Keeps.ite ?_ ?_ | with_reducible refine Rest.wr _ _ _ _ (by decide) ?_
    | with_reducible refine Rest.raise _ _ _ (by decide) ?_ | with_reducible refine Rest.when ?_ ?_ | with_reducible refine Rest.iteS ?_ ?_
    | with_reducible refine World.poseTrust_rest (by decide) ?_ | with_reducible refine World.updGnss_rest (by decide) ?_
    | with_reducible refine Rest.ite ?_ ?_ | dsimp only | split | intro _

theorem execGnssCold_keeps {h : Half} {init : Nat} {s : State} : Keeps [.gns] (execGnssCold h init s) s := by
  unfold execGnssCold
  try dsimp only
  repeat' first
    | with_reducible exact Rest.refl _ _ | with_reducible exact Side.refl _ _ | with_reducible assumption | with_reducible refine Keeps.lift ?_
    | with_reducible refine Keeps.ite ?_ ?_ | with_reducible refine Rest.when ?_ ?_ | with_reducible refine Rest.iteS ?_ ?_
    | with_reducible refine World.updGnss_rest (by decide) ?_ | with_reducible refine Rest.ite ?_ ?_ | dsimp only | split | intro _

theorem execGnsClrCnt_keeps {h : Half} {init : Nat} {s : State} : Keeps [.reg 0xB000D0] (execGnsClrCnt h init s) s := by
  unfold execGnsClrCnt
  try dsimp only
  repeat' first
    | with_reducible exact Rest.refl _ _ | with_reducible exact Side.refl _ _ | with_reducible assumption | with_reducible refine Keeps.lift ?_
    | with_reducible refine Keeps.ite ?_ ?_ | with_reducible refine Rest.setReg _ _ _ _ (by decide) ?_ | with_reducible refine Rest.iteS ?_ ?_
    | with_reducible refine Rest.ite ?_ ?_ | dsimp only | split | intro _

theorem execCanModeWrite_keeps {h : Half} {init v : Nat} {s : State} : Keeps [.evt, .reg 0x100018, .reg 0x300118, .reg 0x900020, .reg 0x900030, .reg 0x900044] (execCanModeWrite h init v s) s := by
  unfold execCanModeWrite
  try dsimp only
  repeat' first
    | with_reducible exact Rest.refl _ _ | with_reducible exact Side.refl _ _ | with_reducible assumption | with_reducible refine Keeps.putW ?_
    | with_reducible refine Keeps.ite ?_ ?_ | with_reducible refine World.canWr_rest _ _ _ (by decide) ?_ | with_reducible refine Rest.when ?_ ?_
    | with_reducible refine Rest.iteS ?_ ?_ | with_reducible refine World.setCanMode_rest (by decide) ?_
    | with_reducible refine canGate_rest (by decide) ?_ ?_ | with_reducible refine Rest.ite ?_ ?_ | dsimp only | split | intro _

theorem execCanKnock_keeps {h : Half} {init : Nat} {s : State} : Keeps [.evt, .can, .reg 0x100018, .reg 0x300118, .reg 0x900030, .reg 0x900044] (execCanKnock h init s) s := by
  unfold execCanKnock
  try dsimp only
  repeat' first
    | with_reducible exact Rest.refl _ _ | with_reducible exact Side.refl _ _ | with_reducible assumption | with_reducible refine Keeps.putW ?_
    | with_reducible refine Keeps.ite ?_ ?_ | with_reducible refine Rest.iteS ?_ ?_ | with_reducible refine World.knockCan_rest (by decide) ?_
    | with_reducible refine canGate_rest (by decide) ?_ ?_ | with_reducible refine Rest.ite ?_ ?_ | dsimp only | split | intro _

theorem execCanClrLockout_keeps {h : Half} {init : Nat} {s : State} : Keeps [.evt, .can, .reg 0x100018, .reg 0x300118, .reg 0x900030] (execCanClrLockout h init s) s := by
  unfold execCanClrLockout
  try dsimp only
  repeat' first
    | with_reducible exact Rest.refl _ _ | with_reducible exact Side.refl _ _ | with_reducible assumption | with_reducible refine Keeps.putW ?_
    | with_reducible refine Keeps.ite ?_ ?_ | with_reducible refine World.canWr_rest _ _ _ (by decide) ?_ | with_reducible refine Rest.when ?_ ?_
    | with_reducible refine Rest.iteS ?_ ?_ | with_reducible refine World.updCan_rest (by decide) ?_
    | with_reducible refine canGate_rest (by decide) ?_ ?_ | with_reducible refine Rest.ite ?_ ?_ | dsimp only | split | intro _

theorem execCanClrCnt_keeps {h : Half} {init : Nat} {s : State} : Keeps [.evt, .reg 0x100018, .reg 0x300118, .reg 0x900068] (execCanClrCnt h init s) s := by
  unfold execCanClrCnt
  try dsimp only
  repeat' first
    | with_reducible exact Rest.refl _ _ | with_reducible exact Side.refl _ _ | with_reducible assumption | with_reducible refine Keeps.putW ?_
    | with_reducible refine Keeps.ite ?_ ?_ | with_reducible refine Rest.setReg _ _ _ _ (by decide) ?_ | with_reducible refine Rest.iteS ?_ ?_
    | with_reducible refine canGate_rest (by decide) ?_ ?_ | with_reducible refine Rest.ite ?_ ?_ | dsimp only | split | intro _

theorem execCanTxRequest_keeps {h : Half} {init mask : Nat} {s : State} : Keeps [.evt, .reg 0x100018, .reg 0x300118, .reg 0x900030, .reg 0x900044] (execCanTxRequest h init mask s) s := by
  unfold execCanTxRequest
  try dsimp only
  repeat' first
    | with_reducible exact Rest.refl _ _ | with_reducible exact Side.refl _ _ | with_reducible assumption | with_reducible refine Keeps.putW ?_
    | with_reducible refine Keeps.ite ?_ ?_ | with_reducible refine Rest.setReg _ _ _ _ (by decide) ?_ | with_reducible refine Rest.when ?_ ?_
    | with_reducible refine Rest.forAll ?_ ?_ | with_reducible refine Rest.iteS ?_ ?_ | with_reducible refine World.canLeaveGreen_rest (by decide) ?_
    | with_reducible refine canGate_rest (by decide) ?_ ?_ | with_reducible refine Rest.ite ?_ ?_ | dsimp only | split | intro _

theorem execCanTxAbort_keeps {h : Half} {init mask : Nat} {s : State} : Keeps [.evt, .can, .reg 0x100018, .reg 0x300118, .reg 0x900030, .reg 0x900044] (execCanTxAbort h init mask s) s := by
  unfold execCanTxAbort
  try dsimp only
  repeat' first
    | with_reducible exact Rest.refl _ _ | with_reducible exact Side.refl _ _ | with_reducible assumption | with_reducible refine Keeps.putW ?_
    | with_reducible refine Keeps.ite ?_ ?_ | with_reducible refine World.canWr_rest _ _ _ (by decide) ?_ | with_reducible refine Rest.when ?_ ?_
    | with_reducible refine Rest.forAll ?_ ?_ | with_reducible refine Rest.iteS ?_ ?_ | with_reducible refine World.setTb_rest (by decide) ?_
    | with_reducible refine World.updCan_rest (by decide) ?_ | with_reducible refine canGate_rest (by decide) ?_ ?_
    | with_reducible refine Rest.ite ?_ ?_ | dsimp only | split | intro _

theorem execCanArbitration_keeps {n : Nat} {s : State} : Keeps [.reg 0x900030, .reg 0x900044] (execCanArbitration n s) s := by
  unfold execCanArbitration
  try dsimp only
  repeat' first
    | with_reducible exact Rest.refl _ _ | with_reducible exact Side.refl _ _ | with_reducible assumption | with_reducible refine Keeps.lift ?_
    | with_reducible refine Keeps.ite ?_ ?_ | with_reducible refine Rest.bump _ _ _ (by decide) ?_ | with_reducible refine Rest.iteS ?_ ?_
    | with_reducible refine World.canOnBus_rest (by decide) ?_ | with_reducible refine World.setTb_rest (by decide) ?_
    | with_reducible refine Rest.ite ?_ ?_ | dsimp only | split | intro _

theorem execCanScheduleDue_keeps {n m : Nat} {s : State} : Keeps [.can, .reg 0x900044, .reg 0x900068, .reg 0x900100, .reg 0x900104, .reg 0x900108] (execCanScheduleDue n m s) s := by
  unfold execCanScheduleDue
  try dsimp only
  repeat' first
    | with_reducible exact Rest.refl _ _ | with_reducible exact Side.refl _ _ | with_reducible assumption | with_reducible refine Keeps.lift ?_
    | with_reducible refine Keeps.ite ?_ ?_ | with_reducible refine Rest.bump _ _ _ (by decide) ?_ | with_reducible refine Rest.iteS ?_ ?_
    | with_reducible refine World.compose_rest (by decide) ?_ | with_reducible refine World.feedTb0_rest (by decide) ?_
    | with_reducible refine World.loadTb0_rest (by decide) ?_ | with_reducible refine World.updCan_rest (by decide) ?_
    | with_reducible refine Rest.ite ?_ ?_ | dsimp only | split | intro _

theorem execCanTxComplete_keeps {n res ty fld pos tdcv : Nat} {s : State} : Keeps [.evt, .can, .reg 0x100018, .reg 0x90002C, .reg 0x900030, .reg 0x900034, .reg 0x900044, .reg 0x900100, .reg 0x900104, .reg 0x900108] (execCanTxComplete n res ty fld pos tdcv s) s := by
  unfold execCanTxComplete
  try dsimp only
  repeat' first
    | with_reducible exact Rest.refl _ _ | with_reducible exact Side.refl _ _ | with_reducible assumption | with_reducible refine Keeps.lift ?_
    | with_reducible refine Keeps.ite ?_ ?_ | with_reducible refine World.canWr_rest _ _ _ (by decide) ?_ | with_reducible refine Rest.when ?_ ?_
    | with_reducible refine Rest.iteS ?_ ?_ | with_reducible refine World.feedTb0_rest (by decide) ?_
    | with_reducible refine World.setErrc_rest (by decide) ?_ | with_reducible refine World.setTb_rest (by decide) ?_
    | with_reducible refine World.txError_rest (by decide) ?_ | with_reducible refine World.updCan_rest (by decide) ?_
    | with_reducible refine Rest.ite ?_ ?_ | dsimp only | split | intro _

theorem execCanTxError_keeps {n ty fld pos : Nat} {s : State} : Keeps [.evt, .can, .reg 0x100018, .reg 0x900030, .reg 0x900034, .reg 0x900044, .reg 0x900068, .reg 0x90006C, .reg 0x900100, .reg 0x900104, .reg 0x900108] (execCanTxError n ty fld pos s) s := by
  unfold execCanTxError
  try dsimp only
  repeat' first
    | with_reducible exact Rest.refl _ _ | with_reducible exact Side.refl _ _ | with_reducible assumption | with_reducible refine Keeps.lift ?_
    | with_reducible refine Keeps.ite ?_ ?_ | with_reducible refine Rest.bump _ _ _ (by decide) ?_ | with_reducible refine Rest.iteS ?_ ?_
    | with_reducible refine World.clash_rest (by decide) ?_ | with_reducible refine World.txError_rest (by decide) ?_
    | with_reducible refine World.updCan_rest (by decide) ?_ | with_reducible refine Rest.ite ?_ ?_ | dsimp only | split | intro _

theorem execCanBusOff_keeps {n : Nat} {s : State} : Keeps [.evt, .can, .reg 0x100018, .reg 0x900030, .reg 0x900044, .reg 0x900068] (execCanBusOff n s) s := by
  unfold execCanBusOff
  try dsimp only
  repeat' first
    | with_reducible exact Rest.refl _ _ | with_reducible exact Side.refl _ _ | with_reducible assumption | with_reducible refine Keeps.lift ?_
    | with_reducible refine Keeps.ite ?_ ?_ | with_reducible refine World.canWr_rest _ _ _ (by decide) ?_
    | with_reducible refine Rest.bump _ _ _ (by decide) ?_ | with_reducible refine Rest.forAll ?_ ?_ | with_reducible refine Rest.iteS ?_ ?_
    | with_reducible refine World.canBus_rest (by decide) ?_ | with_reducible refine World.setTb_rest (by decide) ?_
    | with_reducible refine World.updCan_rest (by decide) ?_ | with_reducible refine Rest.ite ?_ ?_ | dsimp only | split | intro _

theorem execCanBusOffRecovery_keeps {n : Nat} {s : State} : Keeps [.evt, .can, .reg 0x100018, .reg 0x900030, .reg 0x900034, .reg 0x900044, .reg 0x900100, .reg 0x900104, .reg 0x900108] (execCanBusOffRecovery n s) s := by
  unfold execCanBusOffRecovery
  try dsimp only
  repeat' first
    | with_reducible exact Rest.refl _ _ | with_reducible exact Side.refl _ _ | with_reducible assumption | with_reducible refine Keeps.lift ?_
    | with_reducible refine Keeps.ite ?_ ?_ | with_reducible refine World.canWr_rest _ _ _ (by decide) ?_ | with_reducible refine Rest.iteS ?_ ?_
    | with_reducible refine World.abortAll_rest (by decide) ?_ | with_reducible refine World.canBus_rest (by decide) ?_
    | with_reducible refine World.feedTb0_rest (by decide) ?_ | with_reducible refine World.updCan_rest (by decide) ?_
    | with_reducible refine Rest.ite ?_ ?_ | dsimp only | split | intro _

theorem execCanTrxFault_keeps {n : Nat} {on txd : Bool} {s : State} : Keeps [.evt, .reg 0x100018, .reg 0x900030] (execCanTrxFault n on txd s) s := by
  unfold execCanTrxFault
  try dsimp only
  repeat' first
    | with_reducible exact Rest.refl _ _ | with_reducible exact Side.refl _ _ | with_reducible assumption | with_reducible refine Keeps.lift ?_
    | with_reducible refine Keeps.ite ?_ ?_ | with_reducible refine World.canWr_rest _ _ _ (by decide) ?_ | with_reducible refine Rest.when ?_ ?_
    | with_reducible refine Rest.iteS ?_ ?_ | with_reducible refine World.canBus_rest (by decide) ?_ | with_reducible refine Rest.ite ?_ ?_
    | dsimp only | split | intro _

theorem execCanWake_keeps {n : Nat} {s : State} : Keeps [.evt, .reg 0x100018, .reg 0x900030] (execCanWake n s) s := by
  unfold execCanWake
  try dsimp only
  repeat' first
    | with_reducible exact Rest.refl _ _ | with_reducible exact Side.refl _ _ | with_reducible assumption | with_reducible refine Keeps.lift ?_
    | with_reducible refine Keeps.ite ?_ ?_ | with_reducible refine World.canWr_rest _ _ _ (by decide) ?_ | with_reducible refine Rest.iteS ?_ ?_
    | with_reducible refine World.canBus_rest (by decide) ?_ | with_reducible refine Rest.ite ?_ ?_ | dsimp only | split | intro _

theorem execJ1939AddressClaim_keeps {n sa : Nat} {lost : Bool} {s : State} : Keeps [.evt, .can, .reg 0x100018, .reg 0x900038] (execJ1939AddressClaim n sa lost s) s := by
  unfold execJ1939AddressClaim
  try dsimp only
  repeat' first
    | with_reducible exact Rest.refl _ _ | with_reducible exact Side.refl _ _ | with_reducible assumption | with_reducible refine Keeps.lift ?_
    | with_reducible refine Keeps.ite ?_ ?_ | with_reducible refine World.canWr_rest _ _ _ (by decide) ?_ | with_reducible refine Rest.iteS ?_ ?_
    | with_reducible refine World.canBus_rest (by decide) ?_ | with_reducible refine World.updCan_rest (by decide) ?_
    | with_reducible refine Rest.ite ?_ ?_ | dsimp only | split | intro _

theorem execDm1Broadcast_keeps {n lamps : Nat} {codes : List Byte} {s : State} : Keeps [.can, .reg 0x900044, .reg 0x900100, .reg 0x900104, .reg 0x900108] (execDm1Broadcast n lamps codes s) s := by
  unfold execDm1Broadcast
  try dsimp only
  repeat' first
    | with_reducible exact Rest.refl _ _ | with_reducible exact Side.refl _ _ | with_reducible assumption | with_reducible refine Keeps.lift ?_
    | with_reducible refine Keeps.ite ?_ ?_ | with_reducible refine Rest.when ?_ ?_ | with_reducible refine Rest.iteS ?_ ?_
    | with_reducible refine World.putTb_rest (by decide) ?_ | with_reducible refine World.updCan_rest (by decide) ?_
    | with_reducible refine Rest.ite ?_ ?_ | dsimp only | split | intro _

theorem execCanRxError_keeps {n ty : Nat} {dom : Bool} {s : State} : Keeps [.evt, .reg 0x100018, .reg 0x900030, .reg 0x900034] (execCanRxError n ty dom s) s := by
  unfold execCanRxError
  try dsimp only
  repeat' first
    | with_reducible exact Rest.refl _ _ | with_reducible exact Side.refl _ _ | with_reducible assumption | with_reducible refine Keeps.lift ?_
    | with_reducible refine Keeps.ite ?_ ?_ | with_reducible refine World.canWr_rest _ _ _ (by decide) ?_ | with_reducible refine Rest.when ?_ ?_
    | with_reducible refine Rest.iteS ?_ ?_ | with_reducible refine World.setErrc_rest (by decide) ?_ | with_reducible refine Rest.ite ?_ ?_
    | dsimp only | split | intro _

theorem execCanFrameReceived_keeps {n stamp : Nat} {self_ : Bool} {f : CanFrame} {s : State} : Keeps [.evt, .uin, .can, .reg 0x100018, .reg 0x700020, .reg 0x700024, .reg 0x70002C, .reg 0x700030, .reg 0x700044, .reg 0x701000, .reg 0x701004, .reg 0x900030, .reg 0x900034, .reg 0x900060, .reg 0x900068, .reg 0x90006C, .reg 0x900800, .reg 0x901000, .reg 0x901004, .reg 0x901008, .reg 0x901010] (execCanFrameReceived n stamp self_ f s) s := by
  unfold execCanFrameReceived
  try dsimp only
  repeat' first
    | with_reducible exact Rest.refl _ _ | with_reducible exact Side.refl _ _ | with_reducible assumption | with_reducible refine Keeps.lift ?_
    | with_reducible refine Keeps.ite ?_ ?_ | with_reducible refine World.canWr_rest _ _ _ (by decide) ?_
    | with_reducible refine Rest.bump _ _ _ (by decide) ?_ | with_reducible refine Rest.iteS ?_ ?_
    | with_reducible refine World.canDecode_rest (by decide) ?_ | with_reducible refine World.canOnBus_rest (by decide) ?_
    | with_reducible refine World.canQueue_rest (by decide) ?_ | with_reducible refine World.clash_rest (by decide) ?_
    | with_reducible refine World.setErrc_rest (by decide) ?_ | with_reducible refine Rest.ite ?_ ?_ | dsimp only | split | intro _

theorem execCanRxAck_keeps {h : Half} {init v : Nat} {s : State} : Keeps [.evt, .can, .reg 0x100018, .reg 0x300118, .reg 0x900060] (execCanRxAck h init v s) s := by
  unfold execCanRxAck
  try dsimp only
  repeat' first
    | with_reducible exact Rest.refl _ _ | with_reducible exact Side.refl _ _ | with_reducible assumption | with_reducible refine Keeps.putW ?_
    | with_reducible refine Keeps.ite ?_ ?_ | with_reducible refine World.canWr_rest _ _ _ (by decide) ?_ | with_reducible refine Rest.iteS ?_ ?_
    | with_reducible refine World.updCan_rest (by decide) ?_ | with_reducible refine canGate_rest (by decide) ?_ ?_
    | with_reducible refine Rest.ite ?_ ?_ | dsimp only | split | intro _

end Sys2Proof.Machine
end

