-- ==== Sys2Proof/Laws/FrameTop.lean ====
section
/-!
SUPPORT. What each command of these units leaves alone.
-/
set_option linter.unreachableTactic false
set_option linter.unusedTactic false

namespace Sys2Proof.Machine

theorem execStewardFrame_keeps {h : Half} {busy c0 c1 : Nat} {s : State} : Keeps [.run, .evt, .frame, .reg 0x40, .reg 0x80, .reg 0x100018] (execStewardFrame h busy c0 c1 s) s := by
  unfold execStewardFrame
  try dsimp only
  repeat' first
    | with_reducible exact Rest.refl _ _ | with_reducible exact Side.refl _ _ | with_reducible assumption | with_reducible refine Keeps.lift ?_
    | with_reducible refine Keeps.ite ?_ ?_ | with_reducible refine Rest.when ?_ ?_ | with_reducible refine Rest.iteS ?_ ?_
    | with_reducible refine World.frameStart_rest (by decide) ?_ | with_reducible refine Rest.ite ?_ ?_ | dsimp only | split | intro _

theorem execC3Shed_keeps {h : Half} {s : State} : Keeps [.evt, .frame, .reg 0x40, .reg 0x100018] (execC3Shed h s) s := by
  unfold execC3Shed
  try dsimp only
  repeat' first
    | with_reducible exact Rest.refl _ _ | with_reducible exact Side.refl _ _ | with_reducible assumption | with_reducible refine Keeps.lift ?_
    | with_reducible refine Keeps.ite ?_ ?_ | with_reducible refine Rest.bump _ _ _ (by decide) ?_ | with_reducible refine Rest.when ?_ ?_
    | with_reducible refine Rest.iteS ?_ ?_ | with_reducible refine World.overload_rest (by decide) ?_
    | with_reducible refine World.updFrame_rest (by decide) ?_ | with_reducible refine Rest.ite ?_ ?_ | dsimp only | split | intro _

theorem execC2Pause_keeps {h : Half} {s : State} : Keeps [.evt, .frame, .reg 0x40, .reg 0x100018] (execC2Pause h s) s := by
  unfold execC2Pause
  try dsimp only
  repeat' first
    | with_reducible exact Rest.refl _ _ | with_reducible exact Side.refl _ _ | with_reducible assumption | with_reducible refine Keeps.lift ?_
    | with_reducible refine Keeps.ite ?_ ?_ | with_reducible refine Rest.bump _ _ _ (by decide) ?_ | with_reducible refine Rest.when ?_ ?_
    | with_reducible refine Rest.iteS ?_ ?_ | with_reducible refine World.overload_rest (by decide) ?_
    | with_reducible refine World.updFrame_rest (by decide) ?_ | with_reducible refine Rest.ite ?_ ?_ | dsimp only | split | intro _

theorem execStwLoadClear_keeps {h : Half} {init : Nat} {s : State} : Keeps [.reg 0x40] (execStwLoadClear h init s) s := by
  unfold execStwLoadClear
  try dsimp only
  repeat' first
    | with_reducible exact Rest.refl _ _ | with_reducible exact Side.refl _ _ | with_reducible assumption | with_reducible refine Keeps.lift ?_
    | with_reducible refine Keeps.ite ?_ ?_ | with_reducible refine Rest.wr _ _ _ _ (by decide) ?_ | with_reducible refine Rest.iteS ?_ ?_
    | with_reducible refine Rest.ite ?_ ?_ | dsimp only | split | intro _

theorem execWatchdogService_keeps {h : Half} {init v : Nat} {s : State} : Keeps [.own, .run, .evt, .frame, .vlv, .lsw, .can, .pwr, .dsp, .reg 0x100018, .reg 0x30010C, .reg 0x500028, .reg 0x500080, .reg 0x600024, .reg 0x600030, .reg 0x700080, .reg 0x900030, .reg 0x900044, .reg 0xB00018, .reg 0xF00018, .reg 0x1000020, .reg 0x1000044] (execWatchdogService h init v s) s := by
  unfold execWatchdogService
  try dsimp only
  repeat' first
    | with_reducible exact Rest.refl _ _ | with_reducible exact Side.refl _ _ | with_reducible assumption | with_reducible refine Keeps.next ?_ ?_
    | with_reducible refine Side.onW ?_ | with_reducible refine Side.when ?_ ?_ | with_reducible refine State.watchdogExpire_side (by decide) ?_
    | with_reducible refine Side.ite ?_ ?_ | with_reducible refine Side.set_w ?_ _ | with_reducible refine Keeps.ite ?_ ?_
    | with_reducible refine Rest.when ?_ ?_ | with_reducible refine Rest.onW ?_ ?_ | with_reducible refine Rest.whenS ?_ ?_
    | with_reducible refine Rest.iteS ?_ ?_ | with_reducible refine State.watchdogExpire_rest (by decide) ?_
    | with_reducible refine World.updFrame_rest (by decide) ?_ | with_reducible refine Rest.ite ?_ ?_ | dsimp only | split | intro _

theorem execWatchdogExpiry_keeps {h : Half} {s : State} : Keeps [.own, .run, .evt, .vlv, .lsw, .can, .pwr, .dsp, .reg 0x100018, .reg 0x30010C, .reg 0x500028, .reg 0x500080, .reg 0x600024, .reg 0x600030, .reg 0x700080, .reg 0x900030, .reg 0x900044, .reg 0xB00018, .reg 0xF00018, .reg 0x1000020, .reg 0x1000044] (execWatchdogExpiry h s) s := by
  unfold execWatchdogExpiry
  try dsimp only
  repeat' first
    | with_reducible exact Rest.refl _ _ | with_reducible exact Side.refl _ _ | with_reducible assumption | with_reducible refine Keeps.next ?_ ?_
    | with_reducible refine Side.when ?_ ?_ | with_reducible refine State.watchdogExpire_side (by decide) ?_ | with_reducible refine Side.ite ?_ ?_
    | with_reducible refine Side.set_w ?_ _ | with_reducible refine Keeps.ite ?_ ?_ | with_reducible refine Rest.when ?_ ?_
    | with_reducible refine Rest.whenS ?_ ?_ | with_reducible refine Rest.iteS ?_ ?_ | with_reducible refine State.watchdogExpire_rest (by decide) ?_
    | with_reducible refine Rest.ite ?_ ?_ | dsimp only | split | intro _

theorem execEventRaise_keeps {h : Half} {num arg : Nat} {s : State} : Keeps [.evt, .reg 0x100018] (execEventRaise h num arg s) s := by
  unfold execEventRaise
  try dsimp only
  repeat' first
    | with_reducible exact Rest.refl _ _ | with_reducible exact Side.refl _ _ | with_reducible assumption | with_reducible refine Keeps.lift ?_
    | with_reducible refine Keeps.ite ?_ ?_ | with_reducible refine Rest.raise _ _ _ (by decide) ?_ | with_reducible refine Rest.when ?_ ?_
    | with_reducible refine Rest.iteS ?_ ?_ | with_reducible refine Rest.ite ?_ ?_ | dsimp only | split | intro _

theorem execEventRecordDelivery_keeps {h : Half} {s : State} : Keeps [.evt, .xng, .vlv, .lsw, .uin, .dram, .can, .reg 0x100018, .reg 0x100024, .reg 0x100040, .reg 0x500028, .reg 0x600024, .reg 0x700020, .reg 0x700024, .reg 0x700044, .reg 0x701000, .reg 0x701004, .reg 0x900030, .reg 0x900044] (execEventRecordDelivery h s) s := by
  unfold execEventRecordDelivery
  try dsimp only
  repeat' first
    | with_reducible exact Rest.refl _ _ | with_reducible exact Side.refl _ _ | with_reducible assumption | with_reducible refine Keeps.next ?_ ?_
    | with_reducible refine Side.when ?_ ?_ | with_reducible refine State.deliver_side (by decide) ?_ | with_reducible refine Side.ite ?_ ?_
    | with_reducible refine Side.set_w ?_ _ | with_reducible refine Keeps.ite ?_ ?_ | with_reducible refine Rest.when ?_ ?_
    | with_reducible refine Rest.whenS ?_ ?_ | with_reducible refine Rest.iteS ?_ ?_ | with_reducible refine State.deliver_rest (by decide) ?_
    | with_reducible refine Rest.ite ?_ ?_ | dsimp only | split | intro _

theorem execEvtClrCnt_keeps {h : Half} {init : Nat} {s : State} : Keeps [.reg 0x100018] (execEvtClrCnt h init s) s := by
  unfold execEvtClrCnt
  try dsimp only
  repeat' first
    | with_reducible exact Rest.refl _ _ | with_reducible exact Side.refl _ _ | with_reducible assumption | with_reducible refine Keeps.lift ?_
    | with_reducible refine Keeps.ite ?_ ?_ | with_reducible refine Rest.wr _ _ _ _ (by decide) ?_ | with_reducible refine Rest.iteS ?_ ?_
    | with_reducible refine Rest.ite ?_ ?_ | dsimp only | split | intro _

theorem execKnockCmd_keeps {h : Half} {init cls idx tc : Nat} {jobs : List Nat} {s : State} : Keeps [.own, .bus, .fresh, .run, .evt, .xng, .roast, .act, .shut, .frame, .tim, .set, .opt, .vlv, .lsw, .uin, .yld, .dram, .pose, .grd, .trk, .gns, .can, .flx, .upd, .pwr, .dsp, .latch, .regs] (execKnockCmd h init cls idx tc jobs s) s := by
  unfold execKnockCmd
  try dsimp only
  repeat' first
    | with_reducible exact Rest.refl _ _ | with_reducible exact Side.refl _ _ | with_reducible assumption | with_reducible refine Keeps.next ?_ ?_
    | with_reducible refine Side.onW ?_ | with_reducible refine Side.when ?_ ?_ | with_reducible refine State.knockIn_side (by decide) ?_
    | with_reducible refine Side.ite ?_ ?_ | with_reducible refine Side.set_w ?_ _ | with_reducible refine Keeps.ite ?_ ?_
    | with_reducible refine Rest.wr _ _ _ _ (by decide) ?_ | with_reducible refine Rest.when ?_ ?_ | with_reducible refine Rest.onW ?_ ?_
    | with_reducible refine Rest.whenS ?_ ?_ | with_reducible refine Rest.iteS ?_ ?_ | with_reducible refine State.knockIn_rest (by decide) ?_
    | with_reducible refine World.freeSlots_rest (by decide) ?_ | with_reducible refine Rest.ite ?_ ?_ | dsimp only | split | intro _

theorem execKnockComplete_keeps {h : Half} {k : Nat} {s : State} : Keeps [.reg 0x1000A0] (execKnockComplete h k s) s := by
  unfold execKnockComplete
  try dsimp only
  repeat' first
    | with_reducible exact Rest.refl _ _ | with_reducible exact Side.refl _ _ | with_reducible assumption | with_reducible refine Keeps.lift ?_
    | with_reducible refine Keeps.ite ?_ ?_ | with_reducible refine Rest.when ?_ ?_ | with_reducible refine Rest.forAll ?_ ?_
    | with_reducible refine Rest.iteS ?_ ?_ | with_reducible refine World.slotDone_rest (by decide) ?_ | with_reducible refine Rest.ite ?_ ?_
    | dsimp only | split | intro _

theorem execKnockEscalation_keeps {h : Half} {k : Nat} {s : State} : Keeps [.evt, .reg 0x100018, .reg 0x1000A0, .reg 0xD00038] (execKnockEscalation h k s) s := by
  unfold execKnockEscalation
  try dsimp only
  repeat' first
    | with_reducible exact Rest.refl _ _ | with_reducible exact Side.refl _ _ | with_reducible assumption | with_reducible refine Keeps.lift ?_
    | with_reducible refine Keeps.ite ?_ ?_ | with_reducible refine Rest.wr _ _ _ _ (by decide) ?_
    | with_reducible refine Rest.bump _ _ _ (by decide) ?_ | with_reducible refine Rest.raise _ _ _ (by decide) ?_
    | with_reducible refine Rest.when ?_ ?_ | with_reducible refine Rest.forAll ?_ ?_ | with_reducible refine Rest.iteS ?_ ?_
    | with_reducible refine Rest.ite ?_ ?_ | dsimp only | split | intro _

theorem execSelectWrite_keeps {h : Half} {init blk v : Nat} {s : State} : Keeps [.evt, .reg 0x100018, .reg 0x500000, .reg 0x600000, .reg 0x700000, .reg 0x800000, .reg 0x900000, .reg 0xB00000, .reg 0xE00000, .reg 0x1000000] (execSelectWrite h init blk v s) s := by
  unfold execSelectWrite
  exact Keeps.lift (Rest.when (Rest.refl _ _) fun u hu => World.writeSel_rest (by decide) hu)

theorem execRegisterWrite_keeps {h : Half} {init addr v : Nat} {s : State} : Keeps [.bus] (execRegisterWrite h init addr v s) s := by
  exact Keeps.next (Side.when (Side.refl _ _) fun u hu => Side.set_bus (by decide) hu _) (Rest.whenS (Rest.refl _ _) fun u hu => hu)

theorem execWriteTakesEffect_keeps {h : Half} {init : Nat} {s : State} : Keeps [.bus, .evt, .latch, .regs] (execWriteTakesEffect h init s) s := by
  unfold execWriteTakesEffect
  split
  · exact Keeps.next (Side.refl _ _) (Rest.refl _ _)
  · refine Keeps.next (Side.when (Side.refl _ _) fun u hu => Side.set_w (Side.set_bus (by decide) hu _) _) (Rest.whenS (Rest.refl _ _) fun u hu => ?_)
    exact State.writeWorld_rest (by decide) hu

theorem execReadTimeout_keeps {h : Half} {init addr : Nat} {s : State} : Keeps [.bus] (execReadTimeout h init addr s) s := by
  exact Keeps.next (Side.when (Side.refl _ _) fun u hu => Side.set_bus (by decide) hu _) (Rest.whenS (Rest.refl _ _) fun u hu => hu)

theorem execBusErrorAccess_keeps {h : Half} {init addr size : Nat} {s : State} : Keeps [.bus] (execBusErrorAccess h init addr size s) s := by
  exact Keeps.next (Side.when (Side.refl _ _) fun u hu => Side.set_bus (by decide) hu _) (Rest.whenS (Rest.refl _ _) fun u hu => hu)

end Sys2Proof.Machine
end

