-- ==== Sys2Proof/Laws/Inv.lean ====
section
/-!
SUPPORT. The invariant `State.Inv` through the operations on the whole state.
-/
set_option linter.unreachableTactic false
set_option linter.unusedTactic false

namespace Sys2Proof.Machine

theorem State.Inv.of_eq {s t : State} (e : s.Inv) (ho : t.own = s.own) (hl : t.ledger = s.ledger) (hb : t.bus = s.bus) : t.Inv := by
  refine ⟨?_, ?_, ?_, ?_⟩
  · rw [hl]; exact e.ledger
  · intro h i; unfold State.port; rw [hb]; exact e.fifo h i
  · intro h i; unfold State.port; rw [hb]; exact e.stall h i
  · rw [ho]; exact e.own

theorem State.Inv.of_side {s t : State} (e : s.Inv) (h : Side [] t s) : t.Inv :=
  e.of_eq (h.2.1 (by decide)) (h.2.2.1 (by decide)) (h.2.2.2 (by decide))

theorem State.Inv.set_w {s : State} (e : s.Inv) (x : World) : ({ s with w := x } : State).Inv := e.of_eq rfl rfl rfl

theorem State.Inv.onW {s : State} {f : World → World} (e : s.Inv) : (s.onW f).Inv := e.of_eq rfl rfl rfl

theorem State.Inv.set_own {s : State} (e : s.Inv) {o : Own} (ho : o.Ok) : ({ s with own := o } : State).Inv := ⟨e.ledger, e.fifo, e.stall, ho⟩

theorem State.Inv.onOwn {s : State} {f : Own → Own} (e : s.Inv) (ho : (f s.own).Ok) : (s.onOwn f).Inv := e.set_own ho

theorem State.Inv.set_ledger {s : State} (e : s.Inv) {m : Memory} (hm : m.wf = true) : ({ s with ledger := m } : State).Inv :=
  ⟨hm, e.fifo, e.stall, e.own⟩

theorem State.Inv.ite {c : Prop} [Decidable c] {a b : State} (ha : a.Inv) (hb : b.Inv) : (if c then a else b).Inv := by split <;> assumption

theorem State.Inv.when {s : State} {c : Bool} {f : State → State} (e : s.Inv) (hf : ∀ u : State, u.Inv → (f u).Inv) : (s.when c f).Inv := by
  unfold State.when
  split
  · exact hf _ e
  · exact e

/-- The condition itself may be used. -/
theorem State.Inv.when_of {s : State} {c : Bool} {f : State → State} (e : s.Inv) (hf : c = true → (f s).Inv) : (s.when c f).Inv := by
  unfold State.when
  split
  · exact hf ‹_›
  · exact e

theorem State.Inv.forAll {α : Type} {s : State} {l : List α} {f : State → α → State} (e : s.Inv)
    (hf : ∀ (u : State) a, u.Inv → (f u a).Inv) : (s.forAll l f).Inv := by
  unfold State.forAll
  induction l generalizing s with
  | nil => exact e
  | cons a t ih => exact ih (hf _ _ e)

/-- With a property of the state that every member keeps and of the members. -/
theorem State.Inv.forAll_of {α : Type} {s : State} {l : List α} {f : State → α → State} (p : State → Prop) (e : s.Inv) (hp : p s)
    (hf : ∀ (u : State) a, a ∈ l → u.Inv → p u → (f u a).Inv ∧ p (f u a)) : (s.forAll l f).Inv ∧ p (s.forAll l f) := by
  unfold State.forAll
  induction l generalizing s with
  | nil => exact ⟨e, hp⟩
  | cons a t ih =>
    have := hf s a (by simp) e hp
    exact ih this.1 this.2 fun u b hb => hf u b (List.mem_cons_of_mem _ hb)

/-! The arbiter. -/

theorem Own.token_setToken' (o : Own) (k j : Nat) (t : Token) : (o.setToken k t).token j = if j = k then t else o.token j :=
  Own.token_setToken o k j t

/-- A token replaced by one that passes to nobody. -/
theorem Own.Ok.setToken {o : Own} (e : o.Ok) (k : Nat) (t : Token) (hk : nObj ≤ k → t.st = .orphan)
    (hp : ∀ d g, t.st = .claiming d g → o.alive d = true) : (o.setToken k t).Ok := by
  refine ⟨?_, ?_, e.server, e.fallen⟩
  · intro j hj
    rw [Own.token_setToken]
    split
    · next h => subst h; exact hk hj
    · exact e.objects j hj
  · intro j d g
    rw [Own.token_setToken]
    split
    · exact hp d g
    · exact e.passing j d g

theorem State.Inv.leaves {s : State} {k : Nat} (e : s.Inv) : (s.leaves k).Inv := e.of_eq (by simp) (by simp) (by simp)

theorem State.Inv.orphan {s : State} {k : Nat} {l : Half} (e : s.Inv) : (s.orphan k l).Inv := by
  unfold State.orphan
  refine (State.Inv.leaves (e.onOwn (e.own.setToken k _ (fun _ => rfl) ?_))).onW
  intro d g h; exact absurd h (by simp)

theorem State.Inv.claiming {s : State} {k : Nat} {d : Half} {g : Option Half} (e : s.Inv) (hk : k < nObj) (hd : s.own.alive d = true) :
    (s.claiming k d g).Inv := by
  refine e.onOwn (e.own.setToken k _ (fun h => absurd hk (by omega)) ?_)
  intro d' g' h
  simp only [TokenSt.claiming.injEq] at h
  rw [← h.1]; exact hd

theorem State.Inv.owned {s : State} {k : Nat} {h : Half} (e : s.Inv) (hk : k < nObj) : (s.owned k h).Inv := by
  refine e.onOwn (e.own.setToken k _ (fun h => absurd hk (by omega)) ?_)
  intro d' g' h; exact absurd h (by simp)

/-- A token that has left ORPHAN is an object's. -/
theorem Own.Ok.lt {o : Own} (e : o.Ok) {k : Nat} (h : (o.token k).st ≠ .orphan) : k < nObj := by
  by_contra hc
  exact h (e.objects k (by omega))

/-- A part of the arbiter that the invariant does not read. -/
theorem Own.Ok.of_eq {o p : Own} (e : o.Ok) (ht : p.tok = o.tok) (hl : p.low = o.low) (hs : p.server = o.server)
    (hf : p.fallSet = o.fallSet) : p.Ok := by
  refine ⟨?_, ?_, ?_, ?_⟩
  · intro k; unfold Own.token; rw [ht]; exact e.objects k
  · intro k d g; unfold Own.token Own.alive; rw [ht, hl]; exact e.passing k d g
  · intro h; unfold Own.alive; rw [hs, hl]; exact e.server h
  · intro h k; rw [hf]; exact e.fallen h k

theorem State.Inv.claim {s : State} {h : Half} {k : Nat} (e : s.Inv) (ha : s.own.alive h = true) : (s.claim h k).Inv := by
  unfold State.claim
  split
  · exact e.onW
  · rename_i hk
    have hk : k < nObj := by omega
    split
    · exact (e.claiming hk ha).onW
    · exact e.onW
    · split
      · exact e.onW
      · split
        · split
          · exact (e.claiming hk ha).onW.onW
          · exact e.onW
        · exact e.onW

theorem State.Inv.settle {s : State} {h : Half} {k : Nat} (e : s.Inv) : (s.settle h k).Inv := by
  unfold State.settle
  split
  · exact e.when fun u hu => hu.onW
  · exact e.when fun u hu => (hu.onOwn (hu.own.of_eq rfl rfl rfl rfl)).onW
  · exact e.when fun u hu => (hu.onOwn (hu.own.of_eq rfl rfl rfl rfl)).onW

theorem State.Inv.release {s : State} {h : Half} {k : Nat} (e : s.Inv) : (s.release h k).Inv := by
  unfold State.release
  exact .ite e.onW (.ite e.orphan.onW e.onW)

theorem State.Inv.handover {s : State} {h : Half} {k : Nat} (e : s.Inv) : (s.handover h k).Inv := by
  unfold State.handover
  split
  · exact e.onW
  · split
    · exact e.onW
    · split
      · exact e.onW
      · rename_i hk _ ha
        simp only [Bool.not_eq_true, Bool.not_eq_false', State.accepts, Bool.and_eq_true] at ha
        exact (State.Inv.leaves (e.claiming (by omega) ha.1)).onW

theorem State.Inv.handoverDone {s : State} {k : Nat} (e : s.Inv) : (s.handoverDone k).Inv := by
  unfold State.handoverDone
  split
  · rename_i d g hk
    exact ((e.owned (e.own.lt (by rw [hk]; simp))).when fun u hu => hu.onW).settle
  · exact e

theorem State.Inv.claimAll {s : State} {h : Half} {l : List Nat} (e : s.Inv) (ha : s.own.alive h = true) (hl : ∀ k ∈ l, k < nObj) :
    (s.claimAll h l).Inv := by
  unfold State.claimAll
  dsimp only
  split
  · exact e.onW
  · have := State.Inv.forAll_of (l := l.filter fun k => decide ((s.own.token k).st = .orphan)) (f := fun s k => s.claiming k h none)
      (fun u => u.own.alive h = true) e ha (fun u a hm hu hp => ⟨hu.claiming (hl a (List.mem_of_mem_filter hm)) hp, hp⟩)
    exact (this.1.onOwn (this.1.own.of_eq rfl rfl rfl rfl)).onW

theorem mem_ownedBy {o : Own} {h : Half} {k : Nat} (hk : k ∈ o.ownedBy h) : k < nObj := by
  unfold Own.ownedBy at hk
  exact ((mem_objsWhere _ _ _).mp hk).1

theorem mem_toward {o : Own} {h : Half} {k : Nat} (hk : k ∈ o.toward h) : k < nObj := by
  unfold Own.toward at hk
  exact ((mem_objsWhere _ _ _).mp hk).1

theorem State.Inv.handoverAll {s : State} {h : Half} (e : s.Inv) : (s.handoverAll h).Inv := by
  unfold State.handoverAll
  split
  · exact e.onW
  · rename_i ha
    simp only [Bool.not_eq_true, Bool.not_eq_false', State.accepts, Bool.and_eq_true] at ha
    dsimp only
    split
    · exact e.onW
    · have := State.Inv.forAll_of (l := s.own.ownedBy h) (f := fun s k => (s.claiming k h.other (some h)).leaves k)
        (fun u => u.own.alive h.other = true) e ha.1
        (fun u a hm hu hp => ⟨State.Inv.leaves (hu.claiming (mem_ownedBy hm) hp), by rw [State.leaves_own]; exact hp⟩)
      exact (this.1.onOwn (this.1.own.of_eq rfl rfl rfl rfl)).onW

theorem State.Inv.handoverAllNow {s : State} {h : Half} (e : s.Inv) : (s.handoverAllNow h).Inv :=
  e.handoverAll.forAll fun _ _ hu => hu.handoverDone

theorem wf_ledgerWrite {m : Memory} (h : m.wf = true) (ty k src utc : Nat) (pl : List Byte) : (ledgerWrite m ty k src utc pl).wf = true :=
  Memory.wf_writeN _ _ _ (Memory.wf_writeN _ _ _ (Memory.wf_writeN _ _ _ h))

theorem wf_journalReplay {m : Memory} (h : m.wf = true) : (journalReplay m).wf = true := by
  unfold journalReplay
  dsimp only
  generalize sortBy _ _ = l
  have : ∀ (l : List Nat) (m' : Memory) (g : Memory → Nat → Memory), (∀ m i, Memory.wf m = true → Memory.wf (g m i) = true) →
      m'.wf = true → (l.foldl g m').wf = true := by
    intro l
    induction l with
    | nil => intro m' g _ h; exact h
    | cons a t ih => intro m' g hg h; exact ih _ g hg (hg _ _ h)
  exact this l m _ (fun m i h => Memory.wf_writeN _ _ _ (Memory.wf_writeN _ _ _ h)) h

theorem State.Inv.replayJournal {s : State} (e : s.Inv) : s.replayJournal.Inv := by
  unfold State.replayJournal
  exact .ite (State.Inv.set_w (e.set_ledger (wf_journalReplay e.ledger)) _) e

theorem State.Inv.serve {s : State} {h : Half} (e : s.Inv) (ha : s.own.alive h = true) : (s.serve h).Inv := by
  unfold State.serve
  refine (State.Inv.replayJournal (e.onOwn ⟨e.own.objects, e.own.passing, ?_, e.own.fallen⟩)).onW
  intro g hg
  simp only [Option.some.injEq] at hg
  subst hg; exact ha

theorem State.Inv.serverReq {s : State} {h : Half} (e : s.Inv) : (s.serverReq h).Inv := by
  unfold State.serverReq
  refine e.when_of fun hc => ?_
  simp only [Bool.and_eq_true] at hc
  exact e.serve hc.1.1

theorem State.Inv.expire {s : State} {k : Nat} (e : s.Inv) : (s.expire k).Inv := by
  unfold State.expire
  refine (e.onOwn (e.own.setToken k { s.own.token k with expired := true } (fun h => e.own.objects k h) fun d g h => e.own.passing k d g h)).onW

theorem State.Inv.setOrphanT {s : State} {t : Nat} (e : s.Inv) : (s.setOrphanT t).Inv := by
  unfold State.setOrphanT
  exact e.onW.forAll fun _ _ hu => hu.expire

/-- A fall of the line: before, nothing but the line itself; after, nothing passes to the half and it does not serve. -/
theorem State.Inv.fall {s : State} {h : Half} {c : LowCause} (e : s.Inv) : (s.fall h c).Inv := by
  have hlow : ∀ l : Low, (l.put c true).alive = false := by
    intro l; cases c <;> simp [Low.put, Low.alive]
  have halive : ∀ d, d ≠ h → ∀ o : Own, (Own.alive { o with low := o.low.set h ((o.low.get h).put c true) } d) = o.alive d := by
    intro d hd o
    unfold Own.alive
    cases h <;> cases d <;> first | exact absurd rfl hd | rfl
  have hself : ∀ o : Own, Own.alive { o with low := o.low.set h ((o.low.get h).put c true) } h = false := by
    intro o
    unfold Own.alive
    cases h <;> exact hlow _
  unfold State.fall
  dsimp only
  by_cases hw : s.own.alive h = true
  · rw [hw, State.when_true]
    unfold State.fallen
    dsimp only [State.onOwn_own, State.onOwn_w]
    -- the tokens toward `h`
    set s1 : State := (s.onOwn fun o => { o with low := o.low.set h ((o.low.get h).put c true) }) with hs1
    have key : ∀ (l : List Nat) (u : State), u.ledger.wf = true → (∀ h i, (u.port h i).fifo.length ≤ 8) →
        (∀ h i, (u.port h i).stalled.isSome = true → (u.port h i).fifo.length = 8) →
        (∀ k, nObj ≤ k → (u.own.token k).st = .orphan) →
        (∀ k d g, (u.own.token k).st = .claiming d g → d ≠ h → u.own.alive d = true) →
        (∀ k g, (u.own.token k).st = .claiming h g → k ∈ l) → (∀ d, u.own.server = some d → u.own.alive d = true) →
        (∀ d k, k ∈ u.own.fallSet.get d → k < nObj) → (u.forAll l fun s k => s.orphan k h).Inv := by
      intro l
      induction l with
      | nil =>
        intro u h1 h2 h3 h4 h5 h6 h7 h8
        refine ⟨h1, h2, h3, h4, ?_, h7, h8⟩
        intro k d g hk
        by_cases hd : d = h
        · subst hd; exact absurd (h6 k g hk) (by simp)
        · exact h5 k d g hk hd
      | cons a t ih =>
        intro u h1 h2 h3 h4 h5 h6 h7 h8
        have hl : (u.orphan a h).ledger = u.ledger := by simp [State.orphan]
        have hb : (u.orphan a h).bus = u.bus := by simp [State.orphan]
        have hp : ∀ h' i, (u.orphan a h).port h' i = u.port h' i := by intro h' i; unfold State.port; rw [hb]
        have hal : ∀ d, (u.orphan a h).own.alive d = u.own.alive d := by intro d; simp [State.orphan, Own.toOrphan, Own.setToken, Own.alive]
        have hsv : (u.orphan a h).own.server = u.own.server := by simp [State.orphan, Own.toOrphan, Own.setToken]
        have hfs : (u.orphan a h).own.fallSet = u.own.fallSet := by simp [State.orphan, Own.toOrphan, Own.setToken]
        refine ih (u.orphan a h) (by rw [hl]; exact h1) ?_ ?_ ?_ ?_ ?_ ?_ ?_
        · intro h' i; rw [hp]; exact h2 h' i
        · intro h' i; rw [hp]; exact h3 h' i
        · intro k hk; rw [State.token_orphan]; split
          · rfl
          · exact h4 k hk
        · intro k d g; rw [State.token_orphan, hal]; split
          · intro hx; exact absurd hx (by simp)
          · exact h5 k d g
        · intro k g; rw [State.token_orphan]; split
          · intro hx; exact absurd hx (by simp)
          · rename_i hne
            intro hx
            have := h6 k g hx
            rcases List.mem_cons.mp this with h | h
            · exact absurd h hne
            · exact h
        · intro d; rw [hsv, hal]; exact h7 d
        · intro d k; rw [hfs]; exact h8 d k
    refine State.Inv.onW (State.Inv.when ?_ fun u hu => (hu.onOwn (hu.own.of_eq rfl rfl rfl rfl)).onW)
    refine key _ _ e.ledger e.fifo e.stall e.own.objects ?_ ?_ ?_ ?_
    · intro k d g hk hd
      have := e.own.passing k d g hk
      show Own.alive { s.own with low := s.own.low.set h ((s.own.low.get h).put c true) } d = true
      rw [halive d hd]; exact this
    · intro k g hk
      have hk' : (s.own.token k).st = .claiming h g := hk
      show k ∈ s.own.toward h
      unfold Own.toward
      rw [mem_objsWhere]
      exact ⟨e.own.lt (by rw [hk']; simp), by rw [hk']; simp⟩
    · intro d
      show (if s.own.server = some h then none else s.own.server) = some d → _
      intro hd
      by_cases hs : s.own.server = some h
      · rw [if_pos hs] at hd; exact absurd hd (by simp)
      · rw [if_neg hs] at hd
        have hdn : d ≠ h := fun h' => hs (h' ▸ hd)
        show Own.alive { s.own with low := s.own.low.set h ((s.own.low.get h).put c true) } d = true
        rw [halive d hdn]; exact e.own.server d hd
    · intro d k
      show k ∈ (s.own.fallSet.set h (s.own.ownedBy h ++ s.own.toward h)).get d → _
      intro hk
      by_cases hd : d = h
      · subst hd
        have : k ∈ s.own.ownedBy d ++ s.own.toward d := by cases d <;> exact hk
        rcases List.mem_append.mp this with h | h
        · exact mem_ownedBy h
        · exact mem_toward h
      · have : k ∈ s.own.fallSet.get d := by cases h <;> cases d <;> first | exact absurd rfl hd | exact hk
        exact e.own.fallen d k this
  · have hw : s.own.alive h = false := by simpa using hw
    rw [hw, State.when_false]
    refine e.onOwn ⟨e.own.objects, ?_, ?_, e.own.fallen⟩
    · intro k d g hk
      have hp := e.own.passing k d g hk
      have hd : d ≠ h := by intro h'; subst h'; rw [hw] at hp; exact absurd hp (by decide)
      rw [halive d hd]; exact hp
    · intro d hk
      have hp := e.own.server d hk
      have hd : d ≠ h := by intro h'; subst h'; rw [hw] at hp; exact absurd hp (by decide)
      rw [halive d hd]; exact hp

/-- Causes taken away: a line that was high stays high. -/
theorem Own.Ok.rise {o p : Own} (e : o.Ok) (ht : p.tok = o.tok) (hs : p.server = o.server) (hf : p.fallSet = o.fallSet)
    (hl : ∀ d, o.alive d = true → p.alive d = true) : p.Ok := by
  refine ⟨?_, ?_, ?_, ?_⟩
  · intro k; unfold Own.token; rw [ht]; exact e.objects k
  · intro k d g hk; unfold Own.token at hk; rw [ht] at hk; exact hl d (e.passing k d g hk)
  · intro h; rw [hs]; exact fun hk => hl h (e.server h hk)
  · intro h k; rw [hf]; exact e.fallen h k

theorem Low.alive_of_sub {l m : Low} (hd : m.detectOpen = true → l.detectOpen = true) (hs : m.supplyBad = true → l.supplyBad = true)
    (hr : m.heldReset = true → l.heldReset = true) (hw : m.watchdog = true → l.watchdog = true) (hf : m.fenced = true → l.fenced = true)
    (hi : m.wiring = true → l.wiring = true) (h : l.alive = true) : m.alive = true := by
  unfold Low.alive at h ⊢
  cases h1 : m.detectOpen <;> cases h2 : m.supplyBad <;> cases h3 : m.heldReset <;> cases h4 : m.watchdog <;> cases h5 : m.fenced <;>
    cases h6 : m.wiring <;> simp_all

theorem State.Inv.letRun {s : State} {h : Half} {cause : Nat} (e : s.Inv) : (s.letRun h cause).Inv := by
  unfold State.letRun
  dsimp only
  refine State.Inv.when ?_ fun u hu => hu.onW
  have e1 : ({ s with bus := { s.bus with port := s.bus.port.set h [] } } : State).Inv := by
    refine ⟨e.ledger, ?_, ?_, e.own⟩
    · intro g i
      by_cases hg : g = h
      · subst hg; cases g <;> simp [State.port, Two.get, Two.set, NMap.get]
      · have : ({ s with bus := { s.bus with port := s.bus.port.set h [] } } : State).port g i = s.port g i := by
          cases g <;> cases h <;> first | exact absurd rfl hg | rfl
        rw [this]; exact e.fifo g i
    · intro g i
      by_cases hg : g = h
      · subst hg; cases g <;> simp [State.port, Two.get, Two.set, NMap.get]
      · have : ({ s with bus := { s.bus with port := s.bus.port.set h [] } } : State).port g i = s.port g i := by
          cases g <;> cases h <;> first | exact absurd rfl hg | rfl
        rw [this]; exact e.stall g i
  refine (State.Inv.onW e1).onOwn (e.own.rise rfl rfl rfl ?_)
  intro d hd
  unfold Own.alive at hd ⊢
  cases h <;> cases d <;> first | exact hd | exact Low.alive_of_sub (by simp [Two.upd, Two.set, Two.get]) (by simp [Two.upd, Two.set, Two.get]) (by simp [Two.upd, Two.set, Two.get]) (by simp [Two.upd, Two.set, Two.get]) (by simp [Two.upd, Two.set, Two.get]) (by simp [Two.upd, Two.set, Two.get]) hd

/-- The half that serves claims what is ORPHAN. -/
theorem State.Inv.claimServes {s : State} {h : Half} (e : s.Inv) : (s.when (s.own.serves h) fun s => s.claimAll h s.own.orphans).Inv := by
  refine e.when_of fun hs => e.claimAll (e.own.server h (by simpa [Own.serves] using hs)) fun k hk => ?_
  unfold Own.orphans at hk
  exact ((mem_objsWhere _ _ _).mp hk).1

theorem State.Inv.backplaneOn {s : State} {t1 t0 : Bool} {n : Nat} (e : s.Inv) : (s.backplaneOn t1 t0 n).Inv := by
  refine ⟨e.ledger, e.fifo, e.stall, ?_, ?_, ?_, ?_⟩
  · intro k _; rfl
  · intro k d g hk; exact absurd (show TokenSt.orphan = .claiming d g from hk) (by simp)
  · intro h hk; exact absurd (show (none : Option Half) = some h from hk) (by simp)
  · intro h k hk
    have : k ∈ ([] : List Nat) := by cases h <;> exact hk
    exact absurd this (by simp)


theorem State.Inv.hold {s : State} {h : Half} {cause : Nat} (e0 : s.Inv) : (State.hold s h cause).Inv := by
  unfold State.hold
  try dsimp only
  repeat' first
    | with_reducible assumption | with_reducible refine State.Inv.onW ?_ | with_reducible refine State.Inv.fall ?_
    | with_reducible refine State.Inv.ite ?_ ?_ | with_reducible refine State.Inv.set_w ?_ _ | dsimp only | split | intro _

theorem State.Inv.resetHalf {s : State} {h : Half} {cause : Nat} (e0 : s.Inv) : (State.resetHalf s h cause).Inv := by
  unfold State.resetHalf
  try dsimp only
  repeat' first
    | with_reducible assumption | with_reducible refine State.Inv.onW ?_ | with_reducible refine State.Inv.when ?_ ?_
    | with_reducible refine State.Inv.hold ?_ | with_reducible refine State.Inv.ite ?_ ?_ | with_reducible refine State.Inv.set_w ?_ _ | dsimp only
    | split | intro _

theorem State.Inv.fence {s : State} {h : Half} (e0 : s.Inv) : (State.fence s h).Inv := by
  unfold State.fence
  try dsimp only
  repeat' first
    | with_reducible assumption | with_reducible refine State.Inv.onW ?_ | with_reducible refine State.Inv.fall ?_
    | with_reducible refine State.Inv.ite ?_ ?_ | with_reducible refine State.Inv.set_w ?_ _ | dsimp only | split | intro _

theorem State.Inv.xngDown {s : State} {h : Half} (e0 : s.Inv) : (State.xngDown s h).Inv :=
  e0.of_side (State.xngDown_side (by decide) (Side.refl _ _))

theorem State.Inv.allLanesDown {s : State}  (e0 : s.Inv) : (State.allLanesDown s ).Inv :=
  e0.of_side (State.allLanesDown_side (by decide) (Side.refl _ _))

theorem State.Inv.upOpen {s : State} {h : Half} {r source len : Nat} {tech : Bool} (e0 : s.Inv) : (State.upOpen s h r source len tech).Inv :=
  e0.of_side (State.upOpen_side (by decide) (Side.refl _ _))

theorem State.Inv.leaveForUpdate {s : State} {h : Half} (e0 : s.Inv) : (State.leaveForUpdate s h).Inv := by
  unfold State.leaveForUpdate
  try dsimp only
  repeat' first
    | with_reducible assumption | with_reducible refine State.Inv.onW ?_ | with_reducible refine State.Inv.forAll ?_ ?_
    | with_reducible refine State.Inv.handoverAllNow ?_ | with_reducible refine State.Inv.orphan ?_ | with_reducible refine State.Inv.ite ?_ ?_
    | with_reducible refine State.Inv.set_w ?_ _ | dsimp only | split | intro _

theorem State.Inv.upBlock {s : State} {h : Half} {r : Nat} {b : List Byte} (e0 : s.Inv) : (State.upBlock s h r b).Inv := by
  unfold State.upBlock
  try dsimp only
  repeat' first
    | with_reducible assumption | with_reducible refine State.Inv.onW ?_ | with_reducible refine State.Inv.when ?_ ?_
    | with_reducible refine State.Inv.leaveForUpdate ?_ | with_reducible refine State.Inv.ite ?_ ?_ | with_reducible refine State.Inv.set_w ?_ _
    | dsimp only | split | intro _

theorem State.Inv.cancelShutdown {s : State} {h : Half} (e0 : s.Inv) : (State.cancelShutdown s h).Inv := by
  unfold State.cancelShutdown
  exact e0.when fun u hu => (State.Inv.onW hu).claimServes

theorem State.Inv.restart {s : State} {h : Half} {cause : Nat} (e0 : s.Inv) : (State.restart s h cause).Inv := by
  unfold State.restart
  try dsimp only
  repeat' first
    | with_reducible assumption | with_reducible refine State.Inv.onW ?_ | with_reducible refine State.Inv.when ?_ ?_
    | with_reducible refine State.Inv.hold ?_ | with_reducible refine State.Inv.letRun ?_ | with_reducible refine State.Inv.ite ?_ ?_
    | with_reducible refine State.Inv.set_w ?_ _ | dsimp only | split | intro _

theorem State.Inv.bloom2 {s : State} {h : Half} (e0 : s.Inv) : (State.bloom2 s h).Inv :=
  e0.of_side (State.bloom2_side (by decide) (Side.refl _ _))

theorem State.Inv.bloom6 {s : State} {h : Half} (e0 : s.Inv) : (State.bloom6 s h).Inv := by
  unfold State.bloom6
  try dsimp only
  repeat' first
    | with_reducible assumption | with_reducible refine State.Inv.onW ?_ | with_reducible refine State.Inv.when ?_ ?_
    | with_reducible refine State.Inv.forAll ?_ ?_ | with_reducible refine State.Inv.setOrphanT ?_ | with_reducible refine State.Inv.ite ?_ ?_
    | with_reducible refine State.Inv.set_w ?_ _ | dsimp only | split | intro _

theorem State.Inv.bloom8 {s : State} {h : Half} (e0 : s.Inv) : (State.bloom8 s h).Inv := by
  unfold State.bloom8
  split
  · exact e0.onW
  · split
    · exact e0
    · split
      · exact e0.when fun u hu => hu.onW
      · exact e0.serverReq.claimServes

theorem State.Inv.bloom9 {s : State} {h : Half} (e0 : s.Inv) : (State.bloom9 s h).Inv :=
  e0.of_side (State.bloom9_side (by decide) (Side.refl _ _))

theorem State.Inv.bloomStep {s : State} {h : Half} {k : Nat} (e0 : s.Inv) : (State.bloomStep s h k).Inv := by
  unfold State.bloomStep
  split
  · exact e0.onW
  · exact e0.bloom2
  · exact e0.onW
  · exact e0.onW
  · exact e0.onW
  · exact e0.bloom6
  · exact e0.onW
  · exact e0.bloom8
  · exact e0.bloom9
  · exact e0

theorem State.Inv.activateAsk {s : State} {h : Half} (e0 : s.Inv) : (State.activateAsk s h).Inv :=
  e0.of_side (State.activateAsk_side (by decide) (Side.refl _ _))

theorem State.Inv.setStep {s : State} {a : Activation} {k : Nat} (e0 : s.Inv) : (State.setStep s a k).Inv :=
  e0.of_side (State.setStep_side (by decide) (Side.refl _ _))

theorem State.Inv.activateTrial {s : State} {n : Half} (e0 : s.Inv) : (State.activateTrial s n).Inv := by
  unfold State.activateTrial
  try dsimp only
  repeat' first
    | with_reducible assumption | with_reducible refine State.Inv.onW ?_ | with_reducible refine State.Inv.restart ?_
    | with_reducible refine State.Inv.ite ?_ ?_ | with_reducible refine State.Inv.set_w ?_ _ | dsimp only | split | intro _

theorem State.Inv.activatePass {s : State} {n : Half} (e0 : s.Inv) : (State.activatePass s n).Inv := by
  unfold State.activatePass
  try dsimp only
  repeat' first
    | with_reducible assumption | with_reducible refine State.Inv.onW ?_ | with_reducible refine State.Inv.when ?_ ?_
    | with_reducible refine State.Inv.handoverAllNow ?_ | with_reducible refine State.Inv.hold ?_ | with_reducible refine State.Inv.serverReq ?_
    | with_reducible refine State.Inv.setOrphanT ?_ | with_reducible refine State.Inv.ite ?_ ?_ | with_reducible refine State.Inv.set_w ?_ _
    | dsimp only | split | intro _

theorem State.Inv.activateAdopt {s : State} {n : Half} (e0 : s.Inv) : (State.activateAdopt s n).Inv := by
  unfold State.activateAdopt
  exact (State.Inv.onW e0).claimServes

theorem State.Inv.activateOld {s : State} {o : Half} (e0 : s.Inv) : (State.activateOld s o).Inv := by
  unfold State.activateOld
  try dsimp only
  repeat' first
    | with_reducible assumption | with_reducible refine State.Inv.onW ?_ | with_reducible refine State.Inv.when ?_ ?_
    | with_reducible refine State.Inv.restart ?_ | with_reducible refine State.Inv.ite ?_ ?_ | with_reducible refine State.Inv.set_w ?_ _ | dsimp only
    | split | intro _

theorem State.Inv.activateEnd {s : State}  (e0 : s.Inv) : (State.activateEnd s ).Inv :=
  e0.of_side (State.activateEnd_side (by decide) (Side.refl _ _))

theorem State.Inv.activateDrop {s : State} {a : Activation} (e0 : s.Inv) : (State.activateDrop s a).Inv := by
  unfold State.activateDrop
  try dsimp only
  repeat' first
    | with_reducible assumption | with_reducible refine State.Inv.onW ?_ | with_reducible refine State.Inv.when ?_ ?_
    | with_reducible refine State.Inv.restart ?_ | with_reducible refine State.Inv.ite ?_ ?_ | with_reducible refine State.Inv.set_w ?_ _ | dsimp only
    | split | intro _

theorem State.Inv.activateKnock {s : State}  (e0 : s.Inv) : (State.activateKnock s ).1.Inv := by
  unfold State.activateKnock
  split
  · exact e0
  · split
    · exact e0
    · exact e0.activateDrop

theorem State.Inv.cupStart {s : State} {h : Half} {c : CupCond} (e0 : s.Inv) : (State.cupStart s h c).Inv := by
  unfold State.cupStart
  try dsimp only
  repeat' first
    | with_reducible assumption | with_reducible refine State.Inv.onW ?_ | with_reducible refine State.Inv.hold ?_
    | with_reducible refine State.Inv.ite ?_ ?_ | with_reducible refine State.Inv.set_w ?_ _ | dsimp only | split | intro _

theorem State.Inv.shutStep2 {s : State} {h : Half} (e0 : s.Inv) : (State.shutStep2 s h).Inv := by
  unfold State.shutStep2
  try dsimp only
  repeat' first
    | with_reducible assumption | with_reducible refine State.Inv.onW ?_ | with_reducible refine State.Inv.when ?_ ?_
    | with_reducible refine State.Inv.replayJournal ?_ | with_reducible refine State.Inv.ite ?_ ?_ | with_reducible refine State.Inv.set_w ?_ _
    | dsimp only | split | intro _

theorem State.Inv.shutBegin {s : State} {h : Half} (e0 : s.Inv) : (State.shutBegin s h).Inv := by
  unfold State.shutBegin
  try dsimp only
  repeat' first
    | with_reducible assumption | with_reducible refine State.Inv.onW ?_ | with_reducible refine State.Inv.forAll ?_ ?_
    | with_reducible refine State.Inv.shutStep2 ?_ | with_reducible refine State.Inv.ite ?_ ?_ | with_reducible refine State.Inv.set_w ?_ _
    | dsimp only | split | intro _

theorem State.Inv.shutRelease {s : State} {h : Half} (e0 : s.Inv) : (State.shutRelease s h).Inv := by
  unfold State.shutRelease
  try dsimp only
  repeat' first
    | with_reducible assumption | with_reducible refine State.Inv.onW ?_ | with_reducible refine State.Inv.when ?_ ?_
    | with_reducible refine State.Inv.forAll ?_ ?_ | with_reducible refine State.Inv.orphan ?_ | with_reducible refine State.Inv.ite ?_ ?_
    | with_reducible refine State.Inv.set_w ?_ _ | dsimp only | split | intro _

theorem State.Inv.failHalf {s : State} {h : Half} {wrote : Bool} {ms_ : List CupMeas} (e0 : s.Inv) : (State.failHalf s h wrote ms_).Inv := by
  unfold State.failHalf
  try dsimp only
  repeat' first
    | with_reducible assumption | with_reducible refine State.Inv.onW ?_ | with_reducible refine State.Inv.when ?_ ?_
    | with_reducible refine State.Inv.hold ?_ | with_reducible refine State.Inv.shutStep2 ?_ | with_reducible refine State.Inv.ite ?_ ?_
    | with_reducible refine State.Inv.set_w ?_ _ | dsimp only | split | intro _

theorem State.Inv.startAgain {s : State} {h : Half} {cause : Nat} (e0 : s.Inv) : (State.startAgain s h cause).Inv := by
  unfold State.startAgain
  try dsimp only
  repeat' first
    | with_reducible assumption | with_reducible refine State.Inv.onW ?_ | with_reducible refine State.Inv.when ?_ ?_
    | with_reducible refine State.Inv.letRun ?_ | with_reducible refine State.Inv.ite ?_ ?_ | with_reducible refine State.Inv.set_w ?_ _ | dsimp only
    | split | intro _

theorem State.Inv.moveGroup {s : State} {giver : Half} {g : List Nat} (e0 : s.Inv) : (State.moveGroup s giver g).Inv := by
  unfold State.moveGroup
  try dsimp only
  repeat' first
    | with_reducible assumption | with_reducible refine State.Inv.onW ?_ | with_reducible refine State.Inv.when ?_ ?_
    | with_reducible refine State.Inv.forAll ?_ ?_ | with_reducible refine State.Inv.handover ?_ | with_reducible refine State.Inv.handoverDone ?_
    | with_reducible refine State.Inv.ite ?_ ?_ | with_reducible refine State.Inv.set_w ?_ _ | dsimp only | split | intro _

theorem State.Inv.prepareHalf {s : State} {x : Half} (e0 : s.Inv) : (State.prepareHalf s x).Inv := by
  unfold State.prepareHalf
  try dsimp only
  repeat' first
    | with_reducible assumption | with_reducible refine State.Inv.onW ?_ | with_reducible refine State.Inv.when ?_ ?_
    | with_reducible refine State.Inv.forAll ?_ ?_ | with_reducible refine State.Inv.fence ?_ | with_reducible refine State.Inv.handoverAllNow ?_
    | with_reducible refine State.Inv.moveGroup ?_ | with_reducible refine State.Inv.replayJournal ?_ | with_reducible refine State.Inv.serverReq ?_
    | with_reducible refine State.Inv.ite ?_ ?_ | with_reducible refine State.Inv.set_w ?_ _ | dsimp only | split | intro _

theorem State.Inv.svcEnd {s : State}  (e0 : s.Inv) : (State.svcEnd s ).Inv := by
  unfold State.svcEnd
  extract_lets x u
  have hu : u.Inv := e0.onW
  clear_value x u
  split
  · exact hu.restart
  · exact hu

theorem State.Inv.watchdogExpire {s : State} {h : Half} (e0 : s.Inv) : (State.watchdogExpire s h).Inv := by
  unfold State.watchdogExpire
  try dsimp only
  repeat' first
    | with_reducible assumption | with_reducible refine State.Inv.onW ?_ | with_reducible refine State.Inv.fall ?_
    | with_reducible refine State.Inv.hold ?_ | with_reducible refine State.Inv.ite ?_ ?_ | with_reducible refine State.Inv.set_w ?_ _ | dsimp only
    | split | intro _

theorem State.Inv.deliver {s : State} {h : Half} {r : EvRec} {rest : List EvRec} (e0 : s.Inv) : (State.deliver s h r rest).Inv :=
  e0.of_side (State.deliver_side (by decide) (Side.refl _ _))

theorem State.Inv.knockClass0 {s : State} {h : Half} {init idx : Nat} {again : Bool} (e0 : s.Inv) : (State.knockClass0 s h init idx again).1.Inv :=
  e0.of_side (State.knockClass0_side (by decide) (Side.refl _ _))

theorem State.Inv.knockClass2 {s : State} {h : Half} {idx : Nat} (e0 : s.Inv) : (State.knockClass2 s h idx).1.Inv :=
  e0.of_side (State.knockClass2_side (by decide) (Side.refl _ _))

theorem State.Inv.knockClass5 {s : State} {h : Half} {idx : Nat} (e0 : s.Inv) : (State.knockClass5 s h idx).Inv := by
  unfold State.knockClass5
  try dsimp only
  repeat' first
    | with_reducible assumption | with_reducible refine State.Inv.onW ?_ | with_reducible refine State.Inv.when ?_ ?_
    | with_reducible refine State.Inv.activateKnock ?_ | with_reducible refine State.Inv.ite ?_ ?_ | with_reducible refine State.Inv.set_w ?_ _
    | dsimp only | split | intro _

theorem State.Inv.knock {s : State} {h : Half} {init cls idx tc : Nat} {jobs : List Nat} {again : Bool} (e0 : s.Inv) : (State.knock s h init cls idx tc jobs again).1.Inv := by
  unfold State.knock
  split
  · exact e0.knockClass0
  · split
    · exact e0
    · exact e0.when fun u hu => hu.onW
  · split
    · exact e0
    · split
      · exact e0
      · exact e0.knockClass2
  · split
    · exact e0
    · exact e0.when fun u hu => hu.onW
  · split
    · exact e0
    · split
      · exact e0
      · exact e0
  · split
    · exact e0.when fun u hu => hu.knockClass5
    · exact e0
  · exact e0

theorem State.Inv.knockIn {s : State} {h : Half} {init cls idx tc : Nat} {jobs : List Nat} {k : Nat} (e0 : s.Inv) : (State.knockIn s h init cls idx tc jobs k).Inv := by
  unfold State.knockIn
  try dsimp only
  repeat' first
    | with_reducible assumption | with_reducible refine State.Inv.onW ?_ | with_reducible refine State.Inv.knock ?_
    | with_reducible refine State.Inv.ite ?_ ?_ | with_reducible refine State.Inv.set_w ?_ _ | dsimp only | split | intro _

theorem State.Inv.busWrite {s : State} {h : Half} {init : Nat} {p : PWrite} (e0 : s.Inv) : (State.busWrite s h init p).Inv :=
  e0.of_side (State.busWrite_side (by decide) (Side.refl _ _))

end Sys2Proof.Machine
end

