-- ==== Sys2Proof/WellFormed.lean ====
section
/-!
DEFINITION. Which commands are well-formed: every operand names a unit, an initiator or a register value that the module has.
-/
namespace Sys2Proof

/-- An initiator (OWN_VIOL.INIT). -/
def okInit (n : Nat) : Bool := n < 12

/-- A register value (R579). -/
def okWord (n : Nat) : Bool := n < 2 ^ 32

/-- A backplane object (R23). -/
def okObj (n : Nat) : Bool := n < 362

/-- A valve channel (R182). -/
def okValve (n : Nat) : Bool := n < 96

/-- A valve tile (R182). -/
def okTile (n : Nat) : Bool := n < 6

/-- A bank of four valve channels (R182). -/
def okValveBank (n : Nat) : Bool := n < 24

/-- A load switch (R222). -/
def okSwitch (n : Nat) : Bool := n < 48

/-- A bank of load switches (R222). -/
def okSwBank (n : Nat) : Bool := n < 3

/-- A feed with a budget (R230). -/
def okBudget (n : Nat) : Bool := n < 2

/-- A feed (R525). -/
def okFeed (n : Nat) : Bool := n < 4

/-- A nested arbiter (R46). -/
def okArb (n : Nat) : Bool := n < 8

/-- A universal input (R245). -/
def okInput (n : Nat) : Bool := n < 128

/-- A sensor supply (R250). -/
def okSupply (n : Nat) : Bool := n < 16

/-- A binding (R266). -/
def okBind (n : Nat) : Bool := n < 512

/-- A loss element (R261). -/
def okElem (n : Nat) : Bool := n < 64

/-- A sensor port (R297). -/
def okPort (n : Nat) : Bool := n < 8

/-- An antenna (R353). -/
def okAnt (n : Nat) : Bool := n < 2

/-- A front-end chain (R352). -/
def okChain (n : Nat) : Bool := n < 6

/-- An acquisition engine (R357). -/
def okEngine (n : Nat) : Bool := n < 16

/-- A tracking channel (R362). -/
def okChan (n : Nat) : Bool := n < 192

/-- A CAN channel (R406). -/
def okCan (n : Nat) : Bool := n < 16

/-- A fan or pump channel (R538). -/
def okFan (n : Nat) : Bool := n < 4

/-- A lane or its direction (R34). -/
def okLane (n : Nat) : Bool := n < 2

/-- A real-time pair (R94). -/
def okPair (n : Nat) : Bool := n < 2

/-- A mirror class (R45). -/
def okClass (n : Nat) : Bool := n < 4

/-- A region (R494). -/
def okRegion (n : Nat) : Bool := 1 ≤ n && n ≤ 7

/-- A session slot (R437). -/
def okSess (n : Nat) : Bool := n < 16

/-- An Ethernet port (R431). -/
def okLink (n : Nat) : Bool := n < 11

/-- A machine function (R123). -/
def okFn (n : Nat) : Bool := n < 30

/-- A line slot (R148). -/
def okLine (n : Nat) : Bool := n < 8

/-- A rate class (R124). -/
def okRate (n : Nat) : Bool := n < 4

/-- An operator target or PREF (R166). -/
def okTarget (n : Nat) : Bool := n < 5

/-- A step of Bloom (R97). -/
def okStep (n : Nat) : Bool := 1 ≤ n && n ≤ 9

/-- An island (R108). -/
def okIsland (n : Nat) : Bool := n < 40

/-- A Knock slot (R491). -/
def okSlot (n : Nat) : Bool := n < 8

/-- An event source (R479). -/
def okEvent (n : Nat) : Bool := n < 256

/-- A block with a select (R579). -/
def okSelBlock (n : Nat) : Bool := [5, 6, 7, 8, 9, 11, 14, 16].contains n

/-- An aligned address of a mapped block (R584). -/
def okAddr (n : Nat) : Bool := 0x40000000 ≤ n && n < 0x41500000 && n % 4 == 0

/-- A task class of the Steward (R475). -/
def okSteward (n : Nat) : Bool := n < 4

/-- An index of an interlock, transition or model table. -/
def okJob (n : Nat) : Bool := n < 64

/-- An address of the peripheral window (R584). -/
def okBusAddr (n : Nat) : Bool := 0x40000000 ≤ n && n < 0x50000000

/-- A well-formed command. -/
def Instr.wf : Instr → Bool
  | .registerWrite _ init addr v => okInit init && okAddr addr && okWord v
  | .writeTakesEffect _ init => okInit init
  | .readTimeout _ init addr => okInit init && okAddr addr
  | .busErrorAccess _ init addr _ => okInit init && okBusAddr addr
  | .selectWrite _ init blk v => okInit init && okSelBlock blk && okWord v
  | .claim _ k => okObj k
  | .claimComplete k => okObj k
  | .release _ k => okObj k
  | .handover _ k => okObj k
  | .handoverComplete k => okObj k
  | .claimAll _ => true
  | .handoverAll _ => true
  | .serverRequest _ => true
  | .orphanTWrite _ init v => okInit init && okWord v
  | .orphanTimerExpiry k => okObj k
  | .ownerAliveLowTimeout _ => true
  | .aliveLineFall _ _ => true
  | .aliveLineRise _ _ => true
  | .hardwareClaimAll _ => true
  | .takeoverComplete _ => true
  | .heartbeatPermitLapse _ => true
  | .stewardPermitContribution _ => true
  | .permitJoinTimeout _ => true
  | .selfFence _ => true
  | .arbiterRoundStart a => okArb a
  | .crossingLaneChange _ lane dir _ => okLane lane && okLane dir
  | .crossingFrameReceived _ _ _ _ _ => true
  | .retransmissionRequest _ _ _ => true
  | .hbFrameSend _ => true
  | .hbFrameReceived _ => true
  | .hbWindowExpiry _ => true
  | .heartbeatLossSample _ => true
  | .crossingUp _ => true
  | .xngEnable _ init v => okInit init && okWord v
  | .xngLoopback _ init v => okInit init && okWord v
  | .xngClrCnt _ init => okInit init
  | .tsyExchange _ _ _ _ _ => true
  | .tsyncTimeout _ => true
  | .mirrorRecordReceived _ k _ _ => okClass k
  | .mirrorLagExceeded _ k => okClass k
  | .backplanePowerOn _ _ _ => true
  | .logicInValid _ => true
  | .halfResetRelease _ => true
  | .bloom _ k => okStep k
  | .roastSiblingFetch _ _ => true
  | .roastActivateRequest _ _ => true
  | .pourEntry _ => true
  | .pourExit _ => true
  | .keyInOn => true
  | .keyInOff => true
  | .shutdown _ _ _ => true
  | .pwrHoldStartupExpiry => true
  | .pwrHoldForcedRelease => true
  | .secretClearDone _ => true
  | .secretClearTimeout _ => true
  | .islandTestEnd _ n _ => okIsland n
  | .islandConditionFail _ n _ _ => okIsland n
  | .cuppingBudgetExpiry _ _ => true
  | .cuppingRecordsWritten _ _ => true
  | .wakeRequest _ _ _ => true
  | .cupAck _ init => okInit init
  | .setStateRequest _ init _ => okInit init
  | .autoTransition _ x => okJob x
  | .executorCycle _ rate _ _ => okRate rate
  | .cycleOverrun _ n => okFn n
  | .interlockRelease _ n x => okFn n && okJob x
  | .conflictHoldExpiry _ n => okFn n
  | .seqStepTimeout _ n => okFn n
  | .pairReleaseTimeout _ n => okFn n
  | .mfManual _ init n _ => okInit init && okFn n
  | .mfSeqStart _ init n => okInit init && okFn n
  | .mfSeqStep _ init n => okInit init && okFn n
  | .mfSeqAbort _ init n => okInit init && okFn n
  | .setClrCnt _ init => okInit init
  | .steerEngage _ init => okInit init
  | .steerDisengage _ init => okInit init
  | .steerReleaseTimeout _ => true
  | .steerAck _ init => okInit init
  | .steerPassSelect _ init v => okInit init && okWord v
  | .alertMinExpiry _ => true
  | .lineLoad _ init k => okInit init && okLine k
  | .lineLoadComplete _ => true
  | .lineClear _ init k => okInit init && okLine k
  | .optSolve _ _ => true
  | .ditherStep _ _ => true
  | .lookaheadUpdate _ => true
  | .optModeWrite _ init v => okInit init && okWord v
  | .optProfileWrite _ init v => okInit init && okWord v
  | .optResetModel _ init => okInit init
  | .optTargetWrite _ init which v => okInit init && okTarget which && okWord v
  | .vlvCommand _ init _ => okInit init
  | .vlvSetpointWrite _ init v => okInit init && okWord v
  | .vlvClrFault _ init => okInit init
  | .vlvKnock _ init => okInit init
  | .vlvClrCnt _ init => okInit init
  | .engineStart ch => okValve ch
  | .halt ch => okValve ch
  | .phase ch => okValve ch
  | .src ch => okValve ch
  | .seti ch => okValve ch
  | .ramp ch => okValve ch
  | .wait ch => okValve ch
  | .waitEnd ch => okValve ch
  | .waiti ch => okValve ch
  | .waitiEnd ch _ => okValve ch
  | .waitk ch => okValve ch
  | .pullKinkConfirm ch _ => okValve ch
  | .closeKinkDetect ch _ => okValve ch
  | .kinkWindowClose ch => okValve ch
  | .dith ch => okValve ch
  | .pwmv ch => okValve ch
  | .jmp ch => okValve ch
  | .jc ch => okValve ch
  | .loop ch => okValve ch
  | .evt ch => okValve ch
  | .off ch => okValve ch
  | .ldp ch _ _ => okValve ch
  | .meas ch _ _ => okValve ch
  | .recipeIllegal ch _ => okValve ch
  | .recipeLockRelease t => okTile t
  | .recipeBankActivate t => okTile t
  | .coilEstimate ch _ _ => okValve ch
  | .dutyEvaluation ch _ => okValve ch
  | .boostRailLow t _ => okTile t
  | .boostRailRecover t _ => okTile t
  | .bankAdmission bank => okValveBank bank
  | .bankWaitTimeout ch => okValve ch
  | .twinPartnerLoss ch => okValve ch
  | .twinPartnerReturn ch => okValve ch
  | .vlvShort ch _ => okValve ch
  | .vlvOpenLoad ch _ => okValve ch
  | .vlvOvertemp t _ => okTile t
  | .vlvHsShort bank _ => okValveBank bank
  | .tileAbsent t => okTile t
  | .tileInsert t => okTile t
  | .tileReady t _ _ _ => okTile t
  | .vlvProbe ch _ => okValve ch
  | .lswCommand _ init _ => okInit init
  | .lswProfile _ init v => okInit init && okWord v
  | .lswClrFault _ init => okInit init
  | .lswKnock _ init => okInit init
  | .lswClrCnt _ init => okInit init
  | .inrushEnd n => okSwitch n
  | .lswShortTrip n _ => okSwitch n
  | .lswOverloadTrip n _ => okSwitch n
  | .lswThermalTrip n _ => okSwitch n
  | .thermalLatchClear n _ => okSwitch n
  | .retryWaitExpiry n _ => okSwitch n
  | .retryCounterReload n => okSwitch n
  | .feedBudgetGrant f => okBudget f
  | .budgetWaitLong n => okSwitch n
  | .feedOverload f _ => okBudget f
  | .shedStep f _ => okBudget f
  | .feedLost f _ => okBudget f
  | .feedReturn f _ => okBudget f
  | .openOnDetect n _ => okSwitch n
  | .lswProbe n _ _ => okSwitch n
  | .lswBankPresence b _ => okSwBank b
  | .inputSample _ _ => true
  | .inputEdge n _ _ => okInput n
  | .qualityConditionTimer _ b _ _ _ => okBind b
  | .stuckTimeout _ b => okBind b
  | .twinDivergenceTimeout _ _ => true
  | .twinAgreementTimeout _ _ => true
  | .uinKnock _ init => okInit init
  | .uinPreset _ init => okInit init
  | .uinClrCnt _ init => okInit init
  | .supplyLimitTrip n _ => okSupply n
  | .supplyRetry n _ => okSupply n
  | .supplyEnable _ init _ => okInit init
  | .externalBindingWrite _ b _ => okBind b
  | .lossHit k _ _ _ _ => okElem k
  | .lossWindow => true
  | .lossBiasCheck k _ => okElem k
  | .lossSilentTimeout k => okElem k
  | .losClsWrite _ init v => okInit init && okWord v
  | .losClrCnt _ init => okInit init
  | .yieldCycle _ => true
  | .yieldCropChange _ _ => true
  | .tankZero _ => true
  | .totClr _ => true
  | .yldCalStart _ => true
  | .yldCalStop _ => true
  | .yldCalFlushComplete _ => true
  | .yldCalWeight _ _ => true
  | .yldCalAbort _ => true
  | .yldCalCommit _ init => okInit init
  | .yldCalClear _ => true
  | .sensorSegment _ p _ _ _ _ => okPort p
  | .sampleReassemblyTimeout _ p _ => okPort p
  | .sensorSample _ p _ => okPort p
  | .portStateTimer _ p _ => okPort p
  | .grindInstant _ => true
  | .gatherClose _ _ _ _ _ _ => true
  | .featureChunkReceived _ _ => true
  | .grindPublish _ _ _ _ => true
  | .grindDeadline _ => true
  | .gradeRise _ => true
  | .grindRateChange _ => true
  | .productStale _ => true
  | .modelLoad _ m => okJob m
  | .modelLoadComplete _ m _ => okJob m
  | .grainAnalysis _ p _ _ => okPort p
  | .prjKnock _ init _ => okInit init
  | .feaKnock _ init _ _ => okInit init
  | .prjClrCnt _ init => okInit init
  | .feaClrCnt _ init => okInit init
  | .grdClrCnt _ init => okInit init
  | .trackCycle _ _ _ => true
  | .lateDetection _ _ _ => true
  | .stopLevelFall _ _ => true
  | .stopHoldExpiry _ => true
  | .trackIgnore _ init v => okInit init && okWord v
  | .trkClrCnt _ init => okInit init
  | .antennaState a _ _ => okAnt a
  | .antennaBiasRetry a => okAnt a
  | .notchDetect _ k _ _ => okChain k
  | .notchRelease _ k _ => okChain k
  | .jamLevel _ k _ _ => okChain k
  | .acqGo _ init v => okInit init && okWord v
  | .acqEntryComplete _ e _ _ _ _ _ => okEngine e
  | .acqKnock _ init => okInit init
  | .chStart _ init => okInit init
  | .chStop _ init => okInit init
  | .chKnock _ init => okInit init
  | .chCommit _ init v => okInit init && okWord v
  | .chIntegrationDump _ c _ _ => okChan c
  | .measurementLatch _ => true
  | .measRateWrite _ init v => okInit init && okWord v
  | .measRateApply => true
  | .measurementRecord _ _ _ _ _ => true
  | .siblingRecordReceived _ _ _ => true
  | .positionSolution _ _ => true
  | .headingSolution _ _ _ _ _ _ => true
  | .posePublish _ _ _ => true
  | .exclusionReadmit _ _ _ => true
  | .bbSuspectClear _ => true
  | .imuFault _ _ => true
  | .correctionFrame _ init v => okInit init && okWord v
  | .correctionSourceTimeout _ => true
  | .timeAid _ init v => okInit init && okWord v
  | .gnssCold _ init => okInit init
  | .gnsClrCnt _ init => okInit init
  | .referenceValid _ _ _ _ => true
  | .referenceLost _ _ => true
  | .timeStep => true
  | .slewEnd _ => true
  | .timeSet _ init => okInit init
  | .timeRefSelect _ init v => okInit init && okWord v
  | .timeInEdge _ => true
  | .timeInLost _ => true
  | .timePulse => true
  | .timeQualityMessage _ => true
  | .canModeWrite _ init v => okInit init && okWord v
  | .canKnock _ init => okInit init
  | .canClrLockout _ init => okInit init
  | .canClrCnt _ init => okInit init
  | .canTxRequest _ init _ => okInit init
  | .canTxAbort _ init _ => okInit init
  | .canArbitration n => okCan n
  | .canTxComplete n _ _ _ _ _ => okCan n
  | .canTxError n _ _ _ => okCan n
  | .canFrameReceived n _ _ _ => okCan n
  | .canRxAck _ init v => okInit init && okWord v
  | .canScheduleDue n _ => okCan n
  | .canBusOff n => okCan n
  | .canBusOffRecovery n => okCan n
  | .canTrxFault n _ _ => okCan n
  | .canWake n => okCan n
  | .j1939AddressClaim n _ _ => okCan n
  | .ethLink k _ _ => okLink k
  | .gmForeignAnnounce _ k => okLink k
  | .ethClrCnt _ init => okInit init
  | .flxOpen _ k _ => okSess k
  | .flxClose _ k => okSess k
  | .flxAccept _ _ _ => true
  | .flxHandshakeComplete _ _ _ _ _ _ => true
  | .flxMessageReceived _ k _ _ _ _ => okSess k
  | .hello _ _ _ _ _ _ => true
  | .rtcm _ _ _ _ => true
  | .cartState _ k _ _ _ => okSess k
  | .flxHeartbeatSend _ k => okSess k
  | .flxSessionTimeout _ k => okSess k
  | .flxKeyUpdate _ k => okSess k
  | .status _ => true
  | .cartSync _ => true
  | .cartStale _ => true
  | .cartSelect _ init _ => okInit init
  | .cartRelease _ init => okInit init
  | .prepareHalf _ init _ => okInit init
  | .prepareTile _ init t => okInit init && okTile t
  | .svcCancel _ init => okInit init
  | .fanReset _ init => okInit init
  | .holdupReset _ init => okInit init
  | .prepareTimeout => true
  | .cartridgePresenceOpen _ => true
  | .cartridgeInsert _ _ => true
  | .plannedMove _ _ => true
  | .handbackMove => true
  | .stewardFrame _ _ _ _ => true
  | .c3Shed _ => true
  | .c2Pause _ => true
  | .stwLoadClear _ init => okInit init
  | .watchdogService _ init v => okInit init && okWord v
  | .watchdogExpiry _ => true
  | .eventRaise _ num arg => okEvent num && okWord arg
  | .eventRecordDelivery _ => true
  | .evtClrCnt _ init => okInit init
  | .knockCmd _ init cls _ tc _ => okInit init && okSlot cls && okSteward tc
  | .knockComplete _ k => okSlot k
  | .knockEscalation _ k => okSlot k
  | .updOpen _ r _ => okRegion r
  | .updBlock _ r _ => okRegion r
  | .updClose _ r _ => okRegion r
  | .updCheckComplete _ r => okRegion r
  | .updRestart _ => true
  | .updAbort _ r _ => okRegion r
  | .updSessionTimeout _ r => okRegion r
  | .updClrCnt _ init => okInit init
  | .siblingRestore _ r => okRegion r
  | .debugUnlock _ => true
  | .debugExpiry _ => true
  | .calTokenRequest _ init _ => okInit init
  | .calKeyOffer _ init _ => okInit init
  | .calLockClose _ init => okInit init
  | .calLockTimeout => true
  | .ledgerWrite _ init _ _ _ => okInit init
  | .ledgerRestore _ init _ _ => okInit init
  | .logicInStateChange _ _ _ => true
  | .powerFail _ _ _ => true
  | .powerFailRecovery _ => true
  | .holdupReady _ => true
  | .feedMeasurement f _ _ => okFeed f
  | .fuseOpen f _ _ => okFeed f
  | .feedConnect _ init f _ => okInit init && okFeed f
  | .pwrClrCnt _ init => okInit init
  | .derateChange _ => true
  | .coolingOverride _ => true
  | .sysShdnAssert _ => true
  | .sysShdnHalfReset => true
  | .sysShdnRelease _ => true
  | .sysShdnExternal _ => true
  | .coolantTemperatureWarning _ _ _ => true
  | .fanFrame c => okFan c
  | .fanSpeedMeasure c _ _ => okFan c
  | .fanSuspect c _ => okFan c
  | .fanKickEnd c _ => okFan c
  | .fanRekick c => okFan c
  | .fanCommand _ init v => okInit init && okWord v
  | .segmentFrame _ _ _ => true
  | .segmentLatch _ init => okInit init
  | .symbolEvaluation _ => true
  | .panelLoad _ init => okInit init
  | .panelCopyComplete => true
  | .panelEnable _ init _ => okInit init
  | .panelSequenceStep => true
  | .safeOffAssert _ => true
  | .safeOffRelease _ => true
  | .safeOffDiscrepancy => true
  | .realtimePermitRefresh _ pair => okPair pair
  | .canRxError n _ _ => okCan n
  | .dm1Broadcast n _ _ => okCan n
  | .mirrorRefresh _ k => okClass k
  | .twinScaleMergeEnd ch => okValve ch
  | .greenRampEnd k => okObj k
  | .supplyClassSelect _ => true
  | .fanKickPauseEnd c => okFan c

end Sys2Proof
end

