-- ==== Sys2Proof/Tests/Slice0.lean ====
section
/-!
SUPPORT. Tests of the definitions, and for each statement a concrete state and operands that meet its hypotheses.
-/

namespace Sys2Proof.Tests
open Sys2Proof Sys2Proof.Machine

set_option Elab.async false
set_option linter.unusedVariables false

/-! States built for the tests. -/

/-- Both alive lines high, half A serving. -/
def live : Own := { Own.init with low := Two.both { heldReset := false }, server := some .A }
/-- Both halves running. -/
def st (f : World → World) : State :=
  { State.reset with own := live, w := f { World.init with run := Two.both { Run.init with running := true } } }
/-- Half A owns the objects of a list. -/
def stO (ks : List Nat) (f : World → World) : State :=
  { st f with own := ks.foldl (fun o k => o.setToken k { st := .owned .A }) live }
/-- The recipe engine of channel 0 running at a word. -/
def rcp (v : Nat) (f : World → World) : State :=
  stO [0] fun w => f ((w.updTile 0 fun t => { t with ready := true, bank0 := { recs := [{ code := [v], iMax := 9000, iCont := 3000, dutyWin := 2, dutyMax := 800, coilR := 10, holdEntry := 5, par := List.replicate 64 7 }], chans := [(0, { ref := 3 })] } }).wr
    .A F.VLV_STATUS.RUN 0 1)
/-- A Ledger that holds one entry. -/
def led (ty k : Nat) (pl : List Byte) : Memory := Memory.writeN [] (slotAddr ty k) (slotImage ty k 0 0 pl)
/-- A sensor sample: its header (R300) and `n` payload bytes of 0. -/
def mkSample (kind flags seq stamp unc aux n : Nat) : List Byte :=
  let b := leBytes 0x5853 2 ++ leBytes kind 1 ++ leBytes flags 1 ++ leBytes seq 4 ++ leBytes stamp 8 ++ leBytes 0 4 ++ leBytes unc 2 ++
    leBytes aux 2 ++ leBytes n 4
  b ++ leBytes (crc32c b) 4 ++ List.replicate n 0
/-- Function 0 drives object 0, which half A owns; half B accepts. -/
def mover : State := stO [0] fun w =>
  (w.updSet .A fun e => { e with sec := { recs := [{ used := true, outKind := 1, objA := 0 }] } }).wr .B F.OWN_CTRL.ACCEPT 0 1
/-- Half B serves and owns object 0 of function 0, whose home is half A; half A qualifies for the return of the group. -/
def away : State :=
  let f (w : World) (h : Half) : World :=
    (((w.updSet h fun e => { e with sec := { recs := [{ used := true, outKind := 1, objA := 0 }] } }).wr h F.OWN_CTRL.ACCEPT 0 1).wr
      h F.STW_STAGE.BLOOM_DONE 0 1).wr h F.XNG_STATUS.UP 0 1
  let w := f (f (st id).w .A) .B
  { st id with
    own := { (live.setToken 0 { st := .owned .B }) with server := some .B }
    w := { w with now := 20000000000, xng := w.xng.upd .A fun x => { x with upAt := 0, fullRx := [0, 1, 2, 3] } } }
/-- Both halves running, the Crossing trained and UP. -/
def cross (f : World → World) : State := st fun w => f ([Half.A, Half.B].foldl (fun w h =>
  (((w.wr h F.XNG_STATUS.LANE_TX 0 3).wr h F.XNG_STATUS.LANE_RX 0 3).wr h F.XNG_CTRL.EN 0 1).wr h F.XNG_STATUS.UP 0 1) w)
/-- The next state of an outcome. -/
def after (o : Out) : State := match o with | .next t => t | _ => State.reset

/-! Ill-formed commands: one for each check. -/

theorem test_wf_okInit : Instr.wf (.writeTakesEffect .A 12) = false := by decide
theorem test_wf_okAddr : Instr.wf (.readTimeout .A 0 0x40000002) = false := by decide
theorem test_wf_okWord : Instr.wf (.orphanTWrite .A 0 0x100000000) = false := by decide
theorem test_wf_okBusAddr : Instr.wf (.busErrorAccess .A 0 0x50000000 4) = false := by decide
theorem test_wf_okSelBlock : Instr.wf (.selectWrite .A 0 4 0) = false := by decide
theorem test_wf_okObj : Instr.wf (.claim .A 362) = false := by decide
theorem test_wf_okArb : Instr.wf (.arbiterRoundStart 8) = false := by decide
theorem test_wf_okLane : Instr.wf (.crossingLaneChange .A 2 0 true) = false := by decide
theorem test_wf_okClass : Instr.wf (.mirrorRecordReceived .A 4 0 true) = false := by decide
theorem test_wf_okStep : Instr.wf (.bloom .A 0) = false := by decide
theorem test_wf_okIsland : Instr.wf (.islandTestEnd .A 40 {}) = false := by decide
theorem test_wf_okJob : Instr.wf (.autoTransition .A 64) = false := by decide
theorem test_wf_okRate : Instr.wf (.executorCycle .A 4 0 []) = false := by decide
theorem test_wf_okFn : Instr.wf (.cycleOverrun .A 30) = false := by decide
theorem test_wf_okLine : Instr.wf (.lineLoad .A 0 8) = false := by decide
theorem test_wf_okTarget : Instr.wf (.optTargetWrite .A 0 5 0) = false := by decide
theorem test_wf_okValve : Instr.wf (.engineStart 96) = false := by decide
theorem test_wf_okTile : Instr.wf (.recipeLockRelease 6) = false := by decide
theorem test_wf_okValveBank : Instr.wf (.bankAdmission 24) = false := by decide
theorem test_wf_okSwitch : Instr.wf (.inrushEnd 48) = false := by decide
theorem test_wf_okBudget : Instr.wf (.feedBudgetGrant 2) = false := by decide
theorem test_wf_okSwBank : Instr.wf (.lswBankPresence 3 true) = false := by decide
theorem test_wf_okInput : Instr.wf (.inputEdge 128 true false) = false := by decide
theorem test_wf_okBind : Instr.wf (.qualityConditionTimer .A 512 0 0 true) = false := by decide
theorem test_wf_okSupply : Instr.wf (.supplyLimitTrip 16 0) = false := by decide
theorem test_wf_okElem : Instr.wf (.lossHit 64 0 0 0 0) = false := by decide
theorem test_wf_okPort : Instr.wf (.sensorSegment .A 8 0 0 0 []) = false := by decide
theorem test_wf_okAnt : Instr.wf (.antennaState 2 0 0) = false := by decide
theorem test_wf_okChain : Instr.wf (.notchDetect .A 6 0 0) = false := by decide
theorem test_wf_okEngine : Instr.wf (.acqEntryComplete .A 16 0 0 0 0 0) = false := by decide
theorem test_wf_okChan : Instr.wf (.chIntegrationDump .A 192 [] 0) = false := by decide
theorem test_wf_okCan : Instr.wf (.canArbitration 16) = false := by decide
theorem test_wf_okLink : Instr.wf (.ethLink 11 0 true) = false := by decide
theorem test_wf_okSess : Instr.wf (.flxOpen .A 16 0) = false := by decide
theorem test_wf_okEvent : Instr.wf (.eventRaise .A 256 0) = false := by decide
theorem test_wf_okSlot : Instr.wf (.knockComplete .A 8) = false := by decide
theorem test_wf_okSteward : Instr.wf (.knockCmd .A 0 0 0 4 []) = false := by decide
theorem test_wf_okRegion : Instr.wf (.updOpen .A 8 none) = false := by decide
theorem test_wf_okFeed : Instr.wf (.feedMeasurement 4 0 0) = false := by decide
theorem test_wf_okFan : Instr.wf (.fanFrame 4) = false := by decide
theorem test_wf_okPair : Instr.wf (.realtimePermitRefresh .A 2) = false := by decide

/-! Values that the spec or a standard it names gives. -/

/-- CRC-32C of the nine digits 123456789: the check value of the standard that R50 names. -/
theorem test_crc32c : crc32c (bytesOf [0x31, 0x32, 0x33, 0x34, 0x35, 0x36, 0x37, 0x38, 0x39]) = 0xE3069283 := by decide +kernel
/-- CRC-24Q of an empty list is its initial value 0. -/
theorem test_crc24q : crc24q [] = 0 := by decide
/-- Binary32 patterns of 1, 0.5 and -2. -/
theorem test_f32_value : f32Val 0x3F800000 = 1 ∧ f32Val 0x3F000000 = 1 / 2 ∧ f32Val 0xC0000000 = -2 := by decide +kernel
theorem test_f32_pattern : f32Of 1 = 0x3F800000 ∧ f32Of (1 / 2) = 0x3F000000 ∧ f32Of (-2) = 0xC0000000 := by decide +kernel
/-- The object table of R23. -/
theorem test_object_numbers : objL 0 = 96 ∧ objU 0 = 144 ∧ objLos 0 = 272 ∧ objC 0 = 336 ∧ objSeg = 352 ∧ objFan 0 = 354 ∧ objFeed 3 = 361 := by
  decide
/-- R516: the first slots, and the last TILE slot at 0x5E80. -/
theorem test_ledger_slots : slotAddr 1 0 = 0x1000 ∧ slotAddr 2 0 = 0x2800 ∧ slotAddr 9 5 = 0x5E80 := by decide
/-- The parameter entries E0 and E5 of the worked recipe ONOFF_BS: 1 ms and 500 µs. -/
theorem test_recipe_times : tim19 0x30001 = 1 * ms ∧ tim19 0x101F4 = 500 * us := by decide
/-- R538: half a frame of 40 ms. -/
theorem test_fan_on_time : onTime 50 = 20 * ms := by decide
/-- R394: a slew removes 20 µs in one second. -/
theorem test_slew : slewed 50000 sec = 20000 ∧ slewed (-5000) sec = -5000 := by decide
/-- The straps' table of R534. -/
theorem test_straps : strapTsh false false = 95 ∧ strapTsh true true = 110 := by decide

/-! Commands. -/

/-- R27: a claim of an ORPHAN token, and its end. -/
theorem test_claim : ((after (exec (.claim .A 5) (st id))).own.token 5).st = .claiming .A none := by decide +kernel
theorem test_claim_complete :
    ((after (exec (.claimComplete 5) (after (exec (.claim .A 5) (st id))))).own.token 5).st = .owned .A := by decide +kernel
/-- R17: the ninth write stalls. -/
theorem test_ninth_write :
    (Port.post ((List.range 8).foldl (fun p k => p.post ⟨k, 0⟩) {}) ⟨8, 0⟩).stalled = some ⟨8, 0⟩ := by decide +kernel
/-- R583: a select beyond its range is held. -/
theorem test_select_held : (after (exec (.selectWrite .A 3 5 100) (st id))).w.selOf .A 5 3 = 100 := by decide +kernel
/-- The tick (log entry 2). -/
theorem test_tick : State.reset.tick.w.now = 1000 := by decide +kernel
/-- A command at the front of the queue is taken from it. -/
theorem test_step_takes : (after (step { st id with pending := [.claim .A 5] })).pending = [] := by decide +kernel

/-! States and operands that meet the hypotheses of the statements. -/

theorem witness_stepRunsTheFront :
    (∃ (s : State) (c : Instr) (rest : List Instr), s.pending = c :: rest) ∧ (∃ s : State, s.pending = []) :=
  ⟨⟨{ st id with pending := [.claim .A 5] }, .claim .A 5, [], rfl⟩, st id, rfl⟩

theorem witness_frameOfEveryCommand :
    ∃ (c : Instr) (f : Field), f.reg < 2 ^ 25 ∧ partIn (footprint c) (.reg f.reg) = false :=
  ⟨.claim .A 5, F.VLV_CMD.ON, by decide +kernel⟩

theorem witness_everyStepKeepsTheArbiter : ∃ s t : State, s.Inv ∧ step s = .next t := by
  refine ⟨st id, _, ⟨by decide, fun h i => ?_, fun h i e => ?_, ⟨fun k _ => rfl, fun k d g e => ?_, fun h e => ?_, fun h k e => ?_⟩⟩, rfl⟩
  · cases h <;> exact Nat.zero_le _
  · cases h <;> cases e
  · exact nomatch (show TokenSt.orphan = .claiming d g from e)
  · cases e
    rfl
  · cases h <;> cases e

theorem witness_everyStepKeepsTheMemories : ∃ s t : State, s.MemOk ∧ step s = .next t :=
  ⟨st id, _, ⟨fun h => by cases h <;> decide, fun h => by cases h <;> decide, by decide⟩, rfl⟩

theorem witness_tokensPass :
    (∃ (k : Nat) (d : Half) (s : State), (s.own.token k).st = .claiming d none) ∧
    (∃ (k : Nat) (d : Half) (g : Half) (s : State), (s.own.token k).st = .claiming d (some g)) ∧
    (∃ (h : Half) (k : Nat) (s : State), s.own.alive h = true ∧ k < nObj) ∧
    (∃ (h : Half) (k : Nat) (s : State), s.own.alive h = true ∧ k < nObj) ∧
    (∃ (h : Half) (s : State), s.own.alive h = true) ∧
    (∃ (h : Half) (s : State), s.own.alive h = true ∧ s.own.alive h.other = true ∧ s.w.flag h.other F.OWN_CTRL.ACCEPT = true) ∧
    (∃ (h : Half) (s : State), s.own.alive h = true ∧ (s.own.server ≠ some h.other ∨ s.own.alive h.other = false)) ∧
    (∃ (h : Half) (s : State), s.own.alive h = true ∧ s.own.alive h.other = true ∧ s.own.server = some h.other) ∧
    (∃ (h : Half) (s : State), s.own.alive h = true ∧ s.own.alive h.other = false ∧ s.w.flag h F.OWN_CTRL.TAKEOVER_EN = true ∧
      s.own.fallSet.get h.other ≠ [] ∧ s.own.hwIssued.get h.other = false ∧ ((∀ k ∈ s.own.fallSet.get h.other,
      (s.own.token k).st = .orphan))) ∧
    (∃ (h : Half) (s : State), s.own.hwIssued.get h.other = true ∧ ((∃ k ∈ s.own.fallSet.get h.other,
      (s.own.token k).st = .claiming h none))) :=
  ⟨⟨0, .A, { st id with own := live.setToken 0 { st := .claiming .A none } }, by decide +kernel⟩,
   ⟨0, .B, .A, { st id with own := live.setToken 0 { st := .claiming .B (some .A) } }, by decide +kernel⟩,
   ⟨.A, 0, stO [0] id, by decide +kernel⟩,
   ⟨.A, 0, mover, by decide +kernel⟩,
   ⟨.A, stO [4] id, by decide +kernel⟩,
   ⟨.A, mover, by decide +kernel⟩,
   ⟨.A, { st id with own := { live with server := none } }, by decide +kernel⟩,
   ⟨.B, stO [4] id, by decide +kernel⟩,
   ⟨.A, { st (fun w => w.wr .A F.OWN_CTRL.TAKEOVER_EN 0 1) with own := { live with low := ⟨{ heldReset := false }, {}⟩, fallSet := ⟨[], [3]⟩ } },
      by decide +kernel⟩,
   ⟨.A, { st id with own := { (live.setToken 3 { st := .claiming .A none }) with fallSet := ⟨[], [3]⟩, hwIssued := ⟨false, true⟩ } },
      by decide +kernel⟩⟩

theorem witness_orphanTimers :
    (∃ (k : Nat) (s : State), (s.own.token k).st = .orphan ∧ (s.own.token k).expired = false ∧
      (s.own.token k).at_ + s.w.rd .A F.OWN_ORPHAN_T.T * 100000000 ≤ s.w.now) ∧
    (∃ (k : Nat) (s : State), s.w.now < (s.own.token k).at_ + s.w.rd .A F.OWN_ORPHAN_T.T * 100000000) ∧
    (∃ (h : Half) (init : Nat) (v : Nat) (s : State), s.own.alive h = true ∧ s.w.flag h F.OWN_LOCK.OPEN = true ∧ 2 ≤ v ∧ v ≤ 300) ∧
    (∃ (h : Half) (init : Nat) (v : Nat) (s : State), (bitsOf v 0 9 < 2 ∨ 300 < bitsOf v 0 9)) ∧
    (∃ (h : Half) (s : State), s.own.alive h = false ∧ s.own.fellAt.get h + 20000 ≤ s.w.now) :=
  ⟨⟨0, { st (fun w => { w with now := 60000000000 }) with own := live.setToken 0 { expired := false } }, by decide +kernel⟩,
   ⟨0, { st id with own := live.setToken 0 { at_ := 1, expired := false } }, by decide +kernel⟩,
   ⟨.A, 0, 300, { st (fun w => { w.wr .A F.OWN_LOCK.OPEN 0 1 with now := 30000000000 }) with own := live.setToken 0 { expired := false } },
      by decide +kernel⟩,
   ⟨.A, 0, 1, st id, by decide +kernel⟩,
   ⟨.B, { st (fun w => { w with now := 20000 }) with own := { (live.setToken 4 { st := .owned .B }) with low := ⟨{ heldReset := false }, {}⟩ } },
      by decide +kernel⟩⟩

theorem witness_aliveLines :
    (∃ (h : Half) (s : State), s.own.low.get h = { wiring := true, heldReset := false }) ∧
    (∃ (h : Half) (s : State), (s.w.run.get h).running = true ∧ s.own.alive h = true ∧ (s.w.run.get h).greenHold = false ∧
      (s.w.run.get h).stwAt + 300000 ≤ s.w.now) ∧
    (∃ (h : Half) (s : State), (s.w.run.get h).running = true ∧ s.own.alive h = true ∧ (s.w.run.get h).rtJoined = [true, true] ∧
      ((∃ a ∈ (s.w.run.get h).rtAt, a + 300000 ≤ s.w.now))) ∧
    (∃ (h : Half) (s : State), (s.w.run.get h).running = true ∧ s.w.missedCycle h = false) ∧
    (∃ (h : Half) (s : State), s.w.missedCycle h = true) ∧
    (∃ (h : Half) (p : Nat) (s : State), (s.w.run.get h).running = true ∧ p < 2 ∧ (s.w.run.get h).rtAt.length = 2 ∧
      (s.w.run.get h).rtJoined.length = 2) ∧
    (∃ (h : Half) (s : State), (s.w.run.get h).running = true ∧ s.own.alive h = true ∧ ((∃ j ∈ (s.w.run.get h).rtJoined, j = false)) ∧
      (s.w.run.get h).refAt + 1000000000 ≤ s.w.now) ∧
    (∃ (h : Half) (s : State), (s.w.run.get h).running = true ∧ s.own.low.get h = { wiring := true, heldReset := false }) :=
  ⟨⟨.A, { st id with own := { live with low := Two.both { wiring := true, heldReset := false } } }, by decide +kernel⟩,
   ⟨.A, st fun w => { w with now := 300000, run := Two.both { Run.init with running := true, greenHold := false } }, by decide +kernel⟩,
   ⟨.A, st fun w => { w with now := 300000, run := Two.both { Run.init with running := true, rtAt := [0, 0], rtJoined := [true, true] } },
      by decide +kernel⟩,
   ⟨.A, st id, by decide +kernel⟩,
   ⟨.A, st fun w => { w.wr .A F.SET_CTRL.RUN 0 1 with now := 5000000 }, by decide +kernel⟩,
   ⟨.A, 1, st id, by decide +kernel⟩,
   ⟨.A, st fun w => { w with now := 1000000000 }, by decide +kernel⟩,
   ⟨.A, { st id with own := { live with low := Two.both { wiring := true, heldReset := false } } }, by decide +kernel⟩⟩

theorem witness_boundaryHoldsEight :
    (∃ (h : Half) (init : Nat) (addr : Nat) (v : Nat) (s : State), (s.w.run.get h).running = true ∧ init < 12 ∧ mapped addr = true ∧
      addr % 4 = 0 ∧ (s.port h init).stalled = none) ∧
    (∃ (h : Half) (init : Nat) (addr : Nat) (v : Nat) (s : State), (s.port h init).stalled.isSome = true) ∧
    (∃ (h : Half) (init : Nat) (s : State) (p : PWrite) (q : PWrite) (rest : List PWrite), (s.w.run.get h).running = true ∧
      (s.port h init).fifo = p :: rest ∧ (s.port h init).stalled = some q) ∧
    (∃ (h : Half) (init : Nat) (s : State) (p : PWrite) (rest : List PWrite), (s.w.run.get h).running = true ∧
      (s.port h init).fifo = p :: rest ∧ (s.port h init).stalled = none) :=
  ⟨⟨.A, 2, 0x40200038, 7, st id, by decide +kernel⟩,
   ⟨.A, 2, 0x40200038, 9, ({ st id with bus := { port := ⟨[(2, { fifo := [⟨0x40200038, 7⟩], stalled := some ⟨0x40200038, 8⟩ })], []⟩ } }),
      by decide +kernel⟩,
   ⟨.A, 2, ({ st id with bus := { port := ⟨[(2, { fifo := [⟨0x40200038, 7⟩], stalled := some ⟨0x40200038, 8⟩ })], []⟩ } }), ⟨0x40200038,
      7⟩, ⟨0x40200038, 8⟩, [], by decide +kernel⟩,
   ⟨.A, 2, ({ st id with bus := { port := ⟨[(2, { fifo := [⟨0x40200038, 7⟩] })], []⟩ } }), ⟨0x40200038, 7⟩, [], by decide +kernel⟩⟩

theorem witness_selectsHoldEveryValue :
    (∃ (h : Half) (init : Nat) (blk : Nat) (f : Field) (v : Nat) (s : State), (s.w.run.get h).running = true ∧ init < 12 ∧
      selField blk = some f) ∧
    (∃ (h : Half) (init : Nat) (blk : Nat) (addr : Nat) (d : RegDef) (k : Nat) (x : Nat) (s : State) (v : Word) (rest : List PWrite),
      (s.w.run.get h).running = true ∧ (s.port h init).fifo = ⟨addr, v⟩ :: rest ∧ regAt addr = some (d, k, x) ∧
      regOf addr / 2 ^ 20 = blk ∧ d.sel ≠ .none ∧ selCount blk ≤ s.w.selOf h blk init) :=
  ⟨⟨.A, 3, 5, F.VLV_SEL.CH, 200, st id, by decide +kernel⟩,
   ⟨.A, 2, 5, 0x40500020, ⟨0x500020, 1, 0x4, 1, .channel, 0x1, 0x0, 0x0, true⟩, 0, 0,
      ({ st (fun w => w.wr .A F.VLV_SEL.CH 2 100) with bus := { port := ⟨[(2, { fifo := [⟨0x40500020, 1⟩] })], []⟩ } }), 1, [],
      by decide +kernel⟩⟩

theorem witness_writesTakeEffect :
    (∃ (h : Half) (init : Nat) (addr : Nat) (s : State), (s.w.run.get h).running = true ∧ init < 12 ∧ mapped addr = true ∧ addr % 4 = 0) ∧
    (∃ (h : Half) (init : Nat) (addr : Nat) (size : Nat) (s : State), (s.w.run.get h).running = true ∧ init < 12 ∧ 0x40000000 ≤ addr ∧
      addr < 0x50000000 ∧ (mapped addr = false ∨ addr % 4 ≠ 0 ∨ size ≠ 4)) ∧
    (∃ (h : Half) (init : Nat) (s : State) (v : Word) (rest : List PWrite), (s.w.run.get h).running = true ∧
      (s.port h init).fifo = ⟨0x40200038, v⟩ :: rest) ∧
    (∃ (h : Half) (init : Nat) (s : State) (v : Word) (rest : List PWrite) (n : Nat), (s.w.run.get h).running = true ∧ n < 4 ∧
      s.own.alive h = true ∧ s.own.owns h (354 + n) = true ∧ s.w.rd h F.FAN_SEL.CH init = n ∧ v.field 0 16 < v.field 16 16 ∧
      (s.port h init).fifo = ⟨0x41000060 + 4 * n, v⟩ :: rest) ∧
    (∃ (h : Half) (init : Nat) (s : State) (v : Word) (rest : List PWrite) (n : Nat), (s.w.run.get h).running = true ∧ n < 4 ∧
      s.own.alive h = true ∧ ((∀ k, k < 4 → s.own.owns h (354 + k) = false)) ∧ s.w.rd h F.FAN_SEL.CH init = n ∧
      (s.port h init).fifo = ⟨0x41000060 + 4 * n, v⟩ :: rest) ∧
    (∃ (h : Half) (init : Nat) (s : State) (v : Word) (rest : List PWrite) (n : Nat), (s.w.run.get h).running = true ∧ n < 4 ∧
      s.own.alive h = false ∧ s.w.rd h F.FAN_SEL.CH init = n ∧ (s.port h init).fifo = ⟨0x41000060 + 4 * n, v⟩ :: rest) :=
  ⟨⟨.B, 11, 0x40200038, st id, by decide +kernel⟩,
   ⟨.B, 11, 0x40200039, 4, st id, by decide +kernel⟩,
   ⟨.A, 2, ({ st id with bus := { port := ⟨[(2, { fifo := [⟨0x40200038, 7⟩] })], []⟩ } }), 7, [], by decide +kernel⟩,
   ⟨.A, 2, ({ stO [355] (fun w => w.wr .A F.FAN_SEL.CH 2 1) with bus := { port := ⟨[(2, { fifo := [⟨0x41000064, 0x00070006⟩] })], []⟩ } }),
      0x00070006, [], 1, by decide +kernel⟩,
   ⟨.B, 2, ({ stO [355] (fun w => w.wr .B F.FAN_SEL.CH 2 1) with bus := { port := ⟨[], [(2, { fifo := [⟨0x41000064, 0x00070006⟩] })]⟩ } }),
      0x00070006, [], 1, by decide +kernel⟩,
   ⟨.B, 2, ({ st (fun w => w.wr .B F.FAN_SEL.CH 2 1) with own := Own.init, bus := { port := ⟨[], [(2, { fifo := [⟨0x41000064, 0x00070006⟩] })]⟩ } }),
      0x00070006, [], 1, by decide +kernel⟩⟩

theorem witness_crossingCarries :
    (∃ (h : Half) (l : Nat) (up : Bool) (s : State), (s.w.run.get h).running = true ∧ l < 2) ∧
    (∃ (h : Half) (ty : Nat) (seq : Nat) (len : Nat) (s : State), s.w.sends h.other = true ∧ 1 ≤ ty ∧ ty ≤ 6) ∧
    (∃ (h : Half) (ty : Nat) (seq : Nat) (len : Nat) (s : State), s.w.sends h.other = true ∧ 1 ≤ ty ∧ ty ≤ 6) ∧
    (∃ (h : Half) (ty : Nat) (seq : Nat) (s : State), (ty, seq) ∈ (s.w.xng.get h.other).asked ∧ s.w.sends h = true) ∧
    (∃ (h : Half) (init : Nat) (v : Nat) (s : State), s.w.flag h F.OWN_LOCK.OPEN = true) ∧
    (∃ (h : Half) (init : Nat) (v : Nat) (s : State), s.w.flag h F.OWN_LOCK.OPEN = false) ∧
    (∃ (h : Half) (init : Nat) (v : Nat) (s : State), s.w.flag h F.OWN_LOCK.OPEN = true ∧ s.w.inService h = true) ∧
    (∃ (h : Half) (init : Nat) (v : Nat) (s : State), v % 2 = 1 ∧ s.w.inService h = false) ∧
    (∃ (h : Half) (s : State), (s.w.run.get h).lapsed s.w.now = false ∧ s.w.sends h = true ∧ s.own.alive h = true) ∧
    (∃ (h : Half) (s : State), s.own.alive h = false) ∧
    (∃ (h : Half) (s : State) (f : HbFrame), (s.w.xng.get h.other).sent = some f ∧ s.w.sends h.other = true) ∧
    (∃ (h : Half) (s : State), (s.w.run.get h).running = true ∧ (s.w.xng.get h).suspended = false ∧
      (s.w.xng.get h).winAt + 100000 ≤ s.w.now) ∧
    (∃ (h : Half) (s : State), (s.w.xng.get h).suspended = true) ∧
    (∃ (h : Half) (s : State), (s.w.xng.get h).lossDue = true) ∧
    (∃ (h : Half) (s : State), s.w.linked h = true ∧ (s.w.run.get h).running = true ∧ (s.w.run.get h.other).running = true ∧
      s.w.lanesUp h = true ∧ s.w.flag h F.XNG_STATUS.UP = false) :=
  ⟨⟨.A, 1, false, cross fun w => w.wr .A F.XNG_STATUS.LANE_TX 0 2, by decide +kernel⟩,
   ⟨.A, 3, 9, 40, cross id, by decide +kernel⟩,
   ⟨.A, 3, 9, 40, cross fun w => { w with xng := w.xng.upd .A fun x => { x with asked := [(3, 9)] } }, by decide +kernel⟩,
   ⟨.B, 3, 9, cross fun w => { w with xng := w.xng.upd .A fun x => { x with asked := [(3, 9)] } }, by decide +kernel⟩,
   ⟨.A, 2, 0, cross fun w => w.wr .A F.OWN_LOCK.OPEN 0 1, by decide +kernel⟩,
   ⟨.A, 2, 0, cross fun w => w.wr .A F.OWN_LOCK.OPEN 0 0, by decide +kernel⟩,
   ⟨.A, 2, 1, cross fun w => (w.wr .A F.OWN_LOCK.OPEN 0 1).wr .A F.SET_STATE.STATE 0 5, by decide +kernel⟩,
   ⟨.A, 2, 1, cross fun w => w.wr .A F.OWN_LOCK.OPEN 0 1, by decide +kernel⟩,
   ⟨.A, cross id, by decide +kernel⟩,
   ⟨.A, State.reset, by decide +kernel⟩,
   ⟨.A, (cross fun w => { w with xng := w.xng.upd .B fun x => { x with sent := some ⟨70000, 9, true, 2 ^ 33 + 5, 300, 513, 9, true⟩ } }),
      ⟨70000, 9, true, 2 ^ 33 + 5, 300, 513, 9, true⟩, by decide +kernel⟩,
   ⟨.A, cross fun w => { w.wr .A F.XNG_STATUS.HB_MISS 0 4 with now := 100000, xng := w.xng.upd .A fun x => { x with suspended := false, winAt := 0 } },
      by decide +kernel⟩,
   ⟨.A, st fun w => { w with xng := w.xng.upd .A fun x => { x with suspended := true } }, by decide +kernel⟩,
   ⟨.A, cross fun w => { w with xng := w.xng.upd .A fun x => { x with lossDue := true } }, by decide +kernel⟩,
   ⟨.B, cross fun w => w.wr .B F.XNG_STATUS.UP 0 0, by decide +kernel⟩⟩

theorem witness_timeSyncAndMirror :
    (∃ (h : Half) (t1 : Int) (t2 : Int) (t3 : Int) (t4 : Int) (s : State), s.w.flag h F.XNG_STATUS.UP = true) ∧
    (∃ (h : Half) (s : State), s.w.flag h F.XNG_STATUS.UP = true ∧ (s.w.xng.get h).tsyAt + 10000000 ≤ s.w.now) ∧
    (∃ (h : Half) (s : State), s.w.mirrors h = true) ∧
    (∃ (h : Half) (s : State) (n : Nat) (full : Bool), s.w.mirrors h = true ∧ 1 ≤ n ∧ n < 30 ∧
      (NMap.get {} (s.w.set.get h.other).fn n).ran = true ∧
      (NMap.get {} (s.w.set.get h).mir n).cycle ≤ (NMap.get {} (s.w.set.get h.other).fn n).cycle) ∧
    (∃ (h : Half) (s : State) (k : Nat) (n : Nat) (full : Bool), s.w.mirrors h = false) ∧
    (∃ (h : Half) (k : Nat) (s : State), k < 4 ∧ s.w.flag h F.XNG_STATUS.UP = true) ∧
    (∃ (h : Half) (s : State), s.w.flag h F.XNG_STATUS.UP = true ∧ s.w.sends h = true ∧
      NMap.get 0 (s.w.xng.get h).lastSent 3 + 1000000000 ≤ s.w.now ∧ s.w.mirrors h.other = true) :=
  ⟨⟨.B, 0, 110, 130, 200, cross fun w => { w with xng := w.xng.upd .B fun x => { x with within := 9 } }, by decide +kernel⟩,
   ⟨.A, cross fun w => { w with now := 10000000 }, by decide +kernel⟩,
   ⟨.B, cross fun w => w.wr .A F.SET_STATE.STATE 0 3, by decide +kernel⟩,
   ⟨.B, (cross fun w => { w with set := w.set.upd .A fun e => { e with fn := NMap.set {} e.fn 4 { ran := true, cycle := 3 } } }), 4,
      false, by decide +kernel⟩,
   ⟨.B, st id, 1, 30, true, by decide +kernel⟩,
   ⟨.A, 3, cross id, by decide +kernel⟩,
   ⟨.A, cross fun w => { w.wr .A F.FLX_YLD.ACKED 0 9 with now := 1000000000 }, by decide +kernel⟩⟩

theorem witness_startStages :
    (∃ (t1 : Bool) (t0 : Bool) (tiles : Nat) (s : State), (s.w.run.get .A).running = false ∧ (s.w.run.get .B).running = false) ∧
    (∃ (t1 : Bool) (t0 : Bool) (tiles : Nat) (h : Half) (s : State), (s.w.run.get h).running = true) ∧
    (∃ (h : Half) (s : State), s.mayRun h = true ∧ (s.w.run.get h).running = false ∧ (s.own.low.get h).wiring = false) ∧
    (∃ (h : Half) (s : State), s.mayRun h = false) ∧
    (∃ (h : Half) (s : State), (s.w.run.get h).running = true ∧ (s.w.run.get h).standby = false ∧ (s.w.run.get h).bloomStep = 0) ∧
    (∃ (h : Half) (s : State), (s.w.run.get h).running = true ∧ (s.w.run.get h).standby = false ∧ (s.w.run.get h).bloomStep = 8) ∧
    (∃ (h : Half) (k : Nat) (s : State), ((s.w.run.get h).running = false ∨ (s.w.run.get h).standby = true ∨ (s.w.run.get h).bloomStep + 1 ≠ k ∨ 9 < k)) ∧
    (∃ (h : Half) (s : State), (s.w.run.get h).running = true ∧ (s.w.run.get h).standby = false ∧ (s.w.run.get h).bloomStep = 7 ∧
      (s.w.run.get h).selfFenced = false ∧ s.w.act = none ∧ s.own.alive h = true ∧ s.own.server = none) ∧
    (∃ (h : Half) (s : State), (s.w.run.get h).running = true ∧ (s.w.run.get h).standby = false ∧ (s.w.run.get h).bloomStep = 7 ∧
      (s.w.run.get h).selfFenced = false ∧ s.w.act = none ∧ s.own.server = some h.other) ∧
    (∃ (h : Half) (s : State), (s.w.run.get h).running = true ∧ s.w.rd h F.STW_STAGE.BLOOM_DONE = 1 ∧ s.w.rd h F.STW_STAGE.STAGE = 1 ∧
      (s.w.run.get h).flagsAt ≠ 0 ∧ (s.w.run.get h).flagsAt - 1 + 2000000000 ≤ s.w.now) ∧
    (∃ (h : Half) (s : State), (s.w.run.get h).flagsAt = 0) ∧
    (∃ (h : Half) (s : State), (s.w.run.get h).running = true ∧ s.w.rd h F.STW_STAGE.STAGE = 2 ∧ (s.w.run.get h).flagsGone ≠ 0 ∧
      (s.w.run.get h).flagsGone - 1 + 5000000000 ≤ s.w.now) ∧
    (∃ (h : Half) (s : State), (s.w.run.get h).flagsGone = 0) :=
  ⟨⟨true, false, 5, State.reset, by decide +kernel⟩,
   ⟨true, false, 5, .A, st id, by decide +kernel⟩,
   ⟨.A, { st (fun w => { (w.updSvc fun v => { v with presence := Two.both true }) with latch := { w.latch with logicValid := true }, run := Two.both { Run.init with cause := 3 } }) with own := Own.init },
      by decide +kernel⟩,
   ⟨.A, State.reset, by decide +kernel⟩,
   ⟨.A, st id, by decide +kernel⟩,
   ⟨.A, st fun w => { w with run := Two.both { Run.init with running := true, bloomStep := 8 } }, by decide +kernel⟩,
   ⟨.A, 9, st id, by decide +kernel⟩,
   ⟨.B, { st (fun w => { w with run := Two.both { Run.init with running := true, bloomStep := 7 } }) with own := { live with server := none } },
      by decide +kernel⟩,
   ⟨.B, st fun w => { w with run := Two.both { Run.init with running := true, bloomStep := 7 } }, by decide +kernel⟩,
   ⟨.A, st fun w => { (w.wr .A F.STW_STAGE.BLOOM_DONE 0 1).wr .A F.STW_STAGE.STAGE 0 1 with now := 2000000000, run := Two.both { Run.init with running := true, flagsAt := 1 } },
      by decide +kernel⟩,
   ⟨.A, st id, by decide +kernel⟩,
   ⟨.A, st fun w => { w.wr .A F.STW_STAGE.STAGE 0 2 with now := 5000000000, run := Two.both { Run.init with running := true, flagsGone := 1 } },
      by decide +kernel⟩,
   ⟨.A, st id, by decide +kernel⟩⟩

theorem witness_roastActivation :
    (∃ (h : Half) (s : State), (s.w.run.get h).running = true ∧ s.w.rd h F.XNG_STATUS.UP = 1 ∧
      (s.w.roast.get h.other).pending.valid = true ∧ s.w.act = none ∧ s.w.sessOpen h 6 = false) ∧
    (∃ (h : Half) (s : State), s.needsRoast h = true) ∧
    (∃ (h : Half) (s : State), (s.w.run.get h).running = true) ∧
    (∃ (h : Half) (s : State) (a : Activation), s.w.act = some a ∧ a.step = 2 ∧ s.newUp a.newHalf = true) ∧
    (∃ (h : Half) (s : State) (a : Activation), s.w.act = some a ∧ a.committed = false ∧ s.activateFailed a = true ∧
      (s.w.roast.get a.newHalf).trial = false) ∧
    (∃ (h : Half) (s : State) (a : Activation), s.w.act = some a ∧ a.committed = true) :=
  ⟨⟨.A, cross fun w => { w with roast := w.roast.upd .B fun q => { q with pending := { image := [], valid := true } } }, by decide +kernel⟩,
   ⟨.B, cross fun w => { w.wr .A F.STW_STAGE.BLOOM_DONE 0 1 with run := ⟨{ Run.init with running := true }, { Run.init with running := true, standby := true, bloomStep := 5 }⟩ },
      by decide +kernel⟩,
   ⟨.A, st id, by decide +kernel⟩,
   ⟨.A, (st fun w => { w.wr .B F.STW_STAGE.BLOOM_DONE 0 1 with act := some ⟨.B, 2, 0, false⟩ }), ⟨.B, 2, 0, false⟩, by decide +kernel⟩,
   ⟨.A, ({ st (fun w => { w with run := ⟨{ Run.init with running := true }, Run.init⟩, act := some ⟨.B, 2, 0, false⟩ }) with own := { live with low := ⟨{ heldReset := false }, {}⟩ } }),
      ⟨.B, 2, 0, false⟩, by decide +kernel⟩,
   ⟨.A, (st fun w => { w with act := some ⟨.B, 4, 0, true⟩ }), ⟨.B, 4, 0, true⟩, by decide +kernel⟩⟩

theorem witness_powerLatch :
    (∃ (v : Nat) (s : State), s.w.latch.logicValid = false ∧ s.w.pwr.fail = false ∧ 800 ≤ v) ∧
    (∃ (v : Nat) (s : State), v < 800) ∧
    (∃ (s : State), s.w.latch.logicValid = true ∧ s.w.latch.keyOn = false ∧ ((∀ g, (s.w.shut.get g).step = 0))) ∧
    (∃ (s : State) (h : Half), s.w.latch.logicValid = true ∧ s.w.latch.keyOn = false ∧ (s.w.shut.get h).step = 1 ∧
      (s.w.run.get h).running = true) ∧
    (∃ (s : State), s.w.latch.logicValid = true ∧ s.w.latch.keyOn = true) ∧
    (∃ (s : State), s.w.latch.startup = true ∧ s.w.latch.validAt + 5000000000 ≤ s.w.now ∧ s.w.latch.keyOn = false ∧ s.w.holdReq = false) ∧
    (∃ (s : State), s.w.latch.keySeen = true ∧ s.w.latch.keyOn = false ∧ s.w.latch.keyOffAt + 30000000000 ≤ s.w.now ∧
      s.w.latch.pwrHold = true) ∧
    (∃ (s : State), s.w.latch.keyOn = true) :=
  ⟨⟨800, State.reset, by decide +kernel⟩,
   ⟨799, State.reset, by decide +kernel⟩,
   ⟨st fun w => { w with latch := { w.latch with logicValid := true } }, by decide +kernel, by decide +kernel,
      fun g => by cases g <;> decide +kernel⟩,
   ⟨(st fun w => { w with latch := { w.latch with logicValid := true }, shut := Two.both { Shut.init with step := 1 } }), .B,
      by decide +kernel⟩,
   ⟨st fun w => { w with latch := { w.latch with logicValid := true, keyOn := true } }, by decide +kernel⟩,
   ⟨st fun w => { w with now := 5000000000, latch := { w.latch with startup := true, validAt := 0 } }, by decide +kernel⟩,
   ⟨st fun w => { w with now := 30000000000, latch := { w.latch with keySeen := true, keyOn := false, keyOffAt := 0, pwrHold := true } },
      by decide +kernel⟩,
   ⟨st fun w => { w with latch := { w.latch with keyOn := true } }, by decide +kernel⟩⟩

theorem witness_shutdownAndCupping :
    (∃ (h : Half) (c : CupCond) (s : State), s.w.latch.keySeen = true ∧ s.w.latch.keyOn = false ∧ (s.w.run.get h).running = true ∧
      (s.w.shut.get h).step = 0 ∧ s.w.rd h F.STW_STAGE.BLOOM_DONE = 1 ∧ s.w.skipsShut h = false) ∧
    (∃ (h : Half) (c : CupCond) (s : State), s.w.latch.keySeen = true ∧ s.w.latch.keyOn = false ∧ (s.w.run.get h).running = true ∧
      (s.w.shut.get h).step = 1 ∧ (s.w.shut.get h).runAt + s.w.longestRamp (s.own.ownedBy h) ≤ s.w.now) ∧
    (∃ (h : Half) (c : CupCond) (s : State), s.w.latch.keySeen = true ∧ s.w.latch.keyOn = false ∧ (s.w.run.get h).running = true ∧
      (s.w.shut.get h).step = 3 ∧ s.w.anySess h = false ∧ c.ctrlOk = true ∧ s.w.rd h F.CUP_CTRL.EN = 1) ∧
    (∃ (h : Half) (k : Nat) (c : CupCond) (s : State), s.w.latch.keyOn = true) ∧
    (∃ (h : Half) (e : Nat) (s : State), (s.w.shut.get h).step = 4 ∧ s.w.rd h F.CUP_STATUS.PHASE = 4) ∧
    (∃ (h : Half) (m : List CupMeas) (s : State), s.w.latch.keyOn = true ∧ 4 ≤ (s.w.shut.get h).step ∧ s.w.latch.pwrHold = true ∧
      (s.w.run.get h).running = false) ∧
    (∃ (h : Half) (init : Nat) (s : State), (s.w.run.get h).running = true) ∧
    (∃ (h : Half) (s : State), (s.w.shut.get h).step = 4 ∧ s.w.rd h F.CUP_STATUS.PHASE = 2 ∧ (s.w.shut.get h).order = [1, 2, 3, 4] ∧
      (s.w.shut.get h).tested = [] ∧ s.w.rd h F.CUP_STATUS.GROUP = 0) ∧
    (∃ (h : Half) (s : State), s.w.rd h F.CUP_STATUS.PHASE ≠ 2) ∧
    (∃ (h : Half) (s : State), (s.w.shut.get h).step = 4 ∧ s.w.rd h F.CUP_STATUS.PHASE = 2 ∧ (s.w.shut.get h).runAt + 300000000 ≤ s.w.now) ∧
    (∃ (h : Half) (n : Nat) (m : CupMeas) (s : State), (s.w.shut.get h).step = 4 ∧ s.w.rd h F.CUP_STATUS.PHASE = 3 ∧ n ∈ s.w.underTest h) ∧
    (∃ (h : Half) (n : Nat) (r : Nat) (m : CupMeas) (s : State), (s.w.shut.get h).step = 4 ∧ s.w.rd h F.CUP_STATUS.PHASE = 3 ∧ 4 ≤ r ∧
      r ≤ 6 ∧ n < 40 ∧ n ∉ (s.w.shut.get h).tested) ∧
    (∃ (h : Half) (m : List CupMeas) (s : State), (s.w.shut.get h).step = 4 ∧ s.w.rd h F.CUP_STATUS.PHASE = 3 ∧
      (s.w.shut.get h).runAt + 7000000000 ≤ s.w.now) ∧
    (∃ (h : Half) (m : List CupMeas) (s : State), s.w.now < (s.w.shut.get h).runAt + 7000000000) :=
  ⟨⟨.A, ⟨true, 80, 0, 0⟩, st fun w => { w.wr .A F.STW_STAGE.BLOOM_DONE 0 1 with latch := { w.latch with keySeen := true } },
      by decide +kernel⟩,
   ⟨.A, ⟨true, 80, 0, 0⟩, stO [0] fun w => { w with latch := { w.latch with keySeen := true }, shut := Two.both { Shut.init with step := 1 } },
      by decide +kernel⟩,
   ⟨.A, ⟨true, 80, 0, 0⟩, st fun w => { w with latch := { w.latch with keySeen := true }, shut := Two.both { Shut.init with step := 3 } },
      by decide +kernel⟩,
   ⟨.A, 1, ⟨true, 80, 0, 0⟩, st fun w => { w with latch := { w.latch with keyOn := true } }, by decide +kernel⟩,
   ⟨.A, 700, st fun w => { w.wr .A F.CUP_STATUS.PHASE 0 4 with shut := Two.both { Shut.init with step := 4 } }, by decide +kernel⟩,
   ⟨.A, [], { st (fun w => { (w.updSvc fun v => { v with presence := Two.both true }) with latch := { w.latch with logicValid := true, keyOn := true, pwrHold := true }, shut := Two.both { Shut.init with step := 5 }, run := Two.both Run.init }) with own := Own.init },
      by decide +kernel⟩,
   ⟨.A, 2, st fun w => w.wr .A F.STW_STAGE.CUP_REPORT 0 1, by decide +kernel⟩,
   ⟨.A, st fun w => { w.wr .A F.CUP_STATUS.PHASE 0 2 with shut := Two.both { Shut.init with step := 4, order := [1, 2, 3, 4] } },
      by decide +kernel⟩,
   ⟨.A, st id, by decide +kernel⟩,
   ⟨.A, st fun w => { w.wr .A F.CUP_STATUS.PHASE 0 2 with now := 300000000, shut := Two.both { Shut.init with step := 4, tested := [3], runAt := 0 } },
      by decide +kernel⟩,
   ⟨.A, 10, { cntOk := true, fin := true, misr := false, syndrome := 9 },
      st fun w => { (w.wr .A F.CUP_STATUS.PHASE 0 3).wr .A F.CUP_STATUS.GROUP 0 1 with shut := Two.both { Shut.init with step := 4, order := [1, 2, 3, 4] } },
      by decide +kernel⟩,
   ⟨.A, 39, 5, {}, st fun w => { (w.wr .A F.CUP_STATUS.PHASE 0 3).wr .A F.CUP_STATUS.GROUP 0 1 with shut := Two.both { Shut.init with step := 4, order := [1, 2, 3, 4] } },
      by decide +kernel⟩,
   ⟨.A, [], st fun w => { (w.wr .A F.CUP_STATUS.PHASE 0 3).wr .A F.CUP_STATUS.GROUP 0 1 with now := 7000000000, shut := Two.both { Shut.init with step := 4, order := [1, 2, 3, 4] } },
      by decide +kernel⟩,
   ⟨.A, [], st id, by decide +kernel⟩⟩

theorem witness_operatingState :
    (∃ (h : Half) (init : Nat) (dst : Nat) (s : State) (e : Trans), (s.w.run.get h).running = true ∧ s.own.server = some h ∧
      (s.w.funcs h).trans.find? (fun t => t.src = s.w.opState h && t.dst = dst % 8 && (t.mode = 1 || t.mode = 3)) = some e ∧
      s.w.guardHolds h e.guard = true ∧ s.w.act = none ∧ (s.w.shut.get h).step = 0 ∧ s.w.opState h ≠ 0 ∧ s.w.opState h ≠ 5 ∧
      (s.w.set.get h).lastTrans + 10000000 ≤ s.w.now) ∧
    (∃ (h : Half) (init : Nat) (dst : Nat) (s : State), (s.w.run.get h).running = true ∧ s.own.server = some h ∧
      ((∀ e ∈ (s.w.funcs h).trans, ¬ (e.src = s.w.opState h ∧ e.dst = dst % 8 ∧ (e.mode = 1 ∨ e.mode = 3))))) ∧
    (∃ (h : Half) (init : Nat) (dst : Nat) (s : State) (e : Trans), (s.w.run.get h).running = true ∧ s.own.server = some h ∧
      (s.w.funcs h).trans.find? (fun t => t.src = s.w.opState h && t.dst = dst % 8 && (t.mode = 1 || t.mode = 3)) = some e) ∧
    (∃ (h : Half) (init : Nat) (dst : Nat) (s : State), s.own.server ≠ some h) ∧
    (∃ (h : Half) (i : Nat) (s : State) (e : Trans), s.w.execRuns h = true ∧ s.own.server = some h ∧ (s.w.funcs h).trans[i]? = some e ∧
      (e.mode = 2 ∨ e.mode = 3) ∧ e.src = s.w.opState h ∧ s.w.guardHolds h e.guard = true ∧ NMap.get 0 (s.w.set.get h).guardAt i ≠ 0 ∧
      NMap.get 0 (s.w.set.get h).guardAt i - 1 + 200000000 ≤ s.w.now ∧ ((∀ j, j < i → s.w.autoDue h j = false)) ∧ s.w.stateRefusal h = 0) ∧
    (∃ (h : Half) (i : Nat) (s : State), s.w.stateRefusal h ≠ 0) :=
  ⟨⟨.A, 0, 10, (st fun w => (w.updSet .A fun e => { e with sec := { trans := [{ src := 1, dst := 2, mode := 1 }] } }).wr .A F.SET_STATE.STATE 0 1 |> fun w => { w with now := 10000000 }),
      { src := 1, dst := 2, mode := 1 }, by decide +kernel⟩,
   ⟨.A, 0, 2, st fun w => w.updSet .A fun e => { e with sec := { trans := [{ src := 1, dst := 2, mode := 1 }] } }, by decide +kernel⟩,
   ⟨.A, 0, 10, (st fun w => { (w.updSet .A fun e => { e with sec := { trans := [{ src := 1, dst := 2, mode := 1 }] } }).wr .A F.SET_STATE.STATE 0 1 with act := some ⟨.B, 0, 0, false⟩ }),
      { src := 1, dst := 2, mode := 1 }, by decide +kernel⟩,
   ⟨.B, 0, 2, st id, by decide +kernel⟩,
   ⟨.A, 0, (st fun w => { (w.updSet .A fun e => { e with guardAt := [(0, 1)], sec := { trans := [{ src := 1, dst := 2, mode := 2 }] } }).wr .A F.SET_STATE.STATE 0 1 |>.wr .A F.SET_CTRL.RUN 0 1 with now := 200000000 }),
      { src := 1, dst := 2, mode := 2 }, by decide +kernel⟩,
   ⟨.A, 0, st fun w => { w with act := some ⟨.B, 0, 0, false⟩ }, by decide +kernel⟩⟩

theorem witness_executorCycles :
    (∃ (h : Half) (rate : Nat) (spread : Nat) (s : State) (n : Nat), s.w.execRuns h = true ∧ rate < 4 ∧ 1 ≤ n ∧ n < 30 ∧
      (s.w.func h n).used = true ∧ (s.w.func h n).rate = rate ∧ ((∀ m,
      m < 30 → (s.w.func h m).used = true → (s.w.func h m).rate = rate → m = n)) ∧ s.w.fnRuns s.own h n = true) ∧
    (∃ (h : Half) (rate : Nat) (spread : Nat) (late : List Nat) (s : State), s.w.execRuns h = true ∧ rate < 4 ∧ ((∀ n,
      n < 30 → (s.w.func h n).used = true → (s.w.func h n).rate = rate → n ∈ late ∧ s.w.fnRuns s.own h n = true))) ∧
    (∃ (h : Half) (rate : Nat) (spread : Nat) (late : List Nat) (s : State), s.w.execRuns h = false) ∧
    (∃ (h : Half) (n : Nat) (s : State), s.w.execRuns h = true ∧ n < 30 ∧ s.w.fnRuns s.own h n = true) :=
  ⟨⟨.A, 0, 7, (stO [3] fun w => (w.updSet .A fun e => { e with sec := { recs := [{}, { used := true, law := 4, rate := 0, stateMask := 255, outKind := 1, objA := 3, spMax := 100, outMax := 100 }] } }).wr .A F.SET_CTRL.RUN 0 1),
      1, by decide +kernel⟩,
   ⟨.A, 0, 7, [0], (stO [3] fun w => (w.updSet .A fun e => { e with sec := { recs := [{ used := true, outKind := 1, objA := 3 }] } }).wr .A F.SET_CTRL.RUN 0 1),
      by decide +kernel⟩,
   ⟨.A, 0, 7, [0], State.reset, by decide +kernel⟩,
   ⟨.A, 0, (stO [3] fun w => (w.updSet .A fun e => { e with fn := [(0, { lateRun := 2 })], sec := { recs := [{ used := true, outKind := 1, objA := 3 }] } }).wr .A F.SET_CTRL.RUN 0 1),
      by decide +kernel⟩⟩

theorem witness_functionTimersAndCommands :
    (∃ (h : Half) (n : Nat) (i : Nat) (t0 : Nat) (s : State), n < 30 ∧ i < 4 ∧ (s.w.fn h n).ilkOff.getD i none = some t0 ∧
      t0 + 200000000 ≤ s.w.now ∧ (s.w.fn h n).ilkOn.length = 4) ∧
    (∃ (h : Half) (n : Nat) (i : Nat) (t0 : Nat) (s : State), (s.w.fn h n).ilkOff.getD i none = some t0 ∧ s.w.now < t0 + 200000000) ∧
    (∃ (h : Half) (n : Nat) (s : State), 1 ≤ n ∧ n < 30 ∧ s.w.holdExpired h n = true ∧ (s.w.fn h n).holdOver = false) ∧
    (∃ (h : Half) (n : Nat) (s : State), n < 30 ∧ (s.w.fn h n).off ≠ 0 ∧ (s.w.fn h n).offAt + 30000000 ≤ s.w.now) ∧
    (∃ (h : Half) (n : Nat) (s : State), n < 30 ∧ s.w.now < (s.w.fn h n).offAt + 30000000) ∧
    (∃ (h : Half) (n : Nat) (s : State), n < 30 ∧ (s.w.func h n).law = 5 ∧ (s.w.fn h n).ran = true ∧ (s.w.fn h n).seqOn = true ∧
      (s.w.fn h n).ovr = .none ∧ ((s.w.table h n).getD (s.w.fn h n).step {}).timeout ≠ 0 ∧
      ((s.w.table h n).getD (s.w.fn h n).step {}).next ≠ 0xFF ∧
      (s.w.fn h n).stepAt + ((s.w.table h n).getD (s.w.fn h n).step {}).timeout * 10000000 ≤ s.w.now) ∧
    (∃ (h : Half) (init : Nat) (n : Nat) (s : State), n < 30 ∧ (s.w.func h n).law = 5) ∧
    (∃ (h : Half) (init : Nat) (n : Nat) (s : State), n < 30) ∧
    (∃ (h : Half) (init : Nat) (n : Nat) (s : State), n < 30 ∧ (s.w.func h n).law = 5) ∧
    (∃ (h : Half) (init : Nat) (n : Nat) (on : Bool) (s : State), n < 30 ∧ (s.w.func h n).manOk = true) ∧
    (∃ (h : Half) (init : Nat) (n : Nat) (on : Bool) (s : State), (s.w.func h n).manOk = false) :=
  ⟨⟨.A, 2, 1, 0, st fun w => { w.updSet .A fun e => { e with fn := [(2, { ilkOn := [true, true, false, false], ilkOff := [none, some 0, none, none] })] } with now := 200000000 },
      by decide +kernel⟩,
   ⟨.A, 2, 1, 0, st fun w => { w.updSet .A fun e => { e with fn := [(2, { ilkOn := [true, true, false, false], ilkOff := [none, some 0, none, none] })] } with now := 199999999 },
      by decide +kernel⟩,
   ⟨.A, 2, st fun w => { w.updSet .A fun e => { e with fn := [(2, { conflictAt := some 0 })], sec := { recs := [{}, {}, { holdT := 5 }] } } with now := 50000000 },
      by decide +kernel⟩,
   ⟨.A, 2, st fun w => { w.updSet .A fun e => { e with fn := [(2, { off := 1, offAt := 0 })] } with now := 30000000 }, by decide +kernel⟩,
   ⟨.A, 2, st fun w => { w.updSet .A fun e => { e with fn := [(2, { off := 1, offAt := 1 })] } with now := 30000000 }, by decide +kernel⟩,
   ⟨.A, 1, st fun w => { w.updSet .A fun e => { e with fn := [(1, { ran := true, seqOn := true })], sec := { recs := [{}, { law := 5, tab := 0 }], tabs := [[{ timeout := 3, next := 1, onTo := 1 }, {}]] } } with now := 30000000 },
      by decide +kernel⟩,
   ⟨.A, 0, 1, st fun w => w.updSet .A fun e => { e with sec := { recs := [{}, { law := 5 }] } }, by decide +kernel⟩,
   ⟨.A, 0, 29, st id, by decide +kernel⟩,
   ⟨.A, 0, 1, st fun w => w.updSet .A fun e => { e with fn := [(1, { seqOn := true })], sec := { recs := [{}, { law := 5 }] } },
      by decide +kernel⟩,
   ⟨.A, 0, 1, true, st fun w => w.updSet .A fun e => { e with sec := { recs := [{}, { manOk := true }] } }, by decide +kernel⟩,
   ⟨.A, 0, 1, true, st id, by decide +kernel⟩⟩

theorem witness_failedRoastTouchesNothing : ∃ (h : Half) (s : State), (s.w.run.get h).running = true ∧ s.w.sessState h 6 = 2 ∧
      (s.w.sess h 6).written ≠ [] ∧ ((∀ i, i < blockCount (s.w.sess h 6).len → i ∈ (s.w.sess h 6).written)) ∧
      (verify (s.w.verEnv h (s.w.sess h 6).tech) (s.w.region h 6).bytes).res ≠ 0 :=
  ⟨.A, (st fun w => (w.wr .A F.UPD_SESS.STATE 6 2).updSess .A 6 { w.sess .A 6 with written := [0], len := 1 }), by decide +kernel⟩

theorem witness_steeringEngages :
    (∃ (h : Half) (init : Nat) (s : State), s.w.flag h F.SET_STEER_STATUS.ARMED = true ∧ s.w.flag h F.SET_STEER_STATUS.ENGAGED = false ∧
      s.w.fnRuns s.own h 0 = true ∧ s.w.armed h true = true) ∧
    (∃ (h : Half) (init : Nat) (s : State), s.w.flag h F.SET_STEER_STATUS.ARMED = false) ∧
    (∃ (h : Half) (init : Nat) (s : State), s.w.flag h F.SET_STEER_STATUS.ENGAGED = true) ∧
    (∃ (h : Half) (init : Nat) (s : State), s.w.flag h F.SET_STEER_STATUS.ENGAGED = false) ∧
    (∃ (h : Half) (s : State) (t0 : Nat), s.w.flag h F.SET_STEER_STATUS.ENGAGED = true ∧ (s.w.set.get h).steer.lowQAt = some t0 ∧
      t0 + 1000000000 ≤ s.w.now) ∧
    (∃ (h : Half) (s : State) (t0 : Nat), s.w.flag h F.SET_STEER_STATUS.ENGAGED = true ∧ (s.w.set.get h).steer.lowQAt = none ∧
      (s.w.set.get h).steer.speedAt = some t0 ∧ t0 + 500000000 ≤ s.w.now) ∧
    (∃ (h : Half) (s : State), (s.w.set.get h).steer.lowQAt = none ∧ (s.w.set.get h).steer.speedAt = none) ∧
    (∃ (h : Half) (init : Nat) (s : State), (s.w.set.get h).steer.alertOn = true) ∧
    (∃ (h : Half) (s : State), (s.w.set.get h).steer.alertOn = true ∧
      (s.w.set.get h).steer.alertAt + (s.w.funcs h).steer.alertMs * 1000000 ≤ s.w.now) ∧
    (∃ (h : Half) (s : State), s.w.now < (s.w.set.get h).steer.alertAt + (s.w.funcs h).steer.alertMs * 1000000) :=
  ⟨⟨.A, 0, st fun w => { ((w.updSet .A fun e => { e with lines := [(0, { type_ := 5, width := 5000 })], sec := { recs := [{ used := true, stateMask := 255 }] } }).wr .A F.SET_STEER_STATUS.ARMED 0 1 |>.wr .A F.SET_LINE_STAT.VALID 0 1 |>.wr .A F.GNS_STATUS.Q 0 5 |>.wr .A F.GNS_STATUS.HDG_OK 0 1) with pose := w.pose.set .A (some {}) },
      by decide +kernel⟩,
   ⟨Half.A, 0, st id, by decide +kernel⟩,
   ⟨Half.A, 0, st fun w => w.wr .A F.SET_STEER_STATUS.ENGAGED 0 1, by decide +kernel⟩,
   ⟨Half.A, 0, st id, by decide +kernel⟩,
   ⟨Half.A, (st fun w => { (w.wr .A F.SET_STEER_STATUS.ENGAGED 0 1).updSteer .A (fun x => { x with lowQAt := some 5 }) with now := 1000000005 }),
      5, by decide +kernel⟩,
   ⟨Half.A, (st fun w => { (w.wr .A F.SET_STEER_STATUS.ENGAGED 0 1).updSteer .A (fun x => { x with speedAt := some 5 }) with now := 500000005 }),
      5, by decide +kernel⟩,
   ⟨Half.A, st id, by decide +kernel⟩,
   ⟨Half.A, 0, st fun w => w.updSteer .A (fun x => { x with alertOn := true, alertMin := true }), by decide +kernel⟩,
   ⟨Half.A, st fun w => { w.updSteer .A (fun x => { x with alertOn := true, alertAck := true }) with now := 10^12 }, by decide +kernel⟩,
   ⟨Half.A, st fun w => w.updSteer .A (fun x => { x with alertAt := 7 }), by decide +kernel⟩⟩

theorem witness_guidanceLines :
    (∃ (h : Half) (init : Nat) (k : Nat) (s : State), (s.w.run.get h).running = true ∧ k < 8 ∧ s.w.rd h F.SET_LINE_STAT.BUSY = 0) ∧
    (∃ (h : Half) (init : Nat) (k : Nat) (s : State), s.w.rd h F.SET_LINE_STAT.BUSY = 1) ∧
    (∃ (h : Half) (k : Nat) (bs : List Byte) (s : State), (s.w.set.get h).loading = some (k, bs) ∧ k < 8) ∧
    (∃ (h : Half) (s : State), (s.w.set.get h).loading = none) ∧
    (∃ (h : Half) (init : Nat) (k : Nat) (s : State), k < 8 ∧ s.w.lineEngaged h k = false) ∧
    (∃ (h : Half) (init : Nat) (k : Nat) (s : State), s.w.lineEngaged h k = true) :=
  ⟨⟨Half.A, 0, 3, st id, by decide +kernel⟩,
   ⟨Half.A, 0, 3, st fun w => w.wr .A F.SET_LINE_STAT.BUSY 0 1, by decide +kernel⟩,
   ⟨Half.A, 3, List.replicate 32 0, st fun w => w.updSet .A fun e => { e with loading := some (3, List.replicate 32 0) },
      by decide +kernel⟩,
   ⟨Half.A, st id, by decide +kernel⟩,
   ⟨Half.A, 0, 3, st fun w => w.wr .A F.SET_LINE_STAT.VALID 0 0xFF, by decide +kernel⟩,
   ⟨Half.A, 0, 3, st fun w => (w.wr .A F.SET_STEER_STATUS.ENGAGED 0 1).wr .A F.SET_STEER_CTRL.LINE 0 3, by decide +kernel⟩⟩

theorem witness_optimizerSolves :
    (∃ (h : Half) (sol : OptSol) (s : State), s.w.optRuns s.own h = true ∧ ((s.w.learnt h).opt.get h).idle = true) ∧
    (∃ (h : Half) (sol : OptSol) (s : State), s.w.optRuns s.own h = true ∧ ((s.w.learnt h).opt.get h).idle = false ∧
      (s.w.learnt h).gradeOf h = 0) ∧
    (∃ (h : Half) (sol : OptSol) (s : State), s.w.optRuns s.own h = true ∧ ((s.w.learnt h).opt.get h).idle = false ∧
      (s.w.learnt h).gradeOf h ≠ 0 ∧ ((s.w.atSolve h).optProb s.own h).valid sol = true ∧ sol.res ≤ 2) ∧
    (∃ (h : Half) (sol : OptSol) (s : State), s.w.optRuns s.own h = true ∧ ((s.w.learnt h).opt.get h).idle = false ∧
      (s.w.learnt h).gradeOf h ≠ 0 ∧ ((s.w.atSolve h).optProb s.own h).valid sol = true ∧ 3 ≤ sol.res) ∧
    (∃ (h : Half) (sol : OptSol) (s : State), s.w.optRuns s.own h = false) ∧
    (∃ (h : Half) (s : State), s.w.optRuns s.own h = true) ∧
    (∃ (h : Half) (s : State), s.w.optRuns s.own h = false) ∧
    (∃ (h : Half) (i : Nat) (s : State), s.w.optRuns s.own h = true ∧ ((s.w.optm h).vars.getD i {}).dither = true ∧
      i < (s.w.opt.get h).lfsr.length) ∧
    (∃ (h : Half) (init : Nat) (v : Nat) (s : State), v < 3) ∧
    (∃ (h : Half) (init : Nat) (v : Nat) (s : State), 3 ≤ v) ∧
    (∃ (h : Half) (init : Nat) (v : Nat) (s : State), v < (s.w.optm h).profs.length ∧ v < 8 ∧ v ≠ s.w.rd h F.SET_OPT_CTRL.PROFILE ∧
      (s.w.opt.get h).first = false) ∧
    (∃ (h : Half) (init : Nat) (v : Nat) (s : State), (s.w.optm h).profs.length ≤ v) ∧
    (∃ (h : Half) (init : Nat) (s : State), (s.w.opt.get h).sec.isSome = true) ∧
    (∃ (h : Half) (init : Nat) (which : Nat) (v : Nat) (s : State), 1 ≤ which ∧ which ≤ 4 ∧ v < 2 ^ 32 ∧
      (s.w.optm h).tgtMaxOf which = none ∧ (which = 1 ∨ 0 ≤ f32Val v) ∧ (s.w.optm h).cons = []) ∧
    (∃ (h : Half) (init : Nat) (which : Nat) (v : Nat) (s : State) (top : Rat), 1 ≤ which ∧ which ≤ 4 ∧
      (s.w.optm h).tgtMaxOf which = some top ∧ top < f32Val v) :=
  ⟨⟨Half.A, ⟨0, 5, 100, [], [], []⟩, st fun w => (w.wr .A F.SET_CTRL.RUN 0 1).updOpt .A fun o => { o with sec := some {} },
      by decide +kernel⟩,
   ⟨Half.A, ⟨0, 5, 100, [], [], []⟩, st fun w => (w.wr .A F.SET_CTRL.RUN 0 1).updOpt .A fun o => { o with sec := some {}, idle := false },
      by decide +kernel⟩,
   ⟨Half.A, ⟨0, 5, 100, [0], [0, 0], []⟩, st fun w => ((w.wr .A F.SET_CTRL.RUN 0 1).wr .A F.GRD_STATUS.GRADE 0 1).updOpt .A fun o => { o with sec := some { vars := [{ kind := 2 }] }, idle := false },
      by decide +kernel⟩,
   ⟨Half.A, ⟨4, 64, 100, [], [], []⟩, st fun w => ((w.wr .A F.SET_CTRL.RUN 0 1).wr .A F.GRD_STATUS.GRADE 0 1).updOpt .A fun o => { o with sec := some { vars := [{ kind := 2 }] }, idle := false },
      by decide +kernel⟩,
   ⟨Half.A, ⟨4, 64, 100, [], [], []⟩, st id, by decide +kernel⟩,
   ⟨Half.A, st fun w => (w.wr .A F.SET_CTRL.RUN 0 1).updOpt .A fun o => { o with sec := some { vars := [{ kind := 2 }] } },
      by decide +kernel⟩,
   ⟨Half.A, st id, by decide +kernel⟩,
   ⟨Half.A, 0, st fun w => (w.wr .A F.SET_CTRL.RUN 0 1).updOpt .A fun o => { o with sec := some { vars := [{ dither := true }] }, lfsr := [1] },
      by decide +kernel⟩,
   ⟨Half.A, 0, 2, st id, by decide +kernel⟩,
   ⟨Half.A, 0, 3, st id, by decide +kernel⟩,
   ⟨Half.A, 0, 1, st fun w => w.updOpt .A fun o => { o with sec := some { profs := [{}, {}], outs := [{}] }, first := false },
      by decide +kernel⟩,
   ⟨Half.A, 0, 1, st id, by decide +kernel⟩,
   ⟨Half.A, 0, st fun w => w.updOpt .A fun o => { o with sec := some { profs := [{}, {}], outs := [{}] }, first := false },
      by decide +kernel⟩,
   ⟨Half.A, 0, 1, 0x3F800000, st id, by decide +kernel⟩,
   ⟨Half.A, 0, 2, 0x40000000, (st fun w => w.updOpt .A fun o => { o with sec := some { cons := [{ tgt := 2, tgtMax := 1 }] } }), 1,
      by decide +kernel⟩⟩

theorem witness_recipeInstructions :
    (∃ (ch : Nat) (v : Nat) (s : State), s.w.word ch = some v ∧ bitsOf v 27 5 = 0x00) ∧
    (∃ (ch : Nat) (v : Nat) (s : State), s.w.word ch = some v ∧ bitsOf v 27 5 = 0x01) ∧
    (∃ (ch : Nat) (v : Nat) (s : State), s.w.word ch = some v ∧ bitsOf v 27 5 = 0x02 ∧ bitsOf v 25 2 = 0) ∧
    (∃ (ch : Nat) (v : Nat) (s : State), s.w.word ch = some v ∧ bitsOf v 27 5 = 0x02 ∧ (bitsOf v 25 2 = 1 ∨ bitsOf v 25 2 = 2 ∧
      s.w.flag .A F.VLV_STATUS.DUTY_HW ch = true)) ∧
    (∃ (ch : Nat) (v : Nat) (s : State), s.w.word ch = some v ∧ bitsOf v 27 5 = 0x02 ∧ bitsOf v 25 2 = 2 ∧
      s.w.flag .A F.VLV_STATUS.DUTY_HW ch = false) ∧
    (∃ (ch : Nat) (v : Nat) (s : State), s.w.word ch = some v ∧ bitsOf v 27 5 = 0x03) ∧
    (∃ (ch : Nat) (v : Nat) (s : State), s.w.word ch = some v ∧ bitsOf v 27 5 = 0x04 ∧ bitsOf (s.w.param ch (bitsOf v 22 4)) 0 16 ≠ 0 ∧
      (s.w.eng ch).ramp = none) ∧
    (∃ (ch : Nat) (v : Nat) (s : State), s.w.word ch = some v ∧ bitsOf v 27 5 = 0x05) ∧
    (∃ (ch : Nat) (v : Nat) (s : State), s.w.word ch = some v ∧ bitsOf v 27 5 = 0x06) ∧
    (∃ (ch : Nat) (v : Nat) (s : State), s.w.word ch = some v ∧ bitsOf v 27 5 = 0x07) ∧
    (∃ (ch : Nat) (v : Nat) (s : State), s.w.word ch = some v ∧ bitsOf v 27 5 = 0x08 ∧ s.w.rd .A F.VLV_STATUS.SRC ch = 0) ∧
    (∃ (ch : Nat) (v : Nat) (s : State), s.w.word ch = some v ∧ bitsOf v 27 5 = 0x09) ∧
    (∃ (ch : Nat) (v : Nat) (s : State), s.w.word ch = some v ∧ bitsOf v 27 5 = 0x0A) ∧
    (∃ (ch : Nat) (v : Nat) (s : State), s.w.word ch = some v ∧ bitsOf v 27 5 = 0x0B) ∧
    (∃ (ch : Nat) (v : Nat) (s : State) (n : Nat), s.w.word ch = some v ∧ bitsOf v 27 5 = 0x0C ∧ (s.w.eng ch).ctr.length = 2 ∧
      n = ((s.w.eng ch).ctr.getD (bitsOf v 26 1) none).getD (bitsOf v 16 10) - 1) ∧
    (∃ (ch : Nat) (v : Nat) (s : State), s.w.word ch = some v ∧ bitsOf v 27 5 = 0x0D) ∧
    (∃ (ch : Nat) (v : Nat) (s : State), s.w.word ch = some v ∧ bitsOf v 27 5 = 0x0E) ∧
    (∃ (ch : Nat) (i : Nat) (v : Int) (x : Nat) (s : State), s.w.word ch = some x ∧ bitsOf x 27 5 = 0x0F ∧ (s.w.eng ch).wk.length = 4) ∧
    (∃ (ch : Nat) (i : Nat) (v : Int) (x : Nat) (s : State), s.w.word ch = some x ∧ bitsOf x 27 5 = 0x10) ∧
    (∃ (ch : Nat) (v : Nat) (c : Instr) (s : State), s.w.word ch = some v ∧ c ∈ ([.halt ch, .phase ch, .src ch, .seti ch, .ramp ch,
      .wait ch, .waiti ch, .waitk ch, .dith ch, .pwmv ch, .jmp ch, .jc ch, .loop ch, .evt ch, .off ch] : List Instr) ∧
      0x10 ≤ bitsOf v 27 5) ∧
    (∃ (ch : Nat) (parity : Bool) (s : State), s.w.rd .A F.VLV_STATUS.RUN ch = 1 ∧ (parity = true ∨ (s.w.eng ch).wait = .none ∧
      (s.w.eng ch).req = none ∧ s.w.word ch = none)) ∧
    (∃ (ch : Nat) (v : Nat) (s : State), s.w.word ch = some v ∧ 0x11 ≤ bitsOf v 27 5) :=
  ⟨⟨0, 0, rcp 0 fun w => w.wr .A F.VLV_STATUS.SRC 0 1, by decide +kernel⟩,
   ⟨0, 0x0D600000, rcp 0x0D600000 fun w => w.updEng 0 fun e => { e with pend := some 2 }, by decide +kernel⟩,
   ⟨0, 0x10000000, rcp 0x10000000 fun w => w.wr .A F.VLV_STATUS.SRC 0 1, by decide +kernel⟩,
   ⟨0, 0x14000000, rcp 0x14000000 fun w => w.wr .A F.VLV_STATUS.DUTY_HW 0 1, by decide +kernel⟩,
   ⟨0, 0x14000000, rcp 0x14000000 fun w => w.wr .A F.VLV_TILE.RAIL 0 4500, by decide +kernel⟩,
   ⟨0, 0x18001000, rcp 0x18001000 fun w => w.wr .A F.VLV_STATUS.SRC 0 1, by decide +kernel⟩,
   ⟨0, 0x20001000, rcp 0x20001000 fun w => w.wr .A F.VLV_STATUS.SRC 0 1, by decide +kernel⟩,
   ⟨0, 0x28030005, rcp 0x28030005 id, by decide +kernel⟩,
   ⟨0, 0x30001005, rcp 0x30001005 fun w => w.updEng 0 fun e => { e with timeout := true }, by decide +kernel⟩,
   ⟨0, 0x38001005, rcp 0x38001005 fun w => w.updEng 0 fun e => { e with kink := true }, by decide +kernel⟩,
   ⟨0, 0x42000000, rcp 0x42000000 id, by decide +kernel⟩,
   ⟨0, 0x480000C8, rcp 0x480000C8 id, by decide +kernel⟩,
   ⟨0, 0x50000123, rcp 0x50000123 id, by decide +kernel⟩,
   ⟨0, 0x58400123, rcp 0x58400123 id, by decide +kernel⟩,
   ⟨0, 0x60050002, rcp 0x60050002 id, 4, by decide +kernel⟩,
   ⟨0, 0x680000AB, rcp 0x680000AB id, by decide +kernel⟩,
   ⟨0, 0x70000000, rcp 0x70000000 fun w => w.wr .A F.VLV_STATUS.SRC 0 1, by decide +kernel⟩,
   ⟨0, 5, -7, 0x7C010000, rcp 0x7C010000 id, by decide +kernel⟩,
   ⟨0, 5, -7, 0x80000000, rcp 0x80000000 id, by decide +kernel⟩,
   ⟨0, 0x80000000, .evt 0, rcp 0x80000000 id, by decide +kernel⟩,
   ⟨0, false, rcp 0x80000000 fun w => w.wr .A F.VLV_ENG.PC 0 1, by decide +kernel⟩,
   ⟨0, 0x88000000, rcp 0x88000000 id, by decide +kernel⟩⟩

theorem witness_recipeWaitsEnd :
    (∃ (ch : Nat) (ends : Nat) (brk : Bool) (cmd : Bool) (s : State), (s.w.eng ch).wait = .time ends brk cmd ∧
      (ends ≤ s.w.now ∨ brk = true ∧ s.w.flag .A F.VLV_STATUS.CMD ch ≠ cmd)) ∧
    (∃ (ch : Nat) (ends : Nat) (cmd : Bool) (s : State), (s.w.eng ch).wait = .time ends false cmd ∧ s.w.now < ends) ∧
    (∃ (ch : Nat) (i : Nat) (below : Bool) (thr : Nat) (ends : Nat) (s : State), (s.w.eng ch).wait = .cross below thr ends) ∧
    (∃ (ch : Nat) (k : Nat) (start : Nat) (opens : Nat) (closes : Nat) (thr : Nat) (s : State),
      (s.w.eng ch).wait = .kink false start opens closes thr ∧ opens ≤ k ∧ k ≤ closes ∧ k ≤ s.w.now) ∧
    (∃ (ch : Nat) (k : Nat) (start : Nat) (opens : Nat) (closes : Nat) (thr : Nat) (s : State),
      (s.w.eng ch).wait = .kink true start opens closes thr ∧ opens ≤ k ∧ k ≤ closes ∧ k ≤ s.w.now) ∧
    (∃ (ch : Nat) (close : Bool) (start : Nat) (opens : Nat) (closes : Nat) (thr : Nat) (s : State),
      (s.w.eng ch).wait = .kink close start opens closes thr ∧ closes ≤ s.w.now) ∧
    (∃ (ch : Nat) (k : Nat) (close : Bool) (start : Nat) (opens : Nat) (closes : Nat) (thr : Nat) (s : State),
      (s.w.eng ch).wait = .kink close start opens closes thr ∧ (k < opens ∨ closes < k ∨ s.w.now < k)) :=
  ⟨⟨0, 5, true, true, rcp 0 fun w => w.updEng 0 fun e => { e with wait := .time 5 true true }, by decide +kernel⟩,
   ⟨0, 5, true, rcp 0 fun w => w.updEng 0 fun e => { e with wait := .time 5 false true }, by decide +kernel⟩,
   ⟨0, 2000, false, 1000, 5, rcp 0 fun w => w.updEng 0 fun e => { e with wait := .cross false 1000 5 }, by decide +kernel⟩,
   ⟨0, 1000, 0, 500, 2000, 9, rcp 0 fun w => { w.updEng 0 fun e => { e with wait := .kink false 0 500 2000 9 } with now := 1500 },
      by decide +kernel⟩,
   ⟨0, 1000, 100, 500, 2000, 9, rcp 0 fun w => { w.updEng 0 fun e => { e with wait := .kink true 100 500 2000 9 } with now := 1500 },
      by decide +kernel⟩,
   ⟨0, true, 100, 500, 2000, 9, rcp 0 fun w => { w.updEng 0 fun e => { e with wait := .kink true 100 500 2000 9 } with now := 2500 },
      by decide +kernel⟩,
   ⟨0, 300, true, 100, 500, 2000, 9, rcp 0 fun w => { w.updEng 0 fun e => { e with wait := .kink true 100 500 2000 9 } with now := 2500 },
      by decide +kernel⟩⟩

theorem witness_valveChannelCommands :
    (∃ (h : Half) (init : Nat) (s : State) (ch : Nat), s.own.alive h = true ∧ s.w.rd h F.VLV_SEL.CH init = ch ∧ ch < 96 ∧
      (s.w.tileSt (tileOf ch)).ready = true ∧ s.own.owns h ch = true ∧ s.w.safeOn ch = false ∧ (s.w.chanRef ch).ref ≠ 0) ∧
    (∃ (h : Half) (init : Nat) (s : State) (ch : Nat), s.own.alive h = true ∧ s.w.rd h F.VLV_SEL.CH init = ch ∧ ch < 96 ∧
      (s.w.tileSt (tileOf ch)).ready = true ∧ s.own.owns h ch = true ∧ s.w.safeOn ch = false ∧ (s.w.chanRef ch).ref = 0) ∧
    (∃ (h : Half) (init : Nat) (s : State) (ch : Nat), s.own.alive h = true ∧ s.w.rd h F.VLV_SEL.CH init = ch ∧ ch < 96 ∧
      (s.w.tileSt (tileOf ch)).ready = true ∧ s.own.owns h ch = true ∧ s.w.safeOn ch = false) ∧
    (∃ (h : Half) (init : Nat) (v : Nat) (s : State) (ch : Nat), s.own.alive h = true ∧ s.w.rd h F.VLV_SEL.CH init = ch ∧ ch < 96 ∧
      (s.w.tileSt (tileOf ch)).ready = true ∧ s.own.owns h ch = true ∧ s.w.safeOn ch = false) ∧
    (∃ (h : Half) (init : Nat) (s : State) (ch : Nat), s.own.alive h = true ∧ s.w.rd h F.VLV_SEL.CH init = ch ∧ ch < 96 ∧
      (s.w.tileSt (tileOf ch)).ready = true ∧ s.own.owns h ch = true ∧ s.w.safeOn ch = false) ∧
    (∃ (h : Half) (init : Nat) (s : State) (ch : Nat), s.own.alive h = true ∧ s.w.rd h F.VLV_SEL.CH init = ch ∧ ch < 96 ∧
      (s.w.tileSt (tileOf ch)).ready = true ∧ s.own.owns h ch = true ∧ s.w.safeOn ch = false) ∧
    (∃ (h : Half) (init : Nat) (s : State) (ch : Nat), s.own.alive h = true ∧ s.w.rd h F.VLV_SEL.CH init = ch ∧ ch < 96 ∧
      s.own.ownsAny h (16 * (ch / 16)) 16 = true) ∧
    (∃ (h : Half) (init : Nat) (on : Bool) (v : Nat) (c : Instr) (s : State) (ch : Nat), c ∈ [Instr.vlvCommand h init on,
      .vlvSetpointWrite h init v, .vlvClrFault h init, .vlvKnock h init] ∧ s.own.alive h = true ∧ s.w.rd h F.VLV_SEL.CH init = ch ∧
      ch < 96 ∧ (s.w.tileSt (tileOf ch)).ready = true ∧ s.own.owns h ch = false) ∧
    (∃ (h : Half) (init : Nat) (on : Bool) (v : Nat) (c : Instr) (s : State), c ∈ [Instr.vlvCommand h init on, .vlvSetpointWrite h init v,
      .vlvClrFault h init, .vlvKnock h init] ∧
      (s.own.alive h = false ∨ (s.w.tileSt (tileOf (s.w.rd h F.VLV_SEL.CH init))).ready = false ∨ s.w.safeOn (s.w.rd h F.VLV_SEL.CH init) = true ∧
      s.own.owns h (s.w.rd h F.VLV_SEL.CH init) = true)) :=
  ⟨⟨.A, 0, rcp 0 id, 0, by decide +kernel⟩,
   ⟨.A, 0, (stO [1] fun w => (w.updTile 0 fun t => { t with ready := true }).wr .A F.VLV_SEL.CH 0 1), 1, by decide +kernel⟩,
   ⟨.A, 0, (rcp 0 fun w => (w.wr .A F.VLV_STATUS.CMD 0 1).wr .A F.VLV_STATUS.GREEN 0 1), 0, by decide +kernel⟩,
   ⟨.A, 0, 9500, (rcp 0 fun w => w.updEng 0 fun e => { e with track := true }), 0, by decide +kernel⟩,
   ⟨.A, 0, (rcp 0 fun w => w.wr .A F.VLV_STATUS.FAULT 0 3), 0, by decide +kernel⟩,
   ⟨.A, 0, (rcp 0 fun w => w.wr .A F.VLV_STATUS.SRC 0 2), 0, by decide +kernel⟩,
   ⟨.A, 0, (rcp 0 fun w => w.wr .A F.VLV_CNT.RELEASES 3 77), 0, by decide +kernel⟩,
   ⟨.B, 5, true, 7, .vlvKnock .B 5, rcp 0 id, 0, by decide +kernel⟩,
   ⟨.B, 5, true, 7, .vlvKnock .B 5, State.reset, by decide +kernel⟩⟩

theorem witness_valveEngineStarts :
    (∃ (ch : Nat) (s : State) (r : Recipe), s.w.mayStart ch = true ∧ s.w.twin ch = none ∧ (s.w.eng ch).level = none ∧
      ((s.w.tileSt (tileOf ch)).bank (s.w.rd .A F.VLV_TILE.ACT_BANK (tileOf ch))).recs[(s.w.chanRef ch).slot]? = some r ∧
      s.w.rd .A F.STW_SVC_STAT.STATE ≠ 2) ∧
    (∃ (ch : Nat) (s : State), s.w.mayStart ch = false) ∧
    (∃ (bank : Nat) (ch : Nat) (s : State), s.w.waiting bank = [ch] ∧ (s.w.eng ch).req.map (·.boost) = some true ∧
      s.w.boostFree ch = true) ∧
    (∃ (bank : Nat) (ch : Nat) (s : State), s.w.waiting bank = [ch] ∧ (s.w.eng ch).req.map (·.boost) = some false ∧ s.w.fits ch = true) ∧
    (∃ (bank : Nat) (s : State), s.w.waiting bank = []) ∧
    (∃ (ch : Nat) (s : State) (r : Req), (s.w.eng ch).req = some r ∧ r.late = false ∧ r.since + 2000000 ≤ s.w.now) ∧
    (∃ (ch : Nat) (s : State) (r : Req), (s.w.eng ch).req = some r ∧ s.w.now < r.since + 2000000) ∧
    (∃ (ch : Nat) (p : Nat) (s : State), s.w.twin ch = some p ∧ s.w.twinLine p = false ∧ s.w.twinLine ch = true ∧
      s.w.rd .A F.VLV_STATUS.TWIN_SOLO ch = 0) ∧
    (∃ (ch : Nat) (p : Nat) (s : State), s.w.twin ch = some p ∧ s.w.twinLine p = true) ∧
    (∃ (ch : Nat) (p : Nat) (s : State) (r : Recipe), s.w.twin ch = some p ∧ s.w.twinLine ch = true ∧
      s.w.rd .A F.VLV_STATUS.TWIN_SOLO p = 1 ∧ s.w.mayStart ch = true ∧
      ((s.w.tileSt (tileOf ch)).bank (s.w.rd .A F.VLV_TILE.ACT_BANK (tileOf ch))).recs[(s.w.chanRef ch).slot]? = some r) ∧
    (∃ (ch : Nat) (p : Nat) (s : State), s.w.twin ch = some p ∧ s.w.rd .A F.VLV_STATUS.TWIN_SOLO p = 0) ∧
    (∃ (ch : Nat) (p : Nat) (t0 : Nat) (s : State), s.w.twin ch = some p ∧ (s.w.eng ch).merge = some t0 ∧ t0 + 10000000 ≤ s.w.now) ∧
    (∃ (ch : Nat) (t0 : Nat) (s : State), (s.w.eng ch).merge = some t0 ∧ s.w.now < t0 + 10000000) :=
  ⟨⟨0, (rcp 0 fun w => (w.wr .A F.VLV_STATUS.RUN 0 0).wr .A F.VLV_STATUS.CMD 0 1),
      { code := [0], iMax := 9000, iCont := 3000, dutyWin := 2, dutyMax := 800, coilR := 10, holdEntry := 5, par := List.replicate 64 7 },
      by decide +kernel⟩,
   ⟨0, rcp 0 id, by decide +kernel⟩,
   ⟨0, 0, rcp 0 fun w => (w.wr .A F.VLV_TILE.RAIL 0 4100).updEng 0 fun e => { e with req := some ⟨true, 0, true, false⟩ },
      by decide +kernel⟩,
   ⟨0, 0, rcp 0 fun w => w.updEng 0 fun e => { e with req := some ⟨false, 0, true, false⟩, want := 900 }, by decide +kernel⟩,
   ⟨0, rcp 0 id, by decide +kernel⟩,
   ⟨0, (rcp 0 fun w => { w.updEng 0 fun e => { e with req := some ⟨false, 5, true, false⟩, want := 29000 } with now := 2000005 }), ⟨false,
      5, true, false⟩, by decide +kernel⟩,
   ⟨0, (rcp 0 fun w => { w.updEng 0 fun e => { e with req := some ⟨false, 5, true, false⟩, want := 29000 } with now := 2000004 }), ⟨false,
      5, true, false⟩, by decide +kernel⟩,
   ⟨0, 1, rcp 0 fun w => ((((w.wr .A F.VLV_RCP.TWIN 0 1).wr .A F.VLV_RCP.PARTNER 0 1).wr .A F.VLV_TILE.PRESENT 0 1).wr .A F.VLV_STATUS.FAULT 1 2).updEng 0 fun e => { e with tgt := 500, scale := 500 },
      by decide +kernel⟩,
   ⟨0, 1, rcp 0 fun w => (((w.wr .A F.VLV_RCP.TWIN 0 1).wr .A F.VLV_RCP.PARTNER 0 1).wr .A F.VLV_TILE.PRESENT 0 1), by decide +kernel⟩,
   ⟨0, 1, (rcp 0 fun w => (((((w.wr .A F.VLV_RCP.TWIN 0 1).wr .A F.VLV_RCP.PARTNER 0 1).wr .A F.VLV_TILE.PRESENT 0 1).wr .A F.VLV_STATUS.RUN 0 0).wr .A F.VLV_STATUS.CMD 0 1).wr .A F.VLV_STATUS.TWIN_SOLO 1 1),
      { code := [0], iMax := 9000, iCont := 3000, dutyWin := 2, dutyMax := 800, coilR := 10, holdEntry := 5, par := List.replicate 64 7 },
      by decide +kernel⟩,
   ⟨0, 1, rcp 0 fun w => ((w.wr .A F.VLV_RCP.TWIN 0 1).wr .A F.VLV_RCP.PARTNER 0 1), by decide +kernel⟩,
   ⟨0, 1, 7, rcp 0 fun w => { ((w.wr .A F.VLV_RCP.TWIN 0 1).wr .A F.VLV_RCP.PARTNER 0 1).updEng 0 fun e => { e with merge := some 7 } with now := 10000007 },
      by decide +kernel⟩,
   ⟨0, 7, rcp 0 fun w => { ((w.wr .A F.VLV_RCP.TWIN 0 1).wr .A F.VLV_RCP.PARTNER 0 1).updEng 0 fun e => { e with merge := some 7 } with now := 10000006 },
      by decide +kernel⟩⟩

theorem witness_valveFaults :
    (∃ (ch : Nat) (i : Nat) (s : State), 14000 ≤ i) ∧
    (∃ (ch : Nat) (i : Nat) (s : State), i < 14000) ∧
    (∃ (ch : Nat) (i : Nat) (s : State), s.w.rd .A F.VLV_STATUS.SRC ch ≠ 0 ∧ i < 100 ∧
      (10 * i < s.w.effTarget ch ∨ (s.w.eng ch).drive ≠ .current)) ∧
    (∃ (ch : Nat) (i : Nat) (s : State), (s.w.rd .A F.VLV_STATUS.SRC ch = 0 ∨ 100 ≤ i)) ∧
    (∃ (k : Nat) (temp : Int) (s : State), 150 ≤ temp) ∧
    (∃ (k : Nat) (temp : Int) (s : State), temp < 150) ∧
    (∃ (bank : Nat) (i : Nat) (s : State), 36000 ≤ i) ∧
    (∃ (bank : Nat) (i : Nat) (s : State), i < 36000) ∧
    (∃ (k : Nat) (s : State), s.w.rd .A F.VLV_TILE.PRESENT k = 1) ∧
    (∃ (k : Nat) (s : State), s.w.rd .A F.VLV_TILE.PRESENT k = 0) ∧
    (∃ (k : Nat) (s : State), k < 6 ∧ s.w.rd .A F.VLV_TILE.PRESENT k = 0 ∧ s.w.loads .A = false ∧ s.w.loads .B = false) ∧
    (∃ (k : Nat) (rail : Nat) (serial : List Byte) (cal : List (List Byte)) (s : State), k < 6 ∧ s.w.rd .A F.VLV_TILE.PRESENT k = 1 ∧
      (s.w.tileSt k).ready = false ∧ 4400 < rail ∧ s.tileLoaded k = true) ∧
    (∃ (k : Nat) (rail : Nat) (serial : List Byte) (cal : List (List Byte)) (s : State), rail ≤ 4400) ∧
    (∃ (ch : Nat) (c : Bool) (s : State), s.w.rd .A F.VLV_CTRL.PROBE_EN (tileOf ch) = 1 ∧ s.w.rd .A F.VLV_TILE.PRESENT (tileOf ch) = 1 ∧
      s.w.rd .A F.VLV_STATUS.RUN ch = 0 ∧ s.w.rd .A F.VLV_STATUS.CMD ch = 0 ∧ s.w.rd .A F.VLV_CUR.I ch = 0 ∧
      s.w.rd .A F.VLV_STATUS.FAULT ch = 0 ∧ (s.w.eng ch).level = none ∧ (s.w.eng ch).gramp = none ∧ s.w.rd .A F.STW_SVC_STAT.STATE ≠ 2 ∧
      s.w.rd .B F.STW_SVC_STAT.STATE ≠ 2) ∧
    (∃ (ch : Nat) (c : Bool) (s : State), (s.w.rd .A F.VLV_CTRL.PROBE_EN (tileOf ch) = 0 ∨ s.w.rd .A F.VLV_STATUS.RUN ch = 1)) ∧
    (∃ (ch : Nat) (v : Nat) (i : Nat) (s : State) (r : Recipe), s.w.recipe ch = some r ∧ s.w.rd .A F.VLV_STATUS.RUN ch = 1 ∧
      (s.w.eng ch).hold = true ∧ (s.w.eng ch).constAt + 20000000 ≤ s.w.now ∧ 0 < i ∧ r.coilR ≠ 0) ∧
    (∃ (ch : Nat) (v : Nat) (i : Nat) (s : State), (s.w.eng ch).hold = false) ∧
    (∃ (ch : Nat) (i : Nat) (s : State) (r : Recipe), s.w.recipe ch = some r) ∧
    (∃ (k : Nat) (v : Nat) (s : State), v < 3000 ∧ s.w.rd .A F.VLV_TILE.BOOST_OK k = 1) ∧
    (∃ (k : Nat) (g : Half) (s : State), (s.w.tileSt k).lock = some g ∧ s.w.roastPrefix .A = s.w.roastPrefix .B) ∧
    (∃ (k : Nat) (s : State), (s.w.tileSt k).lock = none) ∧
    (∃ (k : Nat) (s : State), bankMayActivate s k = true) ∧
    (∃ (k : Nat) (s : State), bankMayActivate s k = false) ∧
    (∃ (ch : Nat) (r : Ramp) (s : State), ch < 96 ∧ (s.w.eng ch).gramp = some r ∧ r.start + r.dur ≤ s.w.now) ∧
    (∃ (n : Nat) (r : Ramp) (s : State), n < 4 ∧ (s.w.fan n).gramp = some r ∧ r.start + r.dur ≤ s.w.now) :=
  ⟨⟨0, 14000, rcp 0 fun w => w.wr .A F.VLV_STATUS.SRC 0 2, by decide +kernel⟩,
   ⟨0, 13999, rcp 0 id, by decide +kernel⟩,
   ⟨0, 99, rcp 0 fun w => (w.wr .A F.VLV_STATUS.SRC 0 2).updEng 0 fun e => { e with tgt := 991, drive := .current }, by decide +kernel⟩,
   ⟨0, 100, rcp 0 id, by decide +kernel⟩,
   ⟨0, 150, rcp 0 id, by decide +kernel⟩,
   ⟨0, -150, rcp 0 id, by decide +kernel⟩,
   ⟨0, 36000, rcp 0 id, by decide +kernel⟩,
   ⟨0, 35999, rcp 0 id, by decide +kernel⟩,
   ⟨0, rcp 0 fun w => w.wr .A F.VLV_TILE.PRESENT 0 1, by decide +kernel⟩,
   ⟨0, rcp 0 id, by decide +kernel⟩,
   ⟨0, rcp 0 id, by decide +kernel⟩,
   ⟨1, 4401, [], [], st fun w => w.wr .A F.VLV_TILE.PRESENT 1 1, by decide +kernel⟩,
   ⟨1, 4400, [], [], st fun w => w.wr .A F.VLV_TILE.PRESENT 1 1, by decide +kernel⟩,
   ⟨20, false, st fun w => (w.wr .A F.VLV_CTRL.PROBE_EN 1 1).wr .A F.VLV_TILE.PRESENT 1 1, by decide +kernel⟩,
   ⟨20, false, st fun w => w.wr .A F.VLV_CTRL.PROBE_EN 1 0, by decide +kernel⟩,
   ⟨0, 1200, 1000, (rcp 0 fun w => { w.updEng 0 fun e => { e with hold := true } with now := 20000000 }),
      { code := [0], iMax := 9000, iCont := 3000, dutyWin := 2, dutyMax := 800, coilR := 10, holdEntry := 5, par := List.replicate 64 7 },
      by decide +kernel⟩,
   ⟨0, 1200, 1000, rcp 0 id, by decide +kernel⟩,
   ⟨0, 1000000, (rcp 0 id), { code := [0], iMax := 9000, iCont := 3000, dutyWin := 2, dutyMax := 800, coilR := 10, holdEntry := 5, par := List.replicate 64 7 },
      by decide +kernel⟩,
   ⟨0, 2999, rcp 0 fun w => (w.wr .A F.VLV_TILE.BOOST_OK 0 1).wr .A F.VLV_STATUS.SRC 3 2, by decide +kernel⟩,
   ⟨0, .B, rcp 0 fun w => w.updTile 0 fun t => { t with lock := some .B }, by decide +kernel⟩,
   ⟨0, rcp 0 id, by decide +kernel⟩,
   ⟨1, st fun w => w.updTile 1 fun t => { t with bank1 := { tag := 5 } }, by decide +kernel⟩,
   ⟨1, st id, by decide +kernel⟩,
   ⟨0, ⟨900, 0, 5, 10⟩, rcp 0 fun w => { w.updEng 0 fun e => { e with gramp := some ⟨900, 0, 5, 10⟩ } with now := 15 }, by decide +kernel⟩,
   ⟨2, ⟨900, 0, 5, 10⟩, rcp 0 fun w => { w.updFan 2 fun e => { e with gramp := some ⟨900, 0, 5, 10⟩ } with now := 15 }, by decide +kernel⟩⟩

theorem witness_switchCommands :
    (∃ (h : Half) (init : Nat) (s : State) (n : Nat), s.own.alive h = true ∧ s.w.rd h F.LSW_SEL.CH init = n ∧ n < 48 ∧
      s.own.owns h (96 + n) = true ∧ s.w.safeOn (96 + n) = false ∧ s.w.rd .A F.LSW_STATUS.CMD n = 0 ∧
      (s.w.profile (s.w.rd .A F.LSW_CMD.PROF n)).isSome = true) ∧
    (∃ (h : Half) (init : Nat) (s : State) (n : Nat), s.own.alive h = true ∧ s.w.rd h F.LSW_SEL.CH init = n ∧ n < 48 ∧
      s.own.owns h (96 + n) = true ∧ s.w.safeOn (96 + n) = false ∧ s.w.rd .A F.LSW_STATUS.CMD n = 0 ∧
      s.w.profile (s.w.rd .A F.LSW_CMD.PROF n) = none) ∧
    (∃ (h : Half) (init : Nat) (s : State) (n : Nat), s.own.alive h = true ∧ s.w.rd h F.LSW_SEL.CH init = n ∧ n < 48 ∧
      s.own.owns h (96 + n) = true ∧ s.w.safeOn (96 + n) = false) ∧
    (∃ (h : Half) (init : Nat) (v : Nat) (s : State) (n : Nat), s.own.alive h = true ∧ s.w.rd h F.LSW_SEL.CH init = n ∧ n < 48 ∧
      s.own.owns h (96 + n) = true ∧ s.w.safeOn (96 + n) = false) ∧
    (∃ (h : Half) (init : Nat) (s : State) (n : Nat), s.own.alive h = true ∧ s.w.rd h F.LSW_SEL.CH init = n ∧ n < 48 ∧
      s.own.owns h (96 + n) = true ∧ s.w.safeOn (96 + n) = false) ∧
    (∃ (h : Half) (init : Nat) (s : State) (n : Nat), s.own.alive h = true ∧ s.w.rd h F.LSW_SEL.CH init = n ∧ n < 48 ∧
      s.own.owns h (96 + n) = true ∧ s.w.safeOn (96 + n) = false) ∧
    (∃ (h : Half) (init : Nat) (s : State) (n : Nat), s.own.alive h = true ∧ s.w.rd h F.LSW_SEL.CH init = n ∧ n < 48 ∧
      s.own.ownsAny h (96 + 16 * (n / 16)) 16 = true) ∧
    (∃ (h : Half) (init : Nat) (on : Bool) (v : Nat) (c : Instr) (s : State) (n : Nat), c ∈ [Instr.lswCommand h init on,
      .lswProfile h init v, .lswClrFault h init, .lswKnock h init] ∧ s.own.alive h = true ∧ s.w.rd h F.LSW_SEL.CH init = n ∧ n < 48 ∧
      s.own.owns h (96 + n) = false) ∧
    (∃ (h : Half) (init : Nat) (on : Bool) (v : Nat) (c : Instr) (s : State), c ∈ [Instr.lswCommand h init on, .lswProfile h init v,
      .lswClrFault h init, .lswKnock h init] ∧ (s.own.alive h = false ∨ 48 ≤ s.w.rd h F.LSW_SEL.CH init)) :=
  ⟨⟨.A, 0, (stO [96] fun w => w.wr .A F.LSW_BANK.PRESENT 0 1), 0, by decide +kernel⟩,
   ⟨.A, 0, (stO [96] fun w => w.wr .A F.LSW_CMD.PROF 0 6), 0, by decide +kernel⟩,
   ⟨.A, 0, (stO [96] fun w => (w.wr .A F.LSW_STATUS.CMD 0 1).wr .A F.LSW_STATUS.STATE 0 4), 0, by decide +kernel⟩,
   ⟨.A, 0, 9, (stO [96] id), 0, by decide +kernel⟩,
   ⟨.A, 0, (stO [96] fun w => (w.wr .A F.LSW_STATUS.FAULT 0 2).wr .A F.LSW_STATUS.STATE 0 6), 0, by decide +kernel⟩,
   ⟨.A, 0, (stO [96] fun w => (w.wr .A F.LSW_STATUS.CMD 0 1).wr .A F.LSW_STATUS.STATE 0 3), 0, by decide +kernel⟩,
   ⟨.A, 0, (stO [96] fun w => (w.wr .A F.LSW_CNT.TRIPS 3 77).wr .A F.LSW_TEMP.TJ 3 55), 0, by decide +kernel⟩,
   ⟨.B, 5, true, 7, .lswKnock .B 5, stO [96] id, 0, by decide +kernel⟩,
   ⟨.B, 5, true, 7, .lswKnock .B 5, State.reset, by decide +kernel⟩⟩

theorem witness_switchProtects :
    (∃ (n : Nat) (p : Profile) (s : State), s.w.profile (s.w.rd .A F.LSW_STATUS.PROF n) = some p ∧ s.w.rd .A F.LSW_STATUS.STATE n = 2 ∧
      (s.w.swSt n).since + p.inrushMs * 1000000 ≤ s.w.now) ∧
    (∃ (n : Nat) (s : State), s.w.rd .A F.LSW_STATUS.STATE n ≠ 2) ∧
    (∃ (n : Nat) (i : Nat) (s : State), (s.w.rd .A F.LSW_STATUS.STATE n = 2 ∨ s.w.rd .A F.LSW_STATUS.STATE n = 3) ∧
      classShort (swClass n) < i) ∧
    (∃ (n : Nat) (i : Nat) (s : State), i ≤ classShort (swClass n)) ∧
    (∃ (n : Nat) (i : Nat) (p : Profile) (s : State), s.w.profile (s.w.rd .A F.LSW_STATUS.PROF n) = some p ∧
      s.w.rd .A F.LSW_STATUS.STATE n = 3 ∧ p.tripPct * s.w.iSet n < 100 * i) ∧
    (∃ (n : Nat) (i : Nat) (p : Profile) (s : State), s.w.profile (s.w.rd .A F.LSW_STATUS.PROF n) = some p ∧
      100 * i ≤ p.tripPct * s.w.iSet n) ∧
    (∃ (n : Nat) (tj : Int) (s : State), (s.w.rd .A F.LSW_STATUS.STATE n = 2 ∨ s.w.rd .A F.LSW_STATUS.STATE n = 3) ∧ 165 ≤ tj) ∧
    (∃ (n : Nat) (tj : Int) (s : State), tj < 165) ∧
    (∃ (n : Nat) (tj : Int) (s : State), s.w.rd .A F.LSW_STATUS.STATE n = 4 ∧ tj < s.w.tRel n ∧ (s.w.swSt n).heldOn = false) ∧
    (∃ (n : Nat) (tj : Int) (s : State), s.w.rd .A F.LSW_STATUS.STATE n = 4 ∧ tj < s.w.tRel n ∧ (s.w.swSt n).heldOn = true ∧
      s.w.swLive n = true ∧ s.w.rd .A F.LSW_STATUS.GREEN n = 0) ∧
    (∃ (n : Nat) (tj : Int) (s : State), s.w.tRel n ≤ tj) ∧
    (∃ (n : Nat) (tj : Int) (s : State), s.w.rd .A F.LSW_STATUS.STATE n = 5 ∧
      (s.w.swSt n).since + (s.w.swCfg n).retryT * 10000000 ≤ s.w.now ∧ tj < s.w.tRel n) ∧
    (∃ (n : Nat) (tj : Int) (s : State), s.w.rd .A F.LSW_STATUS.STATE n ≠ 5) ∧
    (∃ (n : Nat) (s : State), s.w.rd .A F.LSW_STATUS.STATE n = 3 ∧ (s.w.swSt n).since + 10000000000 ≤ s.w.now) ∧
    (∃ (n : Nat) (s : State), s.w.now < (s.w.swSt n).since + 10000000000) ∧
    (∃ (n : Nat) (i : Nat) (s : State), s.w.rd .A F.LSW_STATUS.STATE n = 3 ∧ (s.w.swCfg n).olOnEn = true) ∧
    (∃ (n : Nat) (i : Nat) (s : State), (s.w.swCfg n).olOnEn = false) ∧
    (∃ (n : Nat) (vp : Nat) (vi : Nat) (s : State), s.w.rd .A F.LSW_STATUS.STATE n = 0 ∧ s.w.rd .A F.LSW_STATUS.CMD n = 0 ∧
      s.w.rd .A F.LSW_CTRL.PROBE_EN (n / 16) = 1 ∧ (s.w.swCfg n).probeEn = true) ∧
    (∃ (n : Nat) (vp : Nat) (vi : Nat) (s : State), s.w.rd .A F.LSW_STATUS.STATE n ≠ 0) :=
  ⟨⟨0, fixedProfile 0, st fun w => { w.wr .A F.LSW_STATUS.STATE 0 2 with now := 30000000 }, by decide +kernel⟩,
   ⟨0, st id, by decide +kernel⟩,
   ⟨0, 40001, st fun w => { w.wr .A F.LSW_STATUS.STATE 0 2 with now := 30000000 }, by decide +kernel⟩,
   ⟨0, 40000, st fun w => { w.wr .A F.LSW_STATUS.STATE 0 2 with now := 30000000 }, by decide +kernel⟩,
   ⟨0, 6501, fixedProfile 0, st fun w => (w.wr .A F.LSW_STATUS.STATE 0 3).wr .A F.LSW_STATUS.RETRIES 0 2, by decide +kernel⟩,
   ⟨0, 6500, fixedProfile 0, st fun w => (w.wr .A F.LSW_STATUS.STATE 0 3).wr .A F.LSW_STATUS.RETRIES 0 2, by decide +kernel⟩,
   ⟨0, 165, st fun w => w.wr .A F.LSW_STATUS.STATE 0 3, by decide +kernel⟩,
   ⟨0, 164, st fun w => w.wr .A F.LSW_STATUS.STATE 0 3, by decide +kernel⟩,
   ⟨0, 99, st fun w => w.wr .A F.LSW_STATUS.STATE 0 4, by decide +kernel⟩,
   ⟨0, 99, st fun w => (((w.wr .A F.LSW_STATUS.STATE 0 4).wr .A F.LSW_STATUS.GREEN 0 0).wr .A F.LSW_BANK.PRESENT 0 1).updSw 0 fun x => { x with heldOn := true },
      by decide +kernel⟩,
   ⟨0, 100, st id, by decide +kernel⟩,
   ⟨0, 99, st fun w => (w.wr .A F.LSW_STATUS.STATE 0 5).wr .A F.LSW_STATUS.RETRIES 0 2, by decide +kernel⟩,
   ⟨0, 99, st id, by decide +kernel⟩,
   ⟨0, st fun w => { w.wr .A F.LSW_STATUS.STATE 0 3 with now := 10000000000 }, by decide +kernel⟩,
   ⟨0, st id, by decide +kernel⟩,
   ⟨0, 49, st fun w => let w := w.wr .A F.LSW_STATUS.STATE 0 3; { w with lsw := { w.lsw with load := some { sw := [{ olOnEn := true }] } } },
      by decide +kernel⟩,
   ⟨0, 49, st id, by decide +kernel⟩,
   ⟨0, 251, 9, st fun w => let w := w.wr .A F.LSW_CTRL.PROBE_EN 0 1; { w with lsw := { w.lsw with load := some { sw := [{ probeEn := true }] } } },
      by decide +kernel⟩,
   ⟨0, 251, 9, st fun w => w.wr .A F.LSW_STATUS.STATE 0 3, by decide +kernel⟩⟩

theorem witness_feedBudget :
    (∃ (f : Nat) (n : Nat) (p : Profile) (s : State), s.w.feedGrant f = some n ∧ s.w.rd .A F.LSW_STATUS.STATE n = 1 ∧
      s.w.profile (s.w.rd .A F.LSW_STATUS.PROF n) = some p ∧ (s.w.budget f = none ∨ ∃ b, s.w.budget f = some b ∧
      s.w.claims f + s.w.swClaim n p ≤ b)) ∧
    (∃ (f : Nat) (n : Nat) (p : Profile) (b : Nat) (s : State), s.w.feedGrant f = some n ∧ s.w.rd .A F.LSW_STATUS.STATE n = 1 ∧
      s.w.profile (s.w.rd .A F.LSW_STATUS.PROF n) = some p ∧ s.w.budget f = some b ∧ b < s.w.claims f + s.w.swClaim n p) ∧
    (∃ (n : Nat) (s : State), s.w.rd .A F.LSW_STATUS.STATE n = 1 ∧ (s.w.swSt n).since + 1000000000 ≤ s.w.now ∧
      s.w.rd .A F.LSW_STATUS.WAIT_LONG n = 0) ∧
    (∃ (n : Nat) (s : State), s.w.now < (s.w.swSt n).since + 1000000000) ∧
    (∃ (f : Nat) (i : Nat) (s : State), 600 < i ∧ s.w.rd .A F.LSW_FEED.SHED_STEP f = 0 ∧ f < 2) ∧
    (∃ (f : Nat) (i : Nat) (s : State), i ≤ 600) ∧
    (∃ (f : Nat) (i : Nat) (s : State), f < 2) ∧
    (∃ (f : Nat) (v : Nat) (s : State), v < 450 ∧ f ∉ s.w.lsw.lost) ∧
    (∃ (f : Nat) (v : Nat) (s : State), (450 ≤ v ∨ f ∈ s.w.lsw.lost)) ∧
    (∃ (f : Nat) (v : Nat) (s : State), 800 ≤ v ∧ f ∈ s.w.lsw.lost) ∧
    (∃ (f : Nat) (v : Nat) (s : State), v < 800) ∧
    (∃ (b : Nat) (s : State), s.w.rd .A F.LSW_BANK.PRESENT b = 1) ∧
    (∃ (b : Nat) (s : State), s.w.rd .A F.LSW_BANK.PRESENT b = 0) :=
  ⟨⟨0, 3, fixedProfile 0, st fun w => let w := w.wr .A F.LSW_STATUS.STATE 3 1; { w with lsw := { w.lsw with grant := (some 3, none) } },
      by decide +kernel⟩,
   ⟨0, 3, fixedProfile 0, 1000, st fun w => let w := w.wr .A F.LSW_STATUS.STATE 3 1; { w with lsw := { w.lsw with grant := (some 3, none), load := some { budget0 := 1, sw := [{}, {}, {}, { iSet := 5000 }] } } },
      by decide +kernel⟩,
   ⟨0, st fun w => { w.wr .A F.LSW_STATUS.STATE 0 1 with now := 1000000000 }, by decide +kernel⟩,
   ⟨0, st id, by decide +kernel⟩,
   ⟨0, 601, st fun w => let w := w.wr .A F.LSW_STATUS.STATE 0 3; { w with lsw := { w.lsw with load := some { sw := [{ shed := 3 }] } } },
      by decide +kernel⟩,
   ⟨0, 600, st id, by decide +kernel⟩,
   ⟨0, 601, st fun w => let w := (w.wr .A F.LSW_STATUS.STATE 0 3).wr .A F.LSW_FEED.SHED_STEP 0 1; { w with lsw := { w.lsw with load := some { sw := [{ shed := 2 }] } } },
      by decide +kernel⟩,
   ⟨1, 449, st id, by decide +kernel⟩,
   ⟨1, 450, st id, by decide +kernel⟩,
   ⟨1, 800, st fun w => (w.wr .A F.LSW_STATUS.FAULT 40 4).loseFeed 1, by decide +kernel⟩,
   ⟨1, 799, st fun w => (w.wr .A F.LSW_STATUS.FAULT 40 4).loseFeed 1, by decide +kernel⟩,
   ⟨1, st fun w => w.wr .A F.LSW_BANK.PRESENT 1 1, by decide +kernel⟩,
   ⟨1, st fun w => w.wr .A F.LSW_STATUS.FAULT 17 5, by decide +kernel⟩⟩

theorem witness_inputsSample :
    (∃ (codes : List Nat) (vs : List Nat) (s : State), s.w.rd .A F.UIN_CTRL.SAMPLE_EN = 1) ∧
    (∃ (codes : List Nat) (vs : List Nat) (s : State) (c : BindCfg) (n : Nat), s.w.rd .A F.UIN_CTRL.SAMPLE_EN = 1 ∧
      s.w.uin.cfg.binds = [c] ∧ c.src = 1 ∧ c.mode ≤ 2 ∧ c.obj = 144 + n ∧ c.ratio = false ∧ c.slew = 0) ∧
    (∃ (codes : List Nat) (vs : List Nat) (s : State), s.w.rd .A F.UIN_CTRL.SAMPLE_EN = 0) ∧
    (∃ (n : Nat) (b : Nat) (s : State), s.w.inputBinding n = some b ∧ (s.w.bindCfg b).src = 1) ∧
    (∃ (n : Nat) (b : Nat) (level : Bool) (s : State), s.w.inputBinding n = some b ∧ (s.w.bindCfg b).src = 2 ∧
      (s.w.bindCfg b).obj = 144 + n) ∧
    (∃ (n : Nat) (b : Nat) (level : Bool) (s : State), s.w.inputBinding (n + 1) = some b ∧ (s.w.bindCfg b).src = 2 ∧
      (s.w.bindCfg b).obj = 144 + n) ∧
    (∃ (n : Nat) (b : Nat) (level : Bool) (s : State), s.w.inputBinding n = some b ∧ (s.w.bindCfg b).src = 2 ∧
      (s.w.bindCfg b).obj = 144 + n) ∧
    (∃ (n : Nat) (level : Bool) (both : Bool) (s : State), s.w.inputBinding n = none) ∧
    (∃ (h : Half) (init : Nat) (s : State) (n : Nat) (b : Nat), s.own.alive h = true ∧ s.w.rd h F.UIN_SEL.CH init = n ∧
      s.own.owns h (144 + n) = true ∧ s.w.inputBinding n = some b) ∧
    (∃ (h : Half) (init : Nat) (s : State) (n : Nat), s.own.alive h = true ∧ s.w.rd h F.UIN_SEL.CH init = n ∧
      s.own.owns h (144 + n) = true) ∧
    (∃ (h : Half) (init : Nat) (s : State), s.own.alive h = true ∧ s.own.ownsAny h 144 128 = true) ∧
    (∃ (h : Half) (init : Nat) (c : Instr) (s : State) (n : Nat), c ∈ [Instr.uinKnock h init, .uinPreset h init] ∧ s.own.alive h = true ∧
      s.w.rd h F.UIN_SEL.CH init = n ∧ s.own.owns h (144 + n) = false) :=
  ⟨⟨[7, 70000], [], st fun w => w.wr .A F.UIN_CTRL.SAMPLE_EN 0 1, by decide +kernel⟩,
   ⟨[0, 32768], [], (st fun w => { w.wr .A F.UIN_CTRL.SAMPLE_EN 0 1 with uin := { w.uin with cfg := { binds := [{ src := 1, obj := 145, mode := 1, gain := 2 }] } } }),
      { src := 1, obj := 145, mode := 1, gain := 2 }, 1, by decide +kernel⟩,
   ⟨[7, 70000], [], st fun w => w.wr .A F.UIN_CTRL.SAMPLE_EN 0 0, by decide +kernel⟩,
   ⟨1, 0, st fun w => { w with now := 900, uin := { w.uin with cfg := { binds := [{ src := 1, obj := 145, mode := 5, gain := 2 }] }, comp := [(1, { rise := 300 })] } },
      by decide +kernel⟩,
   ⟨2, 0, false, st fun w => { w with now := 900, uin := { w.uin with cfg := { binds := [{ src := 2, obj := 146, mode := 8, gain := 2 }] } } },
      by decide +kernel⟩,
   ⟨2, 0, true, st fun w => { w with now := 900, uin := { w.uin with cfg := { binds := [{ src := 2, obj := 146, mode := 8, gain := 2 }] } } },
      by decide +kernel⟩,
   ⟨2, 0, true, st fun w => { w with now := 900, uin := { w.uin with cfg := { binds := [{ src := 2, obj := 146, mode := 8, gain := 2 }] } } },
      by decide +kernel⟩,
   ⟨2, true, true, st id, by decide +kernel⟩,
   ⟨.A, 0, (stO [144] fun w => { w with now := 900, uin := { w.uin with cfg := { binds := [{ src := 1, obj := 144, mode := 5, gain := 2 }] } } }),
      0, 0, by decide +kernel⟩,
   ⟨.A, 0, (stO [145] fun w => (w.wr .A F.UIN_SEL.CH 0 1).wr .A F.UIN_PRESET.COUNT 0 99), 1, by decide +kernel⟩,
   ⟨.A, 0, stO [200] fun w => w.wr .A F.UIN_CNT.STALE 9 5, by decide +kernel⟩,
   ⟨.B, 3, .uinPreset .B 3, stO [144] id, 0, by decide +kernel⟩⟩

theorem witness_bindingQuality :
    (∃ (h : Half) (b : Nat) (reason : Nat) (s : State), b < s.w.uin.cfg.binds.length ∧ (s.w.bindCfg b).src ≠ 0 ∧ reason ≠ 0) ∧
    (∃ (h : Half) (b : Nat) (q : Nat) (reason : Nat) (on : Bool) (s : State), b < s.w.uin.cfg.binds.length ∧ (s.w.bindCfg b).src ≠ 0) ∧
    (∃ (h : Half) (b : Nat) (q : Nat) (reason : Nat) (on : Bool) (s : State), s.w.uin.cfg.binds.length ≤ b) ∧
    (∃ (h : Half) (b : Nat) (s : State), (s.w.bindCfg b).src ≠ 0 ∧ (s.w.bindCfg b).tStuck ≠ 0 ∧
      (s.w.bindCfg b).tStuck * 100000000 ≤ (s.w.bindSt h b).stuckClk) ∧
    (∃ (h : Half) (b : Nat) (s : State), ((s.w.bindCfg b).tStuck = 0 ∨ s.w.expected s.srv (s.w.bindCfg b) = false ∧
      (s.w.bindSt h b).stuckClk < (s.w.bindCfg b).tStuck * 100000000)) ∧
    (∃ (h : Half) (k : Nat) (p : TwinCfg) (at_ : Nat) (s : State), s.w.uin.cfg.twins[k]? = some p ∧ NMap.get (0,
      false) s.w.uin.twinAt (s.w.twinKey h k p) = (at_, true) ∧ at_ ≠ 0 ∧ at_ + p.time * 1000000 ≤ s.w.now + 1) ∧
    (∃ (h : Half) (k : Nat) (p : TwinCfg) (at_ : Nat) (s : State), s.w.uin.cfg.twins[k]? = some p ∧ NMap.get (0,
      false) s.w.uin.twinAt (s.w.twinKey h k p) = (at_, false) ∧ at_ ≠ 0 ∧ at_ + p.time * 1000000 ≤ s.w.now + 1) ∧
    (∃ (h : Half) (k : Nat) (p : TwinCfg) (at_ : Nat) (div : Bool) (s : State), s.w.uin.cfg.twins[k]? = some p ∧ NMap.get (0,
      false) s.w.uin.twinAt (s.w.twinKey h k p) = (at_, div) ∧ s.w.now + 1 < at_ + p.time * 1000000) ∧
    (∃ (h : Half) (b : Nat) (v : Nat) (s : State), (s.w.bindCfg b).src = 3 ∧
      (s.w.bindSt h b).slewed (s.w.bindCfg b) (f32Val v) s.w.now = false) ∧
    (∃ (h : Half) (b : Nat) (v : Nat) (s : State), (s.w.bindCfg b).src ≠ 3) :=
  ⟨⟨.A, 0, 2, st fun w => { w with uin := { w.uin with cfg := { binds := [{ src := 1, obj := 144 }] } } }, by decide +kernel⟩,
   ⟨.A, 0, 4, 0, true, st fun w => { w with uin := { w.uin with cfg := { binds := [{ src := 1, obj := 144 }] } } }, by decide +kernel⟩,
   ⟨.A, 0, 4, 0, true, st id, by decide +kernel⟩,
   ⟨.A, 0, st fun w => { w with uin := { w.uin with cfg := { binds := [{ src := 1, obj := 144, tStuck := 1 }] }, bind := [(0, { stuckClk := 100000000 })] } },
      by decide +kernel⟩,
   ⟨.A, 0, st id, by decide +kernel⟩,
   ⟨.A, 0, ⟨0, 1, 5, 3⟩, 1, st fun w => { w with now := 3000000, uin := { w.uin with twinAt := [(0, (1, true))], cfg := { binds := [{ src := 1, obj := 144 }, { src := 1, obj := 145 }], twins := [⟨0, 1, 5, 3⟩] } } },
      by decide +kernel⟩,
   ⟨.A, 0, ⟨0, 1, 5, 3⟩, 1, st fun w => { w with now := 3000000, uin := { w.uin with bind := [(0, { conflict := true })], twinAt := [(0, (1, false))], cfg := { binds := [{ src := 1, obj := 144 }, { src := 1, obj := 145 }], twins := [⟨0, 1, 5, 3⟩] } } },
      by decide +kernel⟩,
   ⟨.A, 0, ⟨0, 1, 5, 3⟩, 1, true, st fun w => { w with now := 2999999, uin := { w.uin with twinAt := [(0, (1, true))], cfg := { binds := [{ src := 1, obj := 144 }, { src := 1, obj := 145 }], twins := [⟨0, 1, 5, 3⟩] } } },
      by decide +kernel⟩,
   ⟨.B, 0, 0x3F800000, st fun w => { w with uin := { w.uin with cfg := { binds := [{ src := 3 }] } } }, by decide +kernel⟩,
   ⟨.B, 0, 0x3F800000, st id, by decide +kernel⟩⟩

theorem witness_supplyFaults :
    (∃ (n : Nat) (i : Nat) (s : State), s.w.rd .A F.UIN_SS.EN n = 1 ∧ s.w.rd .A F.UIN_SS.LEVEL n ≠ 0 ∧ s.w.rd .A F.UIN_SS.FAULT n = 0 ∧
      200 ≤ i) ∧
    (∃ (n : Nat) (i : Nat) (s : State), (i < 200 ∨ s.w.rd .A F.UIN_SS.EN n = 0)) ∧
    (∃ (n : Nat) (limited : Bool) (s : State), s.w.rd .A F.UIN_SS.FAULT n = 1 ∧ (s.w.uin.cfg.supplies.getD n (0, false)).2 = true ∧
      (s.w.supplySt n).offAt + 1000000000 ≤ s.w.now) ∧
    (∃ (n : Nat) (limited : Bool) (s : State), ((s.w.uin.cfg.supplies.getD n (0,
      false)).2 = false ∨ s.w.now < (s.w.supplySt n).offAt + 1000000000)) ∧
    (∃ (h : Half) (init : Nat) (en : Bool) (s : State) (n : Nat), s.own.alive h = true ∧ s.w.rd h F.UIN_SEL.CH init / 8 = n ∧
      s.own.owns h (144 + 8 * n) = true) :=
  ⟨⟨2, 200, st fun w => { (w.wr .A F.UIN_SS.EN 2 1).wr .A F.UIN_SS.LEVEL 2 1 with uin := { w.uin with cfg := { binds := [{ src := 1, obj := 144, supply := 2 }] } } },
      by decide +kernel⟩,
   ⟨2, 199, st fun w => (w.wr .A F.UIN_SS.EN 2 1).wr .A F.UIN_SS.LEVEL 2 1, by decide +kernel⟩,
   ⟨0, true, st fun w => { w.wr .A F.UIN_SS.FAULT 0 1 with now := 1000000000, uin := { w.uin with cfg := { supplies := [(1, true)] } } },
      by decide +kernel⟩,
   ⟨0, true, st id, by decide +kernel⟩,
   ⟨.A, 0, true, (stO [144] fun w => { w.wr .A F.UIN_SS.FAULT 0 1 with uin := { w.uin with supply := [(0, ⟨0, true⟩)] } }), 0,
      by decide +kernel⟩⟩

theorem witness_lossArray :
    (∃ (k : Nat) (peak : Nat) (r : Nat) (z : Nat) (stamp : Nat) (p : List Byte) (s : State), ledgerEntry s.ledger 3 k = some p ∧
      s.w.rd .A F.LOS_CTRL.EN = 1 ∧ (s.w.losSet k).getD 0 0 ≤ (peak : Rat) / (u16At p 0 : Rat) ∧
      ((s.w.elem k).any = false ∨ (s.w.elem k).dead + s.w.uin.cfg.loss.hitDead * 1000 ≤ stamp - r * 1000)) ∧
    (∃ (k : Nat) (peak : Nat) (r : Nat) (z : Nat) (stamp : Nat) (s : State), ledgerEntry s.ledger 3 k = none) ∧
    (∃ (k : Nat) (peak : Nat) (r : Nat) (z : Nat) (stamp : Nat) (s : State), (ledgerEntry s.ledger 3 k).isSome = true ∧
      s.w.rd .A F.LOS_CTRL.EN = 0) ∧
    (∃ (s : State) (k : Nat), k < 64 ∧ s.w.rd .A F.LOS_CTRL.EN = 1 ∧ (s.w.elem k).fault = false ∧ (s.w.elem k).silent = false ∧
      s.w.uin.hits.length * (s.w.uin.cfg.loss.hitDead * 1000) ≤ 50000000) ∧
    (∃ (k : Nat) (s : State), s.w.uin.cfg.loss.silentS ≠ 0 ∧ s.w.rd s.srv F.SET_STATE.STATE = 3 ∧
      (s.w.elem k).hitAt + s.w.uin.cfg.loss.silentS * 1000000000 ≤ s.w.now) ∧
    (∃ (k : Nat) (s : State), (s.w.uin.cfg.loss.silentS = 0 ∨ s.w.rd s.srv F.SET_STATE.STATE ≠ 3)) ∧
    (∃ (h : Half) (init : Nat) (v : Nat) (s : State), s.own.alive h = true ∧ s.own.ownsAny h 272 64 = true) ∧
    (∃ (h : Half) (init : Nat) (s : State), s.own.alive h = true ∧ s.own.ownsAny h 272 64 = true) ∧
    (∃ (h : Half) (init : Nat) (v : Nat) (c : Instr) (s : State), c ∈ [Instr.losClsWrite h init v, .losClrCnt h init] ∧
      s.own.alive h = true ∧ s.own.ownsAny h 272 64 = false) :=
  ⟨⟨3, 5000, 20, 4, 900000, leBytes 1000 2 ++ leBytes 0 2,
      { st (fun w => w.wr .A F.LOS_CTRL.EN 0 1) with ledger := led 3 3 (leBytes 1000 2 ++ leBytes 0 2) }, by decide +kernel⟩,
   ⟨3, 500, 20, 4, 900, st id, by decide +kernel⟩,
   ⟨3, 5000, 20, 4, 900000, { st (fun w => w.wr .A F.LOS_CTRL.EN 0 0) with ledger := led 3 3 (leBytes 1000 2 ++ leBytes 0 2) },
      by decide +kernel⟩,
   ⟨(st fun w => { w.wr .A F.LOS_CTRL.EN 0 1 with now := 200000000, uin := { w.uin with hits := [(3, 150000000, true), (3, 160000000, false), (3, 250000000, true)] } }),
      3, by decide +kernel⟩,
   ⟨3, st fun w => { (w.wr .A F.LOS_CTRL.EN 0 1).wr .A F.SET_STATE.STATE 0 3 with now := 2000000000, uin := { w.uin with cfg := { loss := { silentS := 2 } } } },
      by decide +kernel⟩,
   ⟨3, st id, by decide +kernel⟩,
   ⟨.A, 0, 7, stO [300] id, by decide +kernel⟩,
   ⟨.A, 0, stO [300] fun w => w.wr .A F.LOS_TOTAL.GRAIN 0 9, by decide +kernel⟩,
   ⟨.B, 2, 1, .losClrCnt .B 2, stO [300] id, by decide +kernel⟩⟩

theorem witness_yieldPipeline :
    (∃ (h : Half) (s : State) (sec : YildSec), (s.w.yield h).sec = some sec ∧ s.own.server = some h ∧ s.w.rd h F.SET_YLD_CTRL.RUN = 1) ∧
    (∃ (h : Half) (s : State), (s.own.server ≠ some h ∨ s.w.rd h F.SET_YLD_CTRL.RUN = 0)) ∧
    (∃ (h : Half) (v : Nat) (s : State) (sec : YildSec), (s.w.yield h).sec = some sec ∧ v < 8) ∧
    (∃ (h : Half) (s : State) (sec : YildSec), (s.w.yield h).sec = some sec) ∧
    (∃ (h : Half) (s : State), s.w.rd h F.SET_YLD_CAL.STATE = 1) ∧
    (∃ (h : Half) (s : State), s.w.rd h F.SET_YLD_CAL.STATE ≠ 1) ∧
    (∃ (h : Half) (s : State) (sec : YildSec), (s.w.yield h).sec = some sec ∧ s.w.rd h F.SET_YLD_CAL.STATE = 2 ∧
      (s.w.yield h).load.stop + sec.dFlow + sec.flush ≤ s.w.mt h / 100000000) ∧
    (∃ (h : Half) (kg : Nat) (s : State), s.w.rd h F.SET_YLD_CAL.STATE = 3 ∧ 2000 ≤ (s.w.yield h).load.mass ∧
      (s.w.yield h).load.start + 600 ≤ (s.w.yield h).load.stop ∧ 20 * (s.w.yield h).load.bad ≤ (s.w.yield h).load.flow ∧
      (s.w.yield h).load.unloaded = false ∧ 80 / 100 ≤ (kg : Rat) / (s.w.yield h).load.mass ∧
      (kg : Rat) / (s.w.yield h).load.mass ≤ 125 / 100 ∧ (s.w.yield h).stored.length < 8) ∧
    (∃ (h : Half) (kg : Nat) (s : State), s.w.rd h F.SET_YLD_CAL.STATE = 3) ∧
    (∃ (h : Half) (kg : Nat) (s : State), s.w.rd h F.SET_YLD_CAL.STATE ≠ 3) ∧
    (∃ (h : Half) (init : Nat) (s : State) (sec : YildSec) (loads : List CalStored) (new : List Rat), (s.w.yield h).sec = some sec ∧
      loads = (s.w.yield h).stored.filter (fun l => l.crop = (s.w.yield h).crop) ∧
      new = newFactors (sec.crops.getD (s.w.yield h).crop {}) (yieldFactors s.ledger (s.w.yield h).crop) loads) :=
  ⟨⟨.A, (st fun w => { (w.wr .A F.SET_YLD_CTRL.RUN 0 1).updYield .A (fun y => { y with sec := some { tankMax := 5, crops := [{}] } }) with now := 3000000000 }),
      { tankMax := 5, crops := [{}] }, by decide +kernel⟩,
   ⟨.B, st id, by decide +kernel⟩,
   ⟨.A, 1, (st fun w => w.updYield .A fun y => { y with sec := some { crops := [{}, {}] } }), { crops := [{}, {}] }, by decide +kernel⟩,
   ⟨.A, (st fun w => w.updYield .A fun y => { y with sec := some {} }), {}, by decide +kernel⟩,
   ⟨.A, st fun w => w.wr .A F.SET_YLD_CAL.STATE 0 1, by decide +kernel⟩,
   ⟨.A, st id, by decide +kernel⟩,
   ⟨.A, (st fun w => (w.wr .A F.SET_YLD_CAL.STATE 0 2).updYield .A fun y => { y with sec := some {}, load := { mass := 2500 } }), {},
      by decide +kernel⟩,
   ⟨.A, 2400, st fun w => (w.wr .A F.SET_YLD_CAL.STATE 0 3).updYield .A fun y => { y with sec := some {}, load := { mass := 2500, stop := 600 } },
      by decide +kernel⟩,
   ⟨.A, 2400, st fun w => (w.wr .A F.SET_YLD_CAL.STATE 0 3).updYield .A fun y => { y with sec := some {}, load := { mass := 2500, stop := 500 } },
      by decide +kernel⟩,
   ⟨.A, 2400, st id, by decide +kernel⟩,
   ⟨.A, 3, (st fun w => { ((w.wr .A F.CAL_LOCK.OPEN 0 1).wr .A F.CAL_LOCK.HOLDER 0 3).updYield .A (fun y => { y with sec := some { crops := [{}] }, stored := [⟨0, 2400, 2500, 1⟩] }) with cal := { CalLock.init with half := .A } }),
      { crops := [{}] }, [⟨0, 2400, 2500, 1⟩], List.replicate 8 (24 / 25), by decide +kernel⟩⟩

theorem witness_ledgerCommands :
    (∃ (h : Half) (init : Nat) (tok : Nat) (s : State), s.own.server = some h ∧ init < 12) ∧
    (∃ (h : Half) (init : Nat) (tok : Nat) (s : State), s.own.server ≠ some h) ∧
    (∃ (h : Half) (init : Nat) (key : Nat) (s : State) (tok : Nat), s.w.cal.token = some tok) ∧
    (∃ (h : Half) (init : Nat) (key : Nat) (s : State), s.w.cal.token = none) ∧
    (∃ (h : Half) (init : Nat) (s : State), s.w.calHolds h init = true) ∧
    (∃ (h : Half) (init : Nat) (s : State), s.w.calHolds h init = false) ∧
    (∃ (s : State), s.w.rd .A F.CAL_LOCK.OPEN = 1 ∧ s.w.cal.lastAt + 600000000000 ≤ s.w.now) ∧
    (∃ (s : State), s.w.now < s.w.cal.lastAt + 600000000000) ∧
    (∃ (h : Half) (init : Nat) (ty : Nat) (k : Nat) (pl : List Byte) (s : State), s.own.server = some h ∧ s.w.calHolds h init = true ∧
      1 ≤ ty ∧ ty ≤ 9 ∧ k < slotCount ty ∧ payloadOk ty pl = true) :=
  ⟨⟨.A, 3, 2 ^ 33 + 5, st id, by decide +kernel⟩,
   ⟨.B, 3, 5, st id, by decide +kernel⟩,
   ⟨.A, 3, 5, (st fun w => { w with cal := { w.cal with token := some 5, tokInit := 3 } }), 5, by decide +kernel⟩,
   ⟨.A, 3, 5, st id, by decide +kernel⟩,
   ⟨.A, 3, st fun w => (w.wr .A F.CAL_LOCK.OPEN 0 1).wr .A F.CAL_LOCK.HOLDER 0 3, by decide +kernel⟩,
   ⟨.A, 3, st id, by decide +kernel⟩,
   ⟨st fun w => { w.wr .A F.CAL_LOCK.OPEN 0 1 with now := 600000000000 }, by decide +kernel⟩,
   ⟨st fun w => { w.wr .A F.CAL_LOCK.OPEN 0 1 with now := 599999999999 }, by decide +kernel⟩,
   ⟨.A, 3, 3, 0, leBytes 1000 2 ++ leBytes 0 2, st fun w => (w.wr .A F.CAL_LOCK.OPEN 0 1).wr .A F.CAL_LOCK.HOLDER 0 3, by decide +kernel⟩⟩

theorem witness_ledgerBytes :
    (∃ (h : Half) (k : Nat) (cc : CupCond) (wrote : Bool) (ma : List CupMeas) (mb : List CupMeas) (init : Nat) (target : Nat) (t1 : Bool) (t0 : Bool) (tiles : Nat) (c : Instr) (s : State),
      c ∈ [Instr.backplanePowerOn t1 t0 tiles, .serverRequest h, .bloom h k, .roastActivateRequest h k, .shutdown h k cc,
      .prepareHalf h init target, .powerFail wrote ma mb] ∧ ((∀ i, i < 48 → journalDue s.ledger i = false))) ∧
    (∃ (t1 : Bool) (t0 : Bool) (tiles : Nat) (s : State), (s.w.run.get .A).running = false ∧ (s.w.run.get .B).running = false ∧ ((∃ i,
      i < 48 ∧ journalDue s.ledger i = true))) :=
  ⟨⟨.A, 0, ⟨true, 0, 0, 0⟩, false, [], [], 1, 1, true, true, 0, .serverRequest .A, { st id with own := { live with server := none } },
      by decide +kernel⟩,
   ⟨true, false, 3, { State.reset with ledger := Memory.writeN [] (journalAddr 1) (journalRec (slotAddr 3 0) 1 (slotImage 3 0 2 5 [0xE8, 3, 0, 0]) 1) },
      by decide +kernel, by decide +kernel, 1, by decide, by decide +kernel⟩⟩

theorem witness_memoryBytes :
    (∃ (h : Half) (g : Half) (b : Nat) (s : State) (r : EvRec) (rest : List EvRec), (s.w.run.get h).running = true ∧
      (s.w.evt.get h).queue = r :: rest) ∧
    (∃ (h : Half) (ownOk : Bool) (sibOk : Bool) (g : Half) (b : Nat) (s : State) (r : MRec), (s.w.gns.get h.other).sent = some r) ∧
    (∃ (h : Half) (vals : List Nat) (profs : List (List Nat)) (edge : List (Rat × Rat)) (g : Half) (b : Nat) (s : State) (c : Cycle) (rest : List Cycle),
      (s.w.grd.get h).cycles = c :: rest) ∧
    (∃ (h : Half) (veh : Int × Int × Int) (dets : List Det) (v : Nat) (init : Nat) (c : Instr) (g : Half) (b : Nat) (s : State),
      c ∈ [Instr.trackCycle h veh dets, .trackIgnore h init v, .crossingUp h]) ∧
    (∃ (t1 : Bool) (t0 : Bool) (tiles : Nat) (g : Half) (s : State), (s.w.run.get .A).running = false ∧ (s.w.run.get .B).running = false) ∧
    (∃ (h : Half) (c : Option Cartridge) (g : Half) (s : State), s.w.svc.presence.get h = false ∧ s.own.alive h = false) :=
  ⟨⟨.A, .A, 42949672976, st fun w => { w with evt := w.evt.upd .A fun e => { e with queue := [{ num := 7, stamp := 5, flags := 0, count := 1, arg := 9 }] } },
      { num := 7, stamp := 5, flags := 0, count := 1, arg := 9 }, [], by decide +kernel⟩,
   ⟨.A, true, true, .B, 7, st fun w => { w with gns := w.gns.upd .B fun g => { g with sent := some { half := .A, aligned := false, suspect := false, t := 0, bias := 1, drift := 2, clk := true, rate := 10, entries := [] } } },
      { half := .A, aligned := false, suspect := false, t := 0, bias := 1, drift := 2, clk := true, rate := 10, entries := [] },
      by decide +kernel⟩,
   ⟨.A, [], [[1, 2]], [], .A, 7, st fun w => { w with grd := w.grd.upd .A fun g => { g with cycles := [{ tg := 0, period := 40000000, closed := true }] } },
      { tg := 0, period := 40000000, closed := true }, [], by decide +kernel⟩,
   ⟨.A, (0, 0, 0), [], 0, 1, .trackCycle .A (0, 0, 0) [], .A, 7, { st id with own := { live with server := some .A } }, by decide +kernel⟩,
   ⟨true, false, 3, .A, { State.reset with w := State.reset.w.putMem .A 3 7 [5] }, by decide +kernel⟩,
   ⟨.B, none, .A, { State.reset with w := (State.reset.w.updSvc fun v => { v with presence := Two.both false }).putMem .A 3 7 [5] },
      by decide +kernel⟩⟩

theorem witness_sensorIngest :
    (∃ (h : Half) (p : Nat) (seq : Nat) (ofs : Nat) (flags : Nat) (data : List Byte) (s : State), ownPlane h p = true ∧ data.length ≠ 0 ∧
      data.length ≤ 8960 ∧ (data.length % 64 = 0 ∨ bitOf flags 0 = true) ∧ (∀ x ∈ (s.w.grd.get h).asm, x.port = p → x.seq ≠ seq) ∧
      (bitOf flags 0 = false ∨ ofs ≠ 0)) ∧
    (∃ (h : Half) (p : Nat) (seq : Nat) (flags : Nat) (data : List Byte) (more : List Byte) (s : State) (x : Asm), ownPlane h p = true ∧
      more.length ≠ 0 ∧ more.length ≤ 8960 ∧ bitOf flags 0 = true ∧ (s.w.grd.get h).asm = [x] ∧ x.port = p ∧ x.seq = seq ∧ x.segs = [(0,
      data)]) ∧
    (∃ (h : Half) (p : Nat) (seq : Nat) (ofs : Nat) (flags : Nat) (data : List Byte) (s : State),
      (ownPlane h p = false ∨ data.length = 0 ∨ 8960 < data.length ∨ (data.length % 64 ≠ 0 ∧ bitOf flags 0 = false))) ∧
    (∃ (h : Half) (p : Nat) (seq : Nat) (s : State) (x : Asm), x ∈ (s.w.grd.get h).asm ∧ x.port = p ∧ x.seq = seq) ∧
    (∃ (h : Half) (p : Nat) (seq : Nat) (s : State), (∀ x ∈ (s.w.grd.get h).asm, x.port = p → x.seq ≠ seq)) ∧
    (∃ (h : Half) (p : Nat) (bs : List Byte) (s : State), ownPlane h p = true ∧ ((s.w.grin h).port p).role ≠ 0 ∧
      headerOk ((s.w.grin h).port p) bs = true ∧ bitOf (byteAt bs 3) 0 = true ∧ u16At bs 20 ≤ 100) ∧
    (∃ (h : Half) (p : Nat) (bs : List Byte) (s : State), ownPlane h p = true ∧ ((s.w.grin h).port p).role ≠ 0 ∧
      headerOk ((s.w.grin h).port p) bs = false) ∧
    (∃ (h : Half) (p : Nat) (bs : List Byte) (s : State), ownPlane h p = true ∧ ((s.w.grin h).port p).role ≠ 0 ∧
      headerOk ((s.w.grin h).port p) bs = true ∧ (bitOf (byteAt bs 3) 0 = false ∨ 100 < u16At bs 20)) ∧
    (∃ (h : Half) (p : Nat) (bs : List Byte) (s : State), (ownPlane h p = false ∨ ((s.w.grin h).port p).role = 0)) ∧
    (∃ (h : Half) (p : Nat) (blind : Bool) (s : State), ownPlane h p = true) ∧
    (∃ (h : Half) (p : Nat) (blind : Bool) (s : State), ownPlane h p = false) ∧
    (∃ (h : Half) (p : Nat) (damage : Nat) (trash : Nat) (s : State), ownPlane h p = true ∧ ((s.w.grin h).port p).role = 2 ∧
      s.w.portUsable h p = true) ∧
    (∃ (h : Half) (p : Nat) (damage : Nat) (trash : Nat) (s : State),
      (ownPlane h p = false ∨ ((s.w.grin h).port p).role ≠ 2 ∨ s.w.portUsable h p = false)) :=
  ⟨⟨.A, 0, 7, 64, 1, List.replicate 64 0, st id, by decide +kernel⟩,
   ⟨.A, 0, 7, 1, List.replicate 64 0, [1, 2],
      (st fun w => w.updGrind .A fun g => { g with asm := [{ port := 0, seq := 7, start := 0, segs := [(0, List.replicate 64 0)] }] }),
      { port := 0, seq := 7, start := 0, segs := [(0, List.replicate 64 0)] }, by decide +kernel⟩,
   ⟨.A, 1, 7, 0, 1, [1], st id, by decide +kernel⟩,
   ⟨.A, 0, 7, (st fun w => w.updGrind .A fun g => { g with asm := [{ port := 0, seq := 7, start := 0 }] }),
      { port := 0, seq := 7, start := 0 }, by decide +kernel⟩,
   ⟨.A, 0, 7, st id, by decide +kernel⟩,
   ⟨.A, 0, mkSample 1 1 9 50000000 3 0 6, st fun w => w.updGrind .A fun g => { g with sec := some { ports := [{ role := 1, width := 2, height := 2 }] } },
      by decide +kernel⟩,
   ⟨.A, 0, [], st fun w => w.updGrind .A fun g => { g with sec := some { ports := [{ role := 1 }] } }, by decide +kernel⟩,
   ⟨.A, 0, mkSample 1 0 9 50000000 3 0 6, st fun w => w.updGrind .A fun g => { g with sec := some { ports := [{ role := 1, width := 2, height := 2 }] } },
      by decide +kernel⟩,
   ⟨.A, 1, [], st id, by decide +kernel⟩,
   ⟨.A, 0, true, st fun w => w.updGrind .A fun g => { g with sec := some { ports := [{ role := 1 }] } }, by decide +kernel⟩,
   ⟨.A, 1, true, st id, by decide +kernel⟩,
   ⟨.A, 0, 5, 6, st fun w => (w.updGrind .A fun g => { g with sec := some { ports := [{ role := 2 }] } }).wr .A F.PRJ_PORT.STATE 0 1,
      by decide +kernel⟩,
   ⟨.A, 0, 5, 6, st id, by decide +kernel⟩⟩

theorem witness_grindCycle :
    (∃ (h : Half) (s : State), (s.w.grd.get h).sec.isSome = true) ∧
    (∃ (h : Half) (s : State), (s.w.grd.get h).sec = none) ∧
    (∃ (h : Half) (feats : List (Nat × Nat)) (rate : Nat) (meas : Nat) (fill : Nat) (load : List Nat) (s : State) (c : Cycle),
      (s.w.grd.get h).cycles = [c] ∧ c.closed = false) ∧
    (∃ (h : Half) (feats : List (Nat × Nat)) (rate : Nat) (meas : Nat) (fill : Nat) (load : List Nat) (s : State),
      (∀ c ∈ (s.w.grd.get h).cycles, c.closed = true)) ∧
    (∃ (h : Half) (seq : Nat) (s : State) (c : Cycle) (x : Cycle) (k : Nat), s.w.feaFrame h seq = some (c, k) ∧
      (s.w.grd.get h).cycles = [x] ∧ x.tg = c.tg) ∧
    (∃ (h : Half) (seq : Nat) (s : State), s.w.feaFrame h seq = none) ∧
    (∃ (h : Half) (vals : List Nat) (profs : List (List Nat)) (edge : List (Rat × Rat)) (s : State) (c : Cycle) (rest : List Cycle),
      (s.w.grd.get h).cycles = c :: rest ∧ c.closed = true ∧ s.w.mt h ≤ c.tg + c.bound) ∧
    (∃ (h : Half) (vals : List Nat) (profs : List (List Nat)) (edge : List (Rat × Rat)) (s : State), (∀ c,
      (s.w.grd.get h).cycles.head? = some c → c.closed = false ∨ c.tg + c.bound < s.w.mt h)) ∧
    (∃ (h : Half) (s : State) (c : Cycle) (rest : List Cycle), (s.w.grd.get h).cycles = c :: rest) ∧
    (∃ (h : Half) (s : State), (s.w.grd.get h).cycles = []) ∧
    (∃ (h : Half) (s : State), (s.w.grd.get h).sec.isSome = true ∧ (s.w.grd.get h).pubAt + 3 * s.w.period h ≤ s.w.mt h) ∧
    (∃ (h : Half) (s : State), ((s.w.grd.get h).sec = none ∨ s.w.mt h < (s.w.grd.get h).pubAt + 3 * s.w.period h)) :=
  ⟨⟨.A, st fun w => (((w.updGrind .A fun g => { g with sec := some {} }).wr .A F.GRD_STATUS.GRADE 0 3).wr .A F.GRD_STATUS.POSE_OK 0 1).wr .A F.FEA_STATUS.SLICES 0 7,
      by decide +kernel⟩,
   ⟨.A, st id, by decide +kernel⟩,
   ⟨.A, [(64, 7)], 300, 20, 5, [1, 2, 3, 4],
      (st fun w => w.updGrind .A fun g => { g with sec := some {}, cycles := [{ tg := 80000000, period := 40000000 }] }),
      { tg := 80000000, period := 40000000 }, by decide +kernel⟩,
   ⟨.A, [], 0, 0, 0, [], st id, by decide +kernel⟩,
   ⟨.A, 0, (st fun w => (w.updGrind .A fun g => { g with cycles := [{ tg := 80000000, period := 40000000 }] }).updGrind .B fun g => { g with cycles := [{ tg := 80000000, period := 40000000, closed := true }] }),
      { tg := 80000000, period := 40000000, closed := true }, { tg := 80000000, period := 40000000 }, 0, by decide +kernel⟩,
   ⟨.A, 0, st id, by decide +kernel⟩,
   ⟨.A, [0x3F800000], [], [(1, 2)], (st fun w => w.updGrind .A fun g => { g with sec := some { prods := [{ type_ := 2 }, { type_ := 4 }] }, cycles := [{ tg := 0, period := 40000000, closed := true, own := [(64, 7)] }] }),
      { tg := 0, period := 40000000, closed := true, own := [(64, 7)] }, [], by decide +kernel⟩,
   ⟨.A, [], [], [], st id, by decide +kernel⟩,
   ⟨.A, (st fun w => w.updGrind .A fun g => { g with sec := some {}, cycles := [{ tg := 80000000, period := 40000000 }] }),
      { tg := 80000000, period := 40000000 }, [], by decide +kernel⟩,
   ⟨.A, st id, by decide +kernel⟩,
   ⟨.A, st fun w => { (w.updGrind .A fun g => { g with sec := some { prods := [{}, {}] } }).wr .A F.GRD_PQ.QUALITY 1 6 with now := 120000000 },
      by decide +kernel⟩,
   ⟨.A, st id, by decide +kernel⟩⟩

theorem witness_gradesAndModels :
    (∃ (h : Half) (s : State) (i : Nat) (x : Nat), i < 4 ∧ (s.w.grd.get h).since.getD i none = some x ∧ x + 2 * sec ≤ s.w.mt h ∧
      s.w.rd h F.GRD_STATUS.GRADE ≤ i ∧ (∀ j, i < j → j < 4 → ∀ y, (s.w.grd.get h).since.getD j none = some y → s.w.mt h < y + 2 * sec)) ∧
    (∃ (h : Half) (s : State), (∀ j, j < 4 → ∀ y,
      (s.w.grd.get h).since.getD j none = some y → y + 2 * sec ≤ s.w.mt h → j < s.w.rd h F.GRD_STATUS.GRADE)) ∧
    (∃ (h : Half) (m : Nat) (s : State), m < (s.w.grin h).models.length) ∧
    (∃ (h : Half) (m : Nat) (s : State), (s.w.grin h).models.length ≤ m) ∧
    (∃ (h : Half) (m : Nat) (res : Nat) (s : State) (e : GModel), (s.w.grin h).models[m]? = some e ∧ m < 16 ∧ res ≤ 5) ∧
    (∃ (h : Half) (m : Nat) (res : Nat) (s : State), (s.w.grin h).models[m]? = none) :=
  ⟨⟨.A, (st fun w => { w.updGrind .A fun g => { g with since := [some 0, some 0, some 0, none] } with now := 2000000000 }), 2, 0,
      by decide, by decide +kernel, by decide +kernel, by decide +kernel, fun j h1 h2 y hy => by
    obtain rfl : j = 3 := by omega
    exact absurd (hy.symm.trans (by decide +kernel : _ = none)) (Option.some_ne_none y)⟩,
   ⟨.A, st id, by decide +kernel⟩,
   ⟨.A, 0, st fun w => w.updGrind .A fun g => { g with sec := some { models := [{}] } }, by decide +kernel⟩,
   ⟨.A, 0, st id, by decide +kernel⟩,
   ⟨.A, 0, 3, (st fun w => w.updGrind .A fun g => { g with sec := some { models := [{ kind := 5 }], prods := [{ model := 0 }] } }),
      { kind := 5 }, by decide +kernel⟩,
   ⟨.A, 0, 3, st id, by decide +kernel⟩⟩

theorem witness_trackStore :
    (∃ (h : Half) (veh : Int × Int × Int) (dets : List Det) (s : State), s.w.trkRuns s.own h = true) ∧
    (∃ (h : Half) (veh : Int × Int × Int) (dets : List Det) (s : State), s.w.trkRuns s.own h = false) ∧
    (∃ (h : Half) (veh : Int × Int × Int) (d : Det) (s : State), s.w.trkRuns s.own h = true ∧ (s.w.trk.get h).slot = []) ∧
    (∃ (h : Half) (veh : Int × Int × Int) (d : Det) (s : State) (k : Nat) (x : Track), s.w.trkRuns s.own h = true ∧
      (s.w.trk.get h).slot = [(k, x)] ∧ x.tBirth ≤ (s.w.grd.get h).pubTg) ∧
    (∃ (h : Half) (stamp : Nat) (dets : List Det) (s : State), s.w.trkRuns s.own h = true) ∧
    (∃ (h : Half) (stamp : Nat) (dets : List Det) (s : State), s.w.trkRuns s.own h = false) ∧
    (∃ (h : Half) (k : Nat) (s : State), k < 2) ∧
    (∃ (h : Half) (k : Nat) (s : State), 2 ≤ k) ∧
    (∃ (h : Half) (init : Nat) (v : Nat) (s : State) (k : Nat) (x : Track), s.w.trkRuns s.own h = true ∧ bitOf v 16 = true ∧
      bitsOf v 0 16 ≠ 0 ∧ (s.w.trk.get h).slot = [(k, x)] ∧ x.id = bitsOf v 0 16) ∧
    (∃ (h : Half) (init : Nat) (v : Nat) (s : State), (s.w.trkRuns s.own h = false ∨ bitOf v 16 = false ∨ ∀ x ∈ (s.w.trk.get h).slot,
      x.2.id ≠ bitsOf v 0 16)) :=
  ⟨⟨.A, (0, 0, 0), [⟨30000, 0, 100, 100, 1, 90, 200, 150, 120, 1⟩], st id, by decide +kernel⟩,
   ⟨.B, (0, 0, 0), [], st id, by decide +kernel⟩,
   ⟨.A, (0, 0, 0), ⟨30000, 0, 100, 100, 1, 90, 200, 150, 120, 1⟩, st id, by decide +kernel⟩,
   ⟨.A, (0, 0, 0), ⟨30000, 0, 100, 100, 1, 90, 200, 150, 120, 1⟩,
      (st fun w => w.updTrk .A fun t => { t with slot := [(3, { id := 9, state := 1, hits := 1, x := { p := 30010, pp := 10000 }, y := { pp := 10000 } })] }),
      3, { id := 9, state := 1, hits := 1, x := { p := 30010, pp := 10000 }, y := { pp := 10000 } }, by decide +kernel⟩,
   ⟨.A, 5, [⟨30000, 0, 100, 100, 1, 90, 200, 150, 120, 1⟩], st fun w => { w with now := 100000000 }, by decide +kernel⟩,
   ⟨.B, 5, [], st id, by decide +kernel⟩,
   ⟨.A, 1, st fun w => (w.wr .A F.TRK_STOP.HEADER 0 2).updTrk .A fun t => { t with lastC := [none, none, some 0, some 0] },
      by decide +kernel⟩,
   ⟨.A, 2, st id, by decide +kernel⟩,
   ⟨.A, 0, 65536 + 9, (st fun w => w.updTrk .A fun t => { t with slot := [(3, { id := 9, cls := 5 })] }), 3, { id := 9, cls := 5 },
      by decide +kernel⟩,
   ⟨.A, 0, 65536 + 9, st id, by decide +kernel⟩⟩

theorem witness_gnssChannels :
    (∃ (a : Nat) (i : Nat) (v : Nat) (s : State), a < 2) ∧
    (∃ (a : Nat) (i : Nat) (v : Nat) (s : State), 2 ≤ a) ∧
    (∃ (h : Half) (k : Nat) (db : Nat) (s : State) (n : Nat) (hz : Int), k < 6 ∧ 15 ≤ db ∧ n < 4 ∧
      bitOf (s.w.rd h F.GNS_RF.NOTCH k) n = false ∧ (∀ j, j < n → bitOf (s.w.rd h F.GNS_RF.NOTCH k) j = true)) ∧
    (∃ (h : Half) (k : Nat) (db : Nat) (s : State) (hz : Int), (6 ≤ k ∨ db < 15 ∨ s.w.rd h F.GNS_RF.NOTCH k = 15)) ∧
    (∃ (h : Half) (k : Nat) (n : Nat) (s : State), k < 6 ∧ n < 4 ∧ bitOf (s.w.rd h F.GNS_RF.NOTCH k) n = true) ∧
    (∃ (h : Half) (k : Nat) (n : Nat) (s : State), (6 ≤ k ∨ 4 ≤ n ∨ bitOf (s.w.rd h F.GNS_RF.NOTCH k) n = false)) ∧
    (∃ (h : Half) (k : Nat) (db : Nat) (agc : Nat) (s : State), k < 6) ∧
    (∃ (h : Half) (k : Nat) (db : Nat) (agc : Nat) (s : State), 6 ≤ k) ∧
    (∃ (h : Half) (init : Nat) (s : State) (n : Nat), s.w.rd h F.GNS_SEL.CH init = n ∧ n < 192 ∧ s.w.chanUp h n = true ∧
      s.w.rd h F.GNS_CH_STATUS.STATE n ≠ 1) ∧
    (∃ (h : Half) (init : Nat) (s : State),
      (192 ≤ s.w.rd h F.GNS_SEL.CH init ∨ s.w.chanUp h (s.w.rd h F.GNS_SEL.CH init) = false ∨ s.w.rd h F.GNS_CH_STATUS.STATE (s.w.rd h F.GNS_SEL.CH init) = 1)) ∧
    (∃ (h : Half) (init : Nat) (s : State) (n : Nat), s.w.rd h F.GNS_SEL.CH init = n ∧ n < 192) ∧
    (∃ (h : Half) (init : Nat) (s : State) (n : Nat), s.w.rd h F.GNS_SEL.CH init = n ∧ n < 192 ∧ s.w.rd h F.GNS_CH_STATUS.STATE n = 1) ∧
    (∃ (h : Half) (init : Nat) (c : Instr) (s : State), c ∈ [Instr.chStop h init, .chKnock h init] ∧ 192 ≤ s.w.rd h F.GNS_SEL.CH init) ∧
    (∃ (h : Half) (init : Nat) (v : Nat) (s : State) (n : Nat), s.w.rd h F.GNS_SEL.CH init = n ∧ n < 192) ∧
    (∃ (h : Half) (init : Nat) (v : Nat) (s : State), 192 ≤ s.w.rd h F.GNS_SEL.CH init) ∧
    (∃ (h : Half) (n : Nat) (iq : List Int) (noise : Nat) (s : State) (p : Commit), n < 192 ∧ s.w.rd h F.GNS_CH_STATUS.STATE n = 1 ∧
      (s.w.chan h n).pend = some p) ∧
    (∃ (h : Half) (n : Nat) (iq : List Int) (noise : Nat) (s : State), n < 192 ∧ s.w.rd h F.GNS_CH_STATUS.STATE n = 1 ∧
      (s.w.chan h n).pend = none) ∧
    (∃ (h : Half) (n : Nat) (iq : List Int) (noise : Nat) (s : State), (192 ≤ n ∨ s.w.rd h F.GNS_CH_STATUS.STATE n ≠ 1)) ∧
    (∃ (h : Half) (init : Nat) (v : Nat) (s : State) (e : Nat), s.w.rd h F.GNS_SEL.CH init = 192 + e ∧ e < 16 ∧ s.w.baseband h = true ∧
      34 ∉ (s.w.run.get h).pwrGated ∧ s.w.rd h F.GNS_ACQ_STATUS.BUSY e = 0) ∧
    (∃ (h : Half) (init : Nat) (v : Nat) (s : State),
      (s.w.rd h F.GNS_SEL.CH init < 192 ∨ 208 ≤ s.w.rd h F.GNS_SEL.CH init ∨ s.w.baseband h = false ∨ 34 ∈ (s.w.run.get h).pwrGated ∨ s.w.rd h F.GNS_ACQ_STATUS.BUSY (s.w.rd h F.GNS_SEL.CH init - 192) = 1)) ∧
    (∃ (h : Half) (e : Nat) (cn0 : Nat) (ratio : Nat) (code : Nat) (dop : Int) (tEnd : Nat) (s : State) (a : Nat) (bs : List Byte),
      e < 16 ∧ s.w.rd h F.GNS_ACQ_STATUS.BUSY e = 1 ∧ a = s.w.rd h F.GNS_ACQ_TAB.ADDR e + 64 * s.w.rd h F.GNS_ACQ_STATUS.ENTRY e ∧
      bs = s.w.getMem h 0 a 64) ∧
    (∃ (h : Half) (e : Nat) (cn0 : Nat) (ratio : Nat) (code : Nat) (dop : Int) (tEnd : Nat) (s : State),
      (16 ≤ e ∨ s.w.rd h F.GNS_ACQ_STATUS.BUSY e = 0)) ∧
    (∃ (h : Half) (init : Nat) (s : State) (e : Nat), s.w.rd h F.GNS_SEL.CH init = 192 + e ∧ e < 16 ∧
      s.w.rd h F.GNS_ACQ_STATUS.BUSY e = 1) ∧
    (∃ (h : Half) (init : Nat) (s : State),
      (s.w.rd h F.GNS_SEL.CH init < 192 ∨ 208 ≤ s.w.rd h F.GNS_SEL.CH init ∨ s.w.rd h F.GNS_ACQ_STATUS.BUSY (s.w.rd h F.GNS_SEL.CH init - 192) = 0)) :=
  ⟨⟨1, 130, 50, st id, by decide +kernel⟩,
   ⟨2, 130, 50, st id, by decide +kernel⟩,
   ⟨.A, 1, 20, (st fun w => w.wr .A F.GNS_RF.NOTCH 1 3), 2, 1000, by decide +kernel⟩,
   ⟨.A, 1, 14, (st id), 1000, by decide +kernel⟩,
   ⟨.A, 1, 1, st fun w => w.wr .A F.GNS_RF.NOTCH 1 3, by decide +kernel⟩,
   ⟨.A, 1, 1, st id, by decide +kernel⟩,
   ⟨.A, 5, 20, 100, st fun w => w.wr .A F.GNS_RF.JAM 5 1, by decide +kernel⟩,
   ⟨.A, 6, 20, 100, st id, by decide +kernel⟩,
   ⟨.A, 2, (st fun w => (((w.wr .A F.GNS_SEL.CH 2 7).wr .A F.GNS_CH_CFG.SPACING 7 8).updGnss .A fun g => { g with on := true }).wr .A F.GNS_CH_CODE.RATE 7 99),
      7, by decide +kernel⟩,
   ⟨.A, 2, st id, by decide +kernel⟩,
   ⟨.A, 2, (st fun w => (w.wr .A F.GNS_SEL.CH 2 7).wr .A F.GNS_CH_STATUS.STATE 7 1), 7, by decide +kernel⟩,
   ⟨.A, 2, (st fun w => (w.wr .A F.GNS_SEL.CH 2 7).wr .A F.GNS_CH_STATUS.STATE 7 1), 7, by decide +kernel⟩,
   ⟨.A, 2, .chStop .A 2, st fun w => w.wr .A F.GNS_SEL.CH 2 200, by decide +kernel⟩,
   ⟨.A, 2, 77, (st fun w => (w.wr .A F.GNS_SEL.CH 2 7).wr .A F.GNS_CH_STATUS.STATE 7 1), 7, by decide +kernel⟩,
   ⟨.A, 2, 77, st fun w => w.wr .A F.GNS_SEL.CH 2 200, by decide +kernel⟩,
   ⟨.A, 7, [1, 2], 5, (st fun w => { (w.wr .A F.GNS_CH_STATUS.STATE 7 1).updChan .A 7 fun x => { x with pend := some { carr := 3, code := 4, slew := 5, epochs := 1, at_ := 0 } } with now := 50000 }),
      { carr := 3, code := 4, slew := 5, epochs := 1, at_ := 0 }, by decide +kernel⟩,
   ⟨.A, 7, [1, 2], 5, st fun w => w.wr .A F.GNS_CH_STATUS.STATE 7 1, by decide +kernel⟩,
   ⟨.A, 7, [], 5, st id, by decide +kernel⟩,
   ⟨.A, 2, 257, (st fun w => (w.wr .A F.GNS_SEL.CH 2 195).updGnss .A fun g => { g with on := true }), 3, by decide +kernel⟩,
   ⟨.A, 2, 257, st id, by decide +kernel⟩,
   ⟨.A, 3, 45, 9, 100, 5, 77, (st fun w => ((w.wr .A F.GNS_ACQ_STATUS.BUSY 3 1).wr .A F.GNS_ACQ_CMD.N 3 1)), 0, List.replicate 64 0,
      by decide +kernel⟩,
   ⟨.A, 3, 45, 9, 100, 5, 77, st id, by decide +kernel⟩,
   ⟨.A, 2, (st fun w => (w.wr .A F.GNS_SEL.CH 2 195).wr .A F.GNS_ACQ_STATUS.BUSY 3 1), 3, by decide +kernel⟩,
   ⟨.A, 2, st id, by decide +kernel⟩⟩

theorem witness_gnssRecords :
    (∃ (s : State) (r : Nat), (s.w.gns.a.rate = some r ∨ (s.w.gns.a.rate = none ∧ s.w.gns.b.rate = some r))) ∧
    (∃ (s : State), s.w.gns.a.rate = none ∧ s.w.gns.b.rate = none) ∧
    (∃ (h : Half) (entries : List MEntry) (bias : Int) (drift : Int) (clk : Bool) (s : State), s.w.baseband h = true) ∧
    (∃ (h : Half) (entries : List MEntry) (bias : Int) (drift : Int) (clk : Bool) (s : State), s.w.baseband h = false) ∧
    (∃ (h : Half) (ownOk : Bool) (sibOk : Bool) (s : State) (r : MRec), (s.w.gns.get h.other).sent = some r) ∧
    (∃ (h : Half) (ownOk : Bool) (sibOk : Bool) (s : State), (s.w.gns.get h.other).sent = none) ∧
    (∃ (h : Half) (init : Nat) (v : Nat) (s : State) (n : Nat) (bs : List Byte), n = bitsOf v 0 11 ∧
      bs = s.w.getMem h 0 (s.w.rd h F.GNS_CORR_ADDR.ADDR) n) ∧
    (∃ (h : Half) (x : Sol) (s : State), s.w.rd h F.GNS_STATUS.POSITION_ENG = 1) ∧
    (∃ (h : Half) (x : Sol) (s : State), s.w.rd h F.GNS_STATUS.POSITION_ENG = 0) ∧
    (∃ (h : Half) (ratio : Nat) (common : Nat) (len : Nat) (az : Int) (sig : Nat) (s : State), s.w.rd h F.GNS_STATUS.HEADING_ENG = 1) ∧
    (∃ (h : Half) (ratio : Nat) (common : Nat) (len : Nat) (az : Int) (sig : Nat) (s : State), s.w.rd h F.GNS_STATUS.HEADING_ENG = 0) :=
  ⟨⟨(st fun w => w.updGnss .A fun g => { g with rate := some 2 }), 2, by decide +kernel⟩,
   ⟨st id, by decide +kernel⟩,
   ⟨.A, [⟨0, 7, 0, 0, true, true, false, 0, 0, 0, 4500, 5000, 3, 4500, false, 0, 0⟩], 5, 6, true,
      st fun w => w.updGnss .A fun g => { g with on := true }, by decide +kernel⟩,
   ⟨.A, [], 5, 6, true, st id, by decide +kernel⟩,
   ⟨.A, true, true, (st fun w => w.updGnss .B fun g => { g with sent := some ⟨.B, true, false, 5, 0, 0, true, 10, []⟩ }), ⟨.B, true,
      false, 5, 0, 0, true, 10, []⟩, by decide +kernel⟩,
   ⟨.A, true, true, st id, by decide +kernel⟩,
   ⟨.A, 0, 0, (st id), 0, [], by decide +kernel⟩,
   ⟨.A, ⟨471234567891, -81234567891, 450000, 12, 2500, 9000, 9, 2, 0, 0, false, 0, 0, 0, [], true⟩,
      st fun w => w.wr .A F.GNS_STATUS.POSITION_ENG 0 1, by decide +kernel⟩,
   ⟨.A, ⟨1, 2, 3, 4, 5, 6, 7, 2, 0, 0, false, 0, 0, 0, [], true⟩, st id, by decide +kernel⟩,
   ⟨.A, 350, 6, 1000, 45000, 20, { st (fun w => w.wr .A F.GNS_STATUS.HEADING_ENG 0 1) with ledger := led 5 0 (leBytes 0x3F800000 4 ++ leBytes 0 4) },
      by decide +kernel⟩,
   ⟨.A, 350, 6, 1000, 45000, 20, st id, by decide +kernel⟩⟩

theorem witness_moduleTime :
    (∃ (h : Half) (r : Nat) (ofs : Int) (s : State) (leap : Option Nat), s.own.server = some h ∧ (r = 1 ∨ r = 2)) ∧
    (∃ (h : Half) (r : Nat) (ofs : Int) (leap : Option Nat) (s : State), (s.own.server ≠ some h ∨ r = 0 ∨ 2 < r)) ∧
    (∃ (h : Half) (r : Nat) (s : State), s.own.server = some h ∧ (r = 1 ∨ r = 2)) ∧
    (∃ (h : Half) (r : Nat) (s : State), (s.own.server ≠ some h ∨ r = 0 ∨ 2 < r)) ∧
    (∃ (s : State) (h : Half) (o : Int), s.own.server = some h ∧ (s.w.tim.get h).step = some (.by_ o)) ∧
    (∃ (s : State) (h : Half) (n : Nat), s.own.server = some h ∧ (s.w.tim.get h).step = some (.to_ n) ∧
      0 ≤ (s.w.now : Int) + (s.w.tim.get h).offset + (s.w.tim.get h).part s.w.now) ∧
    (∃ (s : State), (s.w.tim.get s.srv).step = none) ∧
    (∃ (h : Half) (s : State) (k : Nat) (n : Int), s.own.server = some h ∧ (s.w.tim.get h).slew = some (k, n)) ∧
    (∃ (h : Half) (s : State), (s.own.server ≠ some h ∨ (s.w.tim.get h).slew = none)) ∧
    (∃ (h : Half) (init : Nat) (s : State), s.own.server = some h ∧
      (s.w.rd h F.TIM_STATUS.STATE = 0 ∨ s.w.rd h F.TIM_STATUS.STATE = 4 ∨ s.w.inService h = true)) ∧
    (∃ (h : Half) (init : Nat) (s : State), (s.own.server ≠ some h ∨ (s.w.rd h F.TIM_STATUS.STATE ≠ 0 ∧ s.w.rd h F.TIM_STATUS.STATE ≠ 4 ∧
      s.w.inService h = false))) ∧
    (∃ (h : Half) (s : State) (x : Nat), x = s.w.mt h - s.w.rd h F.TIM_CTRL.IN_DLY) ∧
    (∃ (h : Half) (s : State), s.w.rd h F.TIM_STATUS.IN_VALID = 1) ∧
    (∃ (h : Half) (s : State), s.w.rd h F.TIM_STATUS.IN_VALID = 0) ∧
    (∃ (s : State) (h : Half), s.own.server = some h ∧ s.w.latch.logicValid = true ∧ s.w.rd h F.TIM_CTRL.OUT_EN = 1 ∧
      (s.w.keeper.on = false ∨ (s.w.keeper.lastAt + 500 * ms ≤ s.w.now ∧ s.w.keeper.notBefore ≤ s.w.now))) ∧
    (∃ (s : State), (s.w.latch.logicValid = false ∨ (s.w.keeper.on = false ∧ s.own.server = none))) ∧
    (∃ (h : Half) (s : State), s.own.server = some h ∧ s.w.keeper.on = true ∧ s.w.keeper.served = true) ∧
    (∃ (h : Half) (s : State), (s.own.server ≠ some h ∨ s.w.keeper.on = false ∨ s.w.keeper.served = false)) :=
  ⟨⟨.A, 1, 2000, (st fun w => w.wr .A F.TIM_STATUS.STATE 0 2), some 18, by decide +kernel⟩,
   ⟨.B, 1, 2000, none, st id, by decide +kernel⟩,
   ⟨.A, 1, st fun w => ((w.wr .A F.TIM_STATUS.STATE 0 1).wr .A F.TIM_STATUS.REF_ACT 0 1).wr .A F.TIM_STATUS.GNSS_VALID 0 1,
      by decide +kernel⟩,
   ⟨.B, 1, st id, by decide +kernel⟩,
   ⟨(st fun w => { w.updTim .A fun t => { t with step := some (.by_ (-700000)) } with now := 1000000000 }), .A, -700000, by decide +kernel⟩,
   ⟨(st fun w => { w.updTim .A fun t => { t with step := some (.to_ 5000000000) } with now := 1000000000 }), .A, 5000000000,
      by decide +kernel⟩,
   ⟨st id, by decide +kernel⟩,
   ⟨.A, (st fun w => (w.wr .A F.TIM_STATUS.STATE 0 3).updTim .A fun t => { t with slew := some (0, 2000) }), 0, 2000, by decide +kernel⟩,
   ⟨.A, st id, by decide +kernel⟩,
   ⟨.A, 0, st fun w => w.wr .A F.TIM_SET_HI.T 0 1, by decide +kernel⟩,
   ⟨.B, 0, st id, by decide +kernel⟩,
   ⟨.A, (st fun w => { (w.wr .A F.TIM_STATUS.IN_VALID 0 1).updTim .A fun t => { t with phase := some 0 } with now := 2000005000 }),
      2000005000, by decide +kernel⟩,
   ⟨.A, st fun w => w.wr .A F.TIM_STATUS.IN_VALID 0 1, by decide +kernel⟩,
   ⟨.A, st id, by decide +kernel⟩,
   ⟨(st fun w => { w.wr .A F.TIM_CTRL.OUT_EN 0 1 with latch := { w.latch with logicValid := true } }), .A, by decide +kernel⟩,
   ⟨st id, by decide +kernel⟩,
   ⟨.A, st fun w => { w with keeper := { w.keeper with on := true, served := true } }, by decide +kernel⟩,
   ⟨.A, st id, by decide +kernel⟩⟩

theorem witness_canTransmit :
    (∃ (h : Half) (init : Nat) (v : Nat) (s : State) (n : Nat), s.own.alive h = true ∧ s.w.rd h F.CAN_SEL.CH init = n ∧
      s.own.owns h (336 + n) = true) ∧
    (∃ (h : Half) (init : Nat) (s : State) (n : Nat), s.own.alive h = true ∧ s.w.rd h F.CAN_SEL.CH init = n ∧
      s.own.owns h (336 + n) = true) ∧
    (∃ (h : Half) (init : Nat) (s : State) (n : Nat), s.own.alive h = true ∧ s.w.rd h F.CAN_SEL.CH init = n ∧
      s.own.owns h (336 + n) = true) ∧
    (∃ (h : Half) (init : Nat) (s : State) (n : Nat), s.own.alive h = true ∧ s.w.rd h F.CAN_SEL.CH init = n ∧
      s.own.owns h (336 + n) = true) ∧
    (∃ (h : Half) (init : Nat) (mask : Nat) (s : State) (n : Nat), s.own.alive h = true ∧ s.w.rd h F.CAN_SEL.CH init = n ∧
      s.own.owns h (336 + n) = true) ∧
    (∃ (h : Half) (init : Nat) (mask : Nat) (s : State) (n : Nat), s.own.alive h = true ∧ s.w.rd h F.CAN_SEL.CH init = n ∧
      s.own.owns h (336 + n) = true) ∧
    (∃ (h : Half) (init : Nat) (v : Nat) (mask : Nat) (c : Instr) (s : State) (n : Nat), c ∈ [Instr.canModeWrite h init v,
      .canKnock h init, .canClrLockout h init, .canClrCnt h init, .canTxRequest h init mask, .canTxAbort h init mask,
      .canRxAck h init v] ∧ s.own.alive h = true ∧ s.w.rd h F.CAN_SEL.CH init = n ∧ s.own.owns h (336 + n) = false) ∧
    (∃ (h : Half) (init : Nat) (v : Nat) (mask : Nat) (c : Instr) (s : State), c ∈ [Instr.canModeWrite h init v, .canKnock h init,
      .canClrLockout h init, .canClrCnt h init, .canTxRequest h init mask, .canTxAbort h init mask, .canRxAck h init v] ∧
      s.own.alive h = false) ∧
    (∃ (n : Nat) (s : State) (b : Nat), n < 16 ∧ (s.w.canOnBus n).canMayTx n = true ∧ (∀ j, j < 3 → s.w.tbState n j ≠ 2) ∧
      s.w.offer n = some b) ∧
    (∃ (n : Nat) (s : State), n < 16 ∧ ((s.w.canOnBus n).canMayTx n = false ∨ s.w.offer n = none ∨ ∃ j < 3, s.w.tbState n j = 2)) ∧
    (∃ (n : Nat) (res : Nat) (ty : Nat) (fld : Nat) (pos : Nat) (tdcv : Nat) (s : State) (b : Nat), b < 3 ∧ s.w.tbState n b = 2 ∧ (∀ j,
      j < b → s.w.tbState n j ≠ 2) ∧ (b ≠ 0 ∨ (s.w.canCh n).due = [])) ∧
    (∃ (n : Nat) (res : Nat) (ty : Nat) (fld : Nat) (pos : Nat) (tdcv : Nat) (c : Instr) (s : State),
      c ∈ [Instr.canTxComplete n res ty fld pos tdcv, .canTxError n ty fld pos] ∧ (∀ j, j < 3 → s.w.tbState n j ≠ 2)) ∧
    (∃ (n : Nat) (ty : Nat) (fld : Nat) (pos : Nat) (s : State) (b : Nat), b < 3 ∧ s.w.tbState n b = 2 ∧ (∀ j,
      j < b → s.w.tbState n j ≠ 2) ∧ (b ≠ 0 ∨ (s.w.canCh n).due = [])) ∧
    (∃ (n : Nat) (s : State), 255 < s.w.rd .A F.CAN_ERRC.TEC n ∧ s.w.rd .A F.CAN_STATUS.STATE n ≠ 2) ∧
    (∃ (n : Nat) (s : State), (s.w.rd .A F.CAN_ERRC.TEC n ≤ 255 ∨ s.w.rd .A F.CAN_STATUS.STATE n = 2)) ∧
    (∃ (n : Nat) (s : State) (recent : Nat), s.w.rd .A F.CAN_STATUS.STATE n = 2 ∧ s.w.rd .A F.CAN_STATUS.LOCKOUT n = 0 ∧
      recent = ((s.w.canCh n).boffs.filter (fun x => decide (s.w.now < x + 60 * sec))).length) ∧
    (∃ (n : Nat) (s : State), (s.w.rd .A F.CAN_STATUS.STATE n ≠ 2 ∨ s.w.rd .A F.CAN_STATUS.LOCKOUT n = 1)) :=
  ⟨⟨.A, 0, 512 + 8, (stO [336] fun w => w.wr .A F.CAN_LOCK.OPEN 0 1), 0, by decide +kernel⟩,
   ⟨.A, 0, (stO [336] fun w => w.setTb 0 1 2), 0, by decide +kernel⟩,
   ⟨.A, 0, (stO [336] fun w => w.wr .A F.CAN_STATUS.LOCKOUT 0 1), 0, by decide +kernel⟩,
   ⟨.A, 0, (stO [336] fun w => w.wr .A F.CAN_CNT.BOFF 0 1), 0, by decide +kernel⟩,
   ⟨.A, 0, 5, (stO [336] id), 0, by decide +kernel⟩,
   ⟨.A, 0, 7, (stO [336] fun w => ((w.setTb 0 0 1).setTb 0 1 2).wr .A F.CAN_STATUS.KNOCKED 0 1), 0, by decide +kernel⟩,
   ⟨.B, 5, 0, 7, .canKnock .B 5, (stO [336] id), 0, by decide +kernel⟩,
   ⟨.B, 5, 0, 7, .canKnock .B 5, State.reset, by decide +kernel⟩,
   ⟨0, (st fun w => (w.wr .A F.CAN_CTRL.MODE 0 1).setTb 0 2 1 |>.wr .A F.CAN_STATUS.GREEN 0 0 |>.wr .A F.CAN_STATUS.TRX 0 0), 2,
      by decide +kernel⟩,
   ⟨0, st id, by decide +kernel⟩,
   ⟨0, 2, 1, 2, 3, 4, (st fun w => w.setTb 0 1 2), 1, by decide +kernel⟩,
   ⟨0, 2, 1, 2, 3, 4, .canTxError 0 1 2 3, st id, by decide +kernel⟩,
   ⟨0, 1, 2, 3, (st fun w => (w.setTb 0 1 2).updCan 0 fun c => { c with cands := [(0, 0)] }), 1, by decide +kernel⟩,
   ⟨0, st fun w => (w.wr .A F.CAN_ERRC.TEC 0 256).setTb 0 1 2, by decide +kernel⟩,
   ⟨0, st id, by decide +kernel⟩,
   ⟨0, (st fun w => (w.wr .A F.CAN_STATUS.STATE 0 2).updCan 0 fun c => { c with boffs := [0, 0], cfg := { boffLimit := 2 } }), 2,
      by decide +kernel⟩,
   ⟨0, st id, by decide +kernel⟩⟩

theorem witness_canReceive :
    (∃ (n : Nat) (m : Nat) (s : State) (x : CanMsg), s.w.can.sec.msgs[m]? = some x ∧ x.ch = n ∧ x.dir = 1 ∧ x.owner = 0 ∧
      s.w.rd .A F.CAN_STATUS.GREEN n = 0 ∧ s.w.rd .A F.CAN_STATUS.KNOCKED n = 0 ∧ s.w.rd .A F.CAN_STATUS.LOCKOUT n = 0 ∧
      (s.w.rd .A F.CAN_CTRL.MODE n = 1 ∨ s.w.rd .A F.CAN_CTRL.MODE n = 2) ∧ ((s.w.canCh n).cfg.stack = 0 ∨ (s.w.canCh n).claimed = true)) ∧
    (∃ (n : Nat) (m : Nat) (s : State), (s.w.can.sec.msgs[m]? = none ∨ s.w.rd .A F.CAN_STATUS.GREEN n = 1 ∨ s.w.rd .A F.CAN_STATUS.KNOCKED n = 1 ∨ s.w.rd .A F.CAN_STATUS.LOCKOUT n = 1 ∨ s.w.rd .A F.CAN_CTRL.MODE n = 0 ∨ s.w.rd .A F.CAN_CTRL.MODE n = 3)) ∧
    (∃ (n : Nat) (ty : Nat) (dom : Bool) (s : State), n < 16 ∧ s.w.rd .A F.CAN_CTRL.MODE n ≠ 0 ∧ s.w.rd .A F.CAN_STATUS.STATE n ≠ 2) ∧
    (∃ (n : Nat) (ty : Nat) (dom : Bool) (s : State), (16 ≤ n ∨ s.w.rd .A F.CAN_CTRL.MODE n = 0 ∨ s.w.rd .A F.CAN_STATUS.STATE n = 2)) ∧
    (∃ (n : Nat) (stamp : Nat) (self_ : Bool) (f : CanFrame) (s : State), n < 16 ∧ s.w.rd .A F.CAN_CTRL.MODE n = 1 ∧
      s.w.rd .A F.CAN_STATUS.TRX n ≠ 1 ∧ f.fdf = true) ∧
    (∃ (n : Nat) (stamp : Nat) (self_ : Bool) (f : CanFrame) (s : State) (x : CanFlt) (k : Nat) (hd : Nat) (used : Nat), n < 16 ∧
      (s.w.rd .A F.CAN_CTRL.MODE n = 2 ∨ (s.w.rd .A F.CAN_CTRL.MODE n = 1 ∧ f.fdf = false) ∨ s.w.rd .A F.CAN_CTRL.MODE n = 3) ∧
      s.w.rd .A F.CAN_STATUS.TRX n ≠ 1 ∧ (self_ = false ∨ s.w.rd .A F.CAN_CTRL.SELF_RX n = 1 ∨ s.w.rd .A F.CAN_CTRL.MODE n = 3) ∧
      s.w.canFilter n f = some (x, k) ∧ x.decode = false ∧ x.queue = true ∧ x.stack = false ∧ hd = s.w.rd .A F.CAN_RXQ.HEAD n ∧
      used = (hd + 65536 - s.w.rd .A F.CAN_RXQ.TAIL n) % 65536) ∧
    (∃ (n : Nat) (stamp : Nat) (self_ : Bool) (f : CanFrame) (s : State), s.w.rd .A F.CAN_CTRL.MODE n = 0) ∧
    (∃ (h : Half) (init : Nat) (v : Nat) (s : State) (n : Nat) (hd : Nat) (tl : Nat), s.own.alive h = true ∧
      s.w.rd h F.CAN_SEL.CH init = n ∧ s.own.owns h (336 + n) = true ∧ hd = s.w.rd .A F.CAN_RXQ.HEAD n ∧ tl = s.w.rd .A F.CAN_RXQ.TAIL n) ∧
    (∃ (n : Nat) (sa : Nat) (lost : Bool) (s : State), (s.w.canCh n).cfg.stack ≠ 0) ∧
    (∃ (n : Nat) (sa : Nat) (lost : Bool) (s : State), (s.w.canCh n).cfg.stack = 0) ∧
    (∃ (n : Nat) (lamps : Nat) (codes : List Byte) (s : State) (h : Half), s.own.owns h (336 + n) = true ∧
      (s.w.run.get h).running = true ∧ s.w.stackSends n = true ∧ (s.w.canCh n).dm1At + sec ≤ s.w.now ∧ s.w.tbState n 1 ≠ 1 ∧
      s.w.tbState n 1 ≠ 2) ∧
    (∃ (n : Nat) (lamps : Nat) (codes : List Byte) (s : State),
      (s.w.stackSends n = false ∨ s.w.now < (s.w.canCh n).dm1At + sec ∨ s.own.owner (336 + n) = none)) :=
  ⟨⟨3, 0, (st fun w => { (w.wr .A F.CAN_CTRL.MODE 3 1).wr .A F.CAN_STATUS.GREEN 3 0 with can := { w.can with sec := { msgs := [{ ch := 3, dir := 1, dlc := 2, id := 77 }] } } }),
      { ch := 3, dir := 1, dlc := 2, id := 77 }, by decide +kernel⟩,
   ⟨3, 0, st id, by decide +kernel⟩,
   ⟨3, 5, true, st fun w => (w.wr .A F.CAN_CTRL.MODE 3 1).wr .A F.CAN_ERRC.REC 3 121, by decide +kernel⟩,
   ⟨3, 5, true, st id, by decide +kernel⟩,
   ⟨3, 100, false, ⟨false, false, 77, true, false, false, 2, [1, 2]⟩,
      st fun w => w.wr .A F.CAN_CTRL.MODE 3 1 |>.wr .A F.CAN_STATUS.TRX 3 0, by decide +kernel⟩,
   ⟨3, 100, false, ⟨false, false, 77, false, false, false, 2, [1, 2]⟩,
      (st fun w => { w.wr .A F.CAN_CTRL.MODE 3 1 |>.wr .A F.CAN_STATUS.TRX 3 0 with can := { w.can with sec := { flts := [{ ch := 3, queue := true }] } } }),
      { ch := 3, queue := true }, 0, 0, 0, by decide +kernel⟩,
   ⟨3, 100, false, ⟨false, false, 77, false, false, false, 2, [1, 2]⟩, st id, by decide +kernel⟩,
   ⟨.A, 0, 2, (stO [336] fun w => w.wr .A F.CAN_RXQ.HEAD 0 5), 0, 5, 0, by decide +kernel⟩,
   ⟨3, 200, false, st fun w => w.updCan 3 fun c => { c with cfg := { stack := 1 } }, by decide +kernel⟩,
   ⟨3, 200, false, st id, by decide +kernel⟩,
   ⟨0, 0, [1, 2, 3, 4], (stO [336] fun w => { ((w.wr .A F.CAN_CTRL.MODE 0 1).wr .A F.CAN_STATUS.GREEN 0 0).updCan 0 (fun c => { c with claimed := true, cfg := { stack := 1 } }) with now := 1000000000 }),
      .A, by decide +kernel⟩,
   ⟨0, 0, [], st id, by decide +kernel⟩⟩

theorem witness_fleetSessions :
    (∃ (k : Nat) (speed : Nat) (master : Bool) (s : State) (h : Half), k < 8 ∧ h = portHalf k ∧ (s.w.run.get h).running = true) ∧
    (∃ (k : Nat) (speed : Nat) (master : Bool) (s : State) (g : Half), 8 ≤ k ∧ k < 11 ∧
      (k ≠ 10 ∨ speed = 0 ∨ s.w.rd .A F.ETH_CTRL.S0_EN = 1 ∨ s.w.rd .B F.ETH_CTRL.S0_EN = 1)) ∧
    (∃ (k : Nat) (speed : Nat) (master : Bool) (s : State), ((k < 8 ∧ (s.w.run.get (portHalf k)).running = false) ∨ 11 ≤ k ∨ (k = 10 ∧
      speed ≠ 0 ∧ s.w.rd .A F.ETH_CTRL.S0_EN = 0 ∧ s.w.rd .B F.ETH_CTRL.S0_EN = 0))) ∧
    (∃ (h : Half) (k : Nat) (s : State), (s.w.run.get h).running = true ∧ k < 11) ∧
    (∃ (h : Half) (k : Nat) (s : State), ((s.w.run.get h).running = false ∨ 11 ≤ k)) ∧
    (∃ (h : Half) (k : Nat) (port : Nat) (s : State), s.flxRuns h = true ∧ k < 16 ∧ s.w.fstate h k = 0 ∧
      s.w.rd h F.KEY_STATUS.CERT_OK = 1) ∧
    (∃ (h : Half) (k : Nat) (port : Nat) (s : State),
      (s.flxRuns h = false ∨ 16 ≤ k ∨ s.w.fstate h k ≠ 0 ∨ s.w.rd h F.KEY_STATUS.CERT_OK = 0)) ∧
    (∃ (h : Half) (k : Nat) (s : State), s.flxRuns h = true ∧ k < 16 ∧ s.w.fstate h k ≠ 0) ∧
    (∃ (h : Half) (k : Nat) (s : State), (s.flxRuns h = false ∨ 16 ≤ k ∨ s.w.fstate h k = 0)) ∧
    (∃ (h : Half) (m : Nat) (ip : Nat) (s : State), s.flxRuns h = true ∧ s.w.rd h F.KEY_STATUS.CERT_OK = 1) ∧
    (∃ (h : Half) (m : Nat) (ip : Nat) (s : State), (s.flxRuns h = false ∨ s.w.rd h F.KEY_STATUS.CERT_OK = 0)) ∧
    (∃ (h : Half) (k : Nat) (anchor : Nat) (s : State) (inPeriod : Bool) (serial : List Byte), s.flxRuns h = true ∧ k < 16 ∧
      s.w.fstate h k = 1) ∧
    (∃ (h : Half) (k : Nat) (anchor : Nat) (s : State) (inPeriod : Bool) (serial : List Byte) (x : Sess), s.flxRuns h = true ∧
      (s.w.flx.get h).conn = [(k, x)]) ∧
    (∃ (h : Half) (k : Nat) (anchor : Nat) (s : State) (client : Bool) (inPeriod : Bool) (serial : List Byte), s.flxRuns h = false) ∧
    (∃ (h : Half) (k : Nat) (role : Nat) (ver : Nat) (dev : List Byte) (s : State), s.flxRuns h = true ∧ k < 16 ∧ s.w.fstate h k = 2) ∧
    (∃ (h : Half) (k : Nat) (role : Nat) (ver : Nat) (dev : List Byte) (s : State) (j : Nat) (x : Sess), s.flxRuns h = true ∧
      (s.w.flx.get h).conn = [(k, x)] ∧ ver = 1 ∧ x.cert = some dev ∧ (∀ i, i < 16 → s.w.fstate h i = 3 → (s.w.fsess h i).dev ≠ dev) ∧
      (roleSlots role).find? (fun i => decide (s.w.fstate h i = 0)) = some j) ∧
    (∃ (h : Half) (k : Nat) (role : Nat) (ver : Nat) (client : Bool) (dev : List Byte) (s : State), s.flxRuns h = false) :=
  ⟨⟨3, 4, false, (st id), .B, by decide +kernel⟩,
   ⟨9, 1, false, (st id), .B, by decide +kernel⟩,
   ⟨3, 4, false, State.reset, by decide +kernel⟩,
   ⟨.A, 3, st id, by decide +kernel⟩,
   ⟨.A, 3, State.reset, by decide +kernel⟩,
   ⟨.A, 5, 47100, st fun w => (w.wr .A F.FLX_CTRL.EN 0 1).wr .A F.KEY_STATUS.CERT_OK 0 1, by decide +kernel⟩,
   ⟨.B, 5, 47100, st id, by decide +kernel⟩,
   ⟨.A, 5, st fun w => ((w.wr .A F.FLX_CTRL.EN 0 1).wr .A F.FLX_SESS.STATE 5 3).wr .A F.FLX_STATUS.OPEN 0 33, by decide +kernel⟩,
   ⟨.B, 5, st id, by decide +kernel⟩,
   ⟨.A, 2, 77, st fun w => { (w.wr .A F.FLX_CTRL.EN 0 1).wr .A F.KEY_STATUS.CERT_OK 0 1 with now := 5 }, by decide +kernel⟩,
   ⟨.B, 2, 77, st id, by decide +kernel⟩,
   ⟨.A, 5, 3, (st fun w => (w.wr .A F.FLX_CTRL.EN 0 1).wr .A F.FLX_SESS.STATE 5 1), true, [1], by decide +kernel⟩,
   ⟨.A, 5, 3, (st fun w => (w.wr .A F.FLX_CTRL.EN 0 1).updFlx .A fun q => { q with conn := [(5, { ip := 7 })] }), true, [1], { ip := 7 },
      by decide +kernel⟩,
   ⟨.B, 5, 3, (st id), true, true, [1], by decide +kernel⟩,
   ⟨.A, 5, 1, 1, [9], st fun w => ((w.wr .A F.FLX_CTRL.EN 0 1).wr .A F.FLX_SESS.STATE 5 2).setFsess .A 5 { client := true, cert := some [9] },
      by decide +kernel⟩,
   ⟨.A, 5, 2, 1, [9], (st fun w => (w.wr .A F.FLX_CTRL.EN 0 1).updFlx .A fun q => { q with conn := [(5, { cert := some [9] })] }), 1,
      { cert := some [9] }, by decide +kernel⟩,
   ⟨.B, 5, 1, 1, true, [9], st id, by decide +kernel⟩⟩

theorem witness_fleetMessages :
    (∃ (h : Half) (k : Nat) (ty : Nat) (seq : Nat) (ack : Nat) (p : List Byte) (s : State), s.flxRuns h = true ∧ k < 16 ∧
      s.w.fstate h k = 3) ∧
    (∃ (h : Half) (k : Nat) (ty : Nat) (seq : Nat) (ack : Nat) (p : List Byte) (s : State),
      (s.flxRuns h = false ∨ 16 ≤ k ∨ s.w.fstate h k ≠ 3)) ∧
    (∃ (h : Half) (k : Nat) (seq : Nat) (ack : Nat) (p : List Byte) (s : State), s.flxRuns h = true ∧ 1 ≤ k ∧ k ≤ 3 ∧ s.w.fstate h k = 3 ∧
      p.length = 32) ∧
    (∃ (h : Half) (k : Nat) (seq : Nat) (ack : Nat) (p : List Byte) (s : State), (s.flxRuns h = false ∨ 16 ≤ k ∨ s.w.fstate h k ≠ 3)) ∧
    (∃ (h : Half) (k : Nat) (s : State), s.flxRuns h = true ∧ k < 16 ∧ s.w.fstate h k = 3 ∧ (s.w.fsess h k).lastTx + sec ≤ s.w.now) ∧
    (∃ (h : Half) (k : Nat) (s : State), (s.flxRuns h = false ∨ 16 ≤ k ∨ s.w.fstate h k ≠ 3 ∨ s.w.now < (s.w.fsess h k).lastTx + sec)) ∧
    (∃ (h : Half) (k : Nat) (s : State), s.flxRuns h = true ∧ k < 16 ∧ s.w.fstate h k ≠ 0 ∧ (s.w.fsess h k).lastRx + 5 * sec ≤ s.w.now) ∧
    (∃ (h : Half) (k : Nat) (s : State), (s.flxRuns h = false ∨ 16 ≤ k ∨ s.w.fstate h k = 0 ∨ s.w.now < (s.w.fsess h k).lastRx + 5 * sec)) ∧
    (∃ (h : Half) (k : Nat) (s : State), s.flxRuns h = true ∧ k < 16 ∧ s.w.fstate h k = 3 ∧
      (2 ^ 24 ≤ (s.w.fsess h k).records ∨ (s.w.fsess h k).keyAt + 3600 * sec ≤ s.w.now)) ∧
    (∃ (h : Half) (k : Nat) (s : State), (s.flxRuns h = false ∨ 16 ≤ k ∨ s.w.fstate h k ≠ 3 ∨ ((s.w.fsess h k).records < 2 ^ 24 ∧
      s.w.now < (s.w.fsess h k).keyAt + 3600 * sec))) ∧
    (∃ (h : Half) (s : State), s.flxRuns h = true) ∧
    (∃ (h : Half) (s : State), s.flxRuns h = true) ∧
    (∃ (h : Half) (s : State) (c : Instr), c ∈ [Instr.status h, .cartSync h] ∧ s.flxRuns h = false) ∧
    (∃ (h : Half) (s : State) (k : Nat), s.flxRuns h = true ∧ k = s.w.rd h F.FLX_CART.ACTIVE ∧ k ≠ 15 ∧ s.w.rd h F.FLX_CART.STALE = 0 ∧
      (s.w.fsess h k).cartAt + 250 * ms ≤ s.w.now) ∧
    (∃ (h : Half) (s : State), (s.flxRuns h = false ∨ s.w.rd h F.FLX_CART.ACTIVE = 15 ∨ s.w.rd h F.FLX_CART.STALE = 1 ∨ s.w.now < (s.w.fsess h (s.w.rd h F.FLX_CART.ACTIVE)).cartAt + 250 * ms)) :=
  ⟨⟨.A, 0, 2, 1, 1, [], st fun w => ((w.wr .A F.FLX_CTRL.EN 0 1).wr .A F.FLX_SESS.STATE 0 3).setFsess .A 0 { unacked := [(1, 32), (2, 64)] },
      by decide +kernel⟩,
   ⟨.B, 0, 2, 1, 1, [], st id, by decide +kernel⟩,
   ⟨.A, 2, 1, 1, List.replicate 32 1, st fun w => (w.wr .A F.FLX_CTRL.EN 0 1).wr .A F.FLX_SESS.STATE 2 3, by decide +kernel⟩,
   ⟨.B, 2, 1, 1, [], st id, by decide +kernel⟩,
   ⟨.A, 2, st fun w => { (w.wr .A F.FLX_CTRL.EN 0 1).wr .A F.FLX_SESS.STATE 2 3 with now := 1000000000 }, by decide +kernel⟩,
   ⟨.B, 2, st id, by decide +kernel⟩,
   ⟨.A, 2, st fun w => { (w.wr .A F.FLX_CTRL.EN 0 1).wr .A F.FLX_SESS.STATE 2 3 with now := 5000000000 }, by decide +kernel⟩,
   ⟨.B, 2, st id, by decide +kernel⟩,
   ⟨.A, 2, st fun w => { (w.wr .A F.FLX_CTRL.EN 0 1).wr .A F.FLX_SESS.STATE 2 3 with now := 3600000000000 }, by decide +kernel⟩,
   ⟨.B, 2, st id, by decide +kernel⟩,
   ⟨.A, st fun w => (w.wr .A F.FLX_CTRL.EN 0 1).wr .A F.FLX_SESS.STATE 4 3, by decide +kernel⟩,
   ⟨.A, st fun w => (w.wr .A F.FLX_SESS.STATE 2 3).updFlx .A fun q => { q with asks := [(2, [])] }, by decide +kernel⟩,
   ⟨.B, (st id), .status .B, by decide +kernel⟩,
   ⟨.A, (st fun w => { (w.wr .A F.FLX_CTRL.EN 0 1).wr .A F.FLX_CART.ACTIVE 0 2 with now := 250000000 }), 2, by decide +kernel⟩,
   ⟨.B, st id, by decide +kernel⟩⟩

theorem witness_serviceRequests :
    (∃ (h : Half) (n : Nat) (s : State) (g : List Nat), g = s.w.groupOf h n ∧ (s.w.run.get h).running = true ∧ s.ownsGroup h g = true) ∧
    (∃ (h : Half) (n : Nat) (s : State), ((s.w.run.get h).running = false ∨ s.ownsGroup h (s.w.groupOf h n) = false)) ∧
    (∃ (s : State) (h : Half) (g : Half) (l : List Nat), s.own.server = some h ∧ s.w.rd .A F.STW_SVC_STAT.STATE ≠ 5 ∧
      s.awayGroups.find? (fun g => s.qualifies (groupHome ((s.w.funcs h).recs) h g)) = some l ∧ g = groupHome ((s.w.funcs h).recs) h l ∧
      s.w.svc.lastMove + 20 * ms ≤ s.w.now ∧ s.accepts g = true) ∧
    (∃ (s : State), (s.own.server = none ∨ (s.w.rd .A F.STW_SVC_STAT.STATE ≠ 5 ∧ ∀ g ∈ s.awayGroups, ∀ h, s.qualifies h = false))) ∧
    (∃ (h : Half) (init : Nat) (target : Nat) (s : State) (x : Half), (s.w.run.get h).running = true ∧ s.own.alive h = true ∧ target < 2 ∧
      x = halfOf target ∧ s.prepareRefusal x = 0) ∧
    (∃ (h : Half) (init : Nat) (target : Nat) (s : State), (s.w.run.get h).running = true ∧ s.own.alive h = true ∧
      (2 ≤ target ∨ s.prepareRefusal (halfOf target) ≠ 0)) ∧
    (∃ (h : Half) (init : Nat) (tl : Nat) (s : State), (s.w.run.get h).running = true ∧ s.own.alive h = true) ∧
    (∃ (h : Half) (init : Nat) (s : State), (s.w.run.get h).running = true ∧ s.own.alive h = true) ∧
    (∃ (h : Half) (init : Nat) (s : State), (s.w.run.get h).running = true ∧ s.own.alive h = true) ∧
    (∃ (h : Half) (init : Nat) (s : State), (s.w.run.get h).running = true ∧ s.own.alive h = true ∧ s.w.svc.busy = true ∧
      s.w.svc.prepared = none) ∧
    (∃ (h : Half) (init : Nat) (s : State), (s.w.run.get h).running = true ∧ s.own.alive h = true ∧ s.w.svc.busy = true ∧
      s.w.svc.prepared = some h.other) ∧
    (∃ (h : Half) (init : Nat) (s : State) (c : Instr) (target : Nat), c ∈ [Instr.prepareHalf h init target, .prepareTile h init target,
      .svcCancel h init, .fanReset h init, .holdupReset h init] ∧ ((s.w.run.get h).running = false ∨ s.own.alive h = false)) ∧
    (∃ (s : State) (x : Half), s.w.svc.prepared = some x ∧ s.w.svc.readyAt + 1800 * sec ≤ s.w.now) ∧
    (∃ (s : State), (s.w.svc.prepared = none ∨ s.w.now < s.w.svc.readyAt + 1800 * sec)) ∧
    (∃ (h : Half) (s : State), s.w.svc.presence.get h = true) ∧
    (∃ (h : Half) (s : State), s.w.svc.presence.get h = false) ∧
    (∃ (h : Half) (s : State) (k : Option Cartridge), s.w.svc.presence.get h = false ∧ s.own.alive h = false) ∧
    (∃ (h : Half) (s : State) (k : Option Cartridge), (s.w.svc.presence.get h = true ∨ s.own.alive h = true)) :=
  ⟨⟨.A, 0, mover, [0], by decide +kernel⟩,
   ⟨.A, 0, st id, by decide +kernel⟩,
   ⟨away, .B, .A, [0], by decide +kernel⟩,
   ⟨State.reset, Or.inl (by decide +kernel)⟩,
   ⟨.A, 0, 1, (st fun w => ((w.wr .A F.STW_STAGE.BLOOM_DONE 0 1).wr .B F.XNG_STATUS.UP 0 1)), .B, by decide +kernel⟩,
   ⟨.A, 0, 1, st id, by decide +kernel⟩,
   ⟨.A, 0, 2, st fun w => w.wr .A F.VLV_TILE.PRESENT 2 1, by decide +kernel⟩,
   ⟨.A, 0, st fun w => (w.wr .A F.SET_STATE.STATE 0 5).wr .A F.STW_LIFE_FAN.HOURS 0 900, by decide +kernel⟩,
   ⟨.A, 0, st fun w => (w.wr .A F.SET_STATE.STATE 0 5).wr .A F.STW_LIFE_HOLD.FAIL 0 1, by decide +kernel⟩,
   ⟨.A, 0, st fun w => w.updSvc fun v => { v with busy := true, tile := 3 }, by decide +kernel⟩,
   ⟨.A, 0, st fun w => w.updSvc fun v => { v with busy := true, prepared := some .B }, by decide +kernel⟩,
   ⟨.A, 0, State.reset, .fanReset .A 0, 1, by decide +kernel⟩,
   ⟨(st fun w => { w.updSvc fun v => { v with busy := true, prepared := some .B } with now := 1800000000000 }), .B, by decide +kernel⟩,
   ⟨st id, by decide +kernel⟩,
   ⟨.A, st id, by decide +kernel⟩,
   ⟨.A, st fun w => w.updSvc fun v => { v with presence := Two.both false }, by decide +kernel⟩,
   ⟨.A, { State.reset with w := World.init.updSvc fun v => { v with presence := Two.both false } }, none, by decide +kernel⟩,
   ⟨.A, st id, none, by decide +kernel⟩⟩

theorem witness_stewardFrames :
    (∃ (h : Half) (busy : Nat) (c0 : Nat) (c1 : Nat) (s : State), (s.w.run.get h).running = true ∧
      s.w.mt h / (10 * ms) ≠ (s.w.frame.get h).start / (10 * ms)) ∧
    (∃ (h : Half) (s : State), (s.w.run.get h).running = true ∧ (s.w.frame.get h).shed = false ∧
      (s.w.frame.get h).start + 8 * ms ≤ s.w.mt h) ∧
    (∃ (h : Half) (s : State), (s.w.run.get h).running = true ∧ (s.w.frame.get h).paused = false ∧
      (s.w.frame.get h).start + 9500 * us ≤ s.w.mt h) ∧
    (∃ (h : Half) (busy : Nat) (c0 : Nat) (c1 : Nat) (c : Instr) (s : State), c ∈ [Instr.stewardFrame h busy c0 c1, .c3Shed h,
      .c2Pause h] ∧ ((s.w.run.get h).running = false ∨ ((s.w.frame.get h).start = s.w.mt h / (10 * ms) * (10 * ms) ∧
      s.w.mt h < (s.w.frame.get h).start + 8 * ms))) ∧
    (∃ (h : Half) (init : Nat) (v : Nat) (s : State), (s.w.run.get h).running = true) ∧
    (∃ (h : Half) (s : State), (s.w.run.get h).running = true ∧ (s.w.frame.get h).served = true ∧
      (s.w.frame.get h).wdAt + 30 * ms ≤ s.w.now) ∧
    (∃ (h : Half) (init : Nat) (v : Nat) (c : Instr) (s : State), c ∈ [Instr.watchdogService h init v, .watchdogExpiry h] ∧
      (s.w.run.get h).running = false) :=
  ⟨⟨.A, 4500, 2000, 1000, st fun w => { w with now := 20000000 }, by decide +kernel⟩,
   ⟨.A, st fun w => { w with now := 8000000 }, by decide +kernel⟩,
   ⟨.A, st fun w => { w with now := 9500000 }, by decide +kernel⟩,
   ⟨.A, 0, 0, 0, .c3Shed .A, st id, by decide +kernel⟩,
   ⟨.A, 0, 0x5A, st id, by decide +kernel⟩,
   ⟨.A, st fun w => { w.updFrame .A fun f => { f with served := true } with now := 30000000 }, by decide +kernel⟩,
   ⟨.A, 0, 0, .watchdogExpiry .A, State.reset, by decide +kernel⟩⟩

theorem witness_eventsAndKnocks :
    (∃ (h : Half) (num : Nat) (arg : Nat) (s : State), num < 256 ∧ (s.w.run.get h).running = true ∧ (s.w.evt.get h).lostDue = false) ∧
    (∃ (h : Half) (num : Nat) (arg : Nat) (s : State), (256 ≤ num ∨ (s.w.run.get h).running = false)) ∧
    (∃ (h : Half) (s : State) (r : EvRec) (rest : List EvRec) (n : Nat), (s.w.evt.get h).queue = r :: rest ∧
      (s.w.run.get h).running = true ∧ (s.w.evt.get h).routes = [] ∧ (s.w.evt.get h).lostDue = false ∧ n = s.w.rd h F.EVT_LOG_HEAD.VALUE) ∧
    (∃ (h : Half) (s : State) (r : EvRec) (rest : List EvRec) (x : Route), (s.w.evt.get h).queue = r :: rest ∧
      (s.w.run.get h).running = true ∧ x ∈ (s.w.evt.get h).routes ∧ x.fits r = true ∧ s.w.rd h F.EVT_CTRL.REACT_EN = 1 ∧
      s.own.alive h = true ∧ x.react = 1 ∧ kindOfObj x.target = 2 ∧ x.target < 362 ∧ s.own.owns h x.target = true) ∧
    (∃ (h : Half) (s : State), ((s.w.evt.get h).queue = [] ∨ (s.w.run.get h).running = false)) ∧
    (∃ (h : Half) (init : Nat) (cls : Nat) (idx : Nat) (tc : Nat) (jobs : List Nat) (s : State) (k : Nat),
      (s.w.run.get h).running = true ∧ (s.w.freeSlots h init).freeSlot h = some k ∧
      (s.w.freeSlots h init).knockPending h (cls % 8) (idx % 512) = false) ∧
    (∃ (h : Half) (init : Nat) (cls : Nat) (idx : Nat) (tc : Nat) (jobs : List Nat) (s : State), (s.w.run.get h).running = true ∧ (∀ k,
      k < 8 → (s.w.slot h k).taken = true ∧ ((s.w.slot h k).init ≠ init ∨ s.w.slotBusy h k = true))) ∧
    (∃ (h : Half) (init : Nat) (cls : Nat) (idx : Nat) (tc : Nat) (jobs : List Nat) (s : State), (s.w.run.get h).running = false) ∧
    (∃ (h : Half) (k : Nat) (s : State), k < 8 ∧ s.w.slotBusy h k = true) ∧
    (∃ (h : Half) (k : Nat) (s : State), k < 8 ∧ s.w.slotBusy h k = true ∧ s.w.rd h F.EVT_KNOCK_RES.RES k = 0 ∧
      (s.w.slot h k).start + knockBound (s.w.rd h F.EVT_KNOCK_RES.CLASS k) ≤ s.w.now) ∧
    (∃ (h : Half) (k : Nat) (c : Instr) (s : State), c ∈ [Instr.knockComplete h k, .knockEscalation h k] ∧
      (8 ≤ k ∨ s.w.slotBusy h k = false)) :=
  ⟨⟨.A, 30, 5, st id, by decide +kernel⟩,
   ⟨.A, 30, 5, State.reset, by decide +kernel⟩,
   ⟨.A, (st fun w => w.updEvt .A fun e => { e with queue := [⟨7, 30, 0, 1, 5⟩] }), ⟨7, 30, 0, 1, 5⟩, [], 0, by decide +kernel⟩,
   ⟨.A, (stO [100] fun w => (w.updEvt .A fun e => { e with queue := [⟨7, 30, 0, 1, 5⟩], routes := [{ event := 30, matchObj := 0xFFFF, clusters := 0, vec := [], react := 1, target := 100, fwd := false }] }).wr .A F.EVT_CTRL.REACT_EN 0 1),
      ⟨7, 30, 0, 1, 5⟩, [], { event := 30, matchObj := 0xFFFF, clusters := 0, vec := [], react := 1, target := 100, fwd := false },
      by decide +kernel⟩,
   ⟨.A, st id, by decide +kernel⟩,
   ⟨.A, 2, 0, 100, 0, [], (stO [100] id), 0, by decide +kernel⟩,
   ⟨.A, 2, 0, 100, 0, [], st fun w => (List.range 8).foldl (fun w k => w.setSlot .A k ⟨true, 3, 0⟩) w, by decide +kernel⟩,
   ⟨.A, 2, 0, 100, 0, [], State.reset, by decide +kernel⟩,
   ⟨.A, 2, st fun w => w.wr .A F.EVT_KNOCK_RES.BUSY 2 1, by decide +kernel⟩,
   ⟨.A, 2, st fun w => { w.wr .A F.EVT_KNOCK_RES.BUSY 2 1 with now := 50000 }, by decide +kernel⟩,
   ⟨.A, 2, .knockComplete .A 2, st id, by decide +kernel⟩⟩

theorem witness_updateSessions :
    (∃ (h : Half) (r : Nat) (s : State) (o : UpdOpen) (src : Nat) (len : Nat), (s.w.run.get h).running = true ∧ 1 ≤ r ∧ r ≤ 7 ∧
      s.w.rd h F.UPD_CTRL.NET_EN = 1 ∧ src = 2 * 2 ^ 28 + o.tag % 2 ^ 28 ∧ len = o.len) ∧
    (∃ (h : Half) (r : Nat) (s : State) (p : List Byte) (src : Nat) (len : Nat), (s.w.run.get h).running = true ∧ 1 ≤ r ∧ r ≤ 7 ∧
      p = s.w.getMem h 0 (s.w.rd h F.UPD_REQ_ADDR.ADDR) 16 ∧ src = 2 ^ 28 + u32At p 0 % 2 ^ 28 ∧ len = u64At p 4) ∧
    (∃ (h : Half) (r : Nat) (s : State) (net : Option UpdOpen), ((s.w.run.get h).running = false ∨ r = 0 ∨ 7 < r ∨ (net.isSome = true ∧
      s.w.rd h F.UPD_CTRL.NET_EN = 0))) ∧
    (∃ (h : Half) (r : Nat) (s : State) (b : List Byte) (x : Session), (s.w.run.get h).running = true ∧ 1 ≤ r ∧ r ≤ 7 ∧
      s.w.rd h F.UPD_CTRL.NET_EN = 1 ∧ x = s.w.sess h r) ∧
    (∃ (h : Half) (r : Nat) (s : State) (a : Nat), (s.w.run.get h).running = true ∧ 1 ≤ r ∧ r ≤ 7 ∧ s.w.rd h F.UPD_CTRL.NET_EN = 1 ∧
      a = s.w.rd h F.UPD_REQ_ADDR.ADDR) ∧
    (∃ (h : Half) (r : Nat) (s : State), (s.w.run.get h).running = true ∧ 1 ≤ r ∧ r ≤ 7 ∧ s.w.rd h F.UPD_CTRL.NET_EN = 0 ∧
      s.w.sessState h r ≠ 1) ∧
    (∃ (h : Half) (r : Nat) (s : State) (net : Option (List Byte)),
      ((s.w.run.get h).running = false ∨ r = 0 ∨ 7 < r ∨ (net.isSome = true ∧ s.w.rd h F.UPD_CTRL.NET_EN = 0))) ∧
    (∃ (h : Half) (r : Nat) (net : Bool) (s : State), (s.w.run.get h).running = true ∧ 1 ≤ r ∧ r ≤ 7 ∧
      (net = false ∨ s.w.rd h F.UPD_CTRL.NET_EN = 1)) ∧
    (∃ (h : Half) (r : Nat) (s : State) (x : Session), (s.w.run.get h).running = true ∧ s.w.sessState h r = 2 ∧ 1 ≤ r ∧ r ≤ 7 ∧
      x = s.w.sess h r) ∧
    (∃ (h : Half) (r : Nat) (s : State), ((s.w.run.get h).running = false ∨ s.w.sessState h r ≠ 2 ∨ r = 0 ∨ 7 < r)) ∧
    (∃ (h : Half) (r : Nat) (net : Bool) (s : State), (s.w.run.get h).running = true ∧ 1 ≤ r ∧ r ≤ 7 ∧
      (net = false ∨ s.w.rd h F.UPD_CTRL.NET_EN = 1)) ∧
    (∃ (h : Half) (r : Nat) (net : Bool) (c : Instr) (s : State), c ∈ [Instr.updClose h r net, .updAbort h r net] ∧
      ((s.w.run.get h).running = false ∨ r = 0 ∨ 7 < r ∨ (net = true ∧ s.w.rd h F.UPD_CTRL.NET_EN = 0))) ∧
    (∃ (h : Half) (r : Nat) (s : State), (s.w.sessState h r = 1 ∨ s.w.sessState h r = 2) ∧ (s.w.sess h r).at_ + 60 * sec ≤ s.w.now) ∧
    (∃ (h : Half) (r : Nat) (s : State), ((s.w.sessState h r ≠ 1 ∧ s.w.sessState h r ≠ 2) ∨ s.w.now < (s.w.sess h r).at_ + 60 * sec)) ∧
    (∃ (h : Half) (s : State), (s.w.run.get h).running = true ∧ (s.w.upd.get h).restart = true ∧ (∀ r,
      1 ≤ r → r ≤ 7 → s.w.sessState h r ≠ 1)) ∧
    (∃ (h : Half) (s : State), ((s.w.run.get h).running = false ∨ (s.w.upd.get h).restart = false ∨ ∃ r, 1 ≤ r ∧ r ≤ 7 ∧
      s.w.sessState h r = 1)) ∧
    (∃ (h : Half) (r : Nat) (s : State), (s.w.run.get h).running = true ∧ 1 ≤ r ∧ r ≤ 5 ∧ s.w.restoreDue h r = true) ∧
    (∃ (h : Half) (r : Nat) (s : State), ((s.w.run.get h).running = false ∨ r = 0 ∨ 5 < r ∨ s.w.restoreDue h r = false)) ∧
    (∃ (h : Half) (s : State) (b : List Byte), (s.w.run.get h).running = true ∧ b = s.w.getMem h 0 (s.w.rd h F.KEY_DBG_ADDR.ADDR) 136) ∧
    (∃ (h : Half) (s : State), (s.w.run.get h).running = false) ∧
    (∃ (h : Half) (s : State) (scope : Nat) (na : Nat), (s.w.upd.get h).dbg = some (scope, na) ∧ na ≤ s.w.mt h) ∧
    (∃ (h : Half) (s : State), (∀ d ∈ (s.w.upd.get h).dbg, s.w.mt h < d.2)) :=
  ⟨⟨.A, 6, (st fun w => { w with latch := { w.latch with keyOn := true } }), ⟨5, 8192, false⟩, 2 * 2 ^ 28 + 5, 8192, by decide +kernel⟩,
   ⟨.A, 6, (st id), List.replicate 16 0, 2 ^ 28, 0, by decide +kernel⟩,
   ⟨.A, 6, State.reset, none, by decide +kernel⟩,
   ⟨.A, 6, (st id), List.replicate 16 0, ⟨0, 0, 0, [], 0, false⟩, by decide +kernel⟩,
   ⟨.A, 6, (st id), 0, by decide +kernel⟩,
   ⟨.A, 6, st fun w => w.wr .A F.UPD_CTRL.NET_EN 0 0, by decide +kernel⟩,
   ⟨.A, 6, State.reset, none, by decide +kernel⟩,
   ⟨.A, 6, true, st fun w => w.wr .A F.UPD_SESS.STATE 6 1, by decide +kernel⟩,
   ⟨.A, 2, (st fun w => w.wr .A F.UPD_SESS.STATE 2 2), ⟨0, 0, 0, [], 0, false⟩, by decide +kernel⟩,
   ⟨.A, 2, st id, by decide +kernel⟩,
   ⟨.A, 6, false, st fun w => w.wr .A F.UPD_SESS.STATE 6 1, by decide +kernel⟩,
   ⟨.A, 6, true, .updAbort .A 6 true, State.reset, by decide +kernel⟩,
   ⟨.A, 6, st fun w => { w.wr .A F.UPD_SESS.STATE 6 1 with now := 60000000000 }, by decide +kernel⟩,
   ⟨.A, 6, st id, by decide +kernel⟩,
   ⟨.A, st fun w => w.updUpd .A fun u => { u with restart := true }, by decide +kernel⟩,
   ⟨.A, st id, Or.inr (Or.inl (by decide +kernel))⟩,
   ⟨.A, 2, st fun w => ((w.wr .A F.XNG_STATUS.UP 0 1).updUpd .B fun u => { u with region := [(2, { valid := true, len := 8 })] }),
      by decide +kernel⟩,
   ⟨.A, 2, st id, by decide +kernel⟩,
   ⟨.A, (st id), List.replicate 136 0, by decide +kernel⟩,
   ⟨.A, State.reset, by decide +kernel⟩,
   ⟨.A, (st fun w => w.updUpd .A fun u => { u with dbg := some (1, 0) }), 1, 0, by decide +kernel⟩,
   ⟨.A, st id, by decide +kernel⟩⟩

theorem witness_powerEntry :
    (∃ (v : Nat) (i : Nat) (clamped : Bool) (s : State), s.w.pwr.fail = false ∧ s.w.rd .A F.PWR_STATUS.LSTATE ≠ 0) ∧
    (∃ (v : Nat) (i : Nat) (clamped : Bool) (s : State), s.w.pwr.fail = false ∧ s.w.rd .A F.PWR_STATUS.LSTATE ≠ 0 ∧
      s.w.rd .A F.PWR_STATUS.LSTATE ≠ 3 ∧ v < 600) ∧
    (∃ (v : Nat) (i : Nat) (clamped : Bool) (s : State), s.w.pwr.fail = false ∧ s.w.rd .A F.PWR_STATUS.LSTATE = 3 ∧ 800 ≤ v) ∧
    (∃ (v : Nat) (i : Nat) (s : State), s.w.pwr.fail = false ∧ s.w.rd .A F.PWR_STATUS.LSTATE = 4 ∧ 3600 < v ∧ s.w.pwr.clampSeen = false) ∧
    (∃ (v : Nat) (i : Nat) (clamped : Bool) (s : State), (s.w.pwr.fail = true ∨ s.w.rd .A F.PWR_STATUS.LSTATE = 0)) ∧
    (∃ (mean : Nat) (s : State), s.w.latch.logicValid = true ∧ s.w.pwr.classed = false ∧ s.w.latch.validAt + 100000000 ≤ s.w.now) ∧
    (∃ (mean : Nat) (s : State), (s.w.latch.logicValid = false ∨ s.w.pwr.classed = true ∨ s.w.now < s.w.latch.validAt + 100000000)) ∧
    (∃ (f : Nat) (v : Nat) (i : Nat) (s : State), f < 4) ∧
    (∃ (f : Nat) (v : Nat) (i : Nat) (s : State), 4 ≤ f) ∧
    (∃ (f : Nat) (stud : Nat) (behind : Nat) (s : State), f < 4 ∧ 800 ≤ stud) ∧
    (∃ (f : Nat) (stud : Nat) (behind : Nat) (s : State), f < 4 ∧ stud < 800) ∧
    (∃ (f : Nat) (stud : Nat) (behind : Nat) (s : State), 4 ≤ f) ∧
    (∃ (h : Half) (init : Nat) (f : Nat) (on : Bool) (s : State), f < 4 ∧ s.own.alive h = true ∧ s.own.owns h (358 + f) = true) ∧
    (∃ (h : Half) (init : Nat) (f : Nat) (on : Bool) (s : State), f < 4 ∧ s.own.alive h = true ∧ s.own.owns h (358 + f) = false) ∧
    (∃ (h : Half) (init : Nat) (f : Nat) (on : Bool) (s : State), (4 ≤ f ∨ s.own.alive h = false)) ∧
    (∃ (h : Half) (init : Nat) (s : State), s.own.alive h = true ∧ s.own.ownsAny h 354 8 = true) ∧
    (∃ (h : Half) (init : Nat) (s : State), s.own.alive h = true ∧ s.own.ownsAny h 354 8 = false) :=
  ⟨⟨599, 15000, false, st fun w => w.wr .A F.PWR_STATUS.LSTATE 0 1, by decide +kernel⟩,
   ⟨599, 15000, false, st fun w => { (w.wr .A F.PWR_STATUS.LSTATE 0 1).wr .A F.DSP_STATUS.BL 0 0 with latch := { w.latch with pwrHold := true } },
      by decide +kernel⟩,
   ⟨800, 15000, false, st fun w => (w.wr .A F.PWR_STATUS.LSTATE 0 3).wr .A F.PWR_HOLDUP.ACTIVE 0 1, by decide +kernel⟩,
   ⟨3700, 15000, st fun w => w.wr .A F.PWR_STATUS.LSTATE 0 4, by decide +kernel⟩,
   ⟨1300, 15000, false, st fun w => { w.wr .A F.PWR_STATUS.LSTATE 0 3 with pwr := { w.pwr with fail := true } }, by decide +kernel⟩,
   ⟨1801, st fun w => { w with now := 100000000, latch := { w.latch with logicValid := true, validAt := 0 } }, by decide +kernel⟩,
   ⟨1801, st fun w => { w with pwr := { w.pwr with classed := true } }, by decide +kernel⟩,
   ⟨3, 240, 5000, st id, by decide +kernel⟩,
   ⟨4, 240, 5000, st id, by decide +kernel⟩,
   ⟨1, 1200, 449, st fun w => w.wr .A F.PWR_FEED.CONNECT 1 1, by decide +kernel⟩,
   ⟨0, 799, 0, st fun w => w.wr .A F.PWR_FEED.FUSE_OPEN 0 1, by decide +kernel⟩,
   ⟨4, 799, 0, st id, by decide +kernel⟩,
   ⟨.A, 0, 2, false, stO [360] fun w => (w.wr .A F.PWR_FEED.CONNECT 2 1).wr .A F.PWR_SAFE.ASSERTED 0 1, by decide +kernel⟩,
   ⟨.B, 6, 2, false, stO [360] id, by decide +kernel⟩,
   ⟨.B, 6, 4, false, st id, by decide +kernel⟩,
   ⟨.A, 0, stO [361] fun w => (w.wr .A F.PWR_CNT.HOLDUP 0 3).wr .A F.PWR_CNT.KICKS 0 9, by decide +kernel⟩,
   ⟨.B, 6, stO [361] id, by decide +kernel⟩⟩

theorem witness_powerLoss :
    (∃ (wrote : Bool) (ma : List CupMeas) (mb : List CupMeas) (s : State), s.w.rd .A F.PWR_STATUS.LSTATE = 3 ∧ s.w.pwr.fail = false ∧
      (s.w.pwr.holdAt + 100000000 ≤ s.w.now ∨ s.w.rd .A F.PWR_HOLDUP.V ≤ 2400)) ∧
    (∃ (wrote : Bool) (ma : List CupMeas) (mb : List CupMeas) (s : State),
      (s.w.rd .A F.PWR_STATUS.LSTATE ≠ 3 ∨ s.w.pwr.fail = true ∨ s.w.now < s.w.pwr.holdAt + 100000000 ∧ 2400 < s.w.rd .A F.PWR_HOLDUP.V)) ∧
    (∃ (v : Nat) (s : State), s.w.pwr.fail = true ∧ 800 ≤ v ∧ (s.w.run.get .A).running = false ∧ (s.w.run.get .B).running = false) ∧
    (∃ (v : Nat) (s : State), (s.w.pwr.fail = false ∨ v < 800 ∨ (s.w.run.get .A).running = true ∨ (s.w.run.get .B).running = true)) ∧
    (∃ (ts : Int) (t0 : Nat) (s : State), s.w.rd .A F.PWR_SHDN.ASSERTED = 0 ∧ s.w.pwr.hotAt = some t0 ∧ t0 + 1000000000 ≤ s.w.now ∧
      ((s.w.rd .A F.PWR_SHDN.T_SH : Int) ≤ ts ∨ ts < -50)) ∧
    (∃ (ts : Int) (s : State), (s.w.rd .A F.PWR_SHDN.ASSERTED = 1 ∨ s.w.pwr.hotAt = none)) ∧
    (∃ (s : State), s.w.rd .A F.PWR_SHDN.ASSERTED = 1 ∧ s.w.pwr.shdnAt + 200000000 ≤ s.w.now) ∧
    (∃ (s : State), (s.w.rd .A F.PWR_SHDN.ASSERTED = 0 ∨ s.w.now < s.w.pwr.shdnAt + 200000000)) ∧
    (∃ (ts : Int) (t0 : Nat) (s : State), s.w.rd .A F.PWR_SHDN.ASSERTED = 1 ∧ s.w.pwr.coldAt = some t0 ∧ t0 + 60000000000 ≤ s.w.now ∧
      -50 ≤ ts ∧ ts < (s.w.rd .A F.PWR_SHDN.T_SH : Int) - 10) ∧
    (∃ (ts : Int) (s : State), (s.w.rd .A F.PWR_SHDN.ASSERTED = 0 ∨ s.w.pwr.coldAt = none)) :=
  ⟨⟨false, [], [], st fun w => { w.wr .A F.PWR_STATUS.LSTATE 0 3 with now := 100000000 }, by decide +kernel⟩,
   ⟨true, [], [], st id, by decide +kernel⟩,
   ⟨900, { (st fun w => { (w.updSvc fun v => { v with presence := Two.both true }) with pwr := { w.pwr with fail := true }, run := Two.both Run.init }) with own := Own.init },
      by decide +kernel⟩,
   ⟨799, st id, by decide +kernel⟩,
   ⟨120, 0, st fun w => { w with now := 1000000000, pwr := { w.pwr with hotAt := some 0 } }, by decide +kernel⟩,
   ⟨95, st fun w => { w with now := 1000000000 }, by decide +kernel⟩,
   ⟨st fun w => { w.wr .A F.PWR_SHDN.ASSERTED 0 1 with now := 200000000 }, by decide +kernel⟩,
   ⟨st id, by decide +kernel⟩,
   ⟨84, 0, { (st fun w => { ((w.updSvc fun v => { v with presence := Two.both true }).wr .A F.PWR_SHDN.ASSERTED 0 1) with now := 60000000000, pwr := { w.pwr with coldAt := some 0 }, run := Two.both Run.init, latch := { w.latch with logicValid := true } }) with own := Own.init },
      by decide +kernel⟩,
   ⟨84, st fun w => w.wr .A F.PWR_SHDN.ASSERTED 0 1, by decide +kernel⟩⟩

theorem witness_coolingAndFans :
    (∃ (ta : Int) (s : State), 700 < ta) ∧
    (∃ (ta : Int) (t0 : Nat) (s : State), ta ≤ 670 ∧ s.w.pwr.bad.getD 2 false = false ∧ s.w.pwr.coolAt = some t0) ∧
    (∃ (ta : Int) (s : State), ta ≤ 700 ∧ (670 < ta ∨ s.w.pwr.coolAt = none) ∧ s.w.pwr.bad.getD 2 false = false) ∧
    (∃ (ta : Int) (s : State), s.w.pwr.bad.getD 2 false = true) ∧
    (∃ (tin : Int) (tout : Int) (ta : Int) (s : State), -50 ≤ tout ∧ tout ≤ 150) ∧
    (∃ (tin : Int) (tout : Int) (ta : Int) (s : State), (tin < -50 ∨ 150 < tin ∨ tout < -50 ∨ 150 < tout ∨ ta < -50 ∨ 150 < ta) ∧
      s.w.pwr.bad = [false, false, false]) ∧
    (∃ (tin : Int) (tout : Int) (ta : Int) (t0 : Nat) (s : State), -50 ≤ tin ∧ tin ≤ 150 ∧ -50 ≤ tout ∧ tout ≤ 150 ∧ -50 ≤ ta ∧ ta ≤ 150 ∧
      s.w.pwr.bad = [true, false, false] ∧ s.w.pwr.okAt.getD 0 none = some t0 ∧ s.w.pwr.okAt.length = 3) ∧
    (∃ (c : Nat) (s : State), c < 4) ∧
    (∃ (c : Nat) (c4 : Instr) (s : State), 4 ≤ c ∧ c4 ∈ [Instr.fanFrame c, .fanSpeedMeasure c 0 1, .fanSuspect c 200, .fanKickEnd c 900,
      .fanKickPauseEnd c, .fanRekick c]) ∧
    (∃ (c : Nat) (e1 : Nat) (e2 : Nat) (s : State), c < 4) ∧
    (∃ (c : Nat) (e1 : Nat) (e2 : Nat) (tgt : Nat) (s : State), c < 4 ∧ (s.w.fan c).green = false ∧ (s.w.fan c).kick = 0 ∧
      s.w.stalled c = false ∧ s.w.rd .A F.FAN_STATUS.TACH_OPEN c = 0 ∧ (s.w.fanTarget c).1 = tgt ∧ minDuty c ≤ (s.w.fan c).loop ∧
      (s.w.fan c).loop ≤ 100 ∧ (c = 3 ∨ s.w.skipBand (fanRpm e1 e2) = none)) ∧
    (∃ (c : Nat) (e1 : Nat) (e2 : Nat) (t0 : Nat) (s : State), c < 4 ∧ s.w.rd .A F.FAN_STATUS.TACH_OPEN c = 1 ∧
      (s.w.fan c).goodAt = some t0 ∧ t0 + 2000000000 ≤ s.w.now ∧ fanRpm e1 e2 ≠ 0) ∧
    (∃ (h : Half) (init : Nat) (v : Nat) (c : Nat) (s : State), s.own.alive h = true ∧ s.w.sel h F.FAN_SEL.CH init = c ∧ c < 4 ∧
      s.own.owns h (354 + c) = true ∧ s.w.safeOn (354 + c) = false) ∧
    (∃ (h : Half) (init : Nat) (v : Nat) (c : Nat) (lo : Nat) (hi : Nat) (s : State), s.own.alive h = true ∧
      s.w.sel h F.FAN_SEL.CH init = c ∧ c < 3 ∧ s.own.owns h (354 + c) = true ∧ s.w.safeOn (354 + c) = false ∧ v / 65536 % 2 = 1 ∧
      s.w.rd .A F.FAN_SKIP.LO 0 = lo ∧ s.w.rd .A F.FAN_SKIP.HI 0 = hi ∧ lo ≠ 0 ∧ lo ≤ v % 65536 ∧ v % 65536 ≤ hi ∧
      (s.w.fan c).held = none) ∧
    (∃ (h : Half) (init : Nat) (v : Nat) (c : Nat) (s : State), s.own.alive h = true ∧ s.w.sel h F.FAN_SEL.CH init = c ∧ c < 4 ∧
      s.own.owns h (354 + c) = false) ∧
    (∃ (h : Half) (init : Nat) (v : Nat) (s : State), (s.own.alive h = false ∨ s.w.safeOn (354 + s.w.sel h F.FAN_SEL.CH init) = true ∧
      s.own.owns h (354 + s.w.sel h F.FAN_SEL.CH init) = true ∧ s.w.sel h F.FAN_SEL.CH init < 4)) ∧
    (∃ (c : Nat) (v : Nat) (t0 : Nat) (s : State), c < 4 ∧ (s.w.fan c).kick = 0 ∧ (s.w.fan c).pause = false ∧ s.w.stalled c = false ∧
      s.w.rd .A F.FAN_STATUS.TACH_OPEN c = 0 ∧ minDuty c ≤ s.w.fanDuty c ∧ (s.w.fan c).lowAt = some t0 ∧ t0 + 2000000000 ≤ s.w.now ∧
      (s.w.fan c).checkAt ≤ s.w.now) ∧
    (∃ (c : Nat) (v : Nat) (s : State), ((s.w.fan c).lowAt = none ∨ s.w.stalled c = true ∨ s.w.rd .A F.FAN_STATUS.TACH_OPEN c = 1)) ∧
    (∃ (c : Nat) (rpm : Nat) (s : State), c < 4 ∧ (s.w.fan c).kick ≠ 0 ∧ (s.w.fan c).pause = false ∧
      (s.w.fan c).kickAt + 2000000000 ≤ s.w.now) ∧
    (∃ (c : Nat) (rpm : Nat) (s : State), ((s.w.fan c).kick = 0 ∨ (s.w.fan c).pause = true ∨ s.w.now < (s.w.fan c).kickAt + 2000000000)) ∧
    (∃ (c : Nat) (s : State), c < 4 ∧ (s.w.fan c).pause = true ∧ (s.w.fan c).kickAt + 1000000000 ≤ s.w.now) ∧
    (∃ (c : Nat) (s : State), ((s.w.fan c).pause = false ∨ s.w.now < (s.w.fan c).kickAt + 1000000000)) ∧
    (∃ (c : Nat) (s : State), c < 4 ∧ s.w.stalled c = true ∧ (s.w.fan c).kick = 0 ∧ (s.w.fan c).stallAt + 300000000000 ≤ s.w.now) ∧
    (∃ (c : Nat) (s : State), (s.w.stalled c = false ∨ s.w.now < (s.w.fan c).stallAt + 300000000000)) :=
  ⟨⟨701, st id, by decide +kernel⟩,
   ⟨670, 0, st fun w => { w.wr .A F.PWR_STATUS.DERATE 0 1 with now := 60000000000, pwr := { w.pwr with coolAt := some 0 } },
      by decide +kernel⟩,
   ⟨671, st fun w => w.wr .A F.PWR_STATUS.DERATE 0 1, by decide +kernel⟩,
   ⟨100, st fun w => { w with pwr := { w.pwr with bad := [false, false, true] } }, by decide +kernel⟩,
   ⟨20, 102, 20, st fun w => { w with pwr := { w.pwr with warn := true, crit := true } }, by decide +kernel⟩,
   ⟨20, 40, 151, st fun w => w.wr .A F.PWR_STATUS.LSTATE 0 1, by decide +kernel⟩,
   ⟨20, 40, 20, 0, st fun w => { w.wr .A F.PWR_TEMP.SENSOR_FAULT 0 1 with now := 10000000000, pwr := { w.pwr with bad := [true, false, false], okAt := [some 0, none, none] } },
      by decide +kernel⟩,
   ⟨3, st fun w => (w.wr .A F.PWR_STATUS.LSTATE 0 1).updFan 3 fun f => { f with green := false, loop := 55, owe := 1000 },
      by decide +kernel⟩,
   ⟨4, .fanRekick 4, st id, by decide +kernel⟩,
   ⟨0, 6000000, 36000000, st fun w => (w.wr .A F.PWR_STATUS.LSTATE 0 1).updFan 0 fun f => { f with green := false, loop := 55, on := 16000000 },
      by decide +kernel⟩,
   ⟨3, 6000000, 36000000, 1000, st fun w => (w.wr .A F.FAN_CMD.MANUAL 3 1 |>.wr .A F.FAN_CMD.TARGET 3 1000).updFan 3 fun f => { f with green := false, loop := 55 },
      by decide +kernel⟩,
   ⟨2, 6000000, 36000000, 0, st fun w => { (w.wr .A F.FAN_STATUS.TACH_OPEN 2 1).updFan 2 fun f => { f with goodAt := some 0 } with now := 2000000000 },
      by decide +kernel⟩,
   ⟨.A, 0, 68536, 0, stO [354] fun w => (w.wr .A F.FAN_STATUS.DUTY 0 44).updFan 0 fun f => { f with kick := 2 }, by decide +kernel⟩,
   ⟨.A, 0, 66536, 0, 900, 1100, stO [354] fun w => ((w.wr .A F.FAN_SKIP.LO 0 900).wr .A F.FAN_SKIP.HI 0 1100).updFan 0 fun f => { f with last := 1200 },
      by decide +kernel⟩,
   ⟨.B, 4, 68536, 0, stO [354] id, by decide +kernel⟩,
   ⟨.A, 0, 68536, State.reset, by decide +kernel⟩,
   ⟨1, 299, 0, st fun w => { (w.wr .A F.PWR_STATUS.LSTATE 0 1).updFan 1 fun f => { f with lowAt := some 0 } with now := 2000000000 },
      by decide +kernel⟩,
   ⟨1, 299, st id, by decide +kernel⟩,
   ⟨3, 699, st fun w => { (w.wr .A F.PWR_STATUS.LSTATE 0 1).updFan 3 fun f => { f with kick := 3 } with now := 2000000000 },
      by decide +kernel⟩,
   ⟨3, 699, st id, by decide +kernel⟩,
   ⟨2, st fun w => { w.updFan 2 fun f => { f with pause := true, kick := 1 } with now := 1000000000 }, by decide +kernel⟩,
   ⟨2, st id, by decide +kernel⟩,
   ⟨2, st fun w => { w.wr .A F.FAN_STATUS.STALL 2 1 with now := 300000000000 }, by decide +kernel⟩,
   ⟨2, st id, by decide +kernel⟩⟩

theorem witness_displayDrivers :
    (∃ (vlcd : Nat) (v1 : Int) (v2 : Int) (t0 : Nat) (s : State), s.w.rd .A F.DSP_CTRL.SEG_EN = 1 ∧ s.w.dsp.latchAt = some t0) ∧
    (∃ (vlcd : Nat) (v1 : Int) (v2 : Int) (s : State), s.w.rd .A F.DSP_CTRL.SEG_EN = 1 ∧
      (vlcd < 270 ∨ 1600 < vlcd ∨ 30 < v1 ∨ v1 < -30 ∨ 30 < v2 ∨ v2 < -30)) ∧
    (∃ (vlcd : Nat) (v1 : Int) (v2 : Int) (s : State), s.w.rd .A F.DSP_CTRL.SEG_EN = 1 ∧ 270 ≤ vlcd ∧ vlcd ≤ 1600 ∧ -30 ≤ v1 ∧ v1 ≤ 30 ∧
      -30 ≤ v2 ∧ v2 ≤ 30) ∧
    (∃ (vlcd : Nat) (v1 : Int) (v2 : Int) (s : State), s.w.rd .A F.DSP_CTRL.SEG_EN = 0) ∧
    (∃ (h : Half) (init : Nat) (s : State), s.own.alive h = true ∧ s.own.owns h 352 = true) ∧
    (∃ (h : Half) (d : DispSec) (y : Symbol) (s : State), s.w.dsp.sec = some d ∧ d.syms = [y] ∧ y.seg0 + y.n ≤ 320 ∧
      s.own.alive h = true ∧ s.own.owns h 352 = true) ∧
    (∃ (h : Half) (s : State), (s.w.dsp.sec = none ∨ s.own.alive h = false ∨ s.own.owns h 352 = false)) ∧
    (∃ (h : Half) (init : Nat) (s : State), s.own.alive h = true ∧ s.own.owns h 353 = true) ∧
    (∃ (h : Half) (a : Nat) (s : State), s.w.dsp.copy = some (h, a)) ∧
    (∃ (s : State), s.w.dsp.copy = none) ∧
    (∃ (h : Half) (init : Nat) (en : Bool) (s : State), s.own.alive h = true ∧ s.own.owns h 353 = true) ∧
    (∃ (s : State), s.w.dsp.step ∈ [1, 2, 3, 5, 6, 7, 8] ∧ s.w.dsp.stepAt + pnlTime s.w.dsp.step ≤ s.w.now ∧
      s.w.rd .A F.DSP_CTRL.PNL_EN = 1) ∧
    (∃ (s : State), s.w.dsp.step ∈ [1, 2, 3, 5, 6, 7, 8] ∧ s.w.dsp.stepAt + pnlTime s.w.dsp.step ≤ s.w.now ∧
      s.w.rd .A F.DSP_CTRL.PNL_EN = 0) ∧
    (∃ (s : State), (s.w.dsp.step = 9 ∨ s.w.dsp.step = 10) ∧ s.w.dsp.stepAt + pnlTime s.w.dsp.step ≤ s.w.now) ∧
    (∃ (s : State), s.w.dsp.step = 11 ∧ s.w.dsp.stepAt + 2000000 ≤ s.w.now) ∧
    (∃ (s : State), (s.w.dsp.step = 0 ∨ s.w.dsp.step = 4 ∨ s.w.now < s.w.dsp.stepAt + pnlTime s.w.dsp.step)) ∧
    (∃ (h : Half) (init : Nat) (en : Bool) (c : Instr) (k : Nat) (s : State), c ∈ [Instr.segmentLatch h init, .panelLoad h init,
      .panelEnable h init en] ∧ k = (if c = .segmentLatch h init then 352 else 353) ∧ s.own.alive h = true ∧ s.own.owns h k = false) ∧
    (∃ (h : Half) (init : Nat) (en : Bool) (c : Instr) (s : State), c ∈ [Instr.segmentLatch h init, .panelLoad h init,
      .panelEnable h init en] ∧ s.own.alive h = false) :=
  ⟨⟨500, 0, 0, 5, st fun w => { (w.wr .A F.DSP_CTRL.SEG_EN 0 1 |>.wr .A F.DSP_SEG.BITS 3 77).updDsp fun d => { d with latchAt := some 5 } with now := 6 },
      by decide +kernel⟩,
   ⟨269, 0, 0, st fun w => w.wr .A F.DSP_CTRL.SEG_EN 0 1, by decide +kernel⟩,
   ⟨270, 30, (-30), st fun w => (w.wr .A F.DSP_CTRL.SEG_EN 0 1 |>.wr .A F.DSP_STATUS.LVL_FAULT 0 1).updDsp fun d => { d with good := 9 },
      by decide +kernel⟩,
   ⟨0, 0, 0, st id, by decide +kernel⟩,
   ⟨.A, 0, stO [352] id, by decide +kernel⟩,
   ⟨.A, { syms := [{ kind := 1, src := 0, ref := 1, thresh := 0, seg0 := 70, n := 7 }] },
      { kind := 1, src := 0, ref := 1, thresh := 0, seg0 := 70, n := 7 },
      stO [352] fun w => w.updDsp fun d => { d with sec := some { syms := [{ kind := 1, src := 0, ref := 1, thresh := 0, seg0 := 70, n := 7 }] } },
      by decide +kernel⟩,
   ⟨.A, st id, by decide +kernel⟩,
   ⟨.A, 0, stO [353] fun w => w.updDsp fun d => { d with copy := some (.A, 0) }, by decide +kernel⟩,
   ⟨.A, 0, st fun w => w.updDsp fun d => { d with copy := some (.A, 0) }, by decide +kernel⟩,
   ⟨st id, by decide +kernel⟩,
   ⟨.A, 0, true, stO [353] fun w => w.wr .A F.PWR_SAFE.ASSERTED 0 0, by decide +kernel⟩,
   ⟨st fun w => { (w.wr .A F.DSP_CTRL.PNL_EN 0 1).updDsp fun d => { d with step := 3 } with now := 33400000 }, by decide +kernel⟩,
   ⟨st fun w => { w.updDsp fun d => { d with step := 8 } with now := 10000000 }, by decide +kernel⟩,
   ⟨st fun w => { w.updDsp fun d => { d with step := 9, en := [true, true, true] } with now := 20000000 }, by decide +kernel⟩,
   ⟨st fun w => { (w.wr .A F.DSP_CTRL.PNL_EN 0 1 |>.wr .A F.DSP_STATUS.FAST 0 1).updDsp fun d => { d with step := 11, pnlGreen := false } with now := 2000000 },
      by decide +kernel⟩,
   ⟨st id, by decide +kernel⟩,
   ⟨.B, 5, true, .panelLoad .B 5, 353, stO [353] id, by decide +kernel⟩,
   ⟨.B, 5, true, .panelLoad .B 5, State.reset, by decide +kernel⟩⟩

theorem witness_safeOffChannels :
    (∃ (b : Bool) (s : State), s.w.safeOff = false) ∧
    (∃ (b : Bool) (s : State), s.w.safeOff = true ∧ s.w.rd .A F.PWR_SAFE.DISC = 0 ∧
      s.w.rd .A (if b = true then F.PWR_SAFE.A_REL else F.PWR_SAFE.B_REL) = 1) ∧
    (∃ (s : State), s.w.rd .A F.PWR_SAFE.A_REL ≠ s.w.rd .A F.PWR_SAFE.B_REL) ∧
    (∃ (s : State), s.w.rd .A F.PWR_SAFE.A_REL = s.w.rd .A F.PWR_SAFE.B_REL) :=
  ⟨⟨false, st fun w => (w.wr .A F.PWR_SAFE.ASSERTED 0 0 |>.wr .A F.PWR_SAFE.A_REL 0 1 |>.wr .A F.PWR_SAFE.B_REL 0 1), by decide +kernel⟩,
   ⟨true, st fun w => w.wr .A F.PWR_SAFE.A_REL 0 1 |>.wr .A F.PWR_SAFE.ASSERTED 0 1, by decide +kernel⟩,
   ⟨st fun w => w.wr .A F.PWR_SAFE.A_REL 0 1, by decide +kernel⟩,
   ⟨st id, by decide +kernel⟩⟩

end Sys2Proof.Tests
end

section
/-!
SUPPORT. R17: what posting a write and freeing a place do to the boundary of their initiator, and that they touch no other boundary.
-/
namespace Sys2Proof.Machine

/-! The boundary of one initiator. -/

theorem Port.post_of_room {p : Port} (x : PWrite) (hs : p.stalled = none) (hl : p.fifo.length < 8) :
    p.post x = { p with fifo := p.fifo ++ [x] } := by
  simp [Port.post, hs, hl]

theorem Port.post_of_full {p : Port} (x : PWrite) (hs : p.stalled = none) (hl : p.fifo.length = 8) :
    p.post x = { p with stalled := some x } := by
  simp [Port.post, hs, hl]

theorem Port.post_of_stalled {p : Port} (x : PWrite) (hs : p.stalled.isSome = true) : p.post x = p := if_pos hs

theorem Port.pop_of_stalled {p : Port} {q : PWrite} (hs : p.stalled = some q) :
    p.pop = { p with fifo := p.fifo.drop 1 ++ [q], stalled := none } := by
  simp [Port.pop, hs]

theorem Port.pop_of_not_stalled {p : Port} (hs : p.stalled = none) : p.pop = { p with fifo := p.fifo.drop 1 } := by
  simp [Port.pop, hs]

/-! The boundary replaced, and a posted write that takes effect. -/

@[simp] theorem State.setPort_w (s : State) (h : Half) (init : Nat) (p : Port) : (s.setPort h init p).w = s.w := rfl
@[simp] theorem State.setPort_own (s : State) (h : Half) (init : Nat) (p : Port) : (s.setPort h init p).own = s.own := rfl
@[simp] theorem State.setPort_ledger (s : State) (h : Half) (init : Nat) (p : Port) : (s.setPort h init p).ledger = s.ledger := rfl
@[simp] theorem State.busWrite_own (s : State) (h : Half) (init : Nat) (x : PWrite) : (s.busWrite h init x).own = s.own := rfl
@[simp] theorem State.busWrite_ledger (s : State) (h : Half) (init : Nat) (x : PWrite) : (s.busWrite h init x).ledger = s.ledger := rfl
@[simp] theorem State.port_busWrite (s : State) (h g : Half) (init j : Nat) (x : PWrite) :
    (s.busWrite h init x).port g j = s.port g j := rfl

@[simp] theorem State.port_setPort_same (s : State) (h : Half) (init : Nat) (p : Port) : (s.setPort h init p).port h init = p := by
  simp [State.port, State.setPort]

theorem State.port_setPort_ne (s : State) {h g : Half} {init j : Nat} (p : Port) (hne : (g, j) ≠ (h, init)) :
    (s.setPort h init p).port g j = s.port g j := by
  unfold State.port State.setPort
  by_cases hg : g = h
  · subst hg
    have hj : j ≠ init := fun hj => hne (by rw [hj])
    rw [Two.get_upd_same, NMap.get_set_ne _ _ _ hj]
  · rw [Two.get_upd_ne _ _ hg]

/-- Putting back the boundary that was there changes none. -/
theorem State.port_setPort_self (s : State) (h g : Half) (init j : Nat) : (s.setPort h init (s.port h init)).port g j = s.port g j := by
  by_cases he : (g, j) = (h, init)
  · obtain ⟨rfl, rfl⟩ := Prod.mk.inj he
    exact s.port_setPort_same g j _
  · exact s.port_setPort_ne _ he

/-! The two commands. -/

theorem exec_registerWrite (h : Half) (init addr v : Nat) (s : State) :
    exec (.registerWrite h init addr v) s = execRegisterWrite h init addr v s := rfl

theorem exec_writeTakesEffect (h : Half) (init : Nat) (s : State) :
    exec (.writeTakesEffect h init) s = execWriteTakesEffect h init s := rfl

/-- A write issued by a running half to a mapped word is posted at its initiator's boundary. -/
theorem exec_registerWrite_posts {h : Half} {init addr : Nat} (v : Nat) {s : State} (hrun : (s.w.run.get h).running = true)
    (hi : init < 12) (hm : mapped addr = true) (ha : addr % 4 = 0) :
    exec (.registerWrite h init addr v) s = .next (s.setPort h init ((s.port h init).post ⟨addr, BitVec.ofNat 32 v⟩)) := by
  simp [exec_registerWrite, execRegisterWrite, nInit, hrun, hi, hm, ha]

/-- A stalled initiator issues nothing: what it stalls on and what it has posted stay. -/
theorem exec_registerWrite_stalled {h : Half} {init : Nat} (addr v : Nat) {s : State} (hs : (s.port h init).stalled.isSome = true) :
    exec (.registerWrite h init addr v) s = .next s ∨
      exec (.registerWrite h init addr v) s = .next (s.setPort h init (s.port h init)) := by
  simp only [exec_registerWrite, execRegisterWrite, Port.post_of_stalled _ hs, State.when]
  split
  · exact .inr rfl
  · exact .inl rfl

/-- The oldest posted write of a running half leaves the FIFO and acts on the registers. -/
theorem exec_writeTakesEffect_oldest {h : Half} {init : Nat} {s : State} {p : PWrite} {rest : List PWrite}
    (hrun : (s.w.run.get h).running = true) (hf : (s.port h init).fifo = p :: rest) :
    exec (.writeTakesEffect h init) s = .next ((s.setPort h init (s.port h init).pop).busWrite h init p) := by
  simp [exec_writeTakesEffect, execWriteTakesEffect, hf, hrun]

end Sys2Proof.Machine
end

section
open Sys2Proof Sys2Proof.Machine

/-- Settles O9: a write issued is `Port.post` at its initiator's boundary, a write that takes effect is `Port.pop` there, and both leave
every other boundary. -/
theorem boundaryHoldsEight : Obligations.boundaryHoldsEight := by
  unfold Obligations.boundaryHoldsEight
  refine ⟨?posted, ?issuesNone, ?stalledRetires, ?oldestLeaves⟩
  case posted =>
    intro h init addr v s hrun hi hm ha hs
    refine ⟨_, exec_registerWrite_posts v hrun hi hm ha, rfl, rfl, rfl, fun hl => ?_, fun hl => ?_, fun g j => s.port_setPort_ne _⟩
    · simp [Port.post_of_room _ hs hl, hs]
    · simp [Port.post_of_full _ hs hl]
  case issuesNone =>
    intro h init addr v s hs
    obtain he | he := exec_registerWrite_stalled addr v hs
    · exact ⟨s, he, rfl, rfl, rfl, fun _ _ => rfl⟩
    · exact ⟨_, he, rfl, rfl, rfl, fun g j => s.port_setPort_self h g init j⟩
  case stalledRetires =>
    intro h init s p q rest hrun hf hs
    refine ⟨_, exec_writeTakesEffect_oldest hrun hf, rfl, rfl, ?_, ?_, fun g j => s.port_setPort_ne _⟩ <;>
      simp [Port.pop_of_stalled hs, hf]
  case oldestLeaves =>
    intro h init s p rest hrun hf hs
    refine ⟨_, exec_writeTakesEffect_oldest hrun hf, rfl, rfl, ?_, ?_, fun g j => s.port_setPort_ne _⟩ <;>
      simp [Port.pop_of_not_stalled hs, hf, hs]

end

section
/-!
SUPPORT. R75: what the end of a Roast's check does when the Roast fails.
-/
namespace Sys2Proof.Machine

/-! What the operations that close a check leave. -/

@[simp] theorem World.updStageEnd_roast (w : World) (h : Half) : (w.updStageEnd h).roast = w.roast := by
  unfold World.updStageEnd World.when; split <;> simp
@[simp] theorem World.sessEnd_roast (w : World) (h : Half) (r st res : Nat) : (w.sessEnd h r st res).roast = w.roast := by
  simp [World.sessEnd, World.updRes, World.updUpd]
@[simp] theorem World.setRegion_roast (w : World) (h : Half) (r : Nat) (x : Region) : (w.setRegion h r x).roast = w.roast := by
  simp [World.setRegion, World.updUpd]
@[simp] theorem World.roastReject_roast (w : World) (h : Half) (v : Verdict) : (w.roastReject h v).roast = w.roast := w.raise_roast h _ _

theorem World.rd_updStageEnd_apart (w : World) (h g : Half) (f : Field) (i : Nat) (ha : fieldsApart F.STW_STAGE.STAGE f = true) :
    (w.updStageEnd h).rd g f i = w.rd g f i := by
  unfold World.updStageEnd World.when
  split
  · exact World.rd_wr_apart _ _ _ _ _ _ _ _ ha
  · rfl

theorem World.rd_updRes_apart (w : World) (h g : Half) (res : Nat) (f : Field) (i : Nat)
    (ha : (fieldsApart F.UPD_RESULT.RES f && fieldsApart F.UPD_RESULT.BUSY f) = true) : (w.updRes h res).rd g f i = w.rd g f i := by
  obtain ⟨hres, hbusy⟩ := Bool.and_eq_true_iff.mp ha
  rw [updRes, rd_wr_apart _ _ _ _ _ _ _ _ hbusy, rd_wr_apart _ _ _ _ _ _ _ _ hres]

/-- The end of a session shows in UPD_SESS.STATE, UPD_RESULT and the stage alone, and in the count of dropped raises (R482). -/
theorem World.rd_sessEnd_apart (w : World) (h g : Half) (r st res : Nat) (f : Field) (i : Nat)
    (hstate : fieldsApart F.UPD_SESS.STATE f = true)
    (hres : (fieldsApart F.UPD_RESULT.RES f && fieldsApart F.UPD_RESULT.BUSY f) = true)
    (hraise : (decide (f.reg < 2 ^ 25) && decide (f.reg ≠ 0x100018)) = true)
    (hstage : fieldsApart F.STW_STAGE.STAGE f = true) : (w.sessEnd h r st res).rd g f i = w.rd g f i := by
  rw [sessEnd, rd_updStageEnd_apart _ _ _ _ _ hstage, rd_raise _ _ _ _ _ _ _ hraise, rd_updRes_apart _ _ _ _ _ _ hres,
    rd_wr_apart _ _ _ _ _ _ _ _ hstate]
  rfl

/-- A region stored shows its VALID flag (R513). -/
theorem World.rd_setRegion_valid (w : World) (h : Half) (r : Nat) (x : Region) :
    (w.setRegion h r x).rd h F.UPD_REGION.VALID r = b2n x.valid := by
  rw [setRegion, rd_wr_apart _ _ _ _ _ _ _ _ (by decide), rd_wr_apart _ _ _ _ _ _ _ _ (by decide),
    rd_wr_apart _ _ _ _ _ _ _ _ (by decide), rd_wr_apart _ _ _ _ _ _ _ _ (by decide), rd_wr_same _ _ _ _ _ (by decide)]
  cases x.valid <;> rfl

/-- Fields of different registers lie apart. -/
theorem fieldsApart_of_reg_ne {f g : Field} (hf : f.reg < 2 ^ 25) (hg : g.reg < 2 ^ 25) (hn : f.reg ≠ g.reg) : fieldsApart f g = true := by
  simp only [fieldsApart, hf, hg, hn, and_self, ne_eq, not_false_eq_true, decide_true, Bool.true_or, Bool.and_self, Bool.or_true]

/-- A region stored shows in UPD_REGION and UPD_VER alone. -/
theorem World.rd_setRegion_other (w : World) (h g : Half) (r : Nat) (x : Region) {f : Field} (i : Nat) (hf : f.reg < 2 ^ 25)
    (hregion : F.UPD_REGION.VALID.reg ≠ f.reg) (hver : F.UPD_VER.VERSION.reg ≠ f.reg) :
    (w.setRegion h r x).rd g f i = w.rd g f i := by
  rw [setRegion, rd_wr_apart _ _ _ F.UPD_VER.VERSION _ _ _ _ (fieldsApart_of_reg_ne (by decide) hf hver),
    rd_wr_apart _ _ _ F.UPD_REGION.RB _ _ _ _ (fieldsApart_of_reg_ne (by decide) hf hregion),
    rd_wr_apart _ _ _ F.UPD_REGION.FLOOR _ _ _ _ (fieldsApart_of_reg_ne (by decide) hf hregion),
    rd_wr_apart _ _ _ F.UPD_REGION.RESTORED _ _ _ _ (fieldsApart_of_reg_ne (by decide) hf hregion),
    rd_wr_apart _ _ _ F.UPD_REGION.VALID _ _ _ _ (fieldsApart_of_reg_ne (by decide) hf hregion)]
  rfl

theorem World.rd_roastReject (w : World) (h g : Half) (v : Verdict) (f : Field) (i : Nat)
    (hf : (decide (f.reg < 2 ^ 25) && decide (f.reg ≠ 0x100018)) = true) : (w.roastReject h v).rd g f i = w.rd g f i :=
  w.rd_raise h g _ _ f i hf

/-! A Roast that fails its check. -/

/-- The verdict on the image in half `h`'s ROAST region. -/
def World.roastVerdict (w : World) (h : Half) (tech : Bool) : Verdict := verify (w.verEnv h tech) (w.region h 6).bytes

/-- A failed verdict shown in UPD_RESULT.ROAST, and the PENDING slot marked invalid (R75). -/
def World.pendingFailed (w : World) (h : Half) (v : Verdict) : World :=
  { w.wr h F.UPD_RESULT.ROAST 0 v.res with
    roast := w.roast.upd h fun q => { q with pending := { q.pending with valid := false } } }

/-- The end of the check of a Roast that fails: the verdict and the slot, the region, EVT_ROAST_REJECT, the session. -/
theorem World.roastChecked_of_fail {w : World} {h : Half} {tech : Bool} (hv : (w.roastVerdict h tech).res ≠ 0) :
    w.roastChecked h tech =
      (((w.pendingFailed h (w.roastVerdict h tech)).setRegion h 6 { w.region h 6 with valid := false }).roastReject h
        (w.roastVerdict h tech)).sessEnd h 6 6 17 := by
  unfold World.roastVerdict at hv
  simp only [roastChecked, if_neg hv]
  rfl

/-- A Roast that fails changes its half's PENDING slot alone, in the validity of what stands there. -/
theorem World.roast_roastChecked_of_fail {w : World} {h : Half} {tech : Bool} (hv : (w.roastVerdict h tech).res ≠ 0) :
    (w.roastChecked h tech).roast = w.roast.upd h fun q => { q with pending := { q.pending with valid := false } } := by
  simp [roastChecked_of_fail hv, pendingFailed]

theorem World.rd_regionValid_roastChecked_of_fail {w : World} {h : Half} {tech : Bool} (hv : (w.roastVerdict h tech).res ≠ 0) :
    (w.roastChecked h tech).rd h F.UPD_REGION.VALID 6 = 0 := by
  rw [roastChecked_of_fail hv, rd_sessEnd_apart _ _ _ _ _ _ _ _ (by decide) (by decide) (by decide) (by decide),
    rd_roastReject _ _ _ _ _ _ (by decide), rd_setRegion_valid]
  rfl

theorem World.rd_roastResult_roastChecked_of_fail {w : World} {h : Half} {tech : Bool} (hv : (w.roastVerdict h tech).res ≠ 0) :
    (w.roastChecked h tech).rd h F.UPD_RESULT.ROAST = (w.roastVerdict h tech).res % 16 := by
  rw [roastChecked_of_fail hv, rd_sessEnd_apart _ _ _ _ _ _ _ _ (by decide) (by decide) (by decide) (by decide),
    rd_roastReject _ _ _ _ _ _ (by decide), rd_setRegion_other _ _ _ _ _ _ (by decide) (by decide) (by decide)]
  exact w.rd_wr_same h F.UPD_RESULT.ROAST 0 _ (by decide)

/-- The parts of the world in which the end of a Roast's check shows: the slots, the regions and sessions, the event router, and the
registers that show them. The loops, the halves' runs and the backplane's Roast store are no part of it. -/
def roastCheckParts : List Part :=
  [.evt, .roast, .upd, .reg F.STW_STAGE.STAGE.reg, .reg F.EVT_STATUS.LOST.reg, .reg F.UPD_RESULT.ROAST.reg, .reg F.UPD_SESS.STATE.reg,
    .reg F.UPD_REGION.VALID.reg, .reg F.UPD_VER.VERSION.reg, .reg F.UPD_CNT.REFUSED.reg]

theorem World.rest_roastChecked (w : World) (h : Half) (tech : Bool) : Rest roastCheckParts (w.roastChecked h tech) w :=
  World.roastChecked_rest (by decide) (Rest.refl _ _)

/-! The command. -/

/-- The check of a ROAST session that has every block is the verification of the Roast (R502). -/
theorem World.checked_roast {w : World} {h : Half} (hne : (w.sess h 6).written ≠ [])
    (hall : ∀ i, i < blockCount (w.sess h 6).len → i ∈ (w.sess h 6).written) :
    w.checked h 6 = w.roastChecked h (w.sess h 6).tech := by
  have hblocks : (List.range (blockCount (w.sess h 6).len)).all (fun i => (w.sess h 6).written.contains i) = true := by
    simpa using hall
  have hnone : (w.sess h 6).written.isEmpty = false := by simpa using hne
  simp only [checked, hblocks, hnone, Bool.not_true, Bool.or_self, Bool.false_eq_true, if_false, if_true]

/-- The check of a whole Roast in a running half changes the world by `roastChecked` and nothing else. -/
theorem exec_updCheckComplete_roast {h : Half} {s : State} (hrun : (s.w.run.get h).running = true) (hst : s.w.sessState h 6 = 2)
    (hne : (s.w.sess h 6).written ≠ []) (hall : ∀ i, i < blockCount (s.w.sess h 6).len → i ∈ (s.w.sess h 6).written) :
    exec (.updCheckComplete h 6) s = .next { s with w := s.w.roastChecked h (s.w.sess h 6).tech } := by
  have hexec : exec (.updCheckComplete h 6) s = execUpdCheckComplete h 6 s := rfl
  rw [hexec, ← World.checked_roast hne hall]
  simp [execUpdCheckComplete, hrun, hst]

end Sys2Proof.Machine
end

section
open Sys2Proof Sys2Proof.Machine

/-- Settles O21: the command is `roastChecked`; a failed verdict reaches the Roast slots by PENDING's validity alone, and the loops, the
halves' runs and the Green shadow lie outside the parts that a check of a Roast may change. -/
theorem failedRoastTouchesNothing : Obligations.failedRoastTouchesNothing := by
  unfold Obligations.failedRoastTouchesNothing
  intro h s hrun hst hne hall hv
  have hslots := World.roast_roastChecked_of_fail hv
  have hrest := s.w.rest_roastChecked h (s.w.sess h 6).tech
  refine ⟨_, exec_updCheckComplete_roast hrun hst hne hall, ?pending, World.rd_regionValid_roastChecked_of_fail hv, ?active, ?running,
    ?sibling, hrest.set (by decide), hrest.run (by decide), rfl, hrest.bp (by decide), World.rd_roastResult_roastChecked_of_fail hv⟩
  case pending => simp [hslots]
  case active => simp [hslots]
  case running => simp [hslots]
  case sibling => rw [hslots, Two.get_upd_ne _ _ h.other_ne]

end

section
/-!
SUPPORT. R581, R583: the selects and their ranges, what the write of a select does, and what a select beyond its range makes of a read
and of a posted write.
-/
namespace Sys2Proof.Machine

/-! The selects (R581). -/

/-- The blocks that have a select, each with its field: the cases of `selField`. -/
def selects : List (Nat × Field) := [
  (5, F.VLV_SEL.CH), (6, F.LSW_SEL.CH), (7, F.UIN_SEL.CH), (8, F.LOS_SEL.CH), (9, F.CAN_SEL.CH), (11, F.GNS_SEL.CH), (14, F.TRK_SEL.SLOT),
  (16, F.FAN_SEL.CH)]

theorem mem_selects {blk : Nat} {f : Field} (hf : selField blk = some f) : (blk, f) ∈ selects := by
  unfold selField at hf
  split at hf <;> cases hf <;> decide

/-- A select lies in one register, which is not the one that a raise can change (R482). -/
theorem selects_fit :
    ∀ e ∈ selects, e.2.lo + e.2.w ≤ 32 ∧ (decide (e.2.reg < 2 ^ 25) && decide (e.2.reg ≠ F.EVT_STATUS.LOST.reg)) = true := by decide

/-- The values of a select fit the ARG of an event. -/
theorem selects_small : ∀ e ∈ selects, e.1 < 256 ∧ 2 ^ e.2.w ≤ 2 ^ 16 := by decide

/-- A value that a select can hold lies beyond its range in blocks 5, 6 and 11 alone (R583). -/
theorem selCount_le_iff {blk v : Nat} {f : Field} (hf : selField blk = some f) (hv : v < 2 ^ f.w) :
    selCount blk ≤ v ↔ (blk = 5 ∧ 96 ≤ v) ∨ (blk = 6 ∧ 48 ≤ v) ∨ (blk = 11 ∧ 208 ≤ v) := by
  have hmem := mem_selects hf
  simp only [selects, List.mem_cons, Prod.mk.injEq, List.not_mem_nil, or_false] at hmem
  obtain ⟨rfl, rfl⟩ | ⟨rfl, rfl⟩ | ⟨rfl, rfl⟩ | ⟨rfl, rfl⟩ | ⟨rfl, rfl⟩ | ⟨rfl, rfl⟩ | ⟨rfl, rfl⟩ | ⟨rfl, rfl⟩ := hmem <;>
    simp [selCount] at hv ⊢ <;> omega

theorem World.selOf_eq_rd {blk : Nat} {f : Field} (hf : selField blk = some f) (w : World) (h : Half) (init : Nat) :
    w.selOf h blk init = w.rd h f init := by
  simp [World.selOf, World.sel, hf]

/-- A select beyond its range names no channel. -/
theorem selIndex_eq_none {blk sel : Nat} {k : Sel} (hk : k ≠ .none) (hs : selCount blk ≤ sel) : selIndex blk sel k = none := by
  simp [selIndex, hk, hs]

/-! The write of a select. -/

theorem evArg_eq {obj sub cause : Nat} (ho : obj < 2 ^ 16) (hs : sub < 256) (hc : cause < 256) :
    evArg obj sub cause = obj + sub * 65536 + cause * 16777216 := by
  simp only [evArg]
  omega

theorem exec_selectWrite {h : Half} {init : Nat} (blk v : Nat) {s : State} (hrun : (s.w.run.get h).running = true) (hi : init < 12) :
    exec (.selectWrite h init blk v) s = .next { s with w := s.w.writeSel h init blk v } := by
  have hexec : exec (.selectWrite h init blk v) s = execSelectWrite h init blk v s := rfl
  simp [hexec, execSelectWrite, nInit, hrun, hi]

theorem World.writeSel_in_range {blk v : Nat} {f : Field} (hf : selField blk = some f) (w : World) (h : Half) (init : Nat)
    (hv : v % 2 ^ f.w < selCount blk) : w.writeSel h init blk v = w.wr h f init (v % 2 ^ f.w) := by
  simp [World.writeSel, World.when, hf, hv]

theorem World.writeSel_beyond {blk v init : Nat} {f : Field} (hf : selField blk = some f) (w : World) (h : Half) (hi : init < 12)
    (hv : selCount blk ≤ v % 2 ^ f.w) :
    w.writeSel h init blk v = (w.wr h f init (v % 2 ^ f.w)).raise h 14 (v % 2 ^ f.w + blk * 65536 + init * 16777216) := by
  obtain ⟨hblk, hw⟩ := selects_small _ (mem_selects hf)
  have hval : v % 2 ^ f.w < 2 ^ 16 := (Nat.mod_lt _ (Nat.two_pow_pos _)).trans_le hw
  simp [World.writeSel, World.when, hf, hv, evArg_eq hval hblk (by omega : init < 256)]

/-- The select holds every value its field can hold, in its range or beyond it. -/
theorem World.rd_writeSel {blk v : Nat} {f : Field} (hf : selField blk = some f) (w : World) (h : Half) {init : Nat} (hi : init < 12) :
    (w.writeSel h init blk v).rd h f init = v % 2 ^ f.w := by
  obtain ⟨hfit, happart⟩ := selects_fit _ (mem_selects hf)
  have hwr : (w.wr h f init (v % 2 ^ f.w)).rd h f init = v % 2 ^ f.w := by rw [w.rd_wr_same h f init _ hfit, Nat.mod_mod]
  by_cases hv : v % 2 ^ f.w < selCount blk
  · rw [w.writeSel_in_range hf h init hv, hwr]
  · rw [w.writeSel_beyond hf h hi (Nat.le_of_not_lt hv), World.rd_raise _ _ _ _ _ _ _ happart, hwr]

/-! The selected registers. -/

theorem findDef_eq_some {reg : Nat} {l : List RegDef} {d : RegDef} {k x : Nat} (hd : findDef reg l = some (d, k, x)) :
    d ∈ l ∧ d.reg ≤ reg := by
  induction l with
  | nil => cases hd
  | cons c l ih =>
    rw [findDef] at hd
    split at hd
    next hat =>
      cases hd
      refine ⟨List.mem_cons_self, Nat.le_of_not_lt fun hlt => ?_⟩
      simp [defAt, hlt] at hat
    next =>
      obtain ⟨hmem, hle⟩ := ih hd
      exact ⟨List.mem_cons_of_mem _ hmem, hle⟩

/-- In a block with a select, the registers it selects stand above BLOCK_ID. -/
theorem selected_above_blockId :
    ∀ e ∈ selects, ∀ d ∈ regDefsOf e.1, d.sel ≠ .none → e.1 * 2 ^ 20 + 4 < d.reg := by decide +kernel

/-- The blocks with a select stand above the block of the event vectors, and the block of the Ledger is none of them. -/
theorem selects_blocks : ∀ e ∈ selects, 5 ≤ e.1 ∧ e.1 ≠ 18 := by decide

/-- While an initiator's select is beyond its range, every selected register reads 0 for that initiator (R583). -/
theorem State.readWord_of_select_beyond {s : State} {h : Half} {init addr : Nat} {d : RegDef} {k x : Nat} {f : Field}
    (hat : regAt addr = some (d, k, x)) (hd : d.sel ≠ .none) (hf : selField (regOf addr / 2 ^ 20) = some f)
    (hs : selCount (regOf addr / 2 ^ 20) ≤ s.w.selOf h (regOf addr / 2 ^ 20) init) : s.readWord h init addr = 0 := by
  obtain ⟨hmem, hle⟩ := findDef_eq_some hat
  obtain ⟨hblk, hledger⟩ : 5 ≤ regOf addr / 2 ^ 20 ∧ regOf addr / 2 ^ 20 ≠ 18 := selects_blocks _ (mem_selects hf)
  have habove : regOf addr / 2 ^ 20 * 2 ^ 20 + 4 < d.reg := selected_above_blockId _ (mem_selects hf) d hmem hd
  have hofs : regOf addr % 2 ^ 20 ≠ 0 ∧ regOf addr % 2 ^ 20 ≠ 4 := by omega
  have hvec : d.reg ≠ F.EVT_VPEND.V.reg ∧ d.reg ≠ F.EVT_VMASK.V.reg := by
    dsimp only
    omega
  simp [State.readWord, hat, hofs, hvec, hledger, selIndex_eq_none hd hs, -Nat.reducePow]

/-- While an initiator's select is beyond its range, the selected registers ignore its writes (R583). -/
theorem State.writeWorld_of_select_beyond {s : State} {h : Half} {init : Nat} {p : PWrite} {d : RegDef} {k x : Nat}
    (hat : regAt p.addr = some (d, k, x)) (hd : d.sel ≠ .none)
    (hs : selCount (regOf p.addr / 2 ^ 20) ≤ s.w.selOf h (regOf p.addr / 2 ^ 20) init) : s.writeWorld h init p = s.w := by
  simp [State.writeWorld, hat, selIndex_eq_none hd hs, -Nat.reducePow]

end Sys2Proof.Machine
end

section
open Sys2Proof Sys2Proof.Machine

/-- Settles O10: the write of a select is `writeSel`, which stores the value and raises the event just where `selCount` says it is beyond
the range; a select held beyond its range names no channel, so a read finds no register and a posted write reaches none. -/
theorem selectsHoldEveryValue : Obligations.selectsHoldEveryValue := by
  unfold Obligations.selectsHoldEveryValue
  refine ⟨?select, ?posted⟩
  case select =>
    intro h init blk f v s hrun hi hf
    have hbeyond := selCount_le_iff hf (Nat.mod_lt v (Nat.two_pow_pos f.w))
    have hrd := s.w.rd_writeSel (v := v) hf h hi
    refine ⟨_, exec_selectWrite blk v hrun hi, hrd, rfl, rfl, fun hv => ?beyond, fun hv => ?inRange⟩
    case beyond =>
      have hcount : selCount blk ≤ v % 2 ^ f.w := hbeyond.2 (by omega)
      refine ⟨s.w.writeSel_beyond hf h hi hcount, fun addr d k x hat hblk hd => ?_⟩
      subst hblk
      exact State.readWord_of_select_beyond hat hd hf (by rwa [World.selOf_eq_rd hf, hrd])
    case inRange =>
      have hcount : v % 2 ^ f.w < selCount blk := Nat.lt_of_not_le fun hle => hv (hbeyond.1 hle)
      exact ⟨hcount, s.w.writeSel_in_range hf h init hcount⟩
  case posted =>
    intro h init blk addr d k x s v rest hrun hfifo hat hblk hd hs
    subst hblk
    exact ⟨_, exec_writeTakesEffect_oldest hrun hfifo, State.writeWorld_of_select_beyond hat hd hs, rfl, rfl⟩

end

section
/-!
SUPPORT. The proofs, elaborated one after another: side by side they need more memory than the check allows.
-/
set_option Elab.async false

section
/-!
SUPPORT. The frame of every command, assembled from the frames of the meanings: one case per command.
-/
namespace Sys2Proof.Machine

/-- Every command completes and keeps the parts outside its footprint. -/
theorem exec_keeps_footprint (c : Instr) (s : State) : Keeps (footprint c) (exec c s) s := by
  cases c with
  | registerWrite => exact execRegisterWrite_keeps
  | writeTakesEffect => exact execWriteTakesEffect_keeps
  | readTimeout => exact execReadTimeout_keeps
  | busErrorAccess => exact execBusErrorAccess_keeps
  | selectWrite => exact execSelectWrite_keeps
  | claim => exact execClaim_keeps
  | claimComplete => exact execClaimComplete_keeps
  | release => exact execRelease_keeps
  | handover => exact execHandover_keeps
  | handoverComplete => exact execHandoverComplete_keeps
  | claimAll => exact execClaimAll_keeps
  | handoverAll => exact execHandoverAll_keeps
  | serverRequest => exact execServerRequest_keeps
  | orphanTWrite h init v => exact execOrphanTWrite_keeps (init := init)
  | orphanTimerExpiry => exact execOrphanTimerExpiry_keeps
  | ownerAliveLowTimeout => exact execOwnerAliveLowTimeout_keeps
  | aliveLineFall => exact execAliveLineFall_keeps
  | aliveLineRise => exact execAliveLineRise_keeps
  | hardwareClaimAll => exact execHardwareClaimAll_keeps
  | takeoverComplete => exact execTakeoverComplete_keeps
  | heartbeatPermitLapse => exact execHeartbeatPermitLapse_keeps
  | stewardPermitContribution => exact execStewardPermitContribution_keeps
  | permitJoinTimeout => exact execPermitJoinTimeout_keeps
  | selfFence => exact execSelfFence_keeps
  | arbiterRoundStart => exact execArbiterRoundStart_keeps
  | crossingLaneChange => exact execCrossingLaneChange_keeps
  | crossingFrameReceived => exact execCrossingFrameReceived_keeps
  | retransmissionRequest => exact execRetransmissionRequest_keeps
  | hbFrameSend => exact execHbFrameSend_keeps
  | hbFrameReceived => exact execHbFrameReceived_keeps
  | hbWindowExpiry => exact execHbWindowExpiry_keeps
  | heartbeatLossSample => exact execHeartbeatLossSample_keeps
  | crossingUp => exact execCrossingUp_keeps
  | xngEnable h init v => exact execXngEnable_keeps (init := init)
  | xngLoopback h init v => exact execXngLoopback_keeps (init := init)
  | xngClrCnt h init => exact execXngClrCnt_keeps (init := init)
  | tsyExchange => exact execTsyExchange_keeps
  | tsyncTimeout => exact execTsyncTimeout_keeps
  | mirrorRecordReceived => exact execMirrorRecordReceived_keeps
  | mirrorLagExceeded => exact execMirrorLagExceeded_keeps
  | backplanePowerOn => exact execBackplanePowerOn_keeps
  | logicInValid => exact execLogicInValid_keeps
  | halfResetRelease => exact execHalfResetRelease_keeps
  | bloom => exact execBloom_keeps
  | roastSiblingFetch => exact execRoastSiblingFetch_keeps
  | roastActivateRequest => exact execRoastActivateRequest_keeps
  | pourEntry => exact execPourEntry_keeps
  | pourExit => exact execPourExit_keeps
  | keyInOn => exact execKeyInOn_keeps
  | keyInOff => exact execKeyInOff_keeps
  | shutdown => exact execShutdown_keeps
  | pwrHoldStartupExpiry => exact execPwrHoldStartupExpiry_keeps
  | pwrHoldForcedRelease => exact execPwrHoldForcedRelease_keeps
  | secretClearDone => exact execSecretClearDone_keeps
  | secretClearTimeout => exact execSecretClearTimeout_keeps
  | islandTestEnd => exact execIslandTestEnd_keeps
  | islandConditionFail => exact execIslandConditionFail_keeps
  | cuppingBudgetExpiry => exact execCuppingBudgetExpiry_keeps
  | cuppingRecordsWritten => exact execCuppingRecordsWritten_keeps
  | wakeRequest => exact execWakeRequest_keeps
  | cupAck h init => exact execCupAck_keeps (init := init)
  | setStateRequest h init dst => exact execSetStateRequest_keeps (init := init)
  | autoTransition => exact execAutoTransition_keeps
  | executorCycle => exact execExecutorCycle_keeps
  | cycleOverrun => exact execCycleOverrun_keeps
  | interlockRelease => exact execInterlockRelease_keeps
  | conflictHoldExpiry => exact execConflictHoldExpiry_keeps
  | seqStepTimeout => exact execSeqStepTimeout_keeps
  | pairReleaseTimeout => exact execPairReleaseTimeout_keeps
  | mfManual h init n on => exact execMfManual_keeps (init := init)
  | mfSeqStart h init n => exact execMfSeqStart_keeps (init := init)
  | mfSeqStep h init n => exact execMfSeqStep_keeps (init := init)
  | mfSeqAbort h init n => exact execMfSeqAbort_keeps (init := init)
  | setClrCnt h init => exact execSetClrCnt_keeps (init := init)
  | steerEngage h init => exact execSteerEngage_keeps (init := init)
  | steerDisengage h init => exact execSteerDisengage_keeps (init := init)
  | steerReleaseTimeout => exact execSteerReleaseTimeout_keeps
  | steerAck h init => exact execSteerAck_keeps (init := init)
  | steerPassSelect h init v => exact execSteerPassSelect_keeps (init := init)
  | alertMinExpiry => exact execAlertMinExpiry_keeps
  | lineLoad h init k => exact execLineLoad_keeps (init := init)
  | lineLoadComplete => exact execLineLoadComplete_keeps
  | lineClear h init k => exact execLineClear_keeps (init := init)
  | optSolve => exact execOptSolve_keeps
  | ditherStep => exact execDitherStep_keeps
  | lookaheadUpdate => exact execLookaheadUpdate_keeps
  | optModeWrite h init v => exact execOptModeWrite_keeps (init := init)
  | optProfileWrite h init v => exact execOptProfileWrite_keeps (init := init)
  | optResetModel h init => exact execOptResetModel_keeps (init := init)
  | optTargetWrite h init which v => exact execOptTargetWrite_keeps (init := init)
  | vlvCommand => exact execVlvCommand_keeps
  | vlvSetpointWrite => exact execVlvSetpointWrite_keeps
  | vlvClrFault => exact execVlvClrFault_keeps
  | vlvKnock => exact execVlvKnock_keeps
  | vlvClrCnt => exact execVlvClrCnt_keeps
  | engineStart => exact execEngineStart_keeps
  | halt => exact execHalt_keeps
  | phase => exact execPhase_keeps
  | src => exact execSrc_keeps
  | seti => exact execSeti_keeps
  | ramp => exact execRamp_keeps
  | wait => exact execWait_keeps
  | waitEnd => exact execWaitEnd_keeps
  | waiti => exact execWaiti_keeps
  | waitiEnd => exact execWaitiEnd_keeps
  | waitk => exact execWaitk_keeps
  | pullKinkConfirm => exact execPullKinkConfirm_keeps
  | closeKinkDetect => exact execCloseKinkDetect_keeps
  | kinkWindowClose => exact execKinkWindowClose_keeps
  | dith => exact execDith_keeps
  | pwmv => exact execPwmv_keeps
  | jmp => exact execJmp_keeps
  | jc => exact execJc_keeps
  | loop => exact execLoop_keeps
  | evt => exact execEvt_keeps
  | off => exact execOff_keeps
  | ldp => exact execLdp_keeps
  | meas => exact execMeas_keeps
  | recipeIllegal => exact execRecipeIllegal_keeps
  | recipeLockRelease => exact execRecipeLockRelease_keeps
  | recipeBankActivate => exact execRecipeBankActivate_keeps
  | coilEstimate => exact execCoilEstimate_keeps
  | dutyEvaluation => exact execDutyEvaluation_keeps
  | boostRailLow => exact execBoostRailLow_keeps
  | boostRailRecover => exact execBoostRailRecover_keeps
  | bankAdmission => exact execBankAdmission_keeps
  | bankWaitTimeout => exact execBankWaitTimeout_keeps
  | twinPartnerLoss => exact execTwinPartnerLoss_keeps
  | twinPartnerReturn => exact execTwinPartnerReturn_keeps
  | vlvShort => exact execVlvShort_keeps
  | vlvOpenLoad => exact execVlvOpenLoad_keeps
  | vlvOvertemp => exact execVlvOvertemp_keeps
  | vlvHsShort => exact execVlvHsShort_keeps
  | tileAbsent => exact execTileAbsent_keeps
  | tileInsert => exact execTileInsert_keeps
  | tileReady => exact execTileReady_keeps
  | vlvProbe => exact execVlvProbe_keeps
  | lswCommand => exact execLswCommand_keeps
  | lswProfile => exact execLswProfile_keeps
  | lswClrFault => exact execLswClrFault_keeps
  | lswKnock => exact execLswKnock_keeps
  | lswClrCnt => exact execLswClrCnt_keeps
  | inrushEnd => exact execInrushEnd_keeps
  | lswShortTrip => exact execLswShortTrip_keeps
  | lswOverloadTrip => exact execLswOverloadTrip_keeps
  | lswThermalTrip => exact execLswThermalTrip_keeps
  | thermalLatchClear => exact execThermalLatchClear_keeps
  | retryWaitExpiry => exact execRetryWaitExpiry_keeps
  | retryCounterReload => exact execRetryCounterReload_keeps
  | feedBudgetGrant => exact execFeedBudgetGrant_keeps
  | budgetWaitLong => exact execBudgetWaitLong_keeps
  | feedOverload => exact execFeedOverload_keeps
  | shedStep => exact execShedStep_keeps
  | feedLost => exact execFeedLost_keeps
  | feedReturn => exact execFeedReturn_keeps
  | openOnDetect => exact execOpenOnDetect_keeps
  | lswProbe => exact execLswProbe_keeps
  | lswBankPresence => exact execLswBankPresence_keeps
  | inputSample => exact execInputSample_keeps
  | inputEdge => exact execInputEdge_keeps
  | qualityConditionTimer => exact execQualityConditionTimer_keeps
  | stuckTimeout => exact execStuckTimeout_keeps
  | twinDivergenceTimeout => exact execTwinDivergenceTimeout_keeps
  | twinAgreementTimeout => exact execTwinAgreementTimeout_keeps
  | uinKnock => exact execUinKnock_keeps
  | uinPreset => exact execUinPreset_keeps
  | uinClrCnt => exact execUinClrCnt_keeps
  | supplyLimitTrip => exact execSupplyLimitTrip_keeps
  | supplyRetry => exact execSupplyRetry_keeps
  | supplyEnable => exact execSupplyEnable_keeps
  | externalBindingWrite => exact execExternalBindingWrite_keeps
  | lossHit => exact execLossHit_keeps
  | lossWindow => exact execLossWindow_keeps
  | lossBiasCheck => exact execLossBiasCheck_keeps
  | lossSilentTimeout => exact execLossSilentTimeout_keeps
  | losClsWrite => exact execLosClsWrite_keeps
  | losClrCnt => exact execLosClrCnt_keeps
  | yieldCycle => exact execYieldCycle_keeps
  | yieldCropChange => exact execYieldCropChange_keeps
  | tankZero => exact execTankZero_keeps
  | totClr => exact execTotClr_keeps
  | yldCalStart => exact execYldCalStart_keeps
  | yldCalStop => exact execYldCalStop_keeps
  | yldCalFlushComplete => exact execYldCalFlushComplete_keeps
  | yldCalWeight => exact execYldCalWeight_keeps
  | yldCalAbort => exact execYldCalAbort_keeps
  | yldCalCommit => exact execYldCalCommit_keeps
  | yldCalClear => exact execYldCalClear_keeps
  | sensorSegment => exact execSensorSegment_keeps
  | sampleReassemblyTimeout => exact execSampleReassemblyTimeout_keeps
  | sensorSample => exact execSensorSample_keeps
  | portStateTimer => exact execPortStateTimer_keeps
  | grindInstant => exact execGrindInstant_keeps
  | gatherClose => exact execGatherClose_keeps
  | featureChunkReceived => exact execFeatureChunkReceived_keeps
  | grindPublish => exact execGrindPublish_keeps
  | grindDeadline => exact execGrindDeadline_keeps
  | gradeRise => exact execGradeRise_keeps
  | grindRateChange => exact execGrindRateChange_keeps
  | productStale => exact execProductStale_keeps
  | modelLoad => exact execModelLoad_keeps
  | modelLoadComplete => exact execModelLoadComplete_keeps
  | grainAnalysis => exact execGrainAnalysis_keeps
  | prjKnock h init mask => exact execPrjKnock_keeps (init := init)
  | feaKnock h init mask jobs => exact execFeaKnock_keeps (init := init)
  | prjClrCnt h init => exact execPrjClrCnt_keeps (init := init)
  | feaClrCnt h init => exact execFeaClrCnt_keeps (init := init)
  | grdClrCnt h init => exact execGrdClrCnt_keeps (init := init)
  | trackCycle => exact execTrackCycle_keeps
  | lateDetection => exact execLateDetection_keeps
  | stopLevelFall => exact execStopLevelFall_keeps
  | stopHoldExpiry => exact execStopHoldExpiry_keeps
  | trackIgnore h init v => exact execTrackIgnore_keeps (init := init)
  | trkClrCnt h init => exact execTrkClrCnt_keeps (init := init)
  | antennaState => exact execAntennaState_keeps
  | antennaBiasRetry => exact execAntennaBiasRetry_keeps
  | notchDetect => exact execNotchDetect_keeps
  | notchRelease => exact execNotchRelease_keeps
  | jamLevel => exact execJamLevel_keeps
  | acqGo => exact execAcqGo_keeps
  | acqEntryComplete => exact execAcqEntryComplete_keeps
  | acqKnock => exact execAcqKnock_keeps
  | chStart => exact execChStart_keeps
  | chStop => exact execChStop_keeps
  | chKnock => exact execChKnock_keeps
  | chCommit => exact execChCommit_keeps
  | chIntegrationDump => exact execChIntegrationDump_keeps
  | measurementLatch => exact execMeasurementLatch_keeps
  | measRateWrite h init v => exact execMeasRateWrite_keeps (init := init)
  | measRateApply => exact execMeasRateApply_keeps
  | measurementRecord => exact execMeasurementRecord_keeps
  | siblingRecordReceived => exact execSiblingRecordReceived_keeps
  | positionSolution => exact execPositionSolution_keeps
  | headingSolution => exact execHeadingSolution_keeps
  | posePublish => exact execPosePublish_keeps
  | exclusionReadmit => exact execExclusionReadmit_keeps
  | bbSuspectClear => exact execBbSuspectClear_keeps
  | imuFault => exact execImuFault_keeps
  | correctionFrame h init v => exact execCorrectionFrame_keeps (init := init)
  | correctionSourceTimeout => exact execCorrectionSourceTimeout_keeps
  | timeAid h init v => exact execTimeAid_keeps (init := init)
  | gnssCold h init => exact execGnssCold_keeps (init := init)
  | gnsClrCnt h init => exact execGnsClrCnt_keeps (init := init)
  | referenceValid => exact execReferenceValid_keeps
  | referenceLost => exact execReferenceLost_keeps
  | timeStep => exact execTimeStep_keeps
  | slewEnd => exact execSlewEnd_keeps
  | timeSet h init => exact execTimeSet_keeps (init := init)
  | timeRefSelect h init v => exact execTimeRefSelect_keeps (init := init)
  | timeInEdge => exact execTimeInEdge_keeps
  | timeInLost => exact execTimeInLost_keeps
  | timePulse => exact execTimePulse_keeps
  | timeQualityMessage => exact execTimeQualityMessage_keeps
  | canModeWrite => exact execCanModeWrite_keeps
  | canKnock => exact execCanKnock_keeps
  | canClrLockout => exact execCanClrLockout_keeps
  | canClrCnt => exact execCanClrCnt_keeps
  | canTxRequest => exact execCanTxRequest_keeps
  | canTxAbort => exact execCanTxAbort_keeps
  | canArbitration => exact execCanArbitration_keeps
  | canTxComplete => exact execCanTxComplete_keeps
  | canTxError => exact execCanTxError_keeps
  | canFrameReceived => exact execCanFrameReceived_keeps
  | canRxAck => exact execCanRxAck_keeps
  | canScheduleDue => exact execCanScheduleDue_keeps
  | canBusOff => exact execCanBusOff_keeps
  | canBusOffRecovery => exact execCanBusOffRecovery_keeps
  | canTrxFault => exact execCanTrxFault_keeps
  | canWake => exact execCanWake_keeps
  | j1939AddressClaim => exact execJ1939AddressClaim_keeps
  | ethLink => exact execEthLink_keeps
  | gmForeignAnnounce => exact execGmForeignAnnounce_keeps
  | ethClrCnt h init => exact execEthClrCnt_keeps (init := init)
  | flxOpen => exact execFlxOpen_keeps
  | flxClose => exact execFlxClose_keeps
  | flxAccept => exact execFlxAccept_keeps
  | flxHandshakeComplete => exact execFlxHandshakeComplete_keeps
  | flxMessageReceived => exact execFlxMessageReceived_keeps
  | hello => exact execHello_keeps
  | rtcm => exact execRtcm_keeps
  | cartState => exact execCartState_keeps
  | flxHeartbeatSend => exact execFlxHeartbeatSend_keeps
  | flxSessionTimeout => exact execFlxSessionTimeout_keeps
  | flxKeyUpdate => exact execFlxKeyUpdate_keeps
  | status => exact execStatus_keeps
  | cartSync => exact execCartSync_keeps
  | cartStale => exact execCartStale_keeps
  | cartSelect h init k => exact execCartSelect_keeps (init := init)
  | cartRelease h init => exact execCartRelease_keeps (init := init)
  | prepareHalf h init target => exact execPrepareHalf_keeps (init := init)
  | prepareTile h init t => exact execPrepareTile_keeps (init := init)
  | svcCancel h init => exact execSvcCancel_keeps (init := init)
  | fanReset h init => exact execFanReset_keeps (init := init)
  | holdupReset h init => exact execHoldupReset_keeps (init := init)
  | prepareTimeout => exact execPrepareTimeout_keeps
  | cartridgePresenceOpen => exact execCartridgePresenceOpen_keeps
  | cartridgeInsert => exact execCartridgeInsert_keeps
  | plannedMove => exact execPlannedMove_keeps
  | handbackMove => exact execHandbackMove_keeps
  | stewardFrame => exact execStewardFrame_keeps
  | c3Shed => exact execC3Shed_keeps
  | c2Pause => exact execC2Pause_keeps
  | stwLoadClear h init => exact execStwLoadClear_keeps (init := init)
  | watchdogService h init v => exact execWatchdogService_keeps (init := init)
  | watchdogExpiry => exact execWatchdogExpiry_keeps
  | eventRaise => exact execEventRaise_keeps
  | eventRecordDelivery => exact execEventRecordDelivery_keeps
  | evtClrCnt h init => exact execEvtClrCnt_keeps (init := init)
  | knockCmd => exact execKnockCmd_keeps
  | knockComplete => exact execKnockComplete_keeps
  | knockEscalation => exact execKnockEscalation_keeps
  | updOpen => exact execUpdOpen_keeps
  | updBlock => exact execUpdBlock_keeps
  | updClose => exact execUpdClose_keeps
  | updCheckComplete => exact execUpdCheckComplete_keeps
  | updRestart => exact execUpdRestart_keeps
  | updAbort => exact execUpdAbort_keeps
  | updSessionTimeout => exact execUpdSessionTimeout_keeps
  | updClrCnt h init => exact execUpdClrCnt_keeps (init := init)
  | siblingRestore => exact execSiblingRestore_keeps
  | debugUnlock => exact execDebugUnlock_keeps
  | debugExpiry => exact execDebugExpiry_keeps
  | calTokenRequest => exact execCalTokenRequest_keeps
  | calKeyOffer => exact execCalKeyOffer_keeps
  | calLockClose => exact execCalLockClose_keeps
  | calLockTimeout => exact execCalLockTimeout_keeps
  | ledgerWrite => exact execLedgerWrite_keeps
  | ledgerRestore => exact execLedgerRestore_keeps
  | logicInStateChange => exact execLogicInStateChange_keeps
  | powerFail => exact execPowerFail_keeps
  | powerFailRecovery => exact execPowerFailRecovery_keeps
  | holdupReady => exact execHoldupReady_keeps
  | feedMeasurement => exact execFeedMeasurement_keeps
  | fuseOpen => exact execFuseOpen_keeps
  | feedConnect => exact execFeedConnect_keeps
  | pwrClrCnt => exact execPwrClrCnt_keeps
  | derateChange => exact execDerateChange_keeps
  | coolingOverride => exact execCoolingOverride_keeps
  | sysShdnAssert => exact execSysShdnAssert_keeps
  | sysShdnHalfReset => exact execSysShdnHalfReset_keeps
  | sysShdnRelease => exact execSysShdnRelease_keeps
  | sysShdnExternal => exact execSysShdnExternal_keeps
  | coolantTemperatureWarning => exact execCoolantTemperatureWarning_keeps
  | fanFrame => exact execFanFrame_keeps
  | fanSpeedMeasure => exact execFanSpeedMeasure_keeps
  | fanSuspect => exact execFanSuspect_keeps
  | fanKickEnd => exact execFanKickEnd_keeps
  | fanRekick => exact execFanRekick_keeps
  | fanCommand => exact execFanCommand_keeps
  | segmentFrame => exact execSegmentFrame_keeps
  | segmentLatch => exact execSegmentLatch_keeps
  | symbolEvaluation => exact execSymbolEvaluation_keeps
  | panelLoad => exact execPanelLoad_keeps
  | panelCopyComplete => exact execPanelCopyComplete_keeps
  | panelEnable => exact execPanelEnable_keeps
  | panelSequenceStep => exact execPanelSequenceStep_keeps
  | safeOffAssert => exact execSafeOffAssert_keeps
  | safeOffRelease => exact execSafeOffRelease_keeps
  | safeOffDiscrepancy => exact execSafeOffDiscrepancy_keeps
  | realtimePermitRefresh => exact execRealtimePermitRefresh_keeps
  | canRxError => exact execCanRxError_keeps
  | dm1Broadcast => exact execDm1Broadcast_keeps
  | mirrorRefresh => exact execMirrorRefresh_keeps
  | twinScaleMergeEnd => exact execTwinScaleMergeEnd_keeps
  | greenRampEnd => exact execGreenRampEnd_keeps
  | supplyClassSelect => exact execSupplyClassSelect_keeps
  | fanKickPauseEnd => exact execFanKickPauseEnd_keeps

/-- States that agree outside `q` agree in every register outside `q`, and in their queue. -/
theorem State.rest_eq_iff {q : List Part} {s t : State} : State.rest q t = State.rest q s ↔ Side q t s ∧ Rest q t.w s.w := by
  constructor
  · intro (e : _ = _)
    have hown : (t.rest q).own = (s.rest q).own := by rw [e]
    have hledger : (t.rest q).ledger = (s.rest q).ledger := by rw [e]
    have hbus : (t.rest q).bus = (s.rest q).bus := by rw [e]
    refine ⟨⟨congrArg (·.pending) e, fun hq => ?_, fun hq => ?_, fun hq => ?_⟩, congrArg State.w e⟩
    · simpa [State.rest, hq] using hown
    · simpa [State.rest, hq] using hledger
    · simpa [State.rest, hq] using hbus
  · rintro ⟨hside, hrest⟩
    obtain ⟨u, hu, hur⟩ := Keeps.next hside hrest
    cases hu
    exact hur

/-- What a frame says of a command: it completes, its queue stays, and so does every part and register outside the frame. -/
theorem Keeps.completes {q : List Part} {c : Instr} {s : State} (hk : Keeps q (exec c s) s) :
    Completes c s fun t => Side q t s ∧ Rest q t.w s.w := by
  obtain ⟨t, ht, hr⟩ := hk
  exact ⟨t, ht, State.rest_eq_iff.mp hr⟩

end Sys2Proof.Machine
end

section
open Sys2Proof Sys2Proof.Machine

/-- Settles O2: the frame of a command's meaning is its footprint, one case per command. -/
theorem frameOfEveryCommand : Obligations.frameOfEveryCommand := by
  unfold Obligations.frameOfEveryCommand
  intro c s
  obtain ⟨t, ht, hside, hrest⟩ := (exec_keeps_footprint c s).completes
  refine ⟨t, ht, hside.1, State.rest_eq_iff.mpr ⟨hside, hrest⟩, fun h f i hf hq => hrest.reg h f i ?_⟩
  simp only [hq, decide_eq_true hf, Bool.not_false, Bool.and_self]

/-- Settles O1: `step` looks at the queue alone; the tick moves the clock, and of the rest of the state nothing outside the world. -/
theorem stepRunsTheFront : Obligations.stepRunsTheFront := by
  unfold Obligations.stepRunsTheFront
  refine ⟨fun s c rest hp => ?_, fun s hp => ?_⟩
  · simp [step, hp]
  · refine ⟨by simp [step, hp], ?_, rfl, rfl, rfl, hp⟩
    have hlater : Rest _ s.tick.w { s.w with now := s.w.now + 1000 } :=
      World.reportLost_rest (by decide) (World.reportLost_rest (by decide) (World.lifeTick_rest (by decide)
        (Rest.refl [.evt, .svc, .reg F.STW_LIFE_HRS.HOURS.reg, .reg F.STW_LIFE_FAN.DUE.reg] _)))
    exact hlater.now (by decide)

end

section
/-!
SUPPORT. What holds right after reset (R27, R579, R581): empty register files read as reset, and no token has left ORPHAN.
-/
namespace Sys2Proof.Machine

@[simp] theorem State.token_reset (k : Nat) : State.reset.own.token k = {} := rfl
@[simp] theorem State.port_reset (h : Half) (i : Nat) : State.reset.port h i = {} := by cases h <;> rfl
@[simp] theorem State.reg_reset (h : Half) (f : Field) (i : Nat) : State.reset.w.reg h f i = regReset f.reg := by
  cases h <;> simp [World.reg, World.file, State.reset, World.init, Two.both, Two.get, NMap.get]

theorem State.rd_reset (h : Half) (f : Field) (i : Nat) : State.reset.w.rd h f i = (regReset f.reg).field f.lo f.w := by
  rw [World.rd, State.reg_reset]

/-- Every select of the map is 0 at reset (R581). -/
theorem selects_reset : ∀ e ∈ selects, (regReset e.2.reg).field e.2.lo e.2.w = 0 := by decide +kernel

theorem State.selOf_reset (h : Half) (blk init : Nat) : State.reset.w.selOf h blk init = 0 := by
  cases hf : selField blk with
  | none => simp [World.selOf, hf]
  | some f =>
    rw [World.selOf_eq_rd hf, State.rd_reset]
    exact selects_reset (blk, f) (mem_selects hf)

theorem State.inv_reset : State.reset.Inv where
  ledger := rfl
  fifo h i := by simp
  stall h i := by simp
  own :=
    { objects := fun _ _ => rfl
      passing := fun _ _ _ hk => nomatch hk
      server := fun _ hs => nomatch hs
      fallen := fun h _ hk => by cases h <;> exact nomatch hk }

theorem State.memOk_reset : State.reset.MemOk where
  half h := by cases h <;> rfl
  log h := by cases h <;> exact ⟨rfl, rfl⟩
  panel := ⟨rfl, rfl⟩

end Sys2Proof.Machine
end

section
open Sys2Proof Sys2Proof.Machine

/-- Settles O5: the register files, the tokens, the boundaries and the memories are empty at reset, so each reads as its reset value. -/
theorem resetLeaves : Obligations.resetLeaves := by
  unfold Obligations.resetLeaves
  refine ⟨State.inv_reset, State.memOk_reset, rfl, rfl, fun k => ⟨rfl, rfl⟩, fun h => ⟨?running, ?enabled, ?up⟩, State.port_reset,
    State.selOf_reset, State.reg_reset⟩
  case running => cases h <;> rfl
  case enabled => rw [State.rd_reset]; decide +kernel
  case up => rw [State.rd_reset]; decide +kernel

end

section
/-!
SUPPORT. The invariant `State.Inv` through every command: a command whose footprint names neither the tokens nor the Ledger nor the
boundaries keeps it by its frame; the others keep it by what they do to these.
-/
namespace Sys2Proof.Machine

/-- The outcome, where it is a next state, keeps to the invariant. -/
def OutInv (o : Out) : Prop := ∀ t, o = .next t → t.Inv

theorem OutInv.next {t : State} (ht : t.Inv) : OutInv (.next t) := by
  rintro _ ⟨⟩
  exact ht

/-- A command that leaves the tokens, the Ledger and the boundaries as they are keeps the invariant. -/
theorem State.Inv.exec_of_footprint {s : State} {c : Instr} (e : s.Inv) (ho : partIn (footprint c) .own = false)
    (hl : partIn (footprint c) .ledger = false) (hb : partIn (footprint c) .bus = false) : OutInv (exec c s) := by
  intro t ht
  obtain ⟨u, hu, ⟨_, hown, hledger, hbus⟩, _⟩ := (exec_keeps_footprint c s).completes
  obtain rfl : u = t := by rw [hu] at ht; injection ht
  exact e.of_eq (hown ho) (hledger hl) (hbus hb)

theorem OutInv.when {s : State} {b : Bool} {f : State → State} (e : s.Inv) (hf : ∀ u : State, u.Inv → (f u).Inv) :
    OutInv (.next (s.when b f)) := .next (e.when hf)

/-! The boundaries. -/

/-- A boundary replaced by one that keeps to R17. -/
theorem State.Inv.setPort {s : State} {h : Half} {init : Nat} {p : Port} (e : s.Inv) (hl : p.fifo.length ≤ 8)
    (hs : p.stalled.isSome = true → p.fifo.length = 8) : (s.setPort h init p).Inv := by
  have hport : ∀ g j, (s.setPort h init p).port g j = p ∨ (s.setPort h init p).port g j = s.port g j := fun g j => by
    by_cases he : (g, j) = (h, init)
    · obtain ⟨rfl, rfl⟩ := Prod.mk.inj he
      exact .inl (s.port_setPort_same g j p)
    · exact .inr (s.port_setPort_ne p he)
  refine ⟨e.ledger, fun g j => ?_, fun g j => ?_, e.own⟩
  · obtain hp | hp := hport g j <;> rw [hp]
    · exact hl
    · exact e.fifo g j
  · obtain hp | hp := hport g j <;> rw [hp]
    · exact hs
    · exact e.stall g j

theorem State.Inv.post {s : State} {h : Half} {init : Nat} {x : PWrite} (e : s.Inv) :
    (s.setPort h init ((s.port h init).post x)).Inv := by
  have hle := e.fifo h init
  have hst := e.stall h init
  cases hs : (s.port h init).stalled with
  | some q =>
    rw [Port.post_of_stalled _ (by simp [hs])]
    exact e.setPort hle hst
  | none =>
    by_cases hlt : (s.port h init).fifo.length < 8
    · rw [Port.post_of_room x hs hlt]
      exact e.setPort (by simpa using hlt) (by simp [hs])
    · have hfull : (s.port h init).fifo.length = 8 := by omega
      rw [Port.post_of_full x hs hfull]
      exact e.setPort hle fun _ => hfull

theorem State.Inv.pop {s : State} {h : Half} {init : Nat} (e : s.Inv) : (s.setPort h init (s.port h init).pop).Inv := by
  have hle := e.fifo h init
  have hst := e.stall h init
  cases hs : (s.port h init).stalled with
  | some q =>
    rw [hs] at hst
    rw [Port.pop_of_stalled hs]
    exact e.setPort (by simp; omega) (by simp)
  | none =>
    rw [Port.pop_of_not_stalled hs]
    exact e.setPort (by simp; omega) (by simp [hs])

theorem State.Inv.busErr {s : State} {h : Half} {init : Nat} (e : s.Inv) : (s.busErr h init).Inv :=
  e.setPort (e.fifo h init) (e.stall h init)

/-! The arbiter. -/

theorem State.Inv.ownedBy_orphan {s : State} {h : Half} (e : s.Inv) : (s.forAll (s.own.ownedBy h) fun s k => s.orphan k h).Inv :=
  e.forAll fun _ _ hu => hu.orphan

/-- Causes taken away from one half's line: a line that was high stays high. -/
theorem State.Inv.raise_line {s : State} {h : Half} {l : Low} (e : s.Inv) (hl : s.own.alive h = true → l.alive = true) :
    (s.onOwn fun o => { o with low := o.low.set h l }).Inv := by
  refine e.onOwn (e.own.rise rfl rfl rfl fun d hd => ?_)
  unfold Own.alive at hd hl ⊢
  by_cases hdh : d = h
  · subst hdh
    simpa using hl hd
  · simpa [Two.get_set_ne _ _ hdh] using hd

theorem Low.alive_put_false {l : Low} {c : LowCause} (ha : l.alive = true) : (l.put c false).alive = true := by
  cases c <;> exact Low.alive_of_sub (by simp [Low.put]) (by simp [Low.put]) (by simp [Low.put]) (by simp [Low.put]) (by simp [Low.put])
    (by simp [Low.put]) ha

theorem State.Inv.claimed_from_fall {s : State} {h : Half} (e : s.Inv) (ha : s.own.alive h = true) (b : Bool) :
    ((s.forAll (s.own.fallSet.get h.other) fun s k => s.claiming k h none).onOwn fun o =>
      { o with hwIssued := o.hwIssued.set h.other b }).Inv := by
  obtain ⟨hinv, -⟩ := State.Inv.forAll_of (l := s.own.fallSet.get h.other) (f := fun s k => s.claiming k h none)
    (fun u => u.own.alive h = true) e ha fun u k hk hu hp => ⟨hu.claiming (e.own.fallen _ k hk) hp, hp⟩
  exact hinv.onOwn (hinv.own.of_eq rfl rfl rfl rfl)

/-- The tokens that a fall named pass to the survivor: objects all (R33). -/
theorem State.Inv.taken_over {s : State} {h : Half} (e : s.Inv) (p : Nat → Bool) :
    ((s.forAll ((s.own.fallSet.get h.other).filter p) fun s k => s.owned k h).onOwn fun o =>
      { o with fallSet := o.fallSet.set h.other [] }).Inv := by
  obtain ⟨hinv, -⟩ := State.Inv.forAll_of (l := (s.own.fallSet.get h.other).filter p) (f := fun s k => s.owned k h)
    (fun _ => True) e trivial fun u k hk hu _ => ⟨hu.owned (e.own.fallen _ k (List.mem_of_mem_filter hk)), trivial⟩
  refine hinv.onOwn ⟨hinv.own.objects, hinv.own.passing, hinv.own.server, fun g k hk => ?_⟩
  by_cases hg : g = h.other
  · subst hg
    simp at hk
  · rw [Two.get_set_ne _ _ hg] at hk
    exact hinv.own.fallen g k hk

/-! The Ledger. -/

theorem State.Inv.calRes {s : State} {r : Nat} (e : s.Inv) : (calRes s r).Inv := e.set_w _

theorem State.Inv.ledger_w {s : State} (e : s.Inv) {m : Memory} (w : World) (hm : m.wf = true) :
    ({ s with ledger := m, w := w } : State).Inv := (e.set_ledger hm).set_w w

theorem foldl_wf {α : Type} {f : Memory → α → Memory} (hf : ∀ m a, m.wf = true → (f m a).wf = true) (l : List α) {m : Memory}
    (hm : m.wf = true) : (l.foldl f m).wf = true := by
  induction l generalizing m with
  | nil => exact hm
  | cons a l ih => exact ih (hf m a hm)

theorem State.Inv.restoreLedger {s : State} {h : Half} {init mask : Nat} {f : List Byte} {keys : List (List Byte)} (e : s.Inv) :
    (restoreLedger s h init mask f keys).Inv := by
  unfold Sys2Proof.Machine.restoreLedger
  refine .ite e.calRes (.ite e.calRes (.ite e.calRes (.ite e.calRes (.ite e.calRes (.ite e.calRes (.ite e.calRes ?_))))))
  exact (e.ledger_w _ (foldl_wf (fun _ _ hm => wf_ledgerWrite hm _ _ _ _ _) _ e.ledger)).calRes

theorem State.Inv.tileCal {s : State} {t : Nat} {serial : List Byte} {cal : List (List Byte)} (e : s.Inv) : (s.tileCal t serial cal).Inv := by
  have hput : ∀ (m : Memory) (ty k utc : Nat) (pl : List Byte), m.wf = true →
      (if payloadOk ty pl then ledgerWrite m ty k 3 utc pl else m).wf = true := by
    intro m ty k utc pl hm
    split
    · exact wf_ledgerWrite hm _ _ _ _ _
    · exact hm
  unfold State.tileCal
  refine .ite e (e.set_ledger (hput _ _ _ _ _ (foldl_wf (fun m x hm => ?_) _ e.ledger)))
  split
  · exact hput _ _ _ _ _ hm
  · exact hm

theorem State.Inv.yldCalCommit {s : State} {h : Half} {init : Nat} (e : s.Inv) : OutInv (execYldCalCommit h init s) := by
  unfold execYldCalCommit
  refine .next ?_
  split
  · exact e
  · exact .ite (e.set_w _) (e.ledger_w _ (wf_ledgerWrite e.ledger _ _ _ _ _))

theorem State.Inv.ledgerWrite {s : State} {h : Half} {init ty k : Nat} {pl : List Byte} (e : s.Inv) :
    OutInv (execLedgerWrite h init ty k pl s) :=
  .next (.ite e.calRes (.ite e.calRes (.ite e.calRes (.ite e.calRes (e.ledger_w _ (wf_ledgerWrite e.ledger _ _ _ _ _)).calRes))))

end Sys2Proof.Machine
end

section
/-!
SUPPORT. The invariant `State.Inv` through the commands whose footprint names the tokens, the Ledger or the boundaries.
-/
namespace Sys2Proof.Machine

/-! Boundaries and tokens. -/

theorem State.Inv.writeTakesEffect {s : State} {h : Half} {init : Nat} (e : s.Inv) : OutInv (execWriteTakesEffect h init s) := by
  unfold execWriteTakesEffect
  split
  · exact .next e
  · exact .when e fun _ hu => hu.pop.busWrite

theorem State.Inv.claimComplete {s : State} {k : Nat} (e : s.Inv) : OutInv (execClaimComplete k s) := by
  unfold execClaimComplete
  split
  next d hk => exact .next (e.owned (e.own.lt (by rw [hk]; nofun))).settle
  next => exact .next e

theorem State.Inv.claimAllOrphans {s : State} {h : Half} (e : s.Inv) : OutInv (execClaimAll h s) :=
  .next (e.when_of fun ha => e.claimAll ha fun _ hk => ((mem_objsWhere _ _ _).mp hk).1)

theorem State.Inv.aliveLineFall {s : State} {h : Half} {c : LowCause} (e : s.Inv) : OutInv (execAliveLineFall h c s) := by
  refine .next ?_
  cases c with
  | fence => exact e.fall.onW
  | wiring => exact e.fall
  | detect | supply | reset | watchdog => exact e.fall.hold

theorem State.Inv.aliveLineRise {s : State} {h : Half} {c : LowCause} (e : s.Inv) : OutInv (execAliveLineRise h c s) := by
  refine .next ((?_ : State.Inv _).when fun _ hu => hu.onW)
  cases c with
  | detect | supply | wiring => exact e.raise_line Low.alive_put_false
  | reset | watchdog | fence => exact e

theorem State.Inv.hardwareClaimAll {s : State} {h : Half} (e : s.Inv) : OutInv (execHardwareClaimAll h s) := by
  refine .next (e.when_of fun hc => e.claimed_from_fall ?_ true)
  simp only [Bool.and_eq_true] at hc
  exact hc.1.1.1.1.1

theorem State.Inv.takeoverComplete {s : State} {h : Half} (e : s.Inv) : OutInv (execTakeoverComplete h s) :=
  .next (e.when_of fun _ => (e.taken_over _).onW)

/-! Starts and restarts. -/

theorem State.Inv.roastSiblingFetch {s : State} {h : Half} {pending : Bool} (e : s.Inv) : OutInv (execRoastSiblingFetch h pending s) := by
  unfold execRoastSiblingFetch
  cases pending with
  | true => exact .when e fun _ hu => hu.onW
  | false => exact .when e fun _ hu => .ite hu.onW.restart hu.onW

theorem State.Inv.roastActivateRequest {s : State} {h : Half} {k : Nat} (e : s.Inv) : OutInv (execRoastActivateRequest h k s) := by
  unfold execRoastActivateRequest
  split
  · exact .when e fun _ hu => hu.activateAsk
  · split
    · exact .when e fun _ hu => hu.activateEnd
    · split
      · exact .when e fun _ hu => (hu.when fun _ hv => hv.handoverAllNow).setStep
      · exact .when e fun _ hu => hu.setStep.activateTrial
      · exact .when e fun _ hu => hu.setStep.onW
      · exact .when e fun _ hu => hu.setStep.activatePass
      · exact .when e fun _ hu => hu.setStep.activateAdopt
      · exact .when e fun _ hu => hu.setStep.activateOld
      · exact .when e fun _ hu => hu.activateEnd
      · exact .when e fun _ hu => hu.activateDrop
      · exact .next e

theorem State.Inv.shutdown {s : State} {h : Half} {k : Nat} {c : CupCond} (e : s.Inv) : OutInv (execShutdown h k c s) := by
  refine .next ?_
  split
  · exact e.when fun _ hu => hu.shutBegin
  · exact e.when fun _ hu => hu.shutRelease
  · exact e.when fun _ hu => hu.cupStart
  · exact e

theorem State.Inv.sysShdnRelease {s : State} {ts : Int} (e : s.Inv) : OutInv (execSysShdnRelease ts s) :=
  .when e.onW fun _ hu => State.Inv.ite (State.Inv.startAgain (.ite hu.onW.startAgain hu.onW)) (.ite hu.onW.startAgain hu.onW)

/-! Service, updates and Knocks. -/

theorem State.Inv.cartridgeInsert {s : State} {h : Half} {c : Option Cartridge} (e : s.Inv) : OutInv (execCartridgeInsert h c s) := by
  refine .next (e.when_of fun hc => (e.raise_line fun ha => ?_).onW)
  simp [ha] at hc

theorem State.Inv.handbackMove {s : State} (e : s.Inv) : OutInv (execHandbackMove s) := by
  unfold execHandbackMove
  split
  · exact .next e
  · extract_lets o u due
    have hu : u.Inv := e.onW
    clear_value due u
    cases due with
    | none => exact .next hu
    | some g => exact .when hu fun _ hv => hv.onW.when fun _ hx => hx.moveGroup

theorem State.Inv.knockCmd {s : State} {h : Half} {init cls idx tc : Nat} {jobs : List Nat} (e : s.Inv) :
    OutInv (execKnockCmd h init cls idx tc jobs s) := by
  refine .when e fun u hu => ?_
  dsimp only
  split
  · exact hu.onW.onW
  · exact hu.onW.knockIn

theorem State.Inv.debugExpiry {s : State} {h : Half} (e : s.Inv) : OutInv (execDebugExpiry h s) := by
  unfold execDebugExpiry
  split
  · exact .next e
  · exact .when e fun _ hu => hu.onW.hold

/-- Every command keeps the invariant. -/
theorem State.Inv.exec {s : State} (e : s.Inv) (c : Instr) : OutInv (exec c s) := by
  cases c with
  | registerWrite => exact .when e fun _ hu => hu.post
  | writeTakesEffect => exact e.writeTakesEffect
  | readTimeout => exact .when e fun _ hu => hu.busErr
  | busErrorAccess => exact .when e fun _ hu => hu.busErr
  | claim => exact .next (e.when_of fun ha => e.claim ha)
  | claimComplete => exact e.claimComplete
  | release => exact .when e fun _ hu => hu.release
  | handover => exact .when e fun _ hu => hu.handover
  | handoverComplete => exact .next e.handoverDone
  | claimAll => exact e.claimAllOrphans
  | handoverAll => exact .when e fun _ hu => hu.handoverAll
  | serverRequest => exact .next e.serverReq
  | orphanTWrite => exact .when e fun _ hu => hu.setOrphanT
  | orphanTimerExpiry => exact .when e fun _ hu => hu.expire
  | ownerAliveLowTimeout => exact .when e fun _ hu => hu.ownedBy_orphan
  | aliveLineFall => exact e.aliveLineFall
  | aliveLineRise => exact e.aliveLineRise
  | hardwareClaimAll => exact e.hardwareClaimAll
  | takeoverComplete => exact e.takeoverComplete
  | heartbeatPermitLapse => exact .when e fun _ hu => hu.fence
  | permitJoinTimeout => exact .when e fun _ hu => hu.fence
  | selfFence => exact .when e fun _ hu => hu.onW.onW.hold
  | backplanePowerOn => exact .when e fun _ hu => hu.replayJournal.backplaneOn.onW
  | halfResetRelease => exact .when e fun _ hu => hu.letRun
  | bloom => exact .when e fun _ hu => hu.onW.bloomStep
  | roastSiblingFetch => exact e.roastSiblingFetch
  | roastActivateRequest => exact e.roastActivateRequest
  | keyInOn => exact .when e fun _ hu => hu.onW.cancelShutdown.cancelShutdown
  | shutdown => exact e.shutdown
  | wakeRequest => exact .when e fun _ hu => hu.onW.when fun _ hv => hv.letRun
  | tileReady => exact .when e fun _ hu => hu.tileCal.onW
  | yldCalCommit => exact e.yldCalCommit
  | prepareHalf => exact .when e fun _ hu => .ite hu.onW.onW hu.onW.prepareHalf
  | svcCancel => exact .when e fun _ hu => hu.svcEnd
  | prepareTimeout => exact .when e fun _ hu => hu.svcEnd
  | cartridgePresenceOpen => exact .when e fun _ hu => hu.fall.hold.onW
  | cartridgeInsert => exact e.cartridgeInsert
  | plannedMove => exact .when e fun _ hu => .ite hu.moveGroup hu.onW
  | handbackMove => exact e.handbackMove
  | watchdogService => exact .when e fun _ hu => .ite hu.onW hu.watchdogExpire
  | watchdogExpiry => exact .when e fun _ hu => hu.watchdogExpire
  | knockCmd => exact e.knockCmd
  | updBlock => exact .when e fun _ hu => hu.upBlock
  | updRestart => exact .when e fun _ hu => hu.restart
  | siblingRestore => exact .when e fun _ hu => .ite hu.onW hu.onW.leaveForUpdate.onW
  | debugUnlock => exact .when e fun _ hu => .ite hu.onW hu.onW.handoverAllNow.onW.fence
  | debugExpiry => exact e.debugExpiry
  | ledgerWrite => exact e.ledgerWrite
  | ledgerRestore => exact .next e.restoreLedger
  | powerFail => exact .when e fun _ hu => hu.onW.failHalf.failHalf.onW
  | powerFailRecovery => exact .when e fun _ hu => hu.onW.startAgain.startAgain
  | sysShdnHalfReset => exact .when e fun _ hu => hu.resetHalf.resetHalf
  | sysShdnRelease => exact e.sysShdnRelease
  | _ => exact e.exec_of_footprint rfl rfl rfl

theorem State.Inv.tick {s : State} (e : s.Inv) : s.tick.Inv := e.onW

end Sys2Proof.Machine
end

section
open Sys2Proof Sys2Proof.Machine

/-- Settles O3: a step is the tick or the command at the front on the queue's rest, and both keep the invariant. -/
theorem everyStepKeepsTheArbiter : Obligations.everyStepKeepsTheArbiter := by
  unfold Obligations.everyStepKeepsTheArbiter
  intro s t e hstep
  obtain ⟨hfront, htick⟩ := stepRunsTheFront
  cases hp : s.pending with
  | nil =>
    rw [(htick s hp).1] at hstep
    cases hstep
    exact e.tick
  | cons c rest =>
    rw [hfront s c rest hp] at hstep
    exact (e.of_eq (t := { s with pending := rest }) rfl rfl rfl).exec c t hstep

end

section
/-!
SUPPORT. R27–R33: what the operations on tokens do to the tokens and to OWN_RESULT.
-/
namespace Sys2Proof.Machine

/-- A command that ends in the state `t` completes with what holds of `t`. -/
theorem Completes.of_exec {c : Instr} {s t : State} {post : State → Prop} (ht : exec c s = .next t) (hp : post t) : Completes c s post :=
  ⟨t, ht, hp⟩

/-- The units of the world. -/
def units : List Part :=
  [.now, .fresh, .run, .evt, .xng, .roast, .bp, .devId, .act, .shut, .frame, .svc, .tim, .set, .opt, .vlv, .lsw, .uin, .yld, .cal, .dram,
    .pose, .grd, .trk, .gns, .keeper, .can, .flx, .upd, .pwr, .dsp, .latch]

/-- Every part of the world but `x`: a frame to read off that an operation leaves `x` as it was. -/
def allBut (x : Part) : List Part := .regs :: units.filter (· ≠ x)

/-! OWN_RESULT. -/

/-- OWN_RESULT of a half stays where a change of the world leaves its fields. -/
theorem State.ResultIs.of_rd {s t : State} {h : Half} {obj res busy : Nat} (hr : s.ResultIs h obj res busy)
    (hrd : ∀ f, f ∈ [F.OWN_RESULT.OBJ, F.OWN_RESULT.RES, F.OWN_RESULT.BUSY] → t.w.rd h f 0 = s.w.rd h f 0) : t.ResultIs h obj res busy := by
  obtain ⟨hobj, hres, hbusy⟩ := hr
  exact ⟨(hrd _ (by simp)).trans hobj, (hrd _ (by simp)).trans hres, (hrd _ (by simp)).trans hbusy⟩

/-- OWN_RESULT of the sibling is its own (R49). -/
theorem State.ResultIs.onW_other {s : State} {h : Half} {obj res busy obj' res' : Nat} {b : Bool} (hr : s.ResultIs h obj res busy) :
    (s.onW fun w => w.ownResult h.other obj' res' b).ResultIs h obj res busy :=
  hr.of_rd fun _ _ => World.rd_ownResult_half _ _ _ _ _ _ h.ne_other

theorem State.resultIs_claimLost (s : State) (h : Half) {k : Nat} (hk : k < 512) : (s.onW fun w => w.claimLost h k).ResultIs h k 3 0 := by
  refine (s.resultIs_onW h k 3 false hk (by decide)).of_rd fun f hf => ?_
  refine World.rd_raise _ _ _ _ _ _ _ ?_
  simp only [List.mem_cons, List.not_mem_nil, or_false] at hf
  obtain rfl | rfl | rfl := hf <;> rfl

/-! CLAIM. -/

theorem State.claim_past {s : State} {h : Half} {k : Nat} (hk : nObj ≤ k) : s.claim h k = s.onW fun w => w.ownResult h k 5 false := if_pos hk

theorem State.claim_orphan {s : State} {h : Half} {k : Nat} (hk : k < nObj) (hs : (s.own.token k).st = .orphan) :
    s.claim h k = (s.claiming k h none).onW fun w => w.ownResult h k 1 true := by
  simp [State.claim, Nat.not_le.mpr hk, hs]

theorem State.claim_owned {s : State} {h o : Half} {k : Nat} (hk : k < nObj) (hs : (s.own.token k).st = .owned o) :
    s.claim h k = s.onW fun w => w.ownResult h k (if o = h then 0 else 2) false := by
  simp [State.claim, Nat.not_le.mpr hk, hs]

/-- Two claims of one ORPHAN token in one arbiter cycle (R31): the winner's stands. -/
theorem State.claim_contested {s : State} {h : Half} {k : Nat} (hk : k < nObj) (hs : (s.own.token k).st = .claiming h.other none)
    (hat : (s.own.token k).at_ / 8 = s.w.now / 8) :
    s.claim h k = if s.own.winner = h then
      ((s.claiming k h none).onW fun w => w.claimLost h.other k).onW fun w => w.ownResult h k 1 true
    else s.onW fun w => w.claimLost h k := by
  simp [State.claim, Nat.not_le.mpr hk, hs, hat]

theorem State.claim_late {s : State} {h : Half} {k : Nat} (hk : k < nObj) (hs : (s.own.token k).st = .claiming h.other none)
    (hat : (s.own.token k).at_ / 8 ≠ s.w.now / 8) : s.claim h k = s.onW fun w => w.ownResult h k 2 false := by
  simp [State.claim, Nat.not_le.mpr hk, hs, hat]

theorem Own.winner_eq {o : Own} {h : Half} (hw : o.server = some h ∨ (o.server = none ∧ h = .A)) : o.winner = h := by
  obtain hs | ⟨hs, rfl⟩ := hw <;> simp [Own.winner, hs]

theorem Own.winner_ne {o : Own} {h : Half} (hw : o.server = some h.other ∨ (o.server = none ∧ h = .B)) : o.winner ≠ h := by
  obtain hs | ⟨hs, rfl⟩ := hw <;> simp [Own.winner, hs]

/-- What a claim does to the tokens: to its own one, if at all. -/
theorem State.tokensBut_claim (s : State) (h : Half) (k : Nat) : State.TokensBut [k] s (s.claim h k) := by
  intro j hj
  have hne : j ≠ k := by simpa using hj
  have hclaiming : ∀ d g, (s.claiming k d g).own.token j = s.own.token j := fun d g => by rw [State.token_claiming, if_neg hne]
  unfold State.claim
  split
  · rfl
  · split
    · exact hclaiming _ _
    · rfl
    · split
      · rfl
      · split
        · split
          · exact hclaiming _ _
          · rfl
        · rfl

/-! RELEASE and HANDOVER. -/

theorem State.release_owned {s : State} {h : Half} {k : Nat} (hk : k < nObj) (hs : (s.own.token k).st = .owned h) :
    s.release h k = (s.orphan k h).onW fun w => w.ownResult h k 0 false := by
  simp [State.release, Nat.not_le.mpr hk, Own.owns, hs]

theorem State.release_not_owned {s : State} {h : Half} {k : Nat} (hk : k < nObj) (hs : (s.own.token k).st ≠ .owned h) :
    s.release h k = s.onW fun w => w.ownResult h k 2 false := by
  simp [State.release, Nat.not_le.mpr hk, Own.owns, hs]

theorem State.handover_accepted {s : State} {h : Half} {k : Nat} (hk : k < nObj) (hs : (s.own.token k).st = .owned h)
    (ha : s.own.alive h.other = true) (hacc : s.w.flag h.other F.OWN_CTRL.ACCEPT = true) :
    s.handover h k = ((s.claiming k h.other (some h)).leaves k).onW fun w => w.ownResult h k 1 true := by
  simp [State.handover, Nat.not_le.mpr hk, Own.owns, hs, State.accepts, ha, hacc]

theorem State.handover_not_accepted {s : State} {h : Half} {k : Nat} (hk : k < nObj) (hs : (s.own.token k).st = .owned h)
    (ha : ¬ (s.own.alive h.other = true ∧ s.w.flag h.other F.OWN_CTRL.ACCEPT = true)) :
    s.handover h k = s.onW fun w => w.ownResult h k 4 false := by
  have hno : s.accepts h.other = false := by simpa [State.accepts] using ha
  simp [State.handover, Nat.not_le.mpr hk, Own.owns, hs, hno]

theorem State.handover_not_owned {s : State} {h : Half} {k : Nat} (hk : k < nObj) (hs : (s.own.token k).st ≠ .owned h) :
    s.handover h k = s.onW fun w => w.ownResult h k 2 false := by
  simp [State.handover, Nat.not_le.mpr hk, Own.owns, hs]

/-! Operations on many tokens. -/

/-- What CLAIM_ALL of a list does to every token. -/
theorem State.token_claimAll (s : State) (h : Half) (l : List Nat) (j : Nat) :
    (s.claimAll h l).own.token j =
      if j ∈ l ∧ (s.own.token j).st = .orphan then { s.own.token j with st := .claiming h none, at_ := s.w.now } else s.own.token j := by
  unfold State.claimAll
  extract_lets l'
  have hmem : j ∈ l' ↔ j ∈ l ∧ (s.own.token j).st = .orphan := by simp [l']
  split
  next hnil =>
    have hj : j ∉ l' := by rw [List.isEmpty_iff.mp hnil]; nofun
    rw [if_neg (hmem.not.mp hj)]
    rfl
  next =>
    simp only [← hmem]
    exact State.token_forAll (fun s k => s.claiming k h none) (fun n t => { t with st := .claiming h none, at_ := n })
      (fun s k j => s.token_claiming k j h none) (fun _ _ => rfl) (fun _ _ => rfl) l' s j

theorem State.now_leaves (s : State) (k : Nat) : (s.leaves k).w.now = s.w.now := by
  unfold State.leaves State.when
  split
  · exact (World.copyLost_rest (by decide) (Rest.refl (allBut .now) _)).now (by decide)
  · rfl

/-- What HANDOVER_ALL to a sibling that accepts does to every token. -/
theorem State.token_handoverAll {s : State} {h : Half} (hacc : s.accepts h.other = true) (j : Nat) :
    (s.handoverAll h).own.token j =
      if j ∈ s.own.ownedBy h then { s.own.token j with st := .claiming h.other (some h), at_ := s.w.now } else s.own.token j := by
  unfold State.handoverAll
  rw [hacc]
  simp only [Bool.not_true, Bool.false_eq_true, if_false]
  split
  next hnil =>
    rw [List.isEmpty_iff.mp hnil, if_neg (by nofun)]
    rfl
  next =>
    exact State.token_forAll (fun s k => (s.claiming k h.other (some h)).leaves k)
      (fun n t => { t with st := .claiming h.other (some h), at_ := n })
      (fun s k j => by rw [State.leaves_own, State.token_claiming]) (fun s k => State.now_leaves _ k) (fun _ _ => rfl) _ s j

theorem mem_ownedBy_iff {o : Own} {h : Half} {k : Nat} : k ∈ o.ownedBy h ↔ k < nObj ∧ (o.token k).st = .owned h := by
  simp [Own.ownedBy, Own.owns]

theorem mem_orphans_iff {o : Own} {k : Nat} : k ∈ o.orphans ↔ k < nObj ∧ (o.token k).st = .orphan := by
  simp [Own.orphans]

/-! The takeover (R33). -/

/-- The tokens that a fall of the sibling's line made ORPHAN and that half `h` is claiming. -/
def State.fallClaimed (s : State) (h : Half) : List Nat :=
  (s.own.fallSet.get h.other).filter fun k => (s.own.token k).st = .claiming h none

/-- The end of the takeover, but for its event. -/
def State.takenOver (s : State) (h : Half) : State :=
  (s.forAll (s.fallClaimed h) fun s k => s.owned k h).onOwn fun o => { o with fallSet := o.fallSet.set h.other [] }

theorem State.token_takenOver (s : State) (h : Half) (j : Nat) :
    (s.takenOver h).own.token j =
      if j ∈ s.own.fallSet.get h.other ∧ (s.own.token j).st = .claiming h none then { s.own.token j with st := .owned h, last := some h }
      else s.own.token j := by
  have htok := State.token_forAll (fun s k => s.owned k h) (fun _ t => { t with st := .owned h, last := some h })
    (fun s k j => s.token_owned k j h) (fun _ _ => rfl) (fun _ _ => rfl) (s.fallClaimed h) s j
  refine htok.trans ?_
  simp [State.fallClaimed]

/-! Orphan timers (R30) and owners whose line is low (R27). -/

theorem State.timerDue_iff {s : State} {k : Nat} :
    s.timerDue k = true ↔
      (s.own.token k).st = .orphan ∧ (s.own.token k).expired = false ∧ (s.own.token k).at_ + s.w.rd .A F.OWN_ORPHAN_T.T * 100000000 ≤ s.w.now := by
  simp [State.timerDue, World.orphanT, ms, Nat.mul_assoc, and_assoc]

theorem State.token_expire (s : State) (k j : Nat) :
    (s.expire k).own.token j = if j = k then { s.own.token k with expired := true } else s.own.token j := by
  simp [State.expire, Own.token_setToken]

theorem State.now_expire (s : State) (k : Nat) : (s.expire k).w.now = s.w.now :=
  (State.expire_rest (by decide) (Rest.refl (allBut .now) _)).now (by decide)

/-- What a new ORPHAN_T does to every token: the timers that it has reached expire. -/
theorem State.token_setOrphanT {s : State} {t : Nat} (ht : t < 512) (j : Nat) :
    (s.setOrphanT t).own.token j =
      if j < nObj ∧ (s.own.token j).st = .orphan ∧ (s.own.token j).expired = false ∧ (s.own.token j).at_ + t * 100000000 ≤ s.w.now then
        { s.own.token j with expired := true }
      else s.own.token j := by
  have htok := State.token_forAll State.expire (fun _ x => { x with expired := true }) State.token_expire State.now_expire (fun _ _ => rfl)
    ((List.range nObj).filter (s.onW fun w => w.wrBoth F.OWN_ORPHAN_T.T 0 t).timerDue) (s.onW fun w => w.wrBoth F.OWN_ORPHAN_T.T 0 t) j
  have hrd : (s.w.wrBoth F.OWN_ORPHAN_T.T 0 t).rd .A F.OWN_ORPHAN_T.T = t := by
    rw [World.rd_wrBoth_same _ _ _ _ _ (by decide)]
    exact Nat.mod_eq_of_lt ht
  refine htok.trans ?_
  simp [State.timerDue_iff, hrd]

theorem State.now_orphan (s : State) (k : Nat) (l : Half) : (s.orphan k l).w.now = s.w.now := by
  simp [State.orphan, State.now_leaves]

/-- What the entry of a list of tokens into ORPHAN does to every token. -/
theorem State.token_orphans (s : State) (h : Half) (l : List Nat) (j : Nat) :
    (s.forAll l fun s k => s.orphan k h).own.token j =
      if j ∈ l then { st := .orphan, at_ := s.w.now, expired := false, last := some h } else s.own.token j :=
  State.token_forAll (fun s k => s.orphan k h) (fun n _ => { st := .orphan, at_ := n, expired := false, last := some h })
    (fun s k j => s.token_orphan k j h) (fun s k => s.now_orphan k h) (fun _ _ => rfl) l s j

/-! SERVER. -/

@[simp] theorem State.replayJournal_own (s : State) : s.replayJournal.own = s.own :=
  (State.replayJournal_side (q0 := [.ledger]) (by decide) (Side.refl _ s)).2.1 (by decide)

theorem State.serverReq_granted {s : State} {h : Half} (ha : s.own.alive h = true)
    (hs : s.own.server ≠ some h.other ∨ s.own.alive h.other = false) :
    (s.serverReq h).own.server = some h ∧ ∀ k, (s.serverReq h).own.token k = s.own.token k := by
  unfold State.serverReq State.when
  split
  next => exact ⟨by simp [State.serve], fun k => by simp [State.serve]; rfl⟩
  next hc =>
    have hself : s.own.server = some h := by
      simp only [ha, Bool.true_and, Bool.and_eq_true, Bool.or_eq_true, Bool.not_eq_true', decide_eq_true_eq, not_and, not_not] at hc
      exact hc hs.symm
    exact ⟨hself, fun _ => rfl⟩

end Sys2Proof.Machine
end

section
open Sys2Proof Sys2Proof.Machine

/-- Settles O6: each clause is what the operation of its command does to the tokens, case by case of the token's state. -/
theorem tokensPass : Obligations.tokensPass := by
  unfold Obligations.tokensPass
  refine ⟨?claim, ?claimed, ?handedOver, ?release, ?handover, ?claimAll, ?handoverAll, ?server, ?noServer, ?hardware, ?takeover⟩
  case claim =>
    intro h k s
    refine .of_exec rfl ⟨fun ha => by rw [ha]; rfl, fun ha hk hk' => ?_, fun ha hk => ?_⟩ <;> rw [ha, State.when_true]
    · rw [State.claim_past hk]
      exact ⟨rfl, s.resultIs_onW h k 5 false hk' (by decide)⟩
    · have hk' : k < 512 := hk.trans (by decide)
      refine ⟨s.tokensBut_claim h k, fun hs => ?_, fun hs => ?_, fun hs => ?_, fun hs hat => ⟨fun hw => ?_, fun hw => ?_⟩, fun hs hat => ?_⟩
      · rw [State.claim_orphan hk hs]
        exact ⟨by simp [State.token_claiming], State.resultIs_onW _ h k 1 true hk' (by decide)⟩
      · rw [State.claim_owned hk hs, if_pos rfl]
        exact ⟨rfl, s.resultIs_onW h k 0 false hk' (by decide)⟩
      · rw [State.claim_owned hk hs, if_neg h.other_ne]
        exact ⟨rfl, s.resultIs_onW h k 2 false hk' (by decide)⟩
      · rw [State.claim_contested hk hs hat, if_pos (Own.winner_eq hw)]
        refine ⟨by simp [State.token_claiming], State.resultIs_onW _ h k 1 true hk' (by decide), ?_⟩
        have hlost := (s.claiming k h none).resultIs_claimLost h.other hk'
        simpa using hlost.onW_other (obj' := k) (res' := 1) (b := true)
      · rw [State.claim_contested hk hs hat, if_neg (Own.winner_ne hw)]
        exact ⟨rfl, s.resultIs_claimLost h hk'⟩
      · rw [State.claim_late hk hs hat]
        exact ⟨rfl, s.resultIs_onW h k 2 false hk' (by decide)⟩
  case claimed =>
    intro k d s hs
    have hexec : exec (.claimComplete k) s = .next ((s.owned k d).settle d k) := by
      change execClaimComplete k s = _
      simp [execClaimComplete, hs]
    refine .of_exec hexec ⟨by simp [State.token_owned], fun j hj => ?_⟩
    rw [State.settle_token, State.token_owned, if_neg (by simpa using hj)]
  case handedOver =>
    intro k d g s hs
    refine .of_exec rfl ⟨by simp [hs], fun j hj => ?_⟩
    rw [State.handoverDone_token, hs]
    exact if_neg (by simpa using hj)
  case release =>
    intro h k s ha hk
    have hk' : k < 512 := hk.trans (by decide)
    refine .of_exec rfl ?_
    rw [ha, State.when_true]
    by_cases hs : (s.own.token k).st = .owned h
    · rw [State.release_owned hk hs]
      refine ⟨fun j hj => ?_, fun _ => ⟨by simp [State.token_orphan], State.resultIs_onW _ h k 0 false hk' (by decide)⟩,
        fun hn => absurd hs hn⟩
      rw [State.onW_own, State.token_orphan, if_neg (by simpa using hj)]
    · rw [State.release_not_owned hk hs]
      exact ⟨fun _ _ => rfl, fun hn => absurd hn hs, fun _ => ⟨rfl, s.resultIs_onW h k 2 false hk' (by decide)⟩⟩
  case handover =>
    intro h k s ha hk
    have hk' : k < 512 := hk.trans (by decide)
    refine .of_exec rfl ?_
    rw [ha, State.when_true]
    by_cases hs : (s.own.token k).st = .owned h
    · by_cases hacc : s.own.alive h.other = true ∧ s.w.flag h.other F.OWN_CTRL.ACCEPT = true
      · rw [State.handover_accepted hk hs hacc.1 hacc.2]
        refine ⟨fun j hj => ?_, fun _ _ _ => ⟨by simp [State.token_claiming], State.resultIs_onW _ h k 1 true hk' (by decide)⟩,
          fun _ hn => absurd hacc hn, fun hn => absurd hs hn⟩
        rw [State.onW_own, State.leaves_own, State.token_claiming, if_neg (by simpa using hj)]
      · rw [State.handover_not_accepted hk hs hacc]
        exact ⟨fun _ _ => rfl, fun _ h1 h2 => absurd ⟨h1, h2⟩ hacc, fun _ _ => ⟨rfl, s.resultIs_onW h k 4 false hk' (by decide)⟩,
          fun hn => absurd hs hn⟩
    · rw [State.handover_not_owned hk hs]
      exact ⟨fun _ _ => rfl, fun hn => absurd hn hs, fun hn => absurd hn hs, fun _ => ⟨rfl, s.resultIs_onW h k 2 false hk' (by decide)⟩⟩
  case claimAll =>
    intro h s ha
    refine .of_exec rfl fun k hk => ?_
    simp only [ha, State.when_true, State.token_claimAll, mem_orphans_iff, hk, true_and]
    exact ⟨fun hs => by simp [hs], fun hs => by simp [hs]⟩
  case handoverAll =>
    intro h s ha ha' hacc
    refine .of_exec rfl fun k hk => ?_
    have haccepts : s.accepts h.other = true := by simp [State.accepts, ha', hacc]
    simp only [ha, State.when_true, State.token_handoverAll haccepts, mem_ownedBy_iff, hk, true_and]
    exact ⟨fun hs => by simp [hs], fun hs => by simp [hs]⟩
  case server =>
    intro h s ha hs
    exact .of_exec rfl (State.serverReq_granted ha hs)
  case noServer =>
    intro h s ha ha' hs
    exact .of_exec rfl (by simp [State.serverReq, ha', hs])
  case hardware =>
    intro h s ha ha' hen hne hni hst
    have hexec : exec (.hardwareClaimAll h) s = .next ((s.forAll (s.own.fallSet.get h.other) fun s k => s.claiming k h none).onOwn fun o =>
        { o with hwIssued := o.hwIssued.set h.other true }) := by
      change execHardwareClaimAll h s = _
      have hempty : (s.own.fallSet.get h.other).isEmpty = false := by simpa using hne
      have hall : (s.own.fallSet.get h.other).all (fun k => decide ((s.own.token k).st = .orphan)) = true := by simpa using hst
      simp only [execHardwareClaimAll, ha, ha', hen, hempty, hni, hall, Bool.not_false, Bool.and_self, State.when_true]
    have htok := State.token_forAll (fun s k => s.claiming k h none) (fun n t => { t with st := .claiming h none, at_ := n })
      (fun s k j => s.token_claiming k j h none) (fun _ _ => rfl) (fun _ _ => rfl) (s.own.fallSet.get h.other) s
    exact .of_exec hexec ⟨by simp, fun k hk => (congrArg Token.st (htok k)).trans (by simp [hk]), fun k hk => (htok k).trans (if_neg hk)⟩
  case takeover =>
    intro h s hi hex
    have hexec : exec (.takeoverComplete h) s = .next ((s.takenOver h).onW fun w => (w.raise h 53 (evArg 0xFFFF 0xFF 0)).trkTakeover h) := by
      change execTakeoverComplete h s = _
      have hne : (s.fallClaimed h).isEmpty = false := by
        obtain ⟨k, hk, hs⟩ := hex
        simpa [State.fallClaimed] using ⟨k, hk, hs⟩
      simp only [execTakeoverComplete, hi, Bool.true_and]
      exact congrArg _ (if_pos (by rw [Bool.not_eq_true']; exact hne))
    refine .of_exec hexec ⟨by simp [State.takenOver], fun k => ⟨fun hk hs => ?_, fun hn => ?_⟩⟩ <;> rw [State.onW_own, State.token_takenOver]
    · rw [if_pos ⟨hk, hs⟩]
    · exact if_neg fun hk => hn.elim (fun hn => hn hk.1) fun hn => hn hk.2

/-- Settles O7: an orphan timer expires by `State.expire`, alone or for every timer that a new ORPHAN_T has reached; the tokens of a half
whose line has been low are those it owns, each by `State.orphan`. -/
theorem orphanTimers : Obligations.orphanTimers := by
  unfold Obligations.orphanTimers
  refine ⟨?expires, ?early, ?written, ?outOfRange, ?ownerLow⟩
  case expires =>
    intro k s hs he hat
    have hdue : s.timerDue k = true := State.timerDue_iff.mpr ⟨hs, he, hat⟩
    refine .of_exec rfl ?_
    rw [hdue, State.when_true]
    refine ⟨by simp [State.token_expire], fun j hj => ?_⟩
    rw [State.token_expire, if_neg (by simpa using hj)]
  case early =>
    intro k s hnow
    have hdue : s.timerDue k = false := by
      rw [Bool.eq_false_iff]
      exact fun hd => absurd (State.timerDue_iff.mp hd).2.2 (Nat.not_le.mpr hnow)
    refine .of_exec rfl ?_
    rw [hdue, State.when_false]
  case written =>
    intro h init v s ha hopen h2 h300
    have hbits : bitsOf v 0 9 = v := by simp [bitsOf]; omega
    have hexec : exec (.orphanTWrite h init v) s = .next (s.setOrphanT v) := by
      change execOrphanTWrite h init v s = _
      simp [execOrphanTWrite, hbits, ha, hopen, h2, h300]
    refine .of_exec hexec ⟨fun k => ?_, fun k hk hs hat => ?_⟩ <;> rw [State.token_setOrphanT (by omega)]
    · split <;> rfl
    · by_cases he : (s.own.token k).expired = true
      · split
        · rfl
        · exact he
      · rw [if_pos ⟨hk, hs, Bool.eq_false_iff.mpr he, hat⟩]
  case outOfRange =>
    intro h init v s hv
    refine .of_exec rfl ?_
    have hno : (s.own.alive h && s.w.flag h F.OWN_LOCK.OPEN && decide (2 ≤ bitsOf v 0 9) && decide (bitsOf v 0 9 ≤ 300)) = false := by
      rw [Bool.eq_false_iff]
      intro hc
      simp only [Bool.and_eq_true, decide_eq_true_eq] at hc
      omega
    exact congrArg (fun b => s.when b _) hno
  case ownerLow =>
    intro h s ha hat
    have hdue : (!s.own.alive h && decide (s.own.fellAt.get h + 20 * us ≤ s.w.now)) = true := by
      rw [ha, Bool.not_false, Bool.true_and]
      exact decide_eq_true hat
    refine .of_exec rfl fun k hk => ?_
    rw [hdue, State.when_true, State.token_orphans]
    exact ⟨fun hs => if_pos (mem_ownedBy_iff.mpr ⟨hk, hs⟩), fun hs => if_neg fun hc => hs (mem_ownedBy_iff.mp hc).2⟩

end

section
/-!
SUPPORT. R25–R27, R32: what a fall of an alive line does to the line, to SERVER and to the tokens that are passing to the half.
-/
namespace Sys2Proof.Machine

/-- What each repetition of a change leaves as it is, the whole leaves as it is. -/
theorem State.forAll_keeps {α β : Type} (g : State → β) {f : State → α → State} (hf : ∀ u a, g (f u a) = g u) (l : List α) (s : State) :
    g (s.forAll l f) = g s := by
  unfold State.forAll
  induction l generalizing s with
  | nil => rfl
  | cons a l ih => exact (ih (f s a)).trans (hf s a)

theorem State.when_keeps {β : Type} (g : State → β) {f : State → State} {c : Bool} {s : State} (hf : g (f s) = g s) : g (s.when c f) = g s := by
  unfold State.when
  split
  · exact hf
  · rfl

@[simp] theorem State.orphan_low (s : State) (k : Nat) (l : Half) : (s.orphan k l).own.low = s.own.low := by simp [State.orphan, Own.toOrphan]
@[simp] theorem State.orphan_server (s : State) (k : Nat) (l : Half) : (s.orphan k l).own.server = s.own.server := by
  simp [State.orphan, Own.toOrphan]

theorem Low.alive_put (l : Low) (c : LowCause) : (l.put c true).alive = false := by cases c <;> simp [Low.put, Low.alive]

theorem State.fallen_low (s : State) (h : Half) : (s.fallen h).own.low = s.own.low := by
  unfold State.fallen
  extract_lets toward set u given v w
  have hv : v.own.low = s.own.low := State.forAll_keeps (·.own.low) (fun u k => u.orphan_low k h) toward u
  have hw : w.own.low = v.own.low := State.when_keeps (·.own.low) rfl
  exact hw.trans hv

/-- A half whose line falls does not serve (R32). -/
theorem State.fallen_server (s : State) (h : Half) : (s.fallen h).own.server = if s.own.server = some h then none else s.own.server := by
  unfold State.fallen
  extract_lets toward set u given v w
  have hv : v.own.server = u.own.server := State.forAll_keeps (·.own.server) (fun u k => u.orphan_server k h) toward u
  have hw : w.own.server = v.own.server := State.when_keeps (·.own.server) rfl
  exact hw.trans hv

/-- The tokens that pass to a half whose line falls become ORPHAN (R27). -/
theorem State.token_fallen (s : State) (h : Half) (j : Nat) :
    (s.fallen h).own.token j =
      if j ∈ s.own.toward h then { st := .orphan, at_ := s.w.now, expired := false, last := some h } else s.own.token j := by
  unfold State.fallen
  extract_lets toward set u given v w
  have hv := State.token_orphans u h toward j
  have hu : ∀ k, u.own.token k = s.own.token k := fun _ => rfl
  have hnow : u.w.now = s.w.now := rfl
  have hw : w.own.token j = v.own.token j := State.when_keeps (fun s => s.own.token j) rfl
  rw [State.onW_own, hw, hv, hu, hnow]

theorem mem_toward_iff {o : Own} {h : Half} {k : Nat} : k ∈ o.toward h ↔ k < nObj ∧ ∃ g, (o.token k).st = .claiming h g := by
  rw [Own.toward, mem_objsWhere]
  refine and_congr_right fun _ => ?_
  cases (o.token k).st with
  | orphan | owned => simp
  | claiming d g => simp

/-! The fall. -/

theorem State.fall_low (s : State) (h : Half) (c : LowCause) : (s.fall h c).own.low = s.own.low.set h ((s.own.low.get h).put c true) := by
  unfold State.fall
  extract_lets was u
  exact State.when_keeps (·.own.low) (u.fallen_low h)

theorem State.alive_fall (s : State) (h : Half) (c : LowCause) : (s.fall h c).own.alive h = false := by
  rw [Own.alive, State.fall_low, Two.get_set_same, Low.alive_put]

/-- A second cause on a line that is low changes nothing but the line. -/
theorem State.fall_of_low {s : State} {h : Half} (c : LowCause) (ha : s.own.alive h = false) :
    s.fall h c = s.onOwn fun o => { o with low := o.low.set h ((o.low.get h).put c true) } := by
  simp [State.fall, ha]

theorem State.fall_server {s : State} {h : Half} (c : LowCause) (ha : s.own.alive h = true) : (s.fall h c).own.server ≠ some h := by
  unfold State.fall
  rw [ha, State.when_true, State.fallen_server]
  split
  · nofun
  · assumption

theorem State.token_fall {s : State} {h : Half} (c : LowCause) (ha : s.own.alive h = true) {k : Nat} {g : Option Half} (hk : k < nObj)
    (hs : (s.own.token k).st = .claiming h g) :
    (s.fall h c).own.token k = { st := .orphan, at_ := s.w.now, expired := false, last := some h } := by
  unfold State.fall
  rw [ha, State.when_true, State.token_fallen]
  exact if_pos (mem_toward_iff.mpr ⟨hk, g, hs⟩)

/-! Reset and fence. -/

/-- A half held in reset: its line is low, and of the tokens and SERVER only a line that was high makes a difference. -/
theorem State.hold_of_low {s : State} {h : Half} (cause : Nat) (ha : s.own.alive h = false) :
    s.hold h cause =
      (s.onW fun w => { w with run := w.run.upd h fun r => { r with running := false, cause := cause } }).onOwn fun o =>
        { o with low := o.low.set h ((o.low.get h).put .reset true) } := by
  unfold State.hold
  exact State.fall_of_low _ ha

theorem State.fence_fenced (s : State) (h : Half) : ((s.fence h).own.low.get h).fenced = true ∧ (s.fence h).own.alive h = false := by
  refine ⟨?_, State.alive_fall _ _ _⟩
  rw [State.fence, State.fall_low, Two.get_set_same]
  rfl

/-- A fall command leaves the arbiter, but for the line, as the fall left it. -/
theorem exec_aliveLineFall (h : Half) (c : LowCause) (s : State) :
    ∃ t, exec (.aliveLineFall h c) s = .next t ∧ t.own.alive h = false ∧ t.own.server = (s.fall h c).own.server ∧
      ∀ k, t.own.token k = (s.fall h c).own.token k := by
  have halive := s.alive_fall h c
  have hheld : ∀ cause, ((s.fall h c).hold h cause).own.alive h = false ∧ ((s.fall h c).hold h cause).own.server = (s.fall h c).own.server ∧
      ∀ k, ((s.fall h c).hold h cause).own.token k = (s.fall h c).own.token k := by
    intro cause
    rw [State.hold_of_low cause halive]
    refine ⟨?_, rfl, fun _ => rfl⟩
    simp [Own.alive, Low.alive_put]
  refine ⟨_, rfl, ?_⟩
  cases c with
  | fence => exact ⟨halive, rfl, fun _ => rfl⟩
  | wiring => exact ⟨halive, rfl, fun _ => rfl⟩
  | detect | supply | reset | watchdog => exact hheld _

theorem getElem?_listSet_same {α : Type} {l : List α} {p : Nat} (x : α) (hp : p < l.length) : (listSet l p x)[p]? = some x := by
  induction l generalizing p with
  | nil => nomatch hp
  | cons y l ih =>
    cases p with
    | zero => rfl
    | succ p => exact ih (Nat.lt_of_succ_lt_succ hp)

end Sys2Proof.Machine
end

section
open Sys2Proof Sys2Proof.Machine

/-- Settles O8: each cause pulls the line low through one fall of the half; the permit counts what a command writes in it. -/
theorem aliveLines : Obligations.aliveLines := by
  unfold Obligations.aliveLines
  refine ⟨?falls, ?rises, ?lapses, ?pairLapses, ?steward, ?withheld, ?refresh, ?join, ?selfFence⟩
  case falls =>
    intro h c s
    obtain ⟨t, ht, halive, hserver, htok⟩ := exec_aliveLineFall h c s
    refine ⟨t, ht, halive, fun ha => hserver ▸ State.fall_server c ha, fun ha k hk hs => (htok k).trans ?_⟩
    obtain hs | hs := hs <;> exact State.token_fall c ha hk hs
  case rises =>
    intro h s hl
    refine .of_exec rfl ?_
    simp [Own.alive, hl, Low.put, Low.alive, State.when]
  case lapses =>
    intro h s hrun ha hgreen hat
    refine .of_exec rfl ?_
    have hl : (s.w.run.get h).lapsed s.w.now = true := by simp [Run.lapsed, hgreen, us, hat]
    simp only [hrun, ha, hl, Bool.and_self, State.when_true]
    exact s.fence_fenced h
  case pairLapses =>
    intro h s hrun ha hjoined hat
    refine .of_exec rfl ?_
    have hl : (s.w.run.get h).lapsed s.w.now = true := by
      obtain ⟨a, ha, hat⟩ := hat
      have hany : (s.w.run.get h).rtAt.any (fun t => decide (t + 300 * us ≤ s.w.now)) = true :=
        List.any_eq_true.mpr ⟨a, ha, decide_eq_true hat⟩
      simp only [Run.lapsed, Run.joined, hjoined, hany, List.all_cons, List.all_nil, id, Bool.and_self, Bool.or_true]
    simp only [hrun, ha, hl, Bool.and_self, State.when_true]
    exact s.fence_fenced h
  case steward =>
    intro h s hrun hm
    refine .of_exec rfl ?_
    simp [hrun, hm]
  case withheld =>
    intro h s hm
    refine .of_exec rfl ?_
    simp [hm]
  case refresh =>
    intro h p s hrun hp hat hj
    refine .of_exec rfl ?_
    simp [hrun, hp, getElem?_listSet_same _ (hat.symm ▸ hp), getElem?_listSet_same _ (hj.symm ▸ hp)]
  case join =>
    intro h s hrun ha hj hat
    refine .of_exec rfl ?_
    have hl : (s.w.run.get h).joined = false := by
      obtain ⟨j, hj, rfl⟩ := hj
      simpa [Run.joined] using hj
    simp only [hrun, ha, hl, sec, hat, Bool.not_false, decide_true, Bool.and_self, State.when_true]
    exact s.fence_fenced h
  case selfFence =>
    intro h s hrun hl
    have hlow : s.own.alive h = false := by simp [Own.alive, hl, Low.alive]
    refine .of_exec rfl ?_
    rw [hrun, hl]
    simp only [Low.alive, Bool.or_self, Bool.not_false, Bool.and_self, State.when_true]
    rw [State.hold_of_low (s := (s.onW _).onW _) 8 hlow]
    simp [Low.put]

end

section
/-!
SUPPORT. How registers read through the shared operations, and what the frame of a command says of a statement's clauses.
-/
namespace Sys2Proof.Machine

/-! Reads. -/

/-- A change of hidden state changes no register. -/
@[simp] theorem World.reg_hidden (w : World) (now fresh run evt xng roast bp devId act shut frame svc tim set opt vlv lsw uin yld cal dram pose
    grd trk gns keeper can flx upd pwr dsp latch) (h : Half) (f : Field) (i : Nat) :
    World.reg ⟨now, fresh, w.regs, w.bregs, run, evt, xng, roast, bp, devId, act, shut, frame, svc, tim, set, opt, vlv, lsw, uin, yld, cal,
      dram, pose, grd, trk, gns, keeper, can, flx, upd, pwr, dsp, latch⟩ h f i = w.reg h f i := (rfl)

@[simp] theorem World.rd_hidden (w : World) (now fresh run evt xng roast bp devId act shut frame svc tim set opt vlv lsw uin yld cal dram pose
    grd trk gns keeper can flx upd pwr dsp latch) (h : Half) (f : Field) (i : Nat) :
    World.rd ⟨now, fresh, w.regs, w.bregs, run, evt, xng, roast, bp, devId, act, shut, frame, svc, tim, set, opt, vlv, lsw, uin, yld, cal,
      dram, pose, grd, trk, gns, keeper, can, flx, upd, pwr, dsp, latch⟩ h f i = w.rd h f i := (rfl)

theorem World.rd_when (w : World) (c : Bool) (f : World → World) (h : Half) (g : Field) (i : Nat) :
    (w.when c f).rd h g i = if c then (f w).rd h g i else w.rd h g i := by
  unfold World.when
  split <;> rfl

theorem World.apply_when {β : Type} (g : World → β) (w : World) (c : Bool) (f : World → World) :
    g (w.when c f) = if c then g (f w) else g w := by
  unfold World.when
  split <;> rfl

/-- A field of one bit holds 0 or 1. -/
theorem World.rd_bit (w : World) (h : Half) (f : Field) (i : Nat) (hf : f.w = 1) : w.rd h f i = 0 ∨ w.rd h f i = 1 := by
  have hlt := w.rd_lt h f i
  rw [hf] at hlt
  omega

theorem World.flag_eq_true_iff {w : World} {h : Half} {f : Field} {i : Nat} : w.flag h f i = true ↔ w.rd h f i = 1 := by simp [World.flag]

theorem World.flag_eq_false_iff {w : World} {h : Half} {f : Field} {i : Nat} (hf : f.w = 1) : w.flag h f i = false ↔ w.rd h f i = 0 := by
  have hbit := w.rd_bit h f i hf
  simp only [World.flag, decide_eq_false_iff_not]
  omega

@[simp] theorem b2n_mod_two (b : Bool) : b2n b % 2 = b2n b := by cases b <;> rfl

theorem toTwos_lt (n : Nat) (v : Int) : toTwos n v < 2 ^ n := by
  have hpos : (0 : Int) < 2 ^ n := by positivity
  have hlt := Int.emod_lt_of_pos v hpos
  have hnn := Int.emod_nonneg v hpos.ne'
  have hcast : ((toTwos n v : Nat) : Int) < ((2 ^ n : Nat) : Int) := by
    rw [toTwos, Int.toNat_of_nonneg hnn]
    exact_mod_cast hlt
  exact_mod_cast hcast

theorem World.rd_wrI_same (w : World) (h : Half) (f : Field) (i : Nat) (v : Int) (hf : f.lo + f.w ≤ 32) :
    (w.wrI h f i v).rd h f i = toTwos f.w v := by
  rw [World.wrI, World.rd_wr_same _ _ _ _ _ hf, Nat.mod_eq_of_lt (toTwos_lt _ _)]

theorem bitOf_eq_testBit (v i : Nat) : bitOf v i = v.testBit i := by rw [Nat.testBit_eq_decide_div_mod_eq, bitOf]

/-- A bit set in a field is set when the field is read. -/
theorem bitOf_or_pow (v : Nat) {k n : Nat} (hk : k < n) : bitOf ((v ||| 2 ^ k) % 2 ^ n) k = true := by
  simp [bitOf_eq_testBit, Nat.testBit_mod_two_pow, hk]

theorem bitOf_mod_pow (v n j : Nat) : bitOf (v % 2 ^ n) j = (j < n && bitOf v j) := by
  rw [bitOf_eq_testBit, bitOf_eq_testBit, Nat.testBit_mod_two_pow]

theorem testBit_split (v k j : Nat) : v.testBit j = if j < k then (v % 2 ^ k).testBit j else (v / 2 ^ k).testBit (j - k) := by
  conv_lhs => rw [← Nat.div_add_mod v (2 ^ k)]
  exact Nat.testBit_two_pow_mul_add _ (Nat.mod_lt _ (by positivity)) j

/-- A bit that is set, taken away; the others stay. -/
theorem bitOf_sub_pow {v k : Nat} (hk : bitOf v k = true) (j : Nat) : bitOf (v - 2 ^ k) j = (bitOf v j && j ≠ k) := by
  have hpos : 0 < 2 ^ k := by positivity
  have hodd : v / 2 ^ k % 2 = 1 := by simpa [bitOf] using hk
  have hdiv : (v - 2 ^ k) / 2 ^ k = v / 2 ^ k - 1 := by simpa using Nat.sub_mul_div v (2 ^ k) 1
  have hle : 2 ^ k ≤ v := by
    by_contra hlt
    rw [Nat.div_eq_of_lt (by omega)] at hodd
    omega
  have hmod : (v - 2 ^ k) % 2 ^ k = v % 2 ^ k := (Nat.mod_eq_sub_mod hle).symm
  rw [bitOf_eq_testBit, bitOf_eq_testBit, testBit_split _ k, testBit_split v k, hdiv, hmod]
  obtain hj | rfl | hj := Nat.lt_trichotomy j k
  · simp [hj, hj.ne]
  · simp [Nat.testBit_zero]
    omega
  · obtain ⟨i, rfl⟩ := Nat.exists_eq_add_of_lt hj
    have hi : k + i + 1 - k = i + 1 := by omega
    have hhalf : (v / 2 ^ k - 1) / 2 = v / 2 ^ k / 2 := by generalize v / 2 ^ k = q at hodd; omega
    simp [hi, Nat.testBit_succ, hhalf, show ¬ k + i + 1 < k by omega, show k + i + 1 ≠ k by omega]

/-- A bit that is clear, set; the others stay. -/
theorem bitOf_add_pow {v k : Nat} (hk : bitOf v k = false) (j : Nat) : bitOf (v + 2 ^ k) j = (bitOf v j || j = k) := by
  have hpos : 0 < 2 ^ k := by positivity
  have heven : v / 2 ^ k % 2 ≠ 1 := by simpa [bitOf] using hk
  have hdiv : (v + 2 ^ k) / 2 ^ k = v / 2 ^ k + 1 := Nat.add_div_right v hpos
  rw [bitOf_eq_testBit, bitOf_eq_testBit, testBit_split _ k, testBit_split v k, hdiv, Nat.add_mod_right]
  obtain hj | rfl | hj := Nat.lt_trichotomy j k
  · simp [hj, hj.ne]
  · simp [Nat.testBit_zero]
    omega
  · obtain ⟨i, rfl⟩ := Nat.exists_eq_add_of_lt hj
    have hi : k + i + 1 - k = i + 1 := by omega
    have hhalf : (v / 2 ^ k + 1) / 2 = v / 2 ^ k / 2 := by generalize v / 2 ^ k = q at heven; omega
    simp [hi, Nat.testBit_succ, hhalf, show ¬ k + i + 1 < k by omega, show k + i + 1 ≠ k by omega]

/-! Operations over a list. -/

theorem World.forAll_keeps {α β : Type} (g : World → β) {f : World → α → World} (hf : ∀ u a, g (f u a) = g u) (l : List α) (w : World) :
    g (w.forAll l f) = g w := by
  unfold World.forAll
  induction l generalizing w with
  | nil => rfl
  | cons a l ih => exact (ih (f w a)).trans (hf w a)

/-- An operation that changes one place, over a list of different places: each place of the list changes once, the others stay. -/
theorem World.forAll_at {α β κ : Type} (v : World → κ → β) (key : α → κ) (g : β → α → β) {f : World → α → World}
    (hown : ∀ u a, v (f u a) (key a) = g (v u (key a)) a) (hoth : ∀ u a j, j ≠ key a → v (f u a) j = v u j) {l : List α}
    (hnd : (l.map key).Nodup) (w : World) :
    (∀ a ∈ l, v (w.forAll l f) (key a) = g (v w (key a)) a) ∧ ∀ j ∉ l.map key, v (w.forAll l f) j = v w j := by
  unfold World.forAll
  induction l generalizing w with
  | nil => exact ⟨nofun, fun _ _ => rfl⟩
  | cons b l ih =>
    obtain ⟨hb, hl⟩ := List.nodup_cons.mp hnd
    obtain ⟨hin, hout⟩ := ih hl (f w b)
    refine ⟨fun a ha => ?_, fun j hj => ?_⟩
    · obtain rfl | ha := List.mem_cons.mp ha
      · exact (hout _ hb).trans (hown w a)
      · have hne : key a ≠ key b := fun hk => hb (hk ▸ List.mem_map_of_mem ha)
        exact (hin a ha).trans (by rw [hoth w b _ hne])
    · simp only [List.map_cons, List.mem_cons, not_or] at hj
      obtain ⟨hjb, hjl⟩ := hj
      exact (hout j hjl).trans (hoth w b j hjb)

/-! The frame of a command in a statement's clauses. -/

theorem exec_frame {c : Instr} {s t : State} (ht : exec c s = .next t) : Side (footprint c) t s ∧ Rest (footprint c) t.w s.w := by
  obtain ⟨u, hu, hp⟩ := (exec_keeps_footprint c s).completes
  obtain rfl : u = t := by rw [hu] at ht; injection ht
  exact hp

/-- A command whose footprint names neither tokens, Ledger nor boundaries leaves them, and the queue, as they were. -/
theorem exec_quiet {c : Instr} {s t : State} (ht : exec c s = .next t)
    (hq : (!partIn (footprint c) .own && !partIn (footprint c) .ledger && !partIn (footprint c) .bus) = true) : s.Quiet t := by
  obtain ⟨⟨hpending, hown, hledger, hbus⟩, -⟩ := exec_frame ht
  simp only [Bool.and_eq_true, Bool.not_eq_true'] at hq
  exact ⟨hown hq.1.1, hledger hq.1.2, hbus hq.2, hpending⟩

/-- The registers of a list of parts lie among `ks`. -/
def regsIn (ks : List Nat) (q : List Part) : Bool :=
  q.all fun x => match x with
    | .reg n => ks.contains n
    | .regs => false
    | _ => true

theorem Rest.regsBut {q : List Part} {w v : World} {ks : List Nat} (e : Rest q w v) (hks : regsIn ks q = true) : World.RegsBut ks v w := by
  intro h f i hf hn
  refine e.reg h f i ?_
  have hall := List.all_eq_true.mp hks
  have hregs : q.contains .regs = false := by
    rw [Bool.eq_false_iff]
    intro hc
    exact nomatch hall .regs (by simpa using hc)
  have hreg : q.contains (.reg f.reg) = false := by
    rw [Bool.eq_false_iff]
    intro hc
    exact hn (by simpa using hall (.reg f.reg) (by simpa using hc))
  simp only [partIn, hregs, hreg, Bool.false_and, Bool.or_false, Bool.not_false, Bool.true_and, decide_eq_true hf]

/-- A command changes no register but those of its footprint. -/
theorem exec_regsBut {c : Instr} {s t : State} {ks : List Nat} (ht : exec c s = .next t) (hks : regsIn ks (footprint c) = true) :
    World.RegsBut ks s.w t.w := (exec_frame ht).2.regsBut hks

/-- A field of a register that is none of `ks`. -/
def outside (ks : List Nat) (f : Field) : Bool := decide (f.reg < 2 ^ 25) && !ks.contains f.reg

theorem Rest.rd_outside {q : List Part} {w v : World} {ks : List Nat} (e : Rest q w v) (hks : regsIn ks q = true) {f : Field}
    (hf : outside ks f = true) (h : Half) (i : Nat) : w.rd h f i = v.rd h f i := by
  simp only [outside, Bool.and_eq_true, decide_eq_true_eq, Bool.not_eq_true', List.contains_eq_mem, decide_eq_false_iff_not] at hf
  rw [World.rd, World.rd, e.regsBut hks h f i hf.1 hf.2]

end Sys2Proof.Machine
end

section
/-!
SUPPORT. R35–R42, R590: lanes, frames, heartbeat and control of the Crossing.
-/
namespace Sys2Proof.Machine

/-- What the drop of a frame whose CRC fails does (R36). -/
def World.crossingCrc (w : World) (h : Half) (ty seq : Nat) : World :=
  let x := w.xng.get h
  let k := w.now / ms
  let n := if x.crcMs = k then x.crcInMs + 1 else 1
  let w := (w.bump h F.XNG_ERR_CNT.CRC).updXng h fun x => { x with
    crcMs := k, crcInMs := n, asked := if 3 ≤ ty && !x.asked.contains (ty, seq) then x.asked ++ [(ty, seq)] else x.asked }
  w.when (n = 17) fun w => w.raise h 46 (evArg 0xFFFF 0xFF 0)

/-! The endpoint of a half. -/

@[simp] theorem World.rd_updXng (w : World) (h g : Half) (u : Xng → Xng) (f : Field) (i : Nat) : (w.updXng h u).rd g f i = w.rd g f i := (rfl)
@[simp] theorem World.xng_updXng (w : World) (h : Half) (u : Xng → Xng) : (w.updXng h u).xng = w.xng.upd h u := (rfl)
@[simp] theorem World.now_updXng (w : World) (h : Half) (u : Xng → Xng) : (w.updXng h u).now = w.now := (rfl)
@[simp] theorem World.run_updXng (w : World) (h : Half) (u : Xng → Xng) : (w.updXng h u).run = w.run := (rfl)
@[simp] theorem World.rd_xngSent (w : World) (h g : Half) (ty len : Nat) (f : Field) (i : Nat) : (w.xngSent h ty len).rd g f i = w.rd g f i := (rfl)
@[simp] theorem World.rd_xngGot (w : World) (h g : Half) (len : Nat) (f : Field) (i : Nat) : (w.xngGot h len).rd g f i = w.rd g f i := (rfl)

/-! Reads through what follows a change of the Crossing. -/

/-- The engines show in EVT_STATUS and GNS_STATUS alone (R371, R482). -/
theorem World.rd_engines (w : World) (own : Own) (h : Half) (f : Field) (i : Nat)
    (hf : outside [F.EVT_STATUS.LOST.reg, F.GNS_STATUS.BB_SINGLE.reg] f = true) : (w.engines own).rd h f i = w.rd h f i :=
  (World.engines_rest (by decide) (Rest.refl [.evt, .reg F.EVT_STATUS.LOST.reg, .reg F.GNS_STATUS.BB_SINGLE.reg] w)).rd_outside (by decide) hf h i

@[simp] theorem World.engines_xng (w : World) (own : Own) : (w.engines own).xng = w.xng :=
  (World.engines_rest (q0 := allBut .xng) (by decide) (Rest.refl _ w)).xng (by decide)

theorem World.rd_trkSplit (w : World) (g h : Half) (f : Field) (i : Nat)
    (hf : outside [F.EVT_STATUS.LOST.reg, F.TRK_STATUS.SPLIT.reg] f = true) : (w.trkSplit g).rd h f i = w.rd h f i :=
  (World.trkSplit_rest (by decide) (Rest.refl [.evt, .trk, .reg F.EVT_STATUS.LOST.reg, .reg F.TRK_STATUS.SPLIT.reg] w)).rd_outside (by decide) hf h i

@[simp] theorem World.trkSplit_xng (w : World) (h : Half) : (w.trkSplit h).xng = w.xng :=
  (World.trkSplit_rest (q0 := allBut .xng) (by decide) (Rest.refl _ w)).xng (by decide)

/-- The registers in which the track store shows (R335, R348). -/
def trkRegs : List Nat := [F.EVT_STATUS.LOST.reg, F.TRK_STATUS.SPLIT.reg, F.TRK_STOP.CLASS_D.reg, F.TRK_STOP_CFG.D_STOP.reg, F.TRK_CYCLE.VALUE.reg,
  F.TRK_BUF.VALUE.reg]

theorem World.rd_trkJoin (w : World) (g h : Half) (f : Field) (i : Nat) (hf : outside trkRegs f = true) : (w.trkJoin g).rd h f i = w.rd h f i :=
  (World.trkJoin_rest (by decide) (Rest.refl ([.evt, .dram, .trk] ++ trkRegs.map .reg) w)).rd_outside (by decide) hf h i

@[simp] theorem World.trkJoin_xng (w : World) (h : Half) : (w.trkJoin h).xng = w.xng :=
  (World.trkJoin_rest (by decide) (Rest.refl (allBut .xng) w)).xng (by decide)

/-- The loss of TSYNC_OK shows in that flag and EVT_STATUS alone. -/
theorem World.rd_tsyncLost (w : World) (h g : Half) (f : Field) (i : Nat)
    (hf : (fieldsApart F.XNG_STATUS.TSYNC_OK f && (decide (f.reg < 2 ^ 25) && decide (f.reg ≠ 0x100018))) = true) :
    (w.tsyncLost h).rd g f i = w.rd g f i := by
  obtain ⟨hapart, hraise⟩ := Bool.and_eq_true_iff.mp hf
  rw [World.tsyncLost, World.rd_updXng, World.rd_when, World.rd_raise _ _ _ _ _ _ _ hraise, World.rd_wr_apart _ _ _ _ _ _ _ _ hapart, ite_self]

/-- When the Crossing leaves UP, UP and TSYNC_OK clear, and the engines follow (R35, R44). -/
theorem State.rd_xngDown (s : State) (h g : Half) (f : Field) (i : Nat) (hup : fieldsApart F.XNG_STATUS.UP f = true)
    (htsync : fieldsApart F.XNG_STATUS.TSYNC_OK f = true) (hout : outside [F.EVT_STATUS.LOST.reg, F.GNS_STATUS.BB_SINGLE.reg] f = true) :
    (s.xngDown h).w.rd g f i = s.w.rd g f i := by
  unfold State.xngDown State.when
  split
  · rw [State.onW_w, State.onW_w, World.rd_engines _ _ _ _ _ hout, World.rd_tsyncLost, World.rd_wr_apart _ _ _ _ _ _ _ _ hup]
    simp only [outside, Bool.and_eq_true, decide_eq_true_eq, Bool.not_eq_true', List.contains_eq_mem, decide_eq_false_iff_not, List.mem_cons,
      not_or] at hout
    simp only [htsync, decide_eq_true hout.1, decide_eq_true hout.2.1, Bool.and_self]
  · rfl

theorem State.rd_xngDown_up (s : State) (h : Half) (hl : s.w.lanesUp h = false) : (s.xngDown h).w.rd h F.XNG_STATUS.UP = 0 := by
  unfold State.xngDown
  cases hup : s.w.flag h F.XNG_STATUS.UP with
  | false => simpa [hup] using (World.flag_eq_false_iff rfl).mp hup
  | true =>
    rw [hl, Bool.not_false, Bool.and_self, State.when_true, State.onW_w, State.onW_w, World.rd_engines _ _ _ _ _ (by decide),
      World.rd_tsyncLost _ _ _ _ _ (by decide), World.rd_wr_same _ _ _ _ _ (by decide)]
    rfl

theorem World.lanesUp_of_tx {w : World} {h : Half} (h0 : w.rd h F.XNG_STATUS.LANE_TX = 0) : w.lanesUp h = false := by simp [World.lanesUp, h0]

/-- A lane that changes: its bit holds what was seen, the other lane's bit and the other direction stay (R35). -/
theorem World.rd_laneSet_tx (w : World) (h : Half) {l : Nat} (up : Bool) (hl : l < 2) :
    bitOf ((w.laneSet h l 0 up).rd h F.XNG_STATUS.LANE_TX) l = up ∧
      bitOf ((w.laneSet h l 0 up).rd h F.XNG_STATUS.LANE_TX) (1 - l) = bitOf (w.rd h F.XNG_STATUS.LANE_TX) (1 - l) ∧
      (w.laneSet h l 0 up).rd h F.XNG_STATUS.LANE_RX = w.rd h F.XNG_STATUS.LANE_RX := by
  have hv : w.rd h F.XNG_STATUS.LANE_TX < 4 := w.rd_lt h _ 0
  unfold World.laneSet
  simp only [laneField, if_true]
  split
  next hb => exact ⟨hb, rfl, rfl⟩
  next hb =>
    rw [World.rd_raise _ _ _ _ _ _ _ (by decide), World.rd_raise _ _ _ _ _ _ _ (by decide), World.rd_wr_same _ _ _ _ _ (by decide),
      World.rd_wr_apart _ _ _ _ _ _ _ _ (by decide)]
    generalize w.rd h F.XNG_STATUS.LANE_TX = v at hv hb ⊢
    have hbits : ∀ v < 4, ∀ l < 2, ∀ up, ¬ bitOf v l = up →
        bitOf ((if up then v + 2 ^ l else v - 2 ^ l) % 2 ^ F.XNG_STATUS.LANE_TX.w) l = up ∧
          bitOf ((if up then v + 2 ^ l else v - 2 ^ l) % 2 ^ F.XNG_STATUS.LANE_TX.w) (1 - l) = bitOf v (1 - l) := by decide
    exact ⟨(hbits v hv l hl up hb).1, (hbits v hv l hl up hb).2, rfl⟩

theorem State.allLanesDown_own (s : State) : s.allLanesDown.own = s.own :=
  (State.allLanesDown_side (q0 := []) (by decide) (Side.refl _ s)).2.1 rfl

theorem State.allLanesDown_ledger (s : State) : s.allLanesDown.ledger = s.ledger :=
  (State.allLanesDown_side (q0 := []) (by decide) (Side.refl _ s)).2.2.1 rfl

/-- Lanes that go down show in XNG_STATUS, EVT_STATUS and GNS_STATUS alone. -/
theorem State.rd_allLanesDown (s : State) (h : Half) (f : Field) (i : Nat)
    (hf : outside [F.EVT_STATUS.LOST.reg, F.XNG_STATUS.UP.reg, F.GNS_STATUS.BB_SINGLE.reg] f = true) :
    s.allLanesDown.w.rd h f i = s.w.rd h f i :=
  (State.allLanesDown_rest (by decide)
    (Rest.refl [.evt, .xng, .reg F.EVT_STATUS.LOST.reg, .reg F.XNG_STATUS.UP.reg, .reg F.GNS_STATUS.BB_SINGLE.reg] s.w)).rd_outside (by decide) hf h i

end Sys2Proof.Machine
end

section
open Sys2Proof Sys2Proof.Machine

/-- Settles O12: each clause from what its command leaves, read through the engines and the track store that follow it. -/
theorem crossingCarries : Obligations.crossingCarries := by
  unfold Obligations.crossingCarries
  refine ⟨?lane, ?badFrame, ?goodFrame, ?resend, ?enable, ?enableLocked, ?loopback, ?loopbackOutside, ?clear, ?send, ?sendLow, ?receive,
    ?window, ?suspended, ?loss, ?up⟩
  case lane =>
    intro h l up s hrun hl
    have hexec : exec (.crossingLaneChange h l 0 up) s = .next ((s.onW fun w => w.laneSet h l 0 up).xngDown h) := by
      change execCrossingLaneChange h l 0 up s = _
      simp [execCrossingLaneChange, hrun, hl]
    obtain ⟨hset, hother, hrx⟩ := s.w.rd_laneSet_tx h up hl
    have htx := ((s.onW fun w => w.laneSet h l 0 up).rd_xngDown h h F.XNG_STATUS.LANE_TX 0 (by decide) (by decide) (by decide))
    have hrx' := ((s.onW fun w => w.laneSet h l 0 up).rd_xngDown h h F.XNG_STATUS.LANE_RX 0 (by decide) (by decide) (by decide))
    refine .of_exec hexec ⟨by rw [htx]; exact hset, by rw [htx]; exact hother, hrx'.trans hrx, fun h0 => ?_⟩
    rw [htx] at h0
    exact State.rd_xngDown_up _ h (World.lanesUp_of_tx h0)
  case badFrame =>
    intro h ty seq len s hs h1 h6
    have hexec : exec (.crossingFrameReceived h ty seq len false) s = .next { s with w := s.w.crossingCrc h ty seq } := by
      change execCrossingFrameReceived h ty seq len false s = _
      simp [execCrossingFrameReceived, World.crossingCrc, hs, show ty ≠ 0 by omega, show ¬ 6 < ty by omega]
    refine .of_exec hexec ⟨?_, ?_, exec_quiet hexec rfl⟩
    · simp (disch := decide) [World.crossingCrc, World.rd_when, World.rd_raise, World.rd_bump_same]
    · simp only [World.crossingCrc, World.apply_when World.xng, World.raise_xng, ite_self, World.xng_updXng, Two.get_upd_same]
      by_cases h3 : 3 ≤ ty <;> by_cases hm : (ty, seq) ∈ (s.w.xng.get h).asked <;> simp [h3, hm]
  case goodFrame =>
    intro h ty seq len s hs h1 h6
    have hexec : exec (.crossingFrameReceived h ty seq len true) s =
        .next { s with w := (s.w.updXng h fun x => { x with asked := x.asked.filter (fun a => a ≠ (ty, seq)) }).xngGot h len } := by
      change execCrossingFrameReceived h ty seq len true s = _
      simp [execCrossingFrameReceived, hs, show ty ≠ 0 by omega, show ¬ 6 < ty by omega]
    exact .of_exec hexec ⟨by simp [World.xngGot], fun _ _ _ _ _ => rfl, exec_quiet hexec rfl⟩
  case resend =>
    intro h ty seq s ha hs
    have hexec : exec (.retransmissionRequest h ty seq) s = _ := rfl
    refine .of_exec hexec ⟨?_, ?_, ?_, exec_quiet hexec rfl⟩ <;> simp (disch := decide) [ha, hs, World.rd_bump_same]
  case enable =>
    intro h init v s hl
    refine .of_exec rfl ?_
    rw [hl, State.when_true]
    refine ⟨?_, State.when_keeps (·.own) (State.allLanesDown_own _), State.when_keeps (·.ledger) (State.allLanesDown_ledger _)⟩
    refine (State.when_keeps (fun s => s.w.rd h F.XNG_CTRL.EN 0) (State.rd_allLanesDown _ h _ 0 (by decide))).trans ?_
    rw [State.onW_w, World.rd_wr_same _ _ _ _ _ (by decide)]
    exact Nat.mod_mod v 2
  case enableLocked =>
    intro h init v s hl
    exact .of_exec rfl (by rw [hl, State.when_false])
  case loopback =>
    intro h init v s hl hs
    refine .of_exec rfl ?_
    rw [hl, hs, Bool.or_true, Bool.and_self, State.when_true]
    refine ⟨?_, State.when_keeps (·.own) (State.allLanesDown_own _), State.when_keeps (·.ledger) (State.allLanesDown_ledger _)⟩
    refine (State.when_keeps (fun s => s.w.rd h F.XNG_CTRL.LOOPBACK 0) (State.rd_allLanesDown _ h _ 0 (by decide))).trans ?_
    rw [State.onW_w, World.rd_wr_same _ _ _ _ _ (by decide)]
    exact Nat.mod_mod v 2
  case loopbackOutside =>
    intro h init v s hv hs
    exact .of_exec rfl (by simp [hv, hs])
  case clear =>
    intro h init s
    have hexec : exec (.xngClrCnt h init) s = _ := rfl
    exact .of_exec hexec ⟨World.reg_setReg_same _ _ _ _ _, exec_regsBut hexec rfl, exec_quiet hexec rfl⟩
  case send =>
    intro h s hl hs ha
    have hexec : exec (.hbFrameSend h) s = _ := rfl
    refine .of_exec hexec ⟨?_, ?_, exec_quiet hexec rfl⟩ <;> simp [hl, hs, ha, World.xngSent]
  case sendLow =>
    intro h s ha
    exact .of_exec rfl (by simp [ha])
  case receive =>
    intro h s f hf hs
    have hexec : exec (.hbFrameReceived h) s = _ := rfl
    refine .of_exec hexec ⟨?_, ?_, ?_, ?_, ?_, ?_, ?_, ?_, ?_, ?_, ?_, ?_, exec_quiet hexec rfl⟩ <;>
      simp (disch := decide) [hf, hs, World.xngGot, World.rd_wr_same, World.rd_wr_apart]
  case window =>
    intro h s hrun hsus hat
    have hexec : exec (.hbWindowExpiry h) s = _ := rfl
    refine .of_exec hexec ⟨?_, ?_, ?_, ?_, exec_quiet hexec rfl⟩ <;>
      simp (disch := decide) [hrun, hsus, us, hat, World.rd_wr_same, World.rd_wr_apart, World.rd_when, World.rd_raise,
        World.apply_when World.xng, World.apply_when World.now]
  case suspended =>
    intro h s hs
    exact .of_exec rfl (by simp [hs])
  case loss =>
    intro h s hd
    have hexec : exec (.heartbeatLossSample h) s = _ := rfl
    refine .of_exec hexec ⟨?_, exec_quiet hexec rfl, ?_⟩
    all_goals
      rw [hd, State.when_true]
      cases ha : s.own.alive h.other <;>
        simp (disch := decide) [ha, World.rd_engines, World.rd_when, World.rd_trkSplit, World.rd_raise, World.rd_wr_same, World.apply_when World.xng]
  case up =>
    intro h s h1 h2 h3 h4 h5
    have hexec : exec (.crossingUp h) s = _ := rfl
    refine .of_exec hexec ⟨?_, ?_, ?_, ?_, exec_quiet hexec rfl⟩ <;>
      simp (disch := decide) [h1, h2, h3, h4, h5, World.rd_wr_same, World.rd_wr_apart, World.rd_raise, World.rd_engines, World.rd_trkJoin]
end

section
/-!
SUPPORT. R43–R45, R82, R459: the exchange of time stamps and the mirror classes.
-/
namespace Sys2Proof.Machine

@[simp] theorem World.tim_updTim (w : World) (h : Half) (u : TimSt → TimSt) : (w.updTim h u).tim = w.tim.upd h u := (rfl)
@[simp] theorem World.xng_updTim (w : World) (h : Half) (u : TimSt → TimSt) : (w.updTim h u).xng = w.xng := (rfl)
@[simp] theorem World.now_updTim (w : World) (h : Half) (u : TimSt → TimSt) : (w.updTim h u).now = w.now := (rfl)
@[simp] theorem World.rd_updTim (w : World) (h g : Half) (u : TimSt → TimSt) (f : Field) (i : Nat) : (w.updTim h u).rd g f i = w.rd g f i := (rfl)
@[simp] theorem World.tim_updXng (w : World) (h : Half) (u : Xng → Xng) : (w.updXng h u).tim = w.tim := (rfl)
@[simp] theorem World.tim_xngSent (w : World) (h : Half) (ty len : Nat) : (w.xngSent h ty len).tim = w.tim := (rfl)

@[simp] theorem World.tsyncLost_tim (w : World) (h : Half) : (w.tsyncLost h).tim = w.tim := by
  simp [World.tsyncLost, World.apply_when World.tim]

/-- TSYNC_OK is clear after its loss (R44). -/
theorem World.rd_tsyncLost_ok (w : World) (h : Half) : (w.tsyncLost h).rd h F.XNG_STATUS.TSYNC_OK = 0 := by
  cases hok : w.flag h F.XNG_STATUS.TSYNC_OK with
  | true => simp (disch := decide) [World.tsyncLost, World.rd_raise, World.rd_wr_same, hok]
  | false => simpa [World.tsyncLost, World.rd_when, hok] using (World.flag_eq_false_iff rfl).mp hok

/-- What an exchange of time stamps measures, before TSYNC_OK is judged (R43). -/
def World.tsyTaken (w : World) (serves : Bool) (h : Half) (ofs : Int) : World :=
  let near : Bool := ofs.natAbs ≤ 20
  let w := w.wrI h F.XNG_TSYNC_OFS.OFS 0 ofs
  let w := w.when (!serves) fun w =>
    w.updTim h fun t => if near then { t with offset := t.offset + ofs / 10 } else { t with slew := t.slew.orElse (fun _ => some (w.now, ofs / 10)) }
  (w.updXng h fun x => { x with
    tsyAt := w.now, within := if near then min 10 (x.within + 1) else 0, outside := if near then 0 else x.outside + 1 }).xngSent h 2 16

/-- TSYNC_OK after an exchange (R44). -/
def World.tsyJudged (w : World) (h : Half) (near : Bool) : World :=
  if near && (w.xng.get h).within = 10 then w.wr h F.XNG_STATUS.TSYNC_OK 0 1
  else w.when (!near && 10 < (w.xng.get h).outside) (·.tsyncLost h)

theorem World.rd_tsyTaken_ofs (w : World) (b : Bool) (h : Half) (ofs : Int) : (w.tsyTaken b h ofs).rd h F.XNG_TSYNC_OFS.OFS = toTwos 32 ofs := by
  simp (disch := decide) [World.tsyTaken, World.rd_when, World.rd_wrI_same]

theorem World.rd_tsyTaken_ok (w : World) (b : Bool) (h : Half) (ofs : Int) :
    (w.tsyTaken b h ofs).rd h F.XNG_STATUS.TSYNC_OK = w.rd h F.XNG_STATUS.TSYNC_OK := by
  simp (disch := decide) [World.tsyTaken, World.rd_when, World.rd_wrI_apart]

theorem World.tsyTaken_tim (w : World) (b : Bool) (h : Half) (ofs : Int) : (w.tsyTaken b h ofs).tim =
    if b then w.tim else w.tim.upd h fun t =>
      if ofs.natAbs ≤ 20 then { t with offset := t.offset + ofs / 10 } else { t with slew := t.slew.orElse (fun _ => some (w.now, ofs / 10)) } := by
  cases b <;> simp [World.tsyTaken]

theorem World.tsyTaken_within (w : World) (b : Bool) (h : Half) (ofs : Int) : ((w.tsyTaken b h ofs).xng.get h).within =
    if ofs.natAbs ≤ 20 then min 10 ((w.xng.get h).within + 1) else 0 := by
  simp [World.tsyTaken, World.xngSent, World.apply_when World.xng]

theorem World.tsyTaken_outside (w : World) (b : Bool) (h : Half) (ofs : Int) : ((w.tsyTaken b h ofs).xng.get h).outside =
    if ofs.natAbs ≤ 20 then 0 else (w.xng.get h).outside + 1 := by
  simp [World.tsyTaken, World.xngSent, World.apply_when World.xng]

theorem World.rd_tsyJudged_ofs (w : World) (h : Half) (near : Bool) :
    (w.tsyJudged h near).rd h F.XNG_TSYNC_OFS.OFS = w.rd h F.XNG_TSYNC_OFS.OFS := by
  unfold World.tsyJudged
  split <;> simp (disch := decide) [World.rd_when, World.rd_wr_apart, World.rd_tsyncLost]

theorem World.tsyJudged_tim (w : World) (h : Half) (near : Bool) : (w.tsyJudged h near).tim = w.tim := by
  unfold World.tsyJudged
  split <;> simp [World.apply_when World.tim]

/-- A record taken with its output; steering follows only function 0 (R459). -/
theorem World.takeFn_of_newer {w : World} {h : Half} {n : Nat} (hn : 1 ≤ n) (hran : (NMap.get {} (w.set.get h.other).fn n).ran = true)
    (hold : (NMap.get {} (w.set.get h).mir n).cycle ≤ (NMap.get {} (w.set.get h.other).fn n).cycle) :
    w.takeFn h n = [F.SET_MF_OUT.VALUE, F.SET_MF_SP.VALUE, F.SET_MF_MAN.VALUE, F.SET_MF_CMD.MANUAL].foldl
      (fun w f => w.wr h f n (w.rd h.other f n))
      { w with set := w.set.upd h fun e => { e with mir := NMap.set {} e.mir n (NMap.get {} (w.set.get h.other).fn n) } } := by
  have h0 : n ≠ 0 := by omega
  simp [World.takeFn, hran, h0, Nat.not_lt.mpr hold]

/-- Mirroring depends on nothing hidden of the Crossing (R82). -/
@[simp] theorem World.mirrors_updXng (w : World) (h g : Half) (u : Xng → Xng) : (w.updXng h u).mirrors g = w.mirrors g := (rfl)
@[simp] theorem World.mirrors_xngSent (w : World) (h g : Half) (ty len : Nat) : (w.xngSent h ty len).mirrors g = w.mirrors g := (rfl)
@[simp] theorem World.set_updXng (w : World) (h : Half) (u : Xng → Xng) : (w.updXng h u).set = w.set := (rfl)
@[simp] theorem World.set_xngSent (w : World) (h : Half) (ty len : Nat) : (w.xngSent h ty len).set = w.set := (rfl)
@[simp] theorem World.evt_updXng (w : World) (h : Half) (u : Xng → Xng) : (w.updXng h u).evt = w.evt := (rfl)
@[simp] theorem World.dram_updXng (w : World) (h : Half) (u : Xng → Xng) : (w.updXng h u).dram = w.dram := (rfl)
@[simp] theorem World.dram_xngSent (w : World) (h : Half) (ty len : Nat) : (w.xngSent h ty len).dram = w.dram := (rfl)

end Sys2Proof.Machine
end

section
open Sys2Proof Sys2Proof.Machine

/-- Settles O13: an exchange writes the offset or changes nothing; a mirrored record is taken by its class. -/
theorem timeSyncAndMirror : Obligations.timeSyncAndMirror := by
  unfold Obligations.timeSyncAndMirror
  refine ⟨?exchange, ?timeout, ?state, ?record, ?closed, ?lag, ?refresh⟩
  case exchange =>
    intro h t1 t2 t3 t4 s hup
    have hw : exec (.tsyExchange h t1 t2 t3 t4) s = .next { s with
        w := (s.w.tsyTaken (s.own.serves h) h (((t2 - t1) + (t3 - t4)) / 2)).tsyJudged h ((((t2 - t1) + (t3 - t4)) / 2).natAbs ≤ 20) } := by
      change execTsyExchange h t1 t2 t3 t4 s = _
      simp only [execTsyExchange, lift, hup, Bool.not_true, Bool.false_eq_true, if_false]
      rfl
    refine .of_exec hw ⟨exec_quiet hw rfl, ?_⟩
    generalize ((t2 - t1) + (t3 - t4)) / 2 = ofs
    refine ⟨by rw [World.rd_tsyJudged_ofs, World.rd_tsyTaken_ofs], fun hs hn => ?_, fun hs => ?_, fun hn h9 => ?_, fun hn h9 => ?_, fun hf h10 => ?_⟩
    · simp [World.tsyJudged_tim, World.tsyTaken_tim, hs, hn]
    · simp [World.tsyJudged_tim, World.tsyTaken_tim, hs]
    · simp (disch := decide) [World.tsyJudged, World.tsyTaken_within, hn, h9, World.rd_wr_same]
    · have h10 : ¬ 10 ≤ (s.w.xng.get h).within + 1 := by omega
      simp [World.tsyJudged, World.tsyTaken_within, hn, h10, World.rd_tsyTaken_ok]
    · have hn : ¬ ofs.natAbs ≤ 20 := by omega
      simp [World.tsyJudged, World.tsyTaken_within, World.tsyTaken_outside, hn, Nat.lt_succ_of_le h10, World.rd_tsyncLost_ok]
  case timeout =>
    intro h s hup hat
    have hexec : exec (.tsyncTimeout h) s = .next { s with w := s.w.tsyncLost h } := by
      change execTsyncTimeout h s = _
      simp [execTsyncTimeout, hup, ms, hat]
    exact .of_exec hexec ⟨s.w.rd_tsyncLost_ok h, by simp [World.tsyncLost], exec_quiet hexec rfl⟩
  case state =>
    intro h s hm
    have hexec : exec (.mirrorRecordReceived h 1 30 true) s = _ := rfl
    refine .of_exec hexec ⟨?_, ?_, ?_, exec_quiet hexec rfl⟩
    · simp (disch := decide) [hm, World.takeClass, World.rd_wr_same]
      exact s.w.rd_lt _ _ _
    · simp [hm]
      split <;> simp_all
    · simp [hm, World.xngSent, Two.get_upd_ne]
  case record =>
    intro h s n full hm h1 h30 hran hold
    have hexec : exec (.mirrorRecordReceived h 0 n full) s = _ := rfl
    refine .of_exec hexec ⟨?_, ?_, exec_quiet hexec rfl⟩
    · simp [hm, h30, World.takeFn_of_newer h1 hran hold]
    · simp (disch := decide) [hm, h30, World.takeFn_of_newer h1 hran hold, World.rd_wr_same, World.rd_wr_apart]
      exact s.w.rd_lt _ _ _
  case closed =>
    intro h s k n full hm
    exact .of_exec rfl (by simp [hm])
  case lag =>
    intro h k s hk hup
    have hexec : exec (.mirrorLagExceeded h k) s = _ := rfl
    refine .of_exec hexec ⟨?_, exec_quiet hexec rfl⟩
    simp (disch := decide) only [hk, hup, decide_true, Bool.and_self, World.when_true, World.rd_updXng, World.rd_raise, World.rd_wr_same]
    exact bitOf_or_pow _ hk
  case refresh =>
    intro h s hup hsend hat hm
    have hexec : exec (.mirrorRefresh h 3) s = _ := rfl
    refine .of_exec hexec ⟨?_, ?_, ?_, exec_quiet hexec rfl⟩
    · simp [hup, hsend, sec, hat, hm, World.takeClass]
    · simp [hup, hsend, sec, hat, hm, World.takeClass, World.rd_wr_same]
      exact s.w.rd_lt _ _ _
    · simp [hup, hsend, sec, hat, hm, World.takeClass, World.xngSent]
end

section
/-!
SUPPORT. R27, R32, R87–R101: power-on of the backplane, the release of a half's reset, Bloom and Pour.
-/
namespace Sys2Proof.Machine

/-! What runs of a half. -/

@[simp] theorem State.own_onW (s : State) (f : World → World) : (s.onW f).own = s.own := (rfl)
@[simp] theorem State.bus_onW (s : State) (f : World → World) : (s.onW f).bus = s.bus := (rfl)

@[simp] theorem World.rd_updRun (w : World) (h g : Half) (u : Run → Run) (f : Field) (i : Nat) : (w.updRun h u).rd g f i = w.rd g f i := (rfl)
@[simp] theorem World.run_updRun (w : World) (h : Half) (u : Run → Run) : (w.updRun h u).run = w.run.upd h u := (rfl)
@[simp] theorem World.now_updRun (w : World) (h : Half) (u : Run → Run) : (w.updRun h u).now = w.now := (rfl)
@[simp] theorem World.act_updRun (w : World) (h : Half) (u : Run → Run) : (w.updRun h u).act = w.act := (rfl)
@[simp] theorem World.rd_updSet (w : World) (h g : Half) (u : SetEng → SetEng) (f : Field) (i : Nat) : (w.updSet h u).rd g f i = w.rd g f i := (rfl)
@[simp] theorem World.rd_updTrk (w : World) (h g : Half) (u : Tracks → Tracks) (f : Field) (i : Nat) : (w.updTrk h u).rd g f i = w.rd g f i := (rfl)
@[simp] theorem World.rd_updLatch (w : World) (g : Half) (u : Latch → Latch) (f : Field) (i : Nat) : (w.updLatch u).rd g f i = w.rd g f i := (rfl)

/-- The registers written by a region's display (R506). -/
def regionRegs : List Nat := [F.UPD_REGION.VALID.reg, F.UPD_REGION.RESTORED.reg, F.UPD_REGION.FLOOR.reg, F.UPD_REGION.RB.reg, F.UPD_VER.VERSION.reg]

/-- A half that comes out of reset, before its regions, its keys and its nonce are shown. -/
def World.freshUnits (w : World) (h : Half) (cause : Nat) : World :=
  let r := w.run.get h
  let ctrlOk := w.rd h F.CUP_STATUS.CTRL_OK
  let w := { w with regs := w.regs.upd h (keepRegs keptReset) }
  let w := w.updRun h fun _ => { Run.init with
    running := true, refAt := w.now, stwAt := w.now, cause := cause, selfFenced := r.selfFenced, resets := r.resets + 1 }
  let w := { w with
    evt := w.evt.upd h (fun e => { Router.init with flash := e.flash }), xng := w.xng.set h Xng.init
    shut := w.shut.set h { Shut.init with trunc := (w.shut.get h).trunc }
    frame := w.frame.set h { Frame.init with start := w.now, wdAt := w.now }, set := w.set.set h SetEng.init
    opt := w.opt.set h { saved := (w.opt.get h).saved }, pose := w.pose.set h none, grd := w.grd.set h {}, trk := w.trk.set h {} }
  let w := { w with
    yld := w.yld.upd h (fun y => { kept := y.kept }), gns := w.gns.upd h (fun g => { stored := g.stored })
    tim := w.tim.upd h (fun t => { stored := t.stored }), flx := w.flx.set h {}
    upd := w.upd.upd h (fun u => { u with sess := [], restart := false })
    uin := { w.uin with bind := w.uin.bind.filter (fun e => e.1 / 1024 ≠ 1 + h.code) } }
  ((w.wr h F.STW_RESET.CAUSE 0 cause).wr h F.STW_RESET.COUNT 0 (min 15 r.resets)).wr h F.CUP_STATUS.CTRL_OK 0 ctrlOk

/-- What the display of a half that comes out of reset changes (R93, R506). -/
def shownParts : List Part := [.fresh, .evt, .upd, .latch] ++ ([F.EVT_STATUS.LOST.reg, F.STW_STAGE.STAGE.reg, F.STW_HOLD.HOLD_REQ.reg,
  F.UPD_REGION.VALID.reg, F.UPD_VER.VERSION.reg, 0x1100028, 0x1100040, 0x1100060, 0x1100080, 0x11000C0, 0x1400018, 0x1400020, 0x1400030,
      0x1400040, 0x1400080]).map .reg

theorem World.halfFresh_shown (w : World) (h : Half) (cause : Nat) : Rest shownParts (w.halfFresh h cause) (w.freshUnits h cause) :=
  World.latchEval_rest (by decide) (World.drawNonce_rest (by decide) (World.showKeys_rest (by decide)
    (Rest.forAll (Rest.refl _ _) fun _ _ hu => World.setRegion_rest (by decide) hu)))

/-- The registers of a half that do not outlast its reset read as at reset. -/
theorem World.rd_keepRegs (w : World) (h : Half) (p : Nat → Bool) (f : Field) (i : Nat) (hf : f.bp = false) (hp : p f.reg = false) (h25 : f.reg < 2 ^ 25) :
    World.rd { w with regs := w.regs.upd h (keepRegs p) } h f i = (regReset f.reg).field f.lo f.w := by
  have hfile : ∀ r : RegFile, NMap.get (regReset f.reg) (keepRegs p r) (fieldKey f i) = regReset f.reg := by
    intro r
    induction r with
    | nil => rfl
    | cons e t ih =>
      rw [keepRegs] at ih ⊢
      cases hpe : p (e.1 % 2 ^ 25) with
      | false => rw [List.filter_cons_of_neg (by rw [hpe]; decide), ih]
      | true =>
        have hk : fieldKey f i ≠ e.1 := by
          rintro hk
          rw [← hk, fieldKey, Nat.mul_add_mod_self_right, Nat.mod_eq_of_lt h25, hp] at hpe
          exact nomatch hpe
        rw [List.filter_cons_of_pos (by rw [hpe]), NMap.get, if_neg hk, ih]
  rw [World.rd, World.reg, World.file, hf]
  simp [hfile]

theorem World.rd_halfFresh_run (w : World) (h : Half) (cause : Nat) : (w.halfFresh h cause).rd h F.SET_CTRL.RUN = 0 := by
  rw [World.rd, (w.halfFresh_shown h cause).reg _ _ _ (by decide), ← World.rd]
  simp (disch := decide) only [World.freshUnits, World.rd_wr_apart, World.rd_hidden, World.rd_updRun]
  exact World.rd_keepRegs _ _ _ _ _ rfl (by decide) (by decide)

theorem World.rd_halfFresh_cause (w : World) (h : Half) (cause : Nat) : (w.halfFresh h cause).rd h F.STW_RESET.CAUSE = cause % 16 := by
  rw [World.rd, (w.halfFresh_shown h cause).reg _ _ _ (by decide), ← World.rd]
  simp (disch := decide) [World.freshUnits, World.rd_wr_apart, World.rd_wr_same]

theorem World.run_halfFresh (w : World) (h : Half) (cause : Nat) : (w.halfFresh h cause).run.get h = { Run.init with
    running := true, refAt := w.now, stwAt := w.now, cause := cause, selfFenced := (w.run.get h).selfFenced, resets := (w.run.get h).resets + 1 } := by
  rw [(w.halfFresh_shown h cause).run (by decide)]
  simp [World.freshUnits]

theorem State.backplaneOn_own (s : State) (t1 t0 : Bool) (tiles : Nat) : (s.backplaneOn t1 t0 tiles).own = { Own.init with
    low := ⟨{ s.own.low.get .A with heldReset := true, watchdog := false, fenced := false },
      { s.own.low.get .B with heldReset := true, watchdog := false, fenced := false }⟩ } := (rfl)

theorem State.rise_keeps (s : State) (c : Bool) (h : Half) :
    (∀ g f i, (s.when c (·.onW (·.aliveRise h))).w.rd g f i = s.w.rd g f i) ∧ (s.when c (·.onW (·.aliveRise h))).w.run = s.w.run ∧
      (s.when c (·.onW (·.aliveRise h))).own = s.own ∧ (s.when c (·.onW (·.aliveRise h))).bus = s.bus := by
  cases c <;> exact ⟨fun _ _ _ => rfl, rfl, rfl, rfl⟩

/-- A half whose reset is released runs anew, its alive line as the remaining causes leave it (R25, R93). -/
theorem State.letRun_leaves (s : State) (h : Half) (cause : Nat) :
    (∀ g f i, (s.letRun h cause).w.rd g f i = (s.w.halfFresh h cause).rd g f i) ∧ (s.letRun h cause).w.run = (s.w.halfFresh h cause).run ∧
      (s.letRun h cause).own = { s.own with low := s.own.low.upd h fun l => { l with heldReset := false, watchdog := false, fenced := false } } ∧
      (s.letRun h cause).bus = { s.bus with port := s.bus.port.set h [] } :=
  State.rise_keeps ((State.onW { s with bus := { s.bus with port := s.bus.port.set h [] } } (·.halfFresh h cause)).onOwn fun o => { o with
    low := o.low.upd h fun l => { l with heldReset := false, watchdog := false, fenced := false } }) _ h

theorem State.mayRun_low {s : State} {h : Half} (hm : s.mayRun h = true) :
    (s.own.low.get h).detectOpen = false ∧ (s.own.low.get h).supplyBad = false := by
  simp only [State.mayRun, Bool.and_eq_true, Bool.not_eq_true'] at hm
  simp only [hm, and_self]

/-- The registers in which Bloom step 9 shows beside its own (R97). -/
theorem World.rd_lifeDue (w : World) (g h : Half) (f : Field) (i : Nat) (hf : outside [F.EVT_STATUS.LOST.reg] f = true) :
    (w.lifeDue g).rd h f i = w.rd h f i :=
  (World.lifeDue_rest (by decide) (Rest.refl [.evt, .reg F.EVT_STATUS.LOST.reg] w)).rd_outside (by decide) hf h i

theorem World.rd_greenSync (w : World) (g h : Half) (f : Field) (i : Nat) (hf : outside [F.EVT_STATUS.LOST.reg] f = true) :
    (w.greenSync g).rd h f i = w.rd h f i :=
  (World.greenSync_rest (by decide) (Rest.refl [.evt, .bp, .reg F.EVT_STATUS.LOST.reg] w)).rd_outside (by decide) hf h i

theorem World.rd_latchEval (w : World) (h : Half) (f : Field) (i : Nat) (hf : fieldsApart F.STW_HOLD.PWR_HOLD f = true) :
    w.latchEval.rd h f i = w.rd h f i := by
  rw [World.latchEval, World.rd_wrBoth_apart _ _ _ _ _ _ _ hf, World.rd_updLatch]

theorem World.rd_setHoldReq_apart (w : World) (g h : Half) (on : Bool) (f : Field) (i : Nat) (hf : fieldsApart F.STW_HOLD.PWR_HOLD f = true)
    (hr : fieldsApart F.STW_HOLD.HOLD_REQ f = true) : (w.setHoldReq g on).rd h f i = w.rd h f i := by
  rw [World.setHoldReq, World.rd_latchEval _ _ _ _ hf, World.rd_wr_apart _ _ _ _ _ _ _ _ hr]

theorem World.rd_setHoldReq (w : World) (h : Half) (on : Bool) : (w.setHoldReq h on).rd h F.STW_HOLD.HOLD_REQ = b2n on := by
  rw [World.setHoldReq, World.rd_latchEval _ _ _ _ (by decide), World.rd_wr_same _ _ _ _ _ (by decide)]
  exact b2n_mod_two on

theorem World.rd_bootRegion (w : World) (g h : Half) (r : Nat) {f : Field} (i : Nat) (hf : f.reg < 2 ^ 25)
    (hregion : F.UPD_REGION.VALID.reg ≠ f.reg) (hver : F.UPD_VER.VERSION.reg ≠ f.reg) : (w.bootRegion g r).1.rd h f i = w.rd h f i := by
  unfold World.bootRegion
  extract_lets x
  split
  · rfl
  · exact w.rd_setRegion_other g h r _ i hf hregion hver

theorem World.run_bootRegion (w : World) (g : Half) (r : Nat) : (w.bootRegion g r).1.run = w.run :=
  (World.bootRegion_rest (by decide) (Rest.refl (allBut .run) w)).run (by decide)

/-- A step of Bloom that goes on leaves the half where it was; one that does not leaves it in Green as standby. -/
theorem World.orStandby_stage {w : World} {h : Half} (ok : Bool) (hs : (w.run.get h).standby = false) (hstage : w.rd h F.STW_STAGE.STAGE = 1) :
    (w.orStandby h ok).rd h F.STW_STAGE.STAGE = 1 ∧ ((w.orStandby h ok).run.get h).standby = false ∨
      (w.orStandby h ok).rd h F.STW_STAGE.STAGE = 0 ∧ ((w.orStandby h ok).run.get h).standby = true := by
  cases ok with
  | true => exact .inl ⟨hstage, hs⟩
  | false => exact .inr ⟨World.rd_wr_same _ _ _ _ _ (by decide), by simp [World.orStandby, World.standby]⟩

theorem World.orStandby_step (w : World) (h : Half) (ok : Bool) : ((w.orStandby h ok).run.get h).bloomStep = (w.run.get h).bloomStep := by
  cases ok <;> simp [World.orStandby, World.standby]

theorem State.server_claimAll (s : State) (h : Half) (l : List Nat) : (s.claimAll h l).own.server = s.own.server := by
  unfold State.claimAll
  extract_lets l'
  split
  · rfl
  · exact State.forAll_keeps (·.own.server) (f := fun s k => s.claiming k h none) (fun _ _ => rfl) l' s

/-- Step 1 up to its end: the stage, the image's check, the cause of the reset reported (R97, R508). -/
def World.bloom1Checked (w : World) (h : Half) : World :=
  let w1 := (w.wr h F.STW_STAGE.STAGE 0 1).wr h F.STW_START_T.GREEN 0 (satTo 8 ((w.now - (w.run.get h).refAt) / ms))
  let w2 := (w1.bootRegion h 1).1.updRun h fun r => { r with fwOk := (w1.bootRegion h 1).2 }
  w2.when ((w.run.get h).cause ≠ 0) fun u => u.raise h 1 (evArg 0xFFFF 0xFF (w.run.get h).cause)

theorem World.rd_bloom1Checked_stage (w : World) (h : Half) : (w.bloom1Checked h).rd h F.STW_STAGE.STAGE = 1 := by
  simp (disch := decide) [World.bloom1Checked, World.rd_when, World.rd_raise, World.rd_wr_same, World.rd_wr_apart, World.rd_bootRegion]

theorem World.bloom1Checked_run (w : World) (h : Half) :
    ((w.bloom1Checked h).run.get h).standby = (w.run.get h).standby ∧ ((w.bloom1Checked h).run.get h).bloomStep = (w.run.get h).bloomStep := by
  simp [World.bloom1Checked, World.apply_when World.run, World.run_bootRegion]

theorem World.bloom1_eq (w : World) (h : Half) : ∃ ok, w.bloom1 h = (w.bloom1Checked h).orStandby h ok := ⟨_, rfl⟩

/-- The half at a step of Bloom. -/
def State.atStep (s : State) (h : Half) (k : Nat) : State := s.onW fun w => w.updRun h fun r => { r with bloomStep := k }

@[simp] theorem State.atStep_own (s : State) (h : Half) (k : Nat) : (s.atStep h k).own = s.own := (rfl)
@[simp] theorem State.atStep_act (s : State) (h : Half) (k : Nat) : (s.atStep h k).w.act = s.w.act := (rfl)
@[simp] theorem State.atStep_rd (s : State) (h g : Half) (k : Nat) (f : Field) (i : Nat) : (s.atStep h k).w.rd g f i = s.w.rd g f i := (rfl)
@[simp] theorem State.atStep_run (s : State) (h : Half) (k : Nat) :
    (s.atStep h k).w.run.get h = { s.w.run.get h with bloomStep := k } := Two.get_upd_same _ _ _

/-- A step of Bloom is taken by a half that runs, is not in standby and has made the step before it (R97). -/
theorem exec_bloom {s : State} {h : Half} {k : Nat} (hrun : (s.w.run.get h).running = true) (hst : (s.w.run.get h).standby = false)
    (hstep : (s.w.run.get h).bloomStep = k) (hk : k < 9) : exec (.bloom h (k + 1)) s = .next ((s.atStep h (k + 1)).bloomStep h (k + 1)) := by
  change execBloom h (k + 1) s = _
  rw [execBloom, hrun, hst, hstep, decide_eq_true (show 1 ≤ k + 1 by omega), decide_eq_true (show k + 1 ≤ 9 by omega), decide_eq_true rfl]
  rfl

/-- Step 8 where no half serves: the half serves and claims what is ORPHAN (R32, R97). -/
theorem State.bloom8_first {s : State} {h : Half} (hsf : (s.w.run.get h).selfFenced = false) (hact : s.w.act = none)
    (hserver : s.own.server = none) (ha : s.own.alive h = true) :
    s.bloom8 h = (s.serverReq h).claimAll h (s.serverReq h).own.orphans := by
  have hserves : (s.serverReq h).own.serves h = true := by
    simp [Own.serves, (State.serverReq_granted ha (.inl (by simp [hserver]))).1]
  simp [State.bloom8, hsf, hact, Own.serves, hserver]
  simp [Own.serves] at hserves
  simp [hserves]

end Sys2Proof.Machine
end

section
open Sys2Proof Sys2Proof.Machine

/-- Settles O14: the stages from what the release of a reset, each step of Bloom and Pour leave. -/
theorem startStages : Obligations.startStages := by
  unfold Obligations.startStages
  refine ⟨?powerOn, ?powerOnRunning, ?release, ?releaseHeld, ?bloom1, ?bloom9, ?bloomOut, ?bloom8, ?bloom8Sibling, ?pour, ?pourNot, ?pourEnd, ?pourEndNot⟩
  case powerOn =>
    intro t1 t0 tiles s ha hb
    refine .of_exec rfl ?_
    rw [ha, hb, Bool.not_false, Bool.and_self, State.when_true, State.own_onW, State.backplaneOn_own]
    exact ⟨rfl, by simp [Own.alive, Low.alive, Two.get], by simp [Own.alive, Low.alive, Two.get], fun k => ⟨rfl, rfl⟩⟩
  case powerOnRunning =>
    intro t1 t0 tiles h s hrun
    refine .of_exec rfl ?_
    cases h <;> simp [hrun, State.when]
  case release =>
    intro h s hm hrun hw
    refine .of_exec rfl ?_
    rw [hm, hrun, Bool.not_false, Bool.true_or, Bool.and_self, State.when_true]
    obtain ⟨hrd, hr, hown, hbus⟩ := s.letRun_leaves h (s.w.run.get h).cause
    obtain ⟨hd, hs⟩ := State.mayRun_low hm
    simp only [hrd, hr, hown, World.run_halfFresh, World.rd_halfFresh_run, World.rd_halfFresh_cause, State.port, hbus]
    refine ⟨trivial, rfl, trivial, ?_, fun _ => rfl, fun i => ?_, trivial, trivial⟩
    · simp [Own.alive, Low.alive, hd, hs, hw]
    · simp [NMap.get]
  case releaseHeld =>
    intro h s hm
    exact .of_exec rfl (by simp [hm])
  case bloom1 =>
    intro h s hrun hst hstep
    refine .of_exec (exec_bloom hrun hst hstep (by decide)) ?_
    obtain ⟨ok, hok⟩ := (s.atStep h 1).w.bloom1_eq h
    obtain ⟨hsby, hat⟩ := (s.atStep h 1).w.bloom1Checked_run h
    rw [State.atStep_run] at hsby hat
    simp only [State.bloomStep, State.onW_w, Nat.reduceAdd, hok, World.orStandby_step, hat]
    exact ⟨trivial, World.orStandby_stage ok (hsby.trans hst) (World.rd_bloom1Checked_stage _ _)⟩
  case bloom9 =>
    intro h s hrun hst hstep
    refine .of_exec (exec_bloom hrun hst hstep (by decide)) ?_
    simp only [State.bloomStep, State.bloom9, State.onW_w]
    refine ⟨?_, ?_, ?_, ?_, rfl⟩ <;>
      simp (disch := decide) [World.rd_when, World.rd_raise, World.rd_wr_same, World.rd_wr_apart, World.rd_engines, World.rd_greenSync,
        World.rd_lifeDue, World.rd_setHoldReq, World.rd_setHoldReq_apart, b2n]
  case bloomOut =>
    intro h k s hno
    refine .of_exec rfl ?_
    have hc : ((s.w.run.get h).running && !(s.w.run.get h).standby && decide (1 ≤ k) && decide (k ≤ 9) &&
        decide ((s.w.run.get h).bloomStep + 1 = k)) = false := by
      rw [Bool.eq_false_iff]
      simp only [ne_eq, Bool.and_eq_true, decide_eq_true_eq, Bool.not_eq_true']
      rintro ⟨⟨⟨⟨hrun, hst⟩, -⟩, h9⟩, hstep⟩
      obtain h1 | h1 | h1 | h1 := hno
      · exact nomatch h1.symm.trans hrun
      · exact nomatch h1.symm.trans hst
      · exact h1 hstep
      · omega
    rw [hc, State.when_false]
  case bloom8 =>
    intro h s hrun hst hstep hsf hact ha hserver
    refine .of_exec (exec_bloom hrun hst hstep (by decide)) ?_
    have hfirst : (s.atStep h (7 + 1)).bloomStep h (7 + 1) = _ :=
      State.bloom8_first (s := s.atStep h 8) (by rw [State.atStep_run]; exact hsf) hact hserver ha
    rw [hfirst]
    obtain ⟨hs, htok⟩ := (s.atStep h 8).serverReq_granted ha (.inl (by simp [hserver]))
    refine ⟨by rw [State.server_claimAll, hs], fun k hk => ⟨fun ho => ?_, fun ho => ?_⟩⟩
    · rw [State.token_claimAll, if_pos ⟨mem_orphans_iff.mpr ⟨hk, by rw [htok]; exact ho⟩, by rw [htok]; exact ho⟩]
    · rw [State.token_claimAll, if_neg (fun hc => ho (by rw [htok] at hc; exact hc.2)), htok]
      rfl
  case bloom8Sibling =>
    intro h s hrun hst hstep hsf hact hserver
    refine .of_exec (exec_bloom hrun hst hstep (by decide)) ?_
    simp only [State.bloomStep, State.bloom8, Own.serves, State.atStep_own, State.atStep_run, State.atStep_act,
      hsf, hact, hserver, Bool.false_and, Bool.false_eq_true, if_false, Option.isSome_none, decide_true, if_true]
    exact State.when_keeps (·.own) rfl
  case pour =>
    intro h s hrun hdone hstage hf hat
    have hexec : exec (.pourEntry h) s = _ := rfl
    refine .of_exec hexec ⟨?_, rfl, exec_regsBut hexec rfl⟩
    simp (disch := decide) [hrun, World.flag, hdone, hstage, hf, sec, hat, World.rd_raise, World.rd_wr_same]
  case pourNot =>
    intro h s hf
    exact .of_exec rfl (by simp [hf])
  case pourEnd =>
    intro h s hrun hstage hf hat
    have hexec : exec (.pourExit h) s = _ := rfl
    refine .of_exec hexec ⟨?_, rfl, exec_regsBut hexec rfl⟩
    simp (disch := decide) [hrun, hstage, hf, sec, hat, World.rd_raise, World.rd_wr_same]
  case pourEndNot =>
    intro h s hf
    exact .of_exec rfl (by simp [hf])
end

section
/-!
SUPPORT. R76–R85: the sibling's Roast, and the activation.
-/
namespace Sys2Proof.Machine

theorem State.restart_roast (s : State) (h : Half) (cause : Nat) : (s.restart h cause).w.roast = s.w.roast :=
  (State.restart_rest (by decide) (Rest.refl (allBut .roast) s.w)).roast (by decide)

/-- A change of world alone leaves the rest of the machine. -/
theorem State.quiet_onW (s : State) (f : World → World) : s.Quiet (s.onW f) := ⟨rfl, rfl, rfl, rfl⟩

/-- A new GREN takes the inactive bank, which becomes the active one (R88). -/
theorem World.writeGreen_bank (w : World) (g : NMap Gren) : (w.writeGreen g).greenBank = g ∧ (w.writeGreen g).bp.ptr = !w.bp.ptr := by
  cases hptr : w.bp.ptr <;> simp [World.writeGreen, World.greenBank, hptr]

end Sys2Proof.Machine
end

section
open Sys2Proof Sys2Proof.Machine

/-- Settles O15: the slots from the image verified, the activation from the step that a request takes. -/
theorem roastActivation : Obligations.roastActivation := by
  unfold Obligations.roastActivation
  refine ⟨?pending, ?active, ?ask, ?commit, ?drop, ?committed⟩
  case pending =>
    intro h s hrun hup hvalid hact hsess
    refine .of_exec rfl ?_
    simp only [hrun, World.flag, hup, hvalid, hact, hsess, decide_true, Option.isNone_none, Bool.not_false, Bool.and_self, State.when_true, if_true]
    refine ⟨rfl, rfl, ?_, fun hv => ?_, fun hv => ?_, ?_⟩
    · simp (disch := decide) only [State.onW_w, World.rd_when, World.rd_roastReject, World.rd_setRegion_other, World.rd_hidden, World.rd_wr_same, ite_self]
    · simp [hv]
    · simp [hv]
    · simp [World.apply_when World.roast]
  case active =>
    intro h s hneed
    refine .of_exec rfl ?_
    simp only [hneed, State.when_true, Bool.false_eq_true, if_false]
    refine ⟨fun hv => ?_, fun hv => ?_⟩
    · rw [if_pos hv, State.restart_roast]
      simp
    · rw [if_neg hv]
      exact ⟨by simp, State.quiet_onW _ _⟩
  case ask =>
    intro h s hrun
    refine .of_exec rfl ?_
    rw [hrun, State.when_true]
    refine ⟨State.quiet_onW _ _, ?_, fun hz => ?_, fun hz => ?_⟩
    · simp (disch := decide) only [State.activateAsk, State.onW_w, World.rd_when, World.rd_hidden, World.rd_wr_same, ite_self]
    · simp [State.activateAsk, hz]
    · simp [State.activateAsk, hz]
  case commit =>
    intro h s a hact hstep hup
    have hexec : exec (.roastActivateRequest h 3) s = .next ((s.setStep a 3).onW (·.commitRoast a.newHalf)) := by
      change execRoastActivateRequest h 3 s = _
      simp [execRoastActivateRequest, hact, hstep, hup]
    obtain ⟨hbank, hptr⟩ := (s.setStep a 3).w.writeGreen_bank ((s.w.ownContent a.newHalf).gren)
    exact .of_exec hexec ⟨by simp [State.setStep, World.commitRoast, World.writeGreen], rfl, rfl, hptr, hbank, rfl, rfl, rfl, rfl⟩
  case drop =>
    intro h s a hact hc hfail htrial
    have hexec : exec (.roastActivateRequest h 8) s = .next (s.onW fun w => { w with act := none }) := by
      change execRoastActivateRequest h 8 s = _
      simp [execRoastActivateRequest, hact, hc, hfail, State.activateDrop, htrial]
    exact .of_exec hexec ⟨rfl, rfl, State.quiet_onW _ _⟩
  case committed =>
    intro h s a hact hc
    refine .of_exec (t := s) ?_ rfl
    change execRoastActivateRequest h 8 s = _
    simp [execRoastActivateRequest, hact, hc]
end

section
/-!
SUPPORT. R102–R106: the power latch.
-/
namespace Sys2Proof.Machine

@[simp] theorem World.latch_updLatch (w : World) (u : Latch → Latch) : (w.updLatch u).latch = u w.latch := (rfl)
@[simp] theorem World.shut_updLatch (w : World) (u : Latch → Latch) : (w.updLatch u).shut = w.shut := (rfl)
@[simp] theorem World.run_updLatch (w : World) (u : Latch → Latch) : (w.updLatch u).run = w.run := (rfl)
@[simp] theorem World.now_updLatch (w : World) (u : Latch → Latch) : (w.updLatch u).now = w.now := (rfl)

/-- PWR_HOLD as the latch gives it now (R102, R103). -/
def World.holdOn (w : World) : Bool := !w.holdOver && (w.latch.keyOn || w.latch.startup || w.holdReq)

@[simp] theorem World.latchEval_latch (w : World) : w.latchEval.latch = { w.latch with pwrHold := w.holdOn } := by
  simp [World.latchEval, World.holdOn]

@[simp] theorem World.latchEval_shut (w : World) : w.latchEval.shut = w.shut := by simp [World.latchEval]
@[simp] theorem World.latchEval_run (w : World) : w.latchEval.run = w.run := by simp [World.latchEval]

theorem World.rd_latchEval_hold (w : World) (g : Half) : w.latchEval.rd g F.STW_HOLD.PWR_HOLD = b2n w.holdOn := by
  rw [World.latchEval, World.rd_wrBoth_same _ _ _ _ _ (by decide)]
  exact b2n_mod_two _

/-- The request for the hold is that of HOLD_REQ alone. -/
theorem World.holdReq_congr {w v : World} (hrd : ∀ g, w.rd g F.STW_HOLD.HOLD_REQ = v.rd g F.STW_HOLD.HOLD_REQ) : w.holdReq = v.holdReq := by
  simp [World.holdReq, World.flag, hrd]

/-- No shutdown, nothing to cancel (R106). -/
theorem State.cancelShutdown_of_none {s : State} {h : Half} (h0 : (s.w.shut.get h).step = 0) : s.cancelShutdown h = s := by
  simp [State.cancelShutdown, h0]

/-- CLAIM_ALL shows in OWN_RESULT alone (R33). -/
theorem State.rd_claimAll (s : State) (h g : Half) (l : List Nat) (f : Field) (i : Nat) (hf : outside [F.OWN_RESULT.RES.reg] f = true) :
    (s.claimAll h l).w.rd g f i = s.w.rd g f i :=
  (State.claimAll_rest (by decide) (Rest.refl [.reg F.OWN_RESULT.RES.reg] s.w)).rd_outside (by decide) hf g i

/-- What follows where the half serves: it claims what is ORPHAN (R33, R106). -/
theorem State.claimOrphans_leaves (s : State) (c : Bool) (h : Half) :
    (s.when c fun s => s.claimAll h s.own.orphans).w.shut = s.w.shut ∧
      ∀ g, (s.when c fun s => s.claimAll h s.own.orphans).w.rd g F.SET_STATE.STATE = s.w.rd g F.SET_STATE.STATE := by
  cases c with
  | false => exact ⟨rfl, fun _ => rfl⟩
  | true => exact ⟨(State.claimAll_rest (by decide) (Rest.refl (allBut .shut) s.w)).shut (by decide), fun g => s.rd_claimAll h g _ _ _ (by decide)⟩

@[simp] theorem State.cancelShutdown_latch (s : State) (h : Half) : (s.cancelShutdown h).w.latch = s.w.latch :=
  (State.cancelShutdown_rest (by decide) (Rest.refl (allBut .latch) s.w)).latch (by decide)

@[simp] theorem State.cancelShutdown_run (s : State) (h : Half) : (s.cancelShutdown h).w.run = s.w.run :=
  (State.cancelShutdown_rest (by decide) (Rest.refl (allBut .run) s.w)).run (by decide)

/-- A shutdown cancelled starts nothing: the half stands in PARKED with no shutdown (R106). -/
theorem State.cancelShutdown_same {s : State} {h : Half} (h1 : (s.w.shut.get h).step = 1) (hrun : (s.w.run.get h).running = true) :
    ((s.cancelShutdown h).w.shut.get h).step = 0 ∧ (s.cancelShutdown h).w.rd h F.SET_STATE.STATE = 0 := by
  simp only [State.cancelShutdown, h1, hrun, Nat.one_ne_zero, ne_eq, not_false_eq_true, decide_true, Nat.reduceLT, Bool.and_self, State.when_true]
  rw [(State.claimOrphans_leaves _ _ h).1, (State.claimOrphans_leaves _ _ h).2]
  constructor
  · simp [Shut.init, World.updSet]
  · simp (disch := decide) [World.rd_wr_same]

/-- The other half's shutdown stays as it is. -/
theorem State.cancelShutdown_other (s : State) {h g : Half} (hg : g ≠ h) :
    (s.cancelShutdown h).w.shut.get g = s.w.shut.get g ∧ (s.cancelShutdown h).w.rd g F.SET_STATE.STATE = s.w.rd g F.SET_STATE.STATE := by
  rw [State.cancelShutdown]
  cases (s.w.shut.get h).step ≠ 0 && (s.w.shut.get h).step < 4 && (s.w.run.get h).running with
  | false => exact ⟨rfl, rfl⟩
  | true =>
  rw [State.when_true, (State.claimOrphans_leaves _ _ h).1, (State.claimOrphans_leaves _ _ h).2]
  constructor
  · simp [World.updSet, Two.get_set_ne _ _ hg]
  · simp [World.rd_wr_half _ _ _ _ _ _ hg]

/-- KEY_IN on ends the shutdown of a half that stands before Cupping. -/
theorem State.cancelShutdown_both {s : State} {h : Half} (h1 : (s.w.shut.get h).step = 1) (hrun : (s.w.run.get h).running = true) :
    (((s.cancelShutdown .A).cancelShutdown .B).w.shut.get h).step = 0 ∧
      ((s.cancelShutdown .A).cancelShutdown .B).w.rd h F.SET_STATE.STATE = 0 := by
  cases h with
  | A =>
    obtain ⟨hshut, hrd⟩ := (s.cancelShutdown .A).cancelShutdown_other (h := .B) (g := .A) (by decide)
    rw [hshut, hrd]
    exact State.cancelShutdown_same h1 hrun
  | B =>
    obtain ⟨hshut, -⟩ := s.cancelShutdown_other (h := .A) (g := .B) (by decide)
    exact State.cancelShutdown_same (by rw [hshut, h1]) (by rw [State.cancelShutdown_run, hrun])

end Sys2Proof.Machine
end

section
open Sys2Proof Sys2Proof.Machine

/-- Settles O16: each event of the latch from what the latch gives after it. -/
theorem powerLatch : Obligations.powerLatch := by
  unfold Obligations.powerLatch
  refine ⟨?valid, ?low, ?on, ?cancel, ?off, ?startup, ?forced, ?forcedNot⟩
  case valid =>
    intro v s hv hf h8
    have hexec : exec (.logicInValid v) s = _ := rfl
    refine .of_exec hexec ⟨?_, ?_, ?_, fun g => ⟨?_, ?_⟩, exec_quiet hexec rfl⟩ <;>
      simp (disch := decide) [hv, hf, h8, World.holdOn, World.holdOver, Latch.init, World.rd_latchEval_hold, World.rd_latchEval, World.rd_wrBoth_same, b2n]
  case low =>
    intro v s hv
    exact .of_exec rfl (by simp [Nat.not_le.mpr hv])
  case on =>
    intro s hv hk hsh
    have hexec : exec .keyInOn s = .next (s.onW fun w =>
        ((w.updLatch fun l => { l with keyOn := true, keySeen := true }).wrBoth F.STW_HOLD.KEY 0 1).latchEval) := by
      change execKeyInOn s = _
      simp [execKeyInOn, hv, hk, State.cancelShutdown_of_none, hsh]
    refine .of_exec hexec ⟨?_, fun g => ⟨?_, ?_⟩, State.quiet_onW _ _⟩ <;>
      simp (disch := decide) [World.holdOn, World.holdOver, World.rd_latchEval_hold, World.rd_latchEval, World.rd_wrBoth_same, b2n]
  case cancel =>
    intro s h hv hk hsh hrun
    refine .of_exec rfl ?_
    rw [hv, hk, Bool.not_false, Bool.and_self, State.when_true]
    exact ⟨by simp, State.cancelShutdown_both (by simpa using hsh) (by simpa using hrun)⟩
  case off =>
    intro s hv hk
    have hexec : exec .keyInOff s = _ := rfl
    refine .of_exec hexec ⟨?_, ?_, exec_quiet hexec rfl, fun g => ⟨?_, ?_⟩⟩
    · simp [hv, hk]
    · simp [hv, hk]
    · simp (disch := decide) [hv, hk, World.rd_latchEval, World.rd_wrBoth_same]
    · have h30 : ¬ s.w.now + 30 * sec ≤ s.w.now := by simp [sec]
      have hreq := World.holdReq_congr (w := (s.w.updLatch fun l => { l with keyOn := false, keySeen := true, keyOffAt := s.w.now }).wrBoth
        F.STW_HOLD.KEY 0 0) (v := s.w) fun g => by rw [World.rd_wrBoth_apart _ _ _ _ _ _ _ (by decide), World.rd_updLatch]
      simp [hv, hk, World.rd_latchEval_hold, World.holdOn, World.holdOver, h30, hreq]
  case startup =>
    intro s hst hat hk hreq
    have hexec : exec .pwrHoldStartupExpiry s = _ := rfl
    have hreq' : (s.w.updLatch fun l => { l with startup := false }).holdReq = false := hreq
    refine .of_exec hexec ⟨?_, ?_, fun g => ?_, exec_quiet hexec rfl⟩ <;>
      simp [hst, hat, sec, hk, World.holdOn, World.rd_latchEval_hold, hreq', b2n]
  case forced =>
    intro s hseen hk hat hp
    have hexec : exec .pwrHoldForcedRelease s = _ := rfl
    refine .of_exec hexec ⟨?_, fun g => ⟨?_, ?_⟩, exec_quiet hexec rfl⟩ <;>
      simp (disch := decide) [hseen, hk, hat, sec, hp, World.holdOver, World.holdOn, World.rd_latchEval_hold, World.rd_latchEval, World.rd_wrBoth_same, b2n]
  case forcedNot =>
    intro s hk
    exact .of_exec rfl (by simp [World.holdOver, hk])
end

section
/-!
SUPPORT. R483: the event logs saved and mirrored; what raises events leaves them.
-/
namespace Sys2Proof.Machine

/-- The logs that a half keeps beside its queue: the one saved to flash and the sibling's. -/
def Router.logs (r : Router) : Memory × Memory := (r.flash, r.sibLog)

theorem Router.take_logs {r r' : Router} {stamp num flags arg : Nat} (hr : r.take stamp num flags arg = some r') : r'.logs = r.logs := by
  unfold Router.take at hr
  extract_lets us n at hr
  split at hr
  · exact nomatch hr
  · split at hr
    · injection hr with hr
      rw [← hr]
      rfl
    · split at hr
      · exact nomatch hr
      · injection hr with hr
        rw [← hr]
        rfl

theorem Router.report_logs (r : Router) (stamp flags : Nat) : (r.report stamp flags).logs = r.logs := by
  unfold Router.report
  split
  · split
    next r' hr => exact Router.take_logs (r' := r') hr
    next => rfl
  · rfl

/-- An event raised leaves the logs. -/
theorem World.raise_logs (w : World) (h g : Half) (num arg : Nat) : ((w.raise h num arg).evt.get g).logs = (w.evt.get g).logs := by
  have hset {e : Router} (he : e.logs = (w.evt.get h).logs) : ((w.evt.set h e).get g).logs = (w.evt.get g).logs := by
    by_cases hg : g = h
    · rw [hg, Two.get_set_same, he]
    · rw [Two.get_set_ne _ _ hg]
  unfold World.raise
  split
  · dsimp only
    split
    next hr => exact hset ((Router.take_logs hr).trans (Router.report_logs _ _ _))
    next => rw [World.bump_evt]; exact hset (Router.report_logs _ _ _)
  · rfl

end Sys2Proof.Machine
end

section
/-!
SUPPORT. R105–R121: the records of Cupping.
-/
namespace Sys2Proof.Machine

@[simp] theorem World.rd_updShut (w : World) (h g : Half) (u : Shut → Shut) (f : Field) (i : Nat) : (w.updShut h u).rd g f i = w.rd g f i := (rfl)
@[simp] theorem World.shut_updShut (w : World) (h : Half) (u : Shut → Shut) : (w.updShut h u).shut = w.shut.upd h u := (rfl)
@[simp] theorem World.run_updShut (w : World) (h : Half) (u : Shut → Shut) : (w.updShut h u).run = w.run := (rfl)
@[simp] theorem World.now_updShut (w : World) (h : Half) (u : Shut → Shut) : (w.updShut h u).now = w.now := (rfl)
@[simp] theorem World.dram_updShut (w : World) (h : Half) (u : Shut → Shut) : (w.updShut h u).dram = w.dram := (rfl)
@[simp] theorem World.latch_updShut (w : World) (h : Half) (u : Shut → Shut) : (w.updShut h u).latch = w.latch := (rfl)

@[simp] theorem World.upd_updRun (w : World) (h : Half) (u : Run → Run) : (w.updRun h u).upd = w.upd := (rfl)
@[simp] theorem World.latch_updRun (w : World) (h : Half) (u : Run → Run) : (w.updRun h u).latch = w.latch := (rfl)

/-! A record. -/

/-- Result, reason and count without a result in an island's record. -/
def World.cupRec (w : World) (h : Half) (n : Nat) : Nat × Nat × Nat :=
  (w.rd h F.CUP_REC_W0.RESULT n, w.rd h F.CUP_REC_W0.REASON n, w.rd h F.CUP_REC_W0.UNTESTED n)

/-- The record of a run that ended so. -/
def cupRecNext (r : Nat × Nat × Nat) (res reason : Nat) : Nat × Nat × Nat := (res, reason, if res ≤ 1 then 0 else min 15 (r.2.2 + 1))

theorem min_fifteen_mod (n : Nat) : min 15 n % 16 = min 15 n := by omega

theorem World.cupRec_cupRecord (w : World) (h : Half) (n : Nat) {res reason : Nat} (m : CupMeas) (hres : res < 4) (hreason : reason < 16) :
    (w.cupRecord h n res reason m).cupRec h n = cupRecNext (w.cupRec h n) res reason := by
  simp (disch := decide) only [World.cupRec, World.cupRecord, List.foldl_cons, List.foldl_nil, World.rd_updShut, World.rd_wrI_apart,
    World.rd_wr_apart, World.rd_wr_same, World.untestedNext, cupRecNext]
  rw [Nat.mod_eq_of_lt (show res < 2 ^ 2 from hres), Nat.mod_eq_of_lt (show reason < 2 ^ 4 from hreason)]
  split
  · rfl
  · rw [show (2 : Nat) ^ F.CUP_REC_W0.UNTESTED.w = 16 from rfl, min_fifteen_mod]

theorem World.rd_cupRecord_syndrome (w : World) (h : Half) (n res reason : Nat) (m : CupMeas) :
    (w.cupRecord h n res reason m).rd h F.CUP_REC_W2.SYNDROME n = m.syndrome % 2 ^ 32 := by
  simp (disch := decide) only [World.cupRecord, List.foldl_cons, List.foldl_nil, World.rd_updShut, World.rd_wrI_apart, World.rd_wr_apart,
    World.rd_wr_same]

/-- A record written leaves every other island's fields. -/
theorem World.rd_cupRecord_other (w : World) (h : Half) (n res reason : Nat) (m : CupMeas) (f : Field) (hf : f.reg < 2 ^ 25) {j : Nat} (hj : j ≠ n) :
    (w.cupRecord h n res reason m).rd h f j = w.rd h f j := by
  simp only [World.cupRecord, List.foldl_cons, List.foldl_nil, World.rd_updShut, World.wrI]
  simp (disch := first | assumption | decide) only [World.rd_wr_idx]

@[simp] theorem World.cupRecord_shut (w : World) (h : Half) (n res reason : Nat) (m : CupMeas) :
    (w.cupRecord h n res reason m).shut = w.shut.upd h fun x => { x with tested := n :: x.tested } := by
  simp [World.cupRecord]

theorem World.cupRec_cupSkip (w : World) (h : Half) {reason : Nat} (n : Nat) (hreason : reason < 16) :
    (w.cupSkip h reason n).cupRec h n = cupRecNext (w.cupRec h n) 3 reason :=
  World.cupRec_cupRecord _ _ _ _ (by decide) hreason

theorem World.cupRec_cupSkip_other (w : World) (h : Half) (reason n : Nat) {j : Nat} (hj : j ≠ n) :
    (w.cupSkip h reason n).cupRec h j = w.cupRec h j := by
  simp (disch := first | exact hj | decide) only [World.cupRec, World.cupSkip, World.rd_cupRecord_other]
  rfl

@[simp] theorem World.cupSkip_shut (w : World) (h : Half) (reason n : Nat) :
    (w.cupSkip h reason n).shut = w.shut.upd h fun x => { x with tested := n :: x.tested } := World.cupRecord_shut _ _ _ _ _ _

theorem World.cupRec_cupEnd (w : World) (h : Half) (n : Nat) (m : CupMeas) {c : Nat} (hc : c < 16) :
    (w.cupEnd h n m (some c)).cupRec h n = cupRecNext (w.cupRec h n) 2 c := World.cupRec_cupRecord _ _ _ _ (show 2 < 4 by decide) hc

theorem World.cupRec_cupEnd_other (w : World) (h : Half) (n : Nat) (m : CupMeas) (c : Option Nat) {j : Nat} (hj : j ≠ n) :
    (w.cupEnd h n m c).cupRec h j = w.cupRec h j := by
  simp (disch := first | exact hj | decide) only [World.cupRec, World.cupEnd, World.rd_cupRecord_other]

/-! The records of a run. -/

/-- The registers of Cupping's records. -/
def cupRegs : List Nat := [0x1300200, 0x1300204, 0x1300208, 0x130020C]

theorem World.rd_cupRecord_out (w : World) (h g : Half) (n res reason : Nat) (m : CupMeas) (f : Field) (i : Nat) (hf : outside cupRegs f = true) :
    (w.cupRecord h n res reason m).rd g f i = w.rd g f i :=
  (World.cupRecord_rest (by decide) (Rest.refl ([.shut] ++ cupRegs.map .reg) w)).rd_outside (by decide) hf g i

theorem World.rd_cupSkip_out (w : World) (h g : Half) (reason n : Nat) (f : Field) (i : Nat) (hf : outside cupRegs f = true) :
    (w.cupSkip h reason n).rd g f i = w.rd g f i := World.rd_cupRecord_out _ h g _ _ _ _ f i hf

theorem World.mem_unrecorded_iff {w : World} {h : Half} {n : Nat} : n ∈ w.unrecorded h ↔ n < 40 ∧ n ∉ (w.shut.get h).tested := by
  simp [World.unrecorded]

theorem World.mem_underTest_iff {w : World} {h : Half} {n : Nat} :
    n ∈ w.underTest h ↔ n ∈ cupGroup (w.rd h F.CUP_STATUS.GROUP) ∧ n ∉ (w.shut.get h).tested := by
  simp [World.underTest]

theorem cupGroup_nodup (g : Nat) : (cupGroup g).Nodup := by
  unfold cupGroup
  split <;> decide

theorem World.underTest_nodup (w : World) (h : Half) : (w.underTest h).Nodup := (cupGroup_nodup _).filter _

theorem World.unrecorded_nodup (w : World) (h : Half) : (w.unrecorded h).Nodup := List.nodup_range.filter _

/-- With every island skipped, those without a record have one that says so; the records are due (R110, R112, R116). -/
theorem World.cupSkipAll_leaves (w : World) (h : Half) {reason : Nat} (hr : reason < 16) :
    (w.cupSkipAll h reason).rd h F.CUP_STATUS.PHASE = 4 ∧ (w.cupSkipAll h reason).rd h F.CUP_STATUS.GROUP = 0 ∧
      (∀ n ∈ w.unrecorded h, (w.cupSkipAll h reason).cupRec h n = cupRecNext (w.cupRec h n) 3 reason) ∧
      ∀ n ∉ w.unrecorded h, (w.cupSkipAll h reason).cupRec h n = w.cupRec h n := by
  obtain ⟨hin, hout⟩ := World.forAll_at (fun u n => u.cupRec h n) id (fun r _ => cupRecNext r 3 reason)
    (fun u n => u.cupRec_cupSkip h n hr) (fun u n _ hj => u.cupRec_cupSkip_other h reason n hj) (l := w.unrecorded h)
    (by simpa using w.unrecorded_nodup h) w
  have hrec (u : World) (n : Nat) : ((u.wr h F.CUP_STATUS.GROUP 0 0).cupPhase h 4).cupRec h n = u.cupRec h n := by
    simp (disch := decide) only [World.cupRec, World.cupPhase, World.rd_wr_apart]
  refine ⟨?_, ?_, fun n hn => (hrec _ n).trans (hin n hn), fun n hn => (hrec _ n).trans (hout n (by simpa using hn))⟩
  · exact World.rd_wr_same _ _ _ _ _ (by decide)
  · rw [World.cupSkipAll, World.cupPhase, World.rd_wr_apart _ _ _ _ _ _ _ _ (by decide), World.rd_wr_same _ _ _ _ _ (by decide)]
    rfl

theorem World.tested_forAll {α : Type} (h : Half) (key : α → Nat) {f : World → α → World}
    (hf : ∀ u a, (f u a).shut = u.shut.upd h fun x => { x with tested := key a :: x.tested }) (l : List α) (w : World) (n : Nat) :
    n ∈ ((w.forAll l f).shut.get h).tested ↔ n ∈ l.map key ∨ n ∈ (w.shut.get h).tested := by
  unfold World.forAll
  induction l generalizing w with
  | nil => simp
  | cons a l ih =>
    rw [List.foldl_cons, ih]
    simp only [hf, Two.get_upd_same, List.mem_cons, List.map_cons]
    tauto

/-- With the run stopped, what was under test is incomplete and the rest skipped (R107, R116, R117). -/
theorem World.cupStop_leaves (w : World) (h : Half) {reason : Nat} (hr : reason < 16) (l : List CupMeas) :
    (w.cupStop h reason l).rd h F.CUP_STATUS.PHASE = 4 ∧ (w.cupStop h reason l).rd h F.CUP_STATUS.GROUP = 0 ∧
      ∀ n ∈ w.unrecorded h, (w.cupStop h reason l).cupRec h n = cupRecNext (w.cupRec h n) (if n ∈ w.underTest h then 2 else 3) reason := by
  unfold World.cupStop
  obtain ⟨hin, hout⟩ := World.forAll_at (fun u n => u.cupRec h n) (fun x : Nat × Nat => x.1) (fun r _ => cupRecNext r 2 reason)
    (f := fun w x => w.cupEnd h x.1 (l.getD x.2 {}) (some reason)) (fun u x => u.cupRec_cupEnd h x.1 _ hr)
    (fun u x _ hj => u.cupRec_cupEnd_other h x.1 _ _ hj) (l := (w.underTest h).zipIdx)
    (by simpa using w.underTest_nodup h) w
  have htested := World.tested_forAll h (fun x : Nat × Nat => x.1) (f := fun w x => w.cupEnd h x.1 (l.getD x.2 {}) (some reason))
    (fun u x => World.cupRecord_shut _ _ _ _ _ _) (w.underTest h).zipIdx w
  generalize w.forAll (w.underTest h).zipIdx (fun w x => w.cupEnd h x.1 (l.getD x.2 {}) (some reason)) = u at hin hout htested ⊢
  simp only [List.zipIdx_map_fst] at htested hout
  obtain ⟨hphase, hgroup, hskip, hkeep⟩ := u.cupSkipAll_leaves h hr
  refine ⟨hphase, hgroup, fun n hn => ?_⟩
  obtain ⟨h40, hnt⟩ := World.mem_unrecorded_iff.mp hn
  by_cases hu : n ∈ w.underTest h
  · rw [if_pos hu, hkeep n (by rw [World.mem_unrecorded_iff, htested]; exact fun hc => hc.2 (.inl hu))]
    have hx : n ∈ (w.underTest h).zipIdx.map Prod.fst := by rwa [List.zipIdx_map_fst]
    obtain ⟨x, hmem, rfl⟩ := List.mem_map.mp hx
    exact hin x hmem
  · rw [if_neg hu, hskip n (by rw [World.mem_unrecorded_iff, htested]; exact ⟨h40, fun hc => hc.elim hu hnt⟩), hout n hu]

theorem cupGroup_lt {g n : Nat} (hn : n ∈ cupGroup g) : n < 40 := by
  unfold cupGroup at hn
  split at hn <;> simp at hn <;> omega

theorem cupResult_lt (m : CupMeas) : (cupResult m none).1 < 4 ∧ (cupResult m none).2 < 16 := by
  unfold cupResult
  dsimp only
  split_ifs <;> decide

/-- With clearing done and nothing tested, the first group of the order is in scan (R110, R112). -/
theorem World.cupNext_first {w : World} {h : Half} (horder : (w.shut.get h).order = [1, 2, 3, 4]) (htested : (w.shut.get h).tested = [])
    (hgroup : w.rd h F.CUP_STATUS.GROUP = 0) : w.cupNext h = w.wr h F.CUP_STATUS.GROUP 0 1 := by
  have hnone : w.underTest h = [] := by rw [World.underTest, hgroup]; rfl
  have hfirst : [1, 2, 3, 4].find? (fun g => (cupGroup g).any fun n => !([] : List Nat).contains n) = some 1 := by decide
  simp only [World.cupNext, hnone, horder, htested, hfirst, List.isEmpty_nil, Bool.not_true, Bool.false_eq_true, if_false]

/-- The records written: the summary's counts, the run's number (R105 step 5). -/
theorem World.cupWritten_leaves (w : World) (h : Half) :
    (w.cupWritten h).rd h F.CUP_STATUS.PHASE = 5 ∧ (w.cupWritten h).rd h F.CUP_RUN.RUN = (w.rd h F.CUP_RUN.RUN + 1) % 65536 ∧
      (w.cupWritten h).rd h F.CUP_SUMMARY.PASS = w.cupCount h 0 ∧ (w.cupWritten h).rd h F.CUP_SUMMARY.FAIL = w.cupCount h 1 := by
  have hcount (r : Nat) : w.cupCount h r % 2 ^ 6 = w.cupCount h r := by
    refine Nat.mod_eq_of_lt (lt_of_le_of_lt (List.length_filter_le _ _) ?_)
    rw [List.length_range]
    decide
  refine ⟨?_, ?_, ?_, ?_⟩ <;>
    simp (disch := decide) only [World.cupWritten, World.cupPhase, World.rd_wr_same, World.rd_wr_apart, hcount] <;> rfl

/-- The pack's measurement shows in its life counter alone (R472). -/
theorem World.rd_holdupMeasure (w : World) (e : Nat) (h : Half) (f : Field) (i : Nat) (hf : outside [F.STW_LIFE_HOLD.DUE.reg] f = true) :
    (w.holdupMeasure e).rd h f i = w.rd h f i :=
  (World.holdupMeasure_rest (by decide) (Rest.refl [.svc, .reg F.STW_LIFE_HOLD.DUE.reg] w)).rd_outside (by decide) hf h i

@[simp] theorem World.holdupMeasure_shut (w : World) (e : Nat) : (w.holdupMeasure e).shut = w.shut :=
  (World.holdupMeasure_rest (by decide) (Rest.refl (allBut .shut) w)).shut (by decide)

/-! What a shutdown stores (R105 step 2). -/

theorem World.cartActive_logs (w : World) (h g : Half) (k : Option Nat) : ((w.cartActive h k).evt.get g).logs = (w.evt.get g).logs := by
  unfold World.cartActive
  dsimp only
  rw [(World.flxMirror_rest (by decide) (Rest.refl (allBut .evt) _)).evt (by decide), World.raise_logs]
  simp [World.updFlx]

theorem World.when_logs {w : World} {c : Bool} {f : World → World} {g : Half} (hf : ((f w).evt.get g).logs = (w.evt.get g).logs) :
    ((w.when c f).evt.get g).logs = (w.evt.get g).logs := by
  cases c
  · rfl
  · exact hf

theorem World.flxClose_logs (w : World) (h g : Half) (k reason : Nat) : ((w.flxClose h k reason).evt.get g).logs = (w.evt.get g).logs := by
  unfold World.flxClose
  extract_lets was w1 o w2 w3 w4 w5
  have hsend : w1.evt = w.evt := by
    rw [World.apply_when World.evt, (World.flxSend_rest (by decide) (Rest.refl (allBut .evt) w)).evt (by decide), ite_self]
  have hwritten : w4.evt = w.evt := by simp [w4, w3, w2, World.updFlx, hsend]
  have hraised : (w5.evt.get g).logs = (w.evt.get g).logs := by
    rw [(World.flxMirror_rest (by decide) (Rest.refl (allBut .evt) _)).evt (by decide),
        World.when_logs (f := (·.raise h 195 (evArg k 0xFF 0))) (w4.raise_logs h g _ _), hwritten]
  rw [World.when_logs (f := (·.cartActive h none)) (w5.cartActive_logs h g _), hraised]

/-- The sessions closed by a shutdown leave the logs. -/
theorem World.flxShutdown_logs (w : World) (h g : Half) : ((w.flxShutdown h).evt.get g).logs = (w.evt.get g).logs :=
  World.forAll_keeps (fun w => (w.evt.get g).logs) (fun u _ => u.flxClose_logs h g _ _) _ w

/-- Step 2 saves the log as it stands in memory. -/
theorem World.saveStep2_leaves (w : World) (h : Half) (b : Bool) : ((w.saveStep2 h b).evt.get h).flash = logOf (w.dram.get h) ∧
    ((w.saveStep2 h b).shut.get h).step = (w.shut.get h).step ∧ ((w.saveStep2 h b).shut.get h).runAt = (w.shut.get h).runAt ∧
      (w.saveStep2 h b).dram = w.dram := by
  unfold World.saveStep2
  extract_lets w1 w2 w3 w4
  have e1 : Rest [.tim, .gns] w1 w := World.storeAiding_rest (by decide) (World.storeTime_rest (by decide) (Rest.refl _ w))
  have e4 : Rest [.opt, .yld] w4 w2 := Rest.when (Rest.when (Rest.refl _ _) fun _ hu => World.optSave_rest (by decide) hu) fun _ hu =>
    Rest.set_yld (by decide) hu _
  have e5 : Rest ([.evt, .flx] ++ [0x100018, 0xA00104, 0xA00108, 0xA0010C, 0xA00140].map .reg) (w4.flxShutdown h) w4 :=
    World.flxShutdown_rest (by decide) (Rest.refl _ _)
  refine ⟨?_, ?_, ?_, ?_⟩
  · change (((w4.flxShutdown h).evt.get h).logs).1 = _
    rw [World.flxShutdown_logs, e4.evt (by decide), ← e1.dram (by decide)]
    simp [w2, Router.logs]
  · rw [World.shut_updShut, Two.get_upd_same, e5.shut (by decide), e4.shut (by decide), ← e1.shut (by decide)]
  · rw [World.shut_updShut, Two.get_upd_same, e5.shut (by decide), e4.shut (by decide), ← e1.shut (by decide)]
  · rw [World.dram_updShut, e5.dram (by decide), e4.dram (by decide), ← e1.dram (by decide)]

/-- Steps 1 and 2: the log saved, the shutdown begun, no token moved (R105). -/
theorem State.shutBegin_leaves (s : State) (h : Half) : ((s.shutBegin h).w.shut.get h).step = 1 ∧ ((s.shutBegin h).w.shut.get h).runAt = s.w.now ∧
    ((s.shutBegin h).w.evt.get h).flash = logOf ((s.shutBegin h).w.dram.get h) ∧ (s.shutBegin h).own = s.own := by
  unfold State.shutBegin State.shutStep2
  extract_lets l s1 b
  have hown : (s1.when b State.replayJournal).own = s1.own := State.when_keeps (·.own) (State.replayJournal_own _)
  have hshut : (s1.when b State.replayJournal).w.shut = s.w.shut.upd h fun x => { x with step := 1, runAt := s.w.now } := by
    rw [State.when_keeps (·.w.shut) ((State.replayJournal_rest (by decide) (Rest.refl (allBut .shut) _)).shut (by decide))]
    exact World.forAll_keeps World.shut (fun u k => (World.greenObj_rest (by decide) (Rest.refl (allBut .shut) u)).shut (by decide)) _ _
  obtain ⟨hflash, hstep, hrun, hdram⟩ := (s1.when b State.replayJournal).w.saveStep2_leaves h b
  rw [hshut] at hstep hrun
  exact ⟨hstep.trans (by simp), hrun.trans (by simp), by rw [State.onW_w, hflash, hdram], hown⟩

/-- A half held does not run. -/
theorem State.run_hold (s : State) (h : Half) (cause : Nat) :
    (s.hold h cause).w.run = s.w.run.upd h fun r => { r with running := false, cause := cause } := by
  unfold State.hold
  rw [(State.fall_rest (by decide) (Rest.refl (allBut .run) _)).run (by decide)]
  rfl

/-- Cupping enabled, its controller in order: the half is held, secrets are cleared first (R110, R112). -/
theorem State.cupStart_leaves {s : State} {h : Half} {c : CupCond} (hen : s.w.rd h F.CUP_CTRL.EN = 1) (hc : c.ctrlOk = true) :
    ((s.cupStart h c).w.shut.get h).step = 4 ∧ ((s.cupStart h c).w.shut.get h).tested = [] ∧
      (s.cupStart h c).w.rd h F.STW_STAGE.STAGE = 3 ∧ (s.cupStart h c).w.rd h F.CUP_STATUS.PHASE = 2 ∧
      ((s.cupStart h c).w.run.get h).running = false := by
  have hrun : ((s.hold h 0).w.run.get h).running = false := by rw [State.run_hold, Two.get_upd_same]
  unfold State.cupStart
  generalize s.hold h 0 = u at hrun ⊢
  simp only [World.flag, hen, hc, decide_true, Bool.not_true, Bool.false_and, Bool.false_eq_true, if_false, if_true, State.onW_w, World.cupPhase]
  refine ⟨?_, ?_, ?_, ?_, ?_⟩ <;> simp (disch := decide) [World.rd_wr_same, World.rd_wr_apart, World.rd_wrI_apart, hrun]

/-! A wake request (R117). -/

/-- What a wake request leaves of the shutdown that it stops. -/
def World.wakeStops (w : World) (h : Half) (l : List CupMeas) : World :=
  (w.when ((w.shut.get h).step = 4) fun w => (w.when (w.rd h F.CUP_STATUS.PHASE ≠ 4) (·.cupStop h 2 l)).cupWritten h).updShut h fun y =>
    { Shut.init with trunc := y.trunc }

theorem World.wakeStops_leaves (w : World) (h : Half) (l : List CupMeas) :
    (w.wakeStops h l).run = w.run ∧ ((w.wakeStops h l).shut.get h).step = 0 := by
  refine ⟨?_, by simp [World.wakeStops, Shut.init]⟩
  exact (Rest.when (q := allBut .run) (Rest.refl _ w) fun _ hu => World.cupWritten_rest (by decide) (Rest.when hu fun _ hv =>
    World.cupStop_rest (by decide) hv)).run (by decide)

/-- A half released from reset: what else it changes is in the sibling's endpoint. -/
theorem State.letRun_w (s : State) (h : Half) (cause : Nat) : ∃ x, (s.letRun h cause).w = { s.w.halfFresh h cause with xng := x } := by
  have hrise (u : State) (c : Bool) : ∃ x, (u.when c (·.onW (·.aliveRise h))).w = { u.w with xng := x } := by
    cases c
    · exact ⟨u.w.xng, rfl⟩
    · exact ⟨_, rfl⟩
  exact hrise ((State.onW { s with bus := { s.bus with port := s.bus.port.set h [] } } (·.halfFresh h cause)).onOwn fun o => { o with
    low := o.low.upd h fun l => { l with heldReset := false, watchdog := false, fenced := false } }) _

theorem State.letRun_ledger (s : State) (h : Half) (cause : Nat) : (s.letRun h cause).ledger = s.ledger :=
  (State.letRun_side (q0 := [.own, .bus]) (by decide) (Side.refl _ s)).2.2.1 rfl

theorem World.halfFresh_shut (w : World) (h : Half) (cause : Nat) : ((w.halfFresh h cause).shut.get h).step = 0 := by
  rw [(w.halfFresh_shown h cause).shut (by decide)]
  simp [World.freshUnits, Shut.init]

theorem State.letRun_shut (s : State) (h : Half) (cause : Nat) : ((s.letRun h cause).w.shut.get h).step = 0 := by
  obtain ⟨x, hx⟩ := s.letRun_w h cause
  simp only [hx]
  exact s.w.halfFresh_shut h cause

/-- A half released from reset keeps its debug port as it was. -/
theorem World.halfFresh_dbg (w : World) (h : Half) (cause : Nat) : ((w.halfFresh h cause).upd.get h).dbg = (w.upd.get h).dbg := by
  have hregion (u : World) (r : Nat) (x : Region) : ((u.setRegion h r x).upd.get h).dbg = (u.upd.get h).dbg := by
    simp [World.setRegion, World.updUpd]
  have hnonce (u : World) : ((u.drawNonce h).upd.get h).dbg = (u.upd.get h).dbg := by simp [World.drawNonce, World.updUpd, World.free]
  rw [show w.halfFresh h cause = ((((w.freshUnits h cause).forAll (List.range' 1 7) fun w k =>
    w.setRegion h k (w.region h k)).showKeys h).drawNonce h).latchEval from rfl,
    (World.latchEval_rest (by decide) (Rest.refl (allBut .upd) _)).upd (by decide), hnonce,
    (World.showKeys_rest (by decide) (Rest.refl (allBut .upd) _)).upd (by decide),
    World.forAll_keeps (fun u => (u.upd.get h).dbg) (fun u k => hregion u k _)]
  simp [World.freshUnits]

theorem World.halfFresh_logicValid (w : World) (h : Half) (cause : Nat) : (w.halfFresh h cause).latch.logicValid = w.latch.logicValid := by
  have e : Rest ([.fresh, .evt, .upd] ++ [0x80, 0x88, 0x100018, 0x1100028, 0x1100040, 0x1100060, 0x1100080, 0x11000C0, 0x1400018, 0x1400020, 0x1400030,
      0x1400040, 0x1400080].map .reg) ((((w.freshUnits h cause).forAll (List.range' 1 7) fun w k => w.setRegion h k (w.region h k)).showKeys
      h).drawNonce h) (w.freshUnits h cause) :=
    World.drawNonce_rest (by decide) (World.showKeys_rest (by decide) (Rest.forAll (Rest.refl _ _) fun _ _ hu => World.setRegion_rest (by decide) hu))
  rw [show w.halfFresh h cause = ((((w.freshUnits h cause).forAll (List.range' 1 7) fun w k =>
    w.setRegion h k (w.region h k)).showKeys h).drawNonce h).latchEval from rfl, World.latchEval_latch, e.latch (by decide)]
  simp [World.freshUnits]

/-- What allowed a half to run still allows it when it runs. -/
theorem State.mayRun_letRun {s : State} {h : Half} (cause : Nat) (hm : s.mayRun h = true) : (s.letRun h cause).mayRun h = true := by
  obtain ⟨x, hx⟩ := s.letRun_w h cause
  obtain ⟨-, -, hown, -⟩ := s.letRun_leaves h cause
  have e := World.halfFresh_rest (h := h) (cause := cause) (by decide)
    (Rest.refl [.fresh, .run, .evt, .xng, .shut, .frame, .tim, .set, .opt, .uin, .yld, .pose, .grd, .trk, .gns, .flx, .upd, .latch, .regs] s.w)
  have hrd : (s.w.halfFresh h cause).rd .A F.PWR_SHDN.ASSERTED = s.w.rd .A F.PWR_SHDN.ASSERTED := by
    rw [World.rd, (s.w.halfFresh_shown h cause).reg _ _ _ (by decide), ← World.rd]
    simp (disch := decide) only [World.freshUnits, World.rd_wr_apart, World.rd_hidden, World.rd_updRun]
    rfl
  simp only [State.mayRun, hx, hown, World.flag, World.rd_hidden, hrd, World.halfFresh_dbg, World.halfFresh_shut, World.halfFresh_logicValid,
    e.svc (by decide), e.pwr (by decide), e.now (by decide), Two.get_upd_same] at hm ⊢
  simp only [Bool.and_eq_true] at hm ⊢
  simp [hm]

theorem State.onW_wakeStops (s : State) (h : Half) (m : List CupMeas) :
    (s.onW fun w => (w.when ((s.w.shut.get h).step = 4) fun w => (w.when (w.rd h F.CUP_STATUS.PHASE ≠ 4) (·.cupStop h 2 m)).cupWritten h).updShut
      h fun y => { Shut.init with trunc := y.trunc }) = s.onW (·.wakeStops h m) := by
  unfold State.onW World.wakeStops
  rfl

theorem exec_wakeRequest {s : State} {h : Half} (m : List CupMeas) (hk : s.w.latch.keyOn = true) (hstep : 4 ≤ (s.w.shut.get h).step)
    (hp : s.w.latch.pwrHold = true) : exec (.wakeRequest h none m) s =
      .next ((s.onW (·.wakeStops h m)).when ((s.onW (·.wakeStops h m)).mayRun h) (·.letRun h 7)) := by
  change execWakeRequest h none m s = _
  unfold execWakeRequest
  dsimp only
  rw [hk, hp, decide_eq_true hstep, Bool.or_true, Bool.and_self, Bool.and_self, State.when_true, ← State.onW_wakeStops]

/-- The next group changes CUP_STATUS alone. -/
theorem World.cupNext_rec (w : World) (h : Half) : (∀ f i, outside [F.CUP_STATUS.GROUP.reg] f = true → (w.cupNext h).rd h f i = w.rd h f i) ∧
    (w.cupNext h).shut = w.shut :=
  have e := World.cupNext_rest (h := h) (by decide) (Rest.refl [.reg F.CUP_STATUS.GROUP.reg] w)
  ⟨fun _ i hf => e.rd_outside (by decide) hf h i, e.shut (by decide)⟩

end Sys2Proof.Machine
end

section
open Sys2Proof Sys2Proof.Machine

/-- Settles O17: the shutdown's steps from what each leaves, the records from what one record leaves. -/
theorem shutdownAndCupping : Obligations.shutdownAndCupping := by
  unfold Obligations.shutdownAndCupping
  refine ⟨?begin, ?release, ?cup, ?keyOn, ?written, ?wake, ?ack, ?clear, ?clearOut, ?clearLate, ?testEnd, ?condition, ?budget, ?budgetNot⟩
  case begin =>
    intro h c s hseen hk hrun hstep hbloom hskip
    have hexec : exec (.shutdown h 1 c) s = .next (s.shutBegin h) := by
      change execShutdown h 1 c s = _
      simp [execShutdown, hseen, hk, hrun, hstep, World.flag, hbloom, hskip]
    exact .of_exec hexec (s.shutBegin_leaves h)
  case release =>
    intro h c s hseen hk hrun hstep hat
    have hexec : exec (.shutdown h 3 c) s = .next ((s.forAll (s.own.ownedBy h) fun s k => s.orphan k h).onW fun w =>
        w.updShut h fun x => { x with step := 3 }) := by
      change execShutdown h 3 c s = _
      simp [execShutdown, hseen, hk, hrun, hstep, State.shutRelease, hat]
    refine .of_exec hexec ⟨by simp, fun k hkn => ⟨fun ho => ?_, fun ho => ?_⟩⟩
    · rw [State.own_onW, State.token_orphans, if_pos (mem_ownedBy_iff.mpr ⟨hkn, ho⟩)]
    · rw [State.own_onW, State.token_orphans, if_neg (fun hm => ho (mem_ownedBy_iff.mp hm).2)]
  case cup =>
    intro h c s hseen hk hrun hstep hsess hc hen
    have hexec : exec (.shutdown h 4 c) s = .next (s.cupStart h c) := by
      change execShutdown h 4 c s = _
      simp [execShutdown, hseen, hk, hrun, hstep, hsess]
    obtain ⟨hst, htested, hstage, hphase, hrunning⟩ := s.cupStart_leaves (h := h) hen hc
    exact .of_exec hexec ⟨hst, htested, hrunning, State.alive_fall _ _ _, hstage, hphase⟩
  case keyOn =>
    intro h k c s hk
    refine .of_exec rfl ?_
    split <;> simp [hk]
  case written =>
    intro h e s hstep hphase
    have hexec : exec (.cuppingRecordsWritten h e) s = .next ((s.onW fun w =>
        ((w.cupWritten h).updShut h fun x => { x with step := 5 }).setHoldReq h false).when
          ((s.onW fun w => ((w.cupWritten h).updShut h fun x => { x with step := 5 }).setHoldReq h false).shutDone h.other) fun s =>
            s.onW (·.holdupMeasure e)) := by
      change execCuppingRecordsWritten h e s = _
      simp [execCuppingRecordsWritten, World.cupIn, hstep, hphase]
    obtain ⟨hp, hr, hpass, hfail⟩ := s.w.cupWritten_leaves h
    have hkeep (f : Field) (hf : outside [F.STW_LIFE_HOLD.DUE.reg] f = true) (u : State) (c : Bool) :
        (u.when c fun s => s.onW (·.holdupMeasure e)).w.rd h f = u.w.rd h f :=
      State.when_keeps (fun s => s.w.rd h f) (World.rd_holdupMeasure _ _ _ _ _ hf)
    refine .of_exec hexec ⟨?_, ?_, ?_, ?_, ?_, ?_, exec_quiet hexec rfl⟩
    · exact (State.when_keeps (fun s => (s.w.shut.get h).step) (by rw [State.onW_w, World.holdupMeasure_shut])).trans (by simp [World.setHoldReq])
    · rw [hkeep _ (by decide), State.onW_w, World.rd_setHoldReq]
      rfl
    all_goals
      rw [hkeep _ (by decide), State.onW_w, World.rd_setHoldReq_apart _ _ _ _ _ _ (by decide) (by decide), World.rd_updShut]
      assumption
  case wake =>
    intro h m s hk hstep hp hrun
    have hexec := exec_wakeRequest m hk hstep hp
    obtain ⟨hr, hs⟩ := s.w.wakeStops_leaves h m
    cases hm : (s.onW (·.wakeStops h m)).mayRun h with
    | false =>
      rw [hm, State.when_false] at hexec
      refine .of_exec hexec ⟨?_, ?_, hs, rfl⟩
      · rw [State.onW_w, hr, hrun, hm]
      · exact fun ht => nomatch hm.symm.trans ht
    | true =>
      rw [hm, State.when_true] at hexec
      have hmay := State.mayRun_letRun 7 hm
      obtain ⟨-, hrunning, -, -⟩ := (s.onW (·.wakeStops h m)).letRun_leaves h 7
      refine .of_exec hexec ⟨?_, fun _ => ?_, State.letRun_shut _ _ _, ?_⟩
      · rw [hrunning, World.run_halfFresh, hmay]
      · rw [hrunning, World.run_halfFresh]
      · exact State.letRun_ledger _ _ _
  case ack =>
    intro h init s hrun
    have hexec : exec (.cupAck h init) s = _ := rfl
    exact .of_exec hexec ⟨by simp (disch := decide) [hrun, World.rd_wr_same], exec_regsBut hexec rfl, exec_quiet hexec rfl⟩
  case clear =>
    intro h s hstep hphase horder htested hgroup
    have hexec : exec (.secretClearDone h) s = .next { s with
        w := ((s.w.wr h F.CUP_STATUS.CLEAR_DONE 0 1).cupPhase h 3).wr h F.CUP_STATUS.GROUP 0 1 } := by
      change execSecretClearDone h s = _
      have hg : ((s.w.wr h F.CUP_STATUS.CLEAR_DONE 0 1).cupPhase h 3).rd h F.CUP_STATUS.GROUP = 0 := by
        simp (disch := decide) [World.cupPhase, World.rd_wr_apart, hgroup]
      have hnext := World.cupNext_first (w := (s.w.wr h F.CUP_STATUS.CLEAR_DONE 0 1).cupPhase h 3) (by simpa [World.cupPhase] using horder)
        (by simpa [World.cupPhase] using htested) hg
      simp [execSecretClearDone, World.cupIn, hstep, hphase, hnext]
    refine .of_exec hexec ⟨?_, ?_, ?_, exec_quiet hexec rfl⟩ <;>
      simp (disch := decide) [World.cupPhase, World.rd_wr_same, World.rd_wr_apart]
  case clearOut =>
    intro h s hphase
    exact .of_exec rfl (by simp [World.cupIn, hphase])
  case clearLate =>
    intro h s hstep hphase hat
    have hexec : exec (.secretClearTimeout h) s = .next { s with w := s.w.cupSkipAll h 7 } := by
      change execSecretClearTimeout h s = _
      simp [execSecretClearTimeout, World.cupIn, hstep, hphase, ms, hat]
    obtain ⟨hp, -, hrec, -⟩ := s.w.cupSkipAll_leaves h (show 7 < 16 by decide)
    refine .of_exec hexec ⟨hp, fun n hn ht => ?_, exec_quiet hexec rfl⟩
    simpa [World.cupRec, cupRecNext] using hrec n (World.mem_unrecorded_iff.mpr ⟨hn, ht⟩)
  case testEnd =>
    intro h n m s hstep hphase hn
    have hexec : exec (.islandTestEnd h n m) s = .next { s with w := (s.w.cupEnd h n m none).cupNext h } := by
      change execIslandTestEnd h n m s = _
      simp [execIslandTestEnd, World.cupIn, hstep, hphase, hn]
    obtain ⟨hrd, hshut⟩ := (s.w.cupEnd h n m none).cupNext_rec h
    have hrec : (s.w.cupEnd h n m none).cupRec h n = cupRecNext (s.w.cupRec h n) (cupResult m none).1 (cupResult m none).2 :=
      World.cupRec_cupRecord _ _ _ _ (cupResult_lt m).1 (cupResult_lt m).2
    simp only [World.cupRec, cupRecNext, Prod.mk.injEq] at hrec
    obtain ⟨hres, hreason, huntested⟩ := hrec
    have hsyn : (s.w.cupEnd h n m none).rd h F.CUP_REC_W2.SYNDROME n = m.syndrome % 2 ^ 32 := World.rd_cupRecord_syndrome _ _ _ _ _ _
    refine .of_exec hexec ⟨by rw [hshut]; simp [World.cupEnd], exec_quiet hexec rfl, ?_, ?_, ?_, ?_⟩ <;> intro hcnt
    · intro hfin hmisr
      simp (disch := decide) [hrd, hres, huntested, cupResult, hcnt, hfin, hmisr]
    · intro hfin hmisr
      simp (disch := decide) [hrd, hres, huntested, hsyn, cupResult, hcnt, hfin, hmisr]
    · simp (disch := decide) [hrd, hres, huntested, hreason, cupResult, hcnt]
    · intro hfin
      simp (disch := decide) [hrd, hres, hreason, cupResult, hcnt, hfin]
  case condition =>
    intro h n r m s hstep hphase h4 h6 hn ht
    have hexec : exec (.islandConditionFail h n r m) s = .next { s with
        w := (if n ∈ s.w.underTest h then s.w.cupEnd h n m (some r) else s.w.cupSkip h r n).cupNext h } := by
      change execIslandConditionFail h n r m s = _
      by_cases hu : n ∈ s.w.underTest h <;>
        simp [execIslandConditionFail, World.cupIn, hstep, hphase, h4, h6, World.mem_unrecorded_iff, hn, ht, hu]
    obtain ⟨hrd, hshut⟩ := (if n ∈ s.w.underTest h then s.w.cupEnd h n m (some r) else s.w.cupSkip h r n).cupNext_rec h
    have hr : r < 16 := by omega
    have hrec : (if n ∈ s.w.underTest h then s.w.cupEnd h n m (some r) else s.w.cupSkip h r n).cupRec h n =
        cupRecNext (s.w.cupRec h n) (if n ∈ s.w.underTest h then 2 else 3) r := by
      split
      · exact World.cupRec_cupEnd _ _ _ _ hr
      · exact World.cupRec_cupSkip _ _ _ hr
    simp only [World.cupRec, cupRecNext, Prod.mk.injEq] at hrec
    refine .of_exec hexec ⟨?_, (hrd _ _ (by decide)).trans hrec.2.1, (hrd _ _ (by decide)).trans hrec.1, exec_quiet hexec rfl⟩
    rw [hshut]
    split <;> simp [World.cupEnd]
  case budget =>
    intro h m s hstep hphase hat
    have hexec : exec (.cuppingBudgetExpiry h m) s = .next { s with w := s.w.cupStop h 10 m } := by
      change execCuppingBudgetExpiry h m s = _
      simp [execCuppingBudgetExpiry, World.cupIn, hstep, hphase, sec, hat]
    obtain ⟨hp, hg, hrec⟩ := s.w.cupStop_leaves h (show 10 < 16 by decide) m
    refine .of_exec hexec ⟨hp, hg, fun n hn ht => ?_, exec_quiet hexec rfl⟩
    have hr := hrec n (World.mem_unrecorded_iff.mpr ⟨hn, ht⟩)
    simp only [World.cupRec, cupRecNext, Prod.mk.injEq] at hr
    exact ⟨hr.2.1, hr.1⟩
  case budgetNot =>
    intro h m s hat
    have h7 : ¬ (s.w.shut.get h).runAt + 7 * sec ≤ s.w.now := by simpa [sec] using hat
    exact .of_exec rfl (by simp [h7])
end

section
/-!
SUPPORT. R80, R125–R128: the operating state.
-/
namespace Sys2Proof.Machine

@[simp] theorem World.set_updSet (w : World) (h : Half) (u : SetEng → SetEng) : (w.updSet h u).set = w.set.upd h u := (rfl)
@[simp] theorem World.now_updSet (w : World) (h : Half) (u : SetEng → SetEng) : (w.updSet h u).now = w.now := (rfl)

theorem World.rd_canLeaveService (w : World) (h : Half) (f : Field) (i : Nat) (hf : outside [0x900020, 0x900030, 0x900044] f = true) :
    w.canLeaveService.rd h f i = w.rd h f i :=
  (World.canLeaveService_rest (by decide) (Rest.refl [.reg 0x900020, .reg 0x900030, .reg 0x900044] w)).rd_outside (by decide) hf h i

@[simp] theorem World.canLeaveService_set (w : World) : w.canLeaveService.set = w.set :=
  (World.canLeaveService_rest (by decide) (Rest.refl (allBut .set) w)).set (by decide)

/-- A transition taken shows its state, and the instant of it is kept (R126). -/
theorem World.transit_leaves (w : World) (h : Half) (dst : Nat) :
    (w.transit h dst).rd h F.SET_STATE.STATE = dst % 8 ∧ (w.transit h dst).rd h F.SET_STATE.LAST_REQ = w.rd h F.SET_STATE.LAST_REQ ∧
      ((w.transit h dst).set.get h).lastTrans = w.now := by
  refine ⟨?_, ?_, ?_⟩
  · simp (disch := decide) [World.transit, World.rd_raise, World.rd_when, World.rd_wrBoth_apart, World.rd_canLeaveService, World.rd_wr_same]
  · simp (disch := decide) [World.transit, World.rd_raise, World.rd_when, World.rd_wrBoth_apart, World.rd_canLeaveService, World.rd_wr_apart]
  · simp [World.transit, World.apply_when World.set]

/-- The request recorded touches nothing that the decision reads. -/
theorem World.guardHolds_lastReq (w : World) (h : Half) (v : Nat) (c : Cond) :
    (w.wr h F.SET_STATE.LAST_REQ 0 v).guardHolds h c = w.guardHolds h c := by
  simp (disch := decide) only [World.guardHolds, World.condHolds, World.opState, World.bv, World.bval, World.mfOut, World.bq, World.stopCond,
    World.flag, World.rd_wr_apart]
  rfl

theorem World.stateRefusal_lastReq (w : World) (h : Half) (v : Nat) : (w.wr h F.SET_STATE.LAST_REQ 0 v).stateRefusal h = w.stateRefusal h := by
  have hsess (g : Half) : (w.wr h F.SET_STATE.LAST_REQ 0 v).anySess g = w.anySess g := by
    unfold World.anySess World.sessOpen World.sessState
    simp (disch := decide) only [World.rd_wr_apart]
  simp (disch := decide) only [World.stateRefusal, World.stateFrozen, World.opState, World.flag, World.rd_wr_apart, World.wr_act, World.wr_shut,
    World.wr_set, World.wr_now, hsess]
  rfl

/-- The code with which the serving half answers a request: 0 where it takes the transition (R127). -/
def World.askCode (w : World) (h : Half) (dst : Nat) : Nat :=
  match (w.funcs h).trans.find? (fun t => t.src = w.opState h && t.dst = dst && (t.mode = 1 || t.mode = 3)) with
  | none => 1
  | some t => if !w.guardHolds h t.guard then 2 else w.stateRefusal h

/-- The world after a request that is refused. -/
def World.askRefused (w : World) (h : Half) (dst code : Nat) : World :=
  (((w.wr h F.SET_STATE.LAST_REQ 0 dst).wr h F.SET_STATE.REFUSE 0 code).raise h 243 (evArg dst (w.opState h) code)).when (w.act.isSome)
    fun w => w.raise h 11 (evArg 0xFFFF 0xFF 0)

theorem World.askRefused_leaves (w : World) (h : Half) (dst : Nat) {code : Nat} (hc : code < 8) :
    (w.askRefused h dst code).rd h F.SET_STATE.STATE = w.rd h F.SET_STATE.STATE ∧ (w.askRefused h dst code).rd h F.SET_STATE.REFUSE = code ∧
      (w.askRefused h dst code).set = w.set := by
  refine ⟨?_, ?_, ?_⟩
  · simp (disch := decide) [World.askRefused, World.rd_when, World.rd_raise, World.rd_wr_apart]
  · simp (disch := decide) [World.askRefused, World.rd_when, World.rd_raise, World.rd_wr_same]
    exact hc
  · simp [World.askRefused, World.apply_when World.set]

theorem exec_setStateRequest {s : State} {h : Half} (init dst : Nat) (hrun : (s.w.run.get h).running = true) (hs : s.own.server = some h) :
    exec (.setStateRequest h init dst) s = .next { s with
      w := if s.w.askCode h (dst % 8) = 0 then (s.w.wr h F.SET_STATE.LAST_REQ 0 (dst % 8)).transit h (dst % 8)
        else s.w.askRefused h (dst % 8) (s.w.askCode h (dst % 8)) } := by
  change execSetStateRequest h init dst s = _
  have hserves : s.own.serves h = true := by simp [Own.serves, hs]
  have hfuncs : ((s.w.wr h F.SET_STATE.LAST_REQ 0 (dst % 8)).funcs h) = s.w.funcs h := by simp only [World.funcs, World.wr_set]
  simp only [execSetStateRequest, lift, hrun, hserves, Bool.and_self, World.when_true, hfuncs, World.guardHolds_lastReq,
    World.stateRefusal_lastReq, World.askCode, World.askRefused]
  simp only [World.raise_act, World.wr_act]
  rfl

end Sys2Proof.Machine
end

section
open Sys2Proof Sys2Proof.Machine

/-- Settles O18: every request is answered by the code of the first reason that holds. -/
theorem operatingState : Obligations.operatingState := by
  unfold Obligations.operatingState
  refine ⟨?taken, ?noEntry, ?refused, ?notServing, ?auto, ?autoRefused⟩
  case taken =>
    intro h init dst s e hrun hs hfind hguard hact hshut h0 h5 hlast
    have hcode : s.w.askCode h (dst % 8) = 0 := by
      have hlast' : ¬ s.w.now < (s.w.set.get h).lastTrans + 10 * ms := by simpa [ms] using hlast
      simp [World.askCode, hfind, hguard, World.stateRefusal, World.stateFrozen, hact, hshut, h0, h5, hlast']
    have hexec := exec_setStateRequest init dst hrun hs
    rw [if_pos hcode] at hexec
    obtain ⟨hst, hreq, hat⟩ := (s.w.wr h F.SET_STATE.LAST_REQ 0 (dst % 8)).transit_leaves h (dst % 8)
    refine .of_exec hexec ⟨hst.trans (Nat.mod_mod _ _), hreq.trans ?_, hat.trans (by simp), exec_quiet hexec rfl⟩
    rw [World.rd_wr_same _ _ _ _ _ (by decide)]
    exact Nat.mod_mod _ _
  case noEntry =>
    intro h init dst s hrun hs hno
    have hcode : s.w.askCode h (dst % 8) = 1 := by
      have hfind : (s.w.funcs h).trans.find? (fun t => t.src = s.w.opState h && t.dst = dst % 8 && (t.mode = 1 || t.mode = 3)) = none := by
        simpa [List.find?_eq_none, and_assoc] using hno
      simp [World.askCode, hfind]
    have hexec := exec_setStateRequest init dst hrun hs
    rw [if_neg (by rw [hcode]; decide), hcode] at hexec
    obtain ⟨hst, href, hset⟩ := s.w.askRefused_leaves h (dst % 8) (show 1 < 8 by decide)
    exact .of_exec hexec ⟨hst, href, hset, exec_quiet hexec rfl⟩
  case refused =>
    intro h init dst s e hrun hs hfind
    have hexec := exec_setStateRequest init dst hrun hs
    have hanswer {code : Nat} (hcode : s.w.askCode h (dst % 8) = code) (h0 : code ≠ 0) (h8 : code < 8) :
        (if s.w.askCode h (dst % 8) = 0 then (s.w.wr h F.SET_STATE.LAST_REQ 0 (dst % 8)).transit h (dst % 8)
          else s.w.askRefused h (dst % 8) (s.w.askCode h (dst % 8))).rd h F.SET_STATE.REFUSE = code ∧
        (if s.w.askCode h (dst % 8) = 0 then (s.w.wr h F.SET_STATE.LAST_REQ 0 (dst % 8)).transit h (dst % 8)
          else s.w.askRefused h (dst % 8) (s.w.askCode h (dst % 8))).rd h F.SET_STATE.STATE = s.w.rd h F.SET_STATE.STATE := by
      obtain ⟨hst, href, -⟩ := s.w.askRefused_leaves h (dst % 8) h8
      rw [hcode, if_neg h0]
      exact ⟨href, hst⟩
    refine .of_exec hexec ⟨fun hguard => hanswer ?_ (by decide) (by decide), fun hguard hfrozen => hanswer ?_ (by decide) (by decide),
      fun hguard hact hshut h0 hcup => hanswer ?_ (by decide) (by decide)⟩
    · simp [World.askCode, hfind, hguard]
    · simp [World.askCode, hfind, hguard, World.stateRefusal, World.stateFrozen, hfrozen]
    · have hreport : (s.w.flag .A F.STW_STAGE.CUP_REPORT || s.w.flag .B F.STW_STAGE.CUP_REPORT) = true := by
        cases h <;> simp [World.flag, hcup]
      rw [h0] at hfind
      simp [World.askCode, hfind, hguard, World.stateRefusal, World.stateFrozen, hact, hshut, h0, hreport]
  case notServing =>
    intro h init dst s hs
    exact .of_exec rfl (by simp [Own.serves, hs])
  case auto =>
    intro h i s e hrun hs he hmode hsrc hguard hat hdue hfirst href
    have hexec : exec (.autoTransition h i) s = .next { s with w := s.w.transit h e.dst } := by
      change execAutoTransition h i s = _
      have hauto : s.w.autoDue h i = true := by
        simp [World.autoDue, he, hmode, hsrc, hguard, hat, ms, hdue]
      have hnone : (List.range i).any (s.w.autoDue h) = false := by simpa [List.any_eq_false] using hfirst
      simp [execAutoTransition, hrun, Own.serves, hs, hauto, hnone, href, he]
    obtain ⟨hst, -, hlast⟩ := s.w.transit_leaves h e.dst
    exact .of_exec hexec ⟨hst, hlast, exec_quiet hexec rfl⟩
  case autoRefused =>
    intro h i s href
    exact .of_exec rfl (by simp [href])
end

section
/-!
SUPPORT. R132–R134, R139: the cycle of a rate class.
-/
namespace Sys2Proof.Machine

theorem World.forAll_of_fixed {α : Type} {f : World → α → World} {w : World} {l : List α} (hf : ∀ a ∈ l, f w a = w) : w.forAll l f = w := by
  unfold World.forAll
  induction l with
  | nil => rfl
  | cons a l ih =>
    rw [List.foldl_cons, hf a List.mem_cons_self]
    exact ih fun b hb => hf b (List.mem_cons_of_mem a hb)

theorem World.fn_congr {w v : World} (hset : w.set = v.set) (h : Half) (n : Nat) : w.fn h n = v.fn h n := by rw [World.fn, World.fn, hset]

@[simp] theorem World.fn_wr (w : World) (h g : Half) (f : Field) (i v n : Nat) : (w.wr h f i v).fn g n = w.fn g n := by simp only [World.fn, World.wr_set]
@[simp] theorem World.fn_bump (w : World) (h g : Half) (f : Field) (i n : Nat) : (w.bump h f i).fn g n = w.fn g n := by simp only [World.fn, World.bump_set]
@[simp] theorem World.fn_raise (w : World) (h g : Half) (num arg n : Nat) : (w.raise h num arg).fn g n = w.fn g n := by
  simp only [World.fn, World.raise_set]
@[simp] theorem World.set_updFn (w : World) (h : Half) (n : Nat) (u : FnSt → FnSt) :
    (w.updFn h n u).set = w.set.upd h fun e => { e with fn := NMap.upd {} e.fn n u } := (rfl)
@[simp] theorem World.rd_updFn (w : World) (h g : Half) (n : Nat) (u : FnSt → FnSt) (f : Field) (i : Nat) :
    (w.updFn h n u).rd g f i = w.rd g f i := (rfl)
@[simp] theorem World.fn_updFn_same (w : World) (h : Half) (n : Nat) (u : FnSt → FnSt) : (w.updFn h n u).fn h n = u (w.fn h n) := by
  simp [World.fn, NMap.upd]

theorem World.fn_updFn_ne (w : World) (h : Half) {n m : Nat} (u : FnSt → FnSt) (hm : m ≠ n) : (w.updFn h n u).fn h m = w.fn h m := by
  simp [World.fn, NMap.upd, NMap.get_set_ne _ _ _ hm]

/-- SET_STATUS is one register. -/
theorem World.rd_setStatus (w : World) (h g : Half) (f : Field) (i : Nat) (hf : outside [F.SET_STATUS.GRADE.reg] f = true) :
    (w.setStatus h).rd g f i = w.rd g f i :=
  (World.setStatus_rest (by decide) (Rest.refl [.reg F.SET_STATUS.GRADE.reg] w)).rd_outside (by decide) hf g i

@[simp] theorem World.setStatus_set (w : World) (h : Half) : (w.setStatus h).set = w.set := by simp [World.setStatus]
@[simp] theorem World.fn_setStatus (w : World) (h g : Half) (n : Nat) : (w.setStatus h).fn g n = w.fn g n := World.fn_congr (by simp) g n

/-! A function's registers and its record. -/

theorem World.governs_bounds (w : World) (h : Half) (n : Nat) (p : PvSel) : 1 ≤ w.governs h n p ∧ w.governs h n p ≤ 10 := by
  unfold World.governs
  dsimp only
  split_ifs <;> decide

theorem modeOf_lt (line : Nat) : modeOf line < 8 := by
  unfold modeOf
  split <;> decide

/-- A cycle of a function other than steering ends by keeping what governed it and showing it in the function's registers (R133 step 7). -/
theorem World.fnCycle_ends (w : World) (own : Own) (h : Half) {n : Nat} (hn : n ≠ 0) (k : Nat) :
    ∃ (u : World) (line : Nat) (pv sp : Rat) (p : PvSel) (c ff : Bool), 1 ≤ line ∧ line ≤ 10 ∧
      w.fnCycle own h n k = (u.fnCommit h n line k pv sp).fnRegs h n (modeOf line) p c ff := by
  unfold World.fnCycle
  extract_lets w1 r fresh p w2 w3 line steered w4 steer why w5 preset g frozen sp
  have hline := w3.governs_bounds h n p
  simp only [hn, decide_false, Bool.false_and, Bool.false_eq_true, if_false]
  split
  · exact ⟨_, line, _, _, p, _, _, hline.1, hline.2, rfl⟩
  · exact ⟨_, line, _, _, p, _, _, hline.1, hline.2, rfl⟩

theorem World.fnRegs_set (w : World) (h : Half) (n mode : Nat) (p : PvSel) (c ff : Bool) : (w.fnRegs h n mode p c ff).set = w.set := by
  simp [World.fnRegs]

theorem World.rd_fnRegs_out (w : World) (h : Half) (n mode : Nat) (p : PvSel) (c ff : Bool) :
    (w.fnRegs h n mode p c ff).rd h F.SET_MF_OUT.VALUE n = f32Of (w.fn h n).out % 2 ^ 32 := by
  simp (disch := decide) only [World.fnRegs, List.foldl_cons, List.foldl_nil, World.rd_wr_apart, World.rd_wr_same]

theorem World.rd_fnRegs_mode (w : World) (h : Half) (n : Nat) {mode : Nat} (hm : mode < 8) (p : PvSel) (c ff : Bool) :
    (w.fnRegs h n mode p c ff).rd h F.SET_MF_STAT.MODE n = mode := by
  simp (disch := decide) only [World.fnRegs, List.foldl_cons, List.foldl_nil, World.rd_wr_apart, World.rd_wr_same]
  exact Nat.mod_eq_of_lt hm

/-! A rate class. -/

/-- The functions of a rate class. -/
def World.ofRate (w : World) (h : Half) (rate : Nat) : List Nat := (List.range 30).filter fun n => (w.func h n).used && (w.func h n).rate = rate

theorem World.mem_ofRate_iff {w : World} {h : Half} {rate n : Nat} :
    n ∈ w.ofRate h rate ↔ n < 30 ∧ (w.func h n).used = true ∧ (w.func h n).rate = rate := by
  simp [World.ofRate]

/-- Its functions in a cycle: each in the half that owns its objects, the late ones abandoned. -/
def World.rateFns (w : World) (own : Own) (h : Half) (rate : Nat) (late : List Nat) (k : Nat) : World :=
  w.forAll (w.ofRate h rate) fun w n =>
    if !w.fnRuns own h n then w.updSet h fun e => { e with fn := NMap.del e.fn n }
    else if late.contains n then w
    else w.fnCycle own h n k

/-- The end of the cycle: the spread, the automatic guards, SET_STATUS. -/
def World.rateEnds (w : World) (h : Half) (rate spread k : Nat) (missed : Bool) : World :=
  ((w.wr h (jitterField rate) 0 (max (w.rd h (jitterField rate)) (satTo 16 spread))).when (rate = 0) fun w =>
    (w.noteGuards h).updSet h fun e => { e with cycK := if missed then e.cycK else k }).setStatus h

theorem exec_executorCycle {s : State} {h : Half} {rate : Nat} (spread : Nat) (late : List Nat) (hrun : s.w.execRuns h = true) (hr : rate < 4) :
    exec (.executorCycle h rate spread late) s = .next { s with
      w := (s.w.rateFns s.own h rate late (s.w.mt h / ratePeriod rate + 1)).rateEnds h rate spread (s.w.mt h / ratePeriod rate)
        ((s.w.ofRate h rate).any fun n => late.contains n && (s.w.rateFns s.own h rate late (s.w.mt h / ratePeriod rate + 1) |>.wr h (jitterField rate) 0
          (max ((s.w.rateFns s.own h rate late (s.w.mt h / ratePeriod rate + 1)).rd h (jitterField rate)) (satTo 16 spread))).fnRuns s.own h n) } := by
  change execExecutorCycle h rate spread late s = _
  unfold execExecutorCycle lift
  dsimp only
  rw [hrun, decide_eq_true hr, Bool.and_self, World.when_true]
  rfl

@[simp] theorem World.rd_noteGuards (w : World) (h g : Half) (f : Field) (i : Nat) : (w.noteGuards h).rd g f i = w.rd g f i := (rfl)

theorem World.noteGuards_set (w : World) (h : Half) : (w.noteGuards h).set = w.set.upd h fun e => { e with guardAt := w.guardTimes h e.guardAt } := (rfl)

theorem World.fn_rateEnds (w : World) (h : Half) (rate spread k n : Nat) (missed : Bool) : (w.rateEnds h rate spread k missed).fn h n = w.fn h n := by
  unfold World.rateEnds World.fn
  rw [World.setStatus_set]
  cases hr : decide (rate = 0) with
  | false => rw [World.when_false, World.wr_set]
  | true =>
    simp only [World.when_true, World.set_updSet, World.noteGuards_set, Two.get_upd_same, World.wr_set]

/-- The end of a cycle shows in the class's spread and SET_STATUS alone. -/
theorem World.rd_rateEnds (w : World) (h : Half) {rate : Nat} (hr : rate < 4) (spread k : Nat) (missed : Bool) (f : Field) (i : Nat)
    (hf : outside [F.SET_STATUS.GRADE.reg, F.SET_JITTER0.LO.reg, F.SET_JITTER1.LO.reg] f = true) :
    (w.rateEnds h rate spread k missed).rd h f i = w.rd h f i := by
  simp only [outside, Bool.and_eq_true, decide_eq_true_eq, Bool.not_eq_true', List.contains_eq_mem, decide_eq_false_iff_not, List.mem_cons,
    List.not_mem_nil, or_false, not_or] at hf
  obtain ⟨hbound, hstatus, hj0, hj1⟩ := hf
  have hapart : fieldsApart (jitterField rate) f = true := by
    interval_cases rate <;> exact fieldsApart_of_reg_ne (by decide) hbound (Ne.symm (by assumption))
  rw [World.rateEnds, World.rd_setStatus _ _ _ _ _ (by simpa [outside, hstatus] using hbound), World.rd_when, World.rd_updSet, World.rd_noteGuards,
    World.rd_wr_apart _ _ _ _ _ _ _ _ hapart, ite_self]

theorem World.rd_rateEnds_spread (w : World) (h : Half) {rate : Nat} (hr : rate < 4) (spread k : Nat) (missed : Bool) :
    (w.rateEnds h rate spread k missed).rd h (jitterField rate) = max (w.rd h (jitterField rate)) (satTo 16 spread) := by
  have hout : outside [F.SET_STATUS.GRADE.reg] (jitterField rate) = true := by interval_cases rate <;> decide
  have hfits : (jitterField rate).lo + (jitterField rate).w ≤ 32 := by interval_cases rate <;> decide
  have hw : (jitterField rate).w = 16 := by interval_cases rate <;> rfl
  rw [World.rateEnds, World.rd_setStatus _ _ _ _ _ hout, World.rd_when, World.rd_updSet, World.rd_noteGuards, ite_self, World.rd_wr_same _ _ _ _ _ hfits,
    hw, Nat.mod_eq_of_lt]
  have hlt := w.rd_lt h (jitterField rate) 0
  rw [hw] at hlt
  unfold satTo
  omega

/-- Where a function was abandoned, or the class is not the first, the number of the executor's cycle stays. -/
theorem World.cycK_rateEnds (w : World) (h : Half) (rate spread k : Nat) : ((w.rateEnds h rate spread k true).set.get h).cycK = (w.set.get h).cycK := by
  unfold World.rateEnds
  rw [World.setStatus_set, World.apply_when World.set]
  split <;> simp [World.noteGuards_set]

/-- A class with one function that runs and is on time. -/
theorem World.rateFns_single {w : World} {own : Own} {h : Half} {rate n k : Nat} (hl : w.ofRate h rate = [n]) (hr : w.fnRuns own h n = true) :
    w.rateFns own h rate [] k = w.fnCycle own h n k := by
  simp [World.rateFns, hl, World.forAll, hr]

theorem World.ofRate_single {w : World} {h : Half} {rate n : Nat} (hn : n < 30) (hu : (w.func h n).used = true) (hr : (w.func h n).rate = rate)
    (honly : ∀ m, m < 30 → (w.func h m).used = true → (w.func h m).rate = rate → m = n) : w.ofRate h rate = [n] := by
  have hnd : (w.ofRate h rate).Nodup := List.nodup_range.filter _
  have hmem : ∀ m, m ∈ w.ofRate h rate ↔ m = n := by
    intro m
    rw [World.mem_ofRate_iff]
    exact ⟨fun ⟨h30, hum, hrm⟩ => honly m h30 hum hrm, fun hm => hm ▸ ⟨hn, hu, hr⟩⟩
  exact List.perm_singleton.mp ((List.perm_ext_iff_of_nodup hnd (List.nodup_singleton n)).mpr fun m => (hmem m).trans List.mem_singleton.symm)

/-- The objects of a function depend on the records and the CAN section alone. -/
theorem World.fnObjs_wr (w : World) (h g : Half) (f : Field) (i v k n : Nat) : (w.wr g f i v).fnObjs h k n = w.fnObjs h k n := by
  induction k generalizing n with
  | zero => rfl
  | succ k ih => simp only [World.fnObjs, ih, World.func, World.funcs, World.sigChan, World.wr_set, World.wr_can]; rfl

theorem World.fnRuns_wr (w : World) (own : Own) (h g : Half) (f : Field) (i v n : Nat) : (w.wr g f i v).fnRuns own h n = w.fnRuns own h n := by
  simp only [World.fnRuns, World.fnObjs_wr, World.func, World.funcs, World.wr_set]

/-- The overrun counts cleared, and those of other registers apart. -/
theorem World.rd_clearOverruns (w : World) (h : Half) {n : Nat} (hn : n < 30) :
    (w.forAll (List.range 30) fun w n => w.wr h F.SET_MF_STAT.OVERRUN n 0).rd h F.SET_MF_STAT.OVERRUN n = 0 :=
  (World.forAll_at (fun u n => u.rd h F.SET_MF_STAT.OVERRUN n) id (fun _ _ => 0) (fun u n => World.rd_wr_same u h _ n 0 (by decide))
    (fun u n _ hj => World.rd_wr_idx u h h _ _ 0 (by decide) (by decide) hj) (by simpa using List.nodup_range) w).1 n (List.mem_range.mpr hn)

end Sys2Proof.Machine
end

section
open Sys2Proof Sys2Proof.Machine

/-- Settles O19: what a cycle leaves is what its functions leave, but for the end of the cycle. -/
theorem executorCycles : Obligations.executorCycles := by
  unfold Obligations.executorCycles
  refine ⟨?single, ?late, ?stopped, ?overrun, ?clear⟩
  case single =>
    intro h rate spread s n hrun hrate h1 h30 hu hr honly hown
    have hexec := exec_executorCycle spread [] hrun hrate
    rw [World.rateFns_single (World.ofRate_single h30 hu hr honly) hown] at hexec
    obtain ⟨u, line, pv, sp, p, c, ff, hl1, hl10, hcycle⟩ := s.w.fnCycle_ends s.own h (by omega : n ≠ 0) (s.w.mt h / ratePeriod rate + 1)
    have hset : (s.w.fnCycle s.own h n (s.w.mt h / ratePeriod rate + 1)).fn h n = (u.fnCommit h n line (s.w.mt h / ratePeriod rate + 1) pv sp).fn h n := by
      rw [hcycle, World.fn, World.fnRegs_set, ← World.fn]
    have hfn : (u.fnCommit h n line (s.w.mt h / ratePeriod rate + 1) pv sp).fn h n = _ := World.fn_updFn_same _ _ _ _
    refine .of_exec hexec ⟨exec_quiet hexec rfl, ?_⟩
    simp (disch := first | exact hrate | decide) only [World.fn_rateEnds, World.rd_rateEnds]
    rw [hset, hcycle, World.rd_fnRegs_out, World.rd_fnRegs_mode _ _ _ (modeOf_lt line), hfn]
    exact ⟨rfl, rfl, rfl, rfl, line, hl1, hl10, rfl, rfl⟩
  case late =>
    intro h rate spread late s hrun hrate hlate
    have hexec := exec_executorCycle spread late hrun hrate
    have hfns : s.w.rateFns s.own h rate late (s.w.mt h / ratePeriod rate + 1) = s.w := by
      refine World.forAll_of_fixed fun n hn => ?_
      obtain ⟨h30, hu, hr⟩ := World.mem_ofRate_iff.mp hn
      obtain ⟨hin, hown⟩ := hlate n h30 hu hr
      simp [hown, hin]
    rw [hfns] at hexec
    refine .of_exec hexec ⟨exec_quiet hexec rfl, fun n => World.fn_rateEnds _ _ _ _ _ _ _, World.rd_rateEnds_spread _ _ hrate _ _ _, ?_⟩
    rintro ⟨n, h30, hu, hr⟩
    obtain ⟨hin, hown⟩ := hlate n h30 hu hr
    have hmissed : (s.w.ofRate h rate).any (fun n => late.contains n && (s.w.wr h (jitterField rate) 0
        (max (s.w.rd h (jitterField rate)) (satTo 16 spread))).fnRuns s.own h n) = true :=
      List.any_eq_true.mpr ⟨n, World.mem_ofRate_iff.mpr ⟨h30, hu, hr⟩, by simp [World.fnRuns_wr, hin, hown]⟩
    rw [hmissed]
    exact World.cycK_rateEnds _ _ _ _ _
  case stopped =>
    intro h rate spread late s hrun
    exact .of_exec rfl (by simp [hrun])
  case overrun =>
    intro h n s hrun h30 hown
    have hexec : exec (.cycleOverrun h n) s = _ := rfl
    refine .of_exec hexec ⟨exec_quiet hexec rfl, ?_, ?_, ?_, ?_⟩
    · simp [hrun, h30, hown]
    · simp [hrun, h30, hown]
    · simp [hrun, h30, hown]
    · simp (disch := decide) [hrun, h30, hown, World.rd_raise, World.rd_setStatus, World.rd_bump_same]
  case clear =>
    intro h init s
    have hexec : exec (.setClrCnt h init) s = _ := rfl
    have hfour (u : World) (f : World → Nat → World) : u.forAll (List.range 4) f = f (f (f (f u 0) 1) 2) 3 := rfl
    refine .of_exec hexec ⟨exec_quiet hexec rfl, fun n hn => ?_, ?_, ?_, ?_, ?_⟩
    · simp (disch := decide) only [hfour, jitterField, World.rd_wr_apart, World.rd_clearOverruns _ _ hn]
    all_goals simp (disch := decide) only [hfour, jitterField, World.rd_wr_apart, World.rd_wr_same]; rfl
end

section
open Sys2Proof Sys2Proof.Machine

/-- Settles O20: each command changes the state of its function alone. -/
theorem functionTimersAndCommands : Obligations.functionTimersAndCommands := by
  unfold Obligations.functionTimersAndCommands
  refine ⟨?ilk, ?ilkEarly, ?hold, ?pair, ?pairEarly, ?timeout, ?start, ?step, ?abort, ?manual, ?manualNot⟩
  case ilk =>
    intro h n i t0 s hn hi hoff hat hlen
    rw [List.getD_eq_getElem?_getD] at hoff
    have hexec : exec (.interlockRelease h n i) s = .next { s with
        w := s.w.updFn h n fun x => { x with ilkOn := listSet x.ilkOn i false, ilkOff := listSet x.ilkOff i none } } := by
      change execInterlockRelease h n i s = _
      simp [execInterlockRelease, hn, hi, hoff, ms, hat]
    refine .of_exec hexec ⟨?_, exec_quiet hexec rfl, fun m hm => s.w.fn_updFn_ne h _ hm⟩
    rw [World.fn_updFn_same, List.getD_eq_getElem?_getD, getElem?_listSet_same false (by omega)]
    rfl
  case ilkEarly =>
    intro h n i t0 s hoff hat
    rw [List.getD_eq_getElem?_getD] at hoff
    have hlate : ¬ t0 + 200 * ms ≤ s.w.now := by simpa [ms] using hat
    refine .of_exec (t := s) ?_ rfl
    change execInterlockRelease h n i s = _
    simp [execInterlockRelease, hoff, hlate, World.when]
  case hold =>
    intro h n s h1 h30 hexp hover
    have hexec : exec (.conflictHoldExpiry h n) s = _ := rfl
    have hn : n ≠ 0 := by omega
    refine .of_exec hexec ⟨?_, ?_, ?_, exec_quiet hexec rfl⟩ <;>
      simp (disch := decide) [h30, hexp, hover, hn, World.rd_wr_same]
  case pair =>
    intro h n s h30 hoff hat
    have hexec : exec (.pairReleaseTimeout h n) s = _ := rfl
    refine .of_exec hexec ⟨?_, exec_quiet hexec rfl⟩
    simp [h30, hoff, ms, hat]
  case pairEarly =>
    intro h n s h30 hat
    have hlate : ¬ (s.w.fn h n).offAt + 30 * ms ≤ s.w.now := by simpa [ms] using hat
    exact .of_exec rfl (by simp [hlate])
  case timeout =>
    intro h n s h30 hlaw hran hon hovr hto hnext hat
    have hexec : exec (.seqStepTimeout h n) s = _ := rfl
    have hat' : (s.w.fn h n).stepAt + ((s.w.table h n).getD (s.w.fn h n).step {}).timeout * 10 * ms ≤ s.w.now := by
      simpa [ms, Nat.mul_assoc] using hat
    refine .of_exec hexec ⟨exec_quiet hexec rfl, fun hin => ⟨?_, ?_⟩, fun hout => ?_⟩
    · simp [-List.getD_eq_getElem?_getD, h30, hlaw, hran, hon, hovr, hto, hnext, hat', hin, FnSt.enter]
    · simp [-List.getD_eq_getElem?_getD, h30, hlaw, hran, hon, hovr, hto, hnext, hat', hin, FnSt.enter]
    · simp [-List.getD_eq_getElem?_getD, h30, hlaw, hran, hon, hovr, hto, hnext, hat', Nat.not_lt.mpr hout]
  case start =>
    intro h init n s h30 hlaw
    have hexec : exec (.mfSeqStart h init n) s = _ := rfl
    exact .of_exec hexec ⟨by simp [h30, hlaw], exec_quiet hexec rfl⟩
  case step =>
    intro h init n s h30
    have hexec : exec (.mfSeqStep h init n) s = _ := rfl
    exact .of_exec hexec ⟨by simp [h30], exec_quiet hexec rfl⟩
  case abort =>
    intro h init n s h30 hlaw
    have hexec : exec (.mfSeqAbort h init n) s = _ := rfl
    exact .of_exec hexec ⟨by simp [h30, hlaw], exec_quiet hexec rfl⟩
  case manual =>
    intro h init n on s h30 hman
    have hexec : exec (.mfManual h init n on) s = _ := rfl
    exact .of_exec hexec ⟨by simp (disch := decide) [h30, hman, World.rd_wr_same], exec_quiet hexec rfl⟩
  case manualNot =>
    intro h init n on s hman
    exact .of_exec rfl (by simp [hman])
end

section
/-!
SUPPORT. R147–R152: automatic steering and its lines.
-/
namespace Sys2Proof.Machine

@[simp] theorem World.rd_updSteer (w : World) (h g : Half) (u : Steer → Steer) (f : Field) (i : Nat) : (w.updSteer h u).rd g f i = w.rd g f i := (rfl)
@[simp] theorem World.steer_updSteer (w : World) (h : Half) (u : Steer → Steer) : ((w.updSteer h u).set.get h).steer = u (w.set.get h).steer := by
  simp [World.updSteer]
@[simp] theorem World.fn_updSteer (w : World) (h : Half) (u : Steer → Steer) (n : Nat) : (w.updSteer h u).fn h n = w.fn h n := by
  simp [World.updSteer, World.fn]
@[simp] theorem World.now_updSteer (w : World) (h : Half) (u : Steer → Steer) : (w.updSteer h u).now = w.now := (rfl)
@[simp] theorem World.steer_updFn (w : World) (h : Half) (n : Nat) (u : FnSt → FnSt) : ((w.updFn h n u).set.get h).steer = (w.set.get h).steer := by
  simp
@[simp] theorem World.now_updFn (w : World) (h : Half) (n : Nat) (u : FnSt → FnSt) : (w.updFn h n u).now = w.now := (rfl)

/-- The registers of an output that the audible request drives (R151). -/
def alertRegs : List Nat := [0x600020, 0x600024, 0x900030, 0x900800]

/-- The audible request: ALERT, and beside it a load switch or a CAN signal. -/
theorem World.putAlert_shows (w : World) (own : Own) (h : Half) : Rest ([.lsw] ++ alertRegs.map .reg) (w.putAlert own h)
    (w.wr h F.SET_STEER_STATUS.ALERT 0 (b2n ((w.set.get h).steer.alertOn || (w.set.get h).steer.warned))) := by
  unfold World.putAlert
  extract_lets x on w' ref
  split
  · exact Rest.when (Rest.refl _ _) fun _ hu => World.swCmd_rest (by decide) hu
  · exact Rest.when (Rest.refl _ _) fun _ hu => World.writeSig_rest (by decide) hu

@[simp] theorem World.putAlert_set (w : World) (own : Own) (h : Half) : (w.putAlert own h).set = w.set := by
  rw [(w.putAlert_shows own h).set (by decide), World.wr_set]

theorem World.rd_putAlert (w : World) (own : Own) (h : Half) (f : Field) (i : Nat) (hf : outside alertRegs f = true)
    (ha : fieldsApart F.SET_STEER_STATUS.ALERT f = true) : (w.putAlert own h).rd h f i = w.rd h f i := by
  rw [(w.putAlert_shows own h).rd_outside (by decide) hf, World.rd_wr_apart _ _ _ _ _ _ _ _ ha]

theorem World.rd_putAlert_alert (w : World) (own : Own) (h : Half) :
    (w.putAlert own h).rd h F.SET_STEER_STATUS.ALERT = b2n ((w.set.get h).steer.alertOn || (w.set.get h).steer.warned) := by
  rw [(w.putAlert_shows own h).rd_outside (ks := alertRegs) (by decide) (by decide), World.rd_wr_same _ _ _ _ _ (by decide)]
  exact b2n_mod_two _

/-- The pair's outputs change the record of its function, not steering. -/
theorem World.steer_pairDrive (w : World) (h : Half) (n : Nat) (d : Int) (m : Option Nat) :
    ((w.pairDrive h n d m).set.get h).steer = (w.set.get h).steer := by
  have hput (u : World) (r : Func) (x : Int) (m : Option Nat) (b : Bool) : (u.putSide r x m b).set = u.set :=
    (World.putSide_rest (by decide) (Rest.refl (allBut .set) u)).set (by decide)
  have hfn (u : World) (v : FnSt → FnSt) : ((u.updFn h n v).set.get h).steer = (u.set.get h).steer := by simp
  unfold World.pairDrive
  extract_lets r w1 side w2 x
  have h1 : (w1.set.get h).steer = (w.set.get h).steer := by
    simp only [w1, World.apply_when (fun u : World => (u.set.get h).steer), hfn, ite_self]
  have h2 : (w2.set.get h).steer = (w.set.get h).steer := by
    simp only [w2, World.apply_when (fun u : World => (u.set.get h).steer), hfn, hput, ite_self, h1]
  split
  · rw [hfn, hput, h2]
  · split
    · rw [hput, hput, h2]
    · exact h2

theorem World.rd_pairDrive (w : World) (h g : Half) (n : Nat) (d : Int) (m : Option Nat) (f : Field) (i : Nat)
    (hf : outside [0x100018, 0x500020, 0x500024, 0x500028, 0x500030, 0x500034, 0x50004C] f = true) : (w.pairDrive h n d m).rd g f i = w.rd g f i :=
  (World.pairDrive_rest (by decide) (Rest.refl ([.fresh, .evt, .set, .vlv] ++
    [0x100018, 0x500020, 0x500024, 0x500028, 0x500030, 0x500034, 0x50004C].map .reg) w)).rd_outside (by decide) hf g i

@[simp] theorem World.now_pairDrive (w : World) (h : Half) (n : Nat) (d : Int) (m : Option Nat) : (w.pairDrive h n d m).now = w.now :=
  (World.pairDrive_rest (by decide) (Rest.refl (allBut .now) w)).now (by decide)

/-- The audible request ends where its least time has passed and it is acknowledged; else nothing changes (R151). -/
theorem World.alertEnd_leaves (w : World) (own : Own) (h : Half) :
    (((w.set.get h).steer.alertOn && (w.set.get h).steer.alertMin && (w.set.get h).steer.alertAck) = true →
      ((w.alertEnd own h).set.get h).steer = { (w.set.get h).steer with alertOn := false } ∧
        (w.alertEnd own h).rd h F.SET_STEER_STATUS.ALERT = b2n (w.set.get h).steer.warned) ∧
    (((w.set.get h).steer.alertOn && (w.set.get h).steer.alertMin && (w.set.get h).steer.alertAck) = false → w.alertEnd own h = w) := by
  unfold World.alertEnd
  dsimp only
  refine ⟨fun hc => ?_, fun hc => by rw [hc, World.when_false]⟩
  rw [hc, World.when_true, World.putAlert_set, World.steer_updSteer, World.rd_putAlert_alert, World.steer_updSteer, Bool.false_or]
  exact ⟨rfl, rfl⟩

/-- A release of steering that was engaged (R151). -/
theorem World.steerRelease_leaves {w : World} {h : Half} (own : Own) {reason : Nat} (hr : reason < 16)
    (he : w.flag h F.SET_STEER_STATUS.ENGAGED = true) :
    (w.steerRelease own h reason).rd h F.SET_STEER_STATUS.ENGAGED = 0 ∧ (w.steerRelease own h reason).rd h F.SET_STEER_STATUS.REASON = reason ∧
      ((w.steerRelease own h reason).fn h 0).integ = 0 ∧ ((w.steerRelease own h reason).fn h 0).out = 0 ∧
      (((w.steerRelease own h reason).set.get h).steer) = { (w.set.get h).steer with
        warned := false, kappa := 0, alertOn := (w.set.get h).steer.alertOn || reason ≠ 1
        alertAt := if reason ≠ 1 then w.now else (w.set.get h).steer.alertAt
        alertMin := (w.set.get h).steer.alertMin && reason = 1, alertAck := (w.set.get h).steer.alertAck && reason = 1, lowQAt := none
        speedAt := none, edgeLost := 0, edgePath := [] } := by
  rw [World.steerRelease, he, World.when_true]
  extract_lets w1 w2 w3 w4
  have hset : ((w4.raise h 244 (evArg 0 0xFF reason)).putAlert own h).set = w4.set := by simp
  refine ⟨?_, ?_, ?_, ?_, ?_⟩
  · simp (disch := decide) [World.rd_putAlert, World.rd_raise, w4, w3, w2, w1, World.rd_pairDrive, World.rd_wr_apart, World.rd_wr_same]
  · simp (disch := decide) [World.rd_putAlert, World.rd_raise, w4, w3, w2, w1, World.rd_pairDrive, World.rd_wr_same, hr]
  · rw [World.fn_congr hset, World.fn_updSteer, World.fn_updFn_same]
  · rw [World.fn_congr hset, World.fn_updSteer, World.fn_updFn_same]
  · rw [hset, World.steer_updSteer, World.steer_updFn, World.steer_pairDrive]
    simp [w3, w2, w1]

end Sys2Proof.Machine
end

section
open Sys2Proof Sys2Proof.Machine

/-- Settles O22: every release is the one release of R151 with its reason. -/
theorem steeringEngages : Obligations.steeringEngages := by
  unfold Obligations.steeringEngages
  refine ⟨?engage, ?unarmed, ?disengage, ?disengaged, ?quality, ?speed, ?noClock, ?ack, ?min, ?minEarly, ?pass⟩
  case engage =>
    intro h init s harm heng hown hcond
    cases hsee : s.w.steerSee h with
    | none =>
      rw [World.armed, hsee] at hcond
      exact nomatch hcond
    | some x =>
      have hexec : exec (.steerEngage h init) s = .next { s with
          w := ((((s.w.wr h F.SET_STEER_STATUS.ENGAGED 0 1).wr h F.SET_STEER_STATUS.REASON 0 0).wr h F.SET_STEER_STATUS.PASS 0
            (toTwos 16 (x.l.nearest x.at_.d))).wr h F.SET_STEER_CTRL.PASS 0 (toTwos 16 (x.l.nearest x.at_.d))).updSteer h fun z => { z with
              kappa := s.w.pathCurv h, lowQAt := none, speedAt := none, edgeLost := 0, edgePath := [] } } := by
        change execSteerEngage h init s = _
        simp only [execSteerEngage, lift, harm, heng, hown, hcond, Bool.not_false, Bool.and_self, World.when_true, hsee]
      have hpass := toTwos_lt 16 (x.l.nearest x.at_.d)
      refine .of_exec hexec ⟨?_, ?_, fun y hy => ?_, exec_quiet hexec rfl⟩
      · simp (disch := decide) [World.rd_wr_apart, World.rd_wr_same]
      · simp (disch := decide) [World.rd_wr_apart, World.rd_wr_same]
      · obtain rfl : x = y := by simpa using hy
        simp (disch := decide) only [World.rd_updSteer, World.rd_wr_apart, World.rd_wr_same]
        exact ⟨Nat.mod_eq_of_lt hpass, Nat.mod_eq_of_lt hpass⟩
  case unarmed =>
    intro h init s harm
    exact .of_exec rfl (by simp [harm])
  case disengage =>
    intro h init s heng
    have hexec : exec (.steerDisengage h init) s = .next { s with w := s.w.steerRelease s.own h 1 } := rfl
    obtain ⟨he, hr, hi, ho, hst⟩ := World.steerRelease_leaves s.own (show 1 < 16 by decide) heng
    exact .of_exec hexec ⟨he, hr, hi, ho, by rw [hst], by simp [hst], exec_quiet hexec rfl⟩
  case disengaged =>
    intro h init s heng
    exact .of_exec rfl (by simp [World.steerRelease, heng])
  case quality =>
    intro h s t0 heng hq hat
    have hexec : exec (.steerReleaseTimeout h) s = .next { s with w := s.w.steerRelease s.own h 4 } := by
      change execSteerReleaseTimeout h s = _
      have hat' : t0 + sec ≤ s.w.now := by simpa [sec] using hat
      unfold execSteerReleaseTimeout lift
      dsimp only
      rw [hq, Option.any_some, decide_eq_true hat', if_pos rfl]
    obtain ⟨he, hr, hi, ho, hst⟩ := World.steerRelease_leaves s.own (show 4 < 16 by decide) heng
    exact .of_exec hexec ⟨he, hr, by simp [hst], by simp [hst], exec_quiet hexec rfl⟩
  case speed =>
    intro h s t0 heng hq hv hat
    have hexec : exec (.steerReleaseTimeout h) s = .next { s with w := s.w.steerRelease s.own h 5 } := by
      change execSteerReleaseTimeout h s = _
      have hat' : t0 + 500 * ms ≤ s.w.now := by simpa [ms] using hat
      unfold execSteerReleaseTimeout lift
      dsimp only
      rw [hq, Option.any_none, if_neg Bool.false_ne_true, hv, Option.any_some, decide_eq_true hat', if_pos rfl]
    obtain ⟨he, hr, hi, ho, hst⟩ := World.steerRelease_leaves s.own (show 5 < 16 by decide) heng
    exact .of_exec hexec ⟨he, hr, by simp [hst], exec_quiet hexec rfl⟩
  case noClock =>
    intro h s hq hv
    exact .of_exec rfl (by simp [hq, hv])
  case ack =>
    intro h init s hon
    have hexec : exec (.steerAck h init) s = .next { s with w := (s.w.updSteer h fun x => { x with alertAck := x.alertOn }).alertEnd s.own h } := rfl
    obtain ⟨hend, hstay⟩ := (s.w.updSteer h fun x => { x with alertAck := x.alertOn }).alertEnd_leaves s.own h
    simp only [World.steer_updSteer, hon, Bool.true_and, Bool.and_true] at hend hstay
    refine .of_exec hexec ⟨fun hm => ?_, fun hm => ?_, exec_quiet hexec rfl⟩
    · obtain ⟨hst, hal⟩ := hend hm
      exact ⟨by rw [hst], hal⟩
    · rw [hstay hm]
      simp [hon]
  case min =>
    intro h s hon hat
    have hexec : exec (.alertMinExpiry h) s = .next { s with w := (s.w.updSteer h fun x => { x with alertMin := true }).alertEnd s.own h } := by
      change execAlertMinExpiry h s = _
      have hat' : (s.w.set.get h).steer.alertAt + (s.w.funcs h).steer.alertMs * ms ≤ s.w.now := hat
      simp [execAlertMinExpiry, hon, hat']
    obtain ⟨hend, hstay⟩ := (s.w.updSteer h fun x => { x with alertMin := true }).alertEnd_leaves s.own h
    simp only [World.steer_updSteer, hon, Bool.true_and, Bool.and_true] at hend hstay
    refine .of_exec hexec ⟨?_, ?_, exec_quiet hexec rfl⟩ <;> cases hack : (s.w.set.get h).steer.alertAck
    · rw [hstay hack, World.steer_updSteer]
    · rw [(hend hack).1]
    · rw [hstay hack, World.steer_updSteer, hon]
      exact ⟨fun _ => rfl, fun _ => rfl⟩
    · rw [(hend hack).1]
      exact ⟨nofun, nofun⟩
  case minEarly =>
    intro h s hat
    have hlate : ¬ (s.w.set.get h).steer.alertAt + (s.w.funcs h).steer.alertMs * ms ≤ s.w.now := by simpa [ms] using hat
    exact .of_exec rfl (by simp [hlate])
  case pass =>
    intro h init v s
    have hexec : exec (.steerPassSelect h init v) s = _ := rfl
    refine .of_exec hexec ⟨?_, ?_, exec_regsBut hexec rfl, exec_quiet hexec rfl⟩
    · simp (disch := decide) [World.rd_when, World.rd_wr_apart, World.rd_wr_same]
    · simp (disch := decide) [World.rd_when, World.rd_wr_apart, World.rd_wr_same, World.flag]
end

section
/-!
SUPPORT. R148: guidance lines.
-/
namespace Sys2Proof.Machine

/-- A load that is done: the result shown, a good record in its slot. -/
def World.lineLoaded (w : World) (h : Half) (k : Nat) (bs : List Byte) (res : Nat) : World :=
  (((w.updSet h fun e => { e with loading := none }).wr h F.SET_LINE_STAT.BUSY 0 0).wr h F.SET_LINE_STAT.RES 0 res).when (res = 0) fun u =>
    (u.updSet h fun e => { e with lines := NMap.put e.lines k (lineOf bs) }).wr h F.SET_LINE_STAT.VALID 0
      (if bitOf (u.rd h F.SET_LINE_STAT.VALID) k then u.rd h F.SET_LINE_STAT.VALID else u.rd h F.SET_LINE_STAT.VALID + 2 ^ k)

theorem World.lineLoaded_shows (w : World) (h : Half) (k : Nat) (bs : List Byte) {res : Nat} (hr : res < 8) :
    (w.lineLoaded h k bs res).rd h F.SET_LINE_STAT.BUSY = 0 ∧ ((w.lineLoaded h k bs res).set.get h).loading = none ∧
      (w.lineLoaded h k bs res).rd h F.SET_LINE_STAT.RES = res := by
  unfold World.lineLoaded
  refine ⟨?_, ?_, ?_⟩
  · simp (disch := decide) [World.rd_when, World.rd_wr_apart, World.rd_wr_same]
  · rw [World.apply_when World.set]
    split <;> simp
  · simp (disch := decide) [World.rd_when, World.rd_wr_apart, World.rd_wr_same, hr]

theorem World.lineLoaded_refused (w : World) (h : Half) (k : Nat) (bs : List Byte) {res : Nat} (hr : res ≠ 0) :
    (w.lineLoaded h k bs res).rd h F.SET_LINE_STAT.VALID = w.rd h F.SET_LINE_STAT.VALID ∧
      ((w.lineLoaded h k bs res).set.get h).lines = (w.set.get h).lines := by
  rw [World.lineLoaded, decide_eq_false hr, World.when_false]
  exact ⟨by simp (disch := decide) [World.rd_wr_apart], by simp⟩

theorem World.lineLoaded_good (w : World) (h : Half) {k : Nat} (bs : List Byte) (hk : k < 8) :
    bitOf ((w.lineLoaded h k bs 0).rd h F.SET_LINE_STAT.VALID) k = true ∧ NMap.get {} ((w.lineLoaded h k bs 0).set.get h).lines k = lineOf bs := by
  rw [World.lineLoaded, decide_eq_true rfl, World.when_true]
  refine ⟨?_, by simp [NMap.get_put_same]⟩
  rw [World.rd_wr_same _ _ _ _ _ (by decide), show F.SET_LINE_STAT.VALID.w = 8 from rfl, bitOf_mod_pow, decide_eq_true hk, Bool.true_and]
  split
  next hset => exact hset
  next hclear => rw [bitOf_add_pow (Bool.not_eq_true _ ▸ hclear)]; simp

end Sys2Proof.Machine
end

section
open Sys2Proof Sys2Proof.Machine

/-- Settles O23: the check of the record decides; VALID changes by the slot's bit. -/
theorem guidanceLines : Obligations.guidanceLines := by
  unfold Obligations.guidanceLines
  refine ⟨?load, ?busy, ?complete, ?nothing, ?clear, ?engaged⟩
  case load =>
    intro h init k s hrun hk hbusy
    have hexec : exec (.lineLoad h init k) s = _ := rfl
    have hflag : s.w.flag h F.SET_LINE_STAT.BUSY = false := by simp [World.flag, hbusy]
    refine .of_exec hexec ⟨?_, exec_quiet hexec rfl, ?_⟩
    · simp (disch := decide) [hrun, hk, hflag, World.rd_wr_same]
    · simp [hrun, hk, hflag, lineLen]
  case busy =>
    intro h init k s hbusy
    exact .of_exec rfl (by simp [World.flag, hbusy])
  case complete =>
    intro h k bs s hl hk
    have hexec : exec (.lineLoadComplete h) s = .next { s with w := s.w.lineLoaded h k bs (if s.w.lineEngaged h k then 3 else lineCheck bs) } := by
      change execLineLoadComplete h s = _
      have heng : ((s.w.updSet h fun e => { e with loading := none }).wr h F.SET_LINE_STAT.BUSY 0 0).lineEngaged h k = s.w.lineEngaged h k := by
        simp (disch := decide) only [World.lineEngaged, World.flag, World.rd_wr_apart, World.rd_updSet]
      simp only [execLineLoadComplete, lift, hl, heng]
      rfl
    have hcheck : lineCheck bs < 8 := by
      unfold lineCheck
      split_ifs <;> decide
    have hres : (if s.w.lineEngaged h k then 3 else lineCheck bs) < 8 := by
      split
      · decide
      · exact hcheck
    obtain ⟨hbusy, hloading, hr⟩ := s.w.lineLoaded_shows h k bs hres
    refine .of_exec hexec ⟨hbusy, hloading, exec_quiet hexec rfl, fun he => ?_, fun he => ?_, fun he hgood => ?_, fun he hbad => ?_⟩
    · rw [if_pos he] at hr ⊢
      exact ⟨hr, (s.w.lineLoaded_refused h k bs (by decide)).2⟩
    · rw [if_neg (by simp [he])] at hr ⊢
      exact hr
    · rw [if_neg (by simp [he]), hgood]
      exact s.w.lineLoaded_good h bs hk
    · rw [if_neg (by simp [he])]
      exact s.w.lineLoaded_refused h k bs hbad
  case nothing =>
    intro h s hl
    refine .of_exec (t := s) ?_ rfl
    change execLineLoadComplete h s = _
    simp [execLineLoadComplete, lift, hl]
  case clear =>
    intro h init k s hk heng
    have hexec : exec (.lineClear h init k) s = .next { s with
        w := (s.w.updSet h fun e => { e with lines := NMap.del e.lines k }).wr h F.SET_LINE_STAT.VALID 0
          (if bitOf (s.w.rd h F.SET_LINE_STAT.VALID) k then s.w.rd h F.SET_LINE_STAT.VALID - 2 ^ k else s.w.rd h F.SET_LINE_STAT.VALID) } := by
      change execLineClear h init k s = _
      simp [execLineClear, hk, heng]
    have hbits (j : Nat) (hj : j < 8) : bitOf ((if bitOf (s.w.rd h F.SET_LINE_STAT.VALID) k then s.w.rd h F.SET_LINE_STAT.VALID - 2 ^ k
        else s.w.rd h F.SET_LINE_STAT.VALID) % 2 ^ 8) j = (bitOf (s.w.rd h F.SET_LINE_STAT.VALID) j && j ≠ k) := by
      rw [bitOf_mod_pow, decide_eq_true hj, Bool.true_and]
      split
      next hset => exact bitOf_sub_pow hset j
      next hclear =>
        by_cases hjk : j = k
        · simpa [hjk] using hclear
        · simp [hjk]
    refine .of_exec hexec ⟨?_, ?_, fun j hj hjk => ?_, exec_quiet hexec rfl⟩
    · rw [World.rd_wr_same _ _ _ _ _ (by decide), hbits k hk]
      simp
    · simp [NMap.get_del_same]
    · rw [World.rd_wr_same _ _ _ _ _ (by decide), hbits j hj]
      simp [hjk]
  case engaged =>
    intro h init k s heng
    exact .of_exec rfl (by simp [heng])
end

section
/-!
SUPPORT. R155–R178: the optimizer.
-/
namespace Sys2Proof.Machine

@[simp] theorem World.rd_updOpt (w : World) (h g : Half) (u : Optim → Optim) (f : Field) (i : Nat) : (w.updOpt h u).rd g f i = w.rd g f i := (rfl)
@[simp] theorem World.opt_updOpt (w : World) (h : Half) (u : Optim → Optim) : (w.updOpt h u).opt = w.opt.upd h u := (rfl)
@[simp] theorem World.fresh_updOpt (w : World) (h : Half) (u : Optim → Optim) : (w.updOpt h u).fresh = w.fresh := (rfl)
@[simp] theorem World.mt_updOpt (w : World) (h g : Half) (u : Optim → Optim) : (w.updOpt h u).mt g = w.mt g := (rfl)

theorem World.optm_congr {w v : World} {h : Half} (hs : (w.opt.get h).sec = (v.opt.get h).sec) : w.optm h = v.optm h := by
  rw [World.optm, World.optm, hs]

theorem getElem?_listSet_ne {α : Type} (l : List α) {i j : Nat} (x : α) (hj : j ≠ i) : (listSet l i x)[j]? = l[j]? := by
  induction l generalizing i j with
  | nil => rfl
  | cons y l ih =>
    cases i with
    | zero =>
      cases j with
      | zero => exact absurd rfl hj
      | succ j => rfl
    | succ i =>
      cases j with
      | zero => rfl
      | succ j => exact ih (fun h => hj (congrArg _ h))

/-! The end of a solve (R159–R161). -/

@[simp] theorem World.optResult_opt (w : World) (h : Half) (res iter dur dropped : Nat) : (w.optResult h res iter dur dropped).opt = w.opt := by
  simp [World.optResult]

theorem World.rd_ditherSet (w : World) (h : Half) (ok : Bool) (f : Field) (i : Nat) (hf : fieldsApart F.SET_OPT_STATUS.DITHER_ON f = true) :
    (w.ditherSet h ok).rd h f i = w.rd h f i := by
  rw [World.ditherSet, World.rd_wr_apart _ _ _ _ _ _ _ _ hf, World.rd_updOpt]

theorem World.rd_ditherSet_off (w : World) (h : Half) : (w.ditherSet h false).rd h F.SET_OPT_STATUS.DITHER_ON = 0 := by
  simp (disch := decide) [World.ditherSet, World.rd_wr_same, b2n]

theorem World.ditherSet_opt (w : World) (h : Half) (ok : Bool) : ((w.ditherSet h ok).opt.get h).idle = (w.opt.get h).idle ∧
    ((w.ditherSet h ok).opt.get h).fails = (w.opt.get h).fails := by
  simp [World.ditherSet]

/-- The registers of a solve's result. -/
theorem World.rd_optResult (w : World) (h : Half) {res iter dropped : Nat} (dur : Nat) (hr : res < 8) (hi : iter < 128) (hd : dropped < 8) :
    (w.optResult h res iter dur dropped).rd h F.SET_OPT_STATUS.RES = res ∧ (w.optResult h res iter dur dropped).rd h F.SET_OPT_STATUS.ITER = iter ∧
      (w.optResult h res iter dur dropped).rd h F.SET_OPT_STATUS.DROPPED = dropped ∧
      (w.optResult h res iter dur dropped).rd h F.SET_OPT_CORR.SOLVE_T = satTo 16 dur := by
  have hsat : satTo 16 dur < 2 ^ 16 := by
    unfold satTo
    omega
  refine ⟨?_, ?_, ?_, ?_⟩ <;> simp (disch := decide) only [World.optResult, World.rd_wr_apart, World.rd_wr_same]
  · exact Nat.mod_eq_of_lt hr
  · exact Nat.mod_eq_of_lt hi
  · exact Nat.mod_eq_of_lt hd
  · exact Nat.mod_eq_of_lt hsat

/-- The set-points in force change nothing else of the optimizer. -/
theorem World.optApply_opt (w : World) (own : Own) (h : Half) (p : OptProb) (x : Nat → OVar → Rat) :
    ∃ sp, (w.optApply own h p x).opt = w.opt.upd h fun m => { m with sp := sp } := ⟨_, rfl⟩

@[simp] theorem World.rd_optApply (w : World) (own : Own) (h g : Half) (p : OptProb) (x : Nat → OVar → Rat) (f : Field) (i : Nat) :
    (w.optApply own h p x).rd g f i = w.rd g f i := (rfl)

/-- A change of two registers. -/
theorem World.regsBut_wr_wr (w : World) (h g : Half) {f k : Field} (i j x y : Nat) (hf : f.reg < 2 ^ 25) (hk : k.reg < 2 ^ 25) :
    World.RegsBut [f.reg, k.reg] w ((w.wr h f i x).wr g k j y) :=
  (Rest.wr (q := [.reg f.reg, .reg k.reg]) _ _ _ _ (by simpa [partIn] using hk) (Rest.wr _ _ _ _ (by simpa [partIn] using hf)
    (Rest.refl _ w))).regsBut (by simp [regsIn])

/-- A feasible solve writes its solution and clears the run of fallbacks (R159, R161). -/
theorem World.rd_optFeasible (w : World) (own : Own) (h : Half) (p : OptProb) (sol : OptSol) :
    (w.optFeasible own h p sol).rd h F.SET_OPT_STATUS.FAILS = 0 ∧ (w.optFeasible own h p sol).rd h F.SET_OPT_STATUS.RETREAT = 0 ∧
      (∀ i < (w.optm h).vars.length, (w.optFeasible own h p sol).rd h F.SET_OPT_SOLN.VALUE i = f32Of (p.x0.getD i 0 + sol.dx.getD i 0) % 2 ^ 32) ∧
      ∀ f, outside [0x100018, 0x400540] f = true → fieldsApart F.SET_OPT_STATUS.FAILS f = true → fieldsApart F.SET_OPT_STATUS.RETREAT f = true →
        (w.optFeasible own h p sol).rd h f = w.rd h f := by
  unfold World.optFeasible
  extract_lets x w1 w2 w3 w4
  have hown (u : World) (v : OVar × Nat) : (u.wr h F.SET_OPT_SOLN.VALUE v.2 (f32Of (x v.2))).rd h F.SET_OPT_SOLN.VALUE v.2 = f32Of (x v.2) % 2 ^ 32 :=
    World.rd_wr_same u h F.SET_OPT_SOLN.VALUE _ _ (by decide)
  have hidx (u : World) (v : OVar × Nat) (j : Nat) (hj : j ≠ v.2) :
      (u.wr h F.SET_OPT_SOLN.VALUE v.2 (f32Of (x v.2))).rd h F.SET_OPT_SOLN.VALUE j = u.rd h F.SET_OPT_SOLN.VALUE j :=
    World.rd_wr_idx u h h F.SET_OPT_SOLN.VALUE F.SET_OPT_SOLN.VALUE _ (by decide) (by decide) hj
  have hsol : ∀ i < (w.optm h).vars.length, w1.rd h F.SET_OPT_SOLN.VALUE i = f32Of (x i) % 2 ^ 32 := by
    intro i hi
    have hmem : ((w.optm h).vars[i], i) ∈ (w.optm h).vars.zipIdx := List.mk_mem_zipIdx_iff_getElem?.mpr (List.getElem?_eq_getElem hi)
    have hnd : ((w.optm h).vars.zipIdx.map Prod.snd).Nodup := by
      rw [List.zipIdx_map_snd]
      exact List.nodup_range'
    have hat := (World.forAll_at (f := fun w v => w.wr h F.SET_OPT_SOLN.VALUE v.2 (f32Of (x v.2))) (fun u n => u.rd h F.SET_OPT_SOLN.VALUE n)
      Prod.snd (fun _ v => f32Of (x v.2) % 2 ^ 32) hown hidx hnd w).1 _ hmem
    exact hat
  have hother (f : Field) (hf : outside [0x100018, 0x400540] f = true) : w1.rd h f = w.rd h f := by
    have hkeep (u : World) (v : OVar × Nat) : (u.wr h F.SET_OPT_SOLN.VALUE v.2 (f32Of (x v.2))).rd h f = u.rd h f :=
      (Rest.wr h F.SET_OPT_SOLN.VALUE v.2 (f32Of (x v.2)) (by decide) (Rest.refl [.reg 0x400540] u)).rd_outside (ks := [0x100018, 0x400540])
        (by decide) hf h 0
    exact World.forAll_keeps (fun u => u.rd h f) hkeep _ w
  refine ⟨?_, ?_, fun i hi => ?_, fun f hf hfails hretreat => ?_⟩
  · simp (disch := decide) only [World.rd_wr_apart, World.rd_wr_same]
    rfl
  · simp (disch := decide) only [World.rd_wr_same]
    rfl
  · simp (disch := decide) only [World.rd_wr_apart, w4, w3, w2, World.rd_updOpt, World.rd_when, World.rd_raise, World.rd_optApply, ite_self]
    exact hsol i hi
  · rw [World.rd_wr_apart _ _ _ _ _ _ _ _ hretreat, World.rd_wr_apart _ _ _ _ _ _ _ _ hfails, World.rd_updOpt]
    have hraise : (decide (f.reg < 2 ^ 25) && decide (f.reg ≠ 0x100018)) = true := by
      simp only [outside, Bool.and_eq_true, Bool.not_eq_true', List.contains_eq_mem, decide_eq_false_iff_not, List.mem_cons, not_or] at hf
      simpa using ⟨of_decide_eq_true hf.1, hf.2.1⟩
    simp only [w3, World.rd_when, World.rd_raise _ _ _ _ _ _ _ hraise, w2, World.rd_optApply, ite_self]
    exact hother f hf

/-- A fallback counts; it publishes no solution (R160). -/
theorem World.rd_optFallback (w : World) (own : Own) (h : Half) (p : OptProb) :
    ((w.optFallback own h p).opt.get h).fails = (w.opt.get h).fails + 1 ∧
      (w.optFallback own h p).rd h F.SET_OPT_STATUS.FAILS = satTo 4 ((w.opt.get h).fails + 1) ∧
      ((w.opt.get h).fails + 1 = (w.optm h).retreatN → (w.optFallback own h p).rd h F.SET_OPT_STATUS.RETREAT = 1) ∧
      (w.optFallback own h p).rd h F.SET_OPT_STATUS.RES = w.rd h F.SET_OPT_STATUS.RES := by
  unfold World.optFallback
  extract_lets back w1 n w2 w3
  have hopt : ∃ sp, (w1.opt.get h) = { w.opt.get h with sp := sp } := by
    cases hb : back with
    | false => exact ⟨_, by simp [w1, hb]; rfl⟩
    | true => exact ⟨_, by simp [w1, hb, World.optApply]; rfl⟩
  obtain ⟨sp, hsp⟩ := hopt
  have hn : n = (w.opt.get h).fails + 1 := by simp [n, hsp]
  have hoptm : w3.optm h = w.optm h := by
    refine World.optm_congr ?_
    simp [w3, w2, World.apply_when World.opt, hsp]
  have hsat : satTo 4 n < 2 ^ 4 := by
    unfold satTo
    omega
  have hrd (f : Field) : w1.rd h f = w.rd h f := by simp only [w1, World.rd_when, World.rd_optApply, ite_self]
  refine ⟨?_, ?_, fun hr => ?_, ?_⟩
  · simp [w3, w2, World.apply_when World.opt, hn]
  · simp (disch := decide) only [World.rd_when, World.rd_raise, World.rd_wr_apart, w3, w2, World.rd_wr_same, ite_self, ← hn]
    exact Nat.mod_eq_of_lt hsat
  · rw [World.rd_when, if_pos (by simp [hoptm, hn, hr])]
    simp (disch := decide) [World.rd_raise, World.rd_wr_same]
  · simp (disch := decide) only [World.rd_when, World.rd_raise, World.rd_wr_apart, w3, w2, World.rd_updOpt, hrd, ite_self]

/-- A fallback leaves the solution published before it. -/
theorem World.rd_optFallback_soln (w : World) (own : Own) (h : Half) (p : OptProb) (i : Nat) :
    (w.optFallback own h p).rd h F.SET_OPT_SOLN.VALUE i = w.rd h F.SET_OPT_SOLN.VALUE i :=
  (World.optFallback_rest (q0 := [.evt, .opt, .reg 0x100018, .reg 0x400504]) (by decide) (Rest.refl _ w)).rd_outside
    (ks := [0x100018, 0x400504]) (by decide) (by decide) h i

/-- The mode written takes effect: set-points alone change beside the optimizer (R165). -/
theorem World.rd_atSolve (w : World) (h : Half) (f : Field) (i : Nat) (hf : outside [0x400280] f = true) : (w.atSolve h).rd h f i = w.rd h f i := by
  have e : Rest [.fresh, .opt, .reg 0x400280] (w.learnt h) w :=
    World.optLearn_rest (by decide) (World.optMode_rest (by decide) (Rest.set_fresh (by decide) (Rest.refl _ w) _))
  rw [World.atSolve, World.rd_updOpt, e.rd_outside (by decide) hf]

theorem World.atSolve_idle (w : World) (h : Half) : ((w.atSolve h).opt.get h).idle = false := by simp [World.atSolve]

/-- What a solve leaves, by the optimizer's state and what the solver ends with. -/
def State.solved (s : State) (h : Half) (sol : OptSol) : World :=
  if ((s.w.learnt h).opt.get h).idle then ((s.w.atSolve h).optResult h 6 0 sol.us 0).ditherSet h false
  else if (s.w.learnt h).gradeOf h = 0 then ((s.w.atSolve h).optResult h 5 0 sol.us 0).ditherSet h false
  else if !((s.w.atSolve h).optProb s.own h).valid sol then s.w
  else
    let u := (s.w.atSolve h).optResult h sol.res sol.iter sol.us (droppedBits sol.farkas.length)
    (if sol.res ≤ 2 then u.optFeasible s.own h ((s.w.atSolve h).optProb s.own h) sol
      else u.optFallback s.own h ((s.w.atSolve h).optProb s.own h)).ditherSet h (u.ditherCond h ((s.w.atSolve h).optProb s.own h) sol)

theorem exec_optSolve {s : State} {h : Half} (sol : OptSol) (hrun : s.w.optRuns s.own h = true) :
    exec (.optSolve h sol) s = .next { s with w := s.solved h sol } := by
  change execOptSolve h sol s = _
  unfold execOptSolve lift
  dsimp only
  rw [hrun]
  rfl

/-- The latency and the feed-forward of one variable (R175). -/
def World.lookVar (h : Half) (ff : List Rat) (w : World) (x : OVar × Nat) : World :=
  let tau := min (w.optTau h x.1) (w.horizon h)
  let w := w.wr h F.SET_OPT_LAT.LAT x.2 (satTo 16 (roundN (w.optLat h x.1 * 1000)))
  let w := w.wrI h F.SET_OPT_LAT.TAU x.2 (clampI (-32768) 32767 (roundR (tau * 100)))
  w.wr h F.SET_OPT_FF.VALUE x.2 (f32Of (ff.getD x.2 0))

@[simp] theorem World.lookVar_opt (h : Half) (ff : List Rat) (w : World) (x : OVar × Nat) : (w.lookVar h ff x).opt = w.opt := by simp [World.lookVar]

@[simp] theorem World.lookVar_fresh (h : Half) (ff : List Rat) (w : World) (x : OVar × Nat) : (w.lookVar h ff x).fresh = w.fresh := by
  simp [World.lookVar]

theorem World.rd_lookVar_own (h : Half) (ff : List Rat) (w : World) (x : OVar × Nat) :
    (w.lookVar h ff x).rd h F.SET_OPT_FF.VALUE x.2 = f32Of (ff.getD x.2 0) % 2 ^ 32 :=
  World.rd_wr_same _ _ _ _ _ (by decide)

theorem World.rd_lookVar_other (h : Half) (ff : List Rat) (w : World) (x : OVar × Nat) {j : Nat} (hj : j ≠ x.2) :
    (w.lookVar h ff x).rd h F.SET_OPT_FF.VALUE j = w.rd h F.SET_OPT_FF.VALUE j := by
  rw [World.lookVar, World.rd_wr_idx _ h h F.SET_OPT_FF.VALUE F.SET_OPT_FF.VALUE _ (by decide) (by decide) hj]
  simp (disch := decide) only [World.rd_wr_apart, World.wrI]

/-- The work of a 20 ms boundary (R175). -/
def World.lookahead (w : World) (h : Half) : World :=
  let u := w.free.1
  let w := w.free.2
  let u2 := w.free.1
  let w := w.free.2
  let p := w.histPoint h (f32Val u.toNat)
  let w := w.updOpt h fun o => { o with hist := (p :: o.hist).filter (fun x => w.mt h ≤ x.t + 60 * sec) }
  let w := w.optCorr h p.f
  let o := w.optm h
  let q := w.qStar h p.f
  let ff := o.vars.map (fun v => w.ffOf h v q)
  let vsp := (o.throughput.map (fun v => w.speedSp h v.2 q (f32Val u2.toNat))).getD (w.opt.get h).vsp
  let w := w.updOpt h fun m => { m with ff := ff, vsp := vsp }
  let w := w.forAll o.vars.zipIdx (World.lookVar h ff)
  let late := o.vars.any (fun v => decide (w.horizon h < w.optTau h v))
  (w.wr h F.SET_OPT_STATUS.LATE_FF 0 (b2n late)).wr h F.SET_OPT_STATUS.LAT_DEFAULT 0 (b2n (o.vars.any (fun v => (w.valveLat h v.mf).isNone)))

/-- The grain correction changes its factor alone. -/
theorem World.optCorr_opt (w : World) (h : Half) (f : Rat) : ((w.optCorr h f).opt.get h).hist = (w.opt.get h).hist ∧
    ((w.optCorr h f).opt.get h).sec = (w.opt.get h).sec := by
  unfold World.optCorr
  dsimp only
  split
  · unfold World.when
    split <;> simp
  · exact ⟨rfl, rfl⟩

@[simp] theorem World.optCorr_fresh (w : World) (h : Half) (f : Rat) : (w.optCorr h f).fresh = w.fresh := by
  unfold World.optCorr
  dsimp only
  split
  · simp [World.apply_when World.fresh]
  · rfl

theorem World.lookahead_leaves (w : World) (h : Half) : (w.lookahead h).fresh = w.fresh + 2 ∧
    ((w.lookahead h).opt.get h).ff.length = (w.optm h).vars.length ∧
    (∀ i < (w.optm h).vars.length, (w.lookahead h).rd h F.SET_OPT_FF.VALUE i = f32Of (((w.lookahead h).opt.get h).ff.getD i 0) % 2 ^ 32) ∧
    (∀ x ∈ ((w.lookahead h).opt.get h).hist, w.mt h ≤ x.t + 60 * sec) ∧ ∃ p ∈ ((w.lookahead h).opt.get h).hist, p.t = w.mt h := by
  unfold World.lookahead
  extract_lets u w1 u2 w2 p w3 w4 o q ff vsp w5 w6 late
  have hopt : w6.opt = w5.opt := World.forAll_keeps World.opt (World.lookVar_opt h ff) _ w5
  have hfresh : w6.fresh = w5.fresh := World.forAll_keeps World.fresh (World.lookVar_fresh h ff) _ w5
  have hsec : (w4.opt.get h).sec = (w.opt.get h).sec := by
    rw [show (w4.opt.get h).sec = (w3.opt.get h).sec from (World.optCorr_opt w3 h p.f).2]
    simp [w3, w2, w1, World.free]
  have ho : o = w.optm h := World.optm_congr hsec
  have hlen : ff.length = (w.optm h).vars.length := by rw [← ho, List.length_map]
  have hff : (w5.opt.get h).ff = ff := by simp [w5]
  have hhist : (w5.opt.get h).hist = (p :: (w.opt.get h).hist).filter fun x => w.mt h ≤ x.t + 60 * sec := by
    rw [show (w5.opt.get h).hist = (w4.opt.get h).hist by simp [w5], show (w4.opt.get h).hist = (w3.opt.get h).hist from (World.optCorr_opt w3 h p.f).1]
    simp only [w3, World.opt_updOpt, Two.get_upd_same]
    rfl
  have hpt : p.t = w.mt h := rfl
  simp only [World.wr_opt, World.wr_fresh, hopt, hff, hhist]
  refine ⟨?_, hlen, fun i hi => ?_, fun x hx => ?_, ⟨p, ?_, hpt⟩⟩
  · rw [hfresh]
    simp [w5, w4, w3, w2, w1, World.free]
  · simp (disch := decide) only [World.rd_wr_apart]
    have hi' : i < o.vars.length := ho ▸ hi
    have hmem : (o.vars[i], i) ∈ o.vars.zipIdx := List.mk_mem_zipIdx_iff_getElem?.mpr (List.getElem?_eq_getElem hi')
    have hnd : (o.vars.zipIdx.map Prod.snd).Nodup := by
      rw [List.zipIdx_map_snd]
      exact List.nodup_range'
    have hat := World.forAll_at (f := World.lookVar h ff) (fun u n => u.rd h F.SET_OPT_FF.VALUE n) Prod.snd
      (fun _ v => f32Of (ff.getD v.2 0) % 2 ^ 32) (World.rd_lookVar_own h ff) (fun u v _ hj => World.rd_lookVar_other h ff u v hj) hnd w5
    have hat' := hat.1 _ hmem
    dsimp only at hat'
    exact hat'
  · exact of_decide_eq_true (List.mem_filter.mp hx).2
  · exact List.mem_filter.mpr ⟨List.mem_cons_self, decide_eq_true (by rw [hpt]; exact Nat.le_add_right _ _)⟩

/-- What the solver's end is held to bounds its registers. -/
theorem OptProb.valid_bounds {p : OptProb} {sol : OptSol} (hvalid : p.valid sol = true) :
    sol.res ≤ 4 ∧ sol.iter ≤ 64 ∧ droppedBits sol.farkas.length < 8 := by
  unfold OptProb.valid at hvalid
  simp only [Bool.and_eq_true, decide_eq_true_eq] at hvalid
  obtain ⟨⟨hiter, -⟩, hres⟩ := hvalid
  refine ⟨?_, hiter, ?_⟩
  · split at hres <;> first | omega | contradiction
  · unfold droppedBits
    split <;> decide

/-- The fields of the four targets. -/
theorem tgtField_facts {which : Nat} (h1 : 1 ≤ which) (h4 : which ≤ 4) : (tgtField which).lo + (tgtField which).w ≤ 32 ∧ (tgtField which).w = 32 ∧
    (tgtField which).reg < 2 ^ 25 ∧ fieldsApart F.SET_OPT_STATUS.TGT_CLAMP (tgtField which) = true := by
  interval_cases which <;> decide

/-- A target written (R165). -/
theorem exec_optTargetWrite {s : State} {h : Half} {init which v : Nat} {above under lower : Bool} (h1 : 1 ≤ which) (h4 : which ≤ 4)
    (ha : ((s.w.optm h).tgtMaxOf which).any (fun t => decide (t < f32Val v)) = above) (hu : (decide (which ≠ 1) && decide (f32Val v < 0)) = under)
    (hl : (s.w.optm h).cons.any (fun c => decide (c.tgt = which) && decide (c.tgtMax < f32Val v)) = lower) :
    exec (.optTargetWrite h init which v) s = .next { s with
      w := (s.w.wr h (tgtField which) 0 (if above then f32Of (((s.w.optm h).tgtMaxOf which).getD 0) else if under then 0 else v)).wr h
        F.SET_OPT_STATUS.TGT_CLAMP 0 (b2n (above || under || lower)) } := by
  subst ha hu hl
  change execOptTargetWrite h init which v s = _
  unfold execOptTargetWrite lift
  dsimp only
  rw [if_neg (by omega), show (decide (1 ≤ which) && decide (which ≤ 4)) = true by simp [h1, h4]]
  simp only [World.when, if_true]

end Sys2Proof.Machine
end

section
open Sys2Proof Sys2Proof.Machine

/-- Settles O24: each end of a solve from what it writes last; the operator's commands each by the field they set. -/
theorem optimizerSolves : Obligations.optimizerSolves := by
  unfold Obligations.optimizerSolves
  refine ⟨?idle, ?g0, ?feasible, ?fallback, ?stopped, ?ahead, ?aheadStopped, ?dither, ?mode, ?modeOut, ?profile, ?profileOut, ?reset, ?target, ?clamp, ?pref⟩
  case idle =>
    intro h sol s hrun hidle
    have hexec := exec_optSolve sol hrun
    rw [State.solved, if_pos hidle] at hexec
    obtain ⟨hr, hi, hd, -⟩ := (s.w.atSolve h).rd_optResult h sol.us (show 6 < 8 by decide) (show 0 < 128 by decide) (show 0 < 8 by decide)
    refine .of_exec hexec ⟨?_, ?_, ?_, World.rd_ditherSet_off _ _, ?_, exec_quiet hexec rfl⟩
    · rw [World.rd_ditherSet _ _ _ _ _ (by decide), hr]
    · rw [World.rd_ditherSet _ _ _ _ _ (by decide), hi]
    · rw [World.rd_ditherSet _ _ _ _ _ (by decide), hd]
    · rw [(World.ditherSet_opt _ _ _).1, World.optResult_opt, World.atSolve_idle]
  case g0 =>
    intro h sol s hrun hidle hg
    have hexec := exec_optSolve sol hrun
    rw [State.solved, if_neg (by simp [hidle]), if_pos hg] at hexec
    obtain ⟨hr, hi, -, -⟩ := (s.w.atSolve h).rd_optResult h sol.us (show 5 < 8 by decide) (show 0 < 128 by decide) (show 0 < 8 by decide)
    refine .of_exec hexec ⟨?_, ?_, World.rd_ditherSet_off _ _, exec_quiet hexec rfl⟩
    · rw [World.rd_ditherSet _ _ _ _ _ (by decide), hr]
    · rw [World.rd_ditherSet _ _ _ _ _ (by decide), hi]
  case feasible =>
    intro h sol s hrun hidle hg hvalid h2
    have hexec := exec_optSolve sol hrun
    rw [State.solved, if_neg (by simp [hidle]), if_neg hg, if_neg (by simp [hvalid])] at hexec
    dsimp only at hexec
    rw [if_pos h2] at hexec
    obtain ⟨-, hiter, hdrop⟩ := OptProb.valid_bounds hvalid
    obtain ⟨hr, hi, hd, ht⟩ := (s.w.atSolve h).rd_optResult h sol.us (show sol.res < 8 by omega) (show sol.iter < 128 by omega) hdrop
    obtain ⟨hfails, hretreat, hsol, hother⟩ := ((s.w.atSolve h).optResult h sol.res sol.iter sol.us (droppedBits sol.farkas.length)).rd_optFeasible
      s.own h ((s.w.atSolve h).optProb s.own h) sol
    refine .of_exec hexec ⟨?_, ?_, ?_, ?_, ?_, ?_, exec_quiet hexec rfl, fun i hlt => ?_⟩
    · rw [World.rd_ditherSet _ _ _ _ _ (by decide), hother _ (by decide) (by decide) (by decide), hr]
    · rw [World.rd_ditherSet _ _ _ _ _ (by decide), hother _ (by decide) (by decide) (by decide), hi]
    · rw [World.rd_ditherSet _ _ _ _ _ (by decide), hother _ (by decide) (by decide) (by decide), hd]
    · rw [World.rd_ditherSet _ _ _ _ _ (by decide), hother _ (by decide) (by decide) (by decide), ht]
    · rw [World.rd_ditherSet _ _ _ _ _ (by decide), hfails]
    · rw [World.rd_ditherSet _ _ _ _ _ (by decide), hretreat]
    · rw [World.rd_ditherSet _ _ _ _ _ (by decide), hsol i (by rwa [World.optm_congr (by rw [World.optResult_opt])])]
  case fallback =>
    intro h sol s hrun hidle hg hvalid h3
    have hexec := exec_optSolve sol hrun
    rw [State.solved, if_neg (by simp [hidle]), if_neg hg, if_neg (by simp [hvalid])] at hexec
    dsimp only at hexec
    rw [if_neg (by omega)] at hexec
    obtain ⟨hres, hiter, hdrop⟩ := OptProb.valid_bounds hvalid
    obtain ⟨hr, -, -, -⟩ := (s.w.atSolve h).rd_optResult h sol.us (show sol.res < 8 by omega) (show sol.iter < 128 by omega) hdrop
    obtain ⟨hcount, hfails, hretreat, hkeep⟩ := ((s.w.atSolve h).optResult h sol.res sol.iter sol.us (droppedBits sol.farkas.length)).rd_optFallback
      s.own h ((s.w.atSolve h).optProb s.own h)
    rw [World.optResult_opt] at hcount hfails hretreat
    refine .of_exec hexec ⟨?_, ?_, ?_, fun hn => ?_, fun i => ?_, exec_quiet hexec rfl⟩
    · rw [World.rd_ditherSet _ _ _ _ _ (by decide), hkeep, hr]
    · rw [(World.ditherSet_opt _ _ _).2, hcount]
    · rw [World.rd_ditherSet _ _ _ _ _ (by decide), hfails]
    · rw [World.rd_ditherSet _ _ _ _ _ (by decide)]
      exact hretreat (by rwa [World.optm_congr (by rw [World.optResult_opt])])
    · rw [World.rd_ditherSet _ _ _ _ _ (by decide), World.rd_optFallback_soln, World.optResult]
      simp (disch := decide) only [World.rd_wr_apart]
      exact World.rd_atSolve _ _ _ _ (by decide)
  case stopped =>
    intro h sol s hrun
    exact .of_exec rfl (by simp [hrun])
  case ahead =>
    intro h s hrun
    have hexec : exec (.lookaheadUpdate h) s = .next { s with w := s.w.lookahead h } := by
      change execLookaheadUpdate h s = _
      unfold execLookaheadUpdate lift
      dsimp only
      rw [hrun]
      rfl
    exact .of_exec hexec ⟨exec_quiet hexec rfl, s.w.lookahead_leaves h⟩
  case aheadStopped =>
    intro h s hrun
    exact .of_exec rfl (by simp [hrun])
  case dither =>
    intro h i s hrun hd hi
    have hexec : exec (.ditherStep h i) s = .next { s with
        w := s.w.updOpt h fun o => { o with lfsr := listSet o.lfsr i (lfsrStep (o.lfsr.getD i 0)) } } := by
      change execDitherStep h i s = _
      simp [execDitherStep, hrun, hd, -List.getD_eq_getElem?_getD]
    refine .of_exec hexec ⟨?_, fun j hj => ?_, exec_regsBut hexec rfl, exec_quiet hexec rfl⟩
    · simp [getElem?_listSet_same _ hi]
    · simp [getElem?_listSet_ne _ _ hj]
  case mode =>
    intro h init v s hv
    have hexec : exec (.optModeWrite h init v) s = _ := rfl
    refine .of_exec hexec ⟨?_, ?_, exec_regsBut hexec rfl, exec_quiet hexec rfl⟩
    · simp (disch := decide) [hv, World.rd_wr_same]
      omega
    · simp [hv]
  case modeOut =>
    intro h init v s hv
    exact .of_exec rfl (by simp [Nat.not_lt.mpr hv])
  case profile =>
    intro h init v s hv h8 hne hfirst
    have hexec : exec (.optProfileWrite h init v) s = .next { s with w := (s.w.wr h F.SET_OPT_CTRL.PROFILE 0 v).optReset h } := by
      change execOptProfileWrite h init v s = _
      simp [execOptProfileWrite, hv, hne, hfirst]
    have hprof : (s.w.wr h F.SET_OPT_CTRL.PROFILE 0 v).optProfile h = (s.w.optm h).profs.getD v {} := by
      rw [World.optProfile, World.rd_wr_same _ _ _ _ _ (by decide), World.optm_congr (by rw [World.wr_opt])]
      exact congrArg (fun i => (s.w.optm h).profs.getD i {}) (Nat.mod_eq_of_lt h8)
    have hoptm : (s.w.wr h F.SET_OPT_CTRL.PROFILE 0 v).optm h = s.w.optm h := World.optm_congr (by rw [World.wr_opt])
    refine .of_exec hexec ⟨?_, ?_, ?_, ?_, ?_, ?_, exec_quiet hexec rfl⟩
    · simp (disch := decide) [World.optReset, World.rd_wr_apart, World.rd_wr_same]
      exact h8
    · simp [World.optReset]
    · simp [World.optReset]
    · simp (disch := decide) [World.optReset, World.rd_wr_apart, World.rd_wr_same]
    · simp (disch := decide) [World.optReset, World.rd_wr_same]
    · simp [World.optReset, hprof, hoptm, Function.comp_def]
  case profileOut =>
    intro h init v s hv
    exact .of_exec rfl (by simp [Nat.not_lt.mpr hv])
  case reset =>
    intro h init s hsec
    have hexec : exec (.optResetModel h init) s = _ := rfl
    refine .of_exec hexec ⟨?_, ?_, ?_, ?_, ?_, exec_regsBut hexec rfl, exec_quiet hexec rfl⟩ <;>
      simp (disch := decide) [hsec, World.optReset, World.rd_wr_apart, World.rd_wr_same]
  case target =>
    intro h init which v s h1 h4 hv htop hneg hcons
    obtain ⟨hok, hwidth, hreg, hapart⟩ := tgtField_facts h1 h4
    have hunder : (decide (which ≠ 1) && decide (f32Val v < 0)) = false := by
      rcases hneg with rfl | h0
      · rfl
      · rw [decide_eq_false (not_lt.mpr h0), Bool.and_false]
    have hexec := exec_optTargetWrite (s := s) (h := h) (init := init) h1 h4 (by rw [htop, Option.any_none]) hunder (by rw [hcons, List.any_nil])
    refine .of_exec hexec ⟨?_, ?_, s.w.regsBut_wr_wr _ _ _ _ _ _ hreg (by decide), exec_quiet hexec rfl⟩
    · rw [World.rd_wr_apart _ _ _ _ _ _ _ _ hapart, World.rd_wr_same _ _ _ _ _ hok, hwidth]
      exact Nat.mod_eq_of_lt hv
    · rw [World.rd_wr_same _ _ _ _ _ (by decide)]
      rfl
  case clamp =>
    intro h init which v s top h1 h4 htop hlt
    obtain ⟨hok, hwidth, -, hapart⟩ := tgtField_facts h1 h4
    have hexec := exec_optTargetWrite (s := s) (h := h) (init := init) (v := v) (above := true) h1 h4 (by rw [htop]; exact decide_eq_true hlt)
      rfl rfl
    refine .of_exec hexec ⟨?_, ?_, exec_quiet hexec rfl⟩
    · rw [World.rd_wr_apart _ _ _ _ _ _ _ _ hapart, World.rd_wr_same _ _ _ _ _ hok, hwidth, htop]
      rfl
    · rw [World.rd_wr_same _ _ _ _ _ (by decide)]
      rfl
  case pref =>
    intro h init v s
    have hexec : exec (.optTargetWrite h init 5 v) s = .next { s with
        w := (s.w.wr h F.SET_OPT_PREF.PREF 0 (min v 100)).wr h F.SET_OPT_STATUS.TGT_CLAMP 0 (b2n (100 < v)) } := rfl
    refine .of_exec hexec ⟨?_, ?_, ?_, exec_quiet hexec rfl⟩
    · simp (disch := decide) [World.rd_wr_apart, World.rd_wr_same]
    · simp (disch := decide) [World.rd_wr_same]
    · exact s.w.regsBut_wr_wr _ _ _ _ _ _ (by decide) (by decide)
end

section
/-!
SUPPORT. The valve channels: what each shared operation leaves of a channel's engine and of its registers (R185–R216).
-/
namespace Sys2Proof.Machine

/-- A list of operations keeps what each of its members keeps. -/
theorem World.forAll_keeps_of_mem {α β : Type} (g : World → β) {f : World → α → World} {l : List α} (hf : ∀ a ∈ l, ∀ u, g (f u a) = g u)
    (w : World) : g (w.forAll l f) = g w := by
  unfold World.forAll
  induction l generalizing w with
  | nil => rfl
  | cons a l ih => exact (ih (fun b hb => hf b (List.mem_cons_of_mem a hb)) (f w a)).trans (hf a List.mem_cons_self w)

/-! The engine of a channel. -/

theorem World.eng_congr {w v : World} (hv : w.vlv.eng = v.vlv.eng) (ch : Nat) : w.eng ch = v.eng ch := by rw [World.eng, World.eng, hv]

@[simp] theorem World.eng_wr (w : World) (h : Half) (f : Field) (i v ch : Nat) : (w.wr h f i v).eng ch = w.eng ch := World.eng_congr (by simp) ch
@[simp] theorem World.eng_wrI (w : World) (h : Half) (f : Field) (i : Nat) (v : Int) (ch : Nat) : (w.wrI h f i v).eng ch = w.eng ch :=
  World.eng_congr (by simp) ch
@[simp] theorem World.eng_bump (w : World) (h : Half) (f : Field) (i ch : Nat) : (w.bump h f i).eng ch = w.eng ch := World.eng_congr (by simp) ch
@[simp] theorem World.eng_raise (w : World) (h : Half) (num arg ch : Nat) : (w.raise h num arg).eng ch = w.eng ch := World.eng_congr (by simp) ch
@[simp] theorem World.vlvEvent_vlv (w : World) (t k c cause : Nat) : (w.vlvEvent t k c cause).vlv = w.vlv := by simp [World.vlvEvent]
@[simp] theorem World.eng_vlvEvent (w : World) (t k c cause ch : Nat) : (w.vlvEvent t k c cause).eng ch = w.eng ch := World.eng_congr (by simp) ch
@[simp] theorem World.eng_updEng_same (w : World) (ch : Nat) (u : Eng → Eng) : (w.updEng ch u).eng ch = u (w.eng ch) := by
  simp [World.eng, World.updEng, NMap.upd]

theorem World.eng_updEng_ne (w : World) {c ch : Nat} (u : Eng → Eng) (hc : c ≠ ch) : (w.updEng ch u).eng c = w.eng c := by
  simp [World.eng, World.updEng, NMap.upd, NMap.get_set_ne _ _ _ hc]

@[simp] theorem World.rd_updEng (w : World) (ch : Nat) (u : Eng → Eng) (h : Half) (f : Field) (i : Nat) :
    (w.updEng ch u).rd h f i = w.rd h f i := (rfl)
@[simp] theorem World.flag_updEng (w : World) (ch : Nat) (u : Eng → Eng) (h : Half) (f : Field) (i : Nat) :
    (w.updEng ch u).flag h f i = w.flag h f i := (rfl)
@[simp] theorem World.now_updEng (w : World) (ch : Nat) (u : Eng → Eng) : (w.updEng ch u).now = w.now := (rfl)
@[simp] theorem World.tile_updEng (w : World) (ch : Nat) (u : Eng → Eng) : (w.updEng ch u).vlv.tile = w.vlv.tile := (rfl)
@[simp] theorem World.boostFree_updEng (w : World) (ch c : Nat) (u : Eng → Eng) : (w.updEng ch u).boostFree c = w.boostFree c := (rfl)
theorem World.eng_when (w : World) (c : Bool) (f : World → World) (ch : Nat) : (w.when c f).eng ch = if c then (f w).eng ch else w.eng ch :=
  World.apply_when (fun u => u.eng ch) w c f

theorem World.rd_vlvEvent (w : World) (t k c cause : Nat) (h : Half) (f : Field) (i : Nat)
    (hf : (decide (f.reg < 2 ^ 25) && decide (f.reg ≠ 0x100018)) = true) : (w.vlvEvent t k c cause).rd h f i = w.rd h f i :=
  World.rd_raiseBoth _ _ _ _ _ _ hf

/-! The program counter. -/

/-- The engine's program counter has moved on. -/
theorem World.stepped_advance {v w : World} {ch : Nat} (hpc : w.rd .A F.VLV_ENG.PC ch = v.rd .A F.VLV_ENG.PC ch) :
    v.Stepped (w.advance ch) ch := by
  unfold World.Stepped World.advance
  dsimp only
  rw [hpc]
  refine ⟨fun hlt => ?_, fun heq => ?_⟩
  · rw [if_neg hlt.ne, World.rd_wr_same _ _ _ _ _ (by decide)]
    exact Nat.mod_eq_of_lt (show _ < 2048 by omega)
  · rw [if_pos heq, World.rd_updEng, World.eng_updEng_same]
    exact ⟨hpc.trans heq, rfl⟩

/-- The move is measured from the program counter alone. -/
theorem World.Stepped.of_rd {u v w : World} {ch : Nat} (hs : u.Stepped w ch) (hpc : u.rd .A F.VLV_ENG.PC ch = v.rd .A F.VLV_ENG.PC ch) :
    v.Stepped w ch := by
  unfold World.Stepped at hs ⊢
  rwa [← hpc]

/-- A register read apart from the program counter. -/
theorem World.rd_advance (w : World) (ch : Nat) (h : Half) (f : Field) (i : Nat) (hf : fieldsApart F.VLV_ENG.PC f = true) :
    (w.advance ch).rd h f i = w.rd h f i := by
  unfold World.advance
  dsimp only
  split
  · exact World.rd_updEng _ _ _ _ _ _
  · exact World.rd_wr_apart _ _ _ _ _ _ _ _ hf

/-- The move touches of the engines only the mark of the channel's last word. -/
theorem World.eng_advance (w : World) (ch c : Nat) : ∃ p, (w.advance ch).eng c = { w.eng c with past := p } := by
  unfold World.advance
  dsimp only
  split
  · by_cases hc : c = ch
    · subst hc
      exact ⟨true, World.eng_updEng_same _ _ _⟩
    · exact ⟨_, World.eng_updEng_ne _ _ hc⟩
  · exact ⟨_, World.eng_wr _ _ _ _ _ _⟩

@[simp] theorem World.tile_advance (w : World) (ch : Nat) : (w.advance ch).vlv.tile = w.vlv.tile := by
  unfold World.advance
  dsimp only
  split <;> simp

/-! Sources, turn-off and faults. -/

theorem World.rd_turnOff_src (w : World) (ch mode : Nat) : (w.turnOff ch mode).rd .A F.VLV_STATUS.SRC ch = 0 := by
  simp (disch := decide) [World.turnOff, World.rd_wr_apart, World.rd_wr_same]

theorem World.rd_turnOff (w : World) (ch mode : Nat) (h : Half) (f : Field) (i : Nat) (hs : fieldsApart F.VLV_STATUS.SRC f = true)
    (hd : fieldsApart F.VLV_STATUS.DOWNGRADED f = true) : (w.turnOff ch mode).rd h f i = w.rd h f i := by
  simp only [World.turnOff, World.rd_updEng, World.rd_wr_apart _ _ _ _ _ _ _ _ hd, World.rd_wr_apart _ _ _ _ _ _ _ _ hs]

theorem World.eng_turnOff (w : World) (ch mode : Nat) : ∃ b, (w.turnOff ch mode).eng ch =
    { w.eng ch with fast := b, drive := .off, blank := w.now } := by
  refine ⟨mode = 2 && (bankChans (ch / 4)).all (fun c => c = ch || w.rd .A F.VLV_STATUS.SRC c = 0), ?_⟩
  simp only [World.turnOff, World.eng_updEng_same, World.eng_wr, World.wr_now]

@[simp] theorem World.now_turnOff (w : World) (ch mode : Nat) : (w.turnOff ch mode).now = w.now := by simp [World.turnOff]

theorem World.rd_stopEngine_run (w : World) (ch : Nat) : (w.stopEngine ch).rd .A F.VLV_STATUS.RUN ch = 0 := by
  simp (disch := decide) [World.stopEngine, World.rd_wr_same]

theorem World.rd_stopEngine (w : World) (ch : Nat) (h : Half) (f : Field) (i : Nat) (hf : fieldsApart F.VLV_STATUS.RUN f = true) :
    (w.stopEngine ch).rd h f i = w.rd h f i := by
  rw [World.stopEngine, World.rd_wr_apart _ _ _ _ _ _ _ _ hf, World.rd_updEng]

@[simp] theorem World.eng_stopEngine (w : World) (ch : Nat) : (w.stopEngine ch).eng ch =
    { w.eng ch with wait := .none, req := none, dith := {}, wantAmp := 0, ramp := none, track := false } := by
  rw [World.stopEngine, World.eng_wr, World.eng_updEng_same]

/-- What a fault leaves: its code, the engine halted, the channel off (R211). -/
theorem World.rd_vlvFault (w : World) (ch : Nat) {code : Nat} (h16 : code < 16) (hc : code ≠ 5) :
    (w.vlvFault ch code).rd .A F.VLV_STATUS.FAULT ch = code ∧ (w.vlvFault ch code).rd .A F.VLV_STATUS.RUN ch = 0 ∧
      (w.vlvFault ch code).rd .A F.VLV_STATUS.SRC ch = 0 := by
  unfold World.vlvFault
  dsimp only
  rw [if_neg hc]
  refine ⟨?_, ?_, ?_⟩
  · simp (disch := decide) only [World.rd_vlvEvent, World.rd_updEng, World.rd_stopEngine, World.rd_turnOff, World.rd_wr_same]
    exact Nat.mod_eq_of_lt h16
  · simp (disch := decide) only [World.rd_vlvEvent, World.rd_updEng, World.rd_stopEngine_run]
  · simp (disch := decide) only [World.rd_vlvEvent, World.rd_updEng, World.rd_stopEngine, World.rd_turnOff_src]

/-- A channel's FAST decay goes on as CLAMP (R208). -/
def World.endFast (w : World) (c : Nat) : World := w.updEng c fun e => { e with fast := false }

/-- The channels of the bank beside `ch` go on as CLAMP. -/
def World.endFastBeside (w : World) (ch : Nat) : World := w.forAll ((bankChans (ch / 4)).filter (· ≠ ch)) World.endFast

theorem World.eng_endFastBeside (w : World) (ch : Nat) : (w.endFastBeside ch).eng ch = w.eng ch := by
  refine World.forAll_keeps_of_mem (fun u => u.eng ch) (fun c hc u => u.eng_updEng_ne _ ?_) w
  have hne := (List.mem_filter.mp hc).2
  simp only [ne_eq, decide_not, Bool.not_eq_true', decide_eq_false_iff_not] at hne
  exact Ne.symm hne

@[simp] theorem World.rd_endFastBeside (w : World) (ch : Nat) (h : Half) (f : Field) (i : Nat) : (w.endFastBeside ch).rd h f i = w.rd h f i :=
  World.forAll_keeps (f := World.endFast) (fun u => u.rd h f i) (fun u c => u.rd_updEng c _ h f i) _ w

@[simp] theorem World.now_endFastBeside (w : World) (ch : Nat) : (w.endFastBeside ch).now = w.now :=
  World.forAll_keeps (f := World.endFast) World.now (fun u c => u.now_updEng c _) _ w

theorem World.admitSrc_eq (w : World) (ch src : Nat) : w.admitSrc ch src =
    (((w.wr .A F.VLV_STATUS.SRC ch src).endFastBeside ch).updEng ch fun e => { e with
      level := none, gramp := none, fast := false, req := none, blank := ((w.wr .A F.VLV_STATUS.SRC ch src).endFastBeside ch).now
      drive := if e.drive = .off then .current else e.drive }).wr .A F.VLV_STATUS.GREEN ch 0 := (rfl)

theorem World.rd_admitSrc_src (w : World) (ch src : Nat) : (w.admitSrc ch src).rd .A F.VLV_STATUS.SRC ch = src % 2 ^ 2 := by
  rw [World.admitSrc_eq, World.rd_wr_apart _ _ _ _ _ _ _ _ (by decide), World.rd_updEng, World.rd_endFastBeside,
    World.rd_wr_same _ _ _ _ _ (by decide)]

theorem World.rd_admitSrc_green (w : World) (ch src : Nat) : (w.admitSrc ch src).rd .A F.VLV_STATUS.GREEN ch = 0 := by
  rw [World.admitSrc_eq, World.rd_wr_same _ _ _ _ _ (by decide)]
  rfl

theorem World.rd_admitSrc (w : World) (ch src : Nat) (h : Half) (f : Field) (i : Nat) (hs : fieldsApart F.VLV_STATUS.SRC f = true)
    (hg : fieldsApart F.VLV_STATUS.GREEN f = true) : (w.admitSrc ch src).rd h f i = w.rd h f i := by
  rw [World.admitSrc_eq, World.rd_wr_apart _ _ _ _ _ _ _ _ hg, World.rd_updEng, World.rd_endFastBeside, World.rd_wr_apart _ _ _ _ _ _ _ _ hs]

theorem World.eng_admitSrc (w : World) (ch src : Nat) : ∃ d, (w.admitSrc ch src).eng ch =
    { w.eng ch with level := none, gramp := none, fast := false, req := none, blank := w.now, drive := d } := by
  refine ⟨if (w.eng ch).drive = .off then .current else (w.eng ch).drive, ?_⟩
  rw [World.admitSrc_eq, World.eng_wr, World.eng_updEng_same, World.eng_endFastBeside, World.now_endFastBeside, World.eng_wr, World.wr_now]

/-! Targets (R207). -/

/-- A request counted before it is decided. -/
def World.asked (w : World) (ch want amp : Nat) : World := w.updEng ch fun e => { e with want := want, wantAmp := amp }

/-- A request that fits is taken at once. -/
theorem World.askTgt_fits {w : World} {ch want amp : Nat} (holds : Bool) (hfit : (w.asked ch want amp).fits ch = true) :
    (∃ c, (w.askTgt ch want amp holds).eng ch = { w.eng ch with
      want := want, wantAmp := amp, constAt := c, tgt := want, dith := { (w.eng ch).dith with amp := amp }, req := none }) ∧
      (w.askTgt ch want amp holds).rd .A F.VLV_STATUS.DELAYED ch = 0 := by
  have he : w.askTgt ch want amp holds = ((((w.asked ch want amp).setTgt ch want amp).updEng ch fun e => { e with req := none }).wr .A
      F.VLV_STATUS.DELAYED ch 0).wr .A F.VLV_STATUS.LIMITED ch 0 := if_pos hfit
  rw [he]
  refine ⟨⟨if (w.eng ch).tgt = want then (w.eng ch).constAt else w.now, ?_⟩, ?_⟩
  · simp only [World.eng_wr, World.eng_updEng_same, World.setTgt, World.asked, World.now_updEng]
  · simp (disch := decide) [World.rd_wr_apart, World.rd_wr_same]

/-- A request that does not fit waits. -/
theorem World.askTgt_waits {w : World} {ch want amp : Nat} (holds : Bool) (hfit : (w.asked ch want amp).fits ch = false) :
    (w.askTgt ch want amp holds).eng ch = { w.eng ch with want := want, wantAmp := amp, req := some ⟨false, w.now, holds, false⟩ } ∧
      (w.askTgt ch want amp holds).rd .A F.VLV_STATUS.DELAYED ch = 1 := by
  have he : w.askTgt ch want amp holds = ((((w.asked ch want amp).updEng ch fun e => { e with req := some ⟨false, w.now, holds, false⟩ }).wr .A
      F.VLV_STATUS.DELAYED ch 1).wr .A F.VLV_STATUS.LIMITED ch 0).bump .A F.VLV_CNT.DELAYS ch := if_neg (by simpa [World.asked] using hfit)
  rw [he]
  refine ⟨?_, ?_⟩
  · simp only [World.eng_bump, World.eng_wr, World.eng_updEng_same, World.asked]
  · simp (disch := decide) [World.rd_bump_apart, World.rd_wr_apart, World.rd_wr_same]

/-- A request leaves every register but three. -/
theorem World.rd_askTgt (w : World) (ch want amp : Nat) (holds : Bool) (h : Half) (f : Field) (i : Nat)
    (hd : fieldsApart F.VLV_STATUS.DELAYED f = true) (hl : fieldsApart F.VLV_STATUS.LIMITED f = true)
    (hc : fieldsApart F.VLV_CNT.DELAYS f = true) : (w.askTgt ch want amp holds).rd h f i = w.rd h f i := by
  unfold World.askTgt
  dsimp only
  split
  · rw [World.rd_wr_apart _ _ _ _ _ _ _ _ hl, World.rd_wr_apart _ _ _ _ _ _ _ _ hd]
    rfl
  · rw [World.rd_bump_apart _ _ _ _ _ _ _ hc, World.rd_wr_apart _ _ _ _ _ _ _ _ hl, World.rd_wr_apart _ _ _ _ _ _ _ _ hd]
    rfl

/-- A channel with source NONE asks nothing of its bank. -/
theorem World.fits_of_none {w : World} {ch : Nat} (hsrc : w.rd .A F.VLV_STATUS.SRC ch = 0) : w.fits ch = true := by
  have hzero : (w.setTgt ch (w.eng ch).want (w.eng ch).wantAmp).demand ch = 0 := by
    rw [World.demand, World.setTgt, World.rd_updEng, if_pos hsrc]
  rw [World.fits, Bool.or_eq_true]
  exact .inl (decide_eq_true (hzero.trans_le (Nat.zero_le _)))

/-- What an instruction's request for a target leaves, taken or waiting (R207). -/
theorem World.instrTgt_leaves (w : World) (ch want amp : Nat) :
    let t := w.instrTgt ch want amp
    ((t.eng ch).want = want ∧ (t.eng ch).track = (w.eng ch).track ∧ (t.eng ch).ramp = (w.eng ch).ramp ∧
      (t.eng ch).dith.shape = (w.eng ch).dith.shape ∧ (t.eng ch).dith.freq = (w.eng ch).dith.freq) ∧
    (w.rd .A F.VLV_STATUS.SRC ch = 0 → (t.eng ch).req = none) ∧
    ((t.eng ch).req = none → (t.eng ch).tgt = want ∧ (t.eng ch).dith.amp = amp ∧ t.rd .A F.VLV_STATUS.DELAYED ch = 0 ∧ w.Stepped t ch) ∧
    ((t.eng ch).req ≠ none → (t.eng ch).tgt = (w.eng ch).tgt ∧ t.rd .A F.VLV_STATUS.DELAYED ch = 1 ∧
      t.rd .A F.VLV_ENG.PC ch = w.rd .A F.VLV_ENG.PC ch) := by
  have hpc : (w.askTgt ch want amp true).rd .A F.VLV_ENG.PC ch = w.rd .A F.VLV_ENG.PC ch :=
    World.rd_askTgt _ _ _ _ _ _ _ _ (by decide) (by decide) (by decide)
  cases hfit : (w.asked ch want amp).fits ch with
  | true =>
    obtain ⟨⟨c, heng⟩, hdel⟩ := World.askTgt_fits true hfit
    have ht : w.instrTgt ch want amp = (w.askTgt ch want amp true).advance ch := by
      rw [World.instrTgt, heng]
      rfl
    obtain ⟨p, hadv⟩ := (w.askTgt ch want amp true).eng_advance ch ch
    dsimp only
    rw [ht, hadv, heng, World.rd_advance _ _ _ _ _ (by decide)]
    exact ⟨⟨rfl, rfl, rfl, rfl, rfl⟩, fun _ => rfl, fun _ => ⟨rfl, rfl, hdel, World.stepped_advance hpc⟩, fun hne => absurd rfl hne⟩
  | false =>
    obtain ⟨heng, hdel⟩ := World.askTgt_waits true hfit
    have ht : w.instrTgt ch want amp = w.askTgt ch want amp true := by
      rw [World.instrTgt, heng]
      rfl
    dsimp only
    rw [ht, heng]
    refine ⟨⟨rfl, rfl, rfl, rfl, rfl⟩, fun hsrc => ?_, nofun, fun _ => ⟨rfl, hdel, hpc⟩⟩
    rw [World.fits_of_none (by simpa [World.asked] using hsrc)] at hfit
    exact absurd hfit nofun

/-! The word at the program counter. -/

theorem World.instr_at {w : World} {ch v op : Nat} (f : World → Nat → World) (hw : w.word ch = some v) (hop : bitsOf v 27 5 = op) :
    w.instr ch op f = f w v := by
  simp only [World.instr, hw, if_pos hop]

theorem World.instr_other {w : World} {ch v op : Nat} (f : World → Nat → World) (hw : w.word ch = some v) (hop : bitsOf v 27 5 ≠ op) :
    w.instr ch op f = w := by
  simp only [World.instr, hw, if_neg hop]

/-- The word of an engine that runs and waits for nothing. -/
theorem World.word_eq_some {w : World} {ch v : Nat} (hw : w.word ch = some v) :
    w.flag .A F.VLV_STATUS.RUN ch = true ∧ (w.eng ch).wait = .none ∧ (w.eng ch).req.any (·.holds) = false := by
  simp only [World.word] at hw
  split at hw
  · next hc =>
    simp only [Bool.and_eq_true, Bool.not_eq_true', decide_eq_true_eq] at hc
    obtain ⟨⟨⟨hrun, hwait⟩, hreq⟩, -⟩ := hc
    exact ⟨hrun, hwait, hreq⟩
  · cases hw

end Sys2Proof.Machine
end

section
/-!
SUPPORT. R195–R210: one recipe instruction run.
-/
namespace Sys2Proof.Machine

/-- The returning twin's merge begins in the two engines alone (R210). -/
theorem World.rd_beginMerge (w : World) (ch : Nat) (h : Half) (f : Field) (i : Nat) : (w.beginMerge ch).rd h f i = w.rd h f i := by
  unfold World.beginMerge
  split
  · rfl
  · rw [World.rd_when]
    simp

theorem World.eng_beginMerge (w : World) (ch c : Nat) : ∃ m, (w.beginMerge ch).eng c = { w.eng c with merge := m } := by
  have hupd (u : World) (p : Nat) (m : Option Nat) :
      ∃ m', (u.updEng p fun e => { e with merge := m }).eng c = { u.eng c with merge := m' } := by
    by_cases hc : c = p
    · subst hc
      exact ⟨m, World.eng_updEng_same _ _ _⟩
    · exact ⟨_, World.eng_updEng_ne _ _ hc⟩
  unfold World.beginMerge
  split
  · exact ⟨_, rfl⟩
  · rw [World.eng_when]
    split
    · obtain ⟨m1, h1⟩ := hupd w ch (some w.now)
      obtain ⟨m2, h2⟩ := hupd (w.updEng ch fun e => { e with merge := some w.now }) _ (some w.now)
      exact ⟨m2, by rw [h2, h1]⟩
    · exact ⟨_, rfl⟩

theorem World.rd_flagSp (w : World) (ch v : Nat) (h : Half) (f : Field) (i : Nat) (hf : fieldsApart F.VLV_STATUS.SP_CLAMP f = true) :
    (w.flagSp ch v).rd h f i = w.rd h f i := by
  rw [World.flagSp, World.rd_when, World.rd_wr_apart _ _ _ _ _ _ _ _ hf, ite_self]

@[simp] theorem World.eng_flagSp (w : World) (ch v c : Nat) : (w.flagSp ch v).eng c = w.eng c := by
  rw [World.flagSp, World.eng_when, World.eng_wr, ite_self]

@[simp] theorem World.now_flagSp (w : World) (ch v : Nat) : (w.flagSp ch v).now = w.now := by
  rw [World.flagSp, World.apply_when World.now, World.wr_now, ite_self]

theorem bitsOf_lt (v lo n : Nat) : bitsOf v lo n < 2 ^ n := Nat.mod_lt _ (by positivity)

/-- A phase boundary (R198, R201, R210). -/
def World.phase (w : World) (ch v : Nat) : World :=
  let w := (w.wr .A F.VLV_STATUS.PHASE ch (bitsOf v 24 3)).wr .A F.VLV_STATUS.TOFF ch (bitsOf v 22 2)
  let w := match (w.eng ch).pend with
    | some k => w.wr .A F.VLV_STATUS.BAND ch k
    | none => w
  let w := w.updEng ch fun e => { e with
    hold := bitOf v 21, peak := bitOf v 20, pend := none, constAt := if e.hold && bitOf v 21 then e.constAt else max e.constAt w.now }
  (w.when (bitOf v 21) (·.beginMerge ch)).advance ch

theorem World.phase_leaves (w : World) (ch v : Nat) :
    let t := w.phase ch v
    (t.rd .A F.VLV_STATUS.PHASE ch = bitsOf v 24 3 ∧ t.rd .A F.VLV_STATUS.TOFF ch = bitsOf v 22 2 ∧
      t.rd .A F.VLV_STATUS.BAND ch = ((w.eng ch).pend.getD (w.rd .A F.VLV_STATUS.BAND ch)) % 4) ∧
    ((t.eng ch).hold = bitOf v 21 ∧ (t.eng ch).peak = bitOf v 20 ∧ (t.eng ch).pend = none) ∧ w.Stepped t ch := by
  unfold World.phase
  extract_lets w1 w2 w3
  have hrd1 (f : Field) (hp : fieldsApart F.VLV_STATUS.PHASE f = true) (ht : fieldsApart F.VLV_STATUS.TOFF f = true) :
      w1.rd .A f ch = w.rd .A f ch := by
    rw [World.rd_wr_apart _ _ _ _ _ _ _ _ ht, World.rd_wr_apart _ _ _ _ _ _ _ _ hp]
  have heng1 : w1.eng ch = w.eng ch := by rw [World.eng_wr, World.eng_wr]
  have hrd2 (f : Field) (hb : fieldsApart F.VLV_STATUS.BAND f = true) : w2.rd .A f ch = w1.rd .A f ch := by
    simp only [w2]
    split
    · rw [World.rd_wr_apart _ _ _ _ _ _ _ _ hb]
    · rfl
  have hband : w2.rd .A F.VLV_STATUS.BAND ch = ((w.eng ch).pend.getD (w.rd .A F.VLV_STATUS.BAND ch)) % 4 := by
    simp only [w2, heng1]
    cases (w.eng ch).pend with
    | some k => exact World.rd_wr_same _ _ _ _ _ (by decide)
    | none => exact (hrd1 _ (by decide) (by decide)).trans (Nat.mod_eq_of_lt (World.rd_lt _ _ F.VLV_STATUS.BAND _)).symm
  have hrd (f : Field) (hf : fieldsApart F.VLV_ENG.PC f = true) :
      ((w3.when (bitOf v 21) (·.beginMerge ch)).advance ch).rd .A f ch = w2.rd .A f ch := by
    rw [World.rd_advance _ _ _ _ _ hf, World.rd_when, World.rd_beginMerge, ite_self, World.rd_updEng]
  have heng : ∃ m p, ((w3.when (bitOf v 21) (·.beginMerge ch)).advance ch).eng ch = { w3.eng ch with merge := m, past := p } := by
    obtain ⟨p, hp⟩ := (w3.when (bitOf v 21) (·.beginMerge ch)).eng_advance ch ch
    obtain ⟨m, hm⟩ := w3.eng_beginMerge ch ch
    rw [hp, World.eng_when]
    split
    · exact ⟨m, p, by rw [hm]⟩
    · exact ⟨_, p, rfl⟩
  obtain ⟨m, p, heng⟩ := heng
  have hpc : (w3.when (bitOf v 21) (·.beginMerge ch)).rd .A F.VLV_ENG.PC ch = w.rd .A F.VLV_ENG.PC ch := by
    rw [World.rd_when, World.rd_beginMerge, ite_self, World.rd_updEng, hrd2 _ (by decide), hrd1 _ (by decide) (by decide)]
  rw [hrd _ (by decide), hrd _ (by decide), hrd _ (by decide), heng, World.eng_updEng_same]
  refine ⟨⟨?_, ?_, hband⟩, ⟨rfl, rfl, rfl⟩, World.stepped_advance hpc⟩
  · rw [hrd2 _ (by decide), World.rd_wr_apart _ _ _ _ _ _ _ _ (by decide), World.rd_wr_same _ _ _ _ _ (by decide)]
    exact Nat.mod_eq_of_lt (bitsOf_lt _ _ _)
  · rw [hrd2 _ (by decide), World.rd_wr_same _ _ _ _ _ (by decide)]
    exact Nat.mod_eq_of_lt (bitsOf_lt _ _ _)

/-- The source an SRC names: BOOST acts as BATT under the hardware duty limit (R206). -/
def World.srcOf (w : World) (ch v : Nat) : Nat :=
  if bitsOf v 25 2 = 2 && w.flag .A F.VLV_STATUS.DUTY_HW ch then 1 else bitsOf v 25 2

/-- An SRC run (R198, R207). -/
def World.source (w : World) (ch src : Nat) : World :=
  let w := w.updEng ch Eng.clearFlags
  if src = 0 then
    ((w.turnOff ch (w.rd .A F.VLV_STATUS.TOFF ch)).updEng ch fun e => { e with noneAt := some w.now, level := none, gramp := none }).advance ch
  else if src = 1 then ((w.admitSrc ch 1).wr .A F.VLV_STATUS.DELAYED ch 0).advance ch
  else if w.boostFree ch then ((w.admitSrc ch 2).wr .A F.VLV_STATUS.DELAYED ch 0).advance ch
  else ((w.updEng ch fun e => { e with req := some ⟨true, w.now, true, false⟩ }).wr .A F.VLV_STATUS.DELAYED ch 1).bump
    .A F.VLV_CNT.DELAYS ch

/-- Source NONE: the low side off, the target left (R198). -/
theorem World.source_none (w : World) (ch : Nat) :
    let t := w.source ch 0
    t.rd .A F.VLV_STATUS.SRC ch = 0 ∧ ((t.eng ch).noneAt = some w.now ∧ (t.eng ch).tgt = (w.eng ch).tgt ∧ (t.eng ch).drive = .off ∧
      (t.eng ch).kink = false) ∧ w.Stepped t ch := by
  have ht : w.source ch 0 = (((w.updEng ch Eng.clearFlags).turnOff ch ((w.updEng ch Eng.clearFlags).rd .A F.VLV_STATUS.TOFF ch)).updEng ch
      fun e => { e with noneAt := some w.now, level := none, gramp := none }).advance ch := by
    unfold World.source
    exact if_pos rfl
  rw [ht]
  generalize hu : w.updEng ch Eng.clearFlags = u
  obtain ⟨p, hp⟩ := ((u.turnOff ch (u.rd .A F.VLV_STATUS.TOFF ch)).updEng ch fun e => { e with
    noneAt := some w.now, level := none, gramp := none }).eng_advance ch ch
  obtain ⟨b, hb⟩ := u.eng_turnOff ch (u.rd .A F.VLV_STATUS.TOFF ch)
  dsimp only
  rw [hp, World.eng_updEng_same, hb, ← hu, World.eng_updEng_same, World.rd_advance _ _ _ _ _ (by decide), World.rd_updEng, World.rd_turnOff_src]
  refine ⟨rfl, ⟨rfl, rfl, rfl, rfl⟩, World.stepped_advance ?_⟩
  rw [World.rd_updEng, World.rd_turnOff _ _ _ _ _ _ (by decide) (by decide), World.rd_updEng]

/-- A source admitted at once (R198, R207). -/
theorem World.source_admits {w : World} {ch src : Nat} (hsrc : src = 1 ∨ src = 2 ∧ w.boostFree ch = true) :
    let t := w.source ch src
    (t.rd .A F.VLV_STATUS.SRC ch = src ∧ t.rd .A F.VLV_STATUS.DELAYED ch = 0 ∧ t.rd .A F.VLV_STATUS.GREEN ch = 0) ∧
      (t.eng ch).level = none ∧ (t.eng ch).timeout = false ∧ w.Stepped t ch := by
  have ht : w.source ch src =
      (((w.updEng ch Eng.clearFlags).admitSrc ch src).wr .A F.VLV_STATUS.DELAYED ch 0).advance ch := by
    unfold World.source
    dsimp only
    obtain rfl | ⟨rfl, hfree⟩ := hsrc
    · rw [if_neg (by decide), if_pos rfl]
    · rw [if_neg (by decide), if_neg (by decide), World.boostFree_updEng, if_pos hfree]
  have hmod : src % 2 ^ 2 = src := by omega
  obtain ⟨p, hp⟩ := (((w.updEng ch Eng.clearFlags).admitSrc ch src).wr .A F.VLV_STATUS.DELAYED ch 0).eng_advance ch ch
  obtain ⟨d, hd⟩ := (w.updEng ch Eng.clearFlags).eng_admitSrc ch src
  dsimp only
  rw [ht, hp, World.eng_wr, hd, World.eng_updEng_same]
  refine ⟨⟨?_, ?_, ?_⟩, rfl, rfl, World.stepped_advance ?_⟩
  · rw [World.rd_advance _ _ _ _ _ (by decide), World.rd_wr_apart _ _ _ _ _ _ _ _ (by decide), World.rd_admitSrc_src, hmod]
  · rw [World.rd_advance _ _ _ _ _ (by decide), World.rd_wr_same _ _ _ _ _ (by decide)]
    rfl
  · rw [World.rd_advance _ _ _ _ _ (by decide), World.rd_wr_apart _ _ _ _ _ _ _ _ (by decide), World.rd_admitSrc_green]
  · rw [World.rd_wr_apart _ _ _ _ _ _ _ _ (by decide), World.rd_admitSrc _ _ _ _ _ _ (by decide) (by decide), World.rd_updEng]

/-- BOOST waits while another channel of the bank boosts or the rail is low (R207). -/
theorem World.source_waits {w : World} {ch : Nat} (hfree : w.boostFree ch = false) :
    let t := w.source ch 2
    t.rd .A F.VLV_STATUS.SRC ch = w.rd .A F.VLV_STATUS.SRC ch ∧ t.rd .A F.VLV_STATUS.DELAYED ch = 1 ∧
      (t.eng ch).req = some ⟨true, w.now, true, false⟩ ∧ t.rd .A F.VLV_CNT.DELAYS ch = satInc 8 (w.rd .A F.VLV_CNT.DELAYS ch) ∧
      t.rd .A F.VLV_ENG.PC ch = w.rd .A F.VLV_ENG.PC ch := by
  have ht : w.source ch 2 = (((w.updEng ch Eng.clearFlags).updEng ch fun e => { e with req := some ⟨true, w.now, true, false⟩ }).wr
      .A F.VLV_STATUS.DELAYED ch 1).bump .A F.VLV_CNT.DELAYS ch := by
    unfold World.source
    dsimp only
    rw [if_neg (by decide), if_neg (by decide), World.boostFree_updEng, if_neg (by simp [hfree])]
    rfl
  dsimp only
  rw [ht]
  refine ⟨?_, ?_, ?_, ?_, ?_⟩
  · simp (disch := decide) only [World.rd_bump_apart, World.rd_wr_apart, World.rd_updEng]
  · simp (disch := decide) only [World.rd_bump_apart, World.rd_wr_same]
    rfl
  · rw [World.eng_bump, World.eng_wr, World.eng_updEng_same]
  · simp (disch := decide) only [World.rd_bump_same, World.rd_wr_apart, World.rd_updEng]
  · simp (disch := decide) only [World.rd_bump_apart, World.rd_wr_apart, World.rd_updEng]

/-- A current target set (R194, R207). -/
theorem World.seti_leaves (w : World) (ch v : Nat) :
    let t := w.seti ch v
    ((t.eng ch).want = w.cur16 ch v ∧ (t.eng ch).track = decide (bitsOf v 14 2 = 2) ∧ (t.eng ch).ramp = none) ∧
    (w.rd .A F.VLV_STATUS.SRC ch = 0 → (t.eng ch).req = none) ∧
    ((t.eng ch).req = none → (t.eng ch).tgt = w.cur16 ch v ∧ t.rd .A F.VLV_STATUS.DELAYED ch = 0 ∧ w.Stepped t ch) ∧
    ((t.eng ch).req ≠ none → (t.eng ch).tgt = (w.eng ch).tgt ∧ t.rd .A F.VLV_STATUS.DELAYED ch = 1 ∧
      t.rd .A F.VLV_ENG.PC ch = w.rd .A F.VLV_ENG.PC ch) := by
  unfold World.seti
  extract_lets u t
  obtain ⟨⟨hwant, htrack, hramp, -, -⟩, hsrc, htake, hwait⟩ := t.instrTgt_leaves ch u (t.eng ch).dith.amp
  have hrd (f : Field) (hf : fieldsApart F.VLV_STATUS.SP_CLAMP f = true) : t.rd .A f ch = w.rd .A f ch := World.rd_flagSp w ch v .A f ch hf
  rw [hrd _ (by decide)] at hsrc hwait
  refine ⟨⟨hwant, ?_, ?_⟩, hsrc, fun hreq => ?_, fun hreq => ?_⟩
  · rw [htrack, World.eng_updEng_same]
  · rw [hramp, World.eng_updEng_same]
  · obtain ⟨htgt, -, hdel, hstep⟩ := htake hreq
    exact ⟨htgt, hdel, hstep.of_rd (hrd _ (by decide))⟩
  · obtain ⟨htgt, hdel, hpc⟩ := hwait hreq
    exact ⟨by rw [htgt, World.eng_updEng_same, World.eng_flagSp], hdel, hpc⟩

/-- A RAMP from the target in force, where no ramp runs (R194). -/
def World.rampTo (w : World) (ch v k : Nat) : World :=
  let t := w.cur16 ch v
  let e := w.eng ch
  let w := (w.flagSp ch v).updEng ch fun x => { x with
    track := bitsOf v 14 2 = 2, ramp := some ⟨e.tgt, t, w.now, tim19 k⟩, tgt := max e.tgt x.tgt
    drive := if w.rd .A F.VLV_STATUS.SRC ch = 0 then x.drive else .current }
  w.instrTgt ch (max e.tgt t) (w.eng ch).dith.amp

end Sys2Proof.Machine
end

section
open Sys2Proof Sys2Proof.Machine

/-- An instruction's command runs the word at the program counter. -/
theorem Machine.lift_instr {s : State} {ch v op : Nat} (f : World → Nat → World) (hw : s.w.word ch = some v) (hop : bitsOf v 27 5 = op) :
    lift s (fun w => w.instr ch op f) = .next { s with w := f s.w v } := by
  rw [lift, World.instr_at f hw hop]

/-- SRC runs with the source its word names. -/
theorem Machine.exec_src {s : State} {ch v src : Nat} (hw : s.w.word ch = some v) (hop : bitsOf v 27 5 = 0x02) (hsrc : s.w.srcOf ch v = src) :
    exec (.src ch) s = .next { s with w := s.w.source ch src } := by
  subst hsrc
  exact Machine.lift_instr _ hw hop

/-- Settles O25: each instruction through what the valve's shared operations leave. -/
theorem recipeInstructions : Obligations.recipeInstructions := by
  unfold Obligations.recipeInstructions
  refine ⟨?halt, ?phase, ?none, ?batt, ?boost, ?seti, ?ramp, ?wait, ?waiti, ?waitk, ?dith, ?pwmv, ?jmp, ?jc, ?loop, ?evt, ?off, ?ldp, ?meas,
    ?others, ?illegal, ?reserved⟩
  case halt =>
    intro ch v s hw hop
    have hexec : exec (.halt ch) s = _ := Machine.lift_instr _ hw hop
    refine .of_exec hexec ⟨World.rd_stopEngine_run _ _, ?_, ?_, ?_, ?_, ?_, exec_quiet hexec rfl⟩
    · dsimp only
      rw [World.rd_stopEngine _ _ _ _ _ (by decide), World.rd_when, World.rd_turnOff_src]
      split
      · rfl
      · next hsrc => simpa using hsrc
    · rw [World.eng_stopEngine]
    · rw [World.eng_stopEngine]
    · rw [World.eng_stopEngine]
    · dsimp only
      rw [World.rd_stopEngine _ _ _ _ _ (by decide), World.rd_when, World.rd_turnOff _ _ _ _ _ _ (by decide) (by decide), ite_self]
  case phase =>
    intro ch v s hw hop
    have hexec : exec (.phase ch) s = .next { s with w := s.w.phase ch v } := Machine.lift_instr _ hw hop
    obtain ⟨⟨hphase, htoff, hband⟩, ⟨hhold, hpeak, hpend⟩, hstep⟩ := s.w.phase_leaves ch v
    exact .of_exec hexec ⟨hphase, htoff, hhold, hpeak, hpend, hband, hstep, exec_quiet hexec rfl⟩
  case none =>
    intro ch v s hw hop hsrc
    have hexec := Machine.exec_src hw hop (src := 0) (by simp [World.srcOf, hsrc])
    obtain ⟨hoff, ⟨hnone, htgt, hdrive, hkink⟩, hstep⟩ := s.w.source_none ch
    exact .of_exec hexec ⟨hoff, hnone, htgt, hdrive, hkink, hstep, exec_quiet hexec rfl⟩
  case batt =>
    intro ch v s hw hop hsrc
    have hof : s.w.srcOf ch v = 1 := by
      rcases hsrc with h1 | ⟨h2, hduty⟩
      · simp [World.srcOf, h1]
      · simp [World.srcOf, h2, hduty]
    have hexec := Machine.exec_src hw hop hof
    obtain ⟨⟨hbatt, hdel, hgreen⟩, hlevel, htimeout, hstep⟩ := World.source_admits (w := s.w) (ch := ch) (.inl rfl)
    exact .of_exec hexec ⟨hbatt, hdel, hgreen, hlevel, htimeout, hstep, exec_quiet hexec rfl⟩
  case boost =>
    intro ch v s hw hop hsrc hduty
    have hexec := Machine.exec_src hw hop (src := 2) (by simp [World.srcOf, hsrc, hduty])
    refine .of_exec hexec ⟨fun hfree => ?_, fun hfree => World.source_waits hfree, exec_quiet hexec rfl⟩
    obtain ⟨⟨hboost, hdel, -⟩, -, -, hstep⟩ := World.source_admits (.inr ⟨rfl, hfree⟩)
    exact ⟨hboost, hdel, hstep⟩
  case seti =>
    intro ch v s hw hop
    have hexec : exec (.seti ch) s = _ := Machine.lift_instr _ hw hop
    obtain ⟨⟨hwant, htrack, hramp⟩, hsrc, htake, hwait⟩ := s.w.seti_leaves ch v
    exact .of_exec hexec ⟨hwant, htrack, hramp, hsrc, htake, hwait, exec_quiet hexec rfl⟩
  case ramp =>
    intro ch v s hw hop hk hramp
    have hexec : exec (.ramp ch) s = .next { s with w := s.w.rampTo ch v (s.w.param ch (bitsOf v 22 4) % 2 ^ 18) } := by
      change execRamp ch s = _
      unfold execRamp
      rw [Machine.lift_instr _ hw hop]
      dsimp only
      rw [bitsOf, Nat.pow_zero, Nat.div_one] at hk
      rw [if_neg (by rwa [bitsOf, Nat.pow_zero, Nat.div_one, Nat.mod_mod_of_dvd _ (Nat.pow_dvd_pow 2 (by decide))])]
      simp only [hramp]
      rfl
    refine .of_exec hexec ?_
    unfold World.rampTo
    extract_lets tgt e u
    obtain ⟨⟨hwant, -, hto, -, -⟩, hnone, htake, hwait⟩ := u.instrTgt_leaves ch (max (s.w.eng ch).tgt tgt) (u.eng ch).dith.amp
    have hrd (f : Field) (hf : fieldsApart F.VLV_STATUS.SP_CLAMP f = true) : u.rd .A f ch = s.w.rd .A f ch := World.rd_flagSp s.w ch v .A f ch hf
    rw [hrd _ (by decide)] at hnone hwait
    refine ⟨?_, hwant, hnone, fun hreq => ?_, fun hreq => (hwait hreq).2.2, exec_quiet hexec rfl⟩
    · rw [hto, World.eng_updEng_same]
    · obtain ⟨htgt, -, -, hstep⟩ := htake hreq
      exact ⟨htgt, hstep.of_rd (hrd _ (by decide))⟩
  case wait =>
    intro ch v s hw hop
    have hexec : exec (.wait ch) s = _ := Machine.lift_instr _ hw hop
    exact .of_exec hexec ⟨by rw [World.eng_updEng_same], exec_regsBut hexec rfl, exec_quiet hexec rfl⟩
  case waiti =>
    intro ch v s hw hop
    have hexec : exec (.waiti ch) s = _ := Machine.lift_instr _ hw hop
    exact .of_exec hexec ⟨by rw [World.eng_updEng_same], by rw [World.eng_updEng_same]; rfl, exec_regsBut hexec rfl, exec_quiet hexec rfl⟩
  case waitk =>
    intro ch v s hw hop
    have hexec : exec (.waitk ch) s = _ := Machine.lift_instr _ hw hop
    exact .of_exec hexec ⟨by rw [World.eng_updEng_same], by rw [World.eng_updEng_same]; rfl, by rw [World.eng_updEng_same]; rfl,
      exec_regsBut hexec rfl, exec_quiet hexec rfl⟩
  case dith =>
    intro ch v s hw hop hsrc
    have hexec : exec (.dith ch) s = _ := Machine.lift_instr _ hw hop
    refine .of_exec hexec ?_
    extract_lets shape amp freq same u
    obtain ⟨⟨-, -, -, hshape, hfreq⟩, hnone, htake, -⟩ := u.instrTgt_leaves ch (u.eng ch).want amp
    obtain ⟨htgt, hamp, -, hstep⟩ := htake (hnone hsrc)
    refine ⟨?_, hamp, ?_, ?_, hstep.of_rd rfl, exec_quiet hexec rfl⟩
    · rw [hshape, World.eng_updEng_same]
    · rw [hfreq, World.eng_updEng_same]
    · rw [htgt, World.eng_updEng_same]
  case pwmv =>
    intro ch v s hw hop
    have hexec : exec (.pwmv ch) s = _ := Machine.lift_instr _ hw hop
    refine .of_exec hexec ?_
    extract_lets d f
    obtain ⟨p, hp⟩ := (s.w.updEng ch fun e => { e with drive := .pwm f d, dith := {}, wantAmp := 0 }).eng_advance ch ch
    rw [hp, World.eng_updEng_same]
    refine ⟨?_, rfl, World.stepped_advance rfl, exec_regsBut hexec rfl, exec_quiet hexec rfl⟩
    simp [f, d]
  case jmp =>
    intro ch v s hw hop
    have hexec : exec (.jmp ch) s = _ := Machine.lift_instr _ hw hop
    refine .of_exec hexec ⟨?_, exec_regsBut hexec rfl, World.wr_vlv _ _ _ _ _, exec_quiet hexec rfl⟩
    exact (World.rd_wr_same _ _ _ _ _ (by decide)).trans (Nat.mod_eq_of_lt (bitsOf_lt _ _ _))
  case jc =>
    intro ch v s hw hop
    have hexec : exec (.jc ch) s = _ := Machine.lift_instr _ hw hop
    refine .of_exec hexec ⟨fun hne => ?_, fun heq => ?_, exec_regsBut hexec rfl, exec_quiet hexec rfl⟩
    · dsimp only
      rw [if_pos (by simpa using hne)]
      exact ⟨(World.rd_wr_same _ _ _ _ _ (by decide)).trans (Nat.mod_eq_of_lt (bitsOf_lt _ _ _)), World.wr_vlv _ _ _ _ _⟩
    · dsimp only
      rw [if_neg (by simpa using heq)]
      exact World.stepped_advance rfl
  case loop =>
    intro ch v s n hw hop hlen hn
    have hexec : exec (.loop ch) s = _ := Machine.lift_instr _ hw hop
    refine .of_exec hexec ?_
    extract_lets c m u
    have hm : m = n := hn.symm
    have hc : c < (s.w.eng ch).ctr.length := hlen ▸ bitsOf_lt _ _ _
    have hctr : (u.eng ch).ctr.getD c none = if m = 0 then none else some m := by
      rw [World.eng_updEng_same, List.getD_eq_getElem?_getD, getElem?_listSet_same _ hc]
      rfl
    refine ⟨fun h0 => ?_, fun h0 => ?_, exec_regsBut hexec rfl, exec_quiet hexec rfl⟩
    · rw [if_pos (hm.trans h0)] at hctr ⊢
      obtain ⟨p, hp⟩ := u.eng_advance ch ch
      rw [hp]
      exact ⟨hctr, World.stepped_advance rfl⟩
    · rw [if_neg (by rwa [hm])] at hctr ⊢
      rw [World.jump, World.eng_wr, ← hm]
      exact ⟨hctr, (World.rd_wr_same _ _ _ _ _ (by decide)).trans (Nat.mod_eq_of_lt (bitsOf_lt _ _ _))⟩
  case evt =>
    intro ch v s hw hop
    have hexec : exec (.evt ch) s = _ := Machine.lift_instr _ hw hop
    refine .of_exec hexec ⟨?_, World.stepped_advance ?_, ?_, exec_regsBut hexec rfl, exec_quiet hexec rfl⟩
    · dsimp only
      rw [World.rd_advance _ _ _ _ _ (by decide), World.rd_vlvEvent _ _ _ _ _ _ _ _ (by decide), World.rd_wr_same _ _ _ _ _ (by decide)]
      exact Nat.mod_eq_of_lt (bitsOf_lt _ _ _)
    · rw [World.rd_vlvEvent _ _ _ _ _ _ _ _ (by decide), World.rd_wr_apart _ _ _ _ _ _ _ _ (by decide)]
    · rw [World.tile_advance, World.vlvEvent_vlv, World.wr_vlv]
  case off =>
    intro ch v s hw hop
    have hexec : exec (.off ch) s = _ := Machine.lift_instr _ hw hop
    refine .of_exec hexec ?_
    extract_lets m u
    obtain ⟨b, hb⟩ := s.w.eng_turnOff ch (if m = 3 then s.w.rd .A F.VLV_STATUS.TOFF ch else m)
    obtain ⟨p, hp⟩ := (u.updEng ch fun e => { e with
      noneAt := some u.now, want := 0, wantAmp := 0, tgt := 0, track := false, ramp := none, dith := {}, level := none, gramp := none,
      constAt := u.now }).eng_advance ch ch
    dsimp only
    rw [hp, World.eng_updEng_same, World.rd_advance _ _ _ _ _ (by decide), World.rd_updEng, World.rd_turnOff_src, hb, World.now_turnOff]
    refine ⟨rfl, rfl, rfl, rfl, rfl, rfl, World.stepped_advance ?_, exec_quiet hexec rfl⟩
    rw [World.rd_updEng, World.rd_turnOff _ _ _ _ _ _ (by decide) (by decide)]
  case ldp =>
    intro ch i v x s hw hop hlen
    have hexec : exec (.ldp ch i v) s = _ := Machine.lift_instr _ hw hop
    have hpos : bitsOf x 16 2 < (s.w.eng ch).wk.length := hlen ▸ bitsOf_lt _ _ _
    refine .of_exec hexec ?_
    extract_lets val
    obtain ⟨p, hp⟩ := (s.w.updEng ch fun e => { e with wk := listSet e.wk (bitsOf x 16 2) val }).eng_advance ch ch
    rw [hp, World.eng_updEng_same]
    refine ⟨?_, fun j hj => ?_, World.stepped_advance rfl, exec_regsBut hexec rfl, exec_quiet hexec rfl⟩
    · rw [List.getD_eq_getElem?_getD, getElem?_listSet_same _ hpos, Option.getD_some]
      simp only [val]
      split <;> simp_all
    · rw [List.getD_eq_getElem?_getD, getElem?_listSet_ne _ _ hj, ← List.getD_eq_getElem?_getD]
  case meas =>
    intro ch i v x s hw hop
    have hexec : exec (.meas ch i v) s = _ := Machine.lift_instr _ hw hop
    have hsat : satTo 16 i < 2 ^ 16 := by
      unfold satTo
      omega
    refine .of_exec hexec ⟨?_, ?_, ?_, World.stepped_advance ?_, exec_regsBut hexec rfl, exec_quiet hexec rfl⟩
    · simp (disch := decide) only [World.rd_advance, World.rd_wr_apart, World.rd_wrI_apart, World.rd_wr_same]
      exact Nat.mod_eq_of_lt hsat
    · simp (disch := decide) only [World.rd_advance, World.rd_wr_apart, World.rd_wrI_same]
    · simp (disch := decide) only [World.rd_advance, World.rd_wr_same]
      exact Nat.mod_eq_of_lt hsat
    · simp (disch := decide) only [World.rd_wr_apart, World.rd_wrI_apart]
  case others =>
    intro ch v c s hw hc hop
    have hstop (op : Nat) (f : World → Nat → World) (hlt : op < 0x10) : lift s (fun w => w.instr ch op f) = .next s := by
      rw [lift, World.instr_other f hw (by omega)]
    simp only [List.mem_cons, List.not_mem_nil, or_false] at hc
    rcases hc with rfl | rfl | rfl | rfl | rfl | rfl | rfl | rfl | rfl | rfl | rfl | rfl | rfl | rfl | rfl <;>
      exact .of_exec (hstop _ _ (by decide)) rfl
  case illegal =>
    intro ch parity s hrun hcond
    have hexec : exec (.recipeIllegal ch parity) s = .next { s with w := s.w.vlvFault ch 4 } := by
      change execRecipeIllegal ch parity s = _
      have hflag : s.w.flag .A F.VLV_STATUS.RUN ch = true := World.flag_eq_true_iff.mpr hrun
      rcases hcond with rfl | ⟨hwait, hreq, hword⟩
      · simp [execRecipeIllegal, hflag]
      · simp [execRecipeIllegal, hflag, hwait, hreq, hword]
    obtain ⟨hfault, hstop, hsrc⟩ := s.w.rd_vlvFault ch (show 4 < 16 by decide) (by decide)
    exact .of_exec hexec ⟨hfault, hstop, hsrc, exec_quiet hexec rfl⟩
  case reserved =>
    intro ch v s hw hop
    obtain ⟨hflag, hwait, hreq⟩ := World.word_eq_some hw
    have hexec : exec (.recipeIllegal ch false) s = .next { s with w := s.w.vlvFault ch 4 } := by
      change execRecipeIllegal ch false s = _
      simp only [execRecipeIllegal, hflag, hwait, hreq, hw, hop, lift, World.when]
      rfl
    obtain ⟨hfault, hstop, hsrc⟩ := s.w.rd_vlvFault ch (show 4 < 16 by decide) (by decide)
    exact .of_exec hexec ⟨hfault, hstop, hsrc, exec_quiet hexec rfl⟩
end

section
/-!
SUPPORT. R202–R204: a travel report, and the wait it ends.
-/
namespace Sys2Proof.Machine

theorem satTo_lt (w v : Nat) : satTo w v < 2 ^ w := by
  have hpos : 0 < 2 ^ w := Nat.two_pow_pos w
  unfold satTo
  omega

/-- The registers of a travel report before its counts. -/
def World.reported (w : World) (ch : Nat) (close : Bool) (n t : Nat) : World :=
  if close then
    (((w.wr .A F.VLV_TOFF.T ch t).wr .A F.VLV_TOFF.NOKINK ch n).wr .A F.VLV_TOFF.SEQ ch (w.rd .A F.VLV_TOFF.SEQ ch + 1)).bump
      .A F.VLV_CNT.RELEASES ch
  else ((w.wr .A F.VLV_TON.T ch t).wr .A F.VLV_TON.NOKINK ch n).wr .A F.VLV_TON.SEQ ch (w.rd .A F.VLV_TON.SEQ ch + 1)

/-- The runs and travels counted by a report. -/
def Eng.counted (e : Eng) (close nokink : Bool) (t now : Nat) : Eng := { e with
  runPull := if close then e.runPull else if nokink then e.runPull + 1 else 0
  runClose := if close then (if nokink then e.runClose + 1 else 0) else e.runClose
  travel := if nokink || t = 2 ^ 24 - 1 then e.travel else (t :: e.travel).take 16
  travelAt := if nokink || t = 2 ^ 24 - 1 then e.travelAt else now }

/-- The count of reports without a kink, in a row. -/
def World.kinkCount (w : World) (ch : Nat) (nokink : Bool) : World :=
  if nokink then w.bump .A F.VLV_CNT.NOKINK ch else w.wr .A F.VLV_CNT.NOKINK ch 0

theorem World.travelReport_eq (w : World) (ch : Nat) (close nokink : Bool) (t : Nat) : ∃ c k, w.travelReport ch close nokink t =
    (((w.reported ch close (b2n nokink) t).kinkCount ch nokink).updEng ch fun e =>
      e.counted close nokink t ((w.reported ch close (b2n nokink) t).kinkCount ch nokink).now).when c fun u => u.vlvEvent (tileOf ch) 1 ch k :=
  ⟨_, _, rfl⟩

theorem World.rd_kinkCount (w : World) (ch : Nat) (nokink : Bool) (h : Half) (f : Field) (i : Nat)
    (hf : fieldsApart F.VLV_CNT.NOKINK f = true) : (w.kinkCount ch nokink).rd h f i = w.rd h f i := by
  unfold World.kinkCount
  split
  · exact World.rd_bump_apart _ _ _ _ _ _ _ hf
  · exact World.rd_wr_apart _ _ _ _ _ _ _ _ hf

@[simp] theorem World.eng_kinkCount (w : World) (ch : Nat) (nokink : Bool) (c : Nat) : (w.kinkCount ch nokink).eng c = w.eng c := by
  unfold World.kinkCount
  split <;> simp

@[simp] theorem World.eng_reported (w : World) (ch : Nat) (close : Bool) (n t c : Nat) : (w.reported ch close n t).eng c = w.eng c := by
  unfold World.reported
  split <;> simp

/-- A register read through a report but for the counts in a row. -/
theorem World.rd_travelReport (w : World) (ch : Nat) (close nokink : Bool) (t : Nat) (f : Field)
    (hk : fieldsApart F.VLV_CNT.NOKINK f = true) (he : (decide (f.reg < 2 ^ 25) && decide (f.reg ≠ 0x100018)) = true) :
    (w.travelReport ch close nokink t).rd .A f ch = (w.reported ch close (b2n nokink) t).rd .A f ch := by
  obtain ⟨c, k, hrep⟩ := w.travelReport_eq ch close nokink t
  rw [hrep, World.rd_when, World.rd_vlvEvent _ _ _ _ _ _ _ _ he, World.rd_updEng, ite_self, World.rd_kinkCount _ _ _ _ _ _ hk]

theorem World.rd_travelReport_nokink (w : World) (ch : Nat) (close nokink : Bool) (t : Nat) :
    (w.travelReport ch close nokink t).rd .A F.VLV_CNT.NOKINK ch = if nokink then satInc 8 (w.rd .A F.VLV_CNT.NOKINK ch) else 0 := by
  obtain ⟨c, k, hrep⟩ := w.travelReport_eq ch close nokink t
  have hkeep : (w.reported ch close (b2n nokink) t).rd .A F.VLV_CNT.NOKINK ch = w.rd .A F.VLV_CNT.NOKINK ch := by
    unfold World.reported
    split <;> simp (disch := decide) only [World.rd_bump_apart, World.rd_wr_apart]
  rw [hrep, World.rd_when, World.rd_vlvEvent _ _ _ _ _ _ _ _ (by decide), World.rd_updEng, ite_self, World.kinkCount]
  split
  · rw [World.rd_bump_same _ _ _ _ (by decide), hkeep]
  · exact World.rd_wr_same _ _ _ _ _ (by decide)

theorem World.eng_travelReport (w : World) (ch : Nat) (close nokink : Bool) (t : Nat) :
    ∃ now, (w.travelReport ch close nokink t).eng ch = (w.eng ch).counted close nokink t now := by
  obtain ⟨c, k, hrep⟩ := w.travelReport_eq ch close nokink t
  refine ⟨((w.reported ch close (b2n nokink) t).kinkCount ch nokink).now, ?_⟩
  rw [hrep, World.eng_when, World.eng_vlvEvent, ite_self, World.eng_updEng_same, World.eng_kinkCount, World.eng_reported]

/-- The registers of a PULL report (R204). -/
theorem World.rd_reported_pull (w : World) (ch n t : Nat) :
    (w.reported ch false n t).rd .A F.VLV_TON.T ch = t % 2 ^ 24 ∧ (w.reported ch false n t).rd .A F.VLV_TON.NOKINK ch = n % 2 ∧
      (w.reported ch false n t).rd .A F.VLV_TON.SEQ ch = (w.rd .A F.VLV_TON.SEQ ch + 1) % 128 := by
  refine ⟨?_, ?_, ?_⟩ <;> simp (disch := decide) only [World.reported, World.rd_wr_apart, World.rd_wr_same, Bool.false_eq_true, if_false] <;> rfl

/-- The registers of a CLOSE report (R204). -/
theorem World.rd_reported_close (w : World) (ch n t : Nat) :
    (w.reported ch true n t).rd .A F.VLV_TOFF.T ch = t % 2 ^ 24 ∧ (w.reported ch true n t).rd .A F.VLV_TOFF.NOKINK ch = n % 2 ∧
      (w.reported ch true n t).rd .A F.VLV_TOFF.SEQ ch = (w.rd .A F.VLV_TOFF.SEQ ch + 1) % 128 ∧
      (w.reported ch true n t).rd .A F.VLV_CNT.RELEASES ch = satInc 16 (w.rd .A F.VLV_CNT.RELEASES ch) := by
  refine ⟨?_, ?_, ?_, ?_⟩ <;>
    simp (disch := decide) only [World.reported, World.rd_bump_same, World.rd_bump_apart, World.rd_wr_apart, World.rd_wr_same, if_true] <;> rfl

/-- A report writes the report's registers and the counts alone. -/
theorem World.rd_travelReport_other (w : World) (ch : Nat) (close nokink : Bool) (t : Nat) (f : Field) (i : Nat)
    (hf : outside [0x100018, F.VLV_TON.T.reg, F.VLV_TOFF.T.reg, F.VLV_CNT.NOKINK.reg] f = true) :
    (w.travelReport ch close nokink t).rd .A f i = w.rd .A f i :=
  (World.travelReport_rest (q0 := [.evt, .vlv, .reg 0x100018, .reg 0x500030, .reg 0x500034, .reg 0x50004C]) (by decide) (Rest.refl _ w)).rd_outside
    (by decide) hf .A i

/-- The crossing that the wait is for. -/
def crossed (below : Bool) (thr i : Nat) : Bool := if below then decide (i ≤ thr) else decide (thr ≤ i)

theorem crossed_iff {below : Bool} {thr i : Nat} : crossed below thr i = true ↔ below = true ∧ i ≤ thr ∨ below = false ∧ thr ≤ i := by
  cases below <;> simp [crossed]

/-- A wait for a crossing measured: it ends at the crossing, or at its time with TIMEOUT (R196). -/
def World.crossEnd (w : World) (ch i : Nat) (below : Bool) (thr ends : Nat) : World :=
  (w.wr .A F.VLV_CUR.I ch (satTo 16 i)).when (crossed below thr i || ends ≤ w.now) fun u =>
    (u.updEng ch fun e => { e with wait := .none, timeout := !crossed below thr i }).advance ch

theorem World.crossEnd_ends {w : World} {ch i : Nat} {below : Bool} {thr ends : Nat} (hend : crossed below thr i = true ∨ ends ≤ w.now) :
    ((w.crossEnd ch i below thr ends).eng ch).wait = .none ∧ ((w.crossEnd ch i below thr ends).eng ch).timeout = !crossed below thr i ∧
      w.Stepped (w.crossEnd ch i below thr ends) ch := by
  obtain ⟨p, hp⟩ := ((w.wr .A F.VLV_CUR.I ch (satTo 16 i)).updEng ch fun e => { e with wait := .none, timeout := !crossed below thr i }).eng_advance ch ch
  rw [World.crossEnd, World.when, if_pos (by simpa using hend), hp, World.eng_updEng_same]
  refine ⟨rfl, rfl, World.stepped_advance ?_⟩
  rw [World.rd_updEng, World.rd_wr_apart _ _ _ _ _ _ _ _ (by decide)]

theorem World.crossEnd_waits {w : World} {ch i : Nat} {below : Bool} {thr ends : Nat} (hmiss : crossed below thr i = false) (hlt : w.now < ends) :
    (w.crossEnd ch i below thr ends).vlv = w.vlv := by
  rw [World.crossEnd, World.when, if_neg (by simp [hmiss, hlt]), World.wr_vlv]

/-- The wait for a kink ended, with a kink or without. -/
def Eng.kinkMark (e : Eng) : (nokink : Bool) → Eng
  | true => { e with wait := .none, nokink := true, relOn := false }
  | false => { e with wait := .none, kink := true, relOn := false }

/-- A wait for a kink ended, with its report (R202–R204). -/
def World.kinkReport (w : World) (ch start at_ : Nat) (close nokink : Bool) : World :=
  (w.updEng ch fun e => e.kinkMark nokink).travelReport ch close nokink (travelT ((w.eng ch).reference close start) at_)

/-- An engine that runs goes on after its wait. -/
def World.goOn (w : World) (ch : Nat) (run : Bool) : World := w.when run (·.advance ch)

theorem World.rd_goOn (w : World) (ch : Nat) (run : Bool) (f : Field)
    (hf : fieldsApart F.VLV_ENG.PC f = true) : (w.goOn ch run).rd .A f ch = w.rd .A f ch := by
  rw [World.goOn, World.rd_when, World.rd_advance _ _ _ _ _ hf, ite_self]

theorem World.eng_goOn (w : World) (ch : Nat) (run : Bool) : ∃ p, (w.goOn ch run).eng ch = { w.eng ch with past := p } := by
  obtain ⟨p, hp⟩ := w.eng_advance ch ch
  rw [World.goOn, World.eng_when, hp]
  split
  · exact ⟨p, rfl⟩
  · exact ⟨_, rfl⟩

/-- What the end of a wait for a kink leaves, whichever kink it waited for. -/
theorem World.kinkReport_leaves (w : World) (ch start at_ : Nat) (close nokink : Bool) {t : World}
    (ht : t = (w.kinkReport ch start at_ close nokink).goOn ch (w.flag .A F.VLV_STATUS.RUN ch)) :
    ((t.eng ch).wait = .none ∧ (nokink = true → (t.eng ch).nokink = true) ∧ (nokink = false → (t.eng ch).kink = true)) ∧
    (t.rd .A (if close then F.VLV_TOFF.T else F.VLV_TON.T) ch = satTo 24 ((at_ - (w.eng ch).reference close start) / 100) ∧
      t.rd .A (if close then F.VLV_TOFF.NOKINK else F.VLV_TON.NOKINK) ch = b2n nokink ∧
      t.rd .A (if close then F.VLV_TOFF.SEQ else F.VLV_TON.SEQ) ch =
        (w.rd .A (if close then F.VLV_TOFF.SEQ else F.VLV_TON.SEQ) ch + 1) % 128) ∧
    (close = true → t.rd .A F.VLV_CNT.RELEASES ch = satInc 16 (w.rd .A F.VLV_CNT.RELEASES ch)) ∧
    t.rd .A F.VLV_CNT.NOKINK ch = (if nokink then satInc 8 (w.rd .A F.VLV_CNT.NOKINK ch) else 0) ∧
    (w.flag .A F.VLV_STATUS.RUN ch = true → w.Stepped t ch) := by
  subst ht
  obtain ⟨u, hu⟩ : ∃ u, w.updEng ch (fun e => e.kinkMark nokink) = u := ⟨_, rfl⟩
  obtain ⟨T, hT⟩ : ∃ T, travelT ((w.eng ch).reference close start) at_ = T := ⟨_, rfl⟩
  have hmod : T % 2 ^ 24 = satTo 24 ((at_ - (w.eng ch).reference close start) / 100) := by
    rw [← hT]
    exact Nat.mod_eq_of_lt (satTo_lt _ _)
  have hrdu (f : Field) : u.rd .A f ch = w.rd .A f ch := by rw [← hu, World.rd_updEng]
  have hkeep (f : Field) (hf : outside [0x100018, F.VLV_TON.T.reg, F.VLV_TOFF.T.reg, F.VLV_CNT.NOKINK.reg] f = true) :
      (u.travelReport ch close nokink T).rd .A f ch = w.rd .A f ch := by
    rw [World.rd_travelReport_other _ _ _ _ _ _ _ hf, hrdu]
  rw [World.kinkReport, hu, hT]
  refine ⟨?_, ?_, fun hc => ?_, ?_, fun hrun => ?_⟩
  · obtain ⟨now, heng⟩ := u.eng_travelReport ch close nokink T
    obtain ⟨p, hp⟩ := (u.travelReport ch close nokink T).eng_goOn ch (w.flag .A F.VLV_STATUS.RUN ch)
    rw [hp, heng, ← hu, World.eng_updEng_same]
    cases nokink with
    | true => exact ⟨rfl, fun _ => rfl, nofun⟩
    | false => exact ⟨rfl, nofun, fun _ => rfl⟩
  · cases close with
    | true =>
      obtain ⟨ht, hn, hs, -⟩ := u.rd_reported_close ch (b2n nokink) T
      simp only [if_true]
      simp (disch := decide) only [World.rd_goOn, World.rd_travelReport]
      exact ⟨ht.trans hmod, hn.trans (b2n_mod_two _), by rw [hs, hrdu]⟩
    | false =>
      obtain ⟨ht, hn, hs⟩ := u.rd_reported_pull ch (b2n nokink) T
      simp only [Bool.false_eq_true, if_false]
      simp (disch := decide) only [World.rd_goOn, World.rd_travelReport]
      exact ⟨ht.trans hmod, hn.trans (b2n_mod_two _), by rw [hs, hrdu]⟩
  · subst hc
    obtain ⟨-, -, -, hr⟩ := u.rd_reported_close ch (b2n nokink) T
    rw [World.rd_goOn _ _ _ _ (by decide), World.rd_travelReport _ _ _ _ _ _ (by decide) (by decide), hr, hrdu]
  · rw [World.rd_goOn _ _ _ _ (by decide), World.rd_travelReport_nokink, hrdu]
  · rw [World.goOn, World.when, if_pos hrun]
    exact World.stepped_advance (hkeep _ (by decide))

end Sys2Proof.Machine
end

section
open Sys2Proof Sys2Proof.Machine

/-- Settles O26: a wait ends as its condition says; a kink's end is one operation with its report. -/
theorem recipeWaitsEnd : Obligations.recipeWaitsEnd := by
  unfold Obligations.recipeWaitsEnd
  refine ⟨?time, ?early, ?cross, ?pull, ?close, ?window, ?outside⟩
  case time =>
    intro ch ends brk cmd s hwait hend
    have hexec : exec (.waitEnd ch) s = .next { s with w := (s.w.updEng ch fun e => { e with wait := .none }).advance ch } := by
      change execWaitEnd ch s = _
      unfold execWaitEnd lift
      dsimp only
      rw [hwait]
      dsimp only
      rw [World.when, if_pos]
      rcases hend with hle | ⟨hbrk, hcmd⟩
      · simp [hle]
      · simp [hbrk, hcmd]
    obtain ⟨p, hp⟩ := (s.w.updEng ch fun e => { e with wait := .none }).eng_advance ch ch
    refine .of_exec hexec ⟨?_, World.stepped_advance rfl, exec_regsBut hexec rfl, exec_quiet hexec rfl⟩
    dsimp only
    rw [hp, World.eng_updEng_same]
  case early =>
    intro ch ends cmd s hwait hlt
    refine .of_exec (t := s) ?_ rfl
    change execWaitEnd ch s = _
    simp [execWaitEnd, hwait, Nat.not_le.mpr hlt]
  case cross =>
    intro ch i below thr ends s hwait
    have hexec : exec (.waitiEnd ch i) s = .next { s with w := s.w.crossEnd ch i below thr ends } := by
      change execWaitiEnd ch i s = _
      unfold execWaitiEnd lift
      dsimp only
      rw [hwait]
      dsimp only
      rw [World.wr_now]
      cases below <;> simp only [if_true, Bool.false_eq_true, if_false] <;> rfl
    have hcur : (s.w.crossEnd ch i below thr ends).rd .A F.VLV_CUR.I ch = satTo 16 i := by
      rw [World.crossEnd, World.rd_when, World.rd_advance _ _ _ _ _ (by decide), World.rd_updEng, ite_self, World.rd_wr_same _ _ _ _ _ (by decide)]
      exact Nat.mod_eq_of_lt (satTo_lt _ _)
    refine .of_exec hexec ⟨hcur, exec_quiet hexec rfl, fun hhit => ?_, fun hmiss hle => ?_, fun hmiss hlt => ?_⟩
    · have hcross := crossed_iff.mpr hhit
      obtain ⟨hnone, hout, hstep⟩ := World.crossEnd_ends (w := s.w) (ch := ch) (ends := ends) (.inl hcross)
      exact ⟨hnone, by rw [hout, hcross]; rfl, hstep⟩
    · have hcross := (Bool.not_eq_true _).mp (mt crossed_iff.mp hmiss)
      obtain ⟨hnone, hout, hstep⟩ := World.crossEnd_ends (w := s.w) (ch := ch) (thr := thr) (i := i) (below := below) (.inr hle)
      exact ⟨hnone, by rw [hout, hcross]; rfl, hstep⟩
    · exact World.crossEnd_waits ((Bool.not_eq_true _).mp (mt crossed_iff.mp hmiss)) hlt
  case pull =>
    intro ch k start opens closes thr s hwait hopen hclose hnow
    have hexec : exec (.pullKinkConfirm ch k) s =
        .next { s with w := (s.w.kinkReport ch start k false false).goOn ch (s.w.flag .A F.VLV_STATUS.RUN ch) } := by
      change execPullKinkConfirm ch k s = _
      unfold execPullKinkConfirm lift World.kinkFound
      dsimp only
      rw [hwait]
      dsimp only
      rw [World.when, if_pos (by simp [hopen, hclose, hnow])]
      rfl
    obtain ⟨⟨hnone, -, hkink⟩, ⟨ht, hn, hs⟩, -, hcnt, hstep⟩ := s.w.kinkReport_leaves ch start k false false rfl
    exact .of_exec hexec ⟨hnone, hkink rfl, ht, hn, hs, hcnt, hstep, exec_quiet hexec rfl⟩
  case close =>
    intro ch k start opens closes thr s hwait hopen hclose hnow
    have hexec : exec (.closeKinkDetect ch k) s =
        .next { s with w := (s.w.kinkReport ch start k true false).goOn ch (s.w.flag .A F.VLV_STATUS.RUN ch) } := by
      change execCloseKinkDetect ch k s = _
      unfold execCloseKinkDetect lift World.kinkFound
      dsimp only
      rw [hwait]
      dsimp only
      rw [World.when, if_pos (by simp [hopen, hclose, hnow])]
      rfl
    obtain ⟨⟨hnone, -, hkink⟩, ⟨ht, hn, hs⟩, hrel, -, hstep⟩ := s.w.kinkReport_leaves ch start k true false rfl
    exact .of_exec hexec ⟨hnone, hkink rfl, ht, hn, hs, hrel rfl, hstep, exec_quiet hexec rfl⟩
  case window =>
    intro ch close start opens closes thr s hwait hclose
    have hexec : exec (.kinkWindowClose ch) s = .next { s with w := (s.w.kinkReport ch start closes close true).goOn ch (s.w.flag .A F.VLV_STATUS.RUN ch) } := by
      change execKinkWindowClose ch s = _
      unfold execKinkWindowClose lift
      dsimp only
      rw [hwait]
      dsimp only
      rw [World.when, if_pos (by simpa using hclose)]
      rfl
    obtain ⟨⟨hnone, hno, -⟩, ⟨ht, hn, -⟩, -, hcnt, hstep⟩ := s.w.kinkReport_leaves ch start closes close true rfl
    exact .of_exec hexec ⟨hnone, hno rfl, hn, ht, hcnt, hstep, exec_quiet hexec rfl⟩
  case outside =>
    intro ch k close start opens closes thr s hwait hout
    refine .of_exec (t := s) ?_ rfl
    change execPullKinkConfirm ch k s = _
    unfold execPullKinkConfirm lift World.kinkFound
    dsimp only
    rw [hwait]
    dsimp only
    rw [World.when, if_neg]
    simp only [Bool.and_eq_true, decide_eq_true_eq]
    omega
end

section
/-!
SUPPORT. R20, R189–R219: the writes of a valve channel's owner.
-/
namespace Sys2Proof.Machine

/-! Violations (R20). -/

/-- What a violation records. -/
theorem World.rd_violation (w : World) (h : Half) {init obj : Nat} (hobj : obj < 2 ^ 9) :
    (w.violation h init obj).rd h F.OWN_VIOL.OBJ = obj ∧ (w.violation h init obj).rd h F.OWN_VIOL.INIT = init % 16 := by
  refine ⟨?_, ?_⟩
  · rw [World.violation, World.rd_raise _ _ _ _ _ _ _ (by decide), World.rd_wr_same _ _ _ _ _ (by decide)]
    exact Nat.mod_eq_of_lt hobj
  · rw [World.violation, World.rd_raise _ _ _ _ _ _ _ (by decide), World.rd_wr_apart _ _ _ _ _ _ _ _ (by decide),
      World.rd_wr_same _ _ _ _ _ (by decide)]
    rfl

theorem World.regsBut_violation (w : World) (h : Half) (init obj : Nat) :
    World.RegsBut [F.OWN_VIOL.OBJ.reg, F.EVT_STATUS.LOST.reg] w (w.violation h init obj) :=
  (Rest.violation (q := [.evt, .reg F.OWN_VIOL.OBJ.reg, .reg F.EVT_STATUS.LOST.reg]) h init obj (by decide) (Rest.refl _ w)).regsBut (by decide)

theorem World.regsBut_wr (w : World) (h : Half) {f : Field} (i x : Nat) (hf : f.reg < 2 ^ 25) : World.RegsBut [f.reg] w (w.wr h f i x) :=
  (Rest.wr (q := [.reg f.reg]) h f i x (by simpa [partIn] using hf) (Rest.refl _ w)).regsBut (by simp [regsIn])

/-! A write of the channel selected. -/

theorem valveWrite_owned {s : State} {h : Half} {init ch : Nat} (f : Nat → World → World) (halive : s.own.alive h = true)
    (hch : s.w.rd h F.VLV_SEL.CH init = ch) (h96 : ch < 96) (hready : (s.w.tileSt (tileOf ch)).ready = true) (howns : s.own.owns h ch = true)
    (hsafe : s.w.safeOn ch = false) : valveWrite s h init f = .next { s with w := f ch s.w } := by
  rw [valveWrite, World.sel, hch]
  rw [if_neg (by omega), if_neg (by simp [hready]), objV, gateObj_owned _ _ _ _ _ halive howns, putW, hsafe]
  rfl

theorem valveWrite_refused {s : State} {h : Half} {init ch : Nat} (f : Nat → World → World) (halive : s.own.alive h = true)
    (hch : s.w.rd h F.VLV_SEL.CH init = ch) (h96 : ch < 96) (hready : (s.w.tileSt (tileOf ch)).ready = true) (howns : s.own.owns h ch = false) :
    valveWrite s h init f = .next { s with w := s.w.violation h init ch } := by
  rw [valveWrite, World.sel, hch]
  rw [if_neg (by omega), if_neg (by simp [hready]), objV, gateObj_refused _ _ _ _ _ halive howns, putW]

theorem valveWrite_ignored {s : State} {h : Half} {init : Nat} (f : Nat → World → World)
    (hor : s.own.alive h = false ∨ (s.w.tileSt (tileOf (s.w.rd h F.VLV_SEL.CH init))).ready = false ∨
      s.w.safeOn (s.w.rd h F.VLV_SEL.CH init) = true ∧ s.own.owns h (s.w.rd h F.VLV_SEL.CH init) = true) :
    valveWrite s h init f = .next s := by
  rw [valveWrite, World.sel]
  split
  · rfl
  · split
    · rfl
    · next hready =>
      rw [putW]
      cases halive : s.own.alive h with
      | false => rw [gateObj_low _ _ _ _ _ halive]
      | true =>
        obtain hlow | hnot | ⟨hsafe, howns⟩ := hor
        · exact absurd hlow (by simp [halive])
        · exact absurd hnot (by simpa using hready)
        · rw [objV, gateObj_owned _ _ _ _ _ halive howns, if_pos hsafe]

/-! The commands of the owner. -/

/-- The level ON taken (R189, R190). -/
theorem World.valveCmd_on {w : World} {ch : Nat} (href : (w.chanRef ch).ref ≠ 0) :
    (w.valveCmd ch true).rd .A F.VLV_CMD.ON ch = 1 ∧ (w.valveCmd ch true).rd .A F.VLV_STATUS.CMD ch = 1 ∧
      (w.valveCmd ch true).rd .A F.VLV_STATUS.KNOCKED ch = w.rd .A F.VLV_STATUS.KNOCKED ch ∧
      World.RegsBut [F.VLV_CMD.ON.reg, F.VLV_STATUS.CMD.reg] w (w.valveCmd ch true) := by
  obtain ⟨u, hu⟩ : ∃ u, ((w.wr .A F.VLV_CMD.ON ch 1).wr .A F.VLV_STATUS.CMD ch 1).updEng ch (fun e => { e with probed := false }) = u := ⟨_, rfl⟩
  have hcmd : w.valveCmd ch true = u ∨ w.valveCmd ch true = u.wr .A F.VLV_STATUS.GREEN ch 0 := by
    unfold World.valveCmd
    dsimp only
    rw [if_pos rfl, if_neg href, hu]
    split
    · exact .inl rfl
    · split
      · exact .inr rfl
      · exact .inl rfl
  have hrest : Rest [.vlv, .reg F.VLV_CMD.ON.reg, .reg F.VLV_STATUS.CMD.reg] u w := by
    rw [← hu]
    exact World.updEng_rest (by decide) (Rest.wr _ _ _ _ (by decide) (Rest.wr _ _ _ _ (by decide) (Rest.refl _ w)))
  have hon : u.rd .A F.VLV_CMD.ON ch = 1 := by
    rw [← hu, World.rd_updEng, World.rd_wr_apart _ _ _ _ _ _ _ _ (by decide), World.rd_wr_same _ _ _ _ _ (by decide)]
    rfl
  have hset : u.rd .A F.VLV_STATUS.CMD ch = 1 := by
    rw [← hu, World.rd_updEng, World.rd_wr_same _ _ _ _ _ (by decide)]
    rfl
  have hknock : u.rd .A F.VLV_STATUS.KNOCKED ch = w.rd .A F.VLV_STATUS.KNOCKED ch := by
    rw [← hu, World.rd_updEng, World.rd_wr_apart _ _ _ _ _ _ _ _ (by decide), World.rd_wr_apart _ _ _ _ _ _ _ _ (by decide)]
  obtain h | h := hcmd
  · rw [h]
    exact ⟨hon, hset, hknock, hrest.regsBut (by decide)⟩
  · rw [h]
    simp (disch := decide) only [World.rd_wr_apart]
    exact ⟨hon, hset, hknock, (Rest.wr _ _ _ _ (by decide) hrest).regsBut (by decide)⟩

/-- The registers of the level OFF. -/
def World.levelOff (w : World) (ch : Nat) : World :=
  ((w.wr .A F.VLV_CMD.ON ch 0).wr .A F.VLV_STATUS.CMD ch 0).wr .A F.VLV_STATUS.KNOCKED ch 0

/-- A command OFF ends the Green state: the channel turned off, with a report without a kink (R216). -/
def World.endLevel (w : World) (ch t : Nat) : World :=
  let w := w.updEng ch fun e => { e with level := none, gramp := none }
  ((w.turnOff ch (w.eng ch).greenToff).wr .A F.VLV_STATUS.GREEN ch 0).travelReport ch true true t

theorem World.endLevel_leaves (w : World) (ch t : Nat) : (w.endLevel ch t).rd .A F.VLV_STATUS.GREEN ch = 0 ∧
    ((w.endLevel ch t).eng ch).offAt = (w.eng ch).offAt ∧
    ∀ f, outside [0x100018, F.VLV_TON.T.reg, F.VLV_TOFF.T.reg, F.VLV_CNT.NOKINK.reg] f = true → fieldsApart F.VLV_STATUS.SRC f = true →
      fieldsApart F.VLV_STATUS.DOWNGRADED f = true → fieldsApart F.VLV_STATUS.GREEN f = true → (w.endLevel ch t).rd .A f ch = w.rd .A f ch := by
  unfold World.endLevel
  extract_lets u
  refine ⟨?_, ?_, fun f ho hs hd hg => ?_⟩
  · rw [World.rd_travelReport_other _ _ _ _ _ _ _ (by decide), World.rd_wr_same _ _ _ _ _ (by decide)]
    rfl
  · obtain ⟨now, heng⟩ := ((u.turnOff ch (u.eng ch).greenToff).wr .A F.VLV_STATUS.GREEN ch 0).eng_travelReport ch true true t
    obtain ⟨b, hb⟩ := u.eng_turnOff ch (u.eng ch).greenToff
    rw [heng, World.eng_wr, hb, World.eng_updEng_same]
    rfl
  · rw [World.rd_travelReport_other _ _ _ _ _ _ _ ho, World.rd_wr_apart _ _ _ _ _ _ _ _ hg, World.rd_turnOff _ _ _ _ _ _ hs hd, World.rd_updEng]

@[simp] theorem World.rd_free (w : World) (h : Half) (f : Field) (i : Nat) : w.free.2.rd h f i = w.rd h f i := (rfl)
@[simp] theorem World.eng_free (w : World) (ch : Nat) : w.free.2.eng ch = w.eng ch := (rfl)

/-- The level OFF, with the instant of its fall (R190). -/
def World.levelFalls (w : World) (ch : Nat) : World :=
  if w.flag .A F.VLV_STATUS.CMD ch then (w.levelOff ch).updEng ch (fun e => { e with offAt := some (w.levelOff ch).now }) else w.levelOff ch

theorem World.valveCmd_false (w : World) (ch : Nat) : w.valveCmd ch false =
    if w.flag .A F.VLV_STATUS.GREEN ch then
      (if ((w.levelFalls ch).eng ch).level.isSome then
        (w.levelFalls ch).free.2.endLevel ch ((w.levelFalls ch).free.1.toNat % 2 ^ 24)
      else (w.levelFalls ch).wr .A F.VLV_STATUS.GREEN ch 0)
    else w.levelFalls ch := by
  unfold World.valveCmd World.levelFalls World.levelOff World.endLevel
  dsimp only
  rw [if_neg Bool.false_ne_true]

/-- The level OFF taken (R190, R213, R216). -/
theorem World.valveCmd_off (w : World) (ch : Nat) :
    let t := w.valveCmd ch false
    (t.rd .A F.VLV_CMD.ON ch = 0 ∧ t.rd .A F.VLV_STATUS.CMD ch = 0 ∧ t.rd .A F.VLV_STATUS.KNOCKED ch = 0) ∧
    (w.flag .A F.VLV_STATUS.CMD ch = true → (t.eng ch).offAt = some w.now) ∧
    (w.flag .A F.VLV_STATUS.GREEN ch = true → t.rd .A F.VLV_STATUS.GREEN ch = 0) := by
  have hcmd := w.valveCmd_false ch
  obtain ⟨u, hu⟩ : ∃ u, w.levelFalls ch = u := ⟨_, rfl⟩
  rw [hu] at hcmd
  unfold World.levelFalls at hu
  have hrd (f : Field) : u.rd .A f ch = (w.levelOff ch).rd .A f ch := by
    rw [← hu]
    split
    · exact World.rd_updEng _ _ _ _ _ _
    · rfl
  have hon : u.rd .A F.VLV_CMD.ON ch = 0 := by
    rw [hrd]
    simp (disch := decide) [World.levelOff, World.rd_wr_apart, World.rd_wr_same]
  have hoff : u.rd .A F.VLV_STATUS.CMD ch = 0 := by
    rw [hrd]
    simp (disch := decide) [World.levelOff, World.rd_wr_apart, World.rd_wr_same]
  have hknock : u.rd .A F.VLV_STATUS.KNOCKED ch = 0 := by
    rw [hrd]
    simp (disch := decide) [World.levelOff, World.rd_wr_same]
  have hat (hset : w.flag .A F.VLV_STATUS.CMD ch = true) : (u.eng ch).offAt = some w.now := by
    rw [← hu, if_pos hset, World.eng_updEng_same]
    simp [World.levelOff]
  dsimp only
  rw [hcmd]
  cases hgreen : w.flag .A F.VLV_STATUS.GREEN ch with
  | false => exact ⟨⟨hon, hoff, hknock⟩, hat, nofun⟩
  | true =>
    rw [if_pos rfl]
    split
    · obtain ⟨hg, he, hkeep⟩ := u.free.2.endLevel_leaves ch (u.free.1.toNat % 2 ^ 24)
      rw [hkeep _ (by decide) (by decide) (by decide) (by decide), hkeep _ (by decide) (by decide) (by decide) (by decide),
        hkeep _ (by decide) (by decide) (by decide) (by decide), he]
      simp only [World.rd_free, World.eng_free]
      exact ⟨⟨hon, hoff, hknock⟩, hat, fun _ => hg⟩
    · simp (disch := decide) only [World.rd_wr_apart, World.rd_wr_same, World.eng_wr]
      exact ⟨⟨hon, hoff, hknock⟩, hat, fun _ => rfl⟩

/-- The recipe of a channel depends on the tiles and on the bank it runs. -/
theorem World.iMax_congr {w v : World} {ch : Nat} (hv : w.vlv = v.vlv) (hb : w.rd .A F.VLV_ENG.BANK ch = v.rd .A F.VLV_ENG.BANK ch) :
    w.iMax ch = v.iMax ch := by
  rw [World.iMax, World.iMax, World.recipe, World.recipe, World.tileSt, World.tileSt, World.eng, World.eng, hv, hb]

theorem World.want_askTgt (w : World) (ch want amp : Nat) (holds : Bool) : ((w.askTgt ch want amp holds).eng ch).want = want := by
  cases hfit : (w.asked ch want amp).fits ch with
  | true =>
    obtain ⟨⟨c, heng⟩, -⟩ := World.askTgt_fits holds hfit
    rw [heng]
  | false =>
    obtain ⟨heng, -⟩ := World.askTgt_waits holds hfit
    rw [heng]

/-- A set-point that is tracked (R194). -/
theorem World.valveSetpoint_tracked {w : World} {ch v : Nat} (htrack : (w.eng ch).track = true) :
    ((w.valveSetpoint ch v).eng ch).want = min (v % 2 ^ 14) (w.iMax ch) ∧ (w.valveSetpoint ch v).rd .A F.VLV_SETPOINT.MA ch = v % 2 ^ 14 := by
  have hmax : ((w.wr .A F.VLV_SETPOINT.MA ch v).iMax ch) = w.iMax ch :=
    World.iMax_congr (by simp) (World.rd_wr_apart _ _ _ _ _ _ _ _ (by decide))
  have hsp : (w.wr .A F.VLV_SETPOINT.MA ch v).rd .A F.VLV_SETPOINT.MA ch = v % 2 ^ 14 := World.rd_wr_same _ _ _ _ _ (by decide)
  unfold World.valveSetpoint
  dsimp only
  rw [World.eng_wr, if_pos htrack, World.want_askTgt, World.rd_askTgt _ _ _ _ _ _ _ _ (by decide) (by decide) (by decide), World.rd_updEng,
    World.rd_wr_apart _ _ .A F.VLV_STATUS.SP_CLAMP F.VLV_SETPOINT.MA _ _ _ (by decide), hsp]
  exact ⟨congrArg (min (v % 2 ^ 14)) hmax, rfl⟩

theorem World.valveSetpoint_free {w : World} {ch v : Nat} (htrack : (w.eng ch).track = false) :
    w.valveSetpoint ch v = w.wr .A F.VLV_SETPOINT.MA ch v := by
  unfold World.valveSetpoint
  dsimp only
  rw [World.eng_wr, if_neg (by simp [htrack])]

/-- A Knock stops the engine and turns the channel off (R213). -/
theorem World.knockValve_leaves (w : World) (ch mode : Nat) :
    let t := w.knockValve ch mode
    t.rd .A F.VLV_STATUS.KNOCKED ch = 1 ∧ t.rd .A F.VLV_STATUS.RUN ch = 0 ∧ t.rd .A F.VLV_STATUS.SRC ch = 0 ∧
      (t.eng ch).level = none ∧ (t.eng ch).wait = .none := by
  unfold World.knockValve
  dsimp only
  rw [World.eng_wr, World.eng_updEng_same, World.eng_stopEngine]
  refine ⟨?_, ?_, ?_, rfl, rfl⟩
  · exact World.rd_wr_same _ _ _ _ _ (by decide)
  · rw [World.rd_wr_apart _ _ _ _ _ _ _ _ (by decide), World.rd_updEng, World.rd_stopEngine_run]
  · rw [World.rd_wr_apart _ _ _ _ _ _ _ _ (by decide), World.rd_updEng, World.rd_stopEngine _ _ _ _ _ (by decide), World.rd_turnOff_src]

/-- The counts of a tile's channels cleared (R219). -/
def World.clearCounts (w : World) (t : Nat) : World := w.forAll (tileChans t) fun w c => w.setReg .A F.VLV_CNT.NOKINK c 0

theorem World.clearCounts_at (w : World) (t : Nat) {j : Nat} (hlo : 16 * t ≤ j) (hhi : j < 16 * t + 16) :
    (w.clearCounts t).reg .A F.VLV_CNT.NOKINK j = 0 := by
  have hkey (c j : Nat) (hne : j ≠ c) : fieldKey F.VLV_CNT.NOKINK j ≠ fieldKey F.VLV_CNT.NOKINK c :=
    fun h => hne (fieldKey_inj (by decide) (by decide) h).1
  exact (World.forAll_at (f := fun w c => w.setReg .A F.VLV_CNT.NOKINK c 0) (fun u j => u.reg .A F.VLV_CNT.NOKINK j) id (fun _ _ => 0)
    (fun u c => World.reg_setReg_same _ _ _ _ _) (fun u c j hne => World.reg_setReg_ne _ _ _ _ _ _ _ _ (hkey c j hne))
    (l := tileChans t) (by rw [List.map_id]; exact List.nodup_range') w).1 j (List.mem_range'_1.mpr ⟨hlo, hhi⟩)

theorem World.clearCounts_regs (w : World) (t : Nat) : World.RegsBut [F.VLV_CNT.NOKINK.reg] w (w.clearCounts t) :=
  (Rest.forAll (q := [.reg F.VLV_CNT.NOKINK.reg]) (Rest.refl _ w) fun _ _ e => Rest.setReg _ _ _ _ (by decide) e).regsBut (by decide)

theorem World.clearCounts_vlv (w : World) (t : Nat) : (w.clearCounts t).vlv = w.vlv :=
  World.forAll_keeps World.vlv (fun _ _ => World.setReg_vlv _ _ _ _ _) _ w

end Sys2Proof.Machine
end

section
open Sys2Proof Sys2Proof.Machine

/-- Settles O27: the write reaches the channel by its gate, then by what the command leaves. -/
theorem valveChannelCommands : Obligations.valveChannelCommands := by
  unfold Obligations.valveChannelCommands
  refine ⟨?on, ?norcp, ?off, ?setpoint, ?clrFault, ?knock, ?clrCnt, ?refused, ?ignored⟩
  case on =>
    intro h init s ch halive hch h96 hready howns hsafe href
    have hexec : exec (.vlvCommand h init true) s = _ :=
      valveWrite_owned (fun ch w => w.valveCmd ch true) halive hch h96 hready howns hsafe
    obtain ⟨hon, hcmd, hknock, hregs⟩ := World.valveCmd_on href
    exact .of_exec hexec ⟨hon, hcmd, hknock, hregs, exec_quiet hexec rfl⟩
  case norcp =>
    intro h init s ch halive hch h96 hready howns hsafe href
    have hexec : exec (.vlvCommand h init true) s = .next { s with w := s.w.wr .A F.VLV_STATUS.FAULT ch 5 } := by
      refine (valveWrite_owned (fun ch w => w.valveCmd ch true) halive hch h96 hready howns hsafe).trans ?_
      rw [World.valveCmd]
      dsimp only
      rw [if_pos rfl, if_pos href]
    refine .of_exec hexec ⟨?_, ?_, s.w.regsBut_wr _ _ _ (by decide), exec_quiet hexec rfl⟩
    · exact World.rd_wr_same _ _ _ _ _ (by decide)
    · exact World.rd_wr_apart _ _ _ _ _ _ _ _ (by decide)
  case off =>
    intro h init s ch halive hch h96 hready howns hsafe
    have hexec : exec (.vlvCommand h init false) s = _ :=
      valveWrite_owned (fun ch w => w.valveCmd ch false) halive hch h96 hready howns hsafe
    obtain ⟨⟨hon, hcmd, hknock⟩, hat, hgreen⟩ := s.w.valveCmd_off ch
    exact .of_exec hexec ⟨hon, hcmd, hknock, hat, hgreen, exec_quiet hexec rfl⟩
  case setpoint =>
    intro h init v s ch halive hch h96 hready howns hsafe
    have hexec : exec (.vlvSetpointWrite h init v) s = _ :=
      valveWrite_owned (fun ch w => w.valveSetpoint ch v) halive hch h96 hready howns hsafe
    cases htrack : (s.w.eng ch).track with
    | true =>
      obtain ⟨hwant, hsp⟩ := World.valveSetpoint_tracked (v := v) htrack
      exact .of_exec hexec ⟨hsp, fun _ => hwant, nofun, exec_quiet hexec rfl⟩
    | false =>
      rw [World.valveSetpoint_free htrack] at hexec
      exact .of_exec hexec ⟨World.rd_wr_same _ _ _ _ _ (by decide), nofun,
        fun _ => ⟨s.w.regsBut_wr _ _ _ (by decide), World.wr_vlv _ _ _ _ _⟩, exec_quiet hexec rfl⟩
  case clrFault =>
    intro h init s ch halive hch h96 hready howns hsafe
    have hexec : exec (.vlvClrFault h init) s = _ :=
      valveWrite_owned (fun ch w => w.when (!w.flag .A F.VLV_CMD.ON ch) fun w => w.wr .A F.VLV_STATUS.FAULT ch 0) halive hch h96 hready howns hsafe
    have hrest : Rest [.reg F.VLV_STATUS.FAULT.reg] (s.w.when (!s.w.flag .A F.VLV_CMD.ON ch) fun w => w.wr .A F.VLV_STATUS.FAULT ch 0) s.w :=
      Rest.when (Rest.refl _ _) fun _ e => Rest.wr _ _ _ _ (by decide) e
    refine .of_exec hexec ⟨?_, hrest.regsBut (by decide), exec_quiet hexec rfl⟩
    dsimp only
    rw [World.rd_when, World.rd_wr_same _ _ _ _ _ (by decide), World.flag]
    by_cases hon : s.w.rd .A F.VLV_CMD.ON ch = 1 <;> simp [hon]
  case knock =>
    intro h init s ch halive hch h96 hready howns hsafe
    have hexec : exec (.vlvKnock h init) s = _ :=
      valveWrite_owned (fun ch w => w.knockValve ch (w.rd .A F.VLV_STATUS.TOFF ch)) halive hch h96 hready howns hsafe
    obtain ⟨hknock, hrun, hsrc, hlevel, hwait⟩ := s.w.knockValve_leaves ch (s.w.rd .A F.VLV_STATUS.TOFF ch)
    exact .of_exec hexec ⟨hknock, hrun, hsrc, hlevel, hwait, exec_quiet hexec rfl⟩
  case clrCnt =>
    intro h init s ch halive hch h96 howns
    have hexec : exec (.vlvClrCnt h init) s = .next { s with w := s.w.clearCounts (ch / 16) } := by
      change execVlvClrCnt h init s = _
      rw [execVlvClrCnt, World.sel, hch]
      rw [if_neg (by omega), putW, gateAny, if_pos halive, tileOf, if_pos howns]
      rfl
    exact .of_exec hexec ⟨fun j hlo hhi => s.w.clearCounts_at _ hlo hhi, s.w.clearCounts_regs _, s.w.clearCounts_vlv _, exec_quiet hexec rfl⟩
  case refused =>
    intro h init on v c s ch hc halive hch h96 hready howns
    have hexec : exec c s = .next { s with w := s.w.violation h init ch } := by
      have hrefused := fun f => valveWrite_refused f halive hch h96 hready howns
      simp only [List.mem_cons, List.not_mem_nil, or_false] at hc
      rcases hc with rfl | rfl | rfl | rfl
      · exact hrefused fun ch w => w.valveCmd ch on
      · exact hrefused fun ch w => w.valveSetpoint ch v
      · exact hrefused fun ch w => w.when (!w.flag .A F.VLV_CMD.ON ch) fun w => w.wr .A F.VLV_STATUS.FAULT ch 0
      · exact hrefused fun ch w => w.knockValve ch (w.rd .A F.VLV_STATUS.TOFF ch)
    obtain ⟨hobj, hinit⟩ := s.w.rd_violation h (init := init) (show ch < 2 ^ 9 by omega)
    exact .of_exec hexec ⟨hobj, hinit, World.violation_vlv _ _ _ _, s.w.regsBut_violation _ _ _, rfl, rfl, rfl, rfl⟩
  case ignored =>
    intro h init on v c s hc hor
    have hignored := fun f => valveWrite_ignored f hor
    simp only [List.mem_cons, List.not_mem_nil, or_false] at hc
    rcases hc with rfl | rfl | rfl | rfl
    · exact .of_exec (hignored fun ch w => w.valveCmd ch on) rfl
    · exact .of_exec (hignored fun ch w => w.valveSetpoint ch v) rfl
    · exact .of_exec (hignored fun ch w => w.when (!w.flag .A F.VLV_CMD.ON ch) fun w => w.wr .A F.VLV_STATUS.FAULT ch 0) rfl
    · exact .of_exec (hignored fun ch w => w.knockValve ch (w.rd .A F.VLV_STATUS.TOFF ch)) rfl
end

section
/-!
SUPPORT. R191–R210: a channel's engine starts, is admitted, and shares load with its twin.
-/
namespace Sys2Proof.Machine

/-- The recipe that a start takes: the one the active bank names. -/
def World.nextRecipe (w : World) (ch : Nat) : Option Recipe :=
  ((w.tileSt (tileOf ch)).bank (w.rd .A F.VLV_TILE.ACT_BANK (tileOf ch))).recs[(w.chanRef ch).slot]?

/-- A start's bank and references. -/
def World.startRefs (w : World) (ch : Nat) : World :=
  (((w.wr .A F.VLV_ENG.BANK ch (w.rd .A F.VLV_TILE.ACT_BANK (tileOf ch))).wr .A F.VLV_RCP.REF ch (w.chanRef ch).ref).wr .A F.VLV_RCP.SLOT ch
    (w.chanRef ch).slot).updEng ch fun e => { e with slot := (w.chanRef ch).slot }

theorem World.recipe_startRefs (w : World) (ch : Nat) : (w.startRefs ch).recipe ch = w.nextRecipe ch := by
  have hbank : (w.startRefs ch).rd .A F.VLV_ENG.BANK ch = w.rd .A F.VLV_TILE.ACT_BANK (tileOf ch) := by
    rw [World.startRefs, World.rd_updEng, World.rd_wr_apart _ _ _ _ _ _ _ _ (by decide), World.rd_wr_apart _ _ _ _ _ _ _ _ (by decide),
      World.rd_wr_same _ _ _ _ _ (by decide)]
    exact Nat.mod_eq_of_lt (World.rd_lt _ _ F.VLV_TILE.ACT_BANK _)
  have htile : (w.startRefs ch).vlv.tile = w.vlv.tile := by
    rw [World.startRefs, World.tile_updEng, World.wr_vlv, World.wr_vlv, World.wr_vlv]
  have hslot : ((w.startRefs ch).eng ch).slot = (w.chanRef ch).slot := by rw [World.startRefs, World.eng_updEng_same]
  rw [World.recipe, hbank, hslot, World.tileSt, htile]
  rfl

/-- The registers and the engine of a start on a recipe (R191, R198, R201). -/
def World.startOn (w : World) (ch : Nat) (r : Recipe) (atHold : Bool) (scale : Nat) : World :=
  let w := w.wr .A F.VLV_ENG.PC ch (if atHold then r.holdEntry else r.entry)
  let w := ((w.wr .A F.VLV_STATUS.RUN ch 1).wr .A F.VLV_STATUS.PHASE ch 0).wr .A F.VLV_STATUS.TOFF ch 0
  let band := (w.eng ch).startBand r
  let w := (w.wr .A F.VLV_STATUS.BAND ch band).wr .A F.VLV_STATUS.BAND_PEND ch band
  let w := w.updEng ch fun e => { e with
    hold := false, peak := false, wk := [0, 0, 0, 0], ctr := [none, none], kink := false, nokink := false, timeout := false,
    wait := .none, req := none, startAt := w.now, noneAt := none, offAt := none, pend := none, scale := scale, merge := none,
    relOn := false, probed := false, past := false }
  if (w.eng ch).level.isSome then w else w.wr .A F.VLV_STATUS.GREEN ch 0

theorem World.startEngine_eq {w : World} {ch : Nat} {r : Recipe} (hr : w.nextRecipe ch = some r) (atHold : Bool) (scale : Nat) :
    w.startEngine ch atHold scale = (w.startRefs ch).startOn ch r atHold scale := by
  have hrec : (w.startRefs ch).recipe ch = some r := (w.recipe_startRefs ch).trans hr
  unfold World.startEngine
  unfold World.startRefs at hrec
  dsimp only
  rw [hrec]
  rfl

theorem World.startOn_leaves (w : World) (ch : Nat) (r : Recipe) (atHold : Bool) (scale : Nat) :
    let t := w.startOn ch r atHold scale
    (t.rd .A F.VLV_STATUS.RUN ch = 1 ∧ t.rd .A F.VLV_ENG.PC ch = (if atHold then r.holdEntry else r.entry) % 2 ^ 11 ∧
      t.rd .A F.VLV_STATUS.PHASE ch = 0 ∧ t.rd .A F.VLV_STATUS.BAND ch = (w.eng ch).est.getD r.bandInit % 4) ∧
    ((w.eng ch).level = none → t.rd .A F.VLV_STATUS.GREEN ch = 0) ∧
    (t.eng ch).startAt = w.now ∧ (t.eng ch).wait = .none ∧ (t.eng ch).scale = scale := by
  unfold World.startOn
  extract_lets w1 w2 band w3 w4 t
  have hrd (f : Field) (hg : fieldsApart F.VLV_STATUS.GREEN f = true) : t.rd .A f ch = w3.rd .A f ch := by
    simp only [t]
    split
    · exact World.rd_updEng _ _ _ _ _ _
    · rw [World.rd_wr_apart _ _ _ _ _ _ _ _ hg, World.rd_updEng]
  have heng : t.eng ch = w4.eng ch := by
    simp only [t]
    split
    · rfl
    · rw [World.eng_wr]
  have hnow : w3.now = w.now := by simp [w3, w2, w1]
  have hband : band = (w.eng ch).est.getD r.bandInit := by simp [band, w2, w1, Eng.startBand]
  have hlevel : (w4.eng ch).level = (w.eng ch).level := by simp [w4, w3, w2, w1]
  refine ⟨⟨?_, ?_, ?_, ?_⟩, fun hl => ?_, ?_, ?_, ?_⟩
  · rw [hrd _ (by decide)]
    simp (disch := decide) [w3, w2, World.rd_wr_apart, World.rd_wr_same]
  · rw [hrd _ (by decide)]
    simp (disch := decide) only [w3, w2, w1, World.rd_wr_apart, World.rd_wr_same]
  · rw [hrd _ (by decide)]
    simp (disch := decide) [w3, w2, World.rd_wr_apart, World.rd_wr_same]
  · rw [hrd _ (by decide), ← hband]
    simp (disch := decide) only [w3, World.rd_wr_apart, World.rd_wr_same]
    rfl
  · simp only [t]
    rw [if_neg (by simp [hlevel, hl]), World.rd_wr_same _ _ _ _ _ (by decide)]
    rfl
  · rw [heng, World.eng_updEng_same, hnow]
  · rw [heng, World.eng_updEng_same]
  · rw [heng, World.eng_updEng_same]

@[simp] theorem World.now_startRefs (w : World) (ch : Nat) : (w.startRefs ch).now = w.now := by simp [World.startRefs]
theorem World.level_startRefs (w : World) (ch : Nat) : ((w.startRefs ch).eng ch).level = (w.eng ch).level := by simp [World.startRefs]
theorem World.est_startRefs (w : World) (ch : Nat) : ((w.startRefs ch).eng ch).est = (w.eng ch).est := by simp [World.startRefs]

/-- A start leaves every register of other blocks. -/
theorem World.rd_startEngine (w : World) (ch : Nat) (atHold : Bool) (scale : Nat) (h : Half) (f : Field) (i : Nat)
    (hf : outside [0x100018, F.VLV_STATUS.RUN.reg, F.VLV_ENG.PC.reg, F.VLV_RCP.REF.reg] f = true) :
    (w.startEngine ch atHold scale).rd h f i = w.rd h f i :=
  (World.startEngine_rest (q0 := [.evt, .vlv, .reg 0x100018, .reg 0x500028, .reg 0x500044, .reg 0x500048]) (by decide) (Rest.refl _ w)).rd_outside
    (by decide) hf h i

/-! Admission (R207). -/

/-- A boost admitted while it waited. -/
theorem World.decide_boost {w : World} {ch : Nat} {r : Req} (hreq : (w.eng ch).req = some r) (hboost : r.boost = true)
    (hfree : w.boostFree ch = true) : (w.decide_ ch).rd .A F.VLV_STATUS.SRC ch = 2 ∧ ((w.decide_ ch).eng ch).req = none := by
  have he : w.decide_ ch = (w.admitSrc ch 2).when r.holds (·.advance ch) := by
    rw [World.decide_, hreq]
    dsimp only
    rw [if_pos hboost, if_pos hfree]
  obtain ⟨p, hp⟩ := (w.admitSrc ch 2).eng_advance ch ch
  obtain ⟨d, hd⟩ := w.eng_admitSrc ch 2
  rw [he, World.rd_when, World.rd_advance _ _ _ _ _ (by decide), ite_self, World.rd_admitSrc_src, World.eng_when, hp, hd]
  exact ⟨rfl, by split <;> rfl⟩

/-- A target admitted while it waited. -/
theorem World.decide_target {w : World} {ch : Nat} {r : Req} (hreq : (w.eng ch).req = some r) (hboost : r.boost = false)
    (hfit : w.fits ch = true) :
    ((w.decide_ ch).eng ch).tgt = (w.eng ch).want ∧ ((w.decide_ ch).eng ch).dith.amp = (w.eng ch).wantAmp ∧ ((w.decide_ ch).eng ch).req = none ∧
      (w.decide_ ch).rd .A F.VLV_STATUS.LIMITED ch = 0 := by
  have he : w.decide_ ch = (((w.setTgt ch (w.eng ch).want (w.eng ch).wantAmp).updEng ch fun e => { e with req := none }).wr
      .A F.VLV_STATUS.LIMITED ch 0).when r.holds (·.advance ch) := by
    rw [World.decide_, hreq]
    dsimp only
    rw [if_neg (by simp [hboost]), if_pos hfit]
  obtain ⟨u, hu⟩ : ∃ u, ((w.setTgt ch (w.eng ch).want (w.eng ch).wantAmp).updEng ch fun e => { e with req := none }) = u := ⟨_, rfl⟩
  have heng : (u.eng ch).tgt = (w.eng ch).want ∧ (u.eng ch).dith.amp = (w.eng ch).wantAmp ∧ (u.eng ch).req = none := by
    rw [← hu, World.eng_updEng_same, World.setTgt, World.eng_updEng_same]
    exact ⟨rfl, rfl, rfl⟩
  obtain ⟨p, hp⟩ := (u.wr .A F.VLV_STATUS.LIMITED ch 0).eng_advance ch ch
  obtain ⟨htgt, hamp, hnone⟩ := heng
  rw [he, hu, World.rd_when, World.rd_advance _ _ _ _ _ (by decide), ite_self, World.rd_wr_same _ _ _ _ _ (by decide), World.eng_when, hp,
    World.eng_wr]
  split
  · exact ⟨htgt, hamp, hnone, rfl⟩
  · exact ⟨htgt, hamp, hnone, rfl⟩

/-- A request 2 ms old (R207). -/
def World.waitedOut (w : World) (ch : Nat) (r : Req) : World :=
  let w := w.vlvEvent (tileOf ch) 2 ch (b2n r.boost)
  if r.boost then w.updEng ch fun e => { e with req := none, timeout := true }
  else ((w.setTgt ch (w.headroomTgt ch) (w.eng ch).dith.amp).updEng ch fun e => { e with req := some { r with late := true, holds := false } }).wr
    .A F.VLV_STATUS.LIMITED ch 1

theorem World.waitedOut_boost {w : World} {ch : Nat} {r : Req} (hb : r.boost = true) :
    ((w.waitedOut ch r).eng ch).req = none ∧ ((w.waitedOut ch r).eng ch).timeout = true := by
  rw [World.waitedOut]
  rw [if_pos hb, World.eng_updEng_same]
  exact ⟨rfl, rfl⟩

theorem World.waitedOut_target {w : World} {ch : Nat} {r : Req} (hb : r.boost = false) :
    ((w.waitedOut ch r).eng ch).req = some { r with late := true, holds := false } ∧ (w.waitedOut ch r).rd .A F.VLV_STATUS.LIMITED ch = 1 ∧
      (w.eng ch).tgt ≤ ((w.waitedOut ch r).eng ch).tgt := by
  rw [World.waitedOut]
  rw [if_neg (by simp [hb]), World.eng_wr, World.eng_updEng_same, World.setTgt, World.eng_updEng_same]
  refine ⟨rfl, ?_, ?_⟩
  · rw [World.rd_wr_same _ _ _ _ _ (by decide)]
    rfl
  · dsimp only
    rw [World.headroomTgt, World.eng_vlvEvent]
    exact Nat.le_max_left _ _

theorem World.rd_waitedOut_pc (w : World) (ch : Nat) (r : Req) : (w.waitedOut ch r).rd .A F.VLV_ENG.PC ch = w.rd .A F.VLV_ENG.PC ch := by
  rw [World.waitedOut]
  split
  · rw [World.rd_updEng, World.rd_vlvEvent _ _ _ _ _ _ _ _ (by decide)]
  · rw [World.rd_wr_apart _ _ _ _ _ _ _ _ (by decide), World.rd_updEng, World.setTgt, World.rd_updEng,
      World.rd_vlvEvent _ _ _ _ _ _ _ _ (by decide)]

/-! Twins (R209, R210). -/

/-- A survivor alone with its load (R209). -/
def World.twinAlone (w : World) (ch : Nat) : World :=
  let e := w.eng ch
  let held := e.tgt * e.scaleNow w.now / 1000
  let w := w.updEng ch fun e => { e with scale := 1000, merge := none, tgt := held }
  let w := w.askTgt ch e.tgt e.wantAmp false
  (w.wr .A F.VLV_STATUS.TWIN_SOLO ch 1).vlvEvent (tileOf ch) 5 ch 1

theorem World.twinAlone_leaves (w : World) (ch : Nat) :
    (w.twinAlone ch).rd .A F.VLV_STATUS.TWIN_SOLO ch = 1 ∧ ((w.twinAlone ch).eng ch).scale = 1000 ∧ ((w.twinAlone ch).eng ch).merge = none ∧
      ((w.twinAlone ch).eng ch).want = (w.eng ch).tgt := by
  unfold World.twinAlone
  extract_lets e held u v
  have heng : (v.eng ch).scale = 1000 ∧ (v.eng ch).merge = none := by
    cases hfit : (u.asked ch e.tgt e.wantAmp).fits ch with
    | true =>
      obtain ⟨⟨c, hv⟩, -⟩ := World.askTgt_fits false hfit
      rw [hv, World.eng_updEng_same]
      exact ⟨rfl, rfl⟩
    | false =>
      obtain ⟨hv, -⟩ := World.askTgt_waits false hfit
      rw [hv, World.eng_updEng_same]
      exact ⟨rfl, rfl⟩
  rw [World.eng_vlvEvent, World.eng_wr, World.rd_vlvEvent _ _ _ _ _ _ _ _ (by decide), World.rd_wr_same _ _ _ _ _ (by decide)]
  exact ⟨rfl, heng.1, heng.2, World.want_askTgt _ _ _ _ _⟩

/-- Twins at one half each. -/
def World.shareHalf (w : World) (c : Nat) : World := w.updEng c fun e => { e with scale := 500, merge := none }

theorem World.shareHalf_kept {w : World} {c d : Nat} (hd : (w.eng d).scale = 500 ∧ (w.eng d).merge = none ∨ d = c) :
    ((w.shareHalf c).eng d).scale = 500 ∧ ((w.shareHalf c).eng d).merge = none := by
  by_cases hdc : d = c
  · subst hdc
    rw [World.shareHalf, World.eng_updEng_same]
    exact ⟨rfl, rfl⟩
  · rw [World.shareHalf, World.eng_updEng_ne _ _ hdc]
    exact hd.resolve_right hdc

end Sys2Proof.Machine
end

section
open Sys2Proof Sys2Proof.Machine

/-- Settles O28: a start takes the recipe that the active bank names; a request is decided by what fits. -/
theorem valveEngineStarts : Obligations.valveEngineStarts := by
  unfold Obligations.valveEngineStarts
  refine ⟨?start, ?notYet, ?boost, ?target, ?idle, ?late, ?early, ?loss, ?lossNot, ?back, ?backNot, ?merged, ?merging⟩
  case start =>
    intro ch s r hmay htwin hlevel hrec hsvc
    have hexec : exec (.engineStart ch) s = .next { s with w := (s.w.startRefs ch).startOn ch r false 1000 } := by
      have heng : s.w.engineStart ch = s.w.startEngine ch false 1000 := by
        rw [World.engineStart, World.partnerHolds, htwin, hlevel]
        rfl
      have hstate : (s.w.startEngine ch false 1000).rd .A F.STW_SVC_STAT.STATE ≠ 2 := by
        rwa [World.rd_startEngine _ _ _ _ _ _ _ (by decide)]
      change execEngineStart ch s = _
      rw [execEngineStart, lift, hmay, World.when_true, heng, World.svcTwinLost, decide_eq_false hstate, World.startEngine_eq hrec]
      rfl
    obtain ⟨⟨hrun, hpc, hphase, hband⟩, hgreen, hat, hwait, hscale⟩ := (s.w.startRefs ch).startOn_leaves ch r false 1000
    rw [World.est_startRefs] at hband
    rw [World.now_startRefs] at hat
    exact .of_exec hexec ⟨hrun, hpc, hphase, hband, hgreen ((s.w.level_startRefs ch).trans hlevel), hat, hwait, hscale, exec_quiet hexec rfl⟩
  case notYet =>
    intro ch s hmay
    exact .of_exec rfl (by simp [hmay])
  case boost =>
    intro bank ch s hwaiting hreq hfree
    have hexec : exec (.bankAdmission bank) s = .next { s with w := s.w.decide_ ch } := by
      change execBankAdmission bank s = _
      rw [execBankAdmission, lift, hwaiting]
      rfl
    obtain ⟨r, hr, hb⟩ := Option.map_eq_some_iff.mp hreq
    obtain ⟨hsrc, hnone⟩ := World.decide_boost hr hb hfree
    exact .of_exec hexec ⟨hsrc, hnone, exec_quiet hexec rfl⟩
  case target =>
    intro bank ch s hwaiting hreq hfit
    have hexec : exec (.bankAdmission bank) s = .next { s with w := s.w.decide_ ch } := by
      change execBankAdmission bank s = _
      rw [execBankAdmission, lift, hwaiting]
      rfl
    obtain ⟨r, hr, hb⟩ := Option.map_eq_some_iff.mp hreq
    obtain ⟨htgt, hamp, hnone, hlim⟩ := World.decide_target hr hb hfit
    exact .of_exec hexec ⟨htgt, hamp, hnone, hlim, exec_quiet hexec rfl⟩
  case idle =>
    intro bank s hwaiting
    exact .of_exec rfl (by simp [hwaiting, World.forAll])
  case late =>
    intro ch s r hreq hlate hat
    have hexec : exec (.bankWaitTimeout ch) s = .next { s with w := (s.w.waitedOut ch r).when r.holds (·.advance ch) } := by
      change execBankWaitTimeout ch s = _
      unfold execBankWaitTimeout lift
      dsimp only
      rw [hreq]
      dsimp only
      rw [hlate, Bool.false_or, show 2 * ms = 2000000 from rfl, if_neg (by simpa using hat)]
      rfl
    obtain ⟨p, hp⟩ := (s.w.waitedOut ch r).eng_advance ch ch
    refine .of_exec hexec ⟨fun hb => ?_, fun hb => ?_, fun hh => ?_, exec_quiet hexec rfl⟩
    · obtain ⟨hnone, hto⟩ := World.waitedOut_boost (w := s.w) (ch := ch) hb
      dsimp only
      rw [World.eng_when, hp]
      split
      · exact ⟨hnone, hto⟩
      · exact ⟨hnone, hto⟩
    · obtain ⟨hsome, hlim, hle⟩ := World.waitedOut_target (w := s.w) (ch := ch) hb
      dsimp only
      rw [World.rd_when, World.rd_advance _ _ _ _ _ (by decide), ite_self, World.eng_when, hp]
      split
      · exact ⟨hsome, hlim, hle⟩
      · exact ⟨hsome, hlim, hle⟩
    · dsimp only
      rw [hh, World.when_true]
      exact World.stepped_advance (s.w.rd_waitedOut_pc ch r)
  case early =>
    intro ch s r hreq hlt
    refine .of_exec (t := s) ?_ rfl
    change execBankWaitTimeout ch s = _
    unfold execBankWaitTimeout lift
    dsimp only
    rw [hreq]
    dsimp only
    rw [if_pos (by simp only [Bool.or_eq_true, decide_eq_true_eq]; exact .inr (by simpa [ms] using hlt))]
  case loss =>
    intro ch p s htwin hlow hline hsolo
    have hexec : exec (.twinPartnerLoss ch) s = .next { s with w := s.w.twinAlone ch } := by
      change execTwinPartnerLoss ch s = _
      unfold execTwinPartnerLoss lift
      dsimp only
      rw [htwin]
      dsimp only
      rw [hlow, hline, (World.flag_eq_false_iff rfl).mpr hsolo]
      rfl
    obtain ⟨hset, hscale, hmerge, hwant⟩ := s.w.twinAlone_leaves ch
    exact .of_exec hexec ⟨hset, hscale, hmerge, hwant, exec_quiet hexec rfl⟩
  case lossNot =>
    intro ch p s htwin hline
    refine .of_exec (t := s) ?_ rfl
    change execTwinPartnerLoss ch s = _
    unfold execTwinPartnerLoss lift
    dsimp only
    rw [htwin]
    dsimp only
    rw [hline]
    rfl
  case back =>
    intro ch p s r htwin hline hsolo hmay hrec
    have hexec : exec (.twinPartnerReturn ch) s = .next { s with w := (s.w.startRefs ch).startOn ch r true 0 } := by
      change execTwinPartnerReturn ch s = _
      unfold execTwinPartnerReturn lift
      dsimp only
      rw [htwin]
      dsimp only
      rw [hline, World.flag_eq_true_iff.mpr hsolo, hmay, ← World.startEngine_eq hrec]
      rfl
    obtain ⟨⟨hrun, hpc, -, -⟩, -, -, -, hscale⟩ := (s.w.startRefs ch).startOn_leaves ch r true 0
    exact .of_exec hexec ⟨hrun, hpc, hscale, exec_quiet hexec rfl⟩
  case backNot =>
    intro ch p s htwin hsolo
    refine .of_exec (t := s) ?_ rfl
    change execTwinPartnerReturn ch s = _
    unfold execTwinPartnerReturn lift
    dsimp only
    rw [htwin]
    dsimp only
    rw [(World.flag_eq_false_iff rfl).mpr hsolo, Bool.and_false, Bool.false_and]
    rfl
  case merged =>
    intro ch p t0 s htwin hmerge hat
    obtain ⟨u, hu⟩ : ∃ u, (s.w.shareHalf ch).shareHalf p = u := ⟨_, rfl⟩
    obtain ⟨solo, hsolo⟩ : ∃ solo, (if u.flag .A F.VLV_STATUS.TWIN_SOLO p then p else ch) = solo := ⟨_, rfl⟩
    have hexec : exec (.twinScaleMergeEnd ch) s = .next { s with
        w := ((u.wr .A F.VLV_STATUS.TWIN_SOLO ch 0).wr .A F.VLV_STATUS.TWIN_SOLO p 0).vlvEvent (tileOf solo) 5 solo 0 } := by
      change execTwinScaleMergeEnd ch s = _
      unfold execTwinScaleMergeEnd lift
      dsimp only
      rw [htwin, hmerge]
      dsimp only
      rw [show 10 * ms = 10000000 from rfl, decide_eq_true hat, World.when_true, ← hsolo, ← hu]
      rfl
    have hch : (u.eng ch).scale = 500 ∧ (u.eng ch).merge = none := by
      rw [← hu]
      exact World.shareHalf_kept (.inl (World.shareHalf_kept (.inr rfl)))
    have hp : (u.eng p).scale = 500 ∧ (u.eng p).merge = none := by
      rw [← hu]
      exact World.shareHalf_kept (.inr rfl)
    refine .of_exec hexec ⟨?_, ?_, ?_, ?_, ?_, ?_, exec_quiet hexec rfl⟩
    · rw [World.eng_vlvEvent, World.eng_wr, World.eng_wr, hch.1]
    · rw [World.eng_vlvEvent, World.eng_wr, World.eng_wr, hp.1]
    · rw [World.eng_vlvEvent, World.eng_wr, World.eng_wr, hch.2]
    · rw [World.eng_vlvEvent, World.eng_wr, World.eng_wr, hp.2]
    · rw [World.rd_vlvEvent _ _ _ _ _ _ _ _ (by decide)]
      by_cases hcp : ch = p
      · rw [hcp, World.rd_wr_same _ _ _ _ _ (by decide)]
        rfl
      · rw [World.rd_wr_idx _ _ _ _ _ _ (by decide) (by decide) hcp, World.rd_wr_same _ _ _ _ _ (by decide)]
        rfl
    · rw [World.rd_vlvEvent _ _ _ _ _ _ _ _ (by decide), World.rd_wr_same _ _ _ _ _ (by decide)]
      rfl
  case merging =>
    intro ch t0 s hmerge hlt
    refine .of_exec (t := s) ?_ rfl
    change execTwinScaleMergeEnd ch s = _
    unfold execTwinScaleMergeEnd lift
    dsimp only
    rw [hmerge]
    split
    · next heq =>
      cases heq
      rw [show 10 * ms = 10000000 from rfl, decide_eq_false (Nat.not_le.mpr hlt), World.when_false]
    · rfl
end

section
/-!
SUPPORT. R184–R216: the faults, estimates and rails of the valve tiles.
-/
namespace Sys2Proof.Machine

/-! Faults of one channel and of a list of them (R211). -/

theorem World.rd_turnOff_idx (w : World) {ch j : Nat} (mode : Nat) (f : Field) (hf : f.reg < 2 ^ 25) (hj : j ≠ ch) :
    (w.turnOff ch mode).rd .A f j = w.rd .A f j := by
  simp only [World.turnOff, World.rd_updEng]
  rw [World.rd_wr_idx _ _ _ _ _ _ (by decide) hf hj, World.rd_wr_idx _ _ _ _ _ _ (by decide) hf hj]

theorem World.rd_stopEngine_idx (w : World) {ch j : Nat} (f : Field) (hf : f.reg < 2 ^ 25) (hj : j ≠ ch) :
    (w.stopEngine ch).rd .A f j = w.rd .A f j := by
  rw [World.stopEngine, World.rd_wr_idx _ _ _ _ _ _ (by decide) hf hj, World.rd_updEng]

/-- A fault leaves the registers of every other channel. -/
theorem World.rd_vlvFault_idx (w : World) {ch j : Nat} (code : Nat) (f : Field)
    (hf : (decide (f.reg < 2 ^ 25) && decide (f.reg ≠ 0x100018)) = true) (hj : j ≠ ch) : (w.vlvFault ch code).rd .A f j = w.rd .A f j := by
  have hlt : f.reg < 2 ^ 25 := by
    simp only [Bool.and_eq_true, decide_eq_true_eq] at hf
    exact hf.1
  unfold World.vlvFault
  dsimp only
  split
  · exact World.rd_wr_idx _ _ _ _ _ _ (by decide) hlt hj
  · rw [World.rd_vlvEvent _ _ _ _ _ _ _ _ hf, World.rd_updEng, World.rd_stopEngine_idx _ _ hlt hj, World.rd_turnOff_idx _ _ _ hlt hj,
      World.rd_wr_idx _ _ _ _ _ _ (by decide) hlt hj]

/-- A fault leaves every register of the channel beside its status. -/
theorem World.rd_vlvFault_other (w : World) (ch code : Nat) (f : Field) (j : Nat) (hf : outside [0x100018, F.VLV_STATUS.FAULT.reg] f = true) :
    (w.vlvFault ch code).rd .A f j = w.rd .A f j :=
  (World.vlvFault_rest (q0 := [.evt, .vlv, .reg 0x100018, .reg 0x500028]) (by decide) (Rest.refl _ w)).rd_outside (by decide) hf .A j

@[simp] theorem World.tile_vlvFault (w : World) (ch code : Nat) : (w.vlvFault ch code).vlv.tile = w.vlv.tile := by
  unfold World.vlvFault
  dsimp only
  split <;> simp [World.turnOff, World.stopEngine]

theorem World.probed_vlvFault (w : World) (ch code : Nat) : ((w.vlvFault ch code).eng ch).probed = (w.eng ch).probed := by
  unfold World.vlvFault
  dsimp only
  split
  · rw [World.eng_wr]
  · obtain ⟨b, hb⟩ := (w.wr .A F.VLV_STATUS.FAULT ch code).eng_turnOff ch 1
    rw [World.eng_vlvEvent, World.eng_updEng_same, World.eng_stopEngine, hb, World.eng_wr]

/-- The fault, the source and the run state of a channel. -/
def World.status (w : World) (ch : Nat) : Nat × Nat × Nat :=
  (w.rd .A F.VLV_STATUS.FAULT ch, w.rd .A F.VLV_STATUS.SRC ch, w.rd .A F.VLV_STATUS.RUN ch)

/-- A list of channels faulted: those of the list, and no other. -/
theorem World.status_faults (w : World) {l : List Nat} (hnd : l.Nodup) {code : Nat} (h16 : code < 16) (hc : code ≠ 5) :
    (∀ ch ∈ l, (w.forAll l fun w c => w.vlvFault c code).status ch = (code, 0, 0)) ∧
      ∀ ch ∉ l, (w.forAll l fun w c => w.vlvFault c code).status ch = w.status ch := by
  have hat := World.forAll_at (f := fun w c => World.vlvFault w c code) World.status id (fun _ _ => (code, 0, 0))
    (fun u c => by
      obtain ⟨hfault, hrun, hsrc⟩ := u.rd_vlvFault c h16 hc
      simp only [World.status, id, hfault, hrun, hsrc])
    (fun u c j (hj : j ≠ c) => by
      rw [World.status, u.rd_vlvFault_idx code F.VLV_STATUS.FAULT (by decide) hj, u.rd_vlvFault_idx code F.VLV_STATUS.SRC (by decide) hj,
        u.rd_vlvFault_idx code F.VLV_STATUS.RUN (by decide) hj]
      rfl) (l := l) (by rwa [List.map_id]) w
  simpa using hat

theorem tileChans_nodup (t : Nat) : (tileChans t).Nodup := List.nodup_range'
theorem bankChans_nodup (n : Nat) : (bankChans n).Nodup := List.nodup_range'

/-- A channel fault recorded with the current that shows it. -/
theorem World.fault_with_current (w : World) (ch x : Nat) {code : Nat} (h16 : code < 16) (hc : code ≠ 5) :
    let t := (w.wr .A F.VLV_CUR.I ch x).vlvFault ch code
    t.rd .A F.VLV_STATUS.FAULT ch = code ∧ t.rd .A F.VLV_STATUS.SRC ch = 0 ∧ t.rd .A F.VLV_STATUS.RUN ch = 0 ∧
      t.rd .A F.VLV_CUR.I ch = x % 2 ^ 16 := by
  obtain ⟨hfault, hrun, hsrc⟩ := (w.wr .A F.VLV_CUR.I ch x).rd_vlvFault ch h16 hc
  refine ⟨hfault, hsrc, hrun, ?_⟩
  rw [World.rd_vlvFault_other _ _ _ _ _ (by decide), World.rd_wr_same _ _ _ _ _ (by decide)]

theorem World.status_vlvEvent (w : World) (t k c cause ch : Nat) : (w.vlvEvent t k c cause).status ch = w.status ch := by
  simp (disch := decide) only [World.status, World.rd_vlvEvent]

theorem World.status_iff {w : World} {ch a b c : Nat} (h : w.status ch = (a, b, c)) :
    w.rd .A F.VLV_STATUS.FAULT ch = a ∧ w.rd .A F.VLV_STATUS.SRC ch = b ∧ w.rd .A F.VLV_STATUS.RUN ch = c := by
  simpa [World.status] using h

/-- A list of channels faulted leaves every register of other blocks. -/
theorem World.rd_faults_other (w : World) (l : List Nat) (code : Nat) (f : Field) (j : Nat)
    (hf : outside [0x100018, F.VLV_STATUS.FAULT.reg] f = true) : (w.forAll l fun w c => w.vlvFault c code).rd .A f j = w.rd .A f j :=
  World.forAll_keeps (f := fun w c => World.vlvFault w c code) (fun u => u.rd .A f j) (fun u c => u.rd_vlvFault_other c code f j hf) l w

theorem World.tile_faults (w : World) (l : List Nat) (code : Nat) : (w.forAll l fun w c => w.vlvFault c code).vlv.tile = w.vlv.tile :=
  World.forAll_keeps (f := fun w c => World.vlvFault w c code) (fun u => u.vlv.tile) (fun u c => u.tile_vlvFault c code) l w

/-! Tiles. -/

theorem World.tileSt_congr {w v : World} (hv : w.vlv.tile = v.vlv.tile) (t : Nat) : w.tileSt t = v.tileSt t := by
  rw [World.tileSt, World.tileSt, hv]

@[simp] theorem World.tileSt_updTile (w : World) (t : Nat) (u : Tile → Tile) : (w.updTile t u).tileSt t = u (w.tileSt t) := by
  simp [World.tileSt, World.updTile, NMap.upd]

@[simp] theorem World.rd_updTile (w : World) (t : Nat) (u : Tile → Tile) (h : Half) (f : Field) (i : Nat) :
    (w.updTile t u).rd h f i = w.rd h f i := (rfl)
@[simp] theorem World.tileSt_wr (w : World) (h : Half) (f : Field) (i v t : Nat) : (w.wr h f i v).tileSt t = w.tileSt t :=
  World.tileSt_congr (by simp) t

/-- A bank just updated. -/
theorem Tile.bank_updBank (x : Tile) (b : Nat) (u : RBank → RBank) : (x.updBank b u).bank b = u (x.bank b) := by
  unfold Tile.updBank Tile.bank
  by_cases hb : b = 0 <;> simp [hb]

/-- No half writes recipe memory: a free lock changes nothing. -/
theorem World.tileRetry_idle {w : World} (t : Nat) (ha : w.loads .A = false) (hb : w.loads .B = false) : w.tileRetry t = w := by
  simp [World.tileRetry, World.forAll, ha, hb]

/-- A bank that carries a half's tag is not written again (R188). -/
theorem World.tileLoad_tagged {w : World} {h : Half} {t b : Nat} (htag : ((w.tileSt t).bank b).tag = w.roastPrefix h) : w.tileLoad h t = w := by
  unfold World.tileLoad World.loadTile
  dsimp only
  rw [if_pos]
  unfold Tile.bank at htag
  split at htag <;> simp [htag]

/-- The lock of a bank released, its tag set (R188). -/
theorem World.unlockTile_leaves {w : World} {t : Nat} {g : Half} (hlock : (w.tileSt t).lock = some g) :
    let u := w.unlockTile t
    (u.tileSt t).lock = none ∧ u.rd .A F.VLV_TILE.LOADING t = 0 ∧ ((u.tileSt t).bank (w.idleBank t)).tag = w.roastPrefix g ∧
      ((u.tileSt t).bank (w.idleBank t)).recs = ((w.tileSt t).bank (w.idleBank t)).recs ∧ u.roast = w.roast := by
  obtain ⟨u, hu⟩ : ∃ u, w.updTile t (fun ts => { Tile.updBank ts (w.idleBank t) (fun rb => { rb with tag := w.roastPrefix g }) with lock := none }) = u :=
    ⟨_, rfl⟩
  have he : w.unlockTile t = u.wr .A F.VLV_TILE.LOADING t 0 := by
    unfold World.unlockTile
    rw [hlock]
    dsimp only
    rw [hu]
  have hst : u.tileSt t = { (w.tileSt t).updBank (w.idleBank t) (fun rb => { rb with tag := w.roastPrefix g }) with lock := none } := by
    rw [← hu, World.tileSt_updTile]
  have hbank : (u.tileSt t).bank (w.idleBank t) = { (w.tileSt t).bank (w.idleBank t) with tag := w.roastPrefix g } := by
    rw [hst]
    exact Tile.bank_updBank _ _ _
  have hroast : u.roast = w.roast := by rw [← hu]; rfl
  dsimp only
  rw [he, World.tileSt_wr, hbank, hst, World.wr_roast, World.rd_wr_same _ _ _ _ _ (by decide)]
  exact ⟨rfl, rfl, rfl, rfl, hroast⟩

/-- A tile that has come up, before its channels take part again (R470). -/
def World.tileUp (w : World) (t rail : Nat) : World :=
  ((w.updTile t fun x => { x with ready := true }).wr .A F.VLV_TILE.BOOST_OK t 1).wr .A F.VLV_TILE.RAIL t (satTo 16 rail)

/-- A tile comes up: its owned channels take part, the service request ends (R470). -/
def World.tileComes (own : Own) (t rail : Nat) (w : World) : World :=
  let w := w.tileUp t rail
  let w := w.forAll ((tileChans t).filter (fun c => (own.owner (objV c)).isSome)) World.chanAgain
  let w := w.when (!w.svc.busy || w.svc.tile = t + 1) fun w => w.svcState 6 0
  w.when (w.svc.tile = t + 1) fun w => w.updSvc fun v => { v with tile := 0, busy := false }

theorem World.tileComes_leaves (own : Own) (w : World) (t rail : Nat) :
    ((World.tileComes own t rail w).tileSt t).ready = true ∧ (World.tileComes own t rail w).rd .A F.VLV_TILE.BOOST_OK t = 1 ∧
      (World.tileComes own t rail w).rd .A F.VLV_TILE.RAIL t = satTo 16 rail := by
  have hrest : Rest [.evt, .svc, .reg 0xA4, .reg 0x100018, .reg F.VLV_STATUS.FAULT.reg] (World.tileComes own t rail w) (w.tileUp t rail) := by
    unfold World.tileComes
    exact Rest.when (Rest.when (Rest.forAll (Rest.refl _ _) fun _ _ e => World.chanAgain_rest (by decide) e) fun _ e =>
      World.svcState_rest (by decide) e) fun _ e => World.updSvc_rest (by decide) e
  have hrd (f : Field) (hf : outside [0xA4, 0x100018, F.VLV_STATUS.FAULT.reg] f = true) :
      (World.tileComes own t rail w).rd .A f t = (w.tileUp t rail).rd .A f t := hrest.rd_outside (by decide) hf .A t
  rw [World.tileSt_congr (congrArg Valves.tile (hrest.vlv (by decide))), hrd _ (by decide), hrd _ (by decide), World.tileUp, World.tileSt_wr,
    World.tileSt_wr, World.tileSt_updTile, World.rd_wr_apart _ _ _ _ _ _ _ _ (by decide), World.rd_wr_same _ _ _ _ _ (by decide),
    World.rd_wr_same _ _ _ _ _ (by decide)]
  exact ⟨rfl, rfl, Nat.mod_eq_of_lt (satTo_lt _ _)⟩

/-! Duty (R205, R206). -/

/-- A millisecond's square counted. -/
def Eng.dutyCounted (e : Eng) (r : Recipe) (i now : Nat) : Eng :=
  if e.binAt + r.binNs ≤ now then { e with bins := ((e.bin + i * i) :: e.bins).take 63, bin := 0, binAt := now } else { e with bin := e.bin + i * i }

/-- The registers of an evaluation of D. -/
def World.dutyShown (w : World) (ch : Nat) (r : Recipe) : World :=
  let d := (w.eng ch).duty r
  let w := (w.wr .A F.VLV_DUTY.D ch (min 2000 (floorN d))).wr .A F.VLV_STATUS.DUTY_LIM ch (b2n ((r.dutyMax : Rat) ≤ d))
  let hw := w.flag .A F.VLV_STATUS.DUTY_HW ch
  if !hw && 1000 ≤ d then (w.wr .A F.VLV_STATUS.DUTY_HW ch 1).vlvEvent (tileOf ch) 3 ch 0
  else if hw && d ≤ 950 then w.wr .A F.VLV_STATUS.DUTY_HW ch 0
  else w

/-- The hardware duty limit by its hysteresis (R206). -/
theorem World.dutyShown_leaves (w : World) (ch : Nat) (r : Recipe) :
    let d := (w.eng ch).duty r
    let t := w.dutyShown ch r
    t.eng ch = w.eng ch ∧ t.rd .A F.VLV_CUR.I ch = w.rd .A F.VLV_CUR.I ch ∧ t.rd .A F.VLV_DUTY.D ch = min 2000 (floorN d) ∧
      t.rd .A F.VLV_STATUS.DUTY_LIM ch = b2n ((r.dutyMax : Rat) ≤ d) ∧
      (1000 ≤ d → t.rd .A F.VLV_STATUS.DUTY_HW ch = 1) ∧ (d ≤ 950 → t.rd .A F.VLV_STATUS.DUTY_HW ch = 0) ∧
      (950 < d → d < 1000 → t.rd .A F.VLV_STATUS.DUTY_HW ch = w.rd .A F.VLV_STATUS.DUTY_HW ch) := by
  obtain ⟨d, hd⟩ : ∃ d, (w.eng ch).duty r = d := ⟨_, rfl⟩
  obtain ⟨u, hu⟩ : ∃ u, (w.wr .A F.VLV_DUTY.D ch (min 2000 (floorN d))).wr .A F.VLV_STATUS.DUTY_LIM ch (b2n ((r.dutyMax : Rat) ≤ d)) = u := ⟨_, rfl⟩
  have hcur : u.rd .A F.VLV_CUR.I ch = w.rd .A F.VLV_CUR.I ch := by
    rw [← hu, World.rd_wr_apart _ _ _ _ _ _ _ _ (by decide), World.rd_wr_apart _ _ _ _ _ _ _ _ (by decide)]
  have hD : u.rd .A F.VLV_DUTY.D ch = min 2000 (floorN d) := by
    rw [← hu, World.rd_wr_apart _ _ _ _ _ _ _ _ (by decide), World.rd_wr_same _ _ _ _ _ (by decide)]
    exact Nat.mod_eq_of_lt ((Nat.min_le_left _ _).trans_lt (by decide))
  have hlim : u.rd .A F.VLV_STATUS.DUTY_LIM ch = b2n ((r.dutyMax : Rat) ≤ d) := by
    rw [← hu, World.rd_wr_same _ _ _ _ _ (by decide)]
    exact b2n_mod_two _
  have hhw : u.rd .A F.VLV_STATUS.DUTY_HW ch = w.rd .A F.VLV_STATUS.DUTY_HW ch := by
    rw [← hu, World.rd_wr_apart _ _ _ _ _ _ _ _ (by decide), World.rd_wr_apart _ _ _ _ _ _ _ _ (by decide)]
  have heng : u.eng ch = w.eng ch := by rw [← hu, World.eng_wr, World.eng_wr]
  have ht : w.dutyShown ch r = if !u.flag .A F.VLV_STATUS.DUTY_HW ch && 1000 ≤ d then (u.wr .A F.VLV_STATUS.DUTY_HW ch 1).vlvEvent (tileOf ch) 3 ch 0
      else if u.flag .A F.VLV_STATUS.DUTY_HW ch && d ≤ 950 then u.wr .A F.VLV_STATUS.DUTY_HW ch 0 else u := by
    rw [World.dutyShown, hd, hu]
  have h01 := u.rd_bit .A F.VLV_STATUS.DUTY_HW ch rfl
  dsimp only
  rw [ht, hd]
  by_cases hset : (!u.flag .A F.VLV_STATUS.DUTY_HW ch && decide (1000 ≤ d)) = true
  · rw [if_pos hset]
    simp only [Bool.and_eq_true, decide_eq_true_eq] at hset
    obtain ⟨-, hge⟩ := hset
    simp (disch := decide) only [World.rd_vlvEvent, World.rd_wr_apart, World.rd_wr_same, World.eng_vlvEvent, World.eng_wr]
    refine ⟨heng, hcur, hD, hlim, fun _ => rfl, fun hle => ?_, fun _ hlt => absurd hge (not_le.mpr hlt)⟩
    exact absurd (hge.trans hle) (by norm_num)
  · rw [if_neg hset]
    simp only [Bool.and_eq_true, Bool.not_eq_true', decide_eq_true_eq, not_and] at hset
    by_cases hclr : (u.flag .A F.VLV_STATUS.DUTY_HW ch && decide (d ≤ 950)) = true
    · rw [if_pos hclr]
      simp only [Bool.and_eq_true, decide_eq_true_eq] at hclr
      obtain ⟨-, hle⟩ := hclr
      simp (disch := decide) only [World.rd_wr_apart, World.rd_wr_same, World.eng_wr]
      exact ⟨heng, hcur, hD, hlim, fun hge => absurd (hge.trans hle) (by norm_num), fun _ => rfl, fun hgt _ => absurd hle (not_le.mpr hgt)⟩
    · rw [if_neg hclr]
      simp only [Bool.and_eq_true, decide_eq_true_eq, not_and] at hclr
      refine ⟨heng, hcur, hD, hlim, fun hge => ?_, fun hle => ?_, fun _ _ => hhw⟩
      · by_contra hne
        exact hset ((World.flag_eq_false_iff rfl).mpr (h01.resolve_right hne)) hge
      · by_contra hne
        exact hclr (World.flag_eq_true_iff.mpr (h01.resolve_left hne)) hle

/-! The rail (R184). -/

/-- A channel on boost goes on from the feed. -/
def World.dropBoost (w : World) (c : Nat) : World := w.when (w.rd .A F.VLV_STATUS.SRC c = 2) fun w => w.wr .A F.VLV_STATUS.SRC c 1

theorem World.src_dropBoost (w : World) {l : List Nat} (hnd : l.Nodup) {ch : Nat} (hch : ch ∈ l) :
    (w.forAll l World.dropBoost).rd .A F.VLV_STATUS.SRC ch =
      if w.rd .A F.VLV_STATUS.SRC ch = 2 then 1 else w.rd .A F.VLV_STATUS.SRC ch := by
  have hown (u : World) (c : Nat) : (u.dropBoost c).rd .A F.VLV_STATUS.SRC c =
      if u.rd .A F.VLV_STATUS.SRC c = 2 then 1 else u.rd .A F.VLV_STATUS.SRC c := by
    rw [World.dropBoost, World.rd_when, World.rd_wr_same _ _ _ _ _ (by decide)]
    simp
  have hoth (u : World) (c j : Nat) (hj : j ≠ c) : (u.dropBoost c).rd .A F.VLV_STATUS.SRC j = u.rd .A F.VLV_STATUS.SRC j := by
    rw [World.dropBoost, World.rd_when, World.rd_wr_idx _ _ _ _ _ _ (by decide) (by decide) hj, ite_self]
  exact (World.forAll_at (f := World.dropBoost) (fun u c => u.rd .A F.VLV_STATUS.SRC c) id (fun x _ => if x = 2 then 1 else x)
    hown hoth (by rwa [List.map_id]) w).1 ch hch

/-! The Green ramp's end (R63, R216). -/

theorem World.rd_greenDetect (w : World) (ch : Nat) (h : Half) (f : Field) (i : Nat) : (w.greenDetect ch).rd h f i = w.rd h f i :=
  World.rd_updEng _ _ _ _ _ _

/-- The end of a Green ramp: with no level in force the channel is off and its detector armed. -/
theorem World.valveRampEnd_leaves {w : World} {ch : Nat} {r : Ramp} (hr : (w.eng ch).gramp = some r) (hat : r.start + r.dur ≤ w.now) :
    let t := w.valveRampEnd ch
    (t.eng ch).gramp = none ∧ ((w.eng ch).level = none → t.rd .A F.VLV_STATUS.SRC ch = 0 ∧ (t.eng ch).relOn = true) ∧
      ((w.eng ch).level ≠ none → World.RegsBut [] w t) := by
  obtain ⟨u, hu⟩ : ∃ u, w.updEng ch (fun e => { e with gramp := none }) = u := ⟨_, rfl⟩
  have hlevel : (u.eng ch).level = (w.eng ch).level := by rw [← hu, World.eng_updEng_same]
  have hnone : (u.eng ch).gramp = none := by rw [← hu, World.eng_updEng_same]
  have ht : w.valveRampEnd ch = if (u.eng ch).level.isSome then u else (u.turnOff ch (u.eng ch).greenToff).greenDetect ch := by
    unfold World.valveRampEnd
    rw [hr]
    dsimp only
    rw [if_neg (Nat.not_lt.mpr hat), hu]
  dsimp only
  rw [ht, hlevel]
  cases hl : (w.eng ch).level with
  | none =>
    obtain ⟨b, hb⟩ := u.eng_turnOff ch (u.eng ch).greenToff
    rw [if_neg (by simp), World.rd_greenDetect, World.rd_turnOff_src, World.greenDetect, World.eng_updEng_same, hb]
    exact ⟨hnone, fun _ => ⟨rfl, rfl⟩, fun hne => absurd rfl hne⟩
  | some l =>
    rw [if_pos (by simp)]
    refine ⟨hnone, nofun, fun _ => ?_⟩
    rw [← hu]
    exact (World.updEng_rest (q0 := [.vlv]) (by decide) (Rest.refl _ w)).regsBut (by decide)

end Sys2Proof.Machine
end

section
open Sys2Proof Sys2Proof.Machine

/-- Settles O29: the faults by one lemma for a channel and one for a list of channels; the rest by the unit each command changes. -/
theorem valveFaults : Obligations.valveFaults := by
  unfold Obligations.valveFaults
  refine ⟨?short, ?shortNot, ?open_, ?openNot, ?overtemp, ?cool, ?hsShort, ?hsNot, ?absent, ?absentNot, ?insert, ?ready, ?readyNot, ?probe,
    ?probeNot, ?coil, ?coilNot, ?duty, ?railLow, ?railBack, ?unlock, ?unlockNot, ?activate, ?activateNot, ?ramp, ?fanRamp⟩
  case short =>
    intro ch i s hi
    have hexec : exec (.vlvShort ch i) s = .next { s with w := (s.w.wr .A F.VLV_CUR.I ch (satTo 16 i)).vlvFault ch 1 } := by
      change execVlvShort ch i s = _
      rw [execVlvShort, lift, decide_eq_true hi, World.when_true]
    obtain ⟨hfault, hsrc, hrun, hcur⟩ := s.w.fault_with_current ch (satTo 16 i) (show 1 < 16 by decide) (by decide)
    exact .of_exec hexec ⟨hfault, hsrc, hrun, hcur.trans (Nat.mod_eq_of_lt (satTo_lt _ _)), exec_quiet hexec rfl⟩
  case shortNot =>
    intro ch i s hi
    exact .of_exec rfl (by simp [Nat.not_le.mpr hi])
  case open_ =>
    intro ch i s hsrc hi hcond
    have hexec : exec (.vlvOpenLoad ch i) s = .next { s with w := (s.w.wr .A F.VLV_CUR.I ch i).vlvFault ch 2 } := by
      change execVlvOpenLoad ch i s = _
      have hc : (decide (s.w.rd .A F.VLV_STATUS.SRC ch ≠ 0) && decide (i < 100) && (decide (10 * i < s.w.effTarget ch) ||
          decide ((s.w.eng ch).drive ≠ .current))) = true := by simp [hsrc, hi, hcond]
      rw [execVlvOpenLoad, lift, hc, World.when_true]
    obtain ⟨hfault, hoff, hrun, hcur⟩ := s.w.fault_with_current ch i (show 2 < 16 by decide) (by decide)
    exact .of_exec hexec ⟨hfault, hoff, hrun, hcur.trans (Nat.mod_eq_of_lt (by omega)), exec_quiet hexec rfl⟩
  case openNot =>
    intro ch i s hor
    refine .of_exec (t := s) ?_ rfl
    change execVlvOpenLoad ch i s = _
    rcases hor with h0 | hge
    · simp [execVlvOpenLoad, h0]
    · simp [execVlvOpenLoad, Nat.not_lt.mpr hge]
  case overtemp =>
    intro k temp s hge
    obtain ⟨u, hu⟩ : ∃ u, s.w.wrI .A F.VLV_TILE.HS_T k (clampI (-128) 127 temp) = u := ⟨_, rfl⟩
    have hexec : exec (.vlvOvertemp k temp) s = .next { s with w := (u.forAll (tileChans k) fun w c => w.vlvFault c 3).vlvEvent k 7 0xFF 3 } := by
      change execVlvOvertemp k temp s = _
      rw [execVlvOvertemp, lift, decide_eq_true hge, World.when_true, hu]
    obtain ⟨hin, hout⟩ := u.status_faults (tileChans_nodup k) (show 3 < 16 by decide) (by decide)
    refine .of_exec hexec ⟨fun ch hch => ?_, fun ch hch => ?_, exec_quiet hexec rfl⟩
    · obtain ⟨hfault, hsrc, hrun⟩ := World.status_iff (hin ch hch)
      simp (disch := decide) only [World.rd_vlvEvent]
      exact ⟨hfault, hsrc, hrun⟩
    · obtain ⟨hfault, -, -⟩ := World.status_iff ((World.status_vlvEvent _ k 7 0xFF 3 _).trans (hout ch hch))
      rw [hfault, ← hu, World.rd_wrI_apart _ _ _ _ _ _ _ _ (by decide)]
  case cool =>
    intro k temp s hlt
    have hexec : exec (.vlvOvertemp k temp) s = .next { s with w := s.w.wrI .A F.VLV_TILE.HS_T k (clampI (-128) 127 temp) } := by
      change execVlvOvertemp k temp s = _
      rw [execVlvOvertemp, lift, decide_eq_false (Int.not_le.mpr hlt), World.when_false]
    exact .of_exec hexec ⟨World.rd_wrI_same _ _ _ _ _ (by decide), s.w.regsBut_wr _ _ _ (by decide), World.wr_vlv _ _ _ _ _, exec_quiet hexec rfl⟩
  case hsShort =>
    intro bank i s hge
    have hexec : exec (.vlvHsShort bank i) s = .next { s with w := s.w.forAll (bankChans bank) fun w c => w.vlvFault c 6 } := by
      change execVlvHsShort bank i s = _
      rw [execVlvHsShort, lift, decide_eq_true hge, World.when_true]
    obtain ⟨hin, hout⟩ := s.w.status_faults (bankChans_nodup bank) (show 6 < 16 by decide) (by decide)
    refine .of_exec hexec ⟨fun ch hch => World.status_iff (hin ch hch), fun ch hch => ?_, exec_quiet hexec rfl⟩
    exact (World.status_iff (hout ch hch)).1
  case hsNot =>
    intro bank i s hi
    exact .of_exec rfl (by simp [Nat.not_le.mpr hi])
  case absent =>
    intro k s hpresent
    obtain ⟨u, hu⟩ : ∃ u, (((s.w.wr .A F.VLV_TILE.PRESENT k 0).wr .A F.VLV_TILE.BOOST_OK k 0).updTile k fun _ => {}).wr
      .A F.VLV_TILE.LOADING k 0 = u := ⟨_, rfl⟩
    obtain ⟨v, hv⟩ : ∃ v, (u.forAll (tileChans k) fun w c => w.vlvFault c 7).vlvEvent k 7 0xFF 7 = v := ⟨_, rfl⟩
    have hexec : exec (.tileAbsent k) s = .next { s with w := v.when (v.svc.tile = k + 1) fun w => w.svcState 4 0 } := by
      change execTileAbsent k s = _
      rw [execTileAbsent, lift, World.flag_eq_true_iff.mpr hpresent, World.when_true, ← hv, ← hu]
    have hrest : Rest [.evt, .reg 0xA4, .reg 0x100018] (v.when (v.svc.tile = k + 1) fun w => w.svcState 4 0) v :=
      Rest.when (Rest.refl _ v) fun _ e => World.svcState_rest (by decide) e
    have hrd (f : Field) (j : Nat) (hf : outside [0xA4, 0x100018] f = true) :
        (v.when (v.svc.tile = k + 1) fun w => w.svcState 4 0).rd .A f j = v.rd .A f j := hrest.rd_outside (by decide) hf .A j
    have hkeep (f : Field) (hf : outside [0x100018, F.VLV_STATUS.FAULT.reg] f = true)
        (he : (decide (f.reg < 2 ^ 25) && decide (f.reg ≠ 0x100018)) = true) : v.rd .A f k = u.rd .A f k := by
      rw [← hv, World.rd_vlvEvent _ _ _ _ _ _ _ _ he, World.rd_faults_other _ _ _ _ _ hf]
    obtain ⟨hin, -⟩ := u.status_faults (tileChans_nodup k) (show 7 < 16 by decide) (by decide)
    refine .of_exec hexec ⟨?_, ?_, ?_, fun ch hch => ?_, exec_quiet hexec rfl⟩
    · dsimp only
      rw [hrd _ _ (by decide), hkeep _ (by decide) (by decide), ← hu]
      simp (disch := decide) [World.rd_wr_apart, World.rd_wr_same]
    · dsimp only
      rw [hrd _ _ (by decide), hkeep _ (by decide) (by decide), ← hu, World.rd_wr_same _ _ _ _ _ (by decide)]
      rfl
    · dsimp only
      have htile : v.vlv.tile = u.vlv.tile := by rw [← hv, World.vlvEvent_vlv, World.tile_faults]
      rw [World.tileSt_congr (congrArg Valves.tile (hrest.vlv (by decide))), World.tileSt_congr htile, ← hu, World.tileSt_wr, World.tileSt_updTile]
    · obtain ⟨hfault, hsrc, -⟩ := World.status_iff ((World.status_vlvEvent _ k 7 0xFF 7 _).trans (hin ch hch))
      rw [hv] at hfault hsrc
      dsimp only
      rw [hrd _ _ (by decide), hrd _ _ (by decide)]
      exact ⟨hfault, hsrc⟩
  case absentNot =>
    intro k s h0
    exact .of_exec rfl (by simp [(World.flag_eq_false_iff rfl).mpr h0])
  case insert =>
    intro k s hk habsent ha hb
    have hexec : exec (.tileInsert k) s = .next { s with
        w := (s.w.wr .A F.VLV_TILE.PRESENT k 1).updTile k fun _ => { insertedAt := s.w.now } } := by
      change execTileInsert k s = _
      rw [execTileInsert, lift, (World.flag_eq_false_iff rfl).mpr habsent, decide_eq_true hk]
      rw [Bool.not_false, Bool.and_self, World.when_true, World.tileRetry_idle k ?_ ?_]
      · exact ha
      · exact hb
    refine .of_exec hexec ⟨?_, ?_, ?_, exec_quiet hexec rfl⟩
    · rw [World.rd_updTile, World.rd_wr_same _ _ _ _ _ (by decide)]
      rfl
    · rw [World.tileSt_updTile]
    · exact (World.updTile_rest (q0 := [.vlv, .reg F.VLV_TILE.PRESENT.reg]) (by decide) (Rest.wr _ _ _ _ (by decide) (Rest.refl _ _))).regsBut
        (by decide)
  case ready =>
    intro k rail serial cal s hk hpresent hready hrail hload
    obtain ⟨v, hv⟩ : ∃ v, s.tileCal k serial cal = v := ⟨_, rfl⟩
    have hown : v.own = s.own := by
      rw [← hv, State.tileCal]
      split <;> rfl
    have hexec : exec (.tileReady k rail serial cal) s = .next (v.onW (World.tileComes v.own k rail)) := by
      change execTileReady k rail serial cal s = _
      have hc : (decide (k < 6) && s.w.flag .A F.VLV_TILE.PRESENT k && !(s.w.tileSt k).ready && decide (4400 < rail) && s.tileLoaded k) = true := by
        simp [hk, World.flag_eq_true_iff.mpr hpresent, hready, hrail, hload]
      rw [execTileReady, hc, ← hv]
      rfl
    obtain ⟨hset, hboost, hrd⟩ := World.tileComes_leaves v.own v.w k rail
    exact .of_exec hexec ⟨hset, hboost, hrd, hown⟩
  case readyNot =>
    intro k rail serial cal s hle
    refine .of_exec (t := s) ?_ rfl
    change execTileReady k rail serial cal s = _
    rw [execTileReady, decide_eq_false (Nat.not_lt.mpr hle)]
    simp [State.when]
  case probe =>
    intro ch c s hen hpresent hrun hcmd hcur hfault hlevel hgramp ha hb
    obtain ⟨u, hu⟩ : ∃ u, s.w.updEng ch (fun e => { e with probed := true }) = u := ⟨_, rfl⟩
    have hexec : exec (.vlvProbe ch c) s = .next { s with w := if c then u else u.vlvFault ch 2 } := by
      change execVlvProbe ch c s = _
      rw [← hu]
      simp [execVlvProbe, World.flag_eq_true_iff.mpr hen, World.flag_eq_true_iff.mpr hpresent, (World.flag_eq_false_iff rfl).mpr hrun,
        (World.flag_eq_false_iff rfl).mpr hcmd, hcur, hfault, hlevel, hgramp, ha, hb]
    have hset : (u.eng ch).probed = true := by rw [← hu, World.eng_updEng_same]
    cases c with
    | true =>
      refine .of_exec hexec ⟨?_, hset, exec_quiet hexec rfl⟩
      simp only [if_true]
      rw [← hu, World.rd_updEng, hfault]
    | false =>
      refine .of_exec hexec ⟨(u.rd_vlvFault ch (show 2 < 16 by decide) (by decide)).1, ?_, exec_quiet hexec rfl⟩
      simp only [Bool.false_eq_true, if_false]
      rw [World.probed_vlvFault, hset]
  case probeNot =>
    intro ch c s hor
    refine .of_exec (t := s) ?_ rfl
    change execVlvProbe ch c s = _
    rcases hor with h0 | h1
    · simp [execVlvProbe, (World.flag_eq_false_iff rfl).mpr h0]
    · simp [execVlvProbe, World.flag_eq_true_iff.mpr h1]
  case coil =>
    intro ch v i s r hrec hrun hhold hat hi hr
    obtain ⟨res, hres⟩ : ∃ res : Rat, ((10000 * v : Nat) : Rat) / (i : Rat) = res := ⟨_, rfl⟩
    obtain ⟨temp, htemp⟩ : ∃ temp : Rat, 20 + (res / r.coilR - 1) / (393 / 100000) = temp := ⟨_, rfl⟩
    obtain ⟨k, hk⟩ : ∃ k, r.band ((s.w.eng ch).est.getD r.bandInit) temp = k := ⟨_, rfl⟩
    have hexec : exec (.coilEstimate ch v i) s = .next { s with
        w := (((s.w.wr .A F.VLV_COIL.RES ch (satTo 16 (roundN res))).wrI .A F.VLV_COIL.TEMP ch (clampI (-128) 127 (roundR temp))).updEng ch
          fun e => { e with est := some k, pend := some k }).wr .A F.VLV_STATUS.BAND_PEND ch k } := by
      change execCoilEstimate ch v i s = _
      unfold execCoilEstimate lift
      dsimp only
      rw [hrec]
      dsimp only
      rw [if_neg, hres, htemp, ← hk]
      · rfl
      · rw [World.flag_eq_true_iff.mpr hrun, hhold, show 20 * ms = 20000000 from rfl, decide_eq_true hat, decide_eq_false hi.ne',
          decide_eq_false hr]
        decide
    rw [hres, htemp, hk]
    refine .of_exec hexec ⟨?_, ?_, ?_, ?_, ?_, exec_quiet hexec rfl⟩
    · simp (disch := decide) only [World.rd_wr_apart, World.rd_updEng, World.rd_wrI_apart, World.rd_wr_same]
      exact Nat.mod_eq_of_lt (satTo_lt _ _)
    · rw [World.eng_wr, World.eng_updEng_same]
    · rw [World.eng_wr, World.eng_updEng_same]
    · rw [World.eng_wr, World.eng_updEng_same, World.rd_wr_same _ _ _ _ _ (by decide)]
      rfl
    · simp (disch := decide) only [World.rd_wr_apart, World.rd_updEng, World.rd_wrI_apart]
  case coilNot =>
    intro ch v i s hhold
    refine .of_exec (t := s) ?_ rfl
    change execCoilEstimate ch v i s = _
    unfold execCoilEstimate lift
    dsimp only
    split
    · rfl
    · rw [if_pos (by rw [hhold]; simp)]
  case duty =>
    intro ch i s r hrec
    obtain ⟨u, hu⟩ : ∃ u, (s.w.wr .A F.VLV_CUR.I ch (satTo 16 i)).updEng ch (fun e => e.dutyCounted r i s.w.now) = u := ⟨_, rfl⟩
    have hexec : exec (.dutyEvaluation ch i) s = .next { s with w := u.dutyShown ch r } := by
      change execDutyEvaluation ch i s = _
      unfold execDutyEvaluation lift
      dsimp only
      rw [hrec, ← hu]
      rfl
    have hcur : u.rd .A F.VLV_CUR.I ch = satTo 16 i := by
      rw [← hu, World.rd_updEng, World.rd_wr_same _ _ _ _ _ (by decide)]
      exact Nat.mod_eq_of_lt (satTo_lt _ _)
    have hhw : u.rd .A F.VLV_STATUS.DUTY_HW ch = s.w.rd .A F.VLV_STATUS.DUTY_HW ch := by
      rw [← hu, World.rd_updEng, World.rd_wr_apart _ _ _ _ _ _ _ _ (by decide)]
    have hengu : u.eng ch = (s.w.eng ch).dutyCounted r i s.w.now := by rw [← hu, World.eng_updEng_same, World.eng_wr]
    obtain ⟨heng, hI, hD, hlim, hset, hclr, hkeep⟩ := u.dutyShown_leaves ch r
    refine .of_exec hexec ?_
    dsimp only
    rw [heng]
    refine ⟨hI.trans hcur, hD, hlim, hset, hclr, fun h1 h2 => (hkeep h1 h2).trans hhw, fun hle => ?_, fun hlt => ?_, exec_quiet hexec rfl⟩
    · rw [hengu, Eng.dutyCounted, if_pos hle]
      exact ⟨rfl, rfl⟩
    · rw [hengu, Eng.dutyCounted, if_neg (Nat.not_le.mpr hlt)]
  case railLow =>
    intro k v s hv hok
    obtain ⟨u, hu⟩ : ∃ u, s.w.wr .A F.VLV_TILE.RAIL k (satTo 16 v) = u := ⟨_, rfl⟩
    have hokU : u.flag .A F.VLV_TILE.BOOST_OK k = true := by
      rw [World.flag_eq_true_iff, ← hu, World.rd_wr_apart _ _ _ _ _ _ _ _ (by decide), hok]
    have hexec : exec (.boostRailLow k v) s = .next { s with
        w := ((u.forAll (tileChans k) World.dropBoost).wr .A F.VLV_TILE.BOOST_OK k 0).vlvEvent k 4 0xFF 0 } := by
      change execBoostRailLow k v s = _
      rw [execBoostRailLow, lift, hu]
      dsimp only
      rw [decide_eq_true hv, hokU, Bool.true_or, Bool.and_self, World.when_true]
      rfl
    have hrail : u.rd .A F.VLV_TILE.RAIL k = v := by
      have hsat : satTo 16 v = v := Nat.min_eq_left (by omega)
      rw [← hu, World.rd_wr_same _ _ _ _ _ (by decide), hsat]
      exact Nat.mod_eq_of_lt (show v < 65536 by omega)
    have hkeep : (u.forAll (tileChans k) World.dropBoost).rd .A F.VLV_TILE.RAIL k = u.rd .A F.VLV_TILE.RAIL k :=
      World.forAll_keeps (fun w => w.rd .A F.VLV_TILE.RAIL k)
        (fun w c => by rw [World.dropBoost, World.rd_when, World.rd_wr_apart _ _ _ _ _ _ _ _ (by decide), ite_self]) _ u
    refine .of_exec hexec ⟨?_, ?_, exec_quiet hexec rfl, fun ch hch => ?_⟩
    · rw [World.rd_vlvEvent _ _ _ _ _ _ _ _ (by decide), World.rd_wr_same _ _ _ _ _ (by decide)]
      rfl
    · rw [World.rd_vlvEvent _ _ _ _ _ _ _ _ (by decide), World.rd_wr_apart _ _ _ _ _ _ _ _ (by decide), hkeep, hrail]
    · rw [World.rd_vlvEvent _ _ _ _ _ _ _ _ (by decide), World.rd_wr_apart _ _ _ _ _ _ _ _ (by decide), World.src_dropBoost _ (tileChans_nodup k) hch,
        ← hu, World.rd_wr_apart _ _ _ _ _ _ _ _ (by decide)]
  case railBack =>
    intro k v s
    have hexec : exec (.boostRailRecover k v) s = _ := rfl
    refine .of_exec hexec ⟨?_, ?_, exec_regsBut hexec rfl, exec_quiet hexec rfl⟩
    · dsimp only
      rw [World.rd_when, World.rd_wr_same _ _ _ _ _ (by decide), World.rd_wr_apart _ _ _ _ _ _ _ _ (by decide)]
      by_cases hv : 4400 < v <;> simp [hv]
    · dsimp only
      rw [World.rd_when, World.rd_wr_apart _ _ _ _ _ _ _ _ (by decide), ite_self, World.rd_wr_same _ _ _ _ _ (by decide)]
      exact Nat.mod_eq_of_lt (satTo_lt _ _)
  case unlock =>
    intro k g s hlock hsame
    obtain ⟨hnone, hloading, htag, hrecs, hroast⟩ := World.unlockTile_leaves hlock
    have hprefix (h : Half) : (s.w.unlockTile k).roastPrefix h = s.w.roastPrefix g := by
      rw [World.roastPrefix, hroast, ← World.roastPrefix]
      cases h <;> cases g
      exacts [rfl, hsame, hsame.symm, rfl]
    have hretry : (s.w.unlockTile k).tileRetry k = s.w.unlockTile k := by
      unfold World.tileRetry
      refine World.forAll_of_fixed ?_
      intro h _
      rw [World.when, World.tileLoad_tagged (htag.trans (hprefix h).symm), ite_self]
    have hexec : exec (.recipeLockRelease k) s = .next { s with w := s.w.unlockTile k } := by
      change execRecipeLockRelease k s = _
      rw [execRecipeLockRelease, lift, hlock, Option.isSome_some, World.when_true, hretry]
    exact .of_exec hexec ⟨hnone, hloading, htag, hrecs, exec_quiet hexec rfl⟩
  case unlockNot =>
    intro k s hnone
    exact .of_exec rfl (by simp [hnone])
  case activate =>
    intro k s hmay
    obtain ⟨u, hu⟩ : ∃ u, s.w.wr .A F.VLV_TILE.ACT_BANK k (s.w.idleBank k) = u := ⟨_, rfl⟩
    have hexec : exec (.recipeBankActivate k) s = .next { s with w := u.showRefs k } := by
      change execRecipeBankActivate k s = _
      rw [execRecipeBankActivate, lift, hmay, World.when_true, hu]
    have hrest : Rest [.reg 0x500048] (u.showRefs k) u := World.showRefs_rest (by decide) (Rest.refl _ u)
    refine .of_exec hexec ⟨?_, ?_, exec_quiet hexec rfl⟩
    · dsimp only
      rw [hrest.rd_outside (ks := [0x500048]) (by decide) (by decide), ← hu, World.rd_wr_same _ _ _ _ _ (by decide)]
      exact Nat.mod_eq_of_lt (show 1 - _ < 2 by omega)
    · exact (hrest.vlv (by decide)).trans (by rw [← hu, World.wr_vlv])
  case activateNot =>
    intro k s hnot
    exact .of_exec rfl (by simp [hnot])
  case ramp =>
    intro ch r s h96 hr hat
    have hexec : exec (.greenRampEnd ch) s = .next { s with w := s.w.valveRampEnd ch } := by
      change execGreenRampEnd ch s = _
      rw [execGreenRampEnd, lift, if_pos h96]
    obtain ⟨hnone, hoff, hon⟩ := World.valveRampEnd_leaves hr hat
    exact .of_exec hexec ⟨hnone, hoff, hon, exec_quiet hexec rfl⟩
  case fanRamp =>
    intro n r s hn hr hat
    have hexec : exec (.greenRampEnd (354 + n)) s = .next { s with w := (s.w.updFan n fun f => { f with gramp := none }).fanDuties } := by
      change execGreenRampEnd (354 + n) s = _
      rw [execGreenRampEnd, lift, if_neg (by omega), if_pos (by simp; omega), Nat.add_sub_cancel_left, hr]
      dsimp only
      rw [decide_eq_true hat, World.when_true]
    refine .of_exec hexec ⟨?_, exec_quiet hexec rfl⟩
    have hpwr := (World.fanDuties_rest (q0 := [.reg 0x1000044]) (w := s.w.updFan n fun f => { f with gramp := none }) (by decide)
      (Rest.refl _ _)).pwr (by decide)
    dsimp only
    rw [World.fan, hpwr, World.updFan, World.updPwr]
    simp [NMap.upd]
end

section
/-!
SUPPORT. R223–R240: the load switches, one lemma for each change of state.
-/
namespace Sys2Proof.Machine

theorem World.swSt_congr {w v : World} (hv : w.lsw = v.lsw) (n : Nat) : w.swSt n = v.swSt n := by rw [World.swSt, World.swSt, hv]

@[simp] theorem World.swSt_wr (w : World) (h : Half) (f : Field) (i v n : Nat) : (w.wr h f i v).swSt n = w.swSt n := World.swSt_congr (by simp) n
@[simp] theorem World.swSt_wrI (w : World) (h : Half) (f : Field) (i : Nat) (v : Int) (n : Nat) : (w.wrI h f i v).swSt n = w.swSt n :=
  World.swSt_congr (by simp) n
@[simp] theorem World.swSt_bump (w : World) (h : Half) (f : Field) (i n : Nat) : (w.bump h f i).swSt n = w.swSt n := World.swSt_congr (by simp) n
@[simp] theorem World.swEvent_lsw (w : World) (num k cause : Nat) : (w.swEvent num k cause).lsw = w.lsw := by simp [World.swEvent]
@[simp] theorem World.swSt_swEvent (w : World) (num k cause n : Nat) : (w.swEvent num k cause).swSt n = w.swSt n := World.swSt_congr (by simp) n
@[simp] theorem World.swSt_updSw_same (w : World) (n : Nat) (u : Sw → Sw) : (w.updSw n u).swSt n = u (w.swSt n) := by
  simp [World.swSt, World.updSw, NMap.upd]

theorem World.swSt_updSw_ne (w : World) {m n : Nat} (u : Sw → Sw) (hm : m ≠ n) : (w.updSw n u).swSt m = w.swSt m := by
  simp [World.swSt, World.updSw, NMap.upd, NMap.get_set_ne _ _ _ hm]

@[simp] theorem World.rd_updSw (w : World) (n : Nat) (u : Sw → Sw) (h : Half) (f : Field) (i : Nat) : (w.updSw n u).rd h f i = w.rd h f i := (rfl)
@[simp] theorem World.now_updSw (w : World) (n : Nat) (u : Sw → Sw) : (w.updSw n u).now = w.now := (rfl)

theorem World.rd_swEvent (w : World) (num k cause : Nat) (h : Half) (f : Field) (i : Nat)
    (hf : (decide (f.reg < 2 ^ 25) && decide (f.reg ≠ 0x100018)) = true) : (w.swEvent num k cause).rd h f i = w.rd h f i :=
  World.rd_raiseBoth _ _ _ _ _ _ hf

/-! The state of a switch (R223). -/

/-- A switch put into a state. -/
theorem World.rd_swGo_state (w : World) (n : Nat) {st : Nat} (h8 : st < 8) : (w.swGo n st).rd .A F.LSW_STATUS.STATE n = st := by
  rw [World.swGo, World.rd_wr_same _ _ _ _ _ (by decide)]
  exact Nat.mod_eq_of_lt h8

theorem World.rd_swGo (w : World) (n st : Nat) (h : Half) (f : Field) (i : Nat) (hf : fieldsApart F.LSW_STATUS.STATE f = true) :
    (w.swGo n st).rd h f i = w.rd h f i := by
  rw [World.swGo, World.rd_wr_apart _ _ _ _ _ _ _ _ hf, World.rd_updSw]

theorem World.rd_swGo_idx (w : World) {n j : Nat} (st : Nat) (f : Field) (hf : f.reg < 2 ^ 25) (hj : j ≠ n) :
    (w.swGo n st).rd .A f j = w.rd .A f j := by
  rw [World.swGo, World.rd_wr_idx _ _ _ _ _ _ (by decide) hf hj, World.rd_updSw]

@[simp] theorem World.swSt_swGo (w : World) (n st : Nat) : (w.swGo n st).swSt n =
    { w.swSt n with since := w.now, claim := if st = 2 then (w.swSt n).claim else 0 } := by
  rw [World.swGo, World.swSt_wr, World.swSt_updSw_same]

@[simp] theorem World.now_swGo (w : World) (n st : Nat) : (w.swGo n st).now = w.now := by simp [World.swGo]

/-- A switch that waits for its claim (R230). -/
theorem World.swWait_leaves (w : World) (n : Nat) {prof : Nat} (h8 : prof < 8) : (w.swWait n prof).rd .A F.LSW_STATUS.STATE n = 1 ∧
    (w.swWait n prof).rd .A F.LSW_STATUS.PROF n = prof ∧
    ∀ f, fieldsApart F.LSW_STATUS.STATE f = true → fieldsApart F.LSW_STATUS.PROF f = true → fieldsApart F.LSW_STATUS.WAIT_LONG f = true →
      ∀ i, (w.swWait n prof).rd .A f i = w.rd .A f i := by
  refine ⟨?_, ?_, fun f hs hp hl i => ?_⟩
  · rw [World.swWait, World.rd_wr_apart _ _ _ _ _ _ _ _ (by decide), World.rd_wr_apart _ _ _ _ _ _ _ _ (by decide),
      World.rd_swGo_state _ _ (by decide)]
  · rw [World.swWait, World.rd_wr_apart _ _ _ _ _ _ _ _ (by decide), World.rd_wr_same _ _ _ _ _ (by decide)]
    exact Nat.mod_eq_of_lt h8
  · rw [World.swWait, World.rd_wr_apart _ _ _ _ _ _ _ _ hl, World.rd_wr_apart _ _ _ _ _ _ _ _ hp, World.rd_swGo _ _ _ _ _ _ hs]

/-- A switch turned off: a latch runs its course, a lockout stays (R229, R232). -/
theorem World.swOff_leaves (w : World) (n : Nat) :
    (w.swOff n).rd .A F.LSW_STATUS.STATE n =
      (if w.rd .A F.LSW_STATUS.STATE n = 4 ∨ w.rd .A F.LSW_STATUS.STATE n = 6 then w.rd .A F.LSW_STATUS.STATE n else 0) ∧
    (w.rd .A F.LSW_STATUS.STATE n = 4 → ((w.swOff n).swSt n).cancel = true) ∧
    ∀ f, fieldsApart F.LSW_STATUS.STATE f = true → fieldsApart F.LSW_STATUS.WAIT_LONG f = true → ∀ i, (w.swOff n).rd .A f i = w.rd .A f i := by
  unfold World.swOff World.swState
  dsimp only
  by_cases h4 : w.rd .A F.LSW_STATUS.STATE n = 4
  · rw [if_pos h4, if_pos (.inl h4)]
    refine ⟨World.rd_updSw _ _ _ _ _ _, fun _ => ?_, fun f _ _ i => World.rd_updSw _ _ _ _ _ _⟩
    rw [World.swSt_updSw_same]
  · rw [if_neg h4]
    by_cases h6 : w.rd .A F.LSW_STATUS.STATE n = 6
    · rw [if_pos h6, if_pos (.inr h6)]
      exact ⟨rfl, fun h => absurd h h4, fun _ _ _ _ => rfl⟩
    · rw [if_neg h6, if_neg (not_or.mpr ⟨h4, h6⟩)]
      refine ⟨?_, fun h => absurd h h4, fun f hs hl i => ?_⟩
      · rw [World.rd_wr_apart _ _ _ _ _ _ _ _ (by decide), World.rd_swGo_state _ _ (by decide)]
      · rw [World.rd_wr_apart _ _ _ _ _ _ _ _ hl, World.rd_swGo _ _ _ _ _ _ hs]

/-- After a trip: RETRY_WAIT while the counter lasts, else LOCKOUT (R227, R228). -/
theorem World.swRetry_leaves (w : World) (n : Nat) :
    (w.swRetry n).rd .A F.LSW_STATUS.STATE n = (if w.rd .A F.LSW_STATUS.RETRIES n = 0 then 6 else 5) ∧ ((w.swRetry n).swSt n).claim = 0 ∧
    ∀ f, fieldsApart F.LSW_STATUS.STATE f = true → (decide (f.reg < 2 ^ 25) && decide (f.reg ≠ 0x100018)) = true →
      ∀ i, (w.swRetry n).rd .A f i = w.rd .A f i := by
  unfold World.swRetry World.swLockout
  split
  · refine ⟨?_, ?_, fun f hs he i => ?_⟩
    · rw [World.rd_swEvent _ _ _ _ _ _ _ (by decide), World.rd_swGo_state _ _ (by decide)]
    · rw [World.swSt_swEvent, World.swSt_swGo]
      rfl
    · rw [World.rd_swEvent _ _ _ _ _ _ _ he, World.rd_swGo _ _ _ _ _ _ hs]
  · refine ⟨World.rd_swGo_state _ _ (by decide), ?_, fun f hs _ i => World.rd_swGo _ _ _ _ _ _ hs⟩
    rw [World.swSt_swGo]
    rfl

/-- A SHORT or OVERLOAD trip (R226, R227). -/
theorem World.swTrip_leaves (w : World) (n i : Nat) {code : Nat} (h8 : code < 16) :
    (w.swTrip n code i).rd .A F.LSW_STATUS.FAULT n = code ∧
    (w.swTrip n code i).rd .A F.LSW_STATUS.STATE n = (if w.rd .A F.LSW_STATUS.RETRIES n = 0 then 6 else 5) ∧
    (w.swTrip n code i).rd .A F.LSW_CNT.TRIPS n = satInc F.LSW_CNT.TRIPS.w (w.rd .A F.LSW_CNT.TRIPS n) ∧
    (w.swTrip n code i).rd .A F.LSW_MEAS.I n = satTo 16 i ∧ ((w.swTrip n code i).swSt n).claim = 0 := by
  obtain ⟨u, hu⟩ : ∃ u, ((w.wr .A F.LSW_STATUS.FAULT n code).bump .A F.LSW_CNT.TRIPS n).wr .A F.LSW_MEAS.I n (satTo 16 i) = u := ⟨_, rfl⟩
  have ht : w.swTrip n code i = (u.swRetry n).swEvent 112 n code := by rw [World.swTrip, hu]
  obtain ⟨hstate, hclaim, hkeep⟩ := u.swRetry_leaves n
  rw [ht, World.swSt_swEvent]
  refine ⟨?_, ?_, ?_, ?_, hclaim⟩
  · rw [World.rd_swEvent _ _ _ _ _ _ _ (by decide), hkeep _ (by decide) (by decide), ← hu]
    simp (disch := decide) only [World.rd_wr_apart, World.rd_bump_apart, World.rd_wr_same]
    exact Nat.mod_eq_of_lt h8
  · rw [World.rd_swEvent _ _ _ _ _ _ _ (by decide), hstate, ← hu]
    simp (disch := decide) only [World.rd_wr_apart, World.rd_bump_apart]
  · rw [World.rd_swEvent _ _ _ _ _ _ _ (by decide), hkeep _ (by decide) (by decide), ← hu]
    simp (disch := decide) only [World.rd_wr_apart, World.rd_bump_same]
  · rw [World.rd_swEvent _ _ _ _ _ _ _ (by decide), hkeep _ (by decide) (by decide), ← hu, World.rd_wr_same _ _ _ _ _ (by decide)]
    exact Nat.mod_eq_of_lt (satTo_lt _ _)

/-- INRUSH and ON drive the output. -/
theorem World.swOn_of {w : World} {n : Nat} (hon : w.rd .A F.LSW_STATUS.STATE n = 2 ∨ w.rd .A F.LSW_STATUS.STATE n = 3) : w.swOn n = true := by
  rw [World.swOn, World.swState]
  rcases hon with h | h
  · rw [decide_eq_true h, Bool.true_or]
  · rw [decide_eq_true h, Bool.or_true]

/-! Readings. -/

/-- A junction reading changes the temperatures alone. -/
theorem World.rd_swTemp (w : World) (n : Nat) (tj : Int) (h : Half) (f : Field) (i : Nat) (ht : fieldsApart F.LSW_TEMP.TJ f = true)
    (hp : fieldsApart F.LSW_TEMP.TJ_PEAK f = true) : (w.swTemp n tj).rd h f i = w.rd h f i := by
  rw [World.swTemp]
  rw [World.rd_when, World.rd_wrI_apart _ _ _ _ _ _ _ _ hp, ite_self, World.rd_wrI_apart _ _ _ _ _ _ _ _ ht]

@[simp] theorem World.swTemp_lsw (w : World) (n : Nat) (tj : Int) : (w.swTemp n tj).lsw = w.lsw := by
  rw [World.swTemp]
  rw [World.apply_when World.lsw, World.wrI_lsw, ite_self, World.wrI_lsw]

theorem World.swLive_congr {w v : World} (n : Nat) (hlsw : w.lsw = v.lsw) (hbp : w.bp = v.bp)
    (hp : w.rd .A F.LSW_BANK.PRESENT (n / 16) = v.rd .A F.LSW_BANK.PRESENT (n / 16))
    (hk : w.rd .A F.LSW_STATUS.KNOCKED n = v.rd .A F.LSW_STATUS.KNOCKED n) (hs : w.rd .A F.PWR_SAFE.ASSERTED = v.rd .A F.PWR_SAFE.ASSERTED) :
    w.swLive n = v.swLive n := by
  rw [World.swLive, World.swLive, World.flag, World.flag, World.flag, World.flag, hp, hk, hlsw, World.swSt_congr hlsw, World.safeOn, World.safeOn,
    World.safeOff, World.safeOff, World.flag, World.flag, hs, World.gren, World.gren, hbp]

theorem World.swTemp_keeps (w : World) (n : Nat) (tj : Int) : (w.swTemp n tj).swLive n = w.swLive n ∧
    (w.swTemp n tj).rd .A F.LSW_STATUS.CMD n = w.rd .A F.LSW_STATUS.CMD n ∧
    (w.swTemp n tj).rd .A F.LSW_STATUS.RETRIES n = w.rd .A F.LSW_STATUS.RETRIES n := by
  have hbp : (w.swTemp n tj).bp = w.bp := by
    rw [World.swTemp, World.apply_when World.bp, World.wrI_bp, ite_self, World.wrI_bp]
  refine ⟨World.swLive_congr n (World.swTemp_lsw _ _ _) hbp ?_ ?_ ?_, ?_, ?_⟩ <;> exact World.rd_swTemp _ _ _ _ _ _ (by decide) (by decide)

/-- A thermal latch that clears (R228, R229). -/
def World.latchClears (w : World) (n : Nat) : World :=
  if (w.swSt n).heldOn && w.swLive n then
    w.swWait n (if w.flag .A F.LSW_STATUS.GREEN n then (w.swCfg n).profDef else w.rd .A F.LSW_CMD.PROF n)
  else if (w.swSt n).cancel || !w.flag .A F.LSW_STATUS.CMD n || !w.swLive n then w.swGo n 0
  else w.swRetry n

theorem exec_thermalLatchClear {s : State} {n : Nat} {tj : Int} (hstate : s.w.rd .A F.LSW_STATUS.STATE n = 4) (htj : tj < s.w.tRel n) :
    exec (.thermalLatchClear n tj) s = .next { s with w := (s.w.swTemp n tj).latchClears n } := by
  change execThermalLatchClear n tj s = _
  rw [execThermalLatchClear, lift, World.swState, decide_eq_true hstate, decide_eq_true htj]
  rfl

/-! Open load (R236, R237). -/

/-- A reading of a switch in ON against its open-load threshold. -/
def World.openOn (w : World) (n i : Nat) : World :=
  let w := w.wr .A F.LSW_MEAS.I n (satTo 16 i)
  if i < w.olOn n then
    if w.flag .A F.LSW_STATUS.OPEN_ON n then w else (w.wr .A F.LSW_STATUS.OPEN_ON n 1).swEvent 115 n 1
  else w.wr .A F.LSW_STATUS.OPEN_ON n 0

theorem World.openOn_leaves (w : World) (n i : Nat) : (w.openOn n i).rd .A F.LSW_STATUS.OPEN_ON n = b2n (i < w.olOn n) ∧
    (w.openOn n i).rd .A F.LSW_MEAS.I n = satTo 16 i ∧ (w.openOn n i).lsw = w.lsw := by
  obtain ⟨u, hu⟩ : ∃ u, w.wr .A F.LSW_MEAS.I n (satTo 16 i) = u := ⟨_, rfl⟩
  have hcur : u.rd .A F.LSW_MEAS.I n = satTo 16 i := by
    rw [← hu, World.rd_wr_same _ _ _ _ _ (by decide)]
    exact Nat.mod_eq_of_lt (satTo_lt _ _)
  have hlsw : u.lsw = w.lsw := by rw [← hu, World.wr_lsw]
  have hol : u.olOn n = w.olOn n := by rw [World.olOn, World.olOn, World.swCfg, World.swCfg, hlsw]
  unfold World.openOn
  rw [hu]
  dsimp only
  rw [hol]
  by_cases hi : i < w.olOn n
  · rw [if_pos hi, decide_eq_true hi]
    by_cases hset : u.flag .A F.LSW_STATUS.OPEN_ON n = true
    · rw [if_pos hset]
      exact ⟨World.flag_eq_true_iff.mp hset, hcur, hlsw⟩
    · rw [if_neg hset, World.swEvent_lsw, World.wr_lsw, World.rd_swEvent _ _ _ _ _ _ _ (by decide), World.rd_swEvent _ _ _ _ _ _ _ (by decide),
        World.rd_wr_same _ _ _ _ _ (by decide), World.rd_wr_apart _ _ _ _ _ _ _ _ (by decide)]
      exact ⟨rfl, hcur, hlsw⟩
  · rw [if_neg hi, decide_eq_false hi, World.wr_lsw, World.rd_wr_same _ _ _ _ _ (by decide), World.rd_wr_apart _ _ _ _ _ _ _ _ (by decide)]
    exact ⟨rfl, hcur, hlsw⟩

/-! Commands of the owner. -/

theorem switchWrite_owned {s : State} {h : Half} {init n : Nat} (f : Nat → World → World) (halive : s.own.alive h = true)
    (hn : s.w.rd h F.LSW_SEL.CH init = n) (h48 : n < 48) (howns : s.own.owns h (96 + n) = true) (hsafe : s.w.safeOn (96 + n) = false) :
    switchWrite s h init f = .next { s with w := f n s.w } := by
  rw [switchWrite, World.sel, hn]
  rw [if_neg (by omega), objL, gateObj_owned _ _ _ _ _ halive howns, putW, hsafe]
  rfl

theorem switchWrite_refused {s : State} {h : Half} {init n : Nat} (f : Nat → World → World) (halive : s.own.alive h = true)
    (hn : s.w.rd h F.LSW_SEL.CH init = n) (h48 : n < 48) (howns : s.own.owns h (96 + n) = false) :
    switchWrite s h init f = .next { s with w := s.w.violation h init (96 + n) } := by
  rw [switchWrite, World.sel, hn]
  rw [if_neg (by omega), objL, gateObj_refused _ _ _ _ _ halive howns, putW]

theorem switchWrite_ignored {s : State} {h : Half} {init : Nat} (f : Nat → World → World)
    (hor : s.own.alive h = false ∨ 48 ≤ s.w.rd h F.LSW_SEL.CH init) : switchWrite s h init f = .next s := by
  rw [switchWrite, World.sel]
  split
  · rfl
  · next hlt =>
    rw [putW, gateObj_low _ _ _ _ _ (hor.resolve_right hlt)]

/-- The level ON taken from OFF, with a profile that is there (R227, R229, R238). -/
def World.swSwitchOn (w : World) (n : Nat) : World :=
  ((((w.wr .A F.LSW_CMD.ON n 1).wr .A F.LSW_STATUS.GREEN n 0).wr .A F.LSW_STATUS.CMD n 1).wr .A F.LSW_STATUS.RETRIES n (w.swCfg n).retryN).updSw n
    fun x => { x with blocked := false }

theorem World.swCmd_on {w : World} {n : Nat} (hcmd : w.rd .A F.LSW_STATUS.CMD n = 0)
    (hp : (w.profile (w.rd .A F.LSW_CMD.PROF n)).isSome = true) :
    w.swCmd n true = if w.rd .A F.LSW_STATUS.STATE n = 4 then (w.swSwitchOn n).updSw n fun x => { x with heldOn := true, cancel := false }
      else if w.rd .A F.LSW_STATUS.STATE n = 0 && (w.swSwitchOn n).swLive n then (w.swSwitchOn n).swWait n (w.rd .A F.LSW_CMD.PROF n)
      else w.swSwitchOn n := by
  have hprof : ((w.wr .A F.LSW_CMD.ON n 1).wr .A F.LSW_STATUS.GREEN n 0).rd .A F.LSW_CMD.PROF n = w.rd .A F.LSW_CMD.PROF n := by
    rw [World.rd_wr_apart _ _ _ _ _ _ _ _ (by decide), World.rd_wr_apart _ _ _ _ _ _ _ _ (by decide)]
  have hcfg : ((w.wr .A F.LSW_CMD.ON n 1).wr .A F.LSW_STATUS.GREEN n 0).swCfg n = w.swCfg n := by
    rw [World.swCfg, World.wr_lsw, World.wr_lsw, ← World.swCfg]
  have hhas : (((w.wr .A F.LSW_CMD.ON n 1).wr .A F.LSW_STATUS.GREEN n 0).profile (w.rd .A F.LSW_CMD.PROF n)).isNone = false := by
    rw [World.profile, World.wr_lsw, World.wr_lsw, ← World.profile]
    simpa using hp
  have hstate : (w.swSwitchOn n).swState n = w.rd .A F.LSW_STATUS.STATE n := by
    rw [World.swState, World.swSwitchOn, World.rd_updSw]
    simp (disch := decide) only [World.rd_wr_apart]
  unfold World.swCmd
  dsimp only
  rw [(World.flag_eq_false_iff rfl).mpr hcmd, if_pos rfl, if_neg Bool.false_ne_true, show b2n true = 1 from rfl, hprof, hhas,
    if_neg Bool.false_ne_true, hcfg, ← World.swSwitchOn, hstate]

/-- What the level ON leaves beside the state (R227, R238). -/
theorem World.rd_swSwitchOn (w : World) (n : Nat) : (w.swSwitchOn n).rd .A F.LSW_STATUS.CMD n = 1 ∧ (w.swSwitchOn n).rd .A F.LSW_CMD.ON n = 1 ∧
    (w.swSwitchOn n).rd .A F.LSW_STATUS.GREEN n = 0 ∧
    (w.swSwitchOn n).rd .A F.LSW_STATUS.RETRIES n = (w.swCfg n).retryN % 2 ^ F.LSW_STATUS.RETRIES.w ∧
    (w.swSwitchOn n).rd .A F.LSW_STATUS.STATE n = w.rd .A F.LSW_STATUS.STATE n := by
  refine ⟨?_, ?_, ?_, ?_, ?_⟩ <;>
    simp (disch := decide) only [World.swSwitchOn, World.rd_updSw, World.rd_wr_apart, World.rd_wr_same] <;> rfl

/-- A switch with nothing against it can be driven once its level is ON. -/
theorem World.swLive_switchOn {w : World} {n : Nat} (hpresent : w.rd .A F.LSW_BANK.PRESENT (n / 16) = 1) (hlost : w.lsw.lost = [])
    (hknock : w.rd .A F.LSW_STATUS.KNOCKED n = 0) (hsafe : w.safeOn (96 + n) = false) : (w.swSwitchOn n).swLive n = true := by
  have hp : (w.swSwitchOn n).flag .A F.LSW_BANK.PRESENT (n / 16) = true := by
    rw [World.flag_eq_true_iff, World.swSwitchOn, World.rd_updSw]
    simp (disch := decide) only [World.rd_wr_apart]
    exact hpresent
  have hk : (w.swSwitchOn n).flag .A F.LSW_STATUS.KNOCKED n = false := by
    rw [World.flag_eq_false_iff rfl, World.swSwitchOn, World.rd_updSw]
    simp (disch := decide) only [World.rd_wr_apart]
    exact hknock
  have hs : (w.swSwitchOn n).safeOn (objL n) = false := by
    have hoff : (w.swSwitchOn n).rd .A F.PWR_SAFE.ASSERTED = w.rd .A F.PWR_SAFE.ASSERTED := by
      rw [World.swSwitchOn, World.rd_updSw]
      simp (disch := decide) only [World.rd_wr_apart]
    have hbp : (w.swSwitchOn n).bp = w.bp := by
      rw [World.swSwitchOn, World.updSw]
      simp only [World.wr_bp]
    rw [← hsafe, World.safeOn, World.safeOn, World.safeOff, World.safeOff, World.flag, World.flag, hoff, World.gren, World.gren, hbp, objL]
  have hl : (w.swSwitchOn n).lsw.lost = [] := by
    rw [World.swSwitchOn, World.updSw]
    simp only [World.wr_lsw]
    exact hlost
  have hb : ((w.swSwitchOn n).swSt n).blocked = false := by rw [World.swSwitchOn, World.swSt_updSw_same]
  rw [World.swLive, hp, hk, hs, hl, hb]
  rfl

/-- The level OFF taken (R229, R232, R240). -/
def World.swSwitchOff (w : World) (n : Nat) : World :=
  ((((w.wr .A F.LSW_CMD.ON n 0).wr .A F.LSW_STATUS.GREEN n 0).wr .A F.LSW_STATUS.CMD n 0).wr .A F.LSW_STATUS.KNOCKED n 0).updSw n
    fun x => { x with blocked := false }

theorem World.swCmd_off (w : World) (n : Nat) : w.swCmd n false = (w.swSwitchOff n).swOff n := by
  unfold World.swCmd
  dsimp only
  rw [if_neg Bool.false_ne_true]
  rfl

theorem World.rd_swSwitchOff (w : World) (n : Nat) : (w.swSwitchOff n).rd .A F.LSW_STATUS.CMD n = 0 ∧ (w.swSwitchOff n).rd .A F.LSW_CMD.ON n = 0 ∧
    (w.swSwitchOff n).rd .A F.LSW_STATUS.KNOCKED n = 0 ∧ (w.swSwitchOff n).rd .A F.LSW_STATUS.STATE n = w.rd .A F.LSW_STATUS.STATE n := by
  refine ⟨?_, ?_, ?_, ?_⟩ <;>
    simp (disch := decide) only [World.swSwitchOff, World.rd_updSw, World.rd_wr_apart, World.rd_wr_same] <;> rfl

/-- CLR_FAULT with the command OFF (R228). -/
def World.swClear (w : World) (n : Nat) : World :=
  let w := w.when (w.rd .A F.LSW_STATUS.FAULT n ≠ 5) fun w => w.wr .A F.LSW_STATUS.FAULT n 0
  w.when (w.swState n = 6) fun w => w.swGo n 0

theorem World.swClear_leaves (w : World) (n : Nat) :
    (w.swClear n).rd .A F.LSW_STATUS.FAULT n = (if w.rd .A F.LSW_STATUS.FAULT n = 5 then 5 else 0) ∧
    (w.swClear n).rd .A F.LSW_STATUS.STATE n = if w.rd .A F.LSW_STATUS.STATE n = 6 then 0 else w.rd .A F.LSW_STATUS.STATE n := by
  unfold World.swClear World.swState
  extract_lets u
  have hfault : u.rd .A F.LSW_STATUS.FAULT n = if w.rd .A F.LSW_STATUS.FAULT n = 5 then 5 else 0 := by
    simp only [u]
    rw [World.rd_when, World.rd_wr_same _ _ _ _ _ (by decide)]
    by_cases h5 : w.rd .A F.LSW_STATUS.FAULT n = 5 <;> simp [h5]
  have hstate : u.rd .A F.LSW_STATUS.STATE n = w.rd .A F.LSW_STATUS.STATE n := by
    simp only [u]
    rw [World.rd_when, World.rd_wr_apart _ _ _ _ _ _ _ _ (by decide), ite_self]
  refine ⟨?_, ?_⟩
  · rw [World.rd_when _ _ (fun w => w.swGo n 0), World.rd_swGo _ _ _ _ _ _ (by decide), ite_self, hfault]
  · rw [hstate, World.rd_when _ _ (fun w => w.swGo n 0), World.rd_swGo_state _ _ (by decide), hstate]
    simp

/-- The counts of a switch cleared, its peak started afresh (R243). -/
def World.swCountsClear (w : World) (k : Nat) : World :=
  (w.setReg .A F.LSW_CNT.STARTS k 0).wr .A F.LSW_TEMP.TJ_PEAK k (w.rd .A F.LSW_TEMP.TJ k)

theorem World.reg_swCountsClear_idx (w : World) {j k : Nat} (f : Field) (hf : f.reg < 2 ^ 25) (hj : j ≠ k) :
    (w.swCountsClear k).reg .A f j = w.reg .A f j := by
  have hkey (g : Field) (hg : g.reg < 2 ^ 25) : fieldKey f j ≠ fieldKey g k := fun h => hj (fieldKey_inj hf hg h).1
  rw [World.swCountsClear, World.wr, World.reg_setReg_ne _ _ _ _ _ _ _ _ (hkey _ (by decide)),
    World.reg_setReg_ne _ _ _ _ _ _ _ _ (hkey _ (by decide))]

/-- The count register and the two temperatures of a switch. -/
def World.swCounts (w : World) (j : Nat) : Word × Nat × Nat :=
  (w.reg .A F.LSW_CNT.STARTS j, w.rd .A F.LSW_TEMP.TJ_PEAK j, w.rd .A F.LSW_TEMP.TJ j)

theorem World.swCounts_clear (w : World) {l : List Nat} (hnd : l.Nodup) {j : Nat} (hj : j ∈ l) :
    (w.forAll l World.swCountsClear).swCounts j = (0, w.rd .A F.LSW_TEMP.TJ j, w.rd .A F.LSW_TEMP.TJ j) := by
  have hown (u : World) (k : Nat) : (u.swCountsClear k).swCounts k = (0, (u.swCounts k).2.2, (u.swCounts k).2.2) := by
    have hreg : (u.swCountsClear k).reg .A F.LSW_CNT.STARTS k = 0 := by
      rw [World.swCountsClear, World.wr, World.reg_setReg_ne _ _ _ _ _ _ _ _ (fun h => absurd (fieldKey_inj (by decide) (by decide) h).2 (by decide)),
        World.reg_setReg_same]
    have hpeak : (u.swCountsClear k).rd .A F.LSW_TEMP.TJ_PEAK k = u.rd .A F.LSW_TEMP.TJ k := by
      rw [World.swCountsClear, World.rd_wr_same _ _ _ _ _ (by decide)]
      exact Nat.mod_eq_of_lt (World.rd_lt _ _ F.LSW_TEMP.TJ _)
    have htj : (u.swCountsClear k).rd .A F.LSW_TEMP.TJ k = u.rd .A F.LSW_TEMP.TJ k := by
      rw [World.swCountsClear, World.rd_wr_apart _ _ _ _ _ _ _ _ (by decide), World.rd, World.rd,
        World.reg_setReg_ne _ _ _ _ _ _ _ _ (fun h => absurd (fieldKey_inj (by decide) (by decide) h).2 (by decide))]
    rw [World.swCounts, hreg, hpeak, htj]
    rfl
  have hoth (u : World) (k j : Nat) (hj : j ≠ k) : (u.swCountsClear k).swCounts j = u.swCounts j := by
    rw [World.swCounts, World.swCounts, World.rd, World.rd, World.reg_swCountsClear_idx _ _ (by decide) hj,
      World.reg_swCountsClear_idx _ _ (by decide) hj, World.reg_swCountsClear_idx _ _ (by decide) hj]
    rfl
  exact (World.forAll_at (f := World.swCountsClear) World.swCounts id (fun x _ => (0, x.2.2, x.2.2)) hown hoth (by rwa [List.map_id]) w).1 j hj

end Sys2Proof.Machine
end

section
open Sys2Proof Sys2Proof.Machine

/-- Settles O30: the write reaches the switch by its gate, then by what the command leaves. -/
theorem switchCommands : Obligations.switchCommands := by
  unfold Obligations.switchCommands
  refine ⟨?on, ?noProfile, ?off, ?profile, ?clear, ?knock, ?counts, ?refused, ?ignored⟩
  case on =>
    intro h init s n halive hn h48 howns hsafe hcmd hp
    have hexec : exec (.lswCommand h init true) s = _ := switchWrite_owned (fun n w => w.swCmd n true) halive hn h48 howns hsafe
    obtain ⟨hset, hon, hgreen, hretries, hstate⟩ := s.w.rd_swSwitchOn n
    obtain ⟨hwait, hprof, hkeep⟩ := (s.w.swSwitchOn n).swWait_leaves n (World.rd_lt s.w .A F.LSW_CMD.PROF n)
    rw [World.swCmd_on hcmd hp] at hexec
    by_cases h4 : s.w.rd .A F.LSW_STATUS.STATE n = 4
    · rw [if_pos h4] at hexec
      refine .of_exec hexec ?_
      simp only [World.rd_updSw]
      exact ⟨hset, hon, hgreen, hretries, fun h0 => absurd (h4.symm.trans h0) (by decide), fun _ => hstate, exec_quiet hexec rfl⟩
    · rw [if_neg h4] at hexec
      by_cases hlive : (s.w.rd .A F.LSW_STATUS.STATE n = 0 && (s.w.swSwitchOn n).swLive n) = true
      · have h0 : s.w.rd .A F.LSW_STATUS.STATE n = 0 := of_decide_eq_true (Bool.and_eq_true _ _ ▸ hlive).1
        rw [if_pos hlive] at hexec
        refine .of_exec hexec ⟨?_, ?_, ?_, ?_, fun _ _ _ _ => ⟨hwait, hprof⟩, fun hne => absurd h0 hne, exec_quiet hexec rfl⟩
        · exact (hkeep _ (by decide) (by decide) (by decide) _).trans hset
        · exact (hkeep _ (by decide) (by decide) (by decide) _).trans hon
        · exact (hkeep _ (by decide) (by decide) (by decide) _).trans hgreen
        · exact (hkeep _ (by decide) (by decide) (by decide) _).trans hretries
      · rw [if_neg hlive] at hexec
        refine .of_exec hexec ⟨hset, hon, hgreen, hretries, fun h0 hpresent hlost hknock => ?_, fun _ => hstate, exec_quiet hexec rfl⟩
        exact absurd (by rw [decide_eq_true h0, World.swLive_switchOn hpresent hlost hknock hsafe]; rfl) hlive
  case noProfile =>
    intro h init s n halive hn h48 howns hsafe hcmd hnone
    obtain ⟨u, hu⟩ : ∃ u, (s.w.wr .A F.LSW_CMD.ON n 1).wr .A F.LSW_STATUS.GREEN n 0 = u := ⟨_, rfl⟩
    have hprof : u.rd .A F.LSW_CMD.PROF n = s.w.rd .A F.LSW_CMD.PROF n := by
      rw [← hu, World.rd_wr_apart _ _ _ _ _ _ _ _ (by decide), World.rd_wr_apart _ _ _ _ _ _ _ _ (by decide)]
    have hprofile : u.profile (s.w.rd .A F.LSW_CMD.PROF n) = none := by
      rw [World.profile, ← hu, World.wr_lsw, World.wr_lsw, ← World.profile, hnone]
    have hexec : exec (.lswCommand h init true) s = .next { s with w := u.wr .A F.LSW_STATUS.FAULT n 7 } := by
      refine (switchWrite_owned (fun n w => w.swCmd n true) halive hn h48 howns hsafe).trans ?_
      unfold World.swCmd
      dsimp only
      rw [(World.flag_eq_false_iff rfl).mpr hcmd, if_pos rfl, if_neg Bool.false_ne_true, show b2n true = 1 from rfl, hu, hprof, hprofile]
      rfl
    refine .of_exec hexec ⟨?_, ?_, ?_, exec_quiet hexec rfl⟩
    · exact World.rd_wr_same _ _ _ _ _ (by decide)
    · rw [World.rd_wr_apart _ _ _ _ _ _ _ _ (by decide), ← hu]
      simp (disch := decide) only [World.rd_wr_apart]
      exact hcmd
    · rw [World.rd_wr_apart _ _ _ _ _ _ _ _ (by decide), ← hu]
      simp (disch := decide) only [World.rd_wr_apart]
  case off =>
    intro h init s n halive hn h48 howns hsafe
    have hexec : exec (.lswCommand h init false) s = _ := switchWrite_owned (fun n w => w.swCmd n false) halive hn h48 howns hsafe
    rw [World.swCmd_off] at hexec
    obtain ⟨hset, hon, hknock, hstate⟩ := s.w.rd_swSwitchOff n
    obtain ⟨hoff, hcancel, hkeep⟩ := (s.w.swSwitchOff n).swOff_leaves n
    rw [hstate] at hoff hcancel
    refine .of_exec hexec ⟨?_, ?_, ?_, hoff, hcancel, exec_quiet hexec rfl⟩
    · exact (hkeep _ (by decide) (by decide) _).trans hset
    · exact (hkeep _ (by decide) (by decide) _).trans hon
    · exact (hkeep _ (by decide) (by decide) _).trans hknock
  case profile =>
    intro h init v s n halive hn h48 howns hsafe
    have hexec : exec (.lswProfile h init v) s = _ := switchWrite_owned (fun n w => w.wr .A F.LSW_CMD.PROF n v) halive hn h48 howns hsafe
    exact .of_exec hexec ⟨World.rd_wr_same _ _ _ _ _ (by decide), s.w.regsBut_wr _ _ _ (by decide), World.wr_lsw _ _ _ _ _, exec_quiet hexec rfl⟩
  case clear =>
    intro h init s n halive hn h48 howns hsafe
    have hexec : exec (.lswClrFault h init) s = .next { s with w := s.w.when (!s.w.flag .A F.LSW_CMD.ON n) (·.swClear n) } :=
      switchWrite_owned (fun n w => w.when (!w.flag .A F.LSW_CMD.ON n) (·.swClear n)) halive hn h48 howns hsafe
    refine .of_exec hexec ⟨fun hon => ?_, fun hon => ?_, exec_quiet hexec rfl⟩
    · dsimp only
      rw [(World.flag_eq_false_iff rfl).mpr hon]
      exact s.w.swClear_leaves n
    · rw [World.flag_eq_true_iff.mpr hon]
      rfl
  case knock =>
    intro h init s n halive hn h48 howns hsafe
    have hexec : exec (.lswKnock h init) s = _ := switchWrite_owned (fun n w => w.knockSwitch n) halive hn h48 howns hsafe
    obtain ⟨hoff, -, hkeep⟩ := s.w.swOff_leaves n
    refine .of_exec hexec ⟨?_, ?_, ?_, exec_quiet hexec rfl⟩
    · rw [World.knockSwitch, World.rd_wr_same _ _ _ _ _ (by decide)]
      rfl
    · rw [World.knockSwitch, World.rd_wr_apart _ _ _ _ _ _ _ _ (by decide), hkeep _ (by decide) (by decide)]
    · rw [World.knockSwitch, World.rd_wr_apart _ _ _ _ _ _ _ _ (by decide), hoff]
  case counts =>
    intro h init s n halive hn h48 howns
    have hexec : exec (.lswClrCnt h init) s = .next { s with w := s.w.forAll (bankSwitches (n / 16)) World.swCountsClear } := by
      change execLswClrCnt h init s = _
      rw [execLswClrCnt, World.sel, hn]
      rw [if_neg (by omega), putW, gateAny, if_pos halive, objL, if_pos howns]
      rfl
    have hrest : Rest [.reg F.LSW_CNT.STARTS.reg, .reg F.LSW_TEMP.TJ.reg] (s.w.forAll (bankSwitches (n / 16)) World.swCountsClear) s.w :=
      Rest.forAll (Rest.refl _ _) fun _ _ e => Rest.wr _ _ _ _ (by decide) (Rest.setReg _ _ _ _ (by decide) e)
    refine .of_exec hexec ⟨fun j hlo hhi => ?_, hrest.regsBut (by decide), exec_quiet hexec rfl⟩
    have hj := s.w.swCounts_clear (l := bankSwitches (n / 16)) List.nodup_range' (List.mem_range'_1.mpr ⟨hlo, hhi⟩)
    simp only [World.swCounts, Prod.mk.injEq] at hj
    obtain ⟨hstarts, hpeak, -⟩ := hj
    exact ⟨hstarts, hpeak⟩
  case refused =>
    intro h init on v c s n hc halive hn h48 howns
    have hexec : exec c s = .next { s with w := s.w.violation h init (96 + n) } := by
      have hrefused := fun f => switchWrite_refused f halive hn h48 howns
      simp only [List.mem_cons, List.not_mem_nil, or_false] at hc
      rcases hc with rfl | rfl | rfl | rfl
      · exact hrefused fun n w => w.swCmd n on
      · exact hrefused fun n w => w.wr .A F.LSW_CMD.PROF n v
      · exact hrefused fun n w => w.when (!w.flag .A F.LSW_CMD.ON n) (·.swClear n)
      · exact hrefused fun n w => w.knockSwitch n
    obtain ⟨hobj, hinit⟩ := s.w.rd_violation h (init := init) (show 96 + n < 2 ^ 9 by omega)
    exact .of_exec hexec ⟨hobj, hinit, World.violation_lsw _ _ _ _, s.w.regsBut_violation _ _ _, rfl, rfl, rfl, rfl⟩
  case ignored =>
    intro h init on v c s hc hor
    have hignored := fun f => switchWrite_ignored f hor
    simp only [List.mem_cons, List.not_mem_nil, or_false] at hc
    rcases hc with rfl | rfl | rfl | rfl
    · exact .of_exec (hignored fun n w => w.swCmd n on) rfl
    · exact .of_exec (hignored fun n w => w.wr .A F.LSW_CMD.PROF n v) rfl
    · exact .of_exec (hignored fun n w => w.when (!w.flag .A F.LSW_CMD.ON n) (·.swClear n)) rfl
    · exact .of_exec (hignored fun n w => w.knockSwitch n) rfl
end

section
open Sys2Proof Sys2Proof.Machine

/-- Settles O31: each protection puts the switch into the state that its lemma names. -/
theorem switchProtects : Obligations.switchProtects := by
  unfold Obligations.switchProtects
  refine ⟨?inrush, ?inrushNot, ?short, ?shortNot, ?overload, ?overloadNot, ?thermal, ?thermalNot, ?latch, ?latchHeld, ?latchNot, ?retry,
    ?retryNot, ?reload, ?reloadNot, ?openOn, ?openOnNot, ?probe, ?probeNot⟩
  case inrush =>
    intro n p s hp hstate hat
    have hexec : exec (.inrushEnd n) s = .next { s with w := s.w.swGo n 3 } := by
      change execInrushEnd n s = _
      unfold execInrushEnd lift World.swState
      dsimp only
      rw [hp]
      dsimp only
      rw [show p.inrushMs * ms = p.inrushMs * 1000000 from rfl, decide_eq_true hstate, decide_eq_true hat]
      rfl
    refine .of_exec hexec ⟨World.rd_swGo_state _ _ (by decide), ?_, ?_, exec_regsBut hexec rfl, exec_quiet hexec rfl⟩
    · rw [World.swSt_swGo]
      rfl
    · rw [World.swSt_swGo]
  case inrushNot =>
    intro n s hne
    refine .of_exec (t := s) ?_ rfl
    change execInrushEnd n s = _
    unfold execInrushEnd lift World.swState
    dsimp only
    split
    · rfl
    · rw [decide_eq_false hne, Bool.false_and, World.when_false]
  case short =>
    intro n i s hon hi
    have hexec : exec (.lswShortTrip n i) s = .next { s with w := s.w.swTrip n 1 i } := by
      change execLswShortTrip n i s = _
      have hs : s.w.swOn n = true := World.swOn_of hon
      rw [execLswShortTrip, lift, hs, decide_eq_true hi]
      rfl
    obtain ⟨hfault, hstate, htrips, hcur, hclaim⟩ := s.w.swTrip_leaves n i (show 1 < 16 by decide)
    exact .of_exec hexec ⟨hfault, hstate, htrips, hcur, hclaim, exec_quiet hexec rfl⟩
  case shortNot =>
    intro n i s hle
    refine .of_exec (t := s) ?_ rfl
    change execLswShortTrip n i s = _
    rw [execLswShortTrip, lift, decide_eq_false (Nat.not_lt.mpr hle), Bool.and_false, World.when_false]
  case overload =>
    intro n i p s hp hstate hi
    have hexec : exec (.lswOverloadTrip n i) s = .next { s with w := s.w.swTrip n 2 i } := by
      change execLswOverloadTrip n i s = _
      unfold execLswOverloadTrip lift World.swState
      dsimp only
      rw [hp]
      dsimp only
      rw [decide_eq_true hstate, decide_eq_true hi]
      rfl
    obtain ⟨hfault, hgo, htrips, -, -⟩ := s.w.swTrip_leaves n i (show 2 < 16 by decide)
    exact .of_exec hexec ⟨hfault, hgo, htrips, exec_quiet hexec rfl⟩
  case overloadNot =>
    intro n i p s hp hle
    refine .of_exec (t := s) ?_ rfl
    change execLswOverloadTrip n i s = _
    unfold execLswOverloadTrip lift
    dsimp only
    rw [hp]
    dsimp only
    rw [decide_eq_false (Nat.not_lt.mpr hle), Bool.and_false, World.when_false]
  case thermal =>
    intro n tj s hon hge
    obtain ⟨u, hu⟩ : ∃ u, ((s.w.swTemp n tj).wr .A F.LSW_STATUS.FAULT n 3).bump .A F.LSW_TEMP.LATCHES n = u := ⟨_, rfl⟩
    have hexec : exec (.lswThermalTrip n tj) s = .next { s with
        w := ((u.swGo n 4).updSw n fun x => { x with heldOn := false, cancel := false }).swEvent 113 n 0 } := by
      change execLswThermalTrip n tj s = _
      have hs : s.w.swOn n = true := World.swOn_of hon
      rw [execLswThermalTrip, lift, hs, decide_eq_true hge, ← hu]
      rfl
    refine .of_exec hexec ⟨?_, ?_, ?_, ?_, ?_, exec_quiet hexec rfl⟩
    · rw [World.rd_swEvent _ _ _ _ _ _ _ (by decide), World.rd_updSw, World.rd_swGo_state _ _ (by decide)]
    · rw [World.rd_swEvent _ _ _ _ _ _ _ (by decide), World.rd_updSw, World.rd_swGo _ _ _ _ _ _ (by decide), ← hu,
        World.rd_bump_apart _ _ _ _ _ _ _ (by decide), World.rd_wr_same _ _ _ _ _ (by decide)]
      rfl
    · rw [World.rd_swEvent _ _ _ _ _ _ _ (by decide), World.rd_updSw, World.rd_swGo _ _ _ _ _ _ (by decide), ← hu,
        World.rd_bump_same _ _ _ _ (by decide), World.rd_wr_apart _ _ _ _ _ _ _ _ (by decide), World.rd_swTemp _ _ _ _ _ _ (by decide) (by decide)]
    · rw [World.swSt_swEvent, World.swSt_updSw_same, World.swSt_swGo]
      rfl
    · rw [World.swSt_swEvent, World.swSt_updSw_same]
  case thermalNot =>
    intro n tj s hlt
    refine .of_exec (t := s) ?_ rfl
    change execLswThermalTrip n tj s = _
    rw [execLswThermalTrip, lift, decide_eq_false (Int.not_le.mpr hlt), Bool.and_false, World.when_false]
  case latch =>
    intro n tj s hstate htj hheld
    have hexec := exec_thermalLatchClear hstate htj
    obtain ⟨hlive, hcmd, hretries⟩ := s.w.swTemp_keeps n tj
    rw [World.latchClears, World.swSt_congr (World.swTemp_lsw _ _ _), hheld, Bool.false_and, if_neg Bool.false_ne_true, hlive] at hexec
    refine .of_exec hexec ⟨fun hor => ?_, fun hcancel hon hl => ?_, exec_quiet hexec rfl⟩
    · dsimp only
      rw [if_pos]
      · exact World.rd_swGo_state _ _ (by decide)
      · rw [World.flag, hcmd, ← World.flag]
        rcases hor with h | h | h
        · simp [h]
        · simp [(World.flag_eq_false_iff rfl).mpr h]
        · simp [h]
    · dsimp only
      rw [if_neg]
      · rw [(World.swRetry_leaves _ _).1, hretries]
      · rw [World.flag, hcmd, ← World.flag, hcancel, World.flag_eq_true_iff.mpr hon, hl]
        decide
  case latchHeld =>
    intro n tj s hstate htj hheld hl hgreen
    have hexec := exec_thermalLatchClear hstate htj
    obtain ⟨hlive, -, -⟩ := s.w.swTemp_keeps n tj
    have hg : (s.w.swTemp n tj).flag .A F.LSW_STATUS.GREEN n = false := by
      rw [World.flag_eq_false_iff rfl, World.rd_swTemp _ _ _ _ _ _ (by decide) (by decide), hgreen]
    have hp : (s.w.swTemp n tj).rd .A F.LSW_CMD.PROF n = s.w.rd .A F.LSW_CMD.PROF n := World.rd_swTemp _ _ _ _ _ _ (by decide) (by decide)
    rw [World.latchClears, World.swSt_congr (World.swTemp_lsw _ _ _), hheld, hlive, hl, Bool.and_self, if_pos rfl, hg,
      if_neg Bool.false_ne_true, hp] at hexec
    obtain ⟨hwait, hprof, -⟩ := (s.w.swTemp n tj).swWait_leaves n (World.rd_lt s.w .A F.LSW_CMD.PROF n)
    exact .of_exec hexec ⟨hwait, hprof, exec_quiet hexec rfl⟩
  case latchNot =>
    intro n tj s hle
    refine .of_exec (t := s) ?_ rfl
    change execThermalLatchClear n tj s = _
    rw [execThermalLatchClear, lift, decide_eq_false (Int.not_lt.mpr hle), Bool.and_false, World.when_false]
  case retry =>
    intro n tj s hstate hat htj
    obtain ⟨u, hu⟩ : ∃ u, (s.w.wr .A F.LSW_STATUS.RETRIES n (s.w.rd .A F.LSW_STATUS.RETRIES n - 1)).bump .A F.LSW_CNT.RETRIES n = u := ⟨_, rfl⟩
    have hprof : u.rd .A F.LSW_STATUS.PROF n = s.w.rd .A F.LSW_STATUS.PROF n := by
      rw [← hu, World.rd_bump_apart _ _ _ _ _ _ _ (by decide), World.rd_wr_apart _ _ _ _ _ _ _ _ (by decide)]
    have hexec : exec (.retryWaitExpiry n tj) s = .next { s with w := u.swWait n (s.w.rd .A F.LSW_STATUS.PROF n) } := by
      change execRetryWaitExpiry n tj s = _
      have hat' : (s.w.swSt n).since + (s.w.swCfg n).retryT * 10 * ms ≤ s.w.now := by
        rwa [Nat.mul_assoc, show 10 * ms = 10000000 from rfl]
      rw [execRetryWaitExpiry, lift, World.swState, decide_eq_true hstate, decide_eq_true hat', decide_eq_true htj, ← hprof, ← hu]
      rfl
    have h8 : s.w.rd .A F.LSW_STATUS.PROF n < 8 := World.rd_lt _ _ F.LSW_STATUS.PROF _
    obtain ⟨hwait, hp, hkeep⟩ := u.swWait_leaves n h8
    refine .of_exec hexec ⟨hwait, ?_, ?_, hp, exec_quiet hexec rfl⟩
    · dsimp only
      rw [hkeep _ (by decide) (by decide) (by decide), ← hu, World.rd_bump_apart _ _ _ _ _ _ _ (by decide), World.rd_wr_same _ _ _ _ _ (by decide)]
      exact Nat.mod_eq_of_lt ((Nat.sub_le _ _).trans_lt (World.rd_lt _ _ F.LSW_STATUS.RETRIES _))
    · dsimp only
      rw [hkeep _ (by decide) (by decide) (by decide), ← hu, World.rd_bump_same _ _ _ _ (by decide), World.rd_wr_apart _ _ _ _ _ _ _ _ (by decide)]
  case retryNot =>
    intro n tj s hne
    refine .of_exec (t := s) ?_ rfl
    change execRetryWaitExpiry n tj s = _
    rw [execRetryWaitExpiry, lift, World.swState, decide_eq_false hne, Bool.false_and, Bool.false_and, World.when_false]
  case reload =>
    intro n s hstate hat
    have hexec : exec (.retryCounterReload n) s = .next { s with w := s.w.wr .A F.LSW_STATUS.RETRIES n (s.w.swCfg n).retryN } := by
      change execRetryCounterReload n s = _
      rw [execRetryCounterReload, lift, World.swState, decide_eq_true hstate, show 10 * sec = 10000000000 from rfl, decide_eq_true hat]
      rfl
    exact .of_exec hexec ⟨World.rd_wr_same _ _ _ _ _ (by decide), s.w.regsBut_wr _ _ _ (by decide), World.wr_lsw _ _ _ _ _, exec_quiet hexec rfl⟩
  case reloadNot =>
    intro n s hlt
    refine .of_exec (t := s) ?_ rfl
    change execRetryCounterReload n s = _
    rw [execRetryCounterReload, lift, show 10 * sec = 10000000000 from rfl, decide_eq_false (Nat.not_le.mpr hlt), Bool.and_false, World.when_false]
  case openOn =>
    intro n i s hstate hen
    have hexec : exec (.openOnDetect n i) s = .next { s with w := s.w.openOn n i } := by
      change execOpenOnDetect n i s = _
      rw [execOpenOnDetect, lift, World.swState, decide_eq_true hstate, hen]
      rfl
    obtain ⟨hopen, hcur, hlsw⟩ := s.w.openOn_leaves n i
    exact .of_exec hexec ⟨hopen, hcur, hlsw, exec_quiet hexec rfl⟩
  case openOnNot =>
    intro n i s hen
    refine .of_exec (t := s) ?_ rfl
    change execOpenOnDetect n i s = _
    rw [execOpenOnDetect, lift, hen, Bool.and_false, World.when_false]
  case probe =>
    intro n vp vi s hstate hcmd hen hprobe
    obtain ⟨stb, hstb⟩ : ∃ stb, decide (10 * s.w.rd .A F.PWR_FEED.V (swFeed n) < 2 * vi) = stb := ⟨_, rfl⟩
    obtain ⟨u, hu⟩ : ∃ u, ((s.w.wr .A F.LSW_STATUS.OPEN_OFF n (b2n (250 < vp))).wr .A F.LSW_STATUS.STB n (b2n stb)).wr .A F.LSW_MEAS.V n
      (satTo 16 vi) = u := ⟨_, rfl⟩
    have hexec : ∃ c k, exec (.lswProbe n vp vi) s = .next { s with w := u.when c fun w => w.swEvent 115 n k } := by
      refine ⟨(decide (250 < vp) && !s.w.flag .A F.LSW_STATUS.OPEN_OFF n) || (stb && !s.w.flag .A F.LSW_STATUS.STB n),
        if stb && !s.w.flag .A F.LSW_STATUS.STB n then 3 else 2, ?_⟩
      change execLswProbe n vp vi s = _
      rw [execLswProbe, lift, World.swState, decide_eq_true hstate, (World.flag_eq_false_iff rfl).mpr hcmd,
        World.flag_eq_true_iff.mpr hen, hprobe, ← hu, ← hstb]
      rfl
    obtain ⟨c, k, hexec⟩ := hexec
    have hrd (f : Field) (he : (decide (f.reg < 2 ^ 25) && decide (f.reg ≠ 0x100018)) = true) :
        (u.when c fun w => w.swEvent 115 n k).rd .A f n = u.rd .A f n := by
      rw [World.rd_when, World.rd_swEvent _ _ _ _ _ _ _ he, ite_self]
    refine .of_exec hexec ⟨?_, ?_, ?_, ?_, exec_quiet hexec rfl⟩
    · dsimp only
      rw [hrd _ (by decide), ← hu, World.rd_wr_apart _ _ _ _ _ _ _ _ (by decide), World.rd_wr_apart _ _ _ _ _ _ _ _ (by decide),
        World.rd_wr_same _ _ _ _ _ (by decide)]
      exact b2n_mod_two _
    · dsimp only
      rw [hrd _ (by decide), ← hu, World.rd_wr_apart _ _ _ _ _ _ _ _ (by decide), World.rd_wr_same _ _ _ _ _ (by decide), hstb]
      exact b2n_mod_two _
    · dsimp only
      rw [hrd _ (by decide), ← hu, World.rd_wr_same _ _ _ _ _ (by decide)]
      exact Nat.mod_eq_of_lt (satTo_lt _ _)
    · dsimp only
      rw [hrd _ (by decide), ← hu]
      simp (disch := decide) only [World.rd_wr_apart]
      exact hstate
  case probeNot =>
    intro n vp vi s hne
    refine .of_exec (t := s) ?_ rfl
    change execLswProbe n vp vi s = _
    rw [execLswProbe, lift, World.swState, decide_eq_false hne, Bool.false_and, Bool.false_and, Bool.false_and, World.when_false]
end

section
/-!
SUPPORT. R245–R258: the state of a binding's chain through samples, comparisons and publications.
-/
namespace Sys2Proof.Machine

/-! The state of a binding. -/

theorem World.bindSt_congr {w v : World} (hv : w.uin = v.uin) (h : Half) (b : Nat) : w.bindSt h b = v.bindSt h b := by
  unfold World.bindSt World.bindKey World.bindCfg
  rw [hv]

theorem World.uin_updBind_congr {w v : World} (hv : w.uin = v.uin) (h : Half) (b : Nat) (u : BindSt → BindSt) :
    (w.updBind h b u).uin = (v.updBind h b u).uin := by
  unfold World.updBind World.bindKey World.bindCfg
  dsimp only
  rw [hv]

theorem World.bindCfg_congr {w v : World} (hv : w.uin.cfg = v.uin.cfg) (b : Nat) : w.bindCfg b = v.bindCfg b := by
  rw [World.bindCfg, World.bindCfg, hv]

@[simp] theorem World.rd_updBind (w : World) (h : Half) (b : Nat) (u : BindSt → BindSt) (g : Half) (f : Field) (i : Nat) :
    (w.updBind h b u).rd g f i = w.rd g f i := (rfl)
@[simp] theorem World.cfg_updBind (w : World) (h : Half) (b : Nat) (u : BindSt → BindSt) : (w.updBind h b u).uin.cfg = w.uin.cfg := (rfl)
@[simp] theorem World.bindCfg_updBind (w : World) (h : Half) (b c : Nat) (u : BindSt → BindSt) :
    (w.updBind h b u).bindCfg c = w.bindCfg c := (rfl)
@[simp] theorem World.now_updBind (w : World) (h : Half) (b : Nat) (u : BindSt → BindSt) : (w.updBind h b u).now = w.now := (rfl)

theorem World.bindSt_updBind (w : World) (h g : Half) (b c : Nat) (u : BindSt → BindSt) :
    (w.updBind h b u).bindSt g c = if w.bindKey g c = w.bindKey h b then u (w.bindSt h b) else w.bindSt g c := by
  change NMap.get {} (NMap.upd {} w.uin.bind (w.bindKey h b) u) (w.bindKey g c) = _
  rw [NMap.upd, NMap.get_set]
  rfl

@[simp] theorem World.bindSt_updBind_same (w : World) (h : Half) (b : Nat) (u : BindSt → BindSt) :
    (w.updBind h b u).bindSt h b = u (w.bindSt h b) := by rw [World.bindSt_updBind, if_pos rfl]

/-- A property of a state that a change does not disturb, in whichever binding it is read. -/
theorem World.bindSt_updBind_keeps {β : Type} (p : BindSt → β) {u : BindSt → BindSt} (hu : ∀ x, p (u x) = p x) (w : World) (h g : Half)
    (b c : Nat) : p ((w.updBind h b u).bindSt g c) = p (w.bindSt g c) := by
  rw [World.bindSt_updBind]
  split
  · next hk => rw [hu, World.bindSt, World.bindSt, hk]
  · rfl

/-- The two halves share the state of a binding of the backplane. -/
theorem World.bindSt_shared {w : World} {b : Nat} (hb : (w.bindCfg b).perHalf = false) (h g : Half) : w.bindSt h b = w.bindSt g b := by
  rw [World.bindSt, World.bindSt, World.bindKey, World.bindKey, hb]
  rfl

/-! What a comparison and a publication leave: the configuration and the array of losses, and of every binding all but the value last
reported GOOD, CONFLICT and DIVERGE. -/

/-- A binding's state but for what a comparison and a publication write. -/
def BindSt.core (x : BindSt) : BindSt := { x with lastOk := 0, conflict := false, diverge := false }

/-- The inputs but for the chains' states and the twins' timers. -/
def Inputs.still (u : Inputs) : Inputs := { u with bind := [], twinAt := [] }

/-- `w` differs from `v`, of the inputs' state, only in what comparisons and publications write. -/
def World.Settled (v w : World) : Prop := w.uin.still = v.uin.still ∧ ∀ h b, (w.bindSt h b).core = (v.bindSt h b).core

namespace World.Settled

theorem refl (w : World) : w.Settled w := ⟨rfl, fun _ _ => rfl⟩

theorem trans {u v w : World} (huv : u.Settled v) (hvw : v.Settled w) : u.Settled w :=
  ⟨hvw.1.trans huv.1, fun h b => (hvw.2 h b).trans (huv.2 h b)⟩

theorem of_uin {v w : World} (hu : w.uin = v.uin) : v.Settled w := ⟨by rw [hu], fun h b => by rw [World.bindSt_congr hu]⟩

theorem updBind {v w : World} (hw : v.Settled w) (h : Half) (b : Nat) {u : BindSt → BindSt} (hu : ∀ x, (u x).core = x.core) :
    v.Settled (w.updBind h b u) := hw.trans ⟨rfl, fun g c => w.bindSt_updBind_keeps BindSt.core hu h g b c⟩

theorem raise {v w : World} (hw : v.Settled w) (h : Half) (num arg : Nat) : v.Settled (w.raise h num arg) := hw.trans (of_uin (by simp))

theorem wr {v w : World} (hw : v.Settled w) (h : Half) (f : Field) (i x : Nat) : v.Settled (w.wr h f i x) := hw.trans (of_uin (by simp))

theorem when {v w : World} (hw : v.Settled w) (c : Bool) {f : World → World} (hf : v.Settled w → v.Settled (f w)) :
    v.Settled (w.when c f) := by
  unfold World.when
  split
  · exact hf hw
  · exact hw

theorem foldl {α : Type} {v w : World} (hw : v.Settled w) {f : World → α → World} (l : List α) (hf : ∀ u : World, ∀ a ∈ l, u.Settled (f u a)) :
    v.Settled (l.foldl f w) := by
  induction l generalizing w with
  | nil => exact hw
  | cons a l ih => exact ih (hw.trans (hf w a List.mem_cons_self)) fun u b hb => hf u b (List.mem_cons_of_mem a hb)

theorem setTwinAt {v w : World} (hw : v.Settled w) (m : NMap (Nat × Bool)) : v.Settled { w with uin := { w.uin with twinAt := m } } :=
  hw.trans ⟨rfl, fun _ _ => rfl⟩

theorem cfg {v w : World} (hw : v.Settled w) : w.uin.cfg = v.uin.cfg :=
  show w.uin.still.cfg = v.uin.still.cfg by rw [hw.1]
theorem comp {v w : World} (hw : v.Settled w) (n : Nat) : w.comp n = v.comp n :=
  show NMap.get {} w.uin.still.comp n = NMap.get {} v.uin.still.comp n by rw [hw.1]
theorem supply {v w : World} (hw : v.Settled w) (n : Nat) : w.supplySt n = v.supplySt n :=
  show NMap.get {} w.uin.still.supply n = NMap.get {} v.uin.still.supply n by rw [hw.1]
theorem elem {v w : World} (hw : v.Settled w) (n : Nat) : w.elem n = v.elem n :=
  show NMap.get {} w.uin.still.elem n = NMap.get {} v.uin.still.elem n by rw [hw.1]

/-- A part of a state that its core determines. -/
theorem field {v w : World} (hw : v.Settled w) {β : Type} (p : BindSt → β) (hp : ∀ x, p x.core = p x) (h : Half) (b : Nat) :
    p (w.bindSt h b) = p (v.bindSt h b) := by rw [← hp, hw.2, hp]

end World.Settled

/-! Publication (R252, R268). -/

theorem World.uin_publishIn (w : World) (b : Nat) (h : Half) : (w.publishIn b h).uin = w.uin :=
  (World.publishIn_rest (q0 := [.evt, .reg 0x100018, .reg 0x701000, .reg 0x701004]) (by decide) (Rest.refl _ w)).uin (by decide)

/-- Of the chains' states, a publication writes only the value last reported GOOD. -/
theorem World.uin_publish (w : World) (h : Half) (b : Nat) : (w.publish h b).uin =
    (w.when ((w.bindSt h b).quality = 0 || (w.bindSt h b).quality = 5) fun w => w.updBind h b fun s => { s with lastOk := s.filt }).uin := by
  have hfold : ((w.bindHalves h b).foldl (fun w h => w.publishIn b h) w).uin = w.uin := by
    generalize w.bindHalves h b = l
    exact World.forAll_keeps World.uin (f := fun w h => w.publishIn b h) (fun u g => u.uin_publishIn b g) l w
  obtain ⟨u, hu⟩ : ∃ u, (w.bindHalves h b).foldl (fun w h => w.publishIn b h) w = u := ⟨_, rfl⟩
  have hlast : (u.when ((w.bindSt h b).quality = 0 || (w.bindSt h b).quality = 5) fun w => w.updBind h b fun s => { s with lastOk := s.filt }).uin =
      (w.when ((w.bindSt h b).quality = 0 || (w.bindSt h b).quality = 5) fun w => w.updBind h b fun s => { s with lastOk := s.filt }).uin := by
    rw [hu] at hfold
    unfold World.when
    split
    · exact World.uin_updBind_congr hfold _ _ _
    · exact hfold
  rw [← hlast, ← hu]
  unfold World.publish
  dsimp only
  split
  · rw [World.apply_when World.uin, World.bump, World.wr_uin, ite_self, World.apply_when World.uin, World.bump, World.wr_uin, ite_self]
    simp only [World.wr_uin]
  · rfl

theorem World.bindSt_publish (w : World) (h g : Half) (b c : Nat) : ∃ x, (w.publish h b).bindSt g c = { w.bindSt g c with lastOk := x } := by
  rw [World.bindSt_congr (w.uin_publish h b)]
  unfold World.when
  split
  · rw [World.bindSt_updBind]
    split
    · next hk => exact ⟨(w.bindSt h b).filt, by simp only [World.bindSt, hk]⟩
    · exact ⟨(w.bindSt g c).lastOk, rfl⟩
  · exact ⟨(w.bindSt g c).lastOk, rfl⟩

theorem World.settled_publish (w : World) (h : Half) (b : Nat) : w.Settled (w.publish h b) := by
  refine ⟨?_, fun g c => ?_⟩
  · rw [World.uin_publish, World.apply_when World.uin]
    split <;> rfl
  · obtain ⟨x, hx⟩ := w.bindSt_publish h g b c
    rw [hx]
    rfl

theorem World.quality_publish (w : World) (h g : Half) (b c : Nat) : ((w.publish h b).bindSt g c).quality = (w.bindSt g c).quality := by
  obtain ⟨x, hx⟩ := w.bindSt_publish h g b c
  rw [hx]
  rfl

theorem World.conflict_publish (w : World) (h g : Half) (b c : Nat) : ((w.publish h b).bindSt g c).conflict = (w.bindSt g c).conflict := by
  obtain ⟨x, hx⟩ := w.bindSt_publish h g b c
  rw [hx]

theorem World.rd_publishIn_quality (w : World) (b : Nat) (h : Half) :
    (w.publishIn b h).rd h F.UIN_BQ.QUALITY b = (w.bindSt h b).quality % 8 := by
  unfold World.publishIn
  dsimp only
  have hq : ((((w.wr h F.UIN_BVAL.VALUE b (f32Of ((w.bindSt h b).value (w.bindCfg b)))).wr h F.UIN_BQ.QUALITY b (w.bindSt h b).quality).wr h
      F.UIN_BQ.FS b (b2n ((w.bindSt h b).fs (w.bindCfg b)))).wr h F.UIN_BQ.DIVERGE b (b2n (w.bindSt h b).diverge)).rd h F.UIN_BQ.QUALITY b =
      (w.bindSt h b).quality % 8 := by
    rw [World.rd_wr_apart _ _ _ _ _ _ _ _ (by decide), World.rd_wr_apart _ _ _ _ _ _ _ _ (by decide), World.rd_wr_same _ _ _ _ _ (by decide)]
    rfl
  split
  · exact hq
  · split
    · rw [World.rd_raise _ _ _ _ _ _ _ (by decide), hq]
    · exact hq

/-- The quality published in a half is not touched by the other half's publication. -/
theorem World.rd_publishIn_other (w : World) (b : Nat) {h g : Half} (hg : g ≠ h) (i : Nat) :
    (w.publishIn b h).rd g F.UIN_BQ.QUALITY i = w.rd g F.UIN_BQ.QUALITY i := by
  unfold World.publishIn
  dsimp only
  split
  · simp (disch := first | decide | exact hg) only [World.rd_wr_half]
  · split
    · rw [World.rd_raise _ _ _ _ _ _ _ (by decide)]
      simp (disch := first | decide | exact hg) only [World.rd_wr_half]
    · simp (disch := first | decide | exact hg) only [World.rd_wr_half]

theorem World.rd_publishHalves_quality (w : World) (h : Half) (b : Nat) :
    ((w.bindHalves h b).foldl (fun w h => w.publishIn b h) w).rd h F.UIN_BQ.QUALITY b = (w.bindSt h b).quality % 8 := by
  unfold World.bindHalves
  split
  · exact w.rd_publishIn_quality b h
  · next hp =>
    have hsh (g : Half) : (w.publishIn b .A).bindSt g b = w.bindSt g b := World.bindSt_congr (w.uin_publishIn b .A) g b
    simp only [List.foldl_cons, List.foldl_nil]
    cases h with
    | A => rw [World.rd_publishIn_other _ _ (by decide), World.rd_publishIn_quality]
    | B => rw [World.rd_publishIn_quality, hsh]

/-- What is published of a binding's quality. -/
theorem World.rd_publish_quality (w : World) (h : Half) (b : Nat) :
    (w.publish h b).rd h F.UIN_BQ.QUALITY b = ((w.publish h b).bindSt h b).quality % 8 := by
  rw [World.quality_publish, ← World.rd_publishHalves_quality]
  obtain ⟨u, hu⟩ : ∃ u, (w.bindHalves h b).foldl (fun w h => w.publishIn b h) w = u := ⟨_, rfl⟩
  have hbump (v : World) (c : Bool) (n : Nat) (f : Field) (hf : fieldsApart f F.UIN_BQ.QUALITY = true) :
      (v.when c fun w => w.bump .A f n).rd h F.UIN_BQ.QUALITY b = v.rd h F.UIN_BQ.QUALITY b := by
    rw [World.rd_when, World.rd_bump_apart _ _ _ _ _ _ _ hf, ite_self]
  have hlast (v : World) (c : Bool) (x : BindSt → BindSt) : (v.when c fun w => w.updBind h b x).rd h F.UIN_BQ.QUALITY b = v.rd h F.UIN_BQ.QUALITY b := by
    rw [World.rd_when, World.rd_updBind, ite_self]
  unfold World.publish
  dsimp only
  rw [hu]
  split
  · rw [hbump _ _ _ _ (by decide), hbump _ _ _ _ (by decide), World.rd_wr_apart _ _ _ _ _ _ _ _ (by decide),
      World.rd_wr_apart _ _ _ _ _ _ _ _ (by decide), World.rd_wr_apart _ _ _ _ _ _ _ _ (by decide), hlast]
  · exact hlast _ _ _

/-! Comparison (R257). -/

/-- CONFLICT written in a binding's state. -/
def World.markConflict (w : World) (h : Half) (b : Nat) (on : Bool) : World := w.updBind h b fun s => { s with conflict := on, diverge := false }

theorem World.uin_raiseAll (num : Nat) (arg : World → Nat) (l : List Half) (w : World) :
    (l.foldl (fun w h => w.raise h num (arg w)) w).uin = w.uin :=
  World.forAll_keeps World.uin (f := fun v g => v.raise g num (arg v)) (fun v g => v.raise_uin g _ _) l w

theorem World.uin_setConflict (w : World) (h : Half) (b : Nat) (on : Bool) :
    (w.setConflict h b on).uin = if (w.bindSt h b).conflict = on then w.uin else (w.markConflict h b on).uin := by
  unfold World.setConflict
  split
  · rfl
  · exact World.uin_raiseAll 133 (fun w => evArg b (w.bindCfg b).inputNo (b2n on)) _ (w.markConflict h b on)

theorem World.settled_setConflict (w : World) (h : Half) (b : Nat) (on : Bool) : w.Settled (w.setConflict h b on) := by
  have hu := w.uin_setConflict h b on
  split at hu
  · exact .of_uin hu
  · have hmark : w.Settled (w.markConflict h b on) := World.Settled.updBind (.refl w) h b fun _ => rfl
    exact hmark.trans (.of_uin hu)

/-- DIVERGE of a pair. -/
def World.setDiverge (w : World) (h : Half) (t : TwinCfg) (d : Bool) : World :=
  (w.updBind h t.a fun s => { s with diverge := d }).updBind h t.b fun s => { s with diverge := d }

theorem World.settled_setDiverge (w : World) (h : Half) (t : TwinCfg) (d : Bool) : w.Settled (w.setDiverge h t d) :=
  ((World.Settled.refl w).updBind h t.a (u := fun s => { s with diverge := d }) fun _ => rfl).updBind h t.b
    (u := fun s => { s with diverge := d }) fun _ => rfl

/-- The twins' timers changed. -/
def World.withTwinAt (w : World) (m : NMap (Nat × Bool)) : World := { w with uin := { w.uin with twinAt := m } }

/-- A comparison: the pair's timer, and DIVERGE; CONFLICT ends where a binding of the pair is not GOOD by itself. -/
theorem World.compare_eq (w : World) (h : Half) (k : Nat) (t : TwinCfg) : ∃ m d, w.compare h k t = (w.withTwinAt m).setDiverge h t d ∨
    w.compare h k t = (((w.withTwinAt m).setConflict h t.a false).setConflict h t.b false).setDiverge h t false := by
  unfold World.compare
  dsimp only
  split
  · split
    · exact ⟨w.uin.twinAt, _, .inl rfl⟩
    · exact ⟨_, _, .inl rfl⟩
  · exact ⟨_, false, .inr rfl⟩

theorem World.settled_compare (w : World) (h : Half) (k : Nat) (t : TwinCfg) : w.Settled (w.compare h k t) := by
  obtain ⟨m, d, he | he⟩ := w.compare_eq h k t
  · rw [he]
    exact (World.Settled.setTwinAt (.refl w) m).trans (World.settled_setDiverge _ _ _ _)
  · rw [he]
    exact (World.Settled.setTwinAt (.refl w) m).trans ((World.settled_setConflict _ _ _ _).trans
      ((World.settled_setConflict _ _ _ _).trans (World.settled_setDiverge _ _ _ _)))

theorem World.settled_compareOf (w : World) (h : Half) (p : Nat → Bool) : w.Settled (w.compareOf h p) := by
  refine (World.Settled.refl w).foldl _ fun u x _ => ?_
  split
  · exact (u.settled_compare _ _ _).trans (.trans (World.settled_publish _ _ _) (World.settled_publish _ _ _))
  · exact .refl u

theorem World.settled_bindUpdated (w : World) (h : Half) (b : Nat) : w.Settled (w.bindUpdated h b) :=
  (w.settled_compareOf h _).trans (World.settled_publish _ _ _)

theorem World.rd_bindUpdated_quality (w : World) (h : Half) (b : Nat) :
    (w.bindUpdated h b).rd h F.UIN_BQ.QUALITY b = ((w.bindUpdated h b).bindSt h b).quality % 8 := World.rd_publish_quality _ _ _

/-- CONFLICT set or cleared of a binding. -/
theorem World.conflict_setConflict (w : World) (h : Half) (b : Nat) (on : Bool) : ((w.setConflict h b on).bindSt h b).conflict = on := by
  have hu := w.uin_setConflict h b on
  split at hu
  · next hc => rw [World.bindSt_congr hu, hc]
  · rw [World.bindSt_congr hu, World.markConflict, World.bindSt_updBind_same]

/-- CONFLICT stays where it is already what is set elsewhere. -/
theorem World.conflict_setConflict_of (w : World) (h g : Half) (b c : Nat) {on : Bool} (hon : (w.bindSt g c).conflict = on) :
    ((w.setConflict h b on).bindSt g c).conflict = on := by
  have hu := w.uin_setConflict h b on
  split at hu
  · rw [World.bindSt_congr hu, hon]
  · rw [World.bindSt_congr hu, World.markConflict, World.bindSt_updBind]
    split
    · rfl
    · exact hon

/-! The chain (R251, R254). -/

theorem BindSt.stuckStep_leaves (x : BindSt) (c : BindCfg) (expected edge : Bool) (now : Nat) :
    (x.stuckStep c expected edge now).acc = x.acc ∧ (x.stuckStep c expected edge now).stale = x.stale ∧
      (x.stuckStep c expected edge now).accAt = x.accAt ∧ (x.stuckStep c expected edge now).filt = x.filt := by
  unfold BindSt.stuckStep
  split <;> exact ⟨rfl, rfl, rfl, rfl⟩

/-- What an accepted value leaves. -/
theorem BindSt.accept_leaves (s : BindSt) (c : BindCfg) (x : Rat) (now : Nat) (expected edge : Bool) :
    (s.accept c x now expected edge).acc = x ∧ (s.accept c x now expected edge).stale = false ∧
      (s.accept c x now expected edge).accAt = now ∧ (c.filt = 0 → (s.accept c x now expected edge).filt = x) := by
  unfold BindSt.accept
  dsimp only
  obtain ⟨hacc, hstale, hat, hfilt⟩ := BindSt.stuckStep_leaves _ c expected edge now
  exact ⟨hacc, hstale, hat, fun h0 => hfilt.trans (if_pos h0)⟩

/-- A value that is not rejected enters the chain. -/
theorem World.uin_chain {w : World} {srv h : Half} {b : Nat} {x : Rat} (edge : Bool)
    (hs : (w.bindSt h b).slewed (w.bindCfg b) x w.now = false) : (w.chain srv h b x edge).uin =
      (w.updBind h b fun s => s.accept (w.bindCfg b) x w.now (w.expected srv (w.bindCfg b)) edge).uin := by
  unfold World.chain
  dsimp only
  rw [hs, if_neg Bool.false_ne_true, World.apply_when World.uin, World.wr_uin, World.wr_uin, ite_self]

end Sys2Proof.Machine
end

section
/-!
SUPPORT. R250–R258: a condition of a binding, a pair's timer, and the supply of a binding.
-/
namespace Sys2Proof.Machine

/-- A binding changed and updated: of its state, what comparisons and publications leave. -/
theorem World.field_bindUpdated {β : Type} (p : BindSt → β) (hp : ∀ x, p x.core = p x) (w : World) (h : Half) (b : Nat) (u : BindSt → BindSt) :
    p (((w.updBind h b u).bindUpdated h b).bindSt h b) = p (u (w.bindSt h b)) := by
  rw [((w.updBind h b u).settled_bindUpdated h b).field p hp, World.bindSt_updBind_same]

theorem BindSt.quality_of_fault {x : BindSt} (hx : x.fault ≠ 0) : x.quality = 6 := if_pos hx

theorem exec_qualityConditionTimer {h : Half} {b : Nat} (q reason : Nat) (on : Bool) {s : State} (hb : b < s.w.uin.cfg.binds.length)
    (hs : (s.w.bindCfg b).src ≠ 0) : exec (.qualityConditionTimer h b q reason on) s = .next { s with
      w := (s.w.updBind h b fun x => x.setCond q reason on).bindUpdated h b } := by
  change execQualityConditionTimer h b q reason on s = _
  rw [execQualityConditionTimer, lift, decide_eq_false (Nat.not_le.mpr hb), decide_eq_false hs]
  rfl

theorem BindSt.setCond_stale (x : BindSt) (reason : Nat) (on : Bool) : (x.setCond 1 reason on).stale = (on || x.stale) := by
  cases on <;> rfl

/-- A pair's timer at its end sets CONFLICT of both as it ran for. -/
theorem World.twinTime_ends {w : World} {h : Half} {k at_ : Nat} {p : TwinCfg} {div : Bool} (hp : w.uin.cfg.twins[k]? = some p)
    (hat : NMap.get (0, false) w.uin.twinAt (w.twinKey h k p) = (at_, div)) (h0 : at_ ≠ 0) (ht : at_ + p.time * 1000000 ≤ w.now + 1) :
    ((w.twinTime h k div).bindSt h p.a).conflict = div ∧ ((w.twinTime h k div).bindSt h p.b).conflict = div := by
  have hrun : w.twinTime h k div = (((w.setConflict h p.a div).setConflict h p.b div).publish h p.a).publish h p.b := by
    unfold World.twinTime
    rw [hp]
    dsimp only
    rw [hat, if_pos]
    simp only [ne_eq, decide_not, Bool.and_eq_true, Bool.not_eq_true', decide_eq_false_iff_not, decide_eq_true_eq]
    exact ⟨⟨h0, trivial⟩, ht⟩
  rw [hrun]
  simp only [World.conflict_publish]
  exact ⟨World.conflict_setConflict_of _ _ _ _ _ (World.conflict_setConflict _ _ _ _), World.conflict_setConflict _ _ _ _⟩

/-- A pair's timer that has not run for TIME. -/
theorem World.twinTime_early {w : World} {h : Half} {k at_ : Nat} {p : TwinCfg} {div : Bool} (d : Bool) (hp : w.uin.cfg.twins[k]? = some p)
    (hat : NMap.get (0, false) w.uin.twinAt (w.twinKey h k p) = (at_, div)) (ht : w.now + 1 < at_ + p.time * 1000000) :
    w.twinTime h k d = w := by
  unfold World.twinTime
  rw [hp]
  dsimp only
  rw [hat, if_neg]
  simp only [Bool.and_eq_true, decide_eq_true_eq, not_and]
  exact fun _ => Nat.not_le.mpr ht

/-! Supplies (R250, R252). -/

@[simp] theorem World.rd_updSupply (w : World) (n : Nat) (f : Supply → Supply) (h : Half) (g : Field) (i : Nat) :
    (w.updSupply n f).rd h g i = w.rd h g i := (rfl)

@[simp] theorem World.supplySt_updSupply (w : World) (n : Nat) (f : Supply → Supply) : (w.updSupply n f).supplySt n = f (w.supplySt n) :=
  NMap.get_set_same _ _ _ _

theorem World.supplySt_congr {w v : World} (hv : w.uin = v.uin) (n : Nat) : w.supplySt n = v.supplySt n := by
  rw [World.supplySt, World.supplySt, hv]

/-- FAULT with reason SUPPLY of one binding. -/
def World.supplyLost (w : World) (b : Nat) : World := (w.updBind .A b fun s => { s with fault := 3 }).bindUpdated .A b

theorem World.supplyFault_eq (w : World) (n : Nat) : w.supplyFault n =
    w.uin.cfg.binds.zipIdx.foldl (fun w x => if x.1.supply = n && x.1.src ≠ 0 then w.supplyLost x.2 else w) w := (rfl)

theorem World.still_supplyLost (w : World) (b : Nat) : (w.supplyLost b).uin.still = w.uin.still :=
  (World.settled_bindUpdated _ _ _).1.trans rfl

theorem World.fault_supplyLost (w : World) (b : Nat) : ((w.supplyLost b).bindSt .A b).fault = 3 := w.field_bindUpdated BindSt.fault (fun _ => rfl) .A b _

/-- A binding whose FAULT is SUPPLY keeps it when another's is set. -/
theorem World.fault_supplyLost_of {w : World} {c : Nat} (hc : (w.bindSt .A c).fault = 3) (b : Nat) : ((w.supplyLost b).bindSt .A c).fault = 3 := by
  rw [World.supplyLost, (World.settled_bindUpdated _ _ _).field BindSt.fault fun _ => rfl, World.bindSt_updBind]
  split
  · rfl
  · exact hc

theorem World.still_supplyFault (w : World) (n : Nat) : (w.supplyFault n).uin.still = w.uin.still := by
  rw [World.supplyFault_eq]
  refine World.forAll_keeps (fun u : World => u.uin.still)
    (f := fun (w : World) (x : BindCfg × Nat) => if x.1.supply = n && x.1.src ≠ 0 then w.supplyLost x.2 else w) (fun u x => ?_) _ w
  split
  · exact u.still_supplyLost _
  · rfl

/-- Every binding of the supply goes into FAULT with reason SUPPLY. -/
theorem World.fault_supplyFault {w : World} {n b : Nat} (hb : b < w.uin.cfg.binds.length) (hn : (w.bindCfg b).supply = n)
    (hs : (w.bindCfg b).src ≠ 0) : ((w.supplyFault n).bindSt .A b).fault = 3 := by
  have hcfg : w.bindCfg b = w.uin.cfg.binds[b] := by simp [World.bindCfg, hb]
  have hmem : (w.bindCfg b, b) ∈ w.uin.cfg.binds.zipIdx := by
    rw [hcfg, List.mem_zipIdx_iff_getElem?]
    exact List.getElem?_eq_getElem hb
  obtain ⟨l, r, hl⟩ := List.append_of_mem hmem
  rw [World.supplyFault_eq, hl, List.foldl_append, List.foldl_cons, if_pos (by simp [hn, hs])]
  clear hl
  generalize l.foldl _ w = u
  have hstart := u.fault_supplyLost b
  revert hstart
  generalize u.supplyLost b = v
  induction r generalizing v with
  | nil => exact id
  | cons x r ih =>
    intro hv
    rw [List.foldl_cons]
    refine ih _ ?_
    split
    · exact World.fault_supplyLost_of hv _
    · exact hv

end Sys2Proof.Machine

open Sys2Proof Sys2Proof.Machine

/-- Settles O34: a condition is set in the binding's chain before its comparison and publication, which leave it; a pair's timer sets
CONFLICT of both bindings. -/
theorem bindingQuality : Obligations.bindingQuality := by
  unfold Obligations.bindingQuality
  refine ⟨?fault, ?conds, ?beyond, ?stuck, ?stuckNot, ?diverged, ?agreed, ?early, ?external, ?externalNot⟩
  case fault =>
    intro h b reason s hb hs hr
    have hexec := exec_qualityConditionTimer (h := h) 6 reason true hb hs
    have hfault := s.w.field_bindUpdated BindSt.fault (fun _ => rfl) h b fun x => x.setCond 6 reason true
    refine .of_exec hexec ⟨hfault, ?_, exec_quiet hexec rfl⟩
    rw [World.rd_bindUpdated_quality, BindSt.quality_of_fault (hfault.trans_ne hr)]
  case conds =>
    intro h b q reason on s hb hs
    have hexec := exec_qualityConditionTimer (h := h) q reason on hb hs
    refine .of_exec hexec ⟨?_, ?_, ?_, ?_, World.rd_bindUpdated_quality _ _ _, exec_quiet hexec rfl⟩
    · rintro rfl
      exact s.w.field_bindUpdated BindSt.fault (fun _ => rfl) h b _
    · rintro rfl
      exact s.w.field_bindUpdated BindSt.outRange (fun _ => rfl) h b _
    · rintro rfl
      exact s.w.field_bindUpdated BindSt.chatter (fun _ => rfl) h b _
    · rintro rfl
      exact (s.w.field_bindUpdated BindSt.stale (fun _ => rfl) h b _).trans (BindSt.setCond_stale _ _ _)
  case beyond =>
    intro h b q reason on s hb
    refine .of_exec (t := s) ?_ rfl
    change execQualityConditionTimer h b q reason on s = _
    rw [execQualityConditionTimer, lift, decide_eq_true hb]
    rfl
  case stuck =>
    intro h b s hs ht hclk
    have hexec : exec (.stuckTimeout h b) s = .next { s with
        w := (s.w.updBind h b fun x => { x with stuck := true }).bindUpdated h b } := by
      change execStuckTimeout h b s = _
      have hrun : (s.w.bindCfg b).tStuck * 100 * ms ≤ (if s.w.expected s.srv (s.w.bindCfg b) then
          (s.w.bindSt h b).stuckClk + (s.w.now - (s.w.bindSt h b).clkAt) else (s.w.bindSt h b).stuckClk) := by
        have hms : (s.w.bindCfg b).tStuck * 100 * ms = (s.w.bindCfg b).tStuck * 100000000 := Nat.mul_assoc _ _ _
        rw [hms]
        split <;> omega
      unfold execStuckTimeout lift
      dsimp only
      rw [decide_eq_true hs, decide_eq_true ht, decide_eq_true hrun]
      rfl
    exact .of_exec hexec ⟨s.w.field_bindUpdated BindSt.stuck (fun _ => rfl) h b _, World.rd_bindUpdated_quality _ _ _, exec_quiet hexec rfl⟩
  case stuckNot =>
    intro h b s hnot
    refine .of_exec (t := s) ?_ rfl
    change execStuckTimeout h b s = _
    unfold execStuckTimeout lift
    dsimp only
    obtain h0 | ⟨hexp, hclk⟩ := hnot
    · rw [h0]
      simp
    · have hrun : ¬ (s.w.bindCfg b).tStuck * 100 * ms ≤ (s.w.bindSt h b).stuckClk := by
        have hms : (s.w.bindCfg b).tStuck * 100 * ms = (s.w.bindCfg b).tStuck * 100000000 := Nat.mul_assoc _ _ _
        omega
      rw [hexp, if_neg Bool.false_ne_true, decide_eq_false hrun, Bool.and_false, World.when_false]
  case diverged =>
    intro h k p at_ s hp hat h0 ht
    have hexec : exec (.twinDivergenceTimeout h k) s = .next { s with w := s.w.twinTime h k true } := rfl
    obtain ⟨ha, hb⟩ := World.twinTime_ends hp hat h0 ht
    exact .of_exec hexec ⟨ha, hb, exec_quiet hexec rfl⟩
  case agreed =>
    intro h k p at_ s hp hat h0 ht
    have hexec : exec (.twinAgreementTimeout h k) s = .next { s with w := s.w.twinTime h k false } := rfl
    obtain ⟨ha, hb⟩ := World.twinTime_ends hp hat h0 ht
    exact .of_exec hexec ⟨ha, hb, exec_quiet hexec rfl⟩
  case early =>
    intro h k p at_ div s hp hat ht
    refine .of_exec (t := s) ?_ rfl
    change execTwinDivergenceTimeout h k s = _
    rw [execTwinDivergenceTimeout, lift, World.twinTime_early true hp hat ht]
  case external =>
    intro h b v s hs hslew
    have hexec : exec (.externalBindingWrite h b v) s = .next { s with w := (s.w.chain s.srv h b (f32Val v) false).bindUpdated h b } := by
      change execExternalBindingWrite h b v s = _
      rw [execExternalBindingWrite, lift, World.externalWrite, if_pos hs]
    have hfield {β : Type} (p : BindSt → β) (hp : ∀ x, p x.core = p x) :
        p (((s.w.chain s.srv h b (f32Val v) false).bindUpdated h b).bindSt h b) =
          p ((s.w.bindSt h b).accept (s.w.bindCfg b) (f32Val v) s.w.now (s.w.expected s.srv (s.w.bindCfg b)) false) := by
      rw [(World.settled_bindUpdated _ _ _).field p hp, World.bindSt_congr (World.uin_chain false hslew), World.bindSt_updBind_same]
    obtain ⟨hacc, hstale, hat, -⟩ := (s.w.bindSt h b).accept_leaves (s.w.bindCfg b) (f32Val v) s.w.now
      (s.w.expected s.srv (s.w.bindCfg b)) false
    exact .of_exec hexec ⟨(hfield BindSt.acc fun _ => rfl).trans hacc, (hfield BindSt.stale fun _ => rfl).trans hstale,
      (hfield BindSt.accAt fun _ => rfl).trans hat, exec_quiet hexec rfl⟩
  case externalNot =>
    intro h b v s hs
    refine .of_exec (t := s) ?_ rfl
    change execExternalBindingWrite h b v s = _
    rw [execExternalBindingWrite, lift, World.externalWrite, if_neg hs]

/-- The supply off after its current limit (R250). -/
def Sys2Proof.Machine.World.supplyOff (w : World) (n : Nat) : World :=
  ((((w.wr .A F.UIN_SS.FAULT n 1).wr .A F.UIN_SS.LIMIT n 0).wr .A F.UIN_SS.I n 0).updSupply n fun _ => ⟨w.now, false⟩).raiseBoth 135 (evArg n 0xFF 1)

/-- Settles O35: each branch of the supply's commands, and the bindings that a fault of it takes along. -/
theorem supplyFaults : Obligations.supplyFaults := by
  unfold Obligations.supplyFaults
  refine ⟨?trip, ?tripNot, ?retry, ?retryNot, ?enable⟩
  case trip =>
    intro n i s hen hlevel hfault hi
    have hexec : exec (.supplyLimitTrip n i) s = .next { s with w := (s.w.supplyOff n).supplyFault n } := by
      change execSupplyLimitTrip n i s = _
      rw [execSupplyLimitTrip, lift, World.flag_eq_true_iff.mpr hen, decide_eq_true hlevel, (World.flag_eq_false_iff rfl).mpr hfault,
        decide_eq_true hi]
      simp only [World.supplyOff, Bool.not_false, Bool.and_self, World.when_true, World.wr_now]
    have hrest : Rest [.evt, .uin, .reg 0x100018, .reg 0x700020, .reg 0x700024, .reg 0x700044, .reg 0x701000, .reg 0x701004]
        ((s.w.supplyOff n).supplyFault n) (s.w.supplyOff n) := World.supplyFault_rest (by decide) (Rest.refl _ _)
    have hrd (f : Field) (hf : outside [0x100018, 0x700020, 0x700024, 0x700044, 0x701000, 0x701004] f = true) (i : Nat) :
        ((s.w.supplyOff n).supplyFault n).rd .A f i = (s.w.supplyOff n).rd .A f i := hrest.rd_outside (by decide) hf .A i
    have hcfg : (s.w.supplyOff n).uin.cfg = s.w.uin.cfg := by
      rw [World.supplyOff, World.raiseBoth_uin, World.updSupply]
      simp
    refine .of_exec hexec ⟨?_, ?_, ?_, exec_quiet hexec rfl, fun b hb hn hs => ?_⟩
    · rw [hrd _ (by decide), World.supplyOff, World.rd_raiseBoth _ _ _ _ _ _ (by decide), World.rd_updSupply,
        World.rd_wr_apart _ _ _ _ _ _ _ _ (by decide), World.rd_wr_apart _ _ _ _ _ _ _ _ (by decide), World.rd_wr_same _ _ _ _ _ (by decide)]
      rfl
    · rw [hrd _ (by decide), World.supplyOff, World.rd_raiseBoth _ _ _ _ _ _ (by decide), World.rd_updSupply,
        World.rd_wr_same _ _ _ _ _ (by decide)]
      rfl
    · have hst : ((s.w.supplyOff n).supplyFault n).supplySt n = (s.w.supplyOff n).supplySt n :=
        show NMap.get {} ((s.w.supplyOff n).supplyFault n).uin.still.supply n = _ by rw [World.still_supplyFault]; rfl
      rw [hst, World.supplyOff, World.supplySt_congr (World.raiseBoth_uin _ _ _), World.supplySt_updSupply]
    · rw [← World.bindCfg_congr hcfg] at hn hs
      exact World.fault_supplyFault (hcfg ▸ hb) hn hs
  case tripNot =>
    intro n i s hnot
    refine .of_exec (t := s) ?_ rfl
    change execSupplyLimitTrip n i s = _
    rw [execSupplyLimitTrip, lift]
    obtain hi | hen := hnot
    · rw [decide_eq_false (Nat.not_le.mpr hi), Bool.and_false, World.when_false]
    · rw [(World.flag_eq_false_iff rfl).mpr hen, Bool.false_and, Bool.false_and, Bool.false_and, World.when_false]
  case retry =>
    intro n limited s hfault hretry hoff
    have hexec : exec (.supplyRetry n limited) s = .next { s with
        w := if limited then s.w.updSupply n (fun x => { x with offAt := s.w.now })
          else (s.w.wr .A F.UIN_SS.FAULT n 0).raiseBoth 135 (evArg n 0xFF 0) } := by
      change execSupplyRetry n limited s = _
      rw [execSupplyRetry, lift, World.flag_eq_true_iff.mpr hfault, hretry, show sec = 1000000000 from rfl, decide_eq_true hoff]
      rfl
    cases limited with
    | true =>
      rw [if_pos rfl] at hexec
      refine .of_exec hexec ⟨?_, fun _ => ?_, exec_quiet hexec rfl⟩
      · rw [World.rd_updSupply, hfault]
        rfl
      · rw [World.supplySt_updSupply]
    | false =>
      rw [if_neg Bool.false_ne_true] at hexec
      refine .of_exec hexec ⟨?_, nofun, exec_quiet hexec rfl⟩
      rw [World.rd_raiseBoth _ _ _ _ _ _ (by decide), World.rd_wr_same _ _ _ _ _ (by decide)]
      rfl
  case retryNot =>
    intro n limited s hnot
    refine .of_exec (t := s) ?_ rfl
    change execSupplyRetry n limited s = _
    rw [execSupplyRetry, lift, show sec = 1000000000 from rfl]
    obtain hr | hlt := hnot
    · rw [hr, Bool.and_false, Bool.false_and, World.when_false]
    · rw [decide_eq_false (Nat.not_le.mpr hlt), Bool.and_false, World.when_false]
  case enable =>
    intro h init en s n halive hsel howns
    obtain ⟨u, hu⟩ : ∃ u, s.w.wr .A F.UIN_SS.EN n (b2n en) = u := ⟨_, rfl⟩
    have hexec : exec (.supplyEnable h init en) s = .next { s with
        w := if en then u.when (u.flag .A F.UIN_SS.FAULT n && (u.supplySt n).seenOff) fun w =>
            (w.wr .A F.UIN_SS.FAULT n 0).raiseBoth 135 (evArg n 0xFF 0)
          else u.updSupply n fun x => { x with seenOff := true } } := by
      change execSupplyEnable h init en s = _
      rw [execSupplyEnable, World.sel, hsel, objU, gateObj_owned _ _ _ _ _ halive howns, ← hu]
      rfl
    have hen : u.rd .A F.UIN_SS.EN n = b2n en := by
      rw [← hu, World.rd_wr_same _ _ _ _ _ (by decide)]
      exact b2n_mod_two _
    have hfault : u.rd .A F.UIN_SS.FAULT n = s.w.rd .A F.UIN_SS.FAULT n := by rw [← hu, World.rd_wr_apart _ _ _ _ _ _ _ _ (by decide)]
    have hst : u.supplySt n = s.w.supplySt n := World.supplySt_congr (by rw [← hu, World.wr_uin]) n
    cases en with
    | false =>
      rw [if_neg Bool.false_ne_true] at hexec
      refine .of_exec hexec ⟨hen, fun _ => ?_, nofun, nofun, exec_quiet hexec rfl⟩
      rw [World.supplySt_updSupply]
    | true =>
      rw [if_pos rfl] at hexec
      refine .of_exec hexec ⟨?_, nofun, fun _ hoff => ?_, fun _ hoff => ?_, exec_quiet hexec rfl⟩
      · rw [World.rd_when, World.rd_raiseBoth _ _ _ _ _ _ (by decide), World.rd_wr_apart _ _ _ _ _ _ _ _ (by decide), ite_self, hen]
      · rw [World.rd_when, World.rd_raiseBoth _ _ _ _ _ _ (by decide), World.rd_wr_same _ _ _ _ _ (by decide), hst, hoff, Bool.and_true]
        split
        · rfl
        · next hno => exact (World.flag_eq_false_iff rfl).mp (by simpa using hno)
      · dsimp only
        rw [hst, hoff, Bool.and_false, World.when_false, hfault]
end

section
/-!
SUPPORT. R20, R245–R251: samples and edges of the inputs, and the writes of their owner.
-/
namespace Sys2Proof.Machine

/-! A write for a half that owns one object of a range (R20). -/

theorem gateAny_owned (s : State) {h : Half} (init : Nat) {a n : Nat} (k : Nat) (f : World → World) (ha : s.own.alive h = true)
    (ho : s.own.ownsAny h a n = true) : gateAny s h init a n k f = f s.w := by simp [gateAny, ha, ho]

theorem gateAny_refused (s : State) {h : Half} (init : Nat) {a n : Nat} (k : Nat) (f : World → World) (ha : s.own.alive h = true)
    (ho : s.own.ownsAny h a n = false) : gateAny s h init a n k f = s.w.violation h init k := by simp [gateAny, ha, ho]

/-! Comparators. -/

@[simp] theorem World.rd_updComp (w : World) (n : Nat) (u : Comp → Comp) (g : Half) (f : Field) (i : Nat) :
    (w.updComp n u).rd g f i = w.rd g f i := (rfl)
@[simp] theorem World.comp_updComp_same (w : World) (n : Nat) (u : Comp → Comp) : (w.updComp n u).comp n = u (w.comp n) :=
  NMap.get_set_same _ _ _ _
theorem World.comp_updComp_ne (w : World) {n m : Nat} (u : Comp → Comp) (hm : m ≠ n) : (w.updComp n u).comp m = w.comp m :=
  NMap.get_set_ne _ _ _ hm
@[simp] theorem World.comp_updBind (w : World) (h : Half) (b : Nat) (u : BindSt → BindSt) (n : Nat) : (w.updBind h b u).comp n = w.comp n := (rfl)
theorem World.comp_congr {w v : World} (hv : w.uin = v.uin) (n : Nat) : w.comp n = v.comp n := by rw [World.comp, World.comp, hv]

/-! A count of a quadrature pair (R249). -/

theorem World.rd_quadCount (w : World) (n : Nat) (d : Int) :
    (w.quadCount n d).rd .A F.UIN_COUNT.COUNT n = toTwos 32 (w.rdI .A F.UIN_COUNT.COUNT n + d) ∧
      (w.quadCount n d).rd .A F.UIN_COUNT.COUNT (n + 1) = (w.quadCount n d).rd .A F.UIN_COUNT.COUNT n := by
  have hlow : (w.quadCount n d).rd .A F.UIN_COUNT.COUNT n = toTwos 32 (w.rdI .A F.UIN_COUNT.COUNT n + d) := by
    rw [World.quadCount, World.wrI, World.rd_wr_idx _ _ _ _ _ _ (by decide) (by decide) (Nat.ne_of_lt (Nat.lt_succ_self n)),
      World.rd_wrI_same _ _ _ _ _ (by decide)]
  refine ⟨hlow, ?_⟩
  rw [hlow, World.quadCount, World.rd_wrI_same _ _ _ _ _ (by decide)]

theorem World.uin_quadCount (w : World) (n : Nat) (d : Int) : (w.quadCount n d).uin = w.uin := by
  simp only [World.quadCount, World.wrI, World.wr_uin]

/-- An edge taken by the comparator and by the chain of its binding. -/
def World.edgeTaken (w : World) (srv : Half) (n b : Nat) (level : Bool) : World :=
  let c := w.bindCfg b
  let w := w.updComp n fun k =>
    let k := { k with level := level, edgeAt := w.now }
    if level then { k with
      rises := w.now :: k.rises.filter (fun t => w.now - sec ≤ t), rise := w.now
      period := if k.rise = 0 then 0 else w.now - k.rise, high := k.fall - k.rise }
    else { k with fall := w.now }
  let w := w.updBind .A b fun s => if 6 ≤ c.mode || c.src = 2 then { s with edges := w.now :: s.edges } else s
  w.updBind .A b fun s => s.stuckStep c (w.expected srv c) true w.now

theorem World.rd_edgeTaken (w : World) (srv : Half) (n b : Nat) (level : Bool) (h : Half) (f : Field) (i : Nat) :
    (w.edgeTaken srv n b level).rd h f i = w.rd h f i := by
  unfold World.edgeTaken
  rw [World.rd_updBind, World.rd_updBind, World.rd_updComp]

theorem World.rdI_edgeTaken (w : World) (srv : Half) (n b : Nat) (level : Bool) (h : Half) (f : Field) (i : Nat) :
    (w.edgeTaken srv n b level).rdI h f i = w.rdI h f i := by rw [World.rdI, World.rdI, World.rd_edgeTaken]

theorem World.comp_edgeTaken_ne (w : World) (srv : Half) {n m : Nat} (b : Nat) (level : Bool) (hm : m ≠ n) :
    (w.edgeTaken srv n b level).comp m = w.comp m := by
  unfold World.edgeTaken
  rw [World.comp_updBind, World.comp_updBind, World.comp_updComp_ne _ _ hm]

theorem World.level_edgeTaken (w : World) (srv : Half) (n b : Nat) (level : Bool) : ((w.edgeTaken srv n b level).comp n).level = level := by
  unfold World.edgeTaken
  rw [World.comp_updBind, World.comp_updBind, World.comp_updComp_same]
  cases level <;> rfl

theorem World.rise_edgeTaken (w : World) (srv : Half) (n b : Nat) : ((w.edgeTaken srv n b true).comp n).rise = w.now ∧
    ((w.edgeTaken srv n b true).comp n).period = if (w.comp n).rise = 0 then 0 else w.now - (w.comp n).rise := by
  unfold World.edgeTaken
  rw [World.comp_updBind, World.comp_updBind, World.comp_updComp_same]
  exact ⟨rfl, rfl⟩

theorem World.regsBut_edgeTaken (w : World) (srv : Half) (n b : Nat) (level : Bool) : World.RegsBut [] w (w.edgeTaken srv n b level) :=
  Rest.regsBut (q := [.uin])
    (World.updBind_rest (by decide) (World.updBind_rest (by decide) (World.updComp_rest (by decide) (Rest.refl _ w)))) (by decide)

/-- Whether an edge of input `n`, of the pair from `even`, counts up. -/
def World.countsUp (w : World) (even n : Nat) (level : Bool) : Bool :=
  if n = even then level != (w.comp (even + 1)).level else level = (w.comp even).level

/-- An edge of an input of binding `b`: taken, and counted where the binding is a quadrature pair. -/
def World.edgeCounted (w : World) (srv : Half) (n b : Nat) (level both : Bool) : World :=
  let u := w.edgeTaken srv n b level
  let even := (w.bindCfg b).obj - 144
  if (w.bindCfg b).src = 2 then
    if both then (u.updComp (if n = even then even + 1 else even) fun k => { k with level := !k.level }).quadError even b
    else u.quadCount even (if w.countsUp even n level then 1 else -1)
  else u

/-- An edge of an input that a binding names. -/
theorem exec_inputEdge {n b : Nat} (level both : Bool) {s : State} (hb : s.w.inputBinding n = some b) :
    exec (.inputEdge n level both) s = .next { s with w := s.w.edgeCounted s.srv n b level both } := by
  change execInputEdge n level both s = _
  unfold execInputEdge lift
  dsimp only
  rw [hb]
  rfl

/-! A sample through the chain of an analogue input (R246, R251). -/

/-- The wire's range is checked of the modes MA20 and RES alone. -/
theorem wireReason_volts {mode : Nat} (hm : mode ≤ 2) (x : Rat) : wireReason mode x = 0 := by
  interval_cases mode <;> rfl

/-- The state of the binding before the chain's step 3: its edges in the chatter window, and CHATTER. -/
def World.edgesKept (w : World) (b : Nat) (c : BindCfg) : World :=
  let w := w.updBind .A b fun s => { s with edges := s.edges.filter (fun t => w.now - 100 * ms ≤ t) }
  w.updBind .A b fun s => { s with
    chatter := s.chatter || (c.fMax ≠ 0 && (2 / 10) * c.fMax < (s.edges.length : Rat)) }

theorem World.sampleInput_volts {w : World} {led : Memory} {srv : Half} {codes vs : List Nat} {b : Nat} {c : BindCfg} {n : Nat}
    (hsrc : c.src = 1) (hmode : c.mode ≤ 2) (hobj : c.obj = 144 + n) (hratio : c.ratio = false) :
    w.sampleInput led srv codes vs b c =
      (w.edgesKept b c).chain srv .A b (c.gain * reading led n c.mode (codes.getD n 0) + c.ofs) false := by
  have hn : c.obj - 144 = n := by omega
  have h2 : decide (c.src = 2) = false := by simp [hsrc]
  have h5 : decide (5 ≤ c.mode) = false := decide_eq_false (by omega)
  have hne (k : Nat) (hk : 2 < k) : decide (c.mode = k) = false := decide_eq_false (by omega)
  unfold World.sampleInput World.edgesKept
  dsimp only
  simp only [hn, h2, h5, hratio, hne 7 (by decide), hne 5 (by decide), hne 6 (by decide), wireReason_volts hmode, World.when_false,
    Bool.or_self, Bool.false_and, Bool.false_eq_true, if_false, Bool.not_false, Bool.true_or, Bool.not_true, ne_eq, not_true_eq_false,
    decide_false, Bool.and_false]

/-- The value of the reading in the chain's state. -/
theorem World.sampleInput_leaves {w : World} {led : Memory} {srv : Half} {codes vs : List Nat} {b : Nat} {c : BindCfg} {n : Nat}
    (hsrc : c.src = 1) (hmode : c.mode ≤ 2) (hobj : c.obj = 144 + n) (hratio : c.ratio = false) (hslew : c.slew = 0)
    (hcfg : w.bindCfg b = c) :
    let x := c.gain * reading led n c.mode (codes.getD n 0) + c.ofs
    let t := (w.sampleInput led srv codes vs b c).bindSt .A b
    t.acc = x ∧ t.stale = false ∧ (c.filt = 0 → t.filt = x) := by
  intro x t
  have hcfg' : (w.edgesKept b c).bindCfg b = c := hcfg
  have hsl : ((w.edgesKept b c).bindSt .A b).slewed ((w.edgesKept b c).bindCfg b) x (w.edgesKept b c).now = false := by
    rw [hcfg', BindSt.slewed, hslew]
    rfl
  have ht : t = ((w.edgesKept b c).bindSt .A b).accept c x (w.edgesKept b c).now ((w.edgesKept b c).expected srv c) false := by
    change (w.sampleInput led srv codes vs b c).bindSt .A b = _
    rw [World.sampleInput_volts hsrc hmode hobj hratio, World.bindSt_congr (World.uin_chain false hsl), World.bindSt_updBind_same, hcfg']
  obtain ⟨hacc, hstale, -, hfilt⟩ := BindSt.accept_leaves ((w.edgesKept b c).bindSt .A b) c x (w.edgesKept b c).now
    ((w.edgesKept b c).expected srv c) false
  rw [ht]
  exact ⟨hacc, hstale, hfilt⟩

/-! All inputs sampled (R245). -/

/-- The conversions of all inputs. -/
def World.rawCodes (w : World) (codes : List Nat) : World := w.forAll (List.range 128) fun w n => w.wr .A F.UIN_RAW.CODE n (codes.getD n 0)

theorem World.rd_rawCodes (w : World) (codes : List Nat) {n : Nat} (hn : n < 128) :
    (w.rawCodes codes).rd .A F.UIN_RAW.CODE n = codes.getD n 0 % 65536 := by
  refine (World.forAll_at (f := fun w n => w.wr .A F.UIN_RAW.CODE n (codes.getD n 0)) (fun u n => u.rd .A F.UIN_RAW.CODE n) id
    (fun _ a => codes.getD a 0 % 65536) (fun u a => ?_) (fun u a j hj => ?_) (l := List.range 128) ?_ w).1 n (List.mem_range.mpr hn)
  · exact World.rd_wr_same _ _ _ _ _ (by decide)
  · exact World.rd_wr_idx _ _ _ _ _ _ (by decide) (by decide) hj
  · rw [List.map_id]
    exact List.nodup_range

theorem World.uin_rawCodes (w : World) (codes : List Nat) : (w.rawCodes codes).uin = w.uin :=
  World.forAll_keeps World.uin (f := fun w n => w.wr .A F.UIN_RAW.CODE n (codes.getD n 0)) (fun u n => u.wr_uin .A _ _ _) _ w

/-- The samples of all inputs through their chains. -/
def World.sampleAll (w : World) (led : Memory) (srv : Half) (codes vs : List Nat) : World :=
  w.uin.cfg.binds.zipIdx.foldl (fun w x => if x.1.src = 1 || x.1.src = 2 then w.sampleInput led srv codes vs x.2 x.1 else w) w

/-- The bindings of inputs compared and published. -/
def World.publishAll (w : World) (own : Nat → Bool) : World :=
  (w.compareOf .A own).uin.cfg.binds.zipIdx.foldl (fun w x => if x.1.src = 1 || x.1.src = 2 then w.publish .A x.2 else w) (w.compareOf .A own)

theorem World.settled_publishAll (w : World) (own : Nat → Bool) : w.Settled (w.publishAll own) := by
  refine (w.settled_compareOf .A own).foldl _ fun u x _ => ?_
  split
  · exact u.settled_publish _ _
  · exact .refl u

theorem World.rest_sampled (w : World) (led : Memory) (srv : Half) (codes vs : List Nat) (own : Nat → Bool) :
    Rest [.evt, .uin, .reg 0x100018, .reg 0x700020, .reg 0x700024, .reg 0x70002C, .reg 0x700030, .reg 0x700034, .reg 0x700044,
      .reg 0x701000, .reg 0x701004] ((w.sampleAll led srv codes vs).publishAll own) w := by
  have hall : Rest [.evt, .uin, .reg 0x100018, .reg 0x700020, .reg 0x700024, .reg 0x70002C, .reg 0x700030, .reg 0x700034, .reg 0x700044,
      .reg 0x701000, .reg 0x701004] (w.sampleAll led srv codes vs) w := by
    refine Rest.foldl (Rest.refl _ w) fun u x e => ?_
    split
    · exact World.sampleInput_rest (by decide) e
    · exact e
  refine Rest.foldl (World.compareOf_rest (by decide) hall) fun u x e => ?_
  split
  · exact World.publish_rest (by decide) e
  · exact e

theorem exec_inputSample (codes vs : List Nat) {s : State} (hen : s.w.rd .A F.UIN_CTRL.SAMPLE_EN = 1) : ∃ own,
    exec (.inputSample codes vs) s = .next { s with
      w := ((s.w.rawCodes codes).sampleAll s.ledger s.srv codes vs).publishAll own } := by
  refine ⟨fun b => ((s.w.rawCodes codes).bindCfg b).src = 1 || ((s.w.rawCodes codes).bindCfg b).src = 2, ?_⟩
  change execInputSample codes vs s = _
  unfold execInputSample lift
  dsimp only
  rw [World.flag_eq_true_iff.mpr hen]
  rfl

/-! The writes of an input's owner. -/

theorem inputWrite_owned {s : State} {h : Half} {init n : Nat} (f : Nat → World → World) (halive : s.own.alive h = true)
    (hsel : s.w.rd h F.UIN_SEL.CH init = n) (howns : s.own.owns h (144 + n) = true) : inputWrite s h init f = .next { s with w := f n s.w } := by
  rw [inputWrite, World.sel, hsel, objU, gateObj_owned _ _ _ _ _ halive howns, putW]

theorem inputWrite_refused {s : State} {h : Half} {init n : Nat} (f : Nat → World → World) (halive : s.own.alive h = true)
    (hsel : s.w.rd h F.UIN_SEL.CH init = n) (howns : s.own.owns h (144 + n) = false) :
    inputWrite s h init f = .next { s with w := s.w.violation h init (144 + n) } := by
  rw [inputWrite, World.sel, hsel, objU, gateObj_refused _ _ _ _ _ halive howns, putW]

/-- A chain cleared by a Knock (R255). -/
def BindSt.knocked (x : BindSt) (now : Nat) : BindSt := { x with
  stale := true, fresh := true, med := [], outRun := 0, inRun := 0, outRange := false, chatter := false, edges := []
  stuck := false, stuckClk := 0, stuckFrom := x.filt, clkAt := now }

theorem World.knockInput_eq {w : World} {n b : Nat} (hb : w.inputBinding n = some b) :
    w.knockInput n = (w.updBind .A b fun x => x.knocked w.now).bindUpdated .A b := by
  unfold World.knockInput
  rw [hb]
  rfl

/-- A pair's preset loaded into its count (R249). -/
def World.presetPair (w : World) (n : Nat) : World :=
  (w.wr .A F.UIN_COUNT.COUNT (n - n % 2) (w.rd .A F.UIN_PRESET.COUNT (n - n % 2))).wr .A F.UIN_COUNT.COUNT (n - n % 2 + 1)
    (w.rd .A F.UIN_PRESET.COUNT (n - n % 2))

theorem World.presetPair_leaves (w : World) (n : Nat) :
    (w.presetPair n).rd .A F.UIN_COUNT.COUNT (n - n % 2) = w.rd .A F.UIN_PRESET.COUNT (n - n % 2) ∧
      (w.presetPair n).rd .A F.UIN_COUNT.COUNT (n - n % 2 + 1) = w.rd .A F.UIN_PRESET.COUNT (n - n % 2) ∧
      World.RegsBut [F.UIN_COUNT.COUNT.reg] w (w.presetPair n) ∧ (w.presetPair n).uin = w.uin := by
  have hlt : w.rd .A F.UIN_PRESET.COUNT (n - n % 2) < 2 ^ 32 := w.rd_lt _ _ _
  refine ⟨?_, ?_, ?_, ?_⟩
  · rw [World.presetPair, World.rd_wr_idx _ _ _ _ _ _ (by decide) (by decide) (by omega), World.rd_wr_same _ _ _ _ _ (by decide)]
    exact Nat.mod_eq_of_lt hlt
  · rw [World.presetPair, World.rd_wr_same _ _ _ _ _ (by decide)]
    exact Nat.mod_eq_of_lt hlt
  · exact (Rest.wr (q := [.reg F.UIN_COUNT.COUNT.reg]) _ _ _ _ (by decide) (Rest.wr _ _ _ _ (by decide) (Rest.refl _ w))).regsBut (by decide)
  · rw [World.presetPair, World.wr_uin, World.wr_uin]

/-- The counters of all inputs cleared. -/
def World.clearInputCounts (w : World) : World := w.forAll (List.range 128) fun w n => w.setReg .A F.UIN_CNT.QERR n 0

theorem World.clearInputCounts_leaves (w : World) : (∀ n, n < 128 → w.clearInputCounts.reg .A F.UIN_CNT.QERR n = 0) ∧
    World.RegsBut [F.UIN_CNT.QERR.reg] w w.clearInputCounts ∧ w.clearInputCounts.uin = w.uin := by
  refine ⟨fun n hn => ?_, ?_, ?_⟩
  · refine (World.forAll_at (f := fun w n => w.setReg .A F.UIN_CNT.QERR n 0) (fun u n => u.reg .A F.UIN_CNT.QERR n) id
      (fun _ _ => 0) (fun u a => ?_) (fun u a j hj => ?_) (l := List.range 128) ?_ w).1 n (List.mem_range.mpr hn)
    · exact World.reg_setReg_same _ _ _ _ _
    · exact World.reg_setReg_ne _ _ _ _ _ _ _ _ fun hk => hj (fieldKey_inj (by decide) (by decide) hk).1
    · rw [List.map_id]
      exact List.nodup_range
  · exact (Rest.forAll (q := [.reg F.UIN_CNT.QERR.reg]) (f := fun w n => w.setReg .A F.UIN_CNT.QERR n 0) (Rest.refl _ w) fun u _ e =>
      Rest.setReg _ _ _ _ (by decide) e).regsBut (by decide)
  · exact World.forAll_keeps World.uin (f := fun w n => w.setReg .A F.UIN_CNT.QERR n 0) (fun u n => u.setReg_uin .A _ _ _) _ w

end Sys2Proof.Machine
end

section
open Sys2Proof Sys2Proof.Machine

/-- Settles O33: a sample goes through the chain before its comparison and publication, which leave it; an edge and the owner's writes
leave what their lemmas say. -/
theorem inputsSample : Obligations.inputsSample := by
  unfold Obligations.inputsSample
  refine ⟨?raw, ?volts, ?off, ?rising, ?even, ?odd, ?both, ?unbound, ?knock, ?preset, ?clear, ?foreign⟩
  case raw =>
    intro codes vs s hen
    obtain ⟨own, hexec⟩ := exec_inputSample codes vs hen
    refine .of_exec hexec fun n hn => ?_
    exact ((World.rest_sampled _ _ _ _ _ _).rd_outside
      (ks := [0x100018, 0x700020, 0x700024, 0x70002C, 0x700030, 0x700034, 0x700044, 0x701000, 0x701004]) (by decide) (by decide) .A n).trans
      (s.w.rd_rawCodes codes hn)
  case volts =>
    intro codes vs s c n hen hc hsrc hmode hobj hratio hslew
    obtain ⟨own, hexec⟩ := exec_inputSample codes vs hen
    obtain ⟨v, hv⟩ : ∃ v, s.w.rawCodes codes = v := ⟨_, rfl⟩
    rw [hv] at hexec
    have hbinds : v.uin.cfg.binds = [c] := by rw [← hv, World.uin_rawCodes, hc]
    have hcfg : v.bindCfg 0 = c := by rw [World.bindCfg, hbinds]; rfl
    have hall : v.sampleAll s.ledger s.srv codes vs = v.sampleInput s.ledger s.srv codes vs 0 c := by
      rw [World.sampleAll, hbinds]
      exact if_pos (by simp [hsrc])
    obtain ⟨hacc, hstale, hfilt⟩ := World.sampleInput_leaves (led := s.ledger) (srv := s.srv) (codes := codes) (vs := vs) hsrc hmode hobj hratio
      hslew hcfg
    rw [← hall] at hacc hstale hfilt
    have hset := (v.sampleAll s.ledger s.srv codes vs).settled_publishAll own
    exact .of_exec hexec ⟨(hset.field BindSt.acc (fun _ => rfl) .A 0).trans hacc, (hset.field BindSt.stale (fun _ => rfl) .A 0).trans hstale,
      fun h0 => (hset.field BindSt.filt (fun _ => rfl) .A 0).trans (hfilt h0), exec_quiet hexec rfl⟩
  case off =>
    intro codes vs s hen
    refine .of_exec (t := s) ?_ rfl
    change execInputSample codes vs s = _
    unfold execInputSample lift
    dsimp only
    rw [(World.flag_eq_false_iff rfl).mpr hen]
    rfl
  case rising =>
    intro n b s hb hsrc
    have hexec := exec_inputEdge true false hb
    rw [World.edgeCounted, if_neg (by rw [hsrc]; decide)] at hexec
    obtain ⟨hrise, hperiod⟩ := s.w.rise_edgeTaken s.srv n b
    exact .of_exec hexec ⟨s.w.level_edgeTaken _ _ _ _, hrise, hperiod, fun m hm => s.w.comp_edgeTaken_ne _ _ _ hm,
      s.w.regsBut_edgeTaken _ _ _ _, exec_quiet hexec rfl⟩
  case even =>
    intro n b level s hb hsrc hobj
    have hexec := exec_inputEdge level false hb
    have heven : (s.w.bindCfg b).obj - 144 = n := by omega
    obtain ⟨u, hu⟩ : ∃ u, s.w.edgeTaken s.srv n b level = u := ⟨_, rfl⟩
    have hup : (if s.w.countsUp n n level then (1 : Int) else -1) = if level = (s.w.comp (n + 1)).level then -1 else 1 := by
      rw [World.countsUp, if_pos rfl]
      cases level <;> cases (s.w.comp (n + 1)).level <;> rfl
    rw [World.edgeCounted, if_pos hsrc, if_neg Bool.false_ne_true, heven, hu, hup] at hexec
    obtain ⟨hcount, hpair⟩ := u.rd_quadCount n (if level = (s.w.comp (n + 1)).level then -1 else 1)
    refine .of_exec hexec ⟨?_, hpair, ?_, exec_quiet hexec rfl⟩
    · rw [hcount, ← hu, World.rdI_edgeTaken]
    · rw [World.comp_congr (World.uin_quadCount _ _ _), ← hu, World.level_edgeTaken]
  case odd =>
    intro n b level s hb hsrc hobj
    have hexec := exec_inputEdge level false hb
    have heven : (s.w.bindCfg b).obj - 144 = n := by omega
    obtain ⟨u, hu⟩ : ∃ u, s.w.edgeTaken s.srv (n + 1) b level = u := ⟨_, rfl⟩
    have hup : (if s.w.countsUp n (n + 1) level then (1 : Int) else -1) = if level = (s.w.comp n).level then 1 else -1 := by
      rw [World.countsUp, if_neg (Nat.succ_ne_self n)]
      simp only [decide_eq_true_eq]
    rw [World.edgeCounted, if_pos hsrc, if_neg Bool.false_ne_true, heven, hu, hup] at hexec
    obtain ⟨hcount, hpair⟩ := u.rd_quadCount n (if level = (s.w.comp n).level then 1 else -1)
    refine .of_exec hexec ⟨?_, hpair, ?_, exec_quiet hexec rfl⟩
    · rw [hcount, ← hu, World.rdI_edgeTaken]
    · rw [World.comp_congr (World.uin_quadCount _ _ _), ← hu, World.level_edgeTaken]
  case both =>
    intro n b level s hb hsrc hobj
    have hexec := exec_inputEdge level true hb
    have heven : (s.w.bindCfg b).obj - 144 = n := by omega
    obtain ⟨u, hu⟩ : ∃ u, (s.w.edgeTaken s.srv n b level).updComp (n + 1) (fun k => { k with level := !k.level }) = u := ⟨_, rfl⟩
    rw [World.edgeCounted, if_pos hsrc, if_pos rfl, heven, if_pos rfl, hu] at hexec
    have hrd (f : Field) (i : Nat) : u.rd .A f i = s.w.rd .A f i := by rw [← hu, World.rd_updComp, World.rd_edgeTaken]
    refine .of_exec hexec ⟨?_, ?_, exec_quiet hexec rfl⟩
    · rw [World.quadError, World.rd_when, World.rd_raiseBoth _ _ _ _ _ _ (by decide), ite_self, World.rd_bump_same _ _ _ _ (by decide), hrd]
    · rw [World.quadError, World.rd_when, World.rd_raiseBoth _ _ _ _ _ _ (by decide), ite_self,
        World.rd_bump_apart _ _ _ _ _ _ _ (by decide), hrd]
  case unbound =>
    intro n level both s hb
    refine .of_exec (t := s) ?_ rfl
    change execInputEdge n level both s = _
    unfold execInputEdge lift
    dsimp only
    rw [hb]
  case knock =>
    intro h init s n b halive hsel howns hb
    have hexec : exec (.uinKnock h init) s = .next { s with w := (s.w.updBind .A b fun x => x.knocked s.w.now).bindUpdated .A b } :=
      (inputWrite_owned (fun n w => w.knockInput n) halive hsel howns).trans (by rw [World.knockInput_eq hb])
    have hfield {β : Type} (p : BindSt → β) (hp : ∀ x, p x.core = p x) := s.w.field_bindUpdated p hp .A b fun x => x.knocked s.w.now
    have hrest : Rest [.evt, .uin, .reg 0x100018, .reg 0x700020, .reg 0x700024, .reg 0x700044, .reg 0x701000, .reg 0x701004]
        ((s.w.updBind .A b fun x => x.knocked s.w.now).bindUpdated .A b) s.w :=
      World.bindUpdated_rest (by decide) (World.updBind_rest (by decide) (Rest.refl _ _))
    exact .of_exec hexec ⟨hfield BindSt.stale fun _ => rfl, hfield BindSt.med fun _ => rfl, hfield BindSt.stuck fun _ => rfl,
      hfield BindSt.stuckClk fun _ => rfl, hfield BindSt.chatter fun _ => rfl,
      fun m => hrest.rd_outside (ks := [0x100018, 0x700020, 0x700024, 0x700044, 0x701000, 0x701004]) (by decide) (by decide) .A m,
      exec_quiet hexec rfl⟩
  case preset =>
    intro h init s n halive hsel howns
    have hexec : exec (.uinPreset h init) s = .next { s with w := s.w.presetPair n } :=
      inputWrite_owned (fun n w => w.presetPair n) halive hsel howns
    obtain ⟨heven, hodd, hregs, huin⟩ := s.w.presetPair_leaves n
    exact .of_exec hexec ⟨heven, hodd, hregs, huin, exec_quiet hexec rfl⟩
  case clear =>
    intro h init s halive howns
    have hexec : exec (.uinClrCnt h init) s = .next { s with w := s.w.clearInputCounts } := by
      change execUinClrCnt h init s = _
      rw [execUinClrCnt, objU, gateAny_owned s init _ _ halive howns]
      rfl
    obtain ⟨hzero, hregs, huin⟩ := s.w.clearInputCounts_leaves
    exact .of_exec hexec ⟨hzero, hregs, huin, exec_quiet hexec rfl⟩
  case foreign =>
    intro h init c s n hc halive hsel howns
    have hn : n < 128 := hsel ▸ s.w.rd_lt h F.UIN_SEL.CH init
    have hexec : exec c s = .next { s with w := s.w.violation h init (144 + n) } := by
      simp only [List.mem_cons, List.not_mem_nil, or_false] at hc
      obtain rfl | rfl := hc
      · exact inputWrite_refused (fun n w => w.knockInput n) halive hsel howns
      · exact inputWrite_refused (fun n w => w.presetPair n) halive hsel howns
    obtain ⟨hobj, hinit⟩ := s.w.rd_violation h (init := init) (show 144 + n < 2 ^ 9 by omega)
    refine .of_exec hexec ⟨hobj, hinit, ?_, s.w.regsBut_violation h init (144 + n), s.quiet_onW fun w => w.violation h init (144 + n)⟩
    exact (Rest.violation (q := [.evt, .reg F.OWN_VIOL.OBJ.reg, .reg F.EVT_STATUS.LOST.reg]) h init (144 + n) (by decide) (Rest.refl _ s.w)).uin
      (by decide)
end

section
/-!
SUPPORT. R260–R269: the elements of the loss array, their hits and the window.
-/
namespace Sys2Proof.Machine

/-! Elements. -/

@[simp] theorem World.rd_updElem (w : World) (k : Nat) (u : Elem → Elem) (g : Half) (f : Field) (i : Nat) :
    (w.updElem k u).rd g f i = w.rd g f i := (rfl)
@[simp] theorem World.elem_updElem_same (w : World) (k : Nat) (u : Elem → Elem) : (w.updElem k u).elem k = u (w.elem k) :=
  NMap.get_set_same _ _ _ _
theorem World.elem_updElem_ne (w : World) {k j : Nat} (u : Elem → Elem) (hj : j ≠ k) : (w.updElem k u).elem j = w.elem j :=
  NMap.get_set_ne _ _ _ hj
theorem World.elem_congr {w v : World} (hv : w.uin = v.uin) (k : Nat) : w.elem k = v.elem k := by rw [World.elem, World.elem, hv]

theorem World.losQuality_of_fault {w : World} {k : Nat} (hf : (w.elem k).fault = true) : w.losQuality k = 6 := if_pos hf

theorem World.losQuality_of_silent {w : World} {k : Nat} (hf : (w.elem k).fault = false) (hen : w.rd .A F.LOS_CTRL.EN = 1)
    (hs : (w.elem k).silent = true) : w.losQuality k = 3 := by
  unfold World.losQuality
  dsimp only
  rw [hf, World.flag_eq_true_iff.mpr hen, hs]
  rfl

theorem World.losQuality_good {w : World} {k : Nat} (hf : (w.elem k).fault = false) (hen : w.rd .A F.LOS_CTRL.EN = 1)
    (hs : (w.elem k).silent = false) : w.losQuality k = 0 := by
  unfold World.losQuality
  dsimp only
  rw [hf, World.flag_eq_true_iff.mpr hen, hs]
  rfl

/-! A hit (R261, R262). -/

/-- The logit of a hit: its peak, rise time and zero crossings under the weights of the element's zone. -/
def World.lossScore (w : World) (k r z : Nat) (pk : Rat) : Rat :=
  (w.losSet k).getD 1 0 + (w.losSet k).getD 2 0 * Config.lnR pk + (w.losSet k).getD 3 0 * ((r / 5 * 5 : Nat) : Rat) + (w.losSet k).getD 4 0 * (z : Rat)

/-- A hit recorded: the element's dead time and last hit, the list of the window's hits, and LOS_HIT. -/
def World.hitTaken (w : World) (k r z stamp sk : Nat) (pk : Rat) : World :=
  let g := decide (0 ≤ w.lossScore k r z pk)
  let w := w.updElem k fun e => { e with dead := stamp - r * us, any := true, hitAt := stamp, silent := false }
  let w := { w with uin := { w.uin with hits := w.uin.hits ++ [(k, stamp, g)] } }
  ((((w.wr .A F.LOS_HIT.P k (satTo 12 (floorN (100 * pk)))).wr .A F.LOS_HIT.GRAIN k (b2n g)).wr .A F.LOS_HIT.R k (satTo 11 (r / 5 * 5))).wr
    .A F.LOS_HIT.Z k (satTo 8 z)).wr .A F.LOS_STATUS.SENS k sk

theorem World.hitTaken_leaves (w : World) (k r z stamp sk : Nat) (pk : Rat) :
    let t := w.hitTaken k r z stamp sk pk
    ((t.elem k).hitAt = stamp ∧ (t.elem k).silent = false) ∧
    (t.rd .A F.LOS_HIT.P k = satTo 12 (floorN (100 * pk)) ∧ t.rd .A F.LOS_HIT.R k = satTo 11 (r / 5 * 5) ∧ t.rd .A F.LOS_HIT.Z k = satTo 8 z) ∧
    t.uin.hits = w.uin.hits ++ [(k, stamp, decide (0 ≤ w.lossScore k r z pk))] ∧
    t.rd .A F.LOS_HIT.GRAIN k = b2n (decide (0 ≤ w.lossScore k r z pk)) := by
  intro t
  have huin : t.uin = { (w.updElem k fun e => { e with dead := stamp - r * us, any := true, hitAt := stamp, silent := false }).uin with
      hits := w.uin.hits ++ [(k, stamp, decide (0 ≤ w.lossScore k r z pk))] } := by
    change (w.hitTaken k r z stamp sk pk).uin = _
    simp only [World.hitTaken, World.wr_uin]
    rfl
  have helem : t.elem k = { w.elem k with dead := stamp - r * us, any := true, hitAt := stamp, silent := false } := by
    rw [World.elem, huin]
    exact w.elem_updElem_same k fun e => { e with dead := stamp - r * us, any := true, hitAt := stamp, silent := false }
  refine ⟨⟨by rw [helem], by rw [helem]⟩, ⟨?_, ?_, ?_⟩, by rw [huin], ?_⟩
  · change (w.hitTaken k r z stamp sk pk).rd _ _ _ = _
    simp (disch := decide) only [World.hitTaken, World.rd_wr_apart, World.rd_wr_same]
    exact Nat.mod_eq_of_lt (satTo_lt 12 _)
  · change (w.hitTaken k r z stamp sk pk).rd _ _ _ = _
    simp (disch := decide) only [World.hitTaken, World.rd_wr_apart, World.rd_wr_same]
    exact Nat.mod_eq_of_lt (satTo_lt 11 _)
  · change (w.hitTaken k r z stamp sk pk).rd _ _ _ = _
    simp (disch := decide) only [World.hitTaken, World.rd_wr_apart, World.rd_wr_same]
    exact Nat.mod_eq_of_lt (satTo_lt 8 _)
  · change (w.hitTaken k r z stamp sk pk).rd _ _ _ = _
    simp (disch := decide) only [World.hitTaken, World.rd_wr_apart, World.rd_wr_same]
    exact b2n_mod_two _

/-! The window (R263). -/

/-- The hits of element `k` and class `g` in a list. -/
def hitCount (l : List (Nat × Nat × Bool)) (k : Nat) (g : Bool) : Nat := (l.filter fun x => x.1 = k && x.2.2 = g).length

theorem hitCount_le (l : List (Nat × Nat × Bool)) (k : Nat) : hitCount l k true + hitCount l k false ≤ l.length := by
  induction l with
  | nil => rfl
  | cons x l ih =>
    unfold hitCount at ih ⊢
    simp only [List.filter_cons, List.length_cons]
    obtain ⟨j, t, g⟩ := x
    cases g <;> by_cases hj : j = k <;> simp [hj] at ih ⊢ <;> omega

/-- The saturation of an element from the hits counted. -/
def World.lossSat (w : World) (l : List (Nat × Nat × Bool)) (k : Nat) : Bool :=
  50 * ms < (hitCount l k true + hitCount l k false) * (w.uin.cfg.loss.hitDead * us)

/-- The quality of an element in the window. -/
def World.lossQual (w : World) (l : List (Nat × Nat × Bool)) (k : Nat) : Nat :=
  if w.losQuality k = 6 || w.losQuality k = 1 then w.losQuality k else if w.lossSat l k then 2 else w.losQuality k

/-- The count that an element adds to the window. -/
def World.lossGrain (w : World) (l : List (Nat × Nat × Bool)) (k : Nat) (g : Bool) : Nat :=
  if ((List.range 64).map (w.lossQual l)).getD k 1 = 0 then hitCount l k g else 0

/-- An element's registers of the window. -/
def World.lossElem (w : World) (grain : Nat → Bool → Nat) (sat : Nat → Bool) (qual : Nat → Nat) (k : Nat) : World :=
  let w := (w.wr .A F.LOS_COUNT.GRAIN k (satTo 16 (grain k true))).wr .A F.LOS_COUNT.TRASH k (satTo 16 (grain k false))
  let w := (w.wr .A F.LOS_STATUS.QUALITY k (qual k)).wr .A F.LOS_STATUS.SAT k (b2n (sat k))
  w.when (sat k) fun w => w.raiseBoth 153 (evArg k 0xFF (qual k))

/-- The registers of all elements. -/
def World.lossElems (w : World) (grain : Nat → Bool → Nat) (sat : Nat → Bool) (qual : Nat → Nat) : World :=
  w.forAll (List.range 64) fun w k => w.lossElem grain sat qual k

/-- The zones' counts, the number of the window, and LOS_TOTAL. -/
def World.lossTotals (w : World) (zone : Nat → Bool → Nat) (x : LosWin) : World :=
  let w := ((w.wr .A F.LOS_ZONE_G.ROTOR 0 (zone 0 true)).wr .A F.LOS_ZONE_G.SIEVE 0 (zone 1 true)).wr .A F.LOS_ZONE_T.ROTOR 0 (zone 0 false)
  let w := (w.wr .A F.LOS_ZONE_T.SIEVE 0 (zone 1 false)).wr .A F.LOS_WIN.WIN 0 x.num
  w.wr .A F.LOS_TOTAL.GRAIN 0 (satTo 32 (w.rd .A F.LOS_TOTAL.GRAIN + x.grain.foldl (· + ·) 0))

/-- The window kept, and the hits that lie after its end. -/
def World.lossKept (w : World) (e : Nat) (x : LosWin) : World := { w with uin := { w.uin with
  hits := w.uin.hits.filter (fun x => e ≤ x.2.1), wins := (x :: w.uin.wins).take 128, cls := w.rd .A F.LOS_CTRL.CLS } }

/-- The outcomes and the bindings that follow the window. -/
def World.lossPublished (w : World) (srv : Half) (x : LosWin) (was : Option LosWin) : World :=
  (w.losOutcomes srv x was).uin.cfg.binds.zipIdx.foldl (fun w y => if y.1.src = 5 then w.losBinding x y.2 y.1 else w) (w.losOutcomes srv x was)

theorem World.lossElem_quality (w : World) (grain : Nat → Bool → Nat) (sat : Nat → Bool) (qual : Nat → Nat) (k : Nat) :
    (w.lossElem grain sat qual k).rd .A F.LOS_COUNT.GRAIN k = satTo 16 (grain k true) ∧
      (w.lossElem grain sat qual k).rd .A F.LOS_COUNT.TRASH k = satTo 16 (grain k false) ∧
      (w.lossElem grain sat qual k).rd .A F.LOS_STATUS.QUALITY k = qual k % 8 := by
  unfold World.lossElem
  refine ⟨?_, ?_, ?_⟩
  · simp (disch := decide) only [World.rd_when, World.rd_raiseBoth, World.rd_wr_apart, World.rd_wr_same, ite_self]
    exact Nat.mod_eq_of_lt (satTo_lt 16 _)
  · simp (disch := decide) only [World.rd_when, World.rd_raiseBoth, World.rd_wr_apart, World.rd_wr_same, ite_self]
    exact Nat.mod_eq_of_lt (satTo_lt 16 _)
  · simp (disch := decide) only [World.rd_when, World.rd_raiseBoth, World.rd_wr_apart, World.rd_wr_same, ite_self]
    rfl

theorem World.lossElem_other (w : World) (grain : Nat → Bool → Nat) (sat : Nat → Bool) (qual : Nat → Nat) {k j : Nat} (hj : j ≠ k) (f : Field)
    (hf : (decide (f.reg < 2 ^ 25) && decide (f.reg ≠ 0x100018)) = true) :
    (w.lossElem grain sat qual k).rd .A f j = w.rd .A f j := by
  have hreg : f.reg < 2 ^ 25 := by
    simp only [Bool.and_eq_true, decide_eq_true_eq] at hf
    exact hf.1
  unfold World.lossElem
  rw [World.rd_when, World.rd_raiseBoth _ _ _ _ _ _ hf, ite_self, World.rd_wr_idx _ _ _ _ _ _ (by decide) hreg hj,
    World.rd_wr_idx _ _ _ _ _ _ (by decide) hreg hj, World.rd_wr_idx _ _ _ _ _ _ (by decide) hreg hj,
    World.rd_wr_idx _ _ _ _ _ _ (by decide) hreg hj]

theorem World.lossElems_leaves (w : World) (grain : Nat → Bool → Nat) (sat : Nat → Bool) (qual : Nat → Nat) {k : Nat} (hk : k < 64) :
    (w.lossElems grain sat qual).rd .A F.LOS_COUNT.GRAIN k = satTo 16 (grain k true) ∧
      (w.lossElems grain sat qual).rd .A F.LOS_COUNT.TRASH k = satTo 16 (grain k false) ∧
      (w.lossElems grain sat qual).rd .A F.LOS_STATUS.QUALITY k = qual k % 8 := by
  have hat (f : Field) (hf : (decide (f.reg < 2 ^ 25) && decide (f.reg ≠ 0x100018)) = true) (v : Nat → Nat)
      (hv : ∀ (u : World) (a : Nat), (u.lossElem grain sat qual a).rd .A f a = v a) : (w.lossElems grain sat qual).rd .A f k = v k :=
    (World.forAll_at (f := fun w k => w.lossElem grain sat qual k) (fun u n => u.rd .A f n) id (fun _ a => v a) hv
      (fun u a j hj => u.lossElem_other grain sat qual hj f hf) (l := List.range 64) (by rw [List.map_id]; exact List.nodup_range) w).1 k
      (List.mem_range.mpr hk)
  exact ⟨hat _ (by decide) (fun a => satTo 16 (grain a true)) fun u a => (u.lossElem_quality grain sat qual a).1,
    hat _ (by decide) (fun a => satTo 16 (grain a false)) fun u a => (u.lossElem_quality grain sat qual a).2.1,
    hat _ (by decide) (fun a => qual a % 8) fun u a => (u.lossElem_quality grain sat qual a).2.2⟩

theorem World.uin_lossElems (w : World) (grain : Nat → Bool → Nat) (sat : Nat → Bool) (qual : Nat → Nat) :
    (w.lossElems grain sat qual).uin = w.uin :=
  World.forAll_keeps World.uin (f := fun w k => w.lossElem grain sat qual k) (fun u k => by
    unfold World.lossElem
    rw [World.apply_when World.uin, World.raiseBoth_uin, ite_self]
    simp only [World.wr_uin]) _ w

theorem World.uin_lossTotals (w : World) (zone : Nat → Bool → Nat) (x : LosWin) : (w.lossTotals zone x).uin = w.uin := by
  simp only [World.lossTotals, World.wr_uin]

/-- A loss binding written: its group quality and value. -/
theorem World.still_losBinding (w : World) (x : LosWin) (b : Nat) (c : BindCfg) : (w.losBinding x b c).uin.still = w.uin.still := by
  unfold World.losBinding
  refine (World.settled_bindUpdated _ _ _).1.trans ?_
  have hgroup (id : Nat) (mask : Nat) (was : Bool) : (w.losGroup id x mask was).uin = w.uin :=
    (World.losGroup_rest (q0 := [.evt, .reg 0x100018]) (by decide) (Rest.refl _ w)).uin (by decide)
  have hupd (v : World) (u : BindSt → BindSt) : (v.updBind .A b u).uin.still = v.uin.still := rfl
  exact (hupd _ _).trans (congrArg Inputs.still (hgroup b c.lmask ((w.bindSt .A b).group = 0)))

theorem World.still_lossPublished (w : World) (srv : Half) (x : LosWin) (was : Option LosWin) :
    (w.lossPublished srv x was).uin.still = w.uin.still := by
  have hout : (w.losOutcomes srv x was).uin = w.uin :=
    (World.losOutcomes_rest (q0 := [.evt, .reg 0x100018]) (by decide) (Rest.refl _ w)).uin (by decide)
  refine Eq.trans (World.forAll_keeps (fun u : World => u.uin.still)
    (f := fun (w : World) (y : BindCfg × Nat) => if y.1.src = 5 then w.losBinding x y.2 y.1 else w) (fun u y => ?_) _ _) (congrArg _ hout)
  split
  · exact u.still_losBinding _ _ _
  · rfl

theorem World.rest_lossPublished (w : World) (srv : Half) (x : LosWin) (was : Option LosWin) :
    Rest [.evt, .uin, .reg 0x100018, .reg 0x700020, .reg 0x700024, .reg 0x700044, .reg 0x701000, .reg 0x701004]
      (w.lossPublished srv x was) w := by
  refine Rest.foldl (World.losOutcomes_rest (by decide) (Rest.refl _ w)) fun u y e => ?_
  split
  · exact World.losBinding_rest (by decide) e
  · exact e

/-- The number of the window that ends (R263). -/
def World.lossNum (w : World) (srv : Half) : Nat := w.mt srv / (100 * ms) - 1

/-- The instant at which it ends. -/
def World.lossEnd (w : World) (srv : Half) : Nat := (w.lossNum srv + 1) * (100 * ms)

/-- The hits that it counts. -/
def World.lossHits (w : World) (srv : Half) : List (Nat × Nat × Bool) := w.uin.hits.filter fun x => x.2.1 < w.lossEnd srv

/-- The window as it is kept. -/
def World.lossWin (w : World) (srv : Half) : LosWin :=
  ⟨w.lossNum srv, (List.range 64).map (w.lossGrain (w.lossHits srv) · true), (List.range 64).map (w.lossQual (w.lossHits srv))⟩

/-- A zone's count. -/
def World.lossZone (w : World) (srv : Half) (z : Nat) (g : Bool) : Nat :=
  satTo 16 ((List.range' (32 * z) 32).foldl (fun a k => a + w.lossGrain (w.lossHits srv) k g) 0)

/-- The elements and the zones of the window. -/
def World.lossCounted (w : World) (srv : Half) : World :=
  (w.lossElems (w.lossGrain (w.lossHits srv)) (w.lossSat (w.lossHits srv)) (w.lossQual (w.lossHits srv))).lossTotals (w.lossZone srv) (w.lossWin srv)

/-- The end of a window, in its parts. -/
theorem exec_lossWindow (s : State) : exec .lossWindow s = .next { s with
    w := ((s.w.lossCounted s.srv).lossKept (s.w.lossEnd s.srv) (s.w.lossWin s.srv)).lossPublished s.srv (s.w.lossWin s.srv)
      s.w.uin.wins.head? } := by
  change execLossWindow s = _
  unfold execLossWindow lift
  dsimp only
  rfl

end Sys2Proof.Machine
end

section
open Sys2Proof Sys2Proof.Machine

/-- An element that has recorded no hit for SILENT_S (R264). -/
def Sys2Proof.Machine.World.fallSilent (w : World) (k : Nat) : World :=
  let w := w.updElem k fun e => { e with silent := true }
  (w.wr .A F.LOS_STATUS.QUALITY k (w.losQuality k)).raiseBoth 154 (evArg k 0xFF (w.losQuality k))

/-- Settles O36: a hit and a window leave what their lemmas say; the outcomes and the bindings that follow the window touch none of it. -/
theorem lossArray : Obligations.lossArray := by
  unfold Obligations.lossArray
  refine ⟨?hit, ?uncalibrated, ?off, ?window, ?bias, ?silent, ?silentNot, ?cls, ?clear, ?foreign⟩
  case hit =>
    intro k peak r z stamp p s hp hen hthr hdead
    have hexec : exec (.lossHit k peak r z stamp) s = .next { s with
        w := s.w.hitTaken k r z stamp (u16At p 0) ((peak : Rat) / (u16At p 0 : Rat)) } := by
      change execLossHit k peak r z stamp s = _
      unfold execLossHit lift
      dsimp only
      rw [hp]
      dsimp only
      have hdead' : ((s.w.elem k).any && decide (stamp - r * us < (s.w.elem k).dead + s.w.uin.cfg.loss.hitDead * us)) = false := by
        rw [show us = 1000 from rfl]
        obtain hany | hle := hdead
        · rw [hany, Bool.false_and]
        · rw [decide_eq_false (Nat.not_lt.mpr hle), Bool.and_false]
      rw [World.flag_eq_true_iff.mpr hen, decide_eq_false (not_lt.mpr hthr), hdead']
      rfl
    obtain ⟨⟨hat, hsilent⟩, ⟨hpk, hr, hz⟩, hhits, hgrain⟩ := s.w.hitTaken_leaves k r z stamp (u16At p 0) ((peak : Rat) / (u16At p 0 : Rat))
    exact .of_exec hexec ⟨hat, hsilent, hpk, hr, hz, exec_quiet hexec rfl, _, hhits, hgrain, decide_eq_true_iff⟩
  case uncalibrated =>
    intro k peak r z stamp s hp
    have hexec : exec (.lossHit k peak r z stamp) s = .next { s with w := s.w.updElem k fun e => { e with fault := true } } := by
      change execLossHit k peak r z stamp s = _
      unfold execLossHit lift
      dsimp only
      rw [hp]
    refine .of_exec hexec ⟨?_, rfl, ?_, exec_quiet hexec rfl⟩
    · rw [World.elem_updElem_same]
    · exact (World.updElem_rest (q0 := [.uin]) (by decide) (Rest.refl _ s.w)).regsBut (by decide)
  case off =>
    intro k peak r z stamp s hp hen
    obtain ⟨p, hp⟩ := Option.isSome_iff_exists.mp hp
    refine .of_exec (t := s) ?_ rfl
    change execLossHit k peak r z stamp s = _
    unfold execLossHit lift
    dsimp only
    rw [hp]
    dsimp only
    rw [(World.flag_eq_false_iff rfl).mpr hen]
    rfl
  case window =>
    intro s k hk hen hfault hsilent hsat
    have hexec := exec_lossWindow s
    obtain ⟨l, hl⟩ : ∃ l, s.w.lossHits s.srv = l := ⟨_, rfl⟩
    obtain ⟨v, hv⟩ : ∃ v, s.w.lossCounted s.srv = v := ⟨_, rfl⟩
    obtain ⟨x, hx⟩ : ∃ x, s.w.lossWin s.srv = x := ⟨_, rfl⟩
    have hend : s.w.lossEnd s.srv = (s.w.mt s.srv / 100000000 - 1 + 1) * 100000000 := rfl
    have hlen : l.length ≤ s.w.uin.hits.length := hl ▸ List.length_filter_le _ _
    have hsat' : s.w.lossSat l k = false := by
      refine decide_eq_false (Nat.not_lt.mpr (Nat.le_trans ?_ hsat))
      exact Nat.mul_le_mul_right _ ((hitCount_le l k).trans hlen)
    have hqual : s.w.lossQual l k = 0 := by rw [World.lossQual, World.losQuality_good hfault hen hsilent, hsat']; rfl
    have hgrain (g : Bool) : s.w.lossGrain l k g = hitCount l k g := by
      rw [World.lossGrain, if_pos]
      rw [List.getD_eq_getElem?_getD, List.getElem?_map, List.getElem?_range hk]
      exact hqual
    have hcount (g : Bool) : hitCount l k g = (s.w.uin.hits.filter fun x =>
        decide (x.2.1 < (s.w.mt s.srv / 100000000 - 1 + 1) * 100000000) && (x.1 = k && x.2.2 = g)).length := by
      rw [hitCount, ← hl, World.lossHits, List.filter_filter, hend]
      simp only [Bool.and_comm]
    have huin : v.uin = s.w.uin := by rw [← hv, World.lossCounted, World.uin_lossTotals, World.uin_lossElems]
    have hrest : Rest [.evt, .uin, .reg 0x100018, .reg 0x700020, .reg 0x700024, .reg 0x700044, .reg 0x701000, .reg 0x701004]
        ((v.lossKept (s.w.lossEnd s.srv) x).lossPublished s.srv x s.w.uin.wins.head?) v :=
      (World.rest_lossPublished _ _ _ _).trans (Rest.set_uin (by decide) (Rest.refl _ _) _)
    have hrd (f : Field) (hf : outside [0x100018, 0x700020, 0x700024, 0x700044, 0x701000, 0x701004] f = true) (i : Nat) :
        ((v.lossKept (s.w.lossEnd s.srv) x).lossPublished s.srv x s.w.uin.wins.head?).rd .A f i = v.rd .A f i :=
      hrest.rd_outside (by decide) hf .A i
    have hstill := World.still_lossPublished (v.lossKept (s.w.lossEnd s.srv) x) s.srv x s.w.uin.wins.head?
    obtain ⟨hg, htr, hq⟩ := s.w.lossElems_leaves (s.w.lossGrain l) (s.w.lossSat l) (s.w.lossQual l) hk
    have hcls : v.rd .A F.LOS_CTRL.CLS = s.w.rd .A F.LOS_CTRL.CLS := by
      rw [← hv, World.lossCounted]
      unfold World.lossTotals World.lossElems
      simp (disch := decide) only [World.rd_wr_apart]
      refine World.forAll_keeps (fun u => u.rd .A F.LOS_CTRL.CLS) (f := fun w k => w.lossElem _ _ _ k) (fun u k => ?_) _ s.w
      unfold World.lossElem
      simp (disch := decide) only [World.rd_when, World.rd_raiseBoth, World.rd_wr_apart, ite_self]
    have hv' : v = (s.w.lossElems (s.w.lossGrain l) (s.w.lossSat l) (s.w.lossQual l)).lossTotals (s.w.lossZone s.srv) x := by
      rw [← hv, World.lossCounted, hl, hx]
    rw [hv, hx] at hexec
    refine .of_exec hexec ⟨?_, ?_, ?_, ?_, ?_, ?_, exec_quiet hexec rfl⟩
    · rw [hrd _ (by decide), hv', World.lossTotals, ← hcount, ← hgrain, ← hg]
      simp (disch := decide) only [World.rd_wr_apart]
    · rw [hrd _ (by decide), hv', World.lossTotals, ← hcount, ← hgrain, ← htr]
      simp (disch := decide) only [World.rd_wr_apart]
    · rw [hrd _ (by decide), hv', World.lossTotals, World.rd_wr_apart _ _ _ _ _ _ _ _ (by decide), World.rd_wr_same _ _ _ _ _ (by decide), ← hx]
      rfl
    · rw [hrd _ (by decide), hv', World.lossTotals]
      simp (disch := decide) only [World.rd_wr_apart]
      rw [hq, hqual]
    · refine (congrArg Inputs.hits hstill).trans ?_
      change v.uin.hits.filter _ = _
      rw [huin]
      rfl
    · refine (congrArg Inputs.cls hstill).trans ?_
      exact hcls
  case bias =>
    intro k pass s
    obtain ⟨bad, hbad⟩ : ∃ bad, (!pass || (ledgerEntry s.ledger 3 k).isNone) = bad := ⟨_, rfl⟩
    obtain ⟨u, hu⟩ : ∃ u, (s.w.updElem k fun e => { e with fault := bad }).wr .A F.LOS_STATUS.BIAS_OK k (b2n pass) = u := ⟨_, rfl⟩
    obtain ⟨v, hv⟩ : ∃ v, u.wr .A F.LOS_STATUS.QUALITY k (u.losQuality k) = v := ⟨_, rfl⟩
    have hexec : exec (.lossBiasCheck k pass) s = .next { s with
        w := v.when ((s.w.elem k).fault ≠ bad) fun w => w.raiseBoth 152 (evArg k 0xFF (w.losQuality k)) } := by
      change execLossBiasCheck k pass s = _
      rw [execLossBiasCheck, lift, hbad, ← hv, ← hu]
    have huin : (v.when ((s.w.elem k).fault ≠ bad) fun w => w.raiseBoth 152 (evArg k 0xFF (w.losQuality k))).uin =
        (s.w.updElem k fun e => { e with fault := bad }).uin := by
      rw [World.apply_when World.uin, World.raiseBoth_uin, ite_self, ← hv, World.wr_uin, ← hu, World.wr_uin]
    have helem : (u.elem k).fault = bad := by
      rw [World.elem_congr (by rw [← hu, World.wr_uin]) (v := s.w.updElem k fun e => { e with fault := bad }), World.elem_updElem_same]
    refine .of_exec hexec ⟨?_, ?_, fun hf => ?_, fun j hj => ?_, exec_quiet hexec rfl⟩
    · rw [World.elem_congr huin, World.elem_updElem_same, hbad]
    · rw [World.rd_when, World.rd_raiseBoth _ _ _ _ _ _ (by decide), ite_self, ← hv, World.rd_wr_apart _ _ _ _ _ _ _ _ (by decide), ← hu,
        World.rd_wr_same _ _ _ _ _ (by decide)]
      exact b2n_mod_two _
    · rw [World.elem_congr huin, World.elem_updElem_same] at hf
      rw [World.rd_when, World.rd_raiseBoth _ _ _ _ _ _ (by decide), ite_self, ← hv, World.rd_wr_same _ _ _ _ _ (by decide),
        World.losQuality_of_fault (helem.trans hf)]
      rfl
    · rw [World.elem_congr huin, World.elem_updElem_ne _ _ hj]
  case silent =>
    intro k s hs hstate hat
    have hexec : exec (.lossSilentTimeout k) s = .next { s with w := s.w.when (!(s.w.elem k).silent) fun w => w.fallSilent k } := by
      change execLossSilentTimeout k s = _
      unfold execLossSilentTimeout lift
      dsimp only
      rw [show sec = 1000000000 from rfl, decide_eq_true hs, decide_eq_true hstate, decide_eq_true hat, Bool.true_and, Bool.true_and,
        Bool.true_and]
      rfl
    cases hsil : (s.w.elem k).silent with
    | true =>
      rw [hsil, Bool.not_true, World.when_false] at hexec
      exact .of_exec hexec ⟨hsil, nofun, exec_quiet hexec rfl⟩
    | false =>
      rw [hsil, Bool.not_false, World.when_true] at hexec
      obtain ⟨u, hu⟩ : ∃ u, s.w.updElem k (fun e => { e with silent := true }) = u := ⟨_, rfl⟩
      have helem : u.elem k = { s.w.elem k with silent := true } := by rw [← hu, World.elem_updElem_same]
      unfold World.fallSilent at hexec
      dsimp only at hexec
      rw [hu] at hexec
      refine .of_exec hexec ⟨?_, fun _ hfault hen => ?_, exec_quiet hexec rfl⟩
      · rw [World.elem_congr (v := u) (by rw [World.raiseBoth_uin, World.wr_uin]), helem]
      · rw [World.rd_raiseBoth _ _ _ _ _ _ (by decide), World.rd_wr_same _ _ _ _ _ (by decide), World.losQuality_of_silent]
        · rfl
        · rw [helem, hfault]
        · rw [← hu, World.rd_updElem, hen]
        · rw [helem]
  case silentNot =>
    intro k s hnot
    refine .of_exec (t := s) ?_ rfl
    change execLossSilentTimeout k s = _
    unfold execLossSilentTimeout lift
    dsimp only
    obtain h0 | hst := hnot
    · rw [h0]
      rfl
    · rw [decide_eq_false hst, Bool.and_false, Bool.false_and, Bool.false_and, World.when_false]
  case cls =>
    intro h init v s halive howns
    have hexec : exec (.losClsWrite h init v) s = .next { s with w := s.w.wr .A F.LOS_CTRL.CLS 0 v } := by
      change execLosClsWrite h init v s = _
      rw [execLosClsWrite, objLos, gateAny_owned s init _ _ halive howns, putW]
    exact .of_exec hexec ⟨World.rd_wr_same _ _ _ _ _ (by decide), s.w.regsBut_wr .A _ _ (by decide), s.w.wr_uin _ _ _ _, exec_quiet hexec rfl⟩
  case clear =>
    intro h init s halive howns
    have hexec : exec (.losClrCnt h init) s = .next { s with w := s.w.wr .A F.LOS_TOTAL.GRAIN 0 0 } := by
      change execLosClrCnt h init s = _
      rw [execLosClrCnt, objLos, gateAny_owned s init _ _ halive howns, putW]
    exact .of_exec hexec ⟨World.rd_wr_same _ _ _ _ _ (by decide), s.w.regsBut_wr .A _ _ (by decide), s.w.wr_uin _ _ _ _, exec_quiet hexec rfl⟩
  case foreign =>
    intro h init v c s hc halive howns
    have hsel : s.w.rd h F.LOS_SEL.CH init < 2 ^ 6 := s.w.rd_lt h F.LOS_SEL.CH init
    obtain ⟨obj, hobj⟩ : ∃ obj, 272 + s.w.rd h F.LOS_SEL.CH init = obj := ⟨_, rfl⟩
    have hexec : exec c s = .next { s with w := s.w.violation h init obj } := by
      simp only [List.mem_cons, List.not_mem_nil, or_false] at hc
      obtain rfl | rfl := hc
      · change execLosClsWrite h init v s = _
        rw [execLosClsWrite, objLos, gateAny_refused s init _ _ halive howns, putW, World.sel, objLos, hobj]
      · change execLosClrCnt h init s = _
        rw [execLosClrCnt, objLos, gateAny_refused s init _ _ halive howns, putW, World.sel, objLos, hobj]
    obtain ⟨hrec, hinit⟩ := s.w.rd_violation h (init := init) (show obj < 2 ^ 9 by omega)
    exact .of_exec hexec ⟨hrec.trans hobj.symm, hinit, s.w.regsBut_violation h init obj, s.quiet_onW fun w => w.violation h init obj⟩
end

section
/-!
SUPPORT. R271–R296: a cycle of the yield pipeline, and the totals and weighed loads in their registers.
-/
namespace Sys2Proof.Machine

/-! The yield state of a half. -/

@[simp] theorem World.rd_updYield (w : World) (h : Half) (u : Yield → Yield) (g : Half) (f : Field) (i : Nat) :
    (w.updYield h u).rd g f i = w.rd g f i := (rfl)
@[simp] theorem World.yield_updYield_same (w : World) (h : Half) (u : Yield → Yield) : (w.updYield h u).yield h = u (w.yield h) :=
  Two.get_upd_same _ _ _
theorem World.yield_updYield_ne (w : World) {h g : Half} (u : Yield → Yield) (hg : g ≠ h) : (w.updYield h u).yield g = w.yield g :=
  Two.get_upd_ne _ _ hg
theorem World.yield_congr {w v : World} (hv : w.yld = v.yld) (h : Half) : w.yield h = v.yield h := by rw [World.yield, World.yield, hv]
@[simp] theorem World.yield_wr (w : World) (h : Half) (f : Field) (i v : Nat) (g : Half) : (w.wr h f i v).yield g = w.yield g :=
  World.yield_congr (w.wr_yld h f i v) g
@[simp] theorem World.yield_calResult (w : World) (h : Half) (r : Nat) (g : Half) : (w.calResult h r).yield g = w.yield g := w.yield_wr _ _ _ _ _
@[simp] theorem World.yield_showLoads (w : World) (h g : Half) : (w.showLoads h).yield g = w.yield g := w.yield_wr _ _ _ _ _
@[simp] theorem World.yield_showTotals (w : World) (h g : Half) : (w.showTotals h).yield g = w.yield g := by
  simp only [World.showTotals, World.yield_wr]

theorem World.rd_showTotals (w : World) (h : Half) :
    (w.showTotals h).rd h F.SET_YLD_TANK.VALUE = satTo 32 (roundN (w.yield h).tank) ∧
      (w.showTotals h).rd h F.SET_YLD_TOT_WET.VALUE = satTo 32 (roundN (w.yield h).totWet) ∧
      (w.showTotals h).rd h F.SET_YLD_TOT_STD.VALUE = satTo 32 (roundN (w.yield h).totStd) ∧
      (w.showTotals h).rd h F.SET_YLD_TOT_AREA.VALUE = satTo 32 (roundN (w.yield h).totArea) ∧
      (w.showTotals h).rd h F.SET_YLD_UNASSIGNED.VALUE = satTo 32 (roundN (w.yield h).unassigned) := by
  have hsat (x : Rat) : satTo 32 (roundN x) % 2 ^ 32 = satTo 32 (roundN x) := Nat.mod_eq_of_lt (satTo_lt 32 _)
  unfold World.showTotals
  refine ⟨?_, ?_, ?_, ?_, ?_⟩ <;> simp (disch := decide) only [World.rd_wr_apart, World.rd_wr_same]
  · exact hsat _
  · exact hsat _
  · exact hsat _
  · exact hsat _
  · exact hsat _

theorem satTo_roundN_zero : satTo 32 (roundN 0) = 0 := by decide +kernel

theorem World.rd_calResult_other (w : World) (h : Half) (r : Nat) (g : Half) (f : Field) (i : Nat)
    (hf : fieldsApart F.SET_YLD_CAL.RES f = true) : (w.calResult h r).rd g f i = w.rd g f i := World.rd_wr_apart _ _ _ _ _ _ _ _ hf

theorem World.rd_calResult (w : World) (h : Half) {r : Nat} (hr : r < 16) : (w.calResult h r).rd h F.SET_YLD_CAL.RES = r :=
  (World.rd_wr_same _ _ _ _ _ (by decide)).trans (Nat.mod_eq_of_lt hr)

theorem World.rd_showLoads_other (w : World) (h g : Half) (f : Field) (i : Nat) (hf : fieldsApart F.SET_YLD_CAL.LOADS f = true) :
    (w.showLoads h).rd g f i = w.rd g f i := World.rd_wr_apart _ _ _ _ _ _ _ _ hf

/-! A cycle, of the pipeline's state alone (R278–R283, R288). -/

/-- The line of slices holds the slice of cycle `k`, cutting or not. -/
def Yield.HasSlice (y : Yield) (k : Nat) (c : Bool) : Prop := ∃ z ∈ y.slices, z.k = k ∧ z.cutting = c

theorem Yield.HasSlice.updSlice {y : Yield} {k : Nat} {c : Bool} (hy : y.HasSlice k c) (j : Nat) {f : Slice → Slice}
    (hf : ∀ z, (f z).k = z.k ∧ (f z).cutting = z.cutting) : (y.updSlice j f).HasSlice k c := by
  obtain ⟨z, hz, hk, hc⟩ := hy
  refine ⟨if z.k = j then f z else z, List.mem_map_of_mem (f := fun s => if s.k = j then f s else s) hz, ?_, ?_⟩
  · split
    · rw [(hf z).1, hk]
    · exact hk
  · split
    · rw [(hf z).2, hc]
    · exact hc

theorem Yield.hasSlice_open (y : Yield) (s : YildSec) (h : Half) (x : Slice) (m : Rat) : (y.open_ s h x m).HasSlice x.k x.cutting :=
  ⟨x, List.mem_cons_self, rfl, rfl⟩

theorem Yield.crop_open (y : Yield) (s : YildSec) (h : Half) (x : Slice) (m : Rat) : (y.open_ s h x m).crop = y.crop := by
  unfold Yield.open_
  dsimp only
  split <;> rfl

/-- The mass of a cycle in its slice (R281). -/
def Yield.receive (y : Yield) (f : Flow) (j : Nat) (fl : Bool) : Yield := y.updSlice j fun z => { z with
  mass := z.mass + f.q / 10, flags := z.flags ||| f.flag ||| (if fl then 32 else 0) ||| (if f.outCurve then 1024 else 0) }

theorem Yield.assign_eq (y : Yield) (s : YildSec) (f : Flow) (k : Nat) (o : Bool) :
    y.assign s f k o = { y with unassigned := y.unassigned + f.q / 10 } ∨
      ∃ j fl l, y.assign s f k o = { y.receive f j fl with load := l } := by
  cases hr : y.receiver s k with
  | none => exact .inl (by unfold Yield.assign; rw [hr])
  | some r =>
    obtain ⟨j, fl⟩ := r
    have he : ∃ b l, y.assign s f k o = if b = true then { y.receive f j fl with load := l } else y.receive f j fl := by
      unfold Yield.assign
      rw [hr]
      exact ⟨_, _, rfl⟩
    obtain ⟨b, l, he⟩ := he
    cases b with
    | true => exact .inr ⟨j, fl, l, he⟩
    | false => exact .inr ⟨j, fl, (y.receive f j fl).load, he⟩

theorem Yield.assign_leaves (y : Yield) (s : YildSec) (f : Flow) (k : Nat) (o : Bool) {j : Nat} {c : Bool} (hy : y.HasSlice j c) :
    (y.assign s f k o).HasSlice j c ∧ (y.assign s f k o).crop = y.crop := by
  obtain he | ⟨i, fl, l, he⟩ := y.assign_eq s f k o
  · rw [he]
    exact ⟨hy, rfl⟩
  · have hrec : (y.receive f i fl).HasSlice j c := hy.updSlice i fun _ => ⟨rfl, rfl⟩
    rw [he]
    exact ⟨hrec, rfl⟩

theorem clampR_bounds {lo hi : Rat} (hle : lo ≤ hi) (v : Rat) : lo ≤ clampR lo hi v ∧ clampR lo hi v ≤ hi := by
  unfold clampR
  split
  · exact ⟨le_refl lo, hle⟩
  · split
    · exact ⟨hle, le_refl hi⟩
    · next h1 h2 => exact ⟨not_lt.mp h1, not_lt.mp h2⟩

theorem Yield.moistStep_leaves (y : Yield) (s : YildSec) (k : Nat) (smp : Option Rat) {j : Nat} {c : Bool} (hy : y.HasSlice j c) :
    (y.moistStep s k smp).HasSlice j c ∧ (y.moistStep s k smp).crop = y.crop ∧ (y.moistStep s k smp).lastK = y.lastK ∧
      (y.moistStep s k smp).by_ = y.by_ ∧ (y.moistStep s k smp).tank = y.tank := by
  have hnext (v : Yield) (hv : v.HasSlice j c ∧ v.crop = y.crop ∧ v.lastK = y.lastK ∧ v.by_ = y.by_ ∧ v.tank = y.tank) (f : Slice → Slice)
      (hf : ∀ z, (f z).k = z.k ∧ (f z).cutting = z.cutting) :
      let t := match v.slice (k - s.dMoist) with
        | none => v
        | some z => if z.cutting then v.updSlice z.k f else v
      t.HasSlice j c ∧ t.crop = y.crop ∧ t.lastK = y.lastK ∧ t.by_ = y.by_ ∧ t.tank = y.tank := by
    obtain ⟨hs, hr⟩ := hv
    dsimp only
    split
    · exact ⟨hs, hr⟩
    · split
      · exact ⟨hs.updSlice _ hf, hr⟩
      · exact ⟨hs, hr⟩
  cases smp with
  | some m => exact hnext { y with moist := m, moistAt := some k } ⟨hy, rfl, rfl, rfl, rfl⟩ _ fun _ => ⟨rfl, rfl⟩
  | none => exact hnext y ⟨hy, rfl, rfl, rfl, rfl⟩ _ fun _ => ⟨rfl, rfl⟩

/-- The pipeline's state through a cycle. -/
def Yield.cycled (y : Yield) (s : YildSec) (h : Half) (k : Nat) (x : Slice) (f : Flow) (o u : Bool) (smp : Option Rat) : Yield :=
  let y := y.open_ s h x (f.q / 10)
  let y := ({ y with rho := y.rhoStep s f } : Yield).assign s f k o
  (y.tankStep s (f.q / 10) u o h k).moistStep s k smp

theorem Yield.cycled_leaves (y : Yield) (s : YildSec) (h : Half) (k : Nat) (x : Slice) (f : Flow) (o u : Bool) (smp : Option Rat) :
    let t := y.cycled s h k x f o u smp
    t.HasSlice x.k x.cutting ∧ t.crop = y.crop ∧ t.lastK = k ∧ t.by_ = some h ∧ 0 ≤ t.tank ∧ t.tank ≤ ((10 * s.tankMax : Nat) : Rat) := by
  intro t
  have hopen : ({ y.open_ s h x (f.q / 10) with rho := (y.open_ s h x (f.q / 10)).rhoStep s f } : Yield).HasSlice x.k x.cutting :=
    y.hasSlice_open s h x _
  obtain ⟨hassign, hcrop⟩ := Yield.assign_leaves _ s f k o hopen
  obtain ⟨a, ha⟩ : ∃ a, ({ y.open_ s h x (f.q / 10) with rho := (y.open_ s h x (f.q / 10)).rhoStep s f } : Yield).assign s f k o = a := ⟨_, rfl⟩
  have ht : t = (a.tankStep s (f.q / 10) u o h k).moistStep s k smp := by rw [← ha]; rfl
  rw [ha] at hassign hcrop
  obtain ⟨hs, hc, hk, hb, htank⟩ := Yield.moistStep_leaves (a.tankStep s (f.q / 10) u o h k) s k smp (j := x.k) (c := x.cutting) hassign
  obtain ⟨hlo, hhi⟩ := clampR_bounds (lo := 0) (hi := ((10 * s.tankMax : Nat) : Rat)) (Nat.cast_nonneg _)
    (a.tank + f.q / 10 - if u then s.unloadKgs / 10 else 0)
  rw [ht]
  exact ⟨hs, hc.trans (hcrop.trans (y.crop_open s h x _)), hk, hb, htank ▸ hlo, htank ▸ hhi⟩

/-! A cycle, of the state of the machine. -/

/-- What the publication of a tile leaves of the pipeline's state: all but the totals and the list of tiles. -/
def Yield.line (y : Yield) : Yield := { y with totWet := 0, totStd := 0, totArea := 0, tiles := [] }

theorem Yield.of_line {β : Type} (p : Yield → β) (hp : ∀ y, p y.line = p y) {v y : Yield} (hv : v.line = y.line) : p v = p y := by
  rw [← hp, hv, hp]

theorem World.line_publishTile (w : World) (led : Memory) (srv h : Half) (s : YildSec) (t : YTile) :
    ((w.publishTile led srv h s t).yield h).line = (w.yield h).line := by
  unfold World.publishTile
  dsimp only
  generalize (w.yield h).tileRecord s t _ _ 0 = r
  obtain ⟨b, m, sd, ar, yw⟩ := r
  dsimp only
  rw [World.apply_when (fun u => (u.yield h).line)]
  have hrest (u : World) (seq : Nat) (x : Rat) (o : Nat) :
      (((u.flxTileOver h seq).flxTiles h).externalWrite srv h o x).yld = u.yld ∧ ((u.flxTileOver h seq).flxTiles h).yld = u.yld := by
    have hflx : Rest [.evt, .uin, .flx, .reg 0x100018, .reg 0x700020, .reg 0x700024, .reg 0x70002C, .reg 0x700030, .reg 0x700044,
        .reg 0x701000, .reg 0x701004, .reg 0xA00114, .reg 0xA00140] ((u.flxTileOver h seq).flxTiles h) u :=
      World.flxTiles_rest (by decide) (World.flxTileOver_rest (by decide) (Rest.refl _ u))
    exact ⟨(World.externalWrite_rest (by decide) hflx).yld (by decide), hflx.yld (by decide)⟩
  have hupd (u : World) (hu : (u.yield h).line = (w.yield h).line) : ((u.updYield h fun y => { y with
      totWet := y.totWet + m, totStd := y.totStd + sd, totArea := y.totArea + ar, tiles := y.tiles.filter (fun z => z.first ≠ t.first) }).yield
        h).line = (w.yield h).line := by
    rw [World.yield_updYield_same]
    exact hu
  have hput (a r : Nat) (b : List Byte) (c : Bool) :
      ((((w.when c fun w => w.wr h F.SET_YLD_STATUS.OVF 0 1).putMem h 3 r b).wr h F.SET_YLD_RING_HEAD.VALUE 0 a).yield h).line =
        (w.yield h).line := by
    rw [World.yield_wr]
    change ((w.when c fun w => w.wr h F.SET_YLD_STATUS.OVF 0 1).yield h).line = _
    rw [World.apply_when (fun u => (u.yield h).line), World.yield_wr, ite_self]
  rw [World.yield_congr (hrest _ _ _ _).1, World.yield_congr (hrest _ _ 0 0).2, ite_self]
  exact hupd _ (hput _ _ _ _)

/-- A cycle's tiles published, old slices dropped, and the outputs of the pipeline written. -/
def World.cycleEnds (w : World) (led : Memory) (srv h : Half) (s : YildSec) (k : Nat) (tiles : List YTile) (flag : Nat) (q : Rat) : World :=
  let w := tiles.foldl (fun w t => w.publishTile led srv h s t) w
  let w := w.updYield h fun y => { y with
    slices := y.slices.filter (fun z => decide (k ≤ z.k + 300) || y.tiles.any (fun t => t.first ≤ z.k && z.k ≤ t.last)) }
  let w := w.when (flag ≠ 4) fun w => w.externalWrite srv h (refIndex s.flowOut) q
  w.when (s.tankOut ≠ 0) fun w => w.externalWrite srv h (refIndex s.tankOut) (w.yield h).tank

theorem World.cycleEnds_leaves {w : World} {led : Memory} {srv h : Half} {s : YildSec} {k : Nat} (tiles : List YTile) (flag : Nat) (q : Rat)
    {y : Yield} (hy : w.yield h = y) {c : Bool} (hs : y.HasSlice k c) :
    let t := (w.cycleEnds led srv h s k tiles flag q).yield h
    t.HasSlice k c ∧ t.crop = y.crop ∧ t.lastK = y.lastK ∧ t.by_ = y.by_ ∧ t.tank = y.tank := by
  intro t
  have hext (u : World) (c : Bool) (o : Nat) (x : World → Rat) : (u.when c fun u => u.externalWrite srv h o (x u)).yield h = u.yield h := by
    rw [World.apply_when (fun u => u.yield h)]
    split
    · refine World.yield_congr ?_ h
      exact (World.externalWrite_rest (q0 := [.evt, .uin, .reg 0x100018, .reg 0x700020, .reg 0x700024, .reg 0x70002C, .reg 0x700030,
        .reg 0x700044, .reg 0x701000, .reg 0x701004]) (by decide) (Rest.refl _ u)).yld (by decide)
    · rfl
  have hline : ((tiles.foldl (fun w t => w.publishTile led srv h s t) w).yield h).line = y.line := by
    rw [← hy]
    exact World.forAll_keeps (fun u => (u.yield h).line) (f := fun w t => w.publishTile led srv h s t)
      (fun u a => u.line_publishTile led srv h s a) tiles w
  obtain ⟨z, hz, hk, hc⟩ := hs
  obtain ⟨v, hv⟩ : ∃ v, (tiles.foldl (fun w t => w.publishTile led srv h s t) w).yield h = v := ⟨_, rfl⟩
  have ht : t = { v with
      slices := v.slices.filter (fun z => decide (k ≤ z.k + 300) || v.tiles.any (fun t => t.first ≤ z.k && z.k ≤ t.last)) } := by
    change (World.cycleEnds w led srv h s k tiles flag q).yield h = _
    rw [World.cycleEnds, hext _ _ _ fun w => (w.yield h).tank, hext _ _ _ fun _ => q, World.yield_updYield_same, hv]
  rw [hv] at hline
  have hslices : v.slices = y.slices := Yield.of_line Yield.slices (fun _ => rfl) hline
  have hcrop : v.crop = y.crop := Yield.of_line Yield.crop (fun _ => rfl) hline
  have hlast : v.lastK = y.lastK := Yield.of_line Yield.lastK (fun _ => rfl) hline
  have hby : v.by_ = y.by_ := Yield.of_line Yield.by_ (fun _ => rfl) hline
  have htank : v.tank = y.tank := Yield.of_line Yield.tank (fun _ => rfl) hline
  rw [ht]
  refine ⟨⟨z, ?_, hk, hc⟩, hcrop, hlast, hby, htank⟩
  rw [List.mem_filter]
  exact ⟨hslices ▸ hz, by simp [hk]⟩

theorem World.openSlice_leaves (w : World) (h : Half) (y : Yield) (s : YildSec) (k : Nat) (cut : Bool) :
    (w.openSlice h y s k cut).k = k ∧ (w.openSlice h y s k cut).cutting = cut := by
  unfold World.openSlice
  dsimp only
  split
  · split
    · exact ⟨rfl, rfl⟩
    · exact ⟨rfl, rfl⟩
  · exact ⟨rfl, rfl⟩

theorem World.takeCrop_crop (w : World) (h : Half) (s : YildSec) : ((w.takeCrop h s).yield h).crop = w.rd h F.SET_YLD_CTRL.CROP := by
  unfold World.takeCrop
  dsimp only
  rw [World.apply_when (fun u => (u.yield h).crop), World.yield_updYield_same]
  split
  · rfl
  · next hc => exact Eq.symm (by simpa using hc)

@[simp] theorem World.yield_showYield (w : World) (led : Memory) (h : Half) (f : Flow) (x : Slice) (mv : Rat) (src : Nat) (g : Half) :
    (w.showYield led h f x mv src).yield g = w.yield g := by
  simp only [World.showYield, World.yield_showTotals, World.yield_wr]

theorem World.rd_showYield_cutting (w : World) (led : Memory) (h : Half) (f : Flow) (x : Slice) (mv : Rat) (src : Nat) :
    (w.showYield led h f x mv src).rd h F.SET_YLD_STATUS.CUTTING = b2n x.cutting := by
  simp (disch := decide) only [World.showYield, World.showTotals, World.rd_wr_apart, World.rd_wr_same]
  exact b2n_mod_two _

/-- A cycle in its parts: the crop slot, the pipeline's state, the tiles and outputs, the registers. -/
theorem World.yieldCycle_eq (w : World) (led : Memory) (srv h : Half) (s : YildSec) :
    ∃ x f o u smp tiles q mv src, x.k = w.mt h / (100 * ms) ∧
      w.yieldCycle led srv h s = ((((w.takeCrop h s).updYield h fun _ =>
        ((w.takeCrop h s).yield h).cycled s h (w.mt h / (100 * ms)) x f o u smp).cycleEnds led srv h s (w.mt h / (100 * ms)) tiles f.flag
          q).showYield led h f x mv src) :=
  ⟨_, _, _, _, _, _, _, _, _, (World.openSlice_leaves _ _ _ _ _ _).1, rfl⟩

theorem World.yield_withDram (w : World) (d : Two Memory) (h : Half) : World.yield { w with dram := d } h = w.yield h := (rfl)

theorem World.yield_copied (w : World) (l : List Field) (h k g : Half) :
    (l.foldl (fun u f => u.wr h f 0 (u.rd k f)) w).yield g = w.yield g :=
  World.forAll_keeps (fun u => u.yield g) (f := fun u f => u.wr h f 0 (u.rd k f)) (fun u f => u.yield_wr h f 0 _ g) l w

theorem World.yield_mirrorYield (w : World) (h : Half) : (w.mirrorYield h).yield h = w.yield h := by
  unfold World.mirrorYield
  rw [World.apply_when (fun u => u.yield h)]
  split
  · rw [World.yield_showTotals, World.yield_withDram, World.yield_copied, World.yield_updYield_ne _ _ h.ne_other]
  · rfl

/-! Weighed loads (R291–R293). -/

/-- What completes or refuses a weighed load (R292). -/
def Yield.weighRes (y : Yield) (kg : Nat) : Nat :=
  let l := y.load
  let ratio : Rat := if l.mass = 0 then 0 else (kg : Rat) / l.mass
  if l.mass < 2000 || l.stop < l.start + 600 then 3
  else if l.flow < 20 * l.bad then 4
  else if l.unloaded then 5
  else if ratio < 80 / 100 || 125 / 100 < ratio then 6
  else if 8 ≤ y.stored.length then 9
  else 0

theorem Yield.weighRes_lt (y : Yield) (kg : Nat) : y.weighRes kg < 16 := by
  unfold Yield.weighRes
  dsimp only
  repeat' split
  all_goals decide

/-- A weighed load ended with a result. -/
def World.weighed (w : World) (h : Half) (kg res : Nat) : World :=
  let l := (w.yield h).load
  let ratio : Rat := if l.mass = 0 then 0 else (kg : Rat) / l.mass
  let w := ((w.wr h F.SET_YLD_CAL.STATE 0 0).calResult h res).wr h F.SET_YLD_CAL.FACTOR 0 (satTo 16 (roundN (10000 * ratio)))
  (w.updYield h fun y => { y with
    load := {}, stored := if res = 0 then y.stored ++ [⟨l.crop, kg, l.mass, l.sMass / l.mass⟩] else y.stored }).showLoads h

theorem exec_yldCalWeight {h : Half} (kg : Nat) {s : State} (hstate : s.w.rd h F.SET_YLD_CAL.STATE = 3) :
    exec (.yldCalWeight h kg) s = .next { s with
      w := (s.w.wr h F.SET_YLD_CAL_WT.KG 0 kg).weighed h kg ((s.w.yield h).weighRes kg) } := by
  change execYldCalWeight h kg s = _
  unfold execYldCalWeight lift
  dsimp only
  rw [if_neg (by rw [World.rd_wr_apart _ _ _ _ _ _ _ _ (by decide), hstate]; decide), World.yield_wr]
  rfl

theorem World.weighed_leaves (w : World) (h : Half) (kg : Nat) {res : Nat} (hres : res < 16) :
    let t := w.weighed h kg res
    t.rd h F.SET_YLD_CAL.STATE = 0 ∧ t.rd h F.SET_YLD_CAL.RES = res ∧ t.rd h F.SET_YLD_CAL_WT.KG = w.rd h F.SET_YLD_CAL_WT.KG ∧
      t.rd h F.SET_YLD_CAL.FACTOR =
        satTo 16 (roundN (10000 * if (w.yield h).load.mass = 0 then 0 else (kg : Rat) / (w.yield h).load.mass)) ∧
      t.yield h = { w.yield h with load := {}, stored := if res = 0 then (w.yield h).stored ++
        [⟨(w.yield h).load.crop, kg, (w.yield h).load.mass, (w.yield h).load.sMass / (w.yield h).load.mass⟩] else (w.yield h).stored } := by
  have hsat (x : Rat) : satTo 16 (roundN x) % 2 ^ 16 = satTo 16 (roundN x) := Nat.mod_eq_of_lt (satTo_lt 16 _)
  unfold World.weighed
  dsimp only
  refine ⟨?_, ?_, ?_, ?_, ?_⟩
  · simp (disch := decide) only [World.rd_showLoads_other, World.rd_updYield, World.rd_wr_apart, World.rd_calResult_other, World.rd_wr_same]
    rfl
  · simp (disch := decide) only [World.rd_showLoads_other, World.rd_updYield, World.rd_wr_apart]
    exact World.rd_calResult _ _ hres
  · simp (disch := decide) only [World.rd_showLoads_other, World.rd_updYield, World.rd_wr_apart, World.rd_calResult_other]
  · simp (disch := decide) only [World.rd_showLoads_other, World.rd_updYield, World.rd_wr_same]
    exact hsat _
  · rw [World.yield_showLoads, World.yield_updYield_same, World.yield_wr, World.yield_calResult, World.yield_wr]

/-- What completes or refuses the commitment of the stored loads of the crop slot in use (R293). -/
def World.commitRes (w : World) (h : Half) (init : Nat) (loads : List CalStored) (new : List Rat) : Nat :=
  if w.rd h F.SET_YLD_CAL.STATE ≠ 0 then 7
  else if !w.calHolds h init then 8
  else if loads.isEmpty then 3
  else if new.any (fun v => v < 80 / 100 || 125 / 100 < v) then 6
  else 0

section
variable {w : World} {h : Half} {init : Nat} {loads : List CalStored} {new : List Rat}

theorem World.commitRes_busy (hst : w.rd h F.SET_YLD_CAL.STATE ≠ 0) : w.commitRes h init loads new = 7 := if_pos hst

theorem World.commitRes_closed (hst : w.rd h F.SET_YLD_CAL.STATE = 0) (hh : w.calHolds h init = false) :
    w.commitRes h init loads new = 8 := by
  rw [World.commitRes, if_neg (not_not.mpr hst), hh]
  rfl

theorem World.commitRes_empty (hst : w.rd h F.SET_YLD_CAL.STATE = 0) (hh : w.calHolds h init = true) (hl : loads = []) :
    w.commitRes h init loads new = 3 := by
  rw [World.commitRes, if_neg (not_not.mpr hst), hh, hl]
  rfl

theorem World.commitRes_range (hst : w.rd h F.SET_YLD_CAL.STATE = 0) (hh : w.calHolds h init = true) (hl : loads ≠ [])
    (hv : ∃ v ∈ new, v < 80 / 100 ∨ 125 / 100 < v) : w.commitRes h init loads new = 6 := by
  have hany : new.any (fun v => v < 80 / 100 || 125 / 100 < v) = true := by simpa [List.any_eq_true] using hv
  rw [World.commitRes, if_neg (not_not.mpr hst), hh, if_neg (by decide), if_neg (by simpa using hl), if_pos hany]

theorem World.commitRes_done (hst : w.rd h F.SET_YLD_CAL.STATE = 0) (hh : w.calHolds h init = true) (hl : loads ≠ [])
    (hv : ∀ v ∈ new, 80 / 100 ≤ v ∧ v ≤ 125 / 100) : w.commitRes h init loads new = 0 := by
  have hany : ¬ new.any (fun v => v < 80 / 100 || 125 / 100 < v) = true := by
    rw [Bool.not_eq_true, List.any_eq_false]
    intro v hm
    simp [not_lt.mpr (hv v hm).1, not_lt.mpr (hv v hm).2]
  rw [World.commitRes, if_neg (not_not.mpr hst), hh, if_neg (by decide), if_neg (by simpa using hl), if_neg hany]

end

/-- The commitment's payload. -/
def State.commitBytes (s : State) (h : Half) (loads : List CalStored) (new : List Rat) : List Byte :=
  (new.map (fun v => leBytes (roundN (10000 * v)) 2)).flatten ++
    leBytes ((((ledgerEntry s.ledger 8 (s.w.yield h).crop).map (byteAt · 16)).getD 0) + 1) 1 ++ leBytes loads.length 1 ++
    leBytes 0 2 ++ leBytes (s.w.utc h) 4

/-- The loads of the slot committed. -/
def World.committed (w : World) (h : Half) : World :=
  (((w.calResult h 0).updYield h fun y => { y with stored := y.stored.filter (fun l => l.crop ≠ y.crop) }).showLoads h).calCount 1

theorem exec_yldCalCommit {h : Half} (init : Nat) {s : State} {sec : YildSec} {loads : List CalStored} {new : List Rat}
    (hsec : (s.w.yield h).sec = some sec) (hloads : loads = (s.w.yield h).stored.filter (fun l => l.crop = (s.w.yield h).crop))
    (hnew : new = newFactors (sec.crops.getD (s.w.yield h).crop {}) (yieldFactors s.ledger (s.w.yield h).crop) loads) :
    exec (.yldCalCommit h init) s = .next (if s.w.commitRes h init loads new ≠ 0 then
        { s with w := s.w.calResult h (s.w.commitRes h init loads new) }
      else { s with
        ledger := ledgerWrite s.ledger 8 (s.w.yield h).crop 2 (s.w.utc h) (s.commitBytes h loads new)
        w := s.w.committed h }) := by
  subst hnew hloads
  change execYldCalCommit h init s = _
  unfold execYldCalCommit
  rw [hsec]
  rfl

@[simp] theorem World.yield_calCount (w : World) (n : Nat) (g : Half) : (w.calCount n).yield g = w.yield g := w.yield_wr _ _ _ _ _
theorem World.rd_calCount (w : World) (n : Nat) (g : Half) (f : Field) (i : Nat) (hf : fieldsApart F.CAL_STATUS.WRITES f = true) :
    (w.calCount n).rd g f i = w.rd g f i := by
  rw [World.calCount, World.rd_hidden, World.rd_wr_apart _ _ _ _ _ _ _ _ hf]

theorem World.committed_leaves (w : World) (h : Half) : (w.committed h).rd h F.SET_YLD_CAL.RES = 0 ∧
    ((w.committed h).yield h).stored = (w.yield h).stored.filter (fun l => l.crop ≠ (w.yield h).crop) := by
  unfold World.committed
  refine ⟨?_, ?_⟩
  · rw [World.rd_calCount _ _ _ _ _ (by decide), World.rd_showLoads_other _ _ _ _ _ (by decide), World.rd_updYield]
    exact World.rd_calResult _ _ (by decide)
  · rw [World.yield_calCount, World.yield_showLoads, World.yield_updYield_same, World.yield_calResult]

end Sys2Proof.Machine
end

section
open Sys2Proof Sys2Proof.Machine

/-- Settles O37: a cycle is the change of the pipeline's state that `Yield.cycled_leaves` describes; each command of a weighed load ends
in the result of its first refusal, or in 0. -/
theorem yieldPipeline : Obligations.yieldPipeline := by
  unfold Obligations.yieldPipeline
  refine ⟨?cycle, ?cycleNot, ?crop, ?tank, ?tot, ?start, ?stop, ?stopNot, ?flush, ?weight, ?weightRes, ?weightNot, ?abort, ?commit, ?clear⟩
  case cycle =>
    intro h s sec hsec hserver hrun
    obtain ⟨x, f, o, u, smp, tiles, q, mv, src, hxk, heq⟩ := s.w.yieldCycle_eq s.ledger s.srv h sec
    obtain ⟨y, hy⟩ : ∃ y, ((s.w.takeCrop h sec).yield h).cycled sec h (s.w.mt h / (100 * ms)) x f o u smp = y := ⟨_, rfl⟩
    obtain ⟨v, hv⟩ : ∃ v, ((s.w.takeCrop h sec).updYield h fun _ => y).cycleEnds s.ledger s.srv h sec (s.w.mt h / (100 * ms)) tiles f.flag q =
      v := ⟨_, rfl⟩
    have hexec : exec (.yieldCycle h) s = .next { s with w := (v.showYield s.ledger h f x mv src).mirrorYield h } := by
      change execYieldCycle h s = _
      unfold execYieldCycle lift
      dsimp only
      rw [hsec]
      dsimp only
      rw [if_pos (by simp [Own.serves, hserver, World.flag_eq_true_iff.mpr hrun]), heq, hy, hv]
    obtain ⟨hslice, hcrop, hlast, hby, hlo, hhi⟩ :=
      ((s.w.takeCrop h sec).yield h).cycled_leaves sec h (s.w.mt h / (100 * ms)) x f o u smp
    rw [hy] at hslice hcrop hlast hby hlo hhi
    rw [hxk] at hslice
    obtain ⟨⟨z, hz, hzk, hzc⟩, hcrop', hlast', hby', htank⟩ := World.cycleEnds_leaves (led := s.ledger) (srv := s.srv) (s := sec) tiles f.flag q
      ((s.w.takeCrop h sec).yield_updYield_same h fun _ => y) hslice
    rw [hv] at hz hcrop' hlast' hby' htank
    have hyield : (((v.showYield s.ledger h f x mv src).mirrorYield h).yield h) = v.yield h := by
      rw [World.yield_mirrorYield, World.yield_showYield]
    refine .of_exec hexec ⟨?_, ?_, ⟨z, ?_, hzk, ?_⟩, ?_, ?_, ?_, exec_quiet hexec rfl⟩
    · rw [hyield, hlast', hlast]
      rfl
    · rw [hyield, hby', hby]
    · rw [hyield]
      exact hz
    · rw [(World.mirrorYield_rest (q0 := [.yld, .dram, .reg 0x400600, .reg 0x400610, .reg 0x400614, .reg 0x400618, .reg 0x40061C,
        .reg 0x400620, .reg 0x400634, .reg 0x400638, .reg 0x400640, .reg 0x400644]) (by decide) (Rest.refl _ _)).rd_outside
        (ks := [0x400600, 0x400610, 0x400614, 0x400618, 0x40061C, 0x400620, 0x400634, 0x400638, 0x400640, 0x400644]) (by decide) (by decide),
        World.rd_showYield_cutting, hzc]
    · rw [hyield, htank]
      exact hlo
    · rw [hyield, htank]
      exact hhi
    · rw [hyield, hcrop', hcrop, World.takeCrop_crop]
  case cycleNot =>
    intro h s hnot
    refine .of_exec (t := s) ?_ rfl
    change execYieldCycle h s = _
    unfold execYieldCycle lift
    dsimp only
    split
    · rfl
    · rw [if_neg]
      obtain hs | hr := hnot
      · simp [Own.serves, hs]
      · simp [(World.flag_eq_false_iff rfl).mpr hr]
  case crop =>
    intro h v s sec hsec hv
    have hexec : exec (.yieldCropChange h v) s = .next { s with
        w := if v < sec.crops.length then s.w.wr h F.SET_YLD_CTRL.CROP 0 v else s.w } := by
      change execYieldCropChange h v s = _
      unfold execYieldCropChange lift
      dsimp only
      rw [hsec]
    by_cases hlt : v < sec.crops.length
    · rw [if_pos hlt] at hexec
      refine .of_exec hexec ⟨?_, exec_regsBut hexec rfl, s.w.wr_yld _ _ _ _, exec_quiet hexec rfl⟩
      rw [if_pos hlt, World.rd_wr_same _ _ _ _ _ (by decide)]
      exact Nat.mod_eq_of_lt hv
    · rw [if_neg hlt] at hexec
      refine .of_exec hexec ⟨?_, exec_regsBut hexec rfl, rfl, exec_quiet hexec rfl⟩
      rw [if_neg hlt]
  case tank =>
    intro h s
    have hexec : exec (.tankZero h) s = .next { s with w := (s.w.updYield h fun y => { y with tank := 0 }).showTotals h } := rfl
    have hy := s.w.yield_updYield_same h fun y => { y with tank := 0 }
    obtain ⟨htank, -⟩ := (s.w.updYield h fun y => { y with tank := 0 }).rd_showTotals h
    refine .of_exec hexec ⟨?_, ?_, ?_, exec_quiet hexec rfl⟩
    · rw [World.yield_showTotals, hy]
    · rw [htank, hy, satTo_roundN_zero]
    · rw [World.yield_showTotals, hy]
  case tot =>
    intro h s
    have hexec : exec (.totClr h) s = .next { s with
        w := (s.w.updYield h fun y => { y with totWet := 0, totStd := 0, totArea := 0, unassigned := 0 }).showTotals h } := rfl
    have hy := s.w.yield_updYield_same h fun y => { y with totWet := 0, totStd := 0, totArea := 0, unassigned := 0 }
    obtain ⟨-, hwet, hstd, harea, hun⟩ :=
      (s.w.updYield h fun y => { y with totWet := 0, totStd := 0, totArea := 0, unassigned := 0 }).rd_showTotals h
    rw [hy, satTo_roundN_zero] at hwet hstd harea hun
    refine .of_exec hexec ⟨?_, ?_, ?_, ?_, hwet, hstd, harea, hun, ?_, exec_quiet hexec rfl⟩
    all_goals rw [World.yield_showTotals, hy]
  case start =>
    intro h s sec hsec
    obtain ⟨any, hany⟩ : ∃ any, (s.w.yield h).slices.any (fun z =>
      z.cutting && decide (s.w.mt h / (100 * ms) ≤ z.k + max sec.dFlow sec.dMoist + sec.flush)) = any := ⟨_, rfl⟩
    obtain ⟨u, hu⟩ : ∃ u, s.w.updYield h (fun y => { y with load := { start := s.w.mt h / (100 * ms), crop := (s.w.yield h).crop } }) = u :=
      ⟨_, rfl⟩
    have hexec : exec (.yldCalStart h) s = .next { s with
        w := if s.w.rd h F.SET_YLD_CAL.STATE ≠ 0 then s.w.calResult h 7
          else if any then s.w.calResult h 1
          else (u.wr h F.SET_YLD_CAL.STATE 0 1).calResult h 0 } := by
      change execYldCalStart h s = _
      unfold execYldCalStart lift
      dsimp only
      rw [hsec]
      dsimp only
      rw [hany, ← hu]
      rfl
    by_cases hstate : s.w.rd h F.SET_YLD_CAL.STATE = 0
    · rw [if_neg (not_not.mpr hstate)] at hexec
      cases any with
      | true =>
        rw [if_pos rfl] at hexec
        refine .of_exec hexec ⟨fun hn => absurd hstate hn, fun _ hs => ?_, fun _ _ => ⟨World.rd_calResult _ _ (by decide), ?_, ?_⟩,
          exec_quiet hexec rfl⟩
        · rw [hs] at hany
          exact absurd hany Bool.false_ne_true
        · rw [World.rd_calResult_other _ _ _ _ _ _ (by decide), hstate]
        · exact s.w.wr_yld _ _ _ _
      | false =>
        rw [if_neg Bool.false_ne_true] at hexec
        refine .of_exec hexec ⟨fun hn => absurd hstate hn, fun _ _ => ⟨World.rd_calResult _ _ (by decide), ?_, ?_⟩, fun _ hz => ?_,
          exec_quiet hexec rfl⟩
        · rw [World.rd_calResult_other _ _ _ _ _ _ (by decide), World.rd_wr_same _ _ _ _ _ (by decide)]
          rfl
        · rw [World.yield_calResult, World.yield_wr, ← hu, World.yield_updYield_same]
          rfl
        · obtain ⟨z, hz, hcut, hle⟩ := hz
          rw [List.any_eq_false] at hany
          exact absurd (Bool.and_eq_true _ _ ▸ ⟨hcut, decide_eq_true hle⟩) (hany z hz)
    · rw [if_pos hstate] at hexec
      exact .of_exec hexec ⟨fun _ => ⟨World.rd_calResult _ _ (by decide), s.w.wr_yld _ _ _ _⟩, fun hn => absurd hn hstate,
        fun hn => absurd hn hstate, exec_quiet hexec rfl⟩
  case stop =>
    intro h s hstate
    obtain ⟨u, hu⟩ : ∃ u, s.w.updYield h (fun y => { y with load := { y.load with stop := s.w.mt h / (100 * ms) } }) = u := ⟨_, rfl⟩
    have hexec : exec (.yldCalStop h) s = .next { s with
        w := if (s.w.yield h).cutting then s.w.calResult h 2 else (u.wr h F.SET_YLD_CAL.STATE 0 2).calResult h 0 } := by
      change execYldCalStop h s = _
      rw [execYldCalStop, lift, if_neg (not_not.mpr hstate), ← hu]
    cases hcut : (s.w.yield h).cutting with
    | true =>
      rw [hcut, if_pos rfl] at hexec
      refine .of_exec hexec ⟨fun _ => ⟨World.rd_calResult _ _ (by decide), ?_⟩, nofun, exec_quiet hexec rfl⟩
      rw [World.rd_calResult_other _ _ _ _ _ _ (by decide), hstate]
    | false =>
      rw [hcut, if_neg Bool.false_ne_true] at hexec
      refine .of_exec hexec ⟨nofun, fun _ => ⟨World.rd_calResult _ _ (by decide), ?_, ?_⟩, exec_quiet hexec rfl⟩
      · rw [World.rd_calResult_other _ _ _ _ _ _ (by decide), World.rd_wr_same _ _ _ _ _ (by decide)]
        rfl
      · rw [World.yield_calResult, World.yield_wr, ← hu, World.yield_updYield_same]
        rfl
  case stopNot =>
    intro h s hstate
    refine .of_exec (t := s) ?_ rfl
    change execYldCalStop h s = _
    rw [execYldCalStop, lift, if_pos hstate]
  case flush =>
    intro h s sec hsec hstate hle
    have hexec : exec (.yldCalFlushComplete h) s = .next { s with
        w := (s.w.wr h F.SET_YLD_CAL_MASS.KG 0 (satTo 32 (roundN (s.w.yield h).load.mass))).wr h F.SET_YLD_CAL.STATE 0 3 } := by
      change execYldCalFlushComplete h s = _
      unfold execYldCalFlushComplete lift
      dsimp only
      rw [hsec]
      dsimp only
      rw [decide_eq_true hstate, show 100 * ms = 100000000 from rfl, decide_eq_true hle]
      rfl
    refine .of_exec hexec ⟨?_, ?_, exec_regsBut hexec rfl, ?_, exec_quiet hexec rfl⟩
    · rw [World.rd_wr_same _ _ _ _ _ (by decide)]
      rfl
    · rw [World.rd_wr_apart _ _ _ _ _ _ _ _ (by decide), World.rd_wr_same _ _ _ _ _ (by decide)]
      exact Nat.mod_eq_of_lt (satTo_lt 32 _)
    · simp only [World.wr_yld]
  case weight =>
    intro h kg s hstate hmass htime hbad hun hlo hhi hroom
    have hexec := exec_yldCalWeight kg hstate
    have hne : (s.w.yield h).load.mass ≠ 0 := by
      intro h0
      rw [h0] at hmass
      exact absurd hmass (by norm_num)
    have hres : (s.w.yield h).weighRes kg = 0 := by
      unfold Yield.weighRes
      dsimp only
      rw [if_neg hne, if_neg (by simp [not_lt.mpr hmass, Nat.not_lt.mpr htime]), if_neg (Nat.not_lt.mpr hbad), hun, if_neg Bool.false_ne_true,
        if_neg (by simp [not_lt.mpr hlo, not_lt.mpr hhi]), if_neg (Nat.not_le.mpr hroom)]
    rw [hres] at hexec
    obtain ⟨hst, hr, hwt, hfac, hy⟩ := (s.w.wr h F.SET_YLD_CAL_WT.KG 0 kg).weighed_leaves h kg (res := 0) (by decide)
    rw [World.yield_wr] at hfac hy
    rw [if_neg hne] at hfac
    refine .of_exec hexec ⟨hst, hr, hwt.trans (World.rd_wr_same _ _ _ _ _ (by decide)), hfac, ?_, exec_quiet hexec rfl⟩
    rw [hy]
    rfl
  case weightRes =>
    intro h kg s hstate
    have hexec := exec_yldCalWeight kg hstate
    obtain ⟨hst, hr, -, -, hy⟩ := (s.w.wr h F.SET_YLD_CAL_WT.KG 0 kg).weighed_leaves h kg ((s.w.yield h).weighRes_lt kg)
    rw [World.yield_wr] at hy
    refine .of_exec hexec ⟨hst, by rw [hy], fun hor => ?_, fun hmass htime hbad hun => ?_, fun hne => ?_, exec_quiet hexec rfl⟩
    · rw [hr, Yield.weighRes]
      exact if_pos (by simpa using hor)
    · rw [hr, Yield.weighRes]
      rw [if_neg (by simp [not_lt.mpr hmass, Nat.not_lt.mpr htime]), if_neg (Nat.not_lt.mpr hbad), hun, if_pos rfl]
    · rw [hr] at hne
      rw [hy]
      exact if_neg hne
  case weightNot =>
    intro h kg s hstate
    have hexec : exec (.yldCalWeight h kg) s = .next { s with w := s.w.wr h F.SET_YLD_CAL_WT.KG 0 kg } := by
      change execYldCalWeight h kg s = _
      unfold execYldCalWeight lift
      dsimp only
      rw [if_pos (by rwa [World.rd_wr_apart _ _ _ _ _ _ _ _ (by decide)])]
    exact .of_exec hexec ⟨World.rd_wr_same _ _ _ _ _ (by decide), s.w.regsBut_wr h _ _ (by decide), s.w.wr_yld _ _ _ _, exec_quiet hexec rfl⟩
  case abort =>
    intro h s
    have hexec : exec (.yldCalAbort h) s = .next { s with
        w := (s.w.updYield h fun y => { y with load := {} }).wr h F.SET_YLD_CAL.STATE 0 0 } := rfl
    refine .of_exec hexec ⟨?_, ?_, ?_, exec_regsBut hexec rfl, exec_quiet hexec rfl⟩
    · rw [World.rd_wr_same _ _ _ _ _ (by decide)]
      rfl
    · rw [World.yield_wr, World.yield_updYield_same]
    · rw [World.yield_wr, World.yield_updYield_same]
  case commit =>
    intro h init s sec loads new hsec hloads hnew
    have hexec := exec_yldCalCommit init hsec hloads hnew
    obtain ⟨t, ht⟩ : ∃ t, (if s.w.commitRes h init loads new ≠ 0 then
      { s with w := s.w.calResult h (s.w.commitRes h init loads new) } else { s with
        ledger := ledgerWrite s.ledger 8 (s.w.yield h).crop 2 (s.w.utc h) (s.commitBytes h loads new)
        w := s.w.committed h }) = t := ⟨_, rfl⟩
    rw [ht] at hexec
    have hrefused {k : Nat} (hk : s.w.commitRes h init loads new = k) (h0 : k ≠ 0) (h16 : k < 16) :
        t.w.rd h F.SET_YLD_CAL.RES = k ∧ t.ledger = s.ledger ∧ (t.w.yield h).stored = (s.w.yield h).stored := by
      rw [hk, if_pos h0] at ht
      subst ht
      exact ⟨World.rd_calResult _ _ h16, rfl, by rw [World.yield_calResult]⟩
    refine .of_exec hexec ⟨fun hst => ?_, fun hst hh => ?_, fun hst hh hl => ?_, fun hst hh hl hv => ?_, fun hst hh hl hv => ?_, ?_⟩
    · obtain ⟨hres, hled, -⟩ := hrefused (World.commitRes_busy hst) (by decide) (by decide)
      exact ⟨hres, hled⟩
    · obtain ⟨hres, hled, -⟩ := hrefused (World.commitRes_closed hst hh) (by decide) (by decide)
      exact ⟨hres, hled⟩
    · obtain ⟨hres, hled, -⟩ := hrefused (World.commitRes_empty hst hh hl) (by decide) (by decide)
      exact ⟨hres, hled⟩
    · exact hrefused (World.commitRes_range hst hh hl hv) (by decide) (by decide)
    · rw [World.commitRes_done hst hh hl hv, if_neg (not_not.mpr rfl)] at ht
      subst ht
      obtain ⟨hres, hstored⟩ := s.w.committed_leaves h
      refine ⟨hres, hstored, ?_⟩
      dsimp only
      rw [State.commitBytes]
    · rw [← ht]
      split
      · rfl
      · rfl
  case clear =>
    intro h s
    have hexec : exec (.yldCalClear h) s = .next { s with w := (s.w.updYield h fun y => { y with stored := [] }).showLoads h } := rfl
    refine .of_exec hexec ⟨?_, ?_, exec_regsBut hexec rfl, exec_quiet hexec rfl⟩
    · rw [World.yield_showLoads, World.yield_updYield_same]
    · rw [World.showLoads, World.rd_wr_same _ _ _ _ _ (by decide), World.yield_updYield_same]
      rfl
end

section
/-!
SUPPORT. R516–R523: the bytes that a write of the Ledger touches, and the commands that read its journal.
-/
namespace Sys2Proof.Machine

/-! Bytes. -/

@[simp] theorem leBytes_length (v n : Nat) : (leBytes v n).length = n := by
  induction n generalizing v with
  | zero => rfl
  | succ n ih => simp only [leBytes, List.length_cons, ih]

/-- The image of a slot is as long as the slot for a payload that fits. -/
theorem slotImage_length {ty k src utc : Nat} {pl : List Byte} (hpl : pl.length ≤ 48) : (slotImage ty k src utc pl).length = 64 := by
  simp only [slotImage, List.length_append, leBytes_length, List.length_replicate]
  omega

theorem journalRec_length {addr seq mark : Nat} {img : List Byte} (himg : img.length = 64) : (journalRec addr seq img mark).length = 80 := by
  simp only [journalRec, List.length_append, leBytes_length, himg]

theorem payloadOk_length {ty : Nat} {pl : List Byte} (hpl : payloadOk ty pl = true) : pl.length ≤ 48 := by
  have hlen : pl.length = slotLen ty := by
    unfold payloadOk at hpl
    simp only [Bool.and_eq_true, decide_eq_true_eq] at hpl
    exact hpl.1
  rw [hlen]
  unfold slotLen
  split <;> decide

/-- A byte outside the entry's slot and the journal's next record. -/
theorem read_ledgerWrite_out {m : Memory} {ty k src utc b : Nat} {pl : List Byte} (hpl : pl.length ≤ 48)
    (hs : b < slotAddr ty k ∨ slotAddr ty k + 64 ≤ b)
    (hj : b < journalAddr ((journalLast m + 1) % 48) ∨ journalAddr ((journalLast m + 1) % 48) + 80 ≤ b) :
    (ledgerWrite m ty k src utc pl).read b = m.read b := by
  have himg := slotImage_length (ty := ty) (k := k) (src := src) (utc := utc) hpl
  unfold ledgerWrite
  dsimp only
  rw [Memory.read_writeN_out, Memory.read_writeN_out, Memory.read_writeN_out]
  · rw [journalRec_length himg]
    exact hj
  · rw [himg]
    exact hs
  · rw [journalRec_length himg]
    exact hj

/-- A record of the journal lies within it. -/
theorem journal_out {m : Memory} {b : Nat} (hb : b < 0x100 ∨ 0x1000 ≤ b) :
    b < journalAddr ((journalLast m + 1) % 48) ∨ journalAddr ((journalLast m + 1) % 48) + 80 ≤ b := by
  have hlt : (journalLast m + 1) % 48 < 48 := Nat.mod_lt _ (by decide)
  unfold journalAddr
  omega

/-- Entries of a list of writes, each outside a byte. -/
theorem read_foldl_ledgerWrite {α : Type} {f : Memory → α → Memory} {b : Nat} {l : List α} (hf : ∀ m, ∀ x ∈ l, (f m x).read b = m.read b)
    (m : Memory) : (l.foldl f m).read b = m.read b := by
  induction l generalizing m with
  | nil => rfl
  | cons x l ih =>
    exact (ih (fun m y hy => hf m y (List.mem_cons_of_mem x hy)) _).trans (hf m x List.mem_cons_self)

theorem newFactors_length (c : Crop) (k : List Rat) (loads : List CalStored) : (newFactors c k loads).length = k.length := by
  unfold newFactors
  dsimp only
  split
  · rw [List.length_map, List.length_zipIdx]
  · rw [List.length_map]

theorem yieldFactors_length (led : Memory) (crop : Nat) : (yieldFactors led crop).length = 8 := by
  unfold yieldFactors
  split
  · exact List.length_replicate
  · rw [List.length_map, List.length_range]

theorem State.commitBytes_length (s : State) (h : Half) (loads : List CalStored) {new : List Rat} (hnew : new.length = 8) :
    (s.commitBytes h loads new).length = 24 := by
  have hsum : ((new.map fun v => leBytes (roundN (10000 * v)) 2).flatten).length = 16 := by
    have hconst : List.length ∘ (fun v : Rat => leBytes (roundN (10000 * v)) 2) = fun _ => 2 := funext fun v => leBytes_length _ _
    rw [List.length_flatten, List.map_map, hconst, List.map_const', List.sum_replicate, hnew]
    rfl
  simp only [State.commitBytes, List.length_append, leBytes_length, hsum]

/-! The journal's replay (R520). -/

/-- No record of the journal is due. -/
def NoDue (m : Memory) : Prop := ∀ i, i < 48 → journalDue m i = false

theorem State.replayJournal_of_noDue {s : State} (hd : NoDue s.ledger) : s.replayJournal = s := by
  unfold State.replayJournal
  rw [if_neg]
  rw [Bool.not_eq_true, List.any_eq_false]
  intro i hi
  rw [hd i (List.mem_range.mp hi)]
  exact Bool.false_ne_true

theorem Side.ledger_kept {q : List Part} {s t : State} (e : Side q t s) (hq : partIn q .ledger = false) : t.ledger = s.ledger := by
  obtain ⟨-, -, hl, -⟩ := e
  exact hl hq

theorem State.ledger_serve {s : State} (h : Half) (hd : NoDue s.ledger) : (s.serve h).ledger = s.ledger := by
  have hsame : (s.onOwn fun o => { o with server := some h }).replayJournal = s.onOwn fun o => { o with server := some h } :=
    State.replayJournal_of_noDue hd
  unfold State.serve
  dsimp only
  rw [hsame]
  rfl

theorem State.ledger_serverReq {s : State} (h : Half) (hd : NoDue s.ledger) : (s.serverReq h).ledger = s.ledger :=
  State.when_keeps State.ledger (State.ledger_serve h hd)

theorem State.ledger_claimAll (s : State) (h : Half) (l : List Nat) : (s.claimAll h l).ledger = s.ledger :=
  (State.claimAll_side (q0 := [.own]) (by decide) (Side.refl _ s)).ledger_kept (by decide)

theorem State.ledger_bloom8 {s : State} (h : Half) (hd : NoDue s.ledger) : (s.bloom8 h).ledger = s.ledger := by
  unfold State.bloom8
  dsimp only
  split
  · rfl
  · split
    · rfl
    · split
      · exact State.when_keeps State.ledger rfl
      · exact (State.when_keeps State.ledger (State.ledger_claimAll _ _ _)).trans (State.ledger_serverReq h hd)

theorem State.ledger_bloomStep {s : State} (h : Half) (k : Nat) (hd : NoDue s.ledger) : (s.bloomStep h k).ledger = s.ledger := by
  unfold State.bloomStep
  split
  · rfl
  · exact (State.bloom2_side (q0 := []) (by decide) (Side.refl _ s)).ledger_kept (by decide)
  · rfl
  · rfl
  · rfl
  · exact (State.bloom6_side (q0 := [.own]) (by decide) (Side.refl _ s)).ledger_kept (by decide)
  · rfl
  · exact State.ledger_bloom8 h hd
  · exact (State.bloom9_side (q0 := []) (by decide) (Side.refl _ s)).ledger_kept (by decide)
  · rfl

theorem State.ledger_activatePass {s : State} (n : Half) (hd : NoDue s.ledger) : (s.activatePass n).ledger = s.ledger := by
  obtain ⟨u, hu⟩ : ∃ u, s.when (s.own.serves n.other) (fun s => (s.handoverAllNow n.other).hold n.other 6) = u := ⟨_, rfl⟩
  have hled : u.ledger = s.ledger := by
    rw [← hu]
    refine State.when_keeps State.ledger ?_
    exact (State.hold_side (q0 := [.own]) (by decide) (State.handoverAllNow_side (by decide) (Side.refl _ s))).ledger_kept (by decide)
  unfold State.activatePass
  dsimp only
  rw [hu, (State.setOrphanT_side (q0 := [.own]) (by decide) (Side.refl _ (u.serverReq n))).ledger_kept (by decide),
    State.ledger_serverReq n (hled ▸ hd), hled]

theorem State.ledger_shutStep2 {s : State} (h : Half) (hd : NoDue s.ledger) : (s.shutStep2 h).ledger = s.ledger :=
  State.when_keeps State.ledger (congrArg State.ledger (State.replayJournal_of_noDue hd))

theorem State.ledger_shutBegin {s : State} (h : Half) (hd : NoDue s.ledger) : (s.shutBegin h).ledger = s.ledger :=
  State.ledger_shutStep2 h (s := s.onW fun _ => _) hd

theorem State.ledger_failHalf {s : State} (h : Half) (wrote : Bool) (m : List CupMeas) (hd : NoDue s.ledger) :
    (s.failHalf h wrote m).ledger = s.ledger := by
  unfold State.failHalf
  dsimp only
  split
  · rfl
  · split
    · rfl
    · refine ((State.hold_side (q0 := [.own]) (by decide) (Side.refl _ _)).ledger_kept (by decide)).trans ?_
      exact State.when_keeps State.ledger (State.ledger_shutStep2 h hd)

theorem State.ledger_prepareHalf {s : State} (x : Half) (hd : NoDue s.ledger) : (s.prepareHalf x).ledger = s.ledger := by
  unfold State.prepareHalf
  extract_lets o s1 s2 s3 s4 s5 s6
  have h2 : s2.ledger = s.ledger := State.forAll_keeps State.ledger (fun u g => State.when_keeps State.ledger
    ((State.moveGroup_side (q0 := [.own]) (by decide) (Side.refl _ u)).ledger_kept (by decide))) _ s1
  have h3 : s3.ledger = s.ledger := ((State.handoverAllNow_side (q0 := [.own]) (by decide) (Side.refl _ s2)).ledger_kept (by decide)).trans h2
  have h4 : s4.ledger = s.ledger := h3
  have h5 : s5.ledger = s.ledger :=
    (State.when_keeps State.ledger (congrArg State.ledger (State.replayJournal_of_noDue (h4 ▸ hd)))).trans h4
  have h6 : (s5.fence x).ledger = s.ledger := ((State.fence_side (q0 := [.own]) (by decide) (Side.refl _ s5)).ledger_kept (by decide)).trans h5
  exact (State.ledger_serverReq o (h6 ▸ hd)).trans h6

/-! The lock (R518). -/

theorem World.calClose_leaves (w : World) : w.calClose.rd .A F.CAL_LOCK.OPEN = 0 ∧ w.calClose.rd .A F.CAL_LOCK.HOLDER = 0 ∧
    w.calClose.cal.token = none := by
  unfold World.calClose
  refine ⟨?_, ?_, ?_⟩
  · rw [World.rd_wr_apart _ _ _ _ _ _ _ _ (by decide), World.rd_hidden, World.rd_wr_apart _ _ _ _ _ _ _ _ (by decide),
      World.rd_wr_same _ _ _ _ _ (by decide)]
    rfl
  · rw [World.rd_wr_apart _ _ _ _ _ _ _ _ (by decide), World.rd_hidden, World.rd_wr_same _ _ _ _ _ (by decide)]
    rfl
  · simp only [World.wr_cal]

@[simp] theorem rd_calRes (s : State) {r : Nat} (hr : r < 16) : (calRes s r).w.rd .A F.CAL_STATUS.RES = r :=
  (World.rd_wr_same _ _ _ _ _ (by decide)).trans (Nat.mod_eq_of_lt hr)
@[simp] theorem calRes_ledger (s : State) (r : Nat) : (calRes s r).ledger = s.ledger := (rfl)
@[simp] theorem calRes_own (s : State) (r : Nat) : (calRes s r).own = s.own := (rfl)

end Sys2Proof.Machine
end

section
namespace Sys2Proof.Machine

/-- A command whose footprint does not name the tokens leaves them. -/
theorem exec_own {c : Instr} {s t : State} (ht : exec c s = .next t) (hq : partIn (footprint c) .own = false) : t.own = s.own := by
  obtain ⟨⟨-, hown, -⟩, -⟩ := exec_frame ht
  exact hown hq

theorem Own.serves_iff {o : Own} {h : Half} : o.serves h = true ↔ o.server = some h := by simp [Own.serves]
theorem Own.serves_eq_false {o : Own} {h : Half} (hs : o.server ≠ some h) : o.serves h = false := by simp [Own.serves, hs]

/-- The token drawn is void (R518). -/
def World.spendToken (w : World) : World :=
  { w.wr w.cal.tokHalf F.CAL_TOKEN.TOKEN w.cal.tokInit 0 with cal := { (w.wr w.cal.tokHalf F.CAL_TOKEN.TOKEN w.cal.tokInit 0).cal with token := none } }

/-- CAL_LOCK opened for an initiator of half `h`. -/
def World.calOpen (w : World) (h : Half) (init : Nat) : World :=
  let w := (w.wr .A F.CAL_LOCK.OPEN 0 1).wr .A F.CAL_LOCK.HOLDER 0 init
  { w with cal := { w.cal with half := h, lastAt := w.now } }

/-- A restore by the holder of the lock in SERVICE, of a signed file for this module: its entries, or the first refusal. -/
theorem restoreLedger_empty {s : State} {h : Half} {init mask : Nat} {f : List Byte} {keys : List (List Byte)} (hserve : s.own.server = some h)
    (hholds : s.w.calHolds h init = true) (hsvc : s.w.inService h = true) (hsigned : fileSigned f keys = true)
    (hid : slice f 8 16 = s.ledger.readN 8 16) (hnone : u16At f 6 = 0) :
    (restoreLedger s h init mask f keys).w.rd .A F.CAL_STATUS.RES = 0 ∧ (restoreLedger s h init mask f keys).ledger = s.ledger := by
  have hentries : fileEntries f = [] := by rw [fileEntries, hnone]; rfl
  unfold restoreLedger
  rw [Own.serves_iff.mpr hserve, hholds, hsvc, hsigned, if_neg (by decide), if_neg (by decide), if_neg (by decide), if_neg (by decide),
    if_neg (not_not.mpr hid)]
  dsimp only
  rw [hentries]
  exact ⟨rd_calRes _ (by decide), rfl⟩

theorem restoreLedger_refused (s : State) (h : Half) (init mask : Nat) (f : List Byte) (keys : List (List Byte))
    (hres : (restoreLedger s h init mask f keys).w.rd .A F.CAL_STATUS.RES ≠ 0) : (restoreLedger s h init mask f keys).ledger = s.ledger := by
  unfold restoreLedger at hres ⊢
  split
  · rfl
  · next h1 =>
    split
    · rfl
    · next h2 =>
      split
      · rfl
      · next h3 =>
        split
        · rfl
        · next h4 =>
          split
          · rfl
          · next h5 =>
            rw [if_neg h1, if_neg h2, if_neg h3, if_neg h4, if_neg h5] at hres
            dsimp only at hres ⊢
            split
            · rfl
            · next h6 =>
              split
              · rfl
              · next h7 =>
                rw [if_neg h6, if_neg h7] at hres
                exact absurd (rd_calRes _ (by decide)) hres

end Sys2Proof.Machine

open Sys2Proof Sys2Proof.Machine

/-- Settles O38: each request of the Ledger ends in its first refusal or takes effect. -/
theorem ledgerCommands : Obligations.ledgerCommands := by
  unfold Obligations.ledgerCommands
  refine ⟨?token, ?tokenNot, ?key, ?keyNone, ?close, ?closeNot, ?timeout, ?timeoutNot, ?refused, ?write, ?restore⟩
  case token =>
    intro h init tok s hserve hinit
    obtain ⟨u, hu⟩ : ∃ u, s.w.wr s.w.cal.tokHalf F.CAL_TOKEN.TOKEN s.w.cal.tokInit 0 = u := ⟨_, rfl⟩
    have hexec : exec (.calTokenRequest h init tok) s = .next { s with
        w := World.wr { u with cal := { u.cal with token := some (tok % 2 ^ 32), tokHalf := h, tokInit := init } } h F.CAL_TOKEN.TOKEN init tok } := by
      change execCalTokenRequest h init tok s = _
      rw [execCalTokenRequest, if_pos (Own.serves_iff.mpr hserve), lift, ← hu]
    refine .of_exec hexec ⟨World.rd_wr_same _ _ _ _ _ (by decide), ?_, ?_, ?_, exec_quiet hexec rfl⟩
    all_goals rw [World.wr_cal]
  case tokenNot =>
    intro h init tok s hserve
    have hexec : exec (.calTokenRequest h init tok) s = .next { s with w := s.w.wr .A F.CAL_STATUS.RES 0 2 } := by
      change execCalTokenRequest h init tok s = _
      rw [execCalTokenRequest, Own.serves_eq_false hserve]
      rfl
    exact .of_exec hexec ⟨World.rd_wr_same _ _ _ _ _ (by decide), s.w.wr_cal _ _ _ _, s.w.regsBut_wr .A _ _ (by decide), exec_quiet hexec rfl⟩
  case key =>
    intro h init key s tok htok
    obtain ⟨u, hu⟩ : ∃ u, s.w.spendToken = u := ⟨_, rfl⟩
    obtain ⟨ok, hok⟩ : ∃ ok, (decide (tok = key % 2 ^ 32) && decide (s.w.cal.tokHalf = h) && decide (s.w.cal.tokInit = init)) = ok := ⟨_, rfl⟩
    have hexec : exec (.calKeyOffer h init key) s = .next { s with w := if ok then u.calOpen h init else u } := by
      change execCalKeyOffer h init key s = _
      unfold execCalKeyOffer lift
      dsimp only
      rw [htok]
      dsimp only
      rw [hok, ← hu]
      rfl
    have hnone : u.cal.token = none := by rw [← hu, World.spendToken]
    have hrd (f : Field) (hf : fieldsApart F.CAL_TOKEN.TOKEN f = true) : u.rd .A f = s.w.rd .A f := by
      rw [← hu, World.spendToken, World.rd_hidden, World.rd_wr_apart _ _ _ _ _ _ _ _ hf]
    cases ok with
    | true =>
      rw [if_pos rfl] at hexec
      have hall : (tok = key % 2 ^ 32 ∧ s.w.cal.tokHalf = h) ∧ s.w.cal.tokInit = init := by simpa using hok
      refine .of_exec hexec ⟨?_, exec_quiet hexec rfl, fun _ _ _ hinit => ⟨?_, ?_, rfl, ?_⟩, fun hor => ?_⟩
      · rw [World.calOpen]
        simpa using hnone
      · rw [World.calOpen, World.rd_hidden, World.rd_wr_apart _ _ _ _ _ _ _ _ (by decide), World.rd_wr_same _ _ _ _ _ (by decide)]
        rfl
      · rw [World.calOpen, World.rd_hidden, World.rd_wr_same _ _ _ _ _ (by decide)]
        exact Nat.mod_eq_of_lt hinit
      · change (World.wr _ _ _ _ _).now = _
        simp only [World.wr_now]
        rw [← hu, World.spendToken]
        simp only [World.wr_now]
      · obtain h1 | h2 | h3 := hor
        · exact absurd hall.1.1 h1
        · exact absurd hall.1.2 h2
        · exact absurd hall.2 h3
    | false =>
      rw [if_neg Bool.false_ne_true] at hexec
      refine .of_exec hexec ⟨hnone, exec_quiet hexec rfl, fun h1 h2 h3 _ => ?_, fun _ => ⟨?_, ?_⟩⟩
      · rw [decide_eq_true h1, decide_eq_true h2, decide_eq_true h3] at hok
        exact absurd hok (by decide)
      · dsimp only
        rw [hrd _ (by decide)]
      · dsimp only
        rw [hrd _ (by decide)]
  case keyNone =>
    intro h init key s htok
    refine .of_exec (t := s) ?_ rfl
    change execCalKeyOffer h init key s = _
    unfold execCalKeyOffer lift
    dsimp only
    rw [htok]
  case close =>
    intro h init s hholds
    have hexec : exec (.calLockClose h init) s = .next { s with w := s.w.calClose } := by
      change execCalLockClose h init s = _
      rw [execCalLockClose, lift, hholds, World.when_true]
    obtain ⟨hopen, hholder, htok⟩ := s.w.calClose_leaves
    exact .of_exec hexec ⟨hopen, hholder, htok, exec_quiet hexec rfl⟩
  case closeNot =>
    intro h init s hholds
    refine .of_exec (t := s) ?_ rfl
    change execCalLockClose h init s = _
    rw [execCalLockClose, lift, hholds, World.when_false]
  case timeout =>
    intro s hopen hat
    have hexec : exec .calLockTimeout s = .next { s with w := s.w.calClose } := by
      change execCalLockTimeout s = _
      rw [execCalLockTimeout, lift, World.flag_eq_true_iff.mpr hopen, show 600 * sec = 600000000000 from rfl, decide_eq_true hat]
      rfl
    obtain ⟨hopen, -, htok⟩ := s.w.calClose_leaves
    exact .of_exec hexec ⟨hopen, htok, exec_quiet hexec rfl⟩
  case timeoutNot =>
    intro s hat
    refine .of_exec (t := s) ?_ rfl
    change execCalLockTimeout s = _
    rw [execCalLockTimeout, lift, show 600 * sec = 600000000000 from rfl, decide_eq_false (Nat.not_le.mpr hat), Bool.and_false,
      World.when_false]
  case refused =>
    intro h init ty k pl s
    obtain ⟨t, ht⟩ : ∃ t, exec (.ledgerWrite h init ty k pl) s = .next t := ⟨_, rfl⟩
    have hrun : execLedgerWrite h init ty k pl s = .next t := ht
    unfold execLedgerWrite at hrun
    have hres {r : Nat} (hr : r < 16) (he : Host.Outcome.next (calRes s r) = (Host.Outcome.next t : Out)) :
        t.w.rd .A F.CAL_STATUS.RES = r ∧ t.ledger = s.ledger := by
      injection he with he
      subst he
      exact ⟨rd_calRes s hr, rfl⟩
    refine .of_exec ht ⟨fun hs => ?_, fun hs hh => ?_, fun hs hh hbad => ?_, fun hs hh h1 h9 hk hp => ?_, exec_own ht rfl⟩
    · rw [Own.serves_eq_false hs] at hrun
      exact hres (by decide) hrun
    · rw [Own.serves_iff.mpr hs, hh] at hrun
      exact hres (by decide) hrun
    · rw [Own.serves_iff.mpr hs, hh, if_neg (by decide), if_neg (by decide), if_pos (by simpa [or_assoc] using hbad)] at hrun
      exact hres (by decide) hrun
    · have hok : ¬ ((decide (ty = 0) || decide (9 < ty) || decide (slotCount ty ≤ k)) = true) := by
        simp only [Bool.or_eq_true, decide_eq_true_eq]
        omega
      rw [Own.serves_iff.mpr hs, hh, if_neg (by decide), if_neg (by decide), if_neg hok, hp] at hrun
      exact hres (by decide) hrun
  case write =>
    intro h init ty k pl s hs hh h1 h9 hk hp
    have hok : ¬ ((decide (ty = 0) || decide (9 < ty) || decide (slotCount ty ≤ k)) = true) := by
      simp only [Bool.or_eq_true, decide_eq_true_eq]
      omega
    have hexec : exec (.ledgerWrite h init ty k pl) s = .next
        (calRes { s with ledger := ledgerWrite s.ledger ty k 2 (s.w.utc h) pl, w := s.w.calCount 1 } 0) := by
      change execLedgerWrite h init ty k pl s = _
      rw [execLedgerWrite, Own.serves_iff.mpr hs, hh, if_neg (by decide), if_neg (by decide), if_neg hok, hp]
      rfl
    refine .of_exec hexec ⟨rd_calRes _ (by decide), ?_, ?_, ?_, calRes_own _ _⟩
    · rw [calRes_ledger]
    · rw [calRes, World.rd_wr_apart _ _ _ _ _ _ _ _ (by decide)]
      change (s.w.calCount 1).rd _ _ _ = _
      rw [World.calCount, World.rd_hidden, World.rd_wr_same _ _ _ _ _ (by decide)]
      exact Nat.mod_eq_of_lt (satTo_lt 10 _)
    · rw [calRes, World.wr_cal]
      change (s.w.calCount 1).cal.lastAt = _
      simp only [World.calCount, World.wr_now]
  case restore =>
    intro h init mask f s
    obtain ⟨keys, hkeys⟩ : ∃ keys, (((s.w.upd.get h).vault.keys.filter fun k =>
      k.kind = 1 && ((s.w.upd.get h).vault.key 1 k.id).isSome).map (·.key)) = keys := ⟨_, rfl⟩
    have hexec : exec (.ledgerRestore h init mask f) s = .next (restoreLedger s h init mask f keys) := by
      rw [← hkeys]
      rfl
    refine .of_exec hexec ⟨fun hs => ?_, fun hs hh => ?_, fun hs hh hv => ?_, fun hs hh hv hf hid hn => ?_, fun hne => ?_, exec_own hexec rfl⟩
    · rw [restoreLedger, Own.serves_eq_false hs, if_pos Bool.not_false]
      exact ⟨rd_calRes s (by decide), rfl⟩
    · rw [restoreLedger, Own.serves_iff.mpr hs, hh, if_neg (by decide), if_pos Bool.not_false]
      exact ⟨rd_calRes s (by decide), rfl⟩
    · rw [restoreLedger, Own.serves_iff.mpr hs, hh, hv, if_neg (by decide), if_neg (by decide), if_pos Bool.not_false]
      exact ⟨rd_calRes s (by decide), rfl⟩
    · rw [hkeys] at hf
      exact restoreLedger_empty hs hh hv hf hid hn
    · exact restoreLedger_refused _ _ _ _ _ _ hne
end

section
namespace Sys2Proof.Machine

theorem slotAddr_slot {ty k : Nat} (hk : k < slotCount ty) : slotBase ty ≤ slotAddr ty k ∧ slotAddr ty k + 64 ≤ slotBase ty + 64 * slotCount ty := by
  unfold slotAddr
  omega

/-- The journal lies from 0x100 to 0x1000, the entries of the six tiles' channels and serials in their types' slots. -/
theorem read_tileCal_out {s : State} {t b : Nat} (serial : List Byte) (cal : List (List Byte)) (hj : b < 0x100 ∨ 0x1000 ≤ b)
    (h1 : b < slotAddr 1 (16 * t) ∨ slotAddr 1 (16 * t) + 1024 ≤ b) (h9 : b < slotAddr 9 t ∨ slotAddr 9 t + 64 ≤ b) :
    (s.tileCal t serial cal).ledger.read b = s.ledger.read b := by
  have hput (m : Memory) (ty k utc : Nat) (pl : List Byte) (hs : b < slotAddr ty k ∨ slotAddr ty k + 64 ≤ b) :
      (if payloadOk ty pl then ledgerWrite m ty k 3 utc pl else m).read b = m.read b := by
    split
    · next hpl => exact read_ledgerWrite_out (payloadOk_length hpl) hs (journal_out hj)
    · rfl
  unfold State.tileCal
  split
  · rfl
  · dsimp only
    rw [hput _ _ _ _ _ h9]
    refine read_foldl_ledgerWrite (fun m x _ => ?_) _
    split
    · next hlt =>
      refine hput _ _ _ _ _ ?_
      unfold slotAddr at h1 ⊢
      omega
    · rfl

/-- A restore writes the masked types and the journal. -/
theorem read_restoreLedger_out {s : State} {h : Half} {init mask b : Nat} {f : List Byte} {keys : List (List Byte)}
    (hj : b < 0x100 ∨ 0x1000 ≤ b)
    (hs : ∀ ty, 1 ≤ ty → ty ≤ 8 → bitOf mask (ty - 1) = true → b < slotBase ty ∨ slotBase ty + 64 * slotCount ty ≤ b) :
    (restoreLedger s h init mask f keys).ledger.read b = s.ledger.read b := by
  unfold restoreLedger
  split
  · rfl
  · split
    · rfl
    · split
      · rfl
      · split
        · rfl
        · split
          · rfl
          · extract_lets es fits put
            split
            · rfl
            · next hcount =>
              split
              · rfl
              · next hok =>
                rw [calRes_ledger]
                refine read_foldl_ledgerWrite (fun m e he => ?_) _
                have hmem : e ∈ es := List.mem_of_mem_filter he
                have hmask : (1 ≤ e.1 ∧ e.1 ≤ 8) ∧ bitOf mask (e.1 - 1) = true := by simpa using (List.mem_filter.mp hmem).2
                have hlt : e.2.1 < slotCount e.1 := by
                  rw [Bool.not_eq_true, List.any_eq_false] at hcount
                  simpa using hcount e he
                have hpl : payloadOk e.1 e.2.2 = true := by
                  rw [Bool.not_eq_true, List.any_eq_false] at hok
                  simpa using hok e he
                have hslot := slotAddr_slot hlt
                have hout := hs e.1 hmask.1.1 hmask.1.2 hmask.2
                exact read_ledgerWrite_out (payloadOk_length hpl) (by omega) (journal_out hj)

/-- The outputs set at power-on leave the count of invalid entries. -/
theorem World.rd_invalid_safed (w : World) : ((((w.forAll (List.range nObj) World.safeObj).forAll greenOrder World.greenObj).latchEval).rd .A
    F.CAL_STATUS.INVALID) = w.rd .A F.CAL_STATUS.INVALID := by
  have hrest : Rest [.evt, .vlv, .lsw, .can, .dsp, .pwr, .latch, .reg 0x88, .reg 0x100018, .reg 0x500028, .reg 0x600024, .reg 0x600030,
      .reg 0x700080, .reg 0x900030, .reg 0x900044, .reg 0xF00018, .reg 0x1000020, .reg 0x1000044]
      ((w.forAll (List.range nObj) World.safeObj).forAll greenOrder World.greenObj).latchEval w :=
    World.latchEval_rest (by decide) (Rest.forAll (Rest.forAll (Rest.refl _ w) fun u k e => World.safeObj_rest (by decide) e)
      fun u k e => World.greenObj_rest (by decide) e)
  exact hrest.rd_outside (ks := [0x88, 0x100018, 0x500028, 0x600024, 0x600030, 0x700080, 0x900030, 0x900044, 0xF00018, 0x1000020, 0x1000044])
    (by decide) (by decide) .A 0

/-- Power-on: the entries counted, then the outputs set. -/
theorem State.backplaneOn_eq (s : State) (t1 t0 : Bool) (tiles : Nat) : ∃ (x : World) (own : Own), s.backplaneOn t1 t0 tiles = { s with
    w := (((x.wr .A F.CAL_STATUS.INVALID 0 (satTo 9 (ledgerInvalid s.ledger))).forAll (List.range nObj) World.safeObj).forAll greenOrder
      World.greenObj).latchEval
    own := own } := ⟨_, _, rfl⟩

theorem State.backplaneOn_leaves (s : State) (t1 t0 : Bool) (tiles : Nat) : (s.backplaneOn t1 t0 tiles).ledger = s.ledger ∧
    (s.backplaneOn t1 t0 tiles).w.rd .A F.CAL_STATUS.INVALID = satTo 9 (ledgerInvalid s.ledger) := by
  obtain ⟨x, own, he⟩ := s.backplaneOn_eq t1 t0 tiles
  rw [he]
  refine ⟨rfl, ?_⟩
  rw [World.rd_invalid_safed, World.rd_wr_same _ _ _ _ _ (by decide)]
  exact Nat.mod_eq_of_lt (satTo_lt 9 _)

/-- Backplane power-on with a record of the journal due (R520). -/
theorem exec_backplanePowerOn_due {t1 t0 : Bool} {tiles : Nat} {s : State} (ha : (s.w.run.get .A).running = false)
    (hb : (s.w.run.get .B).running = false) (hdue : ∃ i, i < 48 ∧ journalDue s.ledger i = true) : ∃ u,
    exec (.backplanePowerOn t1 t0 tiles) s = .next u ∧ u.ledger = journalReplay s.ledger ∧ u.w.rd .A F.CAL_STATUS.REPLAYED = 1 ∧
      u.w.rd .A F.CAL_STATUS.INVALID = satTo 9 (ledgerInvalid u.ledger) := by
  obtain ⟨i, hi, hdue⟩ := hdue
  have hany : (List.range 48).any (journalDue s.ledger) = true := List.any_eq_true.mpr ⟨i, List.mem_range.mpr hi, hdue⟩
  obtain ⟨hled, hinvalid⟩ := s.replayJournal.backplaneOn_leaves t1 t0 tiles
  obtain ⟨v, hv⟩ : ∃ v, s.replayJournal.backplaneOn t1 t0 tiles = v := ⟨_, rfl⟩
  have hreplay : s.replayJournal.ledger = journalReplay s.ledger := by rw [State.replayJournal, if_pos hany]
  rw [hv, hreplay] at hled hinvalid
  refine ⟨v.onW fun w => w.wr .A F.CAL_STATUS.REPLAYED 0 1, ?_, hled, World.rd_wr_same _ _ _ _ _ (by decide), ?_⟩
  · change execBackplanePowerOn t1 t0 tiles s = _
    unfold execBackplanePowerOn State.when
    dsimp only
    rw [ha, hb, if_pos (by decide), hany, hv]
    rfl
  · rw [State.onW_ledger, hled, ← hinvalid]
    exact World.rd_wr_apart _ _ _ _ _ _ _ _ (by decide)

theorem ledger_ite {c : Prop} [Decidable c] {a b : State} {m : Memory} (ha : a.ledger = m) (hb : b.ledger = m) :
    (if c then a else b).ledger = m := by
  split
  · exact ha
  · exact hb

/-- The steps of an activation: the fourth alone passes SERVER, and with it the Ledger. -/
theorem ledger_roastActivateRequest {s : State} (h : Half) (k : Nat) (hd : NoDue s.ledger) :
    ∃ t, exec (.roastActivateRequest h k) s = .next t ∧ t.ledger = s.ledger := by
  have hside {q : List Part} {u v : State} (e : Side q u v) (hq : partIn q .ledger = false) : u.ledger = v.ledger := e.ledger_kept hq
  have hstep (a : Activation) (j : Nat) : (s.setStep a j).ledger = s.ledger :=
    hside (State.setStep_side (q0 := []) (by decide) (Side.refl _ s)) (by decide)
  change ∃ t, execRoastActivateRequest h k s = .next t ∧ _
  unfold execRoastActivateRequest
  split
  · refine ⟨_, rfl, State.when_keeps State.ledger ?_⟩
    exact hside (State.activateAsk_side (q0 := []) (by decide) (Side.refl _ s)) (by decide)
  · split
    · refine ⟨_, rfl, State.when_keeps State.ledger ?_⟩
      exact hside (State.activateEnd_side (q0 := []) (by decide) (Side.refl _ s)) (by decide)
    · next a _ =>
      dsimp only
      split
      · refine ⟨_, rfl, State.when_keeps State.ledger ?_⟩
        refine (hside (State.setStep_side (q0 := []) (by decide) (Side.refl _ _)) (by decide)).trans (State.when_keeps State.ledger ?_)
        exact hside (State.handoverAllNow_side (q0 := [.own]) (by decide) (Side.refl _ s)) (by decide)
      · refine ⟨_, rfl, State.when_keeps State.ledger ?_⟩
        exact (hside (State.activateTrial_side (q0 := [.own, .bus]) (by decide) (Side.refl _ _)) (by decide)).trans (hstep a 2)
      · refine ⟨_, rfl, State.when_keeps State.ledger ?_⟩
        exact hstep a 3
      · refine ⟨_, rfl, State.when_keeps State.ledger ?_⟩
        exact (State.ledger_activatePass _ ((hstep a 4).symm ▸ hd)).trans (hstep a 4)
      · refine ⟨_, rfl, State.when_keeps State.ledger ?_⟩
        exact (hside (State.activateAdopt_side (q0 := [.own]) (by decide) (Side.refl _ _)) (by decide)).trans (hstep a 5)
      · refine ⟨_, rfl, State.when_keeps State.ledger ?_⟩
        exact (hside (State.activateOld_side (q0 := [.own, .bus]) (by decide) (Side.refl _ _)) (by decide)).trans (hstep a 6)
      · refine ⟨_, rfl, State.when_keeps State.ledger ?_⟩
        exact hside (State.activateEnd_side (q0 := []) (by decide) (Side.refl _ s)) (by decide)
      · refine ⟨_, rfl, State.when_keeps State.ledger ?_⟩
        exact hside (State.activateDrop_side (q0 := [.own, .bus]) (by decide) (Side.refl _ s)) (by decide)
      · exact ⟨_, rfl, rfl⟩

/-- With no record due, the commands that read the journal leave the Ledger. -/
theorem ledger_journalReaders {h : Half} {k : Nat} {cc : CupCond} {wrote : Bool} {ma mb : List CupMeas} {init target : Nat} {t1 t0 : Bool}
    {tiles : Nat} {c : Instr} {s : State} (hc : c ∈ [Instr.backplanePowerOn t1 t0 tiles, .serverRequest h, .bloom h k,
      .roastActivateRequest h k, .shutdown h k cc, .prepareHalf h init target, .powerFail wrote ma mb]) (hd : NoDue s.ledger) :
    ∃ t, exec c s = .next t ∧ t.ledger = s.ledger := by
  simp only [List.mem_cons, List.not_mem_nil, or_false] at hc
  obtain rfl | rfl | rfl | rfl | rfl | rfl | rfl := hc
  · refine ⟨_, rfl, State.when_keeps State.ledger ?_⟩
    rw [State.onW_ledger, State.replayJournal_of_noDue hd]
    exact (s.backplaneOn_leaves t1 t0 tiles).1
  · exact ⟨_, rfl, State.ledger_serverReq h hd⟩
  · refine ⟨_, rfl, State.when_keeps State.ledger ?_⟩
    exact State.ledger_bloomStep h k hd
  · exact ledger_roastActivateRequest h k hd
  · refine ⟨_, rfl, ?_⟩
    split
    · exact State.when_keeps State.ledger (State.ledger_shutBegin h hd)
    · refine State.when_keeps State.ledger ?_
      exact (State.shutRelease_side (q0 := [.own]) (by decide) (Side.refl _ s)).ledger_kept (by decide)
    · refine State.when_keeps State.ledger ?_
      exact (State.cupStart_side (q0 := [.own]) (by decide) (Side.refl _ s)).ledger_kept (by decide)
    · rfl
  · refine ⟨_, rfl, State.when_keeps State.ledger ?_⟩
    exact ledger_ite rfl (State.ledger_prepareHalf (s := s.onW fun w => w.svcAsk 1 target) (halfOf target) hd)
  · refine ⟨_, rfl, State.when_keeps State.ledger ?_⟩
    rw [State.onW_ledger]
    have hboth (u : State) (hu : NoDue u.ledger) : ((u.failHalf .A wrote ma).failHalf .B wrote mb).ledger = u.ledger := by
      have hfirst := State.ledger_failHalf .A wrote ma hu
      exact (State.ledger_failHalf .B wrote mb (hfirst.symm ▸ hu)).trans hfirst
    exact hboth _ hd

end Sys2Proof.Machine

open Sys2Proof Sys2Proof.Machine

/-- Settles O39: a write touches its slot and one journal record; a restore and a tile's record are such writes one after another; with no
record due the journal's replay does nothing. -/
theorem ledgerBytes : Obligations.ledgerBytes := by
  unfold Obligations.ledgerBytes
  refine ⟨?write, ?commit, ?restore, ?tile, ?readers, ?replay⟩
  case write =>
    intro h init ty k pl b s
    have hexec : exec (.ledgerWrite h init ty k pl) s = .next (if !s.own.serves h then calRes s 2 else if !s.w.calHolds h init then calRes s 1
        else if ty = 0 || 9 < ty || slotCount ty ≤ k then calRes s 3 else if !payloadOk ty pl then calRes s 4
        else calRes { s with ledger := ledgerWrite s.ledger ty k 2 (s.w.utc h) pl, w := s.w.calCount 1 } 0) := rfl
    refine .of_exec hexec fun hs hj => ?_
    split
    · rw [calRes_ledger]
    · split
      · rw [calRes_ledger]
      · split
        · rw [calRes_ledger]
        · split
          · rw [calRes_ledger]
          · next hok =>
            rw [calRes_ledger]
            have hpl : payloadOk ty pl = true := by simpa using hok
            rw [read_ledgerWrite_out (payloadOk_length hpl) hs hj]
  case commit =>
    intro h init b s
    cases hsec : (s.w.yield h).sec with
    | none =>
      refine .of_exec (t := s) ?_ fun _ _ => rfl
      change execYldCalCommit h init s = _
      unfold execYldCalCommit
      rw [hsec]
    | some sec =>
      refine .of_exec (exec_yldCalCommit init hsec rfl rfl) fun hs hj => ?_
      split
      · rfl
      · dsimp only
        refine read_ledgerWrite_out ?_ hs hj
        rw [State.commitBytes_length]
        · decide
        · rw [newFactors_length, yieldFactors_length]
  case restore =>
    intro h init mask f b s
    exact .of_exec rfl fun hj hs => read_restoreLedger_out hj hs
  case tile =>
    intro n rail serial cal b s
    refine .of_exec rfl fun hj h1 h9 => ?_
    refine State.when_keeps (fun t : State => t.ledger.read b) ?_
    exact read_tileCal_out serial cal hj h1 h9
  case readers =>
    intro h k cc wrote ma mb init target t1 t0 tiles c s hc hd
    exact ledger_journalReaders hc hd
  case replay =>
    intro t1 t0 tiles s ha hb hdue
    exact exec_backplanePowerOn_due ha hb hdue
end

section
namespace Sys2Proof.Machine

/-! SUPPORT. R475–R478: a frame of the Steward, and its watchdog. -/

theorem World.mt_congr {w v : World} (hnow : w.now = v.now) (htim : w.tim = v.tim) (h : Half) : w.mt h = v.mt h := by
  rw [World.mt, World.mt, hnow, htim]

theorem Rest.mt {q : List Part} {w v : World} (e : Rest q w v) (hq : (!partIn q .now && !partIn q .tim) = true) (h : Half) : w.mt h = v.mt h := by
  simp only [Bool.and_eq_true, Bool.not_eq_true'] at hq
  exact World.mt_congr (e.now hq.1) (e.tim hq.2) h

@[simp] theorem World.rd_updFrame (w : World) (h : Half) (u : Frame → Frame) (g : Half) (f : Field) (i : Nat) :
    (w.updFrame h u).rd g f i = w.rd g f i := (rfl)
@[simp] theorem World.frame_updFrame (w : World) (h : Half) (u : Frame → Frame) : (w.updFrame h u).frame.get h = u (w.frame.get h) :=
  Two.get_upd_same _ _ _

theorem World.rest_overload (w : World) (h : Half) (cause n : Nat) : Rest [.evt, .frame, .reg 0x100018] (w.overload h cause n) w :=
  World.overload_rest (by decide) (Rest.refl _ w)

theorem World.frame_overload (w : World) (h : Half) (cause n : Nat) :
    ∃ m, (w.overload h cause n).frame.get h = { w.frame.get h with rearm := m } := by
  unfold World.overload
  dsimp only
  rw [World.frame_updFrame, World.apply_when (fun u => u.frame.get h), World.raise_frame, ite_self]
  exact ⟨_, rfl⟩

theorem World.frame_when_overload (w : World) (c : Bool) (h : Half) (cause n : Nat) :
    ∃ m, (w.when c fun w => w.overload h cause n).frame.get h = { w.frame.get h with rearm := m } := by
  unfold World.when
  split
  · exact w.frame_overload h cause n
  · exact ⟨(w.frame.get h).rearm, rfl⟩

/-- The causes of an overload reported at a frame's start. -/
def World.overloads (w : World) (h : Half) (c0 c1 : Nat) : World :=
  let w := w.when (2000 < c1) fun w => w.overload h 3 100
  let w := w.when (3000 < c0) fun w => w.overload h 4 100
  w.when ((w.frame.get h).pausedRun = 100) fun w => w.overload h 5 100

theorem World.rest_overloads (w : World) (h : Half) (c0 c1 : Nat) : Rest [.evt, .frame, .reg 0x100018] (w.overloads h c0 c1) w :=
  Rest.when (Rest.when (Rest.when (Rest.refl _ w) fun _ e => World.overload_rest (by decide) e) fun _ e => World.overload_rest (by decide) e)
    fun _ e => World.overload_rest (by decide) e

theorem World.frame_overloads (w : World) (h : Half) (c0 c1 : Nat) :
    ∃ m, (w.overloads h c0 c1).frame.get h = { w.frame.get h with rearm := m } := by
  unfold World.overloads
  dsimp only
  obtain ⟨u, hu⟩ : ∃ u, w.when (2000 < c1) (fun w => w.overload h 3 100) = u := ⟨_, rfl⟩
  obtain ⟨v, hv⟩ : ∃ v, u.when (3000 < c0) (fun w => w.overload h 4 100) = v := ⟨_, rfl⟩
  obtain ⟨m1, h1⟩ := w.frame_when_overload (2000 < c1) h 3 100
  obtain ⟨m2, h2⟩ := u.frame_when_overload (3000 < c0) h 4 100
  obtain ⟨m3, h3⟩ := v.frame_when_overload ((v.frame.get h).pausedRun = 100) h 5 100
  rw [hu] at h1
  rw [hv] at h2
  rw [hu, hv, h3, h2, h1]
  exact ⟨m3, rfl⟩

/-- What the start of a frame leaves (R475, R477). -/
theorem World.frameStart_leaves (w : World) (h : Half) (busy c0 c1 : Nat) :
    let t := w.frameStart h busy c0 c1
    (t.rd h F.STW_LOAD.LOAD = min 100 (busy / 100) ∧ t.rd h F.STW_LOAD.PEAK = max (min 100 (busy / 100)) (w.rd h F.STW_LOAD.PEAK)) ∧
    ∃ m, t.frame.get h = { w.frame.get h with
      busy := busy, rearm := m, pausedRun := if (w.frame.get h).paused then min 100 ((w.frame.get h).pausedRun + 1) else 0
      start := w.mt h / (10 * ms) * (10 * ms), c0 := c0, c1 := c1, shed := false, paused := false } := by
  intro t
  obtain ⟨a, ha⟩ : ∃ a, w.frameEnd h busy = a := ⟨_, rfl⟩
  obtain ⟨b, hb⟩ : ∃ b, a.overloads h c0 c1 = b := ⟨_, rfl⟩
  have ht : t = (b.updFrame h fun f => { f with
      start := b.mt h / (10 * ms) * (10 * ms), c0 := c0, c1 := c1, shed := false, paused := false }).notePour h := by
    rw [← hb, ← ha]
    rfl
  have hpour : Rest [.run, .reg 0x80] t (b.updFrame h fun f => { f with
      start := b.mt h / (10 * ms) * (10 * ms), c0 := c0, c1 := c1, shed := false, paused := false }) := by
    rw [ht]
    exact World.notePour_rest (by decide) (Rest.refl _ _)
  have hover : Rest [.evt, .frame, .reg 0x100018] b a := hb ▸ a.rest_overloads h c0 c1
  have hend : Rest [.frame, .reg F.STW_LOAD.LOAD.reg] a w := by
    rw [← ha]
    exact World.frameEnd_rest (by decide) (Rest.refl _ w)
  have hrd (f : Field) (hf : outside [0x80] f = true) (hg : outside [0x100018] f = true) : t.rd h f = a.rd h f := by
    rw [hpour.rd_outside (by decide) hf, World.rd_updFrame, hover.rd_outside (by decide) hg]
  have hmt : b.mt h = w.mt h := (hover.mt (by decide) h).trans (hend.mt (by decide) h)
  have hframe : a.frame.get h = { w.frame.get h with
      busy := busy, pausedRun := if (w.frame.get h).paused then min 100 ((w.frame.get h).pausedRun + 1) else 0
      rearm := (a.frame.get h).rearm } := by
    rw [← ha]
    simp only [World.frameEnd, World.frame_updFrame, World.wr_frame]
  obtain ⟨m, hm⟩ := a.frame_overloads h c0 c1
  rw [hb] at hm
  have hload : min 100 (busy / 100) < 2 ^ 8 := lt_of_le_of_lt (min_le_left _ _) (by decide)
  have hpeak : max (min 100 (busy / 100)) (w.rd h F.STW_LOAD.PEAK) < 2 ^ 8 := max_lt hload (w.rd_lt h F.STW_LOAD.PEAK 0)
  refine ⟨⟨?_, ?_⟩, m, ?_⟩
  · rw [hrd _ (by decide) (by decide), ← ha, World.frameEnd, World.rd_updFrame, World.rd_wr_apart _ _ _ _ _ _ _ _ (by decide),
      World.rd_wr_same _ _ _ _ _ (by decide)]
    exact Nat.mod_eq_of_lt hload
  · rw [hrd _ (by decide) (by decide), ← ha, World.frameEnd, World.rd_updFrame, World.rd_wr_same _ _ _ _ _ (by decide)]
    exact Nat.mod_eq_of_lt hpeak
  · rw [hpour.frame (by decide), World.frame_updFrame, hm, hframe, hmt]

theorem satInc_eq_satTo (n v : Nat) : satInc n v = satTo n (v + 1) := by
  have hpos : 0 < 2 ^ n := by positivity
  unfold satInc satTo
  split
  · omega
  · omega

/-- A step of the frame counted and reported once (R476). -/
theorem World.stepReported_leaves (w : World) (h : Half) (f : Field) (cause : Nat) (u : Frame → Frame) (hf : f.lo + f.w ≤ 32)
    (hreg : (decide (f.reg < 2 ^ 25) && decide (f.reg ≠ 0x100018)) = true) :
    let t := ((w.bump h f).overload h cause 101).updFrame h u
    t.rd h f = satInc f.w (w.rd h f) ∧ (∃ m, t.frame.get h = u { w.frame.get h with rearm := m }) ∧
      World.RegsBut [f.reg, F.EVT_STATUS.LOST.reg] w t := by
  intro t
  simp only [Bool.and_eq_true, decide_eq_true_eq] at hreg
  obtain ⟨hlt, hne⟩ := hreg
  have hover := (w.bump h f).rest_overload h cause 101
  refine ⟨?_, ?_, ?_⟩
  · change (((w.bump h f).overload h cause 101).updFrame h u).rd h f = _
    rw [World.rd_updFrame, hover.rd_outside (ks := [0x100018]) (by decide) (by simpa [outside, hne] using hlt), World.rd_bump_same _ _ _ _ hf]
  · obtain ⟨m, hm⟩ := (w.bump h f).frame_overload h cause 101
    refine ⟨m, ?_⟩
    change ((((w.bump h f).overload h cause 101).updFrame h u).frame.get h) = _
    rw [World.frame_updFrame, hm, World.bump, World.wr_frame]
  · refine Rest.regsBut (q := [.evt, .frame, .reg f.reg, .reg 0x100018]) (World.updFrame_rest (by simp [partsLe, partIn]) ?_)
      (by simp [regsIn])
    exact World.overload_rest (by simp [partsLe, partIn]) (Rest.wr _ _ _ _ (by simpa [partIn] using hlt) (Rest.refl _ w))

theorem Frame.key_arms {f : Frame} (now : Nat) (hk : f.wdKey = false) : f.key now 0x5A = ({ f with wdKey := true }, true) := by
  unfold Frame.key
  rw [hk]
  rfl

theorem Frame.key_serves {f : Frame} {now : Nat} (hk : f.wdKey = true) (hat : f.served = false ∨ f.wdAt + 5 * ms ≤ now) :
    f.key now 0xA5 = ({ f with wdKey := false, served := true, wdAt := now }, true) := by
  have hok : (!f.served || decide (f.wdAt + 5 * ms ≤ now)) = true := by simpa using hat
  unfold Frame.key
  rw [hk, hok]
  rfl

theorem Frame.key_expires {f : Frame} {now v : Nat} (hbad : (v ≠ 0x5A ∧ v ≠ 0xA5) ∨ (v = 0x5A ∧ f.wdKey = true) ∨
    (v = 0xA5 ∧ (f.wdKey = false ∨ (f.served = true ∧ now < f.wdAt + 5 * ms)))) : (f.key now v).2 = false := by
  unfold Frame.key
  obtain ⟨h5, ha⟩ | ⟨rfl, hk⟩ | ⟨rfl, hk | ⟨hs, hlt⟩⟩ := hbad
  · rw [decide_eq_false h5, decide_eq_false ha]
    rfl
  · rw [hk]
    rfl
  · rw [hk]
    rfl
  · rw [hs, decide_eq_false (Nat.not_le.mpr hlt)]
    cases f.wdKey <;> rfl

/-- The watchdog's end (R478). -/
theorem State.watchdogExpire_leaves (s : State) (h : Half) : (s.watchdogExpire h).own.alive h = false ∧
    ((s.watchdogExpire h).w.run.get h).running = false ∧ ((s.watchdogExpire h).w.run.get h).cause = 1 ∧
    (s.own.alive h = true → (s.watchdogExpire h).own.server ≠ some h) ∧ (s.watchdogExpire h).ledger = s.ledger := by
  have hheld := State.hold_of_low 1 (s.alive_fall h .watchdog)
  refine ⟨State.alive_fall _ _ _, ?_, ?_, fun ha => ?_, ?_⟩
  · rw [State.watchdogExpire, hheld, State.onOwn_w, State.onW_w, Two.get_upd_same]
  · rw [State.watchdogExpire, hheld, State.onOwn_w, State.onW_w, Two.get_upd_same]
  · rw [State.watchdogExpire, hheld]
    exact State.fall_server .watchdog ha
  · exact (State.hold_side (q0 := [.own]) (by decide) (State.fall_side (by decide) (Side.refl _ s))).ledger_kept (by decide)

end Sys2Proof.Machine

open Sys2Proof Sys2Proof.Machine

/-- Settles O53: a frame's start and its two limits by their lemmas; the watchdog's key is served in the order 0x5A, 0xA5, else it expires. -/
theorem stewardFrames : Obligations.stewardFrames := by
  unfold Obligations.stewardFrames
  refine ⟨?frame, ?shed, ?pause, ?frameNot, ?clear, ?service, ?expiry, ?down⟩
  case frame =>
    intro h busy c0 c1 s hrun hmt
    have hexec : exec (.stewardFrame h busy c0 c1) s = .next { s with w := s.w.frameStart h busy c0 c1 } := by
      change execStewardFrame h busy c0 c1 s = _
      rw [execStewardFrame, lift, hrun, decide_eq_true hmt]
      rfl
    obtain ⟨⟨hload, hpeak⟩, m, hm⟩ := s.w.frameStart_leaves h busy c0 c1
    refine .of_exec hexec ⟨hload, hpeak, ?_, ?_, ?_, ?_, ?_, ?_, exec_quiet hexec rfl⟩
    all_goals rw [hm]
  case shed =>
    intro h s hrun hshed hat
    have hexec : exec (.c3Shed h) s = .next { s with
        w := ((s.w.bump h F.STW_LOAD.SHED).overload h 1 101).updFrame h fun f => { f with shed := true } } := by
      change execC3Shed h s = _
      unfold execC3Shed lift
      dsimp only
      rw [hrun, hshed, decide_eq_true hat]
      rfl
    obtain ⟨hcount, ⟨m, hm⟩, hregs⟩ := s.w.stepReported_leaves h F.STW_LOAD.SHED 1 (fun f => { f with shed := true }) (by decide) (by decide)
    refine .of_exec hexec ⟨by rw [hm], hcount.trans (satInc_eq_satTo _ _), hregs, exec_quiet hexec rfl⟩
  case pause =>
    intro h s hrun hpaused hat
    have hexec : exec (.c2Pause h) s = .next { s with
        w := ((s.w.bump h F.STW_LOAD.PAUSED).overload h 2 101).updFrame h fun f => { f with paused := true } } := by
      change execC2Pause h s = _
      unfold execC2Pause lift
      dsimp only
      rw [hrun, hpaused, decide_eq_true hat]
      rfl
    obtain ⟨hcount, ⟨m, hm⟩, hregs⟩ := s.w.stepReported_leaves h F.STW_LOAD.PAUSED 2 (fun f => { f with paused := true }) (by decide) (by decide)
    refine .of_exec hexec ⟨by rw [hm], hcount.trans (satInc_eq_satTo _ _), hregs, exec_quiet hexec rfl⟩
  case frameNot =>
    intro h busy c0 c1 c s hc hor
    have hstart : (s.w.run.get h).running = true → s.w.mt h / (10 * ms) = (s.w.frame.get h).start / (10 * ms) := by
      intro hrun
      obtain hno | ⟨hst, -⟩ := hor
      · exact absurd hrun (by simp [hno])
      · rw [hst, Nat.mul_div_cancel _ (by decide)]
    have hearly (d : Nat) (hd : 8 * ms ≤ d) : ((s.w.run.get h).running && decide ((s.w.frame.get h).start + d ≤ s.w.mt h)) = false := by
      obtain hno | ⟨-, hlt⟩ := hor
      · rw [hno, Bool.false_and]
      · rw [decide_eq_false (by omega), Bool.and_false]
    refine .of_exec (t := s) ?_ rfl
    simp only [List.mem_cons, List.not_mem_nil, or_false] at hc
    obtain rfl | rfl | rfl := hc
    · change execStewardFrame h busy c0 c1 s = _
      rw [execStewardFrame, lift]
      cases hrun : (s.w.run.get h).running with
      | true => rw [decide_eq_false (not_not.mpr (hstart hrun)), Bool.and_false, World.when_false]
      | false => rw [Bool.false_and, World.when_false]
    · change execC3Shed h s = _
      unfold execC3Shed lift
      dsimp only
      rw [Bool.and_right_comm, hearly _ (Nat.le_refl _), Bool.false_and, World.when_false]
    · change execC2Pause h s = _
      unfold execC2Pause lift
      dsimp only
      rw [Bool.and_right_comm, hearly _ (by decide), Bool.false_and, World.when_false]
  case clear =>
    intro h init s
    have hexec : exec (.stwLoadClear h init) s = .next { s with
        w := ((s.w.wr h F.STW_LOAD.PEAK 0 0).wr h F.STW_LOAD.SHED 0 0).wr h F.STW_LOAD.PAUSED 0 0 } := rfl
    refine .of_exec hexec ⟨?_, ?_, ?_, ?_, exec_regsBut hexec rfl, exec_quiet hexec rfl⟩
    all_goals simp (disch := decide) only [World.rd_wr_apart, World.rd_wr_same]
    all_goals rfl
  case service =>
    intro h init v s hrun
    obtain ⟨f, hf⟩ : ∃ f, s.w.frame.get h = f := ⟨_, rfl⟩
    have hexec : exec (.watchdogService h init v) s = .next (if (f.key s.w.now (v % 256)).2
        then s.onW fun w => w.updFrame h fun _ => (f.key s.w.now (v % 256)).1 else s.watchdogExpire h) := by
      change execWatchdogService h init v s = _
      unfold execWatchdogService
      dsimp only
      rw [hf, hrun]
      rfl
    obtain ⟨halive, hdown, hcause, -, hled⟩ := s.watchdogExpire_leaves h
    have hregs (u : Frame) : World.RegsBut [] s.w (s.w.updFrame h fun _ => u) :=
      Rest.regsBut (q := [.frame]) (World.updFrame_rest (by decide) (Rest.refl _ s.w)) (by decide)
    rw [hf]
    refine .of_exec hexec ⟨fun hv hk => ?_, fun hv hk hat => ?_, fun hbad => ?_, ?_⟩
    · rw [hv, Frame.key_arms _ hk, if_pos rfl]
      exact ⟨by rw [State.onW_w, World.frame_updFrame], hregs _, s.quiet_onW _⟩
    · rw [hv, Frame.key_serves hk hat, if_pos rfl, State.onW_w, World.frame_updFrame]
      exact ⟨rfl, rfl, rfl, hregs _, s.quiet_onW _⟩
    · rw [Frame.key_expires hbad, if_neg Bool.false_ne_true]
      exact ⟨halive, hdown, hcause⟩
    · split
      · rfl
      · exact hled
  case expiry =>
    intro h s hrun hserved hat
    have hexec : exec (.watchdogExpiry h) s = .next (s.watchdogExpire h) := by
      change execWatchdogExpiry h s = _
      unfold execWatchdogExpiry
      dsimp only
      rw [hrun, hserved, decide_eq_true hat]
      rfl
    exact .of_exec hexec (s.watchdogExpire_leaves h)
  case down =>
    intro h init v c s hc hrun
    refine .of_exec (t := s) ?_ rfl
    simp only [List.mem_cons, List.not_mem_nil, or_false] at hc
    obtain rfl | rfl := hc
    · change execWatchdogService h init v s = _
      unfold execWatchdogService
      dsimp only
      rw [hrun]
      rfl
    · change execWatchdogExpiry h s = _
      unfold execWatchdogExpiry
      dsimp only
      rw [hrun]
      rfl
end

section
/-!
PROOF. O57: the power-fail of a half that serves also replays the journal.
-/
namespace Sys2Proof.Machine

theorem State.ledger_onW (s : State) (f : World → World) : (s.onW f).ledger = s.ledger := rfl

/-- A power-fail that a running half still meets with step 2 replays the journal where that half serves. -/
theorem State.ledger_failHalf_serves {s : State} {h : Half} (m : List CupMeas) (hstep : (s.w.shut.get h).step = 0)
    (hrun : (s.w.run.get h).running = true) (hserves : s.own.serves h = true) :
    (s.failHalf h true m).ledger = s.replayJournal.ledger := by
  have hsaved : (s.shutStep2 h).ledger = s.replayJournal.ledger := by
    unfold State.shutStep2
    dsimp only
    rw [State.ledger_onW, hserves, State.when, if_pos rfl]
  unfold State.failHalf
  dsimp only
  rw [hstep, if_neg (by decide), hrun, if_neg (by decide)]
  exact ((State.hold_side (q0 := [.own]) (by decide) (Side.refl _ _)).ledger_kept (by decide)).trans hsaved

theorem State.failHalf_of_held {s : State} {h : Half} (wrote : Bool) (m : List CupMeas) (hstep : (s.w.shut.get h).step = 0)
    (hrun : (s.w.run.get h).running = false) : s.failHalf h wrote m = s := by
  unfold State.failHalf
  dsimp only
  rw [hstep, if_neg (by decide), hrun, if_pos (by decide)]

/-- A Ledger whose journal holds one record that is COMMITTED and not DONE. -/
def dueLedger : Memory := Memory.writeN [] (journalAddr 1) (journalRec (slotAddr 3 0) 1 (slotImage 3 0 2 5 [0xE8, 3, 0, 0]) 1)

/-- Half B alone runs and serves, LOGIC_IN has been lost for 100 ms, with a Ledger `m`. -/
def lossWith (m : Memory) : State :=
  { Tests.st fun w => { w.wr .A F.PWR_STATUS.LSTATE 0 3 with now := 100000000, run := w.run.set .A Run.init } with
    own := { Tests.live with server := some .B }, ledger := m }

theorem ledger_lossWith (m : Memory) : (lossWith m).ledger = m := rfl

theorem dueLedger_due : (List.range 48).any (journalDue dueLedger) = true := by decide +kernel

theorem replayed_ne : journalReplay dueLedger ≠ dueLedger := by decide +kernel

/-- The power-fail of that state marks the record DONE and stores its image. -/
theorem ledger_powerFail_lossWith :
    ∃ t, exec (.powerFail true [] []) (lossWith dueLedger) = .next t ∧ t.ledger = journalReplay dueLedger := by
  obtain ⟨u, hu⟩ : ∃ u, (lossWith dueLedger).onW
    (fun w => (w.updPwr fun p => { p with fail := true }).updLatch fun l => { l with logicValid := false }) = u := ⟨_, rfl⟩
  have hled : u.ledger = dueLedger := by rw [← hu, State.ledger_onW, ledger_lossWith]
  refine ⟨((u.failHalf .A true []).failHalf .B true []).onW World.latchEval, ?_, ?_⟩
  · change execPowerFail true [] [] (lossWith dueLedger) = _
    rw [execPowerFail, State.when, if_pos (by decide +kernel), hu]
  · rw [State.ledger_onW, State.failHalf_of_held (h := .A) _ _ (by rw [← hu]; decide +kernel) (by rw [← hu]; decide +kernel),
      State.ledger_failHalf_serves [] (by rw [← hu]; decide +kernel) (by rw [← hu]; decide +kernel) (by rw [← hu]; decide +kernel),
      State.replayJournal, hled, if_pos dueLedger_due]

end Sys2Proof.Machine

open Sys2Proof Sys2Proof.Machine

/-- Refutes O57: step 2 of a shutdown, which a half that serves still runs at a power-fail, replays the journal, so a record that is
COMMITTED and not DONE changes the Ledger. -/
theorem not_powerLoss : ¬ Obligations.powerLoss := by
  unfold Obligations.powerLoss
  rintro ⟨hfail, -⟩
  obtain ⟨t, ht, -, -, -, hkept, -⟩ := hfail true [] [] (lossWith dueLedger) (by decide +kernel) (by decide +kernel) (.inl (by decide +kernel))
  obtain ⟨t', ht', hled⟩ := ledger_powerFail_lossWith
  rw [ht] at ht'
  injection ht' with hsame
  rw [← hsame, hkept, ledger_lossWith] at hled
  exact replayed_ne hled.symm

end

section
/-!
PROOF. O56: the fast path that has started does not touch the backlight again.
-/
namespace Sys2Proof.Machine

/-- LOGIC_IN normal, the panel's fast path started, the backlight on. -/
def fastWithBacklight : State :=
  Tests.st fun w => ((w.wr .A F.PWR_STATUS.LSTATE 0 1).wr .A F.DSP_STATUS.FAST 0 1).wr .A F.DSP_STATUS.BL 0 1

/-- LOGIC_IN falls to 5.00 V in that state: the fast path is not started a second time, and the backlight stays on. -/
theorem backlight_logicInStateChange :
    ∃ t, exec (.logicInStateChange 500 0 false) fastWithBacklight = .next t ∧ t.w.rd .A F.DSP_STATUS.BL = 1 :=
  ⟨_, rfl, by decide +kernel⟩

end Sys2Proof.Machine

open Sys2Proof Sys2Proof.Machine

/-- Refutes O56: where DSP_STATUS.FAST is set already, the loss of LOGIC_IN leaves DSP_STATUS.BL as it stands. -/
theorem not_powerEntry : ¬ Obligations.powerEntry := by
  unfold Obligations.powerEntry
  rintro ⟨-, hholdup, -⟩
  obtain ⟨t, ht, -, -, -, -, hbl, -⟩ := hholdup 500 0 false fastWithBacklight (by decide +kernel) (by decide +kernel) (by decide +kernel) (by decide)
  obtain ⟨t', ht', hbl'⟩ := backlight_logicInStateChange
  rw [ht] at ht'
  injection ht' with hsame
  rw [← hsame, hbl] at hbl'
  exact absurd hbl' (by decide)

end

section
/-!
SUPPORT. Fans and the pump (R538–R542): what a channel's duty depends on, and what each operation on a channel leaves.
-/
namespace Sys2Proof.Machine

/-! A channel's hidden state. -/

@[simp] theorem World.fan_updFan_same (w : World) (c : Nat) (f : Fan → Fan) : (w.updFan c f).fan c = f (w.fan c) := by
  simp [World.fan, World.updFan, World.updPwr, NMap.upd]

theorem World.fan_updFan_ne (w : World) {c k : Nat} (f : Fan → Fan) (hk : k ≠ c) : (w.updFan c f).fan k = w.fan k := by
  simp only [World.fan, World.updFan, World.updPwr, NMap.upd]
  exact NMap.get_set_ne _ _ _ hk

theorem World.fan_congr {v w : World} (hp : v.pwr = w.pwr) (k : Nat) : v.fan k = w.fan k := by rw [World.fan, World.fan, hp]

@[simp] theorem World.fan_wr (w : World) (h : Half) (f : Field) (i x k : Nat) : (w.wr h f i x).fan k = w.fan k := World.fan_congr (w.wr_pwr _ _ _ _) k

@[simp] theorem World.fan_pwrEvent (w : World) (num obj k : Nat) : (w.pwrEvent num obj).fan k = w.fan k :=
  World.fan_congr (w.raiseBoth_pwr _ _) k

@[simp] theorem World.rd_updFan (w : World) (c : Nat) (f : Fan → Fan) (h : Half) (g : Field) (i : Nat) : (w.updFan c f).rd h g i = w.rd h g i := (rfl)
@[simp] theorem World.rd_updPwr (w : World) (f : Power → Power) (h : Half) (g : Field) (i : Nat) : (w.updPwr f).rd h g i = w.rd h g i := (rfl)
@[simp] theorem World.now_updFan (w : World) (c : Nat) (f : Fan → Fan) : (w.updFan c f).now = w.now := (rfl)
@[simp] theorem World.now_updPwr (w : World) (f : Power → Power) : (w.updPwr f).now = w.now := (rfl)
@[simp] theorem World.bp_updFan (w : World) (c : Nat) (f : Fan → Fan) : (w.updFan c f).bp = w.bp := (rfl)
@[simp] theorem World.bp_updPwr (w : World) (f : Power → Power) : (w.updPwr f).bp = w.bp := (rfl)

theorem World.rd_pwrEvent (w : World) (num obj : Nat) (g : Half) (f : Field) (i : Nat)
    (hf : (decide (f.reg < 2 ^ 25) && decide (f.reg ≠ 0x100018)) = true) : (w.pwrEvent num obj).rd g f i = w.rd g f i :=
  World.rd_raiseBoth _ _ _ _ _ _ hf

@[simp] theorem World.now_pwrEvent (w : World) (num obj : Nat) : (w.pwrEvent num obj).now = w.now := w.raiseBoth_now _ _
@[simp] theorem World.bp_pwrEvent (w : World) (num obj : Nat) : (w.pwrEvent num obj).bp = w.bp := w.raiseBoth_bp _ _
@[simp] theorem World.pwr_pwrEvent (w : World) (num obj : Nat) : (w.pwrEvent num obj).pwr = w.pwr := w.raiseBoth_pwr _ _

/-! What a duty depends on. -/

/-- The fields that a channel's duty reads. -/
def fanInputs : List Field :=
  [F.PWR_STATUS.LSTATE, F.PWR_SHDN.OVERRIDE, F.PWR_TEMP.SENSOR_FAULT, F.FAN_STATUS.TACH_OPEN, F.FAN_STATUS.STALL, F.PWR_SAFE.ASSERTED]

theorem World.gren_congr {v w : World} (hbp : v.bp = w.bp) (k : Nat) : v.gren k = w.gren k := by rw [World.gren, World.gren, hbp]

theorem World.fanDuty_congr {v w : World} {c : Nat} (hbp : v.bp = w.bp) (hnow : v.now = w.now) (hfan : v.fan c = w.fan c)
    (hrd : ∀ f ∈ fanInputs, ∀ i, v.rd .A f i = w.rd .A f i) : v.fanDuty c = w.fanDuty c := by
  simp only [fanInputs, List.mem_cons, List.not_mem_nil, or_false, forall_eq_or_imp, forall_eq] at hrd
  obtain ⟨hl, ho, hs, ht, hst, ha⟩ := hrd
  have hstall : v.stalled = w.stalled := funext fun k => by rw [World.stalled, World.flag, hst, World.stalled, World.flag]
  have hfull : v.fanFull c = w.fanFull c := by
    simp only [World.fanFull, World.flag, hstall]
    rw [ho, hs, ht]
  have hsafe : v.safeOn (objFan c) = w.safeOn (objFan c) := by
    rw [World.safeOn, World.safeOff, World.flag, ha, World.gren_congr hbp, World.safeOn, World.safeOff, World.flag]
  have hgreen : v.greenDuty c = w.greenDuty c := by rw [World.greenDuty, World.gren_congr hbp, World.greenDuty]
  have hmode : v.modeDuty c = w.modeDuty c := by rw [World.modeDuty, hfan, hsafe, hgreen, hnow, World.modeDuty]
  rw [World.fanDuty, hl, hfan, hstall, hfull, hmode, World.fanDuty]

theorem World.fanDuty_wr {w : World} {f : Field} (h : Half) (i x c : Nat) (hf : fanInputs.all (fieldsApart f) = true) :
    (w.wr h f i x).fanDuty c = w.fanDuty c :=
  World.fanDuty_congr (w.wr_bp _ _ _ _) (w.wr_now _ _ _ _) (w.fan_wr _ _ _ _ _)
    fun _ hg _ => World.rd_wr_apart _ _ _ _ _ _ _ _ (List.all_eq_true.mp hf _ hg)

theorem fanInputs_unlogged : ∀ f ∈ fanInputs, (decide (f.reg < 2 ^ 25) && decide (f.reg ≠ 0x100018)) = true := by decide

theorem World.fanDuty_pwrEvent (w : World) (num obj c : Nat) : (w.pwrEvent num obj).fanDuty c = w.fanDuty c :=
  World.fanDuty_congr (w.bp_pwrEvent _ _) (w.now_pwrEvent _ _) (w.fan_pwrEvent _ _ _)
    fun _ hg _ => World.rd_pwrEvent _ _ _ _ _ _ (fanInputs_unlogged _ hg)

/-- The duty of every channel is brought up to date; nothing else is read differently. -/
theorem World.rd_fanDuties_duty (w : World) {c : Nat} (hc : c < 4) : w.fanDuties.rd .A F.FAN_STATUS.DUTY c = w.fanDuty c % 128 := by
  have hkept (u : World) (a : Nat) : (u.wr .A F.FAN_STATUS.DUTY a (u.fanDuty a)).fanDuty = u.fanDuty :=
    funext fun _ => World.fanDuty_wr _ _ _ _ (by decide)
  have hat := World.forAll_at (f := fun w c => w.wr .A F.FAN_STATUS.DUTY c (w.fanDuty c))
    (fun u j => (u.rd .A F.FAN_STATUS.DUTY j, u.fanDuty)) id (fun b c => (b.2 c % 128, b.2))
    (fun u a => Prod.ext (World.rd_wr_same _ _ _ _ _ (by decide)) (hkept u a))
    (fun u a j hj => Prod.ext (World.rd_wr_idx _ _ _ _ _ _ (by decide) (by decide) hj) (hkept u a))
    (l := List.range 4) (by simpa using List.nodup_range) w
  exact congrArg Prod.fst (hat.1 c (List.mem_range.mpr hc))

theorem World.rd_fanDuties (w : World) (h : Half) (g : Field) (i : Nat) (hg : fieldsApart F.FAN_STATUS.DUTY g = true) :
    w.fanDuties.rd h g i = w.rd h g i :=
  World.forAll_keeps (·.rd h g i) (fun _ _ => World.rd_wr_apart _ _ _ _ _ _ _ _ hg) _ w

theorem World.fanDuties_rested (w : World) : Rest [.reg F.FAN_STATUS.STALL.reg] w.fanDuties w := World.fanDuties_rest (by decide) (Rest.refl _ w)

@[simp] theorem World.pwr_fanDuties (w : World) : w.fanDuties.pwr = w.pwr := w.fanDuties_rested.pwr (by decide)
@[simp] theorem World.now_fanDuties (w : World) : w.fanDuties.now = w.now := w.fanDuties_rested.now (by decide)
@[simp] theorem World.bp_fanDuties (w : World) : w.fanDuties.bp = w.bp := w.fanDuties_rested.bp (by decide)
@[simp] theorem World.fan_fanDuties (w : World) (k : Nat) : w.fanDuties.fan k = w.fan k := World.fan_congr w.pwr_fanDuties k

theorem World.fanDuty_fanDuties (w : World) (c : Nat) : w.fanDuties.fanDuty c = w.fanDuty c :=
  World.fanDuty_congr w.bp_fanDuties w.now_fanDuties (w.fan_fanDuties c)
    fun f hf i => w.rd_fanDuties _ _ _ ((by decide : ∀ g ∈ fanInputs, fieldsApart F.FAN_STATUS.DUTY g = true) f hf)

/-! The duty of a channel (R535, R538, R542). -/

/-- LOGIC_IN is present: the fans are not off for HOLDUP. -/
def World.Powered (w : World) : Prop := w.rd .A F.PWR_STATUS.LSTATE ≠ 0 ∧ w.rd .A F.PWR_STATUS.LSTATE ≠ 3

theorem World.fanDuty_of_down {w : World} (c : Nat) (hl : w.rd .A F.PWR_STATUS.LSTATE = 3 ∨ w.rd .A F.PWR_STATUS.LSTATE = 0) : w.fanDuty c = 0 := by
  unfold World.fanDuty
  exact if_pos (by simpa using hl)

theorem World.fanDuty_of_powered {w : World} (c : Nat) (hl : w.Powered) : w.fanDuty c =
    if (w.fan c).pause then 0 else if (w.fan c).kick ≠ 0 then 100 else if w.stalled c then 0 else if w.fanFull c then 100 else w.modeDuty c := by
  obtain ⟨h0, h3⟩ := hl
  unfold World.fanDuty
  exact if_neg (by simp [h0, h3])

theorem World.powered_of_duty {w : World} {c : Nat} (hd : w.fanDuty c ≠ 0) : w.Powered :=
  ⟨fun h => hd (World.fanDuty_of_down c (.inr h)), fun h => hd (World.fanDuty_of_down c (.inl h))⟩

theorem World.fanDuty_of_pause {w : World} {c : Nat} (hp : (w.fan c).pause = true) : w.fanDuty c = 0 := by
  by_cases hl : w.Powered
  · rw [World.fanDuty_of_powered c hl, if_pos hp]
  · unfold World.Powered at hl
    exact World.fanDuty_of_down c (by omega)

theorem World.fanDuty_of_stall {w : World} {c : Nat} (hk : (w.fan c).kick = 0) (hs : w.stalled c = true) : w.fanDuty c = 0 := by
  by_cases hl : w.Powered
  · simp [World.fanDuty_of_powered c hl, hk, hs]
  · unfold World.Powered at hl
    exact World.fanDuty_of_down c (by omega)

/-- A kick, or a reason to run at 100 %, in a channel that is neither paused nor stalled. -/
theorem World.fanDuty_full {w : World} {c : Nat} (hl : w.Powered) (hp : (w.fan c).pause = false)
    (hf : (w.fan c).kick ≠ 0 ∨ w.stalled c = false ∧ w.fanFull c = true) : w.fanDuty c = 100 := by
  rw [World.fanDuty_of_powered c hl, if_neg (by simp [hp])]
  obtain hk | ⟨hs, hfull⟩ := hf
  · exact if_pos hk
  · simp [hs, hfull]

theorem minDuty_le (c : Nat) : minDuty c ≤ 40 := by
  unfold minDuty
  split <;> decide

/-- The speed loop's duty lies between the channel's minimum and 100 %. -/
theorem World.fanDuty_bounds {w : World} {c : Nat} (hl : w.Powered) (hp : (w.fan c).pause = false) (hk : (w.fan c).kick = 0)
    (hs : w.stalled c = false) (hg : (w.fan c).green = false) : minDuty c ≤ w.fanDuty c ∧ w.fanDuty c ≤ 100 := by
  have hmin := minDuty_le c
  have hmode : minDuty c ≤ w.modeDuty c ∧ w.modeDuty c ≤ 100 := by
    unfold World.modeDuty
    dsimp only
    rw [hg]
    split
    · omega
    · dsimp only
      omega
  rw [World.fanDuty_of_powered c hl, hp, hk, hs, if_neg Bool.false_ne_true, if_neg (not_not.mpr rfl), if_neg Bool.false_ne_true]
  split <;> omega

end Sys2Proof.Machine
end

section
/-!
SUPPORT. R533–R536: the temperatures, the derating and the warnings; R538–R542: the operations on a fan channel.
-/
namespace Sys2Proof.Machine

/-! Signed readings. -/

theorem signed_toTwos_byte {v : Int} (hlo : -128 ≤ v) (hhi : v ≤ 127) : signed 8 (toTwos 8 v) = v := by
  unfold signed toTwos
  norm_num
  omega

theorem clampI_byte (v : Int) : -128 ≤ clampI (-128) 127 v ∧ clampI (-128) 127 v ≤ 127 := by
  unfold clampI
  omega

/-- A reading clamped into a signed field of eight bits reads back. -/
theorem World.rdI_wrI_byte (w : World) (h : Half) (f : Field) (i : Nat) (v : Int) (hf : f.lo + f.w ≤ 32) (h8 : f.w = 8) :
    (w.wrI h f i (clampI (-128) 127 v)).rdI h f i = clampI (-128) 127 v := by
  obtain ⟨hlo, hhi⟩ := clampI_byte v
  rw [World.rdI, World.rd_wrI_same _ _ _ _ _ hf, h8, signed_toTwos_byte hlo hhi]

theorem World.rdI_congr {v w : World} {h : Half} {f : Field} {i : Nat} (hrd : v.rd h f i = w.rd h f i) : v.rdI h f i = w.rdI h f i := by
  rw [World.rdI, World.rdI, hrd]

/-- The event registers are not among these. -/
def unlogged (f : Field) : Bool := decide (f.reg < 2 ^ 25) && decide (f.reg ≠ 0x100018)

theorem b2n_eq_ite (b : Bool) : b2n b = if b = true then 1 else 0 := by cases b <;> rfl

/-! Derating (R533). -/

theorem World.setDerate_leaves (w : World) (on : Bool) : (w.setDerate on).rd .A F.PWR_STATUS.DERATE = b2n on ∧ (w.setDerate on).pwr = w.pwr := by
  unfold World.setDerate
  split
  · rename_i hon
    refine ⟨?_, rfl⟩
    cases on
    · exact (World.flag_eq_false_iff rfl).mp hon
    · exact World.flag_eq_true_iff.mp hon
  · refine ⟨?_, ?_⟩
    · rw [World.rd_pwrEvent _ _ _ _ _ _ (by decide), World.rd_wr_same _ _ _ _ _ (by decide)]
      exact b2n_mod_two on
    · rw [World.pwr_pwrEvent, World.wr_pwr]

theorem World.rd_setDerate (w : World) (on : Bool) (h : Half) (g : Field) (i : Nat) (hg : fieldsApart F.PWR_STATUS.DERATE g = true)
    (hu : unlogged g = true) : (w.setDerate on).rd h g i = w.rd h g i := by
  unfold World.setDerate
  split
  · rfl
  · rw [World.rd_pwrEvent _ _ _ _ _ _ hu, World.rd_wr_apart _ _ _ _ _ _ _ _ hg]

/-! Thermistors (R536). -/

/-- A thermistor's reading leaves the fans and the warnings alone. -/
theorem World.thermistor_keeps (w : World) (k : Nat) (t : Int) : (w.thermistor k t).pwr.fan = w.pwr.fan ∧
    (w.thermistor k t).pwr.warn = w.pwr.warn ∧ (w.thermistor k t).pwr.crit = w.pwr.crit := by
  unfold World.thermistor
  dsimp only
  split
  · simp only [World.apply_when (fun u => u.pwr.fan), World.apply_when (fun u => u.pwr.warn), World.apply_when (fun u => u.pwr.crit),
      (World.setDerate_leaves _ _).2, World.pwr_pwrEvent, World.wr_pwr, ite_self, World.updPwr, and_self]
  · simp only [World.apply_when (fun u => u.pwr.fan), World.apply_when (fun u => u.pwr.warn), World.apply_when (fun u => u.pwr.crit),
      World.wr_pwr, ite_self, World.updPwr, and_self]

theorem World.rd_thermistor (w : World) (k : Nat) (t : Int) (h : Half) (g : Field) (i : Nat) (hs : fieldsApart F.PWR_TEMP.SENSOR_FAULT g = true)
    (hd : fieldsApart F.PWR_STATUS.DERATE g = true) (hu : unlogged g = true) : (w.thermistor k t).rd h g i = w.rd h g i := by
  unfold World.thermistor
  dsimp only
  split
  · rw [World.rd_when, World.rd_setDerate _ _ _ _ _ hd hu, ite_self, World.rd_when, World.rd_pwrEvent _ _ _ _ _ _ hu,
      World.rd_wr_apart _ _ _ _ _ _ _ _ hs, ite_self, World.rd_updPwr]
  · rw [World.rd_when, World.rd_wr_apart _ _ _ _ _ _ _ _ hs, World.rd_updPwr, ite_self, World.rd_updPwr]

/-- A thermistor that was valid: out of range it is faulty at once, in range nothing changes but its clock. -/
theorem World.thermistor_of_valid {w : World} {k : Nat} (t : Int) (hwas : w.pwr.bad.getD k false = false) :
    (w.thermistor k t).pwr.bad = (if badTemp t then listSet w.pwr.bad k true else w.pwr.bad) ∧
    (w.thermistor k t).rd .A F.PWR_TEMP.SENSOR_FAULT = (if badTemp t then 1 else w.rd .A F.PWR_TEMP.SENSOR_FAULT) ∧
    (badTemp t = true → k = 2 → (w.thermistor k t).rd .A F.PWR_STATUS.DERATE = 1) := by
  unfold World.thermistor
  dsimp only
  rw [hwas]
  split
  · rw [Bool.not_false, World.when_true]
    refine ⟨?_, ?_, fun _ hk => ?_⟩
    · rw [World.apply_when (fun u => u.pwr.bad), (World.setDerate_leaves _ _).2, ite_self, World.pwr_pwrEvent, World.wr_pwr]
      rfl
    · rw [World.rd_when, World.rd_setDerate _ _ _ _ _ (by decide) (by decide), ite_self, World.rd_pwrEvent _ _ _ _ _ _ (by decide),
        World.rd_wr_same _ _ _ _ _ (by decide)]
      rfl
    · rw [decide_eq_true hk, World.when_true]
      exact (World.setDerate_leaves _ _).1
  · rw [Bool.false_and, World.when_false]
    exact ⟨rfl, rfl, fun hbad => absurd hbad ‹_›⟩

/-- A faulty thermistor that reads in range is valid again after 10 s (R536). -/
theorem World.thermistor_recovers {w : World} {k t0 : Nat} {t : Int} (ht : badTemp t = false) (hwas : w.pwr.bad.getD k false = true)
    (hok : w.pwr.okAt.getD k none = some t0) (hk : k < w.pwr.okAt.length) :
    (t0 + 10 * sec ≤ w.now → (w.thermistor k t).pwr.bad = listSet w.pwr.bad k false ∧
      (w.thermistor k t).rd .A F.PWR_TEMP.SENSOR_FAULT = b2n ((listSet w.pwr.bad k false).any id)) ∧
    (w.now < t0 + 10 * sec → (w.thermistor k t).pwr.bad = w.pwr.bad ∧
      (w.thermistor k t).rd .A F.PWR_TEMP.SENSOR_FAULT = w.rd .A F.PWR_TEMP.SENSOR_FAULT) := by
  have hclock : (w.updPwr fun p => { p with okAt := listSet p.okAt k (some ((p.okAt.getD k none).getD w.now)) }).pwr.okAt.getD k none = some t0 := by
    change (listSet w.pwr.okAt k (some ((w.pwr.okAt.getD k none).getD w.now))).getD k none = some t0
    rw [hok, List.getD_eq_getElem?_getD, getElem?_listSet_same _ hk]
    rfl
  unfold World.thermistor
  dsimp only
  rw [ht, if_neg Bool.false_ne_true, hclock, hwas, Option.any_some, Bool.true_and, World.now_updPwr]
  refine ⟨fun hat => ?_, fun hat => ?_⟩
  · rw [decide_eq_true hat, World.when_true]
    refine ⟨?_, ?_⟩
    · rw [World.wr_pwr]
      rfl
    · rw [World.rd_wr_same _ _ _ _ _ (by decide)]
      exact b2n_mod_two _
  · rw [decide_eq_false (Nat.not_le.mpr hat), World.when_false]
    exact ⟨rfl, rfl⟩

/-- The three readings taken, each for its fault. -/
def World.coolantRead (w : World) (tin tout ta : Int) : World :=
  ((((w.wrI .A F.PWR_TEMP.TC_IN 0 (clampI (-128) 127 tin)).wrI .A F.PWR_TEMP.TC_OUT 0 (clampI (-128) 127 tout)).thermistor 0 tin).thermistor
    1 tout).thermistor 2 ta

/-- The warnings from a valid TC_OUT. -/
def World.coolantWarned (w : World) (tout : Int) : World :=
  let t := w.tSh
  let was := (w.pwr.warn, w.pwr.crit)
  let warn : Bool := t - 8 ≤ tout || (was.1 && t - 11 < tout)
  let crit : Bool := t - 4 ≤ tout || (was.2 && t - 7 < tout)
  let w := w.updPwr fun p => { p with warn := warn, crit := crit }
  let w := w.when (warn && !was.1) fun w => w.pwrEvent 21 0xFFFF
  w.when (crit && !was.2) fun w => w.pwrEvent 22 0xFFFF

theorem exec_coolantTemperatureWarning (tin tout ta : Int) (s : State) : exec (.coolantTemperatureWarning tin tout ta) s = .next { s with
    w := (if badTemp tout then s.w.coolantRead tin tout ta else (s.w.coolantRead tin tout ta).coolantWarned tout).fanDuties } := rfl

theorem World.rd_coolantRead (w : World) (tin tout ta : Int) (h : Half) (g : Field) (i : Nat) (hi : fieldsApart F.PWR_TEMP.TC_IN g = true)
    (ho : fieldsApart F.PWR_TEMP.TC_OUT g = true) (hs : fieldsApart F.PWR_TEMP.SENSOR_FAULT g = true)
    (hd : fieldsApart F.PWR_STATUS.DERATE g = true) (hu : unlogged g = true) : (w.coolantRead tin tout ta).rd h g i = w.rd h g i := by
  unfold World.coolantRead
  rw [World.rd_thermistor _ _ _ _ _ _ hs hd hu, World.rd_thermistor _ _ _ _ _ _ hs hd hu, World.rd_thermistor _ _ _ _ _ _ hs hd hu,
    World.rd_wrI_apart _ _ _ _ _ _ _ _ ho, World.rd_wrI_apart _ _ _ _ _ _ _ _ hi]

theorem World.coolantRead_keeps (w : World) (tin tout ta : Int) : (w.coolantRead tin tout ta).pwr.fan = w.pwr.fan ∧
    (w.coolantRead tin tout ta).pwr.warn = w.pwr.warn ∧ (w.coolantRead tin tout ta).pwr.crit = w.pwr.crit := by
  unfold World.coolantRead
  obtain ⟨hf0, hw0, hc0⟩ := ((w.wrI .A F.PWR_TEMP.TC_IN 0 (clampI (-128) 127 tin)).wrI .A F.PWR_TEMP.TC_OUT 0
      (clampI (-128) 127 tout)).thermistor_keeps 0 tin
  obtain ⟨hf1, hw1, hc1⟩ := (((w.wrI .A F.PWR_TEMP.TC_IN 0 (clampI (-128) 127 tin)).wrI .A F.PWR_TEMP.TC_OUT 0
    (clampI (-128) 127 tout)).thermistor 0 tin).thermistor_keeps 1 tout
  obtain ⟨hf2, hw2, hc2⟩ := ((((w.wrI .A F.PWR_TEMP.TC_IN 0 (clampI (-128) 127 tin)).wrI .A F.PWR_TEMP.TC_OUT 0
    (clampI (-128) 127 tout)).thermistor 0 tin).thermistor 1 tout).thermistor_keeps 2 ta
  rw [hf2, hf1, hf0, hw2, hw1, hw0, hc2, hc1, hc0, World.wrI, World.wrI, World.wr_pwr, World.wr_pwr]
  exact ⟨rfl, rfl, rfl⟩

theorem World.coolantWarned_leaves (w : World) (tout : Int) :
    (w.coolantWarned tout).pwr = { w.pwr with
      warn := w.tSh - 8 ≤ tout || (w.pwr.warn && w.tSh - 11 < tout), crit := w.tSh - 4 ≤ tout || (w.pwr.crit && w.tSh - 7 < tout) } := by
  unfold World.coolantWarned
  dsimp only
  rw [World.apply_when (·.pwr), World.pwr_pwrEvent, ite_self, World.apply_when (·.pwr), World.pwr_pwrEvent, ite_self]
  rfl

theorem World.rd_coolantWarned (w : World) (tout : Int) (h : Half) (g : Field) (i : Nat) (hu : unlogged g = true) :
    (w.coolantWarned tout).rd h g i = w.rd h g i := by
  unfold World.coolantWarned
  dsimp only
  rw [World.rd_when, World.rd_pwrEvent _ _ _ _ _ _ hu, ite_self, World.rd_when, World.rd_pwrEvent _ _ _ _ _ _ hu, ite_self, World.rd_updPwr]

/-! The comparator chain (R535). -/

theorem World.readTs_leaves (w : World) (ts : Int) : (w.readTs ts).rdI .A F.PWR_SHDN.TS = clampI (-128) 127 ts ∧
    (w.readTs ts).pwr.fan = w.pwr.fan := by
  unfold World.readTs
  dsimp only
  refine ⟨?_, ?_⟩
  · exact (World.rdI_congr (World.rd_updPwr _ _ _ _ _)).trans (World.rdI_wrI_byte _ _ _ _ _ (by decide) rfl)
  · change (w.wrI .A F.PWR_SHDN.TS 0 _).pwr.fan = _
    rw [World.wrI, World.wr_pwr]

theorem World.rd_readTs (w : World) (ts : Int) (h : Half) (g : Field) (i : Nat) (hg : fieldsApart F.PWR_SHDN.TS g = true) :
    (w.readTs ts).rd h g i = w.rd h g i := by
  unfold World.readTs
  dsimp only
  rw [World.rd_updPwr, World.rd_wrI_apart _ _ _ _ _ _ _ _ hg]

end Sys2Proof.Machine
end

section
/-!
SUPPORT. R538–R542: kicks, targets and the speed loop of a fan channel.
-/
namespace Sys2Proof.Machine

/-! Duties brought up to date. -/

/-- After an update each channel's register shows its duty. -/
theorem World.rd_duty_updated {v u : World} {c : Nat} (hv : v = u.fanDuties) (hc : c < 4) : v.rd .A F.FAN_STATUS.DUTY c = v.fanDuty c % 128 := by
  rw [hv, World.rd_fanDuties_duty _ hc, World.fanDuty_fanDuties]

theorem World.powered_congr {v w : World} (hl : v.rd .A F.PWR_STATUS.LSTATE = w.rd .A F.PWR_STATUS.LSTATE) : v.Powered ↔ w.Powered := by
  rw [World.Powered, hl, World.Powered]

theorem World.stalled_congr {v w : World} {c : Nat} (hs : v.rd .A F.FAN_STATUS.STALL c = w.rd .A F.FAN_STATUS.STALL c) :
    v.stalled c = w.stalled c := by rw [World.stalled, World.flag, hs, World.stalled, World.flag]

theorem World.stalled_iff {w : World} {c : Nat} : w.stalled c = true ↔ w.rd .A F.FAN_STATUS.STALL c = 1 := World.flag_eq_true_iff

theorem World.stalled_eq_false_iff {w : World} {c : Nat} : w.stalled c = false ↔ w.rd .A F.FAN_STATUS.STALL c = 0 := World.flag_eq_false_iff rfl

/-! What runs a channel at 100 %. -/

theorem World.fanFull_of_override {w : World} (c : Nat) (ho : w.rd .A F.PWR_SHDN.OVERRIDE = 1) : w.fanFull c = true := by
  simp [World.fanFull, World.flag, ho]

theorem World.fanFull_of_fault {w : World} (c : Nat) (hf : w.rd .A F.PWR_TEMP.SENSOR_FAULT = 1) : w.fanFull c = true := by
  simp [World.fanFull, World.flag, hf]

theorem World.fanFull_of_open {w : World} {c : Nat} (ht : w.rd .A F.FAN_STATUS.TACH_OPEN c = 1) : w.fanFull c = true := by
  simp [World.fanFull, World.flag, ht]

/-- The stall of another channel runs a fan at 100 %. -/
theorem World.fanFull_of_stall {w : World} {c k : Nat} (hc : c < 3) (hk : k < 4) (hne : k ≠ c) (hs : w.stalled k = true) : w.fanFull c = true := by
  have hany : (List.range 4).any (fun j => decide (j ≠ c) && w.stalled j) = true :=
    List.any_eq_true.mpr ⟨k, List.mem_range.mpr hk, by simp [hne, hs]⟩
  unfold World.fanFull
  rw [hany, decide_eq_true hc]
  exact Bool.or_true _

/-! Kicks (R542). -/

theorem World.startKick_leaves (w : World) (c k : Nat) :
    (w.startKick c k).fan c = { w.fan c with kick := k, pause := false, kickAt := w.now, lowAt := none } ∧
    (w.startKick c k).rd .A F.FAN_STATUS.KICKING c = 1 ∧
    (w.startKick c k).rd .A F.PWR_CNT.KICKS = satInc F.PWR_CNT.KICKS.w (w.rd .A F.PWR_CNT.KICKS) := by
  unfold World.startKick
  refine ⟨?_, ?_, ?_⟩
  · rw [World.fan_fanDuties, World.bump, World.fan_wr, World.fan_wr, World.fan_updFan_same]
  · rw [World.rd_fanDuties _ _ _ _ (by decide), World.rd_bump_apart _ _ _ _ _ _ _ (by decide), World.rd_wr_same _ _ _ _ _ (by decide)]
    rfl
  · rw [World.rd_fanDuties _ _ _ _ (by decide), World.rd_bump_same _ _ _ _ (by decide), World.rd_wr_apart _ _ _ _ _ _ _ _ (by decide),
      World.rd_updFan]

theorem World.rd_startKick (w : World) (c k : Nat) (h : Half) (g : Field) (i : Nat) (hd : fieldsApart F.FAN_STATUS.DUTY g = true)
    (hk : fieldsApart F.FAN_STATUS.KICKING g = true) (hc : fieldsApart F.PWR_CNT.KICKS g = true) : (w.startKick c k).rd h g i = w.rd h g i := by
  unfold World.startKick
  rw [World.rd_fanDuties _ _ _ _ hd, World.rd_bump_apart _ _ _ _ _ _ _ hc, World.rd_wr_apart _ _ _ _ _ _ _ _ hk, World.rd_updFan]

theorem World.duty_startKick {w : World} {c k : Nat} (hc : c < 4) (hl : w.Powered) (hk : k ≠ 0) :
    (w.startKick c k).rd .A F.FAN_STATUS.DUTY c = 100 := by
  obtain ⟨hfan, -, -⟩ := w.startKick_leaves c k
  have hp := (World.powered_congr (w.rd_startKick c k _ _ _ (by decide) (by decide) (by decide))).mpr hl
  have hupd : w.startKick c k = World.fanDuties _ := rfl
  rw [World.rd_duty_updated hupd hc, World.fanDuty_full hp (by rw [hfan]) (.inl (by rw [hfan]; exact hk))]

theorem World.endKick_leaves (w : World) (c : Nat) : (w.endKick c).fan c = { w.fan c with kick := 0, pause := false, lowAt := none } ∧
    (∀ k, k ≠ c → (w.endKick c).fan k = w.fan k) ∧ (w.endKick c).rd .A F.FAN_STATUS.KICKING c = 0 := by
  unfold World.endKick
  refine ⟨?_, fun k hk => ?_, ?_⟩
  · rw [World.fan_fanDuties, World.fan_wr, World.fan_updFan_same]
  · rw [World.fan_fanDuties, World.fan_wr, World.fan_updFan_ne _ _ hk]
  · rw [World.rd_fanDuties _ _ _ _ (by decide), World.rd_wr_same _ _ _ _ _ (by decide)]
    rfl

theorem World.rd_endKick (w : World) (c : Nat) (h : Half) (g : Field) (i : Nat) (hd : fieldsApart F.FAN_STATUS.DUTY g = true)
    (hk : fieldsApart F.FAN_STATUS.KICKING g = true) : (w.endKick c).rd h g i = w.rd h g i := by
  unfold World.endKick
  rw [World.rd_fanDuties _ _ _ _ hd, World.rd_wr_apart _ _ _ _ _ _ _ _ hk, World.rd_updFan]

theorem World.stalled_endKick (w : World) (c k : Nat) : (w.endKick c).stalled k = w.stalled k :=
  World.stalled_congr (w.rd_endKick _ _ _ _ (by decide) (by decide))

/-- A channel in STALL stands still once its kick is over. -/
theorem World.duty_endKick_stalled {w : World} {c : Nat} (hc : c < 4) (hs : w.stalled c = true) : (w.endKick c).rd .A F.FAN_STATUS.DUTY c = 0 := by
  obtain ⟨hfan, -, -⟩ := w.endKick_leaves c
  have hupd : w.endKick c = World.fanDuties _ := rfl
  rw [World.rd_duty_updated hupd hc, World.fanDuty_of_stall (by rw [hfan]) ((w.stalled_endKick c c).trans hs)]

/-- The other fans run at 100 % for a channel in STALL. -/
theorem World.duty_endKick_other {w : World} {c k : Nat} (hk : k < 3) (hc : c < 4) (hne : k ≠ c) (hs : w.stalled c = true) (hl : w.Powered)
    (hp : (w.fan k).pause = false) (hsk : w.stalled k = false) : (w.endKick c).rd .A F.FAN_STATUS.DUTY k = 100 := by
  obtain ⟨-, hother, -⟩ := w.endKick_leaves c
  have hupd : w.endKick c = World.fanDuties _ := rfl
  have hpow : (w.endKick c).Powered := (World.powered_congr (w.rd_endKick _ _ _ _ (by decide) (by decide))).mpr hl
  rw [World.rd_duty_updated hupd (by omega), World.fanDuty_full hpow (by rw [hother k hne, hp])
    (.inr ⟨(w.stalled_endKick c k).trans hsk, World.fanFull_of_stall hk hc hne.symm ((w.stalled_endKick c c).trans hs)⟩)]

/-! The target (R539, R541). -/

/-- The fields that a channel's target reads. -/
def targetInputs : List Field :=
  [F.FAN_CMD.MANUAL, F.FAN_CMD.TARGET, F.PWR_TEMP.TC_OUT, F.FAN_AUTO.T_LO, F.FAN_AUTO.T_HI, F.FAN_CFG.MAX_RPM, F.FAN_SKIP.LO, F.FAN_SKIP.HI]

/-- Two worlds that read the same targets. -/
def World.SameTargets (v w : World) : Prop := ∀ f ∈ targetInputs, ∀ i, v.rd .A f i = w.rd .A f i

theorem World.SameTargets.ask {v w : World} (e : World.SameTargets v w) (c : Nat) : v.fanAsk c = w.fanAsk c := by
  unfold World.SameTargets at e
  simp only [targetInputs, List.mem_cons, List.not_mem_nil, or_false, forall_eq_or_imp, forall_eq] at e
  obtain ⟨hm, ht, ho, hlo, hhi, hmax, -, -⟩ := e
  rw [World.fanAsk, World.flag, hm, ht, World.rdI, ho, hlo, hhi, hmax, World.fanAsk, World.flag, World.rdI]

theorem World.SameTargets.band {v w : World} (e : World.SameTargets v w) (x : Nat) : v.skipBand x = w.skipBand x := by
  unfold World.SameTargets at e
  simp only [targetInputs, List.mem_cons, List.not_mem_nil, or_false, forall_eq_or_imp, forall_eq] at e
  obtain ⟨-, -, -, -, -, -, hlo, hhi⟩ := e
  simp only [World.skipBand, hlo, hhi]

theorem World.SameTargets.trans {u v w : World} (e : World.SameTargets v w) (d : World.SameTargets u v) : World.SameTargets u w :=
  fun f hf i => (d f hf i).trans (e f hf i)

theorem World.SameTargets.wr {v w : World} {f : Field} (e : World.SameTargets v w) (i x : Nat) (hf : targetInputs.all (fieldsApart f) = true) :
    World.SameTargets (v.wr .A f i x) w :=
  e.trans fun _ hg _ => World.rd_wr_apart _ _ _ _ _ _ _ _ (List.all_eq_true.mp hf _ hg)

theorem World.SameTargets.pwrEvent {v w : World} (e : World.SameTargets v w) (num obj : Nat) : World.SameTargets (v.pwrEvent num obj) w :=
  e.trans fun f hf _ => World.rd_pwrEvent _ _ _ _ _ _ ((by decide : ∀ g ∈ targetInputs,
    (decide (g.reg < 2 ^ 25) && decide (g.reg ≠ 0x100018)) = true) f hf)

theorem World.sameTargets_fanDuties (w : World) : World.SameTargets w.fanDuties w :=
  fun f hf _ => World.rd_fanDuties _ _ _ _ ((by decide : ∀ g ∈ targetInputs, fieldsApart F.FAN_STATUS.DUTY g = true) f hf)

/-- The band that a channel's target lies in. -/
def World.targetBand (w : World) (c : Nat) : Option (Nat × Nat) := if c = 3 then none else w.skipBand (w.fanAsk c)

/-- The edge that a target in a band is held at. -/
def Fan.edge (f : Fan) (b : Nat × Nat) : Nat :=
  match f.held with
  | some (lo, e) => if lo = b.1 then e else (if f.last < b.1 then b.1 else b.2)
  | none => if f.last < b.1 then b.1 else b.2

theorem World.fanTarget_of_none {w : World} {c : Nat} (hb : w.targetBand c = none) :
    w.fanTarget c = (w.fanAsk c, (w.updFan c fun f => { f with held := none, last := w.fanAsk c }).wr .A F.FAN_STATUS.SKIPPED c 0) := by
  unfold World.targetBand at hb
  unfold World.fanTarget
  dsimp only
  rw [hb]

theorem World.fanTarget_of_some {w : World} {c : Nat} {b : Nat × Nat} (hb : w.targetBand c = some b) :
    w.fanTarget c = ((w.fan c).edge b,
      (w.updFan c fun f => { f with held := some (b.1, (w.fan c).edge b), last := w.fanAsk c }).wr .A F.FAN_STATUS.SKIPPED c 1) := by
  unfold World.targetBand at hb
  unfold World.fanTarget
  dsimp only
  rw [hb]
  rfl

theorem World.SameTargets.targetBand {v w : World} (e : World.SameTargets v w) (c : Nat) : v.targetBand c = w.targetBand c := by
  rw [World.targetBand, e.ask, e.band, World.targetBand]

theorem World.fanTarget_congr {v w : World} {c : Nat} (e : World.SameTargets v w) (hh : (v.fan c).held = (w.fan c).held)
    (hl : (v.fan c).last = (w.fan c).last) : (v.fanTarget c).1 = (w.fanTarget c).1 := by
  cases hb : w.targetBand c with
  | none => rw [World.fanTarget_of_none hb, World.fanTarget_of_none ((e.targetBand c).trans hb), e.ask]
  | some b => rw [World.fanTarget_of_some hb, World.fanTarget_of_some ((e.targetBand c).trans hb), Fan.edge, hh, hl, Fan.edge]

/-- The channel's memory of its target, and SKIPPED. -/
theorem World.fanTarget_leaves (w : World) (c : Nat) : (∃ hd ls, (w.fanTarget c).2.fan c = { w.fan c with held := hd, last := ls }) ∧
    (∀ k, k ≠ c → (w.fanTarget c).2.fan k = w.fan k) ∧ (w.fanTarget c).2.rd .A F.FAN_STATUS.SKIPPED c = b2n (w.targetBand c).isSome := by
  cases hb : w.targetBand c with
  | none =>
    rw [World.fanTarget_of_none hb]
    refine ⟨⟨none, w.fanAsk c, ?_⟩, fun k hk => ?_, World.rd_wr_same _ _ _ _ _ (by decide)⟩
    · rw [World.fan_wr, World.fan_updFan_same]
    · rw [World.fan_wr, World.fan_updFan_ne _ _ hk]
  | some b =>
    rw [World.fanTarget_of_some hb]
    refine ⟨⟨some (b.1, (w.fan c).edge b), w.fanAsk c, ?_⟩, fun k hk => ?_, World.rd_wr_same _ _ _ _ _ (by decide)⟩
    · rw [World.fan_wr, World.fan_updFan_same]
    · rw [World.fan_wr, World.fan_updFan_ne _ _ hk]

theorem World.rd_fanTarget (w : World) (c : Nat) (h : Half) (g : Field) (i : Nat) (hg : fieldsApart F.FAN_STATUS.SKIPPED g = true) :
    (w.fanTarget c).2.rd h g i = w.rd h g i := by
  cases hb : w.targetBand c with
  | none => rw [World.fanTarget_of_none hb, World.rd_wr_apart _ _ _ _ _ _ _ _ hg, World.rd_updFan]
  | some b => rw [World.fanTarget_of_some hb, World.rd_wr_apart _ _ _ _ _ _ _ _ hg, World.rd_updFan]

theorem World.sameTargets_fanTarget (w : World) (c : Nat) : World.SameTargets (w.fanTarget c).2 w :=
  fun f hf _ => World.rd_fanTarget _ _ _ _ _ ((by decide : ∀ g ∈ targetInputs, fieldsApart F.FAN_STATUS.SKIPPED g = true) f hf)

/-! A speed measured (R539, R540). -/

/-- The speed stored, with the stretch owed and the clocks of a low and of a good speed. -/
def World.speedTaken (w : World) (c e1 e2 : Nat) : World :=
  let rpm := fanRpm e1 e2
  let w := w.wr .A F.FAN_STATUS.RPM c (satTo 16 rpm)
  let on := (w.fan c).on
  let full := w.fanDuty c = 100
  let low := rpm < 700
  w.updFan c fun f => { f with
    owe := if full then 0 else min e2 (50 * ms) - on
    lowAt := if low && f.kick = 0 && !f.pause then some (f.lowAt.getD w.now) else none
    goodAt := if rpm = 0 then none else some (f.goodAt.getD w.now) }

/-- An open tachometer that has read a speed for 2 s counts again. -/
def World.tachBack (w : World) (c : Nat) : World :=
  w.when (w.flag .A F.FAN_STATUS.TACH_OPEN c && (w.fan c).goodAt.any (fun t => decide (t + 2 * sec ≤ w.now))) fun w =>
    (w.wr .A F.FAN_STATUS.TACH_OPEN c 0).pwrEvent 27 (objFan c)

/-- The correction toward a target, where the channel is free. -/
def World.speedLoop (w : World) (c tgt rpm : Nat) : World :=
  w.when (!(w.fan c).green && (w.fan c).kick = 0 && !w.stalled c && !w.flag .A F.FAN_STATUS.TACH_OPEN c) (·.fanLoop c tgt rpm)

/-- The whole measurement of a channel that exists. -/
def World.speedMeasured (w : World) (c e1 e2 : Nat) : World :=
  (((((w.speedTaken c e1 e2).tachBack c).fanTarget c).2.speedLoop c (((w.speedTaken c e1 e2).tachBack c).fanTarget c).1 (fanRpm e1 e2))).fanDuties

theorem exec_fanSpeedMeasure {c : Nat} (e1 e2 : Nat) (s : State) (hc : c < 4) :
    exec (.fanSpeedMeasure c e1 e2) s = .next { s with w := s.w.speedMeasured c e1 e2 } := by
  have hwhen (f : World → World) : s.w.when (decide (c < 4)) f = f s.w := by rw [decide_eq_true hc, World.when_true]
  change execFanSpeedMeasure c e1 e2 s = _
  unfold execFanSpeedMeasure lift
  dsimp only
  rw [hwhen]
  rfl

theorem World.speedTaken_leaves (w : World) (c e1 e2 : Nat) :
    (w.speedTaken c e1 e2).fan c = { w.fan c with
      owe := if w.fanDuty c = 100 then 0 else min e2 (50 * ms) - (w.fan c).on
      lowAt := if fanRpm e1 e2 < 700 && (w.fan c).kick = 0 && !(w.fan c).pause then some ((w.fan c).lowAt.getD w.now) else none
      goodAt := if fanRpm e1 e2 = 0 then none else some ((w.fan c).goodAt.getD w.now) } ∧
    (w.speedTaken c e1 e2).rd .A F.FAN_STATUS.RPM c = satTo 16 (fanRpm e1 e2) ∧ (w.speedTaken c e1 e2).now = w.now := by
  unfold World.speedTaken
  dsimp only
  refine ⟨?_, ?_, ?_⟩
  · rw [World.fan_updFan_same, World.fan_wr, World.fanDuty_wr _ _ _ _ (by decide), World.wr_now]
  · rw [World.rd_updFan, World.rd_wr_same _ _ _ _ _ (by decide)]
    exact Nat.mod_eq_of_lt (satTo_lt _ _)
  · rw [World.now_updFan, World.wr_now]

theorem World.rd_speedTaken (w : World) (c e1 e2 : Nat) (h : Half) (g : Field) (i : Nat) (hg : fieldsApart F.FAN_STATUS.RPM g = true) :
    (w.speedTaken c e1 e2).rd h g i = w.rd h g i := by
  unfold World.speedTaken
  dsimp only
  rw [World.rd_updFan, World.rd_wr_apart _ _ _ _ _ _ _ _ hg]

@[simp] theorem World.fan_tachBack (w : World) (c k : Nat) : (w.tachBack c).fan k = w.fan k := by
  unfold World.tachBack
  rw [World.apply_when (fun u => u.fan k), World.fan_pwrEvent, World.fan_wr, ite_self]

theorem World.rd_tachBack (w : World) (c : Nat) (h : Half) (g : Field) (i : Nat) (hg : fieldsApart F.FAN_STATUS.TACH_OPEN g = true)
    (hu : unlogged g = true) : (w.tachBack c).rd h g i = w.rd h g i := by
  unfold World.tachBack
  rw [World.rd_when, World.rd_pwrEvent _ _ _ _ _ _ hu, World.rd_wr_apart _ _ _ _ _ _ _ _ hg, ite_self]

/-- The correction changes the loop's duty and nothing that is read. -/
theorem World.fanLoop_leaves (w : World) (c tgt rpm : Nat) : (∃ l, (w.fanLoop c tgt rpm).fan c = { w.fan c with loop := l }) ∧
    ∀ h g i, (w.fanLoop c tgt rpm).rd h g i = w.rd h g i := by
  unfold World.fanLoop
  split
  · exact ⟨⟨_, rfl⟩, fun _ _ _ => rfl⟩
  · refine ⟨⟨_, World.fan_updFan_same _ _ _⟩, fun h g i => ?_⟩
    rw [World.rd_updFan, World.rd_free]

theorem World.speedLoop_leaves (w : World) (c tgt rpm : Nat) : (∃ l, (w.speedLoop c tgt rpm).fan c = { w.fan c with loop := l }) ∧
    ∀ h g i, (w.speedLoop c tgt rpm).rd h g i = w.rd h g i := by
  unfold World.speedLoop World.when
  split
  · exact w.fanLoop_leaves c tgt rpm
  · exact ⟨⟨_, rfl⟩, fun _ _ _ => rfl⟩

/-- Outside the skip bands the duty moves toward the target by at most 5 %, within its bounds. -/
theorem World.fanLoop_moves {w : World} {c tgt rpm : Nat} (hband : c = 3 ∨ w.skipBand rpm = none) (hmin : minDuty c ≤ (w.fan c).loop)
    (hmax : (w.fan c).loop ≤ 100) :
    (rpm = tgt → ((w.fanLoop c tgt rpm).fan c).loop = (w.fan c).loop) ∧
    (rpm < tgt → (w.fan c).loop ≤ ((w.fanLoop c tgt rpm).fan c).loop ∧ ((w.fanLoop c tgt rpm).fan c).loop ≤ min 100 ((w.fan c).loop + 5)) ∧
    (tgt < rpm → max (minDuty c) ((w.fan c).loop - 5) ≤ ((w.fanLoop c tgt rpm).fan c).loop ∧
      ((w.fanLoop c tgt rpm).fan c).loop ≤ (w.fan c).loop) := by
  have hstep : (decide (c ≠ 3) && (w.free.2.skipBand rpm).isSome) = false := by
    have hfree : w.free.2.skipBand rpm = w.skipBand rpm := rfl
    obtain rfl | hnone := hband
    · rfl
    · rw [hfree, hnone]
      exact Bool.and_false _
  have hfan : w.free.2.fan c = w.fan c := rfl
  have hsmall : w.free.1.toNat % 6 < 6 := Nat.mod_lt _ (by decide)
  unfold World.fanLoop
  by_cases heq : rpm = tgt
  · rw [if_pos heq]
    exact ⟨fun _ => rfl, fun h => absurd heq h.ne, fun h => absurd heq h.ne'⟩
  · rw [if_neg heq]
    dsimp only
    rw [hstep, if_neg Bool.false_ne_true, World.fan_updFan_same, hfan]
    refine ⟨fun h => absurd h heq, fun hlt => ?_, fun hgt => ?_⟩
    · rw [if_pos hlt]
      dsimp only
      omega
    · rw [if_neg hgt.not_gt]
      dsimp only
      omega

end Sys2Proof.Machine
end

section
/-!
PROOF. O58: cooling and fans.
-/
namespace Sys2Proof.Machine

theorem badTemp_iff {t : Int} : badTemp t = true ↔ t < -50 ∨ 150 < t := by simp [badTemp]

theorem badTemp_eq_decide (t : Int) : badTemp t = decide (t < -50 ∨ 150 < t) := by
  rw [Bool.eq_iff_iff, badTemp_iff, decide_eq_true_iff]

theorem badTemp_of_valid {t : Int} (hlo : -50 ≤ t) (hhi : t ≤ 150) : badTemp t = false := by
  rw [Bool.eq_false_iff, Ne, badTemp_iff]
  omega

/-- The faults of three thermistors that were valid, set one after the other. -/
theorem faults_listed : ∀ a b c : Bool, (if c then listSet (if b then listSet (if a then listSet [false, false, false] 0 true else
    [false, false, false]) 1 true else if a then listSet [false, false, false] 0 true else [false, false, false]) 2 true else
    if b then listSet (if a then listSet [false, false, false] 0 true else [false, false, false]) 1 true else
    if a then listSet [false, false, false] 0 true else [false, false, false]) = [a, b, c] := by decide

/-- The ambient's reading stored, with its clock (R533). -/
def World.ambientRead (w : World) (ta : Int) : World :=
  (w.wrI .A F.PWR_TEMP.TA 0 (clampI (-128) 127 (ta / 10))).updPwr fun p => { p with
    coolAt := if ta ≤ 670 then some (p.coolAt.getD w.now) else none }

theorem World.ambientRead_leaves (w : World) (ta : Int) : (w.ambientRead ta).rdI .A F.PWR_TEMP.TA = clampI (-128) 127 (ta / 10) ∧
    (w.ambientRead ta).pwr = { w.pwr with coolAt := if ta ≤ 670 then some (w.pwr.coolAt.getD w.now) else none } ∧
    (w.ambientRead ta).rd .A F.PWR_STATUS.DERATE = w.rd .A F.PWR_STATUS.DERATE ∧ (w.ambientRead ta).now = w.now := by
  unfold World.ambientRead
  refine ⟨?_, ?_, ?_, ?_⟩
  · exact (World.rdI_congr (World.rd_updPwr _ _ _ _ _)).trans (World.rdI_wrI_byte _ _ _ _ _ (by decide) rfl)
  · have hpwr (u : World) (f : Power → Power) : (u.updPwr f).pwr = f u.pwr := rfl
    rw [hpwr, World.wrI, World.wr_pwr]
  · rw [World.rd_updPwr, World.rd_wrI_apart _ _ _ _ _ _ _ _ (by decide)]
  · rw [World.now_updPwr, World.wrI, World.wr_now]

/-- DERATE follows the filtered ambient. -/
def World.derated (w : World) (ta : Int) : World :=
  if 700 < ta || w.pwr.bad.getD 2 false then w.setDerate true
  else w.when (w.pwr.coolAt.any (fun t => decide (t + 60 * sec ≤ w.now))) (·.setDerate false)

theorem exec_derateChange (ta : Int) (s : State) : exec (.derateChange ta) s = .next { s with w := (s.w.ambientRead ta).derated ta } := rfl

theorem World.derated_leaves (w : World) (ta : Int) : (w.derated ta).pwr = w.pwr ∧
    (w.derated ta).rdI .A F.PWR_TEMP.TA = w.rdI .A F.PWR_TEMP.TA := by
  have hta (on : Bool) : (w.setDerate on).rdI .A F.PWR_TEMP.TA = w.rdI .A F.PWR_TEMP.TA :=
    World.rdI_congr (World.rd_setDerate _ _ _ _ _ (by decide) (by decide))
  unfold World.derated
  split
  · exact ⟨(World.setDerate_leaves _ _).2, hta true⟩
  · rw [World.apply_when (·.pwr), (World.setDerate_leaves _ _).2, ite_self, World.apply_when (fun u => u.rdI .A F.PWR_TEMP.TA), hta, ite_self]
    exact ⟨rfl, rfl⟩

theorem World.rd_derated_hot {w : World} {ta : Int} (hor : 700 < ta ∨ w.pwr.bad.getD 2 false = true) :
    (w.derated ta).rd .A F.PWR_STATUS.DERATE = 1 := by
  unfold World.derated
  rw [if_pos (by simpa using hor)]
  exact (World.setDerate_leaves _ _).1

theorem World.rd_derated_cool {w : World} {ta : Int} (hta : ta ≤ 700) (hbad : w.pwr.bad.getD 2 false = false) :
    (w.derated ta).rd .A F.PWR_STATUS.DERATE =
      if w.pwr.coolAt.any (fun t => decide (t + 60 * sec ≤ w.now)) then 0 else w.rd .A F.PWR_STATUS.DERATE := by
  unfold World.derated
  rw [if_neg (by rw [hbad]; simpa using hta), World.rd_when, (World.setDerate_leaves _ _).1]
  rfl

/-- The override's level for a reading (R535). -/
def World.overrideFor (w : World) (was : Bool) (ts : Int) : Bool := badTemp ts || w.tSh - 5 ≤ ts || (was && w.tSh - 8 < ts)

/-- The override started or ended. -/
def World.overridden (w : World) (ts : Int) : World :=
  if w.flag .A F.PWR_SHDN.OVERRIDE = w.overrideFor (w.flag .A F.PWR_SHDN.OVERRIDE) ts then w
  else (w.wr .A F.PWR_SHDN.OVERRIDE 0 (b2n (w.overrideFor (w.flag .A F.PWR_SHDN.OVERRIDE) ts))).pwrEvent 29 0xFFFF

theorem exec_coolingOverride (ts : Int) (s : State) :
    exec (.coolingOverride ts) s = .next { s with w := ((s.w.readTs ts).overridden ts).fanDuties } := rfl

theorem World.rd_overridden_override (w : World) (ts : Int) :
    (w.overridden ts).rd .A F.PWR_SHDN.OVERRIDE = b2n (w.overrideFor (w.flag .A F.PWR_SHDN.OVERRIDE) ts) := by
  unfold World.overridden
  split
  · rename_i hsame
    rw [← hsame]
    obtain h0 | h1 := w.rd_bit .A F.PWR_SHDN.OVERRIDE 0 rfl
    · rw [(World.flag_eq_false_iff rfl).mpr h0, h0]
      rfl
    · rw [World.flag_eq_true_iff.mpr h1, h1]
      rfl
  · rw [World.rd_pwrEvent _ _ _ _ _ _ (by decide), World.rd_wr_same _ _ _ _ _ (by decide)]
    exact b2n_mod_two _

theorem World.rd_overridden (w : World) (ts : Int) (h : Half) (g : Field) (i : Nat) (hg : fieldsApart F.PWR_SHDN.OVERRIDE g = true)
    (hu : unlogged g = true) : (w.overridden ts).rd h g i = w.rd h g i := by
  unfold World.overridden
  split
  · rfl
  · rw [World.rd_pwrEvent _ _ _ _ _ _ hu, World.rd_wr_apart _ _ _ _ _ _ _ _ hg]

theorem World.fan_overridden (w : World) (ts : Int) (c : Nat) : (w.overridden ts).fan c = w.fan c := by
  unfold World.overridden
  split
  · rfl
  · rw [World.fan_pwrEvent, World.fan_wr]

/-- A command written (R539): the channel leaves its Green state at its present duty. -/
def World.fanWritten (w : World) (c v : Nat) : World :=
  let w := (w.wr .A F.FAN_CMD.MANUAL c (bitsOf v 16 1)).wr .A F.FAN_CMD.TARGET c (bitsOf v 0 16)
  w.updFan c fun f => { f with loop := if f.green then w.rd .A F.FAN_STATUS.DUTY c else f.loop, green := false, gramp := none }

/-- A kick in progress yields to a command (R542). -/
def World.kickYields (w : World) (c : Nat) : World := w.when ((w.fan c).kick ≠ 0) (·.endKick c)

theorem exec_fanCommand {h : Half} {init c : Nat} (v : Nat) {s : State} (halive : s.own.alive h = true) (hsel : s.w.sel h F.FAN_SEL.CH init = c)
    (hc : c < 4) (howns : s.own.owns h (354 + c) = true) (hsafe : s.w.safeOn (354 + c) = false) :
    exec (.fanCommand h init v) s = .next { s with w := (((s.w.fanWritten c v).kickYields c).fanTarget c).2.fanDuties } := by
  change execFanCommand h init v s = _
  unfold execFanCommand
  dsimp only
  rw [hsel, Nat.mod_eq_of_lt hc, objFan, gateObj_owned _ _ _ _ _ halive howns, hsafe, if_neg Bool.false_ne_true]
  rfl

theorem World.fanWritten_leaves (w : World) (c v : Nat) :
    (w.fanWritten c v).fan c = { w.fan c with
      loop := if (w.fan c).green then w.rd .A F.FAN_STATUS.DUTY c else (w.fan c).loop, green := false, gramp := none } ∧
    (w.fanWritten c v).rd .A F.FAN_CMD.MANUAL c = v / 65536 % 2 ∧ (w.fanWritten c v).rd .A F.FAN_CMD.TARGET c = v % 65536 := by
  unfold World.fanWritten
  dsimp only
  refine ⟨?_, ?_, ?_⟩
  · rw [World.fan_updFan_same, World.fan_wr, World.fan_wr, World.rd_wr_apart _ _ _ _ _ _ _ _ (by decide),
      World.rd_wr_apart _ _ _ _ _ _ _ _ (by decide)]
  · rw [World.rd_updFan, World.rd_wr_apart _ _ _ _ _ _ _ _ (by decide), World.rd_wr_same _ _ _ _ _ (by decide)]
    simp [bitsOf]
  · rw [World.rd_updFan, World.rd_wr_same _ _ _ _ _ (by decide)]
    simp [bitsOf]

theorem World.rd_fanWritten (w : World) (c v : Nat) (h : Half) (g : Field) (i : Nat) (hm : fieldsApart F.FAN_CMD.MANUAL g = true)
    (ht : fieldsApart F.FAN_CMD.TARGET g = true) : (w.fanWritten c v).rd h g i = w.rd h g i := by
  unfold World.fanWritten
  dsimp only
  rw [World.rd_updFan, World.rd_wr_apart _ _ _ _ _ _ _ _ ht, World.rd_wr_apart _ _ _ _ _ _ _ _ hm]

theorem World.kickYields_leaves (w : World) (c : Nat) : ((w.kickYields c).fan c).kick = 0 ∧
    ((w.kickYields c).fan c).pause = (if (w.fan c).kick = 0 then (w.fan c).pause else false) ∧
    ((w.kickYields c).fan c).green = (w.fan c).green ∧ ((w.kickYields c).fan c).loop = (w.fan c).loop ∧
    ((w.kickYields c).fan c).held = (w.fan c).held ∧ ((w.kickYields c).fan c).last = (w.fan c).last := by
  obtain ⟨hfan, -, -⟩ := w.endKick_leaves c
  unfold World.kickYields World.when
  by_cases hk : (w.fan c).kick = 0
  · rw [if_neg (by simpa using hk), if_pos hk]
    exact ⟨hk, rfl, rfl, rfl, rfl, rfl⟩
  · rw [if_pos (by simpa using hk), if_neg hk, hfan]
    exact ⟨rfl, rfl, rfl, rfl, rfl, rfl⟩

theorem World.rd_kickYields (w : World) (c : Nat) (h : Half) (g : Field) (i : Nat) (hd : fieldsApart F.FAN_STATUS.DUTY g = true)
    (hk : fieldsApart F.FAN_STATUS.KICKING g = true) : (w.kickYields c).rd h g i = w.rd h g i := by
  unfold World.kickYields
  rw [World.rd_when, World.rd_endKick _ _ _ _ _ hd hk, ite_self]

/-- A target set by hand is the one asked for. -/
theorem World.fanAsk_manual {w : World} {c : Nat} (hm : w.rd .A F.FAN_CMD.MANUAL c = 1) : w.fanAsk c = w.rd .A F.FAN_CMD.TARGET c := by
  rw [World.fanAsk, World.flag, hm]
  rfl

/-- The bias check of a suspect channel acted upon (R542). -/
def World.biasChecked (w : World) (c v : Nat) : World :=
  if v < 300 then w.startKick c 1
  else if 450 < v then
    ((w.updFan c fun f => { f with lowAt := none, goodAt := none }).wr .A F.FAN_STATUS.TACH_OPEN c 1).pwrEvent 27 (objFan c) |>.fanDuties
  else w.updFan c fun f => { f with checkAt := w.now + sec }

/-- A kick that ends with a speed (R542). -/
def World.kickDone (w : World) (c rpm : Nat) : World :=
  if 700 ≤ rpm then
    let was := w.stalled c
    let w := (w.wr .A F.FAN_STATUS.STALL c 0).endKick c
    w.when was fun w => w.pwrEvent 26 (objFan c)
  else if w.stalled c then w.endKick c
  else if (w.fan c).kick < 3 then (w.updFan c fun f => { f with pause := true, kickAt := w.now }).fanDuties
  else
    let w := ((w.wr .A F.FAN_STATUS.STALL c 1).updFan c fun f => { f with stallAt := w.now }).endKick c
    w.pwrEvent (if c = 3 then 28 else 26) (objFan c)

/-- The first skip band, where the speed lies in it. -/
theorem World.skipBand_first {w : World} {x : Nat} (hne : w.rd .A F.FAN_SKIP.LO 0 ≠ 0) (hlo : w.rd .A F.FAN_SKIP.LO 0 ≤ x)
    (hhi : x ≤ w.rd .A F.FAN_SKIP.HI 0) : w.skipBand x = some (w.rd .A F.FAN_SKIP.LO 0, w.rd .A F.FAN_SKIP.HI 0) := by
  rw [World.skipBand, show List.range 4 = [0, 1, 2, 3] from rfl, List.map_cons, List.find?_cons_of_pos]
  exact decide_eq_true ⟨hne, hlo, hhi⟩

end Sys2Proof.Machine

open Sys2Proof Sys2Proof.Machine

/-- Settles O58: each command of the temperatures and of a fan channel leaves what the lemma of its stage says. -/
theorem coolingAndFans : Obligations.coolingAndFans := by
  unfold Obligations.coolingAndFans
  refine ⟨?hot, ?cool, ?between, ?bad, ?override, ?warn, ?fault, ?valid, ?frame, ?none, ?speed, ?loop, ?tach, ?cmd, ?band, ?cmdNot, ?cmdOff,
    ?suspect, ?suspectNot, ?kickEnd, ?kickEndNot, ?pause, ?pauseNot, ?rekick, ?rekickNot⟩
  case hot =>
    intro ta s hta
    obtain ⟨hrdI, hpwr, -, -⟩ := s.w.ambientRead_leaves ta
    obtain ⟨hkeep, htaI⟩ := (s.w.ambientRead ta).derated_leaves ta
    have hexec := exec_derateChange ta s
    refine .of_exec hexec ⟨World.rd_derated_hot (.inl hta), htaI.trans hrdI, ?_, exec_regsBut hexec rfl, exec_quiet hexec rfl⟩
    dsimp only
    rw [hkeep, hpwr]
    exact if_neg (by omega)
  case cool =>
    intro ta t0 s hta hbad hcool
    obtain ⟨hrdI, hpwr, hder, hnow⟩ := s.w.ambientRead_leaves ta
    obtain ⟨hkeep, htaI⟩ := (s.w.ambientRead ta).derated_leaves ta
    have hclock : (s.w.ambientRead ta).pwr.coolAt = some t0 := by
      rw [hpwr, hcool]
      exact if_pos hta
    have hexec := exec_derateChange ta s
    refine .of_exec hexec ⟨?_, (congrArg Power.coolAt hkeep).trans hclock, htaI.trans hrdI, exec_quiet hexec rfl⟩
    dsimp only
    rw [World.rd_derated_cool (by omega) (by rw [hpwr]; exact hbad), hclock, hder, hnow, Option.any_some, show 60 * sec = 60000000000 from rfl]
    simp only [decide_eq_true_eq]
  case between =>
    intro ta s hta hor hbad
    obtain ⟨-, hpwr, hder, hnow⟩ := s.w.ambientRead_leaves ta
    obtain ⟨hkeep, -⟩ := (s.w.ambientRead ta).derated_leaves ta
    have hclock : (s.w.ambientRead ta).pwr.coolAt = if ta ≤ 670 then some s.w.now else none := by
      rw [hpwr]
      dsimp only
      split
      · obtain hlt | hnone := hor
        · omega
        · rw [hnone]
          rfl
      · rfl
    have hexec := exec_derateChange ta s
    refine .of_exec hexec ⟨?_, (congrArg Power.coolAt hkeep).trans hclock, exec_quiet hexec rfl⟩
    dsimp only
    rw [World.rd_derated_cool hta (by rw [hpwr]; exact hbad), hclock, hder, hnow, if_neg]
    split
    · rw [Option.any_some, decide_eq_true_iff, show 60 * sec = 60000000000 from rfl]
      omega
    · exact Bool.false_ne_true
  case bad =>
    intro ta s hbad
    obtain ⟨-, hpwr, -, -⟩ := s.w.ambientRead_leaves ta
    have hexec := exec_derateChange ta s
    exact .of_exec hexec ⟨World.rd_derated_hot (.inr (by rw [hpwr]; exact hbad)), exec_quiet hexec rfl⟩
  case override =>
    intro ts s
    obtain ⟨hrdI, hfan⟩ := s.w.readTs_leaves ts
    obtain ⟨u, hu⟩ : ∃ u, (s.w.readTs ts).overridden ts = u := ⟨_, rfl⟩
    have hkeep (g : Field) (i : Nat) (hts : fieldsApart F.PWR_SHDN.TS g = true) (ho : fieldsApart F.PWR_SHDN.OVERRIDE g = true)
        (hul : unlogged g = true) : u.rd .A g i = s.w.rd .A g i := by
      rw [← hu, World.rd_overridden _ _ _ _ _ ho hul, World.rd_readTs _ _ _ _ _ hts]
    have hfan' (c : Nat) : u.fan c = s.w.fan c := by
      rw [← hu, World.fan_overridden, World.fan, hfan, World.fan]
    have htsh : (s.w.readTs ts).tSh = s.w.rd .A F.PWR_SHDN.T_SH := by
      rw [World.tSh, World.rd_readTs _ _ _ _ _ (by decide)]
    have hover : u.rd .A F.PWR_SHDN.OVERRIDE =
        if ts < -50 ∨ 150 < ts ∨ (s.w.rd .A F.PWR_SHDN.T_SH : Int) - 5 ≤ ts then 1
        else if ts ≤ (s.w.rd .A F.PWR_SHDN.T_SH : Int) - 8 then 0 else s.w.rd .A F.PWR_SHDN.OVERRIDE := by
      have hbit := s.w.rd_bit .A F.PWR_SHDN.OVERRIDE 0 rfl
      rw [← hu, World.rd_overridden_override, World.overrideFor, htsh, World.flag, World.rd_readTs _ _ _ _ _ (by decide), b2n_eq_ite]
      simp only [Bool.or_eq_true, Bool.and_eq_true, decide_eq_true_eq, badTemp_iff]
      split_ifs <;> omega
    have hexec := exec_coolingOverride ts s
    rw [hu] at hexec
    refine .of_exec hexec ⟨?_, ?_, fun c hc hone h0 h3 hp hst => ?_, ?_, exec_regsBut hexec rfl, exec_quiet hexec rfl⟩
    · refine (World.rdI_congr ?_).trans hrdI
      dsimp only
      rw [World.rd_fanDuties _ _ _ _ (by decide), ← hu, World.rd_overridden _ _ _ _ _ (by decide) (by decide)]
    · exact (World.rd_fanDuties _ _ _ _ (by decide)).trans hover
    · have hpow : u.Powered := (World.powered_congr (hkeep _ _ (by decide) (by decide) (by decide))).mpr ⟨h0, h3⟩
      have hstall : u.stalled c = false := (World.stalled_congr (hkeep _ _ (by decide) (by decide) (by decide))).trans hst
      have hone' : u.rd .A F.PWR_SHDN.OVERRIDE = 1 := (World.rd_fanDuties _ _ _ _ (by decide)).symm.trans hone
      dsimp only
      rw [World.rd_fanDuties_duty _ hc, World.fanDuty_full hpow (by rw [hfan', hp]) (.inr ⟨hstall, World.fanFull_of_override c hone'⟩)]
    · exact (World.rd_fanDuties _ _ _ _ (by decide)).trans (hkeep _ _ (by decide) (by decide) (by decide))
  case warn =>
    intro tin tout ta s hlo hhi
    have hbad : badTemp tout = false := badTemp_of_valid hlo hhi
    obtain ⟨-, hwarn, hcrit⟩ := s.w.coolantRead_keeps tin tout ta
    have htsh : (s.w.coolantRead tin tout ta).tSh = s.w.rd .A F.PWR_SHDN.T_SH := by
      rw [World.tSh, World.rd_coolantRead _ _ _ _ _ _ _ (by decide) (by decide) (by decide) (by decide) (by decide)]
    have hexec := exec_coolantTemperatureWarning tin tout ta s
    rw [hbad, if_neg Bool.false_ne_true] at hexec
    have hpwr : ((s.w.coolantRead tin tout ta).coolantWarned tout).fanDuties.pwr = { (s.w.coolantRead tin tout ta).pwr with
        warn := (s.w.rd .A F.PWR_SHDN.T_SH : Int) - 8 ≤ tout || (s.w.pwr.warn && (s.w.rd .A F.PWR_SHDN.T_SH : Int) - 11 < tout)
        crit := (s.w.rd .A F.PWR_SHDN.T_SH : Int) - 4 ≤ tout || (s.w.pwr.crit && (s.w.rd .A F.PWR_SHDN.T_SH : Int) - 7 < tout) } := by
      rw [World.pwr_fanDuties, World.coolantWarned_leaves, htsh, hwarn, hcrit]
    have htemp (f : Field) (hd : fieldsApart F.FAN_STATUS.DUTY f = true) (hs : fieldsApart F.PWR_TEMP.SENSOR_FAULT f = true)
        (hder : fieldsApart F.PWR_STATUS.DERATE f = true) (hu : unlogged f = true) :
        ((s.w.coolantRead tin tout ta).coolantWarned tout).fanDuties.rd .A f = ((s.w.wrI .A F.PWR_TEMP.TC_IN 0 (clampI (-128) 127 tin)).wrI .A
          F.PWR_TEMP.TC_OUT 0 (clampI (-128) 127 tout)).rd .A f := by
      rw [World.rd_fanDuties _ _ _ _ hd, World.rd_coolantWarned _ _ _ _ _ hu, World.coolantRead, World.rd_thermistor _ _ _ _ _ _ hs hder hu,
        World.rd_thermistor _ _ _ _ _ _ hs hder hu, World.rd_thermistor _ _ _ _ _ _ hs hder hu]
    refine .of_exec hexec ⟨?_, ?_, ?_, ?_, ?_, ?_, ?_, ?_, exec_quiet hexec rfl⟩
    · refine (World.rdI_congr (htemp _ (by decide) (by decide) (by decide) (by decide))).trans ?_
      exact (World.rdI_congr (World.rd_wrI_apart _ _ _ _ _ _ _ _ (by decide))).trans (World.rdI_wrI_byte _ _ _ _ _ (by decide) rfl)
    · exact (World.rdI_congr (htemp _ (by decide) (by decide) (by decide) (by decide))).trans (World.rdI_wrI_byte _ _ _ _ _ (by decide) rfl)
    all_goals
      dsimp only
      rw [hpwr]
      dsimp only
    · intro hge
      simp [hge]
    · intro hle
      rw [decide_eq_false (by omega), Bool.false_or, decide_eq_false (by omega), Bool.and_false]
    · intro hge
      simp [hge]
    · intro hle
      rw [decide_eq_false (by omega), Bool.false_or, decide_eq_false (by omega), Bool.and_false]
    · intro hgt hlt
      rw [decide_eq_false (by omega), Bool.false_or, decide_eq_true hgt, Bool.and_true]
    · intro hgt hlt
      rw [decide_eq_false (by omega), Bool.false_or, decide_eq_true hgt, Bool.and_true]
  case fault =>
    intro tin tout ta s hor hbad
    obtain ⟨v, hv⟩ : ∃ v, (s.w.wrI .A F.PWR_TEMP.TC_IN 0 (clampI (-128) 127 tin)).wrI .A F.PWR_TEMP.TC_OUT 0 (clampI (-128) 127 tout) = v := ⟨_, rfl⟩
    have hbad0 : v.pwr.bad = [false, false, false] := by rw [← hv, World.wrI, World.wr_pwr, World.wrI, World.wr_pwr, hbad]
    obtain ⟨hb0, hf0, -⟩ := World.thermistor_of_valid (w := v) (k := 0) tin (by rw [hbad0]; rfl)
    obtain ⟨hb1, hf1, -⟩ := World.thermistor_of_valid (w := v.thermistor 0 tin) (k := 1) tout (by rw [hb0, hbad0]; split <;> rfl)
    obtain ⟨hb2, hf2, hd2⟩ := World.thermistor_of_valid (w := (v.thermistor 0 tin).thermistor 1 tout) (k := 2) ta
      (by rw [hb1, hb0, hbad0]; split <;> split <;> rfl)
    obtain ⟨hfan, hwarn, hcrit⟩ := s.w.coolantRead_keeps tin tout ta
    have hread : s.w.coolantRead tin tout ta = ((v.thermistor 0 tin).thermistor 1 tout).thermistor 2 ta := by rw [← hv, World.coolantRead]
    obtain ⟨u, hu⟩ : ∃ u, (if badTemp tout then s.w.coolantRead tin tout ta else (s.w.coolantRead tin tout ta).coolantWarned tout) = u := ⟨_, rfl⟩
    have hrd (g : Field) (i : Nat) (hul : unlogged g = true) : u.rd .A g i = (s.w.coolantRead tin tout ta).rd .A g i := by
      rw [← hu]
      split
      · rfl
      · exact World.rd_coolantWarned _ _ _ _ _ hul
    have hsame : u.pwr.fan = s.w.pwr.fan ∧ u.pwr.bad = (s.w.coolantRead tin tout ta).pwr.bad := by
      rw [← hu]
      split
      · exact ⟨hfan, rfl⟩
      · rw [World.coolantWarned_leaves]
        exact ⟨hfan, rfl⟩
    have hfault : u.rd .A F.PWR_TEMP.SENSOR_FAULT = 1 := by
      rw [hrd _ _ (by decide), hread, hf2, hf1, hf0]
      simp only [badTemp_iff]
      split_ifs <;> omega
    have hexec := exec_coolantTemperatureWarning tin tout ta s
    rw [hu] at hexec
    refine .of_exec hexec ⟨?_, ?_, fun hta => ?_, fun htout => ?_, fun c hc h0 h3 hp hst => ?_, exec_quiet hexec rfl⟩
    · exact (World.rd_fanDuties _ _ _ _ (by decide)).trans hfault
    · dsimp only
      rw [World.pwr_fanDuties, hsame.2, hread, hb2, hb1, hb0, hbad0]
      simp only [badTemp_eq_decide]
      exact faults_listed _ _ _
    · dsimp only
      rw [World.rd_fanDuties _ _ _ _ (by decide), hrd _ _ (by decide), hread]
      exact hd2 (badTemp_iff.mpr hta) rfl
    · dsimp only
      rw [World.pwr_fanDuties, ← hu, if_pos (badTemp_iff.mpr htout)]
      exact ⟨hwarn, hcrit⟩
    · have hkeep (g : Field) (i : Nat) (hi : fieldsApart F.PWR_TEMP.TC_IN g = true) (ho : fieldsApart F.PWR_TEMP.TC_OUT g = true)
          (hs : fieldsApart F.PWR_TEMP.SENSOR_FAULT g = true) (hd : fieldsApart F.PWR_STATUS.DERATE g = true) (hul : unlogged g = true) :
          u.rd .A g i = s.w.rd .A g i := (hrd g i hul).trans (World.rd_coolantRead _ _ _ _ _ _ _ hi ho hs hd hul)
      have hpow : u.Powered := (World.powered_congr (hkeep _ _ (by decide) (by decide) (by decide) (by decide) (by decide))).mpr ⟨h0, h3⟩
      have hstall : u.stalled c = false :=
        (World.stalled_congr (hkeep _ _ (by decide) (by decide) (by decide) (by decide) (by decide))).trans hst
      have hpause : (u.fan c).pause = false := by rw [World.fan, hsame.1, ← World.fan, hp]
      dsimp only
      rw [World.rd_fanDuties_duty _ hc, World.fanDuty_full hpow hpause (.inr ⟨hstall, World.fanFull_of_fault c hfault⟩)]
  case valid =>
    intro tin tout ta t0 s hin0 hin1 hout0 hout1 hta0 hta1 hbad hok hlen
    obtain ⟨v, hv⟩ : ∃ v, (s.w.wrI .A F.PWR_TEMP.TC_IN 0 (clampI (-128) 127 tin)).wrI .A F.PWR_TEMP.TC_OUT 0 (clampI (-128) 127 tout) = v := ⟨_, rfl⟩
    have hvp : v.pwr = s.w.pwr := by rw [← hv, World.wrI, World.wr_pwr, World.wrI, World.wr_pwr]
    have hvnow : v.now = s.w.now := by rw [← hv, World.wrI, World.wr_now, World.wrI, World.wr_now]
    have hvf : v.rd .A F.PWR_TEMP.SENSOR_FAULT = s.w.rd .A F.PWR_TEMP.SENSOR_FAULT := by
      rw [← hv, World.rd_wrI_apart _ _ _ _ _ _ _ _ (by decide), World.rd_wrI_apart _ _ _ _ _ _ _ _ (by decide)]
    obtain ⟨hback, hstay⟩ := World.thermistor_recovers (w := v) (k := 0) (badTemp_of_valid hin0 hin1) (by rw [hvp, hbad]; rfl)
      (by rw [hvp, hok]) (by rw [hvp, hlen]; decide)
    have hread : s.w.coolantRead tin tout ta = ((v.thermistor 0 tin).thermistor 1 tout).thermistor 2 ta := by rw [← hv, World.coolantRead]
    have hrest (b : Bool) (hb : (v.thermistor 0 tin).pwr.bad = [b, false, false]) :
        (s.w.coolantRead tin tout ta).rd .A F.PWR_TEMP.SENSOR_FAULT = (v.thermistor 0 tin).rd .A F.PWR_TEMP.SENSOR_FAULT ∧
        (s.w.coolantRead tin tout ta).pwr.bad = [b, false, false] := by
      obtain ⟨hb1, hf1, -⟩ := World.thermistor_of_valid (w := v.thermistor 0 tin) (k := 1) tout (by rw [hb]; rfl)
      rw [badTemp_of_valid hout0 hout1, if_neg Bool.false_ne_true] at hb1 hf1
      obtain ⟨hb2, hf2, -⟩ := World.thermistor_of_valid (w := (v.thermistor 0 tin).thermistor 1 tout) (k := 2) ta (by rw [hb1, hb]; rfl)
      rw [badTemp_of_valid hta0 hta1, if_neg Bool.false_ne_true] at hb2 hf2
      rw [hread, hf2, hf1, hb2, hb1, hb]
      exact ⟨rfl, rfl⟩
    have hexec := exec_coolantTemperatureWarning tin tout ta s
    rw [badTemp_of_valid hout0 hout1, if_neg Bool.false_ne_true] at hexec
    refine .of_exec hexec ⟨fun hat => ?_, fun hat => ?_, exec_quiet hexec rfl⟩
    · obtain ⟨hb, hf⟩ := hback (by rw [hvnow]; exact hat)
      rw [hvp, hbad] at hb hf
      obtain ⟨hf', hb'⟩ := hrest false hb
      dsimp only
      rw [World.rd_fanDuties _ _ _ _ (by decide), World.rd_coolantWarned _ _ _ _ _ (by decide), hf', hf, World.pwr_fanDuties,
        World.coolantWarned_leaves]
      exact ⟨rfl, hb'⟩
    · obtain ⟨hb, hf⟩ := hstay (by rw [hvnow]; exact hat)
      rw [hvp, hbad] at hb
      obtain ⟨hf', hb'⟩ := hrest true hb
      dsimp only
      rw [World.rd_fanDuties _ _ _ _ (by decide), World.rd_coolantWarned _ _ _ _ _ (by decide), hf', hf, hvf, World.pwr_fanDuties,
        World.coolantWarned_leaves]
      exact ⟨rfl, hb'⟩
  case frame =>
    intro c s hc
    have hexec : exec (.fanFrame c) s = .next { s with
        w := s.w.fanDuties.updFan c fun f => { f with on := onTime (s.w.fanDuties.fanDuty c) - f.owe, owe := 0 } } := by
      change execFanFrame c s = _
      unfold execFanFrame lift
      dsimp only
      rw [decide_eq_true hc, World.when_true]
    have hduty (k : Nat) (hk : k < 4) : (s.w.fanDuties.updFan c fun f =>
        { f with on := onTime (s.w.fanDuties.fanDuty c) - f.owe, owe := 0 }).rd .A F.FAN_STATUS.DUTY k = s.w.fanDuty k % 128 := by
      rw [World.rd_updFan, World.rd_fanDuties_duty _ hk]
    refine .of_exec hexec ⟨?_, ?_, hduty, exec_regsBut hexec rfl, fun hl => ?_, fun h0 h3 hp hk hst hg => ?_, exec_quiet hexec rfl⟩
    · dsimp only
      rw [World.fan_updFan_same, World.fan_fanDuties, World.fanDuty_fanDuties, onTime, Nat.mul_assoc, show 400 * us = 400000 from rfl]
    · dsimp only
      rw [World.fan_updFan_same]
    · rw [hduty c hc, World.fanDuty_of_down c (.inl hl)]
    · obtain ⟨hmin, hmax⟩ := World.fanDuty_bounds ⟨h0, h3⟩ hp hk hst hg
      rw [hduty c hc, Nat.mod_eq_of_lt (by omega)]
      exact ⟨hmin, hmax⟩
  case none =>
    intro c c4 s hc hmem
    have hno : decide (c < 4) = false := decide_eq_false (by omega)
    simp only [List.mem_cons, List.not_mem_nil, or_false] at hmem
    obtain rfl | rfl | rfl | rfl | rfl | rfl := hmem
    · refine .of_exec (t := s) ?_ rfl
      change execFanFrame c s = _
      rw [execFanFrame, lift, hno, World.when_false]
    · refine .of_exec (t := s) ?_ rfl
      change execFanSpeedMeasure c 0 1 s = _
      rw [execFanSpeedMeasure, lift, hno, World.when_false]
    · refine .of_exec (t := s) ?_ rfl
      change execFanSuspect c 200 s = _
      rw [execFanSuspect, lift, hno]
      rfl
    · refine .of_exec (t := s) ?_ rfl
      change execFanKickEnd c 900 s = _
      rw [execFanKickEnd, lift, hno]
      rfl
    · refine .of_exec (t := s) ?_ rfl
      change execFanKickPauseEnd c s = _
      rw [execFanKickPauseEnd, lift, hno]
      rfl
    · refine .of_exec (t := s) ?_ rfl
      change execFanRekick c s = _
      rw [execFanRekick, lift, hno]
      rfl
  case speed =>
    intro c e1 e2 s hc
    obtain ⟨hfan, hrpm, -⟩ := s.w.speedTaken_leaves c e1 e2
    obtain ⟨u, hu⟩ : ∃ u, (s.w.speedTaken c e1 e2).tachBack c = u := ⟨_, rfl⟩
    have hsame : World.SameTargets u s.w := fun f hf i => by
      have hapart := (by decide : ∀ g ∈ targetInputs, fieldsApart F.FAN_STATUS.TACH_OPEN g = true ∧ unlogged g = true ∧
        fieldsApart F.FAN_STATUS.RPM g = true) f hf
      rw [← hu, World.rd_tachBack _ _ _ _ _ hapart.1 hapart.2.1, World.rd_speedTaken _ _ _ _ _ _ _ hapart.2.2]
    obtain ⟨⟨hd, ls, htfan⟩, -, hskip⟩ := u.fanTarget_leaves c
    obtain ⟨⟨l, hlfan⟩, hlrd⟩ := (u.fanTarget c).2.speedLoop_leaves c (u.fanTarget c).1 (fanRpm e1 e2)
    have hexec := exec_fanSpeedMeasure e1 e2 s hc
    rw [World.speedMeasured, hu] at hexec
    have hown : (((u.fanTarget c).2.speedLoop c (u.fanTarget c).1 (fanRpm e1 e2)).fanDuties.fan c).owe =
        if s.w.fanDuty c = 100 then 0 else min e2 (50 * ms) - (s.w.fan c).on := by
      rw [World.fan_fanDuties, hlfan, htfan, ← hu, World.fan_tachBack, hfan]
    refine .of_exec hexec ⟨?_, fun h1 h2 h3 => ?_, fun hor => ?_, fun h3 => ?_, fun hfull => hown.trans (if_pos hfull),
      fun hnot => hown.trans (if_neg hnot), exec_quiet hexec rfl⟩
    · dsimp only
      rw [World.rd_fanDuties _ _ _ _ (by decide), hlrd, World.rd_fanTarget _ _ _ _ _ (by decide), ← hu,
        World.rd_tachBack _ _ _ _ _ (by decide) (by decide), hrpm]
    · unfold fanRpm
      rw [if_pos (by simp only [Bool.and_eq_true, decide_eq_true_eq]; exact ⟨⟨h1, h2⟩, h3⟩)]
      norm_num [sec]
    · unfold fanRpm
      rw [if_neg]
      simp only [Bool.and_eq_true, decide_eq_true_eq, show 5 * ms = 5000000 from rfl, show 50 * ms = 50000000 from rfl]
      omega
    · dsimp only
      rw [World.rd_fanDuties _ _ _ _ (by decide), hlrd, hskip, hsame.targetBand, World.targetBand, if_neg (by omega)]
  case loop =>
    intro c e1 e2 tgt s hc hg hk hst hopen htgt hmin hmax hband
    obtain ⟨hfan, -, -⟩ := s.w.speedTaken_leaves c e1 e2
    have hback : (s.w.speedTaken c e1 e2).tachBack c = s.w.speedTaken c e1 e2 := by
      unfold World.tachBack
      rw [(World.flag_eq_false_iff rfl).mpr ((World.rd_speedTaken _ _ _ _ _ _ _ (by decide)).trans hopen), Bool.false_and, World.when_false]
    obtain ⟨u, hu⟩ : ∃ u, s.w.speedTaken c e1 e2 = u := ⟨_, rfl⟩
    rw [hu] at hfan
    have hrd (g : Field) (i : Nat) (hr : fieldsApart F.FAN_STATUS.RPM g = true) : u.rd .A g i = s.w.rd .A g i := by
      rw [← hu, World.rd_speedTaken _ _ _ _ _ _ _ hr]
    have hsame : World.SameTargets u s.w := fun f hf i =>
      hrd f i ((by decide : ∀ g ∈ targetInputs, fieldsApart F.FAN_STATUS.RPM g = true) f hf)
    have htgt' : (u.fanTarget c).1 = tgt := by
      rw [World.fanTarget_congr hsame (by rw [hfan]) (by rw [hfan]), htgt]
    obtain ⟨⟨hd, ls, htfan⟩, -, -⟩ := u.fanTarget_leaves c
    obtain ⟨v, hv⟩ : ∃ v, (u.fanTarget c).2 = v := ⟨_, rfl⟩
    rw [hv] at htfan
    have hvrd (g : Field) (i : Nat) (hr : fieldsApart F.FAN_STATUS.RPM g = true) (hsk : fieldsApart F.FAN_STATUS.SKIPPED g = true) :
        v.rd .A g i = s.w.rd .A g i := by rw [← hv, World.rd_fanTarget _ _ _ _ _ hsk, hrd _ _ hr]
    have hfree : v.speedLoop c tgt (fanRpm e1 e2) = v.fanLoop c tgt (fanRpm e1 e2) := by
      unfold World.speedLoop
      rw [htfan, hfan, World.stalled_congr (hvrd _ _ (by decide) (by decide)), hst, World.flag, hvrd _ _ (by decide) (by decide), hopen]
      dsimp only
      rw [hg, hk]
      rfl
    have hloop : (v.fan c).loop = (s.w.fan c).loop := by rw [htfan, hfan]
    have hvsame : World.SameTargets v s.w := hsame.trans (hv ▸ u.sameTargets_fanTarget c)
    have hmoves := World.fanLoop_moves (w := v) (c := c) (tgt := tgt) (rpm := fanRpm e1 e2) (by rwa [hvsame.band])
      (by rwa [hloop]) (by rwa [hloop])
    rw [hloop] at hmoves
    have hexec := exec_fanSpeedMeasure e1 e2 s hc
    rw [World.speedMeasured, hback, hu, htgt', hv, hfree] at hexec
    refine .of_exec hexec ?_
    dsimp only
    rw [World.fan_fanDuties]
    exact hmoves
  case tach =>
    intro c e1 e2 t0 s hc hopen hgood hat hrpm
    obtain ⟨hfan, hspeed, hnow⟩ := s.w.speedTaken_leaves c e1 e2
    have hback : (s.w.speedTaken c e1 e2).tachBack c =
        ((s.w.speedTaken c e1 e2).wr .A F.FAN_STATUS.TACH_OPEN c 0).pwrEvent 27 (objFan c) := by
      have hflag : (s.w.speedTaken c e1 e2).flag .A F.FAN_STATUS.TACH_OPEN c = true :=
        World.flag_eq_true_iff.mpr ((World.rd_speedTaken _ _ _ _ _ _ _ (by decide)).trans hopen)
      unfold World.tachBack
      rw [hflag, hfan, hnow]
      dsimp only
      rw [if_neg hrpm, hgood, Option.getD_some, Option.any_some, decide_eq_true (show t0 + 2 * sec ≤ s.w.now from hat), Bool.and_self, World.when_true]
    obtain ⟨-, hlrd⟩ := (((s.w.speedTaken c e1 e2).tachBack c).fanTarget c).2.speedLoop_leaves c
      (((s.w.speedTaken c e1 e2).tachBack c).fanTarget c).1 (fanRpm e1 e2)
    have hexec := exec_fanSpeedMeasure e1 e2 s hc
    refine .of_exec hexec ⟨?_, ?_, exec_quiet hexec rfl⟩
    · dsimp only
      rw [World.speedMeasured, World.rd_fanDuties _ _ _ _ (by decide), hlrd, World.rd_fanTarget _ _ _ _ _ (by decide), hback,
        World.rd_pwrEvent _ _ _ _ _ _ (by decide), World.rd_wr_same _ _ _ _ _ (by decide)]
      rfl
    · dsimp only
      rw [World.speedMeasured, World.rd_fanDuties _ _ _ _ (by decide), hlrd, World.rd_fanTarget _ _ _ _ _ (by decide),
        World.rd_tachBack _ _ _ _ _ (by decide) (by decide), hspeed]
  case cmd =>
    intro h init v c s halive hsel hc howns hsafe
    obtain ⟨hfan, hman, htgt⟩ := s.w.fanWritten_leaves c v
    obtain ⟨hkick, hpause, hgreen, hloop, -, -⟩ := (s.w.fanWritten c v).kickYields_leaves c
    obtain ⟨⟨hd, ls, htfan⟩, -, -⟩ := ((s.w.fanWritten c v).kickYields c).fanTarget_leaves c
    have hrd (g : Field) (hdu : fieldsApart F.FAN_STATUS.DUTY g = true) (hsk : fieldsApart F.FAN_STATUS.SKIPPED g = true)
        (hk : fieldsApart F.FAN_STATUS.KICKING g = true) :
        (((s.w.fanWritten c v).kickYields c).fanTarget c).2.fanDuties.rd .A g c = (s.w.fanWritten c v).rd .A g c := by
      rw [World.rd_fanDuties _ _ _ _ hdu, World.rd_fanTarget _ _ _ _ _ hsk, World.rd_kickYields _ _ _ _ _ hdu hk]
    have htgt' := (hrd F.FAN_CMD.TARGET (by decide) (by decide) (by decide)).trans htgt
    have hman' := (hrd F.FAN_CMD.MANUAL (by decide) (by decide) (by decide)).trans hman
    have hexec := exec_fanCommand v halive hsel hc howns hsafe
    refine .of_exec hexec ⟨htgt', hman', ?_, ?_, ?_, fun hg => ?_, fun hg => ?_, fun hone => ?_, exec_quiet hexec rfl⟩
    · dsimp only
      rw [World.fan_fanDuties, htfan, hgreen, hfan]
    · dsimp only
      rw [World.fan_fanDuties, htfan, hkick]
    · dsimp only
      rw [World.fan_fanDuties, htfan, hpause, hfan]
    · dsimp only
      rw [World.fan_fanDuties, htfan, hloop, hfan]
      exact if_pos hg
    · dsimp only
      rw [World.fan_fanDuties, htfan, hloop, hfan]
      exact if_neg (by simp [hg])
    · exact (World.fanAsk_manual (hman'.trans hone)).trans htgt'
  case band =>
    intro h init v c lo hi s halive hsel hc howns hsafe hone hlo hhi hne hle hge hheld
    obtain ⟨hfan, hman, htgt⟩ := s.w.fanWritten_leaves c v
    obtain ⟨-, -, -, -, hheld', hlast⟩ := (s.w.fanWritten c v).kickYields_leaves c
    obtain ⟨u, hu⟩ : ∃ u, (s.w.fanWritten c v).kickYields c = u := ⟨_, rfl⟩
    rw [hu, hfan] at hheld' hlast
    have hrd (g : Field) (i : Nat) (hdu : fieldsApart F.FAN_STATUS.DUTY g = true) (hk : fieldsApart F.FAN_STATUS.KICKING g = true) :
        u.rd .A g i = (s.w.fanWritten c v).rd .A g i := by rw [← hu, World.rd_kickYields _ _ _ _ _ hdu hk]
    have hask : u.fanAsk c = v % 65536 := by
      rw [World.fanAsk_manual ((hrd _ _ (by decide) (by decide)).trans (hman.trans hone)), hrd _ _ (by decide) (by decide), htgt]
    have hlo' : u.rd .A F.FAN_SKIP.LO 0 = lo := by rw [hrd _ _ (by decide) (by decide), World.rd_fanWritten _ _ _ _ _ _ (by decide) (by decide), hlo]
    have hhi' : u.rd .A F.FAN_SKIP.HI 0 = hi := by rw [hrd _ _ (by decide) (by decide), World.rd_fanWritten _ _ _ _ _ _ (by decide) (by decide), hhi]
    have hband : u.targetBand c = some (lo, hi) := by
      rw [World.targetBand, if_neg (by omega), hask, World.skipBand_first (by rwa [hlo']) (by rwa [hlo']) (by rwa [hhi']), hlo', hhi']
    have hedge : (u.fan c).edge (lo, hi) = if (s.w.fan c).last < lo then lo else hi := by
      rw [Fan.edge, hheld', hheld, hlast]
    obtain ⟨-, -, hskip⟩ := u.fanTarget_leaves c
    have hsame : World.SameTargets (u.fanTarget c).2.fanDuties u := (u.sameTargets_fanTarget c).trans (World.sameTargets_fanDuties _)
    have hnext : ((u.fanTarget c).2.fanDuties.fanTarget c).1 = if (s.w.fan c).last < lo then lo else hi := by
      rw [World.fanTarget_of_some ((hsame.targetBand c).trans hband)]
      dsimp only
      rw [Fan.edge, World.fan_fanDuties, World.fanTarget_of_some hband]
      dsimp only
      rw [World.fan_wr, World.fan_updFan_same]
      dsimp only
      rw [if_pos rfl, hedge]
    have hexec := exec_fanCommand v halive hsel (by omega) howns hsafe
    rw [hu] at hexec
    refine .of_exec hexec ⟨?_, fun hlt => hnext.trans (if_pos hlt), fun hgt => hnext.trans (if_neg (by omega))⟩
    dsimp only
    rw [World.rd_fanDuties _ _ _ _ (by decide), hskip, hband]
    rfl
  case cmdNot =>
    intro h init v c s halive hsel hc howns
    have hexec : exec (.fanCommand h init v) s = .next { s with w := s.w.violation h init (354 + c) } := by
      change execFanCommand h init v s = _
      unfold execFanCommand
      dsimp only
      rw [hsel, Nat.mod_eq_of_lt hc, objFan, gateObj_refused _ _ _ _ _ halive howns, putW]
    obtain ⟨hobj, hinit⟩ := s.w.rd_violation h (init := init) (obj := 354 + c) (by omega)
    refine .of_exec hexec ⟨hobj, hinit, ?_, s.w.regsBut_violation h init _, exec_quiet hexec rfl⟩
    dsimp only
    rw [World.violation, World.raise_pwr, World.wr_pwr, World.wr_pwr]
  case cmdOff =>
    intro h init v s hor
    refine .of_exec (t := s) ?_ rfl
    change execFanCommand h init v s = _
    unfold execFanCommand
    dsimp only
    cases halive : s.own.alive h with
    | false => rw [gateObj_low _ _ _ _ _ halive]; rfl
    | true =>
      obtain hlow | ⟨hsafe, howns, hc⟩ := hor
      · exact absurd hlow (by simp [halive])
      · rw [Nat.mod_eq_of_lt hc, objFan, gateObj_owned _ _ _ _ _ halive howns, if_pos hsafe]
        rfl
  case suspect =>
    intro c v t0 s hc hk hp hst hopen hmin hlow hat hcheck
    have hdue : (decide (c < 4) && decide ((s.w.fan c).kick = 0) && !(s.w.fan c).pause && !s.w.stalled c && !s.w.flag .A F.FAN_STATUS.TACH_OPEN c &&
        decide (minDuty c ≤ s.w.fanDuty c) && (s.w.fan c).lowAt.any (fun t => decide (t + 2 * sec ≤ s.w.now)) &&
        decide ((s.w.fan c).checkAt ≤ s.w.now)) = true := by
      rw [decide_eq_true hc, decide_eq_true hk, hp, hst, (World.flag_eq_false_iff rfl).mpr hopen, decide_eq_true hmin, hlow, Option.any_some,
        decide_eq_true (show t0 + 2 * sec ≤ s.w.now from hat), decide_eq_true hcheck]
      rfl
    have hpow : s.w.Powered := World.powered_of_duty (c := c) (by
      unfold minDuty at hmin
      split at hmin <;> omega)
    have hexec : exec (.fanSuspect c v) s = .next { s with w := s.w.biasChecked c v } := by
      change execFanSuspect c v s = _
      unfold execFanSuspect lift
      dsimp only
      rw [hdue, World.when_true]
      rfl
    unfold World.biasChecked at hexec
    rcases lt_or_ge v 300 with hlo | hlo
    · rw [if_pos hlo] at hexec
      obtain ⟨hfan, hkicking, hkicks⟩ := s.w.startKick_leaves c 1
      refine .of_exec hexec ⟨fun _ => ⟨?_, ?_, hkicking, World.duty_startKick hc hpow one_ne_zero, hkicks⟩, fun h => by omega,
        fun h _ => by omega, exec_quiet hexec rfl⟩
      · dsimp only
        rw [hfan]
      · dsimp only
        rw [hfan]
    · rw [if_neg hlo.not_gt] at hexec
      rcases lt_or_ge 450 v with hhi | hhi
      · rw [if_pos hhi] at hexec
        obtain ⟨u, hu⟩ : ∃ u, ((s.w.updFan c fun f => { f with lowAt := none, goodAt := none }).wr .A F.FAN_STATUS.TACH_OPEN c 1).pwrEvent
          27 (objFan c) = u := ⟨_, rfl⟩
        rw [hu] at hexec
        have hrd (g : Field) (i : Nat) (ht : fieldsApart F.FAN_STATUS.TACH_OPEN g = true) (hul : unlogged g = true) : u.rd .A g i = s.w.rd .A g i := by
          rw [← hu, World.rd_pwrEvent _ _ _ _ _ _ hul, World.rd_wr_apart _ _ _ _ _ _ _ _ ht, World.rd_updFan]
        have htach : u.rd .A F.FAN_STATUS.TACH_OPEN c = 1 := by
          rw [← hu, World.rd_pwrEvent _ _ _ _ _ _ (by decide), World.rd_wr_same _ _ _ _ _ (by decide)]
          rfl
        have hfan : u.fan c = { s.w.fan c with lowAt := none, goodAt := none } := by
          rw [← hu, World.fan_pwrEvent, World.fan_wr, World.fan_updFan_same]
        have hpow' : u.Powered := (World.powered_congr (hrd _ _ (by decide) (by decide))).mpr hpow
        have hst' : u.stalled c = false := (World.stalled_congr (hrd _ _ (by decide) (by decide))).trans hst
        refine .of_exec hexec ⟨fun h => by omega, fun _ => ⟨?_, ?_, ?_⟩, fun _ h => by omega, exec_quiet hexec rfl⟩
        · exact (World.rd_fanDuties _ _ _ _ (by decide)).trans htach
        · dsimp only
          rw [World.rd_fanDuties_duty _ hc, World.fanDuty_full hpow' (by rw [hfan]; exact hp) (.inr ⟨hst', World.fanFull_of_open htach⟩)]
        · dsimp only
          rw [World.fan_fanDuties, hfan]
          exact hk
      · rw [if_neg hhi.not_gt] at hexec
        refine .of_exec hexec ⟨fun h => by omega, fun h => by omega, fun _ _ => ⟨?_, fun _ _ _ _ _ => rfl⟩, exec_quiet hexec rfl⟩
        dsimp only
        rw [World.fan_updFan_same]
        rfl
  case suspectNot =>
    intro c v s hor
    refine .of_exec (t := s) ?_ rfl
    change execFanSuspect c v s = _
    unfold execFanSuspect lift
    dsimp only
    obtain hlow | hst | hopen := hor
    · rw [hlow, Option.any_none]
      simp
    · rw [hst]
      simp
    · rw [World.flag_eq_true_iff.mpr hopen]
      simp
  case kickEnd =>
    intro c rpm s hc hk hp hat
    have hexec : exec (.fanKickEnd c rpm) s = .next { s with w := (s.w.wr .A F.FAN_STATUS.RPM c (satTo 16 rpm)).kickDone c rpm } := by
      change execFanKickEnd c rpm s = _
      unfold execFanKickEnd lift
      dsimp only
      rw [decide_eq_true hc, decide_eq_true hk, hp, decide_eq_true (show (s.w.fan c).kickAt + 2 * sec ≤ s.w.now from hat)]
      rw [Bool.not_false, Bool.and_self, Bool.and_self, Bool.and_self, World.when_true]
      rfl
    obtain ⟨u, hu⟩ : ∃ u, s.w.wr .A F.FAN_STATUS.RPM c (satTo 16 rpm) = u := ⟨_, rfl⟩
    have hrpm : u.rd .A F.FAN_STATUS.RPM c = satTo 16 rpm := by
      rw [← hu, World.rd_wr_same _ _ _ _ _ (by decide)]
      exact Nat.mod_eq_of_lt (satTo_lt _ _)
    have hrd (g : Field) (i : Nat) (hg : fieldsApart F.FAN_STATUS.RPM g = true) : u.rd .A g i = s.w.rd .A g i := by
      rw [← hu, World.rd_wr_apart _ _ _ _ _ _ _ _ hg]
    have hfan (k : Nat) : u.fan k = s.w.fan k := by rw [← hu, World.fan_wr]
    have hstall (k : Nat) : u.stalled k = s.w.stalled k := World.stalled_congr (hrd _ _ (by decide))
    have hpow (hl : s.w.rd .A F.PWR_STATUS.LSTATE ≠ 0 ∧ s.w.rd .A F.PWR_STATUS.LSTATE ≠ 3) : u.Powered :=
      (World.powered_congr (hrd _ _ (by decide))).mpr hl
    rw [hu, World.kickDone] at hexec
    by_cases hgood : 700 ≤ rpm
    · rw [if_pos hgood] at hexec
      obtain ⟨hend, -, hkicking⟩ := (u.wr .A F.FAN_STATUS.STALL c 0).endKick_leaves c
      obtain ⟨v, hv⟩ : ∃ v, (u.wr .A F.FAN_STATUS.STALL c 0).endKick c = v := ⟨_, rfl⟩
      have hrd' (g : Field) (i : Nat) (hul : unlogged g = true) : (v.when (u.stalled c) fun w => w.pwrEvent 26 (objFan c)).rd .A g i = v.rd .A g i := by
        rw [World.rd_when, World.rd_pwrEvent _ _ _ _ _ _ hul, ite_self]
      have hstall' : v.rd .A F.FAN_STATUS.STALL c = 0 := by
        rw [← hv, World.rd_endKick _ _ _ _ _ (by decide) (by decide), World.rd_wr_same _ _ _ _ _ (by decide)]
        rfl
      rw [hv] at hend hkicking
      dsimp only at hexec
      rw [hv] at hexec
      refine .of_exec hexec ⟨?_, fun _ => ⟨?_, ?_, ?_⟩, fun h => by omega, fun h => by omega, fun k _ _ hone => ?_, fun h => by omega,
        exec_quiet hexec rfl⟩
      · dsimp only
        rw [hrd' _ _ (by decide), ← hv, World.rd_endKick _ _ _ _ _ (by decide) (by decide), World.rd_wr_apart _ _ _ _ _ _ _ _ (by decide), hrpm]
      · exact (hrd' _ _ (by decide)).trans hstall'
      · exact (hrd' _ _ (by decide)).trans hkicking
      · dsimp only
        rw [World.apply_when (fun u => (u.fan c).kick), World.fan_pwrEvent, ite_self, hend]
      · exact absurd (((hrd' _ _ (by decide)).trans hstall').symm.trans hone) (by decide)
    · rw [if_neg hgood] at hexec
      cases hst : s.w.stalled c with
      | true =>
        rw [hstall, hst, if_pos rfl] at hexec
        obtain ⟨hend, -, -⟩ := u.endKick_leaves c
        refine .of_exec hexec ⟨?_, fun h => by omega, fun _ h => absurd h (by decide), fun _ h => absurd h (by decide),
            fun k hk3 hne _ hlive => ?_, fun _ _ => ⟨?_, ?_, ?_⟩,
          exec_quiet hexec rfl⟩
        · exact (World.rd_endKick _ _ _ _ _ (by decide) (by decide)).trans hrpm
        · obtain ⟨h0, h3, hpk, hsk⟩ := hlive
          exact World.duty_endKick_other hk3 hc hne ((hstall c).trans hst) (hpow ⟨h0, h3⟩) (by rw [hfan, hpk]) ((hstall k).trans hsk)
        · exact World.stalled_iff.mp ((u.stalled_endKick c c).trans ((hstall c).trans hst))
        · dsimp only
          rw [hend]
        · exact World.duty_endKick_stalled hc ((hstall c).trans hst)
      | false =>
        rw [hstall, hst, if_neg Bool.false_ne_true, hfan] at hexec
        have hst0 : u.rd .A F.FAN_STATUS.STALL c = 0 := World.stalled_eq_false_iff.mp ((hstall c).trans hst)
        by_cases hthird : (s.w.fan c).kick < 3
        · rw [if_pos hthird] at hexec
          have hstall0 : (u.updFan c fun f => { f with pause := true, kickAt := u.now }).fanDuties.rd .A F.FAN_STATUS.STALL c = 0 := by
            rw [World.rd_fanDuties _ _ _ _ (by decide), World.rd_updFan, hst0]
          refine .of_exec hexec ⟨?_, fun h => by omega, fun _ _ _ => ⟨?_, ?_, ?_, hstall0⟩, fun _ _ h => by omega, fun k _ _ hone => ?_,
            fun _ h => absurd h (by decide), exec_quiet hexec rfl⟩
          · dsimp only
            rw [World.rd_fanDuties _ _ _ _ (by decide), World.rd_updFan, hrpm]
          · dsimp only
            rw [World.fan_fanDuties, World.fan_updFan_same]
          · dsimp only
            rw [World.fan_fanDuties, World.fan_updFan_same, hfan]
          · dsimp only
            rw [World.rd_fanDuties_duty _ hc, World.fanDuty_of_pause (by rw [World.fan_updFan_same])]
          · exact absurd (hstall0.symm.trans hone) (by decide)
        · rw [if_neg hthird] at hexec
          obtain ⟨v, hv⟩ : ∃ v, (u.wr .A F.FAN_STATUS.STALL c 1).updFan c
            (fun f => { f with stallAt := u.now }) = v := ⟨_, rfl⟩
          dsimp only at hexec
          rw [hv] at hexec
          have hv1 : v.stalled c = true := by
            rw [World.stalled_iff, ← hv, World.rd_updFan, World.rd_wr_same _ _ _ _ _ (by decide)]
            rfl
          obtain ⟨hend, -, hkicking⟩ := v.endKick_leaves c
          refine .of_exec hexec ⟨?_, fun h => by omega, fun _ _ h => by omega, fun _ _ _ => ⟨?_, ?_, ?_, ?_⟩, fun k hk3 hne _ hlive => ?_,
            fun _ h => absurd h (by decide), exec_quiet hexec rfl⟩
          · dsimp only
            rw [World.rd_pwrEvent _ _ _ _ _ _ (by decide), World.rd_endKick _ _ _ _ _ (by decide) (by decide), ← hv, World.rd_updFan,
              World.rd_wr_apart _ _ _ _ _ _ _ _ (by decide), hrpm]
          · exact (World.rd_pwrEvent _ _ _ _ _ _ (by decide)).trans (World.stalled_iff.mp ((v.stalled_endKick c c).trans hv1))
          · dsimp only
            rw [World.fan_pwrEvent, hend]
          · exact (World.rd_pwrEvent _ _ _ _ _ _ (by decide)).trans hkicking
          · exact (World.rd_pwrEvent _ _ _ _ _ _ (by decide)).trans (World.duty_endKick_stalled hc hv1)
          · obtain ⟨h0, h3, hpk, hsk⟩ := hlive
            have hvk : v.stalled k = false := by
              rw [World.stalled_eq_false_iff, ← hv, World.rd_updFan, World.rd_wr_idx _ _ _ _ _ _ (by decide) (by decide) hne]
              exact World.stalled_eq_false_iff.mp ((hstall k).trans hsk)
            have hvp : v.Powered := by
              refine (World.powered_congr ?_).mpr (hpow ⟨h0, h3⟩)
              rw [← hv, World.rd_updFan, World.rd_wr_apart _ _ _ _ _ _ _ _ (by decide)]
            have hvpause : (v.fan k).pause = false := by rw [← hv, World.fan_updFan_ne _ _ hne, World.fan_wr, hfan, hpk]
            exact (World.rd_pwrEvent _ _ _ _ _ _ (by decide)).trans (World.duty_endKick_other hk3 hc hne hv1 hvp hvpause hvk)
  case kickEndNot =>
    intro c rpm s hor
    refine .of_exec (t := s) ?_ rfl
    change execFanKickEnd c rpm s = _
    unfold execFanKickEnd lift
    dsimp only
    obtain hk | hp | hat := hor
    · rw [hk]
      simp
    · rw [hp]
      simp
    · rw [decide_eq_false (show ¬ (s.w.fan c).kickAt + 2 * sec ≤ s.w.now from Nat.not_le.mpr hat), Bool.and_false, World.when_false]
  case pause =>
    intro c s hc hp hat
    have hexec : exec (.fanKickPauseEnd c) s = .next { s with w := s.w.startKick c ((s.w.fan c).kick + 1) } := by
      change execFanKickPauseEnd c s = _
      unfold execFanKickPauseEnd lift
      dsimp only
      rw [decide_eq_true hc, hp, decide_eq_true (show (s.w.fan c).kickAt + sec ≤ s.w.now from hat)]
      rfl
    obtain ⟨hfan, hkicking, hkicks⟩ := s.w.startKick_leaves c ((s.w.fan c).kick + 1)
    refine .of_exec hexec ⟨?_, ?_, ?_, hkicking, hkicks, exec_quiet hexec rfl⟩
    all_goals
      dsimp only
      rw [hfan]
  case pauseNot =>
    intro c s hor
    refine .of_exec (t := s) ?_ rfl
    change execFanKickPauseEnd c s = _
    unfold execFanKickPauseEnd lift
    dsimp only
    obtain hp | hat := hor
    · rw [hp]
      simp
    · rw [decide_eq_false (show ¬ (s.w.fan c).kickAt + sec ≤ s.w.now from Nat.not_le.mpr hat), Bool.and_false, World.when_false]
  case rekick =>
    intro c s hc hst hk hat
    have hexec : exec (.fanRekick c) s = .next { s with w := (s.w.updFan c fun f => { f with stallAt := s.w.now }).startKick c 3 } := by
      change execFanRekick c s = _
      unfold execFanRekick lift
      dsimp only
      rw [decide_eq_true hc, hst, decide_eq_true hk, decide_eq_true (show (s.w.fan c).stallAt + 300 * sec ≤ s.w.now from hat)]
      rfl
    obtain ⟨hfan, hkicking, hkicks⟩ := (s.w.updFan c fun f => { f with stallAt := s.w.now }).startKick_leaves c 3
    refine .of_exec hexec ⟨?_, ?_, ?_, hkicking, ?_, ?_, exec_quiet hexec rfl⟩
    · dsimp only
      rw [hfan]
      exact Nat.succ_ne_zero 2
    · dsimp only
      rw [hfan, World.fan_updFan_same]
    · dsimp only
      rw [hfan, World.now_updFan]
    · dsimp only
      rw [World.rd_startKick _ _ _ _ _ _ (by decide) (by decide) (by decide), World.rd_updFan, World.stalled_iff.mp hst]
    · exact hkicks.trans (by rw [World.rd_updFan])
  case rekickNot =>
    intro c s hor
    refine .of_exec (t := s) ?_ rfl
    change execFanRekick c s = _
    unfold execFanRekick lift
    dsimp only
    obtain hst | hat := hor
    · rw [hst]
      simp
    · rw [decide_eq_false (show ¬ (s.w.fan c).stallAt + 300 * sec ≤ s.w.now from Nat.not_le.mpr hat), Bool.and_false, World.when_false]

end

section
/-!
SUPPORT. R545–R553: the segment driver's frame, the shadow image, the panel's steps.
-/
namespace Sys2Proof.Machine

@[simp] theorem World.rd_updDsp (w : World) (f : Disp → Disp) (h : Half) (g : Field) (i : Nat) : (w.updDsp f).rd h g i = w.rd h g i := (rfl)
@[simp] theorem World.dsp_updDsp (w : World) (f : Disp → Disp) : (w.updDsp f).dsp = f w.dsp := (rfl)
@[simp] theorem World.now_updDsp (w : World) (f : Disp → Disp) : (w.updDsp f).now = w.now := (rfl)

@[simp] theorem World.bp_updDsp (w : World) (f : Disp → Disp) : (w.updDsp f).bp = w.bp := (rfl)

theorem World.rd_dspEvent (w : World) (obj cause : Nat) (h : Half) (g : Field) (i : Nat) (hg : unlogged g = true) :
    (w.dspEvent obj cause).rd h g i = w.rd h g i := World.rd_raiseBoth _ _ _ _ _ _ hg

@[simp] theorem World.dsp_dspEvent (w : World) (obj cause : Nat) : (w.dspEvent obj cause).dsp = w.dsp := w.raiseBoth_dsp _ _
@[simp] theorem World.now_dspEvent (w : World) (obj cause : Nat) : (w.dspEvent obj cause).now = w.now := w.raiseBoth_now _ _
@[simp] theorem World.bp_dspEvent (w : World) (obj cause : Nat) : (w.dspEvent obj cause).bp = w.bp := w.raiseBoth_bp _ _

theorem World.safeOn_congr {v w : World} (hbp : v.bp = w.bp) (hrd : v.rd .A F.PWR_SAFE.ASSERTED = w.rd .A F.PWR_SAFE.ASSERTED) (k : Nat) :
    v.safeOn k = w.safeOn k := by
  rw [World.safeOn, World.safeOff, World.flag, hrd, World.gren_congr hbp, World.safeOn, World.safeOff, World.flag]

/-! A segment frame (R545–R547). -/

/-- The frame's image and its measured levels. -/
def World.segFramed (w : World) (vlcd : Nat) (v1 v2 : Int) : World :=
  let due := w.dsp.latchAt.any (fun t => decide (t < w.now))
  let img := w.shadow
  let w := w.updDsp fun d => { d with
    minus := !d.minus, shown := if due then img else d.shown, latchAt := if due then none else d.latchAt }
  ((w.wr .A F.DSP_LEVEL.VLCD 0 (satTo 16 vlcd)).wrI .A F.DSP_LEVEL.V1_DEV 0 (clampI (-128) 127 v1)).wrI
    .A F.DSP_LEVEL.V2_DEV 0 (clampI (-128) 127 v2)

/-- A good frame counted; the tenth ends a level fault. -/
def World.levelsGood (w : World) : World :=
  let w := w.updDsp fun d => { d with good := d.good + 1 }
  w.when (w.flag .A F.DSP_STATUS.LVL_FAULT && 10 ≤ w.dsp.good) fun w => (w.wr .A F.DSP_STATUS.LVL_FAULT 0 0).dspEvent objSeg 2

/-- A level out of its range: a level fault. -/
def World.levelsBad (w : World) : World :=
  let w := w.updDsp fun d => { d with good := 0 }
  w.when (!w.flag .A F.DSP_STATUS.LVL_FAULT) fun w => (w.wr .A F.DSP_STATUS.LVL_FAULT 0 1).dspEvent objSeg 1

theorem exec_segmentFrame {vlcd : Nat} {v1 v2 : Int} {s : State} (hen : s.w.rd .A F.DSP_CTRL.SEG_EN = 1) :
    exec (.segmentFrame vlcd v1 v2) s = .next { s with
      w := if levelsIn vlcd v1 v2 then (s.w.segFramed vlcd v1 v2).levelsGood else (s.w.segFramed vlcd v1 v2).levelsBad } := by
  change execSegmentFrame vlcd v1 v2 s = _
  have hwhen (f : World → World) : s.w.when (s.w.flag .A F.DSP_CTRL.SEG_EN) f = f s.w := by rw [World.flag_eq_true_iff.mpr hen, World.when_true]
  unfold execSegmentFrame lift
  dsimp only
  rw [hwhen]
  rfl

theorem World.segFramed_leaves (w : World) (vlcd : Nat) (v1 v2 : Int) :
    (w.segFramed vlcd v1 v2).dsp = { w.dsp with
      minus := !w.dsp.minus
      shown := if w.dsp.latchAt.any (fun t => decide (t < w.now)) then w.shadow else w.dsp.shown
      latchAt := if w.dsp.latchAt.any (fun t => decide (t < w.now)) then none else w.dsp.latchAt } ∧
    (w.segFramed vlcd v1 v2).rd .A F.DSP_LEVEL.VLCD = satTo 16 vlcd ∧
    (w.segFramed vlcd v1 v2).rdI .A F.DSP_LEVEL.V1_DEV = clampI (-128) 127 v1 ∧
    (w.segFramed vlcd v1 v2).rdI .A F.DSP_LEVEL.V2_DEV = clampI (-128) 127 v2 ∧
    (w.segFramed vlcd v1 v2).rd .A F.DSP_STATUS.LVL_FAULT = w.rd .A F.DSP_STATUS.LVL_FAULT := by
  unfold World.segFramed
  dsimp only
  refine ⟨?_, ?_, ?_, World.rdI_wrI_byte _ _ _ _ _ (by decide) rfl, ?_⟩
  · rw [World.wrI, World.wr_dsp, World.wrI, World.wr_dsp, World.wr_dsp, World.dsp_updDsp]
  · rw [World.rd_wrI_apart _ _ _ _ _ _ _ _ (by decide), World.rd_wrI_apart _ _ _ _ _ _ _ _ (by decide), World.rd_wr_same _ _ _ _ _ (by decide)]
    exact Nat.mod_eq_of_lt (satTo_lt _ _)
  · exact (World.rdI_congr (World.rd_wrI_apart _ _ _ _ _ _ _ _ (by decide))).trans (World.rdI_wrI_byte _ _ _ _ _ (by decide) rfl)
  · rw [World.rd_wrI_apart _ _ _ _ _ _ _ _ (by decide), World.rd_wrI_apart _ _ _ _ _ _ _ _ (by decide),
      World.rd_wr_apart _ _ _ _ _ _ _ _ (by decide), World.rd_updDsp]

theorem World.levelsGood_leaves (w : World) : w.levelsGood.dsp = { w.dsp with good := w.dsp.good + 1 } ∧
    w.levelsGood.rd .A F.DSP_STATUS.LVL_FAULT = (if 9 ≤ w.dsp.good then 0 else w.rd .A F.DSP_STATUS.LVL_FAULT) := by
  unfold World.levelsGood
  dsimp only
  refine ⟨?_, ?_⟩
  · rw [World.apply_when (·.dsp), World.dsp_dspEvent, World.wr_dsp, ite_self, World.dsp_updDsp]
  · rw [World.rd_when, World.rd_dspEvent _ _ _ _ _ _ (by decide), World.rd_wr_same _ _ _ _ _ (by decide), World.rd_updDsp, World.dsp_updDsp,
      World.flag, World.rd_updDsp]
    have hbit := w.rd_bit .A F.DSP_STATUS.LVL_FAULT 0 rfl
    simp only [Bool.and_eq_true, decide_eq_true_eq, Nat.zero_mod]
    split_ifs <;> omega

theorem World.levelsBad_leaves (w : World) : w.levelsBad.dsp = { w.dsp with good := 0 } ∧ w.levelsBad.rd .A F.DSP_STATUS.LVL_FAULT = 1 := by
  unfold World.levelsBad
  dsimp only
  refine ⟨?_, ?_⟩
  · rw [World.apply_when (·.dsp), World.dsp_dspEvent, World.wr_dsp, ite_self, World.dsp_updDsp]
  · rw [World.rd_when, World.rd_dspEvent _ _ _ _ _ _ (by decide), World.rd_wr_same _ _ _ _ _ (by decide), World.flag, World.rd_updDsp]
    have hbit := w.rd_bit .A F.DSP_STATUS.LVL_FAULT 0 rfl
    simp only [Bool.not_eq_true', decide_eq_false_iff_not]
    split_ifs <;> omega

/-- The levels' registers stay through the count. -/
theorem World.rd_levels (w : World) (h : Half) (g : Field) (i : Nat) (hg : fieldsApart F.DSP_STATUS.LVL_FAULT g = true) (hu : unlogged g = true) :
    w.levelsGood.rd h g i = w.rd h g i ∧ w.levelsBad.rd h g i = w.rd h g i := by
  unfold World.levelsGood World.levelsBad
  dsimp only
  refine ⟨?_, ?_⟩
  · rw [World.rd_when, World.rd_dspEvent _ _ _ _ _ _ hu, World.rd_wr_apart _ _ _ _ _ _ _ _ hg, ite_self, World.rd_updDsp]
  · rw [World.rd_when, World.rd_dspEvent _ _ _ _ _ _ hu, World.rd_wr_apart _ _ _ _ _ _ _ _ hg, ite_self, World.rd_updDsp]

/-! The shadow image (R546, R548). -/

/-- Segment `i` of the shadow image. -/
def World.seg (w : World) (i : Nat) : Bool := bitOf (w.rd .A F.DSP_SEG.BITS (i / 32)) (i % 32)

theorem World.seg_congr {v w : World} (hrd : ∀ k, v.rd .A F.DSP_SEG.BITS k = w.rd .A F.DSP_SEG.BITS k) (i : Nat) : v.seg i = w.seg i := by
  rw [World.seg, hrd, World.seg]

theorem bitOf_flip {v k : Nat} (on : Bool) (j : Nat) :
    bitOf (if bitOf v k = on then v else if on then v + 2 ^ k else v - 2 ^ k) j = if j = k then on else bitOf v j := by
  cases on with
  | true =>
    cases hk : bitOf v k with
    | true =>
      rw [if_pos rfl]
      split
      · rename_i hj
        rw [hj, hk]
      · rfl
    | false =>
      rw [if_neg Bool.false_ne_true, if_pos rfl, bitOf_add_pow hk]
      by_cases hj : j = k <;> simp [hj]
  | false =>
    cases hk : bitOf v k with
    | true =>
      rw [if_neg (by decide), if_neg Bool.false_ne_true, bitOf_sub_pow hk]
      by_cases hj : j = k <;> simp [hj]
    | false =>
      rw [if_pos rfl]
      split
      · rename_i hj
        rw [hj, hk]
      · rfl

/-- A segment written changes that segment alone. -/
theorem World.seg_putSeg (w : World) (i : Nat) (on : Bool) (j : Nat) : (w.putSeg i on).seg j = if j = i then on else w.seg j := by
  unfold World.putSeg World.seg
  dsimp only
  by_cases hreg : j / 32 = i / 32
  · rw [hreg, World.rd_wr_same _ _ _ _ _ (by decide)]
    have hmod (x : Nat) : bitOf (x % 2 ^ F.DSP_SEG.BITS.w) (j % 32) = bitOf x (j % 32) := by
      rw [bitOf_mod_pow, decide_eq_true (Nat.mod_lt j (by decide : 0 < 32)), Bool.true_and]
    rw [hmod, bitOf_flip]
    by_cases hj : j = i
    · rw [hj, if_pos rfl, if_pos rfl]
    · rw [if_neg hj, if_neg (by omega)]
  · rw [World.rd_wr_idx _ _ _ _ _ _ (by decide) (by decide) hreg, if_neg (by omega)]

/-- A run of segments written from `seg0`: each takes its bit of the image, the others stay. -/
theorem World.seg_image (w : World) (seg0 n img : Nat) :
    (∀ i, i < n → (w.forAll (List.range n) fun w i => w.putSeg (seg0 + i) (bitOf img i)).seg (seg0 + i) = bitOf img i) ∧
    ∀ j, j < seg0 ∨ seg0 + n ≤ j → (w.forAll (List.range n) fun w i => w.putSeg (seg0 + i) (bitOf img i)).seg j = w.seg j := by
  have hat := World.forAll_at (f := fun w i => w.putSeg (seg0 + i) (bitOf img i)) World.seg (seg0 + ·) (fun _ i => bitOf img i)
    (fun u a => by rw [World.seg_putSeg, if_pos rfl]) (fun u a j hj => by rw [World.seg_putSeg, if_neg hj])
    (l := List.range n) (List.nodup_range.map (add_right_injective seg0)) w
  refine ⟨fun i hi => hat.1 i (List.mem_range.mpr hi), fun j hj => hat.2 j ?_⟩
  rw [List.mem_map]
  rintro ⟨i, hi, rfl⟩
  have hlt := List.mem_range.mp hi
  omega

/-! The panel's steps (R551, R553). -/

/-- The rails of a step of the sequence. -/
def pnlRails (en : List Bool) : Nat → List Bool
  | 1 => [true, false, false]
  | 2 => [true, true, false]
  | 3 => [true, true, true]
  | 4 => [true, true, true]
  | 7 => [true, true, false]
  | 8 => [true, false, false]
  | 10 => [en.getD 0 false, en.getD 1 false, false]
  | 11 => [en.getD 0 false, false, false]
  | 0 => [false, false, false]
  | _ => en

/-- PNL_STATE in a step of the sequence. -/
def pnlState : Nat → Nat
  | 0 => 0
  | 1 => 1
  | 2 => 1
  | 3 => 2
  | 4 => 3
  | 5 => 4
  | 6 => 5
  | 9 => 5
  | _ => 4

theorem pnlState_lt (k : Nat) : pnlState k < 8 := by
  unfold pnlState
  split <;> decide

theorem World.pnlStep_eq (w : World) (k : Nat) : w.pnlStep k =
    ((w.updDsp fun d => { d with step := k, stepAt := w.now, en := pnlRails w.dsp.en k }).wr .A F.DSP_STATUS.PNL_STATE 0 (pnlState k)).wr
      .A F.DSP_STATUS.BL 0 (b2n (k = 4)) := rfl

theorem World.pnlStep_leaves (w : World) (k : Nat) :
    (w.pnlStep k).dsp = { w.dsp with step := k, stepAt := w.now, en := pnlRails w.dsp.en k } ∧
    (w.pnlStep k).rd .A F.DSP_STATUS.PNL_STATE = pnlState k ∧ (w.pnlStep k).rd .A F.DSP_STATUS.BL = b2n (k = 4) := by
  rw [World.pnlStep_eq]
  refine ⟨?_, ?_, ?_⟩
  · rw [World.wr_dsp, World.wr_dsp, World.dsp_updDsp]
  · rw [World.rd_wr_apart _ _ _ _ _ _ _ _ (by decide), World.rd_wr_same _ _ _ _ _ (by decide)]
    exact Nat.mod_eq_of_lt (pnlState_lt k)
  · rw [World.rd_wr_same _ _ _ _ _ (by decide)]
    exact b2n_mod_two _

theorem World.rd_pnlStep (w : World) (k : Nat) (h : Half) (g : Field) (i : Nat) (hp : fieldsApart F.DSP_STATUS.PNL_STATE g = true)
    (hb : fieldsApart F.DSP_STATUS.BL g = true) : (w.pnlStep k).rd h g i = w.rd h g i := by
  rw [World.pnlStep_eq, World.rd_wr_apart _ _ _ _ _ _ _ _ hb, World.rd_wr_apart _ _ _ _ _ _ _ _ hp, World.rd_updDsp]

theorem World.pnlReach_leaves (w : World) (k : Nat) :
    (w.pnlReach k).dsp = { w.dsp with step := k, stepAt := w.now, en := pnlRails w.dsp.en k } ∧
    (w.pnlReach k).rd .A F.DSP_STATUS.PNL_STATE = pnlState k ∧ (w.pnlReach k).rd .A F.DSP_STATUS.BL = b2n (k = 4) := by
  obtain ⟨hd, hp, hb⟩ := w.pnlStep_leaves k
  unfold World.pnlReach
  rw [World.dsp_dspEvent, World.rd_dspEvent _ _ _ _ _ _ (by decide), World.rd_dspEvent _ _ _ _ _ _ (by decide)]
  exact ⟨hd, hp, hb⟩

/-- A step of the sequence, or its end reached with an event: both enter step `k`. -/
def World.EntersStep (w v : World) (k : Nat) : Prop :=
  v.dsp = { w.dsp with step := k, stepAt := w.now, en := pnlRails w.dsp.en k } ∧ v.rd .A F.DSP_STATUS.PNL_STATE = pnlState k ∧
    v.rd .A F.DSP_STATUS.BL = b2n (k = 4)

theorem World.entersStep_pnlStep (w : World) (k : Nat) : w.EntersStep (w.pnlStep k) k := w.pnlStep_leaves k
theorem World.entersStep_pnlReach (w : World) (k : Nat) : w.EntersStep (w.pnlReach k) k := w.pnlReach_leaves k

/-- The step that follows step `k`, with PNL_EN as it stands. -/
def pnlNext (en : Bool) : Nat → Nat
  | 1 => if en then 2 else 0
  | 2 => if en then 3 else 8
  | 3 => if en then 4 else 6
  | 5 => if en then 4 else 6
  | 6 => if en then 3 else 7
  | 7 => if en then 3 else 8
  | 8 => if en then 2 else 0
  | k => k + 1

/-- Toward SHOWING, with PNL_EN set. -/
theorem pnlNext_up (en : List Bool) : ∀ k ∈ [1, 2, 3, 5, 6, 7, 8],
    (k, pnlNext true k) ∈ [(1, 2), (2, 3), (3, 4), (5, 4), (6, 3), (7, 3), (8, 2)] ∧
    pnlRails en (pnlNext true k) = [true, true, decide (pnlNext true k ≠ 2)] ∧ pnlState (pnlNext true k) = pnlNext true k - 1 := by
  intro k hk
  fin_cases hk <;> exact ⟨by decide, rfl, rfl⟩

/-- Toward OFF, with PNL_EN clear. -/
theorem pnlNext_down (en : List Bool) : ∀ k ∈ [1, 2, 3, 5, 6, 7, 8],
    (k, pnlNext false k) ∈ [(1, 0), (2, 8), (3, 6), (5, 6), (6, 7), (7, 8), (8, 0)] ∧ b2n (pnlNext false k = 4) = 0 ∧
    (pnlNext false k = 7 → pnlRails en (pnlNext false k) = [true, true, false]) ∧
    (pnlNext false k = 8 → pnlRails en (pnlNext false k) = [true, false, false]) ∧
    (pnlNext false k = 0 → pnlRails en (pnlNext false k) = [false, false, false] ∧ pnlState (pnlNext false k) = 0) ∧
    (pnlNext false k = 6 → pnlRails en (pnlNext false k) = en ∧ pnlState (pnlNext false k) = 5) := by
  intro k hk
  fin_cases hk <;> simp [pnlNext, pnlRails, pnlState, b2n]

end Sys2Proof.Machine
end

section
/-!
PROOF. O59: the display drivers.
-/
namespace Sys2Proof.Machine

/-- PNL_EN written (R551). -/
theorem World.pnlEnable_leaves (w : World) (en : Bool) :
    (w.pnlEnable en).rd .A F.DSP_CTRL.PNL_EN = b2n en ∧
    (en = true → w.dsp.step = 0 → w.safeOn objPnl = false → (w.pnlEnable en).dsp.step = 1 ∧ (w.pnlEnable en).dsp.en = [true, false, false] ∧
      (w.pnlEnable en).rd .A F.DSP_STATUS.PNL_STATE = 1) ∧
    (en = false → w.dsp.step = 4 → (w.pnlEnable en).dsp.step = 5 ∧ (w.pnlEnable en).rd .A F.DSP_STATUS.BL = 0 ∧
      (w.pnlEnable en).rd .A F.DSP_STATUS.PNL_STATE = 4) ∧
    (w.dsp.step ≠ 0 → w.dsp.step ≠ 4 → (w.pnlEnable en).dsp.step = w.dsp.step ∧ (w.pnlEnable en).dsp.stepAt = w.dsp.stepAt ∧
      (w.pnlEnable en).dsp.en = w.dsp.en) := by
  obtain ⟨u, hu⟩ : ∃ u, (w.wr .A F.DSP_CTRL.PNL_EN 0 (b2n en)).updDsp (fun d => { d with pnlGreen := false }) = u := ⟨_, rfl⟩
  have hdsp : u.dsp = { w.dsp with pnlGreen := false } := by rw [← hu, World.dsp_updDsp, World.wr_dsp]
  have hen : u.rd .A F.DSP_CTRL.PNL_EN = b2n en := by
    rw [← hu, World.rd_updDsp, World.rd_wr_same _ _ _ _ _ (by decide)]
    exact b2n_mod_two en
  have hsafe : u.safeOn objPnl = w.safeOn objPnl := by
    refine World.safeOn_congr ?_ ?_ _
    · rw [← hu, World.bp_updDsp, World.wr_bp]
    · rw [← hu, World.rd_updDsp, World.rd_wr_apart _ _ _ _ _ _ _ _ (by decide)]
  unfold World.pnlEnable
  dsimp only
  rw [hu]
  cases en with
  | true =>
    rw [if_pos rfl]
    refine ⟨?_, fun _ h0 hs => ?_, fun h => absurd h (by decide), fun h0 _ => ?_⟩
    · rw [World.rd_when, World.rd_pnlStep _ _ _ _ _ (by decide) (by decide), ite_self, hen]
    · have hrun : u.pnlMayRun = true := by
        rw [World.pnlMayRun, World.flag, hen, hdsp, hsafe, hs]
        rfl
      obtain ⟨hd, hp, -⟩ := u.pnlStep_leaves 1
      have h0' : decide (u.dsp.step = 0) = true := by rw [hdsp]; exact decide_eq_true h0
      rw [h0', hrun, Bool.and_self, World.when_true, hd]
      exact ⟨rfl, rfl, hp⟩
    · have h0' : decide (u.dsp.step = 0) = false := by rw [hdsp]; exact decide_eq_false h0
      rw [h0', Bool.false_and, World.when_false, hdsp]
      exact ⟨rfl, rfl, rfl⟩
  | false =>
    rw [if_neg Bool.false_ne_true]
    refine ⟨?_, fun h => absurd h (by decide), fun _ h4 => ?_, fun _ h4 => ?_⟩
    · rw [World.rd_when, World.rd_pnlStep _ _ _ _ _ (by decide) (by decide), ite_self, hen]
    · obtain ⟨hd, hp, hb⟩ := u.pnlStep_leaves 5
      have h4' : decide (u.dsp.step = 4) = true := by rw [hdsp]; exact decide_eq_true h4
      rw [h4', World.when_true, hd]
      exact ⟨rfl, hb, hp⟩
    · have h4' : decide (u.dsp.step = 4) = false := by rw [hdsp]; exact decide_eq_false h4
      rw [h4', World.when_false, hdsp]
      exact ⟨rfl, rfl, rfl⟩

/-- A step of the panel's sequence that is due enters the next one. -/
theorem exec_panelSequenceStep {s : State} {k : Nat} (hk : s.w.dsp.step = k) (hdue : s.w.dsp.stepAt + pnlTime k ≤ s.w.now)
    (hmem : k ∈ [1, 2, 3, 5, 6, 7, 8, 9, 10]) : ∃ v, exec .panelSequenceStep s = .next { s with w := v } ∧
      s.w.EntersStep v (pnlNext (s.w.flag .A F.DSP_CTRL.PNL_EN) k) ∧ v.rd .A F.DSP_STATUS.FAST = s.w.rd .A F.DSP_STATUS.FAST := by
  have hstep (j : Nat) : s.w.EntersStep (s.w.pnlStep j) j ∧ (s.w.pnlStep j).rd .A F.DSP_STATUS.FAST = s.w.rd .A F.DSP_STATUS.FAST :=
    ⟨s.w.pnlStep_leaves j, World.rd_pnlStep _ _ _ _ _ (by decide) (by decide)⟩
  have hreach (j : Nat) : s.w.EntersStep (s.w.pnlReach j) j ∧ (s.w.pnlReach j).rd .A F.DSP_STATUS.FAST = s.w.rd .A F.DSP_STATUS.FAST :=
    ⟨s.w.pnlReach_leaves j, (World.rd_dspEvent _ _ _ _ _ _ (by decide)).trans (World.rd_pnlStep _ _ _ _ _ (by decide) (by decide))⟩
  have hexec : exec .panelSequenceStep s = execPanelSequenceStep s := rfl
  rw [hexec]
  unfold execPanelSequenceStep lift
  dsimp only
  rw [hk, decide_eq_true hdue, Bool.and_true]
  simp only [List.mem_cons, List.not_mem_nil, or_false] at hmem
  cases s.w.flag .A F.DSP_CTRL.PNL_EN <;> obtain rfl | rfl | rfl | rfl | rfl | rfl | rfl | rfl | rfl := hmem
  all_goals first | exact ⟨_, rfl, hstep _⟩ | exact ⟨_, rfl, hreach _⟩

end Sys2Proof.Machine

open Sys2Proof Sys2Proof.Machine

/-- Settles O59: a frame, an image, an entry into a step of the panel's sequence each leave what their lemma says. -/
theorem displayDrivers : Obligations.displayDrivers := by
  unfold Obligations.displayDrivers
  refine ⟨?frame, ?bad, ?good, ?off, ?latch, ?symbol, ?symbolNot, ?load, ?copy, ?copyNot, ?enable, ?up, ?down, ?fast, ?fastEnd, ?wait,
    ?refused, ?low⟩
  case frame =>
    intro vlcd v1 v2 t0 s hen hlatch
    obtain ⟨hdsp, hvl, hd1, hd2, -⟩ := s.w.segFramed_leaves vlcd v1 v2
    rw [hlatch, Option.any_some] at hdsp
    have hexec := exec_segmentFrame (vlcd := vlcd) (v1 := v1) (v2 := v2) hen
    obtain ⟨u, hu⟩ : ∃ u, (if levelsIn vlcd v1 v2 then (s.w.segFramed vlcd v1 v2).levelsGood else (s.w.segFramed vlcd v1 v2).levelsBad) = u :=
      ⟨_, rfl⟩
    obtain ⟨x, hx⟩ : ∃ x, u.dsp = { (s.w.segFramed vlcd v1 v2).dsp with good := x } := by
      rw [← hu]
      split
      · exact ⟨_, (World.levelsGood_leaves _).1⟩
      · exact ⟨_, (World.levelsBad_leaves _).1⟩
    have hrd (g : Field) (hg : fieldsApart F.DSP_STATUS.LVL_FAULT g = true) (hul : unlogged g = true) :
        u.rd .A g = (s.w.segFramed vlcd v1 v2).rd .A g := by
      obtain ⟨hgood, hbad⟩ := (s.w.segFramed vlcd v1 v2).rd_levels .A g 0 hg hul
      rw [← hu]
      split
      · exact hgood
      · exact hbad
    rw [hu] at hexec
    refine .of_exec hexec ⟨fun hlt => ?_, fun hge => ?_, ?_, (hrd _ (by decide) (by decide)).trans hvl,
      (World.rdI_congr (hrd _ (by decide) (by decide))).trans hd1, (World.rdI_congr (hrd _ (by decide) (by decide))).trans hd2, exec_quiet hexec rfl⟩
    · dsimp only
      rw [hx, hdsp, decide_eq_true hlt]
      exact ⟨rfl, rfl⟩
    · dsimp only
      rw [hx, hdsp, decide_eq_false hge.not_gt]
      exact ⟨rfl, rfl⟩
    · dsimp only
      rw [hx, hdsp]
  case bad =>
    intro vlcd v1 v2 s hen hout
    have hno : levelsIn vlcd v1 v2 = false := by
      rw [Bool.eq_false_iff]
      simp only [levelsIn, Ne, Bool.and_eq_true, decide_eq_true_eq]
      omega
    obtain ⟨hdsp, hfault⟩ := (s.w.segFramed vlcd v1 v2).levelsBad_leaves
    have hexec := exec_segmentFrame (vlcd := vlcd) (v1 := v1) (v2 := v2) hen
    rw [hno, if_neg Bool.false_ne_true] at hexec
    refine .of_exec hexec ⟨hfault, ?_, ?_, exec_regsBut hexec rfl, exec_quiet hexec rfl⟩
    · dsimp only
      rw [hdsp]
    · dsimp only
      rw [World.segBlank, World.flag_eq_true_iff.mpr hfault]
      simp
  case good =>
    intro vlcd v1 v2 s hen hlo hhi h1lo h1hi h2lo h2hi
    have hyes : levelsIn vlcd v1 v2 = true := by
      simp only [levelsIn, Bool.and_eq_true, decide_eq_true_eq]
      omega
    obtain ⟨hdsp, hfault⟩ := (s.w.segFramed vlcd v1 v2).levelsGood_leaves
    obtain ⟨hframe, -, -, -, hkeep⟩ := s.w.segFramed_leaves vlcd v1 v2
    rw [hframe, hkeep] at hfault
    have hexec := exec_segmentFrame (vlcd := vlcd) (v1 := v1) (v2 := v2) hen
    rw [hyes, if_pos rfl] at hexec
    refine .of_exec hexec ⟨hfault, ?_, exec_quiet hexec rfl⟩
    dsimp only
    rw [hdsp, hframe]
  case off =>
    intro vlcd v1 v2 s hen
    refine .of_exec (t := s) ?_ rfl
    change execSegmentFrame vlcd v1 v2 s = _
    rw [execSegmentFrame, lift, (World.flag_eq_false_iff rfl).mpr hen, World.when_false]
  case latch =>
    intro h init s halive howns
    have hexec : exec (.segmentLatch h init) s = .next { s with w := s.w.segLatch } := by
      change execSegmentLatch h init s = _
      rw [execSegmentLatch, objSeg, gateObj_owned _ _ _ _ _ halive howns, putW]
    exact .of_exec hexec ⟨rfl, fun _ _ _ _ _ => rfl, exec_quiet hexec rfl⟩
  case symbol =>
    intro h d y s hsec hsyms hn halive howns
    have hexec : exec (.symbolEvaluation h) s = .next { s with w := (s.w.forAll (List.range y.n) fun w i => w.putSeg (y.seg0 + i)
        (bitOf (if y.blink && decide (500 ≤ s.w.mt h / ms % 1000) then 0 else y.image (s.w.symValue h y)) i)).segLatch } := by
      change execSymbolEvaluation h s = _
      unfold execSymbolEvaluation
      rw [hsec]
      dsimp only
      rw [hsyms, halive, objSeg, howns, Bool.and_self, World.when_true]
      rfl
    obtain ⟨hin, hout⟩ := s.w.seg_image y.seg0 y.n (if y.blink && decide (500 ≤ s.w.mt h / ms % 1000) then 0 else y.image (s.w.symValue h y))
    refine .of_exec hexec ⟨fun i hi => ?_, fun i _ hi => hout i hi, fun v _ hk => ?_, fun v _ hk => ?_, fun hnone => ?_, ?_, rfl,
      exec_regsBut hexec rfl, exec_quiet hexec rfl⟩
    · refine (hin i hi).trans ?_
      simp only [Bool.and_eq_true, decide_eq_true_eq]
      rfl
    · simp only [Symbol.image, hk]
    · simp only [Symbol.image, hk]
    · rw [hnone]
      rfl
    · change some _ = some _
      exact congrArg some (World.forAll_keeps (·.now) (fun u a => World.wr_now _ _ _ _ _) _ _)
  case symbolNot =>
    intro h s hor
    refine .of_exec (t := s) ?_ rfl
    change execSymbolEvaluation h s = _
    unfold execSymbolEvaluation
    cases hsec : s.w.dsp.sec with
    | none => rfl
    | some d =>
      obtain hnone | halive | howns := hor
      · exact absurd (hsec.symm.trans hnone) (by simp)
      · dsimp only
        rw [halive, Bool.false_and, World.when_false]
        rfl
      · dsimp only
        rw [objSeg, howns, Bool.and_false, World.when_false]
        rfl
  case load =>
    intro h init s halive howns
    have hexec : exec (.panelLoad h init) s = .next { s with
        w := (s.w.updDsp fun d => { d with copy := some (h, s.w.rd .A F.DSP_PNL_SRC.ADDR) }).wr .A F.DSP_STATUS.COPYING 0 1 } := by
      change execPanelLoad h init s = _
      rw [execPanelLoad, objPnl, gateObj_owned _ _ _ _ _ halive howns, putW]
    refine .of_exec hexec ⟨?_, World.rd_wr_same _ _ _ _ _ (by decide), ?_, World.regsBut_wr (s.w.updDsp _) .A _ _ (by decide), exec_quiet hexec rfl⟩
    · dsimp only
      rw [World.wr_dsp, World.dsp_updDsp]
    · dsimp only
      rw [World.rd_wr_apart _ _ _ _ _ _ _ _ (by decide), World.rd_updDsp]
  case copy =>
    intro h a s hcopy
    obtain ⟨m, hm⟩ : ∃ m, (((s.w.dram.get h).filter (fun e => decide (region 0 a ≤ e.1 ∧ e.1 < region 0 a + frameBytes))).map
      (fun e => (e.1 - region 0 a, e.2))) = m := ⟨_, rfl⟩
    have hexec : exec .panelCopyComplete s = .next { s with
        w := ((s.w.updDsp fun d => if s.w.rd .A F.DSP_STATUS.STORE = 0 then { d with copy := none, store1 := m }
          else { d with copy := none, store0 := m }).wr .A F.DSP_STATUS.COPYING 0 0).wr .A F.DSP_STATUS.STORE 0 (1 - s.w.rd .A F.DSP_STATUS.STORE) } := by
      change execPanelCopyComplete s = _
      unfold execPanelCopyComplete lift
      dsimp only
      rw [hcopy]
      dsimp only
      rw [hm]
    have hbit := s.w.rd_bit .A F.DSP_STATUS.STORE 0 rfl
    refine .of_exec hexec ⟨?_, ?_, ?_, fun h0 => ?_, fun h1 => ?_, (exec_frame hexec).2.dram (by decide), exec_regsBut hexec rfl, exec_quiet hexec rfl⟩
    · dsimp only
      rw [World.rd_wr_apart _ _ _ _ _ _ _ _ (by decide), World.rd_wr_same _ _ _ _ _ (by decide)]
      rfl
    · dsimp only
      rw [World.rd_wr_same _ _ _ _ _ (by decide)]
      exact Nat.mod_eq_of_lt (show 1 - s.w.rd .A F.DSP_STATUS.STORE < 2 by omega)
    all_goals
      dsimp only
      rw [World.wr_dsp, World.wr_dsp, World.dsp_updDsp]
    · split <;> rfl
    · rw [if_pos h0]
    · rw [if_neg (by omega)]
  case copyNot =>
    intro s hnone
    refine .of_exec (t := s) ?_ rfl
    change execPanelCopyComplete s = _
    unfold execPanelCopyComplete lift
    dsimp only
    rw [hnone]
  case enable =>
    intro h init en s halive howns
    have hexec : exec (.panelEnable h init en) s = .next { s with w := s.w.pnlEnable en } := by
      change execPanelEnable h init en s = _
      rw [execPanelEnable, objPnl, gateObj_owned _ _ _ _ _ halive howns, putW]
    obtain ⟨hen, hup, hdown, hkeep⟩ := s.w.pnlEnable_leaves en
    exact .of_exec hexec ⟨hen.trans (b2n_eq_ite en), hup, hdown, hkeep, exec_quiet hexec rfl⟩
  case up =>
    intro s hmem hdue hen
    obtain ⟨k, hk⟩ : ∃ k, s.w.dsp.step = k := ⟨_, rfl⟩
    rw [hk] at hmem hdue
    obtain ⟨v, hexec, ⟨hdsp, hst, hbl⟩, -⟩ := exec_panelSequenceStep hk hdue (by simp only [List.mem_cons, List.not_mem_nil, or_false] at hmem ⊢; omega)
    rw [World.flag_eq_true_iff.mpr hen] at hdsp hst hbl
    obtain ⟨hpair, hrails, hstate⟩ := pnlNext_up s.w.dsp.en k hmem
    refine .of_exec hexec ⟨?_, ?_, ?_, ?_, ?_, exec_quiet hexec rfl⟩
    all_goals
      dsimp only
      rw [hdsp]
    · rwa [hk]
    · exact hrails
    · exact hbl
    · exact hst.trans hstate
  case down =>
    intro s hmem hdue hen
    obtain ⟨k, hk⟩ : ∃ k, s.w.dsp.step = k := ⟨_, rfl⟩
    rw [hk] at hmem hdue
    obtain ⟨v, hexec, ⟨hdsp, hst, hbl⟩, -⟩ := exec_panelSequenceStep hk hdue (by simp only [List.mem_cons, List.not_mem_nil, or_false] at hmem ⊢; omega)
    rw [(World.flag_eq_false_iff rfl).mpr hen] at hdsp hst hbl
    obtain ⟨hpair, hdark, h7, h8, h0, h6⟩ := pnlNext_down s.w.dsp.en k hmem
    refine .of_exec hexec ⟨?_, ?_, hbl.trans hdark, ?_, ?_, fun hz => ?_, fun hz => ?_, exec_quiet hexec rfl⟩
    all_goals dsimp only
    · rwa [hdsp, hk]
    · rw [hdsp]
    · rw [hdsp]
      exact h7
    · rw [hdsp]
      exact h8
    · rw [hdsp] at hz ⊢
      exact ⟨(h0 hz).1, hst.trans (h0 hz).2⟩
    · rw [hdsp] at hz ⊢
      exact ⟨(h6 hz).1, hst.trans (h6 hz).2⟩
  case fast =>
    intro s hor hdue
    obtain ⟨k, hk⟩ : ∃ k, s.w.dsp.step = k := ⟨_, rfl⟩
    rw [hk] at hor hdue
    obtain ⟨v, hexec, ⟨hdsp, hst, hbl⟩, hfast⟩ := exec_panelSequenceStep hk hdue (by simp only [List.mem_cons, List.not_mem_nil, or_false]; omega)
    obtain rfl | rfl := hor
    · refine .of_exec hexec ⟨?_, ?_, fun h => ?_, hbl, hfast, exec_quiet hexec rfl⟩
      · dsimp only
        rw [hdsp, hk]
        rfl
      · dsimp only
        rw [hdsp]
        rfl
      · exact absurd (hk.symm.trans h) (by decide)
    · refine .of_exec hexec ⟨?_, ?_, fun h => ?_, hbl, hfast, exec_quiet hexec rfl⟩
      · dsimp only
        rw [hdsp, hk]
        rfl
      · dsimp only
        rw [hdsp]
        rfl
      · dsimp only
        rw [hdsp]
        rfl
  case fastEnd =>
    intro s hk hdue
    obtain ⟨u, hu⟩ : ∃ u, (s.w.pnlReach 0).wr .A F.DSP_STATUS.FAST 0 0 = u := ⟨_, rfl⟩
    have hexec : exec .panelSequenceStep s = .next { s with w := u.when u.pnlMayRun (·.pnlStep 1) } := by
      change execPanelSequenceStep s = _
      unfold execPanelSequenceStep lift
      dsimp only
      rw [hk, decide_eq_true (show s.w.dsp.stepAt + pnlTime 11 ≤ s.w.now from hdue), ← hu]
      rfl
    obtain ⟨hreach, -, hbl⟩ := s.w.pnlReach_leaves 0
    have hdsp : u.dsp = { s.w.dsp with step := 0, stepAt := s.w.now, en := [false, false, false] } := by rw [← hu, World.wr_dsp, hreach]; rfl
    have hfast : u.rd .A F.DSP_STATUS.FAST = 0 := by rw [← hu, World.rd_wr_same _ _ _ _ _ (by decide)]; rfl
    have hbl' : u.rd .A F.DSP_STATUS.BL = 0 := by rw [← hu, World.rd_wr_apart _ _ _ _ _ _ _ _ (by decide), hbl]; rfl
    have hrd (g : Field) (hf : fieldsApart F.DSP_STATUS.FAST g = true) (hp : fieldsApart F.DSP_STATUS.PNL_STATE g = true)
        (hb : fieldsApart F.DSP_STATUS.BL g = true) (hul : unlogged g = true) : u.rd .A g = s.w.rd .A g := by
      rw [← hu, World.rd_wr_apart _ _ _ _ _ _ _ _ hf, World.pnlReach, World.rd_dspEvent _ _ _ _ _ _ hul, World.rd_pnlStep _ _ _ _ _ hp hb]
    have hbp : u.bp = s.w.bp := by
      rw [← hu, World.wr_bp, World.pnlReach, World.bp_dspEvent, World.pnlStep_eq, World.wr_bp, World.wr_bp]
      rfl
    have hrun : u.pnlMayRun = true ↔ s.w.rd .A F.DSP_CTRL.PNL_EN = 1 ∧ s.w.dsp.pnlGreen = false ∧ s.w.safeOn 353 = false := by
      have hsafe : u.safeOn objPnl = s.w.safeOn 353 := World.safeOn_congr hbp (hrd _ (by decide) (by decide) (by decide) (by decide)) _
      rw [World.pnlMayRun, hsafe, hdsp, World.flag, hrd _ (by decide) (by decide) (by decide) (by decide)]
      simp only [Bool.and_eq_true, Bool.not_eq_true', decide_eq_true_eq, and_assoc]
    obtain ⟨hstep, -, hbl1⟩ := u.pnlStep_leaves 1
    by_cases hmay : u.pnlMayRun = true
    · rw [hmay, World.when_true] at hexec
      refine .of_exec hexec ⟨(World.rd_pnlStep _ _ _ _ _ (by decide) (by decide)).trans hfast, hbl1, ?_, ?_, exec_quiet hexec rfl⟩
      · dsimp only
        rw [hstep, if_pos (hrun.mp hmay)]
      · dsimp only
        rw [hstep]
        rfl
    · rw [Bool.not_eq_true] at hmay
      rw [hmay, World.when_false] at hexec
      refine .of_exec hexec ⟨hfast, hbl', ?_, ?_, exec_quiet hexec rfl⟩
      · dsimp only
        rw [hdsp, if_neg (fun h => absurd (hrun.mpr h) (by simp [hmay]))]
      · dsimp only
        rw [hdsp]
        rfl
  case wait =>
    intro s hor
    refine .of_exec (t := s) ?_ rfl
    change execPanelSequenceStep s = _
    unfold execPanelSequenceStep lift
    dsimp only
    obtain h0 | h4 | hlt := hor
    · rw [h0]
      rfl
    · rw [h4]
      rfl
    · rw [decide_eq_false (Nat.not_le.mpr hlt), Bool.and_false, World.when_false]
  case refused =>
    intro h init en c k s hmem hk halive howns
    simp only [List.mem_cons, List.not_mem_nil, or_false] at hmem
    have hclose {c : Instr} {k : Nat} (hk9 : k < 2 ^ 9)
        (hq : (!partIn (footprint c) .own && !partIn (footprint c) .ledger && !partIn (footprint c) .bus) = true)
        (hexec : exec c s = .next { s with w := s.w.violation h init k }) :
        Completes c s fun t => t.w.rd h F.OWN_VIOL.OBJ = k ∧ t.w.rd h F.OWN_VIOL.INIT = init % 16 ∧ t.w.dsp = s.w.dsp ∧
          World.RegsBut [F.OWN_VIOL.OBJ.reg, F.EVT_STATUS.LOST.reg] s.w t.w ∧ s.Quiet t := by
      obtain ⟨hobj, hinit⟩ := s.w.rd_violation h (init := init) hk9
      refine .of_exec hexec ⟨hobj, hinit, ?_, s.w.regsBut_violation h init _, exec_quiet hexec hq⟩
      dsimp only
      rw [World.violation, World.raise_dsp, World.wr_dsp, World.wr_dsp]
    obtain rfl | rfl | rfl := hmem
    · rw [if_pos rfl] at hk
      subst hk
      refine hclose (by decide) rfl ?_
      change execSegmentLatch h init s = _
      rw [execSegmentLatch, objSeg, gateObj_refused _ _ _ _ _ halive howns, putW]
    · rw [if_neg nofun] at hk
      subst hk
      refine hclose (by decide) rfl ?_
      change execPanelLoad h init s = _
      rw [execPanelLoad, objPnl, gateObj_refused _ _ _ _ _ halive howns, putW]
    · rw [if_neg nofun] at hk
      subst hk
      refine hclose (by decide) rfl ?_
      change execPanelEnable h init en s = _
      rw [execPanelEnable, objPnl, gateObj_refused _ _ _ _ _ halive howns, putW]
  case low =>
    intro h init en c s hmem halive
    simp only [List.mem_cons, List.not_mem_nil, or_false] at hmem
    obtain rfl | rfl | rfl := hmem
    · refine .of_exec (t := s) ?_ rfl
      change execSegmentLatch h init s = _
      rw [execSegmentLatch, gateObj_low _ _ _ _ _ halive, putW]
    · refine .of_exec (t := s) ?_ rfl
      change execPanelLoad h init s = _
      rw [execPanelLoad, gateObj_low _ _ _ _ _ halive, putW]
    · refine .of_exec (t := s) ?_ rfl
      change execPanelEnable h init en s = _
      rw [execPanelEnable, gateObj_low _ _ _ _ _ halive, putW]

end

section
/-!
PROOF. O60: the two channels of SAFE_OFF.
-/
namespace Sys2Proof.Machine

/-! An operation over a list that reaches each place once. -/

/-- What one element of a list brings about, and no other element undoes, holds after the whole list. -/
theorem World.forAll_reaches {α : Type} {f : World → α → World} {P Q : World → Prop} {a : α} {l : List α} (w : World) (hw : Q w) (ha : a ∈ l)
    (hQ : ∀ u b, Q u → Q (f u b)) (hown : ∀ u, Q u → P (f u a)) (hkeep : ∀ u b, b ≠ a → P u → P (f u b)) : P (w.forAll l f) := by
  have hstay (m : List α) : ∀ u, Q u → P u → P (u.forAll m f) := by
    induction m with
    | nil => exact fun _ _ h => h
    | cons b m ih =>
      intro u hq hp
      refine ih _ (hQ u b hq) ?_
      by_cases hb : b = a
      · exact hb ▸ hown u hq
      · exact hkeep u b hb hp
  induction l generalizing w with
  | nil => exact nomatch ha
  | cons b l ih =>
    obtain rfl | ha := List.mem_cons.mp ha
    · exact hstay l _ (hQ w a hw) (hown w hw)
    · exact ih (f w b) (hQ w b hw) ha

/-! What SAFE_OFF leaves alone. -/

/-- The parts that the rise and the fall of SAFE_OFF touch. -/
def safeParts : List Part :=
  [.evt, .vlv, .lsw, .can, .dsp, .reg 0x100018, .reg 0x500028, .reg 0x600024, .reg 0x900030, .reg 0x900044, .reg 0xF00018, .reg 0x1000044]

/-- PWR_SAFE.ASSERTED rises. -/
def World.safeRise (w : World) : World := (w.forAll (List.range nObj) World.safeObj).fanDuties

/-- The switches and valves whose command has been OFF may restart. -/
def World.safeFall (w : World) : World :=
  ((w.forAll (List.range 96) fun w ch =>
      w.when ((w.gren (objV ch)).so && !w.flag .A F.VLV_STATUS.CMD ch) fun w => w.wr .A F.VLV_STATUS.KNOCKED ch 0).forAll (List.range 48) fun w n =>
    w.when ((w.gren (objL n)).so && !w.flag .A F.LSW_STATUS.CMD n) fun w => w.wr .A F.LSW_STATUS.KNOCKED n 0).fanDuties

/-- The level of PWR_SAFE.ASSERTED that the channels and DISC ask for. -/
def World.safeAsked (w : World) : Bool := !w.flag .A F.PWR_SAFE.A_REL || !w.flag .A F.PWR_SAFE.B_REL || w.flag .A F.PWR_SAFE.DISC

theorem World.safeUpdate_eq (w : World) : w.safeUpdate =
    if w.safeAsked && !w.safeOff then (w.wr .A F.PWR_SAFE.ASSERTED 0 (b2n w.safeAsked)).safeRise
    else if w.safeOff && !w.safeAsked then (w.wr .A F.PWR_SAFE.ASSERTED 0 (b2n w.safeAsked)).safeFall
    else w.wr .A F.PWR_SAFE.ASSERTED 0 (b2n w.safeAsked) := rfl

theorem World.safeRise_rest (w : World) : Rest safeParts w.safeRise w :=
  World.fanDuties_rest (by decide) (Rest.forAll (Rest.refl _ w) fun _ _ e => World.safeObj_rest (by decide) e)

theorem World.safeFall_rest (w : World) : Rest safeParts w.safeFall w :=
  World.fanDuties_rest (by decide) (Rest.forAll (Rest.forAll (Rest.refl _ w) fun _ _ e => Rest.when e fun _ d => Rest.wr _ _ _ _ (by decide) d)
    fun _ _ e => Rest.when e fun _ d => Rest.wr _ _ _ _ (by decide) d)

/-- Beside ASSERTED, the update reads PWR_SAFE as it was. -/
theorem World.rd_safeUpdate (w : World) (f : Field) (i : Nat) (ha : fieldsApart F.PWR_SAFE.ASSERTED f = true)
    (hf : (!partIn safeParts (.reg f.reg) && decide (f.reg < 2 ^ 25)) = true) : w.safeUpdate.rd .A f i = w.rd .A f i := by
  have hrise := (w.wr .A F.PWR_SAFE.ASSERTED 0 (b2n w.safeAsked)).safeRise_rest.rd .A f i hf
  have hfall := (w.wr .A F.PWR_SAFE.ASSERTED 0 (b2n w.safeAsked)).safeFall_rest.rd .A f i hf
  have hwr := w.rd_wr_apart .A .A F.PWR_SAFE.ASSERTED f 0 i (b2n w.safeAsked) ha
  rw [World.safeUpdate_eq]
  split
  · exact hrise.trans hwr
  · split
    · exact hfall.trans hwr
    · exact hwr

theorem World.rd_safeUpdate_asserted (w : World) : w.safeUpdate.rd .A F.PWR_SAFE.ASSERTED = b2n w.safeAsked := by
  have hwr : (w.wr .A F.PWR_SAFE.ASSERTED 0 (b2n w.safeAsked)).rd .A F.PWR_SAFE.ASSERTED = b2n w.safeAsked :=
    (World.rd_wr_same _ _ _ _ _ (by decide)).trans (b2n_mod_two _)
  rw [World.safeUpdate_eq]
  split
  · exact ((World.safeRise_rest _).rd .A _ 0 (by decide)).trans hwr
  · split
    · exact ((World.safeFall_rest _).rd .A _ 0 (by decide)).trans hwr
    · exact hwr

/-! The rise (R214, R240, R553). -/

/-- The Knock of one object leaves the others: an object beyond the valves leaves every valve. -/
theorem World.safeObj_rest_beyond (w : World) {k : Nat} (hk : 96 ≤ k) :
    Rest [.evt, .lsw, .can, .dsp, .reg 0x100018, .reg 0x600024, .reg 0x900030, .reg 0x900044, .reg 0xF00018] (w.safeObj k) w := by
  unfold World.safeObj
  rw [if_neg hk.not_gt]
  split
  · exact Rest.refl _ w
  · split
    · exact World.knockSwitch_rest (by decide) (Rest.refl _ w)
    · split
      · exact World.knockCan_rest (by decide) (Rest.refl _ w)
      · split
        · exact World.dspFast_rest (by decide) (Rest.refl _ w)
        · exact Rest.refl _ w

/-- An object that is no load switch leaves every load switch. -/
theorem World.safeObj_rest_switches (w : World) {k : Nat} (hk : k < 96 ∨ 144 ≤ k) :
    Rest [.evt, .vlv, .can, .dsp, .reg 0x100018, .reg 0x500028, .reg 0x900030, .reg 0x900044, .reg 0xF00018] (w.safeObj k) w := by
  unfold World.safeObj
  split
  · exact Rest.refl _ w
  · split
    · exact World.knockValve_rest (by decide) (Rest.refl _ w)
    · rw [if_neg (by omega)]
      split
      · exact World.knockCan_rest (by decide) (Rest.refl _ w)
      · split
        · exact World.dspFast_rest (by decide) (Rest.refl _ w)
        · exact Rest.refl _ w

/-- An object that is not the panel leaves the panel. -/
theorem World.safeObj_rest_panel (w : World) {k : Nat} (hk : k ≠ objPnl) :
    Rest [.vlv, .lsw, .can, .reg 0x500028, .reg 0x600024, .reg 0x900030, .reg 0x900044] (w.safeObj k) w := by
  unfold World.safeObj
  split
  · exact Rest.refl _ w
  · split
    · exact World.knockValve_rest (by decide) (Rest.refl _ w)
    · split
      · exact World.knockSwitch_rest (by decide) (Rest.refl _ w)
      · split
        · exact World.knockCan_rest (by decide) (Rest.refl _ w)
        · exact Rest.refl _ w

/-- A valve that SAFE_OFF has taken. -/
def World.ValveSafe (w : World) (ch : Nat) : Prop :=
  w.rd .A F.VLV_STATUS.KNOCKED ch = 1 ∧ w.rd .A F.VLV_STATUS.RUN ch = 0 ∧ (w.eng ch).level = none

/-- A load switch that SAFE_OFF has taken. -/
def World.SwitchSafe (w : World) (n : Nat) : Prop :=
  w.rd .A F.LSW_STATUS.KNOCKED n = 1 ∧ w.rd .A F.LSW_STATUS.STATE n ≠ 2 ∧ w.rd .A F.LSW_STATUS.STATE n ≠ 3

theorem World.knockValve_other (w : World) {k ch : Nat} (mode : Nat) (hne : ch ≠ k) :
    (w.knockValve k mode).rd .A F.VLV_STATUS.KNOCKED ch = w.rd .A F.VLV_STATUS.KNOCKED ch ∧
    (w.knockValve k mode).rd .A F.VLV_STATUS.RUN ch = w.rd .A F.VLV_STATUS.RUN ch ∧ (w.knockValve k mode).eng ch = w.eng ch := by
  unfold World.knockValve
  refine ⟨?_, ?_, ?_⟩
  · rw [World.rd_wr_idx _ _ _ _ _ _ (by decide) (by decide) hne, World.rd_updEng, World.rd_stopEngine_idx _ _ (by decide) hne,
      World.rd_turnOff_idx _ _ _ (by decide) hne]
  · rw [World.rd_wr_idx _ _ _ _ _ _ (by decide) (by decide) hne, World.rd_updEng, World.rd_stopEngine_idx _ _ (by decide) hne,
      World.rd_turnOff_idx _ _ _ (by decide) hne]
  · simp only [World.eng_wr, World.stopEngine, World.turnOff, World.eng_updEng_ne _ _ hne]

theorem World.knockSwitch_safe (w : World) (n : Nat) : (w.knockSwitch n).SwitchSafe n := by
  obtain ⟨hoff, -, -⟩ := w.swOff_leaves n
  have hstate : (w.knockSwitch n).rd .A F.LSW_STATUS.STATE n ≠ 2 ∧ (w.knockSwitch n).rd .A F.LSW_STATUS.STATE n ≠ 3 := by
    rw [World.knockSwitch, World.rd_wr_apart _ _ _ _ _ _ _ _ (by decide), hoff]
    split <;> omega
  exact ⟨World.rd_wr_same _ _ _ _ _ (by decide), hstate⟩

theorem World.knockSwitch_other (w : World) {k n : Nat} (hne : n ≠ k) :
    (w.knockSwitch k).rd .A F.LSW_STATUS.KNOCKED n = w.rd .A F.LSW_STATUS.KNOCKED n ∧
    (w.knockSwitch k).rd .A F.LSW_STATUS.STATE n = w.rd .A F.LSW_STATUS.STATE n := by
  have hoff (f : Field) (hf : f.reg < 2 ^ 25) : (w.swOff k).rd .A f n = w.rd .A f n := by
    unfold World.swOff
    dsimp only
    split
    · exact World.rd_updSw _ _ _ _ _ _
    · split
      · rfl
      · rw [World.rd_wr_idx _ _ _ _ _ _ (by decide) hf hne, World.rd_swGo_idx _ _ _ hf hne]
  unfold World.knockSwitch
  refine ⟨?_, ?_⟩
  · rw [World.rd_wr_idx _ _ _ _ _ _ (by decide) (by decide) hne, hoff _ (by decide)]
  · rw [World.rd_wr_idx _ _ _ _ _ _ (by decide) (by decide) hne, hoff _ (by decide)]

theorem World.bp_safeObj (w : World) (k : Nat) : (w.safeObj k).bp = w.bp := (World.safeObj_rest (q0 := safeParts) (by decide) (Rest.refl _ w)).bp (by decide)

theorem World.safeObj_valve {w : World} {ch : Nat} (hch : ch < 96) (hso : (w.gren ch).so = true) : (w.safeObj ch).ValveSafe ch := by
  obtain ⟨hknock, hrun, -, hlevel, -⟩ := w.knockValve_leaves ch 1
  unfold World.safeObj
  rw [hso, if_neg (by decide), if_pos hch]
  exact ⟨hknock, hrun, hlevel⟩

theorem World.safeObj_valve_other {w : World} {k ch : Nat} (hne : k ≠ ch) (hsafe : w.ValveSafe ch) : (w.safeObj k).ValveSafe ch := by
  obtain ⟨hknock, hrun, hlevel⟩ := hsafe
  by_cases hk : k < 96
  · obtain ⟨hk1, hk2, hk3⟩ := w.knockValve_other 1 hne.symm
    unfold World.safeObj
    split
    · exact ⟨hknock, hrun, hlevel⟩
    · exact ⟨hk1.trans hknock, hk2.trans hrun, hk3 ▸ hlevel⟩
  · have hrest := w.safeObj_rest_beyond (Nat.not_lt.mp hk)
    exact ⟨(hrest.rd _ _ _ (by decide)).trans hknock, (hrest.rd _ _ _ (by decide)).trans hrun,
      (congrArg Eng.level (World.eng_congr (congrArg Valves.eng (hrest.vlv (by decide))) ch)).trans hlevel⟩

theorem World.safeObj_switch {w : World} {n : Nat} (hn : n < 48) (hso : (w.gren (96 + n)).so = true) : (w.safeObj (96 + n)).SwitchSafe n := by
  unfold World.safeObj
  rw [hso, if_neg (by decide), if_neg (by omega), if_pos (by omega), Nat.add_sub_cancel_left]
  exact w.knockSwitch_safe n

theorem World.safeObj_switch_other {w : World} {k n : Nat} (hne : k ≠ 96 + n) (hsafe : w.SwitchSafe n) : (w.safeObj k).SwitchSafe n := by
  obtain ⟨hknock, hstate⟩ := hsafe
  by_cases hk : 96 ≤ k ∧ k < 144
  · obtain ⟨hk1, hk2⟩ := w.knockSwitch_other (k := k - 96) (n := n) (by omega)
    unfold World.safeObj
    split
    · exact ⟨hknock, hstate⟩
    · rw [if_neg (by omega), if_pos hk.2]
      exact ⟨hk1.trans hknock, hk2.symm ▸ hstate⟩
  · have hrest := w.safeObj_rest_switches (k := k) (by omega)
    have hst := hrest.rd .A F.LSW_STATUS.STATE n (by decide)
    exact ⟨(hrest.rd _ _ _ (by decide)).trans hknock, hst.symm ▸ hstate⟩

theorem World.rd_dspFast (w : World) : w.dspFast.rd .A F.DSP_STATUS.FAST = 1 := by
  unfold World.dspFast
  split
  · rename_i hfast
    exact World.flag_eq_true_iff.mp hfast
  · rw [World.rd_dspEvent _ _ _ _ _ _ (by decide), World.rd_wr_same _ _ _ _ _ (by decide)]
    rfl

theorem World.safeObj_panel {w : World} (hso : (w.gren 353).so = true) : (w.safeObj 353).rd .A F.DSP_STATUS.FAST = 1 := by
  unfold World.safeObj
  rw [hso, if_neg (by decide), if_neg (by decide), if_neg (by decide), if_neg (by decide), if_pos (by decide)]
  exact w.rd_dspFast

/-- What the rise leaves in the objects that follow SAFE_OFF. -/
theorem World.safeRise_leaves (w : World) :
    (∀ ch, ch < 96 → (w.gren ch).so = true → w.safeRise.ValveSafe ch) ∧
    (∀ n, n < 48 → (w.gren (96 + n)).so = true → w.safeRise.SwitchSafe n) ∧
    ((w.gren 353).so = true → w.safeRise.rd .A F.DSP_STATUS.FAST = 1) := by
  have hQ (u : World) (k : Nat) (hu : u.bp = w.bp) : (u.safeObj k).bp = w.bp := (u.bp_safeObj k).trans hu
  obtain ⟨u, hu⟩ : ∃ u, w.forAll (List.range nObj) World.safeObj = u := ⟨_, rfl⟩
  have hfan := u.fanDuties_rested
  unfold World.safeRise
  refine ⟨fun ch hch hso => ?_, fun n hn hso => ?_, fun hso => ?_⟩
  · have hsafe : (w.forAll (List.range nObj) World.safeObj).ValveSafe ch :=
      World.forAll_reaches (P := (·.ValveSafe ch)) (Q := (·.bp = w.bp)) w rfl (List.mem_range.mpr (show ch < 362 by omega)) hQ
        (fun v hv => World.safeObj_valve hch ((World.gren_congr hv ch).symm ▸ hso)) (fun _ _ hk hs => World.safeObj_valve_other hk hs)
    rw [hu] at hsafe ⊢
    obtain ⟨hknock, hrun, hlevel⟩ := hsafe
    exact ⟨(hfan.rd _ _ _ (by decide)).trans hknock, (hfan.rd _ _ _ (by decide)).trans hrun,
      (congrArg Eng.level (World.eng_congr (congrArg Valves.eng (hfan.vlv (by decide))) ch)).trans hlevel⟩
  · have hsafe : (w.forAll (List.range nObj) World.safeObj).SwitchSafe n :=
      World.forAll_reaches (P := (·.SwitchSafe n)) (Q := (·.bp = w.bp)) w rfl (List.mem_range.mpr (show 96 + n < 362 by omega)) hQ
        (fun v hv => World.safeObj_switch hn ((World.gren_congr hv _).symm ▸ hso)) (fun _ _ hk hs => World.safeObj_switch_other hk hs)
    rw [hu] at hsafe ⊢
    obtain ⟨hknock, hstate⟩ := hsafe
    have hst := hfan.rd .A F.LSW_STATUS.STATE n (by decide)
    exact ⟨(hfan.rd _ _ _ (by decide)).trans hknock, hst.symm ▸ hstate⟩
  · have hsafe : (w.forAll (List.range nObj) World.safeObj).rd .A F.DSP_STATUS.FAST = 1 :=
      World.forAll_reaches (P := (·.rd .A F.DSP_STATUS.FAST = 1)) (Q := (·.bp = w.bp)) w rfl (List.mem_range.mpr (show 353 < 362 by omega)) hQ
        (fun v hv => World.safeObj_panel ((World.gren_congr hv _).symm ▸ hso))
        (fun v k hk hs => ((v.safeObj_rest_panel hk).rd _ _ _ (by decide)).trans hs)
    rw [hu] at hsafe ⊢
    exact (hfan.rd _ _ _ (by decide)).trans hsafe

/-! The fall (R214, R240). -/

/-- A Knock by SAFE_OFF ends for a channel that follows it, once its command is OFF. -/
def World.knockEnds (obj : Nat → Nat) (cmd knocked : Field) (w : World) (c : Nat) : World :=
  w.when ((w.gren (obj c)).so && !w.flag .A cmd c) fun w => w.wr .A knocked c 0

theorem World.knockEnds_due (obj : Nat → Nat) {cmd knocked : Field} (u : World) (a j : Nat) (hapart : fieldsApart knocked cmd = true) :
    (((World.knockEnds obj cmd knocked u a).gren (obj j)).so && !(World.knockEnds obj cmd knocked u a).flag .A cmd j) =
      ((u.gren (obj j)).so && !u.flag .A cmd j) := by
  have hbp : (World.knockEnds obj cmd knocked u a).bp = u.bp := by rw [World.knockEnds, World.apply_when (·.bp), World.wr_bp, ite_self]
  have hcmd : (World.knockEnds obj cmd knocked u a).rd .A cmd j = u.rd .A cmd j := by
    rw [World.knockEnds, World.rd_when, World.rd_wr_apart _ _ _ _ _ _ _ _ hapart, ite_self]
  rw [World.gren_congr hbp, World.flag, hcmd, World.flag]

theorem World.rd_knockEnds (w : World) {cmd knocked : Field} {obj : Nat → Nat} {m n : Nat} (hn : n < m) (hso : (w.gren (obj n)).so = true)
    (hlo : knocked.lo + knocked.w ≤ 32) (hapart : fieldsApart knocked cmd = true) (hk : knocked.reg < 2 ^ 25) (hbit : cmd.w = 1) :
    (w.forAll (List.range m) (World.knockEnds obj cmd knocked)).rd .A knocked n = if w.rd .A cmd n = 0 then 0 else w.rd .A knocked n := by
  have hat := World.forAll_at (f := World.knockEnds obj cmd knocked)
    (fun u j => (u.rd .A knocked j, (u.gren (obj j)).so && !u.flag .A cmd j)) id (fun b _ => (if b.2 then 0 else b.1, b.2))
    (fun u a => Prod.ext (by
      dsimp only [id, World.knockEnds]
      rw [World.rd_when, World.rd_wr_same _ _ _ _ _ hlo, Nat.zero_mod]) (World.knockEnds_due obj u a a hapart))
    (fun u a j (hj : j ≠ a) => Prod.ext (by
      dsimp only [World.knockEnds]
      rw [World.rd_when, World.rd_wr_idx _ _ _ _ _ _ hk hk hj, ite_self]) (World.knockEnds_due obj u a j hapart))
    (l := List.range m) (by simpa using List.nodup_range) w
  refine (congrArg Prod.fst (hat.1 n (List.mem_range.mpr hn))).trans ?_
  have hcmd := w.rd_bit .A cmd n hbit
  change (if ((w.gren (obj n)).so && !w.flag .A cmd n) = true then 0 else w.rd .A knocked n) = _
  rw [hso, World.flag]
  simp only [Bool.true_and, Bool.not_eq_true', decide_eq_false_iff_not]
  split_ifs <;> omega

theorem World.safeFall_eq (w : World) : w.safeFall =
    ((w.forAll (List.range 96) (World.knockEnds objV F.VLV_STATUS.CMD F.VLV_STATUS.KNOCKED)).forAll (List.range 48)
      (World.knockEnds objL F.LSW_STATUS.CMD F.LSW_STATUS.KNOCKED)).fanDuties := rfl

/-- What the fall leaves in the objects that follow SAFE_OFF. -/
theorem World.safeFall_leaves (w : World) :
    (∀ ch, ch < 96 → (w.gren ch).so = true → w.safeFall.rd .A F.VLV_STATUS.KNOCKED ch =
      if w.rd .A F.VLV_STATUS.CMD ch = 0 then 0 else w.rd .A F.VLV_STATUS.KNOCKED ch) ∧
    (∀ n, n < 48 → (w.gren (96 + n)).so = true → w.safeFall.rd .A F.LSW_STATUS.KNOCKED n =
      if w.rd .A F.LSW_STATUS.CMD n = 0 then 0 else w.rd .A F.LSW_STATUS.KNOCKED n) := by
  rw [World.safeFall_eq]
  obtain ⟨u, hu⟩ : ∃ u, w.forAll (List.range 96) (World.knockEnds objV F.VLV_STATUS.CMD F.VLV_STATUS.KNOCKED) = u := ⟨_, rfl⟩
  have hvalves : Rest [.reg 0x500028] u w :=
    hu ▸ Rest.forAll (Rest.refl _ w) fun _ _ e => Rest.when e fun _ d => Rest.wr _ _ _ _ (by decide) d
  have hswitches : Rest [.reg 0x600024] (u.forAll (List.range 48) (World.knockEnds objL F.LSW_STATUS.CMD F.LSW_STATUS.KNOCKED)) u :=
    Rest.forAll (Rest.refl _ u) fun _ _ e => Rest.when e fun _ d => Rest.wr _ _ _ _ (by decide) d
  refine ⟨fun ch hch hso => ?_, fun n hn hso => ?_⟩
  · rw [World.rd_fanDuties _ _ _ _ (by decide), hu, hswitches.rd _ _ _ (by decide), ← hu]
    exact World.rd_knockEnds w (obj := objV) hch hso (by decide) (by decide) (by decide) rfl
  · rw [World.rd_fanDuties _ _ _ _ (by decide), hu, World.rd_knockEnds u (obj := objL) hn ((World.gren_congr (hvalves.bp (by decide)) _).symm ▸ hso)
      (by decide) (by decide) (by decide) rfl, hvalves.rd _ _ _ (by decide), hvalves.rd _ _ _ (by decide)]

/-! The channels (R572). -/

/-- A channel's pin low: the channel asserted, both together clear DISC. -/
def World.safeLow (w : World) (b : Bool) : World :=
  let w := w.wr .A (safeRel b) 0 0
  w.when (!w.flag .A F.PWR_SAFE.A_REL && !w.flag .A F.PWR_SAFE.B_REL) fun w => w.wr .A F.PWR_SAFE.DISC 0 0

theorem exec_safeOffAssert (b : Bool) (s : State) : exec (.safeOffAssert b) s = .next { s with w := (s.w.safeLow b).safeUpdate } := rfl
theorem exec_safeOffRelease (b : Bool) (s : State) :
    exec (.safeOffRelease b) s = .next { s with w := (s.w.wr .A (safeRel b) 0 1).safeUpdate } := rfl

theorem World.safeLow_leaves (w : World) (b : Bool) : (w.safeLow b).rd .A (safeRel b) = 0 ∧ (w.safeLow b).rd .A (safeRel !b) = w.rd .A (safeRel !b) ∧
    (w.safeLow b).rd .A F.PWR_SAFE.DISC = (if w.rd .A (safeRel !b) = 0 then 0 else w.rd .A F.PWR_SAFE.DISC) ∧
    Rest [.reg F.PWR_SAFE.DISC.reg] (w.safeLow b) w := by
  have hbit := w.rd_bit .A (safeRel !b) 0 (by cases b <;> rfl)
  unfold World.safeLow
  cases b <;>
  · refine ⟨?_, ?_, ?_, Rest.when (Rest.wr _ _ _ _ (by decide) (Rest.refl _ w)) fun _ e => Rest.wr _ _ _ _ (by decide) e⟩
    · simp (disch := decide) only [World.rd_when, World.rd_wr_apart, World.rd_wr_same, safeRel, if_true, if_false, Bool.false_eq_true, ite_self,
        Nat.zero_mod]
    · simp (disch := decide) only [World.rd_when, World.rd_wr_apart, World.rd_wr_same, safeRel, if_true, if_false, Bool.false_eq_true, ite_self,
        Nat.zero_mod, Bool.not_true, Bool.not_false]
    · simp (disch := decide) only [World.rd_when, World.rd_wr_apart, World.rd_wr_same, safeRel, if_true, if_false, Bool.false_eq_true, ite_self,
        Nat.zero_mod, Bool.not_true, Bool.not_false, World.flag] at hbit ⊢
      simp only [decide_eq_false (show ¬ (0 = 1) by decide), Bool.not_false, Bool.true_and, Bool.and_true, Bool.not_eq_true', decide_eq_false_iff_not]
      split_ifs <;> omega

theorem World.rd_safeLow_asserted (w : World) (b : Bool) : (w.safeLow b).rd .A F.PWR_SAFE.ASSERTED = w.rd .A F.PWR_SAFE.ASSERTED := by
  unfold World.safeLow
  cases b <;> simp (disch := decide) only [World.rd_when, World.rd_wr_apart, safeRel, if_true, if_false, Bool.false_eq_true, ite_self]

theorem World.safeHigh_leaves (w : World) (b : Bool) : (w.wr .A (safeRel b) 0 1).rd .A (safeRel b) = 1 ∧
    (w.wr .A (safeRel b) 0 1).rd .A (safeRel !b) = w.rd .A (safeRel !b) ∧
    (w.wr .A (safeRel b) 0 1).rd .A F.PWR_SAFE.DISC = w.rd .A F.PWR_SAFE.DISC ∧ Rest [.reg F.PWR_SAFE.DISC.reg] (w.wr .A (safeRel b) 0 1) w := by
  cases b <;> exact ⟨World.rd_wr_same _ _ _ _ _ (by decide), World.rd_wr_apart _ _ _ _ _ _ _ _ (by decide),
    World.rd_wr_apart _ _ _ _ _ _ _ _ (by decide), Rest.wr _ _ _ _ (by decide) (Rest.refl _ w)⟩

theorem World.rd_safeHigh_asserted (w : World) (b : Bool) : (w.wr .A (safeRel b) 0 1).rd .A F.PWR_SAFE.ASSERTED = w.rd .A F.PWR_SAFE.ASSERTED := by
  cases b <;> exact World.rd_wr_apart _ _ _ _ _ _ _ _ (by decide)

theorem World.rd_safeUpdate_rel (w : World) (b : Bool) : w.safeUpdate.rd .A (safeRel b) = w.rd .A (safeRel b) := by
  cases b <;> exact World.rd_safeUpdate _ _ _ (by decide) (by decide)

theorem World.safeAsked_of_low {w : World} {b : Bool} (hlow : w.rd .A (safeRel b) = 0) : w.safeAsked = true := by
  cases b <;> simp [World.safeAsked, World.flag, safeRel] at hlow ⊢ <;> simp [hlow]

theorem World.safeAsked_of_high {w : World} {b : Bool} (hhigh : w.rd .A (safeRel b) = 1) :
    w.safeAsked = decide (w.rd .A F.PWR_SAFE.DISC = 1 ∨ w.rd .A (safeRel !b) = 0) := by
  have hbit := w.rd_bit .A (safeRel !b) 0 (by cases b <;> rfl)
  rw [Bool.eq_iff_iff, decide_eq_true_iff]
  cases b <;>
  · simp only [World.safeAsked, World.flag, safeRel, Bool.not_true, Bool.not_false, if_true, if_false, Bool.false_eq_true, Bool.or_eq_true,
      Bool.not_eq_true', decide_eq_false_iff_not, decide_eq_true_eq] at hhigh hbit ⊢
    omega

theorem World.flags_disagree {w : World} :
    (w.flag .A F.PWR_SAFE.A_REL != w.flag .A F.PWR_SAFE.B_REL) = true ↔ w.rd .A F.PWR_SAFE.A_REL ≠ w.rd .A F.PWR_SAFE.B_REL := by
  have ha := w.rd_bit .A F.PWR_SAFE.A_REL 0 rfl
  have hb := w.rd_bit .A F.PWR_SAFE.B_REL 0 rfl
  rw [World.flag, World.flag, bne_iff_ne, Ne, decide_eq_decide]
  omega

end Sys2Proof.Machine

open Sys2Proof Sys2Proof.Machine

/-- Settles O60: PWR_SAFE follows the channels and DISC, and the rise and the fall reach every object that follows SAFE_OFF. -/
theorem safeOffChannels : Obligations.safeOffChannels := by
  unfold Obligations.safeOffChannels
  have hrel (b : Bool) : (if b = true then F.PWR_SAFE.B_REL else F.PWR_SAFE.A_REL) = safeRel b ∧
      (if b = true then F.PWR_SAFE.A_REL else F.PWR_SAFE.B_REL) = safeRel !b := by cases b <;> exact ⟨rfl, rfl⟩
  refine ⟨?assert, ?rise, ?release, ?fall, ?disc, ?agree⟩
  case assert =>
    intro b s
    rw [(hrel b).1, (hrel b).2]
    obtain ⟨hlow, hother, hdisc, hpart⟩ := s.w.safeLow_leaves b
    have hexec := exec_safeOffAssert b s
    have hasked : (s.w.safeLow b).safeAsked = true := World.safeAsked_of_low hlow
    refine .of_exec hexec ⟨?_, ?_, ?_, ?_, fun hoff => ?_, exec_quiet hexec rfl⟩
    · dsimp only
      rw [World.rd_safeUpdate_asserted, hasked]
      rfl
    · dsimp only
      rw [World.rd_safeUpdate_rel, hlow]
    · dsimp only
      rw [World.rd_safeUpdate_rel, hother]
    · dsimp only
      rw [World.rd_safeUpdate _ _ _ (by decide) (by decide), hdisc]
    · have hoff' : (s.w.safeLow b).safeOff = true := by
        rw [World.safeOff, World.flag_eq_true_iff, World.rd_safeLow_asserted]
        exact World.flag_eq_true_iff.mp hoff
      have hsame : (s.w.safeLow b).safeUpdate = (s.w.safeLow b).wr .A F.PWR_SAFE.ASSERTED 0 1 := by
        rw [World.safeUpdate_eq, hasked, hoff']
        rfl
      dsimp only
      rw [hsame]
      have hrest : Rest [.reg F.PWR_SAFE.DISC.reg] ((s.w.safeLow b).wr .A F.PWR_SAFE.ASSERTED 0 1) s.w := Rest.wr _ _ _ _ (by decide) hpart
      exact ⟨hrest.vlv (by decide), hrest.lsw (by decide), hrest.dsp (by decide), hrest.regsBut (by decide)⟩
  case rise =>
    intro b s hoff
    obtain ⟨hlow, -, -, hpart⟩ := s.w.safeLow_leaves b
    have hexec := exec_safeOffAssert b s
    have hasked : (s.w.safeLow b).safeAsked = true := World.safeAsked_of_low hlow
    have hoff' : (s.w.safeLow b).safeOff = false := by
      rw [World.safeOff, World.flag_eq_false_iff rfl, World.rd_safeLow_asserted]
      exact (World.flag_eq_false_iff rfl).mp hoff
    have hup : (s.w.safeLow b).safeUpdate = ((s.w.safeLow b).wr .A F.PWR_SAFE.ASSERTED 0 1).safeRise := by
      rw [World.safeUpdate_eq, hasked, hoff']
      rfl
    rw [hup] at hexec
    obtain ⟨hvalves, hswitches, hpanel⟩ := ((s.w.safeLow b).wr .A F.PWR_SAFE.ASSERTED 0 1).safeRise_leaves
    have hrest : Rest [.reg F.PWR_SAFE.DISC.reg] ((s.w.safeLow b).wr .A F.PWR_SAFE.ASSERTED 0 1) s.w := Rest.wr _ _ _ _ (by decide) hpart
    have hgren (k : Nat) := World.gren_congr (hrest.bp (by decide)) k
    refine .of_exec hexec ⟨fun ch hch hso => hvalves ch hch ((hgren ch).symm ▸ hso), fun n hn hso => hswitches n hn ((hgren _).symm ▸ hso),
      fun hso => hpanel ((hgren _).symm ▸ hso), fun f _ => ?_, exec_quiet hexec rfl⟩
    exact ((World.safeRise_rest _).rd _ _ _ (by decide)).trans (hrest.rd _ _ _ (by decide))
  case release =>
    intro b s
    rw [(hrel b).1, (hrel b).2]
    obtain ⟨hhigh, hother, hdisc, -⟩ := s.w.safeHigh_leaves b
    have hexec := exec_safeOffRelease b s
    refine .of_exec hexec ⟨?_, ?_, ?_, ?_, exec_quiet hexec rfl⟩
    · dsimp only
      rw [World.rd_safeUpdate_rel, hhigh]
    · dsimp only
      rw [World.rd_safeUpdate _ _ _ (by decide) (by decide), hdisc]
    · dsimp only
      rw [World.rd_safeUpdate_rel, hother]
    · dsimp only
      rw [World.rd_safeUpdate_asserted, World.safeAsked_of_high hhigh, hdisc, hother, b2n_eq_ite]
      simp only [decide_eq_true_eq]
  case fall =>
    intro b s hoff hdisc hother
    rw [(hrel b).2] at hother
    obtain ⟨hhigh, hother', hdisc', hpart⟩ := s.w.safeHigh_leaves b
    have hexec := exec_safeOffRelease b s
    have hasked : (s.w.wr .A (safeRel b) 0 1).safeAsked = false := by
      rw [World.safeAsked_of_high hhigh, hdisc', hother', hdisc, hother]
      rfl
    have hoff' : (s.w.wr .A (safeRel b) 0 1).safeOff = true := by
      rw [World.safeOff, World.flag_eq_true_iff, World.rd_safeHigh_asserted]
      exact World.flag_eq_true_iff.mp hoff
    have hdown : (s.w.wr .A (safeRel b) 0 1).safeUpdate = ((s.w.wr .A (safeRel b) 0 1).wr .A F.PWR_SAFE.ASSERTED 0 0).safeFall := by
      rw [World.safeUpdate_eq, hasked, hoff']
      rfl
    rw [hdown] at hexec
    have hrest : Rest [.reg F.PWR_SAFE.DISC.reg] ((s.w.wr .A (safeRel b) 0 1).wr .A F.PWR_SAFE.ASSERTED 0 0) s.w := Rest.wr _ _ _ _ (by decide) hpart
    obtain ⟨hvalves, hswitches⟩ := ((s.w.wr .A (safeRel b) 0 1).wr .A F.PWR_SAFE.ASSERTED 0 0).safeFall_leaves
    have hgren (k : Nat) := World.gren_congr (hrest.bp (by decide)) k
    refine .of_exec hexec ⟨?_, fun ch hch hso => ?_, fun n hn hso => ?_, exec_quiet hexec rfl⟩
    · dsimp only
      rw [World.safeOff, World.flag_eq_false_iff rfl, (World.safeFall_rest _).rd _ _ _ (by decide), World.rd_wr_same _ _ _ _ _ (by decide)]
      rfl
    · dsimp only
      rw [hvalves ch hch ((hgren ch).symm ▸ hso), hrest.rd _ _ _ (by decide), hrest.rd _ _ _ (by decide)]
    · dsimp only
      rw [hswitches n hn ((hgren _).symm ▸ hso), hrest.rd _ _ _ (by decide), hrest.rd _ _ _ (by decide)]
  case disc =>
    intro s hne
    have hexec : exec .safeOffDiscrepancy s = .next { s with w := (s.w.wr .A F.PWR_SAFE.DISC 0 1).safeUpdate } := by
      change execSafeOffDiscrepancy s = _
      rw [execSafeOffDiscrepancy, lift, World.flags_disagree.mpr hne, World.when_true]
    have hset : (s.w.wr .A F.PWR_SAFE.DISC 0 1).rd .A F.PWR_SAFE.DISC = 1 := World.rd_wr_same _ _ _ _ _ (by decide)
    refine .of_exec hexec ⟨?_, ?_, ?_, ?_, exec_quiet hexec rfl⟩
    · dsimp only
      rw [World.rd_safeUpdate _ _ _ (by decide) (by decide), hset]
    · dsimp only
      rw [World.rd_safeUpdate_asserted, World.safeAsked, World.flag_eq_true_iff.mpr hset, Bool.or_true]
      rfl
    · dsimp only
      rw [World.rd_safeUpdate _ _ _ (by decide) (by decide), World.rd_wr_apart _ _ _ _ _ _ _ _ (by decide)]
    · dsimp only
      rw [World.rd_safeUpdate _ _ _ (by decide) (by decide), World.rd_wr_apart _ _ _ _ _ _ _ _ (by decide)]
  case agree =>
    intro s heq
    refine .of_exec (t := s) ?_ rfl
    change execSafeOffDiscrepancy s = _
    have hsame : (s.w.flag .A F.PWR_SAFE.A_REL != s.w.flag .A F.PWR_SAFE.B_REL) = false := by
      rw [Bool.eq_false_iff]
      exact fun h => World.flags_disagree.mp h heq
    rw [execSafeOffDiscrepancy, lift, hsame, World.when_false]

end

section
/-!
SUPPORT. R455, R466–R468: what a move of ownership and the service state leave.
-/
namespace Sys2Proof.Machine

/-! The service state (R466). -/

/-- The service state shown in both halves. -/
theorem World.svcState_leaves (w : World) (h : Half) (st reason : Nat) : (w.svcState st reason).rd h F.STW_SVC_STAT.STATE = st % 16 ∧
    (w.svcState st reason).rd h F.STW_SVC_STAT.REASON = reason % 16 ∧ (w.svcState st reason).svc = w.svc := by
  obtain ⟨u, hu⟩ : ∃ u, (w.wrBoth F.STW_SVC_STAT.STATE 0 st).wrBoth F.STW_SVC_STAT.REASON 0 reason = u := ⟨_, rfl⟩
  have hst : u.rd h F.STW_SVC_STAT.STATE = st % 16 := by
    rw [← hu, World.rd_wrBoth_apart _ _ _ _ _ _ _ (by decide)]
    exact World.rd_wrBoth_same _ _ _ _ _ (by decide)
  have hreason : u.rd h F.STW_SVC_STAT.REASON = reason % 16 := hu ▸ World.rd_wrBoth_same _ _ _ _ _ (by decide)
  have hsvc : u.svc = w.svc := by rw [← hu, World.wrBoth_svc, World.wrBoth_svc]
  unfold World.svcState
  dsimp only
  rw [hu]
  split
  · exact ⟨hst, hreason, hsvc⟩
  · rw [World.rd_raiseBoth _ _ _ _ _ _ (by decide), World.rd_raiseBoth _ _ _ _ _ _ (by decide), World.raiseBoth_svc]
    exact ⟨hst, hreason, hsvc⟩

theorem World.rd_svcState (w : World) (st reason : Nat) (h : Half) (g : Field) (i : Nat) (hs : fieldsApart F.STW_SVC_STAT.STATE g = true)
    (hr : fieldsApart F.STW_SVC_STAT.REASON g = true) (hu : unlogged g = true) : (w.svcState st reason).rd h g i = w.rd h g i := by
  unfold World.svcState
  dsimp only
  split
  · rw [World.rd_wrBoth_apart _ _ _ _ _ _ _ hr, World.rd_wrBoth_apart _ _ _ _ _ _ _ hs]
  · rw [World.rd_raiseBoth _ _ _ _ _ _ hu, World.rd_wrBoth_apart _ _ _ _ _ _ _ hr, World.rd_wrBoth_apart _ _ _ _ _ _ _ hs]

theorem World.svcAsk_leaves (w : World) (h : Half) (op target : Nat) : (w.svcAsk op target).rd h F.STW_SVC_STAT.OP = op % 16 ∧
    (w.svcAsk op target).rd h F.STW_SVC_STAT.TARGET = target % 16 := by
  unfold World.svcAsk
  refine ⟨?_, ?_⟩
  · rw [World.rd_wrBoth_apart _ _ _ _ _ _ _ (by decide), World.rd_wrBoth_apart _ _ _ _ _ _ _ (by decide)]
    exact World.rd_wrBoth_same _ _ _ _ _ (by decide)
  · rw [World.rd_wrBoth_apart _ _ _ _ _ _ _ (by decide)]
    exact World.rd_wrBoth_same _ _ _ _ _ (by decide)

theorem World.svcAsk_asked (w : World) (op target : Nat) : Rest [.reg F.STW_SVC_STAT.STATE.reg] (w.svcAsk op target) w :=
  World.svcAsk_rest (by decide) (Rest.refl _ w)

/-- A request answered: the operation asked and the service state, and what else the answer may touch. -/
theorem World.svcAnswered (w : World) (h : Half) (op target st reason : Nat) :
    ((w.svcAsk op target).svcState st reason).rd h F.STW_SVC_STAT.STATE = st % 16 ∧
    ((w.svcAsk op target).svcState st reason).rd h F.STW_SVC_STAT.REASON = reason % 16 ∧
    ((w.svcAsk op target).svcState st reason).rd h F.STW_SVC_STAT.OP = op % 16 ∧
    ((w.svcAsk op target).svcState st reason).svc = w.svc ∧
    Rest [.evt, .reg F.EVT_STATUS.LOST.reg, .reg F.STW_SVC_STAT.STATE.reg] ((w.svcAsk op target).svcState st reason) w := by
  obtain ⟨hst, hreason, hsvc⟩ := (w.svcAsk op target).svcState_leaves h st reason
  refine ⟨hst, hreason, ?_, hsvc.trans ((w.svcAsk_asked op target).svc (by decide)), ?_⟩
  · rw [World.rd_svcState _ _ _ _ _ _ (by decide) (by decide) (by decide), (w.svcAsk_leaves h op target).1]
  · exact World.svcState_rest (by decide) (World.svcAsk_rest (by decide) (Rest.refl _ w))

/-! Tokens passed by their owner (R455). -/

/-- One object handed over, and its handover done. -/
def State.passOne (giver : Half) (s : State) (k : Nat) : State := (s.handover giver k).handoverDone k

theorem State.low_settle (s : State) (h : Half) (k : Nat) : (s.settle h k).own.low = s.own.low := by
  unfold State.settle
  split
  · exact State.when_keeps (·.own.low) rfl
  · exact State.when_keeps (·.own.low) rfl
  · exact State.when_keeps (·.own.low) rfl

theorem State.low_handover (s : State) (h : Half) (k : Nat) : (s.handover h k).own.low = s.own.low := by
  unfold State.handover
  split
  · rfl
  · split
    · rfl
    · split
      · rfl
      · rw [State.own_onW, State.leaves_own]
        rfl

theorem State.low_handoverDone (s : State) (k : Nat) : (s.handoverDone k).own.low = s.own.low := by
  unfold State.handoverDone
  split
  · rw [State.low_settle]
    exact State.when_keeps (·.own.low) rfl
  · rfl

theorem State.low_passOne (giver : Half) (s : State) (k : Nat) : (s.passOne giver k).own.low = s.own.low :=
  (State.low_handoverDone _ _).trans (State.low_handover _ _ _)

/-- The registers a pass writes: none that says whether a half accepts. -/
theorem State.accepts_passOne (giver h : Half) (s : State) (k : Nat) : (s.passOne giver k).accepts h = s.accepts h := by
  have hrest : Rest [.evt, .dsp, .reg 0x100018, .reg 0x30010C, .reg 0xF00018] (s.passOne giver k).w s.w :=
    State.handoverDone_rest (by decide) (State.handover_rest (by decide) (Rest.refl _ _))
  rw [State.accepts, Own.alive, State.low_passOne, World.flag, hrest.rd _ _ _ (by decide), State.accepts, Own.alive, World.flag]

/-- An owner's object goes to a sibling that accepts; no other token moves. -/
theorem State.token_passOne {giver : Half} {s : State} {k : Nat} (hk : k < nObj) (ho : s.own.owns giver k = true) (ha : s.accepts giver.other = true) :
    ((s.passOne giver k).own.token k).st = .owned giver.other ∧ ∀ j, j ≠ k → (s.passOne giver k).own.token j = s.own.token j := by
  have hst : (s.own.token k).st = .owned giver := by simpa [Own.owns] using ho
  obtain ⟨halive, hacc⟩ : s.own.alive giver.other = true ∧ s.w.flag giver.other F.OWN_CTRL.ACCEPT = true := by simpa [State.accepts] using ha
  obtain ⟨u, hu⟩ : ∃ u, s.handover giver k = u := ⟨_, rfl⟩
  have htok (j : Nat) : u.own.token j =
      if j = k then { s.own.token k with st := .claiming giver.other (some giver), at_ := s.w.now } else s.own.token j := by
    rw [← hu, State.handover_accepted hk hst halive hacc, State.own_onW, State.leaves_own, State.token_claiming]
  have hdone (j : Nat) : (u.handoverDone k).own.token j =
      if j = k then { u.own.token k with st := .owned giver.other, last := some giver.other } else u.own.token j := by
    have hclaim : (u.own.token k).st = .claiming giver.other (some giver) := by rw [htok, if_pos rfl]
    unfold State.handoverDone
    rw [hclaim]
    dsimp only
    rw [State.settle_token]
    refine (State.when_keeps (fun v : State => v.own.token j) rfl).trans ?_
    exact State.token_owned _ _ _ _
  unfold State.passOne
  rw [hu]
  refine ⟨?_, fun j hj => ?_⟩
  · rw [hdone, if_pos rfl]
  · rw [hdone, if_neg hj, htok, if_neg hj]

/-- Every object of a list passed: each goes to the sibling, the other tokens stay. -/
theorem State.token_passAll {giver : Half} {l : List Nat} (hl : l.Nodup) (s : State) (hk : ∀ k ∈ l, k < nObj ∧ s.own.owns giver k = true)
    (ha : s.accepts giver.other = true) :
    (∀ k ∈ l, ((s.forAll l (State.passOne giver)).own.token k).st = .owned giver.other) ∧
    ∀ j ∉ l, (s.forAll l (State.passOne giver)).own.token j = s.own.token j := by
  unfold State.forAll
  induction l generalizing s with
  | nil => exact ⟨nofun, fun _ _ => rfl⟩
  | cons k l ih =>
    obtain ⟨hkl, hl'⟩ := List.nodup_cons.mp hl
    obtain ⟨hlt, howns⟩ := hk k List.mem_cons_self
    obtain ⟨hpassed, hother⟩ := State.token_passOne hlt howns ha
    obtain ⟨hin, hout⟩ := ih hl' (s.passOne giver k)
      (fun j hj => by
        obtain ⟨hj1, hj2⟩ := hk j (List.mem_cons_of_mem k hj)
        refine ⟨hj1, ?_⟩
        rw [Own.owns, hother j (fun h => hkl (h ▸ hj)), ← Own.owns, hj2])
      ((State.accepts_passOne _ _ _ _).trans ha)
    refine ⟨fun j hj => ?_, fun j hj => ?_⟩
    · obtain rfl | hj := List.mem_cons.mp hj
      · exact (congrArg Token.st (hout _ hkl)).trans hpassed
      · exact hin j hj
    · simp only [List.mem_cons, not_or] at hj
      exact (hout j hj.2).trans (hother j hj.1)

/-- A move before its objects pass: the FINAL state committed. -/
def State.moveBegun (s : State) (giver : Half) (g : List Nat) : State :=
  (s.onW fun w => w.raise giver 6 (evArg (g.headD 0) 0xFF 0)).onW fun w => w.when (w.mirrors giver.other) fun w => w.forAll g fun w n =>
      w.takeFn giver.other n

theorem State.moveGroup_own (s : State) (giver : Half) (g : List Nat) : (s.moveGroup giver g).own =
    ((s.moveBegun giver g).forAll ((s.w.groupObjs giver g).filter (s.own.owns giver)) (State.passOne giver)).own := rfl

theorem State.accepts_moveBegun (s : State) (giver h : Half) (g : List Nat) : (s.moveBegun giver g).accepts h = s.accepts h := by
  have hrest : Rest [.evt, .set, .reg 0x100018, .reg 0x400040, .reg 0x400044, .reg 0x400048, .reg 0x40004C, .reg 0x400050, .reg 0x400280,
      .reg 0x400300, .reg 0x400380, .reg 0x400400] (s.moveBegun giver g).w s.w :=
    Rest.onW (Rest.onW (Rest.refl _ _) fun _ e => Rest.raise _ _ _ (by decide) e) fun _ e => Rest.when e fun _ d => Rest.forAll d fun _ _ f =>
      World.takeFn_rest (by decide) f
  rw [State.accepts, World.flag, hrest.rd _ _ _ (by decide), State.accepts, World.flag]
  rfl

/-- A whole group moved to a sibling that accepts (R455). -/
theorem State.token_moveGroup {s : State} {giver : Half} {g : List Nat} (hown : s.ownsGroup giver g = true) (ha : s.accepts giver.other = true) :
    (∀ k ∈ s.w.groupObjs giver g, (s.moveGroup giver g).own.owns giver.other k = true) ∧
    State.TokensBut (s.w.groupObjs giver g) s (s.moveGroup giver g) := by
  have hall : ∀ k ∈ s.w.groupObjs giver g, s.own.owns giver k = true := by
    unfold State.ownsGroup at hown
    simp only [Bool.and_eq_true, List.all_eq_true] at hown
    exact hown.2
  have hfilter : (s.w.groupObjs giver g).filter (s.own.owns giver) = s.w.groupObjs giver g := List.filter_eq_self.mpr hall
  obtain ⟨hin, hout⟩ := State.token_passAll (giver := giver) (l := s.w.groupObjs giver g) (List.nodup_range.filter _) (s.moveBegun giver g)
    (fun k hk => ⟨List.mem_range.mp (List.mem_filter.mp hk).1, hall k hk⟩) ((State.accepts_moveBegun _ _ _ _).trans ha)
  refine ⟨fun k hk => ?_, fun k hk => ?_⟩
  · rw [Own.owns, State.moveGroup_own, hfilter, hin k hk]
    exact decide_eq_true rfl
  · rw [State.moveGroup_own, hfilter, hout k hk]
    rfl

theorem State.low_moveGroup (s : State) (giver : Half) (g : List Nat) : (s.moveGroup giver g).own.low = s.own.low := by
  rw [State.moveGroup_own]
  exact State.forAll_keeps (·.own.low) (State.low_passOne giver) _ _

theorem State.low_handoverAllNow (s : State) (h : Half) : (s.handoverAllNow h).own.low = s.own.low := by
  have hall : (s.handoverAll h).own.low = s.own.low := by
    unfold State.handoverAll
    split
    · rfl
    · dsimp only
      split
      · rfl
      · change (s.forAll (s.own.ownedBy h) fun s k => (s.claiming k h.other (some h)).leaves k).own.low = _
        refine State.forAll_keeps (·.own.low) (fun u k => ?_) _ _
        rw [State.leaves_own]
        rfl
  unfold State.handoverAllNow
  exact (State.forAll_keeps (·.own.low) State.low_handoverDone _ _).trans hall

theorem State.low_serverReq (s : State) (h : Half) : (s.serverReq h).own.low = s.own.low := by
  refine State.when_keeps (·.own.low) ?_
  change (s.onOwn fun o => { o with server := some h }).replayJournal.own.low = _
  rw [State.replayJournal_own]
  rfl

end Sys2Proof.Machine
end

section
/-!
PROOF. O52: moves, preparations, and the exchange of a cartridge.
-/
namespace Sys2Proof.Machine

/-! PREPARE_HALF (R467). -/

/-- What the preparation of a half does between its announcement and its end. -/
def State.prepareMoves (s : State) (x : Half) : State :=
  let o := x.other
  let s := s.forAll (fnGroups (s.w.funcs x).recs) fun s g => s.when (s.ownsGroup x g && s.accepts o) (·.moveGroup x g)
  let s := s.handoverAllNow x
  let s := s.onW fun w => w.when (w.mirrors o) fun w => (w.takeClass o 3).mirrorYield x
  let s := s.when (s.own.serves x) State.replayJournal
  (s.fence x).serverReq o

/-- The preparation announced. -/
def World.prepareBegun (w : World) : World := (w.updSvc fun v => { v with busy := true }).svcState 1 0

/-- The preparation ended. -/
def World.prepareEnded (w : World) (x : Half) : World := (w.updSvc fun v => { v with prepared := some x, readyAt := w.now }).svcState 2 0

theorem State.prepareHalf_eq (s : State) (x : Half) :
    s.prepareHalf x = ((s.onW World.prepareBegun).prepareMoves x).onW (·.prepareEnded x) := rfl

/-- What the moves of a preparation touch. -/
def movesParts : List Part := prepareParts.filter fun p => p ≠ .svc ∧ p ≠ .reg 0xA4

theorem State.prepareMoves_rest (s : State) (x : Half) : Rest movesParts (s.prepareMoves x).w s.w := by
  unfold State.prepareMoves
  extract_lets o s1 s2 s3 s4
  have h1 : Rest movesParts s1.w s.w := Rest.forAllS (Rest.refl _ _) fun u a hu => Rest.whenS hu fun u hu => State.moveGroup_rest (by decide) hu
  clear_value s1
  have h2 : Rest movesParts s2.w s.w := State.handoverAllNow_rest (by decide) h1
  clear_value s2
  have h3 : Rest movesParts s3.w s.w :=
    Rest.onW h2 fun u hu => Rest.when hu fun u hu => World.mirrorYield_rest (by decide) (World.takeClass_rest (by decide) hu)
  clear_value s3
  have h4 : Rest movesParts s4.w s.w := Rest.whenS h3 fun u hu => State.replayJournal_rest (by decide) hu
  clear_value s4
  exact State.serverReq_rest (by decide) (State.fence_rest (by decide) h4)

/-- The half prepared is fenced; its sibling serves. -/
theorem State.prepareMoves_own {s : State} {x : Half} (ha : s.own.alive x.other = true) :
    (s.prepareMoves x).own.alive x = false ∧ (s.prepareMoves x).own.server = some x.other := by
  unfold State.prepareMoves
  extract_lets o s1 s2 s3 s4
  have h1 : s1.own.low = s.own.low := State.forAll_keeps (·.own.low) (fun u a => State.when_keeps (·.own.low) (State.low_moveGroup _ _ _)) _ _
  clear_value s1
  have h2 : s2.own.low = s.own.low := (State.low_handoverAllNow _ _).trans h1
  clear_value s2
  have h3 : s3.own.low = s.own.low := h2
  clear_value s3
  have h4 : s4.own.low = s.own.low := (State.when_keeps (·.own.low) (congrArg Own.low (State.replayJournal_own _))).trans h3
  clear_value s4
  have hx : (s4.fence x).own.alive x = false := (State.fence_fenced s4 x).2
  have ho : (s4.fence x).own.alive x.other = true := by
    rw [State.fence, Own.alive, State.fall_low, Two.get_set_ne _ _ (Half.other_ne x)]
    change (s4.own.low.get x.other).alive = true
    rw [h4]
    exact ha
  obtain ⟨hserver, -⟩ := State.serverReq_granted (s := s4.fence x) (h := o) ho (.inr ((congrArg _ (Half.other_other x)).trans hx))
  refine ⟨?_, hserver⟩
  rw [Own.alive, State.low_serverReq, ← Own.alive, hx]

theorem World.prepareBegun_leaves (w : World) (h : Half) (g : Field) (hs : fieldsApart F.STW_SVC_STAT.STATE g = true)
    (hr : fieldsApart F.STW_SVC_STAT.REASON g = true) (hu : unlogged g = true) : w.prepareBegun.rd h g = w.rd h g ∧
    w.prepareBegun.svc = { w.svc with busy := true } :=
  ⟨(World.rd_svcState _ _ _ _ _ _ hs hr hu).trans rfl, (World.svcState_leaves _ h _ _).2.2.trans rfl⟩

theorem World.prepareEnded_leaves (w : World) (x h : Half) : (w.prepareEnded x).rd h F.STW_SVC_STAT.STATE = 2 ∧
    (w.prepareEnded x).rd h F.STW_SVC_STAT.OP = w.rd h F.STW_SVC_STAT.OP ∧ (w.prepareEnded x).rd h F.STW_SVC_STAT.TARGET = w.rd h F.STW_SVC_STAT.TARGET ∧
    (w.prepareEnded x).svc = { w.svc with prepared := some x, readyAt := w.now } := by
  obtain ⟨hst, -, hsvc⟩ := (w.updSvc fun v => { v with prepared := some x, readyAt := w.now }).svcState_leaves h 2 0
  exact ⟨hst, World.rd_svcState _ _ _ _ _ _ (by decide) (by decide) (by decide), World.rd_svcState _ _ _ _ _ _ (by decide) (by decide) (by decide),
    hsvc.trans rfl⟩

/-- A half prepared (R467). -/
theorem State.prepareHalf_leaves {s : State} {x : Half} (h : Half) (ha : s.own.alive x.other = true) :
    (s.prepareHalf x).w.rd h F.STW_SVC_STAT.STATE = 2 ∧ (s.prepareHalf x).w.rd h F.STW_SVC_STAT.OP = s.w.rd h F.STW_SVC_STAT.OP ∧
    (s.prepareHalf x).w.rd h F.STW_SVC_STAT.TARGET = s.w.rd h F.STW_SVC_STAT.TARGET ∧ (s.prepareHalf x).w.svc.prepared = some x ∧
    (s.prepareHalf x).w.svc.busy = true ∧ (s.prepareHalf x).own.alive x = false ∧ (s.prepareHalf x).own.server = some x.other := by
  have hrest := (s.onW World.prepareBegun).prepareMoves_rest x
  obtain ⟨hdead, hserver⟩ := State.prepareMoves_own (s := s.onW World.prepareBegun) (x := x) ha
  rw [State.prepareHalf_eq]
  obtain ⟨u, hu⟩ : ∃ u, (s.onW World.prepareBegun).prepareMoves x = u := ⟨_, rfl⟩
  rw [hu] at hrest hdead hserver ⊢
  obtain ⟨hst, hop, htarget, hsvc⟩ := u.w.prepareEnded_leaves x h
  obtain ⟨hop0, hsvc0⟩ := s.w.prepareBegun_leaves h F.STW_SVC_STAT.OP (by decide) (by decide) (by decide)
  obtain ⟨htarget0, -⟩ := s.w.prepareBegun_leaves h F.STW_SVC_STAT.TARGET (by decide) (by decide) (by decide)
  have hsvcu : u.w.svc = { s.w.svc with busy := true } := (hrest.svc (by decide)).trans hsvc0
  refine ⟨hst, hop.trans ((hrest.rd _ _ _ (by decide)).trans hop0), htarget.trans ((hrest.rd _ _ _ (by decide)).trans htarget0), ?_, ?_, hdead, hserver⟩
  · exact congrArg Service.prepared hsvc
  · exact (congrArg Service.busy hsvc).trans (congrArg Service.busy hsvcu)

end Sys2Proof.Machine
end

section
/-!
PROOF. O52: service requests.
-/
namespace Sys2Proof.Machine

/-! The request's end (R467). -/

/-- The request dropped, before a prepared half restarts. -/
def World.svcDropped (w : World) : World := (w.updSvc fun v => { v with prepared := none, tile := 0, busy := false }).svcState 0 6

theorem State.svcEnd_none {s : State} (hp : s.w.svc.prepared = none) : s.svcEnd = s.onW World.svcDropped := by
  unfold State.svcEnd
  dsimp only
  rw [hp]
  rfl

theorem State.svcEnd_some {s : State} {x : Half} (hp : s.w.svc.prepared = some x) : s.svcEnd = (s.onW World.svcDropped).restart x 2 := by
  unfold State.svcEnd
  dsimp only
  rw [hp]
  rfl

theorem World.svcDropped_leaves (w : World) (h : Half) : w.svcDropped.rd h F.STW_SVC_STAT.STATE = 0 ∧ w.svcDropped.rd h F.STW_SVC_STAT.REASON = 6 ∧
    w.svcDropped.svc = { w.svc with prepared := none, tile := 0, busy := false } ∧
    Rest [.evt, .svc, .reg F.EVT_STATUS.LOST.reg, .reg F.STW_SVC_STAT.STATE.reg] w.svcDropped w := by
  obtain ⟨hst, hreason, hsvc⟩ := (w.updSvc fun v => { v with prepared := none, tile := 0, busy := false }).svcState_leaves h 0 6
  exact ⟨hst, hreason, hsvc.trans rfl, World.svcState_rest (by decide) (World.updSvc_rest (by decide) (Rest.refl _ w))⟩

/-- A half that comes out of reset leaves the other half's registers but those it shows. -/
theorem World.rd_halfFresh_other (w : World) {h g : Half} (cause : Nat) (f : Field) (i : Nat) (hg : g ≠ h)
    (hf : (!partIn shownParts (.reg f.reg) && decide (f.reg < 2 ^ 25)) = true) : (w.halfFresh h cause).rd g f i = w.rd g f i := by
  have hfile (v : World) : World.rd { v with regs := v.regs.upd h (keepRegs keptReset) } g f i = v.rd g f i := by
    simp only [World.rd, World.reg, World.file, Two.get_upd_ne _ _ hg]
  rw [(w.halfFresh_shown h cause).rd _ _ _ hf]
  unfold World.freshUnits
  dsimp only
  rw [World.rd_wr_half _ _ _ _ _ _ hg rfl, World.rd_wr_half _ _ _ _ _ _ hg rfl, World.rd_wr_half _ _ _ _ _ _ hg rfl]
  exact hfile w

/-- The service state of the half that stays, through the restart of its sibling. -/
theorem State.restart_svc (s : State) (x : Half) (cause : Nat) :
    (s.restart x cause).w.rd x.other F.STW_SVC_STAT.STATE = s.w.rd x.other F.STW_SVC_STAT.STATE ∧
    (s.restart x cause).w.rd x.other F.STW_SVC_STAT.REASON = s.w.rd x.other F.STW_SVC_STAT.REASON ∧
    (s.restart x cause).w.svc = s.w.svc := by
  have hkept (f : Field) (hshown : (!partIn shownParts (.reg f.reg) && decide (f.reg < 2 ^ 25)) = true)
      (hheld : (s.hold x cause).w.rd x.other f = s.w.rd x.other f) : (s.restart x cause).w.rd x.other f = s.w.rd x.other f := by
    unfold State.restart
    cases (s.hold x cause).mayRun x with
    | false => exact hheld
    | true =>
      obtain ⟨hrd, -⟩ := (s.hold x cause).letRun_leaves x cause
      rw [State.when_true, hrd, World.rd_halfFresh_other _ _ _ _ (Half.other_ne x) hshown, hheld]
  have hrest := State.hold_rest (h := x) (cause := cause) (by decide) (Rest.refl [.run, .evt, .vlv, .lsw, .can, .pwr, .dsp, .reg 0x100018,
    .reg 0x30010C, .reg 0x500028, .reg 0x500080, .reg 0x600024, .reg 0x600030, .reg 0x700080, .reg 0x900030, .reg 0x900044, .reg 0xB00018,
    .reg 0xF00018, .reg 0x1000020, .reg 0x1000044] s.w)
  exact ⟨hkept _ (by decide) (hrest.rd _ _ _ (by decide)), hkept _ (by decide) (hrest.rd _ _ _ (by decide)),
    (State.restart_rest (q0 := allBut .svc) (by decide) (Rest.refl _ _)).svc (by decide)⟩

/-- A request with a prepared half dropped: the other half shows it (R467). -/
theorem State.svcEnd_leaves {s : State} {x : Half} (hp : s.w.svc.prepared = some x) :
    s.svcEnd.w.rd x.other F.STW_SVC_STAT.STATE = 0 ∧ s.svcEnd.w.rd x.other F.STW_SVC_STAT.REASON = 6 ∧
    s.svcEnd.w.svc.prepared = none ∧ s.svcEnd.w.svc.busy = false := by
  obtain ⟨hst, hreason, hsvc, -⟩ := s.w.svcDropped_leaves x.other
  obtain ⟨hst', hreason', hsvc'⟩ := (s.onW World.svcDropped).restart_svc x 2
  rw [State.svcEnd_some hp]
  exact ⟨hst'.trans hst, hreason'.trans hreason, (congrArg Service.prepared (hsvc'.trans hsvc)), congrArg Service.busy (hsvc'.trans hsvc)⟩

/-! PREPARE_TILE (R469). -/

theorem World.chanBusy_congr {w v : World} (ch : Nat) (hrun : w.rd .A F.VLV_STATUS.RUN ch = v.rd .A F.VLV_STATUS.RUN ch)
    (hi : w.rd .A F.VLV_CUR.I ch = v.rd .A F.VLV_CUR.I ch) (hv : w.vlv = v.vlv) : w.chanBusy ch = v.chanBusy ch := by
  have heng : w.eng ch = v.eng ch := by simp only [World.eng, hv]
  simp only [World.chanBusy, World.flag, hrun, hi, heng]

/-- What a request asked leaves of what its answer looks at. -/
theorem World.svcAsk_looks (w : World) (op target : Nat) : (w.svcAsk op target).updating = w.updating ∧ (w.svcAsk op target).svc = w.svc ∧
    (∀ ch, (w.svcAsk op target).chanBusy ch = w.chanBusy ch) ∧ (∀ ch, (w.svcAsk op target).twinHealthy ch = w.twinHealthy ch) := by
  have e := w.svcAsk_asked op target
  have hrd (f : Field) (i : Nat) (hf : (!partIn [Part.reg F.STW_SVC_STAT.STATE.reg] (.reg f.reg) && decide (f.reg < 2 ^ 25)) = true) :
      (w.svcAsk op target).rd .A f i = w.rd .A f i := e.rd _ _ _ hf
  refine ⟨?_, e.svc (by decide), fun ch => ?_, fun ch => ?_⟩
  · have hsess (g : Half) : (w.svcAsk op target).sessOpen g = w.sessOpen g :=
      funext fun r => by
        rw [World.sessOpen, World.sessState, e.rd g F.UPD_SESS.STATE r (by decide)]
        rfl
    simp only [World.updating, World.anySess, hsess, show (w.svcAsk op target).act = w.act from e.act (by decide)]
  · exact World.chanBusy_congr ch (hrd _ _ (by decide)) (hrd _ _ (by decide)) (e.vlv (by decide))
  · simp only [World.twinHealthy, World.twin, World.flag, hrd F.VLV_RCP.TWIN _ (by decide), hrd F.VLV_RCP.PARTNER _ (by decide),
      hrd F.VLV_TILE.PRESENT _ (by decide), hrd F.VLV_STATUS.FAULT _ (by decide)]
    rfl

/-- The answer to PREPARE_TILE: refused, or the tile prepared (R469). -/
def World.tileAnswer (w : World) (t : Nat) : World :=
  if 6 ≤ t || !w.flag .A F.VLV_TILE.PRESENT t then w.svcState 3 5
  else if w.updating then w.svcState 3 3
  else if w.svc.busy then w.svcState 3 7
  else match (tileChans t).find? (fun c => w.chanBusy c && !w.twinHealthy c) with
    | some c => (w.wrBoth F.STW_SVC_STAT.OBJ 0 (objV c)).svcState 3 4
    | none => (w.updSvc fun v => { v with tile := t + 1, busy := true, readyAt := w.now }).svcState 2 0

theorem World.tileAnswer_op (w : World) (t : Nat) (h : Half) : (w.tileAnswer t).rd h F.STW_SVC_STAT.OP = w.rd h F.STW_SVC_STAT.OP := by
  have hst (v : World) (st reason : Nat) : (v.svcState st reason).rd h F.STW_SVC_STAT.OP = v.rd h F.STW_SVC_STAT.OP :=
    World.rd_svcState _ _ _ _ _ _ (by decide) (by decide) (by decide)
  unfold World.tileAnswer
  split
  · exact hst _ _ _
  split
  · exact hst _ _ _
  split
  · exact hst _ _ _
  split
  · exact (hst _ _ _).trans (World.rd_wrBoth_apart _ _ _ _ _ _ _ (by decide))
  · exact hst _ _ _

theorem World.tileAnswer_absent {w : World} {t : Nat} (h : Half) (ht : 6 ≤ t ∨ w.flag .A F.VLV_TILE.PRESENT t = false) :
    (w.tileAnswer t).rd h F.STW_SVC_STAT.STATE = 3 ∧ (w.tileAnswer t).rd h F.STW_SVC_STAT.REASON = 5 := by
  have hc : (6 ≤ t || !w.flag .A F.VLV_TILE.PRESENT t) = true := by simpa using ht
  obtain ⟨hst, hreason, -⟩ := w.svcState_leaves h 3 5
  rw [World.tileAnswer, if_pos hc]
  exact ⟨hst, hreason⟩

/-- The answer about a tile that is there. -/
theorem World.tileAnswer_there {w : World} {t : Nat} (ht : t < 6) (hp : w.flag .A F.VLV_TILE.PRESENT t = true) :
    w.tileAnswer t = if w.updating then w.svcState 3 3
      else if w.svc.busy then w.svcState 3 7
      else match (tileChans t).find? (fun c => w.chanBusy c && !w.twinHealthy c) with
        | some c => (w.wrBoth F.STW_SVC_STAT.OBJ 0 (objV c)).svcState 3 4
        | none => (w.updSvc fun v => { v with tile := t + 1, busy := true, readyAt := w.now }).svcState 2 0 := by
  have hc : ¬(6 ≤ t || !w.flag .A F.VLV_TILE.PRESENT t) = true := by simp [hp, Nat.not_le.mpr ht]
  rw [World.tileAnswer, if_neg hc]

theorem World.tileAnswer_busy {w : World} {t : Nat} (h : Half) (hu : w.updating = false) (hb : w.svc.busy = false) (ht : t < 6)
    (hp : w.flag .A F.VLV_TILE.PRESENT t = true) (hc : ∃ c ∈ tileChans t, w.chanBusy c = true ∧ w.twinHealthy c = false) :
    (w.tileAnswer t).rd h F.STW_SVC_STAT.STATE = 3 ∧ (w.tileAnswer t).rd h F.STW_SVC_STAT.REASON = 4 ∧ (w.tileAnswer t).svc = w.svc := by
  obtain ⟨c, hc, hbusy, htwin⟩ := hc
  cases hf : (tileChans t).find? fun c => w.chanBusy c && !w.twinHealthy c with
  | none => simpa [hbusy, htwin] using List.find?_eq_none.mp hf c hc
  | some k =>
    obtain ⟨hst, hreason, hsvc⟩ := (w.wrBoth F.STW_SVC_STAT.OBJ 0 (objV k)).svcState_leaves h 3 4
    rw [World.tileAnswer_there ht hp, if_neg (by simp [hu]), if_neg (by simp [hb]), hf]
    exact ⟨hst, hreason, hsvc.trans (World.wrBoth_svc _ _ _ _)⟩

theorem World.tileAnswer_ready {w : World} {t : Nat} (h : Half) (hu : w.updating = false) (hb : w.svc.busy = false) (ht : t < 6)
    (hp : w.flag .A F.VLV_TILE.PRESENT t = true) (hc : ∀ c ∈ tileChans t, w.chanBusy c = false ∨ w.twinHealthy c = true) :
    (w.tileAnswer t).rd h F.STW_SVC_STAT.STATE = 2 ∧ (w.tileAnswer t).svc.tile = t + 1 ∧ (w.tileAnswer t).svc.busy = true ∧
    (w.tileAnswer t).svc.readyAt = w.now := by
  have hf : (tileChans t).find? (fun c => w.chanBusy c && !w.twinHealthy c) = none := by
    refine List.find?_eq_none.mpr fun c hmem => ?_
    obtain hbusy | htwin := hc c hmem
    · simp [hbusy]
    · simp [htwin]
  obtain ⟨hst, -, hsvc⟩ := (w.updSvc fun v => { v with tile := t + 1, busy := true, readyAt := w.now }).svcState_leaves h 2 0
  rw [World.tileAnswer_there ht hp, if_neg (by simp [hu]), if_neg (by simp [hb]), hf]
  refine ⟨hst, ?_, ?_, ?_⟩
  all_goals rw [hsvc]; rfl

end Sys2Proof.Machine
end

section
/-!
PROOF. O52: each request and its answer.
-/

namespace Sys2Proof.Machine

theorem State.moveGroup_kept (s : State) (giver : Half) (g : List Nat) :
    (s.moveGroup giver g).ledger = s.ledger ∧ (s.moveGroup giver g).bus = s.bus ∧ (s.moveGroup giver g).w.svc = s.w.svc := by
  have hside := State.moveGroup_side (giver := giver) (g := g) (q0 := [.own]) (by decide) (Side.refl _ s)
  exact ⟨hside.ledger_kept (by decide), hside.2.2.2 (by decide), (State.moveGroup_rest (q0 := allBut .svc) (by decide) (Rest.refl _ _)).svc (by decide)⟩

/-- A half that is in service for no exchange keeps its service state (R466). -/
theorem State.service_ongoing {s : State} (o : Half) (hst : s.w.rd .A F.STW_SVC_STAT.STATE ≠ 5) :
    (s.onW fun w => w.when (w.rd .A F.STW_SVC_STAT.STATE = 5 && s.qualifies o) fun w => w.svcState 6 0) = s := by
  have hw : s.w.when (s.w.rd .A F.STW_SVC_STAT.STATE = 5 && s.qualifies o) (fun w => w.svcState 6 0) = s.w := by
    rw [decide_eq_false hst]
    rfl
  exact congrArg (fun w => { s with w := w }) hw

/-- An answer written in one step, by a half that lives. -/
theorem State.when_lives {s : State} {h : Half} {f : State → State} (hrun : (s.w.run.get h).running = true) (halive : s.own.alive h = true) :
    s.when ((s.w.run.get h).running && s.own.alive h) f = f s := by
  rw [hrun, halive]
  rfl

/-- The sibling of a half that may be prepared lives (R467). -/
theorem State.sibling_alive {s : State} {x : Half} (hwhy : s.prepareRefusal x = 0) : s.own.alive x.other = true := by
  unfold State.prepareRefusal at hwhy
  dsimp only at hwhy
  split at hwhy
  · cases hwhy
  split at hwhy
  · cases hwhy
  next hready =>
    simp only [Bool.not_eq_true, Bool.not_eq_false', Bool.and_eq_true] at hready
    exact hready.1.1.1

/-- A refusal has one of the codes of R467. -/
theorem State.refusal_code {s : State} {target : Nat} (hn : 2 ≤ target ∨ s.prepareRefusal (halfOf target) ≠ 0) :
    (if 2 ≤ target then 5 else s.prepareRefusal (halfOf target)) ≠ 0 ∧ (if 2 ≤ target then 5 else s.prepareRefusal (halfOf target)) < 16 := by
  have hlt : s.prepareRefusal (halfOf target) < 16 := by
    unfold State.prepareRefusal
    dsimp only
    split_ifs
    all_goals decide
  split
  · decide
  · next ht => exact ⟨hn.resolve_left ht, hlt⟩

/-! FAN_LIFE_RESET and HOLDUP_LIFE_RESET (R473). -/

def World.fanLife (w : World) (h : Half) : World :=
  if w.inService h then ((w.wrBoth F.STW_LIFE_FAN.HOURS 0 0).wrBoth F.STW_LIFE_FAN.DUE 0 0).svcState 6 0 else w.svcState 3 8

def World.holdLife (w : World) (h : Half) : World :=
  if w.inService h then (((w.wrBoth F.STW_LIFE_HOLD.ENERGY 0 0).wrBoth F.STW_LIFE_HOLD.DUE 0 0).wrBoth F.STW_LIFE_HOLD.FAIL 0 0).svcState 6 0
  else w.svcState 3 8

theorem World.fanLife_op (w : World) (h : Half) : (w.fanLife h).rd h F.STW_SVC_STAT.OP = w.rd h F.STW_SVC_STAT.OP := by
  unfold World.fanLife
  split
  · rw [World.rd_svcState _ _ _ _ _ _ (by decide) (by decide) (by decide), World.rd_wrBoth_apart _ _ _ _ _ _ _ (by decide),
      World.rd_wrBoth_apart _ _ _ _ _ _ _ (by decide)]
  · exact World.rd_svcState _ _ _ _ _ _ (by decide) (by decide) (by decide)

theorem World.holdLife_op (w : World) (h : Half) : (w.holdLife h).rd h F.STW_SVC_STAT.OP = w.rd h F.STW_SVC_STAT.OP := by
  unfold World.holdLife
  split
  · rw [World.rd_svcState _ _ _ _ _ _ (by decide) (by decide) (by decide), World.rd_wrBoth_apart _ _ _ _ _ _ _ (by decide),
      World.rd_wrBoth_apart _ _ _ _ _ _ _ (by decide), World.rd_wrBoth_apart _ _ _ _ _ _ _ (by decide)]
  · exact World.rd_svcState _ _ _ _ _ _ (by decide) (by decide) (by decide)

theorem World.fanLife_served {w : World} {h : Half} (hin : w.inService h = true) : (w.fanLife h).rd h F.STW_LIFE_FAN.HOURS = 0 ∧
    (w.fanLife h).rd h F.STW_LIFE_FAN.DUE = 0 ∧ (w.fanLife h).rd h F.STW_SVC_STAT.STATE = 6 := by
  obtain ⟨hst, -⟩ := ((w.wrBoth F.STW_LIFE_FAN.HOURS 0 0).wrBoth F.STW_LIFE_FAN.DUE 0 0).svcState_leaves h 6 0
  rw [World.fanLife, hin, if_pos rfl]
  refine ⟨?_, ?_, hst⟩
  · rw [World.rd_svcState _ _ _ _ _ _ (by decide) (by decide) (by decide), World.rd_wrBoth_apart _ _ _ _ _ _ _ (by decide)]
    exact World.rd_wrBoth_same _ _ _ _ _ (by decide)
  · rw [World.rd_svcState _ _ _ _ _ _ (by decide) (by decide) (by decide)]
    exact World.rd_wrBoth_same _ _ _ _ _ (by decide)

theorem World.holdLife_served {w : World} {h : Half} (hin : w.inService h = true) : (w.holdLife h).rd h F.STW_LIFE_HOLD.ENERGY = 0 ∧
    (w.holdLife h).rd h F.STW_LIFE_HOLD.DUE = 0 ∧ (w.holdLife h).rd h F.STW_LIFE_HOLD.FAIL = 0 ∧ (w.holdLife h).rd h F.STW_SVC_STAT.STATE = 6 := by
  obtain ⟨hst, -⟩ :=
    (((w.wrBoth F.STW_LIFE_HOLD.ENERGY 0 0).wrBoth F.STW_LIFE_HOLD.DUE 0 0).wrBoth F.STW_LIFE_HOLD.FAIL 0 0).svcState_leaves h 6 0
  rw [World.holdLife, hin, if_pos rfl]
  refine ⟨?_, ?_, ?_, hst⟩
  · rw [World.rd_svcState _ _ _ _ _ _ (by decide) (by decide) (by decide), World.rd_wrBoth_apart _ _ _ _ _ _ _ (by decide),
      World.rd_wrBoth_apart _ _ _ _ _ _ _ (by decide)]
    exact World.rd_wrBoth_same _ _ _ _ _ (by decide)
  · rw [World.rd_svcState _ _ _ _ _ _ (by decide) (by decide) (by decide), World.rd_wrBoth_apart _ _ _ _ _ _ _ (by decide)]
    exact World.rd_wrBoth_same _ _ _ _ _ (by decide)
  · rw [World.rd_svcState _ _ _ _ _ _ (by decide) (by decide) (by decide)]
    exact World.rd_wrBoth_same _ _ _ _ _ (by decide)

/-! The exchange of a cartridge (R468). -/

/-- What the opening of the cartridge's presence loop leaves in the service state. -/
def World.cartridgeGone (w : World) (h : Half) : World :=
  ((w.updSvc fun v => { v with
    presence := v.presence.set h false, busy := v.busy && v.tile ≠ 0, prepared := if v.prepared = some h then none else v.prepared }).updRun h
      fun r => { r with selfFenced := false }).svcState 4 0

theorem World.cartridgeGone_leaves (w : World) (h g : Half) :
    (w.cartridgeGone h).svc = { w.svc with
      presence := w.svc.presence.set h false, busy := w.svc.busy && w.svc.tile ≠ 0
      prepared := if w.svc.prepared = some h then none else w.svc.prepared } ∧
    (w.cartridgeGone h).rd g F.STW_SVC_STAT.STATE = 4 ∧ ((w.cartridgeGone h).run.get h).running = (w.run.get h).running := by
  unfold World.cartridgeGone
  obtain ⟨u, hu⟩ : ∃ u, (w.updSvc fun v => { v with
    presence := v.presence.set h false, busy := v.busy && v.tile ≠ 0, prepared := if v.prepared = some h then none else v.prepared }).updRun h
      (fun r => { r with selfFenced := false }) = u := ⟨_, rfl⟩
  rw [hu]
  obtain ⟨hst, -, hsvc⟩ := u.svcState_leaves g 4 0
  refine ⟨hsvc.trans (hu ▸ rfl), hst, ?_⟩
  rw [(World.svcState_rest (q0 := allBut .run) (by decide) (Rest.refl _ u)).run (by decide), ← hu]
  change ((w.run.upd h fun r => { r with selfFenced := false }).get h).running = _
  rw [Two.get_upd_same]

/-- What a cartridge brings with it. -/
def World.cartridgePut (w : World) (h : Half) (c : Option Cartridge) : World :=
  match c with
  | none => w
  | some c =>
    let r := keepRegs (fun k => k < 0x1300000) (w.regs.get h)
    let put (r : RegFile) (x : Nat × Word) : RegFile :=
      let k := x.1 % 2 ^ 25
      if 0x1300200 ≤ k && k < 0x1300480 then NMap.set (regReset k) r x.1 x.2 else r
    let r := c.cup.foldl put r
    { w with
      roast := w.roast.set h c.roast, upd := w.upd.set h c.upd, regs := w.regs.set h r, opt := w.opt.set h {}, yld := w.yld.set h {}
      gns := w.gns.set h {}, tim := w.tim.set h { stored := c.stored } }

/-- The presence loop closed. -/
def World.presented (w : World) (h : Half) : World :=
  w.updSvc fun v => { v with presence := v.presence.set h true, present0 := v.present0.set h (w.now + 1) }

def World.cartridgeIn (w : World) (h : Half) (c : Option Cartridge) : World := (((w.halfOff h).cartridgePut h c).presented h).svcState 5 0

end Sys2Proof.Machine

open Sys2Proof Sys2Proof.Machine

/-- Settles O52: each request is answered by its lemma; a move passes a whole group. -/
theorem serviceRequests : Obligations.serviceRequests := by
  unfold Obligations.serviceRequests
  refine ⟨?move, ?moveNot, ?back, ?backNot, ?prep, ?prepNot, ?tile, ?fanReset, ?holdReset, ?cancel, ?cancelHalf, ?ignored, ?timeout, ?timeoutNot,
    ?opened, ?openNot, ?insert, ?insertNot⟩
  case move =>
    intro h n s g hg hrun hown
    have hexec : exec (.plannedMove h n) s = .next (if s.accepts h.other then s.moveGroup h g
        else s.onW fun w => w.ownResult h ((s.w.groupObjs h g).headD 0) 4 false) := by
      change execPlannedMove h n s = _
      unfold execPlannedMove
      dsimp only
      rw [← hg, hrun, hown]
      rfl
    cases ha : s.accepts h.other with
    | true =>
      obtain ⟨hledger, hbus, -⟩ := s.moveGroup_kept h g
      obtain ⟨htok, hbut⟩ := State.token_moveGroup hown ha
      rw [ha, if_pos rfl] at hexec
      exact .of_exec hexec ⟨fun _ => htok, nofun, hbut, hledger, hbus⟩
    | false =>
      rw [ha, if_neg (by decide)] at hexec
      refine .of_exec hexec ⟨nofun, fun _ => ⟨rfl, ?_⟩, fun _ _ => rfl, rfl, rfl⟩
      rw [State.onW_w, World.ownResult, World.rd_wr_apart _ _ _ _ _ _ _ _ (by decide)]
      exact World.rd_wr_same _ _ _ _ _ (by decide)
  case moveNot =>
    intro h n s hn
    refine .of_exec (t := s) ?_ rfl
    change execPlannedMove h n s = _
    unfold execPlannedMove
    obtain hn | hn := hn
    · dsimp only
      rw [hn, Bool.false_and]
      rfl
    · dsimp only
      rw [hn, Bool.and_false]
      rfl
  case back =>
    intro s h g l hserver hst hfind hg hat ha
    have hexec : exec .handbackMove s = .next ((s.onW fun w => w.updSvc fun v => { v with lastMove := w.now }).moveGroup g.other l) := by
      change execHandbackMove s = _
      unfold execHandbackMove
      rw [hserver]
      dsimp only
      rw [State.service_ongoing _ hst, hfind]
      dsimp only
      rw [decide_eq_true (show s.w.svc.lastMove + 20 * ms ≤ s.w.now from hat), Bool.true_or]
      change Host.Outcome.next ((s.onW fun w => w.updSvc fun v => { v with lastMove := w.now }).when
        (s.accepts (groupHome ((s.w.funcs h).recs) h l).other.other) (·.moveGroup (groupHome ((s.w.funcs h).recs) h l).other l)) = _
      rw [← hg, Half.other_other, ha]
      rfl
    have hown : s.ownsGroup g.other l = true := by
      have hmem := List.mem_of_find?_eq_some hfind
      simp only [State.awayGroups, hserver, List.mem_filter, State.awayGroup, ← hg] at hmem
      exact hmem.2
    have ha' : s.accepts g.other.other = true := (Half.other_other g).symm ▸ ha
    obtain ⟨hledger, -, hsvc⟩ := (s.onW fun w => w.updSvc fun v => { v with lastMove := w.now }).moveGroup_kept g.other l
    obtain ⟨htok, hbut⟩ := State.token_moveGroup (s := s.onW fun w => w.updSvc fun v => { v with lastMove := w.now }) (giver := g.other) (g := l) hown ha'
    rw [Half.other_other] at htok
    exact .of_exec hexec ⟨htok, hbut, congrArg Service.lastMove hsvc, hledger⟩
  case backNot =>
    intro s hn
    refine .of_exec (t := s) ?_ rfl
    change execHandbackMove s = _
    unfold execHandbackMove
    cases hserver : s.own.server with
    | none => rfl
    | some h =>
      obtain hn | ⟨hst, hq⟩ := hn
      · cases hserver.symm.trans hn
      · dsimp only
        have hnone : s.awayGroups.find? (fun g => s.qualifies (groupHome ((s.w.funcs h).recs) h g)) = none :=
          List.find?_eq_none.mpr fun g hg => by simp [hq g hg]
        rw [State.service_ongoing _ hst, hnone]
  case prep =>
    intro h init target s x hrun halive ht hx hwhy
    have hexec : exec (.prepareHalf h init target) s = .next ((s.onW fun w => w.svcAsk 1 target).prepareHalf x) := by
      refine (congrArg Host.Outcome.next (State.when_lives hrun halive)).trans ?_
      dsimp only
      rw [if_neg (Nat.not_le.mpr ht), ← hx, hwhy]
      rfl
    have hsib : s.own.alive x.other = true := State.sibling_alive hwhy
    obtain ⟨hst, hop, htarget, hrest⟩ := State.prepareHalf_leaves (s := s.onW fun w => w.svcAsk 1 target) (x := x) h hsib
    obtain ⟨hop1, htarget1⟩ := s.w.svcAsk_leaves h 1 target
    exact .of_exec hexec ⟨hst, hop.trans hop1, (htarget.trans htarget1).trans (Nat.mod_eq_of_lt (Nat.lt_of_lt_of_le ht (by decide))), hrest⟩
  case prepNot =>
    intro h init target s hrun halive hn
    obtain ⟨why, hwhy⟩ : ∃ why, (if 2 ≤ target then 5 else s.prepareRefusal (halfOf target)) = why := ⟨_, rfl⟩
    have hne : why ≠ 0 ∧ why < 16 := hwhy ▸ State.refusal_code hn
    have hexec : exec (.prepareHalf h init target) s = .next (s.onW fun w => (w.svcAsk 1 target).svcState 3 why) := by
      refine (congrArg Host.Outcome.next (State.when_lives hrun halive)).trans ?_
      dsimp only
      rw [hwhy, if_pos hne.1]
      rfl
    obtain ⟨hst, hreason, -, hsvc, hrest⟩ := s.w.svcAnswered h 1 target 3 why
    exact .of_exec hexec ⟨hst, (hreason.trans (Nat.mod_eq_of_lt hne.2)).trans hwhy.symm, hsvc, hrest.regsBut rfl, rfl, rfl, rfl, rfl⟩
  case tile =>
    intro h init tl s hrun halive
    have hexec : exec (.prepareTile h init tl) s = .next (s.onW fun w => (w.svcAsk 2 tl).tileAnswer tl) :=
      congrArg Host.Outcome.next (State.when_lives hrun halive)
    obtain ⟨hupd, hsvc, hbusy, htwin⟩ := s.w.svcAsk_looks 2 tl
    have hpres : (s.w.svcAsk 2 tl).rd .A F.VLV_TILE.PRESENT tl = s.w.rd .A F.VLV_TILE.PRESENT tl :=
      (s.w.svcAsk_asked 2 tl).rd _ _ _ (by decide)
    have hflag : (s.w.svcAsk 2 tl).flag .A F.VLV_TILE.PRESENT tl = decide (s.w.rd .A F.VLV_TILE.PRESENT tl = 1) := by rw [World.flag, hpres]
    refine .of_exec hexec ⟨fun hn => ?_, fun ht hp hu => ?_, fun ht hp hu hb => ?_, fun ht hp hu hb hc => ?_, fun ht hp hu hb hc => ?_, ?_,
      exec_regsBut hexec rfl, exec_quiet hexec rfl⟩
    · refine World.tileAnswer_absent h (hn.imp_right fun hp => ?_)
      rw [hflag, hp]
      rfl
    · obtain ⟨hst, hreason, -⟩ := (s.w.svcAsk 2 tl).svcState_leaves h 3 3
      rw [State.onW_w, World.tileAnswer_there ht (hflag.trans (decide_eq_true hp)), hupd, hu]
      exact ⟨hst, hreason⟩
    · obtain ⟨hst, hreason, -⟩ := (s.w.svcAsk 2 tl).svcState_leaves h 3 7
      rw [State.onW_w, World.tileAnswer_there ht (hflag.trans (decide_eq_true hp)), hupd, hu, hsvc, hb]
      exact ⟨hst, hreason⟩
    · simp only [← hbusy, ← htwin] at hc
      exact World.tileAnswer_ready h (hupd.trans hu) (hsvc ▸ hb) ht (hflag.trans (decide_eq_true hp)) hc
    · simp only [← hbusy, ← htwin] at hc
      obtain ⟨hst, hreason, hsvc'⟩ := World.tileAnswer_busy h (hupd.trans hu) (hsvc ▸ hb) ht (hflag.trans (decide_eq_true hp)) hc
      exact ⟨hst, hreason, hsvc'.trans hsvc⟩
    · exact (World.tileAnswer_op _ _ _).trans (World.svcAsk_leaves _ _ _ _).1
  case fanReset =>
    intro h init s hrun halive
    have hexec : exec (.fanReset h init) s = .next (s.onW fun w => (w.svcAsk 4 0).fanLife h) :=
      congrArg Host.Outcome.next (State.when_lives hrun halive)
    have hserv : (s.w.svcAsk 4 0).inService h = s.w.inService h := by
      rw [World.inService, (s.w.svcAsk_asked 4 0).rd _ _ _ (by decide), ← World.inService]
    refine .of_exec hexec ⟨?_, fun hin => ?_, fun hout => ?_, exec_regsBut hexec rfl, exec_quiet hexec rfl⟩
    · exact (World.fanLife_op _ _).trans (World.svcAsk_leaves _ _ _ _).1
    · exact World.fanLife_served (hserv.trans hin)
    · obtain ⟨hst, hreason, -, -, hrest⟩ := s.w.svcAnswered h 4 0 3 8
      rw [State.onW_w, World.fanLife, hserv, hout]
      exact ⟨hst, hreason, hrest.rd _ _ _ (by decide)⟩
  case holdReset =>
    intro h init s hrun halive
    have hexec : exec (.holdupReset h init) s = .next (s.onW fun w => (w.svcAsk 5 0).holdLife h) :=
      congrArg Host.Outcome.next (State.when_lives hrun halive)
    have hserv : (s.w.svcAsk 5 0).inService h = s.w.inService h := by
      rw [World.inService, (s.w.svcAsk_asked 5 0).rd _ _ _ (by decide), ← World.inService]
    refine .of_exec hexec ⟨?_, fun hin => ?_, fun hout => ?_, exec_regsBut hexec rfl, exec_quiet hexec rfl⟩
    · exact (World.holdLife_op _ _).trans (World.svcAsk_leaves _ _ _ _).1
    · exact World.holdLife_served (hserv.trans hin)
    · obtain ⟨hst, hreason, -, -, hrest⟩ := s.w.svcAnswered h 5 0 3 8
      rw [State.onW_w, World.holdLife, hserv, hout]
      exact ⟨hst, hreason, hrest.reg _ F.STW_LIFE_HOLD.ENERGY _ (by decide)⟩
  case cancel =>
    intro h init s hrun halive hbusy hp
    have hexec : exec (.svcCancel h init) s = .next (s.onW World.svcDropped) := by
      change execSvcCancel h init s = _
      unfold execSvcCancel
      rw [hrun, halive, hbusy]
      exact congrArg Host.Outcome.next (State.svcEnd_none hp)
    obtain ⟨hst, hreason, hsvc, hrest⟩ := s.w.svcDropped_leaves h
    exact .of_exec hexec ⟨hst, hreason, congrArg Service.busy hsvc, congrArg Service.tile hsvc, hrest.regsBut rfl, rfl, rfl, rfl, rfl⟩
  case cancelHalf =>
    intro h init s hrun halive hbusy hp
    have hexec : exec (.svcCancel h init) s = .next s.svcEnd := by
      change execSvcCancel h init s = _
      unfold execSvcCancel
      rw [hrun, halive, hbusy]
      rfl
    obtain ⟨hst, hreason, hprep, hb⟩ := State.svcEnd_leaves hp
    rw [Half.other_other] at hst hreason
    exact .of_exec hexec ⟨hst, hreason, hb, hprep⟩
  case ignored =>
    intro h init s c target hc hdown
    have hoff : ((s.w.run.get h).running && s.own.alive h) = false := by
      obtain hd | hd := hdown
      · rw [hd, Bool.false_and]
      · rw [hd, Bool.and_false]
    have hnone (f : State → State) : s.when ((s.w.run.get h).running && s.own.alive h) f = s := by
      rw [hoff]
      rfl
    refine .of_exec (t := s) ?_ rfl
    simp only [List.mem_cons, List.not_mem_nil, or_false] at hc
    obtain rfl | rfl | rfl | rfl | rfl := hc
    · exact congrArg Host.Outcome.next (hnone _)
    · exact congrArg Host.Outcome.next (hnone _)
    · change Host.Outcome.next (s.when _ _) = _
      rw [hoff, Bool.false_and]
      rfl
    · exact congrArg Host.Outcome.next (hnone _)
    · exact congrArg Host.Outcome.next (hnone _)
  case timeout =>
    intro s x hp hat
    have hexec : exec .prepareTimeout s = .next s.svcEnd := by
      change execPrepareTimeout s = _
      unfold execPrepareTimeout
      rw [hp, decide_eq_true (show s.w.svc.readyAt + 1800 * sec ≤ s.w.now from hat)]
      rfl
    exact .of_exec hexec (State.svcEnd_leaves hp)
  case timeoutNot =>
    intro s hn
    refine .of_exec (t := s) ?_ rfl
    change execPrepareTimeout s = _
    unfold execPrepareTimeout
    obtain hn | hn := hn
    · rw [hn]
      rfl
    · rw [decide_eq_false (show ¬s.w.svc.readyAt + 1800 * sec ≤ s.w.now from Nat.not_le.mpr hn), Bool.and_false]
      rfl
  case opened =>
    intro h s hpres
    have hexec : exec (.cartridgePresenceOpen h) s = .next (((s.fall h .detect).hold h 0).onW (·.cartridgeGone h)) := by
      change execCartridgePresenceOpen h s = _
      unfold execCartridgePresenceOpen
      rw [hpres]
      rfl
    have hlow := s.alive_fall h .detect
    have hside : Side [.own] ((s.fall h .detect).hold h 0) s := State.hold_side (by decide) (State.fall_side (by decide) (Side.refl _ s))
    have hrest : Rest (allBut .svc) ((s.fall h .detect).hold h 0).w s.w := State.hold_rest (by decide) (State.fall_rest (by decide) (Rest.refl _ _))
    have hheld := State.hold_of_low 0 hlow
    obtain ⟨hsvc, hst, hrun⟩ := ((s.fall h .detect).hold h 0).w.cartridgeGone_leaves h h.other
    have hs : ((s.fall h .detect).hold h 0).w.svc = s.w.svc := hrest.svc (by decide)
    refine .of_exec hexec ⟨?_, State.alive_fall _ _ _, ?_, fun ha => ?_, hst, fun hp => ?_, hside.ledger_kept (by decide), hside.2.2.2 (by decide)⟩
    · rw [State.onW_w, hsvc, Two.get_set_same]
    · rw [State.onW_w, hrun, State.run_hold, Two.get_upd_same]
    · rw [State.own_onW, hheld]
      exact State.fall_server .detect ha
    · rw [State.onW_w, hsvc, hs, if_pos hp]
  case openNot =>
    intro h s hpres
    refine .of_exec (t := s) ?_ rfl
    change execCartridgePresenceOpen h s = _
    unfold execCartridgePresenceOpen
    rw [hpres]
    rfl
  case insert =>
    intro h s k hpres halive
    have hexec : exec (.cartridgeInsert h k) s = .next ((s.onOwn fun o => { o with low := o.low.upd h fun l =>
        { l with detectOpen := false, heldReset := true, watchdog := false, fenced := false } }).onW (·.cartridgeIn h k)) := by
      change execCartridgeInsert h k s = _
      unfold execCartridgeInsert
      rw [hpres, halive]
      rfl
    obtain ⟨hst, -, hsvc⟩ := (((s.w.halfOff h).cartridgePut h k).presented h).svcState_leaves h.other 5 0
    refine .of_exec hexec ⟨?_, ?_, ?_, ?_, hst, fun _ _ => rfl, rfl, rfl⟩
    · refine (congrArg (fun v : Service => v.presence.get h) hsvc).trans ?_
      exact Two.get_set_same _ _ _
    · rw [State.own_onW, State.onOwn_own, Own.alive, Two.get_upd_same]
      simp [Low.alive]
    · rw [State.own_onW, State.onOwn_own, Two.get_upd_same]
    · rw [State.own_onW, State.onOwn_own, Two.get_upd_same]
  case insertNot =>
    intro h s k hn
    refine .of_exec (t := s) ?_ rfl
    change execCartridgeInsert h k s = _
    unfold execCartridgeInsert
    obtain hn | hn := hn
    · rw [hn]
      rfl
    · rw [hn, Bool.not_true, Bool.and_false]
      rfl
end

section
/-!
SUPPORT. R390–R401: what the parts of the discipline leave.
-/
namespace Sys2Proof.Machine

/-! The other half follows (R43, R391). -/

/-- A fold that writes fields of the other half leaves this half's. -/
theorem World.rd_foldl_other {l : List Field} (hl : ∀ g ∈ l, g.bp = false) (v : World → Field → Nat) (w : World) (h : Half) (f : Field) (i : Nat) :
    (l.foldl (fun w g => w.wr h.other g 0 (v w g)) w).rd h f i = w.rd h f i := by
  induction l generalizing w with
  | nil => rfl
  | cons g l ih =>
    rw [List.foldl_cons, ih fun x hx => hl x (List.mem_cons_of_mem g hx)]
    exact World.rd_wr_half _ _ _ _ _ _ (Half.ne_other h) (hl g List.mem_cons_self)

theorem World.tim_foldl_wr (l : List Field) (v : World → Field → Nat) (w : World) (h : Half) :
    (l.foldl (fun w g => w.wr h g 0 (v w g)) w).tim = w.tim := by
  induction l generalizing w with
  | nil => rfl
  | cons g l ih => rw [List.foldl_cons, ih, World.wr_tim]

/-- The half that is followed keeps its registers and its counter. -/
theorem World.timFollow_leader (w : World) (h : Half) (f : Field) (i : Nat) :
    (w.timFollow h).rd h f i = w.rd h f i ∧ (w.timFollow h).tim.get h = w.tim.get h := by
  unfold World.timFollow
  split
  · exact ⟨rfl, rfl⟩
  · dsimp only
    refine ⟨?_, ?_⟩
    · rw [World.rd_foldl_other (by decide) (fun w g => w.rd h g), World.rd_updTim]
    · rw [World.tim_foldl_wr _ (fun w g => w.rd h g), World.tim_updTim, Two.get_upd_ne _ _ (Half.ne_other h)]

theorem World.rd_timFollow (w : World) (h : Half) (f : Field) (i : Nat) : (w.timFollow h).rd h f i = w.rd h f i := (w.timFollow_leader h f i).1

theorem World.tim_timFollow (w : World) (h : Half) : (w.timFollow h).tim.get h = w.tim.get h := (w.timFollow_leader h F.TIM_STATUS.STATE 0).2

/-! The choice of the reference (R393). -/

theorem World.refChoice_congr {w v : World} {h : Half} (hg : w.rd h F.TIM_STATUS.GNSS_VALID = v.rd h F.TIM_STATUS.GNSS_VALID)
    (ht : w.rd h F.TIM_STATUS.IN_VALID = v.rd h F.TIM_STATUS.IN_VALID) (hr : w.rd h F.TIM_CTRL.REF = v.rd h F.TIM_CTRL.REF) :
    w.refChoice h = v.refChoice h := by
  unfold World.refChoice World.flag
  rw [hg, ht, hr]

theorem World.refChoice_lt (w : World) (h : Half) : w.refChoice h < 4 := by
  unfold World.refChoice
  dsimp only
  split
  · split_ifs <;> decide
  · split_ifs <;> decide
  · split_ifs <;> decide
  · decide

/-- The active reference set, the other fields as they were. -/
theorem World.setRef_leaves (w : World) (h : Half) (r : Nat) : (w.setRef h r).rd h F.TIM_STATUS.REF_ACT = r % 4 ∧ (w.setRef h r).tim = w.tim ∧
    ∀ g f i, fieldsApart F.TIM_STATUS.REF_ACT f = true → unlogged f = true → (w.setRef h r).rd g f i = w.rd g f i := by
  unfold World.setRef
  dsimp only
  rw [World.apply_when World.tim, World.raiseBoth_tim, ite_self, World.wr_tim]
  refine ⟨?_, rfl, fun g f i hf hu => ?_⟩
  · rw [World.rd_when, World.rd_raiseBoth _ _ _ _ _ _ (by decide), ite_self]
    exact World.rd_wr_same _ _ _ _ _ (by decide)
  · rw [World.rd_when, World.rd_raiseBoth _ _ _ _ _ _ hu, ite_self, World.rd_wr_apart _ _ _ _ _ _ _ _ hf]

/-! The state of module time (R394, R395). -/

/-- A field that the state of module time does not touch. -/
def timFree (f : Field) : Bool := fieldsApart F.TIM_STATUS.STATE f && fieldsApart F.TIM_STATUS.HOLDOVER f && unlogged f

theorem World.rd_setTimState (w : World) (h g : Half) (st : Nat) (f : Field) (i : Nat) (hf : timFree f = true) :
    (w.setTimState h st).rd g f i = w.rd g f i := by
  simp only [timFree, Bool.and_eq_true] at hf
  obtain ⟨⟨hst, hho⟩, hu⟩ := hf
  unfold World.setTimState
  dsimp only
  rw [World.rd_when, World.rd_raiseBoth _ _ _ _ _ _ hu, ite_self, World.rd_when, World.rd_updTim, ite_self, World.rd_wr_apart _ _ _ _ _ _ _ _ hho,
    World.rd_wr_apart _ _ _ _ _ _ _ _ hst]

theorem World.setTimState_leaves (w : World) (h : Half) (st : Nat) : (w.setTimState h st).rd h F.TIM_STATUS.STATE = st % 8 ∧
    (w.setTimState h st).rd h F.TIM_STATUS.HOLDOVER = b2n (st = 2) ∧ ∃ x, (w.setTimState h st).tim.get h = { w.tim.get h with holdAt := x } := by
  unfold World.setTimState
  dsimp only
  refine ⟨?_, ?_, ?_⟩
  · rw [World.rd_when, World.rd_raiseBoth _ _ _ _ _ _ (by decide), ite_self, World.rd_when, World.rd_updTim, ite_self,
      World.rd_wr_apart _ _ _ _ _ _ _ _ (by decide)]
    exact World.rd_wr_same _ _ _ _ _ (by decide)
  · rw [World.rd_when, World.rd_raiseBoth _ _ _ _ _ _ (by decide), ite_self, World.rd_when, World.rd_updTim, ite_self,
      World.rd_wr_same _ _ _ _ _ (by decide)]
    exact b2n_mod_two _
  · rw [World.apply_when World.tim, World.raiseBoth_tim, ite_self, World.apply_when World.tim, World.tim_updTim, World.wr_tim, World.wr_tim]
    split
    · exact ⟨_, Two.get_upd_same _ _ _⟩
    · exact ⟨_, rfl⟩

/-! The slew (R396). -/

/-- The slew ended where it stands: what it has moved is in the offset. -/
def TimSt.ended (t : TimSt) (now : Nat) : TimSt :=
  { t with offset := t.offset + t.part now, slew := none }

theorem World.endSlew_here (w : World) (h : Half) : w.endSlew h false = w.updTim h (·.ended w.now) := by
  unfold World.endSlew
  congr 1
  funext t
  unfold TimSt.ended TimSt.part
  cases t.slew with
  | none => rfl
  | some x => rfl

theorem World.endSlew_whole {w : World} {h : Half} {k : Nat} {n : Int} (hs : (w.tim.get h).slew = some (k, n)) :
    (w.endSlew h true).tim.get h = { w.tim.get h with offset := (w.tim.get h).offset + n, slew := none } := by
  rw [World.endSlew, World.tim_updTim, Two.get_upd_same, hs]
  rfl

@[simp] theorem World.rd_endSlew (w : World) (h : Half) (all : Bool) (g : Half) (f : Field) (i : Nat) : (w.endSlew h all).rd g f i = w.rd g f i := (rfl)

/-! A step decided (R397). -/

theorem World.decideStep_leaves (w : World) (h : Half) (x : Step_) : (w.decideStep h x).rd h F.TIM_STATUS.STEP_PEND = 1 ∧
    (w.decideStep h x).tim.get h = { w.tim.get h with step := some x } := by
  refine ⟨World.rd_wr_same _ _ _ _ _ (by decide), ?_⟩
  rw [World.decideStep, World.wr_tim, World.tim_updTim, Two.get_upd_same]

theorem World.rd_decideStep (w : World) (h g : Half) (x : Step_) (f : Field) (i : Nat) (hf : fieldsApart F.TIM_STATUS.STEP_PEND f = true) :
    (w.decideStep h x).rd g f i = w.rd g f i := World.rd_wr_apart _ _ _ _ _ _ _ _ hf

/-! An offset measured (R396). -/

/-- The offset shown, the slew in progress ended. -/
def World.offsetShown (w : World) (h : Half) (ofs : Int) : World :=
  (w.endSlew h false).wrI h F.TIM_OFS.VALUE 0 (clampI (-(2 ^ 31)) (2 ^ 31 - 1) ofs)

theorem World.offsetShown_leaves (w : World) (h : Half) (ofs : Int) : (w.offsetShown h ofs).tim.get h = (w.tim.get h).ended w.now ∧
    (w.offsetShown h ofs).now = w.now ∧
    ∀ g f i, fieldsApart F.TIM_OFS.VALUE f = true → (w.offsetShown h ofs).rd g f i = w.rd g f i := by
  unfold World.offsetShown
  rw [World.endSlew_here]
  refine ⟨?_, rfl, fun g f i hf => ?_⟩
  · rw [World.wrI, World.wr_tim, World.tim_updTim, Two.get_upd_same]
  · rw [World.rd_wrI_apart _ _ _ _ _ _ _ _ hf, World.rd_updTim]

/-- A slew begun. -/
def World.slewBegun (w : World) (h : Half) (ofs : Int) : World :=
  ((((w.updTim h fun t => { t with slew := some (w.now, ofs) }).setTimState h 3).bump h F.TIM_CNT.SLEWS).wrI h F.TIM_FREQ.VALUE 0
    (if ofs < 0 then -20000000 else 20000000)).raiseBoth 34 (evArg 0xFFFF 0xFF 1)

theorem World.slewBegun_leaves (w : World) (h : Half) (ofs : Int) : (w.slewBegun h ofs).rd h F.TIM_STATUS.STATE = 3 ∧
    (w.slewBegun h ofs).rd h F.TIM_CNT.SLEWS = satTo 8 (w.rd h F.TIM_CNT.SLEWS + 1) ∧
    ∃ x, (w.slewBegun h ofs).tim.get h = { w.tim.get h with slew := some (w.now, ofs), holdAt := x } := by
  obtain ⟨u, hu⟩ : ∃ u, (w.updTim h fun t => { t with slew := some (w.now, ofs) }) = u := ⟨_, rfl⟩
  obtain ⟨hst, -, x, htim⟩ := u.setTimState_leaves h 3
  unfold World.slewBegun
  rw [hu]
  refine ⟨?_, ?_, x, ?_⟩
  · rw [World.rd_raiseBoth _ _ _ _ _ _ (by decide), World.rd_wrI_apart _ _ _ _ _ _ _ _ (by decide), World.rd_bump_apart _ _ _ _ _ _ _ (by decide), hst]
  · rw [World.rd_raiseBoth _ _ _ _ _ _ (by decide), World.rd_wrI_apart _ _ _ _ _ _ _ _ (by decide), World.rd_bump_same _ _ _ _ (by decide),
      satInc_eq_satTo, World.rd_setTimState _ _ _ _ _ _ (by decide), ← hu]
    rfl
  · rw [World.raiseBoth_tim, World.wrI, World.wr_tim, World.bump, World.wr_tim, htim, ← hu, World.tim_updTim, Two.get_upd_same]

theorem World.takeOffset_eq (w : World) (h : Half) (ofs : Int) : w.takeOffset h ofs =
    if w.rd h F.TIM_STATUS.STATE = 0 || 500000 < ofs.natAbs then (w.offsetShown h ofs).decideStep h (.by_ ofs)
    else if ofs.natAbs ≤ 1000 then (w.offsetShown h ofs).setTimState h 1 else (w.offsetShown h ofs).slewBegun h ofs := by
  rw [← (w.offsetShown_leaves h ofs).2.2 h F.TIM_STATUS.STATE 0 (by decide)]
  rfl

/-- A field that a measured offset does not touch. -/
def offsetFree (f : Field) : Bool :=
  timFree f && fieldsApart F.TIM_OFS.VALUE f && fieldsApart F.TIM_STATUS.STEP_PEND f && fieldsApart F.TIM_CNT.SLEWS f && fieldsApart F.TIM_FREQ.VALUE f

theorem World.rd_takeOffset (w : World) (h g : Half) (ofs : Int) (f : Field) (i : Nat) (hf : offsetFree f = true) :
    (w.takeOffset h ofs).rd g f i = w.rd g f i := by
  simp only [offsetFree, Bool.and_eq_true] at hf
  obtain ⟨⟨⟨⟨hfree, hofs⟩, hstep⟩, hslews⟩, hfreq⟩ := hf
  have hu : unlogged f = true := by
    simp only [timFree, Bool.and_eq_true] at hfree
    exact hfree.2
  have hshown := (w.offsetShown_leaves h ofs).2.2 g f i hofs
  rw [World.takeOffset_eq]
  split_ifs
  · rw [World.rd_decideStep _ _ _ _ _ _ hstep, hshown]
  · rw [World.rd_setTimState _ _ _ _ _ _ hfree, hshown]
  · rw [World.slewBegun, World.rd_raiseBoth _ _ _ _ _ _ hu, World.rd_wrI_apart _ _ _ _ _ _ _ _ hfreq, World.rd_bump_apart _ _ _ _ _ _ _ hslews,
      World.rd_setTimState _ _ _ _ _ _ hfree, World.rd_updTim, hshown]

/-- Beyond 500 µs, and in UNSET, the offset is removed by a step. -/
theorem World.takeOffset_step {w : World} {h : Half} {ofs : Int} (hc : w.rd h F.TIM_STATUS.STATE = 0 ∨ 500000 < ofs.natAbs) :
    ((w.takeOffset h ofs).tim.get h).step = some (.by_ ofs) ∧ (w.takeOffset h ofs).rd h F.TIM_STATUS.STEP_PEND = 1 := by
  obtain ⟨hpend, htim⟩ := (w.offsetShown h ofs).decideStep_leaves h (.by_ ofs)
  rw [World.takeOffset_eq, if_pos (by simpa using hc), htim]
  exact ⟨rfl, hpend⟩

theorem World.takeOffset_lock {w : World} {h : Half} {ofs : Int} (hst : w.rd h F.TIM_STATUS.STATE ≠ 0) (ho : ofs.natAbs ≤ 1000) :
    (w.takeOffset h ofs).rd h F.TIM_STATUS.STATE = 1 ∧ (w.takeOffset h ofs).rd h F.TIM_STATUS.HOLDOVER = 0 := by
  obtain ⟨hlock, hhold, -⟩ := (w.offsetShown h ofs).setTimState_leaves h 1
  have hn : ¬500000 < ofs.natAbs := by omega
  rw [World.takeOffset_eq, if_neg (by simp [hst, hn]), if_pos ho]
  exact ⟨hlock, hhold⟩

theorem World.takeOffset_slew {w : World} {h : Half} {ofs : Int} (hst : w.rd h F.TIM_STATUS.STATE ≠ 0) (h1 : 1000 < ofs.natAbs)
    (h2 : ofs.natAbs ≤ 500000) : (w.takeOffset h ofs).rd h F.TIM_STATUS.STATE = 3 ∧ ((w.takeOffset h ofs).tim.get h).slew = some (w.now, ofs) ∧
    (w.takeOffset h ofs).rd h F.TIM_CNT.SLEWS = satTo 8 (w.rd h F.TIM_CNT.SLEWS + 1) := by
  obtain ⟨hslew, hcount, x, htim⟩ := (w.offsetShown h ofs).slewBegun_leaves h ofs
  obtain ⟨-, hnow, hrd⟩ := w.offsetShown_leaves h ofs
  rw [World.takeOffset_eq, if_neg (by simp [hst, Nat.not_lt.mpr h2]), if_neg (Nat.not_le.mpr h1), htim, hnow]
  exact ⟨hslew, rfl, hcount.trans (by rw [hrd _ _ _ (by decide)])⟩

/-- A measured offset leaves the leap second, the edges and GNSS's latch of the half. -/
theorem World.takeOffset_leap (w : World) (h : Half) (ofs : Int) : ((w.takeOffset h ofs).tim.get h).leap = (w.tim.get h).leap := by
  obtain ⟨htim, -, -⟩ := w.offsetShown_leaves h ofs
  rw [World.takeOffset_eq]
  split_ifs
  · obtain ⟨-, e⟩ := (w.offsetShown h ofs).decideStep_leaves h (.by_ ofs)
    rw [e, htim, TimSt.ended]
  · obtain ⟨-, -, x, e⟩ := (w.offsetShown h ofs).setTimState_leaves h 1
    rw [e, htim, TimSt.ended]
  · obtain ⟨-, -, x, e⟩ := (w.offsetShown h ofs).slewBegun_leaves h ofs
    rw [e, htim, TimSt.ended]

/-! A reference lost (R393, R394). -/

/-- HOLDOVER entered. -/
def World.heldOver (w : World) (h : Half) (c : Bool) : World := w.when c fun w => (w.endSlew h false).setTimState h 2

theorem World.refLost_eq (w : World) (h : Half) : w.refLost h = ((w.setRef h (w.refChoice h)).heldOver h
    (w.refChoice h = 0 && w.rd h F.TIM_STATUS.REF_ACT ≠ 0 && (w.setRef h (w.refChoice h)).rd h F.TIM_STATUS.STATE ≠ 0)).timFollow h := rfl

theorem World.rd_heldOver (w : World) (h g : Half) (c : Bool) (f : Field) (i : Nat) (hf : timFree f = true) :
    (w.heldOver h c).rd g f i = w.rd g f i := by
  cases c with
  | false => rfl
  | true => exact (World.rd_setTimState _ _ _ _ _ _ hf).trans (World.rd_endSlew _ _ _ _ _ _)

theorem World.heldOver_edges (w : World) (h : Half) (c : Bool) : ((w.heldOver h c).tim.get h).edges = (w.tim.get h).edges := by
  cases c with
  | false => rfl
  | true =>
    obtain ⟨-, -, x, e⟩ := (w.endSlew h false).setTimState_leaves h 2
    refine (congrArg TimSt.edges e).trans ?_
    rw [World.endSlew_here, World.tim_updTim, Two.get_upd_same, TimSt.ended]

/-- What the loss of a reference leaves at the half that disciplines. -/
theorem World.refLost_kept (w : World) (h : Half) (f : Field) (i : Nat) (ha : fieldsApart F.TIM_STATUS.REF_ACT f = true) (hf : timFree f = true) :
    (w.refLost h).rd h f i = w.rd h f i ∧ ((w.refLost h).tim.get h).edges = (w.tim.get h).edges := by
  have hu : unlogged f = true := by
    simp only [timFree, Bool.and_eq_true] at hf
    exact hf.2
  obtain ⟨-, htim, hrd⟩ := w.setRef_leaves h (w.refChoice h)
  rw [World.refLost_eq, World.rd_timFollow, World.tim_timFollow, World.rd_heldOver _ _ _ _ _ _ hf, World.heldOver_edges, hrd _ _ _ ha hu, htim]
  exact ⟨rfl, rfl⟩

theorem World.refLost_choice (w : World) (h : Half) : (w.refLost h).refChoice h = w.refChoice h ∧
    (w.refLost h).rd h F.TIM_STATUS.REF_ACT = (w.refLost h).refChoice h := by
  have hchoice : (w.refLost h).refChoice h = w.refChoice h := World.refChoice_congr (w.refLost_kept h _ 0 (by decide) (by decide)).1
    (w.refLost_kept h _ 0 (by decide) (by decide)).1 (w.refLost_kept h _ 0 (by decide) (by decide)).1
  refine ⟨hchoice, ?_⟩
  rw [hchoice, World.refLost_eq, World.rd_timFollow, World.rd_heldOver _ _ _ _ _ _ (by decide), (w.setRef_leaves h _).1]
  exact Nat.mod_eq_of_lt (w.refChoice_lt h)

theorem World.refLost_holdover {w : World} {h : Half} (hc : w.refChoice h = 0) (hact : w.rd h F.TIM_STATUS.REF_ACT ≠ 0)
    (hst : w.rd h F.TIM_STATUS.STATE ≠ 0) : (w.refLost h).rd h F.TIM_STATUS.STATE = 2 ∧ (w.refLost h).rd h F.TIM_STATUS.HOLDOVER = 1 ∧
    ((w.refLost h).tim.get h).slew = none := by
  have hcond : (w.refChoice h = 0 && w.rd h F.TIM_STATUS.REF_ACT ≠ 0 && (w.setRef h (w.refChoice h)).rd h F.TIM_STATUS.STATE ≠ 0) = true := by
    rw [(w.setRef_leaves h _).2.2 _ _ _ (by decide) (by decide)]
    simp [hc, hact, hst]
  obtain ⟨h2, hhold, x, htim⟩ := ((w.setRef h (w.refChoice h)).endSlew h false).setTimState_leaves h 2
  rw [World.refLost_eq, World.rd_timFollow, World.rd_timFollow, World.tim_timFollow, hcond]
  refine ⟨h2, hhold, (congrArg TimSt.slew htim).trans ?_⟩
  rw [World.endSlew_here, World.tim_updTim, Two.get_upd_same, TimSt.ended]

theorem World.refLost_stays {w : World} {h : Half}
    (hn : w.refChoice h ≠ 0 ∨ w.rd h F.TIM_STATUS.REF_ACT = 0 ∨ w.rd h F.TIM_STATUS.STATE = 0) :
    (w.refLost h).rd h F.TIM_STATUS.STATE = w.rd h F.TIM_STATUS.STATE := by
  have hcond : (w.refChoice h = 0 && w.rd h F.TIM_STATUS.REF_ACT ≠ 0 && (w.setRef h (w.refChoice h)).rd h F.TIM_STATUS.STATE ≠ 0) = false := by
    rw [(w.setRef_leaves h _).2.2 _ _ _ (by decide) (by decide)]
    obtain hn | hn | hn := hn
    · simp [hn]
    · simp [hn]
    · simp [hn]
  rw [World.refLost_eq, World.rd_timFollow, hcond]
  exact (w.setRef_leaves h _).2.2 _ _ _ (by decide) (by decide)

end Sys2Proof.Machine
end

section
/-!
SUPPORT. R397, R399, R401, R404: the instant of a step, an edge of TIME_IN, the pulse and its message.
-/
namespace Sys2Proof.Machine

/-! The step's instant (R397). -/

/-- What the step loses of a half's windows (R308, R368). -/
def World.windowsLost (w : World) (k : Half) : World := (w.grindStep k (w.mt k)).gnssStep k

/-- One half loads its counter. -/
def World.stepOne (d : Int) (w : World) (k : Half) : World :=
  ((((w.windowsLost k).endSlew k false).updTim k fun t => { t with offset := t.offset + d, step := none, phase := none }).wr k
    F.TIM_STATUS.STEP_PEND 0 0).bump k F.TIM_CNT.STEPS

theorem World.windowsLost_rest (w : World) (k : Half) :
    Rest [.evt, .grd, .reg F.EVT_STATUS.LOST.reg, .reg F.GRD_MISS.LO.reg, .reg F.GNS_CNT.LATE.reg] (w.windowsLost k) w :=
  World.gnssStep_rest (by decide) (World.grindStep_rest (by decide) (Rest.refl _ w))

theorem World.windowsLost_gather (w : World) (k h : Half) :
    ((w.windowsLost k).grd.get h).gather = if h = k then [] else (w.grd.get h).gather := by
  have hgrd : (w.windowsLost k).grd = (w.grindStep k (w.mt k)).grd :=
    (World.gnssStep_rest (q0 := allBut .grd) (by decide) (Rest.refl _ _)).grd (by decide)
  rw [hgrd]
  unfold World.grindStep
  dsimp only
  obtain ⟨u, hu⟩ : ∃ u, w.forAll (List.replicate (if (w.grd.get k).sec.isSome then 1 else 0) 0) (fun w _ => w.bump k F.GRD_MISS.LO) = u := ⟨_, rfl⟩
  have hkept : u.grd = w.grd := hu ▸ World.forAll_keeps World.grd (fun v _ => World.wr_grd v _ _ _ _) _ _
  rw [hu]
  change ((u.grd.upd k _).get h).gather = _
  rw [Two.get_upd, hkept]
  split
  · rfl
  · rfl

/-- The half that loads its counter. -/
theorem World.stepOne_leaves (w : World) (h : Half) (d : Int) :
    (w.stepOne d h).tim.get h = { (w.tim.get h).ended w.now with offset := ((w.tim.get h).ended w.now).offset + d, step := none, phase := none } ∧
    (w.stepOne d h).rd h F.TIM_STATUS.STEP_PEND = 0 ∧ (w.stepOne d h).rd h F.TIM_CNT.STEPS = satTo 8 (w.rd h F.TIM_CNT.STEPS + 1) ∧
    ((w.stepOne d h).grd.get h).gather = [] ∧ (w.stepOne d h).rd h F.TIM_CTRL.REF = w.rd h F.TIM_CTRL.REF := by
  have hlost := w.windowsLost_rest h
  have hgather := w.windowsLost_gather h h
  unfold World.stepOne
  obtain ⟨u, hu⟩ : ∃ u, w.windowsLost h = u := ⟨_, rfl⟩
  rw [hu] at hlost hgather ⊢
  rw [World.endSlew_here]
  refine ⟨?_, ?_, ?_, ?_, ?_⟩
  · rw [World.bump, World.wr_tim, World.wr_tim, World.tim_updTim, Two.get_upd_same, World.tim_updTim, Two.get_upd_same, hlost.tim (by decide),
      hlost.now (by decide)]
  · rw [World.rd_bump_apart _ _ _ _ _ _ _ (by decide)]
    exact World.rd_wr_same _ _ _ _ _ (by decide)
  · rw [World.rd_bump_same _ _ _ _ (by decide), satInc_eq_satTo, World.rd_wr_apart _ _ _ _ _ _ _ _ (by decide), World.rd_updTim, World.rd_updTim,
      hlost.rd _ _ _ (by decide)]
  · rw [World.bump, World.wr_grd, World.wr_grd]
    exact hgather.trans (if_pos rfl)
  · rw [World.rd_bump_apart _ _ _ _ _ _ _ (by decide), World.rd_wr_apart _ _ _ _ _ _ _ _ (by decide), World.rd_updTim, World.rd_updTim,
      hlost.rd _ _ _ (by decide)]

/-- The other half loads its counter: this half keeps its own. -/
theorem World.stepOne_other (w : World) (h : Half) (d : Int) :
    (w.stepOne d h.other).tim.get h = w.tim.get h ∧ ((w.stepOne d h.other).grd.get h).gather = (w.grd.get h).gather ∧
    ∀ f i, (!partIn [.reg F.EVT_STATUS.LOST.reg, .reg F.GRD_MISS.LO.reg, .reg F.GNS_CNT.LATE.reg] (.reg f.reg) && decide (f.reg < 2 ^ 25)) = true →
      (w.stepOne d h.other).rd h f i = w.rd h f i := by
  have hlost := w.windowsLost_rest h.other
  have hgather := w.windowsLost_gather h.other h
  unfold World.stepOne
  obtain ⟨u, hu⟩ : ∃ u, w.windowsLost h.other = u := ⟨_, rfl⟩
  rw [hu] at hlost hgather ⊢
  rw [World.endSlew_here]
  refine ⟨?_, ?_, fun f i hf => ?_⟩
  · rw [World.bump, World.wr_tim, World.wr_tim, World.tim_updTim, Two.get_upd_ne _ _ (Half.ne_other h), World.tim_updTim,
      Two.get_upd_ne _ _ (Half.ne_other h), hlost.tim (by decide)]
  · rw [World.bump, World.wr_grd, World.wr_grd]
    exact hgather.trans (if_neg (Half.ne_other h))
  · rw [World.bump, World.rd_wr_half _ _ _ _ _ _ (Half.ne_other h) rfl, World.rd_wr_half _ _ _ _ _ _ (Half.ne_other h) rfl, World.rd_updTim,
      World.rd_updTim, hlost.rd _ _ _ hf]

/-- Both halves load their counters while the Crossing is UP. -/
def World.stepBoth (w : World) (d : Int) (h : Half) : World :=
  if (w.stepOne d h).rd h F.XNG_STATUS.UP = 1 then (w.stepOne d h).stepOne d h.other else w.stepOne d h

theorem World.stepBoth_leaves (w : World) (h : Half) (d : Int) :
    (w.stepBoth d h).tim.get h = { (w.tim.get h).ended w.now with offset := ((w.tim.get h).ended w.now).offset + d, step := none, phase := none } ∧
    (w.stepBoth d h).rd h F.TIM_STATUS.STEP_PEND = 0 ∧ (w.stepBoth d h).rd h F.TIM_CNT.STEPS = satTo 8 (w.rd h F.TIM_CNT.STEPS + 1) ∧
    ((w.stepBoth d h).grd.get h).gather = [] ∧ (w.stepBoth d h).rd h F.TIM_CTRL.REF = w.rd h F.TIM_CTRL.REF := by
  unfold World.stepBoth
  split
  · obtain ⟨htim, hgather, hrd⟩ := (w.stepOne d h).stepOne_other h d
    rw [htim, hgather, hrd _ _ (by decide), hrd _ _ (by decide), hrd _ _ (by decide)]
    exact w.stepOne_leaves h d
  · exact w.stepOne_leaves h d

/-- The keeper told of a step: the next pulse moves (R399). -/
def World.keeperTold (w : World) : World := { w with keeper := { w.keeper with stepped := true, notBefore := w.now + 500 * ms } }

/-- A step's end: the state, the event, and the keeper told. -/
def World.stepped (w : World) (h : Half) (st : Nat) : World :=
  ((w.setTimState h st).raiseBoth 32 (evArg 0xFFFF 0xFF 0)).keeperTold.timFollow h

theorem World.rd_stepped (w : World) (h : Half) (st : Nat) (f : Field) (hu : unlogged f = true) :
    (w.stepped h st).rd h f = (w.setTimState h st).rd h f := by
  rw [World.stepped, World.rd_timFollow]
  exact World.rd_raiseBoth _ _ _ _ _ _ hu

theorem World.stepped_leaves (w : World) (h : Half) (st : Nat) : (∃ x, (w.stepped h st).tim.get h = { w.tim.get h with holdAt := x }) ∧
    (w.stepped h st).rd h F.TIM_STATUS.STATE = st % 8 ∧ (w.stepped h st).rd h F.TIM_STATUS.STEP_PEND = w.rd h F.TIM_STATUS.STEP_PEND ∧
    (w.stepped h st).rd h F.TIM_CNT.STEPS = w.rd h F.TIM_CNT.STEPS ∧ (w.stepped h st).grd = w.grd ∧ (w.stepped h st).now = w.now ∧
    (w.stepped h st).keeper = { w.keeper with stepped := true, notBefore := w.now + 500 * ms } := by
  obtain ⟨hst, -, x, htim⟩ := w.setTimState_leaves h st
  have htold : (w.stepped h st).tim.get h = ((w.setTimState h st).raiseBoth 32 (evArg 0xFFFF 0xFF 0)).tim.get h := World.tim_timFollow _ _
  refine ⟨⟨x, htold.trans ((congrArg (·.get h) (World.raiseBoth_tim _ _ _)).trans htim)⟩, (w.rd_stepped h st _ (by decide)).trans hst,
    (w.rd_stepped h st _ (by decide)).trans (World.rd_setTimState _ _ _ _ _ _ (by decide)),
    (w.rd_stepped h st _ (by decide)).trans (World.rd_setTimState _ _ _ _ _ _ (by decide)), ?_⟩
  have hrest : Rest [.evt, .tim, .reg F.EVT_STATUS.LOST.reg, .reg F.TIM_STATUS.STATE.reg] ((w.setTimState h st).raiseBoth 32 (evArg 0xFFFF 0xFF 0)) w :=
    Rest.raiseBoth _ _ (by decide) (World.setTimState_rest (by decide) (Rest.refl _ w))
  unfold World.stepped
  obtain ⟨u, hu⟩ : ∃ u, (w.setTimState h st).raiseBoth 32 (evArg 0xFFFF 0xFF 0) = u := ⟨_, rfl⟩
  rw [hu] at hrest ⊢
  have hf : Rest [.tim, .reg 0x200010, .reg 0x200018, .reg 0x200048, .reg 0x200050, .reg 0x200054] (u.keeperTold.timFollow h) u.keeperTold :=
    World.timFollow_rest (by decide) (Rest.refl _ _)
  have hk : (u.keeperTold.timFollow h).keeper = u.keeperTold.keeper := hf.keeper (by decide)
  refine ⟨(hf.grd (by decide)).trans (hrest.grd (by decide)), (hf.now (by decide)).trans (hrest.now (by decide)), hk.trans ?_⟩
  rw [World.keeperTold, hrest.keeper (by decide), hrest.now (by decide)]

/-- What a step of module time leaves (R397). -/
theorem World.steppedBy_leaves (w : World) (h : Half) (d : Int) (st : Nat) :
    (((w.stepBoth d h).stepped h st).tim.get h).offset = (w.tim.get h).offset + (w.tim.get h).part w.now + d ∧
    (((w.stepBoth d h).stepped h st).tim.get h).step = none ∧ (((w.stepBoth d h).stepped h st).tim.get h).slew = none ∧
    ((w.stepBoth d h).stepped h st).rd h F.TIM_STATUS.STATE = st % 8 ∧ ((w.stepBoth d h).stepped h st).rd h F.TIM_STATUS.STEP_PEND = 0 ∧
    ((w.stepBoth d h).stepped h st).rd h F.TIM_CNT.STEPS = satTo 8 (w.rd h F.TIM_CNT.STEPS + 1) ∧
    (((w.stepBoth d h).stepped h st).grd.get h).gather = [] := by
  obtain ⟨htim, hpend, hsteps, hgather, -⟩ := w.stepBoth_leaves h d
  obtain ⟨⟨x, e⟩, hst, hpend2, hsteps2, hgrd, -, -⟩ := (w.stepBoth d h).stepped_leaves h st
  rw [e, htim, hst, hpend2, hsteps2, hgrd]
  exact ⟨rfl, rfl, rfl, rfl, hpend, hsteps, hgather⟩

theorem World.stepBoth_kept (w : World) (h : Half) (d : Int) : (w.stepBoth d h).now = w.now ∧ (w.stepBoth d h).keeper = w.keeper := by
  have hone (v : World) (k : Half) : (v.stepOne d k).now = v.now ∧ (v.stepOne d k).keeper = v.keeper := by
    have hlost := v.windowsLost_rest k
    unfold World.stepOne
    rw [World.bump, World.wr_now, World.wr_now, World.wr_keeper, World.wr_keeper]
    exact ⟨hlost.now (by decide), hlost.keeper (by decide)⟩
  unfold World.stepBoth
  split
  · exact ⟨(hone _ _).1.trans (hone _ _).1, (hone _ _).2.trans (hone _ _).2⟩
  · exact hone _ _

/-! An edge of TIME_IN (R401). -/

/-- A window within 10 µs of a second. -/
def edgeNear (a b : Nat) : Bool := a + sec ≤ b + 10000 && b ≤ a + sec + 10000

/-- The edges kept while TIME_IN is not valid. -/
def edgesWith (edges : List Nat) (t : Nat) : List Nat :=
  match edges with
  | l :: _ => if edgeNear l t then (t :: edges).take 3 else [t]
  | [] => [t]

/-- An edge before TIME_IN is valid. -/
def World.edgeSought (w : World) (h : Half) (t : Nat) : World :=
  let es := edgesWith (w.tim.get h).edges t
  if 3 ≤ es.length then
    ((w.updTim h fun x => { x with edges := [t], phase := none }).wr h F.TIM_STATUS.IN_VALID 0 1).raise h 36 (evArg 0xFFFF 0xFF 1)
  else w.updTim h fun x => { x with edges := es }

theorem edgesWith_third {a b x : Nat} (hx : a + sec = x) : (edgesWith [a, b] x).length = 3 := by
  have hn : edgeNear a x = true := by
    simp only [edgeNear, Bool.and_eq_true, decide_eq_true_eq]
    omega
  simp [edgesWith, hn]

theorem edgesWith_few {edges : List Nat} (x : Nat) (hl : edges.length ≤ 1) : (edgesWith edges x).length < 3 := by
  unfold edgesWith
  split
  · split
    · simp only [List.length_take, List.length_cons] at hl ⊢
      omega
    · exact Nat.lt_of_sub_pos Nat.two_pos
  · exact Nat.lt_of_sub_pos Nat.two_pos

/-- An edge accepted: its time shown. -/
def World.timeInShown (w : World) (h : Half) (t : Nat) : World := (w.wr h F.TIM_IN_LO.T 0 (t % 2 ^ 32)).wr h F.TIM_IN_HI.T 0 (t / 2 ^ 32)

theorem World.timeInShown_leaves (w : World) (h : Half) (t : Nat) : (w.timeInShown h t).rd h F.TIM_IN_LO.T = t % 2 ^ 32 ∧
    (w.timeInShown h t).rd h F.TIM_IN_HI.T = t / 2 ^ 32 % 2 ^ 32 ∧ (w.timeInShown h t).rd h F.TIM_CNT.REJECT = w.rd h F.TIM_CNT.REJECT := by
  unfold World.timeInShown
  refine ⟨?_, World.rd_wr_same _ _ _ _ _ (by decide), ?_⟩
  · rw [World.rd_wr_apart _ _ _ _ _ _ _ _ (by decide), World.rd_wr_same _ _ _ _ _ (by decide), Nat.mod_mod]
  · rw [World.rd_wr_apart _ _ _ _ _ _ _ _ (by decide), World.rd_wr_apart _ _ _ _ _ _ _ _ (by decide)]

theorem World.rejectEdge_leaves (w : World) (h : Half) (t : Nat) :
    (w.rejectEdge h t).rd h F.TIM_CNT.REJECT = satTo 16 (w.rd h F.TIM_CNT.REJECT + 1) ∧ (w.rejectEdge h t).rd h F.TIM_IN_LO.T = w.rd h F.TIM_IN_LO.T := by
  unfold World.rejectEdge
  dsimp only
  rw [World.rd_when, World.rd_raise _ _ _ _ _ _ _ (by decide), ite_self, World.rd_updTim, World.rd_bump_same _ _ _ _ (by decide), satInc_eq_satTo,
    World.rd_when, World.rd_raise _ _ _ _ _ _ _ (by decide), ite_self, World.rd_updTim, World.rd_bump_apart _ _ _ _ _ _ _ (by decide)]
  exact ⟨rfl, rfl⟩

/-! The pulse (R399). -/

/-- What the pulse shows in one half. -/
def World.ppsShown (w : World) (served : Bool) (h : Half) : World :=
  ((w.wr h F.TIM_PPS_LO.T 0 (w.mt h % 2 ^ 32)).wr h F.TIM_PPS_HI.T 0 (w.mt h / 2 ^ 32)).wr h F.TIM_STATUS.KEEPER_COAST 0 (b2n (!served))

theorem World.ppsShown_leaves (w : World) (h : Half) : (w.ppsShown true h).rd h F.TIM_PPS_LO.T = w.mt h % 2 ^ 32 ∧
    (w.ppsShown true h).rd h F.TIM_STATUS.KEEPER_COAST = 0 := by
  unfold World.ppsShown
  refine ⟨?_, World.rd_wr_same _ _ _ _ _ (by decide)⟩
  rw [World.rd_wr_apart _ _ _ _ _ _ _ _ (by decide), World.rd_wr_apart _ _ _ _ _ _ _ _ (by decide), World.rd_wr_same _ _ _ _ _ (by decide), Nat.mod_mod]

theorem World.ppsShown_other (w : World) {h g : Half} (served : Bool) (f : Field) (hg : g ≠ h) : (w.ppsShown served h).rd g f = w.rd g f := by
  unfold World.ppsShown
  rw [World.rd_wr_half _ _ _ _ _ _ hg rfl, World.rd_wr_half _ _ _ _ _ _ hg rfl, World.rd_wr_half _ _ _ _ _ _ hg rfl]

theorem World.mt_ppsShown (w : World) (served : Bool) (h g : Half) : (w.ppsShown served h).mt g = w.mt g := by
  refine World.mt_congr ?_ ?_ g
  · unfold World.ppsShown
    rw [World.wr_now, World.wr_now, World.wr_now]
  · unfold World.ppsShown
    rw [World.wr_tim, World.wr_tim, World.wr_tim]

/-- What a served pulse shows in both halves. -/
theorem World.ppsBoth_leaves (w : World) (g : Half) : ((w.ppsShown true .A).ppsShown true .B).rd g F.TIM_PPS_LO.T = w.mt g % 2 ^ 32 ∧
    ((w.ppsShown true .A).ppsShown true .B).rd g F.TIM_STATUS.KEEPER_COAST = 0 := by
  cases g with
  | A =>
    rw [World.ppsShown_other (h := .B) _ _ _ (by decide), World.ppsShown_other (h := .B) _ _ _ (by decide)]
    exact w.ppsShown_leaves .A
  | B =>
    obtain ⟨hlo, hcoast⟩ := (w.ppsShown true .A).ppsShown_leaves .B
    exact ⟨hlo.trans (by rw [World.mt_ppsShown]), hcoast⟩

/-! The quality message (R404). -/

theorem World.qualityMessage_length (w : World) (h : Half) : (w.qualityMessage h).length = 32 := by
  simp only [World.qualityMessage, List.length_append, leBytes_length]
  rfl

end Sys2Proof.Machine
end

section
/-!
PROOF. O47: the serving half disciplines module time.
-/
namespace Sys2Proof.Machine

/-- The field that says whether a reference is valid. -/
def refField (r : Nat) : Field := if r = 1 then F.TIM_STATUS.GNSS_VALID else F.TIM_STATUS.IN_VALID

theorem refField_cases (r : Nat) : refField r = F.TIM_STATUS.GNSS_VALID ∨ refField r = F.TIM_STATUS.IN_VALID := by
  unfold refField
  split
  · exact .inl rfl
  · exact .inr rfl

/-- A reference seen: its validity shown, the leap second taken. -/
def World.refSeen (w : World) (h : Half) (r : Nat) (leap : Option Nat) : World :=
  (w.wr h (refField r) 0 1).updTim h fun t => { t with leap := match leap with | some l => some l | none => t.leap }

theorem World.refSeen_leaves (w : World) (h : Half) (r : Nat) (leap : Option Nat) : (w.refSeen h r leap).rd h (refField r) = 1 ∧
    ((w.refSeen h r leap).tim.get h).leap = (match leap with | some l => some l | none => (w.tim.get h).leap) ∧
    (w.refSeen h r leap).now = w.now ∧
    ∀ f, fieldsApart F.TIM_STATUS.GNSS_VALID f = true → fieldsApart F.TIM_STATUS.IN_VALID f = true →
      (w.refSeen h r leap).rd h f = w.rd h f := by
  unfold World.refSeen
  refine ⟨?_, ?_, by rw [World.now_updTim, World.wr_now], fun f hg hi => ?_⟩
  · obtain e | e := refField_cases r
    · rw [e, World.rd_updTim]
      exact World.rd_wr_same _ _ _ _ _ (by decide)
    · rw [e, World.rd_updTim]
      exact World.rd_wr_same _ _ _ _ _ (by decide)
  · rw [World.tim_updTim, Two.get_upd_same, World.wr_tim]
  · obtain e | e := refField_cases r
    · rw [e, World.rd_updTim, World.rd_wr_apart _ _ _ _ _ _ _ _ hg]
    · rw [e, World.rd_updTim, World.rd_wr_apart _ _ _ _ _ _ _ _ hi]

/-- A reference taken: the active one chosen anew, its offset measured. -/
def World.refTaken (w : World) (h : Half) (c : Bool) (ofs : Int) : World :=
  ((w.setRef h (w.refChoice h)).when c fun w => w.takeOffset h ofs).timFollow h

/-- A field that a reference taken does not touch. -/
def refFree (f : Field) : Bool := fieldsApart F.TIM_STATUS.REF_ACT f && offsetFree f && unlogged f

theorem World.rd_refTaken (w : World) (h : Half) (c : Bool) (ofs : Int) (f : Field) (i : Nat) (hf : refFree f = true) :
    (w.refTaken h c ofs).rd h f i = w.rd h f i := by
  simp only [refFree, Bool.and_eq_true] at hf
  obtain ⟨⟨hact, hofs⟩, hu⟩ := hf
  rw [World.refTaken, World.rd_timFollow, World.rd_when, World.rd_takeOffset _ _ _ _ _ _ hofs, ite_self, (w.setRef_leaves h _).2.2 _ _ _ hact hu]

theorem World.refTaken_choice (w : World) (h : Half) (c : Bool) (ofs : Int) : (w.refTaken h c ofs).refChoice h = w.refChoice h ∧
    (w.refTaken h c ofs).rd h F.TIM_STATUS.REF_ACT = w.refChoice h := by
  refine ⟨World.refChoice_congr (w.rd_refTaken h c ofs _ _ (by decide)) (w.rd_refTaken h c ofs _ _ (by decide))
    (w.rd_refTaken h c ofs _ _ (by decide)), ?_⟩
  rw [World.refTaken, World.rd_timFollow, World.rd_when, World.rd_takeOffset _ _ _ _ _ _ (by decide), ite_self, (w.setRef_leaves h _).1]
  exact Nat.mod_eq_of_lt (w.refChoice_lt h)

theorem World.refTaken_leap (w : World) (h : Half) (c : Bool) (ofs : Int) : ((w.refTaken h c ofs).tim.get h).leap = (w.tim.get h).leap := by
  rw [World.refTaken, World.tim_timFollow]
  cases c with
  | false => exact congrArg (fun t : Two TimSt => (t.get h).leap) (w.setRef_leaves h (w.refChoice h)).2.1
  | true =>
    refine (World.takeOffset_leap _ h ofs).trans ?_
    rw [(w.setRef_leaves h (w.refChoice h)).2.1]

/-- An edge of TIME_IN while it is valid (R401). -/
def World.edgeValid (w : World) (h : Half) (t : Nat) : World :=
  let x := w.tim.get h
  let ph := x.phase.getD (t % sec)
  if phaseDist (t % sec) ph ≤ 10000 then
    let ph' := if w.rd h F.TIM_STATUS.STATE = 1 || x.phase = some 0 then 0 else ph
    (w.timeInShown h t).updTim h fun x => { x with phase := some ph', edges := [t] }
  else w.rejectEdge h t

/-- An edge of TIME_IN. -/
def World.timeInEdge (w : World) (h : Half) (t : Nat) : World :=
  if w.flag h F.TIM_STATUS.IN_VALID then w.edgeValid h t else w.edgeSought h t

/-- The keeper after a served pulse. -/
def World.pulsed (w : World) (k : Keeper) : World :=
  { w with keeper := { k with on := true, lastAt := w.now, coast := false, served := true
                              stepped := k.stepped && k.notBefore = 0, notBefore := 0 } }

end Sys2Proof.Machine

open Sys2Proof Sys2Proof.Machine

/-- Settles O47: the discipline's parts, each by its lemma; the half that serves keeps what it follows from. -/
theorem moduleTime : Obligations.moduleTime := by
  unfold Obligations.moduleTime
  refine ⟨?valid, ?validNot, ?lost, ?lostNot, ?stepBy, ?stepTo, ?stepNone, ?slewEnd, ?slewEndNot, ?set, ?setNot, ?select, ?edge, ?inLost, ?inLostNot,
    ?pulse, ?pulseNot, ?message, ?messageNot, ?aid⟩
  case valid =>
    intro h r ofs s leap hserver hr
    obtain ⟨u, hu⟩ : ∃ u, s.w.refSeen h r leap = u := ⟨_, rfl⟩
    obtain ⟨hvalid, hleap, hnow, hrd⟩ := s.w.refSeen_leaves h r leap
    rw [hu] at hvalid hleap hnow hrd
    obtain ⟨c, hc⟩ : ∃ c, (decide (u.refChoice h = r) && (decide (u.rd h F.TIM_STATUS.STATE = 0) || decide (u.rd h F.TIM_STATUS.STATE = 2) ||
      decide (u.rd h F.TIM_STATUS.STATE = 3) || decide (u.rd h F.TIM_STATUS.REF_ACT = 0))) = c := ⟨_, rfl⟩
    have hexec : exec (.referenceValid h r ofs leap) s = .next { s with w := u.refTaken h c ofs } := by
      have hgate : (!s.own.serves h || decide (r = 0) || decide (2 < r)) = false := by
        obtain rfl | rfl := hr
        · simp [Own.serves_iff.mpr hserver]
        · simp [Own.serves_iff.mpr hserver]
      change execReferenceValid h r ofs leap s = _
      unfold execReferenceValid lift
      dsimp only
      rw [hgate, if_neg Bool.false_ne_true, ← hc, ← hu]
      rfl
    have hst := hrd F.TIM_STATUS.STATE (by decide) (by decide)
    obtain ⟨hchoice, hact⟩ := u.refTaken_choice h c ofs
    obtain ⟨-, htim, hkept⟩ := u.setRef_leaves h (u.refChoice h)
    have hst' : (u.setRef h (u.refChoice h)).rd h F.TIM_STATUS.STATE = s.w.rd h F.TIM_STATUS.STATE := (hkept _ _ _ (by decide) (by decide)).trans hst
    have htaken (hcr : (u.refTaken h c ofs).refChoice h = r) (hs : s.w.rd h F.TIM_STATUS.STATE = 0 ∨ s.w.rd h F.TIM_STATUS.STATE = 2) :
        u.refTaken h c ofs = ((u.setRef h (u.refChoice h)).takeOffset h ofs).timFollow h := by
      have hct : c = true := by
        rw [← hc, ← hchoice, hcr, hst]
        obtain hs | hs := hs
        · simp [hs]
        · simp [hs]
      rw [hct]
      rfl
    refine .of_exec hexec ⟨?_, hact.trans hchoice.symm, fun l hl => ?_, fun hcr hs => ?_, fun hcr hs ho => ?_, fun hcr hs h1 h2 => ?_, exec_quiet hexec rfl⟩
    · change (u.refTaken h c ofs).rd h (refField r) = 1
      obtain e | e := refField_cases r
      · rw [e] at hvalid ⊢
        exact (u.rd_refTaken h c ofs _ _ (by decide)).trans hvalid
      · rw [e] at hvalid ⊢
        exact (u.rd_refTaken h c ofs _ _ (by decide)).trans hvalid
    · exact (u.refTaken_leap h c ofs).trans (hleap.trans (by rw [hl]))
    · obtain ⟨hstep, hpend⟩ := World.takeOffset_step (w := u.setRef h (u.refChoice h)) (h := h) (ofs := ofs) (by
        rw [hst']
        exact hs.imp_right And.right)
      dsimp only
      rw [htaken hcr (hs.imp_right And.left), World.tim_timFollow, World.rd_timFollow]
      exact ⟨hstep, hpend⟩
    · obtain ⟨hlock, hhold⟩ := World.takeOffset_lock (w := u.setRef h (u.refChoice h)) (h := h) (by rw [hst', hs]; decide) ho
      dsimp only
      rw [htaken hcr (.inr hs), World.rd_timFollow, World.rd_timFollow]
      exact ⟨hlock, hhold⟩
    · obtain ⟨hslew, htime, hcount⟩ := World.takeOffset_slew (w := u.setRef h (u.refChoice h)) (h := h) (by rw [hst', hs]; decide) h1 h2
      have hnow' : (u.setRef h (u.refChoice h)).now = s.w.now :=
        ((World.setRef_rest (q0 := allBut .now) (by decide) (Rest.refl _ u)).now (by decide)).trans hnow
      dsimp only
      rw [htaken hcr (.inr hs), World.rd_timFollow, World.tim_timFollow, World.rd_timFollow]
      refine ⟨hslew, htime.trans (by rw [hnow']), hcount.trans ?_⟩
      rw [hkept _ _ _ (by decide) (by decide), hrd _ (by decide) (by decide)]
  case validNot =>
    intro h r ofs leap s hn
    refine .of_exec (t := s) ?_ rfl
    change execReferenceValid h r ofs leap s = _
    unfold execReferenceValid lift
    have hgate : (!s.own.serves h || decide (r = 0) || decide (2 < r)) = true := by
      obtain hn | hn | hn := hn
      · simp [Own.serves_eq_false hn]
      · simp [hn]
      · simp [hn]
    rw [hgate]
    rfl
  case lost =>
    intro h r s hserver hr
    obtain ⟨u, hu⟩ : ∃ u, s.w.wr h (refField r) 0 0 = u := ⟨_, rfl⟩
    have hexec : exec (.referenceLost h r) s = .next { s with w := u.refLost h } := by
      have hgate : (!s.own.serves h || decide (r = 0) || decide (2 < r)) = false := by
        obtain rfl | rfl := hr
        · simp [Own.serves_iff.mpr hserver]
        · simp [Own.serves_iff.mpr hserver]
      change execReferenceLost h r s = _
      unfold execReferenceLost lift
      dsimp only
      rw [hgate, if_neg Bool.false_ne_true, ← hu]
      rfl
    have hrd (f : Field) (hg : fieldsApart F.TIM_STATUS.GNSS_VALID f = true) (hi : fieldsApart F.TIM_STATUS.IN_VALID f = true) :
        u.rd h f = s.w.rd h f := by
      rw [← hu]
      obtain e | e := refField_cases r
      · rw [e, World.rd_wr_apart _ _ _ _ _ _ _ _ hg]
      · rw [e, World.rd_wr_apart _ _ _ _ _ _ _ _ hi]
    have hst := hrd F.TIM_STATUS.STATE (by decide) (by decide)
    have hwas := hrd F.TIM_STATUS.REF_ACT (by decide) (by decide)
    obtain ⟨hchoice, hact⟩ := u.refLost_choice h
    refine .of_exec hexec ⟨?_, hact, fun hc ha hs => ?_, fun hn => ?_, exec_quiet hexec rfl⟩
    · change (u.refLost h).rd h (refField r) = 0
      obtain e | e := refField_cases r
      · rw [e, (u.refLost_kept h _ _ (by decide) (by decide)).1, ← hu, e]
        exact World.rd_wr_same _ _ _ _ _ (by decide)
      · rw [e, (u.refLost_kept h _ _ (by decide) (by decide)).1, ← hu, e]
        exact World.rd_wr_same _ _ _ _ _ (by decide)
    · exact World.refLost_holdover (hchoice.symm.trans hc) (hwas ▸ ha) (hst ▸ hs)
    · refine (World.refLost_stays ?_).trans hst
      rw [hwas, hst, ← hchoice]
      exact hn
  case lostNot =>
    intro h r s hn
    refine .of_exec (t := s) ?_ rfl
    change execReferenceLost h r s = _
    unfold execReferenceLost lift
    have hgate : (!s.own.serves h || decide (r = 0) || decide (2 < r)) = true := by
      obtain hn | hn | hn := hn
      · simp [Own.serves_eq_false hn]
      · simp [hn]
      · simp [hn]
    rw [hgate]
    rfl
  case stepBy =>
    intro s h o hserver hstep
    have hexec : exec .timeStep s = .next { s with w := (s.w.stepBoth o h).stepped h 1 } := by
      change execTimeStep s = _
      unfold execTimeStep lift
      have hsrv : s.srv = h := by rw [State.srv, hserver]; rfl
      dsimp only
      rw [hsrv, hstep]
      rfl
    obtain ⟨hofs, hnone, hslew, hst, hpend, hsteps, hgather⟩ := s.w.steppedBy_leaves h o 1
    obtain ⟨hnow, hkeeper⟩ := s.w.stepBoth_kept h o
    obtain ⟨-, -, -, -, -, -, hk⟩ := (s.w.stepBoth o h).stepped_leaves h 1
    refine .of_exec hexec ⟨hofs, hst, hnone, hslew, hpend, hsteps, ?_, ?_, hgather, exec_quiet hexec rfl⟩
    · exact congrArg Keeper.stepped hk
    · exact (congrArg Keeper.notBefore hk).trans (by rw [hnow])
  case stepTo =>
    intro s h n hserver hstep hpos
    obtain ⟨st, hst⟩ : ∃ st, (if s.w.rd h F.TIM_CTRL.REF = 3 then 4 else 1) = st := ⟨_, rfl⟩
    have hexec : exec .timeStep s = .next { s with w := (s.w.stepBoth ((n : Int) - (s.w.mt h : Int)) h).stepped h st } := by
      change execTimeStep s = _
      unfold execTimeStep lift
      have hsrv : s.srv = h := by rw [State.srv, hserver]; rfl
      have hst' : (if decide ((s.w.stepBoth ((n : Int) - (s.w.mt h : Int)) h).rd h F.TIM_CTRL.REF = 3) = true then 4 else 1) = st := by
        rw [(s.w.stepBoth_leaves h _).2.2.2.2, ← hst]
        simp only [decide_eq_true_eq]
      dsimp only
      rw [hsrv, hstep, ← hst']
      rfl
    obtain ⟨hofs, hnone, hslew, hstate, hpend, hsteps, -⟩ := s.w.steppedBy_leaves h ((n : Int) - (s.w.mt h : Int)) st
    obtain ⟨hnow, -⟩ := s.w.stepBoth_kept h ((n : Int) - (s.w.mt h : Int))
    obtain ⟨-, -, -, -, -, hnow2, -⟩ := (s.w.stepBoth ((n : Int) - (s.w.mt h : Int)) h).stepped_leaves h st
    refine .of_exec hexec ⟨?_, ?_, hnone, hpend, hsteps, exec_quiet hexec rfl⟩
    · have hmt : (s.w.mt h : Int) = (s.w.now : Int) + (s.w.tim.get h).offset + (s.w.tim.get h).part s.w.now := Int.toNat_of_nonneg hpos
      have hpart (t : TimSt) (k : Nat) (ht : t.slew = none) : t.part k = 0 := by rw [TimSt.part, ht]
      dsimp only
      rw [World.mt, hpart _ _ hslew, hofs, hnow2, hnow]
      omega
    · rw [hstate, hst, ← hst]
      split
      · rfl
      · rfl
  case stepNone =>
    intro s hnone
    refine .of_exec (t := s) ?_ rfl
    change execTimeStep s = _
    unfold execTimeStep lift
    dsimp only
    rw [hnone]
  case slewEnd =>
    intro h s k n hserver hslew
    have hexec : exec (.slewEnd h) s = .next { s with
        w := ((((s.w.endSlew h true).wrI h F.TIM_FREQ.VALUE 0 0).setTimState h 1).raiseBoth 34 (evArg 0xFFFF 0xFF 0)).timFollow h } := by
      change execSlewEnd h s = _
      unfold execSlewEnd lift
      dsimp only
      rw [Own.serves_iff.mpr hserver, hslew]
      rfl
    obtain ⟨hst, -, x, htim⟩ := ((s.w.endSlew h true).wrI h F.TIM_FREQ.VALUE 0 0).setTimState_leaves h 1
    rw [World.wrI, World.wr_tim, World.endSlew_whole hslew] at htim
    refine .of_exec hexec ⟨?_, ?_, ?_, ?_, exec_quiet hexec rfl⟩
    · dsimp only
      rw [World.tim_timFollow, World.raiseBoth_tim]
      exact congrArg TimSt.slew htim
    · dsimp only
      rw [World.tim_timFollow, World.raiseBoth_tim]
      exact congrArg TimSt.offset htim
    · dsimp only
      rw [World.rd_timFollow, World.rd_raiseBoth _ _ _ _ _ _ (by decide)]
      exact hst
    · dsimp only
      rw [World.rd_timFollow, World.rd_raiseBoth _ _ _ _ _ _ (by decide), World.rd_setTimState _ _ _ _ _ _ (by decide),
        World.rd_wrI_same _ _ _ _ _ (by decide)]
      rfl
  case slewEndNot =>
    intro h s hn
    refine .of_exec (t := s) ?_ rfl
    change execSlewEnd h s = _
    unfold execSlewEnd lift
    dsimp only
    obtain hn | hn := hn
    · rw [Own.serves_eq_false hn, Bool.false_and]
      rfl
    · rw [hn, Option.isSome_none, Bool.and_false]
      rfl
  case set =>
    intro h init s hserver hst
    have hexec : exec (.timeSet h init) s = .next { s with
        w := (s.w.decideStep h (.to_ (s.w.rd h F.TIM_SET_LO.T + 2 ^ 32 * s.w.rd h F.TIM_SET_HI.T))).timFollow h } := by
      have hgate : (decide (s.w.rd h F.TIM_STATUS.STATE = 0) || decide (s.w.rd h F.TIM_STATUS.STATE = 4) || s.w.inService h) = true := by
        obtain hst | hst | hst := hst
        · simp [hst]
        · simp [hst]
        · simp [hst]
      change execTimeSet h init s = _
      unfold execTimeSet lift
      dsimp only
      rw [Own.serves_iff.mpr hserver, hgate]
      rfl
    obtain ⟨hpend, htim⟩ := s.w.decideStep_leaves h (.to_ (s.w.rd h F.TIM_SET_LO.T + 2 ^ 32 * s.w.rd h F.TIM_SET_HI.T))
    refine .of_exec hexec ⟨?_, ?_, ?_, exec_quiet hexec rfl⟩
    · dsimp only
      rw [World.tim_timFollow, htim]
    · exact (World.rd_timFollow _ _ _ _).trans hpend
    · have hnow : ((s.w.decideStep h (.to_ (s.w.rd h F.TIM_SET_LO.T + 2 ^ 32 * s.w.rd h F.TIM_SET_HI.T))).timFollow h).now = s.w.now :=
        (World.timFollow_rest (q0 := allBut .now) (by decide) (World.decideStep_rest (by decide) (Rest.refl _ _))).now (by decide)
      dsimp only
      rw [World.mt, hnow, World.tim_timFollow, htim]
      rfl
  case setNot =>
    intro h init s hn
    refine .of_exec (t := s) ?_ rfl
    change execTimeSet h init s = _
    unfold execTimeSet lift
    obtain hn | ⟨h0, h4, hin⟩ := hn
    · dsimp only
      rw [Own.serves_eq_false hn, Bool.false_and]
      rfl
    · dsimp only
      rw [decide_eq_false h0, decide_eq_false h4, hin, Bool.or_false, Bool.or_false, Bool.and_false]
      rfl
  case select =>
    intro h init v s
    obtain ⟨c, hc⟩ : ∃ c, (s.w.flag h F.TIM_LOCK.OPEN && (bitOf v 2 || s.w.inService h)) = c := ⟨_, rfl⟩
    obtain ⟨u, hu⟩ : ∃ u, (s.w.when c fun w => w.wr h F.TIM_CTRL.OUT_EN 0 (bitsOf v 2 1)) = u := ⟨_, rfl⟩
    have hexec : exec (.timeRefSelect h init v) s = .next { s with
        w := if s.own.serves h then ((u.wr h F.TIM_CTRL.REF 0 (bitsOf v 0 2)).wr h F.TIM_CTRL.IN_DLY 0 (bitsOf v 16 16)).refLost h else u } := by
      change execTimeRefSelect h init v s = _
      unfold execTimeRefSelect lift
      dsimp only
      rw [hc, hu]
    have hout : u.rd h F.TIM_CTRL.OUT_EN = if s.w.rd h F.TIM_LOCK.OPEN = 1 ∧ (bitOf v 2 = true ∨ s.w.inService h = true) then bitsOf v 2 1
        else s.w.rd h F.TIM_CTRL.OUT_EN := by
      rw [← hu, World.rd_when, World.rd_wr_same _ _ _ _ _ (by decide), ← hc]
      simp only [Bool.and_eq_true, Bool.or_eq_true, World.flag_eq_true_iff, Nat.mod_eq_of_lt (bitsOf_lt v 2 1)]
    have hrd (f : Field) (hf : fieldsApart F.TIM_CTRL.OUT_EN f = true) : u.rd h f = s.w.rd h f := by
      rw [← hu, World.rd_when, World.rd_wr_apart _ _ _ _ _ _ _ _ hf, ite_self]
    by_cases hserver : s.own.server = some h
    · rw [Own.serves_iff.mpr hserver, if_pos rfl] at hexec
      obtain ⟨x, hx⟩ : ∃ x, (u.wr h F.TIM_CTRL.REF 0 (bitsOf v 0 2)).wr h F.TIM_CTRL.IN_DLY 0 (bitsOf v 16 16) = x := ⟨_, rfl⟩
      rw [hx] at hexec
      have hkept (f : Field) (ha : fieldsApart F.TIM_STATUS.REF_ACT f = true) (hf : timFree f = true) : (x.refLost h).rd h f = x.rd h f :=
        (x.refLost_kept h f 0 ha hf).1
      refine .of_exec hexec ⟨?_, fun _ => ⟨?_, ?_, (x.refLost_choice h).2⟩, fun hn => absurd hserver hn, exec_quiet hexec rfl⟩
      · dsimp only
        rw [hkept _ (by decide) (by decide), ← hx, World.rd_wr_apart _ _ _ _ _ _ _ _ (by decide), World.rd_wr_apart _ _ _ _ _ _ _ _ (by decide)]
        exact hout
      · dsimp only
        rw [hkept _ (by decide) (by decide), ← hx, World.rd_wr_apart _ _ _ _ _ _ _ _ (by decide), World.rd_wr_same _ _ _ _ _ (by decide)]
        exact Nat.mod_eq_of_lt (bitsOf_lt v 0 2)
      · dsimp only
        rw [hkept _ (by decide) (by decide), ← hx, World.rd_wr_same _ _ _ _ _ (by decide)]
        exact Nat.mod_eq_of_lt (bitsOf_lt v 16 16)
    · rw [Own.serves_eq_false hserver, if_neg Bool.false_ne_true] at hexec
      refine .of_exec hexec ⟨hout, fun hs => absurd hs hserver, fun _ => ⟨?_, hrd _ (by decide)⟩, exec_quiet hexec rfl⟩
      have hrest : Rest [.reg F.TIM_CTRL.OUT_EN.reg] u s.w := hu ▸ Rest.when (Rest.refl _ _) fun _ e => Rest.wr _ _ _ _ (by decide) e
      exact hrest.regsBut rfl
  case edge =>
    intro h s x hx
    obtain ⟨t, ht⟩ : ∃ t, s.w.timeInEdge h x = t := ⟨_, rfl⟩
    have hexec : exec (.timeInEdge h) s = .next { s with w := t } := by
      change execTimeInEdge h s = _
      unfold execTimeInEdge lift
      dsimp only
      rw [← hx, ← ht]
      rfl
    refine .of_exec hexec ⟨fun hv hp hd => ?_, fun hv hp hd => ?_, fun hv a b he hab => ?_, fun hv he => ?_, exec_regsBut hexec rfl, exec_quiet hexec rfl⟩
    · have hput : t = (s.w.timeInShown h x).updTim h fun y => { y with phase := some 0, edges := [x] } := by
        rw [← ht, World.timeInEdge, World.flag_eq_true_iff.mpr hv, if_pos rfl, World.edgeValid, hp, Option.getD_some, if_pos hd, decide_eq_true rfl,
          Bool.or_true, if_pos rfl]
      dsimp only
      rw [hput, World.rd_updTim, World.rd_updTim, World.rd_updTim]
      exact s.w.timeInShown_leaves h x
    · dsimp only
      rw [← ht, World.timeInEdge, World.flag_eq_true_iff.mpr hv, if_pos rfl, World.edgeValid, hp, Option.getD_some, if_neg (Nat.not_le.mpr hd)]
      exact s.w.rejectEdge_leaves h x
    · dsimp only
      rw [← ht, World.timeInEdge, (World.flag_eq_false_iff rfl).mpr hv, if_neg Bool.false_ne_true, World.edgeSought, he]
      rw [edgesWith_third hab, if_pos (Nat.le_refl 3), World.rd_raise _ _ _ _ _ _ _ (by decide)]
      exact World.rd_wr_same _ _ _ _ _ (by decide)
    · dsimp only
      rw [← ht, World.timeInEdge, (World.flag_eq_false_iff rfl).mpr hv, if_neg Bool.false_ne_true, World.edgeSought]
      rw [if_neg (Nat.not_le.mpr (edgesWith_few x he)), World.rd_updTim, hv]
  case inLost =>
    intro h s hvalid
    obtain ⟨u, hu⟩ : ∃ u, ((s.w.wr h F.TIM_STATUS.IN_VALID 0 0).updTim h fun x => { x with edges := [], phase := none }).raise h 36
      (evArg 0xFFFF 0xFF 0) = u := ⟨_, rfl⟩
    have hexec : exec (.timeInLost h) s = .next { s with w := u.when (s.own.serves h) fun w => w.refLost h } := by
      change execTimeInLost h s = _
      unfold execTimeInLost lift
      dsimp only
      rw [World.flag_eq_true_iff.mpr hvalid, if_pos rfl, hu]
    have hin : u.rd h F.TIM_STATUS.IN_VALID = 0 := by
      rw [← hu, World.rd_raise _ _ _ _ _ _ _ (by decide), World.rd_updTim]
      exact World.rd_wr_same _ _ _ _ _ (by decide)
    have hedges : (u.tim.get h).edges = [] := by
      rw [← hu, World.raise_tim, World.tim_updTim, Two.get_upd_same]
    by_cases hserver : s.own.server = some h
    · obtain ⟨hrd, hkept⟩ := u.refLost_kept h F.TIM_STATUS.IN_VALID 0 (by decide) (by decide)
      rw [Own.serves_iff.mpr hserver] at hexec
      exact .of_exec hexec ⟨hrd.trans hin, hkept.trans hedges, fun _ => (u.refLost_choice h).2, exec_quiet hexec rfl⟩
    · rw [Own.serves_eq_false hserver] at hexec
      exact .of_exec hexec ⟨hin, hedges, fun hs => absurd hs hserver, exec_quiet hexec rfl⟩
  case inLostNot =>
    intro h s hvalid
    refine .of_exec (t := s) ?_ rfl
    change execTimeInLost h s = _
    unfold execTimeInLost lift
    dsimp only
    rw [(World.flag_eq_false_iff rfl).mpr hvalid]
    rfl
  case pulse =>
    intro s h hserver hlogic hout hat
    obtain ⟨u, hu⟩ : ∃ u, (s.w.when s.w.keeper.coast fun w => w.raiseBoth 37 (evArg 0xFFFF 0xFF 0)) = u := ⟨_, rfl⟩
    have hexec : exec .timePulse s = .next { s with w := ((u.ppsShown true .A).ppsShown true .B).pulsed s.w.keeper } := by
      have hsrv : s.srv = h := by rw [State.srv, hserver]; rfl
      have hgate : (!(s.w.latch.logicValid && (s.w.keeper.on || (true && s.w.flag h F.TIM_CTRL.OUT_EN)) && !(true && !s.w.flag h F.TIM_CTRL.OUT_EN)) ||
          (s.w.keeper.on && (decide (s.w.now < s.w.keeper.lastAt + 500 * ms) || decide (s.w.now < s.w.keeper.notBefore)))) = false := by
        rw [World.flag_eq_true_iff.mpr hout, hlogic]
        obtain hoff | ⟨hlast, hnext⟩ := hat
        · rw [hoff]
          rfl
        · rw [decide_eq_false (Nat.not_lt.mpr hlast), decide_eq_false (Nat.not_lt.mpr hnext)]
          cases s.w.keeper.on <;> rfl
      change execTimePulse s = _
      unfold execTimePulse lift
      dsimp only
      rw [hsrv, hserver, Option.isSome_some, hgate, if_neg Bool.false_ne_true, Bool.true_and, hu]
      rfl
    have hrest : Rest [.evt, .reg F.EVT_STATUS.LOST.reg] u s.w := hu ▸ Rest.when (Rest.refl _ _) fun _ e => Rest.raiseBoth _ _ (by decide) e
    have hnow : ((u.ppsShown true .A).ppsShown true .B).now = s.w.now := by
      simp only [World.ppsShown, World.wr_now]
      exact hrest.now (by decide)
    refine .of_exec hexec ⟨rfl, hnow, rfl, rfl, fun g => ?_, exec_regsBut hexec rfl, exec_quiet hexec rfl⟩
    rw [← hrest.mt rfl g]
    exact u.ppsBoth_leaves g
  case pulseNot =>
    intro s hn
    refine .of_exec (t := s) ?_ rfl
    change execTimePulse s = _
    unfold execTimePulse lift
    obtain hn | ⟨hk, hn⟩ := hn
    · dsimp only
      rw [hn, Bool.false_and, Bool.false_and]
      rfl
    · dsimp only
      rw [hk, hn]
      simp
  case message =>
    intro h s hserver hon hserved
    have hexec : exec (.timeQualityMessage h) s = .next { s with
        w := (fun w : World => { w with keeper := { w.keeper with stepped := w.keeper.stepped && w.keeper.notBefore ≠ 0 } })
          (s.w.updTim h fun t => { t with msg := s.w.qualityMessage h, msgs := (t.msgs + 1) % 2 ^ 32 }) } := by
      change execTimeQualityMessage h s = _
      unfold execTimeQualityMessage lift
      dsimp only
      rw [Own.serves_iff.mpr hserver, hon, hserved]
      rfl
    refine .of_exec hexec ⟨?_, ?_, ?_, exec_regsBut hexec rfl, exec_quiet hexec rfl⟩
    · dsimp only
      rw [World.tim_updTim, Two.get_upd_same]
    · dsimp only
      rw [World.tim_updTim, Two.get_upd_same]
      exact s.w.qualityMessage_length h
    · dsimp only
      rw [World.tim_updTim, Two.get_upd_same]
  case messageNot =>
    intro h s hn
    refine .of_exec (t := s) ?_ rfl
    change execTimeQualityMessage h s = _
    unfold execTimeQualityMessage lift
    dsimp only
    obtain hn | hn | hn := hn
    · rw [Own.serves_eq_false hn, Bool.false_and, Bool.false_and]
      rfl
    · rw [hn, Bool.and_false, Bool.false_and]
      rfl
    · rw [hn, Bool.and_false]
      rfl
  case aid =>
    intro h init v s
    obtain ⟨u, hu⟩ : ∃ u, ((s.w.wr h F.GNS_AID_TIME.GPS_S 0 v).updGnss h fun g => { g with aid := some (v, s.w.mt h) }) = u :=
      ⟨_, rfl⟩
    obtain ⟨c, hc⟩ : ∃ c, (decide (u.rd h F.TIM_STATUS.STATE = 0) && (u.tim.get h).step.isNone && s.own.serves h) = c := ⟨_, rfl⟩
    have hexec : exec (.timeAid h init v) s = .next { s with
        w := if c then (u.takeOffset h ((v : Int) * 1000000000 - (u.mt h : Int))).timFollow h else u } := by
      change execTimeAid h init v s = _
      unfold execTimeAid lift
      dsimp only
      rw [hu, hc]
    have hrest : Rest [.gns, .reg F.GNS_AID_TIME.GPS_S.reg] u s.w :=
      hu ▸ World.updGnss_rest (by decide) (Rest.wr _ _ _ _ (by decide) (Rest.refl _ _))
    have hgps : u.rd h F.GNS_AID_TIME.GPS_S = v % 2 ^ 32 := by
      rw [← hu]
      change (s.w.wr h F.GNS_AID_TIME.GPS_S 0 v).rd h F.GNS_AID_TIME.GPS_S = _
      exact World.rd_wr_same _ _ _ _ _ (by decide)
    have haid : (u.gns.get h).aid = some (v, s.w.mt h) := by
      rw [← hu, World.updGnss, Two.get_upd_same]
    have hst : u.rd h F.TIM_STATUS.STATE = s.w.rd h F.TIM_STATUS.STATE := hrest.rd _ _ _ (by decide)
    have htim : u.tim = s.w.tim := hrest.tim (by decide)
    refine .of_exec hexec ⟨?_, ?_, fun h0 hnone hserver => ?_, fun h0 => ?_, exec_quiet hexec rfl⟩
    · cases c with
      | false => exact hgps
      | true => exact (World.rd_timFollow _ _ _ _).trans ((World.rd_takeOffset _ _ _ _ _ _ (by decide)).trans hgps)
    · cases c with
      | false => exact haid
      | true =>
        have hgns : ((u.takeOffset h ((v : Int) * 1000000000 - (u.mt h : Int))).timFollow h).gns = u.gns :=
          (World.timFollow_rest (q0 := allBut .gns) (by decide) (World.takeOffset_rest (by decide) (Rest.refl _ _))).gns (by decide)
        exact (congrArg (fun x : Two Gnss => (x.get h).aid) hgns).trans haid
    · have hct : c = true := by
        rw [← hc, hst, h0, htim, hnone, Own.serves_iff.mpr hserver]
        rfl
      obtain ⟨hstep, hpend⟩ := World.takeOffset_step (w := u) (h := h) (ofs := (v : Int) * 1000000000 - (u.mt h : Int)) (.inl (hst.trans h0))
      dsimp only
      rw [hct, if_pos rfl, World.tim_timFollow, World.rd_timFollow, ← hrest.mt rfl h]
      exact ⟨hstep, hpend⟩
    · have hcf : c = false := by
        rw [← hc, hst, decide_eq_false h0]
        rfl
      dsimp only
      rw [hcf, if_neg Bool.false_ne_true]
      exact ⟨htim, hrest.regsBut rfl⟩
end

section
/-!
SUPPORT. R360–R386: what the parts of satellite navigation leave: exclusions, the corrections' sources, a solution shown, the trust.
-/
namespace Sys2Proof.Machine

@[simp] theorem World.rd_updGnss (w : World) (h : Half) (u : Gnss → Gnss) (g : Half) (f : Field) (i : Nat) :
    (w.updGnss h u).rd g f i = w.rd g f i := (rfl)
@[simp] theorem World.gns_updGnss (w : World) (h : Half) (u : Gnss → Gnss) : (w.updGnss h u).gns = w.gns.upd h u := (rfl)
@[simp] theorem World.mt_updGnss (w : World) (h : Half) (u : Gnss → Gnss) (g : Half) : (w.updGnss h u).mt g = w.mt g := (rfl)

/-! Exclusions (R371–R374). -/

/-- An exclusion changes the lists of a half's exclusions, and nothing else of its engine. -/
theorem World.exclude_gnss (w : World) (h : Half) (key reason ch : Nat) :
    ∃ e x, (w.exclude h key reason ch).gns.get h = { w.gns.get h with excl := e, seen := x } := by
  unfold World.exclude
  dsimp only
  split
  · rw [World.gns_updGnss, Two.get_upd_same]
    exact ⟨_, _, rfl⟩
  · rw [World.raise_gns, World.gns_updGnss, Two.get_upd_same, World.gns_updGnss, Two.get_upd_same]
    exact ⟨_, _, rfl⟩

theorem World.rd_exclude (w : World) (h g : Half) (key reason ch : Nat) (f : Field) (i : Nat) (hu : unlogged f = true) :
    (w.exclude h key reason ch).rd g f i = w.rd g f i := by
  unfold World.exclude
  dsimp only
  split
  · rfl
  · rw [World.rd_raise _ _ _ _ _ _ _ hu]
    rfl

/-! The corrections' sources (R376–R378). -/

theorem NMap.get_mapVal {α : Type} (d : α) (f : α → α) (hf : f d = d) (m : NMap α) (n : Nat) :
    NMap.get d (m.map fun x => (x.1, f x.2)) n = f (NMap.get d m n) := by
  induction m with
  | nil => exact hf.symm
  | cons e m ih =>
    obtain ⟨k, v⟩ := e
    rw [List.map_cons, NMap.get, NMap.get, ih]
    split
    · rfl
    · rfl

/-- The source of least priority number. -/
def bestSource (pr : Nat → Nat) (l : List Nat) : Option Nat :=
  l.foldl (fun a k => match a with
    | some b => if pr k < pr b then some k else a
    | none => some k) none

theorem bestSource_from {pr : Nat → Nat} {l : List Nat} {a : Option Nat} {k : Nat}
    (hk : l.foldl (fun a k => match a with
      | some b => if pr k < pr b then some k else a
      | none => some k) a = some k) : k ∈ l ∨ a = some k := by
  induction l generalizing a with
  | nil => exact .inr hk
  | cons x l ih =>
    rw [List.foldl_cons] at hk
    obtain hmem | hstart := ih hk
    · exact .inl (List.mem_cons_of_mem x hmem)
    · cases a with
      | none => exact .inl (List.mem_cons.mpr (.inl (Option.some.inj hstart).symm))
      | some b =>
        dsimp only at hstart
        split at hstart
        · exact .inl (List.mem_cons.mpr (.inl (Option.some.inj hstart).symm))
        · exact .inr hstart

theorem bestSource_mem {pr : Nat → Nat} {l : List Nat} {k : Nat} (hk : bestSource pr l = some k) : k ∈ l := by
  obtain hmem | hnone := bestSource_from hk
  · exact hmem
  · cases hnone

/-- The source chosen: the active one while it is valid and none of lower priority number has been for long. -/
def sourceChosen (active : Option Nat) (ok : List Nat) (pr : Nat → Nat) (long : Nat → Bool) : Option Nat :=
  match active with
  | some a => if ok.contains a then bestSource pr ([a] ++ ok.filter (fun k => pr k < pr a && long k)) else bestSource pr ok
  | none => bestSource pr ok

theorem sourceChosen_mem {active : Option Nat} {ok : List Nat} {pr : Nat → Nat} {long : Nat → Bool} {k : Nat}
    (hk : sourceChosen active ok pr long = some k) : k ∈ ok := by
  unfold sourceChosen at hk
  cases active with
  | none => exact bestSource_mem hk
  | some a =>
    dsimp only at hk
    split at hk
    case isTrue ha =>
      obtain hka | hkl := List.mem_append.mp (bestSource_mem hk)
      · rw [List.mem_singleton.mp hka]
        exact List.contains_iff_mem.mp ha
      · exact (List.mem_filter.mp hkl).1
    case isFalse => exact bestSource_mem hk

/-- How long each source has been valid. -/
def agedSources (now : Nat) (src : NMap CSrc) : NMap CSrc :=
  src.map fun x => (x.1, { x.2 with validAt := if x.2.valid now then some (x.2.validAt.getD now) else none })

theorem get_agedSources (now : Nat) (src : NMap CSrc) (k : Nat) : ∃ v, NMap.get {} (agedSources now src) k = { NMap.get {} src k with validAt := v } :=
  ⟨_, NMap.get_mapVal ({} : CSrc) (fun x => { x with validAt := if x.valid now then some (x.validAt.getD now) else none }) rfl src k⟩

/-- The sources whose corrections are valid. -/
def validSources (now : Nat) (src : NMap CSrc) : List Nat := (List.range 4).filter fun k => (NMap.get {} src k).valid now

theorem validSources_aged (now : Nat) (src : NMap CSrc) : validSources now (agedSources now src) = validSources now src := by
  refine List.filter_congr fun k _ => ?_
  obtain ⟨v, hv⟩ := get_agedSources now src k
  rw [hv]
  rfl

/-- Their mask, as summed and as a fold. -/
theorem foldl_pow_eq_sum (l : List Nat) (a : Nat) : l.foldl (fun a k => a + 2 ^ k) a = a + (l.map (fun k => 2 ^ k)).sum := by
  induction l generalizing a with
  | nil => rfl
  | cons x l ih =>
    rw [List.foldl_cons, ih, List.map_cons, List.sum_cons]
    omega

theorem sum_pow_filter_lt (p : Nat → Bool) : (((List.range 4).filter p).map (fun k => 2 ^ k)).sum < 16 := by
  have hle : (((List.range 4).filter p).map (fun k => 2 ^ k)).sum ≤ ((List.range 4).map (fun k => 2 ^ k)).sum :=
    List.Sublist.sum_le_sum (List.filter_sublist.map _) fun _ _ => Nat.zero_le _
  exact Nat.lt_of_le_of_lt hle (by decide)

theorem sum_pow_eq_zero_iff (l : List Nat) : (l.map (fun k => 2 ^ k)).sum = 0 ↔ l = [] := by
  cases l with
  | nil => simp
  | cons x l =>
    have hpos : 0 < 2 ^ x := Nat.two_pow_pos x
    simp only [List.map_cons, List.sum_cons, reduceCtorEq, iff_false]
    omega

/-- The corrections' display: the valid sources, and the one chosen. -/
def World.corrShown (w : World) (h : Half) (ok : List Nat) (new : Option Nat) : World :=
  ((w.wr h F.GNS_CORR_STAT.VALID 0 (ok.foldl (fun a k => a + 2 ^ k) 0)).wr h F.GNS_CORR_STAT.ANY_VALID 0 (b2n (!ok.isEmpty))).wr
    h F.GNS_CORR_STAT.ACTIVE 0 (new.getD 0)

/-- The source that a half, its sources aged, chooses. -/
def World.corrNew (w : World) (h : Half) (now : Nat) : Option Nat :=
  let g := w.gns.get h
  let long (k : Nat) : Bool := match (NMap.get {} g.src k).validAt with
    | some t => decide (t + 10 * sec ≤ now)
    | none => false
  sourceChosen g.active (validSources now g.src) (fun k => bitsOf (w.rd h F.GNS_CORR_CFG.PRIO) (2 * k) 2) long

/-- The corrections of a half evaluated anew, its sources aged already. -/
def World.corrJudged (w : World) (h : Half) (now : Nat) : World :=
  let new := w.corrNew h now
  ((w.corrShown h (validSources now (w.gns.get h).src) new).when (new ≠ (w.gns.get h).active) fun w =>
    w.raise h 217 (evArg (new.getD 0xFF) 0xFF 0)).updGnss h fun g => { g with active := new }

theorem World.corrEval_eq (w : World) (h : Half) :
    w.corrEval h = (w.updGnss h fun g => { g with src := agedSources (w.mt h) g.src }).corrJudged h (w.mt h) := rfl

/-- A field that the evaluation of the corrections does not touch. -/
def corrFree (f : Field) : Bool :=
  fieldsApart F.GNS_CORR_STAT.VALID f && fieldsApart F.GNS_CORR_STAT.ANY_VALID f && fieldsApart F.GNS_CORR_STAT.ACTIVE f && unlogged f

theorem World.corrJudged_leaves (w : World) (h : Half) (now : Nat) : ∃ new,
    (w.corrJudged h now).gns = w.gns.upd h (fun g => { g with active := new }) ∧
    (∀ k, new = some k → k ∈ validSources now (w.gns.get h).src) ∧
    (w.corrJudged h now).rd h F.GNS_CORR_STAT.VALID = ((validSources now (w.gns.get h).src).map (fun k => 2 ^ k)).sum ∧
    (w.corrJudged h now).rd h F.GNS_CORR_STAT.ANY_VALID = b2n (!(validSources now (w.gns.get h).src).isEmpty) ∧
    (w.corrJudged h now).rd h F.GNS_CORR_STAT.ACTIVE = new.getD 0 % 4 ∧
    ∀ g f i, corrFree f = true → (w.corrJudged h now).rd g f i = w.rd g f i := by
  unfold World.corrJudged
  dsimp only
  refine ⟨w.corrNew h now, ?_, fun k hk => sourceChosen_mem hk, ?_, ?_, ?_, fun g f i hf => ?_⟩
  · rw [World.gns_updGnss, World.apply_when World.gns, World.raise_gns, ite_self, World.corrShown, World.wr_gns, World.wr_gns, World.wr_gns]
  · rw [World.rd_updGnss, World.rd_when, World.rd_raise _ _ _ _ _ _ _ (by decide), ite_self, World.corrShown,
      World.rd_wr_apart _ _ _ _ _ _ _ _ (by decide), World.rd_wr_apart _ _ _ _ _ _ _ _ (by decide), World.rd_wr_same _ _ _ _ _ (by decide),
      foldl_pow_eq_sum, Nat.zero_add]
    exact Nat.mod_eq_of_lt (sum_pow_filter_lt _)
  · rw [World.rd_updGnss, World.rd_when, World.rd_raise _ _ _ _ _ _ _ (by decide), ite_self, World.corrShown,
      World.rd_wr_apart _ _ _ _ _ _ _ _ (by decide), World.rd_wr_same _ _ _ _ _ (by decide)]
    exact b2n_mod_two _
  · rw [World.rd_updGnss, World.rd_when, World.rd_raise _ _ _ _ _ _ _ (by decide), ite_self, World.corrShown]
    exact World.rd_wr_same _ _ _ _ _ (by decide)
  · simp only [corrFree, Bool.and_eq_true] at hf
    obtain ⟨⟨⟨hvalid, hany⟩, hactive⟩, hu⟩ := hf
    rw [World.rd_updGnss, World.rd_when, World.rd_raise _ _ _ _ _ _ _ hu, ite_self, World.corrShown, World.rd_wr_apart _ _ _ _ _ _ _ _ hactive,
      World.rd_wr_apart _ _ _ _ _ _ _ _ hany, World.rd_wr_apart _ _ _ _ _ _ _ _ hvalid]

/-- The corrections of a half evaluated anew (R377). -/
theorem World.corrEval_leaves (w : World) (h : Half) : ∃ new,
    (w.corrEval h).gns = w.gns.upd h (fun g => { g with src := agedSources (w.mt h) g.src, active := new }) ∧
    (∀ k, new = some k → k ∈ validSources (w.mt h) (w.gns.get h).src) ∧
    (w.corrEval h).rd h F.GNS_CORR_STAT.VALID = ((validSources (w.mt h) (w.gns.get h).src).map (fun k => 2 ^ k)).sum ∧
    (w.corrEval h).rd h F.GNS_CORR_STAT.ANY_VALID = b2n (!(validSources (w.mt h) (w.gns.get h).src).isEmpty) ∧
    (w.corrEval h).rd h F.GNS_CORR_STAT.ACTIVE = new.getD 0 % 4 ∧ ∀ g f i, corrFree f = true → (w.corrEval h).rd g f i = w.rd g f i := by
  obtain ⟨new, hgns, hmem, hvalid, hany, hactive, hrd⟩ :=
    (w.updGnss h fun g => { g with src := agedSources (w.mt h) g.src }).corrJudged_leaves h (w.mt h)
  rw [World.corrEval_eq]
  rw [World.gns_updGnss, Two.get_upd_same, validSources_aged] at hmem hvalid hany
  refine ⟨new, hgns.trans ?_, hmem, hvalid, hany, hactive, fun g f i hf => (hrd g f i hf).trans (World.rd_updGnss _ _ _ _ _ _)⟩
  rw [World.gns_updGnss, Two.upd, Two.get_upd_same]
  cases h <;> rfl

/-! A correction frame taken (R376). -/

theorem World.newStation_leaves (w : World) (h : Half) (st : Nat × Int × Int × Int) :
    (∃ u : Gnss → Gnss, (w.newStation h st).gns = w.gns.upd h u ∧ ∀ g, (u g).src = g.src) ∧
    ∀ g f i, fieldsApart F.GNS_STATUS.Q f = true → unlogged f = true → (w.newStation h st).rd g f i = w.rd g f i := by
  unfold World.newStation
  extract_lets g dist far changed u
  refine ⟨⟨fun g => { g with station := some st, fixedRun := if changed then 0 else g.fixedRun }, ?_, fun _ => rfl⟩, fun k f i hf hu => ?_⟩
  · rw [World.apply_when World.gns, World.raise_gns, World.apply_when World.gns, World.raise_gns, World.wr_gns, ite_self, ite_self]
    rfl
  · rw [World.rd_when, World.rd_raise _ _ _ _ _ _ _ hu, World.rd_when, World.rd_raise _ _ _ _ _ _ _ hu, World.rd_wr_apart _ _ _ _ _ _ _ _ hf, ite_self,
      ite_self]
    rfl

/-- The frame kept among its source's. -/
def CSrc.kept (now : Nat) (bs pl : List Byte) (x : CSrc) : CSrc :=
  { x with
    frames := (now, bs) :: x.frames.filter (fun f => decide (now ≤ f.1 + 2 * sec))
    msmAt := if isMsm (rtcmType pl) && 4 ≤ msmSats pl then some now else x.msmAt
    refAt := if rtcmType pl = 1005 || rtcmType pl = 1006 then some now else x.refAt }

def World.frameKept (w : World) (h : Half) (k : Nat) (bs : List Byte) : World :=
  w.updGnss h fun g => { g with src := NMap.upd {} g.src k (CSrc.kept (w.mt h) bs (slice bs 3 (bs.length - 6))) }

/-- A frame used, by its type. -/
def World.frameUsed (w : World) (h : Half) (t now : Nat) (act : Bool) (pl : List Byte) : World :=
  let w := w.when (isMsm t && act) fun w => w.updGnss h fun g => { g with usedAt := some now }
  if (t = 1005 || t = 1006) && act then w.newStation h (stationOf pl) else w

theorem World.takeFrame_eq (w : World) (h : Half) (k : Nat) (bs : List Byte) :
    w.takeFrame h k bs = ((w.frameKept h k bs).corrEval h).frameUsed h (rtcmType (slice bs 3 (bs.length - 6))) (w.mt h)
      ((((w.frameKept h k bs).corrEval h).gns.get h).active = some k) (slice bs 3 (bs.length - 6)) := rfl

theorem World.frameUsed_leaves (w : World) (h : Half) (t now : Nat) (act : Bool) (pl : List Byte) :
    ((w.frameUsed h t now act pl).gns.get h).src = (w.gns.get h).src ∧ (w.frameUsed h t now act pl).gns.get h.other = w.gns.get h.other ∧
    ∀ g f i, fieldsApart F.GNS_STATUS.Q f = true → unlogged f = true → (w.frameUsed h t now act pl).rd g f i = w.rd g f i := by
  unfold World.frameUsed
  extract_lets u
  have husrc : (u.gns.get h).src = (w.gns.get h).src := by
    rw [World.apply_when (fun w => (w.gns.get h).src), World.gns_updGnss, Two.get_upd_same, ite_self]
  have huother : u.gns.get h.other = w.gns.get h.other := by
    rw [World.apply_when (fun w => w.gns.get h.other), World.gns_updGnss, Two.get_upd_ne _ _ (Half.other_ne h), ite_self]
  have hurd (g : Half) (f : Field) (i : Nat) : u.rd g f i = w.rd g f i := by rw [World.rd_when, World.rd_updGnss, ite_self]
  clear_value u
  split
  · obtain ⟨⟨x, hgns, hsrc⟩, hrd⟩ := u.newStation_leaves h (stationOf pl)
    rw [hgns, Two.get_upd_same, Two.get_upd_ne _ _ (Half.other_ne h), hsrc]
    exact ⟨husrc, huother, fun g f i hf hu => (hrd g f i hf hu).trans (hurd g f i)⟩
  · exact ⟨husrc, huother, fun g f i _ _ => hurd g f i⟩

/-- A field that a frame taken does not touch. -/
def frameFree (f : Field) : Bool := corrFree f && fieldsApart F.GNS_STATUS.Q f

theorem World.takeFrame_leaves (w : World) (h : Half) (k : Nat) (bs : List Byte) :
    (∃ f ∈ (NMap.get {} ((w.takeFrame h k bs).gns.get h).src k).frames, f.2 = bs) ∧
    (w.takeFrame h k bs).gns.get h.other = w.gns.get h.other ∧
    ∀ g f i, frameFree f = true → (w.takeFrame h k bs).rd g f i = w.rd g f i := by
  obtain ⟨u, hu⟩ : ∃ u, w.frameKept h k bs = u := ⟨_, rfl⟩
  have hsrc : NMap.get {} (u.gns.get h).src k = CSrc.kept (w.mt h) bs (slice bs 3 (bs.length - 6)) (NMap.get {} (w.gns.get h).src k) := by
    rw [← hu, World.frameKept, World.gns_updGnss, Two.get_upd_same, NMap.upd, NMap.get_set_same]
  have hother : u.gns.get h.other = w.gns.get h.other := by
    rw [← hu, World.frameKept, World.gns_updGnss, Two.get_upd_ne _ _ (Half.other_ne h)]
  have hurd (g : Half) (f : Field) (i : Nat) : u.rd g f i = w.rd g f i := by rw [← hu, World.frameKept, World.rd_updGnss]
  obtain ⟨new, hgns, -, -, -, -, hrd⟩ := u.corrEval_leaves h
  rw [World.takeFrame_eq, hu]
  obtain ⟨hused, hused2, hrd2⟩ := (u.corrEval h).frameUsed_leaves h (rtcmType (slice bs 3 (bs.length - 6))) (w.mt h)
    (((u.corrEval h).gns.get h).active = some k) (slice bs 3 (bs.length - 6))
  refine ⟨?_, ?_, fun g f i hf => ?_⟩
  · obtain ⟨v, hv⟩ := get_agedSources (u.mt h) (u.gns.get h).src k
    refine ⟨(w.mt h, bs), ?_, rfl⟩
    rw [hused, hgns, Two.get_upd_same, hv, hsrc]
    exact List.mem_cons_self
  · rw [hused2, hgns, Two.get_upd_ne _ _ (Half.other_ne h), hother]
  · simp only [frameFree, Bool.and_eq_true] at hf
    have hlog : unlogged f = true := by
      simp only [corrFree, Bool.and_eq_true] at hf
      exact hf.1.2
    rw [hrd2 g f i hf.2 hlog, hrd g f i hf.1, hurd]

end Sys2Proof.Machine
end

section
/-!
SUPPORT. R381–R386: a solution shown, the trust, a heading.
-/
namespace Sys2Proof.Machine

/-! A solution (R381, R383). -/

/-- The quality shown (R381): FIXED after three solutions in a row. -/
def shownQuality (q was run : Nat) : Nat := if q = 4 && was ≠ 4 && run < 3 then 3 else q

theorem shownQuality_eq (q was run : Nat) :
    shownQuality q was (if q = 4 then run + 1 else 0) = if q = 4 ∧ was ≠ 4 ∧ run < 2 then 3 else q := by
  unfold shownQuality
  simp only [Bool.and_eq_true, decide_eq_true_eq, and_assoc]
  refine if_congr (and_congr_right fun hq => and_congr_right fun _ => ?_) rfl rfl
  rw [if_pos hq]
  omega

theorem shownQuality_lt {q was run : Nat} (hq : q < 8) : shownQuality q was run < 8 := by
  unfold shownQuality
  split
  · exact Nat.lt_of_sub_pos (by decide)
  · exact hq

theorem World.setQ_leaves (w : World) (h : Half) {q : Nat} (hq : q < 8) :
    (w.setQ h q).rd h F.GNS_STATUS.Q = shownQuality q (w.rd h F.GNS_STATUS.Q) (if q = 4 then (w.gns.get h).fixedRun + 1 else 0) ∧
    ((w.setQ h q).gns.get h).posQ = shownQuality q (w.rd h F.GNS_STATUS.Q) (if q = 4 then (w.gns.get h).fixedRun + 1 else 0) ∧
    ∀ g f i, fieldsApart F.GNS_STATUS.Q f = true → unlogged f = true → (w.setQ h q).rd g f i = w.rd g f i := by
  have hlt : shownQuality q (w.rd h F.GNS_STATUS.Q) (if q = 4 then (w.gns.get h).fixedRun + 1 else 0) < 2 ^ F.GNS_STATUS.Q.w :=
    shownQuality_lt hq
  unfold World.setQ
  refine ⟨?_, ?_, fun g f i hf hu => ?_⟩
  · dsimp only
    rw [World.rd_when, World.rd_raise _ _ _ _ _ _ _ (by decide), ite_self, World.rd_wr_same _ _ _ _ _ (by decide)]
    exact Nat.mod_eq_of_lt hlt
  · dsimp only
    rw [World.apply_when World.gns, World.raise_gns, ite_self, World.wr_gns, World.gns_updGnss, Two.get_upd_same]
    rfl
  · dsimp only
    rw [World.rd_when, World.rd_raise _ _ _ _ _ _ _ hu, ite_self, World.rd_wr_apart _ _ _ _ _ _ _ _ hf, World.rd_updGnss]

theorem World.showSol_leaves (w : World) (h : Half) (x : Sol) :
    (w.showSol h x).rd h F.GNS_POS_LAT.VALUE = toTwos 32 ((x.lat + 50) / 100) ∧ (w.showSol h x).rd h F.GNS_POS_VEL.SPEED = satTo 16 x.speed ∧
    (w.showSol h x).rd h F.GNS_STATUS.SV_USED = satTo 8 x.sats ∧ (w.showSol h x).rd h F.GNS_POS_FINE.SIG_H = satTo 16 x.sigH ∧
    (w.showSol h x).rd h F.GNS_STATUS.Q = w.rd h F.GNS_STATUS.Q := by
  unfold World.showSol
  dsimp only
  refine ⟨?_, ?_, ?_, ?_, ?_⟩
  · simp (disch := decide) only [World.rd_wr_apart, World.rd_wrI_apart, World.rd_wrI_same]
    rfl
  · simp (disch := decide) only [World.rd_wr_apart, World.rd_wr_same]
    exact Nat.mod_eq_of_lt (satTo_lt 16 _)
  · simp (disch := decide) only [World.rd_wr_same]
    exact Nat.mod_eq_of_lt (satTo_lt 8 _)
  · simp (disch := decide) only [World.rd_wr_apart, World.rd_wr_same]
    exact Nat.mod_eq_of_lt (satTo_lt 16 _)
  · simp (disch := decide) only [World.rd_wr_apart, World.rd_wrI_apart]

theorem World.b2n_flag (w : World) (h : Half) {f : Field} (i : Nat) (hf : f.w = 1) : b2n (w.flag h f i) = w.rd h f i := by
  cases hb : w.flag h f i with
  | true => exact (World.flag_eq_true_iff.mp hb).symm
  | false => exact ((World.flag_eq_false_iff hf).mp hb).symm

theorem World.solQuality_lt (w : World) (h : Half) (x : Sol) : w.solQuality h x < 5 := by
  unfold World.solQuality
  dsimp only
  have hle (q : Nat) (hq : q < 5) : (if (w.gns.get h).capped then min q 1 else q) < 5 := by
    split
    · omega
    · exact hq
  refine hle _ ?_
  split_ifs
  all_goals decide

theorem World.solQuality_congr {w v : World} {h : Half} (x : Sol) (hcap : (w.gns.get h).capped = (v.gns.get h).capped)
    (hused : (w.gns.get h).usedAt = (v.gns.get h).usedAt) (hmt : w.mt h = v.mt h)
    (hage : w.rd h F.GNS_CORR_CFG.AGE_MAX = v.rd h F.GNS_CORR_CFG.AGE_MAX) : w.solQuality h x = v.solQuality h x := by
  have hfresh : w.corrFresh h = v.corrFresh h := by
    unfold World.corrFresh
    rw [hused, hmt, hage]
  unfold World.solQuality
  rw [hcap, hfresh]

/-- The satellites that RAIM excludes (R373). -/
def World.raimTaken (w : World) (h : Half) (l : List Nat) : World :=
  w.forAll l fun w c =>
    match ((w.gns.get h).own.map (·.entries)).getD [] |>.find? (fun e => e.ch = c) with
    | some e => (w.exclude h e.key 5 c).bump h F.GNS_CNT.RAIM
    | none => w

theorem World.raimTaken_rest (w : World) (h : Half) (l : List Nat) :
    Rest [.evt, .gns, .reg F.EVT_STATUS.LOST.reg, .reg F.GNS_CNT.RAIM.reg] (w.raimTaken h l) w := by
  refine Rest.forAll (Rest.refl _ _) fun u c hu => ?_
  split
  · exact Rest.bump _ _ _ (by decide) (World.exclude_rest (by decide) hu)
  · exact hu

/-- RAIM leaves what the quality of a solution looks at. -/
theorem World.raimTaken_keeps {β : Type} (g : Gnss → β) (hg : ∀ x e s, g { x with excl := e, seen := s } = g x) (w : World) (h : Half) (l : List Nat) :
    g ((w.raimTaken h l).gns.get h) = g (w.gns.get h) := by
  refine World.forAll_keeps (fun w => g (w.gns.get h)) (fun u c => ?_) _ _
  split
  next e _ =>
    obtain ⟨x, y, hx⟩ := u.exclude_gnss h e.key 5 c
    rw [World.bump, World.wr_gns, hx, hg]
  · rfl

/-- A solution in one half's registers and module writes. -/
def World.solOne (q : Nat) (srv : Half) (x : Sol) (w : World) (k : Half) : World :=
  let w := w.setQ k q
  let w := w.when (q ≠ 0) fun w => w.showSol k x
  (w.moduleWrite srv k 0 (1 ≤ q) ((((x.speed : Nat)) : Rat) / 1000)).moduleWrite srv k 1 (1 ≤ q) ((((x.course : Nat)) : Rat) / 100)

/-- The parts that module writes touch. -/
def moduleParts : List Part := [.evt, .uin, .reg 0x100018, .reg 0x700020, .reg 0x700024, .reg 0x70002C, .reg 0x700030, .reg 0x700044, .reg 0x701000,
  .reg 0x701004]

theorem World.solOne_leaves (w : World) (h srv : Half) (x : Sol) {q : Nat} (hq : q < 8) :
    (w.solOne q srv x h).rd h F.GNS_STATUS.Q = shownQuality q (w.rd h F.GNS_STATUS.Q) (if q = 4 then (w.gns.get h).fixedRun + 1 else 0) ∧
    ((w.solOne q srv x h).gns.get h).posQ = (w.solOne q srv x h).rd h F.GNS_STATUS.Q ∧
    (q ≠ 0 → (w.solOne q srv x h).rd h F.GNS_POS_LAT.VALUE = toTwos 32 ((x.lat + 50) / 100) ∧
      (w.solOne q srv x h).rd h F.GNS_POS_VEL.SPEED = satTo 16 x.speed ∧ (w.solOne q srv x h).rd h F.GNS_STATUS.SV_USED = satTo 8 x.sats ∧
      (w.solOne q srv x h).rd h F.GNS_POS_FINE.SIG_H = satTo 16 x.sigH) ∧
    (q = 0 → (w.solOne q srv x h).rd h F.GNS_POS_LAT.VALUE = w.rd h F.GNS_POS_LAT.VALUE ∧
      (w.solOne q srv x h).rd h F.GNS_POS_VEL.SPEED = w.rd h F.GNS_POS_VEL.SPEED) := by
  obtain ⟨hset, hpos, hkept⟩ := w.setQ_leaves h hq
  obtain ⟨u, hu⟩ : ∃ u, w.setQ h q = u := ⟨_, rfl⟩
  rw [hu] at hset hpos hkept
  obtain ⟨v, hv⟩ : ∃ v, (u.when (q ≠ 0) fun w => w.showSol h x) = v := ⟨_, rfl⟩
  have hmod : Rest moduleParts (w.solOne q srv x h) v := by
    unfold World.solOne
    dsimp only
    rw [hu, hv]
    exact World.moduleWrite_rest (by decide) (World.moduleWrite_rest (by decide) (Rest.refl _ v))
  have hvq : v.rd h F.GNS_STATUS.Q = u.rd h F.GNS_STATUS.Q := by
    rw [← hv, World.rd_when, (u.showSol_leaves h x).2.2.2.2, ite_self]
  have hvgns : v.gns = u.gns := by
    have hrest : Rest [.reg 0xB00018, .reg 0xB000A0, .reg 0xB000A4, .reg 0xB000A8, .reg 0xB000AC, .reg 0xB000B0] v u :=
      hv ▸ Rest.when (Rest.refl _ _) fun _ e => World.showSol_rest (by decide) e
    exact hrest.gns (by decide)
  refine ⟨?_, ?_, fun hne => ?_, fun h0 => ?_⟩
  · rw [hmod.rd _ _ _ (by decide), hvq, hset]
  · rw [hmod.gns (by decide), hmod.rd _ _ _ (by decide), hvq, hvgns, hset, hpos]
  · have hshown : v = u.showSol h x := by
      rw [← hv, decide_eq_true hne]
      rfl
    obtain ⟨hlat, hspeed, hsats, hsig, -⟩ := u.showSol_leaves h x
    rw [hmod.rd _ _ _ (by decide), hmod.rd _ _ _ (by decide), hmod.rd _ _ _ (by decide), hmod.rd _ _ _ (by decide), hshown]
    exact ⟨hlat, hspeed, hsats, hsig⟩
  · have hnot : v = u := by
      rw [← hv, decide_eq_false (not_not.mpr h0)]
      rfl
    rw [hmod.rd _ _ _ (by decide), hmod.rd _ _ _ (by decide), hnot]
    exact ⟨hkept _ _ _ (by decide) (by decide), hkept _ _ _ (by decide) (by decide)⟩

/-! The other half (R383): what it is given leaves this half's registers and engine. -/

theorem World.wr_other (w : World) (h : Half) (f g : Field) (i j v : Nat) (hf : f.bp = false) : (w.wr h.other f i v).rd h g j = w.rd h g j :=
  World.rd_wr_half _ _ _ _ _ _ (Half.ne_other h) hf

theorem World.setQ_other (w : World) (h : Half) (q : Nat) (f : Field) (i : Nat) (hu : unlogged f = true) :
    (w.setQ h.other q).rd h f i = w.rd h f i ∧ (w.setQ h.other q).gns.get h = w.gns.get h := by
  unfold World.setQ
  dsimp only
  refine ⟨?_, ?_⟩
  · rw [World.rd_when, World.rd_raise _ _ _ _ _ _ _ hu, ite_self, World.wr_other _ _ _ _ _ _ _ rfl, World.rd_updGnss]
  · rw [World.apply_when World.gns, World.raise_gns, ite_self, World.wr_gns, World.gns_updGnss, Two.get_upd_ne _ _ (Half.ne_other h)]

theorem World.showSol_other (w : World) (h : Half) (x : Sol) (f : Field) (i : Nat) : (w.showSol h.other x).rd h f i = w.rd h f i := by
  unfold World.showSol
  dsimp only
  simp (disch := decide) only [World.wrI, World.wr_other]

theorem World.solOne_other (w : World) (h srv : Half) (x : Sol) (q : Nat) (f : Field) (i : Nat)
    (hf : (!partIn moduleParts (.reg f.reg) && decide (f.reg < 2 ^ 25)) = true) (hu : unlogged f = true) :
    (w.solOne q srv x h.other).rd h f i = w.rd h f i ∧ (w.solOne q srv x h.other).gns.get h = w.gns.get h := by
  obtain ⟨hrd, hgns⟩ := w.setQ_other h q f i hu
  unfold World.solOne
  dsimp only
  obtain ⟨u, hu⟩ : ∃ u, w.setQ h.other q = u := ⟨_, rfl⟩
  rw [hu] at hrd hgns ⊢
  obtain ⟨v, hv⟩ : ∃ v, (u.when (q ≠ 0) fun w => w.showSol h.other x) = v := ⟨_, rfl⟩
  rw [hv]
  have hmod : Rest moduleParts ((v.moduleWrite srv h.other 0 (1 ≤ q) ((((x.speed : Nat)) : Rat) / 1000)).moduleWrite srv h.other 1 (1 ≤ q)
      ((((x.course : Nat)) : Rat) / 100)) v := World.moduleWrite_rest (by decide) (World.moduleWrite_rest (by decide) (Rest.refl _ v))
  have hrest : Rest (allBut .gns) v u := hv ▸ Rest.when (Rest.refl _ _) fun _ e => World.showSol_rest (by decide) e
  rw [hmod.rd _ _ _ hf, hmod.gns (by decide), hrest.gns (by decide), ← hv, World.rd_when, World.showSol_other, ite_self]
  exact ⟨hrd, hgns⟩

/-! A heading (R384). -/

/-- A heading in one half's registers. -/
def World.hdgOne (ok : Bool) (hd sig : Nat) (w : World) (k : Half) : World :=
  let was := w.flag k F.GNS_STATUS.HDG_OK
  let w := (w.wr k F.GNS_STATUS.HDG_OK 0 (b2n ok)).wr k F.GNS_HDG.VALID 0 (b2n ok)
  let w := w.when ok fun w => (w.wr k F.GNS_HDG.HDG 0 hd).wr k F.GNS_HDG.SIG 0 (satTo 15 sig)
  w.when (was != ok) fun w => w.raise k 216 (evArg 0xFF 0xFF (b2n ok))

theorem World.hdgOne_leaves (w : World) (h : Half) (ok : Bool) (hd sig : Nat) :
    (w.hdgOne ok hd sig h).rd h F.GNS_STATUS.HDG_OK = b2n ok ∧ (w.hdgOne ok hd sig h).rd h F.GNS_HDG.VALID = b2n ok ∧
    (w.hdgOne ok hd sig h).rd h F.GNS_HDG.HDG = (if ok then hd % 2 ^ 16 else w.rd h F.GNS_HDG.HDG) ∧
    (ok = true → (w.hdgOne ok hd sig h).rd h F.GNS_HDG.SIG = satTo 15 sig) ∧ (w.hdgOne ok hd sig h).gns = w.gns := by
  unfold World.hdgOne
  dsimp only
  refine ⟨?_, ?_, ?_, fun hok => ?_, ?_⟩
  · rw [World.rd_when, World.rd_raise _ _ _ _ _ _ _ (by decide), ite_self, World.rd_when, World.rd_wr_apart _ _ _ _ _ _ _ _ (by decide),
      World.rd_wr_apart _ _ _ _ _ _ _ _ (by decide), ite_self, World.rd_wr_apart _ _ _ _ _ _ _ _ (by decide), World.rd_wr_same _ _ _ _ _ (by decide)]
    exact b2n_mod_two ok
  · rw [World.rd_when, World.rd_raise _ _ _ _ _ _ _ (by decide), ite_self, World.rd_when, World.rd_wr_apart _ _ _ _ _ _ _ _ (by decide),
      World.rd_wr_apart _ _ _ _ _ _ _ _ (by decide), ite_self, World.rd_wr_same _ _ _ _ _ (by decide)]
    exact b2n_mod_two ok
  · rw [World.rd_when, World.rd_raise _ _ _ _ _ _ _ (by decide), ite_self, World.rd_when, World.rd_wr_apart _ _ _ _ _ _ _ _ (by decide),
      World.rd_wr_same _ _ _ _ _ (by decide), World.rd_wr_apart _ _ _ _ _ _ _ _ (by decide), World.rd_wr_apart _ _ _ _ _ _ _ _ (by decide)]
  · rw [World.rd_when, World.rd_raise _ _ _ _ _ _ _ (by decide), ite_self, World.rd_when, hok, if_pos rfl, World.rd_wr_same _ _ _ _ _ (by decide)]
    exact Nat.mod_eq_of_lt (satTo_lt 15 _)
  · rw [World.apply_when World.gns, World.raise_gns, ite_self, World.apply_when World.gns, World.wr_gns, World.wr_gns, ite_self, World.wr_gns,
      World.wr_gns]

theorem World.hdgOne_other (w : World) (h : Half) (ok : Bool) (hd sig : Nat) (f : Field) (i : Nat) (hu : unlogged f = true) :
    (w.hdgOne ok hd sig h.other).rd h f i = w.rd h f i := by
  unfold World.hdgOne
  dsimp only
  rw [World.rd_when, World.rd_raise _ _ _ _ _ _ _ hu, ite_self, World.rd_when, World.wr_other _ _ _ _ _ _ _ rfl, World.wr_other _ _ _ _ _ _ _ rfl,
    ite_self, World.wr_other _ _ _ _ _ _ _ rfl, World.wr_other _ _ _ _ _ _ _ rfl]

theorem World.gns_hdgOne (w : World) (h : Half) (ok : Bool) (hd sig : Nat) : (w.hdgOne ok hd sig h).gns = w.gns := (w.hdgOne_leaves h ok hd sig).2.2.2.2

/-! The trust in the pose (R385, R313). -/

/-- The grade judged leaves POSE_OK and the engine's own registers. -/
theorem World.rd_evalGrade_poseOk (w : World) (h : Half) : (w.evalGrade h).rd h F.GRD_STATUS.POSE_OK = w.rd h F.GRD_STATUS.POSE_OK := by
  have hset (u : World) (n : Nat) : (u.setGrade h n).rd h F.GRD_STATUS.POSE_OK = u.rd h F.GRD_STATUS.POSE_OK := by
    unfold World.setGrade
    dsimp only
    split
    · rfl
    · rw [World.rd_raise _ _ _ _ _ _ _ (by decide), World.rd_wr_apart _ _ _ _ _ _ _ _ (by decide), World.rd_wr_apart _ _ _ _ _ _ _ _ (by decide)]
  have hblind (u : World) : (u.checkBlind h).rd h F.GRD_STATUS.POSE_OK = u.rd h F.GRD_STATUS.POSE_OK :=
    (World.checkBlind_rest (q0 := [.trk, .reg F.TRK_STOP.HOLD.reg]) (by decide) (Rest.refl _ u)).rd _ _ _ (by decide)
  unfold World.evalGrade
  dsimp only
  rw [hblind, World.rd_when, hset, ite_self]
  rfl

theorem World.poseTrust_leaves (w : World) (h : Half) (ok : Bool) : (w.poseTrust h ok).rd h F.GRD_STATUS.POSE_OK = b2n ok := by
  have hset : (w.wr h F.GRD_STATUS.POSE_OK 0 (b2n ok)).rd h F.GRD_STATUS.POSE_OK = b2n ok :=
    (World.rd_wr_same _ _ _ _ _ (by decide)).trans (b2n_mod_two ok)
  unfold World.poseTrust
  dsimp only
  split
  · exact hset
  · exact (World.rd_evalGrade_poseOk _ _).trans hset

/-- The parts that the trust in the pose touches. -/
def trustParts : List Part := [.evt, .grd, .trk, .reg 0x100018, .reg 0x400020, .reg 0xE00018, .reg 0xE00108]

/-- Whether the pose is trusted. -/
def World.trusted (w : World) (h : Half) (p : Pose) : Bool :=
  let g := w.gns.get h
  let was := w.flag h F.GNS_STATUS.TRUSTED
  let src := !g.imuBad || g.imuSib
  let recent := match g.posAt with
    | some t => decide (w.mt h ≤ t + 10 * sec)
    | none => false
  src && recent && (if was then p.sigH ≤ 500 && p.sigPsi ≤ 1000 else p.sigH ≤ 300 && p.sigPsi ≤ 600 && decide (1 ≤ g.posQ))

theorem World.judgeTrust_leaves (w : World) (h : Half) (p : Pose) : (w.judgeTrust h p).rd h F.GNS_STATUS.TRUSTED = b2n (w.trusted h p) ∧
    (w.judgeTrust h p).rd h F.GRD_STATUS.POSE_OK = b2n (w.trusted h p) ∧ (w.judgeTrust h p).gns = w.gns := by
  have heq : w.judgeTrust h p = (((w.wr h F.GNS_STATUS.TRUSTED 0 (b2n (w.trusted h p))).when (w.flag h F.GNS_STATUS.TRUSTED != w.trusted h p)
      fun u => u.raise h 219 (evArg 0xFF 0xFF (b2n (w.trusted h p)))).poseTrust h (w.trusted h p)) := rfl
  rw [heq]
  obtain ⟨u, hu⟩ : ∃ u, ((w.wr h F.GNS_STATUS.TRUSTED 0 (b2n (w.trusted h p))).when (w.flag h F.GNS_STATUS.TRUSTED != w.trusted h p)
      fun u => u.raise h 219 (evArg 0xFF 0xFF (b2n (w.trusted h p)))) = u := ⟨_, rfl⟩
  have hrest : Rest trustParts (u.poseTrust h (w.trusted h p)) u := World.poseTrust_rest (by decide) (Rest.refl _ u)
  rw [hu]
  refine ⟨?_, u.poseTrust_leaves h _, ?_⟩
  · rw [hrest.rd _ _ _ (by decide), ← hu, World.rd_when, World.rd_raise _ _ _ _ _ _ _ (by decide), ite_self, World.rd_wr_same _ _ _ _ _ (by decide)]
    exact b2n_mod_two _
  · rw [hrest.gns (by decide), ← hu, World.apply_when World.gns, World.raise_gns, ite_self, World.wr_gns]

theorem World.untrusted {w : World} {h : Half} {p : Pose}
    (hn : ((w.gns.get h).imuBad = true ∧ (w.gns.get h).imuSib = false) ∨ 500 < p.sigH ∨ 1000 < p.sigPsi) : w.trusted h p = false := by
  unfold World.trusted
  dsimp only
  obtain ⟨hbad, hsib⟩ | hn := hn
  · rw [hbad, hsib]
    rfl
  · rw [Bool.and_eq_false_iff]
    right
    split
    · simp only [Bool.and_eq_false_iff, decide_eq_false_iff_not]
      omega
    · simp only [Bool.and_eq_false_iff, decide_eq_false_iff_not]
      omega

end Sys2Proof.Machine
end

section
/-!
PROOF. O46: measurements, corrections, solutions and the fused pose.
-/
namespace Sys2Proof.Machine

/-- The measurement record of a half (R368). -/
def World.ownRecord (w : World) (h : Half) (tm : Nat) (es : List MEntry) (bias drift : Int) (clk : Bool) : MRec :=
  { half := h, aligned := w.flag h F.GNS_STATUS.ALIGNED, suspect := w.flag h F.GNS_STATUS.BB_SUSPECT, t := tm
    bias := bias, drift := drift, clk := clk, rate := sec / w.measPeriod h, entries := es }

/-- The exclusions first seen told of (R371). -/
def World.exclTold (w : World) (h : Half) (es : List MEntry) : World :=
  w.forAll (es.filter (fun e => e.excl ≠ 0 && e.excl ≠ 4 && e.excl ≠ 5)) fun w e =>
    if (w.gns.get h).seen.contains (e.key, e.excl) then w
    else (w.updGnss h fun g => { g with seen := (e.key, e.excl) :: g.seen }).raise h 213 (evArg e.ch 0xFF e.excl)

theorem World.exclTold_rest (w : World) (h : Half) (es : List MEntry) : Rest [.evt, .gns, .reg F.EVT_STATUS.LOST.reg] (w.exclTold h es) w := by
  refine Rest.forAll (Rest.refl _ _) fun u e hu => ?_
  split
  · exact hu
  · exact Rest.raise _ _ _ (by decide) (World.updGnss_rest (by decide) hu)

theorem World.ownRecord_congr {w v : World} {h : Half} (tm : Nat) (es : List MEntry) (bias drift : Int) (clk : Bool)
    (hrd : ∀ f ∈ [F.GNS_STATUS.ALIGNED, F.GNS_STATUS.BB_SUSPECT, F.GNS_MEAS_CFG.RATE], w.rd h f = v.rd h f) :
    w.ownRecord h tm es bias drift clk = v.ownRecord h tm es bias drift clk := by
  unfold World.ownRecord World.measPeriod World.flag
  rw [hrd F.GNS_STATUS.ALIGNED (by simp), hrd F.GNS_STATUS.BB_SUSPECT (by simp), hrd F.GNS_MEAS_CFG.RATE (by simp)]

/-- A record stored, shown and sent. -/
def World.recordStored (w : World) (h : Half) (r : MRec) : World :=
  let g := w.gns.get h
  let a := if w.rd h F.GNS_MREC_OWN.VALUE = 0x10000 then 0x18000 else 0x10000
  ((w.putMem h 7 a r.bytes).updGnss h fun _ => { g with own := some r, sent := some r }).wr h F.GNS_MREC_OWN.VALUE 0 a

theorem World.recordStored_leaves (w : World) (h : Half) (r : MRec) :
    ((w.recordStored h r).gns.get h).own = some r ∧ ((w.recordStored h r).gns.get h).sent = some r ∧
    (w.recordStored h r).rd h F.GNS_MREC_OWN.VALUE = if w.rd h F.GNS_MREC_OWN.VALUE = 0x10000 then 0x18000 else 0x10000 := by
  unfold World.recordStored
  dsimp only
  rw [World.wr_gns, World.gns_updGnss, Two.get_upd_same]
  refine ⟨rfl, rfl, (World.rd_wr_same _ _ _ _ _ (by decide)).trans ?_⟩
  split
  · rfl
  · rfl

/-! The sibling's record (R369, R371). -/

/-- The sibling's record taken. -/
def World.sibTaken (w : World) (h : Half) (r : MRec) : World :=
  let a := if w.rd h F.GNS_MREC_SIB.VALUE = 0x20000 then 0x28000 else 0x20000
  ((w.putMem h 7 a r.bytes).updGnss h fun g => { g with sib := some r }).wr h F.GNS_MREC_SIB.VALUE 0 a

theorem World.sibTaken_leaves (w : World) (h : Half) (r : MRec) :
    (w.sibTaken h r).gns = w.gns.upd h (fun g => { g with sib := some r }) ∧
    (w.sibTaken h r).rd h F.GNS_MREC_SIB.VALUE = (if w.rd h F.GNS_MREC_SIB.VALUE = 0x20000 then 0x28000 else 0x20000) ∧
    (∀ f i, fieldsApart F.GNS_MREC_SIB.VALUE f = true → (w.sibTaken h r).rd h f i = w.rd h f i) ∧
    Rest [.gns, .dram, .reg F.GNS_MREC_SIB.VALUE.reg] (w.sibTaken h r) w := by
  unfold World.sibTaken
  dsimp only
  refine ⟨?_, (World.rd_wr_same _ _ _ _ _ (by decide)).trans ?_, fun f i hf => World.rd_wr_apart _ _ _ _ _ _ _ _ hf,
    Rest.wr _ _ _ _ (by decide) (World.updGnss_rest (by decide) (Rest.putMem _ _ _ _ (by decide) (Rest.refl _ w)))⟩
  · rw [World.wr_gns, World.gns_updGnss, World.putMem_gns]
  · split
    · rfl
    · rfl

/-- The baseband judged bad: by a quarter of the signals. -/
def World.basebandBad (w : World) (h : Half) (ownOk sibOk : Bool) : World :=
  let w := w.raise h 214 (evArg 0xFF 0xFF 1)
  let w := w.when (!ownOk) fun w => (w.wr h F.GNS_STATUS.BB_SUSPECT 0 1).updGnss h fun g => { g with suspectAt := w.mt h }
  w.updGnss h fun g => { g with capped := ownOk = sibOk }

/-- The signals that disagree excluded. -/
def World.signalsBad (w : World) (h : Half) (bad : List (MEntry × MEntry)) : World :=
  let w := w.updGnss h fun g => { g with capped := false }
  w.forAll bad fun w p => ((w.exclude h p.1.key 4 p.1.ch).bump h F.GNS_CNT.XHALF).raise h 214 (evArg p.1.ch 0xFF 0)

theorem World.basebandBad_leaves (w : World) (h : Half) (ownOk sibOk : Bool) :
    ((w.basebandBad h ownOk sibOk).gns.get h).sib = (w.gns.get h).sib ∧
    (w.basebandBad h ownOk sibOk).rd h F.GNS_MREC_SIB.VALUE = w.rd h F.GNS_MREC_SIB.VALUE ∧
    (ownOk = true → (w.basebandBad h ownOk sibOk).rd h F.GNS_STATUS.BB_SUSPECT = w.rd h F.GNS_STATUS.BB_SUSPECT) := by
  unfold World.basebandBad
  dsimp only
  refine ⟨?_, ?_, fun hok => ?_⟩
  · rw [World.gns_updGnss, Two.get_upd_same, World.apply_when World.gns, World.gns_updGnss, World.wr_gns, World.raise_gns]
    dsimp only
    split
    · rw [Two.get_upd_same]
    · rfl
  · rw [World.rd_updGnss, World.rd_when, World.rd_updGnss, World.rd_wr_apart _ _ _ _ _ _ _ _ (by decide), ite_self,
      World.rd_raise _ _ _ _ _ _ _ (by decide)]
  · rw [hok]
    exact World.rd_raise _ _ _ _ _ _ _ (by decide)

theorem World.signalsBad_leaves (w : World) (h : Half) (bad : List (MEntry × MEntry)) :
    ((w.signalsBad h bad).gns.get h).sib = (w.gns.get h).sib ∧
    (∀ f ∈ [F.GNS_MREC_SIB.VALUE, F.GNS_STATUS.BB_SUSPECT], (w.signalsBad h bad).rd h f = w.rd h f) := by
  unfold World.signalsBad
  dsimp only
  refine ⟨?_, fun f hf => ?_⟩
  · refine (World.forAll_keeps (fun w => (w.gns.get h).sib) (fun u p => ?_) _ _).trans ?_
    · obtain ⟨e, x, hx⟩ := u.exclude_gnss h p.1.key 4 p.1.ch
      rw [World.raise_gns, World.bump, World.wr_gns, hx]
    · rw [World.gns_updGnss, Two.get_upd_same]
  · have hapart : fieldsApart F.GNS_CNT.XHALF f = true ∧ unlogged f = true := by
      simp only [List.mem_cons, List.not_mem_nil, or_false] at hf
      obtain rfl | rfl := hf
      · decide
      · decide
    refine World.forAll_keeps (fun w => w.rd h f) (fun u p => ?_) _ _
    rw [World.rd_raise _ _ _ _ _ _ _ hapart.2, World.rd_bump_apart _ _ _ _ _ _ _ hapart.1, World.rd_exclude _ _ _ _ _ _ _ _ hapart.2]

/-- The signals of two records that disagree (R371). -/
def badSignals (o r : MRec) (old : List (Nat × Int)) : List (MEntry × MEntry) :=
  let ps := commonSignals o r
  let d (p : MEntry × MEntry) : Rat := f64Val p.1.pr - f64Val p.2.pr
  let med := medianR (ps.map d)
  let amb := ambMap ps
  let moved (k : Nat) : Bool := match amb.find? (fun x => x.1 = k), old.find? (fun x => x.1 = k) with
    | some x, some y => x.2 ≠ y.2
    | _, _ => false
  ps.filter (fun p => decide (5 < absR (d p - med)) || moved p.1.key)

/-- The two halves' records compared. -/
def World.recordsCompared (w : World) (h : Half) (ownOk sibOk : Bool) (o r : MRec) : World :=
  if !(o.aligned && r.aligned && o.t = r.t) then w
  else
    let ps := commonSignals o r
    let bad := badSignals o r (w.gns.get h).amb
    let w := w.updGnss h fun g => { g with amb := ambMap ps }
    if ps.length ≤ 4 * bad.length && !bad.isEmpty then w.basebandBad h ownOk sibOk else w.signalsBad h bad

theorem World.recordsCompared_leaves (w : World) (h : Half) (ownOk sibOk : Bool) (o r : MRec) :
    ((w.recordsCompared h ownOk sibOk o r).gns.get h).sib = (w.gns.get h).sib ∧
    (w.recordsCompared h ownOk sibOk o r).rd h F.GNS_MREC_SIB.VALUE = w.rd h F.GNS_MREC_SIB.VALUE ∧
    (ownOk = true → (w.recordsCompared h ownOk sibOk o r).rd h F.GNS_STATUS.BB_SUSPECT = w.rd h F.GNS_STATUS.BB_SUSPECT) := by
  unfold World.recordsCompared
  split
  · exact ⟨rfl, rfl, fun _ => rfl⟩
  · dsimp only
    obtain ⟨u, hu⟩ : ∃ u, (w.updGnss h fun g => { g with amb := ambMap (commonSignals o r) }) = u := ⟨_, rfl⟩
    have hsib : (u.gns.get h).sib = (w.gns.get h).sib := by rw [← hu, World.gns_updGnss, Two.get_upd_same]
    have hrd (f : Field) : u.rd h f = w.rd h f := by rw [← hu, World.rd_updGnss]
    rw [hu]
    split
    · obtain ⟨hs, hm, hb⟩ := u.basebandBad_leaves h ownOk sibOk
      exact ⟨hs.trans hsib, hm.trans (hrd _), fun hok => (hb hok).trans (hrd _)⟩
    · obtain ⟨hs, hm⟩ := u.signalsBad_leaves h (badSignals o r (w.gns.get h).amb)
      exact ⟨hs.trans hsib, (hm _ (by simp)).trans (hrd _), fun _ => (hm _ (by simp)).trans (hrd _)⟩

theorem World.recordsCompared_apart {w : World} {h : Half} {ownOk sibOk : Bool} {o r : MRec} (hn : o.aligned = false ∨ r.aligned = false ∨ o.t ≠ r.t) :
    w.recordsCompared h ownOk sibOk o r = w := by
  have hc : (o.aligned && r.aligned && decide (o.t = r.t)) = false := by
    obtain hn | hn | hn := hn
    · simp [hn]
    · simp [hn]
    · simp [hn]
  rw [World.recordsCompared, hc]
  rfl

/-! A correction frame's result (R376). -/

/-- What the check of a frame gives. -/
def World.frameResult (w : World) (h : Half) (k n : Nat) (bs : List Byte) : Nat :=
  if w.flag h F.GNS_CORR_STAT.BUSY then 5
  else if n < 6 || 1029 < n || byteAt bs 0 ≠ 0xD3 || (byteAt bs 1 % 4) * 256 + byteAt bs 2 + 6 ≠ n then 1
  else if crc24q (bs.take (n - 3)) ≠ byteAt bs (n - 3) * 65536 + byteAt bs (n - 2) * 256 + byteAt bs (n - 1) then 2
  else if (NMap.get {} (w.gns.get h).src k).frames.any (fun f => f.2 = bs && decide (w.mt h ≤ f.1 + 2 * sec)) then 4
  else if !usesType (rtcmType (slice bs 3 (n - 6))) then 3
  else 0

theorem World.frameResult_good {w : World} {h : Half} {k n : Nat} {bs : List Byte} (hr : w.frameResult h k n bs = 0) :
    crc24q (bs.take (n - 3)) = byteAt bs (n - 3) * 65536 + byteAt bs (n - 2) * 256 + byteAt bs (n - 1) ∧
    usesType (rtcmType (slice bs 3 (n - 6))) = true := by
  unfold World.frameResult at hr
  split at hr
  · cases hr
  split at hr
  · cases hr
  split at hr
  · cases hr
  next hcrc =>
    split at hr
    · cases hr
    split at hr
    · cases hr
    next huses => exact ⟨not_not.mp hcrc, by simpa using huses⟩

theorem World.frameResult_lt (w : World) (h : Half) (k n : Nat) (bs : List Byte) : w.frameResult h k n bs < 8 := by
  unfold World.frameResult
  split_ifs
  all_goals decide

/-- A good frame taken by the half, and by its sibling where that has not had it. -/
def World.frameShared (w : World) (h : Half) (k : Nat) (bs : List Byte) : World :=
  let w := w.takeFrame h k bs
  let dup := (NMap.get {} (w.gns.get h.other).src k).frames.any (fun f => f.2 = bs && decide (w.mt h.other ≤ f.1 + 2 * sec))
  w.when (w.rd h F.XNG_STATUS.UP = 1 && !dup) fun w => w.takeFrame h.other k bs

theorem World.frameShared_leaves (w : World) (h : Half) (k : Nat) (bs : List Byte) :
    (∃ f ∈ (NMap.get {} ((w.frameShared h k bs).gns.get h).src k).frames, f.2 = bs) ∧
    ∀ f i, frameFree f = true → (w.frameShared h k bs).rd h f i = w.rd h f i := by
  obtain ⟨hkept, -, hrd⟩ := w.takeFrame_leaves h k bs
  unfold World.frameShared
  dsimp only
  obtain ⟨u, hu⟩ : ∃ u, w.takeFrame h k bs = u := ⟨_, rfl⟩
  obtain ⟨-, hother, hrd2⟩ := u.takeFrame_leaves h.other k bs
  rw [Half.other_other] at hother
  rw [hu] at hkept hrd ⊢
  refine ⟨?_, fun f i hf => ?_⟩
  · rw [World.apply_when (fun w => w.gns.get h), hother, ite_self]
    exact hkept
  · rw [World.rd_when, hrd2 _ _ _ hf, ite_self, hrd _ _ _ hf]

/-! The latch (R366). -/

/-- The latch taken in the engine. -/
def World.latched (w : World) (h : Half) (b tm : Nat) : World :=
  w.updGnss h fun g => { g with latBuf := b, tm := tm, ch := g.ch.map (fun x => (x.1, { x.2 with lateSince := false })) }

/-- The latch shown. -/
def World.latchShown (w : World) (h : Half) (b tm : Nat) : World :=
  ((w.wr h F.GNS_LAT_BUF.VALUE 0 (6144 * b)).wr h F.GNS_LAT_SEQ.VALUE 0 (tm / (10 * ms))).wr h F.GNS_STATUS.ALIGNED 0
    (b2n (w.flag h F.XNG_STATUS.TSYNC_OK))

theorem World.latched_leaves (w : World) (h : Half) (b tm : Nat) :
    (((w.latched h b tm).gns.get h).tm = tm ∧ ((w.latched h b tm).gns.get h).latBuf = b) ∧ ∀ g f i, (w.latched h b tm).rd g f i = w.rd g f i := by
  unfold World.latched
  rw [World.gns_updGnss, Two.get_upd_same]
  exact ⟨⟨rfl, rfl⟩, fun _ _ _ => rfl⟩

theorem World.latchShown_leaves (w : World) (h : Half) (b tm : Nat) :
    (w.latchShown h b tm).rd h F.GNS_LAT_SEQ.VALUE = tm / (10 * ms) % 2 ^ 32 ∧
    (w.latchShown h b tm).rd h F.GNS_LAT_BUF.VALUE = 6144 * b % 2 ^ 32 ∧
    (w.latchShown h b tm).rd h F.GNS_STATUS.ALIGNED = w.rd h F.XNG_STATUS.TSYNC_OK ∧ (w.latchShown h b tm).gns = w.gns := by
  unfold World.latchShown
  refine ⟨?_, ?_, ?_, by rw [World.wr_gns, World.wr_gns, World.wr_gns]⟩
  · rw [World.rd_wr_apart _ _ _ _ _ _ _ _ (by decide)]
    exact World.rd_wr_same _ _ _ _ _ (by decide)
  · rw [World.rd_wr_apart _ _ _ _ _ _ _ _ (by decide), World.rd_wr_apart _ _ _ _ _ _ _ _ (by decide)]
    exact World.rd_wr_same _ _ _ _ _ (by decide)
  · rw [World.rd_wr_same _ _ _ _ _ (by decide)]
    exact (b2n_mod_two _).trans (World.b2n_flag _ _ _ rfl)

/-! A heading's test (R384). -/

/-- Whether a heading is good: the baseline as stored, and measured at its length. -/
def headingOk (base old : Option Rat) (ratio common len : Nat) : Bool :=
  let moved := match base, old with
    | some b, some o => decide (1 < absR (b - o))
    | _, _ => false
  match base with
  | some b => !moved && decide (300 ≤ ratio) && decide (5 ≤ common) && decide (absR ((((len : Nat)) : Rat) - b) ≤ 20)
  | none => false

/-! A bad IMU (R386). -/

theorem World.distrusted_leaves (w : World) (h : Half) (bad sib : Bool) :
    let v := if bad && !sib && w.flag h F.GNS_STATUS.TRUSTED then
        ((w.wr h F.GNS_STATUS.TRUSTED 0 0).raise h 219 (evArg 0xFF 0xFF 0)).poseTrust h false else w
    v.gns = w.gns ∧ v.rd h F.GNS_STATUS.TRUSTED = (if bad = true ∧ sib = false then 0 else w.rd h F.GNS_STATUS.TRUSTED) := by
  dsimp only
  split
  next hc =>
    simp only [Bool.and_eq_true, Bool.not_eq_true'] at hc
    obtain ⟨u, hu⟩ : ∃ u, (w.wr h F.GNS_STATUS.TRUSTED 0 0).raise h 219 (evArg 0xFF 0xFF 0) = u := ⟨_, rfl⟩
    have hrest : Rest trustParts (u.poseTrust h false) u := World.poseTrust_rest (by decide) (Rest.refl _ u)
    rw [hu, hrest.gns (by decide), hrest.rd _ _ _ (by decide), if_pos hc.1, ← hu, World.raise_gns, World.wr_gns,
      World.rd_raise _ _ _ _ _ _ _ (by decide)]
    exact ⟨rfl, World.rd_wr_same _ _ _ _ _ (by decide)⟩
  next hc =>
    refine ⟨rfl, ?_⟩
    split
    next hbad =>
      rw [hbad.1, hbad.2, Bool.not_false, Bool.true_and, Bool.true_and, Bool.not_eq_true, World.flag_eq_false_iff rfl] at hc
      exact hc
    · rfl

theorem headingOk_bad {base old : Option Rat} {ratio common len : Nat} (hn : base = none ∨ ratio < 300 ∨ common < 5) :
    headingOk base old ratio common len = false := by
  unfold headingOk
  dsimp only
  cases base with
  | none => rfl
  | some b =>
    obtain hn | hn | hn := hn
    · cases hn
    · simp [Nat.not_le.mpr hn]
    · simp [Nat.not_le.mpr hn]

theorem headingOk_good {b : Rat} {old : Option Rat} {ratio common len : Nat} (hr : 300 ≤ ratio) (hc : 5 ≤ common)
    (hl : absR ((len : Rat) - b) ≤ 20) (ho : ∀ o, old = some o → absR (b - o) ≤ 1) : headingOk (some b) old ratio common len = true := by
  unfold headingOk
  dsimp only
  rw [decide_eq_true hr, decide_eq_true hc, decide_eq_true hl, Bool.and_true, Bool.and_true, Bool.and_true]
  cases old with
  | none => rfl
  | some o =>
    dsimp only
    rw [decide_eq_false (not_lt.mpr (ho o rfl))]
    rfl

/-! The fused pose (R385). -/

/-- The pose as published. -/
def World.posed (w : World) (h : Half) (p : Pose) (slew : Bool) (t : Nat) : Pose :=
  { p with
    t := t, q := (w.gns.get h).posQ
    flags := b2n (w.flag h F.GNS_STATUS.TRUSTED) + 2 * b2n (w.flag h F.GNS_STATUS.HDG_OK) + 4 * b2n (w.gns.get h).imuSib + 8 * b2n slew }

theorem bitOf_flags (a b c d : Bool) : bitOf (b2n a + 2 * b2n b + 4 * b2n c + 8 * b2n d) 0 = a ∧
    bitOf (b2n a + 2 * b2n b + 4 * b2n c + 8 * b2n d) 3 = d := by
  cases a <;> cases b <;> cases c <;> cases d <;> decide

/-- A pose stored in its ring. -/
def World.poseRung (w : World) (h : Half) (i : Nat) (p : Pose) : World :=
  ((w.putMem h 8 (64 * i) p.bytes).updGnss h fun g => { g with pse := i }).wr h F.GNS_PSE_BUF.ADDR 0 (64 * i)

/-- A pose kept as the half's. -/
def World.poseKept (w : World) (h : Half) (p : Pose) : World := { w with pose := w.pose.set h (some p) }

def World.poseStored (w : World) (h : Half) (p : Pose) : World := (w.poseRung h (((w.gns.get h).pse + 1) % 128) p).poseKept h p

theorem World.rd_poseKept (w : World) (h g : Half) (p : Pose) (f : Field) (i : Nat) : (w.poseKept h p).rd g f i = w.rd g f i := rfl

theorem World.poseStored_leaves (w : World) (h : Half) (p : Pose) : (w.poseStored h p).pose.get h = some p ∧
    (w.poseStored h p).rd h F.GNS_PSE_BUF.ADDR = 64 * (((w.gns.get h).pse + 1) % 128) ∧
    ∀ f i, fieldsApart F.GNS_PSE_BUF.ADDR f = true → (w.poseStored h p).rd h f i = w.rd h f i := by
  have hlt : ((w.gns.get h).pse + 1) % 128 < 128 := Nat.mod_lt _ (by decide)
  refine ⟨Two.get_set_same _ _ _, ?_, fun f i hf => ?_⟩
  · rw [World.poseStored, World.rd_poseKept, World.poseRung, World.rd_wr_same _ _ _ _ _ (by decide)]
    exact Nat.mod_eq_of_lt (Nat.lt_trans (Nat.mul_lt_mul_of_pos_left hlt (by decide)) (by decide))
  · rw [World.poseStored, World.rd_poseKept, World.poseRung, World.rd_wr_apart _ _ _ _ _ _ _ _ hf, World.rd_updGnss, World.rd_putMem]

/-- The module writes of a pose. -/
def World.poseWrites (w : World) (srv h : Half) (src : Bool) (p : Pose) : World :=
  ((w.moduleWrite srv h 2 src (((p.yaw : Int) : Rat) / 100)).moduleWrite srv h 3 src (((p.pitch : Int) : Rat) / 100)).moduleWrite srv h 4 src
    (((p.roll : Int) : Rat) / 100)

theorem World.poseWrites_rest (w : World) (srv h : Half) (src : Bool) (p : Pose) : Rest moduleParts (w.poseWrites srv h src p) w :=
  World.moduleWrite_rest (by decide) (World.moduleWrite_rest (by decide) (World.moduleWrite_rest (by decide) (Rest.refl _ w)))

end Sys2Proof.Machine

open Sys2Proof Sys2Proof.Machine

/-- Settles O46: each engine's publication by its parts. -/
theorem gnssRecords : Obligations.gnssRecords := by
  unfold Obligations.gnssRecords
  refine ⟨?latch, ?rateWrite, ?rateApply, ?rateNone, ?record, ?recordNot, ?sibling, ?siblingNot, ?suspect, ?readmit, ?frame, ?timeout, ?solution,
    ?solutionNot, ?heading, ?headingNot, ?pose, ?imu, ?cold, ?clear⟩
  case latch =>
    intro h s
    obtain ⟨tm, htm⟩ : ∃ tm, s.w.mt h / s.w.measPeriod h * s.w.measPeriod h = tm := ⟨_, rfl⟩
    obtain ⟨b, hb⟩ : ∃ b, ((s.w.gns.get h).latBuf + 1) % 2 = b := ⟨_, rfl⟩
    have hb2 : b < 2 := hb ▸ Nat.mod_lt _ Nat.two_pos
    obtain ⟨m, hexec⟩ : ∃ m, exec (.measurementLatch h) s = .next { s with w := ((s.w.putMem h 6 (6144 * b) m).latched h b tm).latchShown h b tm } := by
      subst htm hb
      exact ⟨_, rfl⟩
    obtain ⟨hgns, hrest⟩ := (s.w.putMem h 6 (6144 * b) m).latched_leaves h b tm
    obtain ⟨u, hu⟩ : ∃ u, (s.w.putMem h 6 (6144 * b) m).latched h b tm = u := ⟨_, rfl⟩
    rw [hu] at hexec hgns hrest
    obtain ⟨hseq, hbuf, hal, hkept⟩ := u.latchShown_leaves h b tm
    rw [htm, hb]
    refine .of_exec hexec ⟨?_, ?_, ?_, ?_, ?_, exec_regsBut hexec rfl, exec_quiet hexec rfl⟩
    · exact (congrArg (fun g : Two Gnss => (g.get h).tm) hkept).trans hgns.1
    · exact hseq.trans (by rw [hkept, hgns.1])
    · exact hbuf.trans (Nat.mod_eq_of_lt (by omega))
    · exact (congrArg (fun g : Two Gnss => (g.get h).latBuf) hkept).trans hgns.2
    · exact hal.trans (hrest h _ _)
  case rateWrite =>
    intro h init v s
    obtain ⟨u, hu⟩ : ∃ u, (s.w.when (bitsOf v 8 8 ≤ 30) fun w => w.wr h F.GNS_MEAS_CFG.ELEV_MASK 0 (bitsOf v 8 8)) = u := ⟨_, rfl⟩
    have hrate : u.rd h F.GNS_MEAS_CFG.RATE = s.w.rd h F.GNS_MEAS_CFG.RATE := by
      rw [← hu, World.rd_when, World.rd_wr_apart _ _ _ _ _ _ _ _ (by decide), ite_self]
    have helev : u.rd h F.GNS_MEAS_CFG.ELEV_MASK = if bitsOf v 8 8 ≤ 30 then bitsOf v 8 8 else s.w.rd h F.GNS_MEAS_CFG.ELEV_MASK := by
      rw [← hu, World.rd_when, World.rd_wr_same _ _ _ _ _ (by decide)]
      simp only [decide_eq_true_eq, Nat.mod_eq_of_lt (bitsOf_lt v 8 8)]
    have hgns : u.gns = s.w.gns := by rw [← hu, World.apply_when World.gns, World.wr_gns, ite_self]
    have hexec : exec (.measRateWrite h init v) s = .next { s with
        w := if s.own.serves h && bitsOf v 0 2 ≠ u.rd h F.GNS_MEAS_CFG.RATE then u.updGnss h fun g => { g with rate := some (bitsOf v 0 2) } else u } := by
      change execMeasRateWrite h init v s = _
      unfold execMeasRateWrite lift
      dsimp only
      rw [hu]
    by_cases hc : s.own.server = some h ∧ bitsOf v 0 2 ≠ s.w.rd h F.GNS_MEAS_CFG.RATE
    · rw [hrate, Own.serves_iff.mpr hc.1, decide_eq_true hc.2] at hexec
      refine .of_exec hexec ⟨helev, hrate, ?_, exec_regsBut hexec rfl, exec_quiet hexec rfl⟩
      rw [if_pos hc]
      dsimp only
      rw [Bool.and_self, if_pos rfl, World.gns_updGnss, Two.get_upd_same]
    · have hg : (s.own.serves h && decide (bitsOf v 0 2 ≠ s.w.rd h F.GNS_MEAS_CFG.RATE)) = false := by
        rw [Bool.eq_false_iff, ne_eq, Bool.and_eq_true, Own.serves_iff, decide_eq_true_eq]
        exact hc
      rw [hrate, hg, if_neg Bool.false_ne_true] at hexec
      refine .of_exec hexec ⟨helev, hrate, ?_, exec_regsBut hexec rfl, exec_quiet hexec rfl⟩
      rw [if_neg hc]
      exact congrArg (fun g : Two Gnss => (g.get h).rate) hgns
  case rateApply =>
    intro s r hr
    have horelse : (s.w.gns.a.rate <|> s.w.gns.b.rate) = some r := by
      obtain ha | ⟨ha, hb⟩ := hr
      · rw [ha]
        rfl
      · rw [ha, hb]
        rfl
    have hexec : exec .measRateApply s = .next { s with
        w := ((s.w.updGnss .A fun g => { g with rate := none }).updGnss .B fun g => { g with rate := none }).wrBoth F.GNS_MEAS_CFG.RATE 0 r } := by
      change execMeasRateApply s = _
      unfold execMeasRateApply lift
      dsimp only
      rw [horelse]
    refine .of_exec hexec ⟨fun h => ⟨World.rd_wrBoth_same _ _ _ _ _ (by decide), ?_⟩, exec_regsBut hexec rfl, exec_quiet hexec rfl⟩
    dsimp only
    rw [World.wrBoth_gns, World.gns_updGnss, World.gns_updGnss]
    cases h
    · rfl
    · rfl
  case rateNone =>
    intro s ha hb
    refine .of_exec (t := s) ?_ rfl
    change execMeasRateApply s = _
    unfold execMeasRateApply lift
    dsimp only
    rw [ha, hb]
    rfl
  case record =>
    intro h entries bias drift clk s hon
    have hexec : exec (.measurementRecord h entries bias drift clk) s = .next { s with
        w := if (s.w.gns.get h).tm + 3 * ms < s.w.mt h then s.w.missEpoch h
          else let es := (entries.take 192).map (s.w.markEntry h)
            (s.w.exclTold h es).recordStored h ((s.w.exclTold h es).ownRecord h (s.w.gns.get h).tm es bias drift clk) } := by
      change execMeasurementRecord h entries bias drift clk s = _
      unfold execMeasurementRecord lift
      dsimp only
      rw [hon, Bool.not_true, if_neg Bool.false_ne_true]
      simp only [decide_eq_true_eq]
      rfl
    refine .of_exec hexec ⟨fun hlate => ?_, fun hin => ?_, exec_quiet hexec rfl⟩
    · dsimp only
      rw [if_pos hlate]
      have hrest : Rest [.evt, .reg F.EVT_STATUS.LOST.reg, .reg F.GNS_CNT.EPOCH.reg] (s.w.missEpoch h) s.w :=
        World.missEpoch_rest (by decide) (Rest.refl _ _)
      refine ⟨?_, hrest.gns (by decide), hrest.regsBut rfl⟩
      rw [World.missEpoch, World.rd_raise _ _ _ _ _ _ _ (by decide), World.rd_bump_same _ _ _ _ (by decide), satInc_eq_satTo]
    · obtain ⟨es, hes⟩ : ∃ es, (entries.take 192).map (s.w.markEntry h) = es := ⟨_, rfl⟩
      have htold := s.w.exclTold_rest h es
      obtain ⟨u, hu⟩ : ∃ u, s.w.exclTold h es = u := ⟨_, rfl⟩
      rw [hu] at htold
      have hrec : u.ownRecord h (s.w.gns.get h).tm es bias drift clk = s.w.ownRecord h (s.w.gns.get h).tm es bias drift clk :=
        World.ownRecord_congr _ _ _ _ _ fun f hf => by
          simp only [List.mem_cons, List.not_mem_nil, or_false] at hf
          obtain rfl | rfl | rfl := hf
          · exact htold.rd _ _ _ (by decide)
          · exact htold.rd _ _ _ (by decide)
          · exact htold.rd _ _ _ (by decide)
      obtain ⟨hown, hsent, hval⟩ := u.recordStored_leaves h (s.w.ownRecord h (s.w.gns.get h).tm es bias drift clk)
      dsimp only
      rw [if_neg (Nat.not_lt.mpr hin), hes, hu, hrec, hown, hsent, hval, htold.rd _ _ _ (by decide)]
      have hrest : Rest [.evt, .gns, .dram, .reg F.EVT_STATUS.LOST.reg, .reg F.GNS_MREC_OWN.VALUE.reg]
          (u.recordStored h (s.w.ownRecord h (s.w.gns.get h).tm es bias drift clk)) s.w :=
        Rest.wr _ _ _ _ (by decide) (World.updGnss_rest (by decide) (Rest.putMem _ _ _ _ (by decide) (Rest.mono htold (by decide))))
      exact ⟨rfl, rfl, rfl, hrest.regsBut rfl⟩
  case recordNot =>
    intro h entries bias drift clk s hoff
    refine .of_exec (t := s) ?_ rfl
    change execMeasurementRecord h entries bias drift clk s = _
    unfold execMeasurementRecord lift
    dsimp only
    rw [hoff]
    rfl
  case sibling =>
    intro h ownOk sibOk s r hsent
    obtain ⟨hgns, hval, hrd, hrest⟩ := s.w.sibTaken_leaves h r
    obtain ⟨u, hu⟩ : ∃ u, s.w.sibTaken h r = u := ⟨_, rfl⟩
    rw [hu] at hgns hval hrd hrest
    have hsib : (u.gns.get h).sib = some r := by rw [hgns, Two.get_upd_same]
    have hown : (u.gns.get h).own = (s.w.gns.get h).own := by rw [hgns, Two.get_upd_same]
    have hexcl : (u.gns.get h).excl = (s.w.gns.get h).excl := by rw [hgns, Two.get_upd_same]
    have hsus : u.rd h F.GNS_STATUS.BB_SUSPECT = s.w.rd h F.GNS_STATUS.BB_SUSPECT := hrd _ _ (by decide)
    cases ho : (s.w.gns.get h).own with
    | none =>
      have hexec : exec (.siblingRecordReceived h ownOk sibOk) s = .next { s with w := u } := by
        change execSiblingRecordReceived h ownOk sibOk s = _
        unfold execSiblingRecordReceived lift
        dsimp only
        rw [hsent]
        change Host.Outcome.next { s with
          w := match ((s.w.sibTaken h r).gns.get h).own with
            | none => s.w.sibTaken h r
            | some o => (s.w.sibTaken h r).recordsCompared h ownOk sibOk o r } = _
        rw [hu, hown, ho]
      exact .of_exec hexec ⟨hsib, hval, fun _ => hrest.regsBut rfl, nofun, fun _ => hsus, exec_regsBut hexec rfl, exec_quiet hexec rfl⟩
    | some o =>
      have hexec : exec (.siblingRecordReceived h ownOk sibOk) s = .next { s with w := u.recordsCompared h ownOk sibOk o r } := by
        change execSiblingRecordReceived h ownOk sibOk s = _
        unfold execSiblingRecordReceived lift
        dsimp only
        rw [hsent]
        change Host.Outcome.next { s with
          w := match ((s.w.sibTaken h r).gns.get h).own with
            | none => s.w.sibTaken h r
            | some o => (s.w.sibTaken h r).recordsCompared h ownOk sibOk o r } = _
        rw [hu, hown, ho]
      obtain ⟨hs, hm, hb⟩ := u.recordsCompared_leaves h ownOk sibOk o r
      refine .of_exec hexec ⟨hs.trans hsib, hm.trans hval, nofun, fun o' ho' hn => ?_, fun hok => (hb hok).trans hsus, exec_regsBut hexec rfl,
        exec_quiet hexec rfl⟩
      obtain rfl : o = o' := Option.some.inj ho'
      dsimp only
      rw [World.recordsCompared_apart hn]
      exact ⟨hrest.regsBut rfl, hexcl⟩
  case siblingNot =>
    intro h ownOk sibOk s hsent
    refine .of_exec (t := s) ?_ rfl
    change execSiblingRecordReceived h ownOk sibOk s = _
    unfold execSiblingRecordReceived lift
    dsimp only
    rw [hsent]
  case suspect =>
    intro h s
    have hexec : exec (.bbSuspectClear h) s = .next { s with
        w := s.w.when ((s.w.gns.get h).suspectAt + 60 * sec ≤ s.w.mt h) fun w => w.wr h F.GNS_STATUS.BB_SUSPECT 0 0 } := rfl
    refine .of_exec hexec ⟨?_, exec_regsBut hexec rfl, ?_, exec_quiet hexec rfl⟩
    · dsimp only
      rw [World.rd_when, World.rd_wr_same _ _ _ _ _ (by decide)]
      simp only [decide_eq_true_eq, Nat.zero_mod]
    · dsimp only
      rw [World.apply_when World.gns, World.wr_gns, ite_self]
  case readmit =>
    intro h key reason s
    obtain ⟨n, hn⟩ : ∃ n, (if reason = 5 then 30 else if reason = 4 then 10 else 2) = n := ⟨_, rfl⟩
    have hexec : exec (.exclusionReadmit h key reason) s = .next { s with w := s.w.updGnss h fun g =>
        { g with excl := g.excl.filter (fun x => !(x.1 = key && x.2.1 = reason && decide (x.2.2 + n * sec ≤ s.w.mt h))) } } := by
      have ht : (if reason = 5 then 30 * sec else if reason = 4 then 10 * sec else 2 * sec) = n * sec := by
        rw [← hn]
        split_ifs
        · rfl
        · rfl
        · rfl
      change execExclusionReadmit h key reason s = _
      unfold execExclusionReadmit lift
      dsimp only
      rw [ht]
    refine .of_exec hexec ⟨?_, exec_regsBut hexec rfl, exec_quiet hexec rfl⟩
    dsimp only
    rw [World.gns_updGnss, Two.get_upd_same, hn]
    refine List.filter_congr fun x _ => ?_
    rw [Bool.eq_iff_iff]
    simp only [Bool.not_eq_true', Bool.and_eq_false_iff, decide_eq_false_iff_not, decide_eq_true_eq, Nat.not_le, or_assoc, ne_eq]
  case frame =>
    intro h init v s n bs hn hbs
    obtain ⟨res, hres⟩ : ∃ res, s.w.frameResult h (bitsOf v 16 2) n bs = res := ⟨_, rfl⟩
    obtain ⟨u, hu⟩ : ∃ u, s.w.wr h F.GNS_CORR_STAT.RES 0 res = u := ⟨_, rfl⟩
    have hexec : exec (.correctionFrame h init v) s = .next { s with
        w := if res = 0 || res = 3 then u.frameShared h (bitsOf v 16 2) bs else u } := by
      subst hn hbs
      rw [← hu, ← hres]
      rfl
    obtain ⟨t, ht⟩ : ∃ t, (if (decide (res = 0) || decide (res = 3)) = true then u.frameShared h (bitsOf v 16 2) bs else u) = t := ⟨_, rfl⟩
    rw [ht] at hexec
    obtain ⟨hkept, hrd⟩ := u.frameShared_leaves h (bitsOf v 16 2) bs
    have hures : u.rd h F.GNS_CORR_STAT.RES = res := by
      rw [← hu, World.rd_wr_same _ _ _ _ _ (by decide)]
      exact Nat.mod_eq_of_lt (hres ▸ s.w.frameResult_lt h _ n bs)
    have htres : t.rd h F.GNS_CORR_STAT.RES = res := by
      rw [← ht]
      split
      · exact (hrd _ _ (by decide)).trans hures
      · exact hures
    refine .of_exec hexec ⟨fun hbusy => ?_, fun hbusy hbad => ?_, fun h0 => ?_, fun h0 h3 => ?_, exec_quiet hexec rfl⟩
    · rw [htres, ← hres, World.frameResult, World.flag_eq_true_iff.mpr hbusy, if_pos rfl]
    · have hc : (decide (n < 6) || decide (1029 < n) || decide (byteAt bs 0 ≠ 0xD3) || decide (byteAt bs 1 % 4 * 256 + byteAt bs 2 + 6 ≠ n)) = true := by
        obtain hbad | hbad | hbad := hbad
        · simp [hbad]
        · simp [hbad]
        · simp [hbad]
      rw [htres, ← hres, World.frameResult, (World.flag_eq_false_iff rfl).mpr hbusy, if_neg Bool.false_ne_true, if_pos hc]
    · rw [htres] at h0
      obtain ⟨hcrc, huses⟩ := World.frameResult_good (hres.trans h0)
      refine ⟨hcrc, huses, ?_⟩
      rw [← ht, decide_eq_true h0]
      exact hkept
    · rw [htres] at h0 h3
      have htu : t = u := by
        rw [← ht, decide_eq_false h0, decide_eq_false h3]
        rfl
      dsimp only
      rw [htu, ← hu]
      exact ⟨World.wr_gns _ _ _ _ _, (Rest.wr _ _ _ _ (by decide) (Rest.refl [.reg F.GNS_CORR_STAT.RES.reg] _)).regsBut rfl⟩
  case timeout =>
    intro h s
    have hexec : exec (.correctionSourceTimeout h) s = .next { s with w := s.w.corrEval h } := rfl
    obtain ⟨new, hgns, hmem, hvalid, hany, hactive, -⟩ := s.w.corrEval_leaves h
    have hsame (k : Nat) : (NMap.get {} (agedSources (s.w.mt h) (s.w.gns.get h).src) k).valid (s.w.mt h) =
        (NMap.get {} (s.w.gns.get h).src k).valid (s.w.mt h) := by
      obtain ⟨v, hv⟩ := get_agedSources (s.w.mt h) (s.w.gns.get h).src k
      rw [hv]
      rfl
    have hnew : ((s.w.corrEval h).gns.get h).active = new := by rw [hgns, Two.get_upd_same]
    have hsrc : ((s.w.corrEval h).gns.get h).src = agedSources (s.w.mt h) (s.w.gns.get h).src := by rw [hgns, Two.get_upd_same]
    refine .of_exec hexec ⟨?_, ?_, fun h0 => ?_, fun k hk => ?_, exec_regsBut hexec rfl, exec_quiet hexec rfl⟩
    · dsimp only
      rw [hvalid, hsrc]
      exact congrArg (fun l : List Nat => (l.map (fun k => 2 ^ k)).sum) (validSources_aged _ _).symm
    · dsimp only
      rw [hvalid, hany, b2n_eq_ite]
      simp only [sum_pow_eq_zero_iff, Bool.not_eq_true', List.isEmpty_eq_false_iff, ne_eq, ite_not]
    · dsimp only at h0 ⊢
      rw [hvalid, sum_pow_eq_zero_iff] at h0
      rw [hnew, Option.eq_none_iff_forall_ne_some]
      intro k hk
      simpa [h0] using hmem k hk
    · dsimp only at hk ⊢
      rw [hnew] at hk
      have hin := hmem k hk
      obtain ⟨hlt, hv⟩ := List.mem_filter.mp hin
      rw [hactive, hk, hsrc, hsame]
      exact ⟨Nat.mod_eq_of_lt (List.mem_range.mp hlt), hv⟩
  case solution =>
    intro h x s hon
    obtain ⟨q, hq⟩ : ∃ q, s.w.solQuality h x = q := ⟨_, rfl⟩
    have hq8 : q < 8 := Nat.lt_trans (hq ▸ s.w.solQuality_lt h x) (by decide)
    obtain ⟨u, hu⟩ : ∃ u, s.w.raimTaken h (x.raim.take 3) = u := ⟨_, rfl⟩
    have hraim := s.w.raimTaken_rest h (x.raim.take 3)
    have hkeep {β : Type} (g : Gnss → β) (hg : ∀ x e s, g { x with excl := e, seen := s } = g x) : g (u.gns.get h) = g (s.w.gns.get h) :=
      hu ▸ World.raimTaken_keeps g hg s.w h (x.raim.take 3)
    rw [hu] at hraim
    have huq : u.solQuality h x = q :=
      (World.solQuality_congr x (hkeep Gnss.capped fun _ _ _ => rfl) (hkeep Gnss.usedAt fun _ _ _ => rfl)
        (World.mt_congr (hraim.now (by decide)) (hraim.tim (by decide)) h) (hraim.rd _ _ _ (by decide))).trans hq
    obtain ⟨v, hv⟩ : ∃ v, u.solOne q s.srv x h = v := ⟨_, rfl⟩
    have hexec : exec (.positionSolution h x) s = .next { s with
        w := v.when (v.rd h F.XNG_STATUS.UP = 1 && !v.flag h.other F.GNS_STATUS.POSITION_ENG) fun w => w.solOne q s.srv x h.other } := by
      change execPositionSolution h x s = _
      unfold execPositionSolution lift
      dsimp only
      rw [World.flag_eq_true_iff.mpr hon, Bool.not_true, if_neg Bool.false_ne_true, ← hv, ← huq, ← hu]
      rfl
    obtain ⟨t, ht⟩ : ∃ t, (v.when (v.rd h F.XNG_STATUS.UP = 1 && !v.flag h.other F.GNS_STATUS.POSITION_ENG) fun w => w.solOne q s.srv x h.other) = t :=
      ⟨_, rfl⟩
    have hrd (f : Field) (hf : (!partIn moduleParts (.reg f.reg) && decide (f.reg < 2 ^ 25)) = true) (hl : unlogged f = true) : t.rd h f = v.rd h f := by
      rw [← ht, World.rd_when, (v.solOne_other h s.srv x q f 0 hf hl).1, ite_self]
    have hgns : t.gns.get h = v.gns.get h := by
      rw [← ht, World.apply_when (fun w => w.gns.get h), (v.solOne_other h s.srv x q F.GNS_STATUS.Q 0 (by decide) (by decide)).2, ite_self]
    obtain ⟨hset, hpos, hsome, hnone⟩ := u.solOne_leaves h s.srv x hq8
    rw [hv] at hset hpos hsome hnone
    rw [ht] at hexec
    refine .of_exec hexec ⟨?_, ?_, fun hne => ?_, fun h0 => ?_, exec_quiet hexec rfl⟩
    · dsimp only
      rw [hrd _ (by decide) (by decide), hset, hraim.rd _ _ _ (by decide), hkeep Gnss.fixedRun fun _ _ _ => rfl, hq]
      exact shownQuality_eq q _ _
    · dsimp only
      rw [hgns, hpos, hrd _ (by decide) (by decide)]
    · rw [hq] at hne
      obtain ⟨hlat, hspeed, hsats, hsig⟩ := hsome hne
      dsimp only
      rw [World.rdI, hrd _ (by decide) (by decide), hrd _ (by decide) (by decide), hrd _ (by decide) (by decide), hrd _ (by decide) (by decide)]
      exact ⟨congrArg (signed 32) hlat, hspeed, hsats, hsig⟩
    · rw [hq] at h0
      obtain ⟨hlat, hspeed⟩ := hnone h0
      dsimp only
      rw [hrd _ (by decide) (by decide), hrd _ (by decide) (by decide), hlat, hspeed, hraim.rd _ _ _ (by decide), hraim.rd _ _ _ (by decide)]
      exact ⟨rfl, rfl⟩
  case solutionNot =>
    intro h x s hoff
    refine .of_exec (t := s) ?_ rfl
    change execPositionSolution h x s = _
    unfold execPositionSolution lift
    dsimp only
    rw [(World.flag_eq_false_iff rfl).mpr hoff]
    rfl
  case heading =>
    intro h ratio common len az sig s hon
    obtain ⟨e, he⟩ : ∃ e, ledgerEntry s.ledger 5 0 = e := ⟨_, rfl⟩
    obtain ⟨ok, hok⟩ : ∃ ok, headingOk (e.map fun b => f32At b 0 * 1000) (s.w.gns.get h).base ratio common len = ok := ⟨_, rfl⟩
    obtain ⟨hd, hhd⟩ : ∃ hd, ((roundR ((((az : Int) : Rat) / 1000 -
        ((e.map (fun b => f32At b 4)).getD 0) * 180 / piR) * 100)) % 36000).toNat = hd := ⟨_, rfl⟩
    obtain ⟨u, hu⟩ : ∃ u, (s.w.updGnss h fun g => { g with base := e.map fun b => f32At b 0 * 1000 }) = u := ⟨_, rfl⟩
    obtain ⟨v, hv⟩ : ∃ v, u.hdgOne ok hd sig h = v := ⟨_, rfl⟩
    have hexec : exec (.headingSolution h ratio common len az sig) s = .next { s with
        w := v.when (v.rd h F.XNG_STATUS.UP = 1 && !v.flag h.other F.GNS_STATUS.HEADING_ENG) fun w => w.hdgOne ok hd sig h.other } := by
      change execHeadingSolution h ratio common len az sig s = _
      unfold execHeadingSolution lift
      dsimp only
      rw [World.flag_eq_true_iff.mpr hon, Bool.not_true, if_neg Bool.false_ne_true, he, ← hv, ← hok, ← hhd, ← hu]
      rfl
    obtain ⟨t, ht⟩ : ∃ t, (v.when (v.rd h F.XNG_STATUS.UP = 1 && !v.flag h.other F.GNS_STATUS.HEADING_ENG) fun w => w.hdgOne ok hd sig h.other) = t :=
      ⟨_, rfl⟩
    have hrd (f : Field) (hl : unlogged f = true) : t.rd h f = v.rd h f := by
      rw [← ht, World.rd_when, v.hdgOne_other h ok hd sig f 0 hl, ite_self]
    have hgns : t.gns = u.gns := by rw [← ht, World.apply_when World.gns, World.gns_hdgOne, ite_self, ← hv, World.gns_hdgOne]
    obtain ⟨hhok, hvalid, hhdg, hsig, -⟩ := u.hdgOne_leaves h ok hd sig
    rw [hv] at hhok hvalid hhdg hsig
    rw [ht] at hexec
    refine .of_exec hexec ⟨fun hbad => ?_, fun b hb hr hc hlen hbase => ?_, ?_, exec_quiet hexec rfl⟩
    · have hf : ok = false := by
        rw [← hok]
        exact headingOk_bad (hbad.imp_left fun hn => by rw [← he, hn]; rfl)
      dsimp only
      rw [hrd _ (by decide), hrd _ (by decide), hrd _ (by decide), hhok, hvalid, hhdg, hf]
      exact ⟨rfl, rfl, by rw [← hu]; rfl⟩
    · have hes : e = some b := he.symm.trans hb
      have hgood : ok = true := by
        rw [← hok, hes]
        exact headingOk_good hr hc hlen hbase
      dsimp only
      rw [hrd _ (by decide), hrd _ (by decide), hrd _ (by decide), hrd _ (by decide), hhok, hvalid, hhdg, hsig hgood, hgood, if_pos rfl, ← hhd, hes]
      refine ⟨rfl, rfl, rfl, ?_⟩
      have hnn := Int.emod_nonneg (roundR (((az : Rat) / 1000 - f32At b 4 * 180 / piR) * 100)) (show (36000 : Int) ≠ 0 by decide)
      have hlt := Int.emod_lt_of_pos (roundR (((az : Rat) / 1000 - f32At b 4 * 180 / piR) * 100)) (show (0 : Int) < 36000 by decide)
      refine Nat.mod_eq_of_lt ?_
      change (roundR (((az : Rat) / 1000 - f32At b 4 * 180 / piR) * 100) % 36000).toNat < 2 ^ 16
      omega
    · dsimp only
      rw [hgns, ← hu, World.gns_updGnss, Two.get_upd_same, he]
  case headingNot =>
    intro h ratio common len az sig s hoff
    refine .of_exec (t := s) ?_ rfl
    change execHeadingSolution h ratio common len az sig s = _
    unfold execHeadingSolution lift
    dsimp only
    rw [(World.flag_eq_false_iff rfl).mpr hoff]
    rfl
  case pose =>
    intro h p slew s
    obtain ⟨htr, hpose, hgns⟩ := s.w.judgeTrust_leaves h p
    obtain ⟨u, hu⟩ : ∃ u, s.w.judgeTrust h p = u := ⟨_, rfl⟩
    rw [hu] at htr hpose hgns
    obtain ⟨q, hq⟩ : ∃ q, u.posed h p slew (s.w.mt h / (10 * ms) * (10 * ms)) = q := ⟨_, rfl⟩
    obtain ⟨v, hv⟩ : ∃ v, u.poseStored h q = v := ⟨_, rfl⟩
    have hexec : exec (.posePublish h p slew) s = .next { s with
        w := v.poseWrites s.srv h (!(u.gns.get h).imuBad || (u.gns.get h).imuSib) q } := by
      change execPosePublish h p slew s = _
      unfold execPosePublish lift
      dsimp only
      rw [hu, ← hv, ← hq]
      rfl
    obtain ⟨hkept, haddr, hrd⟩ := u.poseStored_leaves h q
    rw [hv] at hkept haddr hrd
    have hmod := v.poseWrites_rest s.srv h (!(u.gns.get h).imuBad || (u.gns.get h).imuSib) q
    obtain ⟨t, ht⟩ : ∃ t, v.poseWrites s.srv h (!(u.gns.get h).imuBad || (u.gns.get h).imuSib) q = t := ⟨_, rfl⟩
    rw [ht] at hexec hmod
    have httr : t.rd h F.GNS_STATUS.TRUSTED = b2n (s.w.trusted h p) := (hmod.rd _ _ _ (by decide)).trans ((hrd _ _ (by decide)).trans htr)
    have htpose : t.rd h F.GRD_STATUS.POSE_OK = b2n (s.w.trusted h p) := (hmod.rd _ _ _ (by decide)).trans ((hrd _ _ (by decide)).trans hpose)
    refine .of_exec hexec ⟨⟨q, ?_, ?_⟩, ?_, fun hbad hsib => ?_, fun hsig => ?_, htpose.trans httr.symm, exec_quiet hexec rfl⟩
    · dsimp only
      rw [hmod.pose (by decide), hkept]
    · have hflag : t.flag h F.GNS_STATUS.TRUSTED = u.flag h F.GNS_STATUS.TRUSTED := by
        rw [World.flag, World.flag, httr, htr]
      obtain ⟨h0, h3⟩ := bitOf_flags (u.flag h F.GNS_STATUS.TRUSTED) (u.flag h F.GNS_STATUS.HDG_OK) (u.gns.get h).imuSib slew
      dsimp only
      rw [hflag, ← hgns, ← hq]
      exact ⟨rfl, rfl, rfl, rfl, rfl, rfl, h0, h3⟩
    · dsimp only
      rw [hmod.rd _ _ _ (by decide), haddr, hgns]
    · dsimp only
      rw [httr, World.untrusted (.inl ⟨hbad, hsib⟩)]
      rfl
    · dsimp only
      rw [httr, World.untrusted (.inr hsig)]
      rfl
  case imu =>
    intro h bad s
    obtain ⟨sib, hsib⟩ : ∃ sib, (bad && s.own.alive h.other && decide (s.w.rd h F.XNG_STATUS.UP = 1) && !(s.w.gns.get h.other).imuBad) = sib := ⟨_, rfl⟩
    obtain ⟨u, hu⟩ : ∃ u, ((s.w.updGnss h fun g => { g with imuBad := bad, imuSib := sib }).when
        ((s.w.gns.get h).imuBad != bad || (s.w.gns.get h).imuSib != sib) fun w => w.raise h 221 (evArg 0xFF 0xFF (b2n bad))) = u := ⟨_, rfl⟩
    obtain ⟨v, hv⟩ : ∃ v, (if bad && !sib && u.flag h F.GNS_STATUS.TRUSTED then
        ((u.wr h F.GNS_STATUS.TRUSTED 0 0).raise h 219 (evArg 0xFF 0xFF 0)).poseTrust h false else u) = v := ⟨_, rfl⟩
    have hexec : exec (.imuFault h bad) s = .next { s with w := v } := by
      change execImuFault h bad s = _
      unfold execImuFault lift
      dsimp only
      rw [hsib, hu, hv]
    have hgns : (u.gns.get h) = { s.w.gns.get h with imuBad := bad, imuSib := sib } := by
      rw [← hu, World.apply_when World.gns, World.raise_gns, ite_self, World.gns_updGnss, Two.get_upd_same]
    have htr : u.rd h F.GNS_STATUS.TRUSTED = s.w.rd h F.GNS_STATUS.TRUSTED := by
      rw [← hu, World.rd_when, World.rd_raise _ _ _ _ _ _ _ (by decide), ite_self, World.rd_updGnss]
    obtain ⟨hvgns, hvtr⟩ : v.gns = u.gns ∧ v.rd h F.GNS_STATUS.TRUSTED = (if bad = true ∧ sib = false then 0 else u.rd h F.GNS_STATUS.TRUSTED) :=
      hv ▸ u.distrusted_leaves h bad sib
    refine .of_exec hexec ⟨?_, ?_, ?_, exec_quiet hexec rfl⟩
    · dsimp only
      rw [hvgns, hgns]
    · dsimp only
      rw [hvgns, hgns, hsib]
    · dsimp only
      rw [hvtr, htr, hvgns, hgns]
  case cold =>
    intro h init s
    have hexec : exec (.gnssCold h init) s = .next { s with
        w := s.w.when (s.w.inService h) fun w => w.updGnss h fun g => { g with stored := none } } := rfl
    refine .of_exec hexec ⟨?_, exec_regsBut hexec rfl, exec_quiet hexec rfl⟩
    dsimp only
    rw [World.apply_when (fun w => (w.gns.get h).stored), World.gns_updGnss, Two.get_upd_same]
  case clear =>
    intro h init s
    have hexec : exec (.gnsClrCnt h init) s = .next { s with w := s.w.setReg h F.GNS_CNT.LATE 0 0 } := rfl
    exact .of_exec hexec ⟨World.reg_setReg_same _ _ _ _ _, exec_regsBut hexec rfl, World.setReg_gns _ _ _ _ _, exec_quiet hexec rfl⟩
end

section
/-!
SUPPORT. R407–R426: a channel's state, its frames in their registers, the error counters and the queue.
-/
namespace Sys2Proof.Machine

/-! A register written whole, read by its fields. -/

theorem Word.field_ofNat {v lo n : Nat} (hw : lo + n ≤ 32) : Word.field (BitVec.ofNat 32 v) lo n = v / 2 ^ lo % 2 ^ n := by
  refine Nat.eq_of_testBit_eq fun i => ?_
  rw [Word.field, BitVec.extractLsb'_toNat, BitVec.toNat_ofNat, Nat.testBit_mod_two_pow, Nat.testBit_mod_two_pow, Nat.testBit_shiftRight,
    Nat.testBit_mod_two_pow, Nat.testBit_div_two_pow, Nat.add_comm i lo]
  by_cases hi : i < n
  · rw [decide_eq_true hi, decide_eq_true (show lo + i < 32 by omega), Bool.true_and]
  · rw [decide_eq_false hi, Bool.false_and, Bool.false_and]

theorem World.rd_setReg_same (w : World) (h : Half) (f g : Field) (i v : Nat) (hreg : g.reg = f.reg) (hbp : g.bp = f.bp) (hw : g.lo + g.w ≤ 32) :
    (w.setReg h f i (BitVec.ofNat 32 v)).rd h g i = v / 2 ^ g.lo % 2 ^ g.w := by
  have hsame (u : World) : u.reg h g i = u.reg h f i := by
    rw [World.reg, World.reg, World.file, World.file, fieldKey, fieldKey, hreg, hbp]
  rw [World.rd, hsame, World.reg_setReg_same, Word.field_ofNat hw]

theorem World.rd_setReg_reg (w : World) (h k : Half) (f g : Field) (i j : Nat) (v : Word)
    (hr : (decide (f.reg < 2 ^ 25) && decide (g.reg < 2 ^ 25) && decide (g.reg ≠ f.reg)) = true) : (w.setReg h f i v).rd k g j = w.rd k g j := by
  simp only [Bool.and_eq_true, decide_eq_true_eq] at hr
  rw [World.rd, World.rd, World.reg_setReg_ne]
  exact fun hk => hr.2 (fieldKey_inj hr.1.2 hr.1.1 hk).2

theorem World.rd_setReg_idx (w : World) (h k : Half) (f g : Field) {i j : Nat} (v : Word) (hf : f.reg < 2 ^ 25) (hg : g.reg < 2 ^ 25) (hij : j ≠ i) :
    (w.setReg h f i v).rd k g j = w.rd k g j := by
  rw [World.rd, World.rd, World.reg_setReg_ne]
  exact fun hk => hij (fieldKey_inj hg hf hk).1

/-! A channel. -/

@[simp] theorem World.rd_updCan (w : World) (n : Nat) (u : CanCh → CanCh) (g : Half) (f : Field) (i : Nat) : (w.updCan n u).rd g f i = w.rd g f i := (rfl)
@[simp] theorem World.sec_updCan (w : World) (n : Nat) (u : CanCh → CanCh) : (w.updCan n u).can.sec = w.can.sec := (rfl)
theorem World.canCh_updCan (w : World) (n : Nat) (u : CanCh → CanCh) : (w.updCan n u).canCh n = u (w.canCh n) := NMap.get_set_same _ _ _ _
theorem World.canCh_congr {w v : World} (hc : w.can = v.can) (n : Nat) : w.canCh n = v.canCh n := by rw [World.canCh, World.canCh, hc]

/-- A channel's register written, and read in another field. -/
theorem World.rd_canWr_same (w : World) (n : Nat) (f : Field) (v : Nat) (hf : f.lo + f.w ≤ 32) : (w.canWr n f v).rd .A f n = v % 2 ^ f.w :=
  World.rd_wr_same _ _ _ _ _ hf
theorem World.rd_canWr_apart (w : World) (n : Nat) (f g : Field) (v : Nat) (h : Half) (i : Nat) (ha : fieldsApart f g = true) :
    (w.canWr n f v).rd h g i = w.rd h g i := World.rd_wr_apart _ _ _ _ _ _ _ _ ha
theorem World.can_canWr (w : World) (n : Nat) (f : Field) (v : Nat) : (w.canWr n f v).can = w.can := World.wr_can _ _ _ _ _
theorem World.rd_canBus (w : World) (n c : Nat) (h : Half) (f : Field) (i : Nat) (hu : unlogged f = true) : (w.canBus n c).rd h f i = w.rd h f i :=
  World.rd_raiseBoth _ _ _ _ _ _ hu
theorem World.can_canBus (w : World) (n c : Nat) : (w.canBus n c).can = w.can := World.raiseBoth_can _ _ _

/-! A frame's words in a transmit buffer (R414, R417). -/

/-- The words of a frame at index `i`. -/
def World.tbWords (w : World) (i : Nat) (f : CanFrame) : World :=
  let w := w.setReg .A F.CAN_TXB_W0.ID i (BitVec.ofNat 32 (f.id + (if f.ide then 2 ^ 31 else 0)))
  let w := w.setReg .A F.CAN_TXB_W1.DLC i (BitVec.ofNat 32 (f.dlc + (if f.fdf then 2 ^ 30 else 0) + (if f.brs then 2 ^ 29 else 0)))
  w.forAll (List.range 16) fun w k => w.setReg .A F.CAN_TXB_DATA.DATA (16 * i + k) (BitVec.ofNat 32 (u32At f.data (4 * k)))

theorem World.tbWords_rest (w : World) (i : Nat) (f : CanFrame) : Rest [.reg 0x900100, .reg 0x900104, .reg 0x900108] (w.tbWords i f) w :=
  Rest.forAll (Rest.setReg _ _ _ _ (by decide) (Rest.setReg _ _ _ _ (by decide) (Rest.refl _ w))) fun _ _ e => Rest.setReg _ _ _ _ (by decide) e

theorem World.tbWords_leaves (w : World) (i : Nat) (f : CanFrame) : (w.tbWords i f).rd .A F.CAN_TXB_W0.ID i = f.id % 2 ^ 29 ∧
    (w.tbWords i f).rd .A F.CAN_TXB_W1.DLC i = f.dlc % 16 ∧
    (f.ide = true → f.id < 2 ^ 31 → (w.tbWords i f).rd .A F.CAN_TXB_W0.IDE i = 1) := by
  have hdata (u : World) (g : Field) (hg : g.reg < 0x900108) : (u.forAll (List.range 16) fun w k =>
      w.setReg .A F.CAN_TXB_DATA.DATA (16 * i + k) (BitVec.ofNat 32 (u32At f.data (4 * k)))).rd .A g i = u.rd .A g i := by
    refine World.forAll_keeps (fun w => w.rd .A g i) (fun v k => World.rd_setReg_reg _ _ _ _ _ _ _ _ ?_) _ _
    simp only [Bool.and_eq_true, decide_eq_true_eq]
    exact ⟨⟨by decide, by omega⟩, by omega⟩
  unfold World.tbWords
  dsimp only
  refine ⟨?_, ?_, fun hide hid => ?_⟩
  · rw [hdata _ _ (by decide), World.rd_setReg_reg _ _ _ _ _ _ _ _ (by decide), World.rd_setReg_same _ _ _ _ _ _ rfl rfl (by decide)]
    change (f.id + if f.ide = true then 2 ^ 31 else 0) / 2 ^ 0 % 2 ^ 29 = _
    split
    · omega
    · omega
  · rw [hdata _ _ (by decide), World.rd_setReg_same _ _ _ _ _ _ rfl rfl (by decide)]
    change ((f.dlc + if f.fdf = true then 2 ^ 30 else 0) + if f.brs = true then 2 ^ 29 else 0) / 2 ^ 0 % 2 ^ 4 = _
    split
    · split
      · omega
      · omega
    · split
      · omega
      · omega
  · rw [hdata _ _ (by decide), World.rd_setReg_reg _ _ _ _ _ _ _ _ (by decide),
      World.rd_setReg_same _ _ F.CAN_TXB_W0.ID F.CAN_TXB_W0.IDE _ _ rfl rfl (by decide), hide, if_pos rfl]
    change (f.id + 2 ^ 31) / 2 ^ 31 % 2 ^ 1 = 1
    omega

/-! The scheduler (R417). -/

theorem World.loadTb0_eq (w : World) (n m : Nat) (f : CanFrame) :
    w.loadTb0 n m f = ((w.tbWords (3 * n) f).setReg .A F.CAN_TXST.STATE (3 * n) (BitVec.ofNat 32 (2 ^ 29 + 2 ^ 28))).updCan n fun c =>
      { c with inTb0 := some m } := rfl

theorem World.loadTb0_leaves (w : World) (n m : Nat) (f : CanFrame) : (w.loadTb0 n m f).tbState n 0 = 1 ∧
    (w.loadTb0 n m f).rd .A F.CAN_TXST.SCHED (3 * n) = 1 ∧ ((w.loadTb0 n m f).canCh n).inTb0 = some m ∧
    (w.loadTb0 n m f).rd .A F.CAN_TXB_W1.DLC (3 * n) = f.dlc % 16 ∧ (w.loadTb0 n m f).rd .A F.CAN_TXB_W0.ID (3 * n) = f.id % 2 ^ 29 ∧
    Rest [.can, .reg 0x900044, .reg 0x900100, .reg 0x900104, .reg 0x900108] (w.loadTb0 n m f) w := by
  obtain ⟨hid, hdlc, -⟩ := w.tbWords_leaves (3 * n) f
  refine ⟨?_, ?_, ?_, ?_, ?_, World.loadTb0_rest (by decide) (Rest.refl _ w)⟩
  · rw [World.tbState, World.loadTb0_eq, World.rd_updCan]
    exact World.rd_setReg_same _ _ _ _ _ _ rfl rfl (by decide)
  · rw [World.loadTb0_eq, World.rd_updCan]
    exact World.rd_setReg_same _ _ _ _ _ _ rfl rfl (by decide)
  · rw [World.loadTb0_eq, World.canCh_updCan]
  · rw [World.loadTb0_eq, World.rd_updCan, World.rd_setReg_reg _ _ _ _ _ _ _ _ (by decide), hdlc]
  · rw [World.loadTb0_eq, World.rd_updCan, World.rd_setReg_reg _ _ _ _ _ _ _ _ (by decide), hid]

/-- The counters that a composed frame moves on (R423). -/
def World.countersMoved (w : World) (n m : Nat) : World :=
  w.forAll ((w.can.sec.sigsOf m).filter (fun s => s.1.kind = 1)) fun w s =>
    w.updCan n fun c => { c with ctr := NMap.set 0 c.ctr s.2 ((NMap.get 0 c.ctr s.2 + 1) % 2 ^ s.1.len) }

theorem World.compose_world (w : World) (n m : Nat) : (w.compose n m).2 = w.countersMoved n m := rfl

theorem World.countersMoved_keeps {β : Type} (g : CanCh → β) (hg : ∀ c x, g { c with ctr := x } = g c) (w : World) (n m : Nat) :
    g ((w.countersMoved n m).canCh n) = g (w.canCh n) :=
  World.forAll_keeps (fun w => g (w.canCh n)) (fun u s => by rw [World.canCh_updCan, hg]) _ _

theorem World.rd_countersMoved (w : World) (n m : Nat) (h : Half) (f : Field) (i : Nat) : (w.countersMoved n m).rd h f i = w.rd h f i :=
  World.forAll_keeps (fun w => w.rd h f i) (fun u _ => World.rd_updCan u n _ h f i) _ _

/-- The frame composed bears the message's length, and an identifier of 11 bits as it stands. -/
theorem World.compose_frame (w : World) (n m : Nat) : (w.compose n m).1.dlc = (w.can.sec.msgs.getD m {}).dlc ∧
    ((w.can.sec.msgs.getD m {}).ide = false → (w.compose n m).1.id = (w.can.sec.msgs.getD m {}).id) := by
  refine ⟨rfl, fun hide => ?_⟩
  change (w.countersMoved n m).schedId n (w.can.sec.msgs.getD m {}) = _
  rw [World.schedId, hide]
  rfl

/-- Where TB0 is taken the next frame waits; else it is put there. -/
theorem World.feedTb0_held {w : World} {n : Nat} (hst : w.tbState n 0 = 1 ∨ w.tbState n 0 = 2) : w.feedTb0 n = w := by
  unfold World.feedTb0
  dsimp only
  rw [if_pos (by simpa using hst)]

theorem World.feedTb0_free {w : World} {n m : Nat} {f : CanFrame} {l : List (Nat × CanFrame)} (h1 : w.tbState n 0 ≠ 1) (h2 : w.tbState n 0 ≠ 2)
    (hd : (w.canCh n).due = (m, f) :: l) : w.feedTb0 n = (w.updCan n fun c => { c with due := l }).loadTb0 n m f := by
  unfold World.feedTb0
  dsimp only
  rw [if_neg (by simp [h1, h2]), hd]

/-! The error counters (R418). -/

theorem World.setErrc_leaves (w : World) (n tec rec_ : Nat) :
    (w.setErrc n tec rec_).rd .A F.CAN_ERRC.REC n = min rec_ 255 ∧ (w.setErrc n tec rec_).rd .A F.CAN_ERRC.TEC n = min tec 511 ∧
    (w.rd .A F.CAN_STATUS.STATE n = 0 → (w.setErrc n tec rec_).rd .A F.CAN_STATUS.STATE n = if 128 ≤ tec ∨ 128 ≤ rec_ then 1 else 0) ∧
    (∀ h f i, fieldsApart F.CAN_ERRC.REC f = true → fieldsApart F.CAN_ERRC.TEC f = true → fieldsApart F.CAN_STATUS.STATE f = true → unlogged f = true →
      (w.setErrc n tec rec_).rd h f i = w.rd h f i) ∧ (w.setErrc n tec rec_).can = w.can := by
  obtain ⟨u, hu⟩ : ∃ u, (w.canWr n F.CAN_ERRC.TEC (min tec 511)).canWr n F.CAN_ERRC.REC (min rec_ 255) = u := ⟨_, rfl⟩
  have hrec : u.rd .A F.CAN_ERRC.REC n = min rec_ 255 := by
    rw [← hu, World.rd_canWr_same _ _ _ _ (by decide)]
    exact Nat.mod_eq_of_lt (Nat.lt_succ_of_le (Nat.min_le_right _ _))
  have htec : u.rd .A F.CAN_ERRC.TEC n = min tec 511 := by
    rw [← hu, World.rd_canWr_apart _ _ _ _ _ _ _ (by decide), World.rd_canWr_same _ _ _ _ (by decide)]
    exact Nat.mod_eq_of_lt (Nat.lt_succ_of_le (Nat.min_le_right _ _))
  have hst : u.rd .A F.CAN_STATUS.STATE n = w.rd .A F.CAN_STATUS.STATE n := by
    rw [← hu, World.rd_canWr_apart _ _ _ _ _ _ _ (by decide), World.rd_canWr_apart _ _ _ _ _ _ _ (by decide)]
  have hcan : u.can = w.can := by rw [← hu, World.can_canWr, World.can_canWr]
  have hpass (v c : Nat) (f : Field) (hf : fieldsApart F.CAN_STATUS.STATE f = true) (hl : unlogged f = true) (h : Half) (i : Nat) :
      ((u.canWr n F.CAN_STATUS.STATE v).canBus n c).rd h f i = u.rd h f i := by
    rw [World.rd_canBus _ _ _ _ _ _ hl, World.rd_canWr_apart _ _ _ _ _ _ _ hf]
  have heq : w.setErrc n tec rec_ = if u.rd .A F.CAN_STATUS.STATE n = 0 && (128 ≤ tec || 128 ≤ rec_) then (u.canWr n F.CAN_STATUS.STATE 1).canBus n 1
      else if u.rd .A F.CAN_STATUS.STATE n = 1 && !(128 ≤ tec || 128 ≤ rec_) then (u.canWr n F.CAN_STATUS.STATE 0).canBus n 2 else u := by
    rw [← hu]
    rfl
  have hkept (f : Field) (hf : fieldsApart F.CAN_STATUS.STATE f = true) (hl : unlogged f = true) (h : Half) (i : Nat) :
      (w.setErrc n tec rec_).rd h f i = u.rd h f i := by
    rw [heq]
    split_ifs
    · exact hpass _ _ _ hf hl _ _
    · exact hpass _ _ _ hf hl _ _
    · rfl
  refine ⟨(hkept _ (by decide) (by decide) _ _).trans hrec, (hkept _ (by decide) (by decide) _ _).trans htec, fun h0 => ?_, fun h f i hr ht hs hl => ?_, ?_⟩
  · rw [heq, hst, h0]
    by_cases hp : 128 ≤ tec ∨ 128 ≤ rec_
    · rw [if_pos (by simpa using hp), if_pos hp, World.rd_canBus _ _ _ _ _ _ (by decide)]
      exact World.rd_canWr_same _ _ _ _ (by decide)
    · rw [if_neg (by simpa using hp), if_neg (by simp), if_neg hp, hst, h0]
  · rw [hkept f hs hl, ← hu, World.rd_canWr_apart _ _ _ _ _ _ _ hr, World.rd_canWr_apart _ _ _ _ _ _ _ ht]
  · rw [heq]
    split_ifs
    · rw [World.can_canBus, World.can_canWr, hcan]
    · rw [World.can_canBus, World.can_canWr, hcan]
    · exact hcan

/-! The receive queue (R421, R422). -/

theorem leAt_lt (bs : List Byte) (i n : Nat) : leAt bs i n < 256 ^ n := by
  induction n generalizing i with
  | zero => exact Nat.one_pos
  | succ n ih =>
    have hbyte : byteAt bs i < 256 := BitVec.isLt _
    have hrest := ih (i + 1)
    rw [leAt, Nat.pow_succ]
    omega

theorem u32At_lt (bs : List Byte) (i : Nat) : u32At bs i < 2 ^ 32 := leAt_lt bs i 4

/-- A frame's words in the queue. -/
def World.rxWords (w : World) (n flt stamp : Nat) (self_ : Bool) (f : CanFrame) (hd : Nat) : World :=
  let i := 64 * n + hd % 64
  let w := w.setReg .A F.CAN_RXE_W0.IDE_RTR_ID i (BitVec.ofNat 32 (f.id + (if f.rtr then 2 ^ 30 else 0) + (if f.ide then 2 ^ 31 else 0)))
  let w := w.setReg .A F.CAN_RXE_W1.DLC i (BitVec.ofNat 32 (hd * 65536 + flt % 64 * 1024 + 512 * b2n f.fdf + 256 * b2n f.brs +
    128 * b2n f.esi + 64 * b2n self_ + f.dlc))
  let w := (w.setReg .A F.CAN_RXE_STAMP.STAMP (2 * i) (BitVec.ofNat 32 stamp)).setReg .A F.CAN_RXE_STAMP.STAMP (2 * i + 1)
    (BitVec.ofNat 32 (stamp / 2 ^ 32))
  w.forAll (List.range 16) fun w k => w.setReg .A F.CAN_RXE_DATA.DATA (16 * i + k) (BitVec.ofNat 32 (u32At f.data (4 * k)))

theorem World.canQueue_eq (w : World) (n flt stamp : Nat) (self_ : Bool) (f : CanFrame) :
    w.canQueue n flt stamp self_ f =
      if 64 ≤ (w.rd .A F.CAN_RXQ.HEAD n + 65536 - w.rd .A F.CAN_RXQ.TAIL n) % 65536 then
        let w := w.bump .A F.CAN_CNT.RX_OVF n
        if (w.canCh n).ovf then w else (w.updCan n fun c => { c with ovf := true }).canBus n 6
      else (w.rxWords n flt stamp self_ f (w.rd .A F.CAN_RXQ.HEAD n)).canWr n F.CAN_RXQ.HEAD ((w.rd .A F.CAN_RXQ.HEAD n + 1) % 65536) := rfl

/-- A full queue: the frame is counted. -/
theorem World.canQueue_full {w : World} {n : Nat} (flt stamp : Nat) (self_ : Bool) (f : CanFrame)
    (hu : 64 ≤ (w.rd .A F.CAN_RXQ.HEAD n + 65536 - w.rd .A F.CAN_RXQ.TAIL n) % 65536) :
    (w.canQueue n flt stamp self_ f).rd .A F.CAN_RXQ.HEAD n = w.rd .A F.CAN_RXQ.HEAD n ∧
    (w.canQueue n flt stamp self_ f).rd .A F.CAN_RXQ.TAIL n = w.rd .A F.CAN_RXQ.TAIL n ∧
    (w.canQueue n flt stamp self_ f).rd .A F.CAN_CNT.RX_OVF n = satTo 8 (w.rd .A F.CAN_CNT.RX_OVF n + 1) ∧
    ((w.canQueue n flt stamp self_ f).canCh n).ovf = true := by
  obtain ⟨u, hb⟩ : ∃ u, w.bump .A F.CAN_CNT.RX_OVF n = u := ⟨_, rfl⟩
  have heq : w.canQueue n flt stamp self_ f = if (u.canCh n).ovf then u else (u.updCan n fun c => { c with ovf := true }).canBus n 6 := by
    rw [World.canQueue_eq, if_pos hu, ← hb]
  have hrd (g : Field) (hl : unlogged g = true) : (w.canQueue n flt stamp self_ f).rd .A g n = u.rd .A g n := by
    rw [heq]
    split
    · rfl
    · rw [World.rd_canBus _ _ _ _ _ _ hl, World.rd_updCan]
  rw [hrd _ (by decide), hrd _ (by decide), hrd _ (by decide), ← hb, World.rd_bump_apart _ _ _ _ _ _ _ (by decide),
    World.rd_bump_apart _ _ _ _ _ _ _ (by decide), World.rd_bump_same _ _ _ _ (by decide), satInc_eq_satTo, heq]
  refine ⟨rfl, rfl, rfl, ?_⟩
  split
  · assumption
  · rw [World.canCh_congr (World.can_canBus _ _ _) n, World.canCh_updCan]

/-- The words of a received frame. -/
theorem World.rxWords_leaves (w : World) (n flt stamp : Nat) (self_ : Bool) (f : CanFrame) {hd : Nat} (hhd : hd < 65536) :
    (w.rxWords n flt stamp self_ f hd).rd .A F.CAN_RXE_STAMP.STAMP (2 * (64 * n + hd % 64)) = stamp % 2 ^ 32 ∧
    (f.dlc < 16 → (w.rxWords n flt stamp self_ f hd).rd .A F.CAN_RXE_W1.SEQ (64 * n + hd % 64) = hd ∧
      (w.rxWords n flt stamp self_ f hd).rd .A F.CAN_RXE_W1.DLC (64 * n + hd % 64) = f.dlc ∧
      (w.rxWords n flt stamp self_ f hd).rd .A F.CAN_RXE_W1.FILTER (64 * n + hd % 64) = flt % 64 ∧
      (w.rxWords n flt stamp self_ f hd).rd .A F.CAN_RXE_W1.SELF (64 * n + hd % 64) = b2n self_) ∧
    (∀ j, j < 16 → (w.rxWords n flt stamp self_ f hd).rd .A F.CAN_RXE_DATA.DATA (16 * (64 * n + hd % 64) + j) = u32At f.data (4 * j)) ∧
    Rest [.reg 0x901000, .reg 0x901004, .reg 0x901008, .reg 0x901010] (w.rxWords n flt stamp self_ f hd) w := by
  obtain ⟨i, hi⟩ : ∃ i, 64 * n + hd % 64 = i := ⟨_, rfl⟩
  obtain ⟨v, hv⟩ : ∃ v, hd * 65536 + flt % 64 * 1024 + 512 * b2n f.fdf + 256 * b2n f.brs + 128 * b2n f.esi + 64 * b2n self_ + f.dlc = v := ⟨_, rfl⟩
  obtain ⟨u, hu⟩ : ∃ u, ((((w.setReg .A F.CAN_RXE_W0.IDE_RTR_ID i (BitVec.ofNat 32 (f.id + (if f.rtr then 2 ^ 30 else 0) +
    (if f.ide then 2 ^ 31 else 0)))).setReg .A F.CAN_RXE_W1.DLC i (BitVec.ofNat 32 v)).setReg .A F.CAN_RXE_STAMP.STAMP (2 * i)
      (BitVec.ofNat 32 stamp)).setReg .A F.CAN_RXE_STAMP.STAMP (2 * i + 1) (BitVec.ofNat 32 (stamp / 2 ^ 32))) = u := ⟨_, rfl⟩
  have heq : w.rxWords n flt stamp self_ f hd = u.forAll (List.range 16) fun w k =>
      w.setReg .A F.CAN_RXE_DATA.DATA (16 * i + k) (BitVec.ofNat 32 (u32At f.data (4 * k))) := by
    rw [← hu, ← hv, ← hi]
    rfl
  have hdata (g : Field) (j : Nat) (hg : g.reg < 0x901010) : (w.rxWords n flt stamp self_ f hd).rd .A g j = u.rd .A g j := by
    rw [heq]
    refine World.forAll_keeps (fun w => w.rd .A g j) (fun v k => World.rd_setReg_reg _ _ _ _ _ _ _ _ ?_) _ _
    simp only [Bool.and_eq_true, decide_eq_true_eq]
    exact ⟨⟨by decide, by omega⟩, by omega⟩
  have hw1 (g : Field) (hreg : g.reg = 0x901004) (hbp : g.bp = true) (hw : g.lo + g.w ≤ 32) :
      (w.rxWords n flt stamp self_ f hd).rd .A g i = v / 2 ^ g.lo % 2 ^ g.w := by
    have hr : (decide (F.CAN_RXE_STAMP.STAMP.reg < 2 ^ 25) && decide (g.reg < 2 ^ 25) && decide (g.reg ≠ F.CAN_RXE_STAMP.STAMP.reg)) = true := by
      rw [hreg]
      decide
    rw [hdata g i (by omega), ← hu, World.rd_setReg_reg _ _ _ _ _ _ _ _ hr, World.rd_setReg_reg _ _ _ _ _ _ _ _ hr,
      World.rd_setReg_same _ _ F.CAN_RXE_W1.DLC g _ _ hreg hbp hw]
  rw [hi]
  refine ⟨?_, fun hdlc => ?_, fun j hj => ?_, ?_⟩
  · rw [hdata _ _ (by decide), ← hu, World.rd_setReg_idx _ _ _ _ _ _ (by decide) (by decide) (by omega),
      World.rd_setReg_same _ _ _ _ _ _ rfl rfl (by decide)]
    change stamp / 2 ^ 0 % 2 ^ 32 = _
    omega
  · have h1 (b : Bool) : b2n b ≤ 1 := by cases b <;> decide
    have hfdf := h1 f.fdf
    have hbrs := h1 f.brs
    have hesi := h1 f.esi
    have hself := h1 self_
    rw [hw1 _ rfl rfl (by decide), hw1 _ rfl rfl (by decide), hw1 _ rfl rfl (by decide), hw1 _ rfl rfl (by decide), ← hv]
    refine ⟨?_, ?_, ?_, ?_⟩
    · change _ / 2 ^ 16 % 2 ^ 16 = _
      omega
    · change _ / 2 ^ 0 % 2 ^ 4 = _
      omega
    · change _ / 2 ^ 10 % 2 ^ 6 = _
      omega
    · change _ / 2 ^ 6 % 2 ^ 1 = _
      omega
  · have hall := World.forAll_at (fun (w : World) k => w.rd .A F.CAN_RXE_DATA.DATA (16 * i + k)) id (fun _ k => u32At f.data (4 * k))
      (f := fun w k => w.setReg .A F.CAN_RXE_DATA.DATA (16 * i + k) (BitVec.ofNat 32 (u32At f.data (4 * k))))
      (fun w k => by
        refine (World.rd_setReg_same _ _ F.CAN_RXE_DATA.DATA F.CAN_RXE_DATA.DATA _ _ rfl rfl (by decide)).trans ?_
        change u32At f.data (4 * k) / 2 ^ 0 % 2 ^ 32 = _
        rw [Nat.pow_zero, Nat.div_one, Nat.mod_eq_of_lt (u32At_lt _ _)])
      (fun w k m hm => World.rd_setReg_idx _ _ _ _ _ _ (by decide) (by decide) (fun hk => hm (Nat.add_left_cancel hk)))
      (l := List.range 16) (by decide) u
    rw [heq]
    exact hall.1 j (List.mem_range.mpr hj)
  · exact Rest.forAll (Rest.setReg _ _ _ _ (by decide) (Rest.setReg _ _ _ _ (by decide) (Rest.setReg _ _ _ _ (by decide)
      (Rest.setReg _ _ _ _ (by decide) (Rest.refl _ w))))) fun _ _ e => Rest.setReg _ _ _ _ (by decide) e

end Sys2Proof.Machine
end

section
/-!
PROOF. O49: a CAN channel schedules, receives, queues and reports.
-/
namespace Sys2Proof.Machine

/-! A frame received (R418, R424). -/

/-- What a frame on the bus changes before it is filtered. -/
def World.rxChecked (w : World) (n md : Nat) (self_ : Bool) (f : CanFrame) : World :=
  let w := if self_ || md = 3 then w else w.setErrc n (w.canRd n F.CAN_ERRC.TEC) (w.canRd n F.CAN_ERRC.REC - 1)
  if !self_ && md ≠ 3 && w.foreignId n f then (w.bump .A F.CAN_CNT.CLASH n).clash n 1 f.ide f.id else w

/-- A field that the check of a frame does not touch. -/
def rxFree (f : Field) : Bool :=
  !partIn [.evt, .can, .reg 0x100018, .reg 0x900030, .reg 0x900034, .reg 0x90006C] (.reg f.reg) && decide (f.reg < 2 ^ 25) &&
    fieldsApart F.CAN_CNT.CLASH f

/-- What becomes of a frame that is due, as the channel `c` stands (R417). -/
def World.scheduled (w : World) (n m : Nat) (f : CanFrame) (c : CanCh) : World :=
  if w.tbState n 0 = 1 && c.inTb0 = some m then (w.loadTb0 n m f).bump .A F.CAN_CNT.SKIP n
  else if c.due.any (fun y => y.1 = m) then
    (w.updCan n fun c => { c with due := c.due.map (fun y => if y.1 = m then (m, f) else y) }).bump .A F.CAN_CNT.SKIP n
  else
    (w.updCan n fun c => { c with due := insertBy (fun a b => decide (a.2.id ≤ b.2.id)) (m, f) c.due }).feedTb0 n

theorem World.scheduled_free {w : World} {n m : Nat} (f : CanFrame) {c : CanCh} (h1 : w.tbState n 0 ≠ 1) (h2 : w.tbState n 0 ≠ 2)
    (hc : c.due = []) (hw : (w.canCh n).due = []) : ∃ v : World, w.scheduled n m f c = v.loadTb0 n m f := by
  refine ⟨(w.updCan n fun c => { c with due := insertBy (fun a b => decide (a.2.id ≤ b.2.id)) (m, f) c.due }).updCan n
    fun c => { c with due := [] }, ?_⟩
  rw [World.scheduled, if_neg (by simp [h1]), hc, if_neg (by simp)]
  refine World.feedTb0_free h1 h2 ?_
  rw [World.canCh_updCan, hw]
  rfl

theorem World.scheduled_replaced {w : World} {n m : Nat} (f : CanFrame) {c : CanCh} (h1 : w.tbState n 0 = 1) (hc : c.inTb0 = some m) :
    w.scheduled n m f c = (w.loadTb0 n m f).bump .A F.CAN_CNT.SKIP n := by
  rw [World.scheduled, if_pos (by simp [h1, hc])]

theorem World.scheduled_waits {w : World} {n m : Nat} (f : CanFrame) {c : CanCh} (h2 : w.tbState n 0 = 2) (hc : c.due = []) :
    w.scheduled n m f c = w.updCan n fun c => { c with due := insertBy (fun a b => decide (a.2.id ≤ b.2.id)) (m, f) c.due } := by
  rw [World.scheduled, if_neg (by simp [h2]), hc, if_neg (by simp)]
  exact World.feedTb0_held (.inr h2)

theorem World.rd_canOnBus (w : World) (n : Nat) (h : Half) (f : Field) (i : Nat) (hf : fieldsApart F.CAN_STATUS.STATE f = true) :
    (w.canOnBus n).rd h f i = w.rd h f i := by
  unfold World.canOnBus
  split
  · exact World.rd_canWr_apart _ _ _ _ _ _ _ hf
  · rfl

theorem World.can_canOnBus (w : World) (n : Nat) : (w.canOnBus n).can = w.can := by
  unfold World.canOnBus
  split
  · exact World.can_canWr _ _ _ _
  · rfl

theorem World.canFilter_congr {w v : World} (hs : w.can.sec = v.can.sec) (n : Nat) (f : CanFrame) : w.canFilter n f = v.canFilter n f := by
  rw [World.canFilter, World.canFilter, hs]

/-- A frame put into a buffer, and the instant of it. -/
theorem World.putTb_leaves (w : World) (n b at_ : Nat) {f : CanFrame} (hide : f.ide = true) (hid : f.id < 2 ^ 29) (hdlc : f.dlc < 16) :
    let t := (w.putTb n b f).updCan n fun c => { c with dm1At := at_ }
    t.tbState n b = 1 ∧ (t.canCh n).dm1At = at_ ∧ t.rd .A F.CAN_TXB_W0.IDE (3 * n + b) = 1 ∧ t.rd .A F.CAN_TXB_W1.DLC (3 * n + b) = f.dlc ∧
      t.rd .A F.CAN_TXB_W0.ID (3 * n + b) = f.id := by
  have heq : w.putTb n b f = (w.tbWords (3 * n + b) f).setReg .A F.CAN_TXST.STATE (3 * n + b) (BitVec.ofNat 32 (2 ^ 29)) := rfl
  obtain ⟨hid', hdlc', hide'⟩ := w.tbWords_leaves (3 * n + b) f
  have hkept (g : Field) (hg : (decide (F.CAN_TXST.STATE.reg < 2 ^ 25) && decide (g.reg < 2 ^ 25) && decide (g.reg ≠ F.CAN_TXST.STATE.reg)) = true) :
      (w.putTb n b f).rd .A g (3 * n + b) = (w.tbWords (3 * n + b) f).rd .A g (3 * n + b) := by
    rw [heq, World.rd_setReg_reg _ _ _ _ _ _ _ _ hg]
  dsimp only
  refine ⟨?_, ?_, ?_, ?_, ?_⟩
  · rw [World.tbState, World.rd_updCan, heq]
    exact World.rd_setReg_same _ _ _ _ _ _ rfl rfl (by decide)
  · rw [World.canCh_updCan]
  · rw [World.rd_updCan, hkept _ (by decide), hide' hide (by omega)]
  · rw [World.rd_updCan, hkept _ (by decide), hdlc', Nat.mod_eq_of_lt hdlc]
  · rw [World.rd_updCan, hkept _ (by decide), hid', Nat.mod_eq_of_lt hid]

theorem dm1Frame_id (sa lamps : Nat) (codes : List Byte) :
    (dm1Frame sa lamps codes).id = (if codes.length ≤ 4 then 0x18FECA00 else 0x1CECFF00) + sa % 256 := rfl

theorem World.sec_clash (w : World) (n kind : Nat) (ide : Bool) (id : Nat) : (w.clash n kind ide id).can.sec = w.can.sec := by
  unfold World.clash
  extract_lets key now told u
  have hu : u.can = w.can := World.setReg_can _ _ _ _ _
  clear_value told key u
  cases told with
  | true => exact congrArg (·.sec) hu
  | false =>
    change ((u.updCan n _).raiseBoth _ _).can.sec = _
    rw [World.raiseBoth_can, World.sec_updCan, hu]

theorem World.rxChecked_leaves (w : World) (n md : Nat) (self_ : Bool) (f : CanFrame) : (w.rxChecked n md self_ f).can.sec = w.can.sec ∧
    ∀ g i, rxFree g = true → (w.rxChecked n md self_ f).rd .A g i = w.rd .A g i := by
  unfold World.rxChecked
  extract_lets u
  have hsec : u.can.sec = w.can.sec := by
    change (if self_ || md = 3 then w else w.setErrc n (w.canRd n F.CAN_ERRC.TEC) (w.canRd n F.CAN_ERRC.REC - 1)).can.sec = _
    split
    · rfl
    · rw [(w.setErrc_leaves n _ _).2.2.2.2]
  have hrest : Rest [.evt, .can, .reg 0x100018, .reg 0x900030, .reg 0x900034, .reg 0x90006C] u w :=
    Rest.ite (Rest.refl _ w) (World.setErrc_rest (by decide) (Rest.refl _ w))
  clear_value u
  refine ⟨?_, fun g i hg => ?_⟩
  · split
    · rw [World.sec_clash, World.bump, World.wr_can, hsec]
    · exact hsec
  · simp only [rxFree, Bool.and_assoc, Bool.and_eq_true] at hg
    have hfree : (!partIn [.evt, .can, .reg 0x100018, .reg 0x900030, .reg 0x900034, .reg 0x90006C] (.reg g.reg) && decide (g.reg < 2 ^ 25)) = true := by
      rw [Bool.and_eq_true]
      exact ⟨hg.1, hg.2.1⟩
    split
    · have hclash : Rest [.evt, .can, .reg 0x100018, .reg 0x900030, .reg 0x900034, .reg 0x90006C]
          ((u.bump .A F.CAN_CNT.CLASH n).clash n 1 f.ide f.id) (u.bump .A F.CAN_CNT.CLASH n) := World.clash_rest (by decide) (Rest.refl _ _)
      rw [hclash.rd _ _ _ hfree, World.rd_bump_apart _ _ _ _ _ _ _ hg.2.2, hrest.rd _ _ _ hfree]
    · exact hrest.rd _ _ _ hfree

/-- A frame that no check stops: it is decoded and queued as its filter says. -/
theorem World.canQueue_leaves (w : World) {n : Nat} (flt stamp : Nat) (self_ : Bool) (f : CanFrame)
    (hu : (w.rd .A F.CAN_RXQ.HEAD n + 65536 - w.rd .A F.CAN_RXQ.TAIL n) % 65536 < 64) :
    let hd := w.rd .A F.CAN_RXQ.HEAD n
    let t := w.canQueue n flt stamp self_ f
    t.rd .A F.CAN_RXQ.HEAD n = (hd + 1) % 65536 ∧ t.rd .A F.CAN_RXQ.TAIL n = w.rd .A F.CAN_RXQ.TAIL n ∧
    t.rd .A F.CAN_RXE_STAMP.STAMP (2 * (64 * n + hd % 64)) = stamp % 2 ^ 32 ∧
    (f.dlc < 16 → t.rd .A F.CAN_RXE_W1.SEQ (64 * n + hd % 64) = hd ∧ t.rd .A F.CAN_RXE_W1.DLC (64 * n + hd % 64) = f.dlc ∧
      t.rd .A F.CAN_RXE_W1.FILTER (64 * n + hd % 64) = flt % 64 ∧ t.rd .A F.CAN_RXE_W1.SELF (64 * n + hd % 64) = b2n self_) ∧
    ∀ j, j < 16 → t.rd .A F.CAN_RXE_DATA.DATA (16 * (64 * n + hd % 64) + j) = u32At f.data (4 * j) := by
  dsimp only
  have hlt : w.rd .A F.CAN_RXQ.HEAD n < 65536 := World.rd_lt _ _ _ _
  obtain ⟨hstamp, hword, hdata, hrest⟩ := w.rxWords_leaves n flt stamp self_ f hlt
  rw [World.canQueue_eq, if_neg (Nat.not_le.mpr hu)]
  have hkept (g : Field) (i : Nat) (hg : fieldsApart F.CAN_RXQ.HEAD g = true) :
      ((w.rxWords n flt stamp self_ f (w.rd .A F.CAN_RXQ.HEAD n)).canWr n F.CAN_RXQ.HEAD ((w.rd .A F.CAN_RXQ.HEAD n + 1) % 65536)).rd .A g i =
        (w.rxWords n flt stamp self_ f (w.rd .A F.CAN_RXQ.HEAD n)).rd .A g i := World.rd_canWr_apart _ _ _ _ _ _ _ hg
  refine ⟨?_, (hkept _ _ (by decide)).trans (hrest.rd _ _ _ (by decide)), (hkept _ _ (by decide)).trans hstamp, fun hdlc => ?_,
    fun j hj => (hkept _ _ (by decide)).trans (hdata j hj)⟩
  · rw [World.rd_canWr_same _ _ _ _ (by decide)]
    exact Nat.mod_mod _ _
  · rw [hkept _ _ (by decide), hkept _ _ (by decide), hkept _ _ (by decide), hkept _ _ (by decide)]
    exact hword hdlc

/-! The fault input of a transceiver (R412). -/

def World.trxFaultBegun (w : World) (n : Nat) (txd : Bool) : World :=
  let was := w.canRd n F.CAN_STATUS.TRX_FAULT
  let w := w.canWr n F.CAN_STATUS.TRX_FAULT 1
  let w := w.when (txd && w.canRd n F.CAN_STATUS.TRX = 0) fun w => w.canWr n F.CAN_STATUS.TRX 2
  w.when (was = 0) fun w => w.canBus n 7

def World.trxFaultEnded (w : World) (n : Nat) : World :=
  let was := w.canRd n F.CAN_STATUS.TRX_FAULT
  let w := w.canWr n F.CAN_STATUS.TRX_FAULT 0
  w.when (was = 1 && w.canRd n F.CAN_STATUS.GREEN = 0 && w.canRd n F.CAN_STATUS.TRX = 2) fun w => w.canWr n F.CAN_STATUS.TRX 0

theorem World.trxFaultBegun_leaves (w : World) (n : Nat) (txd : Bool) : (w.trxFaultBegun n txd).rd .A F.CAN_STATUS.TRX_FAULT n = 1 ∧
    (w.trxFaultBegun n txd).rd .A F.CAN_STATUS.TRX n =
      if txd = true ∧ w.rd .A F.CAN_STATUS.TRX n = 0 then 2 else w.rd .A F.CAN_STATUS.TRX n := by
  unfold World.trxFaultBegun World.canRd
  dsimp only
  obtain ⟨u, hu⟩ : ∃ u, w.canWr n F.CAN_STATUS.TRX_FAULT 1 = u := ⟨_, rfl⟩
  have htrx : u.rd .A F.CAN_STATUS.TRX n = w.rd .A F.CAN_STATUS.TRX n := by rw [← hu, World.rd_canWr_apart _ _ _ _ _ _ _ (by decide)]
  have hfault : u.rd .A F.CAN_STATUS.TRX_FAULT n = 1 := by
    rw [← hu]
    exact World.rd_canWr_same _ _ _ _ (by decide)
  have hbus (v : World) (b : Bool) (f : Field) (hl : unlogged f = true) : (v.when b fun w => w.canBus n 7).rd .A f n = v.rd .A f n := by
    cases b with
    | true => exact World.rd_canBus _ _ _ _ _ _ hl
    | false => rfl
  rw [hu, hbus _ _ _ (by decide), hbus _ _ _ (by decide), htrx]
  by_cases h : txd = true ∧ w.rd .A F.CAN_STATUS.TRX n = 0
  · rw [if_pos h, h.1, decide_eq_true h.2]
    refine ⟨?_, World.rd_canWr_same _ _ _ _ (by decide)⟩
    exact (World.rd_canWr_apart u n F.CAN_STATUS.TRX F.CAN_STATUS.TRX_FAULT 2 .A n (by decide)).trans hfault
  · have hb : (txd && decide (w.rd .A F.CAN_STATUS.TRX n = 0)) = false := by
      rw [Bool.eq_false_iff]
      simpa using h
    rw [if_neg h, hb]
    exact ⟨hfault, htrx⟩

theorem World.trxFaultEnded_leaves (w : World) (n : Nat) : (w.trxFaultEnded n).rd .A F.CAN_STATUS.TRX_FAULT n = 0 ∧
    (w.trxFaultEnded n).rd .A F.CAN_STATUS.TRX n =
      if w.rd .A F.CAN_STATUS.TRX_FAULT n = 1 ∧ w.rd .A F.CAN_STATUS.GREEN n = 0 ∧ w.rd .A F.CAN_STATUS.TRX n = 2 then 0
      else w.rd .A F.CAN_STATUS.TRX n := by
  unfold World.trxFaultEnded World.canRd
  dsimp only
  obtain ⟨u, hu⟩ : ∃ u, w.canWr n F.CAN_STATUS.TRX_FAULT 0 = u := ⟨_, rfl⟩
  have hkept (f : Field) (hf : fieldsApart F.CAN_STATUS.TRX_FAULT f = true) : u.rd .A f n = w.rd .A f n := by
    rw [← hu, World.rd_canWr_apart _ _ _ _ _ _ _ hf]
  have hfault : u.rd .A F.CAN_STATUS.TRX_FAULT n = 0 := by
    rw [← hu]
    exact World.rd_canWr_same _ _ _ _ (by decide)
  rw [hu, hkept F.CAN_STATUS.GREEN (by decide), hkept F.CAN_STATUS.TRX (by decide)]
  by_cases h : w.rd .A F.CAN_STATUS.TRX_FAULT n = 1 ∧ w.rd .A F.CAN_STATUS.GREEN n = 0 ∧ w.rd .A F.CAN_STATUS.TRX n = 2
  · rw [if_pos h, decide_eq_true h.1, decide_eq_true h.2.1, decide_eq_true h.2.2]
    refine ⟨?_, World.rd_canWr_same _ _ _ _ (by decide)⟩
    exact (World.rd_canWr_apart u n F.CAN_STATUS.TRX F.CAN_STATUS.TRX_FAULT 0 .A n (by decide)).trans hfault
  · have hb : (decide (w.rd .A F.CAN_STATUS.TRX_FAULT n = 1) && decide (w.rd .A F.CAN_STATUS.GREEN n = 0) &&
        decide (w.rd .A F.CAN_STATUS.TRX n = 2)) = false := by
      rw [Bool.eq_false_iff]
      simpa [and_assoc] using h
    rw [if_neg h, hb]
    exact ⟨hfault, hkept _ (by decide)⟩

end Sys2Proof.Machine

open Sys2Proof Sys2Proof.Machine

/-- Settles O49: the scheduler, the error counters, the queue and the stack, each by what its parts leave. -/
theorem canReceive : Obligations.canReceive := by
  unfold Obligations.canReceive
  refine ⟨?sched, ?schedNot, ?error, ?errorNot, ?fd, ?queue, ?off, ?ack, ?fault, ?wake, ?claim, ?claimNot, ?dm1, ?dm1Not⟩
  case sched =>
    intro n m s x hx hch hdir howner hgreen hknock hlock hmode hstack
    obtain ⟨⟨f, hf⟩, ⟨u, hu⟩⟩ : (∃ f, (s.w.compose n m).1 = f) ∧ ∃ u, s.w.countersMoved n m = u := ⟨⟨_, rfl⟩, ⟨_, rfl⟩⟩
    obtain ⟨hdlc, hid⟩ := s.w.compose_frame n m
    have hrd (g : Field) (i : Nat) : u.rd .A g i = s.w.rd .A g i := by rw [← hu, World.rd_countersMoved]
    have hinTb0 : (u.canCh n).inTb0 = (s.w.canCh n).inTb0 := by
      rw [← hu]
      exact World.countersMoved_keeps CanCh.inTb0 (fun _ _ => rfl) _ _ _
    have hdue : (u.canCh n).due = (s.w.canCh n).due := by
      rw [← hu]
      exact World.countersMoved_keeps CanCh.due (fun _ _ => rfl) _ _ _
    rw [List.getD_eq_getElem?_getD, hx, Option.getD_some, hf] at hdlc hid
    have hexec : exec (.canScheduleDue n m) s = .next { s with
        w := World.scheduled u n m f (s.w.canCh n) } := by
      change execCanScheduleDue n m s = _
      unfold execCanScheduleDue lift World.canRd
      dsimp only
      rw [hx, World.compose_world, hu, hf]
      dsimp only
      rw [if_neg]
      · rfl
      · simp only [hch, hdir, howner, hgreen, hknock, hlock]
        obtain hmode | hmode := hmode <;> obtain hstack | hstack := hstack <;> simp [hmode, hstack]
    refine .of_exec hexec ⟨fun h1 h2 hd => ?_, fun h1 hin => ?_, fun h2 hd => ?_, exec_quiet hexec rfl⟩
    · obtain ⟨v, hv⟩ := World.scheduled_free (m := m) f (c := s.w.canCh n) (by rwa [World.tbState, hrd]) (by rwa [World.tbState, hrd]) hd (hdue.trans hd)
      obtain ⟨hst, hsched, hin, hdlc', hid', -⟩ := v.loadTb0_leaves n m f
      dsimp only
      rw [hv]
      exact ⟨hst, hsched, hin, hdlc'.trans (by rw [hdlc]), fun hide => hid'.trans (by rw [hid hide])⟩
    · obtain ⟨hst, -, -, -, -, hrest⟩ := u.loadTb0_leaves n m f
      dsimp only
      rw [World.scheduled_replaced f (by rwa [World.tbState, hrd]) hin, World.rd_bump_same _ _ _ _ (by decide), hrest.rd _ _ _ (by decide), hrd,
        satInc_eq_satTo, World.tbState, World.rd_bump_apart _ _ _ _ _ _ _ (by decide)]
      exact ⟨rfl, hst⟩
    · dsimp only
      rw [World.scheduled_waits f (by rwa [World.tbState, hrd]) hd, World.tbState, World.rd_updCan, hrd, World.canCh_updCan, hdue, hd]
      exact ⟨h2, rfl⟩
  case schedNot =>
    intro n m s hn
    refine .of_exec (t := s) ?_ rfl
    change execCanScheduleDue n m s = _
    unfold execCanScheduleDue lift World.canRd
    dsimp only
    cases hx : s.w.can.sec.msgs[m]? with
    | none => rfl
    | some x =>
      dsimp only
      rw [if_pos]
      obtain hn | hn | hn | hn | hn | hn := hn
      · cases hx.symm.trans hn
      all_goals simp [hn]
  case error =>
    intro n ty dom s hlt hmode hst
    obtain ⟨u, hu⟩ : ∃ u, s.w.canWr n F.CAN_STATUS.LAST_ERR ty = u := ⟨_, rfl⟩
    have hrd (f : Field) (hf : fieldsApart F.CAN_STATUS.LAST_ERR f = true) : u.rd .A f n = s.w.rd .A f n := by
      rw [← hu, World.rd_canWr_apart _ _ _ _ _ _ _ hf]
    have hexec : exec (.canRxError n ty dom) s = .next { s with
        w := u.setErrc n (s.w.rd .A F.CAN_ERRC.TEC n) (s.w.rd .A F.CAN_ERRC.REC n + if dom then 8 else 1) } := by
      change execCanRxError n ty dom s = _
      unfold execCanRxError lift World.canRd
      dsimp only
      rw [decide_eq_true hlt, decide_eq_true hmode, decide_eq_true hst]
      subst hu
      rfl
    have htec : s.w.rd .A F.CAN_ERRC.TEC n < 512 := World.rd_lt _ _ _ _
    obtain ⟨hrec, htec', hpass, hkept, hcan⟩ := u.setErrc_leaves n (s.w.rd .A F.CAN_ERRC.TEC n) (s.w.rd .A F.CAN_ERRC.REC n + if dom then 8 else 1)
    refine .of_exec hexec ⟨hrec, htec'.trans (by omega), ?_, fun h0 => ?_, exec_regsBut hexec rfl, ?_, exec_quiet hexec rfl⟩
    · dsimp only
      rw [hkept _ _ _ (by decide) (by decide) (by decide) (by decide), ← hu]
      exact World.rd_canWr_same _ _ _ _ (by decide)
    · have hst : u.rd .A F.CAN_STATUS.STATE n = 0 := (hrd F.CAN_STATUS.STATE (by decide)).trans h0
      refine (hpass hst).trans (if_congr (or_congr_right ?_) rfl rfl)
      rw [hrec]
      omega
    · dsimp only
      rw [hcan, ← hu, World.can_canWr]
  case errorNot =>
    intro n ty dom s hn
    refine .of_exec (t := s) ?_ rfl
    change execCanRxError n ty dom s = _
    unfold execCanRxError lift World.canRd
    dsimp only
    have hgate : (decide (n < 16) && decide (s.w.rd .A F.CAN_CTRL.MODE n ≠ 0) && decide (s.w.rd .A F.CAN_STATUS.STATE n ≠ 2)) = false := by
      obtain hn | hn | hn := hn
      · simp [Nat.not_lt.mpr hn]
      · simp [hn]
      · simp [hn]
    rw [hgate]
    rfl
  case fd =>
    intro n stamp self_ f s hlt hmode htrx hfd
    have hrd (g : Field) (hg : fieldsApart F.CAN_STATUS.STATE g = true) : (s.w.canOnBus n).rd .A g n = s.w.rd .A g n :=
      World.rd_canOnBus _ _ _ _ _ hg
    have hexec : exec (.canFrameReceived n stamp self_ f) s = .next { s with
        w := ((s.w.canOnBus n).bump .A F.CAN_CNT.SKIP n).canWr n F.CAN_STATUS.STATE 3 } := by
      change execCanFrameReceived n stamp self_ f s = _
      unfold execCanFrameReceived lift World.canRd
      dsimp only
      rw [hmode, if_neg (by simp [hrd F.CAN_STATUS.TRX (by decide), htrx, hlt]), if_pos (by simp [hfd])]
    obtain ⟨u, hu⟩ : ∃ u, s.w.canOnBus n = u := ⟨_, rfl⟩
    rw [hu] at hexec hrd
    refine .of_exec hexec ⟨?_, World.rd_canWr_same _ _ _ _ (by decide), ?_, ?_, exec_quiet hexec rfl⟩
    · dsimp only
      rw [World.rd_canWr_apart _ _ _ _ _ _ _ (by decide), World.rd_bump_same _ _ _ _ (by decide), hrd _ (by decide), satInc_eq_satTo]
    · have hrest : Rest [.reg 0x900030, .reg 0x900068] ((u.bump .A F.CAN_CNT.SKIP n).canWr n F.CAN_STATUS.STATE 3) s.w := by
        subst hu
        exact World.canWr_rest _ _ _ (by decide) (Rest.bump _ _ _ (by decide) (World.canOnBus_rest (by decide) (Rest.refl _ _)))
      exact hrest.regsBut rfl
    · dsimp only
      rw [World.can_canWr, World.bump, World.wr_can, ← hu, World.can_canOnBus]
  case queue =>
    intro n stamp self_ f s x k hd used hlt hmode htrx hself hflt hdec hqueue hstack hhd hused
    obtain ⟨md, hmd⟩ : ∃ md, s.w.rd .A F.CAN_CTRL.MODE n = md := ⟨_, rfl⟩
    obtain ⟨u, hu⟩ : ∃ u, (s.w.canOnBus n).rxChecked n md self_ f = u := ⟨_, rfl⟩
    obtain ⟨hsec, hkept⟩ := (s.w.canOnBus n).rxChecked_leaves n md self_ f
    rw [hu] at hsec hkept
    have hrd (g : Field) (hg : (rxFree g && fieldsApart F.CAN_STATUS.STATE g) = true) : u.rd .A g n = s.w.rd .A g n := by
      rw [Bool.and_eq_true] at hg
      rw [hkept g n hg.1, World.rd_canOnBus _ _ _ _ _ hg.2]
    have hexec : exec (.canFrameReceived n stamp self_ f) s = .next { s with w := u.canQueue n k stamp self_ f } := by
      change execCanFrameReceived n stamp self_ f s = _
      have hfilter : u.canFilter n f = some (x, k) := by
        rw [World.canFilter_congr (hsec.trans (congrArg (·.sec) (World.can_canOnBus _ _))), hflt]
      unfold execCanFrameReceived lift World.canRd
      dsimp only
      rw [hmd] at hmode hself ⊢
      have hon : ¬ (decide (md = 0) || decide ((s.w.canOnBus n).rd .A F.CAN_STATUS.TRX n = 1) || decide (16 ≤ n)) = true := by
        rw [World.rd_canOnBus _ _ _ _ _ (by decide)]
        obtain hmode | ⟨hmode, -⟩ | hmode := hmode
        all_goals simp [hmode, htrx, hlt]
      have hclassic : ¬ (decide (md = 1) && f.fdf) = true := by
        obtain hmode | ⟨hmode, hfd⟩ | hmode := hmode
        · simp [hmode]
        · simp [hfd]
        · simp [hmode]
      rw [if_neg hon, if_neg hclassic]
      change Host.Outcome.next { s with w := (fun w : World => if self_ && decide (md ≠ 3) && decide (w.rd .A F.CAN_CTRL.SELF_RX n = 0) then w
        else match w.canFilter n f with
          | none => w
          | some (x, k) =>
            let w := if x.decode then w.canDecode s.srv x.msg f else w
            if x.queue && !x.stack then w.canQueue n k stamp self_ f else w) ((s.w.canOnBus n).rxChecked n md self_ f) } = _
      rw [hu]
      dsimp only
      rw [hfilter, hrd F.CAN_CTRL.SELF_RX (by decide), if_neg]
      · dsimp only
        rw [hdec, hqueue, hstack]
        rfl
      · obtain hself | hself | hself := hself
        all_goals simp [hself]
    subst hhd hused
    refine .of_exec hexec ?_
    have hHead := hrd F.CAN_RXQ.HEAD (by decide)
    have hTail := hrd F.CAN_RXQ.TAIL (by decide)
    by_cases hfull : 64 ≤ (s.w.rd .A F.CAN_RXQ.HEAD n + 65536 - s.w.rd .A F.CAN_RXQ.TAIL n) % 65536
    · obtain ⟨hhead, htail, hovf, hflag⟩ := World.canQueue_full k stamp self_ f (w := u) (n := n) (by rwa [hHead, hTail])
      rw [hHead] at hhead
      rw [hTail] at htail
      rw [hrd _ (by decide)] at hovf
      exact ⟨fun h => absurd hfull (Nat.not_le.mpr h), fun _ => ⟨hhead, hovf, hflag⟩, htail, exec_quiet hexec rfl⟩
    · obtain ⟨hhead, htail, hstamp, hword, hdata⟩ := u.canQueue_leaves (n := n) k stamp self_ f (by rw [hHead, hTail]; omega)
      rw [hHead] at hhead hstamp hword hdata
      rw [hTail] at htail
      exact ⟨fun _ => ⟨hhead, hstamp, hword, hdata⟩, fun h => absurd h hfull, htail, exec_quiet hexec rfl⟩
  case off =>
    intro n stamp self_ f s hmode
    refine .of_exec (t := s) ?_ rfl
    change execCanFrameReceived n stamp self_ f s = _
    have hbus : s.w.canOnBus n = s.w := by
      unfold World.canOnBus World.canRd
      rw [if_neg (by simp [hmode])]
    unfold execCanFrameReceived lift World.canRd
    dsimp only
    rw [hbus, hmode]
    rfl
  case ack =>
    intro h init v s n hd tl halive hn hown hhd htl
    subst hn hhd htl
    obtain ⟨n, hn⟩ : ∃ n, s.w.rd h F.CAN_SEL.CH init = n := ⟨_, rfl⟩
    rw [hn] at hown ⊢
    obtain ⟨d, hd⟩ : ∃ d, (v % 65536 + 65536 - s.w.rd .A F.CAN_RXQ.TAIL n) % 65536 = d := ⟨_, rfl⟩
    obtain ⟨q, hq⟩ : ∃ q, (s.w.rd .A F.CAN_RXQ.HEAD n + 65536 - s.w.rd .A F.CAN_RXQ.TAIL n) % 65536 = q := ⟨_, rfl⟩
    have hexec : exec (.canRxAck h init v) s = .next { s with
        w := if decide (0 < d) && decide (d ≤ q) then (s.w.canWr n F.CAN_RXQ.TAIL (v % 65536)).updCan n fun c => { c with ovf := false } else s.w } := by
      change execCanRxAck h init v s = _
      rw [execCanRxAck, canGate, World.sel, hn, objC, gateObj_owned _ _ _ _ _ halive hown, putW]
      unfold World.canRd
      dsimp only
      rw [hd, hq]
    have hquiet := exec_quiet hexec rfl
    refine .of_exec hexec ?_
    rw [hd, hq]
    by_cases ht : 0 < d ∧ d ≤ q
    · rw [if_pos (by simpa using ht)] at hquiet
      rw [if_pos (by simpa using ht), if_pos ht]
      dsimp only
      rw [World.rd_updCan, World.rd_updCan, World.rd_canWr_same _ _ _ _ (by decide), World.rd_canWr_apart _ _ _ _ _ _ _ (by decide), World.canCh_updCan]
      refine ⟨Nat.mod_mod _ _, rfl, fun _ => rfl, ?_, hquiet⟩
      have hrest : Rest [.can, .reg 0x900060] ((s.w.canWr n F.CAN_RXQ.TAIL (v % 65536)).updCan n fun c => { c with ovf := false }) s.w :=
        World.updCan_rest (by decide) (World.canWr_rest _ _ _ (by decide) (Rest.refl _ _))
      exact hrest.regsBut rfl
    · rw [if_neg (by simpa using ht)] at hquiet
      rw [if_neg (by simpa using ht), if_neg ht]
      exact ⟨rfl, rfl, fun h => absurd rfl h, fun _ _ _ _ _ => rfl, hquiet⟩
  case fault =>
    intro n up txd s
    cases up with
    | true =>
      have hexec : exec (.canTrxFault n true txd) s = .next { s with w := s.w.trxFaultBegun n txd } := rfl
      obtain ⟨hfault, htrx⟩ := s.w.trxFaultBegun_leaves n txd
      exact .of_exec hexec ⟨hfault, fun _ => htrx, nofun, exec_regsBut hexec rfl, exec_quiet hexec rfl⟩
    | false =>
      have hexec : exec (.canTrxFault n false txd) s = .next { s with w := s.w.trxFaultEnded n } := rfl
      obtain ⟨hfault, htrx⟩ := s.w.trxFaultEnded_leaves n
      exact .of_exec hexec ⟨hfault, nofun, fun _ => htrx, exec_regsBut hexec rfl, exec_quiet hexec rfl⟩
  case wake =>
    intro n s
    by_cases hw : (s.w.canCh n).cfg.wake = true ∧ s.w.latch.logicValid = true ∧ s.w.rd .A F.CAN_STATUS.TRX n ≠ 3
    · obtain ⟨hwake, hlogic, htrx⟩ := hw
      have hexec : exec (.canWake n) s = .next { s with w := (s.w.canWr n F.CAN_STATUS.WAKE 1).canBus n 8 } := by
        change execCanWake n s = _
        unfold execCanWake lift World.canRd
        dsimp only
        rw [hwake, hlogic, decide_eq_true htrx]
        rfl
      refine .of_exec hexec ⟨?_, exec_regsBut hexec rfl, exec_quiet hexec rfl⟩
      dsimp only
      rw [if_pos ⟨hwake, hlogic, htrx⟩, World.rd_canBus _ _ _ _ _ _ (by decide), World.rd_canWr_same _ _ _ _ (by decide)]
      rfl
    · have hexec : exec (.canWake n) s = .next s := ?_
      · exact .of_exec hexec ⟨(if_neg hw).symm, fun _ _ _ _ _ => rfl, exec_quiet hexec rfl⟩
      change execCanWake n s = _
      unfold execCanWake lift World.canRd
      dsimp only
      rw [if_neg (by simpa using hw)]
  case claim =>
    intro n sa lost s hstack
    have hstack' : decide ((s.w.canCh n).cfg.stack = 0) = false := decide_eq_false hstack
    cases lost with
    | true =>
      have hexec : exec (.j1939AddressClaim n sa true) s = .next { s with
          w := ((s.w.canWr n F.CAN_SA.SA 254).updCan n fun c => { c with claimed := false }).canBus n 9 } := by
        change execJ1939AddressClaim n sa true s = _
        unfold execJ1939AddressClaim lift
        dsimp only
        rw [if_neg hstack]
        rfl
      refine .of_exec hexec ⟨?_, ?_, exec_regsBut hexec rfl, exec_quiet hexec rfl⟩
      · dsimp only
        rw [World.rd_canBus _ _ _ _ _ _ (by decide), World.rd_updCan, World.rd_canWr_same _ _ _ _ (by decide)]
        rfl
      · dsimp only
        rw [World.canCh_congr (World.can_canBus _ _ _), World.canCh_updCan]
        rfl
    | false =>
      have hexec : exec (.j1939AddressClaim n sa false) s = .next { s with
          w := (s.w.canWr n F.CAN_SA.SA sa).updCan n fun c => { c with claimed := true } } := by
        change execJ1939AddressClaim n sa false s = _
        unfold execJ1939AddressClaim lift
        dsimp only
        rw [if_neg hstack]
        rfl
      refine .of_exec hexec ⟨?_, ?_, exec_regsBut hexec rfl, exec_quiet hexec rfl⟩
      · dsimp only
        rw [World.rd_updCan, World.rd_canWr_same _ _ _ _ (by decide)]
        rfl
      · dsimp only
        rw [World.canCh_updCan]
        rfl
  case claimNot =>
    intro n sa lost s hstack
    refine .of_exec (t := s) ?_ rfl
    change execJ1939AddressClaim n sa lost s = _
    unfold execJ1939AddressClaim lift
    dsimp only
    rw [if_pos hstack]
  case dm1 =>
    intro n lamps codes s h hown hrun hsends hat h1 h2
    have hsa : s.w.rd .A F.CAN_SA.SA n < 256 := World.rd_lt _ _ _ _
    have howner : s.own.owner (objC n) = some h := by
      have hst : (s.own.token (objC n)).st = .owned h := of_decide_eq_true hown
      rw [Own.owner, hst]
    have hexec : exec (.dm1Broadcast n lamps codes) s = .next { s with
        w := (s.w.putTb n 1 (dm1Frame (s.w.rd .A F.CAN_SA.SA n) lamps codes)).updCan n fun c => { c with dm1At := s.w.now } } := by
      change execDm1Broadcast n lamps codes s = _
      unfold execDm1Broadcast lift World.canRd
      dsimp only
      rw [howner]
      dsimp only
      rw [hrun, hsends, decide_eq_true hat, decide_eq_true h1, decide_eq_true h2]
      rfl
    have hid := dm1Frame_id (s.w.rd .A F.CAN_SA.SA n) lamps codes
    rw [Nat.mod_eq_of_lt hsa] at hid
    have hlt : (dm1Frame (s.w.rd .A F.CAN_SA.SA n) lamps codes).id < 2 ^ 29 := by
      rw [hid]
      split
      · omega
      · omega
    obtain ⟨hst, hat', hide, hdlc, hid'⟩ := s.w.putTb_leaves n 1 s.w.now (f := dm1Frame (s.w.rd .A F.CAN_SA.SA n) lamps codes) rfl hlt
      (show 8 < 16 by decide)
    exact .of_exec hexec ⟨hst, hat', hide, hdlc, hid'.trans hid, exec_quiet hexec rfl⟩
  case dm1Not =>
    intro n lamps codes s hn
    refine .of_exec (t := s) ?_ rfl
    change execDm1Broadcast n lamps codes s = _
    unfold execDm1Broadcast lift
    dsimp only
    obtain hn | hn | hn := hn
    · simp [hn, World.when]
    · simp [Nat.not_le.mpr hn, World.when]
    · rw [objC, hn]
      rfl
end

section
/-!
SUPPORT. R442–R447: what a message sent, a mirror, the active cart and a session's end leave.
-/
namespace Sys2Proof.Machine

/-! A half's Fleet Exchange and the session of a slot. -/

@[simp] theorem World.rd_updFlx (w : World) (h g : Half) (u : Flx → Flx) (f : Field) (i : Nat) : (w.updFlx h u).rd g f i = w.rd g f i := (rfl)
@[simp] theorem World.now_updFlx (w : World) (h : Half) (u : Flx → Flx) : (w.updFlx h u).now = w.now := (rfl)
theorem World.flx_updFlx (w : World) (h : Half) (u : Flx → Flx) : (w.updFlx h u).flx = w.flx.upd h u := rfl
@[simp] theorem World.rd_setFsess (w : World) (h g : Half) (k : Nat) (x : Sess) (f : Field) (i : Nat) : (w.setFsess h k x).rd g f i = w.rd g f i := (rfl)
@[simp] theorem World.now_setFsess (w : World) (h : Half) (k : Nat) (x : Sess) : (w.setFsess h k x).now = w.now := (rfl)

theorem World.fsess_congr {w v : World} {h : Half} (hf : w.flx.get h = v.flx.get h) (k : Nat) : w.fsess h k = v.fsess h k := by
  rw [World.fsess, World.fsess, hf]

theorem World.fsess_setFsess_same (w : World) (h : Half) (k : Nat) (x : Sess) : (w.setFsess h k x).fsess h k = x := by
  rw [World.fsess, World.setFsess, World.flx_updFlx, Two.get_upd_same]
  exact NMap.get_set_same _ _ _ _

theorem World.fsess_setFsess_ne (w : World) (h : Half) {k j : Nat} (x : Sess) (hj : j ≠ k) : (w.setFsess h k x).fsess h j = w.fsess h j := by
  rw [World.fsess, World.setFsess, World.flx_updFlx, Two.get_upd_same]
  exact NMap.get_set_ne _ _ _ hj

theorem World.asks_setFsess (w : World) (h : Half) (k : Nat) (x : Sess) : ((w.setFsess h k x).flx.get h).asks = (w.flx.get h).asks := by
  rw [World.setFsess, World.flx_updFlx, Two.get_upd_same]

theorem World.fsess_flxSend (w : World) (h : Half) (k ty : Nat) (p : List Byte) :
    (w.flxSend h k ty p).fsess h k = (w.fsess h k).send w.now ty p := World.fsess_setFsess_same _ _ _ _

/-- The registers of a cart that becomes active, and of the mirror. -/
theorem World.rd_flxMirror (w : World) (h : Half) (f : Field) (i : Nat) : (w.flxMirror h).rd h f i = w.rd h f i := by
  unfold World.flxMirror World.when
  dsimp only
  split
  · rw [World.rd_wr_half _ _ _ _ _ _ (Half.ne_other h) rfl, World.rd_updFlx]
  · rfl

theorem World.flx_flxMirror (w : World) (h : Half) : (w.flxMirror h).flx.get h = w.flx.get h := by
  unfold World.flxMirror World.when
  dsimp only
  split
  · rw [World.wr_flx, World.flx_updFlx, Two.get_upd_ne _ _ (Half.ne_other h)]
  · rfl

/-- A field that a change of the active cart does not write. -/
def cartFree (f : Field) : Bool :=
  fieldsApart F.FLX_CART.ACTIVE f && fieldsApart F.FLX_CART.STALE f && fieldsApart F.FLX_CART.MODE f && unlogged f

theorem World.rd_cartActive (w : World) (h : Half) (k : Option Nat) (f : Field) (i : Nat) (hf : cartFree f = true) :
    (w.cartActive h k).rd h f i = w.rd h f i := by
  simp only [cartFree, Bool.and_eq_true] at hf
  obtain ⟨⟨⟨hactive, hstale⟩, hmode⟩, hlog⟩ := hf
  unfold World.cartActive
  dsimp only
  rw [World.rd_flxMirror, World.rd_raise _ _ _ _ _ _ _ hlog, World.rd_wr_apart _ _ _ _ _ _ _ _ hmode, World.rd_wr_apart _ _ _ _ _ _ _ _ hstale,
    World.rd_wr_apart _ _ _ _ _ _ _ _ hactive, World.rd_updFlx]

theorem World.cartActive_leaves (w : World) (h : Half) (k : Option Nat) : (w.cartActive h k).rd h F.FLX_CART.ACTIVE = k.getD 15 % 16 ∧
    (∀ j, (w.cartActive h k).fsess h j = w.fsess h j) ∧ ((w.cartActive h k).flx.get h).asks = (w.flx.get h).asks := by
  have hflx : (w.cartActive h k).flx.get h = { w.flx.get h with cart := k.map fun k => (w.fsess h k).dev } := by
    unfold World.cartActive
    dsimp only
    rw [World.flx_flxMirror, World.raise_flx, World.wr_flx, World.wr_flx, World.wr_flx, World.flx_updFlx, Two.get_upd_same]
  refine ⟨?_, fun j => ?_, ?_⟩
  · unfold World.cartActive
    dsimp only
    rw [World.rd_flxMirror, World.rd_raise _ _ _ _ _ _ _ (by decide), World.rd_wr_apart _ _ _ _ _ _ _ _ (by decide),
      World.rd_wr_apart _ _ _ _ _ _ _ _ (by decide)]
    exact World.rd_wr_same _ _ _ _ _ (by decide)
  · rw [World.fsess, World.fsess, hflx]
  · rw [hflx]

/-! A session's end (R443). -/

/-- The slot without its session: its state, role, client flag, reason and count written. -/
def World.slotFreed (w : World) (h : Half) (k reason : Nat) : World :=
  let w := (w.when (w.fstate h k = 3) fun w => w.flxSend h k 3 (leBytes reason 4)).updFlx h fun q =>
    { q with slot := NMap.del q.slot k, peers := q.peers.filter (fun p => p.1 ≠ k) }
  ((((w.wr h F.FLX_SESS.STATE k 0).wr h F.FLX_SESS.ROLE k 0).wr h F.FLX_SESS.CLIENT k 0).wr h F.FLX_SESS.CLOSE k reason).wr h
    F.FLX_SESS.UNACKED k 0

/-- What follows: the slot no longer shown open, the event, the mirror, no active cart left behind. -/
def World.closeTold (w : World) (h : Half) (k shown : Nat) (was : Bool) : World :=
  let w := w.wr h F.FLX_STATUS.OPEN 0 shown
  let w := (w.when was fun w => w.raise h 195 (evArg k 0xFF 0)).flxMirror h
  w.when (w.rd h F.FLX_CART.ACTIVE = k) fun w => w.cartActive h none

theorem World.flxClose_eq (w : World) (h : Half) (k reason : Nat) : ∃ shown, w.flxClose h k reason =
    (w.slotFreed h k reason).closeTold h k shown (w.fstate h k = 3) := ⟨_, rfl⟩

theorem World.rd_closeTold (w : World) (h : Half) (k shown : Nat) (was : Bool) (f : Field) (i : Nat)
    (hf : (cartFree f && fieldsApart F.FLX_STATUS.OPEN f) = true) : (w.closeTold h k shown was).rd h f i = w.rd h f i := by
  rw [Bool.and_eq_true] at hf
  obtain ⟨hcart, hopen⟩ := hf
  have hlog : unlogged f = true := (Bool.and_eq_true _ _ ▸ hcart : _ ∧ _).2
  unfold World.closeTold
  dsimp only
  obtain ⟨u, hu⟩ : ∃ u, ((w.wr h F.FLX_STATUS.OPEN 0 shown).when was fun w => w.raise h 195 (evArg k 0xFF 0)).flxMirror h = u := ⟨_, rfl⟩
  have hkept : u.rd h f i = w.rd h f i := by
    rw [← hu, World.rd_flxMirror, World.rd_when, World.rd_raise _ _ _ _ _ _ _ hlog, ite_self, World.rd_wr_apart _ _ _ _ _ _ _ _ hopen]
  rw [hu, World.rd_when, World.rd_cartActive _ _ _ _ _ hcart, ite_self, hkept]

theorem World.slotFreed_leaves (w : World) (h : Half) (k reason : Nat) : (w.slotFreed h k reason).rd h F.FLX_SESS.STATE k = 0 ∧
    (w.slotFreed h k reason).rd h F.FLX_SESS.CLOSE k = reason % 16 ∧
    ∀ f i, (f.reg ≠ 0xA00140 ∧ f.reg < 2 ^ 25) → (w.slotFreed h k reason).rd h f i = w.rd h f i := by
  unfold World.slotFreed
  dsimp only
  obtain ⟨u, hu⟩ : ∃ u, ((w.when (w.fstate h k = 3) fun w => w.flxSend h k 3 (leBytes reason 4)).updFlx h fun q =>
    { q with slot := NMap.del q.slot k, peers := q.peers.filter (fun p => p.1 ≠ k) }) = u := ⟨_, rfl⟩
  rw [hu]
  refine ⟨?_, ?_, fun f i hf => ?_⟩
  · rw [World.rd_wr_apart _ _ _ _ _ _ _ _ (by decide), World.rd_wr_apart _ _ _ _ _ _ _ _ (by decide),
      World.rd_wr_apart _ _ _ _ _ _ _ _ (by decide), World.rd_wr_apart _ _ _ _ _ _ _ _ (by decide)]
    exact World.rd_wr_same _ _ _ _ _ (by decide)
  · rw [World.rd_wr_apart _ _ _ _ _ _ _ _ (by decide)]
    exact World.rd_wr_same _ _ _ _ _ (by decide)
  · have hurest : Rest [.flx, .reg 0xA00140] u w :=
      hu ▸ World.updFlx_rest (by decide) (Rest.when (Rest.refl _ w) fun _ e => World.flxSend_rest (by decide) e)
    have hrest : Rest [.flx, .reg 0xA00140] _ w := Rest.wr h F.FLX_SESS.UNACKED k 0 (by decide) (Rest.wr h F.FLX_SESS.CLOSE k reason (by decide)
      (Rest.wr h F.FLX_SESS.CLIENT k 0 (by decide) (Rest.wr h F.FLX_SESS.ROLE k 0 (by decide) (Rest.wr h F.FLX_SESS.STATE k 0 (by decide) hurest))))
    refine hrest.rd h f i ?_
    have hlt : f.reg < 33554432 := hf.2
    simp [partIn, hf.1, hlt]

theorem World.flxClose_leaves (w : World) (h : Half) (k reason : Nat) : (w.flxClose h k reason).fstate h k = 0 ∧
    (w.flxClose h k reason).rd h F.FLX_SESS.CLOSE k = reason % 16 ∧ (w.flxClose h k reason).rd h F.FLX_YLD.ACKED = w.rd h F.FLX_YLD.ACKED ∧
    (w.flxClose h k reason).rd h F.FLX_CNT.TIMEOUT = w.rd h F.FLX_CNT.TIMEOUT := by
  obtain ⟨shown, heq⟩ := w.flxClose_eq h k reason
  obtain ⟨hst, hclose, hkept⟩ := w.slotFreed_leaves h k reason
  rw [World.fstate, heq, World.rd_closeTold _ _ _ _ _ _ _ (by decide), World.rd_closeTold _ _ _ _ _ _ _ (by decide),
    World.rd_closeTold _ _ _ _ _ _ _ (by decide), World.rd_closeTold _ _ _ _ _ _ _ (by decide)]
  exact ⟨hst, hclose, hkept _ _ (by decide), hkept _ _ (by decide)⟩

/-! A message taken (R442, R447). -/

/-- The session of a slot, a message of `seq` and `ack` taken at `now`. -/
def Sess.taken (x : Sess) (now seq ack : Nat) : Sess :=
  { x with unacked := x.unacked.filter (fun u => ack < u.1), lastRx := now, seqRx := if seq = x.seqRx + 1 then seq else x.seqRx }

theorem World.flxAcked_leaves (w : World) (h : Half) (k ack : Nat) :
    (w.flxAcked h k ack).fsess h k = { w.fsess h k with unacked := (w.fsess h k).unacked.filter (fun u => ack < u.1) } ∧
    ((w.flxAcked h k ack).flx.get h).asks = (w.flx.get h).asks ∧
    (∀ f i, fieldsApart F.FLX_YLD.ACKED f = true → fieldsApart F.FLX_SESS.UNACKED f = true → (w.flxAcked h k ack).rd h f i = w.rd h f i) ∧
    (k = 0 → (w.flxAcked h k ack).rd h F.FLX_YLD.ACKED =
      (((w.fsess h 0).unacked.filter (fun u => u.1 ≤ ack)).foldl (fun a u => max a u.2) (w.rd h F.FLX_YLD.ACKED)) % 2 ^ 32) := by
  obtain ⟨last, hlast⟩ : ∃ last, ((w.fsess h k).unacked.filter (fun u => u.1 ≤ ack)).foldl (fun a u => max a u.2) (w.rd h F.FLX_YLD.ACKED) = last :=
    ⟨_, rfl⟩
  obtain ⟨v, hv⟩ : ∃ v, w.setFsess h k { w.fsess h k with unacked := (w.fsess h k).unacked.filter (fun u => ack < u.1) } = v := ⟨_, rfl⟩
  obtain ⟨u, hu⟩ : ∃ u, (v.when (k = 0) fun w => w.wr h F.FLX_YLD.ACKED 0 last) = u := ⟨_, rfl⟩
  obtain ⟨n, heq⟩ : ∃ n, w.flxAcked h k ack = (u.wr h F.FLX_SESS.UNACKED k n).flxMirror h := by
    refine ⟨satTo 16 (u.fsess h k).unacked.length, ?_⟩
    rw [← hu, ← hv, ← hlast]
    rfl
  have huflx : u.flx = v.flx := by
    rw [← hu]
    unfold World.when
    split
    · exact World.wr_flx _ _ _ _ _
    · rfl
  have hflx : (w.flxAcked h k ack).flx.get h = v.flx.get h := by rw [heq, World.flx_flxMirror, World.wr_flx, huflx]
  refine ⟨?_, ?_, fun f i ha hn => ?_, fun hk => ?_⟩
  · rw [World.fsess_congr hflx, ← hv, World.fsess_setFsess_same]
  · rw [hflx, ← hv, World.asks_setFsess]
  · rw [heq, World.rd_flxMirror, World.rd_wr_apart _ _ _ _ _ _ _ _ hn, ← hu, World.rd_when, World.rd_wr_apart _ _ _ _ _ _ _ _ ha, ite_self, ← hv,
      World.rd_setFsess]
  · subst hk
    rw [heq, World.rd_flxMirror, World.rd_wr_apart _ _ _ _ _ _ _ _ (by decide), ← hu, hlast]
    exact World.rd_wr_same _ _ _ _ _ (by decide)

theorem World.flxTake_leaves (w : World) (h : Half) (k seq ack : Nat) :
    (w.flxTake h k seq ack).fsess h k = (w.fsess h k).taken w.now seq ack ∧
    ((w.flxTake h k seq ack).flx.get h).asks = (w.flx.get h).asks ∧
    (∀ f i, fieldsApart F.FLX_YLD.ACKED f = true → fieldsApart F.FLX_SESS.UNACKED f = true → (w.flxTake h k seq ack).rd h f i = w.rd h f i) ∧
    (k = 0 → (w.flxTake h k seq ack).rd h F.FLX_YLD.ACKED =
      (((w.fsess h 0).unacked.filter (fun u => u.1 ≤ ack)).foldl (fun a u => max a u.2) (w.rd h F.FLX_YLD.ACKED)) % 2 ^ 32) := by
  obtain ⟨hsess, hasks, hkept, hacked⟩ := w.flxAcked_leaves h k ack
  have hrest : Rest [.flx, .reg 0xA00108, .reg 0xA00140] (w.flxAcked h k ack) w := World.flxAcked_rest (by decide) (Rest.refl _ w)
  unfold World.flxTake
  dsimp only
  refine ⟨?_, (World.asks_setFsess _ _ _ _).trans hasks, fun f i ha hn => hkept f i ha hn, hacked⟩
  rw [World.fsess_setFsess_same, hsess, hrest.now (by decide)]
  rfl

/-! CART_STATE (R445, R446). -/

theorem World.cartState_leaves (w : World) (h : Half) (k : Nat) (p : List Byte) (hk : 1 ≤ k) (hk3 : k ≤ 3) (hp : p.length = 32) :
    (w.cartState h k p).fsess h k = { w.fsess h k with cartAt := w.now } ∧
    (w.rd h F.FLX_CART.ACTIVE = k → byteAt p 22 ≠ 3 → (w.cartState h k p).rd h F.FLX_CART.MODE = byteAt p 22 ∧
      (w.cartState h k p).rd h F.FLX_CART.STALE = 0) ∧
    (w.rd h F.FLX_CART.ACTIVE = k → byteAt p 22 = 3 → (w.cartState h k p).rd h F.FLX_CART.ACTIVE = 15) ∧
    (w.rd h F.FLX_CART.ACTIVE ≠ k → (w.cartState h k p).rd h F.FLX_CART.ACTIVE = w.rd h F.FLX_CART.ACTIVE ∧
      ((w.cartState h k p).flx.get h).asks = if bitOf (byteAt p 23) 0 = true ∧ byteAt p 22 ≠ 3 then
        (w.flx.get h).asks ++ [(k, (w.fsess h k).dev)] else (w.flx.get h).asks) := by
  have hbyte : byteAt p 22 < 256 := BitVec.isLt _
  obtain ⟨u, hu⟩ : ∃ u, w.setFsess h k { w.fsess h k with cartAt := w.now } = u := ⟨_, rfl⟩
  have hsess : u.fsess h k = { w.fsess h k with cartAt := w.now } := by rw [← hu, World.fsess_setFsess_same]
  have hasks : (u.flx.get h).asks = (w.flx.get h).asks := by rw [← hu, World.asks_setFsess]
  have hrd : u.rd h F.FLX_CART.ACTIVE = w.rd h F.FLX_CART.ACTIVE := by rw [← hu, World.rd_setFsess]
  have heq : w.cartState h k p = if u.rd h F.FLX_CART.ACTIVE = k then
        if byteAt p 22 = 3 then u.cartActive h none else (u.wr h F.FLX_CART.MODE 0 (byteAt p 22)).wr h F.FLX_CART.STALE 0 0
      else u.when (bitOf (byteAt p 23) 0 && byteAt p 22 ≠ 3) fun w => w.updFlx h fun q => { q with asks := q.asks ++ [(k, (w.fsess h k).dev)] } := by
    rw [← hu, World.cartState, decide_eq_true hk, decide_eq_true hk3, decide_eq_true hp]
    rfl
  by_cases hactive : w.rd h F.FLX_CART.ACTIVE = k
  · by_cases hmode : byteAt p 22 = 3
    · obtain ⟨hnone, hkept, -⟩ := u.cartActive_leaves h none
      rw [heq, hrd, if_pos hactive, if_pos hmode]
      exact ⟨(hkept k).trans hsess, fun _ hm => absurd hmode hm, fun _ _ => hnone, fun ha => absurd hactive ha⟩
    · rw [heq, hrd, if_pos hactive, if_neg hmode]
      refine ⟨?_, fun _ _ => ⟨?_, World.rd_wr_same _ _ _ _ _ (by decide)⟩, fun _ hm => absurd hm hmode, fun ha => absurd hactive ha⟩
      · rw [World.fsess_congr (congrArg (·.get h) ((World.wr_flx _ _ _ _ _).trans (World.wr_flx _ _ _ _ _))), hsess]
      · rw [World.rd_wr_apart _ _ _ _ _ _ _ _ (by decide), World.rd_wr_same _ _ _ _ _ (by decide)]
        exact Nat.mod_eq_of_lt hbyte
  · rw [heq, hrd, if_neg hactive]
    refine ⟨?_, fun ha => absurd ha hactive, fun ha => absurd ha hactive, fun _ => ?_⟩
    · rw [← hsess, World.fsess, World.fsess]
      unfold World.when
      split
      · rw [World.flx_updFlx, Two.get_upd_same]
      · rfl
    · by_cases hask : bitOf (byteAt p 23) 0 = true ∧ byteAt p 22 ≠ 3
      · rw [if_pos hask, hask.1, decide_eq_true hask.2, ← hasks, ← hrd]
        refine ⟨rfl, ?_⟩
        change ((u.updFlx h _).flx.get h).asks = _
        rw [World.flx_updFlx, Two.get_upd_same, hsess]
      · have hb : (bitOf (byteAt p 23) 0 && decide (byteAt p 22 ≠ 3)) = false := by
          rw [Bool.eq_false_iff]
          simpa using hask
        rw [if_neg hask, hb, ← hasks, ← hrd]
        exact ⟨rfl, rfl⟩

/-- Whatever slot it comes from, only the instant of the session changes. -/
theorem World.cartState_kept (w : World) (h : Half) (k : Nat) (p : List Byte) : (w.cartState h k p).fstate h k = w.fstate h k ∧
    (∃ at_, (w.cartState h k p).fsess h k = { w.fsess h k with cartAt := at_ }) ∧
    (w.cartState h k p).rd h F.FLX_YLD.ACKED = w.rd h F.FLX_YLD.ACKED := by
  by_cases hc : 1 ≤ k ∧ k ≤ 3 ∧ p.length = 32
  · obtain ⟨hk, hk3, hp⟩ := hc
    have hrd (f : Field) (i : Nat) (hf : cartFree f = true) : (w.cartState h k p).rd h f i = w.rd h f i := by
      have hparts := hf
      simp only [cartFree, Bool.and_eq_true] at hparts
      obtain ⟨⟨⟨-, hstale⟩, hmode⟩, -⟩ := hparts
      unfold World.cartState
      dsimp only
      rw [World.rd_when]
      split
      · split
        · split
          · rw [World.rd_cartActive _ _ _ _ _ hf, World.rd_setFsess]
          · rw [World.rd_wr_apart _ _ _ _ _ _ _ _ hstale, World.rd_wr_apart _ _ _ _ _ _ _ _ hmode, World.rd_setFsess]
        · rw [World.rd_when, World.rd_updFlx, ite_self, World.rd_setFsess]
      · rfl
    exact ⟨hrd _ _ (by decide), ⟨_, (w.cartState_leaves h k p hk hk3 hp).1⟩, hrd _ _ (by decide)⟩
  · have heq : w.cartState h k p = w := by
      rw [World.cartState, World.when, if_neg]
      simpa [and_assoc] using hc
    rw [heq]
    exact ⟨rfl, ⟨_, rfl⟩, rfl⟩

/-! The requests of an interval (R445). -/

theorem World.cartChoose_leaves (w : World) (h : Half) : ((w.cartChoose h).flx.get h).asks = [] ∧
    (∀ j, (w.cartChoose h).fsess h j = w.fsess h j) ∧
    (w.rd h F.FLX_CART.ACTIVE ≠ 15 → (w.cartChoose h).rd h F.FLX_CART.ACTIVE = w.rd h F.FLX_CART.ACTIVE) ∧
    (∀ x, (w.flx.get h).asks = [x] → w.rd h F.FLX_CART.ACTIVE = 15 → w.fstate h x.1 = 3 → (w.cartChoose h).rd h F.FLX_CART.ACTIVE = x.1 % 16) := by
  obtain ⟨u, hu⟩ : ∃ u, (w.updFlx h fun q => { q with asks := [] }) = u := ⟨_, rfl⟩
  have hflx : u.flx.get h = { w.flx.get h with asks := [] } := by rw [← hu, World.flx_updFlx, Two.get_upd_same]
  have hrd : u.rd h F.FLX_CART.ACTIVE = w.rd h F.FLX_CART.ACTIVE := by rw [← hu, World.rd_updFlx]
  have hsess (j : Nat) : u.fsess h j = w.fsess h j := by rw [World.fsess, World.fsess, hflx]
  have heq : w.cartChoose h = if u.rd h F.FLX_CART.ACTIVE ≠ 0xF then u
      else match (w.flx.get h).asks.filter (fun a => w.fstate h a.1 = 3) with
        | [] => u
        | a :: t => u.cartActive h (some (t.foldl (fun m x => if bytesLt x.2 m.2 then x else m) a).1) := by
    rw [← hu]
    rfl
  refine ⟨?_, fun j => ?_, fun ha => ?_, fun x hx ha hst => ?_⟩
  · rw [heq]
    split
    · rw [hflx]
    · split
      · rw [hflx]
      · rw [(u.cartActive_leaves h _).2.2, hflx]
  · rw [heq]
    split
    · exact hsess j
    · split
      · exact hsess j
      · rw [(u.cartActive_leaves h _).2.1 j, hsess j]
  · rw [heq, if_pos (by rwa [hrd]), hrd]
  · have hone : (w.flx.get h).asks.filter (fun a => w.fstate h a.1 = 3) = [x] := by
      rw [hx]
      exact List.filter_cons_of_pos (decide_eq_true hst)
    rw [heq, if_neg (by rw [hrd, ha]; decide), hone]
    exact (u.cartActive_leaves h (some x.1)).1

end Sys2Proof.Machine
end

section
/-!
PROOF. O51: open sessions exchange messages and cart states.
-/
namespace Sys2Proof.Machine

/-! A message acted on by its type (R443). -/

theorem World.flxAct_open {w : World} {h : Half} {k ty : Nat} (p : List Byte) (hty : ty ≠ 3) :
    (w.flxAct h k ty p).fstate h k = w.fstate h k ∧
    (∃ at_, (w.flxAct h k ty p).fsess h k = { w.fsess h k with cartAt := at_ }) ∧
    (w.flxAct h k ty p).rd h F.FLX_YLD.ACKED = w.rd h F.FLX_YLD.ACKED := by
  unfold World.flxAct
  rw [if_neg hty]
  split
  · have hrest : Rest [.evt, .gns, .reg 0x100018, .reg 0xB00018, .reg 0xB0008C] (w.takeFrame h 2 p) w := World.takeFrame_rest (by decide) (Rest.refl _ w)
    exact ⟨hrest.rd _ _ _ (by decide), ⟨(w.fsess h k).cartAt, World.fsess_congr (congrArg (·.get h) (hrest.flx (by decide))) k⟩,
      hrest.rd _ _ _ (by decide)⟩
  · split
    · exact World.cartState_kept w h k p
    · exact ⟨rfl, ⟨_, rfl⟩, rfl⟩

theorem World.flxAct_close (w : World) (h : Half) (k : Nat) (p : List Byte) : w.flxAct h k 3 p = w.flxClose h k (u32At p 0) := rfl
theorem World.flxAct_cart (w : World) (h : Half) (k : Nat) (p : List Byte) : w.flxAct h k 0x21 p = w.cartState h k p := rfl

theorem State.flxGot_open {s : State} {h : Half} {k : Nat} (ty seq ack : Nat) (p : List Byte) (hrun : s.flxRuns h = true) (hk : k < 16)
    (hst : s.w.fstate h k = 3) : s.flxGot h k ty seq ack p = .next { s with w := (s.w.flxTake h k seq ack).flxAct h k ty p } := by
  rw [State.flxGot, lift, World.when, hrun, decide_eq_true hk, decide_eq_true hst]
  rfl

theorem State.flxGot_refused {s : State} {h : Half} {k : Nat} (ty seq ack : Nat) (p : List Byte)
    (hn : s.flxRuns h = false ∨ 16 ≤ k ∨ s.w.fstate h k ≠ 3) : s.flxGot h k ty seq ack p = .next s := by
  rw [State.flxGot, lift, World.when, if_neg]
  obtain hn | hn | hn := hn
  · simp [hn]
  · simp [Nat.not_lt.mpr hn]
  · simp [hn]

/-! A message sent to several slots (R443, R444). -/

theorem World.sendEach {l : List Nat} (hnd : l.Nodup) (w : World) (h : Half) (ty : Nat) (p : World → Nat → List Byte)
    (hp : ∀ u j k x, p (u.setFsess h j x) k = p u k) :
    let t := w.forAll l fun w k => w.flxSend h k ty (p w k)
    (∀ k ∈ l, t.fsess h k = (w.fsess h k).send w.now ty (p w k)) ∧ (∀ k ∉ l, t.fsess h k = w.fsess h k) ∧
      (t.flx.get h).asks = (w.flx.get h).asks ∧ (∀ k, p t k = p w k) ∧ Rest [.flx] t w := by
  have hpay (k : Nat) : p (w.forAll l fun w k => w.flxSend h k ty (p w k)) k = p w k :=
    World.forAll_keeps (fun u => p u k) (fun u j => hp u j k _) _ _
  have hasks : ((w.forAll l fun w k => w.flxSend h k ty (p w k)).flx.get h).asks = (w.flx.get h).asks :=
    World.forAll_keeps (fun u => (u.flx.get h).asks) (fun u j => World.asks_setFsess _ _ _ _) _ _
  have hall := World.forAll_at (fun (u : World) k => (u.fsess h k, u.now, p u k)) id (fun x k => (x.1.send x.2.1 ty x.2.2, x.2.1, x.2.2))
    (f := fun w k => w.flxSend h k ty (p w k))
    (fun u k => by
      rw [id, World.fsess_flxSend, World.flxSend, hp]
      rfl)
    (fun u k j hj => by
      have hjk : j ≠ k := hj
      rw [World.flxSend, World.fsess_setFsess_ne _ _ _ hjk, hp]
      rfl) (l := l) (by rwa [List.map_id]) w
  refine ⟨fun k hk => congrArg Prod.fst (hall.1 k hk), fun k hk => congrArg Prod.fst (hall.2 k (by rwa [List.map_id])), hasks, hpay, ?_⟩
  exact Rest.forAll (Rest.refl _ w) fun _ _ e => World.flxSend_rest (by decide) e

end Sys2Proof.Machine

open Sys2Proof Sys2Proof.Machine

/-- Settles O51: a message by what it leaves in its session and by its type, the time-driven ones by what is sent, the active cart by its
register. -/
theorem fleetMessages : Obligations.fleetMessages := by
  unfold Obligations.fleetMessages
  refine ⟨?got, ?gotNot, ?rtcm, ?cart, ?cartNot, ?heart, ?heartNot, ?timeout, ?timeoutNot, ?key, ?keyNot, ?status, ?sync, ?notRuns, ?stale,
    ?staleNot, ?select, ?release⟩
  case got =>
    intro h k ty seq ack p s hrun hk hst
    have hexec : exec (.flxMessageReceived h k ty seq ack p) s = .next { s with w := (s.w.flxTake h k seq ack).flxAct h k ty p } :=
      State.flxGot_open _ _ _ _ hrun hk hst
    obtain ⟨hsess, -, hkept, hacked⟩ := s.w.flxTake_leaves h k seq ack
    refine .of_exec hexec ?_
    obtain ⟨u, hu⟩ : ∃ u, s.w.flxTake h k seq ack = u := ⟨_, rfl⟩
    have hquiet := exec_quiet hexec rfl
    rw [hu] at hsess hkept hacked hquiet ⊢
    by_cases hty : ty = 3
    · subst hty
      obtain ⟨hst', hclose, hack, -⟩ := u.flxClose_leaves h k (u32At p 0)
      exact ⟨fun _ => ⟨hst', hclose⟩, fun hn => absurd rfl hn, fun h0 => hack.trans (hacked h0), hquiet⟩
    · obtain ⟨hst', ⟨at_, hsess'⟩, hack⟩ := u.flxAct_open (h := h) (k := k) p hty
      refine ⟨fun h3 => absurd h3 hty, fun _ => ⟨hst'.trans ((hkept _ _ (by decide) (by decide)).trans hst), ?_⟩,
        fun h0 => hack.trans (hacked h0), hquiet⟩
      dsimp only
      rw [hsess', hsess]
      exact ⟨rfl, rfl, rfl⟩
  case gotNot =>
    intro h k ty seq ack p s hn
    exact .of_exec (t := s) (State.flxGot_refused _ _ _ _ hn) rfl
  case rtcm =>
    intro h seq ack frame s
    exact .of_exec (c := .rtcm h seq ack frame) rfl rfl
  case cart =>
    intro h k seq ack p s hrun hk hk3 hst hp
    have hexec : exec (.cartState h k seq ack p) s = .next { s with w := (s.w.flxTake h k seq ack).cartState h k p } :=
      State.flxGot_open 0x21 _ _ _ hrun (by omega) hst
    obtain ⟨hsess, hasks, hkept, -⟩ := s.w.flxTake_leaves h k seq ack
    have hquiet := exec_quiet hexec rfl
    have hsame : exec (.flxMessageReceived h k 0x21 seq ack p) s = .next { s with w := (s.w.flxTake h k seq ack).cartState h k p } := hexec
    have hrest : Rest [.flx, .reg 0xA00108, .reg 0xA00140] (s.w.flxTake h k seq ack) s.w := World.flxTake_rest (by decide) (Rest.refl _ _)
    refine .of_exec hexec ?_
    obtain ⟨u, hu⟩ : ∃ u, s.w.flxTake h k seq ack = u := ⟨_, rfl⟩
    rw [hu] at hsess hasks hkept hquiet hsame hrest ⊢
    obtain ⟨hsess', hmode, hnone, hask⟩ := u.cartState_leaves h k p hk hk3 hp
    rw [hkept F.FLX_CART.ACTIVE 0 (by decide) (by decide)] at hmode hnone hask
    rw [hasks, hsess] at hask
    refine ⟨?_, hmode, hnone, hask, hsame, hquiet⟩
    dsimp only
    rw [hsess']
    exact hrest.now (by decide)
  case cartNot =>
    intro h k seq ack p s hn
    exact .of_exec (t := s) (State.flxGot_refused _ _ _ _ hn) rfl
  case heart =>
    intro h k s hrun hk hst hat
    have hexec : exec (.flxHeartbeatSend h k) s = .next { s with w := s.w.flxSend h k 2 [] } := by
      change execFlxHeartbeatSend h k s = _
      unfold execFlxHeartbeatSend lift
      dsimp only
      rw [hrun, decide_eq_true hk, decide_eq_true hst, decide_eq_true hat]
      rfl
    have hregs : World.RegsBut [] s.w _ := exec_regsBut hexec rfl
    have hquiet := exec_quiet hexec rfl
    refine .of_exec hexec ?_
    dsimp only
    rw [World.fsess_flxSend]
    exact ⟨rfl, rfl, rfl, hregs, hquiet⟩
  case heartNot =>
    intro h k s hn
    refine .of_exec (t := s) ?_ rfl
    change execFlxHeartbeatSend h k s = _
    rw [execFlxHeartbeatSend, lift, World.when, if_neg]
    obtain hn | hn | hn | hn := hn
    · simp [hn]
    · simp [Nat.not_lt.mpr hn]
    · simp [hn]
    · simp [Nat.not_le.mpr hn]
  case timeout =>
    intro h k s hrun hk hst hat
    have hexec : exec (.flxSessionTimeout h k) s = .next { s with w := (s.w.bump h F.FLX_CNT.TIMEOUT).flxClose h k 2 } := by
      change execFlxSessionTimeout h k s = _
      rw [execFlxSessionTimeout, lift, World.when, if_pos]
      rw [hrun, decide_eq_true hk, decide_eq_true hst, decide_eq_true hat]
      rfl
    obtain ⟨hst', hclose, -, hcount⟩ := (s.w.bump h F.FLX_CNT.TIMEOUT).flxClose_leaves h k 2
    refine .of_exec hexec ⟨hst', hclose, ?_, exec_quiet hexec rfl⟩
    dsimp only
    rw [hcount, World.rd_bump_same _ _ _ _ (by decide), satInc_eq_satTo]
  case timeoutNot =>
    intro h k s hn
    refine .of_exec (t := s) ?_ rfl
    change execFlxSessionTimeout h k s = _
    rw [execFlxSessionTimeout, lift, World.when, if_neg]
    obtain hn | hn | hn | hn := hn
    · simp [hn]
    · simp [Nat.not_lt.mpr hn]
    · simp [hn]
    · simp [Nat.not_le.mpr hn]
  case key =>
    intro h k s hrun hk hst hdue
    have hexec : exec (.flxKeyUpdate h k) s = .next { s with
        w := s.w.setFsess h k { s.w.fsess h k with records := 0, keyAt := s.w.now, updates := (s.w.fsess h k).updates + 1 } } := by
      change execFlxKeyUpdate h k s = _
      rw [execFlxKeyUpdate, lift]
      dsimp only
      rw [World.when, if_pos]
      simpa [hrun, hk, hst] using hdue
    have hregs : World.RegsBut [] s.w _ := exec_regsBut hexec rfl
    have hquiet := exec_quiet hexec rfl
    refine .of_exec hexec ?_
    dsimp only
    rw [World.fsess_setFsess_same]
    exact ⟨rfl, rfl, rfl, hregs, hquiet⟩
  case keyNot =>
    intro h k s hn
    refine .of_exec (t := s) ?_ rfl
    change execFlxKeyUpdate h k s = _
    rw [execFlxKeyUpdate, lift]
    dsimp only
    rw [World.when, if_neg]
    obtain hn | hn | hn | ⟨hrec, hat⟩ := hn
    · simp [hn]
    · simp [Nat.not_lt.mpr hn]
    · simp [hn]
    · rw [decide_eq_false (Nat.not_le.mpr hrec), decide_eq_false (Nat.not_le.mpr hat), Bool.or_false, Bool.and_false]
      exact Bool.false_ne_true
  case status =>
    intro h s hrun
    obtain ⟨l, hl⟩ : ∃ l, (0 :: List.range' 4 12).filter (fun k => s.w.fstate h k = 3) = l := ⟨_, rfl⟩
    have hexec : exec (.status h) s = .next { s with w := s.w.forAll l fun w k => w.flxSend h k 0x11 (s.w.statusPayload h) } := by
      change execStatus h s = _
      rw [execStatus, lift, World.when, if_pos hrun, ← hl]
    have hnd : l.Nodup := hl ▸ List.Nodup.filter _ (by decide)
    obtain ⟨hin, hout, -⟩ := World.sendEach hnd s.w h 0x11 (fun _ _ => s.w.statusPayload h) (fun _ _ _ _ => rfl)
    have hmem (k : Nat) : k ∈ l ↔ (k = 0 ∨ 4 ≤ k ∧ k < 16) ∧ s.w.fstate h k = 3 := by
      rw [← hl, List.mem_filter, List.mem_cons, List.mem_range'_1, decide_eq_true_eq]
    refine .of_exec hexec ⟨fun k hk hk4 hst => ?_, fun k hst => hout k fun hk => hst ((hmem k).mp hk).2, exec_regsBut hexec rfl, exec_quiet hexec rfl⟩
    dsimp only
    rw [hin k ((hmem k).mpr ⟨by omega, hst⟩)]
    exact ⟨rfl, rfl⟩
  case sync =>
    intro h s hrun
    obtain ⟨u, hu⟩ : ∃ u, s.w.cartChoose h = u := ⟨_, rfl⟩
    obtain ⟨l, hl⟩ : ∃ l, [1, 2, 3].filter (fun k => u.fstate h k = 3) = l := ⟨_, rfl⟩
    have hrest : Rest [.evt, .flx, .reg 0x100018, .reg 0xA00108, .reg 0xA0010C] u s.w := hu ▸ World.cartChoose_rest (by decide) (Rest.refl _ _)
    have hexec : exec (.cartSync h) s = .next { s with
        w := u.forAll l fun w k => w.flxSend h k 0x20 (w.cartPayload h (s.w.mt h / (50 * ms) * (50 * ms)) k) } := by
      change execCartSync h s = _
      rw [execCartSync, lift, World.when, if_pos hrun, hu, ← hl, ← hrest.mt (by decide) h]
    have hnd : l.Nodup := hl ▸ List.Nodup.filter _ (by decide)
    obtain ⟨hin, -, hasks', hpay, hsend⟩ := World.sendEach hnd u h 0x20 (fun w k => w.cartPayload h (s.w.mt h / (50 * ms) * (50 * ms)) k)
      (fun _ _ _ _ => rfl)
    obtain ⟨hasks, hsess, hkept, hone⟩ := s.w.cartChoose_leaves h
    rw [hu] at hasks hsess hkept hone
    refine .of_exec hexec ⟨hasks'.trans hasks, fun k hk hk3 hst => ?_, fun ha => (hsend.rd _ _ _ (by decide)).trans (hkept ha),
      fun x hx hlen ha hx3 hst => ?_, exec_quiet hexec rfl⟩
    · have hmem : k ∈ l := by
        have hst' : u.fstate h k = 3 := (hrest.rd _ _ _ (by decide)).trans hst
        rw [← hl, List.mem_filter, decide_eq_true_eq]
        refine ⟨?_, hst'⟩
        simp only [List.mem_cons, List.not_mem_nil, or_false]
        omega
      dsimp only
      rw [hpay k, hin k hmem, hsess k]
      exact ⟨rfl, hrest.now (by decide), rfl⟩
    · obtain ⟨y, hy⟩ := List.length_eq_one_iff.mp hlen
      obtain rfl : x = y := by
        rw [hy] at hx
        exact List.mem_singleton.mp hx
      refine (hsend.rd _ _ _ (by decide)).trans ((hone x hy ha hst).trans (Nat.mod_eq_of_lt (by omega)))
  case notRuns =>
    intro h s c hc hrun
    refine .of_exec (t := s) ?_ rfl
    simp only [List.mem_cons, List.not_mem_nil, or_false] at hc
    obtain rfl | rfl := hc
    · change execStatus h s = _
      rw [execStatus, lift, World.when, hrun]
      rfl
    · change execCartSync h s = _
      rw [execCartSync, lift, World.when, hrun]
      rfl
  case stale =>
    intro h s k hrun hk hk15 hstale hat
    subst hk
    have hexec : exec (.cartStale h) s = .next { s with
        w := (s.w.wr h F.FLX_CART.STALE 0 1).raise h 198 (evArg (s.w.rd h F.FLX_CART.ACTIVE) 0xFF 1) } := by
      change execCartStale h s = _
      rw [execCartStale, lift]
      dsimp only
      rw [World.when, if_pos]
      rw [hrun, decide_eq_true hk15, (World.flag_eq_false_iff rfl).mpr hstale, decide_eq_true hat]
      rfl
    refine .of_exec hexec ?_
    dsimp only
    rw [World.rd_raise _ _ _ _ _ _ _ (by decide), World.rd_raise _ _ _ _ _ _ _ (by decide), World.rd_wr_same _ _ _ _ _ (by decide),
      World.rd_wr_apart _ _ _ _ _ _ _ _ (by decide)]
    exact ⟨rfl, rfl, exec_regsBut hexec rfl, exec_quiet hexec rfl⟩
  case staleNot =>
    intro h s hn
    refine .of_exec (t := s) ?_ rfl
    change execCartStale h s = _
    rw [execCartStale, lift]
    dsimp only
    rw [World.when, if_neg]
    obtain hn | hn | hn | hn := hn
    · simp [hn]
    · simp [hn]
    · simp [World.flag_eq_true_iff.mpr hn]
    · simp [Nat.not_le.mpr hn]
  case select =>
    intro h init k s
    obtain ⟨u, hu⟩ : ∃ u, s.w.wr h F.FLX_CART_CMD.SLOT 0 k = u := ⟨_, rfl⟩
    have hslot : u.rd h F.FLX_CART_CMD.SLOT = k % 16 := by
      rw [← hu]
      exact World.rd_wr_same _ _ _ _ _ (by decide)
    have hkept (f : Field) (i : Nat) (hf : fieldsApart F.FLX_CART_CMD.SLOT f = true) : u.rd h f i = s.w.rd h f i := by
      rw [← hu, World.rd_wr_apart _ _ _ _ _ _ _ _ hf]
    by_cases hc : s.flxRuns h = true ∧ 1 ≤ k ∧ k ≤ 3 ∧ s.w.fstate h k = 3
    · obtain ⟨hrun, hk, hk3, hst⟩ := hc
      have hexec : exec (.cartSelect h init k) s = .next { s with w := u.cartActive h (some k) } := by
        change execCartSelect h init k s = _
        rw [execCartSelect, lift]
        dsimp only
        rw [hu, World.when, if_pos]
        rw [hrun, decide_eq_true hk, decide_eq_true hk3, World.fstate, hkept _ _ (by decide), ← World.fstate, decide_eq_true hst]
        rfl
      refine .of_exec hexec ⟨(World.rd_cartActive _ _ _ _ _ (by decide)).trans hslot, ?_, fun hr => absurd hrun (by simp [hr]), exec_quiet hexec rfl⟩
      rw [if_pos ⟨hrun, hk, hk3, hst⟩]
      exact (u.cartActive_leaves h (some k)).1.trans (Nat.mod_eq_of_lt (show k < 16 by omega))
    · have hexec : exec (.cartSelect h init k) s = .next { s with w := u } := by
        change execCartSelect h init k s = _
        rw [execCartSelect, lift]
        dsimp only
        rw [hu, World.when, if_neg]
        rw [World.fstate, hkept _ _ (by decide), ← World.fstate]
        simpa [and_assoc] using hc
      refine .of_exec hexec ⟨hslot, ?_, fun _ => ?_, exec_quiet hexec rfl⟩
      · rw [if_neg hc]
        exact hkept _ _ (by decide)
      · have hrest : Rest [.reg 0xA00118] u s.w := hu ▸ Rest.wr _ _ _ _ (by decide) (Rest.refl _ _)
        exact hrest.regsBut rfl
  case release =>
    intro h init s
    by_cases hrun : s.flxRuns h = true
    · by_cases ha : s.w.rd h F.FLX_CART.ACTIVE = 15
      · have hexec : exec (.cartRelease h init) s = .next s := by
          change execCartRelease h init s = _
          rw [execCartRelease, lift, World.when, if_neg (by simp [ha])]
        refine .of_exec hexec ⟨?_, fun _ => rfl, exec_quiet hexec rfl⟩
        rw [if_pos hrun, ha]
      · have hexec : exec (.cartRelease h init) s = .next { s with w := s.w.cartActive h none } := by
          change execCartRelease h init s = _
          rw [execCartRelease, lift, World.when, if_pos (by simp [ha, hrun])]
        refine .of_exec hexec ⟨?_, fun hr => absurd hrun (by simp [hr]), exec_quiet hexec rfl⟩
        rw [if_pos hrun]
        exact (s.w.cartActive_leaves h none).1
    · have hexec : exec (.cartRelease h init) s = .next s := by
        change execCartRelease h init s = _
        rw [execCartRelease, lift, World.when, if_neg (by simp [hrun])]
      refine .of_exec hexec ⟨?_, fun _ => rfl, exec_quiet hexec rfl⟩
      rw [if_neg hrun]
end

section
/-!
SUPPORT. R357, R363, R366, R369, R384, R483: bytes stored in a half's memory, and the bytes beside them; the event log, the dump ring, the
acquisition tables, the records and poses.
-/
namespace Sys2Proof

/-! Bytes written and read (log entry 5). -/

/-- The first bytes written from an address read back. -/
theorem Memory.readN_writeN (m : Memory) (a : Nat) (xs ys : List Byte) : (m.writeN a (xs ++ ys)).readN a xs.length = xs := by
  induction xs generalizing m a with
  | nil => rfl
  | cons x xs ih =>
    change ((m.write a x).writeN (a + 1) (xs ++ ys)).read a :: ((m.write a x).writeN (a + 1) (xs ++ ys)).readN (a + 1) xs.length = _
    rw [ih, Memory.read_writeN_out _ _ _ _ (.inl (Nat.lt_succ_self a)), Memory.read_write_same]

end Sys2Proof

namespace Sys2Proof.Machine

theorem World.read_putMem_out (w : World) {h g : Half} (r a : Nat) {b : Nat} (bs : List Byte)
    (hb : g ≠ h ∨ b < Machine.region r a ∨ Machine.region r a + bs.length ≤ b) : ((w.putMem h r a bs).dram.get g).read b = (w.dram.get g).read b := by
  by_cases hg : g = h
  · subst hg
    rw [World.putMem, Two.get_upd_same, Memory.read_writeN_out _ _ _ _ (hb.resolve_left (fun hn => hn rfl))]
  · rw [World.putMem, Two.get_upd_ne _ _ hg]

theorem World.getMem_congr {w v : World} {h : Half} (hm : w.dram.get h = v.dram.get h) (r a n : Nat) : w.getMem h r a n = v.getMem h r a n := by
  rw [World.getMem, World.getMem, hm]

theorem World.getMem_putMem (w : World) (h : Half) (r a : Nat) (xs ys : List Byte) : (w.putMem h r a (xs ++ ys)).getMem h r a xs.length = xs := by
  rw [World.getMem, World.putMem, Two.get_upd_same, Memory.readN_writeN]

theorem World.getMem_putMem_all (w : World) (h : Half) (r a : Nat) (xs : List Byte) : (w.putMem h r a xs).getMem h r a xs.length = xs := by
  have hall := w.getMem_putMem h r a xs []
  rwa [List.append_nil] at hall

/-- An operation that stores nothing keeps every byte. -/
theorem Rest.read {q : List Part} {w v : World} (e : Rest q w v) (hq : partIn q .dram = false) (g : Half) (b : Nat) :
    (w.dram.get g).read b = (v.dram.get g).read b := by rw [e.dram hq]

/-! The event log (R481, R483). -/

theorem EvRec.bytes_length (r : EvRec) : r.bytes.length = 16 := by
  simp only [EvRec.bytes, List.length_append, leBytes_length]

theorem World.logRec_dram (w : World) (h : Half) (r : EvRec) :
    (w.logRec h r).dram = (w.putMem h 10 (16 * (w.rd h F.EVT_LOG_HEAD.VALUE % 4096)) r.bytes).dram := by
  unfold World.logRec
  dsimp only
  rw [World.wr_dram, World.putMem, World.putMem]
  unfold World.when
  split
  · dsimp only
    rw [World.wr_dram]
  · rfl

theorem World.rd_logRec_other (w : World) (h : Half) (r : EvRec) (f : Field) (i : Nat) : (w.logRec h r).rd h.other f i = w.rd h.other f i := by
  unfold World.logRec
  dsimp only
  rw [World.rd_wr_half _ _ _ _ _ _ (Half.other_ne h) rfl, World.rd_putMem, World.rd_when,
    World.rd_wr_half _ _ _ _ _ _ (Half.other_ne h) rfl, ite_self]

/-- Reactions and vectors before the record is logged. -/
def World.reacted (w : World) (h : Half) (rest : List EvRec) (objs : List Nat) (routes : List Route) : World :=
  ((w.updEvt h fun e => { e with queue := rest }).forAll objs World.knockObj).forAll routes fun w t => w.pendVec h t

theorem World.reacted_rest (w : World) (h : Half) (rest : List EvRec) (objs : List Nat) (routes : List Route) :
    Rest [.evt, .vlv, .lsw, .uin, .can, .reg 0x100018, .reg 0x100040, .reg 0x500028, .reg 0x600024, .reg 0x700020, .reg 0x700024, .reg 0x700044,
      .reg 0x701000, .reg 0x701004, .reg 0x900030, .reg 0x900044] (w.reacted h rest objs routes) w :=
  Rest.forAll (Rest.forAll (World.updEvt_rest (by decide) (Rest.refl _ w)) fun _ _ e => World.knockObj_rest (by decide) e)
    fun _ _ e => World.pendVec_rest (by decide) e

/-- The record in the half's log, and its copy in the sibling's. -/
def World.logged (w : World) (h : Half) (r : EvRec) (fwd : Bool) : World :=
  let w := w.logRec h r
  let w := w.when (fwd && w.flag h F.XNG_STATUS.UP && (w.run.get h.other).running) fun w =>
    ((w.logRec h.other { r with flags := r.flags + 2 }).xngSent h 4 16).xngGot h.other 16
  w.updEvt h fun e => e.report (w.mt h) h.code

theorem World.logged_leaves (w : World) (h : Half) (r : EvRec) (fwd : Bool) :
    (w.logged h r fwd).getMem h 10 (16 * (w.rd h F.EVT_LOG_HEAD.VALUE % 4096)) 8 = leBytes r.stamp 8 ∧
    ∀ g b, (b < Machine.region 10 (16 * (w.rd g F.EVT_LOG_HEAD.VALUE % 4096)) ∨ Machine.region 10 (16 * (w.rd g F.EVT_LOG_HEAD.VALUE % 4096)) + 16 ≤ b) →
      ((w.logged h r fwd).dram.get g).read b = (w.dram.get g).read b := by
  obtain ⟨u, hu⟩ : ∃ u, w.logRec h r = u := ⟨_, rfl⟩
  have hdram : (w.logged h r fwd).dram = u.dram ∨
      (w.logged h r fwd).dram = (u.logRec h.other { r with flags := r.flags + 2 }).dram := by
    unfold World.logged World.when
    rw [hu]
    dsimp only
    split
    · exact .inr rfl
    · exact .inl rfl
  have hown : u.dram = (w.putMem h 10 (16 * (w.rd h F.EVT_LOG_HEAD.VALUE % 4096)) r.bytes).dram := by rw [← hu, World.logRec_dram]
  have hsib : (u.logRec h.other { r with flags := r.flags + 2 }).dram =
      (u.putMem h.other 10 (16 * (w.rd h.other F.EVT_LOG_HEAD.VALUE % 4096)) { r with flags := r.flags + 2 }.bytes).dram := by
    rw [World.logRec_dram, ← hu, World.rd_logRec_other]
  have hget : (w.logged h r fwd).dram.get h = u.dram.get h := by
    obtain hd | hd := hdram
    · rw [hd]
    · rw [hd, hsib, World.putMem, Two.get_upd_ne _ _ (Half.ne_other h)]
  constructor
  · rw [World.getMem_congr hget, World.getMem_congr (congrArg (·.get h) hown), EvRec.bytes]
    simp only [List.append_assoc]
    have hread := w.getMem_putMem h 10 (16 * (w.rd h F.EVT_LOG_HEAD.VALUE % 4096)) (leBytes r.stamp 8)
      (leBytes r.num 1 ++ (leBytes r.flags 1 ++ (leBytes r.count 1 ++ (leBytes 0 1 ++ leBytes r.arg 4))))
    rwa [leBytes_length] at hread
  · intro g b hb
    have hfirst : (u.dram.get g).read b = (w.dram.get g).read b := by
      rw [hown]
      refine World.read_putMem_out _ _ _ _ ?_
      by_cases hg : g = h
      · subst hg
        rw [EvRec.bytes_length]
        exact .inr hb
      · exact .inl hg
    obtain hd | hd := hdram
    · rw [hd, hfirst]
    · rw [hd, hsib, World.read_putMem_out, hfirst]
      by_cases hg : g = h.other
      · subst hg
        rw [EvRec.bytes_length]
        exact .inr hb
      · exact .inl hg

/-! The dump ring (R363). -/

theorem leBytesMap_length (n : Nat) (l : List Nat) (f : Nat → List Byte) (hf : ∀ i, (f i).length = n) : (l.flatMap f).length = l.length * n := by
  induction l with
  | nil => exact (Nat.zero_mul n).symm
  | cons i l ih => rw [List.flatMap_cons, List.length_append, ih, hf, List.length_cons, Nat.succ_mul, Nat.add_comm]

/-- A dump record (R363). -/
def World.dumpBytes (w : World) (h : Half) (c seq : Nat) (iq : List Int) (noise flags : Nat) : List Byte :=
  leBytes c 2 ++ leBytes seq 2 ++ leBytes (w.mt h) 8 ++ (List.range 12).flatMap (fun i => leBytes (toTwos 32 (iq.getD i 0)) 4) ++
    leBytes noise 2 ++ leBytes flags 2

theorem World.dumpBytes_length (w : World) (h : Half) (c seq : Nat) (iq : List Int) (noise flags : Nat) :
    (w.dumpBytes h c seq iq noise flags).length = 64 := by
  simp only [World.dumpBytes, List.length_append, leBytes_length, leBytesMap_length 4 _ _ fun _ => leBytes_length _ _, List.length_range]

/-- A dump record kept, and the head moved on. -/
def World.dumpKept (w : World) (h : Half) (bs : List Byte) : World :=
  let hd := w.rd h F.GNS_DUMP_HEAD.VALUE
  (w.putMem h 9 (w.rd h F.GNS_DUMP_BASE.VALUE + 64 * (hd % 4096)) bs).wr h F.GNS_DUMP_HEAD.VALUE 0 ((hd + 1) % 2 ^ 32)

/-- The number of a channel's next dump. -/
def World.dumpSeq (w : World) (h : Half) (c : Nat) : Nat := (w.rd h F.GNS_CH_STATUS.SEQ c + 1) % 65536

theorem World.putDump_eq (w : World) (h : Half) (c : Nat) (iq : List Int) (noise flags : Nat) :
    w.putDump h c iq noise flags =
      if 4096 ≤ ((w.wr h F.GNS_CH_STATUS.SEQ c (w.dumpSeq h c)).rd h F.GNS_DUMP_HEAD.VALUE + 2 ^ 32 -
        (w.wr h F.GNS_CH_STATUS.SEQ c (w.dumpSeq h c)).rd h F.GNS_DUMP_TAIL.VALUE) % 2 ^ 32 then
        (w.wr h F.GNS_CH_STATUS.SEQ c (w.dumpSeq h c)).wr h F.GNS_STATUS.DUMP_OVF 0 1
      else (w.wr h F.GNS_CH_STATUS.SEQ c (w.dumpSeq h c)).dumpKept h
        ((w.wr h F.GNS_CH_STATUS.SEQ c (w.dumpSeq h c)).dumpBytes h c (w.dumpSeq h c) iq noise flags) := by
  rfl

theorem World.dumpKept_dram (w : World) (h : Half) (bs : List Byte) : (w.dumpKept h bs).dram =
    (w.putMem h 9 (w.rd h F.GNS_DUMP_BASE.VALUE + 64 * (w.rd h F.GNS_DUMP_HEAD.VALUE % 4096)) bs).dram := World.wr_dram _ _ _ _ _

/-- A dump is dropped, or stored in the ring. -/
theorem World.putDump_dram (w : World) (h : Half) (c : Nat) (iq : List Int) (noise flags : Nat) :
    (w.putDump h c iq noise flags).dram = w.dram ∨ ∃ bs : List Byte, bs.length = 64 ∧ (w.putDump h c iq noise flags).dram =
      (w.putMem h 9 (w.rd h F.GNS_DUMP_BASE.VALUE + 64 * (w.rd h F.GNS_DUMP_HEAD.VALUE % 4096)) bs).dram := by
  obtain ⟨u, hu⟩ : ∃ u, w.wr h F.GNS_CH_STATUS.SEQ c (w.dumpSeq h c) = u := ⟨_, rfl⟩
  have hdram : u.dram = w.dram := by rw [← hu, World.wr_dram]
  have hrd (f : Field) (hf : fieldsApart F.GNS_CH_STATUS.SEQ f = true) : u.rd h f = w.rd h f := by
    rw [← hu, World.rd_wr_apart _ _ _ _ _ _ _ _ hf]
  rw [World.putDump_eq, hu]
  split
  · exact .inl ((World.wr_dram _ _ _ _ _).trans hdram)
  · refine .inr ⟨u.dumpBytes h c (w.dumpSeq h c) iq noise flags, World.dumpBytes_length _ _ _ _ _ _ _, ?_⟩
    rw [World.dumpKept_dram, hrd F.GNS_DUMP_HEAD.VALUE (by decide), hrd F.GNS_DUMP_BASE.VALUE (by decide), World.putMem, World.putMem, hdram]

theorem World.read_putDump_out (w : World) {h g : Half} (c : Nat) (iq : List Int) (noise flags : Nat) {b : Nat}
    (hb : g ≠ h ∨ b < Machine.region 9 (w.rd h F.GNS_DUMP_BASE.VALUE + 64 * (w.rd h F.GNS_DUMP_HEAD.VALUE % 4096)) ∨
      Machine.region 9 (w.rd h F.GNS_DUMP_BASE.VALUE + 64 * (w.rd h F.GNS_DUMP_HEAD.VALUE % 4096)) + 64 ≤ b) :
    ((w.putDump h c iq noise flags).dram.get g).read b = (w.dram.get g).read b := by
  obtain hd | ⟨bs, hlen, hd⟩ := w.putDump_dram h c iq noise flags
  · rw [hd]
  · rw [hd, World.read_putMem_out _ _ _ _ (hlen ▸ hb)]

/-- A dump taken by a channel whose state has changed alone. -/
theorem Rest.read_putDump_out {u w : World}
    (e : Rest [.evt, .gns, .reg 0x100018, .reg 0xB000D0, .reg 0xB00110, .reg 0xB00114] u w) {h g : Half} (c : Nat) (iq : List Int) (noise flags : Nat) {b : Nat}
    (hb : g ≠ h ∨ b < Machine.region 9 (w.rd h F.GNS_DUMP_BASE.VALUE + 64 * (w.rd h F.GNS_DUMP_HEAD.VALUE % 4096)) ∨
      Machine.region 9 (w.rd h F.GNS_DUMP_BASE.VALUE + 64 * (w.rd h F.GNS_DUMP_HEAD.VALUE % 4096)) + 64 ≤ b) :
    ((u.putDump h c iq noise flags).dram.get g).read b = (w.dram.get g).read b := by
  have hbase : u.rd h F.GNS_DUMP_BASE.VALUE = w.rd h F.GNS_DUMP_BASE.VALUE := e.rd _ _ _ (by decide)
  have hhead : u.rd h F.GNS_DUMP_HEAD.VALUE = w.rd h F.GNS_DUMP_HEAD.VALUE := e.rd _ _ _ (by decide)
  rw [World.read_putDump_out, e.dram (by decide)]
  rw [hbase, hhead]
  exact hb

/-- What each step keeps while a first value stays is kept by all of them. -/
theorem World.forAll_tells {α β γ : Type} (v : World → β) (g : World → γ) {f : World → α → World} {l : List α} {w : World}
    (hf : ∀ a ∈ l, ∀ u, v u = v w → v (f u a) = v u ∧ g (f u a) = g u) (u : World) (hu : v u = v w) :
    v (u.forAll l f) = v w ∧ g (u.forAll l f) = g u := by
  unfold World.forAll
  induction l generalizing u with
  | nil => exact ⟨hu, rfl⟩
  | cons a l ih =>
    obtain ⟨hv, hg⟩ := hf a List.mem_cons_self u hu
    obtain ⟨hv', hg'⟩ := ih (fun b hb => hf b (List.mem_cons_of_mem a hb)) (f u a) (hv.trans hu)
    exact ⟨hv', hg'.trans hg⟩

/-! The acquisition tables (R357, R365). -/

theorem World.read_knockAcq_out (w : World) {h g : Half} (e : Nat) {b : Nat}
    (hb : g ≠ h ∨ ∀ e k, e < 16 → k < 64 → b ≠ Machine.region 0 (w.rd h F.GNS_ACQ_TAB.ADDR e + 64 * k + 32)) :
    ((w.knockAcq h e).dram.get g).read b = (w.dram.get g).read b := by
  unfold World.knockAcq
  dsimp only
  split
  · next hbusy =>
    have he : e < 16 := of_decide_eq_true ((Bool.and_eq_true _ _).mp hbusy).1
    have hn : w.rd h F.GNS_ACQ_CMD.N e < 64 := World.rd_lt _ _ _ _
    obtain ⟨i, hi⟩ : ∃ i, w.rd h F.GNS_ACQ_STATUS.ENTRY e = i := ⟨_, rfl⟩
    obtain ⟨u, hu⟩ : ∃ u, (w.forAll (List.range' i (w.rd h F.GNS_ACQ_CMD.N e + 1 - i)) fun w k =>
      w.putMem h 0 (w.rd h F.GNS_ACQ_TAB.ADDR e + 64 * k + 32) (leBytes 3 1)) = u := ⟨_, rfl⟩
    have hdone : Rest [.evt, .reg 0x100018, .reg 0xB00148] (u.acqDone h e true) u := World.acqDone_rest (by decide) (Rest.refl _ u)
    rw [hi, hu, hdone.read (by decide), ← hu]
    refine (World.forAll_tells (fun w : World => w.rd h F.GNS_ACQ_TAB.ADDR e) (fun w => (w.dram.get g).read b) (fun k hk v hv => ?_) w rfl).2
    refine ⟨World.rd_putMem _ _ _ _ _ _ _ _, World.read_putMem_out _ _ _ _ ?_⟩
    have hk64 : k < 64 := by
      rw [List.mem_range'_1] at hk
      omega
    refine hb.imp_right fun hout => ?_
    have hne := hout e k he hk64
    rw [hv, leBytes_length]
    omega
  · rfl

end Sys2Proof.Machine
end

section
/-!
SUPPORT. R310, R335, R357, R365, R366, R384, R490: what the engines of the satellite receiver, a Knock, the Grind and the track store leave in
a half's memory.
-/
namespace Sys2Proof.Machine

/-! An entry of an acquisition (R357). -/

/-- The result bytes of an entry. -/
def acqBytes (res cn0 ratio code : Nat) (dop : Int) (tEnd : Nat) : List Byte :=
  leBytes res 1 ++ leBytes cn0 1 ++ leBytes ratio 2 ++ leBytes code 4 ++ leBytes (toTwos 32 dop) 4 ++ leBytes 0 4 ++ leBytes tEnd 8

theorem acqBytes_length (res cn0 ratio code : Nat) (dop : Int) (tEnd : Nat) : (acqBytes res cn0 ratio code dop tEnd).length = 24 := by
  simp only [acqBytes, List.length_append, leBytes_length]

/-- What follows the result: the channel handed to, the counts, the next entry or the end. -/
def World.acqEnded (w : World) (h : Half) (e i : Nat) (bs : List Byte) (hit start : Bool) (dop : Int) : World :=
  let w := w.when start fun w =>
    let w := (((w.wr h F.GNS_CH_CFG.SYS (byteAt bs 24) (byteAt bs 0)).wr h F.GNS_CH_CFG.SV (byteAt bs 24) (byteAt bs 1)).wr
      h F.GNS_CH_CFG.SIG (byteAt bs 24) (byteAt bs 2)).wr h F.GNS_CH_CFG.ANT (byteAt bs 24) (byteAt bs 3 % 2)
    let w := (w.wrI h F.GNS_CH_CARR.RATE (byteAt bs 24) (carrRateOf (byteAt bs 2) dop)).wr h F.GNS_CH_CODE.RATE (byteAt bs 24)
      (codeRateOf (byteAt bs 2) dop)
    w.startChan h (byteAt bs 24) (carrRateOf (byteAt bs 2) dop) (codeRateOf (byteAt bs 2) dop) true
  let w := (w.bump h F.GNS_ACQ_STATUS.DONE e).when hit fun w => w.bump h F.GNS_ACQ_STATUS.HITS e
  if i = w.rd h F.GNS_ACQ_CMD.N e then w.acqDone h e false else w.wr h F.GNS_ACQ_STATUS.ENTRY e (i + 1)

theorem World.acqEnded_dram (w : World) (h : Half) (e i : Nat) (bs : List Byte) (hit start : Bool) (dop : Int) :
    (w.acqEnded h e i bs hit start dop).dram = w.dram := by
  refine Rest.dram (q := allBut .dram) ?_ rfl
  have hcount : Rest (allBut .dram) _ w := Rest.when (c := hit) (Rest.bump h F.GNS_ACQ_STATUS.DONE e (by decide) (Rest.when (c := start) (Rest.refl _ w)
    fun u (hu : Rest _ u w) => World.startChan_rest (h := h) (c := byteAt bs 24) (carr := carrRateOf (byteAt bs 2) dop)
      (code := codeRateOf (byteAt bs 2) dop) (handoff := true) (by decide)
      (Rest.wr h F.GNS_CH_CODE.RATE (byteAt bs 24) (codeRateOf (byteAt bs 2) dop) (by decide)
        (Rest.wrI h F.GNS_CH_CARR.RATE (byteAt bs 24) (carrRateOf (byteAt bs 2) dop) (by decide)
          (Rest.wr h F.GNS_CH_CFG.ANT (byteAt bs 24) (byteAt bs 3 % 2) (by decide) (Rest.wr h F.GNS_CH_CFG.SIG (byteAt bs 24) (byteAt bs 2) (by decide)
            (Rest.wr h F.GNS_CH_CFG.SV (byteAt bs 24) (byteAt bs 1) (by decide) (Rest.wr h F.GNS_CH_CFG.SYS (byteAt bs 24) (byteAt bs 0) (by decide)
              hu)))))))) fun u hu => Rest.bump h F.GNS_ACQ_STATUS.HITS e (by decide) hu
  exact Rest.ite (World.acqDone_rest (by decide) hcount) (Rest.wr _ _ _ _ (by decide) hcount)

theorem execAcqEntryComplete_stores (h : Half) (e cn0 ratio code : Nat) (dop : Int) (tEnd : Nat) (s : State) :
    ∃ t res, exec (.acqEntryComplete h e cn0 ratio code dop tEnd) s = .next t ∧ (t.w.dram = s.w.dram ∨
      t.w.dram = (s.w.putMem h 0 (s.w.rd h F.GNS_ACQ_TAB.ADDR e + 64 * s.w.rd h F.GNS_ACQ_STATUS.ENTRY e + 32)
        (acqBytes res cn0 ratio code dop tEnd)).dram) := by
  obtain ⟨res, bs, hit, start, hexec⟩ : ∃ res bs hit start, exec (.acqEntryComplete h e cn0 ratio code dop tEnd) s = .next { s with
      w := if 16 ≤ e || !s.w.flag h F.GNS_ACQ_STATUS.BUSY e then s.w
        else (s.w.putMem h 0 (s.w.rd h F.GNS_ACQ_TAB.ADDR e + 64 * s.w.rd h F.GNS_ACQ_STATUS.ENTRY e + 32)
          (acqBytes res cn0 ratio code dop tEnd)).acqEnded h e (s.w.rd h F.GNS_ACQ_STATUS.ENTRY e) bs hit start dop } := ⟨_, _, _, _, rfl⟩
  refine ⟨_, res, hexec, ?_⟩
  dsimp only
  split
  · exact .inl rfl
  · exact .inr (World.acqEnded_dram _ _ _ _ _ _ _ _)

/-! The latch table (R366). -/

/-- A channel's entry in the latch table. -/
def World.latchEntry (w : World) (h : Half) (tm c : Nat) : List Byte :=
  if w.rd h F.GNS_CH_STATUS.STATE c = 1 then
    let x := (w.chan h c).carry tm
    leBytes c 1 ++ leBytes (1 + (if x.lateSince then 2 else 0)) 1 ++ leBytes 0 6 ++ leBytes (floorN x.codeAcc) 8 ++
      leBytes (toTwos 64 x.carrAcc.floor) 8 ++ leBytes (toTwos 32 x.carr) 4 ++ leBytes x.code 4
  else leBytes c 1 ++ leBytes 0 31

theorem World.latchEntry_length (w : World) (h : Half) (tm c : Nat) : (w.latchEntry h tm c).length = 32 := by
  unfold World.latchEntry
  split
  · simp only [List.length_append, leBytes_length]
  · simp only [List.length_append, leBytes_length]

theorem execMeasurementLatch_stores (h : Half) (s : State) : ∃ t bs, exec (.measurementLatch h) s = .next t ∧ List.length bs = 6144 ∧
    t.w.dram = (s.w.putMem h 6 (6144 * (((s.w.gns.get h).latBuf + 1) % 2)) bs).dram := by
  refine ⟨_, (List.range 192).flatMap (s.w.latchEntry h (s.w.mt h / s.w.measPeriod h * s.w.measPeriod h)), rfl, ?_, ?_⟩
  · rw [leBytesMap_length 32 _ _ fun _ => World.latchEntry_length _ _ _ _, List.length_range]
  · dsimp only
    rw [World.wr_dram, World.wr_dram, World.wr_dram]
    rfl

/-! The records (R367, R369) and the pose (R384). -/

theorem World.exclTold_dram (w : World) (h : Half) (es : List MEntry) : (w.exclTold h es).dram = w.dram :=
  (w.exclTold_rest h es).dram (by decide)

theorem World.recordStored_dram (w : World) (h : Half) (r : MRec) : (w.recordStored h r).dram =
    (w.putMem h 7 (if w.rd h F.GNS_MREC_OWN.VALUE = 0x10000 then 0x18000 else 0x10000) r.bytes).dram := World.wr_dram _ _ _ _ _

theorem World.sibTaken_dram (w : World) (h : Half) (r : MRec) : (w.sibTaken h r).dram =
    (w.putMem h 7 (if w.rd h F.GNS_MREC_SIB.VALUE = 0x20000 then 0x28000 else 0x20000) r.bytes).dram := World.wr_dram _ _ _ _ _

theorem World.poseStored_dram (w : World) (h : Half) (p : Pose) : (w.poseStored h p).dram =
    (w.putMem h 8 (64 * (((w.gns.get h).pse + 1) % 128)) p.bytes).dram := World.wr_dram _ _ _ _ _

/-- The first 8 bytes of a pose's 64 are its instant. -/
theorem Pose.bytes_split (p : Pose) : ∃ bs, p.bytes = leBytes p.t 8 ++ bs ∧ List.length bs = 56 := by
  unfold Pose.bytes
  obtain ⟨la, lf⟩ := split7 p.lat
  obtain ⟨lo, of⟩ := split7 p.lon
  dsimp only
  generalize crc32c _ = c
  simp only [List.append_assoc]
  exact ⟨_, rfl, by simp only [List.length_append, leBytes_length]⟩

/-! A Knock (R490). -/

theorem State.knock_keeps {s : State} {h : Half} {init cls idx tc : Nat} {jobs : List Nat} {again : Bool} (hcls : cls ≠ 2) :
    (s.knock h init cls idx tc jobs again).1.w.dram = s.w.dram := by
  refine Rest.dram (q := allBut .dram) ?_ rfl
  unfold State.knock
  split
  · exact State.knockClass0_rest (by decide) (Rest.refl _ _)
  · split
    · exact Rest.refl _ _
    · exact Rest.whenS (Rest.refl _ _) fun _ e => World.knockPipes_rest (by decide) e
  · exact absurd rfl hcls
  · split
    · exact Rest.refl _ _
    · exact Rest.whenS (Rest.refl _ _) fun _ e => World.knockJobs_rest (by decide) e
  · split
    · exact Rest.refl _ _
    · split
      · exact Rest.refl _ _
      · exact Rest.refl _ _
  · split
    · exact Rest.whenS (Rest.refl _ _) fun _ e => State.knockClass5_rest (by decide) e
    · exact Rest.refl _ _
  · exact Rest.refl _ _

theorem State.read_knock_out (s : State) {h g : Half} (init cls idx tc : Nat) (jobs : List Nat) (again : Bool) {b : Nat}
    (hb : g ≠ h ∨ ∀ e k, e < 16 → k < 64 → b ≠ Machine.region 0 (s.w.rd h F.GNS_ACQ_TAB.ADDR e + 64 * k + 32)) :
    ((s.knock h init cls idx tc jobs again).1.w.dram.get g).read b = (s.w.dram.get g).read b := by
  by_cases hcls : cls = 2
  · subst hcls
    change ((if 208 ≤ idx then (s, KnockStart.refused 4) else if again then (s, KnockStart.busy) else s.knockClass2 h idx).1.w.dram.get g).read b = _
    split
    · rfl
    · split
      · rfl
      · unfold State.knockClass2
        split
        · split
          · rfl
          · have hrest : Rest [.reg 0xB00018, .reg 0xB00114] (s.w.knockChan h idx) s.w := World.knockChan_rest (by decide) (Rest.refl _ _)
            exact hrest.read (by decide) g b
        · split
          · rfl
          · have hout := s.w.read_knockAcq_out (idx - 192) hb
            exact hout
  · rw [State.knock_keeps hcls]

theorem World.freeSlots_leaves (w : World) (h : Half) (init : Nat) : (w.freeSlots h init).dram = w.dram ∧
    ∀ e, (w.freeSlots h init).rd h F.GNS_ACQ_TAB.ADDR e = w.rd h F.GNS_ACQ_TAB.ADDR e := by
  have hrest : Rest [.evt, .regs] (w.freeSlots h init) w := World.freeSlots_rest (by decide) (Rest.refl _ w)
  refine ⟨hrest.dram (by decide), fun e => ?_⟩
  exact World.forAll_keeps (fun w => w.rd h F.GNS_ACQ_TAB.ADDR e) (f := fun w k => (w.setSlot h k {}).setReg h F.EVT_KNOCK_RES.BUSY k 0)
    (fun u k => World.rd_setReg_reg (u.setSlot h k {}) h h F.EVT_KNOCK_RES.BUSY F.GNS_ACQ_TAB.ADDR k e 0 (by decide)) _ w

theorem State.read_knockIn_out (s : State) {h g : Half} (init cls idx tc : Nat) (jobs : List Nat) (k : Nat) {b : Nat}
    (hb : g ≠ h ∨ ∀ e k, e < 16 → k < 64 → b ≠ Machine.region 0 (s.w.rd h F.GNS_ACQ_TAB.ADDR e + 64 * k + 32)) :
    ((s.knockIn h init cls idx tc jobs k).w.dram.get g).read b = (s.w.dram.get g).read b := by
  obtain ⟨d, hd⟩ : ∃ d, s.knock h init cls idx tc jobs (s.w.knockPending h cls idx) = d := ⟨_, rfl⟩
  have hkept := s.read_knock_out init cls idx tc jobs (s.w.knockPending h cls idx) hb
  rw [hd] at hkept
  refine Eq.trans ?_ hkept
  refine Rest.read (q := allBut .dram) ?_ rfl g b
  unfold State.knockIn
  dsimp only
  rw [hd]
  change Rest _ (match d.2 with
    | .refused n => (d.1.w.setSlot h k ⟨true, init, d.1.w.now⟩).slotRes h k false n cls idx
    | .done => (d.1.w.setSlot h k ⟨true, init, d.1.w.now⟩).slotRes h k false 0 cls idx
    | .busy => (d.1.w.setSlot h k ⟨true, init, d.1.w.now⟩).slotRes h k true 0 cls idx) d.1.w
  have hslot : Rest (allBut .dram) (d.1.w.setSlot h k ⟨true, init, d.1.w.now⟩) d.1.w := World.setSlot_rest (by decide) (Rest.refl _ _)
  split
  · exact World.slotRes_rest (by decide) hslot
  · exact World.slotRes_rest (by decide) hslot
  · exact World.slotRes_rest (by decide) hslot

end Sys2Proof.Machine
end

section
/-!
SUPPORT. R310, R335: what the Grind's publication and the track store leave in a half's memory.
-/
namespace Sys2Proof

/-! Parts of a memory. -/

theorem NMap.mem_del {α : Type} {m : NMap α} {n : Nat} {x : Nat × α} (hx : x ∈ NMap.del m n) : x ∈ m := by
  induction m with
  | nil => exact hx
  | cons y m ih =>
    obtain ⟨k, v⟩ := y
    rw [NMap.del] at hx
    split at hx
    · exact List.mem_cons_of_mem _ (ih hx)
    · obtain rfl | hx := List.mem_cons.mp hx
      · exact List.mem_cons_self
      · exact List.mem_cons_of_mem _ (ih hx)

theorem NMap.mem_put {α : Type} {m : NMap α} {n : Nat} {v : α} {x : Nat × α} (hx : x ∈ NMap.put m n v) : x.1 = n ∨ x ∈ m := by
  induction m with
  | nil => exact .inl (congrArg Prod.fst (List.mem_singleton.mp hx))
  | cons y m ih =>
    obtain ⟨k, u⟩ := y
    rw [NMap.put] at hx
    split at hx
    · obtain rfl | hx := List.mem_cons.mp hx
      · exact .inl rfl
      · exact .inr hx
    · split at hx
      · obtain rfl | hx := List.mem_cons.mp hx
        · exact .inl rfl
        · exact .inr (List.mem_cons_of_mem _ hx)
      · obtain rfl | hx := List.mem_cons.mp hx
        · exact .inr List.mem_cons_self
        · exact (ih hx).imp_right (List.mem_cons_of_mem _)

/-- A byte listed after a write is the one written or was listed before. -/
theorem Memory.mem_write {m : Memory} {a : Nat} {v : Byte} {x : Nat × Byte} (hx : x ∈ m.write a v) : x.1 = a ∨ x ∈ m := by
  unfold Memory.write NMap.set at hx
  split at hx
  · exact .inr (NMap.mem_del hx)
  · exact NMap.mem_put hx

theorem Half.eq_other_of_ne {g h : Half} (hn : g ≠ h) : g = h.other := by
  cases g with
  | A => cases h with
    | A => exact absurd rfl hn
    | B => rfl
  | B => cases h with
    | A => rfl
    | B => exact absurd rfl hn

end Sys2Proof

namespace Sys2Proof.Machine

theorem read_clearRange_out (m : Memory) {a n b : Nat} (hb : b < a ∨ a + n ≤ b) : (clearRange m a n).read b = m.read b :=
  get_filter (fun k => decide (k < a) || decide (a + n ≤ k)) Memory.blank m b (by simpa using hb)

/-- Bytes that none of a list's stores touch. -/
theorem read_foldl_out {α : Type} (f : Memory → α → Memory) {l : List α} {b : Nat} (hf : ∀ x ∈ l, ∀ m : Memory, (f m x).read b = m.read b)
    (m : Memory) : (l.foldl f m).read b = m.read b := by
  induction l generalizing m with
  | nil => rfl
  | cons x l ih => exact (ih (fun y hy => hf y (List.mem_cons_of_mem x hy)) (f m x)).trans (hf x List.mem_cons_self m)

/-! The Grind's buffers (R310). -/

theorem mem_foldl_write {l : List Nat} (v : Nat → Byte) {m : Memory} {x : Nat × Byte} (hx : x ∈ l.foldl (fun m k => m.write k (v k)) m) :
    x.1 ∈ l ∨ x ∈ m := by
  induction l generalizing m with
  | nil => exact .inr hx
  | cons k l ih =>
    obtain hl | hm := ih hx
    · exact .inl (List.mem_cons_of_mem k hl)
    · obtain hk | hm := Memory.mem_write hm
      · exact .inl (hk ▸ List.mem_cons_self)
      · exact .inr hm

/-- A byte of the published grid lies where one plane of the cycle has a byte. -/
theorem mem_fusePlanes {g : GrinSec} {a c : Memory} {missing : Bool} {x : Nat × Byte} (hx : x ∈ fusePlanes g a c missing) :
    ∃ y ∈ a ++ c, y.1 = x.1 := by
  unfold fusePlanes at hx
  split at hx
  · exact ⟨x, List.mem_append_left _ hx, rfl⟩
  · obtain hk | hn := mem_foldl_write _ hx
    · rw [gridKeys, List.mem_dedup, ← List.map_append, List.mem_map] at hk
      exact hk
    · cases hn

theorem profs_length (profs : List (List Nat)) : (profs.flatMap (fun p => (p.take 800).flatMap (leBytes · 2))).length ≤ 1600 * profs.length := by
  induction profs with
  | nil => exact Nat.zero_le _
  | cons p l ih =>
    rw [List.flatMap_cons, List.length_append, leBytesMap_length 2 _ _ fun _ => leBytes_length _ _, List.length_cons]
    have htake : (p.take 800).length ≤ 800 := List.length_take_le _ _
    omega

theorem World.read_putGrid_out (w : World) {h g : Half} {grid : Memory} {profs : List (List Nat)} {b : Nat} {base : Nat}
    (hbase : ((w.grd.get h).buf + 1) % 3 * bufStep = base)
    (hb : g ≠ h ∨ (b < Machine.region 4 base ∨ Machine.region 4 base + bufStep ≤ b) ∧ (∀ x ∈ grid, b ≠ Machine.region 4 (base + x.1)) ∧
      (b < Machine.region 4 (base + 29491200) ∨ Machine.region 4 (base + 29491200) + 1600 * profs.length ≤ b)) :
    ((w.putGrid h grid profs).dram.get g).read b = (w.dram.get g).read b := by
  unfold World.putGrid
  dsimp only
  rw [hbase, World.wr_dram]
  by_cases hg : g = h
  · subst hg
    obtain ⟨hbuf, hgrid, hprof⟩ := hb.resolve_left (fun hn => hn rfl)
    have hlen := profs_length profs
    refine (congrArg (Memory.read · b) (Two.get_set_same _ _ _)).trans ?_
    rw [Memory.read_writeN_out _ _ _ _ (hprof.imp_right fun h => by omega),
      read_foldl_out _ (fun x hx m => Memory.read_write_ne _ _ (hgrid x hx)), read_clearRange_out _ hbuf]
  · exact congrArg (Memory.read · b) (Two.get_set_ne _ _ hg)

/-! The track store (R335–R341). -/

theorem Track.record_length (x : Track) : x.record.length = 64 := by
  unfold Track.record
  dsimp only
  generalize crc32c _ = c
  simp only [List.length_append, leBytes_length, List.length_replicate]

/-- What a unit's own work leaves of the stores: the buffer shown last, and the sibling's store. -/
def World.trkKey (w : World) (h : Half) : Nat × Tracks := ((w.trk.get h).buf, w.trk.get h.other)

theorem World.trkKey_congr {w v : World} (ht : w.trk = v.trk) (h : Half) : w.trkKey h = v.trkKey h := by
  rw [World.trkKey, World.trkKey, ht]

theorem World.trkKey_updTrk (w : World) (h : Half) {f : Tracks → Tracks} (hf : ∀ t, (f t).buf = t.buf) : (w.updTrk h f).trkKey h = w.trkKey h := by
  rw [World.trkKey, World.updTrk, Two.get_upd_same, Two.get_upd_ne _ _ (Half.other_ne h), hf]
  rfl

theorem World.trkKey_confirm (w : World) (h : Half) (s cyc : Nat) : (w.confirm h s cyc).trkKey h = w.trkKey h := by
  unfold World.confirm
  extract_lets x step
  clear_value x step
  split
  · rw [World.trkKey_congr (World.raise_trk _ _ _ _), World.trkKey_updTrk _ _ (by intro _; rfl)]
  · split
    · exact World.trkKey_updTrk _ _ (by intro _; rfl)
    · rfl

theorem World.trkKey_birth (w : World) (h : Half) (t : Nat) (d : Det) (cyc : Nat) (veh : Int × Int × Int) :
    (w.birth h t d cyc veh).trkKey h = w.trkKey h := by
  unfold World.birth
  split
  · rfl
  · dsimp only
    split
    · exact World.trkKey_updTrk _ _ (by intro _; rfl)
    · unfold World.when
      split
      · rw [World.trkKey_congr (World.raise_trk _ _ _ _), World.trkKey_congr (World.wr_trk _ _ _ _ _), World.trkKey_congr (World.bump_trk _ _ _ _)]
      · rw [World.trkKey_congr (World.wr_trk _ _ _ _ _), World.trkKey_congr (World.bump_trk _ _ _ _)]

theorem World.trkKey_deleteTrack (w : World) (h : Half) (s : Nat) (passed : Bool) : (w.deleteTrack h s passed).trkKey h = w.trkKey h := by
  unfold World.deleteTrack
  dsimp only
  split
  · rw [World.trkKey_congr (World.raise_trk _ _ _ _), World.trkKey_congr (World.wr_trk _ _ _ _ _), World.trkKey_updTrk _ _ (by intro _; rfl),
      World.trkKey_updTrk _ _ (by intro _; rfl)]
  · exact World.trkKey_updTrk _ _ (by intro _; rfl)

theorem World.trkKey_missStep (w : World) (h : Half) (t : Nat) (veh : Int × Int × Int) (hit : Bool) (s : Nat) :
    (w.missStep h t veh hit s).trkKey h = w.trkKey h := by
  unfold World.missStep
  extract_lets x seen y z
  clear_value z
  obtain ⟨ax, ay⟩ := z.at_ t
  dsimp only
  split
  · rw [World.trkKey_deleteTrack, World.trkKey_updTrk _ _ (by intro _; rfl)]
  · exact World.trkKey_updTrk _ _ (by intro _; rfl)

theorem World.trkKey_applyDets (w : World) (h : Half) (t cyc : Nat) (veh : Int × Int × Int) (late : Bool) (dets : List Det) :
    (w.applyDets h t cyc veh late dets).1.trkKey h = w.trkKey h := by
  unfold World.applyDets
  dsimp only
  rw [World.forAll_keeps (World.trkKey · h) fun _ _ => World.trkKey_birth _ _ _ _ _ _]
  refine World.forAll_keeps (World.trkKey · h) (fun _ _ => ?_) _ _
  rw [World.trkKey_confirm, World.trkKey_updTrk _ _ (by intro _; rfl)]

theorem World.trkKey_setLevels (w : World) (h : Half) : (w.setLevels h).trkKey h = w.trkKey h := World.trkKey_updTrk _ _ (by intro _; rfl)

theorem World.trkKey_stopOf (w : World) (h : Half) (k : Nat) : (w.stopOf h k).trkKey h = w.trkKey h := by
  unfold World.stopOf
  dsimp only
  have hset (u : World) (lvl mask : Nat) : (u.setStop h k lvl mask).trk = u.trk :=
    Rest.trk (q := allBut .trk) (World.setStop_rest (by decide) (Rest.refl _ u)) rfl
  rw [World.trkKey_congr (hset _ _ _), World.trkKey_updTrk _ _ (by intro _; rfl)]

/-- The bytes that a store published by half `g`, of these tracks, into buffer `buf` may touch. -/
def storeOut (buf : Nat) (slot : NMap Track) (b : Nat) : Prop :=
  (b < region 5 (32768 * ((buf + 1) % 2)) ∨ region 5 (32768 * ((buf + 1) % 2)) + 32768 ≤ b) ∧
    ∀ x ∈ slot, b < region 5 (32768 * ((buf + 1) % 2) + 64 * x.1) ∨ region 5 (32768 * ((buf + 1) % 2) + 64 * x.1) + 64 ≤ b

/-- A half's memory with its store published. -/
def World.storeBytes (w : World) (h : Half) : Memory :=
  (w.trk.get h).slot.foldl (fun m x => m.writeN (Machine.region 5 (32768 * (((w.trk.get h).buf + 1) % 2) + 64 * x.1)) x.2.record)
    (clearRange (w.dram.get h) (Machine.region 5 (32768 * (((w.trk.get h).buf + 1) % 2))) 32768)

theorem World.read_storeBytes (w : World) (h : Half) {b : Nat} (hb : storeOut (w.trk.get h).buf (w.trk.get h).slot b) :
    (w.storeBytes h).read b = (w.dram.get h).read b := by
  obtain ⟨hbuf, hslot⟩ := hb
  refine (read_foldl_out _ (fun x hx m => Memory.read_writeN_out _ _ _ _ ?_) _).trans (read_clearRange_out _ hbuf)
  rw [Track.record_length]
  exact hslot x hx

theorem World.publishStore_leaves (w : World) (h : Half) :
    (w.publishStore h).trk = w.trk.upd h (fun t => { t with buf := ((w.trk.get h).buf + 1) % 2 }) ∧
    (w.publishStore h).dram = w.dram.set h (w.storeBytes h) := by
  unfold World.publishStore
  dsimp only
  rw [World.wr_trk, World.wr_trk, World.wr_trk, World.wr_dram, World.wr_dram, World.wr_dram]
  exact ⟨rfl, rfl⟩

/-- A publication touches the half's own buffer alone. -/
theorem World.read_publishStore_out (w : World) (h : Half) {b : Nat} (hb : storeOut (w.trk.get h).buf (w.trk.get h).slot b) :
    ((w.publishStore h).dram.get h).read b = (w.dram.get h).read b := by
  rw [(w.publishStore_leaves h).2, Two.get_set_same, World.read_storeBytes _ _ hb]

/-- The mirror publishes the unit's tracks in the sibling, or changes no store. -/
theorem World.mirrorTrk_leaves (w : World) (h : Half) : (w.mirrorTrk h).dram.get h = w.dram.get h ∧ (w.mirrorTrk h).trk.get h = w.trk.get h ∧
    ∀ b, storeOut (w.trk.get h.other).buf ((w.mirrorTrk h).trk.get h.other).slot b →
      ((w.mirrorTrk h).dram.get h.other).read b = (w.dram.get h.other).read b := by
  unfold World.mirrorTrk
  split
  · exact ⟨rfl, rfl, fun _ _ => rfl⟩
  · dsimp only
    obtain ⟨u, hu⟩ : ∃ u, (w.updTrk h.other fun o => { w.trk.get h with buf := o.buf, latch := o.latch }) = u := ⟨_, rfl⟩
    obtain ⟨v, hv⟩ : ∃ v, trkMirrored.foldl (fun v f => v.wr h.other f 0 (v.rd h f)) u = v := ⟨_, rfl⟩
    have htrk : v.trk = w.trk.upd h.other fun o => { w.trk.get h with buf := o.buf, latch := o.latch } := by
      rw [← hv]
      refine (World.forAll_keeps (·.trk) (f := fun v f => v.wr h.other f 0 (v.rd h f)) (fun _ _ => World.wr_trk _ _ _ _ _) trkMirrored u).trans ?_
      rw [← hu]
      rfl
    have hdram : v.dram = w.dram := by
      rw [← hv]
      refine (World.forAll_keeps (·.dram) (f := fun v f => v.wr h.other f 0 (v.rd h f)) (fun _ _ => World.wr_dram _ _ _ _ _) trkMirrored u).trans ?_
      rw [← hu]
      rfl
    obtain ⟨hptrk, hpdram⟩ := v.publishStore_leaves h.other
    rw [hu, hv]
    refine ⟨?_, ?_, fun b hb => ?_⟩
    · rw [hpdram, Two.get_set_ne _ _ (Half.ne_other h), hdram]
    · rw [hptrk, Two.get_upd_ne _ _ (Half.ne_other h), htrk, Two.get_upd_ne _ _ (Half.ne_other h)]
    · rw [hptrk, Two.get_upd_same, htrk, Two.get_upd_same] at hb
      rw [World.read_publishStore_out, hdram]
      rw [htrk, Two.get_upd_same]
      exact hb

/-! The commands that publish a store (R337, R349, R350). -/

/-- A command whose own work keeps the buffers, and that then publishes in `h` and mirrors. -/
theorem World.read_trkPublished_out {u w : World} {h g : Half} {b : Nat} (hkey : u.trkKey h = w.trkKey h) (hd : u.dram = w.dram)
    (hb : storeOut (w.trk.get g).buf ((((u.publishStore h).mirrorTrk h).trk.get g).slot) b) :
    ((((u.publishStore h).mirrorTrk h).dram.get g).read b) = (w.dram.get g).read b := by
  obtain ⟨hkeepd, hkeept, hmir⟩ := (u.publishStore h).mirrorTrk_leaves h
  obtain ⟨hptrk, hpdram⟩ := u.publishStore_leaves h
  have hbuf : (u.trk.get h).buf = (w.trk.get h).buf := congrArg Prod.fst hkey
  have hother : u.trk.get h.other = w.trk.get h.other := congrArg Prod.snd hkey
  by_cases hg : g = h
  · subst hg
    rw [hkeept, hptrk, Two.get_upd_same, ← hbuf] at hb
    rw [hkeepd, World.read_publishStore_out _ _ hb, hd]
  · obtain rfl : g = h.other := Half.eq_other_of_ne hg
    rw [hmir b, hpdram, Two.get_set_ne _ _ (Half.other_ne h), hd]
    rwa [hptrk, Two.get_upd_ne _ _ (Half.other_ne h), hother]

/-- A command whose own work keeps the buffers, and that then mirrors. -/
theorem World.read_trkMirrored_out {u w : World} {h g : Half} {b : Nat} (hkey : u.trkKey h = w.trkKey h) (hd : u.dram = w.dram)
    (hb : storeOut (w.trk.get g).buf (((u.mirrorTrk h).trk.get g).slot) b) :
    (((u.mirrorTrk h).dram.get g).read b) = (w.dram.get g).read b := by
  obtain ⟨hkeepd, hkeept, hmir⟩ := u.mirrorTrk_leaves h
  have hother : u.trk.get h.other = w.trk.get h.other := congrArg Prod.snd hkey
  by_cases hg : g = h
  · subst hg
    rw [hkeepd, hd]
  · obtain rfl : g = h.other := Half.eq_other_of_ne hg
    rw [hmir b, hd]
    rwa [hother]

end Sys2Proof.Machine
end

section
/-!
SUPPORT. R287, R452, R467: the yield ring and its mirror; what a planned move, backplane power-on and a cartridge leave in memory.
-/
namespace Sys2Proof.Machine

/-! The yield ring (R287). -/

theorem Yield.tileRecord_length (y : Yield) (s : YildSec) (t : YTile) (seq calId base : Nat) : (y.tileRecord s t seq calId base).1.length = 64 := by
  unfold Yield.tileRecord
  dsimp only
  generalize crc32c _ = c
  simp only [List.length_append, leBytes_length]

/-- A byte outside half `h`'s ring reads as before, and the ring lies where it lay. -/
def RingOut (h g : Half) (b : Nat) (u w : World) : Prop :=
  u.rd h F.SET_YLD_RING_BASE.VALUE = w.rd h F.SET_YLD_RING_BASE.VALUE ∧ (u.dram.get g).read b = (w.dram.get g).read b

/-- What no step of the yield pipeline but the ring's writes. -/
def ringFree (q : List Part) : Bool :=
  !partIn q .dram && !partIn q (.reg F.SET_YLD_RING_BASE.VALUE.reg) && decide (F.SET_YLD_RING_BASE.VALUE.reg < 2 ^ 25)

theorem RingOut.rest {q : List Part} {h g : Half} {b : Nat} {u v w : World} (e : Rest q u v) (hq : ringFree q = true) (hv : RingOut h g b v w) :
    RingOut h g b u w := by
  simp only [ringFree, Bool.and_eq_true, Bool.not_eq_true'] at hq
  obtain ⟨⟨hd, hr⟩, hlt⟩ := hq
  refine ⟨(e.rd _ _ _ ?_).trans hv.1, (e.read hd g b).trans hv.2⟩
  rw [Bool.and_eq_true, hr, hlt]
  exact ⟨rfl, rfl⟩

/-- A tile's record stored, and the head moved on. -/
def World.tileKept (w : World) (h : Half) (seq : Nat) (bs : List Byte) : World :=
  (w.putMem h 3 (w.rd h F.SET_YLD_RING_BASE.VALUE + 64 * (seq % 4096)) bs).wr h F.SET_YLD_RING_HEAD.VALUE 0 seq

/-- What a published tile does beside its record: the totals, the session, the binding. -/
def World.tileTold (w : World) (srv h : Half) (s : YildSec) (first seq : Nat) (m sd ar yw : Rat) : World :=
  let w := w.updYield h fun y => { y with
    totWet := y.totWet + m, totStd := y.totStd + sd, totArea := y.totArea + ar
    tiles := y.tiles.filter (fun z => z.first ≠ first) }
  let w := (w.flxTileOver h seq).flxTiles h
  w.when (s.yieldOut ≠ 0) fun w => w.externalWrite srv h (refIndex s.yieldOut) yw

theorem World.publishTile_eq (w : World) (led : Memory) (srv h : Half) (s : YildSec) (t : YTile) :
    ∃ ovf seq calId, w.publishTile led srv h s t =
      ((w.when ovf fun w => w.wr h F.SET_YLD_STATUS.OVF 0 1).tileKept h seq ((w.yield h).tileRecord s t seq calId 0).1).tileTold srv h s t.first seq
        ((w.yield h).tileRecord s t seq calId 0).2.1 ((w.yield h).tileRecord s t seq calId 0).2.2.1
        ((w.yield h).tileRecord s t seq calId 0).2.2.2.1 ((w.yield h).tileRecord s t seq calId 0).2.2.2.2 := ⟨_, _, _, rfl⟩

theorem RingOut.tileKept {h g : Half} {b : Nat} {u w : World} (seq : Nat) {bs : List Byte} (hlen : bs.length = 64)
    (hb : g ≠ h ∨ b < region 3 (w.rd h F.SET_YLD_RING_BASE.VALUE) ∨ region 3 (w.rd h F.SET_YLD_RING_BASE.VALUE) + 262144 ≤ b)
    (hu : RingOut h g b u w) : RingOut h g b (u.tileKept h seq bs) w := by
  refine RingOut.rest (q := [.reg 0x400634]) (v := u.putMem h 3 (u.rd h F.SET_YLD_RING_BASE.VALUE + 64 * (seq % 4096)) bs)
    (Rest.wr _ _ _ _ (by decide) (Rest.refl _ _)) rfl ⟨hu.1, (World.read_putMem_out _ _ _ _ ?_).trans hu.2⟩
  rw [hlen, hu.1]
  refine hb.imp_right fun hout => ?_
  unfold region at hout ⊢
  omega

theorem RingOut.tileTold {h g : Half} {b : Nat} {u w : World} (srv : Half) (s : YildSec) (first seq : Nat) (m sd ar yw : Rat)
    (hu : RingOut h g b u w) : RingOut h g b (u.tileTold srv h s first seq m sd ar yw) w := by
  unfold World.tileTold
  dsimp only
  refine RingOut.rest (q := [.evt, .uin, .reg 0x100018, .reg 0x700020, .reg 0x700024, .reg 0x70002C, .reg 0x700030, .reg 0x700044, .reg 0x701000,
    .reg 0x701004]) (Rest.when (Rest.refl _ _) fun _ e => World.externalWrite_rest (by decide) e) rfl ?_
  exact RingOut.rest (q := [.evt, .yld, .flx, .reg 0x100018, .reg 0xA00114, .reg 0xA00140])
    (World.flxTiles_rest (by decide) (World.flxTileOver_rest (by decide) (World.updYield_rest (by decide) (Rest.refl _ u)))) rfl hu

theorem RingOut.publishTile {h g : Half} {b : Nat} {u w : World} (led : Memory) (srv : Half) (s : YildSec) (t : YTile)
    (hb : g ≠ h ∨ b < region 3 (w.rd h F.SET_YLD_RING_BASE.VALUE) ∨ region 3 (w.rd h F.SET_YLD_RING_BASE.VALUE) + 262144 ≤ b)
    (hu : RingOut h g b u w) : RingOut h g b (u.publishTile led srv h s t) w := by
  obtain ⟨ovf, seq, calId, heq⟩ := u.publishTile_eq led srv h s t
  rw [heq]
  refine RingOut.tileTold _ _ _ _ _ _ _ _ (RingOut.tileKept seq (Yield.tileRecord_length _ _ _ _ _ _) hb ?_)
  exact RingOut.rest (q := [.reg 0x400604]) (Rest.when (Rest.refl _ _) fun _ e => Rest.wr _ _ _ _ (by decide) e) rfl hu

theorem RingOut.tiles {h g : Half} {b : Nat} {w : World} (led : Memory) (srv : Half) (s : YildSec)
    (hb : g ≠ h ∨ b < region 3 (w.rd h F.SET_YLD_RING_BASE.VALUE) ∨ region 3 (w.rd h F.SET_YLD_RING_BASE.VALUE) + 262144 ≤ b) (l : List YTile)
    {u : World} (hu : RingOut h g b u w) : RingOut h g b (l.foldl (fun w t => w.publishTile led srv h s t) u) w := by
  induction l generalizing u with
  | nil => exact hu
  | cons t l ih => exact ih (RingOut.publishTile led srv s t hb hu)

theorem RingOut.yieldCycle {h g : Half} {b : Nat} {w : World} (led : Memory) (srv : Half) (s : YildSec)
    (hb : g ≠ h ∨ b < region 3 (w.rd h F.SET_YLD_RING_BASE.VALUE) ∨ region 3 (w.rd h F.SET_YLD_RING_BASE.VALUE) + 262144 ≤ b) :
    RingOut h g b (w.yieldCycle led srv h s) w := by
  unfold World.yieldCycle
  extract_lets k v y f x open_ smp y1 y2 y3
  have hv : RingOut h g b v w := RingOut.rest (q := [.yld]) (World.takeCrop_rest (by decide) (Rest.refl _ w)) rfl ⟨rfl, rfl⟩
  clear_value v y3 x f
  generalize y3.moistNow s k smp = z
  obtain ⟨mv, src⟩ := z
  dsimp only
  refine RingOut.rest (q := [.reg 0x400604, .reg 0x400608, .reg 0x40060C, .reg 0x400610, .reg 0x400614, .reg 0x400618, .reg 0x40061C, .reg 0x400620])
    (World.showYield_rest (by decide) (Rest.refl _ _)) rfl ?_
  refine RingOut.rest (q := [.evt, .uin, .yld, .reg 0x100018, .reg 0x700020, .reg 0x700024, .reg 0x70002C, .reg 0x700030, .reg 0x700044,
    .reg 0x701000, .reg 0x701004]) (Rest.when (Rest.when (World.updYield_rest (by decide) (Rest.refl _ _)) fun _ e =>
      World.externalWrite_rest (by decide) e) fun _ e => World.externalWrite_rest (by decide) e) rfl ?_
  exact RingOut.tiles led srv s hb _ (RingOut.rest (q := [.yld]) (World.updYield_rest (by decide) (Rest.refl _ _)) rfl hv)

/-- The mirror writes the sibling's ring region alone. -/
theorem World.mirrorYield_leaves (w : World) (h : Half) : (w.mirrorYield h).dram.get h = w.dram.get h ∧
    ∀ b, (b < Machine.region 3 0 ∨ Machine.region 4 0 ≤ b) → ((w.mirrorYield h).dram.get h.other).read b = (w.dram.get h.other).read b := by
  unfold World.mirrorYield World.when
  split
  · beta_reduce
    extract_lets old y u v ring
    have hv : v.dram = w.dram := by
      have hkept := World.forAll_keeps (·.dram) (f := fun w f => w.wr h.other f 0 (w.rd h f)) (fun _ _ => World.wr_dram _ _ _ _ _)
        [F.SET_YLD_RING_HEAD.VALUE, F.SET_YLD_RING_TAIL.VALUE, F.SET_YLD_CAL.STATE, F.SET_YLD_CAL.RES, F.SET_YLD_CAL.FACTOR,
          F.SET_YLD_CAL.LOADS, F.SET_YLD_CAL_MASS.KG, F.SET_YLD_CTRL.CROP] u
      exact hkept
    have htotals (x : World) : (x.showTotals h.other).dram = x.dram :=
      Rest.dram (q := allBut .dram) (World.showTotals_rest (by decide) (Rest.refl _ x)) rfl
    rw [htotals]
    refine ⟨?_, fun b hb => ?_⟩
    · exact (Two.get_upd_ne _ _ (Half.ne_other h)).trans (congrArg (·.get h) hv)
    · refine (congrArg (Memory.read · b) (Two.get_upd_same _ _ _)).trans ?_
      rw [← hv]
      change (((v.dram.get h).foldl (fun m c => if 3 * 2 ^ 32 ≤ c.1 && c.1 < 4 * 2 ^ 32 then Memory.write m c.1 c.2 else m)
        ((v.dram.get h.other).filter (fun c => c.1 < 3 * 2 ^ 32 || 4 * 2 ^ 32 ≤ c.1)) : Memory).read b) = _
      rw [read_foldl_out]
      · refine get_filter (fun k => decide (k < 3 * 2 ^ 32) || decide (4 * 2 ^ 32 ≤ k)) Memory.blank _ b ?_
        rw [Bool.or_eq_true, decide_eq_true_eq, decide_eq_true_eq]
        unfold Machine.region at hb
        omega
      · intro x _ m
        split
        · next hx =>
          rw [Bool.and_eq_true, decide_eq_true_eq, decide_eq_true_eq] at hx
          refine Memory.read_write_ne _ _ ?_
          unfold Machine.region at hb
          omega
        · rfl
  · exact ⟨rfl, fun _ _ => rfl⟩

/-! A planned move (R452), backplane power-on, a cartridge (R467). -/

/-- The moves of a preparation before the classes are taken: the groups, the tokens. -/
def State.movesBegun (s : State) (x : Half) : State :=
  let s := s.onW World.prepareBegun
  let s := s.forAll (fnGroups (s.w.funcs x).recs) fun s g => s.when (s.ownsGroup x g && s.accepts x.other) (·.moveGroup x g)
  s.handoverAllNow x

/-- What follows them: the journal, the fence, SERVER, the answer. -/
def State.movesEnded (s : State) (x : Half) : State :=
  let s := s.when (s.own.serves x) State.replayJournal
  ((s.fence x).serverReq x.other).onW (·.prepareEnded x)

theorem State.prepareHalf_stages (s : State) (x : Half) : s.prepareHalf x =
    ((s.movesBegun x).onW fun w => w.when (w.mirrors x.other) fun w => (w.takeClass x.other 3).mirrorYield x).movesEnded x := rfl

theorem State.movesBegun_dram (s : State) (x : Half) : (s.movesBegun x).w.dram = s.w.dram := by
  refine Rest.dram (q := allBut .dram) ?_ rfl
  exact State.handoverAllNow_rest (by decide) (Rest.forAllS (Rest.onW (Rest.refl _ _) fun _ e =>
    World.svcState_rest (by decide) (World.updSvc_rest (by decide) e)) fun _ _ e => Rest.whenS e fun _ e => State.moveGroup_rest (by decide) e)

theorem State.movesEnded_dram (s : State) (x : Half) : (s.movesEnded x).w.dram = s.w.dram := by
  refine Rest.dram (q := allBut .dram) ?_ rfl
  exact Rest.onW (State.serverReq_rest (by decide) (State.fence_rest (by decide) (Rest.whenS (Rest.refl _ _) fun _ e =>
    State.replayJournal_rest (by decide) e))) fun _ e => World.svcState_rest (by decide) (World.updSvc_rest (by decide) e)

theorem State.read_prepareHalf_out (s : State) {x g : Half} {b : Nat} (hb : g ≠ x.other ∨ b < Machine.region 3 0 ∨ Machine.region 4 0 ≤ b) :
    ((s.prepareHalf x).w.dram.get g).read b = (s.w.dram.get g).read b := by
  rw [State.prepareHalf_stages, State.movesEnded_dram, ← State.movesBegun_dram s x]
  generalize s.movesBegun x = v
  have htake : (v.w.takeClass x.other 3).dram = v.w.dram :=
    Rest.dram (q := allBut .dram) (World.takeClass_rest (by decide) (Rest.refl _ _)) rfl
  obtain ⟨hown, hsib⟩ := (v.w.takeClass x.other 3).mirrorYield_leaves x
  unfold State.onW World.when
  dsimp only
  split
  · by_cases hg : g = x.other
    · subst hg
      rw [hsib b (hb.resolve_left fun hn => hn rfl), htake]
    · obtain rfl : g = x := by
        have hx := Half.eq_other_of_ne hg
        rwa [Half.other_other] at hx
      rw [hown, htake]
  · rfl

theorem State.backplaneOn_dram (s : State) (t1 t0 : Bool) (tiles : Nat) (g : Half) : (s.backplaneOn t1 t0 tiles).w.dram.get g = [] := by
  unfold State.backplaneOn
  extract_lets w0 lst loss x1 w1 w2 w3 w4 x2 w5 w6 w7 w8 w9 low
  have h2 : w2.dram.get g = [] := by
    cases g with
    | A => rfl
    | B => rfl
  clear_value w2
  have h4 : w4.dram.get g = [] := by
    rw [← h2]
    exact congrArg (·.get g) ((World.wrBoth_dram _ _ _ _).trans
        ((World.wr_dram _ _ _ _ _).trans ((World.wr_dram _ _ _ _ _).trans (World.wr_dram _ _ _ _ _))))
  clear_value w4
  have h5 : w5.dram.get g = [] := h4
  clear_value w5
  have h6 : Rest (allBut .dram) w6 w5 :=
    Rest.forAll (Rest.refl _ _) fun _ _ e => World.updTile_rest (by decide) (Rest.wr _ _ _ _ (by decide) e)
  clear_value w6
  have h8 : Rest (allBut .dram) w8 w5 := Rest.forAll (Rest.wr _ _ _ _ (by decide) h6) fun _ _ e => World.safeObj_rest (by decide) e
  clear_value w8
  have h9 : Rest (allBut .dram) w9 w5 := World.latchEval_rest (by decide) (Rest.forAll h8 fun _ _ e => World.greenObj_rest (by decide) e)
  exact (congrArg (·.get g) (h9.dram rfl)).trans h5

theorem World.halfOff_dram (w : World) (h : Half) : (w.halfOff h).dram = w.dram.set h [] := rfl

end Sys2Proof.Machine
end

section
/-!
PROOF. O40: what a command stores in a half's memory, and every byte outside it.
-/
namespace Sys2Proof.Machine

/-- A dump taken is one record in the ring of a half whose channel alone has changed. -/
theorem execChIntegrationDump_stores (h : Half) (c : Nat) (iq : List Int) (noise : Nat) (s : State) :
    ∃ t, exec (.chIntegrationDump h c iq noise) s = .next t ∧ (t.w = s.w ∨ ∃ u flags, t.w = u.putDump h c iq noise flags ∧
      Rest [.evt, .gns, .reg 0x100018, .reg 0xB000D0, .reg 0xB00110, .reg 0xB00114] u s.w) := by
  refine ⟨_, rfl, ?_⟩
  dsimp only
  split
  · exact .inl rfl
  · right
    split
    · exact ⟨_, _, rfl, World.updChan_rest (by decide) (Rest.refl _ _)⟩
    · split
      · exact ⟨_, _, rfl, World.updChan_rest (by decide) (Rest.refl _ _)⟩
      · exact ⟨_, _, rfl, Rest.when (Rest.wr _ _ _ _ (by decide) (Rest.wr _ _ _ _ (by decide) (World.updChan_rest (by decide) (Rest.refl _ _))))
          fun _ e => World.lateUpd_rest (by decide) e⟩

theorem World.planeSeen_leaves (w : World) (h : Half) (miss : Bool) : (w.planeSeen h miss).dram = w.dram ∧
    ((w.planeSeen h miss).grd.get h).buf = (w.grd.get h).buf := by
  refine ⟨Rest.dram (q := allBut .dram) (World.planeSeen_rest (by decide) (Rest.refl _ w)) rfl, ?_⟩
  obtain ⟨u, hu⟩ : ∃ u, ((w.wr h F.GRD_STATUS.SIB 0 (b2n (!miss))).updGrind h fun g => { g with missing := miss }) = u := ⟨_, rfl⟩
  have hbuf : (u.grd.get h).buf = (w.grd.get h).buf := by
    rw [← hu, World.updGrind, Two.get_upd_same, World.wr_grd]
  have hrest : Rest [.evt, .reg 0x100018, .reg 0xE00108, .reg 0xE00120] (w.planeSeen h miss) u := by
    subst hu
    have hcount : Rest [.evt, .reg 0x100018, .reg 0xE00108, .reg 0xE00120] (((w.wr h F.GRD_STATUS.SIB 0 (b2n (!miss))).updGrind h fun g =>
        { g with missing := miss }).when miss fun w => w.bump h F.GRD_MISS.HI) _ :=
      Rest.when (Rest.refl _ _) fun _ e => Rest.bump _ _ _ (by decide) e
    unfold World.planeSeen
    exact Rest.when hcount fun _ e => Rest.raise _ _ _ (by decide) e
  rw [hrest.grd (by decide), hbuf]

theorem World.recordsCompared_dram (w : World) (h : Half) (ownOk sibOk : Bool) (o r : MRec) :
    (w.recordsCompared h ownOk sibOk o r).dram = w.dram := by
  refine Rest.dram (q := allBut .dram) ?_ rfl
  unfold World.recordsCompared
  split
  · exact Rest.refl _ w
  · dsimp only
    have hamb : Rest (allBut .dram) (w.updGnss h fun g => { g with amb := ambMap (commonSignals o r) }) w := World.updGnss_rest (by decide) (Rest.refl _ w)
    split
    · have hraise := Rest.raise h 214 (evArg 0xFF 0xFF 1) (by decide) hamb
      exact World.updGnss_rest (by decide) (Rest.when hraise fun _ e => World.updGnss_rest (by decide) (Rest.wr _ _ _ _ (by decide) e))
    · exact Rest.forAll (World.updGnss_rest (by decide) hamb) fun _ _ e =>
        Rest.raise _ _ _ (by decide) (Rest.bump _ _ _ (by decide) (World.exclude_rest (by decide) e))

/-! The Grind's publication (R310). -/

/-- The cycle taken from the queue, its plane seen or missed. -/
def World.grindTaken (w : World) (h : Half) (c : Cycle) (rest : List Cycle) (miss : Bool) (edge : List (Rat × Rat)) : World :=
  (w.planeSeen h miss).updGrind h fun g => { g with
    cycles := rest, sibPorts := if miss then none else some c.sibPorts, sibMres := if miss then [] else c.sibMres
    unpub := 0, pubRun := if c.tg = g.pubTg + c.period then g.pubRun + 1 else 1, pubAt := w.mt h, pubTg := c.tg, edge := edge }

/-- The products and the registers that show the publication. -/
def World.grindShown (w : World) (h : Half) (g : GrinSec) (c : Cycle) (vals : List Nat) : World :=
  let w := w.forAll (List.range g.prods.length) fun w p =>
    let (v, q) := w.product h (g.prods.getD p {}) (vals.getD p 0)
    ((w.wr h F.GRD_PVAL.VALUE p v).setPq h p q).wr h F.GRD_PQ.AGE p 0
  let t := satTo 16 ((w.mt h - c.tg) / 100000)
  let w := (w.wr h F.GRD_PUB.LAST 0 t).wr h F.GRD_PUB.MAX 0 (max t (w.rd h F.GRD_PUB.MAX))
  ((w.wr h F.GRD_CYCLE.CYCLE 0 (c.tg / (40 * ms))).wr h F.PRJ_STATUS.ACTIVE 0 0).wr h F.GRD_STATUS.COVER 0 (w.cover h)

theorem World.grindTaken_leaves (w : World) (h : Half) (c : Cycle) (rest : List Cycle) (miss : Bool) (edge : List (Rat × Rat)) :
    (w.grindTaken h c rest miss edge).dram = w.dram ∧ ((w.grindTaken h c rest miss edge).grd.get h).buf = (w.grd.get h).buf := by
  obtain ⟨hd, hbuf⟩ := w.planeSeen_leaves h miss
  refine ⟨hd, ?_⟩
  rw [World.grindTaken, World.updGrind, Two.get_upd_same]
  exact hbuf

theorem World.grindShown_dram (w : World) (h : Half) (g : GrinSec) (c : Cycle) (vals : List Nat) : (w.grindShown h g c vals).dram = w.dram := by
  unfold World.grindShown
  dsimp only
  rw [World.wr_dram, World.wr_dram, World.wr_dram, World.wr_dram, World.wr_dram]
  refine World.forAll_keeps (·.dram) (fun u p => ?_) _ _
  obtain ⟨v, q⟩ := u.product h (g.prods.getD p {}) (vals.getD p 0)
  have hpq (x : World) : (x.setPq h p q).dram = x.dram := Rest.dram (q := allBut .dram) (World.setPq_rest (by decide) (Rest.refl _ x)) rfl
  exact (World.wr_dram _ _ _ _ _).trans ((hpq _).trans (World.wr_dram _ _ _ _ _))

/-! Commands that publish a store (R337, R348, R349). -/

/-- A cycle's tracks and stop requests, before they are published. -/
def World.trackStepped (w : World) (h : Half) (veh : Int × Int × Int) (dets : List Det) : World :=
  let tg := (w.grd.get h).pubTg
  let cyc := w.rd h F.GRD_CYCLE.CYCLE
  let w := (w.wr h F.TRK_STATUS.FULL 0 0).updTrk h fun t => { t with veh := veh }
  let old := (w.trk.get h).used
  let found := w.applyDets h tg cyc veh false dets
  let w := found.1
  let hit := found.2
  let w := w.forAll old fun w k => if (w.trk.get h).used.contains k then w.missStep h tg veh (hit.contains k) k else w
  let w := w.setLevels h
  ((w.stopOf h 0).stopOf h 1).wr h F.TRK_CYCLE.VALUE 0 cyc

theorem World.trackStepped_key (w : World) (h : Half) (veh : Int × Int × Int) (dets : List Det) : (w.trackStepped h veh dets).trkKey h = w.trkKey h := by
  unfold World.trackStepped
  dsimp only
  rw [World.trkKey_congr (World.wr_trk _ _ _ _ _), World.trkKey_stopOf, World.trkKey_stopOf, World.trkKey_setLevels]
  refine (World.forAll_keeps (World.trkKey · h) (fun _ _ => ?_) _ _).trans ?_
  · split
    · exact World.trkKey_missStep _ _ _ _ _ _
    · rfl
  · rw [World.trkKey_applyDets, World.trkKey_updTrk _ _ (by intro _; rfl), World.trkKey_congr (World.wr_trk _ _ _ _ _)]

theorem World.trackStepped_dram (w : World) (h : Half) (veh : Int × Int × Int) (dets : List Det) : (w.trackStepped h veh dets).dram = w.dram := by
  refine Rest.dram (q := allBut .dram) ?_ rfl
  refine Rest.wr _ _ _ _ (by decide) (World.stopOf_rest (by decide) (World.stopOf_rest (by decide) (World.setLevels_rest (by decide)
    (Rest.forAll (World.applyDets_rest (by decide) (World.updTrk_rest (by decide) (Rest.wr _ _ _ _ (by decide) (Rest.refl _ w)))) fun _ _ e => ?_))))
  split
  · exact World.missStep_rest (by decide) e
  · exact e

theorem execTrackIgnore_stores (h : Half) (init v : Nat) (s : State) : ∃ t, exec (.trackIgnore h init v) s = .next t ∧
    (t.w = s.w ∨ ∃ u : World, t.w = u.mirrorTrk h ∧ u.trkKey h = s.w.trkKey h ∧ u.dram = s.w.dram) := by
  refine ⟨_, rfl, ?_⟩
  dsimp only
  split
  · exact .inl rfl
  · split
    · exact .inl rfl
    · next k x _ =>
      obtain ⟨no, hno⟩ : ∃ no, decide (x.cls ≤ 2) = no := ⟨_, rfl⟩
      refine .inr ⟨_, rfl, ?_, ?_⟩
      · rw [World.trkKey_congr (World.raise_trk _ _ _ _), hno]
        cases no with
        | true =>
          change (s.w.wr h F.TRK_STATUS.IGN_REFUSED 0 (b2n true)).trkKey h = _
          exact World.trkKey_congr (World.wr_trk _ _ _ _ _) h
        | false =>
          change ((s.w.wr h F.TRK_STATUS.IGN_REFUSED 0 (b2n false)).updTrk h _).trkKey h = _
          exact (World.trkKey_updTrk _ _ (by intro _; rfl)).trans (World.trkKey_congr (World.wr_trk _ _ _ _ _) h)
      · rw [World.raise_dram]
        exact Rest.dram (q := allBut .dram) (Rest.when (Rest.wr _ _ _ _ (by decide) (Rest.refl _ _)) fun _ e => World.updTrk_rest (by decide) e) rfl

/-- A split store joined is published by the mirror alone. -/
theorem World.trkJoin_stores (w : World) (h : Half) : w.trkJoin h = w ∨ ∃ u : World, w.trkJoin h = u.mirrorTrk h.other ∧ u.trk = w.trk ∧
    u.dram = w.dram := by
  unfold World.trkJoin
  split
  · exact .inr ⟨_, rfl, (World.raise_trk _ _ _ _).trans (World.wr_trk _ _ _ _ _), (World.raise_dram _ _ _ _).trans (World.wr_dram _ _ _ _ _)⟩
  · exact .inl rfl

/-- The link shown up, before the stores are joined. -/
def World.linkShown (w : World) (h : Half) : World :=
  let w := (w.wr h F.XNG_STATUS.UP 0 1).wr h F.XNG_STATUS.FAULT 0 0
  let w := w.updXng h fun x => { x with
    seqTx := [], asked := [], resent := [], within := 0, outside := 0, tsyAt := w.now, upAt := w.now, winAt := w.now, fullRx := []
    fullDue := [0, 1, 2, 3], lossDue := false }
  w.raise h 50 (evArg 0xFFFF 0xFF 0)

theorem World.linkShown_leaves (w : World) (h : Half) : (w.linkShown h).trk = w.trk ∧ (w.linkShown h).dram = w.dram := by
  unfold World.linkShown
  dsimp only
  rw [World.raise_trk, World.raise_dram]
  exact ⟨(World.wr_trk _ _ _ _ _).trans (World.wr_trk _ _ _ _ _), (World.wr_dram _ _ _ _ _).trans (World.wr_dram _ _ _ _ _)⟩

theorem execCrossingUp_stores (h : Half) (s : State) : ∃ t, exec (.crossingUp h) s = .next t ∧
    ((t.w.dram = s.w.dram ∧ t.w.trk = s.w.trk) ∨ ∃ u : World, t.w.dram = (u.mirrorTrk h.other).dram ∧ t.w.trk = (u.mirrorTrk h.other).trk ∧
      u.trkKey h.other = s.w.trkKey h.other ∧ u.dram = s.w.dram) := by
  refine ⟨_, rfl, ?_⟩
  unfold State.when
  split
  · obtain ⟨htrk, hd⟩ := s.w.linkShown_leaves h
    have hengines (w : World) (o : Own) : Rest [.evt, .reg 0x100018, .reg 0xB00018] (w.engines o) w := World.engines_rest (by decide) (Rest.refl _ w)
    change ((((s.w.linkShown h).trkJoin h).engines s.own).dram = s.w.dram ∧ (((s.w.linkShown h).trkJoin h).engines s.own).trk = s.w.trk) ∨
      ∃ u : World, (((s.w.linkShown h).trkJoin h).engines s.own).dram = (u.mirrorTrk h.other).dram ∧
        (((s.w.linkShown h).trkJoin h).engines s.own).trk = (u.mirrorTrk h.other).trk ∧ u.trkKey h.other = s.w.trkKey h.other ∧ u.dram = s.w.dram
    rw [(hengines _ _).dram (by decide), (hengines _ _).trk (by decide)]
    obtain hj | ⟨u, hj, hut, hud⟩ := (s.w.linkShown h).trkJoin_stores h
    · rw [hj]
      exact .inl ⟨hd, htrk⟩
    · rw [hj]
      exact .inr ⟨u, rfl, rfl, World.trkKey_congr (hut.trans htrk) _, hud.trans hd⟩
  · exact .inl ⟨rfl, rfl⟩

/-! A cartridge inserted (R467). -/

theorem execCartridgeInsert_stores {h : Half} (c : Option Cartridge) {s : State} (hpres : s.w.svc.presence.get h = false)
    (halive : s.own.alive h = false) : ∃ t, exec (.cartridgeInsert h c) s = .next t ∧ t.w.dram = s.w.dram.set h [] := by
  refine ⟨_, rfl, ?_⟩
  unfold State.when
  rw [if_pos (by rw [hpres, halive]; rfl)]
  have hsvc (w : World) (f : Service → Service) : ((w.updSvc f).svcState 5 0).dram = w.dram :=
    Rest.dram (q := allBut .dram) (World.svcState_rest (by decide) (World.updSvc_rest (by decide) (Rest.refl _ w))) rfl
  refine (hsvc _ _).trans ?_
  cases c with
  | none => exact World.halfOff_dram _ _
  | some c => exact World.halfOff_dram _ _

end Sys2Proof.Machine

open Sys2Proof Sys2Proof.Machine

/-- Settles O40: each engine by the one store it makes, at the address its registers name. -/
theorem memoryBytes : Obligations.memoryBytes := by
  unfold Obligations.memoryBytes
  refine ⟨?delivery, ?dump, ?entry, ?acqKnock, ?knock, ?latch, ?record, ?sibling, ?pose, ?grind, ?track, ?yields, ?move, ?powerOn, ?cartridge⟩
  case delivery =>
    intro h g b s r rest hrun hq
    obtain ⟨objs, hobjs⟩ : ∃ objs, s.reactions h ((s.w.evt.get h).routes.filter (·.fits r)) = objs := ⟨_, rfl⟩
    obtain ⟨routes, hroutes⟩ : ∃ routes, (s.w.evt.get h).routes.filter (·.fits r) = routes := ⟨_, rfl⟩
    have hexec : exec (.eventRecordDelivery h) s = .next { s with
        w := (s.w.reacted h rest objs routes).logged h (r.react (!objs.isEmpty)) (routes.any (·.fwd)) } := by
      change execEventRecordDelivery h s = _
      rw [execEventRecordDelivery, hq]
      dsimp only
      rw [State.when, hrun, if_pos rfl, ← hobjs, ← hroutes]
      rfl
    have hrest := s.w.reacted_rest h rest objs routes
    obtain ⟨hget, hout⟩ := (s.w.reacted h rest objs routes).logged_leaves h (r.react (!objs.isEmpty)) (routes.any (·.fwd))
    have hhead (k : Half) : (s.w.reacted h rest objs routes).rd k F.EVT_LOG_HEAD.VALUE = s.w.rd k F.EVT_LOG_HEAD.VALUE := hrest.rd _ _ _ (by decide)
    have hstamp : (r.react (!objs.isEmpty)).stamp = r.stamp := by
      unfold EvRec.react
      split
      · rfl
      · rfl
    rw [hhead, hstamp] at hget
    refine .of_exec hexec ⟨hget, fun hb => (hout g b ?_).trans (hrest.read (by decide) g b)⟩
    rwa [hhead]
  case dump =>
    intro h n iq noise g b s
    obtain ⟨t, hexec, hd⟩ := execChIntegrationDump_stores h n iq noise s
    refine .of_exec hexec fun hb => ?_
    obtain hd | ⟨u, flags, hd, hrest⟩ := hd
    · rw [hd]
    · rw [hd, hrest.read_putDump_out _ _ _ _ hb]
  case entry =>
    intro h e cn0 ratio code dop tEnd g b s
    obtain ⟨t, res, hexec, hd⟩ := execAcqEntryComplete_stores h e cn0 ratio code dop tEnd s
    refine .of_exec hexec fun hb => ?_
    obtain hd | hd := hd
    · rw [hd]
    · rw [hd, World.read_putMem_out]
      rwa [acqBytes_length]
  case acqKnock =>
    intro h init g b s
    refine .of_exec (c := .acqKnock h init) rfl fun hb => ?_
    change ((s.w.when _ fun w => w.knockAcq h _).dram.get g).read b = _
    unfold World.when
    split
    · exact World.read_knockAcq_out _ _ hb
    · rfl
  case knock =>
    intro h init cls idx tc jobs g b s
    refine .of_exec (c := .knockCmd h init cls idx tc jobs) rfl fun hb => ?_
    obtain ⟨hdram, htab⟩ := s.w.freeSlots_leaves h init
    unfold State.when
    split
    · obtain ⟨v, hv⟩ : ∃ v, s.onW (fun w => w.freeSlots h init) = v := ⟨_, rfl⟩
      have hvw : v.w = s.w.freeSlots h init := by rw [← hv]; rfl
      dsimp only
      rw [hv, ← hdram, ← hvw]
      split
      · exact congrArg (fun m : Two Memory => (m.get g).read b) (World.wr_dram _ _ _ _ _)
      · refine State.read_knockIn_out _ _ _ _ _ _ _ ?_
        rw [hvw]
        simpa only [htab] using hb
    · rfl
  case latch =>
    intro h g b s
    obtain ⟨t, bs, hexec, hlen, hd⟩ := execMeasurementLatch_stores h s
    refine .of_exec hexec fun hb => ?_
    rw [hd, World.read_putMem_out]
    rwa [hlen]
  case record =>
    intro h entries bias drift clk g b s r
    by_cases hon : s.w.baseband h = true
    · have hexec : exec (.measurementRecord h entries bias drift clk) s = .next { s with
          w := if (s.w.gns.get h).tm + 3 * ms < s.w.mt h then s.w.missEpoch h
            else let es := (entries.take 192).map (s.w.markEntry h)
              (s.w.exclTold h es).recordStored h ((s.w.exclTold h es).ownRecord h (s.w.gns.get h).tm es bias drift clk) } := by
        change execMeasurementRecord h entries bias drift clk s = _
        unfold execMeasurementRecord lift
        dsimp only
        rw [hon, Bool.not_true, if_neg Bool.false_ne_true]
        simp only [decide_eq_true_eq]
        rfl
      refine .of_exec hexec ?_
      dsimp only
      split
      · have hdram : (s.w.missEpoch h).dram = s.w.dram := Rest.dram (q := allBut .dram) (World.missEpoch_rest (by decide) (Rest.refl _ _)) rfl
        rw [hdram]
        exact ⟨fun _ => rfl, fun _ _ => rfl⟩
      · obtain ⟨es, hes⟩ : ∃ es, (entries.take 192).map (s.w.markEntry h) = es := ⟨_, rfl⟩
        have htold := s.w.exclTold_rest h es
        rw [hes]
        generalize s.w.exclTold h es = u at htold ⊢
        generalize u.ownRecord h (s.w.gns.get h).tm es bias drift clk = m
        obtain ⟨hown, -, -⟩ := u.recordStored_leaves h m
        rw [hown, World.recordStored_dram, htold.rd _ _ _ (by decide)]
        refine ⟨nofun, fun hm hb => ?_⟩
        obtain rfl := Option.some.inj hm
        exact (World.read_putMem_out _ _ _ _ hb).trans (htold.read (by decide) g b)
    · refine .of_exec (t := s) ?_ ⟨fun _ => rfl, fun _ _ => rfl⟩
      change execMeasurementRecord h entries bias drift clk s = _
      unfold execMeasurementRecord lift
      dsimp only
      rw [if_pos (by simpa using hon)]
  case sibling =>
    intro h ownOk sibOk g b s r hsent
    have hexec : exec (.siblingRecordReceived h ownOk sibOk) s = .next { s with
        w := match ((s.w.sibTaken h r).gns.get h).own with
          | none => s.w.sibTaken h r
          | some o => (s.w.sibTaken h r).recordsCompared h ownOk sibOk o r } := by
      change execSiblingRecordReceived h ownOk sibOk s = _
      unfold execSiblingRecordReceived lift
      dsimp only
      rw [hsent]
      rfl
    have hd := s.w.sibTaken_dram h r
    refine .of_exec hexec ?_
    generalize s.w.sibTaken h r = u at hd ⊢
    have hsame : (match (u.gns.get h).own with
        | none => u
        | some o => u.recordsCompared h ownOk sibOk o r).dram = u.dram := by
      split
      · rfl
      · exact World.recordsCompared_dram _ _ _ _ _ _
    dsimp only
    rw [World.getMem_congr (congrArg (·.get h) (hsame.trans hd)), hsame, hd]
    exact ⟨World.getMem_putMem_all _ _ _ _ _, fun hb => World.read_putMem_out _ _ _ _ hb⟩
  case pose =>
    intro h p slew g b s
    obtain ⟨-, -, hgns⟩ := s.w.judgeTrust_leaves h p
    have hjd : (s.w.judgeTrust h p).dram = s.w.dram := Rest.dram (q := allBut .dram) (World.judgeTrust_rest (by decide) (Rest.refl _ _)) rfl
    obtain ⟨u, hu⟩ : ∃ u, s.w.judgeTrust h p = u := ⟨_, rfl⟩
    rw [hu] at hgns hjd
    obtain ⟨q, hq⟩ : ∃ q, u.posed h p slew (s.w.mt h / (10 * ms) * (10 * ms)) = q := ⟨_, rfl⟩
    have hexec : exec (.posePublish h p slew) s = .next { s with
        w := (u.poseStored h q).poseWrites s.srv h (!(u.gns.get h).imuBad || (u.gns.get h).imuSib) q } := by
      change execPosePublish h p slew s = _
      unfold execPosePublish lift
      dsimp only
      rw [hu, ← hq]
      rfl
    have hqt : q.t = s.w.mt h / 10000000 * 10000000 := by
      rw [← hq]
      rfl
    have hd : ((u.poseStored h q).poseWrites s.srv h (!(u.gns.get h).imuBad || (u.gns.get h).imuSib) q).dram =
        (u.putMem h 8 (64 * (((s.w.gns.get h).pse + 1) % 128)) q.bytes).dram := by
      rw [((u.poseStored h q).poseWrites_rest s.srv h _ q).dram (by decide), World.poseStored_dram, hgns]
    obtain ⟨bs, hbytes, hlen⟩ := Pose.bytes_split q
    refine .of_exec hexec ?_
    dsimp only
    rw [World.getMem_congr (congrArg (·.get h) hd), hd, hbytes, hqt]
    constructor
    · have hread := u.getMem_putMem h 8 (64 * (((s.w.gns.get h).pse + 1) % 128)) (leBytes (s.w.mt h / 10000000 * 10000000) 8) bs
      rwa [leBytes_length] at hread
    · intro hb
      rw [World.read_putMem_out, hjd]
      rwa [List.length_append, leBytes_length, hlen]
  case grind =>
    intro h vals profs edge g b s c rest hc
    by_cases hclosed : (!c.closed || decide (c.tg + c.bound < s.w.mt h)) = true
    · refine .of_exec (t := s) ?_ fun _ => rfl
      change execGrindPublish h vals profs edge s = _
      unfold execGrindPublish lift
      dsimp only
      rw [hc]
      dsimp only
      rw [if_pos hclosed]
    · obtain ⟨miss, hmiss⟩ : ∃ miss, s.w.planeMissing s.own h c = miss := ⟨_, rfl⟩
      have hexec : exec (.grindPublish h vals profs edge) s = .next { s with
          w := ((s.w.grindTaken h c rest miss edge).putGrid h (fusePlanes ((s.w.grindTaken h c rest miss edge).grin h) c.own c.sib miss)
            profs).grindShown h ((s.w.grindTaken h c rest miss edge).grin h) c vals } := by
        change execGrindPublish h vals profs edge s = _
        unfold execGrindPublish lift
        dsimp only
        rw [hc]
        dsimp only
        rw [if_neg hclosed, hmiss]
        rfl
      obtain ⟨hd, hbuf⟩ := s.w.grindTaken_leaves h c rest miss edge
      refine .of_exec hexec fun hb => ?_
      dsimp only
      rw [World.grindShown_dram, World.read_putGrid_out _ (by rw [hbuf]), hd]
      refine hb.imp_right fun ⟨hbuf, hplanes, hprofs⟩ => ⟨hbuf, fun x hx => ?_, hprofs⟩
      obtain ⟨y, hy, hkey⟩ := mem_fusePlanes hx
      rw [← hkey]
      exact hplanes y hy
  case track =>
    intro h veh dets v init c g b s hc
    simp only [List.mem_cons, List.not_mem_nil, or_false] at hc
    obtain rfl | rfl | rfl := hc
    · by_cases hrun : s.w.trkRuns s.own h = true
      · have hexec : exec (.trackCycle h veh dets) s = .next { s with w := ((s.w.trackStepped h veh dets).publishStore h).mirrorTrk h } := by
          change execTrackCycle h veh dets s = _
          rw [execTrackCycle, lift, if_neg (by rw [hrun]; exact Bool.false_ne_true)]
          rfl
        exact .of_exec hexec fun hbuf hslot =>
          World.read_trkPublished_out (s.w.trackStepped_key h veh dets) (s.w.trackStepped_dram h veh dets) ⟨hbuf, hslot⟩
      · refine .of_exec (t := s) ?_ fun _ _ => rfl
        change execTrackCycle h veh dets s = _
        rw [execTrackCycle, lift, if_pos (by simpa using hrun)]
    · obtain ⟨t, hexec, ht⟩ := execTrackIgnore_stores h init v s
      refine .of_exec hexec fun hbuf hslot => ?_
      obtain ht | ⟨u, ht, hkey, hd⟩ := ht
      · rw [ht]
      · rw [ht] at hslot ⊢
        exact World.read_trkMirrored_out hkey hd ⟨hbuf, hslot⟩
    · obtain ⟨t, hexec, ht⟩ := execCrossingUp_stores h s
      refine .of_exec hexec fun hbuf hslot => ?_
      obtain ⟨hd, -⟩ | ⟨u, hd, htrk, hkey, hud⟩ := ht
      · rw [hd]
      · rw [htrk] at hslot
        rw [hd]
        exact World.read_trkMirrored_out hkey hud ⟨hbuf, hslot⟩
  case yields =>
    intro h g b s
    cases hsec : (s.w.yield h).sec with
    | none =>
      refine .of_exec (t := s) ?_ fun _ => rfl
      change execYieldCycle h s = _
      rw [execYieldCycle, lift, hsec]
    | some sec =>
      by_cases hrun : (s.own.serves h && s.w.flag h F.SET_YLD_CTRL.RUN) = true
      · have hexec : exec (.yieldCycle h) s = .next { s with w := (s.w.yieldCycle s.ledger s.srv h sec).mirrorYield h } := by
          change execYieldCycle h s = _
          rw [execYieldCycle, lift, hsec]
          dsimp only
          rw [if_pos hrun]
        obtain ⟨hown, hsib⟩ := (s.w.yieldCycle s.ledger s.srv h sec).mirrorYield_leaves h
        refine .of_exec hexec fun hb => ?_
        obtain ⟨rfl, hb⟩ | ⟨hg, hb⟩ := hb
        · dsimp only
          rw [hown]
          exact (RingOut.yieldCycle s.ledger s.srv sec (.inr hb)).2
        · obtain rfl := Half.eq_other_of_ne hg
          dsimp only
          rw [hsib b hb]
          exact (RingOut.yieldCycle s.ledger s.srv sec (.inl hg)).2
      · refine .of_exec (t := s) ?_ fun _ => rfl
        change execYieldCycle h s = _
        rw [execYieldCycle, lift, hsec]
        dsimp only
        rw [if_neg hrun]
  case move =>
    intro h init target g b s
    refine .of_exec (c := .prepareHalf h init target) rfl fun hb => ?_
    have hask (v : State) (op st why : Nat) : ((v.onW fun w => w.svcAsk op target).onW fun w => w.svcState st why).w.dram = v.w.dram :=
      Rest.dram (q := allBut .dram) (World.svcState_rest (by decide) (World.svcAsk_rest (by decide) (Rest.refl _ _))) rfl
    unfold State.when
    split
    · dsimp only
      generalize (if 2 ≤ target then 5 else s.prepareRefusal (halfOf target)) = why
      split
      · rw [hask]
      · rw [State.read_prepareHalf_out _ hb]
        exact congrArg (fun m : Two Memory => (m.get g).read b)
          (Rest.dram (q := allBut .dram) (World.svcAsk_rest (w := s.w) (by decide) (Rest.refl _ _)) rfl)
    · rfl
  case powerOn =>
    intro t1 t0 tiles g s ha hb
    refine .of_exec (c := .backplanePowerOn t1 t0 tiles) rfl fun b => ?_
    have hoff : (!(s.w.run.get .A).running && !(s.w.run.get .B).running) = true := by rw [ha, hb]; rfl
    unfold State.when
    rw [if_pos hoff]
    have hshown (v : State) (due : Bool) : (v.onW fun w => w.when due fun w => w.wr .A F.CAL_STATUS.REPLAYED 0 1).w.dram = v.w.dram :=
      Rest.dram (q := allBut .dram) (Rest.when (Rest.refl _ v.w) fun _ e => Rest.wr _ _ _ _ (by decide) e) rfl
    dsimp only
    rw [hshown, State.backplaneOn_dram]
    rfl
  case cartridge =>
    intro h c g s hpres halive
    obtain ⟨t, hexec, hd⟩ := execCartridgeInsert_stores c hpres halive
    refine .of_exec hexec fun b => ?_
    rw [hd]
    by_cases hg : g = h
    · subst hg
      rw [if_pos rfl, Two.get_set_same]
      rfl
    · rw [if_neg hg, Two.get_set_ne _ _ hg]
end

section
/-!
SUPPORT. `World.Canonical`: the memories of the world in canonical form (log entry 5), and the rules that carry it through the
state's own operations. An operation whose footprint names no memory keeps it by its frame.
-/
namespace Sys2Proof.Machine

/-! A window of a memory, seen from its first byte. -/

theorem rising_shift {α : Type} {m : NMap α} {lo : Option Nat} (a : Nat) (hm : NMap.rising lo m = true) (hlo : ∀ l, lo = some l → a ≤ l)
    (ha : ∀ x ∈ m, a ≤ x.1) : NMap.rising (lo.map (· - a)) (m.map fun x => (x.1 - a, x.2)) = true := by
  induction m generalizing lo with
  | nil => rfl
  | cons x m ih =>
    obtain ⟨k, v⟩ := x
    obtain ⟨hk, hm⟩ := NMap.rising_cons.mp hm
    have hak : a ≤ k := ha (k, v) List.mem_cons_self
    refine NMap.rising_cons.mpr ⟨?_, ih (lo := some k) hm (by rintro _ ⟨⟩; exact hak) fun x hx => ha x (List.mem_cons_of_mem _ hx)⟩
    cases lo with
    | none => rintro _ ⟨⟩
    | some l =>
      rintro _ ⟨⟩
      have := hk l rfl
      have := hlo l rfl
      simp only
      omega

theorem tight_shift {α : Type} [DecidableEq α] {m : NMap α} {d : α} (a : Nat) (hm : NMap.tight (fun _ => d) m = true) :
    NMap.tight (fun _ => d) (m.map fun x => (x.1 - a, x.2)) = true := by
  induction m with
  | nil => rfl
  | cons x m ih =>
    simp only [List.map_cons, NMap.tight, Bool.and_eq_true] at hm ⊢
    exact ⟨hm.1, ih hm.2⟩

theorem wf_window {m : Memory} (hm : m.wf = true) (a n : Nat) :
    Memory.wf ((m.filter fun x => decide (a ≤ x.1 ∧ x.1 < a + n)).map fun x => (x.1 - a, x.2)) = true := by
  have hw := Memory.wf_filter m (fun x => decide (a ≤ x.1 ∧ x.1 < a + n)) hm
  unfold Memory.wf NMap.wf at hw ⊢
  obtain ⟨hrising, htight⟩ := Bool.and_eq_true_iff.mp hw
  refine Bool.and_eq_true_iff.mpr ⟨rising_shift (lo := none) a hrising (by rintro _ ⟨⟩) fun x hx => ?_, tight_shift a htight⟩
  have := (List.mem_filter.mp hx).2
  simp only [decide_eq_true_eq] at this
  exact this.1

/-- The memories that the module's engines write, in canonical form: `State.MemOk`, said of the world. -/
structure World.Canonical (w : World) : Prop where
  half : ∀ h, (w.dram.get h).wf = true
  log : ∀ h, (w.evt.get h).flash.wf = true ∧ (w.evt.get h).sibLog.wf = true
  panel : w.dsp.store0.wf = true ∧ w.dsp.store1.wf = true

theorem State.memOk_iff (s : State) : s.MemOk ↔ s.w.Canonical :=
  ⟨fun e => ⟨e.half, e.log, e.panel⟩, fun e => ⟨e.half, e.log, e.panel⟩⟩

namespace World.Canonical

variable {u v w : World}

/-! What names no memory. -/

theorem of_eq (e : w.Canonical) (hevt : u.evt = w.evt) (hdsp : u.dsp = w.dsp) (hdram : u.dram = w.dram) : u.Canonical where
  half h := by rw [hdram]; exact e.half h
  log h := by rw [hevt]; exact e.log h
  panel := by rw [hdsp]; exact e.panel

/-- The parts of the world that hold no memory. -/
def apart : List Part := .regs :: units.filter (fun x => x ≠ .evt ∧ x ≠ .dsp ∧ x ≠ .dram)

theorem of_rest (e : w.Canonical) (h : Rest apart u w) : u.Canonical :=
  e.of_eq (h.evt (by decide)) (h.dsp (by decide)) (h.dram (by decide))

/-! Fields replaced. -/

theorem set_run (e : w.Canonical) {x} : ({ w with run := x } : World).Canonical := e.of_eq rfl rfl rfl

theorem set_roast (e : w.Canonical) {x} : ({ w with roast := x } : World).Canonical := e.of_eq rfl rfl rfl

theorem set_act (e : w.Canonical) {x} : ({ w with act := x } : World).Canonical := e.of_eq rfl rfl rfl

theorem set_opt (e : w.Canonical) {x} : ({ w with opt := x } : World).Canonical := e.of_eq rfl rfl rfl

theorem set_shut (e : w.Canonical) {x} : ({ w with shut := x } : World).Canonical := e.of_eq rfl rfl rfl

theorem set_svc (e : w.Canonical) {x} : ({ w with svc := x } : World).Canonical := e.of_eq rfl rfl rfl

theorem set_lsw (e : w.Canonical) {x} : ({ w with lsw := x } : World).Canonical := e.of_eq rfl rfl rfl

theorem set_uin (e : w.Canonical) {x} : ({ w with uin := x } : World).Canonical := e.of_eq rfl rfl rfl

theorem set_flx (e : w.Canonical) {x} : ({ w with flx := x } : World).Canonical := e.of_eq rfl rfl rfl

theorem set_latch (e : w.Canonical) {x} : ({ w with latch := x } : World).Canonical := e.of_eq rfl rfl rfl

theorem set_pose (e : w.Canonical) {x} : ({ w with pose := x } : World).Canonical := e.of_eq rfl rfl rfl

theorem set_keeper (e : w.Canonical) {x} : ({ w with keeper := x } : World).Canonical := e.of_eq rfl rfl rfl

theorem set_bp_act (e : w.Canonical) {x y} : ({ w with bp := x, act := y } : World).Canonical := e.of_eq rfl rfl rfl

theorem set_lsw_can (e : w.Canonical) {x y} : ({ w with lsw := x, can := y } : World).Canonical := e.of_eq rfl rfl rfl

/-! The memories themselves. -/

theorem set_dram (e : w.Canonical) (d : Two Memory) (hd : ∀ h, (d.get h).wf = true) : ({ w with dram := d } : World).Canonical :=
  ⟨hd, e.log, e.panel⟩

theorem set_evt (e : w.Canonical) (r : Two Router) (hr : ∀ h, (r.get h).flash.wf = true ∧ (r.get h).sibLog.wf = true) :
    ({ w with evt := r } : World).Canonical :=
  ⟨e.half, hr, e.panel⟩

theorem set_dsp (e : w.Canonical) (d : Disp) (hd : d.store0.wf = true ∧ d.store1.wf = true) : ({ w with dsp := d } : World).Canonical :=
  ⟨e.half, e.log, hd⟩

theorem setDram (e : w.Canonical) {h : Half} {m : Memory} (hm : m.wf = true) : ({ w with dram := w.dram.set h m } : World).Canonical :=
  e.set_dram _ fun g => by
    by_cases hg : g = h
    · rw [hg, Two.get_set_same]; exact hm
    · rw [Two.get_set_ne _ _ hg]; exact e.half g

theorem updLogs (e : w.Canonical) {h : Half} {f : Router → Router} (hf : ((f (w.evt.get h)).flash.wf = true ∧ (f (w.evt.get h)).sibLog.wf = true)) :
    ({ w with evt := w.evt.upd h f } : World).Canonical :=
  e.set_evt _ fun g => by
    by_cases hg : g = h
    · rw [hg, Two.get_upd_same]; exact hf
    · rw [Two.get_upd_ne _ _ hg]; exact e.log g

theorem wf_logOf {m : Memory} (hm : m.wf = true) : (logOf m).wf = true := Memory.wf_filter _ _ hm

theorem putMem (e : w.Canonical) {h : Half} {r a : Nat} {bs : List Byte} : (w.putMem h r a bs).Canonical :=
  e.setDram (Memory.wf_writeN _ _ _ (e.half h))

/-! Combinators. -/

theorem ite {c : Prop} [Decidable c] (hu : u.Canonical) (hv : v.Canonical) : (if c then u else v).Canonical := by
  split
  · exact hu
  · exact hv

theorem iteFst {c : Prop} [Decidable c] {α : Type} {a b : World × α} (hu : a.1.Canonical) (hv : b.1.Canonical) :
    (if c then a else b).1.Canonical := by
  split
  · exact hu
  · exact hv

theorem iteMk {c : Prop} [Decidable c] {α : Type} {x : α} {b : World × α} (hu : u.Canonical) (hv : b.1.Canonical) :
    (if c then (u, x) else b).1.Canonical := iteFst hu hv

theorem when {c : Bool} {f : World → World} (e : w.Canonical) (hf : ∀ u : World, u.Canonical → (f u).Canonical) : (w.when c f).Canonical :=
  ite (hf w e) e

theorem foldl {α : Type} {l : List α} {f : World → α → World} (e : w.Canonical) (hf : ∀ (u : World) a, u.Canonical → (f u a).Canonical) :
    (l.foldl f w).Canonical := by
  induction l generalizing w with
  | nil => exact e
  | cons a l ih => exact ih (hf w a e)

theorem forAll {α : Type} {l : List α} {f : World → α → World} (e : w.Canonical) (hf : ∀ (u : World) a, u.Canonical → (f u a).Canonical) :
    (w.forAll l f).Canonical := e.foldl hf

/-! Registers and events. -/

theorem wr (e : w.Canonical) {h : Half} {f : Field} {i v : Nat} : (w.wr h f i v).Canonical :=
  e.of_eq (by simp) (by simp) (by simp)

theorem setReg (e : w.Canonical) {h : Half} {f : Field} {i : Nat} {v : Word} : (w.setReg h f i v).Canonical :=
  e.of_eq (by simp) (by simp) (by simp)

theorem wrI (e : w.Canonical) {h : Half} {f : Field} {i : Nat} {v : Int} : (w.wrI h f i v).Canonical :=
  e.of_eq (by simp) (by simp) (by simp)

theorem bump (e : w.Canonical) {h : Half} {f : Field} {i : Nat} : (w.bump h f i).Canonical := e.of_eq (by simp) (by simp) (by simp)

theorem wrBoth (e : w.Canonical) {f : Field} {i v : Nat} : (w.wrBoth f i v).Canonical := e.of_eq (by simp) (by simp) (by simp)

theorem free (e : w.Canonical) : w.free.2.Canonical := e.of_eq rfl rfl rfl

theorem canWr (e : w.Canonical) {n : Nat} {f : Field} {v : Nat} : (w.canWr n f v).Canonical := e.wr

theorem copyFields (e : w.Canonical) {h : Half} {l : List Field} : (w.copyFields h l).Canonical :=
  e.foldl fun _ _ e => e.wr

theorem raise (e : w.Canonical) {h : Half} {num arg : Nat} : (w.raise h num arg).Canonical where
  half g := by rw [World.raise_dram]; exact e.half g
  log g := by
    change ((w.raise h num arg).evt.get g).logs.1.wf = true ∧ ((w.raise h num arg).evt.get g).logs.2.wf = true
    rw [World.raise_logs]
    exact e.log g
  panel := by rw [World.raise_dsp]; exact e.panel

theorem raiseBoth (e : w.Canonical) {num arg : Nat} : (w.raiseBoth num arg).Canonical := e.raise.raise

theorem violation (e : w.Canonical) {h : Half} {init k : Nat} : (w.violation h init k).Canonical := e.wr.wr.raise

/-! A router or the panel changed beside its memories. -/

theorem updEvt {f : Router → Router} (e : w.Canonical) {h : Half} (hf : ∀ r, (f r).logs = r.logs) : (w.updEvt h f).Canonical :=
  e.updLogs (by
    change (f (w.evt.get h)).logs.1.wf = true ∧ (f (w.evt.get h)).logs.2.wf = true
    rw [hf]; exact e.log h)

/-- The two frame stores of the panel. -/
def stores (d : Disp) : Memory × Memory := (d.store0, d.store1)

theorem updDsp {f : Disp → Disp} (e : w.Canonical) (hf : ∀ d, stores (f d) = stores d) : (w.updDsp f).Canonical :=
  e.set_dsp _ (by
    change (stores (f w.dsp)).1.wf = true ∧ (stores (f w.dsp)).2.wf = true
    rw [hf]; exact e.panel)

/-! Operations on the whole state. -/

variable {s : State}

theorem iteS {c : Prop} [Decidable c] {a b : State} (ha : a.w.Canonical) (hb : b.w.Canonical) : (if c then a else b).w.Canonical := by
  split
  · exact ha
  · exact hb

theorem iteFstS {c : Prop} [Decidable c] {α : Type} {a b : State × α} (ha : a.1.w.Canonical) (hb : b.1.w.Canonical) :
    (if c then a else b).1.w.Canonical := by
  split
  · exact ha
  · exact hb

theorem onW {f : World → World} (hf : (f s.w).Canonical) : (s.onW f).w.Canonical := hf

theorem onOwn {f : Own → Own} (e : s.w.Canonical) : (s.onOwn f).w.Canonical := e

theorem whenS {c : Bool} {f : State → State} (e : s.w.Canonical) (hf : ∀ u : State, u.w.Canonical → (f u).w.Canonical) :
    (s.when c f).w.Canonical := iteS (hf s e) e

theorem forAllS {α : Type} {l : List α} {f : State → α → State} (e : s.w.Canonical)
    (hf : ∀ (u : State) a, u.w.Canonical → (f u a).w.Canonical) : (s.forAll l f).w.Canonical := by
  unfold State.forAll
  induction l generalizing s with
  | nil => exact e
  | cons a l ih => exact ih (hf s a e)

theorem gateObj {h : Half} {i k : Nat} {f : World → World} (e : s.w.Canonical) (hf : (f s.w).Canonical) :
    (gateObj s h i k f).Canonical := ite (ite hf e.violation) e

theorem gateAny {h : Half} {i a n k : Nat} {f : World → World} (e : s.w.Canonical) (hf : (f s.w).Canonical) :
    (gateAny s h i a n k f).Canonical := ite (ite hf e.violation) e

end World.Canonical

end Sys2Proof.Machine
end

section
/-!
SUPPORT. The named operations keep the memories canonical. Each proof follows the definition: a dot for an operation, `ite`, `when`,
`forAll` for what the operations stand under; an operation whose footprint names no memory goes by its frame.
-/
namespace Sys2Proof.Machine
namespace World.Canonical
variable {w : World} {s : State}

theorem updEng (e : w.Canonical) {ch : Nat} {f : Eng → Eng} : (w.updEng ch f).Canonical :=
  of_rest e (World.updEng_rest (by decide) (Rest.refl _ _))

theorem updTile (e : w.Canonical) {t : Nat} {f : Tile → Tile} : (w.updTile t f).Canonical :=
  of_rest e (World.updTile_rest (by decide) (Rest.refl _ _))

theorem vlvEvent (e : w.Canonical) {t k ch cause : Nat} : (w.vlvEvent t k ch cause).Canonical := e.raiseBoth

theorem turnOff (e : w.Canonical) {ch mode : Nat} : (w.turnOff ch mode).Canonical :=
  of_rest e (World.turnOff_rest (by decide) (Rest.refl _ _))

theorem stopEngine (e : w.Canonical) {ch : Nat} : (w.stopEngine ch).Canonical :=
  of_rest e (World.stopEngine_rest (by decide) (Rest.refl _ _))

theorem vlvFault (e : w.Canonical) {ch code : Nat} : (w.vlvFault ch code).Canonical := ite e.wr e.wr.turnOff.stopEngine.updEng.vlvEvent

theorem knockValve (e : w.Canonical) {ch mode : Nat} : (w.knockValve ch mode).Canonical :=
  of_rest e (World.knockValve_rest (by decide) (Rest.refl _ _))

theorem travelReport (e : w.Canonical) {ch : Nat} {close nokink : Bool} {t : Nat} : (w.travelReport ch close nokink t).Canonical :=
  (ite (ite e.wr.wr.wr.bump e.wr.wr.wr).bump (ite e.wr.wr.wr.bump e.wr.wr.wr).wr).updEng.when fun _ e => e.vlvEvent

theorem greenValve (e : w.Canonical) {ch : Nat} : (w.greenValve ch).Canonical :=
  of_rest e (World.greenValve_rest (by decide) (Rest.refl _ _))

theorem valveCmd (e : w.Canonical) {ch : Nat} {on : Bool} : (w.valveCmd ch on).Canonical :=
  ite (ite e.wr (ite e.wr.wr.updEng (ite e.wr.wr.updEng.wr e.wr.wr.updEng))) (ite (ite (ite e.wr.wr.wr.updEng
    e.wr.wr.wr).free.updEng.turnOff.wr.travelReport (ite e.wr.wr.wr.updEng e.wr.wr.wr).wr) (ite e.wr.wr.wr.updEng e.wr.wr.wr))

theorem valveSetpoint (e : w.Canonical) {ch v : Nat} : (w.valveSetpoint ch v).Canonical :=
  of_rest e (World.valveSetpoint_rest (by decide) (Rest.refl _ _))

theorem startEngine (e : w.Canonical) {ch : Nat} {atHold : Bool} {scale : Nat} : (w.startEngine ch atHold scale).Canonical := by
  unfold World.startEngine
  dsimp only
  split
  · exact e.wr.wr.wr.updEng.vlvFault
  · exact ite e.wr.wr.wr.updEng.wr.wr.wr.wr.wr.wr.updEng e.wr.wr.wr.updEng.wr.wr.wr.wr.wr.wr.updEng.wr

theorem engineStart (e : w.Canonical) {ch : Nat} : (w.engineStart ch).Canonical := by
  unfold World.engineStart
  split
  · exact e.startEngine
  · exact ite e.startEngine (ite e.startEngine (e.startEngine.wr.when fun _ e => e.vlvEvent))

theorem svcState (e : w.Canonical) {st reason : Nat} : (w.svcState st reason).Canonical := ite e.wrBoth.wrBoth e.wrBoth.wrBoth.raiseBoth

theorem svcTwinLost (e : w.Canonical) {ch : Nat} : (w.svcTwinLost ch).Canonical := e.when fun _ e => e.wrBoth.svcState

theorem advance (e : w.Canonical) {ch : Nat} : (w.advance ch).Canonical :=
  of_rest e (World.advance_rest (by decide) (Rest.refl _ _))

theorem dropTileLock (e : w.Canonical) {h : Half} {t : Nat} : (w.dropTileLock h t).Canonical :=
  of_rest e (World.dropTileLock_rest (by decide) (Rest.refl _ _))

theorem updBind (e : w.Canonical) {h : Half} {b : Nat} {f : BindSt → BindSt} : (w.updBind h b f).Canonical :=
  of_rest e (World.updBind_rest (by decide) (Rest.refl _ _))

theorem publishIn (e : w.Canonical) {b : Nat} {h : Half} : (w.publishIn b h).Canonical := by
  unfold World.publishIn
  refine ite e.wr.wr.wr.wr ?_
  split
  · exact e.wr.wr.wr.wr.raise
  · exact e.wr.wr.wr.wr

theorem publish (e : w.Canonical) {h : Half} {b : Nat} : (w.publish h b).Canonical :=
  ite ((((e.foldl fun _ _ e => e.publishIn).when fun _ e => e.updBind).wr.wr.wr.when fun _ e => e.bump).when fun _ e => e.bump)
    ((e.foldl fun _ _ e => e.publishIn).when fun _ e => e.updBind)

theorem chain (e : w.Canonical) {srv h : Half} {b : Nat} {x : Rat} {edge : Bool} : (w.chain srv h b x edge).Canonical :=
  of_rest e (World.chain_rest (by decide) (Rest.refl _ _))

theorem setConflict (e : w.Canonical) {h : Half} {b : Nat} {on : Bool} : (w.setConflict h b on).Canonical :=
  ite e (e.updBind.foldl fun _ _ e => e.raise)

theorem compare (e : w.Canonical) {h : Half} {k : Nat} {t : TwinCfg} : (w.compare h k t).Canonical :=
  ite (ite e e.set_uin).updBind.updBind e.set_uin.setConflict.setConflict.updBind.updBind

theorem compareOf (e : w.Canonical) {h : Half} {p : Nat → Bool} : (w.compareOf h p).Canonical :=
  e.foldl fun _ _ e => ite e.compare.publish.publish e

theorem bindUpdated (e : w.Canonical) {h : Half} {b : Nat} : (w.bindUpdated h b).Canonical := e.compareOf.publish

theorem twinTime (e : w.Canonical) {h : Half} {k : Nat} {div : Bool} : (w.twinTime h k div).Canonical := by
  unfold World.twinTime
  split
  · exact e
  · exact ite e.setConflict.setConflict.publish.publish e

theorem quadError (e : w.Canonical) {n b : Nat} : (w.quadError n b).Canonical := by
  unfold World.quadError
  exact e.bump.when fun _ e => e.raiseBoth

theorem knockInput (e : w.Canonical) {n : Nat} : (w.knockInput n).Canonical := by
  unfold World.knockInput
  split
  · exact e
  · exact e.updBind.bindUpdated

theorem supplyFault (e : w.Canonical) {n : Nat} : (w.supplyFault n).Canonical := e.foldl fun _ _ e => ite e.updBind.bindUpdated e

theorem externalWrite (e : w.Canonical) {srv h : Half} {b : Nat} {x : Rat} : (w.externalWrite srv h b x).Canonical :=
  ite e.chain.bindUpdated e

theorem moduleWrite (e : w.Canonical) {srv h : Half} {obj : Nat} {valid : Bool} {x : Rat} : (w.moduleWrite srv h obj valid x).Canonical :=
  e.foldl fun _ _ e => ite (ite e.chain e.updBind).bindUpdated e

theorem losGroup (e : w.Canonical) {id : Nat} {x : LosWin} {mask : Nat} {was : Bool} : (w.losGroup id x mask was).Canonical :=
  ite e e.raiseBoth

theorem losBinding (e : w.Canonical) {x : LosWin} {b : Nat} {c : BindCfg} : (w.losBinding x b c).Canonical :=
  e.losGroup.updBind.bindUpdated

theorem losOutcomes (e : w.Canonical) {h : Half} {x : LosWin} {was : Option LosWin} : (w.losOutcomes h x was).Canonical :=
  e.foldl fun _ _ e => ite e.losGroup e

theorem kinkFound (e : w.Canonical) {ch k : Nat} {close : Bool} : (w.kinkFound ch k close).Canonical := by
  unfold World.kinkFound
  split
  · exact e.when fun _ e => e.updEng.travelReport.when fun _ e => e.advance
  · exact e

theorem updGrind (e : w.Canonical) {h : Half} {f : Grind → Grind} : (w.updGrind h f).Canonical :=
  of_rest e (World.updGrind_rest (by decide) (Rest.refl _ _))

theorem setPort (e : w.Canonical) {h : Half} {p st : Nat} : (w.setPort h p st).Canonical := ite e e.wr.raise

theorem setGrade (e : w.Canonical) {h : Half} {n : Nat} : (w.setGrade h n).Canonical := ite e e.wr.wr.raise

theorem checkBlind (e : w.Canonical) {h : Half} : (w.checkBlind h).Canonical :=
  of_rest e (World.checkBlind_rest (by decide) (Rest.refl _ _))

theorem evalGrade (e : w.Canonical) {h : Half} : (w.evalGrade h).Canonical := (e.updGrind.when fun _ e => e.setGrade).checkBlind

theorem poseTrust (e : w.Canonical) {h : Half} {ok : Bool} : (w.poseTrust h ok).Canonical := ite e.wr e.wr.evalGrade

theorem abandon (e : w.Canonical) {h : Half} {tg : Nat} : (w.abandon h tg).Canonical := e.updGrind.bump.raise

/-- The Grind's next buffer is cleared and written. -/
theorem putGrid (e : w.Canonical) {h : Half} {grid : Memory} {profs : List (List Nat)} : (w.putGrid h grid profs).Canonical :=
  (e.setDram (Memory.wf_writeN _ _ _
    (foldl_wf (fun _ _ hm => Memory.wf_write _ _ _ hm) _ (Memory.wf_filter _ _ (e.half h))))).updGrind.wr

theorem setPq (e : w.Canonical) {h : Half} {p q : Nat} : (w.setPq h p q).Canonical := by
  unfold World.setPq
  exact e.wr.when fun _ e => e.raise

theorem planeSeen (e : w.Canonical) {h : Half} {miss : Bool} : (w.planeSeen h miss).Canonical := by
  unfold World.planeSeen
  exact (e.wr.updGrind.when fun _ e => e.bump).when fun _ e => e.raise

theorem knockPipes (e : w.Canonical) {h : Half} {mask : Nat} : (w.knockPipes h mask).Canonical := e.forAll fun _ _ e => e.wr.raise

theorem knockJobs (e : w.Canonical) {h : Half} {mask : Nat} {jobs : List Nat} : (w.knockJobs h mask jobs).Canonical :=
  e.forAll fun _ _ e => ite (e.wr.forAll fun _ _ e => e.abandon) (ite e.wr.updGrind e.wr)

theorem updGnss (e : w.Canonical) {h : Half} {f : Gnss → Gnss} : (w.updGnss h f).Canonical :=
  of_rest e (World.updGnss_rest (by decide) (Rest.refl _ _))

theorem updChan (e : w.Canonical) {h : Half} {c : Nat} {f : Track1 → Track1} : (w.updChan h c f).Canonical :=
  of_rest e (World.updChan_rest (by decide) (Rest.refl _ _))

theorem knockChan (e : w.Canonical) {h : Half} {c : Nat} : (w.knockChan h c).Canonical :=
  of_rest e (World.knockChan_rest (by decide) (Rest.refl _ _))

theorem putDump (e : w.Canonical) {h : Half} {c : Nat} {iq : List Int} {noise flags : Nat} : (w.putDump h c iq noise flags).Canonical :=
  ite e.wr.wr e.wr.putMem.wr

theorem lateUpd (e : w.Canonical) {h : Half} {c : Nat} : (w.lateUpd h c).Canonical := by
  unfold World.lateUpd
  exact e.bump.updChan.when fun _ e => e.raise

theorem acqDone (e : w.Canonical) {h : Half} {k : Nat} {knocked : Bool} : (w.acqDone h k knocked).Canonical := e.wr.wr.raise

theorem knockAcq (e : w.Canonical) {h : Half} {k : Nat} : (w.knockAcq h k).Canonical := ite (e.forAll fun _ _ e => e.putMem).acqDone e

theorem exclude (e : w.Canonical) {h : Half} {key reason ch : Nat} : (w.exclude h key reason ch).Canonical :=
  ite e.updGnss e.updGnss.updGnss.raise

theorem missEpoch (e : w.Canonical) {h : Half} : (w.missEpoch h).Canonical := e.bump.raise

theorem corrEval (e : w.Canonical) {h : Half} : (w.corrEval h).Canonical := (e.updGnss.wr.wr.wr.when fun _ e => e.raise).updGnss

theorem newStation (e : w.Canonical) {h : Half} {st : Nat × Int × Int × Int} : (w.newStation h st).Canonical := by
  unfold World.newStation
  exact e.updGnss.when fun _ e => (e.when fun _ e => e.wr.raise).raise

theorem takeFrame (e : w.Canonical) {h : Half} {k : Nat} {bs : List Byte} : (w.takeFrame h k bs).Canonical := by
  unfold World.takeFrame
  exact ite (e.updGnss.corrEval.when fun _ e => e.updGnss).newStation (e.updGnss.corrEval.when fun _ e => e.updGnss)

theorem setEngines (e : w.Canonical) {h : Half} {pos hdg : Bool} : (w.setEngines h pos hdg).Canonical := by
  unfold World.setEngines
  exact (e.wr.wr.when fun _ e => e.raise).when fun _ e => e.raise

theorem engines (e : w.Canonical) {own : Own} : (w.engines own).Canonical :=
  ite (ite e.setEngines (ite e.wr.setEngines e.wr.setEngines)).setEngines (ite (ite e.setEngines (ite e.wr.setEngines
    e.wr.setEngines)).wr.setEngines (ite e.setEngines (ite e.wr.setEngines e.wr.setEngines)).wr.setEngines)

theorem setQ (e : w.Canonical) {h : Half} {q : Nat} : (w.setQ h q).Canonical := by
  unfold World.setQ
  exact e.updGnss.wr.when fun _ e => e.raise

theorem judgeTrust (e : w.Canonical) {h : Half} {p : Pose} : (w.judgeTrust h p).Canonical := (e.wr.when fun _ e => e.raise).poseTrust

theorem storeAiding (e : w.Canonical) {h : Half} : (w.storeAiding h).Canonical :=
  of_rest e (World.storeAiding_rest (by decide) (Rest.refl _ _))

theorem gnssOn (e : w.Canonical) {h : Half} : (w.gnssOn h).Canonical :=
  of_rest e (World.gnssOn_rest (by decide) (Rest.refl _ _))

theorem gnssStep (e : w.Canonical) {h : Half} : (w.gnssStep h).Canonical := e.when fun _ e => e.missEpoch

theorem updCan (e : w.Canonical) {n : Nat} {f : CanCh → CanCh} : (w.updCan n f).Canonical :=
  of_rest e (World.updCan_rest (by decide) (Rest.refl _ _))

theorem canBus (e : w.Canonical) {n cause : Nat} : (w.canBus n cause).Canonical := e.raiseBoth

theorem setTb (e : w.Canonical) {n b st : Nat} : (w.setTb n b st).Canonical :=
  of_rest e (World.setTb_rest (by decide) (Rest.refl _ _))

theorem greenCan (e : w.Canonical) {n : Nat} : (w.greenCan n).Canonical :=
  of_rest e (World.greenCan_rest (by decide) (Rest.refl _ _))

theorem canLoad (e : w.Canonical) {n : Nat} : (w.canLoad n).Canonical :=
  of_rest e (World.canLoad_rest (by decide) (Rest.refl _ _))

theorem canOnBus (e : w.Canonical) {n : Nat} : (w.canOnBus n).Canonical :=
  of_rest e (World.canOnBus_rest (by decide) (Rest.refl _ _))

theorem canInit (e : w.Canonical) : (w.canInit).Canonical :=
  of_rest e (World.canInit_rest (by decide) (Rest.refl _ _))

theorem canLeaveService (e : w.Canonical) : (w.canLeaveService).Canonical :=
  of_rest e (World.canLeaveService_rest (by decide) (Rest.refl _ _))

theorem knockCan (e : w.Canonical) {n : Nat} : (w.knockCan n).Canonical :=
  of_rest e (World.knockCan_rest (by decide) (Rest.refl _ _))

theorem feedTb0 (e : w.Canonical) {n : Nat} : (w.feedTb0 n).Canonical :=
  of_rest e (World.feedTb0_rest (by decide) (Rest.refl _ _))

theorem setErrc (e : w.Canonical) {n tec rec_ : Nat} : (w.setErrc n tec rec_).Canonical :=
  ite e.canWr.canWr.canWr.canBus (ite e.canWr.canWr.canWr.canBus e.canWr.canWr)

theorem txError (e : w.Canonical) {n b ty fld pos : Nat} : (w.txError n b ty fld pos).Canonical :=
  ite (ite e.wr.wr.wr.canWr e.wr.wr.wr.canWr.setErrc).setTb.updCan.feedTb0 (ite e.wr.wr.wr.canWr e.wr.wr.wr.canWr.setErrc).setTb.updCan

theorem clash (e : w.Canonical) {n kind : Nat} {ide : Bool} {id : Nat} : (w.clash n kind ide id).Canonical :=
  ite e.setReg e.setReg.updCan.raiseBoth

theorem canDecode (e : w.Canonical) {srv : Half} {m : Nat} {f : CanFrame} : (w.canDecode srv m f).Canonical :=
  e.forAll fun _ _ e => ite e (ite e.wrBoth e.wrBoth.externalWrite.externalWrite)

theorem canQueue (e : w.Canonical) {n flt stamp : Nat} {self_ : Bool} {f : CanFrame} : (w.canQueue n flt stamp self_ f).Canonical :=
  ite (ite e.bump e.bump.updCan.canBus) (e.setReg.setReg.setReg.setReg.forAll fun _ _ e => e.setReg).canWr

theorem writeSig (e : w.Canonical) {sg v : Nat} : (w.writeSig sg v).Canonical :=
  of_rest e (World.writeSig_rest (by decide) (Rest.refl _ _))

theorem swGo (e : w.Canonical) {n st : Nat} : (w.swGo n st).Canonical :=
  of_rest e (World.swGo_rest (by decide) (Rest.refl _ _))

theorem swEvent (e : w.Canonical) {num n cause : Nat} : (w.swEvent num n cause).Canonical := e.raiseBoth

theorem swLockout (e : w.Canonical) {n : Nat} : (w.swLockout n).Canonical := e.swGo.swEvent

theorem swRetry (e : w.Canonical) {n : Nat} : (w.swRetry n).Canonical := ite e.swLockout e.swGo

theorem greenSwitch (e : w.Canonical) {n : Nat} : (w.greenSwitch n).Canonical :=
  of_rest e (World.greenSwitch_rest (by decide) (Rest.refl _ _))

theorem knockSwitch (e : w.Canonical) {n : Nat} : (w.knockSwitch n).Canonical :=
  of_rest e (World.knockSwitch_rest (by decide) (Rest.refl _ _))

theorem swTrip (e : w.Canonical) {n code i : Nat} : (w.swTrip n code i).Canonical := e.wr.bump.wr.swRetry.swEvent

theorem shedClass (e : w.Canonical) {f k : Nat} : (w.shedClass f k).Canonical :=
  of_rest e (World.shedClass_rest (by decide) (Rest.refl _ _))

theorem shedTo (e : w.Canonical) {f k : Nat} : (w.shedTo f k).Canonical := e.wr.shedClass.raiseBoth

theorem loseFeed (e : w.Canonical) {f : Nat} : (w.loseFeed f).Canonical :=
  e.when fun _ e => (e.forAll fun _ _ e => e.swGo.wr.wr).set_lsw.raiseBoth

theorem replayJournal (e : s.w.Canonical) : (s.replayJournal).w.Canonical :=
  of_rest e (State.replayJournal_rest (by decide) (Rest.refl _ _))

theorem updFlx (e : w.Canonical) {h : Half} {f : Flx → Flx} : (w.updFlx h f).Canonical :=
  of_rest e (World.updFlx_rest (by decide) (Rest.refl _ _))

theorem setFsess (e : w.Canonical) {h : Half} {k : Nat} {x : Sess} : (w.setFsess h k x).Canonical :=
  of_rest e (World.setFsess_rest (by decide) (Rest.refl _ _))

theorem flxSend (e : w.Canonical) {h : Half} {k ty : Nat} {payload : List Byte} : (w.flxSend h k ty payload).Canonical :=
  of_rest e (World.flxSend_rest (by decide) (Rest.refl _ _))

theorem flxTiles (e : w.Canonical) {h : Half} : (w.flxTiles h).Canonical :=
  of_rest e (World.flxTiles_rest (by decide) (Rest.refl _ _))

theorem flxTileOver (e : w.Canonical) {h : Half} {seq : Nat} : (w.flxTileOver h seq).Canonical := e.when fun _ e => e.bump.raise

theorem flxServe (e : w.Canonical) {h : Half} : (w.flxServe h).Canonical :=
  of_rest e (World.flxServe_rest (by decide) (Rest.refl _ _))

theorem updYield (e : w.Canonical) {h : Half} {f : Yield → Yield} : (w.updYield h f).Canonical :=
  of_rest e (World.updYield_rest (by decide) (Rest.refl _ _))

theorem publishTile (e : w.Canonical) {led : Memory} {srv h : Half} {s : YildSec} {t : YTile} :
    (w.publishTile led srv h s t).Canonical := by
  unfold World.publishTile
  exact (e.when fun _ e => e.wr).putMem.wr.updYield.flxTileOver.flxTiles.when fun _ e => e.externalWrite

theorem showTotals (e : w.Canonical) {h : Half} : (w.showTotals h).Canonical :=
  of_rest e (World.showTotals_rest (by decide) (Rest.refl _ _))

theorem takeCrop (e : w.Canonical) {h : Half} {s : YildSec} : (w.takeCrop h s).Canonical :=
  of_rest e (World.takeCrop_rest (by decide) (Rest.refl _ _))

theorem showYield (e : w.Canonical) {led : Memory} {h : Half} {f : Flow} {x : Slice} {mv : Rat} {src : Nat} :
    (w.showYield led h f x mv src).Canonical :=
  of_rest e (World.showYield_rest (by decide) (Rest.refl _ _))

theorem yieldCycle (e : w.Canonical) {led : Memory} {srv h : Half} {s : YildSec} : (w.yieldCycle led srv h s).Canonical :=
  (((e.takeCrop.updYield.foldl fun _ _ e => e.publishTile).updYield.when fun _ e => e.externalWrite).when fun _ e =>
    e.externalWrite).showYield

/-- The other half's ring is cleared and takes the bytes of this one's. -/
theorem mirrorYield (e : w.Canonical) {h : Half} : (w.mirrorYield h).Canonical := by
  refine e.when fun u e => ?_
  have copied := e.updYield (h := h.other) (f := fun _ => { u.yield h with sec := (u.yield h.other).sec, kept := (u.yield h.other).kept })
  refine showTotals (setDram (copied.foldl fun _ _ e => e.wr) (foldl_wf (fun m c hm => ?_) _ (Memory.wf_filter _ _ ?_)))
  · split
    · exact Memory.wf_write _ _ _ hm
    · exact hm
  · exact (copied.foldl fun _ _ e => e.wr).half _

theorem dspEvent (e : w.Canonical) {obj cause : Nat} : (w.dspEvent obj cause).Canonical := e.raiseBoth

theorem segLatch (e : w.Canonical) : (w.segLatch).Canonical := e.updDsp fun _ => by rfl

theorem pnlStep (e : w.Canonical) {k : Nat} : (w.pnlStep k).Canonical := (e.updDsp fun _ => by rfl).wr.wr

theorem pnlReach (e : w.Canonical) {k : Nat} : (w.pnlReach k).Canonical := e.pnlStep.dspEvent

theorem dspFast (e : w.Canonical) : (w.dspFast).Canonical := ite e e.pnlStep.wr.dspEvent

theorem greenDsp (e : w.Canonical) {k : Nat} : (w.greenDsp k).Canonical :=
  ite (e.updDsp fun _ => by rfl) (e.updDsp fun _ => by rfl).dspFast

theorem pnlEnable (e : w.Canonical) {en : Bool} : (w.pnlEnable en).Canonical :=
  ite ((e.wr.updDsp fun _ => by rfl).when fun _ e => e.pnlStep) ((e.wr.updDsp fun _ => by rfl).when fun _ e => e.pnlStep)

theorem copyLost (e : w.Canonical) : (w.copyLost).Canonical := e.when fun _ e => (e.updDsp fun _ => by rfl).wr.dspEvent

theorem dspLoad (e : w.Canonical) {d : DispSec} : (w.dspLoad d).Canonical :=
  (e.updDsp fun _ => by rfl).wr.when fun _ e => (e.updDsp fun _ => by rfl).pnlEnable

theorem updPwr (e : w.Canonical) {f : Power → Power} : (w.updPwr f).Canonical :=
  of_rest e (World.updPwr_rest (by decide) (Rest.refl _ _))

theorem pwrEvent (e : w.Canonical) {num obj : Nat} : (w.pwrEvent num obj).Canonical := e.raiseBoth

theorem fanDuties (e : w.Canonical) : (w.fanDuties).Canonical :=
  of_rest e (World.fanDuties_rest (by decide) (Rest.refl _ _))

theorem greenFan (e : w.Canonical) {c : Nat} : (w.greenFan c).Canonical :=
  of_rest e (World.greenFan_rest (by decide) (Rest.refl _ _))

theorem feedGone (e : w.Canonical) {f : Nat} : (w.feedGone f).Canonical := e.when fun _ e => e.loseFeed

theorem greenFeed (e : w.Canonical) {f : Nat} : (w.greenFeed f).Canonical :=
  of_rest e (World.greenFeed_rest (by decide) (Rest.refl _ _))

theorem setDerate (e : w.Canonical) {on : Bool} : (w.setDerate on).Canonical := ite e e.wr.pwrEvent

theorem thermistor (e : w.Canonical) {k : Nat} {t : Int} : (w.thermistor k t).Canonical :=
  ite ((e.updPwr.when fun _ e => e.wr.pwrEvent).when fun _ e => e.setDerate) (e.updPwr.when fun _ e => e.updPwr.wr)

theorem greenSupply (e : w.Canonical) {n : Nat} : (w.greenSupply n).Canonical :=
  of_rest e (World.greenSupply_rest (by decide) (Rest.refl _ _))

theorem greenObj (e : w.Canonical) {k : Nat} : (w.greenObj k).Canonical :=
  ite e.greenValve (ite e.greenSwitch (ite (ite e.greenSupply e) (ite e (ite e.greenCan (ite e.greenDsp (ite e.greenFan (ite
    e.greenFeed e)))))))

theorem greenAll (e : w.Canonical) : (w.greenAll).Canonical := e.forAll fun _ _ e => e.greenObj

theorem safeObj (e : w.Canonical) {k : Nat} : (w.safeObj k).Canonical :=
  ite e (ite e.knockValve (ite e.knockSwitch (ite e.knockCan (ite e.dspFast e))))

theorem safeUpdate (e : w.Canonical) : (w.safeUpdate).Canonical :=
  ite (e.wr.forAll fun _ _ e => e.safeObj).fanDuties (ite ((e.wr.forAll fun _ _ e => e.when fun _ e => e.wr).forAll fun _ _ e =>
    e.when fun _ e => e.wr).fanDuties e.wr)

theorem tileLoad (e : w.Canonical) {h : Half} {t : Nat} : (w.tileLoad h t).Canonical :=
  of_rest e (World.tileLoad_rest (by decide) (Rest.refl _ _))

theorem tileRetry (e : w.Canonical) {t : Nat} : (w.tileRetry t).Canonical :=
  of_rest e (World.tileRetry_rest (by decide) (Rest.refl _ _))

theorem updTim (e : w.Canonical) {h : Half} {f : TimSt → TimSt} : (w.updTim h f).Canonical :=
  of_rest e (World.updTim_rest (by decide) (Rest.refl _ _))

theorem timFollow (e : w.Canonical) {h : Half} : (w.timFollow h).Canonical :=
  of_rest e (World.timFollow_rest (by decide) (Rest.refl _ _))

theorem setTimState (e : w.Canonical) {h : Half} {st : Nat} : (w.setTimState h st).Canonical :=
  (e.wr.wr.when fun _ e => e.updTim).when fun _ e => e.raiseBoth

theorem setRef (e : w.Canonical) {h : Half} {r : Nat} : (w.setRef h r).Canonical := e.wr.when fun _ e => e.raiseBoth

theorem endSlew (e : w.Canonical) {h : Half} {all : Bool} : (w.endSlew h all).Canonical :=
  of_rest e (World.endSlew_rest (by decide) (Rest.refl _ _))

theorem decideStep (e : w.Canonical) {h : Half} {x : Step_} : (w.decideStep h x).Canonical :=
  of_rest e (World.decideStep_rest (by decide) (Rest.refl _ _))

theorem takeOffset (e : w.Canonical) {h : Half} {ofs : Int} : (w.takeOffset h ofs).Canonical :=
  ite e.endSlew.wrI.decideStep (ite e.endSlew.wrI.setTimState e.endSlew.wrI.updTim.setTimState.bump.wrI.raiseBoth)

theorem refLost (e : w.Canonical) {h : Half} : (w.refLost h).Canonical := (e.setRef.when fun _ e => e.endSlew.setTimState).timFollow

theorem rejectEdge (e : w.Canonical) {h : Half} {t : Nat} : (w.rejectEdge h t).Canonical := by
  unfold World.rejectEdge
  exact e.bump.updTim.when fun _ e => e.raise

theorem timBloom (e : w.Canonical) {h : Half} : (w.timBloom h).Canonical := ite (e.updTim.foldl fun _ _ e => e.wr) e.updTim.setTimState

theorem storeTime (e : w.Canonical) {h : Half} : (w.storeTime h).Canonical :=
  of_rest e (World.storeTime_rest (by decide) (Rest.refl _ _))

theorem updTrk (e : w.Canonical) {h : Half} {f : Tracks → Tracks} : (w.updTrk h f).Canonical :=
  of_rest e (World.updTrk_rest (by decide) (Rest.refl _ _))

theorem birth (e : w.Canonical) {h : Half} {t : Nat} {d : Det} {cyc : Nat} {veh : Int × Int × Int} :
    (w.birth h t d cyc veh).Canonical := by
  unfold World.birth
  refine ite e ?_
  extract_lets ts
  split
  · exact e.updTrk
  · exact e.bump.wr.when fun _ e => e.raise

theorem confirm (e : w.Canonical) {h : Half} {s cyc : Nat} : (w.confirm h s cyc).Canonical := ite e.updTrk.raise (ite e.updTrk e)

theorem deleteTrack (e : w.Canonical) {h : Half} {s : Nat} {passed : Bool} : (w.deleteTrack h s passed).Canonical :=
  ite e.updTrk.updTrk.wr.raise e.updTrk

theorem missStep (e : w.Canonical) {h : Half} {t : Nat} {veh : Int × Int × Int} {hit : Bool} {s : Nat} :
    (w.missStep h t veh hit s).Canonical :=
  ite e.updTrk.deleteTrack e.updTrk

theorem setStop (e : w.Canonical) {h : Half} {k lvl mask : Nat} : (w.setStop h k lvl mask).Canonical := by
  unfold World.setStop
  exact e.wr.wr.when fun _ e => e.raise

theorem stopOf (e : w.Canonical) {h : Half} {k : Nat} : (w.stopOf h k).Canonical := e.updTrk.setStop

/-- The track store's next buffer is cleared and written. -/
theorem publishStore (e : w.Canonical) {h : Half} : (w.publishStore h).Canonical :=
  (e.setDram (foldl_wf (fun _ _ hm => Memory.wf_writeN _ _ _ hm) _ (Memory.wf_filter _ _ (e.half h)))).updTrk.wr.wr.wr

theorem mirrorTrk (e : w.Canonical) {h : Half} : (w.mirrorTrk h).Canonical := ite e (e.updTrk.foldl fun _ _ e => e.wr).publishStore

theorem applyDets (e : w.Canonical) {h : Half} {t cyc : Nat} {veh : Int × Int × Int} {late : Bool} {dets : List Det} :
    (w.applyDets h t cyc veh late dets).1.Canonical :=
  (e.forAll fun _ _ e => e.updTrk.confirm).forAll fun _ _ e => e.birth

theorem trkSplit (e : w.Canonical) {h : Half} : (w.trkSplit h).Canonical := ite e e.updTrk.wr.raise

theorem trkJoin (e : w.Canonical) {h : Half} : (w.trkJoin h).Canonical := ite e.wr.raise.mirrorTrk e

theorem ownResult (e : w.Canonical) {h : Half} {obj res : Nat} {busy : Bool} : (w.ownResult h obj res busy).Canonical :=
  of_rest e (World.ownResult_rest (by decide) (Rest.refl _ _))

theorem leaves (e : s.w.Canonical) {k : Nat} : (s.leaves k).w.Canonical := e.whenS fun _ e => e.copyLost.onW

theorem orphan (e : s.w.Canonical) {k : Nat} {last : Half} : (s.orphan k last).w.Canonical := e.onOwn.leaves.raiseBoth.onW

theorem claiming (e : s.w.Canonical) {k : Nat} {dst : Half} {giver : Option Half} : (s.claiming k dst giver).w.Canonical :=
  of_rest e (State.claiming_rest (by decide) (Rest.refl _ _))

theorem owned (e : s.w.Canonical) {k : Nat} {h : Half} : (s.owned k h).w.Canonical :=
  of_rest e (State.owned_rest (by decide) (Rest.refl _ _))

theorem claimLost (e : w.Canonical) {h : Half} {k : Nat} : (w.claimLost h k).Canonical := e.ownResult.raise

theorem claim (e : s.w.Canonical) {h : Half} {k : Nat} : (s.claim h k).w.Canonical := by
  unfold State.claim
  refine iteS e.ownResult.onW ?_
  split
  · exact e.claiming.ownResult.onW
  · exact e.ownResult.onW
  · exact iteS e.ownResult.onW (iteS (iteS e.claiming.claimLost.onW.ownResult.onW e.claimLost.onW) e.ownResult.onW)

theorem settle (e : s.w.Canonical) {h : Half} {k : Nat} : (s.settle h k).w.Canonical := by
  unfold State.settle
  split
  · exact e.whenS fun _ e => e.ownResult.onW
  · exact e.whenS fun _ e => e.onOwn.ownResult.onW
  · exact e.whenS fun _ e => e.onOwn.ownResult.raiseBoth.onW

theorem release (e : s.w.Canonical) {h : Half} {k : Nat} : (s.release h k).w.Canonical :=
  iteS e.ownResult.onW (iteS e.orphan.ownResult.onW e.ownResult.onW)

theorem handover (e : s.w.Canonical) {h : Half} {k : Nat} : (s.handover h k).w.Canonical :=
  iteS e.ownResult.onW (iteS e.ownResult.onW (iteS e.ownResult.onW e.claiming.leaves.ownResult.onW))

theorem handoverDone (e : s.w.Canonical) {k : Nat} : (s.handoverDone k).w.Canonical := by
  unfold State.handoverDone
  split
  · exact (e.owned.whenS fun _ e => e.raiseBoth.onW).settle
  · exact e

theorem claimAll (e : s.w.Canonical) {h : Half} {l : List Nat} : (s.claimAll h l).w.Canonical :=
  of_rest e (State.claimAll_rest (by decide) (Rest.refl _ _))

theorem handoverAll (e : s.w.Canonical) {h : Half} : (s.handoverAll h).w.Canonical :=
  iteS e.ownResult.onW (iteS e.ownResult.raiseBoth.onW (e.forAllS fun _ _ e => e.claiming.leaves).onOwn.ownResult.onW)

theorem handoverAllNow (e : s.w.Canonical) {h : Half} : (s.handoverAllNow h).w.Canonical :=
  e.handoverAll.forAllS fun _ _ e => e.handoverDone

theorem serve (e : s.w.Canonical) {h : Half} : (s.serve h).w.Canonical := e.onOwn.replayJournal.engines.flxServe.onW

theorem serverReq (e : s.w.Canonical) {h : Half} : (s.serverReq h).w.Canonical := e.whenS fun _ e => e.serve

theorem expire (e : s.w.Canonical) {k : Nat} : (s.expire k).w.Canonical :=
  ((e.onOwn.greenObj.when fun _ e => e.raise).when fun _ e => e.raise).onW

theorem setOrphanT (e : s.w.Canonical) {t : Nat} : (s.setOrphanT t).w.Canonical := e.wrBoth.onW.forAllS fun _ _ e => e.expire

theorem fallen (e : s.w.Canonical) {h : Half} : (s.fallen h).w.Canonical := by
  unfold State.fallen
  exact ((((e.onOwn.forAllS fun _ _ e => e.orphan).whenS fun _ e => e.onOwn.ownResult.onW).forAll fun _ _ e => e.greenObj).forAll fun
    _ _ e => e.when fun _ e => e.dropTileLock.tileRetry).engines.onW

theorem fall (e : s.w.Canonical) {h : Half} {c : LowCause} : (s.fall h c).w.Canonical := by
  unfold State.fall
  exact e.onOwn.whenS fun _ e => e.fallen

theorem hold (e : s.w.Canonical) {h : Half} {cause : Nat} : (s.hold h cause).w.Canonical := e.set_run.onW.fall

theorem resetHalf (e : s.w.Canonical) {h : Half} {cause : Nat} : (s.resetHalf h cause).w.Canonical := e.whenS fun _ e => e.hold

theorem aliveRise (e : w.Canonical) {h : Half} : (w.aliveRise h).Canonical :=
  of_rest e (World.aliveRise_rest (by decide) (Rest.refl _ _))

theorem fence (e : s.w.Canonical) {h : Half} : (s.fence h).w.Canonical := e.set_run.onW.fall

theorem updXng (e : w.Canonical) {h : Half} {f : Xng → Xng} : (w.updXng h f).Canonical :=
  of_rest e (World.updXng_rest (by decide) (Rest.refl _ _))

theorem tsyncLost (e : w.Canonical) {h : Half} : (w.tsyncLost h).Canonical := (e.when fun _ e => e.wr.raise).updXng

theorem laneSet (e : w.Canonical) {h : Half} {lane dir : Nat} {up : Bool} : (w.laneSet h lane dir up).Canonical := ite e e.wr.raise

theorem xngDown (e : s.w.Canonical) {h : Half} : (s.xngDown h).w.Canonical := e.whenS fun _ e => e.wr.tsyncLost.onW.engines.onW

theorem xngSent (e : w.Canonical) {h : Half} {ty len : Nat} : (w.xngSent h ty len).Canonical :=
  of_rest e (World.xngSent_rest (by decide) (Rest.refl _ _))

theorem xngGot (e : w.Canonical) {h : Half} {len : Nat} : (w.xngGot h len).Canonical :=
  of_rest e (World.xngGot_rest (by decide) (Rest.refl _ _))

theorem allLanesDown (e : s.w.Canonical) : (s.allLanesDown).w.Canonical :=
  e.forAllS fun _ _ e => (e.when fun _ e => e.laneSet.laneSet.laneSet.laneSet).onW.xngDown

theorem takeFn (e : w.Canonical) {h : Half} {n : Nat} : (w.takeFn h n).Canonical :=
  of_rest e (World.takeFn_rest (by decide) (Rest.refl _ _))

/-- Class 3 takes the sibling's log as it stands in its memory. -/
theorem takeClass (e : w.Canonical) {h : Half} {k : Nat} : (w.takeClass h k).Canonical := by
  unfold World.takeClass
  split
  · exact e.wr
  · exact e.set_opt.copyFields.set_flx
  · exact (e.updLogs ⟨(e.log h).1, wf_logOf (e.half h.other)⟩).wr
  · exact e

theorem updUpd (e : w.Canonical) {h : Half} {f : Upd → Upd} : (w.updUpd h f).Canonical :=
  of_rest e (World.updUpd_rest (by decide) (Rest.refl _ _))

theorem setRegion (e : w.Canonical) {h : Half} {r : Nat} {x : Region} : (w.setRegion h r x).Canonical := e.updUpd.wr.wr.wr.wr.wr

theorem showKeys (e : w.Canonical) {h : Half} : (w.showKeys h).Canonical :=
  of_rest e (World.showKeys_rest (by decide) (Rest.refl _ _))

theorem keysApplied (e : w.Canonical) {h : Half} {v : Vault} {n : Nat} : (w.keysApplied h v n).Canonical :=
  e.updUpd.showKeys.forAll fun _ _ e => e.raise

theorem updSess (e : w.Canonical) {h : Half} {r : Nat} {x : Session} : (w.updSess h r x).Canonical :=
  of_rest e (World.updSess_rest (by decide) (Rest.refl _ _))

theorem updRes (e : w.Canonical) {h : Half} {res : Nat} : (w.updRes h res).Canonical :=
  of_rest e (World.updRes_rest (by decide) (Rest.refl _ _))

theorem openFails (e : w.Canonical) {h : Half} {r res : Nat} : (w.openFails h r res).Canonical :=
  (e.when fun _ e => e.wr).updRes.bump.raise

theorem openTakes (e : w.Canonical) {h : Half} {r source len : Nat} {tech : Bool} : (w.openTakes h r source len tech).Canonical :=
  e.free.updSess.wr.wr.wr.updRes.wr.raise

theorem upOpen (e : s.w.Canonical) {h : Half} {r source len : Nat} {tech : Bool} : (s.upOpen h r source len tech).w.Canonical :=
  (ite e.openTakes e.openFails).onW

theorem leaveForUpdate (e : s.w.Canonical) {h : Half} : (s.leaveForUpdate h).w.Canonical :=
  (iteS e.handoverAllNow (e.forAllS fun _ _ e => e.orphan)).wr.onW

theorem clearValid (e : w.Canonical) {h : Half} {r len : Nat} : (w.clearValid h r len).Canonical :=
  e.setRegion.when fun _ e => e.set_roast

theorem upBlock (e : s.w.Canonical) {h : Half} {r : Nat} {b : List Byte} : (s.upBlock h r b).w.Canonical :=
  iteS ((e.updRes.when fun _ e => e.bump).when fun _ e => e.updSess).onW ((e.whenS fun _ e => e.leaveForUpdate).when fun _ e =>
    e.clearValid).setRegion.updSess.wr.updRes.onW

theorem updStageEnd (e : w.Canonical) {h : Half} : (w.updStageEnd h).Canonical :=
  of_rest e (World.updStageEnd_rest (by decide) (Rest.refl _ _))

theorem sessEnd (e : w.Canonical) {h : Half} {r st res : Nat} : (w.sessEnd h r st res).Canonical := e.updUpd.wr.updRes.raise.updStageEnd

theorem roastReject (e : w.Canonical) {h : Half} {v : Verdict} : (w.roastReject h v).Canonical := e.raise

theorem imageActive (e : w.Canonical) {h : Half} {r : Nat} {restored : Bool} {img : List Byte} :
    (w.imageActive h r restored img).Canonical :=
  e.updUpd.setRegion.raise

theorem roastChecked (e : w.Canonical) {h : Half} {tech : Bool} : (w.roastChecked h tech).Canonical :=
  ite e.wr.set_roast.setRegion.raise.sessEnd e.wr.set_roast.setRegion.roastReject.sessEnd

theorem keysChecked (e : w.Canonical) {h : Half} : (w.keysChecked h).Canonical := by
  unfold World.keysChecked
  dsimp only
  split
  · exact e.raise.sessEnd
  · split
    · exact e.raise.sessEnd
    · refine (?_ : World.Canonical _).setRegion.raise.sessEnd
      split
      · exact e.keysApplied.keysApplied
      · exact e.keysApplied

theorem checked (e : w.Canonical) {h : Half} {r : Nat} : (w.checked h r).Canonical :=
  ite e.sessEnd (ite e.roastChecked (ite e.keysChecked (ite e.sessEnd e.imageActive.wr.updRes)))

theorem knockSess (e : w.Canonical) {h : Half} {r why : Nat} : (w.knockSess h r why).Canonical :=
  ite e.updRes (ite e.bump.sessEnd e.updRes)

theorem restored (e : w.Canonical) {h : Half} {r : Nat} : (w.restored h r).Canonical :=
  ite e.bump.setRegion.raise.sessEnd e.bump.setRegion.imageActive.wr.updRes.raise

theorem drawNonce (e : w.Canonical) {h : Half} : (w.drawNonce h).Canonical :=
  of_rest e (World.drawNonce_rest (by decide) (Rest.refl _ _))

theorem flxMirror (e : w.Canonical) {h : Half} : (w.flxMirror h).Canonical :=
  of_rest e (World.flxMirror_rest (by decide) (Rest.refl _ _))

theorem cartActive (e : w.Canonical) {h : Half} {k : Option Nat} : (w.cartActive h k).Canonical := e.updFlx.wr.wr.wr.raise.flxMirror

theorem flxClose (e : w.Canonical) {h : Half} {k reason : Nat} : (w.flxClose h k reason).Canonical :=
  ((e.when fun _ e => e.flxSend).updFlx.wr.wr.wr.wr.wr.wr.when fun _ e => e.raise).flxMirror.when fun _ e => e.cartActive

theorem flxAuth (e : w.Canonical) {h : Half} {k : Nat} : (w.flxAuth h k).Canonical := e.bump.raise

theorem flxPlace (e : w.Canonical) {h : Half} {k role : Nat} {x : Sess} : (w.flxPlace h k role x).Canonical :=
  ((e.setFsess.wr.wr.wr.wr.when fun _ e => e.updFlx).raise.flxMirror.when fun _ e => e.cartActive).flxTiles

theorem flxDrop (e : w.Canonical) {h : Half} {client : Bool} {k reason : Nat} : (w.flxDrop h client k reason).Canonical :=
  ite e.flxClose e.updFlx

theorem flxHello (e : w.Canonical) {h : Half} {client : Bool} {k role ver : Nat} {dev : List Byte} {x : Sess} :
    (w.flxHello h client k role ver dev x).Canonical := by
  unfold World.flxHello
  refine ite e.flxDrop (ite e.flxAuth.flxDrop (ite (e.when fun _ e => e.bump.raise).flxDrop (ite (?_ : World.Canonical _).flxPlace ?_)))
  · split
    · exact (e.when fun _ e => e.bump.raise).flxClose
    · exact e.when fun _ e => e.bump.raise
  · split
    · refine (?_ : World.Canonical _).flxDrop
      split
      · exact (e.when fun _ e => e.bump.raise).flxClose
      · exact e.when fun _ e => e.bump.raise
    · refine (?_ : World.Canonical _).updFlx.flxPlace
      split
      · exact (e.when fun _ e => e.bump.raise).flxClose
      · exact e.when fun _ e => e.bump.raise

theorem cartState (e : w.Canonical) {h : Half} {k : Nat} {p : List Byte} : (w.cartState h k p).Canonical :=
  e.when fun _ e => ite (ite e.setFsess.cartActive e.setFsess.wr.wr) (e.setFsess.when fun _ e => e.updFlx)

theorem flxAct (e : w.Canonical) {h : Half} {k ty : Nat} {p : List Byte} : (w.flxAct h k ty p).Canonical :=
  ite e.flxClose (ite e.takeFrame (ite e.cartState e))

theorem cartChoose (e : w.Canonical) {h : Half} : (w.cartChoose h).Canonical := by
  unfold World.cartChoose
  refine ite e.updFlx ?_
  split
  · exact e.updFlx
  · exact e.updFlx.cartActive

theorem flxShutdown (e : w.Canonical) {h : Half} : (w.flxShutdown h).Canonical := e.forAll fun _ _ e => e.flxClose

theorem updSet (e : w.Canonical) {h : Half} {f : SetEng → SetEng} : (w.updSet h f).Canonical :=
  of_rest e (World.updSet_rest (by decide) (Rest.refl _ _))

theorem updFn (e : w.Canonical) {h : Half} {n : Nat} {f : FnSt → FnSt} : (w.updFn h n f).Canonical :=
  of_rest e (World.updFn_rest (by decide) (Rest.refl _ _))

theorem ilkStep (e : w.Canonical) {h : Half} {n i : Nat} : (w.ilkStep h n i).Canonical :=
  ite e (ite (e.updFn.when fun _ e => e.raise) (ite e.updFn e))

theorem noteSel (e : w.Canonical) {h : Half} {n : Nat} {p : PvSel} : (w.noteSel h n p).Canonical := by
  unfold World.noteSel
  exact e.updFn.when fun _ e => e.raise

theorem noteSched (e : w.Canonical) {h : Half} {n : Nat} : (w.noteSched h n).Canonical :=
  of_rest e (World.noteSched_rest (by decide) (Rest.refl _ _))

theorem putValve (e : w.Canonical) {k : Nat} {mA : Option Nat} {on : Bool} : (w.putValve k mA on).Canonical := by
  unfold World.putValve
  refine e.when fun _ e => (?_ : World.Canonical _).valveCmd
  split
  · exact ite e.valveSetpoint e
  · exact e

theorem putSide (e : w.Canonical) {r : Func} {side : Int} {mA : Option Nat} {on : Bool} : (w.putSide r side mA on).Canonical :=
  e.forAll fun _ _ e => e.putValve

theorem putSwitch (e : w.Canonical) {k prof : Nat} {on : Bool} : (w.putSwitch k prof on).Canonical :=
  of_rest e (World.putSwitch_rest (by decide) (Rest.refl _ _))

theorem pairDrive (e : w.Canonical) {h : Half} {n : Nat} {d : Int} {mA : Option Nat} : (w.pairDrive h n d mA).Canonical :=
  ite ((e.when fun _ e => e.updFn).when fun _ e => e.putSide.updFn).putSide.updFn (ite ((e.when fun _ e => e.updFn).when fun _ e =>
    e.putSide.updFn).putSide.putSide ((e.when fun _ e => e.updFn).when fun _ e => e.putSide.updFn))

theorem mapOut (e : w.Canonical) {h : Half} {n : Nat} {u : Rat} : (w.mapOut h n u).Canonical := by
  unfold World.mapOut
  dsimp only
  split
  · exact e.putSide
  · exact e.putSide
  · exact ite e.pairDrive (ite e.pairDrive e.pairDrive)
  · exact e.pairDrive
  · exact e.forAll fun _ _ e => e.putSwitch
  · exact e.writeSig
  · exact e.updFn
  · exact e

theorem putAlert (e : w.Canonical) {own : Own} {h : Half} : (w.putAlert own h).Canonical :=
  of_rest e (World.putAlert_rest (by decide) (Rest.refl _ _))

theorem updSteer (e : w.Canonical) {h : Half} {f : Steer → Steer} : (w.updSteer h f).Canonical :=
  of_rest e (World.updSteer_rest (by decide) (Rest.refl _ _))

theorem alertEnd (e : w.Canonical) {own : Own} {h : Half} : (w.alertEnd own h).Canonical :=
  of_rest e (World.alertEnd_rest (by decide) (Rest.refl _ _))

theorem steerRelease (e : w.Canonical) {own : Own} {h : Half} {reason : Nat} : (w.steerRelease own h reason).Canonical :=
  e.when fun _ e => e.wr.wr.pairDrive.updFn.updSteer.raise.putAlert

theorem steerClocks (e : w.Canonical) {h : Half} {v : Rat} : (w.steerClocks h v).Canonical :=
  of_rest e (World.steerClocks_rest (by decide) (Rest.refl _ _))

theorem steerEdge (e : w.Canonical) {h : Half} {x : SteerSee} : (w.steerEdge h x).Canonical :=
  of_rest e (World.steerEdge_rest (by decide) (Rest.refl _ _))

theorem steerCycle (e : w.Canonical) {own : Own} {h : Half} {clear : Bool} : (w.steerCycle own h clear).1.Canonical := by
  unfold World.steerCycle
  have seen {c q a} : (((w.when c fun w => (w.updSteer h fun x => { x with alertAck := x.alertAck || x.alertOn }).alertEnd own h).wr h
      F.SET_STEER_STATUS.POS_Q 0 q).wr h F.SET_STEER_STATUS.ARMED 0 a).Canonical :=
    (e.when fun _ e => e.updSteer.alertEnd).wr.wr
  extract_lets c ovr w1 w2
  have e : w2.Canonical := seen
  clear_value w2
  split
  · exact ite e.steerRelease e.steerRelease
  · refine iteMk e.wrI.wrI.wr ?_
    extract_lets w3 ended near w4
    have e : w4.Canonical := e.wrI.wrI.steerClocks.steerEdge.when fun _ e => e.updSteer.putAlert
    clear_value w4
    iterate 5 refine iteMk e.steerRelease ?_
    split
    dsimp only
    exact e.updSteer.wrI

theorem fnStart (e : w.Canonical) {h : Half} {n : Nat} : (w.fnStart h n).Canonical :=
  of_rest e (World.fnStart_rest (by decide) (Rest.refl _ _))

theorem lawStep (e : w.Canonical) {h : Half} {n : Nat} {sp pv f : Rat} {preset fresh : Bool} :
    (w.lawStep h n sp pv f preset fresh).1.Canonical :=
  of_rest e (World.lawStep_rest (by decide) (Rest.refl _ _))

theorem fnRegs (e : w.Canonical) {h : Half} {n mode : Nat} {p : PvSel} {clamped ff : Bool} : (w.fnRegs h n mode p clamped ff).Canonical :=
  of_rest e (World.fnRegs_rest (by decide) (Rest.refl _ _))

theorem fnCommit (e : w.Canonical) {h : Half} {n line k : Nat} {pv sp : Rat} : (w.fnCommit h n line k pv sp).Canonical :=
  of_rest e (World.fnCommit_rest (by decide) (Rest.refl _ _))

theorem fnOverride (e : w.Canonical) {h : Half} {n line : Nat} : (w.fnOverride h n line).1.Canonical := by
  unfold World.fnOverride
  dsimp only
  split
  · exact (e.when fun _ e => e.forAll fun _ _ e => e.greenObj).updFn
  · exact e.updFn.mapOut
  · exact e.updFn.mapOut
  · exact e.when fun _ e => e.mapOut

theorem handSteer (e : w.Canonical) {h : Half} {line k : Nat} {p : PvSel} : (w.handSteer h line k p).Canonical := by
  unfold World.handSteer
  exact (ite e.fnOverride (ite e e.updFn.pairDrive)).fnCommit.updFn.fnRegs

theorem fnCycle (e : w.Canonical) {own : Own} {h : Half} {n k : Nat} : (w.fnCycle own h n k).Canonical := by
  have e := (e.fnStart (h := h) (n := n)).noteSel (h := h) (n := n) (p := w.fnStart h n |>.pvSel h n)
  have e := (e.noteSched (h := h) (n := n)).forAll (l := List.range 4) (f := fun w i => w.ilkStep h n i) fun _ _ e => e.ilkStep
  have e (line : Nat) := iteFst (c := n = 0) (b := (_, (0 : Rat))) (e.steerCycle (own := own) (h := h) (clear := 7 < line)) e
  have e (line why : Nat) := (e line).when (c := why ≠ 0) (f := fun w => w.steerRelease own h why) fun _ e => e.steerRelease
  exact ite (e _ _).handSteer (ite (e _ _).fnOverride.fnCommit.fnRegs (e _ _).lawStep.updFn.mapOut.fnCommit.fnRegs)

theorem transit (e : w.Canonical) {h : Half} {dst : Nat} : (w.transit h dst).Canonical :=
  (e.wr.updSet.when fun _ e => e.canLeaveService.wrBoth).raise

theorem updOpt (e : w.Canonical) {h : Half} {f : Optim → Optim} : (w.updOpt h f).Canonical :=
  of_rest e (World.updOpt_rest (by decide) (Rest.refl _ _))

theorem optSave (e : w.Canonical) {h : Half} : (w.optSave h).Canonical :=
  of_rest e (World.optSave_rest (by decide) (Rest.refl _ _))

theorem optLoad (e : w.Canonical) {h : Half} {sec : Option OptmSec} : (w.optLoad h sec).Canonical :=
  of_rest e (World.optLoad_rest (by decide) (Rest.refl _ _))

theorem optApply (e : w.Canonical) {own : Own} {h : Half} {p : OptProb} {x : Nat → OVar → Rat} : (w.optApply own h p x).Canonical :=
  of_rest e (World.optApply_rest (by decide) (Rest.refl _ _))

theorem optFeasible (e : w.Canonical) {own : Own} {h : Half} {p : OptProb} {s : OptSol} : (w.optFeasible own h p s).Canonical :=
  ((e.forAll fun _ _ e => e.wr).optApply.when fun _ e => e.raise).updOpt.wr.wr

theorem optFallback (e : w.Canonical) {own : Own} {h : Half} {p : OptProb} : (w.optFallback own h p).Canonical := by
  unfold World.optFallback
  exact ((e.when fun _ e => e.optApply).updOpt.wr.when fun _ e => e.raise).when fun _ e => e.wr.raise

theorem updLatch (e : w.Canonical) {f : Latch → Latch} : (w.updLatch f).Canonical :=
  of_rest e (World.updLatch_rest (by decide) (Rest.refl _ _))

theorem latchEval (e : w.Canonical) : (w.latchEval).Canonical :=
  of_rest e (World.latchEval_rest (by decide) (Rest.refl _ _))

theorem setHoldReq (e : w.Canonical) {h : Half} {on : Bool} : (w.setHoldReq h on).Canonical :=
  of_rest e (World.setHoldReq_rest (by decide) (Rest.refl _ _))

theorem updRun (e : w.Canonical) {h : Half} {f : Run → Run} : (w.updRun h f).Canonical :=
  of_rest e (World.updRun_rest (by decide) (Rest.refl _ _))

/-- A half without power holds nothing in its memory. -/
theorem halfOff (e : w.Canonical) {h : Half} : (w.halfOff h).Canonical :=
  (show ({ w with regs := w.regs.upd h (keepRegs keptOff), shut := w.shut.set h { Shut.init with trunc := (w.shut.get h).trunc },
                  run := w.run.set h Run.init } : World).Canonical from e.of_eq rfl rfl rfl).setDram rfl

/-- The panel's stores are empty at power-on. -/
theorem backplaneOn (e : s.w.Canonical) {t1 t0 : Bool} {tiles : Nat} : (s.backplaneOn t1 t0 tiles).w.Canonical := by
  unfold State.backplaneOn
  dsimp only
  refine (((halfOff (halfOff ?_)).wr.wr.wr.wrBoth.set_svc.forAll fun _ _ e => e.wr.updTile).wr.forAll fun _ _ e => e.safeObj).forAll
    (fun _ _ e => e.greenObj) |>.latchEval
  exact ⟨e.half, e.log, rfl, rfl⟩

/-- A half that starts keeps the log in its flash and none of its sibling's. -/
theorem halfFresh (e : w.Canonical) {h : Half} {cause : Nat} : (w.halfFresh h cause).Canonical := by
  unfold World.halfFresh
  dsimp only
  refine ((wr (wr (wr (h := h) ?_))).forAll fun _ _ e => e.setRegion).showKeys.drawNonce.latchEval
  exact ⟨e.half, (e.updLogs (f := fun r => { Router.init with flash := r.flash }) ⟨(e.log h).1, rfl⟩).log, e.panel⟩

theorem letRun (e : s.w.Canonical) {h : Half} {cause : Nat} : (s.letRun h cause).w.Canonical :=
  e.halfFresh.onW.onOwn.whenS fun _ e => e.aliveRise.onW

theorem restart (e : s.w.Canonical) {h : Half} {cause : Nat} : (s.restart h cause).w.Canonical := e.hold.whenS fun _ e => e.letRun

theorem standby (e : w.Canonical) {h : Half} : (w.standby h).Canonical :=
  of_rest e (World.standby_rest (by decide) (Rest.refl _ _))

theorem bootRegion (e : w.Canonical) {h : Half} {r : Nat} : (w.bootRegion h r).1.Canonical := iteFst e e.setRegion

theorem orStandby (e : w.Canonical) {h : Half} {ok : Bool} : (w.orStandby h ok).Canonical :=
  of_rest e (World.orStandby_rest (by decide) (Rest.refl _ _))

theorem bloom1 (e : w.Canonical) {h : Half} : (w.bloom1 h).Canonical := (e.wr.wr.bootRegion.updRun.when fun _ e => e.raise).orStandby

theorem gateIslands (e : w.Canonical) {h : Half} {l : List Nat} : (w.gateIslands h l).Canonical :=
  of_rest e (World.gateIslands_rest (by decide) (Rest.refl _ _))

theorem bloom2 (e : s.w.Canonical) {h : Half} : (s.bloom2 h).w.Canonical :=
  (((e.forAll fun _ _ e => e.raise).forAll fun _ _ e => e.raise).when fun _ e => e.wr).gateIslands.orStandby.onW

theorem bloom4 (e : w.Canonical) {h : Half} : (w.bloom4 h).Canonical := e.bootRegion.bootRegion.bootRegion.gnssOn.orStandby

theorem swapRoast (e : w.Canonical) {h : Half} : (w.swapRoast h).Canonical := e.set_roast.setRegion

theorem setTrial (e : w.Canonical) {h : Half} {on : Bool} : (w.setTrial h on).Canonical :=
  of_rest e (World.setTrial_rest (by decide) (Rest.refl _ _))

theorem recordCheck (e : w.Canonical) {h : Half} : (w.recordCheck h).1.Canonical :=
  iteFst e (iteFst (iteFst e (iteFst e.swapRoast e)) (iteFst e.swapRoast.setTrial e))

theorem bloom5 (e : w.Canonical) {h : Half} : (w.bloom5 h).Canonical := (e.recordCheck.set_roast.when fun _ e => e.roastReject).orStandby

theorem bindLoad (e : w.Canonical) {c : BindSec} : (w.bindLoad c).Canonical :=
  of_rest e (World.bindLoad_rest (by decide) (Rest.refl _ _))

theorem sharedLoad (e : w.Canonical) {c : Content} : (w.sharedLoad c).Canonical := by
  unfold World.sharedLoad
  exact (e.bindLoad.set_lsw_can.forAll fun _ _ e => e.canLoad).canInit.dspLoad

theorem yieldLoad (e : w.Canonical) {h : Half} {sec : Option YildSec} : (w.yieldLoad h sec).Canonical :=
  of_rest e (World.yieldLoad_rest (by decide) (Rest.refl _ _))

theorem bloom6 (e : s.w.Canonical) {h : Half} : (s.bloom6 h).w.Canonical := by
  unfold State.bloom6
  dsimp only
  exact ((((e.when fun _ e => e.sharedLoad).updEvt fun _ => by rfl).updSet.updGrind.yieldLoad.optLoad.onW.whenS fun _ e =>
    e.setOrphanT).forAll fun _ _ e => e.when fun _ e => e.tileLoad).onW

theorem bloom7 (e : w.Canonical) {h : Half} : (w.bloom7 h).Canonical := (e.forAll fun _ _ e => e.publishIn).forAll fun _ _ e => e.canOnBus

theorem bloom8 (e : s.w.Canonical) {h : Half} : (s.bloom8 h).w.Canonical :=
  iteS e.standby.onW (iteS e (iteS (e.whenS fun _ e => e.standby.onW) (e.serverReq.whenS fun _ e => e.claimAll)))

theorem writeGreen (e : w.Canonical) {bank : NMap Gren} : (w.writeGreen bank).Canonical :=
  of_rest e (World.writeGreen_rest (by decide) (Rest.refl _ _))

theorem greenSync (e : w.Canonical) {h : Half} : (w.greenSync h).Canonical := by
  unfold World.greenSync
  exact e.when fun _ e => e.writeGreen.raise

theorem lifeDue (e : w.Canonical) {h : Half} : (w.lifeDue h).Canonical := by
  unfold World.lifeDue
  exact (e.when fun _ e => e.raise).when fun _ e => e.raise

theorem bloom9 (e : s.w.Canonical) {h : Half} : (s.bloom9 h).w.Canonical := by
  unfold State.bloom9
  exact ((((((e.wr.wr.wr.wr.updSet.wr.wr.updTrk.setHoldReq.raise.when fun _ e => e.updLatch.raise).when fun _ e =>
    e.set_shut.raise).lifeDue.when fun _ e => e.greenSync).when fun _ e => e.wr).when fun _ e => e.wr).when fun _ e =>
    e.wr).engines.onW

theorem bloomStep (e : s.w.Canonical) {h : Half} {k : Nat} : (s.bloomStep h k).w.Canonical := by
  unfold State.bloomStep
  split
  · exact e.bloom1.onW
  · exact e.bloom2
  · exact e.timBloom.onW
  · exact e.bloom4.onW
  · exact e.bloom5.onW
  · exact e.bloom6
  · exact e.bloom7.onW
  · exact e.bloom8
  · exact e.bloom9
  · exact e

theorem notePour (e : w.Canonical) {h : Half} : (w.notePour h).Canonical :=
  of_rest e (World.notePour_rest (by decide) (Rest.refl _ _))

theorem activateTrial (e : s.w.Canonical) {n : Half} : (s.activateTrial n).w.Canonical := e.swapRoast.setTrial.onW.restart

theorem activatePass (e : s.w.Canonical) {n : Half} : (s.activatePass n).w.Canonical :=
  (e.whenS fun _ e => e.handoverAllNow.hold).serverReq.setOrphanT

theorem activateAdopt (e : s.w.Canonical) {n : Half} : (s.activateAdopt n).w.Canonical := by
  unfold State.activateAdopt
  exact (e.forAll fun _ _ e => e.greenObj).sharedLoad.bloom7.updSet.onW.whenS fun _ e => e.claimAll

theorem activateOld (e : s.w.Canonical) {o : Half} : (s.activateOld o).w.Canonical := (e.when fun _ e => e.swapRoast).onW.restart

theorem activateEnd (e : s.w.Canonical) : (s.activateEnd).w.Canonical :=
  ((e.forAll fun _ _ e => e.setTrial).set_bp_act.when fun _ e => e.forAll fun _ _ e => e.raise).onW

theorem activateDrop (e : s.w.Canonical) {a : Activation} : (s.activateDrop a).w.Canonical :=
  iteS (e.set_act.onW.swapRoast.setTrial.onW.whenS fun _ e => e.restart) e.set_act.onW

theorem activateKnock (e : s.w.Canonical) : (s.activateKnock).1.w.Canonical := by
  unfold State.activateKnock
  split
  · exact e
  · exact iteFstS e e.activateDrop

theorem updShut (e : w.Canonical) {h : Half} {f : Shut → Shut} : (w.updShut h f).Canonical :=
  of_rest e (World.updShut_rest (by decide) (Rest.refl _ _))

theorem cupPhase (e : w.Canonical) {h : Half} {p : Nat} : (w.cupPhase h p).Canonical :=
  of_rest e (World.cupPhase_rest (by decide) (Rest.refl _ _))

theorem cupSkipAll (e : w.Canonical) {h : Half} {reason : Nat} : (w.cupSkipAll h reason).Canonical :=
  of_rest e (World.cupSkipAll_rest (by decide) (Rest.refl _ _))

theorem cupStop (e : w.Canonical) {h : Half} {reason : Nat} {ms_ : List CupMeas} : (w.cupStop h reason ms_).Canonical :=
  of_rest e (World.cupStop_rest (by decide) (Rest.refl _ _))

theorem cupStart (e : s.w.Canonical) {h : Half} {c : CupCond} : (s.cupStart h c).w.Canonical :=
  (ite e.hold.updShut.wr.wr.wr.cupPhase.cupSkipAll (ite e.hold.updShut.wr.wr.wr.cupPhase.wrI.wrI.wrI.wr.cupPhase
    e.hold.updShut.wr.wr.wr.cupPhase.wrI.wrI.wrI.wr.cupSkipAll)).onW

theorem cupWritten (e : w.Canonical) {h : Half} : (w.cupWritten h).Canonical :=
  of_rest e (World.cupWritten_rest (by decide) (Rest.refl _ _))

/-- The log in the half's memory is saved to flash. -/
theorem saveStep2 (e : w.Canonical) {h : Half} {serves : Bool} : (w.saveStep2 h serves).Canonical := by
  have timed := (e.storeTime (h := h)).storeAiding (h := h)
  exact (((timed.updLogs ⟨wf_logOf (timed.half h), (timed.log h).2⟩).when fun _ e => e.optSave).when fun _ e => e.updYield).flxShutdown.updShut

theorem shutStep2 (e : s.w.Canonical) {h : Half} : (s.shutStep2 h).w.Canonical := (e.whenS fun _ e => e.replayJournal).saveStep2.onW

theorem shutBegin (e : s.w.Canonical) {h : Half} : (s.shutBegin h).w.Canonical := (e.updShut.forAll fun _ _ e => e.greenObj).onW.shutStep2

theorem shutRelease (e : s.w.Canonical) {h : Half} : (s.shutRelease h).w.Canonical :=
  e.whenS fun _ e => (e.forAllS fun _ _ e => e.orphan).updShut.onW

theorem cupPower (e : w.Canonical) {h : Half} : (w.cupPower h).Canonical :=
  of_rest e (World.cupPower_rest (by decide) (Rest.refl _ _))

theorem failHalf (e : s.w.Canonical) {h : Half} {wrote : Bool} {ms_ : List CupMeas} : (s.failHalf h wrote ms_).w.Canonical :=
  iteS (e.when fun _ e => e.cupStop).cupWritten.updShut.setHoldReq.onW (iteS e (e.whenS fun _ e =>
    e.shutStep2).cupPower.setHoldReq.wr.updShut.onW.hold)

theorem startAgain (e : s.w.Canonical) {h : Half} {cause : Nat} : (s.startAgain h cause).w.Canonical :=
  e.whenS fun _ e => e.updShut.onW.whenS fun _ e => e.letRun

theorem updSvc (e : w.Canonical) {f : Service → Service} : (w.updSvc f).Canonical :=
  of_rest e (World.updSvc_rest (by decide) (Rest.refl _ _))

/-- The sibling takes the functions of the group, then the tokens pass. -/
theorem moveGroup (e : s.w.Canonical) {giver : Half} {g : List Nat} : (s.moveGroup giver g).w.Canonical := by
  have told : (s.w.raise giver 6 (evArg (g.headD 0) 0xFF 0)).Canonical := e.raise
  have taken := told.when (c := (s.w.raise giver 6 (evArg (g.headD 0) 0xFF 0)).mirrors giver.other)
    (f := fun w => w.forAll g fun w n => w.takeFn giver.other n) fun _ e => e.forAll fun _ _ e => e.takeFn
  refine raise (updSet (forAllS (s := { s with w := _ }) taken fun _ _ e => ?_))
  exact e.handover.handoverDone

theorem prepareHalf (e : s.w.Canonical) {x : Half} : (s.prepareHalf x).w.Canonical := by
  unfold State.prepareHalf
  exact (((e.updSvc.svcState.onW.forAllS fun _ _ e => e.whenS fun _ e => e.moveGroup).handoverAllNow.when fun _ e =>
    e.takeClass.mirrorYield).onW.whenS fun _ e => e.replayJournal).fence.serverReq.updSvc.svcState.onW

theorem svcEnd (e : s.w.Canonical) : (s.svcEnd).w.Canonical := by
  unfold State.svcEnd
  dsimp only
  split
  · exact e.updSvc.svcState.onW.restart
  · exact e.updSvc.svcState.onW

theorem updFrame (e : w.Canonical) {h : Half} {f : Frame → Frame} : (w.updFrame h f).Canonical :=
  of_rest e (World.updFrame_rest (by decide) (Rest.refl _ _))

theorem overload (e : w.Canonical) {h : Half} {cause n : Nat} : (w.overload h cause n).Canonical := (e.when fun _ e => e.raise).updFrame

theorem frameEnd (e : w.Canonical) {h : Half} {busy : Nat} : (w.frameEnd h busy).Canonical :=
  of_rest e (World.frameEnd_rest (by decide) (Rest.refl _ _))

theorem frameStart (e : w.Canonical) {h : Half} {busy c0 c1 : Nat} : (w.frameStart h busy c0 c1).Canonical :=
  (((e.frameEnd.when fun _ e => e.overload).when fun _ e => e.overload).when fun _ e => e.overload).updFrame.notePour

theorem watchdogExpire (e : s.w.Canonical) {h : Half} : (s.watchdogExpire h).w.Canonical := e.fall.hold

theorem logRec (e : w.Canonical) {h : Half} {r : EvRec} : (w.logRec h r).Canonical := (e.when fun _ e => e.wr).putMem.wr

theorem knockObj (e : w.Canonical) {k : Nat} : (w.knockObj k).Canonical := by
  unfold World.knockObj
  split
  · exact e.knockValve
  · exact e.knockSwitch
  · exact e.knockInput
  · exact e.knockCan
  · exact e

theorem pendVec (e : w.Canonical) {h : Half} {t : Route} : (w.pendVec h t).Canonical :=
  of_rest e (World.pendVec_rest (by decide) (Rest.refl _ _))

theorem deliver (e : s.w.Canonical) {h : Half} {r : EvRec} {rest : List EvRec} : (s.deliver h r rest).w.Canonical :=
  (((((e.updEvt fun _ => by rfl).forAll fun _ _ e => e.knockObj).forAll fun _ _ e => e.pendVec).logRec.when fun _ e =>
    e.logRec.xngSent.xngGot).updEvt fun _ => Router.report_logs _ _ _).onW

theorem setSlot (e : w.Canonical) {h : Half} {k : Nat} {x : KnockSlot} : (w.setSlot h k x).Canonical := e.updEvt fun _ => by rfl

theorem freeSlots (e : w.Canonical) {h : Half} {init : Nat} : (w.freeSlots h init).Canonical := e.forAll fun _ _ e => e.setSlot.setReg

theorem slotRes (e : w.Canonical) {h : Half} {k : Nat} {busy : Bool} {res cls idx : Nat} : (w.slotRes h k busy res cls idx).Canonical :=
  of_rest e (World.slotRes_rest (by decide) (Rest.refl _ _))

theorem knockClass0 (e : s.w.Canonical) {h : Half} {init idx : Nat} {again : Bool} : (s.knockClass0 h init idx again).1.w.Canonical :=
  iteFstS e (iteFstS (e.whenS fun _ e => e.violation.onW) (iteFstS e (iteFstS e e.knockObj.onW)))

theorem knockClass2 (e : s.w.Canonical) {h : Half} {idx : Nat} : (s.knockClass2 h idx).1.w.Canonical := by
  unfold State.knockClass2
  split
  · exact iteFstS e e.knockChan.onW
  · exact iteFstS e (onW (f := fun w => w.knockAcq h (idx - 192)) e.knockAcq)

theorem knockClass5 (e : s.w.Canonical) {h : Half} {idx : Nat} : (s.knockClass5 h idx).w.Canonical :=
  iteS (e.activateKnock.whenS fun _ e => e.updRes.onW) e.knockSess.onW

theorem knock (e : s.w.Canonical) {h : Half} {init cls idx tc : Nat} {jobs : List Nat} {again : Bool} :
    (s.knock h init cls idx tc jobs again).1.w.Canonical := by
  unfold State.knock
  split
  · exact e.knockClass0
  · exact iteFstS e (e.whenS fun _ e => e.knockPipes.onW)
  · exact iteFstS e (iteFstS e e.knockClass2)
  · exact iteFstS e (e.whenS fun _ e => e.knockJobs.onW)
  · exact iteFstS e (iteFstS e e)
  · exact iteFstS (e.whenS fun _ e => e.knockClass5) e
  · exact e

theorem knockIn (e : s.w.Canonical) {h : Half} {init cls idx tc : Nat} {jobs : List Nat} {k : Nat} :
    (s.knockIn h init cls idx tc jobs k).w.Canonical := by
  unfold State.knockIn
  refine (?_ : World.Canonical _).onW
  split
  · exact e.knock.setSlot.slotRes
  · exact e.knock.setSlot.slotRes
  · exact e.knock.setSlot.slotRes

theorem reportLost (e : w.Canonical) {h : Half} : (w.reportLost h).Canonical :=
  e.when fun _ e => e.updEvt fun _ => Router.report_logs _ _ _

end World.Canonical
end Sys2Proof.Machine
end

section
/-!
SUPPORT. The meanings of commands that keep the memories canonical: the shapes in which they are written.
-/
namespace Sys2Proof.Machine

/-- The state that an outcome goes to, if any, holds its memories in canonical form. -/
def Lands (o : Out) : Prop := ∀ t, o = .next t → t.w.Canonical

namespace World.Canonical

variable {w : World} {s : State}

theorem next (e : s.w.Canonical) : Lands (.next s) := by
  intro t ht
  injection ht with ht
  rw [← ht]
  exact e

theorem lift {f : World → World} (e : (f s.w).Canonical) : Lands (Machine.lift s f) := next (s := { s with w := f s.w }) e

theorem putW (e : w.Canonical) : Lands (Machine.putW s w) := next (s := { s with w := w }) e

theorem iteO {c : Prop} [Decidable c] {a b : Out} (ha : Lands a) (hb : Lands b) : Lands (if c then a else b) := by
  split
  · exact ha
  · exact hb

/-! Writes that an object's owner makes. -/

theorem canGate {h : Half} {i : Nat} {f : World → Nat → World} (e : s.w.Canonical) (hf : ∀ n, (f s.w n).Canonical) :
    (Machine.canGate s h i f).Canonical := by
  unfold Machine.canGate
  exact e.gateObj (hf _)

theorem valveWrite {h : Half} {i : Nat} {f : Nat → World → World} (e : s.w.Canonical) (hf : ∀ n, (f n s.w).Canonical) :
    Lands (Machine.valveWrite s h i f) := iteO (next e) (iteO (next e) (putW (e.gateObj (ite e (hf _)))))

theorem switchWrite {h : Half} {i : Nat} {f : Nat → World → World} (e : s.w.Canonical) (hf : ∀ n, (f n s.w).Canonical) :
    Lands (Machine.switchWrite s h i f) := iteO (next e) (putW (e.gateObj (ite e (hf _))))

theorem inputWrite {h : Half} {i : Nat} {f : Nat → World → World} (e : s.w.Canonical) (hf : ∀ n, (f n s.w).Canonical) :
    Lands (Machine.inputWrite s h i f) := by
  unfold Machine.inputWrite
  exact putW (e.gateObj (hf _))

theorem gateWrite {h : Half} {i : Nat} {g : Gate} {f : World → World} (e : s.w.Canonical) (hf : (f s.w).Canonical) :
    (Machine.gateWrite s h i g f).Canonical := by
  cases g with
  | free => exact hf
  | obj k => exact e.gateObj hf
  | anyOf a n k => exact e.gateAny hf

/-- A recipe word that is the instruction does its effect. -/
theorem instr {ch op : Nat} {f : World → Nat → World} (e : w.Canonical) (hf : ∀ v, (f w v).Canonical) : (w.instr ch op f).Canonical := by
  unfold World.instr
  split
  · exact ite (hf _) e
  · exact e

/-! A posted write takes effect. -/

theorem writeSel (e : w.Canonical) {h : Half} {init blk v : Nat} : (w.writeSel h init blk v).Canonical := by
  unfold World.writeSel
  split
  · exact e.wr.when fun _ e => e.raise
  · exact e

theorem writeLock (e : w.Canonical) {h : Half} {init blk : Nat} {v : Word} : (w.writeLock h init blk v).Canonical :=
  ite e.wr (e.when fun _ e => e.violation)

theorem writeHold (e : w.Canonical) {h : Half} {init : Nat} {v : Word} : (w.writeHold h init v).Canonical :=
  (e.when fun _ e => e.wrBoth).when fun _ e => e.setHoldReq

theorem writeVec (e : w.Canonical) {h : Half} {init reg k : Nat} {v : Word} : (w.writeVec h init reg k v).Canonical := by
  unfold World.writeVec
  split
  · exact e
  · exact ite e.setReg e.setReg

theorem plainWrite (e : w.Canonical) {h : Half} {serves : Bool} {d : RegDef} {blk i k : Nat} {v : Word} :
    (w.plainWrite h serves d blk i k v).Canonical :=
  e.when fun _ e => e.setReg.when fun _ e => e.setReg

theorem regWrite (e : s.w.Canonical) {h : Half} {init blk : Nat} {d : RegDef} {k x sel i : Nat} {v : Word} :
    (s.regWrite h init blk d k x sel i v).Canonical :=
  ite e.writeSel (ite e.writeLock (ite e.writeHold (ite e.writeVec (ite e (ite (e.gateWrite e.writeSig) (e.gateWrite e.plainWrite))))))

theorem busWrite (e : s.w.Canonical) {h : Half} {init : Nat} {p : PWrite} : (s.busWrite h init p).w.Canonical := by
  change (s.writeWorld h init p).Canonical
  unfold State.writeWorld
  split
  · exact e
  · dsimp only
    split
    · exact e
    · exact e.regWrite

end World.Canonical
end Sys2Proof.Machine
end

section
/-!
SUPPORT. Operations of commands alone that name no memory.
-/
namespace Sys2Proof.Machine
namespace World.Canonical
variable {w : World} {s : State}

theorem setTgt (e : w.Canonical) {ch tgt amp : Nat} : (w.setTgt ch tgt amp).Canonical :=
  of_rest e (World.setTgt_rest (by decide) (Rest.refl _ _))

theorem askTgt (e : w.Canonical) {ch want amp : Nat} {holds : Bool} : (w.askTgt ch want amp holds).Canonical :=
  of_rest e (World.askTgt_rest (by decide) (Rest.refl _ _))

theorem updComp (e : w.Canonical) {n : Nat} {f : Comp → Comp} : (w.updComp n f).Canonical :=
  of_rest e (World.updComp_rest (by decide) (Rest.refl _ _))

theorem sampleInput (e : w.Canonical) {led : Memory} {srv : Half} {codes vs : List Nat} {b : Nat} {c : BindCfg} :
    (w.sampleInput led srv codes vs b c).Canonical :=
  of_rest e (World.sampleInput_rest (by decide) (Rest.refl _ _))

theorem quadCount (e : w.Canonical) {n : Nat} {d : Int} : (w.quadCount n d).Canonical :=
  of_rest e (World.quadCount_rest (by decide) (Rest.refl _ _))

theorem updSupply (e : w.Canonical) {n : Nat} {f : Supply → Supply} : (w.updSupply n f).Canonical :=
  of_rest e (World.updSupply_rest (by decide) (Rest.refl _ _))

theorem updElem (e : w.Canonical) {k : Nat} {f : Elem → Elem} : (w.updElem k f).Canonical :=
  of_rest e (World.updElem_rest (by decide) (Rest.refl _ _))

theorem setMres (e : w.Canonical) {h : Half} {m v : Nat} : (w.setMres h m v).Canonical :=
  of_rest e (World.setMres_rest (by decide) (Rest.refl _ _))

theorem grindStep (e : w.Canonical) {h : Half} {t : Nat} : (w.grindStep h t).Canonical :=
  of_rest e (World.grindStep_rest (by decide) (Rest.refl _ _))

theorem ageLate (e : w.Canonical) {h : Half} : (w.ageLate h).Canonical :=
  of_rest e (World.ageLate_rest (by decide) (Rest.refl _ _))

theorem startChan (e : w.Canonical) {h : Half} {c : Nat} {carr : Int} {code : Nat} {handoff : Bool} :
    (w.startChan h c carr code handoff).Canonical :=
  of_rest e (World.startChan_rest (by decide) (Rest.refl _ _))

theorem showSol (e : w.Canonical) {h : Half} {x : Sol} : (w.showSol h x).Canonical :=
  of_rest e (World.showSol_rest (by decide) (Rest.refl _ _))

theorem abortAll (e : w.Canonical) {n : Nat} {act : Bool} : (w.abortAll n act).Canonical :=
  of_rest e (World.abortAll_rest (by decide) (Rest.refl _ _))

theorem canLeaveGreen (e : w.Canonical) {n : Nat} : (w.canLeaveGreen n).Canonical :=
  of_rest e (World.canLeaveGreen_rest (by decide) (Rest.refl _ _))

theorem setCanMode (e : w.Canonical) {n m : Nat} : (w.setCanMode n m).Canonical :=
  of_rest e (World.setCanMode_rest (by decide) (Rest.refl _ _))

theorem updSw (e : w.Canonical) {n : Nat} {f : Sw → Sw} : (w.updSw n f).Canonical :=
  of_rest e (World.updSw_rest (by decide) (Rest.refl _ _))

theorem swWait (e : w.Canonical) {n prof : Nat} : (w.swWait n prof).Canonical :=
  of_rest e (World.swWait_rest (by decide) (Rest.refl _ _))

theorem swCmd (e : w.Canonical) {n : Nat} {on : Bool} : (w.swCmd n on).Canonical :=
  of_rest e (World.swCmd_rest (by decide) (Rest.refl _ _))

theorem swTemp (e : w.Canonical) {n : Nat} {tj : Int} : (w.swTemp n tj).Canonical :=
  of_rest e (World.swTemp_rest (by decide) (Rest.refl _ _))

theorem putSeg (e : w.Canonical) {i : Nat} {on : Bool} : (w.putSeg i on).Canonical :=
  of_rest e (World.putSeg_rest (by decide) (Rest.refl _ _))

theorem updFan (e : w.Canonical) {c : Nat} {f : Fan → Fan} : (w.updFan c f).Canonical :=
  of_rest e (World.updFan_rest (by decide) (Rest.refl _ _))

theorem fanTarget (e : w.Canonical) {c : Nat} : (w.fanTarget c).2.Canonical :=
  of_rest e (World.fanTarget_rest (by decide) (Rest.refl _ _))

theorem fanLoop (e : w.Canonical) {c tgt rpm : Nat} : (w.fanLoop c tgt rpm).Canonical :=
  of_rest e (World.fanLoop_rest (by decide) (Rest.refl _ _))

theorem startKick (e : w.Canonical) {c k : Nat} : (w.startKick c k).Canonical :=
  of_rest e (World.startKick_rest (by decide) (Rest.refl _ _))

theorem endKick (e : w.Canonical) {c : Nat} : (w.endKick c).Canonical :=
  of_rest e (World.endKick_rest (by decide) (Rest.refl _ _))

theorem readTs (e : w.Canonical) {ts : Int} : (w.readTs ts).Canonical :=
  of_rest e (World.readTs_rest (by decide) (Rest.refl _ _))

theorem setLevels (e : w.Canonical) {h : Half} : (w.setLevels h).Canonical :=
  of_rest e (World.setLevels_rest (by decide) (Rest.refl _ _))

theorem trkTakeover (e : w.Canonical) {h : Half} : (w.trkTakeover h).Canonical :=
  of_rest e (World.trkTakeover_rest (by decide) (Rest.refl _ _))

theorem showLink (e : w.Canonical) {h : Half} {k speed : Nat} {master : Bool} : (w.showLink h k speed master).Canonical :=
  of_rest e (World.showLink_rest (by decide) (Rest.refl _ _))

theorem flxTake (e : w.Canonical) {h : Half} {k seq ack : Nat} : (w.flxTake h k seq ack).Canonical :=
  of_rest e (World.flxTake_rest (by decide) (Rest.refl _ _))

theorem setStatus (e : w.Canonical) {h : Half} : (w.setStatus h).Canonical :=
  of_rest e (World.setStatus_rest (by decide) (Rest.refl _ _))

theorem noteGuards (e : w.Canonical) {h : Half} : (w.noteGuards h).Canonical :=
  of_rest e (World.noteGuards_rest (by decide) (Rest.refl _ _))

theorem optLearn (e : w.Canonical) {h : Half} {u : Rat} : (w.optLearn h u).Canonical :=
  of_rest e (World.optLearn_rest (by decide) (Rest.refl _ _))

theorem optMode (e : w.Canonical) {h : Half} : (w.optMode h).Canonical :=
  of_rest e (World.optMode_rest (by decide) (Rest.refl _ _))

theorem ditherSet (e : w.Canonical) {h : Half} {ok : Bool} : (w.ditherSet h ok).Canonical :=
  of_rest e (World.ditherSet_rest (by decide) (Rest.refl _ _))

theorem optResult (e : w.Canonical) {h : Half} {res iter dur dropped : Nat} : (w.optResult h res iter dur dropped).Canonical :=
  of_rest e (World.optResult_rest (by decide) (Rest.refl _ _))

theorem activateAsk (e : s.w.Canonical) {h : Half} : (s.activateAsk h).w.Canonical :=
  of_rest e (State.activateAsk_rest (by decide) (Rest.refl _ _))

theorem setStep (e : s.w.Canonical) {a : Activation} {k : Nat} : (s.setStep a k).w.Canonical :=
  of_rest e (State.setStep_rest (by decide) (Rest.refl _ _))

theorem commitRoast (e : w.Canonical) {n : Half} : (w.commitRoast n).Canonical :=
  of_rest e (World.commitRoast_rest (by decide) (Rest.refl _ _))

theorem svcAsk (e : w.Canonical) {op target : Nat} : (w.svcAsk op target).Canonical :=
  of_rest e (World.svcAsk_rest (by decide) (Rest.refl _ _))

theorem tileCal (e : s.w.Canonical) {t : Nat} {serial : List Byte} {cal : List (List Byte)} : (s.tileCal t serial cal).w.Canonical :=
  of_rest e (State.tileCal_rest (by decide) (Rest.refl _ _))

theorem chanAgain (e : w.Canonical) {ch : Nat} : (w.chanAgain ch).Canonical :=
  of_rest e (World.chanAgain_rest (by decide) (Rest.refl _ _))

end World.Canonical
end Sys2Proof.Machine
end

section
/-!
SUPPORT. Every command whose footprint names a memory keeps the memories canonical.
-/
namespace Sys2Proof.Machine
namespace World.Canonical
variable {w : World} {s : State}

theorem flxGot (e : s.w.Canonical) {h : Half} {k ty seq ack : Nat} {p : List Byte} : Lands (s.flxGot h k ty seq ack p) :=
  lift (e.when fun _ e => e.flxTake.flxAct)

theorem execVlvCommand (e : s.w.Canonical) {h : Half} {init : Nat} {on : Bool} : Lands (execVlvCommand h init on s) :=
  e.valveWrite fun _ => e.valveCmd

theorem execVlvSetpointWrite (e : s.w.Canonical) {h : Half} {init v : Nat} : Lands (execVlvSetpointWrite h init v s) :=
  e.valveWrite fun _ => e.valveSetpoint

theorem execVlvClrFault (e : s.w.Canonical) {h : Half} {init : Nat} : Lands (execVlvClrFault h init s) :=
  e.valveWrite fun _ => e.when fun _ e => e.wr

theorem execVlvKnock (e : s.w.Canonical) {h : Half} {init : Nat} : Lands (execVlvKnock h init s) := e.valveWrite fun _ => e.knockValve

theorem execVlvClrCnt (e : s.w.Canonical) {h : Half} {init : Nat} : Lands (execVlvClrCnt h init s) :=
  iteO (next e) (putW (e.gateAny (e.forAll fun _ _ e => e.setReg)))

theorem execEngineStart (e : s.w.Canonical) {ch : Nat} : Lands (execEngineStart ch s) :=
  lift (e.when fun _ e => e.engineStart.svcTwinLost)

theorem execBankWaitTimeout (e : s.w.Canonical) {ch : Nat} : Lands (execBankWaitTimeout ch s) := by
  unfold Machine.execBankWaitTimeout
  refine lift ?_
  split
  · exact e
  · exact ite e ((ite e.vlvEvent.updEng e.vlvEvent.setTgt.updEng.wr).when fun _ e => e.advance)

theorem execDutyEvaluation (e : s.w.Canonical) {ch i : Nat} : Lands (execDutyEvaluation ch i s) := by
  unfold Machine.execDutyEvaluation
  refine lift ?_
  split
  · exact e
  · exact ite e.wr.updEng.wr.wr.wr.vlvEvent (ite e.wr.updEng.wr.wr.wr e.wr.updEng.wr.wr)

theorem execBoostRailLow (e : s.w.Canonical) {t v : Nat} : Lands (execBoostRailLow t v s) :=
  lift (e.wr.when fun _ e => (e.forAll fun _ _ e => e.when fun _ e => e.wr).wr.vlvEvent)

theorem execTwinPartnerLoss (e : s.w.Canonical) {ch : Nat} : Lands (execTwinPartnerLoss ch s) := by
  unfold Machine.execTwinPartnerLoss
  refine lift ?_
  split
  · exact e
  · exact e.when fun _ e => e.updEng.askTgt.wr.vlvEvent

theorem execTwinPartnerReturn (e : s.w.Canonical) {ch : Nat} : Lands (execTwinPartnerReturn ch s) := by
  unfold Machine.execTwinPartnerReturn
  refine lift ?_
  split
  · exact e
  · exact e.when fun _ e => e.startEngine

theorem execTwinScaleMergeEnd (e : s.w.Canonical) {ch : Nat} : Lands (execTwinScaleMergeEnd ch s) := by
  unfold Machine.execTwinScaleMergeEnd
  refine lift ?_
  split
  · exact e.when fun _ e => (e.forAll fun _ _ e => e.updEng).wr.wr.vlvEvent
  · exact e

theorem execVlvShort (e : s.w.Canonical) {ch i : Nat} : Lands (execVlvShort ch i s) := lift (e.when fun _ e => e.wr.vlvFault)

theorem execVlvOpenLoad (e : s.w.Canonical) {ch i : Nat} : Lands (execVlvOpenLoad ch i s) := lift (e.when fun _ e => e.wr.vlvFault)

theorem execVlvOvertemp (e : s.w.Canonical) {t : Nat} {temp : Int} : Lands (execVlvOvertemp t temp s) :=
  lift (e.wrI.when fun _ e => (e.forAll fun _ _ e => e.vlvFault).vlvEvent)

theorem execVlvHsShort (e : s.w.Canonical) {bank i : Nat} : Lands (execVlvHsShort bank i s) :=
  lift (e.when fun _ e => e.forAll fun _ _ e => e.vlvFault)

theorem execTileAbsent (e : s.w.Canonical) {t : Nat} : Lands (execTileAbsent t s) :=
  lift (e.when fun _ e => (e.wr.wr.updTile.wr.forAll fun _ _ e => e.vlvFault).vlvEvent.when fun _ e => e.svcState)

theorem execVlvProbe (e : s.w.Canonical) {ch : Nat} {continuity : Bool} : Lands (execVlvProbe ch continuity s) :=
  lift (e.when fun _ e => ite e.updEng e.updEng.vlvFault)

theorem execTwinDivergenceTimeout (e : s.w.Canonical) {h : Half} {k : Nat} : Lands (execTwinDivergenceTimeout h k s) := lift e.twinTime

theorem execTwinAgreementTimeout (e : s.w.Canonical) {h : Half} {k : Nat} : Lands (execTwinAgreementTimeout h k s) := lift e.twinTime

theorem execInputSample (e : s.w.Canonical) {codes vs : List Nat} : Lands (execInputSample codes vs s) :=
  lift (ite e (((e.forAll fun _ _ e => e.wr).foldl fun _ _ e => ite e.sampleInput e).compareOf.foldl fun _ _ e => ite e.publish e))

theorem execInputEdge (e : s.w.Canonical) {n : Nat} {level both : Bool} : Lands (execInputEdge n level both s) := by
  unfold Machine.execInputEdge
  refine lift ?_
  split
  · exact e
  · exact ite (ite e.updComp.updBind.updBind.updComp.quadError e.updComp.updBind.updBind.quadCount) e.updComp.updBind.updBind

theorem execQualityConditionTimer (e : s.w.Canonical) {h : Half} {b q reason : Nat} {on : Bool} :
    Lands (execQualityConditionTimer h b q reason on s) :=
  lift (ite e e.updBind.bindUpdated)

theorem execStuckTimeout (e : s.w.Canonical) {h : Half} {b : Nat} : Lands (execStuckTimeout h b s) :=
  lift (e.when fun _ e => e.updBind.bindUpdated)

theorem execUinKnock (e : s.w.Canonical) {h : Half} {init : Nat} : Lands (execUinKnock h init s) := e.inputWrite fun _ => e.knockInput

theorem execUinPreset (e : s.w.Canonical) {h : Half} {init : Nat} : Lands (execUinPreset h init s) := e.inputWrite fun _ => e.wr.wr

theorem execUinClrCnt (e : s.w.Canonical) {h : Half} {init : Nat} : Lands (execUinClrCnt h init s) :=
  putW (e.gateAny (e.forAll fun _ _ e => e.setReg))

theorem execSupplyLimitTrip (e : s.w.Canonical) {n i : Nat} : Lands (execSupplyLimitTrip n i s) :=
  lift (e.when fun _ e => e.wr.wr.wr.updSupply.raiseBoth.supplyFault)

theorem execSupplyRetry (e : s.w.Canonical) {n : Nat} {limited : Bool} : Lands (execSupplyRetry n limited s) :=
  lift (e.when fun _ e => ite e.updSupply e.wr.raiseBoth)

theorem execSupplyEnable (e : s.w.Canonical) {h : Half} {init : Nat} {en : Bool} : Lands (execSupplyEnable h init en s) :=
  putW (e.gateObj (ite (e.wr.when fun _ e => e.wr.raiseBoth) e.wr.updSupply))

theorem execExternalBindingWrite (e : s.w.Canonical) {h : Half} {b v : Nat} : Lands (execExternalBindingWrite h b v s) :=
  lift e.externalWrite

theorem execLossWindow (e : s.w.Canonical) : Lands (execLossWindow s) :=
  lift ((e.forAll fun _ _ e => e.wr.wr.wr.wr.when fun _ e => e.raiseBoth).wr.wr.wr.wr.wr.wr.set_uin.losOutcomes.foldl fun _ _ e => ite
    e.losBinding e)

theorem execLossBiasCheck (e : s.w.Canonical) {k : Nat} {pass : Bool} : Lands (execLossBiasCheck k pass s) :=
  lift (e.updElem.wr.wr.when fun _ e => e.raiseBoth)

theorem execLossSilentTimeout (e : s.w.Canonical) {k : Nat} : Lands (execLossSilentTimeout k s) :=
  lift (e.when fun _ e => e.updElem.wr.raiseBoth)

theorem execLosClsWrite (e : s.w.Canonical) {h : Half} {init v : Nat} : Lands (execLosClsWrite h init v s) := putW (e.gateAny e.wr)

theorem execLosClrCnt (e : s.w.Canonical) {h : Half} {init : Nat} : Lands (execLosClrCnt h init s) := putW (e.gateAny e.wr)

theorem execPullKinkConfirm (e : s.w.Canonical) {ch k : Nat} : Lands (execPullKinkConfirm ch k s) := lift e.kinkFound

theorem execCloseKinkDetect (e : s.w.Canonical) {ch k : Nat} : Lands (execCloseKinkDetect ch k s) := lift e.kinkFound

theorem execKinkWindowClose (e : s.w.Canonical) {ch : Nat} : Lands (execKinkWindowClose ch s) := by
  unfold Machine.execKinkWindowClose
  refine lift ?_
  split
  · exact e.when fun _ e => e.updEng.travelReport.when fun _ e => e.advance
  · exact e

theorem execEvt (e : s.w.Canonical) {ch : Nat} : Lands (execEvt ch s) := lift (e.instr fun _ => e.wr.vlvEvent.advance)

theorem execRecipeIllegal (e : s.w.Canonical) {ch : Nat} {parity : Bool} : Lands (execRecipeIllegal ch parity s) :=
  lift (e.when fun _ e => e.vlvFault)

theorem execSeqStepTimeout (e : s.w.Canonical) {h : Half} {n : Nat} : Lands (execSeqStepTimeout h n s) :=
  lift (e.when fun _ e => e.updFn.wr.when fun _ e => e.raise)

theorem execSteerDisengage (e : s.w.Canonical) {h : Half} {init : Nat} : Lands (execSteerDisengage h init s) := lift e.steerRelease

theorem execSteerReleaseTimeout (e : s.w.Canonical) {h : Half} : Lands (execSteerReleaseTimeout h s) :=
  lift (ite e.steerRelease (ite e.steerRelease e))

theorem execExecutorCycle (e : s.w.Canonical) {h : Half} {rate spread : Nat} {late : List Nat} :
    Lands (execExecutorCycle h rate spread late s) :=
  lift (e.when fun _ e => ((e.forAll fun _ _ e => ite e.updSet (ite e e.fnCycle)).wr.when fun _ e => e.noteGuards.updSet).setStatus)

theorem execCycleOverrun (e : s.w.Canonical) {h : Half} {n : Nat} : Lands (execCycleOverrun h n s) :=
  lift (e.when fun _ e => e.updFn.bump.setStatus.raise)

theorem execConflictHoldExpiry (e : s.w.Canonical) {h : Half} {n : Nat} : Lands (execConflictHoldExpiry h n s) :=
  lift (e.when fun _ e => e.updFn.wr.when fun _ e => e.steerRelease)

theorem execSetStateRequest (e : s.w.Canonical) {h : Half} {init dst : Nat} : Lands (execSetStateRequest h init dst s) :=
  lift (e.when fun _ e => ite e.wr.transit (e.wr.wr.raise.when fun _ e => e.raise))

theorem execAutoTransition (e : s.w.Canonical) {h : Half} {i : Nat} : Lands (execAutoTransition h i s) :=
  lift (e.when fun _ e => e.transit)

theorem execOptSolve (e : s.w.Canonical) {h : Half} {sol : OptSol} : Lands (execOptSolve h sol s) :=
  lift (ite e (ite e.free.optMode.optLearn.updOpt.optResult.ditherSet (ite e.free.optMode.optLearn.updOpt.optResult.ditherSet (ite e
    (ite e.free.optMode.optLearn.updOpt.optResult.optFeasible e.free.optMode.optLearn.updOpt.optResult.optFallback).ditherSet))))

theorem execBackplanePowerOn (e : s.w.Canonical) {t1 t0 : Bool} {tiles : Nat} : Lands (execBackplanePowerOn t1 t0 tiles s) :=
  next (e.whenS fun _ e => onW (e.replayJournal.backplaneOn.when fun _ e => e.wr))

theorem execHalfResetRelease (e : s.w.Canonical) {h : Half} : Lands (execHalfResetRelease h s) := next (e.whenS fun _ e => e.letRun)

theorem execUpdRestart (e : s.w.Canonical) {h : Half} : Lands (execUpdRestart h s) := next (e.whenS fun _ e => e.restart)

theorem execBloom (e : s.w.Canonical) {h : Half} {k : Nat} : Lands (execBloom h k s) := next (e.whenS fun _ e => (onW e.updRun).bloomStep)

theorem execPourEntry (e : s.w.Canonical) {h : Half} : Lands (execPourEntry h s) :=
  lift (e.when fun _ e => (e.when fun _ e => e.wr).wr.raise)

theorem execPourExit (e : s.w.Canonical) {h : Half} : Lands (execPourExit h s) := lift (e.when fun _ e => e.wr.raise)

theorem execRoastSiblingFetch (e : s.w.Canonical) {h : Half} {pending : Bool} : Lands (execRoastSiblingFetch h pending s) :=
  iteO (next (e.whenS fun _ e => onW (e.wr.set_roast.setRegion.when fun _ e => e.roastReject))) (next (e.whenS fun _ e => iteS (onW
    e.set_roast).restart (onW e.roastReject)))

theorem execRoastActivateRequest (e : s.w.Canonical) {h : Half} {k : Nat} : Lands (execRoastActivateRequest h k s) := by
  unfold Machine.execRoastActivateRequest
  refine iteO (next (e.whenS fun _ e => e.activateAsk)) ?_
  split
  · exact next (e.whenS fun _ e => e.activateEnd)
  · split
    · exact next (e.whenS fun _ e => (e.whenS fun _ e => e.handoverAllNow).setStep)
    · exact next (e.whenS fun _ e => e.setStep.activateTrial)
    · exact next (e.whenS fun _ e => onW e.setStep.commitRoast)
    · exact next (e.whenS fun _ e => e.setStep.activatePass)
    · exact next (e.whenS fun _ e => e.setStep.activateAdopt)
    · exact next (e.whenS fun _ e => e.setStep.activateOld)
    · exact next (e.whenS fun _ e => e.activateEnd)
    · exact next (e.whenS fun _ e => e.activateDrop)
    · exact next e

theorem execWakeRequest (e : s.w.Canonical) {h : Half} {can : Option Nat} {ms_ : List CupMeas} : Lands (execWakeRequest h can ms_ s) :=
  next (e.whenS fun _ e => (onW (e.when fun _ e => (e.when fun _ e => e.cupStop).cupWritten).updShut).whenS fun _ e => e.letRun)

theorem execShutdown (e : s.w.Canonical) {h : Half} {k : Nat} {c : CupCond} : Lands (execShutdown h k c s) := by
  unfold Machine.execShutdown
  refine next ?_
  split
  · exact e.whenS fun _ e => e.shutBegin
  · exact e.whenS fun _ e => e.shutRelease
  · exact e.whenS fun _ e => e.cupStart
  · exact e

theorem execPowerFail (e : s.w.Canonical) {wrote : Bool} {ma mb : List CupMeas} : Lands (execPowerFail wrote ma mb s) :=
  next (e.whenS fun _ e => onW (onW e.updPwr.updLatch).failHalf.failHalf.latchEval)

theorem execPowerFailRecovery (e : s.w.Canonical) {v : Nat} : Lands (execPowerFailRecovery v s) :=
  next (e.whenS fun _ e => (onW e.updPwr.updLatch.wr.wr.wr.fanDuties.latchEval).startAgain.startAgain)

theorem execSysShdnAssert (e : s.w.Canonical) {ts : Int} : Lands (execSysShdnAssert ts s) :=
  lift (e.readTs.when fun _ e => e.wr.wr.bump.updPwr.pwrEvent.greenAll)

theorem execSysShdnHalfReset (e : s.w.Canonical) : Lands (execSysShdnHalfReset s) := next (e.whenS fun _ e => e.resetHalf.resetHalf)

theorem execSysShdnRelease (e : s.w.Canonical) {ts : Int} : Lands (execSysShdnRelease ts s) :=
  next ((onW e.readTs).whenS fun _ e => iteS (iteS (onW e.wr.wr.pwrEvent).startAgain (onW e.wr.wr.pwrEvent)).startAgain (iteS (onW
    e.wr.wr.pwrEvent).startAgain (onW e.wr.wr.pwrEvent)))

theorem execPlannedMove (e : s.w.Canonical) {h : Half} {n : Nat} : Lands (execPlannedMove h n s) :=
  next (e.whenS fun _ e => iteS e.moveGroup (onW e.ownResult))

theorem execHandbackMove (e : s.w.Canonical) : Lands (execHandbackMove s) := by
  unfold Machine.execHandbackMove
  dsimp only
  split
  · exact next e
  · split
    · exact next (onW (e.when fun _ e => e.svcState))
    · exact next ((onW (e.when fun _ e => e.svcState)).whenS fun _ e => (onW e.updSvc).whenS fun _ e => e.moveGroup)

theorem execPrepareHalf (e : s.w.Canonical) {h : Half} {init target : Nat} : Lands (execPrepareHalf h init target s) :=
  next (e.whenS fun _ e => iteS (onW (onW e.svcAsk).svcState) (onW e.svcAsk).prepareHalf)

theorem execPrepareTile (e : s.w.Canonical) {h : Half} {init t : Nat} : Lands (execPrepareTile h init t s) := by
  unfold Machine.execPrepareTile
  refine next (e.whenS fun _ e => onW (ite e.svcAsk.svcState (ite e.svcAsk.svcState (ite e.svcAsk.svcState ?_))))
  split
  · exact e.svcAsk.wrBoth.svcState
  · exact e.svcAsk.updSvc.svcState

theorem execSvcCancel (e : s.w.Canonical) {h : Half} {init : Nat} : Lands (execSvcCancel h init s) := next (e.whenS fun _ e => e.svcEnd)

theorem execPrepareTimeout (e : s.w.Canonical) : Lands (execPrepareTimeout s) := next (e.whenS fun _ e => e.svcEnd)

theorem execFanReset (e : s.w.Canonical) {h : Half} {init : Nat} : Lands (execFanReset h init s) :=
  next (e.whenS fun _ e => onW (ite e.svcAsk.wrBoth.wrBoth.svcState e.svcAsk.svcState))

theorem execHoldupReset (e : s.w.Canonical) {h : Half} {init : Nat} : Lands (execHoldupReset h init s) :=
  next (e.whenS fun _ e => onW (ite e.svcAsk.wrBoth.wrBoth.wrBoth.svcState e.svcAsk.svcState))

theorem execCartridgePresenceOpen (e : s.w.Canonical) {h : Half} : Lands (execCartridgePresenceOpen h s) :=
  next (e.whenS fun _ e => onW e.fall.hold.updSvc.updRun.svcState)

theorem execCartridgeInsert (e : s.w.Canonical) {h : Half} {c : Option Cartridge} : Lands (execCartridgeInsert h c s) := by
  unfold Machine.execCartridgeInsert
  refine next (e.whenS fun _ e => onW (World.Canonical.svcState (World.Canonical.updSvc ?_)))
  split
  · exact e.onOwn.halfOff
  · have off := e.halfOff (h := h)
    exact ⟨off.half, off.log, off.panel⟩

theorem execTileReady (e : s.w.Canonical) {t rail : Nat} {serial : List Byte} {cal : List (List Byte)} :
    Lands (execTileReady t rail serial cal s) :=
  next (e.whenS fun _ e => onW (((e.tileCal.updTile.wr.wr.forAll fun _ _ e => e.chanAgain).when fun _ e => e.svcState).when fun _ e =>
    e.updSvc))

theorem execClaim (e : s.w.Canonical) {h : Half} {k : Nat} : Lands (execClaim h k s) := next (e.whenS fun _ e => e.claim)

theorem execClaimComplete (e : s.w.Canonical) {k : Nat} : Lands (execClaimComplete k s) := by
  unfold Machine.execClaimComplete
  split
  · exact next e.owned.settle
  · exact next e

theorem execRelease (e : s.w.Canonical) {h : Half} {k : Nat} : Lands (execRelease h k s) := next (e.whenS fun _ e => e.release)

theorem execHandover (e : s.w.Canonical) {h : Half} {k : Nat} : Lands (execHandover h k s) := next (e.whenS fun _ e => e.handover)

theorem execHandoverComplete (e : s.w.Canonical) {k : Nat} : Lands (execHandoverComplete k s) := next e.handoverDone

theorem execHandoverAll (e : s.w.Canonical) {h : Half} : Lands (execHandoverAll h s) := next (e.whenS fun _ e => e.handoverAll)

theorem execServerRequest (e : s.w.Canonical) {h : Half} : Lands (execServerRequest h s) := next e.serverReq

theorem execOrphanTimerExpiry (e : s.w.Canonical) {k : Nat} : Lands (execOrphanTimerExpiry k s) := next (e.whenS fun _ e => e.expire)

theorem execOrphanTWrite (e : s.w.Canonical) {h : Half} {init v : Nat} : Lands (execOrphanTWrite h init v s) :=
  next (e.whenS fun _ e => e.setOrphanT)

theorem execAliveLineFall (e : s.w.Canonical) {h : Half} {c : LowCause} : Lands (execAliveLineFall h c s) := by
  unfold Machine.execAliveLineFall
  refine next ?_
  split
  · exact e.fall.hold
  · exact e.fall.hold
  · exact e.fall.hold
  · exact e.fall.hold
  · exact onW e.fall.set_run
  · exact e.fall

theorem execOwnerAliveLowTimeout (e : s.w.Canonical) {h : Half} : Lands (execOwnerAliveLowTimeout h s) :=
  next (e.whenS fun _ e => e.forAllS fun _ _ e => e.orphan)

theorem execTakeoverComplete (e : s.w.Canonical) {h : Half} : Lands (execTakeoverComplete h s) :=
  next (e.whenS fun _ e => onW (e.forAllS fun _ _ e => e.owned).onOwn.raise.trkTakeover)

theorem execHeartbeatPermitLapse (e : s.w.Canonical) {h : Half} : Lands (execHeartbeatPermitLapse h s) :=
  next (e.whenS fun _ e => e.fence)

theorem execPermitJoinTimeout (e : s.w.Canonical) {h : Half} : Lands (execPermitJoinTimeout h s) := next (e.whenS fun _ e => e.fence)

theorem execSelfFence (e : s.w.Canonical) {h : Half} : Lands (execSelfFence h s) :=
  next (e.whenS fun _ e => (onW (onW e.raise).set_run).hold)

theorem execCrossingLaneChange (e : s.w.Canonical) {h : Half} {lane dir : Nat} {up : Bool} :
    Lands (execCrossingLaneChange h lane dir up s) :=
  next (iteS (onW e.laneSet).xngDown e)

theorem execCrossingFrameReceived (e : s.w.Canonical) {h : Half} {ty seq len : Nat} {crcOk : Bool} :
    Lands (execCrossingFrameReceived h ty seq len crcOk s) :=
  lift (ite e (ite e.updXng.xngGot (e.bump.updXng.when fun _ e => e.raise)))

theorem execHbWindowExpiry (e : s.w.Canonical) {h : Half} : Lands (execHbWindowExpiry h s) :=
  lift (e.when fun _ e => (e.wr.wr.when fun _ e => e.raise).updXng)

theorem execHeartbeatLossSample (e : s.w.Canonical) {h : Half} : Lands (execHeartbeatLossSample h s) :=
  next (e.whenS fun _ e => (onW e.updXng).whenS fun _ e => onW (e.wr.raise.when fun _ e => e.trkSplit).engines)

theorem execCrossingUp (e : s.w.Canonical) {h : Half} : Lands (execCrossingUp h s) :=
  next (e.whenS fun _ e => onW e.wr.wr.updXng.raise.trkJoin.engines)

theorem execXngEnable (e : s.w.Canonical) {h : Half} {init v : Nat} : Lands (execXngEnable h init v s) :=
  next (e.whenS fun _ e => (onW e.wr).whenS fun _ e => e.allLanesDown)

theorem execXngLoopback (e : s.w.Canonical) {h : Half} {init v : Nat} : Lands (execXngLoopback h init v s) :=
  next (e.whenS fun _ e => (onW e.wr).whenS fun _ e => e.allLanesDown)

theorem execTsyExchange (e : s.w.Canonical) {h : Half} {t1 t2 t3 t4 : Int} : Lands (execTsyExchange h t1 t2 t3 t4 s) :=
  lift (ite e (ite (e.wrI.when fun _ e => e.updTim).updXng.xngSent.wr ((e.wrI.when fun _ e => e.updTim).updXng.xngSent.when fun _ e =>
    e.tsyncLost)))

theorem execTsyncTimeout (e : s.w.Canonical) {h : Half} : Lands (execTsyncTimeout h s) := lift (e.when fun _ e => e.tsyncLost)

theorem execMirrorRecordReceived (e : s.w.Canonical) {h : Half} {k n : Nat} {full : Bool} :
    Lands (execMirrorRecordReceived h k n full s) :=
  lift (ite e (ite e.takeFn e.takeClass).xngSent.updXng.updXng)

theorem execMirrorLagExceeded (e : s.w.Canonical) {h : Half} {k : Nat} : Lands (execMirrorLagExceeded h k s) :=
  lift (e.when fun _ e => e.wr.raise.updXng)

theorem execMirrorRefresh (e : s.w.Canonical) {h : Half} {k : Nat} : Lands (execMirrorRefresh h k s) :=
  lift (e.when fun _ e => e.updXng.xngSent.when fun _ e => e.takeClass)

theorem execUpdOpen (e : s.w.Canonical) {h : Half} {r : Nat} {net : Option UpdOpen} : Lands (execUpdOpen h r net s) := by
  unfold Machine.execUpdOpen
  refine next (e.whenS fun _ e => ?_)
  split
  · exact e.whenS fun _ e => e.upOpen
  · exact e.upOpen

theorem execUpdBlock (e : s.w.Canonical) {h : Half} {r : Nat} {net : Option (List Byte)} : Lands (execUpdBlock h r net s) :=
  next (e.whenS fun _ e => e.upBlock)

theorem execUpdCheckComplete (e : s.w.Canonical) {h : Half} {r : Nat} : Lands (execUpdCheckComplete h r s) :=
  lift (e.when fun _ e => e.checked)

theorem execUpdAbort (e : s.w.Canonical) {h : Half} {r : Nat} {net : Bool} : Lands (execUpdAbort h r net s) :=
  lift (e.when fun _ e => e.knockSess)

theorem execUpdSessionTimeout (e : s.w.Canonical) {h : Half} {r : Nat} : Lands (execUpdSessionTimeout h r s) :=
  lift (e.when fun _ e => e.knockSess)

theorem execSiblingRestore (e : s.w.Canonical) {h : Half} {r : Nat} : Lands (execSiblingRestore h r s) :=
  next (e.whenS fun _ e => iteS (onW e.openFails) (onW (onW e.openTakes.raise).leaveForUpdate.restored))

theorem execDebugUnlock (e : s.w.Canonical) {h : Half} : Lands (execDebugUnlock h s) :=
  next (e.whenS fun _ e => iteS (onW e.drawNonce.wr) (onW (onW e.drawNonce.wr).handoverAllNow.updUpd.wr.raise).fence)

theorem execDebugExpiry (e : s.w.Canonical) {h : Half} : Lands (execDebugExpiry h s) := by
  unfold Machine.execDebugExpiry
  split
  · exact next e
  · exact next (e.whenS fun _ e => (onW e.updUpd.wr.raise).hold)

theorem execEthLink (e : s.w.Canonical) {k speed : Nat} {master : Bool} : Lands (execEthLink k speed master s) :=
  lift (ite (e.when fun _ e => e.showLink.raise) (ite (e.when fun _ e => e.showLink.showLink.raiseBoth) e))

theorem execGmForeignAnnounce (e : s.w.Canonical) {h : Half} {k : Nat} : Lands (execGmForeignAnnounce h k s) :=
  lift (e.when fun _ e => e.bump.when fun _ e => e.updFlx.raise)

theorem execFlxClose (e : s.w.Canonical) {h : Half} {k : Nat} : Lands (execFlxClose h k s) := lift (e.when fun _ e => e.flxClose)

theorem execFlxHandshakeComplete (e : s.w.Canonical) {h : Half} {client : Bool} {k anchor : Nat} {inPeriod : Bool} {serial : List Byte} :
    Lands (execFlxHandshakeComplete h client k anchor inPeriod serial s) := by
  unfold Machine.execFlxHandshakeComplete
  refine lift (e.when fun _ e => ite (e.wr.when fun _ e => ite e.setFsess.wr.flxSend e.flxAuth.flxClose) ?_)
  split
  · exact e.wr
  · exact ite e.wr.updFlx e.wr.flxAuth.updFlx

theorem execHello (e : s.w.Canonical) {h : Half} {client : Bool} {k role ver : Nat} {dev : List Byte} :
    Lands (execHello h client k role ver dev s) := by
  unfold Machine.execHello
  refine lift (e.when fun _ e => ite (e.when fun _ e => e.flxHello) ?_)
  split
  · exact e
  · exact e.flxHello

theorem execFlxMessageReceived (e : s.w.Canonical) {h : Half} {k ty seq ack : Nat} {p : List Byte} :
    Lands (execFlxMessageReceived h k ty seq ack p s) :=
  e.flxGot

theorem execRtcm (e : s.w.Canonical) {h : Half} {seq ack : Nat} {frame : List Byte} : Lands (execRtcm h seq ack frame s) := e.flxGot

theorem execCartState (e : s.w.Canonical) {h : Half} {k seq ack : Nat} {p : List Byte} : Lands (execCartState h k seq ack p s) := e.flxGot

theorem execFlxSessionTimeout (e : s.w.Canonical) {h : Half} {k : Nat} : Lands (execFlxSessionTimeout h k s) :=
  lift (e.when fun _ e => e.bump.flxClose)

theorem execCartSync (e : s.w.Canonical) {h : Half} : Lands (execCartSync h s) :=
  lift (e.when fun _ e => e.cartChoose.forAll fun _ _ e => e.flxSend)

theorem execCartStale (e : s.w.Canonical) {h : Half} : Lands (execCartStale h s) := lift (e.when fun _ e => e.wr.raise)

theorem execCartSelect (e : s.w.Canonical) {h : Half} {init k : Nat} : Lands (execCartSelect h init k s) :=
  lift (e.wr.when fun _ e => e.cartActive)

theorem execCartRelease (e : s.w.Canonical) {h : Half} {init : Nat} : Lands (execCartRelease h init s) :=
  lift (e.when fun _ e => e.cartActive)

theorem execLswCommand (e : s.w.Canonical) {h : Half} {init : Nat} {on : Bool} : Lands (execLswCommand h init on s) :=
  e.switchWrite fun _ => e.swCmd

theorem execLswProfile (e : s.w.Canonical) {h : Half} {init v : Nat} : Lands (execLswProfile h init v s) := e.switchWrite fun _ => e.wr

theorem execLswClrFault (e : s.w.Canonical) {h : Half} {init : Nat} : Lands (execLswClrFault h init s) :=
  e.switchWrite fun _ => e.when fun _ e => (e.when fun _ e => e.wr).when fun _ e => e.swGo

theorem execLswKnock (e : s.w.Canonical) {h : Half} {init : Nat} : Lands (execLswKnock h init s) := e.switchWrite fun _ => e.knockSwitch

theorem execLswClrCnt (e : s.w.Canonical) {h : Half} {init : Nat} : Lands (execLswClrCnt h init s) :=
  iteO (next e) (putW (e.gateAny (e.forAll fun _ _ e => e.setReg.wr)))

theorem execLswShortTrip (e : s.w.Canonical) {n i : Nat} : Lands (execLswShortTrip n i s) := lift (e.when fun _ e => e.swTrip)

theorem execLswOverloadTrip (e : s.w.Canonical) {n i : Nat} : Lands (execLswOverloadTrip n i s) := by
  unfold Machine.execLswOverloadTrip
  refine lift ?_
  split
  · exact e
  · exact e.when fun _ e => e.swTrip

theorem execLswThermalTrip (e : s.w.Canonical) {n : Nat} {tj : Int} : Lands (execLswThermalTrip n tj s) :=
  lift (e.when fun _ e => e.swTemp.wr.bump.swGo.updSw.swEvent)

theorem execThermalLatchClear (e : s.w.Canonical) {n : Nat} {tj : Int} : Lands (execThermalLatchClear n tj s) :=
  lift (e.when fun _ e => ite e.swTemp.swWait (ite e.swTemp.swGo e.swTemp.swRetry))

theorem execBudgetWaitLong (e : s.w.Canonical) {n : Nat} : Lands (execBudgetWaitLong n s) := lift (e.when fun _ e => e.wr.swEvent)

theorem execFeedOverload (e : s.w.Canonical) {f i : Nat} : Lands (execFeedOverload f i s) := lift (e.wr.when fun _ e => e.shedTo)

theorem execShedStep (e : s.w.Canonical) {f i : Nat} : Lands (execShedStep f i s) := lift (ite e.wr (ite e.wr.wr (ite e.wr.shedTo e.wr)))

theorem execFeedLost (e : s.w.Canonical) {f v : Nat} : Lands (execFeedLost f v s) := lift (e.when fun _ e => e.loseFeed)

theorem execFeedReturn (e : s.w.Canonical) {f v : Nat} : Lands (execFeedReturn f v s) :=
  lift (e.when fun _ e => (e.set_lsw.forAll fun _ _ e => (e.when fun _ e => e.wr).when fun _ e => e.swWait).raiseBoth)

theorem execOpenOnDetect (e : s.w.Canonical) {n i : Nat} : Lands (execOpenOnDetect n i s) :=
  lift (e.when fun _ e => ite (ite e.wr e.wr.wr.swEvent) e.wr.wr)

theorem execLswProbe (e : s.w.Canonical) {n vProbe vIdle : Nat} : Lands (execLswProbe n vProbe vIdle s) :=
  lift (e.when fun _ e => e.wr.wr.wr.when fun _ e => e.swEvent)

theorem execLswBankPresence (e : s.w.Canonical) {b : Nat} {present : Bool} : Lands (execLswBankPresence b present s) :=
  lift (e.when fun _ e => (e.wr.forAll fun _ _ e => ite (e.when fun _ e => e.wr) e.swGo.wr).raiseBoth)

theorem execYieldCycle (e : s.w.Canonical) {h : Half} : Lands (execYieldCycle h s) := by
  unfold Machine.execYieldCycle
  refine lift ?_
  split
  · exact e
  · exact ite e.yieldCycle.mirrorYield e

theorem execSegmentFrame (e : s.w.Canonical) {vlcd : Nat} {v1 v2 : Int} : Lands (execSegmentFrame vlcd v1 v2 s) :=
  lift (e.when fun _ e => ite (((e.updDsp fun _ => by rfl).wr.wrI.wrI.updDsp fun _ => by rfl).when fun _ e => e.wr.dspEvent)
    (((e.updDsp fun _ => by rfl).wr.wrI.wrI.updDsp fun _ => by rfl).when fun _ e => e.wr.dspEvent))

theorem execSegmentLatch (e : s.w.Canonical) {h : Half} {init : Nat} : Lands (execSegmentLatch h init s) := putW (e.gateObj e.segLatch)

theorem execSymbolEvaluation (e : s.w.Canonical) {h : Half} : Lands (execSymbolEvaluation h s) := by
  unfold Machine.execSymbolEvaluation
  refine putW ?_
  split
  · exact e
  · exact e.when fun _ e => (e.forAll fun _ _ e => e.forAll fun _ _ e => e.putSeg).segLatch

theorem execPanelSequenceStep (e : s.w.Canonical) : Lands (execPanelSequenceStep s) := by
  unfold Machine.execPanelSequenceStep
  refine lift (e.when fun _ e => ?_)
  split
  · exact ite e.pnlStep e.pnlReach
  · exact ite e.pnlStep e.pnlStep
  · exact ite e.pnlReach e.pnlStep
  · exact ite e.pnlReach e.pnlStep
  · exact ite e.pnlStep e.pnlStep
  · exact ite e.pnlStep e.pnlStep
  · exact ite e.pnlStep e.pnlReach
  · exact e.pnlStep
  · exact e.pnlStep
  · exact e.pnlReach.wr.when fun _ e => e.pnlStep

theorem execPanelEnable (e : s.w.Canonical) {h : Half} {init : Nat} {en : Bool} : Lands (execPanelEnable h init en s) :=
  putW (e.gateObj e.pnlEnable)

theorem execPanelLoad (e : s.w.Canonical) {h : Half} {init : Nat} : Lands (execPanelLoad h init s) :=
  putW (e.gateObj (e.updDsp fun _ => by rfl).wr)

/-- The store not shown takes the frame. -/
theorem execPanelCopyComplete (e : s.w.Canonical) : Lands (execPanelCopyComplete s) := by
  unfold Machine.execPanelCopyComplete
  refine lift ?_
  split
  · exact e
  next h a _ =>
    refine wr (wr (set_dsp e _ ?_))
    split
    · exact ⟨e.panel.1, wf_window (e.half h) _ _⟩
    · exact ⟨wf_window (e.half h) _ _, e.panel.2⟩

theorem execFanSpeedMeasure (e : s.w.Canonical) {c e1 e2 : Nat} : Lands (execFanSpeedMeasure c e1 e2 s) :=
  lift (e.when fun _ e => ((e.wr.updFan.when fun _ e => e.wr.pwrEvent).fanTarget.when fun _ e => e.fanLoop).fanDuties)

theorem execFanSuspect (e : s.w.Canonical) {c v : Nat} : Lands (execFanSuspect c v s) :=
  lift (e.when fun _ e => ite e.startKick (ite e.updFan.wr.pwrEvent.fanDuties e.updFan))

theorem execFanKickEnd (e : s.w.Canonical) {c rpm : Nat} : Lands (execFanKickEnd c rpm s) :=
  lift (e.when fun _ e => ite (e.wr.wr.endKick.when fun _ e => e.pwrEvent) (ite e.wr.endKick (ite e.wr.updFan.fanDuties
    e.wr.wr.updFan.endKick.pwrEvent)))

theorem execFanCommand (e : s.w.Canonical) {h : Half} {init v : Nat} : Lands (execFanCommand h init v s) :=
  putW (e.gateObj (ite e (e.wr.wr.updFan.when fun _ e => e.endKick).fanTarget.fanDuties))

theorem execLogicInStateChange (e : s.w.Canonical) {v i : Nat} {clamped : Bool} : Lands (execLogicInStateChange v i clamped s) :=
  lift (((((ite e.wr.wr e.wr.wr.wr.pwrEvent).when fun _ e => e.updPwr).when fun _ e => e.updPwr.bump.pwrEvent).when fun _ e =>
    (e.updPwr.wr.bump.when fun _ e => e.wr.set_latch).pwrEvent.dspFast).when fun _ e => e.wr.pwrEvent).fanDuties

theorem execPwrClrCnt (e : s.w.Canonical) {h : Half} {init : Nat} : Lands (execPwrClrCnt h init s) := putW (e.gateAny e.setReg)

theorem execFuseOpen (e : s.w.Canonical) {f stud behind : Nat} : Lands (execFuseOpen f stud behind s) :=
  lift (e.when fun _ e => ((e.wr.wr.when fun _ e => e.pwrEvent).when fun _ e => e.pwrEvent).when fun _ e => e.feedGone)

theorem execFeedConnect (e : s.w.Canonical) {h : Half} {init f : Nat} {on : Bool} : Lands (execFeedConnect h init f on s) :=
  iteO (next e) (putW (e.gateObj e.wr))

theorem execDerateChange (e : s.w.Canonical) {ta : Int} : Lands (execDerateChange ta s) :=
  lift (ite e.wrI.updPwr.setDerate (e.wrI.updPwr.when fun _ e => e.setDerate))

theorem execCoolantTemperatureWarning (e : s.w.Canonical) {tin tout ta : Int} : Lands (execCoolantTemperatureWarning tin tout ta s) :=
  lift (ite e.wrI.wrI.thermistor.thermistor.thermistor ((e.wrI.wrI.thermistor.thermistor.thermistor.updPwr.when fun _ e =>
    e.pwrEvent).when fun _ e => e.pwrEvent)).fanDuties

theorem execCoolingOverride (e : s.w.Canonical) {ts : Int} : Lands (execCoolingOverride ts s) :=
  lift (ite e.readTs e.readTs.wr.pwrEvent).fanDuties

theorem execSysShdnExternal (e : s.w.Canonical) {low : Bool} : Lands (execSysShdnExternal low s) := lift (e.wr.when fun _ e => e.pwrEvent)

theorem execSafeOffAssert (e : s.w.Canonical) {b : Bool} : Lands (execSafeOffAssert b s) := lift (e.wr.when fun _ e => e.wr).safeUpdate

theorem execSafeOffRelease (e : s.w.Canonical) {b : Bool} : Lands (execSafeOffRelease b s) := lift e.wr.safeUpdate

theorem execSafeOffDiscrepancy (e : s.w.Canonical) : Lands (execSafeOffDiscrepancy s) := lift (e.when fun _ e => e.wr.safeUpdate)

theorem execReferenceValid (e : s.w.Canonical) {h : Half} {r : Nat} {ofs : Int} {leap : Option Nat} :
    Lands (execReferenceValid h r ofs leap s) :=
  lift (ite e (e.wr.updTim.setRef.when fun _ e => e.takeOffset).timFollow)

theorem execReferenceLost (e : s.w.Canonical) {h : Half} {r : Nat} : Lands (execReferenceLost h r s) := lift (ite e e.wr.refLost)

theorem execTimeStep (e : s.w.Canonical) : Lands (execTimeStep s) := by
  unfold Machine.execTimeStep
  refine lift ?_
  extract_lets h
  split
  · exact e
  · have one {u : World} (e : u.Canonical) {k : Half} {d : Int} :
        (let w := ((u.grindStep k (u.mt k)).gnssStep k).endSlew k false
         let w := w.updTim k fun t => { t with offset := t.offset + d, step := none, phase := none }
         (w.wr k F.TIM_STATUS.STEP_PEND 0 0).bump k F.TIM_CNT.STEPS).Canonical := e.grindStep.gnssStep.endSlew.updTim.wr.bump
    exact (ite (one (one e)) (one e)).setTimState.raiseBoth.set_keeper.timFollow

theorem execSlewEnd (e : s.w.Canonical) {h : Half} : Lands (execSlewEnd h s) := lift (ite e.endSlew.wrI.setTimState.raiseBoth.timFollow e)

theorem execTimeRefSelect (e : s.w.Canonical) {h : Half} {init v : Nat} : Lands (execTimeRefSelect h init v s) :=
  lift (ite (e.when fun _ e => e.wr).wr.wr.refLost (e.when fun _ e => e.wr))

theorem execTimeInEdge (e : s.w.Canonical) {h : Half} : Lands (execTimeInEdge h s) :=
  lift (ite (ite e.wr.wr.updTim e.rejectEdge) (ite e.updTim.wr.raise e.updTim))

theorem execTimeInLost (e : s.w.Canonical) {h : Half} : Lands (execTimeInLost h s) :=
  lift (ite (e.wr.updTim.raise.when fun _ e => e.refLost) e)

theorem execTimePulse (e : s.w.Canonical) : Lands (execTimePulse s) :=
  lift (ite e (e.when fun _ e => e.raiseBoth).wr.wr.wr.wr.wr.wr.set_keeper)

theorem execTimeAid (e : s.w.Canonical) {h : Half} {init v : Nat} : Lands (execTimeAid h init v s) :=
  lift (ite e.wr.updGnss.takeOffset.timFollow e.wr.updGnss)

theorem execTrackCycle (e : s.w.Canonical) {h : Half} {veh : Int × Int × Int} {dets : List Det} : Lands (execTrackCycle h veh dets s) :=
  lift (ite e (e.wr.updTrk.applyDets.forAll fun _ _ e => ite e.missStep e).setLevels.stopOf.stopOf.wr.publishStore.mirrorTrk)

theorem execLateDetection (e : s.w.Canonical) {h : Half} {stamp : Nat} {dets : List Det} : Lands (execLateDetection h stamp dets s) :=
  lift (ite e (ite (e.updGrind.forAll fun _ _ e => e.bump) (e.updGrind.applyDets.forAll fun _ _ e => e.bump)))

theorem execStopLevelFall (e : s.w.Canonical) {h : Half} {k : Nat} : Lands (execStopLevelFall h k s) := lift (e.when fun _ e => e.stopOf)

theorem execTrackIgnore (e : s.w.Canonical) {h : Half} {init v : Nat} : Lands (execTrackIgnore h init v s) := by
  unfold Machine.execTrackIgnore
  dsimp only
  refine lift (ite e ?_)
  split
  · exact e
  · exact (e.wr.when fun _ e => e.updTrk).raise.mirrorTrk

theorem execPortStateTimer (e : s.w.Canonical) {h : Half} {p : Nat} {blind : Bool} : Lands (execPortStateTimer h p blind s) :=
  lift (ite e.setPort e)

theorem execGradeRise (e : s.w.Canonical) {h : Half} : Lands (execGradeRise h s) := lift (e.when fun _ e => e.setGrade).checkBlind

theorem execGrindInstant (e : s.w.Canonical) {h : Half} : Lands (execGrindInstant h s) := lift (ite e e.ageLate.wr.updGrind.wr.evalGrade)

theorem execGrindPublish (e : s.w.Canonical) {h : Half} {vals : List Nat} {profs : List (List Nat)} {edge : List (Rat × Rat)} :
    Lands (execGrindPublish h vals profs edge s) := by
  unfold Machine.execGrindPublish
  refine lift ?_
  split
  · exact e
  · exact ite e (e.planeSeen.updGrind.putGrid.forAll fun _ _ e => e.wr.setPq.wr).wr.wr.wr.wr.wr

theorem execGrindDeadline (e : s.w.Canonical) {h : Half} : Lands (execGrindDeadline h s) := by
  unfold Machine.execGrindDeadline
  refine lift ?_
  split
  · exact e
  · exact e.planeSeen.updGrind.abandon

theorem execGrindRateChange (e : s.w.Canonical) {h : Half} : Lands (execGrindRateChange h s) := lift (ite e e.wr.wr.raise)

theorem execProductStale (e : s.w.Canonical) {h : Half} : Lands (execProductStale h s) :=
  lift (ite (e.forAll fun _ _ e => ite e e.setPq) e)

theorem execModelLoadComplete (e : s.w.Canonical) {h : Half} {m res : Nat} : Lands (execModelLoadComplete h m res s) := by
  unfold Machine.execModelLoadComplete
  dsimp only
  refine lift ?_
  split
  · exact e
  · exact ite ((e.setMres.wr.wr.raise.when fun _ e => e.wr).forAll fun _ _ e => e.setPq).checkBlind e.setMres.wr.wr

theorem execPrjKnock (e : s.w.Canonical) {h : Half} {init mask : Nat} : Lands (execPrjKnock h init mask s) := lift e.knockPipes

theorem execFeaKnock (e : s.w.Canonical) {h : Half} {init mask : Nat} {jobs : List Nat} : Lands (execFeaKnock h init mask jobs s) :=
  lift e.knockJobs

theorem execAntennaState (e : s.w.Canonical) {a i v : Nat} : Lands (execAntennaState a i v s) :=
  lift (ite e (e.wr.wr.wr.when fun _ e => e.raiseBoth))

theorem execNotchDetect (e : s.w.Canonical) {h : Half} {k : Nat} {hz : Int} {db : Nat} : Lands (execNotchDetect h k hz db s) := by
  unfold Machine.execNotchDetect
  dsimp only
  refine lift ?_
  split
  · exact ite e.wr.updGnss.raise e
  · exact e

theorem execNotchRelease (e : s.w.Canonical) {h : Half} {k n : Nat} : Lands (execNotchRelease h k n s) := lift (ite e.wr.updGnss.raise e)

theorem execJamLevel (e : s.w.Canonical) {h : Half} {k db agc : Nat} : Lands (execJamLevel h k db agc s) :=
  lift (ite e (e.wr.wr.wr.when fun _ e => e.raise))

theorem execChIntegrationDump (e : s.w.Canonical) {h : Half} {c : Nat} {iq : List Int} {noise : Nat} :
    Lands (execChIntegrationDump h c iq noise s) := by
  unfold Machine.execChIntegrationDump
  dsimp only
  refine lift (ite e ?_)
  split
  · exact e.updChan.putDump
  · exact ite e.updChan.putDump (e.updChan.wr.wr.when fun _ e => e.lateUpd).putDump

theorem execAcqEntryComplete (e : s.w.Canonical) {h : Half} {k cn0 ratio code : Nat} {dop : Int} {tEnd : Nat} :
    Lands (execAcqEntryComplete h k cn0 ratio code dop tEnd s) :=
  lift (ite e (ite ((e.putMem.when fun _ e => e.wr.wr.wr.wr.wrI.wr.startChan).bump.when fun _ e => e.bump).acqDone ((e.putMem.when fun
    _ e => e.wr.wr.wr.wr.wrI.wr.startChan).bump.when fun _ e => e.bump).wr))

theorem execAcqKnock (e : s.w.Canonical) {h : Half} {init : Nat} : Lands (execAcqKnock h init s) := lift (e.when fun _ e => e.knockAcq)

theorem execMeasurementLatch (e : s.w.Canonical) {h : Half} : Lands (execMeasurementLatch h s) := lift e.putMem.updGnss.wr.wr.wr

theorem execMeasurementRecord (e : s.w.Canonical) {h : Half} {entries : List MEntry} {bias drift : Int} {clk : Bool} :
    Lands (execMeasurementRecord h entries bias drift clk s) :=
  lift (ite e (ite e.missEpoch (e.forAll fun _ _ e => ite e e.updGnss.raise).putMem.updGnss.wr))

theorem execSiblingRecordReceived (e : s.w.Canonical) {h : Half} {ownOk sibOk : Bool} :
    Lands (execSiblingRecordReceived h ownOk sibOk s) := by
  unfold Machine.execSiblingRecordReceived
  dsimp only
  refine lift ?_
  split
  · exact e
  · split
    · exact e.putMem.updGnss.wr
    · exact ite e.putMem.updGnss.wr (ite (e.putMem.updGnss.wr.updGnss.raise.when fun _ e => e.wr.updGnss).updGnss
        (e.putMem.updGnss.wr.updGnss.updGnss.forAll fun _ _ e => e.exclude.bump.raise))

theorem execCorrectionFrame (e : s.w.Canonical) {h : Half} {init v : Nat} : Lands (execCorrectionFrame h init v s) :=
  lift (ite (e.wr.takeFrame.when fun _ e => e.takeFrame) e.wr)

theorem execCorrectionSourceTimeout (e : s.w.Canonical) {h : Half} : Lands (execCorrectionSourceTimeout h s) := lift e.corrEval

theorem execPositionSolution (e : s.w.Canonical) {h : Half} {x : Sol} : Lands (execPositionSolution h x s) := by
  unfold Machine.execPositionSolution
  refine lift (ite e (((e.forAll fun _ _ e => ?_).setQ.when fun _ e => e.showSol).moduleWrite.moduleWrite.when fun _ e => (e.setQ.when
    fun _ e => e.showSol).moduleWrite.moduleWrite))
  split
  · exact e.exclude.bump
  · exact e

theorem execHeadingSolution (e : s.w.Canonical) {h : Half} {ratio common len : Nat} {az : Int} {sig : Nat} :
    Lands (execHeadingSolution h ratio common len az sig s) :=
  lift (ite e (((e.updGnss.wr.wr.when fun _ e => e.wr.wr).when fun _ e => e.raise).when fun _ e => (e.wr.wr.when fun _ e =>
    e.wr.wr).when fun _ e => e.raise))

theorem execPosePublish (e : s.w.Canonical) {h : Half} {p : Pose} {slew : Bool} : Lands (execPosePublish h p slew s) :=
  lift e.judgeTrust.putMem.updGnss.wr.set_pose.moduleWrite.moduleWrite.moduleWrite

theorem execImuFault (e : s.w.Canonical) {h : Half} {bad : Bool} : Lands (execImuFault h bad s) :=
  lift (ite (e.updGnss.when fun _ e => e.raise).wr.raise.poseTrust (e.updGnss.when fun _ e => e.raise))

theorem execCanModeWrite (e : s.w.Canonical) {h : Half} {init v : Nat} : Lands (execCanModeWrite h init v s) :=
  putW (e.canGate fun _ => (e.canWr.when fun _ e => e.canWr.canWr.canWr.canWr.when fun _ e => e.setCanMode).when fun _ e => e.canWr)

theorem execCanKnock (e : s.w.Canonical) {h : Half} {init : Nat} : Lands (execCanKnock h init s) := putW (e.canGate fun _ => e.knockCan)

theorem execCanClrLockout (e : s.w.Canonical) {h : Half} {init : Nat} : Lands (execCanClrLockout h init s) :=
  putW (e.canGate fun _ => e.when fun _ e => e.canWr.canWr.updCan)

theorem execCanClrCnt (e : s.w.Canonical) {h : Half} {init : Nat} : Lands (execCanClrCnt h init s) := putW (e.canGate fun _ => e.setReg)

theorem execCanTxRequest (e : s.w.Canonical) {h : Half} {init mask : Nat} : Lands (execCanTxRequest h init mask s) :=
  putW (e.canGate fun _ => ite e ((e.when fun _ e => e.canLeaveGreen).forAll fun _ _ e => ite e e.setReg))

theorem execCanTxAbort (e : s.w.Canonical) {h : Half} {init mask : Nat} : Lands (execCanTxAbort h init mask s) :=
  putW (e.canGate fun _ => (e.forAll fun _ _ e => ite e.setTb (ite e.updCan e)).when fun _ e => e.canWr)

theorem execCanTxComplete (e : s.w.Canonical) {n res ty fld pos tdcv : Nat} : Lands (execCanTxComplete n res ty fld pos tdcv s) := by
  unfold Machine.execCanTxComplete
  refine lift ?_
  split
  · exact e
  · exact ite (e.when fun _ e => e.canWr).txError (ite ((e.when fun _ e => e.canWr).setTb.updCan.when fun _ e => e.setErrc).feedTb0
      ((e.when fun _ e => e.canWr).setTb.updCan.when fun _ e => e.setErrc))

theorem execCanTxError (e : s.w.Canonical) {n ty fld pos : Nat} : Lands (execCanTxError n ty fld pos s) := by
  unfold Machine.execCanTxError
  refine lift ?_
  split
  · exact e
  · exact (ite e.bump.updCan.clash e.bump.updCan).txError

theorem execCanBusOff (e : s.w.Canonical) {n : Nat} : Lands (execCanBusOff n s) :=
  lift (ite e (e.forAll fun _ _ e => ite e.setTb e).updCan.canWr.canWr.canWr.bump.canBus)

theorem execCanBusOffRecovery (e : s.w.Canonical) {n : Nat} : Lands (execCanBusOffRecovery n s) :=
  lift (ite e (ite e.abortAll.updCan.canWr.canBus e.canWr.canWr.updCan.canWr.canWr.canBus.feedTb0))

theorem execCanTrxFault (e : s.w.Canonical) {n : Nat} {on txd : Bool} : Lands (execCanTrxFault n on txd s) :=
  lift (ite ((e.canWr.when fun _ e => e.canWr).when fun _ e => e.canBus) (e.canWr.when fun _ e => e.canWr))

theorem execCanWake (e : s.w.Canonical) {n : Nat} : Lands (execCanWake n s) := lift (ite e.canWr.canBus e)

theorem execJ1939AddressClaim (e : s.w.Canonical) {n sa : Nat} {lost : Bool} : Lands (execJ1939AddressClaim n sa lost s) :=
  lift (ite e (ite e.canWr.updCan.canBus e.canWr.updCan))

theorem execCanRxError (e : s.w.Canonical) {n ty : Nat} {dom : Bool} : Lands (execCanRxError n ty dom s) :=
  lift (e.when fun _ e => e.canWr.setErrc)

theorem execCanFrameReceived (e : s.w.Canonical) {n stamp : Nat} {self_ : Bool} {f : CanFrame} :
    Lands (execCanFrameReceived n stamp self_ f s) := by
  unfold Machine.execCanFrameReceived
  refine lift (ite e.canOnBus (ite e.canOnBus.bump.canWr (ite (ite (ite e.canOnBus e.canOnBus.setErrc).bump.clash (ite e.canOnBus
    e.canOnBus.setErrc)) ?_)))
  split
  · exact ite (ite e.canOnBus e.canOnBus.setErrc).bump.clash (ite e.canOnBus e.canOnBus.setErrc)
  · exact ite (ite (ite (ite e.canOnBus e.canOnBus.setErrc).bump.clash (ite e.canOnBus e.canOnBus.setErrc)).canDecode (ite (ite
      e.canOnBus e.canOnBus.setErrc).bump.clash (ite e.canOnBus e.canOnBus.setErrc))).canQueue (ite (ite (ite e.canOnBus
      e.canOnBus.setErrc).bump.clash (ite e.canOnBus e.canOnBus.setErrc)).canDecode (ite (ite e.canOnBus
      e.canOnBus.setErrc).bump.clash (ite e.canOnBus e.canOnBus.setErrc)))

theorem execCanRxAck (e : s.w.Canonical) {h : Half} {init v : Nat} : Lands (execCanRxAck h init v s) :=
  putW (e.canGate fun _ => ite e.canWr.updCan e)

theorem execStewardFrame (e : s.w.Canonical) {h : Half} {busy c0 c1 : Nat} : Lands (execStewardFrame h busy c0 c1 s) :=
  lift (e.when fun _ e => e.frameStart)

theorem execC3Shed (e : s.w.Canonical) {h : Half} : Lands (execC3Shed h s) := lift (e.when fun _ e => e.bump.overload.updFrame)

theorem execC2Pause (e : s.w.Canonical) {h : Half} : Lands (execC2Pause h s) := lift (e.when fun _ e => e.bump.overload.updFrame)

theorem execWatchdogService (e : s.w.Canonical) {h : Half} {init v : Nat} : Lands (execWatchdogService h init v s) :=
  next (e.whenS fun _ e => iteS (onW e.updFrame) e.watchdogExpire)

theorem execWatchdogExpiry (e : s.w.Canonical) {h : Half} : Lands (execWatchdogExpiry h s) := next (e.whenS fun _ e => e.watchdogExpire)

theorem execEventRaise (e : s.w.Canonical) {h : Half} {num arg : Nat} : Lands (execEventRaise h num arg s) :=
  lift (e.when fun _ e => e.raise)

theorem execEventRecordDelivery (e : s.w.Canonical) {h : Half} : Lands (execEventRecordDelivery h s) := by
  unfold Machine.execEventRecordDelivery
  split
  · exact next e
  · exact next (e.whenS fun _ e => e.deliver)

theorem execKnockCmd (e : s.w.Canonical) {h : Half} {init cls idx tc : Nat} {jobs : List Nat} :
    Lands (execKnockCmd h init cls idx tc jobs s) := by
  unfold Machine.execKnockCmd
  dsimp only
  refine next (e.whenS fun _ e => ?_)
  split
  · exact onW (onW e.freeSlots).wr
  · exact (onW e.freeSlots).knockIn

theorem execKnockEscalation (e : s.w.Canonical) {h : Half} {k : Nat} : Lands (execKnockEscalation h k s) :=
  lift (e.when fun _ e => ((e.forAll fun _ _ e => e.wr).when fun _ e => e.bump).raise)

theorem execSelectWrite (e : s.w.Canonical) {h : Half} {init blk v : Nat} : Lands (execSelectWrite h init blk v s) :=
  lift (e.when fun _ e => e.writeSel)

theorem execWriteTakesEffect (e : s.w.Canonical) {h : Half} {init : Nat} : Lands (execWriteTakesEffect h init s) := by
  unfold Machine.execWriteTakesEffect
  split
  · exact next e
  next p _ _ => exact next (e.whenS fun u e => busWrite (s := u.setPort h init (u.port h init).pop) e)

end World.Canonical
end Sys2Proof.Machine
end

section
/-!
SUPPORT. The memories through every command: by its meaning where its footprint names one of them, by its frame elsewhere.
-/
namespace Sys2Proof.Machine
namespace World.Canonical

variable {s : State}

/-- The footprint of a command names the events, the displays or the halves' memories. -/
def touches (c : Instr) : Bool := partIn (footprint c) .evt || partIn (footprint c) .dsp || partIn (footprint c) .dram

theorem of_frame (e : s.w.Canonical) {c : Instr} (hc : touches c = false) : Lands (exec c s) := by
  intro t ht
  obtain ⟨-, hrest⟩ := exec_frame ht
  unfold touches at hc
  simp only [Bool.or_eq_false_iff] at hc
  obtain ⟨⟨hevt, hdsp⟩, hdram⟩ := hc
  exact e.of_eq (hrest.evt hevt) (hrest.dsp hdsp) (hrest.dram hdram)

/-- Every command keeps the memories canonical. -/
theorem lands_exec (e : s.w.Canonical) (c : Instr) : Lands (exec c s) := by
  by_cases hc : touches c = false
  · exact e.of_frame hc
  cases c with
  | writeTakesEffect => exact execWriteTakesEffect e
  | selectWrite => exact execSelectWrite e
  | claim => exact execClaim e
  | claimComplete => exact execClaimComplete e
  | release => exact execRelease e
  | handover => exact execHandover e
  | handoverComplete => exact execHandoverComplete e
  | handoverAll => exact execHandoverAll e
  | serverRequest => exact execServerRequest e
  | orphanTWrite h init v => exact execOrphanTWrite e (init := init)
  | orphanTimerExpiry => exact execOrphanTimerExpiry e
  | ownerAliveLowTimeout => exact execOwnerAliveLowTimeout e
  | aliveLineFall => exact execAliveLineFall e
  | takeoverComplete => exact execTakeoverComplete e
  | heartbeatPermitLapse => exact execHeartbeatPermitLapse e
  | permitJoinTimeout => exact execPermitJoinTimeout e
  | selfFence => exact execSelfFence e
  | crossingLaneChange => exact execCrossingLaneChange e
  | crossingFrameReceived => exact execCrossingFrameReceived e
  | hbWindowExpiry => exact execHbWindowExpiry e
  | heartbeatLossSample => exact execHeartbeatLossSample e
  | crossingUp => exact execCrossingUp e
  | xngEnable h init v => exact execXngEnable e (init := init)
  | xngLoopback h init v => exact execXngLoopback e (init := init)
  | tsyExchange => exact execTsyExchange e
  | tsyncTimeout => exact execTsyncTimeout e
  | mirrorRecordReceived => exact execMirrorRecordReceived e
  | mirrorLagExceeded => exact execMirrorLagExceeded e
  | backplanePowerOn => exact execBackplanePowerOn e
  | halfResetRelease => exact execHalfResetRelease e
  | bloom => exact execBloom e
  | roastSiblingFetch => exact execRoastSiblingFetch e
  | roastActivateRequest => exact execRoastActivateRequest e
  | pourEntry => exact execPourEntry e
  | pourExit => exact execPourExit e
  | shutdown => exact execShutdown e
  | wakeRequest => exact execWakeRequest e
  | setStateRequest h init dst => exact execSetStateRequest e (init := init)
  | autoTransition => exact execAutoTransition e
  | executorCycle => exact execExecutorCycle e
  | cycleOverrun => exact execCycleOverrun e
  | conflictHoldExpiry => exact execConflictHoldExpiry e
  | seqStepTimeout => exact execSeqStepTimeout e
  | steerDisengage h init => exact execSteerDisengage e (init := init)
  | steerReleaseTimeout => exact execSteerReleaseTimeout e
  | optSolve => exact execOptSolve e
  | vlvCommand => exact execVlvCommand e
  | vlvSetpointWrite => exact execVlvSetpointWrite e
  | vlvClrFault => exact execVlvClrFault e
  | vlvKnock => exact execVlvKnock e
  | vlvClrCnt => exact execVlvClrCnt e
  | engineStart => exact execEngineStart e
  | pullKinkConfirm => exact execPullKinkConfirm e
  | closeKinkDetect => exact execCloseKinkDetect e
  | kinkWindowClose => exact execKinkWindowClose e
  | evt => exact execEvt e
  | recipeIllegal => exact execRecipeIllegal e
  | dutyEvaluation => exact execDutyEvaluation e
  | boostRailLow => exact execBoostRailLow e
  | bankWaitTimeout => exact execBankWaitTimeout e
  | twinPartnerLoss => exact execTwinPartnerLoss e
  | twinPartnerReturn => exact execTwinPartnerReturn e
  | vlvShort => exact execVlvShort e
  | vlvOpenLoad => exact execVlvOpenLoad e
  | vlvOvertemp => exact execVlvOvertemp e
  | vlvHsShort => exact execVlvHsShort e
  | tileAbsent => exact execTileAbsent e
  | tileReady => exact execTileReady e
  | vlvProbe => exact execVlvProbe e
  | lswCommand => exact execLswCommand e
  | lswProfile => exact execLswProfile e
  | lswClrFault => exact execLswClrFault e
  | lswKnock => exact execLswKnock e
  | lswClrCnt => exact execLswClrCnt e
  | lswShortTrip => exact execLswShortTrip e
  | lswOverloadTrip => exact execLswOverloadTrip e
  | lswThermalTrip => exact execLswThermalTrip e
  | thermalLatchClear => exact execThermalLatchClear e
  | budgetWaitLong => exact execBudgetWaitLong e
  | feedOverload => exact execFeedOverload e
  | shedStep => exact execShedStep e
  | feedLost => exact execFeedLost e
  | feedReturn => exact execFeedReturn e
  | openOnDetect => exact execOpenOnDetect e
  | lswProbe => exact execLswProbe e
  | lswBankPresence => exact execLswBankPresence e
  | inputSample => exact execInputSample e
  | inputEdge => exact execInputEdge e
  | qualityConditionTimer => exact execQualityConditionTimer e
  | stuckTimeout => exact execStuckTimeout e
  | twinDivergenceTimeout => exact execTwinDivergenceTimeout e
  | twinAgreementTimeout => exact execTwinAgreementTimeout e
  | uinKnock => exact execUinKnock e
  | uinPreset => exact execUinPreset e
  | uinClrCnt => exact execUinClrCnt e
  | supplyLimitTrip => exact execSupplyLimitTrip e
  | supplyRetry => exact execSupplyRetry e
  | supplyEnable => exact execSupplyEnable e
  | externalBindingWrite => exact execExternalBindingWrite e
  | lossWindow => exact execLossWindow e
  | lossBiasCheck => exact execLossBiasCheck e
  | lossSilentTimeout => exact execLossSilentTimeout e
  | losClsWrite => exact execLosClsWrite e
  | losClrCnt => exact execLosClrCnt e
  | yieldCycle => exact execYieldCycle e
  | portStateTimer => exact execPortStateTimer e
  | grindInstant => exact execGrindInstant e
  | grindPublish => exact execGrindPublish e
  | grindDeadline => exact execGrindDeadline e
  | gradeRise => exact execGradeRise e
  | grindRateChange => exact execGrindRateChange e
  | productStale => exact execProductStale e
  | modelLoadComplete => exact execModelLoadComplete e
  | prjKnock h init mask => exact execPrjKnock e (init := init)
  | feaKnock h init mask jobs => exact execFeaKnock e (init := init)
  | trackCycle => exact execTrackCycle e
  | lateDetection => exact execLateDetection e
  | stopLevelFall => exact execStopLevelFall e
  | trackIgnore h init v => exact execTrackIgnore e (init := init)
  | antennaState => exact execAntennaState e
  | notchDetect => exact execNotchDetect e
  | notchRelease => exact execNotchRelease e
  | jamLevel => exact execJamLevel e
  | acqEntryComplete => exact execAcqEntryComplete e
  | acqKnock => exact execAcqKnock e
  | chIntegrationDump => exact execChIntegrationDump e
  | measurementLatch => exact execMeasurementLatch e
  | measurementRecord => exact execMeasurementRecord e
  | siblingRecordReceived => exact execSiblingRecordReceived e
  | positionSolution => exact execPositionSolution e
  | headingSolution => exact execHeadingSolution e
  | posePublish => exact execPosePublish e
  | imuFault => exact execImuFault e
  | correctionFrame h init v => exact execCorrectionFrame e (init := init)
  | correctionSourceTimeout => exact execCorrectionSourceTimeout e
  | timeAid h init v => exact execTimeAid e (init := init)
  | referenceValid => exact execReferenceValid e
  | referenceLost => exact execReferenceLost e
  | timeStep => exact execTimeStep e
  | slewEnd => exact execSlewEnd e
  | timeRefSelect h init v => exact execTimeRefSelect e (init := init)
  | timeInEdge => exact execTimeInEdge e
  | timeInLost => exact execTimeInLost e
  | timePulse => exact execTimePulse e
  | canModeWrite => exact execCanModeWrite e
  | canKnock => exact execCanKnock e
  | canClrLockout => exact execCanClrLockout e
  | canClrCnt => exact execCanClrCnt e
  | canTxRequest => exact execCanTxRequest e
  | canTxAbort => exact execCanTxAbort e
  | canTxComplete => exact execCanTxComplete e
  | canTxError => exact execCanTxError e
  | canFrameReceived => exact execCanFrameReceived e
  | canRxAck => exact execCanRxAck e
  | canBusOff => exact execCanBusOff e
  | canBusOffRecovery => exact execCanBusOffRecovery e
  | canTrxFault => exact execCanTrxFault e
  | canWake => exact execCanWake e
  | j1939AddressClaim => exact execJ1939AddressClaim e
  | ethLink => exact execEthLink e
  | gmForeignAnnounce => exact execGmForeignAnnounce e
  | flxClose => exact execFlxClose e
  | flxHandshakeComplete => exact execFlxHandshakeComplete e
  | flxMessageReceived => exact execFlxMessageReceived e
  | hello => exact execHello e
  | rtcm => exact execRtcm e
  | cartState => exact execCartState e
  | flxSessionTimeout => exact execFlxSessionTimeout e
  | cartSync => exact execCartSync e
  | cartStale => exact execCartStale e
  | cartSelect h init k => exact execCartSelect e (init := init)
  | cartRelease h init => exact execCartRelease e (init := init)
  | prepareHalf h init target => exact execPrepareHalf e (init := init)
  | prepareTile h init t => exact execPrepareTile e (init := init)
  | svcCancel h init => exact execSvcCancel e (init := init)
  | fanReset h init => exact execFanReset e (init := init)
  | holdupReset h init => exact execHoldupReset e (init := init)
  | prepareTimeout => exact execPrepareTimeout e
  | cartridgePresenceOpen => exact execCartridgePresenceOpen e
  | cartridgeInsert => exact execCartridgeInsert e
  | plannedMove => exact execPlannedMove e
  | handbackMove => exact execHandbackMove e
  | stewardFrame => exact execStewardFrame e
  | c3Shed => exact execC3Shed e
  | c2Pause => exact execC2Pause e
  | watchdogService h init v => exact execWatchdogService e (init := init)
  | watchdogExpiry => exact execWatchdogExpiry e
  | eventRaise => exact execEventRaise e
  | eventRecordDelivery => exact execEventRecordDelivery e
  | knockCmd => exact execKnockCmd e
  | knockEscalation => exact execKnockEscalation e
  | updOpen => exact execUpdOpen e
  | updBlock => exact execUpdBlock e
  | updCheckComplete => exact execUpdCheckComplete e
  | updRestart => exact execUpdRestart e
  | updAbort => exact execUpdAbort e
  | updSessionTimeout => exact execUpdSessionTimeout e
  | siblingRestore => exact execSiblingRestore e
  | debugUnlock => exact execDebugUnlock e
  | debugExpiry => exact execDebugExpiry e
  | logicInStateChange => exact execLogicInStateChange e
  | powerFail => exact execPowerFail e
  | powerFailRecovery => exact execPowerFailRecovery e
  | fuseOpen => exact execFuseOpen e
  | feedConnect => exact execFeedConnect e
  | pwrClrCnt => exact execPwrClrCnt e
  | derateChange => exact execDerateChange e
  | coolingOverride => exact execCoolingOverride e
  | sysShdnAssert => exact execSysShdnAssert e
  | sysShdnHalfReset => exact execSysShdnHalfReset e
  | sysShdnRelease => exact execSysShdnRelease e
  | sysShdnExternal => exact execSysShdnExternal e
  | coolantTemperatureWarning => exact execCoolantTemperatureWarning e
  | fanSpeedMeasure => exact execFanSpeedMeasure e
  | fanSuspect => exact execFanSuspect e
  | fanKickEnd => exact execFanKickEnd e
  | fanCommand => exact execFanCommand e
  | segmentFrame => exact execSegmentFrame e
  | segmentLatch => exact execSegmentLatch e
  | symbolEvaluation => exact execSymbolEvaluation e
  | panelLoad => exact execPanelLoad e
  | panelCopyComplete => exact execPanelCopyComplete e
  | panelEnable => exact execPanelEnable e
  | panelSequenceStep => exact execPanelSequenceStep e
  | safeOffAssert => exact execSafeOffAssert e
  | safeOffRelease => exact execSafeOffRelease e
  | safeOffDiscrepancy => exact execSafeOffDiscrepancy e
  | canRxError => exact execCanRxError e
  | mirrorRefresh => exact execMirrorRefresh e
  | twinScaleMergeEnd => exact execTwinScaleMergeEnd e
  | _ => exact absurd rfl hc

/-- The tick moves the time on, adds to the service life and reports what the event queues lost. -/
theorem tick (e : s.w.Canonical) : s.tick.w.Canonical :=
  have lived : (World.lifeTick { s.w with now := s.w.now + 1000 } 1000).Canonical :=
    of_rest (w := { s.w with now := s.w.now + 1000 }) (e.of_eq rfl rfl rfl) (World.lifeTick_rest (by decide) (Rest.refl _ _))
  lived.reportLost.reportLost

end World.Canonical
end Sys2Proof.Machine
end

section
open Sys2Proof Sys2Proof.Machine

/-- Settles O4: a command whose footprint names a memory writes it through `Memory.write`, or takes a part of another in order; what
raises events leaves the logs; every other command keeps the memories by its frame. The tick names none. -/
theorem everyStepKeepsTheMemories : Obligations.everyStepKeepsTheMemories := by
  unfold Obligations.everyStepKeepsTheMemories
  intro s t hs ht
  rw [State.memOk_iff] at hs ⊢
  unfold step at ht
  split at ht
  · injection ht with ht
    rw [← ht]
    exact hs.tick
  next c rest _ => exact World.Canonical.lands_exec (s := { s with pending := rest }) hs c t ht

end

end
